-- ==== Sys2Proof/Word.lean ====
section
/-!
DEFINITION. Word.lean: the word types of the XA1284. Every register is 32 bits wide (20_address_map.md), the
timebase and the microword registers are 64 bits wide (R22, R195), memory is addressed in bytes.
-/

namespace Sys2Proof

abbrev Word := BitVec 32
abbrev DWord := BitVec 64
abbrev Byte := BitVec 8

end Sys2Proof
end

