-- ==== Sys2Proof/Types.lean ====
section
/-!
DEFINITION. Types.lean: the plain types that commands carry as operands and that the state holds: who accesses a
register, fault classes, fence regions, units, device states.
-/

namespace Sys2Proof

/-- Who makes a register access (R10): one function on one host port (function 0 is the PF, function n is VF n),
the management port, or one Trowel flow context through SPACE CSR. -/
inductive Accessor where
  | fn (port n : Nat)
  | mgt
  | flow (tile ctx : Nat)
  deriving DecidableEq, Repr

/-- Fault classes (Table 17-3). -/
inductive Cls where
  | corrected | contained | fatal
  deriving DecidableEq, Repr

/-- CLASS encoding of Table 17-5; 0 marks an empty slot. -/
def Cls.code : Cls → Nat
  | .corrected => 1
  | .contained => 2
  | .fatal => 3

/-- One level up (R490). -/
def Cls.up : Cls → Cls
  | .corrected => .contained
  | _ => .fatal

/-- Fence regions (Table 17-4). -/
inductive Region where
  | none
  | flowCtx (tile ctx : Nat)
  | tile (t : Nat)
  | renderEngine (e : Nat)
  | maskLane (l : Nat)
  | hodChannel (c : Nat)
  | flashChannel (c : Nat)
  | actuator (a : Nat)
  | hdaMotor (h : Nat)
  | core (c : Nat)
  | dramSched (c : Nat)
  | dramChannel (c : Nat)
  | dramPage (c : Nat)
  | link (l : Nat)
  | port (p : Nat)
  | snoopFilter (c : Nat)
  | endpoint (n : Nat)
  | bank (r : Nat)
  | unit (n : Nat)
  deriving DecidableEq, Repr

/-- A unit that can be retired or powered (Table 01-14, Table 02-10). `ozper 0` is the east port. -/
inductive UnitId where
  | hostPort (p : Nat)
  | maskLane (l : Nat)
  | renderEngine (e : Nat)
  | hodChannel (c : Nat)
  | tile (p : Nat)
  | dramChannel (c : Nat)
  | flashChannel (c : Nat)
  | flashLun (c lun : Nat)
  | dataPath (a : Nat)
  | actuator (a : Nat)
  | hda (h : Nat)
  | core (c : Nat)
  | ozper (port : Nat)
  | alwaysOn
  | maskRom
  | other (domain : Nat)
  deriving DecidableEq, Repr

/-- Device states (Table 03-4). -/
inductive Phase where
  | off | loading | selftest | discovery | bringup | serving | degraded | ballast | safe | beacon
  deriving DecidableEq, Repr

/-- GLB_STATE.STATE encoding (Table 03-4). -/
def Phase.code : Phase → Nat
  | .off => 0 | .loading => 1 | .selftest => 2 | .discovery => 3 | .bringup => 4
  | .serving => 5 | .degraded => 6 | .ballast => 7 | .safe => 8 | .beacon => 9

/-- Full or reduced service: SERVING or DEGRADED. -/
def Phase.inService : Phase → Bool
  | .serving => true
  | .degraded => true
  | _ => false

/-- Domain index of a unit, in Table 02-10 order (PWR_PD_REQ.DOMAIN). -/
def UnitId.domain : UnitId → Option Nat
  | .hostPort p => some p
  | .maskLane l => some (9 + l)
  | .renderEngine e => some (25 + e)
  | .hodChannel c => some (33 + c)
  | .tile p => some (49 + p)
  | .dramChannel c => some (95 + c)
  | .flashChannel c => some (99 + c)
  | .flashLun _ _ => .none
  | .dataPath a => some (135 + a)
  | .actuator _ => .none
  | .hda h => some (167 + h)
  | .core c => some (183 + c)
  | .ozper n => some (191 + n)
  | .alwaysOn => .none
  | .maskRom => .none
  | .other d => some d

/-- A flit whose acknowledgement its sender still waits for: the pair, the virtual channel, a number (R15). -/
structure Flit where
  src : Nat
  dst : Nat
  vc  : Nat
  id  : Nat
  deriving DecidableEq, Repr

/-- One entry of a segment list (R133). -/
structure Seg where
  addr : Nat
  len  : Nat
  rsv  : Nat := 0
  deriving DecidableEq, Repr

/-- A submission entry by field: the I/O formats v1 and v2 (Tables 05-2, 05-3) and the admin format (Table 05-6)
share it. `rsv` is nonzero when a reserved bit of the entry's format is set; `segs` is the segment list Admission
read where LIST is 1. -/
structure Sqe where
  opc     : Nat := 0
  flags   : Nat := 0
  cid     : Nat := 0
  nsid    : Nat := 0
  slba    : Nat := 0
  nlb     : Nat := 0
  cdw     : Nat := 0
  buf0    : Nat := 0
  buf0Len : Nat := 0
  buf1Len : Nat := 0
  buf1    : Nat := 0
  qos     : Nat := 0
  pushIdx : Nat := 0
  itag    : Nat := 0
  target  : Nat := 0
  cdw0    : Nat := 0
  cdw1    : Nat := 0
  cdw2    : Nat := 0
  cdw3    : Nat := 0
  rsv     : Nat := 0
  segs    : List Seg := []
  deriving DecidableEq, Repr

/-- What a configuration request does (R102, R104, R107, R110, R113, R119). -/
inductive CfgOp where
  | readId
  | readClassRevision
  | readSubsystem
  | readTotalVfs
  | readVfOffsetStride
  | readVfDeviceId
  | readNumVfs
  | readAer
  | clearAer (bits : Nat)
  | writeMsixEnable (on : Bool)
  | writeMsixMaskAll (on : Bool)
  | writeVfEnable (on : Bool)
  | writeRelaxedOrdering (on : Bool)
  | writeCplTimeout (range : Nat) (disable : Bool)
  | writeMaxSizes (payload readReq : Nat)
  | otherRead (off : Nat)
  | otherWrite (off value : Nat)
  deriving DecidableEq, Repr

/-- A discovery measurement as the front end delivered it: item code of Table 03-17, its binary32 value, whether
it lies inside its limit, and whether the unit responded at all. -/
structure Measured where
  item  : Nat
  value : Word
  inTol : Bool
  resp  : Bool := true
  deriving DecidableEq, Repr

/-- A failed checker of Table 03-16: its row counted from 0, the instance in the row, and the unit it serves. -/
structure CheckerFail where
  row  : Nat
  inst : Nat
  unit : UnitId
  deriving DecidableEq, Repr

/-- A flash descriptor by field (Table 10-4); `rsvd` says that some reserved bit is set. -/
structure FlashDesc where
  typ    : Nat := 0
  sys    : Bool := false
  slc    : Bool := false
  hardOnly : Bool := false
  tag    : Nat := 0
  lun    : Nat := 0
  row    : Nat := 0
  pset   : Nat := 0
  first  : Nat := 0
  count  : Nat := 0
  aux    : Nat := 0
  stgOff : Nat := 0
  tenant : Nat := 0
  reply  : Nat := 0
  rsvd   : Bool := false
  deriving DecidableEq, Repr

/-- What a NAND operation or a decode brings (R312, R313, R321): units (numbered from FIRST) that decoded, units found
erased, most bits corrected, the syndrome weight, the strength the row stamp names when it was read, and whether the
LUN reported failure. -/
structure LunOut where
  ok     : List Nat := []
  erased : List Nat := []
  bits   : Nat := 0
  weight : Nat := 0
  stamp  : Option Nat := none
  failed : Bool := false
  unreadable : List Nat := []
  deriving DecidableEq, Repr

/-- A block of a command whose unit does not decode (R260, R273): strips of its stripe that are gone (retired or
unreadable) and strips on absent members. -/
structure BadBlock where
  lba  : Nat
  gone : List Nat := []
  away : List Nat := []
  deriving DecidableEq, Repr

/-- LSEQ and ACK of a received Ozper frame (Table 16-2). -/
structure OzHdr where
  lseq : Nat
  ack  : Nat
  deriving DecidableEq, Repr

/-- A CAP frame (Table 16-4). -/
structure CapFrame where
  versions : Nat := 0
  port     : Nat := 0
  uid      : Nat := 0
  ringId   : Nat := 0
  boot     : Nat := 0
  epoch    : Nat := 0
  dirty    : Nat := 0
  grant    : Nat := 0
  deriving DecidableEq, Repr

/-- A MIRROR frame (Tables 16-4, 16-5): its number, the blocks sent (ascending), the header's fields. -/
structure MirrorMsg where
  mid    : Nat
  slot   : Nat
  sent   : Nat
  mask   : Nat
  clen   : Nat := 0
  tenant : Nat
  ns     : Nat
  incarn : Nat
  gran   : Nat
  gen    : Nat
  tags   : List Nat
  epoch  : Nat
  blocks : List Nat
  deriving DecidableEq, Repr

/-- A wrapped-key blob (Table 06-3) by field; `pointOk` says EPH_PUB is a point of P-384, `unwrapOk` that the RFC 3394
integrity value holds, `key` is the 64-byte XTS key it unwraps to. -/
structure KeyBlob where
  magic    : Nat := 0x4B574158
  tenant   : Nat := 0
  rsvd     : Nat := 0
  boot     : Nat := 0
  pointOk  : Bool := true
  unwrapOk : Bool := true
  key      : Nat := 0
  deriving DecidableEq, Repr

/-- A DAYMARK_CLEAR request (Table 18-5) by field; `keyHash` is the SHA-384 of OP_KEY, `sigOk` the outcome of its
signature check. -/
structure ClearReq where
  magic   : Nat := 0x43444158
  scope   : Nat := 1
  rsvd    : Nat := 0
  uid     : Nat := 0
  boot    : Nat := 0
  nonce   : List Word := []
  keyHash : Nat := 0
  sigOk   : Bool := true
  deriving DecidableEq, Repr

/-- What one servo lane demodulated at a wedge (R381): whether the SAM was found in its window, the wedge number read,
the raw Gray code, and the burst sums. -/
structure LaneIn where
  sam   : Bool
  wedge : Nat
  gray  : Nat
  a     : Nat
  b     : Nat
  c     : Nat
  d     : Nat
  deriving DecidableEq, Repr

/-- A converted sample (R56): a value, or INVALID. -/
structure Conv where
  value : Rat := 0
  valid : Bool := true
  deriving DecidableEq, Repr

/-- A disk operation as its producer names it (R346): band, fragment, FIRST and COUNT, first staging slot, tenant tag, FAST,
where its completion goes, and for a WRITE the units in its staging slots. -/
structure DiskReq where
  band  : Nat
  frag  : Nat
  first : Nat := 0
  count : Nat := 1
  slot0 : Nat := 0
  tag   : Nat := 0
  fast  : Bool := false
  reply : Nat := 0
  units : List Nat := []
  deriving DecidableEq, Repr

/-- A Render job (Table 15-1) by field. `rsvd` says that a reserved field outside this list is nonzero, `tagsOk` that the
tags of the slots it names agree with TENANT (R180); `flow` is the tile and context of the flow that produced it. -/
structure RenderJob where
  op      : Nat := 1
  zlib    : Bool := false
  final   : Bool := true
  tag     : Nat := 0
  depth   : Nat := 0
  reply   : Nat := 0
  inAddr  : Nat := 0
  inLen   : Nat := 0
  outAddr : Nat := 0
  outLen  : Nat := 1
  tenant  : Nat := 0x3FE
  ctx     : Nat := 0
  expect  : Nat := 0
  rsvd    : Bool := false
  tagsOk  : Bool := true
  flow    : Option (Nat × Nat) := none
  deriving DecidableEq, Repr

end Sys2Proof
end

