-- ==== Sys2Proof/Image.lean ====
section
/-!
DEFINITION. Image.lean: the configuration image as the loader reads it from a slot: the header and signature facts
that the checks of Table 03-13 look at, and the declarations of each section by field. The spec gives PLATFORM no
byte layout, so every section is held by field, not by byte; each section's own rules are in the `ok` predicate of
its owner's file.
-/

namespace Sys2Proof

/-- PLATFORM (R42, R48, R99, R103, R105, R107, R109, R544): ports, functions, pins, AVS settings, present units. -/
structure PlatformSec where
  ctlPort    : Option Nat := none
  portPresent : List Bool := []
  vfBlocks   : List Nat := []
  maxRate    : List Nat := []
  maxWidth   : List Nat := []
  subsystem  : Nat := 0
  gpio       : List Nat := []
  avsMode    : Nat := 0
  avsVset    : Nat := 800
  avsVmin    : Nat := 700
  avsVmax    : Nat := 900
  avsPaceLo  : Nat := 0x180
  avsPaceHi  : Nat := 0x1C0
  flashPresent : List Bool := []
  hdaPresent : List Bool := []
  mgtAddress : Option Nat := none
  deriving DecidableEq, Repr

/-- SPINUP (Table 03-12). -/
structure SpinupSec where
  vmStart  : Nat := 11400
  spinConc : Nat := 2
  spinTmo  : Nat := 30
  deriving DecidableEq, Repr

/-- RING (Table 16-1). -/
structure RingSec where
  ringId     : Nat
  partner    : Nat
  versions   : Nat
  orphanHold : Nat := 60
  deriving DecidableEq, Repr

/-- ENERGY (Table 19-1). The integer voltages are in mV; the binary32 fields are held by their exact values
in the unit of the table; `finite` is false where a binary32 field is not a finite number. -/
structure EnergySec where
  vmFail    : Nat := 10800
  vmFailNs  : Nat := 2000
  vmHold    : Nat := 10000
  vmOk      : Nat := 11400
  pHold     : Rat
  eUnload   : Rat
  cVhold    : Rat := 0
  vhFull    : Rat := 0
  vhMin     : Rat := 0
  vhGain    : Rat := 0
  pVh       : Rat := 0
  etaVh     : Nat := 90
  etaRg     : Nat := 80
  rgMinPct  : Nat := 30
  marginPct : Nat := 20
  finite    : Bool := true
  deriving DecidableEq, Repr

/-- One record of the EVENTS section (R510). -/
structure EventRec where
  code  : Nat
  depth : Nat
  perm  : Bool
  rate  : Nat
  deriving DecidableEq, Repr


/-- BUDGETS (R187): BG_DRAM, then read and write budgets of the flash, disk and hybrid pools, in MB/s. -/
structure BudgetsSec where
  bgDram : Nat := 0
  rd     : List Nat := [0, 0, 0]
  wr     : List Nat := [0, 0, 0]
  deriving DecidableEq, Repr

/-- The records of VENDOR_BUNDLE (Table 07-2): patch words, traps, the vendor entry table by
index (address plus 1, 0 for an absent entry, and SINCE),
TILE_CFG; `recordsOk` says no record breaks R202 or Table 08-11. -/
structure BundleSec where
  patches : List (Nat × List Nat) := []
  traps   : List (Nat × Nat) := []
  entries : List (Nat × Nat) := []
  entryIf : Nat := 0x10000
  ways    : Nat := 1
  wdog    : Nat := 256
  recordsOk : Bool := true
  deriving DecidableEq, Repr

/-- A Skim section (Table 08-13): its header fields and code words. -/
structure SkimSec where
  magic   : Nat := 0x4B534158
  length  : Nat := 0
  skimIf  : Nat := 0x10000
  subset  : Bool := false
  rsvd    : Nat := 0
  used    : List Nat := []
  bind    : List Nat := []
  words   : List Nat := []
  deriving DecidableEq, Repr

/-- What SKIM_INSTALL finds in BUF0 (Table 07-4): the section, and the outcome of the key and signature check. -/
structure SkimBlob where
  sec    : SkimSec := {}
  keyHash : Nat := 0
  sigOk  : Bool := false
  deriving DecidableEq, Repr

/-- POOLS (Table 09-2); capacities in 4 KiB blocks. -/
structure PoolsSec where
  fmemb      : Nat := 0
  dmemb      : Nat := 0
  flashCap   : Nat := 0
  diskCap    : Nat := 0
  hybCap     : Nat := 0
  hybFlash   : Nat := 0
  wlog       : Nat := 0
  fOpen      : Nat := 3
  dOpen      : Nat := 3
  sealTmo    : Nat := 2000
  gcStart    : Nat := 5
  gcUrgent   : Nat := 2
  destageOvr : Nat := 16
  wlogHi     : Nat := 75
  coldT      : Nat := 4
  hotT       : Nat := 64
  settleHi   : Nat := 90
  settleLo   : Nat := 80
  heatHalf   : Nat := 600
  reshapeCkpt : Nat := 16
  rebuildMbps : Nat := 4000
  deriving DecidableEq, Repr

/-- One DRAM channel of MEMORY (Table 09-10): DIMMs, X8, SPEED code, GiB. -/
structure DramChan where
  dimms : Nat := 0
  x8    : Bool := false
  speed : Nat := 0
  gib   : Nat := 0
  deriving DecidableEq, Repr

/-- MEMORY (Table 09-10): DIRTY_MAX and SECOND_MAX in MiB. -/
structure MemorySec where
  chans      : List DramChan := []
  dirtyMax   : Nat := 1024
  secondMax  : Nat := 1024
  maplogMi   : Nat := 4
  jrnHistory : Nat := 1
  ckptPeriod : Nat := 60
  deriving DecidableEq, Repr

/-- A LUN profile (Table 10-2); times in µs; STRENGTH_MAP as (level, PE count) pairs; RR_TABLE by 16 x page type + set,
each entry its four parameter bytes. -/
structure LunProfile where
  id       : Nat := 0
  idMask   : Nat := 0
  iface    : Nat := 0
  rate     : Nat := 400
  ces      : Nat := 1
  vpc      : Nat := 1
  lpv      : Nat := 1
  planes   : Nat := 1
  bits     : Nat := 1
  upp      : Nat := 4
  pageBytes : Nat := 18432
  psets    : Nat := 16
  blocks   : Nat := 1232
  sysGroups : Nat := 3
  ipr      : Bool := false
  tR       : Nat := 50
  tProg    : Nat := 500
  tProgSlc : Nat := 200
  tBers    : Nat := 5000
  tRst     : Nat := 500
  slcMethod : Nat := 0
  slcCode  : Nat := 0
  slcValue : Nat := 0
  rrFeat   : Nat := 0
  rrSets   : Nat := 1
  softStep : Nat := 1
  peLimit  : Nat := 10000
  readLimit : Nat := 100000
  refreshBits : Nat := 30
  patrolDays : Nat := 30
  wlSpread : Nat := 1000
  drive    : Nat := 0
  odt      : Nat := 0
  strengthMap : List (Nat × Nat) := [(0, 0)]
  rrTable  : List (List Nat) := []
  deriving DecidableEq, Repr

/-- FLASH_PROFILES (R301): CHMAP (none is 0xFF) and the profiles. -/
structure FlashProfSec where
  chmap    : List (Option Nat) := []
  profiles : List LunProfile := []
  deriving DecidableEq, Repr

/-- A zone (Table 11-4); TARGET and EQ by their signed numerators. -/
structure ZoneRec where
  cylStart : Nat := 0
  rate     : Nat := 800
  spt      : Nat := 16
  frag     : Nat := 1
  dstr     : Nat := 0
  pc       : List Nat := [0, 0, 0]
  target   : List Int := [16, 0, 0, 0, 0]
  eq       : List Int := []
  deriving DecidableEq, Repr

/-- A head entry (Table 11-5). -/
structure HeadRec where
  readHeat  : Nat := 0
  writeHeat : Nat := 0
  rbias     : Nat := 0
  slope     : Int := 0
  deriving DecidableEq, Repr

/-- A zone table (Table 11-3). -/
structure ZoneTable where
  heads    : Nat := 1
  rpm      : Nat := 7200
  wedges   : Nat := 600
  wedgeNs  : Nat := 600
  cyls     : Nat := 64
  bandCyl  : Nat := 1
  pre      : Nat := 20
  resync   : Nat := 12
  tPreheat : Nat := 50
  retryRevs : Nat := 2
  global_  : Nat := 1
  wcur     : Nat := 0
  zones    : List ZoneRec := []
  headRecs : List HeadRec := []
  deriving DecidableEq, Repr

/-- ZONES (R337): HMAP (none is 0xFF) and the zone tables. -/
structure ZonesSec where
  hmap   : List (Option Nat) := []
  tables : List ZoneTable := []
  deriving DecidableEq, Repr
/-- A node word (Table 12-5) by field; operands are 9 bits, bit 8 set for a coefficient. `rsv` is nonzero when a
reserved bit is set. -/
structure NodeWord where
  op  : Nat := 0x3F
  dst : Nat := 0
  a   : Nat := 0
  b   : Nat := 0
  c   : Nat := 0
  aw  : Bool := false
  aux : Nat := 0
  rsv : Nat := 0
  deriving DecidableEq, Repr

/-- A graph: its directory entry (Table 12-4) and body. -/
structure GraphRec where
  kind  : Nat := 0
  ops   : Nat := 0
  nodes : List NodeWord := []
  coefs : List Word := []
  deriving DecidableEq, Repr

/-- A task entry (Table 12-3). -/
structure TaskEnt where
  kind  : Nat := 0
  graph : Nat := 0
  core  : Nat := 0
  ftz   : Bool := false
  div   : Nat := 1
  deadline : Nat := 1000
  rsv   : Nat := 0
  deriving DecidableEq, Repr

/-- LANTERN (R362). -/
structure LanternSec where
  graphFmt : Nat := 1
  tasks    : List TaskEnt := []
  graphs   : List GraphRec := []
  deriving DecidableEq, Repr

/-- An actuator record (Table 13-7); binary32 fields by their exact values, `finite` false where one is not a finite
number. -/
structure ActRec where
  rNom     : Rat := 0
  lNom     : Rat := 0
  kt       : Rat := 0
  tolPct   : Nat := 1
  j        : Rat := 0
  tpr      : Rat := 0
  rshunt   : Rat := 0
  vsGain   : Rat := 0
  iMax     : Rat := 0
  aNom     : Rat := 0
  vMax     : Rat := 0
  tBlend   : Rat := 0
  ds       : Rat := 0
  ts       : Rat := 0
  vDrop    : Rat := 0
  carrier  : Nat := 20
  dead     : Nat := 10
  minPulse : Nat := 20
  tLL      : Nat := 300
  wiThr    : Nat := 0
  wrOnThr  : Nat := 0
  rdOnThr  : Nat := 0
  onN      : Nat := 2
  rdN      : Nat := 1
  feLimit  : Nat := 1
  feTmo    : Nat := 10
  satTmo   : Nat := 10
  vLoad    : Rat := 0
  vUnload  : Rat := 0
  iPark    : Rat := 0
  iLatch   : Rat := 0
  finite   : Bool := true
  deriving DecidableEq, Repr

/-- A spindle record (Table 14-3). -/
structure SpinRec where
  rNom     : Rat := 0
  lNom     : Rat := 0
  keNom    : Rat := 0
  tolPct   : Nat := 1
  poles    : Nat := 4
  j        : Rat := 0
  rshunt   : Rat := 0
  vpGain   : Rat := 0
  iMax     : Rat := 0
  acc      : Rat := 0
  accMin   : Rat := 0
  iAlign   : Rat := 0
  iBrake   : Rat := 0
  carrier  : Nat := 20
  dead     : Nat := 10
  minPulse : Nat := 20
  tAlign   : Nat := 10
  fOl0     : Nat := 1
  accOl    : Nat := 1
  tOpenMax : Nat := 100
  blankDeg : Nat := 5
  zcN      : Nat := 6
  focOn    : Nat := 10
  focOff   : Nat := 5
  stopPct  : Nat := 2
  losN     : Nat := 2
  losBand  : Nat := 10
  adv      : List (Nat × Nat) := [(0, 0)]
  syncOfs  : Nat := 0
  tLL      : Nat := 300
  iMeas    : Rat := 0
  decel    : Rat := 0
  finite   : Bool := true
  deriving DecidableEq, Repr

/-- MOTOR (R406, R411): the header fields and the records of present actuators and HDAs. -/
structure MotorSec where
  svRate   : Nat := 500
  grayWin  : Nat := 1
  shockHda : List Nat := []
  shockHold : Nat := 1
  vmMax    : Nat := 12500
  vmBand   : Nat := 100
  vmShort  : Nat := 12600
  syncOut  : Option Nat := none
  syncIn   : Nat := 0
  acts     : List (Option ActRec) := []
  spins    : List (Option SpinRec) := []
  deriving DecidableEq, Repr


/-- The image's header and sections. -/
structure Image where
  ucodeVer : Nat := 0
  skimIf   : Nat := 0
  tableFmt : List Nat := [1, 1, 1, 1]
  skimSubset : Bool := false
  platform : PlatformSec := {}
  spinup   : Option SpinupSec := none
  ring     : Option RingSec := none
  energy   : EnergySec := { pHold := 1, eUnload := 1 }
  events   : List EventRec := []
  budgets  : BudgetsSec := {}
  bundle   : BundleSec := {}
  skimSec  : Option SkimSec := none
  pools    : PoolsSec := {}
  memory   : MemorySec := {}
  flashProf : FlashProfSec := {}
  zones    : ZonesSec := {}
  lantern  : LanternSec := {}
  motor    : MotorSec := {}
  deriving DecidableEq, Repr

/-- One entry of the section table (Table 03-10), with the outcome of its CRC. -/
structure SectionEntry where
  typ      : Nat
  version  : Nat := 1
  required : Bool := false
  offset   : Nat
  length   : Nat
  crcOk    : Bool := true
  deriving DecidableEq, Repr

/-- The vendor bundle's header and trailer (R77), with the outcome of its signature check. -/
structure BundleFacts where
  ucodeVer : Nat := 0
  stepLo   : Nat := 0x10
  stepHi   : Nat := 0x10
  entryIf  : Nat := 0
  graphFmts : Nat := 0
  tableMax : List Nat := [1, 1, 1, 1]
  tableMin : List Nat := [1, 1, 1, 1]
  keyIndex : Nat := 0
  sigOk    : Bool := true
  knownTypes : List Nat := []
  revokes  : List Nat := []
  deriving DecidableEq, Repr

/-- What the loader finds in a slot (R75 to R80): whether the NOR read without error, the header's fields, the
signature block, the section table, the bundle, and the sections by field. `headerOk` is the outcome of check 2. -/
structure SlotFacts where
  readOk   : Bool := true
  headerOk : Bool := true
  imageLen : Nat := 0
  stepLo   : Nat := 0x10
  stepHi   : Nat := 0x10
  graphFmt : Nat := 0
  opSigned : Bool := false
  enroll   : Bool := false
  opZero   : Bool := true
  opKeyHash : Nat := 0
  opSigOk  : Bool := false
  sections : List SectionEntry := []
  bundle   : BundleFacts := {}
  skim     : Bool := false
  img      : Image := {}
  deriving DecidableEq, Repr

end Sys2Proof
end

