-- ==== Sys2Proof/Syntax.lean ====
section
/-!
DEFINITION. Syntax.lean: the commands of the block, one constructor for each row of spec/opcode_table.json, in the
table's order. The docstring of a constructor is its row's rule. Operands carry what arrives with the command: which
unit, a value written, an outcome the environment decides (a pass or failure of a medium, a measured value).
-/

namespace Sys2Proof

/-- One command of the XA1284. -/
inductive Instr where
  /-- R6. -/
  | registerWrite (a : Accessor) (off bytes : Nat) (v : Word) (ok : Bool)
  /-- R9. -/
  | rcFieldRead (a : Accessor) (off bytes : Nat)
  /-- R10. -/
  | pairedLoRead (a : Accessor) (off : Nat)
  /-- R10. -/
  | pairedHiRead (a : Accessor) (off : Nat)
  /-- R10. -/
  | pairedLoWrite (a : Accessor) (off : Nat) (v : Word)
  /-- R10. -/
  | pairedHiWrite (a : Accessor) (off : Nat) (v : Word)
  /-- R13. -/
  | lathLinkDown (link : Nat) (unacked : List Flit)
  /-- R15. -/
  | rerouteComplete (link : Nat)
  /-- R18. -/
  | paceUpdate (n : Nat) (pace : BitVec 16)
  /-- R18. -/
  | minRestart
  /-- R22. -/
  | timestampGrant (now : Nat)
  /-- R64. -/
  | porAssert (internal : Bool)
  /-- R61. -/
  | porRelease
  /-- R64. -/
  | warmRstPin
  /-- R65. -/
  | warmReset (mgt : Bool)
  /-- R498. -/
  | enterSafe
  /-- R65. -/
  | warmStopEnd
  /-- R83. -/
  | loaderStart (testEn norPresent sfdpOk : Bool) (size : Nat)
  /-- R79. -/
  | slotChecked (f : SlotFacts) (avsOk : Bool)
  /-- R85. -/
  | selftestDone (fails : List CheckerFail) (turning : List Nat)
  /-- R88. -/
  | discoveryDone (items : List Measured) (dramBad : List Nat)
  /-- R88. -/
  | ozperDiscoveryTimeout
  /-- R88. -/
  | vmMeasureTick (value : Word)
  /-- R89. -/
  | standstillMeasurement (m : Measured) (quiescent : Bool)
  /-- R90. -/
  | bringupDone (jrnLost bad : List Nat) (n : Nat)
  /-- R91. -/
  | spinupStart
  /-- R91. -/
  | spinupTimeout (h : Nat) (drive : Bool)
  /-- R84. -/
  | norRead
  /-- R84. -/
  | norProgram
  /-- R84. -/
  | norErase
  /-- R84. -/
  | markTrial (slot : Nat)
  /-- R84. -/
  | clearTrial
  /-- R84. -/
  | norCommandDone (norError verifyBad : Bool)
  /-- R94. -/
  | pdOnRequest (d : Nat)
  /-- R94. -/
  | pdOffRequest (d : Nat)
  /-- R95. -/
  | pdPowerDownDone (d : Nat)
  /-- R95. -/
  | pdPowerUpDone (d : Nat) (pass turning : Bool)
  /-- R88. -/
  | paramSelect (item : Nat)
  /-- R41. -/
  | gpioFuncWrite (n : Nat) (value : Word)
  /-- R43. -/
  | fanTachEdge (k periodUs : Nat)
  /-- R48. -/
  | avsTrackTick (ok : Bool)
  /-- R48. -/
  | avsReadTick (ok : Bool) (mv cur : Nat)
  /-- R49. -/
  | avsRetry (ok : Bool)
  /-- R49. -/
  | busFailClear (ok : Bool)
  /-- R46. -/
  | supplyMonitorCrossing (r : Nat) (high : Bool)
  /-- R59. -/
  | tempThreshold (k level : Nat)
  /-- R102. -/
  | perstRelease (p : Nat)
  /-- R101. -/
  | linkUp (p rate width : Nat) (flit rev : Bool)
  /-- R117. -/
  | linkRetrain (p rate width : Nat) (flit rev : Bool)
  /-- R117. -/
  | portReset (p : Nat) (perst : Bool)
  /-- R102. -/
  | configRequest (p n : Nat) (op : CfgOp)
  /-- R112. -/
  | memoryRequest (p n bar off len : Nat) (data : Option (List Byte)) (ok : Bool)
  /-- R114. -/
  | vfFlr (p n : Nat)
  /-- R116. -/
  | pfFlr (p : Nat)
  /-- R116. -/
  | vfEnableClear (p : Nat)
  /-- R107. -/
  | numvfsWrite (p value : Nat)
  /-- R110. -/
  | busMasterEnableWrite (p n : Nat) (on : Bool)
  /-- R100. -/
  | dstateChange (p n : Nat) (d3 : Bool)
  /-- R114. -/
  | teardownCompletionWaitEnd (p n : Nat)
  /-- R114. -/
  | teardownEnd (p n : Nat)
  /-- R120. -/
  | hostCompletionTimeout (fid q : Nat) (seq : Option Nat)
  /-- R121. -/
  | hostCompletionArrival (fid q : Nat) (seq : Option Nat) (status : Nat)
  /-- R113. -/
  | msixUnmask (p n vec : Nat)
  /-- R136. -/
  | sqDoorbell (fid q tail : Nat)
  /-- R138. -/
  | cqDoorbell (fid q head : Nat)
  /-- R127. -/
  | aqCfgWrite (fid : Nat) (value : Word)
  /-- R139. -/
  | sqeFetch (fid : Nat)
  /-- R153. -/
  | sqeFetched (fid q : Nat) (entries : List Sqe)
  /-- R196. -/
  | flowDispatch (seq : Nat)
  /-- R141. -/
  | flush (seq : Nat)
  /-- R23. -/
  | write (seq : Nat) (data clens : List Nat) (bad : List BadBlock)
  /-- R156. -/
  | read (seq : Nat) (bad : List BadBlock)
  /-- R142. -/
  | writeZeroes (seq : Nat) (clens : List Nat) (bad : List BadBlock)
  /-- R142. -/
  | deallocate (seq : Nat) (clens : List Nat) (bad : List BadBlock)
  /-- R143. -/
  | verify (seq : Nat) (bad : List BadBlock)
  /-- R144. -/
  | push (seq : Nat) (bad : List BadBlock) (fenceOk : Bool)
  /-- R145. -/
  | operatorOpcode (seq : Nat)
  /-- R164. -/
  | commandComplete (seq : Nat)
  /-- R149. -/
  | createQp (seq : Nat)
  /-- R149. -/
  | deleteQp (seq : Nat)
  /-- R150. -/
  | identify (seq : Nat)
  /-- R151. -/
  | getLog (seq : Nat)
  /-- R152. -/
  | journalQuery (seq : Nat)
  /-- R171. -/
  | tenantCreate (seq : Nat)
  /-- R181. -/
  | tenantDestroy (seq : Nat)
  /-- R181. -/
  | destroyReleaseEnd (t : Nat)
  /-- R176. -/
  | keyLoad (seq : Nat) (blob : KeyBlob)
  /-- R177. -/
  | keyUnload (seq : Nat)
  /-- R173. -/
  | nsCreate (seq : Nat)
  /-- R174. -/
  | nsDelete (seq : Nat)
  /-- R186. -/
  | contractSet (seq : Nat) (record : List Byte)
  /-- R186. -/
  | contractClear (seq : Nat)
  /-- R191. -/
  | pushGrant (seq : Nat)
  /-- R191. -/
  | pushRevoke (seq : Nat)
  /-- R211. -/
  | skimInstall (seq : Nat) (blob : SkimBlob)
  /-- R211. -/
  | skimInstallDrained (match_ : Bool)
  /-- R477. -/
  | orphanRead (seq : Nat)
  /-- R475. -/
  | orphanRelease (seq : Nat)
  /-- R515. -/
  | daymarkClear (seq : Nat) (req : ClearReq) (persistOk : Bool)
  /-- R159. -/
  | xqResumeNext (fid q : Nat)
  /-- R159. -/
  | xqResumeSkip (fid q n : Nat)
  /-- R159. -/
  | xqResumeReset (fid q : Nat)
  /-- R159. -/
  | resumeApply (fid q : Nat)
  /-- R166. -/
  | journalPersistTick
  /-- R189. -/
  | pieceStart (seq : Nat)
  /-- R189. -/
  | buoyRefill (t n : Nat) (wr : Bool)
  /-- R190. -/
  | capacityChange
  /-- R179. -/
  | maskingKatTick (l : Nat) (pass : Bool)
  /-- R179. -/
  | maskingLockstepMismatch (l : Nat)
  /-- R229. -/
  | nop (t c : Nat)
  /-- R229. -/
  | add (t c : Nat)
  /-- R229. -/
  | sub (t c : Nat)
  /-- R229. -/
  | and (t c : Nat)
  /-- R229. -/
  | or (t c : Nat)
  /-- R229. -/
  | xor (t c : Nat)
  /-- R229. -/
  | shl (t c : Nat)
  /-- R229. -/
  | shr (t c : Nat)
  /-- R229. -/
  | sar (t c : Nat)
  /-- R229. -/
  | mov (t c : Nat)
  /-- R230. -/
  | cmp (t c : Nat)
  /-- R230. -/
  | tst (t c : Nat)
  /-- R229. -/
  | mul (t c : Nat)
  /-- R229. -/
  | minu (t c : Nat)
  /-- R229. -/
  | maxu (t c : Nat)
  /-- R229. -/
  | ext (t c : Nat)
  /-- R229. -/
  | ins (t c : Nat)
  /-- R229. -/
  | clz (t c : Nat)
  /-- R229. -/
  | popc (t c : Nat)
  /-- R240. -/
  | crc (t c : Nat)
  /-- R231. -/
  | ld (t c : Nat) (err : Bool)
  /-- R231. -/
  | st (t c : Nat) (err ok : Bool)
  /-- R221. -/
  | fenceW (t c : Nat)
  /-- R229. -/
  | send (t c : Nat)
  /-- R229. -/
  | wait (t c : Nat)
  /-- R229. -/
  | poll (t c : Nat)
  /-- R229. -/
  | time (t c : Nat)
  /-- R206. -/
  | stcs (t c : Nat)
  /-- R206. -/
  | stcsComplete
  /-- R240. -/
  | version (t c : Nat)
  /-- R241. -/
  | bufAlloc (t c : Nat) (room : Bool)
  /-- R241. -/
  | bufFree (t c : Nat)
  /-- R240. -/
  | nsRead (t c : Nat) (bad : List BadBlock)
  /-- R242. -/
  | nsWrite (t c : Nat) (clens : List Nat) (bad : List BadBlock)
  /-- R242. -/
  | nsZero (t c : Nat) (clens : List Nat) (bad : List BadBlock)
  /-- R240. -/
  | nsInfo (t c : Nat)
  /-- R240. -/
  | hostRead (t c : Nat) (data : List Byte) (ok : Bool)
  /-- R240. -/
  | hostWrite (t c : Nat) (ok : Bool)
  /-- R240. -/
  | bufCrc (t c : Nat)
  /-- R242. -/
  | serviceFlush (t c : Nat)
  /-- R242. -/
  | pushBuf (t c : Nat) (fenceOk : Bool)
  /-- R213. -/
  | messageArrival (t c : Nat) (ws : List DWord)
  /-- R229. -/
  | waitTimeout (t c : Nat)
  /-- R218. -/
  | loadMissFill (t line : Nat) (err : Bool)
  /-- R220. -/
  | storeAck (t i : Nat) (ok : Bool)
  /-- R219. -/
  | snoopInvalidate (t line : Nat)
  /-- R219. -/
  | snoopFilterCover (c : Nat)
  /-- R214. -/
  | flowAbort (t c : Nat) (undef : Bool)
  /-- R215. -/
  | contextWatchdog (t c : Nat)
  /-- R215. -/
  | tileWatchdog (t : Nat)
  /-- R222. -/
  | tileFail (p : Nat)
  /-- R222. -/
  | spareSelftest (p : Nat) (pass : Bool)
  /-- R199. -/
  | scrubRead (a outcome copy : Nat)
  /-- R198. -/
  | csWordRestore (a : Nat) (ok : Bool)
  /-- R224. -/
  | csWindowSelect (value : Word)
  /-- R550. -/
  | destageTake (bad : List BadBlock)
  /-- R270. -/
  | stripeSeal (disk : Bool) (seg stripe : Nat) (parityOk : Bool)
  /-- R270. -/
  | sealTimeout (disk : Bool) (seg stripe : Nat)
  /-- R270. -/
  | stripWriteFail (disk : Bool) (seg stripe m : Nat)
  /-- R24. -/
  | mirrorRelease
  /-- R274. -/
  | memberRetire (disk : Bool) (m : Nat) (sub : Option Nat)
  /-- R274. -/
  | rebuildVisit (disk : Bool) (bad : List BadBlock)
  /-- R278. -/
  | gcCollect (disk : Bool) (bad : List BadBlock)
  /-- R279. -/
  | segmentErase (disk : Bool) (seg : Nat)
  /-- R281. -/
  | extentDestage (t n x : Nat) (clens : List Nat) (bad : List BadBlock)
  /-- R283. -/
  | heatDecay
  /-- R283. -/
  | settlingMove (t n x : Nat) (up : Bool) (clens : List Nat) (bad : List BadBlock)
  /-- R284. -/
  | reshapeGo (value : Word)
  /-- R285. -/
  | reshapeVisit (bad : List BadBlock)
  /-- R287. -/
  | locationLogPersist
  /-- R288. -/
  | checkpointStart
  /-- R288. -/
  | checkpointRequest
  /-- R288. -/
  | checkpointEnd
  /-- R290. -/
  | dramChannelLost (c : Nat)
  /-- R305. -/
  | flashDescriptorArrival (c : Nat) (d : FlashDesc)
  /-- R307. -/
  | flashDescriptorTake (c : Nat) (producer : Option (Nat × Nat))
  /-- R306. -/
  | flashReadDesc (c : Nat)
  /-- R306. -/
  | flashProgramDesc (c : Nat)
  /-- R306. -/
  | flashEraseDesc (c : Nat)
  /-- R306. -/
  | flashScanDesc (c : Nat)
  /-- R306. -/
  | flashReadParamDesc (c : Nat)
  /-- R306. -/
  | flashResetDesc (c : Nat)
  /-- R308. -/
  | lunOperationDone (c lun : Nat) (o : LunOut)
  /-- R309. -/
  | flashCompletionAccept (c : Nat)
  /-- R310. -/
  | flashFence
  /-- R297. -/
  | flashChannelInit (c ident : Nat) (ceFails : List (Nat × Nat)) (lunFails : List Nat) (trainFails : Nat)
  /-- R298. -/
  | flashRetrainTick (c : Nat) (pass : Bool)
  /-- R324. -/
  | lunTimeout (c lun : Nat) (answers othersAnswer : Bool)
  /-- R326. -/
  | flashChannelRetire (c : Nat) (staging : Bool)
  /-- R323. -/
  | patrolScan (c lun row pset : Nat) (bits set : Nat) (soft : Bool)
  /-- R319. -/
  | dumpRowErase (c lun : Nat)
  /-- R346. -/
  | diskRead (a : Nat) (r : DiskReq)
  /-- R350. -/
  | diskWrite (a : Nat) (r : Option DiskReq) (n : Nat)
  /-- R346. -/
  | diskOpSelect (a : Nat)
  /-- R348. -/
  | readPass (a : Nat) (got : List Nat) (syncMiss overrun : Nat)
  /-- R350. -/
  | diskOpTimeout (a : Nat)
  /-- R352. -/
  | wfltCapture (a : Nat)
  /-- R342. -/
  | speedExcursion (h : Nat) (inside : Bool)
  /-- R352. -/
  | diskFence
  /-- R333. -/
  | serialFrame (a : Nat) (ok : Bool) (value : Nat)
  /-- R334. -/
  | fstatPoll (a : Nat)
  /-- R359. -/
  | preampRead (a : Nat) (value : Word)
  /-- R353. -/
  | heaterUpdate (a : Nat) (t : Option Int)
  /-- R353. -/
  | heaterIdleOff (a : Nat)
  /-- R354. -/
  | offsetCal (a result : Nat)
  /-- R354. -/
  | eqCal (a head zone result : Nat)
  /-- R354. -/
  | precomp (a head zone result : Nat)
  /-- R356. -/
  | calRequest (a : Nat) (value : Word)
  /-- R356. -/
  | offsetCalTick (a : Nat)
  /-- R357. -/
  | dataPathRetire (a k : Nat)
  /-- R367. -/
  | taskTrigger (t : Nat)
  /-- R368. -/
  | instanceCommit (t : Nat)
  /-- R369. -/
  | taskDeadline (t : Nat)
  /-- R364. -/
  | nodeAdd (t : Nat)
  /-- R364. -/
  | nodeSub (t : Nat)
  /-- R364. -/
  | nodeMul (t : Nat)
  /-- R364. -/
  | nodeFma (t : Nat)
  /-- R364. -/
  | nodeDiv (t : Nat)
  /-- R364. -/
  | nodeSqrt (t : Nat)
  /-- R364. -/
  | nodeMin (t : Nat)
  /-- R364. -/
  | nodeMax (t : Nat)
  /-- R364. -/
  | nodeAbs (t : Nat)
  /-- R364. -/
  | nodeNeg (t : Nat)
  /-- R364. -/
  | nodeMov (t : Nat)
  /-- R364. -/
  | nodeSel (t : Nat)
  /-- R364. -/
  | nodeClamp (t : Nat)
  /-- R371. -/
  | nodeLim (t : Nat)
  /-- R364. -/
  | nodeBiq (t : Nat)
  /-- R371. -/
  | nodeInteg (t : Nat)
  /-- R364. -/
  | nodeDot (t : Nat)
  /-- R364. -/
  | nodeOut (t : Nat)
  /-- R368. -/
  | nodeEnd (t : Nat)
  /-- R373. -/
  | coreKatTick (c : Nat) (good : Bool)
  /-- R373. -/
  | coreRetire (c : Nat) (task : Option Nat)
  /-- R374. -/
  | coefWrite (value : Word)
  /-- R378. -/
  | taskStoreUncorrectable (t : Nat)
  /-- R382. -/
  | servoWedge (a : Nat) (lanes : List LaneIn)
  /-- R387. -/
  | writeInhibitAssert (a k : Nat)
  /-- R388. -/
  | trackLost (a : Nat)
  /-- R389. -/
  | shockCapture (gpio : Bool) (k : Nat)
  /-- R389. -/
  | shockHoldEnd (h : Nat)
  /-- R383. -/
  | headSwitch (a head : Nat)
  /-- R390. -/
  | seekStart (a : Nat)
  /-- R385. -/
  | offsetCalibration (a zone result : Nat) (stats : List (Rat × Rat))
  /-- R385. -/
  | srvCalRequest (a : Nat) (value : Word)
  /-- R395. -/
  | satInhibit (a : Nat)
  /-- R396. -/
  | vcmPwmSample (a : Nat) (iA iB : Conv) (volts vm : Rat)
  /-- R398. -/
  | shuntLost (a leg : Nat)
  /-- R399. -/
  | vcmDriverFault (a : Nat)
  /-- R399. -/
  | vcmDriverRetry (a : Nat) (ok : Bool)
  /-- R400. -/
  | retract (a : Nat)
  /-- R400. -/
  | retractDone (a : Nat)
  /-- R401. -/
  | guidedUnload (a : Nat)
  /-- R404. -/
  | unloadRequest (a : Nat)
  /-- R403. -/
  | unloadDone (a : Nat)
  /-- R402. -/
  | load (a : Nat) (kt : Option Measured) (bad : List Nat) (n : Nat)
  /-- R402. -/
  | loadTimeout (a : Nat)
  /-- R402. -/
  | loadRetry (a : Nat)
  /-- R403. -/
  | parkUnknownListen (a : Nat) (lanesValid : Bool)
  /-- R404. -/
  | positionLost (a : Nat)
  /-- R414. -/
  | spinupRequest (h : Nat)
  /-- R413. -/
  | spindleStopRequest (h : Nat) (safe : Bool)
  /-- R413. -/
  | driveOffRequest (h : Nat)
  /-- R431. -/
  | ballastRequest (h : Nat)
  /-- R414. -/
  | alignEnd (h : Nat)
  /-- R414. -/
  | openLoopTimeout (h : Nat)
  /-- R415. -/
  | zeroCrossing (h phase : Nat) (rising : Bool) (onNs : Nat) (hyst : Bool)
  /-- R415. -/
  | commutation (h : Nat)
  /-- R415. -/
  | forcedCommutation (h : Nat)
  /-- R417. -/
  | spindlePwmPeriod (h : Nat) (iU iV iW : Conv) (vm theta omega : Rat)
  /-- R420. -/
  | atSpeed (h : Nat)
  /-- R426. -/
  | lossOfSync (h : Nat)
  /-- R427. -/
  | catchObserveEnd (h : Nat) (emf omega theta : Rat)
  /-- R413. -/
  | standstill (h : Nat)
  /-- R430. -/
  | vmShort (h : Nat)
  /-- R430. -/
  | vmShortRecover (h : Nat)
  /-- R433. -/
  | spindleDriverFault (h : Nat)
  /-- R433. -/
  | spindleDriverRetry (h : Nat) (ok : Bool)
  /-- R423. -/
  | phaseShuntLost (h phase : Nat)
  /-- R422. -/
  | shuntCalibration (h : Nat) (quiet : Bool) (ofs : List Int)
  /-- R422. -/
  | spnCalRequest (h : Nat) (value : Word)
  /-- R435. -/
  | windingMeasurement (h : Nat) (m : Measured) (quiet : Bool)
  /-- R434. -/
  | hdaRetire (h : Nat) (drive : Bool)
  /-- R436. -/
  | spinSyncInPulse
  /-- R436. -/
  | spinSyncLost (h : Nat)
  /-- R436. -/
  | spindleIndex (h : Nat)
  /-- R443. -/
  | compress (job : RenderJob)
  /-- R443. -/
  | decompress (job : RenderJob)
  /-- R446. -/
  | renderResume (job : RenderJob)
  /-- R445. -/
  | renderFree (job : RenderJob)
  /-- R440. -/
  | renderDispatch
  /-- R440. -/
  | renderJobEnd (e : Nat)
  /-- R444. -/
  | verifyMismatch (e : Nat) (katOk : Bool)
  /-- R444. -/
  | renderKatTick (e : Nat) (good : Bool)
  /-- R453. -/
  | hodGo (c : Nat) (set : Option (List Word)) (tile ctx : Nat)
  /-- R455. -/
  | hodPause (c : Nat) (byCtl : Bool)
  /-- R455. -/
  | hodResume (c : Nat) (byCtl : Bool)
  /-- R455. -/
  | hodAbort (c : Nat) (byCtl : Bool)
  /-- R455. -/
  | hodDrainEnd (c n : Nat) (host : List Byte)
  /-- R454. -/
  | hodTransferEnd (c status n : Nat) (host : List Byte)
  /-- R450. -/
  | hodClaim (value : Word)
  /-- R459. -/
  | hodChannelRetire (c : Nat)
  /-- R465. -/
  | ozperTrain (p lanes : Nat)
  /-- R465. -/
  | ozperTrainRetry (p : Nat)
  /-- R466. -/
  | heartbeatSend (p : Nat)
  /-- R466. -/
  | heartbeat (p ack glbState grant : Nat) (nak leave : Bool)
  /-- R469. -/
  | cap (p : Nat) (h : OzHdr) (c : CapFrame)
  /-- R469. -/
  | capResend (p : Nat)
  /-- R471. -/
  | mirror (h : OzHdr) (m : MirrorMsg)
  /-- R471. -/
  | mack (h : OzHdr) (base bits : Nat)
  /-- R473. -/
  | release (h : OzHdr) (slots : List Nat)
  /-- R476. -/
  | purge (h : OzHdr) (uid boot below : Nat)
  /-- R466. -/
  | ozperLinkDown (p : Nat)
  /-- R474. -/
  | eastLinkLoss
  /-- R475. -/
  | westLinkLoss
  /-- R474. -/
  | rewriteEnd
  /-- R471. -/
  | mirrorEnter
  /-- R475. -/
  | orphanHoldExpiry
  /-- R485. -/
  | faultReport (src data : Nat) (el : List Nat)
  /-- R489. -/
  | coverDone (rseq : Nat) (kept : Bool)
  /-- R489. -/
  | recordCloseExpiry (rseq : Nat)
  /-- R489. -/
  | kprAck (value : Word)
  /-- R494. -/
  | kprForce (value : Word)
  /-- R494. -/
  | forceTaken (src : Nat) (el : List Nat)
  /-- R493. -/
  | keeperStateUncorrectable
  /-- R495. -/
  | foghornPulseEnd
  /-- R496. -/
  | irqEnableWrite (value : Word)
  /-- R497. -/
  | tallyTick
  /-- R497. -/
  | tallySnapshot (q inst : Nat) (parts : List Nat) (pool : Nat)
  /-- R497. -/
  | tallySkip (q : Nat)
  /-- R497. -/
  | tallyRecheck (q inst : Nat) (parts : List Nat) (pool : Nat)
  /-- R499. -/
  | safeEntry
  /-- R499. -/
  | safeFlushDone
  /-- R506. -/
  | daymarkEvent
  /-- R513. -/
  | daymarkPersist (ok : Bool)
  /-- R512. -/
  | dmkWin0Read (a : Accessor)
  /-- R512. -/
  | dmkWin7Read (a : Accessor)
  /-- R518. -/
  | ballastTrigger
  /-- R518. -/
  | vmDip
  /-- R522. -/
  | energyRecompute (vh : Rat)
  /-- R526. -/
  | regenRegulate (vm : Rat)
  /-- R528. -/
  | dumpWrite (n : Nat) (metaOk : Bool) (lost : List Nat) (missing : Nat)
  /-- R524. -/
  | dumpTrailer
  /-- R527. -/
  | vmBack
  /-- R533. -/
  | coreBrownout (ok : Bool)
  /-- R533. -/
  | brownoutTimeout (recovered ok : Bool)
  /-- R534. -/
  | bankLow (low : Bool)
  /-- R544. -/
  | mgtWrite (off : Nat) (v : Word) (pec ok : Bool)
  /-- R544. -/
  | mgtRead (off : Nat) (pec : Bool)
  /-- R544. -/
  | mgtLast (pec : Bool)
  /-- R468. -/
  | badFrame (p : Nat) (malformed : Bool)
  /-- R466. -/
  | ozperRetrain (p : Nat) (resumes : Bool)
  /-- R544. -/
  | dynamicAddressAssign (addr : Nat) (setdasaFrom : Option Nat)
  /-- R43. -/
  | fanTachTimeout (k : Nat)
  deriving DecidableEq, Repr

end Sys2Proof
end

