-- ==== Sys2Proof/Machine/Tbl.lean ====
section
/-!
DEFINITION. Machine/Tbl.lean: sparse tables, the one form in which the state holds anything numbered: registers,
bytes of memory, per-unit records. A table lists (number, value) pairs with strictly rising numbers and lists no
entry equal to what an unlisted number reads as, so equal contents are equal data. `Tbl Byte` is a list of
`Host.Cell`.
-/

namespace Sys2Proof.Machine

/-- A sparse table: pairs of a number and a value, numbers strictly rising. -/
abbrev Tbl (α : Type) := List (Nat × α)

/-- The value at `n`, or `d` where `n` is not listed. -/
def tget {α : Type} (d : α) : Tbl α → Nat → α
  | [], _ => d
  | (k, v) :: t, n => if n = k then v else tget d t n

/-- The table without number `n`. -/
def tdel {α : Type} : Tbl α → Nat → Tbl α
  | [], _ => []
  | (k, v) :: t, n => if n = k then tdel t n else (k, v) :: tdel t n

/-- Put `v` at `n`, where an unlisted `n` reads as `d`: storing `d` removes the entry. -/
def tset {α : Type} [DecidableEq α] (d : α) : Tbl α → Nat → α → Tbl α
  | [], n, v => if v = d then [] else [(n, v)]
  | (k, x) :: t, n, v =>
    if n = k then (if v = d then tdel t n else (n, v) :: t)
    else if n < k then (if v = d then (k, x) :: tdel t n else (n, v) :: (k, x) :: t)
    else (k, x) :: tset d t n v

/-- Apply `f` to the value at `n`. -/
def tmod {α : Type} [DecidableEq α] (d : α) (t : Tbl α) (n : Nat) (f : α → α) : Tbl α :=
  tset d t n (f (tget d t n))

/-- Every number listed lies above `lo`, the numbers rise strictly, and no value is the unlisted one of its
number. -/
def Tbl.wfAbove {α : Type} [DecidableEq α] (dflt : Nat → α) : Nat → Tbl α → Bool
  | _, [] => true
  | lo, (k, v) :: t => decide (lo ≤ k) && decide (v ≠ dflt k) && Tbl.wfAbove dflt (k + 1) t

/-- The canonical form of a table whose unlisted number `n` reads as `dflt n`. -/
def Tbl.wf {α : Type} [DecidableEq α] (dflt : Nat → α) (t : Tbl α) : Bool := Tbl.wfAbove dflt 0 t

/-- Memory: bytes by address (R193, R231); an unlisted byte reads as 0. -/
abbrev Memory := Tbl Byte

/-- The canonical form of a memory. -/
def Memory.wf (m : Memory) : Bool := Tbl.wf (fun _ => (0 : Byte)) m

/-- Bytes of on-chip SRAM (Table 00-1: 72 MiB). -/
def sramBytes : Nat := 72 * 2 ^ 20

/-- `n` bytes from address `a`, lowest address first. -/
def memRead (m : Memory) (a : Nat) : Nat → List Byte
  | 0 => []
  | n + 1 => tget 0 m a :: memRead m (a + 1) n

/-- Store bytes from address `a` upwards. -/
def memWrite (m : Memory) (a : Nat) : List Byte → Memory
  | [] => m
  | b :: bs => memWrite (tset 0 m a b) (a + 1) bs

/-- Little-endian value of a list of bytes. -/
def leValue : List Byte → Nat
  | [] => 0
  | b :: bs => b.toNat + 256 * leValue bs

/-- `n` little-endian bytes of a value. -/
def leBytes (v : Nat) : Nat → List Byte
  | 0 => []
  | n + 1 => BitVec.ofNat 8 v :: leBytes (v / 256) n

end Sys2Proof.Machine
end

