-- ==== Sys2Proof/Machine/Crc.lean ====
section
/-!
DEFINITION. Machine/Crc.lean: the cyclic redundancy checks the spec names: CRC-32C (R143), CRC-32 of IEEE 802.3
(R73, R76) and CRC-16 CCITT-FALSE (R163).
-/

namespace Sys2Proof.Machine

/-- One bit of a reflected 32-bit CRC with the reflected polynomial `poly`. -/
def crcBit (poly : BitVec 32) (c : BitVec 32) : BitVec 32 :=
  if c.getLsbD 0 then (c >>> 1) ^^^ poly else c >>> 1

/-- One byte of a reflected 32-bit CRC. -/
def crcByte (poly : BitVec 32) (c : BitVec 32) (b : Byte) : BitVec 32 :=
  let c := c ^^^ b.setWidth 32
  crcBit poly (crcBit poly (crcBit poly (crcBit poly (crcBit poly (crcBit poly (crcBit poly (crcBit poly c)))))))

/-- The reflected CRC-32C polynomial. -/
def polyC : BitVec 32 := 0x82F63B78

/-- The reflected IEEE 802.3 polynomial. -/
def polyIeee : BitVec 32 := 0xEDB88320

/-- Continue a CRC-32C from a register value, without the final inversion. -/
def crc32cStep (c : BitVec 32) (bs : List Byte) : BitVec 32 := bs.foldl (crcByte polyC) c

/-- CRC-32C of a byte string: initial value and final inversion all ones. -/
def crc32c (bs : List Byte) : BitVec 32 := crc32cStep 0xFFFFFFFF bs ^^^ 0xFFFFFFFF

/-- CRC-32 (IEEE 802.3) of a byte string. -/
def crc32 (bs : List Byte) : BitVec 32 := bs.foldl (crcByte polyIeee) 0xFFFFFFFF ^^^ 0xFFFFFFFF

/-- One bit of the CCITT CRC-16, most significant bit first. -/
def crc16Bit (c : BitVec 16) : BitVec 16 :=
  if c.getLsbD 15 then (c <<< 1) ^^^ 0x1021 else c <<< 1

/-- CRC-16 CCITT-FALSE of a byte string: initial value 0xFFFF, no reflection, no final inversion. -/
def crc16 (bs : List Byte) : BitVec 16 :=
  bs.foldl (fun c b =>
    let c := c ^^^ ((b.setWidth 16 : BitVec 16) <<< (8 : Nat))
    crc16Bit (crc16Bit (crc16Bit (crc16Bit (crc16Bit (crc16Bit (crc16Bit (crc16Bit c)))))))) 0xFFFF

end Sys2Proof.Machine
end

