-- ==== Sys2Proof/Config.lean ====
section
/-!
DEFINITION. Config.lean: what one device or one implementation fixes and the spec does not: the values the spec
leaves open, as constants with no body, so that nothing can be proved of a particular value.
-/

namespace Sys2Proof.Config

/-- The value the spec leaves open, one for each draw (State.freeCtr counts the draws). -/
opaque freeValue : Nat → Nat

/-- The device's 64-bit unique identifier in OTP (R481). -/
opaque otpUid : BitVec 64

/-- Entropy the device draws for its keys, salts and nonces (R515, R175), by draw. -/
opaque entropy : Nat → Nat

/-- The vendor mask ROM's words by address (Table 07-1). -/
opaque maskRom : Nat → Nat

/-- The vendor flow that runs a command opcode starts here (R196; internal to the vendor microcode). -/
opaque vendorEntry : Nat → Nat

/-- The nine SECDED check bits of a 128-bit word (R198). -/
opaque checkBits : Nat → Nat

/-- SHA-384 over a salt and a key, truncated to 16 bytes (R176 step 6). -/
opaque fingerprint : Nat → Nat → Nat

/-- Stored unit `i` of a granule of four blocks that Render compressed into `n` units (R443: any DEFLATE encoder may be
built, so the bytes are open). -/
opaque compressUnit : List Nat → Nat → Nat → Nat

/-- The stream that Render's encoder makes of the input so far (R443 leaves the encoder open), by input bytes, the points
at which non-final inputs ended, DEPTH, ZLIB and whether the input ends the stream. -/
opaque deflate : List Nat → List Nat → Nat → Bool → Bool → List Nat

/-- π, √ and cos as Beacon, the servo unit and the spindle unit compute them: no chapter states the number format of
their arithmetic (R390, R391, R410, R419). -/
opaque piFree : Rat
opaque sqrt : Rat → Rat
opaque cos : Rat → Rat
opaque sin : Rat → Rat

/-- π in the unstated format: any value from 3.141592 to 3.141593. -/
def pi : Rat := max (3141592 / 1000000) (min (3141593 / 1000000) piFree)

/-- The servo unit's velocity estimate in tracks per second (R382 names it and gives no estimator), from the estimate
before, the two latest positions and the wedge interval. -/
opaque velocity : Rat → Rat → Rat → Rat → Rat

/-- The normalised burst difference of a pair of bursts whose sum is zero (R381 divides by it). -/
opaque zeroBurst : Rat

/-- Beacon's access-time estimate for a disk operation (R346), by actuator, present track and target track. -/
opaque accessTime : Nat → Nat → Nat → Nat

/-- Results of a disk calibration: EQ taps and target, PRECOMP set (R354: the LMS and the candidates are open). -/
opaque calResult : Nat → List Int

/-- Gains of the proportional-integral law that regulates VM (R526 gives none), in amperes per volt and per volt-second. -/
opaque regenP : Rat
opaque regenI : Rat

/-- The temperature in °C that R_NOM is given for (R391 names none). -/
opaque nominalTemp : Rat

end Sys2Proof.Config
end

