-- ==== Sys2Proof/Machine/RegMap.lean ====
section
/-!
DEFINITION. Machine/RegMap.lean: the register map of the XA1284 (20_address_map.md, R536 to R541, and the
register sections of the chapters): every register with its offset, its instances, who may access it (Table
00-5's codes), and every field's place, access code, reset value and reserved encodings (R8). `Fld` constants
name each field once, so that every later file reads and writes a field by the spec's own name.
-/

namespace Sys2Proof.Machine

/-- Access codes of a field (R6, Table 00-5). -/
inductive Access where
  | ro | rw | wo | w1c | rc | rws
  deriving DecidableEq, Repr

/-- What one class of accessor may do with a register (the signature line's access clause). -/
inductive Who where
  | no | ro | rw | wo
  deriving DecidableEq, Repr

/-- A field: its register's key in the register file, its lowest bit and its width. -/
structure Fld where
  off : Nat
  lo  : Nat
  w   : Nat
  deriving DecidableEq, Repr

/-- The same field in instance `i` of an array of registers `stride` bytes apart. -/
def Fld.ix (f : Fld) (i stride : Nat) : Fld := { f with off := f.off + i * stride }

/-- One field of a register's table: name, lowest bit, width, access, reset value, reserved encodings. -/
structure FieldDesc where
  name   : String
  lo     : Nat
  w      : Nat
  acc    : Access
  reset  : Nat
  rsv    : List (Nat × Nat) := []
  deriving DecidableEq, Repr

/-- One register of the map: its base offset, its array dimensions (count and stride), what the control PF, the
management port and the other PFs may do, and its fields. -/
structure RegDesc where
  name   : String
  base   : Nat
  dims   : List (Nat × Nat)
  ctl    : Who
  mgt    : Who
  others : Who
  fields : List FieldDesc
  deriving DecidableEq, Repr

/-- Is `off` one of the offsets `base + i * s1 + j * s2` of an array of registers? -/
def inDims (off base : Nat) : List (Nat × Nat) → Bool
  | [] => off == base
  | [(n, st)] => base ≤ off && (off - base) % st == 0 && (off - base) / st < n
  | (n, st) :: (m, st2) :: _ =>
    base ≤ off && (off - base) / st2 < m && (off - base) % st2 % st == 0 && (off - base) % st2 / st < n

def RegDesc.covers (r : RegDesc) (off : Nat) : Bool := inDims off r.base r.dims

/-- The word a register holds at reset: every field at its reset value. -/
def RegDesc.resetWord (r : RegDesc) : Word :=
  BitVec.ofNat 32 (r.fields.foldl (fun acc f => acc + f.reset * 2 ^ f.lo) 0)

/-! ## Fields by name -/

def GLB_ID_PART : Fld := ⟨0x0, 16, 16⟩
def GLB_ID_STEP_MAJ : Fld := ⟨0x0, 12, 4⟩
def GLB_ID_STEP_MIN : Fld := ⟨0x0, 8, 4⟩
def GLB_ID_FAMILY : Fld := ⟨0x0, 4, 4⟩
def GLB_STATE_STATE : Fld := ⟨0x4, 0, 4⟩
def GLB_STATE_STOPPING : Fld := ⟨0x4, 4, 1⟩
def GLB_CTL_WARM_RESET : Fld := ⟨0x8, 0, 1⟩
def GLB_CTL_ENTER_SAFE : Fld := ⟨0x8, 1, 1⟩
def GLB_CTL_KEY : Fld := ⟨0x8, 16, 16⟩
def GLB_STATUS_RSV_WRITE : Fld := ⟨0xC, 0, 1⟩
def GLB_STATUS_MIN_SET : Fld := ⟨0xC, 1, 1⟩
def GLB_STATUS_REDUCTION : Fld := ⟨0xC, 4, 4⟩
def GLB_IDSTR_CHARS : Fld := ⟨0x10, 0, 32⟩
def GLB_BOOT_SLOT : Fld := ⟨0x30, 0, 2⟩
def GLB_BOOT_LAST_GOOD : Fld := ⟨0x30, 2, 2⟩
def GLB_BOOT_TRIAL : Fld := ⟨0x30, 4, 2⟩
def GLB_BOOT_TRIES : Fld := ⟨0x30, 6, 2⟩
def GLB_BOOT_A_REASON : Fld := ⟨0x30, 8, 4⟩
def GLB_BOOT_B_REASON : Fld := ⟨0x30, 12, 4⟩
def GLB_BOOT_SKIM_OFF : Fld := ⟨0x30, 16, 1⟩
def GLB_BOOT_OTP_ENROLLED : Fld := ⟨0x30, 17, 1⟩
def GLB_BOOT_ENROLLED_NOW : Fld := ⟨0x30, 18, 1⟩
def GLB_BOOT_BEACON_CAUSE : Fld := ⟨0x30, 24, 4⟩
def GLB_BOOTCNT_BOOT_COUNT : Fld := ⟨0x34, 0, 32⟩
def GLB_RESET_CAUSE_CAUSE : Fld := ⟨0x38, 0, 3⟩
def GLB_RESET_CAUSE_FLUSH_DONE : Fld := ⟨0x38, 3, 1⟩
def GLB_NOR_ADDR_ADDR : Fld := ⟨0x80, 0, 32⟩
def GLB_NOR_CMD_OP : Fld := ⟨0x84, 0, 4⟩
def GLB_NOR_CMD_SLOT : Fld := ⟨0x84, 4, 2⟩
def GLB_NOR_STAT_BUSY : Fld := ⟨0x88, 0, 1⟩
def GLB_NOR_STAT_RESULT : Fld := ⟨0x88, 1, 3⟩
def GLB_NOR_STAT_OVERRUN : Fld := ⟨0x88, 4, 1⟩
def GLB_GPIO_FUNC_FUNC_0 : Fld := ⟨0x100, 0, 4⟩
def GLB_GPIO_FUNC_FUNC_1 : Fld := ⟨0x100, 4, 4⟩
def GLB_GPIO_FUNC_FUNC_2 : Fld := ⟨0x100, 8, 4⟩
def GLB_GPIO_FUNC_FUNC_3 : Fld := ⟨0x100, 12, 4⟩
def GLB_GPIO_FUNC_FUNC_4 : Fld := ⟨0x100, 16, 4⟩
def GLB_GPIO_FUNC_FUNC_5 : Fld := ⟨0x100, 20, 4⟩
def GLB_GPIO_FUNC_FUNC_6 : Fld := ⟨0x100, 24, 4⟩
def GLB_GPIO_FUNC_FUNC_7 : Fld := ⟨0x100, 28, 4⟩
def GLB_GPIO_OUT_OUT : Fld := ⟨0x10C, 0, 24⟩
def GLB_GPIO_IN_IN : Fld := ⟨0x110, 0, 24⟩
def GLB_GPIO_STATUS_CONFLICT : Fld := ⟨0x114, 0, 1⟩
def GLB_GPIO_STATUS_CONFLICT_PIN : Fld := ⟨0x114, 8, 5⟩
def GLB_FAN_DUTY_DUTY0 : Fld := ⟨0x118, 0, 8⟩
def GLB_FAN_DUTY_DUTY1 : Fld := ⟨0x118, 8, 8⟩
def GLB_FAN_DUTY_DUTY2 : Fld := ⟨0x118, 16, 8⟩
def GLB_FAN_DUTY_DUTY3 : Fld := ⟨0x118, 24, 8⟩
def GLB_FAN_TACH0_PERIOD_2m : Fld := ⟨0x11C, 0, 16⟩
def GLB_FAN_TACH0_PERIOD_2m_1 : Fld := ⟨0x11C, 16, 16⟩
def GLB_FAN_TACH1_PERIOD_2m : Fld := ⟨0x120, 0, 16⟩
def GLB_FAN_TACH1_PERIOD_2m_1 : Fld := ⟨0x120, 16, 16⟩
def GLB_NOR_BUF_DATA : Fld := ⟨0x1000, 0, 32⟩
def HPT_LINK_DL_UP : Fld := ⟨0x100000, 0, 1⟩
def HPT_LINK_RATE : Fld := ⟨0x100000, 1, 3⟩
def HPT_LINK_WIDTH : Fld := ⟨0x100000, 4, 3⟩
def HPT_LINK_FLIT : Fld := ⟨0x100000, 7, 1⟩
def HPT_LINK_LANE_REV : Fld := ⟨0x100000, 8, 1⟩
def HPT_LINK_RETRAIN_CNT : Fld := ⟨0x100000, 16, 8⟩
def HPT_LINK_CTL_MAX_RATE : Fld := ⟨0x100004, 0, 3⟩
def HPT_LINK_CTL_MAX_WIDTH : Fld := ⟨0x100004, 3, 3⟩
def HPT_CAPACITY_CAP : Fld := ⟨0x100008, 0, 16⟩
def HPT_FUNCS_VF_BLOCKS : Fld := ⟨0x10000C, 0, 7⟩
def HPT_FUNCS_FIRST_BLOCK : Fld := ⟨0x10000C, 8, 7⟩
def HPT_FUNCS_CONTROL : Fld := ⟨0x10000C, 16, 1⟩
def HPT_FUNCS_PRESENT : Fld := ⟨0x10000C, 17, 1⟩
def HPT_ERR_CNT0_RX_ERR : Fld := ⟨0x100010, 0, 8⟩
def HPT_ERR_CNT0_REPLAY : Fld := ⟨0x100010, 8, 8⟩
def HPT_ERR_CNT0_CPL_TMO : Fld := ⟨0x100010, 16, 8⟩
def HPT_ERR_CNT0_POISON_RX : Fld := ⟨0x100010, 24, 8⟩
def HPT_ERR_CNT1_RO_WRITE : Fld := ⟨0x100014, 0, 16⟩
def HPT_FN_BUSY_BUSY : Fld := ⟨0x100040, 0, 32⟩
def HPT_STATUS_RSV_WRITE : Fld := ⟨0x106000, 0, 1⟩
def HPT_STATUS_CTL_PORT : Fld := ⟨0x106000, 1, 3⟩
def HPT_STATUS_LINK_UP : Fld := ⟨0x106000, 4, 6⟩
def XQ_JRN_NEXT_LO_NEXT : Fld := ⟨0x203000, 0, 32⟩
def XQ_JRN_NEXT_HI_NEXT : Fld := ⟨0x203004, 0, 32⟩
def XQ_JRN_OLDEST_LO_OLDEST : Fld := ⟨0x203008, 0, 32⟩
def XQ_JRN_OLDEST_HI_OLDEST : Fld := ⟨0x20300C, 0, 32⟩
def XQ_JRN_PERSIST_LO_PERSIST : Fld := ⟨0x203010, 0, 32⟩
def XQ_JRN_PERSIST_HI_PERSIST : Fld := ⟨0x203014, 0, 32⟩
def XQ_JRN_PAGE_PAGE : Fld := ⟨0x203018, 0, 3⟩
def XQ_JRN_PARK_PARKED : Fld := ⟨0x20301C, 0, 13⟩
def TEN_CTX_STATE : Fld := ⟨0x400000, 0, 2⟩
def TEN_CTX_CUT : Fld := ⟨0x400000, 2, 1⟩
def TEN_CTX_CREATE_PEND : Fld := ⟨0x400000, 3, 1⟩
def TEN_CTX_HAS_VF : Fld := ⟨0x400000, 8, 1⟩
def TEN_CTX_PORT : Fld := ⟨0x400000, 9, 3⟩
def TEN_CTX_NS_MAP : Fld := ⟨0x400000, 16, 16⟩
def TEN_GRANTS_VALID : Fld := ⟨0x400008, 0, 16⟩
def TEN_GRANTS_FENCE : Fld := ⟨0x400008, 16, 16⟩
def TEN_CL_FLOOR_RD_EFF : Fld := ⟨0x400010, 0, 16⟩
def TEN_CL_FLOOR_WR_EFF : Fld := ⟨0x400010, 16, 16⟩
def TEN_CL_CEIL_RD_CEIL : Fld := ⟨0x400014, 0, 16⟩
def TEN_CL_CEIL_WR_CEIL : Fld := ⟨0x400014, 16, 16⟩
def TEN_CL_RTOK_TOKENS : Fld := ⟨0x400018, 0, 19⟩
def TEN_CL_WTOK_TOKENS : Fld := ⟨0x40001C, 0, 19⟩
def TEN_STATUS_RSV_WRITE : Fld := ⟨0x420000, 0, 1⟩
def TEN_STATUS_CUT : Fld := ⟨0x420000, 1, 1⟩
def TEN_STATUS_LAST_REJECT : Fld := ⟨0x420000, 4, 4⟩
def TEN_STATUS_TENANTS : Fld := ⟨0x420000, 8, 10⟩
def TEN_STATUS_NAMESPACES : Fld := ⟨0x420000, 18, 12⟩
def TEN_BUD_SEL_INDEX : Fld := ⟨0x420004, 0, 5⟩
def TEN_BUD_CAP_MBPS : Fld := ⟨0x420008, 0, 32⟩
def TEN_BUD_USED_MBPS : Fld := ⟨0x42000C, 0, 32⟩
def TEN_DPUB_PUB : Fld := ⟨0x420100, 0, 32⟩
def TRW_STATUS_RSV_WRITE : Fld := ⟨0x600000, 0, 1⟩
def TRW_STATUS_SKIM_ON : Fld := ⟨0x600000, 1, 1⟩
def TRW_STATUS_INSTALLING : Fld := ⟨0x600000, 2, 1⟩
def TRW_STATUS_SPARES : Fld := ⟨0x600000, 4, 2⟩
def TRW_STATUS_WORKING : Fld := ⟨0x600000, 8, 6⟩
def TRW_RETIRED0_RETIRED : Fld := ⟨0x600004, 0, 32⟩
def TRW_RETIRED1_RETIRED : Fld := ⟨0x600008, 0, 32⟩
def TRW_MAP_PHYS_0 : Fld := ⟨0x600010, 0, 6⟩
def TRW_MAP_PHYS_1 : Fld := ⟨0x600010, 8, 6⟩
def TRW_MAP_PHYS_2 : Fld := ⟨0x600010, 16, 6⟩
def TRW_MAP_PHYS_3 : Fld := ⟨0x600010, 24, 6⟩
def TRW_CACHE_CFG_WAYS : Fld := ⟨0x600030, 0, 2⟩
def TRW_WDOG_LIMIT : Fld := ⟨0x600034, 0, 16⟩
def TRW_SCRUB_PERIOD : Fld := ⟨0x600038, 0, 8⟩
def TRW_SCRUB_STAT_CORR : Fld := ⟨0x60003C, 0, 16⟩
def TRW_SCRUB_STAT_RESTORED : Fld := ⟨0x60003C, 16, 8⟩
def TRW_SCRUB_STAT_ROM_COPY : Fld := ⟨0x60003C, 24, 8⟩
def TRW_DISCARD_CNT_LO_COUNT : Fld := ⟨0x600040, 0, 32⟩
def TRW_DISCARD_CNT_HI_COUNT : Fld := ⟨0x600044, 0, 32⟩
def TRW_FLTLOG0_CODE : Fld := ⟨0x600050, 0, 4⟩
def TRW_FLTLOG0_TILE : Fld := ⟨0x600050, 4, 6⟩
def TRW_FLTLOG0_CTX : Fld := ⟨0x600050, 10, 3⟩
def TRW_FLTLOG0_VALID : Fld := ⟨0x600050, 13, 1⟩
def TRW_FLTLOG0_MORE : Fld := ⟨0x600050, 14, 8⟩
def TRW_FLTLOG1_ADDR : Fld := ⟨0x600054, 0, 18⟩
def TRW_FLTLOG2_SEQ : Fld := ⟨0x600058, 0, 32⟩
def TRW_FLTLOG3_SEQ : Fld := ⟨0x60005C, 0, 32⟩
def TRW_SKIM_STAT_REASON : Fld := ⟨0x600060, 0, 3⟩
def TRW_SKIM_STAT_INSTALLS : Fld := ⟨0x600060, 4, 16⟩
def TRW_CS_ADDR_ADDR : Fld := ⟨0x600070, 0, 18⟩
def TRW_CS_DATA_DATA : Fld := ⟨0x600074, 0, 32⟩
def TRW_CS_CHK_CHECK : Fld := ⟨0x600084, 0, 9⟩
def TRW_CS_CHK_DENIED : Fld := ⟨0x600084, 9, 1⟩
def TRW_CS_CHK_CORRECTED : Fld := ⟨0x600084, 10, 1⟩
def LTH_CTL_REROUTE_EN : Fld := ⟨0x800000, 0, 1⟩
def LTH_STATUS_RSV_WRITE : Fld := ⟨0x800004, 0, 1⟩
def LTH_STATUS_REROUTED : Fld := ⟨0x800004, 1, 1⟩
def LTH_STATUS_ISOLATED : Fld := ⟨0x800004, 2, 1⟩
def LTH_STATUS_LINKS_DOWN : Fld := ⟨0x800004, 8, 7⟩
def LTH_LINKDN_DOWN : Fld := ⟨0x800010, 0, 32⟩
def LTH_CREDIT_SEL_LINK : Fld := ⟨0x800020, 0, 7⟩
def LTH_CREDIT_SEL_DIR : Fld := ⟨0x800020, 7, 1⟩
def LTH_CREDIT_SEL_VC : Fld := ⟨0x800020, 8, 2⟩
def LTH_CREDIT_SEL_LANE : Fld := ⟨0x800020, 10, 1⟩
def LTH_CREDIT_VAL_AT_SENDER : Fld := ⟨0x800024, 0, 8⟩
def LTH_CREDIT_VAL_IN_FLIGHT : Fld := ⟨0x800024, 8, 8⟩
def LTH_CREDIT_VAL_AT_RECEIVER : Fld := ⟨0x800024, 16, 8⟩
def LTH_CREDIT_VAL_POOL : Fld := ⟨0x800024, 24, 8⟩
def DRC_STATUS_RSV_WRITE : Fld := ⟨0x900000, 0, 1⟩
def DRC_STATUS_X4 : Fld := ⟨0x900000, 1, 1⟩
def DRC_STATUS_LIVE : Fld := ⟨0x900000, 4, 4⟩
def DRC_STATUS_LOST : Fld := ⟨0x900000, 8, 4⟩
def DRC_CH_STATE_STATE : Fld := ⟨0x900010, 0, 3⟩
def DRC_CH_STATE_DIMMS : Fld := ⟨0x900010, 3, 2⟩
def DRC_CH_STATE_SPEED : Fld := ⟨0x900010, 5, 3⟩
def DRC_CH_STATE_GIB : Fld := ⟨0x900010, 8, 16⟩
def DRC_CH_STATE_SPARE_SCHED : Fld := ⟨0x900010, 24, 1⟩
def DRC_CH_STATE_DEV_FAILED : Fld := ⟨0x900010, 25, 1⟩
def DRC_CH_ERR_CORR : Fld := ⟨0x900014, 0, 16⟩
def DRC_CH_ERR_UNCORR : Fld := ⟨0x900014, 16, 8⟩
def FLC_CH_STATE_STATE : Fld := ⟨0xA00000, 0, 3⟩
def FLC_CH_STATE_IFACE : Fld := ⟨0xA00000, 4, 2⟩
def FLC_CH_STATE_RATE : Fld := ⟨0xA00000, 8, 12⟩
def FLC_CH_STATE_PROFILE : Fld := ⟨0xA00000, 20, 3⟩
def FLC_CH_STATE_MEMBER : Fld := ⟨0xA00000, 23, 1⟩
def FLC_CH_STATE_WP_HIGH : Fld := ⟨0xA00000, 24, 1⟩
def FLC_LUN_OK_OK : Fld := ⟨0xA00004, 0, 32⟩
def FLC_RING_DHEAD : Fld := ⟨0xA00008, 0, 8⟩
def FLC_RING_DTAIL : Fld := ⟨0xA00008, 8, 8⟩
def FLC_RING_CHEAD : Fld := ⟨0xA00008, 16, 8⟩
def FLC_RING_CTAIL : Fld := ⟨0xA00008, 24, 8⟩
def FLC_ERR_CNT0_RETRY : Fld := ⟨0xA0000C, 0, 8⟩
def FLC_ERR_CNT0_SOFT : Fld := ⟨0xA0000C, 8, 8⟩
def FLC_ERR_CNT0_UNCORR : Fld := ⟨0xA0000C, 16, 8⟩
def FLC_ERR_CNT0_SUBST : Fld := ⟨0xA0000C, 24, 8⟩
def FLC_ERR_CNT1_TIMEOUT : Fld := ⟨0xA00010, 0, 8⟩
def FLC_ERR_CNT1_DESC_ERR : Fld := ⟨0xA00010, 8, 8⟩
def FLC_ERR_CNT1_RELOC : Fld := ⟨0xA00010, 16, 8⟩
def FLC_ERR_CNT1_TRAIN : Fld := ⟨0xA00010, 24, 8⟩
def FLC_LUN_SEL_LUN : Fld := ⟨0xA00020, 0, 5⟩
def FLC_LUN_WEAR_PE_MAX : Fld := ⟨0xA00024, 0, 24⟩
def FLC_LUN_WEAR_PCT : Fld := ⟨0xA00024, 24, 8⟩
def FLC_LUN_SPARE_FREE : Fld := ⟨0xA00028, 0, 13⟩
def FLC_LUN_SPARE_BAD : Fld := ⟨0xA00028, 16, 13⟩
def FLC_LUN_SPARE_TMO_ARMED : Fld := ⟨0xA00028, 31, 1⟩
def FLC_WP_WP : Fld := ⟨0xA00030, 0, 32⟩
def FLC_DUMP_FREE_MIB : Fld := ⟨0xA00040, 0, 32⟩
def FLC_IDENT0_ID : Fld := ⟨0xA00044, 0, 32⟩
def FLC_IDENT1_ID : Fld := ⟨0xA00048, 0, 32⟩
def FLC_STATUS_RSV_WRITE : Fld := ⟨0xA80000, 0, 1⟩
def FLC_STATUS_FENCED : Fld := ⟨0xA80000, 1, 1⟩
def FLC_STATUS_IN_SERVICE : Fld := ⟨0xA80000, 8, 6⟩
def FLC_RETIRED_RETIRED : Fld := ⟨0xA80004, 0, 32⟩
def FLC_DUMP_TOTAL_MIB : Fld := ⟨0xA80008, 0, 32⟩
def RDC_ACT_STATE_STATE : Fld := ⟨0xC00000, 0, 3⟩
def RDC_ACT_STATE_PA_MODE : Fld := ⟨0xC00000, 3, 3⟩
def RDC_ACT_STATE_DHEAD : Fld := ⟨0xC00000, 6, 4⟩
def RDC_ACT_STATE_ZONE : Fld := ⟨0xC00000, 10, 6⟩
def RDC_ACT_STATE_HEAT_ON : Fld := ⟨0xC00000, 16, 1⟩
def RDC_ACT_STATE_SPEED_OK : Fld := ⟨0xC00000, 17, 1⟩
def RDC_PA_ID_ID : Fld := ⟨0xC00004, 0, 16⟩
def RDC_PA_ID_VALID : Fld := ⟨0xC00004, 16, 1⟩
def RDC_PA_RD_ADDR : Fld := ⟨0xC00008, 0, 8⟩
def RDC_PA_RD_GO : Fld := ⟨0xC00008, 8, 1⟩
def RDC_PA_RD_BUSY : Fld := ⟨0xC00008, 9, 1⟩
def RDC_PA_RD_PERR : Fld := ⟨0xC00008, 10, 1⟩
def RDC_PA_RD_DATA : Fld := ⟨0xC00008, 16, 16⟩
def RDC_ERR_CNT0_RETRY : Fld := ⟨0xC0000C, 0, 8⟩
def RDC_ERR_CNT0_UNCORR : Fld := ⟨0xC0000C, 8, 8⟩
def RDC_ERR_CNT0_SYNC_MISS : Fld := ⟨0xC0000C, 16, 8⟩
def RDC_ERR_CNT0_OVERRUN : Fld := ⟨0xC0000C, 24, 8⟩
def RDC_ERR_CNT1_WFLT : Fld := ⟨0xC00010, 0, 8⟩
def RDC_ERR_CNT1_WINHIB : Fld := ⟨0xC00010, 8, 8⟩
def RDC_ERR_CNT1_LINK_RETRY : Fld := ⟨0xC00010, 16, 8⟩
def RDC_ERR_CNT1_DEFECT : Fld := ⟨0xC00010, 24, 8⟩
def RDC_CAL_CTL_HEAD : Fld := ⟨0xC00020, 0, 4⟩
def RDC_CAL_CTL_ZONE : Fld := ⟨0xC00020, 4, 6⟩
def RDC_CAL_CTL_PROC : Fld := ⟨0xC00020, 10, 2⟩
def RDC_CAL_CTL_GO : Fld := ⟨0xC00020, 12, 1⟩
def RDC_CAL_STAT_BUSY : Fld := ⟨0xC00024, 0, 1⟩
def RDC_CAL_STAT_RESULT : Fld := ⟨0xC00024, 1, 3⟩
def RDC_CAL_STAT_PEND : Fld := ⟨0xC00024, 4, 1⟩
def RDC_CAL_STAT_PROC : Fld := ⟨0xC00024, 5, 2⟩
def RDC_CAL_STAT_HEAD : Fld := ⟨0xC00024, 8, 4⟩
def RDC_CAL_STAT_ZONE : Fld := ⟨0xC00024, 12, 6⟩
def RDC_COEF_SEL_HEAD : Fld := ⟨0xC00030, 0, 4⟩
def RDC_COEF_SEL_ZONE : Fld := ⟨0xC00030, 4, 6⟩
def RDC_COEF_SEL_INDEX : Fld := ⟨0xC00030, 10, 5⟩
def RDC_COEF_VAL_VALUE : Fld := ⟨0xC00034, 0, 16⟩
def RDC_COEF_VAL_CALIBRATED : Fld := ⟨0xC00034, 16, 1⟩
def RDC_HEAT_CODE : Fld := ⟨0xC00038, 0, 10⟩
def RDC_HEAT_TEMP : Fld := ⟨0xC00038, 16, 16⟩
def RDC_DEFECTS_SLIPS : Fld := ⟨0xC0003C, 0, 16⟩
def RDC_DEFECTS_WITHDRAWN : Fld := ⟨0xC0003C, 16, 16⟩
def RDC_STATUS_RSV_WRITE : Fld := ⟨0xC80000, 0, 1⟩
def RDC_STATUS_FENCED : Fld := ⟨0xC80000, 1, 1⟩
def RDC_STATUS_IN_SERVICE : Fld := ⟨0xC80000, 8, 6⟩
def RDC_RETIRED_RETIRED : Fld := ⟨0xC80004, 0, 32⟩
def SRV_ACT_STATE : Fld := ⟨0xD00000, 0, 4⟩
def SRV_ACT_PHASE : Fld := ⟨0xD00000, 4, 2⟩
def SRV_ACT_ON_TRACK : Fld := ⟨0xD00000, 6, 1⟩
def SRV_ACT_RD_READY : Fld := ⟨0xD00000, 7, 1⟩
def SRV_ACT_INHIBIT : Fld := ⟨0xD00000, 8, 8⟩
def SRV_ACT_LANES : Fld := ⟨0xD00000, 16, 4⟩
def SRV_ACT_PARK_REC : Fld := ⟨0xD00000, 20, 2⟩
def SRV_POS_FRAC : Fld := ⟨0xD00004, 0, 8⟩
def SRV_POS_TRACK : Fld := ⟨0xD00004, 8, 22⟩
def SRV_TARGET_TRACK : Fld := ⟨0xD00008, 0, 22⟩
def SRV_ERR_E : Fld := ⟨0xD0000C, 0, 16⟩
def SRV_ERR_SIGMA : Fld := ⟨0xD0000C, 16, 16⟩
def SRV_SHEAD_SHEAD : Fld := ⟨0xD00010, 0, 16⟩
def SRV_SHEAD_BAD : Fld := ⟨0xD00010, 16, 12⟩
def SRV_THR_WI_THR : Fld := ⟨0xD00014, 0, 10⟩
def SRV_THR_WR_ON_THR : Fld := ⟨0xD00014, 10, 10⟩
def SRV_THR_RD_ON_THR : Fld := ⟨0xD00014, 20, 10⟩
def SRV_FE_FE_LIMIT : Fld := ⟨0xD00018, 0, 16⟩
def SRV_FE_FE_TMO : Fld := ⟨0xD00018, 16, 16⟩
def SRV_ONN_ON_N : Fld := ⟨0xD0001C, 0, 5⟩
def SRV_ONN_RD_N : Fld := ⟨0xD0001C, 8, 5⟩
def SRV_SEEK_STAT_SCALE : Fld := ⟨0xD00020, 0, 16⟩
def SRV_SEEK_STAT_TIME : Fld := ⟨0xD00020, 16, 16⟩
def SRV_R_EST_R : Fld := ⟨0xD00024, 0, 32⟩
def SRV_ERR_CNT0_OFFTRK : Fld := ⟨0xD00028, 0, 8⟩
def SRV_ERR_CNT0_LOST : Fld := ⟨0xD00028, 8, 8⟩
def SRV_ERR_CNT0_LANE_INV : Fld := ⟨0xD00028, 16, 8⟩
def SRV_ERR_CNT0_SHOCK : Fld := ⟨0xD00028, 24, 8⟩
def SRV_ERR_CNT1_SAT_SEEK : Fld := ⟨0xD0002C, 0, 8⟩
def SRV_ERR_CNT1_RETRACT : Fld := ⟨0xD0002C, 8, 8⟩
def SRV_ERR_CNT1_LOAD_FAIL : Fld := ⟨0xD0002C, 16, 8⟩
def SRV_ERR_CNT1_POS_LOST : Fld := ⟨0xD0002C, 24, 8⟩
def SRV_OFS_SEL_HEAD : Fld := ⟨0xD00030, 0, 4⟩
def SRV_OFS_SEL_ZONE : Fld := ⟨0xD00030, 4, 6⟩
def SRV_OFS_VAL_OFFSET : Fld := ⟨0xD00034, 0, 16⟩
def SRV_OFS_VAL_SIGMA : Fld := ⟨0xD00034, 16, 15⟩
def SRV_OFS_VAL_CALIBRATED : Fld := ⟨0xD00034, 31, 1⟩
def SRV_CAL_ZONE : Fld := ⟨0xD00038, 0, 6⟩
def SRV_CAL_GO : Fld := ⟨0xD00038, 6, 1⟩
def SRV_CAL_BUSY : Fld := ⟨0xD00038, 7, 1⟩
def SRV_CAL_RESULT : Fld := ⟨0xD00038, 8, 3⟩
def SRV_CAL_PEND : Fld := ⟨0xD00038, 11, 1⟩
def SRV_STATUS_RSV_WRITE : Fld := ⟨0xD80000, 0, 1⟩
def SRV_STATUS_SHOCK_HOLD : Fld := ⟨0xD80000, 16, 16⟩
def SRV_RETIRED_RETIRED : Fld := ⟨0xD80004, 0, 32⟩
def LTN_STATUS_RSV_WRITE : Fld := ⟨0xE00000, 0, 1⟩
def LTN_STATUS_SPARE : Fld := ⟨0xE00000, 1, 1⟩
def LTN_STATUS_SHED : Fld := ⟨0xE00000, 2, 1⟩
def LTN_STATUS_LIVE : Fld := ⟨0xE00000, 8, 4⟩
def LTN_CORES_SERVING : Fld := ⟨0xE00004, 0, 8⟩
def LTN_CORES_RETIRED : Fld := ⟨0xE00004, 8, 8⟩
def LTN_CORES_SHED_HDA : Fld := ⟨0xE00004, 16, 16⟩
def LTN_TASK_SEL_TASK : Fld := ⟨0xE00010, 0, 7⟩
def LTN_TASK_STAT_KIND : Fld := ⟨0xE00014, 0, 3⟩
def LTN_TASK_STAT_CORE : Fld := ⟨0xE00014, 3, 3⟩
def LTN_TASK_STAT_ENABLED : Fld := ⟨0xE00014, 6, 1⟩
def LTN_TASK_STAT_INHIBIT : Fld := ⟨0xE00014, 7, 1⟩
def LTN_TASK_STAT_SAT : Fld := ⟨0xE00014, 8, 1⟩
def LTN_TASK_STAT_MISS : Fld := ⟨0xE00014, 9, 1⟩
def LTN_TASK_STAT_CONSEC : Fld := ⟨0xE00014, 10, 2⟩
def LTN_TASK_STAT_NV : Fld := ⟨0xE00014, 12, 1⟩
def LTN_TASK_STAT_DZ : Fld := ⟨0xE00014, 13, 1⟩
def LTN_TASK_STAT_OF : Fld := ⟨0xE00014, 14, 1⟩
def LTN_TASK_STAT_UF : Fld := ⟨0xE00014, 15, 1⟩
def LTN_TASK_STAT_NX : Fld := ⟨0xE00014, 16, 1⟩
def LTN_TASK_STAT_NONFINITE : Fld := ⟨0xE00014, 17, 1⟩
def LTN_TASK_CTL_FTZ : Fld := ⟨0xE00018, 0, 1⟩
def LTN_TASK_SAMPLE_SAMPLE : Fld := ⟨0xE0001C, 0, 32⟩
def LTN_TASK_CNT_MISSES : Fld := ⟨0xE00020, 0, 16⟩
def LTN_TASK_CNT_SAT_INST : Fld := ⟨0xE00020, 16, 16⟩
def LTN_TASK_EXEC_EXEC_MAX : Fld := ⟨0xE00024, 0, 16⟩
def LTN_COEF_SEL_TASK : Fld := ⟨0xE00030, 0, 7⟩
def LTN_COEF_SEL_INDEX : Fld := ⟨0xE00030, 8, 8⟩
def LTN_COEF_DATA_VALUE : Fld := ⟨0xE00034, 0, 32⟩
def LTN_COEF_STAT_DEPTH : Fld := ⟨0xE00038, 0, 5⟩
def LTN_COEF_STAT_OVERRUN : Fld := ⟨0xE00038, 5, 1⟩
def LTN_COEF_STAT_PEND : Fld := ⟨0xE00038, 6, 1⟩
def LTN_COEF_STAT_LAST_SAMPLE : Fld := ⟨0xE00038, 8, 24⟩
def SPN_STATE_STATE : Fld := ⟨0xF00000, 0, 4⟩
def SPN_STATE_TRACKER : Fld := ⟨0xF00000, 4, 2⟩
def SPN_STATE_AT_SPEED : Fld := ⟨0xF00000, 6, 1⟩
def SPN_STATE_SAT : Fld := ⟨0xF00000, 7, 1⟩
def SPN_STATE_SHUNT_U : Fld := ⟨0xF00000, 8, 2⟩
def SPN_STATE_SHUNT_V : Fld := ⟨0xF00000, 10, 2⟩
def SPN_STATE_SHUNT_W : Fld := ⟨0xF00000, 12, 2⟩
def SPN_STATE_DRV_FLT : Fld := ⟨0xF00000, 14, 1⟩
def SPN_STATE_HOLD : Fld := ⟨0xF00000, 15, 1⟩
def SPN_SPEED_RPM : Fld := ⟨0xF00004, 0, 18⟩
def SPN_SETPT_RPM : Fld := ⟨0xF00008, 0, 18⟩
def SPN_ANGLE_THETA : Fld := ⟨0xF0000C, 0, 16⟩
def SPN_ANGLE_VALID : Fld := ⟨0xF0000C, 16, 1⟩
def SPN_MEAS_IQ : Fld := ⟨0xF00010, 0, 16⟩
def SPN_MEAS_ID : Fld := ⟨0xF00010, 16, 16⟩
def SPN_VM_VM : Fld := ⟨0xF00014, 0, 16⟩
def SPN_VM_I_RG : Fld := ⟨0xF00014, 16, 16⟩
def SPN_ADV_GAMMA : Fld := ⟨0xF00018, 0, 16⟩
def SPN_CAL_GO : Fld := ⟨0xF0001C, 0, 1⟩
def SPN_CAL_BUSY : Fld := ⟨0xF0001C, 1, 1⟩
def SPN_CAL_PEND : Fld := ⟨0xF0001C, 2, 1⟩
def SPN_CAL_RESULT : Fld := ⟨0xF0001C, 3, 3⟩
def SPN_CAL_AGE : Fld := ⟨0xF0001C, 16, 16⟩
def SPN_OFS_UV_U : Fld := ⟨0xF00020, 0, 16⟩
def SPN_OFS_UV_V : Fld := ⟨0xF00020, 16, 16⟩
def SPN_OFS_W_W : Fld := ⟨0xF00024, 0, 16⟩
def SPN_SYNC_OFFSET : Fld := ⟨0xF00028, 0, 16⟩
def SPN_SYNC_LOCKED : Fld := ⟨0xF00028, 16, 1⟩
def SPN_CNT0_PWM_SKIP_CNT : Fld := ⟨0xF0002C, 0, 16⟩
def SPN_CNT0_CLAMP : Fld := ⟨0xF0002C, 16, 16⟩
def SPN_CNT1_LOS : Fld := ⟨0xF00030, 0, 8⟩
def SPN_CNT1_DRV_FLT : Fld := ⟨0xF00030, 8, 8⟩
def SPN_CNT1_SAT_ONSET : Fld := ⟨0xF00030, 16, 8⟩
def SPN_CNT1_FORCED : Fld := ⟨0xF00030, 24, 8⟩
def SPN_STATUS_RSV_WRITE : Fld := ⟨0xF40000, 0, 1⟩
def SPN_STATUS_AT_SPEED : Fld := ⟨0xF40000, 16, 16⟩
def SPN_RETIRED_RETIRED : Fld := ⟨0xF40004, 0, 16⟩
def SPN_SYNC_CTL_OUT_HDA : Fld := ⟨0xF40008, 0, 5⟩
def SPN_SYNC_CTL_IN_MASK : Fld := ⟨0xF40008, 16, 16⟩
def VCM_STATE_BRIDGE : Fld := ⟨0xF80000, 0, 1⟩
def VCM_STATE_RETRACT : Fld := ⟨0xF80000, 1, 1⟩
def VCM_STATE_SHUNT_A : Fld := ⟨0xF80000, 2, 2⟩
def VCM_STATE_SHUNT_B : Fld := ⟨0xF80000, 4, 2⟩
def VCM_STATE_DRV_FLT : Fld := ⟨0xF80000, 6, 1⟩
def VCM_STATE_SAT : Fld := ⟨0xF80000, 7, 1⟩
def VCM_STATE_SAT_HELD : Fld := ⟨0xF80000, 8, 1⟩
def VCM_STATE_STRANDED : Fld := ⟨0xF80000, 9, 1⟩
def VCM_SAT_TMO_TMO : Fld := ⟨0xF80004, 0, 16⟩
def VCM_PWM_CARRIER : Fld := ⟨0xF80008, 0, 9⟩
def VCM_PWM_DEAD : Fld := ⟨0xF80008, 9, 11⟩
def VCM_PWM_MINPULSE : Fld := ⟨0xF80008, 20, 11⟩
def VCM_MEAS_I : Fld := ⟨0xF8000C, 0, 16⟩
def VCM_MEAS_V : Fld := ⟨0xF8000C, 16, 16⟩
def VCM_HEADROOM_H : Fld := ⟨0xF80010, 0, 16⟩
def VCM_CNT_PWM_SKIP_CNT : Fld := ⟨0xF80014, 0, 16⟩
def VCM_CNT_CLAMP : Fld := ⟨0xF80014, 16, 16⟩
def VCM_STATUS_RSV_WRITE : Fld := ⟨0xFC0000, 0, 1⟩
def VCM_STATUS_BRIDGES : Fld := ⟨0xFC0000, 8, 6⟩
def UDC_STATUS_RSV_WRITE : Fld := ⟨0x1000000, 0, 1⟩
def UDC_STATUS_REBUILD : Fld := ⟨0x1000000, 1, 1⟩
def UDC_STATUS_RESHAPE : Fld := ⟨0x1000000, 2, 1⟩
def UDC_STATUS_RESYNC : Fld := ⟨0x1000000, 3, 1⟩
def UDC_STATUS_FLASH_RO : Fld := ⟨0x1000000, 4, 1⟩
def UDC_STATUS_DISK_RO : Fld := ⟨0x1000000, 5, 1⟩
def UDC_STATUS_FLASH_FULL : Fld := ⟨0x1000000, 6, 1⟩
def UDC_STATUS_DISK_FULL : Fld := ⟨0x1000000, 7, 1⟩
def UDC_FMEMB_MASK : Fld := ⟨0x1000004, 0, 32⟩
def UDC_FINSV_MASK : Fld := ⟨0x1000008, 0, 32⟩
def UDC_DMEMB_MEMB : Fld := ⟨0x100000C, 0, 16⟩
def UDC_DINSV_ACT_A : Fld := ⟨0x1000010, 0, 16⟩
def UDC_DINSV_ACT_B : Fld := ⟨0x1000010, 16, 16⟩
def UDC_GEOM_F_WIDTH : Fld := ⟨0x1000014, 0, 6⟩
def UDC_GEOM_F_NOW : Fld := ⟨0x1000014, 8, 6⟩
def UDC_GEOM_D_WIDTH : Fld := ⟨0x1000014, 16, 5⟩
def UDC_GEOM_D_NOW : Fld := ⟨0x1000014, 24, 5⟩
def UDC_RESHAPE_MEMB_MASK : Fld := ⟨0x1000020, 0, 32⟩
def UDC_RESHAPE_CTL_POOL : Fld := ⟨0x1000024, 0, 1⟩
def UDC_RESHAPE_CTL_GO : Fld := ⟨0x1000024, 14, 1⟩
def UDC_RESHAPE_CTL_KEY : Fld := ⟨0x1000024, 16, 16⟩
def UDC_RESHAPE_STAT_RESULT : Fld := ⟨0x1000028, 0, 3⟩
def UDC_RESHAPE_STAT_POOL : Fld := ⟨0x1000028, 3, 1⟩
def UDC_RESHAPE_VIS_SEG : Fld := ⟨0x100002C, 0, 26⟩
def UDC_RESHAPE_CMT_SEG : Fld := ⟨0x1000030, 0, 26⟩
def UDC_REBUILD_SEG1 : Fld := ⟨0x1000034, 0, 16⟩
def UDC_REBUILD_SEG2 : Fld := ⟨0x1000034, 16, 16⟩
def UDC_REBUILD_RATE_RATE : Fld := ⟨0x1000038, 0, 16⟩
def UDC_FREE_F_FREE : Fld := ⟨0x100003C, 0, 26⟩
def UDC_FREE_D_FREE : Fld := ⟨0x1000040, 0, 26⟩
def UDC_LOST_LO_COUNT : Fld := ⟨0x1000044, 0, 32⟩
def UDC_LOST_HI_COUNT : Fld := ⟨0x1000048, 0, 32⟩
def UDC_WBUF_DIRTY : Fld := ⟨0x100004C, 0, 22⟩
def UDC_WBUF_LIM_LIMIT : Fld := ⟨0x1000050, 0, 22⟩
def UDC_WBUF_LIM_BY : Fld := ⟨0x1000050, 24, 3⟩
def UDC_CKPT_BUSY : Fld := ⟨0x1000054, 0, 1⟩
def UDC_CKPT_REQ : Fld := ⟨0x1000054, 1, 1⟩
def UDC_CKPT_LOG_FILL : Fld := ⟨0x1000054, 8, 8⟩
def UDC_CKPT_AGE : Fld := ⟨0x1000054, 16, 16⟩
def RND_STATUS_RSV_WRITE : Fld := ⟨0x1100000, 0, 1⟩
def RND_STATUS_IN_SERVICE : Fld := ⟨0x1100000, 8, 8⟩
def RND_STATUS_RETIRED : Fld := ⟨0x1100000, 16, 8⟩
def RND_STATUS_CTX_USED : Fld := ⟨0x1100000, 24, 7⟩
def RND_CTL_GRAN_DEPTH : Fld := ⟨0x1100004, 0, 6⟩
def RND_CTL_KAT_PERIOD : Fld := ⟨0x1100004, 8, 8⟩
def RND_CNT0_STORED : Fld := ⟨0x1100008, 0, 16⟩
def RND_CNT0_MISMATCH : Fld := ⟨0x1100008, 16, 16⟩
def RND_CNT1_DECOMP_FAIL : Fld := ⟨0x110000C, 0, 16⟩
def RND_CNT1_BAD_JOB : Fld := ⟨0x110000C, 16, 16⟩
def HOD_SRC_LO_SHADOW : Fld := ⟨0x1180000, 0, 32⟩
def HOD_SRC_HI_SHADOW : Fld := ⟨0x1180004, 0, 32⟩
def HOD_DST_LO_SHADOW : Fld := ⟨0x1180008, 0, 32⟩
def HOD_DST_HI_SHADOW : Fld := ⟨0x118000C, 0, 32⟩
def HOD_LEN_SHADOW : Fld := ⟨0x1180010, 0, 32⟩
def HOD_CFG0_SHADOW : Fld := ⟨0x1180014, 0, 32⟩
def HOD_CFG1_SHADOW : Fld := ⟨0x1180018, 0, 32⟩
def HOD_CRC_INIT_SHADOW : Fld := ⟨0x118001C, 0, 32⟩
def HOD_CMD_CMD : Fld := ⟨0x1180020, 0, 3⟩
def HOD_STAT_STATE : Fld := ⟨0x1180024, 0, 3⟩
def HOD_STAT_PAUSED : Fld := ⟨0x1180024, 3, 1⟩
def HOD_STAT_LOADED : Fld := ⟨0x1180024, 4, 1⟩
def HOD_STAT_WAIT_HOST : Fld := ⟨0x1180024, 5, 1⟩
def HOD_STAT_DISCARDED : Fld := ⟨0x1180024, 6, 1⟩
def HOD_STAT_LAST : Fld := ⟨0x1180024, 8, 3⟩
def HOD_STAT_RESULT : Fld := ⟨0x1180024, 12, 3⟩
def HOD_STAT_TAG : Fld := ⟨0x1180024, 16, 16⟩
def HOD_ACT_SRC_LO_ACTIVE : Fld := ⟨0x1180028, 0, 32⟩
def HOD_ACT_SRC_HI_ACTIVE : Fld := ⟨0x118002C, 0, 32⟩
def HOD_ACT_DST_LO_ACTIVE : Fld := ⟨0x1180030, 0, 32⟩
def HOD_ACT_DST_HI_ACTIVE : Fld := ⟨0x1180034, 0, 32⟩
def HOD_ACT_REM_ACTIVE : Fld := ⟨0x1180038, 0, 32⟩
def HOD_ACT_CRC_ACTIVE : Fld := ⟨0x118003C, 0, 32⟩
def HOD_STATUS_RSV_WRITE : Fld := ⟨0x1180800, 0, 1⟩
def HOD_STATUS_RETIRED : Fld := ⟨0x1180800, 16, 16⟩
def HOD_OWN_CLAIM : Fld := ⟨0x1180804, 0, 16⟩
def HOD_OWN_VECTOR : Fld := ⟨0x1180804, 16, 6⟩
def HOD_OWN_REFUSED : Fld := ⟨0x1180804, 22, 1⟩
def MSK_STATUS_RSV_WRITE : Fld := ⟨0x1200000, 0, 1⟩
def MSK_STATUS_KEYS : Fld := ⟨0x1200000, 1, 10⟩
def MSK_LANES_IN_SERVICE : Fld := ⟨0x1200004, 0, 16⟩
def MSK_LANES_RETIRED : Fld := ⟨0x1200004, 16, 16⟩
def MSK_KAT_CTL_PERIOD : Fld := ⟨0x1200008, 0, 8⟩
def MSK_ERR_CNT_LOCKSTEP : Fld := ⟨0x120000C, 0, 16⟩
def MSK_ERR_CNT_KAT_FAIL : Fld := ⟨0x120000C, 16, 16⟩
def OZP_STATUS_RSV_WRITE : Fld := ⟨0x1300000, 0, 1⟩
def OZP_STATUS_MODE : Fld := ⟨0x1300000, 1, 2⟩
def OZP_STATUS_BYP_HOLD : Fld := ⟨0x1300000, 3, 1⟩
def OZP_STATUS_SETS : Fld := ⟨0x1300000, 4, 3⟩
def OZP_PORT0_STATE : Fld := ⟨0x1300010, 0, 3⟩
def OZP_PORT0_VER : Fld := ⟨0x1300010, 3, 2⟩
def OZP_PORT0_WHY : Fld := ⟨0x1300010, 5, 2⟩
def OZP_PORT0_LAST_STATE : Fld := ⟨0x1300010, 8, 4⟩
def OZP_PORT0_LANES : Fld := ⟨0x1300010, 16, 8⟩
def OZP_PORT1_STATE : Fld := ⟨0x1300014, 0, 3⟩
def OZP_PORT1_VER : Fld := ⟨0x1300014, 3, 2⟩
def OZP_PORT1_WHY : Fld := ⟨0x1300014, 5, 2⟩
def OZP_PORT1_LAST_STATE : Fld := ⟨0x1300014, 8, 4⟩
def OZP_PORT1_LANES : Fld := ⟨0x1300014, 16, 8⟩
def OZP_UID_LO_UID : Fld := ⟨0x1300020, 0, 32⟩
def OZP_UID_HI_UID : Fld := ⟨0x1300024, 0, 32⟩
def OZP_PEER0_LO_UID : Fld := ⟨0x1300028, 0, 32⟩
def OZP_PEER0_HI_UID : Fld := ⟨0x130002C, 0, 32⟩
def OZP_PEER1_LO_UID : Fld := ⟨0x1300030, 0, 32⟩
def OZP_PEER1_HI_UID : Fld := ⟨0x1300034, 0, 32⟩
def OZP_OUT_SLOTS : Fld := ⟨0x1300040, 0, 22⟩
def OZP_OUT_USED_SLOTS : Fld := ⟨0x1300044, 0, 22⟩
def OZP_IN_SLOTS : Fld := ⟨0x1300048, 0, 22⟩
def OZP_IN_USED_SLOTS : Fld := ⟨0x130004C, 0, 22⟩
def OZP_EPOCH_EPOCH : Fld := ⟨0x1300050, 0, 32⟩
def OZP_ORPHAN_RECORDS : Fld := ⟨0x1300054, 0, 22⟩
def OZP_HOLD_ORPHAN_HOLD : Fld := ⟨0x1300058, 0, 12⟩
def OZP_HOLD_REMAIN : Fld := ⟨0x1300058, 16, 12⟩
def OZP_CNT0_LINK_DOWN : Fld := ⟨0x130005C, 0, 8⟩
def OZP_CNT0_TRAIN_FAIL : Fld := ⟨0x130005C, 8, 8⟩
def OZP_CNT0_REPLAY : Fld := ⟨0x130005C, 16, 8⟩
def OZP_CNT0_BAD_FRAME : Fld := ⟨0x130005C, 24, 8⟩
def KPR_STATUS_RSV_WRITE : Fld := ⟨0x1400000, 0, 1⟩
def KPR_STATUS_FENCED : Fld := ⟨0x1400000, 1, 1⟩
def KPR_STATUS_FOGHORN : Fld := ⟨0x1400000, 2, 1⟩
def KPR_STATUS_HIST_OVF : Fld := ⟨0x1400000, 3, 1⟩
def KPR_STATUS_OPEN : Fld := ⟨0x1400000, 8, 9⟩
def KPR_CTL_CORR_WIN : Fld := ⟨0x1400004, 0, 16⟩
def KPR_CTL_CONT_WIN : Fld := ⟨0x1400004, 16, 16⟩
def KPR_FOGHORN_HOLD : Fld := ⟨0x1400008, 0, 1⟩
def KPR_FOGHORN_AUTO_HOLD : Fld := ⟨0x1400008, 1, 1⟩
def KPR_FOGHORN_PULSE : Fld := ⟨0x1400008, 2, 1⟩
def KPR_FOGHORN_LOCKED : Fld := ⟨0x1400008, 3, 1⟩
def KPR_ACK_RSEQ : Fld := ⟨0x140000C, 0, 16⟩
def KPR_ACK_ALL : Fld := ⟨0x140000C, 16, 1⟩
def KPR_HIST_NEXT_SLOT : Fld := ⟨0x1400010, 0, 5⟩
def KPR_HIST_NEXT_RSEQ : Fld := ⟨0x1400010, 16, 16⟩
def KPR_GROUP_SEL_GROUP : Fld := ⟨0x1400014, 0, 8⟩
def KPR_GROUP_SEL_CORR_OPEN : Fld := ⟨0x1400014, 8, 1⟩
def KPR_GROUP_SEL_CONT_OPEN : Fld := ⟨0x1400014, 9, 1⟩
def KPR_GROUP_SEL_COVER_DONE : Fld := ⟨0x1400014, 10, 1⟩
def KPR_GROUP_RSEQ_CORR : Fld := ⟨0x1400018, 0, 16⟩
def KPR_GROUP_RSEQ_CONT : Fld := ⟨0x1400018, 16, 16⟩
def KPR_OPEN_OPEN : Fld := ⟨0x1400020, 0, 32⟩
def KPR_SRC_SEL_SOURCE : Fld := ⟨0x1400040, 0, 12⟩
def KPR_SRC_INFO_USED : Fld := ⟨0x1400044, 0, 1⟩
def KPR_SRC_INFO_CLASS : Fld := ⟨0x1400044, 1, 2⟩
def KPR_SRC_INFO_FORCE : Fld := ⟨0x1400044, 3, 1⟩
def KPR_SRC_INFO_COUNT : Fld := ⟨0x1400044, 16, 16⟩
def KPR_FORCE_SOURCE : Fld := ⟨0x1400048, 0, 12⟩
def KPR_FORCE_KEY : Fld := ⟨0x1400048, 16, 16⟩
def KPR_TALLY_PERSIST : Fld := ⟨0x140004C, 0, 8⟩
def KPR_TALLY_SKIPPED : Fld := ⟨0x140004C, 8, 8⟩
def KPR_TALLY_ROUNDS : Fld := ⟨0x140004C, 16, 16⟩
def KPR_SAFE_VALID : Fld := ⟨0x1400050, 0, 1⟩
def KPR_SAFE_DIRECT : Fld := ⟨0x1400050, 1, 1⟩
def KPR_SAFE_QUEUES_DONE : Fld := ⟨0x1400050, 2, 1⟩
def KPR_SAFE_HEADS_DONE : Fld := ⟨0x1400050, 3, 1⟩
def KPR_SAFE_FLUSH_DONE : Fld := ⟨0x1400050, 4, 1⟩
def KPR_SAFE_SOURCE : Fld := ⟨0x1400050, 16, 12⟩
def KPR_IRQ_EN_EN : Fld := ⟨0x1400054, 0, 6⟩
def KPR_IRQ_STAT_CAUSE : Fld := ⟨0x1400058, 0, 6⟩
def KPR_MGT_EN_EN : Fld := ⟨0x140005C, 0, 6⟩
def KPR_MGT_STAT_CAUSE : Fld := ⟨0x1400060, 0, 6⟩
def KPR_HIST_RECORD : Fld := ⟨0x1400100, 0, 32⟩
def DMK_STATUS_RSV_WRITE : Fld := ⟨0x1500000, 0, 1⟩
def DMK_STATUS_PERM_FULL : Fld := ⟨0x1500000, 1, 1⟩
def DMK_STATUS_PERSIST_ERR : Fld := ⟨0x1500000, 2, 1⟩
def DMK_STATUS_RESTORED : Fld := ⟨0x1500000, 3, 1⟩
def DMK_STATUS_PERM_USED : Fld := ⟨0x1500000, 16, 10⟩
def DMK_NEWEST_SLOT : Fld := ⟨0x1500004, 0, 12⟩
def DMK_NEWEST_EMPTY : Fld := ⟨0x1500004, 31, 1⟩
def DMK_OLDEST_SLOT : Fld := ⟨0x1500008, 0, 12⟩
def DMK_OLDEST_EMPTY : Fld := ⟨0x1500008, 31, 1⟩
def DMK_CURSOR_SLOT : Fld := ⟨0x150000C, 0, 12⟩
def DMK_CURSOR_AUTO : Fld := ⟨0x150000C, 16, 1⟩
def DMK_WIN_WORD : Fld := ⟨0x1500010, 0, 32⟩
def DMK_PERSIST_ESEQ : Fld := ⟨0x1500030, 0, 32⟩
def DMK_LOSS_OVERFLOW : Fld := ⟨0x1500034, 0, 16⟩
def DMK_CODE_SEL_CODE : Fld := ⟨0x1500038, 0, 16⟩
def DMK_CODE_STAT_PENDING : Fld := ⟨0x150003C, 0, 16⟩
def DMK_CODE_STAT_TOKENS : Fld := ⟨0x150003C, 16, 8⟩
def DMK_CODE_STAT_PERM : Fld := ⟨0x150003C, 24, 1⟩
def DMK_NONCE_NONCE : Fld := ⟨0x1500040, 0, 32⟩
def BLS_STATUS_RSV_WRITE : Fld := ⟨0x1600000, 0, 1⟩
def BLS_STATUS_ACTIVE : Fld := ⟨0x1600000, 1, 1⟩
def BLS_STATUS_FLUSH_DONE : Fld := ⟨0x1600000, 2, 1⟩
def BLS_STATUS_SHORT : Fld := ⟨0x1600000, 3, 1⟩
def BLS_STATUS_VHOLD_ON : Fld := ⟨0x1600000, 4, 1⟩
def BLS_STATUS_BROWNOUT : Fld := ⟨0x1600000, 5, 1⟩
def BLS_STATUS_VM_BACK : Fld := ⟨0x1600000, 6, 1⟩
def BLS_STATUS_CAUSE : Fld := ⟨0x1600000, 8, 2⟩
def BLS_CFG_VM_FAIL : Fld := ⟨0x1600004, 0, 14⟩
def BLS_CFG_VM_FAIL_NS : Fld := ⟨0x1600004, 16, 16⟩
def BLS_LIMIT_SLOTS : Fld := ⟨0x1600008, 0, 22⟩
def BLS_LIMIT_BY_DUMP : Fld := ⟨0x1600008, 24, 1⟩
def BLS_ENERGY_AVAIL : Fld := ⟨0x160000C, 0, 16⟩
def BLS_ENERGY_NEED : Fld := ⟨0x160000C, 16, 16⟩
def BLS_RATE_R_D : Fld := ⟨0x1600010, 0, 16⟩
def BLS_RATE_HDAS : Fld := ⟨0x1600010, 20, 4⟩
def BLS_RATE_DIPS : Fld := ⟨0x1600010, 24, 8⟩
def BLS_VHOLD_V : Fld := ⟨0x1600014, 0, 16⟩
def BLS_VHOLD_LOW : Fld := ⟨0x1600014, 16, 1⟩
def BLS_LAST0_CAUSE : Fld := ⟨0x1600018, 0, 3⟩
def BLS_LAST0_COMPLETE : Fld := ⟨0x1600018, 3, 1⟩
def BLS_LAST0_META_LOST : Fld := ⟨0x1600018, 4, 1⟩
def BLS_LAST0_DURATION : Fld := ⟨0x1600018, 16, 16⟩
def BLS_LAST1_SLOTS : Fld := ⟨0x160001C, 0, 22⟩
def BLS_RESTORE_SLOTS : Fld := ⟨0x1600020, 0, 22⟩
def BLS_LOST_COUNT : Fld := ⟨0x1600024, 0, 32⟩
def PWR_STATUS_RSV_WRITE : Fld := ⟨0x1601000, 0, 1⟩
def PWR_STATUS_BUS_FAIL : Fld := ⟨0x1601000, 1, 1⟩
def PWR_STATUS_AT_VMAX : Fld := ⟨0x1601000, 2, 1⟩
def PWR_STATUS_AT_VMIN : Fld := ⟨0x1601000, 3, 1⟩
def PWR_STATUS_VCMD : Fld := ⟨0x1601000, 4, 10⟩
def PWR_AVS_CTL_MODE : Fld := ⟨0x1601004, 0, 2⟩
def PWR_AVS_VSET_VSET : Fld := ⟨0x1601008, 0, 10⟩
def PWR_AVS_LIMIT_VMIN : Fld := ⟨0x160100C, 0, 10⟩
def PWR_AVS_LIMIT_VMAX : Fld := ⟨0x160100C, 16, 10⟩
def PWR_AVS_PACE_PACE_LO : Fld := ⟨0x1601010, 0, 16⟩
def PWR_AVS_PACE_PACE_HI : Fld := ⟨0x1601010, 16, 16⟩
def PWR_AVS_READ_VREAD : Fld := ⟨0x1601014, 0, 10⟩
def PWR_AVS_READ_IREAD : Fld := ⟨0x1601014, 16, 16⟩
def PWR_PD_REQ_DOMAIN : Fld := ⟨0x1601020, 0, 8⟩
def PWR_PD_REQ_OP : Fld := ⟨0x1601020, 8, 2⟩
def PWR_PD_REQ_RESULT : Fld := ⟨0x1601020, 16, 3⟩
def PWR_PD_ON_ON : Fld := ⟨0x1601040, 0, 32⟩
def PWR_PD_BUSY_BUSY : Fld := ⟨0x1601060, 0, 32⟩
def PWR_PD_PEND_PEND : Fld := ⟨0x1601080, 0, 32⟩
def TBS_STATUS_RSV_WRITE : Fld := ⟨0x1602000, 0, 1⟩
def TBS_STATUS_LOCKED : Fld := ⟨0x1602000, 1, 1⟩
def TBS_NOW_LO_NOW : Fld := ⟨0x1602004, 0, 32⟩
def TBS_NOW_HI_NOW : Fld := ⟨0x1602008, 0, 32⟩
def MSR_PACE_PACE : Fld := ⟨0x1603000, 0, 16⟩
def MSR_PACE_PACE_MIN : Fld := ⟨0x1603000, 16, 16⟩
def MSR_PACE_CTL_WARN_THR : Fld := ⟨0x1603010, 0, 16⟩
def MSR_PACE_CTL_MIN_RESTART : Fld := ⟨0x1603010, 16, 1⟩
def MSR_STATUS_RSV_WRITE : Fld := ⟨0x1603014, 0, 1⟩
def MSR_STATUS_WARN : Fld := ⟨0x1603014, 4, 4⟩
def MSR_STATUS_FLOOR : Fld := ⟨0x1603014, 8, 4⟩
def MSR_PARAM_SEL_ITEM : Fld := ⟨0x1603020, 0, 12⟩
def MSR_PARAM_VAL_VALUE : Fld := ⟨0x1603024, 0, 32⟩
def MSR_PARAM_STAT_STATE : Fld := ⟨0x1603028, 0, 3⟩
def MSR_PARAM_STAT_COUNT : Fld := ⟨0x1603028, 8, 8⟩
def XQ_SQDB_TAIL : Fld := ⟨0x0, 0, 16⟩
def XQ_CQDB_HEAD : Fld := ⟨0x4, 0, 16⟩
def XQ_AQ_CFG_SIZE_LOG2 : Fld := ⟨0x800, 0, 4⟩
def XQ_AQ_CFG_IEN : Fld := ⟨0x800, 7, 1⟩
def XQ_AQ_CFG_VECTOR : Fld := ⟨0x800, 8, 6⟩
def XQ_AQ_CFG_EN : Fld := ⟨0x800, 16, 1⟩
def XQ_AQ_CFG_READY : Fld := ⟨0x800, 17, 1⟩
def XQ_AQ_SQB_LO_ADDR : Fld := ⟨0x808, 12, 20⟩
def XQ_AQ_SQB_HI_ADDR : Fld := ⟨0x80C, 0, 32⟩
def XQ_AQ_CQB_LO_ADDR : Fld := ⟨0x810, 12, 20⟩
def XQ_AQ_CQB_HI_ADDR : Fld := ⟨0x814, 0, 32⟩
def XQ_ERRLOG_W0_CID : Fld := ⟨0x2000, 0, 16⟩
def XQ_ERRLOG_W0_STATUS : Fld := ⟨0x2000, 16, 16⟩
def XQ_ERRLOG_W1_SQ_INDEX : Fld := ⟨0x2004, 0, 16⟩
def XQ_ERRLOG_W1_OPC : Fld := ⟨0x2004, 16, 8⟩
def XQ_ERRLOG_W1_VALID : Fld := ⟨0x2004, 24, 1⟩
def XQ_ERRLOG_W1_MORE : Fld := ⟨0x2004, 25, 1⟩
def XQ_ERRLOG_W2_SEQ_LO : Fld := ⟨0x2008, 0, 32⟩
def XQ_ERRLOG_W3_SEQ_HI : Fld := ⟨0x200C, 0, 32⟩
def XQ_ERRLOG_W4_SLBA_LO : Fld := ⟨0x2010, 0, 32⟩
def XQ_ERRLOG_W5_SLBA_HI : Fld := ⟨0x2014, 0, 32⟩
def XQ_ERRLOG_W6_NLB : Fld := ⟨0x2018, 0, 32⟩
def XQ_ERRLOG_W7_NSID : Fld := ⟨0x201C, 0, 4⟩
def XQ_ERRLOG_W7_FLAGS : Fld := ⟨0x201C, 8, 8⟩
def XQ_RESUME_QUEUE : Fld := ⟨0x2800, 0, 4⟩
def XQ_RESUME_ACTION : Fld := ⟨0x2800, 4, 2⟩
def XQ_RESUME_N : Fld := ⟨0x2800, 16, 16⟩
def XQ_RESUME_STAT_RESULT : Fld := ⟨0x2804, 0, 3⟩
def XQ_RESUME_STAT_PEND : Fld := ⟨0x2804, 8, 9⟩
def XQ_DBERR_SQ_ERR : Fld := ⟨0x2808, 0, 9⟩
def XQ_DBERR_CQ_ERR : Fld := ⟨0x2808, 16, 9⟩
def XQ_VSTATUS_RSV_WRITE : Fld := ⟨0x280C, 0, 1⟩
def XQ_VSTATUS_OPEN : Fld := ⟨0x280C, 1, 1⟩
def XQ_VSTATUS_FROZEN : Fld := ⟨0x280C, 2, 9⟩

/-! ## The register tables, one list per block (R536) -/

/-- Registers of the GLB block (00_scope.md, 02_package_and_electrical.md, 03_bring_up_and_image.md). -/
def regsGlb0 : List RegDesc := [
  ⟨"GLB_ID", 0x0, [], .ro, .ro, .ro,
    [⟨"PART", 16, 16, .ro, 0x1284, []⟩,
     ⟨"STEP_MAJ", 12, 4, .ro, 1, []⟩,
     ⟨"STEP_MIN", 8, 4, .ro, 0, []⟩,
     ⟨"FAMILY", 4, 4, .ro, 1, []⟩]⟩,
  ⟨"GLB_STATE", 0x4, [], .ro, .ro, .ro,
    [⟨"STATE", 0, 4, .ro, 0, []⟩,
     ⟨"STOPPING", 4, 1, .ro, 0, []⟩]⟩,
  ⟨"GLB_CTL", 0x8, [], .wo, .wo, .no,
    [⟨"WARM_RESET", 0, 1, .wo, 0, []⟩,
     ⟨"ENTER_SAFE", 1, 1, .wo, 0, []⟩,
     ⟨"KEY", 16, 16, .wo, 0, []⟩]⟩,
  ⟨"GLB_STATUS", 0xC, [], .rw, .rw, .ro,
    [⟨"RSV_WRITE", 0, 1, .w1c, 0, []⟩,
     ⟨"MIN_SET", 1, 1, .ro, 0, []⟩,
     ⟨"REDUCTION", 4, 4, .ro, 0, []⟩]⟩,
  ⟨"GLB_IDSTR", 0x10, [(8, 0x4)], .ro, .ro, .ro,
    [⟨"CHARS", 0, 32, .ro, 0, []⟩]⟩,
  ⟨"GLB_BOOT", 0x30, [], .ro, .ro, .ro,
    [⟨"SLOT", 0, 2, .ro, 0, []⟩,
     ⟨"LAST_GOOD", 2, 2, .ro, 0, []⟩,
     ⟨"TRIAL", 4, 2, .ro, 0, []⟩,
     ⟨"TRIES", 6, 2, .ro, 0, []⟩,
     ⟨"A_REASON", 8, 4, .ro, 0, []⟩,
     ⟨"B_REASON", 12, 4, .ro, 0, []⟩,
     ⟨"SKIM_OFF", 16, 1, .ro, 0, []⟩,
     ⟨"OTP_ENROLLED", 17, 1, .ro, 0, []⟩,
     ⟨"ENROLLED_NOW", 18, 1, .ro, 0, []⟩,
     ⟨"BEACON_CAUSE", 24, 4, .ro, 0, []⟩]⟩,
  ⟨"GLB_BOOTCNT", 0x34, [], .ro, .ro, .ro,
    [⟨"BOOT_COUNT", 0, 32, .ro, 0, []⟩]⟩,
  ⟨"GLB_RESET_CAUSE", 0x38, [], .ro, .ro, .ro,
    [⟨"CAUSE", 0, 3, .ro, 0, []⟩,
     ⟨"FLUSH_DONE", 3, 1, .ro, 0, []⟩]⟩,
  ⟨"GLB_NOR_ADDR", 0x80, [], .rw, .rw, .ro,
    [⟨"ADDR", 0, 32, .rw, 0, []⟩]⟩,
  ⟨"GLB_NOR_CMD", 0x84, [], .wo, .wo, .no,
    [⟨"OP", 0, 4, .wo, 0, []⟩,
     ⟨"SLOT", 4, 2, .wo, 0, []⟩]⟩,
  ⟨"GLB_NOR_STAT", 0x88, [], .rw, .rw, .ro,
    [⟨"BUSY", 0, 1, .ro, 0, []⟩,
     ⟨"RESULT", 1, 3, .ro, 0, []⟩,
     ⟨"OVERRUN", 4, 1, .w1c, 0, []⟩]⟩,
  ⟨"GLB_GPIO_FUNC", 0x100, [(3, 0x4)], .rw, .rw, .ro,
    [⟨"FUNC_0", 0, 4, .rw, 0, []⟩,
     ⟨"FUNC_1", 4, 4, .rw, 0, []⟩,
     ⟨"FUNC_2", 8, 4, .rw, 0, []⟩,
     ⟨"FUNC_3", 12, 4, .rw, 0, []⟩,
     ⟨"FUNC_4", 16, 4, .rw, 0, []⟩,
     ⟨"FUNC_5", 20, 4, .rw, 0, []⟩,
     ⟨"FUNC_6", 24, 4, .rw, 0, []⟩,
     ⟨"FUNC_7", 28, 4, .rw, 0, []⟩]⟩]

/-- Registers of the GLB block (02_package_and_electrical.md, 03_bring_up_and_image.md). -/
def regsGlb1 : List RegDesc := [
  ⟨"GLB_GPIO_OUT", 0x10C, [], .rw, .rw, .ro,
    [⟨"OUT", 0, 24, .rw, 0, []⟩]⟩,
  ⟨"GLB_GPIO_IN", 0x110, [], .ro, .ro, .ro,
    [⟨"IN", 0, 24, .ro, 0, []⟩]⟩,
  ⟨"GLB_GPIO_STATUS", 0x114, [], .rw, .rw, .ro,
    [⟨"CONFLICT", 0, 1, .w1c, 0, []⟩,
     ⟨"CONFLICT_PIN", 8, 5, .ro, 0, []⟩]⟩,
  ⟨"GLB_FAN_DUTY", 0x118, [], .rw, .rw, .ro,
    [⟨"DUTY0", 0, 8, .rw, 0xFF, []⟩,
     ⟨"DUTY1", 8, 8, .rw, 0xFF, []⟩,
     ⟨"DUTY2", 16, 8, .rw, 0xFF, []⟩,
     ⟨"DUTY3", 24, 8, .rw, 0xFF, []⟩]⟩,
  ⟨"GLB_FAN_TACH0", 0x11C, [], .ro, .ro, .ro,
    [⟨"PERIOD_2m", 0, 16, .ro, 0xFFFF, []⟩,
     ⟨"PERIOD_2m+1", 16, 16, .ro, 0xFFFF, []⟩]⟩,
  ⟨"GLB_FAN_TACH1", 0x120, [], .ro, .ro, .ro,
    [⟨"PERIOD_2m", 0, 16, .ro, 0xFFFF, []⟩,
     ⟨"PERIOD_2m+1", 16, 16, .ro, 0xFFFF, []⟩]⟩,
  ⟨"GLB_NOR_BUF", 0x1000, [(1024, 0x4)], .rw, .rw, .no,
    [⟨"DATA", 0, 32, .rw, 0, []⟩]⟩]

/-- Registers of the HPT block (04_host_ports.md). -/
def regsHpt0 : List RegDesc := [
  ⟨"HPT_LINK", 0x100000, [(6, 0x1000)], .ro, .ro, .ro,
    [⟨"DL_UP", 0, 1, .ro, 0, []⟩,
     ⟨"RATE", 1, 3, .ro, 0, []⟩,
     ⟨"WIDTH", 4, 3, .ro, 0, []⟩,
     ⟨"FLIT", 7, 1, .ro, 0, []⟩,
     ⟨"LANE_REV", 8, 1, .ro, 0, []⟩,
     ⟨"RETRAIN_CNT", 16, 8, .ro, 0, []⟩]⟩,
  ⟨"HPT_LINK_CTL", 0x100004, [(6, 0x1000)], .rw, .rw, .ro,
    [⟨"MAX_RATE", 0, 3, .rw, 6, [(0, 0), (7, 7)]⟩,
     ⟨"MAX_WIDTH", 3, 3, .rw, 4, [(0, 0), (3, 3), (5, 7)]⟩]⟩,
  ⟨"HPT_CAPACITY", 0x100008, [(6, 0x1000)], .ro, .ro, .ro,
    [⟨"CAP", 0, 16, .ro, 0, []⟩]⟩,
  ⟨"HPT_FUNCS", 0x10000C, [(6, 0x1000)], .ro, .ro, .ro,
    [⟨"VF_BLOCKS", 0, 7, .ro, 0, []⟩,
     ⟨"FIRST_BLOCK", 8, 7, .ro, 0, []⟩,
     ⟨"CONTROL", 16, 1, .ro, 0, []⟩,
     ⟨"PRESENT", 17, 1, .ro, 0, []⟩]⟩,
  ⟨"HPT_ERR_CNT0", 0x100010, [(6, 0x1000)], .ro, .ro, .ro,
    [⟨"RX_ERR", 0, 8, .rc, 0, []⟩,
     ⟨"REPLAY", 8, 8, .rc, 0, []⟩,
     ⟨"CPL_TMO", 16, 8, .rc, 0, []⟩,
     ⟨"POISON_RX", 24, 8, .rc, 0, []⟩]⟩,
  ⟨"HPT_ERR_CNT1", 0x100014, [(6, 0x1000)], .ro, .ro, .ro,
    [⟨"RO_WRITE", 0, 16, .rc, 0, []⟩]⟩,
  ⟨"HPT_FN_BUSY", 0x100040, [(17, 0x4), (6, 0x1000)], .ro, .ro, .ro,
    [⟨"BUSY", 0, 32, .ro, 0, []⟩]⟩,
  ⟨"HPT_STATUS", 0x106000, [], .rw, .rw, .ro,
    [⟨"RSV_WRITE", 0, 1, .w1c, 0, []⟩,
     ⟨"CTL_PORT", 1, 3, .ro, 0, []⟩,
     ⟨"LINK_UP", 4, 6, .ro, 0, []⟩]⟩]

/-- Registers of the XQ block (05_queues_and_journal.md). -/
def regsXq0 : List RegDesc := [
  ⟨"XQ_JRN_NEXT_LO", 0x203000, [], .ro, .no, .ro,
    [⟨"NEXT", 0, 32, .ro, 0, []⟩]⟩,
  ⟨"XQ_JRN_NEXT_HI", 0x203004, [], .ro, .no, .ro,
    [⟨"NEXT", 0, 32, .ro, 0, []⟩]⟩,
  ⟨"XQ_JRN_OLDEST_LO", 0x203008, [], .ro, .no, .ro,
    [⟨"OLDEST", 0, 32, .ro, 0, []⟩]⟩,
  ⟨"XQ_JRN_OLDEST_HI", 0x20300C, [], .ro, .no, .ro,
    [⟨"OLDEST", 0, 32, .ro, 0, []⟩]⟩,
  ⟨"XQ_JRN_PERSIST_LO", 0x203010, [], .ro, .no, .ro,
    [⟨"PERSIST", 0, 32, .ro, 0, []⟩]⟩,
  ⟨"XQ_JRN_PERSIST_HI", 0x203014, [], .ro, .no, .ro,
    [⟨"PERSIST", 0, 32, .ro, 0, []⟩]⟩,
  ⟨"XQ_JRN_PAGE", 0x203018, [], .rw, .no, .ro,
    [⟨"PAGE", 0, 3, .rw, 0, [(5, 7)]⟩]⟩,
  ⟨"XQ_JRN_PARK", 0x20301C, [], .ro, .no, .ro,
    [⟨"PARKED", 0, 13, .ro, 0, []⟩]⟩]

/-- Registers of the TEN block (06_tenants_masking_qos.md). -/
def regsTen0 : List RegDesc := [
  ⟨"TEN_CTX", 0x400000, [(512, 0x100)], .ro, .no, .ro,
    [⟨"STATE", 0, 2, .ro, 0, []⟩,
     ⟨"CUT", 2, 1, .ro, 0, []⟩,
     ⟨"CREATE_PEND", 3, 1, .ro, 0, []⟩,
     ⟨"HAS_VF", 8, 1, .ro, 0, []⟩,
     ⟨"PORT", 9, 3, .ro, 0, []⟩,
     ⟨"NS_MAP", 16, 16, .ro, 0, []⟩]⟩,
  ⟨"TEN_GRANTS", 0x400008, [(512, 0x100)], .ro, .no, .ro,
    [⟨"VALID", 0, 16, .ro, 0, []⟩,
     ⟨"FENCE", 16, 16, .ro, 0, []⟩]⟩,
  ⟨"TEN_CL_FLOOR", 0x400010, [(3, 0x10), (512, 0x100)], .ro, .no, .ro,
    [⟨"RD_EFF", 0, 16, .ro, 0, []⟩,
     ⟨"WR_EFF", 16, 16, .ro, 0, []⟩]⟩,
  ⟨"TEN_CL_CEIL", 0x400014, [(3, 0x10), (512, 0x100)], .ro, .no, .ro,
    [⟨"RD_CEIL", 0, 16, .ro, 0xFFFF, []⟩,
     ⟨"WR_CEIL", 16, 16, .ro, 0xFFFF, []⟩]⟩,
  ⟨"TEN_CL_RTOK", 0x400018, [(3, 0x10), (512, 0x100)], .ro, .no, .ro,
    [⟨"TOKENS", 0, 19, .ro, 0, []⟩]⟩,
  ⟨"TEN_CL_WTOK", 0x40001C, [(3, 0x10), (512, 0x100)], .ro, .no, .ro,
    [⟨"TOKENS", 0, 19, .ro, 0, []⟩]⟩,
  ⟨"TEN_STATUS", 0x420000, [], .rw, .no, .ro,
    [⟨"RSV_WRITE", 0, 1, .w1c, 0, []⟩,
     ⟨"CUT", 1, 1, .ro, 0, []⟩,
     ⟨"LAST_REJECT", 4, 4, .ro, 0, []⟩,
     ⟨"TENANTS", 8, 10, .ro, 0, []⟩,
     ⟨"NAMESPACES", 18, 12, .ro, 0, []⟩]⟩,
  ⟨"TEN_BUD_SEL", 0x420004, [], .rw, .no, .ro,
    [⟨"INDEX", 0, 5, .rw, 0, [(10, 15), (28, 31)]⟩]⟩,
  ⟨"TEN_BUD_CAP", 0x420008, [], .ro, .no, .ro,
    [⟨"MBPS", 0, 32, .ro, 0, []⟩]⟩,
  ⟨"TEN_BUD_USED", 0x42000C, [], .ro, .no, .ro,
    [⟨"MBPS", 0, 32, .ro, 0, []⟩]⟩,
  ⟨"TEN_DPUB", 0x420100, [(25, 0x4)], .ro, .ro, .ro,
    [⟨"PUB", 0, 32, .ro, 0, []⟩]⟩]

/-- Registers of the TRW block (07_trowel_tiles.md). -/
def regsTrw0 : List RegDesc := [
  ⟨"TRW_STATUS", 0x600000, [], .rw, .no, .ro,
    [⟨"RSV_WRITE", 0, 1, .w1c, 0, []⟩,
     ⟨"SKIM_ON", 1, 1, .ro, 0, []⟩,
     ⟨"INSTALLING", 2, 1, .ro, 0, []⟩,
     ⟨"SPARES", 4, 2, .ro, 0, []⟩,
     ⟨"WORKING", 8, 6, .ro, 0, []⟩]⟩,
  ⟨"TRW_RETIRED0", 0x600004, [], .ro, .no, .ro,
    [⟨"RETIRED", 0, 32, .ro, 0, []⟩]⟩,
  ⟨"TRW_RETIRED1", 0x600008, [], .ro, .no, .ro,
    [⟨"RETIRED", 0, 32, .ro, 0, []⟩]⟩,
  ⟨"TRW_MAP", 0x600010, [(8, 0x4)], .ro, .no, .ro,
    [⟨"PHYS_0", 0, 6, .ro, 0x3F, []⟩,
     ⟨"PHYS_1", 8, 6, .ro, 0x3F, []⟩,
     ⟨"PHYS_2", 16, 6, .ro, 0x3F, []⟩,
     ⟨"PHYS_3", 24, 6, .ro, 0x3F, []⟩]⟩,
  ⟨"TRW_CACHE_CFG", 0x600030, [], .ro, .no, .ro,
    [⟨"WAYS", 0, 2, .ro, 1, []⟩]⟩,
  ⟨"TRW_WDOG", 0x600034, [], .rw, .no, .ro,
    [⟨"LIMIT", 0, 16, .rw, 0x100, [(0, 0)]⟩]⟩,
  ⟨"TRW_SCRUB", 0x600038, [], .rw, .no, .ro,
    [⟨"PERIOD", 0, 8, .rw, 1, [(0, 0)]⟩]⟩,
  ⟨"TRW_SCRUB_STAT", 0x60003C, [], .ro, .no, .ro,
    [⟨"CORR", 0, 16, .rc, 0, []⟩,
     ⟨"RESTORED", 16, 8, .rc, 0, []⟩,
     ⟨"ROM_COPY", 24, 8, .rc, 0, []⟩]⟩,
  ⟨"TRW_DISCARD_CNT_LO", 0x600040, [], .ro, .no, .ro,
    [⟨"COUNT", 0, 32, .ro, 0, []⟩]⟩,
  ⟨"TRW_DISCARD_CNT_HI", 0x600044, [], .ro, .no, .ro,
    [⟨"COUNT", 0, 32, .ro, 0, []⟩]⟩,
  ⟨"TRW_FLTLOG0", 0x600050, [], .rw, .no, .ro,
    [⟨"CODE", 0, 4, .ro, 0, []⟩,
     ⟨"TILE", 4, 6, .ro, 0, []⟩,
     ⟨"CTX", 10, 3, .ro, 0, []⟩,
     ⟨"VALID", 13, 1, .w1c, 0, []⟩,
     ⟨"MORE", 14, 8, .ro, 0, []⟩]⟩,
  ⟨"TRW_FLTLOG1", 0x600054, [], .rw, .no, .ro,
    [⟨"ADDR", 0, 18, .ro, 0, []⟩]⟩]

/-- Registers of the TRW block (07_trowel_tiles.md). -/
def regsTrw1 : List RegDesc := [
  ⟨"TRW_FLTLOG2", 0x600058, [], .rw, .no, .ro,
    [⟨"SEQ", 0, 32, .ro, 0, []⟩]⟩,
  ⟨"TRW_FLTLOG3", 0x60005C, [], .rw, .no, .ro,
    [⟨"SEQ", 0, 32, .ro, 0, []⟩]⟩,
  ⟨"TRW_SKIM_STAT", 0x600060, [], .ro, .no, .ro,
    [⟨"REASON", 0, 3, .ro, 0, []⟩,
     ⟨"INSTALLS", 4, 16, .ro, 0, []⟩]⟩,
  ⟨"TRW_CS_ADDR", 0x600070, [], .rw, .no, .ro,
    [⟨"ADDR", 0, 18, .rw, 0x38000, []⟩]⟩,
  ⟨"TRW_CS_DATA", 0x600074, [(4, 0x4)], .ro, .no, .no,
    [⟨"DATA", 0, 32, .ro, 0, []⟩]⟩,
  ⟨"TRW_CS_CHK", 0x600084, [], .ro, .no, .no,
    [⟨"CHECK", 0, 9, .ro, 0, []⟩,
     ⟨"DENIED", 9, 1, .ro, 0, []⟩,
     ⟨"CORRECTED", 10, 1, .ro, 0, []⟩]⟩]

/-- Registers of the LTH block (01_architecture.md). -/
def regsLth0 : List RegDesc := [
  ⟨"LTH_CTL", 0x800000, [], .rw, .no, .ro,
    [⟨"REROUTE_EN", 0, 1, .rw, 1, []⟩]⟩,
  ⟨"LTH_STATUS", 0x800004, [], .rw, .no, .ro,
    [⟨"RSV_WRITE", 0, 1, .w1c, 0, []⟩,
     ⟨"REROUTED", 1, 1, .ro, 0, []⟩,
     ⟨"ISOLATED", 2, 1, .ro, 0, []⟩,
     ⟨"LINKS_DOWN", 8, 7, .ro, 0, []⟩]⟩,
  ⟨"LTH_LINKDN", 0x800010, [(4, 0x4)], .ro, .no, .ro,
    [⟨"DOWN", 0, 32, .ro, 0, []⟩]⟩,
  ⟨"LTH_CREDIT_SEL", 0x800020, [], .rw, .no, .ro,
    [⟨"LINK", 0, 7, .rw, 0, [(112, 127)]⟩,
     ⟨"DIR", 7, 1, .rw, 0, []⟩,
     ⟨"VC", 8, 2, .rw, 0, []⟩,
     ⟨"LANE", 10, 1, .rw, 0, []⟩]⟩,
  ⟨"LTH_CREDIT_VAL", 0x800024, [], .ro, .no, .ro,
    [⟨"AT_SENDER", 0, 8, .ro, 0, []⟩,
     ⟨"IN_FLIGHT", 8, 8, .ro, 0, []⟩,
     ⟨"AT_RECEIVER", 16, 8, .ro, 0, []⟩,
     ⟨"POOL", 24, 8, .ro, 0, []⟩]⟩]

/-- Registers of the DRC block (20_address_map.md). -/
def regsDrc0 : List RegDesc := [
  ⟨"DRC_STATUS", 0x900000, [], .rw, .no, .ro,
    [⟨"RSV_WRITE", 0, 1, .w1c, 0, []⟩,
     ⟨"X4", 1, 1, .ro, 0, []⟩,
     ⟨"LIVE", 4, 4, .ro, 0, []⟩,
     ⟨"LOST", 8, 4, .ro, 0, []⟩]⟩,
  ⟨"DRC_CH_STATE", 0x900010, [(4, 0x10)], .ro, .ro, .ro,
    [⟨"STATE", 0, 3, .ro, 0, []⟩,
     ⟨"DIMMS", 3, 2, .ro, 0, []⟩,
     ⟨"SPEED", 5, 3, .ro, 0, []⟩,
     ⟨"GIB", 8, 16, .ro, 0, []⟩,
     ⟨"SPARE_SCHED", 24, 1, .ro, 0, []⟩,
     ⟨"DEV_FAILED", 25, 1, .ro, 0, []⟩]⟩,
  ⟨"DRC_CH_ERR", 0x900014, [(4, 0x10)], .ro, .no, .ro,
    [⟨"CORR", 0, 16, .rc, 0, []⟩,
     ⟨"UNCORR", 16, 8, .rc, 0, []⟩]⟩]

/-- Registers of the FLC block (10_flash_channels.md). -/
def regsFlc0 : List RegDesc := [
  ⟨"FLC_CH_STATE", 0xA00000, [(32, 0x4000)], .ro, .ro, .ro,
    [⟨"STATE", 0, 3, .ro, 0, []⟩,
     ⟨"IFACE", 4, 2, .ro, 0, []⟩,
     ⟨"RATE", 8, 12, .ro, 0, []⟩,
     ⟨"PROFILE", 20, 3, .ro, 0, []⟩,
     ⟨"MEMBER", 23, 1, .ro, 0, []⟩,
     ⟨"WP_HIGH", 24, 1, .ro, 0, []⟩]⟩,
  ⟨"FLC_LUN_OK", 0xA00004, [(32, 0x4000)], .ro, .no, .ro,
    [⟨"OK", 0, 32, .ro, 0, []⟩]⟩,
  ⟨"FLC_RING", 0xA00008, [(32, 0x4000)], .ro, .no, .ro,
    [⟨"DHEAD", 0, 8, .ro, 0, []⟩,
     ⟨"DTAIL", 8, 8, .ro, 0, []⟩,
     ⟨"CHEAD", 16, 8, .ro, 0, []⟩,
     ⟨"CTAIL", 24, 8, .ro, 0, []⟩]⟩,
  ⟨"FLC_ERR_CNT0", 0xA0000C, [(32, 0x4000)], .ro, .no, .ro,
    [⟨"RETRY", 0, 8, .rc, 0, []⟩,
     ⟨"SOFT", 8, 8, .rc, 0, []⟩,
     ⟨"UNCORR", 16, 8, .rc, 0, []⟩,
     ⟨"SUBST", 24, 8, .rc, 0, []⟩]⟩,
  ⟨"FLC_ERR_CNT1", 0xA00010, [(32, 0x4000)], .ro, .no, .ro,
    [⟨"TIMEOUT", 0, 8, .rc, 0, []⟩,
     ⟨"DESC_ERR", 8, 8, .rc, 0, []⟩,
     ⟨"RELOC", 16, 8, .rc, 0, []⟩,
     ⟨"TRAIN", 24, 8, .rc, 0, []⟩]⟩,
  ⟨"FLC_LUN_SEL", 0xA00020, [(32, 0x4000)], .rw, .no, .ro,
    [⟨"LUN", 0, 5, .rw, 0, []⟩]⟩,
  ⟨"FLC_LUN_WEAR", 0xA00024, [(32, 0x4000)], .ro, .no, .ro,
    [⟨"PE_MAX", 0, 24, .ro, 0, []⟩,
     ⟨"PCT", 24, 8, .ro, 0, []⟩]⟩,
  ⟨"FLC_LUN_SPARE", 0xA00028, [(32, 0x4000)], .ro, .no, .ro,
    [⟨"FREE", 0, 13, .ro, 0, []⟩,
     ⟨"BAD", 16, 13, .ro, 0, []⟩,
     ⟨"TMO_ARMED", 31, 1, .ro, 0, []⟩]⟩,
  ⟨"FLC_WP", 0xA00030, [(4, 0x4), (32, 0x4000)], .ro, .no, .ro,
    [⟨"WP", 0, 32, .ro, 0, []⟩]⟩,
  ⟨"FLC_DUMP_FREE", 0xA00040, [(32, 0x4000)], .ro, .no, .ro,
    [⟨"MIB", 0, 32, .ro, 0, []⟩]⟩,
  ⟨"FLC_IDENT0", 0xA00044, [(32, 0x4000)], .ro, .no, .ro,
    [⟨"ID", 0, 32, .ro, 0, []⟩]⟩,
  ⟨"FLC_IDENT1", 0xA00048, [(32, 0x4000)], .ro, .no, .ro,
    [⟨"ID", 0, 32, .ro, 0, []⟩]⟩]

/-- Registers of the FLC block (10_flash_channels.md). -/
def regsFlc1 : List RegDesc := [
  ⟨"FLC_STATUS", 0xA80000, [], .rw, .no, .ro,
    [⟨"RSV_WRITE", 0, 1, .w1c, 0, []⟩,
     ⟨"FENCED", 1, 1, .ro, 0, []⟩,
     ⟨"IN_SERVICE", 8, 6, .ro, 0, []⟩]⟩,
  ⟨"FLC_RETIRED", 0xA80004, [], .ro, .no, .ro,
    [⟨"RETIRED", 0, 32, .ro, 0, []⟩]⟩,
  ⟨"FLC_DUMP_TOTAL", 0xA80008, [], .ro, .ro, .ro,
    [⟨"MIB", 0, 32, .ro, 0, []⟩]⟩]

/-- Registers of the RDC block (11_read_channel.md). -/
def regsRdc0 : List RegDesc := [
  ⟨"RDC_ACT_STATE", 0xC00000, [(32, 0x4000)], .ro, .ro, .ro,
    [⟨"STATE", 0, 3, .ro, 0, []⟩,
     ⟨"PA_MODE", 3, 3, .ro, 0, []⟩,
     ⟨"DHEAD", 6, 4, .ro, 0, []⟩,
     ⟨"ZONE", 10, 6, .ro, 0, []⟩,
     ⟨"HEAT_ON", 16, 1, .ro, 0, []⟩,
     ⟨"SPEED_OK", 17, 1, .ro, 0, []⟩]⟩,
  ⟨"RDC_PA_ID", 0xC00004, [(32, 0x4000)], .ro, .no, .ro,
    [⟨"ID", 0, 16, .ro, 0, []⟩,
     ⟨"VALID", 16, 1, .ro, 0, []⟩]⟩,
  ⟨"RDC_PA_RD", 0xC00008, [(32, 0x4000)], .rw, .no, .ro,
    [⟨"ADDR", 0, 8, .rw, 0, []⟩,
     ⟨"GO", 8, 1, .wo, 0, []⟩,
     ⟨"BUSY", 9, 1, .ro, 0, []⟩,
     ⟨"PERR", 10, 1, .ro, 0, []⟩,
     ⟨"DATA", 16, 16, .ro, 0, []⟩]⟩,
  ⟨"RDC_ERR_CNT0", 0xC0000C, [(32, 0x4000)], .ro, .no, .ro,
    [⟨"RETRY", 0, 8, .rc, 0, []⟩,
     ⟨"UNCORR", 8, 8, .rc, 0, []⟩,
     ⟨"SYNC_MISS", 16, 8, .rc, 0, []⟩,
     ⟨"OVERRUN", 24, 8, .rc, 0, []⟩]⟩,
  ⟨"RDC_ERR_CNT1", 0xC00010, [(32, 0x4000)], .ro, .no, .ro,
    [⟨"WFLT", 0, 8, .rc, 0, []⟩,
     ⟨"WINHIB", 8, 8, .rc, 0, []⟩,
     ⟨"LINK_RETRY", 16, 8, .rc, 0, []⟩,
     ⟨"DEFECT", 24, 8, .rc, 0, []⟩]⟩,
  ⟨"RDC_CAL_CTL", 0xC00020, [(32, 0x4000)], .rw, .no, .ro,
    [⟨"HEAD", 0, 4, .rw, 0, []⟩,
     ⟨"ZONE", 4, 6, .rw, 0, []⟩,
     ⟨"PROC", 10, 2, .rw, 0, []⟩,
     ⟨"GO", 12, 1, .wo, 0, []⟩]⟩,
  ⟨"RDC_CAL_STAT", 0xC00024, [(32, 0x4000)], .ro, .no, .ro,
    [⟨"BUSY", 0, 1, .ro, 0, []⟩,
     ⟨"RESULT", 1, 3, .ro, 0, []⟩,
     ⟨"PEND", 4, 1, .ro, 0, []⟩,
     ⟨"PROC", 5, 2, .ro, 0, []⟩,
     ⟨"HEAD", 8, 4, .ro, 0, []⟩,
     ⟨"ZONE", 12, 6, .ro, 0, []⟩]⟩,
  ⟨"RDC_COEF_SEL", 0xC00030, [(32, 0x4000)], .rw, .no, .ro,
    [⟨"HEAD", 0, 4, .rw, 0, []⟩,
     ⟨"ZONE", 4, 6, .rw, 0, []⟩,
     ⟨"INDEX", 10, 5, .rw, 0, [(25, 31)]⟩]⟩,
  ⟨"RDC_COEF_VAL", 0xC00034, [(32, 0x4000)], .ro, .no, .ro,
    [⟨"VALUE", 0, 16, .ro, 0, []⟩,
     ⟨"CALIBRATED", 16, 1, .ro, 0, []⟩]⟩,
  ⟨"RDC_HEAT", 0xC00038, [(32, 0x4000)], .ro, .no, .ro,
    [⟨"CODE", 0, 10, .ro, 0, []⟩,
     ⟨"TEMP", 16, 16, .ro, 0, []⟩]⟩,
  ⟨"RDC_DEFECTS", 0xC0003C, [(32, 0x4000)], .ro, .no, .ro,
    [⟨"SLIPS", 0, 16, .ro, 0, []⟩,
     ⟨"WITHDRAWN", 16, 16, .ro, 0, []⟩]⟩,
  ⟨"RDC_STATUS", 0xC80000, [], .rw, .no, .ro,
    [⟨"RSV_WRITE", 0, 1, .w1c, 0, []⟩,
     ⟨"FENCED", 1, 1, .ro, 0, []⟩,
     ⟨"IN_SERVICE", 8, 6, .ro, 0, []⟩]⟩]

/-- Registers of the RDC block (11_read_channel.md). -/
def regsRdc1 : List RegDesc := [
  ⟨"RDC_RETIRED", 0xC80004, [], .ro, .no, .ro,
    [⟨"RETIRED", 0, 32, .ro, 0, []⟩]⟩]

/-- Registers of the SRV block (13_servo_and_actuators.md). -/
def regsSrv0 : List RegDesc := [
  ⟨"SRV_ACT", 0xD00000, [(32, 0x1000)], .ro, .ro, .ro,
    [⟨"STATE", 0, 4, .ro, 0, []⟩,
     ⟨"PHASE", 4, 2, .ro, 0, []⟩,
     ⟨"ON_TRACK", 6, 1, .ro, 0, []⟩,
     ⟨"RD_READY", 7, 1, .ro, 0, []⟩,
     ⟨"INHIBIT", 8, 8, .ro, 0, []⟩,
     ⟨"LANES", 16, 4, .ro, 0, []⟩,
     ⟨"PARK_REC", 20, 2, .ro, 0, []⟩]⟩,
  ⟨"SRV_POS", 0xD00004, [(32, 0x1000)], .ro, .no, .ro,
    [⟨"FRAC", 0, 8, .ro, 0, []⟩,
     ⟨"TRACK", 8, 22, .ro, 0, []⟩]⟩,
  ⟨"SRV_TARGET", 0xD00008, [(32, 0x1000)], .ro, .no, .ro,
    [⟨"TRACK", 0, 22, .ro, 0, []⟩]⟩,
  ⟨"SRV_ERR", 0xD0000C, [(32, 0x1000)], .ro, .no, .ro,
    [⟨"E", 0, 16, .ro, 0, []⟩,
     ⟨"SIGMA", 16, 16, .ro, 0, []⟩]⟩,
  ⟨"SRV_SHEAD", 0xD00010, [(32, 0x1000)], .ro, .no, .ro,
    [⟨"SHEAD", 0, 16, .ro, 0, []⟩,
     ⟨"BAD", 16, 12, .ro, 0, []⟩]⟩,
  ⟨"SRV_THR", 0xD00014, [(32, 0x1000)], .rw, .no, .ro,
    [⟨"WI_THR", 0, 10, .rw, 0, []⟩,
     ⟨"WR_ON_THR", 10, 10, .rw, 0, []⟩,
     ⟨"RD_ON_THR", 20, 10, .rw, 0, []⟩]⟩,
  ⟨"SRV_FE", 0xD00018, [(32, 0x1000)], .rw, .no, .ro,
    [⟨"FE_LIMIT", 0, 16, .rw, 0, [(0, 0)]⟩,
     ⟨"FE_TMO", 16, 16, .rw, 0, [(0, 9)]⟩]⟩,
  ⟨"SRV_ONN", 0xD0001C, [(32, 0x1000)], .rw, .no, .ro,
    [⟨"ON_N", 0, 5, .rw, 0, [(0, 1)]⟩,
     ⟨"RD_N", 8, 5, .rw, 0, [(0, 0)]⟩]⟩,
  ⟨"SRV_SEEK_STAT", 0xD00020, [(32, 0x1000)], .ro, .no, .ro,
    [⟨"SCALE", 0, 16, .ro, 0, []⟩,
     ⟨"TIME", 16, 16, .ro, 0, []⟩]⟩,
  ⟨"SRV_R_EST", 0xD00024, [(32, 0x1000)], .ro, .no, .ro,
    [⟨"R", 0, 32, .ro, 0, []⟩]⟩,
  ⟨"SRV_ERR_CNT0", 0xD00028, [(32, 0x1000)], .ro, .no, .ro,
    [⟨"OFFTRK", 0, 8, .rc, 0, []⟩,
     ⟨"LOST", 8, 8, .rc, 0, []⟩,
     ⟨"LANE_INV", 16, 8, .rc, 0, []⟩,
     ⟨"SHOCK", 24, 8, .rc, 0, []⟩]⟩,
  ⟨"SRV_ERR_CNT1", 0xD0002C, [(32, 0x1000)], .ro, .no, .ro,
    [⟨"SAT_SEEK", 0, 8, .rc, 0, []⟩,
     ⟨"RETRACT", 8, 8, .rc, 0, []⟩,
     ⟨"LOAD_FAIL", 16, 8, .rc, 0, []⟩,
     ⟨"POS_LOST", 24, 8, .rc, 0, []⟩]⟩]

/-- Registers of the SRV block (13_servo_and_actuators.md). -/
def regsSrv1 : List RegDesc := [
  ⟨"SRV_OFS_SEL", 0xD00030, [(32, 0x1000)], .rw, .no, .ro,
    [⟨"HEAD", 0, 4, .rw, 0, []⟩,
     ⟨"ZONE", 4, 6, .rw, 0, []⟩]⟩,
  ⟨"SRV_OFS_VAL", 0xD00034, [(32, 0x1000)], .ro, .no, .ro,
    [⟨"OFFSET", 0, 16, .ro, 0, []⟩,
     ⟨"SIGMA", 16, 15, .ro, 0, []⟩,
     ⟨"CALIBRATED", 31, 1, .ro, 0, []⟩]⟩,
  ⟨"SRV_CAL", 0xD00038, [(32, 0x1000)], .rw, .no, .ro,
    [⟨"ZONE", 0, 6, .rw, 0, []⟩,
     ⟨"GO", 6, 1, .wo, 0, []⟩,
     ⟨"BUSY", 7, 1, .ro, 0, []⟩,
     ⟨"RESULT", 8, 3, .ro, 0, []⟩,
     ⟨"PEND", 11, 1, .ro, 0, []⟩]⟩,
  ⟨"SRV_STATUS", 0xD80000, [], .rw, .no, .ro,
    [⟨"RSV_WRITE", 0, 1, .w1c, 0, []⟩,
     ⟨"SHOCK_HOLD", 16, 16, .ro, 0, []⟩]⟩,
  ⟨"SRV_RETIRED", 0xD80004, [], .ro, .no, .ro,
    [⟨"RETIRED", 0, 32, .ro, 0, []⟩]⟩]

/-- Registers of the LTN block (12_lantern_engine.md). -/
def regsLtn0 : List RegDesc := [
  ⟨"LTN_STATUS", 0xE00000, [], .rw, .no, .ro,
    [⟨"RSV_WRITE", 0, 1, .w1c, 0, []⟩,
     ⟨"SPARE", 1, 1, .ro, 0, []⟩,
     ⟨"SHED", 2, 1, .ro, 0, []⟩,
     ⟨"LIVE", 8, 4, .ro, 0, []⟩]⟩,
  ⟨"LTN_CORES", 0xE00004, [], .ro, .no, .ro,
    [⟨"SERVING", 0, 8, .ro, 0, []⟩,
     ⟨"RETIRED", 8, 8, .ro, 0, []⟩,
     ⟨"SHED_HDA", 16, 16, .ro, 0, []⟩]⟩,
  ⟨"LTN_TASK_SEL", 0xE00010, [], .rw, .no, .ro,
    [⟨"TASK", 0, 7, .rw, 0, [(96, 127)]⟩]⟩,
  ⟨"LTN_TASK_STAT", 0xE00014, [], .rw, .no, .ro,
    [⟨"KIND", 0, 3, .ro, 0, []⟩,
     ⟨"CORE", 3, 3, .ro, 0, []⟩,
     ⟨"ENABLED", 6, 1, .ro, 0, []⟩,
     ⟨"INHIBIT", 7, 1, .ro, 0, []⟩,
     ⟨"SAT", 8, 1, .ro, 0, []⟩,
     ⟨"MISS", 9, 1, .w1c, 0, []⟩,
     ⟨"CONSEC", 10, 2, .ro, 0, []⟩,
     ⟨"NV", 12, 1, .w1c, 0, []⟩,
     ⟨"DZ", 13, 1, .w1c, 0, []⟩,
     ⟨"OF", 14, 1, .w1c, 0, []⟩,
     ⟨"UF", 15, 1, .w1c, 0, []⟩,
     ⟨"NX", 16, 1, .w1c, 0, []⟩,
     ⟨"NONFINITE", 17, 1, .w1c, 0, []⟩]⟩,
  ⟨"LTN_TASK_CTL", 0xE00018, [], .rw, .no, .ro,
    [⟨"FTZ", 0, 1, .rw, 0, []⟩]⟩,
  ⟨"LTN_TASK_SAMPLE", 0xE0001C, [], .ro, .no, .ro,
    [⟨"SAMPLE", 0, 32, .ro, 0, []⟩]⟩,
  ⟨"LTN_TASK_CNT", 0xE00020, [], .ro, .no, .ro,
    [⟨"MISSES", 0, 16, .rc, 0, []⟩,
     ⟨"SAT_INST", 16, 16, .rc, 0, []⟩]⟩,
  ⟨"LTN_TASK_EXEC", 0xE00024, [], .ro, .no, .ro,
    [⟨"EXEC_MAX", 0, 16, .rc, 0, []⟩]⟩,
  ⟨"LTN_COEF_SEL", 0xE00030, [], .rw, .no, .ro,
    [⟨"TASK", 0, 7, .rw, 0, [(96, 127)]⟩,
     ⟨"INDEX", 8, 8, .rw, 0, []⟩]⟩,
  ⟨"LTN_COEF_DATA", 0xE00034, [], .rw, .no, .ro,
    [⟨"VALUE", 0, 32, .rw, 0, []⟩]⟩,
  ⟨"LTN_COEF_STAT", 0xE00038, [], .rw, .no, .ro,
    [⟨"DEPTH", 0, 5, .ro, 0, []⟩,
     ⟨"OVERRUN", 5, 1, .w1c, 0, []⟩,
     ⟨"PEND", 6, 1, .ro, 0, []⟩,
     ⟨"LAST_SAMPLE", 8, 24, .ro, 0, []⟩]⟩]

/-- Registers of the SPN block (14_spindle_drive.md). -/
def regsSpn0 : List RegDesc := [
  ⟨"SPN_STATE", 0xF00000, [(16, 0x1000)], .ro, .ro, .ro,
    [⟨"STATE", 0, 4, .ro, 0, []⟩,
     ⟨"TRACKER", 4, 2, .ro, 0, []⟩,
     ⟨"AT_SPEED", 6, 1, .ro, 0, []⟩,
     ⟨"SAT", 7, 1, .ro, 0, []⟩,
     ⟨"SHUNT_U", 8, 2, .ro, 0, []⟩,
     ⟨"SHUNT_V", 10, 2, .ro, 0, []⟩,
     ⟨"SHUNT_W", 12, 2, .ro, 0, []⟩,
     ⟨"DRV_FLT", 14, 1, .ro, 0, []⟩,
     ⟨"HOLD", 15, 1, .ro, 0, []⟩]⟩,
  ⟨"SPN_SPEED", 0xF00004, [(16, 0x1000)], .ro, .no, .ro,
    [⟨"RPM", 0, 18, .ro, 0, []⟩]⟩,
  ⟨"SPN_SETPT", 0xF00008, [(16, 0x1000)], .ro, .no, .ro,
    [⟨"RPM", 0, 18, .ro, 0, []⟩]⟩,
  ⟨"SPN_ANGLE", 0xF0000C, [(16, 0x1000)], .ro, .no, .ro,
    [⟨"THETA", 0, 16, .ro, 0, []⟩,
     ⟨"VALID", 16, 1, .ro, 0, []⟩]⟩,
  ⟨"SPN_MEAS", 0xF00010, [(16, 0x1000)], .ro, .no, .ro,
    [⟨"IQ", 0, 16, .ro, 0, []⟩,
     ⟨"ID", 16, 16, .ro, 0, []⟩]⟩,
  ⟨"SPN_VM", 0xF00014, [(16, 0x1000)], .ro, .no, .ro,
    [⟨"VM", 0, 16, .ro, 0, []⟩,
     ⟨"I_RG", 16, 16, .ro, 0, []⟩]⟩,
  ⟨"SPN_ADV", 0xF00018, [(16, 0x1000)], .ro, .no, .ro,
    [⟨"GAMMA", 0, 16, .ro, 0, []⟩]⟩,
  ⟨"SPN_CAL", 0xF0001C, [(16, 0x1000)], .rw, .no, .ro,
    [⟨"GO", 0, 1, .wo, 0, []⟩,
     ⟨"BUSY", 1, 1, .ro, 0, []⟩,
     ⟨"PEND", 2, 1, .ro, 0, []⟩,
     ⟨"RESULT", 3, 3, .ro, 0, []⟩,
     ⟨"AGE", 16, 16, .ro, 0xFFFF, []⟩]⟩,
  ⟨"SPN_OFS_UV", 0xF00020, [(16, 0x1000)], .ro, .no, .ro,
    [⟨"U", 0, 16, .ro, 0, []⟩,
     ⟨"V", 16, 16, .ro, 0, []⟩]⟩,
  ⟨"SPN_OFS_W", 0xF00024, [(16, 0x1000)], .ro, .no, .ro,
    [⟨"W", 0, 16, .ro, 0, []⟩]⟩,
  ⟨"SPN_SYNC", 0xF00028, [(16, 0x1000)], .rw, .no, .ro,
    [⟨"OFFSET", 0, 16, .rw, 0, []⟩,
     ⟨"LOCKED", 16, 1, .ro, 0, []⟩]⟩,
  ⟨"SPN_CNT0", 0xF0002C, [(16, 0x1000)], .ro, .no, .ro,
    [⟨"PWM_SKIP_CNT", 0, 16, .rc, 0, []⟩,
     ⟨"CLAMP", 16, 16, .rc, 0, []⟩]⟩]

/-- Registers of the SPN block (14_spindle_drive.md). -/
def regsSpn1 : List RegDesc := [
  ⟨"SPN_CNT1", 0xF00030, [(16, 0x1000)], .ro, .no, .ro,
    [⟨"LOS", 0, 8, .rc, 0, []⟩,
     ⟨"DRV_FLT", 8, 8, .rc, 0, []⟩,
     ⟨"SAT_ONSET", 16, 8, .rc, 0, []⟩,
     ⟨"FORCED", 24, 8, .rc, 0, []⟩]⟩,
  ⟨"SPN_STATUS", 0xF40000, [], .rw, .no, .ro,
    [⟨"RSV_WRITE", 0, 1, .w1c, 0, []⟩,
     ⟨"AT_SPEED", 16, 16, .ro, 0, []⟩]⟩,
  ⟨"SPN_RETIRED", 0xF40004, [], .ro, .no, .ro,
    [⟨"RETIRED", 0, 16, .ro, 0, []⟩]⟩,
  ⟨"SPN_SYNC_CTL", 0xF40008, [], .rw, .no, .ro,
    [⟨"OUT_HDA", 0, 5, .rw, 0, [(16, 30)]⟩,
     ⟨"IN_MASK", 16, 16, .rw, 0, []⟩]⟩]

/-- Registers of the VCM block (13_servo_and_actuators.md). -/
def regsVcm0 : List RegDesc := [
  ⟨"VCM_STATE", 0xF80000, [(32, 0x400)], .ro, .ro, .ro,
    [⟨"BRIDGE", 0, 1, .ro, 0, []⟩,
     ⟨"RETRACT", 1, 1, .ro, 0, []⟩,
     ⟨"SHUNT_A", 2, 2, .ro, 0, []⟩,
     ⟨"SHUNT_B", 4, 2, .ro, 0, []⟩,
     ⟨"DRV_FLT", 6, 1, .ro, 0, []⟩,
     ⟨"SAT", 7, 1, .ro, 0, []⟩,
     ⟨"SAT_HELD", 8, 1, .ro, 0, []⟩,
     ⟨"STRANDED", 9, 1, .ro, 0, []⟩]⟩,
  ⟨"VCM_SAT_TMO", 0xF80004, [(32, 0x400)], .rw, .no, .ro,
    [⟨"TMO", 0, 16, .rw, 0, [(0, 9)]⟩]⟩,
  ⟨"VCM_PWM", 0xF80008, [(32, 0x400)], .ro, .no, .ro,
    [⟨"CARRIER", 0, 9, .ro, 0, []⟩,
     ⟨"DEAD", 9, 11, .ro, 0, []⟩,
     ⟨"MINPULSE", 20, 11, .ro, 0, []⟩]⟩,
  ⟨"VCM_MEAS", 0xF8000C, [(32, 0x400)], .ro, .no, .ro,
    [⟨"I", 0, 16, .ro, 0, []⟩,
     ⟨"V", 16, 16, .ro, 0, []⟩]⟩,
  ⟨"VCM_HEADROOM", 0xF80010, [(32, 0x400)], .ro, .no, .ro,
    [⟨"H", 0, 16, .ro, 0, []⟩]⟩,
  ⟨"VCM_CNT", 0xF80014, [(32, 0x400)], .ro, .no, .ro,
    [⟨"PWM_SKIP_CNT", 0, 16, .rc, 0, []⟩,
     ⟨"CLAMP", 16, 16, .rc, 0, []⟩]⟩,
  ⟨"VCM_STATUS", 0xFC0000, [], .rw, .no, .ro,
    [⟨"RSV_WRITE", 0, 1, .w1c, 0, []⟩,
     ⟨"BRIDGES", 8, 6, .ro, 0, []⟩]⟩]

/-- Registers of the UDC block (09_log_and_undercoat.md). -/
def regsUdc0 : List RegDesc := [
  ⟨"UDC_STATUS", 0x1000000, [], .rw, .no, .ro,
    [⟨"RSV_WRITE", 0, 1, .w1c, 0, []⟩,
     ⟨"REBUILD", 1, 1, .ro, 0, []⟩,
     ⟨"RESHAPE", 2, 1, .ro, 0, []⟩,
     ⟨"RESYNC", 3, 1, .ro, 0, []⟩,
     ⟨"FLASH_RO", 4, 1, .ro, 0, []⟩,
     ⟨"DISK_RO", 5, 1, .ro, 0, []⟩,
     ⟨"FLASH_FULL", 6, 1, .ro, 0, []⟩,
     ⟨"DISK_FULL", 7, 1, .ro, 0, []⟩]⟩,
  ⟨"UDC_FMEMB", 0x1000004, [], .ro, .no, .ro,
    [⟨"MASK", 0, 32, .ro, 0, []⟩]⟩,
  ⟨"UDC_FINSV", 0x1000008, [], .ro, .no, .ro,
    [⟨"MASK", 0, 32, .ro, 0, []⟩]⟩,
  ⟨"UDC_DMEMB", 0x100000C, [], .ro, .no, .ro,
    [⟨"MEMB", 0, 16, .ro, 0, []⟩]⟩,
  ⟨"UDC_DINSV", 0x1000010, [], .ro, .no, .ro,
    [⟨"ACT_A", 0, 16, .ro, 0, []⟩,
     ⟨"ACT_B", 16, 16, .ro, 0, []⟩]⟩,
  ⟨"UDC_GEOM", 0x1000014, [], .ro, .no, .ro,
    [⟨"F_WIDTH", 0, 6, .ro, 0, []⟩,
     ⟨"F_NOW", 8, 6, .ro, 0, []⟩,
     ⟨"D_WIDTH", 16, 5, .ro, 0, []⟩,
     ⟨"D_NOW", 24, 5, .ro, 0, []⟩]⟩,
  ⟨"UDC_RESHAPE_MEMB", 0x1000020, [], .rw, .no, .ro,
    [⟨"MASK", 0, 32, .rw, 0, []⟩]⟩,
  ⟨"UDC_RESHAPE_CTL", 0x1000024, [], .rw, .no, .ro,
    [⟨"POOL", 0, 1, .rw, 0, []⟩,
     ⟨"GO", 14, 1, .wo, 0, []⟩,
     ⟨"KEY", 16, 16, .wo, 0, []⟩]⟩,
  ⟨"UDC_RESHAPE_STAT", 0x1000028, [], .ro, .no, .ro,
    [⟨"RESULT", 0, 3, .ro, 0, []⟩,
     ⟨"POOL", 3, 1, .ro, 0, []⟩]⟩,
  ⟨"UDC_RESHAPE_VIS", 0x100002C, [], .ro, .no, .ro,
    [⟨"SEG", 0, 26, .ro, 0, []⟩]⟩,
  ⟨"UDC_RESHAPE_CMT", 0x1000030, [], .ro, .no, .ro,
    [⟨"SEG", 0, 26, .ro, 0, []⟩]⟩,
  ⟨"UDC_REBUILD", 0x1000034, [], .ro, .no, .ro,
    [⟨"SEG1", 0, 16, .ro, 0, []⟩,
     ⟨"SEG2", 16, 16, .ro, 0, []⟩]⟩]

/-- Registers of the UDC block (09_log_and_undercoat.md). -/
def regsUdc1 : List RegDesc := [
  ⟨"UDC_REBUILD_RATE", 0x1000038, [], .rw, .no, .ro,
    [⟨"RATE", 0, 16, .rw, 0, [(0, 9), (2001, 65535)]⟩]⟩,
  ⟨"UDC_FREE_F", 0x100003C, [], .ro, .no, .ro,
    [⟨"FREE", 0, 26, .ro, 0, []⟩]⟩,
  ⟨"UDC_FREE_D", 0x1000040, [], .ro, .no, .ro,
    [⟨"FREE", 0, 26, .ro, 0, []⟩]⟩,
  ⟨"UDC_LOST_LO", 0x1000044, [], .ro, .no, .ro,
    [⟨"COUNT", 0, 32, .ro, 0, []⟩]⟩,
  ⟨"UDC_LOST_HI", 0x1000048, [], .ro, .no, .ro,
    [⟨"COUNT", 0, 32, .ro, 0, []⟩]⟩,
  ⟨"UDC_WBUF", 0x100004C, [], .ro, .no, .ro,
    [⟨"DIRTY", 0, 22, .ro, 0, []⟩]⟩,
  ⟨"UDC_WBUF_LIM", 0x1000050, [], .ro, .no, .ro,
    [⟨"LIMIT", 0, 22, .ro, 0, []⟩,
     ⟨"BY", 24, 3, .ro, 0, []⟩]⟩,
  ⟨"UDC_CKPT", 0x1000054, [], .rw, .no, .ro,
    [⟨"BUSY", 0, 1, .ro, 0, []⟩,
     ⟨"REQ", 1, 1, .wo, 0, []⟩,
     ⟨"LOG_FILL", 8, 8, .ro, 0, []⟩,
     ⟨"AGE", 16, 16, .ro, 0xFFFF, []⟩]⟩]

/-- Registers of the RND block (15_render_and_hod.md). -/
def regsRnd0 : List RegDesc := [
  ⟨"RND_STATUS", 0x1100000, [], .rw, .no, .ro,
    [⟨"RSV_WRITE", 0, 1, .w1c, 0, []⟩,
     ⟨"IN_SERVICE", 8, 8, .ro, 0, []⟩,
     ⟨"RETIRED", 16, 8, .ro, 0, []⟩,
     ⟨"CTX_USED", 24, 7, .ro, 0, []⟩]⟩,
  ⟨"RND_CTL", 0x1100004, [], .rw, .no, .ro,
    [⟨"GRAN_DEPTH", 0, 6, .rw, 0x10, [(0, 3), (33, 63)]⟩,
     ⟨"KAT_PERIOD", 8, 8, .rw, 0xA, [(0, 0)]⟩]⟩,
  ⟨"RND_CNT0", 0x1100008, [], .ro, .no, .ro,
    [⟨"STORED", 0, 16, .rc, 0, []⟩,
     ⟨"MISMATCH", 16, 16, .rc, 0, []⟩]⟩,
  ⟨"RND_CNT1", 0x110000C, [], .ro, .no, .ro,
    [⟨"DECOMP_FAIL", 0, 16, .rc, 0, []⟩,
     ⟨"BAD_JOB", 16, 16, .rc, 0, []⟩]⟩]

/-- Registers of the HOD block (15_render_and_hod.md). -/
def regsHod0 : List RegDesc := [
  ⟨"HOD_SRC_LO", 0x1180000, [(16, 0x80)], .rw, .no, .ro,
    [⟨"SHADOW", 0, 32, .rw, 0, []⟩]⟩,
  ⟨"HOD_SRC_HI", 0x1180004, [(16, 0x80)], .rw, .no, .ro,
    [⟨"SHADOW", 0, 32, .rw, 0, []⟩]⟩,
  ⟨"HOD_DST_LO", 0x1180008, [(16, 0x80)], .rw, .no, .ro,
    [⟨"SHADOW", 0, 32, .rw, 0, []⟩]⟩,
  ⟨"HOD_DST_HI", 0x118000C, [(16, 0x80)], .rw, .no, .ro,
    [⟨"SHADOW", 0, 32, .rw, 0, []⟩]⟩,
  ⟨"HOD_LEN", 0x1180010, [(16, 0x80)], .rw, .no, .ro,
    [⟨"SHADOW", 0, 32, .rw, 0, []⟩]⟩,
  ⟨"HOD_CFG0", 0x1180014, [(16, 0x80)], .rw, .no, .ro,
    [⟨"SHADOW", 0, 32, .rw, 0, []⟩]⟩,
  ⟨"HOD_CFG1", 0x1180018, [(16, 0x80)], .rw, .no, .ro,
    [⟨"SHADOW", 0, 32, .rw, 0, []⟩]⟩,
  ⟨"HOD_CRC_INIT", 0x118001C, [(16, 0x80)], .rw, .no, .ro,
    [⟨"SHADOW", 0, 32, .rw, 0, []⟩]⟩,
  ⟨"HOD_CMD", 0x1180020, [(16, 0x80)], .wo, .no, .no,
    [⟨"CMD", 0, 3, .wo, 0, []⟩]⟩,
  ⟨"HOD_STAT", 0x1180024, [(16, 0x80)], .ro, .no, .ro,
    [⟨"STATE", 0, 3, .ro, 0, []⟩,
     ⟨"PAUSED", 3, 1, .ro, 0, []⟩,
     ⟨"LOADED", 4, 1, .ro, 0, []⟩,
     ⟨"WAIT_HOST", 5, 1, .ro, 0, []⟩,
     ⟨"DISCARDED", 6, 1, .ro, 0, []⟩,
     ⟨"LAST", 8, 3, .ro, 0, []⟩,
     ⟨"RESULT", 12, 3, .ro, 0, []⟩,
     ⟨"TAG", 16, 16, .ro, 0, []⟩]⟩,
  ⟨"HOD_ACT_SRC_LO", 0x1180028, [(16, 0x80)], .ro, .no, .ro,
    [⟨"ACTIVE", 0, 32, .ro, 0, []⟩]⟩,
  ⟨"HOD_ACT_SRC_HI", 0x118002C, [(16, 0x80)], .ro, .no, .ro,
    [⟨"ACTIVE", 0, 32, .ro, 0, []⟩]⟩]

/-- Registers of the HOD block (15_render_and_hod.md). -/
def regsHod1 : List RegDesc := [
  ⟨"HOD_ACT_DST_LO", 0x1180030, [(16, 0x80)], .ro, .no, .ro,
    [⟨"ACTIVE", 0, 32, .ro, 0, []⟩]⟩,
  ⟨"HOD_ACT_DST_HI", 0x1180034, [(16, 0x80)], .ro, .no, .ro,
    [⟨"ACTIVE", 0, 32, .ro, 0, []⟩]⟩,
  ⟨"HOD_ACT_REM", 0x1180038, [(16, 0x80)], .ro, .no, .ro,
    [⟨"ACTIVE", 0, 32, .ro, 0, []⟩]⟩,
  ⟨"HOD_ACT_CRC", 0x118003C, [(16, 0x80)], .ro, .no, .ro,
    [⟨"ACTIVE", 0, 32, .ro, 0, []⟩]⟩,
  ⟨"HOD_STATUS", 0x1180800, [], .rw, .no, .ro,
    [⟨"RSV_WRITE", 0, 1, .w1c, 0, []⟩,
     ⟨"RETIRED", 16, 16, .ro, 0, []⟩]⟩,
  ⟨"HOD_OWN", 0x1180804, [], .rw, .no, .ro,
    [⟨"CLAIM", 0, 16, .rw, 0, []⟩,
     ⟨"VECTOR", 16, 6, .rw, 1, [(0, 0)]⟩,
     ⟨"REFUSED", 22, 1, .w1c, 0, []⟩]⟩]

/-- Registers of the MSK block (06_tenants_masking_qos.md). -/
def regsMsk0 : List RegDesc := [
  ⟨"MSK_STATUS", 0x1200000, [], .rw, .no, .ro,
    [⟨"RSV_WRITE", 0, 1, .w1c, 0, []⟩,
     ⟨"KEYS", 1, 10, .ro, 0, []⟩]⟩,
  ⟨"MSK_LANES", 0x1200004, [], .ro, .no, .ro,
    [⟨"IN_SERVICE", 0, 16, .ro, 0, []⟩,
     ⟨"RETIRED", 16, 16, .ro, 0, []⟩]⟩,
  ⟨"MSK_KAT_CTL", 0x1200008, [], .rw, .no, .ro,
    [⟨"PERIOD", 0, 8, .rw, 0xA, [(0, 0)]⟩]⟩,
  ⟨"MSK_ERR_CNT", 0x120000C, [], .ro, .no, .ro,
    [⟨"LOCKSTEP", 0, 16, .rc, 0, []⟩,
     ⟨"KAT_FAIL", 16, 16, .rc, 0, []⟩]⟩]

/-- Registers of the OZP block (16_ozper_ring.md). -/
def regsOzp0 : List RegDesc := [
  ⟨"OZP_STATUS", 0x1300000, [], .rw, .no, .ro,
    [⟨"RSV_WRITE", 0, 1, .w1c, 0, []⟩,
     ⟨"MODE", 1, 2, .ro, 0, []⟩,
     ⟨"BYP_HOLD", 3, 1, .ro, 0, []⟩,
     ⟨"SETS", 4, 3, .ro, 0, []⟩]⟩,
  ⟨"OZP_PORT0", 0x1300010, [], .ro, .ro, .ro,
    [⟨"STATE", 0, 3, .ro, 0, []⟩,
     ⟨"VER", 3, 2, .ro, 0, []⟩,
     ⟨"WHY", 5, 2, .ro, 0, []⟩,
     ⟨"LAST_STATE", 8, 4, .ro, 0, []⟩,
     ⟨"LANES", 16, 8, .ro, 0, []⟩]⟩,
  ⟨"OZP_PORT1", 0x1300014, [], .ro, .ro, .ro,
    [⟨"STATE", 0, 3, .ro, 0, []⟩,
     ⟨"VER", 3, 2, .ro, 0, []⟩,
     ⟨"WHY", 5, 2, .ro, 0, []⟩,
     ⟨"LAST_STATE", 8, 4, .ro, 0, []⟩,
     ⟨"LANES", 16, 8, .ro, 0, []⟩]⟩,
  ⟨"OZP_UID_LO", 0x1300020, [], .ro, .ro, .ro,
    [⟨"UID", 0, 32, .ro, 0, []⟩]⟩,
  ⟨"OZP_UID_HI", 0x1300024, [], .ro, .ro, .ro,
    [⟨"UID", 0, 32, .ro, 0, []⟩]⟩,
  ⟨"OZP_PEER0_LO", 0x1300028, [], .ro, .no, .ro,
    [⟨"UID", 0, 32, .ro, 0, []⟩]⟩,
  ⟨"OZP_PEER0_HI", 0x130002C, [], .ro, .no, .ro,
    [⟨"UID", 0, 32, .ro, 0, []⟩]⟩,
  ⟨"OZP_PEER1_LO", 0x1300030, [], .ro, .no, .ro,
    [⟨"UID", 0, 32, .ro, 0, []⟩]⟩,
  ⟨"OZP_PEER1_HI", 0x1300034, [], .ro, .no, .ro,
    [⟨"UID", 0, 32, .ro, 0, []⟩]⟩,
  ⟨"OZP_OUT", 0x1300040, [], .ro, .no, .ro,
    [⟨"SLOTS", 0, 22, .ro, 0, []⟩]⟩,
  ⟨"OZP_OUT_USED", 0x1300044, [], .ro, .no, .ro,
    [⟨"SLOTS", 0, 22, .ro, 0, []⟩]⟩,
  ⟨"OZP_IN", 0x1300048, [], .ro, .no, .ro,
    [⟨"SLOTS", 0, 22, .ro, 0, []⟩]⟩]

/-- Registers of the OZP block (16_ozper_ring.md). -/
def regsOzp1 : List RegDesc := [
  ⟨"OZP_IN_USED", 0x130004C, [], .ro, .no, .ro,
    [⟨"SLOTS", 0, 22, .ro, 0, []⟩]⟩,
  ⟨"OZP_EPOCH", 0x1300050, [], .ro, .no, .ro,
    [⟨"EPOCH", 0, 32, .ro, 0, []⟩]⟩,
  ⟨"OZP_ORPHAN", 0x1300054, [], .ro, .no, .ro,
    [⟨"RECORDS", 0, 22, .ro, 0, []⟩]⟩,
  ⟨"OZP_HOLD", 0x1300058, [], .rw, .no, .ro,
    [⟨"ORPHAN_HOLD", 0, 12, .rw, 0, [(0, 0), (3601, 4095)]⟩,
     ⟨"REMAIN", 16, 12, .ro, 0, []⟩]⟩,
  ⟨"OZP_CNT0", 0x130005C, [], .ro, .no, .ro,
    [⟨"LINK_DOWN", 0, 8, .rc, 0, []⟩,
     ⟨"TRAIN_FAIL", 8, 8, .rc, 0, []⟩,
     ⟨"REPLAY", 16, 8, .rc, 0, []⟩,
     ⟨"BAD_FRAME", 24, 8, .rc, 0, []⟩]⟩]

/-- Registers of the KPR block (17_keeper.md). -/
def regsKpr0 : List RegDesc := [
  ⟨"KPR_STATUS", 0x1400000, [], .rw, .rw, .ro,
    [⟨"RSV_WRITE", 0, 1, .w1c, 0, []⟩,
     ⟨"FENCED", 1, 1, .ro, 0, []⟩,
     ⟨"FOGHORN", 2, 1, .ro, 0, []⟩,
     ⟨"HIST_OVF", 3, 1, .w1c, 0, []⟩,
     ⟨"OPEN", 8, 9, .ro, 0, []⟩]⟩,
  ⟨"KPR_CTL", 0x1400004, [], .rw, .rw, .ro,
    [⟨"CORR_WIN", 0, 16, .rw, 0, []⟩,
     ⟨"CONT_WIN", 16, 16, .rw, 0x3C, []⟩]⟩,
  ⟨"KPR_FOGHORN", 0x1400008, [], .rw, .rw, .ro,
    [⟨"HOLD", 0, 1, .rw, 0, []⟩,
     ⟨"AUTO_HOLD", 1, 1, .rw, 0, []⟩,
     ⟨"PULSE", 2, 1, .ro, 0, []⟩,
     ⟨"LOCKED", 3, 1, .ro, 0, []⟩]⟩,
  ⟨"KPR_ACK", 0x140000C, [], .wo, .wo, .no,
    [⟨"RSEQ", 0, 16, .wo, 0, []⟩,
     ⟨"ALL", 16, 1, .wo, 0, []⟩]⟩,
  ⟨"KPR_HIST_NEXT", 0x1400010, [], .ro, .ro, .ro,
    [⟨"SLOT", 0, 5, .ro, 0, []⟩,
     ⟨"RSEQ", 16, 16, .ro, 0, []⟩]⟩,
  ⟨"KPR_GROUP_SEL", 0x1400014, [], .rw, .rw, .ro,
    [⟨"GROUP", 0, 8, .rw, 0, []⟩,
     ⟨"CORR_OPEN", 8, 1, .ro, 0, []⟩,
     ⟨"CONT_OPEN", 9, 1, .ro, 0, []⟩,
     ⟨"COVER_DONE", 10, 1, .ro, 0, []⟩]⟩,
  ⟨"KPR_GROUP_RSEQ", 0x1400018, [], .ro, .ro, .ro,
    [⟨"CORR", 0, 16, .ro, 0, []⟩,
     ⟨"CONT", 16, 16, .ro, 0, []⟩]⟩,
  ⟨"KPR_OPEN", 0x1400020, [(8, 0x4)], .ro, .ro, .ro,
    [⟨"OPEN", 0, 32, .ro, 0, []⟩]⟩,
  ⟨"KPR_SRC_SEL", 0x1400040, [], .rw, .rw, .ro,
    [⟨"SOURCE", 0, 12, .rw, 0, []⟩]⟩,
  ⟨"KPR_SRC_INFO", 0x1400044, [], .ro, .ro, .ro,
    [⟨"USED", 0, 1, .ro, 0, []⟩,
     ⟨"CLASS", 1, 2, .ro, 0, []⟩,
     ⟨"FORCE", 3, 1, .ro, 0, []⟩,
     ⟨"COUNT", 16, 16, .rc, 0, []⟩]⟩,
  ⟨"KPR_FORCE", 0x1400048, [], .wo, .wo, .no,
    [⟨"SOURCE", 0, 12, .wo, 0, []⟩,
     ⟨"KEY", 16, 16, .wo, 0, []⟩]⟩,
  ⟨"KPR_TALLY", 0x140004C, [], .rw, .rw, .ro,
    [⟨"PERSIST", 0, 8, .w1c, 0, []⟩,
     ⟨"SKIPPED", 8, 8, .w1c, 0, []⟩,
     ⟨"ROUNDS", 16, 16, .rc, 0, []⟩]⟩]

/-- Registers of the KPR block (17_keeper.md). -/
def regsKpr1 : List RegDesc := [
  ⟨"KPR_SAFE", 0x1400050, [], .rw, .rw, .ro,
    [⟨"VALID", 0, 1, .rws, 0, []⟩,
     ⟨"DIRECT", 1, 1, .rws, 0, []⟩,
     ⟨"QUEUES_DONE", 2, 1, .rws, 0, []⟩,
     ⟨"HEADS_DONE", 3, 1, .rws, 0, []⟩,
     ⟨"FLUSH_DONE", 4, 1, .rws, 0, []⟩,
     ⟨"SOURCE", 16, 12, .rws, 0, []⟩]⟩,
  ⟨"KPR_IRQ_EN", 0x1400054, [], .rw, .ro, .ro,
    [⟨"EN", 0, 6, .rw, 6, []⟩]⟩,
  ⟨"KPR_IRQ_STAT", 0x1400058, [], .rw, .ro, .ro,
    [⟨"CAUSE", 0, 6, .w1c, 0, []⟩]⟩,
  ⟨"KPR_MGT_EN", 0x140005C, [], .ro, .rw, .ro,
    [⟨"EN", 0, 6, .rw, 6, []⟩]⟩,
  ⟨"KPR_MGT_STAT", 0x1400060, [], .ro, .rw, .ro,
    [⟨"CAUSE", 0, 6, .w1c, 0, []⟩]⟩,
  ⟨"KPR_HIST", 0x1400100, [(256, 0x4)], .rw, .rw, .ro,
    [⟨"RECORD", 0, 32, .rws, 0, []⟩]⟩]

/-- Registers of the DMK block (18_daymark.md). -/
def regsDmk0 : List RegDesc := [
  ⟨"DMK_STATUS", 0x1500000, [], .rw, .rw, .ro,
    [⟨"RSV_WRITE", 0, 1, .w1c, 0, []⟩,
     ⟨"PERM_FULL", 1, 1, .ro, 0, []⟩,
     ⟨"PERSIST_ERR", 2, 1, .w1c, 0, []⟩,
     ⟨"RESTORED", 3, 1, .ro, 0, []⟩,
     ⟨"PERM_USED", 16, 10, .ro, 0, []⟩]⟩,
  ⟨"DMK_NEWEST", 0x1500004, [], .ro, .ro, .ro,
    [⟨"SLOT", 0, 12, .ro, 0x200, []⟩,
     ⟨"EMPTY", 31, 1, .ro, 1, []⟩]⟩,
  ⟨"DMK_OLDEST", 0x1500008, [], .ro, .ro, .ro,
    [⟨"SLOT", 0, 12, .ro, 0x200, []⟩,
     ⟨"EMPTY", 31, 1, .ro, 1, []⟩]⟩,
  ⟨"DMK_CURSOR", 0x150000C, [], .rw, .rw, .ro,
    [⟨"SLOT", 0, 12, .rw, 0, []⟩,
     ⟨"AUTO", 16, 1, .rw, 1, []⟩]⟩,
  ⟨"DMK_WIN", 0x1500010, [(8, 0x4)], .ro, .ro, .no,
    [⟨"WORD", 0, 32, .ro, 0, []⟩]⟩,
  ⟨"DMK_PERSIST", 0x1500030, [], .ro, .ro, .ro,
    [⟨"ESEQ", 0, 32, .ro, 0, []⟩]⟩,
  ⟨"DMK_LOSS", 0x1500034, [], .ro, .ro, .ro,
    [⟨"OVERFLOW", 0, 16, .rc, 0, []⟩]⟩,
  ⟨"DMK_CODE_SEL", 0x1500038, [], .rw, .rw, .ro,
    [⟨"CODE", 0, 16, .rw, 1, [(0, 0), (2432, 2559), (3072, 65535)]⟩]⟩,
  ⟨"DMK_CODE_STAT", 0x150003C, [], .ro, .ro, .ro,
    [⟨"PENDING", 0, 16, .ro, 0, []⟩,
     ⟨"TOKENS", 16, 8, .ro, 0, []⟩,
     ⟨"PERM", 24, 1, .ro, 0, []⟩]⟩,
  ⟨"DMK_NONCE", 0x1500040, [(4, 0x4)], .ro, .no, .no,
    [⟨"NONCE", 0, 32, .ro, 0, []⟩]⟩]

/-- Registers of the BLS block (19_ballast.md). -/
def regsBls0 : List RegDesc := [
  ⟨"BLS_STATUS", 0x1600000, [], .rw, .rw, .ro,
    [⟨"RSV_WRITE", 0, 1, .w1c, 0, []⟩,
     ⟨"ACTIVE", 1, 1, .ro, 0, []⟩,
     ⟨"FLUSH_DONE", 2, 1, .ro, 0, []⟩,
     ⟨"SHORT", 3, 1, .ro, 0, []⟩,
     ⟨"VHOLD_ON", 4, 1, .ro, 0, []⟩,
     ⟨"BROWNOUT", 5, 1, .ro, 0, []⟩,
     ⟨"VM_BACK", 6, 1, .ro, 0, []⟩,
     ⟨"CAUSE", 8, 2, .ro, 0, []⟩]⟩,
  ⟨"BLS_CFG", 0x1600004, [], .rw, .no, .ro,
    [⟨"VM_FAIL", 0, 14, .rw, 0x2A30, [(0, 9999), (11501, 16383)]⟩,
     ⟨"VM_FAIL_NS", 16, 16, .rw, 0x7D0, [(0, 499), (20001, 65535)]⟩]⟩,
  ⟨"BLS_LIMIT", 0x1600008, [], .ro, .no, .ro,
    [⟨"SLOTS", 0, 22, .ro, 0, []⟩,
     ⟨"BY_DUMP", 24, 1, .ro, 0, []⟩]⟩,
  ⟨"BLS_ENERGY", 0x160000C, [], .ro, .ro, .ro,
    [⟨"AVAIL", 0, 16, .ro, 0, []⟩,
     ⟨"NEED", 16, 16, .ro, 0, []⟩]⟩,
  ⟨"BLS_RATE", 0x1600010, [], .ro, .no, .ro,
    [⟨"R_D", 0, 16, .ro, 0, []⟩,
     ⟨"HDAS", 20, 4, .ro, 0, []⟩,
     ⟨"DIPS", 24, 8, .rc, 0, []⟩]⟩,
  ⟨"BLS_VHOLD", 0x1600014, [], .ro, .ro, .ro,
    [⟨"V", 0, 16, .ro, 0, []⟩,
     ⟨"LOW", 16, 1, .ro, 0, []⟩]⟩,
  ⟨"BLS_LAST0", 0x1600018, [], .ro, .ro, .ro,
    [⟨"CAUSE", 0, 3, .ro, 0, []⟩,
     ⟨"COMPLETE", 3, 1, .ro, 0, []⟩,
     ⟨"META_LOST", 4, 1, .ro, 0, []⟩,
     ⟨"DURATION", 16, 16, .ro, 0, []⟩]⟩,
  ⟨"BLS_LAST1", 0x160001C, [], .ro, .no, .ro,
    [⟨"SLOTS", 0, 22, .ro, 0, []⟩]⟩,
  ⟨"BLS_RESTORE", 0x1600020, [], .ro, .no, .ro,
    [⟨"SLOTS", 0, 22, .ro, 0, []⟩]⟩,
  ⟨"BLS_LOST", 0x1600024, [], .ro, .no, .ro,
    [⟨"COUNT", 0, 32, .ro, 0, []⟩]⟩]

/-- Registers of the PWR block (02_package_and_electrical.md, 03_bring_up_and_image.md). -/
def regsPwr0 : List RegDesc := [
  ⟨"PWR_STATUS", 0x1601000, [], .rw, .no, .ro,
    [⟨"RSV_WRITE", 0, 1, .w1c, 0, []⟩,
     ⟨"BUS_FAIL", 1, 1, .w1c, 0, []⟩,
     ⟨"AT_VMAX", 2, 1, .ro, 0, []⟩,
     ⟨"AT_VMIN", 3, 1, .ro, 0, []⟩,
     ⟨"VCMD", 4, 10, .ro, 0x320, []⟩]⟩,
  ⟨"PWR_AVS_CTL", 0x1601004, [], .rw, .no, .ro,
    [⟨"MODE", 0, 2, .rw, 0, [(2, 3)]⟩]⟩,
  ⟨"PWR_AVS_VSET", 0x1601008, [], .rw, .no, .ro,
    [⟨"VSET", 0, 10, .rw, 0x320, [(0, 699), (901, 1023)]⟩]⟩,
  ⟨"PWR_AVS_LIMIT", 0x160100C, [], .rw, .no, .ro,
    [⟨"VMIN", 0, 10, .rw, 0x2BC, [(0, 699), (901, 1023)]⟩,
     ⟨"VMAX", 16, 10, .rw, 0x384, [(0, 699), (901, 1023)]⟩]⟩,
  ⟨"PWR_AVS_PACE", 0x1601010, [], .rw, .no, .ro,
    [⟨"PACE_LO", 0, 16, .rw, 0x180, [(0, 255)]⟩,
     ⟨"PACE_HI", 16, 16, .rw, 0x1C0, [(0, 255)]⟩]⟩,
  ⟨"PWR_AVS_READ", 0x1601014, [], .ro, .no, .ro,
    [⟨"VREAD", 0, 10, .ro, 0, []⟩,
     ⟨"IREAD", 16, 16, .ro, 0, []⟩]⟩,
  ⟨"PWR_PD_REQ", 0x1601020, [], .rw, .no, .ro,
    [⟨"DOMAIN", 0, 8, .rw, 0, []⟩,
     ⟨"OP", 8, 2, .wo, 0, []⟩,
     ⟨"RESULT", 16, 3, .ro, 0, []⟩]⟩,
  ⟨"PWR_PD_ON", 0x1601040, [(7, 0x4)], .ro, .no, .ro,
    [⟨"ON", 0, 32, .ro, 0, []⟩]⟩,
  ⟨"PWR_PD_BUSY", 0x1601060, [(7, 0x4)], .ro, .no, .ro,
    [⟨"BUSY", 0, 32, .ro, 0, []⟩]⟩,
  ⟨"PWR_PD_PEND", 0x1601080, [(7, 0x4)], .ro, .no, .ro,
    [⟨"PEND", 0, 32, .ro, 0, []⟩]⟩]

/-- Registers of the TBS block (20_address_map.md). -/
def regsTbs0 : List RegDesc := [
  ⟨"TBS_STATUS", 0x1602000, [], .rw, .no, .ro,
    [⟨"RSV_WRITE", 0, 1, .w1c, 0, []⟩,
     ⟨"LOCKED", 1, 1, .ro, 0, []⟩]⟩,
  ⟨"TBS_NOW_LO", 0x1602004, [], .ro, .ro, .ro,
    [⟨"NOW", 0, 32, .ro, 0, []⟩]⟩,
  ⟨"TBS_NOW_HI", 0x1602008, [], .ro, .ro, .ro,
    [⟨"NOW", 0, 32, .ro, 0, []⟩]⟩]

/-- Registers of the MSR block (01_architecture.md, 03_bring_up_and_image.md). -/
def regsMsr0 : List RegDesc := [
  ⟨"MSR_PACE", 0x1603000, [(4, 0x4)], .ro, .no, .ro,
    [⟨"PACE", 0, 16, .ro, 0, []⟩,
     ⟨"PACE_MIN", 16, 16, .ro, 0xFFFF, []⟩]⟩,
  ⟨"MSR_PACE_CTL", 0x1603010, [], .rw, .no, .ro,
    [⟨"WARN_THR", 0, 16, .rw, 0x110, [(0, 255)]⟩,
     ⟨"MIN_RESTART", 16, 1, .wo, 0, []⟩]⟩,
  ⟨"MSR_STATUS", 0x1603014, [], .rw, .no, .ro,
    [⟨"RSV_WRITE", 0, 1, .w1c, 0, []⟩,
     ⟨"WARN", 4, 4, .w1c, 0, []⟩,
     ⟨"FLOOR", 8, 4, .w1c, 0, []⟩]⟩,
  ⟨"MSR_PARAM_SEL", 0x1603020, [], .rw, .rw, .rw,
    [⟨"ITEM", 0, 12, .rw, 0, []⟩]⟩,
  ⟨"MSR_PARAM_VAL", 0x1603024, [], .ro, .ro, .ro,
    [⟨"VALUE", 0, 32, .ro, 0, []⟩]⟩,
  ⟨"MSR_PARAM_STAT", 0x1603028, [], .ro, .ro, .ro,
    [⟨"STATE", 0, 3, .ro, 0, []⟩,
     ⟨"COUNT", 8, 8, .ro, 0, []⟩]⟩]

/-- Registers of the XQ block (05_queues_and_journal.md). -/
def regsXqFn0 : List RegDesc := [
  ⟨"XQ_SQDB", 0x0, [(9, 0x8)], .wo, .no, .no,
    [⟨"TAIL", 0, 16, .wo, 0, []⟩]⟩,
  ⟨"XQ_CQDB", 0x4, [(9, 0x8)], .wo, .no, .no,
    [⟨"HEAD", 0, 16, .wo, 0, []⟩]⟩,
  ⟨"XQ_AQ_CFG", 0x800, [], .rw, .no, .ro,
    [⟨"SIZE_LOG2", 0, 4, .rw, 4, [(0, 3), (13, 15)]⟩,
     ⟨"IEN", 7, 1, .rw, 0, []⟩,
     ⟨"VECTOR", 8, 6, .rw, 0, []⟩,
     ⟨"EN", 16, 1, .rw, 0, []⟩,
     ⟨"READY", 17, 1, .ro, 0, []⟩]⟩,
  ⟨"XQ_AQ_SQB_LO", 0x808, [], .rw, .no, .ro,
    [⟨"ADDR", 12, 20, .rw, 0, []⟩]⟩,
  ⟨"XQ_AQ_SQB_HI", 0x80C, [], .rw, .no, .ro,
    [⟨"ADDR", 0, 32, .rw, 0, []⟩]⟩,
  ⟨"XQ_AQ_CQB_LO", 0x810, [], .rw, .no, .ro,
    [⟨"ADDR", 12, 20, .rw, 0, []⟩]⟩,
  ⟨"XQ_AQ_CQB_HI", 0x814, [], .rw, .no, .ro,
    [⟨"ADDR", 0, 32, .rw, 0, []⟩]⟩,
  ⟨"XQ_ERRLOG_W0", 0x2000, [(9, 0x20)], .ro, .no, .ro,
    [⟨"CID", 0, 16, .ro, 0, []⟩,
     ⟨"STATUS", 16, 16, .ro, 0, []⟩]⟩,
  ⟨"XQ_ERRLOG_W1", 0x2004, [(9, 0x20)], .ro, .no, .ro,
    [⟨"SQ_INDEX", 0, 16, .ro, 0, []⟩,
     ⟨"OPC", 16, 8, .ro, 0, []⟩,
     ⟨"VALID", 24, 1, .ro, 0, []⟩,
     ⟨"MORE", 25, 1, .ro, 0, []⟩]⟩,
  ⟨"XQ_ERRLOG_W2", 0x2008, [(9, 0x20)], .ro, .no, .ro,
    [⟨"SEQ_LO", 0, 32, .ro, 0, []⟩]⟩,
  ⟨"XQ_ERRLOG_W3", 0x200C, [(9, 0x20)], .ro, .no, .ro,
    [⟨"SEQ_HI", 0, 32, .ro, 0, []⟩]⟩,
  ⟨"XQ_ERRLOG_W4", 0x2010, [(9, 0x20)], .ro, .no, .ro,
    [⟨"SLBA_LO", 0, 32, .ro, 0, []⟩]⟩]

/-- Registers of the XQ block (05_queues_and_journal.md). -/
def regsXqFn1 : List RegDesc := [
  ⟨"XQ_ERRLOG_W5", 0x2014, [(9, 0x20)], .ro, .no, .ro,
    [⟨"SLBA_HI", 0, 32, .ro, 0, []⟩]⟩,
  ⟨"XQ_ERRLOG_W6", 0x2018, [(9, 0x20)], .ro, .no, .ro,
    [⟨"NLB", 0, 32, .ro, 0, []⟩]⟩,
  ⟨"XQ_ERRLOG_W7", 0x201C, [(9, 0x20)], .ro, .no, .ro,
    [⟨"NSID", 0, 4, .ro, 0, []⟩,
     ⟨"FLAGS", 8, 8, .ro, 0, []⟩]⟩,
  ⟨"XQ_RESUME", 0x2800, [], .wo, .no, .no,
    [⟨"QUEUE", 0, 4, .wo, 0, []⟩,
     ⟨"ACTION", 4, 2, .wo, 0, []⟩,
     ⟨"N", 16, 16, .wo, 0, []⟩]⟩,
  ⟨"XQ_RESUME_STAT", 0x2804, [], .ro, .no, .ro,
    [⟨"RESULT", 0, 3, .ro, 0, []⟩,
     ⟨"PEND", 8, 9, .ro, 0, []⟩]⟩,
  ⟨"XQ_DBERR", 0x2808, [], .rw, .no, .no,
    [⟨"SQ_ERR", 0, 9, .w1c, 0, []⟩,
     ⟨"CQ_ERR", 16, 9, .w1c, 0, []⟩]⟩,
  ⟨"XQ_VSTATUS", 0x280C, [], .rw, .no, .ro,
    [⟨"RSV_WRITE", 0, 1, .w1c, 0, []⟩,
     ⟨"OPEN", 1, 1, .ro, 0, []⟩,
     ⟨"FROZEN", 2, 9, .ro, 0, []⟩]⟩]

/-- Every register of BAR0 but the XQ_ instance registers (Table 20-1). -/
def bar0Regs : List RegDesc :=
  regsGlb0 ++
  regsGlb1 ++
  regsHpt0 ++
  regsXq0 ++
  regsTen0 ++
  regsTrw0 ++
  regsTrw1 ++
  regsLth0 ++
  regsDrc0 ++
  regsFlc0 ++
  regsFlc1 ++
  regsRdc0 ++
  regsRdc1 ++
  regsSrv0 ++
  regsSrv1 ++
  regsLtn0 ++
  regsSpn0 ++
  regsSpn1 ++
  regsVcm0 ++
  regsUdc0 ++
  regsUdc1 ++
  regsRnd0 ++
  regsHod0 ++
  regsHod1 ++
  regsMsk0 ++
  regsOzp0 ++
  regsOzp1 ++
  regsKpr0 ++
  regsKpr1 ++
  regsDmk0 ++
  regsBls0 ++
  regsPwr0 ++
  regsTbs0 ++
  regsMsr0

/-- The registers of one XQ_ instance, at offsets from the instance base (Table 05-1, Table 20-2). -/
def xqRegs : List RegDesc :=
  regsXqFn0 ++
  regsXqFn1

/-- The registers whose reset word is not zero: key, array dimensions, word. `GLB_IDSTR0` to 3 hold R5's string;
an instance of the XQ_ registers lies at its own base, so those rows are in `xqNonzeroResets`. -/
def nonzeroResets : List (Nat × List (Nat × Nat) × Nat) := [
  (0x0, [], 0x12841010),
  (0x118, [], 0xFFFFFFFF),
  (0x11C, [], 0xFFFFFFFF),
  (0x120, [], 0xFFFFFFFF),
  (0x100004, [(6, 0x1000)], 0x26),
  (0x400014, [(3, 0x10), (512, 0x100)], 0xFFFFFFFF),
  (0x600010, [(8, 0x4)], 0x3F3F3F3F),
  (0x600030, [], 0x1),
  (0x600034, [], 0x100),
  (0x600038, [], 0x1),
  (0x600070, [], 0x38000),
  (0x800000, [], 0x1),
  (0xF0001C, [(16, 0x1000)], 0xFFFF0000),
  (0x1000054, [], 0xFFFF0000),
  (0x1100004, [], 0xA10),
  (0x1180804, [], 0x10000),
  (0x1200008, [], 0xA),
  (0x1400004, [], 0x3C0000),
  (0x1400054, [], 0x6),
  (0x140005C, [], 0x6),
  (0x1500004, [], 0x80000200),
  (0x1500008, [], 0x80000200),
  (0x150000C, [], 0x10000),
  (0x1500038, [], 0x1),
  (0x1600004, [], 0x7D02A30),
  (0x1601000, [], 0x3200),
  (0x1601008, [], 0x320),
  (0x160100C, [], 0x38402BC),
  (0x1601010, [], 0x1C00180),
  (0x1603000, [(4, 0x4)], 0xFFFF0000),
  (0x1603010, [], 0x110),
  (0x10, [], 0x32314158),
  (0x14, [], 0x42203438),
  (0x18, [], 0x68502030),
  (0x1C, [], 0x6B6F726F),
  (0x800000C + 0x1500000, [], 0x10000)]

/-- The same for an offset in an XQ_ instance. -/
def xqNonzeroResets : List (Nat × Nat) := [(0x800, 0x4)]

end Sys2Proof.Machine
end

