-- ==== Sys2Proof/Machine/State.lean ====
section
/-!
DEFINITION. Machine/State.lean: everything the spec gives the XA1284, as plain data, the reasons a step can stop,
and the state after reset. Registers live in one sparse register file (`regs`, RegMap.lean gives names, places and
reset values); what the chapters describe beyond registers lives in one structure per unit.
-/

namespace Sys2Proof.Machine

/-- Why the machine stops with a fault. No command of this model ends in one: the spec gives every command an
effect (a NEXT state), so the type has the one constructor that no meaning raises. Safe. -/
inductive Fault where
  /-- Raised by no meaning; kept so that the type is not empty. Safe. -/
  | unreachable
  deriving DecidableEq, Repr

/-- Why a command is turned away. -/
inductive Refusal where
  /-- Raised by `exec`'s arm of a command that has no meaning yet. Safe: the machine stops where the chip goes on. -/
  | notModelled (mnemonic : String)
  deriving DecidableEq, Repr

/-! ## Outward effects -/

/-- What leaves the block: the log of everything the chip sends out, oldest first. A model of one block shows the
outside world only through it. -/
inductive Out where
  /-- A completion entry written for a function's queue: its 16 bytes by field (R134). -/
  | cqe (fid q cid status sqhd : Nat) (frozen phase : Bool) (result : Nat)
  /-- An MSI-X message of a function's vector (R113). -/
  | msix (fid vector : Nat)
  /-- A read of `len` bytes of host memory (R121). -/
  | hostRead (fid addr len : Nat)
  /-- A write to host memory (R121). -/
  | hostWrite (fid addr : Nat) (data : List Byte)
  /-- A PUSH or DMA write to a peer (R122). -/
  | peerWrite (port addr : Nat) (data : List Byte)
  /-- The zero-length fence read of R123. -/
  | fenceRead (port addr : Nat)
  /-- The answer to a register read or a memory read request. -/
  | readData (value : Nat)
  /-- Unsupported Request (R112). -/
  | unsupported (fid : Nat)
  /-- Configuration answers: retry status or a value (R102). -/
  | cfgRetry (fid : Nat)
  | cfgData (fid value : Nat)
  /-- An AER report by function: 0 uncorrectable internal, 1 corrected internal, 2 poisoned TLP, 3 completion
  timeout, 4 master or target abort, 5 unsupported request (Table 04-6). -/
  | aer (fid kind : Nat)
  /-- AVSBus: Write Voltage, Read Voltage and Current (R47). -/
  | avsWrite (mv : Nat)
  | avsRead
  /-- xSPI operations of the loader and of the NOR commands (R84). -/
  | norErase (addr : Nat)
  /-- A trace frame: its second nibble and the entry's 32 bytes (R43). -/
  | traceFrame (second : Nat) (entry : List Byte)
  /-- The management port's answer: status and data (R544). -/
  | mgtReply (status data : Nat)
  /-- A timestamp granted (R22). -/
  | stamp (boot ns seq : Nat)
  /-- A NAND command on a flash channel: LUN, operation code, row, page (R306). -/
  | nand (ch lun op row page : Nat)
  /-- A preamplifier serial frame: address, data, and 1 for a write (R333). -/
  | serial (act addr data write : Nat)
  /-- An Ozper frame on a port: type, link sequence number, acknowledged number, payload (R467). -/
  | ozFrame (port typ lseq ack : Nat) (payload : List Nat) (blocks : List (List Byte))
  /-- A pulse on SPIN_SYNC_OUT (R436). -/
  | syncPulse (h : Nat)
  /-- A message or reply between flows and units (R229). -/
  | message (dest : Nat) (words : List DWord)
  /-- An operation handed to a media engine, a numbered descriptor with its result code (R309, R347). -/
  | mediaDone (unit tag status : Nat)
  /-- A gate command of a motor leg: HDA or actuator number, state code of the bridge (R396, R417). -/
  | bridge (unit code : Nat)
  /-- Gate pulses of one leg in one PWM period: bridge, leg, high-side and low-side on-times in ns, the sign of the
  dead-time compensation (R397, R421). -/
  | gates (unit leg : Nat) (high low : Rat) (shift : Int)
  deriving DecidableEq, Repr

/-! ## Small records -/

/-- The timebase (R22): nanoseconds since power-on, boot count, the nanosecond and number of stamps issued in it. -/
structure Timebase where
  ns      : Nat := 0
  boot    : Nat := 0
  stampNs : Nat := 0
  stamps  : Nat := 0
  deriving DecidableEq, Repr

/-- Pending halves of one pair for one accessor (R10): the captured high half, the waiting low write. -/
structure Held where
  who     : Accessor
  lo      : Nat
  capHi   : Option Word := none
  wrLo    : Option Word := none
  deriving DecidableEq, Repr

/-- A boot record as it lies in the NOR (Table 03-8); `torn` marks one whose CRC fails. -/
structure BootRec where
  seq       : Nat
  bootCount : Nat
  lastGood  : Nat
  trial     : Nat
  tries     : Nat
  torn      : Bool := false
  deriving DecidableEq, Repr

/-- A 64 KiB boot-record sector: the records written from its start upwards, and whether a torn erase left bytes
that are neither a record nor erased. -/
structure BootSector where
  recs : List BootRec := []
  dirty : Bool := false
  deriving DecidableEq, Repr

/-- A Daymark entry (Table 18-3) but for its CRC, which is computed from the rest; CODE 0 is an empty slot. -/
structure DmkEntry where
  time : Nat := 0
  boot : Nat := 0
  tseq : Nat := 0
  code : Nat := 0
  eseq : Nat := 0
  data : Nat := 0
  suppressed : Nat := 0
  perm : Bool := false
  permOvf : Bool := false
  loss : Bool := false
  deriving DecidableEq, Repr
/-! ## Tenants (06_tenants_masking_qos.md) -/

/-- A namespace of a tenant (R173): size in blocks, pool (0 flash, 1 disk, 2 hybrid), COMPRESS, incarnation. -/
structure NsRec where
  size     : Nat := 0
  pool     : Nat := 0
  compress : Bool := false
  incarn   : Nat := 0
  deriving DecidableEq, Repr

/-- A class of a contract (Table 06-6); a ceiling of none is absent. -/
structure ClassRec where
  pool    : Nat := 0
  rdFloor : Nat := 0
  wrFloor : Nat := 0
  rdCeil  : Option Nat := none
  wrCeil  : Option Nat := none
  rdBurst : Nat := 4096
  wrBurst : Nat := 4096
  deriving DecidableEq, Repr

/-- A contract in force: its classes by number, and the SEQ of its CONTRACT_SET. -/
structure Contract where
  classes : List (Option ClassRec) := [none, none, none]
  seq     : Nat := 0
  deriving DecidableEq, Repr

/-- The tenant record in the flash system area (R170). `state` is 0 ABSENT, 1 present, 3 DESTROYING. -/
structure TenantNv where
  state    : Nat := 0
  salt     : Nat := 0
  fingerprint : Option Nat := none
  ns       : Tbl NsRec := []
  incarn   : Tbl Nat := []
  contract : Option Contract := none
  deriving DecidableEq, Repr

/-- A PUSH grant (R191). -/
structure Grant where
  port  : Nat := 0
  base  : Nat := 0
  len   : Nat := 0
  fence : Bool := false
  deriving DecidableEq, Repr

/-- One class and direction in service: effective floor, deficit in bytes, when the deficit last rose from 0,
when it was last brought up to date, and the buoy bucket (R188 to R190). -/
structure ClassDir where
  eff     : Nat := 0
  cut     : Bool := false
  deficit : Nat := 0
  since   : Nat := 0
  atNs    : Nat := 0
  tokens  : Nat := 0
  deriving DecidableEq, Repr

/-- What a reset forgets of a tenant: the key in Masking's store, grants, service state (key 2 x class + direction,
direction 1 for writes), and the admin commands that have taken effect but wait for commands before them: the key is
being unloaded, the tenant destroyed, namespaces deleted. -/
structure Tenant where
  key       : Option Nat := none
  unloading : Bool := false
  dying     : Bool := false
  dyingNs   : List Nat := []
  grants    : Tbl Grant := []
  dirs      : Tbl ClassDir := []
  createPend : Bool := false
  deriving DecidableEq, Repr

/-! ## Queues, commands, journal (05_queues_and_journal.md) -/

/-- A queue pair (R124 to R127, R137, R158, R159). `out` counts fetched commands not completed; `fetching` entries a
read is under way for; `stale` waits for the next doorbell (R137); `mode` is 0 absent, 1 waiting for READY, 2 ready,
3 being deleted. -/
structure QPair where
  mode    : Nat := 0
  size    : Nat := 0
  v2      : Bool := false
  qos     : Nat := 0
  ien     : Bool := false
  vector  : Nat := 0
  sqBase  : Nat := 0
  cqBase  : Nat := 0
  sqHead  : Nat := 0
  sqTail  : Nat := 0
  cqHead  : Nat := 0
  cqTail  : Nat := 0
  sqPhase : Bool := true
  cqPhase : Bool := true
  out     : Nat := 0
  fetching : Nat := 0
  frozen  : Bool := false
  freezeHead : Nat := 0
  stale   : Bool := false
  resume  : Option (Nat × Nat × Nat) := none
  latchEn : Bool := false
  deriving DecidableEq, Repr

/-- An accepted command in flight, by its journal SEQ. `done` is its status once its effect has ended; `second` the
outstanding second copy; `mids` the mirror frames whose MACK it waits for; `slots` the write-buffer slots it filled;
`bound` the tile and context of its flow; `waits` the slots or commands it waits for; `charged` the bytes of
its pieces that have started (R185); `noCqe` marks a settled command (R115); `beaten` the block ranges (first and last)
that commands with a higher SEQ have written since (R155). -/
structure Cmd where
  fid     : Nat
  q       : Nat
  index   : Nat
  tenant  : Nat
  sqe     : Sqe
  admin   : Bool
  v2      : Bool := false
  cls     : Nat := 0
  bound   : Option (Nat × Nat) := none
  done    : Option Nat := none
  result  : Nat := 0
  applied : Bool := false
  fetched : Bool := false
  mids    : List Nat := []
  slots   : List Nat := []
  waits   : List Nat := []
  noCqe   : Bool := false
  stage   : Nat := 0
  hod     : Option Nat := none
  charged : Nat := 0
  beaten  : List (Nat × Nat) := []
  deriving DecidableEq, Repr

/-- A journal entry (Table 05-12) but for its CRC, which is computed; `saved` says its present state is in flash
(R166). STATE is 0 EMPTY, 1 ACCEPTED, 2 COMPLETED, 3 FAILED. -/
structure JrnEntry where
  seq    : Nat := 0
  tenant : Nat := 0
  queue  : Nat := 0
  state  : Nat := 0
  cid    : Nat := 0
  opc    : Nat := 0
  nsid   : Nat := 0
  status : Nat := 0
  slba   : Nat := 0
  nlb    : Nat := 0
  boot   : Nat := 0
  saved  : Bool := false
  deriving DecidableEq, Repr

/-- The accepted-command journal: the ring by slot, the park area by SEQ, the numbers of XQ_JRN_NEXT and the
`waiting`
markers found no free slot; `open_` says the queues are open (R90 step 6). -/
structure Journal where
  ring    : Tbl JrnEntry := []
  park    : Tbl JrnEntry := []
  next    : Nat := 0
  waiting : List JrnEntry := []
  open_   : Bool := false
  deriving DecidableEq, Repr

/-! ## Trowel (07_trowel_tiles.md, 08_microword_set.md) -/

/-- What a context waits for: nothing, a message until a deadline, a load's line, its STCS, a vendor service. -/
inductive CtxWait where
  | none
  | message (until_ : Option Nat)
  | load
  | stcs
  | service (index : Nat)
  deriving DecidableEq, Repr

/-- A staging buffer of a flow (R241): its length in bytes and contents. -/
structure FlowBuf where
  len  : Nat := 0
  data : Memory := []
  deriving DecidableEq, Repr

/-- A flow context (R195), keyed by 8 x logical tile + number. `word` is the fetch register; `count` the microwords
since the flow started or last waited (R215). -/
structure Ctx where
  busy    : Bool := false
  seq     : Option Nat := .none
  fid     : Nat := 0
  tenant  : Nat := 0
  pc      : Nat := 0
  regs    : Tbl DWord := []
  stack   : List Nat := []
  z       : Bool := false
  n       : Bool := false
  c       : Bool := false
  v       : Bool := false
  t       : Bool := false
  word    : Option Nat := .none
  scratch : Memory := []
  bufs    : Tbl FlowBuf := []
  inbox   : List (List DWord) := []
  wait    : CtxWait := .none
  count   : Nat := 0
  deriving DecidableEq, Repr

/-- A cache line of a tile (R217): present, its line number and 64 bytes as a little-endian number. -/
structure CacheLine where
  valid : Bool := false
  line  : Nat := 0
  data  : Nat := 0
  deriving DecidableEq, Repr

/-- A load waiting on a miss register: context, destination, byte address, size (R218). -/
structure MissLoad where
  ctx  : Nat
  rd   : Nat
  addr : Nat
  size : Nat
  deriving DecidableEq, Repr

/-- A store-buffer entry (R220): context, space, address, size, data. -/
structure StoreEnt where
  ctx   : Nat
  space : Nat
  addr  : Nat
  size  : Nat
  data  : Nat
  deriving DecidableEq, Repr

/-- A tile's memory side: data cache by 16 x set + way, replacement bits by set, miss registers, store buffer. -/
structure Tile where
  cache  : Tbl CacheLine := []
  plru   : Tbl Nat := []
  misses : List (Nat × List MissLoad) := []
  stores : List StoreEnt := []
  deriving DecidableEq, Repr

/-- An STCS under way or waiting its turn (R206, R208). -/
structure Stcs where
  ctx  : Nat
  addr : Nat
  word : Nat
  deriving DecidableEq, Repr

/-- Trowel: contexts, tiles, the control store's RAM regions and their DRAM copy, error marks (1 correctable,
2 uncorrectable), ROM words switched to their second copy, traps and vendor entries (value plus 1), DRAM and SRAM as
microwords see them, a running SKIM_INSTALL. -/
structure Trowel where
  ctxs    : Tbl Ctx := []
  tiles   : Tbl Tile := []
  cs      : Tbl Nat := []
  csCopy  : Tbl Nat := []
  csErr   : Tbl Nat := []
  rom2    : Tbl Nat := []
  stcs    : List Stcs := []
  traps   : Tbl Nat := []
  entries : Tbl Nat := []
  entryIf : Nat := 0
  dram    : Memory := []
  sram    : Memory := []
  install : Option (Nat × SkimSec) := .none
  deriving DecidableEq, Repr

/-! ## Undercoat (09_log_and_undercoat.md) -/

/-- A granule entry (Table 09-3). KIND is 0 ZERO, 1 MEDIA, 2 WBUF, 3 LOST; for WBUF `slot` is the slot index. -/
structure GranEntry where
  kind   : Nat := 0
  clen   : Nat := 0
  gen    : Nat := 0
  seg    : Nat := 0
  stripe : Nat := 0
  unit   : Nat := 0
  slot   : Nat := 0
  deriving DecidableEq, Repr

/-- An extent entry (Table 09-4) with its override records by granule (R255), each with the order in which it was
made. KIND is 0 ZERO, 1 DISK, 2 FLASH (its granule block is kept among the granule entries). -/
structure Extent where
  kind   : Nat := 0
  dir    : Bool := false
  heat   : Nat := 0
  gen    : Nat := 0
  seg    : Nat := 0
  stripe : Nat := 0
  unit   : Nat := 0
  units  : Nat := 0
  ovr    : Tbl (Nat × GranEntry) := []
  deriving DecidableEq, Repr

/-- Owner of a slot or of stored units: tenant, namespace, incarnation, granule. -/
structure GranId where
  tenant : Nat := 0
  ns     : Nat := 0
  incarn : Nat := 0
  gran   : Nat := 0
  deriving DecidableEq, Repr

/-- A write-buffer slot with its header (R263). `state` is 0 free, 1 reserved, 2 dirty, 3 destaging; `age` orders the
slots by when each became dirty; `local2` says its second local copy is written; `mid` is the mirror frame whose MACK
is outstanding, `acked` that the partner holds it. -/
structure Slot where
  state  : Nat := 0
  id     : GranId := {}
  mask   : Nat := 0
  tags   : List Nat := [0, 0, 0, 0]
  clen   : Nat := 0
  gen    : Nat := 0
  prev   : GranEntry := {}
  blocks : List Nat := [0, 0, 0, 0]
  age    : Nat := 0
  local2 : Bool := false
  mids   : List Nat := []
  acked  : Bool := false
  owner  : Nat := 0
  deriving DecidableEq, Repr

/-- A segment record (R268): 0 free, 1 open, 2 sealed, 3 erasing; its members, geometry, the head that fills it, the members whose strips it has lost, its next stripe, whether a
channel asked for its relocation. -/
structure SegRec where
  state   : Nat := 0
  members : List Nat := []
  geom    : Nat := 0
  asked   : Bool := false
  head    : Nat := 0
  lost    : List Nat := []
  next    : Nat := 0
  deriving DecidableEq, Repr

/-- A granule or extent part that a stripe holds: its owner, first unit and unit count, CLEN, the entry its location
update expects to replace (R271), the slot it came from, and what the update changes: 0 a granule's entry wherever it
lies, 2 a whole extent that moves to disk, 3 one granule of an extent that moves up to flash, 4 the end of such a move.
`stripe0` and `first` are where its first unit lies; `merged` the entries an extent's rewrite read, by granule. -/
structure StripePart where
  id     : GranId := {}
  stripe0 : Nat := 0
  first  : Nat := 0
  count  : Nat := 0
  clen   : Nat := 0
  gen    : Nat := 0
  seqTag : Nat := 0
  expect : GranEntry := {}
  extGen : Nat := 0
  slot   : Option Nat := none
  what   : Nat := 0
  heat   : Nat := 0
  dir    : Bool := false
  blocks : List Nat := []
  merged : List (Nat × GranEntry) := []
  deriving DecidableEq, Repr

/-- A stripe as it lies on media: segment members, strip length, data units and the P and Q units, each unit its 4,096
data bytes and 32 metadata bytes as one little-endian number; whether it is sealed. -/
structure StripeRec where
  members : List Nat := []
  su      : Nat := 0
  data    : List Nat := []
  p       : List Nat := []
  q       : List Nat := []
  bad     : List Nat := []
  sealed_ : Bool := false
  parts   : List StripePart := []
  deriving DecidableEq, Repr

/-- An open stripe of a log head: 0 F_HOST, 1 F_WLOG, 2 F_GC, 3 D_DEST, 4 D_SET, 5 D_GC (Table 09-6). -/
structure OpenStripe where
  head   : Nat
  seg    : Nat
  stripe : Nat
  su     : Nat
  width  : Nat
  units  : List Nat := []
  parts  : List StripePart := []
  lastNs : Nat := 0
  full   : Bool := false
  deriving DecidableEq, Repr

/-- A running reshape (R284 to R286): its medium, the old member set, the index to visit next, COMMIT. -/
structure Reshape where
  disk    : Bool
  visited : Nat
  commit  : Nat
  geom    : Nat
  oldMask : Nat := 0
  deriving DecidableEq, Repr

/-- The pool record and the tables as the flash system area holds them (R252, R285, R287 to R289). -/
structure PoolNv where
  formatted : Bool := false
  fmemb   : Nat := 0
  dmemb   : Nat := 0
  fgeom   : Nat := 0
  dgeom   : Nat := 0
  caps    : List Nat := []
  lost    : Nat := 0
  reshape : Option Reshape := none
  gran    : Tbl GranEntry := []
  ext     : Tbl Extent := []
  segs    : Tbl SegRec := []
  stripes : Tbl StripeRec := []
  formatNext : Nat := 0
  deriving DecidableEq, Repr

/-- What a change that still waits for its second copy has changed (R525): what its slots held before it, and the entries
before and after it, by granule and by extent. -/
structure Undo where
  ns    : Nat := 0
  slots : List (Nat × Slot) := []
  gran  : List (Nat × GranEntry × GranEntry) := []
  ext   : List (Nat × Extent × Extent) := []
  deriving DecidableEq, Repr

/-- Undercoat's tables and flows: granule entries and extents by namespace, slots, segments (2 x index + medium, 1 for
disk), open stripes, slots of sealed stripes whose location records are not persisted yet (stripe key and slots),
location-log fill, a latched checkpoint, what has been noted. `formatNext` is the first flash segment the formatting
of R252 has not erased yet; `dramSlots` the local area a lost DRAM channel leaves, in slots (R290); `poolDown`
the pools whose stored tables this bundle cannot read (R82); `undo` is by SEQ; `resynced`
lists the HDAs whose stripes were resynchronised since the boot (R291). -/
structure Undercoat where
  gran    : Tbl GranEntry := []
  ext     : Tbl Extent := []
  slots   : Tbl Slot := []
  age     : Nat := 0
  segs    : Tbl SegRec := []
  open_   : List OpenStripe := []
  release : List (Nat × List Nat) := []
  releaseReady : List (Nat × List Nat) := []
  erase   : List Nat := []
  eraseReady : List Nat := []
  formatNext : Nat := 0
  log     : Nat := 0
  unsaved : Nat := 0
  ckptLatch : Bool := false
  ckptFrom : Nat := 0
  ckptNs  : Option Nat := none
  reshape : Option Reshape := none
  fgeom   : Nat := 0
  dgeom   : Nat := 0
  mediaErr : Tbl Nat := []
  settling : Bool := false
  dramSlots : Option Nat := none
  poolDown : List Nat := []
  undo    : Tbl Undo := []
  resynced : List Nat := []
  deriving DecidableEq, Repr

/-! ## Flash channels (10_flash_channels.md) -/

/-- An entry of the row table (R320), by physical row, with what the row holds: the next unprogrammed page set, and the units
of each page set (4,096 data bytes and 32 metadata bytes, little-endian). -/
structure FlashRow where
  pe       : Nat := 0
  strength : Nat := 0
  slc      : Bool := false
  bad      : Bool := false
  sub      : Nat := 0
  reads    : Nat := 0
  next     : Nat := 0
  pages    : Tbl (List Nat) := []
  deriving DecidableEq, Repr

/-- A descriptor the engine has taken (R308, R313): when it arrived, whether it holds its LUN's token, the step of the read
sequence, the threshold set in use, sets still to try, syndrome weights seen, units still failing, failed for good and found erased,
and what the completion will report. -/
structure FlashRun where
  desc    : FlashDesc
  since   : Nat := 0
  token   : Bool := false
  step    : Nat := 0
  set     : Nat := 0
  sets    : List Nat := []
  weights : List (Nat × Nat) := []
  failing : List Nat := []
  failed  : List Nat := []
  erased  : List Nat := []
  bits    : Nat := 0
  lastSet : Nat := 0
  soft    : Bool := false
  applied : Bool := false
  reloc   : Bool := false
  deriving DecidableEq, Repr

/-- A completion (Table 10-7). -/
structure FlashDone where
  tag    : Nat
  status : Nat
  typ    : Nat
  bits   : Nat := 0
  set    : Nat := 0
  soft   : Bool := false
  reloc  : Bool := false
  subst  : Bool := false
  fail   : Nat := 0
  reply  : Nat := 0
  deriving DecidableEq, Repr

/-- A flash channel: descriptor ring with arrival times, descriptors taken, completion ring, staging bytes and their tags by 32-byte slot, last_good by
4 x LUN + page type, first-timeout times by LUN, failed trainings in a row, round-robin pointer, segments whose
relocation is asked for, LUNs that have recorded 0x0405, rows erased for which nothing has been programmed yet are
in the row table. -/
structure FlashChan where
  ring    : List (Nat × FlashDesc) := []
  running : List FlashRun := []
  done    : List FlashDone := []
  staging : Memory := []
  tags    : Tbl Nat := []
  lastGood : Tbl Nat := []
  tmo     : Tbl Nat := []
  trainFails : Nat := 0
  rr      : Nat := 0
  peNoted : List Nat := []
  wpSet   : Bool := false
  deriving DecidableEq, Repr
/-! ## Disk read channels (11_read_channel.md) -/

/-- A disk operation (R346) and how far it is: when it arrived, how often it was passed over, the passes made, the units
still failed (READ) or the next unit to write (WRITE), whether a later pass was needed and pass 4 or later
recovered a unit, since when it waits on an unmet
condition. -/
structure DiskOp where
  write  : Bool
  band   : Nat
  frag   : Nat
  first  : Nat
  count  : Nat
  slot0  : Nat
  tag    : Nat := 0
  fast   : Bool := false
  reply  : Nat := 0
  since  : Nat := 0
  passed : Nat := 0
  pass   : Nat := 0
  left   : List Nat := []
  next   : Nat := 0
  retried : Bool := false
  late    : Bool := false
  waitNs : Option Nat := none
  deriving DecidableEq, Repr

/-- What a serial frame is for: its own sake, the check of a write, the read after a WFLT_N capture, the host's read,
the read of ID at initialisation. -/
inductive FrameFor where
  | plain
  | check (data : Nat)
  | fault
  | host
  | ident
  | mask
  deriving DecidableEq, Repr

/-- A serial frame that waits (R334): its class, register address, data when it writes. -/
structure Frame where
  cls  : Nat
  addr : Nat
  data : Option Nat := none
  why  : FrameFor := .plain
  deriving DecidableEq, Repr

/-- A completed disk operation (R347); `reloc` asks for the relocation of its segment (R348). -/
structure DiskDone where
  reply  : Nat
  write  : Bool
  status : Nat
  fail   : Nat := 0
  reloc  : Bool := false
  deriving DecidableEq, Repr

/-- A calibration entry (R344, R351, R356): taps, target, precompensation, temperature in 1/16 °C, when made. -/
structure CalEntry where
  eq     : List Int := []
  target : List Int := []
  pc     : List Nat := []
  temp   : Int := 0
  made   : Nat := 0
  deriving DecidableEq, Repr

/-- A read channel: operations queued and running, completions, frames waiting, consecutive failures by preamplifier
register, verified register values (value plus 1), the gate, staging units and tags by slot, the calibration running
(procedure, head, zone) and latched, OFFSET's failures in a row, the heater (code written, when it was, T in
1/16 °C and when it was last valid), when the last operation ended, the write faults by head, pending and slipped
defects (position, in force), bands withdrawn, and whether the heads must still be unloaded before the domain may power
off. -/
structure RdChan where
  queue   : List DiskOp := []
  run     : Option DiskOp := none
  done    : List DiskDone := []
  frames  : List Frame := []
  fails   : Tbl Nat := []
  regs    : Tbl Nat := []
  gate    : Bool := false
  staging : Tbl Nat := []
  tags    : Tbl Nat := []
  held    : List Nat := []
  calRun  : Option (Nat × Nat × Nat) := none
  calNext : Option (Nat × Nat × Nat) := none
  calDue  : List (Nat × Nat × Nat) := []
  offsetFails : Nat := 0
  heatNs  : Nat := 0
  heatCode : Nat := 0
  heatHead : Option Nat := none
  temp    : Int := 640
  tempNs  : Nat := 0
  idleNs  : Nat := 0
  wflt    : Tbl Nat := []
  wfltAgain : Bool := false
  slips   : List (Nat × Bool) := []
  withdrawn : List Nat := []
  deriving DecidableEq, Repr

/-! ## Lantern (12_lantern_engine.md) -/

/-- Flags of R376. -/
structure FpFlags where
  nv : Bool := false
  dz : Bool := false
  of_ : Bool := false
  uf : Bool := false
  nx : Bool := false
  deriving DecidableEq, Repr

/-- A task instance (R368): its deadline, when it started, the next node, the value store's working copy, the outputs it
holds, the sign of the first saturating LIM node, its flags, whether END has committed it. -/
structure Inst where
  deadline : Nat
  started  : Nat
  node     : Nat := 0
  work     : Tbl Word := []
  outs     : Tbl Word := []
  sat      : Option Bool := none
  flags    : FpFlags := {}
  committed : Bool := false
  ftz      : Bool := false
  deriving DecidableEq, Repr

/-- A task: enabled by its owner, its committed state slots, coefficients changed since LOADING, FTZ, the present
input values, the outputs in effect, the instance under way, the trigger that waits to release one, carrier periods since the
last trigger; SAT and its sign, and the counters and sticky bits of the LTN_TASK_ registers. `core` is the logical core that runs it. -/
structure Task where
  enabled : Bool := false
  slots   : Tbl Word := []
  coefs   : Tbl (Option Word) := []
  ftz     : Option Bool := none
  ins     : Tbl Word := []
  outs    : Tbl Word := []
  run     : Option Inst := none
  due     : Option Nat := none
  periods : Nat := 0
  core    : Option Nat := none
  sat     : Bool := false
  satNeg  : Bool := false
  missBit : Bool := false
  consec  : Nat := 0
  flags   : FpFlags := {}
  nonfin  : Bool := false
  sample  : Nat := 0
  misses  : Nat := 0
  satInst : Nat := 0
  execMax : Nat := 0
  inhibit : Bool := false
  goodRun : Nat := 0
  missRun : Nat := 0
  lastSample : Nat := 0
  poison  : Bool := false
  deriving DecidableEq, Repr

/-- Lantern: tasks, the queue of coefficient words (task, index, value), the physical core of each logical core, the
spare, HDAs shed. -/
structure Lantern where
  tasks   : Tbl Task := []
  queue   : List (Nat × Nat × Word) := []
  logical : List (Option Nat) := [none, none, none, none, none, none, none]
  spare   : Option Nat := none
  shed    : List Nat := []
  retired : List Nat := []
  deriving DecidableEq, Repr

/-! ## Servo and actuators (13_servo_and_actuators.md) -/

/-- A servo lane: its head, whether it takes part, the amplitudes of its last valid wedges, invalid wedges in a row, its
last position. -/
structure Lane where
  head    : Nat := 0
  used    : Bool := false
  valid   : Bool := false
  amps    : List Rat := []
  bad     : Nat := 0
  x       : Rat := 0
  deriving DecidableEq, Repr

/-- A running seek (R390): start position and target in data-head tracks, start and the settle polynomial's start in
ns, the profile's A, vp, T1, T2, Tc, T, whether it is a long seek, the scale s, whether SAT was seen. -/
structure Seek where
  start  : Rat
  target : Rat
  t0     : Nat
  long   : Bool
  acc    : Rat
  vp     : Rat
  t1     : Rat
  t2     : Rat
  tc     : Rat
  t      : Rat
  scale  : Rat
  sat    : Bool := false
  deriving DecidableEq, Repr

/-- A shunt: the last valid value, invalid conversions in a row, lost. -/
structure Shunt where
  value : Rat := 0
  bad   : Nat := 0
  lost  : Bool := false
  deriving DecidableEq, Repr

/-- An entry of the head offset map (R384). -/
structure OfsEntry where
  ofs   : Rat := 0
  var   : Rat := 0
  made  : Nat := 0
  temp  : Int := 0
  deriving DecidableEq, Repr

/-- An actuator: data head, target track and read offset, lanes, the wedge number and position of the last wedge,
velocity, the variance, runs of wedges for ON_TRACK and RD_READY, heads marked bad, the inhibits in force beside those of
the HDA, the seek running and one that waits, times of TRACK_LOST, position losses, load failures and driver faults, the calibration of a
zone, what an unload owes (retirement, a load), whether a failed load is to be retried, the last shock (kept with side A), a head switch
not yet verified (DHEAD and SHEAD values), the coil's samples and the pulse volt-seconds carried forward, R_EST. -/
structure Servo where
  head    : Nat := 0
  target  : Nat := 0
  readOfs : Rat := 0
  lanes   : List Lane := [{}, {}, {}, {}]
  wedge   : Option Nat := none
  wedgeNs : Nat := 0
  x       : Option Rat := none
  vel     : Rat := 0
  var     : Rat := 0
  fused   : Nat := 0
  err     : Rat := 0
  onRun   : Nat := 0
  rdRun   : Nat := 0
  bad     : List Nat := []
  noLane  : Nat := 0
  loadRun : Nat := 0
  outRun  : Nat := 0
  seek    : Option Seek := none
  seekReq : Option (Nat × Nat × Rat) := none
  lostNs  : List Nat := []
  posNs   : List Nat := []
  loadNs  : List Nat := []
  drvNs   : List Nat := []
  feNs    : Option Nat := none
  satNs   : Option Nat := none
  satOk   : Nat := 0
  laneInv : Nat := 0
  shuntA  : Shunt := {}
  shuntB  : Shunt := {}
  volts   : Rat := 0
  periods : Nat := 0
  carry   : List Rat := [0, 0, 0, 0]
  rEst    : Option (Rat × Nat) := none
  rSum    : Rat × Nat := (0, 0)
  seekEnd : Nat := 0
  stateNs : Nat := 0
  retireOwed : Bool := false
  reload  : Bool := false
  loaded1 : Bool := false
  calRun  : Option Nat := none
  calNext : Option Nat := none
  calDue  : List Nat := []
  shockNs : Nat := 0
  switch_ : Option (Nat × Nat) := none
  again   : Bool := false
  deriving DecidableEq, Repr

/-! ## Spindles (14_spindle_drive.md) -/

/-- A spindle: θ in electrical turns and ω in revolutions per second, the tracker's last intervals between crossings, six-step
sector, times of the last crossing and commutation and when the next is due, crossings and forced commutations in a row,
when its state was entered, failures of this spin-up, times of losses of synchronism and driver faults, ω_sp and the ramp
rate (revolutions per second and per second squared), trim, SAT before, ψ samples outside the band in a row, when the speed
came inside and outside its bands, calibration tries, run and time of the last success, offsets in force, shunts, currents,
commands, pulse volt-seconds carried forward, Ke measured, requests that wait. -/
structure Spindle where
  theta   : Rat := 0
  omega   : Rat := 0
  held    : Bool := false
  gaps    : List Rat := []
  sector  : Nat := 0
  zcNs    : Option Nat := none
  commNs  : Nat := 0
  lastGap : Nat := 0
  commDue : Option Nat := none
  forced  : Nat := 0
  zcRun   : Nat := 0
  stateNs : Nat := 0
  fails   : Nat := 0
  losNs   : List Nat := []
  drvNs   : List Nat := []
  losRun  : Nat := 0
  wsp     : Rat := 0
  ramp    : Rat := 0
  trim    : Rat := 0
  satWas  : Bool := false
  inBand  : Option Nat := none
  lowNs   : Option Nat := none
  calTries : Nat := 0
  calOk   : Option Nat := none
  calWant : Bool := false
  ofs     : List Int := [0, 0, 0]
  shunts  : List Shunt := [{}, {}, {}]
  vm      : Rat := 0
  vmag    : Rat := 0
  vhold   : Rat × Rat := (0, 0)
  periods : Nat := 0
  carry   : List Rat := [0, 0, 0, 0, 0, 0]
  measKe  : Bool := false
  stopReq : Option Bool := none
  upLatch : Bool := false
  retireOwed : Bool := false
  twoLost : Bool := false
  shortFrom : Nat := 0
  focWait : Bool := false
  regenIq : Rat := 0
  syncNs  : Option Nat := none
  indexNs : Option Nat := none
  firstNs : Nat := 0
  startup : Bool := false
  deriving DecidableEq, Repr


/-! ## Render and Hod (15_render_and_hod.md) -/

/-- A job in Render: the job, the engine it may not run on again, RETRIED, whether a granule read has failed once. -/
structure RndItem where
  job     : RenderJob
  skip    : Option Nat := none
  retried : Bool := false
  again   : Bool := false
  deriving DecidableEq, Repr

/-- A Render context (R445): tenant tag, whether it compresses, ZLIB, DEPTH, EXPECT, the stream's input consumed so far
and the points at which its non-final inputs ended, and how many output bytes the stream has given. -/
structure RndCtx where
  tag      : Nat
  compress : Bool
  zlib     : Bool
  depth    : Nat
  expect   : Nat
  input    : List Byte
  ends     : List Nat
  produced : Nat
  deriving DecidableEq, Repr

/-- Render: the job queue, oldest first, the job each engine runs, the contexts held by number. -/
structure Render where
  queue   : List RndItem := []
  engines : Tbl (Option RndItem) := []
  ctxs    : Tbl (Option RndCtx) := []
  deriving DecidableEq, Repr

/-- The active set of a Hod channel: addresses and bytes left as advanced, the running CRC, the configuration words, the
eight words it was loaded from. -/
structure HodAct where
  src   : Nat := 0
  dst   : Nat := 0
  rem   : Nat := 0
  crc   : Nat := 0
  cfg0  : Nat := 0
  cfg1  : Nat := 0
  words : List Word := []
  deriving DecidableEq, Repr

/-- A Hod channel beside its registers: the active set, whether it is a transfer that has not ended, the flow that drives
it, a release of the claim that waits, the snapshot HOD_ACT_ shows. -/
structure HodChan where
  act     : HodAct := {}
  running : Bool := false
  flow    : Option (Nat × Nat) := none
  release : Bool := false
  snap    : List Word := []
  deriving DecidableEq, Repr

/-- Hod: channels, and transfers of retired channels that wait for another one (words, LOADED words, flow). -/
structure Hod where
  chans   : Tbl HodChan := []
  waiting : List (List Word × Option (List Word) × Option (Nat × Nat)) := []
  deriving DecidableEq, Repr

/-! ## Ozper (16_ozper_ring.md) -/

/-- One Ozper port (0 east, 1 west): frames sent and not acknowledged (LSEQ, bytes, frame), frames that wait for the
window or the replay buffer (type, bytes, payload, blocks), the next LSEQ, the last frame received in order, NAK owed, training
failures in a row, when the last valid frame came, malformed frames of the last millisecond, whether flit lock is
reached, the partner's latest CAP and GLB_STATE, LEAVE under way, a loss not yet handled. -/
structure OzPort where
  unacked : List (Nat × Nat × Out) := []
  waiting : List (Nat × Nat × List Nat × List (List Byte)) := []
  nextSeq : Nat := 0
  rxSeq   : Nat := 4095
  nak     : Bool := false
  fails   : Nat := 0
  lastNs  : Nat := 0
  bad     : List Nat := []
  locked  : Bool := false
  peer    : Option CapFrame := none
  peerState : Nat := 0
  leaving : Bool := false
  lost    : Bool := false
  deriving DecidableEq, Repr

/-- A mirror-in slot or orphan record (R471): the mirror header's fields and the blocks received. -/
structure MirrorCopy where
  mask   : Nat := 0
  clen   : Nat := 0
  id     : GranId := {}
  gen    : Nat := 0
  tags   : List Nat := [0, 0, 0, 0]
  epoch  : Nat := 0
  blocks : List Nat := [0, 0, 0, 0]
  deriving DecidableEq, Repr

/-- An orphan set (R475): the partner's UID, boot count and epoch, when it formed, its records by sender slot. -/
structure OrphanSet where
  uid     : Nat
  boot    : Nat
  epoch   : Nat
  formed  : Nat
  hold    : Nat
  records : Tbl MirrorCopy
  deriving DecidableEq, Repr

/-- Ozper: ports, mirror-in copies by sender slot, orphan sets (oldest first), the next MID, MIDs awaited with their
slot. -/
structure Ozper where
  ports   : Tbl OzPort := []
  inMap   : Tbl MirrorCopy := []
  orphans : List OrphanSet := []
  mid     : Nat := 0
  awaits  : List (Nat × Nat) := []
  deriving DecidableEq, Repr

/-! ## Keeper (17_keeper.md) -/

/-- One group of the group table (R489): the open corrected and contained records, by RSEQ, and COVER_DONE of the
contained one. -/
structure GroupEntry where
  corr  : Option Nat := none
  cont  : Option Nat := none
  cover : Bool := false
  deriving DecidableEq, Repr

/-- Keeper's own state beyond its registers and the record words of KPR_HIST. `order` is the slots in use, oldest
first; `lastRec` the RSEQ of each source's latest record plus 1; a fence carries the RSEQ of its record; `forcing`
is the source that takes its force bit in the present step (R494). -/
structure Keeper where
  groups   : Tbl GroupEntry := []
  counts   : Tbl Nat := []
  force    : Tbl Bool := []
  lastRec  : Tbl Nat := []
  order    : List Nat := []
  fences   : List (Nat × Region) := []
  pulse    : Bool := false
  locked   : Bool := false
  safeLatched : Option Nat := none
  safeStep : Nat := 0
  tallyRunning : Bool := false
  mismatch : List (Nat × Nat) := []
  forcing  : Option Nat := none
  deriving DecidableEq, Repr

/-! ## Daymark (18_daymark.md) -/

/-- Token bucket of one code (R509). `nano` counts tokens in units of 10^-9 of a token, which RATE tokens per second refill
exactly by RATE units each nanosecond. -/
structure Bucket where
  depth   : Nat := 32
  rate    : Nat := 100
  perm    : Bool := false
  nano    : Nat := 32000000000
  atNs    : Nat := 0
  pending : Nat := 0
  deriving DecidableEq, Repr

/-- Daymark's state beyond its registers: the store, the intake, the buckets, the snapshots of DMK_WIN. `circClear`: the
flash copy still holds circulating entries that a clear has removed (R516). -/
structure Daymark where
  store     : Tbl DmkEntry := []
  intake    : List (Nat × Nat) := []
  buckets   : Tbl Bucket := []
  eseq      : Nat := 0
  lossFlag  : Bool := false
  lossTick  : Option Nat := none
  ovfNoted  : Bool := false
  newest    : Option Nat := none
  circUsed  : Nat := 0
  unpersist : Nat := 0
  permDirty : Bool := false
  circClear : Bool := false
  restored  : Nat := 0
  winCtl    : List Word := []
  winMgt    : List Word := []
  traceEnds : List Nat := []
  traceLost : Bool := false
  deriving DecidableEq, Repr

/-! ## Ballast (19_ballast.md) -/

/-- A dump as it lies in the dump rows (R528, R529): header fields, whether its metadata part is whole, its slots by index,
how many the header announces, and the trailer's MISSING and DURATION (µs) once it is written. -/
structure Dump where
  cause   : Nat
  parity  : Nat := 0
  boot    : Nat := 0
  chans   : Nat := 0
  ns      : Nat := 0
  metaOk  : Bool := true
  metaUnits : Nat := 0
  total   : Nat := 0
  count   : Nat := 0
  slots   : Tbl Slot := []
  trailer : Option (Nat × Nat) := none
  deriving DecidableEq, Repr

/-- Ballast (R518 to R534). `mode` is 1 while the hold-up sequence runs, 2 for the warm stop's dump, 3 for SAFE's, else 0;
`cause` of the dump's header, the trigger's time; whether REGEN and the bank may be used; whether this stop writes no new
dump (R532); the slots still to dump, whether the header is written, units lost beyond parity; the PI law's integral,
since when VM is low; when the brown-out began; the page sets the dump has taken on each
channel; whether BRINGUP step 3 has still to restore a current dump, and the slots restored (index and age), whose rows
stay unerased. -/
structure Ballast where
  mode    : Nat := 0
  cause   : Nat := 0
  pages   : Nat := 0
  restoring : Bool := false
  restored : List (Nat × Nat) := []
  fromNs  : Nat := 0
  regen   : Bool := false
  noDump  : Bool := false
  todo    : List Nat := []
  header  : Bool := false
  missing : Nat := 0
  integ   : Rat := 0
  lowNs   : Option Nat := none
  brownNs : Option Nat := none
  deriving DecidableEq, Repr

/-! ## What power loss leaves (NOR, OTP, flash system area, platters) -/

/-- Everything that survives a power-on reset because it lies outside volatile state; `park` is each actuator's park record,
in the codes of SRV_ACT.PARK_REC. -/
structure NonVolatile where
  sectorA   : BootSector := {}
  sectorB   : BootSector := {}
  nor       : Tbl Byte := []
  norSize   : Nat := 0x4000000
  opHash    : Option Nat := none
  revoked   : List Nat := []
  dmkPerm   : List DmkEntry := []
  dmkCirc   : List DmkEntry := []
  dump      : Option Dump := none
  tenants   : Tbl TenantNv := []
  journal   : Tbl JrnEntry := []
  pools     : PoolNv := {}
  flash     : Tbl FlashRow := []
  park      : Tbl Nat := []
  formats   : List (Nat × Nat) := []
  platter   : Tbl (List Nat) := []
  cal       : Tbl CalEntry := []
  ofs       : Tbl OfsEntry := []
  slips     : Tbl (List (Nat × Bool)) := []
  deriving DecidableEq, Repr

/-! ## Loader, resets, NOR, power, measurement (02, 03) -/

/-- What the loader is doing: the slots still to check, the trial it runs (R83), the lowest table formats the bundle reads
(R82), how far BRINGUP is, and whether DISCOVERY has stopped waiting for an Ozper partner (R88). -/
structure Loader where
  started : Bool := false
  order   : List Nat := []
  trial   : Nat := 0
  tries   : Nat := 0
  owed    : Option BootRec := none
  lastGood : Nat := 0
  img     : Option Image := none
  tableMin : List Nat := [1, 1, 1, 1]
  stage   : Nat := 0
  ozTmo   : Bool := false
  deriving DecidableEq, Repr

/-- A running NOR command: operation, address, slot (R84). -/
structure NorCmd where
  op   : Nat
  addr : Nat
  slot : Nat
  deriving DecidableEq, Repr

/-- Resets and the warm stop (R64 to R67). `warm` holds the CAUSE of the warm reset in progress. -/
structure ResetCtl where
  warm      : Option Nat := none
  warmLatched : Option Nat := none
  flushDone : Bool := false
  prevBoot  : Nat := 0
  deriving DecidableEq, Repr

/-- Power and pins (02, 03): retired units, domain phases, AVS, VM, discovery items, the temperature in 1/16 °C at which each VCM coil
was measured. `pdPhase` is 1 powering
up, 2 draining (phase A), 3 switching off (phase B). -/
structure Power where
  retired  : List UnitId := []
  pdPhase  : Tbl Nat := []
  avsRetry : Nat := 0
  avsPending : Option Nat := none
  vm       : Nat := 0
  vmOkSince : Option Nat := none
  vhold    : Nat := 0
  params   : Tbl (Nat × Nat × Nat) := []
  coilTemp : Tbl Int := []
  deriving DecidableEq, Repr

/-- Lath (01): reroutes in progress with their flits, what was
re-injected, and whether each pace monitor has measured. -/
structure Lath where
  rerouting : List (Nat × List Flit) := []
  inject   : List Flit := []
  measured : Tbl Bool := []
  deriving DecidableEq, Repr

/-- The management port (R544): its dynamic address, the static address in force, the status of its latest WRITE. -/
structure Mgt where
  dynamic : Option Nat := none
  last    : Nat := 0
  deriving DecidableEq, Repr

/-! ## Host ports (04) -/

/-- One MSI-X vector: address, data, mask, PBA bit (R113). -/
structure MsixVec where
  addr    : Nat := 0
  data    : Nat := 0
  masked  : Bool := true
  pending : Bool := false
  deriving DecidableEq, Repr

/-- One function (PF or VF): its configuration space and its teardown (R104 to R119). -/
structure FnState where
  bme       : Bool := false
  d3        : Bool := false
  msixEn    : Bool := false
  msixMask  : Bool := false
  vectors   : Tbl MsixVec := []
  vfEnable  : Bool := false
  numVfs    : Nat := 0
  relaxed   : Bool := true
  cplRange  : Nat := 0
  cplDisable : Bool := false
  maxPayload : Nat := 128
  maxReadReq : Nat := 512
  aer       : List Nat := []
  teardown  : Nat := 0
  latchBme  : Option Bool := none
  latchVfEn : Option Bool := none
  latchAq   : Option (Nat × Nat × Nat) := none
  rr        : Nat := 0
  deriving DecidableEq, Repr

/-- One host port: its PERST_N, whether it trains, and whether a port reset's teardown runs (R117). -/
structure PortState where
  perst    : Bool := true
  training : Bool := false
  inReset  : Bool := false
  deriving DecidableEq, Repr

/-! ## The state -/

/-- The whole state of the XA1284 block. -/
structure State where
  /-- Commands that wait, first in first out (the block's queue; not the spec's). -/
  pending : List Instr := []
  phase   : Phase := .off
  tb      : Timebase := {}
  /-- The register file: words by key (BAR0 offset; copies and XQ_ instances at keys of their own). -/
  regs    : Tbl Word := []
  held    : List Held := []
  /-- Everything sent out so far, newest first (the model's log, not the spec's). -/
  out     : List Out := []
  /-- Counts the open values drawn so far (the model's own field, not the spec's). -/
  freeCtr : Nat := 0
  nv      : NonVolatile := {}
  loader  : Loader := {}
  norCmd  : Option NorCmd := none
  rst     : ResetCtl := {}
  pwr     : Power := {}
  lath    : Lath := {}
  fns     : Tbl FnState := []
  ports   : Tbl PortState := []
  kpr     : Keeper := {}
  dmk     : Daymark := {}
  qps     : Tbl QPair := []
  cmds    : Tbl Cmd := []
  jrn     : Journal := {}
  tenants : Tbl Tenant := []
  trw     : Trowel := {}
  udc     : Undercoat := {}
  flc     : Tbl FlashChan := []
  rdc     : Tbl RdChan := []
  ltn     : Lantern := {}
  srv     : Tbl Servo := []
  spn     : Tbl Spindle := []
  rnd     : Render := {}
  hod     : Hod := {}
  ozp     : Ozper := {}
  bls     : Ballast := {}
  mgt     : Mgt := {}
  deriving DecidableEq, Repr

/-- The machine right after a power-on reset (R64): OFF, every register at the reset value of its table (the
register file lists nothing), every unit empty. -/
def State.reset : State := {}

end Sys2Proof.Machine
end

