-- ==== Sys2Proof/Machine/Ops.lean ====
section
/-!
DEFINITION. Machine/Ops.lean: the named operations every meaning is built from: register words and fields, draws of
open values, timestamps, Daymark's intake, MSI-X and AER reports, device states, and a fault report to Keeper.
-/

namespace Sys2Proof.Machine

/-! ## Registers -/

/-- First row of a reset table that covers key `k`. -/
def findReset : List (Nat × List (Nat × Nat) × Nat) → Nat → Nat
  | [], _ => 0
  | (b, ds, v) :: t, k => if inDims k b ds then v else findReset t k

def findXqReset : List (Nat × Nat) → Nat → Nat
  | [], _ => 0
  | (b, v) :: t, k => if k = b then v else findXqReset t k

/-- Base key of the XQ_ instance of function `fid`: the control PF's lies in BAR0 (R536), a VF's at a key of its
own (R538). -/
def xqVfBase : Nat := 0x10000000

/-- Key distance of the management port's own copies of DMK_CURSOR and DMK_WIN (R512). -/
def mgtCopy : Nat := 0x8000000

/-- What a register reads when nothing has changed it since reset: the reset value of its table (R6). -/
def resetWord (k : Nat) : Word :=
  BitVec.ofNat 32
    (if xqVfBase ≤ k then findXqReset xqNonzeroResets ((k - xqVfBase) % 0x10000)
     else if mgtCopy ≤ k then findReset nonzeroResets (k - mgtCopy)
     else if 0x200000 ≤ k && k < 0x203000 then findXqReset xqNonzeroResets (k - 0x200000)
     else findReset nonzeroResets k)

def rget (s : State) (k : Nat) : Word := tget (resetWord k) s.regs k

def rset (s : State) (k : Nat) (v : Word) : State := { s with regs := tset (resetWord k) s.regs k v }

/-- Bits `lo + w - 1` to `lo` of a word. -/
def bitsGet (v : Word) (lo w : Nat) : Nat := v.toNat / 2 ^ lo % 2 ^ w

/-- A word with bits `lo + w - 1` to `lo` replaced by `x`. -/
def bitsSet (v : Word) (lo w x : Nat) : Word :=
  BitVec.ofNat 32 (v.toNat / 2 ^ (lo + w) * 2 ^ (lo + w) + x % 2 ^ w * 2 ^ lo + v.toNat % 2 ^ lo)

def fget (s : State) (f : Fld) : Nat := bitsGet (rget s f.off) f.lo f.w

def fset (s : State) (f : Fld) (x : Nat) : State := rset s f.off (bitsSet (rget s f.off) f.lo f.w x)

/-- Saturating count up of a counter field. -/
def fbump (s : State) (f : Fld) (n : Nat := 1) : State := fset s f (min (fget s f + n) (2 ^ f.w - 1))

/-- Bit `i` of a field. -/
def fbit (s : State) (f : Fld) (i : Nat) : Bool := fget s f / 2 ^ i % 2 == 1

def fsetBit (s : State) (f : Fld) (i : Nat) (b : Bool) : State :=
  fset s { f with lo := f.lo + i, w := 1 } (if b then 1 else 0)

def b2n (b : Bool) : Nat := if b then 1 else 0

/-- Lowest `k` bits set in a number. -/
def popCount : Nat → Nat → Nat
  | 0, _ => 0
  | k + 1, n => n % 2 + popCount k (n / 2)

/-! ## Output, open values, time -/

def emit (s : State) (o : Out) : State := { s with out := o :: s.out }

/-- One open value. -/
def drawFree (s : State) : Nat × State := (Config.freeValue s.freeCtr, { s with freeCtr := s.freeCtr + 1 })

/-- Advance the timebase to `t` if it is not there yet. -/
def advanceTo (s : State) (t : Nat) : State := { s with tb := { s.tb with ns := max s.tb.ns t } }

/-- Stamps already issued in the present nanosecond. -/
def Timebase.issued (t : Timebase) : Nat := if t.stampNs = t.ns then t.stamps else 0

/-- R22: issue one timestamp, in the next nanosecond when 16 were issued in this one. The pair is the nanosecond
and the sequence number. -/
def grantStamp (s : State) : (Nat × Nat) × State :=
  if s.tb.issued < 16 then
    ((s.tb.ns, s.tb.issued),
      { s with tb := { s.tb with stampNs := s.tb.ns, stamps := s.tb.issued + 1 } })
  else
    ((s.tb.ns + 1, 0),
      { s with tb := { s.tb with ns := s.tb.ns + 1, stampNs := s.tb.ns + 1, stamps := 1 } })

/-! ## Functions, MSI-X, AER -/

/-- Number of a function: port and function number on the port (VF n is function n, the PF is function 0). -/
def fnId (port n : Nat) : Nat := port * 1024 + n

def getFn (s : State) (fid : Nat) : FnState := tget {} s.fns fid

def modFn (s : State) (fid : Nat) (f : FnState → FnState) : State := { s with fns := tmod {} s.fns fid f }

/-- The port that carries the control PF (R109, HPT_STATUS.CTL_PORT). -/
def ctlPort (s : State) : Nat := fget s HPT_STATUS_CTL_PORT

def ctlFid (s : State) : Nat := fnId (ctlPort s) 0

/-- May the device issue requests on the function's behalf (R110)? -/
def FnState.live (f : FnState) : Bool := f.bme && !f.d3

/-- R113, R110, R114: send one MSI-X message, hold it in the PBA while the vector is masked or the function may not
issue requests, and suppress it during a teardown. -/
def msixSend (s : State) (fid vec : Nat) : State :=
  let f := getFn s fid
  let v := tget {} f.vectors vec
  if !f.msixEn || 0 < f.teardown then s
  else if f.msixMask || v.masked || !f.live then
    modFn s fid fun f => { f with vectors := tset {} f.vectors vec { v with pending := true } }
  else emit s (.msix fid vec)

/-- R119: log an AER condition in a function and report it. -/
def aerReport (s : State) (fid kind : Nat) : State :=
  emit (modFn s fid fun f => { f with aer := if f.aer.contains kind then f.aer else f.aer ++ [kind] }) (.aer fid kind)

/-! ## Daymark's intake -/

/-- Codes that are permanent whatever the EVENTS section says (R510). -/
def alwaysPerm (code : Nat) : Bool := code == 0x0003 || code == 0x0302 || code == 0x0B04 || code == 0x0B40

/-- Codes that are never rate-limited (R510). -/
def neverLimited (code : Nat) : Bool := code == 0x0B40 || code == 0x0B43

/-- A code's bucket at reset (R509, R510). -/
def bucket0 (code : Nat) : Bucket := { perm := alwaysPerm code }

def getBucket (s : State) (code : Nat) : Bucket := tget (bucket0 code) s.dmk.buckets code

def setBucket (s : State) (code : Nat) (b : Bucket) : State :=
  { s with dmk := { s.dmk with buckets := tset (bucket0 code) s.dmk.buckets code b } }

/-- The bucket refilled up to the present nanosecond (R509). -/
def Bucket.refill (b : Bucket) (now : Nat) : Bucket :=
  { b with nano := min (b.depth * 1000000000) (b.nano + b.rate * (now - b.atNs)), atNs := now }

/-- One more suppressed event of a code (R507, R509). -/
def suppress (s : State) (code : Nat) : State :=
  let b := getBucket s code
  setBucket s code { b with pending := min (b.pending + 1) 65535 }

/-- R507: an owner's event enters the intake queue of 64 events, or is lost when the queue is full. -/
def dmkPush (s : State) (code data : Nat) : State :=
  if s.dmk.intake.length < 64 then { s with dmk := { s.dmk with intake := s.dmk.intake ++ [(code, data)] } }
  else
    let s := suppress (fbump s DMK_LOSS_OVERFLOW) code
    { s with dmk := { s.dmk with lossFlag := true } }

/-! ## Device states -/

/-- R70, R71: enter a device state and record the change with code 0x0B06 (Table 18-6). `src` is the Keeper source
of the record that caused it, `cause` BEACON_CAUSE. -/
def setPhase (s : State) (p : Phase) (src : Nat := 0) (cause : Nat := 0) : State :=
  dmkPush { s with phase := p } 0x0B06 (p.code + s.phase.code * 16 + src % 4096 * 256 + cause % 16 * 0x100000)

/-! ## Keeper sources (Table 17-1 and the chapters' own tables) -/

/-- The class a source raises by its chapter; none for an unused ID (R483). Sources whose chapter says 'corrected;
contained when it retires' are listed corrected. -/
def sourceClass (src : Nat) : Option Cls :=
  let k := src % 16
  if src < 0x080 then
    if src = 0 then some .fatal else if src ≤ 3 then some .corrected else if src = 4 then some .fatal
    else if 0x10 ≤ src && src ≤ 0x17 then some .contained
    else if src = 0x20 || src = 0x21 then some .fatal else none
  else if src < 0x100 then
    if src ≤ 0x088 then (if src = 0x081 || src = 0x082 then some .fatal else some .contained)
    else if 0x090 ≤ src && src ≤ 0x098 then (if src ≤ 0x092 then some .fatal else some .contained)
    else if 0x0A0 ≤ src && src ≤ 0x0A4 then some .contained
    else if 0x0B0 ≤ src && src ≤ 0x0B7 then some .corrected
    else if 0x0B8 ≤ src && src ≤ 0x0BF then some .contained
    else if 0x0C0 ≤ src && src ≤ 0x0C7 then some .fatal else none
  else if src < 0x180 then
    if src < 0x170 then some .contained else if src = 0x170 then some .contained
    else if src = 0x171 then some .corrected else none
  else if src < 0x200 then
    if src < 0x1C4 then some .contained else if src < 0x1C7 then some .corrected
    else if src = 0x1C7 then some .fatal else if src < 0x1CC then some .contained else none
  else if src < 0x280 then
    if src < 0x208 then some .corrected else if src < 0x214 then some .contained else none
  else if src < 0x300 then
    if src < 0x286 then some .contained else if src = 0x286 then some .corrected else none
  else if src < 0x380 then
    if src ≤ 0x301 then some .contained else if 0x310 ≤ src && src < 0x320 then some .contained else none
  else if src < 0x400 then
    if src ≤ 0x388 then some .contained else if src = 0x389 then some .corrected
    else if src = 0x38A then some .contained else if src = 0x38B then some .corrected
    else if src = 0x38C then some .contained
    else if 0x390 ≤ src && src < 0x3A1 then some .contained else if src = 0x3A1 then some .corrected else none
  else if src < 0x600 then
    if k = 4 || k = 5 || k = 6 || k = 10 || k = 11 then some .corrected
    else if k = 14 || k = 15 then none else some .contained
  else if src < 0x800 then
    if k = 0 || k = 1 || k = 7 || k = 13 then some .contained else some .corrected
  else if src < 0x880 then
    if src < 0x809 then some .contained else if src = 0x809 then some .corrected
    else if src = 0x80A then some .contained else if 0x820 ≤ src then some .contained else none
  else if src < 0x980 then
    if k = 0 || k = 1 || k = 5 || k = 6 || k = 11 || k = 15 then some .corrected else some .contained
  else if src < 0xA00 then none
  else if src < 0xA80 then
    if src = 0xA00 || src = 0xA04 then some .corrected
    else if src = 0xA01 || src = 0xA02 then some .contained else if src = 0xA03 then some .fatal else none
  else if src < 0xB00 then
    if src ≤ 0xA82 then some .contained else if src ≤ 0xA85 then some .corrected else none
  else if src = 0xB00 || src = 0xB02 || src = 0xB03 || src = 0xB11 || src = 0xB13 || src = 0xB14 then some .corrected
  else if src = 0xB01 || src = 0xB10 || src = 0xB12 || src = 0xB80 || src = 0xB81 then some .contained
  else if src = 0xB82 || src = 0xB83 then some .corrected
  else none

/-- Is a source's report subject to escalation (R490)? Flow faults, flash descriptor checks and Render job checks
are marked not escalated in their chapters. -/
def sourceEscalates (src : Nat) : Bool :=
  !((0x1A2 ≤ src && src < 0x1C4) || (0x400 ≤ src && src < 0x600 && src % 16 == 8) || src == 0x388)

/-- The fence region a source's ID names (R486, Table 17-2, Table 17-4); a report may name its own instead. -/
def sourceRegion (src : Nat) : Region :=
  if 0x083 ≤ src && src ≤ 0x088 then .bank (src - 0x080)
  else if 0x093 ≤ src && src ≤ 0x098 then .bank (src - 0x090)
  else if 0x100 ≤ src && src < 0x170 then .link (src - 0x100)
  else if 0x180 ≤ src && src < 0x1A2 then .tile (src - 0x180)
  else if 0x1C8 ≤ src && src < 0x1CC then .snoopFilter (src - 0x1C8)
  else if 0x208 ≤ src && src < 0x20C then .dramSched (src - 0x208)
  else if 0x20C ≤ src && src < 0x210 then .dramPage (src - 0x20C)
  else if 0x210 ≤ src && src < 0x214 then .dramChannel (src - 0x210)
  else if 0x280 ≤ src && src < 0x286 then .port (src - 0x280)
  else if 0x310 ≤ src && src < 0x320 then .maskLane (src - 0x310)
  else if 0x380 ≤ src && src < 0x388 then .renderEngine (src - 0x380)
  else if 0x390 ≤ src && src < 0x3A0 then .hodChannel (src - 0x390)
  else if 0x400 ≤ src && src < 0x600 then .flashChannel ((src - 0x400) / 16)
  else if 0x600 ≤ src && src < 0x800 then .actuator ((src - 0x600) / 16)
  else if 0x800 ≤ src && src < 0x808 then .core (src - 0x800)
  else if 0x880 ≤ src && src < 0x980 then
    (if src % 16 < 8 then .hdaMotor ((src - 0x880) / 16)
     else .actuator (2 * ((src - 0x880) / 16) + (src % 16 - 8) / 4))
  else .none

/-! ## Keeper records -/

/-- Field of the record in history slot `slot`: word, lowest bit, width (Table 17-5). -/
def recF (slot word lo w : Nat) : Fld := ⟨0x1400100 + 32 * slot + 4 * word, lo, w⟩

def recClass (slot : Nat) : Fld := recF slot 3 12 2
def recSource (slot : Nat) : Fld := recF slot 3 0 12
def recAcked (slot : Nat) : Fld := recF slot 3 19 1
def recCover (slot : Nat) : Fld := recF slot 3 20 1
def recRepeat (slot : Nat) : Fld := recF slot 3 24 8
def recRseq (slot : Nat) : Fld := recF slot 5 0 16

/-- The record's TIME (Table 17-5). -/
def recTime (s : State) (slot : Nat) : Nat := fget s (recF slot 0 0 32) + fget s (recF slot 1 0 32) * 2 ^ 32

/-- The slot of the record with this RSEQ, newest first. -/
def findRec (s : State) (rseq : Nat) : Option Nat :=
  s.kpr.order.reverse.find? fun i => i < 32 && fget s (recClass i) != 0 && fget s (recRseq i) == rseq

def modKpr (s : State) (f : Keeper → Keeper) : State := { s with kpr := f s.kpr }

def getGroup (s : State) (g : Nat) : GroupEntry := tget {} s.kpr.groups g

def modGroup (s : State) (g : Nat) (f : GroupEntry → GroupEntry) : State :=
  modKpr s fun k => { k with groups := tmod {} k.groups g f }

/-- Close the record with this RSEQ (R489): ACKED and ACK_US are set in its slot, if it is still in the queue. -/
def closeRecord (s : State) (rseq : Nat) : State :=
  match findRec s rseq with
  | none => s
  | some i =>
    if fget s (recAcked i) = 1 then s
    else fset (fset s (recAcked i) 1) (recF i 6 0 32) (min ((s.tb.ns - recTime s i) / 1000) (2 ^ 32 - 1))

/-- The slot a new record takes (R488): an empty one; else that of the oldest record that is corrected or closed;
else the oldest, which is lost. -/
def pickSlot (s : State) : Nat × Bool :=
  match (List.range 32).find? (fun i => fget s (recClass i) == 0) with
  | some i => (i, false)
  | none =>
    match s.kpr.order.find? (fun i => fget s (recClass i) == 1 || fget s (recAcked i) == 1) with
    | some i => (i % 32, false)
    | none => (s.kpr.order.headD 0 % 32, true)

/-- Latch a cause of Table 17-6 in both status registers and send vector 0 of the control PF when the bit rises
while enabled (R496). -/
def keeperCause (s : State) (k : Nat) : State :=
  let rises := !fbit s KPR_IRQ_STAT_CAUSE k && fbit s KPR_IRQ_EN_EN k
  let s := fsetBit (fsetBit s KPR_IRQ_STAT_CAUSE k true) KPR_MGT_STAT_CAUSE k true
  if rises then msixSend s (ctlFid s) 0 else s

/-- Count a report of a source (KPR_SRC_INFO.COUNT). -/
def countSource (s : State) (src : Nat) : State :=
  modKpr s fun k => { k with counts := tmod 0 k.counts src fun c => min (c + 1) 65535 }

/-- The record's word 3 (Table 17-5). -/
def recWord3 (src : Nat) (cls raised : Cls) (forced escalated conseq acked : Bool) : Nat :=
  src % 4096 + cls.code * 0x1000 + raised.code * 0x4000 + b2n forced * 0x10000 + b2n escalated * 0x20000 +
    b2n conseq * 0x40000 + b2n acked * 0x80000

/-- Write a record into the history queue (R487, R488) and answer its RSEQ. `cause` is the RSEQ it follows from. -/
def enterRecord (s : State) (word3 data : Nat) (cause : Option Nat) : Nat × State :=
  let (ts, s) := grantStamp s
  let rseq := fget s KPR_HIST_NEXT_RSEQ
  let (slot, lost) := pickSlot s
  let s := if lost then
      keeperCause (dmkPush (fset s KPR_STATUS_HIST_OVF 1) 0x0005 (fget s (recRseq slot))) 5
    else s
  let w := fun (s : State) (i v : Nat) => rset s (0x1400100 + 32 * slot + 4 * i) (BitVec.ofNat 32 v)
  let s := w s 0 ts.1
  let s := w s 1 (ts.1 / 2 ^ 32)
  let s := w s 2 (s.tb.boot % 65536 + ts.2 * 65536)
  let s := w s 3 word3
  let s := w s 4 data
  let s := w s 5 (rseq + cause.getD rseq * 65536)
  let s := w s 6 0
  let s := w s 7 0
  let s := modKpr s fun k => { k with order := k.order.filter (· != slot) ++ [slot] }
  let s := fset (fset s KPR_HIST_NEXT_SLOT slot) KPR_HIST_NEXT_RSEQ ((rseq + 1) % 65536)
  (rseq, s)

/-- The slot of a source's latest record when a corrected report of the source merges into it (R488): it is still
in the queue, it is corrected, and it is less than 1 ms old. -/
def mergeSlot (s : State) (src : Nat) : Option Nat :=
  let r := tget 0 s.kpr.lastRec src
  if r = 0 then none
  else match findRec s (r - 1) with
    | none => none
    | some i =>
      if fget s (recClass i) = 1 && fget s (recSource i) == src % 4096 && s.tb.ns - recTime s i < 1000000 then some i
      else none

/-! ## SAFE -/

/-- Step 1 of Table 17-8, and KPR_SAFE as R498 gives at each entry: GLB_STATE reads SAFE, FOGHORN_N is held low, the
fatal cause is latched, code 0x0003 is recorded. The later steps are SAFE_ENTRY's. -/
def safeDecide (s : State) (src : Nat) (direct : Bool) : State :=
  let s := setPhase s .safe src
  let s := fset (fset (fset s KPR_SAFE_QUEUES_DONE 0) KPR_SAFE_HEADS_DONE 0) KPR_SAFE_FLUSH_DONE 0
  let s := fset (fset (fset s KPR_SAFE_VALID 1) KPR_SAFE_DIRECT (b2n direct)) KPR_SAFE_SOURCE src
  let s := dmkPush s 0x0003 (src % 4096 + b2n direct * 4096)
  keeperCause (modKpr s fun k => { k with locked := true, safeStep := 1 }) 2

/-- What a fatal fault does in the present device state (Table 03-7, R66, R500): SAFE at once, SAFE when Ballast
ends, or recorded only. -/
def fatalFault (s : State) (src : Nat) (direct : Bool := false) : State :=
  if s.rst.warm.isSome then s
  else match s.phase with
    | .loading | .selftest | .discovery | .bringup | .serving | .degraded => safeDecide s src direct
    | .ballast => modKpr s fun k => { k with safeLatched := some src }
    | .off | .safe | .beacon => s

/-! ## A report to Keeper -/

/-- One report as its source makes it: its ID, the class it raises, its data word, the CONSEQ flag, whether it was
forced, and the region its owner names instead of the ID's. -/
structure Report where
  src    : Nat
  cls    : Cls
  data   : Nat := 0
  conseq : Bool := false
  forced : Bool := false
  region : Option Region := none
  deriving DecidableEq, Repr

/-- The open record of the report's class in its group (R489). -/
def openOf (g : GroupEntry) : Cls → Option Nat
  | .corrected => g.corr
  | .contained => g.cont
  | .fatal => none

/-- The record a consequence report follows from (R491): an open record of its group, if there is one. -/
def conseqOf (s : State) (r : Report) : Option Nat :=
  let g := getGroup s (r.src / 16)
  if r.conseq then g.cont <|> g.corr else none

/-- R490 and R500: the open record a report escalates from, if it is escalated. -/
def escalatedFrom (s : State) (r : Report) : Option Nat :=
  if s.phase = .safe || s.phase = .beacon || (conseqOf s r).isSome || !sourceEscalates r.src then none
  else openOf (getGroup s (r.src / 16)) r.cls

/-- Open the group entry of a new record (R489): the record before it in the entry closes; a corrected record with
CORR_WIN 0 is closed as it is entered. -/
def openEntry (s : State) (src rseq : Nat) (cls : Cls) : State :=
  let g := src / 16
  match cls with
  | .corrected =>
    if fget s KPR_CTL_CORR_WIN = 0 then closeRecord s rseq
    else
      let s := match (getGroup s g).corr with | some o => closeRecord s o | none => s
      modGroup s g fun e => { e with corr := some rseq }
  | .contained =>
    let s := match (getGroup s g).cont with | some o => closeRecord s o | none => s
    modGroup s g fun e => { e with cont := some rseq, cover := false }
  | .fatal => s

/-- FOGHORN_N on a record of a class (R495). -/
def fogOnRecord (s : State) (cls : Cls) : State :=
  match cls with
  | .corrected => s
  | .contained =>
    let s := modKpr s fun k => { k with pulse := true }
    if fget s KPR_FOGHORN_AUTO_HOLD = 1 then fset s KPR_FOGHORN_HOLD 1 else s
  | .fatal => modKpr s fun k => { k with pulse := true, locked := true }

/-- Causes and PCIe reports of a record's class (Table 17-3). A port's own contained error is reported by Table 04-6
as an Uncorrectable Internal Error of that port's PF. -/
def signalClass (s : State) (src : Nat) (cls : Cls) : State :=
  match cls with
  | .corrected => keeperCause s 0
  | .contained =>
    let s := if 0x280 ≤ src && src < 0x286 then aerReport s (fnId (src - 0x280) 0) 0 else aerReport s (ctlFid s) 1
    keeperCause s 1
  | .fatal => keeperCause s 2

/-- R485 to R491: a report that is not merged: fence, record, group entry, FOGHORN_N, causes, Daymark, and SAFE for
the fatal class. -/
def reportRecord (s : State) (r : Report) : State :=
  let from? := escalatedFrom s r
  let conseq? := conseqOf s r
  let cls := if from?.isSome then r.cls.up else r.cls
  let region := r.region.getD (sourceRegion r.src)
  let opens := conseq?.isNone && sourceEscalates r.src && cls != .fatal
  let (rseq, s) := enterRecord s (recWord3 r.src cls r.cls r.forced from?.isSome conseq?.isSome false) r.data
    (from? <|> conseq?)
  let s := modKpr s fun k => { k with lastRec := tset 0 k.lastRec r.src (rseq + 1) }
  let s := countSource s r.src
  let s := if cls != .corrected && region != .none && s.phase != .safe && s.phase != .beacon then
      modKpr s fun k => { k with fences := k.fences ++ [(rseq, region)] }
    else s
  let s := if opens then openEntry s r.src rseq cls
    else if cls = .corrected && fget s KPR_CTL_CORR_WIN = 0 then closeRecord s rseq else s
  let s := fogOnRecord s cls
  let s := signalClass s r.src cls
  let s := if from?.isSome then
      keeperCause (dmkPush s 0x0001 (r.src % 4096 + cls.code * 4096 + rseq * 65536)) 3
    else s
  let s := if r.forced then dmkPush s 0x0002 (r.src % 4096) else s
  if cls = .fatal then fatalFault s r.src else s

/-- A corrected report that merges into its source's latest record (R488). -/
def reportMerge (s : State) (src slot : Nat) : State :=
  fset (fbump (countSource s src) (recRepeat slot)) KPR_HIST_NEXT_SLOT slot

/-- R494: the report of a source that takes its force bit is forced and carries a data word of 0. -/
def forcedReport (s : State) (r : Report) : Report :=
  if s.kpr.forcing = some r.src then { r with forced := true, data := 0 } else r

/-- A source reports a fault (R485, R488); a forced one records code 0x0002 even when it merges (R494). In OFF nothing is
powered that could report. -/
def report (s : State) (r : Report) : State :=
  let r := forcedReport s r
  if s.phase = .off then s
  else match (if r.cls = .corrected then mergeSlot s r.src else none) with
    | some i =>
      let s := reportMerge s r.src i
      if r.forced then dmkPush s 0x0002 (r.src % 4096) else s
    | none => reportRecord s r

/-- A report of a source with the class of its table. -/
def raise (s : State) (src : Nat) (data : Nat := 0) : State :=
  match sourceClass src with
  | none => s
  | some c => report s { src := src, cls := c, data := data }

/-- R507: an owner's event goes to Daymark; the first overflow of each millisecond raises source 0xB03. -/
def dmkSend (s : State) (code data : Nat) : State :=
  if s.dmk.intake.length < 64 then dmkPush s code data
  else
    let s := dmkPush s code data
    let tick := s.tb.ns / 1000000
    if s.dmk.lossTick = some tick then s
    else raise { s with dmk := { s.dmk with lossTick := some tick } } 0xB03

/-- Lift the fences that belong to a record, as its cover ends with the unit kept (R486). -/
def liftFence (s : State) (rseq : Nat) : State :=
  modKpr s fun k => { k with fences := k.fences.filter (·.1 != rseq) }

/-! ## Retired units and power domains -/

def isRetired (s : State) (u : UnitId) : Bool := s.pwr.retired.contains u

/-- PWR_PD_ON bit of a domain (R94). -/
def pdOn (s : State) (d : Nat) : Bool := fbit s (PWR_PD_ON_ON.ix (d / 32) 4) (d % 32)

def setPdOn (s : State) (d : Nat) (b : Bool) : State := fsetBit s (PWR_PD_ON_ON.ix (d / 32) 4) (d % 32) b

def setPdBusy (s : State) (d : Nat) (b : Bool) : State := fsetBit s (PWR_PD_BUSY_BUSY.ix (d / 32) 4) (d % 32) b

def setPdPend (s : State) (d : Nat) (b : Bool) : State := fsetBit s (PWR_PD_PEND_PEND.ix (d / 32) 4) (d % 32) b

def modPwr (s : State) (f : Power → Power) : State := { s with pwr := f s.pwr }

/-- A unit leaves service for good (R86, R94): it is listed as retired and its domain is off. -/
def retireUnit (s : State) (u : UnitId) : State :=
  let s := modPwr s fun p => { p with retired := if p.retired.contains u then p.retired else p.retired ++ [u] }
  match u.domain with
  | some d => setPdOn s d false
  | none => s

/-! ## Reductions (R69, Table 03-5) -/

/-- Does any reduction of Table 03-5 hold? -/
def anyReduction (s : State) : Bool := fget s GLB_STATUS_REDUCTION != 0

/-- Begin or end reduction `k`; SERVING and DEGRADED follow (Table 03-6). -/
def setReduction (s : State) (k : Nat) (b : Bool) : State :=
  let s := fsetBit s GLB_STATUS_REDUCTION k b
  match s.phase with
  | .serving => if anyReduction s then setPhase s .degraded else s
  | .degraded => if anyReduction s then s else setPhase s .serving
  | _ => s

end Sys2Proof.Machine
end

