-- ==== Sys2Proof/Machine/Daymark.lean ====
section
/-!
DEFINITION. Machine/Daymark.lean: Daymark (18_daymark.md): entries and their CRC, rate limits, the permanent and the
circulating area, the trace port, the cursor registers, persistence.
-/

namespace Sys2Proof.Machine

def modDmk (s : State) (f : Daymark → Daymark) : State := { s with dmk := f s.dmk }

/-- The first 28 bytes of an entry (Table 18-3). -/
def DmkEntry.body (e : DmkEntry) : List Byte :=
  leBytes e.time 8 ++ leBytes e.boot 4 ++ leBytes (e.tseq % 65536 + e.code * 65536) 4 ++ leBytes e.eseq 4 ++
    leBytes e.data 4 ++
    leBytes (e.suppressed % 65536 + b2n e.perm * 0x10000 + b2n e.permOvf * 0x20000 + b2n e.loss * 0x40000) 4

/-- The 32 bytes of an entry, its CRC last; an empty slot reads 0 (R511). -/
def DmkEntry.bytes (e : DmkEntry) : List Byte :=
  if e.code = 0 then leBytes 0 32 else e.body ++ leBytes (crc32c e.body).toNat 4

/-- The eight words of an entry. -/
def DmkEntry.words (e : DmkEntry) : List Word :=
  (List.range 8).map fun i => BitVec.ofNat 32 (leValue ((e.bytes.drop (4 * i)).take 4))

def dmkSlot (s : State) (i : Nat) : DmkEntry := tget {} s.dmk.store i

/-! ## Placing an entry (R508) -/

/-- The lowest empty permanent slot. -/
def permFree (s : State) : Option Nat := (List.range 512).find? fun i => (dmkSlot s i).code == 0

/-- The slot after a circulating slot. -/
def circNext (i : Nat) : Nat := if i ≥ 4095 then 512 else i + 1

/-- The circulating slot `n` places before `i`. -/
def circBack (i n : Nat) : Nat := 512 + (i - 512 + 3584 * 2 - n % 3584) % 3584

/-- Place an entry in the circulating area, over the oldest one when the area is full. -/
def placeCirc (s : State) (e : DmkEntry) : State :=
  let slot := match s.dmk.newest with | some n => circNext n | none => 512
  let used := min (s.dmk.circUsed + 1) 3584
  let s := modDmk s fun d =>
    { d with store := tset {} d.store slot e, newest := some slot, circUsed := used,
             unpersist := min (d.unpersist + 1) 3584 }
  let s := fset (fset s DMK_NEWEST_SLOT slot) DMK_NEWEST_EMPTY 0
  fset (fset s DMK_OLDEST_SLOT (circBack slot (used - 1))) DMK_OLDEST_EMPTY 0

/-- Place an entry in permanent slot `i`. -/
def placePerm (s : State) (i : Nat) (e : DmkEntry) : State :=
  let s := modDmk s fun d => { d with store := tset {} d.store i e, permDirty := true }
  let s := fset s DMK_STATUS_PERM_USED (fget s DMK_STATUS_PERM_USED + 1)
  fset s DMK_STATUS_PERM_FULL (b2n (fget s DMK_STATUS_PERM_USED == 512))

/-! ## The trace port (R43) -/

/-- TRACE runs while GPIO19 to GPIO23 all carry code 0x8. -/
def traceOn (s : State) : Bool :=
  [19, 20, 21, 22, 23].all fun i =>
    bitsGet (rget s (0x100 + 4 * (i / 8))) (4 * (i % 8)) 4 == 8

/-- Send an entry as a frame of 66 nibbles at two nibbles a cycle of 50 MHz, through a queue of 16; a frame after a
loss begins 0xA, 0x6. -/
def traceEntry (s : State) (e : DmkEntry) : State :=
  if !traceOn s then modDmk s fun d => { d with traceEnds := [], traceLost := false }
  else
    let live := s.dmk.traceEnds.filter (· > s.tb.ns)
    if live.length ≥ 16 then modDmk s fun d => { d with traceEnds := live, traceLost := true }
    else
      let fin := max s.tb.ns (live.getLastD 0) + 660
      emit (modDmk s fun d => { d with traceEnds := live ++ [fin], traceLost := false })
        (.traceFrame (if s.dmk.traceLost then 6 else 5) e.bytes)

/-! ## Recording (R506 to R509) -/

/-- A new entry of a code, stamped, numbered and carrying the code's pending count and the LOSS flag. -/
def newEntry (s : State) (code data : Nat) (permOvf : Bool) : DmkEntry × State :=
  let b := getBucket s code
  let (ts, s) := grantStamp s
  let e : DmkEntry :=
    { time := ts.1, boot := s.tb.boot, tseq := ts.2, code := code, eseq := s.dmk.eseq, data := data % 2 ^ 32,
      suppressed := b.pending, perm := b.perm, permOvf := permOvf, loss := s.dmk.lossFlag }
  let s := setBucket s code { b with pending := 0 }
  (e, modDmk s fun d => { d with eseq := (d.eseq + 1) % 2 ^ 32, lossFlag := false })

/-- Record an event whose bucket let it pass: the permanent area takes entries of permanent codes while it has room;
the first that finds it full is preceded by code 0x0B43. -/
def recordEntry (s : State) (code data : Nat) : State :=
  if (getBucket s code).perm then
    match permFree s with
    | some i =>
      let (e, s) := newEntry s code data false
      traceEntry (placePerm s i e) e
    | none =>
      let s := if s.dmk.ovfNoted then s
        else
          let (n, s) := newEntry s 0x0B43 (code % 65536) false
          traceEntry (placeCirc (modDmk s fun d => { d with ovfNoted := true }) n) n
      let (e, s) := newEntry s code data true
      traceEntry (placeCirc s e) e
  else
    let (e, s) := newEntry s code data false
    traceEntry (placeCirc s e) e

/-- R509: record an event if its code's bucket holds a whole token, else count it as suppressed. -/
def grantEvent (s : State) (code data : Nat) : State :=
  let b := (getBucket s code).refill s.tb.ns
  if neverLimited code then recordEntry (setBucket s code b) code data
  else if 1000000000 ≤ b.nano then
    recordEntry (setBucket s code { b with nano := b.nano - 1000000000 }) code data
  else suppress (setBucket s code b) code

/-- DAYMARK_EVENT (R506): the arbiter grants the oldest event of the intake. -/
def execDaymarkEvent (s : State) : Host.Outcome State Fault Refusal :=
  match s.dmk.intake with
  | [] => .next s
  | (code, data) :: rest =>
    .next (grantEvent (modDmk s fun d => { d with intake := rest }) code data)

/-! ## Persistence (R513) -/

/-- The newest `n` circulating entries, oldest first. -/
def circLast (s : State) (n : Nat) : List DmkEntry :=
  match s.dmk.newest with
  | none => []
  | some top => (List.range n).reverse.map fun i => dmkSlot s (circBack top i)

/-- The permanent entries in slot order. -/
def permEntries (s : State) : List DmkEntry :=
  ((List.range 512).map (dmkSlot s)).filter (·.code != 0)

/-- Copy to the flash system area the oldest `n` unpersisted circulating entries and the permanent area; the flash
copy holds the 14 most recent blocks. DMK_PERSIST moves past the last entry written. -/
def persistStore (s : State) (n : Nat) : State :=
  let block := (circLast s s.dmk.unpersist).take n
  let kept := if s.dmk.circClear then [] else s.nv.dmkCirc
  let s := { s with nv := { s.nv with
    dmkPerm := permEntries s
    dmkCirc := (kept ++ block).drop (kept.length + block.length - 14 * 256) } }
  let s := match block.getLast? with
    | some e => fset s DMK_PERSIST_ESEQ ((e.eseq + 1) % 2 ^ 32)
    | none => s
  modDmk s fun d => { d with unpersist := d.unpersist - n, permDirty := false, circClear := false }

/-- A persist has failed: code 0x0B41 and source 0xB02 with the first entry kept back. -/
def persistFailed (s : State) : State :=
  let first := (circLast s s.dmk.unpersist).headD {}
  raise (dmkSend (fset s DMK_STATUS_PERSIST_ERR 1) 0x0B41 first.eseq) 0xB02 first.eseq

/-- DAYMARK_PERSIST (R513): once 256 circulating entries wait, they and a changed permanent area are written; a
failure records code 0x0B41 and source 0xB02, and the entries stay. -/
def execDaymarkPersist (ok : Bool) (s : State) : Host.Outcome State Fault Refusal :=
  if s.dmk.unpersist < 256 then .next s
  else if ok then .next (persistStore s (s.dmk.unpersist / 256 * 256))
  else .next (persistFailed s)

/-! ## The cursor registers (R512) -/

/-- Key offset of the accessor's own copy. -/
def cursorCopy : Accessor → Nat
  | .mgt => mgtCopy
  | _ => 0

def cursorF (a : Accessor) (f : Fld) : Fld := { f with off := f.off + cursorCopy a }

/-- The accessor's snapshot. -/
def winWords (s : State) (a : Accessor) : List Word :=
  match a with
  | .mgt => s.dmk.winMgt
  | _ => s.dmk.winCtl

/-- The entry a window shows: in BEACON only those of the present boot (R93). -/
def winEntry (s : State) (i : Nat) : DmkEntry :=
  let e := dmkSlot s i
  if s.phase = .beacon && e.boot ≠ s.tb.boot then {} else e

/-- A read of DMK_WIN0: snapshot the entry at CURSOR for this accessor. -/
def winSnap (s : State) (a : Accessor) : State :=
  let ws := (winEntry s (fget s (cursorF a DMK_CURSOR_SLOT))).words
  modDmk s fun d => match a with
    | .mgt => { d with winMgt := ws }
    | _ => { d with winCtl := ws }

/-- DMK_WIN0_READ: snapshot, and return its word 0. -/
def execDmkWin0Read (a : Accessor) (s : State) : Host.Outcome State Fault Refusal :=
  let s := winSnap s a
  .next (emit s (.readData ((winWords s a).headD 0).toNat))

/-- The slot after a cursor slot: 511 wraps to 0 and 4,095 to 512. -/
def cursorNext (i : Nat) : Nat := if i = 511 then 0 else if i = 4095 then 512 else i + 1

/-- A read of DMK_WIN7 with AUTO set advances CURSOR. -/
def winAdvance (s : State) (a : Accessor) : State :=
  if fget s (cursorF a DMK_CURSOR_AUTO) = 1 then
    fset s (cursorF a DMK_CURSOR_SLOT) (cursorNext (fget s (cursorF a DMK_CURSOR_SLOT)))
  else s

/-- DMK_WIN7_READ: return word 7 of the snapshot and, with AUTO set, advance CURSOR. -/
def execDmkWin7Read (a : Accessor) (s : State) : Host.Outcome State Fault Refusal :=
  .next (winAdvance (emit s (.readData ((winWords s a).getD 7 0).toNat)) a)

end Sys2Proof.Machine
end

