-- ==== Sys2Proof/Machine/HodBase.lean ====
section
/-!
DEFINITION. Machine/HodBase.lean: Hod's channels and how a command or an event aborts their transfers (15_render_and_hod.md,
R450 to R458).
-/

namespace Sys2Proof.Machine

def getHod (s : State) (c : Nat) : HodChan := tget {} s.hod.chans c

def modHod (s : State) (c : Nat) (f : HodChan → HodChan) : State :=
  { s with hod := { s.hod with chans := tmod {} s.hod.chans c f } }

/-- A field of channel `c`. -/
def hodF (f : Fld) (c : Nat) : Fld := f.ix c 0x80

/-- Is the channel the control PF's (R450)? -/
def hodClaimed (s : State) (c : Nat) : Bool := fbit s HOD_OWN_CLAIM c

/-- Is the channel in service? -/
def hodServes (s : State) (c : Nat) : Bool := c < 16 && pdOn s (33 + c) && !fbit s HOD_STATUS_RETIRED c

/-- Is the channel idle with an empty shadow set? -/
def hodFree (s : State) (c : Nat) : Bool := !(getHod s c).running && fget s (hodF HOD_STAT_LOADED c) == 0

/-! ## The fields of Table 15-5 -/

def HodAct.srcSp (a : HodAct) : Nat := a.cfg0 % 8
def HodAct.dstSp (a : HodAct) : Nat := a.cfg0 / 8 % 8
def HodAct.port (a : HodAct) : Nat := a.cfg0 / 64 % 8
def HodAct.func (a : HodAct) : Nat := a.cfg0 / 1024 % 1024
def HodAct.tenant (a : HodAct) : Nat := a.cfg0 / 2 ^ 20 % 1024
def HodAct.grant (a : HodAct) : Nat := a.cfg1 % 16
def HodAct.fence (a : HodAct) : Bool := a.cfg1 / 16 % 2 == 1
def HodAct.notify (a : HodAct) : Bool := a.cfg1 / 32 % 2 == 1
def HodAct.tag (a : HodAct) : Nat := a.cfg1 / 65536 % 65536

/-- Has the transfer a HOST or PEER end? -/
def HodAct.outside (a : HodAct) : Bool := 2 ≤ a.srcSp || 2 ≤ a.dstSp

/-- The function whose routing ID the transfer uses. -/
def HodAct.fid (a : HodAct) : Nat := fnId a.port a.func

/-- An active set as the eight words of a register set give it. -/
def hodActOf (ws : List Word) : HodAct :=
  let w := fun i => (ws.getD i 0).toNat
  { src := w 0 + w 1 * 2 ^ 32, dst := w 2 + w 3 * 2 ^ 32, rem := w 4, cfg0 := w 5, cfg1 := w 6, crc := w 7, words := ws }

/-- The shadow set's words. -/
def hodShadow (s : State) (c : Nat) : List Word := (List.range 8).map fun i => rget s (0x1180000 + 0x80 * c + 4 * i)

/-- RESULT of the last command. -/
def hodResult (s : State) (c r : Nat) : State := fset s (hodF HOD_STAT_RESULT c) r

/-- A set becomes the active set of an idle channel and starts. -/
def hodStart (s : State) (c : Nat) (ws : List Word) : State :=
  fset (modHod s c fun h => { h with act := hodActOf ws, running := true }) (hodF HOD_STAT_STATE c) 1

/-- Discard a LOADED shadow (R453, R455). -/
def hodDiscard (s : State) (c : Nat) : State :=
  if fget s (hodF HOD_STAT_LOADED c) = 0 then s
  else fset (fset s (hodF HOD_STAT_LOADED c) 0) (hodF HOD_STAT_DISCARDED c) 1

/-- A latched release takes effect on a channel that is idle with an empty shadow (R450). -/
def hodSettle (s : State) (c : Nat) : State :=
  if (getHod s c).release && hodFree s c then
    modHod (fsetBit s HOD_OWN_CLAIM c false) c fun h => { h with release := false }
  else s

/-- A transfer that waited for a channel starts on one that is free. -/
def hodTake (s : State) (c : Nat) : State :=
  if hodServes s c && hodFree s c && !hodClaimed s c && fget s (hodF HOD_STAT_PAUSED c) == 0 then
    match s.hod.waiting with
    | [] => s
    | (ws, loaded, flow) :: rest =>
      let s := modHod { s with hod := { s.hod with waiting := rest } } c fun h => { h with flow := flow }
      let s := hodStart s c ws
      match loaded with
      | none => s
      | some l =>
        let s := l.zipIdx.foldl (fun s (w, i) => rset s (0x1180000 + 0x80 * c + 4 * i) w) s
        fset s (hodF HOD_STAT_LOADED c) 1
  else s

/-- The end of a transfer with LAST code `last` (R453 to R455): a LOADED shadow is promoted when it ends DONE on a channel
that is not paused, and discarded when it ends otherwise; the control PF is notified as NOTIFY asks. -/
def hodEnd (s : State) (c last : Nat) : State :=
  let a := (getHod s c).act
  let pausing := fget s (hodF HOD_STAT_STATE c) == 2
  let s := fset (fset s (hodF HOD_STAT_LAST c) last) (hodF HOD_STAT_TAG c) a.tag
  let s := fset (modHod s c fun h => { h with running := false }) (hodF HOD_STAT_STATE c) 0
  let s := if pausing then fset s (hodF HOD_STAT_PAUSED c) 1 else s
  let s := if hodClaimed s c then (if a.notify then msixSend s (ctlFid s) (fget s HOD_OWN_VECTOR) else s)
    else emit s (.mediaDone (0x390 + c) a.tag last)
  if last ≠ 1 then hodTake (hodSettle (hodDiscard s c) c) c
  else if fget s (hodF HOD_STAT_LOADED c) = 1 && fget s (hodF HOD_STAT_PAUSED c) == 0 then
    hodStart (fset s (hodF HOD_STAT_LOADED c) 0) c (hodShadow s c)
  else if fget s (hodF HOD_STAT_LOADED c) = 1 then s
  else hodTake (hodSettle s c) c

/-- ABORT (R455): a running transfer drains; a paused one ends at once; on an idle channel only the shadow goes. -/
def hodAbort (s : State) (c : Nat) : State :=
  if !(getHod s c).running then hodTake (hodSettle (fset (hodDiscard s c) (hodF HOD_STAT_PAUSED c) 0) c) c
  else if fget s (hodF HOD_STAT_PAUSED c) = 1 then hodEnd (fset s (hodF HOD_STAT_PAUSED c) 0) c 2
  else fset s (hodF HOD_STAT_STATE c) 3

/-- Abort every running transfer that `p` selects (R458). -/
def hodAbortWhere (s : State) (p : HodAct → Bool) : State :=
  (List.range 16).foldl (fun s c => if (getHod s c).running && p (getHod s c).act then hodAbort s c else s) s

/-- R458: a fence from Ballast, the warm stop or SAFE entry. -/
def hodFence (s : State) : State := hodAbortWhere s HodAct.outside

/-- R458: a function's teardown. -/
def hodAbortFn (s : State) (fid : Nat) : State := hodAbortWhere s fun a => a.outside && a.fid == fid

end Sys2Proof.Machine
end

