-- ==== Sys2Proof/Machine/Journal.lean ====
section
/-!
DEFINITION. Machine/Journal.lean: the accepted-command journal, queue pairs, completion entries and the freeze of a
submission queue, and the settlement of commands that a teardown cuts short (05_queues_and_journal.md; R115).
-/

namespace Sys2Proof.Machine

/-! ## The journal (R162 to R168) -/

def modJrn (s : State) (f : Journal → Journal) : State := { s with jrn := f s.jrn }

/-- Slot of a SEQ in the ring of 1,048,576 entries. -/
def jrnSlot (seq : Nat) : Nat := seq % 1048576

/-- R165: is the slot of the next SEQ free, or freed by parking the ACCEPTED entry it holds? Before BRINGUP step 1 has
restored the journal, no SEQ is issued (R167). -/
def jrnRoom (s : State) : Bool :=
  let e := tget {} s.jrn.ring (jrnSlot s.jrn.next)
  s.jrn.next != 0 && (e.state == 0 || (if e.state = 1 then decide (s.jrn.park.length < 4096) else e.saved))

/-- Write the next entry, parking an ACCEPTED entry that holds its slot. -/
def jrnPut (s : State) (e : JrnEntry) : State :=
  let seq := s.jrn.next
  let old := tget {} s.jrn.ring (jrnSlot seq)
  modJrn s fun j =>
    { j with park := if old.state = 1 then tset {} j.park old.seq old else j.park
             ring := tset {} j.ring (jrnSlot seq) { e with seq := seq, boot := s.tb.boot % 65536, saved := false }
             next := seq + 1 }

/-- Write the waiting markers that find room, oldest first. -/
def jrnDrain (s : State) : List JrnEntry → State
  | [] => modJrn s fun j => { j with waiting := [] }
  | e :: rest => if jrnRoom s then jrnDrain (jrnPut s e) rest else modJrn s fun j => { j with waiting := e :: rest }

/-- R164: a marker entry, COMPLETED; it waits for a free slot like any entry. -/
def jrnMarker (s : State) (code tenant nsid slba : Nat) : State :=
  jrnDrain s (s.jrn.waiting ++
    [{ tenant := tenant, queue := 0xF, state := 2, cid := 0xFFFF, opc := code, nsid := nsid, slba := slba }])

/-- The entry of a SEQ, in the ring or the park area. -/
def jrnFind (s : State) (seq : Nat) : Option JrnEntry :=
  let e := tget {} s.jrn.ring (jrnSlot seq)
  if e.seq = seq && e.state ≠ 0 then some e
  else
    let p := tget {} s.jrn.park seq
    if p.state ≠ 0 then some p else none

/-- R164: give an entry its final state. -/
def jrnFinal (s : State) (seq status : Nat) : State :=
  let fin := fun (e : JrnEntry) => { e with state := if status = 0 then 2 else 3, status := status, saved := false }
  let e := tget {} s.jrn.ring (jrnSlot seq)
  modJrn s fun j =>
    if e.seq = seq && e.state ≠ 0 then { j with ring := tset {} j.ring (jrnSlot seq) (fin e) }
    else if (tget {} j.park seq).state ≠ 0 then { j with park := tmod {} j.park seq fin }
    else j

/-- The entries of ring, park area and flash history together, by SEQ (R167). -/
def jrnAll (s : State) : Tbl JrnEntry :=
  let t := s.jrn.ring.foldl (fun t e => tset {} t e.2.seq { e.2 with saved := false })
    (s.nv.journal.map fun e => (e.1, { e.2 with saved := false }))
  s.jrn.park.foldl (fun t e => tset {} t e.1 { e.2 with saved := false }) t

/-- XQ_JRN_OLDEST: the oldest SEQ held. -/
def jrnOldest (s : State) : Nat := match jrnAll s with | [] => s.jrn.next | e :: _ => e.1

/-- XQ_JRN_PERSIST: every entry with a lower SEQ has its latest state in flash. -/
def jrnPersist (s : State) : Nat :=
  let open_ := (s.jrn.ring.filter fun e => !e.2.saved).map (·.2.seq) ++ (s.jrn.park.filter fun e => !e.2.saved).map (·.1)
  open_.foldl min s.jrn.next

/-- The first 30 bytes of an entry (Table 05-12). -/
def JrnEntry.body (e : JrnEntry) : List Byte :=
  leBytes e.seq 8 ++ leBytes (e.tenant % 1024 + e.queue % 16 * 1024 + e.state * 16384 + e.cid * 65536) 4 ++
    leBytes (e.opc % 256 + e.nsid % 16 * 256 + e.status * 65536) 4 ++ leBytes e.slba 8 ++ leBytes e.nlb 4 ++
    leBytes e.boot 2

/-- The 32 bytes of an entry, its CRC-16 last; an EMPTY slot reads 0. -/
def JrnEntry.bytes (e : JrnEntry) : List Byte :=
  if e.state = 0 then leBytes 0 32 else e.body ++ leBytes (crc16 e.body).toNat 2

/-! ## Functions and queue pairs -/

/-- The XQ_ instance's key base of a function (R128). -/
def xqBase (s : State) (fid : Nat) : Nat := if fid = ctlFid s then 0x200000 else xqVfBase + fid * 0x10000

def xqF (s : State) (fid : Nat) (f : Fld) : Fld := { f with off := f.off + xqBase s fid }

def qpKey (fid q : Nat) : Nat := fid * 16 + q

def getQp (s : State) (fid q : Nat) : QPair := tget {} s.qps (qpKey fid q)

def modQp (s : State) (fid q : Nat) (f : QPair → QPair) : State := { s with qps := tmod {} s.qps (qpKey fid q) f }

def dropQp (s : State) (fid q : Nat) : State := { s with qps := tset {} s.qps (qpKey fid q) {} }

/-- Port of a function number and its number on the port. -/
def fidPort (fid : Nat) : Nat := fid / 1024
def fidVf (fid : Nat) : Nat := fid % 1024

/-- R106: the tenant a function serves; 0x3FF for the control PF. -/
def tenantOf (s : State) (fid : Nat) : Nat :=
  if fidVf fid = 0 then 0x3FF
  else 8 * fget s (HPT_FUNCS_FIRST_BLOCK.ix (fidPort fid) 0x1000) + fidVf fid - 1

/-- R104, R107: does the function exist now? -/
def fnExists (s : State) (fid : Nat) : Bool :=
  let p := fidPort fid
  let n := fidVf fid
  p < 6 && fget s (HPT_FUNCS_PRESENT.ix p 0x1000) == 1 &&
    (n == 0 || ((getFn s (fnId p 0)).vfEnable && n ≤ (getFn s (fnId p 0)).numVfs && s.phase != .beacon))

/-- Unconsumed completion entries of a pair. -/
def QPair.unread (p : QPair) : Nat := (p.cqTail + p.size - p.cqHead) % max p.size 1

/-- Entries submitted and not fetched. -/
def QPair.waiting (p : QPair) : Nat := (p.sqTail + p.size - p.sqHead) % max p.size 1

/-- The index `n` places on. -/
def QPair.adv (p : QPair) (i n : Nat) : Nat := (i + n) % max p.size 1

/-! ## Requests on a function's behalf (R121) -/

/-- Lengths into which a transfer of `len` bytes from `addr` is cut: none above `cap`, none across a 4 KiB boundary.
`fuel` bounds the number of pieces. -/
def cutTransfer : Nat → Nat → Nat → Nat → List (Nat × Nat)
  | 0, _, _, _ => []
  | fuel + 1, cap, addr, len =>
    if len = 0 then []
    else
      let n := min len (min cap (4096 - addr % 4096))
      (addr, n) :: cutTransfer fuel cap (addr + n) (len - n)

/-- Read host memory for a function. -/
def hostGet (s : State) (fid addr len : Nat) : State :=
  (cutTransfer len (min 4096 (max 128 (getFn s fid).maxReadReq)) addr len).foldl
    (fun s p => emit s (.hostRead fid p.1 p.2)) s

/-- Write host memory for a function. -/
def hostPut (s : State) (fid addr : Nat) (data : List Byte) : State :=
  (cutTransfer data.length (max 128 (getFn s fid).maxPayload) addr data.length).foldl
    (fun s p => emit s (.hostWrite fid p.1 ((data.drop (p.1 - addr)).take p.2))) s

/-! ## Completion (R134, R135, R158) -/

/-- The eight words of a fresh XQ_ERRLOG record. -/
def errWords (c : Cmd) (seq status : Nat) : List Nat :=
  let slba := if c.admin then c.sqe.cdw0 % 2 ^ 32 + c.sqe.cdw1 * 2 ^ 32 else c.sqe.slba
  [c.sqe.cid % 65536 + status * 65536, c.index % 65536 + c.sqe.opc % 256 * 65536 + 0x1000000,
   seq, seq / 2 ^ 32, slba, slba / 2 ^ 32, if c.admin then c.sqe.cdw2 else c.sqe.nlb,
   c.sqe.nsid % 16 + c.sqe.flags % 256 * 256]

/-- Record the failure that freezes a queue, or set MORE while it is frozen. -/
def logFailure (s : State) (fid q : Nat) (ws : List Nat) : State :=
  let base := xqBase s fid + 0x2000 + 0x20 * q
  if (getQp s fid q).frozen then fset s ⟨base + 4, 25, 1⟩ 1
  else
    let s := (List.range 8).foldl (fun s i => rset s (base + 4 * i) (BitVec.ofNat 32 (ws.getD i 0))) s
    modQp s fid q fun p => { p with frozen := true, freezeHead := p.sqHead }

/-- Write one completion entry and send its message (R134, R135); a status other than 0 freezes the queue (R158). -/
def postCqe (s : State) (fid q cid status result : Nat) (ws : List Nat) : State :=
  let s := if status = 0 then s else logFailure s fid q ws
  let p := getQp s fid q
  let s := emit s (.cqe fid q cid status (if p.frozen then p.freezeHead else p.sqHead) p.frozen p.cqPhase result)
  let s := modQp s fid q fun p =>
    { p with cqTail := p.adv p.cqTail 1, cqPhase := if p.cqTail + 1 = p.size then !p.cqPhase else p.cqPhase }
  if p.ien then msixSend s fid p.vector else s

/-- The words of the record of a failed fetch or of SAFE's own entry: no SQE was read (R158, R161). -/
def noSqeWords (status index : Nat) : List Nat := [0xFFFF + status * 65536, index % 65536 + 0x1000000, 0, 0, 0, 0, 0, 0]

/-- R158, R161: a completion entry with no SQE behind it. Its RESULT is open: the spec gives it no value. -/
def postNoSqe (s : State) (fid q status : Nat) : State :=
  let (r, s) := drawFree s
  postCqe s fid q 0xFFFF status (r % 2 ^ 32) (noSqeWords status (getQp s fid q).sqHead)

/-! ## Commands in flight -/

def getCmd (s : State) (seq : Nat) : Option Cmd :=
  (s.cmds.find? (·.1 == seq)).map (·.2)

/-- The value an unlisted SEQ reads as: no command. -/
def noCmd : Cmd := { fid := 0, q := 0, index := 0, tenant := 0, sqe := {}, admin := false }

def putCmd (s : State) (seq : Nat) (c : Cmd) : State := { s with cmds := tset noCmd s.cmds seq c }

def dropCmd (s : State) (seq : Nat) : State := { s with cmds := tset noCmd s.cmds seq noCmd }

/-- A command has ended with a status; its completion is posted by COMMAND_COMPLETE. -/
def setDone (s : State) (seq status : Nat) (result : Option Nat := none) : State :=
  match getCmd s seq with
  | none => s
  | some c =>
    if c.done.isSome then s
    else putCmd s seq { c with done := some status, result := result.getD (seq % 2 ^ 32) }

/-- Does the command change data (R141, R156)? -/
def Cmd.changes (c : Cmd) : Bool := !c.admin && (c.sqe.opc == 1 || c.sqe.opc == 8 || c.sqe.opc == 9)

/-- R115: settle one command that a teardown or a deletion cuts short: a write whose data is fetched in full goes on
to its copies and completes without a CQE; every other one stops with 0x010D in the journal. -/
def settleCmd (s : State) (seq : Nat) (c : Cmd) : State :=
  let goesOn := c.changes && (if c.sqe.opc = 1 then c.fetched else c.applied) && (c.done == none || c.done == some 0)
  if c.noCqe then s
  else if goesOn then putCmd s seq { c with noCqe := true }
  else putCmd s seq { c with noCqe := true, done := some (match c.done with | some (n + 1) => n + 1 | _ => 0x10D) }

/-- Settle every command that `p` selects. -/
def settleWhere (s : State) (p : Cmd → Bool) : State :=
  s.cmds.foldl (fun s e => if p e.2 then settleCmd s e.1 e.2 else s) s

/-- Has a function, or a pair of it, a command in flight? -/
def fnBusyCmds (s : State) (fid : Nat) : Bool := s.cmds.any fun e => e.2.fid == fid
def qpBusyCmds (s : State) (fid q : Nat) : Bool := s.cmds.any fun e => e.2.fid == fid && e.2.q == q

/-! ## Admin queue set-up (R127) -/

/-- Create the admin pair from XQ_AQ_CFG and the base registers. -/
def createAq (s : State) (fid : Nat) (cfg sqb cqb : Nat) : State :=
  let w := BitVec.ofNat 32 cfg
  modQp s fid 0 fun _ =>
    { mode := if s.jrn.open_ then 2 else 1, size := 2 ^ bitsGet w 0 4, ien := bitsGet w 7 1 == 1
      vector := bitsGet w 8 6, sqBase := sqb, cqBase := cqb }

/-- The ring bases the registers hold. -/
def aqBases (s : State) (fid : Nat) : Nat × Nat :=
  let b := xqBase s fid
  ((rget s (b + 0x808)).toNat + (rget s (b + 0x80C)).toNat * 2 ^ 32,
   (rget s (b + 0x810)).toNat + (rget s (b + 0x814)).toNat * 2 ^ 32)

/-- End the deletion of a pair once nothing of it is in flight; a latched re-creation of the admin pair follows. -/
def finishDelete (s : State) (fid q : Nat) : State :=
  let p := getQp s fid q
  if p.mode = 3 && !qpBusyCmds s fid q && (getFn s fid).teardown == 0 then
    let s := dropQp s fid q
    if q = 0 && p.latchEn then
      let b := aqBases s fid
      createAq s fid (rget s (xqBase s fid + 0x800)).toNat b.1 b.2
    else s
  else s

/-- Post the completion of a command, or settle it silently, and take it out of flight (R135, R164). -/
def finishCmd (s : State) (seq : Nat) (c : Cmd) (status : Nat) : State :=
  let s := jrnFinal s seq status
  let s := modQp s c.fid c.q fun p => { p with out := p.out - 1 }
  let s := if c.noCqe then s else postCqe s c.fid c.q c.sqe.cid status c.result (errWords c seq status)
  finishDelete (dropCmd s seq) c.fid c.q

end Sys2Proof.Machine
end

