-- ==== Sys2Proof/Machine/Loader.lean ====
section
/-!
DEFINITION. Machine/Loader.lean: the NOR, its boot records and the NOR commands, the order in which slots are tried,
and the checks of a slot (03_bring_up_and_image.md, R72 to R84).
-/

namespace Sys2Proof.Machine

/-! ## Boot records (R73, R74) -/

/-- Validity of a record (R73). -/
def BootRec.valid (r : BootRec) : Bool := !r.torn && r.lastGood < 3 && r.trial < 3

/-- The valid record with the highest SEQ of a sector. -/
def BootSector.best (x : BootSector) : Option BootRec :=
  x.recs.foldl (fun b r => if r.valid && (match b with | none => true | some o => o.seq < r.seq) then some r else b) none

/-- The current record of the NOR and whether it lies in sector B. -/
def currentRec (nv : NonVolatile) : Option BootRec × Bool :=
  match nv.sectorA.best, nv.sectorB.best with
  | none, none => (none, false)
  | some a, none => (some a, false)
  | none, some b => (some b, true)
  | some a, some b => if a.seq < b.seq then (some b, true) else (some a, false)

def BootSector.erased (x : BootSector) : Bool := x.recs.isEmpty && !x.dirty

/-- Is a sector full? It holds 2,048 records of 32 bytes. -/
def BootSector.full (x : BootSector) : Bool := 2048 ≤ x.recs.length

def setSector (nv : NonVolatile) (b : Bool) (x : BootSector) : NonVolatile :=
  if b then { nv with sectorB := x } else { nv with sectorA := x }

def getSector (nv : NonVolatile) (b : Bool) : BootSector := if b then nv.sectorB else nv.sectorA

/-- The SEQ the next record takes. -/
def nextSeq (nv : NonVolatile) : Nat := match (currentRec nv).1 with | some r => r.seq + 1 | none => 1

/-- R74: write a record to the first erased position after the current record, moving to the other sector when the
current one is full; none when the other sector is needed and is not wholly erased. -/
def appendRec (nv : NonVolatile) (r : BootRec) : Option NonVolatile :=
  let cur := (currentRec nv).2
  let r := { r with seq := nextSeq nv }
  let x := getSector nv cur
  if x.full then
    if (getSector nv (!cur)).erased then some (setSector nv (!cur) { recs := [r] }) else none
  else some (setSector nv cur { x with recs := x.recs ++ [r] })

/-- Append a record, erasing the other sector first where R74 calls for it. -/
def appendErasing (nv : NonVolatile) (r : BootRec) : NonVolatile :=
  match appendRec nv r with
  | some n => n
  | none =>
    let cur := (currentRec nv).2
    setSector nv (!cur) { recs := [{ r with seq := nextSeq nv }] }

/-- R74 in DISCOVERY: the sector that does not hold the current record is erased once the current one holds more
than 1,024 records. -/
def tidySectors (nv : NonVolatile) : NonVolatile :=
  let cur := (currentRec nv).2
  if 1024 < (getSector nv cur).recs.length then setSector nv (!cur) {} else nv

/-- The 32 bytes of a record (Table 03-8); a torn record's CRC does not match. -/
def BootRec.bytes (r : BootRec) : List Byte :=
  let b := leBytes 0x52424158 4 ++ leBytes r.seq 4 ++ leBytes r.bootCount 4 ++
    leBytes (r.lastGood % 4 + r.trial % 4 * 4 + r.tries % 4 * 16) 1 ++ leBytes 0 15
  b ++ leBytes ((crc32 b).toNat + if r.torn then 1 else 0) 4

/-! ## The loader's start (R37, R68, R72, R83) -/

/-- The link registers of a port whose link is down (R101). -/
def portIdle (s : State) (p : Nat) : State :=
  fsetBit (fset (rset s (0x100000 + 0x1000 * p) 0) (HPT_CAPACITY_CAP.ix p 0x1000) 0) HPT_STATUS_LINK_UP p false

/-- Does a host port work, as far as BEACON asks (R93)? -/
def portUsable (s : State) (p : Nat) : Bool := pdOn s p && !isRetired s (.hostPort p)

/-- The port that carries the control PF in BEACON (R93). -/
def beaconPort (s : State) : Nat :=
  let img := if s.loader.img.isSome then fget s HPT_STATUS_CTL_PORT else 6
  if img < 6 && portUsable s img then img else ((List.range 6).find? (portUsable s)).getD (fget s HPT_STATUS_CTL_PORT)

/-- Only the port of the control PF trains in BEACON; every other one goes to electrical idle (R103). -/
def beaconPorts (s : State) : State :=
  let ctl := beaconPort s
  let one := fun (s : State) (p : Nat) =>
    let s := fset s (HPT_FUNCS_CONTROL.ix p 0x1000) (b2n (p == ctl))
    let x := tget {} s.ports p
    let train := p == ctl && !x.perst && !fbit s HPT_STATUS_LINK_UP p
    let s := { s with ports := tset {} s.ports p { x with training := train } }
    if p = ctl then fset s (HPT_FUNCS_PRESENT.ix p 0x1000) 1 else portIdle s p
  (List.range 6).foldl one (fset s HPT_STATUS_CTL_PORT ctl)

/-- Enter BEACON with a cause (R70, R93): bypass outputs low, one port, no queue, FOGHORN_N low while it lasts. -/
def enterBeacon (s : State) (cause : Nat) (src : Nat := 0) : State :=
  beaconPorts (fset (fset (setPhase s .beacon src cause) GLB_BOOT_BEACON_CAUSE cause) OZP_STATUS_BYP_HOLD 0)

/-- Set the boot count of this boot (R68, GLB_BOOTCNT, R22). -/
def setBoot (s : State) (n : Nat) : State :=
  fset { s with tb := { s.tb with boot := n }, rst := { s.rst with prevBoot := n } } GLB_BOOTCNT_BOOT_COUNT n

/-- The boot count where no record is read (R68). -/
def bootNoRecord (s : State) : State := setBoot s (s.rst.prevBoot + 1)

/-- GLB_BOOT's record fields. -/
def showRecord (s : State) (lastGood trial tries : Nat) : State :=
  fset (fset (fset s GLB_BOOT_LAST_GOOD lastGood) GLB_BOOT_TRIAL trial) GLB_BOOT_TRIES tries

/-- The other slot: 1 is A, 2 is B. -/
def otherSlot (x : Nat) : Nat := 3 - x

/-- R83: the slots to try, the trial and the tries of the record appended at this boot. -/
def slotOrder (lastGood trial tries : Nat) : List Nat × Nat × Nat :=
  if trial ≠ 0 && tries < 3 then ([trial, otherSlot trial], trial, tries + 1)
  else
    let first := if lastGood ≠ 0 then lastGood else 1
    ([first, otherSlot first], 0, 0)

/-- LOADER_START: the loader samples TEST_EN, reads SFDP and the boot records, appends a record and orders the
slots. When the record cannot be written (R74) it is owed until DISCOVERY and no trial is taken. -/
def execLoaderStart (testEn norPresent sfdpOk : Bool) (size : Nat) (s : State) : Host.Outcome State Fault Refusal :=
  if s.phase ≠ .loading || s.loader.started then .next s
  else
    let s := { s with loader := { s.loader with started := true } }
    if testEn then .next (enterBeacon (bootNoRecord s) 3)
    else if !norPresent || !sfdpOk || size < 0x4000000 || 0x20000000 < size then .next (enterBeacon (bootNoRecord s) 2)
    else
      let s := { s with nv := { s.nv with norSize := size } }
      let rec? := (currentRec s.nv).1
      let boot := (match rec? with | some r => r.bootCount | none => 0) + 1
      let lg := match rec? with | some r => r.lastGood | none => 0
      let o := slotOrder lg (match rec? with | some r => r.trial | none => 0)
        (match rec? with | some r => r.tries | none => 0)
      let s := setBoot s boot
      match appendRec s.nv { seq := 0, bootCount := boot, lastGood := lg, trial := o.2.1, tries := o.2.2 } with
      | some nv =>
        .next (showRecord { s with nv := nv, loader := { s.loader with
          order := o.1, trial := o.2.1, tries := o.2.2, lastGood := lg } } lg o.2.1 o.2.2)
      | none =>
        let first := if lg ≠ 0 then lg else 1
        let s := raise s 0xB82
        .next (showRecord { s with loader := { s.loader with
          order := [first, otherSlot first], trial := 0, tries := 0, lastGood := lg,
          owed := some { seq := 0, bootCount := boot, lastGood := lg, trial := 0, tries := 0 } } } lg 0 0)

/-! ## Slot checks (R76, R79 to R81, Table 03-13) -/

/-- R76: alignment, place before the signature block, no overlap, each type once, every CRC. -/
def sectionsOk (f : SlotFacts) : Bool :=
  f.sections.all (fun e => e.offset % 4096 == 0 && 0x1000 ≤ e.offset && e.offset + e.length ≤ f.imageLen - 512 && e.crcOk) &&
    decide (f.sections.Pairwise fun a b =>
      a.typ ≠ b.typ ∧ (a.offset + a.length ≤ b.offset ∨ b.offset + b.length ≤ a.offset))

/-- R80: the operator signature check against the OTP hash. -/
def operatorOk (opHash : Option Nat) (f : SlotFacts) : Bool :=
  match opHash with
  | some h => f.opSigned && f.opKeyHash == h && f.opSigOk
  | none => if f.opSigned then f.opSigOk else f.opZero

/-- Byte-wise bounds of check 10. -/
def tableFmtOk (fmt lo hi : List Nat) : Bool :=
  (List.range 4).all fun i => lo.getD i 0 ≤ fmt.getD i 0 && fmt.getD i 0 ≤ hi.getD i 0

/-- The types of Table 03-11 that every image needs, and those it needs with flash or with an HDA. -/
def neededTypes (img : Image) : List Nat :=
  [0x0001, 0x0010, 0x0011, 0x0016, 0x0017, 0x0018] ++
    (if img.platform.flashPresent.any id then [0x0012] else []) ++
    (if img.platform.hdaPresent.any id then [0x0013, 0x0014, 0x0015, 0x001B] else [])

/-- Table 03-13: the reason code of the first check that fails; none when every check passes. `rules` is the outcome
of the owning chapters' rules on the sections' content (R548). -/
def slotReason (opHash : Option Nat) (revoked : List Nat) (rules : Bool) (f : SlotFacts) : Option Nat :=
  if !f.readOk then some 0xC
  else if !f.headerOk then some 0x1
  else if !(f.stepLo ≤ 0x10 && 0x10 ≤ f.stepHi) then some 0x2
  else if !operatorOk opHash f then some 0x3
  else if !sectionsOk f then some 0x4
  else if (f.sections.filter (·.typ == 1)).length ≠ 1 || revoked.contains f.bundle.keyIndex || 4 ≤ f.bundle.keyIndex then
    some 0x6
  else if !f.bundle.sigOk then some 0x5
  else if !(f.img.ucodeVer == f.bundle.ucodeVer && f.bundle.stepLo ≤ 0x10 && 0x10 ≤ f.bundle.stepHi &&
      f.bundle.ucodeVer / 0x10000 == 2) then some 0x7
  else if !(f.bundle.graphFmts / 2 ^ f.graphFmt % 2 == 1) then some 0x8
  else if !tableFmtOk f.img.tableFmt f.bundle.tableMin f.bundle.tableMax then some 0x9
  else if f.sections.any (fun e => e.required && !f.bundle.knownTypes.contains e.typ) then some 0xA
  else if !((neededTypes f.img).all (fun t => f.sections.any (·.typ == t)) && rules) then some 0xB
  else none

/-- R81: is the Skim region installed from this slot? -/
def skimInstalls (enrolled : Bool) (f : SlotFacts) : Bool :=
  f.skim && enrolled && f.img.skimIf / 0x10000 == f.bundle.entryIf / 0x10000 &&
    (f.img.skimIf % 0x10000 ≤ f.bundle.entryIf % 0x10000 || f.img.skimSubset)

/-- Bundle-known Daymark code for ignored sections: how many sections of unknown type the slot carries (R79). -/
def unknownSections (f : SlotFacts) : Nat := (f.sections.filter fun e => !f.bundle.knownTypes.contains e.typ).length

/-! ## NOR commands (R84) -/

/-- Length of a slot (R72). -/
def slotLen (s : State) : Nat := (s.nv.norSize - 0x20000) / 2

/-- Does NOR address `a` lie in slot `x` (1 A, 2 B)? -/
def inSlot (s : State) (x a : Nat) : Bool :=
  let base := 0x20000 + (x - 1) * slotLen s
  x ≠ 0 && base ≤ a && a < base + slotLen s

/-- The result a NOR command ends with before it runs, in R84's order of judgement: 5 STATE, 3 RANGE, 2 ALIGN,
1 PROTECTED. -/
def norJudge (s : State) (op addr slot : Nat) : Option Nat :=
  let booted := if s.phase = .beacon then 0 else fget s GLB_BOOT_SLOT
  let uses := op = 1 || op = 2 || op = 3
  if s.phase = .loading || s.phase = .ballast then some 5
  else if uses && s.nv.norSize ≤ addr then some 3
  else if (op = 1 || op = 2) && addr % 0x1000 ≠ 0 then some 2
  else if op = 3 && addr % 0x10000 ≠ 0 then some 2
  else if (op = 2 || op = 3) && (addr < 0x20000 || inSlot s booted addr) then some 1
  else if op = 4 && booted ≠ 0 && slot = booted then some 1
  else none

/-- A write of GLB_NOR_CMD that names a command: discarded while BUSY, ended at once with its result, or started. -/
def norStart (s : State) (op slot : Nat) : State :=
  if fget s GLB_NOR_STAT_BUSY = 1 then fset s GLB_NOR_STAT_OVERRUN 1
  else
    let addr := fget s GLB_NOR_ADDR_ADDR
    match norJudge s op addr slot with
    | some r => fset s GLB_NOR_STAT_RESULT r
    | none => fset { s with norCmd := some ⟨op, addr, slot⟩ } GLB_NOR_STAT_BUSY 1

/-- NOR_READ. -/
def execNorRead (s : State) : Host.Outcome State Fault Refusal := .next (norStart s 1 0)

/-- NOR_PROGRAM. -/
def execNorProgram (s : State) : Host.Outcome State Fault Refusal := .next (norStart s 2 0)

/-- NOR_ERASE. -/
def execNorErase (s : State) : Host.Outcome State Fault Refusal := .next (norStart s 3 0)

/-- MARK_TRIAL; a SLOT of 0b00 or 0b11 is reserved. -/
def execMarkTrial (slot : Nat) (s : State) : Host.Outcome State Fault Refusal :=
  if slot = 1 || slot = 2 then .next (norStart s 4 slot) else .next (fset s GLB_STATUS_RSV_WRITE 1)

/-- CLEAR_TRIAL. -/
def execClearTrial (s : State) : Host.Outcome State Fault Refusal := .next (norStart s 5 0)

/-- A NOR byte: the boot-record area is read from the records, an erased byte reads 0xFF. -/
def norByte (s : State) (a : Nat) : Byte :=
  if a < 0x20000 then
    match (getSector s.nv (0x10000 ≤ a)).recs[a % 0x10000 / 32]? with
    | some r => r.bytes.getD (a % 32) 0xFF
    | none => 0xFF
  else tget 0xFF s.nv.nor a

/-- The word of GLB_NOR_BUF at index `i`. -/
def norBufF (i : Nat) : Fld := ⟨0x1000 + 4 * i, 0, 32⟩

/-- Load 4 KiB of the NOR into GLB_NOR_BUF. -/
def norLoad (s : State) (addr : Nat) : State :=
  (List.range 1024).foldl (fun t i =>
    fset t (norBufF i) (leValue ((List.range 4).map fun j => norByte s (addr + 4 * i + j)))) s

/-- Program GLB_NOR_BUF at an address: programming only clears bits. -/
def norProgram (s : State) (addr : Nat) : State :=
  let byte := fun j => BitVec.ofNat 8 (fget s (norBufF (j / 4)) / 2 ^ (8 * (j % 4)))
  let m := (List.range 4096).foldl (fun m j => tset 0xFF m (addr + j) (tget 0xFF m (addr + j) &&& byte j)) s.nv.nor
  { s with nv := { s.nv with nor := m } }

/-- Does the NOR read back as GLB_NOR_BUF? -/
def norMatches (s : State) (addr : Nat) : Bool :=
  (List.range 4096).all fun j =>
    tget 0xFF s.nv.nor (addr + j) == BitVec.ofNat 8 (fget s (norBufF (j / 4)) / 2 ^ (8 * (j % 4)))

/-- The record MARK_TRIAL or CLEAR_TRIAL appends. -/
def trialRec (s : State) (slot : Nat) : BootRec :=
  { seq := 0, bootCount := s.tb.boot
    lastGood := match (currentRec s.nv).1 with | some r => r.lastGood | none => 0
    trial := slot, tries := 0 }

/-- NOR_COMMAND_DONE: the running command ends; the NOR reports an error, or a record reads back wrong. -/
def execNorCommandDone (norError verifyBad : Bool) (s : State) : Host.Outcome State Fault Refusal :=
  match s.norCmd with
  | none => .next s
  | some c =>
    let s := fset { s with norCmd := none } GLB_NOR_STAT_BUSY 0
    if norError then .next (fset s GLB_NOR_STAT_RESULT 4)
    else if c.op = 1 then .next (fset (norLoad s c.addr) GLB_NOR_STAT_RESULT 0)
    else if c.op = 2 then
      let s := norProgram s c.addr
      .next (fset s GLB_NOR_STAT_RESULT (if norMatches s c.addr && !verifyBad then 0 else 6))
    else if c.op = 3 then
      let s := { s with nv := { s.nv with nor := s.nv.nor.filter fun e => !(c.addr ≤ e.1 && e.1 < c.addr + 0x10000) } }
      .next (fset (emit s (.norErase c.addr)) GLB_NOR_STAT_RESULT 0)
    else
      let r := { trialRec s c.slot with torn := verifyBad }
      .next (fset { s with nv := appendErasing s.nv r } GLB_NOR_STAT_RESULT (if verifyBad then 6 else 0))

end Sys2Proof.Machine
end

