-- ==== Sys2Proof/Machine/HostPorts.lean ====
section
/-!
DEFINITION. Machine/HostPorts.lean: the host ports' commands (04_host_ports.md): links, resets and teardowns of
functions, configuration requests, completions of the device's own requests, MSI-X.
-/

namespace Sys2Proof.Machine

def getPort (s : State) (p : Nat) : PortState := tget {} s.ports p

def modPort (s : State) (p : Nat) (f : PortState → PortState) : State := { s with ports := tmod {} s.ports p f }

/-! ## Links (R98 to R103) -/

/-- Table 04-1 in units of 10 MB/s: RATE code, then WIDTH code 4, 2 or 1. -/
def capacityOf (rate width : Nat) : Nat :=
  let row := match rate with
    | 6 => [2900, 1450, 725]
    | 5 => [1450, 725, 362]
    | 4 => [725, 362, 181]
    | 3 => [362, 181, 90]
    | 2 => [184, 92, 46]
    | 1 => [92, 46, 23]
    | _ => [0, 0, 0]
  if width = 4 then row.getD 0 0 else if width = 2 then row.getD 1 0 else if width = 1 then row.getD 2 0 else 0

/-- May the port train (R102, R103, R93)? -/
def portTrains (s : State) (p : Nat) : Bool :=
  p < 6 && s.phase != .off && pdOn s p && (s.phase != .beacon || p == ctlPort s)

/-- A rate and width the port advertises (R98, R99). -/
def advertised (s : State) (p rate width : Nat) : Bool :=
  1 ≤ rate && rate ≤ fget s (HPT_LINK_CTL_MAX_RATE.ix p 0x1000) &&
    (width == 1 || width == 2 || width == 4) && width ≤ fget s (HPT_LINK_CTL_MAX_WIDTH.ix p 0x1000)

/-- HPT_LINK, HPT_CAPACITY and HPT_STATUS.LINK_UP of a port whose link is in L0 at a rate and width. -/
def showLink (s : State) (p rate width : Nat) (flit rev : Bool) : State :=
  let s := fset s (HPT_LINK_DL_UP.ix p 0x1000) 1
  let s := fset s (HPT_LINK_RATE.ix p 0x1000) rate
  let s := fset s (HPT_LINK_WIDTH.ix p 0x1000) width
  let s := fset s (HPT_LINK_FLIT.ix p 0x1000) (b2n (flit || rate == 6))
  let s := fset s (HPT_LINK_LANE_REV.ix p 0x1000) (b2n rev)
  let s := fset s (HPT_CAPACITY_CAP.ix p 0x1000) (capacityOf rate width)
  fsetBit s HPT_STATUS_LINK_UP p true

/-- The same of a port whose link is down. -/
def showNoLink (s : State) (p : Nat) : State := portIdle s p

/-- PERST_RELEASE (R102): the port starts to train. -/
def execPerstRelease (p : Nat) (s : State) : Host.Outcome State Fault Refusal :=
  if 6 ≤ p then .next s
  else .next (modPort s p fun x => { x with perst := false, training := portTrains s p })

/-- LINK_UP (R98, R101): a training port reaches L0 at an advertised rate and width. -/
def execLinkUp (p rate width : Nat) (flit rev : Bool) (s : State) : Host.Outcome State Fault Refusal :=
  if portTrains s p && (getPort s p).training && !(getPort s p).perst && advertised s p rate width then
    .next (modPort (showLink s p rate width flit rev) p fun x => { x with training := false })
  else .next s

/-- LINK_RETRAIN (R99, R101, R117): a retrain without DL_Down resets nothing; the capacity follows the new rate and
width, within the limits that took effect with this training. -/
def execLinkRetrain (p rate width : Nat) (flit rev : Bool) (s : State) : Host.Outcome State Fault Refusal :=
  if p < 6 && fget s (HPT_LINK_DL_UP.ix p 0x1000) == 1 && advertised s p rate width then
    .next (fbump (showLink s p rate width flit rev) (HPT_LINK_RETRAIN_CNT.ix p 0x1000))
  else .next s

/-! ## Teardown of a function (R114 to R118, Table 04-5) -/

/-- Bit of HPT_FN_BUSYn. -/
def setFnBusy (s : State) (fid : Nat) (b : Bool) : State :=
  fsetBit s ((HPT_FN_BUSY_BUSY.ix (fidPort fid) 0x1000).ix (fidVf fid / 32) 4) (fidVf fid % 32) b

/-- Steps 1 and 2: configuration space takes its reset values, fetching stops, Hod's transfers of the function are
aborted (R458), the commands in flight are settled, a
TEARDOWN marker is journalled for a VF's tenant. A teardown that already runs goes on unchanged. -/
def teardownFn (s : State) (fid : Nat) : State :=
  let f := getFn s fid
  if 0 < f.teardown then s
  else
    let s := modFn s fid fun f => { aer := f.aer, teardown := 1, rr := 0 }
    let s := setFnBusy s fid true
    let s := { s with held := s.held.filter (·.who != Accessor.fn (fidPort fid) (fidVf fid)) }
    let s := { s with qps := s.qps.map fun (k, q) =>
      if k / 16 = fid then (k, { q with mode := 3, fetching := 0, latchEn := false }) else (k, q) }
    let s := settleWhere (hodAbortFn s fid) (·.fid == fid)
    if fidVf fid = 0 then s else jrnMarker s 0x02 (tenantOf s fid) 0 0

/-- The VFs of a port that exist. -/
def liveVfs (s : State) (p : Nat) : List Nat :=
  ((List.range (getFn s (fnId p 0)).numVfs).map (fun k => fnId p (k + 1))).filter (fnExists s)

/-- VF_FLR. -/
def execVfFlr (p n : Nat) (s : State) : Host.Outcome State Fault Refusal :=
  if 0 < n && fnExists s (fnId p n) then .next (teardownFn s (fnId p n)) else .next s

/-- Tear down every VF of a PF. -/
def teardownVfs (s : State) (p : Nat) : State := (liveVfs s p).foldl teardownFn s

/-- PF_FLR (R116): VF Enable is cleared and every VF and the PF's own queues are torn down. -/
def execPfFlr (p : Nat) (s : State) : Host.Outcome State Fault Refusal :=
  if fnExists s (fnId p 0) then .next (teardownFn (teardownVfs s p) (fnId p 0)) else .next s

/-- VF_ENABLE_CLEAR (R116). -/
def execVfEnableClear (p : Nat) (s : State) : Host.Outcome State Fault Refusal :=
  if fnExists s (fnId p 0) && (getFn s (fnId p 0)).vfEnable then
    .next (modFn (teardownVfs s p) (fnId p 0) fun f => { f with vfEnable := false })
  else .next s

/-- Does a teardown of a function of the port run? -/
def portTearing (s : State) (p : Nat) : Bool := s.fns.any fun e => e.1 / 1024 == p && 0 < e.2.teardown

/-- PORT_RESET (R117, R118, R191): PERST_N low (`perst`), a hot reset, link disable or DL_Down: the link goes down,
every function is torn down, the grants of the port are cleared. -/
def execPortReset (p : Nat) (perst : Bool) (s : State) : Host.Outcome State Fault Refusal :=
  if 6 ≤ p then .next s
  else
    let s := showNoLink s p
    let s := { s with tenants := s.tenants.map fun (t, x) =>
      (t, { x with grants := x.grants.filter fun g => g.2.port != p }) }
    let s := if fnExists s (fnId p 0) then teardownFn (teardownVfs s p) (fnId p 0) else s
    .next (modPort s p fun _ => { perst := perst, training := !perst && portTrains s p, inReset := portTearing s p })

/-- TEARDOWN_COMPLETION_WAIT_END (step 3): the outstanding non-posted requests have completed or 50 ms have passed;
it follows step 2, so nothing of the function is in flight any more. -/
def execTeardownCompletionWaitEnd (p n : Nat) (s : State) : Host.Outcome State Fault Refusal :=
  let fid := fnId p n
  if (getFn s fid).teardown = 1 && !fnBusyCmds s fid then .next (modFn s fid fun f => { f with teardown := 3 })
  else .next s

/-- TEARDOWN_END (steps 4 and 5, R118): the queues are deleted and every XQ_ register of the function is at its
reset value; HPT_FN_BUSY clears; re-enables that arrived meanwhile are acted on. -/
def execTeardownEnd (p n : Nat) (s : State) : Host.Outcome State Fault Refusal :=
  let fid := fnId p n
  let f := getFn s fid
  if f.teardown ≠ 3 then .next s
  else
    let base := xqBase s fid
    let size := if fid = ctlFid s then 0x4000 else 0x10000
    let s := { s with
      qps := s.qps.filter (fun e => e.1 / 16 != fid)
      regs := if fidVf fid = 0 && fid != ctlFid s then s.regs
        else s.regs.filter fun e => !(base ≤ e.1 && e.1 < base + size) }
    let s := setFnBusy s fid false
    let s := modFn s fid fun f =>
      { f with teardown := 0, bme := f.latchBme.getD f.bme, vfEnable := f.latchVfEn.getD f.vfEnable,
               latchBme := none, latchVfEn := none, latchAq := none }
    let s := match f.latchAq with
      | none => s
      | some (cfg, sqb, cqb) =>
        let s := rset s (base + 0x800) (BitVec.ofNat 32 (cfg % 0x20000))
        let s := rset (rset s (base + 0x808) (BitVec.ofNat 32 sqb)) (base + 0x80C) (BitVec.ofNat 32 (sqb / 2 ^ 32))
        let s := rset (rset s (base + 0x810) (BitVec.ofNat 32 cqb)) (base + 0x814) (BitVec.ofNat 32 (cqb / 2 ^ 32))
        createAq s fid cfg sqb cqb
    .next (if portTearing s p then s else modPort s p fun x => { x with inReset := false })

/-! ## Configuration space (R100, R102, R107, R110, R113, R118) -/

/-- NUMVFS_WRITE: ignored while VF Enable is 1 or above TotalVFs. -/
def execNumvfsWrite (p value : Nat) (s : State) : Host.Outcome State Fault Refusal :=
  let fid := fnId p 0
  if fnExists s fid && !(getFn s fid).vfEnable && value ≤ 8 * fget s (HPT_FUNCS_VF_BLOCKS.ix p 0x1000) then
    .next (modFn s fid fun f => { f with numVfs := value })
  else .next s

/-- Send the messages that PBA bits hold and nothing holds back any longer. -/
def flushPba (s : State) (fid : Nat) : State :=
  let f := getFn s fid
  if !f.msixEn || f.msixMask || !f.live || 0 < f.teardown then s
  else
    f.vectors.foldl (fun s e =>
      if e.2.pending && !e.2.masked then
        emit (modFn s fid fun f => { f with vectors := tset {} f.vectors e.1 { e.2 with pending := false } }) (.msix fid e.1)
      else s) s

/-- BUS_MASTER_ENABLE_WRITE (R110, R118): 0 makes the function's requests wait, 1 lets them go on; during a teardown
a 1 is latched. -/
def execBusMasterEnableWrite (p n : Nat) (on : Bool) (s : State) : Host.Outcome State Fault Refusal :=
  let fid := fnId p n
  if !fnExists s fid then .next s
  else if 0 < (getFn s fid).teardown then .next (modFn s fid fun f => { f with latchBme := some on })
  else .next (flushPba (modFn s fid fun f => { f with bme := on }) fid)

/-- DSTATE_CHANGE (R100): in D3hot the function waits as with Bus Master Enable 0. -/
def execDstateChange (p n : Nat) (d3 : Bool) (s : State) : Host.Outcome State Fault Refusal :=
  let fid := fnId p n
  if fnExists s fid then .next (flushPba (modFn s fid fun f => { f with d3 := d3 }) fid) else .next s

/-- MSIX_UNMASK (R113): the vector's mask ends and a held message is sent. -/
def execMsixUnmask (p n vec : Nat) (s : State) : Host.Outcome State Fault Refusal :=
  let fid := fnId p n
  if fnExists s fid && vec < (if n = 0 then 64 else 8) then
    .next (flushPba (modFn s fid fun f => { f with vectors := tmod {} f.vectors vec fun v => { v with masked := false } }) fid)
  else .next s

/-- Identity of a function (R3, R107): device and vendor. -/
def identity (n : Nat) : Nat := 0xD1A7 + (if n = 0 then 0x1284 else 0x1285) * 0x10000

/-- A configuration request that is answered: identity (R3, R107), the SR-IOV capability of a PF (R104), what a driver sets. -/
def configAct (s : State) (fid : Nat) (op : CfgOp) : State :=
  let n := fidVf fid
  let sub := match s.loader.img with | some i => i.platform.subsystem | none => 0
  let f := getFn s fid
  match op with
  | .readId => emit s (.cfgData fid (identity n))
  | .readClassRevision => emit s (.cfgData fid 0x01800010)
  | .readTotalVfs => emit s (.cfgData fid (if n = 0 then 8 * fget s (HPT_FUNCS_VF_BLOCKS.ix (fidPort fid) 0x1000) else 0))
  | .readVfOffsetStride => emit s (.cfgData fid (if n = 0 then 0x00010001 else 0))
  | .readVfDeviceId => emit s (.cfgData fid (if n = 0 then 0x1285 else 0))
  | .readSubsystem => emit s (.cfgData fid sub)
  | .readNumVfs => emit s (.cfgData fid (if n = 0 then f.numVfs else 0))
  | .readAer => emit s (.cfgData fid (f.aer.foldl (fun a k => a + 2 ^ k) 0))
  | .clearAer bits => modFn s fid fun f => { f with aer := f.aer.filter fun k => bits / 2 ^ k % 2 == 0 }
  | .writeMsixEnable on => flushPba (modFn s fid fun f => { f with msixEn := on }) fid
  | .writeMsixMaskAll on => flushPba (modFn s fid fun f => { f with msixMask := on }) fid
  | .writeVfEnable on =>
    if n ≠ 0 || !on then s
    else if 0 < f.teardown || portTearing s (fidPort fid) then
      modFn s fid fun f => { f with latchVfEn := some true }
    else modFn s fid fun f => { f with vfEnable := true }
  | .writeRelaxedOrdering on => modFn s fid fun f => { f with relaxed := on }
  | .writeCplTimeout range dis => modFn s fid fun f => { f with cplRange := range, cplDisable := dis }
  | .writeMaxSizes payload rd =>
    modFn s fid fun f => { f with
      maxPayload := if payload == 128 || payload == 256 || payload == 512 then payload else f.maxPayload
      maxReadReq := rd }
  | .otherRead _ => let (v, s) := drawFree s; emit s (.cfgData fid v)
  | .otherWrite _ _ => s

/-- CONFIG_REQUEST (R102, R117, R118): RRS from link-up until LOADING ends, until the teardown of a port reset ends,
and for a VF in teardown; normal otherwise; Unsupported Request for a function that does not exist. A VF Enable write
during a teardown is latched and taken when it ends. -/
def execConfigRequest (p n : Nat) (op : CfgOp) (s : State) : Host.Outcome State Fault Refusal :=
  let fid := fnId p n
  if 6 ≤ p || fget s (HPT_LINK_DL_UP.ix p 0x1000) == 0 then .next s
  else if s.phase = .loading || (getPort s p).inReset || (0 < n && 0 < (getFn s fid).teardown) then
    .next (emit s (.cfgRetry fid))
  else if !fnExists s fid then .next (emit s (.unsupported fid))
  else .next (configAct s fid op)

/-! ## Completions of the device's own requests (R119, R120, Table 04-6) -/

/-- A failed request: of a command, it ends with 0x0107; of an SQE fetch, the queue freezes with a CQE of its own
(R120, R158). -/
def hostFailed (s : State) (fid q : Nat) (seq : Option Nat) : State :=
  match seq with
  | some n => setDone s n 0x0107
  | none =>
    if (getQp s fid q).fetching = 0 then s
    else postNoSqe (modQp s fid q fun p => { p with fetching := 0 }) fid q 0x0107

/-- HOST_COMPLETION_TIMEOUT. -/
def execHostCompletionTimeout (fid q : Nat) (seq : Option Nat) (s : State) : Host.Outcome State Fault Refusal :=
  if 0 < (getFn s fid).teardown || (getFn s fid).cplDisable || 6 ≤ fidPort fid then .next s
  else
    let s := fbump s (HPT_ERR_CNT0_CPL_TMO.ix (fidPort fid) 0x1000)
    .next (hostFailed (aerReport s fid 3) fid q seq)

/-- HOST_COMPLETION_ARRIVAL: `status` 0 successful, 1 UR, 2 CA, 3 poisoned. A successful one brings a command's data
(an SQE fetch goes on with SQE_FETCHED); after the wait of a teardown it is discarded as unexpected. -/
def execHostCompletionArrival (fid q : Nat) (seq : Option Nat) (status : Nat) (s : State) :
    Host.Outcome State Fault Refusal :=
  if (getFn s fid).teardown = 3 || 6 ≤ fidPort fid then .next s
  else if status = 0 then
    match seq with
    | none => .next s
    | some n =>
      match getCmd s n with
      | none => .next s
      | some c => .next (if c.done.isSome then s else putCmd s n { c with fetched := true })
  else
    let s := if status = 3 then fbump (aerReport s fid 2) (HPT_ERR_CNT0_POISON_RX.ix (fidPort fid) 0x1000)
      else aerReport s fid 4
    if 0 < (getFn s fid).teardown then .next s else .next (hostFailed s fid q seq)

end Sys2Proof.Machine
end

