-- ==== Sys2Proof/Machine/MinSet.lean ====
section
/-!
DEFINITION. Machine/MinSet.lean: the minimum service set (R92), and what its loss does after BRINGUP.
-/

namespace Sys2Proof.Machine

/-- The image in force. -/
def image (s : State) : Image := s.loader.img.getD {}

/-- PHYS field of a logical tile in TRW_MAPn; 0x3F is none. -/
def tileMapF (t : Nat) : Fld := ⟨0x600010 + 4 * (t / 4), 8 * (t % 4), 6⟩

def physOf (s : State) (t : Nat) : Nat := fget s (tileMapF t)

/-- Logical tiles in use. -/
def workingTiles (s : State) : List Nat := (List.range 32).filter fun t => physOf s t != 0x3F

/-- A port that is declared, powered and not retired. -/
def portWorks (s : State) (p : Nat) : Bool :=
  fget s (HPT_FUNCS_PRESENT.ix p 0x1000) == 1 && pdOn s p && !isRetired s (.hostPort p)

/-- DRAM channel A or B with at least 8 GiB. -/
def dramSuffices (s : State) : Bool :=
  [0, 1].any fun c => 8 ≤ ((image s).memory.chans.getD c {}).gib && !isRetired s (.dramChannel c)

/-- A flash channel with a good LUN; before its initialisation (R297) a declared channel counts as having one. -/
def flashServes (s : State) (c : Nat) : Bool :=
  (image s).platform.flashPresent.getD c false && !isRetired s (.flashChannel c) &&
    (s.phase == .selftest || fget s (FLC_LUN_OK_OK.ix c 0x4000) != 0)

/-- An actuator with its read channel. -/
def actServes (s : State) (a : Nat) : Bool :=
  !isRetired s (.actuator a) && !isRetired s (.dataPath a) && fget s (RDC_ACT_STATE_STATE.ix a 0x4000) != 6

/-- An HDA with its spindle and one actuator with its read channel. -/
def hdaServes (s : State) (h : Nat) : Bool :=
  (image s).platform.hdaPresent.getD h false && !isRetired s (.hda h) && (actServes s (2 * h) || actServes s (2 * h + 1))

/-- Does the minimum service set hold? The always-on domain holds whenever the device runs (R86). -/
def minSet (s : State) : Bool :=
  2 ≤ (workingTiles s).length && (List.range 6).any (portWorks s) && dramSuffices s &&
    fget s MSK_LANES_IN_SERVICE != 0 &&
    ((List.range 32).any (flashServes s) ||
      ((List.range 16).any (hdaServes s) && s.ltn.logical.any Option.isSome))

/-- After BRINGUP the loss of the minimum service set leads to SAFE with source 0x021 (R92, R498). -/
def minWatch (s : State) : State := if s.phase.inService && !minSet s then raise s 0x021 else s

end Sys2Proof.Machine
end

