-- ==== Sys2Proof/Machine/Tenants.lean ====
section
/-!
DEFINITION. Machine/Tenants.lean: tenant contexts, contracts, budgets and their cuts, the service of floors and
ceilings, the Masking lanes (06_tenants_masking_qos.md).
-/

namespace Sys2Proof.Machine

/-! ## Tenant contexts (R170) -/

def getTen (s : State) (t : Nat) : Tenant := tget {} s.tenants t

def modTen (s : State) (t : Nat) (f : Tenant → Tenant) : State := { s with tenants := tmod {} s.tenants t f }

def getTenNv (s : State) (t : Nat) : TenantNv := tget {} s.nv.tenants t

def modTenNv (s : State) (t : Nat) (f : TenantNv → TenantNv) : State :=
  { s with nv := { s.nv with tenants := tmod {} s.nv.tenants t f } }

/-- Table 06-1's code. -/
def tenState (s : State) (t : Nat) : Nat :=
  match (getTenNv s t).state with
  | 0 => 0
  | 1 => if (getTen s t).key.isSome then 2 else 1
  | _ => 3

/-- A namespace of a tenant, as a command accepted now sees it (R183). -/
def getNs (s : State) (t n : Nat) : Option NsRec :=
  if (getTen s t).dyingNs.contains n then none else ((getTenNv s t).ns.find? (·.1 == n)).map (·.2)

/-- R106: the port whose VF serves the tenant. -/
def tenantPort (s : State) (t : Nat) : Option Nat :=
  (List.range 6).find? fun p =>
    let b := 8 * fget s (HPT_FUNCS_FIRST_BLOCK.ix p 0x1000)
    b ≤ t && t < b + 8 * fget s (HPT_FUNCS_VF_BLOCKS.ix p 0x1000)

/-- Namespaces in existence. -/
def nsCount (s : State) : Nat := (s.nv.tenants.map fun e => e.2.ns.length).sum

/-- Sum of the sizes of the namespaces of a pool. -/
def poolUsed (s : State) (pool : Nat) : Nat :=
  (s.nv.tenants.map fun e => ((e.2.ns.filter (·.2.pool == pool)).map (·.2.size)).sum).sum

/-! ## Contract records (R184) -/

/-- Little-endian field of a record. -/
def recField (r : List Byte) (off n : Nat) : Nat := leValue ((r.drop off).take n)

/-- A ceiling field; all ones is none. -/
def ceilField (v : Nat) : Option Nat := if v = 0xFFFFFFFF then none else some v

/-- A burst depth of Table 06-6. -/
def burstOk (v : Nat) : Bool := 4096 ≤ v && v ≤ 1048576 && v % 4 == 0

/-- Class `n` of a record: none where CLASSES leaves it out. The second part says the record's rules hold for it. -/
def parseClass (r : List Byte) (n : Nat) : Option ClassRec × Bool :=
  let o := 0x20 + 0x20 * n
  let f := fun k w => recField r (o + k) w
  if recField r 6 1 / 2 ^ n % 2 = 0 then (none, recField r o 32 == 0)
  else
    let c : ClassRec := { pool := f 0 1, rdFloor := f 4 4, wrFloor := f 8 4, rdCeil := ceilField (f 0xC 4),
                          wrCeil := ceilField (f 0x10 4), rdBurst := f 0x14 4, wrBurst := f 0x18 4 }
    let under := fun (fl : Nat) (ce : Option Nat) => match ce with | none => true | some x => fl ≤ x
    (some c, c.pool < 3 && f 1 3 == 0 && f 0x1C 4 == 0 && under c.rdFloor c.rdCeil && under c.wrFloor c.wrCeil &&
      burstOk c.rdBurst && burstOk c.wrBurst)

/-- The classes of a record, and whether it keeps R184's rules. -/
def parseContract (r : List Byte) : List (Option ClassRec) × Bool :=
  let cs := [parseClass r 0, parseClass r 1, parseClass r 2]
  (cs.map (·.1), recField r 0 4 == 0x54434158 && recField r 4 2 == 1 && recField r 6 1 < 8 && recField r 7 25 == 0 &&
    cs.all (·.2))

/-! ## Budgets (R186, Table 06-7) -/

/-- DRAM channels the image declares, and those in service. -/
def dramDeclared (s : State) : List Nat :=
  (List.range 4).filter fun c => 0 < ((image s).memory.chans.getD c {}).dimms

def dramLive (s : State) : List Nat := (dramDeclared s).filter fun c => !isRetired s (.dramChannel c)

/-- A ratio, 1 where nothing is declared. -/
def ratio (a b : Nat) : Rat := if b = 0 then 1 else (a : Rat) / (b : Rat)

/-- Live media over declared media of a pool. -/
def mediaRatio (s : State) (pool : Nat) : Rat :=
  let fl := ratio (popCount 32 (fget s UDC_FINSV_MASK)) (popCount 32 (fget s UDC_FMEMB_MASK))
  let dk := ratio (popCount 16 (fget s UDC_DINSV_ACT_A) + popCount 16 (fget s UDC_DINSV_ACT_B))
    (2 * popCount 16 (fget s UDC_DMEMB_MEMB))
  if pool = 0 then fl else if pool = 1 then dk else min fl dk

/-- Masking lanes and Render engines in service. -/
def lanesLive (s : State) : Nat := popCount 16 (fget s MSK_LANES_IN_SERVICE)
def enginesLive (s : State) : Nat := popCount 8 (fget s RND_STATUS_IN_SERVICE)

/-- R190: fewer than 14 Masking lanes scale every media budget. -/
def laneRatio (s : State) : Rat := if 14 ≤ lanesLive s then 1 else ratio (lanesLive s) 14

/-- Present capacity of a budget by its TEN_BUD_SEL index, in MB/s. -/
def budgetCap (s : State) (i : Nat) : Rat :=
  let b := (image s).budgets
  if i = 0 then ((144000 - b.bgDram : Nat) : Rat) * ratio (dramLive s).length (dramDeclared s).length
  else if i ≤ 6 then
    let p := (i - 1) / 2
    ((if i % 2 = 1 then b.rd.getD p 0 else b.wr.getD p 0 : Nat) : Rat) * mediaRatio s p * laneRatio s
  else if i = 7 then (35000 : Rat) * ratio (min 7 (enginesLive s)) 7
  else if i = 8 then (70000 : Rat) * ratio (min 7 (enginesLive s)) 7
  else if i = 9 then (if fget s OZP_STATUS_MODE = 1 then 48000 else 40000)
  else if 16 ≤ i && i < 28 then ((10 * fget s (HPT_CAPACITY_CAP.ix ((i - 16) / 2) 0x1000) : Nat) : Rat)
  else 0

/-- Has the tenant a compressing namespace in the pool (with `extra` pools counted as having one)? -/
def compresses (s : State) (t pool : Nat) (extra : List Nat) : Bool :=
  extra.contains pool || (getTenNv s t).ns.any fun e => e.2.pool == pool && e.2.compress

/-- Charge of one MB/s of floor of a class in a budget; `wr` selects the write floor. -/
def unitCharge (s : State) (t : Nat) (c : ClassRec) (extra : List Nat) (i : Nat) (wr : Bool) : Rat :=
  let on := fun (b : Bool) => if b then (1 : Rat) else 0
  if i = 0 then (if wr then 3 else 1 / 8)
  else if i ≤ 6 then on (c.pool == (i - 1) / 2 && wr == (i % 2 == 0))
  else if i = 7 then on (wr && compresses s t c.pool extra)
  else if i = 8 then on (!wr && compresses s t c.pool extra)
  else if i = 9 then on wr
  else on (16 ≤ i && tenantPort s t == some ((i - 16) / 2) && wr == (i % 2 == 0))

/-- What a class charges to a budget. -/
def classCharge (s : State) (t : Nat) (c : ClassRec) (extra : List Nat) (i : Nat) : Rat :=
  (c.rdFloor : Rat) * unitCharge s t c extra i false + (c.wrFloor : Rat) * unitCharge s t c extra i true

/-- What the classes `keep` of a contract charge to a budget. -/
def contractCharge (s : State) (t : Nat) (cs : List (Option ClassRec)) (extra : List Nat) (i : Nat)
    (keep : Nat → Bool := fun _ => true) : Rat :=
  (cs.zipIdx.map fun (c, n) => match c with
    | some c => if keep n then classCharge s t c extra i else 0
    | none => 0).foldl (· + ·) 0

/-- Classes of the contract in force. -/
def contractOf (s : State) (t : Nat) : List (Option ClassRec) :=
  match (getTenNv s t).contract with
  | some c => c.classes
  | none => [none, none, none]

/-- Contracted charges of a budget over all tenants. -/
def budgetUsed (s : State) (i : Nat) (keep : Nat → Bool := fun _ => true) : Rat :=
  (s.nv.tenants.map fun e => contractCharge s e.1 (contractOf s e.1) [] i keep).foldl (· + ·) 0

/-- Does budget `i` hold with tenant `t`'s charges replaced? -/
def budgetHolds (s : State) (t : Nat) (cs : List (Option ClassRec)) (extra : List Nat) (i : Nat) : Bool :=
  decide (budgetUsed s i - contractCharge s t (contractOf s t) [] i + contractCharge s t cs extra i ≤ budgetCap s i)

/-- Budgets in the order of Table 06-7 with their LAST_REJECT codes. -/
def budgetOrder (s : State) (t : Nat) : List (Nat × Nat) :=
  [(0, 2), (1, 3), (3, 3), (5, 3), (2, 3), (4, 3), (6, 3), (7, 4), (8, 4)] ++
    (match tenantPort s t with | some p => [(16 + 2 * p, 5), (17 + 2 * p, 5)] | none => []) ++ [(9, 7)]

/-- R186: judge a record: the LAST_REJECT code of the first failure, 0 when it is admitted. -/
def judgeContract (s : State) (t : Nat) (r : List Byte) : Nat :=
  let (cs, ok) := parseContract r
  if !ok then 1
  else if (tenantPort s t).isNone && cs.any (fun c => match c with
      | some c => 0 < c.rdFloor || 0 < c.wrFloor | none => false) then 6
  else match (budgetOrder s t).find? fun b => !budgetHolds s t cs [] b.1 with
    | some b => b.2
    | none => 0

/-! ## Effective floors (R190) -/

/-- The factor R190 gives class `n` in a budget. -/
def budgetFactor (s : State) (i n : Nat) : Rat :=
  let cap := budgetCap s i
  let c0 := budgetUsed s i (· == 0)
  let c12 := budgetUsed s i (· != 0)
  if c0 + c12 ≤ cap then 1
  else if cap ≤ c0 then (if n = 0 then cap / c0 else 0)
  else if n = 0 then 1 else min 1 ((cap - c0) / c12)

/-- Every budget index. -/
def budgetIndices : List Nat := List.range 10 ++ (List.range 12).map (· + 16)

/-- The factor of a class and direction: the smallest of the budgets it is charged to. -/
def floorFactor (s : State) (t n : Nat) (c : ClassRec) (wr : Bool) : Rat :=
  budgetIndices.foldl (fun f i => if unitCharge s t c [] i wr = 0 then f else min f (budgetFactor s i n)) 1

def getDir (s : State) (t n : Nat) (wr : Bool) : ClassDir := tget {} (getTen s t).dirs (2 * n + b2n wr)

def modDir (s : State) (t n : Nat) (wr : Bool) (f : ClassDir → ClassDir) : State :=
  modTen s t fun x => { x with dirs := tmod {} x.dirs (2 * n + b2n wr) f }

/-- Recompute one floor: codes 0x0308 when it is cut to a new value and 0x0309 when it is whole again. -/
def recomputeFloor (s : State) (t n : Nat) (c : ClassRec) (wr : Bool) : State :=
  let whole := if wr then c.wrFloor else c.rdFloor
  let eff := (((whole : Rat) * floorFactor s t n c wr).floor).toNat
  let old := getDir s t n wr
  let cut := eff < whole
  let s := modDir s t n wr fun d => { d with eff := eff, cut := cut }
  let data := t % 1024 + n * 1024 + b2n wr * 4096 + min eff 65535 * 65536
  if cut && !(old.cut && old.eff == eff) then dmkSend s 0x0308 data
  else if !cut && old.cut then dmkSend s 0x0309 data else s

/-- Is any floor cut? -/
def anyCut (s : State) : Bool := s.tenants.any fun e => e.2.dirs.any (·.2.cut)

/-- Recompute every effective floor; reduction 2 follows. -/
def recomputeFloors (s : State) : State :=
  let s := s.nv.tenants.foldl (fun s e =>
    (contractOf s e.1).zipIdx.foldl (fun s (c, n) => match c with
      | some c => recomputeFloor (recomputeFloor s e.1 n c false) e.1 n c true
      | none => s) s) s
  if anyCut s == fbit s GLB_STATUS_REDUCTION 2 then s else setReduction s 2 (anyCut s)

/-- CAPACITY_CHANGE (R190). -/
def execCapacityChange (s : State) : Host.Outcome State Fault Refusal := .next (recomputeFloors s)

/-! ## Buoy tokens and deficits (R185, R188, R189) -/

/-- Depth of a class's bucket in tokens. -/
def bucketDepth (c : ClassRec) (wr : Bool) : Nat := (if wr then c.wrBurst else c.rdBurst) / 4

def ceilOf (c : ClassRec) (wr : Bool) : Option Nat := if wr then c.wrCeil else c.rdCeil

/-- A contract comes into force: kept classes keep their tokens, clipped; new ones start full; others lose their
bucket. -/
def installContract (s : State) (t : Nat) (c : Option Contract) : State :=
  let old := contractOf s t
  let s := modTenNv s t fun r => { r with contract := c }
  let new := contractOf s t
  let one := fun (s : State) (n : Nat) (wr : Bool) =>
    match new.getD n none with
    | none => modDir s t n wr fun _ => {}
    | some k => modDir s t n wr fun d =>
      { d with tokens := if (old.getD n none).isSome then min d.tokens (bucketDepth k wr) else bucketDepth k wr
               eff := if wr then k.wrFloor else k.rdFloor, cut := false }
  recomputeFloors ([0, 1, 2].foldl (fun s n => one (one s n false) n true) s)

/-- The class a command is charged to: the one it names or the highest defined; none without a defined class. -/
def chargedClass (s : State) (t n : Nat) : Option (Nat × ClassRec) :=
  let cs := contractOf s t
  match cs.getD n none with
  | some c => some (n, c)
  | none => ([2, 1, 0].find? fun k => (cs.getD k none).isSome).bind fun k => (cs.getD k none).map fun c => (k, c)

/-- R185: is the command charged to the write direction? -/
def Cmd.writes (c : Cmd) : Bool := !(c.sqe.opc == 2 || c.sqe.opc == 0xC || c.sqe.opc == 0x20)

/-- Bytes of data a command is charged in all (R185). -/
def Cmd.chargeBytes (c : Cmd) : Nat :=
  if c.sqe.opc = 1 || c.sqe.opc = 2 || c.sqe.opc = 0xC then max 4096 ((c.sqe.nlb + 1) * 4096)
  else if c.sqe.opc = 0x20 then max 4096 c.sqe.buf0Len
  else 4096

/-- Has the class a piece ready in the direction (R188): a command accepted and not ended whose next piece finds its
tokens? -/
def pieceReady (s : State) (t n : Nat) (wr : Bool) : Bool :=
  s.cmds.any fun e =>
    e.2.tenant == t && !e.2.admin && e.2.done.isNone && e.2.writes == wr && e.2.charged < e.2.chargeBytes &&
      (match chargedClass s t e.2.cls with
        | none => false
        | some (k, r) => k == n && (match ceilOf r wr with
          | none => true
          | some _ => (min 4194304 (e.2.chargeBytes - e.2.charged) + 4095) / 4096 ≤ (getDir s t n wr).tokens))

/-- R188: bring a deficit up to date: it grows at the effective floor while a piece is ready, up to 10 ms of it, and
is 0 while none is. -/
def growDir (s : State) (t n : Nat) (wr : Bool) : State :=
  let ready := pieceReady s t n wr
  modDir s t n wr fun d =>
    let d' := if ready then min (d.eff * 10000) (d.deficit + d.eff * (s.tb.ns - d.atNs) / 1000) else 0
    { d with deficit := d', since := if d.deficit = 0 then s.tb.ns else d.since, atNs := s.tb.ns }

/-- PIECE_START (R185, R188, R189): the next piece of a command, at most 4 MiB, takes a token for each 4 KiB and
lowers the deficit. Without the tokens it waits. -/
def execPieceStart (seq : Nat) (s : State) : Host.Outcome State Fault Refusal :=
  match getCmd s seq with
  | none => .next s
  | some c =>
    if c.admin || c.done.isSome || c.chargeBytes ≤ c.charged then .next s
    else
      let n := min 4194304 (c.chargeBytes - c.charged)
      let toks := (n + 4095) / 4096
      match chargedClass s c.tenant c.cls with
      | none => .next (putCmd s seq { c with charged := c.charged + n })
      | some (k, r) =>
        let wr := c.writes
        let s := growDir s c.tenant k wr
        let s' := putCmd s seq { c with charged := c.charged + n }
        let d := getDir s c.tenant k wr
        let take := fun (d : ClassDir) => { d with deficit := d.deficit - n }
        match ceilOf r wr with
        | none => .next (modDir s' c.tenant k wr take)
        | some _ =>
          if d.tokens < toks then .next s
          else .next (modDir s' c.tenant k wr fun d => { take d with tokens := d.tokens - toks })

/-- BUOY_REFILL (R189): a bucket below its depth gains a token. -/
def execBuoyRefill (t n : Nat) (wr : Bool) (s : State) : Host.Outcome State Fault Refusal :=
  match (contractOf s t).getD n none with
  | none => .next s
  | some c =>
    match ceilOf c wr with
    | none => .next s
    | some 0 => .next s
    | some _ => .next (modDir s t n wr fun d => { d with tokens := min (d.tokens + 1) (bucketDepth c wr) })

/-- R188: is a class of a tenant behind its floor in a direction, and since when? -/
def behindSince (s : State) (t n : Nat) (wr : Bool) : Option Nat :=
  let d := getDir s t n wr
  if 0 < d.deficit then some d.since else none

/-! ## Masking lanes (R179) -/

/-- A lane leaves service. -/
def retireLane (s : State) (l : Nat) : State :=
  retireUnit (fsetBit (fsetBit s MSK_LANES_IN_SERVICE l false) MSK_LANES_RETIRED l true) (.maskLane l)

/-- MASKING_KAT_TICK: lane `l` re-runs its vectors; a failure retires it with source 0x310 + l. -/
def execMaskingKatTick (l : Nat) (pass : Bool) (s : State) : Host.Outcome State Fault Refusal :=
  if 16 ≤ l || !fbit s MSK_LANES_IN_SERVICE l || pass then .next s
  else .next (minWatch (recomputeFloors (raise (retireLane (fbump s MSK_ERR_CNT_KAT_FAIL) l) (0x310 + l))))

/-- MASKING_LOCKSTEP_MISMATCH: the unit is re-run on another lane and the lane is retired. -/
def execMaskingLockstepMismatch (l : Nat) (s : State) : Host.Outcome State Fault Refusal :=
  if 16 ≤ l || !fbit s MSK_LANES_IN_SERVICE l then .next s
  else .next (minWatch (recomputeFloors (raise (retireLane (fbump s MSK_ERR_CNT_LOCKSTEP) l) (0x310 + l))))

end Sys2Proof.Machine
end

