-- ==== Sys2Proof/Machine/Queues.lean ====
section
/-!
DEFINITION. Machine/Queues.lean: doorbells, the admin queue register, the fetch of submission entries, XQ_RESUME and
the journal's mirror in flash (05_queues_and_journal.md, R124 to R139, R158 to R167).
-/

namespace Sys2Proof.Machine

/-! ## Doorbells (R136, R138) -/

/-- Set a bit of XQ_DBERR. -/
def dbErr (s : State) (fid q : Nat) (cq : Bool) : State :=
  fsetBit s (xqF s fid (if cq then XQ_DBERR_CQ_ERR else XQ_DBERR_SQ_ERR)) q true

/-- SQ_DOORBELL: the new tail stands, unless the queue does not exist or the tail is not below its size; during a
teardown or a warm stop the write is ignored. -/
def execSqDoorbell (fid q tail : Nat) (s : State) : Host.Outcome State Fault Refusal :=
  if 9 ≤ q || 0 < (getFn s fid).teardown || s.rst.warm.isSome then .next s
  else
    let p := getQp s fid q
    if p.mode = 0 || p.size ≤ tail then .next (dbErr s fid q false)
    else .next (modQp s fid q fun p => { p with sqTail := tail, stale := false })

/-- CQ_DOORBELL: the entries before the new head are released, unless the device has not written them. -/
def execCqDoorbell (fid q head : Nat) (s : State) : Host.Outcome State Fault Refusal :=
  if 9 ≤ q || 0 < (getFn s fid).teardown || s.rst.warm.isSome then .next s
  else
    let p := getQp s fid q
    if p.mode = 0 || p.size ≤ head || p.unread < (head + p.size - p.cqHead) % max p.size 1 then
      .next (dbErr s fid q true)
    else .next (modQp s fid q fun p => { p with cqHead := head })

/-! ## XQ_AQ_CFG (R127, R169) -/

def xqRsv (s : State) (fid : Nat) : State := fset s (xqF s fid XQ_VSTATUS_RSV_WRITE) 1

/-- Has the function an I/O pair? -/
def hasIoPair (s : State) (fid : Nat) : Bool := s.qps.any fun e => e.1 / 16 == fid && e.1 % 16 != 0

/-- Store SIZE_LOG2, IEN and VECTOR, each unless its encoding is reserved. -/
def aqStore (s : State) (fid : Nat) (v : Word) : State :=
  let size := bitsGet v 0 4
  let vec := bitsGet v 8 6
  let s := if 4 ≤ size && size ≤ 12 then fset s (xqF s fid XQ_AQ_CFG_SIZE_LOG2) size else xqRsv s fid
  let s := fset s (xqF s fid XQ_AQ_CFG_IEN) (bitsGet v 7 1)
  if fidVf fid ≠ 0 && 8 ≤ vec then xqRsv s fid else fset s (xqF s fid XQ_AQ_CFG_VECTOR) vec

/-- AQ_CFG_WRITE: EN 1 creates the admin pair, latched while its deletion or a teardown runs; EN 0 deletes it as
DELETE_QP does, and is refused while an I/O pair exists; while EN is 1 the other bits cannot change. -/
def execAqCfgWrite (fid : Nat) (value : Word) (s : State) : Host.Outcome State Fault Refusal :=
  let en := bitsGet value 16 1
  let old := rget s (xqBase s fid + 0x800)
  let bases := aqBases s fid
  if fidVf fid = 0 && fid ≠ ctlFid s then .next s
  else if 0 < (getFn s fid).teardown then
    if en = 1 then .next (modFn s fid fun f => { f with latchAq := some (value.toNat % 0x10000 + 0x10000, bases.1, bases.2) })
    else .next s
  else if bitsGet old 16 1 = 1 then
    let s := if bitsGet value 0 14 = bitsGet old 0 14 then s else xqRsv s fid
    if en = 1 then .next s
    else if hasIoPair s fid then .next (xqRsv s fid)
    else
      let s := fset s (xqF s fid XQ_AQ_CFG_EN) 0
      let s := modQp s fid 0 fun p => { p with mode := 3, fetching := 0, latchEn := false }
      .next (finishDelete (settleWhere s fun c => c.fid == fid && c.q == 0) fid 0)
  else
    let s := aqStore s fid value
    if en = 0 then .next s
    else
      let s := fset s (xqF s fid XQ_AQ_CFG_EN) 1
      if (getQp s fid 0).mode = 3 then .next (modQp s fid 0 fun p => { p with latchEn := true })
      else .next (createAq s fid (rget s (xqBase s fid + 0x800)).toNat bases.1 bases.2)

/-! ## Fetching (R126, R137, R139, R161) -/

/-- Entries Admission may fetch from a pair in one read: at most 8, none past the ring's end, none without room for
its CQE; 0 while the pair may not be fetched from at all. -/
def fetchable (s : State) (fid q : Nat) : Nat :=
  let p := getQp s fid q
  if p.mode ≠ 2 || p.frozen || p.stale || 0 < p.fetching || p.resume.isSome || 0 < (getFn s fid).teardown ||
      !(getFn s fid).live || !s.jrn.open_ || !s.phase.inService || s.rst.warm.isSome then 0
  else min (min 8 (min p.waiting (p.size - p.sqHead))) (p.size - 1 - (p.out + p.unread))

/-- The time since which a queue's class is behind its floor, if it is (R188). -/
def queueBehind (s : State) (fid q : Nat) : Option Nat :=
  if q = 0 then none
  else match chargedClass s (tenantOf s fid) (getQp s fid q).qos with
    | none => none
    | some (n, _) =>
      match behindSince s (tenantOf s fid) n false, behindSince s (tenantOf s fid) n true with
      | some a, some b => some (min a b)
      | some a, none => some a
      | none, b => b

/-- The queue arbitration selects: of the queues whose class is behind its floor the one with the oldest deficit,
else round-robin after the one served last. -/
def selectQueue (s : State) (fid : Nat) : Option Nat :=
  let ready := (List.range 9).filter fun q => 0 < fetchable s fid q
  let behind := ready.filterMap fun q => (queueBehind s fid q).map fun t => (t, q)
  match behind with
  | b :: bs => some (bs.foldl (fun x y => if y.1 < x.1 then y else x) b).2
  | [] =>
    let last := (getFn s fid).rr
    match ready.find? (last < ·) with
    | some q => some q
    | none => ready.head?

/-- Bytes of an entry of a pair. -/
def entryBytes (s : State) (fid q : Nat) : Nat := if q = 0 || (getQp s fid q).v2 then 64 else 32

/-- SQE_FETCH. -/
def execSqeFetch (fid : Nat) (s : State) : Host.Outcome State Fault Refusal :=
  match selectQueue s fid with
  | none => .next s
  | some q =>
    let n := fetchable s fid q
    let p := getQp s fid q
    let b := entryBytes s fid q
    let s := hostGet s fid (p.sqBase + b * p.sqHead) (b * n)
    .next (modFn (modQp s fid q fun p => { p with fetching := n }) fid fun f => { f with rr := q })

/-! ## XQ_RESUME (R158, R159, R161) -/

/-- Move a pair's head over `n` entries, its expected phase with it. -/
def QPair.skip (p : QPair) (n : Nat) : QPair :=
  { p with sqHead := p.adv p.sqHead n, sqPhase := if p.size ≤ p.sqHead + n then !p.sqPhase else p.sqPhase }

/-- Show RESULT of XQ_RESUME_STAT. -/
def resumeResult (s : State) (fid r : Nat) : State := fset s (xqF s fid XQ_RESUME_STAT_RESULT) r

/-- Apply an action to a frozen pair with nothing outstanding: 1 NEXT, 2 SKIP, 3 RESET; journalled as a marker. -/
def resumeApply (s : State) (fid q act n : Nat) : State :=
  let p := getQp s fid q
  if act = 2 && p.waiting < n then resumeResult (modQp s fid q fun p => { p with resume := none }) fid 5
  else
    let s := modQp s fid q fun p =>
      let p := { p with frozen := false, resume := none }
      if act = 2 then p.skip n
      else if act = 3 then { p with sqHead := 0, sqTail := 0, cqHead := 0, cqTail := 0, sqPhase := true, cqPhase := true,
                                    stale := false }
      else p
    let s := fset s ⟨xqBase s fid + 0x2004 + 0x20 * q, 24, 1⟩ 0
    resumeResult (jrnMarker s 0x03 (tenantOf s fid) q (q + act * 16 + n * 65536)) fid 1

/-- A write of XQ_RESUME with an action. -/
def resumeWrite (s : State) (fid q act n : Nat) : State :=
  if 9 ≤ q || (act = 2 && n = 0) then xqRsv s fid
  else
    let p := getQp s fid q
    if s.phase = .safe || s.phase = .ballast then resumeResult s fid 6
    else if p.mode = 0 || p.mode = 3 then resumeResult s fid 4
    else if !p.frozen then resumeResult s fid 3
    else if 0 < p.out || 0 < p.fetching then
      resumeResult (modQp s fid q fun p => { p with resume := some (act, n, 0) }) fid 2
    else resumeApply s fid q act n

/-- XQ_RESUME_NEXT. -/
def execXqResumeNext (fid q : Nat) (s : State) : Host.Outcome State Fault Refusal := .next (resumeWrite s fid q 1 0)

/-- XQ_RESUME_SKIP. -/
def execXqResumeSkip (fid q n : Nat) (s : State) : Host.Outcome State Fault Refusal := .next (resumeWrite s fid q 2 n)

/-- XQ_RESUME_RESET. -/
def execXqResumeReset (fid q : Nat) (s : State) : Host.Outcome State Fault Refusal := .next (resumeWrite s fid q 3 0)

/-- RESUME_APPLY: a latched action is applied once nothing of the pair is outstanding. -/
def execResumeApply (fid q : Nat) (s : State) : Host.Outcome State Fault Refusal :=
  let p := getQp s fid q
  match p.resume with
  | some (act, n, _) =>
    if 0 < p.out || 0 < p.fetching || s.phase = .safe || s.phase = .ballast then .next s
    else .next (resumeApply s fid q act n)
  | none => .next s

/-! ## The journal's mirror (R165, R166) -/

/-- Write every changed chunk to the flash system area: all entries are persisted, parked final ones leave, the
history keeps the newest JRN_HISTORY entries. -/
def jrnPersistAll (s : State) : State :=
  let all := jrnAll s
  let keep := max 1048576 ((image s).memory.jrnHistory * 1048576)
  let s := { s with nv := { s.nv with
    journal := (all.map fun e => (e.1, { e.2 with saved := true })).drop (all.length - keep) } }
  modJrn s fun j =>
    { j with ring := j.ring.map fun e => (e.1, { e.2 with saved := true })
             park := (j.park.filter fun e => e.2.state == 1).map fun e => (e.1, { e.2 with saved := true }) }

/-- JOURNAL_PERSIST_TICK. -/
def execJournalPersistTick (s : State) : Host.Outcome State Fault Refusal :=
  let s := jrnPersistAll s
  .next (jrnDrain s s.jrn.waiting)

end Sys2Proof.Machine
end

