-- ==== Sys2Proof/Machine/Trowel.lean ====
section
/-!
DEFINITION. Machine/Trowel.lean: tiles, flow contexts and the control store (07_trowel_tiles.md): dispatch, flow
faults and aborts, tile failure and replay, scrubbing and restoring words, the control-store window, the data cache's
side of snoops, SKIM_INSTALL. The microwords themselves are in Microword.lean.
-/

namespace Sys2Proof.Machine

/-! ## Tiles and contexts (R194 to R196) -/

def modTrw (s : State) (f : Trowel → Trowel) : State := { s with trw := f s.trw }

def ctxKey (t c : Nat) : Nat := 8 * t + c

def getCtx (s : State) (k : Nat) : Ctx := tget {} s.trw.ctxs k

def setCtx (s : State) (k : Nat) (c : Ctx) : State := modTrw s fun w => { w with ctxs := tset {} w.ctxs k c }

def modCtx (s : State) (k : Nat) (f : Ctx → Ctx) : State := setCtx s k (f (getCtx s k))

def getTile (s : State) (t : Nat) : Tile := tget {} s.trw.tiles t

def modTile (s : State) (t : Nat) (f : Tile → Tile) : State :=
  modTrw s fun w => { w with tiles := tmod {} w.tiles t f }

/-- The logical number of a physical tile, if it has one. -/
def logicalOf (s : State) (p : Nat) : Option Nat := (List.range 32).find? fun t => physOf s t == p && p != 0x3F

/-- Has physical tile `p` been retired (TRW_RETIREDn)? -/
def tileRetired (s : State) (p : Nat) : Bool :=
  if p < 32 then fbit s TRW_RETIRED0_RETIRED p else fbit s TRW_RETIRED1_RETIRED (p - 32)

def setTileRetired (s : State) (p : Nat) : State :=
  if p < 32 then fsetBit s TRW_RETIRED0_RETIRED p true else fsetBit s TRW_RETIRED1_RETIRED (p - 32) true

/-- Physical tiles that are spares: in service with no logical number. -/
def spareTiles (s : State) : List Nat :=
  (List.range 34).filter fun p => !tileRetired s p && (logicalOf s p).isNone && !isRetired s (.tile p)

/-- TRW_STATUS.WORKING and SPARES. -/
def showTiles (s : State) : State :=
  fset (fset s TRW_STATUS_WORKING (workingTiles s).length) TRW_STATUS_SPARES (min 3 (spareTiles s).length)

/-- R194: after SELFTEST the good tiles take logical numbers in ascending order, at most 32; the rest are spares. -/
def assignTiles (s : State) (good : List Nat) : State :=
  let s := (List.range 32).foldl (fun s t => fset s (tileMapF t) (good.getD t 0x3F)) s
  showTiles s

/-- Busy contexts of a tile. -/
def busyCount (s : State) (t : Nat) : Nat := ((List.range 8).filter fun c => (getCtx s (ctxKey t c)).busy).length

/-- R196: the tile with the fewest busy contexts, the lowest of them, and its lowest free context. -/
def pickContext (s : State) : Option (Nat × Nat) :=
  let best := (workingTiles s).foldl (fun b t => match b with
    | none => some t
    | some o => if busyCount s t < busyCount s o then some t else some o) none
  best.bind fun t => ((List.range 8).find? fun c => !(getCtx s (ctxKey t c)).busy).map fun c => (t, c)

/-! ## The control store (R198 to R206) -/

/-- The fill pattern: all ones (R200). -/
def csFill : Nat := 2 ^ 128 - 1

/-- The word at an address of the patch RAM or the Skim region, or of the mask ROM. -/
def csWord (s : State) (a : Nat) : Nat := if a < 0x30000 then Config.maskRom a else tget csFill s.trw.cs a

/-- What a fetch of an address returns: a trapped ROM address gives its patch word (R201). -/
def csFetch (s : State) (a : Nat) : Nat :=
  match tget 0 s.trw.traps a with
  | 0 => csWord s a
  | p + 1 => if a < 0x30000 then csWord s p else csWord s a

/-- Does a fetch of the address wait for the word to be restored (R198)? -/
def csWaits (s : State) (a : Nat) : Bool := 0x30000 ≤ a && tget 0 s.trw.csErr a == 2

/-- Write a word and its DRAM copy. -/
def csWrite (s : State) (a w : Nat) : State :=
  modTrw s fun t => { t with cs := tset csFill t.cs a w, csCopy := tset csFill t.csCopy a w, csErr := tset 0 t.csErr a 0 }

/-- R245: the binding word of an opcode, and what Admission makes of it. -/
def bindWord (entry : Nat) : Nat := if entry = 0 then csFill else 0xFF * 2 ^ 120 + 0xB1 * 2 ^ 112 + entry

def skimEntry (s : State) (opc : Nat) : Option Nat :=
  let w := csWord s (0x38000 + (opc - 0xC0))
  if fget s TRW_STATUS_SKIM_ON = 1 && 0xC0 ≤ opc && w / 2 ^ 112 % 256 == 0xB1 then some (w % 2 ^ 18) else none

/-- Fill the Skim region from a section (R200, R244, R245). -/
def skimFill (s : State) (sec : SkimSec) : State :=
  let s := modTrw s fun t =>
    { t with cs := t.cs.filter (fun e => e.1 < 0x38000), csCopy := t.csCopy.filter (fun e => e.1 < 0x38000)
             csErr := t.csErr.filter (fun e => e.1 < 0x38000) }
  let s := (List.range 64).foldl (fun s k => csWrite s (0x38000 + k) (bindWord (sec.bind.getD k 0))) s
  sec.words.zipIdx.foldl (fun s (w, i) => csWrite s (0x38040 + i) w) s

/-- R200 to R202: the loader fills the patch RAM, traps, entry table and tile configuration. -/
def bundleFill (s : State) (b : BundleSec) : State :=
  let s := modTrw s fun t =>
    { t with cs := [], csCopy := [], csErr := [], traps := b.traps.foldl (fun m (r, p) => tset 0 m r (p + 1)) []
             entries := b.entries.zipIdx.foldl (fun m ((a, _), i) => tset 0 m i a) [], entryIf := b.entryIf }
  let s := b.patches.foldl (fun s (a, ws) => ws.zipIdx.foldl (fun s (w, i) => csWrite s (a + i) w) s) s
  fset (fset s TRW_CACHE_CFG_WAYS b.ways) TRW_WDOG_LIMIT b.wdog

/-! ## Starting and ending flows (R196, R214, R235, R236) -/

/-- The SQE bytes 8i to 8i + 7 as they were fetched (Tables 05-2, 05-3). -/
def sqeWord (q : Sqe) (i : Nat) : Nat :=
  match i with
  | 0 => q.opc % 256 + q.flags % 256 * 2 ^ 8 + q.cid % 65536 * 2 ^ 16 + q.nsid % 2 ^ 32 * 2 ^ 32
  | 1 => q.slba % 2 ^ 64
  | 2 => q.nlb % 2 ^ 32 + q.cdw % 2 ^ 32 * 2 ^ 32
  | 3 => q.buf0 % 2 ^ 64
  | 4 => q.buf0Len % 2 ^ 32 + q.buf1Len % 2 ^ 32 * 2 ^ 32
  | 5 => q.buf1 % 2 ^ 64
  | 6 => q.qos % 256 + q.pushIdx % 256 * 2 ^ 8 + q.itag % 2 ^ 32 * 2 ^ 32
  | _ => 0

/-- Registers at Skim flow entry (Table 08-10). -/
def skimRegs (c : Cmd) (seq : Nat) : Tbl DWord :=
  let put := fun (m : Tbl DWord) (i v : Nat) => tset 0 m i (BitVec.ofNat 64 v)
  let m := (List.range (if c.v2 then 8 else 4)).foldl (fun m i => put m (2 + i) (sqeWord c.sqe i)) []
  put (put m 10 (c.tenant % 1024 + c.q % 16 * 1024 + b2n c.v2 * 16384)) 11 seq

/-- Start a command's flow on a context. The registers of a vendor flow are open at entry; its first word is the
vendor entry's. -/
def startFlow (s : State) (k seq : Nat) (c : Cmd) : State :=
  match skimEntry s c.sqe.opc with
  | some e =>
    setCtx s k { busy := true, seq := some seq, fid := c.fid, tenant := c.tenant, pc := e, regs := skimRegs c seq,
                 word := some (csFetch s e) }
  | none =>
    let a := Config.vendorEntry c.sqe.opc
    let regs := (List.range 64).foldl (fun m i => tset 0 m i (BitVec.ofNat 64 (Config.freeValue (s.freeCtr + i)))) []
    setCtx { s with freeCtr := s.freeCtr + 64 } k
      { busy := true, seq := some seq, fid := c.fid, tenant := c.tenant, pc := a, regs := regs, word := some (csFetch s a) }

/-- Free a context: its buffers, scratch and stack go with it, and so do its loads that wait for a line and its stores to
scratch and buffers; an STCS that has not started is cancelled (R208). -/
def freeCtx (s : State) (k : Nat) : State :=
  let s := setCtx s k {}
  let s := modTile s (k / 8) fun x =>
    { x with misses := x.misses.map (fun e => (e.1, e.2.filter (·.ctx != k)))
             stores := x.stores.filter fun e => e.ctx != k || e.space < 3 }
  modTrw s fun w => { w with stcs := w.stcs.take 1 ++ (w.stcs.drop 1).filter (·.ctx != k) }

/-- Free the context of a command that has ended. -/
def freeBound (s : State) (c : Cmd) : State :=
  match c.bound with
  | some (t, x) => freeCtx s (ctxKey t x)
  | none => s

/-- Abort the flow of a context at a microword boundary: a command flow ends with 0x0401. -/
def abortFlow (s : State) (k : Nat) : State :=
  match (getCtx s k).seq with
  | some seq => freeCtx (setDone s seq 0x0401) k
  | none => freeCtx s k

/-- TRW_FLTLOG (R214): the first fault since VALID was cleared; later ones count in MORE. -/
def faultLog (s : State) (t c code addr seq : Nat) : State :=
  if fget s TRW_FLTLOG0_VALID = 1 then fbump s TRW_FLTLOG0_MORE
  else
    let s := rset s 0x600050 (BitVec.ofNat 32 (code + physOf s t * 16 + c * 1024 + 0x2000))
    let s := rset s 0x600054 (BitVec.ofNat 32 addr)
    rset (rset s 0x600058 (BitVec.ofNat 32 seq)) 0x60005C (BitVec.ofNat 32 (seq / 2 ^ 32))

/-- R214: a flow fault: nothing of the word is committed, the flow is aborted, Keeper is told. -/
def flowFault (s : State) (t c code : Nat) : State :=
  let x := getCtx s (ctxKey t c)
  let p := physOf s t
  let s := faultLog s t c code x.pc (x.seq.getD 0)
  abortFlow (report s { src := 0x1A2 + p, cls := .contained, region := some (.flowCtx t c) }) (ctxKey t c)

/-- FLOW_ABORT (R213, R214): an abort request reaches the flow at its boundary; a context whose fetched word has an
undefined opcode raises MW_UNDEF there instead. -/
def execFlowAbort (t c : Nat) (undef : Bool) (s : State) : Host.Outcome State Fault Refusal :=
  let x := getCtx s (ctxKey t c)
  if !x.busy then .next s
  else if undef then .next (flowFault s t c 1)
  else .next (abortFlow s (ctxKey t c))

/-- CONTEXT_WATCHDOG (R215). -/
def execContextWatchdog (t c : Nat) (s : State) : Host.Outcome State Fault Refusal :=
  let x := getCtx s (ctxKey t c)
  if x.busy && fget s TRW_WDOG_LIMIT * 1024 ≤ x.count then .next (flowFault s t c 6) else .next s

/-! ## Tile failure (R222, R223) -/

/-- Replay or restart what ran on a logical tile: commands wait for dispatch again. -/
def replayTile (s : State) (t : Nat) : State :=
  let s := (List.range 8).foldl (fun s c =>
    let k := ctxKey t c
    match (getCtx s k).seq with
    | some seq =>
      match getCmd s seq with
      | some cmd => freeCtx (putCmd s seq { cmd with bound := none }) k
      | none => freeCtx s k
    | none => freeCtx s k) s
  modTile s t fun _ => {}

/-- A physical tile fails: it is reported and retired; the lowest spare takes its number, or the number is
withdrawn. Below 2 working tiles the minimum service set is lost. -/
def tileFails (s : State) (p : Nat) : State :=
  let s := raise s (0x180 + p)
  let s := retireUnit (setTileRetired s p) (.tile p)
  match logicalOf s p with
  | none => showTiles s
  | some t =>
    let s := replayTile s t
    let s := match (spareTiles s).head? with
      | some sp => fset s (tileMapF t) sp
      | none => fset s (tileMapF t) 0x3F
    minWatch (showTiles s)

/-- TILE_FAIL. -/
def execTileFail (p : Nat) (s : State) : Host.Outcome State Fault Refusal :=
  if 34 ≤ p || tileRetired s p then .next s else .next (tileFails s p)

/-- Is a context ready to issue (R197)? -/
def ctxReady (s : State) (k : Nat) : Bool :=
  let x := getCtx s k
  x.busy && x.word.isSome && x.wait == .none && !csWaits s x.pc

/-- TILE_WATCHDOG (R215): nothing issued for 1 ms with a ready context: the tile has failed. -/
def execTileWatchdog (t : Nat) (s : State) : Host.Outcome State Fault Refusal :=
  if t < 32 && physOf s t != 0x3F && (List.range 8).any (fun c => ctxReady s (ctxKey t c)) then
    .next (tileFails s (physOf s t))
  else .next s

/-- SPARE_SELFTEST (R222): a spare that fails is retired and is no longer a spare. -/
def execSpareSelftest (p : Nat) (pass : Bool) (s : State) : Host.Outcome State Fault Refusal :=
  if pass || !(spareTiles s).contains p then .next s else .next (tileFails s p)

/-! ## Scrubbing and restoring (R198, R199) -/

/-- SCRUB_READ: a word is found good (0), correctable (1) or uncorrectable (2); of a ROM word `copy` names the copy. A
corrected RAM word is written back; a ROM word whose first copy is bad is read from the second. -/
def execScrubRead (a outcome copy : Nat) (s : State) : Host.Outcome State Fault Refusal :=
  if 0x40000 ≤ a || outcome = 0 then .next s
  else if outcome = 1 then
    let s := fbump s TRW_SCRUB_STAT_CORR
    if a < 0x30000 then .next (raise s 0x1C4)
    else .next (modTrw s fun w => { w with csErr := tset 0 w.csErr a 0 })
  else if 0x30000 ≤ a then .next (modTrw s fun w => { w with csErr := tset 0 w.csErr a 2 })
  else
    let bad := tget 0 s.trw.rom2 a
    let now := if copy = 0 then (if bad % 2 = 1 then bad else bad + 1) else (if 2 ≤ bad then bad else bad + 2)
    let s := modTrw s fun w => { w with rom2 := tset 0 w.rom2 a now }
    if now = 3 then .next (raise s 0x1C7)
    else if copy = 0 && bad = 0 then .next (raise (fbump s TRW_SCRUB_STAT_ROM_COPY) 0x1C4)
    else .next s

/-- CS_WORD_RESTORE: an uncorrectable RAM word is restored from its copy, or from its fill pattern; where neither the
copy nor the NOR can restore it (`ok` false) the fault is fatal. -/
def execCsWordRestore (a : Nat) (ok : Bool) (s : State) : Host.Outcome State Fault Refusal :=
  if a < 0x30000 || 0x40000 ≤ a || tget 0 s.trw.csErr a ≠ 2 then .next s
  else if !ok then .next (raise s 0x1C7)
  else
    let s := modTrw s fun w =>
      { w with cs := tset csFill w.cs a (tget csFill w.csCopy a), csErr := tset 0 w.csErr a 0 }
    .next (raise (fbump s TRW_SCRUB_STAT_RESTORED) (if a < 0x38000 then 0x1C5 else 0x1C6))

/-- CS_WINDOW_SELECT (R224): a write of TRW_CS_ADDR fetches the word the window shows; addresses below the Skim
region are withheld. -/
def execCsWindowSelect (value : Word) (s : State) : Host.Outcome State Fault Refusal :=
  let a := bitsGet value 0 18
  let w := csWord s a
  let denied := a < 0x38000
  let s := fset s TRW_CS_ADDR_ADDR a
  let s := (List.range 4).foldl (fun s i =>
    fset s (TRW_CS_DATA_DATA.ix i 4) (if denied then 0 else w / 2 ^ (32 * i) % 2 ^ 32)) s
  let s := fset s TRW_CS_CHK_CHECK (Config.checkBits w)
  let s := fset s TRW_CS_CHK_DENIED (b2n denied)
  .next (fset s TRW_CS_CHK_CORRECTED (b2n (tget 0 s.trw.csErr a == 1)))

/-! ## The data cache and snoops (R217 to R220) -/

/-- DRAM channel of an address (R262): 2 MiB granules dealt round-robin over the live channels. -/
def dramChanOf (s : State) (addr : Nat) : Nat :=
  let l := dramLive s
  l.getD (addr / 0x200000 % max l.length 1) 0

/-- Ways of a tile's cache. -/
def cacheWays (s : State) : Nat := 2 * 2 ^ fget s TRW_CACHE_CFG_WAYS

/-- Sets of a tile's cache. -/
def cacheSets (s : State) : Nat := 1024 / cacheWays s

/-- The way that holds a line. -/
def cacheFind (s : State) (t line : Nat) : Option Nat :=
  (List.range (cacheWays s)).find? fun w =>
    let l : CacheLine := tget {} (getTile s t).cache (16 * (line % cacheSets s) + w)
    l.valid && l.line == line

/-- Tree pseudo-LRU over `n` ways (a power of 2): the way the tree's bits point at; node `i`'s bit 1 points right. -/
def plruVictim (bits : Nat) : Nat → Nat → Nat → Nat
  | 0, _, lo => lo
  | d + 1, node, lo =>
    let right := bits / 2 ^ node % 2
    plruVictim bits d (2 * node + 1 + right) (lo + right * 2 ^ d)

/-- The bits after a use of way `w`: every node on its path points away from it. -/
def plruTouch : Nat → Nat → Nat → Nat → Nat
  | 0, _, _, bits => bits
  | d + 1, node, w, bits =>
    let right := w / 2 ^ d % 2
    let cleared := bits / 2 ^ (node + 1) * 2 ^ (node + 1) + bits % 2 ^ node
    plruTouch d (2 * node + 1 + right) w (cleared + (1 - right) * 2 ^ node)

/-- Depth of the replacement tree. -/
def cacheDepth (s : State) : Nat := fget s TRW_CACHE_CFG_WAYS + 1

/-- Mark a way used. -/
def cacheTouch (s : State) (t line w : Nat) : State :=
  modTile s t fun x => { x with plru := tmod 0 x.plru (line % cacheSets s) (plruTouch (cacheDepth s) 0 w) }

/-- Put a line into a tile's cache, in an empty way or over the pseudo-least recently used one. -/
def cacheFill (s : State) (t line data : Nat) : State :=
  let set := line % cacheSets s
  let free := (List.range (cacheWays s)).find? fun w =>
    !(tget ({} : CacheLine) (getTile s t).cache (16 * set + w)).valid
  let w := free.getD (plruVictim (tget 0 (getTile s t).plru set) (cacheDepth s) 0 0)
  cacheTouch (modTile s t fun x => { x with cache := tset {} x.cache (16 * set + w) ⟨true, line, data⟩ }) t line w

/-- Drop every line that `p` selects from a tile's cache. -/
def cacheDrop (s : State) (t : Nat) (p : Nat → Bool) : State :=
  modTile s t fun x => { x with cache := x.cache.filter fun e => !p e.2.line }

/-- SNOOP_INVALIDATE (R219): a line leaves a tile's cache because another tile or agent writes it. -/
def execSnoopInvalidate (t line : Nat) (s : State) : Host.Outcome State Fault Refusal :=
  if 32 ≤ t then .next s else .next (cacheDrop s t (· == line))

/-- SNOOP_FILTER_COVER (R219): the filter of channel `c` is reported inconsistent and fenced, every line of the
channel is dropped, the filter is cleared and its fence lifted. -/
def execSnoopFilterCover (c : Nat) (s : State) : Host.Outcome State Fault Refusal :=
  if 4 ≤ c then .next s
  else
    let s := raise s (0x1C8 + c)
    let s := (List.range 32).foldl (fun s t => cacheDrop s t fun l => dramChanOf s (64 * l) == c) s
    let rseq := tget 0 s.kpr.lastRec (0x1C8 + c) - 1
    let s := match findRec s rseq with
      | some i => fset s (recCover i) 1
      | none => s
    .next (liftFence (modGroup s ((0x1C8 + c) / 16) fun g => { g with cover := g.cover || g.cont == some rseq }) rseq)

/-! ## STCS (R206 to R208) -/

/-- STCS_COMPLETE: every cache has acknowledged: the word and its DRAM copy are written, the issuer resumes; the next
waiting STCS becomes pending. -/
def execStcsComplete (s : State) : Host.Outcome State Fault Refusal :=
  match s.trw.stcs with
  | [] => .next s
  | h :: rest =>
    let s := csWrite (modTrw s fun w => { w with stcs := rest }) h.addr h.word
    .next (if (getCtx s h.ctx).wait == .stcs then modCtx s h.ctx fun c => { c with wait := .none, count := 0 } else s)

end Sys2Proof.Machine
end

