-- ==== Sys2Proof/Machine/FlashRows.lean ====
section
/-!
DEFINITION. Machine/FlashRows.lean: flash channels as every other unit sees them: LUN profiles, the row table, row
erasure, substitution, LUNs and channels in service (10_flash_channels.md, R300 to R304, R314, R319 to R323).
-/

namespace Sys2Proof

def LunProfile.stripUnits (p : LunProfile) : Nat := p.planes * p.bits * p.upp
def LunProfile.luns (p : LunProfile) : Nat := p.ces * p.vpc * p.lpv
def LunProfile.slot (p : LunProfile) : Nat := (p.pageBytes - 16) / max p.upp 1
def LunProfile.smax (p : LunProfile) : Nat := min 53 ((p.slot - 4368) / 16)
def LunProfile.reserve (p : LunProfile) : Nat := p.blocks - 1024 - 64 * p.sysGroups
/-- User capacity of a LUN in 4 KiB blocks (R302). -/
def LunProfile.lunUser (p : LunProfile) : Nat := 1024 * p.psets * p.stripUnits
/-- First reserve row (R314). -/
def LunProfile.firstReserve (p : LunProfile) : Nat := 1024 + 64 * p.sysGroups

/-- 4 KiB units of one dump row. -/
def LunProfile.dumpRowUnits (p : LunProfile) : Nat := p.psets * p.planes * p.upp

end Sys2Proof

namespace Sys2Proof.Machine

/-- The profile of a channel; none when it is absent. -/
def flashProfile (s : State) (c : Nat) : Option LunProfile :=
  (((image s).flashProf.chmap.getD c none).bind fun i => (image s).flashProf.profiles[i]?)

def getChan (s : State) (c : Nat) : FlashChan := tget {} s.flc c

def modChan (s : State) (c : Nat) (f : FlashChan → FlashChan) : State := { s with flc := tmod {} s.flc c f }

/-- SERVING, fenced or not (R310). -/
def chanServes (s : State) (c : Nat) : Bool :=
  fget s (FLC_CH_STATE_STATE.ix c 0x4000) == 3 || fget s (FLC_CH_STATE_STATE.ix c 0x4000) == 5

def lunOk (s : State) (c lun : Nat) : Bool := fbit s (FLC_LUN_OK_OK.ix c 0x4000) lun

/-- LUNs of a channel in service. -/
def lunsOk (s : State) (c : Nat) : List Nat := (List.range 32).filter (lunOk s c)

/-- Channels in SERVING. -/
def chansServing (s : State) : List Nat := (List.range 32).filter (chanServes s)

/-! ## The row table (R320) -/

def rowKey (c lun row : Nat) : Nat := (c * 32 + lun) * 8192 + row

def getRow (s : State) (c lun row : Nat) : FlashRow := tget {} s.nv.flash (rowKey c lun row)

def modRow (s : State) (c lun row : Nat) (f : FlashRow → FlashRow) : State :=
  { s with nv := { s.nv with flash := tmod {} s.nv.flash (rowKey c lun row) f } }

/-- The physical row a logical row stands for (R321). -/
def physRow (s : State) (c lun row : Nat) : Nat :=
  let r := getRow s c lun row
  if r.bad && r.sub ≠ 0 then r.sub else row

/-- Free reserve rows of a LUN, lowest first. -/
def reserveFree (s : State) (c lun : Nat) (p : LunProfile) : List Nat :=
  ((List.range p.reserve).map (· + p.firstReserve)).filter fun r =>
    !(getRow s c lun r).bad && !(s.nv.flash.any fun e => e.1 / 8192 == c * 32 + lun && e.2.bad && e.2.sub == r)

/-- R304: the strength a row takes at an erase. -/
def strengthFor (p : LunProfile) (slc : Bool) (pe : Nat) : Nat :=
  if slc then (p.strengthMap.headD (0, 0)).1
  else p.strengthMap.foldl (fun st e => if e.2 ≤ pe then e.1 else st) 0

/-- A physical row erased: PE + 1, its strength and mode set, nothing in it. -/
def FlashRow.wiped (r : FlashRow) (p : LunProfile) (slc : Bool) : FlashRow :=
  { r with pe := min (r.pe + 1) (2 ^ 24 - 1), strength := strengthFor p slc (r.pe + 1), slc := slc, reads := 0,
           next := 0, pages := [] }

/-- Highest and lowest PE count among the segment rows of a LUN (R322, FLC_LUN_WEAR). -/
def lunPeMax (s : State) (c lun : Nat) : Nat :=
  (s.nv.flash.map fun e => if e.1 / 8192 == c * 32 + lun && e.1 % 8192 < 1024 then e.2.pe else 0).foldl max 0

def lunPeMin (s : State) (c lun : Nat) : Nat :=
  let rows := (s.nv.flash.filter fun e => e.1 / 8192 == c * 32 + lun && e.1 % 8192 < 1024).map (·.2.pe)
  if rows.length < 1024 then 0 else rows.foldl min (rows.headD 0)

/-! ## Dump capacity (R319) -/

/-- Erased dump rows of a channel. -/
def dumpRowsFree (s : State) (c : Nat) : Nat :=
  ((lunsOk s c).map fun l => 64 - (s.nv.flash.filter fun e =>
    e.1 / 8192 == c * 32 + l && 1024 ≤ e.1 % 8192 && e.1 % 8192 < 1088 && 0 < e.2.next).length).sum

/-- Erased dump capacity of a channel in units. -/
def dumpUnitsFree (s : State) (c : Nat) : Nat :=
  match flashProfile s c with
  | some p => if chanServes s c then dumpRowsFree s c * p.dumpRowUnits else 0
  | none => 0

/-- Bring FLC_DUMP_FREE of every channel and FLC_DUMP_TOTAL up to date. -/
def showDump (s : State) : State :=
  let s := (List.range 32).foldl (fun s c => fset s (FLC_DUMP_FREE_MIB.ix c 0x4000) (dumpUnitsFree s c / 256)) s
  fset s FLC_DUMP_TOTAL_MIB ((chansServing s).map fun c => dumpUnitsFree s c / 256).sum

end Sys2Proof.Machine
end

