-- ==== Sys2Proof/Machine/Parity.lean ====
section
/-!
DEFINITION. Machine/Parity.lean: Undercoat's P and Q over GF(2^8) and the reconstruction of missing strips
(09_log_and_undercoat.md, R272, R273). A unit is its 4,096 data bytes and 32 metadata bytes as one little-endian
number.
-/

namespace Sys2Proof.Machine

/-- Product in GF(2^8) of polynomial 0x11D: `k` bits of `b` are left. -/
def gfMulAux : Nat → Nat → Nat → Nat
  | 0, _, _ => 0
  | k + 1, a, b =>
    let twice := if 128 ≤ a then Nat.xor (2 * a) 0x11D else 2 * a
    Nat.xor (if b % 2 = 1 then a else 0) (gfMulAux k twice (b / 2))

def gfMul (a b : Nat) : Nat := gfMulAux 8 a b

/-- g^k for g = 2. -/
def gfPow : Nat → Nat
  | 0 => 1
  | k + 1 => gfMul 2 (gfPow k)

/-- Inverse of a nonzero element, found among the powers of g. -/
def gfInv (a : Nat) : Nat :=
  match (List.range 255).find? fun k => gfMul a (gfPow k) == 1 with
  | some k => gfPow k
  | none => 0

/-- Bytes of a unit. -/
def unitBytes : Nat := 4128

/-- Every byte of the low `n` bytes of a unit multiplied by `c`. -/
def unitScale (c : Nat) : Nat → Nat → Nat
  | 0, _ => 0
  | n + 1, u => gfMul c (u % 256) + 256 * unitScale c n (u / 256)

/-- The unit times `c`. -/
def scale (c u : Nat) : Nat := unitScale c unitBytes u

/-- XOR of a list of units. -/
def xorAll (us : List Nat) : Nat := us.foldl Nat.xor 0

/-- Unit at position `pos` of data strip `i` (R269). -/
def stripUnit (su : Nat) (data : List Nat) (i pos : Nat) : Nat := data.getD (i * su + pos) 0

/-- P of a position over the data strips `is` (R272). -/
def parityP (su : Nat) (data : List Nat) (is : List Nat) (pos : Nat) : Nat :=
  xorAll (is.map fun i => stripUnit su data i pos)

/-- Q of a position over the data strips `is`. -/
def parityQ (su : Nat) (data : List Nat) (is : List Nat) (pos : Nat) : Nat :=
  xorAll (is.map fun i => scale (gfPow i) (stripUnit su data i pos))

/-- Data strip `j` at a position, from the surviving strips; `miss` lists the missing strips, width `d` is P and
`d` + 1 is Q (Table 09-7). None when more than two are missing. -/
def reconstruct (d su : Nat) (data : List Nat) (p q : Nat) (miss : List Nat) (j pos : Nat) : Option Nat :=
  if !miss.contains j then some (stripUnit su data j pos)
  else if 2 < miss.length then none
  else
    let live := (List.range d).filter fun i => !miss.contains i
    let a := Nat.xor p (parityP su data live pos)
    let b := Nat.xor q (parityQ su data live pos)
    match miss.find? (fun k => k != j) with
    | none => some a
    | some k =>
      if k = d then some (scale (gfInv (gfPow j)) b)
      else if k = d + 1 then some a
      else some (scale (gfInv (Nat.xor (gfPow j) (gfPow k))) (Nat.xor b (scale (gfPow k) a)))

end Sys2Proof.Machine
end

