-- ==== Sys2Proof/Machine/Undercoat.lean ====
section
/-!
DEFINITION. Machine/Undercoat.lean: media geometry, the mapping tables, the write buffer, segments and stripes
(09_log_and_undercoat.md, R247 to R273): the operations that host commands and Undercoat's own flows share. Data is
held in plain text: Masking's encryption is symbolic in this model.
-/

namespace Sys2Proof.Machine

def modUdc (s : State) (f : Undercoat → Undercoat) : State := { s with udc := f s.udc }

def modPools (s : State) (f : PoolNv → PoolNv) : State := { s with nv := { s.nv with pools := f s.nv.pools } }

/-! ## Geometry (R248, R249, R268) -/

/-- Bits set in a mask, ascending. -/
def maskBits (w m : Nat) : List Nat := (List.range w).filter fun i => m / 2 ^ i % 2 == 1

/-- The zone table the disk members use (R338). -/
def diskTable (s : State) : Option ZoneTable :=
  ((maskBits 16 (fget s UDC_DMEMB_MEMB)).head?.bind fun h => (image s).zones.hmap.getD h none).bind fun t =>
    (image s).zones.tables[t]?

/-- The profile the flash members use (R250). -/
def poolProfile (s : State) : Option LunProfile :=
  (maskBits 32 (fget s UDC_FMEMB_MASK)).head?.bind (flashProfile s)

/-- Cylinders of zone `z` (Table 11-4). -/
def zoneCyls (t : ZoneTable) (z : Nat) : Nat :=
  (match t.zones[z + 1]? with | some n => n.cylStart | none => t.cyls) - (t.zones.getD z {}).cylStart

/-- Bands of a zone (R338). -/
def zoneBands (t : ZoneTable) (z : Nat) : Nat := (zoneCyls t z - 2) / max t.bandCyl 1

/-- Fragments per track of a zone (R338). -/
def zoneFpt (z : ZoneRec) : Nat := (z.spt - 2) / max z.frag 1

/-- Bands of an actuator. -/
def bandCount (t : ZoneTable) : Nat := ((List.range t.zones.length).map (zoneBands t)).sum

/-- Zone of a band, and the band's number within it (R339). -/
def bandZone (t : ZoneTable) : Nat → Nat → Nat → Nat × Nat
  | 0, z, b => (z, b)
  | fuel + 1, z, b => if b < zoneBands t z then (z, b) else bandZone t fuel (z + 1) (b - zoneBands t z)

/-- First cylinder of a band (R338, R339): a zone's first two cylinders are never part of one. -/
def bandFirstCyl (t : ZoneTable) (b : Nat) : Nat :=
  let (z, i) := bandZone t t.zones.length 0 b
  (t.zones.getD z {}).cylStart + 2 + i * t.bandCyl

/-- Position of a sector slot: cylinder, head, slot of the track. -/
def sectorPos (cyl head slot : Nat) : Nat := (cyl * 16 + head) * 1024 + slot

/-- Zone record of disk segment `seg` (R268). -/
def segZone (s : State) (seg : Nat) : Option ZoneRec :=
  (diskTable s).bind fun t => t.zones[(bandZone t t.zones.length 0 (seg / 2)).1]?

/-- Number of segments of a medium. -/
def segCount (s : State) (disk : Bool) : Nat :=
  if disk then 2 * (match diskTable s with | some t => bandCount t | none => 0)
  else match poolProfile s with | some p => 1024 * p.luns | none => 0

/-- STRIP_UNITS of a segment (R269). -/
def segSu (s : State) (disk : Bool) (seg : Nat) : Nat :=
  if disk then (match segZone s seg with | some z => z.frag | none => 1)
  else match poolProfile s with | some p => p.stripUnits | none => 1

/-- Stripes of a segment: page sets, or band track fragments. -/
def segStripes (s : State) (disk : Bool) (seg : Nat) : Nat :=
  if disk then
    match diskTable s, segZone s seg with
    | some t, some z => t.bandCyl * t.heads * zoneFpt z
    | _, _ => 0
  else match poolProfile s with | some p => p.psets | none => 0

/-- Is the member mask of the old geometry in force for a segment that opens at an index (R285)? -/
def geomMask (s : State) (disk : Bool) (seg : Nat) : Nat :=
  let now := if disk then fget s UDC_DMEMB_MEMB else fget s UDC_FMEMB_MASK
  match s.udc.reshape with
  | some r => if r.disk == disk && r.commit ≤ seg then r.oldMask else now
  | none => now

/-- Geometry identifier a segment that opens at an index takes. -/
def geomId (s : State) (disk : Bool) (seg : Nat) : Nat :=
  let now := if disk then s.udc.dgeom else s.udc.fgeom
  match s.udc.reshape with
  | some r => if r.disk == disk && r.commit ≤ seg then now - 1 else now
  | none => now

/-- Is a member in service for a segment (R248)? -/
def memberServes (s : State) (disk : Bool) (seg m : Nat) : Bool :=
  if disk then (if seg % 2 = 0 then fbit s UDC_DINSV_ACT_A m else fbit s UDC_DINSV_ACT_B m)
  else fbit s UDC_FINSV_MASK m && lunOk s m (seg / 1024)

/-- Members that take a strip in a segment that opens now. -/
def segMembers (s : State) (disk : Bool) (seg : Nat) : List Nat :=
  (maskBits 32 (geomMask s disk seg)).filter (memberServes s disk seg)

/-- Narrow limit: 6+2 on flash, 4+2 on disk (R248). -/
def narrowLimit (disk : Bool) : Nat := if disk then 6 else 8

/-- Width a segment opened now would take, for side A or LUN 0. -/
def widthNow (s : State) (disk : Bool) : Nat :=
  if disk then max (segMembers s true 0).length (segMembers s true 1).length
  else (maskBits 32 (fget s UDC_FMEMB_MASK % 2 ^ 32)).countP fun c => fbit s UDC_FINSV_MASK c

/-- Segment record, by medium. -/
def segKey (disk : Bool) (seg : Nat) : Nat := 2 * seg + b2n disk

def getSeg (s : State) (disk : Bool) (seg : Nat) : SegRec := tget {} s.udc.segs (segKey disk seg)

/-- One more location record (R287). -/
def logRecord (s : State) (n : Nat := 1) : State :=
  modUdc s fun u => { u with log := u.log + n, unsaved := u.unsaved + n }

/-- Records the location log holds. -/
def logSize (s : State) : Nat := (image s).memory.maplogMi * 2 ^ 20

/-- R288: while the log is full, changes that need a record wait. -/
def logFull (s : State) : Bool := logSize s ≤ s.udc.log

def modSeg (s : State) (disk : Bool) (seg : Nat) (f : SegRec → SegRec) : State :=
  logRecord (modUdc s fun u => { u with segs := tmod {} u.segs (segKey disk seg) f })

def stripeKey (disk : Bool) (seg stripe : Nat) : Nat := (seg * 8192 + stripe) * 2 + b2n disk

def getStripe (s : State) (disk : Bool) (seg stripe : Nat) : StripeRec :=
  tget {} s.nv.pools.stripes (stripeKey disk seg stripe)

def modStripe (s : State) (disk : Bool) (seg stripe : Nat) (f : StripeRec → StripeRec) : State :=
  modPools s fun p => { p with stripes := tmod {} p.stripes (stripeKey disk seg stripe) f }

/-- Is a segment free: never opened, or erased, and past the formatting of R252? -/
def segFree (s : State) (disk : Bool) (seg : Nat) : Bool :=
  seg < segCount s disk && (getSeg s disk seg).state == 0 && (disk || seg < s.udc.formatNext)

/-- Free segments of a medium (R277). -/
def freeCount (s : State) (disk : Bool) : Nat :=
  let total := if disk then segCount s true else min (segCount s false) s.udc.formatNext
  total - (s.udc.segs.filter fun e => e.1 % 2 == b2n disk && e.2.state != 0 && e.1 / 2 < total).length

/-- Segments kept for garbage collection, rebuild and reshape (R277). -/
def reserveSegs (disk : Bool) : Nat := if disk then 2 else 8

/-- Does a head write to disk, and may it open the reserve (Table 09-6)? -/
def headDisk (h : Nat) : Bool := 3 ≤ h
def headReserve (h : Nat) : Bool := h == 2 || h == 5

/-! ## The mapping (R253 to R257) -/

def granKey (t n g : Nat) : Nat := (t % 1024 * 16 + n % 16) * 2 ^ 52 + g

def getGran (s : State) (t n g : Nat) : GranEntry := tget {} s.udc.gran (granKey t n g)

def getExt (s : State) (t n x : Nat) : Extent := tget {} s.udc.ext (granKey t n x)

def setGran (s : State) (t n g : Nat) (e : GranEntry) : State :=
  logRecord (modUdc s fun u => { u with gran := tset {} u.gran (granKey t n g) e })

def setExt (s : State) (t n x : Nat) (e : Extent) : State :=
  logRecord (modUdc s fun u => { u with ext := tset {} u.ext (granKey t n x) e })

/-- 16-bit little-endian field of a unit's data at a byte offset. -/
def unitField (u off n : Nat) : Nat := u / 2 ^ (8 * off) % 2 ^ (8 * n)

/-- Where linear unit `u` of a segment lies, counted from the start of stripe `k`: an extent's units run on from one
stripe into the next (DEDUCED from R270 and R282). -/
def unitPlace (s : State) (disk : Bool) (seg k u : Nat) : Nat × Nat :=
  let n := (getStripe s disk seg k).data.length
  if n = 0 || u < n then (k, u) else (k + u / n, u % n)

/-- The stored unit. -/
def storedUnit (s : State) (disk : Bool) (seg k u : Nat) : Nat :=
  let p := unitPlace s disk seg k u
  (getStripe s disk seg p.1).data.getD p.2 0

/-- Directory entry of granule `j` of a disk extent (R282). -/
def dirEntry (s : State) (x : Extent) (j : Nat) : Nat := unitField (storedUnit s true x.seg x.stripe x.unit) (2 * j) 2

/-- Disk location of granule `j` of a disk extent as an entry: kind ZERO where the directory says so; `slot` 1 marks
the location as a disk one. -/
def diskEntry (s : State) (x : Extent) (j : Nat) : GranEntry :=
  if x.dir then
    let d := dirEntry s x j
    if d = 0xFFFF then {}
    else { kind := 1, clen := d % 4, seg := x.seg, stripe := x.stripe, unit := x.unit + d / 4 % 512, slot := 1 }
  else { kind := 1, seg := x.seg, stripe := x.stripe, unit := x.unit + 4 * j, slot := 1 }

/-- The override of a granule of an extent. -/
def Extent.override (x : Extent) (j : Nat) : Option GranEntry :=
  (x.ovr.find? (·.1 == j)).map (·.2.2)

/-- GEN as the unit's metadata carries it (Table 09-5). -/
def metaGen (u : Nat) : Nat := unitField u (4096 + 2) 2 / 16

/-- R257: the entry that locates a granule. -/
def entryOf (s : State) (t n pool g : Nat) : GranEntry :=
  if pool = 0 then getGran s t n g
  else
    let x := getExt s t n (g / 64)
    match x.override (g % 64) with
    | some e => e
    | none =>
      match x.kind with
      | 0 => {}
      | 2 => getGran s t n g
      | _ =>
        let e := diskEntry s x (g % 64)
        if e.kind = 0 then e else { e with gen := metaGen (storedUnit s true e.seg e.stripe e.unit) }

/-- Flash-resident hybrid data in 4 KiB blocks, and whether one more extent fits the share (R283). -/
def hybridFlash (s : State) : Nat := 256 * (s.udc.ext.filter fun e => e.2.kind == 2).length

def shareHasRoom (s : State) : Bool := hybridFlash s + 256 ≤ (image s).pools.hybFlash

/-- Put an entry where a granule's entry lies: the granule table, a flash-resident extent's block, or an override; a
write to a ZERO hybrid extent decides its residence (R283). -/
def setEntry (s : State) (t n pool g : Nat) (e : GranEntry) : State :=
  if pool = 0 then setGran s t n g e
  else
    let x := getExt s t n (g / 64)
    if x.kind = 2 then setGran s t n g e
    else if pool = 2 && x.kind = 0 && x.ovr.isEmpty && shareHasRoom s then
      setGran (setExt s t n (g / 64) { x with kind := 2, gen := (x.gen + 1) % 65536 }) t n g e
    else
      let order := match x.ovr.find? (·.1 == g % 64) with | some o => o.2.1 | none => s.udc.age
      setExt (modUdc s fun u => { u with age := u.age + 1 }) t n (g / 64)
        { x with gen := (x.gen + 1) % 65536, ovr := tset (0, {}) x.ovr (g % 64) (order, e) }

/-- Override records in use, and whether one is free (R255). -/
def ovrUsed (s : State) : Nat := (s.udc.ext.map fun e => e.2.ovr.length).sum

def ovrSize (s : State) : Nat := ((image s).pools.wlog * 4 + (image s).memory.dirtyMax * 1024) / 16

/-- R271: do two entries agree in KIND, GEN and LOC? -/
def sameLoc (a b : GranEntry) : Bool :=
  a.kind == b.kind && a.gen == b.gen && a.seg == b.seg && a.stripe == b.stripe && a.unit == b.unit && a.slot == b.slot

/-! ## LOST granules (R259) -/

/-- Mark a granule LOST: code 0x0A06, source 0xA01, UDC_LOST. -/
def markLost (s : State) (id : GranId) (pool : Nat) : State :=
  let e := entryOf s id.tenant id.ns pool id.gran
  if e.kind = 3 then s
  else
    let data := id.tenant % 1024 + id.ns % 16 * 1024 + id.gran % 2 ^ 18 * 16384
    let s := setEntry s id.tenant id.ns pool id.gran { kind := 3, gen := e.gen }
    let s := modPools s fun p => { p with lost := p.lost + 1 }
    raise (dmkSend s 0x0A06 data) 0xA01 data

/-! ## The write buffer (R263 to R265) -/

def getSlot (s : State) (i : Nat) : Slot := tget {} s.udc.slots i

def modSlot (s : State) (i : Nat) (f : Slot → Slot) : State :=
  modUdc s fun u => { u with slots := tmod {} u.slots i f }

/-- Slots of the local area, and of the second area. -/
def localSlots (s : State) : Nat := (image s).memory.dirtyMax * 64
def secondSlots (s : State) : Nat := (image s).memory.secondMax * 64

/-- Slots reserved, dirty or destaging. -/
def slotsUsed (s : State) : Nat := s.udc.slots.length

/-- Mirror-in copies held as orphans. -/
def orphanCount (s : State) : Nat := (s.ozp.orphans.map fun o => o.records.length).sum

/-- R265: the effective dirty limit in slots and the term that sets it. -/
def dirtyLimit (s : State) : Nat × Nat :=
  let a := (localSlots s, 0)
  let e := fget s BLS_LIMIT_SLOTS
  let a := if e < a.1 then (e, 1) else a
  let f := secondSlots s - orphanCount s
  let a := if 0 < orphanCount s && f < a.1 then (f, 2) else a
  match s.udc.dramSlots with
  | some d => if d < a.1 then (d, 3) else a
  | none => a

/-- Below GC_URGENT: host writes that need the medium wait (R277). -/
def urgent (s : State) (disk : Bool) : Bool :=
  0 < segCount s disk && freeCount s disk * 100 < (image s).pools.gcUrgent * segCount s disk

/-- May Admission reserve `k` slots (R265)? -/
def slotsRoom (s : State) (k : Nat) : Bool := slotsUsed s + k ≤ (dirtyLimit s).1

/-- `k` free slots, lowest first. -/
def freeSlots (s : State) (k : Nat) : List Nat :=
  ((List.range (slotsUsed s + k)).filter fun i => (getSlot s i).state == 0).take k

/-- Reserve `k` slots for a command. -/
def reserveSlots (s : State) (seq k : Nat) : List Nat × State :=
  let is := freeSlots s k
  (is, is.foldl (fun s i => modSlot s i fun _ => { state := 1, owner := seq + 1 }) s)

def freeSlot (s : State) (i : Nat) : State := modSlot s i fun _ => {}

/-! ## Reading a block -/

/-- Outcome of a read: the block, or the status it fails with. -/
abbrev ReadResult := Except Nat Nat

/-- Which strips of a stripe a unit's read lacks: those gone for good and those away (R260). -/
structure Missing where
  gone : List Nat := []
  away : List Nat := []
  deriving DecidableEq, Repr

/-- R258, R260, R273: a stored unit, reconstructed when its strip is missing; 0x0201 when only the return of absent
members can bring it, 0x0203 when nothing can. -/
def readUnit (s : State) (disk : Bool) (seg k u : Nat) (m : Missing) : ReadResult :=
  let p := unitPlace s disk seg k u
  let r := getStripe s disk seg p.1
  let gone := (r.bad ++ m.gone).dedup
  let miss := (gone ++ m.away).dedup
  let su := max r.su 1
  let pos := p.2 % su
  match reconstruct (r.data.length / su) su r.data (r.p.getD pos 0) (r.q.getD pos 0) miss (p.2 / su) pos with
  | some v => .ok v
  | none => .error (if gone.length ≤ 2 then 0x0201 else 0x0203)

/-- The data bytes of a unit as a number. -/
def unitData (u : Nat) : Nat := u % 2 ^ 32768

/-- The part of a stripe that begins at a unit. -/
def partAt (s : State) (disk : Bool) (seg k first : Nat) : Option StripePart :=
  (getStripe s disk seg k).parts.find? fun p => p.first == first && p.stripe0 == k

/-- Block `b` (0 to 3) of a granule on media. A compressed granule's units are read and decompressed: its blocks are
those it was compressed from. -/
def mediaBlock (s : State) (e : GranEntry) (b : Nat) (m : Missing) : ReadResult :=
  let disk := e.slot == 1
  if e.clen = 0 then (readUnit s disk e.seg e.stripe (e.unit + b) m).map unitData
  else
    match (List.range (4 - e.clen)).foldl (fun (acc : ReadResult) i => match acc with
        | .error x => .error x
        | .ok _ => readUnit s disk e.seg e.stripe (e.unit + i) m) (.ok 0) with
    | .error x => .error x
    | .ok _ =>
      let p := unitPlace s disk e.seg e.stripe e.unit
      .ok (((partAt s disk e.seg p.1 p.2).map fun q => q.blocks.getD b 0).getD 0)

/-- Block `b` of a granule by its entry; a slot's missing block is read from PREV (R264). -/
def entryBlock : Nat → State → GranEntry → Nat → Missing → ReadResult
  | 0, _, _, _, _ => .ok 0
  | fuel + 1, s, e, b, m =>
    match e.kind with
    | 0 => .ok 0
    | 3 => .error 0x0203
    | 2 =>
      let x := getSlot s e.slot
      if x.mask / 2 ^ b % 2 = 1 then .ok (x.blocks.getD b 0) else entryBlock fuel s x.prev b m
    | _ => mediaBlock s e b m

/-- A block of a namespace by its LBA. -/
def readBlock (s : State) (t n pool lba : Nat) (m : Missing) : ReadResult :=
  entryBlock (slotsUsed s + 2) s (entryOf s t n pool (lba / 4)) (lba % 4) m

/-! ## Writing into the write buffer (R264) -/

/-- Replace element `i` of a list. -/
def setAt {α : Type} (l : List α) (i : Nat) (v : α) : List α := l.set i v

/-- Store one block in a slot unless a command with a higher SEQ has stored it. -/
def slotStore (x : Slot) (seq b v : Nat) : Slot :=
  if x.tags.getD b 0 ≤ seq then
    { x with blocks := setAt x.blocks b v, tags := setAt x.tags b seq
             mask := if x.mask / 2 ^ b % 2 = 1 then x.mask else x.mask + 2 ^ b }
  else x

/-- Fill a block of a fresh slot with the granule's present data; its tag stays. -/
def slotFill (x : Slot) (b v : Nat) : Slot :=
  { x with blocks := setAt x.blocks b v, mask := if x.mask / 2 ^ b % 2 = 1 then x.mask else x.mask + 2 ^ b }

/-- The granule's dirty slot, which a write to it merges into. -/
def dirtySlot (s : State) (id : GranId) (pool : Nat) : Option Nat :=
  let e := entryOf s id.tenant id.ns pool id.gran
  if e.kind = 2 && (getSlot s e.slot).state == 2 then some e.slot else none

/-- One granule's blocks of a command enter the write buffer: merged into its dirty slot, or into the new slot `i`,
which a compressing namespace's granule fills with all its blocks first (`fill`). The answer says which slot holds the
data and whether `i` was used. -/
def bufferGranule (s : State) (id : GranId) (pool seq i clen : Nat) (bs : List (Nat × Nat))
    (fill : List (Nat × Nat) := []) : (Nat × Bool) × State :=
  match dirtySlot s id pool with
  | some k =>
    ((k, false), modSlot s k fun x => { bs.foldl (fun x b => slotStore x seq b.1 b.2) x with
      clen := clen, local2 := false, acked := false })
  | none =>
    let e := entryOf s id.tenant id.ns pool id.gran
    let gen := (e.gen + 1) % 4096
    let new : Slot := { state := 1, id := id, clen := clen, gen := gen, prev := e, owner := seq + 1 }
    let new := fill.foldl (fun x b => slotFill x b.1 b.2) new
    let s := modSlot s i fun _ => bs.foldl (fun x b => slotStore x seq b.1 b.2) new
    ((i, true), setEntry s id.tenant id.ns pool id.gran { kind := 2, clen := clen, gen := gen, slot := i })

/-! ## Stripes and segments (R267 to R270) -/

/-- A unit's 4,096 data bytes with its metadata (Table 09-5); SEG and STRIPE are entered where it is placed. -/
def makeUnit (data : Nat) (id : GranId) (typ unit clen gen seqTag : Nat) : Nat :=
  data % 2 ^ 32768 +
    (id.tenant % 1024 + id.ns % 16 * 2 ^ 10 + typ % 4 * 2 ^ 14 + unit % 4 * 2 ^ 16 + clen % 4 * 2 ^ 18 +
      gen % 4096 * 2 ^ 20 + id.incarn % 2 ^ 32 * 2 ^ 32 + id.gran % 2 ^ 64 * 2 ^ 64 + seqTag % 2 ^ 64 * 2 ^ 128) * 2 ^ 32768

/-- A pad unit. -/
def padUnit : Nat := 2 ^ 14 * 2 ^ 32768

/-- Enter SEG and STRIPE in a unit's metadata; a pad unit carries none. -/
def placeUnit (u seg stripe : Nat) : Nat :=
  if u = padUnit then u else u % 2 ^ (8 * 4120) + seg % 2 ^ 26 * 2 ^ (8 * 4120) + stripe % 8192 * 2 ^ (8 * 4124)

/-- Open stripes of a head, and of a medium. -/
def headOpen (s : State) (h : Nat) : List OpenStripe := s.udc.open_.filter (·.head == h)
def mediumOpen (s : State) (disk : Bool) : List OpenStripe := s.udc.open_.filter fun o => headDisk o.head == disk

/-- R267: may the head open one more stripe? -/
def mayOpen (s : State) (h : Nat) : Bool :=
  let n := (headOpen s h).length
  let heads := if headDisk h then [3, 4, 5] else [0, 1, 2]
  let idle := (heads.filter fun k => k != h && (headOpen s k).isEmpty).length
  let limit := if headDisk h then (image s).pools.dOpen else (image s).pools.fOpen
  n == 0 || (n < 2 && (mediumOpen s (headDisk h)).length + idle < limit)

/-- Highest PE count of a flash segment's member rows (R322). -/
def segWear (s : State) (seg : Nat) : Nat :=
  ((segMembers s false seg).map fun c => (getRow s c (seg / 1024) (physRow s c (seg / 1024) (seg % 1024))).pe).foldl max 0

/-- Has a member withdrawn the band of a disk segment (R349)? -/
def bandWithdrawn (s : State) (seg : Nat) : Bool :=
  (segMembers s true seg).any fun h => (tget {} s.rdc (2 * h + seg % 2)).withdrawn.contains (seg / 2)

/-- As a disk segment is opened the pending defects of its band take effect (R349). -/
def takeDefects (s : State) (seg : Nat) : State :=
  match diskTable s with
  | none => s
  | some t =>
    let lo := sectorPos (bandFirstCyl t (seg / 2)) 0 0
    let hi := sectorPos (bandFirstCyl t (seg / 2) + t.bandCyl) 0 0
    (segMembers s true seg).foldl (fun s h =>
      { s with rdc := tmod {} s.rdc (2 * h + seg % 2) fun r =>
          { r with slips := r.slips.map fun e => if lo ≤ e.1 && e.1 < hi then (e.1, true) else e } }) s

/-- The free segment a head opens next (R322, R285): during a reshape of the medium the lowest index below COMMIT,
else the lowest at or above it; outside one the least worn flash segment, ties to the lowest index, or the lowest disk
segment. Only segments that would not be too narrow count. -/
def pickSegment (s : State) (h : Nat) : Option Nat :=
  let disk := headDisk h
  let okSeg := fun i => segFree s disk i && narrowLimit disk ≤ (segMembers s disk i).length &&
    !(disk && bandWithdrawn s i)
  if freeCount s disk ≤ reserveSegs disk && !headReserve h then none
  else
    let cands := (List.range (segCount s disk)).filter okSeg
    let plain := if disk then cands.head? else cands.foldl (fun b i => match b with
      | none => some i
      | some j => if segWear s i < segWear s j then some i else some j) none
    match s.udc.reshape with
    | some r => if r.disk = disk then (cands.find? (· < r.commit)).orElse fun _ => cands.head? else plain
    | none => plain

/-- The segment a head is filling. -/
def headSegment (s : State) (h : Nat) : Option Nat :=
  let disk := headDisk h
  (s.udc.segs.find? fun e => e.1 % 2 == b2n disk && e.2.state == 1 && e.2.head == h &&
    e.2.next < segStripes s disk (e.1 / 2)).map fun e => e.1 / 2

/-- Open a new segment for a head. -/
def openSegment (s : State) (h : Nat) : Option (Nat × State) :=
  (pickSegment s h).map fun i =>
    (i, modSeg (if headDisk h then takeDefects s i else s) (headDisk h) i fun _ =>
      { state := 1, members := segMembers s (headDisk h) i, geom := geomId s (headDisk h) i, head := h })

/-- Open a new stripe for a head. -/
def openStripe (s : State) (h : Nat) : Option State :=
  if !mayOpen s h then none
  else
    let disk := headDisk h
    ((headSegment s h).map fun i => (i, s)).orElse (fun _ => openSegment s h) |>.map fun (i, s) =>
      let r := getSeg s disk i
      let o : OpenStripe := { head := h, seg := i, stripe := r.next, su := max 1 (segSu s disk i),
                              width := r.members.length - 2, lastNs := s.tb.ns }
      modUdc (modSeg s disk i fun r => { r with next := r.next + 1 }) fun u => { u with open_ := u.open_ ++ [o] }

/-- Data units of an open stripe. -/
def OpenStripe.room (o : OpenStripe) : Nat := o.su * o.width - o.units.length

/-- Fill the rest of a stripe with pad units. -/
def OpenStripe.pad (o : OpenStripe) : OpenStripe :=
  { o with units := o.units ++ List.replicate o.room padUnit, full := true }

/-- Change the open stripe of a segment and number. -/
def modOpen (s : State) (disk : Bool) (seg stripe : Nat) (f : OpenStripe → OpenStripe) : State :=
  let at_ := fun (o : OpenStripe) => headDisk o.head == disk && o.seg == seg && o.stripe == stripe
  modUdc s fun u => { u with open_ := u.open_.map fun o => if at_ o then f o else o }

/-- Add units to an open stripe that has room for them. -/
def OpenStripe.add (o : OpenStripe) (us : List Nat) (p : StripePart) (now : Nat) : OpenStripe :=
  let units := o.units ++ us.map fun u => placeUnit u o.seg o.stripe
  { o with units := units, parts := o.parts ++ [{ p with stripe0 := o.stripe, first := o.units.length, count := us.length }]
           lastNs := now, full := decide (o.su * o.width ≤ units.length) }

/-- The head's stripe that still takes units. -/
def fillingStripe (s : State) (h : Nat) : Option OpenStripe := (headOpen s h).find? fun o => !o.full

/-- R270: append a granule's units to the head's stripe; one that does not fit pads it and goes to the next. None
while no stripe can be opened. -/
def appendGranule (s : State) (h : Nat) (us : List Nat) (p : StripePart) : Option State :=
  let disk := headDisk h
  let fresh := fun (s : State) => (openStripe s h).bind fun s =>
    (fillingStripe s h).map fun o => modOpen s disk o.seg o.stripe fun o => o.add us p s.tb.ns
  match fillingStripe s h with
  | none => fresh s
  | some o =>
    if us.length ≤ o.room then some (modOpen s disk o.seg o.stripe fun o => o.add us p s.tb.ns)
    else fresh (modOpen s disk o.seg o.stripe OpenStripe.pad)

/-- Append an extent's units, `fuel` stripes at most: they run on from stripe to stripe of one segment, and the part
that carries the location update goes with the last unit (R281, R282). `start` is where the first unit went. -/
def appendUnits : Nat → State → Nat → List Nat → Option (Nat × Nat) → StripePart → Option State
  | 0, _, _, _, _, _ => none
  | fuel + 1, s, h, us, start, p =>
    match fillingStripe s h with
    | none => (openStripe s h).bind fun s => appendUnits fuel s h us start p
    | some o =>
      let at0 := start.getD (o.stripe, o.units.length)
      let k := min o.room us.length
      let fin := us.length ≤ o.room
      let s := modOpen s (headDisk h) o.seg o.stripe fun o =>
        let units := o.units ++ (us.take k).map fun u => placeUnit u o.seg o.stripe
        { o with units := units, lastNs := s.tb.ns, full := decide (o.su * o.width ≤ units.length)
                 parts := if fin then o.parts ++ [{ p with stripe0 := at0.1, first := at0.2 }] else o.parts }
      if fin then some s else appendUnits fuel s h (us.drop k) (some at0) p

/-- Units left in the head's segment. -/
def segmentRoom (s : State) (h : Nat) : Nat :=
  let disk := headDisk h
  match headSegment s h, fillingStripe s h with
  | some i, o =>
    let r := getSeg s disk i
    let here := match o with | some o => if o.seg = i then o.room else 0 | none => 0
    here + (segStripes s disk i - r.next) * (segSu s disk i * (r.members.length - 2))
  | none, some o => o.room
  | none, none => 0

/-- Append an extent: one that does not fit in what is left of the segment starts a new one. -/
def appendExtent (s : State) (h : Nat) (us : List Nat) (p : StripePart) : Option State :=
  let disk := headDisk h
  if us.length ≤ segmentRoom s h then appendUnits (2 * us.length + 2) s h us none { p with count := us.length }
  else
    let s := match fillingStripe s h with
      | some o => modOpen s disk o.seg o.stripe OpenStripe.pad
      | none => s
    let s := match headSegment s h with
      | some i => modSeg s disk i fun r => { r with next := segStripes s disk i }
      | none => s
    appendUnits (2 * us.length + 2) s h us none { p with count := us.length }

end Sys2Proof.Machine
end

