-- ==== Sys2Proof/Machine/UndercoatFlows.lean ====
section
/-!
DEFINITION. Machine/UndercoatFlows.lean: Undercoat's own flows (09_log_and_undercoat.md): destage, sealing, rebuild,
garbage collection, extent destage, Settling, reshape, the location log and checkpoints.
-/

namespace Sys2Proof.Machine

/-! ## What a segment holds (R278) -/

/-- Pool of the namespace an owner names; none when its incarnation is gone. -/
def poolOf (s : State) (id : GranId) : Option Nat :=
  ((getTenNv s id.tenant).ns.find? (·.1 == id.ns)).bind fun e =>
    if e.2.incarn = id.incarn then some e.2.pool else none

/-- Does the namespace of an owner compress? -/
def compressOf (s : State) (id : GranId) : Bool :=
  match (getTenNv s id.tenant).ns.find? (·.1 == id.ns) with | some e => e.2.compress | none => false

/-- Does an entry name a place in a segment? -/
def inSegment (disk : Bool) (seg : Nat) (e : GranEntry) : Bool :=
  e.kind == 1 && (e.slot == 1) == disk && e.seg == seg

/-- Does the PREV of a dirty or destaging slot name the segment? -/
def prevIn (s : State) (disk : Bool) (seg : Nat) : Bool :=
  s.udc.slots.any fun x => 2 ≤ x.2.state && inSegment disk seg x.2.prev

/-- Is a granule part valid: does the present entry, or a PREV, name its first unit? -/
def granLive (s : State) (disk : Bool) (seg : Nat) (p : StripePart) : Bool :=
  let names := fun (e : GranEntry) => inSegment disk seg e && e.stripe == p.stripe0 && e.unit == p.first
  (match poolOf s p.id with | none => false | some pool => names (entryOf s p.id.tenant p.id.ns pool p.id.gran)) ||
    s.udc.slots.any fun x => 2 ≤ x.2.state && x.2.id == p.id && names x.2.prev

/-- Is an extent part still where its extent lies? -/
def extLive (s : State) (seg : Nat) (p : StripePart) : Bool :=
  (poolOf s p.id).isSome &&
    (let x := getExt s p.id.tenant p.id.ns p.id.gran
     x.kind == 1 && x.seg == seg && x.stripe == p.stripe0 && x.unit == p.first)

/-- Valid units of a part. -/
def partValid (s : State) (disk : Bool) (seg : Nat) (p : StripePart) : Nat :=
  if p.what = 2 then
    if extLive s seg p then
      let x := getExt s p.id.tenant p.id.ns p.id.gran
      b2n x.dir + ((List.range 64).map fun j =>
        let e := diskEntry s x j
        if e.kind = 1 && ((x.override j).isNone || prevIn s disk seg) then 4 - e.clen else 0).sum
    else 0
  else if p.what = 4 then 0
  else if granLive s disk seg p then p.count else 0

/-- The sealed stripes of a segment. -/
def segStripeList (s : State) (disk : Bool) (seg : Nat) : List (Nat × StripeRec) :=
  (s.nv.pools.stripes.filter fun e => e.1 % 2 == b2n disk && e.1 / 2 / 8192 == seg).map fun e => (e.1 / 2 % 8192, e.2)

/-- Valid units of a segment. -/
def validUnits (s : State) (disk : Bool) (seg : Nat) : Nat :=
  ((segStripeList s disk seg).flatMap fun r => r.2.parts.map (partValid s disk seg)).sum

/-- Does a segment hold a unit that is not valid? -/
def hasInvalid (s : State) (disk : Bool) (seg : Nat) : Bool :=
  validUnits s disk seg < ((segStripeList s disk seg).map fun r => r.2.data.length).sum

/-- Sealed segments of a medium that no flow has emptied yet. -/
def sealedSegs (s : State) (disk : Bool) : List Nat :=
  (s.udc.segs.filter fun e => e.1 % 2 == b2n disk && e.2.state == 2 && !s.udc.erase.contains e.1 &&
    !s.udc.eraseReady.contains e.1).map fun e => e.1 / 2

/-- R280: is a medium full? -/
def mediumFull (s : State) (disk : Bool) : Bool :=
  0 < segCount s disk && (disk || segCount s false ≤ s.udc.formatNext) && freeCount s disk ≤ reserveSegs disk &&
    !(sealedSegs s disk).any (hasInvalid s disk)

/-- FLASH_FULL and DISK_FULL, and code 0x0A09 as a medium becomes full. -/
def noteFull (s : State) : State :=
  [false, true].foldl (fun s disk =>
    let f := if disk then UDC_STATUS_DISK_FULL else UDC_STATUS_FLASH_FULL
    let now := mediumFull s disk
    let s := if now && fget s f == 0 then dmkSend s 0x0A09 0 else s
    fset s f (b2n now)) s

/-- R249: FLASH_RO, DISK_RO and source 0xA02 as a medium falls below the narrow limit. -/
def noteNarrow (s : State) : State :=
  [false, true].foldl (fun s disk =>
    let f := if disk then UDC_STATUS_DISK_RO else UDC_STATUS_FLASH_RO
    let members := if disk then fget s UDC_DMEMB_MEMB else fget s UDC_FMEMB_MASK
    let now := members != 0 && widthNow s disk < narrowLimit disk
    let s' := fset s f (b2n now)
    if now && fget s f == 0 then raise s' 0xA02 else s') s

/-- Bring UDC_GEOM, UDC_FINSV and UDC_DINSV up to date with the members in service, given which disk actuators are. -/
def showGeom (s : State) : State :=
  let now := fget s UDC_FMEMB_MASK
  let old := match s.udc.reshape with | some r => if r.disk then 0 else r.oldMask | none => 0
  let s := (List.range 32).foldl (fun s c =>
    fsetBit s UDC_FINSV_MASK c ((now / 2 ^ c % 2 == 1 || old / 2 ^ c % 2 == 1) && chanServes s c)) s
  let s := fset (fset s UDC_GEOM_F_WIDTH (popCount 32 now)) UDC_GEOM_F_NOW (widthNow s false)
  fset (fset s UDC_GEOM_D_WIDTH (popCount 16 (fget s UDC_DMEMB_MEMB))) UDC_GEOM_D_NOW (widthNow s true)

/-! ## Charging a member (R258, R270) -/

/-- A media error of a member: a count and code 0x0A0A. -/
def chargeMember (s : State) (disk : Bool) (m side : Nat) : State :=
  let data := m % 64 + b2n disk * 64 + b2n (disk && side == 1) * 128
  dmkSend (modUdc s fun u => { u with mediaErr := tmod 0 u.mediaErr data (· + 1) }) 0x0A0A data

/-! ## Sealing (R270, R271) -/

/-- Where a sealed part lies, as an entry. -/
def partEntry (disk : Bool) (seg : Nat) (p : StripePart) : GranEntry :=
  { kind := 1, clen := p.clen, gen := p.gen, seg := seg, stripe := p.stripe0, unit := p.first, slot := b2n disk }

/-- Slots that keep an older slot in PREV read its units from media instead. -/
def rePrev (s : State) (i : Nat) (e : GranEntry) : State :=
  modUdc s fun u => { u with slots := u.slots.map fun (k, x) =>
    (k, if x.prev.kind = 2 && x.prev.slot = i then { x with prev := e } else x) }

/-- The location update of a granule: applied when the present entry is the expected one, dropped otherwise. The
answer says whether it was applied. -/
def applyGran (s : State) (disk : Bool) (seg : Nat) (p : StripePart) : Bool × State :=
  match poolOf s p.id with
  | none => (false, s)
  | some pool =>
    let new := partEntry disk seg p
    if sameLoc (entryOf s p.id.tenant p.id.ns pool p.id.gran) p.expect then
      (true, setEntry s p.id.tenant p.id.ns pool p.id.gran new)
    else
      (false, match p.slot with | some i => rePrev s i new | none => s)

/-- Overrides of an extent after a rewrite that read `merged`: those it merged are freed, every newer one stays. -/
def keepOvr (ovr : Tbl (Nat × GranEntry)) (merged : List (Nat × GranEntry)) : Tbl (Nat × GranEntry) :=
  ovr.filter fun o => o.2.2.kind == 2 || o.2.2.kind == 3 ||
    !(merged.any fun m => m.1 == o.1 && sameLoc m.2 o.2.2 && m.2.kind == o.2.2.kind)

/-- The update of a whole extent (R281, R283): the extent lies on disk; a flash-resident extent's granules that changed
meanwhile become overrides. -/
def applyExt (s : State) (seg : Nat) (p : StripePart) : State :=
  let t := p.id.tenant
  let n := p.id.ns
  let x := getExt s t n p.id.gran
  if (poolOf s p.id).isNone || x.gen ≠ p.extGen then s
  else
    let base : Extent := { kind := 1, dir := p.dir, heat := x.heat, gen := (x.gen + 1) % 65536, seg := seg,
                           stripe := p.stripe0, unit := p.first, units := p.count }
    if x.kind = 2 then
      let newer := (List.range 64).filter fun j =>
        let e := getGran s t n (64 * p.id.gran + j)
        e.kind == 2 || e.kind == 3 || !(p.merged.any fun m => m.1 == j && sameLoc m.2 e)
      let ovr := newer.foldl (fun o j => tset (0, {}) o j (s.udc.age, getGran s t n (64 * p.id.gran + j))) []
      let s := (List.range 64).foldl (fun s j => setGran s t n (64 * p.id.gran + j) {}) s
      setExt s t n p.id.gran { base with ovr := ovr }
    else setExt s t n p.id.gran { base with ovr := keepOvr x.ovr p.merged }

/-- The end of a move up to flash: the extent becomes flash-resident once every granule it held lies in its block;
overrides that are newer take their granules' places. -/
def applyUp (s : State) (p : StripePart) : State :=
  let t := p.id.tenant
  let n := p.id.ns
  let x := getExt s t n p.id.gran
  let ready := p.merged.all fun m => m.2.kind != 1 || (getGran s t n (64 * p.id.gran + m.1)).kind == 1
  if (poolOf s p.id).isNone || x.gen ≠ p.extGen || !ready then s
  else
    let s := (keepOvr x.ovr p.merged).foldl (fun s o => setGran s t n (64 * p.id.gran + o.1) o.2.2) s
    setExt s t n p.id.gran { kind := 2, heat := x.heat, gen := (x.gen + 1) % 65536 }

/-- Apply the updates of a sealed stripe. The answer lists the slots now mapped and the slots superseded. -/
def applyParts (s : State) (disk : Bool) (seg : Nat) : List StripePart → (List Nat × List Nat) × State
  | [] => (([], []), s)
  | p :: rest =>
    let (ok, s) :=
      if p.what = 2 then (true, applyExt s seg p)
      else if p.what = 3 then (true, setGran s p.id.tenant p.id.ns p.id.gran (partEntry disk seg p))
      else if p.what = 4 then (true, applyUp s p)
      else applyGran s disk seg p
    let ((m, d), s) := applyParts s disk seg rest
    ((match p.slot with
      | none => (m, d)
      | some i => if ok then (i :: m, d) else (m, i :: d)), s)

/-- R269, R272: the stripe as its members hold it. -/
def writeStripe (s : State) (o : OpenStripe) : StripeRec :=
  let is := List.range o.width
  { members := (getSeg s (headDisk o.head) o.seg).members, su := o.su, data := o.units
    p := (List.range o.su).map (parityP o.su o.units is), q := (List.range o.su).map (parityQ o.su o.units is)
    sealed_ := true, parts := o.parts }

/-- A segment whose last stripe is sealed is sealed. -/
def closeIfDone (s : State) (disk : Bool) (seg : Nat) : State :=
  if (getSeg s disk seg).state == 1 && segStripes s disk seg ≤ (getSeg s disk seg).next &&
      !(s.udc.open_.any fun o => headDisk o.head == disk && o.seg == seg) then
    modSeg s disk seg fun r => { r with state := 2 }
  else s

/-- Seal a stripe: it is on media with P and Q; its updates are applied; its slots wait for their location records,
superseded ones are released at once (R266). -/
def sealStripe (s : State) (o : OpenStripe) : State :=
  let disk := headDisk o.head
  let s := modStripe s disk o.seg o.stripe fun _ => writeStripe s o
  let s := modUdc s fun u => { u with open_ := u.open_.filter (· != o) }
  let ((m, d), s) := applyParts s disk o.seg o.parts
  let key := stripeKey disk o.seg o.stripe
  let s := modUdc s fun u =>
    { u with release := if m.isEmpty then u.release else u.release ++ [(key, m)]
             releaseReady := if d.isEmpty then u.releaseReady else u.releaseReady ++ [(key, d)] }
  noteFull (closeIfDone s disk o.seg)

/-- The open stripe of a segment and number. -/
def findOpen (s : State) (disk : Bool) (seg stripe : Nat) : Option OpenStripe :=
  s.udc.open_.find? fun o => headDisk o.head == disk && o.seg == seg && o.stripe == stripe

/-- Add an abandoned stripe's granules to a new stripe of its head; extents under way are left to be taken again. -/
def rejoin (s : State) (h : Nat) (units : List Nat) : List StripePart → State
  | [] => s
  | p :: rest =>
    let s := if p.what = 2 || p.what = 4 then s
      else
        let us := (units.drop p.first).take p.count
        match appendGranule s h us p with
        | some s => s
        | none => match p.slot with
          | some i => modSlot s i fun x => { x with state := 2 }
          | none => s
    rejoin s h units rest

/-- R270: abandon an open stripe: its units count for nothing and its granules join a new stripe; one that finds no
stripe waits in its slot, or at its source. -/
def abandonStripe (s : State) (o : OpenStripe) : State :=
  let s := modUdc s fun u =>
    { u with open_ := (u.open_.filter (· != o)).map fun q =>
        if q.head = o.head && q.seg = o.seg then
          { q with parts := q.parts.filter fun p => p.what != 2 || o.stripe < p.stripe0 || q.stripe < o.stripe } else q }
  closeIfDone (rejoin s o.head o.units o.parts) (headDisk o.head) o.seg

/-- STRIPE_SEAL: every strip of a full stripe is reported good, the head's oldest first. A parity datapath mismatch
(R273) abandons it instead. -/
def execStripeSeal (disk : Bool) (seg stripe : Nat) (parityOk : Bool) (s : State) :
    Host.Outcome State Fault Refusal :=
  match findOpen s disk seg stripe with
  | none => .next s
  | some o =>
    if !o.full || (headOpen s o.head).head? != some o then .next s
    else if parityOk then .next (sealStripe s o)
    else .next (raise (abandonStripe s o) 0xA04)

/-- SEAL_TIMEOUT: SEAL_TMO after its last unit an open stripe is padded and sealed. -/
def execSealTimeout (disk : Bool) (seg stripe : Nat) (s : State) : Host.Outcome State Fault Refusal :=
  match findOpen s disk seg stripe with
  | none => .next s
  | some o =>
    if o.full || o.units.isEmpty || s.tb.ns < o.lastNs + (image s).pools.sealTmo * 1000 ||
        (headOpen s o.head).head? != some o then .next s
    else .next (sealStripe (modUdc s fun u => { u with open_ := u.open_.map fun q => if q = o then o.pad else q }) o.pad)

/-- STRIP_WRITE_FAIL: a strip on member `m` fails to write. -/
def execStripWriteFail (disk : Bool) (seg stripe m : Nat) (s : State) : Host.Outcome State Fault Refusal :=
  match findOpen s disk seg stripe with
  | none => .next s
  | some o =>
    if (getSeg s disk seg).members.contains m then
      .next (abandonStripe (chargeMember s disk m (seg % 2)) o)
    else .next s

/-! ## Destage (R550, R264) -/

/-- The oldest dirty slot whose write has completed: its second copy is written. -/
def oldestDirty (s : State) : Option (Nat × Slot) :=
  s.udc.slots.foldl (fun b e =>
    if e.2.state == 2 && (e.2.local2 || e.2.acked) then
      match b with
      | none => some e
      | some o => if e.2.age < o.2.age then some e else b
    else b) none

/-- What the reads of a row lack, for a block. -/
def missingOf (bad : List BadBlock) (lba : Nat) : Missing :=
  match bad.find? (·.lba == lba) with
  | some b => { gone := b.gone, away := b.away }
  | none => {}

/-- The four blocks of a granule by its entry, or the status of the first that fails. -/
def granBlocks (s : State) (e : GranEntry) (g : Nat) (bad : List BadBlock) : Except Nat (List Nat) :=
  [0, 1, 2, 3].foldr (fun b acc => match acc, entryBlock (slotsUsed s + 2) s e b (missingOf bad (4 * g + b)) with
    | .ok l, .ok v => .ok (v :: l)
    | .error x, .ok _ => .error x
    | _, .error x => .error x) (.ok [])

/-- The units that store a granule (R253, R256). -/
def granUnits (blocks : List Nat) (id : GranId) (typ clen gen : Nat) (tags : List Nat) : List Nat :=
  let seqTag := tags.foldl max 0
  if clen = 0 then blocks.zipIdx.map fun (b, i) => makeUnit b id typ i 0 gen seqTag
  else (List.range (4 - clen)).map fun i => makeUnit (Config.compressUnit blocks (4 - clen) i) id typ i clen gen seqTag

/-- Head a slot's granule goes to (Table 09-6). -/
def destageHead (s : State) (id : GranId) (pool : Nat) : Nat :=
  if pool = 0 then 0
  else if (getExt s id.tenant id.ns (id.gran / 64)).kind = 2 then 0 else 1

/-- DESTAGE_TAKE (R550, R264): the oldest dirty slot's granule, with the blocks it lacks filled from PREV, streams into
its head's open stripe. A granule whose missing blocks are lost is marked LOST; one that must wait for absent members,
or for a stripe, stays. -/
def execDestageTake (bad : List BadBlock) (s : State) : Host.Outcome State Fault Refusal :=
  match oldestDirty s with
  | none => .next s
  | some (i, x) =>
    match poolOf s x.id with
    | none => .next (modUdc (modSlot s i fun x => { x with state := 3 }) fun u =>
        { u with releaseReady := u.releaseReady ++ [(0, [i])] })
    | some pool =>
      match granBlocks s { kind := 2, slot := i } x.id.gran bad with
      | .error 0x0203 =>
        .next (modUdc (markLost (modSlot s i fun x => { x with state := 3 }) x.id pool) fun u =>
          { u with releaseReady := u.releaseReady ++ [(0, [i])] })
      | .error _ => .next s
      | .ok bs =>
        let part : StripePart :=
          { id := x.id, clen := x.clen, gen := x.gen, seqTag := x.tags.foldl max 0, blocks := bs, slot := some i
            expect := { kind := 2, clen := x.clen, gen := x.gen, slot := i } }
        match appendGranule s (destageHead s x.id pool) (granUnits bs x.id 0 x.clen x.gen x.tags) part with
        | none => .next s
        | some s => .next (modSlot s i fun x => { x with state := 3 })

/-! ## Relocation: rebuild, garbage collection, reshape (R274 to R279) -/

/-- Raw units of a media entry, reconstructed where needed. -/
def mediaUnits (s : State) (e : GranEntry) (n : Nat) (bad : List BadBlock) (g : Nat) : Except Nat (List Nat) :=
  (List.range n).foldr (fun i acc =>
    match acc, readUnit s (e.slot == 1) e.seg e.stripe (e.unit + i) (missingOf bad (4 * g + i)) with
    | .ok l, .ok v => .ok (v :: l)
    | .error x, .ok _ => .error x
    | _, .error x => .error x) (.ok [])

/-- What became of moving one part: moved or nothing to move, its granule lost, or it has to wait. -/
inductive Moved where
  | done (s : State)
  | waits

/-- Move a granule part on. -/
def moveGran (s : State) (disk : Bool) (seg : Nat) (p : StripePart) (bad : List BadBlock) : Moved :=
  match poolOf s p.id with
  | none => .done s
  | some pool =>
    let e := entryOf s p.id.tenant p.id.ns pool p.id.gran
    if !(inSegment disk seg e && e.stripe == p.stripe0 && e.unit == p.first) then .done s
    else match mediaUnits s e (4 - e.clen) bad p.id.gran with
      | .error 0x0203 => .done (markLost s p.id pool)
      | .error _ => .waits
      | .ok us =>
        match appendGranule s (if disk then 5 else 2) us { p with expect := e, slot := none, what := 0 } with
        | some s => .done s
        | none => .waits

/-- Move an extent part on; granules of it that are lost are marked. -/
def moveExt (s : State) (seg : Nat) (p : StripePart) (bad : List BadBlock) : Moved :=
  if !extLive s seg p then .done s
  else
    let x := getExt s p.id.tenant p.id.ns p.id.gran
    let one := fun (u : Nat) => readUnit s true seg x.stripe (x.unit + u) (missingOf bad (256 * p.id.gran + u))
    let rs := (List.range x.units).map one
    if rs.any fun r => match r with | .error 0x0201 => true | _ => false then .waits
    else
      let us := rs.map fun r => match r with | .ok v => v | .error _ => padUnit
      let lost := (List.range 64).filter fun j =>
        let e := diskEntry s x j
        e.kind == 1 && (x.override j).isNone && (List.range (4 - e.clen)).any fun i =>
          match rs.getD (e.unit - x.unit + i) (.ok 0) with | .error _ => true | _ => false
      let s := lost.foldl (fun s j => markLost s { p.id with gran := 64 * p.id.gran + j } (poolOf s p.id |>.getD 1)) s
      let x := getExt s p.id.tenant p.id.ns p.id.gran
      match appendExtent s 5 us { p with extGen := x.gen, dir := x.dir, merged := [], what := 2 } with
      | some s => .done s
      | none => .waits

/-- Move every valid part of a list. -/
def moveParts (s : State) (disk : Bool) (seg : Nat) (bad : List BadBlock) : List StripePart → Moved
  | [] => .done s
  | p :: rest =>
    match (if p.what = 2 then moveExt s seg p bad else if p.what = 4 then .done s else moveGran s disk seg p bad) with
    | .waits => .waits
    | .done s => moveParts s disk seg bad rest

/-- Relocate every valid unit of a segment and queue its erase; none while the move must wait. -/
def relocate (s : State) (disk : Bool) (seg : Nat) (bad : List BadBlock) : Option State :=
  match moveParts s disk seg bad ((segStripeList s disk seg).flatMap (·.2.parts)) with
  | .waits => none
  | .done s => some (modUdc s fun u => { u with erase := u.erase ++ [segKey disk seg] })

/-- Segments that lack a strip and have not been visited. -/
def affected (s : State) (disk : Bool) : List Nat :=
  (sealedSegs s disk).filter fun i => !(getSeg s disk i).lost.isEmpty

/-- UDC_REBUILD, UDC_STATUS.REBUILD, codes 0x0A01 and 0x0A02, reduction 0 (R274). -/
def noteRebuild (s : State) : State :=
  let segs := [false, true].flatMap fun d => (affected s d).map fun i => (getSeg s d i).lost.length
  let s := fset s UDC_REBUILD_SEG1 (min 65535 (segs.countP (· == 1)))
  let s := fset s UDC_REBUILD_SEG2 (min 65535 (segs.countP (2 ≤ ·)))
  if segs.isEmpty then
    if fget s UDC_STATUS_REBUILD = 1 then setReduction (dmkSend (fset s UDC_STATUS_REBUILD 0) 0x0A02 0) 0 false else s
  else if fget s UDC_STATUS_REBUILD = 0 then setReduction (dmkSend (fset s UDC_STATUS_REBUILD 1) 0x0A01 0) 0 true else s

/-- Data strip (or P, or Q) index that a member position holds in stripe `k` of width `w` (R269). -/
def stripAt (w k pos : Nat) : Nat := (pos + w * (k / max w 1 + 1) - k) % max w 1

/-- Mark a member's strips of a segment as never to be read again (R274, R276). -/
def loseStrips (s : State) (disk : Bool) (seg m : Nat) : State :=
  let r := getSeg s disk seg
  match r.members.findIdx? (· == m) with
  | none => s
  | some pos =>
    if r.lost.contains m then s
    else
      let s := modSeg s disk seg fun r => { r with lost := r.lost ++ [m] }
      (segStripeList s disk seg).foldl (fun s e =>
        modStripe s disk seg e.1 fun r => { r with bad := (r.bad ++ [stripAt r.members.length e.1 pos]).dedup }) s

/-- R274: close an open segment: its open stripes are abandoned and it counts as sealed. -/
def closeSegment (s : State) (disk : Bool) (seg : Nat) : State :=
  let s := modSeg s disk seg fun r => { r with state := 2 }
  (s.udc.open_.filter fun o => headDisk o.head == disk && o.seg == seg).foldl abandonStripe s

/-- MEMBER_RETIRE (R274, R249): flash channel or HDA `m` is retired, or only its LUN or side `sub`. -/
def memberGone (s : State) (disk : Bool) (m : Nat) (sub : Option Nat) : State :=
  let hit := (s.udc.segs.filter fun e => e.1 % 2 == b2n disk && e.2.state != 0 && e.2.members.contains m &&
    (match sub with | none => true | some k => (if disk then e.1 / 2 % 2 else e.1 / 2 / 1024) == k)).map (·.1 / 2)
  let s := if disk then
      [0, 1].foldl (fun s side => if sub.getD side = side then
        fsetBit s (if side = 0 then UDC_DINSV_ACT_A else UDC_DINSV_ACT_B) m false else s) s
    else s
  let s := showGeom s
  let s := hit.foldl (fun s i => if (getSeg s disk i).state = 1 then closeSegment s disk i else s) s
  let s := hit.foldl (fun s i => loseStrips s disk i m) s
  recomputeFloors (noteFull (noteNarrow (noteRebuild s)))

def execMemberRetire (disk : Bool) (m : Nat) (sub : Option Nat) (s : State) : Host.Outcome State Fault Refusal :=
  if m < 32 then .next (memberGone s disk m sub) else .next s

/-- The segment rebuild visits next: those lacking two strips first, then ascending. -/
def rebuildNext (s : State) (disk : Bool) : Option Nat :=
  ((affected s disk).find? fun i => 2 ≤ (getSeg s disk i).lost.length).orElse fun _ => (affected s disk).head?

/-- REBUILD_VISIT (R274, R275). -/
def execRebuildVisit (disk : Bool) (bad : List BadBlock) (s : State) : Host.Outcome State Fault Refusal :=
  match rebuildNext s disk with
  | none => .next s
  | some i => if prevIn s disk i then .next s else .next (((relocate s disk i bad).map noteRebuild).getD s)

/-- The segment garbage collection takes (R278, R323): one whose relocation a channel asked for, else the sealed one
with the fewest valid units, ties to the lowest index; none that a PREV names. -/
def gcNext (s : State) (disk : Bool) : Option Nat :=
  let cands := (sealedSegs s disk).filter fun i => !prevIn s disk i
  (cands.find? fun i => (getSeg s disk i).asked).orElse fun _ => cands.foldl (fun b i => match b with
    | none => some i
    | some j => if validUnits s disk i < validUnits s disk j then some i else some j) none

/-- Does garbage collection run: below GC_START, or a relocation asked for (R277, R278)? -/
def gcRuns (s : State) (disk : Bool) : Bool :=
  freeCount s disk * 100 < (image s).pools.gcStart * segCount s disk ||
    (sealedSegs s disk).any fun i => (getSeg s disk i).asked

/-- GC_COLLECT (R277, R278). -/
def execGcCollect (disk : Bool) (bad : List BadBlock) (s : State) : Host.Outcome State Fault Refusal :=
  if !gcRuns s disk then .next s
  else match gcNext s disk with
    | none => .next (noteFull s)
    | some i => .next (((relocate s disk i bad).map noteFull).getD s)

/-- A flash segment's rows erased on every member in service. -/
def eraseRows (s : State) (seg : Nat) (members : List Nat) : State :=
  members.foldl (fun s c => match flashProfile s c with
    | some p => modRow s c (seg / 1024) (physRow s c (seg / 1024) (seg % 1024)) fun r => r.wiped p false
    | none => s) s

/-- SEGMENT_ERASE (R279, R252): an emptied segment whose location records have persisted is erased and free; the
formatting erases the flash segments in ascending order. -/
def execSegmentErase (disk : Bool) (seg : Nat) (s : State) : Host.Outcome State Fault Refusal :=
  if s.udc.eraseReady.contains (segKey disk seg) then
    let members := (getSeg s disk seg).members
    let s := if disk then s else eraseRows s seg (members.filter (memberServes s false seg))
    let s := modPools s fun p =>
      { p with stripes := p.stripes.filter fun e => !(e.1 % 2 == b2n disk && e.1 / 2 / 8192 == seg) }
    let s := modUdc s fun u => { u with eraseReady := u.eraseReady.filter (· != segKey disk seg) }
    .next (noteFull (modSeg s disk seg fun _ => {}))
  else if !disk && seg == s.udc.formatNext && seg < segCount s false then
    .next (modUdc (eraseRows s seg (segMembers s false seg)) fun u => { u with formatNext := u.formatNext + 1 })
  else .next s

/-! ## Extent destage and Settling (R281 to R283) -/

/-- What a rewrite puts for granule `j` of an extent: its units, its directory entry's CLEN (none for a granule that
takes no units), the blocks, or why it cannot be read. A granule held in the write buffer is rewritten as it was
before. -/
def extentPiece (s : State) (id : GranId) (pool : Nat) (comp : Bool) (clens : List Nat) (bad : List BadBlock)
    (j : Nat) : Except Nat (List Nat × Option Nat) :=
  let g := 64 * id.gran + j
  let gid := { id with gran := g }
  let e := entryOf s id.tenant id.ns pool g
  let e := if e.kind = 2 then (getSlot s e.slot).prev else e
  let zeros := if comp then .ok ([], none)
    else .ok ((List.range 4).map fun i => makeUnit 0 gid 3 i 0 e.gen 0, some 0)
  match e.kind with
  | 0 => zeros
  | 3 => zeros
  | 1 => (mediaUnits s e (4 - e.clen) bad g).map fun us => (us, some e.clen)
  | _ =>
    let clen := clens.getD j 0
    (granBlocks s e g bad).map fun bs => (granUnits bs gid 0 clen e.gen [], some clen)

/-- The directory unit of a compressing namespace's extent (R282). -/
def dirUnit (ps : List (List Nat × Option Nat)) : Nat :=
  let go := ps.foldl (fun (acc : Nat × Nat × Nat) p =>
    let v := match p.2 with | none => 0xFFFF | some c => c + acc.1 * 4
    (acc.1 + p.1.length, acc.2.1 + v * 2 ^ (16 * acc.2.2), acc.2.2 + 1)) (1, 0, 0)
  go.2.1 + 2 * 2 ^ 14 * 2 ^ 32768

/-- The entries a rewrite reads, by granule. -/
def extentEntries (s : State) (id : GranId) (pool : Nat) : List (Nat × GranEntry) :=
  (List.range 64).map fun j => (j, entryOf s id.tenant id.ns pool (64 * id.gran + j))

/-- Rewrite an extent on a disk head (R281, R283); none while it must wait. -/
def rewriteExtent (s : State) (h : Nat) (id : GranId) (pool : Nat) (clens : List Nat) (bad : List BadBlock) :
    Option State :=
  let comp := compressOf s id
  let ps := (List.range 64).map (extentPiece s id pool comp clens bad)
  let bad? := ps.any fun p => match p with | .error _ => true | .ok _ => false
  if bad? then none
  else
    let qs := ps.map fun p => match p with | .ok v => v | .error _ => ([], none)
    let us := (if comp then [dirUnit qs] else []) ++ qs.flatMap (·.1)
    appendExtent s h us { id := id, extGen := (getExt s id.tenant id.ns id.gran).gen, what := 2, dir := comp
                          merged := extentEntries s id pool }

/-- Granules of an extent that nothing can bring back are marked LOST before it is rewritten. -/
def markUnreadable (s : State) (id : GranId) (pool : Nat) (bad : List BadBlock) : State :=
  (List.range 64).foldl (fun s j =>
    match extentPiece s id pool (compressOf s id) [] bad j with
    | .error 0x0203 => markLost s { id with gran := 64 * id.gran + j } pool
    | _ => s) s

/-- Overrides of KIND MEDIA of an extent. -/
def mediaOvr (x : Extent) : Nat := x.ovr.countP fun o => o.2.2.kind == 1

/-- Write-log units in use, in 4 KiB blocks (R281). -/
def wlogUsed (s : State) : Nat :=
  (s.udc.ext.map fun e => (e.2.ovr.map fun o => if o.2.2.kind = 1 then 4 - o.2.2.clen else 0).sum).sum

/-- Is the write log more than WLOG_HI full? -/
def wlogHigh (s : State) : Bool := (image s).pools.wlogHi * (image s).pools.wlog < wlogUsed s * 100

/-- Order of an extent's oldest override of KIND MEDIA. -/
def oldestOvr (x : Extent) : Option Nat :=
  x.ovr.foldl (fun b o => if o.2.2.kind = 1 then some (min o.2.1 (b.getD o.2.1)) else b) none

/-- Does an extent's turn come: DESTAGE_OVR reached, or the write log is high and no extent has an older override? -/
def extentDue (s : State) (x : Extent) : Bool :=
  (image s).pools.destageOvr ≤ mediaOvr x ||
    (wlogHigh s && match oldestOvr x with
      | none => false
      | some o => s.udc.ext.all fun e => match oldestOvr e.2 with | none => true | some p => o ≤ p)

/-- The owner of an extent. -/
def extentId (s : State) (t n x : Nat) : Option (GranId × Nat) :=
  ((getTenNv s t).ns.find? (·.1 == n)).map fun e => ({ tenant := t, ns := n, incarn := e.2.incarn, gran := x }, e.2.pool)

/-- Is a rewrite of the extent already in an open stripe? -/
def extentMoving (s : State) (id : GranId) : Bool :=
  s.udc.open_.any fun o => o.parts.any fun p => 2 ≤ p.what && (p.id == id || (p.what == 3 && p.id.gran / 64 == id.gran))

/-- EXTENT_DESTAGE (R281, R282). -/
def execExtentDestage (t n x : Nat) (clens : List Nat) (bad : List BadBlock) (s : State) :
    Host.Outcome State Fault Refusal :=
  match extentId s t n x with
  | none => .next s
  | some (id, pool) =>
    let e := getExt s t n x
    if pool = 0 || e.kind = 2 || !extentDue s e || extentMoving s id then .next s
    else
      let s := markUnreadable s id pool bad
      .next ((rewriteExtent s 3 id pool clens bad).getD s)

/-- HEAT_DECAY (R283). -/
def execHeatDecay (s : State) : Host.Outcome State Fault Refusal :=
  .next (modUdc s fun u => { u with
    ext := u.ext.foldl (fun t e => tset {} t e.1 { e.2 with heat := e.2.heat / 2 }) [] })

/-- Is an extent the coldest of the flash-resident ones that may move down? -/
def coldest (s : State) (x : Extent) : Bool :=
  x.kind == 2 && x.heat ≤ (image s).pools.coldT && s.udc.ext.all fun e => e.2.kind != 2 || x.heat ≤ e.2.heat

/-- Fill of the hybrid flash share against a percentage. -/
def shareAbove (s : State) (pct : Nat) : Bool := pct * (image s).pools.hybFlash < hybridFlash s * 100

/-- Move an extent up to flash: its granules join F_GC stripes and its block fills as they are sealed (R283). -/
def moveUp (s : State) (id : GranId) (pool : Nat) (bad : List BadBlock) : Option State :=
  let ents := extentEntries s id pool
  let s0 := (List.range 64).foldl (fun s j => setGran s id.tenant id.ns (64 * id.gran + j) {}) s
  let moved := ents.foldl (fun (acc : Option State) m => acc.bind fun s =>
    let e := if m.2.kind = 2 then (getSlot s m.2.slot).prev else m.2
    if e.kind ≠ 1 then some s
    else match mediaUnits s e (4 - e.clen) bad (64 * id.gran + m.1) with
      | .error _ => none
      | .ok us => appendGranule s 2 us { id := { id with gran := 64 * id.gran + m.1 }, clen := e.clen, gen := e.gen,
                                         what := 3 }) (some s0)
  moved.bind fun s => appendGranule s 2 [] { id := id, what := 4, extGen := (getExt s id.tenant id.ns id.gran).gen,
                                             merged := ents }

/-- SETTLING_MOVE (R283): down, the coldest flash-resident extent while the share is above SETTLE_HI, and until it is
at SETTLE_LO; up, an extent whose heat reached HOT_T while the share is below SETTLE_HI. -/
def execSettlingMove (t n x : Nat) (up : Bool) (clens : List Nat) (bad : List BadBlock) (s : State) :
    Host.Outcome State Fault Refusal :=
  match extentId s t n x with
  | none => .next s
  | some (id, pool) =>
    let e := getExt s t n x
    let hi := shareAbove s (image s).pools.settleHi
    let lo := shareAbove s (image s).pools.settleLo
    let s := modUdc s fun u => { u with settling := hi || (u.settling && lo) }
    if pool ≠ 2 || extentMoving s id then .next s
    else if up then
      if e.kind = 1 && (image s).pools.hotT ≤ e.heat && !hi && shareHasRoom s then .next ((moveUp s id pool bad).getD s)
      else .next s
    else if s.udc.settling && coldest s e then
      let s := markUnreadable s id pool bad
      .next ((rewriteExtent s 4 id pool clens bad).getD s)
    else .next s

/-! ## Reshape (R284 to R286) -/

/-- Usable capacity of a medium with a member set, in blocks times W (R251). -/
def usableCap (s : State) (disk : Bool) (mask : Nat) : Rat :=
  let w := popCount 32 mask
  let per : Nat → Nat := fun m =>
    if disk then 2 * (match ((image s).zones.hmap.getD m none).bind fun t => (image s).zones.tables[t]? with
      | some t => ((List.range t.zones.length).map fun z =>
          (zoneCyls t z - 2) * t.heads * zoneFpt (t.zones.getD z {}) * (t.zones.getD z {}).frag).sum
      | none => 0)
    else match flashProfile s m with | some p => p.luns * p.lunUser | none => 0
  let total : Nat := ((maskBits 32 mask).map per).sum
  if w = 0 then 0 else (total : Rat) * ((w : Rat) - 2) / (w : Rat)

/-- R251's two capacity limits for member sets. -/
def capsFit (s : State) (fmask dmask : Nat) : Bool :=
  let p := (image s).pools
  decide (((p.flashCap + p.hybFlash + p.wlog : Nat) : Rat) ≤ usableCap s false fmask * 93 / 100) &&
    decide (((p.diskCap + p.hybCap : Nat) : Rat) ≤ usableCap s true dmask * 97 / 100)

/-- R248: is the width of a member set allowed? -/
def widthOk (disk : Bool) (mask : Nat) : Bool :=
  let w := popCount 32 mask
  if disk then 8 ≤ w && w ≤ 16 else 10 ≤ w && w ≤ 32

/-- Are the members of a new set present, in service and alike? -/
def membersOk (s : State) (disk : Bool) (mask : Nat) : Bool :=
  let ms := maskBits 32 mask
  if disk then ms.all fun h => (image s).platform.hdaPresent.getD h false && !isRetired s (.hda h)
  else ms.all (fun c => (image s).platform.flashPresent.getD c false && !isRetired s (.flashChannel c)) &&
    (ms.map fun c => (image s).flashProf.chmap.getD c none).dedup.length ≤ 1

/-- R284: the RESULT of a request. -/
def reshapeJudge (s : State) (disk : Bool) (mask : Nat) : Nat :=
  if !s.phase.inService then 6
  else if s.udc.reshape.isSome then 2
  else if !widthOk disk mask then 3
  else if !membersOk s disk mask then 4
  else if !(if disk then capsFit s (fget s UDC_FMEMB_MASK) mask else capsFit s mask (fget s UDC_DMEMB_MEMB)) then 5
  else 1

/-- RESHAPE_GO (R284, R285): a write of UDC_RESHAPE_CTL. -/
def execReshapeGo (value : Word) (s : State) : Host.Outcome State Fault Refusal :=
  let disk := bitsGet value 0 1 == 1
  if bitsGet value 14 1 = 0 then .next (fset s UDC_RESHAPE_CTL_POOL (b2n disk))
  else if bitsGet value 16 16 ≠ 0xC0DE then .next (fset s UDC_STATUS_RSV_WRITE 1)
  else
    let s := fset s UDC_RESHAPE_CTL_POOL (b2n disk)
    let mask := fget s UDC_RESHAPE_MEMB_MASK
    let r := reshapeJudge s disk mask
    let s := fset s UDC_RESHAPE_STAT_RESULT r
    if r ≠ 1 then .next s
    else
      let ck := (image s).pools.reshapeCkpt
      let old := if disk then fget s UDC_DMEMB_MEMB else fget s UDC_FMEMB_MASK
      let s := modUdc s fun u =>
        { u with reshape := some { disk := disk, visited := 0, commit := ck, geom := (if disk then u.dgeom else u.fgeom) + 1,
                                   oldMask := old }
                 fgeom := if disk then u.fgeom else u.fgeom + 1, dgeom := if disk then u.dgeom + 1 else u.dgeom }
      let s := if disk then fset s UDC_DMEMB_MEMB mask else fset s UDC_FMEMB_MASK mask
      let s := modPools s fun p => { p with reshape := s.udc.reshape, fgeom := s.udc.fgeom, dgeom := s.udc.dgeom,
                                            fmemb := fget s UDC_FMEMB_MASK, dmemb := fget s UDC_DMEMB_MEMB }
      let s := fset (fset s UDC_RESHAPE_STAT_POOL (b2n disk)) UDC_STATUS_RESHAPE 1
      let s := fset (fset s UDC_RESHAPE_VIS_SEG 0) UDC_RESHAPE_CMT_SEG ck
      .next (showGeom (dmkSend s 0x0A03 0))

/-- The reshape ends. -/
def reshapeEnd (s : State) : State :=
  let s := modPools (modUdc s fun u => { u with reshape := none }) fun p => { p with reshape := none }
  showGeom (dmkSend (fset s UDC_STATUS_RESHAPE 0) 0x0A05 0)

/-- RESHAPE_VISIT (R285): the next index: a record at COMMIT, then the segment, unless it is open in the old
geometry. -/
def execReshapeVisit (bad : List BadBlock) (s : State) : Host.Outcome State Fault Refusal :=
  match s.udc.reshape with
  | none => .next s
  | some r =>
    if segCount s r.disk ≤ r.visited then .next (reshapeEnd s)
    else
      let (r, s) := if r.visited = r.commit then
          let r := { r with commit := r.commit + (image s).pools.reshapeCkpt }
          let s := modPools (modUdc s fun u => { u with reshape := some r }) fun p => { p with reshape := some r }
          (r, dmkSend (fset s UDC_RESHAPE_CMT_SEG r.commit) 0x0A04 0)
        else (r, s)
      let g := getSeg s r.disk r.visited
      let pass := fun (s : State) => fset (modUdc s fun u =>
        { u with reshape := some { r with visited := r.visited + 1 } }) UDC_RESHAPE_VIS_SEG (r.visited + 1)
      let queued := s.udc.erase.contains (segKey r.disk r.visited) || s.udc.eraseReady.contains (segKey r.disk r.visited)
      if g.geom ≠ r.geom && g.state = 1 then .next s
      else if g.geom ≠ r.geom && g.state = 2 && !queued then
        if prevIn s r.disk r.visited then .next s
        else match relocate s r.disk r.visited bad with
          | none => .next s
          | some s => .next (pass (noteRebuild s))
      else .next (pass s)

/-! ## The location log and checkpoints (R287, R288) -/

/-- The tables as the system area then holds them; sealed stripes' slots and emptied segments go on. -/
def persistTables (s : State) : State :=
  let done := s.udc.erase.filter fun k => validUnits s (k % 2 == 1) (k / 2) == 0 && !prevIn s (k % 2 == 1) (k / 2)
  let s := modPools s fun p =>
    { p with gran := s.udc.gran, ext := s.udc.ext, segs := s.udc.segs, formatNext := s.udc.formatNext }
  let s := modUdc s fun u =>
    { u with unsaved := 0, releaseReady := u.releaseReady ++ u.release, release := []
             erase := u.erase.filter fun k => !done.contains k, eraseReady := u.eraseReady ++ done }
  done.foldl (fun s k => modSeg s (k % 2 == 1) (k / 2) fun r => { r with state := 3 }) s

/-- LOCATION_LOG_PERSIST (R287). -/
def execLocationLogPersist (s : State) : Host.Outcome State Fault Refusal := .next (persistTables s)

/-- Start a checkpoint. -/
def ckptStart (s : State) : State :=
  fset (modUdc s fun u => { u with ckptFrom := u.log, ckptLatch := false }) UDC_CKPT_BUSY 1

/-- Seconds since the last complete checkpoint, saturating (UDC_CKPT.AGE). -/
def ckptAge (s : State) : Nat :=
  match s.udc.ckptNs with
  | none => 0xFFFF
  | some t => min 0xFFFF ((s.tb.ns - t) / 1000000000)

/-- Location-log fill in % (UDC_CKPT.LOG_FILL). -/
def logFill (s : State) : Nat := if logSize s = 0 then 0 else min 255 (s.udc.log * 100 / logSize s)

/-- CHECKPOINT_START (R288): the period has passed, the log is 75 % full, or a request is latched. -/
def execCheckpointStart (s : State) : Host.Outcome State Fault Refusal :=
  if fget s UDC_CKPT_BUSY = 0 &&
      ((image s).memory.ckptPeriod ≤ ckptAge s || 75 ≤ logFill s || s.udc.ckptLatch) then .next (ckptStart s)
  else .next s

/-- CHECKPOINT_REQUEST (R288): UDC_CKPT.REQ is written. -/
def execCheckpointRequest (s : State) : Host.Outcome State Fault Refusal :=
  if fget s UDC_CKPT_BUSY = 1 then .next (modUdc s fun u => { u with ckptLatch := true }) else .next (ckptStart s)

/-- CHECKPOINT_END (R288): the directory is written; records before the checkpoint's start are no longer needed; a
latched request starts the next one. -/
def execCheckpointEnd (s : State) : Host.Outcome State Fault Refusal :=
  if fget s UDC_CKPT_BUSY = 0 then .next s
  else
    let s := persistTables s
    let s := { s with nv := { s.nv with slips := s.rdc.map fun e => (e.1, e.2.slips) } }
    let s := modUdc s fun u => { u with log := u.log - u.ckptFrom, ckptFrom := 0, ckptNs := some s.tb.ns }
    let s := fset s UDC_CKPT_BUSY 0
    .next (if s.udc.ckptLatch then ckptStart s else s)

/-! ## A lost DRAM channel (R290) -/

/-- DRAM the tables need, in MiB (R293 without the two write-buffer areas); capacities are in 4 KiB blocks. -/
def tableMiB (s : State) : Rat :=
  let p := (image s).pools
  let tib : Nat → Rat := fun b => (b : Rat) / 268435456
  512 * tib p.flashCap + 16 * tib (p.diskCap + p.hybCap) + 512 * tib p.hybFlash + (ovrSize s : Rat) / 65536 + 2048

/-- MiB installed on the channels in service. -/
def dramMiB (s : State) : Nat := ((dramLive s).map fun c => 1024 * ((image s).memory.chans.getD c {}).gib).sum

/-- The tables are rebuilt on the other channels; where room lacks the areas shrink, by how much the spec leaves open;
where the tables alone do not fit the device enters SAFE. -/
def dramLost (s : State) (c : Nat) : State :=
  let s := setReduction (retireUnit s (.dramChannel c)) 3 true
  let left : Rat := (dramMiB s : Rat) - tableMiB s
  let m := (image s).memory
  let s := minWatch (recomputeFloors s)
  if left < 0 then fatalFault s (0x210 + c)
  else if ((m.dirtyMax + m.secondMax : Nat) : Rat) ≤ left then s
  else
    let (v, s) := drawFree s
    modUdc s fun u => { u with dramSlots := some (v % ((left * (64 : Rat)).floor.toNat + 1)) }

/-- DRAM_CHANNEL_LOST (R290, R30). -/
def execDramChannelLost (c : Nat) (s : State) : Host.Outcome State Fault Refusal :=
  if (dramLive s).contains c then .next (dramLost (raise s (0x210 + c)) c) else .next s

end Sys2Proof.Machine
end

