-- ==== Sys2Proof/Machine/Flash.lean ====
section
/-!
DEFINITION. Machine/Flash.lean: the flash channel engines' commands (10_flash_channels.md): descriptors and their
checks, the LUN token, reads with retry, programs and erases with substitution, fences, initialisation, failures,
patrol and dump rows.
-/

namespace Sys2Proof.Machine

def flcSrc (c k : Nat) : Nat := 0x400 + 16 * c + k

/-- Bump a field of FLC_RING modulo 256. -/
def ringBump (s : State) (c : Nat) (f : Fld) (n : Nat := 1) : State :=
  fset s (f.ix c 0x4000) ((fget s (f.ix c 0x4000) + n) % 256)

/-! ## Completions (R309) -/

/-- Post a completion. -/
def flcPost (s : State) (c : Nat) (d : FlashDone) : State :=
  ringBump (modChan s c fun x => { x with done := x.done ++ [d] }) c FLC_RING_CTAIL

/-- The completion of a descriptor that did not run. -/
def flcEnd (s : State) (c : Nat) (d : FlashDesc) (status : Nat) : State :=
  flcPost s c { tag := d.tag, status := status, typ := d.typ, reply := d.reply }

/-- Has the completion ring a free entry for one more descriptor (R305)? -/
def flcRoom (s : State) (c : Nat) : Bool := (getChan s c).done.length + (getChan s c).running.length < 256

/-- FLASH_DESCRIPTOR_ARRIVAL (R305): into the ring in arrival order; with the ring full the producer waits. -/
def execFlashDescriptorArrival (c : Nat) (d : FlashDesc) (s : State) : Host.Outcome State Fault Refusal :=
  if !chanServes s c || 256 ≤ (getChan s c).ring.length then .next s
  else .next (ringBump (modChan s c fun x => { x with ring := x.ring ++ [(s.tb.ns, d)] }) c FLC_RING_DTAIL)

/-- FLASH_COMPLETION_ACCEPT (R309): REPLY accepts the oldest completion; its entry is free. -/
def execFlashCompletionAccept (c : Nat) (s : State) : Host.Outcome State Fault Refusal :=
  match (getChan s c).done with
  | [] => .next s
  | d :: rest =>
    .next (emit (ringBump (modChan s c fun x => { x with done := rest }) c FLC_RING_CHEAD) (.mediaDone c d.tag d.status))

/-! ## Descriptor checks (Table 10-6) -/

/-- Row group protection (R314 to R316): the system area, and reserve rows that stand for its rows. -/
def rowProtected (s : State) (c lun row : Nat) (p : LunProfile) : Bool :=
  (getChan s c).wpSet &&
    ((1024 ≤ row && row < p.firstReserve) ||
      (List.range (64 * p.sysGroups)).any fun i =>
        let r := getRow s c lun (1024 + i)
        r.bad && r.sub == row && r.sub != 0)

/-- Order 2: every field a type reserves is zero (Table 10-5). -/
def flcReserved (d : FlashDesc) : Bool :=
  d.rsvd || d.stgOff % 32 ≠ 0 ||
    (match d.typ with
      | 1 => d.aux != 0
      | 2 => d.aux != 0 || d.tenant != 0 || d.hardOnly
      | 3 => d.aux != 0 || d.pset != 0 || d.first != 0 || d.count != 0 || d.stgOff != 0 || d.tenant != 0 || d.hardOnly
      | 4 => d.aux != 0 || d.stgOff != 0 || d.tenant != 0
      | 5 => 2 ≤ d.aux || d.row != 0 || d.pset != 0 || d.first != 0 || d.count != 0 || d.sys || d.slc || d.hardOnly
      | _ => d.aux != 0 || d.row != 0 || d.pset != 0 || d.first != 0 || d.count != 0 || d.stgOff != 0 ||
          d.tenant != 0 || d.sys || d.slc || d.hardOnly)

/-- Units of a page set in a mode. -/
def setUnits (p : LunProfile) (slc : Bool) : Nat := if slc then p.planes * p.upp else p.stripUnits

/-- Order 3: the place named lies within the profile, and COUNT is what the type requires. -/
def flcInRange (d : FlashDesc) (p : LunProfile) : Bool :=
  d.lun < p.luns && (5 ≤ d.typ || d.row < p.blocks) &&
    (match d.typ with
      | 2 => d.pset < p.psets && d.first == 0 && d.count == setUnits p d.slc
      | 1 => d.pset < p.psets && 1 ≤ d.count && d.first + d.count ≤ setUnits p d.slc
      | 4 => d.pset < p.psets && 1 ≤ d.count && d.first + d.count ≤ setUnits p d.slc
      | _ => true)

/-- Staging bytes a descriptor uses. -/
def flcBytes (d : FlashDesc) : Nat :=
  match d.typ with
  | 1 => 4128 * d.count
  | 2 => 4128 * d.count
  | 5 => if d.aux = 0 then 8 else 768
  | _ => 0

/-- R307: the status of the first check that fails; none when every one passes. -/
def flcCheck (s : State) (c : Nat) (d : FlashDesc) (p : LunProfile) : Option Nat :=
  let row := getRow s c d.lun (physRow s c d.lun d.row)
  let media := d.typ = 1 || d.typ = 2 || d.typ = 4
  if !(1 ≤ d.typ && d.typ ≤ 6) then some 0x31
  else if flcReserved d then some 0x30
  else if !flcInRange d p then some 0x32
  else if media && row.slc != d.slc then some 0x32
  else if !lunOk s c d.lun then some 0x41
  else if (d.typ = 2 || d.typ = 3) && !d.sys && rowProtected s c d.lun d.row p then some 0x33
  else if d.sys && !rowProtected s c d.lun d.row p then some 0x34
  else if 0x100000 < d.stgOff + flcBytes d then some 0x35
  else if d.typ = 2 && d.pset ≠ row.next then some 0x36
  else none

/-- FLASH_DESCRIPTOR_TAKE (R305, R307, R310): the engine takes the oldest descriptor while the completion ring has
room: fenced, it completes ABORTED; failing a check, it completes at once and, but for LUN_RETIRED, is a producer's
error whose flow is aborted; else it waits for its LUN's token. -/
def execFlashDescriptorTake (c : Nat) (producer : Option (Nat × Nat)) (s : State) : Host.Outcome State Fault Refusal :=
  match (getChan s c).ring, flashProfile s c with
  | (t, d) :: rest, some p =>
    if !chanServes s c || !flcRoom s c then .next s
    else
      let s := ringBump (modChan s c fun x => { x with ring := rest }) c FLC_RING_DHEAD
      if fget s FLC_STATUS_FENCED = 1 && !d.sys then .next (flcEnd s c d 0x43)
      else match flcCheck s c d p with
        | none => .next (modChan s c fun x => { x with running := x.running ++ [{ desc := d, since := t }] })
        | some st =>
          let s := flcEnd s c d st
          if st = 0x41 then .next s
          else
            let s := raise (fbump s (FLC_ERR_CNT1_DESC_ERR.ix c 0x4000)) (flcSrc c 8)
            .next (match producer with
              | some (t, x) => abortFlow s (ctxKey t x)
              | none => s)
  | _, _ => .next s

/-! ## Starting (R308) -/

/-- Class of a waiting descriptor: 0 SYS or waiting for 10 ms, 1 READ and SCAN, 2 PROGRAM and ERASE, 3 the rest. -/
def flcClass (now : Nat) (r : FlashRun) : Nat :=
  if r.desc.sys || r.since + 10000000 ≤ now then 0
  else if r.desc.typ = 1 || r.desc.typ = 4 then 1
  else if r.desc.typ = 2 || r.desc.typ = 3 then 2 else 3

/-- The descriptors that could start: the first of each LUN whose token is free. -/
def flcStartable (x : FlashChan) : List FlashRun :=
  ((List.range 32).filterMap fun l =>
    let mine := x.running.filter (·.desc.lun == l)
    if mine.any (·.token) then none else mine.head?)

/-- The descriptor that starts next: lowest class, then round-robin by LUN. -/
def flcNext (s : State) (c : Nat) : Option FlashRun :=
  let x := getChan s c
  let rank := fun (r : FlashRun) => flcClass s.tb.ns r * 64 + (r.desc.lun + 32 - x.rr) % 32
  (flcStartable x).foldl (fun b r => match b with
    | none => some r
    | some q => if rank r < rank q then some r else some q) none

/-- Replace a running descriptor. -/
def flcSetRun (s : State) (c : Nat) (r r' : FlashRun) : State :=
  modChan s c fun x => { x with running := x.running.map fun q => if q = r then r' else q }

/-- Start the next descriptor of a channel when it is of the type: it takes the token and its first NAND operation is
issued (`op` 0 read, 1 program, 2 erase, 3 reset, 5 identification); a program or erase raises WP_N (R299). -/
def flcStart (s : State) (c typ op : Nat) : State :=
  match flcNext s c with
  | none => s
  | some r =>
    if r.desc.typ ≠ typ || !chanServes s c then s
    else
      let d := r.desc
      let s := flcSetRun s c r { r with token := true, step := 1, failing := List.range d.count }
      let s := modChan s c fun x => { x with rr := (d.lun + 1) % 32 }
      let s := if typ = 2 || typ = 3 then fset s (FLC_CH_STATE_WP_HIGH.ix c 0x4000) 1 else s
      emit s (.nand c d.lun op (physRow s c d.lun d.row) d.pset)

/-- FLASH_READ_DESC (R306, R308). -/
def execFlashReadDesc (c : Nat) (s : State) : Host.Outcome State Fault Refusal := .next (flcStart s c 1 0)

/-- FLASH_PROGRAM_DESC. -/
def execFlashProgramDesc (c : Nat) (s : State) : Host.Outcome State Fault Refusal := .next (flcStart s c 2 1)

/-- FLASH_ERASE_DESC. -/
def execFlashEraseDesc (c : Nat) (s : State) : Host.Outcome State Fault Refusal := .next (flcStart s c 3 2)

/-- FLASH_SCAN_DESC. -/
def execFlashScanDesc (c : Nat) (s : State) : Host.Outcome State Fault Refusal := .next (flcStart s c 4 0)

/-- FLASH_READ_PARAM_DESC. -/
def execFlashReadParamDesc (c : Nat) (s : State) : Host.Outcome State Fault Refusal := .next (flcStart s c 5 5)

/-- FLASH_RESET_DESC. -/
def execFlashResetDesc (c : Nat) (s : State) : Host.Outcome State Fault Refusal := .next (flcStart s c 6 3)

/-! ## LUN and channel retirement (R324 to R326) -/

/-- IN_SERVICE, and the dump figures that follow the channels in service. -/
def showChans (s : State) : State := showDump (fset s FLC_STATUS_IN_SERVICE (chansServing s).length)

/-- R326: a channel is retired: its descriptors end CHAN_DOWN, its domain goes off, code 0x0402 and source `k`. -/
def chanRetire (s : State) (c k cause : Nat) (conseq : Bool := false) : State :=
  if !chanServes s c && fget s (FLC_CH_STATE_STATE.ix c 0x4000) != 2 then s
  else
    let x := getChan s c
    let s := (x.running.map (·.desc) ++ x.ring.map (·.2)).foldl (fun s d => flcEnd s c d 0x42) s
    let s := modChan s c fun x => { x with ring := [], running := [] }
    let s := fset s (FLC_CH_STATE_STATE.ix c 0x4000) 4
    let s := fset (fset s (FLC_CH_STATE_WP_HIGH.ix c 0x4000) 0) (FLC_LUN_OK_OK.ix c 0x4000) 0
    let s := retireUnit (fsetBit s FLC_RETIRED_RETIRED c true) (.flashChannel c)
    let s := dmkSend (showGeom (showChans s)) 0x0402 (c % 32 + cause * 32)
    minWatch (report s { src := flcSrc c k, cls := .contained, conseq := conseq })

/-- R325: a LUN is retired: descriptors that wait for it end LUN_RETIRED; the last LUN takes the channel with it. -/
def lunRetire (s : State) (c lun k : Nat) (data : Nat) : State :=
  if !lunOk s c lun then s
  else
    let s := fsetBit s (FLC_LUN_OK_OK.ix c 0x4000) lun false
    let gone := (getChan s c).running.filter fun r => r.desc.lun == lun
    let s := gone.foldl (fun s r => flcEnd s c r.desc 0x41) s
    let s := modChan s c fun x => { x with running := x.running.filter fun r => r.desc.lun != lun }
    let s := modPwr s fun p => { p with retired := p.retired ++ [.flashLun c lun] }
    let s := raise (showDump s) (flcSrc c k)
    let s := if k = 9 then s else dmkSend s 0x0401 data
    if (lunsOk s c).isEmpty then chanRetire s c 12 3 true else s

/-! ## Finishing (R309, R323) -/

/-- Take a descriptor out of execution; its token is free. -/
def flcDrop (s : State) (c : Nat) (r : FlashRun) : State :=
  modChan s c fun x => { x with running := x.running.filter (· != r) }

/-- R323: relocation of the segment a row belongs to is requested. -/
def requestReloc (s : State) (c lun row : Nat) : State :=
  let s := raise (dmkSend (fbump s (FLC_ERR_CNT1_RELOC.ix c 0x4000)) 0x0404 (c % 32)) (flcSrc c 11)
  if (getSeg s false (1024 * lun + row)).state = 0 then s
  else modSeg s false (1024 * lun + row) fun g => { g with asked := true }

/-- Does a read of a row call for its relocation? A system row is never relocated. -/
def wantsReloc (p : LunProfile) (row : FlashRow) (sys : Bool) (bits set : Nat) (soft : Bool) : Bool :=
  !sys && (p.refreshBits < bits || set ≠ 0 || soft || p.readLimit ≤ row.reads)

/-- Bits of FAIL. -/
def failMask (us : List Nat) : Nat := (us.map fun u => 2 ^ u).sum

/-- End a READ or SCAN: status by what became of its units, the closing SET FEATURES, relocation, the completion. -/
def flcEndRead (s : State) (c : Nat) (p : LunProfile) (r : FlashRun) : State :=
  let d := r.desc
  let phys := physRow s c d.lun d.row
  let hard := d.hardOnly && !r.failing.isEmpty
  let status := if !r.failed.isEmpty then 0x10 else if hard then 0x11 else if !r.erased.isEmpty then 0x12
    else if r.soft then 0x02 else if r.applied then 0x01 else 0x00
  let s := if r.applied then emit s (.nand c d.lun 4 phys d.pset) else s
  let s := if r.failed.isEmpty then s else raise s (flcSrc c 4)
  let reloc := wantsReloc p (getRow s c d.lun phys) d.sys r.bits r.lastSet r.soft
  let s := if reloc then requestReloc s c d.lun d.row else s
  flcPost (flcDrop s c r) c
    { tag := d.tag, status := status, typ := d.typ, bits := min r.bits 65535, set := r.lastSet, soft := r.soft
      reloc := reloc, fail := failMask (r.failing ++ r.failed ++ r.erased), reply := d.reply }

/-- Unit `i` of the page set's contents. -/
def pageUnit (row : FlashRow) (pset i : Nat) : Nat := (tget [] row.pages pset).getD i 0

/-- Deliver decoded units of a READ to staging, with the slot tag of R180. -/
def flcDeliver (s : State) (c : Nat) (d : FlashDesc) (us : List Nat) : State :=
  if d.typ ≠ 1 then s
  else
    let row := getRow s c d.lun (physRow s c d.lun d.row)
    modChan s c fun x => us.foldl (fun x i => { x with
      staging := memWrite x.staging (d.stgOff + 4128 * i) (leBytes (pageUnit row d.pset (d.first + i)) 4128)
      tags := (List.range 129).foldl (fun t k => tset 0 t ((d.stgOff + 4128 * i) / 32 + k) (d.tenant + 1)) x.tags }) x

/-- Page type of a unit (R303). -/
def pageType (p : LunProfile) (d : FlashDesc) (u : Nat) : Nat := (d.first + u) / max (p.planes * p.upp) 1

/-- Threshold sets step 2 tries for a unit: last_good first, then 1 upwards (R313). -/
def retrySets (s : State) (c : Nat) (p : LunProfile) (d : FlashDesc) (u : Nat) : List Nat :=
  let lg := tget 0 (getChan s c).lastGood (4 * d.lun + pageType p d u)
  ((lg :: (List.range p.rrSets).drop 1).dedup).filter (· != 0)

/-- Begin the retry of the next failing unit, or end the read: a retry read at the next set, or the seven soft reads
around the set of lowest syndrome weight. -/
def flcRetry (s : State) (c : Nat) (p : LunProfile) (r r' : FlashRun) : State :=
  let d := r'.desc
  let phys := physRow s c d.lun d.row
  match r'.failing with
  | [] => flcEndRead (flcSetRun s c r r') c p r'
  | _ :: _ =>
    match r'.sets with
    | k :: rest =>
      let s := flcSetRun s c r { r' with step := 2, set := k, sets := rest, applied := true }
      emit (emit s (.nand c d.lun 4 phys d.pset)) (.nand c d.lun 0 phys d.pset)
    | [] =>
      let b := r'.weights.foldl (fun (b : Nat × Nat) w => if w.2 < b.2 || (w.2 = b.2 && w.1 < b.1) then w else b)
        (r'.weights.headD (0, 0))
      let s := flcSetRun s c r { r' with step := 3, set := b.1, applied := true }
      (List.range 7).foldl (fun s _ => emit (emit s (.nand c d.lun 4 phys d.pset)) (.nand c d.lun 0 phys d.pset)) s

/-- Go on to the next failing unit from step 2. -/
def flcNextUnit (s : State) (c : Nat) (p : LunProfile) (r r' : FlashRun) : State :=
  match r'.failing with
  | [] => flcRetry s c p r r'
  | u :: _ => flcRetry s c p r { r' with sets := retrySets s c p r'.desc u, weights := [] }

/-- A read operation of a READ or SCAN ends (R312, R313). -/
def flcReadDone (s : State) (c : Nat) (p : LunProfile) (r : FlashRun) (o : LunOut) : State :=
  let d := r.desc
  let phys := physRow s c d.lun d.row
  let s := modRow s c d.lun phys fun w =>
    { w with reads := min (w.reads + 1) 524287, strength := o.stamp.getD w.strength }
  let ok := r.failing.filter o.ok.contains
  let er := r.failing.filter o.erased.contains
  let left := r.failing.filter fun u => !ok.contains u && !er.contains u
  let r1 := { r with erased := r.erased ++ er, bits := max r.bits o.bits }
  if r.step = 1 then
    let s := flcDeliver s c d ok
    if left.isEmpty || d.hardOnly then flcEndRead (flcSetRun s c r { r1 with failing := left }) c p { r1 with failing := left }
    else flcNextUnit s c p r { r1 with failing := left }
  else match r.failing with
    | [] => s
    | u :: rest =>
      if ok.contains u then
        let s := flcDeliver s c d [u]
        if r.step = 2 then
          let s := modChan s c fun x => { x with lastGood := tset 0 x.lastGood (4 * d.lun + pageType p d u) r.set }
          flcNextUnit (fbump s (FLC_ERR_CNT0_RETRY.ix c 0x4000)) c p r { r1 with failing := rest, lastSet := r.set }
        else flcNextUnit (fbump s (FLC_ERR_CNT0_SOFT.ix c 0x4000)) c p r
          { r1 with failing := rest, soft := true, lastSet := 0 }
      else if er.contains u then flcNextUnit s c p r { r1 with failing := rest }
      else if r.step = 2 then flcRetry s c p r { r1 with weights := r.weights ++ [(r.set, o.weight)] }
      else flcNextUnit (fbump s (FLC_ERR_CNT0_UNCORR.ix c 0x4000)) c p r
        { r1 with failing := rest, failed := r.failed ++ [u] }

/-! ## Programs and erases (R321, R322) -/

/-- Units a PROGRAM finds in staging. -/
def stagedUnits (s : State) (c : Nat) (d : FlashDesc) : List Nat :=
  (List.range d.count).map fun i => leValue (memRead (getChan s c).staging (d.stgOff + 4128 * i) 4128)

/-- End a descriptor that succeeded. -/
def flcOk (s : State) (c : Nat) (r : FlashRun) (subst : Bool) : State :=
  flcPost (flcDrop s c r) c { tag := r.desc.tag, status := 0, typ := r.desc.typ, subst := subst, reply := r.desc.reply }

/-- Mark the physical row BAD and give the logical row the substitute. -/
def takeSubstitute (s : State) (c lun row phys sub : Nat) : State :=
  let s := if phys = row then s else modRow s c lun phys fun w => { w with bad := true }
  modRow s c lun row fun w => { w with bad := true, sub := sub }

/-- R321: substitute a row; none is left: the descriptor fails and the LUN is retired. `held` are the page sets to
copy; those not readable are left out and charged to the member. -/
def flcSubstitute (s : State) (c : Nat) (p : LunProfile) (r : FlashRun) (o : LunOut) (fill : FlashRow → FlashRow) :
    State :=
  let d := r.desc
  let phys := physRow s c d.lun d.row
  match (reserveFree s c d.lun p).head? with
  | none =>
    let s := flcPost (flcDrop s c r) c { tag := d.tag, status := if d.typ = 2 then 0x20 else 0x21, typ := d.typ,
                                         reply := d.reply }
    lunRetire (modRow s c d.lun phys fun w => { w with bad := true }) c d.lun 3 (c % 32 + d.lun * 32 + 1024)
  | some sub =>
    let s := takeSubstitute s c d.lun d.row phys sub
    let s := modRow s c d.lun sub fun w => fill (w.wiped p d.slc)
    let s := o.unreadable.foldl (fun s _ => chargeMember s false c 0) s
    let s := raise (dmkSend (fbump s (FLC_ERR_CNT0_SUBST.ix c 0x4000)) 0x0403 (c % 32)) (flcSrc c 5)
    flcOk s c r true

/-- A PROGRAM ends. -/
def flcProgramDone (s : State) (c : Nat) (p : LunProfile) (r : FlashRun) (o : LunOut) : State :=
  let d := r.desc
  let us := stagedUnits s c d
  let put := fun (w : FlashRow) => { w with pages := tset [] w.pages d.pset us, next := d.pset + 1 }
  let old := getRow s c d.lun (physRow s c d.lun d.row)
  if o.failed then
    flcSubstitute s c p r o fun w => put { w with pages := old.pages.filter fun e => !o.unreadable.contains e.1 }
  else flcOk (showDump (modRow s c d.lun (physRow s c d.lun d.row) put)) c r false

/-- R322: a LUN at 90 % of PE_LIMIT, and a spread above WL_SPREAD. -/
def noteWear (s : State) (c lun : Nat) (p : LunProfile) : State :=
  let s := if 9 * p.peLimit ≤ 10 * lunPeMax s c lun && !(getChan s c).peNoted.contains lun then
      raise (dmkSend (modChan s c fun x => { x with peNoted := x.peNoted ++ [lun] }) 0x0405 (c % 32)) (flcSrc c 10)
    else s
  if p.wlSpread < lunPeMax s c lun - lunPeMin s c lun then
    let cands := (sealedSegs s false).filter fun i => i / 1024 == lun
    match cands.foldl (fun b i => match b with
        | none => some i
        | some j => if (getRow s c lun (physRow s c lun (i % 1024))).pe < (getRow s c lun (physRow s c lun (j % 1024))).pe
          then some i else some j) none with
    | some i => requestReloc s c lun (i % 1024)
    | none => s
  else s

/-- An ERASE ends; a row at PE_LIMIT is substituted. -/
def flcEraseDone (s : State) (c : Nat) (p : LunProfile) (r : FlashRun) (o : LunOut) : State :=
  let d := r.desc
  let phys := physRow s c d.lun d.row
  if o.failed || p.peLimit ≤ (getRow s c d.lun phys).pe then flcSubstitute s c p r o id
  else
    let s := modRow s c d.lun phys fun w => w.wiped p d.slc
    flcOk (noteWear (showDump s) c d.lun p) c r false

/-- A READ_PARAM ends: the ID bytes, which only CE 0's identification registers record, or the parameter page, whose
bytes the spec leaves to the NAND. -/
def flcParamDone (s : State) (c : Nat) (p : LunProfile) (r : FlashRun) : State :=
  let d := r.desc
  let ce0 := d.lun / max (p.vpc * p.lpv) 1 == 0
  let (v, s) := if d.aux = 0 && ce0 then
      (fget s (FLC_IDENT0_ID.ix c 0x4000) + fget s (FLC_IDENT1_ID.ix c 0x4000) * 2 ^ 32, s) else drawFree s
  let s := modChan s c fun x => { x with staging := memWrite x.staging d.stgOff (leBytes v (flcBytes d)) }
  flcOk s c r false

/-- LUN_OPERATION_DONE (R308, R312, R313, R321): the NAND operation of the descriptor that holds the LUN's token has
ended. -/
def execLunOperationDone (c lun : Nat) (o : LunOut) (s : State) : Host.Outcome State Fault Refusal :=
  match (getChan s c).running.find? (fun r => r.token && r.desc.lun == lun), flashProfile s c with
  | some r, some p =>
    match r.desc.typ with
    | 2 => .next (flcProgramDone s c p r o)
    | 3 => .next (flcEraseDone s c p r o)
    | 5 => .next (flcParamDone s c p r)
    | 6 => .next (flcOk s c r false)
    | _ => .next (flcReadDone s c p r o)
  | _, _ => .next s

/-! ## Fence (R310) -/

/-- End the descriptors of a channel that a fence aborts. -/
def fenceChan (s : State) (c : Nat) : State :=
  let x := getChan s c
  let hit := fun (d : FlashDesc) => !d.sys
  let idle := x.running.filter fun r => !r.token && hit r.desc
  let ring := x.ring.filter fun e => hit e.2
  let s := modChan s c fun x => { x with running := x.running.filter fun r => r.token || !hit r.desc,
                                         ring := x.ring.filter fun e => !hit e.2 }
  let s := (idle.map (·.desc) ++ ring.map (·.2)).foldl (fun s d => flcEnd s c d 0x43) s
  let s := ringBump s c FLC_RING_DHEAD ring.length
  if fget s (FLC_CH_STATE_STATE.ix c 0x4000) = 3 then fset s (FLC_CH_STATE_STATE.ix c 0x4000) 5 else s

/-- A fence message reaches every channel. -/
def flashFence (s : State) : State := (List.range 32).foldl fenceChan (fset s FLC_STATUS_FENCED 1)

/-- FLASH_FENCE. -/
def execFlashFence (s : State) : Host.Outcome State Fault Refusal := .next (flashFence s)

/-! ## Initialisation and retraining (R297, R298) -/

/-- LUNs behind a CE pin (R300). -/
def lunsOfCe (p : LunProfile) (ce : Nat) : List Nat := (List.range (p.vpc * p.lpv)).map (· + ce * (p.vpc * p.lpv))

/-- Retire what an initialisation step found bad. -/
def initFail (s : State) (c : Nat) (p : LunProfile) (step ce : Nat) (lun : Option Nat) : State :=
  let data := c % 32 + step % 8 * 32 + ce % 4 * 256 + lun.getD 0 % 32 * 1024 + 32768
  let s := dmkSend s 0x0406 data
  (match lun with | some l => [l] | none => lunsOfCe p ce).foldl (fun s l => lunRetire s c l 9 data) s

/-- FLASH_CHANNEL_INIT (R297, R315): a powered channel that the image declares present resets, identifies, configures
and trains its LUNs. `ident` are CE 0's ID bytes, `ceFails` the CE pins that failed with their step, `lunFails` LUNs that did
not answer step 7, `trainFails` how often training failed. -/
def execFlashChannelInit (c ident : Nat) (ceFails : List (Nat × Nat)) (lunFails : List Nat) (trainFails : Nat)
    (s : State) : Host.Outcome State Fault Refusal :=
  match flashProfile s c with
  | none => .next s
  | some p =>
    if 32 ≤ c || !pdOn s (99 + c) || fbit s FLC_RETIRED_RETIRED c || fget s (FLC_CH_STATE_STATE.ix c 0x4000) ≠ 2 then .next s
    else
      let s := rset s (FLC_CH_STATE_STATE.ix c 0x4000).off 0
      let s := fset (fset s (FLC_CH_STATE_STATE.ix c 0x4000) 3) (FLC_CH_STATE_IFACE.ix c 0x4000) p.iface
      let s := fset (fset s (FLC_CH_STATE_RATE.ix c 0x4000) p.rate) (FLC_CH_STATE_PROFILE.ix c 0x4000)
        (((image s).flashProf.chmap.getD c none).getD 0)
      let s := fset s (FLC_CH_STATE_MEMBER.ix c 0x4000) (b2n (fbit s UDC_FMEMB_MASK c))
      let s := fset (fset s (FLC_IDENT0_ID.ix c 0x4000) ident) (FLC_IDENT1_ID.ix c 0x4000) (ident / 2 ^ 32)
      let s := fset s (FLC_LUN_OK_OK.ix c 0x4000) (2 ^ p.luns - 1)
      let s := modChan s c fun _ => { wpSet := true }
      let s := ceFails.foldl (fun s e => if e.1 < p.ces then initFail s c p e.2 e.1 none else s) s
      let s := lunFails.foldl (fun s l => if l < p.luns then
        initFail s c p 7 (l / max (p.vpc * p.lpv) 1) (some l) else s) s
      let s := if 3 ≤ trainFails then chanRetire s c 1 1 else s
      .next (showGeom (showChans s))

/-- FLASH_RETRAIN_TICK (R298): between descriptors; three failures in a row retire the channel. -/
def execFlashRetrainTick (c : Nat) (pass : Bool) (s : State) : Host.Outcome State Fault Refusal :=
  if !chanServes s c || (getChan s c).running.any (·.token) then .next s
  else
    let s := fbump s (FLC_ERR_CNT1_TRAIN.ix c 0x4000)
    if pass then .next (modChan s c fun x => { x with trainFails := 0 })
    else
      let s := modChan s c fun x => { x with trainFails := x.trainFails + 1 }
      .next (if 3 ≤ (getChan s c).trainFails then chanRetire s c 1 1 else s)

/-! ## Timeouts, retirement, patrol, dump rows (R319, R323, R324, R326) -/

/-- LUN_TIMEOUT (R324): the descriptor ends LUN_TIMEOUT and the LUN is reset; a second timeout within 600 s or no
answer retires it; when no other LUN answers either the channel has failed. -/
def execLunTimeout (c lun : Nat) (answers othersAnswer : Bool) (s : State) : Host.Outcome State Fault Refusal :=
  match (getChan s c).running.find? fun r => r.token && r.desc.lun == lun with
  | none => .next s
  | some r =>
    let s := flcEnd (flcDrop s c r) c r.desc 0x40
    let s := emit (fbump s (FLC_ERR_CNT1_TIMEOUT.ix c 0x4000)) (.nand c lun 3 0 0)
    let last := tget 0 (getChan s c).tmo lun
    if !answers && !othersAnswer then .next (chanRetire s c 13 4)
    else if !answers || (last ≠ 0 && s.tb.ns < last - 1 + 600000000000) then .next (lunRetire s c lun 2 (c % 32 + lun * 32))
    else .next (modChan s c fun x => { x with tmo := tset 0 x.tmo lun (s.tb.ns + 1) })

/-- FLASH_CHANNEL_RETIRE (R326): the engine's lockstep or codec check fails, or staging returns an uncorrectable
word. -/
def execFlashChannelRetire (c : Nat) (staging : Bool) (s : State) : Host.Outcome State Fault Refusal :=
  .next (if staging then chanRetire s c 7 2 else chanRetire s c 0 0)

/-- PATROL_SCAN (R323): the patrol scans a programmed page set in SERVING or DEGRADED. -/
def execPatrolScan (c lun row pset : Nat) (bits set : Nat) (soft : Bool) (s : State) :
    Host.Outcome State Fault Refusal :=
  match flashProfile s c with
  | none => .next s
  | some p =>
    let phys := physRow s c lun row
    let w := getRow s c lun phys
    let sys := 1024 ≤ row
    if !s.phase.inService || !chanServes s c || !lunOk s c lun || w.next ≤ pset then .next s
    else
      let s := modRow s c lun phys fun w => { w with reads := min (w.reads + 1) 524287 }
      .next (if wantsReloc p (getRow s c lun phys) sys bits set soft then requestReloc s c lun row else s)

/-- The lowest used dump row of a LUN. -/
def dumpRowNext (s : State) (c lun : Nat) : Option Nat :=
  ((List.range 64).map (· + 1024)).find? fun r => 0 < (getRow s c lun r).next

/-- Is the dump in the rows still needed (R319, R530, R532): one that is not restored yet, or one some of whose restored
slots has not been released? -/
def dumpNeeded (s : State) : Bool :=
  s.nv.dump.isSome && (s.bls.restoring || s.bls.restored.any fun e =>
    2 ≤ (tget {} s.udc.slots e.1).state && (tget {} s.udc.slots e.1).age == e.2)

/-- DUMP_ROW_ERASE (R319): the next used dump row is erased, once a dump needs no restore any more; the dump is then no
longer there. -/
def execDumpRowErase (c lun : Nat) (s : State) : Host.Outcome State Fault Refusal :=
  match flashProfile s c, dumpRowNext s c lun with
  | some p, some r =>
    if (s.phase.inService || s.phase == .bringup) && chanServes s c && lunOk s c lun && !dumpNeeded s && s.bls.mode == 0 then
      let s := { s with nv := { s.nv with dump := none } }
      let s := emit (fset s (FLC_CH_STATE_WP_HIGH.ix c 0x4000) 1) (.nand c lun 2 r 0)
      .next (showDump (modRow s c lun r fun w => w.wiped p true))
    else .next s
  | _, _ => .next s

end Sys2Proof.Machine
end

