-- ==== Sys2Proof/Machine/Operands.lean ====
section
/-!
DEFINITION. Machine/Operands.lean: the microword (08_microword_set.md): its fields (Table 08-1), which of them each
opcode uses (Table 08-4), the reserved encodings, operand B, branch conditions and address spaces.
-/

namespace Sys2Proof.Machine

/-- The fields of a microword (Table 08-1). -/
structure MWord where
  opc    : Nat
  sq     : Nat
  cond   : Nat
  sf     : Bool
  rd     : Nat
  ra     : Nat
  rb     : Nat
  bsel   : Bool
  size   : Nat
  space  : Nat
  rsv    : Nat
  target : Nat
  imm    : Nat
  deriving DecidableEq, Repr

/-- Bits `lo + w - 1` to `lo` of a number. -/
def nbits (x lo w : Nat) : Nat := x / 2 ^ lo % 2 ^ w

/-- Read a 128-bit word by its fields. -/
def MWord.ofNat (x : Nat) : MWord :=
  { opc := nbits x 120 8, sq := nbits x 117 3, cond := nbits x 113 4, sf := nbits x 112 1 == 1
    rd := nbits x 106 6, ra := nbits x 100 6, rb := nbits x 94 6, bsel := nbits x 93 1 == 1
    size := nbits x 90 3, space := nbits x 86 4, rsv := nbits x 82 4, target := nbits x 64 18
    imm := nbits x 0 64 }

/-- How an opcode uses RD, RA, operand B and SF (Table 08-4). -/
inductive BUse where
  | no | any | shift | field | offset | store | send | wait | data
  deriving DecidableEq, Repr

structure OpUse where
  rd : Bool
  ra : Bool
  b  : BUse
  sf : Bool
  rdMax : Nat := 63
  rbMax : Nat := 63
  deriving DecidableEq, Repr

/-- Table 08-4; none for an undefined opcode. -/
def opUse (o : Nat) : Option OpUse :=
  if o = 0x00 then some ⟨false, false, .no, false, 63, 63⟩
  else if o = 0x06 || o = 0x07 || o = 0x08 then some ⟨true, true, .shift, true, 63, 63⟩
  else if o = 0x09 || o = 0x11 || o = 0x12 then some ⟨true, false, .any, true, 63, 63⟩
  else if o = 0x0A || o = 0x0B then some ⟨false, true, .any, false, 63, 63⟩
  else if o = 0x0F || o = 0x10 then some ⟨true, true, .field, true, 63, 63⟩
  else if o ≤ 0x13 then some ⟨true, true, .any, true, 63, 63⟩
  else if o = 0x20 then some ⟨true, true, .offset, false, 63, 63⟩
  else if o = 0x21 then some ⟨false, true, .store, false, 63, 63⟩
  else if o = 0x22 then some ⟨false, false, .no, false, 63, 63⟩
  else if o = 0x30 then some ⟨false, true, .send, false, 63, 60⟩
  else if o = 0x31 then some ⟨true, false, .wait, false, 60, 63⟩
  else if o = 0x32 then some ⟨true, false, .no, false, 60, 63⟩
  else if o = 0x33 then some ⟨true, false, .no, false, 63, 63⟩
  else if o = 0x38 then some ⟨false, true, .data, false, 63, 62⟩
  else none

/-- Is operand B of the word well-formed for its use? -/
def bOk (m : MWord) (u : BUse) : Bool :=
  match u with
  | .no => m.rb == 0 && !m.bsel && m.imm == 0
  | .any => if m.bsel then m.rb == 0 else m.imm == 0
  | .shift => if m.bsel then m.rb == 0 && m.imm < 64 else m.imm == 0
  | .field =>
    let l := nbits m.imm 0 6
    let w := nbits m.imm 8 7
    m.bsel && m.rb == 0 && nbits m.imm 6 2 == 0 && m.imm < 2 ^ 15 && 1 ≤ w && w ≤ 64 && l + w ≤ 64
  | .offset => !m.bsel && m.rb == 0
  | .store => !m.bsel
  | .send => !m.bsel && m.imm < 3
  | .wait => !m.bsel && m.rb == 0
  | .data => !m.bsel && m.imm == 0

/-- Are the sequencing fields well-formed (Tables 08-1, 08-2)? -/
def seqOk (m : MWord) : Bool :=
  (m.cond == 0 || m.sq == 2) && m.sq != 7 &&
    (if m.sq = 1 || m.sq = 2 || m.sq = 3 then true else if m.sq = 6 then m.target < 256 else m.target == 0)

/-- Order 2 of Table 08-8: no reserved field is nonzero and no encoding is reserved. -/
def wordOk (m : MWord) (u : OpUse) : Bool :=
  m.rsv == 0 && (u.rd || m.rd == 0) && (u.ra || m.ra == 0) && (u.sf || !m.sf) && m.rd ≤ u.rdMax && m.rb ≤ u.rbMax &&
    bOk m u.b && seqOk m &&
    (if m.opc = 0x20 || m.opc = 0x21 then m.size < 4 && m.space < 5 else m.size == 0 && m.space == 0)

/-- Orders 1 and 2 depend on the word alone: 0 good, 1 MW_UNDEF, 2 MW_RSVD. -/
def wordFault (m : MWord) : Nat :=
  match opUse m.opc with
  | none => 1
  | some u => if wordOk m u then 0 else 2

/-- Operand register. -/
def gReg (c : Ctx) (r : Nat) : DWord := tget 0 c.regs r

def setReg (c : Ctx) (r : Nat) (v : DWord) : Ctx := { c with regs := tset 0 c.regs r v }

/-- Operand B: RB or IMM. -/
def opB (c : Ctx) (m : MWord) : DWord := if m.bsel then BitVec.ofNat 64 m.imm else gReg c m.rb

/-- Table 08-3. -/
def condHolds (c : Ctx) (k : Nat) : Bool :=
  match k with
  | 0x0 => c.z
  | 0x1 => !c.z
  | 0x2 => c.c
  | 0x3 => !c.c
  | 0x4 => c.n
  | 0x5 => !c.n
  | 0x6 => c.v
  | 0x7 => !c.v
  | 0x8 => c.c && !c.z
  | 0x9 => !c.c || c.z
  | 0xA => c.n == c.v
  | 0xB => c.n != c.v
  | 0xC => !c.z && c.n == c.v
  | 0xD => c.z || c.n != c.v
  | 0xE => c.t
  | _ => !c.t

/-- Skim level: the program counter lies in the Skim region (R195). -/
def atSkim (a : Nat) : Bool := 0x38000 ≤ a

/-- Addresses a Skim flow may jump, branch, call or return to (Table 08-9). -/
def skimTarget (a : Nat) : Bool := 0x38040 ≤ a && a < 0x40000

/-- The last address of a region (R205, R228). -/
def regionEnd (a : Nat) : Bool := a == 0x2FFFF || a == 0x37FFF || a == 0x3FFFF

/-- Bytes of an LD or ST. -/
def accessBytes (m : MWord) : Nat := 2 ^ m.size

/-- Address of an LD or ST: RA + IMM modulo 2^64 (R231). -/
def accessAddr (c : Ctx) (m : MWord) : Nat := (gReg c m.ra + BitVec.ofNat 64 m.imm).toNat

/-- Statuses a Skim flow may end with, or a service return (R236). -/
def skimStatus (v : Nat) : Bool :=
  [0x0000, 0x0102, 0x0103, 0x0104, 0x0105, 0x0107, 0x0108, 0x0109, 0x010A, 0x0201, 0x0202, 0x0203, 0x0204, 0x0302,
    0x0303].contains v

end Sys2Proof.Machine
end

