-- ==== Sys2Proof/Machine/Flags.lean ====
section
/-!
DEFINITION. Machine/Flags.lean: results and flags of the microword operations (R229, R230, Table 08-5).
-/

namespace Sys2Proof.Machine

/-- A result with the flags the operation would set: Z and N follow from the result. -/
structure AluOut where
  res : DWord
  c   : Bool := false
  v   : Bool := false
  deriving DecidableEq, Repr

/-- RA + B with carry out of bit 63 and signed overflow. -/
def aluAdd (a b : DWord) : AluOut :=
  let r := a + b
  ⟨r, decide (2 ^ 64 ≤ a.toNat + b.toNat), a.msb == b.msb && r.msb != a.msb⟩

/-- RA - B: C is 1 when RA is at or above B unsigned. -/
def aluSub (a b : DWord) : AluOut :=
  let r := a - b
  ⟨r, decide (b.toNat ≤ a.toNat), a.msb != b.msb && r.msb != a.msb⟩

/-- Shift amount: the low six bits of B. -/
def shiftAmount (b : DWord) : Nat := b.toNat % 64

/-- Left shift; C is the last bit shifted out. -/
def aluShl (a b : DWord) : AluOut :=
  let n := shiftAmount b
  ⟨a <<< n, n != 0 && a.getLsbD (64 - n), false⟩

/-- Logical right shift. -/
def aluShr (a b : DWord) : AluOut :=
  let n := shiftAmount b
  ⟨a >>> n, n != 0 && a.getLsbD (n - 1), false⟩

/-- Arithmetic right shift. -/
def aluSar (a b : DWord) : AluOut :=
  let n := shiftAmount b
  ⟨a.sshiftRight n, n != 0 && a.getLsbD (n - 1), false⟩

/-- Low half of the unsigned product; C when the product does not fit. -/
def aluMul (a b : DWord) : AluOut := ⟨a * b, decide (2 ^ 64 ≤ a.toNat * b.toNat), false⟩

/-- Unsigned minimum and maximum. -/
def aluMin (a b : DWord) : AluOut := { res := if a.toNat ≤ b.toNat then a else b }
def aluMax (a b : DWord) : AluOut := { res := if a.toNat ≤ b.toNat then b else a }

/-- Field extraction: W bits of RA from L. -/
def aluExt (a : DWord) (imm : Nat) : AluOut :=
  { res := BitVec.ofNat 64 (a.toNat / 2 ^ (imm % 64) % 2 ^ (imm / 256 % 128)) }

/-- Field insertion into `d`: W bits of RA at L. -/
def aluIns (d a : DWord) (imm : Nat) : AluOut :=
  let l := imm % 64
  let w := imm / 256 % 128
  { res := BitVec.ofNat 64 (d.toNat / 2 ^ (l + w) * 2 ^ (l + w) + a.toNat % 2 ^ w * 2 ^ l + d.toNat % 2 ^ l) }

/-- Leading zeros of the low `n` bits. -/
def leadZeros (x : Nat) : Nat → Nat
  | 0 => 0
  | n + 1 => if x / 2 ^ n % 2 = 1 then 0 else leadZeros x n + 1

def aluClz (b : DWord) : AluOut := { res := BitVec.ofNat 64 (leadZeros b.toNat 64) }

def aluPopc (b : DWord) : AluOut := { res := BitVec.ofNat 64 (popCount 64 b.toNat) }

/-- R240: CRC-32C continued from `c`: the CRC of any string with CRC `c` followed by the bytes. -/
def crc32cFrom (c : Nat) (bs : List Byte) : Nat :=
  (crc32cStep (BitVec.ofNat 32 c ^^^ 0xFFFFFFFF) bs ^^^ 0xFFFFFFFF).toNat

/-- CRC over the eight bytes of B, low byte first. -/
def aluCrc (a b : DWord) : AluOut :=
  { res := BitVec.ofNat 64 (crc32cFrom (a.toNat % 2 ^ 32) (leBytes b.toNat 8)) }

/-- Set Z, N, C and V from an operation. -/
def putFlags (c : Ctx) (o : AluOut) : Ctx := { c with z := o.res == 0, n := o.res.msb, c := o.c, v := o.v }

/-- Write the result, and the flags where SF is 1 (R230). -/
def putResult (c : Ctx) (m : MWord) (o : AluOut) : Ctx :=
  let c := setReg c m.rd o.res
  if m.sf then putFlags c o else c

end Sys2Proof.Machine
end

