-- ==== Sys2Proof/Machine/Microword.lean ====
section
/-!
DEFINITION. Machine/Microword.lean: how a context issues the microword in its fetch register (R226 to R234), the
operations that touch no address space, messages, control-store writes, and the Skim section (R244 to R246,
SKIM_INSTALL). LD, ST and the vendor services are in Services.lean.
-/

namespace Sys2Proof.Machine

/-! ## Issue (R226 to R234) -/

/-- A ready context of a working tile, with its word decoded, when the word carries opcode `o`. -/
def issued (s : State) (t c o : Nat) : Option (Ctx × MWord) :=
  let k := ctxKey t c
  if t < 32 && c < 8 && physOf s t != 0x3F && ctxReady s k then
    match (getCtx s k).word with
    | some w => if (MWord.ofNat w).opc = o then some (getCtx s k, MWord.ofNat w) else none
    | none => none
  else none

/-- Order 3, MW_CAP: what Table 08-9 forbids at the context's level; `x'` is the context after the operation. -/
def capFault (s : State) (x x' : Ctx) (m : MWord) : Bool :=
  (m.sq == 6 && tget 0 s.trw.entries m.target == 0) ||
  (m.opc == 0x38 && (gReg x m.ra).toNat % 2 ^ 18 < 0x30000) ||
  (atSkim x.pc &&
    (m.opc == 0x38 || m.opc == 0x30 || ((m.opc == 0x20 || m.opc == 0x21) && m.space < 3) ||
      ((m.sq == 1 || m.sq == 2 || m.sq == 3) && !skimTarget m.target) ||
      (m.sq == 4 && (match x.stack with | a :: _ => !skimTarget a | [] => false)) ||
      (m.sq == 5 && !skimStatus (gReg x' 0).toNat)))

/-- Order 4, MW_STACK (R227). -/
def stackFault (x : Ctx) (m : MWord) : Bool :=
  (m.sq == 3 && 8 ≤ x.stack.length) || (m.sq == 6 && 4 < x.stack.length) || (m.sq == 4 && x.stack.isEmpty)

/-- Order 5, MW_BOUND (R205, R228). -/
def boundFault (x : Ctx) (m : MWord) : Bool :=
  regionEnd x.pc && (m.sq == 0 || m.sq == 3 || m.sq == 6 || (m.sq == 2 && !condHolds x m.cond))

/-- Table 08-8, orders 1 to 5: the fault code of Table 07-5, 0 for none. -/
def issueFault (s : State) (x x' : Ctx) (m : MWord) : Nat :=
  if wordFault m ≠ 0 then wordFault m
  else if capFault s x x' m then 4
  else if stackFault x m then 3
  else if boundFault x m then 5
  else 0

/-- One discarded prefetched word (R203, R204). -/
def countDiscard (s : State) : State :=
  let n := fget s TRW_DISCARD_CNT_LO_COUNT + fget s TRW_DISCARD_CNT_HI_COUNT * 2 ^ 32 + 1
  fset (fset s TRW_DISCARD_CNT_LO_COUNT (n % 2 ^ 32)) TRW_DISCARD_CNT_HI_COUNT (n / 2 ^ 32 % 2 ^ 32)

/-- Go on at an address: the tile fetches its word. -/
def goTo (s : State) (k a : Nat) (x : Ctx) : State :=
  setCtx s k { x with pc := a, word := some (csFetch s a), count := x.count + 1 }

/-- R236: END frees the context and ends the command with G0[15:0]. -/
def endFlow (s : State) (k : Nat) (x : Ctx) : State :=
  match x.seq with
  | some seq => freeCtx (setDone s seq ((gReg x 0).toNat % 65536)) k
  | none => freeCtx s k

/-- Take the sequencing action of a word whose operation left the context `x'`; `x` is the context before it. -/
def sequence (s : State) (k : Nat) (x x' : Ctx) (m : MWord) : State :=
  match m.sq with
  | 1 => goTo s k m.target x'
  | 2 =>
    if condHolds x m.cond then goTo (countDiscard s) k m.target x' else goTo s k (x.pc + 1) x'
  | 3 => goTo s k m.target { x' with stack := (x.pc + 1) :: x'.stack }
  | 4 => goTo s k (x.stack.headD 0) { x' with stack := x'.stack.drop 1 }
  | 5 => endFlow s k x'
  | 6 => setCtx s k { x' with stack := (x.pc + 1) :: x'.stack, pc := tget 0 s.trw.entries m.target - 1, word := none,
                              wait := .service m.target, count := x.count + 1 }
  | _ => goTo s k (x.pc + 1) x'

/-- Complete a word: raise the first fault, or commit operation and sequencing together. A CALLV waits until the
tile's store buffer is empty (R238). -/
def microDone (s : State) (t c : Nat) (x x' : Ctx) (m : MWord) : State :=
  match issueFault s x x' m with
  | 0 => if m.sq = 6 && !(getTile s t).stores.isEmpty then s else sequence s (ctxKey t c) x x' m
  | f => flowFault s t c f

/-- A microword whose operation changes only the context. -/
def microOp (o t c : Nat) (f : Ctx → MWord → Ctx) (s : State) : State :=
  match issued s t c o with
  | none => s
  | some (x, m) => microDone s t c x (f x m) m

/-- A two-operand operation that writes RD. -/
def aluOp (g : DWord → DWord → AluOut) (x : Ctx) (m : MWord) : Ctx := putResult x m (g (gReg x m.ra) (opB x m))

/-! ## Operations (Table 08-4) -/

/-- NOP. -/
def execNop (t c : Nat) (s : State) : Host.Outcome State Fault Refusal := .next (microOp 0x00 t c (fun x _ => x) s)

/-- ADD. -/
def execAdd (t c : Nat) (s : State) : Host.Outcome State Fault Refusal := .next (microOp 0x01 t c (aluOp aluAdd) s)

/-- SUB. -/
def execSub (t c : Nat) (s : State) : Host.Outcome State Fault Refusal := .next (microOp 0x02 t c (aluOp aluSub) s)

/-- AND. -/
def execAnd (t c : Nat) (s : State) : Host.Outcome State Fault Refusal :=
  .next (microOp 0x03 t c (aluOp fun a b => { res := a &&& b }) s)

/-- OR. -/
def execOr (t c : Nat) (s : State) : Host.Outcome State Fault Refusal :=
  .next (microOp 0x04 t c (aluOp fun a b => { res := a ||| b }) s)

/-- XOR. -/
def execXor (t c : Nat) (s : State) : Host.Outcome State Fault Refusal :=
  .next (microOp 0x05 t c (aluOp fun a b => { res := a ^^^ b }) s)

/-- SHL. -/
def execShl (t c : Nat) (s : State) : Host.Outcome State Fault Refusal := .next (microOp 0x06 t c (aluOp aluShl) s)

/-- SHR. -/
def execShr (t c : Nat) (s : State) : Host.Outcome State Fault Refusal := .next (microOp 0x07 t c (aluOp aluShr) s)

/-- SAR. -/
def execSar (t c : Nat) (s : State) : Host.Outcome State Fault Refusal := .next (microOp 0x08 t c (aluOp aluSar) s)

/-- MOV. -/
def execMov (t c : Nat) (s : State) : Host.Outcome State Fault Refusal :=
  .next (microOp 0x09 t c (aluOp fun _ b => { res := b }) s)

/-- CMP: flags from RA - B, always. -/
def execCmp (t c : Nat) (s : State) : Host.Outcome State Fault Refusal :=
  .next (microOp 0x0A t c (fun x m => putFlags x (aluSub (gReg x m.ra) (opB x m))) s)

/-- TST: flags from RA AND B, always. -/
def execTst (t c : Nat) (s : State) : Host.Outcome State Fault Refusal :=
  .next (microOp 0x0B t c (fun x m => putFlags x { res := gReg x m.ra &&& opB x m }) s)

/-- MUL. -/
def execMul (t c : Nat) (s : State) : Host.Outcome State Fault Refusal := .next (microOp 0x0C t c (aluOp aluMul) s)

/-- MINU. -/
def execMinu (t c : Nat) (s : State) : Host.Outcome State Fault Refusal := .next (microOp 0x0D t c (aluOp aluMin) s)

/-- MAXU. -/
def execMaxu (t c : Nat) (s : State) : Host.Outcome State Fault Refusal := .next (microOp 0x0E t c (aluOp aluMax) s)

/-- EXT. -/
def execExt (t c : Nat) (s : State) : Host.Outcome State Fault Refusal :=
  .next (microOp 0x0F t c (fun x m => putResult x m (aluExt (gReg x m.ra) m.imm)) s)

/-- INS. -/
def execIns (t c : Nat) (s : State) : Host.Outcome State Fault Refusal :=
  .next (microOp 0x10 t c (fun x m => putResult x m (aluIns (gReg x m.rd) (gReg x m.ra) m.imm)) s)

/-- CLZ. -/
def execClz (t c : Nat) (s : State) : Host.Outcome State Fault Refusal :=
  .next (microOp 0x11 t c (aluOp fun _ b => aluClz b) s)

/-- POPC. -/
def execPopc (t c : Nat) (s : State) : Host.Outcome State Fault Refusal :=
  .next (microOp 0x12 t c (aluOp fun _ b => aluPopc b) s)

/-- CRC. -/
def execCrc (t c : Nat) (s : State) : Host.Outcome State Fault Refusal := .next (microOp 0x13 t c (aluOp aluCrc) s)

/-- FENCE.W waits until the tile's store buffer is empty (R221). -/
def execFenceW (t c : Nat) (s : State) : Host.Outcome State Fault Refusal :=
  match issued s t c 0x22 with
  | none => .next s
  | some (x, m) =>
    if issueFault s x x m = 0 && !(getTile s t).stores.isEmpty then .next s else .next (microDone s t c x x m)

/-! ## Messages (R229) -/

/-- Four registers from `r` upwards. -/
def fourRegs (x : Ctx) (r : Nat) : List DWord := (List.range 4).map fun i => gReg x (r + i)

/-- SEND: DOORBELL and HOD_GO drain the store buffer first (R221). -/
def execSend (t c : Nat) (s : State) : Host.Outcome State Fault Refusal :=
  match issued s t c 0x30 with
  | none => .next s
  | some (x, m) =>
    if issueFault s x x m ≠ 0 then .next (microDone s t c x x m)
    else if (m.imm != 0 || m.sq == 6) && !(getTile s t).stores.isEmpty then .next s
    else .next (microDone (emit s (.message ((gReg x m.ra).toNat % 65536) (fourRegs x m.rb))) t c x x m)

/-- A message taken into RD to RD+3; T becomes 0. -/
def takeMessage (x : Ctx) (rd : Nat) (ws : List DWord) : Ctx :=
  { (List.range 4).foldl (fun x i => setReg x (rd + i) (ws.getD i 0)) x with t := false, wait := .none, count := 0 }

/-- WAIT: a message that is there is taken at once; else the context waits for one, or until IMM nanoseconds have
passed. -/
def execWait (t c : Nat) (s : State) : Host.Outcome State Fault Refusal :=
  match issued s t c 0x31 with
  | none => .next s
  | some (x, m) =>
    match x.inbox with
    | ws :: rest => .next (microDone s t c x (takeMessage { x with inbox := rest } m.rd ws) m)
    | [] =>
      if issueFault s x x m = 0 then
        .next (setCtx s (ctxKey t c)
          { x with wait := .message (if m.imm = 0 then none else some (s.tb.ns + m.imm)), count := 0 })
      else .next (microDone s t c x x m)

/-- POLL: takes a message if one is present, else sets T. -/
def execPoll (t c : Nat) (s : State) : Host.Outcome State Fault Refusal :=
  match issued s t c 0x32 with
  | none => .next s
  | some (x, m) =>
    match x.inbox with
    | ws :: rest => .next (microDone s t c x { takeMessage { x with inbox := rest } m.rd ws with count := x.count } m)
    | [] => .next (microDone s t c x { x with t := true } m)

/-- MESSAGE_ARRIVAL (R213, R229): a waiting context takes the message and its WAIT completes; else it joins the
context's inbox of 4; a full inbox leaves the sender waiting on credits. -/
def execMessageArrival (t c : Nat) (ws : List DWord) (s : State) : Host.Outcome State Fault Refusal :=
  let k := ctxKey t c
  let x := getCtx s k
  if 32 ≤ t || 8 ≤ c || !x.busy then .next s
  else match x.wait, x.word with
    | .message _, some w =>
      let m := MWord.ofNat w
      .next (microDone s t c { x with wait := .none } (takeMessage x m.rd ws) m)
    | _, _ => if x.inbox.length < 4 then .next (setCtx s k { x with inbox := x.inbox ++ [ws] }) else .next s

/-- WAIT_TIMEOUT: the WAIT's time has run out: T becomes 1, RD stays. -/
def execWaitTimeout (t c : Nat) (s : State) : Host.Outcome State Fault Refusal :=
  let x := getCtx s (ctxKey t c)
  if 32 ≤ t || 8 ≤ c || !x.busy then .next s
  else match x.wait, x.word with
    | .message (some d), some w =>
      if d ≤ s.tb.ns then
        .next (microDone s t c { x with wait := .none } { x with wait := .none, t := true, count := 0 } (MWord.ofNat w))
      else .next s
    | _, _ => .next s

/-- TIME. -/
def execTime (t c : Nat) (s : State) : Host.Outcome State Fault Refusal :=
  let now := s.tb.ns
  .next (microOp 0x33 t c (fun x m => setReg x m.rd (BitVec.ofNat 64 now)) s)

/-- STCS (R206, R207): the successor is fetched at issue, with its old contents; the context waits until its write has
been committed, one write at a time. -/
def execStcs (t c : Nat) (s : State) : Host.Outcome State Fault Refusal :=
  match issued s t c 0x38 with
  | none => .next s
  | some (x, m) =>
    if issueFault s x x m ≠ 0 then .next (microDone s t c x x m)
    else if m.sq == 6 && !(getTile s t).stores.isEmpty then .next s
    else
      let word := (gReg x m.rb).toNat + (gReg x (m.rb + 1)).toNat * 2 ^ 64
      let s := microDone s t c x { x with wait := .stcs } m
      .next (modTrw s fun w => { w with stcs := w.stcs ++ [⟨ctxKey t c, (gReg x m.ra).toNat % 2 ^ 18, word⟩] })

/-! ## The Skim section (R244 to R246) -/

/-- Checks 4 to 7 on one code word; `n` is WORDS. -/
def skimWordOk (sec : SkimSec) (w : Nat) : Bool :=
  let m := MWord.ofNat w
  let last := 0x38040 + sec.words.length
  wordFault m == 0 && m.opc != 0x38 && m.opc != 0x30 && !((m.opc == 0x20 || m.opc == 0x21) && m.space < 3) &&
    (if m.sq = 1 || m.sq = 2 || m.sq = 3 then 0x38040 ≤ m.target && m.target < last else true) &&
    (m.sq != 6 || sec.used.contains m.target)

/-- Table 08-14 but for check 2, against a vendor entry table. -/
def skimSectionOk (present : Nat → Bool) (sec : SkimSec) : Bool :=
  sec.magic == 0x4B534158 && 1 ≤ sec.words.length && sec.words.length ≤ 32704 &&
    sec.length == 0x140 + 16 * sec.words.length && sec.rsvd == 0 &&
    sec.bind.all (fun e => e == 0 || (0x38040 ≤ e && e < 0x38040 + sec.words.length)) &&
    sec.words.all (skimWordOk sec) && sec.used.all present

/-- Is vendor entry `n` present? -/
def entryPresent (s : State) (n : Nat) : Bool := tget 0 s.trw.entries n != 0

/-- R81's rule on an interface version against the bundle's. -/
def skimIfOk (skimIf entryIf : Nat) (subset : Bool) : Bool :=
  skimIf / 65536 == entryIf / 65536 && (skimIf % 65536 ≤ entryIf % 65536 || subset)

/-- R210: REASON and status of the first failing check; (0, 0) when all pass. -/
def skimJudge (s : State) (bufLen : Nat) (b : SkimBlob) : Nat × Nat :=
  match s.nv.opHash with
  | none => (1, 0x0102)
  | some h =>
    if bufLen ≠ b.sec.length + 200 then (2, 0x010A)
    else if b.keyHash ≠ h || !b.sigOk then (3, 0x0102)
    else if !skimIfOk b.sec.skimIf s.trw.entryIf b.sec.subset then (4, 0x0102)
    else if !skimSectionOk (entryPresent s) b.sec then (5, 0x0102)
    else (0, 0)

/-! ## Admin commands: the common part (R147) -/

/-- An admin command that may run now: accepted, of this opcode, not ended, and first on its queue (R147). -/
def adminCmd (s : State) (seq opc : Nat) : Option Cmd :=
  match getCmd s seq with
  | none => none
  | some c =>
    if c.admin && c.sqe.opc == opc && c.done.isNone &&
        !(s.cmds.any fun e => e.2.admin && e.2.fid == c.fid && e.1 < seq && e.2.done.isNone) then some c
    else none

/-- Mark that an admin command has taken effect for later commands and waits for earlier ones (R183). -/
def setStage (s : State) (seq : Nat) (c : Cmd) : State := putCmd s seq { c with stage := 1 }

/-- SKIM_INSTALL (R210, R211): the checks; then INSTALLING holds Skim dispatch back until the region is drained. -/
def execSkimInstall (seq : Nat) (blob : SkimBlob) (s : State) : Host.Outcome State Fault Refusal :=
  match adminCmd s seq 0x50 with
  | none => .next s
  | some c =>
    if s.trw.install.isSome then .next s
    else
      let (reason, status) := skimJudge s c.sqe.buf0Len blob
      let s := fset (hostGet s c.fid c.sqe.buf0 c.sqe.buf0Len) TRW_SKIM_STAT_REASON reason
      if reason ≠ 0 then .next (setDone s seq status)
      else .next (fset (modTrw s fun w => { w with install := some (seq, blob.sec) }) TRW_STATUS_INSTALLING 1)

/-- Is a Skim flow running, or any program counter in the Skim region? -/
def skimRunning (s : State) : Bool :=
  s.trw.ctxs.any (fun e => e.2.busy && (atSkim e.2.pc || e.2.stack.any atSkim))

/-- SKIM_INSTALL_DRAINED (R211 steps 3 to 6): the region is written and read back; a mismatch leaves it off. -/
def execSkimInstallDrained (match_ : Bool) (s : State) : Host.Outcome State Fault Refusal :=
  match s.trw.install with
  | none => .next s
  | some (seq, sec) =>
    if skimRunning s then .next s
    else
      let s := fset (modTrw (skimFill s sec) fun w => { w with install := none }) TRW_STATUS_INSTALLING 0
      if match_ then
        .next (setDone (fbump (fset s TRW_STATUS_SKIM_ON 1) TRW_SKIM_STAT_INSTALLS) seq 0)
      else .next (setDone (fset (fset s TRW_STATUS_SKIM_ON 0) TRW_SKIM_STAT_REASON 6) seq 0x0401)

/-- R212: a warm stop, a Ballast trigger or SAFE entry abandons a running install. -/
def abandonInstall (s : State) : State :=
  if s.trw.install.isNone then s
  else
    let s := fset (modTrw s fun w => { w with install := none }) TRW_STATUS_INSTALLING 0
    fset (fset s TRW_STATUS_SKIM_ON 0) TRW_SKIM_STAT_REASON 7

end Sys2Proof.Machine
end

