-- ==== Sys2Proof/Machine/Fabric.lean ====
section
/-!
DEFINITION. Machine/Fabric.lean: Lath's routes and link failures, the pace monitors and the timebase
(01_architecture.md).
-/

namespace Sys2Proof.Machine

/-! ## Lath (R13, R15) -/

/-- Links crossed between columns `x1` and `x2` on row `y`: link 7y + x joins x and x + 1. -/
def rowLinks (y x1 x2 : Nat) : List Nat :=
  (List.range 7).filterMap fun x => if min x1 x2 ≤ x && x < max x1 x2 then some (7 * y + x) else none

/-- Links crossed between rows `y1` and `y2` on column `x`: link 56 + 7x + y joins y and y + 1. -/
def colLinks (x y1 y2 : Nat) : List Nat :=
  (List.range 7).filterMap fun y => if min y1 y2 ≤ y && y < max y1 y2 then some (56 + 7 * x + y) else none

/-- Links of the XY route between nodes, a node being 8y + x. -/
def routeXY (a b : Nat) : List Nat := rowLinks (a / 8) (a % 8) (b % 8) ++ colLinks (b % 8) (a / 8) (b / 8)

/-- Links of the YX route. -/
def routeYX (a b : Nat) : List Nat := colLinks (a % 8) (a / 8) (b / 8) ++ rowLinks (b / 8) (a % 8) (b % 8)

/-- Is link `l` down (LTH_LINKDNn)? -/
def linkDown (s : State) (l : Nat) : Bool := fbit s (LTH_LINKDN_DOWN.ix (l / 32) 4) (l % 32)

/-- What becomes of a pair whose links in `down` are down: 0 XY, 1 YX, 2 unreachable (R13, LTH_CTL.REROUTE_EN). -/
def pairRoute (reroute : Bool) (down : List Nat) (a b : Nat) : Nat :=
  if (routeXY a b).all (!down.contains ·) then 0
  else if reroute && (routeYX a b).all (!down.contains ·) then 1 else 2

def downLinks (s : State) : List Nat := (List.range 112).filter (linkDown s)

/-- The nodes some other node cannot reach. -/
def unreachableNodes (reroute : Bool) (down : List Nat) : List Nat :=
  (List.range 64).filter fun b => (List.range 64).any fun a => pairRoute reroute down a b == 2

/-- LTH_STATUS.REROUTED and ISOLATED of the present links (Table 01-4). -/
def lathStatus (s : State) : State :=
  let down := downLinks s
  let re := fget s LTH_CTL_REROUTE_EN == 1
  let any := fun (k : Nat) => (List.range 64).any fun b => (List.range 64).any fun a => pairRoute re down a b == k
  let s := fset s LTH_STATUS_LINKS_DOWN down.length
  fset (fset s LTH_STATUS_REROUTED (b2n (any 1))) LTH_STATUS_ISOLATED (b2n (any 2))

/-- Endpoints that have become unreachable are reported and fenced (R13, R15); `before` were unreachable already. -/
def noteCut (s : State) (before : List Nat) : State :=
  match (unreachableNodes (fget s LTH_CTL_REROUTE_EN == 1) (downLinks s)).filter (!before.contains ·) with
  | [] => s
  | n :: rest =>
    let s := report s { src := 0x170, cls := .contained, region := some (.endpoint n) }
    let rseq := tget 0 s.kpr.lastRec 0x170 - 1
    modKpr s fun k => { k with fences := k.fences ++ rest.map fun m => (rseq, Region.endpoint m) }

/-- LATH_LINK_DOWN (R13, R15): the link is marked down until reset and reported; its pairs reroute, or are
unreachable, which is reported with every unreachable endpoint fenced. The senders keep the flits that were not
acknowledged. -/
def execLathLinkDown (link : Nat) (unacked : List Flit) (s : State) : Host.Outcome State Fault Refusal :=
  if 112 ≤ link || linkDown s link then .next s
  else
    let re := fget s LTH_CTL_REROUTE_EN == 1
    let before := unreachableNodes re (downLinks s)
    let s := lathStatus (fsetBit s (LTH_LINKDN_DOWN.ix (link / 32) 4) (link % 32) true)
    let s := { s with lath := { s.lath with rerouting := s.lath.rerouting ++ [(link, unacked)] } }
    let s := raise s (0x100 + link)
    .next (noteCut s before)

/-- REROUTE_COMPLETE (R15): the unacknowledged flits of the failed link are re-injected on the new routes, ahead of
any newer flit. -/
def execRerouteComplete (link : Nat) (s : State) : Host.Outcome State Fault Refusal :=
  let flits := (s.lath.rerouting.filter (·.1 == link)).flatMap (·.2)
  .next { s with lath := { s.lath with
    rerouting := s.lath.rerouting.filter (·.1 != link), inject := flits ++ s.lath.inject } }

/-! ## Pace monitors (R18) -/

/-- PACE_UPDATE: quadrant `n` measures; falling below WARN_THR sets WARN, falling below 0x0100 sets FLOOR and raises
source 0x0A0 + n. -/
def execPaceUpdate (n : Nat) (pace : BitVec 16) (s : State) : Host.Outcome State Fault Refusal :=
  if 4 ≤ n then .next s
  else
    let old := if tget false s.lath.measured n then fget s (MSR_PACE_PACE.ix n 4) else 0xFFFF
    let p := pace.toNat
    let thr := fget s MSR_PACE_CTL_WARN_THR
    let s := fset s (MSR_PACE_PACE.ix n 4) p
    let s := fset s (MSR_PACE_PACE_MIN.ix n 4) (min (fget s (MSR_PACE_PACE_MIN.ix n 4)) p)
    let s := { s with lath := { s.lath with measured := tset false s.lath.measured n true } }
    let s := if p < thr && thr ≤ old then fsetBit s MSR_STATUS_WARN n true else s
    if p < 0x100 && 0x100 ≤ old then .next (raise (fsetBit s MSR_STATUS_FLOOR n true) (0xA0 + n)) else .next s

/-- MIN_RESTART (Table 01-9): PACE_MIN of all four monitors takes 0xFFFF. -/
def execMinRestart (s : State) : Host.Outcome State Fault Refusal :=
  .next ([0, 1, 2, 3].foldl (fun s n => fset s (MSR_PACE_PACE_MIN.ix n 4) 0xFFFF) s)

/-- Lowest PACE of the four quadrants (R48). -/
def minPace (s : State) : Nat :=
  min (min (fget s (MSR_PACE_PACE.ix 0 4)) (fget s (MSR_PACE_PACE.ix 1 4)))
    (min (fget s (MSR_PACE_PACE.ix 2 4)) (fget s (MSR_PACE_PACE.ix 3 4)))

/-! ## Timebase (R22) -/

/-- TIMESTAMP_GRANT: the arbiter grants a request, at nanosecond `now` or later. -/
def execTimestampGrant (now : Nat) (s : State) : Host.Outcome State Fault Refusal :=
  let (ts, s) := grantStamp (advanceTo s now)
  .next (emit s (.stamp s.tb.boot ts.1 ts.2))

end Sys2Proof.Machine
end

