-- ==== Sys2Proof/Machine/Power.lean ====
section
/-!
DEFINITION. Machine/Power.lean: pins, fans, AVSBus, supply and temperature monitors, power-domain requests and
discovery parameters (02_package_and_electrical.md; 03_bring_up_and_image.md, R88, R89, R94 to R96).
-/

namespace Sys2Proof.Machine

/-! ## GPIO (R40 to R42) -/

/-- Function code of a pin. -/
def gpioCode (s : State) (pin : Nat) : Nat := bitsGet (rget s (0x100 + 4 * (pin / 8))) (4 * (pin % 8)) 4

/-- The instance a function code has on a pin, where Table 02-5 lists the code for the pin. -/
def gpioInstance (code pin : Nat) : Option Nat :=
  if code = 0 || code = 1 then some pin
  else if code = 2 then (if pin < 8 then some pin else if pin < 12 then some (pin - 8) else none)
  else if code = 3 then (if 8 ≤ pin && pin < 12 then some (pin - 8) else none)
  else if code = 4 then (if 12 ≤ pin && pin < 16 then some (pin - 12) else none)
  else if code = 5 then
    (if 12 ≤ pin && pin < 16 then some (pin - 12) else if 20 ≤ pin && pin < 24 then some (pin - 16) else none)
  else if code = 6 then (if pin = 16 then some 0 else none)
  else if code = 7 then (if pin = 17 then some 0 else none)
  else if code = 8 then (if 19 ≤ pin && pin < 24 then some (pin - 19) else none)
  else if code = 9 then (if pin = 18 then some 0 else none)
  else none

/-- What one pin's assignment comes to (R40, R41): stored, refused, or a reserved code. -/
inductive PinAssign where
  | stored | refused | reserved
  deriving DecidableEq, Repr

def judgePin (s : State) (pin code : Nat) : PinAssign :=
  match gpioInstance code pin with
  | none => .reserved
  | some inst =>
    let cur := gpioCode s pin
    if code = 0 || code = cur then .stored
    else if cur ≠ 0 then .refused
    else if code ≠ 1 && (List.range 24).any (fun q => q != pin && gpioCode s q == code &&
        gpioInstance code q == some inst) then .refused
    else .stored

/-- Assign one pin. -/
def assignPin (s : State) (pin code : Nat) : State :=
  match judgePin s pin code with
  | .stored => fset s ⟨0x100 + 4 * (pin / 8), 4 * (pin % 8), 4⟩ code
  | .reserved => fset s GLB_STATUS_RSV_WRITE 1
  | .refused => s

/-- Assign pins one by one; the second part lists the refused pins, lowest first. -/
def assignPins (s : State) : List (Nat × Nat) → State × List Nat
  | [] => (s, [])
  | (pin, code) :: rest =>
    let refused := judgePin s pin code == .refused
    let (s', l) := assignPins (assignPin s pin code) rest
    (s', if refused then pin :: l else l)

/-- GPIO_FUNC_WRITE (R41): a GLB_GPIO_FUNCn write assigns its eight pins one by one. -/
def execGpioFuncWrite (n : Nat) (value : Word) (s : State) : Host.Outcome State Fault Refusal :=
  if 3 ≤ n then .next s
  else
    let (s, bad) := assignPins s ((List.range 8).map fun k => (8 * n + k, bitsGet value (4 * k) 4))
    match bad with
    | [] => .next s
    | p :: _ => .next (fset (fset s GLB_GPIO_STATUS_CONFLICT 1) GLB_GPIO_STATUS_CONFLICT_PIN p)

/-! ## Fans (R43) -/

/-- Period field of fan `k`: two fans a register. -/
def tachF (k : Nat) : Fld := ⟨0x11C + 4 * (k / 2), 16 * (k % 2), 16⟩

/-- FAN_TACH_EDGE: a filtered falling edge, `periodUs` after the one before it; only a pin that carries FAN_TACH
measures. -/
def execFanTachEdge (k periodUs : Nat) (s : State) : Host.Outcome State Fault Refusal :=
  if k < 4 && gpioCode s (8 + k) == 3 then .next (fset s (tachF k) (min periodUs 0xFFFF)) else .next s

/-- FAN_TACH_TIMEOUT: no falling edge for 65.535 ms. -/
def execFanTachTimeout (k : Nat) (s : State) : Host.Outcome State Fault Refusal :=
  if k < 4 then .next (fset s (tachF k) 0xFFFF) else .next s

/-! ## AVSBus (R47 to R49) -/

/-- The regulator accepted a voltage: VCMD and its limit flags. -/
def avsAccepted (s : State) (mv : Nat) : State :=
  let s := fset s PWR_STATUS_VCMD mv
  let s := fset s PWR_STATUS_AT_VMAX (b2n (mv == fget s PWR_AVS_LIMIT_VMAX))
  let s := fset s PWR_STATUS_AT_VMIN (b2n (mv == fget s PWR_AVS_LIMIT_VMIN))
  modPwr s fun p => { p with avsPending := none, avsRetry := 0 }

/-- Send a Write Voltage command and take its outcome; a failed one waits for its retry. -/
def avsCommand (s : State) (mv : Nat) (ok : Bool) : State :=
  let s := emit s (.avsWrite mv)
  if ok then avsAccepted s mv
  else modPwr s fun p => { p with avsPending := some mv, avsRetry := 0 }

/-- The FIXED target (R48). -/
def avsFixed (s : State) : Nat :=
  max (fget s PWR_AVS_LIMIT_VMIN) (min (fget s PWR_AVS_VSET_VSET) (fget s PWR_AVS_LIMIT_VMAX))

/-- The next TRACK command of R48's pseudocode. -/
def avsTrackNext (s : State) : Nat :=
  let v := fget s PWR_STATUS_VCMD
  let lo := fget s PWR_AVS_LIMIT_VMIN
  let hi := fget s PWR_AVS_LIMIT_VMAX
  if minPace s < fget s PWR_AVS_PACE_PACE_LO && v < hi then min (v + 5) hi
  else if fget s PWR_AVS_PACE_PACE_HI < minPace s && lo < v then max (v - 5) lo
  else v

/-- AVS_TRACK_TICK: every 100 µs in TRACK mode the command steps by 5 mV; no command is sent while BUS_FAIL is set,
while a retry waits, or while a core brown-out commands VMAX (R533). -/
def execAvsTrackTick (ok : Bool) (s : State) : Host.Outcome State Fault Refusal :=
  let v := avsTrackNext s
  if fget s PWR_AVS_CTL_MODE = 1 && fget s PWR_STATUS_BUS_FAIL == 0 && s.pwr.avsPending == none &&
      fget s BLS_STATUS_BROWNOUT == 0 && v != fget s PWR_STATUS_VCMD then .next (avsCommand s v ok)
  else .next s

/-- AVS_READ_TICK: every 100 µs the regulator's voltage and current are read; a failed read keeps the last good
values. -/
def execAvsReadTick (ok : Bool) (mv cur : Nat) (s : State) : Host.Outcome State Fault Refusal :=
  if fget s PWR_STATUS_BUS_FAIL = 1 then .next s
  else
    let s := emit s .avsRead
    if ok then .next (fset (fset s PWR_AVS_READ_VREAD mv) PWR_AVS_READ_IREAD cur) else .next s

/-- AVS_RETRY: a failed transaction is tried again after 10 µs, at most 3 times; then BUS_FAIL and source 0x0A4. -/
def execAvsRetry (ok : Bool) (s : State) : Host.Outcome State Fault Refusal :=
  match s.pwr.avsPending with
  | none => .next s
  | some mv =>
    let s := emit s (.avsWrite mv)
    if ok then .next (avsAccepted s mv)
    else if s.pwr.avsRetry + 1 < 3 then .next (modPwr s fun p => { p with avsRetry := p.avsRetry + 1 })
    else
      .next (raise (fset (modPwr s fun p => { p with avsPending := none, avsRetry := 0 }) PWR_STATUS_BUS_FAIL 1) 0xA4)

/-- BUS_FAIL_CLEAR: clearing BUS_FAIL resumes commanding from the present mode. -/
def execBusFailClear (ok : Bool) (s : State) : Host.Outcome State Fault Refusal :=
  if fget s PWR_STATUS_BUS_FAIL = 0 then .next s
  else
    let s := fset s PWR_STATUS_BUS_FAIL 0
    if fget s PWR_AVS_CTL_MODE = 0 then .next (avsCommand s (avsFixed s) ok) else .next s

/-! ## Monitors (R46, R59) -/

/-- TEMP_THRESHOLD (R59): sensor `k` reaches 115, 125 or 135 °C (level 0, 1, 2): a corrected, contained or fatal
fault. -/
def execTempThreshold (k level : Nat) (s : State) : Host.Outcome State Fault Refusal :=
  if k < 8 && level < 3 then .next (raise s (0xB0 + 8 * level + k)) else .next s

/-! ## Power domains (R94 to R96, Table 03-18) -/

/-- Flash channel, actuator or HDA whose domain this is, and whether it accepts requests at all. -/
def pdUnit (d : Nat) : Option UnitId :=
  if d < 6 then some (.hostPort d)
  else if 99 ≤ d && d < 131 then some (.flashChannel (d - 99))
  else if 135 ≤ d && d < 167 then some (.dataPath (d - 135))
  else if 167 ≤ d && d < 183 then some (.hda (d - 167))
  else if d = 191 || d = 192 then some (.ozper (d - 191))
  else if d = 196 || d = 197 then some (.other d)
  else none

/-- Does the image declare the unit of a domain absent? -/
def pdAbsent (s : State) (d : Nat) : Bool :=
  match s.loader.img with
  | none => true
  | some i =>
    if 99 ≤ d && d < 131 then !(i.platform.flashPresent.getD (d - 99) false)
    else if 135 ≤ d && d < 167 then !(i.platform.hdaPresent.getD ((d - 135) / 2) false)
    else if 167 ≤ d && d < 183 then !(i.platform.hdaPresent.getD (d - 167) false)
    else false

def setPdResult (s : State) (d r : Nat) : State := fset (fset s PWR_PD_REQ_DOMAIN d) PWR_PD_REQ_RESULT r

def pdPhase (s : State) (d : Nat) : Nat := tget 0 s.pwr.pdPhase d

def setPdPhase (s : State) (d p : Nat) : State :=
  setPdBusy (modPwr s fun w => { w with pdPhase := tset 0 w.pdPhase d p }) d (p != 0)

/-- Has a function of the port a queue left (Table 03-18)? -/
def portHasQueue (s : State) (p : Nat) : Bool := s.qps.any fun e => e.1 / 16 / 1024 == p

/-! ## Discovery parameters (R88, R89) -/

/-- Is the item code listed in Table 03-17? -/
def paramListed (c : Nat) : Bool :=
  c ≤ 0x00A || (0x100 ≤ c && c < 0x140 && c % 4 != 3) || (0x200 ≤ c && c < 0x280 && c % 4 != 3) ||
    (0x300 ≤ c && c < 0x320) || (0x340 ≤ c && c ≤ 0x34F)

/-- The latest measurement of an item: value, state code of MSR_PARAM_STAT, count. -/
def param (s : State) (c : Nat) : Nat × Nat × Nat := tget (0, 0, 0) s.pwr.params c

/-- Enter a measurement of an item (R88). -/
def setParam (s : State) (c : Nat) (value : Nat) (st : Nat) : State :=
  modPwr s fun p => { p with params := tset (0, 0, 0) p.params c (value, st, min ((param s c).2.2 + 1) 255) }

/-- PARAM_SELECT: VALUE and STAT show the selected item from one measurement; a code that is not listed is
reserved. -/
def execParamSelect (item : Nat) (s : State) : Host.Outcome State Fault Refusal :=
  if paramListed item then
    let m := param s item
    let s := fset s MSR_PARAM_SEL_ITEM item
    let s := fset s MSR_PARAM_VAL_VALUE (if m.2.1 = 0 then 0 else m.1)
    .next (fset (fset s MSR_PARAM_STAT_STATE m.2.1) MSR_PARAM_STAT_COUNT m.2.2)
  else .next (fset s MSR_STATUS_RSV_WRITE 1)

end Sys2Proof.Machine
end

