-- ==== Sys2Proof/Machine/Ozper.lean ====
section
/-!
DEFINITION. Machine/Ozper.lean: the partner ring (16_ozper_ring.md): bypass, training, frames and their replay, the
capability exchange, mirroring, link losses, orphan sets, and the release of sealed slots (R24).
-/

namespace Sys2Proof.Machine

def modOzp (s : State) (f : Ozper → Ozper) : State := { s with ozp := f s.ozp }

def ozPort (s : State) (p : Nat) : OzPort := tget {} s.ozp.ports p

def modOz (s : State) (p : Nat) (f : OzPort → OzPort) : State := modOzp s fun z => { z with ports := tmod {} z.ports p f }

def ozStateF (p : Nat) : Fld := { OZP_PORT0_STATE with off := OZP_PORT0_STATE.off + 4 * p }
def ozVerF (p : Nat) : Fld := { OZP_PORT0_VER with off := OZP_PORT0_VER.off + 4 * p }
def ozWhyF (p : Nat) : Fld := { OZP_PORT0_WHY with off := OZP_PORT0_WHY.off + 4 * p }
def ozLastF (p : Nat) : Fld := { OZP_PORT0_LAST_STATE with off := OZP_PORT0_LAST_STATE.off + 4 * p }
def ozLanesF (p : Nat) : Fld := { OZP_PORT0_LANES with off := OZP_PORT0_LANES.off + 4 * p }

def ozState (s : State) (p : Nat) : Nat := fget s (ozStateF p)

/-- Is the link up, with or without mirror (R466)? -/
def ozUp (s : State) (p : Nat) : Bool := ozState s p == 3 || ozState s p == 4

/-- The RING section, when it declares a partner (R464). -/
def ringDeclared (s : State) : Option RingSec := (image s).ring.bind fun r => if r.partner = 1 then some r else none

/-! ## Bypass (R463) -/

/-- May both outputs be high? -/
def bypMay (s : State) : Bool :=
  (ringDeclared s).isSome && pdOn s 191 && pdOn s 192 && ozState s 0 != 6 && ozState s 1 != 6 &&
    (s.phase == .discovery || s.phase == .bringup || s.phase.inService)

/-- Drive BYP_HOLD as its conditions are; with the switches opened an idle port starts to train, with them closed a
training port is idle. -/
def bypUpdate (s : State) : State :=
  let up := bypMay s
  let s := fset s OZP_STATUS_BYP_HOLD (b2n up)
  if up then [0, 1].foldl (fun s p => if ozState s p = 1 then fset s (ozStateF p) 2 else s) s
  else [0, 1].foldl (fun s p => if ozState s p = 2 || ozState s p = 5 then fset s (ozStateF p) 1 else s) s

/-! ## Sending frames (R467, R468) -/

/-- Bytes of a frame with a payload. -/
def frameLen (payload : Nat) : Nat := 8 + payload + 4

/-- Does a frame find its place in the window and the replay buffer? -/
def ozRoom (x : OzPort) (len : Nat) : Bool :=
  x.unacked.length < 2048 && (x.unacked.map fun u => u.2.1).sum + len ≤ 524288

/-- Send a frame with the next LSEQ and keep it for replay. -/
def ozEmit (s : State) (p typ len : Nat) (payload : List Nat) (blocks : List (List Byte)) : State :=
  let x := ozPort s p
  let f : Out := .ozFrame p typ x.nextSeq x.rxSeq payload blocks
  emit (modOz s p fun x => { x with unacked := x.unacked ++ [(x.nextSeq, len, f)], nextSeq := (x.nextSeq + 1) % 4096 }) f

/-- Send the frames that wait while they find room. -/
def ozFlush : Nat → State → Nat → State
  | 0, s, _ => s
  | k + 1, s, p =>
    match (ozPort s p).waiting with
    | [] => s
    | (typ, len, payload, blocks) :: rest =>
      if ozRoom (ozPort s p) len then
        ozFlush k (ozEmit (modOz s p fun x => { x with waiting := rest }) p typ len payload blocks) p
      else s

/-- Send a frame, or let it wait behind those that wait. -/
def ozSend (s : State) (p typ bytes : Nat) (payload : List Nat) (blocks : List (List Byte) := []) : State :=
  let s := modOz s p fun x => { x with waiting := x.waiting ++ [(typ, frameLen bytes, payload, blocks)] }
  ozFlush (ozPort s p).waiting.length s p

/-- Slots of the second area not held by orphan copies. -/
def grantable (s : State) : Nat := secondSlots s - orphanCount s

/-- The CAP frame this device sends on a port. -/
def sendCap (s : State) (p : Nat) : State :=
  match ringDeclared s with
  | none => s
  | some r => ozSend s p 2 64
      [0x434F4158, r.versions, p, Config.otpUid.toNat, r.ringId, s.tb.boot,
        if p = 0 then fget s OZP_EPOCH_EPOCH else 0, if p = 0 then localSlots s else 0, if p = 1 then fget s OZP_IN_SLOTS else 0]

/-- A HEARTBEAT on a port: it repeats the last LSEQ and is not kept for replay. -/
def sendHeartbeat (s : State) (p : Nat) : State :=
  let x := ozPort s p
  let b0 := s.phase.code + b2n x.nak * 16 + b2n (x.leaving && fget s (ozVerF p) == 2) * 32
  emit (modOz s p fun x => { x with nak := false })
    (.ozFrame p 1 ((x.nextSeq + 4095) % 4096) x.rxSeq [b0, if p = 1 then fget s OZP_IN_SLOTS else 0, s.tb.ns] [])

/-- R470: what a v2 device sends before it lowers BYP_HOLD in a planned way. -/
def sendLeave (s : State) : State :=
  [0, 1].foldl (fun s p => if ozUp s p then sendHeartbeat (modOz s p fun x => { x with leaving := true }) p else s) s

/-! ## Training (R465) -/

/-- Can a port train at all? -/
def ozTrains (s : State) (p : Nat) : Bool := p < 2 && fget s OZP_STATUS_BYP_HOLD == 1 && pdOn s (191 + p) && pdPhase s (191 + p) == 0

/-- OZPER_TRAIN: an attempt ends; `lanes` are the lanes that passed. With all eight the link has flit lock and sends
its CAP; otherwise the attempt has failed as a whole. -/
def execOzperTrain (p lanes : Nat) (s : State) : Host.Outcome State Fault Refusal :=
  if !ozTrains s p || !(ozState s p == 1 || ozState s p == 2) || (ozPort s p).locked then .next s
  else
    let s := fset s (ozLanesF p) lanes
    if lanes % 256 = 255 then
      let s := modOz s p fun x => { lost := x.lost, peerState := x.peerState, locked := true, lastNs := s.tb.ns }
      .next (sendCap (fset s (ozStateF p) 2) p)
    else
      let s := fbump s OZP_CNT0_TRAIN_FAIL
      .next (fset (modOz s p fun x => { x with fails := x.fails + 1 }) (ozStateF p) 5)

/-- OZPER_TRAIN_RETRY: 100 ms after a failed attempt, or 1 s from the third in a row on, the port trains again. -/
def execOzperTrainRetry (p : Nat) (s : State) : Host.Outcome State Fault Refusal :=
  if ozTrains s p && ozState s p == 5 then .next (fset s (ozStateF p) 2) else .next s

/-! ## Link down (R466, R478) -/

/-- The link is declared down and goes back to training; R474 and R475 follow. -/
def linkDownOz (s : State) (p : Nat) : State :=
  if !ozUp s p && !(ozPort s p).locked then s
  else
    let x := ozPort s p
    let s := fset (fset (fbump s OZP_CNT0_LINK_DOWN) (ozLastF p) x.peerState) (ozVerF p) 0
    fset (modOz s p fun x => { peerState := x.peerState, lost := true }) (ozStateF p)
      (if fget s OZP_STATUS_BYP_HOLD = 1 then 2 else 1)

/-- OZPER_LINK_DOWN. -/
def execOzperLinkDown (p : Nat) (s : State) : Host.Outcome State Fault Refusal :=
  if p < 2 then .next (linkDownOz s p) else .next s

/-- OZPER_RETRAIN (R466): step 3 only; the link stays up when valid frames resume in time. -/
def execOzperRetrain (p : Nat) (resumes : Bool) (s : State) : Host.Outcome State Fault Refusal :=
  if p < 2 && ozUp s p && !resumes then .next (linkDownOz s p) else .next s

/-- BAD_FRAME (R468): a frame whose CRC is bad or that leaves a gap is discarded and NAK is owed; a malformed one is
counted, and the sixteenth within 1 ms takes the link down. -/
def execBadFrame (p : Nat) (malformed : Bool) (s : State) : Host.Outcome State Fault Refusal :=
  if 2 ≤ p || !(ozUp s p || (ozPort s p).locked) then .next s
  else if !malformed then .next (modOz s p fun x => { x with nak := true })
  else
    let s := fbump s OZP_CNT0_BAD_FRAME
    let s := modOz s p fun x => { x with bad := (x.bad.filter fun t => s.tb.ns < t + 1000000) ++ [s.tb.ns] }
    if (ozPort s p).bad.length < 16 then .next s
    else .next (raise (dmkSend (linkDownOz s p) 0x0A85 0) 0xA85)

/-! ## Receiving frames (R468) -/

/-- Frames an ACK covers leave the replay buffer. -/
def dropAcked (u : List (Nat × Nat × Out)) (ack : Nat) : List (Nat × Nat × Out) :=
  if u.any (·.1 == ack) then (u.dropWhile (·.1 != ack)).drop 1 else u

/-- A frame with an LSEQ of its own arrives: in order it is taken (the answer says so) and refreshes the link; out of
order it is discarded and NAK is owed. -/
def ozTake (s : State) (p : Nat) (h : OzHdr) : Bool × State :=
  if !(ozUp s p || (ozPort s p).locked) || 2 ≤ p then (false, s)
  else if h.lseq ≠ ((ozPort s p).rxSeq + 1) % 4096 then (false, modOz s p fun x => { x with nak := true })
  else
    let s := modOz s p fun x => { x with rxSeq := h.lseq, lastNs := s.tb.ns, unacked := dropAcked x.unacked h.ack }
    (true, ozFlush (ozPort s p).waiting.length s p)

/-- HEARTBEAT_SEND (R466): every 2 µs while the link is up. -/
def execHeartbeatSend (p : Nat) (s : State) : Host.Outcome State Fault Refusal :=
  if p < 2 && ozUp s p then .next (sendHeartbeat s p) else .next s

/-- HEARTBEAT (R466, R468, R470, R472, R478): NAK makes the sender resend what is not acknowledged, LEAVE (v2) takes the
link down, GRANT may raise OZP_OUT. -/
def execHeartbeat (p ack glbState grant : Nat) (nak leave : Bool) (s : State) : Host.Outcome State Fault Refusal :=
  if 2 ≤ p || !ozUp s p then .next s
  else
    let s := modOz s p fun x => { x with lastNs := s.tb.ns, peerState := glbState, unacked := dropAcked x.unacked ack }
    let s := if nak then
        (ozPort s p).unacked.foldl (fun s u => emit s u.2.2) (fbump s OZP_CNT0_REPLAY)
      else s
    let s := if p = 0 then fset s OZP_OUT_SLOTS (max (fget s OZP_OUT_SLOTS) grant) else s
    let s := ozFlush (ozPort s p).waiting.length s p
    .next (if leave && fget s (ozVerF p) == 2 then linkDownOz s p else s)

/-- CAP (R469, R472): the link is judged from both CAPs; its version, or why there is none, is shown. -/
def execCap (p : Nat) (h : OzHdr) (c : CapFrame) (s : State) : Host.Outcome State Fault Refusal :=
  let (ok, s) := ozTake s p h
  match ok, ringDeclared s with
  | true, some r =>
    let s := modOz s p fun x => { x with peer := some c, fails := 0 }
    let s := fset (fset s (Fld.mk (OZP_PEER0_LO_UID.off + 8 * p) 0 32) c.uid) (Fld.mk (OZP_PEER0_HI_UID.off + 8 * p) 0 32)
      (c.uid / 2 ^ 32)
    let common := fun (v : Nat) => c.versions / 2 ^ v % 2 == 1 && r.versions / 2 ^ v % 2 == 1
    let ver := if common 2 then 2 else if common 1 then 1 else 0
    let why := if ver = 0 then some 0 else if c.ringId ≠ r.ringId then some 1
      else if c.uid = Config.otpUid.toNat then some 2 else none
    match why with
    | some w => .next (raise (dmkSend (fset (fset (fset s (ozStateF p) 4) (ozVerF p) 0) (ozWhyF p) w) 0x0A84 0) 0xA84)
    | none =>
      let s := fset (fset s (ozStateF p) 3) (ozVerF p) ver
      .next (if p = 1 then fset s OZP_IN_SLOTS (min c.dirty (grantable s)) else fset s OZP_OUT_SLOTS c.grant)
  | _, _ => .next s

/-- CAP_RESEND (R469): every 100 ms until the exchange is complete. -/
def execCapResend (p : Nat) (s : State) : Host.Outcome State Fault Refusal :=
  if p < 2 && (ozPort s p).locked && !ozUp s p then .next (sendCap s p) else .next s

/-! ## Mirroring out (R471 to R473, R476) -/

/-- MIRROR_ENTER: an up link with mirror and no rewrite running: a new epoch; a PURGE goes first under v2. -/
def execMirrorEnter (s : State) : Host.Outcome State Fault Refusal :=
  if ozState s 0 ≠ 3 || fget s OZP_STATUS_MODE ≠ 3 then .next s
  else
    let e := (fget s OZP_EPOCH_EPOCH + 1) % 2 ^ 32
    let s := modOzp (fset (fset s OZP_EPOCH_EPOCH e) OZP_STATUS_MODE 1) fun z => { z with mid := 0, awaits := [] }
    let s := if fget s (ozVerF 0) = 2 then ozSend s 0 6 16 [Config.otpUid.toNat, s.tb.boot, e] else s
    .next (recomputeFloors (setReduction (dmkSend s 0x0A86 e) 1 false))

/-- Send the MIRROR frame of what a write stored in slot `i`: `sent` its blocks, or the units of a compressed slot. -/
def sendMirror (s : State) (i sent seq : Nat) : State :=
  let x := getSlot s i
  let mid := s.ozp.mid
  let bs := (List.range 4).filter fun b => sent / 2 ^ b % 2 == 1
  let s := modOzp s fun z => { z with mid := z.mid + 1, awaits := z.awaits ++ [(mid, i)] }
  let s := modSlot s i fun x => { x with mids := x.mids ++ [mid], acked := false }
  let s := match getCmd s seq with
    | some c => putCmd s seq { c with mids := c.mids ++ [mid] }
    | none => s
  ozSend s 0 3 (72 + 4096 * bs.length)
    [mid, sent, i, x.mask, x.clen, x.id.tenant, x.id.ns, x.gen, x.id.incarn, x.id.gran, x.tags.getD 0 0, x.tags.getD 1 0,
      x.tags.getD 2 0, x.tags.getD 3 0, fget s OZP_EPOCH_EPOCH]
    (bs.map fun b => leBytes (if x.clen = 0 then x.blocks.getD b 0 else Config.compressUnit x.blocks (4 - x.clen) b) 4096)

/-- A write whose copies are all written has ended (R23). -/
def endIfCopied (s : State) (seq : Nat) : State :=
  match getCmd s seq with
  | some c => if c.applied && c.mids.isEmpty then setDone s seq 0 else s
  | none => s

/-- Change every command in flight. -/
def mapCmds (s : State) (f : Cmd → Cmd) : State := { s with cmds := s.cmds.map fun e => (e.1, f e.2) }

/-- The MACK of one MIRROR frame. -/
def mackOne (s : State) (mid : Nat) : State :=
  match s.ozp.awaits.find? (·.1 == mid) with
  | none => s
  | some (_, i) =>
    let s := modOzp s fun z => { z with awaits := z.awaits.filter (·.1 != mid) }
    let s := modSlot s i fun x =>
      let left := x.mids.filter (· != mid)
      { x with mids := left, acked := left.isEmpty }
    let s := mapCmds s fun c => { c with mids := c.mids.filter (· != mid) }
    s.cmds.foldl (fun s e => endIfCopied s e.1) s

/-- MACK (R471): the copies named are on the partner. -/
def execMack (h : OzHdr) (base bits : Nat) (s : State) : Host.Outcome State Fault Refusal :=
  let (ok, s) := ozTake s 0 h
  if ok && ozState s 0 == 3 && fget s OZP_STATUS_MODE == 1 then
    .next ((List.range 64).foldl (fun s i => if bits / 2 ^ i % 2 = 1 then mackOne s (base + i) else s) s)
  else .next s

/-- Unreleased granules of this epoch (R472, OZP_OUT_USED). -/
def unreleased (s : State) : Nat := s.udc.slots.countP fun e => e.2.state != 0 && !e.2.local2

/-- Send RELEASE frames for slots, at most 512 in each (R473). `fuel` bounds the number of frames. -/
def sendRelease : Nat → State → List Nat → State
  | 0, s, _ => s
  | k + 1, s, l =>
    if l.isEmpty then s
    else
      let now := l.take 512
      sendRelease k (ozSend s 0 5 (8 + 4 * now.length) (now.length :: now)) (l.drop 512)

/-- Free slots; those that the partner holds are named in a RELEASE. -/
def releaseSlots (s : State) (is : List Nat) : State :=
  let mirrored := is.filter fun i => (getSlot s i).acked || !(getSlot s i).mids.isEmpty
  let s := is.foldl freeSlot s
  if fget s OZP_STATUS_MODE = 1 then sendRelease (mirrored.length + 1) s mirrored else s

/-- MIRROR_RELEASE (R24, R266, R473): the slots of the next sealed and mapped stripe. -/
def execMirrorRelease (s : State) : Host.Outcome State Fault Refusal :=
  match s.udc.releaseReady with
  | [] => .next s
  | (_, is) :: rest => .next (releaseSlots (modUdc s fun u => { u with releaseReady := rest }) is)

/-! ## Mirroring in -/

/-- R264 on a mirror-in slot: a block is stored only when the frame's tag is above the tag held. -/
def mirrorStore (old : MirrorCopy) (m : MirrorMsg) : MirrorCopy :=
  let bs := (List.range 4).filter fun b => m.sent / 2 ^ b % 2 == 1
  let hdr : MirrorCopy := { old with
    mask := m.mask, clen := m.clen, gen := m.gen, epoch := m.epoch
    id := { tenant := m.tenant, ns := m.ns, incarn := m.incarn, gran := m.gran } }
  bs.zipIdx.foldl (fun c (b, i) =>
    if c.tags.getD b 0 < m.tags.getD b 0 then
      { c with blocks := setAt c.blocks b (m.blocks.getD i 0), tags := setAt c.tags b (m.tags.getD b 0) }
    else c) hdr

/-- OZP_IN_USED. -/
def showIn (s : State) : State := fset s OZP_IN_USED_SLOTS s.ozp.inMap.length

/-- MIRROR (R471): the blocks go into the mirror-in slot of the sender's slot, and a MACK answers. -/
def execMirror (h : OzHdr) (m : MirrorMsg) (s : State) : Host.Outcome State Fault Refusal :=
  let (ok, s) := ozTake s 1 h
  if ok && ozState s 1 == 3 then
    let s := modOzp s fun z => { z with inMap := tset {} z.inMap m.slot (mirrorStore (tget {} z.inMap m.slot) m) }
    .next (ozSend (showIn s) 1 4 16 [m.mid, 1])
  else .next s

/-- RELEASE (R473): the named slots are free. -/
def execRelease (h : OzHdr) (slots : List Nat) (s : State) : Host.Outcome State Fault Refusal :=
  let (ok, s) := ozTake s 1 h
  if ok && ozState s 1 == 3 then
    .next (showIn (modOzp s fun z => { z with inMap := z.inMap.filter fun e => !slots.contains e.1 }))
  else .next s

/-! ## Orphan sets (R475 to R477) -/

/-- OZP_STATUS.SETS, OZP_ORPHAN; GRANT follows the slots orphans free, and never falls (R472). -/
def showOrphans (s : State) : State :=
  let s := fset (fset s OZP_STATUS_SETS s.ozp.orphans.length) OZP_ORPHAN_RECORDS (orphanCount s)
  if ozState s 1 = 3 then
    match (ozPort s 1).peer with
    | some c => fset s OZP_IN_SLOTS (max (fget s OZP_IN_SLOTS) (min c.dirty (grantable s)))
    | none => s
  else s

/-- Release the sets `p` selects, recording `code` for each. -/
def releaseSets (s : State) (p : OrphanSet → Bool) (code : Nat) : State :=
  let n := s.ozp.orphans.countP p
  let s := modOzp s fun z => { z with orphans := z.orphans.filter fun o => !p o }
  showOrphans ((List.range n).foldl (fun s _ => dmkSend s code 0) s)

/-- PURGE (R476, v2): sets of the sender and boot count with an older epoch are released, as are mirror-in copies. -/
def execPurge (h : OzHdr) (uid boot below : Nat) (s : State) : Host.Outcome State Fault Refusal :=
  let (ok, s) := ozTake s 1 h
  if !ok then .next s
  else if fget s (ozVerF 1) ≠ 2 then execBadFrame 1 true s
  else
    let s := modOzp s fun z => { z with inMap := z.inMap.filter fun e => below ≤ e.2.epoch }
    .next (releaseSets (showIn s) (fun o => o.uid == uid && o.boot == boot && o.epoch < below) 0x0A83)

/-- WEST_LINK_LOSS (R475): every mirror-in copy of the link becomes an orphan set; a fifth set releases the oldest. -/
def execWestLinkLoss (s : State) : Host.Outcome State Fault Refusal :=
  if !(ozPort s 1).lost then .next s
  else
    let s := modOz s 1 fun x => { x with lost := false }
    let peer := fget s OZP_PEER1_LO_UID + fget s OZP_PEER1_HI_UID * 2 ^ 32
    let rs := s.ozp.inMap
    let o : OrphanSet :=
      { uid := peer, boot := (match (ozPort s 1).peer with | some c => c.boot | none => 0),
        epoch := (rs.map fun e => e.2.epoch).foldl max 0, formed := s.tb.ns, hold := fget s OZP_HOLD_ORPHAN_HOLD, records := rs }
    let s := if 4 ≤ s.ozp.orphans.length then
        dmkSend (modOzp s fun z => { z with orphans := z.orphans.drop 1 }) 0x0A83 0
      else s
    let s := modOzp s fun z => { z with orphans := z.orphans ++ [o], inMap := [] }
    .next (raise (dmkSend (showIn (showOrphans s)) 0x0A81 0) 0xA81)

/-- ORPHAN_HOLD_EXPIRY (R475). -/
def execOrphanHoldExpiry (s : State) : Host.Outcome State Fault Refusal :=
  match s.ozp.orphans with
  | [] => .next s
  | o :: rest =>
    if o.formed + o.hold * 1000000000 ≤ s.tb.ns then
      .next (dmkSend (showOrphans (modOzp s fun z => { z with orphans := rest })) 0x0A87 0)
    else .next s

/-- The 64-byte mirror header of a record (Table 16-5). -/
def mirrorHeader (slot : Nat) (m : MirrorCopy) : List Byte :=
  leBytes (slot % 2 ^ 21 + m.mask % 16 * 2 ^ 24 + m.clen % 4 * 2 ^ 28) 4 ++
    leBytes (m.id.tenant % 1024 + m.id.ns % 16 * 1024) 2 ++ leBytes (m.gen % 4096) 2 ++ leBytes m.id.incarn 4 ++
    leBytes 0 4 ++ leBytes m.id.gran 8 ++ (List.range 4).flatMap (fun i => leBytes (m.tags.getD i 0) 8) ++ leBytes 0 8 ++
    leBytes m.epoch 4 ++ leBytes 0 4

/-- The bytes of one orphan set (R477). -/
def orphanBytes (o : OrphanSet) : List Byte :=
  leBytes 0x524F4158 4 ++ leBytes o.records.length 4 ++ leBytes o.uid 8 ++ leBytes o.boot 4 ++ leBytes o.epoch 4 ++
    leBytes o.formed 8 ++ leBytes 0 32 ++
    o.records.flatMap fun e => mirrorHeader e.1 e.2 ++ (List.range 4).flatMap fun b => leBytes (e.2.blocks.getD b 0) 4096

/-- The orphan image, oldest set first. -/
def orphanImage (s : State) : List Byte := s.ozp.orphans.flatMap orphanBytes

/-- ORPHAN_READ (R477). -/
def execOrphanRead (seq : Nat) (s : State) : Host.Outcome State Fault Refusal :=
  match adminCmd s seq 0x58 with
  | none => .next s
  | some c =>
    let off := c.sqe.cdw0 % 2 ^ 32 + c.sqe.cdw1 * 2 ^ 32
    let n := c.sqe.buf0Len
    if n = 0 || n % 4 ≠ 0 || 1048576 < n || off % 4 ≠ 0 then .next (setDone s seq 0x010A)
    else
      let bs := ((orphanImage s).drop off).take n
      .next (setDone (hostPut s c.fid c.sqe.buf0 bs) seq 0 (some bs.length))

/-- ORPHAN_RELEASE (R475): every set is released. -/
def execOrphanRelease (seq : Nat) (s : State) : Host.Outcome State Fault Refusal :=
  match adminCmd s seq 0x59 with
  | none => .next s
  | some _ => .next (setDone (releaseSets s (fun _ => true) 0x0A83) seq 0)

/-! ## Losing the east link (R474) -/

/-- EAST_LINK_LOSS: single-device mode: writes that wait for a MACK take a second local copy and end; the rewrite of
the acknowledged ones begins; reduction 1, source 0xA80. -/
def execEastLinkLoss (s : State) : Host.Outcome State Fault Refusal :=
  if fget s OZP_STATUS_MODE ≠ 1 || ozState s 0 == 3 then .next s
  else
    let s := modOz (fset s OZP_STATUS_MODE 2) 0 fun x => { x with lost := false }
    let s := modOzp s fun z => { z with awaits := [] }
    let s := modUdc s fun u => { u with slots := u.slots.map fun (i, x) =>
      (i, if x.mids.isEmpty then x else { x with mids := [], local2 := true, acked := false }) }
    let s := mapCmds s fun c => { c with mids := [] }
    let s := s.cmds.foldl (fun s e => endIfCopied s e.1) s
    .next (raise (dmkSend (recomputeFloors (setReduction s 1 true)) 0x0A80 0) 0xA80)

/-- REWRITE_END (R474): the second local copies count as the granules' second copies. -/
def execRewriteEnd (s : State) : Host.Outcome State Fault Refusal :=
  if fget s OZP_STATUS_MODE ≠ 2 then .next s
  else
    .next (modUdc (fset s OZP_STATUS_MODE 3) fun u => { u with slots := u.slots.map fun (i, x) =>
      (i, if x.acked then { x with acked := false, local2 := true } else x) })

/-- R466, Table 16-7: an Ozper port is retired: both bypass outputs go low. -/
def ozpRetire (s : State) (p : Nat) : State :=
  let s := linkDownOz s p
  let s := retireUnit (fset s (ozStateF p) 6) (.ozper p)
  dmkSend (fset s OZP_STATUS_BYP_HOLD 0) 0x0A82 0

end Sys2Proof.Machine
end

