-- ==== Sys2Proof/Machine/Admission.lean ====
section
/-!
DEFINITION. Machine/Admission.lean: the checks of fetched submission entries, their journal entries, the dispatch of
commands to flows, and the end of a command (05_queues_and_journal.md R140 to R165; R196; R265).
-/

namespace Sys2Proof.Machine

/-! ## Namespace readiness (R90) -/

/-- Has an HDA its heads loaded, or have its actuators left service? -/
def headsUp (s : State) (h : Nat) : Bool :=
  [0, 1].all fun d =>
    let st := fget s (SRV_ACT_STATE.ix (2 * h + d) 0x1000)
    (5 ≤ st && st ≤ 8) || st == 11

/-- HDAs that hold stripes of the disk medium: the members of the geometry in force and of the segments in use. -/
def diskHolders (s : State) : List Nat :=
  maskBits 16 (fget s UDC_DMEMB_MEMB) ++ (s.udc.segs.filter fun e => e.1 % 2 == 1).flatMap fun e => e.2.members

/-- Is a pool's medium ready to serve? -/
def poolReady (s : State) (pool : Nat) : Bool :=
  s.phase.inService && !s.udc.poolDown.contains pool &&
    (pool == 0 || (diskHolders s).all fun h => isRetired s (.hda h) || headsUp s h)

/-! ## Checks of I/O entries (R130 to R133, R140 to R145, R153) -/

/-- An opcode that names a Skim flow (R145). -/
def isSkim (o : Nat) : Bool := 0xC0 ≤ o

/-- Order 2 for I/O queues. -/
def ioDefined (o : Nat) (v2 : Bool) : Bool := isSkim o || [0, 1, 2, 8, 9, 0xC].contains o || (o == 0x20 && v2)

end Sys2Proof.Machine

namespace Sys2Proof

/-- A v1 entry carries no v2 field. -/
def Sqe.asV1 (e : Sqe) : Sqe :=
  { e with buf0Len := 0, buf1Len := 0, buf1 := 0, qos := 0, pushIdx := 0, itag := 0 }

/-- ITAG_CHK and LIST of FLAGS (R130). -/
def Sqe.itagChk (e : Sqe) : Bool := e.flags / 2 % 2 == 1
def Sqe.list (e : Sqe) : Bool := e.flags % 2 == 1

/-- The host segments of a command's transfer. -/
def Sqe.hostSegs (e : Sqe) : List (Nat × Nat) :=
  let total := (e.nlb + 1) * 4096
  if e.list then (e.segs.take 256).map fun g => (g.addr, g.len)
  else if e.buf0Len = 0 && e.buf1Len = 0 then [(e.buf0, total)]
  else [(e.buf0, e.buf0Len), (e.buf1, e.buf1Len)]

end Sys2Proof

namespace Sys2Proof.Machine

/-- Order 4: some reserved field is nonzero or some encoding reserved. -/
def ioReserved (e : Sqe) (v2 : Bool) : Bool :=
  if isSkim e.opc then decide (16 ≤ e.nsid)
  else
    e.rsv != 0 || decide (16 ≤ e.nsid) || decide (4 ≤ e.flags % 128) || (!v2 && e.itagChk) ||
      (if e.opc = 0 then e.slba != 0 || e.nlb != 0 || decide (2 ≤ e.cdw) else e.cdw != 0) ||
      (v2 && (decide (16 ≤ e.pushIdx) ||
        (if e.itagChk then !([1, 2, 0xC, 0x20].contains e.opc) else e.itag != 0)))

/-- Commands with a host data buffer. -/
def hasBuffer (o : Nat) : Bool := o == 1 || o == 2

/-- R133: do the segments, in order, reach exactly `left` bytes? -/
def segsReach : Nat → List Seg → Bool
  | left, [] => left == 0
  | left, g :: gs =>
    left == 0 || (g.rsv == 0 && g.len != 0 && g.len % 4 == 0 && g.addr % 4 == 0 && g.len ≤ left && segsReach (left - g.len) gs)

/-- Order 12. -/
def buffersOk (e : Sqe) : Bool :=
  let none_ := e.buf0Len == 0 && e.buf1Len == 0 && e.buf1 == 0
  let total := (e.nlb + 1) * 4096
  if e.opc = 0x20 then
    !e.list && e.buf1 == 0 && e.buf1Len == 0 && e.buf0 % 4 == 0 && e.buf0Len % 4 == 0 &&
      e.nlb * 4096 < e.buf0Len && e.buf0Len ≤ total
  else if hasBuffer e.opc then
    if e.list then none_ && e.buf0 % 16 == 0 && segsReach total (e.segs.take 256)
    else if e.buf0Len = 0 && e.buf1Len = 0 then e.buf1 == 0 && e.buf0 % 4 == 0
    else e.buf0Len + e.buf1Len == total && e.buf0 % 4 == 0 && e.buf1 % 4 == 0 && e.buf0Len % 4 == 0 &&
      e.buf1Len % 4 == 0 && (e.buf1Len != 0 || e.buf1 == 0)
  else !e.list && none_ && e.buf0 == 0

/-- R144: a grant that holds offset and length. -/
def grantHolds (s : State) (t : Nat) (e : Sqe) : Bool :=
  let g := tget {} (getTen s t).grants e.pushIdx
  g.len != 0 && e.buf0 + e.buf0Len ≤ g.len

/-- Count limit of Table 05-5. -/
def countLimit (o : Nat) (size : Nat) : Nat := if o = 8 || o = 9 then size else if o = 0x20 then 16384 else 1024

/-- Orders 10 to 13: the checks against the namespace that Skim flows do not take. -/
def rangeStatus (s : State) (t : Nat) (e : Sqe) (ns : NsRec) : Nat :=
  if e.opc ≠ 0 && ns.size < e.slba + e.nlb + 1 then 0x0103
  else if e.opc ≠ 0 && countLimit e.opc ns.size < e.nlb + 1 then 0x0108
  else if !buffersOk e then 0x010A
  else if e.opc = 0x20 && !grantHolds s t e then 0x0303
  else 0

/-- R153: the status of the first check of an I/O entry that fails, 0 when all pass. -/
def ioStatus (s : State) (t : Nat) (e : Sqe) (v2 : Bool) : Nat :=
  if !ioDefined e.opc v2 then 0x0101
  else if isSkim e.opc && (skimEntry s e.opc).isNone then 0x0106
  else if ioReserved e v2 then 0x0102
  else if tenState s t = 0 || tenState s t = 3 || (getTen s t).dying then 0x0301
  else match getNs s t e.nsid with
    | none => 0x0105
    | some ns =>
      if tenState s t ≠ 2 || (getTen s t).unloading then 0x0302
      else if !poolReady s ns.pool then 0x0104
      else if isSkim e.opc then 0
      else rangeStatus s t e ns

/-! ## Checks of admin entries (R146 to R153) -/

/-- An admin command of Table 05-7: who may give it (0 tenant, 1 control PF, 2 both), its TARGET (0 pair, 1 tenant, 2
tenant or all, 3 zero), the bits of CDW0 to CDW3 it uses, and whether it uses BUF0, BUF0_LEN, BUF1, BUF1_LEN. -/
structure AdminRow where
  who    : Nat
  target : Nat
  masks  : List Nat := [0, 0, 0, 0]
  bufs   : List Bool := [false, false, false, false]
  deriving DecidableEq, Repr

def all32 : Nat := 0xFFFFFFFF

/-- Table 05-7. -/
def adminRow (o : Nat) : Option AdminRow :=
  let buf := [true, true, false, false]
  match o with
  | 0x01 => some { who := 0, target := 0, masks := [0x7FF, 0, 0, 0], bufs := [true, false, true, false] }
  | 0x02 => some { who := 0, target := 0 }
  | 0x04 => some { who := 2, target := 1, masks := [0xFFF, 0, 0, 0], bufs := buf }
  | 0x05 => some { who := 2, target := 1, masks := [0xFF, 0, 0, 0], bufs := buf }
  | 0x09 => some { who := 2, target := 2, masks := [all32, all32, 0x3F, 0], bufs := buf }
  | 0x40 => some { who := 1, target := 1 }
  | 0x41 => some { who := 1, target := 1 }
  | 0x42 => some { who := 1, target := 1, bufs := buf }
  | 0x43 => some { who := 1, target := 1 }
  | 0x44 => some { who := 1, target := 1, masks := [0x7F, 0, all32, all32] }
  | 0x45 => some { who := 1, target := 1, masks := [0xF, 0, 0, 0] }
  | 0x48 => some { who := 1, target := 1, bufs := buf }
  | 0x49 => some { who := 1, target := 1 }
  | 0x4A => some { who := 1, target := 1, masks := [0x17F, 0, 0, 0], bufs := [false, false, true, true] }
  | 0x4B => some { who := 1, target := 1, masks := [0xF, 0, 0, 0] }
  | 0x50 => some { who := 1, target := 3, bufs := buf }
  | 0x58 => some { who := 1, target := 3, masks := [all32, all32, 0, 0], bufs := buf }
  | 0x59 => some { who := 1, target := 3 }
  | 0x5C => some { who := 1, target := 3, bufs := buf }
  | _ => none

/-- Reserved encodings of CDW0. -/
def adminEncodingBad (e : Sqe) : Bool :=
  match e.opc with
  | 0x01 => e.cdw0 % 16 < 4 || 12 < e.cdw0 % 16 || e.cdw0 / 32 % 4 == 3
  | 0x04 => 3 ≤ e.cdw0 % 256
  | 0x05 => e.cdw0 % 256 != 1 && e.cdw0 % 256 != 2
  | 0x44 => e.cdw0 / 16 % 4 == 3
  | 0x4A => 6 ≤ e.cdw0 / 16 % 8
  | _ => false

/-- Order 4 for admin entries. -/
def adminReserved (e : Sqe) (r : AdminRow) : Bool :=
  let extra := fun (v m : Nat) => v &&& m != v
  let unused := fun (i v : Nat) => !r.bufs.getD i false && v != 0
  e.flags % 128 != 0 || e.rsv != 0 || extra e.cdw0 (r.masks.getD 0 0) || extra e.cdw1 (r.masks.getD 1 0) ||
    extra e.cdw2 (r.masks.getD 2 0) || extra e.cdw3 (r.masks.getD 3 0) || unused 0 e.buf0 || unused 1 e.buf0Len ||
    unused 2 e.buf1 || unused 3 e.buf1Len || adminEncodingBad e

/-- Order 5. -/
def targetOk (ctl : Bool) (r : AdminRow) (t : Nat) : Bool :=
  match r.target with
  | 0 => 1 ≤ t && t ≤ 8
  | 1 => if ctl then t ≤ 511 else t == 0
  | 2 => if ctl then t ≤ 511 || t == 0x3FF else t == 0
  | _ => t == 0

/-- Order 12: alignment and the length rules the queue chapter gives. -/
def adminBuffersOk (e : Sqe) : Bool :=
  e.buf0 % 4 == 0 && e.buf1 % 4 == 0 && e.buf0Len % 4 == 0 && e.buf1Len % 4 == 0 &&
    (match e.opc with
      | 0x01 => e.buf0 % 4096 == 0 && e.buf1 % 4096 == 0
      | 0x04 => e.buf0Len == 4096
      | 0x05 => e.buf0Len % 32 == 0 && e.buf0Len ≤ 4096
      | 0x09 => e.buf0Len % 32 == 0 && 0 < e.buf0Len && e.buf0Len ≤ 1048576
      | _ => true)

/-- R153 for admin entries. -/
def adminStatus (ctl : Bool) (e : Sqe) : Nat :=
  match adminRow e.opc with
  | none => 0x0101
  | some r =>
    if r.who = (if ctl then 0 else 1) then 0x0101
    else if adminReserved e r then 0x0102
    else if !targetOk ctl r e.target then 0x010C
    else if !adminBuffersOk e then 0x010A
    else 0

/-! ## Acceptance (R137, R155, R162) -/

/-- R137: the entries of a fetch before the first stale one. -/
def freshPrefix (phase : Bool) (es : List Sqe) : List Sqe := es.takeWhile fun e => (e.flags / 128 % 2 == 1) == phase

/-- Journal fields of an entry (R163). -/
def jrnOf (t q : Nat) (admin : Bool) (e : Sqe) (status : Nat) : JrnEntry :=
  { tenant := t, queue := q, state := if status = 0 then 1 else 3, cid := e.cid, opc := e.opc, nsid := e.nsid % 16
    status := status, slba := if admin then e.cdw0 % 2 ^ 32 + e.cdw1 % 2 ^ 32 * 2 ^ 32 else e.slba
    nlb := if admin then e.cdw2 else e.nlb }

/-- R183: a control command that names the tenant is accepted and has not taken effect. -/
def controlPending (s : State) (t : Nat) : Bool :=
  s.cmds.any fun e => e.2.admin && e.2.tenant == 0x3FF && 0x40 ≤ e.2.sqe.opc && e.2.sqe.opc ≤ 0x4B &&
    e.2.sqe.target == t && e.2.done.isNone && e.2.stage == 0

/-- Accept one entry at ring index `i`: its SEQ, its checks, its journal entry; a failed one gets its completion at
once. None while the journal has no room or a control command of the tenant must take effect first. -/
def acceptOne (s : State) (fid q i : Nat) (e : Sqe) : Option State :=
  let t := tenantOf s fid
  let p := getQp s fid q
  let admin := q == 0
  if !jrnRoom s || !s.jrn.waiting.isEmpty || (!admin && controlPending s t) then none
  else
    let e := if admin || p.v2 then e else e.asV1
    let status := if admin then adminStatus (fid == ctlFid s) e else ioStatus s t e p.v2
    let seq := s.jrn.next
    let s := jrnPut s (jrnOf t q admin e status)
    let c : Cmd := { fid := fid, q := q, index := i, tenant := t, sqe := e, admin := admin, v2 := p.v2
                     cls := if e.qos = 0 then p.qos else e.qos - 1, result := seq % 2 ^ 32
                     done := if status = 0 then none else some status }
    let s := if !admin && e.list then hostGet s fid e.buf0 (16 * e.segs.length) else s
    if status ≠ 0 && (getFn s fid).live then some (finishCmd s seq c status) else some (putCmd s seq c)

/-- Accept the entries of a fetch in order, from ring index `i`. -/
def acceptAll (s : State) (fid q i : Nat) : List Sqe → Option State
  | [] => some s
  | e :: es => (acceptOne s fid q i e).bind fun s => acceptAll s fid q ((getQp s fid q).adv i 1) es

/-- SQE_FETCHED: the entries a fetch brought are accepted up to the first with a stale PHASE, which waits with those
after it for the next doorbell. -/
def execSqeFetched (fid q : Nat) (entries : List Sqe) (s : State) : Host.Outcome State Fault Refusal :=
  let p := getQp s fid q
  if p.fetching = 0 || entries.length ≠ p.fetching || p.mode ≠ 2 then .next s
  else
    let good := freshPrefix p.sqPhase entries
    let held := modQp s fid q fun p =>
      { p.skip good.length with
        out := p.out + good.length, fetching := 0, stale := p.stale || decide (good.length < entries.length) }
    match acceptAll held fid q p.sqHead good with
    | none => .next s
    | some s => .next s

/-! ## Granules and slots of a command (Table 01-11) -/

/-- First and last granule of the range. -/
def Cmd.g0 (c : Cmd) : Nat := c.sqe.slba / 4
def Cmd.g1 (c : Cmd) : Nat := (c.sqe.slba + c.sqe.nlb) / 4

/-- Is block `b` of granule `g` in the range? -/
def Cmd.covers (c : Cmd) (g b : Nat) : Bool := c.sqe.slba ≤ 4 * g + b && 4 * g + b ≤ c.sqe.slba + c.sqe.nlb

/-- Does the range hold all four blocks of the granule? -/
def Cmd.whole (c : Cmd) (g : Nat) : Bool := c.covers g 0 && c.covers g 3

/-- Slots Admission reserves: one for each granule of a WRITE, and for the partial ones of WRITE_ZEROES and DEALLOCATE. -/
def Cmd.slotNeed (c : Cmd) : Nat :=
  if c.sqe.opc = 1 then c.g1 - c.g0 + 1
  else if c.sqe.opc = 8 || c.sqe.opc = 9 then
    b2n (!c.whole c.g0) + b2n (c.g1 != c.g0 && !c.whole c.g1)
  else 0

/-- Room for `k` more second copies: mirror slots the partner grants, or the second area in single-device mode. -/
def copyRoom (s : State) (k : Nat) : Bool :=
  if fget s OZP_STATUS_MODE = 1 then unreleased s + k ≤ fget s OZP_OUT_SLOTS
  else (s.udc.slots.countP fun e => e.2.state != 0) + s.ozp.inMap.length + orphanCount s + k ≤ secondSlots s

/-- The namespace's pool and whether it compresses. -/
def cmdNs (s : State) (c : Cmd) : NsRec :=
  (((getTenNv s c.tenant).ns.find? (·.1 == c.sqe.nsid)).map (·.2)).getD {}

/-- R249, R280: the status with which a change to a pool ends while a medium it uses takes no new segments or is full;
every pool uses the flash medium. -/
def changeBar (s : State) (pool : Nat) : Nat :=
  if fget s UDC_STATUS_FLASH_RO = 1 || (pool != 0 && fget s UDC_STATUS_DISK_RO == 1) then 0x0202
  else if fget s UDC_STATUS_FLASH_FULL = 1 || (pool != 0 && fget s UDC_STATUS_DISK_FULL == 1) then 0x0204
  else 0

/-- May a data-changing command's slots be reserved now (R255, R265, R277, R288, R472)? -/
def changeRoom (s : State) (c : Cmd) : Bool :=
  let pool := (cmdNs s c).pool
  let k := c.slotNeed
  changeBar s pool != 0 || slotsRoom s k && copyRoom s k && !urgent s false && (pool == 0 || !urgent s true) && !logFull s &&
    (pool == 0 || ovrUsed s + (c.g1 - c.g0 + 1) ≤ ovrSize s)

/-! ## Dispatch (R188, R196) -/

/-- Is the command first of its pair's undispatched ones (R189, R265)? -/
def headOfSq (s : State) (seq : Nat) (c : Cmd) : Bool :=
  !(s.cmds.any fun e => e.1 < seq && e.2.fid == c.fid && e.2.q == c.q && e.2.bound.isNone && e.2.done.isNone)

/-- Could the command be dispatched now, a free context granted? -/
def dispatchable (s : State) (seq : Nat) (c : Cmd) : Bool :=
  !c.admin && c.done.isNone && c.bound.isNone && headOfSq s seq c && (getFn s c.fid).live &&
    (if isSkim c.sqe.opc then (s.trw.install).isNone else !c.changes || changeRoom s c)

/-- When its class fell behind its floor, with the tie order of R188. -/
def cmdUrgency (s : State) (c : Cmd) : Option (Nat × Nat × Nat) :=
  (chargedClass s c.tenant c.cls).bind fun k =>
    (behindSince s c.tenant k.1 c.writes).map fun t => (t, c.tenant, k.1)

/-- R188: the first is served before the second. -/
def urgentBefore : Option (Nat × Nat × Nat) → Option (Nat × Nat × Nat) → Bool
  | some _, none => true
  | some (a, b, c), some (x, y, z) => decide (a < x) || (a == x && (decide (b < y) || (b == y && decide (c < z))))
  | none, _ => false

/-- Is another command of a class that must be served first waiting? -/
def outranked (s : State) (c : Cmd) : Bool :=
  s.cmds.any fun e => dispatchable s e.1 e.2 && urgentBefore (cmdUrgency s e.2) (cmdUrgency s c)

/-- Bind a command to a context and reserve its slots. -/
def dispatch (s : State) (seq : Nat) (c : Cmd) : State :=
  match pickContext s with
  | none => s
  | some (t, x) =>
    let (is, s) := reserveSlots s seq c.slotNeed
    let c := { c with bound := some (t, x), slots := is }
    startFlow (putCmd s seq c) (ctxKey t x) seq c

/-- FLOW_DISPATCH: while every context is busy, or its slots cannot be reserved, the command waits; a change that its
media bar ends at once. -/
def execFlowDispatch (seq : Nat) (s : State) : Host.Outcome State Fault Refusal :=
  match getCmd s seq with
  | none => .next s
  | some c =>
    if isSkim c.sqe.opc || !dispatchable s seq c || outranked s c then .next s
    else if c.changes && changeBar s (cmdNs s c).pool ≠ 0 then .next (setDone s seq (changeBar s (cmdNs s c).pool))
    else .next (dispatch s seq c)

/-- OPERATOR_OPCODE (R145): the command runs the Skim flow bound to its opcode; while none is bound it ends with 0x0106;
during a SKIM_INSTALL it waits (R211). -/
def execOperatorOpcode (seq : Nat) (s : State) : Host.Outcome State Fault Refusal :=
  match getCmd s seq with
  | none => .next s
  | some c =>
    if !isSkim c.sqe.opc || !dispatchable s seq c then .next s
    else if (skimEntry s c.sqe.opc).isNone then .next (setDone s seq 0x0106)
    else if outranked s c then .next s
    else .next (dispatch s seq c)

/-! ## The end of a command (R135, R158, R164) -/

/-- Free the slots a command reserved and did not use. -/
def freeReserved (s : State) (seq : Nat) (c : Cmd) : State :=
  c.slots.foldl (fun s i => if (getSlot s i).state = 1 && (getSlot s i).owner = seq + 1 then freeSlot s i else s) s

/-- COMMAND_COMPLETE: the journal entry of a command that has ended becomes final and its completion is posted; a
settled command ends without one. -/
def execCommandComplete (seq : Nat) (s : State) : Host.Outcome State Fault Refusal :=
  match getCmd s seq with
  | none => .next s
  | some c =>
    match c.done with
    | none => .next s
    | some status =>
      if !(c.noCqe || (getFn s c.fid).live) then .next s
      else
        let s := modUdc (freeReserved (freeBound s c) seq c) fun u => { u with undo := tset {} u.undo seq {} }
        .next (finishCmd s seq c status)

end Sys2Proof.Machine
end

