-- ==== Sys2Proof/Machine/HostIo.lean ====
section
/-!
DEFINITION. Machine/HostIo.lean: the I/O commands that read and change blocks (R141 to R143, R155 to R157, R257 to
R264). The spans they work on are shared with the vendor services.
-/

namespace Sys2Proof.Machine

/-! ## Order between commands (R155, R156) -/

/-- Do two commands touch a common block? -/
def Cmd.overlaps (c d : Cmd) : Bool :=
  c.tenant == d.tenant && c.sqe.nsid == d.sqe.nsid && c.sqe.slba ≤ d.sqe.slba + d.sqe.nlb && d.sqe.slba ≤ c.sqe.slba + c.sqe.nlb

/-- READ, VERIFY or PUSH. -/
def Cmd.reads (c : Cmd) : Bool := !c.admin && (c.sqe.opc == 2 || c.sqe.opc == 0xC || c.sqe.opc == 0x20)

/-- An earlier change of the same SQ that overlaps a read and has not ended. -/
def earlierChange (s : State) (seq : Nat) (c : Cmd) : Bool :=
  s.cmds.any fun e => e.1 < seq && e.2.fid == c.fid && e.2.q == c.q && e.2.changes && e.2.overlaps c && e.2.done.isNone

/-- An earlier read of the same SQ that overlaps a change and has not taken its blocks. -/
def earlierRead (s : State) (seq : Nat) (c : Cmd) : Bool :=
  s.cmds.any fun e => e.1 < seq && e.2.fid == c.fid && e.2.q == c.q && e.2.reads && e.2.overlaps c && e.2.done.isNone

/-- A change with a lower SEQ that touches a granule and has not been applied. -/
def lowerInFlight (s : State) (seq : Nat) (c : Cmd) (g : Nat) : Bool :=
  s.cmds.any fun e => e.1 < seq && e.2.changes && !e.2.applied && e.2.done.isNone && e.2.tenant == c.tenant &&
    e.2.sqe.nsid == c.sqe.nsid && e.2.g0 ≤ g && g ≤ e.2.g1

/-- How a Skim command notes a block of one of its tenant's namespaces. -/
def skimBlock (nsid lba : Nat) : Nat := nsid * 2 ^ 48 + lba

/-- Changes with a lower SEQ that have not been applied lose the blocks this command writes; a Skim flow's services may
still write any block of its tenant. -/
def noteBeaten (s : State) (seq : Nat) (c : Cmd) : State :=
  let last := c.sqe.slba + c.sqe.nlb
  { s with cmds := s.cmds.map fun e =>
      (e.1,
        if e.1 < seq && e.2.changes && !e.2.applied && e.2.overlaps c then
          { e.2 with beaten := e.2.beaten ++ [(c.sqe.slba, last)] }
        else if e.1 < seq && !e.2.admin && isSkim e.2.sqe.opc && e.2.tenant == c.tenant then
          { e.2 with beaten := e.2.beaten ++ [(skimBlock c.sqe.nsid c.sqe.slba, skimBlock c.sqe.nsid last)] }
        else e.2) }

/-- Has a command with a higher SEQ written the block? -/
def Cmd.lost (c : Cmd) (lba : Nat) : Bool := c.beaten.any fun r => r.1 ≤ lba && lba ≤ r.2

/-- A dispatched command of an opcode that has not ended, its pieces charged. -/
def running (s : State) (seq opc : Nat) : Option Cmd :=
  match getCmd s seq with
  | none => none
  | some c =>
    if !c.admin && c.sqe.opc == opc && c.done.isNone && c.bound.isSome && c.chargeBytes ≤ c.charged then some c else none

/-- HEAT of every extent a command touches (R283). -/
def touchExtents (s : State) (c : Cmd) (pool : Nat) : State :=
  if pool = 0 then s
  else ((List.range (c.g1 / 64 + 1 - c.g0 / 64)).map (· + c.g0 / 64)).foldl (fun s x =>
    modUdc s fun u => { u with ext := tmod {} u.ext (granKey c.tenant c.sqe.nsid x) fun e =>
      { e with heat := min 255 (e.heat + 1) } }) s

/-! ## Landing changes in the write buffer (R264) -/

/-- A change being applied: the state, reserved slots not used yet, slots that took blocks with the blocks' mask. -/
structure Landing where
  st   : State
  free : List Nat
  used : List (Nat × Nat) := []
  deriving DecidableEq, Repr

/-- A slot for a granule that needs one: a reserved one, or one reserved now; none while there is no room. -/
def Landing.slot (l : Landing) (seq : Nat) : Option (Nat × Landing) :=
  match l.free with
  | i :: rest => some (i, { l with free := rest })
  | [] =>
    if slotsRoom l.st 1 && copyRoom l.st 1 then
      match reserveSlots l.st seq 1 with
      | ([i], s) => some (i, { l with st := s })
      | _ => none
    else none

/-- Mask of the blocks in a list; a compressed slot's units. -/
def sentMask (clen : Nat) (bs : List (Nat × Nat)) : Nat :=
  if clen = 0 then (bs.map fun b => 2 ^ b.1).sum else 2 ^ (4 - clen) - 1

/-- Put blocks of one granule into the write buffer. -/
def Landing.put (l : Landing) (seq : Nat) (id : GranId) (pool clen : Nat) (bs fill : List (Nat × Nat)) : Option Landing :=
  if bs.isEmpty then some l
  else
    match dirtySlot l.st id pool with
    | some _ =>
      let (r, s) := bufferGranule l.st id pool seq 0 clen bs fill
      some { l with st := s, used := l.used ++ [(r.1, sentMask clen bs)] }
    | none =>
      (l.slot seq).map fun (i, l) =>
        let (r, s') := bufferGranule l.st id pool seq i clen bs fill
        { l with st := s', used := l.used ++ [(r.1, sentMask clen (if fill.isEmpty then bs else fill))] }

/-- The namespace's owner record of a granule. -/
def Cmd.granId (c : Cmd) (ns : NsRec) (g : Nat) : GranId :=
  { tenant := c.tenant, ns := c.sqe.nsid, incarn := ns.incarn, gran := g }

/-- The present blocks of a granule, by number. -/
def granFill (s : State) (c : Cmd) (ns : NsRec) (g : Nat) (bad : List BadBlock) : Except Nat (List (Nat × Nat)) :=
  (granBlocks s (entryOf s c.tenant c.sqe.nsid ns.pool g) g bad).map fun l => l.zipIdx.map fun (v, b) => (b, v)

/-- The fill of a granule: its present blocks where the namespace compresses, none else. -/
def fillFor (s : State) (c : Cmd) (ns : NsRec) (g : Nat) (bad : List BadBlock) : List (Nat × Nat) :=
  if ns.compress then (match granFill s c ns g bad with | .ok l => l | .error _ => []) else []

/-- Blocks of granule `g` a change writes: those in its range that no later command has written; `val` is their value
by block of the range. -/
def Cmd.newBlocks (c : Cmd) (g : Nat) (val : Nat → Nat) : List (Nat × Nat) :=
  ((List.range 4).filter fun b => c.covers g b && !c.lost (4 * g + b)).map fun b => (b, val (4 * g + b - c.sqe.slba))

/-- The status that stops a change before it changes anything: the medium's bar, a partly written LOST granule, a
granule of a compressing namespace whose other blocks cannot be read. -/
def changeStatus (s : State) (c : Cmd) (ns : NsRec) (bad : List BadBlock) : Nat :=
  if changeBar s ns.pool ≠ 0 then changeBar s ns.pool
  else
    ((List.range (c.g1 + 1 - c.g0)).map (· + c.g0)).foldl (fun st g =>
      if st ≠ 0 || c.whole g then st
      else if (entryOf s c.tenant c.sqe.nsid ns.pool g).kind = 3 then 0x0203
      else if ns.compress then (match granFill s c ns g bad with | .ok _ => 0 | .error e => e)
      else 0) 0

/-- Apply a WRITE's blocks. `clens` gives CLEN by granule of the range where the namespace compresses. -/
def landWrite (s : State) (seq : Nat) (c : Cmd) (ns : NsRec) (data clens : List Nat) (bad : List BadBlock)
    (free : List Nat) : Option Landing :=
  ((List.range (c.g1 + 1 - c.g0)).map (· + c.g0)).foldl (fun l g => l.bind fun l =>
    l.put seq (c.granId ns g) ns.pool (if ns.compress then clens.getD (g - c.g0) 0 % 4 else 0)
      (c.newBlocks g fun i => data.getD i 0) (fillFor l.st c ns g bad)) (some { st := s, free := free })

/-- WRITE_ZEROES and DEALLOCATE on one granule. -/
def Landing.zero (l : Landing) (seq : Nat) (c : Cmd) (ns : NsRec) (clen : Nat) (bad : List BadBlock) (g : Nat) :
    Option Landing :=
  let e := entryOf l.st c.tenant c.sqe.nsid ns.pool g
  if c.whole g && e.kind ≠ 2 && !lowerInFlight l.st seq c g && (c.newBlocks g fun _ => 0).length = 4 then
    some { l with st := setEntry l.st c.tenant c.sqe.nsid ns.pool g { kind := 0, gen := (e.gen + 1) % 4096 } }
  else
    l.put seq (c.granId ns g) ns.pool (if ns.compress then clen % 4 else 0) (c.newBlocks g fun _ => 0)
      (fillFor l.st c ns g bad)

/-- Granules of an extent that a whole-extent change handles one by one: WBUF ones, and those with a lower-SEQ change
in flight or blocks that a later command has written. -/
def specialGrans (s : State) (seq : Nat) (c : Cmd) (ns : NsRec) (x : Nat) : List Nat :=
  ((List.range 64).map (· + 64 * x)).filter fun g =>
    (entryOf s c.tenant c.sqe.nsid ns.pool g).kind == 2 || lowerInFlight s seq c g ||
      (c.newBlocks g fun _ => 0).length != 4

/-- WRITE_ZEROES and DEALLOCATE on a whole extent of the disk or hybrid pool. -/
def Landing.zeroExtent (l : Landing) (seq : Nat) (c : Cmd) (ns : NsRec) (clens : List Nat) (bad : List BadBlock) (x : Nat) :
    Option Landing :=
  let s := l.st
  let e := getExt s c.tenant c.sqe.nsid x
  let sp := specialGrans s seq c ns x
  let one := fun (l : Option Landing) (g : Nat) => l.bind fun l => l.zero seq c ns (clens.getD (g - c.g0) 0) bad g
  if e.kind = 2 && !sp.isEmpty then ((List.range 64).map (· + 64 * x)).foldl one (some l)
  else
    let keep := e.ovr.filter fun o => sp.contains (64 * x + o.1)
    let s := setExt s c.tenant c.sqe.nsid x { kind := 0, heat := e.heat, gen := (e.gen + 1) % 65536, ovr := keep }
    let s := if e.kind = 2 then (List.range 64).foldl (fun s j => setGran s c.tenant c.sqe.nsid (64 * x + j) {}) s else s
    sp.foldl one (some { l with st := s })

/-- Apply a WRITE_ZEROES or DEALLOCATE. -/
def landZeroes (s : State) (seq : Nat) (c : Cmd) (ns : NsRec) (clens : List Nat) (bad : List BadBlock) (free : List Nat) :
    Option Landing :=
  let l0 : Option Landing := some { st := s, free := free }
  let one := fun (l : Option Landing) (g : Nat) => l.bind fun l => l.zero seq c ns (clens.getD (g - c.g0) 0) bad g
  if ns.pool = 0 then ((List.range (c.g1 + 1 - c.g0)).map (· + c.g0)).foldl one l0
  else
    ((List.range (c.g1 / 64 + 1 - c.g0 / 64)).map (· + c.g0 / 64)).foldl (fun l x =>
      if c.covers (64 * x) 0 && c.covers (64 * x + 63) 3 then l.bind fun l => l.zeroExtent seq c ns clens bad x
      else (((List.range 64).map (· + 64 * x)).filter fun g => c.g0 ≤ g && g ≤ c.g1).foldl one l) l0

/-- Make the slots of a landing dirty and start their second copies: a MIRROR frame in MIRROR mode, else the second
local copy (R23, R471); the reserved slots not used are free again. -/
def Landing.commit (l : Landing) (seq : Nat) : State :=
  let s := l.free.foldl freeSlot l.st
  l.used.foldl (fun s u =>
    let age := s.udc.age
    let s := modUdc s fun u => { u with age := u.age + 1 }
    let s := modSlot s u.1 fun x => { x with state := 2, age := if x.state = 2 then x.age else age }
    if fget s OZP_STATUS_MODE = 1 then sendMirror s u.1 u.2 seq else modSlot s u.1 fun x => { x with local2 := true }) s

/-- Keep what a change has changed, for as long as its second copy is not written (R525). -/
def keepUndo (old s : State) (seq : Nat) (c : Cmd) (pool : Nat) (l : Landing) : State :=
  let grans := (List.range (c.g1 + 1 - c.g0)).map (· + c.g0)
  let exts := if pool = 0 then [] else (List.range (c.g1 / 64 + 1 - c.g0 / 64)).map (· + c.g0 / 64)
  let t := c.tenant
  let n := c.sqe.nsid
  let u : Undo :=
    { ns := n
      slots := (l.used.map (·.1)).dedup.map fun i => (i, getSlot old i)
      gran := (grans.map fun g => (g, entryOf old t n pool g, entryOf s t n pool g)).filter fun e => e.2.1 != e.2.2
      ext := (exts.map fun x => (x, getExt old t n x, getExt s t n x)).filter fun e => e.2.1 != e.2.2 }
  modUdc s fun v => { v with undo := tset {} v.undo seq u }

/-- End of applying a change: its copies are under way; it ends when they are written. -/
def changeApplied (old : State) (seq : Nat) (c : Cmd) (pool : Nat) (l : Landing) : State :=
  let s := touchExtents (noteBeaten (l.commit seq) seq c) c pool
  let s := if fget s OZP_STATUS_MODE = 1 then keepUndo old s seq c pool l else s
  let s := match getCmd s seq with
    | some c => putCmd s seq { c with applied := true, slots := [] }
    | none => s
  endIfCopied s seq

/-- The bytes of a list of blocks. -/
def blockBytes (data : List Nat) : List Byte := data.flatMap fun v => leBytes v 4096

/-- WRITE: reads the host buffer, then checks ITAG and puts the blocks into the write buffer; it ends once every copy is
written. `clens` is what Render gave for each granule of a compressing namespace. -/
def execWrite (seq : Nat) (data clens : List Nat) (bad : List BadBlock) (s : State) : Host.Outcome State Fault Refusal :=
  match running s seq 1 with
  | none => .next s
  | some c =>
    let ns := cmdNs s c
    if c.applied then .next (endIfCopied s seq)
    else if c.stage = 0 then
      .next (c.sqe.hostSegs.foldl (fun s g => hostGet s c.fid g.1 g.2) (putCmd s seq { c with stage := 1 }))
    else if !c.fetched || earlierRead s seq c || data.length ≠ c.sqe.nlb + 1 then .next s
    else if changeBar s ns.pool = 0 && c.sqe.itagChk && (crc32c (blockBytes data)).toNat ≠ c.sqe.itag then
      .next (setDone s seq 0x0109)
    else if changeStatus s c ns bad ≠ 0 then .next (setDone s seq (changeStatus s c ns bad))
    else match landWrite s seq c ns data clens bad c.slots with
      | none => .next s
      | some l => .next (changeApplied s seq c ns.pool l)

/-- WRITE_ZEROES and DEALLOCATE (R142): one effect. -/
def zeroCommand (opc seq : Nat) (clens : List Nat) (bad : List BadBlock) (s : State) : State :=
  match running s seq opc with
  | none => s
  | some c =>
    let ns := cmdNs s c
    if c.applied then endIfCopied s seq
    else if earlierRead s seq c then s
    else if changeStatus s c ns bad ≠ 0 then setDone s seq (changeStatus s c ns bad)
    else match landZeroes s seq c ns clens bad c.slots with
      | none => s
      | some l => changeApplied s seq c ns.pool l

/-- WRITE_ZEROES. -/
def execWriteZeroes (seq : Nat) (clens : List Nat) (bad : List BadBlock) (s : State) : Host.Outcome State Fault Refusal :=
  .next (zeroCommand 8 seq clens bad s)

/-- DEALLOCATE. -/
def execDeallocate (seq : Nat) (clens : List Nat) (bad : List BadBlock) (s : State) : Host.Outcome State Fault Refusal :=
  .next (zeroCommand 9 seq clens bad s)

/-! ## Reading (R156, R257 to R260) -/

/-- The blocks of a range, each its value or the status it fails with. -/
def readSpan (s : State) (t n pool slba count : Nat) (bad : List BadBlock) : List ReadResult :=
  (List.range count).map fun i => readBlock s t n pool (slba + i) (missingOf bad (slba + i))

/-- Status of a read: that of its first block that fails. -/
def spanStatus : List ReadResult → Nat
  | [] => 0
  | .ok _ :: rest => spanStatus rest
  | .error e :: _ => e

/-- R260: granules whose data cannot be recovered become LOST. -/
def markSpan (s : State) (c : Cmd) (ns : NsRec) (slba : Nat) (rs : List ReadResult) : State :=
  rs.zipIdx.foldl (fun s (r, i) => match r with
    | .error 0x0203 => markLost s (c.granId ns ((slba + i) / 4)) ns.pool
    | _ => s) s

/-- The values of a range without a failed block. -/
def spanData (rs : List ReadResult) : List Nat := rs.filterMap fun r => match r with | .ok v => some v | .error _ => none

/-- Host pieces of the bytes `bs` that lie at `off` of a transfer into `segs`. -/
def scatter : List (Nat × Nat) → Nat → List Byte → List (Nat × List Byte)
  | [], _, _ => []
  | (a, n) :: rest, off, bs =>
    if bs.isEmpty then []
    else if n ≤ off then scatter rest (off - n) bs
    else (a + off, bs.take (n - off)) :: scatter rest 0 (bs.drop (n - off))

/-- Write the good blocks of a read to the host buffer. -/
def deliver (s : State) (c : Cmd) (rs : List ReadResult) : State :=
  rs.zipIdx.foldl (fun s (r, i) => match r with
    | .ok v => (scatter c.sqe.hostSegs (4096 * i) (leBytes v 4096)).foldl (fun s p => hostPut s c.fid p.1 p.2) s
    | .error _ => s) s

/-- End a READ or VERIFY (R143): in v2 RESULT is the CRC-32C of the data, and open where some block failed. -/
def endRead (s : State) (seq : Nat) (c : Cmd) (rs : List ReadResult) : State :=
  let st := spanStatus rs
  if !c.v2 then setDone s seq st
  else if st = 0 then
    let crc := (crc32c (blockBytes (spanData rs))).toNat
    setDone s seq (if c.sqe.itagChk && crc ≠ c.sqe.itag then 0x0109 else 0) (some crc)
  else
    let (r, s) := drawFree s
    setDone s seq st (some (r % 2 ^ 32))

/-- The read of READ and VERIFY. -/
def readCommand (opc seq : Nat) (toHost : Bool) (bad : List BadBlock) (s : State) : State :=
  match running s seq opc with
  | none => s
  | some c =>
    if earlierChange s seq c then s
    else
      let ns := cmdNs s c
      let rs := readSpan s c.tenant c.sqe.nsid ns.pool c.sqe.slba (c.sqe.nlb + 1) bad
      let s := touchExtents (markSpan s c ns c.sqe.slba rs) c ns.pool
      endRead (if toHost then deliver s c rs else s) seq c rs

/-- READ: `bad` names the blocks whose unit did not decode. -/
def execRead (seq : Nat) (bad : List BadBlock) (s : State) : Host.Outcome State Fault Refusal :=
  .next (readCommand 2 seq true bad s)

/-- VERIFY. -/
def execVerify (seq : Nat) (bad : List BadBlock) (s : State) : Host.Outcome State Fault Refusal :=
  .next (readCommand 0xC seq false bad s)

/-! ## FLUSH (R141) -/

/-- Is a namespace concerned: it is the tenant's, and NSID's or any. -/
def concerned (t n : Nat) (all : Bool) (t' n' : Nat) : Bool := t == t' && (all || n == n')

/-- Data of the tenant's changes below `seq` that is not yet in a sealed stripe and mapped there. -/
def flushPending (s : State) (t n : Nat) (all : Bool) (seq : Nat) : Bool :=
  (s.cmds.any fun e => e.1 < seq && e.2.changes && concerned t n all e.2.tenant e.2.sqe.nsid && e.2.done.isNone) ||
    s.udc.slots.any fun e => concerned t n all e.2.id.tenant e.2.id.ns && 2 ≤ e.2.state &&
      (e.2.tags.any fun x => 0 < x && x < seq) && !(s.udc.releaseReady.any fun r => r.2.contains e.1)

/-- Seal the open stripes that hold data of the namespaces concerned: their rest is padded. -/
def sealConcerned (s : State) (t n : Nat) (all : Bool) : State :=
  let holds := fun (o : OpenStripe) => o.parts.any fun p => concerned t n all p.id.tenant p.id.ns
  modUdc s fun u => { u with open_ := u.open_.map fun o => if holds o then o.pad else o }

/-- FLUSH: the stripes concerned are sealed at once; it ends when nothing with a lower SEQ is left in the write buffer. -/
def execFlush (seq : Nat) (s : State) : Host.Outcome State Fault Refusal :=
  match running s seq 0 with
  | none => .next s
  | some c =>
    let all := c.sqe.cdw % 2 == 1
    let s := sealConcerned s c.tenant c.sqe.nsid all
    .next (if flushPending s c.tenant c.sqe.nsid all seq then s else setDone s seq 0)

end Sys2Proof.Machine
end

