-- ==== Sys2Proof/Machine/Admin.lean ====
section
/-!
DEFINITION. Machine/Admin.lean: the admin commands (05_queues_and_journal.md R149 to R152; 06_tenants_masking_qos.md;
R515, R516). An operand carries what a command's buffer holds.
-/

namespace Sys2Proof.Machine

/-! ## Queue pairs (R149) -/

/-- CREATE_QP: waits while the pair's deletion runs. -/
def execCreateQp (seq : Nat) (s : State) : Host.Outcome State Fault Refusal :=
  match adminCmd s seq 0x01 with
  | none => .next s
  | some c =>
    let q := c.sqe.target
    let p := getQp s c.fid q
    let w := c.sqe.cdw0
    if p.mode = 3 then .next s
    else if p.mode ≠ 0 || (getQp s c.fid 0).mode ≠ 2 then .next (setDone s seq 0x010B)
    else
      .next (setDone (modQp s c.fid q fun _ =>
        { mode := 2, size := 2 ^ (w % 16), v2 := w / 16 % 2 == 1, qos := w / 32 % 4, ien := w / 128 % 2 == 1
          vector := w / 256 % 8, sqBase := c.sqe.buf0, cqBase := c.sqe.buf1 }) seq 0)

/-- DELETE_QP: fetching stops and the fetched commands are settled; it completes once the pair is gone. -/
def execDeleteQp (seq : Nat) (s : State) : Host.Outcome State Fault Refusal :=
  match adminCmd s seq 0x02 with
  | none => .next s
  | some c =>
    let q := c.sqe.target
    let p := getQp s c.fid q
    if c.stage = 1 then (if p.mode = 0 then .next (setDone s seq 0) else .next s)
    else if p.mode = 0 then .next (setDone s seq 0x010B)
    else
      let s := modQp s c.fid q fun p => { p with mode := 3, fetching := 0, latchEn := false }
      let s := settleWhere s fun d => d.fid == c.fid && d.q == q && !d.admin
      let s := finishDelete (setStage s seq c) c.fid q
      .next (if (getQp s c.fid q).mode = 0 then setDone s seq 0 else s)

/-! ## IDENTIFY, GET_LOG, JOURNAL_QUERY (R150 to R152, R192) -/

/-- The tenant an admin command names: its own on a VF, TARGET on the control PF. -/
def adminTenant (c : Cmd) : Nat := if c.tenant = 0x3FF then c.sqe.target else c.tenant

/-- Bytes padded with zeros to a length. -/
def padBytes (n : Nat) (bs : List Byte) : List Byte := bs.take n ++ List.replicate (n - bs.length) 0

/-- The function that serves a tenant. -/
def tenantFid (s : State) (t : Nat) : Option Nat :=
  (tenantPort s t).map fun p => fnId p (t - 8 * fget s (HPT_FUNCS_FIRST_BLOCK.ix p 0x1000) + 1)

/-- Device data (Table 05-8). -/
def identifyDevice (s : State) : List Byte :=
  leBytes (rget s 0).toNat 4 ++ leBytes 3 4 ++ leBytes 1024 4 ++ leBytes 16384 4 ++ [4, 12, 0, 0] ++
    leBytes (if fget s TRW_STATUS_SKIM_ON = 1 then s.trw.entryIf else 0) 4 ++ leBytes s.jrn.next 8 ++
    (List.range 8).flatMap fun i => leBytes (rget s (0x10 + 4 * i)).toNat 4

/-- Tenant data. -/
def identifyTenant (s : State) (t : Nat) : List Byte :=
  let nsMap := ((List.range 16).filter fun n => (getNs s t n).isSome).map fun n => 2 ^ n
  let pairs := match tenantFid s t with
    | some f => ((List.range 9).filter fun q => (getQp s f q).mode != 0).map fun q => 2 ^ q
    | none => []
  leBytes t 2 ++ leBytes nsMap.sum 2 ++ leBytes pairs.sum 2 ++
    [BitVec.ofNat 8 (b2n (tenState s t != 0) + 2 * b2n (getTen s t).key.isSome), 0] ++ leBytes (jrnOldest s) 8

/-- Namespace data. -/
def identifyNs (s : State) (ns : NsRec) : List Byte :=
  leBytes ns.size 8 ++ leBytes ns.pool 1 ++ leBytes (b2n ns.compress + 2 * b2n (poolReady s ns.pool)) 1

/-- IDENTIFY; a namespace that does not exist gives 0x0105. -/
def execIdentify (seq : Nat) (s : State) : Host.Outcome State Fault Refusal :=
  match adminCmd s seq 0x04 with
  | none => .next s
  | some c =>
    let t := adminTenant c
    let put := fun (bs : List Byte) => setDone (hostPut s c.fid c.sqe.buf0 (padBytes 4096 bs)) seq 0
    match c.sqe.cdw0 % 256 with
    | 0 => .next (put (identifyDevice s))
    | 1 => .next (put (identifyTenant s t))
    | _ =>
      match getNs s t (c.sqe.cdw0 / 256 % 16) with
      | none => .next (setDone s seq 0x0105)
      | some ns => .next (put (identifyNs s ns))

/-- A class entry of the contract log. -/
def classLog (s : State) (t n : Nat) : List Byte :=
  match (contractOf s t).getD n none with
  | none => List.replicate 32 0
  | some c =>
    let rd := getDir s t n false
    let wr := getDir s t n true
    leBytes c.pool 1 ++ leBytes (b2n (rd.cut || wr.cut)) 3 ++ leBytes c.rdFloor 4 ++ leBytes c.wrFloor 4 ++
      leBytes (c.rdCeil.getD 0xFFFFFFFF) 4 ++ leBytes (c.wrCeil.getD 0xFFFFFFFF) 4 ++ leBytes c.rdBurst 4 ++
      leBytes c.wrBurst 4 ++ leBytes (min rd.eff 0xFFFF) 2 ++ leBytes (min wr.eff 0xFFFF) 2

/-- The contract state log (R192, Table 06-9). -/
def contractLog (s : State) (t : Nat) : List Byte :=
  let classes := ((List.range 3).filter fun n => ((contractOf s t).getD n none).isSome).map fun n => 2 ^ n
  leBytes t 2 ++ leBytes (tenState s t) 1 ++ leBytes classes.sum 1 ++ leBytes 0 4 ++
    leBytes (match (getTenNv s t).contract with | some c => c.seq | none => 0) 8 ++ leBytes 0 16 ++
    (List.range 3).flatMap (classLog s t)

/-- The nine XQ_ERRLOG records of a function. -/
def errorLog (s : State) (fid : Nat) : List Byte :=
  (List.range 72).flatMap fun i => leBytes (rget s (xqBase s fid + 0x2000 + 4 * i)).toNat 4

/-- GET_LOG: the leading part of a log that fits the buffer; RESULT is the bytes written. -/
def execGetLog (seq : Nat) (s : State) : Host.Outcome State Fault Refusal :=
  match adminCmd s seq 0x05 with
  | none => .next s
  | some c =>
    let bs := (if c.sqe.cdw0 % 256 = 1 then errorLog s c.fid else contractLog s (adminTenant c)).take c.sqe.buf0Len
    .next (setDone (hostPut s c.fid c.sqe.buf0 bs) seq 0 (some bs.length))

/-- Does a query select a journal entry (R152)? -/
def querySelects (t queue : Nat) (any : Bool) (e : JrnEntry) : Bool :=
  let mine := t == 0x3FF || e.tenant == t
  if e.queue = 0xF then mine || e.tenant == 0x3FE else mine && (any || e.queue == queue)

/-- The entries a query copies, and GAP. -/
def queryEntries (s : State) (t : Nat) (e : Sqe) : List JrnEntry × Bool :=
  let start := e.cdw0 % 2 ^ 32 + e.cdw1 % 2 ^ 32 * 2 ^ 32
  let room := e.buf0Len / 32
  let all := ((jrnAll s).map (·.2)).filter (querySelects t (e.cdw2 % 16) (e.cdw2 / 16 % 2 == 1))
  let oldest := jrnOldest s
  if e.cdw2 / 32 % 2 = 1 then
    let l := ((all.filter (·.seq ≤ start)).reverse).take room
    (l, l.length < room && 1 < oldest)
  else ((all.filter (start ≤ ·.seq)).take room, start < oldest && 1 < oldest)

/-- JOURNAL_QUERY. -/
def execJournalQuery (seq : Nat) (s : State) : Host.Outcome State Fault Refusal :=
  match adminCmd s seq 0x09 with
  | none => .next s
  | some c =>
    let (l, gap) := queryEntries s (adminTenant c) c.sqe
    .next (setDone (hostPut s c.fid c.sqe.buf0 (l.flatMap JrnEntry.bytes)) seq 0 (some (l.length + b2n gap * 2 ^ 31)))

/-! ## Tenants (R171, R181) -/

/-- Entropy drawn from the on-die source. -/
def drawEntropy (s : State) : Nat × State := (Config.entropy s.freeCtr, { s with freeCtr := s.freeCtr + 1 })

/-- A command of the tenant accepted before `seq` that is still in flight. -/
def lowerBusy (s : State) (t seq : Nat) (p : Cmd → Bool := fun _ => true) : Bool :=
  s.cmds.any fun e => e.1 < seq && e.2.tenant == t && p e.2

/-- A control command that names a tenant with a context; others end as Table 06-2 gives. -/
def tenantCommand (s : State) (seq opc : Nat) (f : Cmd → Nat → State) : State :=
  match adminCmd s seq opc with
  | none => s
  | some c =>
    let t := c.sqe.target
    if tenState s t = 0 || tenState s t = 3 then setDone s seq 0x0301 else f c t

/-- TENANT_CREATE: latched while the tenant is DESTROYING. -/
def execTenantCreate (seq : Nat) (s : State) : Host.Outcome State Fault Refusal :=
  match adminCmd s seq 0x40 with
  | none => .next s
  | some c =>
    let t := c.sqe.target
    match tenState s t with
    | 0 =>
      let (salt, s) := drawEntropy s
      let s := modTenNv s t fun r => { state := 1, salt := salt % 2 ^ 128, incarn := r.incarn }
      .next (setDone (modTen s t fun _ => {}) seq 0)
    | 3 => .next (modTen s t fun x => { x with createPend := true })
    | _ => .next (setDone s seq 0)

/-- Steps 3 to 5 of Table 06-4. -/
def destroyTenant (s : State) (t : Nat) : State :=
  let s := installContract s t none
  let s := modTen s t fun x => { dirs := x.dirs, createPend := x.createPend }
  let s := modTenNv s t fun r => { r with state := 3, salt := 0, fingerprint := none, contract := none }
  dmkSend s 0x0302 (t % 1024)

/-- TENANT_DESTROY: commands accepted later see no context at once; the context goes when the earlier ones have ended. -/
def execTenantDestroy (seq : Nat) (s : State) : Host.Outcome State Fault Refusal :=
  match adminCmd s seq 0x41 with
  | none => .next s
  | some c =>
    let t := c.sqe.target
    match tenState s t with
    | 0 => .next (setDone s seq 0x0301)
    | 3 => .next (setDone s seq 0)
    | _ =>
      let s := modTen (setStage s seq c) t fun x => { x with dying := true }
      .next (if lowerBusy s t seq then s else setDone (destroyTenant s t) seq 0)

/-- Release the mapping of the namespaces `p` selects, and drop their dirty slots (R174, R181). -/
def releaseNs (s : State) (t : Nat) (p : Nat → Bool) : State :=
  let here := fun (k : Nat) => k / 2 ^ 52 / 16 == t % 1024 && p (k / 2 ^ 52 % 16)
  let slots := (s.udc.slots.filter fun e => e.2.state == 2 && e.2.id.tenant == t && p e.2.id.ns).map (·.1)
  let s := releaseSlots s slots
  let s := logRecord (modUdc s fun u => { u with gran := u.gran.filter fun e => !here e.1, ext := u.ext.filter fun e => !here e.1 })
  modTenNv s t fun r => { r with ns := r.ns.filter fun e => !p e.1 }

/-- DESTROY_RELEASE_END (steps 6 and 7): dropped granules, released mappings, the record ABSENT. -/
def execDestroyReleaseEnd (t : Nat) (s : State) : Host.Outcome State Fault Refusal :=
  if tenState s t ≠ 3 then .next s
  else
    let s := releaseNs s t fun _ => true
    .next (modTenNv s t fun r => { incarn := r.incarn })

/-! ## Keys (R176, R177) -/

/-- The step of R176 that refuses a blob, 0 when all pass. -/
def keyStep (s : State) (t : Nat) (b : KeyBlob) : Nat :=
  let fp := Config.fingerprint (getTenNv s t).salt b.key
  if b.magic ≠ 0x4B574158 || b.tenant ≠ t || b.rsvd ≠ 0 || b.boot ≠ s.tb.boot % 2 ^ 32 || !b.pointOk then 1
  else if !b.unwrapOk then 4
  else if b.key % 2 ^ 256 = b.key / 2 ^ 256 % 2 ^ 256 then 5
  else match (getTenNv s t).fingerprint with
    | some f => if f = fp then 0 else 7
    | none => 0

/-- KEY_LOAD. -/
def execKeyLoad (seq : Nat) (blob : KeyBlob) (s : State) : Host.Outcome State Fault Refusal :=
  .next (tenantCommand s seq 0x42 fun c t =>
    if c.sqe.buf0Len ≠ 192 then setDone s seq 0x010A
    else
      let s := hostGet s c.fid c.sqe.buf0 192
      let k := keyStep s t blob
      if k ≠ 0 then setDone (dmkSend s 0x0304 (t % 1024 + k * 4096)) seq 0x0302
      else if (getTen s t).key.isSome then setDone s seq 0
      else
        let s := modTenNv s t fun r => { r with fingerprint := some (Config.fingerprint r.salt blob.key) }
        setDone (modTen s t fun x => { x with key := some blob.key }) seq 0)

/-- KEY_UNLOAD: commands accepted later find no key at once; it is zeroed when the earlier ones have ended. -/
def execKeyUnload (seq : Nat) (s : State) : Host.Outcome State Fault Refusal :=
  .next (tenantCommand s seq 0x43 fun c t =>
    if tenState s t = 1 then setDone s seq 0
    else
      let s := modTen (setStage s seq c) t fun x => { x with unloading := true }
      if lowerBusy s t seq then s else setDone (modTen s t fun x => { x with key := none, unloading := false }) seq 0)

/-! ## Namespaces (R173, R174) -/

/-- Logical capacity of a pool. -/
def poolCap (s : State) (pool : Nat) : Nat :=
  let p := (image s).pools
  if pool = 0 then p.flashCap else if pool = 1 then p.diskCap else p.hybCap

/-- Has the contract a floor in a pool? -/
def floorIn (cs : List (Option ClassRec)) (pool : Nat) : Bool :=
  cs.any fun c => match c with | some c => c.pool == pool && (0 < c.rdFloor || 0 < c.wrFloor) | none => false

/-- NS_CREATE. -/
def execNsCreate (seq : Nat) (s : State) : Host.Outcome State Fault Refusal :=
  .next (tenantCommand s seq 0x44 fun c t =>
    let n := c.sqe.cdw0 % 16
    let pool := c.sqe.cdw0 / 16 % 4
    let comp := c.sqe.cdw0 / 64 % 2 == 1
    let size := c.sqe.cdw2 % 2 ^ 32 + c.sqe.cdw3 % 2 ^ 32 * 2 ^ 32
    let cs := contractOf s t
    if (getNs s t n).isSome || size = 0 then setDone s seq 0x0102
    else if 2048 ≤ nsCount s || poolCap s pool < poolUsed s pool + size then setDone s seq 0x0204
    else if comp && floorIn cs pool && !(budgetHolds s t cs [pool] 7 && budgetHolds s t cs [pool] 8) then
      setDone (fset s TEN_STATUS_LAST_REJECT 4) seq 0x0304
    else
      let s := modTenNv s t fun r =>
        let k := (tget 0 r.incarn n + 1) % 2 ^ 32
        { r with incarn := tset 0 r.incarn n k
                 ns := tset {} r.ns n { size := size, pool := pool, compress := comp, incarn := k } }
      setDone s seq 0)

/-- NS_DELETE. -/
def execNsDelete (seq : Nat) (s : State) : Host.Outcome State Fault Refusal :=
  .next (tenantCommand s seq 0x45 fun c t =>
    let n := c.sqe.cdw0 % 16
    if c.stage = 0 && (getNs s t n).isNone then setDone s seq 0x0105
    else
      let s := if c.stage = 1 then s else modTen (setStage s seq c) t fun x => { x with dyingNs := x.dyingNs ++ [n] }
      if lowerBusy s t seq fun d => !d.admin && (d.sqe.nsid == n || d.sqe.opc == 0) then s
      else
        let s := releaseNs s t (· == n)
        setDone (modTen s t fun x => { x with dyingNs := x.dyingNs.filter (· != n) }) seq 0)

/-! ## Contracts (R184, R186) -/

/-- CONTRACT_SET. -/
def execContractSet (seq : Nat) (record : List Byte) (s : State) : Host.Outcome State Fault Refusal :=
  .next (tenantCommand s seq 0x48 fun c t =>
    if c.sqe.buf0Len ≠ 128 then setDone s seq 0x010A
    else
      let s := hostGet s c.fid c.sqe.buf0 128
      let k := judgeContract s t record
      let data := t % 1024 + recField record 6 1 % 8 * 1024
      if k ≠ 0 then
        setDone (dmkSend (fset s TEN_STATUS_LAST_REJECT k) 0x0307 (data + k * 65536)) seq 0x0304
      else
        let s := installContract s t (some { classes := (parseContract record).1, seq := seq })
        setDone (dmkSend s 0x0306 data) seq 0)

/-- CONTRACT_CLEAR. -/
def execContractClear (seq : Nat) (s : State) : Host.Outcome State Fault Refusal :=
  .next (tenantCommand s seq 0x49 fun _ t => setDone (installContract s t none) seq 0)

/-! ## PUSH grants (R183, R191) -/

/-- A PUSH accepted before `seq` still uses the grant. -/
def grantBusy (s : State) (t seq i : Nat) : Bool :=
  lowerBusy s t seq fun d => !d.admin && d.sqe.opc == 0x20 && d.sqe.pushIdx == i

/-- PUSH_GRANT. -/
def execPushGrant (seq : Nat) (s : State) : Host.Outcome State Fault Refusal :=
  .next (tenantCommand s seq 0x4A fun c t =>
    let i := c.sqe.cdw0 % 16
    let port := c.sqe.cdw0 / 16 % 8
    let fence := c.sqe.cdw0 / 256 % 2 == 1
    let base := c.sqe.buf1
    let len := c.sqe.buf1Len
    if base % 4096 ≠ 0 || len = 0 || len % 4096 ≠ 0 || 2 ^ 64 < base + len || tenantPort s t ≠ some port then
      setDone s seq 0x0303
    else if (tget {} (getTen s t).grants i).len ≠ 0 && grantBusy s t seq i then s
    else
      let s := modTen s t fun x => { x with grants := tset {} x.grants i { port := port, base := base, len := len, fence := fence } }
      setDone (dmkSend s 0x030A (t % 1024 + i * 1024 + 2 ^ 14 + port * 2 ^ 15 + b2n fence * 2 ^ 18)) seq 0)

/-- PUSH_REVOKE. -/
def execPushRevoke (seq : Nat) (s : State) : Host.Outcome State Fault Refusal :=
  .next (tenantCommand s seq 0x4B fun c t =>
    let i := c.sqe.cdw0 % 16
    if grantBusy s t seq i then s
    else
      let s := modTen s t fun x => { x with grants := tset {} x.grants i {} }
      setDone (dmkSend s 0x030A (t % 1024 + i * 1024)) seq 0)

/-! ## DAYMARK_CLEAR (R515, R516) -/

/-- Draw DMK_NONCE0 to 3. -/
def drawNonce (s : State) : State :=
  (List.range 4).foldl (fun s i =>
    let (v, s) := drawEntropy s
    rset s (DMK_NONCE_NONCE.off + 4 * i) (BitVec.ofNat 32 v)) s

/-- The status of the first check that fails. -/
def clearStatus (s : State) (len : Nat) (r : ClearReq) : Nat :=
  if len ≠ 240 then 0x010A
  else match s.nv.opHash with
    | none => 0x0102
    | some h =>
      if r.magic ≠ 0x43444158 || r.scope = 0 || 3 < r.scope || r.rsvd ≠ 0 || r.uid ≠ Config.otpUid.toNat ||
          r.boot ≠ s.tb.boot % 2 ^ 32 ||
          r.nonce ≠ (List.range 4).map (fun i => rget s (DMK_NONCE_NONCE.off + 4 * i)) then 0x0102
      else if r.keyHash ≠ h || !r.sigOk then 0x0102
      else 0

/-- Empty the areas of a scope (1 circulating, 2 permanent, 3 both). -/
def clearAreas (s : State) (scope : Nat) : State :=
  let circ := scope % 2 == 1
  let perm := scope / 2 == 1
  let s := modDmk s fun d =>
    { d with store := d.store.filter fun e => !((perm && e.1 < 512) || (circ && 512 ≤ e.1))
             newest := if circ then none else d.newest, circUsed := if circ then 0 else d.circUsed
             unpersist := if circ then 0 else d.unpersist, permDirty := d.permDirty || perm
             circClear := d.circClear || circ }
  let s := if perm then fset (fset s DMK_STATUS_PERM_USED 0) DMK_STATUS_PERM_FULL 0 else s
  if circ then
    let s := fset (fset s DMK_NEWEST_SLOT 0x200) DMK_NEWEST_EMPTY 1
    fset (fset s DMK_OLDEST_SLOT 0x200) DMK_OLDEST_EMPTY 1
  else s

/-- DAYMARK_CLEAR: `persistOk` is the outcome of the persist that follows the clear. -/
def execDaymarkClear (seq : Nat) (req : ClearReq) (persistOk : Bool) (s : State) : Host.Outcome State Fault Refusal :=
  match adminCmd s seq 0x5C with
  | none => .next s
  | some c =>
    let st := clearStatus s c.sqe.buf0Len req
    let s := drawNonce (hostGet s c.fid c.sqe.buf0 c.sqe.buf0Len)
    if st ≠ 0 then .next (setDone s seq st)
    else
      let s := grantEvent (clearAreas s req.scope) 0x0B40 0
      if persistOk then .next (setDone (persistStore s s.dmk.unpersist) seq 0)
      else .next (setDone (persistFailed s) seq 0x0202)

end Sys2Proof.Machine
end

