-- ==== Sys2Proof/Machine/Energy.lean ====
section
/-!
DEFINITION. Machine/Energy.lean: the arithmetic of Ballast (R521 to R523): dump rate, counted energy, the term of the dirty
limit. It serves both the running device and the loader's check of the ENERGY section (R520).
-/

namespace Sys2Proof.Machine

/-- M, the bound on the metadata part of a dump: 1 GiB. -/
def dumpMeta : Rat := 1073741824

/-- B_c and L_c of one channel with `luns` LUNs in service, the smaller of the two, in bytes per second. -/
def chanRate (p : LunProfile) (luns : Nat) : Rat :=
  let b : Rat := ((p.rate * 1000000 * 4096 : Nat) : Rat) / 4368
  let l : Rat := ((luns * p.planes * p.upp * 4096 * 1000000 : Nat) : Rat) / ((max p.tProgSlc 1 : Nat) : Rat)
  min b l

/-- The parity share: (W - 2) / W where W is 4 or more. -/
def parityShare (w : Nat) : Rat := if 4 ≤ w then ((w - 2 : Nat) : Rat) / ((w : Nat) : Rat) else 1

/-- R_D (R521). -/
def dumpRate (cs : List (LunProfile × Nat)) : Rat :=
  min 48000000000 ((cs.map fun c => chanRate c.1 c.2).sum * parityShare cs.length)

/-- T_FIX in seconds. -/
def dumpFix (cs : List (LunProfile × Nat)) : Rat :=
  5 / 1000 + (((cs.map fun c => c.1.tBers).foldl max 0 : Nat) : Rat) / 1000000

/-- A spindle as R522 counts it: r_h, Ke_h, I_BRAKE_h, ω_R,h in rad/s, J_h. -/
structure SpinEnergy where
  r      : Rat
  ke     : Rat
  iBrake : Rat
  omega  : Rat
  j      : Rat

/-- r_f of the counted spindles; none where they can regenerate nothing. -/
def floorRatio (e : EnergySec) (hs : List SpinEnergy) : Option Rat :=
  let k := (hs.map fun h => ((e.etaRg : Nat) : Rat) / 100 * (3 / 2) * h.ke * h.iBrake * h.omega).sum
  if k = 0 then none else some (max (((e.rgMinPct : Nat) : Rat) / 100) (e.pHold / k))

/-- What one spindle gives above the floor ratio. -/
def spinGives (e : EnergySec) (rf : Option Rat) (h : SpinEnergy) : Rat :=
  match rf with
  | none => 0
  | some f =>
    if 1 ≤ f || h.r ≤ f then 0
    else ((e.etaRg : Nat) : Rat) / 100 / 2 * h.j * (h.omega * h.omega) * (h.r * h.r - f * f)

/-- What the bank gives at `v` volts. -/
def bankGives (e : EnergySec) (v : Rat) : Rat :=
  if e.cVhold ≠ 0 && decide (e.pHold ≤ e.pVh) && decide (e.vhMin < v) then
    ((e.etaVh : Nat) : Rat) / 100 / 2 * e.cVhold * (v * v - e.vhMin * e.vhMin)
  else 0

/-- E (R522). -/
def countedEnergy (e : EnergySec) (hs : List SpinEnergy) (v : Rat) : Rat :=
  ((hs.map (spinGives e (floorRatio e hs))).sum + bankGives e v) * (((100 - e.marginPct : Nat) : Rat) / 100)

/-- Spindles that give energy. -/
def givingSpindles (e : EnergySec) (hs : List SpinEnergy) : Nat :=
  hs.countP fun h => decide (0 < spinGives e (floorRatio e hs) h)

/-- D_E (R523) for `n` actuators. -/
def energyBytes (e : EnergySec) (cs : List (LunProfile × Nat)) (n : Nat) (en : Rat) : Rat :=
  let t := (en - ((n : Nat) : Rat) * e.eUnload) / e.pHold
  if 0 < n && decide (t < 1 / 4) then 0 else max 0 ((t - dumpFix cs) * dumpRate cs - dumpMeta)

/-- Erased dump capacity of `units` units, less parity and the metadata part. -/
def dumpBytes (w units : Nat) : Rat := ((units * 4096 : Nat) : Rat) * parityShare w - dumpMeta

/-- The term in 16 KiB slots, and whether the dump capacity sets it. -/
def ballastTerm (e : EnergySec) (cs : List (LunProfile × Nat)) (n units : Nat) (en : Rat) : Nat × Bool :=
  if cs.isEmpty then (0, false)
  else
    let d := energyBytes e cs n en
    let c := max 0 (dumpBytes cs.length units)
    ((min d c / 16384).floor.toNat, decide (c < d))

/-- Energy a dump of `slots` slots needs (BLS_ENERGY.NEED), in J. -/
def dumpNeed (e : EnergySec) (cs : List (LunProfile × Nat)) (n slots : Nat) : Rat :=
  let r := dumpRate cs
  let t := if r = 0 then 1 / 4 else max (dumpFix cs + (((slots * 16384 : Nat) : Rat) + dumpMeta) / r) (1 / 4)
  e.pHold * t + ((n : Nat) : Rat) * e.eUnload

end Sys2Proof.Machine
end

