-- ==== Sys2Proof/Machine/Hod.lean ====
section
/-!
DEFINITION. Machine/Hod.lean: Hod's commands (15_render_and_hod.md, R450 to R461) and PUSH (R144, R157, R457).
-/

namespace Sys2Proof.Machine

/-! ## The check of a shadow set (R452, Table 15-6) -/

/-- Is the set's form right: no reserved bit or encoding, multiples of 4, a length in range? -/
def HodAct.formOk (a : HodAct) : Bool :=
  4 ≤ a.rem && a.rem ≤ 16777216 && a.rem % 4 == 0 && a.src % 4 == 0 && a.dst % 4 == 0 && a.srcSp < 3 && a.dstSp < 4 &&
    a.port < 6 && a.cfg0 / 512 % 2 == 0 && a.cfg0 / 2 ^ 30 == 0 && a.cfg1 / 64 % 1024 == 0

/-- Is the pair one of Table 15-6: vendor flows, or the control PF? -/
def HodAct.pairOk (a : HodAct) (vendor : Bool) (ctl : Nat) : Bool :=
  if vendor then (a.dstSp < 3 && !(a.srcSp == 2 && a.dstSp == 2)) || (a.srcSp == 1 && a.dstSp == 3)
  else a.srcSp != 1 && a.dstSp != 1 && a.dstSp != 3 && !(a.srcSp == 2 && a.dstSp == 2) &&
    (!a.outside || (a.func == 0 && a.port == ctl))

/-- Bytes of DRAM that the image declares. -/
def dramBytes (s : State) : Nat :=
  ((dramDeclared s).map fun c => ((image s).memory.chans.getD c {}).gib * 2 ^ 30).sum

/-- A range of a space that lies within it. -/
def hodRangeOk (s : State) (sp a n : Nat) : Bool :=
  if sp = 0 then a + n ≤ dramBytes s else if sp = 1 then a + n ≤ sramBytes else true

/-- The grant window a PEER transfer goes to. -/
def hodWindow (s : State) (a : HodAct) : Grant := tget {} (getTen s a.tenant).grants a.grant

/-- Does the PEER end hold: FUNC is TENANT's VF, GRANT is set on PORT, the bytes left lie in the window? -/
def hodPeerOk (s : State) (a : HodAct) : Bool :=
  a.func != 0 && tenantOf s a.fid == a.tenant && (hodWindow s a).len != 0 && (hodWindow s a).port == a.port &&
    a.dst + a.rem ≤ (hodWindow s a).len

/-- R452 whole. -/
def hodCheck (s : State) (vendor : Bool) (a : HodAct) : Bool :=
  a.formOk && a.pairOk vendor (ctlPort s) && hodRangeOk s a.srcSp a.src a.rem && hodRangeOk s a.dstSp a.dst a.rem &&
    (!a.outside || fnExists s a.fid) && (a.dstSp != 3 || hodPeerOk s a)

/-! ## GO (R453) -/

/-- May a vendor flow drive the channel: it holds it, or it is the lowest idle one in service that is not claimed? -/
def hodVendorMay (s : State) (c : Nat) (flow : Nat × Nat) : Bool :=
  hodServes s c && !hodClaimed s c &&
    ((getHod s c).flow == some flow ||
      (List.range 16).find? (fun k => hodServes s k && !hodClaimed s k && hodFree s k && (getHod s k).flow.isNone) == some c)

/-- GO on a channel whose shadow set is loaded with its fields. -/
def hodGo (s : State) (c : Nat) (vendor : Bool) : State :=
  let s := fset s (hodF HOD_STAT_DISCARDED c) 0
  let ws := hodShadow s c
  if !hodCheck s vendor (hodActOf ws) then hodResult s c 3
  else if (getHod s c).running || fget s (hodF HOD_STAT_PAUSED c) == 1 then
    hodResult (fset s (hodF HOD_STAT_LOADED c) 1) c 1
  else hodResult (hodStart s c ws) c 1

/-- HOD_GO: by the control PF on a claimed channel (`set` none: the shadow registers as they stand), or by a flow's message
with the eight words of a set, which waits until the tile's store buffer is empty (R221). -/
def execHodGo (c : Nat) (set : Option (List Word)) (tile ctx : Nat) (s : State) : Host.Outcome State Fault Refusal :=
  match set with
  | none =>
    if !hodServes s c || !hodClaimed s c then .next s
    else if fget s (hodF HOD_STAT_LOADED c) = 1 then .next (hodResult s c 2)
    else .next (hodGo s c false)
  | some ws =>
    if !hodVendorMay s c (tile, ctx) || !(getTile s tile).stores.isEmpty then .next s
    else if fget s (hodF HOD_STAT_LOADED c) = 1 then .next (hodResult s c 2)
    else
      let s := modHod s c fun h => { h with flow := some (tile, ctx) }
      let s := (List.range 8).foldl (fun s i => rset s (0x1180000 + 0x80 * c + 4 * i) (ws.getD i 0)) s
      .next (hodGo s c true)

/-! ## Moving bytes (R454) -/

/-- Does a transfer wait: Bus Master Enable 0, D3hot, or the port's link down? -/
def hodWaits (s : State) (a : HodAct) : Bool :=
  a.outside && (!(getFn s a.fid).live || fget s (HPT_LINK_DL_UP.ix a.port 0x1000) == 0)

/-- Write bytes to DRAM: no tile keeps an old copy of a line (R219). -/
def dramStore (s : State) (addr : Nat) (bs : List Byte) : State :=
  let hit := fun l => addr / 64 ≤ l && l ≤ (addr + bs.length - 1) / 64
  let s := if bs.isEmpty then s else (List.range 32).foldl (fun s t => cacheDrop s t hit) s
  modTrw s fun w => { w with dram := memWrite w.dram addr bs }

/-- The next `n` bytes of a transfer: read from its source (`host` brings those of a HOST source), written to its
destination, counted in the active set. -/
def hodMove (s : State) (c n : Nat) (host : List Byte) : State :=
  let a := (getHod s c).act
  let n := min n a.rem
  let (bs, s) := if a.srcSp = 0 then (memRead s.trw.dram a.src n, s)
    else if a.srcSp = 1 then (memRead s.trw.sram a.src n, s)
    else ((List.range n).map (fun i => host.getD i 0), hostGet s a.fid a.src n)
  let s := if a.dstSp = 0 then dramStore s a.dst bs
    else if a.dstSp = 1 then modTrw s fun w => { w with sram := memWrite w.sram a.dst bs }
    else if a.dstSp = 2 then hostPut s a.fid a.dst bs
    else if n = 0 then s else emit s (.peerWrite a.port ((hodWindow s a).base + a.dst) bs)
  let crc := if n = 0 then a.crc else crc32cFrom a.crc bs
  modHod s c fun h => { h with act := { a with src := a.src + n, dst := a.dst + n, rem := a.rem - n, crc := crc } }

/-- Does every write left of a PEER transfer stay in the window (R457)? -/
def hodInWindow (s : State) (a : HodAct) (n : Nat) : Bool :=
  a.dstSp != 3 || ((hodWindow s a).len != 0 && (hodWindow s a).port == a.port && a.dst + n ≤ (hodWindow s a).len)

/-- End a transfer WINDOW: source 0x3A0, code 0x0389. -/
def hodWindowEnd (s : State) (c : Nat) : State := hodEnd (dmkSend (raise s 0x3A0) 0x0389 0) c 5

/-- HOD_TRANSFER_END: a running transfer ends DONE (1), or after `n` bytes with SRC_ERR (3), DST_ERR (4) or TAG (6). One
whose writes would leave the window ends WINDOW instead. A pausing transfer that has issued its last write ends so too. -/
def execHodTransferEnd (c status n : Nat) (host : List Byte) (s : State) : Host.Outcome State Fault Refusal :=
  let h := getHod s c
  let st := fget s (hodF HOD_STAT_STATE c)
  if !h.running || !(st == 1 || st == 2 || (st == 3 && status != 1)) || hodWaits s h.act then .next s
  else if status = 1 then
    if !hodInWindow s h.act h.act.rem then .next (hodWindowEnd s c)
    else
      let s := hodMove s c h.act.rem host
      let a := (getHod s c).act
      .next (hodEnd (if a.fence && a.dstSp == 3 then emit s (.fenceRead a.port ((hodWindow s a).base + a.dst - 4)) else s) c 1)
  else if status = 3 then .next (if h.act.srcSp = 2 then hodEnd (hodMove s c n host) c 3 else s)
  else if status = 4 then
    if h.act.dstSp != 3 || !h.act.fence then .next s
    else
      let s := hodMove s c h.act.rem host
      let a := (getHod s c).act
      let s := emit s (.fenceRead a.port ((hodWindow s a).base + a.dst - 4))
      .next (hodEnd (dmkSend s 0x038A 0) c 4)
  else if status = 6 then .next (if h.act.srcSp = 1 || h.act.dstSp = 1 then hodEnd (hodMove s c n host) c 6 else s)
  else .next s

/-! ## PAUSE, RESUME, ABORT (R455) -/

/-- May the sender command the channel: the control PF a claimed one, a vendor flow another (R456)? -/
def hodMay (s : State) (c : Nat) (byCtl : Bool) : Bool := hodServes s c && hodClaimed s c == byCtl

/-- HOD_PAUSE. -/
def execHodPause (c : Nat) (byCtl : Bool) (s : State) : Host.Outcome State Fault Refusal :=
  if !hodMay s c byCtl then .next s
  else if fget s (hodF HOD_STAT_PAUSED c) = 1 || 2 ≤ fget s (hodF HOD_STAT_STATE c) then .next (hodResult s c 4)
  else if (getHod s c).running then .next (hodResult (fset s (hodF HOD_STAT_STATE c) 2) c 1)
  else .next (hodResult (fset s (hodF HOD_STAT_PAUSED c) 1) c 1)

/-- HOD_RESUME. -/
def execHodResume (c : Nat) (byCtl : Bool) (s : State) : Host.Outcome State Fault Refusal :=
  if !hodMay s c byCtl then .next s
  else if fget s (hodF HOD_STAT_PAUSED c) = 0 then .next (hodResult s c 4)
  else
    let s := hodResult (fset s (hodF HOD_STAT_PAUSED c) 0) c 1
    if (getHod s c).running then .next (fset s (hodF HOD_STAT_STATE c) 1)
    else if fget s (hodF HOD_STAT_LOADED c) = 1 then
      .next (hodStart (fset s (hodF HOD_STAT_LOADED c) 0) c (hodShadow s c))
    else .next (hodSettle s c)

/-- HOD_ABORT. -/
def execHodAbort (c : Nat) (byCtl : Bool) (s : State) : Host.Outcome State Fault Refusal :=
  if hodMay s c byCtl then .next (hodResult (hodAbort s c) c 1) else .next s

/-- HOD_DRAIN_END: the reads that a pausing or aborting transfer had issued have brought `n` bytes, short of all that is
left, and they are written; to a function in teardown nothing is (R458). -/
def execHodDrainEnd (c n : Nat) (host : List Byte) (s : State) : Host.Outcome State Fault Refusal :=
  let h := getHod s c
  let st := fget s (hodF HOD_STAT_STATE c)
  if !h.running || !(st == 2 || st == 3) || (st == 2 && h.act.rem ≤ n) then .next s
  else
    let gone := h.act.outside && 0 < (getFn s h.act.fid).teardown
    if !gone && !hodInWindow s h.act (min n h.act.rem) then .next (hodWindowEnd s c)
    else
      let s := if gone then s else hodMove s c n host
      if st = 2 then .next (fset (fset s (hodF HOD_STAT_STATE c) 0) (hodF HOD_STAT_PAUSED c) 1)
      else .next (hodEnd (fset s (hodF HOD_STAT_PAUSED c) 0) c 2)

/-! ## Claims and retirement (R450, R459) -/

/-- One bit of a write of HOD_OWN.CLAIM. -/
def hodClaimBit (s : State) (c : Nat) (want : Bool) : State :=
  if hodClaimed s c = want then s
  else if want then
    if hodServes s c && hodFree s c && fget s (hodF HOD_STAT_PAUSED c) == 0 && (getHod s c).flow.isNone then
      fsetBit s HOD_OWN_CLAIM c true
    else fset s HOD_OWN_REFUSED 1
  else if hodFree s c then fsetBit s HOD_OWN_CLAIM c false
  else fset (modHod s c fun h => { h with release := true }) HOD_OWN_REFUSED 1

/-- HOD_CLAIM: a write of HOD_OWN. -/
def execHodClaim (value : Word) (s : State) : Host.Outcome State Fault Refusal :=
  let claim := bitsGet value 0 16
  let vec := bitsGet value 16 6
  let s := if bitsGet value 22 1 = 1 then fset s HOD_OWN_REFUSED 0 else s
  let s := if vec = 0 then fset s HOD_STATUS_RSV_WRITE 1 else fset s HOD_OWN_VECTOR vec
  if 2 < popCount 16 claim || (List.range 16).any (fun c => claim / 2 ^ c % 2 == 1 && fbit s HOD_STATUS_RETIRED c) then
    .next (fset s HOD_STATUS_RSV_WRITE 1)
  else .next ((List.range 16).foldl (fun s c => hodClaimBit s c (claim / 2 ^ c % 2 == 1)) s)

/-- HOD_CHANNEL_RETIRE: channel `c` leaves service with source 0x390 + c and code 0x0388. A vendor flow's transfer and
LOADED shadow start again on another channel; one on a claimed channel ends CHAN_FAULT and the claim lapses. -/
def execHodChannelRetire (c : Nat) (s : State) : Host.Outcome State Fault Refusal :=
  if 16 ≤ c || fbit s HOD_STATUS_RETIRED c then .next s
  else
    let h := getHod s c
    let claimed := hodClaimed s c
    let loaded := if fget s (hodF HOD_STAT_LOADED c) = 1 then some (hodShadow s c) else none
    let s := dmkSend (raise (retireUnit (fsetBit s HOD_STATUS_RETIRED c true) (.hodChannel c)) (0x390 + c)) 0x0388 0
    let s := if h.running && claimed then hodEnd s c 7 else s
    let s := fsetBit (fset (fset s (hodF HOD_STAT_LOADED c) 0) (hodF HOD_STAT_STATE c) 4) HOD_OWN_CLAIM c false
    let s := modHod s c fun h => { h with running := false, flow := none, release := false }
    if h.running && !claimed then
      let s := { s with hod := { s.hod with waiting := s.hod.waiting ++ [(h.act.words, loaded, h.flow)] } }
      .next ((List.range 16).foldl (fun s k => if (getHod s k).flow.isNone then hodTake s k else s) s)
    else .next s

/-! ## PUSH (R144, R457) -/

/-- Send bytes to a window offset of a grant, then the fence read where the grant asks for it. -/
def pushBytes (s : State) (g : Grant) (off : Nat) (bs : List Byte) : State :=
  let s := emit s (.peerWrite g.port (g.base + off) bs)
  if g.fence then emit s (.fenceRead g.port (g.base + off + bs.length - 4)) else s

/-- A write that would leave the window: status 0x0303, source 0x3A0, code 0x0389. -/
def pushDenied (s : State) (seq : Nat) : State := setDone (dmkSend (raise s 0x3A0) 0x0389 0) seq 0x0303

/-- PUSH: the blocks are read as for a READ, and the first BUF0_LEN bytes go to offset BUF0 of the grant; RESULT is their
CRC-32C. It waits while no channel serves, while the function may not issue requests and while the grant's link is down.
`fenceOk` is the outcome of the fence read. -/
def execPush (seq : Nat) (bad : List BadBlock) (fenceOk : Bool) (s : State) : Host.Outcome State Fault Refusal :=
  match running s seq 0x20 with
  | none => .next s
  | some c =>
    if earlierChange s seq c then .next s
    else
      let ns := cmdNs s c
      let g := tget ({} : Grant) (getTen s c.tenant).grants c.sqe.pushIdx
      if !(List.range 16).any (fun k => hodServes s k && !hodClaimed s k) || !(getFn s c.fid).live ||
          fget s (HPT_LINK_DL_UP.ix g.port 0x1000) == 0 then .next s
      else
        let rs := readSpan s c.tenant c.sqe.nsid ns.pool c.sqe.slba (c.sqe.nlb + 1) bad
        let s := touchExtents (markSpan s c ns c.sqe.slba rs) c ns.pool
        if spanStatus rs ≠ 0 then .next (endRead s seq c rs)
        else if !grantHolds s c.tenant c.sqe then .next (pushDenied s seq)
        else
          let bs := (blockBytes (spanData rs)).take c.sqe.buf0Len
          let crc := (crc32c bs).toNat
          let s := pushBytes s g c.sqe.buf0 bs
          if g.fence && !fenceOk then .next (setDone (dmkSend s 0x038A 0) seq 0x0107 (some crc))
          else .next (setDone s seq (if c.sqe.itagChk && crc ≠ c.sqe.itag then 0x0109 else 0) (some crc))

end Sys2Proof.Machine
end

