-- ==== Sys2Proof/Machine/Disk.lean ====
section
/-!
DEFINITION. Machine/Disk.lean: what the read channels, the servo unit and the spindle unit share
(11_read_channel.md): the zone table's arithmetic, the serial link's queue, the write gate and its early drops, the end
of an operation, the heater, the retirement of a data path.
-/

namespace Sys2Proof.Machine

def getRdc (s : State) (a : Nat) : RdChan := tget {} s.rdc a

def modRdc (s : State) (a : Nat) (f : RdChan → RdChan) : State := { s with rdc := tmod {} s.rdc a f }

/-- Field of actuator `a`'s RDC_ registers (R359). -/
def rdcF (f : Fld) (a : Nat) : Fld := f.ix a 0x4000

/-- Field of actuator `a`'s SRV_ registers (R408). -/
def srvF (f : Fld) (a : Nat) : Fld := f.ix a 0x1000

/-- The zone table of an HDA (R337). -/
def hdaTable (s : State) (h : Nat) : ZoneTable :=
  match (image s).zones.hmap.getD h none with
  | some t => (image s).zones.tables.getD t {}
  | none => {}

def hdaPresent (s : State) (h : Nat) : Bool := (image s).platform.hdaPresent.getD h false

/-- Zone record and number of a band of actuator `a`. -/
def actZone (s : State) (a band : Nat) : Nat × ZoneRec :=
  let t := hdaTable s (a / 2)
  let z := (bandZone t t.zones.length 0 band).1
  (z, t.zones.getD z {})

/-- Cylinder and head of fragment `k` of a band (R339). -/
def fragPlace (s : State) (a band k : Nat) : Nat × Nat :=
  let t := hdaTable s (a / 2)
  let tr := k / max 1 (zoneFpt (actZone s a band).2)
  (bandFirstCyl t band + tr / max 1 t.heads, tr % max 1 t.heads)

/-- Physical slot of logical sector `j` of a track: defective slots in force are passed over (R349). -/
def slipSlot (slips : List (Nat × Bool)) (cyl head spt j : Nat) : Nat :=
  (((List.range spt).filter fun i => !(slips.contains (sectorPos cyl head i, true)))[j]?).getD j

/-- Sector of unit `i` of an operation's fragment. -/
def unitSector (s : State) (a : Nat) (o : DiskOp) (i : Nat) : Nat :=
  let z := (actZone s a o.band).2
  let (cyl, head) := fragPlace s a o.band o.frag
  sectorPos cyl head (slipSlot (getRdc s a).slips cyl head z.spt (o.frag % max 1 (zoneFpt z) * z.frag + i))

/-- Key of a fragment on an actuator's platters. -/
def platterKey (a band frag : Nat) : Nat := (a * 2 ^ 24 + band) * 2 ^ 12 + frag

/-! ## States -/

/-- Is the data path in service: powered and not retired? -/
def rdcServes (s : State) (a : Nat) : Bool :=
  let st := fget s (rdcF RDC_ACT_STATE_STATE a)
  st != 0 && st != 1 && st != 6

def rdcFenced (s : State) : Bool := fget s RDC_STATUS_FENCED == 1

/-- The heads are loaded: the servo is in SEEK, SETTLE, FOLLOW or RECOVER (Table 13-4). -/
def headsOn (s : State) (a : Nat) : Bool :=
  let st := fget s (srvF SRV_ACT_STATE a)
  5 ≤ st && st ≤ 8

/-- RDC_ACT_STATE.STATE as the operation and calibration under way make it. -/
def showRdc (s : State) (a : Nat) : State :=
  let r := getRdc s a
  if !rdcServes s a || rdcFenced s then s
  else fset s (rdcF RDC_ACT_STATE_STATE a)
    (if r.calRun.isSome then 5 else match r.run with | some o => if o.write then 4 else 3 | none => 2)

/-! ## Serial frames (R334, R336) -/

def pushFrame (s : State) (a : Nat) (f : Frame) : State := modRdc s a fun r => { r with frames := r.frames ++ [f] }

/-- Ask for a MODE: class 1 after a fault, an inhibit or a fence, else class 2. -/
def setMode (s : State) (a m : Nat) (urgent : Bool := false) : State :=
  pushFrame s a { cls := if urgent then 1 else 2, addr := 1, data := some m }

/-- Is a frame waiting that writes this register? -/
def framePending (s : State) (a addr : Nat) : Bool :=
  (getRdc s a).frames.any fun f => f.addr == addr

/-- Last verified value of a preamplifier register. -/
def paReg (s : State) (a addr : Nat) : Option Nat :=
  match tget 0 (getRdc s a).regs addr with | 0 => none | v + 1 => some v

/-- Link initialisation (R335, R336): ID, FMASK and its read-back, then SLEEP. The frames wait in class 4 but for
MODE. -/
def linkInit (s : State) (a : Nat) : State :=
  let s := pushFrame s a { cls := 4, addr := 0, why := .ident }
  let s := pushFrame s a { cls := 4, addr := 7, data := some 0x5F }
  setMode s a 0

/-! ## Heater (R353) -/

/-- The heater code for a head, from T in 1/16 °C. -/
def heatCode (s : State) (a head : Nat) (write : Bool) : Nat :=
  let e := (hdaTable s (a / 2)).headRecs.getD head {}
  let base : Int := if write then e.writeHeat else e.readHeat
  (min 1023 (max 0 (base + (e.slope * ((getRdc s a).temp - 640)).fdiv 256))).toNat

/-- Ask for a heater code. -/
def pushHeat (s : State) (a head code : Nat) : State :=
  pushFrame s a { cls := 3, addr := 0x10 + head, data := some code }

/-- Turn the heater that is on off. -/
def heaterOff (s : State) (a : Nat) : State :=
  match (getRdc s a).heatHead with
  | some h => if (getRdc s a).heatCode = 0 then s else pushHeat s a h 0
  | none => s

/-! ## The end of an operation (R347) -/

/-- FAIL bits of a list of units. -/
def failMap (us : List Nat) : Nat := us.foldl (fun m i => m + 2 ^ i) 0

/-- Post a completion. -/
def postDisk (s : State) (a : Nat) (o : DiskOp) (status fail : Nat) : State :=
  emit (modRdc s a fun r => { r with done := r.done ++ [{ reply := o.reply, write := o.write, status := status, fail := fail }] })
    (.mediaDone (0x600 + a) o.reply status)

/-- The running operation ends: MODE returns to SERVO. -/
def finishDisk (s : State) (a : Nat) (o : DiskOp) (status fail : Nat) (urgent : Bool := false) : State :=
  let s := postDisk s a o status fail
  let s := modRdc s a fun r => { r with run := none, gate := false, idleNs := s.tb.ns }
  showRdc (setMode s a 2 urgent) a

/-- Units of a WRITE from `o.next` on are not written. -/
def unwritten (s : State) (a : Nat) (o : DiskOp) : List Nat :=
  (List.range (actZone s a o.band).2.frag).filter (o.next ≤ ·)

/-- Write `n` further sectors of a WRITE from its staging slots. -/
def writeSectors (s : State) (a : Nat) (o : DiskOp) (n : Nat) : State :=
  let f := (actZone s a o.band).2.frag
  let last := min f (o.next + n)
  let key := platterKey a o.band o.frag
  let old := tget [] s.nv.platter key
  let new := (List.range f).map fun i =>
    if o.next ≤ i && i < last then tget 0 (getRdc s a).staging (o.slot0 + i) else old.getD i 0
  let s := { s with nv := { s.nv with platter := tset [] s.nv.platter key new } }
  modRdc s a fun r => { r with run := some { o with next := last, waitNs := none } }

/-- End a calibration (R354 to R356): the result, Daymark 0x0603, source k = 5 when it was aborted; a latched request
follows. -/
def endCal (s : State) (a proc head zone result : Nat) : State :=
  let s := fset s (rdcF RDC_CAL_STAT_RESULT a) result
  let s := fset s (rdcF RDC_CAL_STAT_PROC a) proc
  let s := fset s (rdcF RDC_CAL_STAT_HEAD a) head
  let s := fset s (rdcF RDC_CAL_STAT_ZONE a) zone
  let s := dmkSend s 0x0603 (a + result * 32)
  let s := if result = 1 then s else raise s (0x605 + 16 * a) (a + result * 32)
  let s := modRdc s a fun r => { r with calRun := r.calNext, calNext := none, gate := false }
  let s := fset s (rdcF RDC_CAL_STAT_BUSY a) (b2n (getRdc s a).calRun.isSome)
  showRdc (fset s (rdcF RDC_CAL_STAT_PEND a) 0) a

/-- A calibration that runs ends with `result` where one runs. -/
def abortCal (s : State) (a result : Nat) : State :=
  match (getRdc s a).calRun with
  | some (p, h, z) => endCal s a p h z result
  | none => s

/-- The gate falls early (R352, Table 11-10): the running WRITE ends with `status`; after a fence or a speed excursion the
sector in progress is completed first. Status priority is WRITE_FAULT, WRITE_INHIBIT, ABORTED: the first cause ends the
write, so no later one finds the gate. -/
def dropGate (s : State) (a status : Nat) (afterSector : Bool := false) : State :=
  let r := getRdc s a
  if !r.gate then s
  else match r.run with
    | some o =>
      if !o.write then s
      else
        let s := if afterSector then writeSectors s a o 1 else s
        let o := (getRdc s a).run.getD o
        let s := finishDisk s a o status (failMap (unwritten s a o)) true
        if status = 0x21 then raise (fbump s (rdcF RDC_ERR_CNT1_WINHIB a)) (0x603 + 16 * a) else s
    | none => setMode (abortCal s a 4) a 2 true

/-- Every operation of an actuator ends with `status`. -/
def endAllOps (s : State) (a status : Nat) : State :=
  let s := match (getRdc s a).run with
    | some o => finishDisk s a o status (failMap (if o.write then unwritten s a o else o.left)) true
    | none => s
  let q := (getRdc s a).queue
  let s := modRdc s a fun r => { r with queue := [] }
  q.foldl (fun s o => postDisk s a o status
    (failMap (if o.write then List.range (actZone s a o.band).2.frag else List.range o.count))) s

/-- R357: the data path of actuator `a` leaves service: operations end ACT_RETIRED, rebuild starts, Daymark 0x0601. The
unload of its heads is the servo unit's. -/
def retirePath (s : State) (a : Nat) : State :=
  let s := abortCal s a 6
  let s := endAllOps s a 0x41
  let s := fset s (rdcF RDC_ACT_STATE_STATE a) 6
  let s := fsetBit s RDC_RETIRED_RETIRED a true
  let s := modRdc s a fun r => { r with gate := false, calNext := none, calDue := [], queue := [], run := none }
  let s := modPwr s fun p => { p with retired := if p.retired.contains (.dataPath a) then p.retired
                                      else p.retired ++ [.dataPath a] }
  minWatch (dmkSend (memberGone s true (a / 2) (some (a % 2))) 0x0601 a)

/-- The domain powers off once nothing needs the servo lanes: the heads are unloaded (R357). -/
def rdcPowerOff (s : State) (a : Nat) : State :=
  if isRetired s (.dataPath a) then setPdOn s (135 + a) false else s

end Sys2Proof.Machine
end

