-- ==== Sys2Proof/Machine/Float.lean ====
section
/-!
DEFINITION. Machine/Float.lean: Lantern's binary32 arithmetic (R376, R377): IEEE 754-2019 with roundTiesToEven,
subnormals or FTZ, tininess after rounding, the five flags, one NaN. Every finite value is an integer number of
2^-149, so sums, products and FMAs are exact integers before their one rounding.
-/

namespace Sys2Proof.Machine

def FpFlags.or (a b : FpFlags) : FpFlags :=
  { nv := a.nv || b.nv, dz := a.dz || b.dz, of_ := a.of_ || b.of_, uf := a.uf || b.uf, nx := a.nx || b.nx }

/-- Sign, exponent field, fraction field. -/
def fpSign (w : Word) : Bool := w.toNat / 2 ^ 31 == 1
def fpExp (w : Word) : Nat := w.toNat / 2 ^ 23 % 256
def fpFrac (w : Word) : Nat := w.toNat % 2 ^ 23

def fpNaN (w : Word) : Bool := fpExp w == 255 && fpFrac w != 0
def fpInf (w : Word) : Bool := fpExp w == 255 && fpFrac w == 0
def fpZero (w : Word) : Bool := w.toNat % 2 ^ 31 == 0
def fpSub (w : Word) : Bool := fpExp w == 0 && fpFrac w != 0

/-- A signalling NaN: the top fraction bit is 0. -/
def fpSNaN (w : Word) : Bool := fpNaN w && fpFrac w < 2 ^ 22
def fpFinite (w : Word) : Bool := fpExp w != 255

/-- The default NaN (R376). -/
def qNaN : Word := 0x7FC00000

def fpPack (neg : Bool) (mag : Nat) : Word := BitVec.ofNat 32 (mag + (if neg then 2 ^ 31 else 0))

/-- +∞ or −∞. -/
def fpInfOf (neg : Bool) : Word := fpPack neg 0x7F800000

/-- Magnitude of a finite value in units of 2^-149. -/
def fpMag (w : Word) : Nat := if fpExp w = 0 then fpFrac w else (2 ^ 23 + fpFrac w) * 2 ^ (fpExp w - 1)

/-- A finite value in units of 2^-149. -/
def fpVal (w : Word) : Int := if fpSign w then -(fpMag w : Int) else fpMag w

/-- The exact value of a finite word. -/
def fpRat (w : Word) : Rat := (fpVal w : Rat) / ((2 ^ 149 : Nat) : Rat)

/-- Drop `q` low bits of `n`, rounding to nearest, ties to even; `sticky` says the true value lies above `n`. The second
part says whether anything was lost. -/
def roundBits (n q : Nat) (sticky : Bool) : Nat × Bool :=
  let m := n / 2 ^ q
  let r := n % 2 ^ q
  let up := if q = 0 then false
    else if 2 * r > 2 ^ q then true
    else if 2 * r = 2 ^ q then sticky || m % 2 == 1
    else false
  (if up then m + 1 else m, r != 0 || sticky)

/-- Encode a magnitude of `k` units of 2^-149 that has at most 24 significant bits. -/
def encodeMag (k : Nat) : Nat :=
  if k < 2 ^ 23 then k
  else
    let e := Nat.log2 k - 22
    e * 2 ^ 23 + (k / 2 ^ (e - 1) - 2 ^ 23)

/-- Round `n` × 2^-u (with `u` at least 149; `sticky` adds a positive amount below one unit) to binary32 (R376). -/
def fpRound (ftz neg : Bool) (n u : Nat) (sticky : Bool) : Word × FpFlags :=
  if n = 0 && !sticky then (fpPack neg 0, {})
  else
    let q := max (Nat.log2 n - 23) (u - 149)
    let (m, lost) := roundBits n q sticky
    let k := m * 2 ^ (q - (u - 149))
    -- tininess is judged after rounding to 24 bits with no bound on the exponent
    let q0 := Nat.log2 n - 23
    let tiny := decide ((roundBits n q0 sticky).1 * 2 ^ q0 < 2 ^ (u - 126))
    if 2 ^ 277 ≤ k then (fpInfOf neg, { of_ := true, nx := true })
    else if ftz && k != 0 && decide (k < 2 ^ 23) then (fpPack neg 0, { uf := true, nx := true })
    else if ftz && k = 0 then (fpPack neg 0, { uf := true, nx := true })
    else (fpPack neg (encodeMag k), { uf := tiny && lost, nx := lost })

/-- A subnormal operand is a zero of its sign under FTZ. -/
def fpIn (ftz : Bool) (w : Word) : Word := if ftz && fpSub w then fpPack (fpSign w) 0 else w

/-- Flags that NaN operands raise, and the NaN result. -/
def fpNaNResult (ws : List Word) (inv : Bool := false) : Word × FpFlags :=
  (qNaN, { nv := inv || ws.any fpSNaN })

/-- −A with no flag (R376). -/
def fpFlip (w : Word) : Word := if fpNaN w then qNaN else fpPack (!fpSign w) (w.toNat % 2 ^ 31)

/-- An exact sum of `v` units of 2^-u, zero with the sign `zneg`. -/
def fpExact (ftz : Bool) (v : Int) (u : Nat) (zneg : Bool) : Word × FpFlags :=
  if v = 0 then (fpPack zneg 0, {}) else fpRound ftz (decide (v < 0)) v.natAbs u false

/-- A × B + C with one rounding (R364). -/
def fpFma (ftz : Bool) (a0 b0 c0 : Word) : Word × FpFlags :=
  let a := fpIn ftz a0
  let b := fpIn ftz b0
  let c := fpIn ftz c0
  let inv := (fpInf a && fpZero b) || (fpZero a && fpInf b)
  let ps := fpSign a != fpSign b
  if fpNaN a || fpNaN b || fpNaN c then fpNaNResult [a0, b0, c0] inv
  else if inv then fpNaNResult [] true
  else if fpInf a || fpInf b then
    (if fpInf c && fpSign c != ps then fpNaNResult [] true else (fpInfOf ps, {}))
  else if fpInf c then (c, {})
  else fpExact ftz (fpVal a * fpVal b + fpVal c * ((2 ^ 149 : Nat) : Int)) 298
    (ps && fpSign c)

/-- A × B. -/
def fpMul (ftz : Bool) (a0 b0 : Word) : Word × FpFlags :=
  let a := fpIn ftz a0
  let b := fpIn ftz b0
  let ps := fpSign a != fpSign b
  if fpNaN a || fpNaN b then fpNaNResult [a0, b0]
  else if (fpInf a && fpZero b) || (fpZero a && fpInf b) then fpNaNResult [] true
  else if fpInf a || fpInf b then (fpInfOf ps, {})
  else fpExact ftz (fpVal a * fpVal b) 298 ps

/-- A + B. -/
def fpAdd (ftz : Bool) (a0 b0 : Word) : Word × FpFlags :=
  let a := fpIn ftz a0
  let b := fpIn ftz b0
  if fpNaN a || fpNaN b then fpNaNResult [a0, b0]
  else if fpInf a then (if fpInf b && fpSign a != fpSign b then fpNaNResult [] true else (a, {}))
  else if fpInf b then (b, {})
  else fpExact ftz (fpVal a + fpVal b) 149 (fpSign a && fpSign b)

/-- A − B. -/
def fpSubt (ftz : Bool) (a b : Word) : Word × FpFlags :=
  if fpNaN b then fpNaNResult [a, b] else fpAdd ftz a (fpFlip b)

/-- A ÷ B. -/
def fpDiv (ftz : Bool) (a0 b0 : Word) : Word × FpFlags :=
  let a := fpIn ftz a0
  let b := fpIn ftz b0
  let s := fpSign a != fpSign b
  if fpNaN a || fpNaN b then fpNaNResult [a0, b0]
  else if fpInf a then (if fpInf b then fpNaNResult [] true else (fpInfOf s, {}))
  else if fpInf b then (fpPack s 0, {})
  else if fpZero b then
    (if fpZero a then fpNaNResult [] true else (fpInfOf s, { dz := true }))
  else
    let n := fpMag a * 2 ^ 480
    fpRound ftz s (n / fpMag b) 480 (n % fpMag b != 0)

/-- Integer square root by bits, from bit `k` down. -/
def isqrtBits (n : Nat) : Nat → Nat → Nat
  | 0, r => r
  | k + 1, r => let r' := r + 2 ^ k; isqrtBits n k (if r' * r' ≤ n then r' else r)

def isqrt (n : Nat) : Nat := isqrtBits n (Nat.log2 n / 2 + 1) 0

/-- √A. -/
def fpSqrt (ftz : Bool) (a0 : Word) : Word × FpFlags :=
  let a := fpIn ftz a0
  if fpNaN a then fpNaNResult [a0]
  else if fpZero a then (a, {})
  else if fpSign a then fpNaNResult [] true
  else if fpInf a then (a, {})
  else
    let n := fpMag a * 2 ^ 251
    let r := isqrt n
    fpRound ftz false r 200 (r * r != n)

/-- Is A below B, for two that are not NaN (−0 below +0, R376)? -/
def fpBelow (a b : Word) : Bool :=
  if fpSign a then (if fpSign b then decide (b.toNat < a.toNat) else true)
  else if fpSign b then false else decide (a.toNat < b.toNat)

/-- minimum and maximum of IEEE 754-2019. -/
def fpMin (ftz : Bool) (a0 b0 : Word) : Word × FpFlags :=
  let a := fpIn ftz a0
  let b := fpIn ftz b0
  if fpNaN a || fpNaN b then fpNaNResult [a0, b0] else (if fpBelow b a then b else a, {})

def fpMax (ftz : Bool) (a0 b0 : Word) : Word × FpFlags :=
  let a := fpIn ftz a0
  let b := fpIn ftz b0
  if fpNaN a || fpNaN b then fpNaNResult [a0, b0] else (if fpBelow a b then b else a, {})

/-- |A|, −A and A: no flag but NV for a signalling NaN. -/
def fpAbs (ftz : Bool) (a0 : Word) : Word × FpFlags :=
  let a := fpIn ftz a0
  if fpNaN a then fpNaNResult [a] else (fpPack false (a.toNat % 2 ^ 31), {})

def fpNeg (ftz : Bool) (a0 : Word) : Word × FpFlags :=
  let a := fpIn ftz a0
  if fpNaN a then fpNaNResult [a] else (fpFlip a, {})

def fpMov (ftz : Bool) (a0 : Word) : Word × FpFlags :=
  let a := fpIn ftz a0
  if fpNaN a then fpNaNResult [a] else (a, {})

/-- SEL: B when A ≥ 0 (−0 included), else C; a NaN in A selects C and raises NV. -/
def fpSel (ftz : Bool) (a0 b c : Word) : Word × FpFlags :=
  let a := fpIn ftz a0
  let (r, fl) := fpMov ftz (if fpNaN a then c else if fpSign a && !fpZero a then c else b)
  (r, { fl with nv := fl.nv || fpNaN a })

/-- min(max(A, B), C). -/
def fpClamp (ftz : Bool) (a b c : Word) : Word × FpFlags :=
  let (m, f1) := fpMax ftz a b
  let (r, f2) := fpMin ftz m c
  (r, f1.or f2)

/-- A rational rounded to the nearest binary32, ties to even: the form in which the servo and spindle units give their
quantities to a task (R366; the chapters state no other rounding). -/
def ratToFp (x : Rat) : Word :=
  let n := x.num.natAbs * 2 ^ 320
  (fpRound false (decide (x < 0)) (n / x.den) 320 (n % x.den != 0)).1

end Sys2Proof.Machine
end

