-- ==== Sys2Proof/Machine/Graph.lean ====
section
/-!
DEFINITION. Machine/Graph.lean: Lantern's tasks and graphs (12_lantern_engine.md): the meaning of each node on an
instance's working copy, the start, commit, miss and deadline of an instance, enabling, coefficient words, cores.
-/

namespace Sys2Proof.Machine

def modLtn (s : State) (f : Lantern → Lantern) : State := { s with ltn := f s.ltn }

def getTask (s : State) (t : Nat) : Task := tget {} s.ltn.tasks t

def modTask (s : State) (t : Nat) (f : Task → Task) : State :=
  modLtn s fun l => { l with tasks := tmod {} l.tasks t f }

/-- The task's entry of the image (Table 12-3), absent where its HDA has been shed. -/
def taskEnt (s : State) (t : Nat) : TaskEnt := (image s).lantern.tasks.getD t {}

def graphOf (s : State) (t : Nat) : GraphRec := (image s).lantern.graphs.getD (taskEnt s t).graph {}

/-- HDA that a task serves (Table 12-1). -/
def taskHda (t : Nat) : Nat := if t < 32 then t / 2 else if t < 64 then (t - 32) / 2 else if t < 80 then t - 64 else t - 80

/-- The six tasks of an HDA. -/
def hdaTasks (h : Nat) : List Nat := [2 * h, 2 * h + 1, 32 + 2 * h, 33 + 2 * h, 64 + h, 80 + h]

/-- The coefficient in force. -/
def coefWord (s : State) (t i : Nat) : Word :=
  (tget none (getTask s t).coefs i).getD ((graphOf s t).coefs.getD i 0)

def taskFtz (s : State) (t : Nat) : Bool := (getTask s t).ftz.getD (taskEnt s t).ftz

/-- Set an input of a task. -/
def setIn (s : State) (t slot : Nat) (w : Word) : State := modTask s t fun k => { k with ins := tset 0 k.ins slot w }

/-! ## Nodes (R363, R364, R371) -/

/-- A node operand: a value slot or a coefficient. -/
def Inst.opnd (i : Inst) (coef : Nat → Word) (w : Nat) : Word :=
  if 256 ≤ w then coef (w - 256) else tget 0 i.work w

/-- Write a slot of the working copy and collect flags. -/
def Inst.put (i : Inst) (slot : Nat) (r : Word × FpFlags) : Inst :=
  { i with work := tset 0 i.work slot r.1, flags := i.flags.or r.2 }

def nodeAdd (n : NodeWord) (coef : Nat → Word) (i : Inst) : Inst :=
  i.put n.dst (fpAdd i.ftz (i.opnd coef n.a) (i.opnd coef n.b))

def nodeSub (n : NodeWord) (coef : Nat → Word) (i : Inst) : Inst :=
  i.put n.dst (fpSubt i.ftz (i.opnd coef n.a) (i.opnd coef n.b))

def nodeMul (n : NodeWord) (coef : Nat → Word) (i : Inst) : Inst :=
  i.put n.dst (fpMul i.ftz (i.opnd coef n.a) (i.opnd coef n.b))

def nodeFma (n : NodeWord) (coef : Nat → Word) (i : Inst) : Inst :=
  i.put n.dst (fpFma i.ftz (i.opnd coef n.a) (i.opnd coef n.b) (i.opnd coef n.c))

def nodeDiv (n : NodeWord) (coef : Nat → Word) (i : Inst) : Inst :=
  i.put n.dst (fpDiv i.ftz (i.opnd coef n.a) (i.opnd coef n.b))

def nodeSqrt (n : NodeWord) (coef : Nat → Word) (i : Inst) : Inst := i.put n.dst (fpSqrt i.ftz (i.opnd coef n.a))

def nodeMin (n : NodeWord) (coef : Nat → Word) (i : Inst) : Inst :=
  i.put n.dst (fpMin i.ftz (i.opnd coef n.a) (i.opnd coef n.b))

def nodeMax (n : NodeWord) (coef : Nat → Word) (i : Inst) : Inst :=
  i.put n.dst (fpMax i.ftz (i.opnd coef n.a) (i.opnd coef n.b))

def nodeAbs (n : NodeWord) (coef : Nat → Word) (i : Inst) : Inst := i.put n.dst (fpAbs i.ftz (i.opnd coef n.a))

def nodeNeg (n : NodeWord) (coef : Nat → Word) (i : Inst) : Inst := i.put n.dst (fpNeg i.ftz (i.opnd coef n.a))

def nodeMov (n : NodeWord) (coef : Nat → Word) (i : Inst) : Inst := i.put n.dst (fpMov i.ftz (i.opnd coef n.a))

def nodeSel (n : NodeWord) (coef : Nat → Word) (i : Inst) : Inst :=
  i.put n.dst (fpSel i.ftz (i.opnd coef n.a) (i.opnd coef n.b) (i.opnd coef n.c))

def nodeClamp (n : NodeWord) (coef : Nat → Word) (i : Inst) : Inst :=
  i.put n.dst (fpClamp i.ftz (i.opnd coef n.a) (i.opnd coef n.b) (i.opnd coef n.c))

/-- R371: LIM limits A to [−B, +B]; a negative B counts as +0; an input outside sets SAT with the sign of the excess, the
first such node's sign being kept. -/
def nodeLim (n : NodeWord) (coef : Nat → Word) (i : Inst) : Inst :=
  let a := fpIn i.ftz (i.opnd coef n.a)
  let b0 := fpIn i.ftz (i.opnd coef n.b)
  let b := if fpSign b0 && !fpNaN b0 then 0 else b0
  let low := !fpNaN a && !fpNaN b && fpBelow a (fpFlip b)
  let high := !fpNaN a && !fpNaN b && fpBelow b a
  let (m, f1) := fpMax i.ftz a (fpFlip b)
  let (r, f2) := fpMin i.ftz m b
  let j := i.put n.dst (r, f1.or f2)
  { j with sat := j.sat <|> (if low then some true else if high then some false else none) }

/-- BIQ: a transposed direct form II section. -/
def nodeBiq (n : NodeWord) (coef : Nat → Word) (i : Inst) : Inst :=
  let c := fun k => coef (n.b % 256 + k)
  let x := i.opnd coef n.a
  let (y, f1) := fpFma i.ftz (c 0) x (tget 0 i.work n.aux)
  let (t, f2) := fpFma i.ftz (c 1) x (tget 0 i.work (n.aux + 1))
  let (s1, f3) := fpFma i.ftz (fpFlip (c 3)) y t
  let (u, f4) := fpMul i.ftz (c 4) y
  let (s2, f5) := fpFma i.ftz (c 2) x (fpFlip u)
  ((i.put n.aux (s1, f1.or (f2.or f3))).put (n.aux + 1) (s2, f4.or f5)).put n.dst (y, {})

/-- INTEG with anti-windup on the SAT of the last committed instance (`sat`, its sign `neg`). -/
def nodeInteg (n : NodeWord) (coef : Nat → Word) (sat neg : Bool) (i : Inst) : Inst :=
  let a := i.opnd coef n.a
  let b := i.opnd coef n.b
  let st := tget 0 i.work n.aux
  if n.aw && sat && !fpNaN a && !fpNaN b && (fpSign a != fpSign b) == neg then i.put n.dst (st, {})
  else
    let (f, f1) := fpFma i.ftz a b st
    let (r, f2) := fpClamp i.ftz f (coef (n.c % 256)) (coef (n.c % 256 + 1))
    (i.put n.aux (r, f1.or f2)).put n.dst (r, {})

/-- DOT: a MUL, then FMAs in ascending order. -/
def dotFrom (i : Inst) (coef : Nat → Word) (a b : Nat) : Nat → Word × FpFlags
  | 0 => (0, {})
  | 1 => fpMul i.ftz (coef b) (tget 0 i.work a)
  | k + 1 =>
    let (p, f) := dotFrom i coef a b k
    let (r, g) := fpFma i.ftz (coef (b + k)) (tget 0 i.work (a + k)) p
    (r, f.or g)

def nodeDot (n : NodeWord) (coef : Nat → Word) (i : Inst) : Inst :=
  i.put n.dst (dotFrom i coef n.a (n.b % 256) n.aux)

/-- OUT holds a value for an output port until the deadline. -/
def nodeOut (n : NodeWord) (coef : Nat → Word) (i : Inst) : Inst :=
  let (r, f) := fpMov i.ftz (i.opnd coef n.a)
  { i with outs := tset 0xFFFFFFFF i.outs n.aux r, flags := i.flags.or f }

/-- One node by its operation code (Table 12-6). -/
def nodeStep (k : Task) (coef : Nat → Word) (n : NodeWord) (i : Inst) : Inst :=
  let j := match n.op with
    | 0x01 => nodeAdd n coef i
    | 0x02 => nodeSub n coef i
    | 0x03 => nodeMul n coef i
    | 0x04 => nodeFma n coef i
    | 0x05 => nodeDiv n coef i
    | 0x06 => nodeSqrt n coef i
    | 0x07 => nodeMin n coef i
    | 0x08 => nodeMax n coef i
    | 0x09 => nodeAbs n coef i
    | 0x0A => nodeNeg n coef i
    | 0x0B => nodeMov n coef i
    | 0x0C => nodeSel n coef i
    | 0x0D => nodeClamp n coef i
    | 0x0E => nodeLim n coef i
    | 0x10 => nodeBiq n coef i
    | 0x11 => nodeInteg n coef k.sat k.satNeg i
    | 0x12 => nodeDot n coef i
    | 0x20 => nodeOut n coef i
    | _ => i
  { j with node := i.node + 1 }

/-- Execute the next node of a task's instance if it is an `op`: the graph decides which node that is (R364). -/
def runNode (s : State) (t op : Nat) : State :=
  match (getTask s t).run with
  | none => s
  | some i =>
    if i.committed then s
    else match (graphOf s t).nodes[i.node]? with
      | none => s
      | some n =>
        if n.op = op then
          modTask s t fun k => { k with run := some (nodeStep k (coefWord s t) n i) }
        else s

/-! ## Instances (R367 to R370) -/

/-- A coefficient word takes effect. -/
def applyCoef (s : State) (t i : Nat) (v : Word) (sample : Nat) : State :=
  modTask s t fun k => { k with coefs := tset none k.coefs i (some v), lastSample := sample }

/-- At the start of an instance its task takes its own oldest queued word (R374). -/
def takeCoef (s : State) (t : Nat) : State :=
  match s.ltn.queue.find? (fun e => e.1 == t) with
  | none => s
  | some (_, i, v) =>
    let s := modLtn s fun l => { l with queue := l.queue.erase (t, i, v) }
    applyCoef s t i v ((getTask s t).sample)

/-- Words of a task that is not enabled are applied without waiting for an instance. -/
def drainCoefs (s : State) (t : Nat) : State :=
  if (getTask s t).enabled || (getTask s t).run.isSome then s
  else
    let mine := s.ltn.queue.filter fun e => e.1 == t
    let s := modLtn s fun l => { l with queue := l.queue.filter fun e => e.1 != t }
    mine.foldl (fun s e => applyCoef s t e.2.1 e.2.2 ((getTask s t).sample + 1)) s

/-- R368: an instance starts: the sample count, one coefficient word, the inputs. -/
def startInstance (s : State) (t trig : Nat) : State :=
  let s := modTask s t fun k => { k with sample := (k.sample + 1) % 2 ^ 32, due := none }
  let s := takeCoef s t
  let k := getTask s t
  modTask s t fun _ => { k with
    run := some { deadline := trig + (taskEnt s t).deadline, started := s.tb.ns, ftz := taskFtz s t,
                  work := (k.ins.filter fun e => e.1 < 16) ++ k.slots } }

/-- What a miss does in Lantern itself (R369, R370). -/
def missCore (s : State) (t : Nat) : State :=
  let k := getTask s t
  let consec := min (k.consec + 1) 3
  let third := k.consec < 3 && consec == 3
  let s := modTask s t fun k =>
    { k with run := none, missBit := true, consec := consec, misses := min (k.misses + 1) 65535, goodRun := 0,
             missRun := k.missRun + 1,
             poison := false,
             flags := match k.run with | some i => k.flags.or i.flags | none => k.flags }
  let s := drainCoefs s t
  if third then dmkSend (raise s (0x820 + t)) 0x0803 0 else s

/-- May what an instance would commit be committed (R369)? -/
def Inst.finite (i : Inst) : Bool :=
  i.outs.all (fun e => fpFinite e.2) && (i.work.filter fun e => 16 ≤ e.1 && e.1 < 64).all fun e => fpFinite e.2

/-- END has completed: commit, or discard for a non-finite value. The second part says that it was a miss. -/
def commitCore (s : State) (t : Nat) : State × Bool :=
  let k := getTask s t
  match k.run with
  | none => (s, false)
  | some i =>
    if i.committed then (s, false)
    else if k.poison then (missCore s t, true)
    else if i.finite then
      let s := modTask s t fun k => { k with
        slots := i.work.filter fun e => 16 ≤ e.1 && e.1 < 64
        run := some { i with committed := true }
        consec := 0
        missRun := 0
        goodRun := k.goodRun + 1
        flags := k.flags.or i.flags
        sat := i.sat.isSome
        satNeg := i.sat.getD false
        satInst := if i.sat.isSome then min (k.satInst + 1) 65535 else k.satInst
        execMax := max k.execMax (min ((s.tb.ns - i.started) / 10) 65535) }
      if k.inhibit && 16 ≤ k.goodRun + 1 then
        (dmkSend (modTask s t fun k => { k with inhibit := false }) 0x0804 0, false)
      else (s, false)
    else (missCore (modTask s t fun k => { k with nonfin := true }) t, true)

/-- The rest of an instance's nodes up to END. -/
def runNodes (k : Task) (coef : Nat → Word) : List NodeWord → Inst → Inst
  | [], i => i
  | n :: ns, i => if n.op = 0x3F then i else runNodes k coef ns (nodeStep k coef n i)

/-- At the deadline: held outputs take effect, or the instance is a miss (second part). -/
def deadlineCore (s : State) (t : Nat) : State × Bool :=
  let k := getTask s t
  match k.run with
  | none => (s, false)
  | some i =>
    if i.committed then
      let s := modTask s t fun k =>
        { k with run := none, outs := i.outs.foldl (fun o e => tset 0 o e.1 e.2) k.outs }
      (drainCoefs s t, false)
    else (missCore s t, true)

/-- R361: enabling zeroes the state slots and the outputs. -/
def enableTask (s : State) (t : Nat) : State :=
  if (taskEnt s t).kind = 0 || s.ltn.shed.contains (taskHda t) then s
  else modTask s t fun k => { k with enabled := true, slots := [], outs := [], sat := false, consec := 0 }

/-- R361: no further instance starts. -/
def disableTask (s : State) (t : Nat) : State :=
  drainCoefs (modTask s t fun k => { k with enabled := false, due := none }) t

/-- A trigger of an enabled task waits to release its instance. -/
def markDue (s : State) (t : Nat) : State :=
  modTask s t fun k => if k.enabled then { k with due := some s.tb.ns } else k

/-- Count a carrier period; every DIV-th triggers (Table 12-1). -/
def markPeriod (s : State) (t : Nat) : State :=
  let k := getTask s t
  if k.periods + 1 < (taskEnt s t).div then modTask s t fun k => { k with periods := k.periods + 1 }
  else markDue (modTask s t fun k => { k with periods := 0 }) t

def outWord (s : State) (t port : Nat) : Word := tget 0 (getTask s t).outs port

/-- Does the task hold SAT? -/
def taskSat (s : State) (t : Nat) : Bool := (getTask s t).sat

/-! ## Cores (R360, R372, R373) -/

/-- Logical core that runs a task. -/
def coreOf (s : State) (t : Nat) : Nat := (getTask s t).core.getD (taskEnt s t).core

/-- C ÷ DEADLINE_NS of a task (R372). -/
def density (s : State) (t : Nat) : Rat :=
  (((graphOf s t).ops + 24 : Nat) : Rat) * 1000 / (350 * (((taskEnt s t).deadline : Nat) : Rat))

/-- Is the task declared and not withdrawn with a shed HDA? -/
def taskLive (s : State) (t : Nat) : Bool := (taskEnt s t).kind != 0 && !(s.ltn.shed.contains (taskHda t))

/-- Density sum of a logical core over the tasks it runs, those still to place left out. -/
def coreSum (s : State) (unplaced : List Nat) (c : Nat) : Rat :=
  (((List.range 96).filter fun t => taskLive s t && coreOf s t == c && !(unplaced.contains t)).map (density s)).sum

def coreLive (s : State) (c : Nat) : Bool := (s.ltn.logical.getD c none).isSome

/-- The live core with the lowest density sum (lowest number on a tie). -/
def lightest (s : State) (unplaced : List Nat) : Option Nat :=
  ((List.range 7).filter (coreLive s)).foldl (fun b c => match b with
    | none => some c
    | some d => if coreSum s unplaced c < coreSum s unplaced d then some c else some d) none

/-- Place tasks one by one in ascending number; the second part lists those not placed when one fits nowhere. -/
def placeTasks (s : State) : List Nat → State × List Nat
  | [] => (s, [])
  | t :: ts =>
    match lightest s (t :: ts) with
    | none => (s, t :: ts)
    | some c =>
      if coreSum s (t :: ts) c + density s t ≤ 9 / 10 then
        placeTasks (modTask s t fun k => { k with core := some c }) ts
      else (s, t :: ts)

/-- Shed an HDA in Lantern: its six tasks are withdrawn. -/
def shedCore (s : State) (h : Nat) : State :=
  let s := modLtn s fun l => { l with shed := l.shed ++ [h] }
  (hdaTasks h).foldl disableTask s

/-- Placement with sheddings until every task has its core; answers the HDAs shed, first to last. -/
def placeAll : Nat → State → List Nat → State × List Nat
  | 0, s, _ => (s, [])
  | n + 1, s, ts =>
    match placeTasks s ts with
    | (s, []) => (s, [])
    | (s, t :: rest) =>
      let h := (t :: rest).foldl (fun m t => max m (taskHda t)) 0
      let s := shedCore s h
      let (s, hs) := placeAll n s ((t :: rest).filter fun t => taskHda t != h)
      (s, h :: hs)

/-- R360: at the end of SELFTEST the good cores take logical numbers. Answers the HDAs that do not fit. -/
def assignCores (s : State) : State × List Nat :=
  let good := (List.range 8).filter fun c => !(isRetired s (.core c))
  let s := modLtn s fun l =>
    { l with logical := (List.range 7).map fun i => good[i]?, spare := good[7]? }
  placeAll 17 s ((List.range 96).filter fun t => taskLive s t && !(coreLive s (coreOf s t)))

/-- What the loss of physical core `c` does inside Lantern: the spare takes its number, or its tasks are placed. Answers the
HDAs shed. -/
def loseCore (s : State) (c : Nat) : State × List Nat :=
  let s := modLtn s fun l => { l with retired := l.retired ++ [c] }
  if s.ltn.spare = some c then (modLtn s fun l => { l with spare := none }, [])
  else match s.ltn.logical.findIdx? (fun x => x == some c) with
    | none => (s, [])
    | some i =>
      match s.ltn.spare with
      | some p => (modLtn s fun l => { l with logical := l.logical.set i (some p), spare := none }, [])
      | none =>
        let s := modLtn s fun l => { l with logical := l.logical.set i none }
        placeAll 17 s ((List.range 96).filter fun t => taskLive s t && coreOf s t == i)

end Sys2Proof.Machine
end

