-- ==== Sys2Proof/Machine/ServoOps.lean ====
section
/-!
DEFINITION. Machine/ServoOps.lean: the operations of the servo and VCM units (13_servo_and_actuators.md): states and
inhibits, loads and unloads, retirement, the head offset map, the seek profile of R390, lane demodulation of R381.
-/

namespace Sys2Proof.Machine

def getSrv (s : State) (a : Nat) : Servo := tget {} s.srv a

def modSrv (s : State) (a : Nat) (f : Servo → Servo) : State := { s with srv := tmod {} s.srv a f }

/-- Field of actuator `a`'s VCM_ registers (R408). -/
def vcmF (f : Fld) (a : Nat) : Fld := f.ix a 0x400

/-- The actuator's record of the MOTOR section (Table 13-7). -/
def actRec (s : State) (a : Nat) : ActRec := ((image s).motor.acts.getD a none).getD {}

def srvState (s : State) (a : Nat) : Nat := fget s (srvF SRV_ACT_STATE a)

/-- First source of the VCM of actuator `a` (R407). -/
def vcmSrc (a : Nat) : Nat := 0x888 + 16 * (a / 2) + 4 * (a % 2)

def spnState (s : State) (h : Nat) : Nat := fget s (SPN_STATE_STATE.ix h 0x1000)

def atSpeed (s : State) (h : Nat) : Bool := fget s (SPN_STATE_AT_SPEED.ix h 0x1000) == 1

/-- Low `w` bits of a signed value, saturated to them. -/
def satSigned (w : Nat) (x : Int) : Nat :=
  let hi : Int := 2 ^ (w - 1) - 1
  let lo : Int := -(2 ^ (w - 1))
  ((max lo (min hi x)) % (2 ^ w : Int)).toNat

/-- MSR_PARAM_STAT.STATE of a measurement: VALID, OUT_OF_TOL, or FAILED where the unit did not respond. -/
def Measured.code (m : Measured) : Nat := if !m.resp then 4 else if m.inTol then 1 else 2

/-- Enter a discovery measurement, with the temperature at which a coil's resistance was taken; the second part says that
it lies outside its limit, or that no unit responded (R88): its fault and Daymark entry are recorded, its unit is the
caller's to retire. -/
def enterMeasured (s : State) (m : Measured) : State × Bool :=
  let code := Measured.code m
  let s := setParam s m.item m.value.toNat code
  let a := (m.item - 0x200) / 4
  let s := if 0x200 ≤ m.item && m.item < 0x280 && m.item % 4 = 0 then
      modPwr s fun p => { p with coilTemp := tset 0 p.coilTemp a (getRdc s a).temp }
    else s
  if code = 1 then (s, false)
  else (dmkSend (raise s 0xB81 (m.item + code * 4096)) 0x0B08 (m.item + code * 4096), true)

/-- The value of a discovery item while it is VALID. -/
def paramValue (s : State) (item : Nat) : Option Rat :=
  let p := param s item
  if p.2.1 = 1 then some (fpRat (BitVec.ofNat 32 p.1)) else none

/-- VM in volts (discovery item 0x009). -/
def vmNow (s : State) : Rat := ((s.pwr.vm : Nat) : Rat) / 1000

/-- T of R353 in °C. -/
def hdaTemp (s : State) (a : Nat) : Rat := ((getRdc s a).temp : Rat) / 16

/-! ## Inhibits and the comparator (R386, R387) -/

/-- A trip of the off-track comparator during a write: the gate falls, the trip is counted, source k = 10. -/
def compTrip (s : State) (a : Nat) : State :=
  if (getRdc s a).gate then
    raise (fbump (dropGate s a 0x21) (srvF SRV_ERR_CNT0_OFFTRK a)) (0x60A + 16 * a)
  else s

/-- Set or clear write inhibit `k` of SRV_ACT.INHIBIT; one that is asserted drops the gate. -/
def setInhibit (s : State) (a k : Nat) (b : Bool) : State :=
  let s := fsetBit s (srvF SRV_ACT_INHIBIT a) k b
  if b then compTrip s a else s

/-- ON_TRACK and RD_READY end (R386). -/
def offTrack (s : State) (a : Nat) : State :=
  let s := modSrv s a fun v => { v with onRun := 0, rdRun := 0 }
  fset (fset s (srvF SRV_ACT_ON_TRACK a) 0) (srvF SRV_ACT_RD_READY a) 0

/-- Enter an actuator state; outside FOLLOW the inhibit of R387 stands. -/
def setSrvState (s : State) (a st : Nat) : State :=
  let s := fset s (srvF SRV_ACT_STATE a) st
  let s := modSrv s a fun v => { v with stateNs := s.tb.ns }
  if st = 7 then setInhibit s a 7 false else setInhibit s a 7 true

/-- Record the trips of an HDA's park record (R403). -/
def setPark (s : State) (a r : Nat) : State :=
  fset { s with nv := { s.nv with park := tset 0 s.nv.park a r } } (srvF SRV_ACT_PARK_REC a) r

/-- Turn the bridge on or off (R396). -/
def setBridge (s : State) (a : Nat) (on : Bool) : State :=
  fset (emit s (.bridge a (b2n on))) (vcmF VCM_STATE_BRIDGE a) (b2n on)

/-! ## Coil voltages (R391, R400 to R402) -/

/-- Carrier period in ns. -/
def vcmPeriod (r : ActRec) : Rat := 1000000 / ((r.carrier : Nat) : Rat)

/-- H of R391. -/
def headroomV (r : ActRec) (vm : Rat) : Rat := vm * (1 - 2 * ((r.tLL : Nat) : Rat) / vcmPeriod r) - 2 * r.vDrop

/-- R_T of R391: the discovered resistance at the temperature of its measurement, or R_NOM while it is not VALID (the spec
gives no temperature for R_NOM: an open value). -/
def coilR (s : State) (a : Nat) : Rat :=
  let r := actRec s a
  match paramValue s (0x200 + 4 * a) with
  | some m => m * (1 + 39 / 10000 * (hdaTemp s a - ((tget 0 s.pwr.coilTemp a : Int) : Rat) / 16))
  | none => r.rNom * (1 + 39 / 10000 * (hdaTemp s a - Config.nominalTemp))

/-- V_RET of R400, also the outward drive of R401. -/
def unloadVolts (s : State) (a : Nat) : Rat :=
  -((actRec s a).kt * (actRec s a).vUnload + (actRec s a).iPark * coilR s a)

/-- The inward drive of R402. -/
def loadVolts (s : State) (a : Nat) : Rat :=
  (actRec s a).kt * (actRec s a).vLoad + (actRec s a).iPark * coilR s a

/-! ## Unloads (R400, R401, R404) -/

/-- What every unload starts with: MODE leaves READ or WRITE, the heaters go off, calibrations end ABORTED (R355,
R385, R401). -/
def unloadStart (s : State) (a : Nat) : State :=
  let s := abortCal s a 6
  let s := if fget s (rdcF RDC_ACT_STATE_PA_MODE a) = 3 || fget s (rdcF RDC_ACT_STATE_PA_MODE a) = 4 then setMode s a 2 true else s
  heaterOff (offTrack s a) a

/-- End an offset calibration (R385). -/
def endOfsCal (s : State) (a result : Nat) : State :=
  let s := fset s (srvF SRV_CAL_RESULT a) result
  let s := if result = 1 then s
    else raise (dmkSend s 0x0616 (a + result * 32)) (0x60F + 16 * a) (a + result * 32)
  let s := modSrv s a fun v => { v with calRun := v.calNext, calNext := none }
  fset (fset s (srvF SRV_CAL_BUSY a) (b2n (getSrv s a).calRun.isSome)) (srvF SRV_CAL_PEND a) 0

def abortOfsCal (s : State) (a result : Nat) : State :=
  if (getSrv s a).calRun.isSome then endOfsCal s a result else s

/-- The retract sequencer starts (R400). -/
def retract (s : State) (a : Nat) : State :=
  let s := abortOfsCal (unloadStart s a) a 5
  let s := setSrvState s a 10
  let s := modSrv s a fun v => { v with seek := none, volts := unloadVolts s a }
  let s := fbump (setBridge s a true) (srvF SRV_ERR_CNT1_RETRACT a)
  fset (fset s (vcmF VCM_STATE_RETRACT a) 1) (srvF SRV_ACT_PHASE a) 0

/-- A guided unload starts (R401): seek to track 0, then outward in voltage mode. -/
def guided (s : State) (a : Nat) : State :=
  let s := abortOfsCal (unloadStart s a) a 5
  let s := setSrvState s a 9
  modSrv s a fun v => { v with seek := none, seekReq := some (v.head, 0, 0), outRun := 0 }

/-- May an unload take the guided form (R401): at least one lane valid and the VC task running? -/
def guidedOk (s : State) (a : Nat) : Bool :=
  (getSrv s a).lanes.any (fun l => l.valid) && (getTask s (32 + a)).enabled && decide ((getTask s (32 + a)).consec < 3)

/-- An unload request (R404, Table 13-5). -/
def unloadReq (s : State) (a : Nat) : State :=
  let st := srvState s a
  if st = 4 then retract s a
  else if 5 ≤ st && st ≤ 8 then (if guidedOk s a then guided s a else retract s a)
  else s

/-- An unload by the sequencer whatever the form would be (R394, R404). -/
def retractReq (s : State) (a : Nat) : State :=
  let st := srvState s a
  if 4 ≤ st && st ≤ 9 then retract s a else s

/-- Enter RETIRED (R404): source k = 13, Daymark 0x0614, the actuator leaves UDC_DINSV. -/
def enterRetired (s : State) (a : Nat) : State :=
  let s := setBridge (setSrvState s a 11) a false
  let s := disableTask (disableTask s a) (32 + a)
  let s := fsetBit s SRV_RETIRED_RETIRED a true
  let s := modPwr (modSrv s a fun v => { v with retireOwed := false, seek := none, seekReq := none }) fun p =>
    { p with retired := if p.retired.contains (.actuator a) then p.retired else p.retired ++ [.actuator a] }
  let s := dmkSend (raise s (0x60D + 16 * a) a) 0x0614 a
  minWatch (rdcPowerOff (memberGone s true (a / 2) (some (a % 2))) a)

/-- A retirement cause (Table 13-5): at once where no head is loaded, else after the unload; `seqOnly` asks for the
sequencer. -/
def retireAct (s : State) (a : Nat) (seqOnly : Bool := false) : State :=
  let st := srvState s a
  if st = 2 || st = 3 || st = 1 then enterRetired s a
  else if 4 ≤ st && st ≤ 10 then
    let s := modSrv s a fun v => { v with retireOwed := true }
    if seqOnly then retractReq s a else unloadReq s a
  else s

/-- STRANDED (R399): the bridge stays off and the heads over the media. -/
def strand (s : State) (a : Nat) : State :=
  let s := setBridge (offTrack (setSrvState s a 12) a) a false
  let s := disableTask (disableTask s a) (32 + a)
  let s := fset (fsetBit s SRV_RETIRED_RETIRED a true) (vcmF VCM_STATE_STRANDED a) 1
  let s := fset s (SPN_STATE_HOLD.ix (a / 2) 0x1000) 1
  let s := dmkSend (raise s (vcmSrc a + 2) a) 0x0894 a
  memberGone s true (a / 2) (some (a % 2))

/-- Is the park record of an unload left to a flush (R403)? -/
def flushWritesPark (s : State) : Bool := s.phase == .ballast || s.rst.warm.isSome

/-! ## Loads (R402) -/

/-- A load starts: the park record, the latch pulse, MODE SERVO, the inward drive. -/
def startLoad (s : State) (a : Nat) : State :=
  let s := setPark s a 2
  let s := setMode s a 2
  let s := setBridge (setSrvState s a 4) a true
  modSrv s a fun v => { v with volts := loadVolts s a, loadRun := 0, reload := false, again := false,
                               wedge := none, x := none }

/-- May a load start? -/
def loadOk (s : State) (a : Nat) : Bool :=
  srvState s a == 2 && atSpeed s (a / 2) && rdcServes s a && !rdcFenced s && !(getSrv s a).retireOwed

/-- An unload or park ends (Table 13-5): the bridge is off, the park record says PARKED, MODE is SLEEP; a retirement that was
owed follows, and so does a load that was latched. -/
def unloadEnd (s : State) (a : Nat) : State :=
  let s := setBridge s a false
  let s := disableTask (disableTask s a) (32 + a)
  let s := setMode (fset s (vcmF VCM_STATE_RETRACT a) 0) a 0
  let s := if flushWritesPark s then s else setPark s a 1
  let s := modSrv s a fun v => { v with volts := 0, wedge := none, x := none, seek := none, noLane := 0,
                                        lanes := v.lanes.map fun l => { l with valid := false } }
  let s := fset s (srvF SRV_ACT_LANES a) 0
  if (getSrv s a).retireOwed then enterRetired s a
  else
    let s := rdcPowerOff (setSrvState s a 2) a
    if (getSrv s a).reload && loadOk s a then startLoad s a else s

/-- A load has failed (R402): source k = 12, contained when it retires, Daymark 0x0613; the sequencer withdraws it. -/
def loadFailed (s : State) (a : Nat) : State :=
  let now := s.tb.ns
  let recent := ((getSrv s a).loadNs.filter fun t => now - t ≤ 600000000000)
  let retires := !recent.isEmpty
  let s := fbump s (srvF SRV_ERR_CNT1_LOAD_FAIL a)
  let s := report s { src := 0x60C + 16 * a, cls := if retires then .contained else .corrected, data := a }
  let s := dmkSend s 0x0613 a
  let s := modSrv s a fun v => { v with loadNs := now :: recent, again := !retires, retireOwed := v.retireOwed || retires }
  retract s a

/-! ## Heads on lanes, the offset map (R383, R384) -/

/-- Zone of a cylinder. -/
def cylZone (t : ZoneTable) (cyl : Nat) : Nat :=
  ((List.range t.zones.length).filter fun z => (t.zones.getD z {}).cylStart ≤ cyl).length - 1

/-- Servo is acquired (R402 step 5, R403): the tasks are enabled and a seek follows, to a target that waits, or to the
calibration cylinder of the target's zone. -/
def acquired (s : State) (a : Nat) : State :=
  let s := enableTask (enableTask s a) (32 + a)
  let s := setBridge (setSrvState s a 5) a true
  let z := cylZone (hdaTable s (a / 2)) (getSrv s a).target
  let start := ((hdaTable s (a / 2)).zones.getD z {}).cylStart
  modSrv s a fun v => { v with
    volts := 0
    seekReq := v.seekReq <|> some (v.head, start + 1, 0)
    calDue := if v.loaded1 then v.calDue else z :: v.calDue
    loaded1 := true }

def ofsKey (a z h : Nat) : Nat := (a * 64 + z) * 16 + h

/-- o(h, z) and σ²(h, z); without an entry 0 and 0.01 (R384). -/
def ofsOf (s : State) (a z h : Nat) : Rat × Rat :=
  let e := tget {} s.nv.ofs (ofsKey a z h)
  if e.var = 0 then (0, 1 / 100) else (e.ofs, e.var)

/-- Zone of the data head's target. -/
def targetZone (s : State) (a : Nat) : Nat := cylZone (hdaTable s (a / 2)) (getSrv s a).target

/-- Heads for lanes 1 to 3: the three others of lowest variance not marked bad, ties to the lower number. -/
def bestHeads (s : State) (a head : Nat) : List Nat :=
  let z := targetZone s a
  let cands := (List.range (hdaTable s (a / 2)).heads).filter fun h => h != head && !((getSrv s a).bad.contains h)
  (cands.mergeSort fun h g => decide ((ofsOf s a z h).2 < (ofsOf s a z g).2) ||
    (decide ((ofsOf s a z h).2 = (ofsOf s a z g).2) && decide (h ≤ g))).take 3

/-- The lanes as the heads are assigned (R383): lanes without a usable head keep their last head and take no part. -/
def assignLanes (s : State) (a head : Nat) : List Lane :=
  let old := (getSrv s a).lanes
  let hs := head :: bestHeads s a head
  (List.range 4).map fun i =>
    match hs[i]? with
    | some h =>
      let l := old.getD i {}
      if l.head = h && l.used then l else { head := h, used := true }
    | none => { old.getD i {} with used := false, valid := false }

/-- SHEAD's value for lanes. -/
def sheadOf (ls : List Lane) : Nat := ((List.range 4).map fun i => (ls.getD i {}).head * 16 ^ i).sum

/-- Ask for DHEAD and SHEAD together (R383); the new assignment is used once both read back right. -/
def switchHeads (s : State) (a head : Nat) : State :=
  let sh := sheadOf (assignLanes s a head)
  let s := pushFrame s a { cls := 2, addr := 2, data := some head }
  let s := pushFrame s a { cls := 2, addr := 3, data := some sh }
  modSrv s a fun v => { v with switch_ := some (head, sh) }

/-! ## Position (R381, R382) -/

/-- Binary value of a Gray code of `n` bits. -/
def unGray (g : Nat) : Nat → Nat
  | 0 => 0
  | n + 1 => (g / 2 ^ n) ^^^ unGray g n

/-- The fine position p of R381 from N and Q. -/
def finePos (n q : Rat) : Rat :=
  if |n| ≤ |q| then
    (if 0 ≤ q then n / 4 else (if 0 < n then 1 / 2 else -(1 / 2)) - n / 4)
  else (if 0 < n then 1 else -1) * (1 - q) / 4

/-- N or Q of a pair of bursts. -/
def burstRatio (x y : Nat) : Rat :=
  if x + y = 0 then Config.zeroBurst else ((x : Rat) - (y : Rat)) / ((x + y : Nat) : Rat)

/-- G' of R381: G, G − 1 or G + 1, whichever brings x nearest the prediction. -/
def nearestTrack (g : Nat) (p pred : Rat) : Rat :=
  let d := fun (k : Rat) => |((g : Nat) : Rat) + k + p - pred|
  if d 0 ≤ d (-1) && d 0 ≤ d 1 then (g : Nat) else if d (-1) ≤ d 1 then ((g : Nat) : Rat) - 1 else ((g : Nat) : Rat) + 1

/-- A demodulated lane: its position and whether R382 finds it valid. `pred` is the head's predicted position, none at the
first wedge, which has nothing to be compared with; `next` the expected wedge number. -/
def judgeLane (s : State) (l : Lane) (d : LaneIn) (bad : List Nat) (pred : Option Rat) (next : Option Nat)
    (reach : Rat) : Rat × Bool :=
  let n := burstRatio d.a d.b
  let q := burstRatio d.c d.d
  let p := finePos n q
  let g := unGray (d.gray % 2 ^ 22) 22
  let x := (match pred with | some y => nearestTrack g p y | none => ((g : Nat) : Rat)) + p
  let sum : Rat := ((d.a + d.b + d.c + d.d : Nat) : Rat)
  let ref : Rat := if l.amps.isEmpty then sum else l.amps.sum / ((l.amps.length : Nat) : Rat)
  let ok := l.used && d.sam && (match next with | some w => d.wedge == w | none => true) &&
    (match pred with | some y => decide (|x - y| ≤ (((image s).motor.grayWin : Nat) : Rat) + reach) | none => true) &&
    decide (ref / 2 ≤ sum) && decide (sum ≤ 2 * ref) && decide (|n| ≤ 5 / 4) && decide (|q| ≤ 5 / 4) &&
    !(bad.contains l.head)
  (x, ok)

/-! ## Seeks (R390, R391) -/

/-- Position, velocity and acceleration t seconds into an acceleration pulse of duration `d` from rest, while it rises or
holds. -/
def pulseRise (acc tb t : Rat) : Rat × Rat × Rat :=
  let k := tb / Config.pi
  if t < tb then
    (acc / 2 * (t * t / 2 + k * k * (Config.cos (t / k) - 1)), acc / 2 * (t - k * Config.sin (t / k)),
      acc * (1 - Config.cos (t / k)) / 2)
  else
    let u := t - tb
    (acc / 2 * (tb * tb / 2 - 2 * k * k) + acc * tb / 2 * u + acc * u * u / 2, acc * (t - tb / 2), acc)

/-- The whole pulse: its second half mirrors its first (R390). -/
def pulse (acc tb d t : Rat) : Rat × Rat × Rat :=
  if t ≤ d - tb then pulseRise acc tb t
  else
    let v := acc * (d - tb)
    let (x', v', a') := pulseRise acc tb (d - t)
    (v * d / 2 - (v * (d - t) - x'), v - v', a')

/-- Set-point of a seek `t` seconds after its start: position (data-head tracks), velocity, acceleration, and TF input 9's
phase. -/
def setPoint (r : ActRec) (k : Seek) (t : Rat) : (Rat × Rat × Rat) × Nat :=
  let d := k.target - k.start
  let dir : Rat := if d < 0 then -1 else 1
  if k.long then
    let tEnd := k.t1 + k.tc + k.t2
    if t < k.t1 then
      let (x, v, a) := pulse k.acc r.tBlend k.t1 t
      ((k.start + dir * x, dir * v, dir * a), 1)
    else if t < k.t1 + k.tc then
      ((k.start + dir * (k.vp * k.t1 / 2 + k.vp * (t - k.t1)), dir * k.vp, 0), 1)
    else if t < tEnd then
      let u := t - k.t1 - k.tc
      let (x, v, a) := pulse k.acc r.tBlend k.t2 u
      ((k.start + dir * (k.vp * k.t1 / 2 + k.vp * k.tc + k.vp * u - x), dir * (k.vp - v), dir * (-a)), 1)
    else if t < tEnd + r.ts then
      let u := (t - tEnd) / r.ts
      ((k.target - dir * r.ds + dir * r.ds * (2 * u - 2 * u ^ 3 + u ^ 4),
        dir * r.ds / r.ts * (2 - 6 * u ^ 2 + 4 * u ^ 3), dir * r.ds / r.ts ^ 2 * (12 * u ^ 2 - 12 * u)), 2)
    else ((k.target, 0, 0), 2)
  else if t < k.t then
    let u := t / k.t
    ((k.start + d * (10 * u ^ 3 - 15 * u ^ 4 + 6 * u ^ 5), d / k.t * (30 * u ^ 2 - 60 * u ^ 3 + 30 * u ^ 4),
      d / k.t ^ 2 * (60 * u - 180 * u ^ 2 + 120 * u ^ 3)), 1)
  else ((k.target, 0, 0), 2)

/-- Beacon's figures for a seek (R391): s, A and v′. -/
def seekScale (s : State) (a : Nat) : Rat × Rat × Rat :=
  let r := actRec s a
  let v := getSrv s a
  let h := headroomV r (vmNow s)
  let rUse := match v.rEst with
    | some (e, t) => if s.tb.ns - t < 10000000000 then e else coilR s a
    | none => coilR s a
  let lUse := (paramValue s (0x201 + 4 * a)).getD r.lNom
  let vMax := min r.vMax (8 / 10 * h * r.tpr / r.kt)
  let iA := r.aNom * r.j / (r.kt * r.tpr)
  let sc := min 1 ((h - r.kt * vMax / r.tpr) / (iA * (rUse + Config.pi * lUse / (2 * r.tBlend))))
  (sc, r.aNom * max sc (1 / 4), vMax)

/-- Wedge period at nominal speed, in seconds. -/
def wedgePeriod (t : ZoneTable) : Rat := 60 / (((t.wedges * t.rpm : Nat) : Rat))

/-- The profile of R390 from `start` to `target`. -/
def planSeek (s : State) (a : Nat) (start target : Rat) : Seek :=
  let r := actRec s a
  let (sc, acc, vMax) := seekScale s a
  let dist := |target - start|
  let vs := 2 * r.ds / r.ts
  let lm := dist - r.ds
  let lp := lm + vs * vs / (2 * acc) - vs * r.tBlend / 2
  let vp := acc / 2 * (Config.sqrt (r.tBlend * r.tBlend + 4 * lp / acc) - r.tBlend)
  if r.ds < dist && vs + acc * r.tBlend ≤ vp then
    let vp := min vp vMax
    let t1 := vp / acc + r.tBlend
    let t2 := (vp - vs) / acc + r.tBlend
    let tc := (lm - vp * t1 / 2 - (vp + vs) * t2 / 2) / vp
    { start := start, target := target, t0 := s.tb.ns, long := true, acc := acc, vp := vp, t1 := t1, t2 := t2,
      tc := if vp < vMax then 0 else tc, t := 0, scale := sc }
  else
    let t := max r.ts (max (Config.sqrt (57735 / 10000 * dist / acc)) (1875 / 1000 * dist / vMax))
    let w := wedgePeriod (hdaTable s (a / 2))
    { start := start, target := target, t0 := s.tb.ns, long := false, acc := acc, vp := 0, t1 := 0, t2 := 0, tc := 0,
      t := ((t / w).ceil : Rat) * w, scale := sc }

/-- Seconds since a seek started. -/
def seekAge (s : State) (k : Seek) : Rat := ((s.tb.ns - k.t0 : Nat) : Rat) / 1000000000

/-- Position of the data head. -/
def dataPos (s : State) (a : Nat) : Rat :=
  ((getSrv s a).x.getD 0) + (ofsOf s a (targetZone s a) (getSrv s a).head).1

end Sys2Proof.Machine
end

