-- ==== Sys2Proof/Machine/Servo.lean ====
section
/-!
DEFINITION. Machine/Servo.lean: the commands of the servo and VCM units (13_servo_and_actuators.md).
-/

namespace Sys2Proof.Machine

/-! ## A servo wedge (R381 to R388) -/

/-- Time of the wedge since the last one, in seconds. -/
def wedgeInterval (s : State) (v : Servo) : Rat := ((s.tb.ns - v.wedgeNs : Nat) : Rat) / 1000000000

/-- The lanes after a wedge. -/
def judgeLanes (s : State) (a : Nat) (ins : List LaneIn) : List Lane :=
  let v := getSrv s a
  let dt := wedgeInterval s v
  let z := targetZone s a
  let wedges := (hdaTable s (a / 2)).wedges
  let next := v.wedge.map fun w => (w + 1) % max 1 wedges
  (List.range 4).map fun i =>
    let l := v.lanes.getD i {}
    match ins[i]? with
    | none => { l with valid := false, bad := l.bad + 1 }
    | some d =>
      let pred := v.x.map fun x => x + v.vel * dt + (ofsOf s a z l.head).1
      let (x, ok) := judgeLane s l d v.bad pred next (|v.vel| * dt)
      let sum : Rat := ((d.a + d.b + d.c + d.d : Nat) : Rat)
      if ok then { l with valid := true, bad := 0, x := x, amps := (l.amps ++ [sum]).drop (l.amps.length + 1 - 256) }
      else { l with valid := false, bad := l.bad + 1 }

/-- Sum of the weights and of the weighted positions of the valid lanes (R384). -/
def fuseSums (s : State) (a : Nat) (ls : List Lane) : Rat × Rat :=
  let z := targetZone s a
  (ls.filter fun l => l.valid).foldl (fun acc l =>
    let (o, var) := ofsOf s a z l.head
    (acc.1 + 1 / var, acc.2 + (l.x - o) / var)) (0, 0)

/-- Mark heads bad whose lanes have been invalid for 32 wedges while another is valid (R383); an actuator with no usable
head left is retired. -/
def markBad (s : State) (a : Nat) : State :=
  let v := getSrv s a
  if !(v.lanes.any fun l => l.valid) then s
  else
    let bads := ((v.lanes.filter fun l => l.used && 32 ≤ l.bad && !(v.bad.contains l.head)).map fun l => l.head).dedup
    if bads.isEmpty then s
    else
      let s := bads.foldl (fun s h =>
        let s := modSrv s a fun v => { v with bad := v.bad ++ [h] }
        let s := fsetBit s (srvF SRV_SHEAD_BAD a) h true
        dmkSend (raise s (0x608 + 16 * a) a) 0x0610 a) s
      let s := switchHeads s a v.head
      if (hdaTable s (a / 2)).heads ≤ (getSrv s a).bad.length then retireAct s a else s

/-- The position registers (SRV_POS, SRV_ERR, SRV_ACT.LANES). -/
def showPosition (s : State) (a : Nat) : State :=
  let v := getSrv s a
  let p := dataPos s a
  let s := fset s (srvF SRV_POS_TRACK a) (satSigned 23 p.floor)
  let s := fset s (srvF SRV_POS_FRAC a) ((p - (p.floor : Rat)) * 256).floor.toNat
  let s := fset s (srvF SRV_ERR_E a) (satSigned 16 (v.err * 1024).floor)
  let s := fset s (srvF SRV_ERR_SIGMA a) (min 0xFFFF (isqrt (v.var * 1048576).floor.toNat))
  fset s (srvF SRV_ACT_LANES a) (((List.range 4).map fun i => b2n (v.lanes.getD i {}).valid * 2 ^ i).sum)

/-- A threshold field in tracks. -/
def thr (s : State) (f : Fld) (a : Nat) : Rat := ((fget s (srvF f a) : Nat) : Rat) / 1024

/-- The comparator of R387 at a wedge during a write. -/
def compareWedge (s : State) (a : Nat) : State :=
  let v := getSrv s a
  let l0 := v.lanes.headD {}
  let far := decide (thr s SRV_THR_WI_THR a < |l0.x - ((v.target : Nat) : Rat)|) ||
    decide (thr s SRV_THR_WI_THR a < |v.err|)
  let s := fsetBit s (srvF SRV_ACT_INHIBIT a) 1 (!l0.valid)
  if (getRdc s a).gate && (far || !l0.valid) then
    offTrack (compTrip (fsetBit s (srvF SRV_ACT_INHIBIT a) 0 true) a) a
  else s

/-- Inhibits that keep ON_TRACK at 0: lane 0, shock, Lantern, saturation, shunt (DEDUCED: the others end at ON_TRACK). -/
def holdingInhibit (s : State) (a : Nat) : Bool := fget s (srvF SRV_ACT_INHIBIT a) / 2 % 32 != 0

/-- A seek has ended at ON_TRACK or RD_READY: SRV_SEEK_STAT.TIME. -/
def showSeekTime (s : State) (a : Nat) : State :=
  match (getSrv s a).seek with
  | some k => fset s (srvF SRV_SEEK_STAT_TIME a) (min 0xFFFF ((s.tb.ns - k.t0) / 10000))
  | none => s

/-- ON_TRACK, RD_READY and the entry to FOLLOW (R386, Table 13-5). -/
def judgeTrack (s : State) (a : Nat) : State :=
  let v := getSrv s a
  let l0 := (v.lanes.headD {}).valid
  let on := decide (|v.err| ≤ thr s SRV_THR_WR_ON_THR a) && l0 && !holdingInhibit s a
  let rd := decide (|v.err| ≤ thr s SRV_THR_RD_ON_THR a)
  let s := modSrv s a fun v => { v with onRun := if on then v.onRun + 1 else 0, rdRun := if rd then v.rdRun + 1 else 0 }
  let s := if fget s (srvF SRV_ONN_RD_N a) ≤ (getSrv s a).rdRun && fget s (srvF SRV_ACT_RD_READY a) == 0 then
      showSeekTime (fset s (srvF SRV_ACT_RD_READY a) 1) a
    else s
  if fget s (srvF SRV_ONN_ON_N a) ≤ (getSrv s a).onRun && fget s (srvF SRV_ACT_ON_TRACK a) == 0 then
    let s := showSeekTime (fset s (srvF SRV_ACT_ON_TRACK a) 1) a
    let s := fsetBit (fsetBit s (srvF SRV_ACT_INHIBIT a) 0 false) (srvF SRV_ACT_INHIBIT a) 6 false
    let s := modSrv s a fun v => { v with seek := none, seekEnd := s.tb.ns }
    fset (if srvState s a = 6 then setSrvState s a 7 else s) (srvF SRV_ACT_PHASE a) 0
  else s

/-- The time since |FE| last was within FE_LIMIT (R388), and the release of the saturation inhibit (R395). -/
def judgeLoops (s : State) (a : Nat) : State :=
  let fe := fpRat (outWord s a 1)
  let above := srvState s a == 7 && decide (thr s SRV_FE_FE_LIMIT a < |fe|)
  let sat := taskSat s a || taskSat s (32 + a)
  let s := modSrv s a fun v =>
    { v with feNs := if above then v.feNs <|> some s.tb.ns else none, satOk := if sat then 0 else v.satOk + 1 }
  if fbit s (srvF SRV_ACT_INHIBIT a) 4 && fget s (srvF SRV_ONN_ON_N a) ≤ (getSrv s a).satOk then
    fset (setInhibit s a 4 false) (vcmF VCM_STATE_SAT_HELD a) 0
  else s

/-- TF inputs of a wedge (R393, Table 12-7), and the trigger. -/
def feedTf (s : State) (a : Nat) (sp : Rat × Rat × Rat) (phase : Nat) (dt : Rat) : State :=
  let v := getSrv s a
  let r := actRec s a
  let vcOut := match (getTask s (32 + a)).run with
    | some i => if i.committed then fpRat (tget 0 i.outs 0) else fpRat (outWord s (32 + a) 0)
    | none => fpRat (outWord s (32 + a) 0)
  let ins : List Rat := [dataPos s a - sp.1, sp.2.1, sp.2.2, ((v.fused : Nat) : Rat), v.var,
    headroomV r (vmNow s) - |vcOut|, v.shuntA.value,
    (if fbit s SRV_STATUS_SHOCK_HOLD (a / 2) then 1 else 0), dt, ((phase : Nat) : Rat)]
  markDue ((ins.zipIdx).foldl (fun s e => setIn s a e.2 (ratToFp e.1)) s) a

/-- A wedge while Lantern drives the arm, or while a guided unload runs. -/
def driveWedge (s : State) (a : Nat) (dt : Rat) : State :=
  let v := getSrv s a
  let rest := (((v.target : Nat) : Rat) + v.readOfs, (0 : Rat), (0 : Rat))
  let (sp, phase) := match v.seek with
    | some k => setPoint (actRec s a) k (seekAge s k)
    | none => (rest, 0)
  let s := modSrv s a fun v => { v with err := dataPos s a - (((v.target : Nat) : Rat) + v.readOfs) }
  let s := fset s (srvF SRV_ACT_PHASE a) phase
  let s := if srvState s a = 5 && phase = 2 then setSrvState s a 6 else s
  let s := compareWedge s a
  let s := if srvState s a = 6 || srvState s a = 7 then judgeTrack s a else s
  feedTf (judgeLoops s a) a sp phase dt

/-- The voltage-mode part of a guided unload (R401): it begins when the seek to track 0 has run out. -/
def outwardWedge (s : State) (a : Nat) : State :=
  let v := getSrv s a
  let over_ := match v.seek with
    | some k => (setPoint (actRec s a) k (seekAge s k)).1.2.1 == 0 && v.seekReq.isNone &&
        decide (k.t1 + k.tc + k.t2 + k.t ≤ seekAge s k)
    | none => false
  let s := if over_ then modSrv s a fun v => { v with seek := none, volts := unloadVolts s a } else s
  if (getSrv s a).volts = 0 then s
  else modSrv s a fun v => { v with outRun := if v.lanes.any (fun l => l.valid) then 0 else v.outRun + 1 }

/-- SERVO_WEDGE (R382): the four lanes are demodulated and judged, fused into the arm's position (predicted where no lane is
valid), and the states, thresholds and TF inputs follow. -/
def servoWedge (s : State) (a : Nat) (ins : List LaneIn) : State :=
  let v := getSrv s a
  let dt := wedgeInterval s v
  let ls := judgeLanes s a ins
  let inv := v.laneInv + (ls.filter fun l => l.used && !l.valid).length
  let (w, wx) := fuseSums s a ls
  let n := (ls.filter fun l => l.valid).length
  let pred := (v.x.getD 0) + v.vel * dt
  let x := if n = 0 then v.x.map (fun _ => pred) else some (wx / w)
  let vel := if n = 0 then v.vel else match v.x with
    | some x0 => Config.velocity v.vel x0 (wx / w) dt
    | none => 0
  let wedge := match (ls.zip ins).find? fun e => e.1.valid with
    | some e => some e.2.wedge
    | none => v.wedge.map fun k => (k + 1) % max 1 (hdaTable s (a / 2)).wedges
  let s := modSrv s a fun v => { v with
    lanes := ls, wedge := wedge, wedgeNs := s.tb.ns, x := x, vel := vel, fused := n,
    var := if n = 0 then v.var else 1 / w, laneInv := inv % 256,
    noLane := if n = 0 then v.noLane + 1 else 0, loadRun := if 2 ≤ n then v.loadRun + 1 else 0 }
  let s := fbump s (srvF SRV_ERR_CNT0_LANE_INV a) (inv / 256)
  let s := markBad s a
  let st := srvState s a
  let s := if st = 4 then (if 8 ≤ (getSrv s a).loadRun then acquired s a else s)
    else if 5 ≤ st && st ≤ 8 then driveWedge s a dt
    else if st = 9 then outwardWedge (driveWedge s a dt) a
    else s
  showPosition s a

def execServoWedge (a : Nat) (lanes : List LaneIn) (s : State) : Host.Outcome State Fault Refusal :=
  let st := srvState s a
  if a < 32 && 3 ≤ st && st ≤ 10 then .next (servoWedge s a lanes) else .next s

/-! ## Inhibits -/

/-- WRITE_INHIBIT_ASSERT (R387): inhibit input `k` (shock 2, Lantern 3, saturation 4, shunt 5, TRACK_LOST 6, leaving FOLLOW 7)
is asserted; the comparator drops the gate. -/
def execWriteInhibitAssert (a k : Nat) (s : State) : Host.Outcome State Fault Refusal :=
  if a < 32 && 2 ≤ k && k ≤ 7 then .next (setInhibit s a k true) else .next s

/-- TRACK_LOST (R388): |FE| has stayed above FE_LIMIT for FE_TMO in FOLLOW. -/
def execTrackLost (a : Nat) (s : State) : Host.Outcome State Fault Refusal :=
  let due := match (getSrv s a).feNs with
    | some t => decide (1000 * fget s (srvF SRV_FE_FE_TMO a) ≤ s.tb.ns - t)
    | none => false
  if srvState s a = 7 && due then
    let recent := s.tb.ns :: (getSrv s a).lostNs.filter fun t => s.tb.ns - t ≤ 10000000000
    let s := modSrv s a fun v => { v with lostNs := recent, feNs := none,
                                          seekReq := v.seekReq <|> some (v.head, v.target, v.readOfs) }
    let s := fbump s (srvF SRV_ERR_CNT0_LOST a)
    let s := dmkSend (raise s (0x60B + 16 * a) a) 0x0612 a
    let s := setSrvState (setInhibit (offTrack s a) a 6 true) a 8
    .next (if 8 ≤ recent.length then retireAct s a else s)
  else .next s

/-- HDAs a shock input applies to (R389). -/
def shockHdas (s : State) (gpio : Bool) (k : Nat) : List Nat :=
  if gpio then
    (if (List.range 24).any (fun p => gpioCode s p == 5 && gpioInstance 5 p == some k) then
      maskBits 16 ((image s).motor.shockHda.getD k 0) else [])
  else if k < 16 && hdaPresent s k then [k] else []

/-- One actuator's part of a shock capture (R389). -/
def shockActuator (s : State) (a : Nat) : State :=
  if srvState s a = 0 then s
  else
    let s := setInhibit s a 2 true
    let s := setIn s a 7 (ratToFp 1)
    let s := fbump s (srvF SRV_ERR_CNT0_SHOCK a)
    abortOfsCal (dmkSend (raise s (0x60E + 16 * a) a) 0x0617 a) a 4

/-- SHOCK_CAPTURE (R389): HDAhh_SHK of HDA `k`, or the GPIO that carries SHOCK `k`. -/
def execShockCapture (gpio : Bool) (k : Nat) (s : State) : Host.Outcome State Fault Refusal :=
  .next ((shockHdas s gpio k).foldl (fun s h =>
    let s := modSrv (fsetBit s SRV_STATUS_SHOCK_HOLD h true) (2 * h) fun v => { v with shockNs := s.tb.ns }
    shockActuator (shockActuator s (2 * h)) (2 * h + 1)) s)

/-- SHOCK_HOLD_END (R389): SHOCK_HOLD ms have passed since the last capture of an HDA. -/
def execShockHoldEnd (h : Nat) (s : State) : Host.Outcome State Fault Refusal :=
  if h < 16 && fbit s SRV_STATUS_SHOCK_HOLD h &&
      decide (1000000 * (image s).motor.shockHold ≤ s.tb.ns - (getSrv s (2 * h)).shockNs) then
    let s := fsetBit s SRV_STATUS_SHOCK_HOLD h false
    .next ([2 * h, 2 * h + 1].foldl (fun s a => setIn (setInhibit s a 2 false) a 7 0) s)
  else .next s

/-- SAT_INHIBIT (R395): SAT has held for longer than VCM_SAT_TMO in FOLLOW or SETTLE. -/
def execSatInhibit (a : Nat) (s : State) : Host.Outcome State Fault Refusal :=
  let due := match (getSrv s a).satNs with
    | some t => decide (1000 * fget s (vcmF VCM_SAT_TMO_TMO a) < s.tb.ns - t)
    | none => false
  if (srvState s a = 6 || srvState s a = 7) && due && !(fbit s (srvF SRV_ACT_INHIBIT a) 4) then
    let s := modSrv (setInhibit s a 4 true) a fun v => { v with satOk := 0 }
    let s := fset s (vcmF VCM_STATE_SAT_HELD a) 1
    .next (dmkSend (raise s (vcmSrc a + 3) a) 0x0893 a)
  else .next s

/-! ## Heads and seeks -/

/-- HEAD_SWITCH (R383): DHEAD and SHEAD are written together. -/
def execHeadSwitch (a head : Nat) (s : State) : Host.Outcome State Fault Refusal :=
  if a < 32 && rdcServes s a && decide (head < (hdaTable s (a / 2)).heads) then .next (switchHeads s a head) else .next s

/-- What the seek before left for this one (R392): R_EST and the SAT count. -/
def takeSeekResults (s : State) (a : Nat) : State :=
  let v := getSrv s a
  let s := match v.seek with
    | some k => if k.sat then fbump s (srvF SRV_ERR_CNT1_SAT_SEEK a) else s
    | none => s
  if v.rSum.2 = 0 then s
  else
    let r := v.rSum.1 / ((v.rSum.2 : Nat) : Rat)
    let s := modSrv s a fun v => { v with rEst := some (r, v.seekEnd), rSum := (0, 0) }
    fset s (srvF SRV_R_EST_R a) (ratToFp r).toNat

/-- SEEK_START (R390): the waiting request's profile begins; a running seek is replaced. -/
def execSeekStart (a : Nat) (s : State) : Host.Outcome State Fault Refusal :=
  match (getSrv s a).seekReq with
  | none => .next s
  | some (head, cyl, ofs) =>
    let st := srvState s a
    if (5 ≤ st && st ≤ 9) then
      let s := takeSeekResults s a
      let s := modSrv s a fun v => { v with head := head, target := cyl, readOfs := ofs, seekReq := none }
      let k := planSeek s a (dataPos s a) (((cyl : Nat) : Rat) + ofs)
      let s := modSrv s a fun v => { v with seek := some k }
      let s := offTrack (if st = 9 then s else setSrvState s a 5) a
      let s := fset s (srvF SRV_TARGET_TRACK a) cyl
      let s := fset s (srvF SRV_SEEK_STAT_SCALE a) (min 0xFFFF (max 0 (k.scale * 65536).floor).toNat)
      .next (fset s (srvF SRV_ACT_PHASE a) 1)
    else .next s

/-! ## Offset calibration (R385) -/

/-- SRV_CAL_REQUEST: a write of SRV_CAL. -/
def execSrvCalRequest (a : Nat) (value : Word) (s : State) : Host.Outcome State Fault Refusal :=
  if 32 ≤ a then .next s
  else
    let z := bitsGet value 0 6
    if (hdaTable s (a / 2)).zones.length ≤ z then .next (fset s SRV_STATUS_RSV_WRITE 1)
    else
      let s := fset s (srvF SRV_CAL_ZONE a) z
      if bitsGet value 6 1 = 0 then .next s
      else if (getSrv s a).calRun.isSome then
        .next (fset (modSrv s a fun v => { v with calNext := some z }) (srvF SRV_CAL_PEND a) 1)
      else .next (fset (modSrv s a fun v => { v with calRun := some z }) (srvF SRV_CAL_BUSY a) 1)

/-- Store a zone's offsets: mean and half the variance of x_h − x_0; head 0 takes the smallest variance. -/
def storeOffsets (s : State) (a z : Nat) (stats : List (Rat × Rat)) : State :=
  let e := stats.zipIdx.map fun p => (p.2 + 1, p.1.1, p.1.2 / 2)
  let low := e.foldl (fun m p => if m = 0 || p.2.2 < m then p.2.2 else m) 0
  let put := fun (s : State) (h : Nat) (o v : Rat) => { s with nv := { s.nv with
    ofs := tset {} s.nv.ofs (ofsKey a z h) { ofs := o, var := v, made := s.tb.ns, temp := (getRdc s a).temp } } }
  e.foldl (fun s p => put s p.1 p.2.1 p.2.2) (put s 0 0 low)

/-- Is a zone's offset calibration due (R385): never made, 30 minutes old, or more than 10 °C away? -/
def ofsDue (s : State) (a z : Nat) : Bool :=
  let e := tget {} s.nv.ofs (ofsKey a z 0)
  e.var == 0 || decide (1800000000000 ≤ s.tb.ns - e.made) || decide (160 < ((getRdc s a).temp - e.temp).natAbs)

/-- OFFSET_CALIBRATION: the calibration under way, or one that is due, ends with RESULT; `stats` are the mean and the
variance of x_h − x_0 for heads 1, 2, … over the runs. -/
def execOffsetCalibration (a zone result : Nat) (stats : List (Rat × Rat)) (s : State) :
    Host.Outcome State Fault Refusal :=
  let v := getSrv s a
  let runs := v.calRun == some zone || (v.calRun == none && (v.calDue.contains zone || ofsDue s a zone) && headsOn s a)
  if runs && 1 ≤ result && result ≤ 5 then
    let s := modSrv s a fun v => { v with calDue := v.calDue.filter (· != zone) }
    let s := if result = 1 then storeOffsets s a zone stats else s
    .next (endOfsCal s a result)
  else .next s

/-! ## VCM drive (R396 to R399) -/

/-- One switch's pulse (R397): the width asked for plus what was carried; a pulse below MINPULSE is skipped and carried.
Answers the width driven, the carry and whether it was skipped. -/
def pulseOut (minPulse : Nat) (width carry : Rat) : Rat × Rat × Bool :=
  let w := width + carry
  if w ≤ 0 then (0, 0, false)
  else if w < ((minPulse : Nat) : Rat) then (0, w, true)
  else (w, 0, false)

/-- One leg in one period (R397): high- and low-side on-times with DEAD taken from each edge, the complementary switch held
off under 2 × DEAD, skips counted. -/
def legOut (minPulse dead : Nat) (period duty : Rat) (carry : Rat × Rat) : (Rat × Rat) × (Rat × Rat) × Nat :=
  let (hi, c1, k1) := pulseOut minPulse (duty * period) carry.1
  let (lo, c2, k2) := pulseOut minPulse ((1 - duty) * period) carry.2
  let short : Rat := ((2 * dead : Nat) : Rat)
  let lo' := if 0 < hi && hi < short then 0 else lo
  let hi' := if 0 < lo && lo < short then 0 else hi
  ((hi', lo'), (c1, c2), b2n k1 + b2n k2)

def clampDuty (t d : Rat) : Rat := max 0 (min d (1 - t))

/-- Sign of a current for dead-time compensation: none below 2 % of I_MAX (R397). -/
def compSign (i iMax : Rat) : Int := if |i| < iMax / 50 then 0 else if 0 < i then 1 else -1

/-- Drive both legs for a coil voltage command (R393, R396). -/
def driveCoil (s : State) (a : Nat) (cmd vm i : Rat) : State :=
  let r := actRec s a
  let h := headroomV r vm
  let v := max (-h) (min cmd h)
  let s := if v = cmd then s else fbump s (vcmF VCM_CNT_CLAMP a)
  let p := vcmPeriod r
  let t := ((r.tLL : Nat) : Rat) / p
  let c := (getSrv s a).carry
  let (oa, ca, ka) := legOut r.minPulse r.dead p (clampDuty t (1 / 2 + v / (2 * vm))) (c.getD 0 0, c.getD 1 0)
  let (ob, cb, kb) := legOut r.minPulse r.dead p (clampDuty t (1 / 2 - v / (2 * vm))) (c.getD 2 0, c.getD 3 0)
  let s := modSrv s a fun v => { v with carry := [ca.1, ca.2, cb.1, cb.2] }
  let s := fbump s (vcmF VCM_CNT_PWM_SKIP_CNT a) (ka + kb)
  let s := emit s (.gates a 0 oa.1 oa.2 (compSign i r.iMax))
  emit s (.gates a 1 ob.1 ob.2 (compSign (-i) r.iMax))

/-- A shunt conversion (R398): an INVALID one leaves the last valid value. -/
def Shunt.take (x : Shunt) (c : Conv) : Shunt :=
  if x.lost then x else if c.valid then { x with value := c.value, bad := 0 } else { x with bad := x.bad + 1 }

/-- SHUNT_A / SHUNT_B code. -/
def Shunt.code (x : Shunt) : Nat := if x.lost then 2 else if x.bad = 0 then 0 else 1

/-- The coil current from the legs that still count. -/
def coilCurrent (v : Servo) : Rat := if v.shuntA.lost then -v.shuntB.value else v.shuntA.value

/-- Collect R_EST during the hold of an acceleration pulse (R392). -/
def sampleR (s : State) (a : Nat) (volts i : Rat) : State :=
  let r := actRec s a
  let v := getSrv s a
  match v.seek with
  | some k =>
    let t := seekAge s k
    let sat := taskSat s a || taskSat s (32 + a)
    let iA := r.aNom * r.j / (r.kt * r.tpr)
    let s := if sat then modSrv s a fun v => { v with seek := some { k with sat := true } } else s
    if k.long && r.tBlend ≤ t && t ≤ k.t1 - r.tBlend && !sat && iA * k.scale / 2 ≤ |i| then
      modSrv s a fun v => { v with rSum := (v.rSum.1 + (volts - r.kt * v.vel / r.tpr) / i, v.rSum.2 + 1) }
    else s
  | none => s

/-- VCM_PWM_SAMPLE (R396, R393): both shunts are converted at a carrier valley; the VC task's inputs and trigger, the next
period's pulses. -/
def execVcmPwmSample (a : Nat) (iA iB : Conv) (volts vm : Rat) (s : State) : Host.Outcome State Fault Refusal :=
  if 32 ≤ a || fget s (vcmF VCM_STATE_BRIDGE a) == 0 then .next s
  else
    let r := actRec s a
    let s := modSrv s a fun v => { v with shuntA := v.shuntA.take iA, shuntB := v.shuntB.take iB }
    let v := getSrv s a
    let s := fset (fset s (vcmF VCM_STATE_SHUNT_A a) v.shuntA.code) (vcmF VCM_STATE_SHUNT_B a) v.shuntB.code
    let i := coilCurrent v
    let s := if iA.valid || iB.valid then
        fset (fset s (vcmF VCM_MEAS_I a) (satSigned 16 (i * 1000).floor)) (vcmF VCM_MEAS_V a) (satSigned 16 (volts * 100).floor)
      else s
    let s := fset s (vcmF VCM_HEADROOM_H a) (min 0xFFFF (headroomV r vm * 100).floor.toNat)
    let sat := taskSat s a || taskSat s (32 + a)
    let s := fset s (vcmF VCM_STATE_SAT a) (b2n sat)
    let s := modSrv s a fun v => { v with satNs := if sat then v.satNs <|> some s.tb.ns else none }
    let s := sampleR s a volts i
    let ins : List Word := [outWord s a 0, ratToFp v.shuntA.value, ratToFp v.shuntB.value,
      ratToFp (if v.shuntA.bad = 0 && !v.shuntA.lost then 1 else 0),
      ratToFp (if v.shuntB.bad = 0 && !v.shuntB.lost then 1 else 0), ratToFp volts, ratToFp vm,
      ratToFp (vcmPeriod r * ((((taskEnt s (32 + a)).div : Nat) : Rat)) / 1000000000)]
    let s := ins.zipIdx.foldl (fun s e => setIn s (32 + a) e.2 e.1) s
    let s := markPeriod s (32 + a)
    let st := srvState s a
    let cmd := if (getSrv s a).volts = 0 && 5 ≤ st && st ≤ 9 then fpRat (outWord s (32 + a) 0) else (getSrv s a).volts
    .next (driveCoil s a cmd vm i)

/-- SHUNT_LOST (R398): leg A (0) or B (1) has had 2 consecutive invalid conversions. -/
def execShuntLost (a leg : Nat) (s : State) : Host.Outcome State Fault Refusal :=
  let v := getSrv s a
  let x := if leg = 0 then v.shuntA else v.shuntB
  if a < 32 && leg < 2 && 2 ≤ x.bad && !x.lost then
    let s := modSrv s a fun v => if leg = 0 then { v with shuntA := { v.shuntA with lost := true } }
      else { v with shuntB := { v.shuntB with lost := true } }
    let s := fset s (vcmF (if leg = 0 then VCM_STATE_SHUNT_A else VCM_STATE_SHUNT_B) a) 2
    if (getSrv s a).shuntA.lost && (getSrv s a).shuntB.lost then
      let s := dmkSend (raise s (vcmSrc a + 1) a) 0x0891 a
      .next (retireAct (disableTask s (32 + a)) a true)
    else
      let s := memberGone (setInhibit s a 5 true) true (a / 2) (some (a % 2))
      .next (dmkSend (raise s (vcmSrc a) a) 0x0890 a)
  else .next s

/-- VCM_DRIVER_FAULT (R399, Table 13-5). -/
def execVcmDriverFault (a : Nat) (s : State) : Host.Outcome State Fault Refusal :=
  let st := srvState s a
  if 32 ≤ a || st = 0 || st = 1 then .next s
  else if 4 ≤ st && st ≤ 10 then
    let recent := (getSrv s a).drvNs.filter fun t => s.tb.ns - t ≤ 600000000000
    let s := setBridge (fset s (vcmF VCM_STATE_DRV_FLT a) 1) a false
    let s := dropGate s a 0x21
    let s := modSrv s a fun v => { v with drvNs := s.tb.ns :: recent }
    let s := dmkSend (raise s (vcmSrc a + 2) a) 0x0892 a
    .next (if recent.isEmpty then s else strand s a)
  else .next (dmkSend (raise s (vcmSrc a + 2) a) 0x0892 a)

/-- VCM_DRIVER_RETRY (R399): after 1 ms DRV_EN is raised once; `ok` says the fault does not return within 10 µs. -/
def execVcmDriverRetry (a : Nat) (ok : Bool) (s : State) : Host.Outcome State Fault Refusal :=
  let st := srvState s a
  if a < 32 && 4 ≤ st && st ≤ 10 && fget s (vcmF VCM_STATE_DRV_FLT a) == 1 then
    if ok then
      let s := setBridge (fset s (vcmF VCM_STATE_DRV_FLT a) 0) a true
      if 5 ≤ st && st ≤ 8 then
        let s := modSrv s a fun v => { v with seekReq := v.seekReq <|> some (v.head, v.target, v.readOfs) }
        .next (setSrvState (offTrack s a) a 5)
      else .next (retract s a)
    else .next (strand s a)
  else .next s

/-! ## Loads and unloads (R400 to R404) -/

/-- RETRACT (R400): the sequencer is started. -/
def execRetract (a : Nat) (s : State) : Host.Outcome State Fault Refusal :=
  if a < 32 then .next (retractReq s a) else .next s

/-- RETRACT_DONE: the sequence has ended. -/
def execRetractDone (a : Nat) (s : State) : Host.Outcome State Fault Refusal :=
  if a < 32 && srvState s a == 10 then .next (unloadEnd s a) else .next s

/-- GUIDED_UNLOAD (R401): started where its conditions hold, else by the sequencer. -/
def execGuidedUnload (a : Nat) (s : State) : Host.Outcome State Fault Refusal :=
  let st := srvState s a
  if a < 32 && 5 ≤ st && st ≤ 8 then .next (if guidedOk s a then guided s a else retract s a) else .next s

/-- UNLOAD_REQUEST (R404). -/
def execUnloadRequest (a : Nat) (s : State) : Host.Outcome State Fault Refusal :=
  if a < 32 then .next (unloadReq s a) else .next s

/-- UNLOAD_DONE (R401, R403): a guided unload has ended, no lane having been valid for 8 wedges. -/
def execUnloadDone (a : Nat) (s : State) : Host.Outcome State Fault Refusal :=
  if a < 32 && srvState s a == 9 && decide (8 ≤ (getSrv s a).outRun) then .next (unloadEnd s a) else .next s

/-- The stripes of an HDA are resynchronised once, when its heads load after a boot (R291): `bad` names the disk segments with
stripes that fail to decode or to compare, `n` the stripes; their valid units are relocated. -/
def resyncDisk (s : State) (h : Nat) (bad : List Nat) (n : Nat) : State :=
  if s.udc.resynced.contains h then s
  else
    let s := modUdc s fun u => { u with resynced := h :: u.resynced }
    if n = 0 then s
    else
      let s := bad.foldl (fun s i => modSeg s true i fun r => { r with asked := true }) s
      dmkSend (raise s 0xA00 n) 0x0A07 n

/-- LOAD (R402): `kt` is the Kt that the first load after a power-on reset measures; `bad` and `n` say what resynchronisation
finds on the HDA. -/
def execLoad (a : Nat) (kt : Option Measured) (bad : List Nat) (n : Nat) (s : State) : Host.Outcome State Fault Refusal :=
  if a < 32 && loadOk s a then
    let s := resyncDisk (startLoad s a) (a / 2) bad n
    match kt with
    | some m =>
      if m.item = 0x202 + 4 * a && (param s m.item).2.1 == 0 then
        let (s, bad) := enterMeasured s m
        .next (if bad then retireAct s a else s)
      else .next s
    | none => .next s
  else .next s

/-- LOAD_TIMEOUT (R402): no servo 500 ms after the load began. -/
def execLoadTimeout (a : Nat) (s : State) : Host.Outcome State Fault Refusal :=
  if a < 32 && srvState s a == 4 && decide (500000000 ≤ s.tb.ns - (getSrv s a).stateNs) then .next (loadFailed s a)
  else .next s

/-- LOAD_RETRY (R402): 1 s after a failed load. -/
def execLoadRetry (a : Nat) (s : State) : Host.Outcome State Fault Refusal :=
  if a < 32 && (getSrv s a).again && loadOk s a &&
      decide (1000000000 ≤ s.tb.ns - (getSrv s a).loadNs.headD 0) then .next (startLoad s a)
  else .next s

/-- PARK_UNKNOWN_LISTEN (R403): 50 ms of listening with the bridge off have ended. -/
def execParkUnknownListen (a : Nat) (lanesValid : Bool) (s : State) : Host.Outcome State Fault Refusal :=
  if a < 32 && srvState s a == 3 && atSpeed s (a / 2) && rdcServes s a then
    if lanesValid then .next (acquired (setMode s a 2) a)
    else .next (retract (modSrv s a fun v => { v with reload := true }) a)
  else .next s

/-- POSITION_LOST (R404): 64 consecutive wedges with no valid lane in FOLLOW; in LOADING it counts as a load failure. -/
def execPositionLost (a : Nat) (s : State) : Host.Outcome State Fault Refusal :=
  if a < 32 && decide (64 ≤ (getSrv s a).noLane) then
    if srvState s a = 4 then .next (loadFailed s a)
    else if srvState s a = 7 then
      let recent := (getSrv s a).posNs.filter fun t => s.tb.ns - t ≤ 600000000000
      let s := modSrv s a fun v => { v with posNs := s.tb.ns :: recent, noLane := 0, reload := true,
                                            retireOwed := v.retireOwed || !recent.isEmpty }
      let s := fbump s (srvF SRV_ERR_CNT1_POS_LOST a)
      .next (retract (dmkSend (raise s (0x609 + 16 * a) a) 0x0611 a) a)
    else .next s
  else .next s

end Sys2Proof.Machine
end

