-- ==== Sys2Proof/Machine/ReadChannel.lean ====
section
/-!
DEFINITION. Machine/ReadChannel.lean: the commands of the read channels and their preamplifier links
(11_read_channel.md).
-/

namespace Sys2Proof.Machine

/-! ## Arrival and choice of operations (R346) -/

/-- The operation a request names. -/
def diskOpOf (r : DiskReq) (write : Bool) (now : Nat) : DiskOp :=
  { write := write, band := r.band, frag := r.frag, first := r.first, count := r.count, slot0 := r.slot0, tag := r.tag,
    fast := r.fast, reply := r.reply, since := now, left := (List.range r.count) }

/-- Put units into staging slots with their tenant tag. -/
def stageUnits (s : State) (a slot tag : Nat) : List Nat → State
  | [] => s
  | u :: us => stageUnits (modRdc s a fun r =>
      { r with staging := tset 0 r.staging slot u, tags := tset 0 r.tags slot tag }) a (slot + 1) tag us

/-- An operation reaches the queue of 64; with the queue full its producer waits. -/
def arrive (s : State) (a : Nat) (o : DiskOp) (units : List Nat) : State :=
  let every := failMap (List.range (if o.write then (actZone s a o.band).2.frag else o.count))
  if fget s (rdcF RDC_ACT_STATE_STATE a) = 0 then s
  else if rdcFenced s then postDisk s a o 0x43 every
  else if !rdcServes s a then postDisk s a o 0x41 every
  else if 64 ≤ (getRdc s a).queue.length then s
  else modRdc (stageUnits s a o.slot0 o.tag units) a fun r => { r with queue := r.queue ++ [o] }

/-- DISK_READ: a READ arrives. -/
def execDiskRead (a : Nat) (r : DiskReq) (s : State) : Host.Outcome State Fault Refusal :=
  if a < 32 then .next (arrive s a (diskOpOf r false s.tb.ns) []) else .next s

/-- Staging slots an operation names. -/
def DiskOp.slots (o : DiskOp) (n : Nat) : List Nat := (List.range n).map fun i => o.slot0 + i

/-- May a queued operation be taken: a READ needs its unit slots free of every other operation's (R346). -/
def takeable (s : State) (a : Nat) (o : DiskOp) : Bool :=
  let others := ((getRdc s a).queue.filter fun p => p.write && p != o).flatMap fun p =>
    p.slots (actZone s a p.band).2.frag
  o.write || (o.slots o.count).all fun k => k < 64 && !(others.contains k)

/-- Has it been passed over 4 times or waited 250 ms? -/
def DiskOp.aged (o : DiskOp) (now : Nat) : Bool := 4 ≤ o.passed || 250000000 ≤ now - o.since

/-- The operation taken next. -/
def chooseOp (s : State) (a : Nat) : Option DiskOp :=
  let c := (getRdc s a).queue.filter (takeable s a)
  let cost := fun (o : DiskOp) => Config.accessTime a (getSrv s a).target (fragPlace s a o.band o.frag).1
  (c.find? fun o => o.aged s.tb.ns).orElse fun _ => c.foldl (fun b o => match b with
    | none => some o
    | some p => if cost o < cost p then some o else some p) none

/-- Ask for the position and head of an operation. -/
def requestPlace (s : State) (a cyl head : Nat) (ofs : Rat) : State :=
  let v := getSrv s a
  let s := if paReg s a 2 = some head then s else switchHeads s a head
  if v.target = cyl && v.head = head && v.readOfs = ofs && v.seekReq.isNone && (v.seek.isSome || srvState s a == 7) then s
  else modSrv s a fun v => { v with seekReq := some (head, cyl, ofs) }

/-- Ask for the heat of an operation's head (R353). -/
def requestHeat (s : State) (a head : Nat) (write : Bool) : State :=
  let r := getRdc s a
  let code := heatCode s a head write
  let s := if r.heatHead = some head then s else heaterOff s a
  if r.heatHead = some head && r.heatCode = code then s else pushHeat s a head code

/-- DISK_OP_SELECT (R346): the operation starts; it holds the actuator until its completion. -/
def execDiskOpSelect (a : Nat) (s : State) : Host.Outcome State Fault Refusal :=
  let r := getRdc s a
  if 32 ≤ a || r.run.isSome || r.calRun.isSome || !rdcServes s a || rdcFenced s then .next s
  else match chooseOp s a with
    | none => .next s
    | some o =>
      let s := modRdc s a fun r => { r with
        queue := (r.queue.erase o).map fun p => { p with passed := p.passed + 1 }
        run := some { o with waitNs := some s.tb.ns } }
      let (z, zr) := actZone s a o.band
      let s := showRdc (fset s (rdcF RDC_ACT_STATE_ZONE a) z) a
      if srvState s a = 11 || srvState s a = 12 then
        .next (finishDisk s a o 0x40 (failMap (List.range (if o.write then zr.frag else o.count))))
      else
        let (cyl, head) := fragPlace s a o.band o.frag
        .next (requestHeat (requestPlace s a cyl head 0) a head o.write)

/-! ## Conditions (R342, R350, R353) -/

/-- Is the data head's heater verified at the operation's code, for long enough? -/
def heated (s : State) (a head : Nat) (write : Bool) : Bool :=
  let r := getRdc s a
  r.heatHead == some head && r.heatCode == heatCode s a head write && decide (r.heatNs ≤ s.tb.ns)

/-- Heads loaded, on the operation's track, speed, DHEAD and heat verified. -/
def opReady (s : State) (a : Nat) (o : DiskOp) : Bool :=
  let (cyl, head) := fragPlace s a o.band o.frag
  let v := getSrv s a
  headsOn s a && fget s (rdcF RDC_ACT_STATE_SPEED_OK a) == 1 && paReg s a 2 == some head && heated s a head o.write &&
    v.target == cyl && v.head == head && v.seekReq.isNone && !rdcFenced s &&
    (if o.write then fget s (srvF SRV_ACT_ON_TRACK a) == 1 && fget s (srvF SRV_ACT_INHIBIT a) == 0 && v.readOfs == 0
     else fget s (srvF SRV_ACT_RD_READY a) == 1)

/-- Is MODE verified as `m`? Else ask for it once. -/
def needMode (s : State) (a m : Nat) : Option State :=
  if paReg s a 1 = some m then none else some (if framePending s a 1 then s else setMode s a m)

/-- DISK_WRITE: a WRITE arrives, or the running one writes `n` further sectors (R350, R352): the gate is asserted from its
first sector to its last. -/
def execDiskWrite (a : Nat) (r : Option DiskReq) (n : Nat) (s : State) : Host.Outcome State Fault Refusal :=
  if 32 ≤ a then .next s
  else match r with
    | some q => .next (arrive s a (diskOpOf q true s.tb.ns) q.units)
    | none =>
      match (getRdc s a).run with
      | none => .next s
      | some o =>
        if !o.write || !opReady s a o then .next s
        else match needMode s a 4 with
          | some s => .next s
          | none =>
            let s := modRdc s a fun r => { r with gate := true }
            let s := writeSectors s a o n
            let o := (getRdc s a).run.getD o
            .next (if (actZone s a o.band).2.frag ≤ o.next then finishDisk s a o 0 0 else s)

/-- DISK_OP_TIMEOUT (R342, R350): a condition has stayed unmet for 100 ms. -/
def execDiskOpTimeout (a : Nat) (s : State) : Host.Outcome State Fault Refusal :=
  match (getRdc s a).run with
  | none => .next s
  | some o =>
    match o.waitNs with
    | none => .next s
    | some t =>
      if 100000000 ≤ s.tb.ns - t && !opReady s a o then
        let inhibited := o.write && fget s (srvF SRV_ACT_INHIBIT a) % 128 != 0
        let fail := failMap (if o.write then unwritten s a o else o.left)
        if inhibited then
          .next (raise (fbump (finishDisk s a o 0x21 fail) (rdcF RDC_ERR_CNT1_WINHIB a)) (0x603 + 16 * a))
        else .next (finishDisk s a o 0x40 fail)
      else .next s

/-! ## Reading (R348, R349) -/

/-- Read offset of a pass in hundredths of a track (Table 11-9). -/
def passOffset (p : Nat) : Rat :=
  let k := if 9 ≤ p && p ≤ 15 then p - 7 else p
  if k = 4 then 5 / 100 else if k = 5 then -(5 / 100) else if k = 6 then 10 / 100 else if k = 7 then -(10 / 100) else 0

/-- A band is withdrawn (R349). -/
def withdrawBand (s : State) (a band : Nat) : State :=
  if (getRdc s a).withdrawn.contains band then s
  else
    let s := modRdc s a fun r => { r with withdrawn := r.withdrawn ++ [band] }
    dmkSend (fset s (rdcF RDC_DEFECTS_WITHDRAWN a) (min 0xFFFF (getRdc s a).withdrawn.length)) 0x0605 a

/-- A sector that failed every pass becomes a pending defect. -/
def enterDefect (s : State) (a : Nat) (o : DiskOp) (pos : Nat) : State :=
  let r := getRdc s a
  if r.slips.any (fun e => e.1 == pos) then s
  else if 65536 ≤ r.slips.length then withdrawBand s a o.band
  else
    let s := modRdc s a fun r => { r with slips := r.slips ++ [(pos, false)] }
    let s := fset s (rdcF RDC_DEFECTS_SLIPS a) (min 0xFFFF (getRdc s a).slips.length)
    let s := dmkSend (fbump s (rdcF RDC_ERR_CNT1_DEFECT a)) 0x0604 a
    let z := (actZone s a o.band).2
    let spare := z.spt - zoneFpt z * z.frag
    if spare < ((getRdc s a).slips.filter fun e => e.1 / 1024 == pos / 1024).length then withdrawBand s a o.band else s

/-- A READ ends: OK, OK_RETRY or UNCORR; every failed unit is a relocation request, source k = 4 and 0x0606, and after the
last pass a defect. -/
def endDiskRead (s : State) (a : Nat) (o : DiskOp) : State :=
  if o.left.isEmpty then
    let s := finishDisk s a o (if o.retried then 1 else 0) 0
    if o.late then modRdc s a fun r => { r with done := r.done.dropLast ++ (r.done.getLast?.map fun d =>
      { d with reloc := true }).toList } else s
  else
    let s := fbump s (rdcF RDC_ERR_CNT0_UNCORR a) o.left.length
    let s := dmkSend (raise s (0x604 + 16 * a) a) 0x0606 a
    let s := if o.fast then s else o.left.foldl (fun s i => enterDefect s a o (unitSector s a o (o.first + i))) s
    let s := finishDisk s a o 0x10 (failMap o.left)
    modRdc s a fun r => { r with done := r.done.dropLast ++ (r.done.getLast?.map fun d => { d with reloc := true }).toList }

/-- EQ and PRECOMP of a head and zone are due when they are read (R356). -/
def calDueAt (s : State) (a head zone : Nat) : Bool :=
  match tget none (s.nv.cal.map fun e => (e.1, some e.2)) ((a * 16 + head) * 64 + zone) with
  | none => true
  | some e => decide (240 < ((getRdc s a).temp - e.temp).natAbs) || decide (7776000000000000 ≤ s.tb.ns - e.made)

def noteCalDue (s : State) (a head zone : Nat) : State :=
  if calDueAt s a head zone then
    modRdc s a fun r => { r with calDue := (r.calDue ++ [(2, head, zone), (3, head, zone)]).dedup }
  else s

/-- READ_PASS (R348): one revolution reads the sectors still failed; `got` lists the units (from FIRST) it delivered. -/
def execReadPass (a : Nat) (got : List Nat) (syncMiss overrun : Nat) (s : State) : Host.Outcome State Fault Refusal :=
  match (getRdc s a).run with
  | none => .next s
  | some o =>
    if o.write || !opReady s a o || !(decide ((getSrv s a).readOfs = passOffset (o.pass + 1))) then .next s
    else match needMode s a 3 with
      | some s => .next s
      | none =>
        let (cyl, head) := fragPlace s a o.band o.frag
        let s := if o.pass = 0 then noteCalDue s a head (actZone s a o.band).1 else s
        let s := fbump (fbump s (rdcF RDC_ERR_CNT0_SYNC_MISS a) syncMiss) (rdcF RDC_ERR_CNT0_OVERRUN a) overrun
        let now := o.left.filter (got.contains ·)
        let units := tget [] s.nv.platter (platterKey a o.band o.frag)
        let s := now.foldl (fun s i => stageUnits s a (o.slot0 + i) o.tag [units.getD (o.first + i) 0]) s
        let pass := o.pass + 1
        let s := if 2 ≤ pass then fbump s (rdcF RDC_ERR_CNT0_RETRY a) now.length else s
        let left := o.left.filter fun i => !(got.contains i)
        let late := 4 ≤ pass && !now.isEmpty
        let o := { o with pass := pass, left := left, retried := o.retried || (2 ≤ pass && !now.isEmpty),
                          late := o.late || late, waitNs := none }
        let s := modRdc s a fun r => { r with run := some o }
        if left.isEmpty || o.fast || (hdaTable s (a / 2)).retryRevs ≤ pass then .next (endDiskRead s a o)
        else
          let s := modRdc s a fun r => { r with run := some { o with waitNs := some s.tb.ns } }
          .next (requestPlace s a cyl head (passOffset (pass + 1)))

/-! ## Retirement, faults, fences -/

/-- R357: retirement of a data path with its source k; the heads are unloaded, and the domain goes off with them. -/
def retireDataPath (s : State) (a k : Nat) : State :=
  if isRetired s (.dataPath a) then s
  else
    let s := raise s (0x600 + 16 * a + k) a
    let s := unloadReq (retirePath s a) a
    let st := srvState s a
    if 4 ≤ st && st ≤ 10 then s else rdcPowerOff s a

/-- FSTAT has been read after a WFLT_N capture (R352): 0x0602 with its value, source k = 2, contained when OPEN, SHORT or a
second capture on the head within 600 s retires the data path. -/
def wfltRead (s : State) (a fstat : Nat) : State :=
  let data := a + fstat % 65536 * 32
  let retires := fstat % 4 != 0 || (getRdc s a).wfltAgain
  let s := modRdc s a fun r => { r with wfltAgain := false }
  let s := dmkSend (report s { src := 0x602 + 16 * a, cls := if retires then .contained else .corrected, data := data }) 0x0602 data
  if retires && !isRetired s (.dataPath a) then
    let s := unloadReq (retirePath s a) a
    let st := srvState s a
    if 4 ≤ st && st ≤ 10 then s else rdcPowerOff s a
  else s

/-- DATA_PATH_RETIRE (R357): by OFFSET, discovery (k = 0), the link (k = 1) or an uncorrectable staging word (k = 7). -/
def execDataPathRetire (a k : Nat) (s : State) : Host.Outcome State Fault Refusal :=
  if a < 32 && rdcServes s a && (k == 0 || k == 1 || k == 7) then .next (retireDataPath s a k) else .next s

/-- WFLT_CAPTURE (R352): the gate falls, MODE returns to SERVO in class 1, FSTAT is read. -/
def execWfltCapture (a : Nat) (s : State) : Host.Outcome State Fault Refusal :=
  if 32 ≤ a || !rdcServes s a then .next s
  else
    let head := fget s (rdcF RDC_ACT_STATE_DHEAD a)
    let last := tget 0 (getRdc s a).wflt head
    let second := last != 0 && decide (s.tb.ns + 1 - last ≤ 600000000000)
    let s := if (getRdc s a).gate then dropGate s a 0x20 else setMode s a 2 true
    let s := modRdc s a fun r => { r with wflt := tset 0 r.wflt head (s.tb.ns + 1), wfltAgain := r.wfltAgain || second }
    .next (fbump (pushFrame s a { cls := 4, addr := 6, why := .fault }) (rdcF RDC_ERR_CNT1_WFLT a))

/-- SPEED_EXCURSION (R342): the spindle of HDA `h` leaves (or, with `inside`, re-enters) the band of ±0.25 %; a write ends after
its sector. -/
def execSpeedExcursion (h : Nat) (inside : Bool) (s : State) : Host.Outcome State Fault Refusal :=
  if 16 ≤ h then .next s
  else .next ([2 * h, 2 * h + 1].foldl (fun s a =>
    let s := fset s (rdcF RDC_ACT_STATE_SPEED_OK a) (b2n inside)
    if inside then s
    else
      let s := dropGate s a 0x40 true
      modRdc s a fun r => { r with run := r.run.map fun o => { o with waitNs := o.waitNs <|> some s.tb.ns } }) s)

/-- A fence reaches the read channels (R352): it holds until the next reset. -/
def diskFence (s : State) : State :=
  let s := (List.range 32).foldl (fun s a =>
    if !rdcServes s a then s
    else
      let s := dropGate s a 0x43 true
      let s := endAllOps s a 0x43
      let s := abortOfsCal (abortCal (modRdc s a fun r => { r with calNext := none }) a 6) a 5
      fset (heaterOff s a) (rdcF RDC_ACT_STATE_STATE a) 7) s
  fset s RDC_STATUS_FENCED 1

/-- DISK_FENCE. -/
def execDiskFence (s : State) : Host.Outcome State Fault Refusal := .next (diskFence s)

/-! ## The serial link (R333 to R336) -/

/-- The frame sent next: the lowest class, in order within it. -/
def nextFrame (fs : List Frame) : Option Frame :=
  fs.foldl (fun b f => match b with
    | none => some f
    | some g => if f.cls < g.cls then some f else some g) none

/-- Put a frame ahead of the others of its class. -/
def frontFrame (s : State) (a : Nat) (f : Frame) : State := modRdc s a fun r => { r with frames := f :: r.frames }

/-- A verified register takes effect. -/
def verified (s : State) (a addr d : Nat) : State :=
  let old := (getRdc s a).heatCode
  let s := modRdc s a fun r => { r with regs := tset 0 r.regs addr (d + 1) }
  if addr = 1 then fset s (rdcF RDC_ACT_STATE_PA_MODE a) d
  else if addr = 2 || addr = 3 then
    let s := if addr = 2 then fset s (rdcF RDC_ACT_STATE_DHEAD a) d else fset s (srvF SRV_SHEAD_SHEAD a) d
    match (getSrv s a).switch_ with
    | some (h, sh) =>
      if paReg s a 2 = some h && paReg s a 3 = some sh then
        modSrv s a fun v => { v with switch_ := none, head := h, lanes := assignLanes s a h }
      else s
    | none => s
  else if 0x10 ≤ addr && addr < 0x1C then
    let t := (hdaTable s (a / 2)).tPreheat
    let far := old = 0 || 64 < (d - old) + (old - d)
    let s := modRdc s a fun r => { r with
      heatCode := d
      heatHead := if d = 0 then none else some (addr - 0x10)
      heatNs := s.tb.ns + (if far then t * 1000 else 20000) }
    fset (fset s (rdcF RDC_HEAT_CODE a) d) (rdcF RDC_ACT_STATE_HEAT_ON a) (b2n (d != 0))
  else s

/-- A read frame that failed: retried, and on the third failure in a row of its register the link has failed. -/
def frameFailed (s : State) (a : Nat) (f : Frame) : State :=
  let n := tget 0 (getRdc s a).fails f.addr + 1
  let s := fbump (modRdc s a fun r => { r with fails := tset 0 r.fails f.addr n }) (rdcF RDC_ERR_CNT1_LINK_RETRY a)
  if 3 ≤ n then
    let s := if f.why = .host then fset (fset s (rdcF RDC_PA_RD_BUSY a) 0) (rdcF RDC_PA_RD_PERR a) 1 else s
    retireDataPath s a 1
  else match f.why with
    | .check d => frontFrame s a { f with data := some d, why := .plain }
    | _ => frontFrame s a f

/-- A read frame's value by what it was read for. -/
def frameRead (s : State) (a : Nat) (f : Frame) (value : Nat) : State :=
  let s := modRdc s a fun r => { r with fails := tset 0 r.fails f.addr 0 }
  match f.why with
  | .check d => verified s a f.addr d
  | .host =>
    fset (fset (fset s (rdcF RDC_PA_RD_DATA a) value) (rdcF RDC_PA_RD_BUSY a) 0) (rdcF RDC_PA_RD_PERR a) 0
  | .fault => wfltRead s a value
  | .ident =>
    let s := fset (fset s (rdcF RDC_PA_ID_ID a) value) (rdcF RDC_PA_ID_VALID a) (b2n (value % 256 == 1))
    if value % 256 = 1 then s else retireDataPath s a 1
  | _ => s

/-- Is a write of this register read back (R334, R335)? -/
def readsBack (addr : Nat) : Bool := addr == 1 || addr == 2 || addr == 3 || addr == 7 || (0x10 ≤ addr && addr < 0x1C)

/-- SERIAL_FRAME (R333, R334): the frame whose turn it is goes over the link; `ok` says that a read came back with good
parity, `value` what it read. -/
def execSerialFrame (a : Nat) (ok : Bool) (value : Nat) (s : State) : Host.Outcome State Fault Refusal :=
  match nextFrame (getRdc s a).frames with
  | none => .next s
  | some f =>
    let s := modRdc s a fun r => { r with frames := r.frames.erase f }
    match f.data with
    | some d =>
      let s := emit s (.serial a f.addr d 1)
      .next (if readsBack f.addr then frontFrame s a { f with data := none, why := .check d } else s)
    | none =>
      let s := emit s (.serial a f.addr value 0)
      let good := ok && (match f.why with | .check d => value == d | _ => true)
      .next (if good then frameRead s a f value else frameFailed s a f)

/-- FSTAT_POLL (R334): while heads are loaded FSTAT is read. -/
def execFstatPoll (a : Nat) (s : State) : Host.Outcome State Fault Refusal :=
  if a < 32 && rdcServes s a && headsOn s a then .next (pushFrame s a { cls := 4, addr := 6 }) else .next s

/-- Addresses of Table 11-2. -/
def paListed (addr : Nat) : Bool :=
  addr == 0 || addr == 1 || addr == 2 || addr == 3 || addr == 4 || addr == 6 || addr == 7 ||
    (0x10 ≤ addr && addr < 0x1C) || (0x30 ≤ addr && addr < 0x3C)

/-- PREAMP_READ (R359): a write of RDC_PA_RD. -/
def execPreampRead (a : Nat) (value : Word) (s : State) : Host.Outcome State Fault Refusal :=
  if 32 ≤ a then .next s
  else
    let addr := bitsGet value 0 8
    if !rdcServes s a || !paListed addr then .next (fset s RDC_STATUS_RSV_WRITE 1)
    else
      let s := fset s (rdcF RDC_PA_RD_ADDR a) addr
      if bitsGet value 8 1 = 0 || fget s (rdcF RDC_PA_RD_BUSY a) == 1 then .next s
      else .next (pushFrame (fset s (rdcF RDC_PA_RD_BUSY a) 1) a { cls := 4, addr := addr, why := .host })

/-! ## Heater (R353) -/

/-- HEATER_UPDATE: every 1 s; `t` is HDAhh_TH in 1/16 °C, none while INVALID. -/
def execHeaterUpdate (a : Nat) (t : Option Int) (s : State) : Host.Outcome State Fault Refusal :=
  if 32 ≤ a then .next s
  else
    let s := modRdc s a fun r => match t with
      | some x => { r with temp := x, tempNs := s.tb.ns }
      | none => if 60000000000 ≤ s.tb.ns - r.tempNs then { r with temp := 640 } else r
    let s := fset s (rdcF RDC_HEAT_TEMP a) (satSigned 16 (getRdc s a).temp)
    let r := getRdc s a
    match r.heatHead with
    | some h =>
      let code := heatCode s a h (match r.run with | some o => o.write | none => false)
      .next (if r.heatCode = 0 || r.heatCode = code then s else pushHeat s a h code)
    | none => .next s

/-- HEATER_IDLE_OFF: 100 ms without an operation. -/
def execHeaterIdleOff (a : Nat) (s : State) : Host.Outcome State Fault Refusal :=
  let r := getRdc s a
  if a < 32 && r.run.isNone && decide (100000000 ≤ s.tb.ns - r.idleNs) then .next (heaterOff s a) else .next s

/-! ## Calibration (R354 to R356) -/

/-- Calibration `p` of a head and zone may end now: it runs, or it is due and nothing runs. -/
def calMayEnd (s : State) (a p head zone : Nat) : Bool :=
  let r := getRdc s a
  a < 32 && rdcServes s a && (r.calRun == some (p, head, zone) ||
    (r.calRun.isNone && r.run.isNone && r.calDue.contains (p, head, zone)))

def calDone (s : State) (a p head zone : Nat) : State :=
  modRdc s a fun r => { r with calDue := r.calDue.filter fun e => e != (p, head, zone) }

/-- OFFSET: ends OK (1), NOT_QUIESCENT (2) or ABORTED (6); three failures in a row retire the data path. -/
def execOffsetCal (a result : Nat) (s : State) : Host.Outcome State Fault Refusal :=
  if calMayEnd s a 1 0 0 && (result == 1 || result == 2 || result == 6) then
    let s := modRdc (endCal (calDone s a 1 0 0) a 1 0 0 result) a fun r =>
      { r with offsetFails := if result = 1 then 0 else r.offsetFails + 1 }
    .next (if 3 ≤ (getRdc s a).offsetFails then retireDataPath s a 0 else s)
  else .next s

/-- Key of a calibration entry. -/
def calKey (a head zone : Nat) : Nat := (a * 16 + head) * 64 + zone

/-- The entry in force for a head and zone, the zone's defaults where none is stored (R344). -/
def calEntry (s : State) (a head zone : Nat) : CalEntry :=
  match s.nv.cal.find? fun e => e.1 == calKey a head zone with
  | some e => e.2
  | none =>
    let z := (hdaTable s (a / 2)).zones.getD zone {}
    { eq := z.eq, target := z.target, pc := z.pc }

def setCal (s : State) (a head zone : Nat) (e : CalEntry) : State :=
  { s with nv := { s.nv with cal := tset {} s.nv.cal (calKey a head zone) e } }

/-- Values a calibration found, as open values. -/
def drawCal (s : State) : List Int × State := (Config.calResult s.freeCtr, { s with freeCtr := s.freeCtr + 1 })

/-- EQ: the taps and g1 to g4 adapt, g0 held. -/
def execEqCal (a head zone result : Nat) (s : State) : Host.Outcome State Fault Refusal :=
  if calMayEnd s a 2 head zone && (result == 1 || (3 ≤ result && result ≤ 6)) then
    let s := calDone s a 2 head zone
    let s := if result = 1 then
        let (xs, s) := drawCal s
        let e := calEntry s a head zone
        setCal s a head zone { e with eq := (List.range 16).map fun i => xs.getD i 0,
                                      target := e.target.headD 0 :: (List.range 4).map fun i => xs.getD (16 + i) 0,
                                      temp := (getRdc s a).temp, made := s.tb.ns }
      else s
    .next (endCal s a 2 head zone result)
  else .next s

/-- PRECOMP: the set of lowest mean-square error is kept. -/
def execPrecomp (a head zone result : Nat) (s : State) : Host.Outcome State Fault Refusal :=
  if calMayEnd s a 3 head zone && (result == 1 || (3 ≤ result && result ≤ 6)) then
    let s := calDone s a 3 head zone
    let s := if result = 1 then
        let (xs, s) := drawCal s
        setCal s a head zone { calEntry s a head zone with
          pc := (List.range 3).map fun i => (xs.getD i 0).toNat % 32, temp := (getRdc s a).temp, made := s.tb.ns }
      else s
    .next (endCal s a 3 head zone result)
  else .next s

/-- CAL_REQUEST (R356): a write of RDC_CAL_CTL; a request made while one runs is latched, the latest replacing it. -/
def execCalRequest (a : Nat) (value : Word) (s : State) : Host.Outcome State Fault Refusal :=
  if 32 ≤ a then .next s
  else
    let t := hdaTable s (a / 2)
    let head := bitsGet value 0 4
    let zone := bitsGet value 4 6
    let proc := bitsGet value 10 2
    let badH := decide (t.heads ≤ head)
    let badZ := decide (t.zones.length ≤ zone)
    let s := if badH || badZ || !rdcServes s a then fset s RDC_STATUS_RSV_WRITE 1 else s
    if !rdcServes s a then .next s
    else
      let s := if badH then s else fset s (rdcF RDC_CAL_CTL_HEAD a) head
      let s := if badZ then s else fset s (rdcF RDC_CAL_CTL_ZONE a) zone
      let s := fset s (rdcF RDC_CAL_CTL_PROC a) proc
      if bitsGet value 12 1 = 0 || proc = 0 || rdcFenced s then .next s
      else
        let job := if proc = 1 then (1, 0, 0)
          else (proc, fget s (rdcF RDC_CAL_CTL_HEAD a), fget s (rdcF RDC_CAL_CTL_ZONE a))
        if (getRdc s a).calRun.isSome then
          .next (fset (modRdc s a fun r => { r with calNext := some job }) (rdcF RDC_CAL_STAT_PEND a) 1)
        else
          .next (showRdc (fset (modRdc s a fun r => { r with calRun := some job }) (rdcF RDC_CAL_STAT_BUSY a) 1) a)

/-- OFFSET_CAL_TICK (R356): OFFSET is due every 10 minutes. -/
def execOffsetCalTick (a : Nat) (s : State) : Host.Outcome State Fault Refusal :=
  if a < 32 && rdcServes s a then .next (modRdc s a fun r => { r with calDue := ((1, 0, 0) :: r.calDue).dedup })
  else .next s

end Sys2Proof.Machine
end

