-- ==== Sys2Proof/Machine/SpindleOps.lean ====
section
/-!
DEFINITION. Machine/SpindleOps.lean: the operations of the spindle unit (14_spindle_drive.md): states, tracker, advance,
braking limit, modulation, starts and stops, retirement of an HDA. Speeds are held in revolutions per second and angles in
turns, so that the comparisons with rated speed are exact.
-/

namespace Sys2Proof.Machine

def getSpn (s : State) (h : Nat) : Spindle := tget {} s.spn h

def modSpn (s : State) (h : Nat) (f : Spindle → Spindle) : State := { s with spn := tmod {} s.spn h f }

/-- Field of HDA `h`'s SPN_ registers (R438). -/
def spnF (f : Fld) (h : Nat) : Fld := f.ix h 0x1000

/-- The spindle record (Table 14-3). -/
def spinRec (s : State) (h : Nat) : SpinRec := ((image s).motor.spins.getD h none).getD {}

/-- The image's nominal value of a winding item, as binary32: what an item that is NOT_QUIESCENT holds (R89; DEDUCED). -/
def nominalItem (s : State) (item : Nat) : Nat :=
  let x : Rat := if item < 0x200 then
      let r := spinRec s ((item - 0x100) / 4)
      if item % 4 = 0 then r.rNom else if item % 4 = 1 then r.lNom else r.keNom
    else
      let r := actRec s ((item - 0x200) / 4)
      if item % 4 = 0 then r.rNom else if item % 4 = 1 then r.lNom else r.kt
  (ratToFp x).toNat

/-- First source of HDA `h` (R437). -/
def spnSrc (h : Nat) : Nat := 0x880 + 16 * h

/-- Pole pairs. -/
def polePairs (s : State) (h : Nat) : Rat := ((((spinRec s h).poles / 2 : Nat)) : Rat)

/-- Rated speed in revolutions per second. -/
def rated (s : State) (h : Nat) : Rat := (((hdaTable s h).rpm : Nat) : Rat) / 60

/-- A percentage of rated speed. -/
def ratedPct (s : State) (h p : Nat) : Rat := rated s h * ((p : Nat) : Rat) / 100

/-- Ke: discovery item 0x102 + 4h while VALID, else KE_NOM (R409). -/
def keNow (s : State) (h : Nat) : Rat := (paramValue s (0x102 + 4 * h)).getD (spinRec s h).keNom

/-- λ = Ke ÷ pp. -/
def fluxLinkage (s : State) (h : Nat) : Rat := keNow s h / polePairs s h

/-- Revolutions per second from rad/s. -/
def fromRad (x : Rat) : Rat := x / (2 * Config.pi)

def toRad (x : Rat) : Rat := x * (2 * Config.pi)

/-- Phase-peak back-EMF in volts at a mechanical speed. -/
def backEmf (s : State) (h : Nat) (rps : Rat) : Rat := toRad rps * keNow s h

/-- PWM period in ns. -/
def spnPeriod (r : SpinRec) : Rat := 1000000 / ((r.carrier : Nat) : Rat)

/-- T_LL ÷ T_PWM. -/
def spnT (r : SpinRec) : Rat := ((r.tLL : Nat) : Rat) / spnPeriod r

/-- States whose bridge is driven, BRAKE included (R421). -/
def spnDriven (st : Nat) : Bool := 3 ≤ st && st ≤ 8 || st == 11

/-- Set AT_SPEED in both registers. -/
def setAtSpeed (s : State) (h : Nat) (b : Bool) : State :=
  fsetBit (fset s (spnF SPN_STATE_AT_SPEED h) (b2n b)) SPN_STATUS_AT_SPEED h b

/-- Enter a spindle state (Table 14-4): the bridge, and the tasks that the state does not use. -/
def setSpnState (s : State) (h st : Nat) : State :=
  let s := fset s (spnF SPN_STATE_STATE h) st
  let s := modSpn s h fun p => { p with stateNs := s.tb.ns }
  let s := emit s (.bridge (100 + h) (if spnDriven st then st else 0))
  let s := if st = 8 || st = 9 || st = 10 || st = 2 || st = 12 then disableTask (disableTask s (64 + h)) (80 + h) else s
  if st = 5 || st = 6 then s else setAtSpeed (modSpn s h fun p => { p with inBand := none }) h false

def setTracker (s : State) (h m : Nat) : State := fset s (spnF SPN_STATE_TRACKER h) m

/-- Is an actuator of the HDA loaded (or loading, or unloading)? -/
def hdaLoaded (s : State) (h : Nat) : Bool :=
  [2 * h, 2 * h + 1].any fun a => let st := srvState s a; 4 ≤ st && st ≤ 10

/-- Is an actuator of the HDA STRANDED (R432)? -/
def hdaStranded (s : State) (h : Nat) : Bool := [2 * h, 2 * h + 1].any fun a => srvState s a == 12

/-- HDAs in spin-up (R91), `h` left out. -/
def spinningUp (s : State) (h : Nat) : Nat := (s.spn.filter fun e => e.1 != h && e.2.startup).length

def spinSlotFree (s : State) (h : Nat) : Bool :=
  spinningUp s h < (match (image s).spinup with | some p => p.spinConc | none => 2)

/-! ## Phase advance and the braking limit (R419, R429) -/

/-- Linear interpolation between ADV entries, in 1/100 degree; the last entry's value above it. -/
def advFrom (rpm : Rat) : List (Nat × Nat) → Rat
  | [] => 0
  | [(_, g)] => ((g : Nat) : Rat)
  | (x0, g0) :: (x1, g1) :: rest =>
    if rpm < ((x1 : Nat) : Rat) then
      ((g0 : Nat) : Rat) + (((g1 : Nat) : Rat) - ((g0 : Nat) : Rat)) * (rpm - ((x0 : Nat) : Rat)) /
        (((x1 : Nat) : Rat) - ((x0 : Nat) : Rat))
    else advFrom rpm ((x1, g1) :: rest)

/-- γ in force, in turns. -/
def advance (s : State) (h : Nat) : Rat := advFrom ((getSpn s h).omega * 60) (spinRec s h).adv / 36000

/-- I_RG of R429 in amperes. -/
def brakeLimit (s : State) (h : Nat) (vm : Rat) : Rat :=
  let m := (image s).motor
  (spinRec s h).iBrake * max 0 (min 1 ((((m.vmMax : Nat) : Rat) / 1000 - vm) / (((m.vmBand : Nat) : Rat) / 1000)))

/-! ## Starting (R414, R420) -/

/-- The speed loop starts at the tracker's speed with the full ramp (R420). -/
def startRamp (s : State) (h : Nat) : State :=
  modSpn (enableTask s (64 + h)) h fun p =>
    { p with wsp := p.omega, ramp := fromRad (spinRec s h).acc, satWas := false, inBand := none }

/-- Record a spin-up (0x0880, bit 4 for a catch-spin). -/
def noteSpinup (s : State) (h : Nat) (catch_ : Bool) : State :=
  dmkSend (modSpn s h fun p => { p with startup := true, firstNs := if p.startup then p.firstNs else s.tb.ns }) 0x0880 (h + b2n catch_ * 16)

/-- ALIGN (R414 step 2): the FOC task on θ = 0 with id = I_ALIGN. -/
def enterAlign (s : State) (h : Nat) : State :=
  let t := 80 + h
  let s := setSpnState (enableTask s t) h 3
  let s := setIn (setIn (setIn s t 6 0) t 9 0) t 10 (ratToFp (spinRec s h).iAlign)
  modSpn s h fun p => { p with theta := 0, omega := 0, held := true, calTries := 0, calWant := false, forced := 0,
                               zcRun := 0, zcNs := none, gaps := [] }

/-- Are the shunt offsets fresh: the last success at most 24 h old (R422)? -/
def offsetsFresh (s : State) (h : Nat) : Bool :=
  match (getSpn s h).calOk with
  | some t => decide (s.tb.ns - t ≤ 86400000000000)
  | none => false

/-- A start from STOPPED: straight to ALIGN with fresh offsets, else after the calibration. A calibration that runs on request
meanwhile is aborted. -/
def startSpin (s : State) (h : Nat) : State :=
  if offsetsFresh s h then
    let s := if fget s (spnF SPN_CAL_BUSY h) = 1 then fset (fset s (spnF SPN_CAL_BUSY h) 0) (spnF SPN_CAL_RESULT h) 3 else s
    enterAlign s h
  else fset (modSpn s h fun p => { p with calWant := true }) (spnF SPN_CAL_BUSY h) 1

/-- Enter CATCH (R427). -/
def enterCatch (s : State) (h : Nat) : State :=
  noteSpinup (setTracker (setSpnState s h 10) h 1) h true

/-- FOC with the tracker in VECTOR mode. -/
def enterFoc (s : State) (h : Nat) : State := setTracker (setSpnState s h 6) h 2

/-- COAST. -/
def coast (s : State) (h : Nat) : State := setSpnState s h 9

/-! ## Stopping (R428) -/

/-- DECEL begins: from FOC (or DECEL-capable states) at once, from SIX_STEP at its next crossing, or by coasting below
FOC_OFF_PCT. -/
def startDecel (s : State) (h : Nat) : State :=
  let p := getSpn s h
  let s := modSpn s h fun p => { p with stopReq := none, startup := false }
  if spnState s h = 6 then
    modSpn (setSpnState s h 7) h fun p => { p with wsp := p.omega }
  else if spnState s h = 5 then
    (if p.omega < ratedPct s h (spinRec s h).focOff then coast s h else modSpn s h fun p => { p with focWait := true })
  else s

/-- A stop request (Table 14-5); `safe` says that it comes from SAFE entry. -/
def stopRequest (s : State) (h : Nat) (safe : Bool) : State :=
  if hdaStranded s h && !safe then s
  else
    let st := spnState s h
    if st = 3 || st = 4 || st = 10 then coast (modSpn s h fun p => { p with startup := false }) h
    else if st = 5 || st = 6 then
      (if hdaLoaded s h then modSpn s h fun p => { p with stopReq := some safe } else startDecel s h)
    else if st = 2 then modSpn s h fun p => { p with startup := false, calWant := false }
    else s

/-- Both domains of a retired, standing HDA power off (R434 step 4). -/
def hdaPowerOff (s : State) (h : Nat) : State :=
  setPdOn (setPdOn (setPdOn s (167 + h) false) (135 + 2 * h) false) (136 + 2 * h) false

/-- RETIRED at standstill. -/
def spnRetired (s : State) (h : Nat) : State :=
  hdaPowerOff (setSpnState (modSpn s h fun p => { p with retireOwed := false, startup := false }) h 12) h

/-- R434: an HDA is retired. `drive` says that the current loop works and nothing forbids driving. -/
def retireHda (s : State) (h : Nat) (drive : Bool) : State :=
  if isRetired s (.hda h) then s
  else
    let s := modPwr s fun p => { p with retired := p.retired ++ [.hda h] }
    let s := fsetBit s SPN_RETIRED_RETIRED h true
    let s := dmkSend (raise s (spnSrc h + 7) h) 0x0887 h
    let s := retractReq (retractReq s (2 * h)) (2 * h + 1)
    let s := minWatch (memberGone s true h none)
    let s := modSpn s h fun p => { p with retireOwed := true, startup := false, upLatch := false }
    let st := spnState s h
    if st = 0 || st = 1 || st = 2 then spnRetired s h
    else if st = 9 || st = 8 || st = 7 then s
    else if drive then stopRequest s h false
    else if st = 11 then s
    else coast s h

/-! ## Modulation (R416, R417, R421) -/

/-- Phase voltages of a vector (inverse Clarke). -/
def phaseVolts (va vb : Rat) : Rat × Rat × Rat :=
  let k := Config.sqrt 3 / 2
  (va, -va / 2 + k * vb, -va / 2 - k * vb)

/-- High-side duties of space-vector modulation, and whether the vector was scaled to the hexagon (R417). -/
def svm (vm t va vb : Rat) : (Rat × Rat × Rat) × Bool :=
  let (u, v, w) := phaseVolts va vb
  let m := max u (max v w) - min u (min v w)
  let sc := if vm * (1 - t) < m then vm * (1 - t) / m else 1
  let (u, v, w) := (u * sc, v * sc, w * sc)
  let off := -(max u (max v w) + min u (min v w)) / 2
  let d := fun x => 1 / 2 - t / 2 + (x + off) / vm
  ((d u, d v, d w), decide (vm * (1 - t) < m))

/-- High and low leg of a six-step sector (Table 14-1), legs U, V, W as 0, 1, 2. -/
def sectorLegs (k : Nat) : Nat × Nat :=
  match k % 6 with
  | 0 => (0, 1)
  | 1 => (0, 2)
  | 2 => (1, 2)
  | 3 => (1, 0)
  | 4 => (2, 0)
  | _ => (2, 1)

/-- Floating phase and the polarity of its crossing (true for rising). -/
def sectorCross (k : Nat) : Nat × Bool :=
  match k % 6 with
  | 0 => (2, false)
  | 1 => (1, true)
  | 2 => (0, false)
  | 3 => (2, true)
  | 4 => (1, false)
  | _ => (0, true)

/-- Crossing angle of a sector in turns: 240°, 300°, 0°, 60°, 120°, 180°. -/
def sectorAngle (k : Nat) : Rat := (((k % 6 + 4) % 6 : Nat) : Rat) / 6

/-- Sector whose θ range holds an angle in turns: sector 0 from 210°. -/
def sectorOf (theta : Rat) : Nat := (((theta - 7 / 12) * 6).floor % 6).toNat

/-- V_LL of R416: the vector's component along the pair's current direction (−30° + 60° k), times √3. -/
def lineVolts (k : Nat) (va vb : Rat) : Rat :=
  let ang := toRad ((((k % 6 : Nat) : Rat) * 2 - 1) / 12)
  (va * Config.cos ang + vb * Config.sin ang) * Config.sqrt 3

/-- One pulse of six-step drive: below MINPULSE dropped, nothing carried (R421). -/
def stepPulse (minPulse : Nat) (w : Rat) : Rat × Nat :=
  if w ≤ 0 then (0, 0) else if w < ((minPulse : Nat) : Rat) then (0, 1) else (w, 0)

/-- Drive a sector's pair at V_LL. -/
def driveSector (s : State) (h : Nat) (vm va vb : Rat) : State :=
  let r := spinRec s h
  let p := spnPeriod r
  let k := (getSpn s h).sector
  let duty := clampDuty (spnT r) (lineVolts k va vb / vm)
  let (hi, drop) := stepPulse r.minPulse (duty * p)
  let lo := if 0 < hi && hi < ((2 * r.dead : Nat) : Rat) then 0 else p - hi
  let (hl, ll) := sectorLegs k
  let s := fbump s (spnF SPN_CNT0_PWM_SKIP_CNT h) drop
  emit (emit s (.gates (100 + h) hl hi lo 0)) (.gates (100 + h) ll 0 p 0)

/-- Drive the three legs by space-vector modulation. -/
def driveSvm (s : State) (h : Nat) (vm va vb : Rat) (i : List Rat) : State :=
  let r := spinRec s h
  let p := spnPeriod r
  let ((du, dv, dw), clamped) := svm vm (spnT r) va vb
  let s := if clamped then fbump s (spnF SPN_CNT0_CLAMP h) else s
  let c := (getSpn s h).carry
  let (ou, cu, ku) := legOut r.minPulse r.dead p du (c.getD 0 0, c.getD 1 0)
  let (ov, cv, kv) := legOut r.minPulse r.dead p dv (c.getD 2 0, c.getD 3 0)
  let (ow, cw, kw) := legOut r.minPulse r.dead p dw (c.getD 4 0, c.getD 5 0)
  let s := modSpn s h fun x => { x with carry := [cu.1, cu.2, cv.1, cv.2, cw.1, cw.2] }
  let s := fbump s (spnF SPN_CNT0_PWM_SKIP_CNT h) (ku + kv + kw)
  let g := fun (s : State) (leg : Nat) (o : Rat × Rat) =>
    emit s (.gates (100 + h) leg o.1 o.2 (compSign (i.getD leg 0) r.iMax))
  g (g (g s 0 ou) 1 ov) 2 ow

end Sys2Proof.Machine
end

