-- ==== Sys2Proof/Machine/Spindle.lean ====
section
/-!
DEFINITION. Machine/Spindle.lean: the commands of the spindle unit (14_spindle_drive.md).
-/

namespace Sys2Proof.Machine

/-! ## Requests (R413, Table 14-5) -/

/-- SPINUP_REQUEST. -/
def spinupRequest (s : State) (h : Nat) : State :=
  if isRetired s (.hda h) then s
  else match spnState s h with
    | 2 => startSpin (noteSpinup (modSpn s h fun p => { p with fails := 0, calTries := 0 }) h false) h
    | 7 =>
      let s := noteSpinup s h true
      let s := enterFoc (modSpn s h fun p => { p with stopReq := none }) h
      modSpn s h fun p => { p with wsp := p.omega, ramp := fromRad (spinRec s h).acc, satWas := false }
    | 8 => enterCatch s h
    | 9 => enterCatch s h
    | 11 => modSpn s h fun p => { p with upLatch := true }
    | _ => s

def execSpinupRequest (h : Nat) (s : State) : Host.Outcome State Fault Refusal :=
  if h < 16 then .next (spinupRequest s h) else .next s

/-- SPINDLE_STOP_REQUEST: `safe` says that it comes from SAFE entry. -/
def execSpindleStopRequest (h : Nat) (safe : Bool) (s : State) : Host.Outcome State Fault Refusal :=
  if h < 16 then .next (stopRequest s h safe) else .next s

/-- DRIVE_OFF_REQUEST: the warm stop's. -/
def driveOff (s : State) (h : Nat) : State :=
  let st := spnState s h
  if (3 ≤ st && st ≤ 8) || st = 10 then coast (modSpn s h fun p => { p with startup := false, stopReq := none }) h else s

def execDriveOffRequest (h : Nat) (s : State) : Host.Outcome State Fault Refusal :=
  if h < 16 then .next (driveOff s h) else .next s

/-- BALLAST_REQUEST (R431). -/
def ballastRequest (s : State) (h : Nat) : State :=
  let st := spnState s h
  if 5 ≤ st && st ≤ 8 then setSpnState (if st = 8 then enableTask s (80 + h) else s) h 11
  else if st = 3 || st = 4 || st = 10 then coast s h
  else s

def execBallastRequest (h : Nat) (s : State) : Host.Outcome State Fault Refusal :=
  if h < 16 then .next (ballastRequest s h) else .next s

/-! ## Starting (R414, R415) -/

/-- ALIGN_END: T_ALIGN has passed; the forced ramp starts at F_OL0. -/
def execAlignEnd (h : Nat) (s : State) : Host.Outcome State Fault Refusal :=
  let r := spinRec s h
  if h < 16 && spnState s h == 3 && decide (1000000 * r.tAlign ≤ s.tb.ns - (getSpn s h).stateNs) then
    let s := setSpnState s h 4
    .next (modSpn s h fun p => { p with
      theta := 0, omega := ((r.fOl0 : Nat) : Rat) / polePairs s h, sector := sectorOf (1 / 4), commNs := s.tb.ns,
      zcNs := none, zcRun := 0 })
  else .next s

/-- OPEN_LOOP_TIMEOUT: the loop has not closed T_OPEN_MAX after OPEN began; the third failure of a spin-up retires. -/
def execOpenLoopTimeout (h : Nat) (s : State) : Host.Outcome State Fault Refusal :=
  if h < 16 && spnState s h == 4 && decide (1000000 * (spinRec s h).tOpenMax ≤ s.tb.ns - (getSpn s h).stateNs) then
    let n := (getSpn s h).fails + 1
    let s := modSpn s h fun p => { p with fails := n }
    let s := report s { src := spnSrc h + 1, cls := if 3 ≤ n then .contained else .corrected, data := h }
    let s := coast (dmkSend s 0x0882 h) h
    .next (if 3 ≤ n then retireHda s h false else s)
  else .next s

/-- Are crossings watched in OPEN: the expected phase-peak back-EMF exceeds 100 mV? -/
def openWatched (s : State) (h : Nat) : Bool := decide (1 / 10 < backEmf s h (getSpn s h).omega)

/-- Electrical turns since the last commutation. -/
def sinceComm (s : State) (h : Nat) : Rat :=
  let p := getSpn s h
  p.omega * polePairs s h * ((s.tb.ns - p.commNs : Nat) : Rat) / 1000000000

/-- R415: is a crossing of `phase` accepted? `onNs` is the high-side on-time at whose centre it was sampled, `hyst` says
that it passed the hysteresis. -/
def zcAccepted (s : State) (h phase : Nat) (rising : Bool) (onNs : Nat) (hyst : Bool) : Bool :=
  let p := getSpn s h
  let r := spinRec s h
  sectorCross p.sector == (phase, rising) && decide (1000 ≤ onNs) && hyst &&
    decide (((r.blankDeg : Nat) : Rat) / 360 < sinceComm s h) &&
    (match p.zcNs with | some t => decide (t ≤ p.commNs) | none => true)

/-- Tracker in ZC mode at an accepted crossing (R410). -/
def trackZc (s : State) (h : Nat) : State :=
  let p := getSpn s h
  let gaps := match p.zcNs with
    | some t => (((s.tb.ns - t : Nat) : Rat) :: p.gaps).take 6
    | none => p.gaps
  let mean := gaps.sum / ((gaps.length : Nat) : Rat)
  let we := if gaps.isEmpty || mean = 0 then p.omega * polePairs s h else 1000000000 / (6 * mean)
  modSpn s h fun p => { p with
    zcNs := some s.tb.ns, gaps := gaps, theta := sectorAngle p.sector, omega := we / polePairs s h, held := true,
    forced := 0 }

/-- When the next commutation falls: (30° − advance) ÷ ω_e after the crossing. -/
def commDelay (s : State) (h : Nat) : Nat :=
  let we := (getSpn s h).omega * polePairs s h
  if we = 0 then 0 else ((1 / 12 - advance s h) / we * 1000000000).floor.toNat

/-- Hand-over at a crossing of SIX_STEP (R418, R428): to DECEL where a stop waits, to the Ke measurement where it is still to
be made, else to FOC. -/
def handOver (s : State) (h : Nat) : State :=
  let p := getSpn s h
  if p.focWait then
    setTracker (setSpnState (modSpn s h fun p => { p with focWait := false, wsp := p.omega }) h 7) h 2
  else if ratedPct s h (spinRec s h).focOn ≤ p.omega then
    if (param s (0x102 + 4 * h)).2.1 = 0 && !p.measKe then
      setTracker (setSpnState (modSpn s h fun p => { p with measKe := true }) h 10) h 1
    else enterFoc s h
  else s

/-- ZERO_CROSSING (R415): an accepted crossing of the floating phase; in OPEN, ZC_N sectors in a row close the loop. -/
def execZeroCrossing (h phase : Nat) (rising : Bool) (onNs : Nat) (hyst : Bool) (s : State) :
    Host.Outcome State Fault Refusal :=
  let st := spnState s h
  if 16 ≤ h || !(zcAccepted s h phase rising onNs hyst) then .next s
  else if st = 5 then
    let s := trackZc s h
    .next (handOver (modSpn s h fun p => { p with commDue := some (s.tb.ns + commDelay s h) }) h)
  else if st = 4 && openWatched s h then
    let s := trackZc s h
    let s := modSpn s h fun p => { p with zcRun := p.zcRun + 1 }
    if (spinRec s h).zcN ≤ (getSpn s h).zcRun then
      let s := startRamp (setTracker (setSpnState s h 5) h 0) h
      .next (modSpn s h fun p => { p with commDue := some (s.tb.ns + commDelay s h) })
    else .next s
  else .next s

/-- The next sector begins. -/
def commutate (s : State) (h : Nat) : State :=
  modSpn s h fun p => { p with sector := (p.sector + 1) % 6, lastGap := s.tb.ns - p.commNs, commNs := s.tb.ns,
                               commDue := none }

/-- COMMUTATION: the delay after the crossing has passed. -/
def execCommutation (h : Nat) (s : State) : Host.Outcome State Fault Refusal :=
  let due := match (getSpn s h).commDue with | some t => decide (t ≤ s.tb.ns) | none => false
  if h < 16 && spnState s h == 5 && due then .next (commutate s h) else .next s

/-- FORCED_COMMUTATION: no crossing within 1.5 times the previous sector's duration. -/
def execForcedCommutation (h : Nat) (s : State) : Host.Outcome State Fault Refusal :=
  let p := getSpn s h
  let none_ := match p.zcNs with | some t => decide (t ≤ p.commNs) | none => true
  if h < 16 && spnState s h == 5 && none_ && decide (3 * p.lastGap ≤ 2 * (s.tb.ns - p.commNs)) then
    let s := fbump s (spnF SPN_CNT1_FORCED h)
    .next (modSpn (commutate s h) h fun p => { p with forced := p.forced + 1 })
  else .next s

/-! ## A PWM period (R410, R416 to R424) -/

def turnFrac (x : Rat) : Rat := x - (x.floor : Rat)

/-- Phase currents by the shunts that still count: a lost one is the negative sum of the other two (R424); in six-step the
floating phase is too (R422). -/
def phaseCurrents (p : Spindle) (six : Bool) : List Rat :=
  let v := p.shunts.map fun x => x.value
  let i := fun k => v.getD k 0
  let gone := p.shunts.findIdx? fun x => x.lost
  let k := if six then some (sectorCross p.sector).1 else gone
  (List.range 3).map fun j => if k = some j then -(i ((j + 1) % 3) + i ((j + 2) % 3)) else i j

/-- The tracker after one period of `dt` seconds (R410, R414): the forced angle, ZC extrapolation, or what the VECTOR-mode loop
gave. -/
def trackPeriod (s : State) (h : Nat) (dt theta omega : Rat) : State :=
  let st := spnState s h
  let r := spinRec s h
  if st = 4 then
    let f0 := (getSpn s h).omega * polePairs s h
    let f1 := f0 + ((r.accOl : Nat) : Rat) * dt
    let th := turnFrac ((getSpn s h).theta + (f0 + f1) / 2 * dt)
    let k := sectorOf (turnFrac (th + 1 / 4))
    modSpn s h fun p =>
      let seen := match p.zcNs with | some t => decide (p.commNs < t) | none => false
      { p with theta := th, omega := f1 / polePairs s h,
               sector := k, commNs := if k = p.sector then p.commNs else s.tb.ns,
               lastGap := if k = p.sector then p.lastGap else s.tb.ns - p.commNs,
               zcRun := if k = p.sector || seen then p.zcRun else 0 }
  else if st = 3 then s
  else if fget s (spnF SPN_STATE_TRACKER h) = 0 then
    modSpn s h fun p => { p with theta := turnFrac (p.theta + p.omega * polePairs s h * dt) }
  else
    let jump := |omega - (getSpn s h).omega| * polePairs s h
    let limit := fromRad (6 * polePairs s h ^ 2 * fluxLinkage s h * r.iMax / r.j * dt)
    modSpn s h fun p => { p with theta := turnFrac theta, omega := omega, held := true,
                                 losRun := if p.held && limit < jump && (st == 6 || st == 7 || st == 11) then max p.losRun r.losN
                                           else p.losRun }

/-- ω_sp, its ramp and the reductions of R420; in DECEL it falls. -/
def rampPeriod (s : State) (h : Nat) (dt : Rat) : State :=
  let st := spnState s h
  let r := spinRec s h
  let p := getSpn s h
  let sat := taskSat s (64 + h) || taskSat s (80 + h)
  let s := fset s (spnF SPN_STATE_SAT h) (b2n sat)
  if st = 7 then modSpn s h fun p => { p with wsp := max 0 (p.wsp - fromRad r.decel * dt) }
  else if st = 5 || st = 6 then
    let onset := sat && !p.satWas
    let s := if onset then fbump s (spnF SPN_CNT1_SAT_ONSET h) else s
    modSpn s h fun p => { p with
      satWas := sat
      ramp := if onset then max (3 / 4 * p.ramp) (fromRad r.accMin) else p.ramp
      wsp := if sat then p.wsp else if p.wsp < rated s h then min (rated s h) (p.wsp + p.ramp * dt) else p.wsp }
  else s

/-- Speed bands: at speed (R420), and below 95 % for 10 ms, which asks for the unload of R404. -/
def bandPeriod (s : State) (h : Nat) : State :=
  let p := getSpn s h
  let near := decide (|p.omega - rated s h| ≤ rated s h / 1000)
  let low := decide (p.omega < rated s h * 95 / 100)
  let s := modSpn s h fun p => { p with
    inBand := if near then p.inBand <|> some s.tb.ns else none
    lowNs := if low then p.lowNs <|> some s.tb.ns else none }
  match (getSpn s h).lowNs with
  | some t => if 10000000 ≤ s.tb.ns - t then unloadReq (unloadReq s (2 * h)) (2 * h + 1) else s
  | none => s

/-- iq and id commands for the FOC task (R414, R419, R429, R431). -/
def focCommands (s : State) (h : Nat) (vm : Rat) : Rat × Rat :=
  let st := spnState s h
  let iqs := if st = 11 then (getSpn s h).regenIq else fpRat (outWord s (64 + h) 0)
  let ids := fpRat (outWord s (64 + h) 1)
  if st = 3 || st = 4 then (0, (spinRec s h).iAlign)
  else
    let g := toRad (advance s h)
    let (iq, id) := if st = 5 then (iqs, ids) else (iqs * Config.cos g, ids - |iqs| * Config.sin g)
    (if iq < 0 then max iq (-(brakeLimit s h vm)) else iq, id)

/-- Task inputs of a period (Table 12-7) and the triggers. -/
def feedSpindle (s : State) (h : Nat) (vm : Rat) (i : List Rat) : State :=
  let p := getSpn s h
  let r := spinRec s h
  let (iq, id) := focCommands s h vm
  let step : Nat → Rat := fun t => spnPeriod r * (((taskEnt s t).div : Nat) : Rat) / 1000000000
  let ok := fun k => let x := p.shunts.getD k {}; if x.bad = 0 && !x.lost then (1 : Rat) else 0
  let foc : List Rat := [i.getD 0 0, i.getD 1 0, i.getD 2 0, ok 0, ok 1, ok 2, toRad p.theta,
    toRad (p.omega * polePairs s h), vm, iq, id, step (80 + h)]
  let ss : List Rat := [toRad p.omega, toRad (p.wsp + p.trim), vm,
    vm * (1 - spnT r) / Config.sqrt 3 - p.vmag, step (64 + h)]
  let s := foc.zipIdx.foldl (fun s e => setIn s (80 + h) e.2 (ratToFp e.1)) s
  let s := ss.zipIdx.foldl (fun s e => setIn s (64 + h) e.2 (ratToFp e.1)) s
  markPeriod (markPeriod s (64 + h)) (80 + h)

/-- ψ against its band at each FOC sample (R426). -/
def psiPeriod (s : State) (h : Nat) : State :=
  let st := spnState s h
  let r := spinRec s h
  let p := getSpn s h
  if (st = 6 || st = 7 || st = 11) && (getTask s (80 + h)).due == some s.tb.ns &&
      decide (ratedPct s h r.focOff < p.omega) then
    let psi := |fpRat (outWord s (80 + h) 2)|
    let b := ((r.losBand : Nat) : Rat) / 100
    let out := decide (psi < (1 - b) * fluxLinkage s h) || decide ((1 + b) * fluxLinkage s h < psi)
    modSpn s h fun p => { p with losRun := if out then p.losRun + 1 else if p.losRun < r.losN then 0 else p.losRun }
  else s

/-- The registers a period shows. -/
def showSpindle (s : State) (h : Nat) (vm : Rat) (i : List Rat) : State :=
  let p := getSpn s h
  let ia := i.getD 0 0
  let ib := (i.getD 1 0 - i.getD 2 0) / Config.sqrt 3
  let c := Config.cos (toRad p.theta)
  let sn := Config.sin (toRad p.theta)
  let s := fset s (spnF SPN_SPEED_RPM h) (p.omega * 600).floor.toNat
  let s := fset s (spnF SPN_SETPT_RPM h) ((p.wsp + p.trim) * 600).floor.toNat
  let s := fset s (spnF SPN_ANGLE_THETA h) (p.theta * 65536).floor.toNat
  let s := fset s (spnF SPN_ANGLE_VALID h) (b2n p.held)
  let s := fset s (spnF SPN_MEAS_IQ h) (satSigned 16 ((ib * c - ia * sn) * 1000).floor)
  let s := fset s (spnF SPN_MEAS_ID h) (satSigned 16 ((ia * c + ib * sn) * 1000).floor)
  let s := fset s (spnF SPN_VM_VM h) (min 0xFFFF (vm * 1000).floor.toNat)
  let s := fset s (spnF SPN_VM_I_RG h) (min 0xFFFF (brakeLimit s h vm * 1000).floor.toNat)
  let s := fset s (spnF SPN_ADV_GAMMA h) (advance s h * 36000).floor.toNat
  let code := fun k => (p.shunts.getD k {}).code
  fset (fset (fset s (spnF SPN_STATE_SHUNT_U h) (code 0)) (spnF SPN_STATE_SHUNT_V h) (code 1)) (spnF SPN_STATE_SHUNT_W h) (code 2)

/-- Gate edges of the period by the state. -/
def drivePeriod (s : State) (h : Nat) (vm : Rat) (i : List Rat) : State :=
  let st := spnState s h
  let (va, vb) := if (getSpn s h).twoLost then (getSpn s h).vhold
    else (fpRat (outWord s (80 + h) 0), fpRat (outWord s (80 + h) 1))
  let s := modSpn s h fun p => { p with vhold := (va, vb), vmag := Config.sqrt (va * va + vb * vb) }
  if st = 6 || st = 7 || st = 11 then driveSvm s h vm va vb i
  else if 3 ≤ st && st ≤ 5 then driveSector s h vm va vb
  else s

/-- State changes a period brings: FOC back to SIX_STEP, DECEL and REGEN to BRAKE at STOP_PCT, a stop that waited for its
unload, the end of the two-shunt hold. -/
def leavePeriod (s : State) (h : Nat) : State :=
  let st := spnState s h
  let r := spinRec s h
  let p := getSpn s h
  let s := if st = 6 && p.omega < ratedPct s h r.focOff && !p.twoLost then
      modSpn (setTracker (setSpnState s h 5) h 0) h fun p => { p with gaps := [], zcNs := none, commNs := s.tb.ns,
                                                                      sector := sectorOf (turnFrac p.theta) }
    else if st = 7 && p.omega ≤ ratedPct s h r.stopPct then setSpnState s h 8
    else s
  let s := if p.twoLost && !hdaLoaded s h then
      (let s := modSpn s h fun p => { p with twoLost := false }
       retireHda (coast s h) h false)
    else s
  match (getSpn s h).stopReq with
  | some _ => if hdaLoaded s h then s else startDecel s h
  | none => s

/-- SPINDLE_PWM_PERIOD: the shunts are converted, the tracker and the loops' inputs brought up to date, the legs driven.
`theta` (turns) and `omega` (revolutions per second) are what the tracker's loop gives outside ZC mode. -/
def execSpindlePwmPeriod (h : Nat) (iU iV iW : Conv) (vm theta omega : Rat) (s : State) :
    Host.Outcome State Fault Refusal :=
  let st := spnState s h
  if 16 ≤ h || st < 2 || st == 12 then .next s
  else
    let dt := spnPeriod (spinRec s h) / 1000000000
    let s := modSpn s h fun p => { p with
      vm := vm
      shunts := if spnDriven st then [(p.shunts.getD 0 {}).take iU, (p.shunts.getD 1 {}).take iV, (p.shunts.getD 2 {}).take iW]
                else p.shunts }
    let s := if st = 2 then s else trackPeriod s h dt theta omega
    let i := phaseCurrents (getSpn s h) (st == 5 || st == 4 || st == 3)
    let s := bandPeriod (rampPeriod s h dt) h
    let s := if spnDriven st && st != 8 then drivePeriod (psiPeriod (feedSpindle s h vm i) h) h vm i else s
    .next (showSpindle (leavePeriod s h) h vm i)

/-- AT_SPEED (R420): the first second throughout which the speed lay within 0.1 % of rated. -/
def execAtSpeed (h : Nat) (s : State) : Host.Outcome State Fault Refusal :=
  let st := spnState s h
  let due := match (getSpn s h).inBand with | some t => decide (1000000000 ≤ s.tb.ns - t) | none => false
  if h < 16 && (st == 5 || st == 6) && due && !(atSpeed s h) then
    let s := dmkSend (setAtSpeed s h true) 0x0881 h
    let s := modSpn s h fun p => { p with startup := false, fails := 0 }
    .next ([2 * h, 2 * h + 1].foldl (fun s a =>
      if srvState s a = 9 || srvState s a = 10 then modSrv s a fun v => { v with reload := true } else s) s)
  else .next s

/-! ## Loss of synchronism, catch-spin, standstill (R426, R427, R413) -/

/-- A loss of synchronism. -/
def lossOfSync (s : State) (h : Nat) : State :=
  let st := spnState s h
  let recent := s.tb.ns :: (getSpn s h).losNs.filter fun t => s.tb.ns - t ≤ 60000000000
  let third := decide (3 ≤ recent.length)
  let s := modSpn s h fun p => { p with losNs := recent, losRun := 0, forced := 0, focWait := false }
  let s := fbump s (spnF SPN_CNT1_LOS h)
  let s := report s { src := spnSrc h, cls := if third then .contained else .corrected, data := h }
  let s := coast (dmkSend s 0x0883 h) h
  if third then retireHda s h false
  else if st = 7 || st = 11 then s
  else enterCatch s h

/-- LOSS_OF_SYNC: one of the conditions of R426 holds. -/
def execLossOfSync (h : Nat) (s : State) : Host.Outcome State Fault Refusal :=
  let st := spnState s h
  let p := getSpn s h
  let cond := 6 ≤ p.forced || (spinRec s h).losN ≤ p.losRun || 3 ≤ (getTask s (64 + h)).consec ||
    3 ≤ (getTask s (80 + h)).consec
  if h < 16 && (st == 5 || st == 6 || st == 7 || st == 11) && cond then .next (lossOfSync s h) else .next s

/-- CATCH_OBSERVE_END (R427): observation ends with the back-EMF, speed and angle found; without a free SPIN_CONC slot it goes
on. -/
def execCatchObserveEnd (h : Nat) (emf omega theta : Rat) (s : State) : Host.Outcome State Fault Refusal :=
  if 16 ≤ h || spnState s h != 10 || !(spinSlotFree s h) then .next s
  else
    let s := modSpn s h fun p => { p with omega := omega, theta := turnFrac theta, held := true, gaps := [], zcNs := none,
                                          commNs := s.tb.ns, forced := 0, losRun := 0 }
    if ratedPct s h (spinRec s h).focOn ≤ omega then
      .next (startRamp (enterFoc (enableTask s (80 + h)) h) h)
    else if 1 / 10 ≤ emf then
      let s := modSpn s h fun p => { p with sector := sectorOf (turnFrac theta) }
      .next (startRamp (setTracker (setSpnState (enableTask s (80 + h)) h 5) h 0) h)
    else .next (coast s h)

/-- STANDSTILL: BRAKE and COAST end in STOPPED; a retirement that was owed, a calibration and a start that waits follow. -/
def execStandstill (h : Nat) (s : State) : Host.Outcome State Fault Refusal :=
  let st := spnState s h
  if h < 16 && (st == 8 || st == 9) then
    let s := modSpn s h fun p => { p with omega := 0, held := false, stopReq := none, shortFrom := 0 }
    if (getSpn s h).retireOwed then .next (spnRetired s h)
    else
      let s := setSpnState s h 2
      let s := if fget s (spnF SPN_CAL_PEND h) = 1 then fset s (spnF SPN_CAL_PEND h) 0 else s
      let s := fset s (spnF SPN_CAL_BUSY h) 1
      .next (if (getSpn s h).startup then startSpin s h else s)
  else .next s

/-! ## VM_SHORT (R430) -/

/-- VM_SHORT: VM has reached VM_SHORT. -/
def execVmShort (h : Nat) (s : State) : Host.Outcome State Fault Refusal :=
  let st := spnState s h
  if 16 ≤ h || st < 2 || st == 12 then .next s
  else
    let negative := decide ((focCommands s h (getSpn s h).vm).1 < 0)
    let s := dmkSend (raise s (spnSrc h + 5) h) 0x0889 h
    if st = 7 || st = 11 || st = 8 || ((st = 5 || st = 6) && negative) then
      .next (setSpnState (modSpn s h fun p => { p with shortFrom := if st = 8 then p.shortFrom else st }) h 8)
    else if 3 ≤ st && st ≤ 6 then .next (coast (modSpn s h fun p => { p with shortFrom := st }) h)
    else .next s

/-- VM_SHORT_RECOVER: VM has fallen below VM_MAX − VM_BAND. -/
def execVmShortRecover (h : Nat) (s : State) : Host.Outcome State Fault Refusal :=
  let st := spnState s h
  let p := getSpn s h
  if 16 ≤ h || p.shortFrom = 0 then .next s
  else
    let s := modSpn s h fun p => { p with shortFrom := 0 }
    if st = 9 then .next (enterCatch s h)
    else if st = 8 then
      if p.omega ≤ ratedPct s h (spinRec s h).stopPct then .next s
      else if p.shortFrom = 7 || p.shortFrom = 11 then
        .next (setTracker (setSpnState (enableTask s (80 + h)) h p.shortFrom) h 2)
      else .next (enterCatch s h)
    else .next s

/-! ## Driver faults and shunts (R423 to R425, R433) -/

/-- SPINDLE_DRIVER_FAULT: all gates and DRV_EN low; a second fault within 600 s retires. -/
def execSpindleDriverFault (h : Nat) (s : State) : Host.Outcome State Fault Refusal :=
  let st := spnState s h
  if 16 ≤ h || st < 2 || st == 12 then .next s
  else
    let s := dmkSend (raise (fbump s (spnF SPN_CNT1_DRV_FLT h)) (spnSrc h + 4) h) 0x0886 h
    if spnDriven st || st = 10 then
      let recent := (getSpn s h).drvNs.filter fun t => s.tb.ns - t ≤ 600000000000
      let s := coast (fset s (spnF SPN_STATE_DRV_FLT h) 1) h
      let s := modSpn s h fun p => { p with drvNs := s.tb.ns :: recent, stopReq := none }
      .next (if recent.isEmpty then s else retireHda s h false)
    else .next s

/-- SPINDLE_DRIVER_RETRY: after 1 ms DRV_EN is raised once; `ok` says that the fault does not return within 10 µs. -/
def execSpindleDriverRetry (h : Nat) (ok : Bool) (s : State) : Host.Outcome State Fault Refusal :=
  if h < 16 && spnState s h == 9 && fget s (spnF SPN_STATE_DRV_FLT h) == 1 then
    if ok then .next (enterCatch (fset s (spnF SPN_STATE_DRV_FLT h) 0) h) else .next (retireHda s h false)
  else .next s

/-- Both shunts of two legs are lost (R425, Table 14-5). -/
def twoShunts (s : State) (h : Nat) : State :=
  let st := spnState s h
  let s := dmkSend (raise s (spnSrc h + 3) h) 0x0885 h
  if 5 ≤ st && st ≤ 8 then
    retractReq (retractReq (modSpn s h fun p => { p with twoLost := true }) (2 * h)) (2 * h + 1)
  else retireHda s h false

/-- PHASE_SHUNT_LOST: the shunt of a phase has had 2 consecutive invalid conversions. -/
def execPhaseShuntLost (h phase : Nat) (s : State) : Host.Outcome State Fault Refusal :=
  let x := (getSpn s h).shunts.getD phase {}
  if h < 16 && phase < 3 && 2 ≤ x.bad && !x.lost then
    let s := modSpn s h fun p => { p with shunts := p.shunts.set phase { x with lost := true } }
    let s := fset s (spnF (if phase = 0 then SPN_STATE_SHUNT_U else if phase = 1 then SPN_STATE_SHUNT_V else SPN_STATE_SHUNT_W) h) 2
    let n := ((getSpn s h).shunts.filter fun x => x.lost).length
    if n = 1 then .next (dmkSend (raise s (spnSrc h + 2) h) 0x0884 h)
    else if n = 2 then .next (twoShunts s h)
    else .next s
  else .next s

/-! ## Shunt calibration and winding measurements (R422, R435) -/

/-- SHUNT_CALIBRATION: a calibration in STOPPED ends; `quiet` says that its preconditions held throughout, `ofs` the offsets in
µV. A start that waits for it proceeds, after up to 3 retries on the offsets in force. -/
def execShuntCalibration (h : Nat) (quiet : Bool) (ofs : List Int) (s : State) : Host.Outcome State Fault Refusal :=
  if h < 16 && spnState s h == 2 && fget s (spnF SPN_CAL_BUSY h) == 1 then
    let s := if quiet then
        let s := modSpn s h fun p => { p with ofs := ofs, calOk := some s.tb.ns }
        let s := fset (fset s (spnF SPN_OFS_UV_U h) (satSigned 16 (ofs.getD 0 0))) (spnF SPN_OFS_UV_V h) (satSigned 16 (ofs.getD 1 0))
        fset (fset s (spnF SPN_OFS_W_W h) (satSigned 16 (ofs.getD 2 0))) (spnF SPN_CAL_RESULT h) 1
      else dmkSend (raise (fset s (spnF SPN_CAL_RESULT h) 2) (spnSrc h + 6) h) 0x0888 h
    let p := getSpn s h
    let s := fset s (spnF SPN_CAL_BUSY h) 0
    if p.calWant then
      if quiet || 3 ≤ p.calTries then .next (enterAlign s h)
      else .next (fset (modSpn s h fun p => { p with calTries := p.calTries + 1 }) (spnF SPN_CAL_BUSY h) 1)
    else .next s
  else .next s

/-- SPN_CAL_REQUEST: a write of SPN_CAL.GO; latched while one runs or the bridge is driven. -/
def execSpnCalRequest (h : Nat) (value : Word) (s : State) : Host.Outcome State Fault Refusal :=
  if 16 ≤ h || bitsGet value 0 1 == 0 then .next s
  else
    let st := spnState s h
    if fget s (spnF SPN_CAL_BUSY h) = 1 || st != 2 then .next (fset s (spnF SPN_CAL_PEND h) 1)
    else .next (fset s (spnF SPN_CAL_BUSY h) 1)

/-- WINDING_MEASUREMENT (R435): R and L at a standstill, Ke with the bridge off at the first spin-up; without quiescence the
item is NOT_QUIESCENT (R89). -/
def execWindingMeasurement (h : Nat) (m : Measured) (quiet : Bool) (s : State) : Host.Outcome State Fault Refusal :=
  let st := spnState s h
  let due := (m.item == 0x102 + 4 * h && st == 10) || ((m.item == 0x100 + 4 * h || m.item == 0x101 + 4 * h) && st == 2)
  if 16 ≤ h || !due then .next s
  else if !quiet then .next (setParam s m.item (nominalItem s m.item) 3)
  else
    let (s, bad) := enterMeasured s m
    .next (if bad then retireHda s h false else s)

/-- HDA_RETIRE (R434). -/
def execHdaRetire (h : Nat) (drive : Bool) (s : State) : Host.Outcome State Fault Refusal :=
  if h < 16 && hdaPresent s h then .next (retireHda s h drive) else .next s

/-! ## Synchronisation (R436) -/

/-- Nominal revolution in ns. -/
def revNs (s : State) (h : Nat) : Rat := 1000000000 / rated s h

/-- Is the HDA in FOC at its full set-point, so that it may lock? -/
def mayLock (s : State) (h : Nat) : Bool :=
  fbit s SPN_SYNC_CTL_IN_MASK h && spnState s h == 6 && decide ((getSpn s h).wsp = rated s h)

/-- One HDA at an input pulse: the trim is an open value within ±0.1 % of ω_R (R436 bounds it and gives no law). -/
def syncPulseHda (s : State) (h : Nat) : State :=
  let p := getSpn s h
  let period : Rat := ((s.tb.ns - p.syncNs.getD 0 : Nat) : Rat)
  let inRange := p.syncNs.isSome && decide (|period - revNs s h| * 200 ≤ revNs s h)
  let s := modSpn s h fun p => { p with syncNs := some s.tb.ns }
  if inRange && mayLock s h then
    let (k, s) := drawFree s
    let trim : Rat := (((k % 2001 : Nat) : Rat) - 1000) / 1000000 * rated s h
    let want := ((fget s (spnF SPN_SYNC_OFFSET h) : Nat) : Rat) / 65536
    let at_ := match p.indexNs with
      | some t => turnFrac (1 - turnFrac (((s.tb.ns - t : Nat) : Rat) / revNs s h))
      | none => want + 1 / 2
    let e := turnFrac (at_ - want + 1 / 2) - 1 / 2
    fset (modSpn s h fun p => { p with trim := trim }) (spnF SPN_SYNC_LOCKED h) (b2n (decide (|e| < 1 / 256)))
  else s

/-- SPIN_SYNC_IN_PULSE. -/
def execSpinSyncInPulse (s : State) : Host.Outcome State Fault Refusal :=
  if gpioCode s 16 = 6 then
    .next ((List.range 16).foldl (fun s h => if hdaPresent s h then syncPulseHda s h else s) s)
  else .next s

/-- SPIN_SYNC_LOST: no pulse for 4 rated periods. -/
def execSpinSyncLost (h : Nat) (s : State) : Host.Outcome State Fault Refusal :=
  match (getSpn s h).syncNs with
  | some t =>
    if h < 16 && fbit s SPN_SYNC_CTL_IN_MASK h && decide (4 * revNs s h ≤ ((s.tb.ns - t : Nat) : Rat)) then
      let s := modSpn s h fun p => { p with trim := 0, syncNs := none }
      .next (dmkSend (fset s (spnF SPN_SYNC_LOCKED h) 0) 0x088A h)
    else .next s
  | none => .next s

/-- SPINDLE_INDEX: θ passes 0 for the first time in a revolution in FOC. -/
def execSpindleIndex (h : Nat) (s : State) : Host.Outcome State Fault Refusal :=
  if h < 16 && spnState s h == 6 then
    let s := modSpn s h fun p => { p with indexNs := some s.tb.ns }
    .next (if fget s SPN_SYNC_CTL_OUT_HDA = h && gpioCode s 17 = 7 then emit s (.syncPulse h) else s)
  else .next s

end Sys2Proof.Machine
end

