-- ==== Sys2Proof/Machine/Lantern.lean ====
section
/-!
DEFINITION. Machine/Lantern.lean: Lantern's commands (12_lantern_engine.md): triggers, the nodes of Table 12-6, commits
and deadlines with what their owners do on a miss, cores, coefficient writes.
-/

namespace Sys2Proof.Machine

/-! ## Misses and commits as their owners see them (R370, R378, R394) -/

/-- What follows a miss. `before` is the consecutive-miss count it found, `poison` that an uncorrectable word made it. -/
def afterMiss (s : State) (t before : Nat) (poison : Bool) : State :=
  let third := before == 2
  if t < 32 then
    let s := if third || poison then setInhibit (modTask s t fun k => { k with inhibit := true }) t 3 true else s
    if (getTask s t).missRun = 64 then retractReq s t else s
  else if t < 64 then
    (if third then retireAct (setInhibit s (t - 32) 3 true) (t - 32) true else s)
  else s

/-- An instance ends at END: committed, or discarded. -/
def commitTask (s : State) (t : Nat) : State :=
  let k := getTask s t
  let (s, missed) := commitCore s t
  if missed then afterMiss s t k.consec k.poison
  else if k.inhibit && !(getTask s t).inhibit && t < 32 then setInhibit s t 3 false
  else s

/-- The deadline of the instance under way. -/
def deadlineTask (s : State) (t : Nat) : State :=
  let k := getTask s t
  let (s, missed) := deadlineCore s t
  if missed then afterMiss s t k.consec k.poison else s

/-! ## Triggers, nodes, deadlines -/

/-- TASK_TRIGGER (R367, R368): the trigger that waits releases an instance; one still under way has met its deadline, which is
never later than the next trigger. -/
def execTaskTrigger (t : Nat) (s : State) : Host.Outcome State Fault Refusal :=
  match (getTask s t).due with
  | some trig =>
    if t < 96 && (getTask s t).enabled && taskLive s t then .next (startInstance (deadlineTask s t) t trig) else .next s
  | none => .next s

/-- INSTANCE_COMMIT (R368, R369): the rest of the nodes run, END completes, and the instance commits or is discarded. -/
def execInstanceCommit (t : Nat) (s : State) : Host.Outcome State Fault Refusal :=
  match (getTask s t).run with
  | none => .next s
  | some i =>
    if i.committed then .next s
    else
      let k := getTask s t
      let j := runNodes k (coefWord s t) ((graphOf s t).nodes.drop i.node) i
      .next (commitTask (modTask s t fun k => { k with run := some j }) t)

/-- TASK_DEADLINE (R368, R369). -/
def execTaskDeadline (t : Nat) (s : State) : Host.Outcome State Fault Refusal :=
  match (getTask s t).run with
  | none => .next s
  | some i => if i.deadline ≤ s.tb.ns then .next (deadlineTask s t) else .next s

/-- NODE_ADD: DST ← A + B. -/
def execNodeAdd (t : Nat) (s : State) : Host.Outcome State Fault Refusal := .next (runNode s t 0x01)

/-- NODE_SUB: DST ← A − B. -/
def execNodeSub (t : Nat) (s : State) : Host.Outcome State Fault Refusal := .next (runNode s t 0x02)

/-- NODE_MUL: DST ← A × B. -/
def execNodeMul (t : Nat) (s : State) : Host.Outcome State Fault Refusal := .next (runNode s t 0x03)

/-- NODE_FMA: DST ← A × B + C with one rounding. -/
def execNodeFma (t : Nat) (s : State) : Host.Outcome State Fault Refusal := .next (runNode s t 0x04)

/-- NODE_DIV: DST ← A ÷ B. -/
def execNodeDiv (t : Nat) (s : State) : Host.Outcome State Fault Refusal := .next (runNode s t 0x05)

/-- NODE_SQRT: DST ← √A. -/
def execNodeSqrt (t : Nat) (s : State) : Host.Outcome State Fault Refusal := .next (runNode s t 0x06)

/-- NODE_MIN: DST ← minimum(A, B). -/
def execNodeMin (t : Nat) (s : State) : Host.Outcome State Fault Refusal := .next (runNode s t 0x07)

/-- NODE_MAX: DST ← maximum(A, B). -/
def execNodeMax (t : Nat) (s : State) : Host.Outcome State Fault Refusal := .next (runNode s t 0x08)

/-- NODE_ABS: DST ← |A|. -/
def execNodeAbs (t : Nat) (s : State) : Host.Outcome State Fault Refusal := .next (runNode s t 0x09)

/-- NODE_NEG: DST ← −A. -/
def execNodeNeg (t : Nat) (s : State) : Host.Outcome State Fault Refusal := .next (runNode s t 0x0A)

/-- NODE_MOV: DST ← A. -/
def execNodeMov (t : Nat) (s : State) : Host.Outcome State Fault Refusal := .next (runNode s t 0x0B)

/-- NODE_SEL: DST ← B when A ≥ 0, else C. -/
def execNodeSel (t : Nat) (s : State) : Host.Outcome State Fault Refusal := .next (runNode s t 0x0C)

/-- NODE_CLAMP: DST ← min(max(A, B), C). -/
def execNodeClamp (t : Nat) (s : State) : Host.Outcome State Fault Refusal := .next (runNode s t 0x0D)

/-- NODE_LIM: DST ← min(max(A, −B), B), SAT outside. -/
def execNodeLim (t : Nat) (s : State) : Host.Outcome State Fault Refusal := .next (runNode s t 0x0E)

/-- NODE_BIQ: one second-order section. -/
def execNodeBiq (t : Nat) (s : State) : Host.Outcome State Fault Refusal := .next (runNode s t 0x10)

/-- NODE_INTEG: one clamped integration with anti-windup. -/
def execNodeInteg (t : Nat) (s : State) : Host.Outcome State Fault Refusal := .next (runNode s t 0x11)

/-- NODE_DOT: a sum of products. -/
def execNodeDot (t : Nat) (s : State) : Host.Outcome State Fault Refusal := .next (runNode s t 0x12)

/-- NODE_OUT: an output port is held for the deadline. -/
def execNodeOut (t : Nat) (s : State) : Host.Outcome State Fault Refusal := .next (runNode s t 0x20)

/-- NODE_END: when the next node is END the instance ends. -/
def execNodeEnd (t : Nat) (s : State) : Host.Outcome State Fault Refusal :=
  match (getTask s t).run with
  | none => .next s
  | some i =>
    match (graphOf s t).nodes[i.node]? with
    | some n => if n.op = 0x3F && !i.committed then .next (commitTask s t) else .next s
    | none => .next s

/-! ## Cores (R360, R373) -/

/-- An HDA is shed (R373): its tasks withdrawn, 0x808 and 0x0802, and its retirement with the drive forbidden. -/
def shedHda (s : State) (h : Nat) : State :=
  retireHda (dmkSend (raise s 0x808) 0x0802 0) h false

/-- A core is retired: source 0x800 + c, 0x0801, its tasks to the spare or placed. -/
def retireCore (s : State) (c : Nat) : State :=
  if isRetired s (.core c) then s
  else
    let s := dmkSend (raise (retireUnit s (.core c)) (0x800 + c)) 0x0801 0
    let (s, hs) := loseCore s c
    minWatch (hs.foldl shedHda s)

/-- The placement at the end of SELFTEST (R360, R373). -/
def placeCores (s : State) : State :=
  let (s, hs) := assignCores s
  hs.foldl shedHda s

/-- CORE_KAT_TICK: the known-answer graph between instances; a wrong answer retires the core. -/
def execCoreKatTick (c : Nat) (good : Bool) (s : State) : Host.Outcome State Fault Refusal :=
  if 8 ≤ c || good then .next s else .next (retireCore s c)

/-- CORE_RETIRE: a lockstep mismatch on core `c` while it ran an instance of `task`, which is a miss. -/
def execCoreRetire (c : Nat) (task : Option Nat) (s : State) : Host.Outcome State Fault Refusal :=
  if 8 ≤ c then .next s
  else
    let s := match task with
      | some t =>
        if t < 96 && (s.ltn.logical.getD (coreOf s t) none) == some c && (getTask s t).run.any fun i => !i.committed then
          afterMiss (missCore s t) t (getTask s t).consec (getTask s t).poison
        else s
      | none => s
    .next (retireCore s c)

/-! ## Coefficients and the task store (R374, R378) -/

/-- COEF_WRITE (R374, R379): a write of LTN_COEF_DATA for TASK, INDEX of LTN_COEF_SEL. -/
def execCoefWrite (value : Word) (s : State) : Host.Outcome State Fault Refusal :=
  let t := fget s LTN_COEF_SEL_TASK
  let i := fget s LTN_COEF_SEL_INDEX
  if s.phase = .loading || !(fpFinite value) || (taskEnt s t).kind = 0 || (graphOf s t).coefs.length ≤ i then
    .next (fset s LTN_STATUS_RSV_WRITE 1)
  else if !(getTask s t).enabled && (getTask s t).run.isNone then
    .next (applyCoef s t i value ((getTask s t).sample + 1))
  else if 16 ≤ s.ltn.queue.length then .next (fset s LTN_COEF_STAT_OVERRUN 1)
  else .next (modLtn s fun l => { l with queue := l.queue ++ [(t, i, value)] })

/-- TASK_STORE_UNCORRECTABLE (R378): the state slots of a task are zeroed and its next instance is a miss. -/
def execTaskStoreUncorrectable (t : Nat) (s : State) : Host.Outcome State Fault Refusal :=
  if t < 96 && (taskEnt s t).kind != 0 then
    let s := modTask s t fun k => { k with slots := [], poison := true }
    .next (dmkSend (raise s 0x80A) 0x0805 0)
  else .next s

end Sys2Proof.Machine
end

