-- ==== Sys2Proof/Machine/Inflate.lean ====
section
/-!
DEFINITION. Machine/Inflate.lean: what a DEFLATE stream decodes to (RFC 1951 and RFC 1950, which R443 names), over the
bits of a byte string, least significant first.
-/

namespace Sys2Proof.Machine

/-- How decoding stops: the final block ended, the input ran out, the input is not a stream. -/
inductive InfStop where
  | ended | short | bad
  deriving DecidableEq, Repr

/-- A decoder: bits not yet read, output newest first, and why it has stopped, if it has. -/
structure Inf where
  bits : List Bool
  out  : List Byte := []
  stop : Option InfStop := none
  deriving DecidableEq, Repr

/-- The bits of a byte string. -/
def bitsOf (bs : List Byte) : List Bool := bs.flatMap fun b => (List.range 8).map fun i => b.getLsbD i

/-- The bytes of a bit string whose length is a multiple of 8. -/
def bytesOf (bs : List Bool) : List Byte :=
  (List.range (bs.length / 8)).map fun i =>
    BitVec.ofNat 8 (((bs.drop (8 * i)).take 8).zipIdx.map fun (b, k) => if b then 2 ^ k else 0).sum

/-- `n` bits as a number; none where they run out. -/
def takeBits : Nat → List Bool → Option (Nat × List Bool)
  | 0, bs => some (0, bs)
  | _ + 1, [] => none
  | n + 1, b :: bs => (takeBits n bs).map fun (v, r) => ((if b then 1 else 0) + 2 * v, r)

/-- Codes of each length, 0 to 15. -/
def lenCount (lens : List Nat) (n : Nat) : Nat := (lens.filter (· == n)).length

/-- The symbols of a code, by length and then by number. -/
def symOrder (lens : List Nat) : List Nat :=
  (List.range 15).flatMap fun k => (lens.zipIdx.filter (·.1 == k + 1)).map (·.2)

/-- Code space left over: none where the code is over-subscribed. -/
def codeLeft (lens : List Nat) : Option Nat :=
  (List.range 15).foldl (fun l k => l.bind fun v =>
    if 2 * v < lenCount lens (k + 1) then none else some (2 * v - lenCount lens (k + 1))) (some 1)

/-- May the code be used: complete, or a single code of one bit, or none at all. -/
def codeOk (lens : List Nat) : Bool :=
  match codeLeft lens with
  | none => false
  | some 0 => true
  | some _ => lens.length == lenCount lens 0 + lenCount lens 1

/-- Read one symbol of a canonical code: `k` lengths are left to try. -/
def readSym (lens syms : List Nat) : Nat → Nat → Nat → Nat → List Bool → Except InfStop (Nat × List Bool)
  | 0, _, _, _, _ => .error .bad
  | _ + 1, _, _, _, [] => .error .short
  | k + 1, code, first, index, b :: bs =>
    let code := 2 * code + (if b then 1 else 0)
    let n := lenCount lens (15 - k)
    if code < first + n then .ok (syms.getD (index + (code - first)) 0, bs)
    else readSym lens syms k code (2 * (first + n)) (index + n) bs

/-- One symbol from the start of the bits. -/
def symbol (lens : List Nat) (bs : List Bool) : Except InfStop (Nat × List Bool) :=
  readSym lens (symOrder lens) 15 0 0 0 bs

/-- Base and extra bits of a length symbol 257 to 285. -/
def lenBase (k : Nat) : Nat × Nat :=
  if k < 8 then (3 + k, 0) else if k = 28 then (258, 0)
  else ((4 + k % 4) * 2 ^ (k / 4 - 1) + 3, k / 4 - 1)

/-- Base and extra bits of a distance symbol 0 to 29. -/
def distBase (k : Nat) : Nat × Nat :=
  if k < 4 then (1 + k, 0) else ((2 + k % 2) * 2 ^ (k / 2 - 1) + 1, k / 2 - 1)

/-- Copy `n` bytes from distance `d`. -/
def copyBack : Nat → Nat → List Byte → List Byte
  | 0, _, o => o
  | n + 1, d, o => copyBack n d (o.getD (d - 1) 0 :: o)

/-- Stop a decoder. -/
def Inf.halt (s : Inf) (why : InfStop) : Inf := { s with stop := some why }

/-- The match that a length symbol begins. -/
def Inf.match_ (s : Inf) (dist : List Nat) (k : Nat) (bs : List Bool) : Inf :=
  if 29 ≤ k then s.halt .bad
  else match takeBits (lenBase k).2 bs with
    | none => s.halt .short
    | some (x, bs) =>
      match symbol dist bs with
      | .error e => s.halt e
      | .ok (d, bs) =>
        if 30 ≤ d then s.halt .bad
        else match takeBits (distBase d).2 bs with
          | none => s.halt .short
          | some (y, bs) =>
            let back := (distBase d).1 + y
            if s.out.length < back then s.halt .bad
            else { s with bits := bs, out := copyBack ((lenBase k).1 + x) back s.out }

/-- The symbols of a block with Huffman codes, until symbol 256. -/
def Inf.codes (lit dist : List Nat) : Nat → Inf → Inf
  | 0, s => s.halt .short
  | f + 1, s =>
    match symbol lit s.bits with
    | .error e => s.halt e
    | .ok (k, bs) =>
      if k < 256 then Inf.codes lit dist f { s with bits := bs, out := BitVec.ofNat 8 k :: s.out }
      else if k = 256 then { s with bits := bs }
      else
        let s := s.match_ dist (k - 257) bs
        if s.stop.isSome then s else Inf.codes lit dist f s

/-- Code lengths of the fixed codes. -/
def fixedLit : List Nat := List.replicate 144 8 ++ List.replicate 112 9 ++ List.replicate 24 7 ++ List.replicate 8 8
def fixedDist : List Nat := List.replicate 30 5

/-- Order of the code-length codes. -/
def clOrder : List Nat := [16, 17, 18, 0, 8, 7, 9, 6, 10, 5, 11, 4, 12, 3, 13, 2, 14, 1, 15]

/-- Read the code lengths of a dynamic block: `want` in all. -/
def readLens (cl : List Nat) (want : Nat) : Nat → List Nat → List Bool → Except InfStop (List Nat × List Bool)
  | 0, _, _ => .error .short
  | f + 1, acc, bs =>
    if want = acc.length then .ok (acc, bs)
    else if want < acc.length then .error .bad
    else match symbol cl bs with
      | .error e => .error e
      | .ok (k, bs) =>
        if k < 16 then readLens cl want f (acc ++ [k]) bs
        else
          let bits := if k = 16 then 2 else if k = 17 then 3 else 7
          match takeBits bits bs with
          | none => .error .short
          | some (x, bs) =>
            if k = 16 then
              (match acc.getLast? with
                | none => .error .bad
                | some v => readLens cl want f (acc ++ List.replicate (3 + x) v) bs)
            else readLens cl want f (acc ++ List.replicate ((if k = 17 then 3 else 11) + x) 0) bs

/-- The two codes of a dynamic block. -/
def dynamicCodes (bs : List Bool) : Except InfStop (List Nat × List Nat × List Bool) :=
  match takeBits 14 bs with
  | none => .error .short
  | some (h, bs) =>
    let hlit := h % 32 + 257
    let hdist := h / 32 % 32 + 1
    let hclen := h / 1024 % 16 + 4
    match takeBits (3 * hclen) bs with
    | none => .error .short
    | some (v, bs) =>
      let cl := (List.range 19).map fun s =>
        match clOrder.findIdx? (· == s) with
        | some i => if i < hclen then v / 8 ^ i % 8 else 0
        | none => 0
      if 286 < hlit || 30 < hdist || codeLeft cl ≠ some 0 then .error .bad
      else match readLens cl (hlit + hdist) 400 [] bs with
        | .error e => .error e
        | .ok (ls, bs) =>
          let lit := ls.take hlit
          let dist := ls.drop hlit
          if lit.getD 256 0 = 0 || !codeOk lit || !codeOk dist then .error .bad else .ok (lit, dist, bs)

/-- Bits after the next byte boundary of a string of `total` bits. -/
def alignBits (total : Nat) (bs : List Bool) : List Bool := bs.drop ((8 - (total - bs.length) % 8) % 8)

/-- A stored block of a stream of `total` bits. -/
def Inf.stored (total : Nat) (s : Inf) : Inf :=
  match takeBits 32 (alignBits total s.bits) with
  | none => s.halt .short
  | some (v, bs) =>
    let n := v % 65536
    if v / 65536 ≠ 65535 - n then s.halt .bad
    else if bs.length < 8 * n then
      { s with out := (bytesOf (bs.take (bs.length / 8 * 8))).reverse ++ s.out, stop := some .short }
    else { s with bits := bs.drop (8 * n), out := (bytesOf (bs.take (8 * n))).reverse ++ s.out }

/-- The blocks of a stream. -/
def Inf.blocks (total : Nat) : Nat → Inf → Inf
  | 0, s => s.halt .short
  | f + 1, s =>
    match takeBits 3 s.bits with
    | none => s.halt .short
    | some (h, bs) =>
      let s := { s with bits := bs }
      let s := if h / 2 = 0 then s.stored total
        else if h / 2 = 1 then s.codes fixedLit fixedDist (bs.length + 1)
        else if h / 2 = 2 then
          (match dynamicCodes bs with
            | .error e => s.halt e
            | .ok (lit, dist, bs) => { s with bits := bs }.codes lit dist (bs.length + 1))
        else s.halt .bad
      if s.stop.isSome then s
      else if h % 2 = 1 then s.halt .ended
      else Inf.blocks total f s

/-- Adler-32 of a byte string (RFC 1950). -/
def adler32 (bs : List Byte) : Nat :=
  let r := bs.foldl (fun (a, b) x => let a := (a + x.toNat) % 65521; (a, (b + a) % 65521)) (1, 0)
  r.2 * 65536 + r.1

/-- Big-endian value. -/
def beValue (bs : List Byte) : Nat := bs.foldl (fun v b => 256 * v + b.toNat) 0

/-- Is a zlib header one that R443 accepts: CM 8, a window of at most 32 KiB, a right check, FDICT 0? -/
def zlibOk (cmf flg : Nat) : Bool :=
  cmf % 16 == 8 && cmf / 16 ≤ 7 && (256 * cmf + flg) % 31 == 0 && flg / 32 % 2 == 0

/-- A raw stream: why decoding stops, its output, and the bytes after the final block. -/
def inflateRaw (bs : List Byte) : InfStop × List Byte × List Byte :=
  let bits := bitsOf bs
  let s := Inf.blocks bits.length (bits.length + 1) { bits := bits }
  (s.stop.getD .short, s.out.reverse, bytesOf (alignBits bits.length s.bits))

/-- What the input of a stream gives (R443): with ZLIB the header and Adler-32 of RFC 1950 are required; every byte after
the end must be zero. -/
def inflate (zlib : Bool) (bs : List Byte) : InfStop × List Byte :=
  if !zlib then
    let (e, out, rest) := inflateRaw bs
    (if e = .ended && rest.any (· != 0) then .bad else e, out)
  else match bs with
    | cmf :: flg :: body =>
      if !zlibOk cmf.toNat flg.toNat then (.bad, [])
      else
        let (e, out, rest) := inflateRaw body
        if e ≠ .ended then (e, out)
        else if rest.length < 4 then (.short, out)
        else if beValue (rest.take 4) ≠ adler32 out || (rest.drop 4).any (· != 0) then (.bad, out)
        else (.ended, out)
    | _ => (.short, [])

end Sys2Proof.Machine
end

