-- ==== Sys2Proof/Machine/Render.lean ====
section
/-!
DEFINITION. Machine/Render.lean: Render's job queue, checks, engines, contexts, verification (15_render_and_hod.md, R439 to
R449).
-/

namespace Sys2Proof.Machine

def modRnd (s : State) (f : Render → Render) : State := { s with rnd := f s.rnd }

def rndEngine (s : State) (e : Nat) : Option RndItem := tget none s.rnd.engines e
def rndCtx (s : State) (n : Nat) : Option RndCtx := tget none s.rnd.ctxs n

/-- Hold or free a context; CTX_USED follows. -/
def setRndCtx (s : State) (n : Nat) (c : Option RndCtx) : State :=
  let s := modRnd s fun r => { r with ctxs := tset none r.ctxs n c }
  fset s RND_STATUS_CTX_USED s.rnd.ctxs.length

/-- Does engine `e` serve? -/
def rndServes (s : State) (e : Nat) : Bool := e < 8 && fbit s RND_STATUS_IN_SERVICE e

/-! ## Jobs arrive (R440, R441) -/

/-- A producer's job joins the queue of 64; with the queue full it waits outside on credits. -/
def rndArrive (s : State) (j : RenderJob) : State :=
  if s.rnd.queue.length < 64 then modRnd s fun r => { r with queue := r.queue ++ [{ job := j }] } else s

/-- COMPRESS: a job with OP 0x01. -/
def execCompress (job : RenderJob) (s : State) : Host.Outcome State Fault Refusal :=
  .next (rndArrive s { job with op := 1 })

/-- DECOMPRESS: a job with OP 0x02. -/
def execDecompress (job : RenderJob) (s : State) : Host.Outcome State Fault Refusal :=
  .next (rndArrive s { job with op := 2 })

/-- RENDER_RESUME: a job with OP 0x03. -/
def execRenderResume (job : RenderJob) (s : State) : Host.Outcome State Fault Refusal :=
  .next (rndArrive s { job with op := 3 })

/-- RENDER_FREE: a job with OP 0x04. -/
def execRenderFree (job : RenderJob) (s : State) : Host.Outcome State Fault Refusal :=
  .next (rndArrive s { job with op := 4 })

/-! ## Results (Table 15-2) -/

/-- Send a result to the job's REPLY endpoint. -/
def rndResult (s : State) (j : RenderJob) (status engine consumed produced crc : Nat) (retried : Bool) : State :=
  let w0 := j.tag % 65536 + status % 256 * 2 ^ 16 + engine % 8 * 2 ^ 24 + consumed % 2 ^ 32 * 2 ^ 32
  emit s (.message j.reply
    [BitVec.ofNat 64 w0, BitVec.ofNat 64 (produced % 2 ^ 32 + crc % 2 ^ 32 * 2 ^ 32), BitVec.ofNat 64 (b2n retried), 0])

/-! ## Checks (R442, R445) -/

/-- JOB_RSVD: an undefined OP, a nonzero reserved field, a reserved encoding. -/
def jobRsvd (j : RenderJob) : Bool :=
  j.rsvd || !(1 ≤ j.op && j.op ≤ 4) || (if j.op = 1 then !(4 ≤ j.depth && j.depth ≤ 256) else j.depth != 0) ||
    (j.op != 2 && j.expect != 0) || 65 ≤ j.ctx || (j.op == 3 && j.zlib)

/-- JOB_RANGE: a range outside SRAM, a length out of range, a context in the wrong state. -/
def jobRange (s : State) (j : RenderJob) : Bool :=
  16777216 < j.inLen || j.outLen == 0 || 16777216 < j.outLen ||
    sramBytes < j.inAddr + j.inLen || sramBytes < j.outAddr + j.outLen ||
    (if j.op ≤ 2 then j.ctx != 0 && (rndCtx s j.ctx).isSome else (rndCtx s j.ctx).isNone)

/-- TAG: a slot's tag, or the context's, differs from TENANT. -/
def jobTag (s : State) (j : RenderJob) : Bool :=
  !j.tagsOk || (3 ≤ j.op && (match rndCtx s j.ctx with | some c => c.tag != j.tenant | none => false))

/-- The status of a job that fails a check; 0 when it passes. -/
def jobCheck (s : State) (j : RenderJob) : Nat :=
  if jobRsvd j then 0x20 else if jobRange s j then 0x21 else if jobTag s j then 0x22 else 0

/-- R442: a job that fails a check writes nothing and changes no context; its producing flow is aborted. -/
def badJob (s : State) (j : RenderJob) (status engine : Nat) : State :=
  let region := match j.flow with | some (t, c) => some (Region.flowCtx t c) | none => none
  let s := report (fbump s RND_CNT1_BAD_JOB) { src := 0x388, cls := .contained, region := region }
  let s := rndResult s j status engine 0 0 0 false
  match j.flow with
  | some (t, c) => abortFlow s (ctxKey t c)
  | none => s

/-- The lowest idle engine in service that a job may run on. -/
def rndPick (s : State) (skip : Option Nat) : Option Nat :=
  (List.range 8).find? fun e => rndServes s e && (rndEngine s e).isNone && skip != some e

/-- RENDER_DISPATCH: the queue's head goes to the lowest idle engine, once it has passed its checks. -/
def execRenderDispatch (s : State) : Host.Outcome State Fault Refusal :=
  match s.rnd.queue with
  | [] => .next s
  | it :: rest =>
    match rndPick s it.skip with
    | none => .next s
    | some e =>
      let s := modRnd s fun r => { r with queue := rest }
      let st := jobCheck s it.job
      if st ≠ 0 then .next (badJob s it.job st e)
      else .next (modRnd s fun r => { r with engines := tset none r.engines e (some it) })

/-! ## What a job does (R443, R445, R446) -/

/-- The stream a job works on: its context's, or a new one. -/
def jobStream (s : State) (j : RenderJob) : RndCtx :=
  match (if j.op = 3 then rndCtx s j.ctx else none) with
  | some c => c
  | none =>
    { tag := j.tenant, compress := j.op == 1, zlib := j.zlib, depth := j.depth, expect := j.expect, input := [],
      ends := [], produced := 0 }

/-- What a job comes to: status, input bytes consumed, output bytes, plaintext so far, the stream as a context keeps it. -/
structure JobEnd where
  status   : Nat
  consumed : Nat
  out      : List Byte
  plain    : List Byte
  stream   : RndCtx
  deriving DecidableEq, Repr

/-- Compression: the encoder's stream from where the job before stopped. -/
def compressJob (c : RndCtx) (j : RenderJob) (inp : List Byte) (free : Nat) : JobEnd :=
  let all := c.input ++ inp
  let ends := if j.final then c.ends else c.ends ++ [all.length]
  let out := ((Config.deflate (all.map (·.toNat)) ends c.depth c.zlib j.final).map (BitVec.ofNat 8)).drop c.produced
  if j.outLen < out.length then
    let n := free % (inp.length + 1)
    let got := c.input ++ inp.take n
    ⟨1, n, out.take j.outLen, got, { c with input := got, produced := c.produced + j.outLen }⟩
  else ⟨if j.final then 0 else 2, inp.length, out, all, { c with input := all, ends := ends, produced := c.produced + out.length }⟩

/-- Decompression: the bytes the stream gives beyond those that earlier jobs wrote. -/
def decompressJob (c : RndCtx) (j : RenderJob) (inp : List Byte) (free free2 : Nat) : JobEnd :=
  let all := c.input ++ inp
  let (stop, plain) := inflate c.zlib all
  let out := plain.drop c.produced
  let n := free % (inp.length + 1)
  if j.outLen < out.length then
    ⟨1, n, out.take j.outLen, plain.take (c.produced + j.outLen),
      { c with input := c.input ++ inp.take n, produced := c.produced + j.outLen }⟩
  else if stop = .bad || (stop = .short && j.final) then
    let m := free2 % (out.length + 1)
    ⟨0x11, n, out.take m, plain.take (c.produced + m), c⟩
  else if stop = .short then
    ⟨2, inp.length, out, plain, { c with input := all, produced := plain.length }⟩
  else ⟨if c.expect ≠ 0 && plain.length ≠ c.expect then 0x12 else 0, inp.length, out, plain, c⟩

/-- Run a job: the context changes only now, at its end. -/
def runJob (s : State) (j : RenderJob) : JobEnd × State :=
  let c := jobStream s j
  let inp := memRead s.trw.sram j.inAddr j.inLen
  let (a, s) := drawFree s
  let (b, s) := drawFree s
  (if c.compress then compressJob c j inp a else decompressJob c j inp a b, s)

/-- A granule's write job, and its read job, by their parameters (R447, R448). -/
def granuleWrite (j : RenderJob) : Bool := j.op == 1 && j.inLen == 16384 && j.outLen == 12288 && j.final && j.ctx == 0
def granuleRead (j : RenderJob) : Bool := j.op == 2 && j.expect == 16384 && j.outLen == 16384 && j.ctx == 0

/-- Write a job's output, keep or free its context, send its result. -/
def finishJob (s : State) (e : Nat) (it : RndItem) (r : JobEnd) : State :=
  let j := it.job
  let s := modTrw s fun w => { w with sram := memWrite w.sram j.outAddr r.out }
  let s := if j.ctx = 0 then s
    else setRndCtx s j.ctx (if r.status = 1 || r.status = 2 then some r.stream else none)
  let s := if granuleWrite j && r.status = 1 then fbump s RND_CNT0_STORED else s
  rndResult s j r.status e r.consumed r.out.length (crc32c r.plain).toNat it.retried

/-- R448: the second failure of a granule's read. -/
def granuleLost (s : State) (j : RenderJob) : State :=
  let s := dmkSend (raise (fbump s RND_CNT1_DECOMP_FAIL) 0x38C) 0x0382 0
  match j.flow with
  | none => s
  | some (t, c) => match (getCtx s (ctxKey t c)).seq with
    | some seq => setDone s seq 0x0201
    | none => s

/-- Take an engine's job away. -/
def clearEngine (s : State) (e : Nat) : State := modRnd s fun r => { r with engines := tset none r.engines e none }

/-- Put a job at the head of the queue, to run on another engine than `e`. -/
def requeue (s : State) (e : Nat) (it : RndItem) : State :=
  modRnd s fun r => { r with queue := { it with skip := some e } :: r.queue }

/-- RENDER_JOB_END: engine `e` ends its job, every byte of a compression verified. -/
def execRenderJobEnd (e : Nat) (s : State) : Host.Outcome State Fault Refusal :=
  match rndEngine s e with
  | none => .next s
  | some it =>
    let s := clearEngine s e
    if it.job.op = 4 then
      .next (rndResult (setRndCtx s it.job.ctx none) it.job 0 e 0 0 0 it.retried)
    else
      let (r, s) := runJob s it.job
      if granuleRead it.job && (r.status = 0x11 || r.status = 0x12) then
        if it.again then .next (granuleLost (finishJob s e it r) it.job)
        else .next (requeue s e { it with again := true })
      else .next (finishJob s e it r)

/-! ## Verification (R444) -/

/-- An engine is retired: source 0x380 + e and code 0x0380; what it ran runs again elsewhere. -/
def retireEngine (s : State) (e : Nat) : State :=
  let s := fsetBit (fsetBit s RND_STATUS_IN_SERVICE e false) RND_STATUS_RETIRED e true
  let s := recomputeFloors (dmkSend (raise (retireUnit s (.renderEngine e)) (0x380 + e)) 0x0380 0)
  match rndEngine s e with
  | none => s
  | some it => requeue (clearEngine s e) e it

/-- VERIFY_MISMATCH: a byte engine `e` produced does not decompress to its input. The job runs again on another engine;
after a second mismatch it ends VERIFY_FAIL and the second engine is retired only when its known-answer test fails. -/
def execVerifyMismatch (e : Nat) (katOk : Bool) (s : State) : Host.Outcome State Fault Refusal :=
  match rndEngine s e with
  | none => .next s
  | some it =>
    if it.job.op = 4 || !(jobStream s it.job).compress then .next s
    else
      let s := fbump (clearEngine s e) RND_CNT0_MISMATCH
      if !it.retried then .next (requeue (retireEngine s e) e { it with retried := true })
      else
        let s := if it.job.ctx = 0 then s else setRndCtx s it.job.ctx none
        let s := if granuleWrite it.job then fbump s RND_CNT0_STORED else s
        let (a, s) := drawFree s
        let (b, s) := drawFree s
        let (c, s) := drawFree s
        let s := rndResult s it.job 0x10 e (a % (it.job.inLen + 1)) (b % (it.job.outLen + 1)) c true
        let s := dmkSend (raise s 0x38B) 0x0381 0
        .next (if katOk then s else retireEngine s e)

/-- RENDER_KAT_TICK: an engine between jobs runs its known-answer test. -/
def execRenderKatTick (e : Nat) (good : Bool) (s : State) : Host.Outcome State Fault Refusal :=
  if rndServes s e && (rndEngine s e).isNone && !good then .next (retireEngine s e) else .next s

end Sys2Proof.Machine
end

