-- ==== Sys2Proof/Machine/Stop.lean ====
section
/-!
DEFINITION. Machine/Stop.lean: what the warm stop, the Ballast trigger and SAFE entry share: fences, the settling of fetched
commands (R525, R161), the freeze of every queue, the unloads (R404), and the start of a dump (R524).
-/

namespace Sys2Proof.Machine

def modBls (s : State) (f : Ballast → Ballast) : State := { s with bls := f s.bls }

/-! ## Settling fetched commands (R525, R157) -/

/-- A slot without the blocks a change stored in it. -/
def slotWithout (old x : Slot) (seq : Nat) : Slot :=
  (List.range 4).foldl (fun x b =>
    if x.tags.getD b 0 = seq then
      let had := old.mask / 2 ^ b % 2 == 1
      { x with blocks := setAt x.blocks b (old.blocks.getD b 0), tags := setAt x.tags b (old.tags.getD b 0)
               mask := if had then x.mask else x.mask - x.mask / 2 ^ b % 2 * 2 ^ b }
    else x) x

/-- Take a change's blocks out of a slot it used; a slot that held nothing before it and nothing since is free. -/
def undoSlot (s : State) (seq : Nat) (e : Nat × Slot) : State :=
  let x := getSlot s e.1
  if x.state = 0 then s
  else if e.2.state < 2 && x.tags.all (fun t => t == 0 || t == seq) then freeSlot s e.1
  else modSlot s e.1 fun x => slotWithout e.2 x seq

/-- R157: a change whose second copy is not written has changed nothing: its slots and entries are as before, except where
a later change has written since. -/
def undoChange (s : State) (seq : Nat) (c : Cmd) : State :=
  let u := tget {} s.udc.undo seq
  let t := c.tenant
  let n := u.ns
  let pool := ((getNs s t n).getD {}).pool
  let s := u.slots.foldl (fun s e => undoSlot s seq e) s
  let back := u.gran.filter fun e =>
    entryOf s t n pool e.1 == e.2.2 && (e.2.2.kind != 2 || (getSlot s e.2.2.slot).state == 0)
  let s := u.ext.foldl (fun s e =>
    if { getExt s t n e.1 with heat := e.2.2.heat } = e.2.2 then setExt s t n e.1 e.2.1 else s) s
  let s := back.foldl (fun s e =>
    if entryOf s t n pool e.1 = e.2.1 then s else setEntry s t n pool e.1 e.2.1) s
  modUdc s fun v => { v with undo := tset {} v.undo seq {} }

/-- Settle one fetched command: one that has ended keeps its status; a change whose copies are written completes with
0x0000; every other one has changed nothing and completes with 0x0402. Its journal entry is final at once; its CQE waits
while its function may not issue requests (R110). -/
def settleStopOne (s : State) (seq : Nat) (c : Cmd) : State :=
  let copied := c.changes && c.applied && c.mids.isEmpty
  let status := match c.done with
    | some d => d
    | none => if copied then 0 else 0x0402
  let half := !c.admin && isSkim c.sqe.opc && !c.mids.isEmpty
  let s := if half || (c.applied && status ≠ 0) then undoChange s seq c else s
  let s := modUdc (freeReserved (freeBound s c) seq c) fun u => { u with undo := tset {} u.undo seq {} }
  let c := { c with done := some status, bound := none, slots := [], mids := [] }
  let s := jrnFinal (putCmd s seq c) seq status
  if c.noCqe || (getFn s c.fid).live then finishCmd s seq c status else s

/-- Freeze every submission queue. -/
def freezeAll (s : State) : State :=
  let f := fun (p : QPair) =>
    if p.mode = 2 && !p.frozen then { p with frozen := true, freezeHead := p.sqHead, fetching := 0, resume := none }
    else { p with fetching := 0, resume := none }
  { s with qps := s.qps.map fun e => (e.1, f e.2) }

/-- Settle every fetched command, the newest first, and freeze every queue. -/
def settleStop (s : State) : State :=
  freezeAll (s.cmds.foldr (fun e s => settleStopOne s e.1 e.2) s)

/-- R161: in SAFE each completion queue with no command outstanding and with room takes one CQE with CID 0xFFFF. -/
def safeCqes (s : State) : State :=
  s.qps.foldl (fun s e =>
    let fid := e.1 / 16
    let q := e.1 % 16
    let p := getQp s fid q
    if p.mode = 2 && p.out == 0 && p.unread + 1 < p.size && (getFn s fid).live then postNoSqe s fid q 0x0402 else s) s

/-! ## Fences and unloads -/

/-- Fence messages to the flash channels, the read channels and Hod (R310, R352, R458); a running SKIM_INSTALL is
abandoned (R212). -/
def fenceMedia (s : State) : State := abandonInstall (hodFence (diskFence (flashFence s)))

/-- Unload every loaded actuator (R404). -/
def unloadAll (s : State) : State := (List.range 32).foldl unloadReq s

/-- Has an actuator of the device its heads still out, or on their way? -/
def headsOut (s : State) : Bool := (List.range 32).any fun a => 4 ≤ srvState s a && srvState s a ≤ 10

/-- May KPR_SAFE.HEADS_DONE be set (Table 17-8 step 6)? -/
def noteHeads (s : State) : State :=
  if s.phase = .safe && 2 ≤ s.kpr.safeStep && !headsOut s && !((List.range 32).any fun a => srvState s a == 12) then
    fset s KPR_SAFE_HEADS_DONE 1
  else s

/-! ## The start of a dump (R524, R528, R532) -/

/-- The slots a dump takes: dirty or destaging. -/
def dumpSlots (s : State) : List Nat := (s.udc.slots.filter fun e => 2 ≤ e.2.state).map (·.1)

/-- Begin a dump: `mode` 1 Ballast, 2 warm stop, 3 SAFE entry; `cause` as Table 19-5 has it. While a dump is current and
BRINGUP step 3 has not ended, no new one is written. -/
def startDump (s : State) (mode cause : Nat) : State :=
  modBls s fun b =>
    { b with mode := mode, cause := cause, fromNs := s.tb.ns, regen := cause == 1, noDump := b.restoring
             todo := dumpSlots s, header := false, pages := 0, missing := 0, integ := 0, lowNs := none }

/-- Ballast's sequence from step 3 of Table 19-3 (R518, R524, R500): cause 1 VM, 2 core. In SAFE the steps already done are
not repeated and GLB_STATE stays. -/
def startBallast (s : State) (cause : Nat) : State :=
  let s := if s.phase = .safe then s else setPhase s .ballast 0xB10
  let s := fset (fset (fset s BLS_STATUS_CAUSE cause) BLS_STATUS_ACTIVE 1) BLS_STATUS_FLUSH_DONE 0
  let s := dmkSend (raise s 0xB10 cause) 0x0B80 cause
  let s := bypUpdate (fenceMedia s)
  let s := if cause = 1 then (List.range 16).foldl ballastRequest s else s
  startDump (settleStop (unloadAll s)) 1 cause

/-- A trigger that is recorded only. -/
def recordTrigger (s : State) (cause : Nat) : State := dmkSend (raise s 0xB10 cause) 0x0B80 cause

/-- Is a head loaded, does a spindle turn, is dirty data held (Table 03-7, BRINGUP)? -/
def bringupAtRisk (s : State) : Bool :=
  headsOut s || ((List.range 16).any fun h => 3 ≤ spnState s h && spnState s h ≤ 11) || !(dumpSlots s).isEmpty

/-- A Ballast trigger by device state (Table 03-7, R66, R500). In a warm stop Ballast takes over and the warm reset follows
when it ends. -/
def trigger (s : State) (cause : Nat) : State :=
  match s.phase with
  | .off | .ballast => s
  | .loading | .selftest | .discovery | .beacon => recordTrigger s cause
  | .bringup =>
    if bringupAtRisk s then
      startBallast { s with rst := { s.rst with warmLatched := s.rst.warm.orElse fun _ => s.rst.warmLatched, warm := none } } cause
    else recordTrigger s cause
  | .serving | .degraded =>
    startBallast { s with rst := { s.rst with warmLatched := s.rst.warm.orElse fun _ => s.rst.warmLatched, warm := none } } cause
  | .safe => if s.kpr.safeStep < 8 && s.bls.mode ≠ 1 then startBallast s cause
             else if s.kpr.safeStep < 8 then s else recordTrigger s cause

end Sys2Proof.Machine
end

