-- ==== Sys2Proof/Machine/Ballast.lean ====
section
/-!
DEFINITION. Machine/Ballast.lean: meanings of Ballast's commands (19_ballast.md): the trigger, the energy it counts, the
regulation of VM, the dump, brown-outs and the bank.
-/

namespace Sys2Proof.Machine

/-! ## The trigger (R518) -/

/-- BALLAST_TRIGGER: VM has stayed below VM_FAIL for longer than VM_FAIL_NS. -/
def execBallastTrigger (s : State) : Host.Outcome State Fault Refusal := .next (trigger s 1)

/-- VM_DIP: a shorter dip is counted; in BALLAST a further dip has no effect (Table 19-4). -/
def execVmDip (s : State) : Host.Outcome State Fault Refusal :=
  if s.phase = .off || s.phase = .ballast then .next s else .next (fbump s BLS_RATE_DIPS)

/-! ## Energy and the dirty limit (R521 to R523) -/

/-- Channels in service with their LUNs in service. -/
def dumpChans (s : State) : List (LunProfile × Nat) :=
  (chansServing s).filterMap fun c => (flashProfile s c).map fun p => (p, (lunsOk s c).length)

/-- A spindle as R522 counts it. -/
def spinEnergy (s : State) (h : Nat) : SpinEnergy :=
  { r := (getSpn s h).omega / rated s h, ke := keNow s h, iBrake := (spinRec s h).iBrake, omega := toRad (rated s h)
    j := (spinRec s h).j }

/-- Spindles that are counted: in SIX_STEP, FOC or DECEL. -/
def countedSpindles (s : State) : List SpinEnergy :=
  ((List.range 16).filter fun h => 5 ≤ spnState s h && spnState s h ≤ 7).map (spinEnergy s)

/-- N of R523: two actuators of every HDA that is declared present and not retired. -/
def presentActuators (s : State) : Nat :=
  2 * (List.range 16).countP fun h => hdaPresent s h && !isRetired s (.hda h)

/-- Erased dump capacity in units. -/
def dumpUnits (s : State) : Nat := ((chansServing s).map (dumpUnitsFree s)).sum

/-- The bank voltage, in volts. -/
def bankVolts (s : State) : Rat := ((s.pwr.vhold : Nat) : Rat) / 1000

/-- x in tenths, saturating at 16 bits. -/
def tenths (x : Rat) : Nat := min 65535 (x * 10).floor.toNat

/-- ENERGY_RECOMPUTE: `vh` is the voltage at VHOLD_SENSE. -/
def execEnergyRecompute (vh : Rat) (s : State) : Host.Outcome State Fault Refusal :=
  match s.loader.img with
  | none => .next s
  | some img =>
    if s.phase = .off || s.phase = .loading || s.phase = .beacon then .next s
    else
      let e := img.energy
      let v := if e.cVhold = 0 then 0 else vh * e.vhGain
      let s := fset (modPwr s fun p => { p with vhold := (v * 1000).floor.toNat }) BLS_VHOLD_V
        (min 65535 (v * 100).floor.toNat)
      let cs := dumpChans s
      let hs := countedSpindles s
      let en := countedEnergy e hs v
      let (term, byDump) := ballastTerm e cs (presentActuators s) (dumpUnits s) en
      let dirty := (dumpSlots s).length
      let (need, s) := if dumpRate cs = 0 then (fun p : Nat × State => (p.1 % 65536, p.2)) (drawFree s)
        else (tenths (dumpNeed e cs (presentActuators s) dirty), s)
      let s := fset (fset s BLS_LIMIT_SLOTS (min term (2 ^ 22 - 1))) BLS_LIMIT_BY_DUMP (b2n byDump)
      let s := fset (fset s BLS_ENERGY_AVAIL (tenths en)) BLS_ENERGY_NEED need
      let s := fset (fset s BLS_RATE_R_D (min 65535 (dumpRate cs / 10000000).floor.toNat)) BLS_RATE_HDAS
        (min 15 (givingSpindles e hs))
      if term < dirty then
        .next (if fget s BLS_STATUS_SHORT = 1 then s
          else dmkSend (raise (fset s BLS_STATUS_SHORT 1) 0xB13 (min term (2 ^ 22 - 1))) 0x0B87 (min term (2 ^ 22 - 1)))
      else .next (fset s BLS_STATUS_SHORT 0)

/-! ## Regulating VM (R526) -/

/-- The PI law's command in amperes for the error VM - VM_HOLD and its integral; its gains are open. -/
def regenLaw (err integ : Rat) : Rat := min 0 (Config.regenP * err + Config.regenI * integ)

/-- May the bank be enabled now: VM low for 10 µs, or no spindle in REGEN above the floor ratio? -/
def bankNeeded (s : State) (e : EnergySec) : Bool :=
  let hs := ((List.range 16).filter fun h => spnState s h == 11).map (spinEnergy s)
  let rf := floorRatio e hs
  let low := match s.bls.lowNs with
    | some t => decide (10000 ≤ s.tb.ns - t)
    | none => false
  low || !(hs.any fun h => match rf with
    | some f => decide (f < h.r)
    | none => false)

/-- REGEN_REGULATE: `vm` in volts. -/
def execRegenRegulate (vm : Rat) (s : State) : Host.Outcome State Fault Refusal :=
  let e := (image s).energy
  if s.bls.mode ≠ 1 || !s.bls.regen || fget s BLS_STATUS_ACTIVE = 0 then .next s
  else
    let hold : Rat := ((e.vmHold : Nat) : Rat) / 1000
    let err := vm - hold
    let integ := s.bls.integ + err / 100000
    let u := regenLaw err integ
    let s := modBls s fun b =>
      { b with integ := integ
               lowNs := if vm < hold - 3 / 10 then b.lowNs.orElse fun _ => some s.tb.ns else none }
    let s := (List.range 16).foldl (fun s h =>
      if spnState s h = 11 then modSpn s h fun p => { p with regenIq := max u (-(spinRec s h).iBrake) } else s) s
    .next (if e.cVhold ≠ 0 && bankNeeded s e then fset s BLS_STATUS_VHOLD_ON 1 else s)

/-! ## The dump (R524, R528, R529) -/

/-- Units a slot holds. -/
def Slot.units (x : Slot) : Nat := if x.clen = 0 then popCount 4 x.mask else 4 - x.clen

/-- Units of the slots part: in groups of 64 slots, each behind a unit of headers. -/
def dumpSlotUnits (s : State) (is : List Nat) : Nat :=
  (is.length + 63) / 64 + (is.map fun i => (getSlot s i).units).sum

/-- Page sets that `units` dump units take on each channel: strips as long as the shortest SLC page set among them. -/
def dumpSets (s : State) (units : Nat) : Nat :=
  let ps := (chansServing s).filterMap (flashProfile s)
  let su := ps.foldl (fun a p => min a (p.planes * p.upp)) ((ps.map fun p => p.planes * p.upp).foldl max 1)
  let d := if 4 ≤ ps.length then ps.length - 2 else max ps.length 1
  (units + d * su - 1) / max (d * su) 1

/-- Dump rows of a channel in the order a dump fills them: LUNs within a row. -/
def dumpOrder (s : State) (c : Nat) : List (Nat × Nat) :=
  (List.range 64).flatMap fun r => (lunsOk s c).map fun l => (l, 1024 + r)

/-- Program `n` page sets of a channel's dump rows: page sets of a row in order, then the next LUN, then the next row. -/
def takeSets (c psets : Nat) : List (Nat × Nat) → Nat → State → State
  | [], _, s => s
  | (l, r) :: rest, n, s =>
    let w := getRow s c l r
    let k := min n (psets - w.next)
    if n = 0 then s
    else takeSets c psets rest (n - k) (if k = 0 then s else modRow s c l r fun w => { w with next := w.next + k, slc := true })

/-- A dump never continues a row that is not wholly erased: what is left of such a row counts as used. -/
def closeRows (s : State) (c psets : Nat) : State :=
  (dumpOrder s c).foldl (fun s e =>
    if 0 < (getRow s c e.1 e.2).next then modRow s c e.1 e.2 fun w => { w with next := max psets w.next } else s) s

/-- Bring the rows up to `sets` page sets on every channel. -/
def programDump (s : State) (sets : Nat) : State :=
  let s := (chansServing s).foldl (fun s c => match flashProfile s c with
    | some p => takeSets c p.psets (dumpOrder s c) (sets - s.bls.pages) s
    | none => s) s
  showDump (modBls s fun b => { b with pages := max b.pages sets })

/-- May this stop write a dump? -/
def dumpMay (s : State) : Bool := s.bls.mode != 0 && !s.bls.noDump && !(chansServing s).isEmpty

/-- The header and the metadata part. -/
def dumpHeader (s : State) (metaOk : Bool) : State :=
  let s := (chansServing s).foldl (fun s c => match flashProfile s c with
    | some p => closeRows s c p.psets
    | none => s) s
  let (m, s) := drawFree s
  let units := m % 262144
  let d : Dump :=
    { cause := s.bls.cause, parity := if 4 ≤ (chansServing s).length then 2 else 0, boot := s.tb.boot % 2 ^ 32
      chans := ((chansServing s).map fun c => 2 ^ c).sum, ns := s.bls.fromNs, metaOk := metaOk, metaUnits := units
      total := 1 + units + dumpSlotUnits s s.bls.todo, count := s.bls.todo.length }
  let s := modBls { s with nv := { s.nv with dump := some d } } fun b => { b with header := true, restored := [] }
  let s := programDump s (dumpSets s (1 + units))
  if metaOk then
    persistStore (jrnPersistAll (persistTables s)) s.dmk.unpersist
  else s

/-- DUMP_WRITE: the header and the metadata part first (`metaOk` says that every unit of it was written), then the next
`n` slots in ascending index. `lost` are slots some unit of which is beyond parity, `missing` the units so lost. -/
def execDumpWrite (n : Nat) (metaOk : Bool) (lost : List Nat) (missing : Nat) (s : State) :
    Host.Outcome State Fault Refusal :=
  if !dumpMay s then .next s
  else if !s.bls.header then .next (dumpHeader s metaOk)
  else match s.nv.dump with
    | none => .next s
    | some d =>
      let now := s.bls.todo.take n
      let slots := now.foldl (fun t i => if lost.contains i then t else tset {} t i (getSlot s i)) d.slots
      let s := { s with nv := { s.nv with dump := some { d with slots := slots } } }
      let s := modBls s fun b =>
        { b with todo := b.todo.drop n, missing := b.missing + max missing (now.filter (lost.contains ·)).length }
      let units := d.total - dumpSlotUnits s s.bls.todo
      .next (programDump s (dumpSets s units))

/-- The end of the flush by mode: SAFE after Ballast, the warm reset that waits for it, or the end of step 7 of SAFE
entry. `ok` says that the flush is whole. -/
def flushEnd (s : State) (ok : Bool) : State :=
  let mode := s.bls.mode
  let s := modBls s fun b => { b with mode := 0, todo := [], header := false }
  let s := if ok then fset s BLS_STATUS_FLUSH_DONE 1 else s
  let s := fset (fset s BLS_STATUS_ACTIVE 0) BLS_STATUS_VHOLD_ON 0
  if mode = 2 then { s with rst := { s.rst with flushDone := ok } }
  else if s.phase = .safe then
    noteHeads (fset (modKpr s fun k => { k with safeStep := 8 }) KPR_SAFE_FLUSH_DONE (b2n ok))
  else match s.rst.warmLatched with
    | some c => { s with rst := { s.rst with warm := some c, warmLatched := none, flushDone := ok } }
    | none =>
      modKpr (safeDecide s (s.kpr.safeLatched.getD 0xB10) false) fun k => { k with safeLatched := none }

/-- DUMP_TRAILER: once every slot is written and every actuator is PARKED, RETIRED or STRANDED. Where this stop writes no
dump (R532), or no flash channel is left to write one (R66, R523), the sequence ends without a trailer. -/
def execDumpTrailer (s : State) : Host.Outcome State Fault Refusal :=
  if s.bls.mode = 0 || headsOut s then .next s
  else if s.bls.noDump then .next (flushEnd s true)
  else if (chansServing s).isEmpty then .next (flushEnd s false)
  else match s.nv.dump with
    | none => .next s
    | some d =>
      if !s.bls.header || !s.bls.todo.isEmpty then .next s
      else
        let dur := (s.tb.ns - s.bls.fromNs) / 1000
        let s := { s with nv := { s.nv with dump := some { d with trailer := some (s.bls.missing, dur) } } }
        let s := programDump s (dumpSets s (d.total + 1))
        let s := (List.range 32).foldl (fun s a => if srvState s a = 2 then setPark s a 1 else s) s
        .next (flushEnd (dmkSend s 0x0B81 (dur / 1000)) true)

/-- VM_BACK (R527): VM has been at or above VM_OK for 10 ms. -/
def execVmBack (s : State) : Host.Outcome State Fault Refusal :=
  if s.phase = .ballast && fget s BLS_STATUS_VM_BACK = 0 then .next (dmkSend (fset s BLS_STATUS_VM_BACK 1) 0x0B82 0)
  else .next s

/-! ## Core brown-out (R533) -/

/-- CORE_BROWNOUT: VDD_CORE is below its under-voltage threshold. `ok` is the outcome of the AVSBus command. -/
def execCoreBrownout (ok : Bool) (s : State) : Host.Outcome State Fault Refusal :=
  if s.phase = .off || fget s BLS_STATUS_BROWNOUT = 1 then .next s
  else
    let s := dmkSend (raise s 0x080) 0x0B83 0
    let s := modBls (fset s BLS_STATUS_BROWNOUT 1) fun b => { b with brownNs := some s.tb.ns }
    if fget s PWR_STATUS_BUS_FAIL = 1 then .next s
    else .next (avsCommand s (fget s PWR_AVS_LIMIT_VMAX) ok)

/-- The mode in force resumes after a brown-out: FIXED commands its target, TRACK goes on from its next tick. -/
def avsResume (s : State) (ok : Bool) : State :=
  if fget s PWR_STATUS_BUS_FAIL = 1 || fget s PWR_AVS_CTL_MODE ≠ 0 then s else avsCommand s (avsFixed s) ok

/-- BROWNOUT_TIMEOUT: VDD_CORE is above 0.67 V again within 1 ms (`recovered`), or 1 ms has passed and a trigger with cause 2
follows in the states that enter BALLAST on one. -/
def execBrownoutTimeout (recovered ok : Bool) (s : State) : Host.Outcome State Fault Refusal :=
  if fget s BLS_STATUS_BROWNOUT = 0 then .next s
  else if !recovered && (match s.bls.brownNs with | some t => decide (s.tb.ns < t + 1000000) | none => true) then .next s
  else if recovered then
    let s := modBls (fset s BLS_STATUS_BROWNOUT 0) fun b => { b with brownNs := none }
    .next (avsResume (dmkSend s 0x0B84 0) ok)
  else
    let s := modBls s fun b => { b with brownNs := none }
    match s.phase with
    | .bringup | .serving | .degraded | .safe => .next (trigger s 2)
    | .off | .loading | .selftest | .discovery | .ballast | .beacon => .next s

/-- BANK_LOW (R534): the bank has been below 0.95 x VH_FULL for 10 s outside BALLAST (`low`), or the condition ends. -/
def execBankLow (low : Bool) (s : State) : Host.Outcome State Fault Refusal :=
  if s.phase = .off || s.phase = .ballast || (image s).energy.cVhold = 0 then .next s
  else if !low then .next (fset s BLS_VHOLD_LOW 0)
  else if fget s BLS_VHOLD_LOW = 1 then .next s
  else .next (dmkSend (raise (fset s BLS_VHOLD_LOW 1) 0xB14) 0x0B88 0)

end Sys2Proof.Machine
end

