-- ==== Sys2Proof/Machine/ImageRules.lean ====
section
/-!
DEFINITION. Machine/ImageRules.lean: the owning chapters' rules on the content of an image's sections, which the loader
judges at check 12 (R548). Where a rule derives a figure, the figure's own function is asked of a state that holds the
candidate image.
-/

namespace Sys2Proof.Machine

/-- Lies `x` between two bounds? -/
def within (lo hi x : Nat) : Bool := lo ≤ x && x ≤ hi

/-- The state with a candidate image in place. -/
def trialImage (s : State) (img : Image) : State := { s with loader := { s.loader with img := some img } }

/-- Do values rise strictly? -/
def rising (l : List Nat) : Bool := decide (l.Pairwise (· < ·))

/-! ## PLATFORM, RING, SPINUP, EVENTS, BUDGETS -/

/-- R105, R109, R42, R48: functions, control PF, pins, AVS. -/
def platformOk (p : PlatformSec) : Bool :=
  p.vfBlocks.sum ≤ 64 && p.vfBlocks.zipIdx.all (fun e => e.1 == 0 || p.portPresent.getD e.2 false) &&
    p.portPresent.getD (p.ctlPort.getD 0) false && p.ctlPort.getD 0 < 6 &&
    (let a := p.gpio.zipIdx.map fun e => (e.2, e.1)
     let r := assignPins ({} : State) a
     r.2.isEmpty && fget r.1 GLB_STATUS_RSV_WRITE == 0) &&
    p.avsMode < 2 && within 700 900 p.avsVset && within 700 p.avsVmax p.avsVmin && p.avsVmax ≤ 900 &&
    0x100 ≤ p.avsPaceLo && p.avsPaceLo < p.avsPaceHi

/-- Table 16-1; a section whose PARTNER is 0 counts as absent. -/
def ringOk (r : RingSec) : Bool :=
  r.partner == 0 ||
    (r.ringId != 0 && r.partner == 1 && (r.versions == 2 || r.versions == 6) && within 1 3600 r.orphanHold)

/-- Table 03-12. -/
def spinupOk (r : SpinupSec) : Bool := within 11000 13500 r.vmStart && within 1 16 r.spinConc && within 5 120 r.spinTmo

/-- A code of Table 18-1. -/
def codeListed (c : Nat) : Bool := (1 ≤ c && c < 0x980) || (0xA00 ≤ c && c < 0xC00)

/-- R510. -/
def eventsOk (es : List EventRec) : Bool :=
  es.length ≤ 1024 && decide ((es.map (·.code)).Nodup) &&
    es.all fun e => codeListed e.code && within 1 255 e.depth && within 1 65535 e.rate && (e.perm || !alwaysPerm e.code)

/-- R187. -/
def budgetsOk (b : BudgetsSec) (partner : Bool) : Bool :=
  b.bgDram ≤ 144000 && b.rd.getD 0 0 + b.rd.getD 2 0 ≤ 88000 && b.rd.getD 1 0 + b.rd.getD 2 0 ≤ 9600 &&
    b.wr.getD 0 0 + b.wr.getD 1 0 + b.wr.getD 2 0 ≤ (if partner then 48000 else 40000)

/-! ## MEMORY and POOLS (R250 to R252, R292, R293) -/

/-- R292, R293; `need` is the tables' MiB. -/
def memoryOk (m : MemorySec) (need : Rat) : Bool :=
  let gib : Nat → Nat := fun c => if 0 < (m.chans.getD c {}).dimms then (m.chans.getD c {}).gib else 0
  let total : Nat := ((List.range 4).map gib).sum * 1024
  m.chans.all (fun c => c.dimms ≤ 2 && c.speed ≤ 4) &&
    within 1024 32768 m.dirtyMax && m.dirtyMax % 16 == 0 && within m.dirtyMax 32768 m.secondMax && m.secondMax % 16 == 0 &&
    within 4 32 m.maplogMi && within 1 64 m.jrnHistory && within 10 3600 m.ckptPeriod &&
    decide (need + ((m.dirtyMax + m.secondMax : Nat) : Rat) ≤ ((total : Nat) : Rat)) &&
    ((gib 0 == 0) == (gib 1 == 0) || 8 ≤ gib 0 + gib 1)

/-- Table 09-2 and R251's widths. -/
def poolsOk (img : Image) : Bool :=
  let p := img.pools
  let f := maskBits 32 p.fmemb
  let d := maskBits 16 p.dmemb
  let noDisk := p.diskCap == 0 && p.hybCap == 0
  f.all (fun c => img.platform.flashPresent.getD c false) && p.fmemb < 2 ^ 32 &&
    (f.map fun c => img.flashProf.chmap.getD c none).dedup.length ≤ 1 &&
    d.all (fun h => img.platform.hdaPresent.getD h false) && p.dmemb < 2 ^ 16 &&
    p.hybCap % 256 == 0 && p.hybFlash % 256 == 0 && p.hybFlash ≤ p.hybCap && p.wlog % 4 == 0 && (noDisk || p.wlog != 0) &&
    within 3 7 p.fOpen && within 3 12 p.dOpen && within 100 65535 p.sealTmo && within 2 20 p.gcStart &&
    within 1 (p.gcStart - 1) p.gcUrgent && within 1 64 p.destageOvr && within 50 95 p.wlogHi && p.coldT < p.hotT &&
    p.hotT < 256 && within 50 99 p.settleHi && p.settleLo < p.settleHi && within 60 65535 p.heatHalf &&
    within 1 1024 p.reshapeCkpt && within 100 20000 p.rebuildMbps &&
    (within 10 32 f.length || (f.isEmpty && !img.platform.flashPresent.any id)) &&
    (within 8 16 d.length || (d.isEmpty && noDisk))

/-- R251's fits, and R252's: against the recorded geometries once the pools are formatted, with no capacity below what
its namespaces take. -/
def capsOk (s : State) (img : Image) : Bool :=
  let t := trialImage s img
  let p := img.pools
  capsFit t p.fmemb p.dmemb &&
    (!s.nv.pools.formatted ||
      (capsFit t s.nv.pools.fmemb s.nv.pools.dmemb &&
        [p.flashCap, p.diskCap, p.hybCap].zipIdx.all fun e => poolUsed s e.2 ≤ e.1))

/-! ## FLASH_PROFILES (R301, R302) -/

/-- Highest and lowest rate of an interface mode (Table 10-1). -/
def ifaceRate (i : Nat) : Nat × Nat := if i = 1 then (100, 800) else if i = 2 then (10, 50) else (400, 3200)

/-- Table 10-2 and R302's rules on one profile. -/
def profileOk (p : LunProfile) : Bool :=
  let r := ifaceRate p.iface
  let su := p.stripUnits
  p.iface < 4 && within r.1 r.2 p.rate && within 1 4 p.ces && within 1 8 p.vpc && (p.iface != 3 || p.vpc == 1) &&
    within 1 8 p.lpv && [1, 2, 4].contains p.planes && within 1 4 p.bits && within 1 8 p.upp &&
    within 4384 32768 p.pageBytes && within 16 4096 p.psets && p.blocks ≤ 8192 && within 3 8 p.sysGroups &&
    p.slcMethod < 2 && (p.slcMethod == 0 || p.slcValue == 0) && within 1 16 p.rrSets && within 1 16 p.softStep &&
    within 1 365 p.patrolDays && within 100 65535 p.wlSpread &&
    p.luns ≤ 32 && within 4 64 su && 4368 ≤ p.slot && 1024 + 64 * p.sysGroups + 16 ≤ p.blocks &&
    (p.strengthMap.headD (0, 1)).2 == 0 && rising (p.strengthMap.map (·.1)) && rising (p.strengthMap.map (·.2)) &&
    p.strengthMap.all (fun e => e.1 ≤ p.smax) &&
    p.rrTable.zipIdx.all fun e =>
      (e.2 % 16 != 0 && e.2 % 16 < p.rrSets && e.2 / 16 < p.bits) || e.1.all (· == 0)

/-- R302; the dump capacity is that of R319 over every declared channel. -/
def flashProfOk (img : Image) : Bool :=
  let f := img.flashProf
  let dump := (List.range 32).map fun c => match f.chmap.getD c none with
    | none => 0
    | some i => match f.profiles[i]? with
      | some p => p.luns * 64 * p.dumpRowUnits
      | none => 0
  within 1 8 f.profiles.length && f.profiles.all profileOk &&
    (List.range 32).all (fun c => match f.chmap.getD c none with
      | none => !(img.platform.flashPresent.getD c false)
      | some i => img.platform.flashPresent.getD c false && i < f.profiles.length) &&
    (img.memory.dirtyMax + 1024) * 256 ≤ dump.sum

/-! ## ZONES (R337, R338) -/

def taps (lo hi : Int) (l : List Int) : Bool := l.all fun x => lo ≤ x && x ≤ hi

/-- Table 11-4, and R338's fit, gap and band size for zone `z`. -/
def zoneOk (t : ZoneTable) (z : Nat) : Bool :=
  let r := t.zones.getD z {}
  let len := t.pre + 4 + 4128 + (384 + 64 * r.dstr) + 2
  let rev : Rat := ((r.rate * 1000000 * 60 : Nat) : Rat) / ((8 * t.rpm : Nat) : Rat)
  let share : Rat := ((t.wedges * t.wedgeNs * t.rpm : Nat) : Rat) / 60000000000
  let data := rev * (1 - share)
  within 800 3600 r.rate && within 16 1023 r.spt && within 1 64 r.frag && r.dstr ≤ 3 && r.pc.all (· ≤ 31) &&
    decide (0 < r.target.headD 0) && taps (-128) 127 r.target && taps (-128) 127 r.eq &&
    2 + t.bandCyl ≤ zoneCyls t z && (zoneCyls t z - 2) % t.bandCyl == 0 &&
    decide (((r.spt * len : Nat) : Rat) ≤ data - ((t.wedges * (t.resync + 4) : Nat) : Rat) - rev * 5 / 1000) &&
    decide (((len + t.resync + 4 : Nat) : Rat) ≤ data / ((t.wedges : Nat) : Rat)) &&
    1 ≤ zoneFpt r && t.bandCyl * t.heads * zoneFpt r ≤ 2048

/-- Tables 11-3 and 11-5. -/
def zoneTableOk (t : ZoneTable) : Bool :=
  within 1 12 t.heads && within 1 48 t.zones.length && within 3600 15000 t.rpm && within 60 640 t.wedges &&
    within 100 2000 t.wedgeNs && within 64 4194304 t.cyls && within 1 64 t.bandCyl && within 12 32 t.pre &&
    within 8 16 t.resync && within 50 2000 t.tPreheat && within 2 16 t.retryRevs && within 1 3 t.global_ &&
    (t.zones.headD {}).cylStart == 0 && rising (t.zones.map (·.cylStart) ++ [t.cyls]) &&
    (List.range t.zones.length).all (zoneOk t) &&
    t.headRecs.all fun h => h.readHeat < 1024 && h.writeHeat < 1024 && h.rbias < 1024 && taps (-128) 127 [h.slope]

def zonesOk (img : Image) : Bool :=
  let z := img.zones
  within 1 4 z.tables.length && z.tables.all zoneTableOk &&
    (List.range 16).all (fun h => match z.hmap.getD h none with
      | none => !(img.platform.hdaPresent.getD h false)
      | some i => img.platform.hdaPresent.getD h false && i < z.tables.length) &&
    ((maskBits 16 img.pools.dmemb).map fun h => z.hmap.getD h none).dedup.length ≤ 1

/-! ## MOTOR (R406, R411, R412) -/

/-- Is a quantity above 0? -/
def positive (l : List Rat) : Bool := l.all fun x => decide (0 < x)

/-- 4 × T_LL < 10⁶ ÷ CARRIER, in ns. -/
def carrierOk (tll carrier : Nat) : Bool := 4 * tll * carrier < 1000000

/-- Table 13-7 and its rules. -/
def actOk (r : ActRec) : Bool :=
  r.finite && positive [r.rNom, r.lNom, r.kt, r.j, r.tpr, r.rshunt, r.vsGain, r.iMax, r.aNom, r.vMax, r.tBlend, r.ds,
      r.ts, r.vDrop, r.vLoad, r.vUnload, r.iPark, r.iLatch] &&
    within 1 50 r.tolPct && decide (1 / 10000 ≤ r.tBlend ∧ r.tBlend ≤ 2 / 1000 ∧ 16 ≤ r.ds ∧ r.ds ≤ 4096 ∧
      2 / 10000 ≤ r.ts ∧ r.ts ≤ 5 / 1000) &&
    within 20 400 r.carrier && within 10 2000 r.dead && within 20 2000 r.minPulse && within 300 2000 r.tLL &&
    r.wrOnThr < r.wiThr && r.wiThr ≤ 512 && r.rdOnThr ≤ 512 && within 2 31 r.onN && within 1 31 r.rdN &&
    within 10 65535 r.feTmo && within 10 65535 r.satTmo && carrierOk r.tLL r.carrier &&
    decide (3 * r.ds / (r.ts * r.ts) ≤ r.aNom / 2)

/-- Table 14-3 and R412's rules, for an HDA of rated speed `rpm`. -/
def spinOk (r : SpinRec) (rpm : Nat) : Bool :=
  let pp : Rat := ((r.poles : Nat) : Rat) / 2
  r.finite && positive [r.rNom, r.lNom, r.keNom, r.j, r.rshunt, r.vpGain, r.iMax, r.acc, r.accMin, r.iAlign, r.iBrake,
      r.iMeas, r.decel] &&
    within 1 50 r.tolPct && [4, 6, 8, 10, 12, 14, 16].contains r.poles &&
    decide (r.accMin ≤ r.acc ∧ r.iAlign ≤ r.iMax ∧ r.iBrake ≤ r.iMax ∧ r.iMeas ≤ r.iMax) &&
    within 20 100 r.carrier && within 10 2000 r.dead && within 20 2000 r.minPulse && within 10 2000 r.tAlign &&
    within 1 100 r.fOl0 && within 1 2000 r.accOl && within 100 10000 r.tOpenMax && within 5 30 r.blankDeg &&
    within 6 48 r.zcN && within 10 50 r.focOn && within 5 (r.focOn - 2) r.focOff && within 2 (r.focOff - 1) r.stopPct &&
    within 2 64 r.losN && within 10 50 r.losBand && rising (r.adv.map (·.1)) && (r.adv.headD (1, 0)).1 == 0 &&
    r.adv.all (fun e => e.2 ≤ 6000) && within 300 2000 r.tLL && carrierOk r.tLL r.carrier &&
    decide (2 * Config.pi * ((r.accOl : Nat) : Rat) / pp ≤ 8 / 10 * (3 / 2) * r.keNom * r.iAlign / r.j) &&
    within 3600 15000 rpm

/-- Tables 13-6 and 14-2, and the records of present and absent units. -/
def motorOk (img : Image) : Bool :=
  let m := img.motor
  let here := fun h => img.platform.hdaPresent.getD h false
  let rpm := fun h => match (img.zones.hmap.getD h none).bind fun i => img.zones.tables[i]? with
    | some t => t.rpm
    | none => 0
  within 200 800 m.svRate && within 1 64 m.grayWin && m.shockHda.all (fun x => (maskBits 16 x).all here) &&
    within 1 1000 m.shockHold && within 12500 14500 m.vmMax && within 100 2000 m.vmBand &&
    within (m.vmMax + 100) 14800 m.vmShort && (match m.syncOut with | none => true | some h => h ≤ 15) &&
    (maskBits 16 m.syncIn).all here &&
    (List.range 32).all (fun a => match m.acts.getD a none with
      | none => !(here (a / 2))
      | some r => here (a / 2) && actOk r) &&
    (List.range 16).all (fun h => match m.spins.getD h none with
      | none => !(here h)
      | some r => here h && spinOk r (rpm h))

/-! ## LANTERN (R362 to R367, R372) -/

/-- Which of A, B, C, AUX, DST an operation uses, with AW for INTEG; none for an undefined one. -/
structure NodeUse where
  a : Bool := false
  b : Bool := false
  c : Bool := false
  aux : Bool := false
  cost : Nat := 1
  deriving DecidableEq, Repr

def nodeUse (op : Nat) : Option NodeUse :=
  if op = 0x01 || op = 0x02 || op = 0x03 || op = 0x07 || op = 0x08 || op = 0x0E then some { a := true, b := true }
  else if op = 0x04 || op = 0x0C || op = 0x0D then some { a := true, b := true, c := true }
  else if op = 0x05 then some { a := true, b := true, cost := 4 }
  else if op = 0x06 then some { a := true, cost := 4 }
  else if op = 0x09 || op = 0x0A || op = 0x0B then some { a := true }
  else if op = 0x10 then some { a := true, b := true, aux := true, cost := 5 }
  else if op = 0x11 then some { a := true, b := true, c := true, aux := true, cost := 2 }
  else if op = 0x12 then some { a := true, b := true, aux := true, cost := 0 }
  else if op = 0x20 then some { a := true, aux := true }
  else if op = 0x3F then some { cost := 0 }
  else none

def nodeCost (n : NodeWord) : Nat :=
  if n.op = 0x12 then n.aux else match nodeUse n.op with | some u => u.cost | none => 0

/-- Output ports of a kind (Table 12-7). -/
def kindPorts (kind : Nat) : Nat := if kind = 2 then 1 else if kind = 4 then 3 else 2

/-- May an operand be read: a coefficient of the table, an input or state slot, or a temporary written before? -/
def operandOk (ncoef : Nat) (written : List Nat) (w : Nat) : Bool :=
  if 256 ≤ w then w - 256 < ncoef else w < 64 || written.contains w

/-- A range of `k` coefficients from operand `w`. -/
def coefRange (ncoef w k : Nat) : Bool := 256 ≤ w && w - 256 + k ≤ ncoef

/-- R365's rules on one node, given the temporaries written before it. -/
def nodeOk (kind ncoef : Nat) (written : List Nat) (n : NodeWord) : Bool :=
  let rd := operandOk ncoef written
  match nodeUse n.op with
  | none => false
  | some u =>
    n.rsv == 0 && (u.a || n.a == 0) && (u.b || n.b == 0) && (u.c || n.c == 0) && (u.aux || n.aux == 0) &&
      (n.op == 0x11 || !n.aw) && n.a < 512 && n.b < 512 && n.c < 512 &&
      (if n.op = 0x3F then n.dst == 0
       else if n.op = 0x20 then rd n.a && n.aux < kindPorts kind
       else 16 ≤ n.dst && n.dst < 256 &&
        (if n.op = 0x10 then rd n.a && coefRange ncoef n.b 5 && within 16 62 n.aux
         else if n.op = 0x11 then rd n.a && rd n.b && coefRange ncoef n.c 2 && within 16 63 n.aux
         else if n.op = 0x12 then
          within 1 16 n.aux && n.a + n.aux ≤ 256 && coefRange ncoef n.b n.aux &&
            (List.range n.aux).all fun i => rd (n.a + i)
         else (!u.a || rd n.a) && (!u.b || rd n.b) && (!u.c || rd n.c)))

/-- The nodes in order, END last and only there. -/
def nodesOk (kind ncoef : Nat) : List Nat → List NodeWord → Bool
  | _, [] => false
  | w, [n] => n.op == 0x3F && nodeOk kind ncoef w n
  | w, n :: rest => n.op != 0x3F && nodeOk kind ncoef w n && nodesOk kind ncoef (if n.op = 0x20 then w else n.dst :: w) rest

/-- Table 12-4. -/
def graphOk (g : GraphRec) : Bool :=
  within 1 4 g.kind && within 1 1024 g.nodes.length && g.coefs.length ≤ 256 && g.coefs.all fpFinite &&
    g.ops == (g.nodes.map nodeCost).sum && nodesOk g.kind g.coefs.length [] g.nodes

/-- Kind of the row of Table 12-1 a task number lies in. -/
def rowKind (t : Nat) : Nat := if t < 32 then 1 else if t < 64 then 2 else if t < 80 then 3 else 4

/-- Carrier of a task's bridge in kHz. -/
def taskCarrier (img : Image) (t : Nat) : Nat :=
  if t < 64 then ((img.motor.acts.getD (t - 32) none).getD {}).carrier
  else ((img.motor.spins.getD (taskHda t) none).getD {}).carrier

/-- Shortest period of a task in ns (R367). -/
def shortestPeriod (img : Image) (t : Nat) (e : TaskEnt) : Rat :=
  if t < 32 then
    match (img.zones.hmap.getD (t / 2) none).bind fun i => img.zones.tables[i]? with
    | some z => 60000000000 / (((z.wedges * z.rpm : Nat) : Rat) * 102 / 100)
    | none => 0
  else ((1000000 * e.div : Nat) : Rat) / ((taskCarrier img t : Nat) : Rat)

/-- Table 12-3, R367 and Table 12-1's rates for task `t`. -/
def taskOk (img : Image) (t : Nat) : Bool :=
  let e := img.lantern.tasks.getD t {}
  let top := if 64 ≤ t && t < 80 then 10 else 100
  e.kind == 0 ||
    (e.kind == rowKind t && img.platform.hdaPresent.getD (taskHda t) false &&
      (match img.lantern.graphs[e.graph]? with | some g => g.kind == e.kind | none => false) &&
      e.core ≤ 6 && e.rsv == 0 && within 1 64 e.div && (t ≥ 32 || e.div == 1) && within 1000 1000000 e.deadline &&
      decide (((e.deadline : Nat) : Rat) ≤ shortestPeriod img t e) && (t < 32 || taskCarrier img t ≤ top * e.div))

/-- R372: the density sum of a logical core over the tasks homed there. -/
def homeDensity (s : State) (c : Nat) : Rat :=
  (((List.range 96).filter fun t => (taskEnt s t).kind != 0 && (taskEnt s t).core == c).map (density s)).sum

def lanternOk (s : State) (img : Image) (graphFmt : Nat) : Bool :=
  let l := img.lantern
  within 1 32 l.graphs.length && l.graphFmt == graphFmt && l.tasks.length ≤ 96 && l.graphs.all graphOk &&
    (List.range 96).all (taskOk img) &&
    (List.range 7).all fun c => decide (homeDensity (trialImage s img) c ≤ 9 / 10)

/-! ## ENERGY (R519, R520) -/

def energyOk (img : Image) : Bool :=
  let e := img.energy
  let cs := (List.range 32).filterMap fun c =>
    ((img.flashProf.chmap.getD c none).bind fun i => img.flashProf.profiles[i]?).map fun p => (p, p.luns)
  let hs := (List.range 16).filter fun h => img.platform.hdaPresent.getD h false
  let rpm : Nat → Nat := fun h => match (img.zones.hmap.getD h none).bind fun i => img.zones.tables[i]? with
    | some t => t.rpm
    | none => 0
  let spin : Nat → SpinEnergy := fun h =>
    let r := (img.motor.spins.getD h none).getD {}
    { r := 1, ke := r.keNom, iBrake := r.iBrake, omega := 2 * Config.pi * ((rpm h : Nat) : Rat) / 60, j := r.j }
  let en := countedEnergy e (hs.map spin) e.vhFull
  within 10000 11500 e.vmFail && within 500 20000 e.vmFailNs && within 9000 (e.vmFail - 300) e.vmHold &&
    within (e.vmFail + 200) 13500 e.vmOk && within 50 100 e.etaVh && within 50 100 e.etaRg && within 10 60 e.rgMinPct &&
    within 10 50 e.marginPct && e.finite && positive [e.pHold, e.eUnload] && decide (0 ≤ e.cVhold) &&
    (if e.cVhold = 0 then e.vhFull == 0 && e.vhMin == 0 && e.vhGain == 0 && e.pVh == 0
     else decide (e.vhMin < e.vhFull ∧ 0 < e.vhMin)) &&
    decide (((img.memory.dirtyMax * 1048576 : Nat) : Rat) ≤ energyBytes e cs (2 * hs.length) en)

/-! ## The whole image -/

/-- Section types the chapters define, each with VERSION 1. -/
def knownSection (t : Nat) : Bool := t == 1 || t == 2 || within 0x10 0x1B t

/-- R246: the Skim section's own checks. -/
def skimImageOk (f : SlotFacts) : Bool :=
  match f.img.skimSec with
  | none => true
  | some x =>
    x.skimIf == f.img.skimIf && x.subset == f.img.skimSubset &&
      f.sections.all (fun e => e.typ != 2 || e.length == x.length) &&
      skimSectionOk (fun n => (f.img.bundle.entries.getD n (0, 0)).1 != 0) x

/-- Check 12's rules on content (R548): every section that is present keeps the rules of its owning chapter. -/
def imageRules (s : State) (f : SlotFacts) : Bool :=
  let img := f.img
  let has := fun t => f.sections.any (·.typ == t)
  let partner := match img.ring with | some r => r.partner == 1 | none => false
  f.sections.all (fun e => !knownSection e.typ || e.version == 1) && img.bundle.recordsOk && skimImageOk f &&
    platformOk img.platform && memoryOk img.memory (tableMiB (trialImage s img)) && poolsOk img && capsOk s img &&
    energyOk img && budgetsOk img.budgets partner && (match img.ring with | some r => ringOk r | none => true) &&
    eventsOk img.events && (match img.spinup with | some r => spinupOk r | none => true) &&
    (!has 0x12 || flashProfOk img) && (!has 0x13 || zonesOk img) && (!has 0x14 || motorOk img) &&
    (!has 0x15 || lanternOk s img f.graphFmt)

end Sys2Proof.Machine
end

