-- ==== Sys2Proof/Machine/Boot.lean ====
section
/-!
DEFINITION. Machine/Boot.lean: device resets, the warm stop, GLB_CTL, and the end of LOADING: the choice of a slot and the
application of its image (03_bring_up_and_image.md, R61 to R83; Table 20-6).
-/

namespace Sys2Proof.Machine

/-! ## Power-on reset and LOADING (R61, R64, R102) -/

/-- Levels of the HPp_PERST_N pins, which the host drives. -/
def perstLevels (s : State) : Tbl PortState :=
  (List.range 6).foldl (fun t p => tset {} t p { perst := (getPort s p).perst }) []

/-- What a power-on reset leaves: everything on chip at its reset value, media and OTP as they were. `cause` is
GLB_RESET_CAUSE.CAUSE. -/
def powerOn (s : State) (cause : Nat) : State :=
  fset { State.reset with pending := s.pending, out := s.out, freeCtr := s.freeCtr, nv := s.nv, ports := perstLevels s }
    GLB_RESET_CAUSE_CAUSE cause

/-- POR_ASSERT: POR_N low, or the internal power-on reset, which acts only while the device is in OFF. -/
def execPorAssert (internal : Bool) (s : State) : Host.Outcome State Fault Refusal :=
  if !internal then .next (powerOn s 0)
  else if s.phase = .off then .next (powerOn s 1)
  else .next s

/-- LOADING begins: the host ports and the xSPI port are powered, and ports whose PERST_N is released train (R102). -/
def beginLoading (s : State) : State :=
  let s := [0, 1, 2, 3, 4, 5, 195].foldl (fun s d => setPdOn s d true) (setPhase s .loading)
  (List.range 6).foldl (fun s p => if (getPort s p).perst then s else modPort s p fun x => { x with training := true }) s

/-- POR_RELEASE: POR_N released with the rails and TBCLK good. -/
def execPorRelease (s : State) : Host.Outcome State Fault Refusal :=
  if s.phase = .off then .next (beginLoading s) else .next s

/-! ## Warm reset (R64 to R68, Table 03-3) -/

/-- Is a register key one of those a warm reset keeps: KPR_SAFE, KPR_HIST, and KPR_HIST_NEXT, whose RSEQ goes on (R487)? -/
def keptKey (k : Nat) : Bool :=
  (0x1400100 ≤ k && k < 0x1400500) || k == KPR_SAFE_VALID.off || k == KPR_HIST_NEXT_RSEQ.off

/-- Step 6: the switched domains reset and LOADING begins. -/
def warmReset (s : State) (cause : Nat) (flushed : Bool) : State :=
  let t : State :=
    { State.reset with
      pending := s.pending, out := s.out, freeCtr := s.freeCtr, nv := s.nv, ports := perstLevels s
      tb := { s.tb with boot := 0 }
      regs := s.regs.filter fun e => keptKey e.1
      kpr := { order := s.kpr.order, lastRec := s.kpr.lastRec }
      rst := { prevBoot := s.rst.prevBoot }
      mgt := { dynamic := s.mgt.dynamic } }
  beginLoading (fset (fset t GLB_RESET_CAUSE_CAUSE cause) GLB_RESET_CAUSE_FLUSH_DONE (b2n flushed))

/-- Steps 1 to 4 of the warm stop: Admission stops, media writes are fenced, fetched commands are settled, heads unload,
spindle drives go off, and the dump starts. -/
def warmStop (s : State) (cause : Nat) : State :=
  let s := fset { s with rst := { s.rst with warm := some cause, flushDone := false } } GLB_STATE_STOPPING 1
  let s := unloadAll (settleStop (fenceMedia s))
  startDump ((List.range 16).foldl driveOff s) 2 3

/-- A warm-reset request by device state (Table 03-7); during a warm stop a second one has no effect (R66). -/
def warmRequest (s : State) (cause : Nat) : State :=
  if s.rst.warm.isSome || s.rst.warmLatched.isSome then s
  else match s.phase with
    | .off => s
    | .loading | .selftest | .discovery | .beacon =>
      fset { s with rst := { s.rst with warm := some cause } } GLB_STATE_STOPPING 1
    | .bringup | .serving | .degraded => warmStop s cause
    | .ballast => { s with rst := { s.rst with warmLatched := some cause } }
    | .safe => warmReset s cause false

/-- WARM_RST_PIN: WARM_RST_N low. -/
def execWarmRstPin (s : State) : Host.Outcome State Fault Refusal := .next (warmRequest s 2)

/-- WARM_RESET: GLB_CTL.WARM_RESET with the key, from the control PF or the management port (`mgt`). -/
def execWarmReset (mgt : Bool) (s : State) : Host.Outcome State Fault Refusal :=
  .next (warmRequest s (if mgt then 4 else 3))

/-- WARM_STOP_END: the flush and the unloads have ended: steps 5 and 6. Where nothing was at stake they follow at once. -/
def execWarmStopEnd (s : State) : Host.Outcome State Fault Refusal :=
  match s.rst.warm with
  | none => .next s
  | some c => if s.bls.mode ≠ 0 || headsOut s then .next s else .next (warmReset (sendLeave s) c s.rst.flushDone)

/-- ENTER_SAFE (R498, Table 03-7): source 0x020. -/
def execEnterSafe (s : State) : Host.Outcome State Fault Refusal :=
  match s.phase with
  | .off | .safe | .beacon => .next s
  | .loading | .selftest | .discovery | .bringup | .serving | .degraded | .ballast => .next (raise s 0x020)

/-! ## Applying an image at the end of LOADING (R48, R99, R103, R105, R109, R200, R374, R408, R510) -/

/-- PLATFORM's register fields of host port `k` (R99, R105, R109). -/
def applyPort (s : State) (p : PlatformSec) (k : Nat) : State :=
  let s := fset s (HPT_FUNCS_PRESENT.ix k 0x1000) (b2n (p.portPresent.getD k false))
  let s := fset s (HPT_FUNCS_VF_BLOCKS.ix k 0x1000) (p.vfBlocks.getD k 0)
  let s := fset s (HPT_FUNCS_FIRST_BLOCK.ix k 0x1000) ((p.vfBlocks.take k).sum)
  let s := fset s (HPT_FUNCS_CONTROL.ix k 0x1000) (b2n (k == p.ctlPort.getD 0))
  let s := fset s (HPT_LINK_CTL_MAX_RATE.ix k 0x1000) (p.maxRate.getD k (fget s (HPT_LINK_CTL_MAX_RATE.ix k 0x1000)))
  fset s (HPT_LINK_CTL_MAX_WIDTH.ix k 0x1000) (p.maxWidth.getD k (fget s (HPT_LINK_CTL_MAX_WIDTH.ix k 0x1000)))

/-- PLATFORM: functions, links, control PF, pins, AVSBus. -/
def applyPlatform (s : State) (p : PlatformSec) : State :=
  let port := fun (s : State) (k : Nat) =>
    let s := applyPort s p k
    if p.portPresent.getD k false then s
    else setPdOn (modPort (portIdle s k) k fun x => { x with training := false }) k false
  let s := fset ((List.range 6).foldl port s) HPT_STATUS_CTL_PORT (p.ctlPort.getD 0)
  let s := (assignPins s (p.gpio.zipIdx.map fun e => (e.2, e.1))).1
  let s := fset (fset s PWR_AVS_CTL_MODE p.avsMode) PWR_AVS_VSET_VSET p.avsVset
  let s := fset (fset s PWR_AVS_LIMIT_VMIN p.avsVmin) PWR_AVS_LIMIT_VMAX p.avsVmax
  fset (fset s PWR_AVS_PACE_PACE_LO p.avsPaceLo) PWR_AVS_PACE_PACE_HI p.avsPaceHi

/-- MOTOR's register fields of actuator `a`. -/
def applyActuator (s : State) (a : Nat) (r : ActRec) : State :=
  let s := fset (fset (fset s (srvF SRV_THR_WI_THR a) r.wiThr) (srvF SRV_THR_WR_ON_THR a) r.wrOnThr)
    (srvF SRV_THR_RD_ON_THR a) r.rdOnThr
  let s := fset (fset s (srvF SRV_FE_FE_LIMIT a) r.feLimit) (srvF SRV_FE_FE_TMO a) r.feTmo
  let s := fset (fset s (srvF SRV_ONN_ON_N a) r.onN) (srvF SRV_ONN_RD_N a) r.rdN
  let s := fset s (vcmF VCM_SAT_TMO_TMO a) r.satTmo
  fset (fset (fset s (vcmF VCM_PWM_CARRIER a) r.carrier) (vcmF VCM_PWM_DEAD a) r.dead) (vcmF VCM_PWM_MINPULSE a) r.minPulse

/-- MOTOR: the actuators, SYNC_OFS of every spindle, the sync pins. -/
def applyMotor (s : State) (m : MotorSec) : State :=
  let s := m.acts.zipIdx.foldl (fun s e => match e.1 with | some r => applyActuator s e.2 r | none => s) s
  let s := m.spins.zipIdx.foldl (fun s e => match e.1 with
    | some r => fset s (SPN_SYNC_OFFSET.ix e.2 0x1000) r.syncOfs
    | none => s) s
  fset (fset s SPN_SYNC_CTL_OUT_HDA (m.syncOut.getD 31)) SPN_SYNC_CTL_IN_MASK m.syncIn

/-- EVENTS (R510): a code's bucket keeps its tokens, clipped to the new depth. -/
def applyEvents (s : State) (es : List EventRec) : State :=
  es.foldl (fun s e =>
    let b := (getBucket s e.code).refill s.tb.ns
    setBucket s e.code { b with depth := e.depth, rate := e.rate, perm := e.perm, nano := min b.nano (e.depth * 1000000000) }) s

/-- Domains of Table 02-10 a declaration calls for (R94). -/
def declaredDomains (img : Image) : List Nat :=
  let ports := (List.range 6).filter fun p => img.platform.portPresent.getD p false
  let dram := ((List.range 4).filter fun c => 0 < (img.memory.chans.getD c {}).dimms).map (· + 95)
  let flash := ((List.range 32).filter fun c => img.platform.flashPresent.getD c false).map (· + 99)
  let hdas := (List.range 16).filter fun h => img.platform.hdaPresent.getD h false
  let paths := hdas.flatMap fun h => [135 + 2 * h, 136 + 2 * h]
  let disk := if hdas.isEmpty then [] else (List.range 8).map (· + 183)
  let ring := match img.ring with | some r => if r.partner = 1 then [191, 192] else [] | none => []
  let shared := (List.range 95).filter (6 ≤ ·)
  ports ++ shared ++ dram ++ flash ++ (List.range 4).map (· + 131) ++ paths ++ hdas.map (· + 167) ++ disk ++ ring ++
    [193, 194, 195, 196, 197]

/-- States of the present flash channels and disk units once the image is applied: OFF until their domains are up. -/
def applyUnits (s : State) (img : Image) : State :=
  let s := (List.range 32).foldl (fun s c =>
    if img.platform.flashPresent.getD c false then fset s (FLC_CH_STATE_STATE.ix c 0x4000) 1 else s) s
  (List.range 16).foldl (fun s h =>
    if img.platform.hdaPresent.getD h false then
      let s := fset s (SPN_STATE_STATE.ix h 0x1000) 1
      [2 * h, 2 * h + 1].foldl (fun s a => fset (fset s (srvF SRV_ACT_STATE a) 1) (RDC_ACT_STATE_STATE.ix a 0x4000) 1) s
    else s) s

/-- The accepted image is applied (Table 20-6, 'loader value'). -/
def applyImage (s : State) (f : SlotFacts) (skim : Bool) : State :=
  let img := f.img
  let s := { s with loader := { s.loader with img := some img, tableMin := f.bundle.tableMin } }
  let s := bundleFill (applyPlatform s img.platform) img.bundle
  let s := match img.skimSec with
    | some x => if skim then fset (skimFill s x) TRW_STATUS_SKIM_ON 1 else s
    | none => s
  let s := applyEvents (applyMotor s img.motor) img.events
  let s := match img.ring with
    | some r =>
      if r.partner = 1 then fset (setReduction (fset s OZP_STATUS_MODE 3) 1 true) OZP_HOLD_ORPHAN_HOLD r.orphanHold else s
    | none => s
  let s := fset (fset s BLS_CFG_VM_FAIL img.energy.vmFail) BLS_CFG_VM_FAIL_NS img.energy.vmFailNs
  let s := fset s UDC_REBUILD_RATE_RATE (img.pools.rebuildMbps / 10)
  applyUnits ((declaredDomains img).foldl (fun s d => setPdOn s d true) s) img

/-! ## The choice of a slot (R79 to R83) -/

/-- Show a rejection's reason code. -/
def showReason (s : State) (slot r : Nat) : State :=
  if slot = 1 then fset s GLB_BOOT_A_REASON r else fset s GLB_BOOT_B_REASON r

/-- A trial slot that fails its checks is abandoned: a record with no trial, code 0x0B03. -/
def abandonTrial (s : State) (slot : Nat) : State :=
  let r : BootRec := { seq := 0, bootCount := s.tb.boot, lastGood := s.loader.lastGood, trial := 0, tries := 0 }
  let s := match appendRec s.nv r with
    | some nv => { s with nv := nv }
    | none => { s with loader := { s.loader with owed := some r } }
  let s := showRecord { s with loader := { s.loader with trial := 0, tries := 0 } } s.loader.lastGood 0 0
  dmkSend s 0x0B03 slot

/-- A rejected slot. -/
def rejectSlot (s : State) (slot r : Nat) (rest : List Nat) : State :=
  let s := dmkSend (showReason { s with loader := { s.loader with order := rest } } slot r) 0x0B01 (slot + r * 16)
  let s := if slot = s.loader.trial then abandonTrial s slot else s
  if rest.isEmpty then enterBeacon s 1 else s

/-- The operator hash is burnt where the accepted image enrols it (R80). -/
def enrol (s : State) (f : SlotFacts) : State :=
  if s.nv.opHash.isNone && f.opSigned && f.enroll then
    dmkSend (fset { s with nv := { s.nv with opHash := some f.opKeyHash } } GLB_BOOT_ENROLLED_NOW 1) 0x0B04 0
  else s

/-- An accepted slot: revoked keys, enrolment, the Skim decision, the image; SELFTEST begins. -/
def acceptSlot (s : State) (f : SlotFacts) (slot : Nat) (avsOk : Bool) : State :=
  let s := enrol s f
  let s := { s with nv := { s.nv with revoked := (s.nv.revoked ++ f.bundle.revokes).dedup } }
  let skim := skimInstalls s.nv.opHash.isSome f
  let s := if f.skim && !skim then dmkSend (fset s GLB_BOOT_SKIM_OFF 1) 0x0B05 0 else s
  let s := (List.range (unknownSections f)).foldl (fun s _ => dmkSend s 0x0B0A 0) s
  let trial := slot == s.loader.trial
  let s := dmkSend s 0x0B02 (slot + b2n trial * 4 + s.loader.tries % 4 * 8)
  let s := applyImage { s with loader := { s.loader with order := [] } } f skim
  let s := if f.img.platform.avsMode = 0 then avsCommand s (avsFixed s) avsOk else s
  setPhase (fset s GLB_BOOT_SLOT slot) .selftest

/-- SLOT_CHECKED: the next slot of the order has been read and checked: accepted, or rejected with its reason code.
`avsOk` is the outcome of the voltage command that FIXED mode gives as the image is applied. -/
def execSlotChecked (f : SlotFacts) (avsOk : Bool) (s : State) : Host.Outcome State Fault Refusal :=
  if s.phase ≠ .loading || !s.loader.started then .next s
  else match s.loader.order with
    | [] => .next s
    | slot :: rest =>
      match slotReason s.nv.opHash s.nv.revoked (imageRules s f) f with
      | some r => .next (rejectSlot s slot r rest)
      | none => .next (acceptSlot s f slot avsOk)

end Sys2Proof.Machine
end

