-- ==== Sys2Proof/Machine/Retire.lean ====
section
/-!
DEFINITION. Machine/Retire.lean: units leaving service for a cause their own chapter does not own: a failed self-test, a
measurement out of tolerance, a lost supply bank, a contained fault with no other cover (R86, R88, R46, R485).
-/

namespace Sys2Proof.Machine

/-- A host port leaves service: its link is gone. -/
def retirePort (s : State) (p : Nat) : State :=
  minWatch (recomputeFloors (retireUnit (modPort (portIdle s p) p fun x => { x with training := false }) (.hostPort p)))

/-- A flash channel leaves service: its descriptors end CHAN_DOWN; before its initialisation only its state changes. -/
def retireChan (s : State) (c : Nat) : State :=
  if chanServes s c || fget s (FLC_CH_STATE_STATE.ix c 0x4000) = 2 then chanRetire s c 0 0 true
  else
    let s := retireUnit (fsetBit (fset s (FLC_CH_STATE_STATE.ix c 0x4000) 4) FLC_RETIRED_RETIRED c true) (.flashChannel c)
    minWatch (showGeom (showChans s))

/-- Retire a unit by its owner's own operation. The always-on domain and the mask ROM have no other cover than the device
states of R86, which the caller enters. -/
def retireOwned (s : State) (u : UnitId) : State :=
  if isRetired s u then s
  else match u with
    | .hostPort p => retirePort s p
    | .maskLane l => minWatch (recomputeFloors (retireLane s l))
    | .renderEngine e => retireEngine s e
    | .hodChannel c => match execHodChannelRetire c s with | .next t => t | _ => s
    | .tile p => if tileRetired s p then s else tileFails s p
    | .dramChannel c => dramLost s c
    | .flashChannel c => retireChan s c
    | .flashLun c l => lunRetire s c l 2 0
    | .dataPath a => retireDataPath s a 0
    | .actuator a => retireAct s a
    | .hda h => retireHda s h false
    | .core c => retireCore s c
    | .ozper p => ozpRetire s p
    | .alwaysOn => s
    | .maskRom => s
    | .other _ => retireUnit s u

/-- Is a unit declared and present? -/
def unitDeclared (s : State) (u : UnitId) : Bool :=
  match u with
  | .hostPort p => fget s (HPT_FUNCS_PRESENT.ix p 0x1000) == 1
  | .dramChannel c => 0 < ((image s).memory.chans.getD c {}).dimms
  | .flashChannel c => (image s).platform.flashPresent.getD c false
  | .actuator a => hdaPresent s (a / 2)
  | .dataPath a => hdaPresent s (a / 2)
  | .hda h => hdaPresent s h
  | .ozper _ => (ringDeclared s).isSome
  | _ => true

/-- The units whose pins lie on rail `r`'s bank (Table 02-4); the core, SRAM and always-on rails feed every unit. -/
def bankUnits (r : Nat) : List UnitId :=
  match r with
  | 3 => (List.range 4).map .dramChannel
  | 4 => (List.range 32).map .flashChannel
  | 5 => (List.range 6).map .hostPort ++ [.ozper 0, .ozper 1]
  | 6 => (List.range 16).map .hda
  | 7 => (List.range 32).map .actuator
  | 8 => (List.range 6).map .hostPort ++ [.ozper 0, .ozper 1] ++ (List.range 16).map .hda
  | _ => []

/-- Retire the units on a bank (R46, R88). -/
def retireBank (s : State) (r : Nat) : State :=
  ((bankUnits r).filter (unitDeclared s)).foldl retireOwned s

end Sys2Proof.Machine
end

