-- ==== Sys2Proof/Machine/Discovery.lean ====
section
/-!
DEFINITION. Machine/Discovery.lean: the end of SELFTEST and of DISCOVERY (03_bring_up_and_image.md, R85 to R89, R92).
-/

namespace Sys2Proof.Machine

/-! ## SELFTEST (R85, R86) -/

/-- A unit whose checker failed: it never enters service. -/
def bootRetire (s : State) (u : UnitId) : State :=
  match u with
  | .maskLane l => retireUnit (fsetBit s MSK_LANES_RETIRED l true) u
  | .renderEngine e => retireUnit (fsetBit s RND_STATUS_RETIRED e true) u
  | .hodChannel c => retireUnit (fset (fsetBit s HOD_STATUS_RETIRED c true) (hodF HOD_STAT_STATE c) 4) u
  | .tile p => retireUnit (setTileRetired s p) u
  | .dramChannel c => dramLost s c
  | .flashChannel c => retireChan s c
  | .dataPath a => retirePath s a
  | .hda h => fsetBit (fset (retireUnit s u) (SPN_STATE_STATE.ix h 0x1000) 12) SPN_RETIRED_RETIRED h true
  | .ozper p => ozpRetire s p
  | .actuator a => fset (fsetBit (retireUnit s u) SRV_RETIRED_RETIRED a true) (srvF SRV_ACT_STATE a) 11
  | .hostPort _ | .core _ | .flashLun _ _ | .alwaysOn | .maskRom | .other _ => retireUnit s u

/-- Source 0xB80 and code 0x0B07 of one failed checker. -/
def checkerFailed (s : State) (f : CheckerFail) : State :=
  let data := f.unit.domain.getD 0 + f.row % 16 * 256 + f.inst % 256 * 65536
  dmkSend (raise (bootRetire s f.unit) 0xB80 data) 0x0B07 data

/-- Does a failed checker lead to BEACON (R86)? -/
def checkerFatal (f : CheckerFail) : Bool := f.unit == .alwaysOn || f.unit == .maskRom

/-- Units of the shared domains enter service: tiles, lanes, engines, cores. -/
def sharedUp (s : State) : State :=
  let s := assignTiles s ((List.range 34).filter fun p => !isRetired s (.tile p))
  let s := (List.range 16).foldl (fun s l => fsetBit s MSK_LANES_IN_SERVICE l (!isRetired s (.maskLane l))) s
  let s := (List.range 8).foldl (fun s e => fsetBit s RND_STATUS_IN_SERVICE e (!isRetired s (.renderEngine e))) s
  placeCores s

/-- A data path is up: its link initialises and its offsets are to be calibrated (R335, R344). -/
def pathUp (s : State) (a : Nat) : State :=
  let s := fset s (RDC_ACT_STATE_STATE.ix a 0x4000) 2
  linkInit (modRdc s a fun x => { x with calDue := ((1, 0, 0) :: x.calDue).dedup }) a

/-- A motor domain is up: its spindle is stopped, or coasts when it still turns. -/
def motorUp (s : State) (h : Nat) (turning : Bool) : State :=
  fset s (SPN_STATE_STATE.ix h 0x1000) (if turning then 9 else 2)

/-- The park state an actuator starts in (R403): PARKED where its record says so, else PARK_UNKNOWN. -/
def parkStart (s : State) (a : Nat) : State :=
  let r := tget 0 s.nv.park a
  let s := fset s (srvF SRV_ACT_PARK_REC a) r
  if r = 1 then fset s (srvF SRV_ACT_STATE a) 2
  else dmkSend (fset s (srvF SRV_ACT_STATE a) 3) 0x0615 a

/-- Media units enter service: flash channels wait for their initialisation, data paths initialise their links, spindles
stand or coast, Ozper ports are idle. `turning` lists the HDAs that still turn. -/
def mediaUp (s : State) (turning : List Nat) : State :=
  let s := (List.range 32).foldl (fun s c =>
    if fget s (FLC_CH_STATE_STATE.ix c 0x4000) = 1 then fset s (FLC_CH_STATE_STATE.ix c 0x4000) 2 else s) s
  let s := (List.range 32).foldl (fun s a => if fget s (RDC_ACT_STATE_STATE.ix a 0x4000) = 1 then pathUp s a else s) s
  let s := (List.range 16).foldl (fun s h => if spnState s h = 1 then motorUp s h (turning.contains h) else s) s
  let s := (dramLive s).foldl (fun s c => fset s (DRC_CH_STATE_SPARE_SCHED.ix c 0x10) 1) s
  if (ringDeclared s).isSome then
    [0, 1].foldl (fun s p => if ozState s p = 0 then fset s (ozStateF p) 1 else s) s
  else s

/-- SELFTEST_DONE: failed units are retired; the minimum service set is checked (R92). `turning` lists the HDAs whose
spindle still coasts. -/
def execSelftestDone (fails : List CheckerFail) (turning : List Nat) (s : State) : Host.Outcome State Fault Refusal :=
  if s.phase ≠ .selftest then .next s
  else if fails.any checkerFatal then .next (enterBeacon s 5)
  else
    let s := fails.foldl checkerFailed s
    if s.phase ≠ .selftest then .next s
    else
      let s := mediaUp (sharedUp s) turning
      if minSet s then .next (bypUpdate (setPhase s .discovery)) else .next (enterBeacon s 4)

/-! ## DISCOVERY (R88, R74, R92) -/

/-- What an item out of tolerance retires. -/
def itemUnit (item : Nat) : Option UnitId :=
  if 0x100 ≤ item && item < 0x140 then some (.hda ((item - 0x100) / 4))
  else if 0x200 ≤ item && item < 0x280 then some (.actuator ((item - 0x200) / 4))
  else if 0x300 ≤ item && item < 0x320 then some (.actuator (item - 0x300))
  else none

/-- VM as measured, in mV (item 0x009). -/
def setVm (s : State) (mv : Nat) : State :=
  let start := ((image s).spinup.getD {}).vmStart
  modPwr s fun p => { p with vm := mv, vmOkSince := if start ≤ mv then (p.vmOkSince <|> some s.tb.ns) else none }

/-- A value in volts as mV. -/
def milli (m : Measured) : Nat := (fpRat m.value * 1000).floor.toNat

/-- One discovery item. -/
def discoverItem (s : State) (m : Measured) : State :=
  let (s, bad) := enterMeasured s m
  let s := if m.item = 9 then setVm s (milli m) else if m.item = 10 then modPwr s fun p => { p with vhold := milli m } else s
  if !bad then s
  else if 3 ≤ m.item && m.item ≤ 8 then retireBank s m.item
  else match itemUnit m.item with
    | some u =>
      if !unitDeclared s u then s
      else if 0x300 ≤ m.item then retireOwned (retireOwned s (.dataPath (m.item - 0x300))) u
      else retireOwned s u
    | none => s

/-- Does an item out of tolerance lead to BEACON: VDD_CORE, VDD_SRAM, VDD_AON? -/
def itemFatal (m : Measured) : Bool := m.item ≤ 2 && !m.inTol

/-- A record the loader owes from LOADING is written now that sectors may be erased (R74). -/
def payRecord (s : State) : State :=
  let s := { s with nv := tidySectors s.nv }
  match s.loader.owed with
  | none => s
  | some r => { s with nv := appendErasing s.nv r, loader := { s.loader with owed := none } }

/-- The domain of a retired or absent unit is off (R94). -/
def offRetired (s : State) : State :=
  s.pwr.retired.foldl (fun s u => match u.domain with | some d => setPdOn s d false | none => s) s

/-- 25 words of the Masking public key drawn for this boot (R175): byte 0 is 0x04, and the last word holds one byte. -/
def drawPub (s : State) : State :=
  (List.range 25).foldl (fun s i =>
    let (v, s) := drawEntropy s
    let w := if i = 0 then v / 256 * 256 + 4 else if i = 24 then v % 256 else v
    rset s (TEN_DPUB_PUB.off + 4 * i) (BitVec.ofNat 32 w)) s

/-! ## Daymark's merges (R514) -/

/-- Entries in order of BOOT, then ESEQ. -/
def dmkSorted (es : List DmkEntry) : List DmkEntry :=
  es.foldl (fun l e =>
    let before := l.takeWhile fun x => x.boot < e.boot || (x.boot == e.boot && x.eseq ≤ e.eseq)
    before ++ e :: l.drop before.length) []

/-- Arrange the store: restored permanent entries, the present boot's, then restored circulating entries ahead of the
present ones, the oldest restored dropped where room is short. -/
def dmkMerge (s : State) : State :=
  let newPerm := permEntries s
  let newCirc := circLast s s.dmk.circUsed
  let perm := dmkSorted s.nv.dmkPerm ++ newPerm
  let spill := (perm.drop 512).map fun e => { e with permOvf := true }
  let (note, s) := if spill.isEmpty || s.dmk.ovfNoted then ([], s)
    else
      let (n, s) := newEntry s 0x0B43 ((spill.headD {}).code % 65536) false
      ([n], traceEntry (modDmk s fun d => { d with ovfNoted := true }) n)
  let circ := s.nv.dmkCirc ++ newCirc ++ note ++ spill
  let waits := s.dmk.unpersist + note.length + spill.length
  let circ := circ.drop (circ.length - 3584)
  let s := modDmk s fun d =>
    { d with store := [], newest := none, circUsed := 0, unpersist := 0
             restored := s.nv.dmkPerm.length + s.nv.dmkCirc.length }
  let s := (perm.take 512).zipIdx.foldl (fun s e => placePerm s e.2 e.1) (fset s DMK_STATUS_PERM_USED 0)
  let s := circ.foldl placeCirc s
  modDmk (fset s DMK_STATUS_RESTORED 1) fun d => { d with unpersist := min waits d.circUsed, permDirty := true }

/-- BRINGUP begins: entropy for Masking's key and Daymark's nonce, the merge of Daymark's flash copy. -/
def beginBringup (s : State) : State :=
  let s := dmkMerge (drawNonce (drawPub (setPhase s .bringup)))
  let s := (List.range 32).foldl (fun s a =>
    if fget s (srvF SRV_ACT_STATE a) = 1 then parkStart s a else s) s
  modBls s fun b => { b with restoring := s.nv.dump.isSome }

/-- May DISCOVERY end: has an Ozper partner trained, or its time run out (R88)? -/
def ringReady (s : State) : Bool := (ringDeclared s).isNone || s.loader.ozTmo || ozUp s 0 || ozUp s 1

/-- DISCOVERY_DONE: the measurements end. `items` are the measurements, `dramBad` the DRAM channels whose DIMMs do not
match MEMORY. -/
def execDiscoveryDone (items : List Measured) (dramBad : List Nat) (s : State) : Host.Outcome State Fault Refusal :=
  if s.phase ≠ .discovery || !ringReady s then .next s
  else if items.any itemFatal then .next (enterBeacon (items.foldl (fun s m => (enterMeasured s m).1) s) 4)
  else
    let s := items.foldl discoverItem s
    let s := dramBad.foldl (fun s c => if (dramLive s).contains c then dramLost (raise s (0x210 + c)) c else s) s
    let s := offRetired (payRecord s)
    if s.phase ≠ .discovery then .next s
    else if minSet s then .next (beginBringup s) else .next (enterBeacon s 4)

/-- OZPER_DISCOVERY_TIMEOUT: no partner has trained within 250 ms: the device goes on in single-device mode. -/
def execOzperDiscoveryTimeout (s : State) : Host.Outcome State Fault Refusal :=
  if s.phase = .discovery && (ringDeclared s).isSome && !(ozUp s 0 || ozUp s 1) then
    .next { s with loader := { s.loader with ozTmo := true } }
  else .next s

/-! ## Standstill measurements (R89) -/

/-- STANDSTILL_MEASUREMENT: R or L of a spindle winding or of a coil. Where the machine is not quiescent the item reads
NOT_QUIESCENT, the nominal value is used, and the measurement is repeated at the next standstill. -/
def execStandstillMeasurement (m : Measured) (quiescent : Bool) (s : State) : Host.Outcome State Fault Refusal :=
  match itemUnit m.item with
  | some u =>
    if 0x300 ≤ m.item || m.item % 4 ≥ 2 || !unitDeclared s u || isRetired s u then .next s
    else if !quiescent then .next (setParam s m.item (nominalItem s m.item) 3)
    else
      let (s, bad) := enterMeasured s m
      .next (if bad then retireOwned s u else s)
  | none => .next s

/-- VM_MEASURE_TICK (R88): VM every 1 ms through its divider. -/
def execVmMeasureTick (value : Word) (s : State) : Host.Outcome State Fault Refusal :=
  if s.phase = .off || s.phase = .loading || s.phase = .selftest then .next s
  else
    let m : Measured := { item := 9, value := value, inTol := true }
    .next (setVm (setParam s 9 value.toNat 1) (milli m))

end Sys2Proof.Machine
end

