-- ==== Sys2Proof/Machine/Bringup.lean ====
section
/-!
DEFINITION. Machine/Bringup.lean: BRINGUP's steps (R82, R90, R91): the tables and the journal, the write buffer from a dump,
resynchronisation, the queues, the spindles' start (R167, R252, R289, R291, R530, R531).
-/

namespace Sys2Proof.Machine

/-! ## Step 1: pools and tables (R252, R289, R82) -/

/-- Capacities and table formats the image declares. -/
def imageCaps (p : PoolsSec) : List Nat := [p.flashCap, p.diskCap, p.hybCap]

def imageFormats (s : State) : List (Nat × Nat) := (image s).tableFmt.zipIdx.map fun e => (e.2, e.1)

/-- The first boot that finds no pool record: a record with both geometries and the capacities, no namespace, no journal,
every segment still to erase. -/
def formatPools (s : State) : State :=
  let p := (image s).pools
  let nv := { s.nv with
    pools := { formatted := true, fmemb := p.fmemb, dmemb := p.dmemb, caps := imageCaps p }
    journal := [], formats := imageFormats s
    tenants := s.nv.tenants.map fun e => (e.1, { e.2 with ns := [] }) }
  modUdc { s with nv := nv } fun u => { u with formatNext := 0 }

/-- Later boots: geometries from the record, the tables as they were last persisted. Open segments count as sealed; those that
were erasing are erased. -/
def loadTables (s : State) : State :=
  let p := (image s).pools
  let r := s.nv.pools
  let s := if r.fmemb = p.fmemb && r.dmemb = p.dmemb then s else dmkSend s 0x0A08 0
  let s := modPools s fun r => { r with caps := imageCaps p }
  modUdc s fun u =>
    { u with gran := r.gran, ext := r.ext, formatNext := r.formatNext, reshape := r.reshape, fgeom := r.fgeom, dgeom := r.dgeom
             segs := r.segs.map fun e => (e.1, if e.2.state = 1 then { e.2 with state := 2 } else e.2)
             eraseReady := (r.segs.filter fun e => e.2.state == 3).map (·.1) }

/-- Show the geometry in force, and that of a reshape that goes on. -/
def showPools (s : State) : State :=
  let r := s.nv.pools
  let s := fset (fset s UDC_FMEMB_MASK r.fmemb) UDC_DMEMB_MEMB r.dmemb
  let s := (List.range 32).foldl (fun s c => fset s (FLC_CH_STATE_MEMBER.ix c 0x4000) (r.fmemb / 2 ^ c % 2)) s
  let serves := fun (h side : Nat) =>
    r.dmemb / 2 ^ h % 2 == 1 && !isRetired s (.hda h) && actServes s (2 * h + side)
  let s := (List.range 16).foldl (fun s h =>
    fsetBit (fsetBit s UDC_DINSV_ACT_A h (serves h 0)) UDC_DINSV_ACT_B h (serves h 1)) s
  let s := match s.udc.reshape with
    | some x =>
      let s := fset (fset s UDC_RESHAPE_STAT_POOL (b2n x.disk)) UDC_STATUS_RESHAPE 1
      fset (fset s UDC_RESHAPE_VIS_SEG x.visited) UDC_RESHAPE_CMT_SEG x.commit
    | none => s
  showGeom s

/-- Members retired before the tables were read have lost their strips (R274). -/
def loseRetired (s : State) : State :=
  let s := (maskBits 32 s.nv.pools.fmemb).foldl (fun s c =>
    if chanServes s c then
      ((List.range ((flashProfile s c).getD {}).luns).filter fun l => !lunOk s c l).foldl (fun s l => memberGone s false c (some l)) s
    else memberGone s false c none) s
  (maskBits 16 s.nv.pools.dmemb).foldl (fun s h =>
    if isRetired s (.hda h) then memberGone s true h none
    else [0, 1].foldl (fun s side => if actServes s (2 * h + side) then s else memberGone s true h (some side)) s) s

/-- Table formats the bundle cannot read: their pools are not brought up (R82). Table 0 is the mapping, 1 the journal, 2 the
checkpoint, 3 Daymark's. -/
def checkFormats (s : State) : State :=
  (imageFormats s).foldl (fun s e =>
    let stored := ((s.nv.formats.find? (·.1 == e.1)).map (·.2)).getD e.2
    if stored ≤ e.2 && s.loader.tableMin.getD e.1 1 ≤ stored then s
    else
      let s := dmkSend s 0x0B0B e.1
      if e.1 = 0 || e.1 = 2 then modUdc s fun u => { u with poolDown := [0, 1, 2] } else s) s

/-! ## Steps 1 and 2: the journal (R167, R90) -/

/-- The LOST marker of an entry that neither copy holds whole. -/
def lostMarker (seq : Nat) : JrnEntry :=
  { seq := seq, tenant := 0x3FE, queue := 0xF, state := 2, cid := 0xFFFF, opc := 4, saved := false }

/-- The journal as restored: the latest 1,048,576 SEQs in the ring, older ACCEPTED entries in the park area. `lost` names the
entries neither flash copy holds whole. -/
def restoreJournal (s : State) (lost : List Nat) : State :=
  let gone := lost.filter fun q => s.nv.journal.any (·.1 == q)
  let s := gone.foldl (fun s q => dmkSend s 0x0281 (q % 2 ^ 32)) s
  let all := gone.foldl (fun t q => tset {} t q (lostMarker q)) s.nv.journal
  let top := all.foldl (fun m e => max m e.1) 0
  let ring := (all.filter fun e => top < e.1 + 1048576).foldl (fun t e => tset {} t (jrnSlot e.1) e.2) []
  let park := all.filter fun e => e.1 + 1048576 ≤ top && e.2.state == 1
  let s := { s with nv := { s.nv with journal := all } }
  modJrn s fun j => { j with ring := ring, park := park, next := if all.isEmpty then 1 else top + 1048576 }

/-- Step 2: ACCEPTED entries are closed as FAILED; the first new entry is DEVICE_START (R164). -/
def closeJournal (s : State) : State :=
  let open_ := ((s.jrn.ring.map (·.2)) ++ s.jrn.park.map (·.2)).filter (·.state == 1)
  let s := open_.foldl (fun s e => jrnFinal s e.seq 0x0403) s
  jrnDrain s ({ tenant := 0x3FE, queue := 0xF, state := 2, cid := 0xFFFF, opc := 1 } :: s.jrn.waiting)

/-! ## Step 3: the write buffer (R530, R531) -/

/-- GEN values are compared modulo 4,096: one is older when it lies among the 2,048 values before the other. -/
def genOlder (a b : Nat) : Bool :=
  let d := (b + 4096 - a % 4096) % 4096
  1 ≤ d && d ≤ 2048

/-- The slot a WBUF entry names and the slots that the PREVs name in turn. -/
def prevChain (t : Tbl Slot) : Nat → Nat → List Nat
  | 0, _ => []
  | k + 1, i =>
    let x := tget {} t i
    if x.state = 0 then [] else i :: (if x.prev.kind = 2 then prevChain t k x.prev.slot else [])

/-- The restored slots of a granule that are kept, by its restored entry. -/
def keptSlots (e : GranEntry) (here : Tbl Slot) : List Nat :=
  if e.kind = 2 then
    let chain := prevChain here here.length e.slot
    (here.map (·.1)).filter fun i => chain.contains i
  else (here.filter fun x => genOlder e.gen x.2.gen).map (·.1)

/-- The newest of some slots. -/
def newestSlot (t : Tbl Slot) (is : List Nat) : Option Nat :=
  is.foldl (fun b i => match b with
    | none => some i
    | some j => if genOlder (tget {} t j).gen (tget {} t i).gen then some i else some j) none

/-- Restore one granule's slots: each kept slot is written to both copies and its granule is WBUF. -/
def restoreGranule (all : Tbl Slot) (s : State) (id : GranId) : State :=
  match poolOf s id with
  | none => s
  | some pool =>
    let here := all.filter fun e => e.2.id == id
    let e := entryOf s id.tenant id.ns pool id.gran
    let kept := keptSlots e here
    let s := kept.foldl (fun s i =>
      modSlot s i fun _ => { tget {} all i with state := 2, local2 := true, mids := [], acked := false, owner := 0 }) s
    let s := modBls s fun b => { b with restored := b.restored ++ kept.map fun i => (i, (tget {} all i).age) }
    match newestSlot here kept with
    | some i =>
      let x := tget {} all i
      if e.kind = 2 then s
      else setEntry s id.tenant id.ns pool id.gran { kind := 2, clen := x.clen, gen := x.gen, slot := i }
    | none => s

/-- Granules whose entry is WBUF, with their pool. -/
def wbufGranules (s : State) : List (GranId × Nat) :=
  s.nv.tenants.flatMap fun (t, r) => r.ns.flatMap fun (n, x) =>
    let id := fun (g : Nat) => ({ tenant := t, ns := n, incarn := x.incarn, gran := g } : GranId)
    let mine := fun (k : Nat) => k / 2 ^ 52 == t % 1024 * 16 + n % 16
    let grans := (s.udc.gran.filter fun e => mine e.1 && e.2.kind == 2).map fun e => e.1 % 2 ^ 52
    let ovrs := (s.udc.ext.filter fun e => mine e.1).flatMap fun e =>
      (e.2.ovr.filter fun o => o.2.2.kind == 2).map fun o => e.1 % 2 ^ 52 * 64 + o.1
    ((grans ++ ovrs).filter fun g => (entryOf s t n x.pool g).kind == 2).map fun g => (id g, x.pool)

/-- Granules whose entry is WBUF and whose slot was not restored are LOST (R531). -/
def loseUnrestored (s : State) : State :=
  let gone := (wbufGranules s).filter fun e =>
    let x := getSlot s (entryOf s e.1.tenant e.1.ns e.2 e.1.gran).slot
    x.state != 2 || x.id != e.1
  if gone.isEmpty then s
  else
    let s := gone.foldl (fun s e => markLost s e.1 e.2) s
    let n := gone.length
    let s := fset s BLS_LOST_COUNT (min (fget s BLS_LOST_COUNT + n) (2 ^ 32 - 1))
    dmkSend (raise s 0xB12 n) 0x0B86 n

/-- What BLS_LAST0, BLS_LAST1 and BLS_RESTORE show of the current dump. -/
def showLast (s : State) (d : Dump) : State :=
  let whole := match d.trailer with | some (m, _) => m == 0 | none => false
  let dur := match d.trailer with | some (_, us) => us / 1000 | none => 0
  let s := fset (fset s BLS_LAST0_CAUSE d.cause) BLS_LAST0_COMPLETE (b2n whole)
  let s := fset (fset s BLS_LAST0_META_LOST (b2n !d.metaOk)) BLS_LAST0_DURATION (min dur 65535)
  fset s BLS_LAST1_SLOTS d.count

/-- The boots that restored Daymark entries span. -/
def bootsSpanned (s : State) : Nat :=
  ((s.nv.dmkPerm ++ s.nv.dmkCirc).map (·.boot)).dedup.length

/-- Step 3 but for the destage of what it restored. -/
def restoreBuffer (s : State) : State :=
  let s := match s.nv.dump with
    | some d =>
      let all := d.slots
      let s := modUdc s fun u => { u with age := all.foldl (fun m e => max m (e.2.age + 1)) u.age }
      let s := ((all.map (·.2.id)).dedup).foldl (restoreGranule all) s
      let n := s.bls.restored.length
      dmkSend (fset (showLast s d) BLS_RESTORE_SLOTS n) 0x0B85 n
    | none => s
  let s := loseUnrestored s
  dmkSend s 0x0B42 (min s.dmk.restored 65535 + min (bootsSpanned s) 65535 * 65536)

/-- Has step 3 ended: no restored slot remains, or those left belong to a medium that takes no new segments? -/
def restoreEnded (s : State) : Bool :=
  s.bls.restored.all fun e =>
    let x := getSlot s e.1
    x.state < 2 || x.age != e.2 ||
      (let disk := match poolOf s x.id with | some p => headDisk (destageHead s x.id p) | none => false
       if disk then fget s UDC_STATUS_DISK_RO == 1 || fget s UDC_STATUS_DISK_FULL == 1
       else fget s UDC_STATUS_FLASH_RO == 1 || fget s UDC_STATUS_FLASH_FULL == 1)

/-! ## Steps 4 to 6 (R291, R181, R188) -/

/-- Step 4: sealed flash stripes that fail to decode or to compare are repaired: their segments' units move. `bad` names the
segments and `n` the stripes. -/
def resync (s : State) (bad : List Nat) (n : Nat) : State :=
  if n = 0 then s
  else
    let s := bad.foldl (fun s i => modSeg s false i fun r => { r with asked := true }) s
    dmkSend (raise s 0xA00 n) 0x0A07 n

/-- Tenants: those being destroyed are released; service state of every contract is set up. -/
def restoreTenants (s : State) : State :=
  let s := (s.nv.tenants.filter fun e => e.2.state == 3).foldl (fun s e =>
    modTenNv (releaseNs s e.1 fun _ => true) e.1 fun r => { incarn := r.incarn }) s
  s.nv.tenants.foldl (fun s e => match e.2.contract with
    | some c => installContract (modTenNv s e.1 fun r => { r with contract := none }) e.1 (some c)
    | none => s) s

/-- Step 6: the queues open: pairs enabled before now are ready. -/
def openQueues (s : State) : State :=
  let s := modJrn s fun j => { j with open_ := true }
  { s with qps := s.qps.map fun e => (e.1, if e.2.mode = 1 then { e.2 with mode := 2 } else e.2) }

/-- The boot record of a boot that reaches service: this slot is the last good one and no trial runs (R83). -/
def goodRecord (s : State) : State :=
  let slot := fget s GLB_BOOT_SLOT
  if s.loader.lastGood = slot && s.loader.trial = 0 then s
  else
    let r : BootRec := { seq := 0, bootCount := s.tb.boot, lastGood := slot, trial := 0, tries := 0 }
    let s := { s with nv := appendErasing s.nv r
                      loader := { s.loader with lastGood := slot, trial := 0, tries := 0 } }
    showRecord s slot 0 0

/-- BRINGUP's steps 4 to 6, and the state they lead to. -/
def finishBringup (s : State) (bad : List Nat) (n : Nat) : State :=
  let s := modBls (resync s bad n) fun b => { b with restoring := false }
  let s := recomputeFloors (restoreTenants s)
  if !minSet s then enterBeacon s 4
  else
    let s := openQueues (goodRecord s)
    let s := { s with loader := { s.loader with stage := 2 } }
    setPhase s (if anyReduction s then .degraded else .serving)

/-- Steps 1 to 3. -/
def startBringup (s : State) (jrnLost : List Nat) : State :=
  let s := if s.nv.pools.formatted then loadTables s else formatPools s
  let s := checkFormats (loseRetired (showPools s))
  let s := { s with rdc := (List.range 32).foldl (fun t a =>
    tmod {} t a fun x => { x with slips := tget [] s.nv.slips a }) s.rdc }
  let s := restoreBuffer (closeJournal (restoreJournal s jrnLost))
  noteFull (noteNarrow { s with loader := { s.loader with stage := 1 } })

/-- BRINGUP_DONE: the steps of BRINGUP that can be done are done: steps 1 to 3 at the first, steps 4 to 6 once step 3's
restored slots are destaged. `jrnLost` names journal entries neither flash copy holds whole, `bad` the flash segments
with stripes that resynchronisation repairs, `n` the stripes. -/
def execBringupDone (jrnLost bad : List Nat) (n : Nat) (s : State) : Host.Outcome State Fault Refusal :=
  if s.phase ≠ .bringup || s.rst.warm.isSome then .next s
  else
    let s := if s.loader.stage = 0 then startBringup s jrnLost else s
    if s.phase ≠ .bringup then .next s
    else if restoreEnded s then .next (finishBringup s bad n) else .next s

/-! ## Spindles (R91) -/

/-- SPINUP_START: VM has held VM_START for 10 ms and a SPIN_CONC place is free: the lowest HDA that stands or coasts
starts. -/
def execSpinupStart (s : State) : Host.Outcome State Fault Refusal :=
  let vmOk := match s.pwr.vmOkSince with | some t => decide (t + 10000000 ≤ s.tb.ns) | none => false
  if !s.phase.inService || s.rst.warm.isSome || !vmOk then .next s
  else
    let ready := fun (h : Nat) =>
      (spnState s h == 2 || spnState s h == 9) && !isRetired s (.hda h) && !(getSpn s h).retireOwed && spinSlotFree s h
    match (List.range 16).find? ready with
    | some h => .next (spinupRequest s h)
    | none => .next s

/-- SPINUP_TIMEOUT: an HDA in spin-up that is not at speed SPIN_TMO seconds after its start is retired. `drive` says
that its current loop works. -/
def execSpinupTimeout (h : Nat) (drive : Bool) (s : State) : Host.Outcome State Fault Refusal :=
  let tmo := ((image s).spinup.getD {}).spinTmo
  if h < 16 && (getSpn s h).startup && fget s (SPN_STATE_AT_SPEED.ix h 0x1000) == 0 &&
      (getSpn s h).firstNs + tmo * 1000000000 ≤ s.tb.ns then .next (retireHda s h drive)
  else .next s

end Sys2Proof.Machine
end

