-- ==== Sys2Proof/Machine/Keeper.lean ====
section
/-!
DEFINITION. Machine/Keeper.lean: meanings of Keeper's commands that act on Keeper alone (17_keeper.md): the end of a
cover, the closing of records, KPR_ACK, KPR_FORCE, the end of a FOGHORN_N pulse, KPR_IRQ_EN, and the conservation
tally up to a persisting mismatch. Faults whose cover acts on other units are in Covers.lean.
-/

namespace Sys2Proof.Machine

/-- Drop a closed record from the group table (R489). -/
def dropOpen (s : State) (rseq : Nat) : State :=
  modKpr s fun k =>
    { k with groups := k.groups.foldl (fun t (g, e) =>
        tset {} t g
          { corr := if e.corr = some rseq then none else e.corr
            cont := if e.cont = some rseq then none else e.cont
            cover := if e.cont = some rseq then false else e.cover }) [] }

/-- Close a record and its group entry (R489). -/
def closeOpen (s : State) (rseq : Nat) : State := dropOpen (closeRecord s rseq) rseq

/-- COVER_DONE (R489, R486): the owner's cover of record `rseq` has ended; where the unit stays in service, its fence
is lifted. -/
def execCoverDone (rseq : Nat) (kept : Bool) (s : State) : Host.Outcome State Fault Refusal :=
  let s := match findRec s rseq with
    | some i => fset s (recCover i) 1
    | none => s
  let s := modKpr s fun k =>
    { k with groups := k.groups.foldl (fun t (g, e) =>
        tset {} t g { e with cover := if e.cont = some rseq then true else e.cover }) [] }
  .next (if kept then liftFence s rseq else s)

/-- RECORD_CLOSE_EXPIRY (R489): CORR_WIN or CONT_WIN of an open record has passed. A contained record closes by time
only after COVER_DONE, and never where CONT_WIN is 0. -/
def execRecordCloseExpiry (rseq : Nat) (s : State) : Host.Outcome State Fault Refusal :=
  match findRec s rseq with
  | none => .next (dropOpen s rseq)
  | some i =>
    if fget s (recClass i) = 1 then .next (closeOpen s rseq)
    else if fget s (recClass i) = 2 && fget s (recCover i) == 1 && fget s KPR_CTL_CONT_WIN != 0 then
      .next (closeOpen s rseq)
    else .next s

/-- The RSEQs of every open record: corrected or contained, not yet closed. -/
def openRseqs (s : State) : List Nat :=
  (s.kpr.order.filter fun i =>
    (fget s (recClass i) == 1 || fget s (recClass i) == 2) && fget s (recAcked i) == 0).map fun i => fget s (recRseq i)

/-- KPR_ACK (R489): close the open record with this RSEQ, or every open record. -/
def execKprAck (value : Word) (s : State) : Host.Outcome State Fault Refusal :=
  if bitsGet value 16 1 = 1 then
    .next (modKpr ((openRseqs s).foldl closeRecord s) fun k => { k with groups := [] })
  else
    let rseq := bitsGet value 0 16
    if (openRseqs s).contains rseq then .next (closeOpen s rseq) else .next (dropOpen s rseq)

/-- KPR_FORCE (R494): with the key, set the force bit of a defined source; an unused source or another key sets
RSV_WRITE. -/
def execKprForce (value : Word) (s : State) : Host.Outcome State Fault Refusal :=
  let src := bitsGet value 0 12
  if bitsGet value 16 16 = 0xC0DE && (sourceClass src).isSome then
    .next (modKpr s fun k => { k with force := tset false k.force src true })
  else .next (fset s KPR_STATUS_RSV_WRITE 1)

/-- KEEPER_STATE_UNCORRECTABLE (R493): SAFE through the hard-wired path, with no record and no group entry; nothing
but the rewrite of the word in SAFE and BEACON; SAFE after the sequence in BALLAST. -/
def execKeeperStateUncorrectable (s : State) : Host.Outcome State Fault Refusal :=
  .next (fatalFault s 0x000 true)

/-- FOGHORN_PULSE_END (R495): 50 µs after the latest contained or fatal record the pulse ends; the line then follows
HOLD and the lock. -/
def execFoghornPulseEnd (s : State) : Host.Outcome State Fault Refusal :=
  .next (modKpr s fun k => { k with pulse := false })

/-- Is FOGHORN_N driven low (R495, R93)? -/
def foghornLow (s : State) : Bool :=
  s.kpr.pulse || s.kpr.locked || s.phase == .safe || s.phase == .beacon || fget s KPR_FOGHORN_HOLD == 1

/-- IRQ_ENABLE_WRITE (R496): a write of KPR_IRQ_EN; enabling a cause whose bit is already set sends vector 0. -/
def execIrqEnableWrite (value : Word) (s : State) : Host.Outcome State Fault Refusal :=
  let new := bitsGet value 0 6
  let fresh := (List.range 6).any fun k =>
    new / 2 ^ k % 2 == 1 && !fbit s KPR_IRQ_EN_EN k && fbit s KPR_IRQ_STAT_CAUSE k
  let s := fset s KPR_IRQ_EN_EN new
  .next (if fresh then msixSend s (ctlFid s) 0 else s)

/-- Does Keeper tally in the present state (R497)? -/
def tallies (s : State) : Bool :=
  match s.phase with
  | .selftest | .discovery | .bringup | .serving | .degraded | .ballast => true
  | .safe => s.kpr.safeStep < 8
  | .off | .loading | .beacon => false

/-- TALLY_TICK (R497): a tally starts; the one before it has ended and counts in ROUNDS. -/
def execTallyTick (s : State) : Host.Outcome State Fault Refusal :=
  if tallies s then
    let s := if s.kpr.tallyRunning then fbump s KPR_TALLY_ROUNDS else s
    .next (modKpr s fun k => { k with tallyRunning := true, mismatch := [] })
  else .next s

/-- TALLY_SNAPSHOT (R497, R27): the parts of instance `inst` of quantity `q` at a settle point are compared with the
pool; a mismatch waits for the second snapshot. -/
def execTallySnapshot (q inst : Nat) (parts : List Nat) (pool : Nat) (s : State) :
    Host.Outcome State Fault Refusal :=
  if s.kpr.tallyRunning && q < 8 && parts.sum != pool then
    .next (modKpr s fun k => { k with mismatch := k.mismatch ++ [(q, inst)] })
  else .next s

/-- TALLY_SKIP (R497): an instance of quantity `q` reached no settle point within 100 µs. -/
def execTallySkip (q : Nat) (s : State) : Host.Outcome State Fault Refusal :=
  if s.kpr.tallyRunning && q < 8 then .next (fsetBit s KPR_TALLY_SKIPPED q true) else .next s

end Sys2Proof.Machine
end

