-- ==== Sys2Proof/Machine/Covers.lean ====
section
/-!
DEFINITION. Machine/Covers.lean: a fault report with its owner's cover, forced faults, the tally's second snapshot, and the
steps of SAFE entry after the decision (17_keeper.md, R485, R494, R497 to R500; R46).
-/

namespace Sys2Proof.Machine

/-- The state an event leads to; a meaning's other outcomes leave the state as it is. -/
def orSame (s : State) (o : Host.Outcome State Fault Refusal) : State :=
  match o with
  | .next t => t
  | .fault _ => s
  | .refused _ => s

/-! ## Owners' events (R485, R494) -/

/-- A host port's uncorrectable error: affected commands complete with 0x0401; the port stays up (Table 04-6). -/
def portError (s : State) (p : Nat) (seqs : List Nat) : State :=
  (seqs.filter fun q => s.cmds.any fun e => e.1 == q && fidPort e.2.fid == p && e.2.done.isNone).foldl (fun s q =>
    match getCmd s q with
    | some c => setDone (freeBound s c) q 0x0401
    | none => s) (raise s (0x280 + p))

/-- Fault `k` of flash channel `c` (Table 10-12); `lun` is the element of a LUN's source. -/
def flashEvent (s : State) (c k lun : Nat) : State :=
  match k with
  | 0 | 1 | 7 | 12 | 13 => chanRetire s c k 0
  | 2 | 3 => lunRetire s c lun k (c % 32 + lun * 32)
  | 9 => match flashProfile s c with
    | some p => if lunOk s c lun then initFail s c p 7 (lun / max (p.vpc * p.lpv) 1) (some lun) else s
    | none => s
  | _ => raise s (0x400 + 16 * c + k)

/-- Fault `k` of actuator `a`: its data path below 8, its servo from 8 on (Tables 11-12, 13-8). -/
def actuatorEvent (s : State) (a k : Nat) : State :=
  match k with
  | 0 | 1 | 7 => retireDataPath s a k
  | 9 => orSame s (execPositionLost a s)
  | 11 => orSame s (execTrackLost a s)
  | 13 => retireAct s a
  | 14 => shockActuator s a
  | 15 => abortOfsCal s a 6
  | _ => raise s (0x600 + 16 * a + k)

/-- Fault `k` of HDA `h`'s motor side: its spindle below 8, then four for each VCM (Tables 14-8, 13-8). -/
def motorEvent (s : State) (h k : Nat) (el : Nat) : State :=
  match k with
  | 0 => lossOfSync s h
  | 1 => orSame s (execOpenLoopTimeout h s)
  | 2 => orSame s (execPhaseShuntLost h el s)
  | 3 => twoShunts s h
  | 4 => orSame s (execSpindleDriverFault h s)
  | 5 => orSame s (execVmShort h s)
  | 6 => raise s (spnSrc h + 6)
  | 7 => retireHda s h false
  | 8 => orSame s (execShuntLost (2 * h) el s)
  | 10 => orSame s (execVcmDriverFault (2 * h) s)
  | 11 => orSame s (execSatInhibit (2 * h) s)
  | 12 => orSame s (execShuntLost (2 * h + 1) el s)
  | 14 => orSame s (execVcmDriverFault (2 * h + 1) s)
  | 15 => orSame s (execSatInhibit (2 * h + 1) s)
  | _ => retireAct (raise s (spnSrc h + k)) (2 * h + (k - 8) / 4) true

/-- Fault `k` of DRAM channel `c` (R540, Table 09-12): a corrected word, a failed device, a scheduler that differs, an
uncorrectable word. -/
def dramEvent (s : State) (c k data : Nat) : State :=
  let s := raise s (0x200 + 4 * k + c) data
  match k with
  | 0 => fbump s (DRC_CH_ERR_CORR.ix c 0x10)
  | 1 => fset s (DRC_CH_STATE_DEV_FAILED.ix c 0x10) 1
  | 2 => fset s (DRC_CH_STATE_SPARE_SCHED.ix c 0x10) 0
  | _ => fbump s (DRC_CH_ERR_UNCORR.ix c 0x10)

/-- The flow whose context a staging fault fences is aborted (R180). -/
def stagingFault (s : State) (src key : Nat) : State :=
  let s := report s { src := src, cls := .contained, region := some (.flowCtx (key / 8) (key % 8)) }
  if (getCtx s key).busy then abortFlow s key else s

/-- What the owner of a source does on its event: the report, and the cover its chapter gives. `el` names the elements the
event concerns: a LUN, a leg, a context, commands. -/
def ownEvent (s : State) (src data : Nat) (el : List Nat) : State :=
  let e := el.headD 0
  if src = 0x080 then orSame s (execCoreBrownout true s)
  else if (0x083 ≤ src && src ≤ 0x088) || (0x093 ≤ src && src ≤ 0x098) then retireBank (raise s src data) (src % 16)
  else if 0x180 ≤ src && src < 0x1A2 then (if tileRetired s (src - 0x180) then s else tileFails s (src - 0x180))
  else if 0x1A2 ≤ src && src < 0x1C4 then
    match logicalOf s (src - 0x1A2) with
    | some t => if (getCtx s (ctxKey t (e % 8))).busy then flowFault s t (e % 8) 0 else s
    | none => s
  else if 0x1C8 ≤ src && src < 0x1CC then orSame s (execSnoopFilterCover (src - 0x1C8) s)
  else if 0x200 ≤ src && src < 0x210 then dramEvent s (src % 4) ((src - 0x200) / 4) data
  else if 0x210 ≤ src && src < 0x214 then orSame s (execDramChannelLost (src - 0x210) s)
  else if 0x280 ≤ src && src < 0x286 then portError s (src - 0x280) el
  else if src = 0x300 || src = 0x301 then stagingFault s src e
  else if 0x310 ≤ src && src < 0x320 then
    (if fbit s MSK_LANES_IN_SERVICE (src - 0x310) then
      minWatch (recomputeFloors (raise (retireLane s (src - 0x310)) src data)) else s)
  else if 0x380 ≤ src && src < 0x388 then (if isRetired s (.renderEngine (src - 0x380)) then s else retireEngine s (src - 0x380))
  else if 0x390 ≤ src && src < 0x3A0 then orSame s (execHodChannelRetire (src - 0x390) s)
  else if 0x400 ≤ src && src < 0x600 then flashEvent s ((src - 0x400) / 16) (src % 16) e
  else if 0x600 ≤ src && src < 0x800 then actuatorEvent s ((src - 0x600) / 16) (src % 16)
  else if 0x800 ≤ src && src < 0x808 then retireCore s (src - 0x800)
  else if src = 0x808 then shedHda s e
  else if src = 0x80A then orSame s (execTaskStoreUncorrectable e s)
  else if 0x820 ≤ src && src < 0x880 then afterMiss (dmkSend (raise s src data) 0x0803 (src - 0x820)) (src - 0x820) 2 false
  else if 0x880 ≤ src && src < 0x980 then motorEvent s ((src - 0x880) / 16) (src % 16) e
  else if src = 0xA80 then orSame s (execEastLinkLoss (linkDownOz s 0))
  else if src = 0xA81 then orSame s (execWestLinkLoss (linkDownOz s 1))
  else if src = 0xA82 then ozpRetire (raise s src data) e
  else if src = 0xB10 then trigger s 1
  else raise s src data

/-- A source's event with its report: where the owner has nothing left to act on, the report stands alone. In SAFE and in
BEACON it is recorded and no cover starts (R494, R500). -/
def sourceEvent (s : State) (src data : Nat) (el : List Nat) : State :=
  if s.phase = .safe || s.phase = .beacon then raise s src data
  else
    let t := ownEvent s src data el
    if t.kpr = s.kpr then raise s src data else t

/-- FAULT_REPORT (R485). An unused source never reports; source 0x000 takes the hard-wired path of R493. -/
def execFaultReport (src data : Nat) (el : List Nat) (s : State) : Host.Outcome State Fault Refusal :=
  if s.phase = .off || (sourceClass src).isNone then .next s
  else if src = 0 then execKeeperStateUncorrectable s
  else .next (sourceEvent s src data el)

/-- FORCE_TAKEN (R494): a source takes its force bit as a detection of its own event. -/
def execForceTaken (src : Nat) (el : List Nat) (s : State) : Host.Outcome State Fault Refusal :=
  if !(tget false s.kpr.force src) then .next s
  else
    let s := modKpr s fun k => { k with force := tset false k.force src false }
    if src = 0 then .next (fatalFault (countSource (dmkPush s 0x0002 0) 0) 0x000 true)
    else
      let t := sourceEvent (modKpr s fun k => { k with forcing := some src }) src 0 el
      .next (modKpr t fun k => { k with forcing := none })

/-- SUPPLY_MONITOR_CROSSING (R46): rail `r` crosses its under-voltage threshold, or its over-voltage one (`high`). -/
def execSupplyMonitorCrossing (r : Nat) (high : Bool) (s : State) : Host.Outcome State Fault Refusal :=
  if 9 ≤ r || s.phase = .off then .next s
  else if r = 0 && !high then execCoreBrownout true s
  else .next (sourceEvent s ((if high then 0x090 else 0x080) + r) 0 [])

/-! ## The tally's second snapshot (R497, Table 17-7) -/

/-- A LUN's token books are wrong: its descriptors in flight end LUN_TIMEOUT, it is reset, its token is free. -/
def tallyLun (s : State) (c lun : Nat) : State :=
  let rs := (getChan s c).running.filter fun r => r.desc.lun == lun
  let s := rs.foldl (fun s r => flcEnd (flcDrop s c r) c r.desc 0x40) s
  emit s (.nand c lun 3 0 0)

/-- The action on a persisting mismatch. How a Lath lane's credits are split is open at every read, so resetting them to the
pool depth (q 0) leaves nothing to write, and the counts of q 6 and q 7 are computed. Instances are numbered as the quantity's chapter numbers them: a lane, a copy, an
Ozper port, 8 x tenant + 2 x class + direction, 32 x channel + LUN, a medium. -/
def tallyAct (s : State) (q inst : Nat) : State :=
  match q with
  | 1 => s.udc.slots.foldl (fun s e =>
      if e.2.state = 1 && (getCmd s (e.2.owner - 1)).isNone then freeSlot s e.1 else s) s
  | 2 => linkDownOz s (inst % 2)
  | 3 => modDir s (inst / 8) (inst % 8 / 2) (inst % 2 == 1) fun d => { d with tokens := 0 }
  | 4 => tallyLun s (inst / 32) (inst % 32)
  | 5 => ((mediumOpen s (inst % 2 == 1)).filter fun o => (getSeg s (inst % 2 == 1) o.seg).state != 1).foldl abandonStripe s
  | _ => s

/-- TALLY_RECHECK: the second snapshot of a mismatched instance, at least 10 µs later. -/
def execTallyRecheck (q inst : Nat) (parts : List Nat) (pool : Nat) (s : State) : Host.Outcome State Fault Refusal :=
  if !s.kpr.mismatch.contains (q, inst) then .next s
  else
    let s := modKpr s fun k => { k with mismatch := k.mismatch.filter (· != (q, inst)) }
    if parts.sum = pool then .next s
    else
      let s := fsetBit s KPR_TALLY_PERSIST q true
      let s := keeperCause (dmkSend (raise s (0x010 + q) inst) 0x0004 (q + inst % 2 ^ 24 * 256)) 4
      .next (if s.phase = .safe then s else tallyAct s q inst)

/-! ## SAFE entry (R499, Table 17-8) -/

/-- Step 3: AER on every PF whose link is up, vector 0 on every PF. -/
def safeSignal (s : State) : State :=
  (List.range 6).foldl (fun s p =>
    let s := if fbit s HPT_STATUS_LINK_UP p then aerReport s (fnId p 0) 0 else s
    if fget s (HPT_FUNCS_PRESENT.ix p 0x1000) = 1 then msixSend s (fnId p 0) 0 else s) s

/-- A spindle at SAFE entry: the stop request of Table 14-5; one that regenerates decelerates with its heads unloaded. -/
def safeStopHda (s : State) (h : Nat) : State :=
  if !hdaPresent s h then s
  else if spnState s h = 11 && !hdaLoaded s h then modSpn (setSpnState s h 7) h fun p => { p with wsp := p.omega, upLatch := false }
  else stopRequest s h true

/-- Step 6: heads unload, spindles decelerate. -/
def safeStopDisks (s : State) : State := (List.range 16).foldl safeStopHda (unloadAll s)

/-- Step 7: the dump starts, unless a Ballast dump of this stop stands in for it or no flash channel serves. -/
def safeDump (s : State) : State :=
  if s.bls.mode ≠ 0 then s
  else if fget s BLS_STATUS_FLUSH_DONE = 1 then
    fset (modKpr s fun k => { k with safeStep := 8 }) KPR_SAFE_FLUSH_DONE 1
  else if (chansServing s).isEmpty then modKpr s fun k => { k with safeStep := 8 }
  else startDump s 3 4

/-- SAFE_ENTRY: steps 2 to 7 of Table 17-8 after the decision. -/
def execSafeEntry (s : State) : Host.Outcome State Fault Refusal :=
  if s.phase ≠ .safe || s.kpr.safeStep ≠ 1 then .next s
  else
    let s := modKpr (safeSignal (bypUpdate (fenceMedia s))) fun k => { k with safeStep := 2 }
    let s := fset (safeCqes (settleStop s)) KPR_SAFE_QUEUES_DONE 1
    .next (noteHeads (safeDump (safeStopDisks s)))

/-- SAFE_FLUSH_DONE: step 8: write protect is on, chip enables are high. -/
def execSafeFlushDone (s : State) : Host.Outcome State Fault Refusal :=
  if s.phase ≠ .safe || s.kpr.safeStep ≠ 8 then .next s
  else
    let s := (List.range 32).foldl (fun s c => fset s (FLC_CH_STATE_WP_HIGH.ix c 0x4000) 0) s
    .next (noteHeads (modKpr s fun k => { k with safeStep := 9 }))

end Sys2Proof.Machine
end

