-- ==== Sys2Proof/Machine/PowerDomains.lean ====
section
/-!
DEFINITION. Machine/PowerDomains.lean: power-domain requests and what a power-up brings back (03_bring_up_and_image.md, R94 to
R96, Table 03-18; R86, R276, R542).
-/

namespace Sys2Proof.Machine

/-! ## Requests (R94, R96) -/

/-- Is the unit of a domain retired? -/
def pdRetired (s : State) (d : Nat) : Bool :=
  match pdUnit d with
  | some (.dataPath a) => isRetired s (.dataPath a) || isRetired s (.actuator a) || isRetired s (.hda (a / 2))
  | some u => isRetired s u
  | none => false

/-- May the domain be switched off (Table 03-18)? -/
def pdOffOk (s : State) (d : Nat) : Bool :=
  if d < 6 then d != ctlPort s && !portHasQueue s d
  else if 191 ≤ d then (pdUnit d).isSome
  else (pdUnit d).isSome && (pdRetired s d || pdAbsent s d)

/-- PD_ON_REQUEST: judged when it arrives: refused, already on, latched during a power-down (R96), or started. In
phase A of a motor domain it abandons the power-down and the spindle goes to catch-spin. -/
def execPdOnRequest (d : Nat) (s : State) : Host.Outcome State Fault Refusal :=
  if 198 ≤ d then .next (fset s PWR_STATUS_RSV_WRITE 1)
  else if (pdUnit d).isNone then .next (setPdResult s d 3)
  else if pdPhase s d = 2 && 167 ≤ d && d < 183 then
    .next (setPdResult (enterCatch (setPdPhase s d 0) (d - 167)) d 1)
  else if pdPhase s d = 2 || pdPhase s d = 3 then .next (setPdResult (setPdPend s d true) d 2)
  else if pdOn s d || pdPhase s d = 1 then .next (setPdResult s d 4)
  else .next (setPdResult (setPdPhase s d 1) d 1)

/-- The work a domain must end before it may switch off: an Ozper port turns the device to single-device mode, a motor unloads
its heads and decelerates. -/
def pdDrain (s : State) (d : Nat) : State :=
  if d = 191 || d = 192 then orSame s (execEastLinkLoss (linkDownOz (linkDownOz s 0) 1))
  else if 167 ≤ d && d < 183 then
    stopRequest (unloadReq (unloadReq s (2 * (d - 167))) (2 * (d - 167) + 1)) (d - 167) false
  else s

/-- PD_OFF_REQUEST: judged when it arrives: refused, already off, or started; a power-down under way goes on, and a latched ON
request is cleared (R96). -/
def execPdOffRequest (d : Nat) (s : State) : Host.Outcome State Fault Refusal :=
  if 198 ≤ d then .next (fset s PWR_STATUS_RSV_WRITE 1)
  else if !pdOffOk s d then .next (setPdResult s d 3)
  else if pdPhase s d = 2 || pdPhase s d = 3 then .next (setPdResult (setPdPend s d false) d 4)
  else if !pdOn s d && pdPhase s d = 0 then .next (setPdResult s d 4)
  else .next (setPdResult (pdDrain (setPdPhase s d 2) d) d 1)

/-! ## Power-down (R95) -/

/-- Has the domain drained? -/
def pdDrained (s : State) (d : Nat) : Bool :=
  if d = 191 || d = 192 then fget s OZP_STATUS_MODE == 0 || fget s OZP_STATUS_MODE == 3
  else if 167 ≤ d && d < 183 then
    !hdaLoaded s (d - 167) && !(3 ≤ spnState s (d - 167) && spnState s (d - 167) ≤ 11)
  else if 135 ≤ d && d < 167 then !(4 ≤ srvState s (d - 135) && srvState s (d - 135) ≤ 10)
  else if 99 ≤ d && d < 131 then !(getChan s (d - 99)).running.any (·.token)
  else true

/-- A unit's state field once its domain is off: RETIRED, ABSENT or OFF (R542). -/
def pdOffState (s : State) (d : Nat) : State :=
  let off := fun (retired absent : Bool) (code : Nat) => if retired then code else if absent then 0 else 1
  let gone := pdAbsent s d
  if d < 6 then modPort (portIdle s d) d fun x => { x with training := false }
  else if 99 ≤ d && d < 131 then
    fset s (FLC_CH_STATE_STATE.ix (d - 99) 0x4000) (off (isRetired s (.flashChannel (d - 99))) gone 4)
  else if 135 ≤ d && d < 167 then
    fset s (RDC_ACT_STATE_STATE.ix (d - 135) 0x4000) (off (isRetired s (.dataPath (d - 135))) gone 6)
  else if 167 ≤ d && d < 183 then
    fset s (SPN_STATE_STATE.ix (d - 167) 0x1000) (off (isRetired s (.hda (d - 167))) gone 12)
  else if d = 191 || d = 192 then
    let s := sendLeave s
    bypUpdate (if ozState s (d - 191) = 6 then s else fset s (ozStateF (d - 191)) 0)
  else s

/-- PD_POWER_DOWN_DONE (R95, R96): the domain has drained, its outputs take their reset states and it is switched
off; a latched ON request then starts the power-up. -/
def execPdPowerDownDone (d : Nat) (s : State) : Host.Outcome State Fault Refusal :=
  if (pdPhase s d = 2 || pdPhase s d = 3) && pdDrained s d then
    let s := pdOffState (setPdOn (setPdPhase s d 0) d false) d
    if fbit s (PWR_PD_PEND_PEND.ix (d / 32) 4) (d % 32) then .next (setPdPhase (setPdPend s d false) d 1) else .next s
  else .next s

/-! ## Power-up (R95, R86, R276, R542) -/

/-- Register ranges of a domain's unit: first key and length. -/
def pdRanges (d : Nat) : List (Nat × Nat) :=
  if d < 6 then [(0x100000 + 0x1000 * d, 0x1000)]
  else if 99 ≤ d && d < 131 then [(0xA00000 + 0x4000 * (d - 99), 0x4000)]
  else if 135 ≤ d && d < 167 then [(0xC00000 + 0x4000 * (d - 135), 0x4000), (0xD00000 + 0x1000 * (d - 135), 0x1000)]
  else if 167 ≤ d && d < 183 then
    [(0xF00000 + 0x1000 * (d - 167), 0x1000), (0xF80000 + 0x800 * (d - 167), 0x800)]
  else if d = 196 then [(0x1603000, 0x30)]
  else []

/-- The unit's registers take their reset values. -/
def pdResetRegs (s : State) (d : Nat) : State :=
  let inside := fun (k : Nat) => (pdRanges d).any fun r => r.1 ≤ k && k < r.1 + r.2
  { s with regs := s.regs.filter fun e => !inside e.1 }

/-- The unit is no longer retired: it rejoins as an empty member. -/
def unretire (s : State) (u : UnitId) : State := modPwr s fun p => { p with retired := p.retired.filter (· != u) }

/-- UDC_DINSV follows the actuators in service. -/
def rejoinDisk (s : State) (h : Nat) : State :=
  let serves := fun (side : Nat) =>
    fbit s UDC_DMEMB_MEMB h && !isRetired s (.hda h) && actServes s (2 * h + side) && pdOn s (167 + h) && pdOn s (135 + 2 * h + side)
  showGeom (fsetBit (fsetBit s UDC_DINSV_ACT_A h (serves 0)) UDC_DINSV_ACT_B h (serves 1))

/-- The unit of a domain in service again, its fields from the image rewritten. -/
def pdRejoin (s : State) (d : Nat) (turning : Bool) : State :=
  let img := image s
  if d < 6 then
    let s := applyPort (unretire s (.hostPort d)) img.platform d
    if (getPort s d).perst || fget s (HPT_FUNCS_PRESENT.ix d 0x1000) = 0 then s
    else modPort s d fun x => { x with training := true }
  else if pdAbsent s d then s
  else if 99 ≤ d && d < 131 then
    let s := fsetBit (unretire s (.flashChannel (d - 99))) FLC_RETIRED_RETIRED (d - 99) false
    fset (modChan s (d - 99) fun _ => {}) (FLC_CH_STATE_STATE.ix (d - 99) 0x4000) 2
  else if 135 ≤ d && d < 167 then
    let a := d - 135
    let s := fsetBit (fsetBit (unretire (unretire s (.dataPath a)) (.actuator a)) RDC_RETIRED_RETIRED a false) SRV_RETIRED_RETIRED a false
    let s := modSrv (modRdc s a fun _ => { slips := tget [] s.nv.slips a }) a fun _ => {}
    let s := match img.motor.acts.getD a none with | some r => applyActuator s a r | none => s
    rejoinDisk (parkStart (pathUp s a) a) (a / 2)
  else if 167 ≤ d && d < 183 then
    let h := d - 167
    let s := fsetBit (unretire s (.hda h)) SPN_RETIRED_RETIRED h false
    let s := modSpn s h fun _ => {}
    let s := [2 * h, 2 * h + 1].foldl (fun s a =>
      let s := modSrv s a fun v => { v with shuntA := {}, shuntB := {} }
      match img.motor.acts.getD a none with | some r => applyActuator s a r | none => s) s
    let s := match img.motor.spins.getD h none with
      | some r => fset s (SPN_SYNC_OFFSET.ix h 0x1000) r.syncOfs
      | none => s
    rejoinDisk (motorUp s h turning) h
  else if d = 191 || d = 192 then
    let s := modOz (if ozState s (d - 191) = 6 then s else fset s (ozStateF (d - 191)) 1) (d - 191) fun x => { peerState := x.peerState }
    bypUpdate s
  else s

/-- PD_POWER_UP_DONE: switching, reset, self-tests and configuration have ended. `pass` is the outcome of the domain's rows of
Table 03-16; a unit that fails is retired as in SELFTEST (R86). `turning` says that a spindle still turns. -/
def execPdPowerUpDone (d : Nat) (pass turning : Bool) (s : State) : Host.Outcome State Fault Refusal :=
  if pdPhase s d ≠ 1 then .next s
  else
    let s := pdResetRegs (setPdOn (setPdPhase s d 0) d true) d
    if pass then .next (recomputeFloors (pdRejoin s d turning))
    else
      let s := match pdUnit d with | some u => bootRetire s u | none => s
      .next (pdOffState (setPdOn (dmkSend (raise s 0xB80 d) 0x0B07 d) d false) d)

end Sys2Proof.Machine
end

