-- ==== Sys2Proof/Machine/Views.lean ====
section
/-!
DEFINITION. Machine/Views.lean: what the read-only fields of the registers show where the register file does not hold them:
each is computed from the unit's own state when it is read (the register sections of the chapters).
-/

namespace Sys2Proof.Machine

/-- A word with the field's bits replaced. -/
def putF (w : Word) (f : Fld) (x : Nat) : Word := bitsSet w f.lo f.w x

/-- Bits, one for each index that satisfies a predicate. -/
def maskOf (n : Nat) (p : Nat → Bool) : Nat := ((List.range n).map fun i => if p i then 2 ^ i else 0).sum

/-- Part `i` of a 64-bit value that two registers show. -/
def halfOf (v i : Nat) : Word := BitVec.ofNat 32 (v / 2 ^ (32 * i))

/-! ## GLB_, LTH_, DRC_, TBS_ -/

def viewGlb (s : State) (k : Nat) (w : Word) : Word :=
  if k = 0x4 then putF w GLB_STATE_STATE s.phase.code
  else if k = 0xC then putF w GLB_STATUS_MIN_SET (b2n (minSet s))
  else if k = 0x30 then putF w GLB_BOOT_OTP_ENROLLED (b2n s.nv.opHash.isSome)
  else w

/-- Is the memory of channel `c` declared, and what the image says of it. -/
def dramChan (s : State) (c : Nat) : DramChan :=
  if s.loader.img.isSome then (image s).memory.chans.getD c {} else {}

/-- DRC_CHc_STATE.STATE (R540). -/
def dramState (s : State) (c : Nat) : Nat :=
  if (dramChan s c).dimms = 0 then 0
  else if isRetired s (.dramChannel c) then 3
  else if s.phase = .loading || s.phase = .selftest then 1 else 2

def viewDrc (s : State) (k : Nat) (w : Word) : Word :=
  if k = 0x900000 then
    let live := (List.range 4).filter fun c => dramState s c == 2
    let w := putF w DRC_STATUS_X4 (b2n (!live.isEmpty && live.all fun c => !(dramChan s c).x8))
    let w := putF w DRC_STATUS_LIVE (maskOf 4 fun c => dramState s c == 2)
    putF w DRC_STATUS_LOST (maskOf 4 fun c => dramState s c == 3)
  else if k % 16 = 0 then
    let c := (k - 0x900010) / 16
    let d := dramChan s c
    let w := putF (putF w DRC_CH_STATE_STATE (dramState s c)) DRC_CH_STATE_DIMMS d.dimms
    let w := if dramState s c = 3 then putF w DRC_CH_STATE_SPARE_SCHED 0 else w
    putF (putF w DRC_CH_STATE_SPEED d.speed) DRC_CH_STATE_GIB d.gib
  else w

def viewTbs (s : State) (k : Nat) (w : Word) : Word :=
  if k = 0x1602000 then putF w TBS_STATUS_LOCKED (b2n (s.phase != .off))
  else halfOf s.tb.ns ((k - 0x1602004) / 4)

/-! ## XQ_ and the journal (R169) -/

def viewJrn (s : State) (k : Nat) (w : Word) : Word :=
  let i := k / 4 % 2
  if k < 0x203008 then halfOf s.jrn.next i
  else if k < 0x203010 then halfOf (jrnOldest s) i
  else if k < 0x203018 then halfOf (jrnPersist s) i
  else if k = 0x20301C then putF w XQ_JRN_PARK_PARKED s.jrn.park.length
  else w

/-- The instance of function `fid`, at its offsets. -/
def viewXq (s : State) (fid off : Nat) (w : Word) : Word :=
  if off = 0x800 then putF w XQ_AQ_CFG_READY (b2n ((getQp s fid 0).mode == 2))
  else if off = 0x2804 then putF w XQ_RESUME_STAT_PEND (maskOf 9 fun q => (getQp s fid q).resume.isSome)
  else if off = 0x280C then
    putF (putF w XQ_VSTATUS_OPEN (b2n s.jrn.open_)) XQ_VSTATUS_FROZEN (maskOf 9 fun q => (getQp s fid q).frozen)
  else w

/-! ## TEN_ and MSK_ -/

def ratUp (x : Rat) : Nat := x.ceil.toNat

/-- A ceiling as TEN_CLn_CEIL shows it. -/
def ceilShown (c : Option ClassRec) (wr : Bool) : Nat :=
  match c with
  | some c => min 0xFFFF ((ceilOf c wr).getD 0xFFFF)
  | none => 0xFFFF

/-- Tokens as TEN_CLn_RTOK and TEN_CLn_WTOK show them: a class without a ceiling keeps a full bucket (R189). -/
def tokensShown (s : State) (t n : Nat) (c : Option ClassRec) (wr : Bool) : Nat :=
  match c with
  | some c => if (ceilOf c wr).isNone then bucketDepth c wr else (getDir s t n wr).tokens
  | none => 0

/-- Register `r` of tenant `t`'s block. -/
def viewTenant (s : State) (t r : Nat) (w : Word) : Word :=
  if r = 0 then
    let w := putF w TEN_CTX_STATE (tenState s t)
    let w := putF w TEN_CTX_CUT (b2n ((getTen s t).dirs.any (·.2.cut)))
    let w := putF w TEN_CTX_CREATE_PEND (b2n (getTen s t).createPend)
    let w := putF w TEN_CTX_HAS_VF (b2n (tenantPort s t).isSome)
    let w := putF w TEN_CTX_PORT ((tenantPort s t).getD 0)
    putF w TEN_CTX_NS_MAP (maskOf 16 fun n => (getTenNv s t).ns.any (·.1 == n))
  else if r = 8 then
    let g := (getTen s t).grants
    putF (putF w TEN_GRANTS_VALID (maskOf 16 fun i => g.any (·.1 == i))) TEN_GRANTS_FENCE
      (maskOf 16 fun i => g.any fun e => e.1 == i && e.2.fence)
  else
    let n := (r - 0x10) / 16
    let c := (contractOf s t).getD n none
    if r % 16 = 0 then
      putF (putF w TEN_CL_FLOOR_RD_EFF (min 0xFFFF (getDir s t n false).eff)) TEN_CL_FLOOR_WR_EFF
        (min 0xFFFF (getDir s t n true).eff)
    else if r % 16 = 4 then putF (putF w TEN_CL_CEIL_RD_CEIL (ceilShown c false)) TEN_CL_CEIL_WR_CEIL (ceilShown c true)
    else if r % 16 = 8 then putF w TEN_CL_RTOK_TOKENS (tokensShown s t n c false)
    else putF w TEN_CL_WTOK_TOKENS (tokensShown s t n c true)

def viewTenGlobal (s : State) (k : Nat) (w : Word) : Word :=
  if k = 0x420000 then
    let w := putF w TEN_STATUS_CUT (b2n (anyCut s))
    let w := putF w TEN_STATUS_TENANTS (s.nv.tenants.filter fun e => e.2.state != 0).length
    putF w TEN_STATUS_NAMESPACES (nsCount s)
  else if k = 0x420008 then putF w TEN_BUD_CAP_MBPS (ratUp (budgetCap s (fget s TEN_BUD_SEL_INDEX)))
  else if k = 0x42000C then putF w TEN_BUD_USED_MBPS (ratUp (budgetUsed s (fget s TEN_BUD_SEL_INDEX)))
  else w

def viewMsk (s : State) (k : Nat) (w : Word) : Word :=
  if k = 0x1200000 then putF w MSK_STATUS_KEYS (s.tenants.filter fun e => e.2.key.isSome).length else w

/-! ## UDC_ (R295) -/

def viewUdc (s : State) (k : Nat) (w : Word) : Word :=
  if k = 0x100003C then putF w UDC_FREE_F_FREE (freeCount s false)
  else if k = 0x1000040 then putF w UDC_FREE_D_FREE (freeCount s true)
  else if k = 0x1000044 || k = 0x1000048 then halfOf s.nv.pools.lost ((k - 0x1000044) / 4)
  else if k = 0x100004C then putF w UDC_WBUF_DIRTY (slotsUsed s)
  else if k = 0x1000050 then
    putF (putF w UDC_WBUF_LIM_LIMIT (dirtyLimit s).1) UDC_WBUF_LIM_BY (dirtyLimit s).2
  else if k = 0x1000054 then putF (putF w UDC_CKPT_LOG_FILL (logFill s)) UDC_CKPT_AGE (ckptAge s)
  else w

/-! ## FLC_ (R328) -/

/-- The registers of channel `c` that FLC_LUN_SEL selects. -/
def viewFlc (s : State) (c r : Nat) (w : Word) : Word :=
  let lun := fget s (FLC_LUN_SEL_LUN.ix c 0x4000)
  match flashProfile s c with
  | none => w
  | some p =>
    if r = 0x24 then
      let m := lunPeMax s c lun
      putF (putF w FLC_LUN_WEAR_PE_MAX m) FLC_LUN_WEAR_PCT (min 255 (m * 100 / max p.peLimit 1))
    else if r = 0x28 then
      let t := tget 0 (getChan s c).tmo lun
      let w := putF w FLC_LUN_SPARE_FREE (reserveFree s c lun p).length
      let w := putF w FLC_LUN_SPARE_BAD ((List.range p.blocks).filter fun r => (getRow s c lun r).bad).length
      putF w FLC_LUN_SPARE_TMO_ARMED (b2n (t != 0 && s.tb.ns + 1 - t ≤ 600000000000))
    else if 0x30 ≤ r && r < 0x40 then
      putF w FLC_WP_WP (maskOf 32 fun b =>
        rowProtected s c lun (64 * (32 * ((r - 0x30) / 4) + b)) p)
    else w

/-! ## RDC_, SRV_, VCM_, SPN_ -/

/-- A signed value in 16 bits. -/
def signed16 (x : Int) : Nat := (x % 65536).toNat

/-- RDC_COEF_VAL of actuator `a`: the value in force (R344, R351, R356). -/
def viewCoef (s : State) (a : Nat) (w : Word) : Word :=
  let head := fget s (rdcF RDC_COEF_SEL_HEAD a)
  let zone := fget s (rdcF RDC_COEF_SEL_ZONE a)
  let i := fget s (rdcF RDC_COEF_SEL_INDEX a)
  let e := calEntry s a head zone
  let v : Nat :=
    if i < 16 then signed16 (e.eq.getD i 0)
    else if i < 21 then signed16 (e.target.getD (i - 16) 0)
    else if i < 24 then e.pc.getD (i - 21) 0
    else signed16 (e.temp / 16)
  putF (putF w RDC_COEF_VAL_VALUE v) RDC_COEF_VAL_CALIBRATED (b2n (s.nv.cal.any fun c => c.1 == calKey a head zone))

/-- SRV_OFS_VAL of actuator `a` (R384). -/
def viewOfs (s : State) (a : Nat) (w : Word) : Word :=
  let h := fget s (srvF SRV_OFS_SEL_HEAD a)
  let z := fget s (srvF SRV_OFS_SEL_ZONE a)
  let o := ofsOf s a z h
  let w := putF w SRV_OFS_VAL_OFFSET (satSigned 16 (o.1 * 1024).floor)
  let w := putF w SRV_OFS_VAL_SIGMA (min 0x7FFF (isqrt (o.2 * 1048576).floor.toNat))
  putF w SRV_OFS_VAL_CALIBRATED (b2n ((tget {} s.nv.ofs (ofsKey a z h)).var != 0))

def viewRdc (s : State) (k : Nat) (w : Word) : Word :=
  if k = 0xC80000 then putF w RDC_STATUS_IN_SERVICE ((List.range 32).filter (rdcServes s)).length
  else if k < 0xC80000 && k % 0x4000 = 0x34 then viewCoef s ((k - 0xC00000) / 0x4000) w
  else w

def viewSrv (s : State) (k : Nat) (w : Word) : Word :=
  if k < 0xD80000 && k % 0x1000 = 0x34 then viewOfs s ((k - 0xD00000) / 0x1000) w else w

def viewVcm (s : State) (k : Nat) (w : Word) : Word :=
  if k = 0xFC0000 then
    putF w VCM_STATUS_BRIDGES ((List.range 32).filter fun a => fget s (vcmF VCM_STATE_BRIDGE a) == 1).length
  else w

def viewSpn (s : State) (k : Nat) (w : Word) : Word :=
  if k < 0xF40000 && k % 0x1000 = 0x1C then
    putF w SPN_CAL_AGE (match (getSpn s ((k - 0xF00000) / 0x1000)).calOk with
      | some t => min 0xFFFF ((s.tb.ns - t) / 60000000000)
      | none => 0xFFFF)
  else w

/-! ## LTN_ (R379) -/

def viewTaskStat (s : State) (t : Nat) (w : Word) : Word :=
  let k := getTask s t
  let w := putF w LTN_TASK_STAT_KIND (taskEnt s t).kind
  let w := putF w LTN_TASK_STAT_CORE (k.core.getD 0)
  let w := putF (putF w LTN_TASK_STAT_ENABLED (b2n k.enabled)) LTN_TASK_STAT_INHIBIT (b2n k.inhibit)
  let w := putF (putF w LTN_TASK_STAT_SAT (b2n k.sat)) LTN_TASK_STAT_MISS (b2n k.missBit)
  let w := putF (putF w LTN_TASK_STAT_CONSEC k.consec) LTN_TASK_STAT_NV (b2n k.flags.nv)
  let w := putF (putF w LTN_TASK_STAT_DZ (b2n k.flags.dz)) LTN_TASK_STAT_OF (b2n k.flags.of_)
  let w := putF (putF w LTN_TASK_STAT_UF (b2n k.flags.uf)) LTN_TASK_STAT_NX (b2n k.flags.nx)
  putF w LTN_TASK_STAT_NONFINITE (b2n k.nonfin)

def viewLtn (s : State) (k : Nat) (w : Word) : Word :=
  let t := fget s LTN_TASK_SEL_TASK
  let serving := s.ltn.logical.filterMap id
  if k = 0xE00000 then
    let w := putF (putF w LTN_STATUS_SPARE (b2n s.ltn.spare.isSome)) LTN_STATUS_SHED (b2n (!s.ltn.shed.isEmpty))
    putF w LTN_STATUS_LIVE serving.length
  else if k = 0xE00004 then
    let w := putF w LTN_CORES_SERVING (maskOf 8 serving.contains)
    let w := putF w LTN_CORES_RETIRED (maskOf 8 s.ltn.retired.contains)
    putF w LTN_CORES_SHED_HDA (maskOf 16 s.ltn.shed.contains)
  else if k = 0xE00014 then viewTaskStat s t w
  else if k = 0xE00018 then putF w LTN_TASK_CTL_FTZ (b2n (taskFtz s t))
  else if k = 0xE0001C then BitVec.ofNat 32 (getTask s t).sample
  else if k = 0xE00020 then
    putF (putF w LTN_TASK_CNT_MISSES (min 0xFFFF (getTask s t).misses)) LTN_TASK_CNT_SAT_INST (min 0xFFFF (getTask s t).satInst)
  else if k = 0xE00024 then putF w LTN_TASK_EXEC_EXEC_MAX (min 0xFFFF (getTask s t).execMax)
  else if k = 0xE00034 then coefWord s (fget s LTN_COEF_SEL_TASK) (fget s LTN_COEF_SEL_INDEX)
  else if k = 0xE00038 then
    let c := fget s LTN_COEF_SEL_TASK
    let w := putF w LTN_COEF_STAT_DEPTH s.ltn.queue.length
    let w := putF w LTN_COEF_STAT_PEND
      (b2n (s.ltn.queue.any fun e => e.1 == c && e.2.1 == fget s LTN_COEF_SEL_INDEX))
    putF w LTN_COEF_STAT_LAST_SAMPLE (getTask s c).lastSample
  else w

/-! ## HOD_, OZP_, KPR_, DMK_ -/

def viewHod (s : State) (k : Nat) (w : Word) : Word :=
  let c := (k - 0x1180000) / 0x80
  if 0x1180800 ≤ k then w
  else if k % 0x80 = 0x24 then
    putF w HOD_STAT_WAIT_HOST (b2n ((getHod s c).running && hodWaits s (getHod s c).act))
  else if 0x28 ≤ k % 0x80 then (getHod s c).snap.getD ((k % 0x80 - 0x28) / 4) 0
  else w

/-- Seconds left for the oldest held orphan set (R475). -/
def holdRemain (s : State) : Nat :=
  match s.ozp.orphans with
  | o :: _ => (o.hold * 1000000000 - (s.tb.ns - o.formed)) / 1000000000
  | [] => 0

def viewOzp (s : State) (k : Nat) (w : Word) : Word :=
  if k = 0x1300020 || k = 0x1300024 then halfOf Config.otpUid.toNat ((k - 0x1300020) / 4)
  else if k = 0x1300044 then putF w OZP_OUT_USED_SLOTS (unreleased s)
  else if k = 0x1300058 then putF w OZP_HOLD_REMAIN (holdRemain s)
  else w

/-- KPR_SRC_INFO of the source KPR_SRC_SEL names. -/
def viewSrcInfo (s : State) (w : Word) : Word :=
  let src := fget s KPR_SRC_SEL_SOURCE
  let w := putF w KPR_SRC_INFO_USED (b2n (sourceClass src).isSome)
  let w := putF w KPR_SRC_INFO_CLASS (match sourceClass src with | some c => c.code | none => 0)
  let w := putF w KPR_SRC_INFO_FORCE (b2n (tget false s.kpr.force src))
  putF w KPR_SRC_INFO_COUNT (tget 0 s.kpr.counts src)

def viewKpr (s : State) (k : Nat) (w : Word) : Word :=
  let g := getGroup s (fget s KPR_GROUP_SEL_GROUP)
  if k = 0x1400000 then
    let w := putF w KPR_STATUS_FENCED (b2n (!s.kpr.fences.isEmpty))
    let w := putF w KPR_STATUS_FOGHORN (b2n (foghornLow s))
    putF w KPR_STATUS_OPEN (s.kpr.groups.filter fun e => e.2.cont.isSome).length
  else if k = 0x1400008 then
    putF (putF w KPR_FOGHORN_PULSE (b2n s.kpr.pulse)) KPR_FOGHORN_LOCKED
      (b2n (s.kpr.locked || s.phase == .safe || s.phase == .beacon))
  else if k = 0x1400014 then
    let w := putF (putF w KPR_GROUP_SEL_CORR_OPEN (b2n g.corr.isSome)) KPR_GROUP_SEL_CONT_OPEN (b2n g.cont.isSome)
    putF w KPR_GROUP_SEL_COVER_DONE (b2n (g.cont.isSome && g.cover))
  else if k = 0x1400018 then
    putF (putF w KPR_GROUP_RSEQ_CORR (g.corr.getD 0)) KPR_GROUP_RSEQ_CONT (g.cont.getD 0)
  else if 0x1400020 ≤ k && k < 0x1400040 then
    BitVec.ofNat 32 (maskOf 32 fun b => (getGroup s (32 * ((k - 0x1400020) / 4) + b)).cont.isSome)
  else if k = 0x1400044 then viewSrcInfo s w
  else w

def viewDmk (s : State) (mgt : Bool) (k : Nat) (w : Word) : Word :=
  if 0x1500010 ≤ k && k < 0x1500030 then
    (if mgt then s.dmk.winMgt else s.dmk.winCtl).getD ((k - 0x1500010) / 4) 0
  else if k = 0x150003C then
    let b := (getBucket s (fget s DMK_CODE_SEL_CODE)).refill s.tb.ns
    let w := putF (putF w DMK_CODE_STAT_PENDING b.pending) DMK_CODE_STAT_TOKENS (b.nano / 1000000000)
    putF w DMK_CODE_STAT_PERM (b2n b.perm)
  else w

/-! ## One word -/

/-- The word a register shows, by its key in the register file; `mgt` says that the management port reads. -/
def viewWord (s : State) (mgt : Bool) (k : Nat) : Word :=
  let w := rget s k
  if xqVfBase ≤ k then viewXq s ((k - xqVfBase) / 0x10000) ((k - xqVfBase) % 0x10000) w
  else if k < 0x2000 then viewGlb s k w
  else if 0x200000 ≤ k && k < 0x203000 then viewXq s (ctlFid s) (k - 0x200000) w
  else if 0x203000 ≤ k && k < 0x203020 then viewJrn s k w
  else if 0x400000 ≤ k && k < 0x420000 then viewTenant s ((k - 0x400000) / 0x100) (k % 0x100) w
  else if 0x420000 ≤ k && k < 0x420100 then viewTenGlobal s k w
  else if 0x900000 ≤ k && k < 0x900048 then viewDrc s k w
  else if 0xA00000 ≤ k && k < 0xA80000 then viewFlc s ((k - 0xA00000) / 0x4000) (k % 0x4000) w
  else if 0xC00000 ≤ k && k < 0xD00000 then viewRdc s k w
  else if 0xD00000 ≤ k && k < 0xE00000 then viewSrv s k w
  else if 0xE00000 ≤ k && k < 0xE0003C then viewLtn s k w
  else if 0xF00000 ≤ k && k < 0xF80000 then viewSpn s k w
  else if 0xF80000 ≤ k && k < 0x1000000 then viewVcm s k w
  else if 0x1000000 ≤ k && k < 0x1000058 then viewUdc s k w
  else if 0x1180000 ≤ k && k < 0x1180808 then viewHod s k w
  else if 0x1200000 ≤ k && k < 0x1200010 then viewMsk s k w
  else if 0x1300000 ≤ k && k < 0x1300060 then viewOzp s k w
  else if 0x1400000 ≤ k && k < 0x1400500 then viewKpr s k w
  else if 0x1500000 ≤ k && k < 0x1500050 then viewDmk s mgt k w
  else if 0x1602000 ≤ k && k < 0x160200C then viewTbs s k w
  else w

end Sys2Proof.Machine
end

