-- ==== Sys2Proof/Machine/Access.lean ====
section
/-!
DEFINITION. Machine/Access.lean: register accesses (00_scope.md, R6 to R11; 04_host_ports.md, R109, R112; 20_address_map.md,
R536 to R545): who may reach which register, what a read returns and clears, what a write stores or starts.
-/

namespace Sys2Proof.Machine

/-! ## Which register, with what access -/

/-- A register as an accessor reaches it: its description, its key in the register file, its access. -/
structure RegAt where
  reg : RegDesc
  key : Nat
  who : Who
  deriving DecidableEq, Repr

/-- Offsets of the control PF's XQ instance that only further queues would use (R536). -/
def xqUnused (r : Nat) : Bool := (8 ≤ r && r < 0x48) || (0x2020 ≤ r && r < 0x2120)

/-- Is a HOD offset one of the shadow registers or HOD_CMD of a channel the control PF has not claimed (R461)? -/
def hodUnclaimed (s : State) (off : Nat) : Bool :=
  0x1180000 ≤ off && off < 0x1180800 && off % 0x80 ≤ 0x20 && !hodClaimed s ((off - 0x1180000) / 0x80)

/-- An access that a claim restricts: without it the register is read-only, or not reachable where it is write-only. -/
def restrict (w : Who) : Who :=
  match w with
  | .rw => .ro
  | .wo => .no
  | .ro => .ro
  | .no => .no

/-- BAR0 of a PF: the register at an offset, with the access column `col` (Table 20-1). -/
def locatePf (s : State) (col : RegDesc → Who) (off : Nat) : Option RegAt :=
  if 0x200000 ≤ off && off < 0x203000 then
    if xqUnused (off - 0x200000) then none
    else (xqRegs.find? (·.covers (off - 0x200000))).map fun r => { reg := r, key := off, who := col r }
  else (bar0Regs.find? (·.covers off)).map fun r =>
    { reg := r, key := off, who := if hodUnclaimed s off then restrict (col r) else col r }

/-- BAR0 of a VF (R538): its own XQ_ instance, and its tenant block read-only. -/
def locateVf (s : State) (fid off : Nat) : Option RegAt :=
  if 0x1000 ≤ off && off < 0x1100 then
    let k := 0x400000 + 0x100 * tenantOf s fid + (off - 0x1000)
    (bar0Regs.find? (·.covers k)).map fun r => { reg := r, key := k, who := .ro }
  else if off < 0x10000 then
    (xqRegs.find? (·.covers off)).map fun r => { reg := r, key := xqVfBase + fid * 0x10000 + off, who := r.ctl }
  else none

/-- Registers of which the management port has its own copy (R512). -/
def mgtCopied (off : Nat) : Bool := off == 0x150000C

def locate (s : State) (a : Accessor) (off : Nat) : Option RegAt :=
  match a with
  | .fn p n =>
    if n ≠ 0 then locateVf s (fnId p n) off
    else locatePf s (fun r => if fnId p 0 = ctlFid s then r.ctl else r.others) off
  | .mgt => (locatePf s RegDesc.mgt off).map fun r => if mgtCopied off then { r with key := off + mgtCopy } else r
  | .flow _ _ => locatePf s RegDesc.ctl off

def Who.reads (w : Who) : Bool := w == .ro || w == .rw
def Who.writes (w : Who) : Bool := w == .wo || w == .rw

/-- Offsets that BEACON withholds (R93): all but GLB_, KPR_ and DMK_. -/
def withheld (s : State) (off : Nat) : Bool :=
  s.phase == .beacon && !(off < 0x2000 || (0x1400000 ≤ off && off < 0x1400500) || (0x1500000 ≤ off && off < 0x1500050))

/-- RSV_WRITE of the block whose range holds a BAR0 offset (R536); HPT_STATUS's outside every range (R112). -/
def blockRsv (off : Nat) : Fld :=
  let within (lo hi : Nat) : Bool := lo ≤ off && off < hi
  if within 0 0x90 || within 0x100 0x124 || within 0x1000 0x2000 then GLB_STATUS_RSV_WRITE
  else if within 0x200000 0x203020 then { XQ_VSTATUS_RSV_WRITE with off := 0x200000 + XQ_VSTATUS_RSV_WRITE.off }
  else if within 0x400000 0x420164 then TEN_STATUS_RSV_WRITE
  else if within 0x600000 0x600088 then TRW_STATUS_RSV_WRITE
  else if within 0x800000 0x800028 then LTH_STATUS_RSV_WRITE
  else if within 0x900000 0x900048 then DRC_STATUS_RSV_WRITE
  else if within 0xA00000 0xA8000C then FLC_STATUS_RSV_WRITE
  else if within 0xC00000 0xC80008 then RDC_STATUS_RSV_WRITE
  else if within 0xD00000 0xD20000 || within 0xD80000 0xD80008 then SRV_STATUS_RSV_WRITE
  else if within 0xE00000 0xE0003C then LTN_STATUS_RSV_WRITE
  else if within 0xF00000 0xF10000 || within 0xF40000 0xF4000C then SPN_STATUS_RSV_WRITE
  else if within 0xF80000 0xF88000 || within 0xFC0000 0xFC0004 then VCM_STATUS_RSV_WRITE
  else if within 0x1000000 0x1000058 then UDC_STATUS_RSV_WRITE
  else if within 0x1100000 0x1100010 then RND_STATUS_RSV_WRITE
  else if within 0x1180000 0x1180808 then HOD_STATUS_RSV_WRITE
  else if within 0x1200000 0x1200010 then MSK_STATUS_RSV_WRITE
  else if within 0x1300000 0x1300060 then OZP_STATUS_RSV_WRITE
  else if within 0x1400000 0x1400500 then KPR_STATUS_RSV_WRITE
  else if within 0x1500000 0x1500050 then DMK_STATUS_RSV_WRITE
  else if within 0x1600000 0x1600028 then BLS_STATUS_RSV_WRITE
  else if within 0x1601000 0x1601018 || within 0x1601020 0x160109C then PWR_STATUS_RSV_WRITE
  else if within 0x1602000 0x160200C then TBS_STATUS_RSV_WRITE
  else if within 0x1603000 0x1603018 || within 0x1603020 0x160302C then MSR_STATUS_RSV_WRITE
  else HPT_STATUS_RSV_WRITE

/-- The RSV_WRITE bit that an accessor's discarded write at an offset sets: a VF's XQ_ instance and its tenant region have the
instance's own (R169, R193). -/
def rsvOf (s : State) (a : Accessor) (off : Nat) : Fld :=
  match a with
  | .fn p n =>
    if n = 0 then blockRsv off
    else if (0x1000 ≤ off && off < 0x2000) || (locateVf s (fnId p n) off).isSome then
      xqF s (fnId p n) XQ_VSTATUS_RSV_WRITE
    else HPT_STATUS_RSV_WRITE
  | .mgt => blockRsv off
  | .flow _ _ => blockRsv off

/-- The power domain of the unit instance a register belongs to (R542). -/
def regDomain (off : Nat) : Option Nat :=
  if 0x100000 ≤ off && off < 0x106000 then some ((off - 0x100000) / 0x1000)
  else if 0x900010 ≤ off && off < 0x900050 then some (95 + (off - 0x900010) / 16)
  else if 0xA00000 ≤ off && off < 0xA80000 then some (99 + (off - 0xA00000) / 0x4000)
  else if 0xC00000 ≤ off && off < 0xC80000 then some (135 + (off - 0xC00000) / 0x4000)
  else if 0xD00000 ≤ off && off < 0xD20000 then some (135 + (off - 0xD00000) / 0x1000)
  else if 0xF00000 ≤ off && off < 0xF10000 then some (167 + (off - 0xF00000) / 0x1000)
  else if 0xF80000 ≤ off && off < 0xF88000 then some (167 + (off - 0xF80000) / 0x800)
  else if 0x1180000 ≤ off && off < 0x1180800 then some (33 + (off - 0x1180000) / 0x80)
  else none

def unitOff (s : State) (off : Nat) : Bool :=
  match regDomain off with
  | some d => !pdOn s d
  | none => false

/-! ## Pairs (R10) -/

/-- The _LO registers of the pairs: base and array. -/
def pairs : List (Nat × List (Nat × Nat)) := [
  (0x200808, []), (0x200810, []), (0x203000, []), (0x203008, []), (0x203010, []), (0x600040, []), (0x1000044, []),
  (0x1180000, [(16, 0x80)]), (0x1180008, [(16, 0x80)]), (0x1180028, [(16, 0x80)]), (0x1180030, [(16, 0x80)]),
  (0x1300020, []), (0x1300028, []), (0x1300030, []), (0x1602004, [])]

def isLo (k : Nat) : Bool :=
  if xqVfBase ≤ k then (k - xqVfBase) % 0x10000 == 0x808 || (k - xqVfBase) % 0x10000 == 0x810
  else pairs.any fun p => inDims k p.1 p.2

def isHi (k : Nat) : Bool := 4 ≤ k && isLo (k - 4)

/-- What one accessor holds of the pair at `lo`. -/
def heldOf (s : State) (a : Accessor) (lo : Nat) : Held :=
  (s.held.find? fun h => h.who == a && h.lo == lo).getD { who := a, lo := lo }

def setHeld (s : State) (h : Held) : State :=
  let rest := s.held.filter fun x => !(x.who == h.who && x.lo == h.lo)
  { s with held := if h.capHi.isNone && h.wrLo.isNone then rest else h :: rest }

/-! ## Reads -/

/-- Does a read of bytes `b0` to `b1 - 1` of a word cover all of a field's bytes (R9)? -/
def coversField (f : FieldDesc) (b0 b1 : Nat) : Bool := b0 ≤ f.lo / 8 && (f.lo + f.w - 1) / 8 < b1

/-- Clear one rc field: the selected task's and the selected source's counts lie in their units. -/
def clearRc (s : State) (k : Nat) (f : FieldDesc) : State :=
  let t := fget s LTN_TASK_SEL_TASK
  if k = 0xE00020 then
    modTask s t fun x => if f.lo = 0 then { x with misses := 0 } else { x with satInst := 0 }
  else if k = 0xE00024 then modTask s t fun x => { x with execMax := 0 }
  else if k = 0x1400044 then
    let src := fget s KPR_SRC_SEL_SOURCE
    modKpr s fun x => { x with counts := tset 0 x.counts src 0 }
  else fset s ⟨k, f.lo, f.w⟩ 0

/-- The rc fields of a register that a read covers are cleared with it (R6, R9). -/
def clearRcs (s : State) (k b0 b1 : Nat) (fs : List FieldDesc) : State :=
  (fs.filter fun f => f.acc == .rc && coversField f b0 b1).foldl (fun s f => clearRc s k f) s

/-- GLB_GPIO_IN: an output pin reads what it drives (an open-drain pin that sinks reads 0); the level of any other pin is the
outside's, an open value. -/
def readGpio (s : State) : Word × State :=
  let (x, s) := drawFree s
  let out := fget s GLB_GPIO_OUT_OUT
  let bit : Nat → Nat := fun b =>
    let o := out / 2 ^ b % 2
    if gpioCode s b = 1 then o else if gpioCode s b = 2 && o = 1 then 0 else x / 2 ^ b % 2
  (BitVec.ofNat 32 ((List.range 24).map fun b => bit b * 2 ^ b).sum, s)

/-- LTH_CREDIT_VAL: the pool is Table 01-2's; how its credits are split between the sender, the link and the receiver is open
while the quadrants run, but for their sum (R27). -/
def readCredit (s : State) : Word × State :=
  let pool := [8, 8, 4, 16].getD (fget s LTH_CREDIT_SEL_VC) 8
  if (List.range 4).all fun q => !pdOn s (91 + q) then (BitVec.ofNat 32 (pool + pool * 2 ^ 24), s)
  else
    let (x, s) := drawFree s
    let (y, s) := drawFree s
    let fl := x % (pool + 1)
    let rx := y % (pool - fl + 1)
    (BitVec.ofNat 32 (pool - fl - rx + fl * 2 ^ 8 + rx * 2 ^ 16 + pool * 2 ^ 24), s)

/-- RDC_COEF_VAL: a zone default has no calibration temperature, so that value is open. -/
def readCoef (s : State) (a : Nat) : Word × State :=
  let w := viewCoef s a 0
  if fget s (rdcF RDC_COEF_SEL_INDEX a) = 24 && bitsGet w 16 1 = 0 then
    let (x, s) := drawFree s
    (BitVec.ofNat 32 (x % 65536), s)
  else (w, s)

/-- The six HOD_ACT_ words of channel `c` now. -/
def hodActWords (s : State) (c : Nat) : List Word :=
  let h := (getHod s c).act
  [halfOf h.src 0, halfOf h.src 1, halfOf h.dst 0, halfOf h.dst 1, BitVec.ofNat 32 h.rem, BitVec.ofNat 32 h.crc]

/-- HPT_ERR_CNT0 of a powered port: how many receive errors and replays its link has had is open; the other counters are kept. -/
def readLinkErr (s : State) (mgt : Bool) (k : Nat) : Word × State :=
  let w := viewWord s mgt k
  if !pdOn s ((k - 0x100000) / 0x1000) then (w, s)
  else
    let (x, s) := drawFree s
    (BitVec.ofNat 32 (x % 2 ^ 16 + bitsGet w 16 16 * 2 ^ 16), s)

/-- The live word of a register with what its read does besides: the snapshots of HOD_ACT_ and DMK_WIN, open values. -/
def liveWord (s : State) (a : Accessor) (k : Nat) : Word × State :=
  let mgt := a == .mgt
  if k = 0x110 then readGpio s
  else if 0x100000 ≤ k && k < 0x106000 && k % 0x1000 = 0x10 then readLinkErr s mgt k
  else if k = 0x800024 then readCredit s
  else if 0xC00000 ≤ k && k < 0xC80000 && k % 0x4000 = 0x34 then readCoef s ((k - 0xC00000) / 0x4000)
  else if 0x1180000 ≤ k && k < 0x1180800 && k % 0x80 = 0x28 then
    let c := (k - 0x1180000) / 0x80
    let s := modHod s c fun h => { h with snap := hodActWords s c }
    (viewWord s mgt k, s)
  else if k = 0x1500010 then
    let s := winSnap s a
    (viewWord s mgt k, s)
  else if k = 0x150002C then (viewWord s mgt k, winAdvance s a)
  else (viewWord s mgt k, s)

/-- Read bytes `b0` to `b1 - 1` of a register: the word it returns. -/
def readAt (s : State) (a : Accessor) (r : RegAt) (b0 b1 : Nat) : Word × State :=
  let (w, s) := liveWord s a r.key
  if isLo r.key then
    let h := heldOf s a r.key
    (w, setHeld s { h with capHi := some (viewWord s (a == .mgt) (r.key + 4)) })
  else if isHi r.key then
    let h := heldOf s a (r.key - 4)
    match h.capHi with
    | some x => (x, setHeld s { h with capHi := none })
    | none => (w, s)
  else (w, clearRcs s r.key b0 b1 r.reg.fields)

/-- A read by a function or a flow: registers it may not read, unused offsets and what BEACON withholds read 0. -/
def readReg (s : State) (a : Accessor) (off b0 b1 : Nat) : Word × State :=
  if withheld s off then (0, s)
  else match locate s a off with
    | some r => if r.who.reads then readAt s a r b0 b1 else (0, s)
    | none => (0, s)

/-! ## Writes -/

def inRsv (v : Nat) (rs : List (Nat × Nat)) : Bool := rs.any fun r => decide (r.1 ≤ v) && decide (v ≤ r.2)

/-- Reserved encodings that depend on the state: limits that cross (PWR_AVS_LIMIT, PWR_AVS_PACE), heads, zones, HDAs and tasks
the image does not have, a ring base while EN is 1 (R169, R379, R408, R438). -/
def stateRsv (s : State) (k : Nat) (v : Word) (f : FieldDesc) : Bool :=
  let x := bitsGet v f.lo f.w
  let left : Nat → Nat → Nat → Nat → Nat := fun lo w a b =>
    if a ≤ bitsGet v lo w && bitsGet v lo w ≤ b then bitsGet v lo w else bitsGet (rget s k) lo w
  if k = 0x160100C then decide (left 16 10 700 900 < left 0 10 700 900)
  else if k = 0x1601010 then decide (left 16 16 0x100 0xFFFF ≤ left 0 16 0x100 0xFFFF)
  else if 0xD00000 ≤ k && k < 0xD80000 && k % 0x1000 = 0x30 then
    let t := hdaTable s ((k - 0xD00000) / 0x2000)
    if f.lo = 0 then decide (t.heads ≤ x) else decide (t.zones.length ≤ x)
  else if k = 0xF40008 then
    if f.lo = 0 then x != 31 && !hdaPresent s x
    else (List.range 16).any fun h => x / 2 ^ h % 2 == 1 && !hdaPresent s h
  else if k = 0xE00010 then (taskEnt s x).kind == 0
  else if k = 0xE00030 then
    if f.lo = 0 then (taskEnt s x).kind == 0 else decide ((graphOf s (bitsGet v 0 7)).coefs.length ≤ x)
  else if k = 0x1000020 then fget s UDC_RESHAPE_CTL_POOL == 1 && decide (0x10000 ≤ x)
  else false

/-- Store one field as its access code says (R6 to R8); `rsv` is set where its value is reserved. -/
def storeField (rsv : Fld) (k : Nat) (v : Word) (s : State) (f : FieldDesc) : State :=
  let x := bitsGet v f.lo f.w
  match f.acc with
  | .rw | .rws =>
    if inRsv x f.rsv || stateRsv s k v f then fset s rsv 1 else fset s ⟨k, f.lo, f.w⟩ x
  | .w1c => fset s ⟨k, f.lo, f.w⟩ (fget s ⟨k, f.lo, f.w⟩ &&& (2 ^ f.w - 1 - x))
  | .ro | .wo | .rc => s

def storeFields (s : State) (rsv : Fld) (k : Nat) (v : Word) (fs : List FieldDesc) : State :=
  fs.foldl (storeField rsv k v) s

/-- After a write of PWR_AVS_CTL, VSET or LIMIT (R48): in FIXED the target, in TRACK the present command clamped to the limits,
is commanded when it differs from VCMD; not while BUS_FAIL or a brown-out holds (R49, R533). -/
def avsAfter (s : State) (ok : Bool) : State :=
  let v := fget s PWR_STATUS_VCMD
  let want := if fget s PWR_AVS_CTL_MODE = 0 then avsFixed s
    else max (fget s PWR_AVS_LIMIT_VMIN) (min v (fget s PWR_AVS_LIMIT_VMAX))
  let s := fset s PWR_STATUS_AT_VMAX (b2n (v == fget s PWR_AVS_LIMIT_VMAX))
  let s := fset s PWR_STATUS_AT_VMIN (b2n (v == fget s PWR_AVS_LIMIT_VMIN))
  if want = v || fget s PWR_STATUS_BUS_FAIL = 1 || fget s BLS_STATUS_BROWNOUT = 1 then s else avsCommand s want ok

/-- GLB_CTL: both bits with the key: SAFE first, then the reset. -/
def writeCtl (s : State) (mgt : Bool) (v : Word) : State :=
  if v.toNat % 4 = 0 then s
  else if bitsGet v 16 16 ≠ 0xC0DE then fset s GLB_STATUS_RSV_WRITE 1
  else
    let s := if bitsGet v 1 1 = 1 then orSame s (execEnterSafe s) else s
    if bitsGet v 0 1 = 1 then orSame s (execWarmReset mgt s) else s

/-- GLB_NOR_CMD: the operations of Table 03-15. -/
def writeNorCmd (s : State) (v : Word) : State :=
  match bitsGet v 0 4 with
  | 0 => s
  | 1 => orSame s (execNorRead s)
  | 2 => orSame s (execNorProgram s)
  | 3 => orSame s (execNorErase s)
  | 4 => orSame s (execMarkTrial (bitsGet v 4 2) s)
  | 5 => orSame s (execClearTrial s)
  | _ => fset s GLB_STATUS_RSV_WRITE 1

/-- PWR_PD_REQ: DOMAIN is stored, OP acts on it. -/
def writePdReq (s : State) (v : Word) : State :=
  let d := bitsGet v 0 8
  match bitsGet v 8 2 with
  | 1 => orSame s (execPdOnRequest d s)
  | 2 => orSame s (execPdOffRequest d s)
  | op =>
    let s := if 198 ≤ d then fset s PWR_STATUS_RSV_WRITE 1 else fset s PWR_PD_REQ_DOMAIN d
    if op = 3 then fset s PWR_STATUS_RSV_WRITE 1 else s

/-- PWR_STATUS: w1c RSV_WRITE, and BUS_FAIL, whose clearing resumes commanding. -/
def writePwrStatus (s : State) (v : Word) (ok : Bool) : State :=
  let s := if bitsGet v 0 1 = 1 then fset s PWR_STATUS_RSV_WRITE 0 else s
  if bitsGet v 1 1 = 1 then orSame s (execBusFailClear ok s) else s

/-- XQ_RESUME (R159): action 0b00 does nothing; a pair beyond 8 is reserved. -/
def writeResume (s : State) (fid : Nat) (v : Word) : State :=
  let q := bitsGet v 0 4
  match bitsGet v 4 2 with
  | 0 => if 9 ≤ q then xqRsv s fid else s
  | 1 => orSame s (execXqResumeNext fid q s)
  | 2 => orSame s (execXqResumeSkip fid q (bitsGet v 16 16) s)
  | _ => orSame s (execXqResumeReset fid q s)

/-- The XQ_ registers whose write does more than store its fields: doorbells, XQ_AQ_CFG, the ring bases while EN is 1,
XQ_RESUME. -/
def writeXq (s : State) (fid off : Nat) (v : Word) : Option State :=
  if off < 0x48 then
    some (if off % 8 = 0 then orSame s (execSqDoorbell fid (off / 8) (bitsGet v 0 16) s)
          else orSame s (execCqDoorbell fid (off / 8) (bitsGet v 0 16) s))
  else if off = 0x800 then some (orSame s (execAqCfgWrite fid v s))
  else if 0x808 ≤ off && off < 0x818 && fget s (xqF s fid XQ_AQ_CFG_EN) = 1 then some (xqRsv s fid)
  else if off = 0x2800 then some (writeResume s fid v)
  else none

/-- LTH_CTL: routes are judged again; endpoints that become unreachable are reported (R13). -/
def writeLth (s : State) (v : Word) : State :=
  let before := unreachableNodes (fget s LTH_CTL_REROUTE_EN == 1) (downLinks s)
  noteCut (lathStatus (fset s LTH_CTL_REROUTE_EN (bitsGet v 0 1))) before

/-- LTN_TASK_STAT and LTN_TASK_CTL act on the selected task (R379). -/
def writeTask (s : State) (k : Nat) (v : Word) : State :=
  let t := fget s LTN_TASK_SEL_TASK
  let clr : Nat → Bool → Bool := fun b old => old && bitsGet v b 1 == 0
  if (taskEnt s t).kind = 0 then fset s LTN_STATUS_RSV_WRITE 1
  else if k = 0xE00018 then modTask s t fun x => { x with ftz := some (bitsGet v 0 1 == 1) }
  else modTask s t fun x => { x with
    missBit := clr 9 x.missBit, nonfin := clr 17 x.nonfin,
    flags := { nv := clr 12 x.flags.nv, dz := clr 13 x.flags.dz, of_ := clr 14 x.flags.of_, uf := clr 15 x.flags.uf,
               nx := clr 16 x.flags.nx } }

/-- HOD_CMD (R452, R453, R455). -/
def writeHodCmd (s : State) (c : Nat) (v : Word) : State :=
  match bitsGet v 0 3 with
  | 0 => s
  | 1 => orSame s (execHodGo c none 0 0 s)
  | 2 => orSame s (execHodPause c true s)
  | 3 => orSame s (execHodResume c true s)
  | 4 => orSame s (execHodAbort c true s)
  | _ => fset s HOD_STATUS_RSV_WRITE 1

/-- A field of a shadow word: stored unless its value is one of the reserved ones. -/
def storePart (s : State) (k lo w : Nat) (v : Word) (hi : Nat) : State :=
  if hi < bitsGet v lo w then fset s HOD_STATUS_RSV_WRITE 1 else fset s ⟨k, lo, w⟩ (bitsGet v lo w)

/-- A shadow register of channel `c` (Table 15-5, R461): discarded while the shadow is LOADED; reserved bits stay 0. -/
def writeShadow (s : State) (k c i : Nat) (v : Word) : State :=
  if fget s (hodF HOD_STAT_LOADED c) = 1 then fset s HOD_STATUS_RSV_WRITE 1
  else match i with
    | 4 => fset s ⟨k, 0, 25⟩ (bitsGet v 0 25)
    | 5 =>
      let s := storePart (storePart (storePart s k 0 3 v 3) k 3 3 v 3) k 6 3 v 5
      fset (fset s ⟨k, 10, 10⟩ (bitsGet v 10 10)) ⟨k, 20, 10⟩ (bitsGet v 20 10)
    | 6 => fset (fset s ⟨k, 0, 6⟩ (bitsGet v 0 6)) ⟨k, 16, 16⟩ (bitsGet v 16 16)
    | _ => rset s k v

/-- KPR_HIST (R487, R502): the word is stored; CLASS 0b00 empties the slot, another CLASS makes it hold a record again, as
the oldest one where it was empty. -/
def writeHist (s : State) (k : Nat) (v : Word) : State :=
  let slot := (k - 0x1400100) / 32
  let s := rset s k v
  if k % 32 ≠ 0xC then s
  else if bitsGet v 12 2 = 0 then modKpr s fun x => { x with order := x.order.filter (· != slot) }
  else if s.kpr.order.contains slot then s
  else modKpr s fun x => { x with order := slot :: x.order }

/-- Writes of the actuators', spindles' and disks' registers that start something. -/
def writeMotion (s : State) (k : Nat) (v : Word) : Option State :=
  if 0xC00000 ≤ k && k < 0xC80000 then
    let a := (k - 0xC00000) / 0x4000
    if k % 0x4000 = 8 then some (orSame s (execPreampRead a v s))
    else if k % 0x4000 = 0x20 then some (orSame s (execCalRequest a v s))
    else none
  else if 0xD00000 ≤ k && k < 0xD80000 && k % 0x1000 = 0x38 then
    some (orSame s (execSrvCalRequest ((k - 0xD00000) / 0x1000) v s))
  else if 0xF00000 ≤ k && k < 0xF40000 && k % 0x1000 = 0x1C then
    some (orSame s (execSpnCalRequest ((k - 0xF00000) / 0x1000) v s))
  else none

/-- Writes of Undercoat's and Hod's registers that do more than store. -/
def writeData (s : State) (k : Nat) (v : Word) : Option State :=
  if k = 0x1000020 && fget s UDC_STATUS_RESHAPE = 1 then some (fset s UDC_STATUS_RSV_WRITE 1)
  else if k = 0x1000024 then some (orSame s (execReshapeGo v s))
  else if k = 0x1000054 then some (if bitsGet v 1 1 = 1 then orSame s (execCheckpointRequest s) else s)
  else if 0x1180000 ≤ k && k < 0x1180800 then
    let c := (k - 0x1180000) / 0x80
    some (if k % 0x80 = 0x20 then writeHodCmd s c v else writeShadow s k c (k % 0x80 / 4) v)
  else if k = 0x1180804 then some (orSame s (execHodClaim v s))
  else none

/-- Writes of the always-on blocks' registers that do more than store. -/
def writeGlobal (s : State) (mgt : Bool) (k : Nat) (v : Word) (ok : Bool) : Option State :=
  if k = 0x8 then some (writeCtl s mgt v)
  else if k = 0x84 then some (writeNorCmd s v)
  else if k = 0x100 || k = 0x104 || k = 0x108 then some (orSame s (execGpioFuncWrite ((k - 0x100) / 4) v s))
  else if 0x1000 ≤ k && k < 0x2000 && fget s GLB_NOR_STAT_BUSY = 1 then some (fset s GLB_STATUS_RSV_WRITE 1)
  else if k = 0x1601000 then some (writePwrStatus s v ok)
  else if k = 0x1601020 then some (writePdReq s v)
  else if k = 0x1603020 then some (orSame s (execParamSelect (bitsGet v 0 12) s))
  else if k = 0x140000C then some (orSame s (execKprAck v s))
  else if k = 0x1400048 then some (orSame s (execKprForce v s))
  else if k = 0x1400054 then some (orSame s (execIrqEnableWrite v s))
  else if 0x1400100 ≤ k && k < 0x1400500 then some (writeHist s k v)
  else if k = 0x800000 then some (writeLth s v)
  else if k = 0x600070 then some (orSame s (execCsWindowSelect v s))
  else if k = 0xE00014 || k = 0xE00018 then some (writeTask s k v)
  else if k = 0xE00034 then some (orSame s (execCoefWrite v s))
  else none

/-- What follows a plain store. -/
def afterStore (s : State) (k : Nat) (v : Word) (ok : Bool) : State :=
  if k = 0x1601004 || k = 0x1601008 || k = 0x160100C then avsAfter s ok
  else if k = 0x1603010 && bitsGet v 16 1 = 1 then orSame s (execMinRestart s)
  else s

/-- Function whose XQ_ instance a key belongs to, and the offset in it. -/
def xqAt (s : State) (k : Nat) : Option (Nat × Nat) :=
  if xqVfBase ≤ k then some ((k - xqVfBase) / 0x10000, (k - xqVfBase) % 0x10000)
  else if 0x200000 ≤ k && k < 0x203000 then some (ctlFid s, k - 0x200000)
  else none

/-- Apply a whole word to a register. -/
def applyWord (s : State) (mgt : Bool) (rsv : Fld) (r : RegAt) (v : Word) (ok : Bool) : State :=
  let special : Option State :=
    match xqAt s r.key with
    | some (fid, off) => writeXq s fid off v
    | none => (writeGlobal s mgt r.key v ok <|> writeData s r.key v) <|> writeMotion s r.key v
  match special with
  | some t => t
  | none => afterStore (storeFields s rsv r.key v r.reg.fields) r.key v ok

/-- The description of the low half of a pair. -/
def lowOf (r : RegAt) : RegAt :=
  let off := if xqVfBase ≤ r.key then (r.key - xqVfBase) % 0x10000 - 4
    else if 0x200000 ≤ r.key && r.key < 0x203000 then r.key - 0x200004 else r.key - 4
  let table := if xqVfBase ≤ r.key || (0x200000 ≤ r.key && r.key < 0x203000) then xqRegs else bar0Regs
  { r with key := r.key - 4, reg := (table.find? (·.covers off)).getD r.reg }

/-- May the low half of a pair be held: not where the write would be refused (R169, R461). -/
def loRefused (s : State) (k : Nat) : Bool :=
  match xqAt s k with
  | some (fid, _) => fget s (xqF s fid XQ_AQ_CFG_EN) == 1
  | none => fget s (hodF HOD_STAT_LOADED ((k - 0x1180000) / 0x80)) == 1

/-- A whole-word write of a register the writer may write, with the pairs of R10. -/
def writeAt (s : State) (a : Accessor) (rsv : Fld) (r : RegAt) (v : Word) (ok : Bool) : State :=
  let mgt := a == .mgt
  if isLo r.key then
    (if loRefused s r.key then fset s rsv 1 else setHeld s { heldOf s a r.key with wrLo := some v })
  else if isHi r.key then
    let h := heldOf s a (r.key - 4)
    let s := match h.wrLo with
      | some lo => applyWord (setHeld s { h with wrLo := none }) mgt rsv (lowOf r) lo ok
      | none => s
    applyWord s mgt rsv r v ok
  else applyWord s mgt rsv r v ok

/-- Run a write with its RSV_WRITE bit clear, and answer whether it set it; the bit stays set if it was. -/
def trackRsv (s : State) (rsv : Fld) (f : State → State) : State × Bool :=
  let old := fget s rsv
  let t := f (fset s rsv 0)
  let refused := fget t rsv == 1
  (if old = 1 then fset t rsv 1 else t, refused)

/-- A write discarded for lack of access counts in RO_WRITE of the port that carried it (R109). -/
def countRoWrite (s : State) (a : Accessor) : State :=
  match a with
  | .fn p _ => fbump s (HPT_ERR_CNT1_RO_WRITE.ix p 0x1000)
  | .mgt => s
  | .flow _ _ => s

/-- A write of `bytes` bytes at an offset; the second component is R544's status: 0 stored, 1 no access, 4 discarded in whole
or in part. -/
def writeReg (s : State) (a : Accessor) (off bytes : Nat) (v : Word) (ok : Bool) : State × Nat :=
  if withheld s off then (s, 4)
  else
    let word := off / 4 * 4
    let rsv := rsvOf s a off
    match locate s a word with
    | none => if a = .mgt then (s, 1) else (fset s rsv 1, 4)
    | some r =>
      if 0x400000 ≤ r.key && r.key < 0x420000 && rsv.off != TEN_STATUS_RSV_WRITE.off then (fset s rsv 1, 4)
      else if !r.who.writes then (countRoWrite s a, 1)
      else if bytes ≠ 4 || off % 4 ≠ 0 || unitOff s r.key then (fset s rsv 1, 4)
      else if r.key = rsv.off then (writeAt s a rsv r v ok, 0)
      else
        let (t, refused) := trackRsv s rsv fun s => writeAt s a rsv r v ok
        (t, if refused then 4 else 0)

end Sys2Proof.Machine
end

