-- ==== Sys2Proof/Machine/Router.lean ====
section
/-!
DEFINITION. Machine/Router.lean: the commands that reach registers: a function's or flow's register accesses (R6 to R11), a
host memory request to a BAR (R111 to R113, R538, R539), and the management port (R543, R544).
-/

namespace Sys2Proof.Machine

/-- May this accessor reach the register aggregator now? In OFF nothing answers (R61); in BEACON only the control PF and the
management port do (R93). -/
def reaches (s : State) (a : Accessor) : Bool :=
  s.phase != .off && match a with
    | .fn p n => fnExists s (fnId p n) && (s.phase != .beacon || fnId p n == ctlFid s)
    | .mgt => true
    | .flow t c => (getCtx s (ctxKey t c)).busy

/-! ## MSI-X tables (R113) -/

/-- Offsets of a function's MSI-X table and PBA in its BAR0 (Table 20-1, Table 20-2), and its vectors. -/
def msixTable (n : Nat) : Nat := if n = 0 then 0x7FF0000 else 0xF000
def msixPba (n : Nat) : Nat := if n = 0 then 0x7FF8000 else 0xF800
def msixCount (n : Nat) : Nat := if n = 0 then 64 else 8

def inMsix (n off : Nat) : Bool := msixTable n ≤ off && off < msixTable n + 16 * msixCount n
def inPba (n off : Nat) : Bool := msixPba n ≤ off && off < msixPba n + 8

/-- A word of a function's table. -/
def msixWord (f : FnState) (r : Nat) : Word :=
  let v := tget {} f.vectors (r / 16)
  match r % 16 / 4 with
  | 0 => halfOf v.addr 0
  | 1 => halfOf v.addr 1
  | 2 => BitVec.ofNat 32 v.data
  | _ => BitVec.ofNat 32 (b2n v.masked)

/-- A word of its PBA. -/
def pbaWord (f : FnState) (i : Nat) : Word :=
  BitVec.ofNat 32 (maskOf 32 fun b => (tget {} f.vectors (32 * i + b)).pending)

/-- Write a word of its table: an unmasked vector sends the message it holds. -/
def msixStore (s : State) (p n r : Nat) (v : Word) : State :=
  let put (f : MsixVec → MsixVec) : State :=
    modFn s (fnId p n) fun x => { x with vectors := tmod {} x.vectors (r / 16) f }
  match r % 16 / 4 with
  | 0 => put fun x => { x with addr := x.addr / 2 ^ 32 * 2 ^ 32 + v.toNat }
  | 1 => put fun x => { x with addr := x.addr % 2 ^ 32 + v.toNat * 2 ^ 32 }
  | 2 => put fun x => { x with data := v.toNat }
  | _ =>
    if bitsGet v 0 1 = 1 then put fun x => { x with masked := true }
    else orSame s (execMsixUnmask p n (r / 16) s)

/-! ## BAR0 by accessor -/

/-- Read bytes `b0` to `b1 - 1` of the word at a BAR0 offset. -/
def bar0Read (s : State) (a : Accessor) (off b0 b1 : Nat) : Word × State :=
  match a with
  | .fn p n =>
    if withheld s off && n = 0 then (0, s)
    else if inMsix n off then (msixWord (getFn s (fnId p n)) (off - msixTable n), s)
    else if inPba n off then (pbaWord (getFn s (fnId p n)) ((off - msixPba n) / 4), s)
    else readReg s a off b0 b1
  | .mgt => readReg s a off b0 b1
  | .flow _ _ => readReg s a off b0 b1

/-- Write `bytes` bytes at a BAR0 offset. A narrow write to a table and a write to a PBA change nothing. -/
def bar0Write (s : State) (a : Accessor) (off bytes : Nat) (v : Word) (ok : Bool) : State :=
  match a with
  | .fn p n =>
    if withheld s off && n = 0 then s
    else if inMsix n off then
      (if bytes = 4 && off % 4 = 0 then msixStore s p n (off - msixTable n) v else s)
    else if inPba n off then s
    else (writeReg s a off bytes v ok).1
  | .mgt => (writeReg s a off bytes v ok).1
  | .flow _ _ => (writeReg s a off bytes v ok).1

/-! ## Register commands (R6 to R11) -/

/-- REGISTER_WRITE (R6 to R9): a write of `bytes` bytes at a BAR0 offset. `ok` is the outcome of an AVSBus command that the
write may start (R49). -/
def execRegisterWrite (a : Accessor) (off bytes : Nat) (v : Word) (ok : Bool) (s : State) :
    Host.Outcome State Fault Refusal :=
  .next (if reaches s a then bar0Write s a off bytes v ok else s)

/-- A read with its answer. -/
def answerRead (s : State) (a : Accessor) (off bytes : Nat) : State :=
  let (w, s) := bar0Read s a (off / 4 * 4) (off % 4) (off % 4 + bytes)
  emit s (.readData (w.toNat / 2 ^ (8 * (off % 4)) % 2 ^ (8 * min bytes (4 - off % 4))))

/-- RC_FIELD_READ (R9): a read of `bytes` bytes; an rc field clears only when the read covers all of its bytes. -/
def execRcFieldRead (a : Accessor) (off bytes : Nat) (s : State) : Host.Outcome State Fault Refusal :=
  .next (if reaches s a then answerRead s a off bytes else s)

/-- PAIRED_LO_READ (R10): the word of a _LO register; its _HI half is captured for the accessor. -/
def execPairedLoRead (a : Accessor) (off : Nat) (s : State) : Host.Outcome State Fault Refusal :=
  .next (if reaches s a then answerRead s a (off / 4 * 4) 4 else s)

/-- PAIRED_HI_READ (R10): the captured half, which is used up, or the live half where none is pending. -/
def execPairedHiRead (a : Accessor) (off : Nat) (s : State) : Host.Outcome State Fault Refusal :=
  .next (if reaches s a then answerRead s a (off / 4 * 4) 4 else s)

/-- PAIRED_LO_WRITE (R10): the accessor's holding register is loaded. -/
def execPairedLoWrite (a : Accessor) (off : Nat) (v : Word) (s : State) : Host.Outcome State Fault Refusal :=
  .next (if reaches s a then bar0Write s a (off / 4 * 4) 4 v true else s)

/-- PAIRED_HI_WRITE (R10): both halves are applied at once; with no pending _LO write the stored low half stays. -/
def execPairedHiWrite (a : Accessor) (off : Nat) (v : Word) (s : State) : Host.Outcome State Fault Refusal :=
  .next (if reaches s a then bar0Write s a (off / 4 * 4) 4 v true else s)

/-! ## Host memory requests (R111, R112) -/

/-- The 32-bit accesses of a request, in ascending order: word offset, first byte, byte after the last (R112). -/
def pieces (off len : Nat) : List (Nat × Nat × Nat) :=
  (List.range ((off % 4 + len + 3) / 4)).map fun i =>
    let w := off / 4 * 4 + 4 * i
    (w, (if i = 0 then off % 4 else 0), min 4 (off + len - w))

/-- Bytes `b0` to `b1 - 1` of a word. -/
def wordBytes (w : Word) (b0 b1 : Nat) : List Byte :=
  (List.range (b1 - b0)).map fun i => BitVec.ofNat 8 (w.toNat / 2 ^ (8 * (b0 + i)))

def readPieces (a : Accessor) : List (Nat × Nat × Nat) → State → List Byte × State
  | [], s => ([], s)
  | (w, b0, b1) :: rest, s =>
    let (x, s) := bar0Read s a w b0 b1
    let (bs, s) := readPieces a rest s
    (wordBytes x b0 b1 ++ bs, s)

/-- Write a request's pieces; `data` is what remains of its bytes. -/
def writePieces (a : Accessor) (ok : Bool) : List (Nat × Nat × Nat) → List Byte → State → State
  | [], _, s => s
  | (w, b0, b1) :: rest, data, s =>
    let n := b1 - b0
    writePieces a ok rest (data.drop n) (bar0Write s a (w + b0) n (BitVec.ofNat 32 (leValue (data.take n))) ok)

/-- The 32 bytes of the journal window's entry at an offset (R168): pages 0 to 3 are the quarters of the ring, page 4 is the
park area. -/
def jrnWindow (s : State) (off : Nat) : List Byte :=
  let page := fget s XQ_JRN_PAGE_PAGE
  let e : JrnEntry :=
    if page < 4 then tget {} s.jrn.ring (page * 262144 + off / 32)
    else if off < 0x20000 then ((s.jrn.park.getD (off / 32) (0, {})).2) else {}
  if e.state = 0 then List.replicate 32 0 else e.bytes

/-- One byte of BAR2 of the control PF (R539, R168, R511); BEACON withholds the journal window (R93). -/
def bar2Byte (s : State) (off : Nat) : Byte :=
  if off < 0x800000 then
    (if s.phase = .beacon then 0 else (jrnWindow s off).getD (off % 32) 0)
  else if off < 0x820000 then
    let e := winEntry s ((off - 0x800000) / 32)
    if e.code = 0 then 0 else e.bytes.getD (off % 32) 0
  else 0

/-- Unsupported Request (Table 04-6). -/
def unsupported (s : State) (fid : Nat) : State := aerReport (emit s (.unsupported fid)) fid 5

/-- MEMORY_REQUEST (R112): a read of `len` bytes, or a write of `data`, at an offset of a function's BAR. Writes to the BAR2
windows are discarded. -/
def execMemoryRequest (p n bar off len : Nat) (data : Option (List Byte)) (ok : Bool) (s : State) :
    Host.Outcome State Fault Refusal :=
  let a := Accessor.fn p n
  let fid := fnId p n
  if !reaches s a then .next s
  else if bar = 2 && fid = ctlFid s && off + len ≤ 0x1000000 then
    match data with
    | some _ => .next s
    | none => .next (emit s (.readData (leValue ((List.range len).map fun i => bar2Byte s (off + i)))))
  else if bar ≠ 0 || 64 < len || (if n = 0 then 0x8000000 else 0x10000) < off + len then .next (unsupported s fid)
  else match data with
    | some bs => .next (writePieces a ok (pieces off len) bs s)
    | none =>
      let (bs, s) := readPieces a (pieces off len) s
      .next (emit s (.readData (leValue bs)))

/-! ## The management port (R543, R544) -/

/-- GLB_, KPR_ and TBS_ (R544). -/
def alwaysOnBlock (off : Nat) : Bool :=
  off < 0x2000 || (0x1400000 ≤ off && off < 0x1400500) || (0x1602000 ≤ off && off < 0x160200C)

/-- Is the machine between step 6 of a warm stop and the end of LOADING? -/
def afterWarmStop (s : State) : Bool := s.phase == .loading && 2 ≤ fget s GLB_RESET_CAUSE_CAUSE

/-- MGT_ALERT_N is low (R496). -/
def mgtAlertLow (s : State) : Bool := fget s KPR_MGT_EN_EN &&& fget s KPR_MGT_STAT_CAUSE != 0

/-- The status R544 gives an access before it is made: 0 goes on. Access is judged before width and alignment. -/
def mgtStatus (s : State) (off : Nat) (write : Bool) : Nat :=
  let may : Bool := match locate s .mgt (off / 4 * 4) with
    | some r => if write then r.who.writes else r.who.reads
    | none => false
  if 0x8000000 ≤ off then 3
  else if !may then 1
  else if off % 4 ≠ 0 then 3
  else if withheld s off || (afterWarmStop s && !alwaysOnBlock off) then 2
  else 0

def setMgtLast (s : State) (st : Nat) : State := { s with mgt := { s.mgt with last := st } }

/-- MGT_WRITE (R544): a WRITE transaction; `pec` says that its PEC is right (under I3C there is none to be wrong). In OFF the
port does not acknowledge. -/
def execMgtWrite (off : Nat) (v : Word) (pec ok : Bool) (s : State) : Host.Outcome State Fault Refusal :=
  if s.phase = .off || !pec then .next s
  else
    let st := mgtStatus s off true
    if st ≠ 0 then .next (setMgtLast s st)
    else
      let (t, r) := writeReg s .mgt off 4 v ok
      .next (setMgtLast t r)

/-- MGT_READ (R544): status and data; the data is 0 where the status is not OK. -/
def execMgtRead (off : Nat) (pec : Bool) (s : State) : Host.Outcome State Fault Refusal :=
  if s.phase = .off || !pec then .next s
  else
    let st := mgtStatus s off false
    if st ≠ 0 then .next (emit s (.mgtReply st 0))
    else
      let (w, s) := readReg s .mgt off 0 4
      .next (emit s (.mgtReply 0 w.toNat))

/-- MGT_LAST (R544): the status of the port's latest WRITE. -/
def execMgtLast (pec : Bool) (s : State) : Host.Outcome State Fault Refusal :=
  .next (if s.phase = .off || !pec then s else emit s (.mgtReply s.mgt.last 0))

/-- The port's static address: PLATFORM's, or 0x5A. -/
def mgtStatic (s : State) : Nat := (image s).platform.mgtAddress.getD 0x5A

/-- DYNAMIC_ADDRESS_ASSIGN (R544): by ENTDAA, or by SETDASA from the static address. -/
def execDynamicAddressAssign (addr : Nat) (setdasaFrom : Option Nat) (s : State) : Host.Outcome State Fault Refusal :=
  let named := match setdasaFrom with
    | some x => x == mgtStatic s
    | none => true
  .next (if s.phase ≠ .off && named then { s with mgt := { s.mgt with dynamic := some (addr % 128) } } else s)

end Sys2Proof.Machine
end

