-- ==== Sys2Proof/Machine/Services.lean ====
section
/-!
DEFINITION. Machine/Services.lean: the microwords that touch an address space (R217 to R221, R231) and the services of the
vendor entry table (R239 to R243).
-/

namespace Sys2Proof.Machine

/-! ## Address spaces (Table 08-6) -/

/-- Handle and byte of a BUF address. -/
def bufHandle (a : Nat) : Nat := nbits a 48 8
def bufByte (a : Nat) : Nat := nbits a 0 16

/-- Is an access of `n` bytes at `a` inside space `sp` for a context? A CSR access has 4 bytes; Keeper's registers are in no
microword's reach (R234). -/
def spaceHolds (s : State) (x : Ctx) (sp a n : Nat) : Bool :=
  match sp with
  | 0 => a + n ≤ dramBytes s
  | 1 => a + n ≤ sramBytes
  | 2 => n == 4 && a < 0x8000000 && !(0x1400000 ≤ a && a < 0x1500000)
  | 3 => a + n ≤ 1024
  | _ =>
    nbits a 56 8 == 0 && nbits a 16 32 == 0 && 1 ≤ bufHandle a && bufHandle a ≤ 4 &&
      bufByte a + n ≤ (tget {} x.bufs (bufHandle a)).len

/-- Orders 6 and 7 of Table 08-8: 7 MW_ALIGN, 8 MW_BUS, 0 for none. `err` is an error response of the space's owner. -/
def accessFault (s : State) (x : Ctx) (m : MWord) (err : Bool) : Nat :=
  let a := accessAddr x m
  let n := accessBytes m
  if a % n ≠ 0 then 7 else if err || !spaceHolds s x m.space a n then 8 else 0

/-- Bytes of SRAM, scratch or a buffer. -/
def spaceBytes (s : State) (x : Ctx) (sp a n : Nat) : List Byte :=
  match sp with
  | 1 => memRead s.trw.sram a n
  | 3 => memRead x.scratch a n
  | _ => memRead (tget {} x.bufs (bufHandle a)).data (bufByte a) n

/-- Does a store entry of a tile reach the bytes that context `k` reads in space `sp`? -/
def StoreEnt.inSpace (e : StoreEnt) (k sp : Nat) : Bool := e.space == sp && (sp < 3 || e.ctx == k)

/-- R220: bytes at `a` as a load of the tile sees them: under its buffered stores, the newest on top. -/
def withStores (l : List StoreEnt) (k sp a : Nat) (bs : List Byte) : List Byte :=
  l.foldl (fun bs e =>
    if e.inSpace k sp then
      bs.zipIdx.map fun (b, i) =>
        if e.addr ≤ a + i && a + i < e.addr + e.size then BitVec.ofNat 8 (e.data / 256 ^ (a + i - e.addr)) else b
    else bs) bs

/-- The loaded value, zero-extended. -/
def loadValue (s : State) (t k sp a : Nat) (bs : List Byte) : DWord :=
  BitVec.ofNat 64 (leValue (withStores (getTile s t).stores k sp a bs))

/-! ## LD (R218, R231) -/

/-- Merge a load miss into its line's miss register or take a free one; none where the context waits for one. -/
def missTake (l : List (Nat × List MissLoad)) (line : Nat) (x : MissLoad) : Option (List (Nat × List MissLoad)) :=
  match l.find? (·.1 == line) with
  | some e => if e.2.length < 5 then some (l.map fun f => if f.1 = line then (line, f.2 ++ [x]) else f) else none
  | none => if l.length < 8 then some (l ++ [(line, [x])]) else none

/-- LD. A CALLV beside it waits first until the store buffer is empty. `err` is an error response of the space's owner. -/
def execLd (t c : Nat) (err : Bool) (s : State) : Host.Outcome State Fault Refusal :=
  match issued s t c 0x20 with
  | none => .next s
  | some (x, m) =>
    let k := ctxKey t c
    let a := accessAddr x m
    let n := accessBytes m
    let f := accessFault s x m err
    let g := issueFault s x (setReg x m.rd 0) m
    let finish := fun (s : State) (v : DWord) => microDone s t c x (setReg x m.rd v) m
    if g ≠ 0 then .next (flowFault s t c g)
    else if f ≠ 0 then .next (flowFault s t c f)
    else if m.sq = 6 && !(getTile s t).stores.isEmpty then .next s
    else if m.space = 2 then
      let (w, s') := readReg s (.flow t c) a 0 4
      .next (finish s' (BitVec.setWidth 64 w))
    else if m.space ≠ 0 then .next (finish s (loadValue s t k m.space a (spaceBytes s x m.space a n)))
    else match cacheFind s t (a / 64) with
      | some w =>
        let l : CacheLine := tget {} (getTile s t).cache (16 * (a / 64 % cacheSets s) + w)
        let v := loadValue s t k 0 a (leBytes (l.data / 256 ^ (a % 64)) n)
        .next (finish (cacheTouch s t (a / 64) w) v)
      | none =>
        match missTake (getTile s t).misses (a / 64) ⟨k, m.rd, a, n⟩ with
        | none => .next s
        | some l => .next (setCtx (modTile s t fun y => { y with misses := l }) k { x with wait := .load, count := 0 })

/-- A waiting load is answered from DRAM; one whose CALLV still waits for the store buffer issues again. -/
def answerLoad (t : Nat) (err : Bool) (s : State) (l : MissLoad) : State :=
  let c := l.ctx % 8
  let x := getCtx s l.ctx
  match x.wait, x.word with
  | .load, some w =>
    let m := MWord.ofNat w
    let x := { x with wait := .none }
    if err then flowFault s t c 8
    else if m.sq = 6 && !(getTile s t).stores.isEmpty then setCtx s l.ctx x
    else microDone s t c x (setReg x l.rd (loadValue s t l.ctx 0 l.addr (memRead s.trw.dram l.addr l.size))) m
  | _, _ => s

/-- LOAD_MISS_FILL (R218): the line arrives, fills the cache and answers the loads merged into its register; `err` says that
the channel answers with an error instead (MW_BUS). -/
def execLoadMissFill (t line : Nat) (err : Bool) (s : State) : Host.Outcome State Fault Refusal :=
  match (getTile s t).misses.find? (·.1 == line) with
  | none => .next s
  | some e =>
    let s := modTile s t fun y => { y with misses := y.misses.filter (·.1 != line) }
    let s := if err then s else cacheFill s t line (leValue (memRead s.trw.dram (64 * line) 64))
    .next (e.2.foldl (answerLoad t err) s)

/-! ## ST (R218, R220, R231) -/

/-- Change one byte range of a cached line. -/
def lineWrite (data off : Nat) (bs : List Byte) : Nat :=
  leValue (leBytes data 64 |>.zipIdx.map fun (b, i) => if off ≤ i then bs.getD (i - off) b else b)

/-- A DRAM write is acknowledged: every other tile has dropped the line, the writer's own is updated (R218, R219). -/
def microDram (s : State) (t a : Nat) (bs : List Byte) : State :=
  let line := a / 64
  let s := modTrw s fun w => { w with dram := memWrite w.dram a bs }
  let s := (List.range 32).foldl (fun s u => if u = t then s else cacheDrop s u (· == line)) s
  modTile s t fun y =>
    { y with cache := y.cache.map fun e =>
        (e.1, if e.2.valid && e.2.line == line then { e.2 with data := lineWrite e.2.data (a % 64) bs } else e.2) }

/-- A store becomes visible. `ok` is the outcome of an AVSBus command that a register write may start (R49). -/
def storeVisible (s : State) (e : StoreEnt) (ok : Bool) : State :=
  let bs := leBytes e.data e.size
  match e.space with
  | 0 => microDram s (e.ctx / 8) e.addr bs
  | 1 => modTrw s fun w => { w with sram := memWrite w.sram e.addr bs }
  | 2 => (writeReg s (.flow (e.ctx / 8) (e.ctx % 8)) e.addr 4 (BitVec.ofNat 32 e.data) ok).1
  | 3 => modCtx s e.ctx fun x => { x with scratch := memWrite x.scratch e.addr bs }
  | _ => modCtx s e.ctx fun x =>
      { x with bufs := tmod {} x.bufs (bufHandle e.addr) fun b => { b with data := memWrite b.data (bufByte e.addr) bs } }

/-- ST: the store enters the tile's buffer, or waits while it is full. Beside a CALLV it waits until the buffer is empty and
drains at once (R238). `err` is an error response of the space's owner, `ok` as for STORE_ACK. -/
def execSt (t c : Nat) (err ok : Bool) (s : State) : Host.Outcome State Fault Refusal :=
  match issued s t c 0x21 with
  | none => .next s
  | some (x, m) =>
    let f := accessFault s x m err
    let n := accessBytes m
    let e : StoreEnt := ⟨ctxKey t c, m.space, accessAddr x m, n, (gReg x m.rb).toNat % 256 ^ n⟩
    if issueFault s x x m ≠ 0 then .next (microDone s t c x x m)
    else if f ≠ 0 then .next (flowFault s t c f)
    else if m.sq = 6 then
      if !(getTile s t).stores.isEmpty then .next s
      else
        let s := storeVisible s e ok
        let x := getCtx s (ctxKey t c)
        .next (if x.busy then microDone s t c x x m else s)
    else if 4 ≤ (getTile s t).stores.length then .next s
    else .next (microDone (modTile s t fun y => { y with stores := y.stores ++ [e] }) t c x x m)

/-- May an entry retire before the one ahead of it? Only stores to different DRAM channels or to different spaces may; a
store to Hod's registers comes after every earlier one (R221). -/
def mayPass (s : State) (e f : StoreEnt) : Bool :=
  !(e.space == 2 && 0x1180000 ≤ e.addr && e.addr < 0x1190000) &&
    (e.space != f.space || (e.space == 0 && dramChanOf s e.addr != dramChanOf s f.addr))

/-- STORE_ACK (R220): entry `i` of a tile's store buffer is acknowledged, leaves the buffer and is visible. -/
def execStoreAck (t i : Nat) (ok : Bool) (s : State) : Host.Outcome State Fault Refusal :=
  let l := (getTile s t).stores
  match l[i]? with
  | none => .next s
  | some e =>
    if t < 32 && (l.take i).all (mayPass s e) then
      .next (storeVisible (modTile s t fun y => { y with stores := y.stores.eraseIdx i }) e ok)
    else .next s

/-! ## Services (R239 to R243) -/

/-- The context that runs service `n`. -/
def serving (s : State) (t c n : Nat) : Option Ctx :=
  let x := getCtx s (ctxKey t c)
  if t < 32 && c < 8 && x.busy && x.wait == .service n then some x else none

/-- Argument G17 + i. -/
def arg (x : Ctx) (i : Nat) : Nat := (gReg x (17 + i)).toNat

/-- R239: return from a service: G16 is the status, G17 upwards the results, the other registers from G17 to G31 are open;
Z tells success; the flow goes on after its CALLV. -/
def serviceReturn (s : State) (t c : Nat) (status : Nat) (results : List Nat) : State :=
  let k := ctxKey t c
  let x := getCtx s k
  let open_ := fun (i : Nat) => BitVec.ofNat 64 (Config.freeValue (s.freeCtr + i))
  let regs := (List.range 15).foldl (fun m i =>
    tset 0 m (17 + i) (match results[i]? with | some v => BitVec.ofNat 64 v | none => open_ i)) x.regs
  let a := x.stack.headD 0
  let x := { x with regs := tset 0 regs 16 (BitVec.ofNat 64 status), z := status == 0, n := false, c := false, v := false,
                    t := false, stack := x.stack.drop 1, pc := a, wait := .none }
  setCtx { s with freeCtr := s.freeCtr + 15 } k { x with word := some (csFetch s a) }

/-- The flow's buffer of a handle, none where there is none. -/
def flowBuf (x : Ctx) (h : Nat) : Option FlowBuf :=
  let b := tget {} x.bufs h
  if 1 ≤ h && h ≤ 4 && b.len ≠ 0 then some b else none

def setBuf (s : State) (k h : Nat) (b : FlowBuf) : State := modCtx s k fun x => { x with bufs := tset {} x.bufs h b }

/-- Is the key of the flow's tenant loaded? -/
def keyThere (s : State) (x : Ctx) : Bool := tenState s x.tenant == 2 && !(getTen s x.tenant).unloading

/-- VERSION. -/
def execVersion (t c : Nat) (s : State) : Host.Outcome State Fault Refusal :=
  match serving s t c 0x00 with
  | none => .next s
  | some _ => .next (serviceReturn s t c 0 [s.trw.entryIf])

/-- BUF_ALLOC (R241): waits while the partition of the tenant's port lacks room. -/
def execBufAlloc (t c : Nat) (room : Bool) (s : State) : Host.Outcome State Fault Refusal :=
  match serving s t c 0x01 with
  | none => .next s
  | some x =>
    match [1, 2, 3, 4].find? (fun h => (flowBuf x h).isNone) with
    | none => .next (serviceReturn s t c 0x010A [])
    | some h =>
      if arg x 0 = 0 || 16 < arg x 0 then .next (serviceReturn s t c 0x010A [])
      else if !room then .next s
      else .next (serviceReturn (setBuf s (ctxKey t c) h { len := 4096 * arg x 0 }) t c 0 [h])

/-- BUF_FREE. -/
def execBufFree (t c : Nat) (s : State) : Host.Outcome State Fault Refusal :=
  match serving s t c 0x02 with
  | none => .next s
  | some x =>
    if (flowBuf x (arg x 0)).isNone then .next (serviceReturn s t c 0x010A [])
    else .next (serviceReturn (setBuf s (ctxKey t c) (arg x 0) {}) t c 0 [])

/-- Do `n` bytes from byte `off` of buffer `h` lie in it? -/
def inBuf (x : Ctx) (h off n : Nat) : Bool :=
  match flowBuf x h with
  | some b => off + n ≤ b.len
  | none => false

/-- The checks of NS_READ and NS_WRITE on their arguments. -/
def spanArgsOk (x : Ctx) : Bool :=
  1 ≤ arg x 4 && arg x 4 ≤ 16 && inBuf x (arg x 0) (4096 * arg x 1) (4096 * arg x 4)

/-- The status that key, namespace, pool and range give a namespace service. -/
def nsStatus (s : State) (x : Ctx) (nsid slba count : Nat) : Nat :=
  if !keyThere s x then 0x0302
  else match getNs s x.tenant nsid with
    | none => 0x0105
    | some ns => if !poolReady s ns.pool then 0x0104 else if ns.size < slba + count then 0x0103 else 0

/-- The record of the Skim or vendor command that the context runs, over a range of a namespace. -/
def serviceCmd (s : State) (x : Ctx) (opc nsid slba count : Nat) : Cmd :=
  let q : Sqe := { ((getCmd s (x.seq.getD 0)).map (·.sqe)).getD {} with
    opc := opc, nsid := nsid, slba := slba, nlb := count - 1 }
  let beaten := ((getCmd s (x.seq.getD 0)).map (·.beaten)).getD []
  { fid := x.fid, q := 0, index := 0, tenant := x.tenant, sqe := q, admin := false
    beaten := (beaten.filter fun r => r.1 / 2 ^ 48 == nsid).map fun r => (r.1 % 2 ^ 48, r.2 % 2 ^ 48) }

/-- Put blocks into a buffer from block `b` on. -/
def bufBlocks (d : FlowBuf) (b : Nat) (vs : List Nat) : FlowBuf := { d with data := memWrite d.data (4096 * b) (blockBytes vs) }

/-- NS_READ: the plaintext blocks go into the buffer. `bad` names the blocks whose unit did not decode. -/
def execNsRead (t c : Nat) (bad : List BadBlock) (s : State) : Host.Outcome State Fault Refusal :=
  match serving s t c 0x03 with
  | none => .next s
  | some x =>
    let st := nsStatus s x (arg x 2) (arg x 3) (arg x 4)
    if !spanArgsOk x then .next (serviceReturn s t c 0x010A [])
    else if st ≠ 0 then .next (serviceReturn s t c st [])
    else
      let ns := (getNs s x.tenant (arg x 2)).getD {}
      let cmd := serviceCmd s x 2 (arg x 2) (arg x 3) (arg x 4)
      let rs := readSpan s x.tenant (arg x 2) ns.pool (arg x 3) (arg x 4) bad
      let s := touchExtents (markSpan s cmd ns (arg x 3) rs) cmd ns.pool
      if spanStatus rs ≠ 0 then .next (serviceReturn s t c (spanStatus rs) [])
      else
        let b := (flowBuf x (arg x 0)).getD {}
        .next (serviceReturn (setBuf s (ctxKey t c) (arg x 0) (bufBlocks b (arg x 1) (spanData rs))) t c 0 [])

/-- The copies of a service's change are written: it returns. -/
def serviceCopied (s : State) (t c seq : Nat) : State :=
  match getCmd s seq with
  | none => s
  | some cmd =>
    if cmd.stage = 1 && cmd.mids.isEmpty then
      let s := modUdc (putCmd s seq { cmd with stage := 0 }) fun u => { u with undo := tset {} u.undo seq {} }
      serviceReturn s t c 0 []
    else s

/-- A service's change (R242): it takes effect as a whole, ordered by the command's SEQ, and the service returns once every
block holds two copies. It waits for room in the write buffer. -/
def serviceChange (s : State) (t c : Nat) (x : Ctx) (cmd : Cmd) (bad : List BadBlock)
    (land : NsRec → Nat → Option Landing) : State :=
  let seq := x.seq.getD 0
  let ns := (getNs s x.tenant cmd.sqe.nsid).getD {}
  match getCmd s seq with
  | none => s
  | some own =>
    if own.stage = 1 then serviceCopied s t c seq
    else if changeStatus s cmd ns bad ≠ 0 then serviceReturn s t c (changeStatus s cmd ns bad) []
    else if !changeRoom s cmd then s
    else match land ns seq with
      | none => s
      | some l =>
        let s' := touchExtents (noteBeaten (l.commit seq) seq cmd) cmd ns.pool
        let s' := if fget s OZP_STATUS_MODE = 1 then keepUndo s s' seq cmd ns.pool l else s'
        let s' := match getCmd s' seq with
          | some own => putCmd s' seq { own with stage := 1 }
          | none => s'
        serviceCopied s' t c seq

/-- Whether the context's change has landed and waits for its copies. -/
def landed (s : State) (x : Ctx) : Bool :=
  match getCmd s (x.seq.getD 0) with
  | some own => own.stage == 1
  | none => false

/-- The blocks of a buffer. -/
def bufValues (d : FlowBuf) (b n : Nat) : List Nat :=
  (List.range n).map fun i => leValue (memRead d.data (4096 * (b + i)) 4096)

/-- NS_WRITE: `clens` is what Render gave for each granule of a compressing namespace. -/
def execNsWrite (t c : Nat) (clens : List Nat) (bad : List BadBlock) (s : State) : Host.Outcome State Fault Refusal :=
  match serving s t c 0x04 with
  | none => .next s
  | some x =>
    let st := nsStatus s x (arg x 2) (arg x 3) (arg x 4)
    let cmd := serviceCmd s x 1 (arg x 2) (arg x 3) (arg x 4)
    let data := bufValues ((flowBuf x (arg x 0)).getD {}) (arg x 1) (arg x 4)
    if landed s x then .next (serviceCopied s t c (x.seq.getD 0))
    else if !spanArgsOk x then .next (serviceReturn s t c 0x010A [])
    else if st ≠ 0 then .next (serviceReturn s t c st [])
    else .next (serviceChange s t c x cmd bad fun ns seq => landWrite s seq cmd ns data clens bad [])

/-- NS_ZERO. -/
def execNsZero (t c : Nat) (clens : List Nat) (bad : List BadBlock) (s : State) : Host.Outcome State Fault Refusal :=
  match serving s t c 0x05 with
  | none => .next s
  | some x =>
    let st := nsStatus s x (arg x 2) (arg x 3) (arg x 4)
    let cmd := serviceCmd s x 8 (arg x 2) (arg x 3) (arg x 4)
    if landed s x then .next (serviceCopied s t c (x.seq.getD 0))
    else if arg x 4 = 0 then .next (serviceReturn s t c 0x010A [])
    else if st ≠ 0 then .next (serviceReturn s t c st [])
    else .next (serviceChange s t c x cmd bad fun ns seq => landZeroes s seq cmd ns clens bad [])

/-- NS_INFO. -/
def execNsInfo (t c : Nat) (s : State) : Host.Outcome State Fault Refusal :=
  match serving s t c 0x06 with
  | none => .next s
  | some x =>
    match getNs s x.tenant (arg x 2) with
    | none => .next (serviceReturn s t c 0x0105 [])
    | some ns =>
      .next (serviceReturn s t c 0 [ns.size, ns.pool % 4 + 4 * b2n ns.compress + 8 * b2n (poolReady s ns.pool)])

/-- The checks of a byte range of a buffer: 4 to 65,536 bytes, all multiples of 4, inside the buffer. -/
def bytesOk (x : Ctx) (h off n : Nat) : Bool := 4 ≤ n && n ≤ 65536 && n % 4 == 0 && off % 4 == 0 && inBuf x h off n

/-- HOST_READ and HOST_WRITE: the status of their arguments and key. -/
def hostStatus (s : State) (x : Ctx) : Nat :=
  if !bytesOk x (arg x 0) (arg x 1) (arg x 3) || arg x 2 % 4 ≠ 0 then 0x010A
  else if !keyThere s x then 0x0302 else 0

/-- HOST_READ: `data` is what the host returned, `ok` that its completions carried no error. It waits while the function may
not issue requests. -/
def execHostRead (t c : Nat) (data : List Byte) (ok : Bool) (s : State) : Host.Outcome State Fault Refusal :=
  match serving s t c 0x07 with
  | none => .next s
  | some x =>
    if hostStatus s x ≠ 0 then .next (serviceReturn s t c (hostStatus s x) [])
    else if !(getFn s x.fid).live || (ok && data.length ≠ arg x 3) then .next s
    else
      let s := hostGet s x.fid (arg x 2) (arg x 3)
      if !ok then .next (serviceReturn s t c 0x0107 [])
      else
        let b := (flowBuf x (arg x 0)).getD {}
        .next (serviceReturn (setBuf s (ctxKey t c) (arg x 0) { b with data := memWrite b.data (arg x 1) data }) t c 0 [])

/-- HOST_WRITE. -/
def execHostWrite (t c : Nat) (ok : Bool) (s : State) : Host.Outcome State Fault Refusal :=
  match serving s t c 0x08 with
  | none => .next s
  | some x =>
    if hostStatus s x ≠ 0 then .next (serviceReturn s t c (hostStatus s x) [])
    else if !(getFn s x.fid).live then .next s
    else
      let b := (flowBuf x (arg x 0)).getD {}
      .next (serviceReturn (hostPut s x.fid (arg x 2) (memRead b.data (arg x 1) (arg x 3))) t c (if ok then 0 else 0x0107) [])

/-- BUF_CRC. -/
def execBufCrc (t c : Nat) (s : State) : Host.Outcome State Fault Refusal :=
  match serving s t c 0x09 with
  | none => .next s
  | some x =>
    if !bytesOk x (arg x 0) (arg x 1) (arg x 2) then .next (serviceReturn s t c 0x010A [])
    else
      let b := (flowBuf x (arg x 0)).getD {}
      .next (serviceReturn s t c 0 [crc32cFrom (arg x 3 % 2 ^ 32) (memRead b.data (arg x 1) (arg x 2))])

/-- FLUSH (R242): the commands with a lower SEQ and the flow's own finished calls. -/
def execServiceFlush (t c : Nat) (s : State) : Host.Outcome State Fault Refusal :=
  match serving s t c 0x0A with
  | none => .next s
  | some x =>
    let all := arg x 3 % 2 == 1
    if !keyThere s x then .next (serviceReturn s t c 0x0302 [])
    else if (getNs s x.tenant (arg x 2)).isNone then .next (serviceReturn s t c 0x0105 [])
    else
      let s := sealConcerned s x.tenant (arg x 2) all
      .next (if flushPending s x.tenant (arg x 2) all (x.seq.getD 0 + 1) then s else serviceReturn s t c 0 [])

/-- PUSH_BUF (R122, R123, R242): `fenceOk` is the outcome of the fence read. -/
def execPushBuf (t c : Nat) (fenceOk : Bool) (s : State) : Host.Outcome State Fault Refusal :=
  match serving s t c 0x0B with
  | none => .next s
  | some x =>
    let g := tget ({} : Grant) (getTen s x.tenant).grants (arg x 3)
    if !bytesOk x (arg x 0) (arg x 1) (arg x 2) || arg x 4 % 4 ≠ 0 then .next (serviceReturn s t c 0x010A [])
    else if !keyThere s x then .next (serviceReturn s t c 0x0302 [])
    else if 15 < arg x 3 || g.len < arg x 4 + arg x 2 then
      .next (serviceReturn (dmkSend (raise s 0x3A0) 0x0389 0) t c 0x0303 [])
    else if !(getFn s x.fid).live || fget s (HPT_LINK_DL_UP.ix g.port 0x1000) == 0 then .next s
    else
      let b := (flowBuf x (arg x 0)).getD {}
      let s := pushBytes s g (arg x 4) (memRead b.data (arg x 1) (arg x 2))
      if g.fence && !fenceOk then .next (serviceReturn (dmkSend s 0x038A 0) t c 0x0107 [])
      else .next (serviceReturn s t c 0 [])

end Sys2Proof.Machine
end

