-- ==== Sys2Proof/Machine/Dispatch.lean ====
section
/-! DEFINITION. Machine/Dispatch.lean: one arm per command, each one call of its meaning. -/

namespace Sys2Proof.Machine

def exec (i : Instr) (s : State) : Host.Outcome State Fault Refusal :=
  match i with
  | .registerWrite a off bytes v ok => Sys2Proof.Machine.execRegisterWrite a off bytes v ok s
  | .rcFieldRead a off bytes => Sys2Proof.Machine.execRcFieldRead a off bytes s
  | .pairedLoRead a off => Sys2Proof.Machine.execPairedLoRead a off s
  | .pairedHiRead a off => Sys2Proof.Machine.execPairedHiRead a off s
  | .pairedLoWrite a off v => Sys2Proof.Machine.execPairedLoWrite a off v s
  | .pairedHiWrite a off v => Sys2Proof.Machine.execPairedHiWrite a off v s
  | .lathLinkDown link unacked => Sys2Proof.Machine.execLathLinkDown link unacked s
  | .rerouteComplete link => Sys2Proof.Machine.execRerouteComplete link s
  | .paceUpdate n pace => Sys2Proof.Machine.execPaceUpdate n pace s
  | .minRestart => Sys2Proof.Machine.execMinRestart s
  | .timestampGrant now => Sys2Proof.Machine.execTimestampGrant now s
  | .porAssert internal => Sys2Proof.Machine.execPorAssert internal s
  | .porRelease => Sys2Proof.Machine.execPorRelease s
  | .warmRstPin => Sys2Proof.Machine.execWarmRstPin s
  | .warmReset mgt => Sys2Proof.Machine.execWarmReset mgt s
  | .enterSafe => Sys2Proof.Machine.execEnterSafe s
  | .warmStopEnd => Sys2Proof.Machine.execWarmStopEnd s
  | .loaderStart testEn norPresent sfdpOk size => Sys2Proof.Machine.execLoaderStart testEn norPresent sfdpOk size s
  | .slotChecked f avsOk => Sys2Proof.Machine.execSlotChecked f avsOk s
  | .selftestDone fails turning => Sys2Proof.Machine.execSelftestDone fails turning s
  | .discoveryDone items dramBad => Sys2Proof.Machine.execDiscoveryDone items dramBad s
  | .ozperDiscoveryTimeout => Sys2Proof.Machine.execOzperDiscoveryTimeout s
  | .vmMeasureTick value => Sys2Proof.Machine.execVmMeasureTick value s
  | .standstillMeasurement m quiescent => Sys2Proof.Machine.execStandstillMeasurement m quiescent s
  | .bringupDone jrnLost bad n => Sys2Proof.Machine.execBringupDone jrnLost bad n s
  | .spinupStart => Sys2Proof.Machine.execSpinupStart s
  | .spinupTimeout h drive => Sys2Proof.Machine.execSpinupTimeout h drive s
  | .norRead => Sys2Proof.Machine.execNorRead s
  | .norProgram => Sys2Proof.Machine.execNorProgram s
  | .norErase => Sys2Proof.Machine.execNorErase s
  | .markTrial slot => Sys2Proof.Machine.execMarkTrial slot s
  | .clearTrial => Sys2Proof.Machine.execClearTrial s
  | .norCommandDone norError verifyBad => Sys2Proof.Machine.execNorCommandDone norError verifyBad s
  | .pdOnRequest d => Sys2Proof.Machine.execPdOnRequest d s
  | .pdOffRequest d => Sys2Proof.Machine.execPdOffRequest d s
  | .pdPowerDownDone d => Sys2Proof.Machine.execPdPowerDownDone d s
  | .pdPowerUpDone d pass turning => Sys2Proof.Machine.execPdPowerUpDone d pass turning s
  | .paramSelect item => Sys2Proof.Machine.execParamSelect item s
  | .gpioFuncWrite n value => Sys2Proof.Machine.execGpioFuncWrite n value s
  | .fanTachEdge k periodUs => Sys2Proof.Machine.execFanTachEdge k periodUs s
  | .avsTrackTick ok => Sys2Proof.Machine.execAvsTrackTick ok s
  | .avsReadTick ok mv cur => Sys2Proof.Machine.execAvsReadTick ok mv cur s
  | .avsRetry ok => Sys2Proof.Machine.execAvsRetry ok s
  | .busFailClear ok => Sys2Proof.Machine.execBusFailClear ok s
  | .supplyMonitorCrossing r high => Sys2Proof.Machine.execSupplyMonitorCrossing r high s
  | .tempThreshold k level => Sys2Proof.Machine.execTempThreshold k level s
  | .perstRelease p => Sys2Proof.Machine.execPerstRelease p s
  | .linkUp p rate width flit rev => Sys2Proof.Machine.execLinkUp p rate width flit rev s
  | .linkRetrain p rate width flit rev => Sys2Proof.Machine.execLinkRetrain p rate width flit rev s
  | .portReset p perst => Sys2Proof.Machine.execPortReset p perst s
  | .configRequest p n op => Sys2Proof.Machine.execConfigRequest p n op s
  | .memoryRequest p n bar off len data ok => Sys2Proof.Machine.execMemoryRequest p n bar off len data ok s
  | .vfFlr p n => Sys2Proof.Machine.execVfFlr p n s
  | .pfFlr p => Sys2Proof.Machine.execPfFlr p s
  | .vfEnableClear p => Sys2Proof.Machine.execVfEnableClear p s
  | .numvfsWrite p value => Sys2Proof.Machine.execNumvfsWrite p value s
  | .busMasterEnableWrite p n on => Sys2Proof.Machine.execBusMasterEnableWrite p n on s
  | .dstateChange p n d3 => Sys2Proof.Machine.execDstateChange p n d3 s
  | .teardownCompletionWaitEnd p n => Sys2Proof.Machine.execTeardownCompletionWaitEnd p n s
  | .teardownEnd p n => Sys2Proof.Machine.execTeardownEnd p n s
  | .hostCompletionTimeout fid q seq => Sys2Proof.Machine.execHostCompletionTimeout fid q seq s
  | .hostCompletionArrival fid q seq status => Sys2Proof.Machine.execHostCompletionArrival fid q seq status s
  | .msixUnmask p n vec => Sys2Proof.Machine.execMsixUnmask p n vec s
  | .sqDoorbell fid q tail => Sys2Proof.Machine.execSqDoorbell fid q tail s
  | .cqDoorbell fid q head => Sys2Proof.Machine.execCqDoorbell fid q head s
  | .aqCfgWrite fid value => Sys2Proof.Machine.execAqCfgWrite fid value s
  | .sqeFetch fid => Sys2Proof.Machine.execSqeFetch fid s
  | .sqeFetched fid q entries => Sys2Proof.Machine.execSqeFetched fid q entries s
  | .flowDispatch seq => Sys2Proof.Machine.execFlowDispatch seq s
  | .flush seq => Sys2Proof.Machine.execFlush seq s
  | .write seq data clens bad => Sys2Proof.Machine.execWrite seq data clens bad s
  | .read seq bad => Sys2Proof.Machine.execRead seq bad s
  | .writeZeroes seq clens bad => Sys2Proof.Machine.execWriteZeroes seq clens bad s
  | .deallocate seq clens bad => Sys2Proof.Machine.execDeallocate seq clens bad s
  | .verify seq bad => Sys2Proof.Machine.execVerify seq bad s
  | .push seq bad fenceOk => Sys2Proof.Machine.execPush seq bad fenceOk s
  | .operatorOpcode seq => Sys2Proof.Machine.execOperatorOpcode seq s
  | .commandComplete seq => Sys2Proof.Machine.execCommandComplete seq s
  | .createQp seq => Sys2Proof.Machine.execCreateQp seq s
  | .deleteQp seq => Sys2Proof.Machine.execDeleteQp seq s
  | .identify seq => Sys2Proof.Machine.execIdentify seq s
  | .getLog seq => Sys2Proof.Machine.execGetLog seq s
  | .journalQuery seq => Sys2Proof.Machine.execJournalQuery seq s
  | .tenantCreate seq => Sys2Proof.Machine.execTenantCreate seq s
  | .tenantDestroy seq => Sys2Proof.Machine.execTenantDestroy seq s
  | .destroyReleaseEnd t => Sys2Proof.Machine.execDestroyReleaseEnd t s
  | .keyLoad seq blob => Sys2Proof.Machine.execKeyLoad seq blob s
  | .keyUnload seq => Sys2Proof.Machine.execKeyUnload seq s
  | .nsCreate seq => Sys2Proof.Machine.execNsCreate seq s
  | .nsDelete seq => Sys2Proof.Machine.execNsDelete seq s
  | .contractSet seq record => Sys2Proof.Machine.execContractSet seq record s
  | .contractClear seq => Sys2Proof.Machine.execContractClear seq s
  | .pushGrant seq => Sys2Proof.Machine.execPushGrant seq s
  | .pushRevoke seq => Sys2Proof.Machine.execPushRevoke seq s
  | .skimInstall seq blob => Sys2Proof.Machine.execSkimInstall seq blob s
  | .skimInstallDrained match_ => Sys2Proof.Machine.execSkimInstallDrained match_ s
  | .orphanRead seq => Sys2Proof.Machine.execOrphanRead seq s
  | .orphanRelease seq => Sys2Proof.Machine.execOrphanRelease seq s
  | .daymarkClear seq req persistOk => Sys2Proof.Machine.execDaymarkClear seq req persistOk s
  | .xqResumeNext fid q => Sys2Proof.Machine.execXqResumeNext fid q s
  | .xqResumeSkip fid q n => Sys2Proof.Machine.execXqResumeSkip fid q n s
  | .xqResumeReset fid q => Sys2Proof.Machine.execXqResumeReset fid q s
  | .resumeApply fid q => Sys2Proof.Machine.execResumeApply fid q s
  | .journalPersistTick => Sys2Proof.Machine.execJournalPersistTick s
  | .pieceStart seq => Sys2Proof.Machine.execPieceStart seq s
  | .buoyRefill t n wr => Sys2Proof.Machine.execBuoyRefill t n wr s
  | .capacityChange => Sys2Proof.Machine.execCapacityChange s
  | .maskingKatTick l pass => Sys2Proof.Machine.execMaskingKatTick l pass s
  | .maskingLockstepMismatch l => Sys2Proof.Machine.execMaskingLockstepMismatch l s
  | .nop t c => Sys2Proof.Machine.execNop t c s
  | .add t c => Sys2Proof.Machine.execAdd t c s
  | .sub t c => Sys2Proof.Machine.execSub t c s
  | .and t c => Sys2Proof.Machine.execAnd t c s
  | .or t c => Sys2Proof.Machine.execOr t c s
  | .xor t c => Sys2Proof.Machine.execXor t c s
  | .shl t c => Sys2Proof.Machine.execShl t c s
  | .shr t c => Sys2Proof.Machine.execShr t c s
  | .sar t c => Sys2Proof.Machine.execSar t c s
  | .mov t c => Sys2Proof.Machine.execMov t c s
  | .cmp t c => Sys2Proof.Machine.execCmp t c s
  | .tst t c => Sys2Proof.Machine.execTst t c s
  | .mul t c => Sys2Proof.Machine.execMul t c s
  | .minu t c => Sys2Proof.Machine.execMinu t c s
  | .maxu t c => Sys2Proof.Machine.execMaxu t c s
  | .ext t c => Sys2Proof.Machine.execExt t c s
  | .ins t c => Sys2Proof.Machine.execIns t c s
  | .clz t c => Sys2Proof.Machine.execClz t c s
  | .popc t c => Sys2Proof.Machine.execPopc t c s
  | .crc t c => Sys2Proof.Machine.execCrc t c s
  | .ld t c err => Sys2Proof.Machine.execLd t c err s
  | .st t c err ok => Sys2Proof.Machine.execSt t c err ok s
  | .fenceW t c => Sys2Proof.Machine.execFenceW t c s
  | .send t c => Sys2Proof.Machine.execSend t c s
  | .wait t c => Sys2Proof.Machine.execWait t c s
  | .poll t c => Sys2Proof.Machine.execPoll t c s
  | .time t c => Sys2Proof.Machine.execTime t c s
  | .stcs t c => Sys2Proof.Machine.execStcs t c s
  | .stcsComplete => Sys2Proof.Machine.execStcsComplete s
  | .version t c => Sys2Proof.Machine.execVersion t c s
  | .bufAlloc t c room => Sys2Proof.Machine.execBufAlloc t c room s
  | .bufFree t c => Sys2Proof.Machine.execBufFree t c s
  | .nsRead t c bad => Sys2Proof.Machine.execNsRead t c bad s
  | .nsWrite t c clens bad => Sys2Proof.Machine.execNsWrite t c clens bad s
  | .nsZero t c clens bad => Sys2Proof.Machine.execNsZero t c clens bad s
  | .nsInfo t c => Sys2Proof.Machine.execNsInfo t c s
  | .hostRead t c data ok => Sys2Proof.Machine.execHostRead t c data ok s
  | .hostWrite t c ok => Sys2Proof.Machine.execHostWrite t c ok s
  | .bufCrc t c => Sys2Proof.Machine.execBufCrc t c s
  | .serviceFlush t c => Sys2Proof.Machine.execServiceFlush t c s
  | .pushBuf t c fenceOk => Sys2Proof.Machine.execPushBuf t c fenceOk s
  | .messageArrival t c ws => Sys2Proof.Machine.execMessageArrival t c ws s
  | .waitTimeout t c => Sys2Proof.Machine.execWaitTimeout t c s
  | .loadMissFill t line err => Sys2Proof.Machine.execLoadMissFill t line err s
  | .storeAck t idx ok => Sys2Proof.Machine.execStoreAck t idx ok s
  | .snoopInvalidate t line => Sys2Proof.Machine.execSnoopInvalidate t line s
  | .snoopFilterCover c => Sys2Proof.Machine.execSnoopFilterCover c s
  | .flowAbort t c undef => Sys2Proof.Machine.execFlowAbort t c undef s
  | .contextWatchdog t c => Sys2Proof.Machine.execContextWatchdog t c s
  | .tileWatchdog t => Sys2Proof.Machine.execTileWatchdog t s
  | .tileFail p => Sys2Proof.Machine.execTileFail p s
  | .spareSelftest p pass => Sys2Proof.Machine.execSpareSelftest p pass s
  | .scrubRead a outcome copy => Sys2Proof.Machine.execScrubRead a outcome copy s
  | .csWordRestore a ok => Sys2Proof.Machine.execCsWordRestore a ok s
  | .csWindowSelect value => Sys2Proof.Machine.execCsWindowSelect value s
  | .destageTake bad => Sys2Proof.Machine.execDestageTake bad s
  | .stripeSeal disk seg stripe parityOk => Sys2Proof.Machine.execStripeSeal disk seg stripe parityOk s
  | .sealTimeout disk seg stripe => Sys2Proof.Machine.execSealTimeout disk seg stripe s
  | .stripWriteFail disk seg stripe m => Sys2Proof.Machine.execStripWriteFail disk seg stripe m s
  | .mirrorRelease => Sys2Proof.Machine.execMirrorRelease s
  | .memberRetire disk m sub => Sys2Proof.Machine.execMemberRetire disk m sub s
  | .rebuildVisit disk bad => Sys2Proof.Machine.execRebuildVisit disk bad s
  | .gcCollect disk bad => Sys2Proof.Machine.execGcCollect disk bad s
  | .segmentErase disk seg => Sys2Proof.Machine.execSegmentErase disk seg s
  | .extentDestage t n x clens bad => Sys2Proof.Machine.execExtentDestage t n x clens bad s
  | .heatDecay => Sys2Proof.Machine.execHeatDecay s
  | .settlingMove t n x up clens bad => Sys2Proof.Machine.execSettlingMove t n x up clens bad s
  | .reshapeGo value => Sys2Proof.Machine.execReshapeGo value s
  | .reshapeVisit bad => Sys2Proof.Machine.execReshapeVisit bad s
  | .locationLogPersist => Sys2Proof.Machine.execLocationLogPersist s
  | .checkpointStart => Sys2Proof.Machine.execCheckpointStart s
  | .checkpointRequest => Sys2Proof.Machine.execCheckpointRequest s
  | .checkpointEnd => Sys2Proof.Machine.execCheckpointEnd s
  | .dramChannelLost c => Sys2Proof.Machine.execDramChannelLost c s
  | .flashDescriptorArrival c d => Sys2Proof.Machine.execFlashDescriptorArrival c d s
  | .flashDescriptorTake c producer => Sys2Proof.Machine.execFlashDescriptorTake c producer s
  | .flashReadDesc c => Sys2Proof.Machine.execFlashReadDesc c s
  | .flashProgramDesc c => Sys2Proof.Machine.execFlashProgramDesc c s
  | .flashEraseDesc c => Sys2Proof.Machine.execFlashEraseDesc c s
  | .flashScanDesc c => Sys2Proof.Machine.execFlashScanDesc c s
  | .flashReadParamDesc c => Sys2Proof.Machine.execFlashReadParamDesc c s
  | .flashResetDesc c => Sys2Proof.Machine.execFlashResetDesc c s
  | .lunOperationDone c lun o => Sys2Proof.Machine.execLunOperationDone c lun o s
  | .flashCompletionAccept c => Sys2Proof.Machine.execFlashCompletionAccept c s
  | .flashFence => Sys2Proof.Machine.execFlashFence s
  | .flashChannelInit c ident ceFails lunFails trainFails => Sys2Proof.Machine.execFlashChannelInit c ident ceFails lunFails trainFails s
  | .flashRetrainTick c pass => Sys2Proof.Machine.execFlashRetrainTick c pass s
  | .lunTimeout c lun answers othersAnswer => Sys2Proof.Machine.execLunTimeout c lun answers othersAnswer s
  | .flashChannelRetire c staging => Sys2Proof.Machine.execFlashChannelRetire c staging s
  | .patrolScan c lun row pset bits set soft => Sys2Proof.Machine.execPatrolScan c lun row pset bits set soft s
  | .dumpRowErase c lun => Sys2Proof.Machine.execDumpRowErase c lun s
  | .diskRead a r => Sys2Proof.Machine.execDiskRead a r s
  | .diskWrite a r n => Sys2Proof.Machine.execDiskWrite a r n s
  | .diskOpSelect a => Sys2Proof.Machine.execDiskOpSelect a s
  | .readPass a got syncMiss overrun => Sys2Proof.Machine.execReadPass a got syncMiss overrun s
  | .diskOpTimeout a => Sys2Proof.Machine.execDiskOpTimeout a s
  | .wfltCapture a => Sys2Proof.Machine.execWfltCapture a s
  | .speedExcursion h inside => Sys2Proof.Machine.execSpeedExcursion h inside s
  | .diskFence => Sys2Proof.Machine.execDiskFence s
  | .serialFrame a ok value => Sys2Proof.Machine.execSerialFrame a ok value s
  | .fstatPoll a => Sys2Proof.Machine.execFstatPoll a s
  | .preampRead a value => Sys2Proof.Machine.execPreampRead a value s
  | .heaterUpdate a t => Sys2Proof.Machine.execHeaterUpdate a t s
  | .heaterIdleOff a => Sys2Proof.Machine.execHeaterIdleOff a s
  | .offsetCal a result => Sys2Proof.Machine.execOffsetCal a result s
  | .eqCal a head zone result => Sys2Proof.Machine.execEqCal a head zone result s
  | .precomp a head zone result => Sys2Proof.Machine.execPrecomp a head zone result s
  | .calRequest a value => Sys2Proof.Machine.execCalRequest a value s
  | .offsetCalTick a => Sys2Proof.Machine.execOffsetCalTick a s
  | .dataPathRetire a k => Sys2Proof.Machine.execDataPathRetire a k s
  | .taskTrigger t => Sys2Proof.Machine.execTaskTrigger t s
  | .instanceCommit t => Sys2Proof.Machine.execInstanceCommit t s
  | .taskDeadline t => Sys2Proof.Machine.execTaskDeadline t s
  | .nodeAdd t => Sys2Proof.Machine.execNodeAdd t s
  | .nodeSub t => Sys2Proof.Machine.execNodeSub t s
  | .nodeMul t => Sys2Proof.Machine.execNodeMul t s
  | .nodeFma t => Sys2Proof.Machine.execNodeFma t s
  | .nodeDiv t => Sys2Proof.Machine.execNodeDiv t s
  | .nodeSqrt t => Sys2Proof.Machine.execNodeSqrt t s
  | .nodeMin t => Sys2Proof.Machine.execNodeMin t s
  | .nodeMax t => Sys2Proof.Machine.execNodeMax t s
  | .nodeAbs t => Sys2Proof.Machine.execNodeAbs t s
  | .nodeNeg t => Sys2Proof.Machine.execNodeNeg t s
  | .nodeMov t => Sys2Proof.Machine.execNodeMov t s
  | .nodeSel t => Sys2Proof.Machine.execNodeSel t s
  | .nodeClamp t => Sys2Proof.Machine.execNodeClamp t s
  | .nodeLim t => Sys2Proof.Machine.execNodeLim t s
  | .nodeBiq t => Sys2Proof.Machine.execNodeBiq t s
  | .nodeInteg t => Sys2Proof.Machine.execNodeInteg t s
  | .nodeDot t => Sys2Proof.Machine.execNodeDot t s
  | .nodeOut t => Sys2Proof.Machine.execNodeOut t s
  | .nodeEnd t => Sys2Proof.Machine.execNodeEnd t s
  | .coreKatTick c good => Sys2Proof.Machine.execCoreKatTick c good s
  | .coreRetire c task => Sys2Proof.Machine.execCoreRetire c task s
  | .coefWrite value => Sys2Proof.Machine.execCoefWrite value s
  | .taskStoreUncorrectable t => Sys2Proof.Machine.execTaskStoreUncorrectable t s
  | .servoWedge a lanes => Sys2Proof.Machine.execServoWedge a lanes s
  | .writeInhibitAssert a k => Sys2Proof.Machine.execWriteInhibitAssert a k s
  | .trackLost a => Sys2Proof.Machine.execTrackLost a s
  | .shockCapture gpio k => Sys2Proof.Machine.execShockCapture gpio k s
  | .shockHoldEnd h => Sys2Proof.Machine.execShockHoldEnd h s
  | .headSwitch a head => Sys2Proof.Machine.execHeadSwitch a head s
  | .seekStart a => Sys2Proof.Machine.execSeekStart a s
  | .offsetCalibration a zone result stats => Sys2Proof.Machine.execOffsetCalibration a zone result stats s
  | .srvCalRequest a value => Sys2Proof.Machine.execSrvCalRequest a value s
  | .satInhibit a => Sys2Proof.Machine.execSatInhibit a s
  | .vcmPwmSample a iA iB volts vm => Sys2Proof.Machine.execVcmPwmSample a iA iB volts vm s
  | .shuntLost a leg => Sys2Proof.Machine.execShuntLost a leg s
  | .vcmDriverFault a => Sys2Proof.Machine.execVcmDriverFault a s
  | .vcmDriverRetry a ok => Sys2Proof.Machine.execVcmDriverRetry a ok s
  | .retract a => Sys2Proof.Machine.execRetract a s
  | .retractDone a => Sys2Proof.Machine.execRetractDone a s
  | .guidedUnload a => Sys2Proof.Machine.execGuidedUnload a s
  | .unloadRequest a => Sys2Proof.Machine.execUnloadRequest a s
  | .unloadDone a => Sys2Proof.Machine.execUnloadDone a s
  | .load a kt bad n => Sys2Proof.Machine.execLoad a kt bad n s
  | .loadTimeout a => Sys2Proof.Machine.execLoadTimeout a s
  | .loadRetry a => Sys2Proof.Machine.execLoadRetry a s
  | .parkUnknownListen a lanesValid => Sys2Proof.Machine.execParkUnknownListen a lanesValid s
  | .positionLost a => Sys2Proof.Machine.execPositionLost a s
  | .spinupRequest h => Sys2Proof.Machine.execSpinupRequest h s
  | .spindleStopRequest h safe => Sys2Proof.Machine.execSpindleStopRequest h safe s
  | .driveOffRequest h => Sys2Proof.Machine.execDriveOffRequest h s
  | .ballastRequest h => Sys2Proof.Machine.execBallastRequest h s
  | .alignEnd h => Sys2Proof.Machine.execAlignEnd h s
  | .openLoopTimeout h => Sys2Proof.Machine.execOpenLoopTimeout h s
  | .zeroCrossing h phase rising onNs hyst => Sys2Proof.Machine.execZeroCrossing h phase rising onNs hyst s
  | .commutation h => Sys2Proof.Machine.execCommutation h s
  | .forcedCommutation h => Sys2Proof.Machine.execForcedCommutation h s
  | .spindlePwmPeriod h iU iV iW vm theta omega => Sys2Proof.Machine.execSpindlePwmPeriod h iU iV iW vm theta omega s
  | .atSpeed h => Sys2Proof.Machine.execAtSpeed h s
  | .lossOfSync h => Sys2Proof.Machine.execLossOfSync h s
  | .catchObserveEnd h emf omega theta => Sys2Proof.Machine.execCatchObserveEnd h emf omega theta s
  | .standstill h => Sys2Proof.Machine.execStandstill h s
  | .vmShort h => Sys2Proof.Machine.execVmShort h s
  | .vmShortRecover h => Sys2Proof.Machine.execVmShortRecover h s
  | .spindleDriverFault h => Sys2Proof.Machine.execSpindleDriverFault h s
  | .spindleDriverRetry h ok => Sys2Proof.Machine.execSpindleDriverRetry h ok s
  | .phaseShuntLost h phase => Sys2Proof.Machine.execPhaseShuntLost h phase s
  | .shuntCalibration h quiet ofs => Sys2Proof.Machine.execShuntCalibration h quiet ofs s
  | .spnCalRequest h value => Sys2Proof.Machine.execSpnCalRequest h value s
  | .windingMeasurement h m quiet => Sys2Proof.Machine.execWindingMeasurement h m quiet s
  | .hdaRetire h drive => Sys2Proof.Machine.execHdaRetire h drive s
  | .spinSyncInPulse => Sys2Proof.Machine.execSpinSyncInPulse s
  | .spinSyncLost h => Sys2Proof.Machine.execSpinSyncLost h s
  | .spindleIndex h => Sys2Proof.Machine.execSpindleIndex h s
  | .compress job => Sys2Proof.Machine.execCompress job s
  | .decompress job => Sys2Proof.Machine.execDecompress job s
  | .renderResume job => Sys2Proof.Machine.execRenderResume job s
  | .renderFree job => Sys2Proof.Machine.execRenderFree job s
  | .renderDispatch => Sys2Proof.Machine.execRenderDispatch s
  | .renderJobEnd e => Sys2Proof.Machine.execRenderJobEnd e s
  | .verifyMismatch e katOk => Sys2Proof.Machine.execVerifyMismatch e katOk s
  | .renderKatTick e good => Sys2Proof.Machine.execRenderKatTick e good s
  | .hodGo c set tile ctx => Sys2Proof.Machine.execHodGo c set tile ctx s
  | .hodPause c byCtl => Sys2Proof.Machine.execHodPause c byCtl s
  | .hodResume c byCtl => Sys2Proof.Machine.execHodResume c byCtl s
  | .hodAbort c byCtl => Sys2Proof.Machine.execHodAbort c byCtl s
  | .hodDrainEnd c n host => Sys2Proof.Machine.execHodDrainEnd c n host s
  | .hodTransferEnd c status n host => Sys2Proof.Machine.execHodTransferEnd c status n host s
  | .hodClaim value => Sys2Proof.Machine.execHodClaim value s
  | .hodChannelRetire c => Sys2Proof.Machine.execHodChannelRetire c s
  | .ozperTrain p lanes => Sys2Proof.Machine.execOzperTrain p lanes s
  | .ozperTrainRetry p => Sys2Proof.Machine.execOzperTrainRetry p s
  | .heartbeatSend p => Sys2Proof.Machine.execHeartbeatSend p s
  | .heartbeat p ack glbState grant nak leave => Sys2Proof.Machine.execHeartbeat p ack glbState grant nak leave s
  | .cap p h c => Sys2Proof.Machine.execCap p h c s
  | .capResend p => Sys2Proof.Machine.execCapResend p s
  | .mirror h m => Sys2Proof.Machine.execMirror h m s
  | .mack h base bits => Sys2Proof.Machine.execMack h base bits s
  | .release h slots => Sys2Proof.Machine.execRelease h slots s
  | .purge h uid boot below => Sys2Proof.Machine.execPurge h uid boot below s
  | .ozperLinkDown p => Sys2Proof.Machine.execOzperLinkDown p s
  | .eastLinkLoss => Sys2Proof.Machine.execEastLinkLoss s
  | .westLinkLoss => Sys2Proof.Machine.execWestLinkLoss s
  | .rewriteEnd => Sys2Proof.Machine.execRewriteEnd s
  | .mirrorEnter => Sys2Proof.Machine.execMirrorEnter s
  | .orphanHoldExpiry => Sys2Proof.Machine.execOrphanHoldExpiry s
  | .faultReport src data el => Sys2Proof.Machine.execFaultReport src data el s
  | .coverDone rseq kept => Sys2Proof.Machine.execCoverDone rseq kept s
  | .recordCloseExpiry rseq => Sys2Proof.Machine.execRecordCloseExpiry rseq s
  | .kprAck value => Sys2Proof.Machine.execKprAck value s
  | .kprForce value => Sys2Proof.Machine.execKprForce value s
  | .forceTaken src el => Sys2Proof.Machine.execForceTaken src el s
  | .keeperStateUncorrectable => Sys2Proof.Machine.execKeeperStateUncorrectable s
  | .foghornPulseEnd => Sys2Proof.Machine.execFoghornPulseEnd s
  | .irqEnableWrite value => Sys2Proof.Machine.execIrqEnableWrite value s
  | .tallyTick => Sys2Proof.Machine.execTallyTick s
  | .tallySnapshot q inst parts pool => Sys2Proof.Machine.execTallySnapshot q inst parts pool s
  | .tallySkip q => Sys2Proof.Machine.execTallySkip q s
  | .tallyRecheck q inst parts pool => Sys2Proof.Machine.execTallyRecheck q inst parts pool s
  | .safeEntry => Sys2Proof.Machine.execSafeEntry s
  | .safeFlushDone => Sys2Proof.Machine.execSafeFlushDone s
  | .daymarkEvent => Sys2Proof.Machine.execDaymarkEvent s
  | .daymarkPersist ok => Sys2Proof.Machine.execDaymarkPersist ok s
  | .dmkWin0Read a => Sys2Proof.Machine.execDmkWin0Read a s
  | .dmkWin7Read a => Sys2Proof.Machine.execDmkWin7Read a s
  | .ballastTrigger => Sys2Proof.Machine.execBallastTrigger s
  | .vmDip => Sys2Proof.Machine.execVmDip s
  | .energyRecompute vh => Sys2Proof.Machine.execEnergyRecompute vh s
  | .regenRegulate vm => Sys2Proof.Machine.execRegenRegulate vm s
  | .dumpWrite n metaOk lost missing => Sys2Proof.Machine.execDumpWrite n metaOk lost missing s
  | .dumpTrailer => Sys2Proof.Machine.execDumpTrailer s
  | .vmBack => Sys2Proof.Machine.execVmBack s
  | .coreBrownout ok => Sys2Proof.Machine.execCoreBrownout ok s
  | .brownoutTimeout recovered ok => Sys2Proof.Machine.execBrownoutTimeout recovered ok s
  | .bankLow low => Sys2Proof.Machine.execBankLow low s
  | .mgtWrite off v pec ok => Sys2Proof.Machine.execMgtWrite off v pec ok s
  | .mgtRead off pec => Sys2Proof.Machine.execMgtRead off pec s
  | .mgtLast pec => Sys2Proof.Machine.execMgtLast pec s
  | .badFrame p malformed => Sys2Proof.Machine.execBadFrame p malformed s
  | .ozperRetrain p resumes => Sys2Proof.Machine.execOzperRetrain p resumes s
  | .dynamicAddressAssign addr setdasaFrom => Sys2Proof.Machine.execDynamicAddressAssign addr setdasaFrom s
  | .fanTachTimeout k => Sys2Proof.Machine.execFanTachTimeout k s

end Sys2Proof.Machine
end

