-- ==== Sys2Proof/WellFormed.lean ====
section
/-!
DEFINITION. WellFormed.lean: which commands name units that exist: the counts of 00_scope.md and 01_architecture.md.
Values that a register write or a frame may carry out of range are judged by the command's meaning instead.
-/

namespace Sys2Proof

/-- A function, the management port, or a context of a tile (R5). -/
def accessorOk (a : Accessor) : Bool :=
  match a with
  | .fn p n => decide (p < 6) && decide (n < 1024)
  | .mgt => true
  | .flow t c => decide (t < 32) && decide (c < 8)

/-- Does the command name units that exist? -/
def Instr.wellFormed (i : Instr) : Bool :=
  match i with
  | .registerWrite a _ bytes _ _ => accessorOk a && (bytes == 1 || bytes == 2 || bytes == 4)
  | .rcFieldRead a _ bytes => accessorOk a && (bytes == 1 || bytes == 2 || bytes == 4)
  | .pairedLoRead a off => accessorOk a && off % 4 == 0
  | .pairedHiRead a off => accessorOk a && off % 4 == 0
  | .pairedLoWrite a off _ => accessorOk a && off % 4 == 0
  | .pairedHiWrite a off _ => accessorOk a && off % 4 == 0
  | .lathLinkDown link _ => decide (link < 112)
  | .rerouteComplete link => decide (link < 112)
  | .paceUpdate n _ => decide (n < 4)
  | .minRestart => true
  | .timestampGrant _ => true
  | .porAssert _ => true
  | .porRelease => true
  | .warmRstPin => true
  | .warmReset _ => true
  | .enterSafe => true
  | .warmStopEnd => true
  | .loaderStart _ _ _ _ => true
  | .slotChecked _ _ => true
  | .selftestDone _ _ => true
  | .discoveryDone _ _ => true
  | .ozperDiscoveryTimeout => true
  | .vmMeasureTick _ => true
  | .standstillMeasurement _ _ => true
  | .bringupDone _ _ _ => true
  | .spinupStart => true
  | .spinupTimeout h _ => decide (h < 16)
  | .norRead => true
  | .norProgram => true
  | .norErase => true
  | .markTrial _ => true
  | .clearTrial => true
  | .norCommandDone _ _ => true
  | .pdOnRequest _ => true
  | .pdOffRequest _ => true
  | .pdPowerDownDone d => decide (d < 198)
  | .pdPowerUpDone d _ _ => decide (d < 198)
  | .paramSelect _ => true
  | .gpioFuncWrite n _ => decide (n < 3)
  | .fanTachEdge k _ => decide (k < 4)
  | .avsTrackTick _ => true
  | .avsReadTick _ _ _ => true
  | .avsRetry _ => true
  | .busFailClear _ => true
  | .supplyMonitorCrossing r _ => decide (r < 9)
  | .tempThreshold k level => decide (k < 8) && decide (level < 3)
  | .perstRelease p => decide (p < 6)
  | .linkUp p _ _ _ _ => decide (p < 6)
  | .linkRetrain p _ _ _ _ => decide (p < 6)
  | .portReset p _ => decide (p < 6)
  | .configRequest p n _ => decide (p < 6) && decide (n < 1024)
  | .memoryRequest p n bar _ _ _ _ => decide (p < 6) && decide (n < 1024) && decide (bar < 6)
  | .vfFlr p n => decide (p < 6) && decide (n < 1024)
  | .pfFlr p => decide (p < 6)
  | .vfEnableClear p => decide (p < 6)
  | .numvfsWrite p _ => decide (p < 6)
  | .busMasterEnableWrite p n _ => decide (p < 6) && decide (n < 1024)
  | .dstateChange p n _ => decide (p < 6) && decide (n < 1024)
  | .teardownCompletionWaitEnd p n => decide (p < 6) && decide (n < 1024)
  | .teardownEnd p n => decide (p < 6) && decide (n < 1024)
  | .hostCompletionTimeout fid q _ => decide (fid < 6144) && decide (q < 9)
  | .hostCompletionArrival fid q _ _ => decide (fid < 6144) && decide (q < 9)
  | .msixUnmask p n _ => decide (p < 6) && decide (n < 1024)
  | .sqDoorbell fid q _ => decide (fid < 6144) && decide (q < 9)
  | .cqDoorbell fid q _ => decide (fid < 6144) && decide (q < 9)
  | .aqCfgWrite fid _ => decide (fid < 6144)
  | .sqeFetch fid => decide (fid < 6144)
  | .sqeFetched fid q _ => decide (fid < 6144) && decide (q < 9)
  | .flowDispatch _ => true
  | .flush _ => true
  | .write _ _ _ _ => true
  | .read _ _ => true
  | .writeZeroes _ _ _ => true
  | .deallocate _ _ _ => true
  | .verify _ _ => true
  | .push _ _ _ => true
  | .operatorOpcode _ => true
  | .commandComplete _ => true
  | .createQp _ => true
  | .deleteQp _ => true
  | .identify _ => true
  | .getLog _ => true
  | .journalQuery _ => true
  | .tenantCreate _ => true
  | .tenantDestroy _ => true
  | .destroyReleaseEnd t => decide (t < 1024)
  | .keyLoad _ _ => true
  | .keyUnload _ => true
  | .nsCreate _ => true
  | .nsDelete _ => true
  | .contractSet _ _ => true
  | .contractClear _ => true
  | .pushGrant _ => true
  | .pushRevoke _ => true
  | .skimInstall _ _ => true
  | .skimInstallDrained _ => true
  | .orphanRead _ => true
  | .orphanRelease _ => true
  | .daymarkClear _ _ _ => true
  | .xqResumeNext fid q => decide (fid < 6144) && decide (q < 9)
  | .xqResumeSkip fid q _ => decide (fid < 6144) && decide (q < 9)
  | .xqResumeReset fid q => decide (fid < 6144) && decide (q < 9)
  | .resumeApply fid q => decide (fid < 6144) && decide (q < 9)
  | .journalPersistTick => true
  | .pieceStart _ => true
  | .buoyRefill t n _ => decide (t < 1024) && decide (n < 8)
  | .capacityChange => true
  | .maskingKatTick l _ => decide (l < 6)
  | .maskingLockstepMismatch l => decide (l < 6)
  | .nop t c => decide (t < 32) && decide (c < 8)
  | .add t c => decide (t < 32) && decide (c < 8)
  | .sub t c => decide (t < 32) && decide (c < 8)
  | .and t c => decide (t < 32) && decide (c < 8)
  | .or t c => decide (t < 32) && decide (c < 8)
  | .xor t c => decide (t < 32) && decide (c < 8)
  | .shl t c => decide (t < 32) && decide (c < 8)
  | .shr t c => decide (t < 32) && decide (c < 8)
  | .sar t c => decide (t < 32) && decide (c < 8)
  | .mov t c => decide (t < 32) && decide (c < 8)
  | .cmp t c => decide (t < 32) && decide (c < 8)
  | .tst t c => decide (t < 32) && decide (c < 8)
  | .mul t c => decide (t < 32) && decide (c < 8)
  | .minu t c => decide (t < 32) && decide (c < 8)
  | .maxu t c => decide (t < 32) && decide (c < 8)
  | .ext t c => decide (t < 32) && decide (c < 8)
  | .ins t c => decide (t < 32) && decide (c < 8)
  | .clz t c => decide (t < 32) && decide (c < 8)
  | .popc t c => decide (t < 32) && decide (c < 8)
  | .crc t c => decide (t < 32) && decide (c < 8)
  | .ld t c _ => decide (t < 32) && decide (c < 8)
  | .st t c _ _ => decide (t < 32) && decide (c < 8)
  | .fenceW t c => decide (t < 32) && decide (c < 8)
  | .send t c => decide (t < 32) && decide (c < 8)
  | .wait t c => decide (t < 32) && decide (c < 8)
  | .poll t c => decide (t < 32) && decide (c < 8)
  | .time t c => decide (t < 32) && decide (c < 8)
  | .stcs t c => decide (t < 32) && decide (c < 8)
  | .stcsComplete => true
  | .version t c => decide (t < 32) && decide (c < 8)
  | .bufAlloc t c _ => decide (t < 32) && decide (c < 8)
  | .bufFree t c => decide (t < 32) && decide (c < 8)
  | .nsRead t c _ => decide (t < 32) && decide (c < 8)
  | .nsWrite t c _ _ => decide (t < 32) && decide (c < 8)
  | .nsZero t c _ _ => decide (t < 32) && decide (c < 8)
  | .nsInfo t c => decide (t < 32) && decide (c < 8)
  | .hostRead t c _ _ => decide (t < 32) && decide (c < 8)
  | .hostWrite t c _ => decide (t < 32) && decide (c < 8)
  | .bufCrc t c => decide (t < 32) && decide (c < 8)
  | .serviceFlush t c => decide (t < 32) && decide (c < 8)
  | .pushBuf t c _ => decide (t < 32) && decide (c < 8)
  | .messageArrival t c _ => decide (t < 32) && decide (c < 8)
  | .waitTimeout t c => decide (t < 32) && decide (c < 8)
  | .loadMissFill t _ _ => decide (t < 32)
  | .storeAck t i _ => decide (t < 32) && decide (i < 4)
  | .snoopInvalidate t _ => decide (t < 32)
  | .snoopFilterCover c => decide (c < 4)
  | .flowAbort t c _ => decide (t < 32) && decide (c < 8)
  | .contextWatchdog t c => decide (t < 32) && decide (c < 8)
  | .tileWatchdog t => decide (t < 32)
  | .tileFail p => decide (p < 34)
  | .spareSelftest p _ => decide (p < 34)
  | .scrubRead a outcome copy => decide (a < 0x40000) && decide (outcome < 3) && decide (copy < 2)
  | .csWordRestore a _ => decide (a < 0x40000)
  | .csWindowSelect _ => true
  | .destageTake _ => true
  | .stripeSeal _ _ _ _ => true
  | .sealTimeout _ _ _ => true
  | .stripWriteFail _ _ _ _ => true
  | .mirrorRelease => true
  | .memberRetire _ _ _ => true
  | .rebuildVisit _ _ => true
  | .gcCollect _ _ => true
  | .segmentErase _ _ => true
  | .extentDestage t n _ _ _ => decide (t < 1024) && decide (n < 16)
  | .heatDecay => true
  | .settlingMove t n _ _ _ _ => decide (t < 1024) && decide (n < 16)
  | .reshapeGo _ => true
  | .reshapeVisit _ => true
  | .locationLogPersist => true
  | .checkpointStart => true
  | .checkpointRequest => true
  | .checkpointEnd => true
  | .dramChannelLost c => decide (c < 4)
  | .flashDescriptorArrival c _ => decide (c < 32)
  | .flashDescriptorTake c _ => decide (c < 32)
  | .flashReadDesc c => decide (c < 32)
  | .flashProgramDesc c => decide (c < 32)
  | .flashEraseDesc c => decide (c < 32)
  | .flashScanDesc c => decide (c < 32)
  | .flashReadParamDesc c => decide (c < 32)
  | .flashResetDesc c => decide (c < 32)
  | .lunOperationDone c lun _ => decide (c < 32) && decide (lun < 32)
  | .flashCompletionAccept c => decide (c < 32)
  | .flashFence => true
  | .flashChannelInit c _ _ _ _ => decide (c < 32)
  | .flashRetrainTick c _ => decide (c < 32)
  | .lunTimeout c lun _ _ => decide (c < 32) && decide (lun < 32)
  | .flashChannelRetire c _ => decide (c < 32)
  | .patrolScan c lun _ _ _ _ _ => decide (c < 32) && decide (lun < 32)
  | .dumpRowErase c lun => decide (c < 32) && decide (lun < 32)
  | .diskRead a _ => decide (a < 32)
  | .diskWrite a _ _ => decide (a < 32)
  | .diskOpSelect a => decide (a < 32)
  | .readPass a _ _ _ => decide (a < 32)
  | .diskOpTimeout a => decide (a < 32)
  | .wfltCapture a => decide (a < 32)
  | .speedExcursion h _ => decide (h < 16)
  | .diskFence => true
  | .serialFrame a _ _ => decide (a < 32)
  | .fstatPoll a => decide (a < 32)
  | .preampRead a _ => decide (a < 32)
  | .heaterUpdate a _ => decide (a < 32)
  | .heaterIdleOff a => decide (a < 32)
  | .offsetCal a _ => decide (a < 32)
  | .eqCal a head _ _ => decide (a < 32) && decide (head < 12)
  | .precomp a head _ _ => decide (a < 32) && decide (head < 12)
  | .calRequest a _ => decide (a < 32)
  | .offsetCalTick a => decide (a < 32)
  | .dataPathRetire a _ => decide (a < 32)
  | .taskTrigger t => decide (t < 96)
  | .instanceCommit t => decide (t < 96)
  | .taskDeadline t => decide (t < 96)
  | .nodeAdd t => decide (t < 96)
  | .nodeSub t => decide (t < 96)
  | .nodeMul t => decide (t < 96)
  | .nodeFma t => decide (t < 96)
  | .nodeDiv t => decide (t < 96)
  | .nodeSqrt t => decide (t < 96)
  | .nodeMin t => decide (t < 96)
  | .nodeMax t => decide (t < 96)
  | .nodeAbs t => decide (t < 96)
  | .nodeNeg t => decide (t < 96)
  | .nodeMov t => decide (t < 96)
  | .nodeSel t => decide (t < 96)
  | .nodeClamp t => decide (t < 96)
  | .nodeLim t => decide (t < 96)
  | .nodeBiq t => decide (t < 96)
  | .nodeInteg t => decide (t < 96)
  | .nodeDot t => decide (t < 96)
  | .nodeOut t => decide (t < 96)
  | .nodeEnd t => decide (t < 96)
  | .coreKatTick c _ => decide (c < 8)
  | .coreRetire c _ => decide (c < 8)
  | .coefWrite _ => true
  | .taskStoreUncorrectable t => decide (t < 96)
  | .servoWedge a _ => decide (a < 32)
  | .writeInhibitAssert a _ => decide (a < 32)
  | .trackLost a => decide (a < 32)
  | .shockCapture _ _ => true
  | .shockHoldEnd h => decide (h < 16)
  | .headSwitch a head => decide (a < 32) && decide (head < 12)
  | .seekStart a => decide (a < 32)
  | .offsetCalibration a _ _ _ => decide (a < 32)
  | .srvCalRequest a _ => decide (a < 32)
  | .satInhibit a => decide (a < 32)
  | .vcmPwmSample a _ _ _ _ => decide (a < 32)
  | .shuntLost a leg => decide (a < 32) && decide (leg < 2)
  | .vcmDriverFault a => decide (a < 32)
  | .vcmDriverRetry a _ => decide (a < 32)
  | .retract a => decide (a < 32)
  | .retractDone a => decide (a < 32)
  | .guidedUnload a => decide (a < 32)
  | .unloadRequest a => decide (a < 32)
  | .unloadDone a => decide (a < 32)
  | .load a _ _ _ => decide (a < 32)
  | .loadTimeout a => decide (a < 32)
  | .loadRetry a => decide (a < 32)
  | .parkUnknownListen a _ => decide (a < 32)
  | .positionLost a => decide (a < 32)
  | .spinupRequest h => decide (h < 16)
  | .spindleStopRequest h _ => decide (h < 16)
  | .driveOffRequest h => decide (h < 16)
  | .ballastRequest h => decide (h < 16)
  | .alignEnd h => decide (h < 16)
  | .openLoopTimeout h => decide (h < 16)
  | .zeroCrossing h phase _ _ _ => decide (h < 16) && decide (phase < 3)
  | .commutation h => decide (h < 16)
  | .forcedCommutation h => decide (h < 16)
  | .spindlePwmPeriod h _ _ _ _ _ _ => decide (h < 16)
  | .atSpeed h => decide (h < 16)
  | .lossOfSync h => decide (h < 16)
  | .catchObserveEnd h _ _ _ => decide (h < 16)
  | .standstill h => decide (h < 16)
  | .vmShort h => decide (h < 16)
  | .vmShortRecover h => decide (h < 16)
  | .spindleDriverFault h => decide (h < 16)
  | .spindleDriverRetry h _ => decide (h < 16)
  | .phaseShuntLost h phase => decide (h < 16) && decide (phase < 3)
  | .shuntCalibration h _ _ => decide (h < 16)
  | .spnCalRequest h _ => decide (h < 16)
  | .windingMeasurement h _ _ => decide (h < 16)
  | .hdaRetire h _ => decide (h < 16)
  | .spinSyncInPulse => true
  | .spinSyncLost h => decide (h < 16)
  | .spindleIndex h => decide (h < 16)
  | .compress _ => true
  | .decompress _ => true
  | .renderResume _ => true
  | .renderFree _ => true
  | .renderDispatch => true
  | .renderJobEnd e => decide (e < 8)
  | .verifyMismatch e _ => decide (e < 8)
  | .renderKatTick e _ => decide (e < 8)
  | .hodGo c _ tile ctx => decide (c < 16) && decide (tile < 32) && decide (ctx < 8)
  | .hodPause c _ => decide (c < 16)
  | .hodResume c _ => decide (c < 16)
  | .hodAbort c _ => decide (c < 16)
  | .hodDrainEnd c _ _ => decide (c < 16)
  | .hodTransferEnd c _ _ _ => decide (c < 16)
  | .hodClaim _ => true
  | .hodChannelRetire c => decide (c < 16)
  | .ozperTrain p _ => decide (p < 2)
  | .ozperTrainRetry p => decide (p < 2)
  | .heartbeatSend p => decide (p < 2)
  | .heartbeat p _ _ _ _ _ => decide (p < 2)
  | .cap p _ _ => decide (p < 2)
  | .capResend p => decide (p < 2)
  | .mirror _ _ => true
  | .mack _ _ _ => true
  | .release _ _ => true
  | .purge _ _ _ _ => true
  | .ozperLinkDown p => decide (p < 2)
  | .eastLinkLoss => true
  | .westLinkLoss => true
  | .rewriteEnd => true
  | .mirrorEnter => true
  | .orphanHoldExpiry => true
  | .faultReport src _ _ => decide (src < 4096)
  | .coverDone _ _ => true
  | .recordCloseExpiry _ => true
  | .kprAck _ => true
  | .kprForce _ => true
  | .forceTaken src _ => decide (src < 4096)
  | .keeperStateUncorrectable => true
  | .foghornPulseEnd => true
  | .irqEnableWrite _ => true
  | .tallyTick => true
  | .tallySnapshot q _ _ _ => decide (q < 8)
  | .tallySkip q => decide (q < 8)
  | .tallyRecheck q _ _ _ => decide (q < 8)
  | .safeEntry => true
  | .safeFlushDone => true
  | .daymarkEvent => true
  | .daymarkPersist _ => true
  | .dmkWin0Read a => accessorOk a
  | .dmkWin7Read a => accessorOk a
  | .ballastTrigger => true
  | .vmDip => true
  | .energyRecompute _ => true
  | .regenRegulate _ => true
  | .dumpWrite _ _ _ _ => true
  | .dumpTrailer => true
  | .vmBack => true
  | .coreBrownout _ => true
  | .brownoutTimeout _ _ => true
  | .bankLow _ => true
  | .mgtWrite off _ _ _ => decide (off < 0x8000000)
  | .mgtRead off _ => decide (off < 0x8000000)
  | .mgtLast _ => true
  | .badFrame p _ => decide (p < 2)
  | .ozperRetrain p _ => decide (p < 2)
  | .dynamicAddressAssign addr _ => decide (addr < 128)
  | .fanTachTimeout k => decide (k < 4)

end Sys2Proof
end

