-- ==== Sys2Proof/Safety.lean ====
section
/-!
DEFINITION. Safety.lean: the terms the statements use: which parts of the state a command leaves alone, and what counts as a
state that the machine keeps in form.
-/

namespace Sys2Proof.Machine

/-- The parts of the state. -/
inductive Part where
  | pending | phase | tb | regs | held | out | freeCtr | nv | loader | norCmd | rst | pwr | lath | fns | ports | kpr | dmk
  | qps | cmds | jrn | tenants | trw | udc | flc | rdc | ltn | srv | spn | rnd | hod | ozp | bls | mgt
  deriving DecidableEq, Repr

/-- A part is the same in two states. -/
def SamePart (s t : State) : Part → Prop
  | .pending => t.pending = s.pending
  | .phase => t.phase = s.phase
  | .tb => t.tb = s.tb
  | .regs => t.regs = s.regs
  | .held => t.held = s.held
  | .out => t.out = s.out
  | .freeCtr => t.freeCtr = s.freeCtr
  | .nv => t.nv = s.nv
  | .loader => t.loader = s.loader
  | .norCmd => t.norCmd = s.norCmd
  | .rst => t.rst = s.rst
  | .pwr => t.pwr = s.pwr
  | .lath => t.lath = s.lath
  | .fns => t.fns = s.fns
  | .ports => t.ports = s.ports
  | .kpr => t.kpr = s.kpr
  | .dmk => t.dmk = s.dmk
  | .qps => t.qps = s.qps
  | .cmds => t.cmds = s.cmds
  | .jrn => t.jrn = s.jrn
  | .tenants => t.tenants = s.tenants
  | .trw => t.trw = s.trw
  | .udc => t.udc = s.udc
  | .flc => t.flc = s.flc
  | .rdc => t.rdc = s.rdc
  | .ltn => t.ltn = s.ltn
  | .srv => t.srv = s.srv
  | .spn => t.spn = s.spn
  | .rnd => t.rnd = s.rnd
  | .hod => t.hod = s.hod
  | .ozp => t.ozp = s.ozp
  | .bls => t.bls = s.bls
  | .mgt => t.mgt = s.mgt

/-- The frame of a command: from `s` to `t` every part of the state outside `touched` stays as it is. -/
def Unchanged (touched : List Part) (s t : State) : Prop := ∀ p : Part, p ∉ touched → SamePart s t p

/-- The frame on registers: every register word outside `keys` reads as before. -/
def RegsBut (keys : List Nat) (s t : State) : Prop := ∀ k : Nat, k ∉ keys → rget t k = rget s k

/-- What a fault report may change beside the registers of Keeper: the record and its timestamp, Daymark's intake, messages and
PCIe reports, and the device state where the fault is fatal. -/
def reportParts : List Part := [.phase, .tb, .regs, .out, .fns, .kpr, .dmk]

/-- An accessor reaches the register file at a BAR0 offset: it may address registers now, BEACON does not withhold the offset,
and no MSI-X structure of its function lies there. -/
def OpenAt (s : State) (a : Accessor) (off : Nat) : Prop :=
  reaches s a = true ∧ withheld s off = false ∧
    match a with
    | .fn _ n => inMsix n off = false ∧ inPba n off = false
    | .mgt => True
    | .flow _ _ => True

/-- A whole aligned word goes to a register that the accessor may write, that is no half of a pair, belongs to no queue pair
instance, starts nothing when written, and has no encoding that other state reserves. -/
def PlainWrite (s : State) (a : Accessor) (off : Nat) (v : Word) (ok : Bool) (r : RegAt) : Prop :=
  OpenAt s a off ∧ off % 4 = 0 ∧ locate s a off = some r ∧ r.who.writes = true ∧ unitOff s r.key = false ∧
    r.key ≠ (rsvOf s a off).off ∧ isLo r.key = false ∧ isHi r.key = false ∧ xqAt s r.key = none ∧
    (∀ u : State, writeGlobal u (a == .mgt) r.key v ok = none ∧ writeData u r.key v = none ∧
      writeMotion u r.key v = none) ∧
    (∀ (u : State) (f : FieldDesc), stateRsv u r.key v f = false) ∧
    r.key ∉ [0x1601004, 0x1601008, 0x160100C, 0x1603010]

/-- Sources whose owner has nothing to do but to report (R484, R485): Keeper's own, the tally's, the pace monitors', ECC
corrections; and every source while SAFE or BEACON lets no cover start. -/
def ReportsOnly (s : State) (src : Nat) : Prop :=
  (sourceClass src).isSome = true ∧ src ≠ 0 ∧
    (s.phase = .safe ∨ s.phase = .beacon ∨
      src ∈ [0x001, 0x002, 0x003, 0x010, 0x011, 0x012, 0x013, 0x014, 0x015, 0x016, 0x017, 0x0A0, 0x0A1, 0x0A2, 0x0A3,
        0x171, 0xB00, 0xB02, 0xB03, 0xB11, 0xB13, 0xB14])

/-- The class a report's record carries: one level up where the report is escalated (R490). -/
def classOf (s : State) (r : Report) : Cls := if (escalatedFrom s r).isSome then r.cls.up else r.cls

/-- The history slot a new record takes (R488). -/
def newSlot (s : State) : Nat := (pickSlot (grantStamp s).2).1

/-- A state in which a fatal fault is decided at once (R498): a working state, and no warm stop. -/
def decidesSafe (s : State) : Prop :=
  s.rst.warm = none ∧ s.phase ∈ [Phase.loading, .selftest, .discovery, .bringup, .serving, .degraded]

/-- No command is in flight and no medium is at work: no queue pair, no running SKIM_INSTALL or transfer, no flash channel,
data path or head in service, no HDA. -/
def MediaQuiet (s : State) : Prop :=
  s.cmds = [] ∧ s.qps = [] ∧ s.trw.install = none ∧ s.flc = [] ∧ (∀ c < 32, chanServes s c = false) ∧
    (∀ a < 32, rdcServes s a = false ∧ srvState s a < 4) ∧ (∀ c < 16, (getHod s c).running = false) ∧
    ∀ h, hdaPresent s h = false

/-! ## Flow contexts -/

/-- A microword of opcode `o` issues on context `c` of tile `t`, keeps every rule on its fields, falls through and does not
end a region. -/
def FallsThrough (s : State) (t c o : Nat) (x : Ctx) (m : MWord) : Prop :=
  issued s t c o = some (x, m) ∧ wordFault m = 0 ∧ m.sq = 0 ∧ regionEnd x.pc = false

/-- The flow goes on at the next word: its registers and flags apart nothing of its context changes, no other context, no
memory and no part of the state outside Trowel does. -/
def WentOn (s u : State) (t c : Nat) (x : Ctx) : Prop :=
  (getCtx u (ctxKey t c)).pc = x.pc + 1 ∧ (getCtx u (ctxKey t c)).word = some (csFetch s (x.pc + 1)) ∧
    (getCtx u (ctxKey t c)).busy = true ∧ (getCtx u (ctxKey t c)).seq = x.seq ∧
    (getCtx u (ctxKey t c)).stack = x.stack ∧ (getCtx u (ctxKey t c)).inbox = x.inbox ∧
    (getCtx u (ctxKey t c)).scratch = x.scratch ∧ (getCtx u (ctxKey t c)).bufs = x.bufs ∧
    (getCtx u (ctxKey t c)).wait = .none ∧ (∀ k, k ≠ ctxKey t c → getCtx u k = getCtx s k) ∧
    u.trw.dram = s.trw.dram ∧ u.trw.sram = s.trw.sram ∧ u.trw.cs = s.trw.cs ∧ Unchanged [.trw] s u

/-- Every register but `r` keeps its value. -/
def OnlyReg (x y : Ctx) (r : Nat) : Prop := ∀ i, i ≠ r → gReg y i = gReg x i

/-- The four result flags keep their values. -/
def SameFlags (x y : Ctx) : Prop := y.z = x.z ∧ y.n = x.n ∧ y.c = x.c ∧ y.v = x.v

/-- The four result flags after a result `r`, with the carry and overflow given (R230). -/
def FlagsOf (y : Ctx) (r : Nat) (cf vf : Bool) : Prop :=
  y.z = decide (r = 0) ∧ y.n = decide (2 ^ 63 ≤ r) ∧ y.c = cf ∧ y.v = vf

/-- An operation that writes RD with `res`, and where SF is 1 the flags with `cf` and `vf`. -/
def Computes (o : Nat) (i : Nat → Nat → Instr) (res : Ctx → MWord → Nat) (cf vf : Ctx → MWord → Bool) : Prop :=
  ∀ (s : State) (t c : Nat) (x : Ctx) (m : MWord), FallsThrough s t c o x m →
    ∃ u, exec (i t c) s = .next u ∧ WentOn s u t c x ∧ (gReg (getCtx u (ctxKey t c)) m.rd).toNat = res x m ∧
      OnlyReg x (getCtx u (ctxKey t c)) m.rd ∧ (getCtx u (ctxKey t c)).t = x.t ∧
      (m.sf = true → FlagsOf (getCtx u (ctxKey t c)) (res x m) (cf x m) (vf x m)) ∧
      (m.sf = false → SameFlags x (getCtx u (ctxKey t c)))

/-- The flow of a context is aborted with a flow fault of a code: its context is free, its command ends with 0x0401, the
fault is logged while the log is free. -/
def FlowFaulted (s u : State) (t c code : Nat) : Prop :=
  (getCtx u (ctxKey t c)).busy = false ∧ (fget s TRW_FLTLOG0_VALID = 0 → fget u TRW_FLTLOG0_CODE = code) ∧
    (∀ n d, (getCtx s (ctxKey t c)).seq = some n → getCmd s n = some d → d.done = none →
      ∃ e, getCmd u n = some e ∧ e.done = some 0x0401 ∧ e.sqe = d.sqe) ∧
    (∀ k, k ≠ ctxKey t c → getCtx u k = getCtx s k) ∧ u.trw.dram = s.trw.dram ∧ u.trw.sram = s.trw.sram

/-- A service returns to the flow: G16 is the status, the results follow, Z tells success, the flow goes on after its
CALLV (R239). -/
def Returned (u : State) (t c : Nat) (x : Ctx) (status : Nat) (rs : List Nat) : Prop :=
  gReg (getCtx u (ctxKey t c)) 16 = BitVec.ofNat 64 status ∧
    (∀ i < rs.length, gReg (getCtx u (ctxKey t c)) (17 + i) = BitVec.ofNat 64 (rs.getD i 0)) ∧
    (∀ r, r < 16 ∨ 31 < r → gReg (getCtx u (ctxKey t c)) r = gReg x r) ∧
    (getCtx u (ctxKey t c)).z = decide (status = 0) ∧ (getCtx u (ctxKey t c)).n = false ∧
    (getCtx u (ctxKey t c)).c = false ∧ (getCtx u (ctxKey t c)).v = false ∧ (getCtx u (ctxKey t c)).t = false ∧
    (getCtx u (ctxKey t c)).wait = .none ∧ (getCtx u (ctxKey t c)).pc = x.stack.headD 0 ∧
    (getCtx u (ctxKey t c)).stack = x.stack.drop 1

/-! ## Lantern nodes -/

/-- The next node of the task's running instance is `n`, whose operation is `o`. -/
def NodeNext (s : State) (t o : Nat) (i : Inst) (n : NodeWord) : Prop :=
  (getTask s t).run = some i ∧ i.committed = false ∧ (graphOf s t).nodes[i.node]? = some n ∧ n.op = o

/-- The instance goes on as `j` at its next node: its deadline, its committed state, every other task and every other part
of the machine stay. -/
def NodeWent (s u : State) (t : Nat) (i j : Inst) : Prop :=
  getTask u t = { getTask s t with run := some j } ∧ j.node = i.node + 1 ∧ j.deadline = i.deadline ∧
    j.started = i.started ∧ j.committed = false ∧ j.ftz = i.ftz ∧ (∀ k, k ≠ t → getTask u k = getTask s k) ∧
    u.ltn.queue = s.ltn.queue ∧ u.ltn.logical = s.ltn.logical ∧ u.ltn.spare = s.ltn.spare ∧ Unchanged [.ltn] s u

/-- A node that writes one slot: DST takes the result, its flags join the instance's, nothing else of the instance
changes. -/
def NodeWrites (o : Nat) (c : Nat → Instr) (r : Inst → (Nat → Word) → NodeWord → Word × FpFlags) : Prop :=
  ∀ (s : State) (t : Nat) (i : Inst) (n : NodeWord), NodeNext s t o i n →
    ∃ u j, exec (c t) s = .next u ∧ NodeWent s u t i j ∧ tget 0 j.work n.dst = (r i (coefWord s t) n).1 ∧
      j.flags = i.flags.or (r i (coefWord s t) n).2 ∧ (∀ k, k ≠ n.dst → tget 0 j.work k = tget 0 i.work k) ∧
      j.outs = i.outs ∧ j.sat = i.sat

/-- Every waiting command names units that exist. -/
def State.queueOk (s : State) : Prop := ∀ c ∈ s.pending, c.wellFormed = true

/-- The two memories that microwords and Hod address keep their canonical form: addresses strictly rising, no byte listed
that reads as an unlisted one. -/
def State.memWf (s : State) : Prop := Memory.wf s.trw.dram = true ∧ Memory.wf s.trw.sram = true

end Sys2Proof.Machine
end

