-- ==== Sys2Proof/Certificates/Slice0/Obligations.lean ====
section
/-!
DEFINITION. Obligations.lean: the statements for the provers, one definition each. Each names the commands it is about,
says that they complete and what they do, and what they leave as it was.
-/

open Sys2Proof Sys2Proof.Machine

/-- State.reset: no command waits, the device is in OFF, no command is in flight, no queue and no tenant exists, the
memories hold nothing in canonical form, and registers read what their tables give: GLB_ID 0x1284_1010, AVS at 800 mV
within 700 to 900 mV, fans at full duty, Keeper's containment window of 60 s, Ballast's VM_FAIL of 10.8 V for 2,000
ns, Daymark empty with its next circulating slot 512, re-routing enabled, the slowest pace 0xFFFF. -/
def Obligations.ResetState : Prop :=
  State.reset.pending = [] ∧ State.reset.phase = .off ∧ State.reset.cmds = [] ∧ State.reset.qps = [] ∧
  State.reset.tenants = [] ∧ State.reset.memWf ∧ State.reset.queueOk ∧
  rget State.reset 0 = 0x12841010#32 ∧ rget State.reset 0x118 = 0xFFFFFFFF#32 ∧
  fget State.reset PWR_STATUS_VCMD = 800 ∧ fget State.reset PWR_AVS_LIMIT_VMIN = 700 ∧
  fget State.reset PWR_AVS_LIMIT_VMAX = 900 ∧ fget State.reset KPR_CTL_CONT_WIN = 60 ∧
  fget State.reset BLS_CFG_VM_FAIL = 10800 ∧ fget State.reset BLS_CFG_VM_FAIL_NS = 2000 ∧
  fget State.reset DMK_NEWEST_EMPTY = 1 ∧ fget State.reset DMK_OLDEST_SLOT = 512 ∧
  fget State.reset LTH_CTL_REROUTE_EN = 1 ∧ fget State.reset MSR_PACE_PACE_MIN = 0xFFFF

/-- For every state: a step never faults and never refuses; it answers a next state whose queue is the queue without its
front command, in the same order. No command, whatever its operands, adds, drops or reorders waiting commands, a
power-on reset and a warm reset included; so a queue of well-formed commands stays one. -/
def Obligations.NoCommandStopsTheMachine : Prop :=
  (∀ s : State, ∃ t, step s = .next t ∧ t.pending = s.pending.tail) ∧
  (∀ s t : State, s.queueOk → step s = .next t → t.queueOk)

/-- For every state whose DRAM and SRAM are in canonical form (addresses strictly rising, no byte listed that an unlisted
address reads as), every step leaves both in canonical form: flows, Render, Hod, the services of the vendor table and
resets included. So equal memories are equal data in every run. -/
def Obligations.MemoriesStayCanonical : Prop :=
  ∀ s t : State, s.memWf → step s = .next t → t.memWf

/-- R3: for every function that exists, over a link that is up, outside LOADING, a reset of the port or the function's
teardown (where the request is answered with retry): a configuration read of the identity answers Vendor ID 0xD1A7
with Device ID 0x1284 for the PF and 0x1285 for a VF, and a read of the revision answers Revision ID 0x10. Neither
changes anything but the outputs. -/
def Obligations.IdentityInConfigurationSpace : Prop :=
  ∀ (s : State) (p n : Nat), p < 6 → n < 1024 → fget s (HPT_LINK_DL_UP.ix p 0x1000) = 1 → s.phase ≠ .loading →
    (getPort s p).inReset = false → (n = 0 ∨ (getFn s (fnId p n)).teardown = 0) → fnExists s (fnId p n) = true →
    (∃ t w, exec (.configRequest p n .readId) s = .next t ∧ t.out = .cfgData (fnId p n) w :: s.out ∧ w < 2 ^ 32 ∧
      w % 65536 = 0xD1A7 ∧ (n = 0 → w / 65536 = 0x1284) ∧ (n ≠ 0 → w / 65536 = 0x1285) ∧ Unchanged [.out] s t) ∧
    (∃ t w, exec (.configRequest p n .readClassRevision) s = .next t ∧ t.out = .cfgData (fnId p n) w :: s.out ∧
      w % 256 = 0x10 ∧ Unchanged [.out] s t)

/-- R8: for every accessor and every register word it may write as a plain register: after REGISTER_WRITE of a whole
aligned word, a field whose value in the word is a reserved encoding holds its previous value, and if there is such a
field the RSV_WRITE bit of the register's block is 1; every other rw field holds its bits of the word and every w1c
field has the written ones cleared; no other register changes. -/
def Obligations.ReservedEncodingIsNotStored : Prop :=
  ∀ (s : State) (a : Accessor) (off : Nat) (v : Word) (ok : Bool) (r : RegAt), PlainWrite s a off v ok r →
    ∃ t, exec (.registerWrite a off 4 v ok) s = .next t ∧
      (∀ f ∈ r.reg.fields, (f.acc = .rw ∨ f.acc = .rws) → inRsv (bitsGet v f.lo f.w) f.rsv = true →
        fget t ⟨r.key, f.lo, f.w⟩ = fget s ⟨r.key, f.lo, f.w⟩ ∧ fget t (rsvOf s a off) = 1) ∧
      (∀ f ∈ r.reg.fields, (f.acc = .rw ∨ f.acc = .rws) → inRsv (bitsGet v f.lo f.w) f.rsv = false →
        fget t ⟨r.key, f.lo, f.w⟩ = bitsGet v f.lo f.w) ∧
      (∀ f ∈ r.reg.fields, f.acc = .w1c →
        fget t ⟨r.key, f.lo, f.w⟩ = fget s ⟨r.key, f.lo, f.w⟩ &&& (2 ^ f.w - 1 - bitsGet v f.lo f.w)) ∧
      RegsBut [r.key, (rsvOf s a off).off] s t ∧ Unchanged [.regs] s t

/-- R138: with no teardown of the function and no warm stop (during which every doorbell is ignored), a doorbell that
names a queue that does not exist, an SQ tail at or above the queue size, and a CQ head that would release entries the
device has not written, each sets the queue's bit in XQ_DBERR and changes no queue state, no other register and
nothing else; every doorbell outside these cases takes effect and leaves XQ_DBERR as it was. -/
def Obligations.DiscardedDoorbells : Prop :=
  ∀ (s : State) (fid q v : Nat), q < 9 → (getFn s fid).teardown = 0 → s.rst.warm = none →
    (((getQp s fid q).mode = 0 ∨ (getQp s fid q).size ≤ v) → ∃ t, exec (.sqDoorbell fid q v) s = .next t ∧
      fbit t (xqF s fid XQ_DBERR_SQ_ERR) q = true ∧
      (∀ k < 9, k ≠ q → fbit t (xqF s fid XQ_DBERR_SQ_ERR) k = fbit s (xqF s fid XQ_DBERR_SQ_ERR) k) ∧
      fget t (xqF s fid XQ_DBERR_CQ_ERR) = fget s (xqF s fid XQ_DBERR_CQ_ERR) ∧
      RegsBut [(xqF s fid XQ_DBERR_SQ_ERR).off] s t ∧ Unchanged [.regs] s t) ∧
    (((getQp s fid q).mode = 0 ∨ (getQp s fid q).size ≤ v ∨
      (getQp s fid q).unread < (v + (getQp s fid q).size - (getQp s fid q).cqHead) % (getQp s fid q).size) →
      ∃ t, exec (.cqDoorbell fid q v) s = .next t ∧ fbit t (xqF s fid XQ_DBERR_CQ_ERR) q = true ∧
        (∀ k < 9, k ≠ q → fbit t (xqF s fid XQ_DBERR_CQ_ERR) k = fbit s (xqF s fid XQ_DBERR_CQ_ERR) k) ∧
        fget t (xqF s fid XQ_DBERR_SQ_ERR) = fget s (xqF s fid XQ_DBERR_SQ_ERR) ∧
        RegsBut [(xqF s fid XQ_DBERR_CQ_ERR).off] s t ∧ Unchanged [.regs] s t) ∧
    ((getQp s fid q).mode ≠ 0 → v < (getQp s fid q).size →
      (∃ t, exec (.sqDoorbell fid q v) s = .next t ∧ (getQp t fid q).sqTail = v ∧ t.regs = s.regs) ∧
      ((v + (getQp s fid q).size - (getQp s fid q).cqHead) % (getQp s fid q).size ≤ (getQp s fid q).unread →
        ∃ t, exec (.cqDoorbell fid q v) s = .next t ∧ (getQp t fid q).cqHead = v ∧ t.regs = s.regs))

/-- For every command c, every list of commands and every state s: a step of s with c at the front of its queue is exec of
c on s with the queue's rest; a step on an empty queue changes nothing (the idle step is the model's choice, log entry
1). -/
def Obligations.StepRunsFrontCommand : Prop :=
  (∀ (c : Instr) (rest : List Instr) (s : State), step { s with pending := c :: rest } = exec c { s with pending := rest }) ∧
  (∀ s : State, s.pending = [] → step s = .next s)

/-- Storing a word into one field of a register: a rw field takes its bits of the word, unless that value is a reserved
encoding, which is not stored and sets the block's RSV_WRITE bit; writing 1 to a bit of a w1c field clears it and 0
leaves it; ro, wo and rc fields keep their value. No other register word changes than the field's and, for a reserved
encoding, the RSV_WRITE bit's. REGISTER_WRITE by any accessor that reaches the register: a whole aligned word written
to a register the accessor may write, that is no half of a pair, belongs to no queue pair instance and starts nothing,
leaves each of its fields as the field's access code and the word give. A write that does not cover the aligned word
sets the block's RSV_WRITE bit and changes nothing else; a function's write to a register it may not write changes
nothing but RO_WRITE of the port that carried it. -/
def Obligations.RegisterWrites : Prop :=
  (∀ (s : State) (rsv : Fld) (k : Nat) (v : Word) (f : FieldDesc), f.lo + f.w ≤ 32 → rsv.off ≠ k → rsv.w = 1 → rsv.lo < 32 →
    ((f.acc = .rw ∨ f.acc = .rws) → (inRsv (bitsGet v f.lo f.w) f.rsv || stateRsv s k v f) = false →
      fget (storeField rsv k v s f) ⟨k, f.lo, f.w⟩ = bitsGet v f.lo f.w ∧ RegsBut [k] s (storeField rsv k v s f)) ∧
    ((f.acc = .rw ∨ f.acc = .rws) → (inRsv (bitsGet v f.lo f.w) f.rsv || stateRsv s k v f) = true →
      fget (storeField rsv k v s f) ⟨k, f.lo, f.w⟩ = fget s ⟨k, f.lo, f.w⟩ ∧ fget (storeField rsv k v s f) rsv = 1 ∧
      RegsBut [rsv.off] s (storeField rsv k v s f)) ∧
    (f.acc = .w1c → ∀ b < f.w, (fget (storeField rsv k v s f) ⟨k, f.lo, f.w⟩).testBit b =
      ((fget s ⟨k, f.lo, f.w⟩).testBit b && !(bitsGet v f.lo f.w).testBit b) ∧ RegsBut [k] s (storeField rsv k v s f)) ∧
    ((f.acc = .ro ∨ f.acc = .wo ∨ f.acc = .rc) → storeField rsv k v s f = s) ∧
    Unchanged [.regs] s (storeField rsv k v s f)) ∧
  ((∀ (s : State) (a : Accessor) (off : Nat) (v : Word) (ok : Bool) (r : RegAt), PlainWrite s a off v ok r →
    ∃ t, exec (.registerWrite a off 4 v ok) s = .next t ∧ ∀ f ∈ r.reg.fields,
      fget t ⟨r.key, f.lo, f.w⟩ =
        match f.acc with
        | .rw | .rws => if inRsv (bitsGet v f.lo f.w) f.rsv then fget s ⟨r.key, f.lo, f.w⟩ else bitsGet v f.lo f.w
        | .w1c => fget s ⟨r.key, f.lo, f.w⟩ &&& (2 ^ f.w - 1 - bitsGet v f.lo f.w)
        | .ro | .wo | .rc => fget s ⟨r.key, f.lo, f.w⟩) ∧
  (∀ (s : State) (a : Accessor) (off bytes : Nat) (v : Word) (ok : Bool) (r : RegAt), OpenAt s a off →
    locate s a (off / 4 * 4) = some r → r.who.writes = true → bytes ≠ 4 ∨ off % 4 ≠ 0 →
    ∃ t, exec (.registerWrite a off bytes v ok) s = .next t ∧ fget t (rsvOf s a off) = 1 ∧
      RegsBut [(rsvOf s a off).off] s t ∧ Unchanged [.regs] s t) ∧
  (∀ (s : State) (p n off bytes : Nat) (v : Word) (ok : Bool) (r : RegAt), OpenAt s (.fn p n) off →
    locate s (.fn p n) (off / 4 * 4) = some r → r.who.writes = false →
    n = 0 ∨ (0x400000 ≤ r.key && r.key < 0x420000) = false →
    ∃ t, exec (.registerWrite (.fn p n) off bytes v ok) s = .next t ∧
      fget t (HPT_ERR_CNT1_RO_WRITE.ix p 0x1000) =
        min (fget s (HPT_ERR_CNT1_RO_WRITE.ix p 0x1000) + 1) (2 ^ HPT_ERR_CNT1_RO_WRITE.w - 1) ∧
      RegsBut [(HPT_ERR_CNT1_RO_WRITE.ix p 0x1000).off] s t ∧ Unchanged [.regs] s t))

/-- For every accessor and every register whose read starts nothing else: RC_FIELD_READ answers the covered bytes of the
word the register shows; an rc field whose bytes the read covers whole reads 0 afterwards, and a read that covers no
rc field whole changes no register. PAIRED_LO_READ answers the low word and captures the high half for that accessor;
PAIRED_HI_READ answers the captured half, which is used up, and the live half where none is pending. For every
accessor and every pair it may write whose write is not refused: PAIRED_LO_WRITE holds the value and changes what no
register reads; PAIRED_HI_WRITE then gives every field of both halves the value of the two words at once and uses the
held low half up; with no pending low write the stored low half stays. -/
def Obligations.ReadsAndPairs : Prop :=
  ((∀ (s : State) (a : Accessor) (off bytes : Nat) (r : RegAt) (w : Word), OpenAt s a (off / 4 * 4) →
    locate s a (off / 4 * 4) = some r → r.who.reads = true → isLo r.key = false → isHi r.key = false →
    liveWord s a r.key = (w, s) → r.key ∉ [0xE00020, 0xE00024, 0x1400044] →
    ∃ t, exec (.rcFieldRead a off bytes) s = .next t ∧
      t.out = .readData (w.toNat / 2 ^ (8 * (off % 4)) % 2 ^ (8 * min bytes (4 - off % 4))) :: s.out ∧
      RegsBut [r.key] s t ∧ Unchanged [.regs, .out] s t ∧
      (∀ f ∈ r.reg.fields, f.acc = .rc → coversField f (off % 4) (off % 4 + bytes) = true →
        fget t ⟨r.key, f.lo, f.w⟩ = 0) ∧
      ((∀ f ∈ r.reg.fields, f.acc = .rc → coversField f (off % 4) (off % 4 + bytes) = false) → t.regs = s.regs)) ∧
  (∀ (s : State) (a : Accessor) (off : Nat) (r : RegAt) (w : Word), OpenAt s a (off / 4 * 4) →
    locate s a (off / 4 * 4) = some r → r.who.reads = true → isLo r.key = true → liveWord s a r.key = (w, s) →
    ∃ t, exec (.pairedLoRead a off) s = .next t ∧ t.out = .readData w.toNat :: s.out ∧
      (heldOf t a r.key).capHi = some (viewWord s (a == .mgt) (r.key + 4)) ∧ Unchanged [.held, .out] s t) ∧
  (∀ (s : State) (a : Accessor) (off : Nat) (r : RegAt) (w x : Word), OpenAt s a (off / 4 * 4) →
    locate s a (off / 4 * 4) = some r → r.who.reads = true → isLo r.key = false → isHi r.key = true →
    liveWord s a r.key = (w, s) → (heldOf s a (r.key - 4)).capHi = some x →
    ∃ t, exec (.pairedHiRead a off) s = .next t ∧ t.out = .readData x.toNat :: s.out ∧
      (heldOf t a (r.key - 4)).capHi = none ∧ Unchanged [.held, .out] s t) ∧
  (∀ (s : State) (a : Accessor) (off : Nat) (r : RegAt) (w : Word), OpenAt s a (off / 4 * 4) →
    locate s a (off / 4 * 4) = some r → r.who.reads = true → isLo r.key = false → isHi r.key = true →
    liveWord s a r.key = (w, s) → (heldOf s a (r.key - 4)).capHi = none →
    ∃ t, exec (.pairedHiRead a off) s = .next t ∧ t.out = .readData w.toNat :: s.out ∧ Unchanged [.out] s t)) ∧
  ((∀ (s : State) (a : Accessor) (off : Nat) (v : Word) (r : RegAt), OpenAt s a (off / 4 * 4) →
    locate s a (off / 4 * 4) = some r → r.who.writes = true → unitOff s r.key = false → isLo r.key = true →
    loRefused s r.key = false →
    ∃ t, exec (.pairedLoWrite a off v) s = .next t ∧ (heldOf t a r.key).wrLo = some v ∧
      (∀ k, rget t k = rget s k) ∧ Unchanged [.held, .regs] s t) ∧
  (∀ (s : State) (a : Accessor) (off : Nat) (v lo : Word) (r : RegAt), OpenAt s a (off / 4 * 4) →
    locate s a (off / 4 * 4) = some r → r.who.writes = true → unitOff s r.key = false → isLo r.key = false →
    isHi r.key = true → loRefused s (r.key - 4) = false → (heldOf s a (r.key - 4)).wrLo = some lo →
    ∃ t, exec (.pairedHiWrite a off v) s = .next t ∧
      (∀ f ∈ r.reg.fields, fget t ⟨r.key, f.lo, f.w⟩ = bitsGet v f.lo f.w) ∧
      (∀ f ∈ (lowOf r).reg.fields, fget t ⟨r.key - 4, f.lo, f.w⟩ = bitsGet lo f.lo f.w) ∧
      (heldOf t a (r.key - 4)).wrLo = none ∧ RegsBut [r.key, r.key - 4] s t ∧ Unchanged [.held, .regs] s t) ∧
  (∀ (s : State) (a : Accessor) (off : Nat) (v : Word) (r : RegAt), OpenAt s a (off / 4 * 4) →
    locate s a (off / 4 * 4) = some r → r.who.writes = true → unitOff s r.key = false → isLo r.key = false →
    isHi r.key = true → loRefused s (r.key - 4) = false → (heldOf s a (r.key - 4)).wrLo = none →
    ∃ t, exec (.pairedHiWrite a off v) s = .next t ∧
      (∀ f ∈ r.reg.fields, fget t ⟨r.key, f.lo, f.w⟩ = bitsGet v f.lo f.w) ∧ RegsBut [r.key] s t ∧
      Unchanged [.regs] s t))

/-- Outside OFF and with a right PEC: MGT_WRITE of a plain register without a reserved value stores the rw fields and
leaves status 0 as the last status; MGT_READ of a register without rc fields answers status 0 and its word and changes
no register; an access that R544 refuses stores nothing and answers or keeps the refusal's status with data 0;
MGT_LAST answers the status of the latest WRITE; an address assignment by ENTDAA, or by SETDASA from the static
address, sets the dynamic address. A transaction with a wrong PEC changes nothing. A host write of four bytes at a
word-aligned BAR0 offset does what REGISTER_WRITE of their little-endian value does; a host read of four bytes answers
what the register read answers. A request longer than 64 bytes, beyond the end of BAR0, or to a BAR the function does
not have, is answered as an Unsupported Request, logged and reported in the function's AER, and changes no register. A
write to a window of the control PF's BAR2 is discarded. -/
def Obligations.PortAndHostAccesses : Prop :=
  ((∀ (s : State) (off : Nat) (v : Word) (ok : Bool) (r : RegAt), PlainWrite s .mgt off v ok r → mgtStatus s off true = 0 →
    (∀ f ∈ r.reg.fields, inRsv (bitsGet v f.lo f.w) f.rsv = false) →
    ∃ t, exec (.mgtWrite off v true ok) s = .next t ∧ t.mgt.last = 0 ∧
      ∀ f ∈ r.reg.fields, f.acc = .rw → fget t ⟨r.key, f.lo, f.w⟩ = bitsGet v f.lo f.w) ∧
  (∀ (s : State) (off : Nat) (v : Word) (ok : Bool), s.phase ≠ .off → mgtStatus s off true ≠ 0 →
    ∃ t, exec (.mgtWrite off v true ok) s = .next t ∧ t.mgt.last = mgtStatus s off true ∧
      t.mgt.dynamic = s.mgt.dynamic ∧ Unchanged [.mgt] s t) ∧
  (∀ (s : State) (off : Nat) (r : RegAt) (w : Word), s.phase ≠ .off → mgtStatus s off false = 0 →
    locate s .mgt off = some r → isLo r.key = false → isHi r.key = false → (∀ f ∈ r.reg.fields, f.acc ≠ .rc) →
    liveWord s .mgt r.key = (w, s) →
    ∃ t, exec (.mgtRead off true) s = .next t ∧ t.out = .mgtReply 0 w.toNat :: s.out ∧ Unchanged [.out] s t) ∧
  (∀ (s : State) (off : Nat), s.phase ≠ .off → mgtStatus s off false ≠ 0 →
    ∃ t, exec (.mgtRead off true) s = .next t ∧ t.out = .mgtReply (mgtStatus s off false) 0 :: s.out ∧
      Unchanged [.out] s t) ∧
  (∀ s : State, s.phase ≠ .off →
    ∃ t, exec (.mgtLast true) s = .next t ∧ t.out = .mgtReply s.mgt.last 0 :: s.out ∧ Unchanged [.out] s t) ∧
  (∀ (s : State) (addr : Nat) (sd : Option Nat), s.phase ≠ .off → (sd = none ∨ sd = some (mgtStatic s)) →
    ∃ t, exec (.dynamicAddressAssign addr sd) s = .next t ∧ t.mgt.dynamic = some (addr % 128) ∧
      t.mgt.last = s.mgt.last ∧ Unchanged [.mgt] s t) ∧
  (∀ (s : State) (off : Nat) (v : Word) (ok : Bool), exec (.mgtWrite off v false ok) s = .next s ∧
    exec (.mgtRead off false) s = .next s ∧ exec (.mgtLast false) s = .next s)) ∧
  ((∀ (s : State) (p n off : Nat) (bs : List Byte) (ok : Bool), off % 4 = 0 → bs.length = 4 →
    off + 4 ≤ (if n = 0 then 0x8000000 else 0x10000) → reaches s (.fn p n) = true →
    exec (.memoryRequest p n 0 off 4 (some bs) ok) s =
      exec (.registerWrite (.fn p n) off 4 (BitVec.ofNat 32 (leValue bs)) ok) s) ∧
  (∀ (s : State) (p n off : Nat) (ok : Bool), off % 4 = 0 → off + 4 ≤ (if n = 0 then 0x8000000 else 0x10000) →
    reaches s (.fn p n) = true →
    exec (.memoryRequest p n 0 off 4 none ok) s = exec (.rcFieldRead (.fn p n) off 4) s) ∧
  (∀ (s : State) (p n bar off len : Nat) (data : Option (List Byte)) (ok : Bool), reaches s (.fn p n) = true →
    (bar ≠ 0 ∧ bar ≠ 2) ∨ (bar = 0 ∧ 64 < len) ∨ (bar = 0 ∧ (if n = 0 then 0x8000000 else 0x10000) < off + len) →
    ∃ t, exec (.memoryRequest p n bar off len data ok) s = .next t ∧
      t.out = .aer (fnId p n) 5 :: .unsupported (fnId p n) :: s.out ∧ 5 ∈ (getFn t (fnId p n)).aer ∧
      Unchanged [.out, .fns] s t) ∧
  (∀ (s : State) (p n off len : Nat) (bs : List Byte) (ok : Bool), fnId p n = ctlFid s → off + len ≤ 0x1000000 →
    exec (.memoryRequest p n 2 off len (some bs) ok) s = .next s))

/-- A Lath link that fails for the first time is marked down, keeps the flits that were not acknowledged, and no link
comes up again; the end of rerouting puts those flits ahead of every newer one. A pace measurement is shown, lowers
the quadrant's minimum, sets WARN when it falls below WARN_THR from at or above it, and changes no other quadrant.
MIN_RESTART sets the four minima to 0xFFFF and changes nothing else. TIMESTAMP_GRANT sends one stamp with the boot
count, at the present nanosecond or, where 16 stamps were issued in it, the next one, never before the time asked for,
with a sequence number below 16. Two grants one after the other never give the same pair: the second has a later
nanosecond or, in the same nanosecond, the next sequence number. Nothing but the timebase and the outputs changes. -/
def Obligations.LathAndTimebase : Prop :=
  ((∀ (s : State) (link : Nat) (fl : List Flit), link < 112 → linkDown s link = false →
    ∃ t, exec (.lathLinkDown link fl) s = .next t ∧ linkDown t link = true ∧
      (∀ l < 112, l ≠ link → linkDown t l = linkDown s l) ∧
      t.lath.rerouting = s.lath.rerouting ++ [(link, fl)] ∧ Unchanged (.lath :: reportParts) s t) ∧
  (∀ (s : State) (link : Nat), ∃ t, exec (.rerouteComplete link) s = .next t ∧
      t.lath.inject = (s.lath.rerouting.filter (·.1 == link)).flatMap (·.2) ++ s.lath.inject ∧
      (∀ e ∈ t.lath.rerouting, e.1 ≠ link) ∧ t.lath.measured = s.lath.measured ∧ Unchanged [.lath] s t) ∧
  (∀ (s : State) (n : Nat) (pace : BitVec 16), n < 4 →
    ∃ t, exec (.paceUpdate n pace) s = .next t ∧ fget t (MSR_PACE_PACE.ix n 4) = pace.toNat ∧
      fget t (MSR_PACE_PACE_MIN.ix n 4) = min (fget s (MSR_PACE_PACE_MIN.ix n 4)) pace.toNat ∧
      (pace.toNat < fget s MSR_PACE_CTL_WARN_THR → tget false s.lath.measured n = true →
        fget s MSR_PACE_CTL_WARN_THR ≤ fget s (MSR_PACE_PACE.ix n 4) → fbit t MSR_STATUS_WARN n = true) ∧
      (∀ m < 4, m ≠ n → fget t (MSR_PACE_PACE.ix m 4) = fget s (MSR_PACE_PACE.ix m 4)) ∧
      Unchanged (.lath :: reportParts) s t) ∧
  (∀ s : State, ∃ t, exec .minRestart s = .next t ∧ (∀ n < 4, fget t (MSR_PACE_PACE_MIN.ix n 4) = 0xFFFF) ∧
      (∀ n < 4, fget t (MSR_PACE_PACE.ix n 4) = fget s (MSR_PACE_PACE.ix n 4)) ∧
      RegsBut ((List.range 4).map fun n => (MSR_PACE_PACE_MIN.ix n 4).off) s t ∧ Unchanged [.regs] s t)) ∧
  ((∀ (s : State) (now : Nat), ∃ t ns seq, exec (.timestampGrant now) s = .next t ∧ t.out = .stamp s.tb.boot ns seq :: s.out ∧ now ≤ ns ∧
      s.tb.ns ≤ ns ∧ ns ≤ max s.tb.ns now + 1 ∧ seq < 16 ∧ t.tb.ns = ns ∧ t.tb.boot = s.tb.boot ∧ t.tb.issued = seq + 1 ∧
      Unchanged [.tb, .out] s t) ∧
  (∀ (s t u : State) (now now' : Nat) (ns seq ns' seq' : Nat),
    exec (.timestampGrant now) s = .next t → t.out = .stamp s.tb.boot ns seq :: s.out →
    exec (.timestampGrant now') t = .next u → u.out = .stamp t.tb.boot ns' seq' :: t.out →
    ns < ns' ∨ (ns = ns' ∧ seq' = seq + 1)))

/-- A write of a pin function register frees every pin whose code is 0, gives an unassigned pin its GPIO output code, and
keeps the function of an assigned pin that is asked for another listed one, setting CONFLICT; the other function
registers stay. A tachometer edge on a pin that carries FAN_TACH shows the period, saturated at 0xFFFF; a missing edge
shows 0xFFFF. Outside OFF a temperature threshold enters a record of the sensor's source for its level where it does
not merge; the highest level enters SAFE in a working state. In TRACK mode, with no bus failure, no retry pending and
no brown-out, a tick on which the rule gives another voltage commands it: below PACE_LO five millivolts more but not
above VMAX, above PACE_HI five less but not below VMIN; VCMD shows it when the regulator accepts. A good read shows
voltage and current. A retry that is accepted shows the pending command; the third failure in a row sets BUS_FAIL and
gives the command up. Clearing BUS_FAIL in FIXED mode commands the limited VSET. -/
def Obligations.PinsAndVoltages : Prop :=
  ((∀ (s : State) (n : Nat) (v : Word), n < 3 →
    ∃ t, exec (.gpioFuncWrite n v) s = .next t ∧
      (∀ k < 8, bitsGet v (4 * k) 4 = 0 → gpioCode t (8 * n + k) = 0) ∧
      (∀ k < 8, bitsGet v (4 * k) 4 = 1 → gpioCode s (8 * n + k) = 0 → gpioCode t (8 * n + k) = 1) ∧
      (∀ k < 8, bitsGet v (4 * k) 4 ≠ 0 → gpioCode s (8 * n + k) ≠ 0 → bitsGet v (4 * k) 4 ≠ gpioCode s (8 * n + k) →
        (gpioInstance (bitsGet v (4 * k) 4) (8 * n + k)).isSome = true →
        gpioCode t (8 * n + k) = gpioCode s (8 * n + k) ∧ fget t GLB_GPIO_STATUS_CONFLICT = 1) ∧
      RegsBut [0x100 + 4 * n, GLB_STATUS_RSV_WRITE.off, GLB_GPIO_STATUS_CONFLICT.off] s t ∧ Unchanged [.regs] s t) ∧
  (∀ (s : State) (k us : Nat), k < 4 → gpioCode s (8 + k) = 3 →
    ∃ t, exec (.fanTachEdge k us) s = .next t ∧ fget t (tachF k) = min us 0xFFFF ∧
      (∀ j < 4, j ≠ k → fget t (tachF j) = fget s (tachF j)) ∧ RegsBut [(tachF k).off] s t ∧ Unchanged [.regs] s t) ∧
  (∀ (s : State) (k : Nat), k < 4 →
    ∃ t, exec (.fanTachTimeout k) s = .next t ∧ fget t (tachF k) = 0xFFFF ∧ RegsBut [(tachF k).off] s t ∧
      Unchanged [.regs] s t) ∧
  (∀ (s : State) (k level : Nat), k < 8 → level < 3 → s.phase ≠ .off → s.kpr.forcing = none →
    (level = 0 → mergeSlot s (0xB0 + k) = none) →
    ∃ t, exec (.tempThreshold k level) s = .next t ∧ fget t (recSource (newSlot s)) = 0xB0 + 8 * level + k ∧
      (level = 2 → decidesSafe s → t.phase = .safe ∧ fget t KPR_SAFE_SOURCE = 0xC0 + k) ∧ Unchanged reportParts s t)) ∧
  ((∀ s : State, fget s PWR_AVS_CTL_MODE = 1 → fget s PWR_STATUS_BUS_FAIL = 0 → s.pwr.avsPending = none →
    fget s BLS_STATUS_BROWNOUT = 0 →
    (minPace s < fget s PWR_AVS_PACE_PACE_LO → fget s PWR_STATUS_VCMD < fget s PWR_AVS_LIMIT_VMAX →
      ∃ t, exec (.avsTrackTick true) s = .next t ∧
        fget t PWR_STATUS_VCMD = min (fget s PWR_STATUS_VCMD + 5) (fget s PWR_AVS_LIMIT_VMAX) ∧
        RegsBut [PWR_STATUS_VCMD.off] s t ∧ Unchanged [.regs, .pwr, .out] s t) ∧
    (fget s PWR_AVS_PACE_PACE_LO ≤ minPace s → fget s PWR_AVS_PACE_PACE_HI < minPace s →
      fget s PWR_AVS_LIMIT_VMIN < fget s PWR_STATUS_VCMD →
      ∃ t, exec (.avsTrackTick true) s = .next t ∧
        fget t PWR_STATUS_VCMD = max (fget s PWR_STATUS_VCMD - 5) (fget s PWR_AVS_LIMIT_VMIN) ∧
        RegsBut [PWR_STATUS_VCMD.off] s t ∧ Unchanged [.regs, .pwr, .out] s t) ∧
    (fget s PWR_AVS_PACE_PACE_LO ≤ minPace s → minPace s ≤ fget s PWR_AVS_PACE_PACE_HI →
      exec (.avsTrackTick true) s = .next s)) ∧
  (∀ (s : State) (mv cur : Nat), fget s PWR_STATUS_BUS_FAIL = 0 →
    ∃ t, exec (.avsReadTick true mv cur) s = .next t ∧ fget t PWR_AVS_READ_VREAD = mv % 1024 ∧
      fget t PWR_AVS_READ_IREAD = cur % 65536 ∧ t.out = .avsRead :: s.out ∧ RegsBut [PWR_AVS_READ_VREAD.off] s t ∧
      Unchanged [.regs, .out] s t) ∧
  (∀ (s : State) (mv : Nat), s.pwr.avsPending = some mv →
    ∃ t, exec (.avsRetry true) s = .next t ∧ fget t PWR_STATUS_VCMD = mv % 1024 ∧ t.pwr.avsPending = none ∧
      t.out = .avsWrite mv :: s.out ∧ RegsBut [PWR_STATUS_VCMD.off] s t ∧ Unchanged [.regs, .pwr, .out] s t) ∧
  (∀ (s : State) (mv : Nat), s.pwr.avsPending = some mv → 2 ≤ s.pwr.avsRetry →
    ∃ t, exec (.avsRetry false) s = .next t ∧ fget t PWR_STATUS_BUS_FAIL = 1 ∧ t.pwr.avsPending = none ∧
      fget t PWR_STATUS_VCMD = fget s PWR_STATUS_VCMD ∧ Unchanged (.pwr :: reportParts) s t) ∧
  (∀ s : State, fget s PWR_STATUS_BUS_FAIL = 1 → fget s PWR_AVS_CTL_MODE = 0 →
    ∃ t, exec (.busFailClear true) s = .next t ∧ fget t PWR_STATUS_BUS_FAIL = 0 ∧
      fget t PWR_STATUS_VCMD = max (fget s PWR_AVS_LIMIT_VMIN) (min (fget s PWR_AVS_VSET_VSET) (fget s PWR_AVS_LIMIT_VMAX)) ∧
      RegsBut [PWR_STATUS_VCMD.off] s t ∧ Unchanged [.regs, .pwr, .out] s t))

/-- A request for a domain that takes requests is judged as it arrives: ON of a domain that is off and idle starts its
power-up (STARTED), ON of a domain that is on answers ALREADY, a domain that takes no request answers REFUSED; OFF of
a domain that may be off and is on starts its power-down. A drained domain switches off at the end of its power-down,
and an ON request latched meanwhile starts its power-up. At the end of the power-up of domain 196 or 197 the domain is
on where its self-test passes, and off with its unit retired where it fails. Selecting a listed item shows its latest
value, state and count together; an item code that is not listed sets RSV_WRITE and changes no other register. From
DISCOVERY on a VM tick enters item 0x009 as valid and keeps the voltage. A standstill measurement of a declared
winding or coil in service, taken quiescent and inside its limit, is entered as valid; one not quiescent reads
NOT_QUIESCENT. Each entry counts in COUNT up to 255. Where no Ozper partner has trained in DISCOVERY, its timeout lets
DISCOVERY go on. -/
def Obligations.DomainsAndParameters : Prop :=
  ((∀ (s : State) (d : Nat), d < 198 → (pdUnit d).isSome = true → pdPhase s d = 0 → pdOn s d = false →
    ∃ t, exec (.pdOnRequest d) s = .next t ∧ pdPhase t d = 1 ∧ fget t PWR_PD_REQ_RESULT = 1 ∧ fget t PWR_PD_REQ_DOMAIN = d ∧
      fbit t (PWR_PD_BUSY_BUSY.ix (d / 32) 4) (d % 32) = true ∧ pdOn t d = false ∧
      RegsBut [PWR_PD_REQ_RESULT.off, (PWR_PD_BUSY_BUSY.ix (d / 32) 4).off] s t ∧ Unchanged [.regs, .pwr] s t) ∧
  (∀ (s : State) (d : Nat), d < 198 → (pdUnit d).isSome = true → pdPhase s d = 0 → pdOn s d = true →
    ∃ t, exec (.pdOnRequest d) s = .next t ∧ fget t PWR_PD_REQ_RESULT = 4 ∧ fget t PWR_PD_REQ_DOMAIN = d ∧
      RegsBut [PWR_PD_REQ_RESULT.off] s t ∧ Unchanged [.regs] s t) ∧
  (∀ (s : State) (d : Nat), d < 198 → pdUnit d = none →
    ∃ t, exec (.pdOnRequest d) s = .next t ∧ fget t PWR_PD_REQ_RESULT = 3 ∧ RegsBut [PWR_PD_REQ_RESULT.off] s t ∧
      Unchanged [.regs] s t) ∧
  (∀ (s : State) (d : Nat), d < 198 → pdOffOk s d = true → pdPhase s d = 0 → pdOn s d = true →
    ¬ (167 ≤ d ∧ d < 183) → d ≠ 191 → d ≠ 192 →
    ∃ t, exec (.pdOffRequest d) s = .next t ∧ pdPhase t d = 2 ∧ fget t PWR_PD_REQ_RESULT = 1 ∧ pdOn t d = true ∧
      RegsBut [PWR_PD_REQ_RESULT.off, (PWR_PD_BUSY_BUSY.ix (d / 32) 4).off] s t ∧ Unchanged [.regs, .pwr] s t) ∧
  (∀ (s : State) (d : Nat), d = 196 ∨ d = 197 → pdPhase s d = 2 ∨ pdPhase s d = 3 →
    ∃ t, exec (.pdPowerDownDone d) s = .next t ∧ pdOn t d = false ∧
      pdPhase t d = (if fbit s (PWR_PD_PEND_PEND.ix (d / 32) 4) (d % 32) then 1 else 0) ∧
      fbit t (PWR_PD_PEND_PEND.ix (d / 32) 4) (d % 32) = false ∧ Unchanged [.regs, .pwr] s t) ∧
  (∀ (s : State) (d : Nat) (turning : Bool), d = 196 ∨ d = 197 → pdPhase s d = 1 → s.nv.tenants = [] →
    anyCut s = fbit s GLB_STATUS_REDUCTION 2 →
    ∃ t, exec (.pdPowerUpDone d true turning) s = .next t ∧ pdOn t d = true ∧ pdPhase t d = 0 ∧ Unchanged [.regs, .pwr] s t) ∧
  (∀ (s : State) (d : Nat) (turning : Bool), d = 196 ∨ d = 197 → pdPhase s d = 1 →
    ∃ t, exec (.pdPowerUpDone d false turning) s = .next t ∧ pdOn t d = false ∧ isRetired t (.other d) = true ∧
      pdPhase t d = 0 ∧ Unchanged (.pwr :: reportParts) s t)) ∧
  ((∀ (s : State) (item : Nat), paramListed item = true →
    ∃ t, exec (.paramSelect item) s = .next t ∧ fget t MSR_PARAM_SEL_ITEM = item % 4096 ∧
      fget t MSR_PARAM_VAL_VALUE = (if (param s item).2.1 = 0 then 0 else (param s item).1) % 2 ^ 32 ∧
      fget t MSR_PARAM_STAT_STATE = (param s item).2.1 % 8 ∧ fget t MSR_PARAM_STAT_COUNT = (param s item).2.2 % 256 ∧
      RegsBut [MSR_PARAM_SEL_ITEM.off, MSR_PARAM_VAL_VALUE.off, MSR_PARAM_STAT_STATE.off] s t ∧ Unchanged [.regs] s t) ∧
  (∀ (s : State) (item : Nat), paramListed item = false →
    ∃ t, exec (.paramSelect item) s = .next t ∧ fget t MSR_STATUS_RSV_WRITE = 1 ∧
      RegsBut [MSR_STATUS_RSV_WRITE.off] s t ∧ Unchanged [.regs] s t) ∧
  (∀ (s : State) (v : Word), s.phase ∉ [Phase.off, .loading, .selftest] →
    ∃ t, exec (.vmMeasureTick v) s = .next t ∧ param t 9 = (v.toNat, 1, min ((param s 9).2.2 + 1) 255) ∧
      t.pwr.vm = milli { item := 9, value := v, inTol := true } ∧ (∀ c, c ≠ 9 → param t c = param s c) ∧
      t.pwr.retired = s.pwr.retired ∧ t.pwr.pdPhase = s.pwr.pdPhase ∧ Unchanged [.pwr] s t) ∧
  (∀ (s : State) (m : Measured) (u : UnitId), itemUnit m.item = some u → m.item < 0x300 → m.item % 4 < 2 →
    unitDeclared s u = true → isRetired s u = false → Measured.code m = 1 →
    ∃ t, exec (.standstillMeasurement m true) s = .next t ∧
      param t m.item = (m.value.toNat, 1, min ((param s m.item).2.2 + 1) 255) ∧ (∀ c, c ≠ m.item → param t c = param s c) ∧
      t.pwr.retired = s.pwr.retired ∧ Unchanged [.pwr] s t) ∧
  (∀ (s : State) (m : Measured) (u : UnitId), itemUnit m.item = some u → m.item < 0x300 → m.item % 4 < 2 →
    unitDeclared s u = true → isRetired s u = false →
    ∃ t, exec (.standstillMeasurement m false) s = .next t ∧
      param t m.item = (nominalItem s m.item, 3, min ((param s m.item).2.2 + 1) 255) ∧ Unchanged [.pwr] s t) ∧
  (∀ s : State, s.phase = .discovery → (ringDeclared s).isSome = true → ozUp s 0 = false → ozUp s 1 = false →
    ∃ t, exec .ozperDiscoveryTimeout s = .next t ∧ t.loader.ozTmo = true ∧ ringReady t = true ∧ Unchanged [.loader] s t))

/-- A power-on reset by the pin leaves OFF with every register but GLB_RESET_CAUSE at the reset value of its table, no
command in flight, no open record, no queue and empty memories, while what lies in non-volatile media stays; an
internal one acts only in OFF. Releasing it in OFF begins LOADING: the host ports and the xSPI port are powered and
every port whose PERST_N is released trains. A warm-reset request (cause 2 from the pin, 3 from the control PF, 4 from
the management port) with none pending: in LOADING, SELFTEST, DISCOVERY and BEACON it only sets STOPPING and its
cause; in BALLAST it is latched; in BRINGUP, SERVING and DEGRADED it starts the warm stop, whose dump has cause 3; a
second request during a warm stop changes nothing. When the warm stop has ended, with no dump under way and no head
out, LOADING begins with the cause shown, KPR_HIST, its next RSEQ and KPR_SAFE kept, every other register at its reset
value but the power domains that LOADING turns on and GLB_RESET_CAUSE, and media kept. ENTER_SAFE in a working state
without a warm stop enters SAFE with source 0x020 and holds FOGHORN_N low; in BALLAST it is recorded and latched until
Ballast ends; in OFF, SAFE and BEACON it changes nothing. -/
def Obligations.ResetsAndSafeByCommand : Prop :=
  ((∀ s : State, ∃ t, exec (.porAssert false) s = .next t ∧ t.phase = .off ∧ t.nv = s.nv ∧ t.pending = s.pending ∧
      (∀ k, k ≠ GLB_RESET_CAUSE_CAUSE.off → rget t k = resetWord k) ∧ fget t GLB_RESET_CAUSE_CAUSE = 0 ∧ t.cmds = [] ∧
      t.qps = [] ∧ t.jrn = {} ∧ t.kpr = {} ∧ t.dmk = {} ∧ t.trw = {} ∧ t.udc = {} ∧ t.tenants = [] ∧ t.tb = {} ∧
      (∀ p < 6, (getPort t p).perst = (getPort s p).perst)) ∧
  (∀ s : State, s.phase ≠ .off → exec (.porAssert true) s = .next s) ∧
  (∀ s : State, s.phase = .off → ∃ t, exec (.porAssert true) s = .next t ∧ t.phase = .off ∧ fget t GLB_RESET_CAUSE_CAUSE = 1 ∧
      t.nv = s.nv) ∧
  (∀ s : State, s.phase = .off →
    ∃ t, exec .porRelease s = .next t ∧ t.phase = .loading ∧ (∀ d ∈ [0, 1, 2, 3, 4, 5, 195], pdOn t d = true) ∧
      (∀ p < 6, (getPort s p).perst = false → (getPort t p).training = true) ∧
      Unchanged [.phase, .regs, .ports, .dmk] s t)) ∧
  ((∀ (s : State) (i : Instr) (cause : Nat), (i, cause) ∈ [(Instr.warmRstPin, 2), (.warmReset false, 3), (.warmReset true, 4)] →
    s.rst.warm = none → s.rst.warmLatched = none →
    (s.phase ∈ [Phase.loading, .selftest, .discovery, .beacon] →
      ∃ t, exec i s = .next t ∧ t.rst.warm = some cause ∧ fget t GLB_STATE_STOPPING = 1 ∧
        RegsBut [GLB_STATE_STOPPING.off] s t ∧ Unchanged [.rst, .regs] s t) ∧
    (s.phase = .ballast →
      ∃ t, exec i s = .next t ∧ t.rst.warmLatched = some cause ∧ t.rst.warm = none ∧ Unchanged [.rst] s t) ∧
    (s.phase ∈ [Phase.bringup, .serving, .degraded] →
      ∃ t, exec i s = .next t ∧ t.bls.mode = 2 ∧ t.bls.cause = 3)) ∧
  (∀ (s : State) (i : Instr), i ∈ [Instr.warmRstPin, .warmReset false, .warmReset true] → s.rst.warm.isSome = true →
    exec i s = .next s) ∧
  (∀ (s : State) (c : Nat), s.rst.warm = some c → s.bls.mode = 0 → headsOut s = false →
    ∃ t, exec .warmStopEnd s = .next t ∧ t.phase = .loading ∧ fget t GLB_RESET_CAUSE_CAUSE = c % 8 ∧
      fget t GLB_RESET_CAUSE_FLUSH_DONE = b2n s.rst.flushDone ∧ (∀ k, keptKey k = true → rget t k = rget s k) ∧
      (∀ k, keptKey k = false → k ≠ GLB_RESET_CAUSE_CAUSE.off → ¬ (0x1601040 ≤ k ∧ k < 0x1601060) → rget t k = resetWord k) ∧
      t.nv = s.nv ∧ t.cmds = [] ∧ t.qps = [] ∧ t.rst.warm = none ∧ t.tb.ns = s.tb.ns ∧ t.kpr.order = s.kpr.order)) ∧
  ((∀ s : State, decidesSafe s →
    ∃ t, exec .enterSafe s = .next t ∧ t.phase = .safe ∧ fget t KPR_SAFE_VALID = 1 ∧ fget t KPR_SAFE_SOURCE = 0x020 ∧
      foghornLow t = true ∧ Unchanged reportParts s t) ∧
  (∀ s : State, s.phase = .ballast → s.rst.warm = none →
    ∃ t, exec .enterSafe s = .next t ∧ t.phase = .ballast ∧ t.kpr.safeLatched = some 0x020 ∧ Unchanged reportParts s t) ∧
  (∀ s : State, s.phase ∈ [Phase.off, .safe, .beacon] → exec .enterSafe s = .next s))

/-- The loader that starts in LOADING with TEST_EN goes to BEACON with cause 3, and without a fitting NOR with cause 2;
else, with a valid boot record and room for another, it appends a record with the next boot count and takes the slots
in the order R83 gives. A slot that fails a check leaves the order, and while another one is left LOADING goes on; the
last one leads to BEACON with cause 1. A slot that passes every check is shown in GLB_BOOT.SLOT and SELFTEST begins.
SELFTEST with no failed checker leads to DISCOVERY where the minimum service set holds and to BEACON with cause 4
where it does not; a failed checker of the always-on units or the mask ROM leads to BEACON with cause 5. DISCOVERY
with nothing out of tolerance, where no partner is waited for, leads to BRINGUP where the minimum service set holds.
BRINGUP whose restored slots are destaged opens the queues and enters SERVING, or DEGRADED where a reduction holds,
where the minimum service set holds. -/
def Obligations.BootToService : Prop :=
  ((∀ (s : State) (np so : Bool) (size : Nat), s.phase = .loading → s.loader.started = false →
    ∃ t, exec (.loaderStart true np so size) s = .next t ∧ t.phase = .beacon ∧ fget t GLB_BOOT_BEACON_CAUSE = 3 ∧
      t.loader.started = true ∧ t.nv = s.nv) ∧
  (∀ (s : State) (np so : Bool) (size : Nat), s.phase = .loading → s.loader.started = false →
    (np && so && decide (0x4000000 ≤ size) && decide (size ≤ 0x20000000)) = false →
    ∃ t, exec (.loaderStart false np so size) s = .next t ∧ t.phase = .beacon ∧ fget t GLB_BOOT_BEACON_CAUSE = 2 ∧
      t.nv = s.nv) ∧
  (∀ (s : State) (size : Nat) (r : BootRec) (nv : NonVolatile), s.phase = .loading → s.loader.started = false →
    0x4000000 ≤ size → size ≤ 0x20000000 → (currentRec s.nv).1 = some r →
    appendRec { s.nv with norSize := size }
      { seq := 0, bootCount := r.bootCount + 1, lastGood := r.lastGood
        trial := (slotOrder r.lastGood r.trial r.tries).2.1, tries := (slotOrder r.lastGood r.trial r.tries).2.2 } = some nv →
    ∃ t, exec (.loaderStart false true true size) s = .next t ∧ t.phase = .loading ∧ t.nv = nv ∧
      t.loader.order = (slotOrder r.lastGood r.trial r.tries).1 ∧ t.tb.boot = r.bootCount + 1 ∧
      fget t GLB_BOOTCNT_BOOT_COUNT = (r.bootCount + 1) % 2 ^ 32 ∧ fget t GLB_BOOT_TRIAL = (slotOrder r.lastGood r.trial r.tries).2.1 % 4 ∧
      RegsBut [GLB_BOOTCNT_BOOT_COUNT.off, GLB_BOOT_TRIAL.off] s t ∧ Unchanged [.tb, .rst, .regs, .nv, .loader] s t) ∧
  (∀ (s : State) (f : SlotFacts) (ok : Bool) (slot r : Nat) (rest : List Nat), s.phase = .loading →
    s.loader.started = true → s.loader.order = slot :: rest → slot ≠ s.loader.trial →
    slotReason s.nv.opHash s.nv.revoked (imageRules s f) f = some r → s.dmk.intake.length < 64 →
    ∃ t, exec (.slotChecked f ok) s = .next t ∧ t.loader.order = rest ∧ t.nv = s.nv ∧
      (slot = 1 → fget t GLB_BOOT_A_REASON = r % 16) ∧ (slot = 2 → fget t GLB_BOOT_B_REASON = r % 16) ∧
      (rest ≠ [] → t.phase = .loading) ∧ (rest = [] → t.phase = .beacon ∧ fget t GLB_BOOT_BEACON_CAUSE = 1)) ∧
  (∀ (s : State) (f : SlotFacts) (ok : Bool) (slot : Nat) (rest : List Nat), s.phase = .loading →
    s.loader.started = true → s.loader.order = slot :: rest →
    slotReason s.nv.opHash s.nv.revoked (imageRules s f) f = none →
    ∃ t, exec (.slotChecked f ok) s = .next t ∧ t.phase = .selftest ∧ fget t GLB_BOOT_SLOT = slot % 4)) ∧
  ((∀ (s : State) (turning : List Nat), s.phase = .selftest → minSet (mediaUp (sharedUp s) turning) = true →
    ∃ t, exec (.selftestDone [] turning) s = .next t ∧ t.phase = .discovery) ∧
  (∀ (s : State) (turning : List Nat), s.phase = .selftest → minSet (mediaUp (sharedUp s) turning) = false →
    ∃ t, exec (.selftestDone [] turning) s = .next t ∧ t.phase = .beacon ∧ fget t GLB_BOOT_BEACON_CAUSE = 4) ∧
  (∀ (s : State) (fails : List CheckerFail) (turning : List Nat), s.phase = .selftest → fails.any checkerFatal = true →
    ∃ t, exec (.selftestDone fails turning) s = .next t ∧ t.phase = .beacon ∧ fget t GLB_BOOT_BEACON_CAUSE = 5 ∧
      t.pwr.retired = s.pwr.retired ∧ Unchanged [.phase, .regs, .ports, .dmk] s t) ∧
  (∀ s : State, s.phase = .discovery → ringReady s = true → minSet (offRetired (payRecord s)) = true →
    ∃ t, exec (.discoveryDone [] []) s = .next t ∧ t.phase = .bringup) ∧
  (∀ s : State, s.phase = .discovery → ringReady s = true → minSet (offRetired (payRecord s)) = false →
    ∃ t, exec (.discoveryDone [] []) s = .next t ∧ t.phase = .beacon ∧ fget t GLB_BOOT_BEACON_CAUSE = 4) ∧
  (∀ (s : State) (jl bad : List Nat) (n : Nat), s.phase = .bringup → s.rst.warm = none → s.loader.stage = 1 →
    restoreEnded s = true →
    minSet (recomputeFloors (restoreTenants (modBls (resync s bad n) fun b => { b with restoring := false }))) = true →
    ∃ t, exec (.bringupDone jl bad n) s = .next t ∧ t.jrn.open_ = true ∧ t.loader.stage = 2 ∧
      t.phase = (if anyReduction t then .degraded else .serving) ∧ (∀ e ∈ t.qps, e.2.mode ≠ 1)))

/-- A NOR command while none is busy ends at once with the result of the first rule it breaks, or starts and sets BUSY;
one while another is busy sets OVERRUN and starts nothing. MARK_TRIAL of a reserved slot sets RSV_WRITE. At its end
BUSY clears: a read leaves the 1,024 words of the 4 KiB page in GLB_NOR_BUF with result 0, an erase leaves the 64 KiB
block reading 0xFF outside the boot records, a mark or a clear appends a boot record with the trial slot; an error of
the NOR gives result 4 and changes neither NOR nor buffer. -/
def Obligations.NorCommands : Prop :=
  (∀ (s : State) (i : Instr) (op slot : Nat),
    (i, op, slot) ∈ [(Instr.norRead, 1, 0), (.norProgram, 2, 0), (.norErase, 3, 0), (.markTrial 1, 4, 1), (.markTrial 2, 4, 2),
      (.clearTrial, 5, 0)] →
    (fget s GLB_NOR_STAT_BUSY = 1 →
      ∃ t, exec i s = .next t ∧ fget t GLB_NOR_STAT_OVERRUN = 1 ∧ t.norCmd = s.norCmd ∧
        RegsBut [GLB_NOR_STAT_OVERRUN.off] s t ∧ Unchanged [.regs] s t) ∧
    (fget s GLB_NOR_STAT_BUSY = 0 → norJudge s op (fget s GLB_NOR_ADDR_ADDR) slot = none →
      ∃ t, exec i s = .next t ∧ fget t GLB_NOR_STAT_BUSY = 1 ∧ t.norCmd = some ⟨op, fget s GLB_NOR_ADDR_ADDR, slot⟩ ∧
        RegsBut [GLB_NOR_STAT_BUSY.off] s t ∧ Unchanged [.regs, .norCmd] s t) ∧
    (∀ r, fget s GLB_NOR_STAT_BUSY = 0 → norJudge s op (fget s GLB_NOR_ADDR_ADDR) slot = some r →
      ∃ t, exec i s = .next t ∧ fget t GLB_NOR_STAT_RESULT = r ∧ fget t GLB_NOR_STAT_BUSY = 0 ∧
        RegsBut [GLB_NOR_STAT_RESULT.off] s t ∧ Unchanged [.regs] s t)) ∧
  (∀ (s : State) (slot : Nat), slot ≠ 1 → slot ≠ 2 →
    ∃ t, exec (.markTrial slot) s = .next t ∧ fget t GLB_STATUS_RSV_WRITE = 1 ∧ RegsBut [GLB_STATUS_RSV_WRITE.off] s t ∧
      Unchanged [.regs] s t) ∧
  (∀ (s : State) (addr : Nat), s.norCmd = some ⟨1, addr, 0⟩ →
    ∃ t, exec (.norCommandDone false false) s = .next t ∧ fget t GLB_NOR_STAT_BUSY = 0 ∧ fget t GLB_NOR_STAT_RESULT = 0 ∧
      (∀ i < 1024, fget t (norBufF i) = leValue ((List.range 4).map fun j => norByte s (addr + 4 * i + j))) ∧
      t.norCmd = none ∧ Unchanged [.regs, .norCmd] s t) ∧
  (∀ (s : State) (addr : Nat), s.norCmd = some ⟨3, addr, 0⟩ → 0x20000 ≤ addr →
    ∃ t, exec (.norCommandDone false false) s = .next t ∧ fget t GLB_NOR_STAT_RESULT = 0 ∧
      (∀ a, addr ≤ a → a < addr + 0x10000 → norByte t a = 0xFF) ∧
      (∀ a, a < addr ∨ addr + 0x10000 ≤ a → norByte t a = norByte s a) ∧ t.out = .norErase addr :: s.out ∧
      Unchanged [.regs, .norCmd, .nv, .out] s t) ∧
  (∀ (s : State) (op addr slot : Nat), op = 4 ∨ op = 5 → s.norCmd = some ⟨op, addr, slot⟩ →
    ∃ t, exec (.norCommandDone false false) s = .next t ∧ fget t GLB_NOR_STAT_RESULT = 0 ∧
      t.nv = appendErasing s.nv (trialRec s slot) ∧ t.norCmd = none ∧ Unchanged [.regs, .norCmd, .nv] s t) ∧
  (∀ (s : State) (c : NorCmd), s.norCmd = some c →
    ∃ t, exec (.norCommandDone true false) s = .next t ∧ fget t GLB_NOR_STAT_RESULT = 4 ∧ fget t GLB_NOR_STAT_BUSY = 0 ∧
      RegsBut [GLB_NOR_STAT_BUSY.off] s t ∧ Unchanged [.regs, .norCmd] s t)

/-- A released PERST_N makes its port train where it may. A training port that reaches L0 at an advertised rate and width
shows them, its capacity of Table 04-1 and LINK_UP, and stops training; no other port's link changes. A retrain at an
advertised rate and width shows the new capacity and counts. A port reset leaves the link down, no PUSH grant of the
port, and PERST_N as it is driven. -/
def Obligations.HostLinks : Prop :=
  (∀ (s : State) (p : Nat), p < 6 →
    ∃ t, exec (.perstRelease p) s = .next t ∧ (getPort t p).perst = false ∧ (getPort t p).training = portTrains s p ∧
      (∀ q, q ≠ p → getPort t q = getPort s q) ∧ Unchanged [.ports] s t) ∧
  (∀ (s : State) (p rate width : Nat) (flit rev : Bool), portTrains s p = true → (getPort s p).training = true →
    (getPort s p).perst = false → advertised s p rate width = true →
    ∃ t, exec (.linkUp p rate width flit rev) s = .next t ∧ fget t (HPT_LINK_DL_UP.ix p 0x1000) = 1 ∧
      fget t (HPT_LINK_RATE.ix p 0x1000) = rate ∧ fget t (HPT_LINK_WIDTH.ix p 0x1000) = width ∧
      fget t (HPT_CAPACITY_CAP.ix p 0x1000) = capacityOf rate width ∧ fbit t HPT_STATUS_LINK_UP p = true ∧
      (∀ q < 6, q ≠ p → fbit t HPT_STATUS_LINK_UP q = fbit s HPT_STATUS_LINK_UP q) ∧ (getPort t p).training = false ∧
      RegsBut [(HPT_LINK_DL_UP.ix p 0x1000).off, (HPT_CAPACITY_CAP.ix p 0x1000).off, HPT_STATUS_LINK_UP.off] s t ∧
      Unchanged [.regs, .ports] s t) ∧
  (∀ (s : State) (p rate width : Nat) (flit rev : Bool), p < 6 → fget s (HPT_LINK_DL_UP.ix p 0x1000) = 1 →
    advertised s p rate width = true →
    ∃ t, exec (.linkRetrain p rate width flit rev) s = .next t ∧ fget t (HPT_LINK_DL_UP.ix p 0x1000) = 1 ∧
      fget t (HPT_LINK_RATE.ix p 0x1000) = rate ∧ fget t (HPT_CAPACITY_CAP.ix p 0x1000) = capacityOf rate width ∧
      fget t (HPT_LINK_RETRAIN_CNT.ix p 0x1000) = min (fget s (HPT_LINK_RETRAIN_CNT.ix p 0x1000) + 1) 255 ∧
      RegsBut [(HPT_LINK_DL_UP.ix p 0x1000).off, (HPT_CAPACITY_CAP.ix p 0x1000).off, HPT_STATUS_LINK_UP.off] s t ∧
      Unchanged [.regs] s t) ∧
  (∀ (s : State) (p : Nat) (perst : Bool), p < 6 →
    ∃ t, exec (.portReset p perst) s = .next t ∧ (getPort t p).perst = perst ∧
      (∀ q, q ≠ p → getPort t q = getPort s q) ∧ (∀ e ∈ t.tenants, ∀ g ∈ e.2.grants, g.2.port ≠ p) ∧
      fget t (HPT_LINK_DL_UP.ix p 0x1000) = 0 ∧ t.nv.tenants = s.nv.tenants)

/-- A VF FLR of a VF that is not in teardown starts its teardown: its configuration space is at its reset value but for
AER, its queues are being deleted, and its tenant's volatile state stays. A PF FLR and a cleared VF Enable leave VF
Enable 0 with every VF of the port in teardown. Once the completions are waited for and nothing of the function is in
flight, its teardown ends: its queues are gone, HPT_FN_BUSY is clear, and a Bus Master Enable written meanwhile holds.
A completion timeout of a command in flight, with the timeout enabled and no teardown, counts in CPL_TMO, is logged
and reported in the function's AER, and ends the command with 0x0107. A successful completion marks the command's data
as fetched; a poisoned one counts in POISON_RX and ends the command with 0x0107; any other failure ends it too. -/
def Obligations.TeardownAndHostCompletions : Prop :=
  ((∀ (s : State) (p n : Nat), 0 < n → n < 1024 → fnExists s (fnId p n) = true → (getFn s (fnId p n)).teardown = 0 →
    ∃ t, exec (.vfFlr p n) s = .next t ∧ (getFn t (fnId p n)).teardown = 1 ∧ (getFn t (fnId p n)).bme = false ∧
      (getFn t (fnId p n)).msixEn = false ∧ (getFn t (fnId p n)).aer = (getFn s (fnId p n)).aer ∧
      (∀ f, f ≠ fnId p n → getFn t f = getFn s f) ∧ (∀ e ∈ t.qps, e.1 / 16 = fnId p n → e.2.mode = 3) ∧
      t.tenants = s.tenants ∧ t.nv = s.nv) ∧
  (∀ (s : State) (p : Nat), fnExists s (fnId p 0) = true → (getFn s (fnId p 0)).teardown = 0 →
    ∃ t, exec (.pfFlr p) s = .next t ∧ (getFn t (fnId p 0)).teardown = 1 ∧ (getFn t (fnId p 0)).vfEnable = false ∧
      ∀ f ∈ liveVfs s p, 0 < (getFn t f).teardown) ∧
  (∀ (s : State) (p : Nat), fnExists s (fnId p 0) = true → (getFn s (fnId p 0)).vfEnable = true →
    ∃ t, exec (.vfEnableClear p) s = .next t ∧ (getFn t (fnId p 0)).vfEnable = false ∧
      (getFn t (fnId p 0)).teardown = (getFn s (fnId p 0)).teardown ∧ ∀ f ∈ liveVfs s p, 0 < (getFn t f).teardown) ∧
  (∀ (s : State) (p n : Nat), (getFn s (fnId p n)).teardown = 1 → fnBusyCmds s (fnId p n) = false →
    ∃ t, exec (.teardownCompletionWaitEnd p n) s = .next t ∧ (getFn t (fnId p n)).teardown = 3 ∧
      (∀ f, f ≠ fnId p n → getFn t f = getFn s f) ∧ Unchanged [.fns] s t) ∧
  (∀ (s : State) (p n : Nat), p < 6 → n < 1024 → (getFn s (fnId p n)).teardown = 3 → (getFn s (fnId p n)).latchAq = none →
    ∃ t, exec (.teardownEnd p n) s = .next t ∧ (getFn t (fnId p n)).teardown = 0 ∧
      (getFn t (fnId p n)).bme = (getFn s (fnId p n)).latchBme.getD (getFn s (fnId p n)).bme ∧
      (∀ e ∈ t.qps, e.1 / 16 ≠ fnId p n) ∧ (∀ f, f ≠ fnId p n → getFn t f = getFn s f) ∧
      fbit t ((HPT_FN_BUSY_BUSY.ix p 0x1000).ix (n / 32) 4) (n % 32) = false ∧ Unchanged [.fns, .qps, .regs, .ports] s t)) ∧
  ((∀ (s : State) (fid q n : Nat) (c : Cmd), (getFn s fid).teardown = 0 → (getFn s fid).cplDisable = false → fidPort fid < 6 →
    getCmd s n = some c → c.done = none →
    ∃ t, exec (.hostCompletionTimeout fid q (some n)) s = .next t ∧
      (∃ d, getCmd t n = some d ∧ d.done = some 0x0107 ∧ d.sqe = c.sqe ∧ d.fid = c.fid ∧ d.q = c.q) ∧
      fget t (HPT_ERR_CNT0_CPL_TMO.ix (fidPort fid) 0x1000) =
        min (fget s (HPT_ERR_CNT0_CPL_TMO.ix (fidPort fid) 0x1000) + 1) 255 ∧ 3 ∈ (getFn t fid).aer ∧
      (∀ m, m ≠ n → getCmd t m = getCmd s m) ∧ Unchanged [.regs, .fns, .out, .cmds] s t) ∧
  (∀ (s : State) (fid q n : Nat) (c : Cmd), (getFn s fid).teardown ≠ 3 → fidPort fid < 6 → getCmd s n = some c →
    c.done = none →
    ∃ t, exec (.hostCompletionArrival fid q (some n) 0) s = .next t ∧ getCmd t n = some { c with fetched := true } ∧
      (∀ m, m ≠ n → getCmd t m = getCmd s m) ∧ Unchanged [.cmds] s t) ∧
  (∀ (s : State) (fid q n status : Nat) (c : Cmd), (getFn s fid).teardown = 0 → fidPort fid < 6 → getCmd s n = some c →
    c.done = none → 0 < status →
    ∃ t, exec (.hostCompletionArrival fid q (some n) status) s = .next t ∧
      (∃ d, getCmd t n = some d ∧ d.done = some 0x0107 ∧ d.sqe = c.sqe) ∧
      (status = 3 → fget t (HPT_ERR_CNT0_POISON_RX.ix (fidPort fid) 0x1000) =
        min (fget s (HPT_ERR_CNT0_POISON_RX.ix (fidPort fid) 0x1000) + 1) 255 ∧ 2 ∈ (getFn t fid).aer) ∧
      (status ≠ 3 → 4 ∈ (getFn t fid).aer) ∧ Unchanged [.regs, .fns, .out, .cmds] s t))

/-- A configuration request over a link that is up is answered with retry in LOADING; for a function that exists and is
not held back, its identity, NumVFs and TotalVFs are answered, a VF Enable of 1 and the MSI-X enable are taken, and a
request for a function that does not exist is unsupported. NumVFs within TotalVFs is taken while VF Enable is 0. Bus
Master Enable and the D-state are taken, and during a teardown Bus Master Enable is latched. Unmasking a vector sends
the message it holds where the function may send. -/
def Obligations.FunctionConfiguration : Prop :=
  (∀ (s : State) (p n : Nat) (op : CfgOp), p < 6 → fget s (HPT_LINK_DL_UP.ix p 0x1000) = 1 → s.phase = .loading →
    ∃ t, exec (.configRequest p n op) s = .next t ∧ t.out = .cfgRetry (fnId p n) :: s.out ∧ Unchanged [.out] s t) ∧
  (∀ (s : State) (p n : Nat), p < 6 → n < 1024 → fget s (HPT_LINK_DL_UP.ix p 0x1000) = 1 → s.phase ≠ .loading →
    (getPort s p).inReset = false → (n = 0 ∨ (getFn s (fnId p n)).teardown = 0) →
    (fnExists s (fnId p n) = false → ∀ op, ∃ t, exec (.configRequest p n op) s = .next t ∧
      t.out = .unsupported (fnId p n) :: s.out ∧ Unchanged [.out] s t) ∧
    (fnExists s (fnId p n) = true →
      (∃ t, exec (.configRequest p n .readId) s = .next t ∧
        t.out = .cfgData (fnId p n) (if n = 0 then 0x1284D1A7 else 0x1285D1A7) :: s.out ∧ Unchanged [.out] s t) ∧
      (n = 0 → ∃ t, exec (.configRequest p n .readTotalVfs) s = .next t ∧
        t.out = .cfgData (fnId p n) (8 * fget s (HPT_FUNCS_VF_BLOCKS.ix p 0x1000)) :: s.out ∧ Unchanged [.out] s t) ∧
      (∃ t, exec (.configRequest p n .readNumVfs) s = .next t ∧
        t.out = .cfgData (fnId p n) (if n = 0 then (getFn s (fnId p n)).numVfs else 0) :: s.out ∧ Unchanged [.out] s t) ∧
      (∃ t, exec (.configRequest p n (.writeMsixEnable true)) s = .next t ∧ (getFn t (fnId p n)).msixEn = true ∧
        Unchanged [.fns, .out] s t) ∧
      (n = 0 → (getFn s (fnId p n)).teardown = 0 → portTearing s p = false →
        ∃ t, exec (.configRequest p n (.writeVfEnable true)) s = .next t ∧ (getFn t (fnId p n)).vfEnable = true ∧
          Unchanged [.fns] s t))) ∧
  (∀ (s : State) (p v : Nat), fnExists s (fnId p 0) = true → (getFn s (fnId p 0)).vfEnable = false →
    v ≤ 8 * fget s (HPT_FUNCS_VF_BLOCKS.ix p 0x1000) →
    ∃ t, exec (.numvfsWrite p v) s = .next t ∧ (getFn t (fnId p 0)).numVfs = v ∧
      (∀ f, f ≠ fnId p 0 → getFn t f = getFn s f) ∧ Unchanged [.fns] s t) ∧
  (∀ (s : State) (p n : Nat) (on : Bool), fnExists s (fnId p n) = true → (getFn s (fnId p n)).teardown = 0 →
    ∃ t, exec (.busMasterEnableWrite p n on) s = .next t ∧ (getFn t (fnId p n)).bme = on ∧
      (∀ f, f ≠ fnId p n → getFn t f = getFn s f) ∧ Unchanged [.fns, .out] s t) ∧
  (∀ (s : State) (p n : Nat) (on : Bool), fnExists s (fnId p n) = true → 0 < (getFn s (fnId p n)).teardown →
    ∃ t, exec (.busMasterEnableWrite p n on) s = .next t ∧ (getFn t (fnId p n)).latchBme = some on ∧
      (getFn t (fnId p n)).bme = (getFn s (fnId p n)).bme ∧ Unchanged [.fns] s t) ∧
  (∀ (s : State) (p n : Nat) (d3 : Bool), fnExists s (fnId p n) = true →
    ∃ t, exec (.dstateChange p n d3) s = .next t ∧ (getFn t (fnId p n)).d3 = d3 ∧ Unchanged [.fns, .out] s t) ∧
  (∀ (s : State) (p n vec : Nat), fnExists s (fnId p n) = true → vec < (if n = 0 then 64 else 8) →
    ∃ t, exec (.msixUnmask p n vec) s = .next t ∧ (tget {} (getFn t (fnId p n)).vectors vec).masked = false ∧
      ((tget {} (getFn s (fnId p n)).vectors vec).pending = true → (getFn s (fnId p n)).msixEn = true →
        (getFn s (fnId p n)).msixMask = false → (getFn s (fnId p n)).live = true → (getFn s (fnId p n)).teardown = 0 →
        Out.msix (fnId p n) vec ∈ t.out) ∧ Unchanged [.fns, .out] s t)

/-- With no teardown and no warm stop: a tail below the size of an existing queue stands and ends the wait of stale
entries; a tail or queue that R138 refuses sets its SQ_ERR bit and changes no queue; a head that releases only written
entries stands, another one sets CQ_ERR. XQ_AQ_CFG with EN 1 and lawful fields creates the admin pair with the size,
vector and bases that were written; with EN 0 and no I/O pair and nothing in flight it deletes it; during a teardown
it is latched. -/
def Obligations.DoorbellsAndAdminQueue : Prop :=
  (∀ (s : State) (fid q tail : Nat), q < 9 → (getFn s fid).teardown = 0 → s.rst.warm = none → (getQp s fid q).mode ≠ 0 →
    tail < (getQp s fid q).size →
    ∃ t, exec (.sqDoorbell fid q tail) s = .next t ∧ getQp t fid q = { getQp s fid q with sqTail := tail, stale := false } ∧
      (∀ f r, r < 16 → qpKey f r ≠ qpKey fid q → getQp t f r = getQp s f r) ∧ Unchanged [.qps] s t) ∧
  (∀ (s : State) (fid q tail : Nat), q < 9 → (getFn s fid).teardown = 0 → s.rst.warm = none →
    (getQp s fid q).mode = 0 ∨ (getQp s fid q).size ≤ tail →
    ∃ t, exec (.sqDoorbell fid q tail) s = .next t ∧ fbit t (xqF s fid XQ_DBERR_SQ_ERR) q = true ∧
      RegsBut [(xqF s fid XQ_DBERR_SQ_ERR).off] s t ∧ Unchanged [.regs] s t) ∧
  (∀ (s : State) (fid q head : Nat), q < 9 → (getFn s fid).teardown = 0 → s.rst.warm = none → (getQp s fid q).mode ≠ 0 →
    head < (getQp s fid q).size →
    (head + (getQp s fid q).size - (getQp s fid q).cqHead) % (getQp s fid q).size ≤ (getQp s fid q).unread →
    ∃ t, exec (.cqDoorbell fid q head) s = .next t ∧ getQp t fid q = { getQp s fid q with cqHead := head } ∧
      Unchanged [.qps] s t) ∧
  (∀ (s : State) (fid q head : Nat), q < 9 → (getFn s fid).teardown = 0 → s.rst.warm = none →
    (getQp s fid q).mode = 0 ∨ (getQp s fid q).size ≤ head →
    ∃ t, exec (.cqDoorbell fid q head) s = .next t ∧ fbit t (xqF s fid XQ_DBERR_CQ_ERR) q = true ∧
      RegsBut [(xqF s fid XQ_DBERR_CQ_ERR).off] s t ∧ Unchanged [.regs] s t) ∧
  (∀ (s : State) (fid : Nat) (v : Word), (fidVf fid ≠ 0 ∨ fid = ctlFid s) → (getFn s fid).teardown = 0 →
    fget s (xqF s fid XQ_AQ_CFG_EN) = 0 → (getQp s fid 0).mode ≠ 3 → bitsGet v 16 1 = 1 → 4 ≤ bitsGet v 0 4 →
    bitsGet v 0 4 ≤ 12 → (fidVf fid = 0 ∨ bitsGet v 8 6 < 8) →
    ∃ t, exec (.aqCfgWrite fid v) s = .next t ∧ fget t (xqF s fid XQ_AQ_CFG_EN) = 1 ∧
      (getQp t fid 0).size = 2 ^ bitsGet v 0 4 ∧ (getQp t fid 0).vector = bitsGet v 8 6 ∧
      (getQp t fid 0).sqBase = (aqBases s fid).1 ∧ (getQp t fid 0).cqBase = (aqBases s fid).2 ∧
      (getQp t fid 0).mode = (if s.jrn.open_ then 2 else 1) ∧ RegsBut [xqBase s fid + 0x800] s t ∧
      Unchanged [.regs, .qps] s t) ∧
  (∀ (s : State) (fid : Nat) (v : Word), (fidVf fid ≠ 0 ∨ fid = ctlFid s) → (getFn s fid).teardown = 0 →
    fget s (xqF s fid XQ_AQ_CFG_EN) = 1 → bitsGet v 16 1 = 0 → bitsGet v 0 14 = bitsGet (rget s (xqBase s fid + 0x800)) 0 14 →
    hasIoPair s fid = false → qpBusyCmds s fid 0 = false →
    ∃ t, exec (.aqCfgWrite fid v) s = .next t ∧ getQp t fid 0 = {} ∧ fget t (xqF s fid XQ_AQ_CFG_EN) = 0 ∧
      RegsBut [xqBase s fid + 0x800] s t) ∧
  (∀ (s : State) (fid : Nat) (v : Word), (fidVf fid ≠ 0 ∨ fid = ctlFid s) → 0 < (getFn s fid).teardown →
    bitsGet v 16 1 = 1 →
    ∃ t, exec (.aqCfgWrite fid v) s = .next t ∧
      (getFn t fid).latchAq = some (v.toNat % 0x10000 + 0x10000, (aqBases s fid).1, (aqBases s fid).2) ∧
      Unchanged [.fns] s t)

/-- SQE_FETCH reads up to eight entries of the queue arbitration selects and remembers how many it waits for. An entry
that a fetch brought, with the expected PHASE and room in the journal, takes the next SEQ: where the checks of Table
05-9 pass it is ACCEPTED and in flight, with the queue's head moved on; where one fails and completions may be sent,
its journal entry is FAILED with the status, its completion is posted and nothing of it stays in flight. A first entry
with a stale PHASE is not accepted, and the queue waits for the next doorbell. An action on a frozen ready queue with
nothing outstanding, outside SAFE and BALLAST, ends the freeze with result DONE: NEXT keeps the head, SKIP moves it
over that many submitted entries, RESET empties both rings. With commands outstanding it is latched with result
PENDING, and RESUME_APPLY does it once nothing is outstanding. A queue that is not frozen answers NOT_FROZEN and stays
as it is. -/
def Obligations.FetchAcceptResume : Prop :=
  ((∀ (s : State) (fid q : Nat), selectQueue s fid = some q →
    ∃ t, exec (.sqeFetch fid) s = .next t ∧ (getQp t fid q).fetching = fetchable s fid q ∧
      (getQp t fid q).sqHead = (getQp s fid q).sqHead ∧ (getFn t fid).rr = q ∧ Unchanged [.out, .qps, .fns] s t) ∧
  (∀ (s : State) (fid q : Nat) (e : Sqe), (getQp s fid q).fetching = 1 → (getQp s fid q).mode = 2 →
    ((e.flags / 128 % 2 == 1) == (getQp s fid q).sqPhase) = true → jrnRoom s = true → s.jrn.waiting = [] → q ≠ 0 → q < 16 →
    controlPending s (tenantOf s fid) = false → (getQp s fid q).v2 = true → ioStatus s (tenantOf s fid) e true = 0 →
    ∃ t c, exec (.sqeFetched fid q [e]) s = .next t ∧ getCmd t s.jrn.next = some c ∧ c.fid = fid ∧ c.q = q ∧ c.sqe = e ∧
      c.tenant = tenantOf s fid ∧ c.done = none ∧ c.bound = none ∧ t.jrn.next = s.jrn.next + 1 ∧
      (tget {} t.jrn.ring (jrnSlot s.jrn.next)).state = 1 ∧ (tget {} t.jrn.ring (jrnSlot s.jrn.next)).seq = s.jrn.next ∧
      (getQp t fid q).sqHead = (getQp s fid q).adv (getQp s fid q).sqHead 1 ∧
      (getQp t fid q).out = (getQp s fid q).out + 1 ∧ (getQp t fid q).fetching = 0 ∧
      Unchanged [.qps, .jrn, .cmds, .out] s t) ∧
  (∀ (s : State) (fid q : Nat) (e : Sqe), (getQp s fid q).fetching = 1 → (getQp s fid q).mode = 2 →
    ((e.flags / 128 % 2 == 1) == (getQp s fid q).sqPhase) = true → jrnRoom s = true → s.jrn.waiting = [] → q ≠ 0 → q < 16 →
    controlPending s (tenantOf s fid) = false → (getQp s fid q).v2 = true → ioStatus s (tenantOf s fid) e true ≠ 0 →
    (getFn s fid).live = true →
    ∃ t hd fr ph, exec (.sqeFetched fid q [e]) s = .next t ∧ getCmd t s.jrn.next = none ∧
      Out.cqe fid q e.cid (ioStatus s (tenantOf s fid) e true) hd fr ph (s.jrn.next % 2 ^ 32) ∈ t.out ∧
      (tget {} t.jrn.ring (jrnSlot s.jrn.next)).state = 3 ∧
      (tget {} t.jrn.ring (jrnSlot s.jrn.next)).status = ioStatus s (tenantOf s fid) e true ∧
      t.jrn.next = s.jrn.next + 1 ∧ (getQp t fid q).frozen = true) ∧
  (∀ (s : State) (fid q : Nat) (e : Sqe), (getQp s fid q).fetching = 1 → (getQp s fid q).mode = 2 →
    ((e.flags / 128 % 2 == 1) == (getQp s fid q).sqPhase) = false →
    ∃ t, exec (.sqeFetched fid q [e]) s = .next t ∧ (getQp t fid q).stale = true ∧ (getQp t fid q).fetching = 0 ∧
      t.jrn = s.jrn ∧ t.cmds = s.cmds ∧ Unchanged [.qps] s t)) ∧
  ((∀ (s : State) (fid q : Nat), q < 9 → s.phase ≠ .safe → s.phase ≠ .ballast → (getQp s fid q).mode ≠ 0 →
    (getQp s fid q).mode ≠ 3 →
    ((getQp s fid q).frozen = true → (getQp s fid q).out = 0 → (getQp s fid q).fetching = 0 →
      (∃ t, exec (.xqResumeNext fid q) s = .next t ∧ (getQp t fid q).frozen = false ∧
        (getQp t fid q).sqHead = (getQp s fid q).sqHead ∧ (getQp t fid q).cqTail = (getQp s fid q).cqTail ∧
        fget t (xqF s fid XQ_RESUME_STAT_RESULT) = 1) ∧
      (∀ n, 0 < n → n ≤ (getQp s fid q).waiting →
        ∃ t, exec (.xqResumeSkip fid q n) s = .next t ∧ (getQp t fid q).frozen = false ∧
          (getQp t fid q).sqHead = (getQp s fid q).adv (getQp s fid q).sqHead n ∧
          fget t (xqF s fid XQ_RESUME_STAT_RESULT) = 1) ∧
      (∃ t, exec (.xqResumeReset fid q) s = .next t ∧ (getQp t fid q).frozen = false ∧ (getQp t fid q).sqHead = 0 ∧
        (getQp t fid q).sqTail = 0 ∧ (getQp t fid q).cqHead = 0 ∧ (getQp t fid q).cqTail = 0 ∧
        (getQp t fid q).sqPhase = true ∧ fget t (xqF s fid XQ_RESUME_STAT_RESULT) = 1)) ∧
    ((getQp s fid q).frozen = true → 0 < (getQp s fid q).out →
      ∃ t, exec (.xqResumeNext fid q) s = .next t ∧ (getQp t fid q).resume = some (1, 0, 0) ∧
        (getQp t fid q).frozen = true ∧ fget t (xqF s fid XQ_RESUME_STAT_RESULT) = 2 ∧ Unchanged [.qps, .regs] s t) ∧
    ((getQp s fid q).frozen = false →
      ∃ t, exec (.xqResumeReset fid q) s = .next t ∧ fget t (xqF s fid XQ_RESUME_STAT_RESULT) = 3 ∧ Unchanged [.regs] s t)) ∧
  (∀ (s : State) (fid q : Nat), q < 9 → s.phase ≠ .safe → s.phase ≠ .ballast → (getQp s fid q).out = 0 →
    (getQp s fid q).fetching = 0 → (getQp s fid q).resume = some (1, 0, 0) →
    ∃ t, exec (.resumeApply fid q) s = .next t ∧ (getQp t fid q).frozen = false ∧ (getQp t fid q).resume = none ∧
      (getQp t fid q).sqHead = (getQp s fid q).sqHead ∧ fget t (xqF s fid XQ_RESUME_STAT_RESULT) = 1))

/-- A command that has ended, whose function may issue requests, leaves flight: its journal entry is COMPLETED for status
0 and FAILED with the status otherwise, and one completion entry with its CID, status and result is written. A persist
tick with no marker waiting leaves every entry persisted, so that XQ_JRN_PERSIST shows the next SEQ, and issues no
SEQ. A piece of an I/O command that has not ended starts: at most 4 MiB are charged to it. Where its class has a
ceiling, it takes one token for each 4 KiB, and without the tokens the command waits with nothing charged. A refill of
a bucket with a nonzero ceiling adds a token up to the bucket's depth. After a change of capacity GLB_STATUS.REDUCTION
bit 2 says whether a floor is cut. A known-answer test that passes changes nothing. A failed one, and a lockstep
mismatch, of a lane in service counts, takes the lane out of service and retires it for good; a lane out of service is
not tested. -/
def Obligations.CompletionsContractsLanes : Prop :=
  ((∀ (s : State) (seq status : Nat) (c : Cmd) (e : JrnEntry), getCmd s seq = some c → c.done = some status →
    c.noCqe = false → c.bound = none → c.slots = [] → (getFn s c.fid).live = true →
    tget {} s.jrn.ring (jrnSlot seq) = e → e.seq = seq → e.state = 1 →
    ∃ t hd fr ph, exec (.commandComplete seq) s = .next t ∧ getCmd t seq = none ∧
      Out.cqe c.fid c.q c.sqe.cid status hd fr ph c.result ∈ t.out ∧
      (tget {} t.jrn.ring (jrnSlot seq)).state = (if status = 0 then 2 else 3) ∧
      (tget {} t.jrn.ring (jrnSlot seq)).status = status ∧ t.jrn.next = s.jrn.next ∧
      (∀ m, m ≠ seq → getCmd t m = getCmd s m) ∧ Unchanged [.regs, .out, .fns, .qps, .cmds, .jrn, .udc] s t) ∧
  (∀ s : State, s.jrn.waiting = [] →
    ∃ t, exec .journalPersistTick s = .next t ∧ jrnPersist t = s.jrn.next ∧ t.jrn.next = s.jrn.next ∧
      Unchanged [.jrn, .nv] s t)) ∧
  ((∀ (s : State) (seq : Nat) (c : Cmd), getCmd s seq = some c → c.admin = false → c.done = none → c.charged < c.chargeBytes →
    (chargedClass s c.tenant c.cls = none →
      ∃ t, exec (.pieceStart seq) s = .next t ∧
        getCmd t seq = some { c with charged := c.charged + min 4194304 (c.chargeBytes - c.charged) } ∧ Unchanged [.cmds] s t) ∧
    (∀ k r x, chargedClass s c.tenant c.cls = some (k, r) → ceilOf r c.writes = some x →
      ((min 4194304 (c.chargeBytes - c.charged) + 4095) / 4096 ≤ (getDir s c.tenant k c.writes).tokens →
        ∃ t, exec (.pieceStart seq) s = .next t ∧
          getCmd t seq = some { c with charged := c.charged + min 4194304 (c.chargeBytes - c.charged) } ∧
          (getDir t c.tenant k c.writes).tokens = (getDir s c.tenant k c.writes).tokens -
            (min 4194304 (c.chargeBytes - c.charged) + 4095) / 4096 ∧ Unchanged [.cmds, .tenants] s t) ∧
      ((getDir s c.tenant k c.writes).tokens < (min 4194304 (c.chargeBytes - c.charged) + 4095) / 4096 →
        ∃ t, exec (.pieceStart seq) s = .next t ∧ getCmd t seq = some c ∧
          (getDir t c.tenant k c.writes).tokens = (getDir s c.tenant k c.writes).tokens ∧ Unchanged [.tenants] s t))) ∧
  (∀ (s : State) (t n x : Nat) (wr : Bool) (c : ClassRec), (contractOf s t).getD n none = some c → ceilOf c wr = some (x + 1) →
    ∃ u, exec (.buoyRefill t n wr) s = .next u ∧
      (getDir u t n wr).tokens = min ((getDir s t n wr).tokens + 1) (bucketDepth c wr) ∧
      (getDir u t n wr).deficit = (getDir s t n wr).deficit ∧ Unchanged [.tenants] s u) ∧
  (∀ s : State, ∃ t, exec .capacityChange s = .next t ∧ fbit t GLB_STATUS_REDUCTION 2 = anyCut t)) ∧
  ((∀ (s : State) (l : Nat), exec (.maskingKatTick l true) s = .next s) ∧
  (∀ (s : State) (l : Nat), l < 16 → fbit s MSK_LANES_IN_SERVICE l = true →
    ∃ t, exec (.maskingKatTick l false) s = .next t ∧ fbit t MSK_LANES_IN_SERVICE l = false ∧
      fbit t MSK_LANES_RETIRED l = true ∧ isRetired t (.maskLane l) = true ∧
      fget t MSK_ERR_CNT_KAT_FAIL = min (fget s MSK_ERR_CNT_KAT_FAIL + 1) (2 ^ MSK_ERR_CNT_KAT_FAIL.w - 1)) ∧
  (∀ (s : State) (l : Nat), l < 16 → fbit s MSK_LANES_IN_SERVICE l = true →
    ∃ t, exec (.maskingLockstepMismatch l) s = .next t ∧ fbit t MSK_LANES_IN_SERVICE l = false ∧
      fbit t MSK_LANES_RETIRED l = true ∧ isRetired t (.maskLane l) = true ∧
      fget t MSK_ERR_CNT_LOCKSTEP = min (fget s MSK_ERR_CNT_LOCKSTEP + 1) (2 ^ MSK_ERR_CNT_LOCKSTEP.w - 1)))

/-- A command that may be dispatched, that no more urgent one outranks and whose medium lets it run, is bound to the free
context that dispatch chooses: the context is busy, runs for the command's function and tenant and fetches the first
word of its flow, a Skim flow's entry for OPERATOR_OPCODE, whose registers then hold the submission entry; no other
context changes. A data-changing command whose medium takes no changes ends with that status; an opcode with no Skim
flow bound ends with 0x0106. -/
def Obligations.CommandsReachContexts : Prop :=
  (∀ (s : State) (n t x : Nat) (c : Cmd), getCmd s n = some c → isSkim c.sqe.opc = false → dispatchable s n c = true →
    outranked s c = false → (c.changes = true → changeBar s (cmdNs s c).pool = 0) → pickContext s = some (t, x) →
    ∃ u, exec (.flowDispatch n) s = .next u ∧ (∃ d, getCmd u n = some d ∧ d.bound = some (t, x) ∧ d.sqe = c.sqe) ∧
      (getCtx u (ctxKey t x)).busy = true ∧ (getCtx u (ctxKey t x)).seq = some n ∧ (getCtx u (ctxKey t x)).fid = c.fid ∧
      (getCtx u (ctxKey t x)).tenant = c.tenant ∧ (getCtx u (ctxKey t x)).pc = Config.vendorEntry c.sqe.opc ∧
      (∀ k, k ≠ ctxKey t x → getCtx u k = getCtx s k) ∧ (∀ m, m ≠ n → getCmd u m = getCmd s m) ∧
      Unchanged [.cmds, .trw, .udc, .freeCtr] s u) ∧
  (∀ (s : State) (n : Nat) (c : Cmd), getCmd s n = some c → isSkim c.sqe.opc = false → dispatchable s n c = true →
    outranked s c = false → c.changes = true → changeBar s (cmdNs s c).pool ≠ 0 →
    ∃ u, exec (.flowDispatch n) s = .next u ∧
      getCmd u n = some { c with done := some (changeBar s (cmdNs s c).pool), result := n % 2 ^ 32 } ∧
      (∀ m, m ≠ n → getCmd u m = getCmd s m) ∧ Unchanged [.cmds] s u) ∧
  (∀ (s : State) (n t x e : Nat) (c : Cmd), getCmd s n = some c → isSkim c.sqe.opc = true → dispatchable s n c = true →
    outranked s c = false → pickContext s = some (t, x) → skimEntry s c.sqe.opc = some e →
    ∃ u, exec (.operatorOpcode n) s = .next u ∧ (∃ d, getCmd u n = some d ∧ d.bound = some (t, x) ∧ d.sqe = c.sqe) ∧
      (getCtx u (ctxKey t x)).busy = true ∧ (getCtx u (ctxKey t x)).seq = some n ∧ (getCtx u (ctxKey t x)).pc = e ∧
      gReg (getCtx u (ctxKey t x)) 2 = BitVec.ofNat 64 (sqeWord c.sqe 0) ∧
      gReg (getCtx u (ctxKey t x)) 11 = BitVec.ofNat 64 n ∧ gReg (getCtx u (ctxKey t x)) 0 = 0 ∧
      (∀ k, k ≠ ctxKey t x → getCtx u k = getCtx s k) ∧ Unchanged [.cmds, .trw, .udc] s u) ∧
  (∀ (s : State) (n : Nat) (c : Cmd), getCmd s n = some c → isSkim c.sqe.opc = true → dispatchable s n c = true →
    skimEntry s c.sqe.opc = none →
    ∃ u, exec (.operatorOpcode n) s = .next u ∧ getCmd u n = some { c with done := some 0x0106, result := n % 2 ^ 32 } ∧
      (∀ m, m ≠ n → getCmd u m = getCmd s m) ∧ Unchanged [.cmds] s u)

/-- A running READ or VERIFY with no earlier overlapping change waiting: where every block reads, it ends with status 0,
in v2 with the CRC-32C of the data as RESULT and with 0x0109 where ITAG_CHK is set and ITAG differs, in v1 with its
SEQ as RESULT; READ writes the blocks to the host buffer, VERIFY writes nothing there; what is stored does not change.
Where a block fails it ends with the status of the first block that fails. While an earlier change is pending it
waits. -/
def Obligations.ReadAndVerify : Prop :=
  (∀ (s : State) (n : Nat) (c : Cmd) (bad : List BadBlock), running s n 2 = some c → earlierChange s n c = false →
    spanStatus (readSpan s c.tenant c.sqe.nsid (cmdNs s c).pool c.sqe.slba (c.sqe.nlb + 1) bad) = 0 →
    ∃ t, exec (.read n bad) s = .next t ∧
      (∃ d, getCmd t n = some d ∧ d.sqe = c.sqe ∧ d.fid = c.fid ∧ d.q = c.q ∧
        (c.v2 = false → d.done = some 0 ∧ d.result = n % 2 ^ 32) ∧
        (c.v2 = true → d.result = (crc32c (blockBytes (spanData
            (readSpan s c.tenant c.sqe.nsid (cmdNs s c).pool c.sqe.slba (c.sqe.nlb + 1) bad)))).toNat ∧
          d.done = some (if c.sqe.itagChk && d.result ≠ c.sqe.itag then 0x0109 else 0))) ∧
      t.out = (deliver s c (readSpan s c.tenant c.sqe.nsid (cmdNs s c).pool c.sqe.slba (c.sqe.nlb + 1) bad)).out ∧
      t.udc.gran = s.udc.gran ∧ t.udc.slots = s.udc.slots ∧ (∀ m, m ≠ n → getCmd t m = getCmd s m) ∧
      Unchanged [.out, .udc, .cmds] s t) ∧
  (∀ (s : State) (n : Nat) (c : Cmd) (bad : List BadBlock), running s n 0xC = some c → earlierChange s n c = false →
    spanStatus (readSpan s c.tenant c.sqe.nsid (cmdNs s c).pool c.sqe.slba (c.sqe.nlb + 1) bad) = 0 →
    ∃ t, exec (.verify n bad) s = .next t ∧
      (∃ d, getCmd t n = some d ∧ d.sqe = c.sqe ∧ (c.v2 = false → d.done = some 0 ∧ d.result = n % 2 ^ 32) ∧
        (c.v2 = true → d.result = (crc32c (blockBytes (spanData
            (readSpan s c.tenant c.sqe.nsid (cmdNs s c).pool c.sqe.slba (c.sqe.nlb + 1) bad)))).toNat ∧
          d.done = some (if c.sqe.itagChk && d.result ≠ c.sqe.itag then 0x0109 else 0))) ∧
      t.udc.gran = s.udc.gran ∧ t.udc.slots = s.udc.slots ∧ (∀ m, m ≠ n → getCmd t m = getCmd s m) ∧
      Unchanged [.udc, .cmds] s t) ∧
  (∀ (s : State) (n : Nat) (c : Cmd) (bad : List BadBlock), running s n 2 = some c → earlierChange s n c = false →
    spanStatus (readSpan s c.tenant c.sqe.nsid (cmdNs s c).pool c.sqe.slba (c.sqe.nlb + 1) bad) ≠ 0 →
    ∃ t d, exec (.read n bad) s = .next t ∧ getCmd t n = some d ∧ d.sqe = c.sqe ∧ d.done =
      some (spanStatus (readSpan s c.tenant c.sqe.nsid (cmdNs s c).pool c.sqe.slba (c.sqe.nlb + 1) bad))) ∧
  (∀ (s : State) (n : Nat) (c : Cmd) (bad : List BadBlock), running s n 2 = some c → earlierChange s n c = true →
    exec (.read n bad) s = .next s)

/-- A running WRITE first reads its host buffer. With its data fetched, no earlier overlapping read pending and no bar, a
wrong ITAG ends it with 0x0109 and changes nothing stored, and so does a status its blocks give. A WRITE inside one
flash granule that is not in the write buffer, to a namespace that does not compress, outside MIRROR mode, ends with
status 0: its blocks then read as the data, the granule's others as before. A WRITE_ZEROES or DEALLOCATE of one such
whole granule ends with status 0 and its blocks read 0; every landing change of either, over any range, counts as
applied. -/
def Obligations.WriteZeroesDeallocate : Prop :=
  (∀ (s : State) (n : Nat) (c : Cmd) (data clens : List Nat) (bad : List BadBlock), running s n 1 = some c →
    c.applied = false → c.stage = 0 →
    ∃ t, exec (.write n data clens bad) s = .next t ∧ getCmd t n = some { c with stage := 1 } ∧
      t.out = (c.sqe.hostSegs.foldl (fun s g => hostGet s c.fid g.1 g.2) s).out ∧ Unchanged [.out, .cmds] s t) ∧
  (∀ (s : State) (n : Nat) (c : Cmd) (data clens : List Nat) (bad : List BadBlock), running s n 1 = some c →
    c.applied = false → c.stage = 1 → c.fetched = true → earlierRead s n c = false → data.length = c.sqe.nlb + 1 →
    changeBar s (cmdNs s c).pool = 0 → c.sqe.itagChk = true → (crc32c (blockBytes data)).toNat ≠ c.sqe.itag →
    ∃ t, exec (.write n data clens bad) s = .next t ∧
      getCmd t n = some { c with done := some 0x0109, result := n % 2 ^ 32 } ∧ Unchanged [.cmds] s t) ∧
  (∀ (s : State) (n : Nat) (c : Cmd) (data clens : List Nat) (bad : List BadBlock), running s n 1 = some c →
    c.applied = false → c.stage = 1 → c.fetched = true → earlierRead s n c = false → data.length = c.sqe.nlb + 1 →
    c.sqe.itagChk = false → changeStatus s c (cmdNs s c) bad ≠ 0 →
    ∃ t, exec (.write n data clens bad) s = .next t ∧
      getCmd t n = some { c with done := some (changeStatus s c (cmdNs s c) bad), result := n % 2 ^ 32 } ∧
      Unchanged [.cmds] s t) ∧
  (∀ (s : State) (n i : Nat) (c : Cmd) (data clens : List Nat) (bad : List BadBlock), running s n 1 = some c →
    c.applied = false → c.stage = 1 → c.fetched = true → earlierRead s n c = false → data.length = c.sqe.nlb + 1 →
    (c.sqe.itagChk = true → (crc32c (blockBytes data)).toNat = c.sqe.itag) → changeStatus s c (cmdNs s c) bad = 0 →
    (cmdNs s c).pool = 0 → (cmdNs s c).compress = false → c.g0 = c.g1 → c.slots = [i] → c.beaten = [] → c.mids = [] →
    (getGran s c.tenant c.sqe.nsid c.g0).kind ≠ 2 → fget s OZP_STATUS_MODE ≠ 1 →
    ∃ t d, exec (.write n data clens bad) s = .next t ∧ getCmd t n = some d ∧ d.done = some 0 ∧ d.applied = true ∧
      (∀ j, j ≤ c.sqe.nlb → readBlock t c.tenant c.sqe.nsid 0 (c.sqe.slba + j) {} = .ok (data.getD j 0)) ∧
      (∀ l, l / 4 = c.g0 → (l < c.sqe.slba ∨ c.sqe.slba + c.sqe.nlb < l) →
        readBlock t c.tenant c.sqe.nsid 0 l {} = readBlock s c.tenant c.sqe.nsid 0 l {}) ∧
      (∀ k, k ≠ granKey c.tenant c.sqe.nsid c.g0 → tget {} t.udc.gran k = tget {} s.udc.gran k) ∧
      Unchanged [.cmds, .udc] s t) ∧
  (∀ (s : State) (n : Nat) (c : Cmd) (data clens : List Nat) (bad : List BadBlock) (l : Landing), running s n 1 = some c →
    c.applied = false → c.stage = 1 → c.fetched = true → earlierRead s n c = false → data.length = c.sqe.nlb + 1 →
    c.sqe.itagChk = false → changeStatus s c (cmdNs s c) bad = 0 →
    landWrite s n c (cmdNs s c) data clens bad c.slots = some l →
    ∃ t d, exec (.write n data clens bad) s = .next t ∧ getCmd t n = some d ∧ d.sqe = c.sqe ∧ d.applied = true ∧
      d.slots = []) ∧
  (∀ (s : State) (n opc : Nat) (c : Cmd) (clens : List Nat) (bad : List BadBlock) (i : Instr),
    (opc = 8 ∧ i = .writeZeroes n clens bad) ∨ (opc = 9 ∧ i = .deallocate n clens bad) → running s n opc = some c →
    c.applied = false → earlierRead s n c = false →
    (changeStatus s c (cmdNs s c) bad ≠ 0 → ∃ t, exec i s = .next t ∧
      getCmd t n = some { c with done := some (changeStatus s c (cmdNs s c) bad), result := n % 2 ^ 32 } ∧
      Unchanged [.cmds] s t) ∧
    (changeStatus s c (cmdNs s c) bad = 0 → (cmdNs s c).pool = 0 → c.g0 = c.g1 → c.whole c.g0 = true → c.beaten = [] →
      c.mids = [] → (getGran s c.tenant c.sqe.nsid c.g0).kind ≠ 2 → lowerInFlight s n c c.g0 = false →
      fget s OZP_STATUS_MODE ≠ 1 →
      ∃ t d, exec i s = .next t ∧ getCmd t n = some d ∧ d.done = some 0 ∧
        (∀ j < 4, readBlock t c.tenant c.sqe.nsid 0 (4 * c.g0 + j) {} = .ok 0) ∧
        (∀ k, k ≠ granKey c.tenant c.sqe.nsid c.g0 → tget {} t.udc.gran k = tget {} s.udc.gran k) ∧
        Unchanged [.cmds, .udc] s t) ∧
    (∀ l : Landing, changeStatus s c (cmdNs s c) bad = 0 → landZeroes s n c (cmdNs s c) clens bad c.slots = some l →
      ∃ t d, exec i s = .next t ∧ getCmd t n = some d ∧ d.sqe = c.sqe ∧ d.applied = true ∧ d.slots = []))

/-- A running FLUSH pads every open stripe that holds data of the namespaces concerned, so that it is sealed, and ends
with status 0 when nothing of theirs with a lower SEQ is left in the write buffer; otherwise it stays. A running PUSH
whose function may send, with a free channel, a port whose link is up and blocks that all read: inside its grant it
sends the bytes to the grant's window and ends with their CRC-32C as RESULT and status 0, 0x0107 where the grant asks
for a fence read that fails, 0x0109 where ITAG differs; what is stored does not change; outside the grant it ends with
0x0303. While an earlier change of its blocks is pending it waits. -/
def Obligations.FlushAndPush : Prop :=
  (∀ (s : State) (n : Nat) (c : Cmd), running s n 0 = some c →
    ∃ t, exec (.flush n) s = .next t ∧
      t.udc = (sealConcerned s c.tenant c.sqe.nsid (c.sqe.cdw % 2 == 1)).udc ∧
      (∀ o ∈ t.udc.open_, (o.parts.any fun p => concerned c.tenant c.sqe.nsid (c.sqe.cdw % 2 == 1) p.id.tenant p.id.ns) = true →
        o.full = true) ∧
      (flushPending s c.tenant c.sqe.nsid (c.sqe.cdw % 2 == 1) n = false →
        getCmd t n = some { c with done := some 0, result := n % 2 ^ 32 }) ∧
      (flushPending s c.tenant c.sqe.nsid (c.sqe.cdw % 2 == 1) n = true → t.cmds = s.cmds) ∧ Unchanged [.udc, .cmds] s t) ∧
  (∀ (s : State) (n : Nat) (c : Cmd) (bad : List BadBlock) (fenceOk : Bool), running s n 0x20 = some c →
    earlierChange s n c = true → exec (.push n bad fenceOk) s = .next s) ∧
  (∀ (s : State) (n k : Nat) (c : Cmd) (g : Grant) (bs : List Byte) (bad : List BadBlock) (fenceOk : Bool),
    running s n 0x20 = some c → earlierChange s n c = false → k < 16 → hodServes s k = true → hodClaimed s k = false →
    (getFn s c.fid).live = true → g = tget {} (getTen s c.tenant).grants c.sqe.pushIdx →
    fget s (HPT_LINK_DL_UP.ix g.port 0x1000) ≠ 0 →
    spanStatus (readSpan s c.tenant c.sqe.nsid (cmdNs s c).pool c.sqe.slba (c.sqe.nlb + 1) bad) = 0 →
    bs = (blockBytes (spanData (readSpan s c.tenant c.sqe.nsid (cmdNs s c).pool c.sqe.slba (c.sqe.nlb + 1) bad))).take
      c.sqe.buf0Len →
    (grantHolds s c.tenant c.sqe = true →
      ∃ t d, exec (.push n bad fenceOk) s = .next t ∧ getCmd t n = some d ∧ d.sqe = c.sqe ∧ d.result = (crc32c bs).toNat ∧
        d.done = some (if g.fence && !fenceOk then 0x0107
          else if c.sqe.itagChk && (crc32c bs).toNat ≠ c.sqe.itag then 0x0109 else 0) ∧
        Out.peerWrite g.port (g.base + c.sqe.buf0) bs ∈ t.out ∧ t.udc.gran = s.udc.gran ∧ t.udc.slots = s.udc.slots) ∧
    (grantHolds s c.tenant c.sqe = false →
      ∃ t d, exec (.push n bad fenceOk) s = .next t ∧ getCmd t n = some d ∧ d.sqe = c.sqe ∧ d.done = some 0x0303))

/-- CREATE_QP for an I/O pair that does not exist, while the admin pair accepts commands, gives the pair the size, entry
version, class, vector and bases of its entry, empty, and ends with status 0; for one that exists it ends with 0x010B.
DELETE_QP of an existing pair with no command in flight removes it and ends with status 0; of a pair that does not
exist it ends with 0x010B; no other pair changes. IDENTIFY writes the 4,096-byte page of the device, of the tenant or
of an existing namespace to the buffer and ends with status 0, and with 0x0105 for a namespace that does not exist.
GET_LOG writes as much of the named log as the buffer holds and answers its length. JOURNAL_QUERY writes the selected
entries and answers their number with the gap bit. None of them changes what is stored or any register. -/
def Obligations.PairsLogsIdentify : Prop :=
  ((∀ (s : State) (n : Nat) (c : Cmd), adminCmd s n 0x01 = some c → (getQp s c.fid c.sqe.target).mode = 0 →
    (getQp s c.fid 0).mode = 2 →
    ∃ t, exec (.createQp n) s = .next t ∧
      getQp t c.fid c.sqe.target = { mode := 2, size := 2 ^ (c.sqe.cdw0 % 16), v2 := c.sqe.cdw0 / 16 % 2 == 1
                                     qos := c.sqe.cdw0 / 32 % 4, ien := c.sqe.cdw0 / 128 % 2 == 1
                                     vector := c.sqe.cdw0 / 256 % 8, sqBase := c.sqe.buf0, cqBase := c.sqe.buf1 } ∧
      getCmd t n = some { c with done := some 0, result := n % 2 ^ 32 } ∧
      (∀ f q, qpKey f q ≠ qpKey c.fid c.sqe.target → getQp t f q = getQp s f q) ∧
      (∀ m, m ≠ n → getCmd t m = getCmd s m) ∧ Unchanged [.qps, .cmds] s t) ∧
  (∀ (s : State) (n : Nat) (c : Cmd), adminCmd s n 0x01 = some c →
    (getQp s c.fid c.sqe.target).mode = 1 ∨ (getQp s c.fid c.sqe.target).mode = 2 →
    ∃ t, exec (.createQp n) s = .next t ∧ getCmd t n = some { c with done := some 0x010B, result := n % 2 ^ 32 } ∧
      (∀ m, m ≠ n → getCmd t m = getCmd s m) ∧ Unchanged [.cmds] s t) ∧
  (∀ (s : State) (n : Nat) (c : Cmd), adminCmd s n 0x02 = some c → c.stage = 0 → c.sqe.target ≠ 0 →
    (getQp s c.fid c.sqe.target).mode ≠ 0 → (∀ e ∈ s.cmds, e.2.fid = c.fid → e.2.q ≠ c.sqe.target) →
    (getFn s c.fid).teardown = 0 →
    ∃ t, exec (.deleteQp n) s = .next t ∧ getQp t c.fid c.sqe.target = {} ∧
      getCmd t n = some { c with stage := 1, done := some 0, result := n % 2 ^ 32 } ∧
      (∀ f q, qpKey f q ≠ qpKey c.fid c.sqe.target → getQp t f q = getQp s f q) ∧
      (∀ m, m ≠ n → getCmd t m = getCmd s m) ∧ Unchanged [.qps, .cmds] s t) ∧
  (∀ (s : State) (n : Nat) (c : Cmd), adminCmd s n 0x02 = some c → c.stage = 0 → (getQp s c.fid c.sqe.target).mode = 0 →
    ∃ t, exec (.deleteQp n) s = .next t ∧ getCmd t n = some { c with done := some 0x010B, result := n % 2 ^ 32 } ∧
      (∀ m, m ≠ n → getCmd t m = getCmd s m) ∧ Unchanged [.cmds] s t)) ∧
  ((∀ (s : State) (n : Nat) (c : Cmd), adminCmd s n 0x04 = some c →
    ∃ t d, exec (.identify n) s = .next t ∧ getCmd t n = some d ∧ d.sqe = c.sqe ∧
      (c.sqe.cdw0 % 256 = 0 → d.done = some 0 ∧
        t.out = (hostPut s c.fid c.sqe.buf0 (padBytes 4096 (identifyDevice s))).out) ∧
      (c.sqe.cdw0 % 256 = 1 → d.done = some 0 ∧
        t.out = (hostPut s c.fid c.sqe.buf0 (padBytes 4096 (identifyTenant s (adminTenant c)))).out) ∧
      (2 ≤ c.sqe.cdw0 % 256 → ∀ ns, getNs s (adminTenant c) (c.sqe.cdw0 / 256 % 16) = some ns → d.done = some 0 ∧
        t.out = (hostPut s c.fid c.sqe.buf0 (padBytes 4096 (identifyNs s ns))).out) ∧
      (2 ≤ c.sqe.cdw0 % 256 → getNs s (adminTenant c) (c.sqe.cdw0 / 256 % 16) = none → d.done = some 0x0105 ∧
        t.out = s.out) ∧ (∀ m, m ≠ n → getCmd t m = getCmd s m) ∧ Unchanged [.out, .cmds] s t) ∧
  (∀ (s : State) (n : Nat) (c : Cmd) (bs : List Byte), adminCmd s n 0x05 = some c →
    bs = (if c.sqe.cdw0 % 256 = 1 then errorLog s c.fid else contractLog s (adminTenant c)).take c.sqe.buf0Len →
    ∃ t, exec (.getLog n) s = .next t ∧ getCmd t n = some { c with done := some 0, result := bs.length } ∧
      t.out = (hostPut s c.fid c.sqe.buf0 bs).out ∧ Unchanged [.out, .cmds] s t) ∧
  (∀ (s : State) (n : Nat) (c : Cmd), adminCmd s n 0x09 = some c →
    ∃ t, exec (.journalQuery n) s = .next t ∧
      getCmd t n = some { c with done := some 0, result := (queryEntries s (adminTenant c) c.sqe).1.length +
                                   b2n (queryEntries s (adminTenant c) c.sqe).2 * 2 ^ 31 } ∧
      t.out = (hostPut s c.fid c.sqe.buf0 ((queryEntries s (adminTenant c) c.sqe).1.flatMap JrnEntry.bytes)).out ∧
      (∀ e ∈ (queryEntries s (adminTenant c) c.sqe).1,
        querySelects (adminTenant c) (c.sqe.cdw2 % 16) (c.sqe.cdw2 / 16 % 2 == 1) e = true) ∧
      Unchanged [.out, .cmds] s t))

/-- TENANT_CREATE of an absent tenant makes it present without a key, contract or namespace and ends with 0; of a present
one it ends with 0. TENANT_DESTROY with no earlier command of the tenant in flight leaves it DESTROYING without key,
contract or fingerprint; the release's end leaves it absent with no namespace and no granule or extent mapped.
KEY_LOAD of a blob all of whose checks pass, into a tenant without a key, loads its key and ends with 0; a failing
check leaves the key and ends with 0x0302. KEY_UNLOAD with nothing earlier in flight zeroes the key. -/
def Obligations.TenantLifeCycle : Prop :=
  (∀ (s : State) (n : Nat) (c : Cmd), adminCmd s n 0x40 = some c → tenState s c.sqe.target = 0 →
    ∃ t, exec (.tenantCreate n) s = .next t ∧ tenState t c.sqe.target = 1 ∧ (getTen t c.sqe.target).key = none ∧
      (getTenNv t c.sqe.target).ns = [] ∧ (getTenNv t c.sqe.target).contract = none ∧
      (getTenNv t c.sqe.target).salt = Config.entropy s.freeCtr % 2 ^ 128 ∧
      getCmd t n = some { c with done := some 0, result := n % 2 ^ 32 } ∧
      (∀ u, u ≠ c.sqe.target → getTenNv t u = getTenNv s u ∧ getTen t u = getTen s u) ∧
      Unchanged [.freeCtr, .nv, .tenants, .cmds] s t) ∧
  (∀ (s : State) (n : Nat) (c : Cmd), adminCmd s n 0x40 = some c →
    tenState s c.sqe.target = 1 ∨ tenState s c.sqe.target = 2 →
    ∃ t, exec (.tenantCreate n) s = .next t ∧ getCmd t n = some { c with done := some 0, result := n % 2 ^ 32 } ∧
      Unchanged [.cmds] s t) ∧
  (∀ (s : State) (n : Nat) (c : Cmd), adminCmd s n 0x41 = some c →
    tenState s c.sqe.target = 1 ∨ tenState s c.sqe.target = 2 → c.sqe.target < 512 →
    lowerBusy s c.sqe.target n = false →
    ∃ t, exec (.tenantDestroy n) s = .next t ∧ tenState t c.sqe.target = 3 ∧ (getTen t c.sqe.target).key = none ∧
      (getTenNv t c.sqe.target).contract = none ∧ (getTenNv t c.sqe.target).fingerprint = none ∧
      (getTenNv t c.sqe.target).ns = (getTenNv s c.sqe.target).ns ∧
      (∃ d, getCmd t n = some d ∧ d.done = some 0 ∧ d.sqe = c.sqe) ∧
      (∀ u, u ≠ c.sqe.target → getTenNv t u = getTenNv s u)) ∧
  (∀ (s : State) (u : Nat), tenState s u = 3 → u < 512 →
    ∃ t, exec (.destroyReleaseEnd u) s = .next t ∧ tenState t u = 0 ∧ (getTenNv t u).ns = [] ∧
      (getTenNv t u).incarn = (getTenNv s u).incarn ∧
      (∀ e ∈ t.udc.gran, e.1 / 2 ^ 52 / 16 ≠ u) ∧ (∀ e ∈ t.udc.ext, e.1 / 2 ^ 52 / 16 ≠ u) ∧
      (∀ w, w ≠ u → getTenNv t w = getTenNv s w)) ∧
  (∀ (s : State) (n : Nat) (c : Cmd) (b : KeyBlob), adminCmd s n 0x42 = some c → c.sqe.buf0Len = 192 →
    tenState s c.sqe.target = 1 → (getTen s c.sqe.target).key = none → keyStep s c.sqe.target b = 0 →
    ∃ t, exec (.keyLoad n b) s = .next t ∧ (getTen t c.sqe.target).key = some b.key ∧
      (getTenNv t c.sqe.target).fingerprint = some (Config.fingerprint (getTenNv s c.sqe.target).salt b.key) ∧
      getCmd t n = some { c with done := some 0, result := n % 2 ^ 32 } ∧
      (∀ u, u ≠ c.sqe.target → getTen t u = getTen s u ∧ getTenNv t u = getTenNv s u) ∧
      Unchanged [.out, .nv, .tenants, .cmds] s t) ∧
  (∀ (s : State) (n : Nat) (c : Cmd) (b : KeyBlob), adminCmd s n 0x42 = some c → c.sqe.buf0Len = 192 →
    tenState s c.sqe.target = 1 ∨ tenState s c.sqe.target = 2 → keyStep s c.sqe.target b ≠ 0 →
    ∃ t d, exec (.keyLoad n b) s = .next t ∧ getCmd t n = some d ∧ d.done = some 0x0302 ∧ t.tenants = s.tenants ∧
      t.nv.tenants = s.nv.tenants) ∧
  (∀ (s : State) (n : Nat) (c : Cmd), adminCmd s n 0x43 = some c → tenState s c.sqe.target = 2 →
    lowerBusy s c.sqe.target n = false →
    ∃ t, exec (.keyUnload n) s = .next t ∧ (getTen t c.sqe.target).key = none ∧
      (∃ d, getCmd t n = some d ∧ d.done = some 0 ∧ d.sqe = c.sqe) ∧
      (∀ u, u ≠ c.sqe.target → getTen t u = getTen s u) ∧ Unchanged [.tenants, .cmds] s t)

/-- For a tenant with a context: NS_CREATE of a free number with a size its pool has room for creates it under a new
incarnation; over an existing one or with size 0 it ends with 0x0102. NS_DELETE with nothing of it in flight takes it
and its mapping away. CONTRACT_SET of a record that is judged 0 installs its classes, any other leaves the contract
and ends with 0x0304 and LAST_REJECT; CONTRACT_CLEAR takes it away. PUSH_GRANT to the tenant's port, aligned, replaces
the grant, any other form ends with 0x0303; PUSH_REVOKE empties it. -/
def Obligations.NamespacesContractsGrants : Prop :=
  (∀ (s : State) (n : Nat) (c : Cmd), adminCmd s n 0x44 = some c → c.sqe.target < 512 →
    tenState s c.sqe.target = 1 ∨ tenState s c.sqe.target = 2 →
    ((getNs s c.sqe.target (c.sqe.cdw0 % 16)).isSome = true ∨ c.sqe.cdw2 % 2 ^ 32 + c.sqe.cdw3 % 2 ^ 32 * 2 ^ 32 = 0 →
      ∃ t, exec (.nsCreate n) s = .next t ∧ getCmd t n = some { c with done := some 0x0102, result := n % 2 ^ 32 } ∧
        Unchanged [.cmds] s t) ∧
    ((getNs s c.sqe.target (c.sqe.cdw0 % 16)) = none → 0 < c.sqe.cdw2 % 2 ^ 32 + c.sqe.cdw3 % 2 ^ 32 * 2 ^ 32 →
      nsCount s < 2048 →
      poolUsed s (c.sqe.cdw0 / 16 % 4) + (c.sqe.cdw2 % 2 ^ 32 + c.sqe.cdw3 % 2 ^ 32 * 2 ^ 32) ≤
        poolCap s (c.sqe.cdw0 / 16 % 4) →
      (c.sqe.cdw0 / 64 % 2 = 1 → floorIn (contractOf s c.sqe.target) (c.sqe.cdw0 / 16 % 4) = false) →
      ∃ t, exec (.nsCreate n) s = .next t ∧ getCmd t n = some { c with done := some 0, result := n % 2 ^ 32 } ∧
        tget {} (getTenNv t c.sqe.target).ns (c.sqe.cdw0 % 16) =
          { size := c.sqe.cdw2 % 2 ^ 32 + c.sqe.cdw3 % 2 ^ 32 * 2 ^ 32, pool := c.sqe.cdw0 / 16 % 4, compress := c.sqe.cdw0 / 64 % 2 == 1
            incarn := (tget 0 (getTenNv s c.sqe.target).incarn (c.sqe.cdw0 % 16) + 1) % 2 ^ 32 } ∧
        (∀ u, u ≠ c.sqe.target → getTenNv t u = getTenNv s u) ∧ Unchanged [.nv, .cmds] s t)) ∧
  (∀ (s : State) (n : Nat) (c : Cmd), adminCmd s n 0x45 = some c → c.sqe.target < 512 → c.stage = 0 →
    tenState s c.sqe.target = 1 ∨ tenState s c.sqe.target = 2 → (getNs s c.sqe.target (c.sqe.cdw0 % 16)).isSome = true →
    (lowerBusy s c.sqe.target n fun d => !d.admin && (d.sqe.nsid == c.sqe.cdw0 % 16 || d.sqe.opc == 0)) = false →
    ∃ t, exec (.nsDelete n) s = .next t ∧ (∀ e ∈ (getTenNv t c.sqe.target).ns, e.1 ≠ c.sqe.cdw0 % 16) ∧
      (∃ d, getCmd t n = some d ∧ d.done = some 0 ∧ d.sqe = c.sqe) ∧
      (∀ e ∈ t.udc.gran, e.1 / 2 ^ 52 ≠ c.sqe.target * 16 + c.sqe.cdw0 % 16) ∧
      (∀ u, u ≠ c.sqe.target → getTenNv t u = getTenNv s u)) ∧
  (∀ (s : State) (n : Nat) (c : Cmd) (rec : List Byte), adminCmd s n 0x48 = some c → c.sqe.buf0Len = 128 →
    tenState s c.sqe.target = 1 ∨ tenState s c.sqe.target = 2 →
    (judgeContract (hostGet s c.fid c.sqe.buf0 128) c.sqe.target rec = 0 →
      ∃ t d, exec (.contractSet n rec) s = .next t ∧
        (getTenNv t c.sqe.target).contract = some { classes := (parseContract rec).1, seq := n } ∧
        getCmd t n = some d ∧ d.done = some 0) ∧
    (judgeContract (hostGet s c.fid c.sqe.buf0 128) c.sqe.target rec ≠ 0 →
      ∃ t d, exec (.contractSet n rec) s = .next t ∧ t.nv.tenants = s.nv.tenants ∧ getCmd t n = some d ∧
        d.done = some 0x0304 ∧
        fget t TEN_STATUS_LAST_REJECT = judgeContract (hostGet s c.fid c.sqe.buf0 128) c.sqe.target rec)) ∧
  (∀ (s : State) (n : Nat) (c : Cmd), adminCmd s n 0x49 = some c →
    tenState s c.sqe.target = 1 ∨ tenState s c.sqe.target = 2 →
    ∃ t d, exec (.contractClear n) s = .next t ∧ (getTenNv t c.sqe.target).contract = none ∧ getCmd t n = some d ∧
      d.done = some 0 ∧ ∀ u, u ≠ c.sqe.target → getTenNv t u = getTenNv s u) ∧
  (∀ (s : State) (n : Nat) (c : Cmd), adminCmd s n 0x4A = some c →
    tenState s c.sqe.target = 1 ∨ tenState s c.sqe.target = 2 →
    (tenantPort s c.sqe.target = some (c.sqe.cdw0 / 16 % 8) → c.sqe.buf1 % 4096 = 0 → 0 < c.sqe.buf1Len →
      c.sqe.buf1Len % 4096 = 0 → c.sqe.buf1 + c.sqe.buf1Len ≤ 2 ^ 64 → grantBusy s c.sqe.target n (c.sqe.cdw0 % 16) = false →
      ∃ t d, exec (.pushGrant n) s = .next t ∧ getCmd t n = some d ∧ d.done = some 0 ∧
        tget {} (getTen t c.sqe.target).grants (c.sqe.cdw0 % 16) =
          { port := c.sqe.cdw0 / 16 % 8, base := c.sqe.buf1, len := c.sqe.buf1Len, fence := c.sqe.cdw0 / 256 % 2 == 1 } ∧
        (∀ i, i ≠ c.sqe.cdw0 % 16 → tget {} (getTen t c.sqe.target).grants i = tget {} (getTen s c.sqe.target).grants i) ∧
        (∀ u, u ≠ c.sqe.target → getTen t u = getTen s u)) ∧
    (c.sqe.buf1 % 4096 ≠ 0 ∨ c.sqe.buf1Len = 0 ∨ c.sqe.buf1Len % 4096 ≠ 0 ∨ 2 ^ 64 < c.sqe.buf1 + c.sqe.buf1Len ∨
        tenantPort s c.sqe.target ≠ some (c.sqe.cdw0 / 16 % 8) →
      ∃ t, exec (.pushGrant n) s = .next t ∧ getCmd t n = some { c with done := some 0x0303, result := n % 2 ^ 32 } ∧
        Unchanged [.cmds] s t)) ∧
  (∀ (s : State) (n : Nat) (c : Cmd), adminCmd s n 0x4B = some c →
    tenState s c.sqe.target = 1 ∨ tenState s c.sqe.target = 2 → grantBusy s c.sqe.target n (c.sqe.cdw0 % 16) = false →
    ∃ t d, exec (.pushRevoke n) s = .next t ∧ getCmd t n = some d ∧ d.done = some 0 ∧
      tget {} (getTen t c.sqe.target).grants (c.sqe.cdw0 % 16) = {} ∧
      (∀ i, i ≠ c.sqe.cdw0 % 16 → tget {} (getTen t c.sqe.target).grants i = tget {} (getTen s c.sqe.target).grants i) ∧
      (∀ u, u ≠ c.sqe.target → getTen t u = getTen s u))

/-- SKIM_INSTALL, with none running, fetches its buffer and judges the section: a failing check ends the command with that
check's status and shows its REASON; a good section shows REASON 0 and INSTALLING, and Skim dispatch waits. Once no
Skim flow runs, the drained step writes the region: a good read-back turns SKIM_ON and ends the command with 0, a
mismatch turns it off with REASON 6 and 0x0401; INSTALLING is 0. DAYMARK_CLEAR whose request fails a check ends with
that status and changes no event; a good one empties the areas its scope names, ends with 0, or 0x0202 where the
persist fails, and draws a new nonce in either case. -/
def Obligations.SkimInstallAndDaymarkClear : Prop :=
  (∀ (s : State) (n : Nat) (c : Cmd) (b : SkimBlob), adminCmd s n 0x50 = some c → s.trw.install = none →
    (skimJudge s c.sqe.buf0Len b).1 ≠ 0 →
    ∃ t, exec (.skimInstall n b) s = .next t ∧ fget t TRW_SKIM_STAT_REASON = (skimJudge s c.sqe.buf0Len b).1 ∧
      getCmd t n = some { c with done := some (skimJudge s c.sqe.buf0Len b).2, result := n % 2 ^ 32 } ∧
      RegsBut [TRW_SKIM_STAT_REASON.off] s t ∧ Unchanged [.out, .regs, .cmds] s t) ∧
  (∀ (s : State) (n : Nat) (c : Cmd) (b : SkimBlob), adminCmd s n 0x50 = some c → s.trw.install = none →
    (skimJudge s c.sqe.buf0Len b).1 = 0 →
    ∃ t, exec (.skimInstall n b) s = .next t ∧ fget t TRW_SKIM_STAT_REASON = 0 ∧ fget t TRW_STATUS_INSTALLING = 1 ∧
      t.trw.install = some (n, b.sec) ∧ RegsBut [TRW_SKIM_STAT_REASON.off, TRW_STATUS_INSTALLING.off] s t ∧
      Unchanged [.out, .regs, .trw] s t) ∧
  (∀ (s : State) (n : Nat) (c : Cmd) (sec : SkimSec) (good : Bool), s.trw.install = some (n, sec) → skimRunning s = false →
    getCmd s n = some c → c.done = none →
    ∃ t, exec (.skimInstallDrained good) s = .next t ∧ t.trw.install = none ∧ fget t TRW_STATUS_INSTALLING = 0 ∧
      fget t TRW_STATUS_SKIM_ON = b2n good ∧
      getCmd t n = some { c with done := some (if good then 0 else 0x0401), result := n % 2 ^ 32 } ∧
      (good = false → fget t TRW_SKIM_STAT_REASON = 6) ∧
      (∀ a, a < 0x38000 → csWord t a = csWord s a) ∧
      (∀ k < 64, csWord t (0x38000 + k) = bindWord (sec.bind.getD k 0)) ∧
      (∀ k < sec.words.length, csWord t (0x38040 + k) = sec.words.getD k 0) ∧
      RegsBut [TRW_SKIM_STAT_REASON.off, TRW_STATUS_INSTALLING.off] s t ∧ Unchanged [.regs, .trw, .cmds] s t) ∧
  (∀ (s : State) (n : Nat) (c : Cmd) (r : ClearReq) (ok : Bool), adminCmd s n 0x5C = some c →
    clearStatus s c.sqe.buf0Len r ≠ 0 →
    ∃ t, exec (.daymarkClear n r ok) s = .next t ∧ t.dmk = s.dmk ∧
      getCmd t n = some { c with done := some (clearStatus s c.sqe.buf0Len r), result := n % 2 ^ 32 } ∧
      rget t DMK_NONCE_NONCE.off = BitVec.ofNat 32 (Config.entropy s.freeCtr) ∧
      RegsBut [DMK_NONCE_NONCE.off, DMK_NONCE_NONCE.off + 4, DMK_NONCE_NONCE.off + 8, DMK_NONCE_NONCE.off + 12] s t ∧
      Unchanged [.out, .regs, .freeCtr, .cmds] s t) ∧
  (∀ (s : State) (n : Nat) (c : Cmd) (r : ClearReq) (ok : Bool), adminCmd s n 0x5C = some c →
    clearStatus s c.sqe.buf0Len r = 0 →
    ∃ t d, exec (.daymarkClear n r ok) s = .next t ∧ getCmd t n = some d ∧ d.done = some (if ok then 0 else 0x0202) ∧
      (r.scope / 2 = 1 → ∀ e ∈ t.dmk.store, e.1 < 512 → e.2.code = 0x0B40) ∧
      (r.scope % 2 = 1 → ∀ e ∈ t.dmk.store, 512 ≤ e.1 → e.2.code = 0x0B40 ∨ e.2.code = 0x0B43) ∧
      rget t DMK_NONCE_NONCE.off = BitVec.ofNat 32 (Config.entropy s.freeCtr) ∧
      (∀ m, m ≠ n → getCmd t m = getCmd s m))

/-- For every context that issues one of the operations and falls through: ADD, SUB, AND, OR, XOR, SHL, SHR, SAR, MOV,
MUL, MINU, MAXU, EXT, INS, CLZ, POPC and CRC write their result to RD and no other register, the low six bits of
operand B give a shift's amount, and where SF is 1 the flags follow Table 08-5, else they stay; CMP and TST always set
the flags and write no register; NOP writes neither. The flow goes on at the next word; no memory, no other context
and nothing outside Trowel changes. -/
def Obligations.MicrowordResults : Prop :=
  Computes 0x01 .add (fun x m => ((gReg x m.ra).toNat + (opB x m).toNat) % 2 ^ 64)
    (fun x m => decide (2 ^ 64 ≤ (gReg x m.ra).toNat + (opB x m).toNat))
    (fun x m => decide ((gReg x m.ra).toInt + (opB x m).toInt < -2 ^ 63 ∨ 2 ^ 63 ≤ (gReg x m.ra).toInt + (opB x m).toInt)) ∧
  Computes 0x02 .sub (fun x m => ((gReg x m.ra).toNat + 2 ^ 64 - (opB x m).toNat) % 2 ^ 64)
    (fun x m => decide ((opB x m).toNat ≤ (gReg x m.ra).toNat))
    (fun x m => decide ((gReg x m.ra).toInt - (opB x m).toInt < -2 ^ 63 ∨ 2 ^ 63 ≤ (gReg x m.ra).toInt - (opB x m).toInt)) ∧
  Computes 0x03 .and (fun x m => (gReg x m.ra).toNat &&& (opB x m).toNat) (fun _ _ => false) (fun _ _ => false) ∧
  Computes 0x04 .or (fun x m => (gReg x m.ra).toNat ||| (opB x m).toNat) (fun _ _ => false) (fun _ _ => false) ∧
  Computes 0x05 .xor (fun x m => (gReg x m.ra).toNat ^^^ (opB x m).toNat) (fun _ _ => false) (fun _ _ => false) ∧
  Computes 0x06 .shl (fun x m => (gReg x m.ra).toNat * 2 ^ ((opB x m).toNat % 64) % 2 ^ 64)
    (fun x m => decide ((opB x m).toNat % 64 ≠ 0 ∧ (gReg x m.ra).toNat.testBit (64 - (opB x m).toNat % 64) = true))
    (fun _ _ => false) ∧
  Computes 0x07 .shr (fun x m => (gReg x m.ra).toNat / 2 ^ ((opB x m).toNat % 64))
    (fun x m => decide ((opB x m).toNat % 64 ≠ 0 ∧ (gReg x m.ra).toNat.testBit ((opB x m).toNat % 64 - 1) = true))
    (fun _ _ => false) ∧
  Computes 0x08 .sar (fun x m => ((gReg x m.ra).toInt / 2 ^ ((opB x m).toNat % 64) % 2 ^ 64).toNat)
    (fun x m => decide ((opB x m).toNat % 64 ≠ 0 ∧ (gReg x m.ra).toNat.testBit ((opB x m).toNat % 64 - 1) = true))
    (fun _ _ => false) ∧
  Computes 0x09 .mov (fun x m => (opB x m).toNat) (fun _ _ => false) (fun _ _ => false) ∧
  Computes 0x0C .mul (fun x m => (gReg x m.ra).toNat * (opB x m).toNat % 2 ^ 64)
    (fun x m => decide (2 ^ 64 ≤ (gReg x m.ra).toNat * (opB x m).toNat)) (fun _ _ => false) ∧
  Computes 0x0D .minu (fun x m => min (gReg x m.ra).toNat (opB x m).toNat) (fun _ _ => false) (fun _ _ => false) ∧
  Computes 0x0E .maxu (fun x m => max (gReg x m.ra).toNat (opB x m).toNat) (fun _ _ => false) (fun _ _ => false) ∧
  Computes 0x0F .ext (fun x m => (gReg x m.ra).toNat / 2 ^ (m.imm % 64) % 2 ^ (m.imm / 256 % 128))
    (fun _ _ => false) (fun _ _ => false) ∧
  Computes 0x10 .ins (fun x m => (gReg x m.rd).toNat - (gReg x m.rd).toNat / 2 ^ (m.imm % 64) % 2 ^ (m.imm / 256 % 128) *
      2 ^ (m.imm % 64) + (gReg x m.ra).toNat % 2 ^ (m.imm / 256 % 128) * 2 ^ (m.imm % 64))
    (fun _ _ => false) (fun _ _ => false) ∧
  Computes 0x11 .clz (fun x m => if (opB x m).toNat = 0 then 64 else 63 - (opB x m).toNat.log2)
    (fun _ _ => false) (fun _ _ => false) ∧
  Computes 0x12 .popc (fun x m => (List.range 64).countP fun i => (opB x m).toNat.testBit i)
    (fun _ _ => false) (fun _ _ => false) ∧
  Computes 0x13 .crc (fun x m => crc32cFrom ((gReg x m.ra).toNat % 2 ^ 32) (leBytes (opB x m).toNat 8))
    (fun _ _ => false) (fun _ _ => false) ∧
  (∀ (s : State) (t c : Nat) (x : Ctx) (m : MWord), FallsThrough s t c 0x0A x m →
    ∃ u, exec (.cmp t c) s = .next u ∧ WentOn s u t c x ∧ (∀ i, gReg (getCtx u (ctxKey t c)) i = gReg x i) ∧
      (getCtx u (ctxKey t c)).t = x.t ∧
      FlagsOf (getCtx u (ctxKey t c)) (((gReg x m.ra).toNat + 2 ^ 64 - (opB x m).toNat) % 2 ^ 64)
        (decide ((opB x m).toNat ≤ (gReg x m.ra).toNat))
        (decide ((gReg x m.ra).toInt - (opB x m).toInt < -2 ^ 63 ∨ 2 ^ 63 ≤ (gReg x m.ra).toInt - (opB x m).toInt))) ∧
  (∀ (s : State) (t c : Nat) (x : Ctx) (m : MWord), FallsThrough s t c 0x0B x m →
    ∃ u, exec (.tst t c) s = .next u ∧ WentOn s u t c x ∧ (∀ i, gReg (getCtx u (ctxKey t c)) i = gReg x i) ∧
      (getCtx u (ctxKey t c)).t = x.t ∧
      FlagsOf (getCtx u (ctxKey t c)) ((gReg x m.ra).toNat &&& (opB x m).toNat) false false) ∧
  (∀ (s : State) (t c : Nat) (x : Ctx) (m : MWord), FallsThrough s t c 0x00 x m →
    ∃ u, exec (.nop t c) s = .next u ∧ WentOn s u t c x ∧ (∀ i, gReg (getCtx u (ctxKey t c)) i = gReg x i) ∧
      (getCtx u (ctxKey t c)).t = x.t ∧ SameFlags x (getCtx u (ctxKey t c)))

/-- For a NOP word without a fault: JUMP goes to TARGET; a branch goes to TARGET where its condition holds, counting one
discarded word, and to the next word where it does not; CALL pushes the next address and goes to TARGET; RET goes to
the address on top and pops it; END frees the context and ends its command with G0[15:0]; CALLV pushes the next
address and starts the service. A word with a reserved encoding raises MW_RSVD, a CALL with eight and a RET with no
address MW_STACK, a fall through past a region's end MW_BOUND: the flow is aborted, its command ends with 0x0401. -/
def Obligations.MicrowordSequencing : Prop :=
  (∀ (s : State) (t c : Nat) (x : Ctx) (m : MWord), issued s t c 0x00 = some (x, m) → issueFault s x x m = 0 →
    (m.sq = 1 → ∃ u, exec (.nop t c) s = .next u ∧ getCtx u (ctxKey t c) = { x with
        pc := m.target, word := some (csFetch s m.target), count := x.count + 1 } ∧ Unchanged [.trw] s u) ∧
    (m.sq = 2 → condHolds x m.cond = true → ∃ u, exec (.nop t c) s = .next u ∧ getCtx u (ctxKey t c) = { x with
        pc := m.target, word := some (csFetch s m.target), count := x.count + 1 } ∧
      fget u TRW_DISCARD_CNT_LO_COUNT = (fget s TRW_DISCARD_CNT_LO_COUNT + 1) % 2 ^ 32 ∧
      RegsBut [TRW_DISCARD_CNT_LO_COUNT.off, TRW_DISCARD_CNT_HI_COUNT.off] s u ∧ Unchanged [.trw, .regs] s u) ∧
    (m.sq = 2 → condHolds x m.cond = false → ∃ u, exec (.nop t c) s = .next u ∧ getCtx u (ctxKey t c) = { x with
        pc := x.pc + 1, word := some (csFetch s (x.pc + 1)), count := x.count + 1 } ∧ Unchanged [.trw] s u) ∧
    (m.sq = 3 → ∃ u, exec (.nop t c) s = .next u ∧ getCtx u (ctxKey t c) = { x with
        pc := m.target, word := some (csFetch s m.target), count := x.count + 1, stack := (x.pc + 1) :: x.stack } ∧
      Unchanged [.trw] s u) ∧
    (m.sq = 4 → ∃ a l u, x.stack = a :: l ∧ exec (.nop t c) s = .next u ∧ getCtx u (ctxKey t c) = { x with
        pc := a, word := some (csFetch s a), count := x.count + 1, stack := l } ∧ Unchanged [.trw] s u) ∧
    (m.sq = 5 → ∃ u, exec (.nop t c) s = .next u ∧ getCtx u (ctxKey t c) = {} ∧
      (∀ n d, x.seq = some n → getCmd s n = some d → d.done = none →
        getCmd u n = some { d with done := some ((gReg x 0).toNat % 65536), result := n % 2 ^ 32 }) ∧
      Unchanged [.trw, .cmds] s u) ∧
    (m.sq = 6 → (getTile s t).stores = [] → ∃ u, exec (.nop t c) s = .next u ∧
      (getCtx u (ctxKey t c)).wait = .service m.target ∧ (getCtx u (ctxKey t c)).stack = (x.pc + 1) :: x.stack ∧
      (getCtx u (ctxKey t c)).regs = x.regs ∧ Unchanged [.trw] s u)) ∧
  (∀ (s : State) (t c : Nat) (x : Ctx) (m : MWord), issued s t c 0x00 = some (x, m) →
    (wordFault m = 2 → ∃ u, exec (.nop t c) s = .next u ∧ FlowFaulted s u t c 2) ∧
    (wordFault m = 0 → capFault s x x m = false → (m.sq = 3 ∧ 8 ≤ x.stack.length) ∨ (m.sq = 4 ∧ x.stack = []) →
      ∃ u, exec (.nop t c) s = .next u ∧ FlowFaulted s u t c 3) ∧
    (wordFault m = 0 → m.sq = 0 → regionEnd x.pc = true →
      ∃ u, exec (.nop t c) s = .next u ∧ FlowFaulted s u t c 5) ∧
    (wordFault m = 0 → atSkim x.pc = true → m.sq = 1 → skimTarget m.target = false →
      ∃ u, exec (.nop t c) s = .next u ∧ FlowFaulted s u t c 4))

/-- An LD that falls through and keeps the rules of its space: from SRAM, scratch and a buffer RD takes the bytes at RA +
IMM as the tile's buffered stores leave them, zero-extended; from DRAM the cached bytes, or on a miss the load waits
in a miss register and takes the line's bytes when it arrives. A misaligned access raises MW_ALIGN, one outside its
space MW_BUS. An ST puts its bytes into the tile's buffer and changes no memory; when it is acknowledged the bytes at
its address, and no others, hold the data. A snooped line leaves the tile's cache. -/
def Obligations.LoadsAndStores : Prop :=
  (∀ (s : State) (t c : Nat) (x : Ctx) (m : MWord), FallsThrough s t c 0x20 x m → accessFault s x m false = 0 →
    (atSkim x.pc = true → 3 ≤ m.space) →
    (m.space = 1 ∨ m.space = 3 ∨ m.space = 4 → (getTile s t).stores = [] →
      ∃ u, exec (.ld t c false) s = .next u ∧ WentOn s u t c x ∧ OnlyReg x (getCtx u (ctxKey t c)) m.rd ∧
        SameFlags x (getCtx u (ctxKey t c)) ∧ (gReg (getCtx u (ctxKey t c)) m.rd).toNat =
          leValue (spaceBytes s x m.space (accessAddr x m) (accessBytes m))) ∧
    (m.space = 1 ∨ m.space = 3 ∨ m.space = 4 → ∀ l d,
      (getTile s t).stores = l ++ [⟨ctxKey t c, m.space, accessAddr x m, accessBytes m, d⟩] →
      ∃ u, exec (.ld t c false) s = .next u ∧ WentOn s u t c x ∧
        (gReg (getCtx u (ctxKey t c)) m.rd).toNat = d % 256 ^ accessBytes m) ∧
    (m.space = 0 → (getTile s t).stores = [] → ∀ w, cacheFind s t (accessAddr x m / 64) = some w →
      ∃ u, exec (.ld t c false) s = .next u ∧ WentOn s u t c x ∧ (gReg (getCtx u (ctxKey t c)) m.rd).toNat =
        (tget ({} : CacheLine) (getTile s t).cache (16 * (accessAddr x m / 64 % cacheSets s) + w)).data /
          256 ^ (accessAddr x m % 64) % 256 ^ accessBytes m) ∧
    (m.space = 0 → cacheFind s t (accessAddr x m / 64) = none → (getTile s t).misses = [] →
      ∃ u, exec (.ld t c false) s = .next u ∧ (getCtx u (ctxKey t c)).wait = .load ∧
        (getCtx u (ctxKey t c)).regs = x.regs ∧ (getCtx u (ctxKey t c)).pc = x.pc ∧
        (getTile u t).misses = [(accessAddr x m / 64, [⟨ctxKey t c, m.rd, accessAddr x m, accessBytes m⟩])] ∧
        u.trw.dram = s.trw.dram ∧ Unchanged [.trw] s u)) ∧
  (∀ (s : State) (t c : Nat) (x : Ctx) (m : MWord), FallsThrough s t c 0x20 x m → (atSkim x.pc = true → 3 ≤ m.space) →
    (accessAddr x m % accessBytes m ≠ 0 → ∀ e, ∃ u, exec (.ld t c e) s = .next u ∧ FlowFaulted s u t c 7) ∧
    (accessAddr x m % accessBytes m = 0 → spaceHolds s x m.space (accessAddr x m) (accessBytes m) = false →
      ∀ e, ∃ u, exec (.ld t c e) s = .next u ∧ FlowFaulted s u t c 8)) ∧
  (∀ (s : State) (t c line rd a n w : Nat) (m : MWord), t < 32 → c < 8 →
    (getTile s t).misses = [(line, [⟨ctxKey t c, rd, a, n⟩])] → (getTile s t).stores = [] →
    (getCtx s (ctxKey t c)).busy = true → (getCtx s (ctxKey t c)).wait = .load → (getCtx s (ctxKey t c)).word = some w →
    m = MWord.ofNat w → wordFault m = 0 → m.sq = 0 → m.opc = 0x20 → atSkim (getCtx s (ctxKey t c)).pc = false →
    regionEnd (getCtx s (ctxKey t c)).pc = false → n ≤ 8 →
    ∃ u, exec (.loadMissFill t line false) s = .next u ∧ (getTile u t).misses = [] ∧
      (gReg (getCtx u (ctxKey t c)) rd).toNat = leValue (memRead s.trw.dram a n) ∧
      OnlyReg (getCtx s (ctxKey t c)) (getCtx u (ctxKey t c)) rd ∧ (getCtx u (ctxKey t c)).wait = .none ∧
      (getCtx u (ctxKey t c)).pc = (getCtx s (ctxKey t c)).pc + 1 ∧ u.trw.dram = s.trw.dram ∧ Unchanged [.trw] s u) ∧
  (∀ (s : State) (t c : Nat) (x : Ctx) (m : MWord) (ok : Bool), FallsThrough s t c 0x21 x m →
    accessFault s x m false = 0 → (atSkim x.pc = true → 3 ≤ m.space) → (getTile s t).stores.length < 4 →
    ∃ u, exec (.st t c false ok) s = .next u ∧ WentOn s u t c x ∧ (∀ i, gReg (getCtx u (ctxKey t c)) i = gReg x i) ∧
      SameFlags x (getCtx u (ctxKey t c)) ∧ (getTile u t).stores = (getTile s t).stores ++
        [⟨ctxKey t c, m.space, accessAddr x m, accessBytes m, (gReg x m.rb).toNat % 256 ^ accessBytes m⟩]) ∧
  (∀ (s : State) (t : Nat) (e : StoreEnt) (l : List StoreEnt) (ok : Bool), t < 32 → (getTile s t).stores = e :: l →
    (e.space = 0 → ∃ u, exec (.storeAck t 0 ok) s = .next u ∧ memRead u.trw.dram e.addr e.size = leBytes e.data e.size ∧
      (∀ a, a < e.addr ∨ e.addr + e.size ≤ a → tget 0 u.trw.dram a = tget 0 s.trw.dram a) ∧
      u.trw.sram = s.trw.sram ∧ u.trw.ctxs = s.trw.ctxs ∧ Unchanged [.trw] s u) ∧
    (e.space = 1 → ∃ u, exec (.storeAck t 0 ok) s = .next u ∧ memRead u.trw.sram e.addr e.size = leBytes e.data e.size ∧
      (∀ a, a < e.addr ∨ e.addr + e.size ≤ a → tget 0 u.trw.sram a = tget 0 s.trw.sram a) ∧
      u.trw.dram = s.trw.dram ∧ u.trw.ctxs = s.trw.ctxs ∧ (getTile u t).stores = l ∧ Unchanged [.trw] s u) ∧
    (e.space = 3 → ∃ u, exec (.storeAck t 0 ok) s = .next u ∧
      memRead (getCtx u e.ctx).scratch e.addr e.size = leBytes e.data e.size ∧
      (∀ a, a < e.addr ∨ e.addr + e.size ≤ a → tget 0 (getCtx u e.ctx).scratch a = tget 0 (getCtx s e.ctx).scratch a) ∧
      u.trw.dram = s.trw.dram ∧ u.trw.sram = s.trw.sram ∧ (∀ k, k ≠ e.ctx → getCtx u k = getCtx s k) ∧
      Unchanged [.trw] s u) ∧
    (e.space = 4 → ∃ u, exec (.storeAck t 0 ok) s = .next u ∧
      memRead (tget {} (getCtx u e.ctx).bufs (bufHandle e.addr)).data (bufByte e.addr) e.size = leBytes e.data e.size ∧
      (∀ h, h ≠ bufHandle e.addr → tget {} (getCtx u e.ctx).bufs h = tget {} (getCtx s e.ctx).bufs h) ∧
      (∀ a, a < bufByte e.addr ∨ bufByte e.addr + e.size ≤ a →
        tget 0 (tget {} (getCtx u e.ctx).bufs (bufHandle e.addr)).data a =
          tget 0 (tget {} (getCtx s e.ctx).bufs (bufHandle e.addr)).data a) ∧
      u.trw.dram = s.trw.dram ∧ u.trw.sram = s.trw.sram ∧ (∀ k, k ≠ e.ctx → getCtx u k = getCtx s k) ∧
      Unchanged [.trw] s u)) ∧
  (∀ (s : State) (t line : Nat), t < 32 →
    ∃ u, exec (.snoopInvalidate t line) s = .next u ∧ (∀ e ∈ (getTile u t).cache, e.2.line ≠ line) ∧
      (∀ e ∈ (getTile s t).cache, e.2.line ≠ line → e ∈ (getTile u t).cache) ∧
      (∀ k, k ≠ t → getTile u k = getTile s k) ∧ u.trw.dram = s.trw.dram ∧ u.trw.ctxs = s.trw.ctxs ∧ Unchanged [.trw] s u)

/-- FENCE.W goes on once the store buffer is empty. SEND sends RB to RB+3 to the agent in RA. WAIT and POLL take the
oldest message into RD to RD+3 with T 0; without one WAIT waits, and POLL goes on with T 1. A message that arrives at
a waiting context completes its WAIT, else it joins the inbox of four; a WAIT whose time is up goes on with T 1. TIME
writes the device time. STCS waits with its write queued; when it is committed the word and its copy hold the value
and the context may go on. -/
def Obligations.MessagesFencesAndStores : Prop :=
  (∀ (s : State) (t c : Nat) (x : Ctx) (m : MWord), FallsThrough s t c 0x22 x m → (getTile s t).stores = [] →
    ∃ u, exec (.fenceW t c) s = .next u ∧ WentOn s u t c x ∧ (∀ i, gReg (getCtx u (ctxKey t c)) i = gReg x i)) ∧
  (∀ (s : State) (t c : Nat) (x : Ctx) (m : MWord), FallsThrough s t c 0x22 x m → (getTile s t).stores ≠ [] →
    exec (.fenceW t c) s = .next s) ∧
  (∀ (s : State) (t c : Nat) (x : Ctx) (m : MWord), FallsThrough s t c 0x30 x m → atSkim x.pc = false →
    m.imm = 0 ∨ (getTile s t).stores = [] →
    ∃ u, exec (.send t c) s = .next u ∧
      u.out = .message ((gReg x m.ra).toNat % 65536)
        [gReg x m.rb, gReg x (m.rb + 1), gReg x (m.rb + 2), gReg x (m.rb + 3)] :: s.out ∧
      (getCtx u (ctxKey t c)).pc = x.pc + 1 ∧ (∀ i, gReg (getCtx u (ctxKey t c)) i = gReg x i) ∧
      (∀ k, k ≠ ctxKey t c → getCtx u k = getCtx s k) ∧ Unchanged [.out, .trw] s u) ∧
  (∀ (s : State) (t c : Nat) (x : Ctx) (m : MWord) (ws : List DWord) (l : List (List DWord)), x.inbox = ws :: l →
    (FallsThrough s t c 0x31 x m → ∃ u, exec (.wait t c) s = .next u ∧ (getCtx u (ctxKey t c)).inbox = l ∧
      (∀ i < 4, gReg (getCtx u (ctxKey t c)) (m.rd + i) = ws.getD i 0) ∧
      (∀ r, r < m.rd ∨ m.rd + 4 ≤ r → gReg (getCtx u (ctxKey t c)) r = gReg x r) ∧
      (getCtx u (ctxKey t c)).t = false ∧ (getCtx u (ctxKey t c)).pc = x.pc + 1 ∧ Unchanged [.trw] s u) ∧
    (FallsThrough s t c 0x32 x m → ∃ u, exec (.poll t c) s = .next u ∧ (getCtx u (ctxKey t c)).inbox = l ∧
      (∀ i < 4, gReg (getCtx u (ctxKey t c)) (m.rd + i) = ws.getD i 0) ∧
      (∀ r, r < m.rd ∨ m.rd + 4 ≤ r → gReg (getCtx u (ctxKey t c)) r = gReg x r) ∧
      (getCtx u (ctxKey t c)).t = false ∧ (getCtx u (ctxKey t c)).pc = x.pc + 1 ∧ Unchanged [.trw] s u)) ∧
  (∀ (s : State) (t c : Nat) (x : Ctx) (m : MWord), x.inbox = [] →
    (FallsThrough s t c 0x31 x m → ∃ u, exec (.wait t c) s = .next u ∧ (getCtx u (ctxKey t c)).wait =
        .message (if m.imm = 0 then none else some (s.tb.ns + m.imm)) ∧ (getCtx u (ctxKey t c)).pc = x.pc ∧
      (getCtx u (ctxKey t c)).regs = x.regs ∧ Unchanged [.trw] s u) ∧
    (FallsThrough s t c 0x32 x m → ∃ u, exec (.poll t c) s = .next u ∧ WentOn s u t c x ∧
      (getCtx u (ctxKey t c)).t = true ∧ (∀ i, gReg (getCtx u (ctxKey t c)) i = gReg x i) ∧
      SameFlags x (getCtx u (ctxKey t c)))) ∧
  (∀ (s : State) (t c : Nat) (x : Ctx) (m : MWord), FallsThrough s t c 0x33 x m →
    ∃ u, exec (.time t c) s = .next u ∧ WentOn s u t c x ∧
      gReg (getCtx u (ctxKey t c)) m.rd = BitVec.ofNat 64 s.tb.ns ∧ OnlyReg x (getCtx u (ctxKey t c)) m.rd) ∧
  (∀ (s : State) (t c w : Nat) (x : Ctx) (m : MWord) (ws : List DWord), t < 32 → c < 8 → x = getCtx s (ctxKey t c) →
    x.busy = true →
    (x.wait = .none → x.inbox.length < 4 → ∃ u, exec (.messageArrival t c ws) s = .next u ∧
      getCtx u (ctxKey t c) = { x with inbox := x.inbox ++ [ws] } ∧ Unchanged [.trw] s u) ∧
    (∀ d, x.wait = .message d → x.word = some w → m = MWord.ofNat w → m.opc = 0x31 → wordFault m = 0 → m.sq = 0 →
      regionEnd x.pc = false →
      (∃ u, exec (.messageArrival t c ws) s = .next u ∧ (∀ i < 4, gReg (getCtx u (ctxKey t c)) (m.rd + i) = ws.getD i 0) ∧
        (getCtx u (ctxKey t c)).t = false ∧ (getCtx u (ctxKey t c)).wait = .none ∧
        (getCtx u (ctxKey t c)).pc = x.pc + 1 ∧ Unchanged [.trw] s u) ∧
      (∀ e, d = some e → e ≤ s.tb.ns → ∃ u, exec (.waitTimeout t c) s = .next u ∧ (getCtx u (ctxKey t c)).t = true ∧
        (∀ i, gReg (getCtx u (ctxKey t c)) i = gReg x i) ∧ (getCtx u (ctxKey t c)).wait = .none ∧
        (getCtx u (ctxKey t c)).pc = x.pc + 1 ∧ Unchanged [.trw] s u))) ∧
  (∀ (s : State) (t c : Nat) (x : Ctx) (m : MWord), FallsThrough s t c 0x38 x m → atSkim x.pc = false →
    0x30000 ≤ (gReg x m.ra).toNat % 2 ^ 18 →
    ∃ u, exec (.stcs t c) s = .next u ∧ (getCtx u (ctxKey t c)).wait = .stcs ∧ (getCtx u (ctxKey t c)).pc = x.pc + 1 ∧
      (getCtx u (ctxKey t c)).word = some (csFetch s (x.pc + 1)) ∧
      u.trw.stcs = s.trw.stcs ++ [⟨ctxKey t c, (gReg x m.ra).toNat % 2 ^ 18,
        (gReg x m.rb).toNat + (gReg x (m.rb + 1)).toNat * 2 ^ 64⟩] ∧ u.trw.cs = s.trw.cs ∧ Unchanged [.trw] s u) ∧
  (∀ (s : State) (h : Stcs) (l : List Stcs), s.trw.stcs = h :: l → (getCtx s h.ctx).wait = .stcs → 0x30000 ≤ h.addr →
    ∃ u, exec .stcsComplete s = .next u ∧ csWord u h.addr = h.word ∧ tget csFill u.trw.csCopy h.addr = h.word ∧
      (∀ a, a ≠ h.addr → csWord u a = csWord s a) ∧ u.trw.stcs = l ∧ (getCtx u h.ctx).wait = .none ∧
      (∀ k, k ≠ h.ctx → getCtx u k = getCtx s k) ∧ Unchanged [.trw] s u)

/-- A context that runs a service returns from it with its status in G16 and Z telling success. VERSION gives the
interface version. BUF_ALLOC gives the lowest free handle a zeroed buffer, and 0x010A with four or a bad size;
BUF_FREE frees one. NS_INFO gives size and attributes, or 0x0105. NS_READ puts the blocks of a range into the buffer;
NS_WRITE, NS_ZERO, HOST_READ, HOST_WRITE, BUF_CRC, FLUSH and PUSH_BUF return the status of the first check that fails;
BUF_CRC the continued CRC, HOST_WRITE and HOST_READ move bytes between the buffer and the host, FLUSH returns once
nothing is left in the write buffer, and an NS_WRITE or NS_ZERO whose change has its copies returns 0. -/
def Obligations.VendorServices : Prop :=
  (∀ (s : State) (t c : Nat) (x : Ctx), serving s t c 0x00 = some x →
    ∃ u, exec (.version t c) s = .next u ∧ Returned u t c x 0 [s.trw.entryIf] ∧ (getCtx u (ctxKey t c)).bufs = x.bufs ∧
      Unchanged [.freeCtr, .trw] s u) ∧
  (∀ (s : State) (t c h : Nat) (x : Ctx), serving s t c 0x01 = some x → 1 ≤ h → h ≤ 4 → flowBuf x h = none →
    (∀ i, 1 ≤ i → i < h → flowBuf x i ≠ none) → 1 ≤ arg x 0 → arg x 0 ≤ 16 →
    ∃ u, exec (.bufAlloc t c true) s = .next u ∧ Returned u t c x 0 [h] ∧
      flowBuf (getCtx u (ctxKey t c)) h = some { len := 4096 * arg x 0 } ∧
      (∀ i, i ≠ h → flowBuf (getCtx u (ctxKey t c)) i = flowBuf x i) ∧ Unchanged [.freeCtr, .trw] s u) ∧
  (∀ (s : State) (t c : Nat) (x : Ctx) (r : Bool), serving s t c 0x01 = some x →
    (∀ h, 1 ≤ h → h ≤ 4 → flowBuf x h ≠ none) ∨ arg x 0 = 0 ∨ 16 < arg x 0 →
    ∃ u, exec (.bufAlloc t c r) s = .next u ∧ Returned u t c x 0x010A [] ∧ (getCtx u (ctxKey t c)).bufs = x.bufs) ∧
  (∀ (s : State) (t c : Nat) (x : Ctx), serving s t c 0x02 = some x → flowBuf x (arg x 0) ≠ none →
    ∃ u, exec (.bufFree t c) s = .next u ∧ Returned u t c x 0 [] ∧ flowBuf (getCtx u (ctxKey t c)) (arg x 0) = none ∧
      (∀ i, i ≠ arg x 0 → flowBuf (getCtx u (ctxKey t c)) i = flowBuf x i) ∧ Unchanged [.freeCtr, .trw] s u) ∧
  (∀ (s : State) (t c : Nat) (x : Ctx) (bad : List BadBlock), serving s t c 0x03 = some x → spanArgsOk x = true →
    nsStatus s x (arg x 2) (arg x 3) (arg x 4) = 0 →
    spanStatus (readSpan s x.tenant (arg x 2) ((getNs s x.tenant (arg x 2)).getD {}).pool (arg x 3) (arg x 4) bad) = 0 →
    ∃ u, exec (.nsRead t c bad) s = .next u ∧ Returned u t c x 0 [] ∧
      flowBuf (getCtx u (ctxKey t c)) (arg x 0) = some (bufBlocks ((flowBuf x (arg x 0)).getD {}) (arg x 1) (spanData
        (readSpan s x.tenant (arg x 2) ((getNs s x.tenant (arg x 2)).getD {}).pool (arg x 3) (arg x 4) bad))) ∧
      u.udc.gran = s.udc.gran ∧ u.udc.slots = s.udc.slots ∧ Unchanged [.freeCtr, .trw, .udc] s u) ∧
  (∀ (s : State) (t c : Nat) (x : Ctx) (cl : List Nat) (bad : List BadBlock) (d : Cmd), getCmd s (x.seq.getD 0) = some d →
    d.stage = 1 → d.mids = [] → d.q ≠ 0 →
    (serving s t c 0x04 = some x → ∃ u, exec (.nsWrite t c cl bad) s = .next u ∧ Returned u t c x 0 [] ∧
      getCmd u (x.seq.getD 0) = some { d with stage := 0 }) ∧
    (serving s t c 0x05 = some x → ∃ u, exec (.nsZero t c cl bad) s = .next u ∧ Returned u t c x 0 [] ∧
      getCmd u (x.seq.getD 0) = some { d with stage := 0 })) ∧
  (∀ (s : State) (t c : Nat) (x : Ctx) (cl : List Nat) (bad : List BadBlock), landed s x = false →
    (serving s t c 0x04 = some x → spanArgsOk x = false →
      ∃ u, exec (.nsWrite t c cl bad) s = .next u ∧ Returned u t c x 0x010A [] ∧ Unchanged [.freeCtr, .trw] s u) ∧
    (serving s t c 0x05 = some x → 0 < arg x 4 → nsStatus s x (arg x 2) (arg x 3) (arg x 4) ≠ 0 →
      ∃ u, exec (.nsZero t c cl bad) s = .next u ∧ Returned u t c x (nsStatus s x (arg x 2) (arg x 3) (arg x 4)) [] ∧
        Unchanged [.freeCtr, .trw] s u)) ∧
  (∀ (s : State) (t c : Nat) (x : Ctx), serving s t c 0x06 = some x →
    (getNs s x.tenant (arg x 2) = none →
      ∃ u, exec (.nsInfo t c) s = .next u ∧ Returned u t c x 0x0105 [] ∧ Unchanged [.freeCtr, .trw] s u) ∧
    (∀ ns, getNs s x.tenant (arg x 2) = some ns → ∃ u, exec (.nsInfo t c) s = .next u ∧
      Returned u t c x 0 [ns.size, ns.pool % 4 + 4 * b2n ns.compress + 8 * b2n (poolReady s ns.pool)] ∧
      Unchanged [.freeCtr, .trw] s u)) ∧
  (∀ (s : State) (t c : Nat) (x : Ctx) (data : List Byte), serving s t c 0x07 = some x → hostStatus s x = 0 →
    (getFn s x.fid).live = true →
    (data.length = arg x 3 → ∃ u, exec (.hostRead t c data true) s = .next u ∧ Returned u t c x 0 [] ∧
      memRead ((flowBuf (getCtx u (ctxKey t c)) (arg x 0)).getD {}).data (arg x 1) (arg x 3) = data ∧
      u.out = (hostGet s x.fid (arg x 2) (arg x 3)).out ∧ Unchanged [.out, .freeCtr, .trw] s u) ∧
    (∃ u, exec (.hostRead t c data false) s = .next u ∧ Returned u t c x 0x0107 [] ∧
      (getCtx u (ctxKey t c)).bufs = x.bufs)) ∧
  (∀ (s : State) (t c : Nat) (x : Ctx) (ok : Bool), serving s t c 0x08 = some x → hostStatus s x = 0 →
    (getFn s x.fid).live = true →
    ∃ u, exec (.hostWrite t c ok) s = .next u ∧ Returned u t c x (if ok then 0 else 0x0107) [] ∧
      u.out = (hostPut s x.fid (arg x 2)
        (memRead ((flowBuf x (arg x 0)).getD {}).data (arg x 1) (arg x 3))).out ∧ Unchanged [.out, .freeCtr, .trw] s u) ∧
  (∀ (s : State) (t c : Nat) (x : Ctx), serving s t c 0x09 = some x → bytesOk x (arg x 0) (arg x 1) (arg x 2) = true →
    ∃ u, exec (.bufCrc t c) s = .next u ∧ Returned u t c x 0 [crc32cFrom (arg x 3 % 2 ^ 32)
      (memRead ((flowBuf x (arg x 0)).getD {}).data (arg x 1) (arg x 2))] ∧ Unchanged [.freeCtr, .trw] s u) ∧
  (∀ (s : State) (t c : Nat) (x : Ctx), serving s t c 0x0A = some x → keyThere s x = true →
    (getNs s x.tenant (arg x 2)).isSome = true →
    flushPending s x.tenant (arg x 2) (arg x 3 % 2 == 1) (x.seq.getD 0 + 1) = false →
    ∃ u, exec (.serviceFlush t c) s = .next u ∧ Returned u t c x 0 [] ∧ Unchanged [.freeCtr, .trw, .udc] s u) ∧
  (∀ (s : State) (t c : Nat) (x : Ctx) (g : Grant) (fenceOk : Bool), serving s t c 0x0B = some x →
    bytesOk x (arg x 0) (arg x 1) (arg x 2) = true → arg x 4 % 4 = 0 → keyThere s x = true → arg x 3 ≤ 15 →
    g = tget {} (getTen s x.tenant).grants (arg x 3) → arg x 4 + arg x 2 ≤ g.len → (getFn s x.fid).live = true →
    fget s (HPT_LINK_DL_UP.ix g.port 0x1000) ≠ 0 →
    ∃ u, exec (.pushBuf t c fenceOk) s = .next u ∧ Returned u t c x (if g.fence && !fenceOk then 0x0107 else 0) [] ∧
      Out.peerWrite g.port (g.base + arg x 4) (memRead ((flowBuf x (arg x 0)).getD {}).data (arg x 1) (arg x 2)) ∈ u.out)

/-- An abort that reaches a busy context frees it and ends its command with 0x0401; an undefined opcode and an expired
context watchdog raise MW_UNDEF and MW_WDOG. A failed tile, a tile whose watchdog expires and a spare that fails its
self-test are retired; the lowest spare takes the tile's number, its commands wait for dispatch again. A scrub's
corrected word counts, an uncorrectable RAM word is marked, and restored from its copy with its mark cleared. The
window shows the word at a Skim address and 0 with DENIED below. A covered snoop filter leaves no line of its channel
in any cache. -/
def Obligations.FlowsAbortTilesFail : Prop :=
  (∀ (s : State) (t c n : Nat) (d : Cmd), (getCtx s (ctxKey t c)).busy = true → (getCtx s (ctxKey t c)).seq = some n →
    getCmd s n = some d → d.done = none →
    (∃ u, exec (.flowAbort t c false) s = .next u ∧ getCtx u (ctxKey t c) = {} ∧
      getCmd u n = some { d with done := some 0x0401, result := n % 2 ^ 32 } ∧
      (∀ k, k ≠ ctxKey t c → getCtx u k = getCtx s k) ∧ Unchanged [.trw, .cmds] s u) ∧
    (∃ u, exec (.flowAbort t c true) s = .next u ∧ FlowFaulted s u t c 1) ∧
    (fget s TRW_WDOG_LIMIT * 1024 ≤ (getCtx s (ctxKey t c)).count →
      ∃ u, exec (.contextWatchdog t c) s = .next u ∧ FlowFaulted s u t c 6)) ∧
  (∀ (s : State) (t c : Nat), (getCtx s (ctxKey t c)).count < fget s TRW_WDOG_LIMIT * 1024 →
    exec (.contextWatchdog t c) s = .next s) ∧
  (∀ (s : State) (p : Nat), p < 34 → tileRetired s p = false →
    ∃ u, exec (.tileFail p) s = .next u ∧ tileRetired u p = true ∧ isRetired u (.tile p) = true ∧
      ∀ t, logicalOf s p = some t →
        (∀ sp, (spareTiles s).head? = some sp → physOf u t = sp) ∧ (spareTiles s = [] → physOf u t = 0x3F) ∧
        (∀ c < 8, (getCtx u (ctxKey t c)).busy = false) ∧
        ∀ c < 8, ∀ n d, (getCtx s (ctxKey t c)).seq = some n → getCmd s n = some d → d.q ≠ 0 →
          ∃ e, getCmd u n = some e ∧ e.bound = none ∧ e.sqe = d.sqe) ∧
  (∀ (s : State) (t : Nat), t < 32 → physOf s t < 34 → (∃ c < 8, ctxReady s (ctxKey t c) = true) →
    ∃ u, exec (.tileWatchdog t) s = .next u ∧ tileRetired u (physOf s t) = true) ∧
  (∀ (s : State) (p : Nat), (spareTiles s).contains p = true →
    (∃ u, exec (.spareSelftest p false) s = .next u ∧ tileRetired u p = true) ∧
    exec (.spareSelftest p true) s = .next s) ∧
  (∀ (s : State) (a copy : Nat), a < 0x40000 → 0x30000 ≤ a →
    (∃ u, exec (.scrubRead a 1 copy) s = .next u ∧ tget 0 u.trw.csErr a = 0 ∧
      fget u TRW_SCRUB_STAT_CORR = min (fget s TRW_SCRUB_STAT_CORR + 1) 65535 ∧
      RegsBut [TRW_SCRUB_STAT_CORR.off] s u ∧ Unchanged [.regs, .trw] s u) ∧
    (∃ u, exec (.scrubRead a 2 copy) s = .next u ∧ tget 0 u.trw.csErr a = 2 ∧ u.trw.cs = s.trw.cs ∧
      Unchanged [.trw] s u)) ∧
  (∀ (s : State) (a : Nat), 0x30000 ≤ a → a < 0x40000 → tget 0 s.trw.csErr a = 2 →
    ∃ u, exec (.csWordRestore a true) s = .next u ∧ csWord u a = tget csFill s.trw.csCopy a ∧ tget 0 u.trw.csErr a = 0 ∧
      (∀ b, b ≠ a → csWord u b = csWord s b)) ∧
  (∀ (s : State) (v : Word), ∃ u, exec (.csWindowSelect v) s = .next u ∧ fget u TRW_CS_ADDR_ADDR = v.toNat % 2 ^ 18 ∧
    fget u TRW_CS_CHK_DENIED = b2n (decide (v.toNat % 2 ^ 18 < 0x38000)) ∧
    (∀ i < 4, fget u (TRW_CS_DATA_DATA.ix i 4) =
      if v.toNat % 2 ^ 18 < 0x38000 then 0 else csWord s (v.toNat % 2 ^ 18) / 2 ^ (32 * i) % 2 ^ 32) ∧
    RegsBut [TRW_CS_ADDR_ADDR.off, TRW_CS_DATA_DATA.off, TRW_CS_DATA_DATA.off + 4, TRW_CS_DATA_DATA.off + 8,
      TRW_CS_DATA_DATA.off + 12, TRW_CS_CHK_DENIED.off] s u ∧ Unchanged [.regs] s u) ∧
  (∀ (s : State) (c : Nat), c < 4 →
    ∃ u, exec (.snoopFilterCover c) s = .next u ∧
      ∀ t < 32, ∀ e ∈ (getTile u t).cache, dramChanOf s (64 * e.2.line) ≠ c)

/-- DESTAGE_TAKE moves the oldest dirty slot's granule, whose blocks all read, into its head's open stripe while it has
room, and the slot is being destaged. STRIPE_SEAL of a full stripe, the head's oldest, and SEAL_TIMEOUT of a stripe
padded after its time leave the stripe on media with its units, members and parts; a parity mismatch or a failed strip
leaves the media as they are, and the failing member is charged. MIRROR_RELEASE frees the slots of the next sealed and
mapped stripe. SEGMENT_ERASE leaves an emptied segment free without a stripe. -/
def Obligations.DestageAndSeal : Prop :=
  (∀ (s : State) (i : Nat) (x : Slot) (bs : List Nat) (o : OpenStripe) (bad : List BadBlock), oldestDirty s = some (i, x) →
    poolOf s x.id = some 0 → granBlocks s { kind := 2, slot := i } x.id.gran bad = .ok bs → bs.length = 4 →
    fillingStripe s 0 = some o → 4 ≤ o.room →
    ∃ t, exec (.destageTake bad) s = .next t ∧ (getSlot t i).state = 3 ∧ (getSlot t i).id = (getSlot s i).id ∧
      (∀ k, k ≠ i → getSlot t k = getSlot s k) ∧
      (∃ q ∈ t.udc.open_, q.head = 0 ∧ q.seg = o.seg ∧ q.stripe = o.stripe ∧ q.units.length = o.units.length +
          (granUnits bs x.id 0 x.clen x.gen x.tags).length ∧ ∃ p ∈ q.parts, p.id = x.id ∧ p.slot = some i ∧ p.blocks = bs) ∧
      t.udc.gran = s.udc.gran ∧ Unchanged [.udc] s t) ∧
  (∀ (s : State) (disk : Bool) (seg k : Nat) (o : OpenStripe), findOpen s disk seg k = some o → o.full = true →
    (headOpen s o.head).head? = some o →
    (∃ t, exec (.stripeSeal disk seg k true) s = .next t ∧
      (getStripe t disk seg k).data = o.units ∧ (getStripe t disk seg k).members = (getSeg s disk seg).members ∧
      (getStripe t disk seg k).parts = o.parts ∧ (getStripe t disk seg k).sealed_ = true ∧
      (∀ d g n, stripeKey d g n ≠ stripeKey disk seg k → getStripe t d g n = getStripe s d g n) ∧ o ∉ t.udc.open_) ∧
    (∃ t, exec (.stripeSeal disk seg k false) s = .next t ∧ t.nv = s.nv ∧ t.udc.gran = s.udc.gran ∧
      t.udc.ext = s.udc.ext)) ∧
  (∀ (s : State) (disk : Bool) (seg k : Nat) (o : OpenStripe), findOpen s disk seg k = some o → o.full = false →
    o.units ≠ [] → o.lastNs + (image s).pools.sealTmo * 1000 ≤ s.tb.ns → (headOpen s o.head).head? = some o →
    ∃ t, exec (.sealTimeout disk seg k) s = .next t ∧
      (getStripe t disk seg k).data = o.units ++ List.replicate o.room padUnit ∧
      (getStripe t disk seg k).parts = o.parts ∧
      ∀ d g n, stripeKey d g n ≠ stripeKey disk seg k → getStripe t d g n = getStripe s d g n) ∧
  (∀ (s : State) (disk : Bool) (seg k m : Nat) (o : OpenStripe), findOpen s disk seg k = some o →
    (getSeg s disk seg).members.contains m = true → m < 64 →
    ∃ t, exec (.stripWriteFail disk seg k m) s = .next t ∧ t.nv = s.nv ∧
      tget 0 t.udc.mediaErr (m + b2n disk * 64 + b2n (disk && seg % 2 == 1) * 128) =
        tget 0 s.udc.mediaErr (m + b2n disk * 64 + b2n (disk && seg % 2 == 1) * 128) + 1) ∧
  (∀ (s : State) (k : Nat) (is : List Nat) (rest : List (Nat × List Nat)), s.udc.releaseReady = (k, is) :: rest →
    ∃ t, exec .mirrorRelease s = .next t ∧ t.udc.releaseReady = rest ∧ (∀ i ∈ is, getSlot t i = {}) ∧
      (∀ i, i ∉ is → getSlot t i = getSlot s i) ∧ t.udc.gran = s.udc.gran ∧ t.nv = s.nv) ∧
  (∀ (s : State) (disk : Bool) (seg : Nat), s.udc.eraseReady.contains (segKey disk seg) = true →
    ∃ t, exec (.segmentErase disk seg) s = .next t ∧ getSeg t disk seg = {} ∧
      (∀ e ∈ t.nv.pools.stripes, ¬(e.1 % 2 = b2n disk ∧ e.1 / 2 / 8192 = seg)) ∧
      segKey disk seg ∉ t.udc.eraseReady ∧ (∀ d g, segKey d g ≠ segKey disk seg → getSeg t d g = getSeg s d g) ∧
      t.udc.gran = s.udc.gran ∧ t.udc.ext = s.udc.ext)

/-- A member that leaves has its strip marked lost in every sealed segment that names it. A rebuild visit and a garbage
collection whose valid units can move queue the segment for its erase and leave the media as they are. An extent that
is due, or the coldest while the flash share is above its limit, or a hot one, joins open stripes. HEAT_DECAY halves
every extent's heat. A lost DRAM channel is retired with reduction 3. -/
def Obligations.RebuildCollectSettle : Prop :=
  (∀ (s : State) (disk : Bool) (m seg : Nat), m < 32 → (getSeg s disk seg).state = 2 →
    (getSeg s disk seg).members.contains m = true →
    ∃ t, exec (.memberRetire disk m none) s = .next t ∧ m ∈ (getSeg t disk seg).lost ∧
      (getSeg t disk seg).members = (getSeg s disk seg).members) ∧
  (∀ (s u : State) (disk : Bool) (i : Nat) (bad : List BadBlock), rebuildNext s disk = some i → prevIn s disk i = false →
    relocate s disk i bad = some u →
    ∃ t, exec (.rebuildVisit disk bad) s = .next t ∧ segKey disk i ∈ t.udc.erase ∧
      t.nv.pools.stripes = s.nv.pools.stripes) ∧
  (∀ (s u : State) (disk : Bool) (i : Nat) (bad : List BadBlock), gcRuns s disk = true → gcNext s disk = some i →
    relocate s disk i bad = some u →
    ∃ t, exec (.gcCollect disk bad) s = .next t ∧ segKey disk i ∈ t.udc.erase ∧
      t.nv.pools.stripes = s.nv.pools.stripes) ∧
  (∀ (s u : State) (n k x pool : Nat) (id : GranId) (clens : List Nat) (bad : List BadBlock),
    extentId s n k x = some (id, pool) → 0 < pool → (getExt s n k x).kind ≠ 2 → extentDue s (getExt s n k x) = true →
    extentMoving s id = false → rewriteExtent (markUnreadable s id pool bad) 3 id pool clens bad = some u →
    ∃ t, exec (.extentDestage n k x clens bad) s = .next t ∧ extentMoving t id = true) ∧
  (∀ (s u : State) (n k x : Nat) (id : GranId) (clens : List Nat) (bad : List BadBlock),
    extentId s n k x = some (id, 2) → extentMoving s id = false → shareAbove s (image s).pools.settleHi = true →
    coldest s (getExt s n k x) = true →
    rewriteExtent (markUnreadable (modUdc s fun u => { u with settling := true }) id 2 bad) 4 id 2 clens bad = some u →
    ∃ t, exec (.settlingMove n k x false clens bad) s = .next t ∧ extentMoving t id = true) ∧
  (∀ (s u : State) (n k x : Nat) (id : GranId) (clens : List Nat) (bad : List BadBlock),
    extentId s n k x = some (id, 2) → extentMoving s id = false → shareAbove s (image s).pools.settleHi = false →
    (getExt s n k x).kind = 1 → (image s).pools.hotT ≤ (getExt s n k x).heat → shareHasRoom s = true →
    moveUp (modUdc s fun u => { u with settling := s.udc.settling && shareAbove s (image s).pools.settleLo }) id 2 bad =
      some u →
    ∃ t, exec (.settlingMove n k x true clens bad) s = .next t ∧ extentMoving t id = true) ∧
  (∀ s : State, (s.udc.ext.map (·.1)).Nodup →
    ∃ t, exec .heatDecay s = .next t ∧ (∀ k, tget {} t.udc.ext k =
      { tget {} s.udc.ext k with heat := (tget {} s.udc.ext k).heat / 2 }) ∧ t.udc.gran = s.udc.gran ∧
      Unchanged [.udc] s t) ∧
  (∀ (s : State) (c : Nat), (dramLive s).contains c = true →
    ∃ t, exec (.dramChannelLost c) s = .next t ∧ isRetired t (.dramChannel c) = true ∧
      fbit t GLB_STATUS_REDUCTION 3 = true)

/-- RESHAPE_GO without the key stores nothing but RSV_WRITE; with it, a request that R284 refuses shows RESULT alone, an
accepted one shows RESULT 1, the new member set and RESHAPE. A visit past the last segment ends the reshape.
LOCATION_LOG_PERSIST leaves the tables in the system area as they are. A checkpoint starts when it is due, or on
request; a request while one runs is latched; its end persists the tables and clears BUSY, or starts the latched one. -/
def Obligations.ReshapeAndCheckpoints : Prop :=
  (∀ (s : State) (v : Word), bitsGet v 14 1 = 1 → bitsGet v 16 16 ≠ 0xC0DE →
    ∃ t, exec (.reshapeGo v) s = .next t ∧ fget t UDC_STATUS_RSV_WRITE = 1 ∧ RegsBut [UDC_STATUS_RSV_WRITE.off] s t ∧
      Unchanged [.regs] s t) ∧
  (∀ (s : State) (v : Word), bitsGet v 14 1 = 1 → bitsGet v 16 16 = 0xC0DE →
    (∀ k, k ≠ 1 → reshapeJudge (fset s UDC_RESHAPE_CTL_POOL (bitsGet v 0 1)) (bitsGet v 0 1 == 1)
        (fget s UDC_RESHAPE_MEMB_MASK) = k →
      ∃ t, exec (.reshapeGo v) s = .next t ∧ fget t UDC_RESHAPE_STAT_RESULT = k ∧
        RegsBut [UDC_RESHAPE_CTL_POOL.off, UDC_RESHAPE_STAT_RESULT.off] s t ∧ Unchanged [.regs] s t) ∧
    (reshapeJudge (fset s UDC_RESHAPE_CTL_POOL (bitsGet v 0 1)) (bitsGet v 0 1 == 1)
        (fget s UDC_RESHAPE_MEMB_MASK) = 1 →
      ∃ t, exec (.reshapeGo v) s = .next t ∧ fget t UDC_RESHAPE_STAT_RESULT = 1 ∧ fget t UDC_STATUS_RESHAPE = 1 ∧
        (bitsGet v 0 1 = 0 → fget t UDC_FMEMB_MASK = fget s UDC_RESHAPE_MEMB_MASK) ∧
        (bitsGet v 0 1 = 1 → fget t UDC_DMEMB_MEMB = fget s UDC_RESHAPE_MEMB_MASK % 2 ^ 16) ∧
        (∃ r, t.udc.reshape = some r ∧ r.disk = (bitsGet v 0 1 == 1) ∧ r.visited = 0 ∧
          r.commit = (image s).pools.reshapeCkpt) ∧ t.nv.pools.reshape = t.udc.reshape)) ∧
  (∀ (s : State) (r : Reshape) (bad : List BadBlock), s.udc.reshape = some r → segCount s r.disk ≤ r.visited →
    ∃ t, exec (.reshapeVisit bad) s = .next t ∧ t.udc.reshape = none ∧ t.nv.pools.reshape = none ∧
      fget t UDC_STATUS_RESHAPE = 0) ∧
  (∀ (s : State) (r : Reshape) (bad : List BadBlock), s.udc.reshape = some r → r.visited < segCount s r.disk →
    r.visited ≠ r.commit → (getSeg s r.disk r.visited).geom = r.geom ∨ (getSeg s r.disk r.visited).state = 0 →
    ∃ t, exec (.reshapeVisit bad) s = .next t ∧ t.udc.reshape = some { r with visited := r.visited + 1 } ∧
      t.udc.segs = s.udc.segs ∧ Unchanged [.udc, .regs] s t) ∧
  (∀ s : State, ∃ t, exec .locationLogPersist s = .next t ∧ t.nv.pools.gran = s.udc.gran ∧ t.nv.pools.ext = s.udc.ext ∧
    t.nv.pools.segs = s.udc.segs ∧ t.udc.release = [] ∧ t.udc.gran = s.udc.gran ∧ t.udc.ext = s.udc.ext ∧
    t.nv.pools.stripes = s.nv.pools.stripes ∧ Unchanged [.udc, .nv] s t) ∧
  (∀ s : State, fget s UDC_CKPT_BUSY = 0 →
    ((image s).memory.ckptPeriod ≤ ckptAge s ∨ 75 ≤ logFill s ∨ s.udc.ckptLatch = true →
      ∃ t, exec .checkpointStart s = .next t ∧ fget t UDC_CKPT_BUSY = 1 ∧ t.udc.ckptFrom = s.udc.log ∧
        t.udc.ckptLatch = false ∧ RegsBut [UDC_CKPT_BUSY.off] s t ∧ Unchanged [.udc, .regs] s t) ∧
    (∃ t, exec .checkpointRequest s = .next t ∧ fget t UDC_CKPT_BUSY = 1 ∧ t.udc.ckptFrom = s.udc.log ∧
      RegsBut [UDC_CKPT_BUSY.off] s t ∧ Unchanged [.udc, .regs] s t)) ∧
  (∀ s : State, fget s UDC_CKPT_BUSY = 1 →
    (∃ t, exec .checkpointRequest s = .next t ∧ t.udc.ckptLatch = true ∧ Unchanged [.udc] s t) ∧
    (∃ t, exec .checkpointEnd s = .next t ∧ fget t UDC_CKPT_BUSY = b2n s.udc.ckptLatch ∧
      t.nv.pools.gran = s.udc.gran ∧ t.nv.pools.ext = s.udc.ext ∧ t.udc.ckptNs = some s.tb.ns ∧
      t.udc.ckptLatch = false ∧ RegsBut [UDC_CKPT_BUSY.off] s t ∧ Unchanged [.udc, .nv, .regs] s t))

/-- A descriptor that arrives at a serving channel with room joins its ring. Taken with room in the completion ring, it
ends ABORTED under a fence unless it is a system one, ends with the status of the first check that fails, or waits for
its LUN. The next descriptor to start, of each of the six types, takes its LUN's token and issues its NAND operation.
A PROGRAM that succeeds stores its staged units in its page set, an ERASE below the wear limit leaves the row empty
and counts, a READ whose units all decode delivers them to staging and ends with 0; a RESET and a READ_PARAM end with
0. A completion that is accepted leaves the ring. A fence aborts every descriptor without a token that is not a system
one. -/
def Obligations.FlashDescriptors : Prop :=
  (∀ (s : State) (c : Nat) (d : FlashDesc), chanServes s c = true → (getChan s c).ring.length < 256 →
    ∃ t, exec (.flashDescriptorArrival c d) s = .next t ∧
      getChan t c = { getChan s c with ring := (getChan s c).ring ++ [(s.tb.ns, d)] } ∧
      fget t (FLC_RING_DTAIL.ix c 0x4000) = (fget s (FLC_RING_DTAIL.ix c 0x4000) + 1) % 256 ∧
      RegsBut [(FLC_RING_DTAIL.ix c 0x4000).off] s t ∧ Unchanged [.regs, .flc] s t) ∧
  (∀ (s : State) (c at_ : Nat) (d : FlashDesc) (l : List (Nat × FlashDesc)) (p : LunProfile) (pr : Option (Nat × Nat)),
    (getChan s c).ring = (at_, d) :: l → flashProfile s c = some p → chanServes s c = true → flcRoom s c = true →
    (fget s FLC_STATUS_FENCED = 1 ∧ d.sys = false →
      ∃ t, exec (.flashDescriptorTake c pr) s = .next t ∧ getChan t c = { getChan s c with
        ring := l, done := (getChan s c).done ++ [{ tag := d.tag, status := 0x43, typ := d.typ, reply := d.reply }] } ∧
        Unchanged [.regs, .flc] s t) ∧
    (fget s FLC_STATUS_FENCED = 0 ∨ d.sys = true → flcCheck s c d p = none →
      ∃ t, exec (.flashDescriptorTake c pr) s = .next t ∧ getChan t c = { getChan s c with
        ring := l, running := (getChan s c).running ++ [{ desc := d, since := at_ }] } ∧ Unchanged [.regs, .flc] s t) ∧
    (∀ st, fget s FLC_STATUS_FENCED = 0 ∨ d.sys = true → flcCheck s c d p = some st →
      ∃ t, exec (.flashDescriptorTake c pr) s = .next t ∧ getChan t c = { getChan s c with
        ring := l, done := (getChan s c).done ++ [{ tag := d.tag, status := st, typ := d.typ, reply := d.reply }] })) ∧
  (∀ (s : State) (c op : Nat) (r : FlashRun) (i : Instr),
    (i, r.desc.typ, op) ∈ [(Instr.flashReadDesc c, 1, 0), (Instr.flashProgramDesc c, 2, 1), (Instr.flashEraseDesc c, 3, 2),
      (Instr.flashScanDesc c, 4, 0), (Instr.flashReadParamDesc c, 5, 5), (Instr.flashResetDesc c, 6, 3)] →
    flcNext s c = some r → chanServes s c = true →
    ∃ t, exec i s = .next t ∧ { r with token := true, step := 1, failing := List.range r.desc.count } ∈ (getChan t c).running ∧
      (getChan t c).ring = (getChan s c).ring ∧ (getChan t c).done = (getChan s c).done ∧
      t.out = .nand c r.desc.lun op (physRow s c r.desc.lun r.desc.row) r.desc.pset :: s.out ∧
      (∀ k, k ≠ c → getChan t k = getChan s k) ∧
      (r.desc.typ = 2 ∨ r.desc.typ = 3 → fget t (FLC_CH_STATE_WP_HIGH.ix c 0x4000) = 1) ∧ Unchanged [.regs, .flc, .out] s t) ∧
  (∀ (s : State) (c lun : Nat) (r : FlashRun) (p : LunProfile) (o : LunOut),
    (getChan s c).running.find? (fun r => r.token && r.desc.lun == lun) = some r → flashProfile s c = some p →
    (r.desc.typ = 2 → o.failed = false → ∃ t, exec (.lunOperationDone c lun o) s = .next t ∧
      (∀ k < r.desc.count, pageUnit (getRow t c lun (physRow s c lun r.desc.row)) r.desc.pset k =
        leValue (memRead (getChan s c).staging (r.desc.stgOff + 4128 * k) 4128)) ∧
      (getRow t c lun (physRow s c lun r.desc.row)).next = r.desc.pset + 1 ∧ r ∉ (getChan t c).running ∧
      { tag := r.desc.tag, status := 0, typ := 2, reply := r.desc.reply } ∈ (getChan t c).done ∧
      (∀ k, k ≠ rowKey c lun (physRow s c lun r.desc.row) → tget {} t.nv.flash k = tget {} s.nv.flash k) ∧
      Unchanged [.regs, .flc, .nv] s t) ∧
    (r.desc.typ = 3 → o.failed = false → (getRow s c lun (physRow s c lun r.desc.row)).pe < p.peLimit →
      ∃ t, exec (.lunOperationDone c lun o) s = .next t ∧
        getRow t c lun (physRow s c lun r.desc.row) = (getRow s c lun (physRow s c lun r.desc.row)).wiped p r.desc.slc ∧
        r ∉ (getChan t c).running ∧ { tag := r.desc.tag, status := 0, typ := 3, reply := r.desc.reply } ∈ (getChan t c).done ∧
        ∀ k, k ≠ rowKey c lun (physRow s c lun r.desc.row) → tget {} t.nv.flash k = tget {} s.nv.flash k) ∧
    (r.desc.typ = 1 → r.step = 1 → r.failing = List.range r.desc.count → (∀ k < r.desc.count, k ∈ o.ok) →
      o.erased = [] → r.failed = [] →
      r.erased = [] → r.soft = false → r.applied = false → r.lastSet = 0 → max r.bits o.bits ≤ p.refreshBits →
      r.desc.sys = true ∨ (getRow s c lun (physRow s c lun r.desc.row)).reads + 1 < min p.readLimit 524287 →
      ∃ t, exec (.lunOperationDone c lun o) s = .next t ∧ r ∉ (getChan t c).running ∧
        (∀ k < r.desc.count, memRead (getChan t c).staging (r.desc.stgOff + 4128 * k) 4128 =
          leBytes (pageUnit (getRow s c lun (physRow s c lun r.desc.row)) r.desc.pset (r.desc.first + k)) 4128) ∧
        (∀ a, a < r.desc.stgOff ∨ r.desc.stgOff + 4128 * r.desc.count ≤ a →
          tget 0 (getChan t c).staging a = tget 0 (getChan s c).staging a) ∧
        (∃ d ∈ (getChan t c).done, d.tag = r.desc.tag ∧ d.status = 0 ∧ d.fail = 0) ∧ Unchanged [.regs, .flc, .nv] s t) ∧
    (r.desc.typ = 5 ∨ r.desc.typ = 6 → ∃ t, exec (.lunOperationDone c lun o) s = .next t ∧ r ∉ (getChan t c).running ∧
      (∃ d ∈ (getChan t c).done, d.tag = r.desc.tag ∧ d.status = 0) ∧ t.nv = s.nv ∧
      Unchanged [.regs, .flc, .freeCtr] s t)) ∧
  (∀ (s : State) (c : Nat) (d : FlashDone) (l : List FlashDone), (getChan s c).done = d :: l →
    ∃ t, exec (.flashCompletionAccept c) s = .next t ∧ getChan t c = { getChan s c with done := l } ∧
      t.out = .mediaDone c d.tag d.status :: s.out ∧ Unchanged [.regs, .flc, .out] s t) ∧
  (∀ s : State, ∃ t, exec .flashFence s = .next t ∧ fget t FLC_STATUS_FENCED = 1 ∧
    (∀ c < 32, (∀ e ∈ (getChan t c).ring, e.2.sys = true) ∧ (∀ r ∈ (getChan t c).running, r.token = true ∨ r.desc.sys = true) ∧
      (∀ e ∈ (getChan s c).ring, e.2.sys = true → e ∈ (getChan t c).ring) ∧
      (∀ r ∈ (getChan s c).running, r.token = true ∨ r.desc.sys = true → r ∈ (getChan t c).running)) ∧
    Unchanged [.regs, .flc] s t)

/-- An initialisation without failures puts a powered channel in SERVING with every LUN in service. A passed retraining
counts and clears the failures in a row; a failed one below three counts. A LUN that times out for the first time and
answers ends its descriptor LUN_TIMEOUT and is reset. A retired channel ends every descriptor it held with CHAN_DOWN,
is shown retired and has no LUN in service. A patrol scan that finds nothing to move counts one read of the row. A
used dump row that no dump needs is erased. -/
def Obligations.FlashChannels : Prop :=
  (∀ (s : State) (c ident : Nat) (p : LunProfile), c < 32 → flashProfile s c = some p → pdOn s (99 + c) = true →
    fbit s FLC_RETIRED_RETIRED c = false → fget s (FLC_CH_STATE_STATE.ix c 0x4000) = 2 → p.luns ≤ 32 →
    ∃ t, exec (.flashChannelInit c ident [] [] 0) s = .next t ∧ fget t (FLC_CH_STATE_STATE.ix c 0x4000) = 3 ∧
      fget t (FLC_LUN_OK_OK.ix c 0x4000) = (2 ^ p.luns - 1) % 2 ^ 32 ∧ getChan t c = { wpSet := true } ∧
      (∀ k, k ≠ c → getChan t k = getChan s k) ∧ Unchanged [.regs, .flc] s t) ∧
  (∀ (s : State) (c : Nat), c < 32 → chanServes s c = true → (∀ r ∈ (getChan s c).running, r.token = false) →
    (∃ t, exec (.flashRetrainTick c true) s = .next t ∧ getChan t c = { getChan s c with trainFails := 0 } ∧
      fget t (FLC_ERR_CNT1_TRAIN.ix c 0x4000) =
        min (fget s (FLC_ERR_CNT1_TRAIN.ix c 0x4000) + 1) (2 ^ FLC_ERR_CNT1_TRAIN.w - 1) ∧ Unchanged [.regs, .flc] s t) ∧
    ((getChan s c).trainFails < 2 → ∃ t, exec (.flashRetrainTick c false) s = .next t ∧
      getChan t c = { getChan s c with trainFails := (getChan s c).trainFails + 1 } ∧ Unchanged [.regs, .flc] s t) ∧
    (2 ≤ (getChan s c).trainFails → ∃ t, exec (.flashRetrainTick c false) s = .next t ∧
      fget t (FLC_CH_STATE_STATE.ix c 0x4000) = 4 ∧ isRetired t (.flashChannel c) = true)) ∧
  (∀ (s : State) (c lun : Nat) (r : FlashRun) (other : Bool),
    (getChan s c).running.find? (fun r => r.token && r.desc.lun == lun) = some r → tget 0 (getChan s c).tmo lun = 0 →
    ∃ t, exec (.lunTimeout c lun true other) s = .next t ∧ r ∉ (getChan t c).running ∧
      { tag := r.desc.tag, status := 0x40, typ := r.desc.typ, reply := r.desc.reply } ∈ (getChan t c).done ∧
      tget 0 (getChan t c).tmo lun = s.tb.ns + 1 ∧ t.out = .nand c lun 3 0 0 :: s.out ∧ t.nv = s.nv ∧
      Unchanged [.regs, .flc, .out] s t) ∧
  (∀ (s : State) (c : Nat) (staging : Bool), c < 32 → chanServes s c = true →
    ∃ t, exec (.flashChannelRetire c staging) s = .next t ∧ fget t (FLC_CH_STATE_STATE.ix c 0x4000) = 4 ∧
      fget t (FLC_LUN_OK_OK.ix c 0x4000) = 0 ∧ isRetired t (.flashChannel c) = true ∧ fbit t FLC_RETIRED_RETIRED c = true ∧
      (getChan t c).ring = [] ∧ (getChan t c).running = [] ∧
      (∀ e ∈ (getChan s c).ring, ∃ d ∈ (getChan t c).done, d.tag = e.2.tag ∧ d.status = 0x42) ∧
      (∀ r ∈ (getChan s c).running, ∃ d ∈ (getChan t c).done, d.tag = r.desc.tag ∧ d.status = 0x42) ∧
      t.nv.flash = s.nv.flash) ∧
  (∀ (s : State) (c lun row pset bits : Nat) (p : LunProfile), flashProfile s c = some p → s.phase.inService = true →
    chanServes s c = true → lunOk s c lun = true → pset < (getRow s c lun (physRow s c lun row)).next →
    bits ≤ p.refreshBits → 1024 ≤ row ∨ (getRow s c lun (physRow s c lun row)).reads + 1 < min p.readLimit 524287 →
    ∃ t, exec (.patrolScan c lun row pset bits 0 false) s = .next t ∧
      getRow t c lun (physRow s c lun row) = { getRow s c lun (physRow s c lun row) with
        reads := min ((getRow s c lun (physRow s c lun row)).reads + 1) 524287 } ∧
      (∀ k, k ≠ rowKey c lun (physRow s c lun row) → tget {} t.nv.flash k = tget {} s.nv.flash k) ∧
      Unchanged [.nv] s t) ∧
  (∀ (s : State) (c lun row : Nat) (p : LunProfile), flashProfile s c = some p → dumpRowNext s c lun = some row →
    s.phase.inService = true → chanServes s c = true → lunOk s c lun = true → dumpNeeded s = false → s.bls.mode = 0 →
    ∃ t, exec (.dumpRowErase c lun) s = .next t ∧ getRow t c lun row = (getRow s c lun row).wiped p true ∧ t.nv.dump = none ∧
      t.out = .nand c lun 2 row 0 :: s.out ∧
      (∀ k, k ≠ rowKey c lun row → tget {} t.nv.flash k = tget {} s.nv.flash k) ∧ Unchanged [.regs, .out, .nv] s t)

/-- An operation that reaches a serving data path with room joins its queue, a WRITE with its units in their staging
slots; under a fence it ends ABORTED. A selection takes the chosen operation out of the queue and counts it as passed
over for every other; with the servo retired or stranded it ends NOT_READY. While its conditions hold and MODE is
verified, a WRITE writes its next sectors from the staging slots with the gate asserted, and ends with status 0 after
the last one. A read pass stores each unit it delivered in its staging slot; when none is left the READ ends OK or,
after an earlier pass, OK_RETRY; with units left it waits for the next pass, or ends UNCORR with them in FAIL after
the last one. Conditions unmet for 100 ms end an operation NOT_READY, or WRITE_INHIBIT where a write inhibit is the
cause. -/
def Obligations.DiskOperations : Prop :=
  (∀ (s : State) (a : Nat) (r : DiskReq), a < 32 → rdcServes s a = true → rdcFenced s = false →
    (getRdc s a).queue.length < 64 →
    (∃ t, exec (.diskRead a r) s = .next t ∧ (getRdc t a).queue = (getRdc s a).queue ++ [diskOpOf r false s.tb.ns] ∧
      (getRdc t a).run = (getRdc s a).run ∧ (getRdc t a).done = (getRdc s a).done ∧ Unchanged [.rdc] s t) ∧
    (∃ t, exec (.diskWrite a (some r) 0) s = .next t ∧
      (getRdc t a).queue = (getRdc s a).queue ++ [diskOpOf r true s.tb.ns] ∧ (getRdc t a).run = (getRdc s a).run ∧
      (∀ i < r.units.length, tget 0 (getRdc t a).staging (r.slot0 + i) = r.units.getD i 0 ∧
        tget 0 (getRdc t a).tags (r.slot0 + i) = r.tag) ∧
      (∀ k, k < r.slot0 ∨ r.slot0 + r.units.length ≤ k → tget 0 (getRdc t a).staging k = tget 0 (getRdc s a).staging k) ∧
      (∀ b, b ≠ a → getRdc t b = getRdc s b) ∧ Unchanged [.rdc] s t)) ∧
  (∀ (s : State) (a : Nat) (r : DiskReq), a < 32 → rdcServes s a = true → rdcFenced s = true →
    ∃ t, exec (.diskRead a r) s = .next t ∧ (getRdc t a).queue = (getRdc s a).queue ∧
      (getRdc t a).done = (getRdc s a).done ++ [{ reply := r.reply, write := false, status := 0x43
                                                  fail := failMap (List.range r.count) }] ∧
      t.out = .mediaDone (0x600 + a) r.reply 0x43 :: s.out ∧ Unchanged [.rdc, .out] s t) ∧
  (∀ (s : State) (a : Nat) (o : DiskOp), a < 32 → rdcServes s a = true → rdcFenced s = false →
    (getRdc s a).run = none → (getRdc s a).calRun = none → chooseOp s a = some o →
    (srvState s a ≠ 11 → srvState s a ≠ 12 →
      ∃ t, exec (.diskOpSelect a) s = .next t ∧ (getRdc t a).run = some { o with waitNs := some s.tb.ns } ∧
        (getRdc t a).queue = ((getRdc s a).queue.erase o).map (fun p => { p with passed := p.passed + 1 }) ∧
        (getRdc t a).done = (getRdc s a).done ∧ (∀ b, b ≠ a → getRdc t b = getRdc s b) ∧
        RegsBut [(rdcF RDC_ACT_STATE_ZONE a).off] s t ∧ Unchanged [.regs, .rdc, .srv] s t) ∧
    (srvState s a = 11 ∨ srvState s a = 12 →
      ∃ t, exec (.diskOpSelect a) s = .next t ∧ (getRdc t a).run = none ∧
        (∃ d, (getRdc t a).done = (getRdc s a).done ++ [d] ∧ d.reply = o.reply ∧ d.write = o.write ∧ d.status = 0x40) ∧
        (getRdc t a).queue = ((getRdc s a).queue.erase o).map (fun p => { p with passed := p.passed + 1 }) ∧
        Unchanged [.regs, .rdc, .out] s t)) ∧
  (∀ (s : State) (a n : Nat) (o : DiskOp), a < 32 → (getRdc s a).run = some o → o.write = true → opReady s a o = true →
    paReg s a 1 = some 4 →
    ∃ t, exec (.diskWrite a none n) s = .next t ∧
      (∀ i < (actZone s a o.band).2.frag, (tget [] t.nv.platter (platterKey a o.band o.frag)).getD i 0 =
        if o.next ≤ i ∧ i < o.next + n then tget 0 (getRdc s a).staging (o.slot0 + i)
        else (tget [] s.nv.platter (platterKey a o.band o.frag)).getD i 0) ∧
      (∀ k, k ≠ platterKey a o.band o.frag → tget [] t.nv.platter k = tget [] s.nv.platter k) ∧
      (o.next + n < (actZone s a o.band).2.frag → (getRdc t a).gate = true ∧
        (getRdc t a).run = some { o with next := o.next + n, waitNs := none } ∧ (getRdc t a).done = (getRdc s a).done ∧
        Unchanged [.rdc, .nv] s t) ∧
      ((actZone s a o.band).2.frag ≤ o.next + n → (getRdc t a).gate = false ∧ (getRdc t a).run = none ∧
        (getRdc t a).done = (getRdc s a).done ++ [{ reply := o.reply, write := true, status := 0 }] ∧
        RegsBut [(rdcF RDC_ACT_STATE_STATE a).off] s t ∧ Unchanged [.regs, .rdc, .nv, .out] s t)) ∧
  (∀ (s : State) (a sy ov : Nat) (got : List Nat) (o : DiskOp), (getRdc s a).run = some o → o.write = false →
    opReady s a o = true → (getSrv s a).readOfs = passOffset (o.pass + 1) → paReg s a 1 = some 3 →
    ∃ t, exec (.readPass a got sy ov) s = .next t ∧ t.nv = s.nv ∧
      (∀ i ∈ o.left, i ∈ got → tget 0 (getRdc t a).staging (o.slot0 + i) =
        (tget [] s.nv.platter (platterKey a o.band o.frag)).getD (o.first + i) 0) ∧
      (∀ k, (∀ i ∈ o.left, i ∈ got → k ≠ o.slot0 + i) → tget 0 (getRdc t a).staging k = tget 0 (getRdc s a).staging k) ∧
      ((∀ i ∈ o.left, i ∈ got) → (getRdc t a).run = none ∧ ∃ d, (getRdc t a).done = (getRdc s a).done ++ [d] ∧
        d.reply = o.reply ∧ d.fail = 0 ∧
        d.status = if o.retried = true ∨ (1 ≤ o.pass ∧ o.left ≠ []) then 1 else 0) ∧
      (∀ i ∈ o.left, i ∉ got →
        (o.fast = false → o.pass + 1 < (hdaTable s (a / 2)).retryRevs → (getRdc t a).done = (getRdc s a).done ∧
          ∃ p, (getRdc t a).run = some p ∧ p.pass = o.pass + 1 ∧ p.left = o.left.filter (fun j => !(got.contains j)) ∧
            p.reply = o.reply) ∧
        (o.fast = true ∨ (hdaTable s (a / 2)).retryRevs ≤ o.pass + 1 → (getRdc t a).run = none ∧
          ∃ d, (getRdc t a).done = (getRdc s a).done ++ [d] ∧ d.reply = o.reply ∧ d.status = 0x10 ∧
            d.fail = failMap (o.left.filter fun j => !(got.contains j)))) ∧
      Unchanged (.rdc :: .srv :: reportParts) s t) ∧
  (∀ (s : State) (a ns : Nat) (o : DiskOp), (getRdc s a).run = some o → o.waitNs = some ns → 100000000 ≤ s.tb.ns - ns →
    opReady s a o = false →
    ∃ t, exec (.diskOpTimeout a) s = .next t ∧ (getRdc t a).run = none ∧
      (∃ d, (getRdc t a).done = (getRdc s a).done ++ [d] ∧ d.reply = o.reply ∧ d.write = o.write ∧
        d.status = if o.write = true ∧ fget s (srvF SRV_ACT_INHIBIT a) % 128 ≠ 0 then 0x21 else 0x40) ∧
      (getRdc t a).queue = (getRdc s a).queue ∧ Unchanged (.rdc :: reportParts) s t)

/-- A write-fault capture ends a running write WRITE_FAULT, drops the gate, counts and asks for FSTAT. A speed excursion
clears SPEED_OK; a write ends NOT_READY after its sector. A fence ends every operation ABORTED and holds. A serial
write frame is sent and, where its register is read back, checked; a value read back right takes effect, another is
written again. FSTAT_POLL asks for FSTAT; PREAMP_READ of a listed register asks for it. HEATER_UPDATE follows the
temperature; HEATER_IDLE_OFF turns the heater off after 100 ms without an operation. A calibration that ends OK stores
what it found (open values) and any other result keeps the stored values; a request starts one or is latched; OFFSET
becomes due at its tick. A retired data path ends every queued operation ACT_RETIRED and is shown retired. -/
def Obligations.DiskFaultsAndUpkeep : Prop :=
  (∀ (s : State) (a : Nat) (o : DiskOp), a < 32 → rdcServes s a = true → (getRdc s a).run = some o → o.write = true →
    (getRdc s a).gate = true →
    ∃ t, exec (.wfltCapture a) s = .next t ∧ (getRdc t a).gate = false ∧ (getRdc t a).run = none ∧
      (getRdc t a).done = (getRdc s a).done ++ [{ reply := o.reply, write := true, status := 0x20
                                                  fail := failMap (unwritten s a o) }] ∧
      { cls := 4, addr := 6, why := FrameFor.fault } ∈ (getRdc t a).frames ∧
      { cls := 1, addr := 1, data := some 2 } ∈ (getRdc t a).frames ∧
      fget t (rdcF RDC_ERR_CNT1_WFLT a) = min (fget s (rdcF RDC_ERR_CNT1_WFLT a) + 1) 255 ∧
      t.nv = s.nv ∧ Unchanged [.regs, .rdc, .out] s t) ∧
  (∀ (s : State) (h a : Nat), h < 16 → a / 2 = h →
    (∃ t, exec (.speedExcursion h true) s = .next t ∧ fget t (rdcF RDC_ACT_STATE_SPEED_OK a) = 1 ∧ Unchanged [.regs] s t) ∧
    (∀ o, (getRdc s a).run = some o → o.write = true → (getRdc s a).gate = true →
      (∀ b, b / 2 = h → b ≠ a → (getRdc s b).gate = false) →
      ∃ t, exec (.speedExcursion h false) s = .next t ∧ fget t (rdcF RDC_ACT_STATE_SPEED_OK a) = 0 ∧
        (getRdc t a).gate = false ∧ (getRdc t a).run = none ∧
        (∃ d, (getRdc t a).done = (getRdc s a).done ++ [d] ∧ d.reply = o.reply ∧ d.status = 0x40) ∧
        (o.next < (actZone s a o.band).2.frag → (tget [] t.nv.platter (platterKey a o.band o.frag)).getD o.next 0 =
          tget 0 (getRdc s a).staging (o.slot0 + o.next)) ∧ Unchanged [.regs, .rdc, .nv, .out] s t)) ∧
  (∀ s : State, ∃ t, exec .diskFence s = .next t ∧ fget t RDC_STATUS_FENCED = 1 ∧
    (∀ a < 32, rdcServes s a = true → fget t (rdcF RDC_ACT_STATE_STATE a) = 7 ∧ (getRdc t a).run = none ∧
      (getRdc t a).queue = [] ∧
      (∀ o ∈ (getRdc s a).queue, ∃ d ∈ (getRdc t a).done, d.reply = o.reply ∧ d.status = 0x43) ∧
      (∀ o, (getRdc s a).run = some o → ∃ d ∈ (getRdc t a).done, d.reply = o.reply ∧ d.status = 0x43)) ∧
    Unchanged (.rdc :: .srv :: .nv :: reportParts) s t) ∧
  (∀ (s : State) (a v d : Nat) (ok : Bool) (f : Frame), nextFrame (getRdc s a).frames = some f → f.data = some d →
    ∃ t, exec (.serialFrame a ok v) s = .next t ∧ t.out = .serial a f.addr d 1 :: s.out ∧
      (getRdc t a).frames = (if readsBack f.addr then [{ f with data := none, why := .check d }] else []) ++
        (getRdc s a).frames.erase f ∧ (getRdc t a).regs = (getRdc s a).regs ∧ Unchanged [.rdc, .out] s t) ∧
  (∀ (s : State) (a d : Nat) (f : Frame), nextFrame (getRdc s a).frames = some f → f.data = none → f.why = .check d →
    (∃ t, exec (.serialFrame a true d) s = .next t ∧ paReg t a f.addr = some d ∧
      (f.addr = 1 → fget t (rdcF RDC_ACT_STATE_PA_MODE a) = d % 8) ∧
      (getRdc t a).frames = (getRdc s a).frames.erase f ∧ Unchanged [.regs, .rdc, .srv, .out] s t) ∧
    (∀ (v : Nat) (ok : Bool), ok = false ∨ v ≠ d → tget 0 (getRdc s a).fails f.addr < 2 →
      ∃ t, exec (.serialFrame a ok v) s = .next t ∧
        (getRdc t a).frames = { f with data := some d, why := .plain } :: (getRdc s a).frames.erase f ∧
        (getRdc t a).regs = (getRdc s a).regs ∧
        fget t (rdcF RDC_ERR_CNT1_LINK_RETRY a) = min (fget s (rdcF RDC_ERR_CNT1_LINK_RETRY a) + 1) 255 ∧
        Unchanged [.regs, .rdc, .out] s t)) ∧
  (∀ (s : State) (a : Nat), a < 32 → rdcServes s a = true →
    (headsOn s a = true → ∃ t, exec (.fstatPoll a) s = .next t ∧
      getRdc t a = { getRdc s a with frames := (getRdc s a).frames ++ [{ cls := 4, addr := 6 }] } ∧ Unchanged [.rdc] s t) ∧
    (∀ v : Word, paListed (bitsGet v 0 8) = true → bitsGet v 8 1 = 1 → fget s (rdcF RDC_PA_RD_BUSY a) = 0 →
      ∃ t, exec (.preampRead a v) s = .next t ∧ fget t (rdcF RDC_PA_RD_ADDR a) = bitsGet v 0 8 ∧
        fget t (rdcF RDC_PA_RD_BUSY a) = 1 ∧ (getRdc t a).frames = (getRdc s a).frames ++
          [{ cls := 4, addr := bitsGet v 0 8, why := .host }] ∧
        RegsBut [(rdcF RDC_PA_RD_ADDR a).off] s t ∧ Unchanged [.regs, .rdc] s t) ∧
    (∀ v : Word, paListed (bitsGet v 0 8) = false → ∃ t, exec (.preampRead a v) s = .next t ∧
      fget t RDC_STATUS_RSV_WRITE = 1 ∧ RegsBut [RDC_STATUS_RSV_WRITE.off] s t ∧ Unchanged [.regs] s t)) ∧
  (∀ (s : State) (a : Nat) (x : Int), a < 32 →
    ∃ t, exec (.heaterUpdate a (some x)) s = .next t ∧ (getRdc t a).temp = x ∧ (getRdc t a).tempNs = s.tb.ns ∧
      fget t (rdcF RDC_HEAT_TEMP a) = satSigned 16 x ∧
      ((getRdc s a).heatHead = none → (getRdc t a).frames = (getRdc s a).frames) ∧
      (∀ h, (getRdc s a).heatHead = some h → (getRdc s a).heatCode ≠ 0 → (getRdc s a).run = none →
        heatCode t a h false ≠ (getRdc s a).heatCode →
        (getRdc t a).frames = (getRdc s a).frames ++ [{ cls := 3, addr := 0x10 + h, data := some (heatCode t a h false) }]) ∧
      RegsBut [(rdcF RDC_HEAT_TEMP a).off] s t ∧ Unchanged [.regs, .rdc] s t) ∧
  (∀ (s : State) (a h : Nat), a < 32 → (getRdc s a).run = none → 100000000 ≤ s.tb.ns - (getRdc s a).idleNs →
    (getRdc s a).heatHead = some h → (getRdc s a).heatCode ≠ 0 →
    ∃ t, exec (.heaterIdleOff a) s = .next t ∧ getRdc t a =
      { getRdc s a with frames := (getRdc s a).frames ++ [{ cls := 3, addr := 0x10 + h, data := some 0 }] } ∧
      Unchanged [.rdc] s t) ∧
  (∀ (s : State) (a res : Nat), calMayEnd s a 1 0 0 = true → (getRdc s a).calNext = none →
    (res = 1 → ∃ t, exec (.offsetCal a res) s = .next t ∧ fget t (rdcF RDC_CAL_STAT_RESULT a) = 1 ∧
      fget t (rdcF RDC_CAL_STAT_BUSY a) = 0 ∧ (getRdc t a).calRun = none ∧ (getRdc t a).offsetFails = 0 ∧
      t.nv = s.nv ∧ Unchanged (.rdc :: reportParts) s t) ∧
    (res = 2 ∨ res = 6 → (getRdc s a).offsetFails < 2 →
      ∃ t, exec (.offsetCal a res) s = .next t ∧ fget t (rdcF RDC_CAL_STAT_RESULT a) = res ∧
        (getRdc t a).offsetFails = (getRdc s a).offsetFails + 1 ∧ t.nv = s.nv ∧ Unchanged (.rdc :: reportParts) s t) ∧
    (res = 2 ∨ res = 6 → 2 ≤ (getRdc s a).offsetFails →
      ∃ t, exec (.offsetCal a res) s = .next t ∧ isRetired t (.dataPath a) = true)) ∧
  (∀ (s : State) (a hd z p : Nat) (i : Nat → Instr), (p = 2 ∧ i = fun r => Instr.eqCal a hd z r) ∨
    (p = 3 ∧ i = fun r => Instr.precomp a hd z r) → calMayEnd s a p hd z = true → (getRdc s a).calNext = none →
    (∃ t, exec (i 1) s = .next t ∧ fget t (rdcF RDC_CAL_STAT_RESULT a) = 1 ∧ t.freeCtr = s.freeCtr + 1 ∧
      (p = 2 → calEntry t a hd z = { calEntry s a hd z with
        eq := (List.range 16).map fun k => (Config.calResult s.freeCtr).getD k 0
        target := (calEntry s a hd z).target.headD 0 :: (List.range 4).map fun k => (Config.calResult s.freeCtr).getD (16 + k) 0
        temp := (getRdc s a).temp
        made := s.tb.ns }) ∧
      (p = 3 → calEntry t a hd z = { calEntry s a hd z with
        pc := (List.range 3).map fun k => ((Config.calResult s.freeCtr).getD k 0).toNat % 32
        temp := (getRdc s a).temp
        made := s.tb.ns }) ∧
      Unchanged (.rdc :: .nv :: .freeCtr :: reportParts) s t) ∧
    (∀ res ∈ [3, 4, 5, 6], ∃ t, exec (i res) s = .next t ∧ fget t (rdcF RDC_CAL_STAT_RESULT a) = res ∧
      (getRdc t a).calRun = none ∧ t.nv = s.nv ∧ Unchanged (.rdc :: reportParts) s t)) ∧
  (∀ (s : State) (a : Nat) (v : Word), a < 32 → rdcServes s a = true → rdcFenced s = false → bitsGet v 12 1 = 1 →
    bitsGet v 10 2 ≠ 0 → bitsGet v 0 4 < (hdaTable s (a / 2)).heads → bitsGet v 4 6 < (hdaTable s (a / 2)).zones.length →
    ((getRdc s a).calRun = none → ∃ t, exec (.calRequest a v) s = .next t ∧ fget t (rdcF RDC_CAL_STAT_BUSY a) = 1 ∧
      (getRdc t a).calRun = (if bitsGet v 10 2 = 1 then some (1, 0, 0) else some (bitsGet v 10 2, bitsGet v 0 4, bitsGet v 4 6)) ∧
      Unchanged [.regs, .rdc] s t) ∧
    ((getRdc s a).calRun.isSome = true → ∃ t, exec (.calRequest a v) s = .next t ∧
      fget t (rdcF RDC_CAL_STAT_PEND a) = 1 ∧ (getRdc t a).calRun = (getRdc s a).calRun ∧
      (getRdc t a).calNext = (if bitsGet v 10 2 = 1 then some (1, 0, 0) else some (bitsGet v 10 2, bitsGet v 0 4, bitsGet v 4 6)) ∧
      Unchanged [.regs, .rdc] s t)) ∧
  (∀ (s : State) (a : Nat), a < 32 → rdcServes s a = true →
    (∃ t, exec (.offsetCalTick a) s = .next t ∧ (1, 0, 0) ∈ (getRdc t a).calDue ∧
      (∀ e, e ∈ (getRdc t a).calDue → e = (1, 0, 0) ∨ e ∈ (getRdc s a).calDue) ∧ (getRdc t a).run = (getRdc s a).run ∧
      Unchanged [.rdc] s t) ∧
    (∀ k ∈ [0, 1, 7], isRetired s (.dataPath a) = false →
      ∃ t, exec (.dataPathRetire a k) s = .next t ∧ isRetired t (.dataPath a) = true ∧
        fbit t RDC_RETIRED_RETIRED a = true ∧ fget t (rdcF RDC_ACT_STATE_STATE a) = 6 ∧ (getRdc t a).queue = [] ∧
        (getRdc t a).run = none ∧ t.nv.platter = s.nv.platter ∧
        ∀ o ∈ (getRdc s a).queue, ∃ d ∈ (getRdc t a).done, d.reply = o.reply ∧ d.status = 0x41))

/-- The next node of an instance under way executes and the node after it is next. ADD to CLAMP write DST with the
binary32 result of their operands (slots or coefficients) and collect its flags; nothing else of the instance, no
other task and nothing outside Lantern changes. LIM writes A limited to [-B, +B], a negative B counting as +0, and
keeps the sign of the first excess. BIQ does one transposed direct-form-II section, INTEG one clamped integration or,
held by anti-windup, none, DOT a sum of products, OUT sets an output word. END of an instance whose outputs and state
are finite commits: its state slots become the task's and the miss count clears; a non-finite one is discarded, a
miss, and the task's state stays. -/
def Obligations.NodesOfTable126 : Prop :=
  NodeWrites 0x01 .nodeAdd (fun i cf n => fpAdd i.ftz (i.opnd cf n.a) (i.opnd cf n.b)) ∧
  NodeWrites 0x02 .nodeSub (fun i cf n => fpSubt i.ftz (i.opnd cf n.a) (i.opnd cf n.b)) ∧
  NodeWrites 0x03 .nodeMul (fun i cf n => fpMul i.ftz (i.opnd cf n.a) (i.opnd cf n.b)) ∧
  NodeWrites 0x04 .nodeFma (fun i cf n => fpFma i.ftz (i.opnd cf n.a) (i.opnd cf n.b) (i.opnd cf n.c)) ∧
  NodeWrites 0x05 .nodeDiv (fun i cf n => fpDiv i.ftz (i.opnd cf n.a) (i.opnd cf n.b)) ∧
  NodeWrites 0x06 .nodeSqrt (fun i cf n => fpSqrt i.ftz (i.opnd cf n.a)) ∧
  NodeWrites 0x07 .nodeMin (fun i cf n => fpMin i.ftz (i.opnd cf n.a) (i.opnd cf n.b)) ∧
  NodeWrites 0x08 .nodeMax (fun i cf n => fpMax i.ftz (i.opnd cf n.a) (i.opnd cf n.b)) ∧
  NodeWrites 0x09 .nodeAbs (fun i cf n => fpAbs i.ftz (i.opnd cf n.a)) ∧
  NodeWrites 0x0A .nodeNeg (fun i cf n => fpNeg i.ftz (i.opnd cf n.a)) ∧
  NodeWrites 0x0B .nodeMov (fun i cf n => fpMov i.ftz (i.opnd cf n.a)) ∧
  NodeWrites 0x0C .nodeSel (fun i cf n => fpSel i.ftz (i.opnd cf n.a) (i.opnd cf n.b) (i.opnd cf n.c)) ∧
  NodeWrites 0x0D .nodeClamp (fun i cf n => fpClamp i.ftz (i.opnd cf n.a) (i.opnd cf n.b) (i.opnd cf n.c)) ∧
  NodeWrites 0x12 .nodeDot (fun i cf n => dotFrom i cf n.a (n.b % 256) n.aux) ∧
  (∀ (s : State) (t : Nat) (i : Inst) (n : NodeWord) (a b0 b : Word), NodeNext s t 0x0E i n →
    a = fpIn i.ftz (i.opnd (coefWord s t) n.a) → b0 = fpIn i.ftz (i.opnd (coefWord s t) n.b) → fpNaN a = false →
    fpNaN b0 = false → b = (if fpSign b0 = true then 0 else b0) →
    ∃ u j, exec (.nodeLim t) s = .next u ∧ NodeWent s u t i j ∧ j.flags = i.flags ∧
      (∀ k, k ≠ n.dst → tget 0 j.work k = tget 0 i.work k) ∧
      (fpBelow a (fpFlip b) = true → tget 0 j.work n.dst = fpFlip b ∧ (i.sat = none → j.sat = some true)) ∧
      (fpBelow b a = true → tget 0 j.work n.dst = b ∧ (i.sat = none → j.sat = some false)) ∧
      (fpBelow a (fpFlip b) = false → fpBelow b a = false → tget 0 j.work n.dst = a ∧ j.sat = i.sat) ∧
      (∀ x, i.sat = some x → j.sat = some x)) ∧
  (∀ (s : State) (t : Nat) (i : Inst) (n : NodeWord) (x y v : Word) (cf : Nat → Word), NodeNext s t 0x10 i n →
    n.dst ≠ n.aux → n.dst ≠ n.aux + 1 → cf = (fun k => coefWord s t (n.b % 256 + k)) → x = i.opnd (coefWord s t) n.a →
    y = (fpFma i.ftz (cf 0) x (tget 0 i.work n.aux)).1 → v = (fpFma i.ftz (cf 1) x (tget 0 i.work (n.aux + 1))).1 →
    ∃ u j, exec (.nodeBiq t) s = .next u ∧ NodeWent s u t i j ∧ tget 0 j.work n.dst = y ∧
      tget 0 j.work n.aux = (fpFma i.ftz (fpFlip (cf 3)) y v).1 ∧
      tget 0 j.work (n.aux + 1) = (fpFma i.ftz (cf 2) x (fpFlip (fpMul i.ftz (cf 4) y).1)).1 ∧
      (∀ k, k ≠ n.dst → k ≠ n.aux → k ≠ n.aux + 1 → tget 0 j.work k = tget 0 i.work k) ∧ j.outs = i.outs) ∧
  (∀ (s : State) (t : Nat) (i : Inst) (n : NodeWord) (a b st : Word), NodeNext s t 0x11 i n →
    a = i.opnd (coefWord s t) n.a → b = i.opnd (coefWord s t) n.b → st = tget 0 i.work n.aux →
    (n.aw = false ∨ (getTask s t).sat = false →
      ∃ u j, exec (.nodeInteg t) s = .next u ∧ NodeWent s u t i j ∧
        tget 0 j.work n.dst = (fpClamp i.ftz (fpFma i.ftz a b st).1 (coefWord s t (n.c % 256)) (coefWord s t (n.c % 256 + 1))).1 ∧
        tget 0 j.work n.aux = tget 0 j.work n.dst ∧
        ∀ k, k ≠ n.dst → k ≠ n.aux → tget 0 j.work k = tget 0 i.work k) ∧
    (n.aw = true → (getTask s t).sat = true → fpNaN a = false → fpNaN b = false →
      ((fpSign a != fpSign b) == (getTask s t).satNeg) = true →
      ∃ u j, exec (.nodeInteg t) s = .next u ∧ NodeWent s u t i j ∧ tget 0 j.work n.dst = st ∧
        ∀ k, k ≠ n.dst → tget 0 j.work k = tget 0 i.work k)) ∧
  (∀ (s : State) (t : Nat) (i : Inst) (n : NodeWord), NodeNext s t 0x20 i n →
    ∃ u j, exec (.nodeOut t) s = .next u ∧ NodeWent s u t i j ∧
      tget 0xFFFFFFFF j.outs n.aux = (fpMov i.ftz (i.opnd (coefWord s t) n.a)).1 ∧
      (∀ k, k ≠ n.aux → tget 0xFFFFFFFF j.outs k = tget 0xFFFFFFFF i.outs k) ∧ j.work = i.work) ∧
  (∀ (s : State) (t : Nat) (i : Inst) (n : NodeWord), NodeNext s t 0x3F i n → (getTask s t).poison = false →
    (i.finite = true → (getTask s t).inhibit = false →
      ∃ u, exec (.nodeEnd t) s = .next u ∧ (getTask u t).run = some { i with committed := true } ∧
        (∀ k, 16 ≤ k → k < 64 → tget 0 (getTask u t).slots k = tget 0 i.work k) ∧ (getTask u t).consec = 0 ∧
        (getTask u t).sat = i.sat.isSome ∧ (getTask u t).satNeg = i.sat.getD false ∧
        (getTask u t).flags = (getTask s t).flags.or i.flags ∧ (getTask u t).outs = (getTask s t).outs ∧
        (∀ k, k ≠ t → getTask u k = getTask s k) ∧ Unchanged [.ltn] s u) ∧
    (i.finite = false → (getTask s t).consec < 2 → (getTask s t).missRun ≠ 63 →
      ∃ u, exec (.nodeEnd t) s = .next u ∧ (getTask u t).run = none ∧ (getTask u t).nonfin = true ∧
        (getTask u t).missBit = true ∧ (getTask u t).consec = (getTask s t).consec + 1 ∧
        (getTask u t).slots = (getTask s t).slots ∧ (getTask u t).outs = (getTask s t).outs ∧
        (∀ k, k ≠ t → getTask u k = getTask s k) ∧ Unchanged [.ltn] s u))

/-- Without FTZ: where the exact sum, difference, product, fused product-sum, quotient or square root of finite operands
is the value of a finite nonzero word w, the operation answers w with no flag. ADD and SUB of two infinities of
opposite and equal sign, and MUL of an infinity and a zero, answer the NaN 0x7FC00000 with NV; a nonzero finite number
divided by a zero answers an infinity with DZ. -/
def Obligations.ExactBinary32 : Prop :=
  (∀ a b w : Word, fpFinite a = true → fpFinite b = true → fpFinite w = true → fpVal w ≠ 0 →
    (fpVal w = fpVal a + fpVal b → fpAdd false a b = (w, {})) ∧
    (fpVal w = fpVal a - fpVal b → fpSubt false a b = (w, {})) ∧
    (fpVal w * 2 ^ 149 = fpVal a * fpVal b → fpMul false a b = (w, {})) ∧
    (fpVal b ≠ 0 → fpVal w * fpVal b = fpVal a * 2 ^ 149 → fpDiv false a b = (w, {})) ∧
    (0 < fpVal w → fpVal w * fpVal w = fpVal a * 2 ^ 149 → fpSqrt false a = (w, {})) ∧
    (∀ c : Word, fpFinite c = true → fpVal w * 2 ^ 149 = fpVal a * fpVal b + fpVal c * 2 ^ 149 →
      fpFma false a b c = (w, {}))) ∧
  (∀ (f : Bool) (a b : Word), fpInf a = true → fpInf b = true →
    (fpSign a ≠ fpSign b → fpAdd f a b = (0x7FC00000, { nv := true })) ∧
    (fpSign a = fpSign b → fpSubt f a b = (0x7FC00000, { nv := true }))) ∧
  (∀ (f : Bool) (a b : Word), fpInf a = true → fpZero b = true →
    fpMul f a b = (0x7FC00000, { nv := true }) ∧ fpMul f b a = (0x7FC00000, { nv := true })) ∧
  (∀ a b : Word, fpFinite a = true → fpZero a = false → fpZero b = true →
    fpDiv false a b = (if fpSign a = fpSign b then 0x7F800000 else 0xFF800000, { dz := true }))

/-- A waiting trigger of an enabled, declared task starts an instance with its deadline, the inputs and the state slots,
takes the task's own oldest queued coefficient word and counts the sample. INSTANCE_COMMIT runs the remaining nodes
and commits. At the deadline a committed instance's outputs take effect; one not committed is a miss, and the third in
a row of a TF task asserts its write inhibit. A coefficient word that R374 refuses sets RSV_WRITE; else it is applied
at once to an idle task, queued for an enabled one, or sets OVERRUN with the queue full. A core that fails its known
answer or mismatches is retired and the spare takes its number; a mismatch is a miss of its instance. A right known
answer changes nothing. An uncorrectable task store zeroes the task's state and makes its next instance a miss. -/
def Obligations.TasksAndCores : Prop :=
  (∀ (s : State) (t trig : Nat), t < 96 → (getTask s t).due = some trig → (getTask s t).enabled = true →
    taskLive s t = true → (getTask s t).run = none → (∀ e ∈ (getTask s t).slots, 16 ≤ e.1) →
    ∃ u i, exec (.taskTrigger t) s = .next u ∧ (getTask u t).run = some i ∧ (getTask u t).due = none ∧
      (getTask u t).sample = ((getTask s t).sample + 1) % 2 ^ 32 ∧ i.deadline = trig + (taskEnt s t).deadline ∧
      i.node = 0 ∧ i.committed = false ∧ i.outs = [] ∧ i.sat = none ∧
      (∀ k < 16, tget 0 i.work k = tget 0 (getTask s t).ins k) ∧
      (∀ k, 16 ≤ k → tget 0 i.work k = tget 0 (getTask s t).slots k) ∧
      ((∀ e ∈ s.ltn.queue, e.1 ≠ t) → (getTask u t).coefs = (getTask s t).coefs ∧ u.ltn.queue = s.ltn.queue) ∧
      (∀ k v, s.ltn.queue.find? (fun e => e.1 == t) = some (t, k, v) → coefWord u t k = v ∧
        u.ltn.queue = s.ltn.queue.erase (t, k, v)) ∧
      (∀ k, k ≠ t → getTask u k = getTask s k) ∧ Unchanged [.ltn] s u) ∧
  (∀ (s : State) (t : Nat) (i j : Inst), (getTask s t).run = some i → i.committed = false →
    j = runNodes (getTask s t) (coefWord s t) ((graphOf s t).nodes.drop i.node) i → j.finite = true →
    (getTask s t).poison = false → (getTask s t).inhibit = false →
    ∃ u, exec (.instanceCommit t) s = .next u ∧ (getTask u t).run = some { j with committed := true } ∧
      (∀ k, 16 ≤ k → k < 64 → tget 0 (getTask u t).slots k = tget 0 j.work k) ∧ (getTask u t).consec = 0 ∧
      (getTask u t).outs = (getTask s t).outs ∧ (∀ k, k ≠ t → getTask u k = getTask s k) ∧ Unchanged [.ltn] s u) ∧
  (∀ (s : State) (t : Nat) (i : Inst), (getTask s t).run = some i → i.deadline ≤ s.tb.ns →
    (i.committed = true → (i.outs.map (·.1)).Nodup →
      ∃ u, exec (.taskDeadline t) s = .next u ∧ (getTask u t).run = none ∧
        (∀ e ∈ i.outs, tget 0 (getTask u t).outs e.1 = e.2) ∧
        (∀ p, (∀ e ∈ i.outs, e.1 ≠ p) → tget 0 (getTask u t).outs p = tget 0 (getTask s t).outs p) ∧
        (getTask u t).slots = (getTask s t).slots ∧ (∀ k, k ≠ t → getTask u k = getTask s k) ∧ Unchanged [.ltn] s u) ∧
    (i.committed = false → (getTask s t).poison = false → (getTask s t).consec < 2 → (getTask s t).missRun ≠ 63 →
      ∃ u, exec (.taskDeadline t) s = .next u ∧ (getTask u t).run = none ∧ (getTask u t).missBit = true ∧
        (getTask u t).consec = (getTask s t).consec + 1 ∧
        (getTask u t).misses = min ((getTask s t).misses + 1) 65535 ∧ (getTask u t).outs = (getTask s t).outs ∧
        (getTask u t).slots = (getTask s t).slots ∧ (∀ k, k ≠ t → getTask u k = getTask s k) ∧ Unchanged [.ltn] s u) ∧
    (i.committed = false → (getTask s t).consec = 2 → (getTask s t).missRun ≠ 63 → t < 32 →
      ∃ u, exec (.taskDeadline t) s = .next u ∧ (getTask u t).run = none ∧ (getTask u t).consec = 3 ∧
        (getTask u t).inhibit = true ∧ fbit u (srvF SRV_ACT_INHIBIT t) 3 = true)) ∧
  (∀ (s : State) (v : Word) (t k : Nat), t = fget s LTN_COEF_SEL_TASK → k = fget s LTN_COEF_SEL_INDEX →
    (s.phase = .loading ∨ fpFinite v = false ∨ (taskEnt s t).kind = 0 ∨ (graphOf s t).coefs.length ≤ k →
      ∃ u, exec (.coefWrite v) s = .next u ∧ fget u LTN_STATUS_RSV_WRITE = 1 ∧ RegsBut [LTN_STATUS_RSV_WRITE.off] s u ∧
        Unchanged [.regs] s u) ∧
    (s.phase ≠ .loading → fpFinite v = true → (taskEnt s t).kind ≠ 0 → k < (graphOf s t).coefs.length →
      ((getTask s t).enabled = false → (getTask s t).run = none →
        ∃ u, exec (.coefWrite v) s = .next u ∧ coefWord u t k = v ∧ u.ltn.queue = s.ltn.queue ∧
          (∀ x y, x ≠ t ∨ y ≠ k → coefWord u x y = coefWord s x y) ∧ Unchanged [.ltn] s u) ∧
      ((getTask s t).enabled = true → s.ltn.queue.length < 16 →
        ∃ u, exec (.coefWrite v) s = .next u ∧ u.ltn = { s.ltn with queue := s.ltn.queue ++ [(t, k, v)] } ∧
          Unchanged [.ltn] s u) ∧
      ((getTask s t).enabled = true → 16 ≤ s.ltn.queue.length →
        ∃ u, exec (.coefWrite v) s = .next u ∧ fget u LTN_COEF_STAT_OVERRUN = 1 ∧
          RegsBut [LTN_COEF_STAT_OVERRUN.off] s u ∧ Unchanged [.regs] s u))) ∧
  (∀ (s : State) (c : Nat), exec (.coreKatTick c true) s = .next s) ∧
  (∀ (s : State) (c : Nat) (i : Instr), i ∈ [Instr.coreKatTick c false, .coreRetire c none] → c < 8 →
    isRetired s (.core c) = false →
    ∃ u, exec i s = .next u ∧ isRetired u (.core c) = true ∧
      ∀ p k, s.ltn.spare = some p → p ≠ c → s.ltn.logical.findIdx? (fun x => x == some c) = some k →
        u.ltn.logical = s.ltn.logical.set k (some p) ∧ u.ltn.spare = none) ∧
  (∀ (s : State) (c t : Nat) (i : Inst), c < 8 → t < 96 → isRetired s (.core c) = false →
    s.ltn.logical.getD (coreOf s t) none = some c → (getTask s t).run = some i → i.committed = false →
    (getTask s t).poison = false → (getTask s t).consec < 2 → (getTask s t).missRun ≠ 63 →
    ∃ u, exec (.coreRetire c (some t)) s = .next u ∧ isRetired u (.core c) = true ∧ (getTask u t).run = none ∧
      (getTask u t).missBit = true ∧ (getTask u t).consec = (getTask s t).consec + 1) ∧
  (∀ (s : State) (t : Nat), t < 96 → (taskEnt s t).kind ≠ 0 →
    ∃ u, exec (.taskStoreUncorrectable t) s = .next u ∧
      getTask u t = { getTask s t with slots := [], poison := true } ∧ (∀ k, k ≠ t → getTask u k = getTask s k) ∧
      Unchanged (.ltn :: reportParts) s u)

/-- A servo wedge fuses the valid lanes into the arm's position, predicts it where none is valid, shows the valid lanes,
and counts wedges without any; eight wedges with two lanes end a load in SEEK; an invalid lane 0 in FOLLOW ends a
running write with the gate dropped and ON_TRACK 0. An asserted inhibit is shown and drops the gate of a running write
with WRITE_INHIBIT. A lost track enters RECOVER with the inhibit, a shock holds its HDA's inhibits until the hold
ends, a held saturation inhibits. HEAD_SWITCH asks for both head registers. SEEK_START takes the waiting request. An
offset calibration that ends OK stores its map and any other result keeps it. A PWM sample drives both legs with no
pulse below MINPULSE; with the bridge off it does nothing. -/
def Obligations.ServoTracking : Prop :=
  (∀ (s : State) (a : Nat) (ins : List LaneIn), a < 32 → 3 ≤ srvState s a → srvState s a ≤ 10 →
    ∃ t, exec (.servoWedge a ins) s = .next t ∧
      (getSrv t a).fused = ((judgeLanes s a ins).filter fun l => l.valid).length ∧ (getSrv t a).wedgeNs = s.tb.ns ∧
      (∀ i < 4, fbit t (srvF SRV_ACT_LANES a) i = ((judgeLanes s a ins).getD i {}).valid) ∧
      ((∀ l ∈ judgeLanes s a ins, l.valid = false) →
        (getSrv t a).x = (getSrv s a).x.map (fun x => x + (getSrv s a).vel * wedgeInterval s (getSrv s a))) ∧
      ((∃ l ∈ judgeLanes s a ins, l.valid = true) →
        (getSrv t a).x = some ((fuseSums s a (judgeLanes s a ins)).2 / (fuseSums s a (judgeLanes s a ins)).1)) ∧
      (srvState s a = 4 → 2 ≤ ((judgeLanes s a ins).filter fun l => l.valid).length → 7 ≤ (getSrv s a).loadRun →
        (∀ l ∈ judgeLanes s a ins, l.bad < 32) → srvState t a = 5) ∧
      (∀ o, srvState s a = 7 → (getRdc s a).calRun = none → (getRdc s a).run = some o → o.write = true → (getRdc s a).gate = true →
        ((judgeLanes s a ins).headD {}).valid = false → (getRdc t a).gate = false ∧ (getRdc t a).run = none ∧
          fget t (srvF SRV_ACT_ON_TRACK a) = 0)) ∧
  (∀ (s : State) (a k : Nat), a < 32 → 2 ≤ k → k ≤ 7 →
    ∃ t, exec (.writeInhibitAssert a k) s = .next t ∧ fbit t (srvF SRV_ACT_INHIBIT a) k = true ∧
      (∀ j < 8, j ≠ k → fbit t (srvF SRV_ACT_INHIBIT a) j = fbit s (srvF SRV_ACT_INHIBIT a) j) ∧
      ((getRdc s a).gate = false → RegsBut [(srvF SRV_ACT_INHIBIT a).off] s t ∧ Unchanged [.regs] s t) ∧
      (∀ o, (getRdc s a).run = some o → o.write = true → (getRdc s a).gate = true → (getRdc t a).gate = false ∧
        (getRdc t a).run = none ∧ (getRdc t a).done = (getRdc s a).done ++
          [{ reply := o.reply, write := true, status := 0x21, fail := failMap (unwritten s a o) }] ∧
        Unchanged (.rdc :: reportParts) s t)) ∧
  (∀ (s : State) (a ns : Nat), a < 32 → srvState s a = 7 → (getSrv s a).feNs = some ns →
    1000 * fget s (srvF SRV_FE_FE_TMO a) ≤ s.tb.ns - ns →
    ((getSrv s a).lostNs.filter fun x => decide (s.tb.ns - x ≤ 10000000000)).length < 7 →
    ∃ t, exec (.trackLost a) s = .next t ∧ srvState t a = 8 ∧ fbit t (srvF SRV_ACT_INHIBIT a) 6 = true ∧
      fget t (srvF SRV_ACT_ON_TRACK a) = 0 ∧ fget t (srvF SRV_ACT_RD_READY a) = 0 ∧
      fget t (srvF SRV_ERR_CNT0_LOST a) = min (fget s (srvF SRV_ERR_CNT0_LOST a) + 1) 255 ∧
      (getSrv t a).seekReq.isSome = true ∧ t.nv = s.nv) ∧
  (∀ (s : State) (h : Nat), h < 16 →
    (hdaPresent s h = true → ∃ t, exec (.shockCapture false h) s = .next t ∧ fbit t SRV_STATUS_SHOCK_HOLD h = true ∧
      ∀ a, a / 2 = h → srvState s a ≠ 0 → fbit t (srvF SRV_ACT_INHIBIT a) 2 = true ∧
        fget t (srvF SRV_ERR_CNT0_SHOCK a) = min (fget s (srvF SRV_ERR_CNT0_SHOCK a) + 1) 255) ∧
    (fbit s SRV_STATUS_SHOCK_HOLD h = true →
      1000000 * (image s).motor.shockHold ≤ s.tb.ns - (getSrv s (2 * h)).shockNs →
      ∃ t, exec (.shockHoldEnd h) s = .next t ∧ fbit t SRV_STATUS_SHOCK_HOLD h = false ∧
        (∀ a, a / 2 = h → fbit t (srvF SRV_ACT_INHIBIT a) 2 = false) ∧ Unchanged [.regs, .ltn] s t)) ∧
  (∀ (s : State) (a head : Nat), a < 32 → rdcServes s a = true → head < (hdaTable s (a / 2)).heads →
    ∃ t sh, exec (.headSwitch a head) s = .next t ∧ (getRdc t a).frames = (getRdc s a).frames ++
        [{ cls := 2, addr := 2, data := some head }, { cls := 2, addr := 3, data := some sh }] ∧
      (getSrv t a).switch_ = some (head, sh) ∧ (getSrv t a).head = (getSrv s a).head ∧ Unchanged [.rdc, .srv] s t) ∧
  (∀ (s : State) (a head cyl : Nat) (ofs : Rat), a < 32 → (getSrv s a).seekReq = some (head, cyl, ofs) →
    5 ≤ srvState s a → srvState s a ≤ 9 →
    ∃ t k, exec (.seekStart a) s = .next t ∧ srvState t a = (if srvState s a = 9 then 9 else 5) ∧
      (getSrv t a).seekReq = none ∧ (getSrv t a).head = head ∧ (getSrv t a).target = cyl ∧ (getSrv t a).readOfs = ofs ∧
      (getSrv t a).seek = some k ∧ k.target = ((cyl : Nat) : Rat) + ofs ∧ k.t0 = s.tb.ns ∧
      fget t (srvF SRV_TARGET_TRACK a) = cyl % 2 ^ 22 ∧ fget t (srvF SRV_ACT_PHASE a) = 1 ∧
      fget t (srvF SRV_ACT_ON_TRACK a) = 0 ∧ fget t (srvF SRV_ACT_RD_READY a) = 0) ∧
  (∀ (s : State) (a z res : Nat) (st : List (Rat × Rat)), a < 32 → (getSrv s a).calRun = some z →
    (getSrv s a).calNext = none →
    (res = 1 → st.length < 16 → ∃ t, exec (.offsetCalibration a z res st) s = .next t ∧
      fget t (srvF SRV_CAL_RESULT a) = 1 ∧ fget t (srvF SRV_CAL_BUSY a) = 0 ∧ (getSrv t a).calRun = none ∧
      (∀ i < st.length, tget {} t.nv.ofs (ofsKey a z (i + 1)) =
        { ofs := (st.getD i (0, 0)).1, var := (st.getD i (0, 0)).2 / 2, made := s.tb.ns, temp := (getRdc s a).temp }) ∧
      Unchanged [.regs, .srv, .nv] s t) ∧
    (2 ≤ res → res ≤ 5 → ∃ t, exec (.offsetCalibration a z res st) s = .next t ∧ fget t (srvF SRV_CAL_RESULT a) = res ∧
      (getSrv t a).calRun = none ∧ t.nv = s.nv ∧ Unchanged (.srv :: reportParts) s t)) ∧
  (∀ (s : State) (a : Nat) (v : Word), a < 32 →
    ((hdaTable s (a / 2)).zones.length ≤ bitsGet v 0 6 → ∃ t, exec (.srvCalRequest a v) s = .next t ∧
      fget t SRV_STATUS_RSV_WRITE = 1 ∧ RegsBut [SRV_STATUS_RSV_WRITE.off] s t ∧ Unchanged [.regs] s t) ∧
    (bitsGet v 0 6 < (hdaTable s (a / 2)).zones.length → bitsGet v 6 1 = 1 →
      ((getSrv s a).calRun = none → ∃ t, exec (.srvCalRequest a v) s = .next t ∧ fget t (srvF SRV_CAL_BUSY a) = 1 ∧
        (getSrv t a).calRun = some (bitsGet v 0 6) ∧ Unchanged [.regs, .srv] s t) ∧
      ((getSrv s a).calRun.isSome = true → ∃ t, exec (.srvCalRequest a v) s = .next t ∧
        fget t (srvF SRV_CAL_PEND a) = 1 ∧ (getSrv t a).calNext = some (bitsGet v 0 6) ∧
        (getSrv t a).calRun = (getSrv s a).calRun ∧ Unchanged [.regs, .srv] s t))) ∧
  (∀ (s : State) (a ns : Nat), a < 32 → srvState s a = 6 ∨ srvState s a = 7 → (getSrv s a).satNs = some ns →
    1000 * fget s (vcmF VCM_SAT_TMO_TMO a) < s.tb.ns - ns → fbit s (srvF SRV_ACT_INHIBIT a) 4 = false →
    ∃ t, exec (.satInhibit a) s = .next t ∧ fbit t (srvF SRV_ACT_INHIBIT a) 4 = true ∧
      fget t (vcmF VCM_STATE_SAT_HELD a) = 1 ∧ srvState t a = srvState s a ∧ t.nv = s.nv) ∧
  (∀ (s : State) (a : Nat) (iA iB : Conv) (volts vm : Rat), a < 32 →
    (fget s (vcmF VCM_STATE_BRIDGE a) = 0 → exec (.vcmPwmSample a iA iB volts vm) s = .next s) ∧
    (fget s (vcmF VCM_STATE_BRIDGE a) = 1 →
      ∃ t ha la hb lb sa sb, exec (.vcmPwmSample a iA iB volts vm) s = .next t ∧
        t.out = .gates a 1 hb lb sb :: .gates a 0 ha la sa :: s.out ∧
        (∀ w ∈ [ha, la, hb, lb], w = 0 ∨ (((actRec s a).minPulse : Nat) : Rat) ≤ w) ∧
        (getSrv t a).shuntA = (getSrv s a).shuntA.take iA ∧ (getSrv t a).shuntB = (getSrv s a).shuntB.take iB ∧
        (iA.valid = true → (getSrv s a).shuntA.lost = false →
          fget t (vcmF VCM_MEAS_I a) = satSigned 16 (iA.value * 1000).floor) ∧
        tget 0 (getTask t (32 + a)).ins 6 = ratToFp vm ∧ Unchanged [.regs, .srv, .ltn, .out] s t))

/-- A load that may start enters LOADING with the bridge on, the inward drive and the park record UNKNOWN; its Kt
measurement becomes valid; the first load of an HDA after a boot has the segments whose stripes resynchronisation
repairs relocated. A load that times out, a retract, and an unload that may not take the guided form start the
sequencer; a guided unload seeks track 0. An unload that ends leaves PARKED with the bridge off, the tasks disabled
and the record PARKED, or RETIRED where a retirement was owed. A failed load is tried again after 1 s. Listening with
the bridge off ends in SEEK where lanes are valid and in a retract with a reload where not. Position lost in FOLLOW is
a retract with a reload. A driver fault opens the bridge; a retry resumes, and a second fault or a failed retry
strands the arm. A lost shunt inhibits writes; both lost retract the arm. -/
def Obligations.LoadsUnloadsAndDrivers : Prop :=
  (∀ (s : State) (a : Nat), a < 32 → loadOk s a = true →
    (∃ t, exec (.load a none [] 0) s = .next t ∧ srvState t a = 4 ∧ fget t (vcmF VCM_STATE_BRIDGE a) = 1 ∧
      (getSrv t a).volts = loadVolts s a ∧ tget 0 t.nv.park a = 2 ∧ fget t (srvF SRV_ACT_PARK_REC a) = 2 ∧
      { cls := 2, addr := 1, data := some 2 } ∈ (getRdc t a).frames) ∧
    (∀ m : Measured, m.item = 0x202 + 4 * a → (param s m.item).2.1 = 0 → Measured.code m = 1 →
      ∃ t, exec (.load a (some m) [] 0) s = .next t ∧ srvState t a = 4 ∧
        param t m.item = (m.value.toNat, 1, min ((param s m.item).2.2 + 1) 255)) ∧
    (∀ (bad : List Nat) (n : Nat), a / 2 ∉ s.udc.resynced → 0 < n →
      ∃ t, exec (.load a none bad n) s = .next t ∧ srvState t a = 4 ∧ a / 2 ∈ t.udc.resynced ∧
        (∀ i ∈ bad, (getSeg t true i).asked = true) ∧
        (∀ i, i ∉ bad → getSeg t true i = getSeg s true i) ∧ (∀ i, getSeg t false i = getSeg s false i)) ∧
    ((getSrv s a).again = true → 1000000000 ≤ s.tb.ns - (getSrv s a).loadNs.headD 0 →
      ∃ t, exec (.loadRetry a) s = .next t ∧ srvState t a = 4 ∧ fget t (vcmF VCM_STATE_BRIDGE a) = 1 ∧
        (getSrv t a).again = false ∧ tget 0 t.nv.park a = 2)) ∧
  (∀ (s : State) (a : Nat), a < 32 → srvState s a = 4 → 500000000 ≤ s.tb.ns - (getSrv s a).stateNs →
    ∃ t, exec (.loadTimeout a) s = .next t ∧ srvState t a = 10 ∧ fget t (vcmF VCM_STATE_RETRACT a) = 1 ∧
      fget t (srvF SRV_ERR_CNT1_LOAD_FAIL a) = min (fget s (srvF SRV_ERR_CNT1_LOAD_FAIL a) + 1) 255 ∧
      ((∀ x ∈ (getSrv s a).loadNs, 600000000000 < s.tb.ns - x) → (getSrv t a).again = true ∧
        (getSrv t a).retireOwed = (getSrv s a).retireOwed) ∧
      (∀ x ∈ (getSrv s a).loadNs, s.tb.ns - x ≤ 600000000000 → (getSrv t a).retireOwed = true)) ∧
  (∀ (s : State) (a : Nat) (i : Instr), a < 32 →
    (i = .retract a ∧ 4 ≤ srvState s a ∧ srvState s a ≤ 9) ∨ (i = .unloadRequest a ∧ srvState s a = 4) ∨
    (i ∈ [Instr.guidedUnload a, .unloadRequest a] ∧ 5 ≤ srvState s a ∧ srvState s a ≤ 8 ∧ guidedOk s a = false) →
    ∃ t, exec i s = .next t ∧ srvState t a = 10 ∧ fget t (vcmF VCM_STATE_RETRACT a) = 1 ∧
      fget t (vcmF VCM_STATE_BRIDGE a) = 1 ∧ (getSrv t a).volts = unloadVolts s a ∧ (getSrv t a).seek = none ∧
      fget t (srvF SRV_ERR_CNT1_RETRACT a) = min (fget s (srvF SRV_ERR_CNT1_RETRACT a) + 1) 255 ∧
      fget t (srvF SRV_ACT_ON_TRACK a) = 0 ∧ fget t (srvF SRV_ACT_RD_READY a) = 0) ∧
  (∀ (s : State) (a : Nat) (i : Instr), a < 32 → i ∈ [Instr.guidedUnload a, .unloadRequest a] → 5 ≤ srvState s a →
    srvState s a ≤ 8 → guidedOk s a = true →
    ∃ t, exec i s = .next t ∧ srvState t a = 9 ∧ (getSrv t a).seekReq = some ((getSrv s a).head, 0, 0) ∧
      (getSrv t a).seek = none ∧ fget t (srvF SRV_ACT_ON_TRACK a) = 0 ∧ t.nv.park = s.nv.park) ∧
  (∀ (s : State) (a : Nat) (i : Instr), a < 32 → (i = .retractDone a ∧ srvState s a = 10) ∨
    (i = .unloadDone a ∧ srvState s a = 9 ∧ 8 ≤ (getSrv s a).outRun) → flushWritesPark s = false →
    ((getSrv s a).retireOwed = false → (getSrv s a).reload = false →
      ∃ t, exec i s = .next t ∧ srvState t a = 2 ∧ fget t (vcmF VCM_STATE_BRIDGE a) = 0 ∧
        fget t (vcmF VCM_STATE_RETRACT a) = 0 ∧ tget 0 t.nv.park a = 1 ∧ fget t (srvF SRV_ACT_PARK_REC a) = 1 ∧
        (getTask t a).enabled = false ∧ (getTask t (32 + a)).enabled = false ∧
        { cls := 2, addr := 1, data := some 0 } ∈ (getRdc t a).frames) ∧
    ((getSrv s a).retireOwed = true →
      ∃ t, exec i s = .next t ∧ srvState t a = 11 ∧ isRetired t (.actuator a) = true ∧
        fbit t SRV_RETIRED_RETIRED a = true ∧ fget t (vcmF VCM_STATE_BRIDGE a) = 0 ∧ tget 0 t.nv.park a = 1)) ∧
  (∀ (s : State) (a : Nat), a < 32 → srvState s a = 3 → atSpeed s (a / 2) = true → rdcServes s a = true →
    (∃ t, exec (.parkUnknownListen a true) s = .next t ∧ srvState t a = 5 ∧ fget t (vcmF VCM_STATE_BRIDGE a) = 1 ∧
      (getSrv t a).seekReq.isSome = true ∧ (∀ k ∈ [a, 32 + a], taskLive s k = true → (getTask t k).enabled = true)) ∧
    (∃ t, exec (.parkUnknownListen a false) s = .next t ∧ srvState t a = 10 ∧ (getSrv t a).reload = true ∧
      fget t (vcmF VCM_STATE_RETRACT a) = 1)) ∧
  (∀ (s : State) (a : Nat), a < 32 → 64 ≤ (getSrv s a).noLane → srvState s a = 7 →
    ∃ t, exec (.positionLost a) s = .next t ∧ srvState t a = 10 ∧ (getSrv t a).reload = true ∧ (getSrv t a).noLane = 0 ∧
      fget t (srvF SRV_ERR_CNT1_POS_LOST a) = min (fget s (srvF SRV_ERR_CNT1_POS_LOST a) + 1) 255) ∧
  (∀ (s : State) (a : Nat), a < 32 → 4 ≤ srvState s a → srvState s a ≤ 10 →
    (∃ t, exec (.vcmDriverFault a) s = .next t ∧ fget t (vcmF VCM_STATE_BRIDGE a) = 0 ∧
      fget t (vcmF VCM_STATE_DRV_FLT a) = 1 ∧
      ((∀ x ∈ (getSrv s a).drvNs, 600000000000 < s.tb.ns - x) → srvState t a = srvState s a) ∧
      (∀ x ∈ (getSrv s a).drvNs, s.tb.ns - x ≤ 600000000000 → srvState t a = 12 ∧
        fget t (vcmF VCM_STATE_STRANDED a) = 1)) ∧
    (fget s (vcmF VCM_STATE_DRV_FLT a) = 1 →
      (∃ t, exec (.vcmDriverRetry a true) s = .next t ∧ fget t (vcmF VCM_STATE_DRV_FLT a) = 0 ∧
        fget t (vcmF VCM_STATE_BRIDGE a) = 1 ∧
        srvState t a = (if 5 ≤ srvState s a ∧ srvState s a ≤ 8 then 5 else 10)) ∧
      (∃ t, exec (.vcmDriverRetry a false) s = .next t ∧ srvState t a = 12 ∧ fget t (vcmF VCM_STATE_BRIDGE a) = 0 ∧
        fget t (vcmF VCM_STATE_STRANDED a) = 1 ∧ fbit t SRV_RETIRED_RETIRED a = true))) ∧
  (∀ (s : State) (a : Nat), a < 32 → 2 ≤ (getSrv s a).shuntA.bad → (getSrv s a).shuntA.lost = false →
    ((getSrv s a).shuntB.lost = false → ∃ t, exec (.shuntLost a 0) s = .next t ∧ (getSrv t a).shuntA.lost = true ∧
      fget t (vcmF VCM_STATE_SHUNT_A a) = 2 ∧ fbit t (srvF SRV_ACT_INHIBIT a) 5 = true ∧ srvState t a = srvState s a) ∧
    ((getSrv s a).shuntB.lost = true → 4 ≤ srvState s a → srvState s a ≤ 9 →
      ∃ t, exec (.shuntLost a 0) s = .next t ∧ (getSrv t a).shuntA.lost = true ∧ srvState t a = 10 ∧
        (getSrv t a).retireOwed = true))

/-- A spin-up request takes a standing spindle to ALIGN, or first to its shunt calibration; DECEL back to FOC, BRAKE and
COAST to CATCH; in REGEN it is latched. A stop request leads to COAST or DECEL, or waits for loaded heads. Drive-off
coasts; Ballast enters REGEN or COAST. ALIGN ends in OPEN; an OPEN that does not close coasts, the third retires. At
the end of CATCH the speed and back-EMF choose FOC, SIX_STEP or COAST. A standstill ends in STOPPED with a
calibration, or in RETIRED where owed. A retired HDA is shown retired, and RETIRED at once when it stands. A speed
held for 1 s sets AT_SPEED. A sync pulse trims by at most 0.1 %; its loss ends the trim; an index pulse goes out. -/
def Obligations.SpindleStartsAndStops : Prop :=
  (∀ (s : State) (h : Nat), h < 16 → isRetired s (.hda h) = false →
    (spnState s h = 2 → offsetsFresh s h = true → ∃ t, exec (.spinupRequest h) s = .next t ∧ spnState t h = 3 ∧
      (getSpn t h).startup = true ∧ (getSpn t h).fails = 0 ∧ (getSpn t h).theta = 0) ∧
    (spnState s h = 2 → offsetsFresh s h = false → ∃ t, exec (.spinupRequest h) s = .next t ∧ spnState t h = 2 ∧
      (getSpn t h).startup = true ∧ (getSpn t h).calWant = true ∧ fget t (spnF SPN_CAL_BUSY h) = 1) ∧
    (spnState s h = 7 → ∃ t, exec (.spinupRequest h) s = .next t ∧ spnState t h = 6 ∧
      fget t (spnF SPN_STATE_TRACKER h) = 2 ∧ (getSpn t h).wsp = (getSpn s h).omega) ∧
    (spnState s h = 8 ∨ spnState s h = 9 → ∃ t, exec (.spinupRequest h) s = .next t ∧ spnState t h = 10 ∧
      fget t (spnF SPN_STATE_TRACKER h) = 1 ∧ (getSpn t h).startup = true) ∧
    (spnState s h = 11 → ∃ t, exec (.spinupRequest h) s = .next t ∧ (getSpn t h).upLatch = true ∧ Unchanged [.spn] s t)) ∧
  (∀ (s : State) (h v : Nat), h < 16 → s.phase.inService = true → s.rst.warm = none → s.pwr.vmOkSince = some v →
    v + 10000000 ≤ s.tb.ns → spnState s h = 9 → isRetired s (.hda h) = false → (getSpn s h).retireOwed = false →
    spinSlotFree s h = true → (∀ k < h, spnState s k ≠ 2 ∧ spnState s k ≠ 9) →
    ∃ t, exec .spinupStart s = .next t ∧ spnState t h = 10 ∧ (getSpn t h).startup = true) ∧
  (∀ (s : State) (h : Nat) (sf : Bool), h < 16 → hdaStranded s h = false ∨ sf = true →
    (spnState s h ∈ [3, 4, 10] → ∃ t, exec (.spindleStopRequest h sf) s = .next t ∧ spnState t h = 9 ∧
      (getSpn t h).startup = false) ∧
    (spnState s h = 6 → hdaLoaded s h = false → ∃ t, exec (.spindleStopRequest h sf) s = .next t ∧ spnState t h = 7 ∧
      (getSpn t h).wsp = (getSpn s h).omega) ∧
    (spnState s h = 5 → hdaLoaded s h = false →
      ∃ t, exec (.spindleStopRequest h sf) s = .next t ∧
        ((getSpn s h).omega < ratedPct s h (spinRec s h).focOff → spnState t h = 9) ∧
        (ratedPct s h (spinRec s h).focOff ≤ (getSpn s h).omega → spnState t h = 5 ∧ (getSpn t h).focWait = true)) ∧
    (spnState s h = 5 ∨ spnState s h = 6 → hdaLoaded s h = true →
      ∃ t, exec (.spindleStopRequest h sf) s = .next t ∧ (getSpn t h).stopReq = some sf ∧ Unchanged [.spn] s t)) ∧
  (∀ (s : State) (h : Nat), h < 16 →
    ((3 ≤ spnState s h ∧ spnState s h ≤ 8) ∨ spnState s h = 10 → ∃ t, exec (.driveOffRequest h) s = .next t ∧
      spnState t h = 9 ∧ (getSpn t h).startup = false ∧ .bridge (100 + h) 0 ∈ t.out) ∧
    (5 ≤ spnState s h ∧ spnState s h ≤ 8 → ∃ t, exec (.ballastRequest h) s = .next t ∧ spnState t h = 11) ∧
    (spnState s h ∈ [3, 4, 10] → ∃ t, exec (.ballastRequest h) s = .next t ∧ spnState t h = 9)) ∧
  (∀ (s : State) (h : Nat), h < 16 → spnState s h = 3 →
    1000000 * (spinRec s h).tAlign ≤ s.tb.ns - (getSpn s h).stateNs →
    ∃ t, exec (.alignEnd h) s = .next t ∧ spnState t h = 4 ∧
      (getSpn t h).omega = (((spinRec s h).fOl0 : Nat) : Rat) / polePairs s h) ∧
  (∀ (s : State) (h : Nat), h < 16 → spnState s h = 4 →
    1000000 * (spinRec s h).tOpenMax ≤ s.tb.ns - (getSpn s h).stateNs →
    ∃ t, exec (.openLoopTimeout h) s = .next t ∧ spnState t h = 9 ∧ (getSpn t h).fails = (getSpn s h).fails + 1 ∧
      (2 ≤ (getSpn s h).fails → isRetired t (.hda h) = true) ∧
      ((getSpn s h).fails < 2 → t.pwr.retired = s.pwr.retired)) ∧
  (∀ (s : State) (h : Nat) (emf w th : Rat), h < 16 → spnState s h = 10 → spinSlotFree s h = true →
    ∃ t, exec (.catchObserveEnd h emf w th) s = .next t ∧ (getSpn t h).omega = w ∧
      (ratedPct s h (spinRec s h).focOn ≤ w → spnState t h = 6 ∧ fget t (spnF SPN_STATE_TRACKER h) = 2 ∧ (getSpn t h).wsp = w) ∧
      (w < ratedPct s h (spinRec s h).focOn → 1 / 10 ≤ emf → spnState t h = 5 ∧ fget t (spnF SPN_STATE_TRACKER h) = 0) ∧
      (w < ratedPct s h (spinRec s h).focOn → emf < 1 / 10 → spnState t h = 9)) ∧
  (∀ (s : State) (h : Nat), h < 16 → spnState s h = 8 ∨ spnState s h = 9 →
    ((getSpn s h).retireOwed = true → ∃ t, exec (.standstill h) s = .next t ∧ spnState t h = 12 ∧
      (∀ d ∈ [167 + h, 135 + 2 * h, 136 + 2 * h], pdOn t d = false)) ∧
    ((getSpn s h).retireOwed = false → (getSpn s h).startup = false → ∃ t, exec (.standstill h) s = .next t ∧
      spnState t h = 2 ∧ (getSpn t h).omega = 0 ∧ fget t (spnF SPN_CAL_BUSY h) = 1 ∧ fget t (spnF SPN_CAL_PEND h) = 0)) ∧
  (∀ (s : State) (h : Nat) (drive : Bool), h < 16 → hdaPresent s h = true → isRetired s (.hda h) = false →
    ∃ t, exec (.hdaRetire h drive) s = .next t ∧ isRetired t (.hda h) = true ∧ fbit t SPN_RETIRED_RETIRED h = true ∧
      (spnState s h < 3 → spnState t h = 12) ∧ (drive = false → spnState s h ∈ [3, 4, 5, 6, 10] → spnState t h = 9)) ∧
  (∀ (s : State) (h : Nat) (drive : Bool), h < 16 → (getSpn s h).startup = true → atSpeed s h = false →
    (getSpn s h).firstNs + ((image s).spinup.getD {}).spinTmo * 1000000000 ≤ s.tb.ns →
    ∃ t, exec (.spinupTimeout h drive) s = .next t ∧ isRetired t (.hda h) = true) ∧
  (∀ (s : State) (h d : Nat), h < 16 → spnState s h = 5 ∨ spnState s h = 6 → (getSpn s h).inBand = some d →
    1000000000 ≤ s.tb.ns - d → atSpeed s h = false →
    ∃ t, exec (.atSpeed h) s = .next t ∧ atSpeed t h = true ∧ fbit t SPN_STATUS_AT_SPEED h = true ∧
      (getSpn t h).startup = false ∧ Unchanged (.spn :: .srv :: reportParts) s t) ∧
  (∀ s : State, gpioCode s 16 = 6 → ∃ t, exec .spinSyncInPulse s = .next t ∧
    (∀ h < 16, hdaPresent s h = true → (getSpn t h).syncNs = some s.tb.ns ∧
      ((getSpn t h).trim = (getSpn s h).trim ∨ |(getSpn t h).trim| ≤ rated s h / 1000)) ∧
    Unchanged [.spn, .regs, .freeCtr] s t) ∧
  (∀ (s : State) (h d : Nat), h < 16 → (getSpn s h).syncNs = some d → fbit s SPN_SYNC_CTL_IN_MASK h = true →
    4 * revNs s h ≤ ((s.tb.ns - d : Nat) : Rat) →
    ∃ t, exec (.spinSyncLost h) s = .next t ∧ (getSpn t h).trim = 0 ∧ (getSpn t h).syncNs = none ∧
      fget t (spnF SPN_SYNC_LOCKED h) = 0 ∧ Unchanged (.spn :: reportParts) s t) ∧
  (∀ (s : State) (h : Nat), h < 16 → spnState s h = 6 → ∃ t, exec (.spindleIndex h) s = .next t ∧
    (getSpn t h).indexNs = some s.tb.ns ∧
    t.out = (if fget s SPN_SYNC_CTL_OUT_HDA = h ∧ gpioCode s 17 = 7 then .syncPulse h :: s.out else s.out) ∧
    Unchanged [.spn, .out] s t)

/-- An accepted crossing fixes the angle and the time; in OPEN enough of them close the loop, in SIX_STEP it schedules the
commutation, or hands over to DECEL where a stop waits. A commutation, timed or forced, enters the next sector. In FOC
a PWM period drives three legs with no pulse below MINPULSE and shows VM; the set-point climbs by the ramp, never
above rated speed. A loss of synchronism counts and coasts, FOC and SIX_STEP going on to CATCH, the third within 60 s
retiring. VM_SHORT brakes or coasts, and its end resumes. A driver fault coasts, a second one retires, a retry
catches. A lost shunt is shown; two lost end the drive. A shunt calibration ends OK with its offsets or NOT_QUIESCENT;
a request starts one or is latched. A quiet winding measurement becomes VALID, another NOT_QUIESCENT with the nominal
value. -/
def Obligations.SpindleDriveAndFaults : Prop :=
  (∀ (s : State) (h ph on_ : Nat) (up hy : Bool), h < 16 →
    (zcAccepted s h ph up on_ hy = false → exec (.zeroCrossing h ph up on_ hy) s = .next s) ∧
    (zcAccepted s h ph up on_ hy = true → spnState s h = 5 →
      ∃ t, exec (.zeroCrossing h ph up on_ hy) s = .next t ∧ (getSpn t h).zcNs = some s.tb.ns ∧
        (getSpn t h).theta = sectorAngle (getSpn s h).sector ∧ (getSpn t h).held = true ∧ (getSpn t h).forced = 0 ∧
        (getSpn t h).commDue.isSome = true ∧ ((getSpn s h).focWait = true → spnState t h = 7 ∧ (getSpn t h).focWait = false)) ∧
    (zcAccepted s h ph up on_ hy = true → spnState s h = 4 → openWatched s h = true →
      ∃ t, exec (.zeroCrossing h ph up on_ hy) s = .next t ∧ (getSpn t h).zcNs = some s.tb.ns ∧
        ((getSpn s h).zcRun + 1 < (spinRec s h).zcN → spnState t h = 4 ∧ (getSpn t h).zcRun = (getSpn s h).zcRun + 1) ∧
        ((spinRec s h).zcN ≤ (getSpn s h).zcRun + 1 → spnState t h = 5 ∧ fget t (spnF SPN_STATE_TRACKER h) = 0 ∧
          (getSpn t h).wsp = (getSpn t h).omega))) ∧
  (∀ (s : State) (h : Nat), h < 16 → spnState s h = 5 →
    (∀ d, (getSpn s h).commDue = some d → d ≤ s.tb.ns → ∃ t, exec (.commutation h) s = .next t ∧
      (getSpn t h).sector = ((getSpn s h).sector + 1) % 6 ∧ (getSpn t h).commDue = none ∧
      (getSpn t h).commNs = s.tb.ns ∧ Unchanged [.spn] s t) ∧
    ((getSpn s h).zcNs = none → 3 * (getSpn s h).lastGap ≤ 2 * (s.tb.ns - (getSpn s h).commNs) →
      ∃ t, exec (.forcedCommutation h) s = .next t ∧ (getSpn t h).sector = ((getSpn s h).sector + 1) % 6 ∧
        (getSpn t h).forced = (getSpn s h).forced + 1 ∧
        fget t (spnF SPN_CNT1_FORCED h) = min (fget s (spnF SPN_CNT1_FORCED h) + 1) 255 ∧ Unchanged [.spn, .regs] s t)) ∧
  (∀ (s : State) (h : Nat) (iU iV iW : Conv) (vm th w : Rat), h < 16 → spnState s h = 6 → (getSpn s h).twoLost = false →
    (getSpn s h).stopReq = none →
    ∃ t, exec (.spindlePwmPeriod h iU iV iW vm th w) s = .next t ∧
      (∀ leg < 3, ∃ hi lo sg, .gates (100 + h) leg hi lo sg ∈ t.out ∧
        (hi = 0 ∨ (((spinRec s h).minPulse : Nat) : Rat) ≤ hi) ∧ (lo = 0 ∨ (((spinRec s h).minPulse : Nat) : Rat) ≤ lo)) ∧
      fget t (spnF SPN_VM_VM h) = min 0xFFFF (vm * 1000).floor.toNat ∧ (getSpn t h).vm = vm ∧
      ((getSpn s h).wsp ≤ rated s h → (getSpn t h).wsp ≤ rated s h) ∧
      (taskSat s (64 + h) = true → (getSpn t h).wsp = (getSpn s h).wsp) ∧ t.nv.platter = s.nv.platter) ∧
  (∀ (s : State) (h : Nat), h < 16 → spnState s h ∈ [5, 6, 7, 11] → 6 ≤ (getSpn s h).forced →
    ∃ t, exec (.lossOfSync h) s = .next t ∧
      fget t (spnF SPN_CNT1_LOS h) = min (fget s (spnF SPN_CNT1_LOS h) + 1) 255 ∧
      (((getSpn s h).losNs.filter fun x => decide (s.tb.ns - x ≤ 60000000000)).length < 2 →
        t.pwr.retired = s.pwr.retired ∧ (getSpn t h).forced = 0 ∧
        spnState t h = (if spnState s h = 5 ∨ spnState s h = 6 then 10 else 9)) ∧
      (2 ≤ ((getSpn s h).losNs.filter fun x => decide (s.tb.ns - x ≤ 60000000000)).length →
        isRetired t (.hda h) = true ∧ spnState t h = 9)) ∧
  (∀ (s : State) (h : Nat), h < 16 →
    (spnState s h = 7 ∨ spnState s h = 11 → ∃ t, exec (.vmShort h) s = .next t ∧ spnState t h = 8 ∧
      (getSpn t h).shortFrom = spnState s h) ∧
    (spnState s h = 3 ∨ spnState s h = 4 → ∃ t, exec (.vmShort h) s = .next t ∧ spnState t h = 9 ∧
      (getSpn t h).shortFrom = spnState s h) ∧
    (spnState s h = 5 ∨ spnState s h = 6 → ∃ t, exec (.vmShort h) s = .next t ∧
      spnState t h = (if (focCommands s h (getSpn s h).vm).1 < 0 then 8 else 9)) ∧
    ((getSpn s h).shortFrom ≠ 0 → spnState s h = 9 → ∃ t, exec (.vmShortRecover h) s = .next t ∧ spnState t h = 10 ∧
      (getSpn t h).shortFrom = 0) ∧
    ((getSpn s h).shortFrom = 7 ∨ (getSpn s h).shortFrom = 11 → spnState s h = 8 →
      ratedPct s h (spinRec s h).stopPct < (getSpn s h).omega →
      ∃ t, exec (.vmShortRecover h) s = .next t ∧ spnState t h = (getSpn s h).shortFrom ∧ (getSpn t h).shortFrom = 0)) ∧
  (∀ (s : State) (h : Nat), h < 16 → spnDriven (spnState s h) = true ∨ spnState s h = 10 →
    ∃ t, exec (.spindleDriverFault h) s = .next t ∧ spnState t h = 9 ∧ fget t (spnF SPN_STATE_DRV_FLT h) = 1 ∧
      fget t (spnF SPN_CNT1_DRV_FLT h) = min (fget s (spnF SPN_CNT1_DRV_FLT h) + 1) 255 ∧
      ((∀ x ∈ (getSpn s h).drvNs, 600000000000 < s.tb.ns - x) → t.pwr.retired = s.pwr.retired) ∧
      (∀ x ∈ (getSpn s h).drvNs, s.tb.ns - x ≤ 600000000000 → isRetired t (.hda h) = true)) ∧
  (∀ (s : State) (h : Nat), h < 16 → spnState s h = 9 → fget s (spnF SPN_STATE_DRV_FLT h) = 1 →
    (∃ t, exec (.spindleDriverRetry h true) s = .next t ∧ spnState t h = 10 ∧ fget t (spnF SPN_STATE_DRV_FLT h) = 0) ∧
    (∃ t, exec (.spindleDriverRetry h false) s = .next t ∧ isRetired t (.hda h) = true)) ∧
  (∀ (s : State) (h ph : Nat), h < 16 → ph < 3 → 2 ≤ ((getSpn s h).shunts.getD ph {}).bad →
    ((getSpn s h).shunts.getD ph {}).lost = false →
    ((∀ x ∈ (getSpn s h).shunts, x.lost = false) → ∃ t, exec (.phaseShuntLost h ph) s = .next t ∧
      ((getSpn t h).shunts.getD ph {}).lost = true ∧ spnState t h = spnState s h ∧
      fget t (spnF ([SPN_STATE_SHUNT_U, SPN_STATE_SHUNT_V, SPN_STATE_SHUNT_W].getD ph SPN_STATE_SHUNT_U) h) = 2 ∧
      Unchanged (.spn :: reportParts) s t) ∧
    (((getSpn s h).shunts.filter fun x => x.lost).length = 1 → ∃ t, exec (.phaseShuntLost h ph) s = .next t ∧
      (5 ≤ spnState s h ∧ spnState s h ≤ 8 → (getSpn t h).twoLost = true) ∧
      (spnState s h ∉ [5, 6, 7, 8] → isRetired t (.hda h) = true))) ∧
  (∀ (s : State) (h : Nat) (ofs : List Int), h < 16 → spnState s h = 2 → fget s (spnF SPN_CAL_BUSY h) = 1 →
    (∃ t, exec (.shuntCalibration h true ofs) s = .next t ∧ fget t (spnF SPN_CAL_RESULT h) = 1 ∧
      fget t (spnF SPN_CAL_BUSY h) = 0 ∧ (getSpn t h).ofs = ofs ∧ (getSpn t h).calOk = some s.tb.ns ∧
      fget t (spnF SPN_OFS_UV_U h) = satSigned 16 (ofs.getD 0 0) ∧
      spnState t h = (if (getSpn s h).calWant = true then 3 else 2)) ∧
    ((getSpn s h).calWant = false → ∃ t, exec (.shuntCalibration h false ofs) s = .next t ∧
      fget t (spnF SPN_CAL_RESULT h) = 2 ∧ fget t (spnF SPN_CAL_BUSY h) = 0 ∧ (getSpn t h).ofs = (getSpn s h).ofs ∧
      spnState t h = 2)) ∧
  (∀ (s : State) (h : Nat) (v : Word), h < 16 → bitsGet v 0 1 = 1 →
    ∃ t, exec (.spnCalRequest h v) s = .next t ∧ RegsBut [(spnF SPN_CAL_BUSY h).off] s t ∧ Unchanged [.regs] s t ∧
      (fget s (spnF SPN_CAL_BUSY h) = 0 → spnState s h = 2 → fget t (spnF SPN_CAL_BUSY h) = 1) ∧
      (fget s (spnF SPN_CAL_BUSY h) = 1 ∨ spnState s h ≠ 2 → fget t (spnF SPN_CAL_PEND h) = 1)) ∧
  (∀ (s : State) (h : Nat) (m : Measured), h < 16 → (m.item = 0x102 + 4 * h ∧ spnState s h = 10) ∨
    ((m.item = 0x100 + 4 * h ∨ m.item = 0x101 + 4 * h) ∧ spnState s h = 2) →
    (∃ t, exec (.windingMeasurement h m false) s = .next t ∧
      param t m.item = (nominalItem s m.item, 3, min ((param s m.item).2.2 + 1) 255) ∧ Unchanged [.pwr] s t) ∧
    (Measured.code m = 1 → ∃ t, exec (.windingMeasurement h m true) s = .next t ∧
      param t m.item = (m.value.toNat, 1, min ((param s m.item).2.2 + 1) 255) ∧ t.pwr.retired = s.pwr.retired ∧
      Unchanged [.pwr] s t) ∧
    (Measured.code m ≠ 1 → ∃ t, exec (.windingMeasurement h m true) s = .next t ∧ isRetired t (.hda h) = true))

/-- COMPRESS, DECOMPRESS, RENDER_RESUME and RENDER_FREE join the queue of 64 and change nothing else. The head of the
queue goes to the lowest idle engine in service; one that fails its checks is counted, answered with the status of the
first check it fails, and changes no memory, context or engine. At its end a FREE releases its context; a final
COMPRESS without a context writes the encoder's bytes and ends OK, or writes OUT_LEN bytes and ends OUT_FULL; a
DECOMPRESS writes the plaintext that RFC 1951 or 1950 gives and ends OK. A first verify mismatch retires the engine
and runs the job again elsewhere; a second one ends the job VERIFY_FAIL and keeps an engine whose known-answer test
passes. A failed known-answer test retires its engine. -/
def Obligations.RenderJobs : Prop :=
  (∀ (s : State) (j : RenderJob) (i : Instr) (op : Nat), s.rnd.queue.length < 64 →
    (i, op) ∈ [(Instr.compress j, 1), (.decompress j, 2), (.renderResume j, 3), (.renderFree j, 4)] →
    ∃ t, exec i s = .next t ∧ t.rnd = { s.rnd with queue := s.rnd.queue ++ [{ job := { j with op := op } }] } ∧
      Unchanged [.rnd] s t) ∧
  (∀ (s : State) (it : RndItem) (rest : List RndItem) (e : Nat), s.rnd.queue = it :: rest → rndPick s it.skip = some e →
    (jobCheck s it.job = 0 → ∃ t, exec .renderDispatch s = .next t ∧ t.rnd.queue = rest ∧ rndEngine t e = some it ∧
      (∀ k, k ≠ e → rndEngine t k = rndEngine s k) ∧ t.rnd.ctxs = s.rnd.ctxs ∧ Unchanged [.rnd] s t) ∧
    (jobCheck s it.job ≠ 0 → it.job.flow = none → ∃ t, exec .renderDispatch s = .next t ∧ t.rnd = { s.rnd with queue := rest } ∧
      fget t RND_CNT1_BAD_JOB = min (fget s RND_CNT1_BAD_JOB + 1) 65535 ∧
      .message it.job.reply [BitVec.ofNat 64 (it.job.tag % 65536 + jobCheck s it.job % 256 * 2 ^ 16 + e % 8 * 2 ^ 24), 0, 0, 0] ∈ t.out ∧
      Unchanged (.rnd :: reportParts) s t)) ∧
  (∀ (s : State) (e : Nat) (it : RndItem), rndEngine s e = some it → it.job.op = 4 →
    ∃ t, exec (.renderJobEnd e) s = .next t ∧ rndEngine t e = none ∧ rndCtx t it.job.ctx = none ∧
      (∀ n, n ≠ it.job.ctx → rndCtx t n = rndCtx s n) ∧ Unchanged [.regs, .rnd, .out] s t) ∧
  (∀ (s : State) (e : Nat) (it : RndItem) (out : List Byte), rndEngine s e = some it → it.job.op = 1 → it.job.ctx = 0 →
    it.job.final = true → out = (Config.deflate ((memRead s.trw.sram it.job.inAddr it.job.inLen).map (·.toNat)) []
      it.job.depth it.job.zlib true).map (BitVec.ofNat 8) →
    ∃ t w, exec (.renderJobEnd e) s = .next t ∧ rndEngine t e = none ∧ t.out = .message it.job.reply w :: s.out ∧
      (out.length ≤ it.job.outLen → memRead t.trw.sram it.job.outAddr out.length = out ∧
        (w.getD 0 0).toNat / 2 ^ 16 % 256 = 0 ∧ (w.getD 0 0).toNat / 2 ^ 32 = it.job.inLen % 2 ^ 32 ∧
        (w.getD 1 0).toNat % 2 ^ 32 = out.length % 2 ^ 32 ∧
        (w.getD 1 0).toNat / 2 ^ 32 = (crc32c (memRead s.trw.sram it.job.inAddr it.job.inLen)).toNat) ∧
      (it.job.outLen < out.length → memRead t.trw.sram it.job.outAddr it.job.outLen = out.take it.job.outLen ∧
        (w.getD 0 0).toNat / 2 ^ 16 % 256 = 1) ∧
      (∀ a, a < it.job.outAddr ∨ it.job.outAddr + min out.length it.job.outLen ≤ a → tget 0 t.trw.sram a = tget 0 s.trw.sram a) ∧
      t.rnd.ctxs = s.rnd.ctxs ∧ t.trw.dram = s.trw.dram ∧ Unchanged [.regs, .trw, .rnd, .out, .freeCtr] s t) ∧
  (∀ (s : State) (e : Nat) (it : RndItem) (plain : List Byte), rndEngine s e = some it → it.job.op = 2 → it.job.ctx = 0 →
    inflate it.job.zlib (memRead s.trw.sram it.job.inAddr it.job.inLen) = (.ended, plain) → plain.length ≤ it.job.outLen →
    it.job.expect = 0 ∨ it.job.expect = plain.length →
    ∃ t w, exec (.renderJobEnd e) s = .next t ∧ rndEngine t e = none ∧ t.out = .message it.job.reply w :: s.out ∧
      memRead t.trw.sram it.job.outAddr plain.length = plain ∧ (w.getD 0 0).toNat / 2 ^ 16 % 256 = 0 ∧
      (w.getD 1 0).toNat % 2 ^ 32 = plain.length % 2 ^ 32 ∧ (w.getD 1 0).toNat / 2 ^ 32 = (crc32c plain).toNat ∧
      Unchanged [.regs, .trw, .rnd, .out, .freeCtr] s t) ∧
  (∀ (s : State) (e : Nat) (it : RndItem) (kat : Bool), e < 8 → rndEngine s e = some it → it.job.op = 1 →
    (it.retried = false → ∃ t rest, exec (.verifyMismatch e kat) s = .next t ∧ rndEngine t e = none ∧
      t.rnd.queue = { it with retried := true, skip := some e } :: rest ∧ rest = s.rnd.queue ∧
      fbit t RND_STATUS_IN_SERVICE e = false ∧ fbit t RND_STATUS_RETIRED e = true ∧
      fget t RND_CNT0_MISMATCH = min (fget s RND_CNT0_MISMATCH + 1) 65535) ∧
    (it.retried = true → kat = true → ∃ t w, exec (.verifyMismatch e kat) s = .next t ∧ rndEngine t e = none ∧
      .message it.job.reply w ∈ t.out ∧ (w.getD 0 0).toNat / 2 ^ 16 % 256 = 0x10 ∧ t.rnd.queue = s.rnd.queue ∧
      fbit t RND_STATUS_IN_SERVICE e = fbit s RND_STATUS_IN_SERVICE e)) ∧
  (∀ (s : State) (e : Nat), rndServes s e = true → rndEngine s e = none →
    exec (.renderKatTick e true) s = .next s ∧
    ∃ t, exec (.renderKatTick e false) s = .next t ∧ fbit t RND_STATUS_IN_SERVICE e = false ∧
      fbit t RND_STATUS_RETIRED e = true ∧ isRetired t (.renderEngine e) = true ∧ t.rnd = s.rnd)

/-- GO with a shadow LOADED ends PENDING, with a set that fails R452 INVALID, else starts an idle channel from the set or
loads a busy one's shadow. A transfer between memories that ends DONE has copied its bytes, shows LAST and TAG, and
starts a LOADED set. PAUSE stops a running channel or pauses an idle one, RESUME undoes it, ABORT drains a running
transfer, ends a paused one ABORTED and discards an idle channel's shadow; one without effect ends NO_EFFECT. A drain
writes what was read and leaves the transfer paused or ends it ABORTED. A claim of more than two channels sets
RSV_WRITE; a claim of a free channel, or a release, takes effect, and a refused one sets REFUSED. A retired channel
shows RETIRED; a claimed transfer on it ends CHAN_FAULT, a flow's waits for another channel. -/
def Obligations.HodTransfers : Prop :=
  (∀ (s : State) (c ti cx : Nat), hodServes s c = true → hodClaimed s c = true →
    (fget s (hodF HOD_STAT_LOADED c) = 1 → ∃ t, exec (.hodGo c none ti cx) s = .next t ∧ fget t (hodF HOD_STAT_RESULT c) = 2 ∧
      RegsBut [(hodF HOD_STAT_RESULT c).off] s t ∧ Unchanged [.regs] s t) ∧
    (fget s (hodF HOD_STAT_LOADED c) = 0 → hodCheck s false (hodActOf (hodShadow s c)) = false →
      ∃ t, exec (.hodGo c none ti cx) s = .next t ∧ fget t (hodF HOD_STAT_RESULT c) = 3 ∧
        fget t (hodF HOD_STAT_LOADED c) = 0 ∧ RegsBut [(hodF HOD_STAT_RESULT c).off] s t ∧ Unchanged [.regs] s t) ∧
    (fget s (hodF HOD_STAT_LOADED c) = 0 → hodCheck s false (hodActOf (hodShadow s c)) = true →
      ((getHod s c).running = false → fget s (hodF HOD_STAT_PAUSED c) = 0 →
        ∃ t, exec (.hodGo c none ti cx) s = .next t ∧ fget t (hodF HOD_STAT_RESULT c) = 1 ∧
          fget t (hodF HOD_STAT_STATE c) = 1 ∧ fget t (hodF HOD_STAT_DISCARDED c) = 0 ∧
          getHod t c = { getHod s c with act := hodActOf (hodShadow s c), running := true } ∧
          (∀ k, k ≠ c → getHod t k = getHod s k) ∧ Unchanged [.regs, .hod] s t) ∧
      ((getHod s c).running = true → ∃ t, exec (.hodGo c none ti cx) s = .next t ∧ fget t (hodF HOD_STAT_RESULT c) = 1 ∧
        fget t (hodF HOD_STAT_LOADED c) = 1 ∧ RegsBut [(hodF HOD_STAT_RESULT c).off] s t ∧ Unchanged [.regs] s t))) ∧
  (∀ (s : State) (c ti cx : Nat) (ws : List Word), hodVendorMay s c (ti, cx) = true → (getTile s ti).stores = [] →
    fget s (hodF HOD_STAT_LOADED c) = 0 → (getHod s c).running = false → fget s (hodF HOD_STAT_PAUSED c) = 0 →
    ws.length = 8 → hodCheck s true (hodActOf ws) = true →
    ∃ t, exec (.hodGo c (some ws) ti cx) s = .next t ∧ (getHod t c).running = true ∧ (getHod t c).act = hodActOf ws ∧
      (getHod t c).flow = some (ti, cx) ∧ hodShadow t c = ws ∧ Unchanged [.regs, .hod] s t) ∧
  (∀ (s : State) (c : Nat) (host : List Byte) (a : HodAct), c < 16 → a = (getHod s c).act → (getHod s c).running = true →
    fget s (hodF HOD_STAT_STATE c) = 1 → a.srcSp = 0 → a.dstSp < 2 → s.hod.waiting = [] → hodClaimed s c = false →
    fget s (hodF HOD_STAT_PAUSED c) = 0 →
    ∃ t, exec (.hodTransferEnd c 1 0 host) s = .next t ∧ fget t (hodF HOD_STAT_LAST c) = 1 ∧
      fget t (hodF HOD_STAT_TAG c) = a.tag ∧ t.out = .mediaDone (0x390 + c) a.tag 1 :: s.out ∧
      (a.dstSp = 1 → memRead t.trw.sram a.dst a.rem = memRead s.trw.dram a.src a.rem ∧ t.trw.dram = s.trw.dram ∧
        ∀ x, x < a.dst ∨ a.dst + a.rem ≤ x → tget 0 t.trw.sram x = tget 0 s.trw.sram x) ∧
      (a.dstSp = 0 → memRead t.trw.dram a.dst a.rem = memRead s.trw.dram a.src a.rem ∧ t.trw.sram = s.trw.sram ∧
        ∀ x, x < a.dst ∨ a.dst + a.rem ≤ x → tget 0 t.trw.dram x = tget 0 s.trw.dram x) ∧
      (fget s (hodF HOD_STAT_LOADED c) = 0 → (getHod t c).running = false ∧ fget t (hodF HOD_STAT_STATE c) = 0) ∧
      (fget s (hodF HOD_STAT_LOADED c) = 1 → (getHod t c).running = true ∧ (getHod t c).act = hodActOf (hodShadow s c) ∧
        fget t (hodF HOD_STAT_LOADED c) = 0) ∧ Unchanged [.regs, .trw, .hod, .out] s t) ∧
  (∀ (s : State) (c : Nat) (b : Bool), hodMay s c b = true →
    (fget s (hodF HOD_STAT_PAUSED c) = 0 → fget s (hodF HOD_STAT_STATE c) < 2 →
      ∃ t, exec (.hodPause c b) s = .next t ∧ fget t (hodF HOD_STAT_RESULT c) = 1 ∧
        ((getHod s c).running = true → fget t (hodF HOD_STAT_STATE c) = 2) ∧
        ((getHod s c).running = false → fget t (hodF HOD_STAT_PAUSED c) = 1) ∧ Unchanged [.regs] s t) ∧
    (fget s (hodF HOD_STAT_PAUSED c) = 1 → ∃ t, exec (.hodPause c b) s = .next t ∧ fget t (hodF HOD_STAT_RESULT c) = 4 ∧
      RegsBut [(hodF HOD_STAT_RESULT c).off] s t ∧ Unchanged [.regs] s t) ∧
    (fget s (hodF HOD_STAT_PAUSED c) = 0 → ∃ t, exec (.hodResume c b) s = .next t ∧ fget t (hodF HOD_STAT_RESULT c) = 4 ∧
      Unchanged [.regs] s t) ∧
    (fget s (hodF HOD_STAT_PAUSED c) = 1 → (getHod s c).running = true →
      ∃ t, exec (.hodResume c b) s = .next t ∧ fget t (hodF HOD_STAT_RESULT c) = 1 ∧ fget t (hodF HOD_STAT_PAUSED c) = 0 ∧
        fget t (hodF HOD_STAT_STATE c) = 1 ∧ Unchanged [.regs] s t) ∧
    (fget s (hodF HOD_STAT_PAUSED c) = 1 → (getHod s c).running = false → fget s (hodF HOD_STAT_LOADED c) = 1 →
      ∃ t, exec (.hodResume c b) s = .next t ∧ fget t (hodF HOD_STAT_PAUSED c) = 0 ∧ fget t (hodF HOD_STAT_LOADED c) = 0 ∧
        (getHod t c).running = true ∧ (getHod t c).act = hodActOf (hodShadow s c)) ∧
    ((getHod s c).running = true → fget s (hodF HOD_STAT_PAUSED c) = 0 →
      ∃ t, exec (.hodAbort c b) s = .next t ∧ fget t (hodF HOD_STAT_STATE c) = 3 ∧ fget t (hodF HOD_STAT_RESULT c) = 1 ∧
        Unchanged [.regs] s t) ∧
    ((getHod s c).running = true → fget s (hodF HOD_STAT_PAUSED c) = 1 → fget s (hodF HOD_STAT_STATE c) = 0 →
      s.hod.waiting = [] →
      ∃ t, exec (.hodAbort c b) s = .next t ∧ (getHod t c).running = false ∧ fget t (hodF HOD_STAT_LAST c) = 2 ∧
        fget t (hodF HOD_STAT_STATE c) = 0 ∧ fget t (hodF HOD_STAT_PAUSED c) = 0 ∧ t.trw = s.trw) ∧
    ((getHod s c).running = false → fget s (hodF HOD_STAT_LOADED c) = 1 → s.hod.waiting = [] →
      ∃ t, exec (.hodAbort c b) s = .next t ∧ fget t (hodF HOD_STAT_LOADED c) = 0 ∧
        fget t (hodF HOD_STAT_DISCARDED c) = 1 ∧ fget t (hodF HOD_STAT_PAUSED c) = 0)) ∧
  (∀ (s : State) (c n : Nat) (host : List Byte) (a : HodAct), c < 16 → a = (getHod s c).act → (getHod s c).running = true →
    a.srcSp = 0 → a.dstSp = 1 → n < a.rem →
    (fget s (hodF HOD_STAT_STATE c) = 2 → ∃ t, exec (.hodDrainEnd c n host) s = .next t ∧
      fget t (hodF HOD_STAT_STATE c) = 0 ∧ fget t (hodF HOD_STAT_PAUSED c) = 1 ∧ (getHod t c).running = true ∧
      (getHod t c).act.rem = a.rem - n ∧ (getHod t c).act.src = a.src + n ∧ (getHod t c).act.dst = a.dst + n ∧
      memRead t.trw.sram a.dst n = memRead s.trw.dram a.src n ∧ t.trw.dram = s.trw.dram ∧ Unchanged [.regs, .trw, .hod] s t) ∧
    (fget s (hodF HOD_STAT_STATE c) = 3 → s.hod.waiting = [] → ∃ t, exec (.hodDrainEnd c n host) s = .next t ∧
      fget t (hodF HOD_STAT_LAST c) = 2 ∧ (getHod t c).running = false ∧ fget t (hodF HOD_STAT_STATE c) = 0)) ∧
  (∀ (s : State) (v : Word), bitsGet v 16 6 ≠ 0 → bitsGet v 22 1 = 0 →
    (2 < popCount 16 (bitsGet v 0 16) → ∃ t, exec (.hodClaim v) s = .next t ∧ fget t HOD_STATUS_RSV_WRITE = 1 ∧
      fget t HOD_OWN_CLAIM = fget s HOD_OWN_CLAIM ∧ fget t HOD_OWN_VECTOR = bitsGet v 16 6 ∧ Unchanged [.regs] s t) ∧
    (popCount 16 (bitsGet v 0 16) ≤ 2 → (∀ c < 16, (bitsGet v 0 16).testBit c = true → fbit s HOD_STATUS_RETIRED c = false) →
      ∃ t, exec (.hodClaim v) s = .next t ∧ fget t HOD_OWN_VECTOR = bitsGet v 16 6 ∧
        (∀ c < 16, hodClaimed s c = (bitsGet v 0 16).testBit c → hodClaimed t c = hodClaimed s c) ∧
        (∀ c < 16, (bitsGet v 0 16).testBit c = true → hodServes s c = true → hodFree s c = true →
          fget s (hodF HOD_STAT_PAUSED c) = 0 → (getHod s c).flow = none → hodClaimed t c = true) ∧
        (∀ c < 16, (bitsGet v 0 16).testBit c = false → hodFree s c = true → hodClaimed t c = false) ∧
        (∀ c < 16, (bitsGet v 0 16).testBit c = false → hodClaimed s c = true → hodFree s c = false →
          hodClaimed t c = true ∧ (getHod t c).release = true ∧ fget t HOD_OWN_REFUSED = 1) ∧
        Unchanged [.regs, .hod] s t)) ∧
  (∀ (s : State) (c : Nat), c < 16 → fbit s HOD_STATUS_RETIRED c = false →
    ∃ t, exec (.hodChannelRetire c) s = .next t ∧ fbit t HOD_STATUS_RETIRED c = true ∧ isRetired t (.hodChannel c) = true ∧
      fget t (hodF HOD_STAT_STATE c) = 4 ∧ (getHod t c).running = false ∧ hodClaimed t c = false ∧
      ((getHod s c).running = true → hodClaimed s c = true → fget t (hodF HOD_STAT_LAST c) = 7) ∧
      ((getHod s c).running = true → hodClaimed s c = false → (∀ k < 16, hodFree s k = false) →
        fget s (hodF HOD_STAT_LOADED c) = 0 →
        t.hod.waiting = s.hod.waiting ++ [((getHod s c).act.words, none, (getHod s c).flow)]))

/-- An attempt with all eight lanes gains lock and sends the CAP; one with fewer fails and is counted, and the port trains
again at its retry. A CAP in order brings the link up with the highest common version, showing what it grants; another
ring or no common version leaves it up without mirror. A frame out of order owes a NAK. Heartbeats are sent while the
link is up; one that arrives drops the acknowledged frames, with NAK the rest are sent again, and GRANT never lowers
OZP_OUT. A malformed frame is counted, the sixteenth within 1 ms takes the link down. A link down trains again with
version 0, counted, and shows the partner's last state; a retraining that resumes changes nothing. -/
def Obligations.OzperLinks : Prop :=
  (∀ (s : State) (p lanes : Nat), ozTrains s p = true → ozState s p = 1 ∨ ozState s p = 2 → (ozPort s p).locked = false →
    (∀ r, lanes % 256 = 255 → ringDeclared s = some r → ∃ t pl, exec (.ozperTrain p lanes) s = .next t ∧ ozState t p = 2 ∧
      (ozPort t p).locked = true ∧ fget t (ozLanesF p) = 255 ∧ t.out = .ozFrame p 2 0 4095 pl [] :: s.out ∧
      pl.getD 0 0 = 0x434F4158 ∧ pl.getD 4 0 = r.ringId ∧ Unchanged [.regs, .ozp, .out] s t) ∧
    (lanes % 256 ≠ 255 → ∃ t, exec (.ozperTrain p lanes) s = .next t ∧ ozState t p = 5 ∧
      fget t (ozLanesF p) = lanes % 256 ∧ (ozPort t p).fails = (ozPort s p).fails + 1 ∧
      fget t OZP_CNT0_TRAIN_FAIL = min (fget s OZP_CNT0_TRAIN_FAIL + 1) 255 ∧ Unchanged [.regs, .ozp] s t)) ∧
  (∀ (s : State) (p : Nat), ozTrains s p = true → ozState s p = 5 →
    ∃ t, exec (.ozperTrainRetry p) s = .next t ∧ ozState t p = 2 ∧ RegsBut [(ozStateF p).off] s t ∧ Unchanged [.regs] s t) ∧
  (∀ (s : State) (p : Nat), p < 2 → ozUp s p = true →
    (∃ t pl, exec (.heartbeatSend p) s = .next t ∧
      t.out = .ozFrame p 1 (((ozPort s p).nextSeq + 4095) % 4096) (ozPort s p).rxSeq pl [] :: s.out ∧
      (ozPort t p).unacked = (ozPort s p).unacked ∧ (ozPort t p).nak = false ∧ Unchanged [.ozp, .out] s t) ∧
    (exec (.ozperRetrain p true) s = .next s) ∧
    (∀ i ∈ [Instr.ozperLinkDown p, .ozperRetrain p false], ∃ t, exec i s = .next t ∧ fget t (ozVerF p) = 0 ∧
      ozState t p = (if fget s OZP_STATUS_BYP_HOLD = 1 then 2 else 1) ∧ (ozPort t p).lost = true ∧
      (ozPort t p).unacked = [] ∧ fget t (ozLastF p) = (ozPort s p).peerState % 16 ∧
      fget t OZP_CNT0_LINK_DOWN = min (fget s OZP_CNT0_LINK_DOWN + 1) 255 ∧ Unchanged [.regs, .ozp] s t) ∧
    (∀ (ack gst grant : Nat) (leave : Bool), (ozPort s p).waiting = [] → grant < 2 ^ 22 → leave = false ∨ fget s (ozVerF p) = 1 →
      (∃ t, exec (.heartbeat p ack gst grant false leave) s = .next t ∧
        ozPort t p = { ozPort s p with
          lastNs := s.tb.ns
          peerState := gst
          unacked := dropAcked (ozPort s p).unacked ack } ∧
        (p = 0 → fget t OZP_OUT_SLOTS = max (fget s OZP_OUT_SLOTS) grant) ∧ Unchanged [.regs, .ozp] s t) ∧
      (∃ t, exec (.heartbeat p ack gst grant true leave) s = .next t ∧
        t.out = ((dropAcked (ozPort s p).unacked ack).map fun u => u.2.2).reverse ++ s.out ∧
        fget t OZP_CNT0_REPLAY = min (fget s OZP_CNT0_REPLAY + 1) 255 ∧ Unchanged [.regs, .ozp, .out] s t)) ∧
    (∀ (ack gst grant : Nat) (nak : Bool), fget s (ozVerF p) = 2 → (ozPort s p).waiting = [] →
      ∃ t, exec (.heartbeat p ack gst grant nak true) s = .next t ∧ ozState t p ∈ [1, 2] ∧ (ozPort t p).lost = true)) ∧
  (∀ (s : State) (p : Nat) (h : OzHdr) (c : CapFrame) (r : RingSec), p < 2 →
    ozUp s p = true ∨ (ozPort s p).locked = true → ringDeclared s = some r → (ozPort s p).waiting = [] →
    (h.lseq ≠ ((ozPort s p).rxSeq + 1) % 4096 → ∃ t, exec (.cap p h c) s = .next t ∧ (ozPort t p).nak = true ∧
      (ozPort t p).rxSeq = (ozPort s p).rxSeq ∧ Unchanged [.ozp] s t) ∧
    (h.lseq = ((ozPort s p).rxSeq + 1) % 4096 → ∃ t, exec (.cap p h c) s = .next t ∧ (ozPort t p).rxSeq = h.lseq ∧
      (ozPort t p).peer = some c ∧
      (c.versions.testBit 1 = true → r.versions.testBit 1 = true → c.ringId = r.ringId → c.uid ≠ Config.otpUid.toNat →
        ozState t p = 3 ∧
        fget t (ozVerF p) = (if c.versions.testBit 2 = true ∧ r.versions.testBit 2 = true then 2 else 1) ∧
        (p = 0 → fget t OZP_OUT_SLOTS = c.grant % 2 ^ 22) ∧
        (p = 1 → fget t OZP_IN_SLOTS = min c.dirty (grantable s) % 2 ^ 22)) ∧
      (c.versions.testBit 1 = true → r.versions.testBit 1 = true → c.ringId ≠ r.ringId →
        ozState t p = 4 ∧ fget t (ozVerF p) = 0 ∧ fget t (ozWhyF p) = 1) ∧
      (c.versions.testBit 1 = false → c.versions.testBit 2 = false →
        ozState t p = 4 ∧ fget t (ozVerF p) = 0 ∧ fget t (ozWhyF p) = 0))) ∧
  (∀ (s : State) (p : Nat) (r : RingSec), p < 2 → (ozPort s p).locked = true → ozUp s p = false → ringDeclared s = some r →
    (ozPort s p).waiting = [] → ozRoom (ozPort s p) 76 = true →
    ∃ t pl, exec (.capResend p) s = .next t ∧ t.out = .ozFrame p 2 (ozPort s p).nextSeq (ozPort s p).rxSeq pl [] :: s.out ∧
      (ozPort t p).nextSeq = ((ozPort s p).nextSeq + 1) % 4096 ∧ Unchanged [.ozp, .out] s t) ∧
  (∀ (s : State) (p : Nat), p < 2 → ozUp s p = true →
    (∃ t, exec (.badFrame p false) s = .next t ∧ ozPort t p = { ozPort s p with nak := true } ∧ Unchanged [.ozp] s t) ∧
    ((ozPort s p).bad.length < 15 → ∃ t, exec (.badFrame p true) s = .next t ∧ ozState t p = ozState s p ∧
      fget t OZP_CNT0_BAD_FRAME = min (fget s OZP_CNT0_BAD_FRAME + 1) 255 ∧ Unchanged [.regs, .ozp] s t) ∧
    (15 ≤ ((ozPort s p).bad.filter fun x => decide (s.tb.ns < x + 1000000)).length →
      ∃ t, exec (.badFrame p true) s = .next t ∧ ozState t p ∈ [1, 2] ∧ fget t (ozVerF p) = 0))

/-- MIRROR_ENTER begins a new epoch in mode mirrored. A MACK ends the wait of its copy and the write whose last copy it
was. A MIRROR frame stores each block whose tag is newer in the mirror-in slot and is answered by a MACK; a RELEASE
frees the named slots. A PURGE under v2 releases older mirror-in copies and the sender's older orphan sets. Losing the
east link enters single-device mode with waiting slots copied locally; REWRITE_END completes it for the acknowledged
ones. Losing the west link makes every mirror-in copy one orphan set, a fifth releasing the oldest. An expired set is
released; ORPHAN_RELEASE releases all; ORPHAN_READ writes the orphan image's bytes to the buffer, or ends 0x010A on a
bad range. -/
def Obligations.OzperMirroring : Prop :=
  (∀ s : State, ozState s 0 = 3 → fget s OZP_STATUS_MODE = 3 → fget s (ozVerF 0) = 1 →
    ∃ t, exec .mirrorEnter s = .next t ∧ fget t OZP_STATUS_MODE = 1 ∧
      fget t OZP_EPOCH_EPOCH = (fget s OZP_EPOCH_EPOCH + 1) % 2 ^ 32 ∧ t.ozp = { s.ozp with mid := 0, awaits := [] }) ∧
  (∀ (s : State) (h : OzHdr) (base i seq : Nat) (c : Cmd), ozState s 0 = 3 → fget s OZP_STATUS_MODE = 1 →
    h.lseq = ((ozPort s 0).rxSeq + 1) % 4096 → (ozPort s 0).waiting = [] →
    s.ozp.awaits.find? (fun e => e.1 == base) = some (base, i) → s.cmds = [(seq, c)] → c.mids = [base] →
    c.applied = true → c.done = none →
    ∃ t, exec (.mack h base 1) s = .next t ∧ (∀ e ∈ t.ozp.awaits, e.1 ≠ base) ∧
      (getSlot t i).mids = (getSlot s i).mids.filter (fun m => m != base) ∧
      ((getSlot t i).acked = true ↔ ∀ m ∈ (getSlot s i).mids, m = base) ∧
      (∀ k, k ≠ i → getSlot t k = getSlot s k) ∧
      getCmd t seq = some { c with mids := [], done := some 0, result := seq % 2 ^ 32 } ∧ Unchanged [.udc, .ozp, .cmds] s t) ∧
  (∀ (s : State) (h : OzHdr) (m : MirrorMsg) (b : Nat) (old : MirrorCopy), ozState s 1 = 3 →
    h.lseq = ((ozPort s 1).rxSeq + 1) % 4096 → (ozPort s 1).waiting = [] → (ozPort s 1).unacked = [] → b < 4 →
    m.sent = 2 ^ b → old = tget {} s.ozp.inMap m.slot → old.blocks.length = 4 → old.tags.length = 4 →
    ∃ t x, exec (.mirror h m) s = .next t ∧ x = tget {} t.ozp.inMap m.slot ∧ x.epoch = m.epoch ∧ x.mask = m.mask ∧
      (old.tags.getD b 0 < m.tags.getD b 0 → x.blocks.getD b 0 = m.blocks.getD 0 0 ∧ x.tags.getD b 0 = m.tags.getD b 0) ∧
      (m.tags.getD b 0 ≤ old.tags.getD b 0 → x.blocks = old.blocks ∧ x.tags = old.tags) ∧
      (∀ k, k ≠ m.slot → tget {} t.ozp.inMap k = tget {} s.ozp.inMap k) ∧
      t.out = .ozFrame 1 4 (ozPort s 1).nextSeq h.lseq [m.mid, 1] [] :: s.out ∧ Unchanged [.regs, .ozp, .out] s t) ∧
  (∀ (s : State) (h : OzHdr) (slots : List Nat), ozState s 1 = 3 → h.lseq = ((ozPort s 1).rxSeq + 1) % 4096 →
    (ozPort s 1).waiting = [] →
    ∃ t, exec (.release h slots) s = .next t ∧ t.ozp.inMap = s.ozp.inMap.filter (fun e => !(slots.contains e.1)) ∧
      fget t OZP_IN_USED_SLOTS = t.ozp.inMap.length % 2 ^ 22 ∧ t.ozp.orphans = s.ozp.orphans ∧ Unchanged [.regs, .ozp] s t) ∧
  (∀ (s : State) (h : OzHdr) (uid boot below : Nat), ozState s 1 = 3 → h.lseq = ((ozPort s 1).rxSeq + 1) % 4096 →
    (ozPort s 1).waiting = [] →
    (fget s (ozVerF 1) = 2 → ∃ t, exec (.purge h uid boot below) s = .next t ∧
      t.ozp.inMap = s.ozp.inMap.filter (fun e => decide (below ≤ e.2.epoch)) ∧
      t.ozp.orphans = s.ozp.orphans.filter (fun o => !(o.uid == uid && o.boot == boot && decide (o.epoch < below))) ∧
      fget t OZP_STATUS_SETS = t.ozp.orphans.length % 8 ∧ Unchanged (.ozp :: reportParts) s t) ∧
    (fget s (ozVerF 1) = 1 → (ozPort s 1).bad.length < 15 → ∃ t, exec (.purge h uid boot below) s = .next t ∧
      t.ozp.inMap = s.ozp.inMap ∧ t.ozp.orphans = s.ozp.orphans ∧
      fget t OZP_CNT0_BAD_FRAME = min (fget s OZP_CNT0_BAD_FRAME + 1) 255)) ∧
  (∀ s : State, fget s OZP_STATUS_MODE = 1 → ozState s 0 ≠ 3 →
    ∃ t, exec .eastLinkLoss s = .next t ∧ fget t OZP_STATUS_MODE = 2 ∧ t.ozp.awaits = [] ∧ (ozPort t 0).lost = false ∧
      (∀ i, (getSlot s i).mids ≠ [] → getSlot t i = { getSlot s i with mids := [], local2 := true, acked := false }) ∧
      (∀ i, (getSlot s i).mids = [] → getSlot t i = getSlot s i) ∧ t.nv = s.nv) ∧
  (∀ s : State, fget s OZP_STATUS_MODE = 2 →
    ∃ t, exec .rewriteEnd s = .next t ∧ fget t OZP_STATUS_MODE = 3 ∧
      (∀ i, (getSlot s i).acked = true → getSlot t i = { getSlot s i with acked := false, local2 := true }) ∧
      (∀ i, (getSlot s i).acked = false → getSlot t i = getSlot s i) ∧
      RegsBut [OZP_STATUS_MODE.off] s t ∧ Unchanged [.regs, .udc] s t) ∧
  (∀ s : State, (ozPort s 1).lost = true →
    ∃ t o, exec .westLinkLoss s = .next t ∧ t.ozp.inMap = [] ∧ o.records = s.ozp.inMap ∧ o.formed = s.tb.ns ∧
      t.ozp.orphans = (if 4 ≤ s.ozp.orphans.length then s.ozp.orphans.drop 1 else s.ozp.orphans) ++ [o] ∧
      fget t OZP_STATUS_SETS = t.ozp.orphans.length % 8 ∧ fget t OZP_IN_USED_SLOTS = 0 ∧ (ozPort t 1).lost = false ∧
      Unchanged (.ozp :: reportParts) s t) ∧
  (∀ (s : State) (o : OrphanSet) (rest : List OrphanSet), s.ozp.orphans = o :: rest →
    (o.formed + o.hold * 1000000000 ≤ s.tb.ns → ∃ t, exec .orphanHoldExpiry s = .next t ∧ t.ozp = { s.ozp with orphans := rest } ∧
      fget t OZP_STATUS_SETS = rest.length % 8 ∧ Unchanged (.ozp :: reportParts) s t) ∧
    (s.tb.ns < o.formed + o.hold * 1000000000 → exec .orphanHoldExpiry s = .next s)) ∧
  (∀ (s : State) (n : Nat) (c : Cmd), adminCmd s n 0x59 = some c →
    ∃ t, exec (.orphanRelease n) s = .next t ∧ t.ozp = { s.ozp with orphans := [] } ∧ fget t OZP_STATUS_SETS = 0 ∧
      getCmd t n = some { c with done := some 0, result := n % 2 ^ 32 } ∧ Unchanged (.ozp :: .cmds :: reportParts) s t) ∧
  (∀ (s : State) (n off : Nat) (c : Cmd) (bs : List Byte), adminCmd s n 0x58 = some c →
    off = c.sqe.cdw0 % 2 ^ 32 + c.sqe.cdw1 * 2 ^ 32 → bs = ((orphanImage s).drop off).take c.sqe.buf0Len →
    (c.sqe.buf0Len ≠ 0 → c.sqe.buf0Len % 4 = 0 → c.sqe.buf0Len ≤ 1048576 → off % 4 = 0 →
      ∃ t, exec (.orphanRead n) s = .next t ∧ t.out = (hostPut s c.fid c.sqe.buf0 bs).out ∧
        getCmd t n = some { c with done := some 0, result := bs.length } ∧ Unchanged [.out, .cmds] s t) ∧
    (c.sqe.buf0Len = 0 ∨ c.sqe.buf0Len % 4 ≠ 0 ∨ 1048576 < c.sqe.buf0Len ∨ off % 4 ≠ 0 →
      ∃ t, exec (.orphanRead n) s = .next t ∧ getCmd t n = some { c with done := some 0x010A, result := n % 2 ^ 32 } ∧
        Unchanged [.cmds] s t))

/-- A trigger in SERVING or DEGRADED enters BALLAST: media are fenced, spindles from SIX_STEP to BRAKE enter REGEN, every
queue is frozen, the dump of the dirty slots begins; in OFF and BALLAST nothing happens, in the states before service
it is recorded. A shorter dip is counted. The energy tick shows the dirty-limit term and SHORT while it is exceeded.
Regulation holds every REGEN spindle within its braking limit. A dump's header names its cause and slots; each write
stores the next slots; its trailer records what is missing, sets FLUSH_DONE and ends in SAFE, or lets the warm reset
go on. VM_BACK, core brown-outs and a low bank are shown, a brown-out of 1 ms triggers Ballast. -/
def Obligations.BallastStops : Prop :=
  (∀ s : State, s.phase = .off ∨ s.phase = .ballast → exec .ballastTrigger s = .next s ∧ exec .vmDip s = .next s) ∧
  (∀ s : State, s.phase ∈ [Phase.loading, .selftest, .discovery, .beacon] →
    ∃ t, exec .ballastTrigger s = .next t ∧ Unchanged reportParts s t) ∧
  (∀ s : State, s.phase = .serving ∨ s.phase = .degraded →
    ∃ t, exec .ballastTrigger s = .next t ∧ t.phase = .ballast ∧ fget t BLS_STATUS_ACTIVE = 1 ∧
      fget t BLS_STATUS_CAUSE = 1 ∧ fget t BLS_STATUS_FLUSH_DONE = 0 ∧ fget t FLC_STATUS_FENCED = 1 ∧
      fget t RDC_STATUS_FENCED = 1 ∧ (∀ h < 16, 5 ≤ spnState s h → spnState s h ≤ 8 → spnState t h = 11) ∧
      (∀ e ∈ t.qps, e.2.mode = 2 → e.2.frozen = true) ∧ t.bls.mode = 1 ∧ t.bls.cause = 1 ∧ t.bls.header = false ∧
      t.bls.todo = dumpSlots t ∧ t.rst.warm = none) ∧
  (∀ s : State, s.phase ≠ .off → s.phase ≠ .ballast → ∃ t, exec .vmDip s = .next t ∧
    fget t BLS_RATE_DIPS = min (fget s BLS_RATE_DIPS + 1) 255 ∧ RegsBut [BLS_RATE_DIPS.off] s t ∧ Unchanged [.regs] s t) ∧
  (∀ (s : State) (vh v : Rat) (img : Image) (term : Nat), s.loader.img = some img →
    s.phase ∉ [Phase.off, .loading, .beacon] → v = (if img.energy.cVhold = 0 then 0 else vh * img.energy.vhGain) →
    term = (ballastTerm img.energy (dumpChans s) (presentActuators s) (dumpUnits s)
      (countedEnergy img.energy (countedSpindles s) v)).1 →
    ∃ t, exec (.energyRecompute vh) s = .next t ∧ fget t BLS_LIMIT_SLOTS = min term (2 ^ 22 - 1) ∧
      fget t BLS_VHOLD_V = min 65535 (v * 100).floor.toNat ∧
      fget t BLS_STATUS_SHORT = b2n (decide (term < (dumpSlots s).length)) ∧
      Unchanged (.pwr :: .freeCtr :: reportParts) s t) ∧
  (∀ (s : State) (vm err : Rat), s.bls.mode = 1 → s.bls.regen = true → fget s BLS_STATUS_ACTIVE = 1 →
    err = vm - (((image s).energy.vmHold : Nat) : Rat) / 1000 →
    ∃ t, exec (.regenRegulate vm) s = .next t ∧ t.bls.integ = s.bls.integ + err / 100000 ∧
      (∀ h < 16, spnState s h = 11 → (getSpn t h).regenIq = max (regenLaw err t.bls.integ) (-(spinRec s h).iBrake)) ∧
      (∀ h, spnState s h ≠ 11 → getSpn t h = getSpn s h) ∧ RegsBut [BLS_STATUS_VHOLD_ON.off] s t ∧
      Unchanged [.regs, .spn, .bls] s t) ∧
  (∀ (s : State) (vm : Rat), s.bls.mode ≠ 1 → exec (.regenRegulate vm) s = .next s) ∧
  (∀ (s : State) (n miss : Nat) (ok : Bool), s.bls.mode ≠ 0 → s.bls.noDump = false → chansServing s ≠ [] →
    (∀ lost, s.bls.header = false → ∃ t d, exec (.dumpWrite n ok lost miss) s = .next t ∧ t.bls.header = true ∧
      t.bls.todo = s.bls.todo ∧ t.nv.dump = some d ∧ d.cause = s.bls.cause ∧ d.count = s.bls.todo.length ∧
      d.metaOk = ok ∧ d.slots = [] ∧ d.trailer = none ∧ d.boot = s.tb.boot % 2 ^ 32) ∧
    (∀ d, s.bls.header = true → s.nv.dump = some d → ∃ t e, exec (.dumpWrite n ok [] miss) s = .next t ∧
      t.nv.dump = some e ∧ (∀ i ∈ s.bls.todo.take n, tget {} e.slots i = getSlot s i) ∧
      (∀ i, i ∉ s.bls.todo.take n → tget {} e.slots i = tget {} d.slots i) ∧ e.count = d.count ∧
      t.bls.todo = s.bls.todo.drop n ∧ t.bls.missing = s.bls.missing + miss ∧ Unchanged [.regs, .nv, .bls] s t)) ∧
  (∀ s : State, s.bls.mode = 0 ∨ headsOut s = true → exec .dumpTrailer s = .next s) ∧
  (∀ (s : State) (d : Dump), s.bls.mode ≠ 0 → headsOut s = false → s.bls.noDump = false → chansServing s ≠ [] →
    s.nv.dump = some d → s.bls.header = true → s.bls.todo = [] →
    ∃ t e, exec .dumpTrailer s = .next t ∧ t.nv.dump = some e ∧ e.slots = d.slots ∧
      e.trailer = some (s.bls.missing, (s.tb.ns - s.bls.fromNs) / 1000) ∧ fget t BLS_STATUS_FLUSH_DONE = 1 ∧
      fget t BLS_STATUS_ACTIVE = 0 ∧ fget t BLS_STATUS_VHOLD_ON = 0 ∧ t.bls.mode = 0 ∧
      (s.bls.mode = 2 → t.rst.flushDone = true) ∧
      (s.bls.mode = 1 → s.phase = .ballast → s.rst.warmLatched = none → t.phase = .safe) ∧
      (∀ c, s.bls.mode = 1 → s.phase = .ballast → s.rst.warmLatched = some c → t.rst.warm = some c)) ∧
  (∀ s : State, s.phase = .ballast → fget s BLS_STATUS_VM_BACK = 0 →
    ∃ t, exec .vmBack s = .next t ∧ fget t BLS_STATUS_VM_BACK = 1 ∧ Unchanged reportParts s t) ∧
  (∀ (s : State) (ok : Bool), s.phase ≠ .off → fget s BLS_STATUS_BROWNOUT = 0 →
    ∃ t, exec (.coreBrownout ok) s = .next t ∧ fget t BLS_STATUS_BROWNOUT = 1 ∧ t.bls.brownNs.isSome = true ∧ t.nv = s.nv) ∧
  (∀ (s : State) (ok : Bool) (b : Nat), fget s BLS_STATUS_BROWNOUT = 1 → s.bls.brownNs = some b →
    (∃ t, exec (.brownoutTimeout true ok) s = .next t ∧ fget t BLS_STATUS_BROWNOUT = 0 ∧ t.bls.brownNs = none) ∧
    (b + 1000000 ≤ s.tb.ns → s.phase = .serving ∨ s.phase = .degraded →
      ∃ t, exec (.brownoutTimeout false ok) s = .next t ∧ t.phase = .ballast ∧ fget t BLS_STATUS_CAUSE = 2 ∧
        t.bls.mode = 1 ∧ (∀ h < 16, spnState t h = spnState s h)) ∧
    (s.tb.ns < b + 1000000 → exec (.brownoutTimeout false ok) s = .next s)) ∧
  (∀ s : State, s.phase ≠ .off → s.phase ≠ .ballast → (image s).energy.cVhold ≠ 0 →
    (∃ t, exec (.bankLow false) s = .next t ∧ fget t BLS_VHOLD_LOW = 0 ∧ RegsBut [BLS_VHOLD_LOW.off] s t ∧ Unchanged [.regs] s t) ∧
    (fget s BLS_VHOLD_LOW = 0 → ∃ t, exec (.bankLow true) s = .next t ∧ fget t BLS_VHOLD_LOW = 1 ∧ Unchanged reportParts s t))

/-- Outside OFF, a report that is not forced and does not merge takes the slot R488 gives and writes there its source, its
data word, the RSEQ that KPR_HIST_NEXT showed, its own class, or the class one level up where it is escalated; the
next RSEQ rises by 1 modulo 65,536. A contained or fatal record of a source with a region fences that region outside
SAFE and BEACON. Nothing outside Keeper, Daymark, the timebase, the functions' messages and the device state changes,
and no register outside KPR_ and DMK_ changes. A corrected report that merges enters no record: REPEAT of its source's
latest record counts it, up to 255. A report of a source whose owner has nothing else to do, with no force bit being
taken, is Keeper's report of the source's own class and data word. KPR_FORCE with the key and a defined source sets
that source's force bit and nothing else; any other write sets RSV_WRITE and nothing else. Outside OFF a source that
takes its force bit clears it and enters a record with FORCED set and a data word of 0, where the report does not
merge. -/
def Obligations.ReportsEnterRecords : Prop :=
  ((∀ (s : State) (r : Report), s.phase ≠ .off → s.kpr.forcing ≠ some r.src → (r.cls = .corrected → mergeSlot s r.src = none) →
    fget (report s r) (recSource (newSlot s)) = r.src % 4096 ∧
    fget (report s r) (recClass (newSlot s)) = (classOf s r).code ∧
    fget (report s r) (recF (newSlot s) 4 0 32) = r.data % 2 ^ 32 ∧
    fget (report s r) (recRseq (newSlot s)) = fget s KPR_HIST_NEXT_RSEQ ∧
    fget (report s r) KPR_HIST_NEXT_RSEQ = (fget s KPR_HIST_NEXT_RSEQ + 1) % 65536 ∧
    (classOf s r ≠ .corrected → s.phase ≠ .safe → s.phase ≠ .beacon → r.region.getD (sourceRegion r.src) ≠ .none →
      (fget s KPR_HIST_NEXT_RSEQ, r.region.getD (sourceRegion r.src)) ∈ (report s r).kpr.fences) ∧
    (∀ k, k < 0x1400000 ∨ 0x1500050 ≤ k → rget (report s r) k = rget s k) ∧ Unchanged reportParts s (report s r)) ∧
  (∀ (s : State) (r : Report) (i : Nat), s.phase ≠ .off → s.kpr.forcing ≠ some r.src → r.forced = false → r.cls = .corrected →
    mergeSlot s r.src = some i →
    fget (report s r) (recRepeat i) = min (fget s (recRepeat i) + 1) 255 ∧
    fget (report s r) KPR_HIST_NEXT_RSEQ = fget s KPR_HIST_NEXT_RSEQ ∧ Unchanged [.regs, .kpr] s (report s r))) ∧
  ((∀ (s : State) (src data : Nat) (el : List Nat) (c : Cls), s.phase ≠ .off → ReportsOnly s src → sourceClass src = some c →
    s.kpr.forcing ≠ some src →
    ∃ t, exec (.faultReport src data el) s = .next t ∧ t = report s { src := src, cls := c, data := data }) ∧
  (∀ (s : State) (v : Word), bitsGet v 16 16 = 0xC0DE → (sourceClass (bitsGet v 0 12)).isSome = true →
    ∃ t, exec (.kprForce v) s = .next t ∧ tget false t.kpr.force (bitsGet v 0 12) = true ∧
      (∀ x, x ≠ bitsGet v 0 12 → tget false t.kpr.force x = tget false s.kpr.force x) ∧ t.kpr.order = s.kpr.order ∧
      t.kpr.groups = s.kpr.groups ∧ Unchanged [.kpr] s t) ∧
  (∀ (s : State) (v : Word), bitsGet v 16 16 ≠ 0xC0DE ∨ sourceClass (bitsGet v 0 12) = none →
    ∃ t, exec (.kprForce v) s = .next t ∧ fget t KPR_STATUS_RSV_WRITE = 1 ∧ RegsBut [KPR_STATUS_RSV_WRITE.off] s t ∧
      Unchanged [.regs] s t) ∧
  (∀ (s : State) (src : Nat) (el : List Nat) (c : Cls), s.phase ≠ .off → ReportsOnly s src → sourceClass src = some c →
    tget false s.kpr.force src = true → (c = .corrected → mergeSlot s src = none) →
    ∃ t, exec (.forceTaken src el) s = .next t ∧ tget false t.kpr.force src = false ∧ t.kpr.forcing = none ∧
      fget t (recSource (newSlot s)) = src ∧ fget t (recF (newSlot s) 3 16 1) = 1 ∧
      fget t (recF (newSlot s) 4 0 32) = 0 ∧ Unchanged reportParts s t))

/-- COVER_DONE marks its record, and lifts the record's fences where the unit stays in service. The expiry of a corrected
record, or of a contained one after COVER_DONE with a CONT_WIN, closes it; a contained record without COVER_DONE stays
as it is. KPR_ACK closes the open record it names, or every open record. A closed record is in no group entry. The end
of the FOGHORN_N pulse leaves the line to HOLD and the lock. A write of KPR_IRQ_EN stores its six bits; where it
enables a cause whose bit is set, vector 0 of the control PF is sent (MSI-X enabled, unmasked, requests allowed, no
teardown), else nothing but the register changes. A tally tick starts a tally with no mismatch and counts the one
before. A snapshot of an instance whose parts do not add up waits for its second snapshot; a second snapshot in
balance drops it. A persisting mismatch of a quantity whose action is not on stored state sets its PERSIST bit. A
skipped quantity sets its SKIPPED bit. -/
def Obligations.RecordsSignalsTally : Prop :=
  ((∀ (s : State) (rseq i : Nat) (kept : Bool), findRec s rseq = some i →
    ∃ t, exec (.coverDone rseq kept) s = .next t ∧ fget t (recCover i) = 1 ∧
      t.kpr.fences = (if kept then s.kpr.fences.filter (·.1 != rseq) else s.kpr.fences) ∧
      RegsBut [(recCover i).off] s t ∧ Unchanged [.regs, .kpr] s t) ∧
  (∀ (s : State) (rseq i : Nat), findRec s rseq = some i →
    fget s (recClass i) = 1 ∨ (fget s (recClass i) = 2 ∧ fget s (recCover i) = 1 ∧ fget s KPR_CTL_CONT_WIN ≠ 0) →
    ∃ t, exec (.recordCloseExpiry rseq) s = .next t ∧ fget t (recAcked i) = 1 ∧
      (∀ e ∈ t.kpr.groups, e.2.corr ≠ some rseq ∧ e.2.cont ≠ some rseq) ∧
      RegsBut [(recAcked i).off, (recF i 6 0 32).off] s t ∧ Unchanged [.regs, .kpr] s t) ∧
  (∀ (s : State) (rseq i : Nat), findRec s rseq = some i → fget s (recClass i) = 2 → fget s (recCover i) = 0 →
    exec (.recordCloseExpiry rseq) s = .next s) ∧
  (∀ (s : State) (v : Word) (i : Nat), bitsGet v 16 1 = 0 → (openRseqs s).contains (bitsGet v 0 16) = true →
    findRec s (bitsGet v 0 16) = some i →
    ∃ t, exec (.kprAck v) s = .next t ∧ fget t (recAcked i) = 1 ∧
      (∀ e ∈ t.kpr.groups, e.2.corr ≠ some (bitsGet v 0 16) ∧ e.2.cont ≠ some (bitsGet v 0 16)) ∧
      RegsBut [(recAcked i).off, (recF i 6 0 32).off] s t ∧ Unchanged [.regs, .kpr] s t) ∧
  (∀ (s : State) (v : Word), bitsGet v 16 1 = 1 →
    ∃ t, exec (.kprAck v) s = .next t ∧ t.kpr.groups = [] ∧
      (∀ rseq i, rseq ∈ openRseqs s → findRec s rseq = some i → fget t (recAcked i) = 1) ∧ Unchanged [.regs, .kpr] s t) ∧
  (∀ s : State, ∃ t, exec .foghornPulseEnd s = .next t ∧ t.kpr.pulse = false ∧
    foghornLow t = (s.kpr.locked || s.phase == .safe || s.phase == .beacon || fget s KPR_FOGHORN_HOLD == 1) ∧
    t.kpr.order = s.kpr.order ∧ t.kpr.fences = s.kpr.fences ∧ Unchanged [.kpr] s t)) ∧
  ((∀ (s : State) (v : Word), (∀ k < 6, (bitsGet v 0 6).testBit k = true → fbit s KPR_IRQ_EN_EN k = false →
      fbit s KPR_IRQ_STAT_CAUSE k = false) →
    ∃ t, exec (.irqEnableWrite v) s = .next t ∧ fget t KPR_IRQ_EN_EN = bitsGet v 0 6 ∧ RegsBut [KPR_IRQ_EN_EN.off] s t ∧
      Unchanged [.regs] s t) ∧
  (∀ (s : State) (v : Word) (k : Nat), k < 6 → (bitsGet v 0 6).testBit k = true → fbit s KPR_IRQ_EN_EN k = false →
    fbit s KPR_IRQ_STAT_CAUSE k = true → (getFn s (ctlFid s)).msixEn = true → (getFn s (ctlFid s)).teardown = 0 →
    (getFn s (ctlFid s)).msixMask = false → (tget {} (getFn s (ctlFid s)).vectors 0).masked = false →
    (getFn s (ctlFid s)).live = true →
    ∃ t, exec (.irqEnableWrite v) s = .next t ∧ fget t KPR_IRQ_EN_EN = bitsGet v 0 6 ∧
      t.out = .msix (ctlFid s) 0 :: s.out ∧ Unchanged [.regs, .out] s t) ∧
  (∀ s : State, tallies s = true →
    ∃ t, exec .tallyTick s = .next t ∧ t.kpr.tallyRunning = true ∧ t.kpr.mismatch = [] ∧
      fget t KPR_TALLY_ROUNDS = (if s.kpr.tallyRunning then min (fget s KPR_TALLY_ROUNDS + 1) (2 ^ KPR_TALLY_ROUNDS.w - 1)
        else fget s KPR_TALLY_ROUNDS) ∧ RegsBut [KPR_TALLY_ROUNDS.off] s t ∧ Unchanged [.regs, .kpr] s t) ∧
  (∀ (s : State) (q inst : Nat) (parts : List Nat) (pool : Nat), s.kpr.tallyRunning = true → q < 8 → parts.sum ≠ pool →
    ∃ t, exec (.tallySnapshot q inst parts pool) s = .next t ∧ t.kpr.mismatch = s.kpr.mismatch ++ [(q, inst)] ∧
      t.kpr.order = s.kpr.order ∧ Unchanged [.kpr] s t) ∧
  (∀ (s : State) (q : Nat), s.kpr.tallyRunning = true → q < 8 →
    ∃ t, exec (.tallySkip q) s = .next t ∧ fbit t KPR_TALLY_SKIPPED q = true ∧ RegsBut [KPR_TALLY_SKIPPED.off] s t ∧
      Unchanged [.regs] s t) ∧
  (∀ (s : State) (q inst : Nat) (parts : List Nat) (pool : Nat), (q, inst) ∈ s.kpr.mismatch → parts.sum = pool →
    ∃ t, exec (.tallyRecheck q inst parts pool) s = .next t ∧ (q, inst) ∉ t.kpr.mismatch ∧ Unchanged [.kpr] s t) ∧
  (∀ (s : State) (q inst : Nat) (parts : List Nat) (pool : Nat), (q, inst) ∈ s.kpr.mismatch → parts.sum ≠ pool →
    q ∈ [0, 6, 7] →
    ∃ t, exec (.tallyRecheck q inst parts pool) s = .next t ∧ fbit t KPR_TALLY_PERSIST q = true ∧
      (q, inst) ∉ t.kpr.mismatch ∧ Unchanged reportParts s t))

/-- In a working state without a warm stop, an uncorrectable Keeper state word enters SAFE with KPR_SAFE showing VALID,
DIRECT and source 0x000 and enters no record; in BALLAST it is latched. There, a crossing of the high limit of rail 0
or of any limit of rails 1 and 2 enters SAFE with the rail's source. SAFE_ENTRY after the decision, with no command in
flight and no medium at work, sets QUEUES_DONE and HEADS_DONE and passes step 2. SAFE_FLUSH_DONE at step 8 turns write
protect on at every flash channel and passes to step 9. -/
def Obligations.SafeEntry : Prop :=
  (∀ s : State, decidesSafe s →
    ∃ t, exec .keeperStateUncorrectable s = .next t ∧ t.phase = .safe ∧ fget t KPR_SAFE_VALID = 1 ∧
      fget t KPR_SAFE_DIRECT = 1 ∧ fget t KPR_SAFE_SOURCE = 0 ∧ t.kpr.locked = true ∧ t.kpr.order = s.kpr.order ∧
      t.kpr.groups = s.kpr.groups ∧ fget t KPR_HIST_NEXT_RSEQ = fget s KPR_HIST_NEXT_RSEQ ∧
      Unchanged [.phase, .regs, .kpr, .dmk, .out, .fns] s t) ∧
  (∀ s : State, s.rst.warm = none → s.phase = .ballast →
    ∃ t, exec .keeperStateUncorrectable s = .next t ∧ t.kpr.safeLatched = some 0 ∧ t.kpr.order = s.kpr.order ∧
      Unchanged [.kpr] s t) ∧
  (∀ (s : State) (r : Nat) (high : Bool), decidesSafe s → (r = 1 ∨ r = 2 ∨ (r = 0 ∧ high = true)) →
    ∃ t, exec (.supplyMonitorCrossing r high) s = .next t ∧ t.phase = .safe ∧ fget t KPR_SAFE_VALID = 1 ∧
      fget t KPR_SAFE_SOURCE = (if high then 0x090 + r else 0x080 + r) ∧ fget t KPR_SAFE_DIRECT = 0 ∧
      Unchanged reportParts s t) ∧
  (∀ s : State, s.phase = .safe → s.kpr.safeStep = 1 → MediaQuiet s →
    ∃ t, exec .safeEntry s = .next t ∧ fget t KPR_SAFE_QUEUES_DONE = 1 ∧ fget t KPR_SAFE_HEADS_DONE = 1 ∧
      2 ≤ t.kpr.safeStep ∧ t.phase = .safe) ∧
  (∀ s : State, s.phase = .safe → s.kpr.safeStep = 8 →
    ∃ t, exec .safeFlushDone s = .next t ∧ t.kpr.safeStep = 9 ∧
      (∀ c < 32, fget t (FLC_CH_STATE_WP_HIGH.ix c 0x4000) = 0) ∧ Unchanged [.regs, .kpr] s t)

/-- With an event at the head of the intake whose code's bucket holds a token, or whose code is never limited: an event of
a code that is not permanent is entered in the circulating slot after the newest one, with its code, data word, the
next ESEQ, the code's suppressed count and the LOSS flag, and DMK_NEWEST shows the slot; an event of a permanent code
takes the lowest empty permanent slot. ESEQ rises by 1 modulo 2^32 and the intake loses its oldest event. With no
token the event is only counted as suppressed. With at least 256 circulating entries waiting, a persist that succeeds
copies the permanent area, leaves fewer than 256 waiting and clears the mark of a changed permanent area; one that
fails sets PERSIST_ERR and keeps the entries. A read of DMK_WIN0 takes the accessor's snapshot of the entry at its
cursor and answers its first word; a read of DMK_WIN7 answers the last word of the snapshot and, with AUTO set, moves
the cursor on within its area; the other accessor's snapshot stays. -/
def Obligations.Daymark : Prop :=
  ((∀ (s : State) (code data : Nat) (rest : List (Nat × Nat)), s.dmk.intake = (code, data) :: rest →
    neverLimited code = true ∨ 1000000000 ≤ ((getBucket s code).refill s.tb.ns).nano → (getBucket s code).perm = false →
    ∃ t, exec .daymarkEvent s = .next t ∧
      (dmkSlot t (match s.dmk.newest with | some n => circNext n | none => 512)).code = code ∧
      (dmkSlot t (match s.dmk.newest with | some n => circNext n | none => 512)).data = data % 2 ^ 32 ∧
      (dmkSlot t (match s.dmk.newest with | some n => circNext n | none => 512)).eseq = s.dmk.eseq ∧
      (dmkSlot t (match s.dmk.newest with | some n => circNext n | none => 512)).suppressed = (getBucket s code).pending ∧
      (dmkSlot t (match s.dmk.newest with | some n => circNext n | none => 512)).loss = s.dmk.lossFlag ∧
      t.dmk.newest = some (match s.dmk.newest with | some n => circNext n | none => 512) ∧ t.dmk.lossFlag = false ∧
      t.dmk.eseq = (s.dmk.eseq + 1) % 2 ^ 32 ∧ t.dmk.intake = rest ∧
      fget t DMK_NEWEST_SLOT = (match s.dmk.newest with | some n => circNext n | none => 512) % 4096 ∧
      Unchanged [.tb, .regs, .dmk, .out] s t) ∧
  (∀ (s : State) (code data i : Nat) (rest : List (Nat × Nat)), s.dmk.intake = (code, data) :: rest →
    neverLimited code = true ∨ 1000000000 ≤ ((getBucket s code).refill s.tb.ns).nano → (getBucket s code).perm = true →
    permFree s = some i →
    ∃ t, exec .daymarkEvent s = .next t ∧ (dmkSlot t i).code = code ∧ (dmkSlot t i).data = data % 2 ^ 32 ∧
      (dmkSlot t i).perm = true ∧ t.dmk.permDirty = true ∧ t.dmk.newest = s.dmk.newest ∧ t.dmk.intake = rest ∧
      (∀ j, j ≠ i → dmkSlot t j = dmkSlot s j) ∧ Unchanged [.tb, .regs, .dmk, .out] s t) ∧
  (∀ (s : State) (code data : Nat) (rest : List (Nat × Nat)), s.dmk.intake = (code, data) :: rest →
    neverLimited code = false → ((getBucket s code).refill s.tb.ns).nano < 1000000000 →
    ∃ t, exec .daymarkEvent s = .next t ∧ (getBucket t code).pending = min ((getBucket s code).pending + 1) 65535 ∧
      t.dmk.store = s.dmk.store ∧ t.dmk.eseq = s.dmk.eseq ∧ t.dmk.intake = rest ∧ Unchanged [.dmk] s t)) ∧
  ((∀ s : State, 256 ≤ s.dmk.unpersist →
    ∃ t, exec (.daymarkPersist true) s = .next t ∧ t.dmk.unpersist = s.dmk.unpersist % 256 ∧ t.dmk.permDirty = false ∧
      t.nv.dmkPerm = permEntries s ∧ t.dmk.store = s.dmk.store ∧ RegsBut [DMK_PERSIST_ESEQ.off] s t ∧
      Unchanged [.nv, .regs, .dmk] s t) ∧
  (∀ s : State, 256 ≤ s.dmk.unpersist →
    ∃ t, exec (.daymarkPersist false) s = .next t ∧ fget t DMK_STATUS_PERSIST_ERR = 1 ∧
      t.dmk.unpersist = s.dmk.unpersist ∧ t.dmk.store = s.dmk.store ∧ Unchanged reportParts s t) ∧
  (∀ (s : State) (a : Accessor), a ≠ .mgt →
    ∃ t, exec (.dmkWin0Read a) s = .next t ∧ t.dmk.winCtl = (winEntry s (fget s DMK_CURSOR_SLOT)).words ∧
      t.dmk.winMgt = s.dmk.winMgt ∧
      t.out = .readData (((winEntry s (fget s DMK_CURSOR_SLOT)).words.headD 0).toNat) :: s.out ∧
      t.dmk.store = s.dmk.store ∧ Unchanged [.dmk, .out] s t) ∧
  (∀ s : State, ∃ t, exec (.dmkWin0Read .mgt) s = .next t ∧
      t.dmk.winMgt = (winEntry s (fget s (cursorF .mgt DMK_CURSOR_SLOT))).words ∧ t.dmk.winCtl = s.dmk.winCtl ∧
      t.dmk.store = s.dmk.store ∧ Unchanged [.dmk, .out] s t) ∧
  (∀ (s : State) (a : Accessor), fget s (cursorF a DMK_CURSOR_AUTO) = 1 →
    ∃ t, exec (.dmkWin7Read a) s = .next t ∧ t.out = .readData (((winWords s a).getD 7 0).toNat) :: s.out ∧
      fget t (cursorF a DMK_CURSOR_SLOT) = cursorNext (fget s (cursorF a DMK_CURSOR_SLOT)) % 4096 ∧
      RegsBut [(cursorF a DMK_CURSOR_SLOT).off] s t ∧ Unchanged [.regs, .out] s t) ∧
  (∀ (s : State) (a : Accessor), fget s (cursorF a DMK_CURSOR_AUTO) = 0 →
    ∃ t, exec (.dmkWin7Read a) s = .next t ∧ t.out = .readData (((winWords s a).getD 7 0).toNat) :: s.out ∧
      Unchanged [.out] s t))
end

