-- ==== Sys2Proof/Laws/Tbl.lean ====
section
/-!
SUPPORT. Laws/Tbl.lean: sparse tables and memories: an update keeps the canonical form, reads back what was written, and
leaves every other number alone.
-/

namespace Sys2Proof.Laws

open Sys2Proof.Machine

variable {α : Type} [DecidableEq α]

theorem wfAbove_mono {f : Nat → α} {t : Tbl α} {a b : Nat} (h : Tbl.wfAbove f b t = true) (hab : a ≤ b) :
    Tbl.wfAbove f a t = true := by
  cases t with
  | nil => rfl
  | cons e t =>
    obtain ⟨k, v⟩ := e
    simp only [Tbl.wfAbove, Bool.and_eq_true, decide_eq_true_eq] at h ⊢
    exact ⟨⟨le_trans hab h.1.1, h.1.2⟩, h.2⟩

/-- Deleting a number below every listed one changes nothing. -/
theorem tdel_below {f : Nat → α} {t : Tbl α} {a n : Nat} (h : Tbl.wfAbove f a t = true) (hn : n < a) : tdel t n = t := by
  induction t generalizing a with
  | nil => rfl
  | cons e t ih =>
    obtain ⟨k, v⟩ := e
    simp only [Tbl.wfAbove, Bool.and_eq_true, decide_eq_true_eq] at h
    have hk : n < k := lt_of_lt_of_le hn h.1.1
    rw [tdel, if_neg (Nat.ne_of_lt hk), ih h.2 (Nat.lt_succ_of_lt hk)]

/-- Storing at or above the bound keeps the canonical form above it. -/
theorem tset_wfAbove {f : Nat → α} {t : Tbl α} {a n : Nat} {v : α} (h : Tbl.wfAbove f a t = true) (hn : a ≤ n) :
    Tbl.wfAbove f a (tset (f n) t n v) = true := by
  induction t generalizing a with
  | nil =>
    by_cases hv : v = f n
    · simp [tset, hv, Tbl.wfAbove]
    · simp [tset, hv, Tbl.wfAbove, hn]
  | cons e t ih =>
    obtain ⟨k, x⟩ := e
    simp only [Tbl.wfAbove, Bool.and_eq_true, decide_eq_true_eq] at h
    obtain ⟨⟨hk, hx⟩, ht⟩ := h
    unfold tset
    by_cases h2 : n = k
    · subst h2
      by_cases hv : v = f n
      · simp only [if_pos hv, if_true, tdel_below ht (Nat.lt_succ_self n)]
        exact wfAbove_mono ht (Nat.le_succ_of_le hk)
      · simp only [if_neg hv, if_true, Tbl.wfAbove, Bool.and_eq_true, decide_eq_true_eq]
        exact ⟨⟨hn, hv⟩, ht⟩
    · by_cases h1 : n < k
      · by_cases hv : v = f n
        · simp [if_neg h2, h1, hv, tdel_below ht (Nat.lt_succ_of_lt h1), Tbl.wfAbove, hk, hx, ht]
        · simp only [if_neg h2, if_pos h1, if_neg hv, Tbl.wfAbove, Bool.and_eq_true, decide_eq_true_eq]
          exact ⟨⟨hn, hv⟩, ⟨⟨h1, hx⟩, ht⟩⟩
      · simp only [if_neg h2, if_neg h1, Tbl.wfAbove, Bool.and_eq_true, decide_eq_true_eq]
        exact ⟨⟨hk, hx⟩, ih ht (by omega)⟩

theorem tset_wf_fun {f : Nat → α} {t : Tbl α} {n : Nat} {v : α} (h : Tbl.wf f t = true) :
    Tbl.wf f (tset (f n) t n v) = true := tset_wfAbove h (Nat.zero_le n)

theorem tset_wf {d : α} {t : Tbl α} {n : Nat} {v : α} (h : Tbl.wf (fun _ => d) t = true) :
    Tbl.wf (fun _ => d) (tset d t n v) = true := tset_wf_fun (f := fun _ => d) h

omit [DecidableEq α] in
theorem tget_tdel (d : α) (t : Tbl α) (n m : Nat) : tget d (tdel t n) m = if m = n then d else tget d t m := by
  induction t with
  | nil => simp [tdel, tget]
  | cons e t ih =>
    obtain ⟨k, x⟩ := e
    by_cases hn : n = k
    · rw [tdel, if_pos hn, ih]
      by_cases hm : m = n
      · simp [hm]
      · rw [if_neg hm, if_neg hm, tget, if_neg (hn ▸ hm)]
    · rw [tdel, if_neg hn, tget, tget, ih]
      by_cases hm : m = k
      · rw [if_pos hm, if_neg (by omega), if_pos hm]
      · rw [if_neg hm, if_neg hm]

/-- Reading a table after one update, whatever the table holds. -/
@[simp] theorem tget_tset (d : α) (t : Tbl α) (n m : Nat) (v : α) :
    tget d (tset d t n v) m = if m = n then v else tget d t m := by
  induction t with
  | nil => by_cases hv : v = d <;> by_cases hm : m = n <;> simp [tset, tget, hv, hm]
  | cons e t ih =>
    obtain ⟨k, x⟩ := e
    unfold tset
    by_cases hn : n = k
    · rw [if_pos hn]
      by_cases hv : v = d
      · rw [if_pos hv, tget_tdel]
        by_cases hm : m = n
        · simp [hm, hv]
        · rw [if_neg hm, if_neg hm, tget, if_neg (hn ▸ hm)]
      · rw [if_neg hv, tget]
        by_cases hm : m = n
        · simp [hm]
        · rw [if_neg hm, if_neg hm, tget, if_neg (hn ▸ hm)]
    · rw [if_neg hn]
      by_cases h1 : n < k
      · rw [if_pos h1]
        by_cases hv : v = d
        · rw [if_pos hv, tget, tget_tdel, tget]
          by_cases hm : m = n
          · subst hm; rw [if_neg hn, if_pos rfl, if_pos rfl, hv]
          · rw [if_neg hm, if_neg hm]
        · rw [if_neg hv, tget]
      · rw [if_neg h1, tget, ih, tget]
        by_cases hm : m = n
        · subst hm; rw [if_neg hn, if_pos rfl, if_pos rfl]
        · rw [if_neg hm, if_neg hm]

/-- Reading the present value of a modified table. -/
@[simp] theorem tget_tmod (d : α) (t : Tbl α) (n m : Nat) (f : α → α) :
    tget d (tmod d t n f) m = if m = n then f (tget d t n) else tget d t m := tget_tset d t n m _

/-- Storing into memory keeps its canonical form. -/
@[simp] theorem memWrite_wf (bs : List Byte) (m : Memory) (a : Nat) (h : m.wf = true) : (memWrite m a bs).wf = true := by
  induction bs generalizing m a with
  | nil => exact h
  | cons b bs ih => exact ih _ _ (tset_wf h)

@[simp] theorem empty_wf : Memory.wf [] = true := rfl

/-- A byte outside the stored ones reads as before. -/
theorem memWrite_outside (bs : List Byte) (m : Memory) (a n : Nat) (hn : n < a ∨ a + bs.length ≤ n) :
    tget 0 (memWrite m a bs) n = tget 0 m n := by
  induction bs generalizing m a with
  | nil => rfl
  | cons b bs ih =>
    simp only [List.length_cons] at hn
    rw [memWrite, ih _ _ (by omega), tget_tset, if_neg (by omega)]

/-- The stored bytes are read back. -/
theorem memRead_memWrite (bs : List Byte) (m : Memory) (a : Nat) : memRead (memWrite m a bs) a bs.length = bs := by
  induction bs generalizing m a with
  | nil => rfl
  | cons b bs ih =>
    simp only [List.length_cons, memRead, memWrite]
    rw [memWrite_outside bs _ (a + 1) a (by omega), tget_tset, if_pos rfl, ih]

/-- A read outside the stored bytes is as before. -/
theorem memRead_outside (k : Nat) (bs : List Byte) (m : Memory) (a n : Nat) (hn : n + k ≤ a ∨ a + bs.length ≤ n) :
    memRead (memWrite m a bs) n k = memRead m n k := by
  induction k generalizing n with
  | zero => rfl
  | succ k ih => rw [memRead, memRead, memWrite_outside bs m a n (by omega), ih (n + 1) (by omega)]

theorem leBytes_length (v n : Nat) : (leBytes v n).length = n := by
  induction n generalizing v with
  | zero => rfl
  | succ n ih => simp [leBytes, ih]

end Sys2Proof.Laws
end

