-- ==== Sys2Proof/Laws/Kept.lean ====
section
/-! SUPPORT. What it means that an operation keeps the queue of commands and the two memories of the block (DRAM and SRAM), or
keeps the queue and leaves the memories in canonical form; and that folds, conditionals and optional results do. -/

open Sys2Proof.Machine

namespace Sys2Proof.Laws

/-- State `t` has the queue and the two memories of `s`. -/
@[simp] abbrev Keeps (s t : State) : Prop := t.pending = s.pending ∧ t.trw.dram = s.trw.dram ∧ t.trw.sram = s.trw.sram

/-- State `t` has the queue of `s`, and memories in canonical form. -/
@[simp] abbrev KeepsWf (s t : State) : Prop := t.pending = s.pending ∧ t.trw.dram.wf = true ∧ t.trw.sram.wf = true

theorem ite_keeps {s a b : State} {c : Prop} [Decidable c] (ha : Keeps s a) (hb : Keeps s b) :
    Keeps s (if c then a else b) := by
  split <;> assumption

/-- An outcome keeps a queue and two memories: its next state, if it answers one, has them. -/
def NextKeeps (p : List Instr) (d m : Memory) (o : Host.Outcome State Fault Refusal) : Prop :=
  ∀ t, o = .next t → t.pending = p ∧ t.trw.dram = d ∧ t.trw.sram = m

/-- The same for an optional state. -/
def SomeKeeps (p : List Instr) (d m : Memory) (o : Option State) : Prop :=
  ∀ t, o = some t → t.pending = p ∧ t.trw.dram = d ∧ t.trw.sram = m

@[simp] theorem nextKeeps_next (p : List Instr) (d m : Memory) (t : State) :
    NextKeeps p d m (.next t) ↔ t.pending = p ∧ t.trw.dram = d ∧ t.trw.sram = m :=
  ⟨fun h => h t rfl, fun h _ e => by injection e with e; exact e ▸ h⟩

@[simp] theorem nextKeeps_fault (p : List Instr) (d m : Memory) (f : Fault) : NextKeeps p d m (.fault f) := fun _ e => by
  cases e

@[simp] theorem nextKeeps_refused (p : List Instr) (d m : Memory) (r : Refusal) : NextKeeps p d m (.refused r) :=
  fun _ e => by cases e

@[simp] theorem someKeeps_none (p : List Instr) (d m : Memory) : SomeKeeps p d m none := fun _ e => by cases e

@[simp] theorem someKeeps_some (p : List Instr) (d m : Memory) (t : State) :
    SomeKeeps p d m (some t) ↔ t.pending = p ∧ t.trw.dram = d ∧ t.trw.sram = m :=
  ⟨fun h => h t rfl, fun h _ e => by injection e with e; exact e ▸ h⟩

@[simp] theorem nextKeeps_ite (p : List Instr) (d m : Memory) (c : Prop) [Decidable c]
    (a b : Host.Outcome State Fault Refusal) :
    NextKeeps p d m (if c then a else b) ↔ (c → NextKeeps p d m a) ∧ (¬c → NextKeeps p d m b) := by
  by_cases h : c <;> simp [h]

@[simp] theorem someKeeps_ite (p : List Instr) (d m : Memory) (c : Prop) [Decidable c] (a b : Option State) :
    SomeKeeps p d m (if c then a else b) ↔ (c → SomeKeeps p d m a) ∧ (¬c → SomeKeeps p d m b) := by
  by_cases h : c <;> simp [h]

@[simp] theorem foldl_pending {α : Type} (g : State → α → State) (l : List α) (s : State)
    (h : ∀ s x, (g s x).pending = s.pending) : (l.foldl g s).pending = s.pending := by
  induction l generalizing s with
  | nil => rfl
  | cons x l ih => rw [List.foldl_cons, ih, h]

@[simp] theorem foldl_dram {α : Type} (g : State → α → State) (l : List α) (s : State)
    (h : ∀ s x, (g s x).trw.dram = s.trw.dram) : (l.foldl g s).trw.dram = s.trw.dram := by
  induction l generalizing s with
  | nil => rfl
  | cons x l ih => rw [List.foldl_cons, ih, h]

@[simp] theorem foldl_sram {α : Type} (g : State → α → State) (l : List α) (s : State)
    (h : ∀ s x, (g s x).trw.sram = s.trw.sram) : (l.foldl g s).trw.sram = s.trw.sram := by
  induction l generalizing s with
  | nil => rfl
  | cons x l ih => rw [List.foldl_cons, ih, h]

@[simp] theorem ite_pending (c : Prop) [Decidable c] (a b : State) :
    (if c then a else b).pending = if c then a.pending else b.pending := apply_ite _ _ _ _
@[simp] theorem ite_dram (c : Prop) [Decidable c] (a b : State) :
    (if c then a else b).trw.dram = if c then a.trw.dram else b.trw.dram := by split <;> rfl
@[simp] theorem ite_sram (c : Prop) [Decidable c] (a b : State) :
    (if c then a else b).trw.sram = if c then a.trw.sram else b.trw.sram := by split <;> rfl

theorem SomeKeeps.of {p : List Instr} {d m : Memory} {o : Option State} {t : State} (h : o = some t)
    (k : SomeKeeps p d m o) : t.pending = p ∧ t.trw.dram = d ∧ t.trw.sram = m := k t h

theorem NextKeeps.of {p : List Instr} {d m : Memory} {o : Host.Outcome State Fault Refusal} {t : State} (h : o = .next t)
    (k : NextKeeps p d m o) : t.pending = p ∧ t.trw.dram = d ∧ t.trw.sram = m := k t h

theorem SomeKeeps.getD {s : State} {o : Option State} (h : SomeKeeps s.pending s.trw.dram s.trw.sram o) :
    (o.getD s).pending = s.pending ∧ (o.getD s).trw.dram = s.trw.dram ∧ (o.getD s).trw.sram = s.trw.sram := by
  cases o with
  | none => exact ⟨rfl, rfl, rfl⟩
  | some t => exact h t rfl

theorem SomeKeeps.map {p : List Instr} {d m : Memory} {o : Option State} (h : SomeKeeps p d m o) (f : State → State)
    (hf : ∀ t, (f t).pending = t.pending ∧ (f t).trw.dram = t.trw.dram ∧ (f t).trw.sram = t.trw.sram) :
    SomeKeeps p d m (o.map f) := by
  intro t e
  obtain ⟨u, hu, rfl⟩ := Option.map_eq_some_iff.mp e
  rw [(hf u).1, (hf u).2.1, (hf u).2.2]
  exact h u hu

theorem SomeKeeps.bind {p : List Instr} {d m : Memory} {α : Type} {o : Option α} {g : α → Option State}
    (h : ∀ a, o = some a → SomeKeeps p d m (g a)) : SomeKeeps p d m (o.bind g) := by
  intro t e
  obtain ⟨u, hu, he⟩ := Option.bind_eq_some_iff.mp e
  exact h u hu t he

/-- The same with the memories only canonical: a writer's outcome. -/
def NextWf (p : List Instr) (o : Host.Outcome State Fault Refusal) : Prop :=
  ∀ t, o = .next t → t.pending = p ∧ t.trw.dram.wf = true ∧ t.trw.sram.wf = true

@[simp] theorem nextWf_next (p : List Instr) (t : State) :
    NextWf p (.next t) ↔ t.pending = p ∧ t.trw.dram.wf = true ∧ t.trw.sram.wf = true :=
  ⟨fun h => h t rfl, fun h _ e => by injection e with e; exact e ▸ h⟩

@[simp] theorem nextWf_ite (p : List Instr) (c : Prop) [Decidable c] (a b : Host.Outcome State Fault Refusal) :
    NextWf p (if c then a else b) ↔ (c → NextWf p a) ∧ (¬c → NextWf p b) := by
  by_cases h : c <;> simp [h]

theorem NextKeeps.wf {p : List Instr} {d m : Memory} {o : Host.Outcome State Fault Refusal} (h : NextKeeps p d m o)
    (hd : d.wf = true) (hm : m.wf = true) : NextWf p o := by
  intro t e
  obtain ⟨a, b, c⟩ := h t e
  exact ⟨a, b ▸ hd, c ▸ hm⟩


def SomeWf (p : List Instr) (o : Option State) : Prop :=
  ∀ t, o = some t → t.pending = p ∧ t.trw.dram.wf = true ∧ t.trw.sram.wf = true

@[simp] theorem someWf_some (p : List Instr) (t : State) :
    SomeWf p (some t) ↔ t.pending = p ∧ t.trw.dram.wf = true ∧ t.trw.sram.wf = true :=
  ⟨fun h => h t rfl, fun h _ e => by injection e with e; exact e ▸ h⟩

@[simp] theorem someWf_none (p : List Instr) : SomeWf p none := fun _ e => by cases e

@[simp] theorem someWf_ite (p : List Instr) (c : Prop) [Decidable c] (a b : Option State) :
    SomeWf p (if c then a else b) ↔ (c → SomeWf p a) ∧ (¬c → SomeWf p b) := by
  by_cases h : c <;> simp [h]

theorem SomeKeeps.wf {p : List Instr} {d m : Memory} {o : Option State} (h : SomeKeeps p d m o)
    (hd : d.wf = true) (hm : m.wf = true) : SomeWf p o := by
  intro t e
  obtain ⟨a, b, c⟩ := h t e
  exact ⟨a, b ▸ hd, c ▸ hm⟩

theorem SomeWf.orElse {p : List Instr} {o : Option State} {g : Unit → Option State} (h : SomeWf p o)
    (hg : SomeWf p (g ())) : SomeWf p (o.orElse g) := by
  cases o with
  | none => exact hg
  | some t => exact h

@[simp] theorem reset_wf : State.reset.trw.dram.wf = true ∧ State.reset.trw.sram.wf = true := ⟨rfl, rfl⟩

theorem foldr_kept {α : Type} (g : α → State → State) (l : List α) (s : State)
    (h : ∀ x s, (g x s).pending = s.pending ∧ (g x s).trw.dram = s.trw.dram ∧ (g x s).trw.sram = s.trw.sram) :
    (l.foldr g s).pending = s.pending ∧ (l.foldr g s).trw.dram = s.trw.dram ∧ (l.foldr g s).trw.sram = s.trw.sram := by
  induction l with
  | nil => exact ⟨rfl, rfl, rfl⟩
  | cons x l ih => rw [List.foldr_cons, (h _ _).1, (h _ _).2.1, (h _ _).2.2]; exact ih

theorem foldl_kept {α : Type} (g : State → α → State) (l : List α) (s : State)
    (h : ∀ s x, (g s x).pending = s.pending ∧ (g s x).trw.dram = s.trw.dram ∧ (g s x).trw.sram = s.trw.sram) :
    (l.foldl g s).pending = s.pending ∧ (l.foldl g s).trw.dram = s.trw.dram ∧ (l.foldl g s).trw.sram = s.trw.sram := by
  induction l generalizing s with
  | nil => exact ⟨rfl, rfl, rfl⟩
  | cons x l ih => rw [List.foldl_cons, (ih _).1, (ih _).2.1, (ih _).2.2]; exact h _ _

end Sys2Proof.Laws
end

