-- ==== Sys2Proof/Laws/KeptOps.lean ====
section
/-! SUPPORT. Each operation of the shared operations, hosts, tenants and queues keeps the queue and the memories,
or (`_wf`) keeps the queue and leaves the memories in canonical form; one lemma per operation, for later proofs to cite
in place of unfolding it. -/

open Sys2Proof.Machine

namespace Sys2Proof.Laws

@[simp] theorem rset_kept (s : State) (k : Nat) (v : Word) : Keeps s (rset s k v) := by
  unfold rset
  simp

@[simp] theorem fset_kept (s : State) (f : Fld) (x : Nat) : Keeps s (fset s f x) := by
  unfold fset
  simp

@[simp] theorem fbump_kept (s : State) (f : Fld) (n : Nat) : Keeps s (fbump s f n) := by
  unfold fbump
  simp

@[simp] theorem fsetBit_kept (s : State) (f : Fld) (i : Nat) (b : Bool) : Keeps s (fsetBit s f i b) := by
  unfold fsetBit
  simp

@[simp] theorem emit_kept (s : State) (o : Out) : Keeps s (emit s o) := by
  unfold emit
  simp

@[simp] theorem drawFree_kept (s : State) : Keeps s (drawFree s).2 := by
  unfold drawFree
  simp

@[simp] theorem advanceTo_kept (s : State) (x1 : Nat) : Keeps s (advanceTo s x1) := by
  unfold advanceTo
  simp

@[simp] theorem grantStamp_kept (s : State) : Keeps s (grantStamp s).2 := by
  unfold grantStamp
  (repeat' split) <;> simp

@[simp] theorem modFn_kept (s : State) (fid : Nat) (f : FnState → FnState) : Keeps s (modFn s fid f) := by
  unfold modFn
  simp

@[simp] theorem msixSend_kept (s : State) (fid vec : Nat) : Keeps s (msixSend s fid vec) := by
  unfold msixSend
  simp

@[simp] theorem aerReport_kept (s : State) (fid kind : Nat) : Keeps s (aerReport s fid kind) := by
  unfold aerReport
  simp

@[simp] theorem setBucket_kept (s : State) (code : Nat) (b : Bucket) : Keeps s (setBucket s code b) := by
  unfold setBucket
  simp

@[simp] theorem suppress_kept (s : State) (code : Nat) : Keeps s (suppress s code) := by
  unfold suppress
  simp

@[simp] theorem dmkPush_kept (s : State) (code data : Nat) : Keeps s (dmkPush s code data) := by
  unfold dmkPush
  simp

@[simp] theorem setPhase_kept (s : State) (p : Phase) (src cause : Nat) : Keeps s (setPhase s p src cause) := by
  unfold setPhase
  simp

@[simp] theorem modKpr_kept (s : State) (f : Keeper → Keeper) : Keeps s (modKpr s f) := by
  unfold modKpr
  simp

@[simp] theorem modGroup_kept (s : State) (g : Nat) (f : GroupEntry → GroupEntry) : Keeps s (modGroup s g f) := by
  unfold modGroup
  simp

@[simp] theorem closeRecord_kept (s : State) (rseq : Nat) : Keeps s (closeRecord s rseq) := by
  unfold closeRecord
  (repeat' split) <;> simp

@[simp] theorem keeperCause_kept (s : State) (k : Nat) : Keeps s (keeperCause s k) := by
  unfold keeperCause
  simp

@[simp] theorem countSource_kept (s : State) (src : Nat) : Keeps s (countSource s src) := by
  unfold countSource
  simp

@[simp] theorem enterRecord_kept (s : State) (word3 data : Nat) (cause : Option Nat) : Keeps s
    (enterRecord s word3 data cause).2 := by
  unfold enterRecord
  simp

@[simp] theorem safeDecide_kept (s : State) (src : Nat) (direct : Bool) : Keeps s (safeDecide s src direct) := by
  unfold safeDecide
  simp

@[simp] theorem fatalFault_kept (s : State) (src : Nat) (direct : Bool) : Keeps s (fatalFault s src direct) := by
  unfold fatalFault
  (repeat' split) <;> simp

@[simp] theorem openEntry_kept (s : State) (src rseq : Nat) (cls : Cls) : Keeps s (openEntry s src rseq cls) := by
  unfold openEntry
  dsimp only
  (repeat' split) <;> simp

@[simp] theorem fogOnRecord_kept (s : State) (cls : Cls) : Keeps s (fogOnRecord s cls) := by
  unfold fogOnRecord
  (repeat' split) <;> simp

@[simp] theorem signalClass_kept (s : State) (src : Nat) (cls : Cls) : Keeps s (signalClass s src cls) := by
  unfold signalClass
  (repeat' split) <;> simp

@[simp] theorem reportRecord_kept (s : State) (r : Report) : Keeps s (reportRecord s r) := by
  unfold reportRecord
  simp

@[simp] theorem reportMerge_kept (s : State) (src slot : Nat) : Keeps s (reportMerge s src slot) := by
  unfold reportMerge
  simp

@[simp] theorem report_kept (s : State) (r : Report) : Keeps s (report s r) := by
  unfold report
  dsimp only
  (repeat' split) <;> simp

@[simp] theorem raise_kept (s : State) (src data : Nat) : Keeps s (raise s src data) := by
  unfold raise
  (repeat' split) <;> simp

@[simp] theorem dmkSend_kept (s : State) (code data : Nat) : Keeps s (dmkSend s code data) := by
  unfold dmkSend
  simp

@[simp] theorem liftFence_kept (s : State) (rseq : Nat) : Keeps s (liftFence s rseq) := by
  unfold liftFence
  simp

@[simp] theorem setPdOn_kept (s : State) (d : Nat) (b : Bool) : Keeps s (setPdOn s d b) := by
  unfold setPdOn
  simp

@[simp] theorem setPdBusy_kept (s : State) (d : Nat) (b : Bool) : Keeps s (setPdBusy s d b) := by
  unfold setPdBusy
  simp

@[simp] theorem setPdPend_kept (s : State) (d : Nat) (b : Bool) : Keeps s (setPdPend s d b) := by
  unfold setPdPend
  simp

@[simp] theorem modPwr_kept (s : State) (f : Power → Power) : Keeps s (modPwr s f) := by
  unfold modPwr
  simp

@[simp] theorem retireUnit_kept (s : State) (u : UnitId) : Keeps s (retireUnit s u) := by
  unfold retireUnit
  (repeat' split) <;> simp

@[simp] theorem setReduction_kept (s : State) (k : Nat) (b : Bool) : Keeps s (setReduction s k b) := by
  unfold setReduction
  dsimp only
  (repeat' split) <;> simp

@[simp] theorem minWatch_kept (s : State) : Keeps s (minWatch s) := by
  unfold minWatch
  simp

@[simp] theorem modHod_kept (s : State) (c : Nat) (f : HodChan → HodChan) : Keeps s (modHod s c f) := by
  unfold modHod
  simp

@[simp] theorem hodResult_kept (s : State) (c r : Nat) : Keeps s (hodResult s c r) := by
  unfold hodResult
  simp

@[simp] theorem hodStart_kept (s : State) (c : Nat) (ws : List Word) : Keeps s (hodStart s c ws) := by
  unfold hodStart
  simp

@[simp] theorem hodDiscard_kept (s : State) (c : Nat) : Keeps s (hodDiscard s c) := by
  unfold hodDiscard
  simp

@[simp] theorem hodSettle_kept (s : State) (c : Nat) : Keeps s (hodSettle s c) := by
  unfold hodSettle
  simp

@[simp] theorem hodTake_kept (s : State) (c : Nat) : Keeps s (hodTake s c) := by
  unfold hodTake
  (repeat' split) <;> simp

@[simp] theorem hodEnd_kept (s : State) (c last : Nat) : Keeps s (hodEnd s c last) := by
  unfold hodEnd
  simp

@[simp] theorem hodAbort_kept (s : State) (c : Nat) : Keeps s (hodAbort s c) := by
  unfold hodAbort
  simp

@[simp] theorem hodAbortWhere_kept (s : State) (p : HodAct → Bool) : Keeps s (hodAbortWhere s p) := by
  unfold hodAbortWhere
  simp

@[simp] theorem hodFence_kept (s : State) : Keeps s (hodFence s) := by
  unfold hodFence
  simp

@[simp] theorem hodAbortFn_kept (s : State) (fid : Nat) : Keeps s (hodAbortFn s fid) := by
  unfold hodAbortFn
  simp

@[simp] theorem dropOpen_kept (s : State) (rseq : Nat) : Keeps s (dropOpen s rseq) := by
  unfold dropOpen
  simp

@[simp] theorem closeOpen_kept (s : State) (rseq : Nat) : Keeps s (closeOpen s rseq) := by
  unfold closeOpen
  simp

@[simp] theorem execCoverDone_kept {qp : List Instr} {qd qm : Memory} (rseq : Nat) (kept : Bool) (s : State) (hp
    : s.pending = qp) (hd : s.trw.dram = qd) (hm : s.trw.sram = qm) : NextKeeps qp qd qm (execCoverDone rseq kept s) := by
  subst hp hd hm
  unfold execCoverDone
  (repeat' split) <;> simp

@[simp] theorem execRecordCloseExpiry_kept {qp : List Instr} {qd qm : Memory} (rseq : Nat) (s : State) (hp
    : s.pending = qp) (hd : s.trw.dram = qd) (hm : s.trw.sram = qm) : NextKeeps qp qd qm
    (execRecordCloseExpiry rseq s) := by
  subst hp hd hm
  unfold execRecordCloseExpiry
  (repeat' split) <;> simp

@[simp] theorem execKprAck_kept {qp : List Instr} {qd qm : Memory} (value : Word) (s : State) (hp : s.pending = qp)
    (hd : s.trw.dram = qd) (hm : s.trw.sram = qm) : NextKeeps qp qd qm (execKprAck value s) := by
  subst hp hd hm
  unfold execKprAck
  simp

@[simp] theorem execKprForce_kept {qp : List Instr} {qd qm : Memory} (value : Word) (s : State) (hp : s.pending = qp)
    (hd : s.trw.dram = qd) (hm : s.trw.sram = qm) : NextKeeps qp qd qm (execKprForce value s) := by
  subst hp hd hm
  unfold execKprForce
  simp

@[simp] theorem execKeeperStateUncorrectable_kept {qp : List Instr} {qd qm : Memory} (s : State) (hp : s.pending = qp)
    (hd : s.trw.dram = qd) (hm : s.trw.sram = qm) : NextKeeps qp qd qm (execKeeperStateUncorrectable s) := by
  subst hp hd hm
  unfold execKeeperStateUncorrectable
  simp

@[simp] theorem execFoghornPulseEnd_kept {qp : List Instr} {qd qm : Memory} (s : State) (hp : s.pending = qp) (hd
    : s.trw.dram = qd) (hm : s.trw.sram = qm) : NextKeeps qp qd qm (execFoghornPulseEnd s) := by
  subst hp hd hm
  unfold execFoghornPulseEnd
  simp

@[simp] theorem execIrqEnableWrite_kept {qp : List Instr} {qd qm : Memory} (value : Word) (s : State) (hp
    : s.pending = qp) (hd : s.trw.dram = qd) (hm : s.trw.sram = qm) : NextKeeps qp qd qm (execIrqEnableWrite value s) := by
  subst hp hd hm
  unfold execIrqEnableWrite
  simp

@[simp] theorem execTallyTick_kept {qp : List Instr} {qd qm : Memory} (s : State) (hp : s.pending = qp) (hd
    : s.trw.dram = qd) (hm : s.trw.sram = qm) : NextKeeps qp qd qm (execTallyTick s) := by
  subst hp hd hm
  unfold execTallyTick
  simp

@[simp] theorem execTallySnapshot_kept {qp : List Instr} {qd qm : Memory} (q inst : Nat) (parts : List Nat) (pool
    : Nat) (s : State) (hp : s.pending = qp) (hd : s.trw.dram = qd) (hm : s.trw.sram = qm) : NextKeeps qp qd qm
    (execTallySnapshot q inst parts pool s) := by
  subst hp hd hm
  unfold execTallySnapshot
  simp

@[simp] theorem execTallySkip_kept {qp : List Instr} {qd qm : Memory} (q : Nat) (s : State) (hp : s.pending = qp) (hd
    : s.trw.dram = qd) (hm : s.trw.sram = qm) : NextKeeps qp qd qm (execTallySkip q s) := by
  subst hp hd hm
  unfold execTallySkip
  simp

@[simp] theorem modDmk_kept (s : State) (f : Daymark → Daymark) : Keeps s (modDmk s f) := by
  unfold modDmk
  simp

@[simp] theorem placeCirc_kept (s : State) (e : DmkEntry) : Keeps s (placeCirc s e) := by
  unfold placeCirc
  simp

@[simp] theorem placePerm_kept (s : State) (i : Nat) (e : DmkEntry) : Keeps s (placePerm s i e) := by
  unfold placePerm
  simp

@[simp] theorem traceEntry_kept (s : State) (e : DmkEntry) : Keeps s (traceEntry s e) := by
  unfold traceEntry
  simp

@[simp] theorem newEntry_kept (s : State) (code data : Nat) (permOvf : Bool) : Keeps s
    (newEntry s code data permOvf).2 := by
  unfold newEntry
  simp

@[simp] theorem recordEntry_kept (s : State) (code data : Nat) : Keeps s (recordEntry s code data) := by
  unfold recordEntry
  dsimp only
  (repeat' split) <;> simp

@[simp] theorem grantEvent_kept (s : State) (code data : Nat) : Keeps s (grantEvent s code data) := by
  unfold grantEvent
  simp

@[simp] theorem execDaymarkEvent_kept {qp : List Instr} {qd qm : Memory} (s : State) (hp : s.pending = qp) (hd
    : s.trw.dram = qd) (hm : s.trw.sram = qm) : NextKeeps qp qd qm (execDaymarkEvent s) := by
  subst hp hd hm
  unfold execDaymarkEvent
  (repeat' split) <;> simp

@[simp] theorem persistStore_kept (s : State) (n : Nat) : Keeps s (persistStore s n) := by
  unfold persistStore
  dsimp only
  (repeat' split) <;> simp

@[simp] theorem persistFailed_kept (s : State) : Keeps s (persistFailed s) := by
  unfold persistFailed
  simp

@[simp] theorem execDaymarkPersist_kept {qp : List Instr} {qd qm : Memory} (ok : Bool) (s : State) (hp
    : s.pending = qp) (hd : s.trw.dram = qd) (hm : s.trw.sram = qm) : NextKeeps qp qd qm (execDaymarkPersist ok s) := by
  subst hp hd hm
  unfold execDaymarkPersist
  simp

@[simp] theorem winSnap_kept (s : State) (a : Accessor) : Keeps s (winSnap s a) := by
  unfold winSnap
  simp

@[simp] theorem execDmkWin0Read_kept {qp : List Instr} {qd qm : Memory} (a : Accessor) (s : State) (hp
    : s.pending = qp) (hd : s.trw.dram = qd) (hm : s.trw.sram = qm) : NextKeeps qp qd qm (execDmkWin0Read a s) := by
  subst hp hd hm
  unfold execDmkWin0Read
  simp

@[simp] theorem winAdvance_kept (s : State) (a : Accessor) : Keeps s (winAdvance s a) := by
  unfold winAdvance
  simp

@[simp] theorem execDmkWin7Read_kept {qp : List Instr} {qd qm : Memory} (a : Accessor) (s : State) (hp
    : s.pending = qp) (hd : s.trw.dram = qd) (hm : s.trw.sram = qm) : NextKeeps qp qd qm (execDmkWin7Read a s) := by
  subst hp hd hm
  unfold execDmkWin7Read
  simp

@[simp] theorem lathStatus_kept (s : State) : Keeps s (lathStatus s) := by
  unfold lathStatus
  simp

@[simp] theorem noteCut_kept (s : State) (before : List Nat) : Keeps s (noteCut s before) := by
  unfold noteCut
  (repeat' split) <;> simp

@[simp] theorem execLathLinkDown_kept {qp : List Instr} {qd qm : Memory} (link : Nat) (unacked : List Flit) (s
    : State) (hp : s.pending = qp) (hd : s.trw.dram = qd) (hm : s.trw.sram = qm) : NextKeeps qp qd qm
    (execLathLinkDown link unacked s) := by
  subst hp hd hm
  unfold execLathLinkDown
  simp

@[simp] theorem execRerouteComplete_kept {qp : List Instr} {qd qm : Memory} (link : Nat) (s : State) (hp
    : s.pending = qp) (hd : s.trw.dram = qd) (hm : s.trw.sram = qm) : NextKeeps qp qd qm (execRerouteComplete link s) := by
  subst hp hd hm
  unfold execRerouteComplete
  simp

@[simp] theorem execPaceUpdate_kept {qp : List Instr} {qd qm : Memory} (n : Nat) (pace : BitVec 16) (s : State) (hp
    : s.pending = qp) (hd : s.trw.dram = qd) (hm : s.trw.sram = qm) : NextKeeps qp qd qm (execPaceUpdate n pace s) := by
  subst hp hd hm
  unfold execPaceUpdate
  simp

@[simp] theorem execMinRestart_kept {qp : List Instr} {qd qm : Memory} (s : State) (hp : s.pending = qp) (hd
    : s.trw.dram = qd) (hm : s.trw.sram = qm) : NextKeeps qp qd qm (execMinRestart s) := by
  subst hp hd hm
  unfold execMinRestart
  simp

@[simp] theorem execTimestampGrant_kept {qp : List Instr} {qd qm : Memory} (now : Nat) (s : State) (hp
    : s.pending = qp) (hd : s.trw.dram = qd) (hm : s.trw.sram = qm) : NextKeeps qp qd qm (execTimestampGrant now s) := by
  subst hp hd hm
  unfold execTimestampGrant
  simp

@[simp] theorem assignPin_kept (s : State) (pin code : Nat) : Keeps s (assignPin s pin code) := by
  unfold assignPin
  (repeat' split) <;> simp

@[simp] theorem assignPins_kept (s : State) (a1 : List (Nat × Nat)) : Keeps s (assignPins s a1).1 := by
  fun_induction assignPins s a1 with
  | case1 => simp
  | case2 s pin code rest r t l h ih =>
    rw [h] at ih
    simpa using ih

@[simp] theorem execGpioFuncWrite_kept {qp : List Instr} {qd qm : Memory} (n : Nat) (value : Word) (s : State) (hp
    : s.pending = qp) (hd : s.trw.dram = qd) (hm : s.trw.sram = qm) : NextKeeps qp qd qm (execGpioFuncWrite n value s) := by
  subst hp hd hm
  unfold execGpioFuncWrite
  dsimp only
  (repeat' split) <;> simp

@[simp] theorem execFanTachEdge_kept {qp : List Instr} {qd qm : Memory} (k periodUs : Nat) (s : State) (hp
    : s.pending = qp) (hd : s.trw.dram = qd) (hm : s.trw.sram = qm) : NextKeeps qp qd qm
    (execFanTachEdge k periodUs s) := by
  subst hp hd hm
  unfold execFanTachEdge
  simp

@[simp] theorem execFanTachTimeout_kept {qp : List Instr} {qd qm : Memory} (k : Nat) (s : State) (hp : s.pending = qp)
    (hd : s.trw.dram = qd) (hm : s.trw.sram = qm) : NextKeeps qp qd qm (execFanTachTimeout k s) := by
  subst hp hd hm
  unfold execFanTachTimeout
  simp

@[simp] theorem avsAccepted_kept (s : State) (mv : Nat) : Keeps s (avsAccepted s mv) := by
  unfold avsAccepted
  simp

@[simp] theorem avsCommand_kept (s : State) (mv : Nat) (ok : Bool) : Keeps s (avsCommand s mv ok) := by
  unfold avsCommand
  simp

@[simp] theorem execAvsTrackTick_kept {qp : List Instr} {qd qm : Memory} (ok : Bool) (s : State) (hp : s.pending = qp)
    (hd : s.trw.dram = qd) (hm : s.trw.sram = qm) : NextKeeps qp qd qm (execAvsTrackTick ok s) := by
  subst hp hd hm
  unfold execAvsTrackTick
  simp

@[simp] theorem execAvsReadTick_kept {qp : List Instr} {qd qm : Memory} (ok : Bool) (mv cur : Nat) (s : State) (hp
    : s.pending = qp) (hd : s.trw.dram = qd) (hm : s.trw.sram = qm) : NextKeeps qp qd qm (execAvsReadTick ok mv cur s) := by
  subst hp hd hm
  unfold execAvsReadTick
  simp

@[simp] theorem execAvsRetry_kept {qp : List Instr} {qd qm : Memory} (ok : Bool) (s : State) (hp : s.pending = qp) (hd
    : s.trw.dram = qd) (hm : s.trw.sram = qm) : NextKeeps qp qd qm (execAvsRetry ok s) := by
  subst hp hd hm
  unfold execAvsRetry
  (repeat' split) <;> simp

@[simp] theorem execBusFailClear_kept {qp : List Instr} {qd qm : Memory} (ok : Bool) (s : State) (hp : s.pending = qp)
    (hd : s.trw.dram = qd) (hm : s.trw.sram = qm) : NextKeeps qp qd qm (execBusFailClear ok s) := by
  subst hp hd hm
  unfold execBusFailClear
  simp

@[simp] theorem execTempThreshold_kept {qp : List Instr} {qd qm : Memory} (k level : Nat) (s : State) (hp
    : s.pending = qp) (hd : s.trw.dram = qd) (hm : s.trw.sram = qm) : NextKeeps qp qd qm (execTempThreshold k level s) := by
  subst hp hd hm
  unfold execTempThreshold
  simp

@[simp] theorem setPdResult_kept (s : State) (d r : Nat) : Keeps s (setPdResult s d r) := by
  unfold setPdResult
  simp

@[simp] theorem setPdPhase_kept (s : State) (d p : Nat) : Keeps s (setPdPhase s d p) := by
  unfold setPdPhase
  simp

@[simp] theorem setParam_kept (s : State) (c value st : Nat) : Keeps s (setParam s c value st) := by
  unfold setParam
  simp

@[simp] theorem execParamSelect_kept {qp : List Instr} {qd qm : Memory} (item : Nat) (s : State) (hp : s.pending = qp)
    (hd : s.trw.dram = qd) (hm : s.trw.sram = qm) : NextKeeps qp qd qm (execParamSelect item s) := by
  subst hp hd hm
  unfold execParamSelect
  simp

@[simp] theorem portIdle_kept (s : State) (p : Nat) : Keeps s (portIdle s p) := by
  unfold portIdle
  simp

@[simp] theorem beaconPorts_kept (s : State) : Keeps s (beaconPorts s) := by
  unfold beaconPorts
  simp

@[simp] theorem enterBeacon_kept (s : State) (cause src : Nat) : Keeps s (enterBeacon s cause src) := by
  unfold enterBeacon
  simp

@[simp] theorem setBoot_kept (s : State) (n : Nat) : Keeps s (setBoot s n) := by
  unfold setBoot
  simp

@[simp] theorem bootNoRecord_kept (s : State) : Keeps s (bootNoRecord s) := by
  unfold bootNoRecord
  simp

@[simp] theorem showRecord_kept (s : State) (lastGood trial tries : Nat) : Keeps s (showRecord s lastGood trial tries) := by
  unfold showRecord
  simp

@[simp] theorem execLoaderStart_kept {qp : List Instr} {qd qm : Memory} (testEn norPresent sfdpOk : Bool) (size : Nat)
    (s : State) (hp : s.pending = qp) (hd : s.trw.dram = qd) (hm : s.trw.sram = qm) : NextKeeps qp qd qm
    (execLoaderStart testEn norPresent sfdpOk size s) := by
  subst hp hd hm
  unfold execLoaderStart
  dsimp only
  (repeat' split) <;> simp

@[simp] theorem norStart_kept (s : State) (op slot : Nat) : Keeps s (norStart s op slot) := by
  unfold norStart
  dsimp only
  (repeat' split) <;> simp

@[simp] theorem execNorRead_kept {qp : List Instr} {qd qm : Memory} (s : State) (hp : s.pending = qp) (hd
    : s.trw.dram = qd) (hm : s.trw.sram = qm) : NextKeeps qp qd qm (execNorRead s) := by
  subst hp hd hm
  unfold execNorRead
  simp

@[simp] theorem execNorProgram_kept {qp : List Instr} {qd qm : Memory} (s : State) (hp : s.pending = qp) (hd
    : s.trw.dram = qd) (hm : s.trw.sram = qm) : NextKeeps qp qd qm (execNorProgram s) := by
  subst hp hd hm
  unfold execNorProgram
  simp

@[simp] theorem execNorErase_kept {qp : List Instr} {qd qm : Memory} (s : State) (hp : s.pending = qp) (hd
    : s.trw.dram = qd) (hm : s.trw.sram = qm) : NextKeeps qp qd qm (execNorErase s) := by
  subst hp hd hm
  unfold execNorErase
  simp

@[simp] theorem execMarkTrial_kept {qp : List Instr} {qd qm : Memory} (slot : Nat) (s : State) (hp : s.pending = qp)
    (hd : s.trw.dram = qd) (hm : s.trw.sram = qm) : NextKeeps qp qd qm (execMarkTrial slot s) := by
  subst hp hd hm
  unfold execMarkTrial
  simp

@[simp] theorem execClearTrial_kept {qp : List Instr} {qd qm : Memory} (s : State) (hp : s.pending = qp) (hd
    : s.trw.dram = qd) (hm : s.trw.sram = qm) : NextKeeps qp qd qm (execClearTrial s) := by
  subst hp hd hm
  unfold execClearTrial
  simp

@[simp] theorem norLoad_kept (s : State) (addr : Nat) : Keeps s (norLoad s addr) := by
  unfold norLoad
  simp

@[simp] theorem norProgram_kept (s : State) (addr : Nat) : Keeps s (norProgram s addr) := by
  unfold norProgram
  simp

@[simp] theorem execNorCommandDone_kept {qp : List Instr} {qd qm : Memory} (norError verifyBad : Bool) (s : State) (hp
    : s.pending = qp) (hd : s.trw.dram = qd) (hm : s.trw.sram = qm) : NextKeeps qp qd qm
    (execNorCommandDone norError verifyBad s) := by
  subst hp hd hm
  unfold execNorCommandDone
  (repeat' split) <;> simp

@[simp] theorem modJrn_kept (s : State) (f : Journal → Journal) : Keeps s (modJrn s f) := by
  unfold modJrn
  simp

@[simp] theorem jrnPut_kept (s : State) (e : JrnEntry) : Keeps s (jrnPut s e) := by
  unfold jrnPut
  simp

@[simp] theorem jrnDrain_kept (s : State) (a1 : List JrnEntry) : Keeps s (jrnDrain s a1) := by
  induction a1 generalizing s <;> simp_all [jrnDrain]

@[simp] theorem jrnMarker_kept (s : State) (code tenant nsid slba : Nat) : Keeps s (jrnMarker s code tenant nsid slba) := by
  unfold jrnMarker
  simp

@[simp] theorem jrnFinal_kept (s : State) (seq status : Nat) : Keeps s (jrnFinal s seq status) := by
  unfold jrnFinal
  simp

@[simp] theorem modQp_kept (s : State) (fid q : Nat) (f : QPair → QPair) : Keeps s (modQp s fid q f) := by
  unfold modQp
  simp

@[simp] theorem dropQp_kept (s : State) (fid q : Nat) : Keeps s (dropQp s fid q) := by
  unfold dropQp
  simp

@[simp] theorem hostGet_kept (s : State) (fid addr len : Nat) : Keeps s (hostGet s fid addr len) := by
  unfold hostGet
  simp

@[simp] theorem hostPut_kept (s : State) (fid addr : Nat) (data : List Byte) : Keeps s (hostPut s fid addr data) := by
  unfold hostPut
  simp

@[simp] theorem logFailure_kept (s : State) (fid q : Nat) (ws : List Nat) : Keeps s (logFailure s fid q ws) := by
  unfold logFailure
  simp

@[simp] theorem postCqe_kept (s : State) (fid q cid status result : Nat) (ws : List Nat) : Keeps s
    (postCqe s fid q cid status result ws) := by
  unfold postCqe
  simp

@[simp] theorem postNoSqe_kept (s : State) (fid q status : Nat) : Keeps s (postNoSqe s fid q status) := by
  unfold postNoSqe
  simp

@[simp] theorem putCmd_kept (s : State) (seq : Nat) (c : Cmd) : Keeps s (putCmd s seq c) := by
  unfold putCmd
  simp

@[simp] theorem dropCmd_kept (s : State) (seq : Nat) : Keeps s (dropCmd s seq) := by
  unfold dropCmd
  simp

@[simp] theorem setDone_kept (s : State) (seq status : Nat) (result : (Option Nat)) : Keeps s
    (setDone s seq status result) := by
  unfold setDone
  (repeat' split) <;> simp

@[simp] theorem settleCmd_kept (s : State) (seq : Nat) (c : Cmd) : Keeps s (settleCmd s seq c) := by
  unfold settleCmd
  simp

@[simp] theorem settleWhere_kept (s : State) (p : Cmd → Bool) : Keeps s (settleWhere s p) := by
  unfold settleWhere
  simp

@[simp] theorem createAq_kept (s : State) (fid cfg sqb cqb : Nat) : Keeps s (createAq s fid cfg sqb cqb) := by
  unfold createAq
  simp

@[simp] theorem finishDelete_kept (s : State) (fid q : Nat) : Keeps s (finishDelete s fid q) := by
  unfold finishDelete
  simp

@[simp] theorem finishCmd_kept (s : State) (seq : Nat) (c : Cmd) (status : Nat) : Keeps s (finishCmd s seq c status) := by
  unfold finishCmd
  simp

@[simp] theorem modPort_kept (s : State) (p : Nat) (f : PortState → PortState) : Keeps s (modPort s p f) := by
  unfold modPort
  simp

@[simp] theorem showLink_kept (s : State) (p rate width : Nat) (flit rev : Bool) : Keeps s
    (showLink s p rate width flit rev) := by
  unfold showLink
  simp

@[simp] theorem showNoLink_kept (s : State) (p : Nat) : Keeps s (showNoLink s p) := by
  unfold showNoLink
  simp

@[simp] theorem execPerstRelease_kept {qp : List Instr} {qd qm : Memory} (p : Nat) (s : State) (hp : s.pending = qp)
    (hd : s.trw.dram = qd) (hm : s.trw.sram = qm) : NextKeeps qp qd qm (execPerstRelease p s) := by
  subst hp hd hm
  unfold execPerstRelease
  simp

@[simp] theorem execLinkUp_kept {qp : List Instr} {qd qm : Memory} (p rate width : Nat) (flit rev : Bool) (s : State)
    (hp : s.pending = qp) (hd : s.trw.dram = qd) (hm : s.trw.sram = qm) : NextKeeps qp qd qm
    (execLinkUp p rate width flit rev s) := by
  subst hp hd hm
  unfold execLinkUp
  simp

@[simp] theorem execLinkRetrain_kept {qp : List Instr} {qd qm : Memory} (p rate width : Nat) (flit rev : Bool) (s
    : State) (hp : s.pending = qp) (hd : s.trw.dram = qd) (hm : s.trw.sram = qm) : NextKeeps qp qd qm
    (execLinkRetrain p rate width flit rev s) := by
  subst hp hd hm
  unfold execLinkRetrain
  simp

@[simp] theorem setFnBusy_kept (s : State) (fid : Nat) (b : Bool) : Keeps s (setFnBusy s fid b) := by
  unfold setFnBusy
  simp

@[simp] theorem teardownFn_kept (s : State) (fid : Nat) : Keeps s (teardownFn s fid) := by
  unfold teardownFn
  simp

@[simp] theorem execVfFlr_kept {qp : List Instr} {qd qm : Memory} (p n : Nat) (s : State) (hp : s.pending = qp) (hd
    : s.trw.dram = qd) (hm : s.trw.sram = qm) : NextKeeps qp qd qm (execVfFlr p n s) := by
  subst hp hd hm
  unfold execVfFlr
  simp

@[simp] theorem teardownVfs_kept (s : State) (p : Nat) : Keeps s (teardownVfs s p) := by
  unfold teardownVfs
  simp

@[simp] theorem execPfFlr_kept {qp : List Instr} {qd qm : Memory} (p : Nat) (s : State) (hp : s.pending = qp) (hd
    : s.trw.dram = qd) (hm : s.trw.sram = qm) : NextKeeps qp qd qm (execPfFlr p s) := by
  subst hp hd hm
  unfold execPfFlr
  simp

@[simp] theorem execVfEnableClear_kept {qp : List Instr} {qd qm : Memory} (p : Nat) (s : State) (hp : s.pending = qp)
    (hd : s.trw.dram = qd) (hm : s.trw.sram = qm) : NextKeeps qp qd qm (execVfEnableClear p s) := by
  subst hp hd hm
  unfold execVfEnableClear
  simp

@[simp] theorem execPortReset_kept {qp : List Instr} {qd qm : Memory} (p : Nat) (perst : Bool) (s : State) (hp
    : s.pending = qp) (hd : s.trw.dram = qd) (hm : s.trw.sram = qm) : NextKeeps qp qd qm (execPortReset p perst s) := by
  subst hp hd hm
  unfold execPortReset
  simp

@[simp] theorem execTeardownCompletionWaitEnd_kept {qp : List Instr} {qd qm : Memory} (p n : Nat) (s : State) (hp
    : s.pending = qp) (hd : s.trw.dram = qd) (hm : s.trw.sram = qm) : NextKeeps qp qd qm
    (execTeardownCompletionWaitEnd p n s) := by
  subst hp hd hm
  unfold execTeardownCompletionWaitEnd
  simp

@[simp] theorem execTeardownEnd_kept {qp : List Instr} {qd qm : Memory} (p n : Nat) (s : State) (hp : s.pending = qp)
    (hd : s.trw.dram = qd) (hm : s.trw.sram = qm) : NextKeeps qp qd qm (execTeardownEnd p n s) := by
  subst hp hd hm
  unfold execTeardownEnd
  dsimp only
  (repeat' split) <;> simp

@[simp] theorem execNumvfsWrite_kept {qp : List Instr} {qd qm : Memory} (p value : Nat) (s : State) (hp
    : s.pending = qp) (hd : s.trw.dram = qd) (hm : s.trw.sram = qm) : NextKeeps qp qd qm (execNumvfsWrite p value s) := by
  subst hp hd hm
  unfold execNumvfsWrite
  simp

@[simp] theorem flushPba_kept (s : State) (fid : Nat) : Keeps s (flushPba s fid) := by
  unfold flushPba
  simp

@[simp] theorem execBusMasterEnableWrite_kept {qp : List Instr} {qd qm : Memory} (p n : Nat) (on : Bool) (s : State)
    (hp : s.pending = qp) (hd : s.trw.dram = qd) (hm : s.trw.sram = qm) : NextKeeps qp qd qm
    (execBusMasterEnableWrite p n on s) := by
  subst hp hd hm
  unfold execBusMasterEnableWrite
  simp

@[simp] theorem execDstateChange_kept {qp : List Instr} {qd qm : Memory} (p n : Nat) (d3 : Bool) (s : State) (hp
    : s.pending = qp) (hd : s.trw.dram = qd) (hm : s.trw.sram = qm) : NextKeeps qp qd qm (execDstateChange p n d3 s) := by
  subst hp hd hm
  unfold execDstateChange
  simp

@[simp] theorem execMsixUnmask_kept {qp : List Instr} {qd qm : Memory} (p n vec : Nat) (s : State) (hp
    : s.pending = qp) (hd : s.trw.dram = qd) (hm : s.trw.sram = qm) : NextKeeps qp qd qm (execMsixUnmask p n vec s) := by
  subst hp hd hm
  unfold execMsixUnmask
  simp

@[simp] theorem configAct_kept (s : State) (fid : Nat) (op : CfgOp) : Keeps s (configAct s fid op) := by
  unfold configAct
  dsimp only
  (repeat' split) <;> simp

@[simp] theorem execConfigRequest_kept {qp : List Instr} {qd qm : Memory} (p n : Nat) (op : CfgOp) (s : State) (hp
    : s.pending = qp) (hd : s.trw.dram = qd) (hm : s.trw.sram = qm) : NextKeeps qp qd qm (execConfigRequest p n op s) := by
  subst hp hd hm
  unfold execConfigRequest
  simp

@[simp] theorem hostFailed_kept (s : State) (fid q : Nat) (seq : Option Nat) : Keeps s (hostFailed s fid q seq) := by
  unfold hostFailed
  (repeat' split) <;> simp

@[simp] theorem execHostCompletionTimeout_kept {qp : List Instr} {qd qm : Memory} (fid q : Nat) (seq : Option Nat) (s
    : State) (hp : s.pending = qp) (hd : s.trw.dram = qd) (hm : s.trw.sram = qm) : NextKeeps qp qd qm
    (execHostCompletionTimeout fid q seq s) := by
  subst hp hd hm
  unfold execHostCompletionTimeout
  simp

@[simp] theorem execHostCompletionArrival_kept {qp : List Instr} {qd qm : Memory} (fid q : Nat) (seq : Option Nat)
    (status : Nat) (s : State) (hp : s.pending = qp) (hd : s.trw.dram = qd) (hm : s.trw.sram = qm)
    : NextKeeps qp qd qm (execHostCompletionArrival fid q seq status s) := by
  subst hp hd hm
  unfold execHostCompletionArrival
  (repeat' split) <;> simp

@[simp] theorem modTen_kept (s : State) (x1 : Nat) (f : Tenant → Tenant) : Keeps s (modTen s x1 f) := by
  unfold modTen
  simp

@[simp] theorem modTenNv_kept (s : State) (x1 : Nat) (f : TenantNv → TenantNv) : Keeps s (modTenNv s x1 f) := by
  unfold modTenNv
  simp

@[simp] theorem modDir_kept (s : State) (x1 n : Nat) (wr : Bool) (f : ClassDir → ClassDir) : Keeps s
    (modDir s x1 n wr f) := by
  unfold modDir
  simp

@[simp] theorem recomputeFloor_kept (s : State) (x1 n : Nat) (c : ClassRec) (wr : Bool) : Keeps s
    (recomputeFloor s x1 n c wr) := by
  unfold recomputeFloor
  simp

@[simp] theorem recomputeFloors_kept (s : State) : Keeps s (recomputeFloors s) := by
  unfold recomputeFloors
  simp (disch := (intros; (try dsimp only); (repeat' split) <;> simp (disch := (intros; (try dsimp only); (repeat' split) <;> simp (disch := (intros; (try dsimp only); (repeat' split) <;> simp))))))

@[simp] theorem execCapacityChange_kept {qp : List Instr} {qd qm : Memory} (s : State) (hp : s.pending = qp) (hd
    : s.trw.dram = qd) (hm : s.trw.sram = qm) : NextKeeps qp qd qm (execCapacityChange s) := by
  subst hp hd hm
  unfold execCapacityChange
  simp

@[simp] theorem growDir_kept (s : State) (x1 n : Nat) (wr : Bool) : Keeps s (growDir s x1 n wr) := by
  unfold growDir
  simp

@[simp] theorem execPieceStart_kept {qp : List Instr} {qd qm : Memory} (seq : Nat) (s : State) (hp : s.pending = qp)
    (hd : s.trw.dram = qd) (hm : s.trw.sram = qm) : NextKeeps qp qd qm (execPieceStart seq s) := by
  subst hp hd hm
  unfold execPieceStart
  dsimp only
  (repeat' split) <;> simp

@[simp] theorem execBuoyRefill_kept {qp : List Instr} {qd qm : Memory} (x0 n : Nat) (wr : Bool) (s : State) (hp
    : s.pending = qp) (hd : s.trw.dram = qd) (hm : s.trw.sram = qm) : NextKeeps qp qd qm (execBuoyRefill x0 n wr s) := by
  subst hp hd hm
  unfold execBuoyRefill
  (repeat' split) <;> simp

@[simp] theorem retireLane_kept (s : State) (l : Nat) : Keeps s (retireLane s l) := by
  unfold retireLane
  simp

@[simp] theorem execMaskingKatTick_kept {qp : List Instr} {qd qm : Memory} (l : Nat) (pass : Bool) (s : State) (hp
    : s.pending = qp) (hd : s.trw.dram = qd) (hm : s.trw.sram = qm) : NextKeeps qp qd qm (execMaskingKatTick l pass s) := by
  subst hp hd hm
  unfold execMaskingKatTick
  simp

@[simp] theorem execMaskingLockstepMismatch_kept {qp : List Instr} {qd qm : Memory} (l : Nat) (s : State) (hp
    : s.pending = qp) (hd : s.trw.dram = qd) (hm : s.trw.sram = qm) : NextKeeps qp qd qm
    (execMaskingLockstepMismatch l s) := by
  subst hp hd hm
  unfold execMaskingLockstepMismatch
  simp

@[simp] theorem dbErr_kept (s : State) (fid q : Nat) (cq : Bool) : Keeps s (dbErr s fid q cq) := by
  unfold dbErr
  simp

@[simp] theorem execSqDoorbell_kept {qp : List Instr} {qd qm : Memory} (fid q tail : Nat) (s : State) (hp
    : s.pending = qp) (hd : s.trw.dram = qd) (hm : s.trw.sram = qm) : NextKeeps qp qd qm (execSqDoorbell fid q tail s) := by
  subst hp hd hm
  unfold execSqDoorbell
  simp

@[simp] theorem execCqDoorbell_kept {qp : List Instr} {qd qm : Memory} (fid q head : Nat) (s : State) (hp
    : s.pending = qp) (hd : s.trw.dram = qd) (hm : s.trw.sram = qm) : NextKeeps qp qd qm (execCqDoorbell fid q head s) := by
  subst hp hd hm
  unfold execCqDoorbell
  simp

@[simp] theorem xqRsv_kept (s : State) (fid : Nat) : Keeps s (xqRsv s fid) := by
  unfold xqRsv
  simp

@[simp] theorem aqStore_kept (s : State) (fid : Nat) (v : Word) : Keeps s (aqStore s fid v) := by
  unfold aqStore
  simp

@[simp] theorem execAqCfgWrite_kept {qp : List Instr} {qd qm : Memory} (fid : Nat) (value : Word) (s : State) (hp
    : s.pending = qp) (hd : s.trw.dram = qd) (hm : s.trw.sram = qm) : NextKeeps qp qd qm (execAqCfgWrite fid value s) := by
  subst hp hd hm
  unfold execAqCfgWrite
  simp

@[simp] theorem execSqeFetch_kept {qp : List Instr} {qd qm : Memory} (fid : Nat) (s : State) (hp : s.pending = qp) (hd
    : s.trw.dram = qd) (hm : s.trw.sram = qm) : NextKeeps qp qd qm (execSqeFetch fid s) := by
  subst hp hd hm
  unfold execSqeFetch
  (repeat' split) <;> simp

@[simp] theorem resumeResult_kept (s : State) (fid r : Nat) : Keeps s (resumeResult s fid r) := by
  unfold resumeResult
  simp

@[simp] theorem resumeApply_kept (s : State) (fid q act n : Nat) : Keeps s (resumeApply s fid q act n) := by
  unfold resumeApply
  simp

@[simp] theorem resumeWrite_kept (s : State) (fid q act n : Nat) : Keeps s (resumeWrite s fid q act n) := by
  unfold resumeWrite
  simp

@[simp] theorem execXqResumeNext_kept {qp : List Instr} {qd qm : Memory} (fid q : Nat) (s : State) (hp
    : s.pending = qp) (hd : s.trw.dram = qd) (hm : s.trw.sram = qm) : NextKeeps qp qd qm (execXqResumeNext fid q s) := by
  subst hp hd hm
  unfold execXqResumeNext
  simp

@[simp] theorem execXqResumeSkip_kept {qp : List Instr} {qd qm : Memory} (fid q n : Nat) (s : State) (hp
    : s.pending = qp) (hd : s.trw.dram = qd) (hm : s.trw.sram = qm) : NextKeeps qp qd qm (execXqResumeSkip fid q n s) := by
  subst hp hd hm
  unfold execXqResumeSkip
  simp

@[simp] theorem execXqResumeReset_kept {qp : List Instr} {qd qm : Memory} (fid q : Nat) (s : State) (hp
    : s.pending = qp) (hd : s.trw.dram = qd) (hm : s.trw.sram = qm) : NextKeeps qp qd qm (execXqResumeReset fid q s) := by
  subst hp hd hm
  unfold execXqResumeReset
  simp

@[simp] theorem execResumeApply_kept {qp : List Instr} {qd qm : Memory} (fid q : Nat) (s : State) (hp
    : s.pending = qp) (hd : s.trw.dram = qd) (hm : s.trw.sram = qm) : NextKeeps qp qd qm (execResumeApply fid q s) := by
  subst hp hd hm
  unfold execResumeApply
  dsimp only
  (repeat' split) <;> simp

@[simp] theorem jrnPersistAll_kept (s : State) : Keeps s (jrnPersistAll s) := by
  unfold jrnPersistAll
  simp

@[simp] theorem execJournalPersistTick_kept {qp : List Instr} {qd qm : Memory} (s : State) (hp : s.pending = qp) (hd
    : s.trw.dram = qd) (hm : s.trw.sram = qm) : NextKeeps qp qd qm (execJournalPersistTick s) := by
  subst hp hd hm
  unfold execJournalPersistTick
  simp

end Sys2Proof.Laws
end

