-- ==== Sys2Proof/Laws/KeptStore.lean ====
section
/-! SUPPORT. Each operation of the flow tiles' operations, Undercoat and the flash channels keeps the queue and the memories,
or (`_wf`) keeps the queue and leaves the memories in canonical form; one lemma per operation, for later proofs to cite
in place of unfolding it. -/

open Sys2Proof.Machine

namespace Sys2Proof.Laws

@[simp] theorem modTrw_kept (s : State) (f : Trowel → Trowel) :
    (modTrw s f).pending = s.pending ∧ (modTrw s f).trw = f s.trw := ⟨rfl, rfl⟩

@[simp] theorem setCtx_kept (s : State) (k : Nat) (c : Ctx) : Keeps s (setCtx s k c) := by
  unfold setCtx
  simp

@[simp] theorem modCtx_kept (s : State) (k : Nat) (f : Ctx → Ctx) : Keeps s (modCtx s k f) := by
  unfold modCtx
  simp

@[simp] theorem modTile_kept (s : State) (x1 : Nat) (f : Tile → Tile) : Keeps s (modTile s x1 f) := by
  unfold modTile
  simp

@[simp] theorem setTileRetired_kept (s : State) (p : Nat) : Keeps s (setTileRetired s p) := by
  unfold setTileRetired
  simp

@[simp] theorem showTiles_kept (s : State) : Keeps s (showTiles s) := by
  unfold showTiles
  simp

@[simp] theorem assignTiles_kept (s : State) (good : List Nat) : Keeps s (assignTiles s good) := by
  unfold assignTiles
  simp

@[simp] theorem csWrite_kept (s : State) (a w : Nat) : Keeps s (csWrite s a w) := by
  unfold csWrite
  simp

@[simp] theorem skimFill_kept (s : State) (sec : SkimSec) : Keeps s (skimFill s sec) := by
  unfold skimFill
  simp

@[simp] theorem bundleFill_kept (s : State) (b : BundleSec) : Keeps s (bundleFill s b) := by
  unfold bundleFill
  simp

@[simp] theorem startFlow_kept (s : State) (k seq : Nat) (c : Cmd) : Keeps s (startFlow s k seq c) := by
  unfold startFlow
  (repeat' split) <;> simp

@[simp] theorem freeCtx_kept (s : State) (k : Nat) : Keeps s (freeCtx s k) := by
  unfold freeCtx
  simp

@[simp] theorem freeBound_kept (s : State) (c : Cmd) : Keeps s (freeBound s c) := by
  unfold freeBound
  (repeat' split) <;> simp

@[simp] theorem abortFlow_kept (s : State) (k : Nat) : Keeps s (abortFlow s k) := by
  unfold abortFlow
  (repeat' split) <;> simp

@[simp] theorem faultLog_kept (s : State) (x1 c code addr seq : Nat) : Keeps s (faultLog s x1 c code addr seq) := by
  unfold faultLog
  simp

@[simp] theorem flowFault_kept (s : State) (x1 c code : Nat) : Keeps s (flowFault s x1 c code) := by
  unfold flowFault
  simp

@[simp] theorem execFlowAbort_kept {qp : List Instr} {qd qm : Memory} (x0 c : Nat) (undef : Bool) (s : State) (hp
    : s.pending = qp) (hd : s.trw.dram = qd) (hm : s.trw.sram = qm) : NextKeeps qp qd qm (execFlowAbort x0 c undef s) := by
  subst hp hd hm
  unfold execFlowAbort
  simp

@[simp] theorem execContextWatchdog_kept {qp : List Instr} {qd qm : Memory} (x0 c : Nat) (s : State) (hp
    : s.pending = qp) (hd : s.trw.dram = qd) (hm : s.trw.sram = qm) : NextKeeps qp qd qm (execContextWatchdog x0 c s) := by
  subst hp hd hm
  unfold execContextWatchdog
  simp

@[simp] theorem replayTile_kept (s : State) (x1 : Nat) : Keeps s (replayTile s x1) := by
  unfold replayTile
  simp (disch := (intros; (try dsimp only); (repeat' split) <;> simp (disch := (intros; (try dsimp only); (repeat' split) <;> simp (disch := (intros; (try dsimp only); (repeat' split) <;> simp))))))

@[simp] theorem tileFails_kept (s : State) (p : Nat) : Keeps s (tileFails s p) := by
  unfold tileFails
  dsimp only
  (repeat' split) <;> simp

@[simp] theorem execTileFail_kept {qp : List Instr} {qd qm : Memory} (p : Nat) (s : State) (hp : s.pending = qp) (hd
    : s.trw.dram = qd) (hm : s.trw.sram = qm) : NextKeeps qp qd qm (execTileFail p s) := by
  subst hp hd hm
  unfold execTileFail
  simp

@[simp] theorem execTileWatchdog_kept {qp : List Instr} {qd qm : Memory} (x0 : Nat) (s : State) (hp : s.pending = qp)
    (hd : s.trw.dram = qd) (hm : s.trw.sram = qm) : NextKeeps qp qd qm (execTileWatchdog x0 s) := by
  subst hp hd hm
  unfold execTileWatchdog
  simp

@[simp] theorem execSpareSelftest_kept {qp : List Instr} {qd qm : Memory} (p : Nat) (pass : Bool) (s : State) (hp
    : s.pending = qp) (hd : s.trw.dram = qd) (hm : s.trw.sram = qm) : NextKeeps qp qd qm (execSpareSelftest p pass s) := by
  subst hp hd hm
  unfold execSpareSelftest
  simp

@[simp] theorem execScrubRead_kept {qp : List Instr} {qd qm : Memory} (a outcome copy : Nat) (s : State) (hp
    : s.pending = qp) (hd : s.trw.dram = qd) (hm : s.trw.sram = qm) : NextKeeps qp qd qm
    (execScrubRead a outcome copy s) := by
  subst hp hd hm
  unfold execScrubRead
  simp

@[simp] theorem execCsWordRestore_kept {qp : List Instr} {qd qm : Memory} (a : Nat) (ok : Bool) (s : State) (hp
    : s.pending = qp) (hd : s.trw.dram = qd) (hm : s.trw.sram = qm) : NextKeeps qp qd qm (execCsWordRestore a ok s) := by
  subst hp hd hm
  unfold execCsWordRestore
  simp

@[simp] theorem execCsWindowSelect_kept {qp : List Instr} {qd qm : Memory} (value : Word) (s : State) (hp
    : s.pending = qp) (hd : s.trw.dram = qd) (hm : s.trw.sram = qm) : NextKeeps qp qd qm (execCsWindowSelect value s) := by
  subst hp hd hm
  unfold execCsWindowSelect
  simp

@[simp] theorem cacheTouch_kept (s : State) (x1 line w : Nat) : Keeps s (cacheTouch s x1 line w) := by
  unfold cacheTouch
  simp

@[simp] theorem cacheFill_kept (s : State) (x1 line data : Nat) : Keeps s (cacheFill s x1 line data) := by
  unfold cacheFill
  simp

@[simp] theorem cacheDrop_kept (s : State) (x1 : Nat) (p : Nat → Bool) : Keeps s (cacheDrop s x1 p) := by
  unfold cacheDrop
  simp

@[simp] theorem execSnoopInvalidate_kept {qp : List Instr} {qd qm : Memory} (x0 line : Nat) (s : State) (hp
    : s.pending = qp) (hd : s.trw.dram = qd) (hm : s.trw.sram = qm) : NextKeeps qp qd qm
    (execSnoopInvalidate x0 line s) := by
  subst hp hd hm
  unfold execSnoopInvalidate
  simp

@[simp] theorem execSnoopFilterCover_kept {qp : List Instr} {qd qm : Memory} (c : Nat) (s : State) (hp
    : s.pending = qp) (hd : s.trw.dram = qd) (hm : s.trw.sram = qm) : NextKeeps qp qd qm (execSnoopFilterCover c s) := by
  subst hp hd hm
  unfold execSnoopFilterCover
  dsimp only
  (repeat' split) <;> simp

@[simp] theorem execStcsComplete_kept {qp : List Instr} {qd qm : Memory} (s : State) (hp : s.pending = qp) (hd
    : s.trw.dram = qd) (hm : s.trw.sram = qm) : NextKeeps qp qd qm (execStcsComplete s) := by
  subst hp hd hm
  unfold execStcsComplete
  (repeat' split) <;> simp

@[simp] theorem countDiscard_kept (s : State) : Keeps s (countDiscard s) := by
  unfold countDiscard
  simp

@[simp] theorem goTo_kept (s : State) (k a : Nat) (x : Ctx) : Keeps s (goTo s k a x) := by
  unfold goTo
  simp

@[simp] theorem endFlow_kept (s : State) (k : Nat) (x : Ctx) : Keeps s (endFlow s k x) := by
  unfold endFlow
  (repeat' split) <;> simp

@[simp] theorem sequence_kept (s : State) (k : Nat) (x x' : Ctx) (m : MWord) : Keeps s (Machine.sequence s k x x' m) := by
  unfold Machine.sequence
  (repeat' split) <;> simp

@[simp] theorem microDone_kept (s : State) (x1 c : Nat) (x x' : Ctx) (m : MWord) : Keeps s (microDone s x1 c x x' m) := by
  unfold microDone
  (repeat' split) <;> simp

@[simp] theorem microOp_kept (o x1 c : Nat) (f : Ctx → MWord → Ctx) (s : State) : Keeps s (microOp o x1 c f s) := by
  unfold microOp
  (repeat' split) <;> simp

@[simp] theorem execNop_kept {qp : List Instr} {qd qm : Memory} (x0 c : Nat) (s : State) (hp : s.pending = qp) (hd
    : s.trw.dram = qd) (hm : s.trw.sram = qm) : NextKeeps qp qd qm (execNop x0 c s) := by
  subst hp hd hm
  unfold execNop
  simp

@[simp] theorem execAdd_kept {qp : List Instr} {qd qm : Memory} (x0 c : Nat) (s : State) (hp : s.pending = qp) (hd
    : s.trw.dram = qd) (hm : s.trw.sram = qm) : NextKeeps qp qd qm (execAdd x0 c s) := by
  subst hp hd hm
  unfold execAdd
  simp

@[simp] theorem execSub_kept {qp : List Instr} {qd qm : Memory} (x0 c : Nat) (s : State) (hp : s.pending = qp) (hd
    : s.trw.dram = qd) (hm : s.trw.sram = qm) : NextKeeps qp qd qm (execSub x0 c s) := by
  subst hp hd hm
  unfold execSub
  simp

@[simp] theorem execAnd_kept {qp : List Instr} {qd qm : Memory} (x0 c : Nat) (s : State) (hp : s.pending = qp) (hd
    : s.trw.dram = qd) (hm : s.trw.sram = qm) : NextKeeps qp qd qm (execAnd x0 c s) := by
  subst hp hd hm
  unfold execAnd
  simp

@[simp] theorem execOr_kept {qp : List Instr} {qd qm : Memory} (x0 c : Nat) (s : State) (hp : s.pending = qp) (hd
    : s.trw.dram = qd) (hm : s.trw.sram = qm) : NextKeeps qp qd qm (execOr x0 c s) := by
  subst hp hd hm
  unfold execOr
  simp

@[simp] theorem execXor_kept {qp : List Instr} {qd qm : Memory} (x0 c : Nat) (s : State) (hp : s.pending = qp) (hd
    : s.trw.dram = qd) (hm : s.trw.sram = qm) : NextKeeps qp qd qm (execXor x0 c s) := by
  subst hp hd hm
  unfold execXor
  simp

@[simp] theorem execShl_kept {qp : List Instr} {qd qm : Memory} (x0 c : Nat) (s : State) (hp : s.pending = qp) (hd
    : s.trw.dram = qd) (hm : s.trw.sram = qm) : NextKeeps qp qd qm (execShl x0 c s) := by
  subst hp hd hm
  unfold execShl
  simp

@[simp] theorem execShr_kept {qp : List Instr} {qd qm : Memory} (x0 c : Nat) (s : State) (hp : s.pending = qp) (hd
    : s.trw.dram = qd) (hm : s.trw.sram = qm) : NextKeeps qp qd qm (execShr x0 c s) := by
  subst hp hd hm
  unfold execShr
  simp

@[simp] theorem execSar_kept {qp : List Instr} {qd qm : Memory} (x0 c : Nat) (s : State) (hp : s.pending = qp) (hd
    : s.trw.dram = qd) (hm : s.trw.sram = qm) : NextKeeps qp qd qm (execSar x0 c s) := by
  subst hp hd hm
  unfold execSar
  simp

@[simp] theorem execMov_kept {qp : List Instr} {qd qm : Memory} (x0 c : Nat) (s : State) (hp : s.pending = qp) (hd
    : s.trw.dram = qd) (hm : s.trw.sram = qm) : NextKeeps qp qd qm (execMov x0 c s) := by
  subst hp hd hm
  unfold execMov
  simp

@[simp] theorem execCmp_kept {qp : List Instr} {qd qm : Memory} (x0 c : Nat) (s : State) (hp : s.pending = qp) (hd
    : s.trw.dram = qd) (hm : s.trw.sram = qm) : NextKeeps qp qd qm (execCmp x0 c s) := by
  subst hp hd hm
  unfold execCmp
  simp

@[simp] theorem execTst_kept {qp : List Instr} {qd qm : Memory} (x0 c : Nat) (s : State) (hp : s.pending = qp) (hd
    : s.trw.dram = qd) (hm : s.trw.sram = qm) : NextKeeps qp qd qm (execTst x0 c s) := by
  subst hp hd hm
  unfold execTst
  simp

@[simp] theorem execMul_kept {qp : List Instr} {qd qm : Memory} (x0 c : Nat) (s : State) (hp : s.pending = qp) (hd
    : s.trw.dram = qd) (hm : s.trw.sram = qm) : NextKeeps qp qd qm (execMul x0 c s) := by
  subst hp hd hm
  unfold execMul
  simp

@[simp] theorem execMinu_kept {qp : List Instr} {qd qm : Memory} (x0 c : Nat) (s : State) (hp : s.pending = qp) (hd
    : s.trw.dram = qd) (hm : s.trw.sram = qm) : NextKeeps qp qd qm (execMinu x0 c s) := by
  subst hp hd hm
  unfold execMinu
  simp

@[simp] theorem execMaxu_kept {qp : List Instr} {qd qm : Memory} (x0 c : Nat) (s : State) (hp : s.pending = qp) (hd
    : s.trw.dram = qd) (hm : s.trw.sram = qm) : NextKeeps qp qd qm (execMaxu x0 c s) := by
  subst hp hd hm
  unfold execMaxu
  simp

@[simp] theorem execExt_kept {qp : List Instr} {qd qm : Memory} (x0 c : Nat) (s : State) (hp : s.pending = qp) (hd
    : s.trw.dram = qd) (hm : s.trw.sram = qm) : NextKeeps qp qd qm (execExt x0 c s) := by
  subst hp hd hm
  unfold execExt
  simp

@[simp] theorem execIns_kept {qp : List Instr} {qd qm : Memory} (x0 c : Nat) (s : State) (hp : s.pending = qp) (hd
    : s.trw.dram = qd) (hm : s.trw.sram = qm) : NextKeeps qp qd qm (execIns x0 c s) := by
  subst hp hd hm
  unfold execIns
  simp

@[simp] theorem execClz_kept {qp : List Instr} {qd qm : Memory} (x0 c : Nat) (s : State) (hp : s.pending = qp) (hd
    : s.trw.dram = qd) (hm : s.trw.sram = qm) : NextKeeps qp qd qm (execClz x0 c s) := by
  subst hp hd hm
  unfold execClz
  simp

@[simp] theorem execPopc_kept {qp : List Instr} {qd qm : Memory} (x0 c : Nat) (s : State) (hp : s.pending = qp) (hd
    : s.trw.dram = qd) (hm : s.trw.sram = qm) : NextKeeps qp qd qm (execPopc x0 c s) := by
  subst hp hd hm
  unfold execPopc
  simp

@[simp] theorem execCrc_kept {qp : List Instr} {qd qm : Memory} (x0 c : Nat) (s : State) (hp : s.pending = qp) (hd
    : s.trw.dram = qd) (hm : s.trw.sram = qm) : NextKeeps qp qd qm (execCrc x0 c s) := by
  subst hp hd hm
  unfold execCrc
  simp

@[simp] theorem execFenceW_kept {qp : List Instr} {qd qm : Memory} (x0 c : Nat) (s : State) (hp : s.pending = qp) (hd
    : s.trw.dram = qd) (hm : s.trw.sram = qm) : NextKeeps qp qd qm (execFenceW x0 c s) := by
  subst hp hd hm
  unfold execFenceW
  (repeat' split) <;> simp

@[simp] theorem execSend_kept {qp : List Instr} {qd qm : Memory} (x0 c : Nat) (s : State) (hp : s.pending = qp) (hd
    : s.trw.dram = qd) (hm : s.trw.sram = qm) : NextKeeps qp qd qm (execSend x0 c s) := by
  subst hp hd hm
  unfold execSend
  (repeat' split) <;> simp

@[simp] theorem execWait_kept {qp : List Instr} {qd qm : Memory} (x0 c : Nat) (s : State) (hp : s.pending = qp) (hd
    : s.trw.dram = qd) (hm : s.trw.sram = qm) : NextKeeps qp qd qm (execWait x0 c s) := by
  subst hp hd hm
  unfold execWait
  (repeat' split) <;> simp

@[simp] theorem execPoll_kept {qp : List Instr} {qd qm : Memory} (x0 c : Nat) (s : State) (hp : s.pending = qp) (hd
    : s.trw.dram = qd) (hm : s.trw.sram = qm) : NextKeeps qp qd qm (execPoll x0 c s) := by
  subst hp hd hm
  unfold execPoll
  (repeat' split) <;> simp

@[simp] theorem execMessageArrival_kept {qp : List Instr} {qd qm : Memory} (x0 c : Nat) (ws : List DWord) (s : State)
    (hp : s.pending = qp) (hd : s.trw.dram = qd) (hm : s.trw.sram = qm) : NextKeeps qp qd qm
    (execMessageArrival x0 c ws s) := by
  subst hp hd hm
  unfold execMessageArrival
  dsimp only
  (repeat' split) <;> simp

@[simp] theorem execWaitTimeout_kept {qp : List Instr} {qd qm : Memory} (x0 c : Nat) (s : State) (hp : s.pending = qp)
    (hd : s.trw.dram = qd) (hm : s.trw.sram = qm) : NextKeeps qp qd qm (execWaitTimeout x0 c s) := by
  subst hp hd hm
  unfold execWaitTimeout
  dsimp only
  (repeat' split) <;> simp

@[simp] theorem execTime_kept {qp : List Instr} {qd qm : Memory} (x0 c : Nat) (s : State) (hp : s.pending = qp) (hd
    : s.trw.dram = qd) (hm : s.trw.sram = qm) : NextKeeps qp qd qm (execTime x0 c s) := by
  subst hp hd hm
  unfold execTime
  simp

@[simp] theorem execStcs_kept {qp : List Instr} {qd qm : Memory} (x0 c : Nat) (s : State) (hp : s.pending = qp) (hd
    : s.trw.dram = qd) (hm : s.trw.sram = qm) : NextKeeps qp qd qm (execStcs x0 c s) := by
  subst hp hd hm
  unfold execStcs
  (repeat' split) <;> simp

@[simp] theorem setStage_kept (s : State) (seq : Nat) (c : Cmd) : Keeps s (setStage s seq c) := by
  unfold setStage
  simp

@[simp] theorem execSkimInstall_kept {qp : List Instr} {qd qm : Memory} (seq : Nat) (blob : SkimBlob) (s : State) (hp
    : s.pending = qp) (hd : s.trw.dram = qd) (hm : s.trw.sram = qm) : NextKeeps qp qd qm (execSkimInstall seq blob s) := by
  subst hp hd hm
  unfold execSkimInstall
  (repeat' split) <;> simp

@[simp] theorem execSkimInstallDrained_kept {qp : List Instr} {qd qm : Memory} (match_ : Bool) (s : State) (hp
    : s.pending = qp) (hd : s.trw.dram = qd) (hm : s.trw.sram = qm) : NextKeeps qp qd qm
    (execSkimInstallDrained match_ s) := by
  subst hp hd hm
  unfold execSkimInstallDrained
  (repeat' split) <;> simp

@[simp] theorem abandonInstall_kept (s : State) : Keeps s (abandonInstall s) := by
  unfold abandonInstall
  simp

@[simp] theorem modChan_kept (s : State) (c : Nat) (f : FlashChan → FlashChan) : Keeps s (modChan s c f) := by
  unfold modChan
  simp

@[simp] theorem modRow_kept (s : State) (c lun row : Nat) (f : FlashRow → FlashRow) : Keeps s (modRow s c lun row f) := by
  unfold modRow
  simp

@[simp] theorem showDump_kept (s : State) : Keeps s (showDump s) := by
  unfold showDump
  simp

@[simp] theorem modUdc_kept (s : State) (f : Undercoat → Undercoat) : Keeps s (modUdc s f) := by
  unfold modUdc
  simp

@[simp] theorem modPools_kept (s : State) (f : PoolNv → PoolNv) : Keeps s (modPools s f) := by
  unfold modPools
  simp

@[simp] theorem logRecord_kept (s : State) (n : Nat) : Keeps s (logRecord s n) := by
  unfold logRecord
  simp

@[simp] theorem modSeg_kept (s : State) (disk : Bool) (seg : Nat) (f : SegRec → SegRec) : Keeps s
    (modSeg s disk seg f) := by
  unfold modSeg
  simp

@[simp] theorem modStripe_kept (s : State) (disk : Bool) (seg stripe : Nat) (f : StripeRec → StripeRec) : Keeps s
    (modStripe s disk seg stripe f) := by
  unfold modStripe
  simp

@[simp] theorem setGran_kept (s : State) (x1 n g : Nat) (e : GranEntry) : Keeps s (setGran s x1 n g e) := by
  unfold setGran
  simp

@[simp] theorem setExt_kept (s : State) (x1 n x : Nat) (e : Extent) : Keeps s (setExt s x1 n x e) := by
  unfold setExt
  simp

@[simp] theorem setEntry_kept (s : State) (x1 n pool g : Nat) (e : GranEntry) : Keeps s (setEntry s x1 n pool g e) := by
  unfold setEntry
  simp

@[simp] theorem markLost_kept (s : State) (id : GranId) (pool : Nat) : Keeps s (markLost s id pool) := by
  unfold markLost
  simp

@[simp] theorem modSlot_kept (s : State) (i : Nat) (f : Slot → Slot) : Keeps s (modSlot s i f) := by
  unfold modSlot
  simp

@[simp] theorem reserveSlots_kept (s : State) (seq k : Nat) : Keeps s (reserveSlots s seq k).2 := by
  unfold reserveSlots
  simp

@[simp] theorem freeSlot_kept (s : State) (i : Nat) : Keeps s (freeSlot s i) := by
  unfold freeSlot
  simp

@[simp] theorem bufferGranule_kept (s : State) (id : GranId) (pool seq i clen : Nat) (bs : List (Nat × Nat)) (fill :
    (List (Nat × Nat))) : Keeps s (bufferGranule s id pool seq i clen bs fill).2 := by
  unfold bufferGranule
  (repeat' split) <;> simp

@[simp] theorem takeDefects_kept (s : State) (seg : Nat) : Keeps s (takeDefects s seg) := by
  unfold takeDefects
  (repeat' split) <;> simp

@[simp] theorem openStripe_kept {qp : List Instr} {qd qm : Memory} (s : State) (x1 : Nat) (hp : s.pending = qp) (hd
    : s.trw.dram = qd) (hm : s.trw.sram = qm) : SomeKeeps qp qd qm (openStripe s x1) := by
  subst hp hd hm
  unfold openStripe
  split
  · simp
  · intro t e
    obtain ⟨⟨i, u⟩, hu, rfl⟩ := Option.map_eq_some_iff.mp e
    have k : u.pending = s.pending ∧ u.trw.dram = s.trw.dram ∧ u.trw.sram = s.trw.sram := by
      cases h : headSegment s x1 with
      | some j =>
        rw [h] at hu
        cases hu
        simp
      | none =>
        rw [h] at hu
        obtain ⟨j, _, e⟩ := Option.map_eq_some_iff.mp hu
        cases e
        cases headDisk x1 <;> simp
    simpa using k

@[simp] theorem modOpen_kept (s : State) (disk : Bool) (seg stripe : Nat) (f : OpenStripe → OpenStripe) : Keeps s
    (modOpen s disk seg stripe f) := by
  unfold modOpen
  simp

@[simp] theorem appendGranule_kept {qp : List Instr} {qd qm : Memory} (s : State) (x1 : Nat) (us : List Nat) (p
    : StripePart) (hp : s.pending = qp) (hd : s.trw.dram = qd) (hm : s.trw.sram = qm) : SomeKeeps qp qd qm
    (appendGranule s x1 us p) := by
  subst hp hd hm
  have fresh : ∀ v : State, v.pending = s.pending → v.trw.dram = s.trw.dram → v.trw.sram = s.trw.sram →
      SomeKeeps s.pending s.trw.dram s.trw.sram ((openStripe v x1).bind fun s =>
        (fillingStripe s x1).map fun o => modOpen s (headDisk x1) o.seg o.stripe fun o => o.add us p s.tb.ns) := by
    intro v a b c
    refine SomeKeeps.bind fun u hu => ?_
    obtain ⟨a', b', c'⟩ := SomeKeeps.of hu (openStripe_kept v _ rfl rfl rfl)
    intro t e
    obtain ⟨o, _, rfl⟩ := Option.map_eq_some_iff.mp e
    simp [a, b, c, a', b', c']
  unfold appendGranule
  dsimp only
  split
  · exact fresh s rfl rfl rfl
  · split
    · simp
    · exact fresh _ (by simp) (by simp) (by simp)

@[simp] theorem appendUnits_kept {qp : List Instr} {qd qm : Memory} (a0 : Nat) (s : State) (a2 : Nat) (a3 : List Nat)
    (a4 : Option (Nat × Nat)) (a5 : StripePart) (hp : s.pending = qp) (hd : s.trw.dram = qd) (hm : s.trw.sram = qm)
    : SomeKeeps qp qd qm (appendUnits a0 s a2 a3 a4 a5) := by
  induction a0 generalizing s a3 a4 with
  | zero => simp [appendUnits]
  | succ n ih =>
    unfold appendUnits
    split
    · exact SomeKeeps.bind fun u hu => by
        obtain ⟨a, b, c⟩ := SomeKeeps.of hu (openStripe_kept s _ rfl rfl rfl)
        exact ih u _ _ (a.trans hp) (b.trans hd) (c.trans hm)
    · dsimp only
      split
      · simp [hp, hd, hm]
      · exact ih _ _ _ (by simp [hp]) (by simp [hd]) (by simp [hm])

@[simp] theorem appendExtent_kept {qp : List Instr} {qd qm : Memory} (s : State) (x1 : Nat) (us : List Nat) (p
    : StripePart) (hp : s.pending = qp) (hd : s.trw.dram = qd) (hm : s.trw.sram = qm) : SomeKeeps qp qd qm
    (appendExtent s x1 us p) := by
  subst hp hd hm
  unfold appendExtent
  dsimp only
  (repeat' split) <;> simp

@[simp] theorem noteFull_kept (s : State) : Keeps s (noteFull s) := by
  unfold noteFull
  simp

@[simp] theorem noteNarrow_kept (s : State) : Keeps s (noteNarrow s) := by
  unfold noteNarrow
  simp

@[simp] theorem showGeom_kept (s : State) : Keeps s (showGeom s) := by
  unfold showGeom
  simp

@[simp] theorem chargeMember_kept (s : State) (disk : Bool) (m side : Nat) : Keeps s (chargeMember s disk m side) := by
  unfold chargeMember
  simp

@[simp] theorem rePrev_kept (s : State) (i : Nat) (e : GranEntry) : Keeps s (rePrev s i e) := by
  unfold rePrev
  simp

@[simp] theorem applyGran_kept (s : State) (disk : Bool) (seg : Nat) (p : StripePart) : Keeps s
    (applyGran s disk seg p).2 := by
  unfold applyGran
  (repeat' split) <;> simp

@[simp] theorem applyExt_kept (s : State) (seg : Nat) (p : StripePart) : Keeps s (applyExt s seg p) := by
  unfold applyExt
  simp

@[simp] theorem applyUp_kept (s : State) (p : StripePart) : Keeps s (applyUp s p) := by
  unfold applyUp
  simp

@[simp] theorem applyParts_kept (s : State) (disk : Bool) (seg : Nat) (a3 : List StripePart) : Keeps s
    (applyParts s disk seg a3).2 := by
  fun_induction applyParts s disk seg a3 with
  | case1 => simp
  | case2 s p rest ok u hu m d v hv ih =>
    rw [hv] at ih
    have k : u.pending = s.pending ∧ u.trw.dram = s.trw.dram ∧ u.trw.sram = s.trw.sram := by
      have h := congrArg Prod.snd hu
      simp only at h
      subst h
      repeat' split
      all_goals simp
    exact ⟨ih.1.trans k.1, ih.2.1.trans k.2.1, ih.2.2.trans k.2.2⟩

@[simp] theorem closeIfDone_kept (s : State) (disk : Bool) (seg : Nat) : Keeps s (closeIfDone s disk seg) := by
  unfold closeIfDone
  simp

@[simp] theorem sealStripe_kept (s : State) (o : OpenStripe) : Keeps s (sealStripe s o) := by
  unfold sealStripe
  simp

@[simp] theorem rejoin_kept (s : State) (x1 : Nat) (units : List Nat) (a3 : List StripePart) : Keeps s
    (rejoin s x1 units a3) := by
  fun_induction rejoin s x1 units a3 with
  | case1 => simp
  | case2 s p rest t ih =>
    have h : t.pending = s.pending ∧ t.trw.dram = s.trw.dram ∧ t.trw.sram = s.trw.sram := by
      unfold t
      dsimp only
      split
      · simp
      · split
        · rename_i h
          exact SomeKeeps.of h (by simp)
        · split <;> simp
    exact ⟨ih.1.trans h.1, ih.2.1.trans h.2.1, ih.2.2.trans h.2.2⟩

@[simp] theorem abandonStripe_kept (s : State) (o : OpenStripe) : Keeps s (abandonStripe s o) := by
  unfold abandonStripe
  simp

@[simp] theorem execStripeSeal_kept {qp : List Instr} {qd qm : Memory} (disk : Bool) (seg stripe : Nat) (parityOk
    : Bool) (s : State) (hp : s.pending = qp) (hd : s.trw.dram = qd) (hm : s.trw.sram = qm) : NextKeeps qp qd qm
    (execStripeSeal disk seg stripe parityOk s) := by
  subst hp hd hm
  unfold execStripeSeal
  (repeat' split) <;> simp

@[simp] theorem execSealTimeout_kept {qp : List Instr} {qd qm : Memory} (disk : Bool) (seg stripe : Nat) (s : State)
    (hp : s.pending = qp) (hd : s.trw.dram = qd) (hm : s.trw.sram = qm) : NextKeeps qp qd qm
    (execSealTimeout disk seg stripe s) := by
  subst hp hd hm
  unfold execSealTimeout
  (repeat' split) <;> simp

@[simp] theorem execStripWriteFail_kept {qp : List Instr} {qd qm : Memory} (disk : Bool) (seg stripe m : Nat) (s
    : State) (hp : s.pending = qp) (hd : s.trw.dram = qd) (hm : s.trw.sram = qm) : NextKeeps qp qd qm
    (execStripWriteFail disk seg stripe m s) := by
  subst hp hd hm
  unfold execStripWriteFail
  (repeat' split) <;> simp

@[simp] theorem execDestageTake_kept {qp : List Instr} {qd qm : Memory} (bad : List BadBlock) (s : State) (hp
    : s.pending = qp) (hd : s.trw.dram = qd) (hm : s.trw.sram = qm) : NextKeeps qp qd qm (execDestageTake bad s) := by
  subst hp hd hm
  unfold execDestageTake
  dsimp only
  repeat' split
  all_goals first
    | (simp; done)
    | (have k := SomeKeeps.of ‹appendGranule _ _ _ _ = some _› (appendGranule_kept _ _ _ _ rfl rfl rfl); simp [k]; done)
    | (have k := SomeKeeps.of ‹appendGranule _ _ _ _ = some _› (appendGranule_kept _ _ _ _ rfl rfl rfl); split <;> simp [k])

/-- A part's move keeps the queue and the two memories where it is done. -/
def MovedKeeps (p : List Instr) (d m : Memory) (o : Moved) : Prop :=
  ∀ t, o = .done t → t.pending = p ∧ t.trw.dram = d ∧ t.trw.sram = m

@[simp] theorem movedKeeps_done (p : List Instr) (d m : Memory) (t : State) :
    MovedKeeps p d m (.done t) ↔ t.pending = p ∧ t.trw.dram = d ∧ t.trw.sram = m :=   ⟨fun h => h t rfl, fun h _ e => by injection e with e; exact e ▸ h⟩

@[simp] theorem movedKeeps_waits (p : List Instr) (d m : Memory) : MovedKeeps p d m .waits := fun _ e => by cases e

theorem moveGran_kept (s : State) (disk : Bool) (seg : Nat) (p : StripePart) (bad : List BadBlock) :
    MovedKeeps s.pending s.trw.dram s.trw.sram (moveGran s disk seg p bad) := by
  unfold moveGran
  dsimp only
  repeat' split
  all_goals first | exact (movedKeeps_done ..).mpr (SomeKeeps.of ‹appendGranule _ _ _ _ = _› (by simp)) | simp

theorem moveExt_kept (s : State) (seg : Nat) (p : StripePart) (bad : List BadBlock) :
    MovedKeeps s.pending s.trw.dram s.trw.sram (moveExt s seg p bad) := by
  unfold moveExt
  dsimp only
  split
  · simp
  split
  · simp
  split
  · refine (movedKeeps_done ..).mpr (SomeKeeps.of ‹appendExtent _ _ _ _ = _› (by simp))
  · simp

theorem moveParts_kept (s : State) (disk : Bool) (seg : Nat) (bad : List BadBlock) (ps : List StripePart) :
    MovedKeeps s.pending s.trw.dram s.trw.sram (moveParts s disk seg bad ps) := by
  induction ps generalizing s with
  | nil => simp [moveParts]
  | cons p ps ih =>
    unfold moveParts
    split
    · simp
    · rename_i u h
      have k : u.pending = s.pending ∧ u.trw.dram = s.trw.dram ∧ u.trw.sram = s.trw.sram := by
        split at h
        · exact moveExt_kept _ _ _ _ u h
        · split at h
          · cases h
            simp
          · exact moveGran_kept _ _ _ _ _ u h
      rw [← k.1, ← k.2.1, ← k.2.2]
      exact ih u

@[simp] theorem relocate_kept {qp : List Instr} {qd qm : Memory} (s : State) (disk : Bool) (seg : Nat) (bad
    : List BadBlock) (hp : s.pending = qp) (hd : s.trw.dram = qd) (hm : s.trw.sram = qm) : SomeKeeps qp qd qm
    (relocate s disk seg bad) := by
  subst hp hd hm
  unfold relocate
  split
  · simp
  · rename_i u h
    simpa using moveParts_kept _ _ _ _ _ u h

@[simp] theorem noteRebuild_kept (s : State) : Keeps s (noteRebuild s) := by
  unfold noteRebuild
  simp

@[simp] theorem loseStrips_kept (s : State) (disk : Bool) (seg m : Nat) : Keeps s (loseStrips s disk seg m) := by
  unfold loseStrips
  dsimp only
  (repeat' split) <;> simp

@[simp] theorem closeSegment_kept (s : State) (disk : Bool) (seg : Nat) : Keeps s (closeSegment s disk seg) := by
  unfold closeSegment
  simp

@[simp] theorem memberGone_kept (s : State) (disk : Bool) (m : Nat) (sub : Option Nat) : Keeps s
    (memberGone s disk m sub) := by
  unfold memberGone
  simp

@[simp] theorem execMemberRetire_kept {qp : List Instr} {qd qm : Memory} (disk : Bool) (m : Nat) (sub : Option Nat) (s
    : State) (hp : s.pending = qp) (hd : s.trw.dram = qd) (hm : s.trw.sram = qm) : NextKeeps qp qd qm
    (execMemberRetire disk m sub s) := by
  subst hp hd hm
  unfold execMemberRetire
  simp

@[simp] theorem execRebuildVisit_kept {qp : List Instr} {qd qm : Memory} (disk : Bool) (bad : List BadBlock) (s
    : State) (hp : s.pending = qp) (hd : s.trw.dram = qd) (hm : s.trw.sram = qm) : NextKeeps qp qd qm
    (execRebuildVisit disk bad s) := by
  subst hp hd hm
  unfold execRebuildVisit
  repeat' split
  all_goals try simp
  all_goals refine SomeKeeps.getD (SomeKeeps.map ?_ noteRebuild fun t => ?_) <;> simp

@[simp] theorem execGcCollect_kept {qp : List Instr} {qd qm : Memory} (disk : Bool) (bad : List BadBlock) (s : State)
    (hp : s.pending = qp) (hd : s.trw.dram = qd) (hm : s.trw.sram = qm) : NextKeeps qp qd qm
    (execGcCollect disk bad s) := by
  subst hp hd hm
  unfold execGcCollect
  repeat' split
  all_goals try simp
  all_goals refine SomeKeeps.getD (SomeKeeps.map ?_ noteFull fun t => ?_) <;> simp

@[simp] theorem eraseRows_kept (s : State) (seg : Nat) (members : List Nat) : Keeps s (eraseRows s seg members) := by
  unfold eraseRows
  simp (disch := (intros; (try dsimp only); (repeat' split) <;> simp (disch := (intros; (try dsimp only); (repeat' split) <;> simp (disch := (intros; (try dsimp only); (repeat' split) <;> simp))))))

@[simp] theorem execSegmentErase_kept {qp : List Instr} {qd qm : Memory} (disk : Bool) (seg : Nat) (s : State) (hp
    : s.pending = qp) (hd : s.trw.dram = qd) (hm : s.trw.sram = qm) : NextKeeps qp qd qm (execSegmentErase disk seg s) := by
  subst hp hd hm
  unfold execSegmentErase
  simp

@[simp] theorem rewriteExtent_kept {qp : List Instr} {qd qm : Memory} (s : State) (x1 : Nat) (id : GranId) (pool
    : Nat) (clens : List Nat) (bad : List BadBlock) (hp : s.pending = qp) (hd : s.trw.dram = qd) (hm
    : s.trw.sram = qm) : SomeKeeps qp qd qm (rewriteExtent s x1 id pool clens bad) := by
  subst hp hd hm
  unfold rewriteExtent
  simp

@[simp] theorem markUnreadable_kept (s : State) (id : GranId) (pool : Nat) (bad : List BadBlock) : Keeps s
    (markUnreadable s id pool bad) := by
  unfold markUnreadable
  refine foldl_kept _ _ _ fun s j => ?_
  split <;> simp

@[simp] theorem execExtentDestage_kept {qp : List Instr} {qd qm : Memory} (x0 n x : Nat) (clens : List Nat) (bad
    : List BadBlock) (s : State) (hp : s.pending = qp) (hd : s.trw.dram = qd) (hm : s.trw.sram = qm)
    : NextKeeps qp qd qm (execExtentDestage x0 n x clens bad s) := by
  subst hp hd hm
  have g : ∀ (u : State) (o : Option State), SomeKeeps u.pending u.trw.dram u.trw.sram o → u.pending = s.pending →
      u.trw.dram = s.trw.dram → u.trw.sram = s.trw.sram →
      NextKeeps s.pending s.trw.dram s.trw.sram (.next (o.getD u)) := fun u o h a b c => by
    have k := h.getD
    simp [k.1, k.2.1, k.2.2, a, b, c]
  unfold execExtentDestage
  dsimp only
  repeat' split
  all_goals first | exact g _ _ (by simp) (by simp) (by simp) (by simp) | simp

@[simp] theorem execHeatDecay_kept {qp : List Instr} {qd qm : Memory} (s : State) (hp : s.pending = qp) (hd
    : s.trw.dram = qd) (hm : s.trw.sram = qm) : NextKeeps qp qd qm (execHeatDecay s) := by
  subst hp hd hm
  unfold execHeatDecay
  simp

@[simp] theorem moveUp_kept {qp : List Instr} {qd qm : Memory} (s : State) (id : GranId) (pool : Nat) (bad
    : List BadBlock) (hp : s.pending = qp) (hd : s.trw.dram = qd) (hm : s.trw.sram = qm) : SomeKeeps qp qd qm
    (moveUp s id pool bad) := by
  subst hp hd hm
  have g : ∀ (l : List (Nat × GranEntry)) (o : Option State), SomeKeeps s.pending s.trw.dram s.trw.sram o →
      SomeKeeps s.pending s.trw.dram s.trw.sram (l.foldl (fun (acc : Option State) m => acc.bind fun s =>
        let e := if m.2.kind = 2 then (getSlot s m.2.slot).prev else m.2
        if e.kind ≠ 1 then some s
        else match mediaUnits s e (4 - e.clen) bad (64 * id.gran + m.1) with
          | .error _ => none
          | .ok us => appendGranule s 2 us { id := { id with gran := 64 * id.gran + m.1 }, clen := e.clen, gen := e.gen,
                                             what := 3 }) o) := by
    intro l
    induction l with
    | nil => exact fun o h => h
    | cons m l ih =>
      refine fun o h => ih _ (SomeKeeps.bind fun u hu => ?_)
      obtain ⟨a, b, c⟩ := h u hu
      dsimp only
      repeat' split
      all_goals simp [a, b, c]
  unfold moveUp
  dsimp only
  refine SomeKeeps.bind fun u hu => ?_
  obtain ⟨a, b, c⟩ := g _ _ (by simp) u hu
  simp [a, b, c]

@[simp] theorem execSettlingMove_kept {qp : List Instr} {qd qm : Memory} (x0 n x : Nat) (up : Bool) (clens : List Nat)
    (bad : List BadBlock) (s : State) (hp : s.pending = qp) (hd : s.trw.dram = qd) (hm : s.trw.sram = qm)
    : NextKeeps qp qd qm (execSettlingMove x0 n x up clens bad s) := by
  subst hp hd hm
  have g : ∀ (u : State) (o : Option State), SomeKeeps u.pending u.trw.dram u.trw.sram o → u.pending = s.pending →
      u.trw.dram = s.trw.dram → u.trw.sram = s.trw.sram →
      NextKeeps s.pending s.trw.dram s.trw.sram (.next (o.getD u)) := fun u o h a b c => by
    have k := h.getD
    simp [k.1, k.2.1, k.2.2, a, b, c]
  unfold execSettlingMove
  dsimp only
  repeat' split
  all_goals first | exact g _ _ (by simp) (by simp) (by simp) (by simp) | simp

@[simp] theorem execReshapeGo_kept {qp : List Instr} {qd qm : Memory} (value : Word) (s : State) (hp : s.pending = qp)
    (hd : s.trw.dram = qd) (hm : s.trw.sram = qm) : NextKeeps qp qd qm (execReshapeGo value s) := by
  subst hp hd hm
  unfold execReshapeGo
  simp

@[simp] theorem reshapeEnd_kept (s : State) : Keeps s (reshapeEnd s) := by
  unfold reshapeEnd
  simp

@[simp] theorem execReshapeVisit_kept {qp : List Instr} {qd qm : Memory} (bad : List BadBlock) (s : State) (hp
    : s.pending = qp) (hd : s.trw.dram = qd) (hm : s.trw.sram = qm) : NextKeeps qp qd qm (execReshapeVisit bad s) := by
  subst hp hd hm
  unfold execReshapeVisit
  split
  · simp
  · split
    · simp
    · rename_i r _ _
      generalize hx : (if r.visited = r.commit then _ else (r, s) : Reshape × State) = y
      have k : y.2.pending = s.pending ∧ y.2.trw.dram = s.trw.dram ∧ y.2.trw.sram = s.trw.sram := by
        subst hx
        split <;> simp
      obtain ⟨r', u⟩ := y
      dsimp only at k ⊢
      repeat' split
      all_goals first
        | (simp [k]; done)
        | (have j := SomeKeeps.of ‹relocate _ _ _ _ = some _› (relocate_kept _ _ _ _ rfl rfl rfl); simp [j, k])

@[simp] theorem persistTables_kept (s : State) : Keeps s (persistTables s) := by
  unfold persistTables
  simp

@[simp] theorem execLocationLogPersist_kept {qp : List Instr} {qd qm : Memory} (s : State) (hp : s.pending = qp) (hd
    : s.trw.dram = qd) (hm : s.trw.sram = qm) : NextKeeps qp qd qm (execLocationLogPersist s) := by
  subst hp hd hm
  unfold execLocationLogPersist
  simp

@[simp] theorem ckptStart_kept (s : State) : Keeps s (ckptStart s) := by
  unfold ckptStart
  simp

@[simp] theorem execCheckpointStart_kept {qp : List Instr} {qd qm : Memory} (s : State) (hp : s.pending = qp) (hd
    : s.trw.dram = qd) (hm : s.trw.sram = qm) : NextKeeps qp qd qm (execCheckpointStart s) := by
  subst hp hd hm
  unfold execCheckpointStart
  simp

@[simp] theorem execCheckpointRequest_kept {qp : List Instr} {qd qm : Memory} (s : State) (hp : s.pending = qp) (hd
    : s.trw.dram = qd) (hm : s.trw.sram = qm) : NextKeeps qp qd qm (execCheckpointRequest s) := by
  subst hp hd hm
  unfold execCheckpointRequest
  simp

@[simp] theorem execCheckpointEnd_kept {qp : List Instr} {qd qm : Memory} (s : State) (hp : s.pending = qp) (hd
    : s.trw.dram = qd) (hm : s.trw.sram = qm) : NextKeeps qp qd qm (execCheckpointEnd s) := by
  subst hp hd hm
  unfold execCheckpointEnd
  simp

@[simp] theorem dramLost_kept (s : State) (c : Nat) : Keeps s (dramLost s c) := by
  unfold dramLost
  simp

@[simp] theorem execDramChannelLost_kept {qp : List Instr} {qd qm : Memory} (c : Nat) (s : State) (hp
    : s.pending = qp) (hd : s.trw.dram = qd) (hm : s.trw.sram = qm) : NextKeeps qp qd qm (execDramChannelLost c s) := by
  subst hp hd hm
  unfold execDramChannelLost
  simp

@[simp] theorem ringBump_kept (s : State) (c : Nat) (f : Fld) (n : Nat) : Keeps s (ringBump s c f n) := by
  unfold ringBump
  simp

@[simp] theorem flcPost_kept (s : State) (c : Nat) (d : FlashDone) : Keeps s (flcPost s c d) := by
  unfold flcPost
  simp

@[simp] theorem flcEnd_kept (s : State) (c : Nat) (d : FlashDesc) (status : Nat) : Keeps s (flcEnd s c d status) := by
  unfold flcEnd
  simp

@[simp] theorem execFlashDescriptorArrival_kept {qp : List Instr} {qd qm : Memory} (c : Nat) (d : FlashDesc) (s
    : State) (hp : s.pending = qp) (hd : s.trw.dram = qd) (hm : s.trw.sram = qm) : NextKeeps qp qd qm
    (execFlashDescriptorArrival c d s) := by
  subst hp hd hm
  unfold execFlashDescriptorArrival
  simp

@[simp] theorem execFlashCompletionAccept_kept {qp : List Instr} {qd qm : Memory} (c : Nat) (s : State) (hp
    : s.pending = qp) (hd : s.trw.dram = qd) (hm : s.trw.sram = qm) : NextKeeps qp qd qm
    (execFlashCompletionAccept c s) := by
  subst hp hd hm
  unfold execFlashCompletionAccept
  (repeat' split) <;> simp

@[simp] theorem execFlashDescriptorTake_kept {qp : List Instr} {qd qm : Memory} (c : Nat) (producer : Option
    (Nat × Nat)) (s : State) (hp : s.pending = qp) (hd : s.trw.dram = qd) (hm : s.trw.sram = qm) : NextKeeps qp qd qm
    (execFlashDescriptorTake c producer s) := by
  subst hp hd hm
  unfold execFlashDescriptorTake
  dsimp only
  (repeat' split) <;> simp

@[simp] theorem flcSetRun_kept (s : State) (c : Nat) (r r' : FlashRun) : Keeps s (flcSetRun s c r r') := by
  unfold flcSetRun
  simp

@[simp] theorem flcStart_kept (s : State) (c typ op : Nat) : Keeps s (flcStart s c typ op) := by
  unfold flcStart
  (repeat' split) <;> simp

@[simp] theorem execFlashReadDesc_kept {qp : List Instr} {qd qm : Memory} (c : Nat) (s : State) (hp : s.pending = qp)
    (hd : s.trw.dram = qd) (hm : s.trw.sram = qm) : NextKeeps qp qd qm (execFlashReadDesc c s) := by
  subst hp hd hm
  unfold execFlashReadDesc
  simp

@[simp] theorem execFlashProgramDesc_kept {qp : List Instr} {qd qm : Memory} (c : Nat) (s : State) (hp
    : s.pending = qp) (hd : s.trw.dram = qd) (hm : s.trw.sram = qm) : NextKeeps qp qd qm (execFlashProgramDesc c s) := by
  subst hp hd hm
  unfold execFlashProgramDesc
  simp

@[simp] theorem execFlashEraseDesc_kept {qp : List Instr} {qd qm : Memory} (c : Nat) (s : State) (hp : s.pending = qp)
    (hd : s.trw.dram = qd) (hm : s.trw.sram = qm) : NextKeeps qp qd qm (execFlashEraseDesc c s) := by
  subst hp hd hm
  unfold execFlashEraseDesc
  simp

@[simp] theorem execFlashScanDesc_kept {qp : List Instr} {qd qm : Memory} (c : Nat) (s : State) (hp : s.pending = qp)
    (hd : s.trw.dram = qd) (hm : s.trw.sram = qm) : NextKeeps qp qd qm (execFlashScanDesc c s) := by
  subst hp hd hm
  unfold execFlashScanDesc
  simp

@[simp] theorem execFlashReadParamDesc_kept {qp : List Instr} {qd qm : Memory} (c : Nat) (s : State) (hp
    : s.pending = qp) (hd : s.trw.dram = qd) (hm : s.trw.sram = qm) : NextKeeps qp qd qm (execFlashReadParamDesc c s) := by
  subst hp hd hm
  unfold execFlashReadParamDesc
  simp

@[simp] theorem execFlashResetDesc_kept {qp : List Instr} {qd qm : Memory} (c : Nat) (s : State) (hp : s.pending = qp)
    (hd : s.trw.dram = qd) (hm : s.trw.sram = qm) : NextKeeps qp qd qm (execFlashResetDesc c s) := by
  subst hp hd hm
  unfold execFlashResetDesc
  simp

@[simp] theorem showChans_kept (s : State) : Keeps s (showChans s) := by
  unfold showChans
  simp

@[simp] theorem chanRetire_kept (s : State) (c k cause : Nat) (conseq : Bool) : Keeps s
    (chanRetire s c k cause conseq) := by
  unfold chanRetire
  simp

@[simp] theorem lunRetire_kept (s : State) (c lun k data : Nat) : Keeps s (lunRetire s c lun k data) := by
  unfold lunRetire
  simp

@[simp] theorem flcDrop_kept (s : State) (c : Nat) (r : FlashRun) : Keeps s (flcDrop s c r) := by
  unfold flcDrop
  simp

@[simp] theorem requestReloc_kept (s : State) (c lun row : Nat) : Keeps s (requestReloc s c lun row) := by
  unfold requestReloc
  simp

@[simp] theorem flcEndRead_kept (s : State) (c : Nat) (p : LunProfile) (r : FlashRun) : Keeps s (flcEndRead s c p r) := by
  unfold flcEndRead
  simp

@[simp] theorem flcDeliver_kept (s : State) (c : Nat) (d : FlashDesc) (us : List Nat) : Keeps s (flcDeliver s c d us) := by
  unfold flcDeliver
  simp

@[simp] theorem flcRetry_kept (s : State) (c : Nat) (p : LunProfile) (r r' : FlashRun) : Keeps s (flcRetry s c p r r') := by
  unfold flcRetry
  (repeat' split) <;> simp

@[simp] theorem flcNextUnit_kept (s : State) (c : Nat) (p : LunProfile) (r r' : FlashRun) : Keeps s
    (flcNextUnit s c p r r') := by
  unfold flcNextUnit
  (repeat' split) <;> simp

@[simp] theorem flcReadDone_kept (s : State) (c : Nat) (p : LunProfile) (r : FlashRun) (o : LunOut) : Keeps s
    (flcReadDone s c p r o) := by
  unfold flcReadDone
  (repeat' split) <;> simp

@[simp] theorem flcOk_kept (s : State) (c : Nat) (r : FlashRun) (subst : Bool) : Keeps s (flcOk s c r subst) := by
  unfold flcOk
  simp

@[simp] theorem takeSubstitute_kept (s : State) (c lun row phys sub : Nat) : Keeps s
    (takeSubstitute s c lun row phys sub) := by
  unfold takeSubstitute
  simp

@[simp] theorem flcSubstitute_kept (s : State) (c : Nat) (p : LunProfile) (r : FlashRun) (o : LunOut) (fill
    : FlashRow → FlashRow) : Keeps s (flcSubstitute s c p r o fill) := by
  unfold flcSubstitute
  dsimp only
  (repeat' split) <;> simp

@[simp] theorem flcProgramDone_kept (s : State) (c : Nat) (p : LunProfile) (r : FlashRun) (o : LunOut) : Keeps s
    (flcProgramDone s c p r o) := by
  unfold flcProgramDone
  simp

@[simp] theorem noteWear_kept (s : State) (c lun : Nat) (p : LunProfile) : Keeps s (noteWear s c lun p) := by
  unfold noteWear
  dsimp only
  (repeat' split) <;> simp

@[simp] theorem flcEraseDone_kept (s : State) (c : Nat) (p : LunProfile) (r : FlashRun) (o : LunOut) : Keeps s
    (flcEraseDone s c p r o) := by
  unfold flcEraseDone
  simp

@[simp] theorem flcParamDone_kept (s : State) (c : Nat) (p : LunProfile) (r : FlashRun) : Keeps s
    (flcParamDone s c p r) := by
  unfold flcParamDone
  dsimp only
  (repeat' split) <;> simp

@[simp] theorem execLunOperationDone_kept {qp : List Instr} {qd qm : Memory} (c lun : Nat) (o : LunOut) (s : State)
    (hp : s.pending = qp) (hd : s.trw.dram = qd) (hm : s.trw.sram = qm) : NextKeeps qp qd qm
    (execLunOperationDone c lun o s) := by
  subst hp hd hm
  unfold execLunOperationDone
  (repeat' split) <;> simp

@[simp] theorem fenceChan_kept (s : State) (c : Nat) : Keeps s (fenceChan s c) := by
  unfold fenceChan
  simp

@[simp] theorem flashFence_kept (s : State) : Keeps s (flashFence s) := by
  unfold flashFence
  simp

@[simp] theorem execFlashFence_kept {qp : List Instr} {qd qm : Memory} (s : State) (hp : s.pending = qp) (hd
    : s.trw.dram = qd) (hm : s.trw.sram = qm) : NextKeeps qp qd qm (execFlashFence s) := by
  subst hp hd hm
  unfold execFlashFence
  simp

@[simp] theorem initFail_kept (s : State) (c : Nat) (p : LunProfile) (step ce : Nat) (lun : Option Nat) : Keeps s
    (initFail s c p step ce lun) := by
  unfold initFail
  simp

@[simp] theorem execFlashChannelInit_kept {qp : List Instr} {qd qm : Memory} (c ident : Nat) (ceFails : List
    (Nat × Nat)) (lunFails : List Nat) (trainFails : Nat) (s : State) (hp : s.pending = qp) (hd : s.trw.dram = qd) (hm
    : s.trw.sram = qm) : NextKeeps qp qd qm (execFlashChannelInit c ident ceFails lunFails trainFails s) := by
  subst hp hd hm
  unfold execFlashChannelInit
  (repeat' split) <;> simp

@[simp] theorem execFlashRetrainTick_kept {qp : List Instr} {qd qm : Memory} (c : Nat) (pass : Bool) (s : State) (hp
    : s.pending = qp) (hd : s.trw.dram = qd) (hm : s.trw.sram = qm) : NextKeeps qp qd qm
    (execFlashRetrainTick c pass s) := by
  subst hp hd hm
  unfold execFlashRetrainTick
  simp

@[simp] theorem execLunTimeout_kept {qp : List Instr} {qd qm : Memory} (c lun : Nat) (answers othersAnswer : Bool) (s
    : State) (hp : s.pending = qp) (hd : s.trw.dram = qd) (hm : s.trw.sram = qm) : NextKeeps qp qd qm
    (execLunTimeout c lun answers othersAnswer s) := by
  subst hp hd hm
  unfold execLunTimeout
  (repeat' split) <;> simp

@[simp] theorem execFlashChannelRetire_kept {qp : List Instr} {qd qm : Memory} (c : Nat) (staging : Bool) (s : State)
    (hp : s.pending = qp) (hd : s.trw.dram = qd) (hm : s.trw.sram = qm) : NextKeeps qp qd qm
    (execFlashChannelRetire c staging s) := by
  subst hp hd hm
  unfold execFlashChannelRetire
  simp

@[simp] theorem execPatrolScan_kept {qp : List Instr} {qd qm : Memory} (c lun row pset bits set : Nat) (soft : Bool)
    (s : State) (hp : s.pending = qp) (hd : s.trw.dram = qd) (hm : s.trw.sram = qm) : NextKeeps qp qd qm
    (execPatrolScan c lun row pset bits set soft s) := by
  subst hp hd hm
  unfold execPatrolScan
  (repeat' split) <;> simp

@[simp] theorem execDumpRowErase_kept {qp : List Instr} {qd qm : Memory} (c lun : Nat) (s : State) (hp
    : s.pending = qp) (hd : s.trw.dram = qd) (hm : s.trw.sram = qm) : NextKeeps qp qd qm (execDumpRowErase c lun s) := by
  subst hp hd hm
  unfold execDumpRowErase
  (repeat' split) <;> simp

end Sys2Proof.Laws
end

