-- ==== Sys2Proof/Laws/KeptHost.lean ====
section
/-! SUPPORT. Each operation of Ozper, the wafer checks, I/O commands, Hod, Render and admin commands keeps the queue and the memories,
or (`_wf`) keeps the queue and leaves the memories in canonical form; one lemma per operation, for later proofs to cite
in place of unfolding it. -/

open Sys2Proof.Machine

namespace Sys2Proof.Laws

@[simp] theorem modOzp_kept (s : State) (f : Ozper → Ozper) : Keeps s (modOzp s f) := by
  unfold modOzp
  simp

@[simp] theorem modOz_kept (s : State) (p : Nat) (f : OzPort → OzPort) : Keeps s (modOz s p f) := by
  unfold modOz
  simp

@[simp] theorem bypUpdate_kept (s : State) : Keeps s (bypUpdate s) := by
  unfold bypUpdate
  simp

@[simp] theorem ozEmit_kept (s : State) (p typ len : Nat) (payload : List Nat) (blocks : List (List Byte)) : Keeps s
    (ozEmit s p typ len payload blocks) := by
  unfold ozEmit
  simp

@[simp] theorem ozFlush_kept (a0 : Nat) (s : State) (a2 : Nat) : Keeps s (ozFlush a0 s a2) := by
  fun_induction ozFlush a0 s a2 with
  | case3 k s p typ len payload blocks rest hw hr ih => simpa using ih
  | _ => simp

@[simp] theorem ozSend_kept (s : State) (p typ bytes : Nat) (payload : List Nat) (blocks : List (List Byte)) : Keeps s
    (ozSend s p typ bytes payload blocks) := by
  unfold ozSend
  simp

@[simp] theorem sendCap_kept (s : State) (p : Nat) : Keeps s (sendCap s p) := by
  unfold sendCap
  (repeat' split) <;> simp

@[simp] theorem sendHeartbeat_kept (s : State) (p : Nat) : Keeps s (sendHeartbeat s p) := by
  unfold sendHeartbeat
  simp

@[simp] theorem sendLeave_kept (s : State) : Keeps s (sendLeave s) := by
  unfold sendLeave
  simp

@[simp] theorem execOzperTrain_kept {qp : List Instr} {qd qm : Memory} (p lanes : Nat) (s : State) (hp
    : s.pending = qp) (hd : s.trw.dram = qd) (hm : s.trw.sram = qm) : NextKeeps qp qd qm (execOzperTrain p lanes s) := by
  subst hp hd hm
  unfold execOzperTrain
  simp

@[simp] theorem execOzperTrainRetry_kept {qp : List Instr} {qd qm : Memory} (p : Nat) (s : State) (hp
    : s.pending = qp) (hd : s.trw.dram = qd) (hm : s.trw.sram = qm) : NextKeeps qp qd qm (execOzperTrainRetry p s) := by
  subst hp hd hm
  unfold execOzperTrainRetry
  simp

@[simp] theorem linkDownOz_kept (s : State) (p : Nat) : Keeps s (linkDownOz s p) := by
  unfold linkDownOz
  simp

@[simp] theorem execOzperLinkDown_kept {qp : List Instr} {qd qm : Memory} (p : Nat) (s : State) (hp : s.pending = qp)
    (hd : s.trw.dram = qd) (hm : s.trw.sram = qm) : NextKeeps qp qd qm (execOzperLinkDown p s) := by
  subst hp hd hm
  unfold execOzperLinkDown
  simp

@[simp] theorem execOzperRetrain_kept {qp : List Instr} {qd qm : Memory} (p : Nat) (resumes : Bool) (s : State) (hp
    : s.pending = qp) (hd : s.trw.dram = qd) (hm : s.trw.sram = qm) : NextKeeps qp qd qm
    (execOzperRetrain p resumes s) := by
  subst hp hd hm
  unfold execOzperRetrain
  simp

@[simp] theorem execBadFrame_kept {qp : List Instr} {qd qm : Memory} (p : Nat) (malformed : Bool) (s : State) (hp
    : s.pending = qp) (hd : s.trw.dram = qd) (hm : s.trw.sram = qm) : NextKeeps qp qd qm (execBadFrame p malformed s) := by
  subst hp hd hm
  unfold execBadFrame
  simp

@[simp] theorem ozTake_kept (s : State) (p : Nat) (x2 : OzHdr) : Keeps s (ozTake s p x2).2 := by
  unfold ozTake
  (repeat' split) <;> simp

@[simp] theorem execHeartbeatSend_kept {qp : List Instr} {qd qm : Memory} (p : Nat) (s : State) (hp : s.pending = qp)
    (hd : s.trw.dram = qd) (hm : s.trw.sram = qm) : NextKeeps qp qd qm (execHeartbeatSend p s) := by
  subst hp hd hm
  unfold execHeartbeatSend
  simp

@[simp] theorem execHeartbeat_kept {qp : List Instr} {qd qm : Memory} (p ack glbState grant : Nat) (nak leave : Bool)
    (s : State) (hp : s.pending = qp) (hd : s.trw.dram = qd) (hm : s.trw.sram = qm) : NextKeeps qp qd qm
    (execHeartbeat p ack glbState grant nak leave s) := by
  subst hp hd hm
  unfold execHeartbeat
  simp

@[simp] theorem execCap_kept {qp : List Instr} {qd qm : Memory} (p : Nat) (x1 : OzHdr) (c : CapFrame) (s : State) (hp
    : s.pending = qp) (hd : s.trw.dram = qd) (hm : s.trw.sram = qm) : NextKeeps qp qd qm (execCap p x1 c s) := by
  subst hp hd hm
  unfold execCap
  dsimp only
  (repeat' split) <;> simp

@[simp] theorem execCapResend_kept {qp : List Instr} {qd qm : Memory} (p : Nat) (s : State) (hp : s.pending = qp) (hd
    : s.trw.dram = qd) (hm : s.trw.sram = qm) : NextKeeps qp qd qm (execCapResend p s) := by
  subst hp hd hm
  unfold execCapResend
  simp

@[simp] theorem execMirrorEnter_kept {qp : List Instr} {qd qm : Memory} (s : State) (hp : s.pending = qp) (hd
    : s.trw.dram = qd) (hm : s.trw.sram = qm) : NextKeeps qp qd qm (execMirrorEnter s) := by
  subst hp hd hm
  unfold execMirrorEnter
  simp

@[simp] theorem sendMirror_kept (s : State) (i sent seq : Nat) : Keeps s (sendMirror s i sent seq) := by
  unfold sendMirror
  dsimp only
  (repeat' split) <;> simp

@[simp] theorem endIfCopied_kept (s : State) (seq : Nat) : Keeps s (endIfCopied s seq) := by
  unfold endIfCopied
  (repeat' split) <;> simp

@[simp] theorem mapCmds_kept (s : State) (f : Cmd → Cmd) : Keeps s (mapCmds s f) := by
  unfold mapCmds
  simp

@[simp] theorem mackOne_kept (s : State) (mid : Nat) : Keeps s (mackOne s mid) := by
  unfold mackOne
  (repeat' split) <;> simp

@[simp] theorem execMack_kept {qp : List Instr} {qd qm : Memory} (x0 : OzHdr) (base bits : Nat) (s : State) (hp
    : s.pending = qp) (hd : s.trw.dram = qd) (hm : s.trw.sram = qm) : NextKeeps qp qd qm (execMack x0 base bits s) := by
  subst hp hd hm
  unfold execMack
  simp

@[simp] theorem sendRelease_kept (a0 : Nat) (s : State) (a2 : List Nat) : Keeps s (sendRelease a0 s a2) := by
  fun_induction sendRelease a0 s a2 with
  | case3 k s l hl now ih => simpa [now] using ih
  | _ => simp

@[simp] theorem releaseSlots_kept (s : State) (is : List Nat) : Keeps s (releaseSlots s is) := by
  unfold releaseSlots
  simp

@[simp] theorem execMirrorRelease_kept {qp : List Instr} {qd qm : Memory} (s : State) (hp : s.pending = qp) (hd
    : s.trw.dram = qd) (hm : s.trw.sram = qm) : NextKeeps qp qd qm (execMirrorRelease s) := by
  subst hp hd hm
  unfold execMirrorRelease
  (repeat' split) <;> simp

@[simp] theorem showIn_kept (s : State) : Keeps s (showIn s) := by
  unfold showIn
  simp

@[simp] theorem execMirror_kept {qp : List Instr} {qd qm : Memory} (x0 : OzHdr) (m : MirrorMsg) (s : State) (hp
    : s.pending = qp) (hd : s.trw.dram = qd) (hm : s.trw.sram = qm) : NextKeeps qp qd qm (execMirror x0 m s) := by
  subst hp hd hm
  unfold execMirror
  simp

@[simp] theorem execRelease_kept {qp : List Instr} {qd qm : Memory} (x0 : OzHdr) (slots : List Nat) (s : State) (hp
    : s.pending = qp) (hd : s.trw.dram = qd) (hm : s.trw.sram = qm) : NextKeeps qp qd qm (execRelease x0 slots s) := by
  subst hp hd hm
  unfold execRelease
  simp

@[simp] theorem showOrphans_kept (s : State) : Keeps s (showOrphans s) := by
  unfold showOrphans
  dsimp only
  (repeat' split) <;> simp

@[simp] theorem releaseSets_kept (s : State) (p : OrphanSet → Bool) (code : Nat) : Keeps s (releaseSets s p code) := by
  unfold releaseSets
  simp

@[simp] theorem execPurge_kept {qp : List Instr} {qd qm : Memory} (x0 : OzHdr) (uid boot below : Nat) (s : State) (hp
    : s.pending = qp) (hd : s.trw.dram = qd) (hm : s.trw.sram = qm) : NextKeeps qp qd qm
    (execPurge x0 uid boot below s) := by
  subst hp hd hm
  unfold execPurge
  simp

@[simp] theorem execWestLinkLoss_kept {qp : List Instr} {qd qm : Memory} (s : State) (hp : s.pending = qp) (hd
    : s.trw.dram = qd) (hm : s.trw.sram = qm) : NextKeeps qp qd qm (execWestLinkLoss s) := by
  subst hp hd hm
  unfold execWestLinkLoss
  simp

@[simp] theorem execOrphanHoldExpiry_kept {qp : List Instr} {qd qm : Memory} (s : State) (hp : s.pending = qp) (hd
    : s.trw.dram = qd) (hm : s.trw.sram = qm) : NextKeeps qp qd qm (execOrphanHoldExpiry s) := by
  subst hp hd hm
  unfold execOrphanHoldExpiry
  (repeat' split) <;> simp

@[simp] theorem execOrphanRead_kept {qp : List Instr} {qd qm : Memory} (seq : Nat) (s : State) (hp : s.pending = qp)
    (hd : s.trw.dram = qd) (hm : s.trw.sram = qm) : NextKeeps qp qd qm (execOrphanRead seq s) := by
  subst hp hd hm
  unfold execOrphanRead
  (repeat' split) <;> simp

@[simp] theorem execOrphanRelease_kept {qp : List Instr} {qd qm : Memory} (seq : Nat) (s : State) (hp
    : s.pending = qp) (hd : s.trw.dram = qd) (hm : s.trw.sram = qm) : NextKeeps qp qd qm (execOrphanRelease seq s) := by
  subst hp hd hm
  unfold execOrphanRelease
  (repeat' split) <;> simp

@[simp] theorem execEastLinkLoss_kept {qp : List Instr} {qd qm : Memory} (s : State) (hp : s.pending = qp) (hd
    : s.trw.dram = qd) (hm : s.trw.sram = qm) : NextKeeps qp qd qm (execEastLinkLoss s) := by
  subst hp hd hm
  unfold execEastLinkLoss
  simp

@[simp] theorem execRewriteEnd_kept {qp : List Instr} {qd qm : Memory} (s : State) (hp : s.pending = qp) (hd
    : s.trw.dram = qd) (hm : s.trw.sram = qm) : NextKeeps qp qd qm (execRewriteEnd s) := by
  subst hp hd hm
  unfold execRewriteEnd
  simp

@[simp] theorem ozpRetire_kept (s : State) (p : Nat) : Keeps s (ozpRetire s p) := by
  unfold ozpRetire
  simp

@[simp] theorem modLtn_kept (s : State) (f : Lantern → Lantern) : Keeps s (modLtn s f) := by
  unfold modLtn
  simp

@[simp] theorem modTask_kept (s : State) (x1 : Nat) (f : Task → Task) : Keeps s (modTask s x1 f) := by
  unfold modTask
  simp

@[simp] theorem setIn_kept (s : State) (x1 slot : Nat) (w : Word) : Keeps s (setIn s x1 slot w) := by
  unfold setIn
  simp

@[simp] theorem runNode_kept (s : State) (x1 op : Nat) : Keeps s (runNode s x1 op) := by
  unfold runNode
  (repeat' split) <;> simp

@[simp] theorem applyCoef_kept (s : State) (x1 i : Nat) (v : Word) (sample : Nat) : Keeps s
    (applyCoef s x1 i v sample) := by
  unfold applyCoef
  simp

@[simp] theorem takeCoef_kept (s : State) (x1 : Nat) : Keeps s (takeCoef s x1) := by
  unfold takeCoef
  (repeat' split) <;> simp

@[simp] theorem drainCoefs_kept (s : State) (x1 : Nat) : Keeps s (drainCoefs s x1) := by
  unfold drainCoefs
  simp

@[simp] theorem startInstance_kept (s : State) (x1 trig : Nat) : Keeps s (startInstance s x1 trig) := by
  unfold startInstance
  simp

@[simp] theorem missCore_kept (s : State) (x1 : Nat) : Keeps s (missCore s x1) := by
  unfold missCore
  simp

@[simp] theorem commitCore_kept (s : State) (x1 : Nat) : Keeps s (commitCore s x1).1 := by
  unfold commitCore
  dsimp only
  (repeat' split) <;> simp

@[simp] theorem deadlineCore_kept (s : State) (x1 : Nat) : Keeps s (deadlineCore s x1).1 := by
  unfold deadlineCore
  dsimp only
  (repeat' split) <;> simp

@[simp] theorem enableTask_kept (s : State) (x1 : Nat) : Keeps s (enableTask s x1) := by
  unfold enableTask
  simp

@[simp] theorem disableTask_kept (s : State) (x1 : Nat) : Keeps s (disableTask s x1) := by
  unfold disableTask
  simp

@[simp] theorem markDue_kept (s : State) (x1 : Nat) : Keeps s (markDue s x1) := by
  unfold markDue
  simp

@[simp] theorem markPeriod_kept (s : State) (x1 : Nat) : Keeps s (markPeriod s x1) := by
  unfold markPeriod
  simp

@[simp] theorem placeTasks_kept (s : State) (a1 : List Nat) : Keeps s (placeTasks s a1).1 := by
  induction a1 generalizing s <;> unfold placeTasks <;> (repeat' split) <;> simp_all

@[simp] theorem shedCore_kept (s : State) (x1 : Nat) : Keeps s (shedCore s x1) := by
  unfold shedCore
  simp

@[simp] theorem placeAll_kept (a0 : Nat) (s : State) (a2 : List Nat) : Keeps s (placeAll a0 s a2).1 := by
  induction a0 generalizing s a2 with
  | zero => simp [placeAll]
  | succ n ih =>
    have k := placeTasks_kept s a2
    unfold placeAll
    split <;> rename_i h <;> rw [h] at k
    · exact k
    · have c := shedCore_kept
      simpa [ih] using k

@[simp] theorem assignCores_kept (s : State) : Keeps s (assignCores s).1 := by
  unfold assignCores
  simp

@[simp] theorem loseCore_kept (s : State) (c : Nat) : Keeps s (loseCore s c).1 := by
  unfold loseCore
  dsimp only
  (repeat' split) <;> simp

@[simp] theorem acceptOne_kept {qp : List Instr} {qd qm : Memory} (s : State) (fid q i : Nat) (e : Sqe) (hp
    : s.pending = qp) (hd : s.trw.dram = qd) (hm : s.trw.sram = qm) : SomeKeeps qp qd qm (acceptOne s fid q i e) := by
  subst hp hd hm
  unfold acceptOne
  simp

@[simp] theorem acceptAll_kept {qp : List Instr} {qd qm : Memory} (s : State) (fid q i : Nat) (a4 : List Sqe) (hp
    : s.pending = qp) (hd : s.trw.dram = qd) (hm : s.trw.sram = qm) : SomeKeeps qp qd qm (acceptAll s fid q i a4) := by
  induction a4 generalizing s i with
  | nil => simp [acceptAll, hp, hd, hm]
  | cons e es ih =>
    unfold acceptAll
    refine SomeKeeps.bind fun u hu => ?_
    obtain ⟨a, b, c⟩ := SomeKeeps.of hu (acceptOne_kept (qp := qp) (qd := qd) (qm := qm) _ _ _ _ _ hp hd hm)
    exact ih _ _ a b c

@[simp] theorem execSqeFetched_kept {qp : List Instr} {qd qm : Memory} (fid q : Nat) (entries : List Sqe) (s : State)
    (hp : s.pending = qp) (hd : s.trw.dram = qd) (hm : s.trw.sram = qm) : NextKeeps qp qd qm
    (execSqeFetched fid q entries s) := by
  subst hp hd hm
  unfold execSqeFetched
  dsimp only
  repeat' split
  all_goals first
    | (simp; done)
    | (have k := SomeKeeps.of ‹acceptAll _ _ _ _ _ = some _› (acceptAll_kept _ _ _ _ _ rfl rfl rfl); simp [k]; done)
    | (have k := SomeKeeps.of ‹acceptAll _ _ _ _ _ = some _› (acceptAll_kept _ _ _ _ _ rfl rfl rfl); split <;> simp [k])

@[simp] theorem dispatch_kept (s : State) (seq : Nat) (c : Cmd) : Keeps s (dispatch s seq c) := by
  unfold dispatch
  dsimp only
  (repeat' split) <;> simp

@[simp] theorem execFlowDispatch_kept {qp : List Instr} {qd qm : Memory} (seq : Nat) (s : State) (hp : s.pending = qp)
    (hd : s.trw.dram = qd) (hm : s.trw.sram = qm) : NextKeeps qp qd qm (execFlowDispatch seq s) := by
  subst hp hd hm
  unfold execFlowDispatch
  (repeat' split) <;> simp

@[simp] theorem execOperatorOpcode_kept {qp : List Instr} {qd qm : Memory} (seq : Nat) (s : State) (hp
    : s.pending = qp) (hd : s.trw.dram = qd) (hm : s.trw.sram = qm) : NextKeeps qp qd qm (execOperatorOpcode seq s) := by
  subst hp hd hm
  unfold execOperatorOpcode
  (repeat' split) <;> simp

@[simp] theorem freeReserved_kept (s : State) (seq : Nat) (c : Cmd) : Keeps s (freeReserved s seq c) := by
  unfold freeReserved
  simp

@[simp] theorem execCommandComplete_kept {qp : List Instr} {qd qm : Memory} (seq : Nat) (s : State) (hp
    : s.pending = qp) (hd : s.trw.dram = qd) (hm : s.trw.sram = qm) : NextKeeps qp qd qm (execCommandComplete seq s) := by
  subst hp hd hm
  unfold execCommandComplete
  (repeat' split) <;> simp

@[simp] theorem noteBeaten_kept (s : State) (seq : Nat) (c : Cmd) : Keeps s (noteBeaten s seq c) := by
  unfold noteBeaten
  simp

@[simp] theorem touchExtents_kept (s : State) (c : Cmd) (pool : Nat) : Keeps s (touchExtents s c pool) := by
  unfold touchExtents
  simp

@[simp] theorem landingCommit_kept (l : Landing) (seq : Nat) :
    (l.commit seq).pending = l.st.pending ∧ (l.commit seq).trw.dram = l.st.trw.dram ∧
      (l.commit seq).trw.sram = l.st.trw.sram := by
  have g : ∀ s : State, (l.used.foldl (fun s u => if fget (modSlot (modUdc s fun u => { u with age := u.age + 1 }) u.1 fun x => { x with state := 2, age := if x.state = 2 then x.age else s.udc.age }) OZP_STATUS_MODE = 1 then sendMirror (modSlot (modUdc s fun u => { u with age := u.age + 1 }) u.1 fun x => { x with state := 2, age := if x.state = 2 then x.age else s.udc.age }) u.1 u.2 seq else modSlot (modSlot (modUdc s fun u => { u with age := u.age + 1 }) u.1 fun x => { x with state := 2, age := if x.state = 2 then x.age else s.udc.age }) u.1 fun x => { x with local2 := true }) s).pending = s.pending ∧ (l.used.foldl (fun s u => if fget (modSlot (modUdc s fun u => { u with age := u.age + 1 }) u.1 fun x => { x with state := 2, age := if x.state = 2 then x.age else s.udc.age }) OZP_STATUS_MODE = 1 then sendMirror (modSlot (modUdc s fun u => { u with age := u.age + 1 }) u.1 fun x => { x with state := 2, age := if x.state = 2 then x.age else s.udc.age }) u.1 u.2 seq else modSlot (modSlot (modUdc s fun u => { u with age := u.age + 1 }) u.1 fun x => { x with state := 2, age := if x.state = 2 then x.age else s.udc.age }) u.1 fun x => { x with local2 := true }) s).trw.dram = s.trw.dram ∧ (l.used.foldl (fun s u => if fget (modSlot (modUdc s fun u => { u with age := u.age + 1 }) u.1 fun x => { x with state := 2, age := if x.state = 2 then x.age else s.udc.age }) OZP_STATUS_MODE = 1 then sendMirror (modSlot (modUdc s fun u => { u with age := u.age + 1 }) u.1 fun x => { x with state := 2, age := if x.state = 2 then x.age else s.udc.age }) u.1 u.2 seq else modSlot (modSlot (modUdc s fun u => { u with age := u.age + 1 }) u.1 fun x => { x with state := 2, age := if x.state = 2 then x.age else s.udc.age }) u.1 fun x => { x with local2 := true }) s).trw.sram = s.trw.sram :=
    fun s => foldl_kept _ _ _ fun s u => by split <;> simp
  unfold Landing.commit
  refine ⟨(g _).1.trans ?_, (g _).2.1.trans ?_, (g _).2.2.trans ?_⟩ <;> simp

/-- A landing keeps the queue and the two memories. -/
def LandKeeps (p : List Instr) (d m : Memory) (o : Option Landing) : Prop :=
  ∀ l, o = some l → l.st.pending = p ∧ l.st.trw.dram = d ∧ l.st.trw.sram = m

@[simp] theorem landKeeps_some (p : List Instr) (d m : Memory) (l : Landing) :
    LandKeeps p d m (some l) ↔ l.st.pending = p ∧ l.st.trw.dram = d ∧ l.st.trw.sram = m :=   ⟨fun h => h l rfl, fun h _ e => by injection e with e; exact e ▸ h⟩

@[simp] theorem landKeeps_none (p : List Instr) (d m : Memory) : LandKeeps p d m none := fun _ e => by cases e

theorem LandKeeps.bind {p : List Instr} {d m : Memory} {o : Option Landing} {g : Landing → Option Landing}
    (h : LandKeeps p d m o) (hg : ∀ l, LandKeeps l.st.pending l.st.trw.dram l.st.trw.sram (g l)) :
    LandKeeps p d m (o.bind g) := by
  cases o with
  | none => simp
  | some l =>
    obtain ⟨rfl, rfl, rfl⟩ := h l rfl
    exact hg l

theorem LandKeeps.foldl {p : List Instr} {d m : Memory} {α : Type} (g : Option Landing → α → Option Landing)
    (hg : ∀ o x, LandKeeps p d m o → LandKeeps p d m (g o x)) (xs : List α) {o : Option Landing}
    (h : LandKeeps p d m o) : LandKeeps p d m (xs.foldl g o) := by
  induction xs generalizing o with
  | nil => exact h
  | cons x xs ih => exact ih (hg o x h)

theorem landingSlot_kept (l : Landing) (seq i : Nat) (u : Landing) (h : l.slot seq = some (i, u)) :
    u.st.pending = l.st.pending ∧ u.st.trw.dram = l.st.trw.dram ∧ u.st.trw.sram = l.st.trw.sram := by
  have k := reserveSlots_kept l.st seq 1
  unfold Landing.slot at h
  repeat' split at h
  all_goals first
    | (cases h; exact ⟨rfl, rfl, rfl⟩)
    | (rename_i e; rw [e] at k; cases h; exact k)
    | cases h

theorem landingPut_kept (l : Landing) (seq : Nat) (id : GranId) (pool clen : Nat) (bs fill : List (Nat × Nat)) :
    LandKeeps l.st.pending l.st.trw.dram l.st.trw.sram (l.put seq id pool clen bs fill) := by
  unfold Landing.put
  split
  · simp
  · split
    · simp
    · intro u e
      obtain ⟨⟨i, v⟩, hv, rfl⟩ := Option.map_eq_some_iff.mp e
      simpa using landingSlot_kept l seq i v hv

theorem landWrite_kept (s : State) (seq : Nat) (c : Cmd) (ns : NsRec) (data clens : List Nat) (bad : List BadBlock)
    (free : List Nat) : LandKeeps s.pending s.trw.dram s.trw.sram (landWrite s seq c ns data clens bad free) := by
  unfold landWrite
  exact LandKeeps.foldl _ (fun o g h => h.bind fun l => landingPut_kept l _ _ _ _ _ _) _ (by simp)

theorem landingZero_kept (l : Landing) (seq : Nat) (c : Cmd) (ns : NsRec) (clen : Nat) (bad : List BadBlock) (g : Nat) :
    LandKeeps l.st.pending l.st.trw.dram l.st.trw.sram (l.zero seq c ns clen bad g) := by
  unfold Landing.zero
  dsimp only
  split
  · simp
  · exact landingPut_kept _ _ _ _ _ _ _

theorem landingZeroExtent_kept (l : Landing) (seq : Nat) (c : Cmd) (ns : NsRec) (clens : List Nat) (bad : List BadBlock)
    (x : Nat) : LandKeeps l.st.pending l.st.trw.dram l.st.trw.sram (l.zeroExtent seq c ns clens bad x) := by
  unfold Landing.zeroExtent
  dsimp only
  split
  · exact LandKeeps.foldl _ (fun o g h => h.bind fun l => landingZero_kept _ _ _ _ _ _ _) _ (by simp)
  · refine LandKeeps.foldl _ (fun o g h => h.bind fun l => landingZero_kept _ _ _ _ _ _ _) _ ((landKeeps_some ..).mpr ?_)
    dsimp only
    split <;> simp

theorem landZeroes_kept (s : State) (seq : Nat) (c : Cmd) (ns : NsRec) (clens : List Nat) (bad : List BadBlock)
    (free : List Nat) : LandKeeps s.pending s.trw.dram s.trw.sram (landZeroes s seq c ns clens bad free) := by
  unfold landZeroes
  dsimp only
  split
  · exact LandKeeps.foldl _ (fun o g h => h.bind fun l => landingZero_kept _ _ _ _ _ _ _) _ (by simp)
  · refine LandKeeps.foldl _ (fun o x h => ?_) _ (by simp)
    split
    · exact h.bind fun l => landingZeroExtent_kept _ _ _ _ _ _ _
    · exact LandKeeps.foldl _ (fun o g h => h.bind fun l => landingZero_kept _ _ _ _ _ _ _) _ h

@[simp] theorem keepUndo_kept (old s : State) (seq : Nat) (c : Cmd) (pool : Nat) (l : Landing) :
    (keepUndo old s seq c pool l).pending = s.pending ∧ (keepUndo old s seq c pool l).trw.dram = s.trw.dram ∧ (keepUndo old s seq c pool l).trw.sram = s.trw.sram := by
  unfold keepUndo
  simp

@[simp] theorem changeApplied_kept (s old : State) (seq : Nat) (c : Cmd) (pool : Nat) (l : Landing)
    (hl : l.st.pending = s.pending ∧ l.st.trw.dram = s.trw.dram ∧ l.st.trw.sram = s.trw.sram) :
    (changeApplied old seq c pool l).pending = s.pending ∧ (changeApplied old seq c pool l).trw.dram = s.trw.dram ∧ (changeApplied old seq c pool l).trw.sram = s.trw.sram := by
  unfold changeApplied
  dsimp only
  split
  · split <;> simp [hl]
  · split <;> simp [hl]

@[simp] theorem execWrite_kept {qp : List Instr} {qd qm : Memory} (seq : Nat) (data clens : List Nat) (bad
    : List BadBlock) (s : State) (hp : s.pending = qp) (hd : s.trw.dram = qd) (hm : s.trw.sram = qm)
    : NextKeeps qp qd qm (execWrite seq data clens bad s) := by
  subst hp hd hm
  unfold execWrite
  dsimp only
  repeat' split
  all_goals first
    | (simp; done)
    | exact (nextKeeps_next ..).mpr (changeApplied_kept _ _ _ _ _ _ (landWrite_kept _ _ _ _ _ _ _ _ _ ‹landWrite _ _ _ _ _ _ _ _ = _›))

@[simp] theorem zeroCommand_kept (opc seq : Nat) (clens : List Nat) (bad : List BadBlock) (s : State) : Keeps s
    (zeroCommand opc seq clens bad s) := by
  unfold zeroCommand
  dsimp only
  repeat' split
  all_goals first
    | (simp; done)
    | exact changeApplied_kept _ _ _ _ _ _ (landZeroes_kept _ _ _ _ _ _ _ _ ‹landZeroes _ _ _ _ _ _ _ = _›)

@[simp] theorem execWriteZeroes_kept {qp : List Instr} {qd qm : Memory} (seq : Nat) (clens : List Nat) (bad
    : List BadBlock) (s : State) (hp : s.pending = qp) (hd : s.trw.dram = qd) (hm : s.trw.sram = qm)
    : NextKeeps qp qd qm (execWriteZeroes seq clens bad s) := by
  subst hp hd hm
  unfold execWriteZeroes
  simp

@[simp] theorem execDeallocate_kept {qp : List Instr} {qd qm : Memory} (seq : Nat) (clens : List Nat) (bad
    : List BadBlock) (s : State) (hp : s.pending = qp) (hd : s.trw.dram = qd) (hm : s.trw.sram = qm)
    : NextKeeps qp qd qm (execDeallocate seq clens bad s) := by
  subst hp hd hm
  unfold execDeallocate
  simp

@[simp] theorem markSpan_kept (s : State) (c : Cmd) (ns : NsRec) (slba : Nat) (rs : List ReadResult) : Keeps s
    (markSpan s c ns slba rs) := by
  unfold markSpan
  refine foldl_kept _ _ _ fun s j => ?_
  split
  split <;> simp

@[simp] theorem deliver_kept (s : State) (c : Cmd) (rs : List ReadResult) : Keeps s (deliver s c rs) := by
  unfold deliver
  simp (disch := (intros; (try dsimp only); (repeat' split) <;> simp (disch := (intros; (try dsimp only); (repeat' split) <;> simp (disch := (intros; (try dsimp only); (repeat' split) <;> simp))))))

@[simp] theorem endRead_kept (s : State) (seq : Nat) (c : Cmd) (rs : List ReadResult) : Keeps s (endRead s seq c rs) := by
  unfold endRead
  simp

@[simp] theorem readCommand_kept (opc seq : Nat) (toHost : Bool) (bad : List BadBlock) (s : State) : Keeps s
    (readCommand opc seq toHost bad s) := by
  unfold readCommand
  (repeat' split) <;> simp

@[simp] theorem execRead_kept {qp : List Instr} {qd qm : Memory} (seq : Nat) (bad : List BadBlock) (s : State) (hp
    : s.pending = qp) (hd : s.trw.dram = qd) (hm : s.trw.sram = qm) : NextKeeps qp qd qm (execRead seq bad s) := by
  subst hp hd hm
  unfold execRead
  simp

@[simp] theorem execVerify_kept {qp : List Instr} {qd qm : Memory} (seq : Nat) (bad : List BadBlock) (s : State) (hp
    : s.pending = qp) (hd : s.trw.dram = qd) (hm : s.trw.sram = qm) : NextKeeps qp qd qm (execVerify seq bad s) := by
  subst hp hd hm
  unfold execVerify
  simp

@[simp] theorem sealConcerned_kept (s : State) (x1 n : Nat) (all : Bool) : Keeps s (sealConcerned s x1 n all) := by
  unfold sealConcerned
  simp

@[simp] theorem execFlush_kept {qp : List Instr} {qd qm : Memory} (seq : Nat) (s : State) (hp : s.pending = qp) (hd
    : s.trw.dram = qd) (hm : s.trw.sram = qm) : NextKeeps qp qd qm (execFlush seq s) := by
  subst hp hd hm
  unfold execFlush
  (repeat' split) <;> simp

@[simp] theorem hodGo_kept (s : State) (c : Nat) (vendor : Bool) : Keeps s (hodGo s c vendor) := by
  unfold hodGo
  simp

@[simp] theorem execHodGo_kept {qp : List Instr} {qd qm : Memory} (c : Nat) (set : Option (List Word)) (tile ctx
    : Nat) (s : State) (hp : s.pending = qp) (hd : s.trw.dram = qd) (hm : s.trw.sram = qm) : NextKeeps qp qd qm
    (execHodGo c set tile ctx s) := by
  subst hp hd hm
  unfold execHodGo
  (repeat' split) <;> simp

@[simp] theorem dramStore_wf (s : State) (addr : Nat) (bs : List Byte) (hd : s.trw.dram.wf = true) (hm
    : s.trw.sram.wf = true) : KeepsWf s (dramStore s addr bs) := by
  unfold dramStore
  simp [hd, hm]

@[simp] theorem hodMove_wf (s : State) (c n : Nat) (host : List Byte) (hd : s.trw.dram.wf = true) (hm
    : s.trw.sram.wf = true) : KeepsWf s (hodMove s c n host) := by
  unfold hodMove
  dsimp only
  (repeat' split) <;> simp_all

@[simp] theorem hodWindowEnd_kept (s : State) (c : Nat) : Keeps s (hodWindowEnd s c) := by
  unfold hodWindowEnd
  simp

@[simp] theorem execHodTransferEnd_wf {qp : List Instr} (c status n : Nat) (host : List Byte) (s : State) (hp
    : s.pending = qp) (hd : s.trw.dram.wf = true) (hm : s.trw.sram.wf = true) : NextWf qp
    (execHodTransferEnd c status n host s) := by
  subst hp
  unfold execHodTransferEnd
  dsimp only
  (repeat' split) <;> simp_all

@[simp] theorem execHodPause_kept {qp : List Instr} {qd qm : Memory} (c : Nat) (byCtl : Bool) (s : State) (hp
    : s.pending = qp) (hd : s.trw.dram = qd) (hm : s.trw.sram = qm) : NextKeeps qp qd qm (execHodPause c byCtl s) := by
  subst hp hd hm
  unfold execHodPause
  simp

@[simp] theorem execHodResume_kept {qp : List Instr} {qd qm : Memory} (c : Nat) (byCtl : Bool) (s : State) (hp
    : s.pending = qp) (hd : s.trw.dram = qd) (hm : s.trw.sram = qm) : NextKeeps qp qd qm (execHodResume c byCtl s) := by
  subst hp hd hm
  unfold execHodResume
  simp

@[simp] theorem execHodAbort_kept {qp : List Instr} {qd qm : Memory} (c : Nat) (byCtl : Bool) (s : State) (hp
    : s.pending = qp) (hd : s.trw.dram = qd) (hm : s.trw.sram = qm) : NextKeeps qp qd qm (execHodAbort c byCtl s) := by
  subst hp hd hm
  unfold execHodAbort
  simp

@[simp] theorem execHodDrainEnd_wf {qp : List Instr} (c n : Nat) (host : List Byte) (s : State) (hp : s.pending = qp)
    (hd : s.trw.dram.wf = true) (hm : s.trw.sram.wf = true) : NextWf qp (execHodDrainEnd c n host s) := by
  subst hp
  unfold execHodDrainEnd
  dsimp only
  (repeat' split) <;> simp_all

@[simp] theorem hodClaimBit_kept (s : State) (c : Nat) (want : Bool) : Keeps s (hodClaimBit s c want) := by
  unfold hodClaimBit
  simp

@[simp] theorem execHodClaim_kept {qp : List Instr} {qd qm : Memory} (value : Word) (s : State) (hp : s.pending = qp)
    (hd : s.trw.dram = qd) (hm : s.trw.sram = qm) : NextKeeps qp qd qm (execHodClaim value s) := by
  subst hp hd hm
  unfold execHodClaim
  simp

@[simp] theorem execHodChannelRetire_kept {qp : List Instr} {qd qm : Memory} (c : Nat) (s : State) (hp
    : s.pending = qp) (hd : s.trw.dram = qd) (hm : s.trw.sram = qm) : NextKeeps qp qd qm (execHodChannelRetire c s) := by
  subst hp hd hm
  unfold execHodChannelRetire
  simp

@[simp] theorem pushBytes_kept (s : State) (g : Grant) (off : Nat) (bs : List Byte) : Keeps s (pushBytes s g off bs) := by
  unfold pushBytes
  simp

@[simp] theorem pushDenied_kept (s : State) (seq : Nat) : Keeps s (pushDenied s seq) := by
  unfold pushDenied
  simp

@[simp] theorem execPush_kept {qp : List Instr} {qd qm : Memory} (seq : Nat) (bad : List BadBlock) (fenceOk : Bool) (s
    : State) (hp : s.pending = qp) (hd : s.trw.dram = qd) (hm : s.trw.sram = qm) : NextKeeps qp qd qm
    (execPush seq bad fenceOk s) := by
  subst hp hd hm
  unfold execPush
  (repeat' split) <;> simp

@[simp] theorem modRnd_kept (s : State) (f : Render → Render) : Keeps s (modRnd s f) := by
  unfold modRnd
  simp

@[simp] theorem setRndCtx_kept (s : State) (n : Nat) (c : Option RndCtx) : Keeps s (setRndCtx s n c) := by
  unfold setRndCtx
  simp

@[simp] theorem rndArrive_kept (s : State) (j : RenderJob) : Keeps s (rndArrive s j) := by
  unfold rndArrive
  simp

@[simp] theorem execCompress_kept {qp : List Instr} {qd qm : Memory} (job : RenderJob) (s : State) (hp
    : s.pending = qp) (hd : s.trw.dram = qd) (hm : s.trw.sram = qm) : NextKeeps qp qd qm (execCompress job s) := by
  subst hp hd hm
  unfold execCompress
  simp

@[simp] theorem execDecompress_kept {qp : List Instr} {qd qm : Memory} (job : RenderJob) (s : State) (hp
    : s.pending = qp) (hd : s.trw.dram = qd) (hm : s.trw.sram = qm) : NextKeeps qp qd qm (execDecompress job s) := by
  subst hp hd hm
  unfold execDecompress
  simp

@[simp] theorem execRenderResume_kept {qp : List Instr} {qd qm : Memory} (job : RenderJob) (s : State) (hp
    : s.pending = qp) (hd : s.trw.dram = qd) (hm : s.trw.sram = qm) : NextKeeps qp qd qm (execRenderResume job s) := by
  subst hp hd hm
  unfold execRenderResume
  simp

@[simp] theorem execRenderFree_kept {qp : List Instr} {qd qm : Memory} (job : RenderJob) (s : State) (hp
    : s.pending = qp) (hd : s.trw.dram = qd) (hm : s.trw.sram = qm) : NextKeeps qp qd qm (execRenderFree job s) := by
  subst hp hd hm
  unfold execRenderFree
  simp

@[simp] theorem rndResult_kept (s : State) (j : RenderJob) (status engine consumed produced crc : Nat) (retried
    : Bool) : Keeps s (rndResult s j status engine consumed produced crc retried) := by
  unfold rndResult
  simp

@[simp] theorem badJob_kept (s : State) (j : RenderJob) (status engine : Nat) : Keeps s (badJob s j status engine) := by
  unfold badJob
  (repeat' split) <;> simp

@[simp] theorem execRenderDispatch_kept {qp : List Instr} {qd qm : Memory} (s : State) (hp : s.pending = qp) (hd
    : s.trw.dram = qd) (hm : s.trw.sram = qm) : NextKeeps qp qd qm (execRenderDispatch s) := by
  subst hp hd hm
  unfold execRenderDispatch
  (repeat' split) <;> simp

@[simp] theorem runJob_kept (s : State) (j : RenderJob) : Keeps s (runJob s j).2 := by
  unfold runJob
  simp

@[simp] theorem finishJob_wf (s : State) (e : Nat) (it : RndItem) (r : JobEnd) (hd : s.trw.dram.wf = true) (hm
    : s.trw.sram.wf = true) : KeepsWf s (finishJob s e it r) := by
  unfold finishJob
  simp [hd, hm]

@[simp] theorem granuleLost_kept (s : State) (j : RenderJob) : Keeps s (granuleLost s j) := by
  unfold granuleLost
  dsimp only
  (repeat' split) <;> simp

@[simp] theorem clearEngine_kept (s : State) (e : Nat) : Keeps s (clearEngine s e) := by
  unfold clearEngine
  simp

@[simp] theorem requeue_kept (s : State) (e : Nat) (it : RndItem) : Keeps s (requeue s e it) := by
  unfold requeue
  simp

@[simp] theorem execRenderJobEnd_wf {qp : List Instr} (e : Nat) (s : State) (hp : s.pending = qp) (hd
    : s.trw.dram.wf = true) (hm : s.trw.sram.wf = true) : NextWf qp (execRenderJobEnd e s) := by
  subst hp
  unfold execRenderJobEnd
  (repeat' split) <;> simp_all

@[simp] theorem retireEngine_kept (s : State) (e : Nat) : Keeps s (retireEngine s e) := by
  unfold retireEngine
  dsimp only
  (repeat' split) <;> simp

@[simp] theorem execVerifyMismatch_kept {qp : List Instr} {qd qm : Memory} (e : Nat) (katOk : Bool) (s : State) (hp
    : s.pending = qp) (hd : s.trw.dram = qd) (hm : s.trw.sram = qm) : NextKeeps qp qd qm
    (execVerifyMismatch e katOk s) := by
  subst hp hd hm
  unfold execVerifyMismatch
  (repeat' split) <;> simp

@[simp] theorem execRenderKatTick_kept {qp : List Instr} {qd qm : Memory} (e : Nat) (good : Bool) (s : State) (hp
    : s.pending = qp) (hd : s.trw.dram = qd) (hm : s.trw.sram = qm) : NextKeeps qp qd qm (execRenderKatTick e good s) := by
  subst hp hd hm
  unfold execRenderKatTick
  simp

@[simp] theorem execCreateQp_kept {qp : List Instr} {qd qm : Memory} (seq : Nat) (s : State) (hp : s.pending = qp) (hd
    : s.trw.dram = qd) (hm : s.trw.sram = qm) : NextKeeps qp qd qm (execCreateQp seq s) := by
  subst hp hd hm
  unfold execCreateQp
  (repeat' split) <;> simp

@[simp] theorem execDeleteQp_kept {qp : List Instr} {qd qm : Memory} (seq : Nat) (s : State) (hp : s.pending = qp) (hd
    : s.trw.dram = qd) (hm : s.trw.sram = qm) : NextKeeps qp qd qm (execDeleteQp seq s) := by
  subst hp hd hm
  unfold execDeleteQp
  (repeat' split) <;> simp

@[simp] theorem execIdentify_kept {qp : List Instr} {qd qm : Memory} (seq : Nat) (s : State) (hp : s.pending = qp) (hd
    : s.trw.dram = qd) (hm : s.trw.sram = qm) : NextKeeps qp qd qm (execIdentify seq s) := by
  subst hp hd hm
  unfold execIdentify
  dsimp only
  (repeat' split) <;> simp

@[simp] theorem execGetLog_kept {qp : List Instr} {qd qm : Memory} (seq : Nat) (s : State) (hp : s.pending = qp) (hd
    : s.trw.dram = qd) (hm : s.trw.sram = qm) : NextKeeps qp qd qm (execGetLog seq s) := by
  subst hp hd hm
  unfold execGetLog
  (repeat' split) <;> simp

@[simp] theorem execJournalQuery_kept {qp : List Instr} {qd qm : Memory} (seq : Nat) (s : State) (hp : s.pending = qp)
    (hd : s.trw.dram = qd) (hm : s.trw.sram = qm) : NextKeeps qp qd qm (execJournalQuery seq s) := by
  subst hp hd hm
  unfold execJournalQuery
  (repeat' split) <;> simp

@[simp] theorem drawEntropy_kept (s : State) : Keeps s (drawEntropy s).2 := by
  unfold drawEntropy
  simp

@[simp] theorem tenantCommand_kept (s : State) (seq opc : Nat) (f : Cmd → Nat → State)
    (hf : ∀ c t, (f c t).pending = s.pending ∧ (f c t).trw.dram = s.trw.dram ∧ (f c t).trw.sram = s.trw.sram) :
    (tenantCommand s seq opc f).pending = s.pending ∧ (tenantCommand s seq opc f).trw.dram = s.trw.dram ∧ (tenantCommand s seq opc f).trw.sram = s.trw.sram := by
  unfold tenantCommand
  dsimp only
  repeat' split
  all_goals first | exact hf _ _ | simp

@[simp] theorem execTenantCreate_kept {qp : List Instr} {qd qm : Memory} (seq : Nat) (s : State) (hp : s.pending = qp)
    (hd : s.trw.dram = qd) (hm : s.trw.sram = qm) : NextKeeps qp qd qm (execTenantCreate seq s) := by
  subst hp hd hm
  unfold execTenantCreate
  dsimp only
  (repeat' split) <;> simp

@[simp] theorem installContract_kept (s : State) (t : Nat) (c : Option Contract) :
    (installContract s t c).pending = s.pending ∧ (installContract s t c).trw.dram = s.trw.dram ∧ (installContract s t c).trw.sram = s.trw.sram := by
  unfold installContract
  dsimp only [List.foldl]
  generalize contractOf (modTenNv s t fun r => { r with contract := c }) t = new
  generalize new.getD 0 none = a
  generalize new.getD 1 none = b
  generalize new.getD 2 none = d
  cases a <;> cases b <;> cases d <;> simp

@[simp] theorem destroyTenant_kept (s : State) (x1 : Nat) : Keeps s (destroyTenant s x1) := by
  unfold destroyTenant
  simp

@[simp] theorem execTenantDestroy_kept {qp : List Instr} {qd qm : Memory} (seq : Nat) (s : State) (hp
    : s.pending = qp) (hd : s.trw.dram = qd) (hm : s.trw.sram = qm) : NextKeeps qp qd qm (execTenantDestroy seq s) := by
  subst hp hd hm
  unfold execTenantDestroy
  dsimp only
  (repeat' split) <;> simp

@[simp] theorem releaseNs_kept (s : State) (x1 : Nat) (p : Nat → Bool) : Keeps s (releaseNs s x1 p) := by
  unfold releaseNs
  simp

@[simp] theorem execDestroyReleaseEnd_kept {qp : List Instr} {qd qm : Memory} (x0 : Nat) (s : State) (hp
    : s.pending = qp) (hd : s.trw.dram = qd) (hm : s.trw.sram = qm) : NextKeeps qp qd qm (execDestroyReleaseEnd x0 s) := by
  subst hp hd hm
  unfold execDestroyReleaseEnd
  simp

@[simp] theorem execKeyLoad_kept {qp : List Instr} {qd qm : Memory} (seq : Nat) (blob : KeyBlob) (s : State) (hp
    : s.pending = qp) (hd : s.trw.dram = qd) (hm : s.trw.sram = qm) : NextKeeps qp qd qm (execKeyLoad seq blob s) := by
  subst hp hd hm
  unfold execKeyLoad
  simp

@[simp] theorem execKeyUnload_kept {qp : List Instr} {qd qm : Memory} (seq : Nat) (s : State) (hp : s.pending = qp)
    (hd : s.trw.dram = qd) (hm : s.trw.sram = qm) : NextKeeps qp qd qm (execKeyUnload seq s) := by
  subst hp hd hm
  unfold execKeyUnload
  simp

@[simp] theorem execNsCreate_kept {qp : List Instr} {qd qm : Memory} (seq : Nat) (s : State) (hp : s.pending = qp) (hd
    : s.trw.dram = qd) (hm : s.trw.sram = qm) : NextKeeps qp qd qm (execNsCreate seq s) := by
  subst hp hd hm
  unfold execNsCreate
  simp

@[simp] theorem execNsDelete_kept {qp : List Instr} {qd qm : Memory} (seq : Nat) (s : State) (hp : s.pending = qp) (hd
    : s.trw.dram = qd) (hm : s.trw.sram = qm) : NextKeeps qp qd qm (execNsDelete seq s) := by
  subst hp hd hm
  unfold execNsDelete
  simp

@[simp] theorem execContractSet_kept {qp : List Instr} {qd qm : Memory} (seq : Nat) (record : List Byte) (s : State)
    (hp : s.pending = qp) (hd : s.trw.dram = qd) (hm : s.trw.sram = qm) : NextKeeps qp qd qm
    (execContractSet seq record s) := by
  subst hp hd hm
  unfold execContractSet
  simp

@[simp] theorem execContractClear_kept {qp : List Instr} {qd qm : Memory} (seq : Nat) (s : State) (hp
    : s.pending = qp) (hd : s.trw.dram = qd) (hm : s.trw.sram = qm) : NextKeeps qp qd qm (execContractClear seq s) := by
  subst hp hd hm
  unfold execContractClear
  simp

@[simp] theorem execPushGrant_kept {qp : List Instr} {qd qm : Memory} (seq : Nat) (s : State) (hp : s.pending = qp)
    (hd : s.trw.dram = qd) (hm : s.trw.sram = qm) : NextKeeps qp qd qm (execPushGrant seq s) := by
  subst hp hd hm
  unfold execPushGrant
  simp

@[simp] theorem execPushRevoke_kept {qp : List Instr} {qd qm : Memory} (seq : Nat) (s : State) (hp : s.pending = qp)
    (hd : s.trw.dram = qd) (hm : s.trw.sram = qm) : NextKeeps qp qd qm (execPushRevoke seq s) := by
  subst hp hd hm
  unfold execPushRevoke
  simp

@[simp] theorem drawNonce_kept (s : State) : Keeps s (drawNonce s) := by
  unfold drawNonce
  simp

@[simp] theorem clearAreas_kept (s : State) (scope : Nat) : Keeps s (clearAreas s scope) := by
  unfold clearAreas
  simp

@[simp] theorem execDaymarkClear_kept {qp : List Instr} {qd qm : Memory} (seq : Nat) (req : ClearReq) (persistOk
    : Bool) (s : State) (hp : s.pending = qp) (hd : s.trw.dram = qd) (hm : s.trw.sram = qm) : NextKeeps qp qd qm
    (execDaymarkClear seq req persistOk s) := by
  subst hp hd hm
  unfold execDaymarkClear
  (repeat' split) <;> simp

end Sys2Proof.Laws
end

