-- ==== Sys2Proof/Laws/KeptMotion.lean ====
section
/-! SUPPORT. Each operation of disks, servo, read channel, spindles and Lantern keeps the queue and the memories,
or (`_wf`) keeps the queue and leaves the memories in canonical form; one lemma per operation, for later proofs to cite
in place of unfolding it. -/

open Sys2Proof.Machine

namespace Sys2Proof.Laws

@[simp] theorem modRdc_kept (s : State) (a : Nat) (f : RdChan → RdChan) : Keeps s (modRdc s a f) := by
  unfold modRdc
  simp

@[simp] theorem showRdc_kept (s : State) (a : Nat) : Keeps s (showRdc s a) := by
  unfold showRdc
  simp

@[simp] theorem pushFrame_kept (s : State) (a : Nat) (f : Frame) : Keeps s (pushFrame s a f) := by
  unfold pushFrame
  simp

@[simp] theorem setMode_kept (s : State) (a m : Nat) (urgent : Bool) : Keeps s (setMode s a m urgent) := by
  unfold setMode
  simp

@[simp] theorem linkInit_kept (s : State) (a : Nat) : Keeps s (linkInit s a) := by
  unfold linkInit
  simp

@[simp] theorem pushHeat_kept (s : State) (a head code : Nat) : Keeps s (pushHeat s a head code) := by
  unfold pushHeat
  simp

@[simp] theorem heaterOff_kept (s : State) (a : Nat) : Keeps s (heaterOff s a) := by
  unfold heaterOff
  (repeat' split) <;> simp

@[simp] theorem postDisk_kept (s : State) (a : Nat) (o : DiskOp) (status fail : Nat) : Keeps s
    (postDisk s a o status fail) := by
  unfold postDisk
  simp

@[simp] theorem finishDisk_kept (s : State) (a : Nat) (o : DiskOp) (status fail : Nat) (urgent : Bool) : Keeps s
    (finishDisk s a o status fail urgent) := by
  unfold finishDisk
  simp

@[simp] theorem writeSectors_kept (s : State) (a : Nat) (o : DiskOp) (n : Nat) : Keeps s (writeSectors s a o n) := by
  unfold writeSectors
  simp

@[simp] theorem endCal_kept (s : State) (a proc head zone result : Nat) : Keeps s (endCal s a proc head zone result) := by
  unfold endCal
  simp

@[simp] theorem abortCal_kept (s : State) (a result : Nat) : Keeps s (abortCal s a result) := by
  unfold abortCal
  (repeat' split) <;> simp

@[simp] theorem dropGate_kept (s : State) (a status : Nat) (afterSector : Bool) : Keeps s
    (dropGate s a status afterSector) := by
  unfold dropGate
  dsimp only
  (repeat' split) <;> simp

@[simp] theorem endAllOps_kept (s : State) (a status : Nat) : Keeps s (endAllOps s a status) := by
  unfold endAllOps
  (repeat' split) <;> simp

@[simp] theorem retirePath_kept (s : State) (a : Nat) : Keeps s (retirePath s a) := by
  unfold retirePath
  simp

@[simp] theorem rdcPowerOff_kept (s : State) (a : Nat) : Keeps s (rdcPowerOff s a) := by
  unfold rdcPowerOff
  simp

@[simp] theorem modSrv_kept (s : State) (a : Nat) (f : Servo → Servo) : Keeps s (modSrv s a f) := by
  unfold modSrv
  simp

@[simp] theorem enterMeasured_kept (s : State) (m : Measured) : Keeps s (enterMeasured s m).1 := by
  unfold enterMeasured
  dsimp only
  (repeat' split) <;> simp

@[simp] theorem compTrip_kept (s : State) (a : Nat) : Keeps s (compTrip s a) := by
  unfold compTrip
  simp

@[simp] theorem setInhibit_kept (s : State) (a k : Nat) (b : Bool) : Keeps s (setInhibit s a k b) := by
  unfold setInhibit
  simp

@[simp] theorem offTrack_kept (s : State) (a : Nat) : Keeps s (offTrack s a) := by
  unfold offTrack
  simp

@[simp] theorem setSrvState_kept (s : State) (a st : Nat) : Keeps s (setSrvState s a st) := by
  unfold setSrvState
  simp

@[simp] theorem setPark_kept (s : State) (a r : Nat) : Keeps s (setPark s a r) := by
  unfold setPark
  simp

@[simp] theorem setBridge_kept (s : State) (a : Nat) (on : Bool) : Keeps s (setBridge s a on) := by
  unfold setBridge
  simp

@[simp] theorem unloadStart_kept (s : State) (a : Nat) : Keeps s (unloadStart s a) := by
  unfold unloadStart
  simp

@[simp] theorem endOfsCal_kept (s : State) (a result : Nat) : Keeps s (endOfsCal s a result) := by
  unfold endOfsCal
  simp

@[simp] theorem abortOfsCal_kept (s : State) (a result : Nat) : Keeps s (abortOfsCal s a result) := by
  unfold abortOfsCal
  simp

@[simp] theorem retract_kept (s : State) (a : Nat) : Keeps s (retract s a) := by
  unfold retract
  simp

@[simp] theorem guided_kept (s : State) (a : Nat) : Keeps s (guided s a) := by
  unfold guided
  simp

@[simp] theorem unloadReq_kept (s : State) (a : Nat) : Keeps s (unloadReq s a) := by
  unfold unloadReq
  simp

@[simp] theorem retractReq_kept (s : State) (a : Nat) : Keeps s (retractReq s a) := by
  unfold retractReq
  simp

@[simp] theorem enterRetired_kept (s : State) (a : Nat) : Keeps s (enterRetired s a) := by
  unfold enterRetired
  simp

@[simp] theorem retireAct_kept (s : State) (a : Nat) (seqOnly : Bool) : Keeps s (retireAct s a seqOnly) := by
  unfold retireAct
  simp

@[simp] theorem strand_kept (s : State) (a : Nat) : Keeps s (strand s a) := by
  unfold strand
  simp

@[simp] theorem startLoad_kept (s : State) (a : Nat) : Keeps s (startLoad s a) := by
  unfold startLoad
  simp

@[simp] theorem unloadEnd_kept (s : State) (a : Nat) : Keeps s (unloadEnd s a) := by
  unfold unloadEnd
  simp

@[simp] theorem loadFailed_kept (s : State) (a : Nat) : Keeps s (loadFailed s a) := by
  unfold loadFailed
  simp

@[simp] theorem acquired_kept (s : State) (a : Nat) : Keeps s (acquired s a) := by
  unfold acquired
  simp

@[simp] theorem switchHeads_kept (s : State) (a head : Nat) : Keeps s (switchHeads s a head) := by
  unfold switchHeads
  simp

@[simp] theorem markBad_kept (s : State) (a : Nat) : Keeps s (markBad s a) := by
  unfold markBad
  simp

@[simp] theorem showPosition_kept (s : State) (a : Nat) : Keeps s (showPosition s a) := by
  unfold showPosition
  simp

@[simp] theorem compareWedge_kept (s : State) (a : Nat) : Keeps s (compareWedge s a) := by
  unfold compareWedge
  simp

@[simp] theorem showSeekTime_kept (s : State) (a : Nat) : Keeps s (showSeekTime s a) := by
  unfold showSeekTime
  (repeat' split) <;> simp

@[simp] theorem judgeTrack_kept (s : State) (a : Nat) : Keeps s (judgeTrack s a) := by
  unfold judgeTrack
  simp

@[simp] theorem judgeLoops_kept (s : State) (a : Nat) : Keeps s (judgeLoops s a) := by
  unfold judgeLoops
  simp

@[simp] theorem feedTf_kept (s : State) (a : Nat) (sp : Rat × Rat × Rat) (phase : Nat) (dt : Rat) : Keeps s
    (feedTf s a sp phase dt) := by
  unfold feedTf
  simp

@[simp] theorem driveWedge_kept (s : State) (a : Nat) (dt : Rat) : Keeps s (driveWedge s a dt) := by
  unfold driveWedge
  simp

@[simp] theorem outwardWedge_kept (s : State) (a : Nat) : Keeps s (outwardWedge s a) := by
  unfold outwardWedge
  simp

@[simp] theorem servoWedge_kept (s : State) (a : Nat) (ins : List LaneIn) : Keeps s (servoWedge s a ins) := by
  unfold servoWedge
  simp

@[simp] theorem execServoWedge_kept {qp : List Instr} {qd qm : Memory} (a : Nat) (lanes : List LaneIn) (s : State) (hp
    : s.pending = qp) (hd : s.trw.dram = qd) (hm : s.trw.sram = qm) : NextKeeps qp qd qm (execServoWedge a lanes s) := by
  subst hp hd hm
  unfold execServoWedge
  simp

@[simp] theorem execWriteInhibitAssert_kept {qp : List Instr} {qd qm : Memory} (a k : Nat) (s : State) (hp
    : s.pending = qp) (hd : s.trw.dram = qd) (hm : s.trw.sram = qm) : NextKeeps qp qd qm
    (execWriteInhibitAssert a k s) := by
  subst hp hd hm
  unfold execWriteInhibitAssert
  simp

@[simp] theorem execTrackLost_kept {qp : List Instr} {qd qm : Memory} (a : Nat) (s : State) (hp : s.pending = qp) (hd
    : s.trw.dram = qd) (hm : s.trw.sram = qm) : NextKeeps qp qd qm (execTrackLost a s) := by
  subst hp hd hm
  unfold execTrackLost
  simp

@[simp] theorem shockActuator_kept (s : State) (a : Nat) : Keeps s (shockActuator s a) := by
  unfold shockActuator
  simp

@[simp] theorem execShockCapture_kept {qp : List Instr} {qd qm : Memory} (gpio : Bool) (k : Nat) (s : State) (hp
    : s.pending = qp) (hd : s.trw.dram = qd) (hm : s.trw.sram = qm) : NextKeeps qp qd qm (execShockCapture gpio k s) := by
  subst hp hd hm
  unfold execShockCapture
  simp

@[simp] theorem execShockHoldEnd_kept {qp : List Instr} {qd qm : Memory} (x0 : Nat) (s : State) (hp : s.pending = qp)
    (hd : s.trw.dram = qd) (hm : s.trw.sram = qm) : NextKeeps qp qd qm (execShockHoldEnd x0 s) := by
  subst hp hd hm
  unfold execShockHoldEnd
  simp

@[simp] theorem execSatInhibit_kept {qp : List Instr} {qd qm : Memory} (a : Nat) (s : State) (hp : s.pending = qp) (hd
    : s.trw.dram = qd) (hm : s.trw.sram = qm) : NextKeeps qp qd qm (execSatInhibit a s) := by
  subst hp hd hm
  unfold execSatInhibit
  simp

@[simp] theorem execHeadSwitch_kept {qp : List Instr} {qd qm : Memory} (a head : Nat) (s : State) (hp
    : s.pending = qp) (hd : s.trw.dram = qd) (hm : s.trw.sram = qm) : NextKeeps qp qd qm (execHeadSwitch a head s) := by
  subst hp hd hm
  unfold execHeadSwitch
  simp

@[simp] theorem takeSeekResults_kept (s : State) (a : Nat) : Keeps s (takeSeekResults s a) := by
  unfold takeSeekResults
  dsimp only
  (repeat' split) <;> simp

@[simp] theorem execSeekStart_kept {qp : List Instr} {qd qm : Memory} (a : Nat) (s : State) (hp : s.pending = qp) (hd
    : s.trw.dram = qd) (hm : s.trw.sram = qm) : NextKeeps qp qd qm (execSeekStart a s) := by
  subst hp hd hm
  unfold execSeekStart
  (repeat' split) <;> simp

@[simp] theorem execSrvCalRequest_kept {qp : List Instr} {qd qm : Memory} (a : Nat) (value : Word) (s : State) (hp
    : s.pending = qp) (hd : s.trw.dram = qd) (hm : s.trw.sram = qm) : NextKeeps qp qd qm (execSrvCalRequest a value s) := by
  subst hp hd hm
  unfold execSrvCalRequest
  simp

@[simp] theorem storeOffsets_kept (s : State) (a z : Nat) (stats : List (Rat × Rat)) : Keeps s
    (storeOffsets s a z stats) := by
  unfold storeOffsets
  simp

@[simp] theorem execOffsetCalibration_kept {qp : List Instr} {qd qm : Memory} (a zone result : Nat) (stats : List
    (Rat × Rat)) (s : State) (hp : s.pending = qp) (hd : s.trw.dram = qd) (hm : s.trw.sram = qm) : NextKeeps qp qd qm
    (execOffsetCalibration a zone result stats s) := by
  subst hp hd hm
  unfold execOffsetCalibration
  simp

@[simp] theorem driveCoil_kept (s : State) (a : Nat) (cmd vm i : Rat) : Keeps s (driveCoil s a cmd vm i) := by
  unfold driveCoil
  simp

@[simp] theorem sampleR_kept (s : State) (a : Nat) (volts i : Rat) : Keeps s (sampleR s a volts i) := by
  unfold sampleR
  dsimp only
  (repeat' split) <;> simp

@[simp] theorem execVcmPwmSample_kept {qp : List Instr} {qd qm : Memory} (a : Nat) (iA iB : Conv) (volts vm : Rat) (s
    : State) (hp : s.pending = qp) (hd : s.trw.dram = qd) (hm : s.trw.sram = qm) : NextKeeps qp qd qm
    (execVcmPwmSample a iA iB volts vm s) := by
  subst hp hd hm
  unfold execVcmPwmSample
  simp

@[simp] theorem execShuntLost_kept {qp : List Instr} {qd qm : Memory} (a leg : Nat) (s : State) (hp : s.pending = qp)
    (hd : s.trw.dram = qd) (hm : s.trw.sram = qm) : NextKeeps qp qd qm (execShuntLost a leg s) := by
  subst hp hd hm
  unfold execShuntLost
  simp

@[simp] theorem execVcmDriverFault_kept {qp : List Instr} {qd qm : Memory} (a : Nat) (s : State) (hp : s.pending = qp)
    (hd : s.trw.dram = qd) (hm : s.trw.sram = qm) : NextKeeps qp qd qm (execVcmDriverFault a s) := by
  subst hp hd hm
  unfold execVcmDriverFault
  simp

@[simp] theorem execVcmDriverRetry_kept {qp : List Instr} {qd qm : Memory} (a : Nat) (ok : Bool) (s : State) (hp
    : s.pending = qp) (hd : s.trw.dram = qd) (hm : s.trw.sram = qm) : NextKeeps qp qd qm (execVcmDriverRetry a ok s) := by
  subst hp hd hm
  unfold execVcmDriverRetry
  simp

@[simp] theorem execRetract_kept {qp : List Instr} {qd qm : Memory} (a : Nat) (s : State) (hp : s.pending = qp) (hd
    : s.trw.dram = qd) (hm : s.trw.sram = qm) : NextKeeps qp qd qm (execRetract a s) := by
  subst hp hd hm
  unfold execRetract
  simp

@[simp] theorem execRetractDone_kept {qp : List Instr} {qd qm : Memory} (a : Nat) (s : State) (hp : s.pending = qp)
    (hd : s.trw.dram = qd) (hm : s.trw.sram = qm) : NextKeeps qp qd qm (execRetractDone a s) := by
  subst hp hd hm
  unfold execRetractDone
  simp

@[simp] theorem execGuidedUnload_kept {qp : List Instr} {qd qm : Memory} (a : Nat) (s : State) (hp : s.pending = qp)
    (hd : s.trw.dram = qd) (hm : s.trw.sram = qm) : NextKeeps qp qd qm (execGuidedUnload a s) := by
  subst hp hd hm
  unfold execGuidedUnload
  simp

@[simp] theorem execUnloadRequest_kept {qp : List Instr} {qd qm : Memory} (a : Nat) (s : State) (hp : s.pending = qp)
    (hd : s.trw.dram = qd) (hm : s.trw.sram = qm) : NextKeeps qp qd qm (execUnloadRequest a s) := by
  subst hp hd hm
  unfold execUnloadRequest
  simp

@[simp] theorem execUnloadDone_kept {qp : List Instr} {qd qm : Memory} (a : Nat) (s : State) (hp : s.pending = qp) (hd
    : s.trw.dram = qd) (hm : s.trw.sram = qm) : NextKeeps qp qd qm (execUnloadDone a s) := by
  subst hp hd hm
  unfold execUnloadDone
  simp

@[simp] theorem resyncDisk_kept (s : State) (x1 : Nat) (bad : List Nat) (n : Nat) : Keeps s (resyncDisk s x1 bad n) := by
  unfold resyncDisk
  simp

@[simp] theorem execLoad_kept {qp : List Instr} {qd qm : Memory} (a : Nat) (kt : Option Measured) (bad : List Nat) (n
    : Nat) (s : State) (hp : s.pending = qp) (hd : s.trw.dram = qd) (hm : s.trw.sram = qm) : NextKeeps qp qd qm
    (execLoad a kt bad n s) := by
  subst hp hd hm
  unfold execLoad
  (repeat' split) <;> simp

@[simp] theorem execLoadTimeout_kept {qp : List Instr} {qd qm : Memory} (a : Nat) (s : State) (hp : s.pending = qp)
    (hd : s.trw.dram = qd) (hm : s.trw.sram = qm) : NextKeeps qp qd qm (execLoadTimeout a s) := by
  subst hp hd hm
  unfold execLoadTimeout
  simp

@[simp] theorem execLoadRetry_kept {qp : List Instr} {qd qm : Memory} (a : Nat) (s : State) (hp : s.pending = qp) (hd
    : s.trw.dram = qd) (hm : s.trw.sram = qm) : NextKeeps qp qd qm (execLoadRetry a s) := by
  subst hp hd hm
  unfold execLoadRetry
  simp

@[simp] theorem execParkUnknownListen_kept {qp : List Instr} {qd qm : Memory} (a : Nat) (lanesValid : Bool) (s
    : State) (hp : s.pending = qp) (hd : s.trw.dram = qd) (hm : s.trw.sram = qm) : NextKeeps qp qd qm
    (execParkUnknownListen a lanesValid s) := by
  subst hp hd hm
  unfold execParkUnknownListen
  simp

@[simp] theorem execPositionLost_kept {qp : List Instr} {qd qm : Memory} (a : Nat) (s : State) (hp : s.pending = qp)
    (hd : s.trw.dram = qd) (hm : s.trw.sram = qm) : NextKeeps qp qd qm (execPositionLost a s) := by
  subst hp hd hm
  unfold execPositionLost
  simp

@[simp] theorem stageUnits_kept (s : State) (a slot tag : Nat) (a4 : List Nat) : Keeps s (stageUnits s a slot tag a4) := by
  fun_induction stageUnits s a slot tag a4 <;> simp_all

@[simp] theorem arrive_kept (s : State) (a : Nat) (o : DiskOp) (units : List Nat) : Keeps s (arrive s a o units) := by
  unfold arrive
  simp

@[simp] theorem execDiskRead_kept {qp : List Instr} {qd qm : Memory} (a : Nat) (r : DiskReq) (s : State) (hp
    : s.pending = qp) (hd : s.trw.dram = qd) (hm : s.trw.sram = qm) : NextKeeps qp qd qm (execDiskRead a r s) := by
  subst hp hd hm
  unfold execDiskRead
  simp

@[simp] theorem requestPlace_kept (s : State) (a cyl head : Nat) (ofs : Rat) : Keeps s (requestPlace s a cyl head ofs) := by
  unfold requestPlace
  simp

@[simp] theorem requestHeat_kept (s : State) (a head : Nat) (write : Bool) : Keeps s (requestHeat s a head write) := by
  unfold requestHeat
  simp

@[simp] theorem execDiskOpSelect_kept {qp : List Instr} {qd qm : Memory} (a : Nat) (s : State) (hp : s.pending = qp)
    (hd : s.trw.dram = qd) (hm : s.trw.sram = qm) : NextKeeps qp qd qm (execDiskOpSelect a s) := by
  subst hp hd hm
  unfold execDiskOpSelect
  (repeat' split) <;> simp

@[simp] theorem needMode_kept {qp : List Instr} {qd qm : Memory} (s : State) (a m : Nat) (hp : s.pending = qp) (hd
    : s.trw.dram = qd) (hm : s.trw.sram = qm) : SomeKeeps qp qd qm (needMode s a m) := by
  subst hp hd hm
  unfold needMode
  simp

@[simp] theorem execDiskWrite_kept {qp : List Instr} {qd qm : Memory} (a : Nat) (r : Option DiskReq) (n : Nat) (s
    : State) (hp : s.pending = qp) (hd : s.trw.dram = qd) (hm : s.trw.sram = qm) : NextKeeps qp qd qm
    (execDiskWrite a r n s) := by
  subst hp hd hm
  unfold execDiskWrite
  dsimp only
  repeat' split
  all_goals first
    | (simp; done)
    | (have k := SomeKeeps.of ‹needMode _ _ _ = some _› (needMode_kept _ _ _ rfl rfl rfl); simp [k]; done)
    | (have k := SomeKeeps.of ‹needMode _ _ _ = some _› (needMode_kept _ _ _ rfl rfl rfl); split <;> simp [k])

@[simp] theorem execDiskOpTimeout_kept {qp : List Instr} {qd qm : Memory} (a : Nat) (s : State) (hp : s.pending = qp)
    (hd : s.trw.dram = qd) (hm : s.trw.sram = qm) : NextKeeps qp qd qm (execDiskOpTimeout a s) := by
  subst hp hd hm
  unfold execDiskOpTimeout
  (repeat' split) <;> simp

@[simp] theorem withdrawBand_kept (s : State) (a band : Nat) : Keeps s (withdrawBand s a band) := by
  unfold withdrawBand
  simp

@[simp] theorem enterDefect_kept (s : State) (a : Nat) (o : DiskOp) (pos : Nat) : Keeps s (enterDefect s a o pos) := by
  unfold enterDefect
  simp

@[simp] theorem endDiskRead_kept (s : State) (a : Nat) (o : DiskOp) : Keeps s (endDiskRead s a o) := by
  unfold endDiskRead
  simp

@[simp] theorem noteCalDue_kept (s : State) (a head zone : Nat) : Keeps s (noteCalDue s a head zone) := by
  unfold noteCalDue
  simp

@[simp] theorem execReadPass_kept {qp : List Instr} {qd qm : Memory} (a : Nat) (got : List Nat) (syncMiss overrun
    : Nat) (s : State) (hp : s.pending = qp) (hd : s.trw.dram = qd) (hm : s.trw.sram = qm) : NextKeeps qp qd qm
    (execReadPass a got syncMiss overrun s) := by
  subst hp hd hm
  unfold execReadPass
  dsimp only
  repeat' split
  all_goals first
    | (simp; done)
    | (have k := SomeKeeps.of ‹needMode _ _ _ = some _› (needMode_kept _ _ _ rfl rfl rfl); simp [k]; done)
    | (have k := SomeKeeps.of ‹needMode _ _ _ = some _› (needMode_kept _ _ _ rfl rfl rfl); split <;> simp [k])

@[simp] theorem retireDataPath_kept (s : State) (a k : Nat) : Keeps s (retireDataPath s a k) := by
  unfold retireDataPath
  simp

@[simp] theorem wfltRead_kept (s : State) (a fstat : Nat) : Keeps s (wfltRead s a fstat) := by
  unfold wfltRead
  simp

@[simp] theorem execDataPathRetire_kept {qp : List Instr} {qd qm : Memory} (a k : Nat) (s : State) (hp
    : s.pending = qp) (hd : s.trw.dram = qd) (hm : s.trw.sram = qm) : NextKeeps qp qd qm (execDataPathRetire a k s) := by
  subst hp hd hm
  unfold execDataPathRetire
  simp

@[simp] theorem execWfltCapture_kept {qp : List Instr} {qd qm : Memory} (a : Nat) (s : State) (hp : s.pending = qp)
    (hd : s.trw.dram = qd) (hm : s.trw.sram = qm) : NextKeeps qp qd qm (execWfltCapture a s) := by
  subst hp hd hm
  unfold execWfltCapture
  simp

@[simp] theorem execSpeedExcursion_kept {qp : List Instr} {qd qm : Memory} (x0 : Nat) (inside : Bool) (s : State) (hp
    : s.pending = qp) (hd : s.trw.dram = qd) (hm : s.trw.sram = qm) : NextKeeps qp qd qm
    (execSpeedExcursion x0 inside s) := by
  subst hp hd hm
  unfold execSpeedExcursion
  simp

@[simp] theorem diskFence_kept (s : State) : Keeps s (diskFence s) := by
  unfold diskFence
  simp

@[simp] theorem execDiskFence_kept {qp : List Instr} {qd qm : Memory} (s : State) (hp : s.pending = qp) (hd
    : s.trw.dram = qd) (hm : s.trw.sram = qm) : NextKeeps qp qd qm (execDiskFence s) := by
  subst hp hd hm
  unfold execDiskFence
  simp

@[simp] theorem frontFrame_kept (s : State) (a : Nat) (f : Frame) : Keeps s (frontFrame s a f) := by
  unfold frontFrame
  simp

@[simp] theorem verified_kept (s : State) (a addr d : Nat) : Keeps s (verified s a addr d) := by
  unfold verified
  dsimp only
  (repeat' split) <;> simp

@[simp] theorem frameFailed_kept (s : State) (a : Nat) (f : Frame) : Keeps s (frameFailed s a f) := by
  unfold frameFailed
  (repeat' split) <;> simp

@[simp] theorem frameRead_kept (s : State) (a : Nat) (f : Frame) (value : Nat) : Keeps s (frameRead s a f value) := by
  unfold frameRead
  (repeat' split) <;> simp

@[simp] theorem execSerialFrame_kept {qp : List Instr} {qd qm : Memory} (a : Nat) (ok : Bool) (value : Nat) (s
    : State) (hp : s.pending = qp) (hd : s.trw.dram = qd) (hm : s.trw.sram = qm) : NextKeeps qp qd qm
    (execSerialFrame a ok value s) := by
  subst hp hd hm
  unfold execSerialFrame
  (repeat' split) <;> simp

@[simp] theorem execFstatPoll_kept {qp : List Instr} {qd qm : Memory} (a : Nat) (s : State) (hp : s.pending = qp) (hd
    : s.trw.dram = qd) (hm : s.trw.sram = qm) : NextKeeps qp qd qm (execFstatPoll a s) := by
  subst hp hd hm
  unfold execFstatPoll
  simp

@[simp] theorem execPreampRead_kept {qp : List Instr} {qd qm : Memory} (a : Nat) (value : Word) (s : State) (hp
    : s.pending = qp) (hd : s.trw.dram = qd) (hm : s.trw.sram = qm) : NextKeeps qp qd qm (execPreampRead a value s) := by
  subst hp hd hm
  unfold execPreampRead
  simp

@[simp] theorem execHeaterUpdate_kept {qp : List Instr} {qd qm : Memory} (a : Nat) (x1 : Option Int) (s : State) (hp
    : s.pending = qp) (hd : s.trw.dram = qd) (hm : s.trw.sram = qm) : NextKeeps qp qd qm (execHeaterUpdate a x1 s) := by
  subst hp hd hm
  unfold execHeaterUpdate
  dsimp only
  (repeat' split) <;> simp

@[simp] theorem execHeaterIdleOff_kept {qp : List Instr} {qd qm : Memory} (a : Nat) (s : State) (hp : s.pending = qp)
    (hd : s.trw.dram = qd) (hm : s.trw.sram = qm) : NextKeeps qp qd qm (execHeaterIdleOff a s) := by
  subst hp hd hm
  unfold execHeaterIdleOff
  simp

@[simp] theorem calDone_kept (s : State) (a p head zone : Nat) : Keeps s (calDone s a p head zone) := by
  unfold calDone
  simp

@[simp] theorem execOffsetCal_kept {qp : List Instr} {qd qm : Memory} (a result : Nat) (s : State) (hp
    : s.pending = qp) (hd : s.trw.dram = qd) (hm : s.trw.sram = qm) : NextKeeps qp qd qm (execOffsetCal a result s) := by
  subst hp hd hm
  unfold execOffsetCal
  simp

@[simp] theorem setCal_kept (s : State) (a head zone : Nat) (e : CalEntry) : Keeps s (setCal s a head zone e) := by
  unfold setCal
  simp

@[simp] theorem drawCal_kept (s : State) : Keeps s (drawCal s).2 := by
  unfold drawCal
  simp

@[simp] theorem execEqCal_kept {qp : List Instr} {qd qm : Memory} (a head zone result : Nat) (s : State) (hp
    : s.pending = qp) (hd : s.trw.dram = qd) (hm : s.trw.sram = qm) : NextKeeps qp qd qm
    (execEqCal a head zone result s) := by
  subst hp hd hm
  unfold execEqCal
  simp

@[simp] theorem execPrecomp_kept {qp : List Instr} {qd qm : Memory} (a head zone result : Nat) (s : State) (hp
    : s.pending = qp) (hd : s.trw.dram = qd) (hm : s.trw.sram = qm) : NextKeeps qp qd qm
    (execPrecomp a head zone result s) := by
  subst hp hd hm
  unfold execPrecomp
  simp

@[simp] theorem execCalRequest_kept {qp : List Instr} {qd qm : Memory} (a : Nat) (value : Word) (s : State) (hp
    : s.pending = qp) (hd : s.trw.dram = qd) (hm : s.trw.sram = qm) : NextKeeps qp qd qm (execCalRequest a value s) := by
  subst hp hd hm
  unfold execCalRequest
  simp

@[simp] theorem execOffsetCalTick_kept {qp : List Instr} {qd qm : Memory} (a : Nat) (s : State) (hp : s.pending = qp)
    (hd : s.trw.dram = qd) (hm : s.trw.sram = qm) : NextKeeps qp qd qm (execOffsetCalTick a s) := by
  subst hp hd hm
  unfold execOffsetCalTick
  simp

@[simp] theorem modSpn_kept (s : State) (x1 : Nat) (f : Spindle → Spindle) : Keeps s (modSpn s x1 f) := by
  unfold modSpn
  simp

@[simp] theorem setAtSpeed_kept (s : State) (x1 : Nat) (b : Bool) : Keeps s (setAtSpeed s x1 b) := by
  unfold setAtSpeed
  simp

@[simp] theorem setSpnState_kept (s : State) (x1 st : Nat) : Keeps s (setSpnState s x1 st) := by
  unfold setSpnState
  simp

@[simp] theorem setTracker_kept (s : State) (x1 m : Nat) : Keeps s (setTracker s x1 m) := by
  unfold setTracker
  simp

@[simp] theorem startRamp_kept (s : State) (x1 : Nat) : Keeps s (startRamp s x1) := by
  unfold startRamp
  simp

@[simp] theorem noteSpinup_kept (s : State) (x1 : Nat) (catch_ : Bool) : Keeps s (noteSpinup s x1 catch_) := by
  unfold noteSpinup
  simp

@[simp] theorem enterAlign_kept (s : State) (x1 : Nat) : Keeps s (enterAlign s x1) := by
  unfold enterAlign
  simp

@[simp] theorem startSpin_kept (s : State) (x1 : Nat) : Keeps s (startSpin s x1) := by
  unfold startSpin
  simp

@[simp] theorem enterCatch_kept (s : State) (x1 : Nat) : Keeps s (enterCatch s x1) := by
  unfold enterCatch
  simp

@[simp] theorem enterFoc_kept (s : State) (x1 : Nat) : Keeps s (enterFoc s x1) := by
  unfold enterFoc
  simp

@[simp] theorem coast_kept (s : State) (x1 : Nat) : Keeps s (coast s x1) := by
  unfold coast
  simp

@[simp] theorem startDecel_kept (s : State) (x1 : Nat) : Keeps s (startDecel s x1) := by
  unfold startDecel
  simp

@[simp] theorem stopRequest_kept (s : State) (x1 : Nat) (safe : Bool) : Keeps s (stopRequest s x1 safe) := by
  unfold stopRequest
  simp

@[simp] theorem hdaPowerOff_kept (s : State) (x1 : Nat) : Keeps s (hdaPowerOff s x1) := by
  unfold hdaPowerOff
  simp

@[simp] theorem spnRetired_kept (s : State) (x1 : Nat) : Keeps s (spnRetired s x1) := by
  unfold spnRetired
  simp

@[simp] theorem retireHda_kept (s : State) (x1 : Nat) (drive : Bool) : Keeps s (retireHda s x1 drive) := by
  unfold retireHda
  simp

@[simp] theorem driveSector_kept (s : State) (x1 : Nat) (vm va vb : Rat) : Keeps s (driveSector s x1 vm va vb) := by
  unfold driveSector
  simp

@[simp] theorem driveSvm_kept (s : State) (x1 : Nat) (vm va vb : Rat) (i : List Rat) : Keeps s
    (driveSvm s x1 vm va vb i) := by
  unfold driveSvm
  simp

@[simp] theorem spinupRequest_kept (s : State) (x1 : Nat) : Keeps s (spinupRequest s x1) := by
  unfold spinupRequest
  (repeat' split) <;> simp

@[simp] theorem execSpinupRequest_kept {qp : List Instr} {qd qm : Memory} (x0 : Nat) (s : State) (hp : s.pending = qp)
    (hd : s.trw.dram = qd) (hm : s.trw.sram = qm) : NextKeeps qp qd qm (execSpinupRequest x0 s) := by
  subst hp hd hm
  unfold execSpinupRequest
  simp

@[simp] theorem execSpindleStopRequest_kept {qp : List Instr} {qd qm : Memory} (x0 : Nat) (safe : Bool) (s : State)
    (hp : s.pending = qp) (hd : s.trw.dram = qd) (hm : s.trw.sram = qm) : NextKeeps qp qd qm
    (execSpindleStopRequest x0 safe s) := by
  subst hp hd hm
  unfold execSpindleStopRequest
  simp

@[simp] theorem driveOff_kept (s : State) (x1 : Nat) : Keeps s (driveOff s x1) := by
  unfold driveOff
  simp

@[simp] theorem execDriveOffRequest_kept {qp : List Instr} {qd qm : Memory} (x0 : Nat) (s : State) (hp
    : s.pending = qp) (hd : s.trw.dram = qd) (hm : s.trw.sram = qm) : NextKeeps qp qd qm (execDriveOffRequest x0 s) := by
  subst hp hd hm
  unfold execDriveOffRequest
  simp

@[simp] theorem ballastRequest_kept (s : State) (x1 : Nat) : Keeps s (ballastRequest s x1) := by
  unfold ballastRequest
  simp

@[simp] theorem execBallastRequest_kept {qp : List Instr} {qd qm : Memory} (x0 : Nat) (s : State) (hp
    : s.pending = qp) (hd : s.trw.dram = qd) (hm : s.trw.sram = qm) : NextKeeps qp qd qm (execBallastRequest x0 s) := by
  subst hp hd hm
  unfold execBallastRequest
  simp

@[simp] theorem execAlignEnd_kept {qp : List Instr} {qd qm : Memory} (x0 : Nat) (s : State) (hp : s.pending = qp) (hd
    : s.trw.dram = qd) (hm : s.trw.sram = qm) : NextKeeps qp qd qm (execAlignEnd x0 s) := by
  subst hp hd hm
  unfold execAlignEnd
  simp

@[simp] theorem execOpenLoopTimeout_kept {qp : List Instr} {qd qm : Memory} (x0 : Nat) (s : State) (hp
    : s.pending = qp) (hd : s.trw.dram = qd) (hm : s.trw.sram = qm) : NextKeeps qp qd qm (execOpenLoopTimeout x0 s) := by
  subst hp hd hm
  unfold execOpenLoopTimeout
  simp

@[simp] theorem trackZc_kept (s : State) (x1 : Nat) : Keeps s (trackZc s x1) := by
  unfold trackZc
  simp

@[simp] theorem handOver_kept (s : State) (x1 : Nat) : Keeps s (handOver s x1) := by
  unfold handOver
  simp

@[simp] theorem execZeroCrossing_kept {qp : List Instr} {qd qm : Memory} (x0 phase : Nat) (rising : Bool) (onNs : Nat)
    (hyst : Bool) (s : State) (hp : s.pending = qp) (hd : s.trw.dram = qd) (hm : s.trw.sram = qm) : NextKeeps qp qd qm
    (execZeroCrossing x0 phase rising onNs hyst s) := by
  subst hp hd hm
  unfold execZeroCrossing
  simp

@[simp] theorem commutate_kept (s : State) (x1 : Nat) : Keeps s (commutate s x1) := by
  unfold commutate
  simp

@[simp] theorem execCommutation_kept {qp : List Instr} {qd qm : Memory} (x0 : Nat) (s : State) (hp : s.pending = qp)
    (hd : s.trw.dram = qd) (hm : s.trw.sram = qm) : NextKeeps qp qd qm (execCommutation x0 s) := by
  subst hp hd hm
  unfold execCommutation
  simp

@[simp] theorem execForcedCommutation_kept {qp : List Instr} {qd qm : Memory} (x0 : Nat) (s : State) (hp
    : s.pending = qp) (hd : s.trw.dram = qd) (hm : s.trw.sram = qm) : NextKeeps qp qd qm (execForcedCommutation x0 s) := by
  subst hp hd hm
  unfold execForcedCommutation
  simp

@[simp] theorem trackPeriod_kept (s : State) (x1 : Nat) (dt theta omega : Rat) : Keeps s
    (trackPeriod s x1 dt theta omega) := by
  unfold trackPeriod
  simp

@[simp] theorem rampPeriod_kept (s : State) (x1 : Nat) (dt : Rat) : Keeps s (rampPeriod s x1 dt) := by
  unfold rampPeriod
  simp

@[simp] theorem bandPeriod_kept (s : State) (x1 : Nat) : Keeps s (bandPeriod s x1) := by
  unfold bandPeriod
  dsimp only
  (repeat' split) <;> simp

@[simp] theorem feedSpindle_kept (s : State) (x1 : Nat) (vm : Rat) (i : List Rat) : Keeps s (feedSpindle s x1 vm i) := by
  unfold feedSpindle
  simp

@[simp] theorem psiPeriod_kept (s : State) (x1 : Nat) : Keeps s (psiPeriod s x1) := by
  unfold psiPeriod
  simp

@[simp] theorem showSpindle_kept (s : State) (x1 : Nat) (vm : Rat) (i : List Rat) : Keeps s (showSpindle s x1 vm i) := by
  unfold showSpindle
  simp

@[simp] theorem drivePeriod_kept (s : State) (x1 : Nat) (vm : Rat) (i : List Rat) : Keeps s (drivePeriod s x1 vm i) := by
  unfold drivePeriod
  simp

@[simp] theorem leavePeriod_kept (s : State) (x1 : Nat) : Keeps s (leavePeriod s x1) := by
  unfold leavePeriod
  dsimp only
  (repeat' split) <;> simp

@[simp] theorem execSpindlePwmPeriod_kept {qp : List Instr} {qd qm : Memory} (x0 : Nat) (iU iV iW : Conv)
    (vm theta omega : Rat) (s : State) (hp : s.pending = qp) (hd : s.trw.dram = qd) (hm : s.trw.sram = qm)
    : NextKeeps qp qd qm (execSpindlePwmPeriod x0 iU iV iW vm theta omega s) := by
  subst hp hd hm
  unfold execSpindlePwmPeriod
  simp

@[simp] theorem execAtSpeed_kept {qp : List Instr} {qd qm : Memory} (x0 : Nat) (s : State) (hp : s.pending = qp) (hd
    : s.trw.dram = qd) (hm : s.trw.sram = qm) : NextKeeps qp qd qm (execAtSpeed x0 s) := by
  subst hp hd hm
  unfold execAtSpeed
  simp

@[simp] theorem lossOfSync_kept (s : State) (x1 : Nat) : Keeps s (lossOfSync s x1) := by
  unfold lossOfSync
  simp

@[simp] theorem execLossOfSync_kept {qp : List Instr} {qd qm : Memory} (x0 : Nat) (s : State) (hp : s.pending = qp)
    (hd : s.trw.dram = qd) (hm : s.trw.sram = qm) : NextKeeps qp qd qm (execLossOfSync x0 s) := by
  subst hp hd hm
  unfold execLossOfSync
  simp

@[simp] theorem execCatchObserveEnd_kept {qp : List Instr} {qd qm : Memory} (x0 : Nat) (emf omega theta : Rat) (s
    : State) (hp : s.pending = qp) (hd : s.trw.dram = qd) (hm : s.trw.sram = qm) : NextKeeps qp qd qm
    (execCatchObserveEnd x0 emf omega theta s) := by
  subst hp hd hm
  unfold execCatchObserveEnd
  simp

@[simp] theorem execStandstill_kept {qp : List Instr} {qd qm : Memory} (x0 : Nat) (s : State) (hp : s.pending = qp)
    (hd : s.trw.dram = qd) (hm : s.trw.sram = qm) : NextKeeps qp qd qm (execStandstill x0 s) := by
  subst hp hd hm
  unfold execStandstill
  simp

@[simp] theorem execVmShort_kept {qp : List Instr} {qd qm : Memory} (x0 : Nat) (s : State) (hp : s.pending = qp) (hd
    : s.trw.dram = qd) (hm : s.trw.sram = qm) : NextKeeps qp qd qm (execVmShort x0 s) := by
  subst hp hd hm
  unfold execVmShort
  simp

@[simp] theorem execVmShortRecover_kept {qp : List Instr} {qd qm : Memory} (x0 : Nat) (s : State) (hp
    : s.pending = qp) (hd : s.trw.dram = qd) (hm : s.trw.sram = qm) : NextKeeps qp qd qm (execVmShortRecover x0 s) := by
  subst hp hd hm
  unfold execVmShortRecover
  simp

@[simp] theorem execSpindleDriverFault_kept {qp : List Instr} {qd qm : Memory} (x0 : Nat) (s : State) (hp
    : s.pending = qp) (hd : s.trw.dram = qd) (hm : s.trw.sram = qm) : NextKeeps qp qd qm (execSpindleDriverFault x0 s) := by
  subst hp hd hm
  unfold execSpindleDriverFault
  simp

@[simp] theorem execSpindleDriverRetry_kept {qp : List Instr} {qd qm : Memory} (x0 : Nat) (ok : Bool) (s : State) (hp
    : s.pending = qp) (hd : s.trw.dram = qd) (hm : s.trw.sram = qm) : NextKeeps qp qd qm
    (execSpindleDriverRetry x0 ok s) := by
  subst hp hd hm
  unfold execSpindleDriverRetry
  simp

@[simp] theorem twoShunts_kept (s : State) (x1 : Nat) : Keeps s (twoShunts s x1) := by
  unfold twoShunts
  simp

@[simp] theorem execPhaseShuntLost_kept {qp : List Instr} {qd qm : Memory} (x0 phase : Nat) (s : State) (hp
    : s.pending = qp) (hd : s.trw.dram = qd) (hm : s.trw.sram = qm) : NextKeeps qp qd qm
    (execPhaseShuntLost x0 phase s) := by
  subst hp hd hm
  unfold execPhaseShuntLost
  simp

@[simp] theorem execShuntCalibration_kept {qp : List Instr} {qd qm : Memory} (x0 : Nat) (quiet : Bool) (ofs
    : List Int) (s : State) (hp : s.pending = qp) (hd : s.trw.dram = qd) (hm : s.trw.sram = qm) : NextKeeps qp qd qm
    (execShuntCalibration x0 quiet ofs s) := by
  subst hp hd hm
  unfold execShuntCalibration
  simp

@[simp] theorem execSpnCalRequest_kept {qp : List Instr} {qd qm : Memory} (x0 : Nat) (value : Word) (s : State) (hp
    : s.pending = qp) (hd : s.trw.dram = qd) (hm : s.trw.sram = qm) : NextKeeps qp qd qm
    (execSpnCalRequest x0 value s) := by
  subst hp hd hm
  unfold execSpnCalRequest
  simp

@[simp] theorem execWindingMeasurement_kept {qp : List Instr} {qd qm : Memory} (x0 : Nat) (m : Measured) (quiet
    : Bool) (s : State) (hp : s.pending = qp) (hd : s.trw.dram = qd) (hm : s.trw.sram = qm) : NextKeeps qp qd qm
    (execWindingMeasurement x0 m quiet s) := by
  subst hp hd hm
  unfold execWindingMeasurement
  simp

@[simp] theorem execHdaRetire_kept {qp : List Instr} {qd qm : Memory} (x0 : Nat) (drive : Bool) (s : State) (hp
    : s.pending = qp) (hd : s.trw.dram = qd) (hm : s.trw.sram = qm) : NextKeeps qp qd qm (execHdaRetire x0 drive s) := by
  subst hp hd hm
  unfold execHdaRetire
  simp

@[simp] theorem syncPulseHda_kept (s : State) (x1 : Nat) : Keeps s (syncPulseHda s x1) := by
  unfold syncPulseHda
  simp

@[simp] theorem execSpinSyncInPulse_kept {qp : List Instr} {qd qm : Memory} (s : State) (hp : s.pending = qp) (hd
    : s.trw.dram = qd) (hm : s.trw.sram = qm) : NextKeeps qp qd qm (execSpinSyncInPulse s) := by
  subst hp hd hm
  unfold execSpinSyncInPulse
  simp

@[simp] theorem execSpinSyncLost_kept {qp : List Instr} {qd qm : Memory} (x0 : Nat) (s : State) (hp : s.pending = qp)
    (hd : s.trw.dram = qd) (hm : s.trw.sram = qm) : NextKeeps qp qd qm (execSpinSyncLost x0 s) := by
  subst hp hd hm
  unfold execSpinSyncLost
  (repeat' split) <;> simp

@[simp] theorem execSpindleIndex_kept {qp : List Instr} {qd qm : Memory} (x0 : Nat) (s : State) (hp : s.pending = qp)
    (hd : s.trw.dram = qd) (hm : s.trw.sram = qm) : NextKeeps qp qd qm (execSpindleIndex x0 s) := by
  subst hp hd hm
  unfold execSpindleIndex
  simp

@[simp] theorem afterMiss_kept (s : State) (x1 before : Nat) (poison : Bool) : Keeps s (afterMiss s x1 before poison) := by
  unfold afterMiss
  simp

@[simp] theorem commitTask_kept (s : State) (x1 : Nat) : Keeps s (commitTask s x1) := by
  unfold commitTask
  simp

@[simp] theorem deadlineTask_kept (s : State) (x1 : Nat) : Keeps s (deadlineTask s x1) := by
  unfold deadlineTask
  simp

@[simp] theorem execTaskTrigger_kept {qp : List Instr} {qd qm : Memory} (x0 : Nat) (s : State) (hp : s.pending = qp)
    (hd : s.trw.dram = qd) (hm : s.trw.sram = qm) : NextKeeps qp qd qm (execTaskTrigger x0 s) := by
  subst hp hd hm
  unfold execTaskTrigger
  (repeat' split) <;> simp

@[simp] theorem execInstanceCommit_kept {qp : List Instr} {qd qm : Memory} (x0 : Nat) (s : State) (hp
    : s.pending = qp) (hd : s.trw.dram = qd) (hm : s.trw.sram = qm) : NextKeeps qp qd qm (execInstanceCommit x0 s) := by
  subst hp hd hm
  unfold execInstanceCommit
  (repeat' split) <;> simp

@[simp] theorem execTaskDeadline_kept {qp : List Instr} {qd qm : Memory} (x0 : Nat) (s : State) (hp : s.pending = qp)
    (hd : s.trw.dram = qd) (hm : s.trw.sram = qm) : NextKeeps qp qd qm (execTaskDeadline x0 s) := by
  subst hp hd hm
  unfold execTaskDeadline
  (repeat' split) <;> simp

@[simp] theorem execNodeAdd_kept {qp : List Instr} {qd qm : Memory} (x0 : Nat) (s : State) (hp : s.pending = qp) (hd
    : s.trw.dram = qd) (hm : s.trw.sram = qm) : NextKeeps qp qd qm (execNodeAdd x0 s) := by
  subst hp hd hm
  unfold execNodeAdd
  simp

@[simp] theorem execNodeSub_kept {qp : List Instr} {qd qm : Memory} (x0 : Nat) (s : State) (hp : s.pending = qp) (hd
    : s.trw.dram = qd) (hm : s.trw.sram = qm) : NextKeeps qp qd qm (execNodeSub x0 s) := by
  subst hp hd hm
  unfold execNodeSub
  simp

@[simp] theorem execNodeMul_kept {qp : List Instr} {qd qm : Memory} (x0 : Nat) (s : State) (hp : s.pending = qp) (hd
    : s.trw.dram = qd) (hm : s.trw.sram = qm) : NextKeeps qp qd qm (execNodeMul x0 s) := by
  subst hp hd hm
  unfold execNodeMul
  simp

@[simp] theorem execNodeFma_kept {qp : List Instr} {qd qm : Memory} (x0 : Nat) (s : State) (hp : s.pending = qp) (hd
    : s.trw.dram = qd) (hm : s.trw.sram = qm) : NextKeeps qp qd qm (execNodeFma x0 s) := by
  subst hp hd hm
  unfold execNodeFma
  simp

@[simp] theorem execNodeDiv_kept {qp : List Instr} {qd qm : Memory} (x0 : Nat) (s : State) (hp : s.pending = qp) (hd
    : s.trw.dram = qd) (hm : s.trw.sram = qm) : NextKeeps qp qd qm (execNodeDiv x0 s) := by
  subst hp hd hm
  unfold execNodeDiv
  simp

@[simp] theorem execNodeSqrt_kept {qp : List Instr} {qd qm : Memory} (x0 : Nat) (s : State) (hp : s.pending = qp) (hd
    : s.trw.dram = qd) (hm : s.trw.sram = qm) : NextKeeps qp qd qm (execNodeSqrt x0 s) := by
  subst hp hd hm
  unfold execNodeSqrt
  simp

@[simp] theorem execNodeMin_kept {qp : List Instr} {qd qm : Memory} (x0 : Nat) (s : State) (hp : s.pending = qp) (hd
    : s.trw.dram = qd) (hm : s.trw.sram = qm) : NextKeeps qp qd qm (execNodeMin x0 s) := by
  subst hp hd hm
  unfold execNodeMin
  simp

@[simp] theorem execNodeMax_kept {qp : List Instr} {qd qm : Memory} (x0 : Nat) (s : State) (hp : s.pending = qp) (hd
    : s.trw.dram = qd) (hm : s.trw.sram = qm) : NextKeeps qp qd qm (execNodeMax x0 s) := by
  subst hp hd hm
  unfold execNodeMax
  simp

@[simp] theorem execNodeAbs_kept {qp : List Instr} {qd qm : Memory} (x0 : Nat) (s : State) (hp : s.pending = qp) (hd
    : s.trw.dram = qd) (hm : s.trw.sram = qm) : NextKeeps qp qd qm (execNodeAbs x0 s) := by
  subst hp hd hm
  unfold execNodeAbs
  simp

@[simp] theorem execNodeNeg_kept {qp : List Instr} {qd qm : Memory} (x0 : Nat) (s : State) (hp : s.pending = qp) (hd
    : s.trw.dram = qd) (hm : s.trw.sram = qm) : NextKeeps qp qd qm (execNodeNeg x0 s) := by
  subst hp hd hm
  unfold execNodeNeg
  simp

@[simp] theorem execNodeMov_kept {qp : List Instr} {qd qm : Memory} (x0 : Nat) (s : State) (hp : s.pending = qp) (hd
    : s.trw.dram = qd) (hm : s.trw.sram = qm) : NextKeeps qp qd qm (execNodeMov x0 s) := by
  subst hp hd hm
  unfold execNodeMov
  simp

@[simp] theorem execNodeSel_kept {qp : List Instr} {qd qm : Memory} (x0 : Nat) (s : State) (hp : s.pending = qp) (hd
    : s.trw.dram = qd) (hm : s.trw.sram = qm) : NextKeeps qp qd qm (execNodeSel x0 s) := by
  subst hp hd hm
  unfold execNodeSel
  simp

@[simp] theorem execNodeClamp_kept {qp : List Instr} {qd qm : Memory} (x0 : Nat) (s : State) (hp : s.pending = qp) (hd
    : s.trw.dram = qd) (hm : s.trw.sram = qm) : NextKeeps qp qd qm (execNodeClamp x0 s) := by
  subst hp hd hm
  unfold execNodeClamp
  simp

@[simp] theorem execNodeLim_kept {qp : List Instr} {qd qm : Memory} (x0 : Nat) (s : State) (hp : s.pending = qp) (hd
    : s.trw.dram = qd) (hm : s.trw.sram = qm) : NextKeeps qp qd qm (execNodeLim x0 s) := by
  subst hp hd hm
  unfold execNodeLim
  simp

@[simp] theorem execNodeBiq_kept {qp : List Instr} {qd qm : Memory} (x0 : Nat) (s : State) (hp : s.pending = qp) (hd
    : s.trw.dram = qd) (hm : s.trw.sram = qm) : NextKeeps qp qd qm (execNodeBiq x0 s) := by
  subst hp hd hm
  unfold execNodeBiq
  simp

@[simp] theorem execNodeInteg_kept {qp : List Instr} {qd qm : Memory} (x0 : Nat) (s : State) (hp : s.pending = qp) (hd
    : s.trw.dram = qd) (hm : s.trw.sram = qm) : NextKeeps qp qd qm (execNodeInteg x0 s) := by
  subst hp hd hm
  unfold execNodeInteg
  simp

@[simp] theorem execNodeDot_kept {qp : List Instr} {qd qm : Memory} (x0 : Nat) (s : State) (hp : s.pending = qp) (hd
    : s.trw.dram = qd) (hm : s.trw.sram = qm) : NextKeeps qp qd qm (execNodeDot x0 s) := by
  subst hp hd hm
  unfold execNodeDot
  simp

@[simp] theorem execNodeOut_kept {qp : List Instr} {qd qm : Memory} (x0 : Nat) (s : State) (hp : s.pending = qp) (hd
    : s.trw.dram = qd) (hm : s.trw.sram = qm) : NextKeeps qp qd qm (execNodeOut x0 s) := by
  subst hp hd hm
  unfold execNodeOut
  simp

@[simp] theorem execNodeEnd_kept {qp : List Instr} {qd qm : Memory} (x0 : Nat) (s : State) (hp : s.pending = qp) (hd
    : s.trw.dram = qd) (hm : s.trw.sram = qm) : NextKeeps qp qd qm (execNodeEnd x0 s) := by
  subst hp hd hm
  unfold execNodeEnd
  (repeat' split) <;> simp

@[simp] theorem shedHda_kept (s : State) (x1 : Nat) : Keeps s (shedHda s x1) := by
  unfold shedHda
  simp

@[simp] theorem retireCore_kept (s : State) (c : Nat) : Keeps s (retireCore s c) := by
  unfold retireCore
  simp

@[simp] theorem placeCores_kept (s : State) : Keeps s (placeCores s) := by
  unfold placeCores
  simp

@[simp] theorem execCoreKatTick_kept {qp : List Instr} {qd qm : Memory} (c : Nat) (good : Bool) (s : State) (hp
    : s.pending = qp) (hd : s.trw.dram = qd) (hm : s.trw.sram = qm) : NextKeeps qp qd qm (execCoreKatTick c good s) := by
  subst hp hd hm
  unfold execCoreKatTick
  simp

@[simp] theorem execCoreRetire_kept {qp : List Instr} {qd qm : Memory} (c : Nat) (task : Option Nat) (s : State) (hp
    : s.pending = qp) (hd : s.trw.dram = qd) (hm : s.trw.sram = qm) : NextKeeps qp qd qm (execCoreRetire c task s) := by
  subst hp hd hm
  unfold execCoreRetire
  (repeat' split) <;> simp

@[simp] theorem execCoefWrite_kept {qp : List Instr} {qd qm : Memory} (value : Word) (s : State) (hp : s.pending = qp)
    (hd : s.trw.dram = qd) (hm : s.trw.sram = qm) : NextKeeps qp qd qm (execCoefWrite value s) := by
  subst hp hd hm
  unfold execCoefWrite
  simp

@[simp] theorem execTaskStoreUncorrectable_kept {qp : List Instr} {qd qm : Memory} (x0 : Nat) (s : State) (hp
    : s.pending = qp) (hd : s.trw.dram = qd) (hm : s.trw.sram = qm) : NextKeeps qp qd qm
    (execTaskStoreUncorrectable x0 s) := by
  subst hp hd hm
  unfold execTaskStoreUncorrectable
  simp

end Sys2Proof.Laws
end

