-- ==== Sys2Proof/Laws/KeptSystem.lean ====
section
/-! SUPPORT. Each operation of stops, Ballast, boot, discovery, bring-up and power domains keeps the queue and the memories,
or (`_wf`) keeps the queue and leaves the memories in canonical form; one lemma per operation, for later proofs to cite
in place of unfolding it. -/

open Sys2Proof.Machine

namespace Sys2Proof.Laws

@[simp] theorem orSame_kept (s : State) (o : Host.Outcome State Fault Refusal) (h : NextKeeps s.pending s.trw.dram s.trw.sram o) :
    (orSame s o).pending = s.pending ∧ (orSame s o).trw.dram = s.trw.dram ∧ (orSame s o).trw.sram = s.trw.sram := by
  unfold orSame
  split
  · exact h _ rfl
  all_goals exact ⟨rfl, rfl, rfl⟩

theorem orSame_wf (s : State) (o : Host.Outcome State Fault Refusal) (p : List Instr) (h : NextWf p o)
    (hp : s.pending = p) (hd : s.trw.dram.wf = true) (hm : s.trw.sram.wf = true) :
    (orSame s o).pending = p ∧ (orSame s o).trw.dram.wf = true ∧ (orSame s o).trw.sram.wf = true := by
  unfold orSame
  split
  · exact h _ rfl
  all_goals exact ⟨hp, hd, hm⟩

@[simp] theorem modBls_kept (s : State) (f : Ballast → Ballast) : Keeps s (modBls s f) := by
  unfold modBls
  simp

@[simp] theorem undoSlot_kept (s : State) (seq : Nat) (e : Nat × Slot) : Keeps s (undoSlot s seq e) := by
  unfold undoSlot
  simp

@[simp] theorem undoChange_kept (s : State) (seq : Nat) (c : Cmd) : Keeps s (undoChange s seq c) := by
  unfold undoChange
  simp

@[simp] theorem settleStopOne_kept (s : State) (seq : Nat) (c : Cmd) : Keeps s (settleStopOne s seq c) := by
  unfold settleStopOne
  simp

@[simp] theorem freezeAll_kept (s : State) : Keeps s (freezeAll s) := by
  unfold freezeAll
  simp

@[simp] theorem settleStop_kept (s : State) : Keeps s (settleStop s) := by
  unfold settleStop
  have h := foldr_kept (fun e s => settleStopOne s e.1 e.2) s.cmds s fun _ _ => settleStopOne_kept ..
  simpa using h

@[simp] theorem safeCqes_kept (s : State) : Keeps s (safeCqes s) := by
  unfold safeCqes
  simp

@[simp] theorem fenceMedia_kept (s : State) : Keeps s (fenceMedia s) := by
  unfold fenceMedia
  simp

@[simp] theorem unloadAll_kept (s : State) : Keeps s (unloadAll s) := by
  unfold unloadAll
  simp

@[simp] theorem noteHeads_kept (s : State) : Keeps s (noteHeads s) := by
  unfold noteHeads
  simp

@[simp] theorem startDump_kept (s : State) (mode cause : Nat) : Keeps s (startDump s mode cause) := by
  unfold startDump
  simp

@[simp] theorem startBallast_kept (s : State) (cause : Nat) : Keeps s (startBallast s cause) := by
  unfold startBallast
  simp

@[simp] theorem recordTrigger_kept (s : State) (cause : Nat) : Keeps s (recordTrigger s cause) := by
  unfold recordTrigger
  simp

@[simp] theorem trigger_kept (s : State) (cause : Nat) : Keeps s (trigger s cause) := by
  unfold trigger
  (repeat' split) <;> simp

@[simp] theorem execBallastTrigger_kept {qp : List Instr} {qd qm : Memory} (s : State) (hp : s.pending = qp) (hd
    : s.trw.dram = qd) (hm : s.trw.sram = qm) : NextKeeps qp qd qm (execBallastTrigger s) := by
  subst hp hd hm
  unfold execBallastTrigger
  simp

@[simp] theorem execVmDip_kept {qp : List Instr} {qd qm : Memory} (s : State) (hp : s.pending = qp) (hd
    : s.trw.dram = qd) (hm : s.trw.sram = qm) : NextKeeps qp qd qm (execVmDip s) := by
  subst hp hd hm
  unfold execVmDip
  simp

@[simp] theorem execEnergyRecompute_kept {qp : List Instr} {qd qm : Memory} (vh : Rat) (s : State) (hp
    : s.pending = qp) (hd : s.trw.dram = qd) (hm : s.trw.sram = qm) : NextKeeps qp qd qm (execEnergyRecompute vh s) := by
  subst hp hd hm
  unfold execEnergyRecompute
  dsimp only
  (repeat' split) <;> simp

@[simp] theorem execRegenRegulate_kept {qp : List Instr} {qd qm : Memory} (vm : Rat) (s : State) (hp : s.pending = qp)
    (hd : s.trw.dram = qd) (hm : s.trw.sram = qm) : NextKeeps qp qd qm (execRegenRegulate vm s) := by
  subst hp hd hm
  unfold execRegenRegulate
  simp

@[simp] theorem takeSets_kept (c psets : Nat) (a2 : List (Nat × Nat)) (a3 : Nat) (s : State) : Keeps s
    (takeSets c psets a2 a3 s) := by
  fun_induction takeSets c psets a2 a3 s <;> simp_all

@[simp] theorem closeRows_kept (s : State) (c psets : Nat) : Keeps s (closeRows s c psets) := by
  unfold closeRows
  simp

@[simp] theorem programDump_kept (s : State) (sets : Nat) : Keeps s (programDump s sets) := by
  have h := foldl_kept (fun s c => match flashProfile s c with
    | some p => takeSets c p.psets (dumpOrder s c) (sets - s.bls.pages) s
    | none => s) (chansServing s) s fun s c => by cases flashProfile s c <;> simp
  unfold programDump
  exact ⟨(showDump_kept ..).1.trans ((modBls_kept ..).1.trans h.1),
    (showDump_kept ..).2.1.trans ((modBls_kept ..).2.1.trans h.2.1),
    (showDump_kept ..).2.2.trans ((modBls_kept ..).2.2.trans h.2.2)⟩

@[simp] theorem dumpHeader_kept (s : State) (metaOk : Bool) : Keeps s (dumpHeader s metaOk) := by
  unfold dumpHeader
  dsimp only
  (repeat' split) <;> simp (disch := (intros; (try dsimp only); (repeat' split) <;> simp (disch := (intros; (try dsimp only); (repeat' split) <;> simp (disch := (intros; (try dsimp only); (repeat' split) <;> simp))))))

@[simp] theorem execDumpWrite_kept {qp : List Instr} {qd qm : Memory} (n : Nat) (metaOk : Bool) (lost : List Nat)
    (missing : Nat) (s : State) (hp : s.pending = qp) (hd : s.trw.dram = qd) (hm : s.trw.sram = qm)
    : NextKeeps qp qd qm (execDumpWrite n metaOk lost missing s) := by
  subst hp hd hm
  unfold execDumpWrite
  (repeat' split) <;> simp

@[simp] theorem flushEnd_kept (s : State) (ok : Bool) : Keeps s (flushEnd s ok) := by
  unfold flushEnd
  dsimp only
  (repeat' split) <;> simp

@[simp] theorem execDumpTrailer_kept {qp : List Instr} {qd qm : Memory} (s : State) (hp : s.pending = qp) (hd
    : s.trw.dram = qd) (hm : s.trw.sram = qm) : NextKeeps qp qd qm (execDumpTrailer s) := by
  subst hp hd hm
  unfold execDumpTrailer
  (repeat' split) <;> simp

@[simp] theorem execVmBack_kept {qp : List Instr} {qd qm : Memory} (s : State) (hp : s.pending = qp) (hd
    : s.trw.dram = qd) (hm : s.trw.sram = qm) : NextKeeps qp qd qm (execVmBack s) := by
  subst hp hd hm
  unfold execVmBack
  simp

@[simp] theorem execCoreBrownout_kept {qp : List Instr} {qd qm : Memory} (ok : Bool) (s : State) (hp : s.pending = qp)
    (hd : s.trw.dram = qd) (hm : s.trw.sram = qm) : NextKeeps qp qd qm (execCoreBrownout ok s) := by
  subst hp hd hm
  unfold execCoreBrownout
  simp

@[simp] theorem avsResume_kept (s : State) (ok : Bool) : Keeps s (avsResume s ok) := by
  unfold avsResume
  simp

@[simp] theorem execBrownoutTimeout_kept {qp : List Instr} {qd qm : Memory} (recovered ok : Bool) (s : State) (hp
    : s.pending = qp) (hd : s.trw.dram = qd) (hm : s.trw.sram = qm) : NextKeeps qp qd qm
    (execBrownoutTimeout recovered ok s) := by
  subst hp hd hm
  unfold execBrownoutTimeout
  dsimp only
  (repeat' split) <;> simp

@[simp] theorem execBankLow_kept {qp : List Instr} {qd qm : Memory} (low : Bool) (s : State) (hp : s.pending = qp) (hd
    : s.trw.dram = qd) (hm : s.trw.sram = qm) : NextKeeps qp qd qm (execBankLow low s) := by
  subst hp hd hm
  unfold execBankLow
  simp

@[simp] theorem trialImage_kept (s : State) (img : Image) : Keeps s (trialImage s img) := by
  unfold trialImage
  simp

@[simp] theorem powerOn_wf (s : State) (cause : Nat) (hd : s.trw.dram.wf = true) (hm : s.trw.sram.wf = true)
    : KeepsWf s (powerOn s cause) := by
  unfold powerOn
  simp [reset_wf]

@[simp] theorem execPorAssert_wf {qp : List Instr} (internal : Bool) (s : State) (hp : s.pending = qp) (hd
    : s.trw.dram.wf = true) (hm : s.trw.sram.wf = true) : NextWf qp (execPorAssert internal s) := by
  subst hp
  unfold execPorAssert
  simp [hd, hm]

@[simp] theorem beginLoading_kept (s : State) : Keeps s (beginLoading s) := by
  unfold beginLoading
  simp

@[simp] theorem execPorRelease_kept {qp : List Instr} {qd qm : Memory} (s : State) (hp : s.pending = qp) (hd
    : s.trw.dram = qd) (hm : s.trw.sram = qm) : NextKeeps qp qd qm (execPorRelease s) := by
  subst hp hd hm
  unfold execPorRelease
  simp

@[simp] theorem warmReset_wf (s : State) (cause : Nat) (flushed : Bool) (hd : s.trw.dram.wf = true) (hm
    : s.trw.sram.wf = true) : KeepsWf s (warmReset s cause flushed) := by
  unfold warmReset
  simp [reset_wf]

@[simp] theorem warmStop_kept (s : State) (cause : Nat) : Keeps s (warmStop s cause) := by
  unfold warmStop
  simp

@[simp] theorem warmRequest_wf (s : State) (cause : Nat) (hd : s.trw.dram.wf = true) (hm : s.trw.sram.wf = true)
    : KeepsWf s (warmRequest s cause) := by
  unfold warmRequest
  (repeat' split) <;> simp_all

@[simp] theorem execWarmRstPin_wf {qp : List Instr} (s : State) (hp : s.pending = qp) (hd : s.trw.dram.wf = true) (hm
    : s.trw.sram.wf = true) : NextWf qp (execWarmRstPin s) := by
  subst hp
  unfold execWarmRstPin
  simp [hd, hm]

@[simp] theorem execWarmReset_wf {qp : List Instr} (mgt : Bool) (s : State) (hp : s.pending = qp) (hd
    : s.trw.dram.wf = true) (hm : s.trw.sram.wf = true) : NextWf qp (execWarmReset mgt s) := by
  subst hp
  unfold execWarmReset
  simp [hd, hm]

@[simp] theorem execWarmStopEnd_wf {qp : List Instr} (s : State) (hp : s.pending = qp) (hd : s.trw.dram.wf = true) (hm
    : s.trw.sram.wf = true) : NextWf qp (execWarmStopEnd s) := by
  subst hp
  unfold execWarmStopEnd
  (repeat' split) <;> simp_all

@[simp] theorem execEnterSafe_kept {qp : List Instr} {qd qm : Memory} (s : State) (hp : s.pending = qp) (hd
    : s.trw.dram = qd) (hm : s.trw.sram = qm) : NextKeeps qp qd qm (execEnterSafe s) := by
  subst hp hd hm
  unfold execEnterSafe
  (repeat' split) <;> simp

@[simp] theorem applyPort_kept (s : State) (p : PlatformSec) (k : Nat) : Keeps s (applyPort s p k) := by
  unfold applyPort
  simp

@[simp] theorem applyPlatform_kept (s : State) (p : PlatformSec) : Keeps s (applyPlatform s p) := by
  unfold applyPlatform
  simp

@[simp] theorem applyActuator_kept (s : State) (a : Nat) (r : ActRec) : Keeps s (applyActuator s a r) := by
  unfold applyActuator
  simp

@[simp] theorem applyMotor_kept (s : State) (m : MotorSec) : Keeps s (applyMotor s m) := by
  unfold applyMotor
  simp (disch := (intros; (try dsimp only); (repeat' split) <;> simp (disch := (intros; (try dsimp only); (repeat' split) <;> simp (disch := (intros; (try dsimp only); (repeat' split) <;> simp))))))

@[simp] theorem applyEvents_kept (s : State) (es : List EventRec) : Keeps s (applyEvents s es) := by
  unfold applyEvents
  simp

@[simp] theorem applyUnits_kept (s : State) (img : Image) : Keeps s (applyUnits s img) := by
  unfold applyUnits
  simp

@[simp] theorem applyImage_kept (s : State) (f : SlotFacts) (skim : Bool) : Keeps s (applyImage s f skim) := by
  unfold applyImage
  dsimp only
  (repeat' split) <;> simp

@[simp] theorem showReason_kept (s : State) (slot r : Nat) : Keeps s (showReason s slot r) := by
  unfold showReason
  simp

@[simp] theorem abandonTrial_kept (s : State) (slot : Nat) : Keeps s (abandonTrial s slot) := by
  unfold abandonTrial
  dsimp only
  (repeat' split) <;> simp

@[simp] theorem rejectSlot_kept (s : State) (slot r : Nat) (rest : List Nat) : Keeps s (rejectSlot s slot r rest) := by
  unfold rejectSlot
  simp

@[simp] theorem enrol_kept (s : State) (f : SlotFacts) : Keeps s (enrol s f) := by
  unfold enrol
  simp

@[simp] theorem acceptSlot_kept (s : State) (f : SlotFacts) (slot : Nat) (avsOk : Bool) : Keeps s
    (acceptSlot s f slot avsOk) := by
  unfold acceptSlot
  simp

@[simp] theorem execSlotChecked_kept {qp : List Instr} {qd qm : Memory} (f : SlotFacts) (avsOk : Bool) (s : State) (hp
    : s.pending = qp) (hd : s.trw.dram = qd) (hm : s.trw.sram = qm) : NextKeeps qp qd qm (execSlotChecked f avsOk s) := by
  subst hp hd hm
  unfold execSlotChecked
  (repeat' split) <;> simp

@[simp] theorem retirePort_kept (s : State) (p : Nat) : Keeps s (retirePort s p) := by
  unfold retirePort
  simp

@[simp] theorem retireChan_kept (s : State) (c : Nat) : Keeps s (retireChan s c) := by
  unfold retireChan
  simp

@[simp] theorem retireOwned_kept (s : State) (u : UnitId) : Keeps s (retireOwned s u) := by
  unfold retireOwned
  repeat' split
  all_goals first
    | (simp; done)
    | exact NextKeeps.of ‹execHodChannelRetire _ _ = _› (execHodChannelRetire_kept _ _ rfl rfl rfl)

@[simp] theorem retireBank_kept (s : State) (r : Nat) : Keeps s (retireBank s r) := by
  unfold retireBank
  simp

@[simp] theorem bootRetire_kept (s : State) (u : UnitId) : Keeps s (bootRetire s u) := by
  unfold bootRetire
  (repeat' split) <;> simp

@[simp] theorem checkerFailed_kept (s : State) (f : CheckerFail) : Keeps s (checkerFailed s f) := by
  unfold checkerFailed
  simp

@[simp] theorem sharedUp_kept (s : State) : Keeps s (sharedUp s) := by
  unfold sharedUp
  simp

@[simp] theorem pathUp_kept (s : State) (a : Nat) : Keeps s (pathUp s a) := by
  unfold pathUp
  simp

@[simp] theorem motorUp_kept (s : State) (x1 : Nat) (turning : Bool) : Keeps s (motorUp s x1 turning) := by
  unfold motorUp
  simp

@[simp] theorem parkStart_kept (s : State) (a : Nat) : Keeps s (parkStart s a) := by
  unfold parkStart
  simp

@[simp] theorem mediaUp_kept (s : State) (turning : List Nat) : Keeps s (mediaUp s turning) := by
  unfold mediaUp
  simp

@[simp] theorem execSelftestDone_kept {qp : List Instr} {qd qm : Memory} (fails : List CheckerFail) (turning
    : List Nat) (s : State) (hp : s.pending = qp) (hd : s.trw.dram = qd) (hm : s.trw.sram = qm) : NextKeeps qp qd qm
    (execSelftestDone fails turning s) := by
  subst hp hd hm
  unfold execSelftestDone
  simp

@[simp] theorem setVm_kept (s : State) (mv : Nat) : Keeps s (setVm s mv) := by
  unfold setVm
  simp

@[simp] theorem discoverItem_kept (s : State) (m : Measured) : Keeps s (discoverItem s m) := by
  unfold discoverItem
  dsimp only
  (repeat' split) <;> simp

@[simp] theorem payRecord_kept (s : State) : Keeps s (payRecord s) := by
  unfold payRecord
  dsimp only
  (repeat' split) <;> simp

@[simp] theorem offRetired_kept (s : State) : Keeps s (offRetired s) := by
  unfold offRetired
  simp (disch := (intros; (try dsimp only); (repeat' split) <;> simp (disch := (intros; (try dsimp only); (repeat' split) <;> simp (disch := (intros; (try dsimp only); (repeat' split) <;> simp))))))

@[simp] theorem drawPub_kept (s : State) : Keeps s (drawPub s) := by
  unfold drawPub
  simp

@[simp] theorem dmkMerge_kept (s : State) : Keeps s (dmkMerge s) := by
  unfold dmkMerge
  dsimp only
  (repeat' split) <;> simp

@[simp] theorem beginBringup_kept (s : State) : Keeps s (beginBringup s) := by
  unfold beginBringup
  simp

@[simp] theorem execDiscoveryDone_kept {qp : List Instr} {qd qm : Memory} (items : List Measured) (dramBad : List Nat)
    (s : State) (hp : s.pending = qp) (hd : s.trw.dram = qd) (hm : s.trw.sram = qm) : NextKeeps qp qd qm
    (execDiscoveryDone items dramBad s) := by
  subst hp hd hm
  unfold execDiscoveryDone
  simp

@[simp] theorem execOzperDiscoveryTimeout_kept {qp : List Instr} {qd qm : Memory} (s : State) (hp : s.pending = qp)
    (hd : s.trw.dram = qd) (hm : s.trw.sram = qm) : NextKeeps qp qd qm (execOzperDiscoveryTimeout s) := by
  subst hp hd hm
  unfold execOzperDiscoveryTimeout
  simp

@[simp] theorem execStandstillMeasurement_kept {qp : List Instr} {qd qm : Memory} (m : Measured) (quiescent : Bool) (s
    : State) (hp : s.pending = qp) (hd : s.trw.dram = qd) (hm : s.trw.sram = qm) : NextKeeps qp qd qm
    (execStandstillMeasurement m quiescent s) := by
  subst hp hd hm
  unfold execStandstillMeasurement
  dsimp only
  (repeat' split) <;> simp

@[simp] theorem execVmMeasureTick_kept {qp : List Instr} {qd qm : Memory} (value : Word) (s : State) (hp
    : s.pending = qp) (hd : s.trw.dram = qd) (hm : s.trw.sram = qm) : NextKeeps qp qd qm (execVmMeasureTick value s) := by
  subst hp hd hm
  unfold execVmMeasureTick
  simp

@[simp] theorem formatPools_kept (s : State) : Keeps s (formatPools s) := by
  unfold formatPools
  simp

@[simp] theorem loadTables_kept (s : State) : Keeps s (loadTables s) := by
  unfold loadTables
  simp

@[simp] theorem showPools_kept (s : State) : Keeps s (showPools s) := by
  unfold showPools
  dsimp only
  (repeat' split) <;> simp

@[simp] theorem loseRetired_kept (s : State) : Keeps s (loseRetired s) := by
  unfold loseRetired
  simp

@[simp] theorem checkFormats_kept (s : State) : Keeps s (checkFormats s) := by
  unfold checkFormats
  simp

@[simp] theorem restoreJournal_kept (s : State) (lost : List Nat) : Keeps s (restoreJournal s lost) := by
  unfold restoreJournal
  simp

@[simp] theorem closeJournal_kept (s : State) : Keeps s (closeJournal s) := by
  unfold closeJournal
  simp

@[simp] theorem restoreGranule_kept (all : Tbl Slot) (s : State) (id : GranId) : Keeps s (restoreGranule all s id) := by
  unfold restoreGranule
  dsimp only
  (repeat' split) <;> simp

@[simp] theorem loseUnrestored_kept (s : State) : Keeps s (loseUnrestored s) := by
  unfold loseUnrestored
  simp

@[simp] theorem showLast_kept (s : State) (d : Dump) : Keeps s (showLast s d) := by
  unfold showLast
  simp

@[simp] theorem restoreBuffer_kept (s : State) : Keeps s (restoreBuffer s) := by
  unfold restoreBuffer
  (repeat' split) <;> simp

@[simp] theorem resync_kept (s : State) (bad : List Nat) (n : Nat) : Keeps s (resync s bad n) := by
  unfold resync
  simp

@[simp] theorem restoreTenants_kept (s : State) : Keeps s (restoreTenants s) := by
  unfold restoreTenants
  dsimp only
  have g : ∀ (l : List (Nat × TenantNv)) (s : State), (l.foldl (fun s e => match e.2.contract with
      | some c => installContract (modTenNv s e.1 fun r => { r with contract := none }) e.1 (some c)
      | none => s) s).pending = s.pending ∧ (l.foldl (fun s e => match e.2.contract with
      | some c => installContract (modTenNv s e.1 fun r => { r with contract := none }) e.1 (some c)
      | none => s) s).trw.dram = s.trw.dram ∧ (l.foldl (fun s e => match e.2.contract with
      | some c => installContract (modTenNv s e.1 fun r => { r with contract := none }) e.1 (some c)
      | none => s) s).trw.sram = s.trw.sram := fun l s => foldl_kept _ _ _ fun s e => by
        cases e.2.contract <;> simp
  refine ⟨(g _ _).1.trans ?_, (g _ _).2.1.trans ?_, (g _ _).2.2.trans ?_⟩ <;> simp

@[simp] theorem openQueues_kept (s : State) : Keeps s (openQueues s) := by
  unfold openQueues
  simp

@[simp] theorem goodRecord_kept (s : State) : Keeps s (goodRecord s) := by
  unfold goodRecord
  simp

@[simp] theorem finishBringup_kept (s : State) (bad : List Nat) (n : Nat) : Keeps s (finishBringup s bad n) := by
  unfold finishBringup
  simp

@[simp] theorem startBringup_kept (s : State) (jrnLost : List Nat) : Keeps s (startBringup s jrnLost) := by
  unfold startBringup
  simp

@[simp] theorem execBringupDone_kept {qp : List Instr} {qd qm : Memory} (jrnLost bad : List Nat) (n : Nat) (s : State)
    (hp : s.pending = qp) (hd : s.trw.dram = qd) (hm : s.trw.sram = qm) : NextKeeps qp qd qm
    (execBringupDone jrnLost bad n s) := by
  subst hp hd hm
  unfold execBringupDone
  simp

@[simp] theorem execSpinupStart_kept {qp : List Instr} {qd qm : Memory} (s : State) (hp : s.pending = qp) (hd
    : s.trw.dram = qd) (hm : s.trw.sram = qm) : NextKeeps qp qd qm (execSpinupStart s) := by
  subst hp hd hm
  unfold execSpinupStart
  dsimp only
  (repeat' split) <;> simp

@[simp] theorem execSpinupTimeout_kept {qp : List Instr} {qd qm : Memory} (x0 : Nat) (drive : Bool) (s : State) (hp
    : s.pending = qp) (hd : s.trw.dram = qd) (hm : s.trw.sram = qm) : NextKeeps qp qd qm
    (execSpinupTimeout x0 drive s) := by
  subst hp hd hm
  unfold execSpinupTimeout
  simp

@[simp] theorem portError_kept (s : State) (p : Nat) (seqs : List Nat) : Keeps s (portError s p seqs) := by
  unfold portError
  simp (disch := (intros; (try dsimp only); (repeat' split) <;> simp (disch := (intros; (try dsimp only); (repeat' split) <;> simp (disch := (intros; (try dsimp only); (repeat' split) <;> simp))))))

@[simp] theorem flashEvent_kept (s : State) (c k lun : Nat) : Keeps s (flashEvent s c k lun) := by
  unfold flashEvent
  (repeat' split) <;> simp

@[simp] theorem actuatorEvent_kept (s : State) (a k : Nat) : Keeps s (actuatorEvent s a k) := by
  unfold actuatorEvent
  (repeat' split) <;> simp

@[simp] theorem motorEvent_kept (s : State) (x1 k el : Nat) : Keeps s (motorEvent s x1 k el) := by
  unfold motorEvent
  (repeat' split) <;> simp

@[simp] theorem dramEvent_kept (s : State) (c k data : Nat) : Keeps s (dramEvent s c k data) := by
  unfold dramEvent
  (repeat' split) <;> simp

@[simp] theorem stagingFault_kept (s : State) (src key : Nat) : Keeps s (stagingFault s src key) := by
  unfold stagingFault
  simp

@[simp] theorem ownEvent_kept (s : State) (src data : Nat) (el : List Nat) : Keeps s (ownEvent s src data el) := by
  show Keeps s _
  unfold ownEvent
  dsimp only
  repeat' (with_reducible apply ite_keeps)
  all_goals first
    | (simp [Keeps]; done)
    | (split <;> (try with_reducible apply ite_keeps) <;> simp [Keeps])

@[simp] theorem sourceEvent_kept (s : State) (src data : Nat) (el : List Nat) : Keeps s (sourceEvent s src data el) := by
  unfold sourceEvent
  simp

@[simp] theorem execFaultReport_kept {qp : List Instr} {qd qm : Memory} (src data : Nat) (el : List Nat) (s : State)
    (hp : s.pending = qp) (hd : s.trw.dram = qd) (hm : s.trw.sram = qm) : NextKeeps qp qd qm
    (execFaultReport src data el s) := by
  subst hp hd hm
  unfold execFaultReport
  simp

@[simp] theorem execForceTaken_kept {qp : List Instr} {qd qm : Memory} (src : Nat) (el : List Nat) (s : State) (hp
    : s.pending = qp) (hd : s.trw.dram = qd) (hm : s.trw.sram = qm) : NextKeeps qp qd qm (execForceTaken src el s) := by
  subst hp hd hm
  unfold execForceTaken
  simp

@[simp] theorem execSupplyMonitorCrossing_kept {qp : List Instr} {qd qm : Memory} (r : Nat) (high : Bool) (s : State)
    (hp : s.pending = qp) (hd : s.trw.dram = qd) (hm : s.trw.sram = qm) : NextKeeps qp qd qm
    (execSupplyMonitorCrossing r high s) := by
  subst hp hd hm
  unfold execSupplyMonitorCrossing
  simp

@[simp] theorem tallyLun_kept (s : State) (c lun : Nat) : Keeps s (tallyLun s c lun) := by
  unfold tallyLun
  simp

@[simp] theorem tallyAct_kept (s : State) (q inst : Nat) : Keeps s (tallyAct s q inst) := by
  unfold tallyAct
  (repeat' split) <;> simp

@[simp] theorem execTallyRecheck_kept {qp : List Instr} {qd qm : Memory} (q inst : Nat) (parts : List Nat) (pool
    : Nat) (s : State) (hp : s.pending = qp) (hd : s.trw.dram = qd) (hm : s.trw.sram = qm) : NextKeeps qp qd qm
    (execTallyRecheck q inst parts pool s) := by
  subst hp hd hm
  unfold execTallyRecheck
  simp

@[simp] theorem safeSignal_kept (s : State) : Keeps s (safeSignal s) := by
  unfold safeSignal
  simp

@[simp] theorem safeStopHda_kept (s : State) (x1 : Nat) : Keeps s (safeStopHda s x1) := by
  unfold safeStopHda
  simp

@[simp] theorem safeStopDisks_kept (s : State) : Keeps s (safeStopDisks s) := by
  unfold safeStopDisks
  simp

@[simp] theorem safeDump_kept (s : State) : Keeps s (safeDump s) := by
  unfold safeDump
  simp

@[simp] theorem execSafeEntry_kept {qp : List Instr} {qd qm : Memory} (s : State) (hp : s.pending = qp) (hd
    : s.trw.dram = qd) (hm : s.trw.sram = qm) : NextKeeps qp qd qm (execSafeEntry s) := by
  subst hp hd hm
  unfold execSafeEntry
  simp

@[simp] theorem execSafeFlushDone_kept {qp : List Instr} {qd qm : Memory} (s : State) (hp : s.pending = qp) (hd
    : s.trw.dram = qd) (hm : s.trw.sram = qm) : NextKeeps qp qd qm (execSafeFlushDone s) := by
  subst hp hd hm
  unfold execSafeFlushDone
  simp

@[simp] theorem execPdOnRequest_kept {qp : List Instr} {qd qm : Memory} (d : Nat) (s : State) (hp : s.pending = qp)
    (hd : s.trw.dram = qd) (hm : s.trw.sram = qm) : NextKeeps qp qd qm (execPdOnRequest d s) := by
  subst hp hd hm
  unfold execPdOnRequest
  simp

@[simp] theorem pdDrain_kept (s : State) (d : Nat) : Keeps s (pdDrain s d) := by
  unfold pdDrain
  simp

@[simp] theorem execPdOffRequest_kept {qp : List Instr} {qd qm : Memory} (d : Nat) (s : State) (hp : s.pending = qp)
    (hd : s.trw.dram = qd) (hm : s.trw.sram = qm) : NextKeeps qp qd qm (execPdOffRequest d s) := by
  subst hp hd hm
  unfold execPdOffRequest
  simp

@[simp] theorem pdOffState_kept (s : State) (d : Nat) : Keeps s (pdOffState s d) := by
  unfold pdOffState
  simp

@[simp] theorem execPdPowerDownDone_kept {qp : List Instr} {qd qm : Memory} (d : Nat) (s : State) (hp
    : s.pending = qp) (hd : s.trw.dram = qd) (hm : s.trw.sram = qm) : NextKeeps qp qd qm (execPdPowerDownDone d s) := by
  subst hp hd hm
  unfold execPdPowerDownDone
  simp

@[simp] theorem pdResetRegs_kept (s : State) (d : Nat) : Keeps s (pdResetRegs s d) := by
  unfold pdResetRegs
  simp

@[simp] theorem unretire_kept (s : State) (u : UnitId) : Keeps s (unretire s u) := by
  unfold unretire
  simp

@[simp] theorem rejoinDisk_kept (s : State) (x1 : Nat) : Keeps s (rejoinDisk s x1) := by
  unfold rejoinDisk
  simp

@[simp] theorem pdRejoin_kept (s : State) (d : Nat) (turning : Bool) : Keeps s (pdRejoin s d turning) := by
  have g : ∀ (u : State) (a : Nat) (o : Option ActRec), Keeps s u → Keeps s (match o with
    | some r => applyActuator u a r | none => u) := fun u a o h => by
      cases o
      · exact h
      · simpa [Keeps] using h
  have g2 : ∀ (u : State) (a : Nat) (o : Option SpinRec), Keeps s u → Keeps s (match o with
    | some r => fset u (SPN_SYNC_OFFSET.ix a 0x1000) r.syncOfs | none => u) := fun u a o h => by
      cases o
      · exact h
      · simpa [Keeps] using h
  have g3 : ∀ (u : State) (a : Nat) (f : Servo → Servo), Keeps s u → Keeps s (modSrv u a f) := fun u a f h => by
    simpa [Keeps] using h
  show Keeps s _
  unfold pdRejoin
  dsimp only [List.foldl]
  by_cases c1 : d < 6
  · rw [if_pos c1]; split <;> simp [Keeps]
  rw [if_neg c1]
  by_cases c2 : pdAbsent s d = true
  · rw [if_pos c2]; exact ⟨rfl, rfl, rfl⟩
  rw [if_neg c2]
  by_cases c3 : (decide (99 ≤ d) && decide (d < 131)) = true
  · rw [if_pos c3]; simp [Keeps]
  rw [if_neg c3]
  by_cases c4 : (decide (135 ≤ d) && decide (d < 167)) = true
  · rw [if_pos c4]
    simp only [Keeps, rejoinDisk_kept, parkStart_kept, pathUp_kept]
    exact g _ _ _ (by simp [Keeps])
  rw [if_neg c4]
  by_cases c5 : (decide (167 ≤ d) && decide (d < 183)) = true
  · rw [if_pos c5]
    simp only [Keeps, rejoinDisk_kept, motorUp_kept]
    exact g2 _ _ _ (g _ _ _ (g3 _ _ _ (g _ _ _ (by simp [Keeps]))))
  rw [if_neg c5]
  split <;> simp [Keeps]

@[simp] theorem execPdPowerUpDone_kept {qp : List Instr} {qd qm : Memory} (d : Nat) (pass turning : Bool) (s : State)
    (hp : s.pending = qp) (hd : s.trw.dram = qd) (hm : s.trw.sram = qm) : NextKeeps qp qd qm
    (execPdPowerUpDone d pass turning s) := by
  subst hp hd hm
  unfold execPdPowerUpDone
  (repeat' split) <;> simp

end Sys2Proof.Laws
end

