-- ==== Sys2Proof/Laws/KeptAccess.lean ====
section
/-! SUPPORT. Each operation of register access, host requests and the vendor services keeps the queue and the memories,
or (`_wf`) keeps the queue and leaves the memories in canonical form; one lemma per operation, for later proofs to cite
in place of unfolding it. -/

open Sys2Proof.Machine

namespace Sys2Proof.Laws

@[simp] theorem setHeld_kept (s : State) (x1 : Held) : Keeps s (setHeld s x1) := by
  unfold setHeld
  simp

@[simp] theorem clearRc_kept (s : State) (k : Nat) (f : FieldDesc) : Keeps s (clearRc s k f) := by
  unfold clearRc
  simp

@[simp] theorem clearRcs_kept (s : State) (k b0 b1 : Nat) (fs : List FieldDesc) : Keeps s (clearRcs s k b0 b1 fs) := by
  unfold clearRcs
  simp

@[simp] theorem readGpio_kept (s : State) : Keeps s (readGpio s).2 := by
  unfold readGpio
  simp

@[simp] theorem readCredit_kept (s : State) : Keeps s (readCredit s).2 := by
  unfold readCredit
  dsimp only
  (repeat' split) <;> simp

@[simp] theorem readCoef_kept (s : State) (a : Nat) : Keeps s (readCoef s a).2 := by
  unfold readCoef
  dsimp only
  (repeat' split) <;> simp

@[simp] theorem readLinkErr_kept (s : State) (mgt : Bool) (k : Nat) : Keeps s (readLinkErr s mgt k).2 := by
  have h : ∀ (c : Bool) (w x : Word) , (if c then (w, s) else (x, (drawFree s).2)).2.pending = s.pending ∧ (if c then (w, s) else (x, (drawFree s).2)).2.trw.dram = s.trw.dram ∧ (if c then (w, s) else (x, (drawFree s).2)).2.trw.sram = s.trw.sram := by
    intro c w x
    cases c <;> simp
  exact h _ _ _

@[simp] theorem liveWord_kept (s : State) (a : Accessor) (k : Nat) : Keeps s (liveWord s a k).2 := by
  unfold liveWord
  dsimp only
  (repeat' split) <;> simp

@[simp] theorem readAt_kept (s : State) (a : Accessor) (r : RegAt) (b0 b1 : Nat) : Keeps s (readAt s a r b0 b1).2 := by
  unfold readAt
  dsimp only
  (repeat' split) <;> simp

@[simp] theorem readReg_kept (s : State) (a : Accessor) (off b0 b1 : Nat) : Keeps s (readReg s a off b0 b1).2 := by
  unfold readReg
  (repeat' split) <;> simp

@[simp] theorem storeField_kept (rsv : Fld) (k : Nat) (v : Word) (s : State) (f : FieldDesc) : Keeps s
    (storeField rsv k v s f) := by
  unfold storeField
  (repeat' split) <;> simp

@[simp] theorem storeFields_kept (s : State) (rsv : Fld) (k : Nat) (v : Word) (fs : List FieldDesc) : Keeps s
    (storeFields s rsv k v fs) := by
  unfold storeFields
  simp

@[simp] theorem avsAfter_kept (s : State) (ok : Bool) : Keeps s (avsAfter s ok) := by
  unfold avsAfter
  simp

@[simp] theorem writeCtl_wf (s : State) (mgt : Bool) (v : Word) (hd : s.trw.dram.wf = true) (hm
    : s.trw.sram.wf = true) : KeepsWf s (writeCtl s mgt v) := by
  have g : ∀ t : State, t.pending = s.pending → t.trw.dram = s.trw.dram → t.trw.sram = s.trw.sram →
      (orSame t (execWarmReset mgt t)).pending = s.pending ∧ (orSame t (execWarmReset mgt t)).trw.dram.wf = true ∧
        (orSame t (execWarmReset mgt t)).trw.sram.wf = true := fun t a b c =>
    orSame_wf _ _ _ (execWarmReset_wf _ _ a (b ▸ hd) (c ▸ hm)) a (b ▸ hd) (c ▸ hm)
  unfold writeCtl
  dsimp only
  repeat' split
  all_goals first
    | (simp [hd, hm]; done)
    | (exact g _ (by simp) (by simp) (by simp))

@[simp] theorem writeNorCmd_kept (s : State) (v : Word) : Keeps s (writeNorCmd s v) := by
  unfold writeNorCmd
  (repeat' split) <;> simp

@[simp] theorem writePdReq_kept (s : State) (v : Word) : Keeps s (writePdReq s v) := by
  unfold writePdReq
  (repeat' split) <;> simp

@[simp] theorem writePwrStatus_kept (s : State) (v : Word) (ok : Bool) : Keeps s (writePwrStatus s v ok) := by
  unfold writePwrStatus
  simp

@[simp] theorem writeResume_kept (s : State) (fid : Nat) (v : Word) : Keeps s (writeResume s fid v) := by
  unfold writeResume
  (repeat' split) <;> simp

@[simp] theorem writeXq_kept {qp : List Instr} {qd qm : Memory} (s : State) (fid off : Nat) (v : Word) (hp
    : s.pending = qp) (hd : s.trw.dram = qd) (hm : s.trw.sram = qm) : SomeKeeps qp qd qm (writeXq s fid off v) := by
  subst hp hd hm
  unfold writeXq
  simp

@[simp] theorem writeLth_kept (s : State) (v : Word) : Keeps s (writeLth s v) := by
  unfold writeLth
  simp

@[simp] theorem writeTask_kept (s : State) (k : Nat) (v : Word) : Keeps s (writeTask s k v) := by
  unfold writeTask
  simp

@[simp] theorem writeHodCmd_kept (s : State) (c : Nat) (v : Word) : Keeps s (writeHodCmd s c v) := by
  unfold writeHodCmd
  (repeat' split) <;> simp

@[simp] theorem storePart_kept (s : State) (k lo w : Nat) (v : Word) (hi : Nat) : Keeps s (storePart s k lo w v hi) := by
  unfold storePart
  simp

@[simp] theorem writeShadow_kept (s : State) (k c i : Nat) (v : Word) : Keeps s (writeShadow s k c i v) := by
  unfold writeShadow
  (repeat' split) <;> simp

@[simp] theorem writeHist_kept (s : State) (k : Nat) (v : Word) : Keeps s (writeHist s k v) := by
  unfold writeHist
  simp

@[simp] theorem writeMotion_kept {qp : List Instr} {qd qm : Memory} (s : State) (k : Nat) (v : Word) (hp
    : s.pending = qp) (hd : s.trw.dram = qd) (hm : s.trw.sram = qm) : SomeKeeps qp qd qm (writeMotion s k v) := by
  subst hp hd hm
  unfold writeMotion
  simp

@[simp] theorem writeData_kept {qp : List Instr} {qd qm : Memory} (s : State) (k : Nat) (v : Word) (hp
    : s.pending = qp) (hd : s.trw.dram = qd) (hm : s.trw.sram = qm) : SomeKeeps qp qd qm (writeData s k v) := by
  subst hp hd hm
  unfold writeData
  simp

@[simp] theorem writeGlobal_wf {qp : List Instr} (s : State) (mgt : Bool) (k : Nat) (v : Word) (ok : Bool) (hp
    : s.pending = qp) (hd : s.trw.dram.wf = true) (hm : s.trw.sram.wf = true) : SomeWf qp (writeGlobal s mgt k v ok) := by
  subst hp
  unfold writeGlobal
  simp [hd, hm]

@[simp] theorem afterStore_kept (s : State) (k : Nat) (v : Word) (ok : Bool) : Keeps s (afterStore s k v ok) := by
  unfold afterStore
  simp

@[simp] theorem applyWord_wf (s : State) (mgt : Bool) (rsv : Fld) (r : RegAt) (v : Word) (ok : Bool) (hd
    : s.trw.dram.wf = true) (hm : s.trw.sram.wf = true) : KeepsWf s (applyWord s mgt rsv r v ok) := by
  have k : SomeWf s.pending (match xqAt s r.key with
      | some (fid, off) => writeXq s fid off v
      | none => (writeGlobal s mgt r.key v ok <|> writeData s r.key v) <|> writeMotion s r.key v) := by
    split
    · exact SomeKeeps.wf (writeXq_kept _ _ _ _ rfl rfl rfl) hd hm
    · refine SomeWf.orElse (SomeWf.orElse ?_ ?_) ?_
      · exact writeGlobal_wf _ _ _ _ _ rfl hd hm
      · exact SomeKeeps.wf (writeData_kept _ _ _ rfl rfl rfl) hd hm
      · exact SomeKeeps.wf (writeMotion_kept _ _ _ rfl rfl rfl) hd hm
  unfold applyWord
  dsimp only
  split
  · rename_i t h
    exact k t h
  · simp [hd, hm]

@[simp] theorem writeAt_wf (s : State) (a : Accessor) (rsv : Fld) (r : RegAt) (v : Word) (ok : Bool) (hd
    : s.trw.dram.wf = true) (hm : s.trw.sram.wf = true) : KeepsWf s (writeAt s a rsv r v ok) := by
  unfold writeAt
  dsimp only
  (repeat' split) <;> simp_all

theorem trackRsv_wf (s : State) (rsv : Fld) (f : State → State)
    (hf : ∀ t, t.trw.dram.wf = true → t.trw.sram.wf = true →
      (f t).pending = t.pending ∧ (f t).trw.dram.wf = true ∧ (f t).trw.sram.wf = true)
    (hd : s.trw.dram.wf = true) (hm : s.trw.sram.wf = true) :
    (trackRsv s rsv f).1.pending = s.pending ∧ (trackRsv s rsv f).1.trw.dram.wf = true ∧
      (trackRsv s rsv f).1.trw.sram.wf = true := by
  obtain ⟨a, b, c⟩ := hf (fset s rsv 0) (by simpa using hd) (by simpa using hm)
  unfold trackRsv
  dsimp only
  split <;> simp_all

@[simp] theorem countRoWrite_kept (s : State) (a : Accessor) : Keeps s (countRoWrite s a) := by
  unfold countRoWrite
  (repeat' split) <;> simp

@[simp] theorem writeReg_wf (s : State) (a : Accessor) (off bytes : Nat) (v : Word) (ok : Bool) (hd
    : s.trw.dram.wf = true) (hm : s.trw.sram.wf = true) : KeepsWf s (writeReg s a off bytes v ok).1 := by
  unfold writeReg
  dsimp only
  repeat' split
  all_goals first
    | exact trackRsv_wf _ _ _ (fun t h k => writeAt_wf t _ _ _ _ _ h k) hd hm
    | simp [hd, hm]

@[simp] theorem msixStore_kept (s : State) (p n r : Nat) (v : Word) : Keeps s (msixStore s p n r v) := by
  unfold msixStore
  (repeat' split) <;> simp

@[simp] theorem bar0Read_kept (s : State) (a : Accessor) (off b0 b1 : Nat) : Keeps s (bar0Read s a off b0 b1).2 := by
  unfold bar0Read
  (repeat' split) <;> simp

@[simp] theorem bar0Write_wf (s : State) (a : Accessor) (off bytes : Nat) (v : Word) (ok : Bool) (hd
    : s.trw.dram.wf = true) (hm : s.trw.sram.wf = true) : KeepsWf s (bar0Write s a off bytes v ok) := by
  unfold bar0Write
  (repeat' split) <;> simp_all

@[simp] theorem execRegisterWrite_wf {qp : List Instr} (a : Accessor) (off bytes : Nat) (v : Word) (ok : Bool) (s
    : State) (hp : s.pending = qp) (hd : s.trw.dram.wf = true) (hm : s.trw.sram.wf = true) : NextWf qp
    (execRegisterWrite a off bytes v ok s) := by
  subst hp
  unfold execRegisterWrite
  (repeat' split) <;> simp_all

@[simp] theorem answerRead_kept (s : State) (a : Accessor) (off bytes : Nat) : Keeps s (answerRead s a off bytes) := by
  unfold answerRead
  simp

@[simp] theorem execRcFieldRead_kept {qp : List Instr} {qd qm : Memory} (a : Accessor) (off bytes : Nat) (s : State)
    (hp : s.pending = qp) (hd : s.trw.dram = qd) (hm : s.trw.sram = qm) : NextKeeps qp qd qm
    (execRcFieldRead a off bytes s) := by
  subst hp hd hm
  unfold execRcFieldRead
  simp

@[simp] theorem execPairedLoRead_kept {qp : List Instr} {qd qm : Memory} (a : Accessor) (off : Nat) (s : State) (hp
    : s.pending = qp) (hd : s.trw.dram = qd) (hm : s.trw.sram = qm) : NextKeeps qp qd qm (execPairedLoRead a off s) := by
  subst hp hd hm
  unfold execPairedLoRead
  simp

@[simp] theorem execPairedHiRead_kept {qp : List Instr} {qd qm : Memory} (a : Accessor) (off : Nat) (s : State) (hp
    : s.pending = qp) (hd : s.trw.dram = qd) (hm : s.trw.sram = qm) : NextKeeps qp qd qm (execPairedHiRead a off s) := by
  subst hp hd hm
  unfold execPairedHiRead
  simp

@[simp] theorem execPairedLoWrite_wf {qp : List Instr} (a : Accessor) (off : Nat) (v : Word) (s : State) (hp
    : s.pending = qp) (hd : s.trw.dram.wf = true) (hm : s.trw.sram.wf = true) : NextWf qp
    (execPairedLoWrite a off v s) := by
  subst hp
  unfold execPairedLoWrite
  (repeat' split) <;> simp_all

@[simp] theorem execPairedHiWrite_wf {qp : List Instr} (a : Accessor) (off : Nat) (v : Word) (s : State) (hp
    : s.pending = qp) (hd : s.trw.dram.wf = true) (hm : s.trw.sram.wf = true) : NextWf qp
    (execPairedHiWrite a off v s) := by
  subst hp
  unfold execPairedHiWrite
  (repeat' split) <;> simp_all

@[simp] theorem readPieces_kept (a : Accessor) (a1 : List (Nat × Nat × Nat)) (s : State) : Keeps s
    (readPieces a a1 s).2 := by
  induction a1 generalizing s <;> simp_all [readPieces]

@[simp] theorem writePieces_wf (a : Accessor) (ok : Bool) (a2 : List (Nat × Nat × Nat)) (a3 : List Byte) (s : State)
    (hd : s.trw.dram.wf = true) (hm : s.trw.sram.wf = true) : KeepsWf s (writePieces a ok a2 a3 s) := by
  fun_induction writePieces a ok a2 a3 s with
  | case1 => simp [hd, hm]
  | case2 w b0 b1 rest data s n ih =>
    have k := bar0Write_wf s a (w + b0) n (BitVec.ofNat 32 (leValue (data.take n))) ok hd hm
    have j := ih k.2.1 k.2.2
    exact ⟨j.1.trans k.1, j.2⟩

@[simp] theorem unsupported_kept (s : State) (fid : Nat) : Keeps s (unsupported s fid) := by
  unfold unsupported
  simp

@[simp] theorem execMemoryRequest_wf {qp : List Instr} (p n bar off len : Nat) (data : Option (List Byte)) (ok : Bool)
    (s : State) (hp : s.pending = qp) (hd : s.trw.dram.wf = true) (hm : s.trw.sram.wf = true) : NextWf qp
    (execMemoryRequest p n bar off len data ok s) := by
  subst hp
  unfold execMemoryRequest
  (repeat' split) <;> simp_all

@[simp] theorem setMgtLast_kept (s : State) (st : Nat) : Keeps s (setMgtLast s st) := by
  unfold setMgtLast
  simp

@[simp] theorem execMgtWrite_wf {qp : List Instr} (off : Nat) (v : Word) (pec ok : Bool) (s : State) (hp
    : s.pending = qp) (hd : s.trw.dram.wf = true) (hm : s.trw.sram.wf = true) : NextWf qp
    (execMgtWrite off v pec ok s) := by
  subst hp
  unfold execMgtWrite
  simp [hd, hm]

@[simp] theorem execMgtRead_kept {qp : List Instr} {qd qm : Memory} (off : Nat) (pec : Bool) (s : State) (hp
    : s.pending = qp) (hd : s.trw.dram = qd) (hm : s.trw.sram = qm) : NextKeeps qp qd qm (execMgtRead off pec s) := by
  subst hp hd hm
  unfold execMgtRead
  simp

@[simp] theorem execMgtLast_kept {qp : List Instr} {qd qm : Memory} (pec : Bool) (s : State) (hp : s.pending = qp) (hd
    : s.trw.dram = qd) (hm : s.trw.sram = qm) : NextKeeps qp qd qm (execMgtLast pec s) := by
  subst hp hd hm
  unfold execMgtLast
  simp

@[simp] theorem execDynamicAddressAssign_kept {qp : List Instr} {qd qm : Memory} (addr : Nat) (setdasaFrom
    : Option Nat) (s : State) (hp : s.pending = qp) (hd : s.trw.dram = qd) (hm : s.trw.sram = qm) : NextKeeps qp qd qm
    (execDynamicAddressAssign addr setdasaFrom s) := by
  subst hp hd hm
  unfold execDynamicAddressAssign
  simp

@[simp] theorem execLd_kept {qp : List Instr} {qd qm : Memory} (x0 c : Nat) (err : Bool) (s : State) (hp
    : s.pending = qp) (hd : s.trw.dram = qd) (hm : s.trw.sram = qm) : NextKeeps qp qd qm (execLd x0 c err s) := by
  subst hp hd hm
  unfold execLd
  dsimp only
  (repeat' split) <;> simp

@[simp] theorem answerLoad_kept (x0 : Nat) (err : Bool) (s : State) (l : MissLoad) : Keeps s (answerLoad x0 err s l) := by
  unfold answerLoad
  dsimp only
  (repeat' split) <;> simp

@[simp] theorem execLoadMissFill_kept {qp : List Instr} {qd qm : Memory} (x0 line : Nat) (err : Bool) (s : State) (hp
    : s.pending = qp) (hd : s.trw.dram = qd) (hm : s.trw.sram = qm) : NextKeeps qp qd qm
    (execLoadMissFill x0 line err s) := by
  subst hp hd hm
  unfold execLoadMissFill
  (repeat' split) <;> simp

@[simp] theorem microDram_wf (s : State) (x1 a : Nat) (bs : List Byte) (hd : s.trw.dram.wf = true) (hm
    : s.trw.sram.wf = true) : KeepsWf s (microDram s x1 a bs) := by
  unfold microDram
  simp [hd, hm]

@[simp] theorem storeVisible_wf (s : State) (e : StoreEnt) (ok : Bool) (hd : s.trw.dram.wf = true) (hm
    : s.trw.sram.wf = true) : KeepsWf s (storeVisible s e ok) := by
  unfold storeVisible
  (repeat' split) <;> simp_all

@[simp] theorem execSt_wf {qp : List Instr} (x0 c : Nat) (err ok : Bool) (s : State) (hp : s.pending = qp) (hd
    : s.trw.dram.wf = true) (hm : s.trw.sram.wf = true) : NextWf qp (execSt x0 c err ok s) := by
  subst hp
  unfold execSt
  (repeat' split) <;> simp_all

@[simp] theorem execStoreAck_wf {qp : List Instr} (x0 i : Nat) (ok : Bool) (s : State) (hp : s.pending = qp) (hd
    : s.trw.dram.wf = true) (hm : s.trw.sram.wf = true) : NextWf qp (execStoreAck x0 i ok s) := by
  subst hp
  unfold execStoreAck
  dsimp only
  (repeat' split) <;> simp_all

@[simp] theorem serviceReturn_kept (s : State) (x1 c status : Nat) (results : List Nat) : Keeps s
    (serviceReturn s x1 c status results) := by
  unfold serviceReturn
  simp

@[simp] theorem setBuf_kept (s : State) (k x2 : Nat) (b : FlowBuf) : Keeps s (setBuf s k x2 b) := by
  unfold setBuf
  simp

@[simp] theorem execVersion_kept {qp : List Instr} {qd qm : Memory} (x0 c : Nat) (s : State) (hp : s.pending = qp) (hd
    : s.trw.dram = qd) (hm : s.trw.sram = qm) : NextKeeps qp qd qm (execVersion x0 c s) := by
  subst hp hd hm
  unfold execVersion
  (repeat' split) <;> simp

@[simp] theorem execBufAlloc_kept {qp : List Instr} {qd qm : Memory} (x0 c : Nat) (room : Bool) (s : State) (hp
    : s.pending = qp) (hd : s.trw.dram = qd) (hm : s.trw.sram = qm) : NextKeeps qp qd qm (execBufAlloc x0 c room s) := by
  subst hp hd hm
  unfold execBufAlloc
  (repeat' split) <;> simp

@[simp] theorem execBufFree_kept {qp : List Instr} {qd qm : Memory} (x0 c : Nat) (s : State) (hp : s.pending = qp) (hd
    : s.trw.dram = qd) (hm : s.trw.sram = qm) : NextKeeps qp qd qm (execBufFree x0 c s) := by
  subst hp hd hm
  unfold execBufFree
  (repeat' split) <;> simp

@[simp] theorem execNsRead_kept {qp : List Instr} {qd qm : Memory} (x0 c : Nat) (bad : List BadBlock) (s : State) (hp
    : s.pending = qp) (hd : s.trw.dram = qd) (hm : s.trw.sram = qm) : NextKeeps qp qd qm (execNsRead x0 c bad s) := by
  subst hp hd hm
  unfold execNsRead
  (repeat' split) <;> simp

@[simp] theorem serviceCopied_kept (s : State) (x1 c seq : Nat) : Keeps s (serviceCopied s x1 c seq) := by
  unfold serviceCopied
  (repeat' split) <;> simp

theorem serviceChange_kept (s : State) (t c : Nat) (x : Ctx) (cmd : Cmd) (bad : List BadBlock)
    (land : NsRec → Nat → Option Landing)
    (hl : ∀ ns n, LandKeeps s.pending s.trw.dram s.trw.sram (land ns n)) :
    (serviceChange s t c x cmd bad land).pending = s.pending ∧ (serviceChange s t c x cmd bad land).trw.dram = s.trw.dram ∧ (serviceChange s t c x cmd bad land).trw.sram = s.trw.sram := by
  unfold serviceChange
  dsimp only
  repeat' split
  all_goals first
    | (simp; done)
    | (obtain ⟨a, b, d⟩ := hl _ _ _ ‹land _ _ = some _›; simp [a, b, d])

@[simp] theorem execNsWrite_kept {qp : List Instr} {qd qm : Memory} (x0 c : Nat) (clens : List Nat) (bad
    : List BadBlock) (s : State) (hp : s.pending = qp) (hd : s.trw.dram = qd) (hm : s.trw.sram = qm)
    : NextKeeps qp qd qm (execNsWrite x0 c clens bad s) := by
  subst hp hd hm
  unfold execNsWrite
  dsimp only
  repeat' split
  all_goals first
    | (simp; done)
    | exact (nextKeeps_next ..).mpr (serviceChange_kept _ _ _ _ _ _ _ fun _ _ => landWrite_kept _ _ _ _ _ _ _ _)

@[simp] theorem execNsZero_kept {qp : List Instr} {qd qm : Memory} (x0 c : Nat) (clens : List Nat) (bad
    : List BadBlock) (s : State) (hp : s.pending = qp) (hd : s.trw.dram = qd) (hm : s.trw.sram = qm)
    : NextKeeps qp qd qm (execNsZero x0 c clens bad s) := by
  subst hp hd hm
  unfold execNsZero
  dsimp only
  repeat' split
  all_goals first
    | (simp; done)
    | exact (nextKeeps_next ..).mpr (serviceChange_kept _ _ _ _ _ _ _ fun _ _ => landZeroes_kept _ _ _ _ _ _ _)

@[simp] theorem execNsInfo_kept {qp : List Instr} {qd qm : Memory} (x0 c : Nat) (s : State) (hp : s.pending = qp) (hd
    : s.trw.dram = qd) (hm : s.trw.sram = qm) : NextKeeps qp qd qm (execNsInfo x0 c s) := by
  subst hp hd hm
  unfold execNsInfo
  (repeat' split) <;> simp

@[simp] theorem execHostRead_kept {qp : List Instr} {qd qm : Memory} (x0 c : Nat) (data : List Byte) (ok : Bool) (s
    : State) (hp : s.pending = qp) (hd : s.trw.dram = qd) (hm : s.trw.sram = qm) : NextKeeps qp qd qm
    (execHostRead x0 c data ok s) := by
  subst hp hd hm
  unfold execHostRead
  (repeat' split) <;> simp

@[simp] theorem execHostWrite_kept {qp : List Instr} {qd qm : Memory} (x0 c : Nat) (ok : Bool) (s : State) (hp
    : s.pending = qp) (hd : s.trw.dram = qd) (hm : s.trw.sram = qm) : NextKeeps qp qd qm (execHostWrite x0 c ok s) := by
  subst hp hd hm
  unfold execHostWrite
  (repeat' split) <;> simp

@[simp] theorem execBufCrc_kept {qp : List Instr} {qd qm : Memory} (x0 c : Nat) (s : State) (hp : s.pending = qp) (hd
    : s.trw.dram = qd) (hm : s.trw.sram = qm) : NextKeeps qp qd qm (execBufCrc x0 c s) := by
  subst hp hd hm
  unfold execBufCrc
  (repeat' split) <;> simp

@[simp] theorem execServiceFlush_kept {qp : List Instr} {qd qm : Memory} (x0 c : Nat) (s : State) (hp
    : s.pending = qp) (hd : s.trw.dram = qd) (hm : s.trw.sram = qm) : NextKeeps qp qd qm (execServiceFlush x0 c s) := by
  subst hp hd hm
  unfold execServiceFlush
  (repeat' split) <;> simp

@[simp] theorem execPushBuf_kept {qp : List Instr} {qd qm : Memory} (x0 c : Nat) (fenceOk : Bool) (s : State) (hp
    : s.pending = qp) (hd : s.trw.dram = qd) (hm : s.trw.sram = qm) : NextKeeps qp qd qm (execPushBuf x0 c fenceOk s) := by
  subst hp hd hm
  unfold execPushBuf
  (repeat' split) <;> simp

end Sys2Proof.Laws
end

