-- ==== Sys2Proof/Laws/Regs.lean ====
section
/-!
SUPPORT. Laws/Regs.lean: reading registers and fields after a write of one of them.
-/

namespace Sys2Proof.Laws

open Sys2Proof.Machine

@[simp] theorem rget_rset (s : State) (k j : Nat) (v : Word) :
    rget (rset s k v) j = if j = k then v else rget s j := by
  by_cases h : j = k
  · subst h; simp [rget, rset]
  · simp only [rget, rset, if_neg h]
    have : ∀ (d e : Word) (t : Tbl Word), tget e (tset d t k v) j = tget e t j := by
      intro d e t
      have hdel : ∀ t : Tbl Word, tget e (tdel t k) j = tget e t j := by
        intro t
        induction t with
        | nil => rfl
        | cons x t ih =>
          obtain ⟨i, y⟩ := x
          by_cases hk : k = i
          · rw [tdel, if_pos hk, ih, tget, if_neg (hk ▸ h)]
          · rw [tdel, if_neg hk, tget, tget, ih]
      induction t with
      | nil => by_cases hv : v = d <;> simp [tset, tget, hv, h]
      | cons x t ih =>
        obtain ⟨i, y⟩ := x
        unfold tset
        by_cases hk : k = i
        · by_cases hv : v = d
          · rw [if_pos hk, if_pos hv, hdel, tget, if_neg (hk ▸ h)]
          · rw [if_pos hk, if_neg hv, tget, if_neg h, tget, if_neg (hk ▸ h)]
        · by_cases hlt : k < i
          · by_cases hv : v = d
            · rw [if_neg hk, if_pos hlt, if_pos hv, tget, hdel, tget]
            · rw [if_neg hk, if_pos hlt, if_neg hv, tget, if_neg h]
          · rw [if_neg hk, if_neg hlt, tget, ih, tget]
    exact this _ _ _

theorem bitsSet_toNat (v : Word) (lo w x : Nat) (h : lo + w ≤ 32) :
    (bitsSet v lo w x).toNat = v.toNat / 2 ^ (lo + w) * 2 ^ (lo + w) + x % 2 ^ w * 2 ^ lo + v.toNat % 2 ^ lo := by
  rw [bitsSet, BitVec.toNat_ofNat, Nat.mod_eq_of_lt]
  have hv : v.toNat < 2 ^ 32 := v.isLt
  have h1 : v.toNat % 2 ^ lo < 2 ^ lo := Nat.mod_lt _ (Nat.two_pow_pos lo)
  have h2 : x % 2 ^ w < 2 ^ w := Nat.mod_lt _ (Nat.two_pow_pos w)
  have h3 : x % 2 ^ w * 2 ^ lo + v.toNat % 2 ^ lo < 2 ^ (lo + w) := by
    calc x % 2 ^ w * 2 ^ lo + v.toNat % 2 ^ lo < x % 2 ^ w * 2 ^ lo + 2 ^ lo := by omega
      _ = (x % 2 ^ w + 1) * 2 ^ lo := by ring
      _ ≤ 2 ^ w * 2 ^ lo := Nat.mul_le_mul_right _ h2
      _ = 2 ^ (lo + w) := by rw [Nat.pow_add]; ring
  obtain ⟨d, hd⟩ := Nat.exists_eq_add_of_le h
  have h32 : (2 : Nat) ^ 32 = 2 ^ (lo + w) * 2 ^ d := by rw [← Nat.pow_add, ← hd]
  have hq : v.toNat / 2 ^ (lo + w) < 2 ^ d := by
    rw [Nat.div_lt_iff_lt_mul (Nat.two_pow_pos _), Nat.mul_comm, ← h32]; exact hv
  calc v.toNat / 2 ^ (lo + w) * 2 ^ (lo + w) + x % 2 ^ w * 2 ^ lo + v.toNat % 2 ^ lo
      < v.toNat / 2 ^ (lo + w) * 2 ^ (lo + w) + 2 ^ (lo + w) := by omega
    _ = (v.toNat / 2 ^ (lo + w) + 1) * 2 ^ (lo + w) := by ring
    _ ≤ 2 ^ d * 2 ^ (lo + w) := Nat.mul_le_mul_right _ hq
    _ = 2 ^ 32 := by rw [h32]; ring

/-- A field reads back what was written, cut to its width. -/
theorem bitsGet_bitsSet (v : Word) (lo w x : Nat) (h : lo + w ≤ 32) : bitsGet (bitsSet v lo w x) lo w = x % 2 ^ w := by
  rw [bitsGet, bitsSet_toNat v lo w x h]
  have h1 : v.toNat % 2 ^ lo < 2 ^ lo := Nat.mod_lt _ (Nat.two_pow_pos lo)
  have e : v.toNat / 2 ^ (lo + w) * 2 ^ (lo + w) + x % 2 ^ w * 2 ^ lo + v.toNat % 2 ^ lo =
      v.toNat % 2 ^ lo + 2 ^ lo * (x % 2 ^ w + 2 ^ w * (v.toNat / 2 ^ (lo + w))) := by rw [Nat.pow_add]; ring
  rw [e, Nat.add_mul_div_left _ _ (Nat.two_pow_pos lo), Nat.div_eq_of_lt h1, Nat.zero_add, Nat.add_mul_mod_self_left,
    Nat.mod_mod]

/-- A field above or below the written one reads as before. -/
theorem bitsGet_bitsSet_ne (v : Word) (lo w x lo' w' : Nat) (h : lo + w ≤ 32)
    (hd : lo + w ≤ lo' ∨ lo' + w' ≤ lo) : bitsGet (bitsSet v lo w x) lo' w' = bitsGet v lo' w' := by
  rw [bitsGet, bitsSet_toNat v lo w x h, bitsGet]
  have h1 : v.toNat % 2 ^ lo < 2 ^ lo := Nat.mod_lt _ (Nat.two_pow_pos lo)
  have h2 : x % 2 ^ w < 2 ^ w := Nat.mod_lt _ (Nat.two_pow_pos w)
  rcases hd with hd | hd
  · obtain ⟨d, rfl⟩ := Nat.exists_eq_add_of_le hd
    have h3 : x % 2 ^ w * 2 ^ lo + v.toNat % 2 ^ lo < 2 ^ (lo + w) := by
      calc x % 2 ^ w * 2 ^ lo + v.toNat % 2 ^ lo < x % 2 ^ w * 2 ^ lo + 2 ^ lo := by omega
        _ = (x % 2 ^ w + 1) * 2 ^ lo := by ring
        _ ≤ 2 ^ w * 2 ^ lo := Nat.mul_le_mul_right _ h2
        _ = 2 ^ (lo + w) := by rw [Nat.pow_add]; ring
    rw [Nat.add_assoc, Nat.add_comm, Nat.pow_add 2 (lo + w) d, ← Nat.div_div_eq_div_mul, ← Nat.div_div_eq_div_mul,
      Nat.mul_comm (v.toNat / _), Nat.add_mul_div_left _ _ (Nat.two_pow_pos _), Nat.div_eq_of_lt h3, Nat.zero_add]
  · obtain ⟨d, rfl⟩ := Nat.exists_eq_add_of_le hd
    have key : ∀ a b : Nat, (a * 2 ^ (lo' + w' + d) + b) / 2 ^ lo' % 2 ^ w' = b / 2 ^ lo' % 2 ^ w' := by
      intro a b
      have : a * 2 ^ (lo' + w' + d) + b = b + 2 ^ lo' * (2 ^ w' * (a * 2 ^ d)) := by
        rw [Nat.pow_add, Nat.pow_add]; ring
      rw [this, Nat.add_mul_div_left _ _ (Nat.two_pow_pos _), Nat.add_mul_mod_self_left]
    have e1 : v.toNat / 2 ^ (lo' + w' + d + w) * 2 ^ (lo' + w' + d + w) + x % 2 ^ w * 2 ^ (lo' + w' + d) +
        v.toNat % 2 ^ (lo' + w' + d) =
        (v.toNat / 2 ^ (lo' + w' + d + w) * 2 ^ w + x % 2 ^ w) * 2 ^ (lo' + w' + d) + v.toNat % 2 ^ (lo' + w' + d) := by
      rw [Nat.pow_add 2 (lo' + w' + d) w]; ring
    rw [e1, key]
    have := key (v.toNat / 2 ^ (lo' + w' + d)) (v.toNat % 2 ^ (lo' + w' + d))
    rw [Nat.div_add_mod'] at this
    exact this.symm

theorem fget_fset_same (s : State) (f : Fld) (x : Nat) (h : f.lo + f.w ≤ 32) :
    fget (fset s f x) f = x % 2 ^ f.w := by
  simp [fget, fset, bitsGet_bitsSet _ _ _ _ h]

/-- A field of another word. -/
theorem fget_fset_off (s : State) (f g : Fld) (x : Nat) (h : g.off ≠ f.off) : fget (fset s f x) g = fget s g := by
  simp [fget, fset, h]

/-- A field beside the written one. -/
theorem fget_fset_ne (s : State) (f g : Fld) (x : Nat) (h : f.lo + f.w ≤ 32)
    (hd : g.off ≠ f.off ∨ f.lo + f.w ≤ g.lo ∨ g.lo + g.w ≤ f.lo) : fget (fset s f x) g = fget s g := by
  by_cases ho : g.off = f.off
  · rcases hd with hd | hd
    · exact absurd ho hd
    · simp [fget, fset, ho, bitsGet_bitsSet_ne _ _ _ _ _ _ h hd]
  · exact fget_fset_off s f g x ho

/-- Words beside the written field's read as before. -/
theorem rget_fset (s : State) (f : Fld) (x k : Nat) (h : k ≠ f.off) : rget (fset s f x) k = rget s k := by
  simp [fset, h]

end Sys2Proof.Laws
end

