-- ==== Sys2Proof/Tests/Slice0.lean ====
section
/-!
SUPPORT. Tests/Slice0.lean: the spec's worked examples, the well-formedness smoke, and for every statement with hypotheses
a state and operands that meet them (`hyps_<statement>`, one conjunct per clause of the statement).
-/

set_option Elab.async false

namespace Sys2Proof.Tests

open Sys2Proof Sys2Proof.Machine

/-! ## States the witnesses are built from -/

/-- 1,000 s after power-on, in a device state. -/
def ph (p : Phase) : State := { State.reset with phase := p, tb := { ns := 1000000000000 } }

def sv : State := ph .serving

/-- One HDA with one zone, two flash channels, one FOC-like task of one node, an Ozper partner, control PF on port 0. -/
def img1 : Image :=
  { platform := { ctlPort := some 0, portPresent := [true], vfBlocks := [1], flashPresent := [true, true], hdaPresent := [true] }
    memory := { chans := [{ dimms := 1, gib := 16 }] }
    ring := some { ringId := 1, partner := 1, versions := 3 }
    flashProf := { chmap := [some 0, some 0], profiles := [{}] }
    zones := { hmap := [some 0], tables := [{ zones := [{}], headRecs := [{}] }] }
    motor := { acts := [some {}, some {}], spins := [some {}] }
    lantern := { tasks := [{ kind := 1 }], graphs := [{ kind := 1, nodes := [{}], coefs := [0] }] } }

def im (i : Image) (s : State) : State := { s with loader := { s.loader with img := some i } }

def iv : State := im img1 sv

/-- Flash channels 0 and 1 in service, with LUN 0 each. -/
def fl (s : State) : State :=
  [0, 1].foldl (fun s c => fset (fset s (FLC_CH_STATE_STATE.ix c 0x4000) 3) (FLC_LUN_OK_OK.ix c 0x4000) 1) s

/-- Port 0 with its PF and VF 1 to 8, the link up. -/
def pt (s : State) : State :=
  let s := fset (fset (fset s (HPT_FUNCS_PRESENT.ix 0 0x1000) 1) (HPT_LINK_DL_UP.ix 0 0x1000) 1) (HPT_FUNCS_VF_BLOCKS.ix 0 0x1000) 1
  { fset s (HPT_FUNCS_CONTROL.ix 0 0x1000) 1 with fns := [(0, { bme := true, vfEnable := true, numVfs := 8 }), (1, { bme := true })] }

/-- Everything the minimum service set asks for. -/
def up (s : State) : State :=
  let s := fset (fset (fl (pt (im img1 s))) (tileMapF 0) 0) (tileMapF 1) 1
  fset (fset s (PWR_PD_ON_ON.ix 0 4) 1) MSK_LANES_IN_SERVICE 1

def act (s : State) (a st : Nat) : State := fset s (srvF SRV_ACT_STATE a) st
def dp (s : State) (a : Nat) : State := fset s (rdcF RDC_ACT_STATE_STATE a) 2
def spn (s : State) (h st : Nat) : State := fset s (spnF SPN_STATE_STATE h) st
def sr (s : State) (a : Nat) (v : Servo) : State := modSrv s a fun _ => v
def rd (s : State) (a : Nat) (v : RdChan) : State := { s with rdc := [(a, v)] }
def sp (s : State) (h : Nat) (v : Spindle) : State := { s with spn := [(h, v)] }
def own (s : State) : State :=
  { s with nv := { s.nv with tenants := [(0, { state := 1, ns := [(1, { size := 100, pool := 0 })] })] }
           tenants := [(0, { key := some 7, grants := [(0, { len := 4096 })] })] }
def cm (s : State) (c : Cmd) : State := { s with cmds := [(5, c)] }

/-- An I/O command of VF 1 of port 0, opcode `o`, bound to a flow. -/
def io (o : Nat) : Cmd := { fid := 1, q := 1, index := 0, tenant := 0, sqe := { opc := o, nsid := 1, buf0Len := 4096 }, admin := false, bound := some (0, 0), charged := 1048576 }

/-- An admin command of the control PF. -/
def ad (o : Nat) (e : Sqe) : Cmd := { fid := 0, q := 0, index := 0, tenant := 0, sqe := { e with opc := o }, admin := true }


/-- Context 0 of tile 0 runs a flow and holds word `w`. -/
def cx (w : Nat) (x : Ctx) : State :=
  let s := fset iv (tileMapF 0) 0
  { s with trw := { s.trw with ctxs := [(0, { x with busy := true, word := some w })] } }

/-- A word of opcode `o` with the rest of its fields in `r`. -/
def mw (o r : Nat) : Nat := o * 2 ^ 120 + r

def ctx0 (w : Nat) (x : Ctx) : Ctx := { x with busy := true, word := some w }

/-- Task 0's instance stands before a node. -/
def nodeAt (n : NodeWord) : State :=
  let s := im { img1 with lantern := { tasks := [{ kind := 1 }], graphs := [{ kind := 1, nodes := [n], coefs := [0] }] } } sv
  { s with ltn := { s.ltn with tasks := [(0, { run := some { deadline := 0, started := 0 } })] } }

def inst0 : Inst := { deadline := 0, started := 0 }

def dop : DiskOp := { write := true, band := 0, frag := 0, first := 0, count := 1, slot0 := 0 }

/-- Actuator 0 follows with everything a write, or a read, waits for. -/
def rdy : State :=
  let s := act (sr (fset (dp iv 0) (rdcF RDC_ACT_STATE_SPEED_OK 0) 1) 0 { target := 2 }) 0 7
  fset (rd s 0 { run := some dop, regs := [(1, 5), (2, 1)], heatHead := some 0, heatCode := heatCode s 0 0 true }) (srvF SRV_ACT_ON_TRACK 0) 1
def rdyR : State :=
  let s := act (sr (fset (dp iv 0) (rdcF RDC_ACT_STATE_SPEED_OK 0) 1) 0 { target := 2 }) 0 7
  fset (rd s 0 { run := some { dop with write := false }, regs := [(1, 4), (2, 1)], heatHead := some 0, heatCode := heatCode s 0 0 false })
    (srvF SRV_ACT_RD_READY 0) 1

/-- A slot that passes every check of Table 03-13: ten flash channels, no HDA. -/
def imgOk : Image :=
  { ucodeVer := 0x20000
    platform := { portPresent := [true], vfBlocks := [1], flashPresent := List.replicate 10 true }
    memory := { chans := [{ dimms := 1, gib := 16 }] }
    energy := { pHold := 1, eUnload := 1, cVhold := 100, vhFull := 12, vhMin := 6, vhGain := 1, pVh := 1000 }
    pools := { fmemb := 0x3FF }
    flashProf := { chmap := List.replicate 10 (some 0), profiles := [{ ces := 4, vpc := 2, psets := 4096 }] } }
def slotOk : SlotFacts :=
  { imageLen := 0x10000
    sections := [1, 0x10, 0x11, 0x12, 0x16, 0x17, 0x18].zipIdx.map fun e => { typ := e.1, offset := 0x1000 * (e.2 + 1), length := 64 }
    bundle := { ucodeVer := 0x20000, graphFmts := 1 }
    img := imgOk }

/-- Every power domain on. -/
def pw (s : State) : State :=
  [0, 1, 2, 3, 4, 5].foldl (fun s i => fset s (PWR_PD_ON_ON.ix i 4) 0xFFFFFFFF) s

/-- Queue pair 1 of VF 1 of port 0. -/
def qp (p : QPair) (s : State) : State := { pt s with qps := [(qpKey 1 1, p)], jrn := { next := 1, open_ := true } }

def ch (x : FlashChan) (s : State) : State := { fl s with flc := [(0, x)] }

/-- Channel 0 of Hod claimed by the control PF. -/
def hd (s : State) : State := fset (pw s) HOD_OWN_CLAIM 1

/-- Tile 0's memory side beside context 0. -/
def tl (x : Tile) (s : State) : State := { s with trw := { s.trw with tiles := [(0, x)] } }

/-- Actuator 0 waits for a load with its HDA at speed. -/
def ls (s : State) : State := fset (act (dp s 0) 0 2) (SPN_STATE_AT_SPEED.ix 0 0x1000) 1

/-- A store of one byte in the buffer. -/
def st1 (sp d : Nat) : StoreEnt := { ctx := 0, space := sp, addr := 0, size := 1, data := d }

def rec0 : List Byte := [0x58, 0x41, 0x43, 0x54, 1] ++ List.replicate 123 0

def oz (st : Nat) (s : State) : State := fset (fset (pw (im img1 s)) OZP_STATUS_BYP_HOLD 1) (ozStateF 0) st

def ring1 : RingSec := { ringId := 1, partner := 1, versions := 3 }

/-- Ozper's west port in service. -/
def oz1 (s : State) : State := fset s (ozStateF 1) 3

def mir : MirrorMsg := { mid := 0, slot := 0, sent := 1, mask := 15, tenant := 0, ns := 1, incarn := 0, gran := 0, gen := 1, tags := [0, 0, 0, 0], epoch := 0, blocks := [0] }

/-- A tenant of one hybrid namespace with one extent of entry `x`, and a part-filled stripe for disk and for hybrid writes. -/
def hyb (x : Extent) (i : Image) : State :=
  { im i sv with
      nv := { tenants := [(0, { state := 1, ns := [(1, { size := 100, pool := 2, compress := true })] })] }
      udc := { ext := [(granKey 0 1 0, x)], open_ := [{ head := 2, seg := 0, stripe := 0, su := 256, width := 2 },
                 { head := 3, seg := 0, stripe := 0, su := 4, width := 2 }, { head := 4, seg := 0, stripe := 0, su := 4, width := 2 }] } }

/-- History slot 0 holds record 7 of class `c`, source 1. -/
def rk (c : Nat) : State :=
  let s := { State.reset with phase := .serving, kpr := { order := [0], lastRec := [(1, 8)] } }
  fset (fset (fset s (recClass 0) c) (recRseq 0) 7) (recSource 0) 1

def tk (k : Task) : State := { iv with ltn := { tasks := [(0, k)], logical := [some 0, none, none, none, none, none, none] } }

/-- Context 0 of tile 0 waits for vendor service `n`. -/
def vx (n : Nat) (x : Ctx) : Ctx := { x with busy := true, wait := .service n }
def vs (n : Nat) (x : Ctx) : State := { own (up sv) with trw := { ctxs := [(0, vx n x)] } }

def rq (it : RndItem) : State := { fset iv RND_STATUS_IN_SERVICE 0xFF with rnd := { queue := [it] } }
def re (it : RndItem) : State := { fset iv RND_STATUS_IN_SERVICE 0xFF with rnd := { engines := [(0, some it)] } }


/-- A device that holds an operator key and a DAYMARK_CLEAR. -/
def clr : State := cm { own iv with nv := { opHash := some 9 }, trw := { entryIf := 0x10000 } } (ad 92 { buf0Len := 240 })

theorem clr_status : clearStatus clr 240 { uid := Config.otpUid.toNat, keyHash := 9, nonce := [0, 0, 0, 0] } = 0 := by
  have h1 : clr.nv.opHash = some 9 := rfl
  have h2 : clr.tb.boot % 2 ^ 32 = 0 := rfl
  have h3 : (List.range 4).map (fun i => rget clr (DMK_NONCE_NONCE.off + 4 * i)) = [0, 0, 0, 0] := by decide +kernel
  simp only [clearStatus, h1, h2, h3]
  simp

/-- HDA 0 turns at 10 revolutions a second with Ke 1 V s/rad: its back-EMF passes 100 mV. -/
def turning : State := sp (spn (im { img1 with motor := { spins := [some { keNom := 1 }] } } sv) 0 4) 0 { omega := 10 }

theorem turning_watched : openWatched turning 0 = true := by
  have h : (3141592 / 1000000 : Rat) ≤ Config.pi := le_max_left _ _
  have e : openWatched turning 0 = decide ((1 : Rat) / 10 < 10 * (2 * Config.pi) * 1) := rfl
  rw [e, decide_eq_true_eq]
  linarith

/-! ## The spec's worked examples, and facts of its tables -/

/-- Example "Reading the identity string" (00_scope.md). -/
theorem test_identity_string : (List.range 8).map (fun i => rget State.reset (0x10 + 4 * i)) =
    [0x32314158, 0x42203438, 0x68502030, 0x6B6F726F, 0, 0, 0, 0] := by decide +kernel

def ascii9 : List Byte := [0x31, 0x32, 0x33, 0x34, 0x35, 0x36, 0x37, 0x38, 0x39]

/-- The check value of the journal's CRC-16 (Table 05-12). -/
theorem test_crc16_check : crc16 ascii9 = 0x29B1 := by decide +kernel

/-- Table 08-15: `cmp g33, 16`, `nop, br hi 3_805C`, `mov g17, g33, callv 0x01`. -/
theorem test_word_cmp : MWord.ofNat 0x0A000210200000000000000000000010 =
    { opc := 0x0A, sq := 0, cond := 0, sf := false, rd := 0, ra := 33, rb := 0, bsel := true, size := 0, space := 0, rsv := 0
      target := 0, imm := 16 } := by decide +kernel
theorem test_word_branch : MWord.ofNat 0x005000000003805C0000000000000000 =
    { opc := 0, sq := 2, cond := 8, sf := false, rd := 0, ra := 0, rb := 0, bsel := false, size := 0, space := 0, rsv := 0
      target := 0x3805C, imm := 0 } := by decide +kernel
theorem test_word_callv : MWord.ofNat 0x09C04408400000010000000000000000 =
    { opc := 9, sq := 6, cond := 0, sf := false, rd := 17, ra := 0, rb := 33, bsel := false, size := 0, space := 0, rsv := 0
      target := 1, imm := 0 } := by decide +kernel
theorem test_words_keep_the_rules : wordFault (MWord.ofNat 0x0A000210200000000000000000000010) = 0 ∧
    wordFault (MWord.ofNat 0x005000000003805C0000000000000000) = 0 ∧
    wordFault (MWord.ofNat 0x09C04408400000010000000000000000) = 0 := by decide +kernel

/-- Example "block allocation" (Table 04-2): VF 5 of port 2, whose first block is 48, serves tenant 388. -/
theorem test_tenant_of_vf : tenantOf (fset State.reset (HPT_FUNCS_FIRST_BLOCK.ix 2 0x1000) 48) (fnId 2 5) = 388 := by
  decide +kernel

/-- Example "a trial image" (Table 03-14): three boots try slot B, the next takes slot A. -/
theorem test_trial_boots : slotOrder 1 2 0 = ([2, 1], 2, 1) ∧ slotOrder 1 2 2 = ([2, 1], 2, 3) ∧
    slotOrder 1 2 3 = ([1, 2], 0, 0) := by decide

def flashPool : ClassRec := { pool := 0 }

/-- Example "admitting a contract": the two records' DRAM charges are 16,000 and 10,000. -/
theorem test_contract_charge :
    contractCharge State.reset 0 [some { flashPool with rdFloor := 6000, wrFloor := 4000 },
      some { flashPool with rdFloor := 2000, wrFloor := 1000 }, none] [] 0 = 16000 ∧
    contractCharge State.reset 0 [some { flashPool with rdFloor := 6000, wrFloor := 2500 },
      some { flashPool with rdFloor := 2000, wrFloor := 500 }, none] [] 0 = 10000 := by decide +kernel

/-- Example "a 12-HDA, 24-channel sled" (Table 09-12): the tables take 85.523 - 48 GiB. -/
def sled : Image :=
  { pools := { flashCap := 40 * 2 ^ 28, diskCap := 160 * 2 ^ 28, hybCap := 64 * 2 ^ 28, hybFlash := 16 * 2 ^ 28, wlog := 4 * 2 ^ 28 }
    memory := { dirtyMax := 24576, secondMax := 24576 } }
theorem test_dram_check : 37.5225 * 1024 < tableMiB (im sled State.reset) ∧ tableMiB (im sled State.reset) < 37.5235 * 1024 := by
  decide +kernel

def outer (spt : Nat) : ZoneTable :=
  { heads := 12, rpm := 7200, wedges := 600, wedgeNs := 600, pre := 20, resync := 12, bandCyl := 2, cyls := 102
    zones := [{ rate := 3600, dstr := 1, frag := 64, spt := spt }] }
/-- Example "the format of an outer zone" (Table 11-6): SPT 772 and 773 fit, 774 does not; 12 fragments a track. -/
theorem test_zone_fit : zoneOk (outer 772) 0 = true ∧ zoneOk (outer 773) 0 = true ∧ zoneOk (outer 774) 0 = false ∧
    zoneFpt { spt := 772, frag := 64 } = 12 := by decide +kernel

def sledEnergy : EnergySec := { pHold := 160, eUnload := 1 / 2, cVhold := 2 / 10, vhFull := 30, vhMin := 12, pVh := 200 }
def sledSpins (n : Nat) : List SpinEnergy :=
  List.replicate n { r := 1, ke := 12 / 1000, iBrake := 4, omega := 753982236862 / 1000000000, j := 4 / 10000 }
def sledChans : List (LunProfile × Nat) :=
  List.replicate 24 ({ rate := 3200, planes := 4, upp := 4, tProgSlc := 180, tBers := 10000 }, 8)
/-- Example "the dirty limit while a sled comes up" (Table 19-2): E of 0 to 12 spindles, to 10 mJ. -/
theorem test_ballast_energy : ∀ p ∈ [(0, (54.43 : Rat)), (2, 54.43), (4, 98.59), (6, 326.42), (12, 845.33)],
    p.2 - 0.01 ≤ countedEnergy sledEnergy (sledSpins p.1) 30 ∧ countedEnergy sledEnergy (sledSpins p.1) 30 ≤ p.2 + 0.01 := by
  decide +kernel
/-- The same table's terms, to 0.02 GiB. -/
theorem test_ballast_term : ∀ p ∈ [(0, (10.18 : Rat)), (4, 22.52), (6, 86.18), (12, 231.17)],
    let x := energyBytes sledEnergy sledChans 24 (countedEnergy sledEnergy (sledSpins p.1) 30) / 2 ^ 30
    p.2 - 0.02 ≤ x ∧ x ≤ p.2 + 0.02 := by decide +kernel
/-- A removed bank with four spindles stops the pool: T_avail is below 0.25 s. -/
theorem test_ballast_without_bank : energyBytes sledEnergy sledChans 24 (countedEnergy sledEnergy (sledSpins 4) 0) = 0 := by
  decide +kernel

def tfTask (dl : Nat) : State :=
  im { lantern := { tasks := [{ kind := 1, deadline := dl }], graphs := [{ kind := 1, ops := 260 }] } } State.reset
/-- Example "loading one core" (Table 12-8): the density of a TF task at deadlines of 10 us and 6 us, in 1/10,000. -/
theorem test_density : (density (tfTask 10000) 0 * 10000 + 1 / 2).floor = 811 ∧
    (density (tfTask 6000) 0 * 10000 + 1 / 2).floor = 1352 := by decide +kernel

/-- Example "reading SRV_ACT" (20_address_map.md): 0x002F_00C7 is FOLLOW, on track, ready to read, lanes 0 to 3 valid, LOADED. -/
theorem test_srv_act : let s := rset State.reset 0xD09000 0x2F00C7
    srvState s 9 = 7 ∧ fget s (srvF SRV_ACT_ON_TRACK 9) = 1 ∧ fget s (srvF SRV_ACT_RD_READY 9) = 1 ∧
      fget s (srvF SRV_ACT_PARK_REC 9) = 2 := by decide +kernel

/-- Example "two writers ask for one pin" (R41): GPIO8 keeps FAN_TACH 0 and the conflict names pin 8. -/
theorem test_gpio_conflict :
    let s := rset (rset sv 0x104 3) 0x100 2
    ∃ t, exec (.gpioFuncWrite 1 2) s = .next t ∧ gpioCode t 8 = 3 ∧ gpioCode t 0 = 2 ∧ fget t GLB_GPIO_STATUS_CONFLICT = 1 ∧
      fget t GLB_GPIO_STATUS_CONFLICT_PIN = 8 := ⟨_, rfl, by decide +kernel⟩

def act6 : State :=
  let r : ActRec := { kt := 8 / 100, j := 1 / 100000, tpr := 1000000, lNom := 1 / 10000, aNom := 8000000000, vMax := 50000000
                      tBlend := 5 / 10000, ds := 200, ts := 1 / 1000, carrier := 400, tLL := 300, vDrop := 1 / 10 }
  im { motor := { acts := [some r] } } { sv with pwr := { vm := 12000 } }
/-- Example "a seek that saturates" (Table 13-2): H is 8.92 V and v' is 5.0e7 tracks/s. -/
theorem test_seek_headroom : headroomV (actRec act6 0) (vmNow act6) = 8.92 ∧ (seekScale act6 0).2.2 = 50000000 := by
  decide +kernel

/-- An empty queue: the block idles. -/
theorem test_idle : step State.reset = .next State.reset := rfl

/-- POR_N release takes OFF to LOADING (R29). -/
theorem test_por_release : ∃ t, exec .porRelease State.reset = .next t ∧ t.phase = .loading := ⟨_, rfl, by decide +kernel⟩

/-! ## Each check of well-formedness refuses a term, and accepts the largest number it allows -/

theorem test_wf_refuses_1 : ∀ i ∈ ([
    .registerWrite (.fn 6 0) 0 4 0 false, .registerWrite (.fn 0 1024) 0 4 0 false,
    .registerWrite (.flow 32 0) 0 4 0 false, .registerWrite (.flow 0 8) 0 4 0 false,
    .registerWrite .mgt 0 3 0 false, .registerWrite .mgt 0 8 0 false, .rcFieldRead (.fn 6 0) 0 4,
    .rcFieldRead (.fn 0 1024) 0 4, .rcFieldRead (.flow 32 0) 0 4, .rcFieldRead (.flow 0 8) 0 4,
    .rcFieldRead .mgt 0 3, .rcFieldRead .mgt 0 8, .pairedLoRead (.fn 6 0) 0, .pairedLoRead (.fn 0 1024) 0,
    .pairedLoRead (.flow 32 0) 0, .pairedLoRead (.flow 0 8) 0, .pairedLoRead .mgt 2, .pairedHiRead (.fn 6 0) 0,
    .pairedHiRead (.fn 0 1024) 0, .pairedHiRead (.flow 32 0) 0, .pairedHiRead (.flow 0 8) 0, .pairedHiRead .mgt 2,
    .pairedLoWrite (.fn 6 0) 0 0, .pairedLoWrite (.fn 0 1024) 0 0, .pairedLoWrite (.flow 32 0) 0 0,
    .pairedLoWrite (.flow 0 8) 0 0, .pairedLoWrite .mgt 2 0, .pairedHiWrite (.fn 6 0) 0 0,
    .pairedHiWrite (.fn 0 1024) 0 0, .pairedHiWrite (.flow 32 0) 0 0, .pairedHiWrite (.flow 0 8) 0 0,
    .pairedHiWrite .mgt 2 0, .lathLinkDown 112 [], .rerouteComplete 112, .paceUpdate 4 0, .spinupTimeout 16 false,
    .pdPowerDownDone 198, .pdPowerUpDone 198 false false, .gpioFuncWrite 3 0, .fanTachEdge 4 0] : List Instr),
    i.wellFormed = false := by decide +kernel

theorem test_wf_refuses_2 : ∀ i ∈ ([
    .supplyMonitorCrossing 9 false, .tempThreshold 8 0, .tempThreshold 0 3, .perstRelease 6,
    .linkUp 6 0 0 false false, .linkRetrain 6 0 0 false false, .portReset 6 false, .configRequest 6 0 .readId,
    .configRequest 0 1024 .readId, .memoryRequest 6 0 0 0 0 none false, .memoryRequest 0 1024 0 0 0 none false,
    .memoryRequest 0 0 6 0 0 none false, .vfFlr 6 0, .vfFlr 0 1024, .pfFlr 6, .vfEnableClear 6, .numvfsWrite 6 0,
    .busMasterEnableWrite 6 0 false, .busMasterEnableWrite 0 1024 false, .dstateChange 6 0 false,
    .dstateChange 0 1024 false, .teardownCompletionWaitEnd 6 0, .teardownCompletionWaitEnd 0 1024, .teardownEnd 6 0,
    .teardownEnd 0 1024, .hostCompletionTimeout 6144 0 none, .hostCompletionTimeout 0 9 none,
    .hostCompletionArrival 6144 0 none 0, .hostCompletionArrival 0 9 none 0, .msixUnmask 6 0 0,
    .msixUnmask 0 1024 0, .sqDoorbell 6144 0 0, .sqDoorbell 0 9 0, .cqDoorbell 6144 0 0, .cqDoorbell 0 9 0,
    .aqCfgWrite 6144 0, .sqeFetch 6144, .sqeFetched 6144 0 [], .sqeFetched 0 9 [], .destroyReleaseEnd 1024] : List Instr),
    i.wellFormed = false := by decide +kernel

theorem test_wf_refuses_3 : ∀ i ∈ ([
    .xqResumeNext 6144 0, .xqResumeNext 0 9, .xqResumeSkip 6144 0 0, .xqResumeSkip 0 9 0, .xqResumeReset 6144 0,
    .xqResumeReset 0 9, .resumeApply 6144 0, .resumeApply 0 9, .buoyRefill 1024 0 false, .buoyRefill 0 8 false,
    .maskingKatTick 6 false, .maskingLockstepMismatch 6, .nop 32 0, .nop 0 8, .add 32 0, .add 0 8, .sub 32 0,
    .sub 0 8, .and 32 0, .and 0 8, .or 32 0, .or 0 8, .xor 32 0, .xor 0 8, .shl 32 0, .shl 0 8, .shr 32 0, .shr 0 8,
    .sar 32 0, .sar 0 8, .mov 32 0, .mov 0 8, .cmp 32 0, .cmp 0 8, .tst 32 0, .tst 0 8, .mul 32 0, .mul 0 8,
    .minu 32 0, .minu 0 8] : List Instr),
    i.wellFormed = false := by decide +kernel

theorem test_wf_refuses_4 : ∀ i ∈ ([
    .maxu 32 0, .maxu 0 8, .ext 32 0, .ext 0 8, .ins 32 0, .ins 0 8, .clz 32 0, .clz 0 8, .popc 32 0, .popc 0 8,
    .crc 32 0, .crc 0 8, .ld 32 0 false, .ld 0 8 false, .st 32 0 false false, .st 0 8 false false, .fenceW 32 0,
    .fenceW 0 8, .send 32 0, .send 0 8, .wait 32 0, .wait 0 8, .poll 32 0, .poll 0 8, .time 32 0, .time 0 8,
    .stcs 32 0, .stcs 0 8, .version 32 0, .version 0 8, .bufAlloc 32 0 false, .bufAlloc 0 8 false, .bufFree 32 0,
    .bufFree 0 8, .nsRead 32 0 [], .nsRead 0 8 [], .nsWrite 32 0 [] [], .nsWrite 0 8 [] [], .nsZero 32 0 [] [],
    .nsZero 0 8 [] []] : List Instr),
    i.wellFormed = false := by decide +kernel

theorem test_wf_refuses_5 : ∀ i ∈ ([
    .nsInfo 32 0, .nsInfo 0 8, .hostRead 32 0 [] false, .hostRead 0 8 [] false, .hostWrite 32 0 false,
    .hostWrite 0 8 false, .bufCrc 32 0, .bufCrc 0 8, .serviceFlush 32 0, .serviceFlush 0 8, .pushBuf 32 0 false,
    .pushBuf 0 8 false, .messageArrival 32 0 [], .messageArrival 0 8 [], .waitTimeout 32 0, .waitTimeout 0 8,
    .loadMissFill 32 0 false, .storeAck 32 0 false, .storeAck 0 4 false, .snoopInvalidate 32 0, .snoopFilterCover 4,
    .flowAbort 32 0 false, .flowAbort 0 8 false, .contextWatchdog 32 0, .contextWatchdog 0 8, .tileWatchdog 32,
    .tileFail 34, .spareSelftest 34 false, .scrubRead 262144 0 0, .scrubRead 0 3 0, .scrubRead 0 0 2,
    .csWordRestore 262144 false, .extentDestage 1024 0 0 [] [], .extentDestage 0 16 0 [] [],
    .settlingMove 1024 0 0 false [] [], .settlingMove 0 16 0 false [] [], .dramChannelLost 4,
    .flashDescriptorArrival 32 {}, .flashDescriptorTake 32 none, .flashReadDesc 32] : List Instr),
    i.wellFormed = false := by decide +kernel

theorem test_wf_refuses_6 : ∀ i ∈ ([
    .flashProgramDesc 32, .flashEraseDesc 32, .flashScanDesc 32, .flashReadParamDesc 32, .flashResetDesc 32,
    .lunOperationDone 32 0 {}, .lunOperationDone 0 32 {}, .flashCompletionAccept 32, .flashChannelInit 32 0 [] [] 0,
    .flashRetrainTick 32 false, .lunTimeout 32 0 false false, .lunTimeout 0 32 false false,
    .flashChannelRetire 32 false, .patrolScan 32 0 0 0 0 0 false, .patrolScan 0 32 0 0 0 0 false,
    .dumpRowErase 32 0, .dumpRowErase 0 32, .diskRead 32 { band := 0, frag := 0 }, .diskWrite 32 none 0,
    .diskOpSelect 32, .readPass 32 [] 0 0, .diskOpTimeout 32, .wfltCapture 32, .speedExcursion 16 false,
    .serialFrame 32 false 0, .fstatPoll 32, .preampRead 32 0, .heaterUpdate 32 none, .heaterIdleOff 32,
    .offsetCal 32 0, .eqCal 32 0 0 0, .eqCal 0 12 0 0, .precomp 32 0 0 0, .precomp 0 12 0 0, .calRequest 32 0,
    .offsetCalTick 32, .dataPathRetire 32 0, .taskTrigger 96, .instanceCommit 96, .taskDeadline 96] : List Instr),
    i.wellFormed = false := by decide +kernel

theorem test_wf_refuses_7 : ∀ i ∈ ([
    .nodeAdd 96, .nodeSub 96, .nodeMul 96, .nodeFma 96, .nodeDiv 96, .nodeSqrt 96, .nodeMin 96, .nodeMax 96,
    .nodeAbs 96, .nodeNeg 96, .nodeMov 96, .nodeSel 96, .nodeClamp 96, .nodeLim 96, .nodeBiq 96, .nodeInteg 96,
    .nodeDot 96, .nodeOut 96, .nodeEnd 96, .coreKatTick 8 false, .coreRetire 8 none, .taskStoreUncorrectable 96,
    .servoWedge 32 [], .writeInhibitAssert 32 0, .trackLost 32, .shockHoldEnd 16, .headSwitch 32 0,
    .headSwitch 0 12, .seekStart 32, .offsetCalibration 32 0 0 [], .srvCalRequest 32 0, .satInhibit 32,
    .vcmPwmSample 32 {} {} 0 0, .shuntLost 32 0, .shuntLost 0 2, .vcmDriverFault 32, .vcmDriverRetry 32 false,
    .retract 32, .retractDone 32, .guidedUnload 32] : List Instr),
    i.wellFormed = false := by decide +kernel

theorem test_wf_refuses_8 : ∀ i ∈ ([
    .unloadRequest 32, .unloadDone 32, .load 32 none [] 0, .loadTimeout 32, .loadRetry 32,
    .parkUnknownListen 32 false, .positionLost 32, .spinupRequest 16, .spindleStopRequest 16 false,
    .driveOffRequest 16, .ballastRequest 16, .alignEnd 16, .openLoopTimeout 16, .zeroCrossing 16 0 false 0 false,
    .zeroCrossing 0 3 false 0 false, .commutation 16, .forcedCommutation 16, .spindlePwmPeriod 16 {} {} {} 0 0 0,
    .atSpeed 16, .lossOfSync 16, .catchObserveEnd 16 0 0 0, .standstill 16, .vmShort 16, .vmShortRecover 16,
    .spindleDriverFault 16, .spindleDriverRetry 16 false, .phaseShuntLost 16 0, .phaseShuntLost 0 3,
    .shuntCalibration 16 false [], .spnCalRequest 16 0,
    .windingMeasurement 16 { item := 0, value := 0, inTol := true } false, .hdaRetire 16 false, .spinSyncLost 16,
    .spindleIndex 16, .renderJobEnd 8, .verifyMismatch 8 false, .renderKatTick 8 false, .hodGo 16 none 0 0,
    .hodGo 0 none 32 0, .hodGo 0 none 0 8] : List Instr),
    i.wellFormed = false := by decide +kernel

theorem test_wf_refuses_9 : ∀ i ∈ ([
    .hodPause 16 false, .hodResume 16 false, .hodAbort 16 false, .hodDrainEnd 16 0 [], .hodTransferEnd 16 0 0 [],
    .hodChannelRetire 16, .ozperTrain 2 0, .ozperTrainRetry 2, .heartbeatSend 2, .heartbeat 2 0 0 0 false false,
    .cap 2 { lseq := 0, ack := 0 } {}, .capResend 2, .ozperLinkDown 2, .faultReport 4096 0 [], .forceTaken 4096 [],
    .tallySnapshot 8 0 [] 0, .tallySkip 8, .tallyRecheck 8 0 [] 0, .dmkWin0Read (.fn 6 0),
    .dmkWin0Read (.fn 0 1024), .dmkWin0Read (.flow 32 0), .dmkWin0Read (.flow 0 8), .dmkWin7Read (.fn 6 0),
    .dmkWin7Read (.fn 0 1024), .dmkWin7Read (.flow 32 0), .dmkWin7Read (.flow 0 8),
    .mgtWrite 134217728 0 false false, .mgtRead 134217728 false, .badFrame 2 false, .ozperRetrain 2 false,
    .dynamicAddressAssign 128 none, .fanTachTimeout 4] : List Instr),
    i.wellFormed = false := by decide +kernel

theorem test_wf_accepts_1 : ∀ i ∈ ([
    .registerWrite (.fn 5 1023) 0 4 0 false, .registerWrite .mgt 0 4 0 false,
    .registerWrite (.flow 31 7) 0 4 0 false, .rcFieldRead (.fn 5 1023) 0 4, .rcFieldRead .mgt 0 4,
    .rcFieldRead (.flow 31 7) 0 4, .pairedLoRead (.fn 5 1023) 0, .pairedLoRead .mgt 0, .pairedLoRead (.flow 31 7) 0,
    .pairedHiRead (.fn 5 1023) 0, .pairedHiRead .mgt 0, .pairedHiRead (.flow 31 7) 0,
    .pairedLoWrite (.fn 5 1023) 0 0, .pairedLoWrite .mgt 0 0, .pairedLoWrite (.flow 31 7) 0 0,
    .pairedHiWrite (.fn 5 1023) 0 0, .pairedHiWrite .mgt 0 0, .pairedHiWrite (.flow 31 7) 0 0, .lathLinkDown 111 [],
    .rerouteComplete 111, .paceUpdate 3 0, .spinupTimeout 15 false, .pdPowerDownDone 197,
    .pdPowerUpDone 197 false false, .gpioFuncWrite 2 0, .fanTachEdge 3 0, .supplyMonitorCrossing 8 false,
    .tempThreshold 7 0, .tempThreshold 0 2, .perstRelease 5, .linkUp 5 0 0 false false,
    .linkRetrain 5 0 0 false false, .portReset 5 false, .configRequest 5 0 .readId, .configRequest 0 1023 .readId,
    .memoryRequest 5 0 0 0 0 none false, .memoryRequest 0 1023 0 0 0 none false,
    .memoryRequest 0 0 5 0 0 none false, .vfFlr 5 0, .vfFlr 0 1023] : List Instr),
    i.wellFormed = true := by decide +kernel

theorem test_wf_accepts_2 : ∀ i ∈ ([
    .pfFlr 5, .vfEnableClear 5, .numvfsWrite 5 0, .busMasterEnableWrite 5 0 false,
    .busMasterEnableWrite 0 1023 false, .dstateChange 5 0 false, .dstateChange 0 1023 false,
    .teardownCompletionWaitEnd 5 0, .teardownCompletionWaitEnd 0 1023, .teardownEnd 5 0, .teardownEnd 0 1023,
    .hostCompletionTimeout 6143 0 none, .hostCompletionTimeout 0 8 none, .hostCompletionArrival 6143 0 none 0,
    .hostCompletionArrival 0 8 none 0, .msixUnmask 5 0 0, .msixUnmask 0 1023 0, .sqDoorbell 6143 0 0,
    .sqDoorbell 0 8 0, .cqDoorbell 6143 0 0, .cqDoorbell 0 8 0, .aqCfgWrite 6143 0, .sqeFetch 6143,
    .sqeFetched 6143 0 [], .sqeFetched 0 8 [], .destroyReleaseEnd 1023, .xqResumeNext 6143 0, .xqResumeNext 0 8,
    .xqResumeSkip 6143 0 0, .xqResumeSkip 0 8 0, .xqResumeReset 6143 0, .xqResumeReset 0 8, .resumeApply 6143 0,
    .resumeApply 0 8, .buoyRefill 1023 0 false, .buoyRefill 0 7 false, .maskingKatTick 5 false,
    .maskingLockstepMismatch 5, .nop 31 0, .nop 0 7] : List Instr),
    i.wellFormed = true := by decide +kernel

theorem test_wf_accepts_3 : ∀ i ∈ ([
    .add 31 0, .add 0 7, .sub 31 0, .sub 0 7, .and 31 0, .and 0 7, .or 31 0, .or 0 7, .xor 31 0, .xor 0 7,
    .shl 31 0, .shl 0 7, .shr 31 0, .shr 0 7, .sar 31 0, .sar 0 7, .mov 31 0, .mov 0 7, .cmp 31 0, .cmp 0 7,
    .tst 31 0, .tst 0 7, .mul 31 0, .mul 0 7, .minu 31 0, .minu 0 7, .maxu 31 0, .maxu 0 7, .ext 31 0, .ext 0 7,
    .ins 31 0, .ins 0 7, .clz 31 0, .clz 0 7, .popc 31 0, .popc 0 7, .crc 31 0, .crc 0 7, .ld 31 0 false,
    .ld 0 7 false] : List Instr),
    i.wellFormed = true := by decide +kernel

theorem test_wf_accepts_4 : ∀ i ∈ ([
    .st 31 0 false false, .st 0 7 false false, .fenceW 31 0, .fenceW 0 7, .send 31 0, .send 0 7, .wait 31 0,
    .wait 0 7, .poll 31 0, .poll 0 7, .time 31 0, .time 0 7, .stcs 31 0, .stcs 0 7, .version 31 0, .version 0 7,
    .bufAlloc 31 0 false, .bufAlloc 0 7 false, .bufFree 31 0, .bufFree 0 7, .nsRead 31 0 [], .nsRead 0 7 [],
    .nsWrite 31 0 [] [], .nsWrite 0 7 [] [], .nsZero 31 0 [] [], .nsZero 0 7 [] [], .nsInfo 31 0, .nsInfo 0 7,
    .hostRead 31 0 [] false, .hostRead 0 7 [] false, .hostWrite 31 0 false, .hostWrite 0 7 false, .bufCrc 31 0,
    .bufCrc 0 7, .serviceFlush 31 0, .serviceFlush 0 7, .pushBuf 31 0 false, .pushBuf 0 7 false,
    .messageArrival 31 0 [], .messageArrival 0 7 []] : List Instr),
    i.wellFormed = true := by decide +kernel

theorem test_wf_accepts_5 : ∀ i ∈ ([
    .waitTimeout 31 0, .waitTimeout 0 7, .loadMissFill 31 0 false, .storeAck 31 0 false, .storeAck 0 3 false,
    .snoopInvalidate 31 0, .snoopFilterCover 3, .flowAbort 31 0 false, .flowAbort 0 7 false, .contextWatchdog 31 0,
    .contextWatchdog 0 7, .tileWatchdog 31, .tileFail 33, .spareSelftest 33 false, .scrubRead 262143 0 0,
    .scrubRead 0 2 0, .scrubRead 0 0 1, .csWordRestore 262143 false, .extentDestage 1023 0 0 [] [],
    .extentDestage 0 15 0 [] [], .settlingMove 1023 0 0 false [] [], .settlingMove 0 15 0 false [] [],
    .dramChannelLost 3, .flashDescriptorArrival 31 {}, .flashDescriptorTake 31 none, .flashReadDesc 31,
    .flashProgramDesc 31, .flashEraseDesc 31, .flashScanDesc 31, .flashReadParamDesc 31, .flashResetDesc 31,
    .lunOperationDone 31 0 {}, .lunOperationDone 0 31 {}, .flashCompletionAccept 31, .flashChannelInit 31 0 [] [] 0,
    .flashRetrainTick 31 false, .lunTimeout 31 0 false false, .lunTimeout 0 31 false false,
    .flashChannelRetire 31 false, .patrolScan 31 0 0 0 0 0 false] : List Instr),
    i.wellFormed = true := by decide +kernel

theorem test_wf_accepts_6 : ∀ i ∈ ([
    .patrolScan 0 31 0 0 0 0 false, .dumpRowErase 31 0, .dumpRowErase 0 31, .diskRead 31 { band := 0, frag := 0 },
    .diskWrite 31 none 0, .diskOpSelect 31, .readPass 31 [] 0 0, .diskOpTimeout 31, .wfltCapture 31,
    .speedExcursion 15 false, .serialFrame 31 false 0, .fstatPoll 31, .preampRead 31 0, .heaterUpdate 31 none,
    .heaterIdleOff 31, .offsetCal 31 0, .eqCal 31 0 0 0, .eqCal 0 11 0 0, .precomp 31 0 0 0, .precomp 0 11 0 0,
    .calRequest 31 0, .offsetCalTick 31, .dataPathRetire 31 0, .taskTrigger 95, .instanceCommit 95,
    .taskDeadline 95, .nodeAdd 95, .nodeSub 95, .nodeMul 95, .nodeFma 95, .nodeDiv 95, .nodeSqrt 95, .nodeMin 95,
    .nodeMax 95, .nodeAbs 95, .nodeNeg 95, .nodeMov 95, .nodeSel 95, .nodeClamp 95, .nodeLim 95] : List Instr),
    i.wellFormed = true := by decide +kernel

theorem test_wf_accepts_7 : ∀ i ∈ ([
    .nodeBiq 95, .nodeInteg 95, .nodeDot 95, .nodeOut 95, .nodeEnd 95, .coreKatTick 7 false, .coreRetire 7 none,
    .taskStoreUncorrectable 95, .servoWedge 31 [], .writeInhibitAssert 31 0, .trackLost 31, .shockHoldEnd 15,
    .headSwitch 31 0, .headSwitch 0 11, .seekStart 31, .offsetCalibration 31 0 0 [], .srvCalRequest 31 0,
    .satInhibit 31, .vcmPwmSample 31 {} {} 0 0, .shuntLost 31 0, .shuntLost 0 1, .vcmDriverFault 31,
    .vcmDriverRetry 31 false, .retract 31, .retractDone 31, .guidedUnload 31, .unloadRequest 31, .unloadDone 31,
    .load 31 none [] 0, .loadTimeout 31, .loadRetry 31, .parkUnknownListen 31 false, .positionLost 31,
    .spinupRequest 15, .spindleStopRequest 15 false, .driveOffRequest 15, .ballastRequest 15, .alignEnd 15,
    .openLoopTimeout 15, .zeroCrossing 15 0 false 0 false] : List Instr),
    i.wellFormed = true := by decide +kernel

theorem test_wf_accepts_8 : ∀ i ∈ ([
    .zeroCrossing 0 2 false 0 false, .commutation 15, .forcedCommutation 15, .spindlePwmPeriod 15 {} {} {} 0 0 0,
    .atSpeed 15, .lossOfSync 15, .catchObserveEnd 15 0 0 0, .standstill 15, .vmShort 15, .vmShortRecover 15,
    .spindleDriverFault 15, .spindleDriverRetry 15 false, .phaseShuntLost 15 0, .phaseShuntLost 0 2,
    .shuntCalibration 15 false [], .spnCalRequest 15 0,
    .windingMeasurement 15 { item := 0, value := 0, inTol := true } false, .hdaRetire 15 false, .spinSyncLost 15,
    .spindleIndex 15, .renderJobEnd 7, .verifyMismatch 7 false, .renderKatTick 7 false, .hodGo 15 none 0 0,
    .hodGo 0 none 31 0, .hodGo 0 none 0 7, .hodPause 15 false, .hodResume 15 false, .hodAbort 15 false,
    .hodDrainEnd 15 0 [], .hodTransferEnd 15 0 0 [], .hodChannelRetire 15, .ozperTrain 1 0, .ozperTrainRetry 1,
    .heartbeatSend 1, .heartbeat 1 0 0 0 false false, .cap 1 { lseq := 0, ack := 0 } {}, .capResend 1,
    .ozperLinkDown 1, .faultReport 4095 0 []] : List Instr),
    i.wellFormed = true := by decide +kernel

theorem test_wf_accepts_9 : ∀ i ∈ ([
    .forceTaken 4095 [], .tallySnapshot 7 0 [] 0, .tallySkip 7, .tallyRecheck 7 0 [] 0, .dmkWin0Read (.fn 5 1023),
    .dmkWin0Read .mgt, .dmkWin0Read (.flow 31 7), .dmkWin7Read (.fn 5 1023), .dmkWin7Read .mgt,
    .dmkWin7Read (.flow 31 7), .mgtWrite 134217727 0 false false, .mgtRead 134217727 false, .badFrame 1 false,
    .ozperRetrain 1 false, .dynamicAddressAssign 127 none, .fanTachTimeout 3] : List Instr),
    i.wellFormed = true := by decide +kernel

/-! ## Every statement's hypotheses are met -/

theorem hyps_ballastStops :
  (∃ (s : State),
     (s.phase = Phase.off ∨ s.phase = Phase.ballast)) ∧
  (∃ (s : State),
     (s.phase ∈ [Phase.loading, Phase.selftest, Phase.discovery, Phase.beacon])) ∧
  (∃ (s : State),
     (s.phase = Phase.serving ∨ s.phase = Phase.degraded)) ∧
  (∃ (s : State),
     (s.phase ≠ Phase.off) ∧
     (s.phase ≠ Phase.ballast)) ∧
  (∃ (s : State) (vh : Rat) (v : Rat) (img : Image) (term : Nat),
     (s.loader.img = some img) ∧
     (s.phase ∉ [Phase.off, Phase.loading, Phase.beacon]) ∧
     (v = if img.energy.cVhold = 0 then 0 else vh * img.energy.vhGain) ∧
     (term = (ballastTerm img.energy (dumpChans s) (presentActuators s) (dumpUnits s) (countedEnergy img.energy (countedSpindles s) v)).1)) ∧
  (∃ (s : State) (vm : Rat) (err : Rat),
     (s.bls.mode = 1) ∧
     (s.bls.regen = true) ∧
     (fget s BLS_STATUS_ACTIVE = 1) ∧
     (err = vm - ↑(image s).energy.vmHold / 1000)) ∧
  (∃ (s : State),
     (s.bls.mode ≠ 1)) ∧
  (∃ (s : State),
     (s.bls.mode ≠ 0) ∧
     (s.bls.noDump = false) ∧
     (chansServing s ≠ []) ∧
     (s.bls.header = false)) ∧
  (∃ (s : State) (d : Dump),
     (s.bls.mode ≠ 0) ∧
     (s.bls.noDump = false) ∧
     (chansServing s ≠ []) ∧
     (s.bls.header = true) ∧
     (s.nv.dump = some d)) ∧
  (∃ (s : State),
     (s.bls.mode = 0 ∨ headsOut s = true)) ∧
  (∃ (s : State) (d : Dump),
     (s.bls.mode ≠ 0) ∧
     (headsOut s = false) ∧
     (s.bls.noDump = false) ∧
     (chansServing s ≠ []) ∧
     (s.nv.dump = some d) ∧
     (s.bls.header = true) ∧
     (s.bls.todo = [])) ∧
  (∃ (s : State),
     (s.phase = Phase.ballast) ∧
     (fget s BLS_STATUS_VM_BACK = 0)) ∧
  (∃ (s : State),
     (s.phase ≠ Phase.off) ∧
     (fget s BLS_STATUS_BROWNOUT = 0)) ∧
  (∃ (s : State) (b : Nat),
     (fget s BLS_STATUS_BROWNOUT = 1) ∧
     (s.bls.brownNs = some b) ∧
     (b + 1000000 ≤ s.tb.ns) ∧
     (s.phase = Phase.serving ∨ s.phase = Phase.degraded)) ∧
  (∃ (s : State) (b : Nat),
     (fget s BLS_STATUS_BROWNOUT = 1) ∧
     (s.bls.brownNs = some b) ∧
     (s.tb.ns < b + 1000000)) ∧
  (∃ (s : State),
     (s.phase ≠ Phase.off) ∧
     (s.phase ≠ Phase.ballast) ∧
     ((image s).energy.cVhold ≠ 0) ∧
     (fget s BLS_VHOLD_LOW = 0)) :=
  ⟨⟨ph .off, by decide +kernel⟩,
   ⟨ph .loading, by decide +kernel⟩,
   ⟨sv, by decide +kernel⟩,
   ⟨sv, by decide +kernel⟩,
   ⟨iv, 0, _, img1, _, rfl, by decide, rfl, rfl⟩,
   ⟨fset { iv with bls := { mode := 1, regen := true } } BLS_STATUS_ACTIVE 1, 0, _, by decide, by decide,
     by decide +kernel, rfl⟩,
   ⟨sv, by decide +kernel⟩,
   ⟨fl { sv with bls := { mode := 1 } }, by decide +kernel⟩,
   ⟨fl { sv with bls := { mode := 1, header := true }, nv := { dump := some { cause := 1 } } }, { cause := 1 },
     by decide +kernel⟩,
   ⟨sv, by decide +kernel⟩,
   ⟨fl { sv with bls := { mode := 1, header := true }, nv := { dump := some { cause := 1 } } }, { cause := 1 },
     by decide +kernel⟩,
   ⟨ph .ballast, by decide +kernel⟩,
   ⟨sv, by decide +kernel⟩,
   ⟨fset { sv with bls := { brownNs := some 0 } } BLS_STATUS_BROWNOUT 1, 0, by decide +kernel⟩,
   ⟨fset { sv with bls := { brownNs := some 1000000000000 } } BLS_STATUS_BROWNOUT 1, 1000000000000, by decide +kernel⟩,
   ⟨im { img1 with energy := { pHold := 1, eUnload := 1, cVhold := 1 } } sv, by decide +kernel⟩⟩

theorem hyps_bootToService :
  (∃ (s : State),
     (s.phase = Phase.loading) ∧
     (s.loader.started = false)) ∧
  (∃ (s : State) (np : Bool) (so : Bool) (size : Nat),
     (s.phase = Phase.loading) ∧
     (s.loader.started = false) ∧
     ((np && so && decide (67108864 ≤ size) && decide (size ≤ 536870912)) = false)) ∧
  (∃ (s : State) (size : Nat) (r : BootRec) (nv : NonVolatile),
     (s.phase = Phase.loading) ∧
     (s.loader.started = false) ∧
     (67108864 ≤ size) ∧
     (size ≤ 536870912) ∧
     ((currentRec s.nv).1 = some r) ∧
     (appendRec
       (have __src := s.nv;
       { sectorA := __src.sectorA, sectorB := __src.sectorB, nor := __src.nor, norSize := size, opHash := __src.opHash, revoked := __src.revoked, dmkPerm := __src.dmkPerm, dmkCirc := __src.dmkCirc, dump := __src.dump, tenants := __src.tenants, journal := __src.journal, pools := __src.pools, flash := __src.flash, park := __src.park, formats := __src.formats, platter := __src.platter, cal := __src.cal, ofs := __src.ofs, slips := __src.slips })
       { seq := 0, bootCount := r.bootCount + 1, lastGood := r.lastGood, trial := (slotOrder r.lastGood r.trial r.tries).2.1, tries := (slotOrder r.lastGood r.trial r.tries).2.2 } =
     some nv)) ∧
  (∃ (s : State) (f : SlotFacts) (slot : Nat) (r : Nat) (rest : List Nat),
     (s.phase = Phase.loading) ∧
     (s.loader.started = true) ∧
     (s.loader.order = slot :: rest) ∧
     (slot ≠ s.loader.trial) ∧
     (slotReason s.nv.opHash s.nv.revoked (imageRules s f) f = some r) ∧
     (s.dmk.intake.length < 64)) ∧
  (∃ (s : State) (f : SlotFacts) (slot : Nat) (rest : List Nat),
     (s.phase = Phase.loading) ∧
     (s.loader.started = true) ∧
     (s.loader.order = slot :: rest) ∧
     (slotReason s.nv.opHash s.nv.revoked (imageRules s f) f = none)) ∧
  (∃ (s : State) (turning : List Nat),
     (s.phase = Phase.selftest) ∧
     (minSet (mediaUp (sharedUp s) turning) = true)) ∧
  (∃ (s : State) (turning : List Nat),
     (s.phase = Phase.selftest) ∧
     (minSet (mediaUp (sharedUp s) turning) = false)) ∧
  (∃ (s : State) (fails : List CheckerFail),
     (s.phase = Phase.selftest) ∧
     (fails.any checkerFatal = true)) ∧
  (∃ (s : State),
     (s.phase = Phase.discovery) ∧
     (ringReady s = true) ∧
     (minSet (offRetired (payRecord s)) = true)) ∧
  (∃ (s : State),
     (s.phase = Phase.discovery) ∧
     (ringReady s = true) ∧
     (minSet (offRetired (payRecord s)) = false)) ∧
  (∃ (s : State) (bad : List Nat) (n : Nat),
     (s.phase = Phase.bringup) ∧
     (s.rst.warm = none) ∧
     (s.loader.stage = 1) ∧
     (restoreEnded s = true) ∧
     (minSet (recomputeFloors (restoreTenants (modBls (resync s bad n) fun b => { mode := b.mode, cause := b.cause, pages := b.pages, restored := b.restored, fromNs := b.fromNs, regen := b.regen, noDump := b.noDump, todo := b.todo, header := b.header, missing := b.missing, integ := b.integ, lowNs := b.lowNs, brownNs := b.brownNs }))) = true)) :=
  ⟨⟨ph .loading, by decide +kernel⟩,
   ⟨ph .loading, false, true, 0, by decide +kernel⟩,
   ⟨{ ph .loading with nv := { sectorA := { recs := [{ seq := 1, bootCount := 1, lastGood := 1, trial := 0, tries := 0 }] } } }, 67108864, { seq := 1, bootCount := 1, lastGood := 1, trial := 0, tries := 0 }, _, rfl, rfl, by decide, by decide, by decide +kernel, rfl⟩,
   ⟨{ ph .loading with loader := { started := true, order := [1] } }, { readOk := false }, 1, 12, [],
     by decide +kernel⟩,
   ⟨{ ph .loading with loader := { started := true, order := [1] } }, slotOk, 1, [], by decide +kernel⟩,
   ⟨up (ph .selftest), [], by decide +kernel⟩,
   ⟨ph .selftest, [], by decide +kernel⟩,
   ⟨ph .selftest, [{ row := 0, inst := 0, unit := .alwaysOn }], by decide +kernel⟩,
   ⟨{ up (ph .discovery) with loader := { img := some img1, ozTmo := true } }, by decide +kernel⟩,
   ⟨ph .discovery, by decide +kernel⟩,
   ⟨{ up (ph .bringup) with loader := { img := some img1, stage := 1 } }, [], 0, by decide +kernel⟩⟩

theorem hyps_commandsReachContexts :
  (∃ (s : State) (n : Nat) (t : Nat) (x : Nat) (c : Cmd),
     (getCmd s n = some c) ∧
     (isSkim c.sqe.opc = false) ∧
     (dispatchable s n c = true) ∧
     (outranked s c = false) ∧
     (c.changes = true → changeBar s (cmdNs s c).pool = 0) ∧
     (pickContext s = some (t, x))) ∧
  (∃ (s : State) (n : Nat) (c : Cmd),
     (getCmd s n = some c) ∧
     (isSkim c.sqe.opc = false) ∧
     (dispatchable s n c = true) ∧
     (outranked s c = false) ∧
     (c.changes = true) ∧
     (changeBar s (cmdNs s c).pool ≠ 0)) ∧
  (∃ (s : State) (n : Nat) (t : Nat) (x : Nat) (e : Nat) (c : Cmd),
     (getCmd s n = some c) ∧
     (isSkim c.sqe.opc = true) ∧
     (dispatchable s n c = true) ∧
     (outranked s c = false) ∧
     (pickContext s = some (t, x)) ∧
     (skimEntry s c.sqe.opc = some e)) ∧
  (∃ (s : State) (n : Nat) (c : Cmd),
     (getCmd s n = some c) ∧
     (isSkim c.sqe.opc = true) ∧
     (dispatchable s n c = true) ∧
     (skimEntry s c.sqe.opc = none)) :=
  ⟨⟨{ fset (cm (own (up sv)) { io 2 with bound := none }) TRW_STATUS_SKIM_ON 0 with fns := [(1, { bme := true })] }, 5,
    0, 0, { io 2 with bound := none }, by decide +kernel⟩,
   ⟨{ fset (cm (own (up sv)) { io 1 with bound := none }) UDC_STATUS_FLASH_RO 1 with fns := [(1, { bme := true })] },
     5, { io 1 with bound := none }, by decide +kernel⟩,
   ⟨{ fset (cm (own (up sv)) { io 0xC0 with bound := none }) TRW_STATUS_SKIM_ON 1 with fns := [(1, { bme := true })], trw := { cs := [(0x38000, 0xB1 * 2 ^ 112 + 0x38040)] } }, 5, 0, 0, 0x38040, { io 0xC0 with bound := none }, by decide +kernel⟩,
   ⟨{ cm (own (up sv)) { io 0xC0 with bound := none } with fns := [(1, { bme := true })] }, 5,
     { io 0xC0 with bound := none }, by decide +kernel⟩⟩

theorem hyps_completionsContractsLanes :
  (∃ (s : State) (seq : Nat) (status : Nat) (c : Cmd) (e : JrnEntry),
     (getCmd s seq = some c) ∧
     (c.done = some status) ∧
     (c.noCqe = false) ∧
     (c.bound = none) ∧
     (c.slots = []) ∧
     ((getFn s c.fid).live = true) ∧
     (tget { } s.jrn.ring (jrnSlot seq) = e) ∧
     (e.seq = seq) ∧
     (e.state = 1)) ∧
  (∃ (s : State),
     (s.jrn.waiting = [])) ∧
  (∃ (s : State) (seq : Nat) (c : Cmd),
     (getCmd s seq = some c) ∧
     (c.admin = false) ∧
     (c.done = none) ∧
     (c.charged < c.chargeBytes) ∧
     (chargedClass s c.tenant c.cls = none)) ∧
  (∃ (s : State) (seq : Nat) (c : Cmd) (k : Nat) (r : ClassRec) (x : Nat),
     (getCmd s seq = some c) ∧
     (c.admin = false) ∧
     (c.done = none) ∧
     (c.charged < c.chargeBytes) ∧
     (chargedClass s c.tenant c.cls = some (k, r)) ∧
     (ceilOf r c.writes = some x) ∧
     ((min 4194304 (c.chargeBytes - c.charged) + 4095) / 4096 ≤ (getDir s c.tenant k c.writes).tokens)) ∧
  (∃ (s : State) (seq : Nat) (c : Cmd) (k : Nat) (r : ClassRec) (x : Nat),
     (getCmd s seq = some c) ∧
     (c.admin = false) ∧
     (c.done = none) ∧
     (c.charged < c.chargeBytes) ∧
     (chargedClass s c.tenant c.cls = some (k, r)) ∧
     (ceilOf r c.writes = some x) ∧
     ((getDir s c.tenant k c.writes).tokens < (min 4194304 (c.chargeBytes - c.charged) + 4095) / 4096)) ∧
  (∃ (s : State) (t : Nat) (n : Nat) (x : Nat) (wr : Bool) (c : ClassRec),
     ((contractOf s t).getD n none = some c) ∧
     (ceilOf c wr = some (x + 1))) ∧
  (∃ (s : State) (l : Nat),
     (l < 16) ∧
     (fbit s MSK_LANES_IN_SERVICE l = true)) :=
  ⟨⟨{ cm sv { io 1 with done := some 0, bound := none } with fns := [(1, { bme := true })], jrn := { ring := [(5, { seq := 5, state := 1 })] } }, 5, 0, { io 1 with done := some 0, bound := none }, { seq := 5, state := 1 }, by decide +kernel⟩,
   ⟨sv, by decide +kernel⟩,
   ⟨cm sv { io 1 with charged := 0 }, 5, { io 1 with charged := 0 }, by decide +kernel⟩,
   ⟨cm { sv with nv := { tenants := [(0, { state := 1, contract := some { classes := [some { wrCeil := some 9 }, none, none] } })] }, tenants := [(0, { dirs := [(1, { tokens := 1 })] })] } { io 1 with charged := 0 }, 5, { io 1 with charged := 0 }, 0, { wrCeil := some 9 }, 9, by decide +kernel⟩,
   ⟨cm { sv with nv := { tenants := [(0, { state := 1, contract := some { classes := [some { wrCeil := some 9 }, none, none] } })] } } { io 1 with charged := 0 }, 5, { io 1 with charged := 0 }, 0, { wrCeil := some 9 }, 9, by decide +kernel⟩,
   ⟨{ sv with nv := { tenants := [(0, { state := 1, contract := some { classes := [some { wrCeil := some 9 }, none, none] } })] } }, 0, 0, 8, true, { wrCeil := some 9 }, by decide +kernel⟩,
   ⟨fset sv MSK_LANES_IN_SERVICE 0x8000, 15, by decide +kernel⟩⟩

theorem hyps_daymark :
  (∃ (s : State) (code : Nat) (data : Nat) (rest : List (Nat × Nat)),
     (s.dmk.intake = (code, data) :: rest) ∧
     (neverLimited code = true ∨ 1000000000 ≤ ((getBucket s code).refill s.tb.ns).nano) ∧
     ((getBucket s code).perm = false)) ∧
  (∃ (s : State) (code : Nat) (data : Nat) (i : Nat) (rest : List (Nat × Nat)),
     (s.dmk.intake = (code, data) :: rest) ∧
     (neverLimited code = true ∨ 1000000000 ≤ ((getBucket s code).refill s.tb.ns).nano) ∧
     ((getBucket s code).perm = true) ∧
     (permFree s = some i)) ∧
  (∃ (s : State) (code : Nat) (data : Nat) (rest : List (Nat × Nat)),
     (s.dmk.intake = (code, data) :: rest) ∧
     (neverLimited code = false) ∧
     (((getBucket s code).refill s.tb.ns).nano < 1000000000)) ∧
  (∃ (s : State),
     (256 ≤ s.dmk.unpersist)) ∧
  (∃ (a : Accessor),
     (a ≠ Accessor.mgt)) ∧
  (∃ (s : State) (a : Accessor),
     (fget s (cursorF a DMK_CURSOR_AUTO) = 1)) ∧
  (∃ (s : State) (a : Accessor),
     (fget s (cursorF a DMK_CURSOR_AUTO) = 0)) :=
  ⟨⟨{ sv with dmk := { intake := [(0x0B43, 1)] } }, 0x0B43, 1, [], by decide +kernel⟩,
   ⟨{ sv with dmk := { intake := [(0x0B40, 1)], buckets := [(0x0B40, { perm := true })] } }, 0x0B40, 1, 0, [],
     by decide +kernel⟩,
   ⟨{ sv with dmk := { intake := [(0x0401, 1)], buckets := [(0x0401, { nano := 0, atNs := 1000000000000 })] } },
     0x0401, 1, [], by decide +kernel⟩,
   ⟨{ sv with dmk := { unpersist := 256 } }, by decide +kernel⟩,
   ⟨.fn 0 0, by decide +kernel⟩,
   ⟨sv, .mgt, by decide +kernel⟩,
   ⟨fset sv (cursorF .mgt DMK_CURSOR_AUTO) 0, .mgt, by decide +kernel⟩⟩

theorem hyps_destageAndSeal :
  (∃ (s : State) (i : Nat) (x : Slot) (bs : List Nat) (o : OpenStripe) (bad : List BadBlock),
     (oldestDirty s = some (i, x)) ∧
     (poolOf s x.id = some 0) ∧
     (granBlocks s { kind := 2, slot := i } x.id.gran bad = Except.ok bs) ∧
     (bs.length = 4) ∧
     (fillingStripe s 0 = some o) ∧
     (4 ≤ o.room)) ∧
  (∃ (s : State) (disk : Bool) (seg : Nat) (k : Nat) (o : OpenStripe),
     (findOpen s disk seg k = some o) ∧
     (o.full = true) ∧
     ((headOpen s o.head).head? = some o)) ∧
  (∃ (s : State) (disk : Bool) (seg : Nat) (k : Nat) (o : OpenStripe),
     (findOpen s disk seg k = some o) ∧
     (o.full = false) ∧
     (o.units ≠ []) ∧
     (o.lastNs + (image s).pools.sealTmo * 1000 ≤ s.tb.ns) ∧
     ((headOpen s o.head).head? = some o)) ∧
  (∃ (s : State) (disk : Bool) (seg : Nat) (k : Nat) (m : Nat) (o : OpenStripe),
     (findOpen s disk seg k = some o) ∧
     ((getSeg s disk seg).members.contains m = true) ∧
     (m < 64)) ∧
  (∃ (s : State) (k : Nat) (is : List Nat) (rest : List (Nat × List Nat)),
     (s.udc.releaseReady = (k, is) :: rest)) ∧
  (∃ (s : State) (disk : Bool) (seg : Nat),
     (s.udc.eraseReady.contains (segKey disk seg) = true)) :=
  ⟨⟨{ own sv with udc := { slots := [(0, { state := 2, local2 := true, mask := 15, id := { ns := 1 } })], open_ := [{ head := 0, seg := 0, stripe := 0, su := 4, width := 2 }] } }, 0, { state := 2, local2 := true, mask := 15, id := { ns := 1 } }, [0, 0, 0, 0], _, [], by decide +kernel, by decide +kernel, by decide +kernel, rfl, rfl, by decide⟩,
   ⟨{ sv with udc := { open_ := [{ head := 0, seg := 0, stripe := 0, su := 4, width := 2, full := true }] } }, false,
     0, 0, { head := 0, seg := 0, stripe := 0, su := 4, width := 2, full := true }, by decide +kernel⟩,
   ⟨{ sv with udc := { open_ := [{ head := 0, seg := 0, stripe := 0, su := 4, width := 2, units := [1] }] } }, false,
     0, 0, { head := 0, seg := 0, stripe := 0, su := 4, width := 2, units := [1] }, by decide +kernel⟩,
   ⟨{ sv with udc := { segs := [(0, { members := [3] })], open_ := [{ head := 0, seg := 0, stripe := 0, su := 4, width := 2, units := [1] }] } }, false, 0, 0, 3, { head := 0, seg := 0, stripe := 0, su := 4, width := 2, units := [1] }, by decide +kernel⟩,
   ⟨{ sv with udc := { releaseReady := [(1, [2])] } }, 1, [2], [], by decide +kernel⟩,
   ⟨{ sv with udc := { eraseReady := [6] } }, false, 3, by decide +kernel⟩⟩

theorem hyps_discardedDoorbells :
  (∃ (s : State) (fid : Nat) (q : Nat) (v : Nat),
     (q < 9) ∧
     ((getFn s fid).teardown = 0) ∧
     (s.rst.warm = none) ∧
     ((getQp s fid q).mode = 0 ∨ (getQp s fid q).size ≤ v)) ∧
  (∃ (s : State) (fid : Nat) (q : Nat) (v : Nat),
     (q < 9) ∧
     ((getFn s fid).teardown = 0) ∧
     (s.rst.warm = none) ∧
     ((getQp s fid q).mode = 0 ∨ (getQp s fid q).size ≤ v ∨ (getQp s fid q).unread < (v + (getQp s fid q).size - (getQp s fid q).cqHead) % (getQp s fid q).size)) ∧
  (∃ (s : State) (fid : Nat) (q : Nat) (v : Nat),
     (q < 9) ∧
     ((getFn s fid).teardown = 0) ∧
     (s.rst.warm = none) ∧
     ((getQp s fid q).mode ≠ 0) ∧
     (v < (getQp s fid q).size) ∧
     ((v + (getQp s fid q).size - (getQp s fid q).cqHead) % (getQp s fid q).size ≤ (getQp s fid q).unread)) :=
  ⟨⟨{ sv with qps := [(qpKey 1 1, { mode := 2, size := 16, cqTail := 3 })] }, 1, 1, 16, by decide +kernel⟩,
   ⟨{ sv with qps := [(qpKey 1 1, { mode := 2, size := 16, cqTail := 3 })] }, 1, 1, 4, by decide +kernel⟩,
   ⟨{ sv with qps := [(qpKey 1 1, { mode := 2, size := 16, cqTail := 3 })] }, 1, 1, 3, by decide +kernel⟩⟩

theorem hyps_diskFaultsAndUpkeep :
  (∃ (s : State) (a : Nat) (o : DiskOp),
     (a < 32) ∧
     (rdcServes s a = true) ∧
     ((getRdc s a).run = some o) ∧
     (o.write = true) ∧
     ((getRdc s a).gate = true)) ∧
  (∃ (s : State) (h : Nat) (a : Nat) (o : DiskOp),
     (h < 16) ∧
     (a / 2 = h) ∧
     ((getRdc s a).run = some o) ∧
     (o.write = true) ∧
     ((getRdc s a).gate = true) ∧
     (∀ (b : Nat), b / 2 = h → b ≠ a → (getRdc s b).gate = false)) ∧
  (∃ (s : State) (a : Nat) (d : Nat) (f : Frame),
     (nextFrame (getRdc s a).frames = some f) ∧
     (f.data = some d)) ∧
  (∃ (s : State) (a : Nat) (d : Nat) (f : Frame) (v : Nat) (ok : Bool),
     (nextFrame (getRdc s a).frames = some f) ∧
     (f.data = none) ∧
     (f.why = FrameFor.check d) ∧
     (ok = false ∨ v ≠ d) ∧
     (tget 0 (getRdc s a).fails f.addr < 2)) ∧
  (∃ (s : State) (a : Nat),
     (a < 32) ∧
     (rdcServes s a = true) ∧
     (headsOn s a = true)) ∧
  (∃ (s : State) (a : Nat) (v : Word),
     (a < 32) ∧
     (rdcServes s a = true) ∧
     (paListed (bitsGet v 0 8) = true) ∧
     (bitsGet v 8 1 = 1) ∧
     (fget s (rdcF RDC_PA_RD_BUSY a) = 0)) ∧
  (∃ (s : State) (a : Nat) (v : Word),
     (a < 32) ∧
     (rdcServes s a = true) ∧
     (paListed (bitsGet v 0 8) = false)) ∧
  (∃ (a : Nat),
     (a < 32)) ∧
  (∃ (s : State) (a : Nat) (h : Nat),
     (a < 32) ∧
     ((getRdc s a).run = none) ∧
     (100000000 ≤ s.tb.ns - (getRdc s a).idleNs) ∧
     ((getRdc s a).heatHead = some h) ∧
     ((getRdc s a).heatCode ≠ 0)) ∧
  (∃ (s : State) (a : Nat) (res : Nat),
     (calMayEnd s a 1 0 0 = true) ∧
     ((getRdc s a).calNext = none) ∧
     (res = 1)) ∧
  (∃ (s : State) (a : Nat) (res : Nat),
     (calMayEnd s a 1 0 0 = true) ∧
     ((getRdc s a).calNext = none) ∧
     (res = 2 ∨ res = 6) ∧
     ((getRdc s a).offsetFails < 2)) ∧
  (∃ (s : State) (a : Nat) (res : Nat),
     (calMayEnd s a 1 0 0 = true) ∧
     ((getRdc s a).calNext = none) ∧
     (res = 2 ∨ res = 6) ∧
     (2 ≤ (getRdc s a).offsetFails)) ∧
  (∃ (s : State) (a : Nat) (hd : Nat) (z : Nat) (p : Nat) (i : Nat → Instr) (res : Nat),
     ((p = 2 ∧ i = fun r => Instr.eqCal a hd z r) ∨ p = 3 ∧ i = fun r => Instr.precomp a hd z r) ∧
     (calMayEnd s a p hd z = true) ∧
     ((getRdc s a).calNext = none) ∧
     (res ∈ [3, 4, 5, 6])) ∧
  (∃ (s : State) (a : Nat) (v : Word),
     (a < 32) ∧
     (rdcServes s a = true) ∧
     (rdcFenced s = false) ∧
     (bitsGet v 12 1 = 1) ∧
     (bitsGet v 10 2 ≠ 0) ∧
     (bitsGet v 0 4 < (hdaTable s (a / 2)).heads) ∧
     (bitsGet v 4 6 < (hdaTable s (a / 2)).zones.length) ∧
     ((getRdc s a).calRun = none)) ∧
  (∃ (s : State) (a : Nat) (v : Word),
     (a < 32) ∧
     (rdcServes s a = true) ∧
     (rdcFenced s = false) ∧
     (bitsGet v 12 1 = 1) ∧
     (bitsGet v 10 2 ≠ 0) ∧
     (bitsGet v 0 4 < (hdaTable s (a / 2)).heads) ∧
     (bitsGet v 4 6 < (hdaTable s (a / 2)).zones.length) ∧
     ((getRdc s a).calRun.isSome = true)) ∧
  (∃ (s : State) (a : Nat) (k : Nat),
     (a < 32) ∧
     (rdcServes s a = true) ∧
     (k ∈ [0, 1, 7]) ∧
     (isRetired s (UnitId.dataPath a) = false)) :=
  ⟨⟨rd (dp iv 0) 0 { run := some dop, gate := true }, 0, dop, by decide +kernel⟩,
   ⟨rd (dp iv 0) 0 { run := some dop, gate := true }, 0, 0, dop, by decide, by decide, by decide +kernel, by decide,
     by decide +kernel, fun b _ h => by simp [getRdc, rd, tget, h]⟩,
   ⟨rd (dp iv 0) 0 { frames := [{ cls := 1, addr := 2, data := some 3 }] }, 0, 3,
     { cls := 1, addr := 2, data := some 3 }, by decide +kernel⟩,
   ⟨rd (dp iv 0) 0 { frames := [{ cls := 1, addr := 2, why := .check 3 }] }, 0, 3,
     { cls := 1, addr := 2, why := .check 3 }, 3, false, by decide +kernel⟩,
   ⟨act (dp iv 0) 0 5, 0, by decide +kernel⟩,
   ⟨dp iv 31, 31, 0x13B#32, by decide +kernel⟩,
   ⟨dp iv 31, 31, 0x5#32, by decide +kernel⟩,
   ⟨31, by decide +kernel⟩,
   ⟨rd iv 0 { heatHead := some 0, heatCode := 1 }, 0, 0, by decide +kernel⟩,
   ⟨rd (dp iv 0) 0 { calRun := some (1, 0, 0) }, 0, 1, by decide +kernel⟩,
   ⟨rd (dp iv 0) 0 { calRun := some (1, 0, 0), offsetFails := 1 }, 0, 6, by decide +kernel⟩,
   ⟨rd (dp iv 0) 0 { calRun := some (1, 0, 0), offsetFails := 2 }, 0, 2, by decide +kernel⟩,
   ⟨rd (dp iv 0) 0 { calRun := some (3, 0, 0) }, 0, 0, 0, 3, _, 3, .inr ⟨rfl, rfl⟩, by decide +kernel,
     by decide +kernel, by decide⟩,
   ⟨dp iv 0, 0, 0x1400#32, by decide +kernel⟩,
   ⟨rd (dp iv 0) 0 { calRun := some (1, 0, 0) }, 0, 0x1400#32, by decide +kernel⟩,
   ⟨dp iv 0, 0, 7, by decide +kernel⟩⟩

theorem hyps_diskOperations :
  (∃ (s : State) (a : Nat),
     (a < 32) ∧
     (rdcServes s a = true) ∧
     (rdcFenced s = false) ∧
     ((getRdc s a).queue.length < 64)) ∧
  (∃ (s : State) (a : Nat),
     (a < 32) ∧
     (rdcServes s a = true) ∧
     (rdcFenced s = true)) ∧
  (∃ (s : State) (a : Nat) (o : DiskOp),
     (a < 32) ∧
     (rdcServes s a = true) ∧
     (rdcFenced s = false) ∧
     ((getRdc s a).run = none) ∧
     ((getRdc s a).calRun = none) ∧
     (chooseOp s a = some o) ∧
     (srvState s a ≠ 11) ∧
     (srvState s a ≠ 12)) ∧
  (∃ (s : State) (a : Nat) (o : DiskOp),
     (a < 32) ∧
     (rdcServes s a = true) ∧
     (rdcFenced s = false) ∧
     ((getRdc s a).run = none) ∧
     ((getRdc s a).calRun = none) ∧
     (chooseOp s a = some o) ∧
     (srvState s a = 11 ∨ srvState s a = 12)) ∧
  (∃ (s : State) (a : Nat) (o : DiskOp),
     (a < 32) ∧
     ((getRdc s a).run = some o) ∧
     (o.write = true) ∧
     (opReady s a o = true) ∧
     (paReg s a 1 = some 4)) ∧
  (∃ (s : State) (a : Nat) (o : DiskOp),
     ((getRdc s a).run = some o) ∧
     (o.write = false) ∧
     (opReady s a o = true) ∧
     ((getSrv s a).readOfs = passOffset (o.pass + 1)) ∧
     (paReg s a 1 = some 3)) ∧
  (∃ (s : State) (a : Nat) (ns : Nat) (o : DiskOp),
     ((getRdc s a).run = some o) ∧
     (o.waitNs = some ns) ∧
     (100000000 ≤ s.tb.ns - ns) ∧
     (opReady s a o = false)) :=
  ⟨⟨dp iv 31, 31, by decide +kernel⟩,
   ⟨fset (dp iv 0) RDC_STATUS_FENCED 1, 0, by decide +kernel⟩,
   ⟨rd (dp iv 0) 0 { queue := [dop] }, 0, dop, by decide, by decide +kernel, by decide +kernel, by decide +kernel,
     by decide +kernel, rfl, by decide +kernel, by decide +kernel⟩,
   ⟨act (rd (dp iv 0) 0 { queue := [dop] }) 0 12, 0, dop, by decide, by decide +kernel, by decide +kernel,
     by decide +kernel, by decide +kernel, rfl, by decide +kernel⟩,
   ⟨rdy, 0, dop, by decide +kernel⟩,
   ⟨rdyR, 0, { dop with write := false }, by decide +kernel⟩,
   ⟨rd iv 0 { run := some { dop with waitNs := some 0 } }, 0, 0, { dop with waitNs := some 0 }, by decide +kernel⟩⟩

theorem hyps_domainsAndParameters :
  (∃ (s : State) (d : Nat),
     (d < 198) ∧
     ((pdUnit d).isSome = true) ∧
     (pdPhase s d = 0) ∧
     (pdOn s d = false)) ∧
  (∃ (s : State) (d : Nat),
     (d < 198) ∧
     ((pdUnit d).isSome = true) ∧
     (pdPhase s d = 0) ∧
     (pdOn s d = true)) ∧
  (∃ (d : Nat),
     (d < 198) ∧
     (pdUnit d = none)) ∧
  (∃ (s : State) (d : Nat),
     (d < 198) ∧
     (pdOffOk s d = true) ∧
     (pdPhase s d = 0) ∧
     (pdOn s d = true) ∧
     (¬(167 ≤ d ∧ d < 183)) ∧
     (d ≠ 191) ∧
     (d ≠ 192)) ∧
  (∃ (s : State) (d : Nat),
     (d = 196 ∨ d = 197) ∧
     (pdPhase s d = 2 ∨ pdPhase s d = 3)) ∧
  (∃ (s : State) (d : Nat),
     (d = 196 ∨ d = 197) ∧
     (pdPhase s d = 1) ∧
     (s.nv.tenants = []) ∧
     (anyCut s = fbit s GLB_STATUS_REDUCTION 2)) ∧
  (∃ (s : State) (d : Nat),
     (d = 196 ∨ d = 197) ∧
     (pdPhase s d = 1)) ∧
  (∃ (item : Nat),
     (paramListed item = true)) ∧
  (∃ (item : Nat),
     (paramListed item = false)) ∧
  (∃ (s : State),
     (s.phase ∉ [Phase.off, Phase.loading, Phase.selftest])) ∧
  (∃ (s : State) (m : Measured) (u : UnitId),
     (itemUnit m.item = some u) ∧
     (m.item < 768) ∧
     (m.item % 4 < 2) ∧
     (unitDeclared s u = true) ∧
     (isRetired s u = false) ∧
     (Measured.code m = 1)) ∧
  (∃ (s : State) (m : Measured) (u : UnitId),
     (itemUnit m.item = some u) ∧
     (m.item < 768) ∧
     (m.item % 4 < 2) ∧
     (unitDeclared s u = true) ∧
     (isRetired s u = false)) ∧
  (∃ (s : State),
     (s.phase = Phase.discovery) ∧
     ((ringDeclared s).isSome = true) ∧
     (ozUp s 0 = false) ∧
     (ozUp s 1 = false)) :=
  ⟨⟨sv, 99, by decide +kernel⟩,
   ⟨fset sv (PWR_PD_ON_ON.ix 3 4) 8, 99, by decide +kernel⟩,
   ⟨6, by decide +kernel⟩,
   ⟨fset { iv with pwr := { retired := [.flashChannel 0] } } (PWR_PD_ON_ON.ix 3 4) 8, 99, by decide +kernel⟩,
   ⟨{ sv with pwr := { pdPhase := [(197, 2)] } }, 197, by decide +kernel⟩,
   ⟨{ sv with pwr := { pdPhase := [(196, 1)] } }, 196, by decide +kernel⟩,
   ⟨{ sv with pwr := { pdPhase := [(196, 1)] } }, 196, by decide +kernel⟩,
   ⟨0x34F, by decide +kernel⟩,
   ⟨0x350, by decide +kernel⟩,
   ⟨ph .discovery, by decide +kernel⟩,
   ⟨iv, { item := 0x100, value := 0, inTol := true }, .hda 0, by decide +kernel⟩,
   ⟨iv, { item := 0x100, value := 0, inTol := false }, .hda 0, by decide +kernel⟩,
   ⟨im img1 (ph .discovery), by decide +kernel⟩⟩

theorem hyps_doorbellsAndAdminQueue :
  (∃ (s : State) (fid : Nat) (q : Nat) (tail : Nat),
     (q < 9) ∧
     ((getFn s fid).teardown = 0) ∧
     (s.rst.warm = none) ∧
     ((getQp s fid q).mode ≠ 0) ∧
     (tail < (getQp s fid q).size)) ∧
  (∃ (s : State) (fid : Nat) (q : Nat) (tail : Nat),
     (q < 9) ∧
     ((getFn s fid).teardown = 0) ∧
     (s.rst.warm = none) ∧
     ((getQp s fid q).mode = 0 ∨ (getQp s fid q).size ≤ tail)) ∧
  (∃ (s : State) (fid : Nat) (q : Nat) (head : Nat),
     (q < 9) ∧
     ((getFn s fid).teardown = 0) ∧
     (s.rst.warm = none) ∧
     ((getQp s fid q).mode ≠ 0) ∧
     (head < (getQp s fid q).size) ∧
     ((head + (getQp s fid q).size - (getQp s fid q).cqHead) % (getQp s fid q).size ≤ (getQp s fid q).unread)) ∧
  (∃ (s : State) (fid : Nat) (q : Nat) (head : Nat),
     (q < 9) ∧
     ((getFn s fid).teardown = 0) ∧
     (s.rst.warm = none) ∧
     ((getQp s fid q).mode = 0 ∨ (getQp s fid q).size ≤ head)) ∧
  (∃ (s : State) (fid : Nat) (v : Word),
     (fidVf fid ≠ 0 ∨ fid = ctlFid s) ∧
     ((getFn s fid).teardown = 0) ∧
     (fget s (xqF s fid XQ_AQ_CFG_EN) = 0) ∧
     ((getQp s fid 0).mode ≠ 3) ∧
     (bitsGet v 16 1 = 1) ∧
     (4 ≤ bitsGet v 0 4) ∧
     (bitsGet v 0 4 ≤ 12) ∧
     (fidVf fid = 0 ∨ bitsGet v 8 6 < 8)) ∧
  (∃ (s : State) (fid : Nat) (v : Word),
     (fidVf fid ≠ 0 ∨ fid = ctlFid s) ∧
     ((getFn s fid).teardown = 0) ∧
     (fget s (xqF s fid XQ_AQ_CFG_EN) = 1) ∧
     (bitsGet v 16 1 = 0) ∧
     (bitsGet v 0 14 = bitsGet (rget s (xqBase s fid + 2048)) 0 14) ∧
     (hasIoPair s fid = false) ∧
     (qpBusyCmds s fid 0 = false)) ∧
  (∃ (s : State) (fid : Nat) (v : Word),
     (fidVf fid ≠ 0 ∨ fid = ctlFid s) ∧
     (0 < (getFn s fid).teardown) ∧
     (bitsGet v 16 1 = 1)) :=
  ⟨⟨{ sv with qps := [(qpKey 1 1, { mode := 2, size := 16, cqTail := 3 })] }, 1, 1, 15, by decide +kernel⟩,
   ⟨{ sv with qps := [(qpKey 1 1, { mode := 2, size := 16, cqTail := 3 })] }, 1, 1, 16, by decide +kernel⟩,
   ⟨{ sv with qps := [(qpKey 1 1, { mode := 2, size := 16, cqTail := 3 })] }, 1, 1, 3, by decide +kernel⟩,
   ⟨{ sv with qps := [(qpKey 1 1, { mode := 2, size := 16, cqTail := 3 })] }, 1, 1, 16, by decide +kernel⟩,
   ⟨sv, 1, 0x1070C#32, by decide +kernel⟩,
   ⟨fset sv (xqF sv 1 XQ_AQ_CFG_EN) 1, 1, 0x4#32, by decide +kernel⟩,
   ⟨{ sv with fns := [(1, { teardown := 1 })] }, 1, 0x10004#32, by decide +kernel⟩⟩

theorem hyps_exactBinary32 :
  (∃ (a : Word) (b : Word) (w : Word),
     (fpFinite a = true) ∧
     (fpFinite b = true) ∧
     (fpFinite w = true) ∧
     (fpVal w ≠ 0) ∧
     (fpVal w = fpVal a + fpVal b)) ∧
  (∃ (a : Word) (b : Word) (w : Word),
     (fpFinite a = true) ∧
     (fpFinite b = true) ∧
     (fpFinite w = true) ∧
     (fpVal w ≠ 0) ∧
     (fpVal w = fpVal a - fpVal b)) ∧
  (∃ (a : Word) (b : Word) (w : Word),
     (fpFinite a = true) ∧
     (fpFinite b = true) ∧
     (fpFinite w = true) ∧
     (fpVal w ≠ 0) ∧
     (fpVal w * 2 ^ 149 = fpVal a * fpVal b)) ∧
  (∃ (a : Word) (b : Word) (w : Word),
     (fpFinite a = true) ∧
     (fpFinite b = true) ∧
     (fpFinite w = true) ∧
     (fpVal w ≠ 0) ∧
     (fpVal b ≠ 0) ∧
     (fpVal w * fpVal b = fpVal a * 2 ^ 149)) ∧
  (∃ (a : Word) (b : Word) (w : Word),
     (fpFinite a = true) ∧
     (fpFinite b = true) ∧
     (fpFinite w = true) ∧
     (fpVal w ≠ 0) ∧
     (0 < fpVal w) ∧
     (fpVal w * fpVal w = fpVal a * 2 ^ 149)) ∧
  (∃ (a : Word) (b : Word) (w : Word) (c : Word),
     (fpFinite a = true) ∧
     (fpFinite b = true) ∧
     (fpFinite w = true) ∧
     (fpVal w ≠ 0) ∧
     (fpFinite c = true) ∧
     (fpVal w * 2 ^ 149 = fpVal a * fpVal b + fpVal c * 2 ^ 149)) ∧
  (∃ (a : Word) (b : Word),
     (fpInf a = true) ∧
     (fpInf b = true) ∧
     (fpSign a ≠ fpSign b)) ∧
  (∃ (a : Word) (b : Word),
     (fpInf a = true) ∧
     (fpInf b = true) ∧
     (fpSign a = fpSign b)) ∧
  (∃ (a : Word) (b : Word),
     (fpInf a = true) ∧
     (fpZero b = true)) ∧
  (∃ (a : Word) (b : Word),
     (fpFinite a = true) ∧
     (fpZero a = false) ∧
     (fpZero b = true)) :=
  ⟨⟨0x3F800000#32, 0x3F800000#32, 0x40000000#32, by decide +kernel⟩,
   ⟨0x40000000#32, 0x3F800000#32, 0x3F800000#32, by decide +kernel⟩,
   ⟨0x3F800000#32, 0x40000000#32, 0x40000000#32, by decide +kernel⟩,
   ⟨0x40000000#32, 0x3F800000#32, 0x40000000#32, by decide +kernel⟩,
   ⟨0x40800000#32, 0x3F800000#32, 0x40000000#32, by decide +kernel⟩,
   ⟨0x3F800000#32, 0x3F800000#32, 0x40000000#32, 0x3F800000#32, by decide +kernel⟩,
   ⟨0x7F800000#32, 0xFF800000#32, by decide +kernel⟩,
   ⟨0x7F800000#32, 0x7F800000#32, by decide +kernel⟩,
   ⟨0x7F800000#32, 0#32, by decide +kernel⟩,
   ⟨0x3F800000#32, 0x80000000#32, by decide +kernel⟩⟩

theorem hyps_fetchAcceptResume :
  (∃ (s : State) (fid : Nat) (q : Nat),
     (selectQueue s fid = some q)) ∧
  (∃ (s : State) (fid : Nat) (q : Nat) (e : Sqe),
     ((getQp s fid q).fetching = 1) ∧
     ((getQp s fid q).mode = 2) ∧
     (((e.flags / 128 % 2 == 1) == (getQp s fid q).sqPhase) = true) ∧
     (jrnRoom s = true) ∧
     (s.jrn.waiting = []) ∧
     (q ≠ 0) ∧
     (q < 16) ∧
     (controlPending s (tenantOf s fid) = false) ∧
     ((getQp s fid q).v2 = true) ∧
     (ioStatus s (tenantOf s fid) e true = 0)) ∧
  (∃ (s : State) (fid : Nat) (q : Nat) (e : Sqe),
     ((getQp s fid q).fetching = 1) ∧
     ((getQp s fid q).mode = 2) ∧
     (((e.flags / 128 % 2 == 1) == (getQp s fid q).sqPhase) = true) ∧
     (jrnRoom s = true) ∧
     (s.jrn.waiting = []) ∧
     (q ≠ 0) ∧
     (q < 16) ∧
     (controlPending s (tenantOf s fid) = false) ∧
     ((getQp s fid q).v2 = true) ∧
     (ioStatus s (tenantOf s fid) e true ≠ 0) ∧
     ((getFn s fid).live = true)) ∧
  (∃ (s : State) (fid : Nat) (q : Nat) (e : Sqe),
     ((getQp s fid q).fetching = 1) ∧
     ((getQp s fid q).mode = 2) ∧
     (((e.flags / 128 % 2 == 1) == (getQp s fid q).sqPhase) = false)) ∧
  (∃ (s : State) (fid : Nat) (q : Nat) (n : Nat),
     (q < 9) ∧
     (s.phase ≠ Phase.safe) ∧
     (s.phase ≠ Phase.ballast) ∧
     ((getQp s fid q).mode ≠ 0) ∧
     ((getQp s fid q).mode ≠ 3) ∧
     ((getQp s fid q).frozen = true) ∧
     ((getQp s fid q).out = 0) ∧
     ((getQp s fid q).fetching = 0) ∧
     (0 < n) ∧
     (n ≤ (getQp s fid q).waiting)) ∧
  (∃ (s : State) (fid : Nat) (q : Nat),
     (q < 9) ∧
     (s.phase ≠ Phase.safe) ∧
     (s.phase ≠ Phase.ballast) ∧
     ((getQp s fid q).mode ≠ 0) ∧
     ((getQp s fid q).mode ≠ 3) ∧
     ((getQp s fid q).frozen = true) ∧
     (0 < (getQp s fid q).out)) ∧
  (∃ (s : State) (fid : Nat) (q : Nat),
     (q < 9) ∧
     (s.phase ≠ Phase.safe) ∧
     (s.phase ≠ Phase.ballast) ∧
     ((getQp s fid q).mode ≠ 0) ∧
     ((getQp s fid q).mode ≠ 3) ∧
     ((getQp s fid q).frozen = false)) ∧
  (∃ (s : State) (fid : Nat) (q : Nat),
     (q < 9) ∧
     (s.phase ≠ Phase.safe) ∧
     (s.phase ≠ Phase.ballast) ∧
     ((getQp s fid q).out = 0) ∧
     ((getQp s fid q).fetching = 0) ∧
     ((getQp s fid q).resume = some (1, 0, 0))) :=
  ⟨⟨qp { mode := 2, size := 16, sqTail := 3 } sv, 1, 1, by decide +kernel⟩,
   ⟨qp { mode := 2, size := 16, fetching := 1, v2 := true } (own (up sv)), 1, 1, { (io 2).sqe with flags := 128 },
     by decide +kernel⟩,
   ⟨qp { mode := 2, size := 16, fetching := 1, v2 := true } (own (up sv)), 1, 1,
     { (io 2).sqe with nsid := 3, flags := 128 }, by decide +kernel⟩,
   ⟨qp { mode := 2, size := 16, fetching := 1, v2 := true } sv, 1, 1, { opc := 2 }, by decide +kernel⟩,
   ⟨qp { mode := 1, size := 16, frozen := true, sqTail := 3 } sv, 1, 1, 2, by decide +kernel⟩,
   ⟨qp { mode := 1, size := 16, frozen := true, out := 1 } sv, 1, 1, by decide +kernel⟩,
   ⟨qp { mode := 2, size := 16 } sv, 1, 1, by decide +kernel⟩,
   ⟨qp { mode := 3, size := 16, resume := some (1, 0, 0) } sv, 1, 1, by decide +kernel⟩⟩

theorem hyps_flashChannels :
  (∃ (s : State) (c : Nat) (p : LunProfile),
     (c < 32) ∧
     (flashProfile s c = some p) ∧
     (pdOn s (99 + c) = true) ∧
     (fbit s FLC_RETIRED_RETIRED c = false) ∧
     (fget s (FLC_CH_STATE_STATE.ix c 16384) = 2) ∧
     (p.luns ≤ 32)) ∧
  (∃ (s : State) (c : Nat),
     (c < 32) ∧
     (chanServes s c = true) ∧
     (∀ r ∈ (getChan s c).running, r.token = false) ∧
     ((getChan s c).trainFails < 2)) ∧
  (∃ (s : State) (c : Nat),
     (c < 32) ∧
     (chanServes s c = true) ∧
     (∀ r ∈ (getChan s c).running, r.token = false) ∧
     (2 ≤ (getChan s c).trainFails)) ∧
  (∃ (s : State) (c : Nat) (lun : Nat) (r : FlashRun),
     (List.find? (fun r => r.token && r.desc.lun == lun) (getChan s c).running = some r) ∧
     (tget 0 (getChan s c).tmo lun = 0)) ∧
  (∃ (s : State) (c : Nat),
     (c < 32) ∧
     (chanServes s c = true)) ∧
  (∃ (s : State) (c : Nat) (lun : Nat) (row : Nat) (pset : Nat) (bits : Nat) (p : LunProfile),
     (flashProfile s c = some p) ∧
     (s.phase.inService = true) ∧
     (chanServes s c = true) ∧
     (lunOk s c lun = true) ∧
     (pset < (getRow s c lun (physRow s c lun row)).next) ∧
     (bits ≤ p.refreshBits) ∧
     (1024 ≤ row ∨ (getRow s c lun (physRow s c lun row)).reads + 1 < min p.readLimit 524287)) ∧
  (∃ (s : State) (c : Nat) (lun : Nat) (row : Nat) (p : LunProfile),
     (flashProfile s c = some p) ∧
     (dumpRowNext s c lun = some row) ∧
     (s.phase.inService = true) ∧
     (chanServes s c = true) ∧
     (lunOk s c lun = true) ∧
     (dumpNeeded s = false) ∧
     (s.bls.mode = 0)) :=
  ⟨⟨fset (pw iv) (FLC_CH_STATE_STATE.ix 0 0x4000) 2, 0, {}, by decide +kernel⟩,
   ⟨fl iv, 0, by decide +kernel⟩,
   ⟨ch { trainFails := 2 } iv, 0, by decide +kernel⟩,
   ⟨ch { running := [{ desc := {}, token := true }] } iv, 0, 0, { desc := {}, token := true }, by decide +kernel⟩,
   ⟨fl iv, 0, by decide +kernel⟩,
   ⟨{ fl iv with nv := { flash := [(rowKey 0 0 1024, { next := 1 })] } }, 0, 0, 1024, 0, 0, {}, by decide +kernel⟩,
   ⟨{ fl iv with nv := { flash := [(rowKey 0 0 1024, { next := 1 })] } }, 0, 0, 1024, {}, by decide +kernel⟩⟩

theorem hyps_flashDescriptors :
  (∃ (s : State) (c : Nat),
     (chanServes s c = true) ∧
     ((getChan s c).ring.length < 256)) ∧
  (∃ (s : State) (c : Nat) (at_ : Nat) (d : FlashDesc) (l : List (Nat × FlashDesc)) (p : LunProfile),
     ((getChan s c).ring = (at_, d) :: l) ∧
     (flashProfile s c = some p) ∧
     (chanServes s c = true) ∧
     (flcRoom s c = true) ∧
     (fget s FLC_STATUS_FENCED = 1 ∧ d.sys = false)) ∧
  (∃ (s : State) (c : Nat) (at_ : Nat) (d : FlashDesc) (l : List (Nat × FlashDesc)) (p : LunProfile),
     ((getChan s c).ring = (at_, d) :: l) ∧
     (flashProfile s c = some p) ∧
     (chanServes s c = true) ∧
     (flcRoom s c = true) ∧
     (fget s FLC_STATUS_FENCED = 0 ∨ d.sys = true) ∧
     (flcCheck s c d p = none)) ∧
  (∃ (s : State) (c : Nat) (at_ : Nat) (d : FlashDesc) (l : List (Nat × FlashDesc)) (p : LunProfile) (st : Nat),
     ((getChan s c).ring = (at_, d) :: l) ∧
     (flashProfile s c = some p) ∧
     (chanServes s c = true) ∧
     (flcRoom s c = true) ∧
     (fget s FLC_STATUS_FENCED = 0 ∨ d.sys = true) ∧
     (flcCheck s c d p = some st)) ∧
  (∃ (s : State) (c : Nat) (op : Nat) (r : FlashRun) (i : Instr),
     ((i, r.desc.typ, op) ∈ [(Instr.flashReadDesc c, 1, 0), (Instr.flashProgramDesc c, 2, 1), (Instr.flashEraseDesc c,
       3, 2), (Instr.flashScanDesc c, 4, 0), (Instr.flashReadParamDesc c, 5, 5), (Instr.flashResetDesc c, 6, 3)]) ∧
     (flcNext s c = some r) ∧
     (chanServes s c = true)) ∧
  (∃ (s : State) (c : Nat) (lun : Nat) (r : FlashRun) (p : LunProfile) (o : LunOut),
     (List.find? (fun r => r.token && r.desc.lun == lun) (getChan s c).running = some r) ∧
     (flashProfile s c = some p) ∧
     (r.desc.typ = 2) ∧
     (o.failed = false)) ∧
  (∃ (s : State) (c : Nat) (lun : Nat) (r : FlashRun) (p : LunProfile) (o : LunOut),
     (List.find? (fun r => r.token && r.desc.lun == lun) (getChan s c).running = some r) ∧
     (flashProfile s c = some p) ∧
     (r.desc.typ = 3) ∧
     (o.failed = false) ∧
     ((getRow s c lun (physRow s c lun r.desc.row)).pe < p.peLimit)) ∧
  (∃ (s : State) (c : Nat) (lun : Nat) (r : FlashRun) (p : LunProfile) (o : LunOut),
     (List.find? (fun r => r.token && r.desc.lun == lun) (getChan s c).running = some r) ∧
     (flashProfile s c = some p) ∧
     (r.desc.typ = 1) ∧
     (r.step = 1) ∧
     (r.failing = List.range r.desc.count) ∧
     (∀ k < r.desc.count, k ∈ o.ok) ∧
     (o.erased = []) ∧
     (r.failed = []) ∧
     (r.erased = []) ∧
     (r.soft = false) ∧
     (r.applied = false) ∧
     (r.lastSet = 0) ∧
     (max r.bits o.bits ≤ p.refreshBits) ∧
     (r.desc.sys = true ∨ (getRow s c lun (physRow s c lun r.desc.row)).reads + 1 < min p.readLimit 524287)) ∧
  (∃ (s : State) (c : Nat) (lun : Nat) (r : FlashRun) (p : LunProfile),
     (List.find? (fun r => r.token && r.desc.lun == lun) (getChan s c).running = some r) ∧
     (flashProfile s c = some p) ∧
     (r.desc.typ = 5 ∨ r.desc.typ = 6)) ∧
  (∃ (s : State) (c : Nat) (d : FlashDone) (l : List FlashDone),
     ((getChan s c).done = d :: l)) :=
  ⟨⟨fl iv, 0, by decide +kernel⟩,
   ⟨fset (ch { ring := [(0, {})] } iv) FLC_STATUS_FENCED 1, 0, 0, {}, [], {}, by decide +kernel⟩,
   ⟨ch { ring := [(0, { typ := 5 })] } iv, 0, 0, { typ := 5 }, [], {}, by decide +kernel⟩,
   ⟨ch { ring := [(0, {})] } iv, 0, 0, {}, [], {}, 0x31, by decide +kernel⟩,
   ⟨ch { running := [{ desc := { typ := 1 } }] } iv, 0, 0, { desc := { typ := 1 } }, .flashReadDesc 0,
     by decide +kernel⟩,
   ⟨ch { running := [{ desc := { typ := 2 }, token := true }] } iv, 0, 0, { desc := { typ := 2 }, token := true }, {},
     {}, by decide +kernel⟩,
   ⟨ch { running := [{ desc := { typ := 3 }, token := true }] } iv, 0, 0, { desc := { typ := 3 }, token := true }, {},
     {}, by decide +kernel⟩,
   ⟨ch { running := [{ desc := { typ := 1, count := 1 }, token := true, step := 1, failing := [0] }] } iv, 0, 0,
     { desc := { typ := 1, count := 1 }, token := true, step := 1, failing := [0] }, {}, { ok := [0] },
     by decide +kernel⟩,
   ⟨ch { running := [{ desc := { typ := 5 }, token := true }] } iv, 0, 0, { desc := { typ := 5 }, token := true }, {},
     by decide +kernel⟩,
   ⟨ch { done := [{ tag := 0, status := 0, typ := 1 }] } iv, 0, { tag := 0, status := 0, typ := 1 }, [],
     by decide +kernel⟩⟩

theorem hyps_flowsAbortTilesFail :
  (∃ (s : State) (t : Nat) (c : Nat) (n : Nat) (d : Cmd),
     ((getCtx s (ctxKey t c)).busy = true) ∧
     ((getCtx s (ctxKey t c)).seq = some n) ∧
     (getCmd s n = some d) ∧
     (d.done = none) ∧
     (fget s TRW_WDOG_LIMIT * 1024 ≤ (getCtx s (ctxKey t c)).count)) ∧
  (∃ (s : State) (t : Nat) (c : Nat),
     ((getCtx s (ctxKey t c)).count < fget s TRW_WDOG_LIMIT * 1024)) ∧
  (∃ (s : State) (p : Nat),
     (p < 34) ∧
     (tileRetired s p = false)) ∧
  (∃ (s : State) (t : Nat),
     (t < 32) ∧
     (physOf s t < 34) ∧
     (∃ c < 8, ctxReady s (ctxKey t c) = true)) ∧
  (∃ (s : State) (p : Nat),
     ((spareTiles s).contains p = true)) ∧
  (∃ (a : Nat),
     (a < 262144) ∧
     (196608 ≤ a)) ∧
  (∃ (s : State) (a : Nat),
     (196608 ≤ a) ∧
     (a < 262144) ∧
     (tget 0 s.trw.csErr a = 2)) ∧
  (∃ (c : Nat),
     (c < 4)) :=
  ⟨⟨{ cm sv (io 1) with trw := { ctxs := [(0, { busy := true, seq := some 5, count := 1000000000000 })] } }, 0, 0, 5,
    io 1, by decide +kernel⟩,
   ⟨sv, 0, 0, by decide +kernel⟩,
   ⟨sv, 0, by decide +kernel⟩,
   ⟨cx 0 {}, 0, by decide +kernel⟩,
   ⟨sv, 33, by decide +kernel⟩,
   ⟨0x30000, by decide +kernel⟩,
   ⟨{ sv with trw := { csErr := [(0x30000, 2)] } }, 0x30000, by decide +kernel⟩,
   ⟨0, by decide +kernel⟩⟩

theorem hyps_flushAndPush :
  (∃ (s : State) (n : Nat) (c : Cmd),
     (running s n 0 = some c)) ∧
  (∃ (s : State) (n : Nat) (c : Cmd),
     (running s n 32 = some c) ∧
     (earlierChange s n c = true)) ∧
  (∃ (s : State) (n : Nat) (k : Nat) (c : Cmd) (g : Grant) (bs : List Byte) (bad : List BadBlock),
     (running s n 32 = some c) ∧
     (earlierChange s n c = false) ∧
     (k < 16) ∧
     (hodServes s k = true) ∧
     (hodClaimed s k = false) ∧
     ((getFn s c.fid).live = true) ∧
     (g = tget { } (getTen s c.tenant).grants c.sqe.pushIdx) ∧
     (fget s (HPT_LINK_DL_UP.ix g.port 4096) ≠ 0) ∧
     (spanStatus (readSpan s c.tenant c.sqe.nsid (cmdNs s c).pool c.sqe.slba (c.sqe.nlb + 1) bad) = 0) ∧
     (bs = List.take c.sqe.buf0Len (blockBytes (spanData (readSpan s c.tenant c.sqe.nsid (cmdNs s c).pool c.sqe.slba (c.sqe.nlb + 1) bad)))) ∧
     (grantHolds s c.tenant c.sqe = true)) ∧
  (∃ (s : State) (n : Nat) (k : Nat) (c : Cmd) (g : Grant) (bs : List Byte) (bad : List BadBlock),
     (running s n 32 = some c) ∧
     (earlierChange s n c = false) ∧
     (k < 16) ∧
     (hodServes s k = true) ∧
     (hodClaimed s k = false) ∧
     ((getFn s c.fid).live = true) ∧
     (g = tget { } (getTen s c.tenant).grants c.sqe.pushIdx) ∧
     (fget s (HPT_LINK_DL_UP.ix g.port 4096) ≠ 0) ∧
     (spanStatus (readSpan s c.tenant c.sqe.nsid (cmdNs s c).pool c.sqe.slba (c.sqe.nlb + 1) bad) = 0) ∧
     (bs = List.take c.sqe.buf0Len (blockBytes (spanData (readSpan s c.tenant c.sqe.nsid (cmdNs s c).pool c.sqe.slba (c.sqe.nlb + 1) bad)))) ∧
     (grantHolds s c.tenant c.sqe = false)) :=
  ⟨⟨cm sv (io 0), 5, io 0, by decide +kernel⟩,
   ⟨{ sv with cmds := [(4, io 1), (5, io 32)] }, 5, io 32, by decide +kernel⟩,
   ⟨cm (own (pt (pw iv))) (io 32), 5, 0, io 32, _, _, [], by decide +kernel, by decide +kernel, by decide +kernel,
     by decide +kernel, by decide +kernel, by decide +kernel, rfl, by decide +kernel, by decide +kernel, rfl,
     by decide +kernel⟩,
   ⟨cm (own (pt (pw iv))) { io 32 with sqe := { (io 32).sqe with pushIdx := 1 } }, 5, 0,
     { io 32 with sqe := { (io 32).sqe with pushIdx := 1 } }, _, _, [], by decide +kernel, by decide +kernel,
     by decide +kernel, by decide +kernel, by decide +kernel, by decide +kernel, rfl, by decide +kernel,
     by decide +kernel, rfl, by decide +kernel⟩⟩

theorem hyps_functionConfiguration :
  (∃ (s : State) (p : Nat),
     (p < 6) ∧
     (fget s (HPT_LINK_DL_UP.ix p 4096) = 1) ∧
     (s.phase = Phase.loading)) ∧
  (∃ (s : State) (p : Nat) (n : Nat),
     (p < 6) ∧
     (n < 1024) ∧
     (fget s (HPT_LINK_DL_UP.ix p 4096) = 1) ∧
     (s.phase ≠ Phase.loading) ∧
     ((getPort s p).inReset = false) ∧
     (n = 0 ∨ (getFn s (fnId p n)).teardown = 0) ∧
     (fnExists s (fnId p n) = false)) ∧
  (∃ (s : State) (p : Nat) (n : Nat),
     (p < 6) ∧
     (n < 1024) ∧
     (fget s (HPT_LINK_DL_UP.ix p 4096) = 1) ∧
     (s.phase ≠ Phase.loading) ∧
     ((getPort s p).inReset = false) ∧
     (n = 0 ∨ (getFn s (fnId p n)).teardown = 0) ∧
     (fnExists s (fnId p n) = true) ∧
     (n = 0) ∧
     ((getFn s (fnId p n)).teardown = 0) ∧
     (portTearing s p = false)) ∧
  (∃ (s : State) (p : Nat) (v : Nat),
     (fnExists s (fnId p 0) = true) ∧
     ((getFn s (fnId p 0)).vfEnable = false) ∧
     (v ≤ 8 * fget s (HPT_FUNCS_VF_BLOCKS.ix p 4096))) ∧
  (∃ (s : State) (p : Nat) (n : Nat),
     (fnExists s (fnId p n) = true) ∧
     ((getFn s (fnId p n)).teardown = 0)) ∧
  (∃ (s : State) (p : Nat) (n : Nat),
     (fnExists s (fnId p n) = true) ∧
     (0 < (getFn s (fnId p n)).teardown)) ∧
  (∃ (s : State) (p : Nat) (n : Nat),
     (fnExists s (fnId p n) = true)) ∧
  (∃ (s : State) (p : Nat) (n : Nat) (vec : Nat),
     (fnExists s (fnId p n) = true) ∧
     (vec < if n = 0 then 64 else 8)) :=
  ⟨⟨pt (ph .loading), 0, by decide +kernel⟩,
   ⟨pt sv, 0, 900, by decide +kernel⟩,
   ⟨pt sv, 0, 0, by decide +kernel⟩,
   ⟨{ pt sv with fns := [] }, 0, 8, by decide +kernel⟩,
   ⟨pt sv, 0, 1, by decide +kernel⟩,
   ⟨{ pt sv with fns := [(0, { teardown := 1 })] }, 0, 0, by decide +kernel⟩,
   ⟨pt sv, 0, 0, by decide +kernel⟩,
   ⟨pt sv, 0, 1, 7, by decide +kernel⟩⟩

theorem hyps_hodTransfers :
  (∃ (s : State) (c : Nat),
     (hodServes s c = true) ∧
     (hodClaimed s c = true) ∧
     (fget s (hodF HOD_STAT_LOADED c) = 1)) ∧
  (∃ (s : State) (c : Nat),
     (hodServes s c = true) ∧
     (hodClaimed s c = true) ∧
     (fget s (hodF HOD_STAT_LOADED c) = 0) ∧
     (hodCheck s false (hodActOf (hodShadow s c)) = false)) ∧
  (∃ (s : State) (c : Nat),
     (hodServes s c = true) ∧
     (hodClaimed s c = true) ∧
     (fget s (hodF HOD_STAT_LOADED c) = 0) ∧
     (hodCheck s false (hodActOf (hodShadow s c)) = true) ∧
     ((getHod s c).running = false) ∧
     (fget s (hodF HOD_STAT_PAUSED c) = 0)) ∧
  (∃ (s : State) (c : Nat),
     (hodServes s c = true) ∧
     (hodClaimed s c = true) ∧
     (fget s (hodF HOD_STAT_LOADED c) = 0) ∧
     (hodCheck s false (hodActOf (hodShadow s c)) = true) ∧
     ((getHod s c).running = true)) ∧
  (∃ (s : State) (c : Nat) (ti : Nat) (cx : Nat) (ws : List Word),
     (hodVendorMay s c (ti, cx) = true) ∧
     ((getTile s ti).stores = []) ∧
     (fget s (hodF HOD_STAT_LOADED c) = 0) ∧
     ((getHod s c).running = false) ∧
     (fget s (hodF HOD_STAT_PAUSED c) = 0) ∧
     (ws.length = 8) ∧
     (hodCheck s true (hodActOf ws) = true)) ∧
  (∃ (s : State) (c : Nat) (a : HodAct),
     (c < 16) ∧
     (a = (getHod s c).act) ∧
     ((getHod s c).running = true) ∧
     (fget s (hodF HOD_STAT_STATE c) = 1) ∧
     (a.srcSp = 0) ∧
     (a.dstSp < 2) ∧
     (s.hod.waiting = []) ∧
     (hodClaimed s c = false) ∧
     (fget s (hodF HOD_STAT_PAUSED c) = 0)) ∧
  (∃ (s : State) (c : Nat) (b : Bool),
     (hodMay s c b = true) ∧
     (fget s (hodF HOD_STAT_PAUSED c) = 0) ∧
     (fget s (hodF HOD_STAT_STATE c) < 2)) ∧
  (∃ (s : State) (c : Nat) (b : Bool),
     (hodMay s c b = true) ∧
     (fget s (hodF HOD_STAT_PAUSED c) = 1) ∧
     ((getHod s c).running = false) ∧
     (fget s (hodF HOD_STAT_LOADED c) = 1)) ∧
  (∃ (s : State) (c : Nat) (b : Bool),
     (hodMay s c b = true) ∧
     ((getHod s c).running = true) ∧
     (fget s (hodF HOD_STAT_PAUSED c) = 0)) ∧
  (∃ (s : State) (c : Nat) (b : Bool),
     (hodMay s c b = true) ∧
     ((getHod s c).running = true) ∧
     (fget s (hodF HOD_STAT_PAUSED c) = 1) ∧
     (fget s (hodF HOD_STAT_STATE c) = 0) ∧
     (s.hod.waiting = [])) ∧
  (∃ (s : State) (c : Nat) (b : Bool),
     (hodMay s c b = true) ∧
     ((getHod s c).running = false) ∧
     (fget s (hodF HOD_STAT_LOADED c) = 1) ∧
     (s.hod.waiting = [])) ∧
  (∃ (s : State) (c : Nat) (n : Nat) (a : HodAct),
     (c < 16) ∧
     (a = (getHod s c).act) ∧
     ((getHod s c).running = true) ∧
     (a.srcSp = 0) ∧
     (a.dstSp = 1) ∧
     (n < a.rem) ∧
     (fget s (hodF HOD_STAT_STATE c) = 2)) ∧
  (∃ (s : State) (c : Nat) (n : Nat) (a : HodAct),
     (c < 16) ∧
     (a = (getHod s c).act) ∧
     ((getHod s c).running = true) ∧
     (a.srcSp = 0) ∧
     (a.dstSp = 1) ∧
     (n < a.rem) ∧
     (fget s (hodF HOD_STAT_STATE c) = 3) ∧
     (s.hod.waiting = [])) ∧
  (∃ (v : Word),
     (bitsGet v 16 6 ≠ 0) ∧
     (bitsGet v 22 1 = 0) ∧
     (2 < popCount 16 (bitsGet v 0 16))) ∧
  (∃ (s : State) (v : Word),
     (bitsGet v 16 6 ≠ 0) ∧
     (bitsGet v 22 1 = 0) ∧
     (popCount 16 (bitsGet v 0 16) ≤ 2) ∧
     (∀ c < 16, (bitsGet v 0 16).testBit c = true → fbit s HOD_STATUS_RETIRED c = false)) ∧
  (∃ (s : State) (c : Nat),
     (c < 16) ∧
     (fbit s HOD_STATUS_RETIRED c = false)) :=
  ⟨⟨fset (hd iv) (hodF HOD_STAT_LOADED 0) 1, 0, by decide +kernel⟩,
   ⟨hd iv, 0, by decide +kernel⟩,
   ⟨rset (hd iv) 0x1180010 4, 0, by decide +kernel⟩,
   ⟨{ rset (hd iv) 0x1180010 4 with hod := { chans := [(0, { running := true })] } }, 0, by decide +kernel⟩,
   ⟨pw iv, 0, 0, 0, [0, 0, 0, 0, 4, 0, 0, 0], by decide +kernel⟩,
   ⟨fset { pw iv with hod := { chans := [(0, { running := true })] } } (hodF HOD_STAT_STATE 0) 1, 0, {},
     by decide +kernel⟩,
   ⟨pw iv, 0, false, by decide +kernel⟩,
   ⟨fset (fset (pw iv) (hodF HOD_STAT_LOADED 0) 1) (hodF HOD_STAT_PAUSED 0) 1, 0, false, by decide +kernel⟩,
   ⟨{ hd iv with hod := { chans := [(0, { running := true })] } }, 0, true, by decide +kernel⟩,
   ⟨fset { hd iv with hod := { chans := [(0, { running := true })] } } (hodF HOD_STAT_PAUSED 0) 1, 0, true,
     by decide +kernel⟩,
   ⟨fset (hd iv) (hodF HOD_STAT_LOADED 0) 1, 0, true, by decide +kernel⟩,
   ⟨fset { hd iv with hod := { chans := [(0, { running := true, act := { cfg0 := 8, rem := 8 } })] } } (hodF HOD_STAT_STATE 0) 2, 0, 4, { cfg0 := 8, rem := 8 }, by decide +kernel⟩,
   ⟨fset { hd iv with hod := { chans := [(0, { running := true, act := { cfg0 := 8, rem := 8 } })] } } (hodF HOD_STAT_STATE 0) 3, 0, 4, { cfg0 := 8, rem := 8 }, by decide +kernel⟩,
   ⟨0x10007, by decide +kernel⟩,
   ⟨sv, 0x10003, by decide +kernel⟩,
   ⟨sv, 15, by decide +kernel⟩⟩

theorem hyps_hostLinks :
  (∃ (p : Nat),
     (p < 6)) ∧
  (∃ (s : State) (p : Nat) (rate : Nat) (width : Nat),
     (portTrains s p = true) ∧
     ((getPort s p).training = true) ∧
     ((getPort s p).perst = false) ∧
     (advertised s p rate width = true)) ∧
  (∃ (s : State) (p : Nat) (rate : Nat) (width : Nat),
     (p < 6) ∧
     (fget s (HPT_LINK_DL_UP.ix p 4096) = 1) ∧
     (advertised s p rate width = true)) :=
  ⟨⟨5, by decide +kernel⟩,
   ⟨{ pw sv with ports := [(0, { perst := false, training := true })] }, 0, 1, 1, by decide +kernel⟩,
   ⟨pt sv, 0, 1, 4, by decide +kernel⟩⟩

theorem hyps_identityInConfigurationSpace :
  (∃ (s : State) (p : Nat) (n : Nat),
     (p < 6) ∧
     (n < 1024) ∧
     (fget s (HPT_LINK_DL_UP.ix p 4096) = 1) ∧
     (s.phase ≠ Phase.loading) ∧
     ((getPort s p).inReset = false) ∧
     (n = 0 ∨ (getFn s (fnId p n)).teardown = 0) ∧
     (fnExists s (fnId p n) = true)) :=
  ⟨pt sv, 0, 8, by decide +kernel⟩

theorem hyps_lathAndTimebase :
  (∃ (s : State) (link : Nat),
     (link < 112) ∧
     (linkDown s link = false)) ∧
  (∃ (n : Nat),
     (n < 4)) ∧
  (∃ (s : State) (t : State) (u : State) (now : Nat) (now' : Nat) (ns : Nat) (seq : Nat) (ns' : Nat) (seq' : Nat),
     (exec (Instr.timestampGrant now) s = Host.Outcome.next t) ∧
     (t.out = Out.stamp s.tb.boot ns seq :: s.out) ∧
     (exec (Instr.timestampGrant now') t = Host.Outcome.next u) ∧
     (u.out = Out.stamp t.tb.boot ns' seq' :: t.out)) :=
  ⟨⟨sv, 5, by decide +kernel⟩,
   ⟨3, by decide +kernel⟩,
   ⟨sv, _, _, 5, 6, _, _, _, _, rfl, rfl, rfl, rfl⟩⟩

theorem hyps_loadsAndStores :
  (∃ (s : State) (t : Nat) (c : Nat) (x : Ctx) (m : MWord),
     (FallsThrough s t c 32 x m) ∧
     (accessFault s x m false = 0) ∧
     (atSkim x.pc = true → 3 ≤ m.space) ∧
     (m.space = 1 ∨ m.space = 3 ∨ m.space = 4) ∧
     ((getTile s t).stores = [])) ∧
  (∃ (s : State) (t : Nat) (c : Nat) (x : Ctx) (m : MWord) (l : List StoreEnt) (d : Nat),
     (FallsThrough s t c 32 x m) ∧
     (accessFault s x m false = 0) ∧
     (atSkim x.pc = true → 3 ≤ m.space) ∧
     (m.space = 1 ∨ m.space = 3 ∨ m.space = 4) ∧
     ((getTile s t).stores = l ++ [{ ctx := ctxKey t c, space := m.space, addr := accessAddr x m, size := accessBytes m, data := d }])) ∧
  (∃ (s : State) (t : Nat) (c : Nat) (x : Ctx) (m : MWord) (w : Nat),
     (FallsThrough s t c 32 x m) ∧
     (accessFault s x m false = 0) ∧
     (atSkim x.pc = true → 3 ≤ m.space) ∧
     (m.space = 0) ∧
     ((getTile s t).stores = []) ∧
     (cacheFind s t (accessAddr x m / 64) = some w)) ∧
  (∃ (s : State) (t : Nat) (c : Nat) (x : Ctx) (m : MWord),
     (FallsThrough s t c 32 x m) ∧
     (accessFault s x m false = 0) ∧
     (atSkim x.pc = true → 3 ≤ m.space) ∧
     (m.space = 0) ∧
     (cacheFind s t (accessAddr x m / 64) = none) ∧
     ((getTile s t).misses = [])) ∧
  (∃ (s : State) (t : Nat) (c : Nat) (x : Ctx) (m : MWord),
     (FallsThrough s t c 32 x m) ∧
     (atSkim x.pc = true → 3 ≤ m.space) ∧
     (accessAddr x m % accessBytes m ≠ 0)) ∧
  (∃ (s : State) (t : Nat) (c : Nat) (x : Ctx) (m : MWord),
     (FallsThrough s t c 32 x m) ∧
     (atSkim x.pc = true → 3 ≤ m.space) ∧
     (accessAddr x m % accessBytes m = 0) ∧
     (spaceHolds s x m.space (accessAddr x m) (accessBytes m) = false)) ∧
  (∃ (s : State) (t : Nat) (c : Nat) (line : Nat) (rd : Nat) (a : Nat) (n : Nat) (w : Nat) (m : MWord),
     (t < 32) ∧
     (c < 8) ∧
     ((getTile s t).misses = [(line, [{ ctx := ctxKey t c, rd := rd, addr := a, size := n }])]) ∧
     ((getTile s t).stores = []) ∧
     ((getCtx s (ctxKey t c)).busy = true) ∧
     ((getCtx s (ctxKey t c)).wait = CtxWait.load) ∧
     ((getCtx s (ctxKey t c)).word = some w) ∧
     (m = MWord.ofNat w) ∧
     (wordFault m = 0) ∧
     (m.sq = 0) ∧
     (m.opc = 32) ∧
     (atSkim (getCtx s (ctxKey t c)).pc = false) ∧
     (regionEnd (getCtx s (ctxKey t c)).pc = false) ∧
     (n ≤ 8)) ∧
  (∃ (s : State) (t : Nat) (c : Nat) (x : Ctx) (m : MWord),
     (FallsThrough s t c 33 x m) ∧
     (accessFault s x m false = 0) ∧
     (atSkim x.pc = true → 3 ≤ m.space) ∧
     ((getTile s t).stores.length < 4)) ∧
  (∃ (s : State) (t : Nat) (e : StoreEnt) (l : List StoreEnt),
     (t < 32) ∧
     ((getTile s t).stores = e :: l) ∧
     (e.space = 0)) ∧
  (∃ (s : State) (t : Nat) (e : StoreEnt) (l : List StoreEnt),
     (t < 32) ∧
     ((getTile s t).stores = e :: l) ∧
     (e.space = 1)) ∧
  (∃ (s : State) (t : Nat) (e : StoreEnt) (l : List StoreEnt),
     (t < 32) ∧
     ((getTile s t).stores = e :: l) ∧
     (e.space = 3)) ∧
  (∃ (s : State) (t : Nat) (e : StoreEnt) (l : List StoreEnt),
     (t < 32) ∧
     ((getTile s t).stores = e :: l) ∧
     (e.space = 4)) ∧
  (∃ (t : Nat),
     (t < 32)) :=
  ⟨⟨(cx (mw 32 (3 * 2 ^ 86)) {}), 0, 0, ctx0 (mw 32 (3 * 2 ^ 86)) {}, MWord.ofNat (mw 32 (3 * 2 ^ 86)),
    by unfold FallsThrough; decide +kernel⟩,
   ⟨tl { stores := [st1 3 5] } (cx (mw 32 (3 * 2 ^ 86)) {}), 0, 0, ctx0 (mw 32 (3 * 2 ^ 86)) {},
     MWord.ofNat (mw 32 (3 * 2 ^ 86)), [], 5, by unfold FallsThrough; decide +kernel⟩,
   ⟨tl { cache := [(0, { valid := true, line := 0 })] } (cx (mw 32 0) {}), 0, 0, ctx0 (mw 32 0) {},
     MWord.ofNat (mw 32 0), 0, by unfold FallsThrough; decide +kernel⟩,
   ⟨(cx (mw 32 0) {}), 0, 0, ctx0 (mw 32 0) {}, MWord.ofNat (mw 32 0), by unfold FallsThrough; decide +kernel⟩,
   ⟨(cx (mw 32 (3 * 2 ^ 86 + 2 ^ 90 + 1)) {}), 0, 0, ctx0 (mw 32 (3 * 2 ^ 86 + 2 ^ 90 + 1)) {},
     MWord.ofNat (mw 32 (3 * 2 ^ 86 + 2 ^ 90 + 1)), by unfold FallsThrough; decide +kernel⟩,
   ⟨(cx (mw 32 (3 * 2 ^ 86 + 2 ^ 40)) {}), 0, 0, ctx0 (mw 32 (3 * 2 ^ 86 + 2 ^ 40)) {},
     MWord.ofNat (mw 32 (3 * 2 ^ 86 + 2 ^ 40)), by unfold FallsThrough; decide +kernel⟩,
   ⟨tl { misses := [(0, [{ ctx := 0, rd := 1, addr := 0, size := 1 }])] } (cx (mw 32 0) { wait := .load }), 0, 0, 0, 1,
     0, 1, mw 32 0, MWord.ofNat (mw 32 0), by decide +kernel⟩,
   ⟨(cx (mw 33 (3 * 2 ^ 86)) {}), 0, 0, ctx0 (mw 33 (3 * 2 ^ 86)) {}, MWord.ofNat (mw 33 (3 * 2 ^ 86)),
     by unfold FallsThrough; decide +kernel⟩,
   ⟨tl { stores := [st1 0 5] } sv, 0, st1 0 5, [], by decide +kernel⟩,
   ⟨tl { stores := [st1 1 5] } sv, 0, st1 1 5, [], by decide +kernel⟩,
   ⟨tl { stores := [st1 3 5] } sv, 0, st1 3 5, [], by decide +kernel⟩,
   ⟨tl { stores := [st1 4 5] } sv, 0, st1 4 5, [], by decide +kernel⟩,
   ⟨31, by decide +kernel⟩⟩

theorem hyps_loadsUnloadsAndDrivers :
  (∃ (s : State) (a : Nat) (m : Measured),
     (a < 32) ∧
     (loadOk s a = true) ∧
     (m.item = 514 + 4 * a) ∧
     ((param s m.item).2.1 = 0) ∧
     (Measured.code m = 1)) ∧
  (∃ (s : State) (a : Nat) (n : Nat),
     (a < 32) ∧
     (loadOk s a = true) ∧
     (a / 2 ∉ s.udc.resynced) ∧
     (0 < n)) ∧
  (∃ (s : State) (a : Nat),
     (a < 32) ∧
     (loadOk s a = true) ∧
     ((getSrv s a).again = true) ∧
     (1000000000 ≤ s.tb.ns - (getSrv s a).loadNs.headD 0)) ∧
  (∃ (s : State) (a : Nat),
     (a < 32) ∧
     (srvState s a = 4) ∧
     (500000000 ≤ s.tb.ns - (getSrv s a).stateNs)) ∧
  (∃ (s : State) (a : Nat) (i : Instr),
     (a < 32) ∧
     (i = Instr.retract a ∧ 4 ≤ srvState s a ∧ srvState s a ≤ 9 ∨ i = Instr.unloadRequest a ∧ srvState s a = 4 ∨ i ∈ [Instr.guidedUnload a, Instr.unloadRequest a] ∧ 5 ≤ srvState s a ∧ srvState s a ≤ 8 ∧ guidedOk s a = false)) ∧
  (∃ (s : State) (a : Nat) (i : Instr),
     (a < 32) ∧
     (i ∈ [Instr.guidedUnload a, Instr.unloadRequest a]) ∧
     (5 ≤ srvState s a) ∧
     (srvState s a ≤ 8) ∧
     (guidedOk s a = true)) ∧
  (∃ (s : State) (a : Nat) (i : Instr),
     (a < 32) ∧
     (i = Instr.retractDone a ∧ srvState s a = 10 ∨ i = Instr.unloadDone a ∧ srvState s a = 9 ∧ 8 ≤ (getSrv s a).outRun) ∧
     (flushWritesPark s = false) ∧
     ((getSrv s a).retireOwed = false) ∧
     ((getSrv s a).reload = false)) ∧
  (∃ (s : State) (a : Nat) (i : Instr),
     (a < 32) ∧
     (i = Instr.retractDone a ∧ srvState s a = 10 ∨ i = Instr.unloadDone a ∧ srvState s a = 9 ∧ 8 ≤ (getSrv s a).outRun) ∧
     (flushWritesPark s = false) ∧
     ((getSrv s a).retireOwed = true)) ∧
  (∃ (s : State) (a : Nat),
     (a < 32) ∧
     (srvState s a = 3) ∧
     (atSpeed s (a / 2) = true) ∧
     (rdcServes s a = true)) ∧
  (∃ (s : State) (a : Nat),
     (a < 32) ∧
     (64 ≤ (getSrv s a).noLane) ∧
     (srvState s a = 7)) ∧
  (∃ (s : State) (a : Nat),
     (a < 32) ∧
     (4 ≤ srvState s a) ∧
     (srvState s a ≤ 10) ∧
     (fget s (vcmF VCM_STATE_DRV_FLT a) = 1)) ∧
  (∃ (s : State) (a : Nat),
     (a < 32) ∧
     (2 ≤ (getSrv s a).shuntA.bad) ∧
     ((getSrv s a).shuntA.lost = false) ∧
     ((getSrv s a).shuntB.lost = false)) ∧
  (∃ (s : State) (a : Nat),
     (a < 32) ∧
     (2 ≤ (getSrv s a).shuntA.bad) ∧
     ((getSrv s a).shuntA.lost = false) ∧
     ((getSrv s a).shuntB.lost = true) ∧
     (4 ≤ srvState s a) ∧
     (srvState s a ≤ 9)) :=
  ⟨⟨ls sv, 0, { item := 514, value := 0, inTol := true }, by decide +kernel⟩,
   ⟨ls sv, 0, 1, by decide +kernel⟩,
   ⟨sr (ls sv) 0 { again := true }, 0, by decide +kernel⟩,
   ⟨act sv 0 4, 0, by decide +kernel⟩,
   ⟨act sv 0 4, 0, .retract 0, by decide +kernel⟩,
   ⟨{ sr (act sv 0 5) 0 { lanes := [{ valid := true }] } with ltn := { tasks := [(32, { enabled := true })] } }, 0,
     .guidedUnload 0, by decide +kernel⟩,
   ⟨act sv 0 10, 0, .retractDone 0, by decide +kernel⟩,
   ⟨sr (act sv 0 10) 0 { retireOwed := true }, 0, .retractDone 0, by decide +kernel⟩,
   ⟨fset (act (dp sv 0) 0 3) (SPN_STATE_AT_SPEED.ix 0 0x1000) 1, 0, by decide +kernel⟩,
   ⟨sr (act sv 0 7) 0 { noLane := 64 }, 0, by decide +kernel⟩,
   ⟨fset (act sv 0 4) (vcmF VCM_STATE_DRV_FLT 0) 1, 0, by decide +kernel⟩,
   ⟨sr sv 0 { shuntA := { bad := 2 } }, 0, by decide +kernel⟩,
   ⟨sr (act sv 0 4) 0 { shuntA := { bad := 2 }, shuntB := { lost := true } }, 0, by decide +kernel⟩⟩

theorem hyps_memoriesStayCanonical :
  (∃ (s : State) (t : State),
     (s.memWf) ∧
     (step s = Host.Outcome.next t)) :=
  ⟨State.reset, _, by unfold State.memWf; decide +kernel, rfl⟩

theorem hyps_messagesFencesAndStores :
  (∃ (s : State) (t : Nat) (c : Nat) (x : Ctx) (m : MWord),
     (FallsThrough s t c 34 x m) ∧
     ((getTile s t).stores = [])) ∧
  (∃ (s : State) (t : Nat) (c : Nat) (x : Ctx) (m : MWord),
     (FallsThrough s t c 34 x m) ∧
     ((getTile s t).stores ≠ [])) ∧
  (∃ (s : State) (t : Nat) (c : Nat) (x : Ctx) (m : MWord),
     (FallsThrough s t c 48 x m) ∧
     (atSkim x.pc = false) ∧
     (m.imm = 0 ∨ (getTile s t).stores = [])) ∧
  (∃ (s : State) (t : Nat) (c : Nat) (x : Ctx) (m : MWord) (ws : List DWord) (l : List (List DWord)),
     (x.inbox = ws :: l) ∧
     (FallsThrough s t c 49 x m)) ∧
  (∃ (s : State) (t : Nat) (c : Nat) (x : Ctx) (m : MWord) (ws : List DWord) (l : List (List DWord)),
     (x.inbox = ws :: l) ∧
     (FallsThrough s t c 50 x m)) ∧
  (∃ (s : State) (t : Nat) (c : Nat) (x : Ctx) (m : MWord),
     (x.inbox = []) ∧
     (FallsThrough s t c 49 x m)) ∧
  (∃ (s : State) (t : Nat) (c : Nat) (x : Ctx) (m : MWord),
     (x.inbox = []) ∧
     (FallsThrough s t c 50 x m)) ∧
  (∃ (s : State) (t : Nat) (c : Nat) (x : Ctx) (m : MWord),
     (FallsThrough s t c 51 x m)) ∧
  (∃ (s : State) (t : Nat) (c : Nat) (x : Ctx),
     (t < 32) ∧
     (c < 8) ∧
     (x = getCtx s (ctxKey t c)) ∧
     (x.busy = true) ∧
     (x.wait = CtxWait.none) ∧
     (x.inbox.length < 4)) ∧
  (∃ (s : State) (t : Nat) (c : Nat) (w : Nat) (x : Ctx) (m : MWord) (d : Option Nat) (e : Nat),
     (t < 32) ∧
     (c < 8) ∧
     (x = getCtx s (ctxKey t c)) ∧
     (x.busy = true) ∧
     (x.wait = CtxWait.message d) ∧
     (x.word = some w) ∧
     (m = MWord.ofNat w) ∧
     (m.opc = 49) ∧
     (wordFault m = 0) ∧
     (m.sq = 0) ∧
     (regionEnd x.pc = false) ∧
     (d = some e) ∧
     (e ≤ s.tb.ns)) ∧
  (∃ (s : State) (t : Nat) (c : Nat) (x : Ctx) (m : MWord),
     (FallsThrough s t c 56 x m) ∧
     (atSkim x.pc = false) ∧
     (196608 ≤ BitVec.toNat (gReg x m.ra) % 2 ^ 18)) ∧
  (∃ (s : State) (h : Stcs) (l : List Stcs),
     (s.trw.stcs = h :: l) ∧
     ((getCtx s h.ctx).wait = CtxWait.stcs) ∧
     (196608 ≤ h.addr)) :=
  ⟨⟨(cx (mw 34 0) {}), 0, 0, ctx0 (mw 34 0) {}, MWord.ofNat (mw 34 0), by unfold FallsThrough; decide +kernel⟩,
   ⟨tl { stores := [st1 1 5] } (cx (mw 34 0) {}), 0, 0, ctx0 (mw 34 0) {}, MWord.ofNat (mw 34 0),
     by unfold FallsThrough; decide +kernel⟩,
   ⟨(cx (mw 48 0) {}), 0, 0, ctx0 (mw 48 0) {}, MWord.ofNat (mw 48 0), by unfold FallsThrough; decide +kernel⟩,
   ⟨(cx (mw 49 0) { inbox := [[1]] }), 0, 0, ctx0 (mw 49 0) { inbox := [[1]] }, MWord.ofNat (mw 49 0), [1], [],
     by unfold FallsThrough; decide +kernel⟩,
   ⟨(cx (mw 50 0) { inbox := [[1]] }), 0, 0, ctx0 (mw 50 0) { inbox := [[1]] }, MWord.ofNat (mw 50 0), [1], [],
     by unfold FallsThrough; decide +kernel⟩,
   ⟨(cx (mw 49 0) {}), 0, 0, ctx0 (mw 49 0) {}, MWord.ofNat (mw 49 0), by unfold FallsThrough; decide +kernel⟩,
   ⟨(cx (mw 50 0) {}), 0, 0, ctx0 (mw 50 0) {}, MWord.ofNat (mw 50 0), by unfold FallsThrough; decide +kernel⟩,
   ⟨(cx (mw 51 0) {}), 0, 0, ctx0 (mw 51 0) {}, MWord.ofNat (mw 51 0), by unfold FallsThrough; decide +kernel⟩,
   ⟨cx 0 {}, 0, 0, ctx0 0 {}, by decide +kernel⟩,
   ⟨cx (mw 49 0) { wait := .message (some 0) }, 0, 0, mw 49 0, ctx0 (mw 49 0) { wait := .message (some 0) },
     MWord.ofNat (mw 49 0), some 0, 0, by decide +kernel⟩,
   ⟨(cx (mw 56 (2 ^ 100)) { regs := [(1, 0x30000)] }), 0, 0, ctx0 (mw 56 (2 ^ 100)) { regs := [(1, 0x30000)] },
     MWord.ofNat (mw 56 (2 ^ 100)), by unfold FallsThrough; decide +kernel⟩,
   ⟨{ sv with trw := { stcs := [{ ctx := 0, addr := 0x30000, word := 0 }], ctxs := [(0, { busy := true, wait := .stcs })] } }, { ctx := 0, addr := 0x30000, word := 0 }, [], by decide +kernel⟩⟩

theorem hyps_microwordResults :
  (∃ (s : State) (t : Nat) (c : Nat) (x : Ctx) (m : MWord),
     (FallsThrough s t c 1 x m)) ∧
  (∃ (s : State) (t : Nat) (c : Nat) (x : Ctx) (m : MWord),
     (FallsThrough s t c 2 x m)) ∧
  (∃ (s : State) (t : Nat) (c : Nat) (x : Ctx) (m : MWord),
     (FallsThrough s t c 3 x m)) ∧
  (∃ (s : State) (t : Nat) (c : Nat) (x : Ctx) (m : MWord),
     (FallsThrough s t c 4 x m)) ∧
  (∃ (s : State) (t : Nat) (c : Nat) (x : Ctx) (m : MWord),
     (FallsThrough s t c 5 x m)) ∧
  (∃ (s : State) (t : Nat) (c : Nat) (x : Ctx) (m : MWord),
     (FallsThrough s t c 6 x m)) ∧
  (∃ (s : State) (t : Nat) (c : Nat) (x : Ctx) (m : MWord),
     (FallsThrough s t c 7 x m)) ∧
  (∃ (s : State) (t : Nat) (c : Nat) (x : Ctx) (m : MWord),
     (FallsThrough s t c 8 x m)) ∧
  (∃ (s : State) (t : Nat) (c : Nat) (x : Ctx) (m : MWord),
     (FallsThrough s t c 9 x m)) ∧
  (∃ (s : State) (t : Nat) (c : Nat) (x : Ctx) (m : MWord),
     (FallsThrough s t c 12 x m)) ∧
  (∃ (s : State) (t : Nat) (c : Nat) (x : Ctx) (m : MWord),
     (FallsThrough s t c 13 x m)) ∧
  (∃ (s : State) (t : Nat) (c : Nat) (x : Ctx) (m : MWord),
     (FallsThrough s t c 14 x m)) ∧
  (∃ (s : State) (t : Nat) (c : Nat) (x : Ctx) (m : MWord),
     (FallsThrough s t c 15 x m)) ∧
  (∃ (s : State) (t : Nat) (c : Nat) (x : Ctx) (m : MWord),
     (FallsThrough s t c 16 x m)) ∧
  (∃ (s : State) (t : Nat) (c : Nat) (x : Ctx) (m : MWord),
     (FallsThrough s t c 17 x m)) ∧
  (∃ (s : State) (t : Nat) (c : Nat) (x : Ctx) (m : MWord),
     (FallsThrough s t c 18 x m)) ∧
  (∃ (s : State) (t : Nat) (c : Nat) (x : Ctx) (m : MWord),
     (FallsThrough s t c 19 x m)) ∧
  (∃ (s : State) (t : Nat) (c : Nat) (x : Ctx) (m : MWord),
     (FallsThrough s t c 10 x m)) ∧
  (∃ (s : State) (t : Nat) (c : Nat) (x : Ctx) (m : MWord),
     (FallsThrough s t c 11 x m)) ∧
  (∃ (s : State) (t : Nat) (c : Nat) (x : Ctx) (m : MWord),
     (FallsThrough s t c 0 x m)) :=
  ⟨⟨(cx (mw 1 0) {}), 0, 0, ctx0 (mw 1 0) {}, MWord.ofNat (mw 1 0), by unfold FallsThrough; decide +kernel⟩,
   ⟨(cx (mw 2 0) {}), 0, 0, ctx0 (mw 2 0) {}, MWord.ofNat (mw 2 0), by unfold FallsThrough; decide +kernel⟩,
   ⟨(cx (mw 3 0) {}), 0, 0, ctx0 (mw 3 0) {}, MWord.ofNat (mw 3 0), by unfold FallsThrough; decide +kernel⟩,
   ⟨(cx (mw 4 0) {}), 0, 0, ctx0 (mw 4 0) {}, MWord.ofNat (mw 4 0), by unfold FallsThrough; decide +kernel⟩,
   ⟨(cx (mw 5 0) {}), 0, 0, ctx0 (mw 5 0) {}, MWord.ofNat (mw 5 0), by unfold FallsThrough; decide +kernel⟩,
   ⟨(cx (mw 6 0) {}), 0, 0, ctx0 (mw 6 0) {}, MWord.ofNat (mw 6 0), by unfold FallsThrough; decide +kernel⟩,
   ⟨(cx (mw 7 0) {}), 0, 0, ctx0 (mw 7 0) {}, MWord.ofNat (mw 7 0), by unfold FallsThrough; decide +kernel⟩,
   ⟨(cx (mw 8 0) {}), 0, 0, ctx0 (mw 8 0) {}, MWord.ofNat (mw 8 0), by unfold FallsThrough; decide +kernel⟩,
   ⟨(cx (mw 9 0) {}), 0, 0, ctx0 (mw 9 0) {}, MWord.ofNat (mw 9 0), by unfold FallsThrough; decide +kernel⟩,
   ⟨(cx (mw 12 0) {}), 0, 0, ctx0 (mw 12 0) {}, MWord.ofNat (mw 12 0), by unfold FallsThrough; decide +kernel⟩,
   ⟨(cx (mw 13 0) {}), 0, 0, ctx0 (mw 13 0) {}, MWord.ofNat (mw 13 0), by unfold FallsThrough; decide +kernel⟩,
   ⟨(cx (mw 14 0) {}), 0, 0, ctx0 (mw 14 0) {}, MWord.ofNat (mw 14 0), by unfold FallsThrough; decide +kernel⟩,
   ⟨(cx (mw 15 (2 ^ 93 + 256)) {}), 0, 0, ctx0 (mw 15 (2 ^ 93 + 256)) {}, MWord.ofNat (mw 15 (2 ^ 93 + 256)),
     by unfold FallsThrough; decide +kernel⟩,
   ⟨(cx (mw 16 (2 ^ 93 + 256)) {}), 0, 0, ctx0 (mw 16 (2 ^ 93 + 256)) {}, MWord.ofNat (mw 16 (2 ^ 93 + 256)),
     by unfold FallsThrough; decide +kernel⟩,
   ⟨(cx (mw 17 0) {}), 0, 0, ctx0 (mw 17 0) {}, MWord.ofNat (mw 17 0), by unfold FallsThrough; decide +kernel⟩,
   ⟨(cx (mw 18 0) {}), 0, 0, ctx0 (mw 18 0) {}, MWord.ofNat (mw 18 0), by unfold FallsThrough; decide +kernel⟩,
   ⟨(cx (mw 19 0) {}), 0, 0, ctx0 (mw 19 0) {}, MWord.ofNat (mw 19 0), by unfold FallsThrough; decide +kernel⟩,
   ⟨(cx (mw 10 0) {}), 0, 0, ctx0 (mw 10 0) {}, MWord.ofNat (mw 10 0), by unfold FallsThrough; decide +kernel⟩,
   ⟨(cx (mw 11 0) {}), 0, 0, ctx0 (mw 11 0) {}, MWord.ofNat (mw 11 0), by unfold FallsThrough; decide +kernel⟩,
   ⟨(cx (mw 0 0) {}), 0, 0, ctx0 (mw 0 0) {}, MWord.ofNat (mw 0 0), by unfold FallsThrough; decide +kernel⟩⟩

theorem hyps_microwordSequencing :
  (∃ (s : State) (t : Nat) (c : Nat) (x : Ctx) (m : MWord),
     (issued s t c 0 = some (x, m)) ∧
     (issueFault s x x m = 0) ∧
     (m.sq = 1)) ∧
  (∃ (s : State) (t : Nat) (c : Nat) (x : Ctx) (m : MWord),
     (issued s t c 0 = some (x, m)) ∧
     (issueFault s x x m = 0) ∧
     (m.sq = 2) ∧
     (condHolds x m.cond = true)) ∧
  (∃ (s : State) (t : Nat) (c : Nat) (x : Ctx) (m : MWord),
     (issued s t c 0 = some (x, m)) ∧
     (issueFault s x x m = 0) ∧
     (m.sq = 2) ∧
     (condHolds x m.cond = false)) ∧
  (∃ (s : State) (t : Nat) (c : Nat) (x : Ctx) (m : MWord),
     (issued s t c 0 = some (x, m)) ∧
     (issueFault s x x m = 0) ∧
     (m.sq = 3)) ∧
  (∃ (s : State) (t : Nat) (c : Nat) (x : Ctx) (m : MWord),
     (issued s t c 0 = some (x, m)) ∧
     (issueFault s x x m = 0) ∧
     (m.sq = 4)) ∧
  (∃ (s : State) (t : Nat) (c : Nat) (x : Ctx) (m : MWord),
     (issued s t c 0 = some (x, m)) ∧
     (issueFault s x x m = 0) ∧
     (m.sq = 5)) ∧
  (∃ (s : State) (t : Nat) (c : Nat) (x : Ctx) (m : MWord),
     (issued s t c 0 = some (x, m)) ∧
     (issueFault s x x m = 0) ∧
     (m.sq = 6) ∧
     ((getTile s t).stores = [])) ∧
  (∃ (s : State) (t : Nat) (c : Nat) (x : Ctx) (m : MWord),
     (issued s t c 0 = some (x, m)) ∧
     (wordFault m = 2)) ∧
  (∃ (s : State) (t : Nat) (c : Nat) (x : Ctx) (m : MWord),
     (issued s t c 0 = some (x, m)) ∧
     (wordFault m = 0) ∧
     (capFault s x x m = false) ∧
     (m.sq = 3 ∧ 8 ≤ x.stack.length ∨ m.sq = 4 ∧ x.stack = [])) ∧
  (∃ (s : State) (t : Nat) (c : Nat) (x : Ctx) (m : MWord),
     (issued s t c 0 = some (x, m)) ∧
     (wordFault m = 0) ∧
     (m.sq = 0) ∧
     (regionEnd x.pc = true)) ∧
  (∃ (s : State) (t : Nat) (c : Nat) (x : Ctx) (m : MWord),
     (issued s t c 0 = some (x, m)) ∧
     (wordFault m = 0) ∧
     (atSkim x.pc = true) ∧
     (m.sq = 1) ∧
     (skimTarget m.target = false)) :=
  ⟨⟨(cx (mw 0 (1 * 2 ^ 117)) {}), 0, 0, ctx0 (mw 0 (1 * 2 ^ 117)) {}, MWord.ofNat (mw 0 (1 * 2 ^ 117)),
    by decide +kernel⟩,
   ⟨(cx (mw 0 (2 * 2 ^ 117 + 2 ^ 113)) {}), 0, 0, ctx0 (mw 0 (2 * 2 ^ 117 + 2 ^ 113)) {},
     MWord.ofNat (mw 0 (2 * 2 ^ 117 + 2 ^ 113)), by decide +kernel⟩,
   ⟨(cx (mw 0 (2 * 2 ^ 117)) {}), 0, 0, ctx0 (mw 0 (2 * 2 ^ 117)) {}, MWord.ofNat (mw 0 (2 * 2 ^ 117)),
     by decide +kernel⟩,
   ⟨(cx (mw 0 (3 * 2 ^ 117)) {}), 0, 0, ctx0 (mw 0 (3 * 2 ^ 117)) {}, MWord.ofNat (mw 0 (3 * 2 ^ 117)),
     by decide +kernel⟩,
   ⟨(cx (mw 0 (4 * 2 ^ 117)) { stack := [5] }), 0, 0, ctx0 (mw 0 (4 * 2 ^ 117)) { stack := [5] },
     MWord.ofNat (mw 0 (4 * 2 ^ 117)), by decide +kernel⟩,
   ⟨(cx (mw 0 (5 * 2 ^ 117)) {}), 0, 0, ctx0 (mw 0 (5 * 2 ^ 117)) {}, MWord.ofNat (mw 0 (5 * 2 ^ 117)),
     by decide +kernel⟩,
   ⟨{ (cx (mw 0 (6 * 2 ^ 117)) {}) with trw := { (cx (mw 0 (6 * 2 ^ 117)) {}).trw with entries := [(0, 1)] } }, 0, 0,
     ctx0 (mw 0 (6 * 2 ^ 117)) {}, MWord.ofNat (mw 0 (6 * 2 ^ 117)), by decide +kernel⟩,
   ⟨(cx (mw 0 (2 ^ 82)) {}), 0, 0, ctx0 (mw 0 (2 ^ 82)) {}, MWord.ofNat (mw 0 (2 ^ 82)), by decide +kernel⟩,
   ⟨(cx (mw 0 (4 * 2 ^ 117)) {}), 0, 0, ctx0 (mw 0 (4 * 2 ^ 117)) {}, MWord.ofNat (mw 0 (4 * 2 ^ 117)),
     by decide +kernel⟩,
   ⟨(cx (mw 0 0) { pc := 0x2FFFF }), 0, 0, ctx0 (mw 0 0) { pc := 0x2FFFF }, MWord.ofNat (mw 0 0), by decide +kernel⟩,
   ⟨(cx (mw 0 (1 * 2 ^ 117)) { pc := 0x38040 }), 0, 0, ctx0 (mw 0 (1 * 2 ^ 117)) { pc := 0x38040 },
     MWord.ofNat (mw 0 (1 * 2 ^ 117)), by decide +kernel⟩⟩

theorem hyps_namespacesContractsGrants :
  (∃ (s : State) (n : Nat) (c : Cmd),
     (adminCmd s n 68 = some c) ∧
     (c.sqe.target < 512) ∧
     (tenState s c.sqe.target = 1 ∨ tenState s c.sqe.target = 2) ∧
     ((getNs s c.sqe.target (c.sqe.cdw0 % 16)).isSome = true ∨ c.sqe.cdw2 % 2 ^ 32 + c.sqe.cdw3 % 2 ^ 32 * 2 ^ 32 = 0)) ∧
  (∃ (s : State) (n : Nat) (c : Cmd),
     (adminCmd s n 68 = some c) ∧
     (c.sqe.target < 512) ∧
     (tenState s c.sqe.target = 1 ∨ tenState s c.sqe.target = 2) ∧
     (getNs s c.sqe.target (c.sqe.cdw0 % 16) = none) ∧
     (0 < c.sqe.cdw2 % 2 ^ 32 + c.sqe.cdw3 % 2 ^ 32 * 2 ^ 32) ∧
     (nsCount s < 2048) ∧
     (poolUsed s (c.sqe.cdw0 / 16 % 4) + (c.sqe.cdw2 % 2 ^ 32 + c.sqe.cdw3 % 2 ^ 32 * 2 ^ 32) ≤ poolCap s (c.sqe.cdw0 / 16 % 4)) ∧
     (c.sqe.cdw0 / 64 % 2 = 1 → floorIn (contractOf s c.sqe.target) (c.sqe.cdw0 / 16 % 4) = false)) ∧
  (∃ (s : State) (n : Nat) (c : Cmd),
     (adminCmd s n 69 = some c) ∧
     (c.sqe.target < 512) ∧
     (c.stage = 0) ∧
     (tenState s c.sqe.target = 1 ∨ tenState s c.sqe.target = 2) ∧
     ((getNs s c.sqe.target (c.sqe.cdw0 % 16)).isSome = true) ∧
     ((lowerBusy s c.sqe.target n fun d => !d.admin && (d.sqe.nsid == c.sqe.cdw0 % 16 || d.sqe.opc == 0)) = false)) ∧
  (∃ (s : State) (n : Nat) (c : Cmd) (rec : List Byte),
     (adminCmd s n 72 = some c) ∧
     (c.sqe.buf0Len = 128) ∧
     (tenState s c.sqe.target = 1 ∨ tenState s c.sqe.target = 2) ∧
     (judgeContract (hostGet s c.fid c.sqe.buf0 128) c.sqe.target rec = 0)) ∧
  (∃ (s : State) (n : Nat) (c : Cmd) (rec : List Byte),
     (adminCmd s n 72 = some c) ∧
     (c.sqe.buf0Len = 128) ∧
     (tenState s c.sqe.target = 1 ∨ tenState s c.sqe.target = 2) ∧
     (judgeContract (hostGet s c.fid c.sqe.buf0 128) c.sqe.target rec ≠ 0)) ∧
  (∃ (s : State) (n : Nat) (c : Cmd),
     (adminCmd s n 73 = some c) ∧
     (tenState s c.sqe.target = 1 ∨ tenState s c.sqe.target = 2)) ∧
  (∃ (s : State) (n : Nat) (c : Cmd),
     (adminCmd s n 74 = some c) ∧
     (tenState s c.sqe.target = 1 ∨ tenState s c.sqe.target = 2) ∧
     (tenantPort s c.sqe.target = some (c.sqe.cdw0 / 16 % 8)) ∧
     (c.sqe.buf1 % 4096 = 0) ∧
     (0 < c.sqe.buf1Len) ∧
     (c.sqe.buf1Len % 4096 = 0) ∧
     (c.sqe.buf1 + c.sqe.buf1Len ≤ 2 ^ 64) ∧
     (grantBusy s c.sqe.target n (c.sqe.cdw0 % 16) = false)) ∧
  (∃ (s : State) (n : Nat) (c : Cmd),
     (adminCmd s n 74 = some c) ∧
     (tenState s c.sqe.target = 1 ∨ tenState s c.sqe.target = 2) ∧
     (c.sqe.buf1 % 4096 ≠ 0 ∨ c.sqe.buf1Len = 0 ∨ c.sqe.buf1Len % 4096 ≠ 0 ∨ 2 ^ 64 < c.sqe.buf1 + c.sqe.buf1Len ∨ tenantPort s c.sqe.target ≠ some (c.sqe.cdw0 / 16 % 8))) ∧
  (∃ (s : State) (n : Nat) (c : Cmd),
     (adminCmd s n 75 = some c) ∧
     (tenState s c.sqe.target = 1 ∨ tenState s c.sqe.target = 2) ∧
     (grantBusy s c.sqe.target n (c.sqe.cdw0 % 16) = false)) :=
  ⟨⟨cm (own (pt iv)) (ad 68 { cdw0 := 1 }), 5, ad 68 { cdw0 := 1 }, by decide +kernel⟩,
   ⟨cm (own (im { img1 with pools := { flashCap := 1000 } } sv)) (ad 68 { cdw0 := 2, cdw2 := 8 }), 5,
     ad 68 { cdw0 := 2, cdw2 := 8 }, by decide +kernel⟩,
   ⟨cm (own (pt iv)) (ad 69 { cdw0 := 1 }), 5, ad 69 { cdw0 := 1 }, by decide +kernel⟩,
   ⟨cm (own (pt iv)) (ad 72 { buf0Len := 128 }), 5, ad 72 { buf0Len := 128 }, rec0, by decide +kernel⟩,
   ⟨cm (own (pt iv)) (ad 72 { buf0Len := 128 }), 5, ad 72 { buf0Len := 128 }, [], by decide +kernel⟩,
   ⟨cm (own (pt iv)) (ad 73 {}), 5, ad 73 {}, by decide +kernel⟩,
   ⟨cm (own (pt iv)) (ad 74 { buf1Len := 4096 }), 5, ad 74 { buf1Len := 4096 }, by decide +kernel⟩,
   ⟨cm (own (pt iv)) (ad 74 {}), 5, ad 74 {}, by decide +kernel⟩,
   ⟨cm (own (pt iv)) (ad 75 {}), 5, ad 75 {}, by decide +kernel⟩⟩

theorem hyps_noCommandStopsTheMachine :
  (∃ (s : State) (t : State),
     (s.queueOk) ∧
     (step s = Host.Outcome.next t)) :=
  ⟨State.reset, _, by unfold State.queueOk; decide +kernel, rfl⟩

theorem hyps_nodesOfTable126 :
  (∃ (s : State) (t : Nat) (i : Inst) (n : NodeWord),
     (NodeNext s t 1 i n)) ∧
  (∃ (s : State) (t : Nat) (i : Inst) (n : NodeWord),
     (NodeNext s t 2 i n)) ∧
  (∃ (s : State) (t : Nat) (i : Inst) (n : NodeWord),
     (NodeNext s t 3 i n)) ∧
  (∃ (s : State) (t : Nat) (i : Inst) (n : NodeWord),
     (NodeNext s t 4 i n)) ∧
  (∃ (s : State) (t : Nat) (i : Inst) (n : NodeWord),
     (NodeNext s t 5 i n)) ∧
  (∃ (s : State) (t : Nat) (i : Inst) (n : NodeWord),
     (NodeNext s t 6 i n)) ∧
  (∃ (s : State) (t : Nat) (i : Inst) (n : NodeWord),
     (NodeNext s t 7 i n)) ∧
  (∃ (s : State) (t : Nat) (i : Inst) (n : NodeWord),
     (NodeNext s t 8 i n)) ∧
  (∃ (s : State) (t : Nat) (i : Inst) (n : NodeWord),
     (NodeNext s t 9 i n)) ∧
  (∃ (s : State) (t : Nat) (i : Inst) (n : NodeWord),
     (NodeNext s t 10 i n)) ∧
  (∃ (s : State) (t : Nat) (i : Inst) (n : NodeWord),
     (NodeNext s t 11 i n)) ∧
  (∃ (s : State) (t : Nat) (i : Inst) (n : NodeWord),
     (NodeNext s t 12 i n)) ∧
  (∃ (s : State) (t : Nat) (i : Inst) (n : NodeWord),
     (NodeNext s t 13 i n)) ∧
  (∃ (s : State) (t : Nat) (i : Inst) (n : NodeWord),
     (NodeNext s t 18 i n)) ∧
  (∃ (s : State) (t : Nat) (i : Inst) (n : NodeWord) (a : Word) (b0 : Word) (b : Word),
     (NodeNext s t 14 i n) ∧
     (a = fpIn i.ftz (i.opnd (coefWord s t) n.a)) ∧
     (b0 = fpIn i.ftz (i.opnd (coefWord s t) n.b)) ∧
     (fpNaN a = false) ∧
     (fpNaN b0 = false) ∧
     (b = if fpSign b0 = true then 0 else b0)) ∧
  (∃ (s : State) (t : Nat) (i : Inst) (n : NodeWord) (x : Word) (y : Word) (v : Word) (cf : Nat → Word),
     (NodeNext s t 16 i n) ∧
     (n.dst ≠ n.aux) ∧
     (n.dst ≠ n.aux + 1) ∧
     (cf = fun k => coefWord s t (n.b % 256 + k)) ∧
     (x = i.opnd (coefWord s t) n.a) ∧
     (y = (fpFma i.ftz (cf 0) x (tget 0 i.work n.aux)).1) ∧
     (v = (fpFma i.ftz (cf 1) x (tget 0 i.work (n.aux + 1))).1)) ∧
  (∃ (s : State) (t : Nat) (i : Inst) (n : NodeWord) (a : Word) (b : Word) (st : Word),
     (NodeNext s t 17 i n) ∧
     (a = i.opnd (coefWord s t) n.a) ∧
     (b = i.opnd (coefWord s t) n.b) ∧
     (st = tget 0 i.work n.aux) ∧
     (n.aw = false ∨ (getTask s t).sat = false)) ∧
  (∃ (s : State) (t : Nat) (i : Inst) (n : NodeWord) (a : Word) (b : Word) (st : Word),
     (NodeNext s t 17 i n) ∧
     (a = i.opnd (coefWord s t) n.a) ∧
     (b = i.opnd (coefWord s t) n.b) ∧
     (st = tget 0 i.work n.aux) ∧
     (n.aw = true) ∧
     ((getTask s t).sat = true) ∧
     (fpNaN a = false) ∧
     (fpNaN b = false) ∧
     (((fpSign a != fpSign b) == (getTask s t).satNeg) = true)) ∧
  (∃ (s : State) (t : Nat) (i : Inst) (n : NodeWord),
     (NodeNext s t 32 i n)) ∧
  (∃ (s : State) (t : Nat) (i : Inst) (n : NodeWord),
     (NodeNext s t 63 i n) ∧
     ((getTask s t).poison = false) ∧
     (i.finite = true) ∧
     ((getTask s t).inhibit = false)) ∧
  (∃ (s : State) (t : Nat) (i : Inst) (n : NodeWord),
     (NodeNext s t 63 i n) ∧
     ((getTask s t).poison = false) ∧
     (i.finite = false) ∧
     ((getTask s t).consec < 2) ∧
     ((getTask s t).missRun ≠ 63)) :=
  ⟨⟨(nodeAt { op := 1 }), 0, inst0, { op := 1 }, by unfold NodeNext; decide +kernel⟩,
   ⟨(nodeAt { op := 2 }), 0, inst0, { op := 2 }, by unfold NodeNext; decide +kernel⟩,
   ⟨(nodeAt { op := 3 }), 0, inst0, { op := 3 }, by unfold NodeNext; decide +kernel⟩,
   ⟨(nodeAt { op := 4 }), 0, inst0, { op := 4 }, by unfold NodeNext; decide +kernel⟩,
   ⟨(nodeAt { op := 5 }), 0, inst0, { op := 5 }, by unfold NodeNext; decide +kernel⟩,
   ⟨(nodeAt { op := 6 }), 0, inst0, { op := 6 }, by unfold NodeNext; decide +kernel⟩,
   ⟨(nodeAt { op := 7 }), 0, inst0, { op := 7 }, by unfold NodeNext; decide +kernel⟩,
   ⟨(nodeAt { op := 8 }), 0, inst0, { op := 8 }, by unfold NodeNext; decide +kernel⟩,
   ⟨(nodeAt { op := 9 }), 0, inst0, { op := 9 }, by unfold NodeNext; decide +kernel⟩,
   ⟨(nodeAt { op := 10 }), 0, inst0, { op := 10 }, by unfold NodeNext; decide +kernel⟩,
   ⟨(nodeAt { op := 11 }), 0, inst0, { op := 11 }, by unfold NodeNext; decide +kernel⟩,
   ⟨(nodeAt { op := 12 }), 0, inst0, { op := 12 }, by unfold NodeNext; decide +kernel⟩,
   ⟨(nodeAt { op := 13 }), 0, inst0, { op := 13 }, by unfold NodeNext; decide +kernel⟩,
   ⟨(nodeAt { op := 18 }), 0, inst0, { op := 18 }, by unfold NodeNext; decide +kernel⟩,
   ⟨(nodeAt { op := 14 }), 0, inst0, { op := 14 }, _, _, _, by unfold NodeNext; decide +kernel, rfl, rfl,
     by decide +kernel, by decide +kernel, rfl⟩,
   ⟨(nodeAt { op := 16, dst := 5 }), 0, inst0, { op := 16, dst := 5 }, _, _, _, _, by unfold NodeNext; decide +kernel,
     by decide +kernel, by decide +kernel, rfl, rfl, rfl, rfl⟩,
   ⟨(nodeAt { op := 17 }), 0, inst0, { op := 17 }, _, _, _, by unfold NodeNext; decide +kernel, rfl, rfl, rfl,
     by decide +kernel⟩,
   ⟨(fun s => { s with ltn := { s.ltn with tasks := [(0, { run := some inst0, sat := true })] } }) (nodeAt { op := 17, aw := true }), 0, inst0, { op := 17, aw := true }, _, _, _, by unfold NodeNext; decide +kernel, rfl, rfl, rfl, by decide +kernel, by decide +kernel, by decide +kernel, by decide +kernel, by decide +kernel⟩,
   ⟨(nodeAt { op := 32 }), 0, inst0, { op := 32 }, by unfold NodeNext; decide +kernel⟩,
   ⟨(nodeAt { op := 63 }), 0, inst0, { op := 63 }, by unfold NodeNext; decide +kernel⟩,
   ⟨(fun s => { s with ltn := { s.ltn with tasks := [(0, { run := some { inst0 with work := [(0, 0x7F800000)], outs := [(0, 0x7F800000)] } })] } }) (nodeAt { op := 63 }), 0, { inst0 with work := [(0, 0x7F800000)], outs := [(0, 0x7F800000)] }, { op := 63 }, by unfold NodeNext; decide +kernel⟩⟩

theorem hyps_norCommands :
  (∃ (s : State) (i : Instr) (op : Nat) (slot : Nat),
     ((i, op, slot) ∈ [(Instr.norRead, 1, 0), (Instr.norProgram, 2, 0), (Instr.norErase, 3, 0), (Instr.markTrial 1, 4,
       1), (Instr.markTrial 2, 4, 2), (Instr.clearTrial, 5, 0)]) ∧
     (fget s GLB_NOR_STAT_BUSY = 1)) ∧
  (∃ (s : State) (i : Instr) (op : Nat) (slot : Nat),
     ((i, op, slot) ∈ [(Instr.norRead, 1, 0), (Instr.norProgram, 2, 0), (Instr.norErase, 3, 0), (Instr.markTrial 1, 4,
       1), (Instr.markTrial 2, 4, 2), (Instr.clearTrial, 5, 0)]) ∧
     (fget s GLB_NOR_STAT_BUSY = 0) ∧
     (norJudge s op (fget s GLB_NOR_ADDR_ADDR) slot = none)) ∧
  (∃ (s : State) (i : Instr) (op : Nat) (slot : Nat) (r : Nat),
     ((i, op, slot) ∈ [(Instr.norRead, 1, 0), (Instr.norProgram, 2, 0), (Instr.norErase, 3, 0), (Instr.markTrial 1, 4,
       1), (Instr.markTrial 2, 4, 2), (Instr.clearTrial, 5, 0)]) ∧
     (fget s GLB_NOR_STAT_BUSY = 0) ∧
     (norJudge s op (fget s GLB_NOR_ADDR_ADDR) slot = some r)) ∧
  (∃ (slot : Nat),
     (slot ≠ 1) ∧
     (slot ≠ 2)) ∧
  (∃ (s : State) (addr : Nat),
     (s.norCmd = some { op := 1, addr := addr, slot := 0 })) ∧
  (∃ (s : State) (addr : Nat),
     (s.norCmd = some { op := 3, addr := addr, slot := 0 }) ∧
     (131072 ≤ addr)) ∧
  (∃ (s : State) (op : Nat) (addr : Nat) (slot : Nat),
     (op = 4 ∨ op = 5) ∧
     (s.norCmd = some { op := op, addr := addr, slot := slot })) ∧
  (∃ (s : State) (c : NorCmd),
     (s.norCmd = some c)) :=
  ⟨⟨fset sv GLB_NOR_STAT_BUSY 1, .norRead, 1, 0, by decide +kernel⟩,
   ⟨{ sv with nv := { norSize := 0x1000000 } }, .norRead, 1, 0, by decide +kernel⟩,
   ⟨{ sv with nv := { norSize := 0x1000000 } }, .norProgram, 2, 0, 1, by decide +kernel⟩,
   ⟨0, by decide +kernel⟩,
   ⟨{ sv with norCmd := some { op := 1, addr := 0, slot := 0 } }, 0, by decide +kernel⟩,
   ⟨{ sv with norCmd := some { op := 3, addr := 0x20000, slot := 0 } }, 0x20000, by decide +kernel⟩,
   ⟨{ sv with norCmd := some { op := 4, addr := 0, slot := 1 } }, 4, 0, 1, by decide +kernel⟩,
   ⟨{ sv with norCmd := some { op := 4, addr := 0, slot := 1 } }, { op := 4, addr := 0, slot := 1 }, by decide +kernel⟩⟩

theorem hyps_ozperLinks :
  (∃ (s : State) (p : Nat) (lanes : Nat) (r : RingSec),
     (ozTrains s p = true) ∧
     (ozState s p = 1 ∨ ozState s p = 2) ∧
     ((ozPort s p).locked = false) ∧
     (lanes % 256 = 255) ∧
     (ringDeclared s = some r)) ∧
  (∃ (s : State) (p : Nat) (lanes : Nat),
     (ozTrains s p = true) ∧
     (ozState s p = 1 ∨ ozState s p = 2) ∧
     ((ozPort s p).locked = false) ∧
     (lanes % 256 ≠ 255)) ∧
  (∃ (s : State) (p : Nat),
     (ozTrains s p = true) ∧
     (ozState s p = 5)) ∧
  (∃ (s : State) (p : Nat) (i : Instr),
     (p < 2) ∧
     (ozUp s p = true) ∧
     (i ∈ [Instr.ozperLinkDown p, Instr.ozperRetrain p false])) ∧
  (∃ (s : State) (p : Nat) (grant : Nat) (leave : Bool),
     (p < 2) ∧
     (ozUp s p = true) ∧
     ((ozPort s p).waiting = []) ∧
     (grant < 2 ^ 22) ∧
     (leave = false ∨ fget s (ozVerF p) = 1)) ∧
  (∃ (s : State) (p : Nat),
     (p < 2) ∧
     (ozUp s p = true) ∧
     (fget s (ozVerF p) = 2) ∧
     ((ozPort s p).waiting = [])) ∧
  (∃ (s : State) (p : Nat) (h : OzHdr) (r : RingSec),
     (p < 2) ∧
     (ozUp s p = true ∨ (ozPort s p).locked = true) ∧
     (ringDeclared s = some r) ∧
     ((ozPort s p).waiting = []) ∧
     (h.lseq ≠ ((ozPort s p).rxSeq + 1) % 4096)) ∧
  (∃ (s : State) (p : Nat) (h : OzHdr) (r : RingSec),
     (p < 2) ∧
     (ozUp s p = true ∨ (ozPort s p).locked = true) ∧
     (ringDeclared s = some r) ∧
     ((ozPort s p).waiting = []) ∧
     (h.lseq = ((ozPort s p).rxSeq + 1) % 4096)) ∧
  (∃ (s : State) (p : Nat) (r : RingSec),
     (p < 2) ∧
     ((ozPort s p).locked = true) ∧
     (ozUp s p = false) ∧
     (ringDeclared s = some r) ∧
     ((ozPort s p).waiting = []) ∧
     (ozRoom (ozPort s p) 76 = true)) ∧
  (∃ (s : State) (p : Nat),
     (p < 2) ∧
     (ozUp s p = true) ∧
     ((ozPort s p).bad.length < 15)) ∧
  (∃ (s : State) (p : Nat),
     (p < 2) ∧
     (ozUp s p = true) ∧
     (15 ≤ (List.filter (fun x => decide (s.tb.ns < x + 1000000)) (ozPort s p).bad).length)) :=
  ⟨⟨oz 1 sv, 0, 255, ring1, by decide +kernel⟩,
   ⟨oz 1 sv, 0, 254, by decide +kernel⟩,
   ⟨oz 5 sv, 0, by decide +kernel⟩,
   ⟨oz 3 sv, 0, .ozperLinkDown 0, by decide +kernel⟩,
   ⟨oz 3 sv, 0, 0, false, by decide +kernel⟩,
   ⟨fset (oz 3 sv) (ozVerF 0) 2, 0, by decide +kernel⟩,
   ⟨oz 3 sv, 0, { lseq := 5, ack := 0 }, ring1, by decide +kernel⟩,
   ⟨oz 3 sv, 0, { lseq := 0, ack := 0 }, ring1, by decide +kernel⟩,
   ⟨{ oz 2 sv with ozp := { ports := [(0, { locked := true })] } }, 0, ring1, by decide +kernel⟩,
   ⟨oz 3 sv, 0, by decide +kernel⟩,
   ⟨{ oz 3 sv with ozp := { ports := [(0, { bad := List.replicate 15 1000000000000 })] } }, 0, by decide +kernel⟩⟩

theorem hyps_ozperMirroring :
  (∃ (s : State),
     (ozState s 0 = 3) ∧
     (fget s OZP_STATUS_MODE = 3) ∧
     (fget s (ozVerF 0) = 1)) ∧
  (∃ (s : State) (h : OzHdr) (base : Nat) (i : Nat) (seq : Nat) (c : Cmd),
     (ozState s 0 = 3) ∧
     (fget s OZP_STATUS_MODE = 1) ∧
     (h.lseq = ((ozPort s 0).rxSeq + 1) % 4096) ∧
     ((ozPort s 0).waiting = []) ∧
     (List.find? (fun e => e.1 == base) s.ozp.awaits = some (base, i)) ∧
     (s.cmds = [(seq, c)]) ∧
     (c.mids = [base]) ∧
     (c.applied = true) ∧
     (c.done = none)) ∧
  (∃ (s : State) (h : OzHdr) (m : MirrorMsg) (b : Nat) (old : MirrorCopy),
     (ozState s 1 = 3) ∧
     (h.lseq = ((ozPort s 1).rxSeq + 1) % 4096) ∧
     ((ozPort s 1).waiting = []) ∧
     ((ozPort s 1).unacked = []) ∧
     (b < 4) ∧
     (m.sent = 2 ^ b) ∧
     (old = tget { } s.ozp.inMap m.slot) ∧
     (old.blocks.length = 4) ∧
     (old.tags.length = 4)) ∧
  (∃ (s : State) (h : OzHdr),
     (ozState s 1 = 3) ∧
     (h.lseq = ((ozPort s 1).rxSeq + 1) % 4096) ∧
     ((ozPort s 1).waiting = [])) ∧
  (∃ (s : State) (h : OzHdr),
     (ozState s 1 = 3) ∧
     (h.lseq = ((ozPort s 1).rxSeq + 1) % 4096) ∧
     ((ozPort s 1).waiting = []) ∧
     (fget s (ozVerF 1) = 2)) ∧
  (∃ (s : State) (h : OzHdr),
     (ozState s 1 = 3) ∧
     (h.lseq = ((ozPort s 1).rxSeq + 1) % 4096) ∧
     ((ozPort s 1).waiting = []) ∧
     (fget s (ozVerF 1) = 1) ∧
     ((ozPort s 1).bad.length < 15)) ∧
  (∃ (s : State),
     (fget s OZP_STATUS_MODE = 1) ∧
     (ozState s 0 ≠ 3)) ∧
  (∃ (s : State),
     (fget s OZP_STATUS_MODE = 2)) ∧
  (∃ (s : State),
     ((ozPort s 1).lost = true)) ∧
  (∃ (s : State) (o : OrphanSet) (rest : List OrphanSet),
     (s.ozp.orphans = o :: rest) ∧
     (o.formed + o.hold * 1000000000 ≤ s.tb.ns)) ∧
  (∃ (s : State) (o : OrphanSet) (rest : List OrphanSet),
     (s.ozp.orphans = o :: rest) ∧
     (s.tb.ns < o.formed + o.hold * 1000000000)) ∧
  (∃ (s : State) (n : Nat) (c : Cmd),
     (adminCmd s n 89 = some c)) ∧
  (∃ (s : State) (n : Nat) (off : Nat) (c : Cmd) (bs : List Byte),
     (adminCmd s n 88 = some c) ∧
     (off = c.sqe.cdw0 % 2 ^ 32 + c.sqe.cdw1 * 2 ^ 32) ∧
     (bs = List.take c.sqe.buf0Len (List.drop off (orphanImage s))) ∧
     (c.sqe.buf0Len ≠ 0) ∧
     (c.sqe.buf0Len % 4 = 0) ∧
     (c.sqe.buf0Len ≤ 1048576) ∧
     (off % 4 = 0)) ∧
  (∃ (s : State) (n : Nat) (off : Nat) (c : Cmd) (bs : List Byte),
     (adminCmd s n 88 = some c) ∧
     (off = c.sqe.cdw0 % 2 ^ 32 + c.sqe.cdw1 * 2 ^ 32) ∧
     (bs = List.take c.sqe.buf0Len (List.drop off (orphanImage s))) ∧
     (c.sqe.buf0Len = 0 ∨ c.sqe.buf0Len % 4 ≠ 0 ∨ 1048576 < c.sqe.buf0Len ∨ off % 4 ≠ 0)) :=
  ⟨⟨fset (fset (oz 3 sv) OZP_STATUS_MODE 3) (ozVerF 0) 1, by decide +kernel⟩,
   ⟨fset { oz 3 sv with ozp := { awaits := [(7, 9)] }, cmds := [(5, { io 1 with mids := [7], applied := true })] } OZP_STATUS_MODE 1, { lseq := 0, ack := 0 }, 7, 9, 5, { io 1 with mids := [7], applied := true }, by decide +kernel⟩,
   ⟨oz1 sv, { lseq := 0, ack := 0 }, mir, 0, {}, by decide +kernel⟩,
   ⟨oz1 sv, { lseq := 0, ack := 0 }, by decide +kernel⟩,
   ⟨fset (oz1 sv) (ozVerF 1) 2, { lseq := 0, ack := 0 }, by decide +kernel⟩,
   ⟨fset (oz1 sv) (ozVerF 1) 1, { lseq := 0, ack := 0 }, by decide +kernel⟩,
   ⟨fset sv OZP_STATUS_MODE 1, by decide +kernel⟩,
   ⟨fset sv OZP_STATUS_MODE 2, by decide +kernel⟩,
   ⟨{ sv with ozp := { ports := [(1, { lost := true })] } }, by decide +kernel⟩,
   ⟨{ sv with ozp := { orphans := [{ uid := 1, boot := 1, epoch := 1, formed := 0, hold := 1000, records := [] }] } },
     { uid := 1, boot := 1, epoch := 1, formed := 0, hold := 1000, records := [] }, [], by decide +kernel⟩,
   ⟨{ sv with ozp := { orphans := [{ uid := 1, boot := 1, epoch := 1, formed := 0, hold := 1001, records := [] }] } },
     { uid := 1, boot := 1, epoch := 1, formed := 0, hold := 1001, records := [] }, [], by decide +kernel⟩,
   ⟨cm (sv) (ad 89 {}), 5, ad 89 {}, by decide +kernel⟩,
   ⟨cm (sv) (ad 88 { buf0Len := 4 }), 5, 0, ad 88 { buf0Len := 4 }, [], by decide +kernel⟩,
   ⟨cm (sv) (ad 88 {}), 5, 0, ad 88 {}, [], by decide +kernel⟩⟩

theorem hyps_pairsLogsIdentify :
  (∃ (s : State) (n : Nat) (c : Cmd),
     (adminCmd s n 1 = some c) ∧
     ((getQp s c.fid c.sqe.target).mode = 0) ∧
     ((getQp s c.fid 0).mode = 2)) ∧
  (∃ (s : State) (n : Nat) (c : Cmd),
     (adminCmd s n 1 = some c) ∧
     ((getQp s c.fid c.sqe.target).mode = 1 ∨ (getQp s c.fid c.sqe.target).mode = 2)) ∧
  (∃ (s : State) (n : Nat) (c : Cmd),
     (adminCmd s n 2 = some c) ∧
     (c.stage = 0) ∧
     (c.sqe.target ≠ 0) ∧
     ((getQp s c.fid c.sqe.target).mode ≠ 0) ∧
     (∀ e ∈ s.cmds, e.2.fid = c.fid → e.2.q ≠ c.sqe.target) ∧
     ((getFn s c.fid).teardown = 0)) ∧
  (∃ (s : State) (n : Nat) (c : Cmd),
     (adminCmd s n 2 = some c) ∧
     (c.stage = 0) ∧
     ((getQp s c.fid c.sqe.target).mode = 0)) ∧
  (∃ (s : State) (n : Nat) (c : Cmd),
     (adminCmd s n 4 = some c)) ∧
  (∃ (s : State) (n : Nat) (c : Cmd) (bs : List Byte),
     (adminCmd s n 5 = some c) ∧
     (bs = List.take c.sqe.buf0Len (if c.sqe.cdw0 % 256 = 1 then errorLog s c.fid else contractLog s (adminTenant c)))) ∧
  (∃ (s : State) (n : Nat) (c : Cmd),
     (adminCmd s n 9 = some c)) :=
  ⟨⟨cm ({ own sv with qps := [(0, { mode := 2 }), (3, { mode := 1 })] }) (ad 1 { target := 5 }), 5,
    ad 1 { target := 5 }, by decide +kernel⟩,
   ⟨cm ({ own sv with qps := [(0, { mode := 2 }), (3, { mode := 1 })] }) (ad 1 { target := 3 }), 5,
     ad 1 { target := 3 }, by decide +kernel⟩,
   ⟨cm ({ own sv with qps := [(0, { mode := 2 }), (3, { mode := 1 })] }) (ad 2 { target := 3 }), 5,
     ad 2 { target := 3 }, by decide +kernel⟩,
   ⟨cm ({ own sv with qps := [(0, { mode := 2 }), (3, { mode := 1 })] }) (ad 2 { target := 5 }), 5,
     ad 2 { target := 5 }, by decide +kernel⟩,
   ⟨cm (own (pt iv)) (ad 4 {}), 5, ad 4 {}, by decide +kernel⟩,
   ⟨cm (own (pt iv)) (ad 5 { cdw0 := 1, buf0Len := 64 }), 5, ad 5 { cdw0 := 1, buf0Len := 64 }, _, by decide +kernel,
     rfl⟩,
   ⟨cm (own (pt iv)) (ad 9 {}), 5, ad 9 {}, by decide +kernel⟩⟩

theorem hyps_pinsAndVoltages :
  (∃ (n : Nat),
     (n < 3)) ∧
  (∃ (s : State) (k : Nat),
     (k < 4) ∧
     (gpioCode s (8 + k) = 3)) ∧
  (∃ (k : Nat),
     (k < 4)) ∧
  (∃ (s : State) (k : Nat) (level : Nat),
     (k < 8) ∧
     (level < 3) ∧
     (s.phase ≠ Phase.off) ∧
     (s.kpr.forcing = none) ∧
     (level = 0 → mergeSlot s (176 + k) = none)) ∧
  (∃ (s : State),
     (fget s PWR_AVS_CTL_MODE = 1) ∧
     (fget s PWR_STATUS_BUS_FAIL = 0) ∧
     (s.pwr.avsPending = none) ∧
     (fget s BLS_STATUS_BROWNOUT = 0) ∧
     (minPace s < fget s PWR_AVS_PACE_PACE_LO) ∧
     (fget s PWR_STATUS_VCMD < fget s PWR_AVS_LIMIT_VMAX)) ∧
  (∃ (s : State),
     (fget s PWR_AVS_CTL_MODE = 1) ∧
     (fget s PWR_STATUS_BUS_FAIL = 0) ∧
     (s.pwr.avsPending = none) ∧
     (fget s BLS_STATUS_BROWNOUT = 0) ∧
     (fget s PWR_AVS_PACE_PACE_LO ≤ minPace s) ∧
     (fget s PWR_AVS_PACE_PACE_HI < minPace s) ∧
     (fget s PWR_AVS_LIMIT_VMIN < fget s PWR_STATUS_VCMD)) ∧
  (∃ (s : State),
     (fget s PWR_AVS_CTL_MODE = 1) ∧
     (fget s PWR_STATUS_BUS_FAIL = 0) ∧
     (s.pwr.avsPending = none) ∧
     (fget s BLS_STATUS_BROWNOUT = 0) ∧
     (fget s PWR_AVS_PACE_PACE_LO ≤ minPace s) ∧
     (minPace s ≤ fget s PWR_AVS_PACE_PACE_HI)) ∧
  (∃ (s : State),
     (fget s PWR_STATUS_BUS_FAIL = 0)) ∧
  (∃ (s : State) (mv : Nat),
     (s.pwr.avsPending = some mv)) ∧
  (∃ (s : State) (mv : Nat),
     (s.pwr.avsPending = some mv) ∧
     (2 ≤ s.pwr.avsRetry)) ∧
  (∃ (s : State),
     (fget s PWR_STATUS_BUS_FAIL = 1) ∧
     (fget s PWR_AVS_CTL_MODE = 0)) :=
  ⟨⟨2, by decide +kernel⟩,
   ⟨rset sv 0x104 3, 0, by decide +kernel⟩,
   ⟨3, by decide +kernel⟩,
   ⟨sv, 7, 0, by decide +kernel⟩,
   ⟨fset (fset (fset sv PWR_AVS_CTL_MODE 1) PWR_AVS_PACE_PACE_LO 5) PWR_AVS_PACE_PACE_HI 6, by decide +kernel⟩,
   ⟨[0, 1, 2,
     3].foldl (fun s i => fset s (MSR_PACE_PACE.ix i 4) 9) (fset (fset (fset sv PWR_AVS_CTL_MODE 1) PWR_AVS_PACE_PACE_LO 0) PWR_AVS_PACE_PACE_HI 5), by decide +kernel⟩,
   ⟨fset (fset (fset sv PWR_AVS_CTL_MODE 1) PWR_AVS_PACE_PACE_LO 0) PWR_AVS_PACE_PACE_HI 0xFFFF, by decide +kernel⟩,
   ⟨sv, by decide +kernel⟩,
   ⟨{ sv with pwr := { avsPending := some 800 } }, 800, by decide +kernel⟩,
   ⟨{ sv with pwr := { avsPending := some 800, avsRetry := 2 } }, 800, by decide +kernel⟩,
   ⟨fset (fset sv PWR_STATUS_BUS_FAIL 1) PWR_AVS_CTL_MODE 0, by decide +kernel⟩⟩

theorem hyps_portAndHostAccesses :
  (∃ (s : State) (off : Nat) (v : Word) (ok : Bool) (r : RegAt),
     (PlainWrite s Accessor.mgt off v ok r) ∧
     (mgtStatus s off true = 0) ∧
     (∀ f ∈ r.reg.fields, inRsv (bitsGet v f.lo f.w) f.rsv = false)) ∧
  (∃ (s : State) (off : Nat),
     (s.phase ≠ Phase.off) ∧
     (mgtStatus s off true ≠ 0)) ∧
  (∃ (s : State) (off : Nat) (r : RegAt) (w : Word),
     (s.phase ≠ Phase.off) ∧
     (mgtStatus s off false = 0) ∧
     (locate s Accessor.mgt off = some r) ∧
     (isLo r.key = false) ∧
     (isHi r.key = false) ∧
     (∀ f ∈ r.reg.fields, f.acc ≠ Access.rc) ∧
     (liveWord s Accessor.mgt r.key = (w, s))) ∧
  (∃ (s : State) (off : Nat),
     (s.phase ≠ Phase.off) ∧
     (mgtStatus s off false ≠ 0)) ∧
  (∃ (s : State),
     (s.phase ≠ Phase.off)) ∧
  (∃ (s : State) (sd : Option Nat),
     (s.phase ≠ Phase.off) ∧
     (sd = none ∨ sd = some (mgtStatic s))) ∧
  (∃ (s : State) (p : Nat) (n : Nat) (off : Nat) (bs : List Byte),
     (off % 4 = 0) ∧
     (bs.length = 4) ∧
     (off + 4 ≤ if n = 0 then 134217728 else 65536) ∧
     (reaches s (Accessor.fn p n) = true)) ∧
  (∃ (s : State) (p : Nat) (n : Nat) (off : Nat),
     (off % 4 = 0) ∧
     (off + 4 ≤ if n = 0 then 134217728 else 65536) ∧
     (reaches s (Accessor.fn p n) = true)) ∧
  (∃ (s : State) (p : Nat) (n : Nat) (bar : Nat) (off : Nat) (len : Nat),
     (reaches s (Accessor.fn p n) = true) ∧
     (bar ≠ 0 ∧ bar ≠ 2 ∨ bar = 0 ∧ 64 < len ∨ bar = 0 ∧ (if n = 0 then 134217728 else 65536) < off + len)) ∧
  (∃ (s : State) (p : Nat) (n : Nat) (off : Nat) (len : Nat),
     (fnId p n = ctlFid s) ∧
     (off + len ≤ 16777216)) :=
  ⟨⟨sv, 0x1400004, 5, false, _, ⟨⟨by decide +kernel, by decide +kernel, trivial⟩, by decide, rfl, by decide +kernel,
    by decide +kernel, by decide +kernel, by decide +kernel, by decide +kernel, rfl, fun _ => ⟨rfl, rfl, rfl⟩,
    fun _ _ => rfl, by decide +kernel⟩, by decide +kernel, by decide +kernel⟩,
   ⟨sv, 0x8000000, by decide +kernel⟩,
   ⟨sv, 0, _, _, by decide +kernel, by decide +kernel, rfl, by decide +kernel, by decide +kernel, by decide +kernel,
     rfl⟩,
   ⟨sv, 0x8000000, by decide +kernel⟩,
   ⟨sv, by decide +kernel⟩,
   ⟨sv, none, by decide +kernel⟩,
   ⟨pt sv, 0, 0, 0, [0, 0, 0, 0], by decide +kernel⟩,
   ⟨pt sv, 0, 0, 0, by decide +kernel⟩,
   ⟨pt sv, 0, 0, 1, 0, 0, by decide +kernel⟩,
   ⟨iv, 0, 0, 0, 4, by decide +kernel⟩⟩

theorem hyps_readAndVerify :
  (∃ (s : State) (n : Nat) (c : Cmd) (bad : List BadBlock),
     (running s n 2 = some c) ∧
     (earlierChange s n c = false) ∧
     (spanStatus (readSpan s c.tenant c.sqe.nsid (cmdNs s c).pool c.sqe.slba (c.sqe.nlb + 1) bad) = 0)) ∧
  (∃ (s : State) (n : Nat) (c : Cmd) (bad : List BadBlock),
     (running s n 12 = some c) ∧
     (earlierChange s n c = false) ∧
     (spanStatus (readSpan s c.tenant c.sqe.nsid (cmdNs s c).pool c.sqe.slba (c.sqe.nlb + 1) bad) = 0)) ∧
  (∃ (s : State) (n : Nat) (c : Cmd) (bad : List BadBlock),
     (running s n 2 = some c) ∧
     (earlierChange s n c = false) ∧
     (spanStatus (readSpan s c.tenant c.sqe.nsid (cmdNs s c).pool c.sqe.slba (c.sqe.nlb + 1) bad) ≠ 0)) ∧
  (∃ (s : State) (n : Nat) (c : Cmd),
     (running s n 2 = some c) ∧
     (earlierChange s n c = true)) :=
  ⟨⟨cm (own (up sv)) (io 2), 5, io 2, [], by decide +kernel⟩,
   ⟨cm (own (up sv)) (io 12), 5, io 12, [], by decide +kernel⟩,
   ⟨cm ({ own (up sv) with udc := { gran := [(granKey 0 1 0, { kind := 3 })] } }) (io 2), 5, io 2, [],
     by decide +kernel⟩,
   ⟨{ own sv with cmds := [(4, io 1), (5, io 2)] }, 5, io 2, by decide +kernel⟩⟩

theorem hyps_readsAndPairs :
  (∃ (s : State) (a : Accessor) (off : Nat) (r : RegAt) (w : Word),
     (OpenAt s a (off / 4 * 4)) ∧
     (locate s a (off / 4 * 4) = some r) ∧
     (r.who.reads = true) ∧
     (isLo r.key = false) ∧
     (isHi r.key = false) ∧
     (liveWord s a r.key = (w, s)) ∧
     (r.key ∉ [14680096, 14680100, 20971588])) ∧
  (∃ (s : State) (a : Accessor) (off : Nat) (r : RegAt) (w : Word),
     (OpenAt s a (off / 4 * 4)) ∧
     (locate s a (off / 4 * 4) = some r) ∧
     (r.who.reads = true) ∧
     (isLo r.key = true) ∧
     (liveWord s a r.key = (w, s))) ∧
  (∃ (s : State) (a : Accessor) (off : Nat) (r : RegAt) (w : Word) (x : Word),
     (OpenAt s a (off / 4 * 4)) ∧
     (locate s a (off / 4 * 4) = some r) ∧
     (r.who.reads = true) ∧
     (isLo r.key = false) ∧
     (isHi r.key = true) ∧
     (liveWord s a r.key = (w, s)) ∧
     ((heldOf s a (r.key - 4)).capHi = some x)) ∧
  (∃ (s : State) (a : Accessor) (off : Nat) (r : RegAt) (w : Word),
     (OpenAt s a (off / 4 * 4)) ∧
     (locate s a (off / 4 * 4) = some r) ∧
     (r.who.reads = true) ∧
     (isLo r.key = false) ∧
     (isHi r.key = true) ∧
     (liveWord s a r.key = (w, s)) ∧
     ((heldOf s a (r.key - 4)).capHi = none)) ∧
  (∃ (s : State) (a : Accessor) (off : Nat) (r : RegAt),
     (OpenAt s a (off / 4 * 4)) ∧
     (locate s a (off / 4 * 4) = some r) ∧
     (r.who.writes = true) ∧
     (unitOff s r.key = false) ∧
     (isLo r.key = true) ∧
     (loRefused s r.key = false)) ∧
  (∃ (s : State) (a : Accessor) (off : Nat) (lo : Word) (r : RegAt),
     (OpenAt s a (off / 4 * 4)) ∧
     (locate s a (off / 4 * 4) = some r) ∧
     (r.who.writes = true) ∧
     (unitOff s r.key = false) ∧
     (isLo r.key = false) ∧
     (isHi r.key = true) ∧
     (loRefused s (r.key - 4) = false) ∧
     ((heldOf s a (r.key - 4)).wrLo = some lo)) ∧
  (∃ (s : State) (a : Accessor) (off : Nat) (r : RegAt),
     (OpenAt s a (off / 4 * 4)) ∧
     (locate s a (off / 4 * 4) = some r) ∧
     (r.who.writes = true) ∧
     (unitOff s r.key = false) ∧
     (isLo r.key = false) ∧
     (isHi r.key = true) ∧
     (loRefused s (r.key - 4) = false) ∧
     ((heldOf s a (r.key - 4)).wrLo = none)) :=
  ⟨⟨sv, .mgt, 0, _, _, ⟨by decide +kernel, by decide +kernel, trivial⟩, rfl, by decide +kernel, by decide +kernel,
    by decide +kernel, rfl, by decide +kernel⟩,
   ⟨iv, .mgt, 0x1602004, _, _, ⟨by decide +kernel, by decide +kernel, trivial⟩, rfl, by decide +kernel,
     by decide +kernel, rfl⟩,
   ⟨{ iv with held := [{ who := .mgt, lo := 0x1602004, capHi := some 7 }] }, .mgt, 0x1602008, _, _, 7,
     ⟨by decide +kernel, by decide +kernel, trivial⟩, rfl, by decide +kernel, by decide +kernel, by decide +kernel,
     rfl, by decide +kernel⟩,
   ⟨iv, .mgt, 0x1602008, _, _, ⟨by decide +kernel, by decide +kernel, trivial⟩, rfl, by decide +kernel,
     by decide +kernel, by decide +kernel, rfl, by decide +kernel⟩,
   ⟨pt iv, .fn 0 0, 0x200808, _, ⟨by decide +kernel, by decide +kernel, by decide +kernel⟩, rfl, by decide +kernel,
     by decide +kernel, by decide +kernel, by decide +kernel⟩,
   ⟨{ pt iv with held := [{ who := .fn 0 0, lo := 0x200808, wrLo := some 7 }] }, .fn 0 0, 0x20080C, 7, _,
     ⟨by decide +kernel, by decide +kernel, by decide +kernel⟩, rfl, by decide +kernel, by decide +kernel,
     by decide +kernel, by decide +kernel, by decide +kernel, by decide +kernel⟩,
   ⟨pt iv, .fn 0 0, 0x20080C, _, ⟨by decide +kernel, by decide +kernel, by decide +kernel⟩, rfl, by decide +kernel,
     by decide +kernel, by decide +kernel, by decide +kernel, by decide +kernel, by decide +kernel⟩⟩

theorem hyps_rebuildCollectSettle :
  (∃ (s : State) (disk : Bool) (m : Nat) (seg : Nat),
     (m < 32) ∧
     ((getSeg s disk seg).state = 2) ∧
     ((getSeg s disk seg).members.contains m = true)) ∧
  (∃ (s : State) (u : State) (disk : Bool) (i : Nat) (bad : List BadBlock),
     (rebuildNext s disk = some i) ∧
     (prevIn s disk i = false) ∧
     (relocate s disk i bad = some u)) ∧
  (∃ (s : State) (u : State) (disk : Bool) (i : Nat) (bad : List BadBlock),
     (gcRuns s disk = true) ∧
     (gcNext s disk = some i) ∧
     (relocate s disk i bad = some u)) ∧
  (∃ (s : State) (u : State) (n : Nat) (k : Nat) (x : Nat) (pool : Nat) (id : GranId) (clens : List Nat) (bad : List BadBlock),
     (extentId s n k x = some (id, pool)) ∧
     (0 < pool) ∧
     ((getExt s n k x).kind ≠ 2) ∧
     (extentDue s (getExt s n k x) = true) ∧
     (extentMoving s id = false) ∧
     (rewriteExtent (markUnreadable s id pool bad) 3 id pool clens bad = some u)) ∧
  (∃ (s : State) (u : State) (n : Nat) (k : Nat) (x : Nat) (id : GranId) (clens : List Nat) (bad : List BadBlock),
     (extentId s n k x = some (id, 2)) ∧
     (extentMoving s id = false) ∧
     (shareAbove s (image s).pools.settleHi = true) ∧
     (coldest s (getExt s n k x) = true) ∧
     (rewriteExtent (markUnreadable (modUdc s fun u => { gran := u.gran, ext := u.ext, slots := u.slots, age := u.age, segs := u.segs, open_ := u.open_, release := u.release, releaseReady := u.releaseReady, erase := u.erase, eraseReady := u.eraseReady, formatNext := u.formatNext, log := u.log, unsaved := u.unsaved, ckptLatch := u.ckptLatch, ckptFrom := u.ckptFrom, ckptNs := u.ckptNs, reshape := u.reshape, fgeom := u.fgeom, dgeom := u.dgeom, mediaErr := u.mediaErr, settling := true, dramSlots := u.dramSlots, poolDown := u.poolDown, undo := u.undo, resynced := u.resynced }) id 2 bad) 4 id 2 clens bad = some u)) ∧
  (∃ (s : State) (u : State) (n : Nat) (k : Nat) (x : Nat) (id : GranId) (bad : List BadBlock),
     (extentId s n k x = some (id, 2)) ∧
     (extentMoving s id = false) ∧
     (shareAbove s (image s).pools.settleHi = false) ∧
     ((getExt s n k x).kind = 1) ∧
     ((image s).pools.hotT ≤ (getExt s n k x).heat) ∧
     (shareHasRoom s = true) ∧
     (moveUp (modUdc s fun u => { gran := u.gran, ext := u.ext, slots := u.slots, age := u.age, segs := u.segs, open_ := u.open_, release := u.release, releaseReady := u.releaseReady, erase := u.erase, eraseReady := u.eraseReady, formatNext := u.formatNext, log := u.log, unsaved := u.unsaved, ckptLatch := u.ckptLatch, ckptFrom := u.ckptFrom, ckptNs := u.ckptNs, reshape := u.reshape, fgeom := u.fgeom, dgeom := u.dgeom, mediaErr := u.mediaErr, settling := s.udc.settling && shareAbove s (image s).pools.settleLo, dramSlots := u.dramSlots, poolDown := u.poolDown, undo := u.undo, resynced := u.resynced }) id 2 bad = some u)) ∧
  (∃ (s : State),
     ((List.map (fun x => x.1) s.udc.ext).Nodup)) ∧
  (∃ (s : State) (c : Nat),
     ((dramLive s).contains c = true)) :=
  ⟨⟨{ sv with udc := { segs := [(0, { state := 2, members := [3] })] } }, false, 3, 0, by decide +kernel⟩,
   ⟨{ iv with udc := { segs := [(0, { state := 2, members := [3], lost := [3] })] } }, _, false, 0, [],
     by decide +kernel, by decide +kernel, rfl⟩,
   ⟨{ iv with udc := { segs := [(0, { state := 2, members := [3], asked := true })] } }, _, false, 0, [],
     by decide +kernel, by decide +kernel, rfl⟩,
   by
      obtain ⟨u, h⟩ := Option.isSome_iff_exists.mp (show (rewriteExtent (markUnreadable (hyb { ovr := [(0, (0, { kind := 1 }))] } { img1 with pools := { destageOvr := 1 } }) { ns := 1 } 2 []) 3 { ns := 1 } 2 [] []).isSome = true by decide +kernel)
      exact ⟨hyb { ovr := [(0, (0, { kind := 1 }))] } { img1 with pools := { destageOvr := 1 } }, u, 0, 1, 0, 2,
        { ns := 1 }, [], [], by decide +kernel, by decide +kernel, by decide +kernel, by decide +kernel,
        by decide +kernel, h⟩,
   by
      obtain ⟨u, h⟩ := Option.isSome_iff_exists.mp (show (rewriteExtent (markUnreadable (modUdc (hyb { kind := 2 } { img1 with pools := { hybFlash := 256, settleHi := 50 } }) fun u => { u with settling := true }) { ns := 1 } 2 []) 4 { ns := 1 } 2 [] []).isSome = true by decide +kernel)
      exact ⟨hyb { kind := 2 } { img1 with pools := { hybFlash := 256, settleHi := 50 } }, u, 0, 1, 0, { ns := 1 }, [],
        [], by decide +kernel, by decide +kernel, by decide +kernel, by decide +kernel, h⟩,
   by
      obtain ⟨u, h⟩ := Option.isSome_iff_exists.mp (show (moveUp (modUdc (hyb { kind := 1, heat := 100 } { img1 with pools := { hybFlash := 256, settleHi := 50 } }) fun u => { u with settling := (hyb { kind := 1, heat := 100 } { img1 with pools := { hybFlash := 256, settleHi := 50 } }).udc.settling && shareAbove (hyb { kind := 1, heat := 100 } { img1 with pools := { hybFlash := 256, settleHi := 50 } }) (image (hyb { kind := 1, heat := 100 } { img1 with pools := { hybFlash := 256, settleHi := 50 } })).pools.settleLo }) { ns := 1 } 2 []).isSome = true by decide +kernel)
      exact ⟨hyb { kind := 1, heat := 100 } { img1 with pools := { hybFlash := 256, settleHi := 50 } }, u, 0, 1, 0,
        { ns := 1 }, [], by decide +kernel, by decide +kernel, by decide +kernel, by decide +kernel, by decide +kernel,
        by decide +kernel, h⟩,
   ⟨sv, by decide +kernel⟩,
   ⟨iv, 0, by decide +kernel⟩⟩

theorem hyps_recordsSignalsTally :
  (∃ (s : State) (rseq : Nat) (i : Nat),
     (findRec s rseq = some i)) ∧
  (∃ (s : State) (rseq : Nat) (i : Nat),
     (findRec s rseq = some i) ∧
     (fget s (recClass i) = 1 ∨ fget s (recClass i) = 2 ∧ fget s (recCover i) = 1 ∧ fget s KPR_CTL_CONT_WIN ≠ 0)) ∧
  (∃ (s : State) (rseq : Nat) (i : Nat),
     (findRec s rseq = some i) ∧
     (fget s (recClass i) = 2) ∧
     (fget s (recCover i) = 0)) ∧
  (∃ (s : State) (v : Word) (i : Nat),
     (bitsGet v 16 1 = 0) ∧
     ((openRseqs s).contains (bitsGet v 0 16) = true) ∧
     (findRec s (bitsGet v 0 16) = some i)) ∧
  (∃ (v : Word),
     (bitsGet v 16 1 = 1)) ∧
  (∃ (s : State) (v : Word),
     (∀ k < 6,
       (bitsGet v 0 6).testBit k = true → fbit s KPR_IRQ_EN_EN k = false → fbit s KPR_IRQ_STAT_CAUSE k = false)) ∧
  (∃ (s : State) (v : Word) (k : Nat),
     (k < 6) ∧
     ((bitsGet v 0 6).testBit k = true) ∧
     (fbit s KPR_IRQ_EN_EN k = false) ∧
     (fbit s KPR_IRQ_STAT_CAUSE k = true) ∧
     ((getFn s (ctlFid s)).msixEn = true) ∧
     ((getFn s (ctlFid s)).teardown = 0) ∧
     ((getFn s (ctlFid s)).msixMask = false) ∧
     ((tget { } (getFn s (ctlFid s)).vectors 0).masked = false) ∧
     ((getFn s (ctlFid s)).live = true)) ∧
  (∃ (s : State),
     (tallies s = true)) ∧
  (∃ (s : State) (q : Nat) (parts : List Nat) (pool : Nat),
     (s.kpr.tallyRunning = true) ∧
     (q < 8) ∧
     (parts.sum ≠ pool)) ∧
  (∃ (s : State) (q : Nat),
     (s.kpr.tallyRunning = true) ∧
     (q < 8)) ∧
  (∃ (s : State) (q : Nat) (inst : Nat) (parts : List Nat) (pool : Nat),
     ((q, inst) ∈ s.kpr.mismatch) ∧
     (parts.sum = pool)) ∧
  (∃ (s : State) (q : Nat) (inst : Nat) (parts : List Nat) (pool : Nat),
     ((q, inst) ∈ s.kpr.mismatch) ∧
     (parts.sum ≠ pool) ∧
     (q ∈ [0, 6, 7])) :=
  ⟨⟨rk 1, 7, 0, by decide +kernel⟩,
   ⟨rk 1, 7, 0, by decide +kernel⟩,
   ⟨rk 2, 7, 0, by decide +kernel⟩,
   ⟨rk 1, 7, 0, by decide +kernel⟩,
   ⟨0x10000, by decide +kernel⟩,
   ⟨sv, 0, by decide +kernel⟩,
   ⟨{ fset (fset iv KPR_IRQ_STAT_CAUSE 1) KPR_IRQ_EN_EN 0 with fns := [(0, { bme := true, msixEn := true, vectors := [(0, { masked := false })] })] }, 1, 0, by decide +kernel⟩,
   ⟨sv, by decide +kernel⟩,
   ⟨{ sv with kpr := { tallyRunning := true } }, 0, [1], 0, by decide +kernel⟩,
   ⟨{ sv with kpr := { tallyRunning := true } }, 0, by decide +kernel⟩,
   ⟨{ sv with kpr := { mismatch := [(0, 0)] } }, 0, 0, [], 0, by decide +kernel⟩,
   ⟨{ sv with kpr := { mismatch := [(0, 0)] } }, 0, 0, [1], 0, by decide +kernel⟩⟩

theorem hyps_registerWrites :
  (∃ (s : State) (rsv : Fld) (k : Nat) (v : Word) (f : FieldDesc),
     (f.lo + f.w ≤ 32) ∧
     (rsv.off ≠ k) ∧
     (rsv.w = 1) ∧
     (rsv.lo < 32) ∧
     (f.acc = Access.rw ∨ f.acc = Access.rws) ∧
     ((inRsv (bitsGet v f.lo f.w) f.rsv || stateRsv s k v f) = false)) ∧
  (∃ (s : State) (rsv : Fld) (k : Nat) (v : Word) (f : FieldDesc),
     (f.lo + f.w ≤ 32) ∧
     (rsv.off ≠ k) ∧
     (rsv.w = 1) ∧
     (rsv.lo < 32) ∧
     (f.acc = Access.rw ∨ f.acc = Access.rws) ∧
     ((inRsv (bitsGet v f.lo f.w) f.rsv || stateRsv s k v f) = true)) ∧
  (∃ (rsv : Fld) (k : Nat) (f : FieldDesc) (b : Nat),
     (f.lo + f.w ≤ 32) ∧
     (rsv.off ≠ k) ∧
     (rsv.w = 1) ∧
     (rsv.lo < 32) ∧
     (f.acc = Access.w1c) ∧
     (b < f.w)) ∧
  (∃ (rsv : Fld) (k : Nat) (f : FieldDesc),
     (f.lo + f.w ≤ 32) ∧
     (rsv.off ≠ k) ∧
     (rsv.w = 1) ∧
     (rsv.lo < 32) ∧
     (f.acc = Access.ro ∨ f.acc = Access.wo ∨ f.acc = Access.rc)) ∧
  (∃ (s : State) (a : Accessor) (off : Nat) (v : Word) (ok : Bool) (r : RegAt),
     (PlainWrite s a off v ok r)) ∧
  (∃ (s : State) (a : Accessor) (off : Nat) (bytes : Nat) (r : RegAt),
     (OpenAt s a off) ∧
     (locate s a (off / 4 * 4) = some r) ∧
     (r.who.writes = true) ∧
     (bytes ≠ 4 ∨ off % 4 ≠ 0)) ∧
  (∃ (s : State) (p : Nat) (n : Nat) (off : Nat) (r : RegAt),
     (OpenAt s (Accessor.fn p n) off) ∧
     (locate s (Accessor.fn p n) (off / 4 * 4) = some r) ∧
     (r.who.writes = false) ∧
     (n = 0 ∨ (decide (4194304 ≤ r.key) && decide (r.key < 4325376)) = false)) :=
  ⟨⟨sv, ⟨0x1400000, 0, 1⟩, 0x1400004, 5, { name := "", lo := 0, w := 8, acc := .rw, reset := 0 }, by decide +kernel⟩,
   ⟨sv, ⟨0x1400000, 0, 1⟩, 0x1400004, 0, { name := "", lo := 0, w := 8, acc := .rw, reset := 0, rsv := [(0, 0)] },
     by decide +kernel⟩,
   ⟨⟨0x1400000, 0, 1⟩, 0x1400004, { name := "", lo := 0, w := 8, acc := .w1c, reset := 0 }, 7, by decide +kernel⟩,
   ⟨⟨0x1400000, 0, 1⟩, 0x1400004, { name := "", lo := 0, w := 8, acc := .ro, reset := 0 }, by decide +kernel⟩,
   ⟨sv, .mgt, 0x1400004, 5, false, _, ⟨⟨by decide +kernel, by decide +kernel, trivial⟩, by decide, rfl,
     by decide +kernel, by decide +kernel, by decide +kernel, by decide +kernel, by decide +kernel, rfl, fun _ => ⟨rfl,
     rfl, rfl⟩, fun _ _ => rfl, by decide +kernel⟩⟩,
   ⟨sv, .mgt, 0x1400004, 2, _, ⟨by decide +kernel, by decide +kernel, trivial⟩, rfl, by decide +kernel,
     by decide +kernel⟩,
   ⟨pt iv, 0, 0, 0, _, ⟨by decide +kernel, by decide +kernel, by decide +kernel⟩, rfl, by decide +kernel,
     by decide +kernel⟩⟩

theorem hyps_renderJobs :
  (∃ (s : State) (j : RenderJob) (i : Instr) (op : Nat),
     (s.rnd.queue.length < 64) ∧
     ((i, op) ∈ [(Instr.compress j, 1), (Instr.decompress j, 2), (Instr.renderResume j, 3), (Instr.renderFree j, 4)])) ∧
  (∃ (s : State) (it : RndItem) (rest : List RndItem) (e : Nat),
     (s.rnd.queue = it :: rest) ∧
     (rndPick s it.skip = some e) ∧
     (jobCheck s it.job = 0)) ∧
  (∃ (s : State) (it : RndItem) (rest : List RndItem) (e : Nat),
     (s.rnd.queue = it :: rest) ∧
     (rndPick s it.skip = some e) ∧
     (jobCheck s it.job ≠ 0) ∧
     (it.job.flow = none)) ∧
  (∃ (s : State) (e : Nat) (it : RndItem),
     (rndEngine s e = some it) ∧
     (it.job.op = 4)) ∧
  (∃ (s : State) (e : Nat) (it : RndItem) (out : List Byte),
     (rndEngine s e = some it) ∧
     (it.job.op = 1) ∧
     (it.job.ctx = 0) ∧
     (it.job.final = true) ∧
     (out = List.map (BitVec.ofNat 8) (Config.deflate (List.map (fun x => BitVec.toNat x) (memRead s.trw.sram it.job.inAddr it.job.inLen)) [] it.job.depth it.job.zlib true))) ∧
  (∃ (s : State) (e : Nat) (it : RndItem) (plain : List Byte),
     (rndEngine s e = some it) ∧
     (it.job.op = 2) ∧
     (it.job.ctx = 0) ∧
     (inflate it.job.zlib (memRead s.trw.sram it.job.inAddr it.job.inLen) = (InfStop.ended, plain)) ∧
     (plain.length ≤ it.job.outLen) ∧
     (it.job.expect = 0 ∨ it.job.expect = plain.length)) ∧
  (∃ (s : State) (e : Nat) (it : RndItem),
     (e < 8) ∧
     (rndEngine s e = some it) ∧
     (it.job.op = 1) ∧
     (it.retried = false)) ∧
  (∃ (s : State) (e : Nat) (it : RndItem) (kat : Bool),
     (e < 8) ∧
     (rndEngine s e = some it) ∧
     (it.job.op = 1) ∧
     (it.retried = true) ∧
     (kat = true)) ∧
  (∃ (s : State) (e : Nat),
     (rndServes s e = true) ∧
     (rndEngine s e = none)) :=
  ⟨⟨iv, {}, .compress {}, 1, by decide +kernel⟩,
   ⟨rq { job := { depth := 4 } }, { job := { depth := 4 } }, [], 0, by decide +kernel⟩,
   ⟨rq { job := { depth := 4, rsvd := true } }, { job := { depth := 4, rsvd := true } }, [], 0, by decide +kernel⟩,
   ⟨re { job := { op := 4 } }, 0, { job := { op := 4 } }, by decide +kernel⟩,
   ⟨re { job := { depth := 4 } }, 0, { job := { depth := 4 } }, _, by decide +kernel, by decide +kernel,
     by decide +kernel, by decide +kernel, rfl⟩,
   ⟨(fun s => { s with trw := { s.trw with sram := [(0, 3)] } }) (re { job := { op := 2, inLen := 2 } }), 0,
     { job := { op := 2, inLen := 2 } }, [], by decide +kernel⟩,
   ⟨re { job := {} }, 0, { job := {} }, by decide +kernel⟩,
   ⟨re { job := {}, retried := true }, 0, { job := {}, retried := true }, true, by decide +kernel⟩,
   ⟨fset iv RND_STATUS_IN_SERVICE 1, 0, by decide +kernel⟩⟩

theorem hyps_reportsEnterRecords :
  (∃ (s : State) (r : Report),
     (s.phase ≠ Phase.off) ∧
     (s.kpr.forcing ≠ some r.src) ∧
     (r.cls = Cls.corrected → mergeSlot s r.src = none) ∧
     (classOf s r ≠ Cls.corrected) ∧
     (s.phase ≠ Phase.safe) ∧
     (s.phase ≠ Phase.beacon) ∧
     (r.region.getD (sourceRegion r.src) ≠ Region.none)) ∧
  (∃ (s : State) (r : Report) (k : Nat),
     (s.phase ≠ Phase.off) ∧
     (s.kpr.forcing ≠ some r.src) ∧
     (r.cls = Cls.corrected → mergeSlot s r.src = none) ∧
     (k < 20971520 ∨ 22020176 ≤ k)) ∧
  (∃ (s : State) (r : Report) (i : Nat),
     (s.phase ≠ Phase.off) ∧
     (s.kpr.forcing ≠ some r.src) ∧
     (r.forced = false) ∧
     (r.cls = Cls.corrected) ∧
     (mergeSlot s r.src = some i)) ∧
  (∃ (s : State) (src : Nat) (c : Cls),
     (s.phase ≠ Phase.off) ∧
     (ReportsOnly s src) ∧
     (sourceClass src = some c) ∧
     (s.kpr.forcing ≠ some src)) ∧
  (∃ (v : Word),
     (bitsGet v 16 16 = 49374) ∧
     ((sourceClass (bitsGet v 0 12)).isSome = true)) ∧
  (∃ (v : Word),
     (bitsGet v 16 16 ≠ 49374 ∨ sourceClass (bitsGet v 0 12) = none)) ∧
  (∃ (s : State) (src : Nat) (c : Cls),
     (s.phase ≠ Phase.off) ∧
     (ReportsOnly s src) ∧
     (sourceClass src = some c) ∧
     (tget false s.kpr.force src = true) ∧
     (c = Cls.corrected → mergeSlot s src = none)) :=
  ⟨⟨sv, { src := 0x180, cls := .contained }, by decide +kernel⟩,
   ⟨sv, { src := 1, cls := .corrected }, 0, by decide +kernel⟩,
   ⟨rk 1, { src := 1, cls := .corrected }, 0, by decide +kernel⟩,
   ⟨sv, 1, .corrected, by unfold ReportsOnly; decide +kernel⟩,
   ⟨0xC0DE0001, by decide +kernel⟩,
   ⟨0, by decide +kernel⟩,
   ⟨{ sv with kpr := { force := [(1, true)] } }, 1, .corrected, by unfold ReportsOnly; decide +kernel⟩⟩

theorem hyps_reservedEncodingIsNotStored :
  (∃ (s : State) (a : Accessor) (off : Nat) (v : Word) (ok : Bool) (r : RegAt),
     (PlainWrite s a off v ok r)) :=
  ⟨sv, .mgt, 0x1400004, 5, false, _, ⟨⟨by decide +kernel, by decide +kernel, trivial⟩, by decide, rfl,
    by decide +kernel, by decide +kernel, by decide +kernel, by decide +kernel, by decide +kernel, rfl, fun _ => ⟨rfl,
    rfl, rfl⟩, fun _ _ => rfl, by decide +kernel⟩⟩

theorem hyps_resetsAndSafeByCommand :
  (∃ (s : State),
     (s.phase ≠ Phase.off)) ∧
  (∃ (s : State),
     (s.phase = Phase.off)) ∧
  (∃ (s : State) (i : Instr) (cause : Nat),
     ((i, cause) ∈ [(Instr.warmRstPin, 2), (Instr.warmReset false, 3), (Instr.warmReset true, 4)]) ∧
     (s.rst.warm = none) ∧
     (s.rst.warmLatched = none) ∧
     (s.phase ∈ [Phase.loading, Phase.selftest, Phase.discovery, Phase.beacon])) ∧
  (∃ (s : State) (i : Instr) (cause : Nat),
     ((i, cause) ∈ [(Instr.warmRstPin, 2), (Instr.warmReset false, 3), (Instr.warmReset true, 4)]) ∧
     (s.rst.warm = none) ∧
     (s.rst.warmLatched = none) ∧
     (s.phase = Phase.ballast)) ∧
  (∃ (s : State) (i : Instr) (cause : Nat),
     ((i, cause) ∈ [(Instr.warmRstPin, 2), (Instr.warmReset false, 3), (Instr.warmReset true, 4)]) ∧
     (s.rst.warm = none) ∧
     (s.rst.warmLatched = none) ∧
     (s.phase ∈ [Phase.bringup, Phase.serving, Phase.degraded])) ∧
  (∃ (s : State) (i : Instr),
     (i ∈ [Instr.warmRstPin, Instr.warmReset false, Instr.warmReset true]) ∧
     (s.rst.warm.isSome = true)) ∧
  (∃ (s : State) (c : Nat),
     (s.rst.warm = some c) ∧
     (s.bls.mode = 0) ∧
     (headsOut s = false)) ∧
  (∃ (s : State),
     (decidesSafe s)) ∧
  (∃ (s : State),
     (s.phase = Phase.ballast) ∧
     (s.rst.warm = none)) ∧
  (∃ (s : State),
     (s.phase ∈ [Phase.off, Phase.safe, Phase.beacon])) :=
  ⟨⟨sv, by decide +kernel⟩,
   ⟨State.reset, by decide +kernel⟩,
   ⟨ph .loading, .warmRstPin, 2, by decide +kernel⟩,
   ⟨ph .ballast, .warmReset false, 3, by decide +kernel⟩,
   ⟨sv, .warmReset true, 4, by decide +kernel⟩,
   ⟨{ sv with rst := { warm := some 3 } }, .warmRstPin, by decide +kernel⟩,
   ⟨{ sv with rst := { warm := some 3 } }, 3, by decide +kernel⟩,
   ⟨sv, by unfold decidesSafe; decide +kernel⟩,
   ⟨ph .ballast, by decide +kernel⟩,
   ⟨ph .safe, by decide +kernel⟩⟩

theorem hyps_reshapeAndCheckpoints :
  (∃ (v : Word),
     (bitsGet v 14 1 = 1) ∧
     (bitsGet v 16 16 ≠ 49374)) ∧
  (∃ (s : State) (v : Word) (k : Nat),
     (bitsGet v 14 1 = 1) ∧
     (bitsGet v 16 16 = 49374) ∧
     (k ≠ 1) ∧
     (reshapeJudge (fset s UDC_RESHAPE_CTL_POOL (bitsGet v 0 1)) (bitsGet v 0 1 == 1) (fget s UDC_RESHAPE_MEMB_MASK) = k)) ∧
  (∃ (s : State) (v : Word),
     (bitsGet v 14 1 = 1) ∧
     (bitsGet v 16 16 = 49374) ∧
     (reshapeJudge (fset s UDC_RESHAPE_CTL_POOL (bitsGet v 0 1)) (bitsGet v 0 1 == 1) (fget s UDC_RESHAPE_MEMB_MASK) = 1)) ∧
  (∃ (s : State) (r : Reshape),
     (s.udc.reshape = some r) ∧
     (segCount s r.disk ≤ r.visited)) ∧
  (∃ (s : State) (r : Reshape),
     (s.udc.reshape = some r) ∧
     (r.visited < segCount s r.disk) ∧
     (r.visited ≠ r.commit) ∧
     ((getSeg s r.disk r.visited).geom = r.geom ∨ (getSeg s r.disk r.visited).state = 0)) ∧
  (∃ (s : State),
     (fget s UDC_CKPT_BUSY = 0) ∧
     ((image s).memory.ckptPeriod ≤ ckptAge s ∨ 75 ≤ logFill s ∨ s.udc.ckptLatch = true)) ∧
  (∃ (s : State),
     (fget s UDC_CKPT_BUSY = 1)) :=
  ⟨⟨0x4000, by decide +kernel⟩,
   ⟨sv, 0xC0DE4000, 3, by decide +kernel⟩,
   ⟨fset (im { img1 with platform := { flashPresent := List.replicate 10 true }, flashProf := { chmap := List.replicate 10 (some 0), profiles := [{}] } } sv) UDC_RESHAPE_MEMB_MASK 0x3FF, 0xC0DE4000, by decide +kernel⟩,
   ⟨{ sv with udc := { reshape := some { disk := false, visited := 0, commit := 0, geom := 0 } } },
     { disk := false, visited := 0, commit := 0, geom := 0 }, by decide +kernel⟩,
   ⟨fset { iv with udc := { reshape := some { disk := false, visited := 0, commit := 1, geom := 0 } } } UDC_FMEMB_MASK 3, { disk := false, visited := 0, commit := 1, geom := 0 }, by decide +kernel⟩,
   ⟨sv, by decide +kernel⟩,
   ⟨fset sv UDC_CKPT_BUSY 1, by decide +kernel⟩⟩

theorem hyps_safeEntry :
  (∃ (s : State),
     (decidesSafe s)) ∧
  (∃ (s : State),
     (s.rst.warm = none) ∧
     (s.phase = Phase.ballast)) ∧
  (∃ (s : State) (r : Nat) (high : Bool),
     (decidesSafe s) ∧
     (r = 1 ∨ r = 2 ∨ r = 0 ∧ high = true)) ∧
  (∃ (s : State),
     (s.phase = Phase.safe) ∧
     (s.kpr.safeStep = 1) ∧
     (MediaQuiet s)) ∧
  (∃ (s : State),
     (s.phase = Phase.safe) ∧
     (s.kpr.safeStep = 8)) :=
  ⟨⟨sv, by unfold decidesSafe; decide +kernel⟩,
   ⟨ph .ballast, by decide +kernel⟩,
   ⟨sv, 1, false, by unfold decidesSafe; decide +kernel⟩,
   ⟨{ ph .safe with kpr := { safeStep := 1 } }, rfl, rfl, ⟨rfl, rfl, rfl, rfl, by decide +kernel, by decide +kernel,
     by decide +kernel, fun _ => rfl⟩⟩,
   ⟨{ ph .safe with kpr := { safeStep := 8 } }, by decide +kernel⟩⟩

theorem hyps_servoTracking :
  (∃ (s : State) (a : Nat),
     (a < 32) ∧
     (3 ≤ srvState s a) ∧
     (srvState s a ≤ 10)) ∧
  (∃ (a : Nat) (k : Nat),
     (a < 32) ∧
     (2 ≤ k) ∧
     (k ≤ 7)) ∧
  (∃ (s : State) (a : Nat) (ns : Nat),
     (a < 32) ∧
     (srvState s a = 7) ∧
     ((getSrv s a).feNs = some ns) ∧
     (1000 * fget s (srvF SRV_FE_FE_TMO a) ≤ s.tb.ns - ns) ∧
     ((List.filter (fun x => decide (s.tb.ns - x ≤ 10000000000)) (getSrv s a).lostNs).length < 7)) ∧
  (∃ (s : State) (h : Nat),
     (h < 16) ∧
     (hdaPresent s h = true)) ∧
  (∃ (s : State) (h : Nat),
     (h < 16) ∧
     (fbit s SRV_STATUS_SHOCK_HOLD h = true) ∧
     (1000000 * (image s).motor.shockHold ≤ s.tb.ns - (getSrv s (2 * h)).shockNs)) ∧
  (∃ (s : State) (a : Nat) (head : Nat),
     (a < 32) ∧
     (rdcServes s a = true) ∧
     (head < (hdaTable s (a / 2)).heads)) ∧
  (∃ (s : State) (a : Nat) (head : Nat) (cyl : Nat) (ofs : Rat),
     (a < 32) ∧
     ((getSrv s a).seekReq = some (head, cyl, ofs)) ∧
     (5 ≤ srvState s a) ∧
     (srvState s a ≤ 9)) ∧
  (∃ (s : State) (a : Nat) (z : Nat) (res : Nat) (st : List (Rat × Rat)),
     (a < 32) ∧
     ((getSrv s a).calRun = some z) ∧
     ((getSrv s a).calNext = none) ∧
     (res = 1) ∧
     (st.length < 16)) ∧
  (∃ (s : State) (a : Nat) (z : Nat) (res : Nat),
     (a < 32) ∧
     ((getSrv s a).calRun = some z) ∧
     ((getSrv s a).calNext = none) ∧
     (2 ≤ res) ∧
     (res ≤ 5)) ∧
  (∃ (s : State) (a : Nat) (v : Word),
     (a < 32) ∧
     ((hdaTable s (a / 2)).zones.length ≤ bitsGet v 0 6)) ∧
  (∃ (s : State) (a : Nat) (v : Word),
     (a < 32) ∧
     (bitsGet v 0 6 < (hdaTable s (a / 2)).zones.length) ∧
     (bitsGet v 6 1 = 1) ∧
     ((getSrv s a).calRun = none)) ∧
  (∃ (s : State) (a : Nat) (v : Word),
     (a < 32) ∧
     (bitsGet v 0 6 < (hdaTable s (a / 2)).zones.length) ∧
     (bitsGet v 6 1 = 1) ∧
     ((getSrv s a).calRun.isSome = true)) ∧
  (∃ (s : State) (a : Nat) (ns : Nat),
     (a < 32) ∧
     (srvState s a = 6 ∨ srvState s a = 7) ∧
     ((getSrv s a).satNs = some ns) ∧
     (1000 * fget s (vcmF VCM_SAT_TMO_TMO a) < s.tb.ns - ns) ∧
     (fbit s (srvF SRV_ACT_INHIBIT a) 4 = false)) ∧
  (∃ (s : State) (a : Nat),
     (a < 32) ∧
     (fget s (vcmF VCM_STATE_BRIDGE a) = 0)) ∧
  (∃ (s : State) (a : Nat),
     (a < 32) ∧
     (fget s (vcmF VCM_STATE_BRIDGE a) = 1)) :=
  ⟨⟨act sv 0 3, 0, by decide +kernel⟩,
   ⟨0, 2, by decide +kernel⟩,
   ⟨sr (act sv 0 7) 0 { feNs := some 0 }, 0, 0, by decide +kernel⟩,
   ⟨iv, 0, by decide +kernel⟩,
   ⟨fset iv SRV_STATUS_SHOCK_HOLD 1, 0, by decide +kernel⟩,
   ⟨dp iv 0, 0, 0, by decide +kernel⟩,
   ⟨sr (act sv 0 5) 0 { seekReq := some (0, 0, 0) }, 0, 0, 0, 0, by decide +kernel⟩,
   ⟨sr sv 0 { calRun := some 0 }, 0, 0, 1, [], by decide +kernel⟩,
   ⟨sr sv 0 { calRun := some 0 }, 0, 0, 2, by decide +kernel⟩,
   ⟨sv, 0, 0, by decide +kernel⟩,
   ⟨iv, 0, 0x40, by decide +kernel⟩,
   ⟨sr iv 0 { calRun := some 0 }, 0, 0x40, by decide +kernel⟩,
   ⟨sr (act sv 0 6) 0 { satNs := some 0 }, 0, 0, by decide +kernel⟩,
   ⟨fset sv (vcmF VCM_STATE_BRIDGE 0) 0, 0, by decide +kernel⟩,
   ⟨fset sv (vcmF VCM_STATE_BRIDGE 0) 1, 0, by decide +kernel⟩⟩

theorem hyps_skimInstallAndDaymarkClear :
  (∃ (s : State) (n : Nat) (c : Cmd) (b : SkimBlob),
     (adminCmd s n 80 = some c) ∧
     (s.trw.install = none) ∧
     ((skimJudge s c.sqe.buf0Len b).1 ≠ 0)) ∧
  (∃ (s : State) (n : Nat) (c : Cmd) (b : SkimBlob),
     (adminCmd s n 80 = some c) ∧
     (s.trw.install = none) ∧
     ((skimJudge s c.sqe.buf0Len b).1 = 0)) ∧
  (∃ (s : State) (n : Nat) (c : Cmd) (sec : SkimSec),
     (s.trw.install = some (n, sec)) ∧
     (skimRunning s = false) ∧
     (getCmd s n = some c) ∧
     (c.done = none)) ∧
  (∃ (s : State) (n : Nat) (c : Cmd) (r : ClearReq),
     (adminCmd s n 92 = some c) ∧
     (clearStatus s c.sqe.buf0Len r ≠ 0)) ∧
  (∃ (s : State) (n : Nat) (c : Cmd) (r : ClearReq),
     (adminCmd s n 92 = some c) ∧
     (clearStatus s c.sqe.buf0Len r = 0)) :=
  ⟨⟨cm (own (pt iv)) (ad 80 {}), 5, ad 80 {}, {}, by decide +kernel⟩,
   ⟨cm ({ own iv with nv := { opHash := some 9 }, trw := { entryIf := 0x10000 } }) (ad 80 { buf0Len := 536 }), 5,
     ad 80 { buf0Len := 536 }, { sec := { length := 0x150, words := [5 * 2 ^ 117] }, keyHash := 9, sigOk := true },
     by decide +kernel⟩,
   ⟨{ cm iv (ad 80 {}) with trw := { install := some (5, {}) } }, 5, ad 80 {}, {}, by decide +kernel⟩,
   ⟨cm (own (pt iv)) (ad 92 {}), 5, ad 92 {}, {}, by decide +kernel⟩,
   ⟨clr, 5, ad 92 { buf0Len := 240 }, { uid := Config.otpUid.toNat, keyHash := 9, nonce := [0, 0, 0, 0] },
     by decide +kernel, clr_status⟩⟩

theorem hyps_spindleDriveAndFaults :
  (∃ (s : State) (h : Nat) (ph : Nat) (on_ : Nat) (up : Bool) (hy : Bool),
     (h < 16) ∧
     (zcAccepted s h ph up on_ hy = false)) ∧
  (∃ (s : State) (h : Nat) (ph : Nat) (on_ : Nat) (up : Bool) (hy : Bool),
     (h < 16) ∧
     (zcAccepted s h ph up on_ hy = true) ∧
     (spnState s h = 5)) ∧
  (∃ (s : State) (h : Nat) (ph : Nat) (on_ : Nat) (up : Bool) (hy : Bool),
     (h < 16) ∧
     (zcAccepted s h ph up on_ hy = true) ∧
     (spnState s h = 4) ∧
     (openWatched s h = true)) ∧
  (∃ (s : State) (h : Nat) (d : Nat),
     (h < 16) ∧
     (spnState s h = 5) ∧
     ((getSpn s h).commDue = some d) ∧
     (d ≤ s.tb.ns)) ∧
  (∃ (s : State) (h : Nat),
     (h < 16) ∧
     (spnState s h = 5) ∧
     ((getSpn s h).zcNs = none) ∧
     (3 * (getSpn s h).lastGap ≤ 2 * (s.tb.ns - (getSpn s h).commNs))) ∧
  (∃ (s : State) (h : Nat),
     (h < 16) ∧
     (spnState s h = 6) ∧
     ((getSpn s h).twoLost = false) ∧
     ((getSpn s h).stopReq = none)) ∧
  (∃ (s : State) (h : Nat),
     (h < 16) ∧
     (spnState s h ∈ [5, 6, 7, 11]) ∧
     (6 ≤ (getSpn s h).forced)) ∧
  (∃ (s : State) (h : Nat),
     (h < 16) ∧
     (spnState s h = 7 ∨ spnState s h = 11)) ∧
  (∃ (s : State) (h : Nat),
     (h < 16) ∧
     (spnState s h = 3 ∨ spnState s h = 4)) ∧
  (∃ (s : State) (h : Nat),
     (h < 16) ∧
     (spnState s h = 5 ∨ spnState s h = 6)) ∧
  (∃ (s : State) (h : Nat),
     (h < 16) ∧
     ((getSpn s h).shortFrom ≠ 0) ∧
     (spnState s h = 9)) ∧
  (∃ (s : State) (h : Nat),
     (h < 16) ∧
     ((getSpn s h).shortFrom = 7 ∨ (getSpn s h).shortFrom = 11) ∧
     (spnState s h = 8) ∧
     (ratedPct s h (spinRec s h).stopPct < (getSpn s h).omega)) ∧
  (∃ (s : State) (h : Nat),
     (h < 16) ∧
     (spnDriven (spnState s h) = true ∨ spnState s h = 10)) ∧
  (∃ (s : State) (h : Nat),
     (h < 16) ∧
     (spnState s h = 9) ∧
     (fget s (spnF SPN_STATE_DRV_FLT h) = 1)) ∧
  (∃ (s : State) (h : Nat) (ph : Nat),
     (h < 16) ∧
     (ph < 3) ∧
     (2 ≤ ((getSpn s h).shunts.getD ph { }).bad) ∧
     (((getSpn s h).shunts.getD ph { }).lost = false) ∧
     (∀ x ∈ (getSpn s h).shunts, x.lost = false)) ∧
  (∃ (s : State) (h : Nat) (ph : Nat),
     (h < 16) ∧
     (ph < 3) ∧
     (2 ≤ ((getSpn s h).shunts.getD ph { }).bad) ∧
     (((getSpn s h).shunts.getD ph { }).lost = false) ∧
     ((List.filter (fun x => x.lost) (getSpn s h).shunts).length = 1)) ∧
  (∃ (s : State) (h : Nat),
     (h < 16) ∧
     (spnState s h = 2) ∧
     (fget s (spnF SPN_CAL_BUSY h) = 1) ∧
     ((getSpn s h).calWant = false)) ∧
  (∃ (h : Nat) (v : Word),
     (h < 16) ∧
     (bitsGet v 0 1 = 1)) ∧
  (∃ (s : State) (h : Nat) (m : Measured),
     (h < 16) ∧
     (m.item = 258 + 4 * h ∧ spnState s h = 10 ∨ (m.item = 256 + 4 * h ∨ m.item = 257 + 4 * h) ∧ spnState s h = 2) ∧
     (Measured.code m = 1)) ∧
  (∃ (s : State) (h : Nat) (m : Measured),
     (h < 16) ∧
     (m.item = 258 + 4 * h ∧ spnState s h = 10 ∨ (m.item = 256 + 4 * h ∨ m.item = 257 + 4 * h) ∧ spnState s h = 2) ∧
     (Measured.code m ≠ 1)) :=
  ⟨⟨spn sv 0 5, 0, 0, 0, false, false, by decide +kernel⟩,
   ⟨sp (spn iv 0 5) 0 { omega := 10 }, 0, 2, 1000, false, true, by decide +kernel⟩,
   ⟨turning, 0, 2, 1000, false, true, by decide, by decide +kernel, by decide +kernel, turning_watched⟩,
   ⟨sp (spn iv 0 5) 0 { commDue := some 0 }, 0, 0, by decide +kernel⟩,
   ⟨sp (spn iv 0 5) 0 {}, 0, by decide +kernel⟩,
   ⟨sp (spn iv 0 6) 0 {}, 0, by decide +kernel⟩,
   ⟨sp (spn iv 0 5) 0 { forced := 6 }, 0, by decide +kernel⟩,
   ⟨sp (spn iv 0 7) 0 {}, 0, by decide +kernel⟩,
   ⟨sp (spn iv 0 3) 0 {}, 0, by decide +kernel⟩,
   ⟨sp (spn iv 0 5) 0 {}, 0, by decide +kernel⟩,
   ⟨sp (spn iv 0 9) 0 { shortFrom := 7 }, 0, by decide +kernel⟩,
   ⟨sp (spn iv 0 8) 0 { shortFrom := 7, omega := 10 }, 0, by decide +kernel⟩,
   ⟨sp (spn iv 0 3) 0 {}, 0, by decide +kernel⟩,
   ⟨fset (spn iv 0 9) (spnF SPN_STATE_DRV_FLT 0) 1, 0, by decide +kernel⟩,
   ⟨sp (spn iv 0 9) 0 { shunts := [{ bad := 2 }, {}, {}] }, 0, 0, by decide +kernel⟩,
   ⟨sp (spn iv 0 9) 0 { shunts := [{ bad := 2 }, { lost := true }, {}] }, 0, 0, by decide +kernel⟩,
   ⟨fset (spn iv 0 2) (spnF SPN_CAL_BUSY 0) 1, 0, by decide +kernel⟩,
   ⟨0, 1, by decide +kernel⟩,
   ⟨sp (spn iv 0 10) 0 {}, 0, { item := 258, value := 0, inTol := true }, by decide +kernel⟩,
   ⟨sp (spn iv 0 10) 0 {}, 0, { item := 258, value := 0, inTol := false }, by decide +kernel⟩⟩

theorem hyps_spindleStartsAndStops :
  (∃ (s : State) (h : Nat),
     (h < 16) ∧
     (isRetired s (UnitId.hda h) = false) ∧
     (spnState s h = 2) ∧
     (offsetsFresh s h = true)) ∧
  (∃ (s : State) (h : Nat),
     (h < 16) ∧
     (isRetired s (UnitId.hda h) = false) ∧
     (spnState s h = 2) ∧
     (offsetsFresh s h = false)) ∧
  (∃ (s : State) (h : Nat),
     (h < 16) ∧
     (isRetired s (UnitId.hda h) = false) ∧
     (spnState s h = 7)) ∧
  (∃ (s : State) (h : Nat),
     (h < 16) ∧
     (isRetired s (UnitId.hda h) = false) ∧
     (spnState s h = 8 ∨ spnState s h = 9)) ∧
  (∃ (s : State) (h : Nat),
     (h < 16) ∧
     (isRetired s (UnitId.hda h) = false) ∧
     (spnState s h = 11)) ∧
  (∃ (s : State) (h : Nat) (v : Nat),
     (h < 16) ∧
     (s.phase.inService = true) ∧
     (s.rst.warm = none) ∧
     (s.pwr.vmOkSince = some v) ∧
     (v + 10000000 ≤ s.tb.ns) ∧
     (spnState s h = 9) ∧
     (isRetired s (UnitId.hda h) = false) ∧
     ((getSpn s h).retireOwed = false) ∧
     (spinSlotFree s h = true) ∧
     (∀ k < h, spnState s k ≠ 2 ∧ spnState s k ≠ 9)) ∧
  (∃ (s : State) (h : Nat) (sf : Bool),
     (h < 16) ∧
     (hdaStranded s h = false ∨ sf = true) ∧
     (spnState s h ∈ [3, 4, 10])) ∧
  (∃ (s : State) (h : Nat) (sf : Bool),
     (h < 16) ∧
     (hdaStranded s h = false ∨ sf = true) ∧
     (spnState s h = 6) ∧
     (hdaLoaded s h = false)) ∧
  (∃ (s : State) (h : Nat) (sf : Bool),
     (h < 16) ∧
     (hdaStranded s h = false ∨ sf = true) ∧
     (spnState s h = 5) ∧
     (hdaLoaded s h = false)) ∧
  (∃ (s : State) (h : Nat) (sf : Bool),
     (h < 16) ∧
     (hdaStranded s h = false ∨ sf = true) ∧
     (spnState s h = 5 ∨ spnState s h = 6) ∧
     (hdaLoaded s h = true)) ∧
  (∃ (s : State) (h : Nat),
     (h < 16) ∧
     (3 ≤ spnState s h ∧ spnState s h ≤ 8 ∨ spnState s h = 10)) ∧
  (∃ (s : State) (h : Nat),
     (h < 16) ∧
     (5 ≤ spnState s h ∧ spnState s h ≤ 8)) ∧
  (∃ (s : State) (h : Nat),
     (h < 16) ∧
     (spnState s h ∈ [3, 4, 10])) ∧
  (∃ (s : State) (h : Nat),
     (h < 16) ∧
     (spnState s h = 3) ∧
     (1000000 * (spinRec s h).tAlign ≤ s.tb.ns - (getSpn s h).stateNs)) ∧
  (∃ (s : State) (h : Nat),
     (h < 16) ∧
     (spnState s h = 4) ∧
     (1000000 * (spinRec s h).tOpenMax ≤ s.tb.ns - (getSpn s h).stateNs)) ∧
  (∃ (s : State) (h : Nat),
     (h < 16) ∧
     (spnState s h = 10) ∧
     (spinSlotFree s h = true)) ∧
  (∃ (s : State) (h : Nat),
     (h < 16) ∧
     (spnState s h = 8 ∨ spnState s h = 9) ∧
     ((getSpn s h).retireOwed = true)) ∧
  (∃ (s : State) (h : Nat),
     (h < 16) ∧
     (spnState s h = 8 ∨ spnState s h = 9) ∧
     ((getSpn s h).retireOwed = false) ∧
     ((getSpn s h).startup = false)) ∧
  (∃ (s : State) (h : Nat),
     (h < 16) ∧
     (hdaPresent s h = true) ∧
     (isRetired s (UnitId.hda h) = false)) ∧
  (∃ (s : State) (h : Nat),
     (h < 16) ∧
     ((getSpn s h).startup = true) ∧
     (atSpeed s h = false) ∧
     ((getSpn s h).firstNs + ((image s).spinup.getD { }).spinTmo * 1000000000 ≤ s.tb.ns)) ∧
  (∃ (s : State) (h : Nat) (d : Nat),
     (h < 16) ∧
     (spnState s h = 5 ∨ spnState s h = 6) ∧
     ((getSpn s h).inBand = some d) ∧
     (1000000000 ≤ s.tb.ns - d) ∧
     (atSpeed s h = false)) ∧
  (∃ (s : State),
     (gpioCode s 16 = 6)) ∧
  (∃ (s : State) (h : Nat) (d : Nat),
     (h < 16) ∧
     ((getSpn s h).syncNs = some d) ∧
     (fbit s SPN_SYNC_CTL_IN_MASK h = true) ∧
     (4 * revNs s h ≤ ↑(s.tb.ns - d))) ∧
  (∃ (s : State) (h : Nat),
     (h < 16) ∧
     (spnState s h = 6)) :=
  ⟨⟨sp (spn iv 0 2) 0 { calOk := some 1000000000000 }, 0, by decide +kernel⟩,
   ⟨sp (spn iv 0 2) 0 {}, 0, by decide +kernel⟩,
   ⟨sp (spn iv 0 7) 0 {}, 0, by decide +kernel⟩,
   ⟨sp (spn iv 0 8) 0 {}, 0, by decide +kernel⟩,
   ⟨sp (spn iv 0 11) 0 {}, 0, by decide +kernel⟩,
   ⟨sp (spn { iv with pwr := { vmOkSince := some 0 } } 0 9) 0 {}, 0, 0, by decide +kernel⟩,
   ⟨sp (spn iv 0 3) 0 {}, 0, false, by decide +kernel⟩,
   ⟨sp (spn iv 0 6) 0 {}, 0, false, by decide +kernel⟩,
   ⟨sp (spn iv 0 5) 0 {}, 0, false, by decide +kernel⟩,
   ⟨act (sp (spn iv 0 5) 0 {}) 0 4, 0, false, by decide +kernel⟩,
   ⟨sp (spn iv 0 3) 0 {}, 0, by decide +kernel⟩,
   ⟨sp (spn iv 0 5) 0 {}, 0, by decide +kernel⟩,
   ⟨sp (spn iv 0 3) 0 {}, 0, by decide +kernel⟩,
   ⟨sp (spn iv 0 3) 0 {}, 0, by decide +kernel⟩,
   ⟨sp (spn iv 0 4) 0 {}, 0, by decide +kernel⟩,
   ⟨sp (spn iv 0 10) 0 {}, 0, by decide +kernel⟩,
   ⟨sp (spn iv 0 8) 0 { retireOwed := true }, 0, by decide +kernel⟩,
   ⟨sp (spn iv 0 8) 0 {}, 0, by decide +kernel⟩,
   ⟨iv, 0, by decide +kernel⟩,
   ⟨sp (spn iv 0 2) 0 { startup := true }, 0, by decide +kernel⟩,
   ⟨sp (spn iv 0 5) 0 { inBand := some 0 }, 0, 0, by decide +kernel⟩,
   ⟨rset sv 0x108 6, by decide +kernel⟩,
   ⟨fset (sp (spn iv 0 5) 0 { syncNs := some 0 }) SPN_SYNC_CTL_IN_MASK 1, 0, 0, by decide +kernel⟩,
   ⟨sp (spn iv 0 6) 0 {}, 0, by decide +kernel⟩⟩

theorem hyps_stepRunsFrontCommand :
  (∃ (s : State),
     (s.pending = [])) :=
  ⟨sv, by decide +kernel⟩

theorem hyps_tasksAndCores :
  (∃ (s : State) (t : Nat) (trig : Nat),
     (t < 96) ∧
     ((getTask s t).due = some trig) ∧
     ((getTask s t).enabled = true) ∧
     (taskLive s t = true) ∧
     ((getTask s t).run = none) ∧
     (∀ e ∈ (getTask s t).slots, 16 ≤ e.1)) ∧
  (∃ (s : State) (t : Nat) (i : Inst) (j : Inst),
     ((getTask s t).run = some i) ∧
     (i.committed = false) ∧
     (j = runNodes (getTask s t) (coefWord s t) (List.drop i.node (graphOf s t).nodes) i) ∧
     (j.finite = true) ∧
     ((getTask s t).poison = false) ∧
     ((getTask s t).inhibit = false)) ∧
  (∃ (s : State) (t : Nat) (i : Inst),
     ((getTask s t).run = some i) ∧
     (i.deadline ≤ s.tb.ns) ∧
     (i.committed = true) ∧
     ((List.map (fun x => x.1) i.outs).Nodup)) ∧
  (∃ (s : State) (t : Nat) (i : Inst),
     ((getTask s t).run = some i) ∧
     (i.deadline ≤ s.tb.ns) ∧
     (i.committed = false) ∧
     ((getTask s t).poison = false) ∧
     ((getTask s t).consec < 2) ∧
     ((getTask s t).missRun ≠ 63)) ∧
  (∃ (s : State) (t : Nat) (i : Inst),
     ((getTask s t).run = some i) ∧
     (i.deadline ≤ s.tb.ns) ∧
     (i.committed = false) ∧
     ((getTask s t).consec = 2) ∧
     ((getTask s t).missRun ≠ 63) ∧
     (t < 32)) ∧
  (∃ (s : State) (v : Word) (t : Nat) (k : Nat),
     (t = fget s LTN_COEF_SEL_TASK) ∧
     (k = fget s LTN_COEF_SEL_INDEX) ∧
     (s.phase = Phase.loading ∨ fpFinite v = false ∨ (taskEnt s t).kind = 0 ∨ (graphOf s t).coefs.length ≤ k)) ∧
  (∃ (s : State) (v : Word) (t : Nat) (k : Nat),
     (t = fget s LTN_COEF_SEL_TASK) ∧
     (k = fget s LTN_COEF_SEL_INDEX) ∧
     (s.phase ≠ Phase.loading) ∧
     (fpFinite v = true) ∧
     ((taskEnt s t).kind ≠ 0) ∧
     (k < (graphOf s t).coefs.length) ∧
     ((getTask s t).enabled = false) ∧
     ((getTask s t).run = none)) ∧
  (∃ (s : State) (v : Word) (t : Nat) (k : Nat),
     (t = fget s LTN_COEF_SEL_TASK) ∧
     (k = fget s LTN_COEF_SEL_INDEX) ∧
     (s.phase ≠ Phase.loading) ∧
     (fpFinite v = true) ∧
     ((taskEnt s t).kind ≠ 0) ∧
     (k < (graphOf s t).coefs.length) ∧
     ((getTask s t).enabled = true) ∧
     (s.ltn.queue.length < 16)) ∧
  (∃ (s : State) (v : Word) (t : Nat) (k : Nat),
     (t = fget s LTN_COEF_SEL_TASK) ∧
     (k = fget s LTN_COEF_SEL_INDEX) ∧
     (s.phase ≠ Phase.loading) ∧
     (fpFinite v = true) ∧
     ((taskEnt s t).kind ≠ 0) ∧
     (k < (graphOf s t).coefs.length) ∧
     ((getTask s t).enabled = true) ∧
     (16 ≤ s.ltn.queue.length)) ∧
  (∃ (s : State) (c : Nat) (i : Instr),
     (i ∈ [Instr.coreKatTick c false, Instr.coreRetire c none]) ∧
     (c < 8) ∧
     (isRetired s (UnitId.core c) = false)) ∧
  (∃ (s : State) (c : Nat) (t : Nat) (i : Inst),
     (c < 8) ∧
     (t < 96) ∧
     (isRetired s (UnitId.core c) = false) ∧
     (s.ltn.logical.getD (coreOf s t) none = some c) ∧
     ((getTask s t).run = some i) ∧
     (i.committed = false) ∧
     ((getTask s t).poison = false) ∧
     ((getTask s t).consec < 2) ∧
     ((getTask s t).missRun ≠ 63)) ∧
  (∃ (s : State) (t : Nat),
     (t < 96) ∧
     ((taskEnt s t).kind ≠ 0)) :=
  ⟨⟨tk { enabled := true, due := some 0 }, 0, 0, by decide +kernel⟩,
   ⟨tk { run := some inst0 }, 0, inst0, _, by decide +kernel, by decide +kernel, rfl, by decide +kernel,
     by decide +kernel, by decide +kernel⟩,
   ⟨tk { run := some { inst0 with committed := true } }, 0, { inst0 with committed := true }, by decide +kernel⟩,
   ⟨tk { run := some inst0 }, 0, inst0, by decide +kernel⟩,
   ⟨tk { run := some inst0, consec := 2 }, 0, inst0, by decide +kernel⟩,
   ⟨ph .loading, 0, 0, 0, by decide +kernel⟩,
   ⟨tk {}, 0, 0, 0, by decide +kernel⟩,
   ⟨tk { enabled := true }, 0, 0, 0, by decide +kernel⟩,
   ⟨(fun s => { s with ltn := { s.ltn with queue := List.replicate 16 (0, 0, 0) } }) (tk { enabled := true }), 0, 0, 0,
     by decide +kernel⟩,
   ⟨sv, 0, .coreKatTick 0 false, by decide +kernel⟩,
   ⟨tk { run := some inst0 }, 0, 0, inst0, by decide +kernel⟩,
   ⟨iv, 0, by decide +kernel⟩⟩

theorem hyps_teardownAndHostCompletions :
  (∃ (s : State) (p : Nat) (n : Nat),
     (0 < n) ∧
     (n < 1024) ∧
     (fnExists s (fnId p n) = true) ∧
     ((getFn s (fnId p n)).teardown = 0)) ∧
  (∃ (s : State) (p : Nat),
     (fnExists s (fnId p 0) = true) ∧
     ((getFn s (fnId p 0)).teardown = 0)) ∧
  (∃ (s : State) (p : Nat),
     (fnExists s (fnId p 0) = true) ∧
     ((getFn s (fnId p 0)).vfEnable = true)) ∧
  (∃ (s : State) (p : Nat) (n : Nat),
     ((getFn s (fnId p n)).teardown = 1) ∧
     (fnBusyCmds s (fnId p n) = false)) ∧
  (∃ (s : State) (p : Nat) (n : Nat),
     (p < 6) ∧
     (n < 1024) ∧
     ((getFn s (fnId p n)).teardown = 3) ∧
     ((getFn s (fnId p n)).latchAq = none)) ∧
  (∃ (s : State) (fid : Nat) (n : Nat) (c : Cmd),
     ((getFn s fid).teardown = 0) ∧
     ((getFn s fid).cplDisable = false) ∧
     (fidPort fid < 6) ∧
     (getCmd s n = some c) ∧
     (c.done = none)) ∧
  (∃ (s : State) (fid : Nat) (n : Nat) (c : Cmd),
     ((getFn s fid).teardown ≠ 3) ∧
     (fidPort fid < 6) ∧
     (getCmd s n = some c) ∧
     (c.done = none)) ∧
  (∃ (s : State) (fid : Nat) (n : Nat) (status : Nat) (c : Cmd),
     ((getFn s fid).teardown = 0) ∧
     (fidPort fid < 6) ∧
     (getCmd s n = some c) ∧
     (c.done = none) ∧
     (0 < status)) :=
  ⟨⟨pt sv, 0, 1, by decide +kernel⟩,
   ⟨pt sv, 0, by decide +kernel⟩,
   ⟨pt sv, 0, by decide +kernel⟩,
   ⟨{ pt sv with fns := [(0, { teardown := 1 })] }, 0, 0, by decide +kernel⟩,
   ⟨{ pt sv with fns := [(0, { teardown := 3 })] }, 0, 0, by decide +kernel⟩,
   ⟨cm (pt sv) (io 1), 1, 5, io 1, by decide +kernel⟩,
   ⟨cm (pt sv) (io 1), 1, 5, io 1, by decide +kernel⟩,
   ⟨cm (pt sv) (io 1), 1, 5, 1, io 1, by decide +kernel⟩⟩

theorem hyps_tenantLifeCycle :
  (∃ (s : State) (n : Nat) (c : Cmd),
     (adminCmd s n 64 = some c) ∧
     (tenState s c.sqe.target = 0)) ∧
  (∃ (s : State) (n : Nat) (c : Cmd),
     (adminCmd s n 64 = some c) ∧
     (tenState s c.sqe.target = 1 ∨ tenState s c.sqe.target = 2)) ∧
  (∃ (s : State) (n : Nat) (c : Cmd),
     (adminCmd s n 65 = some c) ∧
     (tenState s c.sqe.target = 1 ∨ tenState s c.sqe.target = 2) ∧
     (c.sqe.target < 512) ∧
     (lowerBusy s c.sqe.target n = false)) ∧
  (∃ (s : State) (u : Nat),
     (tenState s u = 3) ∧
     (u < 512)) ∧
  (∃ (s : State) (n : Nat) (c : Cmd) (b : KeyBlob),
     (adminCmd s n 66 = some c) ∧
     (c.sqe.buf0Len = 192) ∧
     (tenState s c.sqe.target = 1) ∧
     ((getTen s c.sqe.target).key = none) ∧
     (keyStep s c.sqe.target b = 0)) ∧
  (∃ (s : State) (n : Nat) (c : Cmd) (b : KeyBlob),
     (adminCmd s n 66 = some c) ∧
     (c.sqe.buf0Len = 192) ∧
     (tenState s c.sqe.target = 1 ∨ tenState s c.sqe.target = 2) ∧
     (keyStep s c.sqe.target b ≠ 0)) ∧
  (∃ (s : State) (n : Nat) (c : Cmd),
     (adminCmd s n 67 = some c) ∧
     (tenState s c.sqe.target = 2) ∧
     (lowerBusy s c.sqe.target n = false)) :=
  ⟨⟨cm (own (pt iv)) (ad 64 { target := 1 }), 5, ad 64 { target := 1 }, by decide +kernel⟩,
   ⟨cm (own (pt iv)) (ad 64 {}), 5, ad 64 {}, by decide +kernel⟩,
   ⟨cm (own (pt iv)) (ad 65 {}), 5, ad 65 {}, by decide +kernel⟩,
   ⟨{ sv with nv := { tenants := [(0, { state := 3 })] } }, 0, by decide +kernel⟩,
   ⟨cm ({ own (pt iv) with tenants := [] }) (ad 66 { buf0Len := 192 }), 5, ad 66 { buf0Len := 192 }, { key := 1 },
     by decide +kernel⟩,
   ⟨cm (own (pt iv)) (ad 66 { buf0Len := 192 }), 5, ad 66 { buf0Len := 192 }, { unwrapOk := false }, by decide +kernel⟩,
   ⟨cm (own (pt iv)) (ad 67 {}), 5, ad 67 {}, by decide +kernel⟩⟩

theorem hyps_vendorServices :
  (∃ (s : State) (t : Nat) (c : Nat) (x : Ctx),
     (serving s t c 0 = some x)) ∧
  (∃ (s : State) (t : Nat) (c : Nat) (h : Nat) (x : Ctx),
     (serving s t c 1 = some x) ∧
     (1 ≤ h) ∧
     (h ≤ 4) ∧
     (flowBuf x h = none) ∧
     (∀ (i : Nat), 1 ≤ i → i < h → flowBuf x i ≠ none) ∧
     (1 ≤ arg x 0) ∧
     (arg x 0 ≤ 16)) ∧
  (∃ (s : State) (t : Nat) (c : Nat) (x : Ctx),
     (serving s t c 1 = some x) ∧
     ((∀ (h : Nat), 1 ≤ h → h ≤ 4 → flowBuf x h ≠ none) ∨ arg x 0 = 0 ∨ 16 < arg x 0)) ∧
  (∃ (s : State) (t : Nat) (c : Nat) (x : Ctx),
     (serving s t c 2 = some x) ∧
     (flowBuf x (arg x 0) ≠ none)) ∧
  (∃ (s : State) (t : Nat) (c : Nat) (x : Ctx) (bad : List BadBlock),
     (serving s t c 3 = some x) ∧
     (spanArgsOk x = true) ∧
     (nsStatus s x (arg x 2) (arg x 3) (arg x 4) = 0) ∧
     (spanStatus (readSpan s x.tenant (arg x 2) ((getNs s x.tenant (arg x 2)).getD { }).pool (arg x 3) (arg x 4) bad) = 0)) ∧
  (∃ (s : State) (t : Nat) (c : Nat) (x : Ctx) (d : Cmd),
     (getCmd s (x.seq.getD 0) = some d) ∧
     (d.stage = 1) ∧
     (d.mids = []) ∧
     (d.q ≠ 0) ∧
     (serving s t c 4 = some x)) ∧
  (∃ (s : State) (t : Nat) (c : Nat) (x : Ctx) (d : Cmd),
     (getCmd s (x.seq.getD 0) = some d) ∧
     (d.stage = 1) ∧
     (d.mids = []) ∧
     (d.q ≠ 0) ∧
     (serving s t c 5 = some x)) ∧
  (∃ (s : State) (t : Nat) (c : Nat) (x : Ctx),
     (landed s x = false) ∧
     (serving s t c 4 = some x) ∧
     (spanArgsOk x = false)) ∧
  (∃ (s : State) (t : Nat) (c : Nat) (x : Ctx),
     (landed s x = false) ∧
     (serving s t c 5 = some x) ∧
     (0 < arg x 4) ∧
     (nsStatus s x (arg x 2) (arg x 3) (arg x 4) ≠ 0)) ∧
  (∃ (s : State) (t : Nat) (c : Nat) (x : Ctx),
     (serving s t c 6 = some x) ∧
     (getNs s x.tenant (arg x 2) = none)) ∧
  (∃ (s : State) (t : Nat) (c : Nat) (x : Ctx) (ns : NsRec),
     (serving s t c 6 = some x) ∧
     (getNs s x.tenant (arg x 2) = some ns)) ∧
  (∃ (s : State) (t : Nat) (c : Nat) (x : Ctx) (data : List Byte),
     (serving s t c 7 = some x) ∧
     (hostStatus s x = 0) ∧
     ((getFn s x.fid).live = true) ∧
     (data.length = arg x 3)) ∧
  (∃ (s : State) (t : Nat) (c : Nat) (x : Ctx),
     (serving s t c 8 = some x) ∧
     (hostStatus s x = 0) ∧
     ((getFn s x.fid).live = true)) ∧
  (∃ (s : State) (t : Nat) (c : Nat) (x : Ctx),
     (serving s t c 9 = some x) ∧
     (bytesOk x (arg x 0) (arg x 1) (arg x 2) = true)) ∧
  (∃ (s : State) (t : Nat) (c : Nat) (x : Ctx),
     (serving s t c 10 = some x) ∧
     (keyThere s x = true) ∧
     ((getNs s x.tenant (arg x 2)).isSome = true) ∧
     (flushPending s x.tenant (arg x 2) (arg x 3 % 2 == 1) (x.seq.getD 0 + 1) = false)) ∧
  (∃ (s : State) (t : Nat) (c : Nat) (x : Ctx) (g : Grant),
     (serving s t c 11 = some x) ∧
     (bytesOk x (arg x 0) (arg x 1) (arg x 2) = true) ∧
     (arg x 4 % 4 = 0) ∧
     (keyThere s x = true) ∧
     (arg x 3 ≤ 15) ∧
     (g = tget { } (getTen s x.tenant).grants (arg x 3)) ∧
     (arg x 4 + arg x 2 ≤ g.len) ∧
     ((getFn s x.fid).live = true) ∧
     (fget s (HPT_LINK_DL_UP.ix g.port 4096) ≠ 0)) :=
  ⟨⟨vs 0 {}, 0, 0, vx 0 {}, by decide +kernel⟩,
   ⟨vs 1 { regs := [(17, 1)] }, 0, 0, 1, vx 1 { regs := [(17, 1)] }, by decide +kernel, by decide, by decide,
     by decide +kernel, fun _ h1 h2 => absurd (Nat.lt_of_le_of_lt h1 h2) (Nat.lt_irrefl _), by decide +kernel,
     by decide +kernel⟩,
   ⟨vs 1 {}, 0, 0, vx 1 {}, by decide +kernel, Or.inr (Or.inl (by decide +kernel))⟩,
   ⟨vs 2 { regs := [(17, 1)], bufs := [(1, { len := 4096 })] }, 0, 0,
     vx 2 { regs := [(17, 1)], bufs := [(1, { len := 4096 })] }, by decide +kernel⟩,
   ⟨vs 3 { regs := [(17, 1), (19, 1), (21, 1)], bufs := [(1, { len := 4096 })] }, 0, 0,
     vx 3 { regs := [(17, 1), (19, 1), (21, 1)], bufs := [(1, { len := 4096 })] }, [], by decide +kernel⟩,
   ⟨cm (vs 4 { seq := some 5 }) { io 1 with stage := 1 }, 0, 0, vx 4 { seq := some 5 }, { io 1 with stage := 1 },
     by decide +kernel⟩,
   ⟨cm (vs 5 { seq := some 5 }) { io 1 with stage := 1 }, 0, 0, vx 5 { seq := some 5 }, { io 1 with stage := 1 },
     by decide +kernel⟩,
   ⟨vs 4 {}, 0, 0, vx 4 {}, by decide +kernel⟩,
   ⟨vs 5 { regs := [(21, 1)] }, 0, 0, vx 5 { regs := [(21, 1)] }, by decide +kernel⟩,
   ⟨vs 6 {}, 0, 0, vx 6 {}, by decide +kernel⟩,
   ⟨vs 6 { regs := [(19, 1)] }, 0, 0, vx 6 { regs := [(19, 1)] }, { size := 100, pool := 0 }, by decide +kernel⟩,
   ⟨vs 7 { fid := 1, regs := [(17, 1), (20, 4)], bufs := [(1, { len := 4096 })] }, 0, 0,
     vx 7 { fid := 1, regs := [(17, 1), (20, 4)], bufs := [(1, { len := 4096 })] }, [0, 0, 0, 0], by decide +kernel⟩,
   ⟨vs 8 { fid := 1, regs := [(17, 1), (20, 4)], bufs := [(1, { len := 4096 })] }, 0, 0,
     vx 8 { fid := 1, regs := [(17, 1), (20, 4)], bufs := [(1, { len := 4096 })] }, by decide +kernel⟩,
   ⟨vs 9 { regs := [(17, 1), (19, 4)], bufs := [(1, { len := 4096 })] }, 0, 0,
     vx 9 { regs := [(17, 1), (19, 4)], bufs := [(1, { len := 4096 })] }, by decide +kernel⟩,
   ⟨vs 10 { regs := [(19, 1)] }, 0, 0, vx 10 { regs := [(19, 1)] }, by decide +kernel⟩,
   ⟨vs 11 { fid := 1, regs := [(17, 1), (19, 4)], bufs := [(1, { len := 4096 })] }, 0, 0,
     vx 11 { fid := 1, regs := [(17, 1), (19, 4)], bufs := [(1, { len := 4096 })] }, _, by decide +kernel,
     by decide +kernel, by decide +kernel, by decide +kernel, by decide +kernel, rfl, by decide +kernel,
     by decide +kernel, by decide +kernel⟩⟩

theorem hyps_writeZeroesDeallocate :
  (∃ (s : State) (n : Nat) (c : Cmd),
     (running s n 1 = some c) ∧
     (c.applied = false) ∧
     (c.stage = 0)) ∧
  (∃ (s : State) (n : Nat) (c : Cmd) (data : List Nat),
     (running s n 1 = some c) ∧
     (c.applied = false) ∧
     (c.stage = 1) ∧
     (c.fetched = true) ∧
     (earlierRead s n c = false) ∧
     (data.length = c.sqe.nlb + 1) ∧
     (changeBar s (cmdNs s c).pool = 0) ∧
     (c.sqe.itagChk = true) ∧
     ((crc32c (blockBytes data)).toNat ≠ c.sqe.itag)) ∧
  (∃ (s : State) (n : Nat) (c : Cmd) (data : List Nat) (bad : List BadBlock),
     (running s n 1 = some c) ∧
     (c.applied = false) ∧
     (c.stage = 1) ∧
     (c.fetched = true) ∧
     (earlierRead s n c = false) ∧
     (data.length = c.sqe.nlb + 1) ∧
     (c.sqe.itagChk = false) ∧
     (changeStatus s c (cmdNs s c) bad ≠ 0)) ∧
  (∃ (s : State) (n : Nat) (i : Nat) (c : Cmd) (data : List Nat) (bad : List BadBlock),
     (running s n 1 = some c) ∧
     (c.applied = false) ∧
     (c.stage = 1) ∧
     (c.fetched = true) ∧
     (earlierRead s n c = false) ∧
     (data.length = c.sqe.nlb + 1) ∧
     (c.sqe.itagChk = true → (crc32c (blockBytes data)).toNat = c.sqe.itag) ∧
     (changeStatus s c (cmdNs s c) bad = 0) ∧
     ((cmdNs s c).pool = 0) ∧
     ((cmdNs s c).compress = false) ∧
     (c.g0 = c.g1) ∧
     (c.slots = [i]) ∧
     (c.beaten = []) ∧
     (c.mids = []) ∧
     ((getGran s c.tenant c.sqe.nsid c.g0).kind ≠ 2) ∧
     (fget s OZP_STATUS_MODE ≠ 1)) ∧
  (∃ (s : State) (n : Nat) (c : Cmd) (data : List Nat) (clens : List Nat) (bad : List BadBlock) (l : Landing),
     (running s n 1 = some c) ∧
     (c.applied = false) ∧
     (c.stage = 1) ∧
     (c.fetched = true) ∧
     (earlierRead s n c = false) ∧
     (data.length = c.sqe.nlb + 1) ∧
     (c.sqe.itagChk = false) ∧
     (changeStatus s c (cmdNs s c) bad = 0) ∧
     (landWrite s n c (cmdNs s c) data clens bad c.slots = some l)) ∧
  (∃ (s : State) (n : Nat) (opc : Nat) (c : Cmd) (clens : List Nat) (bad : List BadBlock) (i : Instr),
     (opc = 8 ∧ i = Instr.writeZeroes n clens bad ∨ opc = 9 ∧ i = Instr.deallocate n clens bad) ∧
     (running s n opc = some c) ∧
     (c.applied = false) ∧
     (earlierRead s n c = false) ∧
     (changeStatus s c (cmdNs s c) bad ≠ 0)) ∧
  (∃ (s : State) (n : Nat) (opc : Nat) (c : Cmd) (clens : List Nat) (bad : List BadBlock) (i : Instr),
     (opc = 8 ∧ i = Instr.writeZeroes n clens bad ∨ opc = 9 ∧ i = Instr.deallocate n clens bad) ∧
     (running s n opc = some c) ∧
     (c.applied = false) ∧
     (earlierRead s n c = false) ∧
     (changeStatus s c (cmdNs s c) bad = 0) ∧
     ((cmdNs s c).pool = 0) ∧
     (c.g0 = c.g1) ∧
     (c.whole c.g0 = true) ∧
     (c.beaten = []) ∧
     (c.mids = []) ∧
     ((getGran s c.tenant c.sqe.nsid c.g0).kind ≠ 2) ∧
     (lowerInFlight s n c c.g0 = false) ∧
     (fget s OZP_STATUS_MODE ≠ 1)) ∧
  (∃ (s : State) (n : Nat) (opc : Nat) (c : Cmd) (clens : List Nat) (bad : List BadBlock) (i : Instr) (l : Landing),
     (opc = 8 ∧ i = Instr.writeZeroes n clens bad ∨ opc = 9 ∧ i = Instr.deallocate n clens bad) ∧
     (running s n opc = some c) ∧
     (c.applied = false) ∧
     (earlierRead s n c = false) ∧
     (changeStatus s c (cmdNs s c) bad = 0) ∧
     (landZeroes s n c (cmdNs s c) clens bad c.slots = some l)) :=
  ⟨⟨cm (own (up sv)) (io 1), 5, io 1, by decide +kernel⟩,
   ⟨cm (own (up sv)) { io 1 with stage := 1, fetched := true, sqe := { (io 1).sqe with flags := 2, itag := 2 ^ 32 } },
     5, { io 1 with stage := 1, fetched := true, sqe := { (io 1).sqe with flags := 2, itag := 2 ^ 32 } }, [0],
     by decide +kernel, rfl, rfl, rfl, by decide +kernel, by decide, by decide +kernel, by decide,
     Nat.ne_of_lt (BitVec.isLt _)⟩,
   ⟨cm (fset (own (up sv)) UDC_STATUS_FLASH_RO 1) { io 1 with stage := 1, fetched := true }, 5,
     { io 1 with stage := 1, fetched := true }, [0], [], by decide +kernel⟩,
   ⟨cm (own (up sv)) { io 1 with stage := 1, fetched := true, slots := [3] }, 5, 3,
     { io 1 with stage := 1, fetched := true, slots := [3] }, [0], [], by decide +kernel⟩,
   ⟨cm (own (up sv)) { io 1 with stage := 1, fetched := true, slots := [3] }, 5,
     { io 1 with stage := 1, fetched := true, slots := [3] }, [0], [], [], _, by decide +kernel, by decide +kernel,
     by decide +kernel, by decide +kernel, by decide +kernel, by decide +kernel, by decide +kernel, by decide +kernel,
     rfl⟩,
   ⟨cm (fset (own (up sv)) UDC_STATUS_FLASH_RO 1) (io 8), 5, 8, io 8, [], [], .writeZeroes 5 [] [], by decide +kernel⟩,
   ⟨cm (own (up sv)) { io 8 with sqe := { (io 8).sqe with nlb := 3 } }, 5, 8,
     { io 8 with sqe := { (io 8).sqe with nlb := 3 } }, [], [], .writeZeroes 5 [] [], by decide +kernel⟩,
   ⟨cm (own (up sv)) { io 8 with sqe := { (io 8).sqe with nlb := 3 } }, 5, 8,
     { io 8 with sqe := { (io 8).sqe with nlb := 3 } }, [], [], .writeZeroes 5 [] [], _, by decide +kernel,
     by decide +kernel, by decide +kernel, by decide +kernel, by decide +kernel, rfl⟩⟩

end Sys2Proof.Tests
end

section
/-!
PROOFS. The statements of 00_scope.md: the machine right after reset, and the identity in configuration space (R3). The
lemmas in front of them serve every later proof about resets and configuration requests: what a register reads at reset,
what an emitted output leaves unchanged, and when a configuration request is answered.
-/

namespace Sys2Proof.Laws

open Sys2Proof.Machine

/-! ## Registers at reset -/

/-- After reset a register word reads the reset value of its table (R6). -/
theorem rget_reset (k : Nat) : rget State.reset k = resetWord k := rfl

/-- After reset a field reads its bits of that value. -/
theorem fget_reset (f : Fld) : fget State.reset f = bitsGet (resetWord f.off) f.lo f.w := rfl

/-- No command waits after reset, so none is malformed. -/
theorem reset_queueOk : State.reset.queueOk := fun _ h => nomatch h

/-! ## Outputs -/

@[simp] theorem emit_out (s : State) (o : Out) : (emit s o).out = o :: s.out := rfl

/-- An output touches no part of the state but the list of outputs. -/
theorem emit_unchanged (s : State) (o : Out) : Unchanged [.out] s (emit s o) := by
  intro part hpart
  cases part with
  | out => exact absurd List.mem_cons_self hpart
  | _ => rfl

/-! ## Configuration requests -/

/-- The number on its port is read back from a function's number. -/
@[simp] theorem fidVf_fnId (p n : Nat) (hn : n < 1024) : fidVf (fnId p n) = n := by
  unfold fidVf fnId
  omega

/-- A configuration request is answered by `configAct` (R102, R117, R118): its function exists, the link is up, and
nothing has it answered with retry (LOADING, a reset of the port, the teardown of a VF). -/
theorem exec_configRequest_answered {s : State} {p n : Nat} (op : CfgOp) (hp : p < 6)
    (hlink : fget s (HPT_LINK_DL_UP.ix p 0x1000) = 1) (hphase : s.phase ≠ .loading)
    (hreset : (getPort s p).inReset = false) (htear : n = 0 ∨ (getFn s (fnId p n)).teardown = 0)
    (hfn : fnExists s (fnId p n) = true) :
    exec (.configRequest p n op) s = .next (configAct s (fnId p n) op) := by
  have harm : exec (.configRequest p n op) s = execConfigRequest p n op s := rfl
  have hreached : ¬(6 ≤ p) := Nat.not_le.mpr hp
  have hnoRetry : ¬(0 < n ∧ 0 < (getFn s (fnId p n)).teardown) := by omega
  rw [harm]
  simp [execConfigRequest, hreached, hlink, hphase, hreset, hnoRetry, hfn]

/-- The identity a configuration read answers: Vendor ID 0xD1A7 below the Device ID of the PF or of a VF (R3). -/
theorem configAct_readId (s : State) (fid : Nat) :
    configAct s fid .readId = emit s (.cfgData fid (identity (fidVf fid))) := rfl

theorem configAct_readClassRevision (s : State) (fid : Nat) :
    configAct s fid .readClassRevision = emit s (.cfgData fid 0x01800010) := rfl

theorem identity_lt (n : Nat) : identity n < 2 ^ 32 := by unfold identity; split <;> decide

theorem identity_vendor (n : Nat) : identity n % 65536 = 0xD1A7 := by unfold identity; split <;> rfl

theorem identity_device_pf : identity 0 / 65536 = 0x1284 := rfl

theorem identity_device_vf {n : Nat} (hn : n ≠ 0) : identity n / 65536 = 0x1285 := by
  rw [identity, if_neg hn]

/-! ## The statements -/

/-- Settles O1: the units are empty by the definition of the reset state, and each register reads its table's value. -/
theorem resetState : Obligations.ResetState := by
  unfold Obligations.ResetState
  simp only [rget_reset, fget_reset]
  refine ⟨rfl, rfl, rfl, rfl, rfl, reset_wf, reset_queueOk, ?_⟩
  decide

/-- Settles O4: the request is answered, its read emits the identity or the revision, and an output is all it changes. -/
theorem identityInConfigurationSpace : Obligations.IdentityInConfigurationSpace := by
  unfold Obligations.IdentityInConfigurationSpace
  intro s p n hp hn hlink hphase hreset htear hfn
  have answered (op : CfgOp) := exec_configRequest_answered op hp hlink hphase hreset htear hfn
  constructor
  · refine ⟨_, identity n, answered .readId, ?_, identity_lt n, identity_vendor n, ?_, identity_device_vf, ?_⟩
    · rw [configAct_readId, fidVf_fnId p n hn, emit_out]
    · rintro rfl
      exact identity_device_pf
    · exact emit_unchanged _ _
  · refine ⟨_, 0x01800010, answered .readClassRevision, ?_, by decide, ?_⟩
    · rw [configAct_readClassRevision, emit_out]
    · exact emit_unchanged _ _

end Sys2Proof.Laws
end

section
/-!
PROOFS. The statement of 01_architecture.md: Lath's links (R13, R15), the pace monitors (R18) and the timebase (R22).
The lemmas in front of them serve every later proof: how frames compose, what a fault report of any kind leaves
unchanged (`ReportFrame`: the parts outside `reportParts`, and every register word outside Keeper's and Daymark's
overflow counter), and what a field's bit reads after a write of a bit.
-/

namespace Sys2Proof.Laws

open Sys2Proof.Machine

/-! ## Frames -/

theorem unchanged_refl (parts : List Part) (s : State) : Unchanged parts s s := by
  intro p _
  cases p <;> rfl

theorem unchanged_trans {parts : List Part} {s t u : State} (h : Unchanged parts s t) (k : Unchanged parts t u) :
    Unchanged parts s u := by
  intro p hp
  have hst := h p hp
  have htu := k p hp
  cases p <;> exact Eq.trans htu hst

theorem unchanged_mono {few many : List Part} {s t : State} (h : Unchanged few s t) (hsub : few ⊆ many) :
    Unchanged many s t := fun p hp => h p fun hfew => hp (hsub hfew)

/-- A register write touches no part of the state but the register file. -/
theorem rset_unchanged (s : State) (k : Nat) (v : Word) : Unchanged [.regs] s (rset s k v) := by
  intro part hpart
  cases part with
  | regs => exact absurd List.mem_cons_self hpart
  | _ => rfl

theorem fset_unchanged (s : State) (f : Fld) (x : Nat) : Unchanged [.regs] s (fset s f x) := rset_unchanged s _ _

theorem fsetBit_unchanged (s : State) (f : Fld) (i : Nat) (b : Bool) : Unchanged [.regs] s (fsetBit s f i b) :=
  fset_unchanged s _ _

theorem setLath_unchanged (s : State) (l : Lath) : Unchanged [.lath] s { s with lath := l } := by
  intro part hpart
  cases part with
  | lath => exact absurd List.mem_cons_self hpart
  | _ => rfl

theorem setTb_unchanged (s : State) (b : Timebase) : Unchanged [.tb] s { s with tb := b } := by
  intro part hpart
  cases part with
  | tb => exact absurd List.mem_cons_self hpart
  | _ => rfl

/-- New values of the seven parts a report may change leave every other part alone. -/
theorem setReportParts_unchanged (s : State) (ph : Phase) (b : Timebase) (r : Tbl Word) (o : List Out)
    (fs : Tbl FnState) (k : Keeper) (d : Daymark) :
    Unchanged reportParts s { s with phase := ph, tb := b, regs := r, out := o, fns := fs, kpr := k, dmk := d } := by
  intro part hpart
  cases part with
  | phase | tb | regs | out | fns | kpr | dmk => exact absurd (by decide) hpart
  | _ => rfl

/-! ## Bits of a field -/

/-- A bit of a field is the field of width 1 at its place. -/
theorem fbit_eq (s : State) (f : Fld) {i : Nat} (hi : i < f.w) :
    fbit s f i = (fget s { f with lo := f.lo + i, w := 1 } == 1) := by
  obtain ⟨d, hd⟩ := Nat.exists_eq_add_of_lt hi
  have hw : 2 ^ f.w = 2 ^ i * (2 * 2 ^ d) := by rw [hd, Nat.pow_succ, Nat.pow_add]; ring
  have hbit : fget s f / 2 ^ i % 2 = fget s { f with lo := f.lo + i, w := 1 } := by
    simp only [fget, bitsGet]
    rw [hw, Nat.mod_mul_right_div_self, Nat.mod_mul_right_mod, Nat.div_div_eq_div_mul, ← Nat.pow_add, Nat.pow_one]
  rw [fbit, hbit]

/-- A written bit reads back, and every other bit of the field reads as before. -/
theorem fbit_fsetBit (s : State) (f : Fld) {i j : Nat} (b : Bool) (hf : f.lo + f.w ≤ 32) (hi : i < f.w)
    (hj : j < f.w) : fbit (fsetBit s f i b) f j = if j = i then b else fbit s f j := by
  rw [fbit_eq _ _ hj, fbit_eq _ _ hj, fsetBit]
  by_cases h : j = i
  · subst h
    rw [if_pos rfl, fget_fset_same _ _ _ (show f.lo + j + 1 ≤ 32 by omega)]
    cases b <;> rfl
  · have beside : f.lo + i + 1 ≤ f.lo + j ∨ f.lo + j + 1 ≤ f.lo + i := by omega
    rw [if_neg h, fget_fset_ne _ _ _ _ (show f.lo + i + 1 ≤ 32 by omega) (.inr beside)]

/-- Words beside the written bit's read as before. -/
theorem rget_fsetBit (s : State) (f : Fld) (i : Nat) (b : Bool) {k : Nat} (h : k ≠ f.off) :
    rget (fsetBit s f i b) k = rget s k := rget_fset s _ _ k h

/-- Fields whose word reads the same read the same. -/
theorem fget_congr {s t : State} {f : Fld} (h : rget t f.off = rget s f.off) : fget t f = fget s f := by
  rw [fget, fget, h]

theorem fbit_congr {s t : State} {f : Fld} (i : Nat) (h : fget t f = fget s f) : fbit t f i = fbit s f i := by
  rw [fbit, fbit, h]

/-! ## What a fault report leaves unchanged (R485 to R500) -/

/-- The register words a fault report may change: Keeper's, and the count of events Daymark lost. -/
def ReportKey (k : Nat) : Prop := (0x1400000 ≤ k ∧ k < 0x1400500) ∨ k = DMK_LOSS_OVERFLOW.off

/-- From `s` to `t` nothing has changed but what a fault report may change. -/
structure ReportFrame (s t : State) : Prop where
  parts : Unchanged reportParts s t
  regs : ∀ k, ¬ReportKey k → rget t k = rget s k

theorem not_reportKey_below {k : Nat} (h : k < 0x1400000) : ¬ReportKey k := by
  simp only [ReportKey, DMK_LOSS_OVERFLOW]
  omega

theorem not_reportKey_above {k : Nat} (h : 0x1600000 ≤ k) : ¬ReportKey k := by
  simp only [ReportKey, DMK_LOSS_OVERFLOW]
  omega

theorem findRec_lt {s : State} {rseq i : Nat} (h : findRec s rseq = some i) : i < 32 := by
  have hi := List.find?_some h
  simp only [Bool.and_eq_true, decide_eq_true_eq] at hi
  exact hi.1.1

theorem pickSlot_lt (s : State) : (pickSlot s).1 < 32 := by
  unfold pickSlot
  split
  case h_1 i h => exact List.mem_range.mp (List.mem_of_find?_eq_some h)
  case h_2 =>
    split
    · exact Nat.mod_lt _ (by decide)
    · exact Nat.mod_lt _ (by decide)

theorem mergeSlot_lt {s : State} {src i : Nat} (h : mergeSlot s src = some i) : i < 32 := by
  unfold mergeSlot at h
  dsimp only at h
  split at h
  · cases h
  · split at h
    · cases h
    · rename_i hrec
      split at h
      · cases h
        exact findRec_lt hrec
      · cases h

/-- The words of the 32 records are Keeper's. -/
theorem reportKey_record {slot word : Nat} (hslot : slot < 32) (hword : word < 8) :
    ReportKey (0x1400100 + 32 * slot + 4 * word) := .inl ⟨by omega, by omega⟩

namespace ReportFrame

variable {s t u : State}

theorem refl (s : State) : ReportFrame s s := ⟨unchanged_refl _ s, fun _ _ => rfl⟩

theorem trans (h : ReportFrame s t) (k : ReportFrame t u) : ReportFrame s u :=
  ⟨unchanged_trans h.parts k.parts, fun i hi => (k.regs i hi).trans (h.regs i hi)⟩

/-- A field outside Keeper's words and Daymark's overflow counter reads as before. -/
theorem fget_eq (h : ReportFrame s t) {f : Fld} (hf : ¬ReportKey f.off) : fget t f = fget s f :=
  fget_congr (h.regs _ hf)

theorem after_ite {c : Prop} [Decidable c] {a b : State} (ha : ReportFrame s a) (hb : ReportFrame s b) :
    ReportFrame s (if c then a else b) := by
  split <;> assumption

/-- The parts of the state beside the registers take any new value. -/
theorem after_parts (h : ReportFrame s t) (ph : Phase) (b : Timebase) (o : List Out) (fs : Tbl FnState) (k : Keeper)
    (d : Daymark) : ReportFrame s { t with phase := ph, tb := b, out := o, fns := fs, kpr := k, dmk := d } :=
  h.trans ⟨setReportParts_unchanged t ph b t.regs o fs k d, fun _ _ => rfl⟩

theorem after_rset (h : ReportFrame s t) {k : Nat} (hk : ReportKey k) (v : Word) : ReportFrame s (rset t k v) :=
  h.trans ⟨setReportParts_unchanged t _ _ _ _ _ _ _,
    fun i hi => by rw [rget_rset, if_neg fun (e : i = k) => hi (e ▸ hk)]⟩

theorem after_fset (h : ReportFrame s t) {f : Fld} (hf : ReportKey f.off) (x : Nat) : ReportFrame s (fset t f x) :=
  h.after_rset hf _

theorem after_fsetBit (h : ReportFrame s t) {f : Fld} (hf : ReportKey f.off) (i : Nat) (b : Bool) :
    ReportFrame s (fsetBit t f i b) := h.after_rset hf _

theorem after_fbump (h : ReportFrame s t) {f : Fld} (hf : ReportKey f.off) (n : Nat) : ReportFrame s (fbump t f n) :=
  h.after_fset hf _

theorem after_emit (h : ReportFrame s t) (o : Out) : ReportFrame s (emit t o) := h.after_parts _ _ _ _ _ _

theorem after_modFn (h : ReportFrame s t) (fid : Nat) (f : FnState → FnState) : ReportFrame s (modFn t fid f) :=
  h.after_parts _ _ _ _ _ _

theorem after_modKpr (h : ReportFrame s t) (f : Keeper → Keeper) : ReportFrame s (modKpr t f) :=
  h.after_parts _ _ _ _ _ _

theorem after_modGroup (h : ReportFrame s t) (g : Nat) (f : GroupEntry → GroupEntry) :
    ReportFrame s (modGroup t g f) := h.after_modKpr _

theorem after_grantStamp (h : ReportFrame s t) : ReportFrame s (grantStamp t).2 := by
  unfold grantStamp
  split
  · exact h.after_parts _ _ _ _ _ _
  · exact h.after_parts _ _ _ _ _ _

theorem after_msixSend (h : ReportFrame s t) (fid vec : Nat) : ReportFrame s (msixSend t fid vec) :=
  after_ite h (after_ite (h.after_modFn _ _) (h.after_emit _))

theorem after_aerReport (h : ReportFrame s t) (fid kind : Nat) : ReportFrame s (aerReport t fid kind) :=
  (h.after_modFn _ _).after_emit _

theorem after_suppress (h : ReportFrame s t) (code : Nat) : ReportFrame s (suppress t code) :=
  h.after_parts _ _ _ _ _ _

theorem after_dmkPush (h : ReportFrame s t) (code data : Nat) : ReportFrame s (dmkPush t code data) :=
  after_ite (h.after_parts _ _ _ _ _ _)
    (((h.after_fbump (.inr rfl) 1).after_suppress code).after_parts _ _ _ _ _ _)

theorem after_setPhase (h : ReportFrame s t) (p : Phase) (src cause : Nat) : ReportFrame s (setPhase t p src cause) :=
  (h.after_parts p t.tb t.out t.fns t.kpr t.dmk).after_dmkPush _ _

theorem after_keeperCause (h : ReportFrame s t) (k : Nat) : ReportFrame s (keeperCause t k) :=
  have latched := (h.after_fsetBit (f := KPR_IRQ_STAT_CAUSE) (.inl (by decide)) k true).after_fsetBit
    (f := KPR_MGT_STAT_CAUSE) (.inl (by decide)) k true
  after_ite (latched.after_msixSend _ _) latched

theorem after_countSource (h : ReportFrame s t) (src : Nat) : ReportFrame s (countSource t src) := h.after_modKpr _

theorem after_closeRecord (h : ReportFrame s t) (rseq : Nat) : ReportFrame s (closeRecord t rseq) := by
  unfold closeRecord
  split
  case h_1 => exact h
  case h_2 i hrec =>
    have key {word : Nat} (hword : word < 8) := reportKey_record (findRec_lt hrec) hword
    exact after_ite h ((h.after_fset (key (by decide)) _).after_fset (key (by decide)) _)

theorem after_enterRecord (h : ReportFrame s t) (word3 data : Nat) (cause : Option Nat) :
    ReportFrame s (enterRecord t word3 data cause).2 := by
  unfold enterRecord
  dsimp -zeta -zetaHave only
  extract_lets rseq placed word w0 w1 w2 w3 w4 w5 w6 w7 listed counted
  have stamped := h.after_grantStamp
  have hslot := pickSlot_lt (grantStamp t).2
  have placed' : ReportFrame s placed :=
    after_ite (((stamped.after_fset (.inl (by decide)) 1).after_dmkPush _ _).after_keeperCause 5) stamped
  have written {b : State} (hb : ReportFrame s b) {i : Nat} (hi : i < 8) (v : Nat) : ReportFrame s (word b i v) :=
    hb.after_rset (reportKey_record hslot hi) _
  have half : ReportFrame s w3 :=
    written (written (written (written placed' (by decide) _) (by decide) _) (by decide) _) (by decide) _
  have whole : ReportFrame s w7 :=
    written (written (written (written half (by decide) _) (by decide) _) (by decide) _) (by decide) _
  have listed' : ReportFrame s listed := whole.after_modKpr _
  exact (listed'.after_fset (f := KPR_HIST_NEXT_SLOT) (.inl (by decide)) _).after_fset (f := KPR_HIST_NEXT_RSEQ)
    (.inl (by decide)) _

theorem after_openEntry (h : ReportFrame s t) (src rseq : Nat) (cls : Cls) :
    ReportFrame s (openEntry t src rseq cls) := by
  cases cls with
  | corrected =>
    refine after_ite (h.after_closeRecord _) (after_modGroup ?_ _ _)
    split
    · exact h.after_closeRecord _
    · exact h
  | contained =>
    refine after_modGroup ?_ _ _
    split
    · exact h.after_closeRecord _
    · exact h
  | fatal => exact h

theorem after_fogOnRecord (h : ReportFrame s t) (cls : Cls) : ReportFrame s (fogOnRecord t cls) := by
  cases cls with
  | corrected => exact h
  | contained =>
    have pulsed := h.after_modKpr fun k => { k with pulse := true }
    exact after_ite (pulsed.after_fset (.inl (by decide)) 1) pulsed
  | fatal => exact h.after_modKpr fun k => { k with pulse := true, locked := true }

theorem after_signalClass (h : ReportFrame s t) (src : Nat) (cls : Cls) : ReportFrame s (signalClass t src cls) := by
  cases cls with
  | corrected => exact h.after_keeperCause 0
  | contained => exact (after_ite (h.after_aerReport _ _) (h.after_aerReport _ _)).after_keeperCause 1
  | fatal => exact h.after_keeperCause 2

theorem after_safeDecide (h : ReportFrame s t) (src : Nat) (direct : Bool) :
    ReportFrame s (safeDecide t src direct) := by
  have safeKey : ReportKey KPR_SAFE_VALID.off := .inl (by decide)
  have entered := h.after_setPhase .safe src 0
  have cleared := ((entered.after_fset (f := KPR_SAFE_QUEUES_DONE) safeKey 0).after_fset (f := KPR_SAFE_HEADS_DONE)
    safeKey 0).after_fset (f := KPR_SAFE_FLUSH_DONE) safeKey 0
  have shown := ((cleared.after_fset (f := KPR_SAFE_VALID) safeKey 1).after_fset (f := KPR_SAFE_DIRECT) safeKey
    (b2n direct)).after_fset (f := KPR_SAFE_SOURCE) safeKey src
  exact ((shown.after_dmkPush _ _).after_modKpr _).after_keeperCause 2

theorem after_fatalFault (h : ReportFrame s t) (src : Nat) (direct : Bool) :
    ReportFrame s (fatalFault t src direct) := by
  unfold fatalFault
  refine after_ite h ?_
  cases t.phase with
  | loading | selftest | discovery | bringup | serving | degraded => exact h.after_safeDecide src direct
  | ballast => exact h.after_modKpr _
  | off | safe | beacon => exact h

theorem after_reportRecord (h : ReportFrame s t) (r : Report) : ReportFrame s (reportRecord t r) := by
  unfold reportRecord
  dsimp -zeta -zetaHave only
  extract_lets from? conseq? cls region opens listed counted fenced opened fogged signalled escalated final
  have entered := h.after_enterRecord (recWord3 r.src cls r.cls r.forced from?.isSome conseq?.isSome false) r.data
    (from? <|> conseq?)
  have counted' : ReportFrame s counted := (entered.after_modKpr _).after_countSource _
  have fenced' : ReportFrame s fenced := after_ite (counted'.after_modKpr _) counted'
  have opened' : ReportFrame s opened :=
    after_ite (fenced'.after_openEntry _ _ _) (after_ite (fenced'.after_closeRecord _) fenced')
  have signalled' : ReportFrame s signalled := (opened'.after_fogOnRecord _).after_signalClass _ _
  have escalated' : ReportFrame s escalated := after_ite ((signalled'.after_dmkPush _ _).after_keeperCause _) signalled'
  have final' : ReportFrame s final := after_ite (escalated'.after_dmkPush _ _) escalated'
  exact after_ite (final'.after_fatalFault _ _) final'

theorem after_report (h : ReportFrame s t) (r : Report) : ReportFrame s (report t r) := by
  unfold report
  extract_lets r'
  refine after_ite h ?_
  split
  case h_1 i hmerge =>
    have hi : i < 32 := by
      split at hmerge
      · exact mergeSlot_lt hmerge
      · cases hmerge
    have merged : ReportFrame s (reportMerge t r'.src i) :=
      ((h.after_countSource _).after_fbump (reportKey_record hi (by decide)) 1).after_fset (.inl (by decide)) _
    exact after_ite (merged.after_dmkPush _ _) merged
  case h_2 => exact h.after_reportRecord r'

theorem after_raise (h : ReportFrame s t) (src data : Nat) : ReportFrame s (raise t src data) := by
  unfold raise
  split
  · exact h
  · exact h.after_report _

end ReportFrame

/-! ## Lath's links (R13, R15) -/

theorem lathStatus_unchanged (s : State) : Unchanged [.regs] s (lathStatus s) :=
  unchanged_trans (fset_unchanged s _ _) (unchanged_trans (fset_unchanged _ _ _) (fset_unchanged _ _ _))

/-- The summary of the links stands in one word; every other word reads as before. -/
theorem rget_lathStatus (s : State) {k : Nat} (hk : k ≠ LTH_STATUS_LINKS_DOWN.off) :
    rget (lathStatus s) k = rget s k := by
  unfold lathStatus
  extract_lets down re any counted
  rw [rget_fset _ LTH_STATUS_ISOLATED _ _ hk, rget_fset _ LTH_STATUS_REROUTED _ _ hk,
    rget_fset _ LTH_STATUS_LINKS_DOWN _ _ hk]

/-- Whether a link is down shows in its word alone. -/
theorem linkDown_congr {s t : State} {l : Nat}
    (h : rget t (LTH_LINKDN_DOWN.ix (l / 32) 4).off = rget s (LTH_LINKDN_DOWN.ix (l / 32) 4).off) :
    linkDown t l = linkDown s l := fbit_congr _ (fget_congr h)

theorem linkDown_setLath (s : State) (lath : Lath) (l : Nat) : linkDown { s with lath := lath } l = linkDown s l := rfl

/-- The words that show the links lie between Lath's summary and its credit registers (01, LTH_LINKDNn). -/
theorem linkKey_range {l : Nat} (hl : l < 112) : 0x800010 ≤ (LTH_LINKDN_DOWN.ix (l / 32) 4).off ∧
    (LTH_LINKDN_DOWN.ix (l / 32) 4).off < 0x800020 := by
  simp only [Fld.ix, LTH_LINKDN_DOWN]
  omega

theorem ReportFrame.linkDown_eq {s t : State} (h : ReportFrame s t) {l : Nat} (hl : l < 112) :
    linkDown t l = linkDown s l := by
  have range := linkKey_range hl
  exact linkDown_congr (h.regs _ (not_reportKey_below (by omega)))

/-- Marking a link down shows it, and shows every other link as before. -/
theorem linkDown_marked (s : State) (link l : Nat) :
    linkDown (fsetBit s (LTH_LINKDN_DOWN.ix (link / 32) 4) (link % 32) true) l =
      if l = link then true else linkDown s l := by
  by_cases hword : l / 32 = link / 32
  · have hbit : l % 32 = link % 32 ↔ l = link := by omega
    have inWord (k : Nat) : k % 32 < (LTH_LINKDN_DOWN.ix (link / 32) 4).w := Nat.mod_lt k (Nat.zero_lt_succ 31)
    rw [linkDown, linkDown, hword, fbit_fsetBit s (LTH_LINKDN_DOWN.ix (link / 32) 4) true (Nat.le_refl 32)
      (inWord link) (inWord l), if_congr hbit rfl rfl]
  · have hoff : (LTH_LINKDN_DOWN.ix (l / 32) 4).off ≠ (LTH_LINKDN_DOWN.ix (link / 32) 4).off := by
      simp only [Fld.ix]
      omega
    rw [if_neg fun e : l = link => hword (by rw [e]), linkDown_congr (rget_fsetBit s _ _ _ hoff)]

/-- The state in which Lath has marked a link down and holds its unacknowledged flits, before it reports. -/
def linkFailed (s : State) (link : Nat) (fl : List Flit) : State :=
  let s := lathStatus (fsetBit s (LTH_LINKDN_DOWN.ix (link / 32) 4) (link % 32) true)
  { s with lath := { s.lath with rerouting := s.lath.rerouting ++ [(link, fl)] } }

theorem exec_lathLinkDown {s : State} {link : Nat} (fl : List Flit) (hlink : link < 112)
    (hup : linkDown s link = false) :
    exec (.lathLinkDown link fl) s = .next (noteCut (raise (linkFailed s link fl) (0x100 + link))
      (unreachableNodes (fget s LTH_CTL_REROUTE_EN == 1) (downLinks s))) := by
  have harm : exec (.lathLinkDown link fl) s = execLathLinkDown link fl s := rfl
  have first : ¬(decide (112 ≤ link) || linkDown s link) = true := by
    simp [hup, Nat.not_le.mpr hlink]
  rw [harm, execLathLinkDown, if_neg first]
  rfl

theorem lathMarked_unchanged (s : State) (link : Nat) :
    Unchanged [.regs] s (lathStatus (fsetBit s (LTH_LINKDN_DOWN.ix (link / 32) 4) (link % 32) true)) :=
  unchanged_trans (fsetBit_unchanged s _ _ _) (lathStatus_unchanged _)

theorem linkFailed_unchanged (s : State) (link : Nat) (fl : List Flit) :
    Unchanged (.lath :: reportParts) s (linkFailed s link fl) :=
  unchanged_trans (unchanged_mono (lathMarked_unchanged s link) (by decide))
    (unchanged_mono (setLath_unchanged _ _) (by decide))

theorem linkFailed_rerouting (s : State) (link : Nat) (fl : List Flit) :
    (linkFailed s link fl).lath.rerouting = s.lath.rerouting ++ [(link, fl)] := by
  have same : (lathStatus _).lath = s.lath := lathMarked_unchanged s link .lath (by decide)
  show (lathStatus _).lath.rerouting ++ [(link, fl)] = _
  rw [same]

theorem linkDown_linkFailed (s : State) (link : Nat) (fl : List Flit) {l : Nat} (hl : l < 112) :
    linkDown (linkFailed s link fl) l = if l = link then true else linkDown s l := by
  have apart : (LTH_LINKDN_DOWN.ix (l / 32) 4).off ≠ LTH_STATUS_LINKS_DOWN.off := by
    have range := linkKey_range hl
    simp only [LTH_STATUS_LINKS_DOWN]
    omega
  rw [← linkDown_marked, linkFailed, linkDown_setLath]
  exact linkDown_congr (rget_lathStatus _ apart)

/-- Fencing the endpoints that became unreachable is a fault report and Keeper's list of fences (R13). -/
theorem ReportFrame.after_noteCut {s t : State} (h : ReportFrame s t) (before : List Nat) :
    ReportFrame s (noteCut t before) := by
  unfold noteCut
  split
  · exact h
  · exact (h.after_report _).after_modKpr _

/-- LATH_LINK_DOWN of a link that is up (R13, R15). -/
theorem lathLinkDown_first {s : State} {link : Nat} (fl : List Flit) (hlink : link < 112)
    (hup : linkDown s link = false) : ∃ t, exec (.lathLinkDown link fl) s = .next t ∧ linkDown t link = true ∧
      (∀ l < 112, l ≠ link → linkDown t l = linkDown s l) ∧
      t.lath.rerouting = s.lath.rerouting ++ [(link, fl)] ∧ Unchanged (.lath :: reportParts) s t := by
  have reported := ((ReportFrame.refl (linkFailed s link fl)).after_raise (0x100 + link) 0).after_noteCut
    (unreachableNodes (fget s LTH_CTL_REROUTE_EN == 1) (downLinks s))
  have sameLath := reported.parts .lath (by decide)
  refine ⟨_, exec_lathLinkDown fl hlink hup, ?_, ?_, ?_, ?_⟩
  · rw [reported.linkDown_eq hlink, linkDown_linkFailed s link fl hlink, if_pos rfl]
  · intro l hl hne
    rw [reported.linkDown_eq hl, linkDown_linkFailed s link fl hl, if_neg hne]
  · rw [show _ = (linkFailed s link fl).lath from sameLath, linkFailed_rerouting]
  · exact unchanged_trans (linkFailed_unchanged s link fl) (unchanged_mono reported.parts (List.subset_cons_self _ _))

/-- REROUTE_COMPLETE (R15). -/
theorem rerouteComplete_reinjects (s : State) (link : Nat) :
    ∃ t, exec (.rerouteComplete link) s = .next t ∧
      t.lath.inject = (s.lath.rerouting.filter (·.1 == link)).flatMap (·.2) ++ s.lath.inject ∧
      (∀ e ∈ t.lath.rerouting, e.1 ≠ link) ∧ t.lath.measured = s.lath.measured ∧ Unchanged [.lath] s t := by
  refine ⟨_, rfl, rfl, ?_, rfl, setLath_unchanged s _⟩
  intro e he
  exact bne_iff_ne.mp (List.mem_filter.mp he).2

/-! ## Pace monitors (R18) -/

theorem fget_setLath (s : State) (l : Lath) (f : Fld) : fget { s with lath := l } f = fget s f := rfl

/-- What a quadrant's pace counted as before a measurement: 0xFFFF before its first. -/
def paceBefore (s : State) (n : Nat) : Nat :=
  if tget false s.lath.measured n then fget s (MSR_PACE_PACE.ix n 4) else 0xFFFF

/-- The measurement is shown and its minimum kept. -/
def paceShown (s : State) (n p : Nat) : State :=
  let s := fset s (MSR_PACE_PACE.ix n 4) p
  let s := fset s (MSR_PACE_PACE_MIN.ix n 4) (min (fget s (MSR_PACE_PACE_MIN.ix n 4)) p)
  { s with lath := { s.lath with measured := tset false s.lath.measured n true } }

/-- WARN is set where the pace falls from at or above `thr` to below it. -/
def paceWarned (s : State) (n p thr old : Nat) : State :=
  if p < thr && thr ≤ old then fsetBit s MSR_STATUS_WARN n true else s

/-- FLOOR is set and reported where the pace falls from at or above 0x0100 to below it. -/
def paceFloored (s : State) (n p old : Nat) : State :=
  if p < 0x100 && 0x100 ≤ old then raise (fsetBit s MSR_STATUS_FLOOR n true) (0xA0 + n) else s

theorem exec_paceUpdate (s : State) {n : Nat} (pace : BitVec 16) (hn : n < 4) :
    exec (.paceUpdate n pace) s = .next (paceFloored (paceWarned (paceShown s n pace.toNat) n pace.toNat
      (fget s MSR_PACE_CTL_WARN_THR) (paceBefore s n)) n pace.toNat (paceBefore s n)) := by
  have harm : exec (.paceUpdate n pace) s = execPaceUpdate n pace s := rfl
  rw [harm, execPaceUpdate, if_neg (Nat.not_le.mpr hn), paceFloored]
  exact (apply_ite Host.Outcome.next _ _ _).symm

theorem paceShown_unchanged (s : State) (n p : Nat) : Unchanged (.lath :: reportParts) s (paceShown s n p) :=
  unchanged_trans (unchanged_mono (fset_unchanged s _ _) (by decide))
    (unchanged_trans (unchanged_mono (fset_unchanged _ _ _) (by decide))
      (unchanged_mono (setLath_unchanged _ _) (by decide)))

/-- The shown pace. -/
theorem fget_paceShown (s : State) (n p m : Nat) (hp : p < 2 ^ 16) :
    fget (paceShown s n p) (MSR_PACE_PACE.ix m 4) = if m = n then p else fget s (MSR_PACE_PACE.ix m 4) := by
  rw [paceShown, fget_setLath, fget_fset_ne _ _ _ _ (show 16 + 16 ≤ 32 by decide)
    (.inr (.inr (show 0 + 16 ≤ 16 by decide)))]
  by_cases h : m = n
  · rw [h, if_pos rfl, fget_fset_same _ _ _ (show 0 + 16 ≤ 32 by decide)]
    exact Nat.mod_eq_of_lt hp
  · have apart : (MSR_PACE_PACE.ix m 4).off ≠ (MSR_PACE_PACE.ix n 4).off := by
      simp only [Fld.ix]
      omega
    rw [if_neg h, fget_fset_off _ _ _ _ apart]

/-- The kept minimum. -/
theorem fget_paceShown_min (s : State) (n p : Nat) (hp : p < 2 ^ 16) :
    fget (paceShown s n p) (MSR_PACE_PACE_MIN.ix n 4) = min (fget s (MSR_PACE_PACE_MIN.ix n 4)) p := by
  rw [paceShown, fget_setLath, fget_fset_same _ _ _ (show 16 + 16 ≤ 32 by decide),
    fget_fset_ne _ _ _ _ (show 0 + 16 ≤ 32 by decide) (.inr (.inl (show 0 + 16 ≤ 16 by decide)))]
  exact Nat.mod_eq_of_lt (lt_of_le_of_lt (min_le_right _ _) hp)

theorem paceWarned_unchanged (s : State) (n p thr old : Nat) : Unchanged [.regs] s (paceWarned s n p thr old) := by
  unfold paceWarned
  split
  · exact fsetBit_unchanged s _ _ _
  · exact unchanged_refl _ s

theorem rget_paceWarned (s : State) (n p thr old : Nat) {k : Nat} (hk : k ≠ MSR_STATUS_WARN.off) :
    rget (paceWarned s n p thr old) k = rget s k := by
  unfold paceWarned
  split
  · exact rget_fsetBit s _ _ _ hk
  · rfl

theorem warn_paceWarned (s : State) {n p thr old : Nat} (hn : n < 4) (hbelow : p < thr) (hfrom : thr ≤ old) :
    fbit (paceWarned s n p thr old) MSR_STATUS_WARN n = true := by
  have falls : (decide (p < thr) && decide (thr ≤ old)) = true := by simp [hbelow, hfrom]
  rw [paceWarned, if_pos falls, fbit_fsetBit s _ _ (by decide) hn hn, if_pos rfl]

/-- The alarm is a fault report from the state with FLOOR set, or nothing at all. -/
theorem paceFloored_cases (s : State) (n p old : Nat) :
    ReportFrame (fsetBit s MSR_STATUS_FLOOR n true) (paceFloored s n p old) ∨ paceFloored s n p old = s := by
  unfold paceFloored
  split
  · exact .inl ((ReportFrame.refl _).after_raise _ _)
  · exact .inr rfl

theorem paceFloored_unchanged (s : State) (n p old : Nat) : Unchanged reportParts s (paceFloored s n p old) := by
  rcases paceFloored_cases s n p old with reported | same
  · exact unchanged_trans (unchanged_mono (fsetBit_unchanged s _ _ _) (by decide)) reported.parts
  · rw [same]
    exact unchanged_refl _ s

theorem rget_paceFloored (s : State) (n p old : Nat) {k : Nat} (hk : k ≠ MSR_STATUS_FLOOR.off) (hr : ¬ReportKey k) :
    rget (paceFloored s n p old) k = rget s k := by
  rcases paceFloored_cases s n p old with reported | same
  · rw [reported.regs k hr, rget_fsetBit s _ _ _ hk]
  · rw [same]

/-- FLOOR stands above WARN in the same word (Table 01-10). -/
theorem warn_paceFloored (s : State) {n p old : Nat} (hn : n < 4) :
    fget (paceFloored s n p old) MSR_STATUS_WARN = fget s MSR_STATUS_WARN := by
  rcases paceFloored_cases s n p old with reported | same
  · rw [reported.fget_eq (not_reportKey_above (by decide)), fsetBit,
      fget_fset_ne _ _ _ _ (show 8 + n + 1 ≤ 32 by omega) (.inr (.inr (show 4 + 4 ≤ 8 + n by omega)))]
  · rw [same]

theorem paceKey_range {n : Nat} (hn : n < 4) : 0x1603000 ≤ (MSR_PACE_PACE.ix n 4).off ∧
    (MSR_PACE_PACE.ix n 4).off < 0x1603010 := by
  simp only [Fld.ix, MSR_PACE_PACE]
  omega

/-- The two alarms leave the words of the measurements as they are. -/
theorem rget_paceAlarms (s : State) (n p thr old : Nat) {m : Nat} (hm : m < 4) :
    rget (paceFloored (paceWarned s n p thr old) n p old) (MSR_PACE_PACE.ix m 4).off =
      rget s (MSR_PACE_PACE.ix m 4).off := by
  have range := paceKey_range hm
  have noReport := not_reportKey_above (Nat.le_trans (by decide) range.1)
  have noStatus : (MSR_PACE_PACE.ix m 4).off ≠ 0x1603014 := by omega
  rw [rget_paceFloored _ _ _ _ noStatus noReport, rget_paceWarned _ _ _ _ _ noStatus]

/-- PACE_UPDATE (R18). -/
theorem paceUpdate_measures (s : State) {n : Nat} (pace : BitVec 16) (hn : n < 4) :
    ∃ t, exec (.paceUpdate n pace) s = .next t ∧ fget t (MSR_PACE_PACE.ix n 4) = pace.toNat ∧
      fget t (MSR_PACE_PACE_MIN.ix n 4) = min (fget s (MSR_PACE_PACE_MIN.ix n 4)) pace.toNat ∧
      (pace.toNat < fget s MSR_PACE_CTL_WARN_THR → tget false s.lath.measured n = true →
        fget s MSR_PACE_CTL_WARN_THR ≤ fget s (MSR_PACE_PACE.ix n 4) → fbit t MSR_STATUS_WARN n = true) ∧
      (∀ m < 4, m ≠ n → fget t (MSR_PACE_PACE.ix m 4) = fget s (MSR_PACE_PACE.ix m 4)) ∧
      Unchanged (.lath :: reportParts) s t := by
  have hp : pace.toNat < 2 ^ 16 := pace.isLt
  have alarms {m : Nat} (hm : m < 4) := rget_paceAlarms (paceShown s n pace.toNat) n pace.toNat
    (fget s MSR_PACE_CTL_WARN_THR) (paceBefore s n) hm
  refine ⟨_, exec_paceUpdate s pace hn, ?_, ?_, ?_, ?_, ?_⟩
  · rw [fget_congr (alarms hn), fget_paceShown s n _ n hp, if_pos rfl]
  · rw [fget_congr (f := MSR_PACE_PACE_MIN.ix n 4) (alarms hn), fget_paceShown_min s n _ hp]
  · intro hbelow hmeasured hfrom
    have before : paceBefore s n = fget s (MSR_PACE_PACE.ix n 4) := if_pos hmeasured
    rw [fbit_congr n (warn_paceFloored _ hn)]
    exact warn_paceWarned _ hn hbelow (before ▸ hfrom)
  · intro m hm hne
    rw [fget_congr (alarms hm), fget_paceShown s n _ m hp, if_neg hne]
  · exact unchanged_trans (paceShown_unchanged s n _) (unchanged_trans
      (unchanged_mono (paceWarned_unchanged _ _ _ _ _) (by decide))
      (unchanged_mono (paceFloored_unchanged _ _ _ _) (List.subset_cons_self _ _)))

/-- One monitor's minimum starts again at 0xFFFF. -/
def restartMin (s : State) (n : Nat) : State := fset s (MSR_PACE_PACE_MIN.ix n 4) 0xFFFF

theorem exec_minRestart (s : State) : exec .minRestart s = .next ([0, 1, 2, 3].foldl restartMin s) := rfl

theorem restartMins_unchanged (ns : List Nat) (s : State) : Unchanged [.regs] s (ns.foldl restartMin s) := by
  induction ns generalizing s with
  | nil => exact unchanged_refl _ s
  | cons m ns ih => exact unchanged_trans (fset_unchanged s _ _) (ih _)

theorem rget_restartMins (ns : List Nat) (s : State) {k : Nat}
    (hk : ∀ n ∈ ns, k ≠ (MSR_PACE_PACE_MIN.ix n 4).off) : rget (ns.foldl restartMin s) k = rget s k := by
  induction ns generalizing s with
  | nil => rfl
  | cons m ns ih =>
    rw [List.foldl_cons, ih _ fun n hn => hk n (List.mem_cons_of_mem m hn)]
    exact rget_fset s _ _ k (hk m List.mem_cons_self)

theorem fget_restartMins (ns : List Nat) (s : State) (n : Nat) :
    fget (ns.foldl restartMin s) (MSR_PACE_PACE_MIN.ix n 4) =
      if n ∈ ns then 0xFFFF else fget s (MSR_PACE_PACE_MIN.ix n 4) := by
  induction ns generalizing s with
  | nil => rfl
  | cons m ns ih =>
    rw [List.foldl_cons, ih, restartMin]
    by_cases hm : n = m
    · rw [hm, fget_fset_same _ _ _ (show 16 + 16 ≤ 32 by decide), if_pos List.mem_cons_self]
      exact ite_self _
    · have apart : (MSR_PACE_PACE_MIN.ix n 4).off ≠ (MSR_PACE_PACE_MIN.ix m 4).off := by
        simp only [Fld.ix]
        omega
      rw [fget_fset_off _ _ _ _ apart]
      simp only [List.mem_cons, hm, false_or]

theorem pace_restartMins (ns : List Nat) (s : State) (n : Nat) :
    fget (ns.foldl restartMin s) (MSR_PACE_PACE.ix n 4) = fget s (MSR_PACE_PACE.ix n 4) := by
  induction ns generalizing s with
  | nil => rfl
  | cons m ns ih =>
    rw [List.foldl_cons, ih, restartMin, fget_fset_ne _ _ _ _ (show 16 + 16 ≤ 32 by decide)
      (.inr (.inr (show 0 + 16 ≤ 16 by decide)))]

/-- MIN_RESTART (Table 01-9). -/
theorem minRestart_restarts (s : State) : ∃ t, exec .minRestart s = .next t ∧
    (∀ n < 4, fget t (MSR_PACE_PACE_MIN.ix n 4) = 0xFFFF) ∧
    (∀ n < 4, fget t (MSR_PACE_PACE.ix n 4) = fget s (MSR_PACE_PACE.ix n 4)) ∧
    RegsBut ((List.range 4).map fun n => (MSR_PACE_PACE_MIN.ix n 4).off) s t ∧ Unchanged [.regs] s t := by
  have four : List.range 4 = [0, 1, 2, 3] := rfl
  refine ⟨_, exec_minRestart s, ?_, fun n _ => pace_restartMins _ s n, ?_, restartMins_unchanged _ s⟩
  · intro n hn
    rw [fget_restartMins, ← four, if_pos (List.mem_range.mpr hn)]
  · intro k hk
    exact rget_restartMins _ s fun n hn e => hk (e ▸ List.mem_map_of_mem (four ▸ hn))

/-! ## The timebase (R22) -/

/-- The stamp the arbiter issues from timebase `b`, and the timebase `b'` it leaves: the present nanosecond with the
next sequence number, or, where 16 stamps were issued in it, the next nanosecond with number 0. -/
structure Stamps (b : Timebase) (ns seq : Nat) (b' : Timebase) : Prop where
  notBefore : b.ns ≤ ns
  atMostNext : ns ≤ b.ns + 1
  seqLt : seq < 16
  inNs : ns = b.ns → seq = b.issued
  nsAfter : b'.ns = ns
  bootAfter : b'.boot = b.boot
  issuedAfter : b'.issued = seq + 1

theorem grantStamp_stamps (s : State) :
    ∃ ns seq b, grantStamp s = ((ns, seq), { s with tb := b }) ∧ Stamps s.tb ns seq b := by
  unfold grantStamp
  split
  case isTrue h => exact ⟨_, _, _, rfl, le_rfl, Nat.le_succ _, h, fun _ => rfl, rfl, rfl, if_pos rfl⟩
  case isFalse h =>
    have later : s.tb.ns + 1 = s.tb.ns → 0 = s.tb.issued := fun e => absurd e (Nat.succ_ne_self _)
    exact ⟨_, _, _, rfl, Nat.le_succ _, le_rfl, by decide, later, rfl, rfl, if_pos rfl⟩

theorem advanceTo_past {s : State} {now : Nat} (h : now ≤ s.tb.ns) : advanceTo s now = s := by
  rw [advanceTo, max_eq_left h]

/-- TIMESTAMP_GRANT (R22): the timebase stands at the time asked for at least, and its stamp is the output. -/
theorem exec_timestampGrant (s : State) (now : Nat) : ∃ ns seq b,
    exec (.timestampGrant now) s = .next (emit { s with tb := b } (.stamp s.tb.boot ns seq)) ∧
      Stamps (advanceTo s now).tb ns seq b := by
  obtain ⟨ns, seq, b, grant, stamps⟩ := grantStamp_stamps (advanceTo s now)
  refine ⟨ns, seq, b, ?_, stamps⟩
  have harm : exec (.timestampGrant now) s = execTimestampGrant now s := rfl
  have boot : b.boot = s.tb.boot := stamps.bootAfter
  rw [harm, execTimestampGrant, grant, ← boot]
  rfl

theorem timestampGrant_stamps (s : State) (now : Nat) :
    ∃ t ns seq, exec (.timestampGrant now) s = .next t ∧ t.out = .stamp s.tb.boot ns seq :: s.out ∧ now ≤ ns ∧
      s.tb.ns ≤ ns ∧ ns ≤ max s.tb.ns now + 1 ∧ seq < 16 ∧ t.tb.ns = ns ∧ t.tb.boot = s.tb.boot ∧
      t.tb.issued = seq + 1 ∧ Unchanged [.tb, .out] s t := by
  obtain ⟨ns, seq, b, run, stamps⟩ := exec_timestampGrant s now
  have fromMax : max s.tb.ns now ≤ ns := stamps.notBefore
  have advanced : Unchanged [.tb, .out] s { s with tb := b } := unchanged_mono (setTb_unchanged s b) (by decide)
  exact ⟨_, ns, seq, run, rfl, le_trans (le_max_right _ _) fromMax, le_trans (le_max_left _ _) fromMax,
    stamps.atMostNext, stamps.seqLt, stamps.nsAfter, stamps.bootAfter, stamps.issuedAfter,
    unchanged_trans advanced (unchanged_mono (emit_unchanged _ _) (by decide))⟩

/-- A later stamp of the same boot count never gives the same pair (R22). -/
theorem timestampGrant_next {s t u : State} {now now' ns seq ns' seq' : Nat}
    (first : exec (.timestampGrant now) s = .next t) (out : t.out = .stamp s.tb.boot ns seq :: s.out)
    (second : exec (.timestampGrant now') t = .next u) (out' : u.out = .stamp t.tb.boot ns' seq' :: t.out) :
    ns < ns' ∨ (ns = ns' ∧ seq' = seq + 1) := by
  obtain ⟨a, i, b, run, stamps⟩ := exec_timestampGrant s now
  obtain ⟨a', i', b', run', stamps'⟩ := exec_timestampGrant t now'
  cases run.symm.trans first
  cases run'.symm.trans second
  cases out
  cases out'
  have later : max b.ns now' ≤ ns' := stamps'.notBefore
  rw [stamps.nsAfter] at later
  rcases Nat.lt_or_ge ns ns' with lt | ge
  · exact .inl lt
  · have same : ns' = ns := le_antisymm ge (le_trans (le_max_left _ _) later)
    have past : now' ≤ b.ns := stamps.nsAfter ▸ same ▸ le_trans (le_max_right _ _) later
    have still : (advanceTo (emit { s with tb := b } (.stamp s.tb.boot ns seq)) now').tb = b := by
      rw [advanceTo_past past]
      rfl
    refine .inr ⟨same.symm, ?_⟩
    rw [stamps'.inNs, still, stamps.issuedAfter]
    rw [still, same, stamps.nsAfter]

/-! ## The statement -/

/-- Settles O11: one lemma for each of the five commands, and one for two grants in a row. -/
theorem lathAndTimebase : Obligations.LathAndTimebase := by
  unfold Obligations.LathAndTimebase
  refine ⟨⟨?_, rerouteComplete_reinjects, ?_, minRestart_restarts⟩, timestampGrant_stamps, ?_⟩
  · intro s link fl hlink hup
    exact lathLinkDown_first fl hlink hup
  · intro s n pace hn
    exact paceUpdate_measures s pace hn
  · intro s t u now now' ns seq ns' seq' first out second out'
    exact timestampGrant_next first out second out'

end Sys2Proof.Laws
end

section
/-!
PROOFS. The statement of 02_package_and_electrical.md: pins (R40, R41), fans (R43), temperature sensors (R59) and the
AVSBus (R47 to R49). The lemmas in front of them serve every later proof: how register frames compose, what a fault
report does after its record is entered (`SignalFrame`), and that the record shows its source (R487).
-/

namespace Sys2Proof.Laws

open Sys2Proof.Machine

/-! ## Register frames -/

theorem regsBut_refl (keys : List Nat) (s : State) : RegsBut keys s s := fun _ _ => rfl

theorem regsBut_trans {keys : List Nat} {s t u : State} (h : RegsBut keys s t) (k : RegsBut keys t u) :
    RegsBut keys s u := fun i hi => (k i hi).trans (h i hi)

/-- Writing a field of a listed word. -/
theorem regsBut_fset {keys : List Nat} {f : Fld} (s : State) (x : Nat) (hf : f.off ∈ keys) :
    RegsBut keys s (fset s f x) := fun k hk => rget_fset s f x k fun e => hk (e ▸ hf)

/-- A field outside the listed words reads as before. -/
theorem fget_regsBut {keys : List Nat} {s t : State} {f : Fld} (h : RegsBut keys s t) (hf : f.off ∉ keys) :
    fget t f = fget s f := fget_congr (h _ hf)

theorem fget_lt (s : State) (f : Fld) : fget s f < 2 ^ f.w := Nat.mod_lt _ (Nat.two_pow_pos _)

theorem modPwr_unchanged (s : State) (f : Power → Power) : Unchanged [.pwr] s (modPwr s f) := by
  intro part hpart
  cases part with
  | pwr => exact absurd List.mem_cons_self hpart
  | _ => rfl

/-! ## What a report does after its record is entered (R489 to R496) -/

/-- The words that signalling an entered record may change: FOGHORN, the causes of both status registers, and the count
of events Daymark lost. -/
def signalWords : List Nat :=
  [KPR_FOGHORN_HOLD.off, KPR_IRQ_STAT_CAUSE.off, KPR_MGT_STAT_CAUSE.off, DMK_LOSS_OVERFLOW.off]

/-- The fields that signalling an entered record may change: those of these words, and of a record that closes its ACKED
bit and its ACK_US word. -/
def SignalField (f : Fld) : Prop :=
  f.off ∈ signalWords ∨
    ∃ i < 32, f.off = (recF i 6 0 32).off ∨ (f.off = (recAcked i).off ∧ f.lo ≤ 19 ∧ 19 < f.lo + f.w)

/-- The parts of the state that entering a record and signalling it may change. -/
def signalParts : List Part := [.tb, .regs, .out, .fns, .kpr, .dmk]

/-- From `s` to `t` nothing has changed but what signalling an entered record may change. -/
structure SignalFrame (s t : State) : Prop where
  parts : Unchanged signalParts s t
  fields : ∀ f, ¬SignalField f → fget t f = fget s f

/-- The source of a record is no field that signalling changes. -/
theorem not_signalField_recSource {slot : Nat} (hslot : slot < 32) : ¬SignalField (recSource slot) := by
  rintro (hword | ⟨i, -, hack | ⟨-, -, hbit⟩⟩)
  · simp only [signalWords, recSource, recF, KPR_FOGHORN_HOLD, KPR_IRQ_STAT_CAUSE, KPR_MGT_STAT_CAUSE, DMK_LOSS_OVERFLOW,
      List.mem_cons, List.not_mem_nil, or_false] at hword
    omega
  · simp only [recSource, recF] at hack
    omega
  · simp only [recSource, recF] at hbit
    omega

theorem not_signalField_safeSource : ¬SignalField KPR_SAFE_SOURCE := by
  rintro (hword | ⟨i, -, hack | ⟨hack, -⟩⟩)
  · exact absurd hword (by decide)
  · simp only [recF, KPR_SAFE_SOURCE] at hack
    omega
  · simp only [recAcked, recF, KPR_SAFE_SOURCE] at hack
    omega

/-- New values of the parts that signalling may change leave every other part alone. -/
theorem setSignalParts_unchanged (s : State) (b : Timebase) (r : Tbl Word) (o : List Out) (fs : Tbl FnState)
    (k : Keeper) (d : Daymark) :
    Unchanged signalParts s { s with tb := b, regs := r, out := o, fns := fs, kpr := k, dmk := d } := by
  intro part hpart
  cases part with
  | tb | regs | out | fns | kpr | dmk => exact absurd (by decide) hpart
  | _ => rfl

namespace SignalFrame

variable {s t u : State}

theorem refl (s : State) : SignalFrame s s := ⟨unchanged_refl _ s, fun _ _ => rfl⟩

theorem trans (h : SignalFrame s t) (k : SignalFrame t u) : SignalFrame s u :=
  ⟨unchanged_trans h.parts k.parts, fun f hf => (k.fields f hf).trans (h.fields f hf)⟩

theorem phase_eq (h : SignalFrame s t) : t.phase = s.phase := h.parts .phase (by decide)

theorem rst_eq (h : SignalFrame s t) : t.rst = s.rst := h.parts .rst (by decide)

theorem after_ite {c : Prop} [Decidable c] {a b : State} (ha : SignalFrame s a) (hb : SignalFrame s b) :
    SignalFrame s (if c then a else b) := by
  split <;> assumption

/-- The outputs, the functions, Keeper and Daymark take any new value. -/
theorem after_parts (h : SignalFrame s t) (o : List Out) (fs : Tbl FnState) (k : Keeper) (d : Daymark) :
    SignalFrame s { t with out := o, fns := fs, kpr := k, dmk := d } :=
  h.trans ⟨setSignalParts_unchanged t t.tb t.regs o fs k d, fun _ _ => rfl⟩

/-- A write of a word all of whose fields signalling may change. -/
theorem after_rset (h : SignalFrame s t) {k : Nat} (hk : ∀ f : Fld, f.off = k → SignalField f) (v : Word) :
    SignalFrame s (rset t k v) :=
  h.trans ⟨setSignalParts_unchanged t _ _ _ _ _ _, fun f hf =>
    fget_congr (by rw [rget_rset, if_neg fun e => hf (hk f e)])⟩

theorem after_fset (h : SignalFrame s t) {f : Fld} (hf : f.off ∈ signalWords) (x : Nat) : SignalFrame s (fset t f x) :=
  h.after_rset (fun _ e => .inl (e ▸ hf)) _

theorem after_fsetBit (h : SignalFrame s t) {f : Fld} (hf : f.off ∈ signalWords) (i : Nat) (b : Bool) :
    SignalFrame s (fsetBit t f i b) := h.after_fset (f := { f with lo := f.lo + i, w := 1 }) hf _

theorem after_modKpr (h : SignalFrame s t) (f : Keeper → Keeper) : SignalFrame s (modKpr t f) :=
  h.after_parts _ _ _ _

theorem after_modGroup (h : SignalFrame s t) (g : Nat) (f : GroupEntry → GroupEntry) :
    SignalFrame s (modGroup t g f) := h.after_modKpr _

theorem after_countSource (h : SignalFrame s t) (src : Nat) : SignalFrame s (countSource t src) := h.after_modKpr _

theorem after_emit (h : SignalFrame s t) (o : Out) : SignalFrame s (emit t o) := h.after_parts _ _ _ _

theorem after_modFn (h : SignalFrame s t) (fid : Nat) (f : FnState → FnState) : SignalFrame s (modFn t fid f) :=
  h.after_parts _ _ _ _

theorem after_msixSend (h : SignalFrame s t) (fid vec : Nat) : SignalFrame s (msixSend t fid vec) :=
  after_ite h (after_ite (h.after_modFn _ _) (h.after_emit _))

theorem after_aerReport (h : SignalFrame s t) (fid kind : Nat) : SignalFrame s (aerReport t fid kind) :=
  (h.after_modFn _ _).after_emit _

theorem after_dmkPush (h : SignalFrame s t) (code data : Nat) : SignalFrame s (dmkPush t code data) :=
  have counted : SignalFrame s (fbump t DMK_LOSS_OVERFLOW) := h.after_fset (by decide) _
  after_ite (h.after_parts _ _ _ _) (counted.after_parts _ _ _ _)

theorem after_keeperCause (h : SignalFrame s t) (k : Nat) : SignalFrame s (keeperCause t k) :=
  have latched := (h.after_fsetBit (f := KPR_IRQ_STAT_CAUSE) (by decide) k true).after_fsetBit
    (f := KPR_MGT_STAT_CAUSE) (by decide) k true
  after_ite (latched.after_msixSend _ _) latched

/-- Of word 3 of a closing record only ACKED changes. -/
theorem after_acked (h : SignalFrame s t) {i : Nat} (hi : i < 32) : SignalFrame s (fset t (recAcked i) 1) :=
  h.trans ⟨unchanged_mono (fset_unchanged t _ _) (by decide), by
    intro f hf
    refine fget_fset_ne t (recAcked i) f 1 (show 19 + 1 ≤ 32 by decide) ?_
    by_contra overlap
    simp only [not_or, not_not, not_le] at overlap
    obtain ⟨same, above, below⟩ := overlap
    exact hf (.inr ⟨i, hi, .inr ⟨same, Nat.le_of_lt_succ above, below⟩⟩)⟩

theorem after_closeRecord (h : SignalFrame s t) (rseq : Nat) : SignalFrame s (closeRecord t rseq) := by
  unfold closeRecord
  split
  case h_1 => exact h
  case h_2 i hrec =>
    have hi := findRec_lt hrec
    exact after_ite h ((h.after_acked hi).after_rset (fun _ e => .inr ⟨i, hi, .inl e⟩) _)

theorem after_openEntry (h : SignalFrame s t) (src rseq : Nat) (cls : Cls) :
    SignalFrame s (openEntry t src rseq cls) := by
  cases cls with
  | corrected =>
    refine after_ite (h.after_closeRecord _) (after_modGroup ?_ _ _)
    split
    · exact h.after_closeRecord _
    · exact h
  | contained =>
    refine after_modGroup ?_ _ _
    split
    · exact h.after_closeRecord _
    · exact h
  | fatal => exact h

theorem after_fogOnRecord (h : SignalFrame s t) (cls : Cls) : SignalFrame s (fogOnRecord t cls) := by
  cases cls with
  | corrected => exact h
  | contained =>
    have pulsed := h.after_modKpr fun k => { k with pulse := true }
    exact after_ite (pulsed.after_fset (by decide) 1) pulsed
  | fatal => exact h.after_modKpr fun k => { k with pulse := true, locked := true }

theorem after_signalClass (h : SignalFrame s t) (src : Nat) (cls : Cls) : SignalFrame s (signalClass t src cls) := by
  cases cls with
  | corrected => exact h.after_keeperCause 0
  | contained => exact (after_ite (h.after_aerReport _ _) (h.after_aerReport _ _)).after_keeperCause 1
  | fatal => exact h.after_keeperCause 2

end SignalFrame

/-- A report that does not merge enters its record, signals it, and decides on SAFE where its class is fatal. -/
theorem reportRecord_signals (s : State) (r : Report) : ∃ cause u,
    SignalFrame (enterRecord s (recWord3 r.src (classOf s r) r.cls r.forced (escalatedFrom s r).isSome
      (conseqOf s r).isSome false) r.data cause).2 u ∧
    reportRecord s r = if classOf s r = .fatal then fatalFault u r.src else u := by
  unfold reportRecord
  dsimp -zeta -zetaHave only
  extract_lets from? conseq? cls region opens listed counted fenced opened fogged signalled escalated final
  refine ⟨from? <|> conseq?, final, ?_, rfl⟩
  have counted' : SignalFrame _ counted :=
    ((SignalFrame.refl (enterRecord s (recWord3 r.src cls r.cls r.forced from?.isSome conseq?.isSome false) r.data
      (from? <|> conseq?)).2).after_modKpr _).after_countSource _
  have fenced' : SignalFrame _ fenced := .after_ite (counted'.after_modKpr _) counted'
  have opened' : SignalFrame _ opened :=
    .after_ite (fenced'.after_openEntry _ _ _) (.after_ite (fenced'.after_closeRecord _) fenced')
  have signalled' : SignalFrame _ signalled := (opened'.after_fogOnRecord _).after_signalClass _ _
  have escalated' : SignalFrame _ escalated :=
    .after_ite ((signalled'.after_dmkPush _ _).after_keeperCause _) signalled'
  exact .after_ite (escalated'.after_dmkPush _ _) escalated'

/-! ## The entered record (R487, R488) -/

theorem grantStamp_unchanged (s : State) : Unchanged [.tb] s (grantStamp s).2 := by
  unfold grantStamp
  split
  · exact setTb_unchanged s _
  · exact setTb_unchanged s _

theorem enterRecord_unchanged (s : State) (word3 data : Nat) (cause : Option Nat) :
    Unchanged signalParts s (enterRecord s word3 data cause).2 := by
  unfold enterRecord
  dsimp -zeta -zetaHave only
  extract_lets rseq placed word w0 w1 w2 w3 w4 w5 w6 w7 listed counted
  have stamped : Unchanged signalParts s (grantStamp s).2 := unchanged_mono (grantStamp_unchanged s) (by decide)
  have written {b : State} (hb : Unchanged signalParts s b) (k : Nat) (v : Word) : Unchanged signalParts s (rset b k v) :=
    unchanged_trans hb (unchanged_mono (rset_unchanged b k v) (by decide))
  have placed' : Unchanged signalParts s placed := by
    unfold placed
    split
    · exact unchanged_trans (written stamped _ _) (((SignalFrame.refl _).after_dmkPush _ _).after_keeperCause 5).parts
    · exact stamped
  have half : Unchanged signalParts s w3 := written (written (written (written placed' _ _) _ _) _ _) _ _
  have whole : Unchanged signalParts s w7 := written (written (written (written half _ _) _ _) _ _) _ _
  have listed' : Unchanged signalParts s listed :=
    unchanged_trans whole ((SignalFrame.refl w7).after_modKpr _).parts
  exact written (written listed' _ _) _ _

/-- The words of one slot lie apart. -/
theorem rget_rset_word (s : State) (slot i j v : Nat) :
    rget (rset s (0x1400100 + 32 * slot + 4 * i) (BitVec.ofNat 32 v)) (0x1400100 + 32 * slot + 4 * j) =
      if j = i then BitVec.ofNat 32 v else rget s (0x1400100 + 32 * slot + 4 * j) := by
  have place : 0x1400100 + 32 * slot + 4 * j = 0x1400100 + 32 * slot + 4 * i ↔ j = i := by omega
  rw [rget_rset]
  exact if_congr place rfl rfl

@[simp] theorem rget_modKpr (s : State) (f : Keeper → Keeper) (k : Nat) : rget (modKpr s f) k = rget s k := rfl

/-- Word 3 of the slot the record takes. -/
theorem rget_enterRecord_word3 (s : State) (word3 data : Nat) (cause : Option Nat) :
    rget (enterRecord s word3 data cause).2 (0x1400100 + 32 * newSlot s + 4 * 3) = BitVec.ofNat 32 word3 := by
  unfold enterRecord newSlot
  dsimp -zeta -zetaHave only
  generalize (pickSlot (grantStamp s).2).1 = slot
  extract_lets rseq placed word w0 w1 w2 w3 w4 w5 w6 w7 listed counted
  have notNext : 0x1400100 + 32 * slot + 4 * 3 ≠ 0x1400010 := by omega
  have atWord3 (b : State) (i v : Nat) : rget (word b i v) (0x1400100 + 32 * slot + 4 * 3) =
      if 3 = i then BitVec.ofNat 32 v else rget b (0x1400100 + 32 * slot + 4 * 3) := rget_rset_word b slot i 3 v
  have counted' : rget counted (0x1400100 + 32 * slot + 4 * 3) = rget w7 (0x1400100 + 32 * slot + 4 * 3) :=
    ((rget_fset _ KPR_HIST_NEXT_RSEQ _ _ notNext).trans (rget_fset listed KPR_HIST_NEXT_SLOT slot _ notNext)).trans
      (rget_modKpr w7 _ _)
  rw [counted', atWord3, if_neg (by decide), atWord3, if_neg (by decide), atWord3, if_neg (by decide), atWord3,
    if_neg (by decide), atWord3, if_pos rfl]

/-- Table 17-5: SOURCE stands in the low 12 bits of word 3. -/
theorem recWord3_source (src : Nat) (cls raised : Cls) (forced escalated conseq acked : Bool) :
    bitsGet (BitVec.ofNat 32 (recWord3 src cls raised forced escalated conseq acked)) 0 12 = src % 4096 := by
  unfold bitsGet recWord3
  rw [BitVec.toNat_ofNat]
  omega

theorem recSource_enterRecord (s : State) (r : Report) (cls : Cls) (escalated conseq : Bool) (cause : Option Nat) :
    fget (enterRecord s (recWord3 r.src cls r.cls r.forced escalated conseq false) r.data cause).2
      (recSource (newSlot s)) = r.src % 4096 := by
  rw [fget, show (recSource (newSlot s)).off = 0x1400100 + 32 * newSlot s + 4 * 3 from rfl, rget_enterRecord_word3]
  exact recWord3_source _ _ _ _ _ _ _

/-! ## SAFE decided by a fatal fault (R498) -/

/-- KPR_SAFE as R498 gives it at each entry. -/
def safeShown (s : State) (src : Nat) (direct : Bool) : State :=
  let s := fset (fset (fset s KPR_SAFE_QUEUES_DONE 0) KPR_SAFE_HEADS_DONE 0) KPR_SAFE_FLUSH_DONE 0
  fset (fset (fset s KPR_SAFE_VALID 1) KPR_SAFE_DIRECT (b2n direct)) KPR_SAFE_SOURCE src

theorem safeShown_phase (s : State) (src : Nat) (direct : Bool) : (safeShown s src direct).phase = s.phase := rfl

theorem safeShown_source (s : State) (src : Nat) (direct : Bool) :
    fget (safeShown s src direct) KPR_SAFE_SOURCE = src % 4096 := fget_fset_same _ KPR_SAFE_SOURCE _ (by decide)

theorem safeShown_regsBut (s : State) (src : Nat) (direct : Bool) :
    RegsBut [KPR_SAFE_VALID.off] s (safeShown s src direct) := by
  have inSafe (b : State) (lo w x : Nat) : RegsBut [KPR_SAFE_VALID.off] b (fset b ⟨KPR_SAFE_VALID.off, lo, w⟩ x) :=
    regsBut_fset b x List.mem_cons_self
  have cleared := regsBut_trans (inSafe s 2 1 0) (regsBut_trans (inSafe _ 3 1 0) (inSafe _ 4 1 0))
  exact regsBut_trans cleared (regsBut_trans (inSafe _ 0 1 1) (regsBut_trans (inSafe _ 1 1 _) (inSafe _ 16 12 src)))

/-- Where KPR_SAFE shows the decision, only signalling is left. -/
theorem safeDecide_signals (s : State) (src : Nat) (direct : Bool) :
    SignalFrame (safeShown (setPhase s .safe src) src direct) (safeDecide s src direct) :=
  (((SignalFrame.refl _).after_dmkPush _ _).after_modKpr _).after_keeperCause 2

/-- The decision of SAFE: the device state, KPR_SAFE with the source, and beside that no field but the signalled ones. -/
theorem safeDecide_decides (s : State) (src : Nat) (direct : Bool) :
    (safeDecide s src direct).phase = .safe ∧ fget (safeDecide s src direct) KPR_SAFE_SOURCE = src % 4096 ∧
      ∀ f, ¬SignalField f → f.off ≠ KPR_SAFE_VALID.off → fget (safeDecide s src direct) f = fget s f := by
  have entered : SignalFrame { s with phase := .safe } (setPhase s .safe src) := (SignalFrame.refl _).after_dmkPush _ _
  have decided := safeDecide_signals s src direct
  refine ⟨?_, ?_, ?_⟩
  · rw [decided.phase_eq, safeShown_phase, entered.phase_eq]
  · rw [decided.fields _ not_signalField_safeSource, safeShown_source]
  · intro f hf hsafe
    have elsewhere : f.off ∉ [KPR_SAFE_VALID.off] := fun h => hsafe (List.mem_singleton.mp h)
    rw [decided.fields f hf, fget_regsBut (safeShown_regsBut _ _ _) elsewhere]
    exact entered.fields f hf

theorem fatalFault_decides {s : State} (src : Nat) (direct : Bool) (h : decidesSafe s) :
    fatalFault s src direct = safeDecide s src direct := by
  obtain ⟨hwarm, hphase⟩ := h
  rw [fatalFault, hwarm, if_neg (by decide)]
  revert hphase
  cases s.phase with
  | loading | selftest | discovery | bringup | serving | degraded => exact fun _ => rfl
  | ballast | off | safe | beacon => exact fun hphase => absurd hphase (by decide)

/-- A fatal fault leaves every field but the signalled ones and KPR_SAFE as it is. -/
theorem fget_fatalFault (s : State) (src : Nat) (direct : Bool) {f : Fld} (hf : ¬SignalField f)
    (hsafe : f.off ≠ KPR_SAFE_VALID.off) : fget (fatalFault s src direct) f = fget s f := by
  obtain ⟨-, -, kept⟩ := safeDecide_decides s src direct
  unfold fatalFault
  split
  · rfl
  · cases s.phase with
    | loading | selftest | discovery | bringup | serving | degraded => exact kept f hf hsafe
    | ballast | off | safe | beacon => rfl

/-! ## Reports that do not merge -/

theorem report_unmerged {s : State} {r : Report} (hphase : s.phase ≠ .off) (hforcing : s.kpr.forcing = none)
    (hmerge : r.cls = .corrected → mergeSlot s r.src = none) : report s r = reportRecord s r := by
  have unforced : forcedReport s r = r := by rw [forcedReport, hforcing, if_neg (by simp)]
  have fresh : (if r.cls = .corrected then mergeSlot s r.src else none) = none := by
    split
    case isTrue h => exact hmerge h
    case isFalse => rfl
  rw [report, unforced, if_neg hphase, fresh]

/-- R487: the record shows the source that reported. -/
theorem recSource_reportRecord (s : State) (r : Report) :
    fget (reportRecord s r) (recSource (newSlot s)) = r.src % 4096 := by
  obtain ⟨cause, u, signalled, run⟩ := reportRecord_signals s r
  have plain : ¬SignalField (recSource (newSlot s)) := not_signalField_recSource (pickSlot_lt _)
  have notSafe : (recSource (newSlot s)).off ≠ KPR_SAFE_VALID.off := by
    simp only [recSource, recF, KPR_SAFE_VALID]
    omega
  have shown : fget u (recSource (newSlot s)) = r.src % 4096 := by
    rw [signalled.fields _ plain, recSource_enterRecord]
  rw [run]
  split
  · rw [fget_fatalFault _ _ _ plain notSafe, shown]
  · exact shown

/-- R490, R498: a fatal report in a working state is fatal as it stands, and decides SAFE. -/
theorem reportRecord_fatal {s : State} {r : Report} (hcls : r.cls = .fatal) (h : decidesSafe s) :
    (reportRecord s r).phase = .safe ∧ fget (reportRecord s r) KPR_SAFE_SOURCE = r.src % 4096 := by
  obtain ⟨cause, u, signalled, run⟩ := reportRecord_signals s r
  have fatal : classOf s r = .fatal := by
    unfold classOf
    rw [hcls]
    exact ite_self _
  have entered := enterRecord_unchanged s (recWord3 r.src (classOf s r) r.cls r.forced (escalatedFrom s r).isSome
    (conseqOf s r).isSome false) r.data cause
  have hphase : u.phase = s.phase := signalled.phase_eq.trans (entered .phase (by decide))
  have hrst : u.rst = s.rst := signalled.rst_eq.trans (entered .rst (by decide))
  have working : decidesSafe u := by
    unfold decidesSafe
    rw [hphase, hrst]
    exact h
  obtain ⟨safe, source, -⟩ := safeDecide_decides u r.src false
  rw [run, if_pos fatal, fatalFault_decides _ _ working]
  exact ⟨safe, source⟩

/-! ## Temperature sensors (R59) -/

/-- The class of a sensor's level: 115, 125 and 135 °C. -/
def tempClass : Nat → Cls
  | 0 => .corrected
  | 1 => .contained
  | _ => .fatal

theorem sourceClass_temperature : ∀ level < 3, ∀ k < 8, sourceClass (0xB0 + 8 * level + k) = some (tempClass level) := by
  decide

theorem tempClass_corrected {level : Nat} (h : tempClass level = .corrected) : level = 0 := by
  unfold tempClass at h
  split at h
  case h_1 => rfl
  case h_2 => cases h
  case h_3 => cases h

/-- TEMP_THRESHOLD that does not merge enters the record of its source. -/
theorem exec_tempThreshold {s : State} {k level : Nat} (hk : k < 8) (hlevel : level < 3) (hphase : s.phase ≠ .off)
    (hforcing : s.kpr.forcing = none) (hmerge : level = 0 → mergeSlot s (0xB0 + k) = none) :
    exec (.tempThreshold k level) s =
      .next (reportRecord s { src := 0xB0 + 8 * level + k, cls := tempClass level }) := by
  have harm : exec (.tempThreshold k level) s = execTempThreshold k level s := rfl
  have listed : (decide (k < 8) && decide (level < 3)) = true := by simp [hk, hlevel]
  rw [harm, execTempThreshold, if_pos listed, raise, sourceClass_temperature level hlevel k hk]
  refine congrArg Host.Outcome.next (report_unmerged hphase hforcing fun hcls => ?_)
  obtain rfl := tempClass_corrected hcls
  exact hmerge rfl

theorem tempThreshold_records {s : State} {k level : Nat} (hk : k < 8) (hlevel : level < 3) (hphase : s.phase ≠ .off)
    (hforcing : s.kpr.forcing = none) (hmerge : level = 0 → mergeSlot s (0xB0 + k) = none) :
    ∃ t, exec (.tempThreshold k level) s = .next t ∧ fget t (recSource (newSlot s)) = 0xB0 + 8 * level + k ∧
      (level = 2 → decidesSafe s → t.phase = .safe ∧ fget t KPR_SAFE_SOURCE = 0xC0 + k) ∧
      Unchanged reportParts s t := by
  have narrow : (0xB0 + 8 * level + k) % 4096 = 0xB0 + 8 * level + k := Nat.mod_eq_of_lt (by omega)
  refine ⟨_, exec_tempThreshold hk hlevel hphase hforcing hmerge, ?_, ?_, ?_⟩
  · exact (recSource_reportRecord s _).trans narrow
  · rintro rfl working
    obtain ⟨safe, source⟩ := reportRecord_fatal (r := { src := 0xB0 + 8 * 2 + k, cls := tempClass 2 }) rfl working
    exact ⟨safe, source.trans narrow⟩
  · exact ((ReportFrame.refl s).after_reportRecord _).parts

/-! ## Pins (R40, R41) -/

/-- The field of a pin's function code: eight pins a register. -/
def pinF (pin : Nat) : Fld := ⟨0x100 + 4 * (pin / 8), 4 * (pin % 8), 4⟩

theorem gpioCode_eq (s : State) (pin : Nat) : gpioCode s pin = fget s (pinF pin) := rfl

theorem pinF_fits (pin : Nat) : (pinF pin).lo + (pinF pin).w ≤ 32 := by
  simp only [pinF]
  omega

/-- Two pins' fields lie in different words or beside each other. -/
theorem pinF_apart {p q : Nat} (h : q ≠ p) : (pinF q).off ≠ (pinF p).off ∨
    (pinF p).lo + (pinF p).w ≤ (pinF q).lo ∨ (pinF q).lo + (pinF q).w ≤ (pinF p).lo := by
  simp only [pinF]
  omega

theorem judgePin_free (s : State) (pin : Nat) : judgePin s pin 0 = .stored := rfl

theorem judgePin_gpioOut {s : State} {pin : Nat} (h : gpioCode s pin = 0) : judgePin s pin 1 = .stored := by
  simp [judgePin, gpioInstance, h]

theorem judgePin_refused {s : State} {pin code : Nat} (hcode : code ≠ 0) (hcur : gpioCode s pin ≠ 0)
    (hne : code ≠ gpioCode s pin) (hlisted : (gpioInstance code pin).isSome = true) :
    judgePin s pin code = .refused := by
  obtain ⟨inst, hinst⟩ := Option.isSome_iff_exists.mp hlisted
  simp [judgePin, hinst, hcode, hne, hcur]

/-- What one pin's assignment can do: its field takes the code, the reserved code is noted, or nothing changes. -/
theorem assignPin_cases (s : State) (pin code : Nat) :
    (judgePin s pin code = .stored ∧ assignPin s pin code = fset s (pinF pin) code) ∨
      (judgePin s pin code = .reserved ∧ assignPin s pin code = fset s GLB_STATUS_RSV_WRITE 1) ∨
      (judgePin s pin code = .refused ∧ assignPin s pin code = s) := by
  unfold assignPin
  cases judgePin s pin code with
  | stored => exact .inl ⟨rfl, rfl⟩
  | reserved => exact .inr (.inl ⟨rfl, rfl⟩)
  | refused => exact .inr (.inr ⟨rfl, rfl⟩)

theorem gpioCode_assignPin_stored {s : State} {pin code : Nat} (h : judgePin s pin code = .stored) :
    gpioCode (assignPin s pin code) pin = code % 16 := by
  rcases assignPin_cases s pin code with ⟨-, run⟩ | ⟨other, -⟩ | ⟨other, -⟩
  · rw [run, gpioCode_eq, fget_fset_same _ _ _ (pinF_fits pin)]
    rfl
  · cases h.symm.trans other
  · cases h.symm.trans other

theorem assignPin_refused {s : State} {pin code : Nat} (h : judgePin s pin code = .refused) :
    assignPin s pin code = s := by
  rw [assignPin, h]

theorem gpioCode_assignPin_other (s : State) {pin q : Nat} (code : Nat) (h : q ≠ pin) :
    gpioCode (assignPin s pin code) q = gpioCode s q := by
  rcases assignPin_cases s pin code with ⟨-, run⟩ | ⟨-, run⟩ | ⟨-, run⟩
  · rw [run, gpioCode_eq, fget_fset_ne _ _ _ _ (pinF_fits pin) (pinF_apart h)]
    rfl
  · have apart : (pinF q).off ≠ GLB_STATUS_RSV_WRITE.off := by
      simp only [pinF, GLB_STATUS_RSV_WRITE]
      omega
    rw [run, gpioCode_eq, fget_fset_off _ _ _ _ apart]
    rfl
  · rw [run]

theorem assignPin_regsBut (s : State) (pin code : Nat) {keys : List Nat} (hpin : (pinF pin).off ∈ keys)
    (hrsv : GLB_STATUS_RSV_WRITE.off ∈ keys) : RegsBut keys s (assignPin s pin code) := by
  rcases assignPin_cases s pin code with ⟨-, run⟩ | ⟨-, run⟩ | ⟨-, run⟩
  · rw [run]
    exact regsBut_fset s code hpin
  · rw [run]
    exact regsBut_fset s 1 hrsv
  · rw [run]
    exact regsBut_refl keys s

theorem assignPin_unchanged (s : State) (pin code : Nat) : Unchanged [.regs] s (assignPin s pin code) := by
  rcases assignPin_cases s pin code with ⟨-, run⟩ | ⟨-, run⟩ | ⟨-, run⟩
  · rw [run]
    exact fset_unchanged s _ _
  · rw [run]
    exact fset_unchanged s _ _
  · rw [run]
    exact unchanged_refl _ s

theorem assignPins_cons_fst (s : State) (pin code : Nat) (rest : List (Nat × Nat)) :
    (assignPins s ((pin, code) :: rest)).1 = (assignPins (assignPin s pin code) rest).1 := rfl

theorem assignPins_cons_snd (s : State) (pin code : Nat) (rest : List (Nat × Nat)) :
    (assignPins s ((pin, code) :: rest)).2 = if judgePin s pin code == .refused
      then pin :: (assignPins (assignPin s pin code) rest).2 else (assignPins (assignPin s pin code) rest).2 := rfl

theorem assignPins_regsBut (l : List (Nat × Nat)) (s : State) {keys : List Nat}
    (hpins : ∀ e ∈ l, (pinF e.1).off ∈ keys) (hrsv : GLB_STATUS_RSV_WRITE.off ∈ keys) :
    RegsBut keys s (assignPins s l).1 := by
  induction l generalizing s with
  | nil => exact regsBut_refl keys s
  | cons e l ih =>
    rw [assignPins_cons_fst]
    exact regsBut_trans (assignPin_regsBut s e.1 e.2 (hpins e List.mem_cons_self) hrsv)
      (ih _ fun d hd => hpins d (List.mem_cons_of_mem e hd))

theorem assignPins_unchanged (l : List (Nat × Nat)) (s : State) : Unchanged [.regs] s (assignPins s l).1 := by
  induction l generalizing s with
  | nil => exact unchanged_refl _ s
  | cons e l ih => exact unchanged_trans (assignPin_unchanged s e.1 e.2) (ih _)

/-- A pin that is not in the list keeps its code. -/
theorem gpioCode_assignPins_other (l : List (Nat × Nat)) (s : State) {q : Nat} (h : ∀ e ∈ l, q ≠ e.1) :
    gpioCode (assignPins s l).1 q = gpioCode s q := by
  induction l generalizing s with
  | nil => rfl
  | cons e l ih =>
    rw [assignPins_cons_fst, ih _ fun d hd => h d (List.mem_cons_of_mem e hd),
      gpioCode_assignPin_other s e.2 (h e List.mem_cons_self)]

/-- R41: each pin of the list is assigned by itself, at a state in which it has the code it had before; the refused
pins are listed. -/
theorem assignPins_each (l : List (Nat × Nat)) (s : State) (distinct : (l.map (·.1)).Nodup) {pin code : Nat}
    (h : (pin, code) ∈ l) : ∃ u, gpioCode u pin = gpioCode s pin ∧
      gpioCode (assignPins s l).1 pin = gpioCode (assignPin u pin code) pin ∧
      (judgePin u pin code = .refused → pin ∈ (assignPins s l).2) := by
  induction l generalizing s with
  | nil => cases h
  | cons e l ih =>
    obtain ⟨p, c⟩ := e
    rw [List.map_cons, List.nodup_cons] at distinct
    obtain ⟨first, distinct⟩ := distinct
    rw [assignPins_cons_fst, assignPins_cons_snd]
    rcases List.mem_cons.mp h with here | later
    · cases here
      refine ⟨s, rfl, gpioCode_assignPins_other l _ fun d hd same => first (same ▸ List.mem_map_of_mem (f := (·.1)) hd), ?_⟩
      intro refused
      rw [refused, if_pos (beq_self_eq_true _)]
      exact List.mem_cons_self
    · have apart : pin ≠ p := fun same => first (same ▸ List.mem_map_of_mem (f := (·.1)) later)
      obtain ⟨u, before, after, listed⟩ := ih (assignPin s p c) distinct later
      refine ⟨u, before.trans (gpioCode_assignPin_other s c apart), after, fun refused => ?_⟩
      split
      · exact List.mem_cons_of_mem p (listed refused)
      · exact listed refused

/-- The eight assignments of one register write. -/
def pinWrites (n : Nat) (v : Word) : List (Nat × Nat) := (List.range 8).map fun k => (8 * n + k, bitsGet v (4 * k) 4)

theorem mem_pinWrites {n k : Nat} (v : Word) (hk : k < 8) : (8 * n + k, bitsGet v (4 * k) 4) ∈ pinWrites n v :=
  List.mem_map.mpr ⟨k, List.mem_range.mpr hk, rfl⟩

theorem pinWrites_distinct (n : Nat) (v : Word) : ((pinWrites n v).map (·.1)).Nodup := by
  rw [pinWrites, List.map_map]
  exact List.nodup_range.map fun a b (h : 8 * n + a = 8 * n + b) => Nat.add_left_cancel h

theorem pinWrites_off {n : Nat} {v : Word} {e : Nat × Nat} (h : e ∈ pinWrites n v) :
    (pinF e.1).off = 0x100 + 4 * n := by
  obtain ⟨k, hk, rfl⟩ := List.mem_map.mp h
  have hk := List.mem_range.mp hk
  simp only [pinF]
  omega

/-- CONFLICT and CONFLICT_PIN show the lowest refused pin. -/
def conflictShown (s : State) : List Nat → State
  | [] => s
  | p :: _ => fset (fset s GLB_GPIO_STATUS_CONFLICT 1) GLB_GPIO_STATUS_CONFLICT_PIN p

theorem exec_gpioFuncWrite (s : State) {n : Nat} (v : Word) (hn : n < 3) : exec (.gpioFuncWrite n v) s =
    .next (conflictShown (assignPins s (pinWrites n v)).1 (assignPins s (pinWrites n v)).2) := by
  have harm : exec (.gpioFuncWrite n v) s = execGpioFuncWrite n v s := rfl
  rw [harm, execGpioFuncWrite, if_neg (Nat.not_le.mpr hn), ← pinWrites]
  obtain ⟨t, bad⟩ := assignPins s (pinWrites n v)
  cases bad with
  | nil => rfl
  | cons p _ => rfl

theorem conflictShown_regsBut (s : State) (bad : List Nat) :
    RegsBut [GLB_GPIO_STATUS_CONFLICT.off] s (conflictShown s bad) := by
  cases bad with
  | nil => exact regsBut_refl _ s
  | cons p _ =>
    exact regsBut_trans (regsBut_fset s 1 List.mem_cons_self)
      (regsBut_fset (f := GLB_GPIO_STATUS_CONFLICT_PIN) _ p List.mem_cons_self)

theorem conflictShown_unchanged (s : State) (bad : List Nat) : Unchanged [.regs] s (conflictShown s bad) := by
  cases bad with
  | nil => exact unchanged_refl _ s
  | cons p _ => exact unchanged_trans (fset_unchanged s _ _) (fset_unchanged _ _ _)

theorem conflict_conflictShown (s : State) {bad : List Nat} {p : Nat} (h : p ∈ bad) :
    fget (conflictShown s bad) GLB_GPIO_STATUS_CONFLICT = 1 := by
  cases bad with
  | nil => cases h
  | cons q _ =>
    rw [conflictShown, fget_fset_ne _ GLB_GPIO_STATUS_CONFLICT_PIN _ _ (by decide) (by decide),
      fget_fset_same _ _ _ (by decide)]
    rfl

theorem gpioCode_conflictShown (s : State) (bad : List Nat) {pin : Nat} (hpin : pin < 24) :
    gpioCode (conflictShown s bad) pin = gpioCode s pin := by
  have apart : (pinF pin).off ∉ [GLB_GPIO_STATUS_CONFLICT.off] := by
    simp only [pinF, GLB_GPIO_STATUS_CONFLICT, List.mem_singleton]
    omega
  rw [gpioCode_eq, fget_regsBut (conflictShown_regsBut s bad) apart]
  rfl

/-- GPIO_FUNC_WRITE (R41). -/
theorem gpioFuncWrite_assigns (s : State) {n : Nat} (v : Word) (hn : n < 3) :
    ∃ t, exec (.gpioFuncWrite n v) s = .next t ∧
      (∀ k < 8, bitsGet v (4 * k) 4 = 0 → gpioCode t (8 * n + k) = 0) ∧
      (∀ k < 8, bitsGet v (4 * k) 4 = 1 → gpioCode s (8 * n + k) = 0 → gpioCode t (8 * n + k) = 1) ∧
      (∀ k < 8, bitsGet v (4 * k) 4 ≠ 0 → gpioCode s (8 * n + k) ≠ 0 → bitsGet v (4 * k) 4 ≠ gpioCode s (8 * n + k) →
        (gpioInstance (bitsGet v (4 * k) 4) (8 * n + k)).isSome = true →
        gpioCode t (8 * n + k) = gpioCode s (8 * n + k) ∧ fget t GLB_GPIO_STATUS_CONFLICT = 1) ∧
      RegsBut [0x100 + 4 * n, GLB_STATUS_RSV_WRITE.off, GLB_GPIO_STATUS_CONFLICT.off] s t ∧ Unchanged [.regs] s t := by
  have each {k : Nat} (hk : k < 8) := assignPins_each _ s (pinWrites_distinct n v) (mem_pinWrites v hk)
  have kept {k : Nat} (hk : k < 8) := gpioCode_conflictShown (assignPins s (pinWrites n v)).1
    (assignPins s (pinWrites n v)).2 (show 8 * n + k < 24 by omega)
  refine ⟨_, exec_gpioFuncWrite s v hn, ?_, ?_, ?_, ?_, ?_⟩
  · intro k hk free
    obtain ⟨u, -, after, -⟩ := each hk
    rw [kept hk, after, free, gpioCode_assignPin_stored (judgePin_free u _)]
  · intro k hk out unassigned
    obtain ⟨u, before, after, -⟩ := each hk
    rw [kept hk, after, out, gpioCode_assignPin_stored (judgePin_gpioOut (before.trans unassigned))]
  · intro k hk asks assigned other listed
    obtain ⟨u, before, after, inList⟩ := each hk
    have refused := judgePin_refused asks (before ▸ assigned) (before ▸ other) listed
    constructor
    · rw [kept hk, after, assignPin_refused refused, before]
    · exact conflict_conflictShown _ (inList refused)
  · have assigned := assignPins_regsBut (pinWrites n v) s
      (keys := [0x100 + 4 * n, GLB_STATUS_RSV_WRITE.off, GLB_GPIO_STATUS_CONFLICT.off])
      (fun e he => by rw [pinWrites_off he]; exact List.mem_cons_self) (List.mem_cons_of_mem _ List.mem_cons_self)
    refine regsBut_trans assigned fun i hi => conflictShown_regsBut _ _ i fun same => hi ?_
    exact List.mem_cons_of_mem _ (List.mem_cons_of_mem _ same)
  · exact unchanged_trans (assignPins_unchanged _ s) (conflictShown_unchanged _ _)

/-! ## Fans (R43) -/

theorem tachF_fits (k : Nat) : (tachF k).lo + (tachF k).w ≤ 32 := by
  simp only [tachF]
  omega

theorem tachF_apart {j k : Nat} (h : j ≠ k) : (tachF j).off ≠ (tachF k).off ∨
    (tachF k).lo + (tachF k).w ≤ (tachF j).lo ∨ (tachF j).lo + (tachF j).w ≤ (tachF k).lo := by
  simp only [tachF]
  omega

theorem exec_fanTachEdge {s : State} {k : Nat} (us : Nat) (hk : k < 4) (hcode : gpioCode s (8 + k) = 3) :
    exec (.fanTachEdge k us) s = .next (fset s (tachF k) (min us 0xFFFF)) := by
  have harm : exec (.fanTachEdge k us) s = execFanTachEdge k us s := rfl
  have carries : (decide (k < 4) && gpioCode s (8 + k) == 3) = true := by simp [hk, hcode]
  rw [harm, execFanTachEdge, if_pos carries]

theorem exec_fanTachTimeout (s : State) {k : Nat} (hk : k < 4) :
    exec (.fanTachTimeout k) s = .next (fset s (tachF k) 0xFFFF) := by
  have harm : exec (.fanTachTimeout k) s = execFanTachTimeout k s := rfl
  rw [harm, execFanTachTimeout, if_pos hk]

/-- FAN_TACH_EDGE (R43). -/
theorem fanTachEdge_measures {s : State} {k : Nat} (us : Nat) (hk : k < 4) (hcode : gpioCode s (8 + k) = 3) :
    ∃ t, exec (.fanTachEdge k us) s = .next t ∧ fget t (tachF k) = min us 0xFFFF ∧
      (∀ j < 4, j ≠ k → fget t (tachF j) = fget s (tachF j)) ∧ RegsBut [(tachF k).off] s t ∧
      Unchanged [.regs] s t := by
  refine ⟨_, exec_fanTachEdge us hk hcode, ?_, ?_, regsBut_fset s _ List.mem_cons_self, fset_unchanged s _ _⟩
  · rw [fget_fset_same _ _ _ (tachF_fits k)]
    exact Nat.mod_eq_of_lt (Nat.lt_succ_of_le (min_le_right us 0xFFFF))
  · intro j _ hne
    exact fget_fset_ne _ _ _ _ (tachF_fits k) (tachF_apart hne)

/-- FAN_TACH_TIMEOUT (R43). -/
theorem fanTachTimeout_saturates (s : State) {k : Nat} (hk : k < 4) :
    ∃ t, exec (.fanTachTimeout k) s = .next t ∧ fget t (tachF k) = 0xFFFF ∧ RegsBut [(tachF k).off] s t ∧
      Unchanged [.regs] s t := by
  refine ⟨_, exec_fanTachTimeout s hk, ?_, regsBut_fset s _ List.mem_cons_self, fset_unchanged s _ _⟩
  rw [fget_fset_same _ _ _ (tachF_fits k)]
  rfl

/-! ## The AVSBus (R47 to R49) -/

/-- From `s` to `t` a Write Voltage command of `mv` was sent and accepted: VCMD shows it, no retry waits, and beside VCMD
only its limit flags can have changed. -/
structure VoltageAccepted (mv : Nat) (s t : State) : Prop where
  vcmd : fget t PWR_STATUS_VCMD = mv % 1024
  busFail : fget t PWR_STATUS_BUS_FAIL = fget s PWR_STATUS_BUS_FAIL
  pending : t.pwr.avsPending = none
  out : t.out = .avsWrite mv :: s.out
  regs : RegsBut [PWR_STATUS_VCMD.off] s t
  parts : Unchanged [.regs, .pwr, .out] s t

/-- An accepted command writes VCMD and the two limit flags beside it. -/
theorem avsCommand_true (s : State) (mv : Nat) : ∃ atMax atMin, avsCommand s mv true =
    modPwr (fset (fset (fset (emit s (.avsWrite mv)) PWR_STATUS_VCMD mv) PWR_STATUS_AT_VMAX atMax) PWR_STATUS_AT_VMIN
      atMin) fun p => { p with avsPending := none, avsRetry := 0 } := ⟨_, _, rfl⟩

@[simp] theorem fget_modPwr (s : State) (g : Power → Power) (f : Fld) : fget (modPwr s g) f = fget s f := rfl

theorem avsCommand_accepted (s : State) (mv : Nat) : VoltageAccepted mv s (avsCommand s mv true) := by
  obtain ⟨atMax, atMin, run⟩ := avsCommand_true s mv
  have written (b : State) (f : Fld) (x : Nat) : Unchanged [.regs, .pwr, .out] b (fset b f x) :=
    unchanged_mono (fset_unchanged b f x) (by decide)
  rw [run]
  refine ⟨?_, ?_, rfl, rfl, ?_, ?_⟩
  · rw [fget_modPwr, fget_fset_ne _ PWR_STATUS_AT_VMIN _ _ (by decide) (by decide),
      fget_fset_ne _ PWR_STATUS_AT_VMAX _ _ (by decide) (by decide), fget_fset_same _ _ _ (by decide)]
    rfl
  · rw [fget_modPwr, fget_fset_ne _ PWR_STATUS_AT_VMIN _ _ (by decide) (by decide),
      fget_fset_ne _ PWR_STATUS_AT_VMAX _ _ (by decide) (by decide),
      fget_fset_ne _ PWR_STATUS_VCMD _ _ (by decide) (by decide)]
    rfl
  · exact regsBut_trans (regsBut_fset (f := PWR_STATUS_VCMD) (emit s (.avsWrite mv)) mv List.mem_cons_self)
      (regsBut_trans (regsBut_fset (f := PWR_STATUS_AT_VMAX) _ atMax List.mem_cons_self)
        (regsBut_fset (f := PWR_STATUS_AT_VMIN) _ atMin List.mem_cons_self))
  · exact unchanged_trans (unchanged_mono (emit_unchanged s _) (by decide))
      (unchanged_trans (written _ _ _) (unchanged_trans (written _ _ _) (unchanged_trans (written _ _ _)
        (unchanged_mono (modPwr_unchanged _ _) (by decide)))))

/-- In TRACK mode, with nothing that forbids a command, the tick commands the rule's voltage where it is another one. -/
theorem exec_avsTrackTick {s : State} (hmode : fget s PWR_AVS_CTL_MODE = 1) (hfail : fget s PWR_STATUS_BUS_FAIL = 0)
    (hpending : s.pwr.avsPending = none) (hbrown : fget s BLS_STATUS_BROWNOUT = 0) :
    exec (.avsTrackTick true) s = .next (if avsTrackNext s = fget s PWR_STATUS_VCMD then s
      else avsCommand s (avsTrackNext s) true) := by
  have harm : exec (.avsTrackTick true) s = execAvsTrackTick true s := rfl
  rw [harm, execAvsTrackTick]
  by_cases same : avsTrackNext s = fget s PWR_STATUS_VCMD
  · simp [same]
  · simp [same, hmode, hfail, hpending, hbrown]

/-- A tick on which the rule gives a voltage `mv` other than VCMD commands it, and VCMD shows it. -/
theorem avsTrackTick_commands {s : State} {mv : Nat} (hmode : fget s PWR_AVS_CTL_MODE = 1)
    (hfail : fget s PWR_STATUS_BUS_FAIL = 0) (hpending : s.pwr.avsPending = none)
    (hbrown : fget s BLS_STATUS_BROWNOUT = 0) (hrule : avsTrackNext s = mv) (hother : mv ≠ fget s PWR_STATUS_VCMD)
    (hfits : mv < 1024) : ∃ t, exec (.avsTrackTick true) s = .next t ∧ fget t PWR_STATUS_VCMD = mv ∧
      RegsBut [PWR_STATUS_VCMD.off] s t ∧ Unchanged [.regs, .pwr, .out] s t := by
  have accepted := avsCommand_accepted s mv
  refine ⟨_, ?_, accepted.vcmd.trans (Nat.mod_eq_of_lt hfits), accepted.regs, accepted.parts⟩
  rw [exec_avsTrackTick hmode hfail hpending hbrown, hrule, if_neg hother]

/-- R48: the rule below PACE_LO, above PACE_HI, and between. -/
theorem avsTrackNext_up {s : State} (hlow : minPace s < fget s PWR_AVS_PACE_PACE_LO)
    (hroom : fget s PWR_STATUS_VCMD < fget s PWR_AVS_LIMIT_VMAX) :
    avsTrackNext s = min (fget s PWR_STATUS_VCMD + 5) (fget s PWR_AVS_LIMIT_VMAX) := by
  simp [avsTrackNext, hlow, hroom]

theorem avsTrackNext_down {s : State} (hlow : fget s PWR_AVS_PACE_PACE_LO ≤ minPace s)
    (hhigh : fget s PWR_AVS_PACE_PACE_HI < minPace s) (hroom : fget s PWR_AVS_LIMIT_VMIN < fget s PWR_STATUS_VCMD) :
    avsTrackNext s = max (fget s PWR_STATUS_VCMD - 5) (fget s PWR_AVS_LIMIT_VMIN) := by
  simp [avsTrackNext, Nat.not_lt.mpr hlow, hhigh, hroom]

theorem avsTrackNext_still {s : State} (hlow : fget s PWR_AVS_PACE_PACE_LO ≤ minPace s)
    (hhigh : minPace s ≤ fget s PWR_AVS_PACE_PACE_HI) : avsTrackNext s = fget s PWR_STATUS_VCMD := by
  simp [avsTrackNext, Nat.not_lt.mpr hlow, Nat.not_lt.mpr hhigh]

/-- AVS_TRACK_TICK (R48). -/
theorem avsTrackTick_tracks {s : State} (hmode : fget s PWR_AVS_CTL_MODE = 1) (hfail : fget s PWR_STATUS_BUS_FAIL = 0)
    (hpending : s.pwr.avsPending = none) (hbrown : fget s BLS_STATUS_BROWNOUT = 0) :
    (minPace s < fget s PWR_AVS_PACE_PACE_LO → fget s PWR_STATUS_VCMD < fget s PWR_AVS_LIMIT_VMAX →
      ∃ t, exec (.avsTrackTick true) s = .next t ∧
        fget t PWR_STATUS_VCMD = min (fget s PWR_STATUS_VCMD + 5) (fget s PWR_AVS_LIMIT_VMAX) ∧
        RegsBut [PWR_STATUS_VCMD.off] s t ∧ Unchanged [.regs, .pwr, .out] s t) ∧
    (fget s PWR_AVS_PACE_PACE_LO ≤ minPace s → fget s PWR_AVS_PACE_PACE_HI < minPace s →
      fget s PWR_AVS_LIMIT_VMIN < fget s PWR_STATUS_VCMD →
      ∃ t, exec (.avsTrackTick true) s = .next t ∧
        fget t PWR_STATUS_VCMD = max (fget s PWR_STATUS_VCMD - 5) (fget s PWR_AVS_LIMIT_VMIN) ∧
        RegsBut [PWR_STATUS_VCMD.off] s t ∧ Unchanged [.regs, .pwr, .out] s t) ∧
    (fget s PWR_AVS_PACE_PACE_LO ≤ minPace s → minPace s ≤ fget s PWR_AVS_PACE_PACE_HI →
      exec (.avsTrackTick true) s = .next s) := by
  have hvcmd : fget s PWR_STATUS_VCMD < 1024 := fget_lt s PWR_STATUS_VCMD
  have hvmax : fget s PWR_AVS_LIMIT_VMAX < 1024 := fget_lt s PWR_AVS_LIMIT_VMAX
  have hvmin : fget s PWR_AVS_LIMIT_VMIN < 1024 := fget_lt s PWR_AVS_LIMIT_VMIN
  refine ⟨?_, ?_, ?_⟩
  · intro hlow hroom
    exact avsTrackTick_commands hmode hfail hpending hbrown (avsTrackNext_up hlow hroom) (by omega) (by omega)
  · intro hlow hhigh hroom
    exact avsTrackTick_commands hmode hfail hpending hbrown (avsTrackNext_down hlow hhigh hroom) (by omega) (by omega)
  · intro hlow hhigh
    rw [exec_avsTrackTick hmode hfail hpending hbrown, if_pos (avsTrackNext_still hlow hhigh)]

/-- AVS_READ_TICK with a good read (R49). -/
theorem avsReadTick_shows {s : State} (mv cur : Nat) (hfail : fget s PWR_STATUS_BUS_FAIL = 0) :
    ∃ t, exec (.avsReadTick true mv cur) s = .next t ∧ fget t PWR_AVS_READ_VREAD = mv % 1024 ∧
      fget t PWR_AVS_READ_IREAD = cur % 65536 ∧ t.out = .avsRead :: s.out ∧ RegsBut [PWR_AVS_READ_VREAD.off] s t ∧
      Unchanged [.regs, .out] s t := by
  have run : exec (.avsReadTick true mv cur) s =
      .next (fset (fset (emit s .avsRead) PWR_AVS_READ_VREAD mv) PWR_AVS_READ_IREAD cur) := by
    have harm : exec (.avsReadTick true mv cur) s = execAvsReadTick true mv cur s := rfl
    have works : ¬fget s PWR_STATUS_BUS_FAIL = 1 := by omega
    rw [harm, execAvsReadTick, if_neg works, if_pos rfl]
  refine ⟨_, run, ?_, fget_fset_same _ PWR_AVS_READ_IREAD cur (by decide), rfl, ?_, ?_⟩
  · rw [fget_fset_ne _ PWR_AVS_READ_IREAD _ _ (by decide) (by decide)]
    exact fget_fset_same _ PWR_AVS_READ_VREAD mv (by decide)
  · exact regsBut_trans (regsBut_fset (f := PWR_AVS_READ_VREAD) (emit s .avsRead) mv List.mem_cons_self)
      (regsBut_fset (f := PWR_AVS_READ_IREAD) _ cur List.mem_cons_self)
  · exact unchanged_trans (unchanged_mono (emit_unchanged s _) (by decide))
      (unchanged_mono (unchanged_trans (fset_unchanged _ _ _) (fset_unchanged _ _ _)) (by decide))

/-- AVS_RETRY that the regulator accepts (R49). -/
theorem avsRetry_accepted {s : State} {mv : Nat} (hpending : s.pwr.avsPending = some mv) :
    ∃ t, exec (.avsRetry true) s = .next t ∧ fget t PWR_STATUS_VCMD = mv % 1024 ∧ t.pwr.avsPending = none ∧
      t.out = .avsWrite mv :: s.out ∧ RegsBut [PWR_STATUS_VCMD.off] s t ∧ Unchanged [.regs, .pwr, .out] s t := by
  have accepted := avsCommand_accepted s mv
  refine ⟨_, ?_, accepted.vcmd, accepted.pending, accepted.out, accepted.regs, accepted.parts⟩
  have harm : exec (.avsRetry true) s = execAvsRetry true s := rfl
  rw [harm, execAvsRetry, hpending]
  rfl

/-- The state in which the third failure has given the command up, before it is reported. -/
def busFailed (s : State) (mv : Nat) : State :=
  fset (modPwr (emit s (.avsWrite mv)) fun p => { p with avsPending := none, avsRetry := 0 }) PWR_STATUS_BUS_FAIL 1

theorem exec_avsRetry_third {s : State} {mv : Nat} (hpending : s.pwr.avsPending = some mv) (hthird : 2 ≤ s.pwr.avsRetry) :
    exec (.avsRetry false) s = .next (raise (busFailed s mv) 0xA4) := by
  have harm : exec (.avsRetry false) s = execAvsRetry false s := rfl
  have last : ¬s.pwr.avsRetry + 1 < 3 := by omega
  rw [harm, execAvsRetry, hpending]
  simp only [Bool.false_eq_true, if_false]
  exact if_neg last

/-- AVS_RETRY whose third failure sets BUS_FAIL (R49). -/
theorem avsRetry_fails {s : State} {mv : Nat} (hpending : s.pwr.avsPending = some mv) (hthird : 2 ≤ s.pwr.avsRetry) :
    ∃ t, exec (.avsRetry false) s = .next t ∧ fget t PWR_STATUS_BUS_FAIL = 1 ∧ t.pwr.avsPending = none ∧
      fget t PWR_STATUS_VCMD = fget s PWR_STATUS_VCMD ∧ Unchanged (.pwr :: reportParts) s t := by
  have reported := (ReportFrame.refl (busFailed s mv)).after_raise 0xA4 0
  have samePwr := reported.parts .pwr (by decide)
  have failed : Unchanged (.pwr :: reportParts) s (busFailed s mv) :=
    unchanged_trans (unchanged_mono (emit_unchanged s _) (by decide))
      (unchanged_trans (unchanged_mono (modPwr_unchanged _ _) (by decide))
        (unchanged_mono (fset_unchanged _ _ _) (by decide)))
  refine ⟨_, exec_avsRetry_third hpending hthird, ?_, ?_, ?_, ?_⟩
  · rw [reported.fget_eq (not_reportKey_above (by decide))]
    exact fget_fset_same _ PWR_STATUS_BUS_FAIL 1 (by decide)
  · exact congrArg Power.avsPending samePwr
  · rw [reported.fget_eq (not_reportKey_above (by decide))]
    exact fget_fset_ne _ PWR_STATUS_BUS_FAIL PWR_STATUS_VCMD 1 (by decide) (by decide)
  · exact unchanged_trans failed (unchanged_mono reported.parts (List.subset_cons_self _ _))

theorem avsFixed_lt (s : State) : avsFixed s < 1024 := by
  have hvmin : fget s PWR_AVS_LIMIT_VMIN < 1024 := fget_lt s PWR_AVS_LIMIT_VMIN
  have hvset : fget s PWR_AVS_VSET_VSET < 1024 := fget_lt s PWR_AVS_VSET_VSET
  exact max_lt hvmin (lt_of_le_of_lt (min_le_left _ _) hvset)

/-- The FIXED target does not depend on BUS_FAIL. -/
theorem avsFixed_fset_busFail (s : State) (x : Nat) : avsFixed (fset s PWR_STATUS_BUS_FAIL x) = avsFixed s := by
  rw [avsFixed, fget_fset_off _ _ PWR_AVS_LIMIT_VMIN _ (by decide), fget_fset_off _ _ PWR_AVS_VSET_VSET _ (by decide),
    fget_fset_off _ _ PWR_AVS_LIMIT_VMAX _ (by decide)]
  rfl

/-- BUS_FAIL_CLEAR in FIXED mode (R48, R49). -/
theorem busFailClear_commands {s : State} (hfail : fget s PWR_STATUS_BUS_FAIL = 1)
    (hmode : fget s PWR_AVS_CTL_MODE = 0) :
    ∃ t, exec (.busFailClear true) s = .next t ∧ fget t PWR_STATUS_BUS_FAIL = 0 ∧
      fget t PWR_STATUS_VCMD = max (fget s PWR_AVS_LIMIT_VMIN) (min (fget s PWR_AVS_VSET_VSET) (fget s PWR_AVS_LIMIT_VMAX)) ∧
      RegsBut [PWR_STATUS_VCMD.off] s t ∧ Unchanged [.regs, .pwr, .out] s t := by
  have accepted := avsCommand_accepted (fset s PWR_STATUS_BUS_FAIL 0) (avsFixed s)
  have run : exec (.busFailClear true) s = .next (avsCommand (fset s PWR_STATUS_BUS_FAIL 0) (avsFixed s) true) := by
    have harm : exec (.busFailClear true) s = execBusFailClear true s := rfl
    have failed : ¬fget s PWR_STATUS_BUS_FAIL = 0 := by omega
    have fixed : fget (fset s PWR_STATUS_BUS_FAIL 0) PWR_AVS_CTL_MODE = 0 := by
      rw [fget_fset_off _ _ _ _ (by decide), hmode]
    rw [harm, execBusFailClear, if_neg failed, if_pos fixed, avsFixed_fset_busFail]
  refine ⟨_, run, ?_, accepted.vcmd.trans (Nat.mod_eq_of_lt (avsFixed_lt s)), ?_, ?_⟩
  · rw [accepted.busFail]
    exact fget_fset_same s PWR_STATUS_BUS_FAIL 0 (by decide)
  · exact regsBut_trans (regsBut_fset (f := PWR_STATUS_BUS_FAIL) s 0 List.mem_cons_self) accepted.regs
  · exact unchanged_trans (unchanged_mono (fset_unchanged s _ _) (by decide)) accepted.parts

/-! ## The statement -/

/-- Settles O12: one lemma for each command and outcome. -/
theorem pinsAndVoltages : Obligations.PinsAndVoltages := by
  unfold Obligations.PinsAndVoltages
  refine ⟨⟨?_, ?_, ?_, ?_⟩, ?_, ?_, ?_, ?_, ?_⟩
  · intro s n v hn
    exact gpioFuncWrite_assigns s v hn
  · intro s k us hk hcode
    exact fanTachEdge_measures us hk hcode
  · intro s k hk
    exact fanTachTimeout_saturates s hk
  · intro s k level hk hlevel hphase hforcing hmerge
    exact tempThreshold_records hk hlevel hphase hforcing hmerge
  · intro s hmode hfail hpending hbrown
    exact avsTrackTick_tracks hmode hfail hpending hbrown
  · intro s mv cur hfail
    exact avsReadTick_shows mv cur hfail
  · intro s mv hpending
    exact avsRetry_accepted hpending
  · intro s mv hpending hthird
    exact avsRetry_fails hpending hthird
  · intro s hfail hmode
    exact busFailClear_commands hfail hmode

end Sys2Proof.Laws
end

section
/-!
PROOFS. The statement of 95_what_each_step_holds.md and R64 about the queue of commands: every command answers a next
state (`exec_answers`) and leaves the waiting commands as they are (`exec_pending`). The lemmas `_kept` of Laws/ say the
second for the commands that keep DRAM and SRAM; the writers of these memories get lemmas here that ask for no canonical
form of them.
-/

namespace Sys2Proof.Laws

open Sys2Proof.Machine

/-! ## Every outcome is a next state -/

/-- The outcome is a next state: neither a fault nor a refusal. -/
def Answers (o : Host.Outcome State Fault Refusal) : Prop := ∃ t, o = .next t

theorem answers_next (t : State) : Answers (.next t) := ⟨t, rfl⟩

theorem answers_ite {c : Prop} [Decidable c] {a b : Host.Outcome State Fault Refusal} (ha : Answers a)
    (hb : Answers b) : Answers (if c then a else b) := by
  split <;> assumption

/-- Every command's meaning, written out, is a tree of conditionals and matches with a next state at each leaf. -/
theorem exec_answers (i : Instr) (s : State) : Answers (exec i s) := by
  cases i
  all_goals simp only [exec]
  all_goals
    delta execRegisterWrite execRcFieldRead execPairedLoRead execPairedHiRead execPairedLoWrite execPairedHiWrite
      execLathLinkDown execRerouteComplete execPaceUpdate execMinRestart execTimestampGrant execPorAssert
      execPorRelease execWarmRstPin execWarmReset execEnterSafe execWarmStopEnd execLoaderStart execSlotChecked
      execSelftestDone execDiscoveryDone execOzperDiscoveryTimeout execVmMeasureTick execStandstillMeasurement
      execBringupDone execSpinupStart execSpinupTimeout execNorRead execNorProgram execNorErase execMarkTrial
      execClearTrial execNorCommandDone execPdOnRequest execPdOffRequest execPdPowerDownDone execPdPowerUpDone
      execParamSelect execGpioFuncWrite execFanTachEdge execAvsTrackTick execAvsReadTick execAvsRetry
      execBusFailClear execSupplyMonitorCrossing execTempThreshold execPerstRelease execLinkUp execLinkRetrain
      execPortReset execConfigRequest execMemoryRequest execVfFlr execPfFlr execVfEnableClear execNumvfsWrite
      execBusMasterEnableWrite execDstateChange execTeardownCompletionWaitEnd execTeardownEnd
      execHostCompletionTimeout execHostCompletionArrival execMsixUnmask execSqDoorbell execCqDoorbell
      execAqCfgWrite execSqeFetch execSqeFetched execFlowDispatch execFlush execWrite execRead execWriteZeroes
      execDeallocate execVerify execPush execOperatorOpcode execCommandComplete execCreateQp execDeleteQp
      execIdentify execGetLog execJournalQuery execTenantCreate execTenantDestroy execDestroyReleaseEnd
      execKeyLoad execKeyUnload execNsCreate execNsDelete execContractSet execContractClear execPushGrant
      execPushRevoke execSkimInstall execSkimInstallDrained execOrphanRead execOrphanRelease execDaymarkClear
      execXqResumeNext execXqResumeSkip execXqResumeReset execResumeApply execJournalPersistTick execPieceStart
      execBuoyRefill execCapacityChange execMaskingKatTick execMaskingLockstepMismatch execNop execAdd execSub
      execAnd execOr execXor execShl execShr execSar execMov execCmp execTst execMul execMinu execMaxu execExt
      execIns execClz execPopc execCrc execLd execSt execFenceW execSend execWait execPoll execTime execStcs
      execStcsComplete execVersion execBufAlloc execBufFree execNsRead execNsWrite execNsZero execNsInfo
      execHostRead execHostWrite execBufCrc execServiceFlush execPushBuf execMessageArrival execWaitTimeout
      execLoadMissFill execStoreAck execSnoopInvalidate execSnoopFilterCover execFlowAbort execContextWatchdog
      execTileWatchdog execTileFail execSpareSelftest execScrubRead execCsWordRestore execCsWindowSelect
      execDestageTake execStripeSeal execSealTimeout execStripWriteFail execMirrorRelease execMemberRetire
      execRebuildVisit execGcCollect execSegmentErase execExtentDestage execHeatDecay execSettlingMove
      execReshapeGo execReshapeVisit execLocationLogPersist execCheckpointStart execCheckpointRequest
      execCheckpointEnd execDramChannelLost execFlashDescriptorArrival execFlashDescriptorTake execFlashReadDesc
      execFlashProgramDesc execFlashEraseDesc execFlashScanDesc execFlashReadParamDesc execFlashResetDesc
      execLunOperationDone execFlashCompletionAccept execFlashFence execFlashChannelInit execFlashRetrainTick
      execLunTimeout execFlashChannelRetire execPatrolScan execDumpRowErase execDiskRead execDiskWrite
      execDiskOpSelect execReadPass execDiskOpTimeout execWfltCapture execSpeedExcursion execDiskFence
      execSerialFrame execFstatPoll execPreampRead execHeaterUpdate execHeaterIdleOff execOffsetCal execEqCal
      execPrecomp execCalRequest execOffsetCalTick execDataPathRetire execTaskTrigger execInstanceCommit
      execTaskDeadline execNodeAdd execNodeSub execNodeMul execNodeFma execNodeDiv execNodeSqrt execNodeMin
      execNodeMax execNodeAbs execNodeNeg execNodeMov execNodeSel execNodeClamp execNodeLim execNodeBiq
      execNodeInteg execNodeDot execNodeOut execNodeEnd execCoreKatTick execCoreRetire execCoefWrite
      execTaskStoreUncorrectable execServoWedge execWriteInhibitAssert execTrackLost execShockCapture
      execShockHoldEnd execHeadSwitch execSeekStart execOffsetCalibration execSrvCalRequest execSatInhibit
      execVcmPwmSample execShuntLost execVcmDriverFault execVcmDriverRetry execRetract execRetractDone
      execGuidedUnload execUnloadRequest execUnloadDone execLoad execLoadTimeout execLoadRetry
      execParkUnknownListen execPositionLost execSpinupRequest execSpindleStopRequest execDriveOffRequest
      execBallastRequest execAlignEnd execOpenLoopTimeout execZeroCrossing execCommutation execForcedCommutation
      execSpindlePwmPeriod execAtSpeed execLossOfSync execCatchObserveEnd execStandstill execVmShort
      execVmShortRecover execSpindleDriverFault execSpindleDriverRetry execPhaseShuntLost execShuntCalibration
      execSpnCalRequest execWindingMeasurement execHdaRetire execSpinSyncInPulse execSpinSyncLost execSpindleIndex
      execCompress execDecompress execRenderResume execRenderFree execRenderDispatch execRenderJobEnd
      execVerifyMismatch execRenderKatTick execHodGo execHodPause execHodResume execHodAbort execHodDrainEnd
      execHodTransferEnd execHodClaim execHodChannelRetire execOzperTrain execOzperTrainRetry execHeartbeatSend
      execHeartbeat execCap execCapResend execMirror execMack execRelease execPurge execOzperLinkDown
      execEastLinkLoss execWestLinkLoss execRewriteEnd execMirrorEnter execOrphanHoldExpiry execFaultReport
      execCoverDone execRecordCloseExpiry execKprAck execKprForce execForceTaken execKeeperStateUncorrectable
      execFoghornPulseEnd execIrqEnableWrite execTallyTick execTallySnapshot execTallySkip execTallyRecheck
      execSafeEntry execSafeFlushDone execDaymarkEvent execDaymarkPersist execDmkWin0Read execDmkWin7Read
      execBallastTrigger execVmDip execEnergyRecompute execRegenRegulate execDumpWrite execDumpTrailer execVmBack
      execCoreBrownout execBrownoutTimeout execBankLow execMgtWrite execMgtRead execMgtLast execBadFrame
      execOzperRetrain execDynamicAddressAssign execFanTachTimeout
  all_goals with_reducible repeat' first | exact answers_next _ | refine answers_ite ?_ ?_ | split | dsimp only

/-! ## The writers of memory keep the queue -/

/-- The next state of an outcome, if it answers one, has the queue `p`. -/
def NextQueue (p : List Instr) (o : Host.Outcome State Fault Refusal) : Prop := ∀ t, o = .next t → t.pending = p

@[simp] theorem nextQueue_next (p : List Instr) (t : State) : NextQueue p (.next t) ↔ t.pending = p :=
  ⟨fun h => h t rfl, fun h _ e => by injection e with e; exact e ▸ h⟩

@[simp] theorem nextQueue_ite (p : List Instr) (c : Prop) [Decidable c] (a b : Host.Outcome State Fault Refusal) :
    NextQueue p (if c then a else b) ↔ (c → NextQueue p a) ∧ (¬c → NextQueue p b) := by
  by_cases h : c <;> simp [h]

/-- The same for an optional state. -/
def SomeQueue (p : List Instr) (o : Option State) : Prop := ∀ t, o = some t → t.pending = p

@[simp] theorem someQueue_some (p : List Instr) (t : State) : SomeQueue p (some t) ↔ t.pending = p :=
  ⟨fun h => h t rfl, fun h _ e => by injection e with e; exact e ▸ h⟩

@[simp] theorem someQueue_none (p : List Instr) : SomeQueue p none := fun _ e => by cases e

@[simp] theorem someQueue_ite (p : List Instr) (c : Prop) [Decidable c] (a b : Option State) :
    SomeQueue p (if c then a else b) ↔ (c → SomeQueue p a) ∧ (¬c → SomeQueue p b) := by
  by_cases h : c <;> simp [h]

theorem NextKeeps.queue {p : List Instr} {d m : Memory} {o : Host.Outcome State Fault Refusal} (h : NextKeeps p d m o) :
    NextQueue p o := fun t e => (h t e).1

theorem SomeKeeps.queue {p : List Instr} {d m : Memory} {o : Option State} (h : SomeKeeps p d m o) : SomeQueue p o :=
  fun t e => (h t e).1

theorem SomeQueue.orElse {p : List Instr} {o : Option State} {g : Unit → Option State} (h : SomeQueue p o)
    (hg : SomeQueue p (g ())) : SomeQueue p (o.orElse g) := by
  cases o with
  | none => exact hg
  | some t => exact h

theorem NextQueue.orSame {s : State} {p : List Instr} {o : Host.Outcome State Fault Refusal} (h : NextQueue p o)
    (hs : s.pending = p) : (orSame s o).pending = p := by
  unfold Machine.orSame
  split
  · exact h _ rfl
  all_goals exact hs

@[simp] theorem dramStore_pending (s : State) (addr : Nat) (bs : List Byte) :
    (dramStore s addr bs).pending = s.pending := by
  simp [dramStore]

@[simp] theorem microDram_pending (s : State) (t a : Nat) (bs : List Byte) :
    (microDram s t a bs).pending = s.pending := by
  simp [microDram]

@[simp] theorem hodMove_pending (s : State) (c n : Nat) (host : List Byte) :
    (hodMove s c n host).pending = s.pending := by
  unfold hodMove
  dsimp only
  (repeat' split) <;> simp

@[simp] theorem finishJob_pending (s : State) (e : Nat) (it : RndItem) (r : JobEnd) :
    (finishJob s e it r).pending = s.pending := by
  simp [finishJob]

@[simp] theorem powerOn_pending (s : State) (cause : Nat) : (powerOn s cause).pending = s.pending := by
  simp [powerOn]

@[simp] theorem warmReset_pending (s : State) (cause : Nat) (flushed : Bool) :
    (warmReset s cause flushed).pending = s.pending := by
  simp [warmReset]

@[simp] theorem warmRequest_pending (s : State) (cause : Nat) : (warmRequest s cause).pending = s.pending := by
  unfold warmRequest
  (repeat' split) <;> simp

@[simp] theorem orSame_warmReset_pending (s : State) (mgt : Bool) :
    (orSame s (execWarmReset mgt s)).pending = s.pending := warmRequest_pending s _

@[simp] theorem writeCtl_pending (s : State) (mgt : Bool) (v : Word) : (writeCtl s mgt v).pending = s.pending := by
  unfold writeCtl
  dsimp only
  (repeat' split) <;> simp

theorem writeGlobal_queue (s : State) (mgt : Bool) (k : Nat) (v : Word) (ok : Bool) :
    SomeQueue s.pending (writeGlobal s mgt k v ok) := by
  unfold writeGlobal
  simp

theorem applyWord_pending (s : State) (mgt : Bool) (rsv : Fld) (r : RegAt) (v : Word) (ok : Bool) :
    (applyWord s mgt rsv r v ok).pending = s.pending := by
  have special : SomeQueue s.pending (match xqAt s r.key with
      | some (fid, off) => writeXq s fid off v
      | none => (writeGlobal s mgt r.key v ok <|> writeData s r.key v) <|> writeMotion s r.key v) := by
    split
    · exact (writeXq_kept _ _ _ _ rfl rfl rfl).queue
    · exact ((writeGlobal_queue s mgt _ v ok).orElse (writeData_kept _ _ _ rfl rfl rfl).queue).orElse
        (writeMotion_kept _ _ _ rfl rfl rfl).queue
  unfold applyWord
  dsimp only
  split
  case h_1 t written => exact special t written
  case h_2 => simp

@[simp] theorem writeAt_pending (s : State) (a : Accessor) (rsv : Fld) (r : RegAt) (v : Word) (ok : Bool) :
    (writeAt s a rsv r v ok).pending = s.pending := by
  unfold writeAt
  dsimp only
  (repeat' split) <;> simp [applyWord_pending]

theorem trackRsv_pending (s : State) (rsv : Fld) {f : State → State} (hf : ∀ t, (f t).pending = t.pending) :
    (trackRsv s rsv f).1.pending = s.pending := by
  unfold trackRsv
  dsimp only
  split <;> simp [hf]

@[simp] theorem writeReg_pending (s : State) (a : Accessor) (off bytes : Nat) (v : Word) (ok : Bool) :
    (writeReg s a off bytes v ok).1.pending = s.pending := by
  unfold writeReg
  dsimp only
  (repeat' split) <;> simp [trackRsv_pending]

@[simp] theorem bar0Write_pending (s : State) (a : Accessor) (off bytes : Nat) (v : Word) (ok : Bool) :
    (bar0Write s a off bytes v ok).pending = s.pending := by
  unfold bar0Write
  (repeat' split) <;> simp

@[simp] theorem writePieces_pending (a : Accessor) (ok : Bool) (ps : List (Nat × Nat × Nat)) (data : List Byte)
    (s : State) : (writePieces a ok ps data s).pending = s.pending := by
  induction ps generalizing data s with
  | nil => rfl
  | cons p ps ih => rw [writePieces, ih, bar0Write_pending]

@[simp] theorem storeVisible_pending (s : State) (e : StoreEnt) (ok : Bool) :
    (storeVisible s e ok).pending = s.pending := by
  unfold storeVisible
  (repeat' split) <;> simp

/-! ## Every command keeps the queue -/

/-- The commands that write DRAM or SRAM by the lemmas above, every other one by its lemma `_kept`. -/
theorem exec_pending (i : Instr) (s : State) : NextQueue s.pending (exec i s) := by
  cases i with
  | registerWrite => simp [exec, execRegisterWrite]
  | pairedLoWrite => simp [exec, execPairedLoWrite]
  | pairedHiWrite => simp [exec, execPairedHiWrite]
  | porAssert => simp [exec, execPorAssert]
  | warmRstPin => simp [exec, execWarmRstPin]
  | warmReset => simp [exec, execWarmReset]
  | mgtWrite => simp [exec, execMgtWrite]
  | warmStopEnd =>
    simp only [exec, execWarmStopEnd]
    (repeat' split) <;> simp
  | memoryRequest =>
    simp only [exec, execMemoryRequest]
    (repeat' split) <;> simp
  | st =>
    simp only [exec, execSt]
    (repeat' split) <;> simp
  | storeAck =>
    simp only [exec, execStoreAck]
    (repeat' split) <;> simp
  | renderJobEnd =>
    simp only [exec, execRenderJobEnd]
    (repeat' split) <;> simp
  | hodDrainEnd =>
    simp only [exec, execHodDrainEnd]
    (repeat' split) <;> simp
  | hodTransferEnd =>
    simp only [exec, execHodTransferEnd]
    (repeat' split) <;> simp
  | _ =>
    refine NextKeeps.queue (d := s.trw.dram) (m := s.trw.sram) ?_
    simp only [exec]
    simp

/-! ## The statement -/

/-- One step takes the front command and keeps the rest in order. -/
theorem step_takes_front (s : State) : ∃ t, step s = .next t ∧ t.pending = s.pending.tail := by
  unfold step
  split
  case h_1 hp => exact ⟨s, rfl, by rw [hp, List.tail_nil]⟩
  case h_2 c rest hp =>
    obtain ⟨t, run⟩ := exec_answers c { s with pending := rest }
    exact ⟨t, run, by rw [exec_pending _ _ t run, hp, List.tail_cons]⟩

/-- Settles O2: every command answers (`exec_answers`) and keeps the queue (`exec_pending`). -/
theorem noCommandStopsTheMachine : Obligations.NoCommandStopsTheMachine := by
  unfold Obligations.NoCommandStopsTheMachine
  refine ⟨step_takes_front, ?_⟩
  intro s t hs run c hc
  obtain ⟨u, run', queue⟩ := step_takes_front s
  cases run.symm.trans run'
  exact hs c (List.mem_of_mem_tail (queue ▸ hc))

end Sys2Proof.Laws
end

section
/-!
PROOFS. The statement of 03_bring_up_and_image.md on resets (R61, R64 to R67, R102) and on SAFE by command (R498). The
lemmas in front of it serve every later proof about bring-up: what a Daymark event and a new device state leave
unchanged, power domains switched on, the ports that train as LOADING begins, and the state that a reset leaves.
-/

namespace Sys2Proof.Laws

open Sys2Proof.Machine

/-! ## Tables -/

/-- Reading a table cut down to the keys that `p` keeps. -/
theorem tget_filter {α : Type} (d : α) (t : Tbl α) (p : Nat → Bool) (k : Nat) :
    tget d (t.filter fun e => p e.1) k = if p k then tget d t k else d := by
  induction t with
  | nil => exact (ite_self d).symm
  | cons e t ih =>
    obtain ⟨i, x⟩ := e
    rw [List.filter_cons]
    by_cases hk : k = i
    · subst hk
      cases hp : p k <;> simp [hp, tget, ih]
    · split
      case isTrue => rw [tget, if_neg hk, ih, tget, if_neg hk]
      case isFalse => rw [ih, tget, if_neg hk]

/-- Reading a table after a value was stored under each key of a list. -/
theorem tget_foldl_tset {α : Type} [DecidableEq α] (d : α) (f : Nat → α) (ks : List Nat) (t : Tbl α) (k : Nat) :
    tget d (ks.foldl (fun t i => tset d t i (f i)) t) k = if k ∈ ks then f k else tget d t k := by
  induction ks generalizing t with
  | nil => rfl
  | cons i ks ih =>
    rw [List.foldl_cons, ih, tget_tset]
    by_cases hk : k = i
    · subst hk
      simp
    · simp [hk]

/-! ## Folds -/

/-- A fold touches what its steps touch. -/
theorem unchanged_foldl {α : Type} {parts : List Part} {g : State → α → State} (h : ∀ s x, Unchanged parts s (g s x))
    (l : List α) (s : State) : Unchanged parts s (l.foldl g s) := by
  induction l generalizing s with
  | nil => exact unchanged_refl _ s
  | cons x l ih => exact unchanged_trans (h s x) (ih _)

/-- A register word that no step of a fold changes reads as before. -/
theorem rget_foldl {α : Type} {g : State → α → State} {k : Nat} (l : List α) (s : State)
    (h : ∀ s, ∀ x ∈ l, rget (g s x) k = rget s k) : rget (l.foldl g s) k = rget s k := by
  induction l generalizing s with
  | nil => rfl
  | cons x l ih =>
    rw [List.foldl_cons, ih _ fun b y hy => h b y (List.mem_cons_of_mem x hy), h s x List.mem_cons_self]

/-! ## Daymark events and device states (R70, R71, R507) -/

/-- An event touches Daymark, and the registers by its overflow counter alone. -/
theorem dmkPush_unchanged (s : State) (code data : Nat) : Unchanged [.regs, .dmk] s (dmkPush s code data) := by
  intro part hpart
  unfold dmkPush
  cases part with
  | regs | dmk => exact absurd (by decide) hpart
  | _ => split <;> rfl

theorem rget_dmkPush (s : State) (code data : Nat) {k : Nat}
    (h : s.dmk.intake.length < 64 ∨ k ≠ DMK_LOSS_OVERFLOW.off) : rget (dmkPush s code data) k = rget s k := by
  unfold dmkPush
  split
  case isTrue => rfl
  case isFalse full => exact rget_fset s DMK_LOSS_OVERFLOW _ k (h.resolve_left full)

theorem setPhase_phase (s : State) (p : Phase) (src cause : Nat) : (setPhase s p src cause).phase = p :=
  dmkPush_unchanged _ _ _ .phase (by decide)

theorem setPhase_unchanged (s : State) (p : Phase) (src cause : Nat) :
    Unchanged [.phase, .regs, .dmk] s (setPhase s p src cause) := by
  have entered : Unchanged [.phase] s { s with phase := p } := by
    intro part hpart
    cases part with
    | phase => exact absurd List.mem_cons_self hpart
    | _ => rfl
  exact unchanged_trans (unchanged_mono entered (by decide)) (unchanged_mono (dmkPush_unchanged _ _ _) (by decide))

theorem rget_setPhase (s : State) (p : Phase) (src cause : Nat) {k : Nat}
    (h : s.dmk.intake.length < 64 ∨ k ≠ DMK_LOSS_OVERFLOW.off) : rget (setPhase s p src cause) k = rget s k :=
  rget_dmkPush { s with phase := p } _ _ h

/-! ## Power domains (R94) -/

theorem pdOn_congr {s t : State} (h : t.regs = s.regs) (d : Nat) : pdOn t d = pdOn s d := by
  simp only [pdOn, fbit, fget, rget, h]

/-- A domain switched on reads on, and every other domain reads as before. -/
theorem pdOn_setPdOn (s : State) (d c : Nat) : pdOn (setPdOn s d true) c = if c = d then true else pdOn s c := by
  by_cases hword : c / 32 = d / 32
  · have hbit : c % 32 = d % 32 ↔ c = d := by omega
    have inWord (k : Nat) : k % 32 < (PWR_PD_ON_ON.ix (d / 32) 4).w := Nat.mod_lt k (Nat.zero_lt_succ 31)
    rw [pdOn, pdOn, setPdOn, hword, fbit_fsetBit s (PWR_PD_ON_ON.ix (d / 32) 4) true (Nat.le_refl 32) (inWord d)
      (inWord c), if_congr hbit rfl rfl]
  · have apart : (PWR_PD_ON_ON.ix (c / 32) 4).off ≠ (PWR_PD_ON_ON.ix (d / 32) 4).off := by
      simp only [Fld.ix]
      omega
    rw [if_neg fun e : c = d => hword (by rw [e])]
    exact fbit_congr _ (fget_congr (rget_fsetBit s _ _ _ apart))

/-- Domains switched on one after the other. -/
def powerDomains (s : State) (ds : List Nat) : State := ds.foldl (fun s d => setPdOn s d true) s

theorem pdOn_powerDomains (ds : List Nat) (s : State) (c : Nat) :
    pdOn (powerDomains s ds) c = if c ∈ ds then true else pdOn s c := by
  induction ds generalizing s with
  | nil => rfl
  | cons d ds ih =>
    rw [powerDomains, List.foldl_cons, ← powerDomains, ih, pdOn_setPdOn]
    by_cases hc : c = d <;> simp [hc]

theorem powerDomains_unchanged (ds : List Nat) (s : State) : Unchanged [.regs] s (powerDomains s ds) :=
  unchanged_foldl (fun b _ => fsetBit_unchanged b _ _ _) ds s

theorem rget_powerDomains (ds : List Nat) (s : State) {k : Nat}
    (hk : ∀ d ∈ ds, k ≠ (PWR_PD_ON_ON.ix (d / 32) 4).off) : rget (powerDomains s ds) k = rget s k :=
  rget_foldl ds s fun b d hd => rget_fsetBit b _ _ _ (hk d hd)

/-! ## LOADING begins (R102) -/

/-- The domains LOADING turns on: the six host ports and the xSPI port. -/
def loadingDomains : List Nat := [0, 1, 2, 3, 4, 5, 195]

/-- A port whose PERST_N is released trains. -/
def trainReleased (s : State) (p : Nat) : State :=
  if (getPort s p).perst then s else modPort s p fun x => { x with training := true }

theorem beginLoading_eq (s : State) : beginLoading s =
    (List.range 6).foldl trainReleased (powerDomains (setPhase s .loading) loadingDomains) := rfl

theorem getPort_modPort (s : State) (p q : Nat) (f : PortState → PortState) :
    getPort (modPort s p f) q = if q = p then f (getPort s p) else getPort s q := tget_tmod _ _ _ _ _

theorem setPorts_unchanged (s : State) (ps : Tbl PortState) : Unchanged [.ports] s { s with ports := ps } := by
  intro part hpart
  cases part with
  | ports => exact absurd List.mem_cons_self hpart
  | _ => rfl

theorem getPort_trainReleased (s : State) (p q : Nat) : getPort (trainReleased s p) q =
    { getPort s q with training := (getPort s q).training || (q == p && !(getPort s q).perst) } := by
  unfold trainReleased
  by_cases hq : q = p
  · subst hq
    generalize hx : getPort s q = x
    obtain ⟨perst, training, inReset⟩ := x
    cases perst <;> simp [getPort_modPort, hx]
  · have beside : (q == p) = false := beq_eq_false_iff_ne.mpr hq
    rw [beside, Bool.false_and, Bool.or_false]
    split
    case isTrue => rfl
    case isFalse => exact (getPort_modPort s p q _).trans (if_neg hq)

theorem getPort_trainsReleased (ps : List Nat) (s : State) (q : Nat) : getPort (ps.foldl trainReleased s) q =
    { getPort s q with training := (getPort s q).training || (ps.contains q && !(getPort s q).perst) } := by
  induction ps generalizing s with
  | nil => simp
  | cons p ps ih =>
    rw [List.foldl_cons, ih, getPort_trainReleased, List.contains_cons]
    cases (getPort s q).training <;> cases (getPort s q).perst <;> simp

theorem trainsReleased_unchanged (ps : List Nat) (s : State) : Unchanged [.ports] s (ps.foldl trainReleased s) := by
  refine unchanged_foldl (fun b p => ?_) ps s
  unfold trainReleased
  split
  · exact unchanged_refl _ b
  · exact setPorts_unchanged b _

theorem beginLoading_unchanged (s : State) : Unchanged [.phase, .regs, .ports, .dmk] s (beginLoading s) :=
  unchanged_trans (unchanged_mono (setPhase_unchanged s .loading 0 0) (by decide))
    (unchanged_trans (unchanged_mono (powerDomains_unchanged loadingDomains _) (by decide))
      (unchanged_mono (trainsReleased_unchanged _ _) (by decide)))

theorem beginLoading_regs (s : State) :
    (beginLoading s).regs = (powerDomains (setPhase s .loading) loadingDomains).regs :=
  trainsReleased_unchanged _ _ .regs (by decide)

theorem beginLoading_phase (s : State) : (beginLoading s).phase = .loading := by
  have trained := trainsReleased_unchanged (List.range 6) (powerDomains (setPhase s .loading) loadingDomains) .phase
    (by decide)
  have powered := powerDomains_unchanged loadingDomains (setPhase s .loading) .phase (by decide)
  exact (trained.trans powered).trans (setPhase_phase s .loading 0 0)

theorem pdOn_beginLoading (s : State) {d : Nat} (hd : d ∈ loadingDomains) : pdOn (beginLoading s) d = true := by
  rw [pdOn_congr (beginLoading_regs s), pdOn_powerDomains, if_pos hd]

theorem training_beginLoading (s : State) {p : Nat} (hp : p < 6) (hperst : (getPort s p).perst = false) :
    (getPort (beginLoading s) p).training = true := by
  have powered : getPort (powerDomains (setPhase s .loading) loadingDomains) p = getPort s p :=
    congrArg (fun ports => tget ({} : PortState) ports p)
      ((powerDomains_unchanged loadingDomains _ .ports (by decide)).trans
        (setPhase_unchanged s .loading 0 0 .ports (by decide)))
  rw [beginLoading_eq, getPort_trainsReleased, powered]
  simp [hp, hperst]

/-- While Daymark's intake has room, LOADING's begin changes no register but the power domains that are on. -/
theorem rget_beginLoading {s : State} (hroom : s.dmk.intake.length < 64) {k : Nat}
    (hk : ¬(0x1601040 ≤ k ∧ k < 0x1601060)) : rget (beginLoading s) k = rget s k := by
  have domainKey : ∀ d ∈ loadingDomains, 0x1601040 ≤ (PWR_PD_ON_ON.ix (d / 32) 4).off ∧
      (PWR_PD_ON_ON.ix (d / 32) 4).off < 0x1601060 := by decide
  have powered : rget (powerDomains (setPhase s .loading) loadingDomains) k = rget (setPhase s .loading) k :=
    rget_powerDomains _ _ fun d hd e => hk (e ▸ domainKey d hd)
  rw [rget, beginLoading_regs, ← rget, powered, rget_setPhase s _ _ _ (.inl hroom)]

/-! ## Power-on reset (R61, R64) -/

/-- A reset leaves the level of each PERST_N pin. -/
theorem perst_perstLevels (s : State) {p : Nat} (hp : p < 6) :
    (tget {} (perstLevels s) p).perst = (getPort s p).perst := by
  rw [perstLevels, tget_foldl_tset, if_pos (List.mem_range.mpr hp)]

theorem rget_powerOn (s : State) (cause : Nat) {k : Nat} (hk : k ≠ GLB_RESET_CAUSE_CAUSE.off) :
    rget (powerOn s cause) k = resetWord k := rget_fset _ _ _ k hk

theorem powerOn_cause (s : State) (cause : Nat) : fget (powerOn s cause) GLB_RESET_CAUSE_CAUSE = cause % 8 :=
  fget_fset_same _ GLB_RESET_CAUSE_CAUSE cause (by decide)

/-- POR_ASSERT by the pin (R61). -/
theorem porAssert_pin (s : State) : ∃ t, exec (.porAssert false) s = .next t ∧ t.phase = .off ∧ t.nv = s.nv ∧
    t.pending = s.pending ∧ (∀ k, k ≠ GLB_RESET_CAUSE_CAUSE.off → rget t k = resetWord k) ∧
    fget t GLB_RESET_CAUSE_CAUSE = 0 ∧ t.cmds = [] ∧ t.qps = [] ∧ t.jrn = {} ∧ t.kpr = {} ∧ t.dmk = {} ∧ t.trw = {} ∧
    t.udc = {} ∧ t.tenants = [] ∧ t.tb = {} ∧ (∀ p < 6, (getPort t p).perst = (getPort s p).perst) :=
  ⟨powerOn s 0, rfl, rfl, rfl, rfl, fun _ hk => rget_powerOn s 0 hk, powerOn_cause s 0, rfl, rfl, rfl, rfl, rfl, rfl,
    rfl, rfl, rfl, fun _ hp => perst_perstLevels s hp⟩

theorem exec_porAssert_internal (s : State) :
    exec (.porAssert true) s = if s.phase = .off then .next (powerOn s 1) else .next s := rfl

/-- POR_RELEASE in OFF (R64, R102). -/
theorem porRelease_loads {s : State} (hoff : s.phase = .off) : ∃ t, exec .porRelease s = .next t ∧ t.phase = .loading ∧
    (∀ d ∈ [0, 1, 2, 3, 4, 5, 195], pdOn t d = true) ∧
    (∀ p < 6, (getPort s p).perst = false → (getPort t p).training = true) ∧
    Unchanged [.phase, .regs, .ports, .dmk] s t := by
  have harm : exec .porRelease s = execPorRelease s := rfl
  exact ⟨beginLoading s, by rw [harm, execPorRelease, if_pos hoff], beginLoading_phase s,
    fun _ hd => pdOn_beginLoading s hd, fun _ hp hperst => training_beginLoading s hp hperst, beginLoading_unchanged s⟩

/-! ## Warm-reset requests (R64 to R66, Table 03-7) -/

/-- The three warm-reset requests with the cause each shows. -/
def warmRequests : List (Instr × Nat) := [(.warmRstPin, 2), (.warmReset false, 3), (.warmReset true, 4)]

theorem exec_warmRequests {i : Instr} {cause : Nat} (hi : (i, cause) ∈ warmRequests) (s : State) :
    exec i s = .next (warmRequest s cause) := by
  simp only [warmRequests, List.mem_cons, Prod.mk.injEq, List.not_mem_nil, or_false] at hi
  obtain ⟨rfl, rfl⟩ | ⟨rfl, rfl⟩ | ⟨rfl, rfl⟩ := hi <;> rfl

theorem warmRequest_again {s : State} (cause : Nat) (hwarm : s.rst.warm.isSome = true) :
    warmRequest s cause = s := by
  simp [warmRequest, hwarm]

/-- With no warm reset pending, what a request does depends on the device state. -/
theorem warmRequest_first {s : State} (cause : Nat) (hwarm : s.rst.warm = none) (hlatched : s.rst.warmLatched = none) :
    (s.phase ∈ [Phase.loading, .selftest, .discovery, .beacon] →
      warmRequest s cause = fset { s with rst := { s.rst with warm := some cause } } GLB_STATE_STOPPING 1) ∧
    (s.phase = .ballast → warmRequest s cause = { s with rst := { s.rst with warmLatched := some cause } }) ∧
    (s.phase ∈ [Phase.bringup, .serving, .degraded] → warmRequest s cause = warmStop s cause) := by
  have free : ¬(s.rst.warm.isSome || s.rst.warmLatched.isSome) = true := by simp [hwarm, hlatched]
  rw [warmRequest, if_neg free]
  cases s.phase <;> simp

theorem setRst_unchanged (s : State) (r : ResetCtl) : Unchanged [.rst] s { s with rst := r } := by
  intro part hpart
  cases part with
  | rst => exact absurd List.mem_cons_self hpart
  | _ => rfl

/-- A warm-reset request with none pending (Table 03-7). -/
theorem warmRequest_requests {s : State} {i : Instr} {cause : Nat} (hi : (i, cause) ∈ warmRequests)
    (hwarm : s.rst.warm = none) (hlatched : s.rst.warmLatched = none) :
    (s.phase ∈ [Phase.loading, .selftest, .discovery, .beacon] →
      ∃ t, exec i s = .next t ∧ t.rst.warm = some cause ∧ fget t GLB_STATE_STOPPING = 1 ∧
        RegsBut [GLB_STATE_STOPPING.off] s t ∧ Unchanged [.rst, .regs] s t) ∧
    (s.phase = .ballast →
      ∃ t, exec i s = .next t ∧ t.rst.warmLatched = some cause ∧ t.rst.warm = none ∧ Unchanged [.rst] s t) ∧
    (s.phase ∈ [Phase.bringup, .serving, .degraded] →
      ∃ t, exec i s = .next t ∧ t.bls.mode = 2 ∧ t.bls.cause = 3) := by
  obtain ⟨early, latched, working⟩ := warmRequest_first cause hwarm hlatched
  rw [exec_warmRequests hi]
  refine ⟨fun hphase => ?_, fun hphase => ?_, fun hphase => ?_⟩
  · refine ⟨_, congrArg _ (early hphase), rfl, fget_fset_same _ GLB_STATE_STOPPING 1 (by decide), ?_, ?_⟩
    · exact regsBut_fset (f := GLB_STATE_STOPPING) _ 1 List.mem_cons_self
    · exact unchanged_trans (unchanged_mono (setRst_unchanged s _) (by decide))
        (unchanged_mono (fset_unchanged _ _ _) (by decide))
  · exact ⟨_, congrArg _ (latched hphase), rfl, hwarm, setRst_unchanged s _⟩
  · exact ⟨_, congrArg _ (working hphase), rfl, rfl⟩

theorem exec_warmRequest_again {s : State} {i : Instr}
    (hi : i ∈ [Instr.warmRstPin, .warmReset false, .warmReset true]) (hwarm : s.rst.warm.isSome = true) :
    exec i s = .next s := by
  have request : i ∈ warmRequests.map Prod.fst := hi
  obtain ⟨⟨_, cause⟩, hmem, rfl⟩ := List.mem_map.mp request
  rw [exec_warmRequests hmem, warmRequest_again cause hwarm]

/-! ## The end of a warm stop (R66, R67, R470) -/

theorem sendLeave_unchanged (s : State) : Unchanged [.out, .ozp] s (sendLeave s) := by
  have leave (b : State) (p : Nat) : Unchanged [.out, .ozp] b
      (if ozUp b p then sendHeartbeat (modOz b p fun x => { x with leaving := true }) p else b) := by
    intro part hpart
    cases part with
    | out | ozp => exact absurd (by decide) hpart
    | _ => split <;> rfl
  exact unchanged_trans (leave s 0) (leave _ 1)

/-- What a warm reset keeps, with the cause and the end of the flush shown, before LOADING begins. -/
def warmKept (s : State) (cause : Nat) (flushed : Bool) : State :=
  let t : State :=
    { State.reset with
      pending := s.pending, out := s.out, freeCtr := s.freeCtr, nv := s.nv, ports := perstLevels s
      tb := { s.tb with boot := 0 }
      regs := s.regs.filter fun e => keptKey e.1
      kpr := { order := s.kpr.order, lastRec := s.kpr.lastRec }
      rst := { prevBoot := s.rst.prevBoot }
      mgt := { dynamic := s.mgt.dynamic } }
  fset (fset t GLB_RESET_CAUSE_CAUSE cause) GLB_RESET_CAUSE_FLUSH_DONE (b2n flushed)

theorem warmReset_eq (s : State) (cause : Nat) (flushed : Bool) :
    warmReset s cause flushed = beginLoading (warmKept s cause flushed) := rfl

theorem rget_warmKept (s : State) (cause : Nat) (flushed : Bool) {k : Nat} (hk : k ≠ GLB_RESET_CAUSE_CAUSE.off) :
    rget (warmKept s cause flushed) k = if keptKey k then rget s k else resetWord k := by
  rw [warmKept, rget_fset _ GLB_RESET_CAUSE_FLUSH_DONE _ k hk, rget_fset _ GLB_RESET_CAUSE_CAUSE _ k hk]
  exact tget_filter _ _ keptKey k

/-- Outside the power domains that LOADING turns on, a warm reset leaves the registers that `warmKept` gives. -/
theorem rget_warmReset (s : State) (cause : Nat) (flushed : Bool) {k : Nat} (hk : ¬(0x1601040 ≤ k ∧ k < 0x1601060)) :
    rget (warmReset s cause flushed) k = rget (warmKept s cause flushed) k := by
  have room : (warmKept s cause flushed).dmk.intake.length < 64 := Nat.zero_lt_succ 63
  rw [warmReset_eq, rget_beginLoading room hk]

theorem warmReset_cause (s : State) (cause : Nat) (flushed : Bool) :
    fget (warmReset s cause flushed) GLB_RESET_CAUSE_CAUSE = cause % 8 ∧
      fget (warmReset s cause flushed) GLB_RESET_CAUSE_FLUSH_DONE = b2n flushed := by
  have shown {f : Fld} (hf : f.off = GLB_RESET_CAUSE_CAUSE.off) :
      fget (warmReset s cause flushed) f = fget (warmKept s cause flushed) f :=
    fget_congr (rget_warmReset s cause flushed (by rw [hf]; decide))
  rw [shown (f := GLB_RESET_CAUSE_CAUSE) rfl, shown (f := GLB_RESET_CAUSE_FLUSH_DONE) rfl, warmKept,
    fget_fset_same _ GLB_RESET_CAUSE_FLUSH_DONE _ (by decide),
    fget_fset_ne _ GLB_RESET_CAUSE_FLUSH_DONE _ _ (by decide) (by decide),
    fget_fset_same _ GLB_RESET_CAUSE_CAUSE _ (by decide)]
  exact ⟨rfl, by cases flushed <;> rfl⟩

/-- Beside registers, ports and Daymark, a warm reset leaves the parts that `warmKept` gives, in LOADING. -/
theorem warmReset_parts (s : State) (cause : Nat) (flushed : Bool) :
    (warmReset s cause flushed).phase = .loading ∧
      Unchanged [.phase, .regs, .ports, .dmk] (warmKept s cause flushed) (warmReset s cause flushed) := by
  rw [warmReset_eq]
  exact ⟨beginLoading_phase _, beginLoading_unchanged _⟩

theorem keptKey_apart {k : Nat} (hk : keptKey k = true) :
    k ≠ GLB_RESET_CAUSE_CAUSE.off ∧ ¬(0x1601040 ≤ k ∧ k < 0x1601060) := by
  simp only [keptKey, KPR_SAFE_VALID, KPR_HIST_NEXT_RSEQ, Bool.or_eq_true, Bool.and_eq_true, decide_eq_true_eq,
    beq_iff_eq] at hk
  simp only [GLB_RESET_CAUSE_CAUSE]
  omega

theorem exec_warmStopEnd {s : State} {c : Nat} (hwarm : s.rst.warm = some c) (hdump : s.bls.mode = 0)
    (hheads : headsOut s = false) : exec .warmStopEnd s = .next (warmReset (sendLeave s) c s.rst.flushDone) := by
  have harm : exec .warmStopEnd s = execWarmStopEnd s := rfl
  rw [harm, execWarmStopEnd, hwarm]
  simp [hdump, hheads]

/-- WARM_STOP_END with the dump ended and the heads unloaded (R67). -/
theorem warmStopEnd_loads {s : State} {c : Nat} (hwarm : s.rst.warm = some c) (hdump : s.bls.mode = 0)
    (hheads : headsOut s = false) :
    ∃ t, exec .warmStopEnd s = .next t ∧ t.phase = .loading ∧ fget t GLB_RESET_CAUSE_CAUSE = c % 8 ∧
      fget t GLB_RESET_CAUSE_FLUSH_DONE = b2n s.rst.flushDone ∧ (∀ k, keptKey k = true → rget t k = rget s k) ∧
      (∀ k, keptKey k = false → k ≠ GLB_RESET_CAUSE_CAUSE.off → ¬ (0x1601040 ≤ k ∧ k < 0x1601060) →
        rget t k = resetWord k) ∧
      t.nv = s.nv ∧ t.cmds = [] ∧ t.qps = [] ∧ t.rst.warm = none ∧ t.tb.ns = s.tb.ns ∧ t.kpr.order = s.kpr.order := by
  have left := sendLeave_unchanged s
  obtain ⟨loading, parts⟩ := warmReset_parts (sendLeave s) c s.rst.flushDone
  have cmds : (warmReset (sendLeave s) c s.rst.flushDone).cmds = [] := parts .cmds (by decide)
  have qps : (warmReset (sendLeave s) c s.rst.flushDone).qps = [] := parts .qps (by decide)
  have nv : (warmReset (sendLeave s) c s.rst.flushDone).nv = (sendLeave s).nv := parts .nv (by decide)
  have tb : (warmReset (sendLeave s) c s.rst.flushDone).tb = { (sendLeave s).tb with boot := 0 } :=
    parts .tb (by decide)
  have kpr : (warmReset (sendLeave s) c s.rst.flushDone).kpr =
      { order := (sendLeave s).kpr.order, lastRec := (sendLeave s).kpr.lastRec } := parts .kpr (by decide)
  obtain ⟨cause, flushed⟩ := warmReset_cause (sendLeave s) c s.rst.flushDone
  refine ⟨_, exec_warmStopEnd hwarm hdump hheads, loading, cause, flushed, ?_, ?_,
    nv.trans (left .nv (by decide)), cmds, qps, ?_, ?_, ?_⟩
  · intro k hk
    obtain ⟨notCause, notDomain⟩ := keptKey_apart hk
    rw [rget_warmReset _ _ _ notDomain, rget_warmKept _ _ _ notCause, if_pos hk, rget, left .regs (by decide), ← rget]
  · intro k hk notCause notDomain
    rw [rget_warmReset _ _ _ notDomain, rget_warmKept _ _ _ notCause, hk]
    rfl
  · exact congrArg ResetCtl.warm (parts .rst (by decide))
  · have sameTb : (sendLeave s).tb = s.tb := left .tb (by decide)
    rw [tb, sameTb]
  · have sameKpr : (sendLeave s).kpr = s.kpr := left .kpr (by decide)
    rw [kpr, sameKpr]

/-! ## SAFE by command (R498, Table 03-7) -/

theorem forcedReport_src (s : State) (r : Report) : (forcedReport s r).src = r.src := by
  unfold forcedReport
  split <;> rfl

theorem forcedReport_cls (s : State) (r : Report) : (forcedReport s r).cls = r.cls := by
  unfold forcedReport
  split <;> rfl

/-- A report of a class that does not merge enters its record, marked forced where the source takes its force bit. -/
theorem report_notCorrected {s : State} {r : Report} (hphase : s.phase ≠ .off) (hcls : r.cls ≠ .corrected) :
    report s r = reportRecord s (forcedReport s r) := by
  rw [report, if_neg hphase, forcedReport_cls, if_neg hcls]

/-- A report that is fatal as it stands signals its record, and then is a fatal fault. -/
theorem reportRecord_fatal_signals {s : State} {r : Report} (hcls : r.cls = .fatal) : ∃ u, u.phase = s.phase ∧
    u.rst = s.rst ∧ reportRecord s r = fatalFault u r.src := by
  obtain ⟨cause, u, signalled, run⟩ := reportRecord_signals s r
  have fatal : classOf s r = .fatal := by
    unfold classOf
    rw [hcls]
    exact ite_self _
  have entered := enterRecord_unchanged s (recWord3 r.src (classOf s r) r.cls r.forced (escalatedFrom s r).isSome
    (conseqOf s r).isSome false) r.data cause
  exact ⟨u, signalled.phase_eq.trans (entered .phase (by decide)), signalled.rst_eq.trans (entered .rst (by decide)),
    by rw [run, if_pos fatal]⟩

/-- ENTER_SAFE outside OFF, SAFE and BEACON is a fatal fault of source 0x020 once its record is signalled. -/
theorem exec_enterSafe {s : State} (hphase : s.phase ∉ [Phase.off, .safe, .beacon]) : ∃ u, u.phase = s.phase ∧
    u.rst = s.rst ∧ exec .enterSafe s = .next (fatalFault u 0x020) ∧ Unchanged reportParts s (fatalFault u 0x020) := by
  have harm : exec .enterSafe s = execEnterSafe s := rfl
  have raised : execEnterSafe s = .next (raise s 0x020) := by
    unfold execEnterSafe
    revert hphase
    cases s.phase <;> simp
  have working : s.phase ≠ .off := fun h => hphase (by simp [h])
  have recorded : raise s 0x020 = reportRecord s (forcedReport s { src := 0x020, cls := .fatal }) :=
    report_notCorrected (r := { src := 0x020, cls := .fatal }) working (by decide)
  obtain ⟨u, phase, rst, run⟩ := reportRecord_fatal_signals (s := s)
    (r := forcedReport s { src := 0x020, cls := .fatal }) (forcedReport_cls s _)
  rw [forcedReport_src] at run
  have shown : raise s 0x020 = fatalFault u 0x020 := recorded.trans run
  exact ⟨u, phase, rst, by rw [harm, raised, shown], shown ▸ ((ReportFrame.refl s).after_raise 0x020 0).parts⟩

theorem safeDecide_valid (s : State) (src : Nat) (direct : Bool) :
    fget (safeDecide s src direct) KPR_SAFE_VALID = 1 := by
  have noSignal : ¬SignalField KPR_SAFE_VALID := by
    rintro (hword | ⟨i, -, hack | ⟨hack, -⟩⟩)
    · exact absurd hword (by decide)
    · simp only [recF, KPR_SAFE_VALID] at hack
      omega
    · simp only [recAcked, recF, KPR_SAFE_VALID] at hack
      omega
  rw [(safeDecide_signals s src direct).fields _ noSignal, safeShown,
    fget_fset_ne _ KPR_SAFE_SOURCE _ _ (by decide) (by decide),
    fget_fset_ne _ KPR_SAFE_DIRECT _ _ (by decide) (by decide)]
  exact fget_fset_same _ KPR_SAFE_VALID 1 (by decide)

theorem foghornLow_safe {s : State} (h : s.phase = .safe) : foghornLow s = true := by
  simp [foghornLow, h]

/-- ENTER_SAFE in a working state (R498). -/
theorem enterSafe_enters {s : State} (h : decidesSafe s) : ∃ t, exec .enterSafe s = .next t ∧ t.phase = .safe ∧
    fget t KPR_SAFE_VALID = 1 ∧ fget t KPR_SAFE_SOURCE = 0x020 ∧ foghornLow t = true ∧ Unchanged reportParts s t := by
  obtain ⟨hwarm, hphase⟩ := h
  have working : s.phase ∉ [Phase.off, .safe, .beacon] := by
    revert hphase
    cases s.phase <;> decide
  obtain ⟨u, phase, rst, run, parts⟩ := exec_enterSafe working
  have decided : fatalFault u 0x020 = safeDecide u 0x020 false :=
    fatalFault_decides 0x020 false ⟨rst ▸ hwarm, phase ▸ hphase⟩
  rw [decided] at run parts
  obtain ⟨safe, source, -⟩ := safeDecide_decides u 0x020 false
  exact ⟨_, run, safe, safeDecide_valid u _ _, source, foghornLow_safe safe, parts⟩

/-- ENTER_SAFE in BALLAST is latched (Table 03-7). -/
theorem enterSafe_latches {s : State} (hballast : s.phase = .ballast) (hwarm : s.rst.warm = none) :
    ∃ t, exec .enterSafe s = .next t ∧ t.phase = .ballast ∧ t.kpr.safeLatched = some 0x020 ∧
      Unchanged reportParts s t := by
  obtain ⟨u, phase, rst, run, parts⟩ := exec_enterSafe (s := s) (by rw [hballast]; decide)
  have latched : fatalFault u 0x020 = modKpr u fun k => { k with safeLatched := some 0x020 } := by
    rw [fatalFault, rst, hwarm, if_neg (by decide), phase, hballast]
  rw [latched] at run parts
  exact ⟨_, run, phase.trans hballast, rfl, parts⟩

theorem exec_enterSafe_idle {s : State} (hphase : s.phase ∈ [Phase.off, .safe, .beacon]) :
    exec .enterSafe s = .next s := by
  have harm : exec .enterSafe s = execEnterSafe s := rfl
  rw [harm, execEnterSafe]
  revert hphase
  cases s.phase <;> simp

/-! ## The statement -/

/-- Settles O14: one lemma for each command and device state. -/
theorem resetsAndSafeByCommand : Obligations.ResetsAndSafeByCommand := by
  unfold Obligations.ResetsAndSafeByCommand
  refine ⟨⟨porAssert_pin, ?_, ?_, ?_⟩, ⟨?_, ?_, ?_⟩, ?_, ?_, ?_⟩
  · intro s hoff
    rw [exec_porAssert_internal, if_neg hoff]
  · intro s hoff
    exact ⟨_, by rw [exec_porAssert_internal, if_pos hoff], rfl, powerOn_cause s 1, rfl⟩
  · intro s hoff
    exact porRelease_loads hoff
  · intro s i cause hi hwarm hlatched
    exact warmRequest_requests hi hwarm hlatched
  · intro s i hi hwarm
    exact exec_warmRequest_again hi hwarm
  · intro s c hwarm hdump hheads
    exact warmStopEnd_loads hwarm hdump hheads
  · intro s h
    exact enterSafe_enters h
  · intro s hballast hwarm
    exact enterSafe_latches hballast hwarm
  · intro s hphase
    exact exec_enterSafe_idle hphase

end Sys2Proof.Laws
end

section
/-!
PROOFS. The statement of 03_bring_up_and_image.md on the way from the loader to service: the loader's start (R68, R72,
R74, R83), a checked slot (R80), the end of SELFTEST (R86), of DISCOVERY (R88) and of BRINGUP (R90, R92), and BEACON
where a step fails (R70, R93). The lemmas in front of it serve every later proof about these states: what entering
BEACON leaves unchanged, and that reports of corrected sources and Daymark's work leave the device state as it is.
-/

namespace Sys2Proof.Laws

open Sys2Proof.Machine

/-! ## BEACON (R70, R93) -/

/-- What entering BEACON does to one port's registers and its training; `ctl` is the port that goes on. -/
def beaconOne (ctl : Nat) (s : State) (p : Nat) : State :=
  let s := fset s (HPT_FUNCS_CONTROL.ix p 0x1000) (b2n (p == ctl))
  let x := tget {} s.ports p
  let train := p == ctl && !x.perst && !fbit s HPT_STATUS_LINK_UP p
  let s := { s with ports := tset {} s.ports p { x with training := train } }
  if p = ctl then fset s (HPT_FUNCS_PRESENT.ix p 0x1000) 1 else portIdle s p

theorem beaconPorts_eq (s : State) : beaconPorts s =
    (List.range 6).foldl (beaconOne (beaconPort s)) (fset s HPT_STATUS_CTL_PORT (beaconPort s)) := rfl

theorem portIdle_unchanged (s : State) (p : Nat) : Unchanged [.regs] s (portIdle s p) :=
  unchanged_trans (rset_unchanged s _ _) (unchanged_trans (fset_unchanged _ _ _) (fsetBit_unchanged _ _ _ _))

/-- The registers of the host ports lie from 0x100000 on (20_address_map.md). -/
theorem rget_portIdle (s : State) (p : Nat) {k : Nat} (hk : k < 0x100000) : rget (portIdle s p) k = rget s k := by
  have apart : k ≠ (HPT_CAPACITY_CAP.ix p 0x1000).off ∧ k ≠ HPT_STATUS_LINK_UP.off ∧ k ≠ 0x100000 + 0x1000 * p := by
    simp only [Fld.ix, HPT_CAPACITY_CAP, HPT_STATUS_LINK_UP]
    omega
  obtain ⟨notCapacity, notStatus, notLink⟩ := apart
  rw [portIdle, rget_fsetBit _ _ _ _ notStatus, rget_fset _ _ _ _ notCapacity, rget_rset, if_neg notLink]

theorem beaconOne_unchanged (ctl : Nat) (s : State) (p : Nat) :
    Unchanged [.regs, .ports] s (beaconOne ctl s p) := by
  have shown : Unchanged [.regs, .ports] s (fset s (HPT_FUNCS_CONTROL.ix p 0x1000) (b2n (p == ctl))) :=
    unchanged_mono (fset_unchanged s _ _) (by decide)
  have trained (ps : Tbl PortState) : Unchanged [.regs, .ports] s
      { fset s (HPT_FUNCS_CONTROL.ix p 0x1000) (b2n (p == ctl)) with ports := ps } :=
    unchanged_trans shown (unchanged_mono (setPorts_unchanged _ ps) (by decide))
  unfold beaconOne
  dsimp only
  split
  · exact unchanged_trans (trained _) (unchanged_mono (fset_unchanged _ _ _) (by decide))
  · exact unchanged_trans (trained _) (unchanged_mono (portIdle_unchanged _ p) (by decide))

theorem rget_beaconOne (ctl : Nat) (s : State) (p : Nat) {k : Nat} (hk : k < 0x100000) :
    rget (beaconOne ctl s p) k = rget s k := by
  have apart : k ≠ (HPT_FUNCS_CONTROL.ix p 0x1000).off ∧ k ≠ (HPT_FUNCS_PRESENT.ix p 0x1000).off := by
    simp only [Fld.ix, HPT_FUNCS_CONTROL, HPT_FUNCS_PRESENT]
    omega
  obtain ⟨notControl, notPresent⟩ := apart
  have shown (x : Nat) : rget (fset s (HPT_FUNCS_CONTROL.ix p 0x1000) x) k = rget s k := rget_fset s _ x k notControl
  unfold beaconOne
  dsimp only
  split
  · exact (rget_fset _ (HPT_FUNCS_PRESENT.ix p 0x1000) 1 k notPresent).trans (shown _)
  · exact (rget_portIdle _ p hk).trans (shown _)

theorem beaconPorts_unchanged (s : State) : Unchanged [.regs, .ports] s (beaconPorts s) :=
  unchanged_trans (unchanged_mono (fset_unchanged s HPT_STATUS_CTL_PORT _) (by decide))
    (unchanged_foldl (beaconOne_unchanged (beaconPort s)) (List.range 6) _)

theorem rget_beaconPorts (s : State) {k : Nat} (hk : k < 0x100000) : rget (beaconPorts s) k = rget s k := by
  have notStatus : k ≠ HPT_STATUS_CTL_PORT.off := by
    simp only [HPT_STATUS_CTL_PORT]
    omega
  rw [beaconPorts_eq, rget_foldl _ _ fun b p _ => rget_beaconOne _ b p hk, rget_fset s _ _ k notStatus]

theorem enterBeacon_unchanged (s : State) (cause src : Nat) :
    Unchanged [.phase, .regs, .ports, .dmk] s (enterBeacon s cause src) :=
  unchanged_trans (unchanged_mono (setPhase_unchanged s .beacon src cause) (by decide))
    (unchanged_trans (unchanged_mono (unchanged_trans (fset_unchanged _ _ _) (fset_unchanged _ _ _)) (by decide))
      (unchanged_mono (beaconPorts_unchanged _) (by decide)))

theorem enterBeacon_phase (s : State) (cause src : Nat) : (enterBeacon s cause src).phase = .beacon :=
  (beaconPorts_unchanged _ .phase (by decide)).trans (setPhase_phase s .beacon src cause)

/-- The fields of GLB_BOOT after BEACON is entered: the cause is shown, the others read as before. -/
theorem fget_enterBeacon_cause (s : State) (cause src : Nat) :
    fget (enterBeacon s cause src) GLB_BOOT_BEACON_CAUSE = cause % 16 := by
  rw [enterBeacon, fget_congr (rget_beaconPorts _ (by decide)), fget_fset_off _ OZP_STATUS_BYP_HOLD _ _ (by decide)]
  exact fget_fset_same _ GLB_BOOT_BEACON_CAUSE cause (by decide)

theorem fget_enterBeacon_boot (s : State) (cause src : Nat) {f : Fld} (hoff : f.off = GLB_BOOT_BEACON_CAUSE.off)
    (hbelow : f.lo + f.w ≤ 24) : fget (enterBeacon s cause src) f = fget s f := by
  have low : f.off < 0x100000 := hoff ▸ by decide
  have notBypass : f.off ≠ OZP_STATUS_BYP_HOLD.off := hoff ▸ by decide
  have notLoss : f.off ≠ DMK_LOSS_OVERFLOW.off := hoff ▸ by decide
  rw [enterBeacon, fget_congr (rget_beaconPorts _ low), fget_fset_off _ OZP_STATUS_BYP_HOLD _ _ notBypass,
    fget_fset_ne _ GLB_BOOT_BEACON_CAUSE _ _ (by decide) (.inr (.inr hbelow)),
    fget_congr (rget_setPhase s _ _ _ (.inr notLoss))]

/-! ## The loader's start (R68, R72, R74, R83) -/

theorem setLoader_unchanged (s : State) (l : Loader) : Unchanged [.loader] s { s with loader := l } := by
  intro part hpart
  cases part with
  | loader => exact absurd List.mem_cons_self hpart
  | _ => rfl

theorem setNv_unchanged (s : State) (nv : NonVolatile) : Unchanged [.nv] s { s with nv := nv } := by
  intro part hpart
  cases part with
  | nv => exact absurd List.mem_cons_self hpart
  | _ => rfl

/-- The loader has started and has set the boot count without a record. -/
def startedNoRecord (s : State) : State := bootNoRecord { s with loader := { s.loader with started := true } }

/-- The loader that cannot read a record enters BEACON, with the media and the loader's progress kept. -/
theorem loaderBeacon {s : State} {i : Instr} {cause : Nat}
    (run : exec i s = .next (enterBeacon (startedNoRecord s) cause)) (hcause : cause < 16) :
    ∃ t, exec i s = .next t ∧ t.phase = .beacon ∧ fget t GLB_BOOT_BEACON_CAUSE = cause ∧
      t.loader.started = true ∧ t.nv = s.nv := by
  have beacon := enterBeacon_unchanged (startedNoRecord s) cause 0
  have loader : (enterBeacon (startedNoRecord s) cause).loader = { s.loader with started := true } :=
    beacon .loader (by decide)
  refine ⟨_, run, enterBeacon_phase _ _ _, ?_, by rw [loader], beacon .nv (by decide)⟩
  rw [fget_enterBeacon_cause, Nat.mod_eq_of_lt hcause]

/-- TEST_EN, or a NOR that does not fit, ends the loader's start in BEACON (R68, R72). -/
theorem exec_loaderStart_fails {s : State} (testEn np so : Bool) (size : Nat) (hphase : s.phase = .loading)
    (hfresh : s.loader.started = false) (hfail : testEn = true ∨
      (np && so && decide (0x4000000 ≤ size) && decide (size ≤ 0x20000000)) = false) :
    exec (.loaderStart testEn np so size) s = .next (enterBeacon (startedNoRecord s) (if testEn then 3 else 2)) := by
  have harm : exec (.loaderStart testEn np so size) s = execLoaderStart testEn np so size s := rfl
  rw [harm, execLoaderStart, if_neg (by simp [hphase, hfresh])]
  cases testEn with
  | true => rfl
  | false =>
    have unfit : (!np || !so || decide (size < 0x4000000) || decide (0x20000000 < size)) = true := by
      simpa only [Bool.false_eq_true, false_or, Bool.and_eq_false_iff, decide_eq_false_iff_not, not_le, Bool.or_eq_true,
        Bool.not_eq_true', decide_eq_true_eq] using hfail
    exact if_pos unfit

/-- The state in which the loader has appended its record `nv` after the current record `r`, and has its order. -/
def recordAppended (s : State) (size : Nat) (r : BootRec) (nv : NonVolatile) : State :=
  let o := slotOrder r.lastGood r.trial r.tries
  let s := { s with loader := { s.loader with started := true }, nv := { s.nv with norSize := size } }
  let s := setBoot s (r.bootCount + 1)
  showRecord { s with nv := nv, loader := { s.loader with
    order := o.1, trial := o.2.1, tries := o.2.2, lastGood := r.lastGood } } r.lastGood o.2.1 o.2.2

/-- The record the loader appends after the current record `r` (R68, R83); `appendRec` numbers it. -/
def nextRecord (r : BootRec) : BootRec :=
  { seq := 0, bootCount := r.bootCount + 1, lastGood := r.lastGood
    trial := (slotOrder r.lastGood r.trial r.tries).2.1, tries := (slotOrder r.lastGood r.trial r.tries).2.2 }

theorem exec_loaderStart_appends {s : State} {size : Nat} {r : BootRec} {nv : NonVolatile} (hphase : s.phase = .loading)
    (hfresh : s.loader.started = false) (hmin : 0x4000000 ≤ size) (hmax : size ≤ 0x20000000)
    (hrec : (currentRec s.nv).1 = some r) (happend : appendRec { s.nv with norSize := size } (nextRecord r) = some nv) :
    exec (.loaderStart false true true size) s = .next (recordAppended s size r nv) := by
  have harm : exec (.loaderStart false true true size) s = execLoaderStart false true true size s := rfl
  have sameRec : (currentRec { s.nv with norSize := size }).1 = some r := hrec
  have fits : (decide (size < 0x4000000) || decide (0x20000000 < size)) = false := by
    simp only [Bool.or_eq_false_iff, decide_eq_false_iff_not]
    omega
  have appended (b : State) (hb : b.nv = { s.nv with norSize := size }) :
      appendRec (setBoot b (r.bootCount + 1)).nv (nextRecord r) = some nv := hb ▸ happend
  unfold nextRecord at appended
  rw [harm, execLoaderStart, if_neg (by simp [hphase, hfresh])]
  simp only [Bool.false_eq_true, if_false, Bool.not_true, Bool.false_or, fits, sameRec]
  rw [appended _ rfl]
  rfl

theorem showRecord_regsBut (s : State) (lastGood trial tries : Nat) :
    RegsBut [GLB_BOOT_TRIAL.off] s (showRecord s lastGood trial tries) :=
  regsBut_trans (regsBut_fset (f := GLB_BOOT_LAST_GOOD) s _ List.mem_cons_self)
    (regsBut_trans (regsBut_fset (f := GLB_BOOT_TRIAL) _ _ List.mem_cons_self)
      (regsBut_fset (f := GLB_BOOT_TRIES) _ _ List.mem_cons_self))

theorem fget_showRecord_trial (s : State) (lastGood trial tries : Nat) :
    fget (showRecord s lastGood trial tries) GLB_BOOT_TRIAL = trial % 4 := by
  rw [showRecord, fget_fset_ne _ GLB_BOOT_TRIES GLB_BOOT_TRIAL _ (by decide) (by decide)]
  exact fget_fset_same _ GLB_BOOT_TRIAL trial (by decide)

/-- LOADER_START with a boot record and room for another (R68, R74, R83). -/
theorem recordAppended_shows (s : State) (size : Nat) (r : BootRec) (nv : NonVolatile) :
    (recordAppended s size r nv).phase = s.phase ∧ (recordAppended s size r nv).nv = nv ∧
      (recordAppended s size r nv).loader.order = (slotOrder r.lastGood r.trial r.tries).1 ∧
      (recordAppended s size r nv).tb.boot = r.bootCount + 1 ∧
      fget (recordAppended s size r nv) GLB_BOOTCNT_BOOT_COUNT = (r.bootCount + 1) % 2 ^ 32 ∧
      fget (recordAppended s size r nv) GLB_BOOT_TRIAL = (slotOrder r.lastGood r.trial r.tries).2.1 % 4 ∧
      RegsBut [GLB_BOOTCNT_BOOT_COUNT.off, GLB_BOOT_TRIAL.off] s (recordAppended s size r nv) ∧
      Unchanged [.tb, .rst, .regs, .nv, .loader] s (recordAppended s size r nv) := by
  refine ⟨rfl, rfl, rfl, rfl, ?_, fget_showRecord_trial _ _ _ _, ?_, ?_⟩
  · rw [recordAppended, fget_regsBut (showRecord_regsBut _ _ _ _) (by decide)]
    exact fget_fset_same _ GLB_BOOTCNT_BOOT_COUNT _ (by decide)
  · intro k hk
    have notCount : k ≠ GLB_BOOTCNT_BOOT_COUNT.off := fun e => hk (e ▸ List.mem_cons_self)
    have notBoot : k ∉ [GLB_BOOT_TRIAL.off] := fun h => hk (List.mem_cons_of_mem _ h)
    exact (showRecord_regsBut _ _ _ _ k notBoot).trans (rget_fset s GLB_BOOTCNT_BOOT_COUNT _ k notCount)
  · intro part hpart
    cases part with
    | tb | rst | regs | nv | loader => exact absurd (by decide) hpart
    | _ => rfl

/-! ## A checked slot (R76, R79 to R83) -/

theorem exec_slotChecked_reject {s : State} {f : SlotFacts} {slot r : Nat} {rest : List Nat} (ok : Bool)
    (hphase : s.phase = .loading) (hstarted : s.loader.started = true) (horder : s.loader.order = slot :: rest)
    (hreason : slotReason s.nv.opHash s.nv.revoked (imageRules s f) f = some r) :
    exec (.slotChecked f ok) s = .next (rejectSlot s slot r rest) := by
  have harm : exec (.slotChecked f ok) s = execSlotChecked f ok s := rfl
  rw [harm, execSlotChecked, if_neg (by simp [hphase, hstarted])]
  simp only [horder, hreason]

theorem exec_slotChecked_accept {s : State} {f : SlotFacts} {slot : Nat} {rest : List Nat} (ok : Bool)
    (hphase : s.phase = .loading) (hstarted : s.loader.started = true) (horder : s.loader.order = slot :: rest)
    (hreason : slotReason s.nv.opHash s.nv.revoked (imageRules s f) f = none) :
    exec (.slotChecked f ok) s = .next (acceptSlot s f slot ok) := by
  have harm : exec (.slotChecked f ok) s = execSlotChecked f ok s := rfl
  rw [harm, execSlotChecked, if_neg (by simp [hphase, hstarted])]
  simp only [horder, hreason]

/-- The slots left to try. -/
def orderLeft (s : State) (rest : List Nat) : State := { s with loader := { s.loader with order := rest } }

/-- The slot leaves the order, its reason code is shown and code 0x0B01 recorded. -/
def slotRejected (s : State) (slot r : Nat) (rest : List Nat) : State :=
  dmkPush (showReason (orderLeft s rest) slot r) 0x0B01 (slot + r * 16)

theorem showReason_unchanged (s : State) (slot r : Nat) : Unchanged [.regs] s (showReason s slot r) := by
  unfold showReason
  split
  · exact fset_unchanged s _ _
  · exact fset_unchanged s _ _

theorem slotRejected_unchanged (s : State) (slot r : Nat) (rest : List Nat) :
    Unchanged [.regs, .dmk] (orderLeft s rest) (slotRejected s slot r rest) :=
  unchanged_trans (unchanged_mono (showReason_unchanged _ slot r) (by decide)) (dmkPush_unchanged _ _ _)

/-- A rejected slot that is no trial, while Daymark's intake has room for its event. -/
theorem rejectSlot_untried {s : State} {slot : Nat} (r : Nat) (rest : List Nat) (htrial : slot ≠ s.loader.trial)
    (hroom : s.dmk.intake.length < 64) : rejectSlot s slot r rest =
      if rest.isEmpty then enterBeacon (slotRejected s slot r rest) 1 else slotRejected s slot r rest := by
  have sameDmk : (showReason (orderLeft s rest) slot r).dmk = s.dmk := showReason_unchanged _ slot r .dmk (by decide)
  have sent : dmkSend (showReason (orderLeft s rest) slot r) 0x0B01 (slot + r * 16) = slotRejected s slot r rest := by
    rw [dmkSend, sameDmk, if_pos hroom]
    rfl
  have loader : (slotRejected s slot r rest).loader = { s.loader with order := rest } :=
    slotRejected_unchanged s slot r rest .loader (by decide)
  unfold orderLeft at sent
  rw [rejectSlot, sent, loader, if_neg htrial]

/-- The reason code of slot A is in A_REASON, that of slot B in B_REASON. -/
theorem fget_slotRejected (s : State) (slot r : Nat) (rest : List Nat) :
    (slot = 1 → fget (slotRejected s slot r rest) GLB_BOOT_A_REASON = r % 16) ∧
      (slot = 2 → fget (slotRejected s slot r rest) GLB_BOOT_B_REASON = r % 16) := by
  have pushed {f : Fld} (h : f.off ≠ DMK_LOSS_OVERFLOW.off) : fget (slotRejected s slot r rest) f =
      fget (showReason (orderLeft s rest) slot r) f := fget_congr (rget_dmkPush _ _ _ (.inr h))
  refine ⟨fun hslot => ?_, fun hslot => ?_⟩
  · rw [pushed (by decide), showReason, if_pos hslot]
    exact fget_fset_same _ GLB_BOOT_A_REASON r (by decide)
  · rw [pushed (by decide), showReason, if_neg (by omega)]
    exact fget_fset_same _ GLB_BOOT_B_REASON r (by decide)

/-- SLOT_CHECKED of a slot that fails a check and is no trial (R80, R83). -/
theorem slotChecked_rejects {s : State} {f : SlotFacts} {slot r : Nat} {rest : List Nat} (ok : Bool)
    (hphase : s.phase = .loading) (hstarted : s.loader.started = true) (horder : s.loader.order = slot :: rest)
    (htrial : slot ≠ s.loader.trial) (hreason : slotReason s.nv.opHash s.nv.revoked (imageRules s f) f = some r)
    (hroom : s.dmk.intake.length < 64) :
    ∃ t, exec (.slotChecked f ok) s = .next t ∧ t.loader.order = rest ∧ t.nv = s.nv ∧
      (slot = 1 → fget t GLB_BOOT_A_REASON = r % 16) ∧ (slot = 2 → fget t GLB_BOOT_B_REASON = r % 16) ∧
      (rest ≠ [] → t.phase = .loading) ∧ (rest = [] → t.phase = .beacon ∧ fget t GLB_BOOT_BEACON_CAUSE = 1) := by
  have rejected := slotRejected_unchanged s slot r rest
  have phase : (slotRejected s slot r rest).phase = .loading := (rejected .phase (by decide)).trans hphase
  have nv : (slotRejected s slot r rest).nv = s.nv := rejected .nv (by decide)
  have order : (slotRejected s slot r rest).loader.order = rest :=
    congrArg Loader.order (rejected .loader (by decide))
  obtain ⟨reasonA, reasonB⟩ := fget_slotRejected s slot r rest
  refine ⟨_, exec_slotChecked_reject ok hphase hstarted horder hreason, ?_⟩
  rw [rejectSlot_untried r rest htrial hroom]
  cases rest with
  | cons x xs => exact ⟨order, nv, reasonA, reasonB, fun _ => phase, fun h => nomatch h⟩
  | nil =>
    have beacon := enterBeacon_unchanged (slotRejected s slot r []) 1 0
    refine ⟨(congrArg Loader.order (beacon .loader (by decide))).trans order, (beacon .nv (by decide)).trans nv, ?_, ?_,
      fun h => absurd rfl h, fun _ => ⟨enterBeacon_phase _ 1 0, fget_enterBeacon_cause _ 1 0⟩⟩
    · intro hslot
      exact (fget_enterBeacon_boot (f := GLB_BOOT_A_REASON) _ 1 0 rfl (by decide)).trans (reasonA hslot)
    · intro hslot
      exact (fget_enterBeacon_boot (f := GLB_BOOT_B_REASON) _ 1 0 rfl (by decide)).trans (reasonB hslot)

/-- SLOT_CHECKED of a slot that passes every check (R80). -/
theorem slotChecked_accepts {s : State} {f : SlotFacts} {slot : Nat} {rest : List Nat} (ok : Bool)
    (hphase : s.phase = .loading) (hstarted : s.loader.started = true) (horder : s.loader.order = slot :: rest)
    (hreason : slotReason s.nv.opHash s.nv.revoked (imageRules s f) f = none) :
    ∃ t, exec (.slotChecked f ok) s = .next t ∧ t.phase = .selftest ∧ fget t GLB_BOOT_SLOT = slot % 4 := by
  refine ⟨_, exec_slotChecked_accept ok hphase hstarted horder hreason, setPhase_phase _ _ _ _, ?_⟩
  rw [acceptSlot, fget_congr (rget_setPhase _ _ _ _ (.inr (by decide)))]
  exact fget_fset_same _ GLB_BOOT_SLOT slot (by decide)

/-! ## The end of SELFTEST (R86, R92) -/

theorem bypUpdate_unchanged (s : State) : Unchanged [.regs] s (bypUpdate s) := by
  unfold bypUpdate
  dsimp only
  split
  all_goals
    refine unchanged_trans (fset_unchanged s _ _) (unchanged_foldl (fun b p => ?_) [0, 1] _)
    split
    · exact fset_unchanged b _ _
    · exact unchanged_refl _ b

theorem exec_selftestDone {s : State} (turning : List Nat) (hphase : s.phase = .selftest) :
    exec (.selftestDone [] turning) s = if minSet (mediaUp (sharedUp s) turning) then
      .next (bypUpdate (setPhase (mediaUp (sharedUp s) turning) .discovery)) else
      .next (enterBeacon (mediaUp (sharedUp s) turning) 4) := by
  have harm : exec (.selftestDone [] turning) s = execSelftestDone [] turning s := rfl
  have running : ¬s.phase ≠ .selftest := not_not_intro hphase
  rw [harm, execSelftestDone, if_neg running, List.any_nil, if_neg (by decide), List.foldl_nil, if_neg running]

/-- SELFTEST_DONE with no failed checker and the minimum service set. -/
theorem selftestDone_discovers {s : State} {turning : List Nat} (hphase : s.phase = .selftest)
    (hmin : minSet (mediaUp (sharedUp s) turning) = true) :
    ∃ t, exec (.selftestDone [] turning) s = .next t ∧ t.phase = .discovery :=
  ⟨_, by rw [exec_selftestDone turning hphase, if_pos hmin],
    (bypUpdate_unchanged _ .phase (by decide)).trans (setPhase_phase _ _ _ _)⟩

/-- Without the minimum service set SELFTEST ends in BEACON. -/
theorem selftestDone_beacon {s : State} {turning : List Nat} (hphase : s.phase = .selftest)
    (hmin : minSet (mediaUp (sharedUp s) turning) = false) :
    ∃ t, exec (.selftestDone [] turning) s = .next t ∧ t.phase = .beacon ∧ fget t GLB_BOOT_BEACON_CAUSE = 4 :=
  ⟨_, by rw [exec_selftestDone turning hphase, if_neg (by simp [hmin])], enterBeacon_phase _ _ _,
    fget_enterBeacon_cause _ 4 0⟩

/-- A failed checker of the always-on units or the mask ROM (R86). -/
theorem selftestDone_fatal {s : State} {fails : List CheckerFail} (turning : List Nat) (hphase : s.phase = .selftest)
    (hfatal : fails.any checkerFatal = true) :
    ∃ t, exec (.selftestDone fails turning) s = .next t ∧ t.phase = .beacon ∧ fget t GLB_BOOT_BEACON_CAUSE = 5 ∧
      t.pwr.retired = s.pwr.retired ∧ Unchanged [.phase, .regs, .ports, .dmk] s t := by
  have harm : exec (.selftestDone fails turning) s = execSelftestDone fails turning s := rfl
  have beacon := enterBeacon_unchanged s 5 0
  refine ⟨enterBeacon s 5, ?_, enterBeacon_phase s 5 0, fget_enterBeacon_cause s 5 0, ?_, beacon⟩
  · rw [harm, execSelftestDone, if_neg (not_not_intro hphase), if_pos hfatal]
  · exact congrArg Power.retired (beacon .pwr (by decide))

/-! ## Work that leaves the device state as it is -/

theorem foldl_phase {α : Type} {g : State → α → State} (h : ∀ s x, (g s x).phase = s.phase) (l : List α) (s : State) :
    (l.foldl g s).phase = s.phase := by
  induction l generalizing s with
  | nil => rfl
  | cons x l ih => rw [List.foldl_cons, ih, h]

/-- A report of a corrected source is at most contained (R490), so it is no fatal fault. -/
theorem reportRecord_corrected_phase {s : State} {r : Report} (hcls : r.cls = .corrected) :
    (reportRecord s r).phase = s.phase := by
  obtain ⟨cause, u, signalled, run⟩ := reportRecord_signals s r
  have notFatal : classOf s r ≠ .fatal := by
    unfold classOf
    rw [hcls]
    split <;> decide
  have entered := enterRecord_unchanged s (recWord3 r.src (classOf s r) r.cls r.forced (escalatedFrom s r).isSome
    (conseqOf s r).isSome false) r.data cause
  rw [run, if_neg notFatal]
  exact signalled.phase_eq.trans (entered .phase (by decide))

theorem dmkPush_phase (s : State) (code data : Nat) : (dmkPush s code data).phase = s.phase :=
  dmkPush_unchanged s code data .phase (by decide)

theorem reportMerge_phase (s : State) (src slot : Nat) : (reportMerge s src slot).phase = s.phase := rfl

theorem report_corrected_phase {s : State} {r : Report} (hcls : r.cls = .corrected) : (report s r).phase = s.phase := by
  unfold report
  dsimp only
  split
  case isTrue => rfl
  case isFalse =>
    split
    case h_1 i _ =>
      split
      · exact (dmkPush_phase _ _ _).trans (reportMerge_phase s _ i)
      · exact reportMerge_phase s _ i
    case h_2 => exact reportRecord_corrected_phase ((forcedReport_cls s r).trans hcls)

/-- An event sent to Daymark, the report of its first overflow included (R507). -/
theorem dmkSend_phase (s : State) (code data : Nat) : (dmkSend s code data).phase = s.phase := by
  have overflow (b : State) : (raise b 0xB03).phase = b.phase := report_corrected_phase (s := b)
    (r := { src := 0xB03, cls := .corrected, data := 0 }) rfl
  unfold dmkSend
  split
  · exact dmkPush_phase s code data
  · dsimp only
    split
    · exact dmkPush_phase s code data
    · exact (overflow _).trans (dmkPush_phase s code data)

theorem parkStart_phase (s : State) (a : Nat) : (parkStart s a).phase = s.phase := by
  unfold parkStart
  dsimp only
  split
  · rfl
  · exact dmkSend_phase _ _ _

theorem newEntry_phase (s : State) (code data : Nat) (permOvf : Bool) :
    (newEntry s code data permOvf).2.phase = s.phase := grantStamp_unchanged s .phase (by decide)

theorem modDmk_phase (s : State) (f : Daymark → Daymark) : (modDmk s f).phase = s.phase := rfl

theorem traceEntry_phase (s : State) (e : DmkEntry) : (traceEntry s e).phase = s.phase := by
  unfold traceEntry
  dsimp only
  (repeat' split) <;> rfl

theorem placePerm_phase (s : State) (i : Nat) (e : DmkEntry) : (placePerm s i e).phase = s.phase := rfl

theorem placeCirc_phase (s : State) (e : DmkEntry) : (placeCirc s e).phase = s.phase := rfl

/-- Entries placed in an emptied store. -/
theorem placeEntries_phase (s : State) (f g : Daymark → Daymark) (perm : List (DmkEntry × Nat)) (circ : List DmkEntry) :
    (modDmk (fset (circ.foldl placeCirc (perm.foldl (fun s e => placePerm s e.2 e.1)
      (fset (modDmk s f) DMK_STATUS_PERM_USED 0))) DMK_STATUS_RESTORED 1) g).phase = s.phase :=
  (foldl_phase placeCirc_phase circ _).trans (foldl_phase (fun b e => placePerm_phase b e.2 e.1) perm _)

/-- The merge of Daymark's flash copy, with a note of the first overflow of the permanent area or without (R514). -/
theorem dmkMerge_phase (s : State) : (dmkMerge s).phase = s.phase := by
  unfold dmkMerge
  dsimp only
  split
  · exact placeEntries_phase s _ _ _ _
  · refine (placeEntries_phase _ _ _ _ _).trans ?_
    rw [traceEntry_phase, modDmk_phase, newEntry_phase]

theorem drawPub_phase (s : State) : (drawPub s).phase = s.phase := by
  refine foldl_phase (fun b i => ?_) _ s
  rfl

theorem drawNonce_phase (s : State) : (drawNonce s).phase = s.phase := by
  refine foldl_phase (fun b i => ?_) _ s
  rfl

theorem beginBringup_phase (s : State) : (beginBringup s).phase = .bringup := by
  have parked (b : State) : ((List.range 32).foldl (fun s a =>
      if fget s (srvF SRV_ACT_STATE a) = 1 then parkStart s a else s) b).phase = b.phase := by
    refine foldl_phase (fun b a => ?_) _ b
    split
    · exact parkStart_phase b a
    · rfl
  calc (beginBringup s).phase = (dmkMerge (drawNonce (drawPub (setPhase s .bringup)))).phase := parked _
    _ = .bringup := by rw [dmkMerge_phase, drawNonce_phase, drawPub_phase, setPhase_phase]

/-! ## The end of DISCOVERY (R74, R88, R92) -/

theorem payRecord_phase (s : State) : (payRecord s).phase = s.phase := by
  unfold payRecord
  dsimp only
  split <;> rfl

theorem offRetired_phase (s : State) : (offRetired s).phase = s.phase := by
  refine foldl_phase (fun b u => ?_) _ s
  split <;> rfl

theorem exec_discoveryDone {s : State} (hphase : s.phase = .discovery) (hring : ringReady s = true) :
    exec (.discoveryDone [] []) s = if minSet (offRetired (payRecord s)) then
      .next (beginBringup (offRetired (payRecord s))) else .next (enterBeacon (offRetired (payRecord s)) 4) := by
  have harm : exec (.discoveryDone [] []) s = execDiscoveryDone [] [] s := rfl
  have running : ¬(offRetired (payRecord s)).phase ≠ .discovery := by
    rw [offRetired_phase, payRecord_phase]
    exact not_not_intro hphase
  rw [harm, execDiscoveryDone, if_neg (by simp [hphase, hring]), List.any_nil, if_neg (by decide), List.foldl_nil]
  exact if_neg running

/-- DISCOVERY_DONE with nothing out of tolerance and the minimum service set. -/
theorem discoveryDone_bringsUp {s : State} (hphase : s.phase = .discovery) (hring : ringReady s = true)
    (hmin : minSet (offRetired (payRecord s)) = true) :
    ∃ t, exec (.discoveryDone [] []) s = .next t ∧ t.phase = .bringup :=
  ⟨_, by rw [exec_discoveryDone hphase hring, if_pos hmin], beginBringup_phase _⟩

/-- Without the minimum service set DISCOVERY ends in BEACON. -/
theorem discoveryDone_beacon {s : State} (hphase : s.phase = .discovery) (hring : ringReady s = true)
    (hmin : minSet (offRetired (payRecord s)) = false) :
    ∃ t, exec (.discoveryDone [] []) s = .next t ∧ t.phase = .beacon ∧ fget t GLB_BOOT_BEACON_CAUSE = 4 :=
  ⟨_, by rw [exec_discoveryDone hphase hring, if_neg (by simp [hmin])], enterBeacon_phase _ _ _,
    fget_enterBeacon_cause _ 4 0⟩

/-! ## The end of BRINGUP (R90, R92) -/

/-- The state in which the queues are open and the good record is written, before the device state changes. -/
def serviceReady (s : State) : State :=
  let s := openQueues (goodRecord s)
  { s with loader := { s.loader with stage := 2 } }

/-- BRINGUP's steps 4 and 5. -/
def tenantsRestored (s : State) (bad : List Nat) (n : Nat) : State :=
  recomputeFloors (restoreTenants (modBls (resync s bad n) fun b => { b with restoring := false }))

theorem finishBringup_serves {s : State} {bad : List Nat} {n : Nat} (hmin : minSet (tenantsRestored s bad n) = true) :
    finishBringup s bad n = setPhase (serviceReady (tenantsRestored s bad n))
      (if anyReduction (serviceReady (tenantsRestored s bad n)) then .degraded else .serving) := by
  have complete : ¬(!minSet (tenantsRestored s bad n)) = true := by simp [hmin]
  exact if_neg complete

theorem exec_bringupDone {s : State} (jl bad : List Nat) (n : Nat) (hphase : s.phase = .bringup)
    (hwarm : s.rst.warm = none) (hstage : s.loader.stage = 1) (hended : restoreEnded s = true) :
    exec (.bringupDone jl bad n) s = .next (finishBringup s bad n) := by
  have harm : exec (.bringupDone jl bad n) s = execBringupDone jl bad n s := rfl
  have later : ¬s.loader.stage = 0 := by omega
  rw [harm, execBringupDone, if_neg (by simp [hphase, hwarm]), if_neg later, if_neg (not_not_intro hphase),
    if_pos hended]

theorem openQueues_modes (s : State) : ∀ e ∈ (openQueues s).qps, e.2.mode ≠ 1 := by
  intro e he
  obtain ⟨x, -, rfl⟩ := List.mem_map.mp he
  dsimp only
  split
  case isTrue => exact Nat.succ_ne_self 1
  case isFalse h => exact h

/-- BRINGUP_DONE once the restored slots are destaged. -/
theorem bringupDone_serves {s : State} {bad : List Nat} {n : Nat} (jl : List Nat) (hphase : s.phase = .bringup)
    (hwarm : s.rst.warm = none) (hstage : s.loader.stage = 1) (hended : restoreEnded s = true)
    (hmin : minSet (tenantsRestored s bad n) = true) :
    ∃ t, exec (.bringupDone jl bad n) s = .next t ∧ t.jrn.open_ = true ∧ t.loader.stage = 2 ∧
      t.phase = (if anyReduction t then .degraded else .serving) ∧ (∀ e ∈ t.qps, e.2.mode ≠ 1) := by
  have run := exec_bringupDone jl bad n hphase hwarm hstage hended
  rw [finishBringup_serves hmin] at run
  generalize tenantsRestored s bad n = b at run
  have entered := setPhase_unchanged (serviceReady b)
    (if anyReduction (serviceReady b) then .degraded else .serving) 0 0
  refine ⟨_, run, ?_, ?_, ?_, ?_⟩
  · exact congrArg Journal.open_ (entered .jrn (by decide))
  · exact congrArg Loader.stage (entered .loader (by decide))
  · have reductions (p : Phase) : anyReduction (setPhase (serviceReady b) p) = anyReduction (serviceReady b) := by
      rw [anyReduction, fget_congr (rget_setPhase _ _ _ _ (.inr (by decide))), ← anyReduction]
    rw [setPhase_phase, reductions]
  · have sameQps : (setPhase (serviceReady b) (if anyReduction (serviceReady b) then .degraded else .serving)).qps =
        (openQueues (goodRecord b)).qps := entered .qps (by decide)
    rw [sameQps]
    exact openQueues_modes _

/-! ## The statement -/

/-- Settles O15: one lemma for each command and outcome. -/
theorem bootToService : Obligations.BootToService := by
  unfold Obligations.BootToService
  refine ⟨⟨?_, ?_, ?_, ?_, ?_⟩, ?_, ?_, ?_, ?_, ?_, ?_⟩
  · intro s np so size hphase hfresh
    exact loaderBeacon (exec_loaderStart_fails true np so size hphase hfresh (.inl rfl)) (by decide)
  · intro s np so size hphase hfresh hunfit
    obtain ⟨t, run, beacon, cause, -, nv⟩ :=
      loaderBeacon (exec_loaderStart_fails false np so size hphase hfresh (.inr hunfit)) (by decide)
    exact ⟨t, run, beacon, cause, nv⟩
  · intro s size r nv hphase hfresh hmin hmax hrec happend
    obtain ⟨phase, shown⟩ := recordAppended_shows s size r nv
    exact ⟨_, exec_loaderStart_appends hphase hfresh hmin hmax hrec happend, phase.trans hphase, shown⟩
  · intro s f ok slot r rest hphase hstarted horder htrial hreason hroom
    exact slotChecked_rejects ok hphase hstarted horder htrial hreason hroom
  · intro s f ok slot rest hphase hstarted horder hreason
    exact slotChecked_accepts ok hphase hstarted horder hreason
  · intro s turning hphase hmin
    exact selftestDone_discovers hphase hmin
  · intro s turning hphase hmin
    exact selftestDone_beacon hphase hmin
  · intro s fails turning hphase hfatal
    exact selftestDone_fatal turning hphase hfatal
  · intro s hphase hring hmin
    exact discoveryDone_bringsUp hphase hring hmin
  · intro s hphase hring hmin
    exact discoveryDone_beacon hphase hring hmin
  · intro s jl bad n hphase hwarm hstage hended hmin
    exact bringupDone_serves jl hphase hwarm hstage hended hmin

end Sys2Proof.Laws
end

section
/-!
PROOFS. The statement of 04_host_ports.md on the configuration of functions (R100, R102, R104, R107, R110, R113, R118).
The lemmas in front of it serve every later proof about functions: what a change of one function leaves alone, and what
sending the held messages of a function (`flushPba`) can do.
-/

namespace Sys2Proof.Laws

open Sys2Proof.Machine

/-! ## Functions -/

@[simp] theorem getFn_modFn (s : State) (fid g : Nat) (f : FnState → FnState) :
    getFn (modFn s fid f) g = if g = fid then f (getFn s fid) else getFn s g := tget_tmod _ _ _ _ _

theorem getFn_modFn_same (s : State) (fid : Nat) (f : FnState → FnState) :
    getFn (modFn s fid f) fid = f (getFn s fid) := by
  rw [getFn_modFn, if_pos rfl]

theorem getFn_modFn_other (s : State) {fid g : Nat} (f : FnState → FnState) (h : g ≠ fid) :
    getFn (modFn s fid f) g = getFn s g := by
  rw [getFn_modFn, if_neg h]

theorem setFns_unchanged (s : State) (fs : Tbl FnState) : Unchanged [.fns] s { s with fns := fs } := by
  intro part hpart
  cases part with
  | fns => exact absurd List.mem_cons_self hpart
  | _ => rfl

theorem modFn_unchanged (s : State) (fid : Nat) (f : FnState → FnState) : Unchanged [.fns] s (modFn s fid f) :=
  setFns_unchanged s _

@[simp] theorem getFn_emit (s : State) (o : Out) (fid : Nat) : getFn (emit s o) fid = getFn s fid := rfl

theorem fidPort_fnId (p : Nat) {n : Nat} (hn : n < 1024) : fidPort (fnId p n) = p := by
  unfold fidPort fnId
  omega

/-! ## Held messages (R113) -/

/-- A listed value that differs from the default is an entry of the table. -/
theorem mem_of_tget_ne {α : Type} {d : α} {t : Tbl α} {k : Nat} (h : tget d t k ≠ d) : (k, tget d t k) ∈ t := by
  induction t with
  | nil => exact absurd rfl h
  | cons e t ih =>
    obtain ⟨i, x⟩ := e
    by_cases hk : k = i
    · subst hk
      rw [tget, if_pos rfl]
      exact List.mem_cons_self
    · rw [tget, if_neg hk] at h ⊢
      exact List.mem_cons_of_mem _ (ih h)

/-- One vector's held message goes out where its mask is off. -/
def sendHeld (fid : Nat) (s : State) (e : Nat × MsixVec) : State :=
  if e.2.pending && !e.2.masked then
    emit (modFn s fid fun f => { f with vectors := tset {} f.vectors e.1 { e.2 with pending := false } }) (.msix fid e.1)
  else s

/-- Is every message of the function held back (R110, R113, R114)? -/
def HeldBack (f : FnState) : Prop := (!f.msixEn || f.msixMask || !f.live || 0 < f.teardown) = true

theorem not_heldBack {f : FnState} (hen : f.msixEn = true) (hmask : f.msixMask = false) (hlive : f.live = true)
    (htear : f.teardown = 0) : ¬HeldBack f := by
  simp [HeldBack, hen, hmask, hlive, htear]

theorem flushPba_heldBack {s : State} {fid : Nat} (h : HeldBack (getFn s fid)) : flushPba s fid = s := if_pos h

theorem flushPba_sends {s : State} {fid : Nat} (h : ¬HeldBack (getFn s fid)) :
    flushPba s fid = (getFn s fid).vectors.foldl (sendHeld fid) s := if_neg h

/-- What holds of a state and is kept by each message sent holds when the held messages have gone out. -/
theorem flushPba_induction {motive : State → Prop} {s : State} (fid : Nat) (start : motive s)
    (sent : ∀ t e, motive t → motive (sendHeld fid t e)) : motive (flushPba s fid) := by
  by_cases h : HeldBack (getFn s fid)
  · rw [flushPba_heldBack h]
    exact start
  · rw [flushPba_sends h]
    exact List.foldlRecOn _ _ start fun t ht e _ => sent t e ht

theorem sendHeld_unchanged (fid : Nat) (s : State) (e : Nat × MsixVec) : Unchanged [.fns, .out] s (sendHeld fid s e) := by
  unfold sendHeld
  split
  · exact unchanged_trans (unchanged_mono (modFn_unchanged s _ _) (by decide))
      (unchanged_mono (emit_unchanged _ _) (by decide))
  · exact unchanged_refl _ s

theorem out_sendHeld (fid : Nat) (s : State) (e : Nat × MsixVec) : s.out ⊆ (sendHeld fid s e).out := by
  unfold sendHeld
  split
  · exact List.subset_cons_self _ _
  · exact List.Subset.refl _

/-- Sending a message changes a function's vectors, and of them the pending bit of one whose mask is off. -/
theorem getFn_sendHeld (fid : Nat) (s : State) (e : Nat × MsixVec) :
    getFn (sendHeld fid s e) fid = getFn s fid ∨ e.2.masked = false ∧ getFn (sendHeld fid s e) fid =
      { getFn s fid with vectors := tset {} (getFn s fid).vectors e.1 { e.2 with pending := false } } := by
  unfold sendHeld
  split
  case isTrue h =>
    rw [Bool.and_eq_true, Bool.not_eq_true'] at h
    exact .inr ⟨h.2, (getFn_emit _ _ fid).trans (getFn_modFn_same s fid _)⟩
  case isFalse => exact .inl rfl

theorem getFn_sendHeld_other (s : State) {fid g : Nat} (e : Nat × MsixVec) (h : g ≠ fid) :
    getFn (sendHeld fid s e) g = getFn s g := by
  unfold sendHeld
  split
  · exact (getFn_emit _ _ g).trans (getFn_modFn_other s _ h)
  · rfl

theorem flushPba_unchanged (s : State) (fid : Nat) : Unchanged [.fns, .out] s (flushPba s fid) :=
  flushPba_induction (motive := Unchanged [.fns, .out] s) fid (unchanged_refl _ s) fun t e h =>
    unchanged_trans h (sendHeld_unchanged fid t e)

theorem getFn_flushPba_other (s : State) {fid g : Nat} (h : g ≠ fid) : getFn (flushPba s fid) g = getFn s g :=
  flushPba_induction (motive := fun t => getFn t g = getFn s g) fid rfl fun t e ht =>
    (getFn_sendHeld_other t e h).trans ht

/-- Of the function itself only the vectors change. -/
theorem getFn_flushPba (s : State) (fid : Nat) :
    ∃ vs, getFn (flushPba s fid) fid = { getFn s fid with vectors := vs } := by
  refine flushPba_induction (motive := fun t => ∃ vs, getFn t fid = { getFn s fid with vectors := vs }) fid
    ⟨_, rfl⟩ ?_
  rintro t e ⟨vs, ht⟩
  rcases getFn_sendHeld fid t e with same | ⟨-, sent⟩
  · exact ⟨vs, same.trans ht⟩
  · exact ⟨_, sent.trans (by rw [ht])⟩

/-- A vector whose mask is off stays so. -/
theorem unmasked_flushPba {s : State} {fid vec : Nat} (h : (tget {} (getFn s fid).vectors vec).masked = false) :
    (tget {} (getFn (flushPba s fid) fid).vectors vec).masked = false := by
  refine flushPba_induction (motive := fun t => (tget {} (getFn t fid).vectors vec).masked = false) fid h ?_
  intro t e ht
  rcases getFn_sendHeld fid t e with same | ⟨unmasked, sent⟩
  · rw [same]
    exact ht
  · rw [sent, tget_tset]
    split
    · exact unmasked
    · exact ht

/-- A listed vector with a held message and its mask off sends it. -/
theorem mem_out_sendAll {fid : Nat} {e : Nat × MsixVec} {l : List (Nat × MsixVec)} (s : State) (he : e ∈ l)
    (pending : e.2.pending = true) (unmasked : e.2.masked = false) :
    Out.msix fid e.1 ∈ (l.foldl (sendHeld fid) s).out := by
  obtain ⟨before, after, rfl⟩ := List.append_of_mem he
  rw [List.foldl_append, List.foldl_cons]
  refine List.foldlRecOn (motive := fun t : State => Out.msix fid e.1 ∈ t.out) after _ ?_
    fun t ht x _ => out_sendHeld fid t x ht
  simp [sendHeld, pending, unmasked]

theorem msix_flushPba {s : State} {fid vec : Nat} (free : ¬HeldBack (getFn s fid))
    (pending : (tget {} (getFn s fid).vectors vec).pending = true)
    (unmasked : (tget {} (getFn s fid).vectors vec).masked = false) : Out.msix fid vec ∈ (flushPba s fid).out := by
  have listed : tget ({} : MsixVec) (getFn s fid).vectors vec ≠ {} := fun e => by
    rw [e] at pending
    exact absurd pending (by decide)
  rw [flushPba_sends free]
  exact mem_out_sendAll s (mem_of_tget_ne listed) pending unmasked

/-- A function changed and its held messages sent: functions and outputs are all that changes. -/
theorem modFn_flushPba_unchanged (s : State) (fid : Nat) (f : FnState → FnState) :
    Unchanged [.fns, .out] s (flushPba (modFn s fid f) fid) :=
  unchanged_trans (unchanged_mono (modFn_unchanged s fid f) (by decide)) (flushPba_unchanged _ fid)

/-- Any field but the vectors reads as it was written. -/
theorem field_flushPba {α : Type} (π : FnState → α) (hπ : ∀ f vs, π { f with vectors := vs } = π f) (s : State)
    (fid : Nat) (f : FnState → FnState) : π (getFn (flushPba (modFn s fid f) fid) fid) = π (f (getFn s fid)) := by
  obtain ⟨vs, h⟩ := getFn_flushPba (modFn s fid f) fid
  rw [h, hπ, getFn_modFn_same]

/-! ## Configuration requests (R102, R104, R107, R113, R118) -/

/-- In LOADING a configuration request over a link that is up is answered with retry. -/
theorem exec_configRequest_loading {s : State} {p : Nat} (n : Nat) (op : CfgOp) (hp : p < 6)
    (hlink : fget s (HPT_LINK_DL_UP.ix p 0x1000) = 1) (hphase : s.phase = .loading) :
    exec (.configRequest p n op) s = .next (emit s (.cfgRetry (fnId p n))) := by
  have harm : exec (.configRequest p n op) s = execConfigRequest p n op s := rfl
  have hreached : ¬6 ≤ p := Nat.not_le.mpr hp
  rw [harm]
  simp [execConfigRequest, hreached, hlink, hphase]

/-- A request for a function that does not exist is an Unsupported Request. -/
theorem exec_configRequest_absent {s : State} {p n : Nat} (op : CfgOp) (hp : p < 6)
    (hlink : fget s (HPT_LINK_DL_UP.ix p 0x1000) = 1) (hphase : s.phase ≠ .loading)
    (hreset : (getPort s p).inReset = false) (htear : n = 0 ∨ (getFn s (fnId p n)).teardown = 0)
    (hfn : fnExists s (fnId p n) = false) :
    exec (.configRequest p n op) s = .next (emit s (.unsupported (fnId p n))) := by
  have harm : exec (.configRequest p n op) s = execConfigRequest p n op s := rfl
  have hreached : ¬6 ≤ p := Nat.not_le.mpr hp
  have hnoRetry : ¬(0 < n ∧ 0 < (getFn s (fnId p n)).teardown) := by omega
  rw [harm]
  simp [execConfigRequest, hreached, hlink, hphase, hreset, hnoRetry, hfn]

theorem identity_eq (n : Nat) : identity n = if n = 0 then 0x1284D1A7 else 0x1285D1A7 := by
  unfold identity
  split <;> rfl

theorem configAct_identity (s : State) (p : Nat) {n : Nat} (hn : n < 1024) : configAct s (fnId p n) .readId =
    emit s (.cfgData (fnId p n) (if n = 0 then 0x1284D1A7 else 0x1285D1A7)) := by
  rw [configAct_readId, fidVf_fnId p n hn, identity_eq]

theorem configAct_readTotalVfs (s : State) (p : Nat) : configAct s (fnId p 0) .readTotalVfs =
    emit s (.cfgData (fnId p 0) (8 * fget s (HPT_FUNCS_VF_BLOCKS.ix p 0x1000))) := by
  have act : configAct s (fnId p 0) .readTotalVfs = emit s (.cfgData (fnId p 0)
      (if fidVf (fnId p 0) = 0 then 8 * fget s (HPT_FUNCS_VF_BLOCKS.ix (fidPort (fnId p 0)) 0x1000) else 0)) := rfl
  rw [act, fidVf_fnId p 0 (by decide), if_pos rfl, fidPort_fnId p (by decide)]

theorem configAct_readNumVfs (s : State) (p : Nat) {n : Nat} (hn : n < 1024) : configAct s (fnId p n) .readNumVfs =
    emit s (.cfgData (fnId p n) (if n = 0 then (getFn s (fnId p n)).numVfs else 0)) := by
  have act : configAct s (fnId p n) .readNumVfs = emit s (.cfgData (fnId p n)
      (if fidVf (fnId p n) = 0 then (getFn s (fnId p n)).numVfs else 0)) := rfl
  rw [act, fidVf_fnId p n hn]

theorem configAct_writeMsixEnable (s : State) (fid : Nat) (on : Bool) :
    configAct s fid (.writeMsixEnable on) = flushPba (modFn s fid fun f => { f with msixEn := on }) fid := rfl

/-- VF Enable of a PF is taken while no teardown of its port runs. -/
theorem configAct_writeVfEnable {s : State} {p : Nat} (htear : (getFn s (fnId p 0)).teardown = 0)
    (hport : portTearing s p = false) :
    configAct s (fnId p 0) (.writeVfEnable true) = modFn s (fnId p 0) fun f => { f with vfEnable := true } := by
  have hvf : fidVf (fnId p 0) = 0 := fidVf_fnId p 0 (by decide)
  have hfid : fidPort (fnId p 0) = p := fidPort_fnId p (by decide)
  simp [configAct, hvf, hfid, htear, hport]

/-- An answer with one output. -/
theorem answers_emit {i : Instr} {s : State} {o : Out} (run : exec i s = .next (emit s o)) :
    ∃ t, exec i s = .next t ∧ t.out = o :: s.out ∧ Unchanged [.out] s t :=
  ⟨_, run, rfl, emit_unchanged s o⟩

/-! ## Commands on functions -/

/-- NUMVFS_WRITE within TotalVFs while VF Enable is 0 (R104). -/
theorem numvfsWrite_taken {s : State} {p v : Nat} (hfn : fnExists s (fnId p 0) = true)
    (hoff : (getFn s (fnId p 0)).vfEnable = false) (hv : v ≤ 8 * fget s (HPT_FUNCS_VF_BLOCKS.ix p 0x1000)) :
    ∃ t, exec (.numvfsWrite p v) s = .next t ∧ (getFn t (fnId p 0)).numVfs = v ∧
      (∀ f, f ≠ fnId p 0 → getFn t f = getFn s f) ∧ Unchanged [.fns] s t := by
  have run : exec (.numvfsWrite p v) s = .next (modFn s (fnId p 0) fun f => { f with numVfs := v }) := by
    have harm : exec (.numvfsWrite p v) s = execNumvfsWrite p v s := rfl
    rw [harm]
    simp [execNumvfsWrite, hfn, hoff, hv]
  refine ⟨_, run, ?_, fun f hf => getFn_modFn_other s _ hf, modFn_unchanged s _ _⟩
  rw [getFn_modFn_same]

theorem exec_busMasterEnableWrite {s : State} {p n : Nat} (on : Bool) (hfn : fnExists s (fnId p n) = true) :
    exec (.busMasterEnableWrite p n on) s =
      if 0 < (getFn s (fnId p n)).teardown then .next (modFn s (fnId p n) fun f => { f with latchBme := some on })
      else .next (flushPba (modFn s (fnId p n) fun f => { f with bme := on }) (fnId p n)) := by
  have harm : exec (.busMasterEnableWrite p n on) s = execBusMasterEnableWrite p n on s := rfl
  rw [harm]
  simp [execBusMasterEnableWrite, hfn]

/-- Bus Master Enable outside a teardown (R110). -/
theorem busMasterEnableWrite_taken {s : State} {p n : Nat} (on : Bool) (hfn : fnExists s (fnId p n) = true)
    (htear : (getFn s (fnId p n)).teardown = 0) :
    ∃ t, exec (.busMasterEnableWrite p n on) s = .next t ∧ (getFn t (fnId p n)).bme = on ∧
      (∀ f, f ≠ fnId p n → getFn t f = getFn s f) ∧ Unchanged [.fns, .out] s t := by
  have run := exec_busMasterEnableWrite on hfn
  rw [if_neg (Nat.not_lt.mpr (Nat.le_of_eq htear))] at run
  exact ⟨_, run, field_flushPba FnState.bme (fun _ _ => rfl) s _ _,
    fun f hf => (getFn_flushPba_other _ hf).trans (getFn_modFn_other s _ hf), modFn_flushPba_unchanged s _ _⟩

/-- Bus Master Enable during a teardown is latched (R118). -/
theorem busMasterEnableWrite_latched {s : State} {p n : Nat} (on : Bool) (hfn : fnExists s (fnId p n) = true)
    (htear : 0 < (getFn s (fnId p n)).teardown) :
    ∃ t, exec (.busMasterEnableWrite p n on) s = .next t ∧ (getFn t (fnId p n)).latchBme = some on ∧
      (getFn t (fnId p n)).bme = (getFn s (fnId p n)).bme ∧ Unchanged [.fns] s t := by
  have run := exec_busMasterEnableWrite on hfn
  rw [if_pos htear] at run
  refine ⟨_, run, ?_, ?_, modFn_unchanged s _ _⟩
  · rw [getFn_modFn_same]
  · rw [getFn_modFn_same]

/-- The D-state (R100). -/
theorem dstateChange_taken {s : State} {p n : Nat} (d3 : Bool) (hfn : fnExists s (fnId p n) = true) :
    ∃ t, exec (.dstateChange p n d3) s = .next t ∧ (getFn t (fnId p n)).d3 = d3 ∧ Unchanged [.fns, .out] s t := by
  have run : exec (.dstateChange p n d3) s =
      .next (flushPba (modFn s (fnId p n) fun f => { f with d3 := d3 }) (fnId p n)) := by
    have harm : exec (.dstateChange p n d3) s = execDstateChange p n d3 s := rfl
    rw [harm]
    simp [execDstateChange, hfn]
  exact ⟨_, run, field_flushPba FnState.d3 (fun _ _ => rfl) s _ _, modFn_flushPba_unchanged s _ _⟩

/-- A function with a vector's mask off. -/
def unmask (vec : Nat) (f : FnState) : FnState :=
  { f with vectors := tmod {} f.vectors vec fun v => { v with masked := false } }

theorem vector_unmask (vec : Nat) (f : FnState) :
    tget {} (unmask vec f).vectors vec = { tget {} f.vectors vec with masked := false } := by
  rw [unmask, tget_tmod, if_pos rfl]

/-- MSIX_UNMASK ends the vector's mask and sends a held message where the function may send (R113). -/
theorem msixUnmask_sends {s : State} {p n vec : Nat} (hfn : fnExists s (fnId p n) = true)
    (hvec : vec < (if n = 0 then 64 else 8)) :
    ∃ t, exec (.msixUnmask p n vec) s = .next t ∧ (tget {} (getFn t (fnId p n)).vectors vec).masked = false ∧
      ((tget {} (getFn s (fnId p n)).vectors vec).pending = true → (getFn s (fnId p n)).msixEn = true →
        (getFn s (fnId p n)).msixMask = false → (getFn s (fnId p n)).live = true → (getFn s (fnId p n)).teardown = 0 →
        Out.msix (fnId p n) vec ∈ t.out) ∧ Unchanged [.fns, .out] s t := by
  have run : exec (.msixUnmask p n vec) s = .next (flushPba (modFn s (fnId p n) (unmask vec)) (fnId p n)) := by
    have harm : exec (.msixUnmask p n vec) s = execMsixUnmask p n vec s := rfl
    have guard : (fnExists s (fnId p n) && decide (vec < (if n = 0 then 64 else 8))) = true := by
      rw [hfn, decide_eq_true hvec, Bool.and_true]
    rw [harm]
    exact if_pos guard
  have changed := getFn_modFn_same s (fnId p n) (unmask vec)
  have unmasked : (tget {} (getFn (modFn s (fnId p n) (unmask vec)) (fnId p n)).vectors vec).masked = false := by
    rw [changed, vector_unmask]
  refine ⟨_, run, unmasked_flushPba unmasked, ?_, modFn_flushPba_unchanged s _ _⟩
  intro hpending hen hmask hlive htear
  have free : ¬HeldBack (unmask vec (getFn s (fnId p n))) := not_heldBack (f := unmask vec _) hen hmask hlive htear
  refine msix_flushPba (changed ▸ free) ?_ unmasked
  rw [changed, vector_unmask]
  exact hpending

/-! ## The statement -/

/-- Settles O19: each answer to a configuration request by its case, then one lemma for each of the other commands. -/
theorem functionConfiguration : Obligations.FunctionConfiguration := by
  unfold Obligations.FunctionConfiguration
  refine ⟨?_, ?_, ?_, ?_, ?_, ?_, ?_⟩
  · intro s p n op hp hlink hphase
    exact answers_emit (exec_configRequest_loading n op hp hlink hphase)
  · intro s p n hp hn hlink hphase hreset htear
    constructor
    · intro habsent op
      exact answers_emit (exec_configRequest_absent op hp hlink hphase hreset htear habsent)
    · intro hfn
      have answered (op : CfgOp) := exec_configRequest_answered op hp hlink hphase hreset htear hfn
      refine ⟨?_, ?_, ?_, ?_, ?_⟩
      · exact answers_emit ((answered .readId).trans (congrArg _ (configAct_identity s p hn)))
      · rintro rfl
        exact answers_emit ((answered .readTotalVfs).trans (congrArg _ (configAct_readTotalVfs s p)))
      · exact answers_emit ((answered .readNumVfs).trans (congrArg _ (configAct_readNumVfs s p hn)))
      · have run := answered (.writeMsixEnable true)
        rw [configAct_writeMsixEnable] at run
        exact ⟨_, run, field_flushPba FnState.msixEn (fun _ _ => rfl) s _ _, modFn_flushPba_unchanged s _ _⟩
      · rintro rfl hidle hport
        have run := answered (.writeVfEnable true)
        rw [configAct_writeVfEnable hidle hport] at run
        refine ⟨_, run, ?_, modFn_unchanged s _ _⟩
        rw [getFn_modFn_same]
  · intro s p v hfn hoff hv
    exact numvfsWrite_taken hfn hoff hv
  · intro s p n on hfn htear
    exact busMasterEnableWrite_taken on hfn htear
  · intro s p n on hfn htear
    exact busMasterEnableWrite_latched on hfn htear
  · intro s p n d3 hfn
    exact dstateChange_taken d3 hfn
  · intro s p n vec hfn hvec
    exact msixUnmask_sends hfn hvec

end Sys2Proof.Laws
end

section
/-!
PROOFS. The statement of 04_host_ports.md on teardowns (R114 to R118) fails in its clause on a VF FLR: the teardown aborts
Hod's transfers of the VF (R458), and the end of one on a channel that the control PF has claimed is notified to the control
PF (R453). A message of a masked vector is held in the control PF's PBA (R113), so another function changes.
-/

namespace Sys2Proof.Laws

open Sys2Proof.Machine

/-- VF_FLR of a VF that exists. -/
theorem exec_vfFlr {s : State} {p n : Nat} (hn : 0 < n) (hfn : fnExists s (fnId p n) = true) :
    exec (.vfFlr p n) s = .next (teardownFn s (fnId p n)) := by
  have harm : exec (.vfFlr p n) s = execVfFlr p n s := rfl
  rw [harm]
  simp [execVfFlr, hn, hfn]

/-- Hod channel 0 is claimed by the control PF, the PF of port 0, and holds a paused transfer from host memory for VF 1 of
that port, with NOTIFY set and vector 1. The control PF has MSI-X enabled, and vector 1 is masked as it is at reset. -/
def pausedHostTransfer : State :=
  { State.reset with
    phase := .serving
    regs := [(HPT_FUNCS_PRESENT.off, 0x20000), (HOD_STAT_PAUSED.off, 0x8), (HOD_OWN_CLAIM.off, 0x10001)]
    fns := [(fnId 0 0, { bme := true, msixEn := true, vfEnable := true, numVfs := 1 })]
    hod := { chans := [(0, { running := true, act := { cfg0 := 2 + 1024 * 1, cfg1 := 32 } })] } }

/-- The VF stands in service, and the transfer is one its teardown aborts. -/
theorem pausedHostTransfer_serves :
    fnExists pausedHostTransfer (fnId 0 1) = true ∧ (getFn pausedHostTransfer (fnId 0 1)).teardown = 0 ∧
      ctlFid pausedHostTransfer = fnId 0 0 ∧ (getHod pausedHostTransfer 0).act.outside = true ∧
      (getHod pausedHostTransfer 0).act.fid = fnId 0 1 := by decide +kernel

/-- The teardown leaves a message held for vector 1 of the control PF, where none was held. -/
theorem teardown_holdsNotice :
    (tget {} (getFn pausedHostTransfer (fnId 0 0)).vectors 1).pending = false ∧
      (tget {} (getFn (teardownFn pausedHostTransfer (fnId 0 1)) (fnId 0 0)).vectors 1).pending = true := by
  decide +kernel

/-- Refutes O18: in `pausedHostTransfer` a VF FLR of VF 1 of port 0 changes the control PF, whose PBA takes the notice of the
aborted transfer; the statement says that no other function changes. -/
theorem not_teardownAndHostCompletions : ¬ Obligations.TeardownAndHostCompletions := by
  unfold Obligations.TeardownAndHostCompletions
  rintro ⟨⟨vfFlr, -⟩, -⟩
  obtain ⟨exists_, idle, -⟩ := pausedHostTransfer_serves
  obtain ⟨t, run, -, -, -, -, others, -⟩ := vfFlr pausedHostTransfer 0 1 (by decide) (by decide) exists_ idle
  have reached : teardownFn pausedHostTransfer (fnId 0 1) = t :=
    Host.Outcome.next.inj ((exec_vfFlr (by decide) exists_).symm.trans run)
  obtain ⟨before, after⟩ := teardown_holdsNotice
  rw [reached, others (fnId 0 0) (by decide), before] at after
  exact Bool.false_ne_true after

end Sys2Proof.Laws
end

section
/-!
PROOFS. The statement of 04_host_ports.md on FLUSH (R141) and PUSH (R122, R123, R144, R156). The lemmas in front of it
serve every later proof about commands in flight: what a command reads after it was stored or ended, what a read of a range
answers, and that a report only adds to what was sent out.
-/

namespace Sys2Proof.Laws

open Sys2Proof.Machine

/-! ## Commands in flight -/

/-- Looking up a key after a listed value was stored. -/
theorem find_tset {α : Type} [DecidableEq α] {d v : α} (hv : v ≠ d) (t : Tbl α) (n m : Nat) :
    ((tset d t n v).find? (·.1 == m)).map (·.2) = if m = n then some v else (t.find? (·.1 == m)).map (·.2) := by
  have found (k : Nat) (x : α) (l : Tbl α) : (((k, x) :: l).find? (·.1 == m)).map (·.2) =
      if m = k then some x else (l.find? (·.1 == m)).map (·.2) := by
    rw [List.find?_cons]
    by_cases h : m = k
    · simp [h]
    · rw [if_neg h, beq_eq_false_iff_ne.mpr (Ne.symm h)]
  induction t with
  | nil => rw [tset, if_neg hv, found]
  | cons e t ih =>
    obtain ⟨k, x⟩ := e
    rw [tset, if_neg hv, if_neg hv]
    split
    case isTrue hk =>
      subst hk
      rw [found, found]
      split <;> rfl
    case isFalse hk =>
      split
      · rw [found]
      · rw [found, found, ih]
        by_cases hm : m = n
        · rw [if_pos hm, if_pos hm, if_neg (hm ▸ hk)]
        · rw [if_neg hm, if_neg hm]

/-- A stored command reads back, and every other one reads as before. -/
theorem getCmd_putCmd (s : State) (n m : Nat) {c : Cmd} (hc : c ≠ noCmd) :
    getCmd (putCmd s n c) m = if m = n then some c else getCmd s m := find_tset hc s.cmds n m

theorem getCmd_congr {s t : State} (h : t.cmds = s.cmds) (n : Nat) : getCmd t n = getCmd s n := by
  rw [getCmd, getCmd, h]

theorem setCmds_unchanged (s : State) (cs : Tbl Cmd) : Unchanged [.cmds] s { s with cmds := cs } := by
  intro part hpart
  cases part with
  | cmds => exact absurd List.mem_cons_self hpart
  | _ => rfl

theorem putCmd_unchanged (s : State) (n : Nat) (c : Cmd) : Unchanged [.cmds] s (putCmd s n c) := setCmds_unchanged s _

/-- A command in flight that has not ended ends with a status and a result. -/
theorem setDone_unended {s : State} {n : Nat} {c : Cmd} (hcmd : getCmd s n = some c) (hgoes : c.done = none)
    (status : Nat) (result : Option Nat) : setDone s n status result =
      putCmd s n { c with done := some status, result := result.getD (n % 2 ^ 32) } := by
  simp [setDone, hcmd, hgoes]

theorem getCmd_setDone {s : State} {n : Nat} {c : Cmd} (hcmd : getCmd s n = some c) (hgoes : c.done = none)
    (status : Nat) (result : Option Nat) : getCmd (setDone s n status result) n =
      some { c with done := some status, result := result.getD (n % 2 ^ 32) } := by
  have ended : { c with done := some status, result := result.getD (n % 2 ^ 32) } ≠ noCmd := fun e =>
    Option.some_ne_none status (congrArg Cmd.done e)
  rw [setDone_unended hcmd hgoes, getCmd_putCmd s n n ended, if_pos rfl]

theorem setDone_unchanged (s : State) (n status : Nat) (result : Option Nat) :
    Unchanged [.cmds] s (setDone s n status result) := by
  unfold setDone
  split
  · exact unchanged_refl _ s
  · split
    · exact unchanged_refl _ s
    · exact putCmd_unchanged s n _

/-- A running command is in flight and has not ended. -/
theorem running_inFlight {s : State} {n opc : Nat} {c : Cmd} (h : running s n opc = some c) :
    getCmd s n = some c ∧ c.done = none := by
  unfold running at h
  split at h
  case h_1 => cases h
  case h_2 d hcmd =>
    split at h
    case isTrue hruns =>
      cases h
      simp only [Bool.and_eq_true, Option.isNone_iff_eq_none] at hruns
      obtain ⟨⟨⟨-, hgoes⟩, -⟩, -⟩ := hruns
      exact ⟨hcmd, hgoes⟩
    case isFalse => cases h

/-! ## FLUSH (R141) -/

theorem setUdc_unchanged (s : State) (u : Undercoat) : Unchanged [.udc] s { s with udc := u } := by
  intro part hpart
  cases part with
  | udc => exact absurd List.mem_cons_self hpart
  | _ => rfl

theorem sealConcerned_unchanged (s : State) (t n : Nat) (all : Bool) : Unchanged [.udc] s (sealConcerned s t n all) :=
  setUdc_unchanged s _

/-- After the seal an open stripe that holds data of the namespaces concerned is full. -/
theorem full_sealConcerned {s : State} {t n : Nat} {all : Bool} {o : OpenStripe}
    (ho : o ∈ (sealConcerned s t n all).udc.open_)
    (holds : (o.parts.any fun p => concerned t n all p.id.tenant p.id.ns) = true) : o.full = true := by
  obtain ⟨o', -, rfl⟩ := List.mem_map.mp ho
  split
  case isTrue => rfl
  case isFalse untouched => exact absurd ((if_neg untouched ▸ holds :)) untouched

/-- What is pending for a FLUSH does not depend on the open stripes. -/
theorem flushPending_sealConcerned (s : State) (t n : Nat) (all : Bool) (seq : Nat) :
    flushPending (sealConcerned s t n all) t n all seq = flushPending s t n all seq := rfl

theorem exec_flush {s : State} {n : Nat} {c : Cmd} (h : running s n 0 = some c) :
    exec (.flush n) s = .next (if flushPending s c.tenant c.sqe.nsid (c.sqe.cdw % 2 == 1) n
      then sealConcerned s c.tenant c.sqe.nsid (c.sqe.cdw % 2 == 1)
      else setDone (sealConcerned s c.tenant c.sqe.nsid (c.sqe.cdw % 2 == 1)) n 0) := by
  have harm : exec (.flush n) s = execFlush n s := rfl
  rw [harm, execFlush, h]
  rfl

theorem flush_seals {s : State} {n : Nat} {c : Cmd} (h : running s n 0 = some c) :
    ∃ t, exec (.flush n) s = .next t ∧
      t.udc = (sealConcerned s c.tenant c.sqe.nsid (c.sqe.cdw % 2 == 1)).udc ∧
      (∀ o ∈ t.udc.open_,
        (o.parts.any fun p => concerned c.tenant c.sqe.nsid (c.sqe.cdw % 2 == 1) p.id.tenant p.id.ns) = true →
        o.full = true) ∧
      (flushPending s c.tenant c.sqe.nsid (c.sqe.cdw % 2 == 1) n = false →
        getCmd t n = some { c with done := some 0, result := n % 2 ^ 32 }) ∧
      (flushPending s c.tenant c.sqe.nsid (c.sqe.cdw % 2 == 1) n = true → t.cmds = s.cmds) ∧
      Unchanged [.udc, .cmds] s t := by
  obtain ⟨hcmd, hgoes⟩ := running_inFlight h
  have run := exec_flush h
  generalize (c.sqe.cdw % 2 == 1) = all at run ⊢
  have seals : Unchanged [.udc, .cmds] s (sealConcerned s c.tenant c.sqe.nsid all) :=
    unchanged_mono (sealConcerned_unchanged s _ _ _) (by decide)
  cases hpending : flushPending s c.tenant c.sqe.nsid all n with
  | true =>
    rw [hpending, if_pos rfl] at run
    exact ⟨_, run, rfl, fun o ho => full_sealConcerned ho, nofun, fun _ => rfl, seals⟩
  | false =>
    rw [hpending, if_neg Bool.false_ne_true] at run
    have ends := setDone_unchanged (sealConcerned s c.tenant c.sqe.nsid all) n 0 none
    have udc : (setDone (sealConcerned s c.tenant c.sqe.nsid all) n 0).udc =
      (sealConcerned s c.tenant c.sqe.nsid all).udc := ends .udc (by decide)
    refine ⟨_, run, udc, fun o ho => full_sealConcerned (udc ▸ ho), fun _ => ?_, nofun,
      unchanged_trans seals (unchanged_mono ends (by decide))⟩
    exact getCmd_setDone (s := sealConcerned s c.tenant c.sqe.nsid all) hcmd hgoes 0 none

/-! ## Reads of a range (R257 to R260) -/

/-- A unit that cannot be read names its status (R260, R273). -/
theorem readUnit_error (s : State) (disk : Bool) (seg k u : Nat) (m : Missing) : readUnit s disk seg k u m ≠ .error 0 := by
  unfold readUnit
  dsimp only
  split
  · nofun
  · split <;> nofun

theorem mediaBlock_error (s : State) (e : GranEntry) (b : Nat) (m : Missing) : mediaBlock s e b m ≠ .error 0 := by
  unfold mediaBlock
  dsimp only
  split
  · have unit := readUnit_error s (e.slot == 1) e.seg e.stripe (e.unit + b) m
    generalize readUnit s (e.slot == 1) e.seg e.stripe (e.unit + b) m = r at unit
    cases r with
    | ok v => nofun
    | error x => exact fun hx => unit (congrArg Except.error (Except.error.inj hx))
  · split
    case h_1 x hx =>
      intro e
      have units := hx.trans e
      revert units
      refine List.foldlRecOn (motive := fun acc : ReadResult => acc ≠ .error 0) _ _ nofun fun acc hacc i _ => ?_
      cases acc with
      | error x => exact hacc
      | ok _ => exact readUnit_error _ _ _ _ _ _
    case h_2 => nofun

theorem entryBlock_error (fuel : Nat) (s : State) (e : GranEntry) (b : Nat) (m : Missing) :
    entryBlock fuel s e b m ≠ .error 0 := by
  induction fuel generalizing e with
  | zero => nofun
  | succ fuel ih =>
    unfold entryBlock
    split
    · nofun
    · nofun
    · dsimp only
      split
      · nofun
      · exact ih _
    · exact mediaBlock_error s e b m

/-- A range that reads with status 0 reads every block. -/
theorem readSpan_ok {s : State} {t n pool slba count : Nat} {bad : List BadBlock}
    (h : spanStatus (readSpan s t n pool slba count bad) = 0) :
    ∀ r ∈ readSpan s t n pool slba count bad, ∃ v, r = .ok v := by
  have named : ∀ r ∈ readSpan s t n pool slba count bad, r ≠ .error 0 := by
    intro r hr
    obtain ⟨i, -, rfl⟩ := List.mem_map.mp hr
    exact entryBlock_error _ _ _ _ _
  generalize readSpan s t n pool slba count bad = rs at h named
  induction rs with
  | nil => exact fun r hr => absurd hr List.not_mem_nil
  | cons r rs ih =>
    cases r with
    | error e => exact absurd (congrArg Except.error h) (named _ List.mem_cons_self)
    | ok v => exact List.forall_mem_cons.mpr ⟨⟨v, rfl⟩, ih h fun r hr => named r (List.mem_cons_of_mem _ hr)⟩

/-- A range whose every block reads marks no granule LOST. -/
theorem markSpan_ok (s : State) (c : Cmd) (ns : NsRec) (slba : Nat) {rs : List ReadResult}
    (h : ∀ r ∈ rs, ∃ v, r = .ok v) : markSpan s c ns slba rs = s := by
  refine List.foldlRecOn (motive := fun t => t = s) _ _ rfl ?_
  rintro t ht ⟨r, i⟩ hr
  obtain ⟨v, rfl⟩ := h r (List.fst_mem_of_mem_zipIdx hr)
  exact ht

/-! ## What was sent out stays sent out -/

/-- From `s` to `t` nothing that was sent out is taken back. -/
structure OutGrows (s t : State) : Prop where
  kept : s.out ⊆ t.out

namespace OutGrows

variable {s t u : State}

theorem refl (s : State) : OutGrows s s := ⟨List.Subset.refl _⟩

theorem after_same (h : OutGrows s t) (same : u.out = t.out) : OutGrows s u := ⟨same ▸ h.kept⟩

theorem after_emit (h : OutGrows s t) (o : Out) : OutGrows s (emit t o) := ⟨fun _ ho => List.mem_cons_of_mem _ (h.kept ho)⟩

theorem after_rset (h : OutGrows s t) (k : Nat) (v : Word) : OutGrows s (rset t k v) := ⟨h.kept⟩

theorem after_fset (h : OutGrows s t) (f : Fld) (x : Nat) : OutGrows s (fset t f x) := h.after_rset _ _

theorem after_fsetBit (h : OutGrows s t) (f : Fld) (i : Nat) (b : Bool) : OutGrows s (fsetBit t f i b) := h.after_rset _ _

theorem after_modKpr (h : OutGrows s t) (f : Keeper → Keeper) : OutGrows s (modKpr t f) := ⟨h.kept⟩

theorem after_modFn (h : OutGrows s t) (fid : Nat) (f : FnState → FnState) : OutGrows s (modFn t fid f) := ⟨h.kept⟩

theorem after_modGroup (h : OutGrows s t) (g : Nat) (f : GroupEntry → GroupEntry) : OutGrows s (modGroup t g f) :=
  h.after_modKpr _

theorem after_setDmk (h : OutGrows s t) (d : Daymark) : OutGrows s { t with dmk := d } := ⟨h.kept⟩

theorem after_countSource (h : OutGrows s t) (src : Nat) : OutGrows s (countSource t src) := h.after_modKpr _

theorem after_ite {c : Prop} [Decidable c] {a b : State} (ha : OutGrows s a) (hb : OutGrows s b) :
    OutGrows s (if c then a else b) := by
  split <;> assumption

theorem after_msixSend (h : OutGrows s t) (fid vec : Nat) : OutGrows s (msixSend t fid vec) :=
  after_ite h (after_ite (h.after_modFn _ _) (h.after_emit _))

theorem after_aerReport (h : OutGrows s t) (fid kind : Nat) : OutGrows s (aerReport t fid kind) :=
  (h.after_modFn _ _).after_emit _

theorem after_dmkPush (h : OutGrows s t) (code data : Nat) : OutGrows s (dmkPush t code data) :=
  h.after_same (dmkPush_unchanged t code data .out (by decide))

theorem after_keeperCause (h : OutGrows s t) (k : Nat) : OutGrows s (keeperCause t k) :=
  have latched := (h.after_fsetBit KPR_IRQ_STAT_CAUSE k true).after_fsetBit KPR_MGT_STAT_CAUSE k true
  after_ite (latched.after_msixSend _ _) latched

theorem after_closeRecord (h : OutGrows s t) (rseq : Nat) : OutGrows s (closeRecord t rseq) := by
  unfold closeRecord
  split
  · exact h
  · exact after_ite h ((h.after_fset _ _).after_fset _ _)

theorem after_enterRecord (h : OutGrows s t) (word3 data : Nat) (cause : Option Nat) :
    OutGrows s (enterRecord t word3 data cause).2 := by
  unfold enterRecord
  dsimp -zeta -zetaHave only
  extract_lets rseq placed word w0 w1 w2 w3 w4 w5 w6 w7 listed counted
  have stamped : OutGrows s (grantStamp t).2 := h.after_same (grantStamp_unchanged t .out (by decide))
  have placed' : OutGrows s placed :=
    after_ite (((stamped.after_fset KPR_STATUS_HIST_OVF 1).after_dmkPush _ _).after_keeperCause 5) stamped
  have half : OutGrows s w3 := (((placed'.after_rset _ _).after_rset _ _).after_rset _ _).after_rset _ _
  have whole : OutGrows s w7 := (((half.after_rset _ _).after_rset _ _).after_rset _ _).after_rset _ _
  exact ((whole.after_modKpr _).after_fset _ _).after_fset _ _

theorem after_openEntry (h : OutGrows s t) (src rseq : Nat) (cls : Cls) : OutGrows s (openEntry t src rseq cls) := by
  cases cls with
  | corrected =>
    refine after_ite (h.after_closeRecord _) (after_modGroup ?_ _ _)
    split
    · exact h.after_closeRecord _
    · exact h
  | contained =>
    refine after_modGroup ?_ _ _
    split
    · exact h.after_closeRecord _
    · exact h
  | fatal => exact h

theorem after_fogOnRecord (h : OutGrows s t) (cls : Cls) : OutGrows s (fogOnRecord t cls) := by
  cases cls with
  | corrected => exact h
  | contained =>
    have pulsed := h.after_modKpr fun k => { k with pulse := true }
    exact after_ite (pulsed.after_fset _ _) pulsed
  | fatal => exact h.after_modKpr fun k => { k with pulse := true, locked := true }

theorem after_signalClass (h : OutGrows s t) (src : Nat) (cls : Cls) : OutGrows s (signalClass t src cls) := by
  cases cls with
  | corrected => exact h.after_keeperCause 0
  | contained => exact (after_ite (h.after_aerReport _ _) (h.after_aerReport _ _)).after_keeperCause 1
  | fatal => exact h.after_keeperCause 2

theorem after_safeDecide (h : OutGrows s t) (src : Nat) (direct : Bool) : OutGrows s (safeDecide t src direct) := by
  have entered : OutGrows s (setPhase t .safe src 0) := h.after_same (setPhase_unchanged t _ _ _ .out (by decide))
  have cleared := ((entered.after_fset KPR_SAFE_QUEUES_DONE 0).after_fset KPR_SAFE_HEADS_DONE 0).after_fset
    KPR_SAFE_FLUSH_DONE 0
  have shown := ((cleared.after_fset KPR_SAFE_VALID 1).after_fset KPR_SAFE_DIRECT (b2n direct)).after_fset
    KPR_SAFE_SOURCE src
  exact ((shown.after_dmkPush _ _).after_modKpr _).after_keeperCause 2

theorem after_fatalFault (h : OutGrows s t) (src : Nat) (direct : Bool) : OutGrows s (fatalFault t src direct) := by
  unfold fatalFault
  refine after_ite h ?_
  cases t.phase with
  | loading | selftest | discovery | bringup | serving | degraded => exact h.after_safeDecide src direct
  | ballast => exact h.after_modKpr _
  | off | safe | beacon => exact h

theorem after_reportRecord (h : OutGrows s t) (r : Report) : OutGrows s (reportRecord t r) := by
  unfold reportRecord
  dsimp -zeta -zetaHave only
  extract_lets from? conseq? cls region opens listed counted fenced opened fogged signalled escalated final
  have entered := h.after_enterRecord (recWord3 r.src cls r.cls r.forced from?.isSome conseq?.isSome false) r.data
    (from? <|> conseq?)
  have counted' : OutGrows s counted := (entered.after_modKpr _).after_countSource _
  have fenced' : OutGrows s fenced := after_ite (counted'.after_modKpr _) counted'
  have opened' : OutGrows s opened :=
    after_ite (fenced'.after_openEntry _ _ _) (after_ite (fenced'.after_closeRecord _) fenced')
  have signalled' : OutGrows s signalled := (opened'.after_fogOnRecord _).after_signalClass _ _
  have escalated' : OutGrows s escalated := after_ite ((signalled'.after_dmkPush _ _).after_keeperCause _) signalled'
  have final' : OutGrows s final := after_ite (escalated'.after_dmkPush _ _) escalated'
  exact after_ite (final'.after_fatalFault _ _) final'

theorem after_report (h : OutGrows s t) (r : Report) : OutGrows s (report t r) := by
  unfold report
  extract_lets r'
  refine after_ite h ?_
  split
  case h_1 i _ =>
    have merged : OutGrows s (reportMerge t r'.src i) := ((h.after_countSource _).after_fset _ _).after_fset _ _
    exact after_ite (merged.after_dmkPush _ _) merged
  case h_2 => exact h.after_reportRecord r'

theorem after_raise (h : OutGrows s t) (src data : Nat) : OutGrows s (raise t src data) := by
  unfold raise
  split
  · exact h
  · exact h.after_report _

theorem after_dmkSend (h : OutGrows s t) (code data : Nat) : OutGrows s (dmkSend t code data) := by
  have pushed := h.after_dmkPush code data
  refine after_ite pushed (after_ite pushed ?_)
  exact (pushed.after_setDmk _).after_raise _ _

end OutGrows

/-- An event sent to Daymark changes what a fault report may change. -/
theorem ReportFrame.after_dmkSend {s t : State} (h : ReportFrame s t) (code data : Nat) :
    ReportFrame s (dmkSend t code data) := by
  have pushed := h.after_dmkPush code data
  refine after_ite pushed (after_ite pushed ?_)
  exact (pushed.after_parts _ _ _ _ _ _).after_raise _ _

/-! ## PUSH (R144, R457) -/

/-- Heat touches the extents alone. -/
theorem touchExtents_eq (s : State) (c : Cmd) (pool : Nat) :
    ∃ x, touchExtents s c pool = { s with udc := { s.udc with ext := x } } := by
  unfold touchExtents
  split
  · exact ⟨s.udc.ext, rfl⟩
  · refine List.foldlRecOn (motive := fun t : State => ∃ x, t = { s with udc := { s.udc with ext := x } }) _ _
      ⟨s.udc.ext, rfl⟩ ?_
    rintro _ ⟨x, rfl⟩ i -
    exact ⟨_, rfl⟩

theorem touchExtents_unchanged (s : State) (c : Cmd) (pool : Nat) : Unchanged [.udc] s (touchExtents s c pool) := by
  obtain ⟨x, same⟩ := touchExtents_eq s c pool
  rw [same]
  exact setUdc_unchanged s _

theorem exec_push_waits {s : State} {n : Nat} {c : Cmd} (bad : List BadBlock) (fenceOk : Bool)
    (h : running s n 0x20 = some c) (hearlier : earlierChange s n c = true) : exec (.push n bad fenceOk) s = .next s := by
  have harm : exec (.push n bad fenceOk) s = execPush n bad fenceOk s := rfl
  rw [harm, execPush, h]
  exact if_pos hearlier

/-- The grant a PUSH names. -/
def pushGrant (s : State) (c : Cmd) : Grant := tget {} (getTen s c.tenant).grants c.sqe.pushIdx

/-- What a PUSH reads. -/
def pushSpan (s : State) (c : Cmd) (bad : List BadBlock) : List ReadResult :=
  readSpan s c.tenant c.sqe.nsid (cmdNs s c).pool c.sqe.slba (c.sqe.nlb + 1) bad

/-- A PUSH goes on: it runs, waits for no earlier change, has a channel, may issue requests, its port's link is up and its
blocks read. -/
structure PushGoes (s : State) (n : Nat) (c : Cmd) (bad : List BadBlock) : Prop where
  runs : running s n 0x20 = some c
  first : earlierChange s n c = false
  channel : ∃ k < 16, hodServes s k = true ∧ hodClaimed s k = false
  live : (getFn s c.fid).live = true
  link : fget s (HPT_LINK_DL_UP.ix (pushGrant s c).port 0x1000) ≠ 0
  reads : spanStatus (pushSpan s c bad) = 0

/-- The state in which a PUSH's bytes are sent: the extents it reads are warmer. -/
def pushRead (s : State) (c : Cmd) : State := touchExtents s c (cmdNs s c).pool

/-- The bytes a PUSH sends. -/
def pushData (s : State) (c : Cmd) (bad : List BadBlock) : List Byte :=
  (blockBytes (spanData (pushSpan s c bad))).take c.sqe.buf0Len

/-- The state in which a PUSH inside its grant ends. -/
def pushSent (s : State) (c : Cmd) (bad : List BadBlock) : State :=
  pushBytes (pushRead s c) (pushGrant s c) c.sqe.buf0 (pushData s c bad)

theorem grantHolds_touchExtents (s : State) (c : Cmd) (pool t : Nat) (e : Sqe) :
    grantHolds (touchExtents s c pool) t e = grantHolds s t e := by
  obtain ⟨x, same⟩ := touchExtents_eq s c pool
  rw [same]
  rfl

theorem exec_push {s : State} {n : Nat} {c : Cmd} {bad : List BadBlock} (fenceOk : Bool) (h : PushGoes s n c bad) :
    exec (.push n bad fenceOk) s =
      if grantHolds s c.tenant c.sqe = false then .next (pushDenied (pushRead s c) n)
      else if ((pushGrant s c).fence && !fenceOk) = true then
        .next (setDone (dmkSend (pushSent s c bad) 0x038A 0) n 0x0107 (some (crc32c (pushData s c bad)).toNat))
      else .next (setDone (pushSent s c bad) n
        (if c.sqe.itagChk && (crc32c (pushData s c bad)).toNat ≠ c.sqe.itag then 0x0109 else 0)
        (some (crc32c (pushData s c bad)).toNat)) := by
  obtain ⟨runs, first, ⟨k, hk, serves, free⟩, live, link, reads⟩ := h
  have harm : exec (.push n bad fenceOk) s = execPush n bad fenceOk s := rfl
  have channel : ((List.range 16).any fun k => hodServes s k && !hodClaimed s k) = true :=
    List.any_eq_true.mpr ⟨k, List.mem_range.mpr hk, by rw [serves, free]; rfl⟩
  have marks : markSpan s c (cmdNs s c) c.sqe.slba (pushSpan s c bad) = s := markSpan_ok s c _ _ (readSpan_ok reads)
  have sends : ¬(!((List.range 16).any fun k => hodServes s k && !hodClaimed s k) || !(getFn s c.fid).live ||
      fget s (HPT_LINK_DL_UP.ix (pushGrant s c).port 0x1000) == 0) = true := by
    simp [channel, live, link]
  have holds : (!grantHolds (touchExtents s c (cmdNs s c).pool) c.tenant c.sqe) = true ↔
      grantHolds s c.tenant c.sqe = false := by
    rw [grantHolds_touchExtents, Bool.not_eq_true']
  unfold pushGrant at sends
  unfold pushSpan at marks reads
  rw [harm, execPush, runs]
  dsimp only
  rw [if_neg (first ▸ Bool.false_ne_true), if_neg sends, marks, if_neg (not_not.mpr reads), if_congr holds rfl rfl]
  rfl

/-- Sending keeps the commands, the granules and the slots, and the bytes go to the grant's window. -/
theorem pushSent_sends (s : State) (c : Cmd) (bad : List BadBlock) :
    (pushSent s c bad).cmds = s.cmds ∧ (pushSent s c bad).udc.gran = s.udc.gran ∧
      (pushSent s c bad).udc.slots = s.udc.slots ∧
      Out.peerWrite (pushGrant s c).port ((pushGrant s c).base + c.sqe.buf0) (pushData s c bad) ∈
        (pushSent s c bad).out := by
  obtain ⟨x, same⟩ := touchExtents_eq s c (cmdNs s c).pool
  unfold pushSent pushBytes pushRead
  rw [same]
  dsimp only
  split
  · exact ⟨rfl, rfl, rfl, List.mem_cons_of_mem _ List.mem_cons_self⟩
  · exact ⟨rfl, rfl, rfl, List.mem_cons_self⟩

/-- A PUSH inside its grant, ended with `status` in state `t`. -/
structure PushEnded (s : State) (n : Nat) (c : Cmd) (bad : List BadBlock) (status : Nat) (t : State) : Prop where
  ended : getCmd t n = some { c with done := some status, result := (crc32c (pushData s c bad)).toNat }
  sent : Out.peerWrite (pushGrant s c).port ((pushGrant s c).base + c.sqe.buf0) (pushData s c bad) ∈ t.out
  gran : t.udc.gran = s.udc.gran
  slots : t.udc.slots = s.udc.slots

/-- Ending the command after the bytes were sent, whatever was reported meanwhile. -/
theorem pushEnded_setDone {s u : State} {n : Nat} {c : Cmd} {bad : List BadBlock} (h : running s n 0x20 = some c)
    (frame : ReportFrame (pushSent s c bad) u) (grows : OutGrows (pushSent s c bad) u) (status : Nat) :
    PushEnded s n c bad status (setDone u n status (some (crc32c (pushData s c bad)).toNat)) := by
  obtain ⟨hcmd, hgoes⟩ := running_inFlight h
  obtain ⟨cmds, gran, slots, sent⟩ := pushSent_sends s c bad
  have ends := setDone_unchanged u n status (some (crc32c (pushData s c bad)).toNat)
  have inFlight : u.cmds = s.cmds := (frame.parts .cmds (by decide)).trans cmds
  have udc : (setDone u n status (some (crc32c (pushData s c bad)).toNat)).udc = (pushSent s c bad).udc :=
    (ends .udc (by decide)).trans (frame.parts .udc (by decide))
  have out : (setDone u n status (some (crc32c (pushData s c bad)).toNat)).out = u.out := ends .out (by decide)
  exact ⟨getCmd_setDone ((getCmd_congr inFlight n).trans hcmd) hgoes _ _, out ▸ grows.kept sent,
    (congrArg Undercoat.gran udc).trans gran, (congrArg Undercoat.slots udc).trans slots⟩

/-- Inside its grant a PUSH sends its bytes and ends with the outcome of the fence read and of the ITAG check. -/
theorem push_sends {s : State} {n : Nat} {c : Cmd} {bad : List BadBlock} (fenceOk : Bool) (h : PushGoes s n c bad)
    (hgrant : grantHolds s c.tenant c.sqe = true) : ∃ t, exec (.push n bad fenceOk) s = .next t ∧
      PushEnded s n c bad (if (pushGrant s c).fence && !fenceOk then 0x0107
        else if c.sqe.itagChk && (crc32c (pushData s c bad)).toNat ≠ c.sqe.itag then 0x0109 else 0) t := by
  have run := exec_push fenceOk h
  rw [if_neg (by rw [hgrant]; decide)] at run
  have sent := ReportFrame.refl (pushSent s c bad)
  have out := OutGrows.refl (pushSent s c bad)
  by_cases fails : ((pushGrant s c).fence && !fenceOk) = true
  · rw [if_pos fails] at run ⊢
    exact ⟨_, run, pushEnded_setDone h.runs (sent.after_dmkSend _ _) (out.after_dmkSend _ _) _⟩
  · rw [if_neg fails] at run ⊢
    exact ⟨_, run, pushEnded_setDone h.runs sent out _⟩

/-- Outside its grant a PUSH ends with 0x0303. -/
theorem push_denied {s : State} {n : Nat} {c : Cmd} {bad : List BadBlock} (fenceOk : Bool) (h : PushGoes s n c bad)
    (hgrant : grantHolds s c.tenant c.sqe = false) : ∃ t d, exec (.push n bad fenceOk) s = .next t ∧
      getCmd t n = some d ∧ d.sqe = c.sqe ∧ d.done = some 0x0303 := by
  obtain ⟨hcmd, hgoes⟩ := running_inFlight h.runs
  have run := exec_push fenceOk h
  rw [if_pos hgrant] at run
  have read : (pushRead s c).cmds = s.cmds := touchExtents_unchanged s c _ .cmds (by decide)
  have reported : ReportFrame (pushRead s c) (dmkSend (raise (pushRead s c) 0x3A0) 0x0389 0) :=
    ((ReportFrame.refl _).after_raise _ _).after_dmkSend _ _
  have cmds := (reported.parts .cmds (by decide)).trans read
  exact ⟨_, _, run, getCmd_setDone ((getCmd_congr cmds n).trans hcmd) hgoes _ _, rfl, rfl⟩

/-! ## The statement -/

/-- Settles O26: a FLUSH seals and ends or stays; a PUSH waits, sends inside its grant, or is denied outside it. -/
theorem flushAndPush : Obligations.FlushAndPush := by
  unfold Obligations.FlushAndPush
  refine ⟨?_, ?_, ?_⟩
  · intro s n c h
    exact flush_seals h
  · intro s n c bad fenceOk h hearlier
    exact exec_push_waits bad fenceOk h hearlier
  · rintro s n k c g bs bad fenceOk h hfirst hk hserves hfree hlive rfl hlink hreads rfl
    have goes : PushGoes s n c bad := ⟨h, hfirst, ⟨k, hk, hserves, hfree⟩, hlive, hlink, hreads⟩
    constructor
    · intro hgrant
      obtain ⟨t, run, ended⟩ := push_sends fenceOk goes hgrant
      exact ⟨t, _, run, ended.ended, rfl, rfl, rfl, ended.sent, ended.gran, ended.slots⟩
    · intro hgrant
      exact push_denied fenceOk goes hgrant

end Sys2Proof.Laws
end

section
/-!
PROOFS. The statement of 04_host_ports.md on links and port resets (R98, R99, R101, R102, R117, R191). The lemmas in front of
it serve every later proof about host ports: what the registers of a port show once its link is up, and what the teardown
of functions leaves unchanged (`TeardownFrame`: the parts outside `teardownParts`, and the words of the links).
-/

namespace Sys2Proof.Laws

open Sys2Proof.Machine

/-! ## Ports -/

theorem modPort_unchanged (s : State) (p : Nat) (f : PortState → PortState) : Unchanged [.ports] s (modPort s p f) :=
  setPorts_unchanged s _

theorem getPort_modPort_same (s : State) (p : Nat) (f : PortState → PortState) :
    getPort (modPort s p f) p = f (getPort s p) := by
  rw [getPort_modPort, if_pos rfl]

theorem getPort_modPort_other (s : State) {p q : Nat} (f : PortState → PortState) (h : q ≠ p) :
    getPort (modPort s p f) q = getPort s q := by
  rw [getPort_modPort, if_neg h]

@[simp] theorem rget_modPort (s : State) (p : Nat) (f : PortState → PortState) (k : Nat) :
    rget (modPort s p f) k = rget s k := rfl

/-- PERST_RELEASE (R102). -/
theorem perstRelease_trains (s : State) {p : Nat} (hp : p < 6) :
    ∃ t, exec (.perstRelease p) s = .next t ∧ (getPort t p).perst = false ∧ (getPort t p).training = portTrains s p ∧
      (∀ q, q ≠ p → getPort t q = getPort s q) ∧ Unchanged [.ports] s t := by
  have harm : exec (.perstRelease p) s = execPerstRelease p s := rfl
  rw [execPerstRelease, if_neg (Nat.not_le.mpr hp)] at harm
  refine ⟨_, harm, ?_, ?_, fun q hq => getPort_modPort_other s _ hq, modPort_unchanged s p _⟩
  · rw [getPort_modPort_same]
  · rw [getPort_modPort_same]

/-! ## A link in L0 (R98, R99, R101) -/

/-- Two fields of one word that do not overlap. -/
theorem fget_fset_word (s : State) (off lo w lo' w' x : Nat) (h : lo + w ≤ 32) (apart : lo + w ≤ lo' ∨ lo' + w' ≤ lo) :
    fget (fset s ⟨off, lo, w⟩ x) ⟨off, lo', w'⟩ = fget s ⟨off, lo', w'⟩ :=
  fget_fset_ne s ⟨off, lo, w⟩ ⟨off, lo', w'⟩ x h (.inr apart)

/-- HPT_LINK, at word `k`, of a link that is up. -/
def linkWord (s : State) (k rate width : Nat) (flit rev : Bool) : State :=
  let s := fset (fset s ⟨k, 0, 1⟩ 1) ⟨k, 1, 3⟩ rate
  fset (fset (fset s ⟨k, 4, 3⟩ width) ⟨k, 7, 1⟩ (b2n (flit || rate == 6))) ⟨k, 8, 1⟩ (b2n rev)

section linkWord

variable (s : State) (k rate width : Nat) (flit rev : Bool)

theorem linkWord_dlUp : fget (linkWord s k rate width flit rev) ⟨k, 0, 1⟩ = 1 := by
  unfold linkWord
  simp (disch := decide) only [fget_fset_word]
  exact fget_fset_same s ⟨k, 0, 1⟩ 1 (show 0 + 1 ≤ 32 by decide)

theorem linkWord_rate : fget (linkWord s k rate width flit rev) ⟨k, 1, 3⟩ = rate % 2 ^ 3 := by
  unfold linkWord
  simp (disch := decide) only [fget_fset_word]
  exact fget_fset_same _ ⟨k, 1, 3⟩ rate (show 1 + 3 ≤ 32 by decide)

theorem linkWord_width : fget (linkWord s k rate width flit rev) ⟨k, 4, 3⟩ = width % 2 ^ 3 := by
  unfold linkWord
  simp (disch := decide) only [fget_fset_word]
  exact fget_fset_same _ ⟨k, 4, 3⟩ width (show 4 + 3 ≤ 32 by decide)

theorem linkWord_retrainCnt : fget (linkWord s k rate width flit rev) ⟨k, 16, 8⟩ = fget s ⟨k, 16, 8⟩ := by
  unfold linkWord
  simp (disch := decide) only [fget_fset_word]

theorem linkWord_regsBut : RegsBut [k] s (linkWord s k rate width flit rev) := by
  have inWord (b : State) (lo w x : Nat) : RegsBut [k] b (fset b ⟨k, lo, w⟩ x) := regsBut_fset b x List.mem_cons_self
  exact regsBut_trans (inWord s 0 1 _) (regsBut_trans (inWord _ 1 3 _) (regsBut_trans (inWord _ 4 3 _)
    (regsBut_trans (inWord _ 7 1 _) (inWord _ 8 1 _))))

theorem linkWord_unchanged : Unchanged [.regs] s (linkWord s k rate width flit rev) :=
  unchanged_trans (fset_unchanged s _ _) (unchanged_trans (fset_unchanged _ _ _) (unchanged_trans (fset_unchanged _ _ _)
    (unchanged_trans (fset_unchanged _ _ _) (fset_unchanged _ _ _))))

end linkWord

/-- The words that show a port's link: HPT_LINK, HPT_CAPACITY, HPT_STATUS. -/
def linkWords (p : Nat) : List Nat :=
  [(HPT_LINK_DL_UP.ix p 0x1000).off, (HPT_CAPACITY_CAP.ix p 0x1000).off, HPT_STATUS_LINK_UP.off]

theorem regsBut_mono {few many : List Nat} {s t : State} (h : RegsBut few s t) (hsub : few ⊆ many) : RegsBut many s t :=
  fun k hk => h k fun hfew => hk (hsub hfew)

section showLink

variable (s : State) {p : Nat} (rate width : Nat) (flit rev : Bool)

theorem showLink_eq (p : Nat) : showLink s p rate width flit rev =
    fsetBit (fset (linkWord s (HPT_LINK_DL_UP.ix p 0x1000).off rate width flit rev) (HPT_CAPACITY_CAP.ix p 0x1000)
      (capacityOf rate width)) HPT_STATUS_LINK_UP p true := rfl

theorem showLink_regsBut (p : Nat) : RegsBut (linkWords p) s (showLink s p rate width flit rev) :=
  regsBut_trans (regsBut_mono (linkWord_regsBut s _ rate width flit rev) (List.cons_subset_cons _ (List.nil_subset _)))
    (regsBut_trans (regsBut_fset _ _ (by simp [linkWords])) (regsBut_fset _ _ (by simp [linkWords])))

theorem showLink_unchanged (p : Nat) : Unchanged [.regs] s (showLink s p rate width flit rev) :=
  unchanged_trans (linkWord_unchanged s _ rate width flit rev)
    (unchanged_trans (fset_unchanged _ _ _) (fsetBit_unchanged _ _ _ _))

/-- The words of a port's HPT_LINK and HPT_CAPACITY and HPT_STATUS lie apart. -/
theorem linkWords_apart {p : Nat} (hp : p < 6) : (HPT_LINK_DL_UP.ix p 0x1000).off ≠ (HPT_CAPACITY_CAP.ix p 0x1000).off ∧
    (HPT_LINK_DL_UP.ix p 0x1000).off ≠ HPT_STATUS_LINK_UP.off ∧
    (HPT_CAPACITY_CAP.ix p 0x1000).off ≠ HPT_STATUS_LINK_UP.off := by
  simp only [Fld.ix, HPT_LINK_DL_UP, HPT_CAPACITY_CAP, HPT_STATUS_LINK_UP]
  omega

/-- HPT_LINK reads what was written into it. -/
theorem rget_showLink (hp : p < 6) : rget (showLink s p rate width flit rev) (HPT_LINK_DL_UP.ix p 0x1000).off =
    rget (linkWord s (HPT_LINK_DL_UP.ix p 0x1000).off rate width flit rev) (HPT_LINK_DL_UP.ix p 0x1000).off := by
  obtain ⟨cap, status, -⟩ := linkWords_apart hp
  rw [showLink_eq, rget_fsetBit _ _ _ _ status, rget_fset _ _ _ _ cap]

theorem showLink_dlUp (hp : p < 6) :
    fget (showLink s p rate width flit rev) (HPT_LINK_DL_UP.ix p 0x1000) = 1 :=
  (fget_congr (rget_showLink s rate width flit rev hp)).trans (linkWord_dlUp s _ rate width flit rev)

theorem showLink_rate (hp : p < 6) :
    fget (showLink s p rate width flit rev) (HPT_LINK_RATE.ix p 0x1000) = rate % 2 ^ 3 :=
  (fget_congr (f := HPT_LINK_RATE.ix p 0x1000) (rget_showLink s rate width flit rev hp)).trans
    (linkWord_rate s _ rate width flit rev)

theorem showLink_width (hp : p < 6) :
    fget (showLink s p rate width flit rev) (HPT_LINK_WIDTH.ix p 0x1000) = width % 2 ^ 3 :=
  (fget_congr (f := HPT_LINK_WIDTH.ix p 0x1000) (rget_showLink s rate width flit rev hp)).trans
    (linkWord_width s _ rate width flit rev)

theorem showLink_retrainCnt (hp : p < 6) : fget (showLink s p rate width flit rev) (HPT_LINK_RETRAIN_CNT.ix p 0x1000) =
    fget s (HPT_LINK_RETRAIN_CNT.ix p 0x1000) :=
  (fget_congr (f := HPT_LINK_RETRAIN_CNT.ix p 0x1000) (rget_showLink s rate width flit rev hp)).trans
    (linkWord_retrainCnt s _ rate width flit rev)

theorem showLink_capacity (hp : p < 6) : fget (showLink s p rate width flit rev) (HPT_CAPACITY_CAP.ix p 0x1000) =
    capacityOf rate width % 2 ^ 16 := by
  obtain ⟨-, -, status⟩ := linkWords_apart hp
  rw [showLink_eq, fget_congr (rget_fsetBit _ _ _ _ status)]
  exact fget_fset_same _ (HPT_CAPACITY_CAP.ix p 0x1000) _ (show 0 + 16 ≤ 32 by decide)

/-- LINK_UP of the port is set, and no other port's changes. -/
theorem showLink_linkUp (hp : p < 6) {q : Nat} (hq : q < 6) :
    fbit (showLink s p rate width flit rev) HPT_STATUS_LINK_UP q =
      if q = p then true else fbit s HPT_STATUS_LINK_UP q := by
  obtain ⟨-, link, cap⟩ := linkWords_apart hp
  have apart : HPT_STATUS_LINK_UP.off ∉ [(HPT_LINK_DL_UP.ix p 0x1000).off] := by simpa using link.symm
  rw [showLink_eq, fbit_fsetBit _ HPT_STATUS_LINK_UP true (by decide) hp hq]
  refine if_congr Iff.rfl rfl (fbit_congr q (fget_congr ?_))
  rw [rget_fset _ _ _ _ cap.symm, linkWord_regsBut s _ rate width flit rev _ apart]

end showLink

/-- Advertised rates and widths fit their fields. -/
theorem advertised_fits {s : State} {p rate width : Nat} (h : advertised s p rate width = true) :
    rate < 8 ∧ width < 8 := by
  simp only [advertised, Bool.and_eq_true, decide_eq_true_eq] at h
  obtain ⟨⟨⟨-, hrate⟩, -⟩, hwidth⟩ := h
  exact ⟨lt_of_le_of_lt hrate (fget_lt s (HPT_LINK_CTL_MAX_RATE.ix p 0x1000)),
    lt_of_le_of_lt hwidth (fget_lt s (HPT_LINK_CTL_MAX_WIDTH.ix p 0x1000))⟩

/-- Table 04-1 fits its field. -/
theorem capacityOf_lt : ∀ rate < 8, ∀ width < 8, capacityOf rate width < 2 ^ 16 := by decide

/-- What the registers of a port show of a link at a rate and width. -/
theorem showLink_advertised {s : State} {p rate width : Nat} (flit rev : Bool) (hp : p < 6)
    (hadv : advertised s p rate width = true) :
    fget (showLink s p rate width flit rev) (HPT_LINK_RATE.ix p 0x1000) = rate ∧
      fget (showLink s p rate width flit rev) (HPT_LINK_WIDTH.ix p 0x1000) = width ∧
      fget (showLink s p rate width flit rev) (HPT_CAPACITY_CAP.ix p 0x1000) = capacityOf rate width := by
  obtain ⟨hrate, hwidth⟩ := advertised_fits hadv
  rw [showLink_rate s rate width flit rev hp, showLink_width s rate width flit rev hp,
    showLink_capacity s rate width flit rev hp]
  exact ⟨Nat.mod_eq_of_lt hrate, Nat.mod_eq_of_lt hwidth, Nat.mod_eq_of_lt (capacityOf_lt rate hrate width hwidth)⟩

/-- LINK_UP (R98, R101). -/
theorem linkUp_shows {s : State} {p rate width : Nat} (flit rev : Bool) (hport : portTrains s p = true)
    (htraining : (getPort s p).training = true) (hperst : (getPort s p).perst = false)
    (hadv : advertised s p rate width = true) :
    ∃ t, exec (.linkUp p rate width flit rev) s = .next t ∧ fget t (HPT_LINK_DL_UP.ix p 0x1000) = 1 ∧
      fget t (HPT_LINK_RATE.ix p 0x1000) = rate ∧ fget t (HPT_LINK_WIDTH.ix p 0x1000) = width ∧
      fget t (HPT_CAPACITY_CAP.ix p 0x1000) = capacityOf rate width ∧ fbit t HPT_STATUS_LINK_UP p = true ∧
      (∀ q < 6, q ≠ p → fbit t HPT_STATUS_LINK_UP q = fbit s HPT_STATUS_LINK_UP q) ∧ (getPort t p).training = false ∧
      RegsBut (linkWords p) s t ∧ Unchanged [.regs, .ports] s t := by
  have hp : p < 6 := by
    simp only [portTrains, Bool.and_eq_true, decide_eq_true_eq] at hport
    exact hport.1.1.1
  have run : exec (.linkUp p rate width flit rev) s =
      .next (modPort (showLink s p rate width flit rev) p fun x => { x with training := false }) := by
    have harm : exec (.linkUp p rate width flit rev) s = execLinkUp p rate width flit rev s := rfl
    rw [harm]
    simp [execLinkUp, hport, htraining, hperst, hadv]
  obtain ⟨hrate, hwidth, hcap⟩ := showLink_advertised flit rev hp hadv
  have word (f : Fld) := fget_congr (f := f) (rget_modPort (showLink s p rate width flit rev) p
    (fun x => { x with training := false }) f.off)
  have bits {q : Nat} (hq : q < 6) := (fbit_congr q (word HPT_STATUS_LINK_UP)).trans
    (showLink_linkUp s rate width flit rev hp hq)
  refine ⟨_, run, (word _).trans (showLink_dlUp s rate width flit rev hp), (word _).trans hrate, (word _).trans hwidth,
    (word _).trans hcap, (bits hp).trans (if_pos rfl), fun q hq hne => (bits hq).trans (if_neg hne), ?_, ?_, ?_⟩
  · rw [getPort_modPort_same]
  · exact fun k hk => (rget_modPort _ p _ k).trans (showLink_regsBut s rate width flit rev p k hk)
  · exact unchanged_trans (unchanged_mono (showLink_unchanged s rate width flit rev p) (by decide))
      (unchanged_mono (modPort_unchanged _ p _) (by decide))

/-- LINK_RETRAIN (R99, R101). -/
theorem linkRetrain_shows {s : State} {p rate width : Nat} (flit rev : Bool) (hp : p < 6)
    (hlink : fget s (HPT_LINK_DL_UP.ix p 0x1000) = 1) (hadv : advertised s p rate width = true) :
    ∃ t, exec (.linkRetrain p rate width flit rev) s = .next t ∧ fget t (HPT_LINK_DL_UP.ix p 0x1000) = 1 ∧
      fget t (HPT_LINK_RATE.ix p 0x1000) = rate ∧ fget t (HPT_CAPACITY_CAP.ix p 0x1000) = capacityOf rate width ∧
      fget t (HPT_LINK_RETRAIN_CNT.ix p 0x1000) = min (fget s (HPT_LINK_RETRAIN_CNT.ix p 0x1000) + 1) 255 ∧
      RegsBut (linkWords p) s t ∧ Unchanged [.regs] s t := by
  have run : exec (.linkRetrain p rate width flit rev) s =
      .next (fbump (showLink s p rate width flit rev) (HPT_LINK_RETRAIN_CNT.ix p 0x1000)) := by
    have harm : exec (.linkRetrain p rate width flit rev) s = execLinkRetrain p rate width flit rev s := rfl
    rw [harm]
    simp [execLinkRetrain, hp, hlink, hadv]
  obtain ⟨hrate, -, hcap⟩ := showLink_advertised flit rev hp hadv
  have below {lo w : Nat} (h : lo + w ≤ 16) :
      fget (fbump (showLink s p rate width flit rev) (HPT_LINK_RETRAIN_CNT.ix p 0x1000))
        ⟨(HPT_LINK_DL_UP.ix p 0x1000).off, lo, w⟩ =
      fget (showLink s p rate width flit rev) ⟨(HPT_LINK_DL_UP.ix p 0x1000).off, lo, w⟩ :=
    fget_fset_word _ _ 16 8 lo w _ (by decide) (.inr h)
  refine ⟨_, run, (below (by decide)).trans (showLink_dlUp s rate width flit rev hp), (below (by decide)).trans hrate,
    ?_, ?_, ?_, ?_⟩
  · obtain ⟨apart, -, -⟩ := linkWords_apart hp
    exact (fget_fset_off _ (HPT_LINK_RETRAIN_CNT.ix p 0x1000) _ _ apart.symm).trans hcap
  · rw [fbump, fget_fset_same _ _ _ (show 16 + 8 ≤ 32 by decide), showLink_retrainCnt s rate width flit rev hp]
    exact Nat.mod_eq_of_lt (lt_of_le_of_lt (min_le_right _ _) (show 255 < 256 by decide))
  · exact regsBut_trans (showLink_regsBut s rate width flit rev p)
      (regsBut_fset (f := HPT_LINK_RETRAIN_CNT.ix p 0x1000) _ _ List.mem_cons_self)
  · exact unchanged_trans (showLink_unchanged s rate width flit rev p) (fset_unchanged _ _ _)

/-! ## What the teardown of functions leaves unchanged (R114 to R118, R458) -/

/-- The parts of the state a teardown may change. -/
def teardownParts : List Part := [.regs, .held, .out, .fns, .qps, .cmds, .jrn, .hod]

/-- The register words a teardown may change: HPT_FN_BUSY, and Hod's, which lie above those of the ports. -/
def TeardownKey (k : Nat) : Prop := 0x40 ≤ k % 0x1000 ∨ 0x1180000 ≤ k

/-- From `s` to `t` nothing has changed but what a teardown may change. -/
structure TeardownFrame (s t : State) : Prop where
  parts : Unchanged teardownParts s t
  regs : ∀ k, ¬TeardownKey k → rget t k = rget s k

/-- New values of the parts beside the registers leave every other part alone. -/
theorem setTeardownParts_unchanged (s : State) (w : List Held) (o : List Out) (fs : Tbl FnState) (qs : Tbl QPair)
    (cs : Tbl Cmd) (j : Journal) (h : Hod) :
    Unchanged teardownParts s { s with held := w, out := o, fns := fs, qps := qs, cmds := cs, jrn := j, hod := h } := by
  intro part hpart
  cases part with
  | held | out | fns | qps | cmds | jrn | hod => exact absurd (by decide) hpart
  | _ => rfl

/-- Hod's words by channel. -/
theorem teardownKey_hod (k c : Nat) (hk : 0x1180000 ≤ k) : TeardownKey (k + c * 0x80) := .inr (by omega)

namespace TeardownFrame

variable {s t : State}

theorem refl (s : State) : TeardownFrame s s := ⟨unchanged_refl _ s, fun _ _ => rfl⟩

theorem trans {u : State} (h : TeardownFrame s t) (k : TeardownFrame t u) : TeardownFrame s u :=
  ⟨unchanged_trans h.parts k.parts, fun i hi => (k.regs i hi).trans (h.regs i hi)⟩

theorem after_ite {c : Prop} [Decidable c] {a b : State} (ha : TeardownFrame s a) (hb : TeardownFrame s b) :
    TeardownFrame s (if c then a else b) := by
  split <;> assumption

theorem after_foldl {α : Type} {g : State → α → State} (h : TeardownFrame s t)
    (step : ∀ b x, TeardownFrame s b → TeardownFrame s (g b x)) (l : List α) : TeardownFrame s (l.foldl g t) :=
  List.foldlRecOn (motive := TeardownFrame s) l g h fun b hb x _ => step b x hb

theorem after_parts (h : TeardownFrame s t) (w : List Held) (o : List Out) (fs : Tbl FnState) (qs : Tbl QPair)
    (cs : Tbl Cmd) (j : Journal) (hd : Hod) :
    TeardownFrame s { t with held := w, out := o, fns := fs, qps := qs, cmds := cs, jrn := j, hod := hd } :=
  h.trans ⟨setTeardownParts_unchanged t w o fs qs cs j hd, fun _ _ => rfl⟩

theorem after_rset (h : TeardownFrame s t) {k : Nat} (hk : TeardownKey k) (v : Word) : TeardownFrame s (rset t k v) :=
  h.trans ⟨unchanged_mono (rset_unchanged t k v) (by decide),
    fun i hi => by rw [rget_rset, if_neg fun (e : i = k) => hi (e ▸ hk)]⟩

theorem after_fset (h : TeardownFrame s t) {f : Fld} (hf : TeardownKey f.off) (x : Nat) : TeardownFrame s (fset t f x) :=
  h.after_rset hf _

theorem after_fsetBit (h : TeardownFrame s t) {f : Fld} (hf : TeardownKey f.off) (i : Nat) (b : Bool) :
    TeardownFrame s (fsetBit t f i b) := h.after_rset hf _

theorem after_emit (h : TeardownFrame s t) (o : Out) : TeardownFrame s (emit t o) := h.after_parts _ _ _ _ _ _ _

theorem after_modFn (h : TeardownFrame s t) (fid : Nat) (f : FnState → FnState) : TeardownFrame s (modFn t fid f) :=
  h.after_parts _ _ _ _ _ _ _

theorem after_modHod (h : TeardownFrame s t) (c : Nat) (f : HodChan → HodChan) : TeardownFrame s (modHod t c f) :=
  h.after_parts _ _ _ _ _ _ _

theorem after_modJrn (h : TeardownFrame s t) (f : Journal → Journal) : TeardownFrame s (modJrn t f) :=
  h.after_parts _ _ _ _ _ _ _

theorem after_putCmd (h : TeardownFrame s t) (n : Nat) (c : Cmd) : TeardownFrame s (putCmd t n c) :=
  h.after_parts _ _ _ _ _ _ _

theorem after_msixSend (h : TeardownFrame s t) (fid vec : Nat) : TeardownFrame s (msixSend t fid vec) :=
  after_ite h (after_ite (h.after_modFn _ _) (h.after_emit _))

/-- A field of a channel's status. -/
theorem after_hodF (h : TeardownFrame s t) {f : Fld} (hf : 0x1180000 ≤ f.off) (c x : Nat) :
    TeardownFrame s (fset t (hodF f c) x) := h.after_fset (f := hodF f c) (teardownKey_hod f.off c hf) x

theorem after_hodDiscard (h : TeardownFrame s t) (c : Nat) : TeardownFrame s (hodDiscard t c) :=
  after_ite h ((h.after_hodF (by decide) c 0).after_hodF (by decide) c 1)

theorem after_hodSettle (h : TeardownFrame s t) (c : Nat) : TeardownFrame s (hodSettle t c) :=
  after_ite ((h.after_fsetBit (f := HOD_OWN_CLAIM) (.inr (by decide)) c false).after_modHod c _) h

theorem after_hodStart (h : TeardownFrame s t) (c : Nat) (ws : List Word) : TeardownFrame s (hodStart t c ws) :=
  (h.after_modHod c _).after_hodF (by decide) c 1

theorem after_hodTake (h : TeardownFrame s t) (c : Nat) : TeardownFrame s (hodTake t c) := by
  unfold hodTake
  refine after_ite ?_ h
  split
  case h_1 => exact h
  case h_2 ws loaded flow rest _ =>
    have started (hd : Hod) := ((h.after_parts t.held t.out t.fns t.qps t.cmds t.jrn hd).after_modHod c
      fun h => { h with flow := flow }).after_hodStart c ws
    cases loaded with
    | none => exact started _
    | some l =>
      refine after_hodF (after_foldl (started _) (fun b x hb => ?_) l.zipIdx) (by decide) c 1
      exact hb.after_rset (.inr (by omega)) x.1

theorem after_hodEnd (h : TeardownFrame s t) (c last : Nat) : TeardownFrame s (hodEnd t c last) := by
  unfold hodEnd
  extract_lets a pausing shown idle paused told
  have shown' : TeardownFrame s shown := (h.after_hodF (by decide) c _).after_hodF (by decide) c _
  have idle' : TeardownFrame s idle := (shown'.after_modHod c _).after_hodF (by decide) c 0
  have paused' : TeardownFrame s paused := after_ite (idle'.after_hodF (by decide) c 1) idle'
  have told' : TeardownFrame s told :=
    after_ite (after_ite (paused'.after_msixSend _ _) paused') (paused'.after_emit _)
  exact after_ite (((told'.after_hodDiscard c).after_hodSettle c).after_hodTake c)
    (after_ite ((told'.after_hodF (by decide) c 0).after_hodStart c _)
      (after_ite told' ((told'.after_hodSettle c).after_hodTake c)))

theorem after_hodAbort (h : TeardownFrame s t) (c : Nat) : TeardownFrame s (hodAbort t c) :=
  after_ite ((((h.after_hodDiscard c).after_hodF (by decide) c 0).after_hodSettle c).after_hodTake c)
    (after_ite ((h.after_hodF (by decide) c 0).after_hodEnd c 2) (h.after_hodF (by decide) c 3))

theorem after_hodAbortFn (h : TeardownFrame s t) (fid : Nat) : TeardownFrame s (hodAbortFn t fid) :=
  h.after_foldl (fun _ c hb => after_ite (hb.after_hodAbort c) hb) _

theorem after_settleCmd (h : TeardownFrame s t) (n : Nat) (c : Cmd) : TeardownFrame s (settleCmd t n c) :=
  after_ite h (after_ite (h.after_putCmd _ _) (h.after_putCmd _ _))

theorem after_settleWhere (h : TeardownFrame s t) (p : Cmd → Bool) : TeardownFrame s (settleWhere t p) :=
  h.after_foldl (fun _ e hb => after_ite (hb.after_settleCmd e.1 e.2) hb) _

theorem after_jrnPut (h : TeardownFrame s t) (e : JrnEntry) : TeardownFrame s (jrnPut t e) := by
  unfold jrnPut
  exact h.after_modJrn _

theorem after_jrnDrain (h : TeardownFrame s t) (es : List JrnEntry) : TeardownFrame s (jrnDrain t es) := by
  induction es generalizing t with
  | nil => exact h.after_modJrn _
  | cons e es ih => exact after_ite (ih (h.after_jrnPut e)) (h.after_modJrn _)

theorem after_jrnMarker (h : TeardownFrame s t) (code tenant nsid slba : Nat) :
    TeardownFrame s (jrnMarker t code tenant nsid slba) := h.after_jrnDrain _

/-- HPT_FN_BUSY has 32 words for each port. -/
theorem after_setFnBusy (h : TeardownFrame s t) (fid : Nat) (b : Bool) : TeardownFrame s (setFnBusy t fid b) := by
  refine h.after_fsetBit (.inl ?_) _ b
  simp only [Fld.ix, HPT_FN_BUSY_BUSY, fidVf]
  omega

theorem after_teardownFn (h : TeardownFrame s t) (fid : Nat) : TeardownFrame s (teardownFn t fid) := by
  unfold teardownFn
  extract_lets f reset busy unheld closed settled
  have busy' : TeardownFrame s busy := (h.after_modFn fid _).after_setFnBusy fid true
  have closed' : TeardownFrame s closed :=
    (busy'.after_parts (busy.held.filter (·.who != Accessor.fn (fidPort fid) (fidVf fid))) _ _ _ _ _ _).after_parts
      _ _ _ _ _ _ _
  have settled' : TeardownFrame s settled := (closed'.after_hodAbortFn fid).after_settleWhere _
  exact after_ite h (after_ite settled' (settled'.after_jrnMarker _ _ _ _))

theorem after_teardownVfs (h : TeardownFrame s t) (p : Nat) : TeardownFrame s (teardownVfs t p) :=
  h.after_foldl (fun _ fid hb => hb.after_teardownFn fid) _

end TeardownFrame

/-! ## Port resets (R117, R191) -/

/-- The tenants without their grants on a port. -/
def grantsCleared (s : State) (p : Nat) : State :=
  { s with tenants := s.tenants.map fun (t, x) => (t, { x with grants := x.grants.filter fun g => g.2.port != p }) }

theorem rget_grantsCleared (s : State) (p k : Nat) : rget (grantsCleared s p) k = rget s k := rfl

/-- Every function of a port torn down. -/
def portTornDown (s : State) (p : Nat) : State :=
  if fnExists s (fnId p 0) then teardownFn (teardownVfs s p) (fnId p 0) else s

theorem portTornDown_frame (s : State) (p : Nat) : TeardownFrame s (portTornDown s p) :=
  .after_ite (((TeardownFrame.refl s).after_teardownVfs p).after_teardownFn _) (.refl s)

theorem exec_portReset (s : State) {p : Nat} (perst : Bool) (hp : p < 6) :
    ∃ port : PortState, port.perst = perst ∧ exec (.portReset p perst) s =
      .next (modPort (portTornDown (grantsCleared (showNoLink s p) p) p) p fun _ => port) := by
  have harm : exec (.portReset p perst) s = execPortReset p perst s := rfl
  rw [execPortReset, if_neg (Nat.not_le.mpr hp)] at harm
  exact ⟨_, rfl, harm⟩

theorem showNoLink_dlUp (s : State) {p : Nat} (hp : p < 6) :
    fget (showNoLink s p) (HPT_LINK_DL_UP.ix p 0x1000) = 0 := by
  obtain ⟨cap, status, -⟩ := linkWords_apart hp
  have link : (HPT_LINK_DL_UP.ix p 0x1000).off = 0x100000 + 0x1000 * p := by
    simp only [Fld.ix, HPT_LINK_DL_UP]
    omega
  rw [showNoLink, portIdle, fget, rget_fsetBit _ _ _ _ status, rget_fset _ _ _ _ cap, link, rget_rset, if_pos rfl]
  simp [bitsGet]

theorem grantsCleared_grants {s : State} {p : Nat} {e : Nat × Tenant} (he : e ∈ (grantsCleared s p).tenants)
    {g : Nat × Grant} (hg : g ∈ e.2.grants) : g.2.port ≠ p := by
  obtain ⟨e', -, rfl⟩ := List.mem_map.mp he
  exact bne_iff_ne.mp (List.mem_filter.mp hg).2

/-- PORT_RESET (R117, R191). -/
theorem portReset_resets (s : State) {p : Nat} (perst : Bool) (hp : p < 6) :
    ∃ t, exec (.portReset p perst) s = .next t ∧ (getPort t p).perst = perst ∧
      (∀ q, q ≠ p → getPort t q = getPort s q) ∧ (∀ e ∈ t.tenants, ∀ g ∈ e.2.grants, g.2.port ≠ p) ∧
      fget t (HPT_LINK_DL_UP.ix p 0x1000) = 0 ∧ t.nv.tenants = s.nv.tenants := by
  obtain ⟨port, hport, run⟩ := exec_portReset s perst hp
  obtain ⟨parts, regs⟩ := portTornDown_frame (grantsCleared (showNoLink s p) p) p
  have tenants : (portTornDown (grantsCleared (showNoLink s p) p) p).tenants =
    (grantsCleared (showNoLink s p) p).tenants := parts .tenants (by decide)
  have ports : (portTornDown (grantsCleared (showNoLink s p) p) p).ports = s.ports := parts .ports (by decide)
  have nv : (portTornDown (grantsCleared (showNoLink s p) p) p).nv = s.nv := parts .nv (by decide)
  have link : ¬TeardownKey (HPT_LINK_DL_UP.ix p 0x1000).off := by
    simp only [TeardownKey, Fld.ix, HPT_LINK_DL_UP]
    omega
  refine ⟨_, run, ?_, fun q hq => ?_, fun e he g hg => ?_, ?_, congrArg NonVolatile.tenants nv⟩
  · rw [getPort_modPort_same, hport]
  · rw [getPort_modPort_other _ _ hq, getPort, getPort, ports]
  · have cleared : e ∈ (grantsCleared (showNoLink s p) p).tenants := by
      rw [← tenants]
      exact he
    exact grantsCleared_grants cleared hg
  · exact (fget_congr ((rget_modPort _ p _ _).trans ((regs _ link).trans (rget_grantsCleared _ p _)))).trans
      (showNoLink_dlUp s hp)

/-! ## The statement -/

/-- Settles O17: one lemma for each of the four commands. -/
theorem hostLinks : Obligations.HostLinks := by
  unfold Obligations.HostLinks
  refine ⟨?_, ?_, ?_, ?_⟩
  · intro s p hp
    exact perstRelease_trains s hp
  · intro s p rate width flit rev hport htraining hperst hadv
    exact linkUp_shows flit rev hport htraining hperst hadv
  · intro s p rate width flit rev hp hlink hadv
    exact linkRetrain_shows flit rev hp hlink hadv
  · intro s p perst hp
    exact portReset_resets s perst hp

end Sys2Proof.Laws
end

section
/-!
PROOFS. The statements of 05_queues_and_journal.md on doorbells (R136, R138) and on the admin queue (R127, R169). The lemmas in
front of them serve every later proof about queues: what a change of one queue pair leaves alone, where the registers of
a function's XQ_ block lie, and how the deletion of a pair ends.
-/

namespace Sys2Proof.Laws

open Sys2Proof.Machine

/-! ## Queue pairs -/

@[simp] theorem getQp_modQp (s : State) (fid q f r : Nat) (g : QPair → QPair) :
    getQp (modQp s fid q g) f r = if qpKey f r = qpKey fid q then g (getQp s fid q) else getQp s f r :=
  tget_tmod _ _ _ _ _

theorem getQp_modQp_same (s : State) (fid q : Nat) (g : QPair → QPair) :
    getQp (modQp s fid q g) fid q = g (getQp s fid q) := by
  rw [getQp_modQp, if_pos rfl]

theorem getQp_modQp_other (s : State) {fid q f r : Nat} (g : QPair → QPair) (h : qpKey f r ≠ qpKey fid q) :
    getQp (modQp s fid q g) f r = getQp s f r := by
  rw [getQp_modQp, if_neg h]

theorem getQp_congr {s t : State} (h : t.qps = s.qps) (fid q : Nat) : getQp t fid q = getQp s fid q := by
  rw [getQp, getQp, h]

theorem setQps_unchanged (s : State) (qs : Tbl QPair) : Unchanged [.qps] s { s with qps := qs } := by
  intro part hpart
  cases part with
  | qps => exact absurd List.mem_cons_self hpart
  | _ => rfl

theorem modQp_unchanged (s : State) (fid q : Nat) (g : QPair → QPair) : Unchanged [.qps] s (modQp s fid q g) :=
  setQps_unchanged s _

theorem dropQp_unchanged (s : State) (fid q : Nat) : Unchanged [.qps] s (dropQp s fid q) := setQps_unchanged s _

theorem getQp_dropQp (s : State) (fid q f r : Nat) :
    getQp (dropQp s fid q) f r = if qpKey f r = qpKey fid q then {} else getQp s f r := tget_tset _ _ _ _ _

/-- Settling commands that nobody selects changes nothing. -/
theorem settleWhere_none {s : State} {p : Cmd → Bool} (h : ∀ e ∈ s.cmds, p e.2 = false) : settleWhere s p = s := by
  refine List.foldlRecOn (motive := fun t => t = s) _ _ rfl fun t ht e he => ?_
  rw [h e he]
  exact ht

/-- With nothing of the pair in flight and no re-creation latched, its deletion leaves no pair. -/
theorem finishDelete_drops {s : State} {fid q : Nat} (hmode : (getQp s fid q).mode = 3)
    (hbusy : qpBusyCmds s fid q = false) (htear : (getFn s fid).teardown = 0)
    (hlatch : q ≠ 0 ∨ (getQp s fid q).latchEn = false) : finishDelete s fid q = dropQp s fid q := by
  have gone : (q = 0 && (getQp s fid q).latchEn) = false := by
    rcases hlatch with h | h <;> simp [h]
  simp [finishDelete, hmode, hbusy, htear, gone]

/-- A pair that is not being deleted stays. -/
theorem finishDelete_stays {s : State} {fid q : Nat} (hmode : (getQp s fid q).mode ≠ 3) : finishDelete s fid q = s := by
  simp [finishDelete, hmode]

/-! ## Registers of a function's XQ_ block (R128, R536, R538) -/

/-- Every XQ_ block lies above the register that names the control PF. -/
theorem xqBase_ge (s : State) (fid : Nat) : 0x200000 ≤ xqBase s fid := by
  unfold xqBase xqVfBase
  split <;> omega

theorem xqBase_congr {s t : State} (h : ∀ k < 0x200000, rget t k = rget s k) (fid : Nat) : xqBase t fid = xqBase s fid := by
  have ctl : ctlFid t = ctlFid s :=
    congrArg (fun p => fnId p 0) (fget_congr (f := HPT_STATUS_CTL_PORT) (h _ (by decide)))
  rw [xqBase, xqBase, ctl]

/-- Writing a register of an XQ_ block moves no block. -/
theorem xqBase_fset (s : State) {f : Fld} (x fid : Nat) (hf : 0x200000 ≤ f.off) :
    xqBase (fset s f x) fid = xqBase s fid :=
  xqBase_congr (fun k hk => rget_fset s f x k (by omega)) fid

theorem xqF_fset (s : State) {f : Fld} (x fid : Nat) (g : Fld) (hf : 0x200000 ≤ f.off) :
    xqF (fset s f x) fid g = xqF s fid g := by
  rw [xqF, xqF, xqBase_fset s x fid hf]

theorem xqF_off_ge (s : State) (fid : Nat) (f : Fld) : 0x200000 ≤ (xqF s fid f).off :=
  Nat.le_add_left_of_le (xqBase_ge s fid)

/-! ## Doorbells (R136, R138) -/

/-- A bit that is set: it reads 1, the field's other bits and a field beside it read as before. -/
theorem fsetBit_sets (s : State) {f g : Fld} {i : Nat} (hf : f.lo + f.w ≤ 32) (hi : i < f.w)
    (hg : f.lo + f.w ≤ g.lo ∨ g.lo + g.w ≤ f.lo) :
    fbit (fsetBit s f i true) f i = true ∧
      (∀ k < f.w, k ≠ i → fbit (fsetBit s f i true) f k = fbit s f k) ∧
      fget (fsetBit s f i true) g = fget s g ∧ RegsBut [f.off] s (fsetBit s f i true) ∧
      Unchanged [.regs] s (fsetBit s f i true) := by
  refine ⟨?_, fun k hk hne => ?_, ?_, fun k hk => ?_, fsetBit_unchanged s f i true⟩
  · rw [fbit_fsetBit s f true hf hi hi, if_pos rfl]
  · rw [fbit_fsetBit s f true hf hi hk, if_neg hne]
  · exact fget_fset_ne s _ g _ (show f.lo + i + 1 ≤ 32 by omega)
      (.inr (show f.lo + i + 1 ≤ g.lo ∨ g.lo + g.w ≤ f.lo + i by omega))
  · exact rget_fsetBit s f i true fun e => hk (e ▸ List.mem_cons_self)

section doorbell

variable {s : State} {fid q : Nat} (hq : q < 9) (htear : (getFn s fid).teardown = 0) (hwarm : s.rst.warm = none)

include hq htear hwarm

theorem exec_sqDoorbell (tail : Nat) : exec (.sqDoorbell fid q tail) s =
    if (getQp s fid q).mode = 0 ∨ (getQp s fid q).size ≤ tail then .next (fsetBit s (xqF s fid XQ_DBERR_SQ_ERR) q true)
    else .next (modQp s fid q fun p => { p with sqTail := tail, stale := false }) := by
  have harm : exec (.sqDoorbell fid q tail) s = execSqDoorbell fid q tail s := rfl
  rw [harm]
  simp [execSqDoorbell, Nat.not_le.mpr hq, htear, hwarm, dbErr]

/-- The entries a new head releases, as R136 counts them. -/
theorem exec_cqDoorbell (head : Nat) : exec (.cqDoorbell fid q head) s =
    if (getQp s fid q).mode = 0 ∨ (getQp s fid q).size ≤ head ∨
        (getQp s fid q).unread < (head + (getQp s fid q).size - (getQp s fid q).cqHead) % (getQp s fid q).size
      then .next (fsetBit s (xqF s fid XQ_DBERR_CQ_ERR) q true)
    else .next (modQp s fid q fun p => { p with cqHead := head }) := by
  have harm : exec (.cqDoorbell fid q head) s = execCqDoorbell fid q head s := rfl
  rw [harm]
  by_cases beyond : (getQp s fid q).size ≤ head
  · simp [execCqDoorbell, Nat.not_le.mpr hq, htear, hwarm, dbErr, beyond]
  · have ring : max (getQp s fid q).size 1 = (getQp s fid q).size := by omega
    simp [execCqDoorbell, Nat.not_le.mpr hq, htear, hwarm, dbErr, beyond, ring]

/-- An SQ doorbell that R138 discards sets its bit of XQ_DBERR alone. -/
theorem sqDoorbell_discarded {tail : Nat} (hbad : (getQp s fid q).mode = 0 ∨ (getQp s fid q).size ≤ tail) :
    ∃ t, exec (.sqDoorbell fid q tail) s = .next t ∧ fbit t (xqF s fid XQ_DBERR_SQ_ERR) q = true ∧
      (∀ k < 9, k ≠ q → fbit t (xqF s fid XQ_DBERR_SQ_ERR) k = fbit s (xqF s fid XQ_DBERR_SQ_ERR) k) ∧
      fget t (xqF s fid XQ_DBERR_CQ_ERR) = fget s (xqF s fid XQ_DBERR_CQ_ERR) ∧
      RegsBut [(xqF s fid XQ_DBERR_SQ_ERR).off] s t ∧ Unchanged [.regs] s t :=
  ⟨_, (exec_sqDoorbell hq htear hwarm tail).trans (if_pos hbad),
    fsetBit_sets s (f := xqF s fid XQ_DBERR_SQ_ERR) (g := xqF s fid XQ_DBERR_CQ_ERR) (show 0 + 9 ≤ 32 by decide) hq
      (.inl (show 0 + 9 ≤ 16 by decide))⟩

theorem sqDoorbell_taken {tail : Nat} (hmode : (getQp s fid q).mode ≠ 0) (htail : tail < (getQp s fid q).size) :
    exec (.sqDoorbell fid q tail) s = .next (modQp s fid q fun p => { p with sqTail := tail, stale := false }) :=
  (exec_sqDoorbell hq htear hwarm tail).trans (if_neg fun h => h.elim hmode (Nat.not_le.mpr htail))

/-- A CQ doorbell that R138 discards sets its bit of XQ_DBERR alone. -/
theorem cqDoorbell_discarded {head : Nat} (hbad : (getQp s fid q).mode = 0 ∨ (getQp s fid q).size ≤ head ∨
      (getQp s fid q).unread < (head + (getQp s fid q).size - (getQp s fid q).cqHead) % (getQp s fid q).size) :
    ∃ t, exec (.cqDoorbell fid q head) s = .next t ∧ fbit t (xqF s fid XQ_DBERR_CQ_ERR) q = true ∧
      (∀ k < 9, k ≠ q → fbit t (xqF s fid XQ_DBERR_CQ_ERR) k = fbit s (xqF s fid XQ_DBERR_CQ_ERR) k) ∧
      fget t (xqF s fid XQ_DBERR_SQ_ERR) = fget s (xqF s fid XQ_DBERR_SQ_ERR) ∧
      RegsBut [(xqF s fid XQ_DBERR_CQ_ERR).off] s t ∧ Unchanged [.regs] s t :=
  ⟨_, (exec_cqDoorbell hq htear hwarm head).trans (if_pos hbad),
    fsetBit_sets s (f := xqF s fid XQ_DBERR_CQ_ERR) (g := xqF s fid XQ_DBERR_SQ_ERR) (show 16 + 9 ≤ 32 by decide) hq
      (.inr (show 0 + 9 ≤ 16 by decide))⟩

theorem cqDoorbell_taken {head : Nat} (hmode : (getQp s fid q).mode ≠ 0) (hhead : head < (getQp s fid q).size)
    (hread : (head + (getQp s fid q).size - (getQp s fid q).cqHead) % (getQp s fid q).size ≤ (getQp s fid q).unread) :
    exec (.cqDoorbell fid q head) s = .next (modQp s fid q fun p => { p with cqHead := head }) :=
  (exec_cqDoorbell hq htear hwarm head).trans
    (if_neg fun h => h.elim hmode fun h => h.elim (Nat.not_le.mpr hhead) (Nat.not_lt.mpr hread))

end doorbell

/-- Settles O6: a discarded doorbell sets its bit alone; any other one changes its queue alone. -/
theorem discardedDoorbells : Obligations.DiscardedDoorbells := by
  unfold Obligations.DiscardedDoorbells
  intro s fid q v hq htear hwarm
  refine ⟨fun hbad => sqDoorbell_discarded hq htear hwarm hbad, fun hbad => cqDoorbell_discarded hq htear hwarm hbad, ?_⟩
  intro hmode hv
  refine ⟨⟨_, sqDoorbell_taken hq htear hwarm hmode hv, ?_, rfl⟩, fun hread =>
    ⟨_, cqDoorbell_taken hq htear hwarm hmode hv hread, ?_, rfl⟩⟩
  · rw [getQp_modQp_same]
  · rw [getQp_modQp_same]

/-! ## XQ_AQ_CFG (R127, R169) -/

/-- The word of XQ_AQ_CFG of a function. -/
def aqWord (s : State) (fid : Nat) : Nat := xqBase s fid + 0x800

theorem xqF_aqCfg (s : State) (fid lo w : Nat) : xqF s fid ⟨0x800, lo, w⟩ = ⟨aqWord s fid, lo, w⟩ := by
  rw [xqF, aqWord, Nat.add_comm]

theorem aqWord_ge (s : State) (fid : Nat) : 0x200000 ≤ aqWord s fid := Nat.le_add_right_of_le (xqBase_ge s fid)

theorem aqWord_fset (s : State) {f : Fld} (x fid : Nat) (hf : 0x200000 ≤ f.off) : aqWord (fset s f x) fid = aqWord s fid :=
  congrArg (· + 0x800) (xqBase_fset s x fid hf)

/-- XQ_AQ_CFG with the fields of a lawful write stored. -/
def aqStored (s : State) (fid : Nat) (v : Word) : State :=
  let k := aqWord s fid
  fset (fset (fset s ⟨k, 0, 4⟩ (bitsGet v 0 4)) ⟨k, 7, 1⟩ (bitsGet v 7 1)) ⟨k, 8, 6⟩ (bitsGet v 8 6)

/-- XQ_AQ_CFG with the fields of a lawful write stored and EN set. -/
def aqEnabled (s : State) (fid : Nat) (v : Word) : State := fset (aqStored s fid v) ⟨aqWord s fid, 16, 1⟩ 1

section lawful

variable {s : State} {fid : Nat} {v : Word}

theorem aqStored_regsBut : RegsBut [aqWord s fid] s (aqStored s fid v) :=
  regsBut_trans (regsBut_trans (regsBut_fset _ _ List.mem_cons_self) (regsBut_fset _ _ List.mem_cons_self))
    (regsBut_fset _ _ List.mem_cons_self)

theorem xqBase_aqStored : xqBase (aqStored s fid v) fid = xqBase s fid :=
  xqBase_congr (fun k hk => aqStored_regsBut k fun here =>
    Nat.not_le.mpr hk (List.mem_singleton.mp here ▸ aqWord_ge s fid)) fid

theorem aqEnabled_regsBut : RegsBut [aqWord s fid] s (aqEnabled s fid v) :=
  regsBut_trans aqStored_regsBut (regsBut_fset _ _ List.mem_cons_self)

theorem xqBase_aqEnabled : xqBase (aqEnabled s fid v) fid = xqBase s fid :=
  (xqBase_fset _ _ fid (aqWord_ge s fid)).trans xqBase_aqStored

theorem aqEnabled_unchanged : Unchanged [.regs] s (aqEnabled s fid v) :=
  unchanged_trans (unchanged_trans (unchanged_trans (fset_unchanged _ _ _) (fset_unchanged _ _ _))
    (fset_unchanged _ _ _)) (fset_unchanged _ _ _)

theorem aqStore_lawful (hlow : 4 ≤ bitsGet v 0 4) (hhigh : bitsGet v 0 4 ≤ 12) (hvec : fidVf fid = 0 ∨ bitsGet v 8 6 < 8) :
    aqStore s fid v = aqStored s fid v := by
  have vector : ¬(fidVf fid ≠ 0 && 8 ≤ bitsGet v 8 6) = true := by
    simp only [Bool.and_eq_true, decide_eq_true_eq]
    omega
  have sized : (4 ≤ bitsGet v 0 4 && bitsGet v 0 4 ≤ 12) = true := by simp [hlow, hhigh]
  unfold aqStore XQ_AQ_CFG_SIZE_LOG2 XQ_AQ_CFG_IEN XQ_AQ_CFG_VECTOR aqStored
  dsimp only
  rw [if_pos sized, if_neg vector]
  simp only [xqF_aqCfg, aqWord_fset, aqWord_ge]

/-- The fields of XQ_AQ_CFG read as they were written. -/
theorem aqEnabled_fields : fget (aqEnabled s fid v) ⟨aqWord s fid, 16, 1⟩ = 1 ∧
    fget (aqEnabled s fid v) ⟨aqWord s fid, 0, 4⟩ = bitsGet v 0 4 ∧
    fget (aqEnabled s fid v) ⟨aqWord s fid, 8, 6⟩ = bitsGet v 8 6 := by
  have sized : bitsGet v 0 4 < 16 := Nat.mod_lt _ (by decide)
  have vector : bitsGet v 8 6 < 64 := Nat.mod_lt _ (by decide)
  refine ⟨?_, ?_, ?_⟩
  · exact fget_fset_same _ _ _ (by decide : 16 + 1 ≤ 32)
  · unfold aqEnabled aqStored
    simp [fget_fset_ne, fget_fset_same, Nat.mod_eq_of_lt sized]
  · unfold aqEnabled aqStored
    simp [fget_fset_ne, fget_fset_same, Nat.mod_eq_of_lt vector]

/-- The admin pair has the size, vector and bases it is created with, and is ready once the queues are open. -/
theorem createAq_pair (s : State) (fid : Nat) (cfg : Word) (sqb cqb : Nat) :
    getQp (createAq s fid cfg.toNat sqb cqb) fid 0 =
      { mode := if s.jrn.open_ then 2 else 1, size := 2 ^ bitsGet cfg 0 4, ien := bitsGet cfg 7 1 == 1
        vector := bitsGet cfg 8 6, sqBase := sqb, cqBase := cqb } := by
  rw [createAq, getQp_modQp_same, BitVec.ofNat_toNat, BitVec.setWidth_eq]

/-- The function is a VF or the control PF. -/
theorem not_otherPf (hfn : fidVf fid ≠ 0 ∨ fid = ctlFid s) : ¬(fidVf fid = 0 && fid ≠ ctlFid s) = true := by
  simp only [Bool.and_eq_true, decide_eq_true_eq]
  tauto

theorem exec_aqCfgWrite_enables (hfn : fidVf fid ≠ 0 ∨ fid = ctlFid s) (htear : (getFn s fid).teardown = 0)
    (hoff : fget s (xqF s fid XQ_AQ_CFG_EN) = 0) (hmode : (getQp s fid 0).mode ≠ 3) (hen : bitsGet v 16 1 = 1)
    (hlow : 4 ≤ bitsGet v 0 4) (hhigh : bitsGet v 0 4 ≤ 12) (hvec : fidVf fid = 0 ∨ bitsGet v 8 6 < 8) :
    exec (.aqCfgWrite fid v) s = .next (createAq (aqEnabled s fid v) fid
      (rget (aqEnabled s fid v) (aqWord s fid)).toNat (aqBases s fid).1 (aqBases s fid).2) := by
  have harm : exec (.aqCfgWrite fid v) s = execAqCfgWrite fid v s := rfl
  have disabled : bitsGet (rget s (xqBase s fid + 0x800)) 16 1 = 0 := by
    rw [XQ_AQ_CFG_EN, xqF_aqCfg] at hoff
    exact hoff
  have enabled : fset (aqStored s fid v) (xqF (aqStored s fid v) fid XQ_AQ_CFG_EN) 1 = aqEnabled s fid v := by
    rw [XQ_AQ_CFG_EN, xqF_aqCfg, aqWord, xqBase_aqStored]
    rfl
  have mode : (getQp (aqEnabled s fid v) fid 0).mode ≠ 3 := hmode
  rw [harm, execAqCfgWrite]
  dsimp only
  rw [if_neg (not_otherPf hfn), if_neg (by omega), if_neg (by omega), if_neg (by omega), aqStore_lawful hlow hhigh hvec, enabled,
    if_neg mode, xqBase_aqEnabled]
  rfl

/-- The admin pair is created as it was written (R127). -/
theorem aqCfgWrite_creates (hfn : fidVf fid ≠ 0 ∨ fid = ctlFid s) (htear : (getFn s fid).teardown = 0)
    (hoff : fget s (xqF s fid XQ_AQ_CFG_EN) = 0) (hmode : (getQp s fid 0).mode ≠ 3) (hen : bitsGet v 16 1 = 1)
    (hlow : 4 ≤ bitsGet v 0 4) (hhigh : bitsGet v 0 4 ≤ 12) (hvec : fidVf fid = 0 ∨ bitsGet v 8 6 < 8) :
    ∃ t, exec (.aqCfgWrite fid v) s = .next t ∧ fget t (xqF s fid XQ_AQ_CFG_EN) = 1 ∧
      (getQp t fid 0).size = 2 ^ bitsGet v 0 4 ∧ (getQp t fid 0).vector = bitsGet v 8 6 ∧
      (getQp t fid 0).sqBase = (aqBases s fid).1 ∧ (getQp t fid 0).cqBase = (aqBases s fid).2 ∧
      (getQp t fid 0).mode = (if s.jrn.open_ then 2 else 1) ∧ RegsBut [xqBase s fid + 0x800] s t ∧
      Unchanged [.regs, .qps] s t := by
  obtain ⟨en, size, vector⟩ := aqEnabled_fields (s := s) (fid := fid) (v := v)
  have pair := createAq_pair (aqEnabled s fid v) fid (rget (aqEnabled s fid v) (aqWord s fid)) (aqBases s fid).1
    (aqBases s fid).2
  refine ⟨_, exec_aqCfgWrite_enables hfn htear hoff hmode hen hlow hhigh hvec, ?_, ?_, ?_, ?_, ?_, ?_,
    aqEnabled_regsBut, unchanged_trans (unchanged_mono aqEnabled_unchanged (by decide))
      (unchanged_mono (modQp_unchanged _ fid 0 _) (by decide))⟩
  · rw [XQ_AQ_CFG_EN, xqF_aqCfg]
    exact en
  · rw [pair]
    exact congrArg (2 ^ ·) size
  · rw [pair]
    exact vector
  · rw [pair]
  · rw [pair]
  · rw [pair]
    rfl

/-- EN 0 with no I/O pair and nothing in flight deletes the admin pair (R127). -/
theorem aqCfgWrite_deletes (hfn : fidVf fid ≠ 0 ∨ fid = ctlFid s) (htear : (getFn s fid).teardown = 0)
    (hon : fget s (xqF s fid XQ_AQ_CFG_EN) = 1) (hen : bitsGet v 16 1 = 0)
    (hsame : bitsGet v 0 14 = bitsGet (rget s (xqBase s fid + 0x800)) 0 14) (hio : hasIoPair s fid = false)
    (hbusy : qpBusyCmds s fid 0 = false) :
    ∃ t, exec (.aqCfgWrite fid v) s = .next t ∧ getQp t fid 0 = {} ∧ fget t (xqF s fid XQ_AQ_CFG_EN) = 0 ∧
      RegsBut [xqBase s fid + 0x800] s t := by
  have harm : exec (.aqCfgWrite fid v) s = execAqCfgWrite fid v s := rfl
  have enabled : bitsGet (rget s (xqBase s fid + 0x800)) 16 1 = 1 := by
    rw [XQ_AQ_CFG_EN, xqF_aqCfg] at hon
    exact hon
  generalize deleting : modQp (fset s (xqF s fid XQ_AQ_CFG_EN) 0) fid 0
    (fun p => { p with mode := 3, fetching := 0, latchEn := false }) = u
  have pair : (getQp u fid 0).mode = 3 ∧ (getQp u fid 0).latchEn = false := by
    rw [← deleting, getQp_modQp_same]
    exact ⟨rfl, rfl⟩
  obtain ⟨mode, latch⟩ := pair
  have cmds : u.cmds = s.cmds := by rw [← deleting]; rfl
  have idle : ∀ e ∈ u.cmds, (e.2.fid == fid && e.2.q == 0) = false := by
    rw [cmds]
    exact fun e he => Bool.eq_false_iff.mpr (List.any_eq_false.mp hbusy e he)
  have drops : finishDelete u fid 0 = dropQp u fid 0 := finishDelete_drops mode (by rw [qpBusyCmds, cmds]; exact hbusy)
    (by rw [← deleting]; exact htear) (.inr latch)
  have regs (k : Nat) : rget (dropQp u fid 0) k = rget (fset s (xqF s fid XQ_AQ_CFG_EN) 0) k := by
    rw [← deleting]; rfl
  have run : exec (.aqCfgWrite fid v) s = .next (dropQp u fid 0) := by
    rw [harm, execAqCfgWrite]
    dsimp only
    rw [if_neg (not_otherPf hfn), if_neg (by omega), if_pos enabled, if_pos hsame, if_neg (by omega),
      if_neg (hio ▸ Bool.false_ne_true), deleting, settleWhere_none idle, drops]
  refine ⟨_, run, ?_, ?_, fun k hk => ?_⟩
  · rw [getQp_dropQp, if_pos rfl]
  · rw [fget_congr (regs _)]
    exact fget_fset_same _ _ _ (show 16 + 1 ≤ 32 by decide)
  · rw [regs, XQ_AQ_CFG_EN, xqF_aqCfg]
    exact rget_fset s _ _ k fun e => hk (e ▸ List.mem_cons_self)

/-- During a teardown a write with EN 1 is latched (R118). -/
theorem aqCfgWrite_latched (hfn : fidVf fid ≠ 0 ∨ fid = ctlFid s) (htear : 0 < (getFn s fid).teardown)
    (hen : bitsGet v 16 1 = 1) :
    ∃ t, exec (.aqCfgWrite fid v) s = .next t ∧
      (getFn t fid).latchAq = some (v.toNat % 0x10000 + 0x10000, (aqBases s fid).1, (aqBases s fid).2) ∧
      Unchanged [.fns] s t := by
  have harm : exec (.aqCfgWrite fid v) s = execAqCfgWrite fid v s := rfl
  rw [execAqCfgWrite] at harm
  dsimp only at harm
  rw [if_neg (not_otherPf hfn), if_pos htear, if_pos hen] at harm
  refine ⟨_, harm, ?_, modFn_unchanged s _ _⟩
  rw [getFn_modFn_same]

end lawful

/-! ## The statement on doorbells and the admin queue -/

/-- Settles O20: the doorbells by their outcome, then XQ_AQ_CFG by what its write does. -/
theorem doorbellsAndAdminQueue : Obligations.DoorbellsAndAdminQueue := by
  unfold Obligations.DoorbellsAndAdminQueue
  refine ⟨?_, ?_, ?_, ?_, ?_, ?_, ?_⟩
  · intro s fid q tail hq htear hwarm hmode htail
    exact ⟨_, sqDoorbell_taken hq htear hwarm hmode htail, getQp_modQp_same s fid q _,
      fun f r _ hne => getQp_modQp_other s _ hne, modQp_unchanged s fid q _⟩
  · intro s fid q tail hq htear hwarm hbad
    obtain ⟨t, run, bit, -, -, regs, frame⟩ := sqDoorbell_discarded hq htear hwarm hbad
    exact ⟨t, run, bit, regs, frame⟩
  · intro s fid q head hq htear hwarm hmode hhead hread
    exact ⟨_, cqDoorbell_taken hq htear hwarm hmode hhead hread, getQp_modQp_same s fid q _, modQp_unchanged s fid q _⟩
  · intro s fid q head hq htear hwarm hbad
    obtain ⟨t, run, bit, -, -, regs, frame⟩ :=
      cqDoorbell_discarded hq htear hwarm (hbad.imp_right Or.inl)
    exact ⟨t, run, bit, regs, frame⟩
  · intro s fid v hfn htear hoff hmode hen hlow hhigh hvec
    exact aqCfgWrite_creates hfn htear hoff hmode hen hlow hhigh hvec
  · intro s fid v hfn htear hon hen hsame hio hbusy
    exact aqCfgWrite_deletes hfn htear hon hen hsame hio hbusy
  · intro s fid v hfn htear hen
    exact aqCfgWrite_latched hfn htear hen

end Sys2Proof.Laws
end

section
/-!
PROOFS. The statement of 05_queues_and_journal.md on the fetch and acceptance of submission entries (R137, R153, R155, R162,
R163) and on XQ_RESUME (R158, R159). The lemmas in front of it serve every later proof about queues: what a journal entry
and a completion entry leave unchanged, and what the journal holds once an entry is final.
-/

namespace Sys2Proof.Laws

open Sys2Proof.Machine

theorem getFn_congr {s t : State} (h : t.fns = s.fns) (fid : Nat) : getFn t fid = getFn s fid := by
  rw [getFn, getFn, h]

/-! ## The journal (R162 to R165) -/

theorem setJrn_unchanged (s : State) (j : Journal) : Unchanged [.jrn] s { s with jrn := j } := by
  intro part hpart
  cases part with
  | jrn => exact absurd List.mem_cons_self hpart
  | _ => rfl

theorem modJrn_unchanged (s : State) (f : Journal → Journal) : Unchanged [.jrn] s (modJrn s f) := setJrn_unchanged s _

theorem jrnPut_unchanged (s : State) (e : JrnEntry) : Unchanged [.jrn] s (jrnPut s e) := modJrn_unchanged s _

theorem jrnDrain_unchanged (es : List JrnEntry) (s : State) : Unchanged [.jrn] s (jrnDrain s es) := by
  induction es generalizing s with
  | nil => exact modJrn_unchanged s _
  | cons e es ih =>
    unfold jrnDrain
    split
    · exact unchanged_trans (jrnPut_unchanged s e) (ih _)
    · exact modJrn_unchanged s _

theorem jrnMarker_unchanged (s : State) (code tenant nsid slba : Nat) :
    Unchanged [.jrn] s (jrnMarker s code tenant nsid slba) := jrnDrain_unchanged _ s

theorem jrnFinal_unchanged (s : State) (seq status : Nat) : Unchanged [.jrn] s (jrnFinal s seq status) :=
  modJrn_unchanged s _

/-- The entry that is written stands in its slot, and the next SEQ rises. -/
theorem jrnPut_holds (s : State) (e : JrnEntry) : (jrnPut s e).jrn.next = s.jrn.next + 1 ∧
    tget {} (jrnPut s e).jrn.ring (jrnSlot s.jrn.next) =
      { e with seq := s.jrn.next, boot := s.tb.boot % 65536, saved := false } :=
  ⟨rfl, (tget_tset _ _ _ _ _).trans (if_pos rfl)⟩

/-- An entry held in its ring slot takes its final state there; no SEQ is issued. -/
theorem jrnFinal_holds {s : State} {seq : Nat} (status : Nat) (hseq : (tget {} s.jrn.ring (jrnSlot seq)).seq = seq)
    (hstate : (tget {} s.jrn.ring (jrnSlot seq)).state ≠ 0) : (jrnFinal s seq status).jrn.next = s.jrn.next ∧
      tget {} (jrnFinal s seq status).jrn.ring (jrnSlot seq) =
        { tget {} s.jrn.ring (jrnSlot seq) with
          state := if status = 0 then 2 else 3, status := status, saved := false } := by
  simp [jrnFinal, modJrn, hseq, hstate]

/-! ## Requests on a function's behalf (R121) -/

theorem hostGet_unchanged (s : State) (fid addr len : Nat) : Unchanged [.out] s (hostGet s fid addr len) :=
  unchanged_foldl (fun t _ => emit_unchanged t _) _ s

theorem hostPut_unchanged (s : State) (fid addr : Nat) (data : List Byte) : Unchanged [.out] s (hostPut s fid addr data) :=
  unchanged_foldl (fun t _ => emit_unchanged t _) _ s

/-! ## XQ_RESUME (R158, R159) -/

theorem getQp_resumeResult (s : State) (g r fid q : Nat) : getQp (resumeResult s g r) fid q = getQp s fid q := rfl

/-- The result of XQ_RESUME_STAT reads as it was set. -/
theorem resumeResult_shows (s : State) (fid : Nat) {r : Nat} (hr : r < 8) :
    fget (resumeResult s fid r) (xqF s fid XQ_RESUME_STAT_RESULT) = r :=
  (fget_fset_same s _ r (show 0 + 3 ≤ 32 by decide)).trans (Nat.mod_eq_of_lt hr)

/-- A pair after an action: 1 NEXT, 2 SKIP of `n` entries, 3 RESET. -/
def resumed (p : QPair) (act n : Nat) : QPair :=
  let p := { p with frozen := false, resume := none }
  if act = 2 then p.skip n
  else if act = 3 then
    { p with sqHead := 0, sqTail := 0, cqHead := 0, cqTail := 0, sqPhase := true, cqPhase := true, stale := false }
  else p

/-- An action that is applied leaves the pair as `resumed` says, with result DONE. -/
theorem resumeApply_done (s : State) (fid q : Nat) {act n : Nat} (hskip : act = 2 → n ≤ (getQp s fid q).waiting) :
    getQp (resumeApply s fid q act n) fid q = resumed (getQp s fid q) act n ∧
      fget (resumeApply s fid q act n) (xqF s fid XQ_RESUME_STAT_RESULT) = 1 := by
  have possible : ¬(act = 2 && (getQp s fid q).waiting < n) = true := by
    simp only [Bool.and_eq_true, decide_eq_true_eq]
    exact fun h => Nat.not_lt.mpr (hskip h.1) h.2
  generalize hu : modQp s fid q (fun p => resumed p act n) = u
  generalize hw : fset u ⟨xqBase u fid + 0x2004 + 0x20 * q, 24, 1⟩ 0 = w
  generalize hm : jrnMarker w 0x03 (tenantOf w fid) q (q + act * 16 + n * 65536) = m
  have run : resumeApply s fid q act n = resumeResult m fid 1 := by
    rw [resumeApply]
    dsimp only
    rw [if_neg possible, ← hm, ← hw, ← hu]
    rfl
  have marked : Unchanged [.jrn] w m := hm ▸ jrnMarker_unchanged w _ _ _ _
  have base : xqBase m fid = xqBase s fid := by
    have moved : xqBase m fid = xqBase w fid := xqBase_congr (fun k _ => by rw [rget, rget, marked .regs (by decide)]) fid
    have above : 0x200000 ≤ xqBase u fid + 0x2004 + 0x20 * q := by have := xqBase_ge u fid; omega
    rw [moved, ← hw, xqBase_fset u 0 fid above, ← hu]
    rfl
  rw [run]
  constructor
  · rw [getQp_resumeResult, getQp_congr (marked .qps (by decide)), ← hw,
      getQp_congr (fset_unchanged u _ _ .qps (by decide)), ← hu, getQp_modQp_same]
  · have place : xqF s fid XQ_RESUME_STAT_RESULT = xqF m fid XQ_RESUME_STAT_RESULT := by rw [xqF, xqF, base]
    rw [place]
    exact resumeResult_shows m fid (by decide)

/-- A write of XQ_RESUME for a pair that exists, outside SAFE and BALLAST. -/
theorem resumeWrite_ready {s : State} {fid q : Nat} (hq : q < 9) (hsafe : s.phase ≠ .safe) (hballast : s.phase ≠ .ballast)
    (hmode : (getQp s fid q).mode ≠ 0) (hdeleting : (getQp s fid q).mode ≠ 3) {act n : Nat} (hact : act = 2 → 0 < n) :
    resumeWrite s fid q act n =
      if (getQp s fid q).frozen = false then resumeResult s fid 3
      else if 0 < (getQp s fid q).out ∨ 0 < (getQp s fid q).fetching then
        resumeResult (modQp s fid q fun p => { p with resume := some (act, n, 0) }) fid 2
      else resumeApply s fid q act n := by
  have legal : ¬(9 ≤ q || act = 2 && n = 0) = true := by
    simp only [Bool.or_eq_true, Bool.and_eq_true, decide_eq_true_eq]
    omega
  simp [resumeWrite, legal, hsafe, hballast, hmode, hdeleting]

/-- An action on a frozen pair with nothing outstanding is applied at once. -/
theorem resumeWrite_applies {s : State} {fid q : Nat} (hq : q < 9) (hsafe : s.phase ≠ .safe) (hballast : s.phase ≠ .ballast)
    (hmode : (getQp s fid q).mode ≠ 0) (hdeleting : (getQp s fid q).mode ≠ 3) (hfrozen : (getQp s fid q).frozen = true)
    (hout : (getQp s fid q).out = 0) (hfetching : (getQp s fid q).fetching = 0) {act n : Nat}
    (hskip : act = 2 → 0 < n ∧ n ≤ (getQp s fid q).waiting) :
    getQp (resumeWrite s fid q act n) fid q = resumed (getQp s fid q) act n ∧
      fget (resumeWrite s fid q act n) (xqF s fid XQ_RESUME_STAT_RESULT) = 1 := by
  rw [resumeWrite_ready hq hsafe hballast hmode hdeleting fun h => (hskip h).1, if_neg (hfrozen ▸ Bool.noConfusion),
    if_neg (by omega)]
  exact resumeApply_done s fid q fun h => (hskip h).2

/-- With commands outstanding the action is latched with result PENDING. -/
theorem resumeWrite_latches {s : State} {fid q : Nat} (hq : q < 9) (hsafe : s.phase ≠ .safe) (hballast : s.phase ≠ .ballast)
    (hmode : (getQp s fid q).mode ≠ 0) (hdeleting : (getQp s fid q).mode ≠ 3) (hfrozen : (getQp s fid q).frozen = true)
    (hout : 0 < (getQp s fid q).out) : ∃ t, exec (.xqResumeNext fid q) s = .next t ∧
      (getQp t fid q).resume = some (1, 0, 0) ∧ (getQp t fid q).frozen = true ∧
      fget t (xqF s fid XQ_RESUME_STAT_RESULT) = 2 ∧ Unchanged [.qps, .regs] s t := by
  have run : exec (.xqResumeNext fid q) s = .next (resumeWrite s fid q 1 0) := rfl
  rw [resumeWrite_ready hq hsafe hballast hmode hdeleting (fun h => absurd h (by decide)),
    if_neg (hfrozen ▸ Bool.noConfusion), if_pos (.inl hout)] at run
  have pair := getQp_modQp_same s fid q fun p => { p with resume := some (1, 0, 0) }
  refine ⟨_, run, ?_, ?_, resumeResult_shows _ fid (by decide), unchanged_trans
    (unchanged_mono (modQp_unchanged s fid q _) (by decide)) (unchanged_mono (fset_unchanged _ _ _) (by decide))⟩
  · exact congrArg QPair.resume pair
  · exact (congrArg QPair.frozen pair).trans hfrozen

/-- A pair that is not frozen answers NOT_FROZEN. -/
theorem resumeWrite_notFrozen {s : State} {fid q : Nat} (hq : q < 9) (hsafe : s.phase ≠ .safe)
    (hballast : s.phase ≠ .ballast) (hmode : (getQp s fid q).mode ≠ 0) (hdeleting : (getQp s fid q).mode ≠ 3)
    (hfrozen : (getQp s fid q).frozen = false) : ∃ t, exec (.xqResumeReset fid q) s = .next t ∧
      fget t (xqF s fid XQ_RESUME_STAT_RESULT) = 3 ∧ Unchanged [.regs] s t := by
  have run : exec (.xqResumeReset fid q) s = .next (resumeWrite s fid q 3 0) := rfl
  rw [resumeWrite_ready hq hsafe hballast hmode hdeleting (fun h => absurd h (by decide)), if_pos hfrozen] at run
  exact ⟨_, run, resumeResult_shows s fid (by decide), fset_unchanged s _ _⟩

/-- RESUME_APPLY does a latched NEXT once nothing is outstanding. -/
theorem exec_resumeApply_next {s : State} {fid q : Nat} (hsafe : s.phase ≠ .safe) (hballast : s.phase ≠ .ballast)
    (hout : (getQp s fid q).out = 0) (hfetching : (getQp s fid q).fetching = 0)
    (hlatch : (getQp s fid q).resume = some (1, 0, 0)) :
    exec (.resumeApply fid q) s = .next (resumeApply s fid q 1 0) := by
  have harm : exec (.resumeApply fid q) s = execResumeApply fid q s := rfl
  rw [harm]
  simp [execResumeApply, hlatch, hout, hfetching, hsafe, hballast]

/-! ## SQE_FETCH (R137) -/

/-- The read of the entries that SQE_FETCH takes from a pair. -/
def entriesAsked (s : State) (fid q : Nat) : State :=
  hostGet s fid ((getQp s fid q).sqBase + entryBytes s fid q * (getQp s fid q).sqHead)
    (entryBytes s fid q * fetchable s fid q)

theorem exec_sqeFetch {s : State} {fid q : Nat} (h : selectQueue s fid = some q) : exec (.sqeFetch fid) s =
    .next (modFn (modQp (entriesAsked s fid q) fid q fun p => { p with fetching := fetchable s fid q }) fid
      fun f => { f with rr := q }) := by
  have harm : exec (.sqeFetch fid) s = execSqeFetch fid s := rfl
  rw [harm]
  unfold execSqeFetch
  simp only [h]
  rfl

theorem getQp_modFn (s : State) (g : Nat) (f : FnState → FnState) (fid q : Nat) :
    getQp (modFn s g f) fid q = getQp s fid q := rfl

theorem sqeFetch_waits {s : State} {fid q : Nat} (h : selectQueue s fid = some q) :
    ∃ t, exec (.sqeFetch fid) s = .next t ∧ (getQp t fid q).fetching = fetchable s fid q ∧
      (getQp t fid q).sqHead = (getQp s fid q).sqHead ∧ (getFn t fid).rr = q ∧ Unchanged [.out, .qps, .fns] s t := by
  have asked : Unchanged [.out] s (entriesAsked s fid q) := hostGet_unchanged s fid _ _
  refine ⟨_, exec_sqeFetch h, ?_, ?_, ?_, unchanged_trans (unchanged_mono asked (by decide))
    (unchanged_trans (unchanged_mono (modQp_unchanged _ fid q _) (by decide))
      (unchanged_mono (modFn_unchanged _ fid _) (by decide)))⟩
  · rw [getQp_modFn, getQp_modQp_same]
  · rw [getQp_modFn, getQp_modQp_same, getQp_congr (asked .qps (by decide))]
  · rw [getFn_modFn_same]

/-! ## Completion entries (R134, R135, R158) -/

theorem msixSend_unchanged (s : State) (fid vec : Nat) : Unchanged [.fns, .out] s (msixSend s fid vec) := by
  unfold msixSend
  dsimp only
  split
  · exact unchanged_refl _ s
  · split
    · exact unchanged_mono (modFn_unchanged s fid _) (by decide)
    · exact unchanged_mono (emit_unchanged s _) (by decide)

/-- A failure touches the queue and its error record. -/
theorem logFailure_unchanged (s : State) (fid q : Nat) (ws : List Nat) :
    Unchanged [.regs, .qps] s (logFailure s fid q ws) := by
  unfold logFailure
  dsimp only
  split
  · exact unchanged_mono (fset_unchanged s _ _) (by decide)
  · exact unchanged_trans (unchanged_mono (unchanged_foldl (fun t _ => rset_unchanged t _ _) _ s) (by decide))
      (unchanged_mono (modQp_unchanged _ fid q _) (by decide))

/-- A failure freezes its queue. -/
theorem getQp_logFailure (s : State) (fid q : Nat) (ws : List Nat) : (getQp (logFailure s fid q ws) fid q).frozen = true ∧
    (getQp (logFailure s fid q ws) fid q).mode = (getQp s fid q).mode := by
  unfold logFailure
  dsimp only
  split
  case isTrue h => exact ⟨h, rfl⟩
  case isFalse =>
    have recorded (l : List Nat) (g : Nat → Nat) (v : Nat → Word) :
        (l.foldl (fun s i => rset s (g i) (v i)) s).qps = s.qps :=
      unchanged_foldl (fun t i => rset_unchanged t (g i) (v i)) l s .qps (by decide)
    rw [getQp_modQp_same, getQp_congr (recorded _ _ _)]
    exact ⟨rfl, rfl⟩

/-- A failed completion: the entry is written with its status and result, and the queue is frozen. -/
theorem postCqe_fails (s : State) (fid q cid result : Nat) {status : Nat} (hstatus : status ≠ 0) (ws : List Nat) :
    (∃ hd fr ph, Out.cqe fid q cid status hd fr ph result ∈ (postCqe s fid q cid status result ws).out) ∧
      (getQp (postCqe s fid q cid status result ws) fid q).frozen = true ∧
      (getQp (postCqe s fid q cid status result ws) fid q).mode = (getQp s fid q).mode ∧
      Unchanged [.regs, .qps, .out, .fns] s (postCqe s fid q cid status result ws) := by
  obtain ⟨frozen, mode⟩ := getQp_logFailure s fid q ws
  have logged := logFailure_unchanged s fid q ws
  unfold postCqe
  extract_lets failed p written moved
  have same : failed = logFailure s fid q ws := if_neg hstatus
  rw [← same] at frozen mode logged
  have sent : Out.cqe fid q cid status (if p.frozen then p.freezeHead else p.sqHead) p.frozen p.cqPhase result ∈
    moved.out := List.mem_cons_self
  have pair : (getQp moved fid q).frozen = true ∧ (getQp moved fid q).mode = (getQp s fid q).mode := by
    rw [getQp_modQp_same]
    exact ⟨frozen, mode⟩
  have frame : Unchanged [.regs, .qps, .out, .fns] s moved :=
    unchanged_trans (unchanged_mono logged (by decide)) (unchanged_trans (unchanged_mono (emit_unchanged failed _) (by decide))
      (unchanged_mono (modQp_unchanged written fid q _) (by decide)))
  split
  · have told := msixSend_unchanged moved fid p.vector
    have grown := ((OutGrows.refl moved).after_msixSend fid p.vector).kept
    rw [getQp_congr (told .qps (by decide))]
    exact ⟨⟨_, _, _, grown sent⟩, pair.1, pair.2, unchanged_trans frame (unchanged_mono told (by decide))⟩
  · exact ⟨⟨_, _, _, sent⟩, pair.1, pair.2, frame⟩

/-! ## Acceptance (R137, R153, R155, R162) -/

/-- One entry that a fetch brought to an I/O pair in the v2 form, with the expected PHASE, while the journal has room and
nothing of its tenant must take effect first. -/
structure Acceptable (s : State) (fid q : Nat) (e : Sqe) : Prop where
  awaited : (getQp s fid q).fetching = 1
  ready : (getQp s fid q).mode = 2
  fresh : ((e.flags / 128 % 2 == 1) == (getQp s fid q).sqPhase) = true
  room : jrnRoom s = true
  markers : s.jrn.waiting = []
  io : q ≠ 0
  control : controlPending s (tenantOf s fid) = false
  v2 : (getQp s fid q).v2 = true

/-- A pair after a fetch of `n` entries of which `k` are fresh. -/
def fetchedPair (p : QPair) (k n : Nat) : QPair :=
  { p.skip k with out := p.out + k, fetching := 0, stale := p.stale || decide (k < n) }

/-- The state in which the entries of a fetch are accepted. -/
def fetchHeld (s : State) (fid q k n : Nat) : State := modQp s fid q fun p => fetchedPair p k n

theorem exec_sqeFetched {s : State} {fid q : Nat} {es : List Sqe} (hsome : 0 < es.length)
    (hawaited : (getQp s fid q).fetching = es.length) (hready : (getQp s fid q).mode = 2) :
    exec (.sqeFetched fid q es) s = .next ((acceptAll
      (fetchHeld s fid q (freshPrefix (getQp s fid q).sqPhase es).length es.length) fid q (getQp s fid q).sqHead
      (freshPrefix (getQp s fid q).sqPhase es)).getD s) := by
  have harm : exec (.sqeFetched fid q es) s = execSqeFetched fid q es s := rfl
  have taken : ¬((getQp s fid q).fetching = 0 || es.length ≠ (getQp s fid q).fetching || (getQp s fid q).mode ≠ 2) =
      true := by
    simp only [Bool.or_eq_true, decide_eq_true_eq]
    omega
  rw [harm]
  unfold execSqeFetched
  dsimp only
  rw [if_neg taken]
  unfold fetchHeld fetchedPair
  split
  case h_1 h => rw [h]; rfl
  case h_2 h => rw [h]; rfl

/-- The command of an accepted I/O entry of a v2 pair. -/
def ioCmd (s : State) (fid q i : Nat) (e : Sqe) : Cmd :=
  let status := ioStatus s (tenantOf s fid) e true
  { fid := fid, q := q, index := i, tenant := tenantOf s fid, sqe := e, admin := false, v2 := true
    cls := if e.qos = 0 then (getQp s fid q).qos else e.qos - 1, result := s.jrn.next % 2 ^ 32
    done := if status = 0 then none else some status }

/-- The entry in the journal, its list of segments asked for. -/
def ioEntered (s : State) (fid q : Nat) (e : Sqe) : State :=
  let s' := jrnPut s (jrnOf (tenantOf s fid) q false e (ioStatus s (tenantOf s fid) e true))
  if e.list then hostGet s' fid e.buf0 (16 * e.segs.length) else s'

theorem ioEntered_unchanged (s : State) (fid q : Nat) (e : Sqe) : Unchanged [.jrn, .out] s (ioEntered s fid q e) := by
  have put := unchanged_mono (many := [.jrn, .out]) (jrnPut_unchanged s
    (jrnOf (tenantOf s fid) q false e (ioStatus s (tenantOf s fid) e true))) (by decide)
  unfold ioEntered
  dsimp only
  split
  · exact unchanged_trans put (unchanged_mono (hostGet_unchanged _ fid _ _) (by decide))
  · exact put

/-- The entry stands in the journal under the SEQ it was given. -/
theorem ioEntered_holds (s : State) (fid q : Nat) (e : Sqe) : (ioEntered s fid q e).jrn.next = s.jrn.next + 1 ∧
    tget {} (ioEntered s fid q e).jrn.ring (jrnSlot s.jrn.next) =
      { jrnOf (tenantOf s fid) q false e (ioStatus s (tenantOf s fid) e true) with
        seq := s.jrn.next, boot := s.tb.boot % 65536, saved := false } := by
  have put := jrnPut_holds s (jrnOf (tenantOf s fid) q false e (ioStatus s (tenantOf s fid) e true))
  unfold ioEntered
  dsimp only
  split
  · rw [hostGet_unchanged _ fid _ _ .jrn (by decide)]
    exact put
  · exact put

/-- An entry of an I/O pair is entered; with a failed check and completions allowed it ends at once. -/
theorem acceptOne_io {s : State} {fid q : Nat} (i : Nat) {e : Sqe} (room : jrnRoom s = true) (markers : s.jrn.waiting = [])
    (io : q ≠ 0) (control : controlPending s (tenantOf s fid) = false) (v2 : (getQp s fid q).v2 = true) :
    acceptOne s fid q i e =
      if ioStatus s (tenantOf s fid) e true ≠ 0 && (getFn s fid).live
        then some (finishCmd (ioEntered s fid q e) s.jrn.next (ioCmd s fid q i e) (ioStatus s (tenantOf s fid) e true))
      else some (putCmd (ioEntered s fid q e) s.jrn.next (ioCmd s fid q i e)) := by
  have fn : getFn (ioEntered s fid q e) fid = getFn s fid :=
    getFn_congr (ioEntered_unchanged s fid q e .fns (by decide)) fid
  have pair : (q == 0) = false := beq_eq_false_iff_ne.mpr io
  have goes : ¬(!jrnRoom s || !s.jrn.waiting.isEmpty || !false && controlPending s (tenantOf s fid)) = true := by
    simp [room, markers, control]
  rw [← fn]
  unfold acceptOne
  simp only [pair, if_neg goes, v2, Bool.false_or, Bool.false_eq_true, if_false, if_true]
  unfold ioEntered ioCmd
  simp only [Bool.not_false, Bool.true_and]

/-! ## The end of a failed command (R135, R158, R164) -/

/-- Looking up a key after its entry was removed. -/
theorem find_tdel {α : Type} (t : Tbl α) (n m : Nat) : ((tdel t n).find? (·.1 == m)).map (·.2) =
    if m = n then none else (t.find? (·.1 == m)).map (·.2) := by
  have found (k : Nat) (x : α) (l : Tbl α) : (((k, x) :: l).find? (·.1 == m)).map (·.2) =
      if m = k then some x else (l.find? (·.1 == m)).map (·.2) := by
    rw [List.find?_cons]
    by_cases h : m = k
    · simp [h]
    · rw [if_neg h, beq_eq_false_iff_ne.mpr (Ne.symm h)]
  induction t with
  | nil => exact (ite_self none).symm
  | cons e t ih =>
    obtain ⟨k, x⟩ := e
    rw [tdel]
    split
    case isTrue hk =>
      subst hk
      rw [ih, found]
      split <;> rfl
    case isFalse hk =>
      rw [found, found, ih]
      split
      case isTrue hm => rw [if_neg (hm ▸ Ne.symm hk)]
      case isFalse => rfl

/-- Storing the default removes an entry. -/
theorem tset_default {α : Type} [DecidableEq α] (d : α) (t : Tbl α) (n : Nat) : tset d t n d = tdel t n := by
  induction t with
  | nil => simp [tset, tdel]
  | cons e t ih =>
    obtain ⟨k, x⟩ := e
    rw [tset, tdel]
    by_cases hk : n = k
    · simp [hk]
    · simp [hk, ih]

/-- A command out of flight is gone, and every other one stays. -/
theorem getCmd_dropCmd (s : State) (n m : Nat) : getCmd (dropCmd s n) m = if m = n then none else getCmd s m := by
  rw [getCmd, dropCmd, tset_default, find_tdel]
  rfl

theorem dropCmd_unchanged (s : State) (n : Nat) : Unchanged [.cmds] s (dropCmd s n) := setCmds_unchanged s _

/-- A command that ends with a failure: it leaves flight, its completion is written, its queue is frozen, and its journal
entry is FAILED with the status. -/
theorem finishCmd_fails {s : State} {seq status : Nat} {c : Cmd} (hstatus : status ≠ 0) (hcqe : c.noCqe = false)
    (hmode : (getQp s c.fid c.q).mode ≠ 3) (hseq : (tget {} s.jrn.ring (jrnSlot seq)).seq = seq)
    (hstate : (tget {} s.jrn.ring (jrnSlot seq)).state ≠ 0) :
    getCmd (finishCmd s seq c status) seq = none ∧
      (∃ hd fr ph, Out.cqe c.fid c.q c.sqe.cid status hd fr ph c.result ∈ (finishCmd s seq c status).out) ∧
      (getQp (finishCmd s seq c status) c.fid c.q).frozen = true ∧ (finishCmd s seq c status).jrn.next = s.jrn.next ∧
      (tget {} (finishCmd s seq c status).jrn.ring (jrnSlot seq)).state = 3 ∧
      (tget {} (finishCmd s seq c status).jrn.ring (jrnSlot seq)).status = status := by
  obtain ⟨next, entry⟩ := jrnFinal_holds status hseq hstate
  generalize hu : modQp (jrnFinal s seq status) c.fid c.q (fun p => { p with out := p.out - 1 }) = u
  obtain ⟨sent, frozen, mode, frame⟩ :=
    postCqe_fails u c.fid c.q c.sqe.cid c.result hstatus (errWords c seq status)
  generalize hw : postCqe u c.fid c.q c.sqe.cid status c.result (errWords c seq status) = w at sent frozen mode frame
  have modeU : (getQp u c.fid c.q).mode = (getQp s c.fid c.q).mode := by
    rw [← hu, getQp_modQp_same, getQp_congr (jrnFinal_unchanged s seq status .qps (by decide))]
  have stays : finishDelete (dropCmd w seq) c.fid c.q = dropCmd w seq :=
    finishDelete_stays (show (getQp w c.fid c.q).mode ≠ 3 by rw [mode, modeU]; exact hmode)
  have run : finishCmd s seq c status = dropCmd w seq := by
    unfold finishCmd
    simp only [hcqe, Bool.false_eq_true, if_false, hu, hw, stays]
  have jrn : w.jrn = (jrnFinal s seq status).jrn := by
    rw [frame .jrn (by decide), ← hu]
    rfl
  rw [run, getCmd_dropCmd, if_pos rfl]
  refine ⟨rfl, sent, frozen, ?_, ?_, ?_⟩
  · exact (congrArg Journal.next jrn).trans next
  · rw [show (dropCmd w seq).jrn = _ from jrn, entry]
    exact if_neg hstatus
  · rw [show (dropCmd w seq).jrn = _ from jrn, entry]

/-! ## SQE_FETCHED (R137, R153, R155, R162, R163) -/

/-- Accepting the one fresh entry of a fetch. -/
theorem exec_sqeFetched_one {s : State} {fid q : Nat} {e : Sqe} (h : Acceptable s fid q e) :
    exec (.sqeFetched fid q [e]) s = .next ((acceptOne (fetchHeld s fid q 1 1) fid q (getQp s fid q).sqHead e).getD s) := by
  have fresh : freshPrefix (getQp s fid q).sqPhase [e] = [e] := by
    rw [freshPrefix, List.takeWhile_cons, if_pos h.fresh, List.takeWhile_nil]
  rw [exec_sqeFetched (es := [e]) Nat.one_pos h.awaited h.ready, fresh]
  simp only [acceptAll]
  cases acceptOne (fetchHeld s fid q 1 1) fid q (getQp s fid q).sqHead e <;> rfl

/-- The entry in the state of its fetch. -/
def fetchEntered (s : State) (fid q : Nat) (e : Sqe) : State := ioEntered (fetchHeld s fid q 1 1) fid q e

/-- The command of the entry in the state of its fetch. -/
def fetchCmd (s : State) (fid q : Nat) (e : Sqe) : Cmd := ioCmd (fetchHeld s fid q 1 1) fid q (getQp s fid q).sqHead e

theorem v2_fetchHeld {s : State} {fid q : Nat} {e : Sqe} (h : Acceptable s fid q e) :
    (getQp (fetchHeld s fid q 1 1) fid q).v2 = true := by
  rw [fetchHeld, getQp_modQp_same]
  exact h.v2

/-- An entry whose checks pass is in flight. -/
theorem exec_sqeFetched_passes {s : State} {fid q : Nat} {e : Sqe} (h : Acceptable s fid q e)
    (hpass : ioStatus s (tenantOf s fid) e true = 0) :
    exec (.sqeFetched fid q [e]) s = .next (putCmd (fetchEntered s fid q e) s.jrn.next (fetchCmd s fid q e)) := by
  have accepted := acceptOne_io (s := fetchHeld s fid q 1 1) (getQp s fid q).sqHead (e := e) h.room h.markers h.io
    h.control (v2_fetchHeld h)
  have pass : ioStatus (fetchHeld s fid q 1 1) (tenantOf (fetchHeld s fid q 1 1) fid) e true = 0 := hpass
  rw [if_neg (by simp [pass])] at accepted
  rw [exec_sqeFetched_one h, accepted]
  rfl

/-- An entry with a failed check ends at once where completions may be sent. -/
theorem exec_sqeFetched_fails {s : State} {fid q : Nat} {e : Sqe} (h : Acceptable s fid q e)
    (hfail : ioStatus s (tenantOf s fid) e true ≠ 0) (hlive : (getFn s fid).live = true) :
    exec (.sqeFetched fid q [e]) s = .next (finishCmd (fetchEntered s fid q e) s.jrn.next (fetchCmd s fid q e)
      (ioStatus s (tenantOf s fid) e true)) := by
  have accepted := acceptOne_io (s := fetchHeld s fid q 1 1) (getQp s fid q).sqHead (e := e) h.room h.markers h.io
    h.control (v2_fetchHeld h)
  have fail : ioStatus (fetchHeld s fid q 1 1) (tenantOf (fetchHeld s fid q 1 1) fid) e true ≠ 0 := hfail
  have live : (getFn (fetchHeld s fid q 1 1) fid).live = true := hlive
  rw [if_pos (by simp [fail, live])] at accepted
  rw [exec_sqeFetched_one h, accepted]
  rfl

theorem fetchEntered_unchanged (s : State) (fid q : Nat) (e : Sqe) :
    Unchanged [.qps, .jrn, .out] s (fetchEntered s fid q e) :=
  unchanged_trans (unchanged_mono (modQp_unchanged s fid q _) (by decide))
    (unchanged_mono (ioEntered_unchanged _ fid q e) (by decide))

/-- The pair after its fetch of one fresh entry. -/
theorem getQp_fetchEntered (s : State) (fid q : Nat) (e : Sqe) :
    getQp (fetchEntered s fid q e) fid q = fetchedPair (getQp s fid q) 1 1 := by
  rw [fetchEntered, getQp_congr (ioEntered_unchanged _ fid q e .qps (by decide)), fetchHeld, getQp_modQp_same]

/-- The entry's place in the journal. -/
theorem fetchEntered_holds (s : State) (fid q : Nat) (e : Sqe) : (fetchEntered s fid q e).jrn.next = s.jrn.next + 1 ∧
    tget {} (fetchEntered s fid q e).jrn.ring (jrnSlot s.jrn.next) =
      { jrnOf (tenantOf s fid) q false e (ioStatus s (tenantOf s fid) e true) with
        seq := s.jrn.next, boot := s.tb.boot % 65536, saved := false } :=
  ioEntered_holds (fetchHeld s fid q 1 1) fid q e

/-- An entry whose checks pass takes the next SEQ, is ACCEPTED and in flight, and the queue's head moves on. -/
theorem sqeFetched_accepts {s : State} {fid q : Nat} {e : Sqe} (h : Acceptable s fid q e)
    (hpass : ioStatus s (tenantOf s fid) e true = 0) :
    ∃ t c, exec (.sqeFetched fid q [e]) s = .next t ∧ getCmd t s.jrn.next = some c ∧ c.fid = fid ∧ c.q = q ∧ c.sqe = e ∧
      c.tenant = tenantOf s fid ∧ c.done = none ∧ c.bound = none ∧ t.jrn.next = s.jrn.next + 1 ∧
      (tget {} t.jrn.ring (jrnSlot s.jrn.next)).state = 1 ∧ (tget {} t.jrn.ring (jrnSlot s.jrn.next)).seq = s.jrn.next ∧
      (getQp t fid q).sqHead = (getQp s fid q).adv (getQp s fid q).sqHead 1 ∧
      (getQp t fid q).out = (getQp s fid q).out + 1 ∧ (getQp t fid q).fetching = 0 ∧
      Unchanged [.qps, .jrn, .cmds, .out] s t := by
  obtain ⟨next, entry⟩ := fetchEntered_holds s fid q e
  have pair := getQp_fetchEntered s fid q e
  have listed : fetchCmd s fid q e ≠ noCmd := fun same => h.io (congrArg Cmd.q same)
  have put := putCmd_unchanged (fetchEntered s fid q e) s.jrn.next (fetchCmd s fid q e)
  have jrn := put .jrn (by decide)
  have held := (getQp_congr (put .qps (by decide)) fid q).trans pair
  refine ⟨_, fetchCmd s fid q e, exec_sqeFetched_passes h hpass, ?_, rfl, rfl, rfl, rfl, if_pos hpass, rfl, ?_, ?_, ?_, ?_,
    ?_, ?_, unchanged_trans (unchanged_mono (fetchEntered_unchanged s fid q e) (by decide))
      (unchanged_mono put (by decide))⟩
  · rw [getCmd_putCmd _ _ _ listed, if_pos rfl]
  · rw [jrn, next]
  · rw [jrn, entry]
    exact if_pos hpass
  · rw [jrn, entry]
  · rw [held]
    rfl
  · rw [held]
    rfl
  · rw [held]
    rfl

/-- An entry with a failed check: its journal entry is FAILED, its completion is posted, and nothing of it is in flight. -/
theorem sqeFetched_rejects {s : State} {fid q : Nat} {e : Sqe} (h : Acceptable s fid q e)
    (hfail : ioStatus s (tenantOf s fid) e true ≠ 0) (hlive : (getFn s fid).live = true) :
    ∃ t hd fr ph, exec (.sqeFetched fid q [e]) s = .next t ∧ getCmd t s.jrn.next = none ∧
      Out.cqe fid q e.cid (ioStatus s (tenantOf s fid) e true) hd fr ph (s.jrn.next % 2 ^ 32) ∈ t.out ∧
      (tget {} t.jrn.ring (jrnSlot s.jrn.next)).state = 3 ∧
      (tget {} t.jrn.ring (jrnSlot s.jrn.next)).status = ioStatus s (tenantOf s fid) e true ∧
      t.jrn.next = s.jrn.next + 1 ∧ (getQp t fid q).frozen = true := by
  obtain ⟨next, entry⟩ := fetchEntered_holds s fid q e
  have mode : (getQp (fetchEntered s fid q e) fid q).mode ≠ 3 := by
    rw [getQp_fetchEntered]
    exact fun same => absurd (h.ready.symm.trans same) (by decide)
  have seq : (tget {} (fetchEntered s fid q e).jrn.ring (jrnSlot s.jrn.next)).seq = s.jrn.next := by rw [entry]
  have state : (tget {} (fetchEntered s fid q e).jrn.ring (jrnSlot s.jrn.next)).state ≠ 0 := by
    rw [entry]
    exact fun same => absurd ((if_neg hfail).symm.trans same) (by decide)
  obtain ⟨gone, ⟨hd, fr, ph, sent⟩, frozen, issued, failed, status⟩ :=
    finishCmd_fails (c := fetchCmd s fid q e) hfail rfl mode seq state
  exact ⟨_, hd, fr, ph, exec_sqeFetched_fails h hfail hlive, gone, sent, failed, status, issued.trans next, frozen⟩

/-- A first entry with a stale PHASE is not accepted, and the queue waits for the next doorbell. -/
theorem sqeFetched_stale {s : State} {fid q : Nat} {e : Sqe} (hawaited : (getQp s fid q).fetching = 1)
    (hready : (getQp s fid q).mode = 2) (hstale : ((e.flags / 128 % 2 == 1) == (getQp s fid q).sqPhase) = false) :
    ∃ t, exec (.sqeFetched fid q [e]) s = .next t ∧ (getQp t fid q).stale = true ∧ (getQp t fid q).fetching = 0 ∧
      t.jrn = s.jrn ∧ t.cmds = s.cmds ∧ Unchanged [.qps] s t := by
  have none_ : freshPrefix (getQp s fid q).sqPhase [e] = [] := by
    rw [freshPrefix, List.takeWhile_cons, if_neg (hstale ▸ Bool.false_ne_true)]
  have run := exec_sqeFetched (es := [e]) Nat.one_pos hawaited hready
  rw [none_] at run
  have pair := getQp_modQp_same s fid q fun p => fetchedPair p 0 1
  refine ⟨fetchHeld s fid q 0 1, run, ?_, ?_, rfl, rfl, modQp_unchanged s fid q _⟩
  · rw [fetchHeld, pair]
    exact Bool.or_true _
  · rw [fetchHeld, pair]
    rfl

/-! ## The statement on fetching and resuming -/

/-- Settles O21: SQE_FETCH and SQE_FETCHED by outcome, then XQ_RESUME by the pair's state, then RESUME_APPLY. -/
theorem fetchAcceptResume : Obligations.FetchAcceptResume := by
  unfold Obligations.FetchAcceptResume
  refine ⟨⟨?_, ?_, ?_, ?_⟩, ?_, ?_⟩
  · intro s fid q h
    exact sqeFetch_waits h
  · intro s fid q e awaited ready fresh room markers io _ control v2 hpass
    exact sqeFetched_accepts ⟨awaited, ready, fresh, room, markers, io, control, v2⟩ hpass
  · intro s fid q e awaited ready fresh room markers io _ control v2 hfail hlive
    exact sqeFetched_rejects ⟨awaited, ready, fresh, room, markers, io, control, v2⟩ hfail hlive
  · intro s fid q e hawaited hready hstale
    exact sqeFetched_stale hawaited hready hstale
  · intro s fid q hq hsafe hballast hmode hdeleting
    refine ⟨fun hfrozen hout hfetching => ?_, fun hfrozen hout =>
      resumeWrite_latches hq hsafe hballast hmode hdeleting hfrozen hout, fun hfrozen =>
      resumeWrite_notFrozen hq hsafe hballast hmode hdeleting hfrozen⟩
    have applies (act n : Nat) := resumeWrite_applies (act := act) (n := n) hq hsafe hballast hmode hdeleting hfrozen hout
      hfetching
    refine ⟨?_, fun n hn hwaiting => ?_, ?_⟩
    · obtain ⟨pair, result⟩ := applies 1 0 (fun h => absurd h (by decide))
      exact ⟨_, rfl, by rw [pair]; rfl, by rw [pair]; rfl, by rw [pair]; rfl, result⟩
    · obtain ⟨pair, result⟩ := applies 2 n fun _ => ⟨hn, hwaiting⟩
      exact ⟨_, rfl, by rw [pair]; rfl, by rw [pair]; rfl, result⟩
    · obtain ⟨pair, result⟩ := applies 3 0 (fun h => absurd h (by decide))
      exact ⟨_, rfl, by rw [pair]; rfl, by rw [pair]; rfl, by rw [pair]; rfl, by rw [pair]; rfl, by rw [pair]; rfl,
        by rw [pair]; rfl, result⟩
  · intro s fid q _ hsafe hballast hout hfetching hlatch
    obtain ⟨pair, result⟩ := resumeApply_done s fid q (act := 1) (n := 0) (fun h => absurd h (by decide))
    exact ⟨_, exec_resumeApply_next hsafe hballast hout hfetching hlatch, by rw [pair]; rfl, by rw [pair]; rfl,
      by rw [pair]; rfl, result⟩

end Sys2Proof.Laws
end

section
/-!
PROOFS. The statement of 05_queues_and_journal.md on CREATE_QP, DELETE_QP, IDENTIFY, GET_LOG and JOURNAL_QUERY (R149 to R152,
R192). The lemmas in front of it serve every later proof about commands that end: what ending one leaves of the others.
-/

namespace Sys2Proof.Laws

open Sys2Proof.Machine

/-! ## Commands that end -/

/-- A running admin command is in flight and has not ended. -/
theorem adminCmd_inFlight {s : State} {n opc : Nat} {c : Cmd} (h : adminCmd s n opc = some c) :
    getCmd s n = some c ∧ c.done = none ∧ c.admin = true := by
  unfold adminCmd at h
  split at h
  case h_1 => cases h
  case h_2 d hcmd =>
    split at h
    case isTrue hruns =>
      cases h
      simp only [Bool.and_eq_true, Option.isNone_iff_eq_none] at hruns
      obtain ⟨⟨⟨hadmin, -⟩, hgoes⟩, -⟩ := hruns
      exact ⟨hcmd, hgoes, hadmin⟩
    case isFalse => cases h

/-- A command that ends, in a state with the same commands in flight: it has its status and result, the others stay. -/
theorem setDone_ends {s u : State} {n : Nat} {c : Cmd} (hcmds : u.cmds = s.cmds) (hcmd : getCmd s n = some c)
    (hgoes : c.done = none) (status : Nat) (result : Option Nat) :
    getCmd (setDone u n status result) n = some { c with done := some status, result := result.getD (n % 2 ^ 32) } ∧
      ∀ m, m ≠ n → getCmd (setDone u n status result) m = getCmd s m := by
  have here : getCmd u n = some c := (getCmd_congr hcmds n).trans hcmd
  have ended : { c with done := some status, result := result.getD (n % 2 ^ 32) } ≠ noCmd := fun e =>
    Option.some_ne_none status (congrArg Cmd.done e)
  refine ⟨getCmd_setDone here hgoes status result, fun m hm => ?_⟩
  rw [setDone_unended here hgoes, getCmd_putCmd u n m ended, if_neg hm, getCmd_congr hcmds]

/-- A command in flight is one of the listed ones. -/
theorem mem_of_getCmd {s : State} {n : Nat} {c : Cmd} (h : getCmd s n = some c) : (n, c) ∈ s.cmds := by
  obtain ⟨e, found, rfl⟩ := Option.map_eq_some_iff.mp h
  have key : e.1 = n := beq_iff_eq.mp (List.find?_some (p := fun x : Nat × Cmd => x.1 == n) found)
  exact key ▸ List.mem_of_find?_eq_some found

theorem tdel_subset {α : Type} (t : Tbl α) (n : Nat) : tdel t n ⊆ t := by
  induction t with
  | nil => exact List.Subset.refl _
  | cons e t ih =>
    obtain ⟨k, x⟩ := e
    rw [tdel]
    split
    · exact List.Subset.trans ih (List.subset_cons_self _ _)
    · exact List.cons_subset_cons _ ih

/-- An entry of a table after one update is an entry of before or the updated one. -/
theorem mem_tset {α : Type} [DecidableEq α] {d v : α} {t : Tbl α} {n : Nat} {e : Nat × α} (h : e ∈ tset d t n v) :
    e ∈ t ∨ e = (n, v) := by
  by_cases hv : v = d
  · rw [hv, tset_default] at h
    exact .inl (tdel_subset t n h)
  · induction t with
    | nil =>
      rw [tset, if_neg hv] at h
      exact .inr (List.mem_singleton.mp h)
    | cons x t ih =>
      obtain ⟨k, x⟩ := x
      simp only [tset, if_neg hv] at h
      split at h
      · rcases List.mem_cons.mp h with here | after
        · exact .inr here
        · exact .inl (List.mem_cons_of_mem _ after)
      · split at h
        · exact (List.mem_cons.mp h).symm
        · rcases List.mem_cons.mp h with here | after
          · exact .inl (here ▸ List.mem_cons_self)
          · exact (ih after).imp_left (List.mem_cons_of_mem _)

/-! ## CREATE_QP and DELETE_QP (R149) -/

section pairs

variable {s : State} {n : Nat} {c : Cmd}

/-- The pair that CREATE_QP makes. -/
def createdPair (e : Sqe) : QPair :=
  { mode := 2, size := 2 ^ (e.cdw0 % 16), v2 := e.cdw0 / 16 % 2 == 1, qos := e.cdw0 / 32 % 4, ien := e.cdw0 / 128 % 2 == 1
    vector := e.cdw0 / 256 % 8, sqBase := e.buf0, cqBase := e.buf1 }

theorem createQp_creates (h : adminCmd s n 0x01 = some c) (habsent : (getQp s c.fid c.sqe.target).mode = 0)
    (hready : (getQp s c.fid 0).mode = 2) : ∃ t, exec (.createQp n) s = .next t ∧
      getQp t c.fid c.sqe.target = createdPair c.sqe ∧
      getCmd t n = some { c with done := some 0, result := n % 2 ^ 32 } ∧
      (∀ f q, qpKey f q ≠ qpKey c.fid c.sqe.target → getQp t f q = getQp s f q) ∧
      (∀ m, m ≠ n → getCmd t m = getCmd s m) ∧ Unchanged [.qps, .cmds] s t := by
  obtain ⟨hcmd, hgoes, -⟩ := adminCmd_inFlight h
  have run : exec (.createQp n) s =
      .next (setDone (modQp s c.fid c.sqe.target fun _ => createdPair c.sqe) n 0) := by
    have harm : exec (.createQp n) s = execCreateQp n s := rfl
    rw [harm]
    simp [execCreateQp, h, habsent, hready, createdPair]
  have made := modQp_unchanged s c.fid c.sqe.target fun _ => createdPair c.sqe
  have ends := setDone_unchanged (modQp s c.fid c.sqe.target fun _ => createdPair c.sqe) n 0 none
  have pairs (f q : Nat) := getQp_congr (ends .qps (by decide)) f q
  obtain ⟨done, others⟩ := setDone_ends (made .cmds (by decide)) hcmd hgoes 0 none
  refine ⟨_, run, ?_, done, fun f q hne => ?_, others, unchanged_trans (unchanged_mono made (by decide))
    (unchanged_mono ends (by decide))⟩
  · rw [pairs, getQp_modQp_same]
  · rw [pairs, getQp_modQp_other s _ hne]

theorem createQp_exists (h : adminCmd s n 0x01 = some c)
    (hexists : (getQp s c.fid c.sqe.target).mode = 1 ∨ (getQp s c.fid c.sqe.target).mode = 2) :
    exec (.createQp n) s = .next (setDone s n 0x010B) := by
  have harm : exec (.createQp n) s = execCreateQp n s := rfl
  rw [harm]
  rcases hexists with hmode | hmode <;> simp [execCreateQp, h, hmode]

theorem deleteQp_absent (h : adminCmd s n 0x02 = some c) (hstage : c.stage = 0)
    (habsent : (getQp s c.fid c.sqe.target).mode = 0) : exec (.deleteQp n) s = .next (setDone s n 0x010B) := by
  have harm : exec (.deleteQp n) s = execDeleteQp n s := rfl
  rw [harm]
  simp [execDeleteQp, h, hstage, habsent]

/-- The state in which a pair's deletion runs, with nothing of it in flight. -/
def deletingQp (s : State) (n : Nat) (c : Cmd) : State :=
  setStage (modQp s c.fid c.sqe.target fun p => { p with mode := 3, fetching := 0, latchEn := false }) n c

/-- A pair with nothing in flight is gone at once. -/
theorem exec_deleteQp_idle (h : adminCmd s n 0x02 = some c) (hstage : c.stage = 0) (htarget : c.sqe.target ≠ 0)
    (hexists : (getQp s c.fid c.sqe.target).mode ≠ 0) (hidle : ∀ e ∈ s.cmds, e.2.fid = c.fid → e.2.q ≠ c.sqe.target)
    (htear : (getFn s c.fid).teardown = 0) :
    exec (.deleteQp n) s = .next (setDone (dropQp (deletingQp s n c) c.fid c.sqe.target) n 0) := by
  obtain ⟨hcmd, -, -⟩ := adminCmd_inFlight h
  have harm : exec (.deleteQp n) s = execDeleteQp n s := rfl
  generalize hu : modQp s c.fid c.sqe.target (fun p => { p with mode := 3, fetching := 0, latchEn := false }) = u
  have cmds : u.cmds = s.cmds := by rw [← hu]; rfl
  have settled : settleWhere u (fun d => d.fid == c.fid && d.q == c.sqe.target && !d.admin) = u :=
    settleWhere_none fun e he => by
      have other := hidle e (cmds ▸ he)
      simp only [Bool.and_eq_false_iff, beq_eq_false_iff_ne]
      tauto
  have idle : qpBusyCmds (setStage u n c) c.fid c.sqe.target = false := by
    refine List.any_eq_false.mpr fun e he => ?_
    rcases mem_tset he with mem | rfl
    · have other := hidle e (cmds ▸ mem)
      simp only [Bool.and_eq_true, beq_iff_eq]
      tauto
    · have other := hidle _ (mem_of_getCmd hcmd) rfl
      simp [other]
  have mode : (getQp (setStage u n c) c.fid c.sqe.target).mode = 3 := by
    change (getQp u c.fid c.sqe.target).mode = 3
    rw [← hu, getQp_modQp_same]
  have drops : finishDelete (setStage u n c) c.fid c.sqe.target = dropQp (setStage u n c) c.fid c.sqe.target :=
    finishDelete_drops mode idle (by rw [← hu]; exact htear) (.inl htarget)
  have gone : (getQp (dropQp (setStage u n c) c.fid c.sqe.target) c.fid c.sqe.target).mode = 0 := by
    rw [getQp_dropQp, if_pos rfl]
  rw [harm]
  unfold execDeleteQp deletingQp
  simp only [h, hstage, hexists, hu, settled, drops, gone, if_true, if_false, Nat.zero_ne_one]

theorem getQp_putCmd (s : State) (n : Nat) (c : Cmd) (fid q : Nat) : getQp (putCmd s n c) fid q = getQp s fid q := rfl

theorem getCmd_setStage (s : State) (n m : Nat) {c : Cmd} (hadmin : c.admin = true) :
    getCmd (setStage s n c) m = if m = n then some { c with stage := 1 } else getCmd s m :=
  getCmd_putCmd s n m fun e => Bool.false_ne_true ((congrArg Cmd.admin e).symm.trans hadmin)

theorem deleteQp_deletes (h : adminCmd s n 0x02 = some c) (hstage : c.stage = 0) (htarget : c.sqe.target ≠ 0)
    (hexists : (getQp s c.fid c.sqe.target).mode ≠ 0) (hidle : ∀ e ∈ s.cmds, e.2.fid = c.fid → e.2.q ≠ c.sqe.target)
    (htear : (getFn s c.fid).teardown = 0) : ∃ t, exec (.deleteQp n) s = .next t ∧ getQp t c.fid c.sqe.target = {} ∧
      getCmd t n = some { c with stage := 1, done := some 0, result := n % 2 ^ 32 } ∧
      (∀ f q, qpKey f q ≠ qpKey c.fid c.sqe.target → getQp t f q = getQp s f q) ∧
      (∀ m, m ≠ n → getCmd t m = getCmd s m) ∧ Unchanged [.qps, .cmds] s t := by
  obtain ⟨-, hgoes, hadmin⟩ := adminCmd_inFlight h
  have staged (m : Nat) : getCmd (deletingQp s n c) m = if m = n then some { c with stage := 1 } else getCmd s m :=
    getCmd_setStage _ n m hadmin
  have ends := setDone_unchanged (dropQp (deletingQp s n c) c.fid c.sqe.target) n 0 none
  have pairs (f q : Nat) := getQp_congr (ends .qps (by decide)) f q
  obtain ⟨done, others⟩ := setDone_ends (s := deletingQp s n c) (u := dropQp (deletingQp s n c) c.fid c.sqe.target)
    (c := { c with stage := 1 }) rfl ((staged n).trans (if_pos rfl)) hgoes 0 none
  have marked : Unchanged [.qps, .cmds] s (deletingQp s n c) :=
    unchanged_trans (unchanged_mono (modQp_unchanged s _ _ _) (by decide))
      (unchanged_mono (putCmd_unchanged _ n _) (by decide))
  refine ⟨_, exec_deleteQp_idle h hstage htarget hexists hidle htear, ?_, done, fun f q hne => ?_,
    fun m hm => (others m hm).trans ((staged m).trans (if_neg hm)),
    unchanged_trans marked (unchanged_trans (unchanged_mono (dropQp_unchanged _ _ _) (by decide))
      (unchanged_mono ends (by decide)))⟩
  · rw [pairs, getQp_dropQp, if_pos rfl]
  · rw [pairs, getQp_dropQp, if_neg hne, deletingQp, setStage, getQp_putCmd, getQp_modQp_other s _ hne]

end pairs

/-! ## IDENTIFY, GET_LOG and JOURNAL_QUERY (R150 to R152, R192) -/

section logs

variable {s : State} {n : Nat} {c : Cmd}

/-- An admin command that writes its buffer and ends: the write is all that is sent out, and no other command changes. -/
theorem hostPut_setDone {opc : Nat} (h : adminCmd s n opc = some c) (bs : List Byte) (status : Nat)
    (result : Option Nat) : getCmd (setDone (hostPut s c.fid c.sqe.buf0 bs) n status result) n =
      some { c with done := some status, result := result.getD (n % 2 ^ 32) } ∧
    (setDone (hostPut s c.fid c.sqe.buf0 bs) n status result).out = (hostPut s c.fid c.sqe.buf0 bs).out ∧
    (∀ m, m ≠ n → getCmd (setDone (hostPut s c.fid c.sqe.buf0 bs) n status result) m = getCmd s m) ∧
    Unchanged [.out, .cmds] s (setDone (hostPut s c.fid c.sqe.buf0 bs) n status result) := by
  obtain ⟨hcmd, hgoes, -⟩ := adminCmd_inFlight h
  have put := hostPut_unchanged s c.fid c.sqe.buf0 bs
  have ends := setDone_unchanged (hostPut s c.fid c.sqe.buf0 bs) n status result
  obtain ⟨done, others⟩ := setDone_ends (put .cmds (by decide)) hcmd hgoes status result
  exact ⟨done, ends .out (by decide), others, unchanged_trans (unchanged_mono put (by decide))
    (unchanged_mono ends (by decide))⟩

/-- The page that IDENTIFY writes: of the device, of the tenant, of a namespace that exists. -/
def identifyPage (s : State) (c : Cmd) : Option (List Byte) :=
  match c.sqe.cdw0 % 256 with
  | 0 => some (identifyDevice s)
  | 1 => some (identifyTenant s (adminTenant c))
  | _ => (getNs s (adminTenant c) (c.sqe.cdw0 / 256 % 16)).map (identifyNs s)

theorem exec_identify_page (h : adminCmd s n 0x04 = some c) {bs : List Byte} (hpage : identifyPage s c = some bs) :
    exec (.identify n) s = .next (setDone (hostPut s c.fid c.sqe.buf0 (padBytes 4096 bs)) n 0) := by
  have harm : exec (.identify n) s = execIdentify n s := rfl
  rw [harm]
  unfold identifyPage at hpage
  unfold execIdentify
  simp only [h]
  rcases hk : c.sqe.cdw0 % 256 with _ | _ | k <;> simp only [hk] at hpage ⊢
  · rw [Option.some.inj hpage]
  · rw [Option.some.inj hpage]
  · obtain ⟨ns, hns, rfl⟩ := Option.map_eq_some_iff.mp hpage
    simp only [hns]

theorem exec_identify_absent (h : adminCmd s n 0x04 = some c) (hpage : identifyPage s c = none) :
    exec (.identify n) s = .next (setDone s n 0x0105) := by
  have harm : exec (.identify n) s = execIdentify n s := rfl
  rw [harm]
  unfold identifyPage at hpage
  unfold execIdentify
  simp only [h]
  rcases hk : c.sqe.cdw0 % 256 with _ | _ | k <;> simp only [hk] at hpage ⊢
  · contradiction
  · contradiction
  · simp only [Option.map_eq_none_iff.mp hpage]

theorem identifyPage_device (s : State) {c : Cmd} (hk : c.sqe.cdw0 % 256 = 0) :
    identifyPage s c = some (identifyDevice s) := by
  simp [identifyPage, hk]

theorem identifyPage_tenant (s : State) {c : Cmd} (hk : c.sqe.cdw0 % 256 = 1) :
    identifyPage s c = some (identifyTenant s (adminTenant c)) := by
  simp [identifyPage, hk]

theorem identifyPage_ns (s : State) {c : Cmd} (hk : 2 ≤ c.sqe.cdw0 % 256) :
    identifyPage s c = (getNs s (adminTenant c) (c.sqe.cdw0 / 256 % 16)).map (identifyNs s) := by
  unfold identifyPage
  split
  · omega
  · omega
  · rfl

/-- IDENTIFY writes its page and ends with 0, or ends with 0x0105 where there is none. -/
theorem identify_answers (h : adminCmd s n 0x04 = some c) : ∃ t d, exec (.identify n) s = .next t ∧
    getCmd t n = some d ∧ d.sqe = c.sqe ∧
    (∀ bs, identifyPage s c = some bs → d.done = some 0 ∧
      t.out = (hostPut s c.fid c.sqe.buf0 (padBytes 4096 bs)).out) ∧
    (identifyPage s c = none → d.done = some 0x0105 ∧ t.out = s.out) ∧
    (∀ m, m ≠ n → getCmd t m = getCmd s m) ∧ Unchanged [.out, .cmds] s t := by
  cases hpage : identifyPage s c with
  | some bs =>
    obtain ⟨done, out, others, frame⟩ := hostPut_setDone h (padBytes 4096 bs) 0 none
    exact ⟨_, _, exec_identify_page h hpage, done, rfl, fun _ same => ⟨rfl, Option.some.inj same ▸ out⟩, nofun, others,
      frame⟩
  | none =>
    obtain ⟨hcmd, hgoes, -⟩ := adminCmd_inFlight h
    obtain ⟨done, others⟩ := setDone_ends (s := s) rfl hcmd hgoes 0x0105 none
    have ends := setDone_unchanged s n 0x0105 none
    exact ⟨_, _, exec_identify_absent h hpage, done, rfl, nofun, fun _ => ⟨rfl, ends .out (by decide)⟩, others,
      unchanged_mono ends (by decide)⟩

/-- The log that GET_LOG names. -/
def namedLog (s : State) (c : Cmd) : List Byte :=
  if c.sqe.cdw0 % 256 = 1 then errorLog s c.fid else contractLog s (adminTenant c)

theorem exec_getLog (h : adminCmd s n 0x05 = some c) : exec (.getLog n) s = .next (setDone
    (hostPut s c.fid c.sqe.buf0 ((namedLog s c).take c.sqe.buf0Len)) n 0
    (some ((namedLog s c).take c.sqe.buf0Len).length)) := by
  have harm : exec (.getLog n) s = execGetLog n s := rfl
  rw [harm]
  unfold execGetLog
  simp only [h]
  rfl

theorem exec_journalQuery (h : adminCmd s n 0x09 = some c) : exec (.journalQuery n) s = .next (setDone
    (hostPut s c.fid c.sqe.buf0 ((queryEntries s (adminTenant c) c.sqe).1.flatMap JrnEntry.bytes)) n 0
    (some ((queryEntries s (adminTenant c) c.sqe).1.length + b2n (queryEntries s (adminTenant c) c.sqe).2 * 2 ^ 31))) := by
  have harm : exec (.journalQuery n) s = execJournalQuery n s := rfl
  rw [harm]
  unfold execJournalQuery
  simp only [h]

/-- Every entry a query copies is one that it selects (R152). -/
theorem querySelects_of_mem {s : State} {t : Nat} {e : Sqe} {x : JrnEntry} (hx : x ∈ (queryEntries s t e).1) :
    querySelects t (e.cdw2 % 16) (e.cdw2 / 16 % 2 == 1) x = true := by
  unfold queryEntries at hx
  dsimp only at hx
  split at hx
  · exact List.of_mem_filter (List.mem_of_mem_filter (List.mem_reverse.mp (List.mem_of_mem_take hx)))
  · exact List.of_mem_filter (List.mem_of_mem_filter (List.mem_of_mem_take hx))

end logs

/-! ## The statement on pairs, logs and pages -/

/-- An admin command that does nothing but end. -/
theorem endsAlone {i : Instr} {s : State} {n opc : Nat} {c : Cmd} (h : adminCmd s n opc = some c) {status : Nat}
    (run : exec i s = .next (setDone s n status)) : ∃ t, exec i s = .next t ∧
      getCmd t n = some { c with done := some status, result := n % 2 ^ 32 } ∧
      (∀ m, m ≠ n → getCmd t m = getCmd s m) ∧ Unchanged [.cmds] s t := by
  obtain ⟨hcmd, hgoes, -⟩ := adminCmd_inFlight h
  obtain ⟨done, others⟩ := setDone_ends (s := s) rfl hcmd hgoes status none
  exact ⟨_, run, done, others, setDone_unchanged s n status none⟩

/-- Settles O27: each command by its outcome. -/
theorem pairsLogsIdentify : Obligations.PairsLogsIdentify := by
  unfold Obligations.PairsLogsIdentify
  refine ⟨⟨?_, ?_, ?_, ?_⟩, ?_, ?_, ?_⟩
  · intro s n c h habsent hready
    exact createQp_creates h habsent hready
  · intro s n c h hexists
    exact endsAlone h (createQp_exists h hexists)
  · intro s n c h hstage htarget hexists hidle htear
    exact deleteQp_deletes h hstage htarget hexists hidle htear
  · intro s n c h hstage habsent
    exact endsAlone h (deleteQp_absent h hstage habsent)
  · intro s n c h
    obtain ⟨t, d, run, cmd, sqe, page, absent, others, frame⟩ := identify_answers h
    refine ⟨t, d, run, cmd, sqe, fun hk => ?_, fun hk => ?_, fun hk ns hns => ?_, fun hk hns => ?_, others, frame⟩
    · exact page _ (identifyPage_device s hk)
    · exact page _ (identifyPage_tenant s hk)
    · exact page _ ((identifyPage_ns s hk).trans (congrArg _ hns))
    · exact absent ((identifyPage_ns s hk).trans (congrArg _ hns))
  · rintro s n c bs h rfl
    obtain ⟨done, out, -, frame⟩ := hostPut_setDone h ((namedLog s c).take c.sqe.buf0Len) 0
      (some ((namedLog s c).take c.sqe.buf0Len).length)
    rw [Option.getD_some] at done
    exact ⟨_, exec_getLog h, done, out, frame⟩
  · intro s n c h
    obtain ⟨done, out, -, frame⟩ := hostPut_setDone h
      ((queryEntries s (adminTenant c) c.sqe).1.flatMap JrnEntry.bytes) 0
      (some ((queryEntries s (adminTenant c) c.sqe).1.length + b2n (queryEntries s (adminTenant c) c.sqe).2 * 2 ^ 31))
    rw [Option.getD_some] at done
    exact ⟨_, exec_journalQuery h, done, out, fun e he => querySelects_of_mem he, frame⟩

end Sys2Proof.Laws
end

section
/-!
PROOFS. The statement of 05_queues_and_journal.md on the dispatch of commands to flow contexts (R145, R188, R196, R249, R265).
The lemmas in front of it serve every later proof about flows: what the start of a flow puts into its context and what it
leaves unchanged.
-/

namespace Sys2Proof.Laws

open Sys2Proof.Machine

/-! ## Contexts -/

@[simp] theorem getCtx_setCtx (s : State) (k j : Nat) (x : Ctx) : getCtx (setCtx s k x) j = if j = k then x else getCtx s j :=
  tget_tset _ _ _ _ _

theorem setTrw_unchanged (s : State) (w : Trowel) : Unchanged [.trw] s { s with trw := w } := by
  intro part hpart
  cases part with
  | trw => exact absurd List.mem_cons_self hpart
  | _ => rfl

theorem setCtx_unchanged (s : State) (k : Nat) (x : Ctx) : Unchanged [.trw] s (setCtx s k x) := setTrw_unchanged s _

theorem setFreeCtr_unchanged (s : State) (n : Nat) : Unchanged [.freeCtr] s { s with freeCtr := n } := by
  intro part hpart
  cases part with
  | freeCtr => exact absurd List.mem_cons_self hpart
  | _ => rfl

/-! ## The start of a flow (R196, R236, R245) -/

/-- The Skim flow bound to an opcode depends on the control store and on Trowel's status alone. -/
theorem skimEntry_congr {s t : State} (htrw : t.trw = s.trw) (hregs : t.regs = s.regs) (opc : Nat) :
    skimEntry t opc = skimEntry s opc := by
  unfold skimEntry csWord fget rget
  rw [htrw, hregs]

theorem skimEntry_vendor (s : State) {opc : Nat} (h : isSkim opc = false) : skimEntry s opc = none := by
  have below : ¬0xC0 ≤ opc := of_decide_eq_false h
  simp [skimEntry, below]

/-- A flow on its context: busy for the command, at its entry, with the first word fetched. -/
structure FlowOn (s u : State) (k seq entry : Nat) (c : Cmd) : Prop where
  busy : (getCtx u k).busy = true
  seq : (getCtx u k).seq = some seq
  fid : (getCtx u k).fid = c.fid
  tenant : (getCtx u k).tenant = c.tenant
  pc : (getCtx u k).pc = entry
  word : (getCtx u k).word = some (csFetch s entry)
  others : ∀ j, j ≠ k → getCtx u j = getCtx s j

/-- What is put into a context is there, and the other contexts stay. -/
theorem flowOn_setCtx {s t : State} (htrw : t.trw = s.trw) (k seq entry : Nat) (c : Cmd) (regs : Tbl DWord) :
    FlowOn s (setCtx t k { busy := true, seq := some seq, fid := c.fid, tenant := c.tenant, pc := entry, regs := regs,
                           word := some (csFetch s entry) }) k seq entry c := by
  have other (j : Nat) (hj : j ≠ k) (x : Ctx) : getCtx (setCtx t k x) j = getCtx s j := by
    rw [getCtx_setCtx, if_neg hj, getCtx, htrw, getCtx]
  constructor
  case others => exact fun j hj => other j hj _
  all_goals rw [getCtx_setCtx, if_pos rfl]

/-- The start of a vendor flow. -/
theorem startFlow_vendor (s : State) (k seq : Nat) {c : Cmd} (h : skimEntry s c.sqe.opc = none) :
    FlowOn s (startFlow s k seq c) k seq (Config.vendorEntry c.sqe.opc) c ∧
      Unchanged [.trw, .freeCtr] s (startFlow s k seq c) := by
  unfold startFlow
  rw [h]
  dsimp only
  exact ⟨flowOn_setCtx (s := s) (t := { s with freeCtr := s.freeCtr + 64 }) rfl k seq _ c _, unchanged_trans (unchanged_mono (setFreeCtr_unchanged s _) (by decide))
    (unchanged_mono (setCtx_unchanged _ k _) (by decide))⟩

/-- The start of a Skim flow. -/
theorem startFlow_skim (s : State) (k seq : Nat) {c : Cmd} {e : Nat} (h : skimEntry s c.sqe.opc = some e) :
    FlowOn s (startFlow s k seq c) k seq e c ∧ (getCtx (startFlow s k seq c) k).regs = skimRegs c seq ∧
      Unchanged [.trw] s (startFlow s k seq c) := by
  unfold startFlow
  rw [h]
  dsimp only
  refine ⟨flowOn_setCtx rfl k seq _ c _, ?_, setCtx_unchanged s k _⟩
  rw [getCtx_setCtx, if_pos rfl]

/-- Eight-byte words of a submission entry put into the registers from G2 on. -/
theorem tget_sqeWords (q : Sqe) (is : List Nat) (m : Tbl DWord) (r : Nat) :
    tget 0 (is.foldl (fun m i => tset 0 m (2 + i) (BitVec.ofNat 64 (sqeWord q i))) m) r =
      if 2 ≤ r ∧ r - 2 ∈ is then BitVec.ofNat 64 (sqeWord q (r - 2)) else tget 0 m r := by
  induction is generalizing m with
  | nil => rw [if_neg fun h => List.not_mem_nil h.2, List.foldl_nil]
  | cons i is ih =>
    rw [List.foldl_cons, ih, tget_tset]
    by_cases here : r = 2 + i
    · subst here
      simp
    · have other : r - 2 = i → ¬2 ≤ r := by omega
      rw [if_neg here]
      exact if_congr (by rw [List.mem_cons]; tauto) rfl rfl

/-- The registers at Skim flow entry hold the submission entry and the SEQ (Table 08-10). -/
theorem skimRegs_hold (c : Cmd) (seq : Nat) : tget 0 (skimRegs c seq) 2 = BitVec.ofNat 64 (sqeWord c.sqe 0) ∧
    tget 0 (skimRegs c seq) 11 = BitVec.ofNat 64 seq ∧ tget 0 (skimRegs c seq) 0 = 0 := by
  have first : 0 ∈ List.range (if c.v2 then 8 else 4) := by
    rw [List.mem_range]
    split <;> decide
  unfold skimRegs
  dsimp only
  refine ⟨?_, ?_, ?_⟩
  · rw [tget_tset, if_neg (by decide), tget_tset, if_neg (by decide), tget_sqeWords, if_pos ⟨le_rfl, first⟩]
  · rw [tget_tset, if_pos rfl]
  · rw [tget_tset, if_neg (by decide), tget_tset, if_neg (by decide), tget_sqeWords,
      if_neg fun h => absurd h.1 (by decide)]
    rfl

/-! ## Dispatch -/

/-- A command that may be dispatched is a host command that has not ended and is bound to no context. -/
theorem dispatchable_fresh {s : State} {n : Nat} {c : Cmd} (h : dispatchable s n c = true) :
    c.admin = false ∧ c.done = none ∧ c.bound = none := by
  simp only [dispatchable, Bool.and_eq_true, Bool.not_eq_true', Option.isNone_iff_eq_none] at h
  obtain ⟨⟨⟨⟨⟨admin, done⟩, bound⟩, -⟩, -⟩, -⟩ := h
  exact ⟨admin, done, bound⟩

theorem modSlot_unchanged (s : State) (i : Nat) (f : Slot → Slot) : Unchanged [.udc] s (modSlot s i f) := setUdc_unchanged s _

theorem reserveSlots_unchanged (s : State) (seq k : Nat) : Unchanged [.udc] s (reserveSlots s seq k).2 :=
  unchanged_foldl (fun t i => modSlot_unchanged t i _) _ s

/-- The command as dispatch binds it. -/
def boundCmd (s : State) (n t x : Nat) (c : Cmd) : Cmd :=
  { c with bound := some (t, x), slots := (reserveSlots s n c.slotNeed).1 }

/-- The state in which the flow of a dispatched command starts. -/
def boundState (s : State) (n t x : Nat) (c : Cmd) : State :=
  putCmd (reserveSlots s n c.slotNeed).2 n (boundCmd s n t x c)

theorem dispatch_picked {s : State} {t x : Nat} (n : Nat) (c : Cmd) (h : pickContext s = some (t, x)) :
    dispatch s n c = startFlow (boundState s n t x c) (ctxKey t x) n (boundCmd s n t x c) := by
  unfold dispatch
  rw [h]
  rfl

theorem boundState_unchanged (s : State) (n t x : Nat) (c : Cmd) : Unchanged [.udc, .cmds] s (boundState s n t x c) :=
  unchanged_trans (unchanged_mono (reserveSlots_unchanged s n _) (by decide))
    (unchanged_mono (putCmd_unchanged _ n _) (by decide))

theorem getCmd_boundState (s : State) (n t x m : Nat) (c : Cmd) :
    getCmd (boundState s n t x c) m = if m = n then some (boundCmd s n t x c) else getCmd s m := by
  have listed : boundCmd s n t x c ≠ noCmd := fun e => Option.some_ne_none _ (congrArg Cmd.bound e)
  rw [boundState, getCmd_putCmd _ n m listed, getCmd_congr (reserveSlots_unchanged s n _ .cmds (by decide))]

/-- A dispatched command with its flow started: bound to its context, the other commands and contexts as before. -/
theorem dispatched {s u : State} {n t x entry : Nat} {c : Cmd} (cmds : u.cmds = (boundState s n t x c).cmds)
    (flow : FlowOn (boundState s n t x c) u (ctxKey t x) n entry (boundCmd s n t x c)) :
    (∃ d, getCmd u n = some d ∧ d.bound = some (t, x) ∧ d.sqe = c.sqe) ∧
      (∀ k, k ≠ ctxKey t x → getCtx u k = getCtx s k) ∧ (∀ m, m ≠ n → getCmd u m = getCmd s m) := by
  refine ⟨⟨boundCmd s n t x c, ?_, rfl, rfl⟩, fun k hk => ?_, fun m hm => ?_⟩
  · rw [getCmd_congr cmds, getCmd_boundState, if_pos rfl]
  · rw [flow.others k hk, getCtx, boundState_unchanged s n t x c .trw (by decide), getCtx]
  · rw [getCmd_congr cmds, getCmd_boundState, if_neg hm]

theorem skimEntry_boundState (s : State) (n t x : Nat) (c : Cmd) (opc : Nat) :
    skimEntry (boundState s n t x c) opc = skimEntry s opc :=
  have kept := boundState_unchanged s n t x c
  skimEntry_congr (kept .trw (by decide)) (kept .regs (by decide)) opc

/-! ## FLOW_DISPATCH -/

section flow

variable {s : State} {n : Nat} {c : Cmd} (hcmd : getCmd s n = some c) (hready : dispatchable s n c = true)

include hcmd hready

theorem exec_flowDispatch (hvendor : isSkim c.sqe.opc = false) (hfirst : outranked s c = false) :
    exec (.flowDispatch n) s = if c.changes && changeBar s (cmdNs s c).pool ≠ 0
      then .next (setDone s n (changeBar s (cmdNs s c).pool)) else .next (dispatch s n c) := by
  have harm : exec (.flowDispatch n) s = execFlowDispatch n s := rfl
  rw [harm]
  unfold execFlowDispatch
  simp [hcmd, hready, hvendor, hfirst]

theorem flowDispatch_starts {t x : Nat} (hvendor : isSkim c.sqe.opc = false) (hfirst : outranked s c = false)
    (hbar : c.changes = true → changeBar s (cmdNs s c).pool = 0) (hpick : pickContext s = some (t, x)) :
    ∃ u, exec (.flowDispatch n) s = .next u ∧ (∃ d, getCmd u n = some d ∧ d.bound = some (t, x) ∧ d.sqe = c.sqe) ∧
      (getCtx u (ctxKey t x)).busy = true ∧ (getCtx u (ctxKey t x)).seq = some n ∧ (getCtx u (ctxKey t x)).fid = c.fid ∧
      (getCtx u (ctxKey t x)).tenant = c.tenant ∧ (getCtx u (ctxKey t x)).pc = Config.vendorEntry c.sqe.opc ∧
      (∀ k, k ≠ ctxKey t x → getCtx u k = getCtx s k) ∧ (∀ m, m ≠ n → getCmd u m = getCmd s m) ∧
      Unchanged [.cmds, .trw, .udc, .freeCtr] s u := by
  have run := exec_flowDispatch hcmd hready hvendor hfirst
  have vendor : skimEntry (boundState s n t x c) (boundCmd s n t x c).sqe.opc = none := skimEntry_vendor _ hvendor
  obtain ⟨flow, frame⟩ := startFlow_vendor (boundState s n t x c) (ctxKey t x) n vendor
  obtain ⟨cmd, ctxs, others⟩ := dispatched (frame .cmds (by decide)) flow
  rw [if_neg (by simpa using hbar), dispatch_picked n c hpick] at run
  exact ⟨_, run, cmd, flow.busy, flow.seq, flow.fid, flow.tenant, flow.pc, ctxs, others,
    unchanged_trans (unchanged_mono (boundState_unchanged s n t x c) (by decide)) (unchanged_mono frame (by decide))⟩

/-- A data-changing command whose medium takes no changes ends with that status (R249). -/
theorem flowDispatch_barred (hvendor : isSkim c.sqe.opc = false) (hfirst : outranked s c = false)
    (hchanges : c.changes = true) (hbar : changeBar s (cmdNs s c).pool ≠ 0) :
    exec (.flowDispatch n) s = .next (setDone s n (changeBar s (cmdNs s c).pool)) :=
  (exec_flowDispatch hcmd hready hvendor hfirst).trans (if_pos (by simp [hchanges, hbar]))

/-! ## OPERATOR_OPCODE -/

theorem exec_operatorOpcode (hskim : isSkim c.sqe.opc = true) (hfirst : outranked s c = false) {e : Nat}
    (hentry : skimEntry s c.sqe.opc = some e) : exec (.operatorOpcode n) s = .next (dispatch s n c) := by
  have harm : exec (.operatorOpcode n) s = execOperatorOpcode n s := rfl
  rw [harm]
  unfold execOperatorOpcode
  simp [hcmd, hready, hskim, hfirst, hentry]

theorem operatorOpcode_starts {t x e : Nat} (hskim : isSkim c.sqe.opc = true) (hfirst : outranked s c = false)
    (hpick : pickContext s = some (t, x)) (hentry : skimEntry s c.sqe.opc = some e) :
    ∃ u, exec (.operatorOpcode n) s = .next u ∧ (∃ d, getCmd u n = some d ∧ d.bound = some (t, x) ∧ d.sqe = c.sqe) ∧
      (getCtx u (ctxKey t x)).busy = true ∧ (getCtx u (ctxKey t x)).seq = some n ∧ (getCtx u (ctxKey t x)).pc = e ∧
      gReg (getCtx u (ctxKey t x)) 2 = BitVec.ofNat 64 (sqeWord c.sqe 0) ∧
      gReg (getCtx u (ctxKey t x)) 11 = BitVec.ofNat 64 n ∧ gReg (getCtx u (ctxKey t x)) 0 = 0 ∧
      (∀ k, k ≠ ctxKey t x → getCtx u k = getCtx s k) ∧ Unchanged [.cmds, .trw, .udc] s u := by
  have run := exec_operatorOpcode hcmd hready hskim hfirst hentry
  have bound : skimEntry (boundState s n t x c) (boundCmd s n t x c).sqe.opc = some e :=
    (skimEntry_boundState s n t x c _).trans hentry
  obtain ⟨flow, regs, frame⟩ := startFlow_skim (boundState s n t x c) (ctxKey t x) n bound
  obtain ⟨cmd, ctxs, -⟩ := dispatched (frame .cmds (by decide)) flow
  obtain ⟨entry, seq, zero⟩ := skimRegs_hold (boundCmd s n t x c) n
  rw [← regs] at entry seq zero
  rw [dispatch_picked n c hpick] at run
  exact ⟨_, run, cmd, flow.busy, flow.seq, flow.pc, entry, seq, zero, ctxs,
    unchanged_trans (unchanged_mono (boundState_unchanged s n t x c) (by decide)) (unchanged_mono frame (by decide))⟩

/-- An opcode with no Skim flow bound (R145). -/
theorem operatorOpcode_unbound (hskim : isSkim c.sqe.opc = true) (hentry : skimEntry s c.sqe.opc = none) :
    exec (.operatorOpcode n) s = .next (setDone s n 0x0106) := by
  have harm : exec (.operatorOpcode n) s = execOperatorOpcode n s := rfl
  rw [harm]
  unfold execOperatorOpcode
  simp [hcmd, hready, hskim, hentry]

/-- A command that dispatch ends. -/
theorem dispatch_ends {i : Instr} {status : Nat} (run : exec i s = .next (setDone s n status)) :
    ∃ u, exec i s = .next u ∧ getCmd u n = some { c with done := some status, result := n % 2 ^ 32 } ∧
      (∀ m, m ≠ n → getCmd u m = getCmd s m) ∧ Unchanged [.cmds] s u := by
  obtain ⟨-, hgoes, -⟩ := dispatchable_fresh hready
  obtain ⟨done, others⟩ := setDone_ends (s := s) rfl hcmd hgoes status none
  exact ⟨_, run, done, others, setDone_unchanged s n status none⟩

end flow

/-! ## The statement on dispatch -/

/-- Settles O23: each of the two commands by its outcome. -/
theorem commandsReachContexts : Obligations.CommandsReachContexts := by
  unfold Obligations.CommandsReachContexts
  refine ⟨?_, ?_, ?_, ?_⟩
  · intro s n t x c hcmd hvendor hready hfirst hbar hpick
    exact flowDispatch_starts hcmd hready hvendor hfirst hbar hpick
  · intro s n c hcmd hvendor hready hfirst hchanges hbar
    exact dispatch_ends hcmd hready (flowDispatch_barred hcmd hready hvendor hfirst hchanges hbar)
  · intro s n t x e c hcmd hskim hready hfirst hpick hentry
    exact operatorOpcode_starts hcmd hready hskim hfirst hpick hentry
  · intro s n c hcmd hskim hready hentry
    exact dispatch_ends hcmd hready (operatorOpcode_unbound hcmd hready hskim hentry)

end Sys2Proof.Laws
end

section
/-!
PROOFS. The statement of 05_queues_and_journal.md on WRITE, WRITE_ZEROES and DEALLOCATE (R141 to R143, R155 to R157, R264,
R265). The lemmas in front of it serve every later proof about changes of stored data: that a landing touches Undercoat
alone, what a slot holds after blocks were stored in it, what a granule's blocks then read as, and how a change that was
applied leaves its command.
-/

namespace Sys2Proof.Laws

open Sys2Proof.Machine

/-! ## A landing touches Undercoat alone (R264) -/

theorem modUdc_unchanged (s : State) (f : Undercoat → Undercoat) : Unchanged [.udc] s (modUdc s f) := setUdc_unchanged s _

theorem setGran_unchanged (s : State) (t n g : Nat) (e : GranEntry) : Unchanged [.udc] s (setGran s t n g e) :=
  setUdc_unchanged s _

theorem setExt_unchanged (s : State) (t n x : Nat) (e : Extent) : Unchanged [.udc] s (setExt s t n x e) :=
  setUdc_unchanged s _

theorem setEntry_unchanged (s : State) (t n pool g : Nat) (e : GranEntry) : Unchanged [.udc] s (setEntry s t n pool g e) := by
  unfold setEntry
  split
  · exact setGran_unchanged s t n g e
  · dsimp only
    split
    · exact setGran_unchanged s t n g e
    · split
      · exact unchanged_trans (setExt_unchanged s t n _ _) (setGran_unchanged _ t n g e)
      · exact unchanged_trans (modUdc_unchanged s _) (setExt_unchanged _ t n _ _)

theorem bufferGranule_unchanged (s : State) (id : GranId) (pool seq i clen : Nat) (bs fill : List (Nat × Nat)) :
    Unchanged [.udc] s (bufferGranule s id pool seq i clen bs fill).2 := by
  unfold bufferGranule
  split
  · exact modSlot_unchanged s _ _
  · exact unchanged_trans (modSlot_unchanged s i _) (setEntry_unchanged _ _ _ _ _ _)

/-- A landing that goes on from `s` has touched Undercoat alone. -/
def LandsFrom (s : State) (o : Option Landing) : Prop := ∀ l, o = some l → Unchanged [.udc] s l.st

namespace LandsFrom

variable {s : State} {o : Option Landing}

theorem start {l : Landing} (h : Unchanged [.udc] s l.st) : LandsFrom s (some l) := fun _ e => Option.some.inj e ▸ h

theorem bind (h : LandsFrom s o) {f : Landing → Option Landing} (hf : ∀ l, LandsFrom l.st (f l)) :
    LandsFrom s (o.bind f) := by
  intro l e
  obtain ⟨k, hk, hl⟩ := Option.bind_eq_some_iff.mp e
  exact unchanged_trans (h k hk) (hf k l hl)

theorem foldl {α : Type} (h : LandsFrom s o) {f : Option Landing → α → Option Landing}
    (hf : ∀ o x, LandsFrom s o → LandsFrom s (f o x)) (xs : List α) : LandsFrom s (xs.foldl f o) :=
  List.foldlRecOn (motive := LandsFrom s) xs f h fun o ho x _ => hf o x ho

end LandsFrom

theorem landingSlot_unchanged {l k : Landing} {seq i : Nat} (h : l.slot seq = some (i, k)) : Unchanged [.udc] l.st k.st := by
  unfold Landing.slot at h
  split at h
  · cases h
    exact unchanged_refl _ _
  · split at h
    · split at h
      case h_1 reserved =>
        cases h
        have kept := reserveSlots_unchanged l.st seq 1
        rw [reserved] at kept
        exact kept
      case h_2 => cases h
    · cases h

theorem landingPut_lands (l : Landing) (seq : Nat) (id : GranId) (pool clen : Nat) (bs fill : List (Nat × Nat)) :
    LandsFrom l.st (l.put seq id pool clen bs fill) := by
  unfold Landing.put
  split
  · exact .start (unchanged_refl _ _)
  · split
    · exact .start (bufferGranule_unchanged l.st _ _ _ _ _ _ _)
    · intro k e
      obtain ⟨⟨i, m⟩, slot, rfl⟩ := Option.map_eq_some_iff.mp e
      exact unchanged_trans (landingSlot_unchanged slot) (bufferGranule_unchanged m.st _ _ _ _ _ _ _)

theorem landWrite_lands (s : State) (seq : Nat) (c : Cmd) (ns : NsRec) (data clens : List Nat) (bad : List BadBlock)
    (free : List Nat) : LandsFrom s (landWrite s seq c ns data clens bad free) :=
  (LandsFrom.start (unchanged_refl _ s)).foldl (fun _ _ h => h.bind fun l => landingPut_lands l _ _ _ _ _ _) _

theorem landingZero_lands (l : Landing) (seq : Nat) (c : Cmd) (ns : NsRec) (clen : Nat) (bad : List BadBlock) (g : Nat) :
    LandsFrom l.st (l.zero seq c ns clen bad g) := by
  unfold Landing.zero
  dsimp only
  split
  · exact .start (setEntry_unchanged l.st _ _ _ _ _)
  · exact landingPut_lands l _ _ _ _ _ _

theorem landingZeroExtent_lands (l : Landing) (seq : Nat) (c : Cmd) (ns : NsRec) (clens : List Nat) (bad : List BadBlock)
    (x : Nat) : LandsFrom l.st (l.zeroExtent seq c ns clens bad x) := by
  unfold Landing.zeroExtent
  dsimp only
  have granules (o : Option Landing) (g : Nat) (h : LandsFrom l.st o) :
      LandsFrom l.st (o.bind fun l => l.zero seq c ns (clens.getD (g - c.g0) 0) bad g) :=
    h.bind fun l => landingZero_lands l _ _ _ _ _ _
  split
  · exact (LandsFrom.start (unchanged_refl _ l.st)).foldl granules _
  · refine (LandsFrom.start ?_).foldl granules _
    dsimp only
    split
    · exact unchanged_trans (setExt_unchanged l.st _ _ _ _) (unchanged_foldl (fun t j => setGran_unchanged t _ _ _ _) _ _)
    · exact setExt_unchanged l.st _ _ _ _

theorem landZeroes_lands (s : State) (seq : Nat) (c : Cmd) (ns : NsRec) (clens : List Nat) (bad : List BadBlock)
    (free : List Nat) : LandsFrom s (landZeroes s seq c ns clens bad free) := by
  unfold landZeroes
  dsimp only
  have granules (o : Option Landing) (g : Nat) (h : LandsFrom s o) :
      LandsFrom s (o.bind fun l => l.zero seq c ns (clens.getD (g - c.g0) 0) bad g) :=
    h.bind fun l => landingZero_lands l _ _ _ _ _ _
  have here : LandsFrom s (some { st := s, free := free }) := .start (unchanged_refl _ s)
  split
  · exact here.foldl granules _
  · refine here.foldl (fun o x h => ?_) _
    split
    · exact h.bind fun l => landingZeroExtent_lands l _ _ _ _ _ _
    · exact h.foldl granules _

/-! ## The command of an applied change -/

/-- Command `n` is in flight with the submission entry `e`. -/
def Carries (n : Nat) (e : Sqe) (t : State) : Prop := ∃ d, getCmd t n = some d ∧ d.sqe = e

theorem Carries.congr {n : Nat} {e : Sqe} {s t : State} (h : Carries n e s) (same : t.cmds = s.cmds) : Carries n e t := by
  obtain ⟨d, cmd, sqe⟩ := h
  exact ⟨d, (getCmd_congr same n).trans cmd, sqe⟩

theorem ozFlush_unchanged (k : Nat) (s : State) (p : Nat) : Unchanged [.ozp, .out] s (ozFlush k s p) := by
  induction k generalizing s with
  | zero => exact unchanged_refl _ s
  | succ k ih =>
    unfold ozFlush
    split
    · exact unchanged_refl _ s
    · split
      · refine unchanged_trans ?_ (ih _)
        intro part hpart
        cases part with
        | ozp | out => exact absurd (by decide) hpart
        | _ => rfl
      · exact unchanged_refl _ s

theorem setOzp_unchanged (s : State) (z : Ozper) : Unchanged [.ozp] s { s with ozp := z } := by
  intro part hpart
  cases part with
  | ozp => exact absurd List.mem_cons_self hpart
  | _ => rfl

theorem ozSend_unchanged (s : State) (p typ bytes : Nat) (payload : List Nat) (blocks : List (List Byte)) :
    Unchanged [.ozp, .out] s (ozSend s p typ bytes payload blocks) :=
  unchanged_trans (unchanged_mono (setOzp_unchanged s _) (by decide)) (ozFlush_unchanged _ _ p)

/-- A MIRROR frame adds its number to the command's. -/
theorem Carries.sendMirror {n : Nat} {e : Sqe} {s : State} (h : Carries n e s) (i sent : Nat) :
    Carries n e (sendMirror s i sent n) := by
  obtain ⟨d, cmd, sqe⟩ := h
  have waiting : { d with mids := d.mids ++ [s.ozp.mid] } ≠ noCmd := fun same =>
    absurd (congrArg Cmd.mids same) (List.append_ne_nil_of_right_ne_nil _ (List.cons_ne_nil _ _))
  have marked : getCmd (modSlot (modOzp s fun z => { z with mid := z.mid + 1, awaits := z.awaits ++ [(s.ozp.mid, i)] }) i
      fun x => { x with mids := x.mids ++ [s.ozp.mid], acked := false }) n = some d := cmd
  unfold Machine.sendMirror
  dsimp only
  rw [marked]
  refine Carries.congr (s := putCmd _ n { d with mids := d.mids ++ [s.ozp.mid] }) ⟨{ d with mids := d.mids ++ [s.ozp.mid] }, ?_, sqe⟩
    (ozSend_unchanged _ _ _ _ _ _ .cmds (by decide))
  rw [getCmd_putCmd _ n n waiting, if_pos rfl]

theorem Carries.commit {n : Nat} {e : Sqe} {l : Landing} (h : Carries n e l.st) : Carries n e (l.commit n) := by
  have freed : Carries n e (l.free.foldl freeSlot l.st) :=
    h.congr (unchanged_foldl (fun t i => modSlot_unchanged t i _) _ _ .cmds (by decide))
  refine List.foldlRecOn (motive := Carries n e) _ _ freed fun t ht u _ => ?_
  have dirty : Carries n e (modSlot (modUdc t fun v => { v with age := v.age + 1 }) u.1
    fun x => { x with state := 2, age := if x.state = 2 then x.age else t.udc.age }) := ht.congr rfl
  dsimp only
  split
  · exact dirty.sendMirror _ _
  · exact dirty.congr rfl

/-- Looking up a key after a change of values that leaves those under the key. -/
theorem find_map_values {α : Type} (l : Tbl α) (g : Nat × α → α) {n : Nat} (h : ∀ e, e.1 = n → g e = e.2) :
    ((l.map fun e => (e.1, g e)).find? (·.1 == n)).map (·.2) = (l.find? (·.1 == n)).map (·.2) := by
  induction l with
  | nil => rfl
  | cons e l ih =>
    rw [List.map_cons, List.find?_cons, List.find?_cons]
    by_cases key : e.1 = n
    · simp [key, h e key]
    · rw [beq_eq_false_iff_ne.mpr key]
      exact ih

/-- The blocks a command writes are noted with other commands. -/
theorem getCmd_noteBeaten (s : State) (n : Nat) (c : Cmd) : getCmd (noteBeaten s n c) n = getCmd s n := by
  refine find_map_values s.cmds _ fun e key => ?_
  simp [key]

theorem noteBeaten_unchanged (s : State) (n : Nat) (c : Cmd) : Unchanged [.cmds] s (noteBeaten s n c) :=
  setCmds_unchanged s _

theorem Carries.noteBeaten {n : Nat} {e : Sqe} {s : State} (h : Carries n e s) (c : Cmd) :
    Carries n e (noteBeaten s n c) := by
  obtain ⟨d, cmd, sqe⟩ := h
  exact ⟨d, (getCmd_noteBeaten s n c).trans cmd, sqe⟩

/-- A command that has been applied, its slots used. -/
def appliedCmd (d : Cmd) : Cmd := { d with applied := true, slots := [] }

theorem appliedCmd_ne (d : Cmd) : appliedCmd d ≠ noCmd := fun e => Bool.noConfusion (congrArg Cmd.applied e)

/-- Ending a command whose copies are written keeps it in flight, its entry, its slots and that it was applied. -/
theorem endIfCopied_keeps {s : State} {n : Nat} {d : Cmd} (h : getCmd s n = some d) :
    ∃ r st, getCmd (endIfCopied s n) n = some { d with done := st, result := r } := by
  unfold endIfCopied
  rw [h]
  dsimp only
  split
  · cases hdone : d.done with
    | none => exact ⟨_, _, getCmd_setDone h hdone 0 none⟩
    | some st =>
      have stays : setDone s n 0 = s := by simp [setDone, h, hdone]
      exact ⟨d.result, some st, by rw [stays, h, ← hdone]⟩
  · exact ⟨d.result, d.done, h⟩

/-- A change that landed is applied: its command counts as applied and holds no slot (R264). -/
theorem changeApplied_applies {s : State} {n : Nat} {c : Cmd} {l : Landing} (hcmd : getCmd s n = some c)
    (hlanded : Unchanged [.udc] s l.st) (old : State) (pool : Nat) :
    ∃ d, getCmd (changeApplied old n c pool l) n = some d ∧ d.sqe = c.sqe ∧ d.applied = true ∧ d.slots = [] := by
  have landed : Carries n c.sqe l.st := ⟨c, (getCmd_congr (hlanded .cmds (by decide)) n).trans hcmd, rfl⟩
  have noted := (landed.commit.noteBeaten c).congr (touchExtents_unchanged _ c pool .cmds (by decide))
  unfold changeApplied
  extract_lets touched kept marked
  have carried : Carries n c.sqe kept := by
    change Carries n c.sqe (if _ then _ else _)
    split
    · exact noted.congr rfl
    · exact noted
  obtain ⟨d, cmd, sqe⟩ := carried
  have same : marked = putCmd kept n (appliedCmd d) := by
    change (match getCmd kept n with | some c => _ | none => _) = _
    rw [cmd]
    rfl
  have stored : getCmd marked n = some (appliedCmd d) := by
    rw [same, getCmd_putCmd kept n n (appliedCmd_ne d), if_pos rfl]
  obtain ⟨r, st, ended⟩ := endIfCopied_keeps stored
  exact ⟨_, ended, sqe, rfl, rfl⟩

/-! ## Changes outside MIRROR mode (R23, R471) -/

/-- From `s` to `t` only slots have changed, and the counter that orders them. -/
def SlotsOnly (s t : State) : Prop := ∃ sl ag, t = { s with udc := { s.udc with slots := sl, age := ag } }

theorem SlotsOnly.modSlot {s t : State} (h : SlotsOnly s t) (i : Nat) (f : Slot → Slot) : SlotsOnly s (modSlot t i f) := by
  obtain ⟨sl, ag, rfl⟩ := h
  exact ⟨_, ag, rfl⟩

theorem SlotsOnly.aged {s t : State} (h : SlotsOnly s t) : SlotsOnly s (modUdc t fun u => { u with age := u.age + 1 }) := by
  obtain ⟨sl, ag, rfl⟩ := h
  exact ⟨sl, _, rfl⟩

theorem SlotsOnly.unchanged {s t : State} (h : SlotsOnly s t) : Unchanged [.udc] s t := by
  obtain ⟨sl, ag, rfl⟩ := h
  exact setUdc_unchanged s _

theorem SlotsOnly.gran {s t : State} (h : SlotsOnly s t) : t.udc.gran = s.udc.gran := by
  obtain ⟨sl, ag, rfl⟩ := h
  rfl

theorem SlotsOnly.fget {s t : State} (h : SlotsOnly s t) (f : Fld) : fget t f = fget s f := by
  obtain ⟨sl, ag, rfl⟩ := h
  rfl

/-- Outside MIRROR mode a landing's commit changes slots alone: each slot's second copy is a local one. -/
theorem commit_slotsOnly {l : Landing} (hmode : fget l.st OZP_STATUS_MODE ≠ 1) (n : Nat) : SlotsOnly l.st (l.commit n) := by
  have freed : SlotsOnly l.st (l.free.foldl freeSlot l.st) :=
    List.foldlRecOn (motive := SlotsOnly l.st) _ _ ⟨_, _, rfl⟩ fun t ht i _ => ht.modSlot i _
  refine List.foldlRecOn (motive := SlotsOnly l.st) _ _ freed fun t ht u _ => ?_
  have dirty : SlotsOnly l.st (modSlot (modUdc t fun v => { v with age := v.age + 1 }) u.1
    fun x => { x with state := 2, age := if x.state = 2 then x.age else t.udc.age }) := ht.aged.modSlot _ _
  dsimp only
  rw [if_neg (by rw [dirty.fget]; exact hmode)]
  exact dirty.modSlot _ _

/-- Outside MIRROR mode a change of flash blocks ends as it is applied. -/
theorem changeApplied_ends {s : State} {n : Nat} {c : Cmd} {l : Landing} (hcmd : getCmd s n = some c)
    (hgoes : c.done = none) (hmids : c.mids = []) (hmode : fget s OZP_STATUS_MODE ≠ 1)
    (hlanded : Unchanged [.udc] s l.st) (old : State) :
    getCmd (changeApplied old n c 0 l) n = some { appliedCmd c with done := some 0, result := n % 2 ^ 32 } ∧
      (changeApplied old n c 0 l).udc.gran = l.st.udc.gran ∧
      (∀ i, getSlot (changeApplied old n c 0 l) i = getSlot (l.commit n) i) ∧
      Unchanged [.cmds, .udc] s (changeApplied old n c 0 l) := by
  have mode : fget l.st OZP_STATUS_MODE ≠ 1 := by
    rw [fget_congr (s := s) (by rw [rget, rget, hlanded .regs (by decide)])]
    exact hmode
  have commit := commit_slotsOnly mode n
  have committed : Unchanged [.udc] s (l.commit n) := unchanged_trans hlanded commit.unchanged
  have cmds : (l.commit n).cmds = s.cmds := committed .cmds (by decide)
  have noted : getCmd (noteBeaten (l.commit n) n c) n = some c :=
    (getCmd_noteBeaten _ n c).trans ((getCmd_congr cmds n).trans hcmd)
  have single : ¬fget (noteBeaten (l.commit n) n c) OZP_STATUS_MODE = 1 := fun h => mode ((commit.fget _).symm.trans h)
  generalize hm : putCmd (noteBeaten (l.commit n) n c) n (appliedCmd c) = m
  have stored : getCmd m n = some (appliedCmd c) := by
    rw [← hm, getCmd_putCmd _ n n (appliedCmd_ne c), if_pos rfl]
  have ends : endIfCopied m n = setDone m n 0 := by
    simp [endIfCopied, stored, appliedCmd, hmids]
  have run : changeApplied old n c 0 l = setDone m n 0 := by
    rw [← ends, ← hm]
    unfold changeApplied touchExtents
    simp only [if_true, if_neg single, noted]
    rfl
  rw [run, setDone_unended stored hgoes]
  have frame : Unchanged [.cmds] (l.commit n) m := by
    rw [← hm]
    exact unchanged_trans (noteBeaten_unchanged _ n c) (putCmd_unchanged _ n _)
  have ended := unchanged_trans frame (putCmd_unchanged m n { appliedCmd c with done := some 0, result := n % 2 ^ 32 })
  have udc := ended .udc (by decide)
  refine ⟨?_, (congrArg Undercoat.gran udc).trans commit.gran, fun i => ?_,
    unchanged_trans (unchanged_mono committed (by decide)) (unchanged_mono ended (by decide))⟩
  · rw [← setDone_unended stored hgoes 0 none, getCmd_setDone stored hgoes]
    rfl
  · exact congrArg (fun u : Undercoat => tget {} u.slots i) udc

/-! ## What a slot holds (R264) -/

/-- Adding a power of two to a number that lacks it sets that bit alone. -/
theorem bit_add_two_pow {m b : Nat} (h : m / 2 ^ b % 2 = 0) (k : Nat) :
    (m + 2 ^ b) / 2 ^ k % 2 = if k = b then 1 else m / 2 ^ k % 2 := by
  have up : (m + 2 ^ b) / 2 ^ b = m / 2 ^ b + 1 := Nat.add_div_right m (Nat.two_pow_pos b)
  rcases Nat.lt_trichotomy k b with below | rfl | above
  · obtain ⟨d, rfl⟩ := Nat.exists_eq_add_of_lt below
    have split : 2 ^ (k + d + 1) = 2 ^ k * (2 ^ d * 2) := by ring
    rw [if_neg (by omega), split, Nat.add_mul_div_left _ _ (Nat.two_pow_pos k), Nat.add_mul_mod_self_right]
  · rw [if_pos rfl, up]
    omega
  · obtain ⟨d, rfl⟩ := Nat.exists_eq_add_of_lt above
    have split (x : Nat) : x / 2 ^ (b + d + 1) = x / 2 ^ b / 2 / 2 ^ d := by
      rw [Nat.div_div_eq_div_mul, Nat.div_div_eq_div_mul]
      congr 1
      ring
    rw [if_neg (by omega), split, split, up]
    congr 2
    omega

/-- A slot that holds the blocks `ks`, each with its value. -/
structure Holding (x : Slot) (ks : List Nat) (val : Nat → Nat) : Prop where
  mask : ∀ b, x.mask / 2 ^ b % 2 = if b ∈ ks then 1 else 0
  blocks : ∀ b ∈ ks, x.blocks.getD b 0 = val b
  tags : ∀ b, b ∉ ks → x.tags.getD b 0 = 0
  size : x.blocks.length = 4

/-- A block that the slot does not hold is stored, whatever command stores it. -/
theorem Holding.slotStore {x : Slot} {ks : List Nat} {val : Nat → Nat} (h : Holding x ks val) (seq : Nat) {b : Nat}
    (hb : b < 4) (hnew : b ∉ ks) : Holding (slotStore x seq b (val b)) (b :: ks) val := by
  have bit : x.mask / 2 ^ b % 2 = 0 := (h.mask b).trans (if_neg hnew)
  have stored : Machine.slotStore x seq b (val b) =
      { x with blocks := x.blocks.set b (val b), tags := x.tags.set b seq, mask := x.mask + 2 ^ b } := by
    have older : x.tags.getD b 0 ≤ seq := (h.tags b hnew).trans_le (Nat.zero_le seq)
    unfold Machine.slotStore
    rw [if_pos older, if_neg (by rw [bit]; decide)]
    rfl
  rw [stored]
  constructor
  case mask =>
    intro k
    rw [bit_add_two_pow bit, h.mask]
    by_cases hk : k = b
    · simp [hk]
    · simp [hk]
  case blocks =>
    intro k hk
    by_cases here : k = b
    · subst here
      simp [List.getD_eq_getElem?_getD, h.size, hb]
    · have held := h.blocks k ((List.mem_cons.mp hk).resolve_left here)
      rw [List.getD_eq_getElem?_getD] at held ⊢
      rw [List.getElem?_set_ne (Ne.symm here)]
      exact held
  case tags =>
    intro k hk
    rw [List.mem_cons, not_or] at hk
    have held := h.tags k hk.2
    rw [List.getD_eq_getElem?_getD] at held ⊢
    rw [List.getElem?_set_ne (Ne.symm hk.1)]
    exact held
  case size => exact (List.length_set ..).trans h.size

/-- Storing the blocks `js` one after the other. -/
theorem Holding.foldl {val : Nat → Nat} (seq : Nat) {js : List Nat} (hnodup : js.Nodup) {x : Slot} {ks : List Nat}
    (h : Holding x ks val) (hjs : ∀ b ∈ js, b < 4 ∧ b ∉ ks) :
    Holding ((js.map fun b => (b, val b)).foldl (fun x b => Machine.slotStore x seq b.1 b.2) x) (js.reverse ++ ks) val := by
  induction js generalizing x ks with
  | nil => exact h
  | cons b js ih =>
    obtain ⟨hb, hnew⟩ := hjs b List.mem_cons_self
    obtain ⟨hfirst, hrest⟩ := List.nodup_cons.mp hnodup
    rw [List.reverse_cons, List.append_assoc, List.singleton_append]
    refine ih hrest (h.slotStore seq hb hnew) fun k hk => ⟨(hjs k (List.mem_cons_of_mem b hk)).1, ?_⟩
    rw [List.mem_cons, not_or]
    exact ⟨fun e => hfirst (e ▸ hk), (hjs k (List.mem_cons_of_mem b hk)).2⟩

/-- Stored blocks leave what the slot's granule was before. -/
theorem prev_slotStores (seq : Nat) (bs : List (Nat × Nat)) (x : Slot) :
    (bs.foldl (fun x b => slotStore x seq b.1 b.2) x).prev = x.prev := by
  refine List.foldlRecOn (motive := fun y : Slot => y.prev = x.prev) bs _ rfl fun y hy b _ => ?_
  unfold slotStore
  split
  · exact hy
  · exact hy

/-! ## What a granule's blocks read as (R257 to R260, R264) -/

theorem mediaBlock_congr {s t : State} (h : t.nv = s.nv) (e : GranEntry) (b : Nat) (m : Missing) :
    mediaBlock t e b m = mediaBlock s e b m := by
  unfold mediaBlock readUnit partAt unitPlace getStripe
  rw [h]

/-- A block that no slot holds reads the same while the media hold the same. -/
theorem entryBlock_media {s t : State} (h : t.nv = s.nv) {e : GranEntry} (hkind : e.kind ≠ 2) (j k b : Nat) (m : Missing) :
    entryBlock (j + 1) t e b m = entryBlock (k + 1) s e b m := by
  unfold entryBlock
  split
  · rfl
  · rfl
  · contradiction
  · exact mediaBlock_congr h e b m

/-- A block of a ZERO granule. -/
theorem entryBlock_zero (s : State) {e : GranEntry} (hkind : e.kind = 0) (k b : Nat) (m : Missing) :
    entryBlock (k + 1) s e b m = .ok 0 := by
  rw [entryBlock]
  simp only [hkind]

/-- A block whose granule is in a slot: the slot's own, or what was there before. -/
theorem entryBlock_slot (s : State) {e : GranEntry} (hkind : e.kind = 2) (k b : Nat) (m : Missing) :
    entryBlock (k + 1) s e b m = if (getSlot s e.slot).mask / 2 ^ b % 2 = 1 then .ok ((getSlot s e.slot).blocks.getD b 0)
      else entryBlock k s (getSlot s e.slot).prev b m := by
  rw [entryBlock]
  simp only [hkind]

theorem readBlock_flash (s : State) (t n lba : Nat) (m : Missing) :
    readBlock s t n 0 lba m = entryBlock (slotsUsed s + 2) s (getGran s t n (lba / 4)) (lba % 4) m := rfl

theorem tget_setGran (s : State) (t n g k : Nat) (e : GranEntry) :
    tget {} (setGran s t n g e).udc.gran k = if k = granKey t n g then e else tget {} s.udc.gran k := tget_tset _ _ _ _ _

/-! ## WRITE inside one flash granule -/

/-- The slot that a granule's first write fills: the granule as it was, without a block of its own yet. -/
def freshSlot (id : GranId) (e : GranEntry) (seq : Nat) : Slot :=
  { state := 1, id := id, gen := (e.gen + 1) % 4096, prev := e, owner := seq + 1 }

/-- The granule of a command's first block as it is mapped. -/
def firstGran (s : State) (c : Cmd) : GranEntry := getGran s c.tenant c.sqe.nsid c.g0

/-- The blocks of its first granule that a WRITE stores. -/
def writtenBlocks (c : Cmd) (data : List Nat) : List (Nat × Nat) := c.newBlocks c.g0 fun i => data.getD i 0

/-- The slot that holds a WRITE's blocks of its first granule. -/
def writtenSlot (s : State) (n : Nat) (c : Cmd) (ns : NsRec) (data : List Nat) : Slot :=
  (writtenBlocks c data).foldl (fun x b => slotStore x n b.1 b.2) (freshSlot (c.granId ns c.g0) (firstGran s c) n)

/-- A WRITE's blocks of its first granule in slot `i`. -/
def landedWrite (s : State) (n : Nat) (c : Cmd) (ns : NsRec) (data : List Nat) (i : Nat) : Landing :=
  { st := setGran (modSlot s i fun _ => writtenSlot s n c ns data) c.tenant c.sqe.nsid c.g0
      { kind := 2, gen := ((firstGran s c).gen + 1) % 4096, slot := i }
    free := [], used := [(i, sentMask 0 (writtenBlocks c data))] }

section granule

variable {s : State} {n : Nat} {c : Cmd}

theorem covers_iff (c : Cmd) (g b : Nat) :
    c.covers g b = true ↔ c.sqe.slba ≤ 4 * g + b ∧ 4 * g + b ≤ c.sqe.slba + c.sqe.nlb := by
  simp [Cmd.covers]

/-- Where no later command has written, a change writes every block of its range. -/
theorem newBlocks_unbeaten (hbeaten : c.beaten = []) (g : Nat) (val : Nat → Nat) : c.newBlocks g val =
    ((List.range 4).filter (c.covers g)).map fun b => (b, val (4 * g + b - c.sqe.slba)) := by
  simp [Cmd.newBlocks, Cmd.lost, hbeaten]

/-- The range holds a block of its first granule. -/
theorem writtenBlocks_ne_nil (hbeaten : c.beaten = []) (data : List Nat) : writtenBlocks c data ≠ [] := by
  have first : c.sqe.slba % 4 ∈ (List.range 4).filter (c.covers c.g0) := by
    rw [List.mem_filter, List.mem_range, covers_iff, Cmd.g0]
    omega
  rw [writtenBlocks, newBlocks_unbeaten hbeaten]
  exact fun h => List.ne_nil_of_mem first (List.map_eq_nil_iff.mp h)

theorem landWrite_granule {ns : NsRec} (hpool : ns.pool = 0) (hplain : ns.compress = false) (hone : c.g0 = c.g1)
    (hbeaten : c.beaten = []) (hkind : (firstGran s c).kind ≠ 2) (i : Nat) (data clens : List Nat) (bad : List BadBlock) :
    landWrite s n c ns data clens bad [i] = some (landedWrite s n c ns data i) := by
  have one : (List.range (c.g1 + 1 - c.g0)).map (· + c.g0) = [c.g0] := by
    rw [← hone, Nat.add_sub_cancel_left]
    simp
  have written : ¬(writtenBlocks c data).isEmpty = true := by
    rw [List.isEmpty_iff]
    exact writtenBlocks_ne_nil hbeaten data
  have clean : dirtySlot s (c.granId ns c.g0) 0 = none := by
    have kind : (entryOf s c.tenant c.sqe.nsid 0 c.g0).kind ≠ 2 := hkind
    simp [dirtySlot, Cmd.granId, kind]
  unfold landWrite
  rw [one]
  simp only [List.foldl_cons, List.foldl_nil, Option.bind_some, hplain, hpool, Bool.false_eq_true, if_false, fillFor]
  unfold writtenBlocks at written
  simp only [Landing.put, if_neg written, clean, Landing.slot, Option.map_some, bufferGranule, List.isEmpty_nil, if_true]
  rfl

/-- The slot holds the blocks of the range that lie in the granule, each with its data. -/
theorem writtenSlot_holding (hbeaten : c.beaten = []) (ns : NsRec) (data : List Nat) :
    Holding (writtenSlot s n c ns data) (((List.range 4).filter (c.covers c.g0)).reverse ++ [])
      fun b => data.getD (4 * c.g0 + b - c.sqe.slba) 0 := by
  have empty : Holding (freshSlot (c.granId ns c.g0) (firstGran s c) n) []
      fun b => data.getD (4 * c.g0 + b - c.sqe.slba) 0 := by
    constructor
    case mask => exact fun b => by rw [freshSlot, Nat.zero_div]; rfl
    case blocks => exact fun b hb => absurd hb List.not_mem_nil
    case tags =>
      intro b _
      match b with
      | 0 | 1 | 2 | 3 | _ + 4 => rfl
    case size => rfl
  rw [writtenSlot, writtenBlocks, newBlocks_unbeaten hbeaten]
  exact empty.foldl n (List.nodup_range.filter _) fun b hb =>
    ⟨List.mem_range.mp (List.mem_of_mem_filter hb), List.not_mem_nil⟩

/-- A block of the granule while a slot holds what the WRITE stored: the range's own from the slot, any other as before. -/
theorem readBlock_written {t : State} {data : List Nat} {e : GranEntry} (hkind : (firstGran s c).kind ≠ 2)
    (hnv : t.nv = s.nv) (hgran : getGran t c.tenant c.sqe.nsid c.g0 = e) (hslot : e.kind = 2)
    (holds : Holding (getSlot t e.slot) (((List.range 4).filter (c.covers c.g0)).reverse ++ [])
      fun b => data.getD (4 * c.g0 + b - c.sqe.slba) 0)
    (hprev : (getSlot t e.slot).prev = firstGran s c) {l : Nat} (hl : l / 4 = c.g0) (m : Missing) :
    readBlock t c.tenant c.sqe.nsid 0 l m = if c.covers c.g0 (l % 4) then .ok (data.getD (l - c.sqe.slba) 0)
      else readBlock s c.tenant c.sqe.nsid 0 l m := by
  have place : 4 * c.g0 + l % 4 = l := by omega
  have listed : l % 4 ∈ ((List.range 4).filter (c.covers c.g0)).reverse ++ [] ↔ c.covers c.g0 (l % 4) = true := by
    rw [List.append_nil, List.mem_reverse, List.mem_filter, List.mem_range]
    exact and_iff_right (Nat.mod_lt l (by decide))
  rw [readBlock_flash, hl, hgran, entryBlock_slot t hslot, hprev, holds.mask]
  by_cases covered : c.covers c.g0 (l % 4) = true
  · rw [if_pos (if_pos (listed.mpr covered)), if_pos covered, holds.blocks _ (listed.mpr covered), place]
  · rw [if_neg (by rw [if_neg (mt listed.mp covered)]; decide), if_neg covered, readBlock_flash, hl]
    exact entryBlock_media hnv hkind _ _ _ _

end granule

@[simp] theorem getSlot_modSlot (s : State) (i j : Nat) (f : Slot → Slot) :
    getSlot (modSlot s i f) j = if j = i then f (getSlot s i) else getSlot s j := tget_tmod _ _ _ _ _

theorem getSlot_setGran (s : State) (t n g : Nat) (e : GranEntry) (i : Nat) : getSlot (setGran s t n g e) i = getSlot s i :=
  rfl

/-- A landing of one slot, committed outside MIRROR mode: the slot is dirty with a local second copy. -/
theorem getSlot_commit_one {l : Landing} {i m : Nat} (hmode : fget l.st OZP_STATUS_MODE ≠ 1) (hfree : l.free = [])
    (hused : l.used = [(i, m)]) (n : Nat) :
    ∃ a, getSlot (l.commit n) i = { getSlot l.st i with state := 2, age := a, local2 := true } := by
  unfold Landing.commit
  rw [hfree, hused]
  simp only [List.foldl_nil, List.foldl_cons]
  rw [if_neg (by exact hmode), getSlot_modSlot, if_pos rfl, getSlot_modSlot, if_pos rfl]
  exact ⟨_, rfl⟩

theorem hostGet_putCmd (s : State) (n : Nat) (c : Cmd) (fid addr len : Nat) :
    hostGet (putCmd s n c) fid addr len = putCmd (hostGet s fid addr len) n c :=
  List.foldl_hom (fun s => putCmd s n c) fun _ _ => rfl

section write

variable {s : State} {n : Nat} {c : Cmd} {data : List Nat}

/-- A WRITE whose data has come and which waits for no earlier read (R156). -/
structure WriteReady (s : State) (n : Nat) (c : Cmd) (data : List Nat) : Prop where
  runs : running s n 1 = some c
  unapplied : c.applied = false
  asked : c.stage = 1
  fetched : c.fetched = true
  first : earlierRead s n c = false
  full : data.length = c.sqe.nlb + 1

theorem exec_write (h : WriteReady s n c data) (clens : List Nat) (bad : List BadBlock) : exec (.write n data clens bad) s =
    if changeBar s (cmdNs s c).pool = 0 && c.sqe.itagChk && (crc32c (blockBytes data)).toNat ≠ c.sqe.itag
      then .next (setDone s n 0x0109)
    else if changeStatus s c (cmdNs s c) bad ≠ 0 then .next (setDone s n (changeStatus s c (cmdNs s c) bad))
    else .next ((landWrite s n c (cmdNs s c) data clens bad c.slots).elim s (changeApplied s n c (cmdNs s c).pool)) := by
  have harm : exec (.write n data clens bad) s = execWrite n data clens bad s := rfl
  have goes : ¬(!c.fetched || earlierRead s n c || data.length ≠ c.sqe.nlb + 1) = true := by
    simp [h.fetched, h.first, h.full]
  have asked : ¬c.stage = 0 := by rw [h.asked]; decide
  rw [harm]
  unfold execWrite
  simp only [h.runs]
  rw [if_neg (h.unapplied ▸ Bool.false_ne_true), if_neg asked, if_neg goes]
  refine if_congr Iff.rfl rfl (if_congr Iff.rfl rfl ?_)
  cases landWrite s n c (cmdNs s c) data clens bad c.slots <;> rfl

/-- A WRITE first reads its host buffer. -/
theorem write_asks (h : running s n 1 = some c) (hunapplied : c.applied = false) (hstage : c.stage = 0)
    (clens : List Nat) (bad : List BadBlock) : ∃ t, exec (.write n data clens bad) s = .next t ∧
      getCmd t n = some { c with stage := 1 } ∧
      t.out = (c.sqe.hostSegs.foldl (fun s g => hostGet s c.fid g.1 g.2) s).out ∧ Unchanged [.out, .cmds] s t := by
  generalize hu : c.sqe.hostSegs.foldl (fun s g => hostGet s c.fid g.1 g.2) s = u
  have asked : Unchanged [.out] s u := hu ▸ unchanged_foldl (fun t (g : Nat × Nat) => hostGet_unchanged t c.fid g.1 g.2) _ s
  have staged : c.sqe.hostSegs.foldl (fun s g => hostGet s c.fid g.1 g.2) (putCmd s n { c with stage := 1 }) =
      putCmd u n { c with stage := 1 } := by
    rw [← hu]
    exact List.foldl_hom (fun s => putCmd s n { c with stage := 1 }) fun t (g : Nat × Nat) =>
      hostGet_putCmd t n _ c.fid g.1 g.2
  have run : exec (.write n data clens bad) s = .next (putCmd u n { c with stage := 1 }) := by
    have harm : exec (.write n data clens bad) s = execWrite n data clens bad s := rfl
    rw [harm]
    unfold execWrite
    simp only [h]
    rw [if_neg (hunapplied ▸ Bool.false_ne_true), if_pos hstage, staged]
  have listed : { c with stage := 1 } ≠ noCmd := fun e => absurd (congrArg Cmd.stage e) Nat.one_ne_zero
  refine ⟨_, run, ?_, rfl, unchanged_trans (unchanged_mono asked (by decide))
    (unchanged_mono (putCmd_unchanged u n _) (by decide))⟩
  rw [getCmd_putCmd u n n listed, if_pos rfl]

/-- A change that ends without changing anything stored. -/
theorem change_ends {i : Instr} {opc status : Nat} (h : running s n opc = some c) (run : exec i s = .next (setDone s n status)) :
    ∃ t, exec i s = .next t ∧ getCmd t n = some { c with done := some status, result := n % 2 ^ 32 } ∧
      Unchanged [.cmds] s t := by
  obtain ⟨hcmd, hgoes⟩ := running_inFlight h
  exact ⟨_, run, getCmd_setDone hcmd hgoes status none, setDone_unchanged s n status none⟩

/-- A WRITE whose ITAG does not match ends with 0x0109. -/
theorem exec_write_mistagged (h : WriteReady s n c data) (clens : List Nat) (bad : List BadBlock)
    (hbar : changeBar s (cmdNs s c).pool = 0) (hchk : c.sqe.itagChk = true)
    (hitag : (crc32c (blockBytes data)).toNat ≠ c.sqe.itag) :
    exec (.write n data clens bad) s = .next (setDone s n 0x0109) :=
  (exec_write h clens bad).trans (if_pos (by simp [hbar, hchk, hitag]))

/-- A WRITE whose ITAG need not match, or does. -/
theorem exec_write_tagged (h : WriteReady s n c data) (clens : List Nat) (bad : List BadBlock)
    (hitag : c.sqe.itagChk = true → (crc32c (blockBytes data)).toNat = c.sqe.itag) :
    exec (.write n data clens bad) s =
      if changeStatus s c (cmdNs s c) bad ≠ 0 then .next (setDone s n (changeStatus s c (cmdNs s c) bad))
      else .next ((landWrite s n c (cmdNs s c) data clens bad c.slots).elim s
        (changeApplied s n c (cmdNs s c).pool)) := by
  refine (exec_write h clens bad).trans (if_neg ?_)
  simp only [Bool.and_eq_true, decide_eq_true_eq]
  exact fun bad => bad.2 (hitag bad.1.2)

/-- A WRITE whose checks pass and whose blocks land is applied. -/
theorem exec_write_lands (h : WriteReady s n c data) {clens : List Nat} {bad : List BadBlock} {l : Landing}
    (hitag : c.sqe.itagChk = true → (crc32c (blockBytes data)).toNat = c.sqe.itag)
    (hpass : changeStatus s c (cmdNs s c) bad = 0)
    (hlands : landWrite s n c (cmdNs s c) data clens bad c.slots = some l) :
    exec (.write n data clens bad) s = .next (changeApplied s n c (cmdNs s c).pool l) := by
  rw [exec_write_tagged h clens bad hitag, if_neg (not_not.mpr hpass), hlands]
  rfl

/-- A WRITE inside one flash granule that no slot holds, outside MIRROR mode: its blocks read as the data, the granule's
others as before, and every other granule's entry stays. -/
theorem write_granule (h : WriteReady s n c data) {i : Nat} (clens : List Nat) (bad : List BadBlock)
    (hitag : c.sqe.itagChk = true → (crc32c (blockBytes data)).toNat = c.sqe.itag)
    (hpass : changeStatus s c (cmdNs s c) bad = 0) (hpool : (cmdNs s c).pool = 0) (hplain : (cmdNs s c).compress = false)
    (hone : c.g0 = c.g1) (hslots : c.slots = [i]) (hbeaten : c.beaten = []) (hmids : c.mids = [])
    (hkind : (firstGran s c).kind ≠ 2) (hmode : fget s OZP_STATUS_MODE ≠ 1) :
    ∃ t d, exec (.write n data clens bad) s = .next t ∧ getCmd t n = some d ∧ d.done = some 0 ∧ d.applied = true ∧
      (∀ l, l / 4 = c.g0 → ∀ m, readBlock t c.tenant c.sqe.nsid 0 l m =
        if c.covers c.g0 (l % 4) then .ok (data.getD (l - c.sqe.slba) 0)
        else readBlock s c.tenant c.sqe.nsid 0 l m) ∧
      (∀ k, k ≠ granKey c.tenant c.sqe.nsid c.g0 → tget {} t.udc.gran k = tget {} s.udc.gran k) ∧
      Unchanged [.cmds, .udc] s t := by
  obtain ⟨hcmd, hgoes⟩ := running_inFlight h.runs
  have lands := landWrite_granule (n := n) hpool hplain hone hbeaten hkind i data clens bad
  rw [← hslots] at lands
  have run := exec_write_lands h hitag hpass lands
  rw [hpool] at run
  have landed : Unchanged [.udc] s (landedWrite s n c (cmdNs s c) data i).st := landWrite_lands _ _ _ _ _ _ _ _ _ lands
  obtain ⟨cmd, grans, slots, frame⟩ := changeApplied_ends hcmd hgoes hmids hmode landed s
  obtain ⟨a, slot⟩ := getSlot_commit_one (l := landedWrite s n c (cmdNs s c) data i) hmode rfl rfl n
  have filled : getSlot (landedWrite s n c (cmdNs s c) data i).st i = writtenSlot s n c (cmdNs s c) data := by
    rw [landedWrite, getSlot_setGran, getSlot_modSlot, if_pos rfl]
  rw [filled, ← slots] at slot
  generalize changeApplied s n c 0 (landedWrite s n c (cmdNs s c) data i) = t at run cmd grans slot frame
  have gran (k : Nat) : tget {} t.udc.gran k = if k = granKey c.tenant c.sqe.nsid c.g0
      then { kind := 2, gen := ((firstGran s c).gen + 1) % 4096, slot := i } else tget {} s.udc.gran k := by
    rw [grans]
    exact tget_setGran _ _ _ _ k _
  have stored := writtenSlot_holding (s := s) (n := n) hbeaten (cmdNs s c) data
  have holds : Holding (getSlot t i) (((List.range 4).filter (c.covers c.g0)).reverse ++ [])
      fun b => data.getD (4 * c.g0 + b - c.sqe.slba) 0 := by
    rw [slot]
    exact ⟨stored.mask, stored.blocks, stored.tags, stored.size⟩
  have prev : (getSlot t i).prev = firstGran s c := by
    rw [slot]
    exact prev_slotStores n _ _
  exact ⟨t, _, run, cmd, rfl, rfl, fun lba hlba m =>
    readBlock_written hkind (frame .nv (by decide)) ((gran _).trans (if_pos rfl)) rfl holds prev hlba m,
    fun k hk => (gran k).trans (if_neg hk), frame⟩

end write

/-! ## WRITE_ZEROES and DEALLOCATE (R142) -/

section zeroes

variable {s : State} {n opc : Nat} {c : Cmd}

/-- The two commands have one effect. -/
theorem exec_zeroes (s : State) {clens : List Nat} {bad : List BadBlock} {i : Instr}
    (hi : (opc = 8 ∧ i = .writeZeroes n clens bad) ∨ (opc = 9 ∧ i = .deallocate n clens bad)) :
    exec i s = .next (zeroCommand opc n clens bad s) := by
  rcases hi with ⟨rfl, rfl⟩ | ⟨rfl, rfl⟩
  · rfl
  · rfl

/-- Its effect once it waits for no earlier read (R156). -/
theorem zeroCommand_ready (h : running s n opc = some c) (hunapplied : c.applied = false)
    (hfirst : earlierRead s n c = false) (clens : List Nat) (bad : List BadBlock) : zeroCommand opc n clens bad s =
      if changeStatus s c (cmdNs s c) bad ≠ 0 then setDone s n (changeStatus s c (cmdNs s c) bad)
      else (landZeroes s n c (cmdNs s c) clens bad c.slots).elim s (changeApplied s n c (cmdNs s c).pool) := by
  unfold zeroCommand
  simp only [h]
  rw [if_neg (hunapplied ▸ Bool.false_ne_true), if_neg (hfirst ▸ Bool.false_ne_true)]
  refine if_congr Iff.rfl rfl ?_
  cases landZeroes s n c (cmdNs s c) clens bad c.slots <;> rfl

theorem zeroCommand_lands (h : running s n opc = some c) (hunapplied : c.applied = false)
    (hfirst : earlierRead s n c = false) {clens : List Nat} {bad : List BadBlock} {l : Landing}
    (hpass : changeStatus s c (cmdNs s c) bad = 0)
    (hlands : landZeroes s n c (cmdNs s c) clens bad c.slots = some l) :
    zeroCommand opc n clens bad s = changeApplied s n c (cmdNs s c).pool l := by
  rw [zeroCommand_ready h hunapplied hfirst, if_neg (not_not.mpr hpass), hlands]
  rfl

/-- Where no later command has written, a change of a whole granule writes its four blocks. -/
theorem newBlocks_whole (hbeaten : c.beaten = []) {g : Nat} (hwhole : c.whole g = true) (val : Nat → Nat) :
    (c.newBlocks g val).length = 4 := by
  have covers : ∀ b ∈ List.range 4, c.covers g b = true := by
    rw [Cmd.whole, Bool.and_eq_true, covers_iff, covers_iff] at hwhole
    intro b hb
    rw [List.mem_range] at hb
    rw [covers_iff]
    omega
  rw [newBlocks_unbeaten hbeaten, List.filter_eq_self.mpr covers]
  rfl

/-- One whole granule becomes ZERO. -/
theorem landZeroes_granule {ns : NsRec} (hpool : ns.pool = 0) (hone : c.g0 = c.g1) (hwhole : c.whole c.g0 = true)
    (hbeaten : c.beaten = []) (hkind : (firstGran s c).kind ≠ 2) (hlower : lowerInFlight s n c c.g0 = false)
    (clens : List Nat) (bad : List BadBlock) (free : List Nat) : landZeroes s n c ns clens bad free =
      some { st := setGran s c.tenant c.sqe.nsid c.g0 { kind := 0, gen := ((firstGran s c).gen + 1) % 4096 }
             free := free } := by
  have one : (List.range (c.g1 + 1 - c.g0)).map (· + c.g0) = [c.g0] := by
    rw [← hone, Nat.add_sub_cancel_left]
    simp
  have zeroed : (c.whole c.g0 && (entryOf s c.tenant c.sqe.nsid 0 c.g0).kind ≠ 2 && !lowerInFlight s n c c.g0 &&
      (c.newBlocks c.g0 fun _ => 0).length = 4) = true := by
    have kind : (entryOf s c.tenant c.sqe.nsid 0 c.g0).kind ≠ 2 := hkind
    simp [hwhole, kind, hlower, newBlocks_whole hbeaten hwhole]
  unfold landZeroes
  dsimp only
  rw [if_pos hpool, one]
  simp only [List.foldl_cons, List.foldl_nil, Option.bind_some, Landing.zero, hpool, if_pos zeroed]
  rfl

/-- A change of one whole flash granule that no slot holds, outside MIRROR mode: it ends with status 0, the granule reads
0, and every other granule's entry stays. -/
theorem zeroCommand_granule (h : running s n opc = some c) (hunapplied : c.applied = false)
    (hfirst : earlierRead s n c = false) (clens : List Nat) (bad : List BadBlock)
    (hpass : changeStatus s c (cmdNs s c) bad = 0) (hpool : (cmdNs s c).pool = 0) (hone : c.g0 = c.g1)
    (hwhole : c.whole c.g0 = true) (hbeaten : c.beaten = []) (hmids : c.mids = []) (hkind : (firstGran s c).kind ≠ 2)
    (hlower : lowerInFlight s n c c.g0 = false) (hmode : fget s OZP_STATUS_MODE ≠ 1) :
    ∃ d, getCmd (zeroCommand opc n clens bad s) n = some d ∧ d.done = some 0 ∧
      (∀ j < 4, readBlock (zeroCommand opc n clens bad s) c.tenant c.sqe.nsid 0 (4 * c.g0 + j) {} = .ok 0) ∧
      (∀ k, k ≠ granKey c.tenant c.sqe.nsid c.g0 →
        tget {} (zeroCommand opc n clens bad s).udc.gran k = tget {} s.udc.gran k) ∧
      Unchanged [.cmds, .udc] s (zeroCommand opc n clens bad s) := by
  obtain ⟨hcmd, hgoes⟩ := running_inFlight h
  have lands := landZeroes_granule hpool hone hwhole hbeaten hkind hlower clens bad c.slots
  obtain ⟨cmd, grans, -, frame⟩ := changeApplied_ends hcmd hgoes hmids hmode
    (landZeroes_lands _ _ _ _ _ _ _ _ lands) s
  rw [zeroCommand_lands h hunapplied hfirst hpass lands, hpool]
  have gran (k : Nat) := (congrArg (fun t => tget {} t k) grans).trans (tget_setGran s c.tenant c.sqe.nsid c.g0 k _)
  refine ⟨_, cmd, rfl, fun j hj => ?_, fun k hk => (gran k).trans (if_neg hk), frame⟩
  have place : (4 * c.g0 + j) / 4 = c.g0 := by omega
  rw [readBlock_flash, place, getGran, gran, if_pos rfl]
  exact entryBlock_zero _ rfl _ _ _

end zeroes

/-! ## The statement on changes of stored data -/

/-- Settles O25: WRITE by its stage and outcome, then WRITE_ZEROES and DEALLOCATE by theirs. -/
theorem writeZeroesDeallocate : Obligations.WriteZeroesDeallocate := by
  unfold Obligations.WriteZeroesDeallocate
  refine ⟨?_, ?_, ?_, ?_, ?_, ?_⟩
  · intro s n c data clens bad hruns hunapplied hstage
    exact write_asks hruns hunapplied hstage clens bad
  · intro s n c data clens bad hruns hunapplied hstage hfetched hfirst hfull hbar hchk hitag
    have ready : WriteReady s n c data := ⟨hruns, hunapplied, hstage, hfetched, hfirst, hfull⟩
    exact change_ends hruns (exec_write_mistagged ready clens bad hbar hchk hitag)
  · intro s n c data clens bad hruns hunapplied hstage hfetched hfirst hfull hchk hfail
    have ready : WriteReady s n c data := ⟨hruns, hunapplied, hstage, hfetched, hfirst, hfull⟩
    exact change_ends hruns ((exec_write_tagged ready clens bad fun on => absurd on (hchk ▸ Bool.false_ne_true)).trans
      (if_pos hfail))
  · intro s n i c data clens bad hruns hunapplied hstage hfetched hfirst hfull hitag hpass hpool hplain hone hslots hbeaten
      hmids hkind hmode
    have ready : WriteReady s n c data := ⟨hruns, hunapplied, hstage, hfetched, hfirst, hfull⟩
    obtain ⟨t, d, run, cmd, done, applied, reads, grans, frame⟩ := write_granule ready clens bad hitag hpass hpool hplain
      hone hslots hbeaten hmids hkind hmode
    refine ⟨t, d, run, cmd, done, applied, fun j hj => ?_, fun l hl hout => ?_, grans, frame⟩
    · have inside : (c.sqe.slba + j) / 4 = c.g0 := by
        unfold Cmd.g0 Cmd.g1 at hone
        unfold Cmd.g0
        omega
      have covered : c.covers c.g0 ((c.sqe.slba + j) % 4) = true := by
        rw [covers_iff]
        omega
      rw [reads _ inside, if_pos covered, Nat.add_sub_cancel_left]
    · have outside : ¬c.covers c.g0 (l % 4) = true := by
        rw [covers_iff]
        omega
      rw [reads _ hl, if_neg outside]
  · intro s n c data clens bad l hruns hunapplied hstage hfetched hfirst hfull hchk hpass hlands
    have ready : WriteReady s n c data := ⟨hruns, hunapplied, hstage, hfetched, hfirst, hfull⟩
    obtain ⟨d, applied⟩ := changeApplied_applies (running_inFlight hruns).1 (landWrite_lands _ _ _ _ _ _ _ _ l hlands) s
      (cmdNs s c).pool
    exact ⟨_, d, exec_write_lands ready (fun on => absurd on (hchk ▸ Bool.false_ne_true)) hpass hlands, applied⟩
  · intro s n opc c clens bad i hi hruns hunapplied hfirst
    have run := exec_zeroes s hi
    refine ⟨fun hfail => ?_, ?_, fun l hpass hlands => ?_⟩
    · rw [zeroCommand_ready hruns hunapplied hfirst, if_pos hfail] at run
      exact change_ends hruns run
    · intro hpass hpool hone hwhole hbeaten hmids hkind hlower hmode
      obtain ⟨d, ended⟩ := zeroCommand_granule hruns hunapplied hfirst clens bad hpass hpool hone hwhole hbeaten hmids
        hkind hlower hmode
      exact ⟨_, d, run, ended⟩
    · rw [zeroCommand_lands hruns hunapplied hfirst hpass hlands] at run
      obtain ⟨d, applied⟩ := changeApplied_applies (running_inFlight hruns).1 (landZeroes_lands _ _ _ _ _ _ _ l hlands) s
        (cmdNs s c).pool
      exact ⟨_, d, run, applied⟩

end Sys2Proof.Laws
end

section
/-!
PROOFS. The statement of 06_tenants_masking_qos.md on the life of a tenant and of its key (R171, R175 to R177, R181). The lemmas
in front of it serve every later proof about tenants: what a change of one tenant's context or record leaves of the others,
how a command that names a tenant with a context runs and ends, what a contract in force and a release of mappings change.
-/

namespace Sys2Proof.Laws

open Sys2Proof.Machine

/-! ## Tenant contexts and records (R170) -/

section contexts

variable (s : State) (t u : Nat) (f : Tenant → Tenant) (g : TenantNv → TenantNv)

@[simp] theorem getTen_modTen : getTen (modTen s t f) u = if u = t then f (getTen s t) else getTen s u :=
  tget_tmod _ _ _ _ _

@[simp] theorem getTenNv_modTenNv :
    getTenNv (modTenNv s t g) u = if u = t then g (getTenNv s t) else getTenNv s u := tget_tmod _ _ _ _ _

@[simp] theorem getTen_modTenNv : getTen (modTenNv s t g) u = getTen s u := rfl

@[simp] theorem getTenNv_modTen : getTenNv (modTen s t f) u = getTenNv s u := rfl

@[simp] theorem modTen_cmds : (modTen s t f).cmds = s.cmds := rfl

@[simp] theorem modTenNv_cmds : (modTenNv s t g).cmds = s.cmds := rfl

theorem setTenants_unchanged (ts : Tbl Tenant) : Unchanged [.tenants] s { s with tenants := ts } := by
  intro part hpart
  cases part with
  | tenants => exact absurd List.mem_cons_self hpart
  | _ => rfl

theorem modTen_unchanged : Unchanged [.tenants] s (modTen s t f) := setTenants_unchanged s _

theorem modTenNv_unchanged : Unchanged [.nv] s (modTenNv s t g) := setNv_unchanged s _

theorem modDir_unchanged (n : Nat) (wr : Bool) (d : ClassDir → ClassDir) : Unchanged [.tenants] s (modDir s t n wr d) :=
  modTen_unchanged s t _

end contexts

theorem getTen_congr {s t : State} (h : t.tenants = s.tenants) (u : Nat) : getTen t u = getTen s u := by
  rw [getTen, getTen, h]

theorem getTenNv_congr {s t : State} (h : t.nv = s.nv) (u : Nat) : getTenNv t u = getTenNv s u := by
  rw [getTenNv, getTenNv, h]

/-- Table 06-1's code from what the record and the context hold. -/
theorem tenState_absent {s : State} {t : Nat} (h : (getTenNv s t).state = 0) : tenState s t = 0 := by
  rw [tenState, h]
  rfl

theorem tenState_noKey {s : State} {t : Nat} (h : (getTenNv s t).state = 1) (hkey : (getTen s t).key = none) :
    tenState s t = 1 := by
  rw [tenState, h, hkey]
  rfl

theorem tenState_destroying {s : State} {t : Nat} (h : (getTenNv s t).state = 3) : tenState s t = 3 := by
  rw [tenState, h]
  rfl

/-! ## Commands that name a tenant (R171, R183) -/

theorem dmkSend_unchanged (s : State) (code data : Nat) : Unchanged reportParts s (dmkSend s code data) :=
  ((ReportFrame.refl s).after_dmkSend code data).parts

section readers

variable (s : State) (t : Nat)

@[simp] theorem getTen_dmkSend (code data : Nat) : getTen (dmkSend s code data) t = getTen s t :=
  getTen_congr (dmkSend_unchanged s code data .tenants (by decide)) t

@[simp] theorem getTenNv_dmkSend (code data : Nat) : getTenNv (dmkSend s code data) t = getTenNv s t :=
  getTenNv_congr (dmkSend_unchanged s code data .nv (by decide)) t

@[simp] theorem getTen_hostGet (fid addr len : Nat) : getTen (hostGet s fid addr len) t = getTen s t :=
  getTen_congr (hostGet_unchanged s fid addr len .tenants (by decide)) t

@[simp] theorem getTenNv_hostGet (fid addr len : Nat) : getTenNv (hostGet s fid addr len) t = getTenNv s t :=
  getTenNv_congr (hostGet_unchanged s fid addr len .nv (by decide)) t

@[simp] theorem getTen_setDone (n status : Nat) (result : Option Nat) :
    getTen (setDone s n status result) t = getTen s t :=
  getTen_congr (setDone_unchanged s n status result .tenants (by decide)) t

@[simp] theorem getTenNv_setDone (n status : Nat) (result : Option Nat) :
    getTenNv (setDone s n status result) t = getTenNv s t :=
  getTenNv_congr (setDone_unchanged s n status result .nv (by decide)) t

@[simp] theorem getTen_setStage (n : Nat) (c : Cmd) : getTen (setStage s n c) t = getTen s t := rfl

@[simp] theorem getTenNv_setStage (n : Nat) (c : Cmd) : getTenNv (setStage s n c) t = getTenNv s t := rfl

end readers

section commands

variable {s u : State} {n opc : Nat} {c : Cmd}

/-- A control command that names a tenant with a context runs. -/
theorem tenantCommand_runs (h : adminCmd s n opc = some c)
    (hctx : tenState s c.sqe.target = 1 ∨ tenState s c.sqe.target = 2) (f : Cmd → Nat → State) :
    tenantCommand s n opc f = f c c.sqe.target := by
  have present : ¬(tenState s c.sqe.target = 0 || tenState s c.sqe.target = 3) = true := by
    rcases hctx with hst | hst <;> simp [hst]
  rw [tenantCommand, h]
  exact if_neg present

/-- An admin command that ends, in a state with the same commands in flight. -/
theorem adminCmd_ends (h : adminCmd s n opc = some c) (hcmds : u.cmds = s.cmds) (status : Nat) :
    getCmd (setDone u n status) n = some { c with done := some status, result := n % 2 ^ 32 } := by
  obtain ⟨hcmd, hgoes, -⟩ := adminCmd_inFlight h
  exact (setDone_ends hcmds hcmd hgoes status none).1

/-- An admin command that took effect for later commands and then ends. -/
theorem staged_ends (h : adminCmd s n opc = some c) (hcmds : u.cmds = (setStage s n c).cmds) (status : Nat) :
    getCmd (setDone u n status) n = some { c with stage := 1, done := some status, result := n % 2 ^ 32 } := by
  obtain ⟨-, hgoes, hadmin⟩ := adminCmd_inFlight h
  have staged : getCmd (setStage s n c) n = some { c with stage := 1 } := by
    rw [getCmd_setStage s n n hadmin, if_pos rfl]
  exact (setDone_ends hcmds staged hgoes status none).1

/-- Marking a command does not put another one in front of it. -/
theorem lowerBusy_staged {t : Nat} {p : Cmd → Bool} (hidle : lowerBusy s t n p = false)
    (hcmds : u.cmds = (setStage s n c).cmds) : lowerBusy u t n p = false := by
  rw [lowerBusy, List.any_eq_false] at hidle ⊢
  intro e he
  rcases mem_tset (hcmds ▸ he) with before | rfl
  · exact hidle e before
  · simp

theorem setStage_unchanged (s : State) (n : Nat) (c : Cmd) : Unchanged [.cmds] s (setStage s n c) := putCmd_unchanged s n _

end commands

/-! ## Contracts in force (R185, R190) -/

theorem setReduction_unchanged (s : State) (k : Nat) (b : Bool) : Unchanged [.phase, .regs, .dmk] s (setReduction s k b) := by
  have marked : Unchanged [.phase, .regs, .dmk] s (fsetBit s GLB_STATUS_REDUCTION k b) :=
    unchanged_mono (fsetBit_unchanged s _ k b) (by decide)
  unfold setReduction
  dsimp only
  split
  · split
    · exact unchanged_trans marked (setPhase_unchanged _ _ _ _)
    · exact marked
  · split
    · exact marked
    · exact unchanged_trans marked (setPhase_unchanged _ _ _ _)
  · exact marked

theorem recomputeFloor_unchanged (s : State) (t n : Nat) (c : ClassRec) (wr : Bool) :
    Unchanged (.tenants :: reportParts) s (recomputeFloor s t n c wr) := by
  unfold recomputeFloor
  extract_lets whole eff old cut floored data
  have floored' : Unchanged (.tenants :: reportParts) s floored :=
    unchanged_mono (modDir_unchanged s t n wr _) (by decide)
  have told (code : Nat) : Unchanged (.tenants :: reportParts) s (dmkSend floored code data) :=
    unchanged_trans floored' (unchanged_mono (dmkSend_unchanged _ _ _) (by decide))
  split
  · exact told _
  · split
    · exact told _
    · exact floored'

theorem recomputeFloors_unchanged (s : State) : Unchanged (.tenants :: reportParts) s (recomputeFloors s) := by
  unfold recomputeFloors
  extract_lets floored
  have floored' : Unchanged (.tenants :: reportParts) s floored := by
    refine unchanged_foldl (fun b e => unchanged_foldl (fun b x => ?_) _ b) _ s
    obtain ⟨c, n⟩ := x
    cases c with
    | none => exact unchanged_refl _ b
    | some c => exact unchanged_trans (recomputeFloor_unchanged _ _ _ _ _) (recomputeFloor_unchanged _ _ _ _ _)
  split
  · exact floored'
  · exact unchanged_trans floored' (unchanged_mono (setReduction_unchanged _ _ _) (by decide))

/-- A contract that comes into force changes its tenant's record, and beside it the tenants' service state and what reports
may change. -/
theorem installContract_unchanged (s : State) (t : Nat) (k : Option Contract) :
    Unchanged (.tenants :: reportParts) (modTenNv s t fun r => { r with contract := k }) (installContract s t k) := by
  unfold installContract
  extract_lets old recorded new one
  have one' (b : State) (n : Nat) (wr : Bool) : Unchanged (.tenants :: reportParts) b (one b n wr) := by
    dsimp only [one]
    split
    · exact unchanged_mono (modDir_unchanged b t n wr _) (by decide)
    · exact unchanged_mono (modDir_unchanged b t n wr _) (by decide)
  refine unchanged_trans (unchanged_foldl (fun b n => ?_) _ recorded) (recomputeFloors_unchanged _)
  exact unchanged_trans (one' b n false) (one' _ n true)

theorem getTenNv_installContract (s : State) (t u : Nat) (k : Option Contract) : getTenNv (installContract s t k) u =
    if u = t then { getTenNv s t with contract := k } else getTenNv s u := by
  rw [getTenNv_congr (installContract_unchanged s t k .nv (by decide)), getTenNv_modTenNv]

theorem installContract_cmds (s : State) (t : Nat) (k : Option Contract) : (installContract s t k).cmds = s.cmds :=
  installContract_unchanged s t k .cmds (by decide)

/-! ## Mappings released (R174, R181, R473) -/

theorem sendRelease_unchanged (k : Nat) (s : State) (l : List Nat) : Unchanged [.ozp, .out] s (sendRelease k s l) := by
  induction k generalizing s l with
  | zero => exact unchanged_refl _ s
  | succ k ih =>
    unfold sendRelease
    split
    · exact unchanged_refl _ s
    · exact unchanged_trans (ozSend_unchanged s _ _ _ _ _) (ih _ _)

/-- Freed slots change slots alone, and Ozper where the partner is told. -/
theorem releaseSlots_slotsOnly (s : State) (is : List Nat) :
    ∃ r, SlotsOnly s r ∧ Unchanged [.ozp, .out] r (releaseSlots s is) := by
  have freed : SlotsOnly s (is.foldl freeSlot s) :=
    List.foldlRecOn (motive := SlotsOnly s) _ _ ⟨_, _, rfl⟩ fun t ht i _ => ht.modSlot i _
  refine ⟨_, freed, ?_⟩
  unfold releaseSlots
  dsimp only
  split
  · exact sendRelease_unchanged _ _ _
  · exact unchanged_refl _ _

theorem releaseSlots_unchanged (s : State) (is : List Nat) : Unchanged [.udc, .ozp, .out] s (releaseSlots s is) := by
  obtain ⟨r, freed, told⟩ := releaseSlots_slotsOnly s is
  exact unchanged_trans (unchanged_mono freed.unchanged (by decide)) (unchanged_mono told (by decide))

/-- A key of the mapping that the selected namespaces of a tenant own. -/
def ownedBy (t : Nat) (p : Nat → Bool) (k : Nat) : Bool := k / 2 ^ 52 / 16 == t % 1024 && p (k / 2 ^ 52 % 16)

theorem logRecord_unchanged (s : State) (k : Nat) : Unchanged [.udc] s (logRecord s k) := modUdc_unchanged s _

theorem releaseNs_unchanged (s : State) (t : Nat) (p : Nat → Bool) :
    Unchanged [.nv, .udc, .ozp, .out] s (releaseNs s t p) := by
  unfold releaseNs
  extract_lets own slots freed logged
  have freed' : Unchanged [.nv, .udc, .ozp, .out] s freed := unchanged_mono (releaseSlots_unchanged s slots) (by decide)
  have logged' : Unchanged [.nv, .udc, .ozp, .out] freed logged :=
    unchanged_trans (unchanged_mono (modUdc_unchanged freed _) (by decide))
      (unchanged_mono (logRecord_unchanged _ 1) (by decide))
  exact unchanged_trans freed' (unchanged_trans logged' (unchanged_mono (modTenNv_unchanged logged t _) (by decide)))

theorem getTenNv_releaseNs (s : State) (t u : Nat) (p : Nat → Bool) : getTenNv (releaseNs s t p) u =
    if u = t then { getTenNv s t with ns := (getTenNv s t).ns.filter fun e => !p e.1 } else getTenNv s u := by
  have logged (b : State) (k v : Nat) : getTenNv (logRecord b k) v = getTenNv b v :=
    getTenNv_congr (logRecord_unchanged b k .nv (by decide)) v
  have freed (is : List Nat) (h : Undercoat → Undercoat) (v : Nat) :
      getTenNv (modUdc (releaseSlots s is) h) v = getTenNv s v :=
    getTenNv_congr (releaseSlots_unchanged s is .nv (by decide)) v
  unfold releaseNs
  dsimp only
  rw [getTenNv_modTenNv, logged, logged, freed, freed]

/-- What a release keeps of a mapping table lies outside the released namespaces. -/
theorem not_ownedBy_of_mem {α : Type} {t : Nat} {p : Nat → Bool} {m : Tbl α} {e : Nat × α}
    (he : e ∈ m.filter fun e : Nat × α => !ownedBy t p e.1) : ownedBy t p e.1 = false :=
  (Bool.not_eq_true' _).mp (List.of_mem_filter (p := fun e : Nat × α => !ownedBy t p e.1) he)

/-- No granule and no extent of the released namespaces stays mapped. -/
theorem releaseNs_unmaps (s : State) (t : Nat) (p : Nat → Bool) :
    (∀ e ∈ (releaseNs s t p).udc.gran, ownedBy t p e.1 = false) ∧
      ∀ e ∈ (releaseNs s t p).udc.ext, ownedBy t p e.1 = false :=
  ⟨fun _ => not_ownedBy_of_mem, fun _ => not_ownedBy_of_mem⟩

/-- A key outside all the namespaces of a tenant. -/
theorem ne_of_not_ownedBy {t k : Nat} (ht : t < 512) (h : ownedBy t (fun _ => true) k = false) : k / 2 ^ 52 / 16 ≠ t := by
  rw [ownedBy, Bool.and_true, beq_eq_false_iff_ne, Nat.mod_eq_of_lt (show t < 1024 by omega)] at h
  exact h

/-! ## TENANT_CREATE and TENANT_DESTROY (R171, R181) -/

section life

variable {s : State} {n : Nat} {c : Cmd}

/-- The state in which TENANT_CREATE has entered a new tenant, under a salt drawn from the entropy source. -/
def createdTenant (s : State) (t : Nat) : State :=
  modTen (modTenNv { s with freeCtr := s.freeCtr + 1 } t fun r =>
    { state := 1, salt := Config.entropy s.freeCtr % 2 ^ 128, incarn := r.incarn }) t fun _ => {}

theorem exec_tenantCreate_absent (h : adminCmd s n 0x40 = some c) (habsent : tenState s c.sqe.target = 0) :
    exec (.tenantCreate n) s = .next (setDone (createdTenant s c.sqe.target) n 0) := by
  have harm : exec (.tenantCreate n) s = execTenantCreate n s := rfl
  rw [harm, execTenantCreate, h]
  simp only [habsent]
  rfl

theorem createdTenant_unchanged (s : State) (t : Nat) : Unchanged [.freeCtr, .nv, .tenants] s (createdTenant s t) :=
  unchanged_trans (unchanged_mono (setFreeCtr_unchanged s _) (by decide))
    (unchanged_trans (unchanged_mono (modTenNv_unchanged _ t _) (by decide))
      (unchanged_mono (modTen_unchanged _ t _) (by decide)))

theorem getTen_createdTenant (s : State) (t u : Nat) :
    getTen (createdTenant s t) u = if u = t then {} else getTen s u := getTen_modTen _ t u _

theorem getTenNv_createdTenant (s : State) (t u : Nat) : getTenNv (createdTenant s t) u =
    if u = t then { state := 1, salt := Config.entropy s.freeCtr % 2 ^ 128, incarn := (getTenNv s t).incarn }
    else getTenNv s u := getTenNv_modTenNv _ t u _

theorem exec_tenantCreate_present (h : adminCmd s n 0x40 = some c)
    (hpresent : tenState s c.sqe.target = 1 ∨ tenState s c.sqe.target = 2) :
    exec (.tenantCreate n) s = .next (setDone s n 0) := by
  have harm : exec (.tenantCreate n) s = execTenantCreate n s := rfl
  rw [harm, execTenantCreate, h]
  rcases hpresent with hst | hst <;> simp only [hst]

/-- The state in which commands accepted after a TENANT_DESTROY find no context. -/
def dyingTenant (s : State) (n : Nat) (c : Cmd) : State :=
  modTen (setStage s n c) c.sqe.target fun x => { x with dying := true }

theorem dyingTenant_cmds (s : State) (n : Nat) (c : Cmd) : (dyingTenant s n c).cmds = (setStage s n c).cmds := rfl

/-- With nothing of the tenant in flight before it, TENANT_DESTROY takes the context away at once. -/
theorem exec_tenantDestroy_idle (h : adminCmd s n 0x41 = some c)
    (hpresent : tenState s c.sqe.target = 1 ∨ tenState s c.sqe.target = 2) (hidle : lowerBusy s c.sqe.target n = false) :
    exec (.tenantDestroy n) s = .next (setDone (destroyTenant (dyingTenant s n c) c.sqe.target) n 0) := by
  have harm : exec (.tenantDestroy n) s = execTenantDestroy n s := rfl
  have first : ¬lowerBusy (dyingTenant s n c) c.sqe.target n = true :=
    Bool.eq_false_iff.mp (lowerBusy_staged hidle (dyingTenant_cmds s n c))
  have now : (if lowerBusy (dyingTenant s n c) c.sqe.target n then dyingTenant s n c
      else setDone (destroyTenant (dyingTenant s n c) c.sqe.target) n 0) = _ := if_neg first
  rw [harm, execTenantDestroy, h]
  rcases hpresent with hst | hst
  · simp only [hst]
    exact congrArg Host.Outcome.next now
  · simp only [hst]
    exact congrArg Host.Outcome.next now

theorem destroyTenant_cmds (s : State) (t : Nat) : (destroyTenant s t).cmds = s.cmds := by
  unfold destroyTenant
  dsimp only
  rw [dmkSend_unchanged _ _ _ .cmds (by decide), modTenNv_cmds, modTen_cmds, installContract_cmds]

theorem getTenNv_destroyTenant (s : State) (t u : Nat) : getTenNv (destroyTenant s t) u =
    if u = t then { getTenNv s t with state := 3, salt := 0, fingerprint := none, contract := none }
    else getTenNv s u := by
  unfold destroyTenant
  by_cases hu : u = t <;> simp [getTenNv_installContract, hu]

theorem destroyTenant_key (s : State) (t : Nat) : (getTen (destroyTenant s t) t).key = none := by
  simp [destroyTenant]

/-- DESTROY_RELEASE_END of a tenant that is DESTROYING (steps 6 and 7 of Table 06-4). -/
theorem exec_destroyReleaseEnd {u : Nat} (h : tenState s u = 3) : exec (.destroyReleaseEnd u) s =
    .next (modTenNv (releaseNs s u fun _ => true) u fun r => { incarn := r.incarn }) := by
  have harm : exec (.destroyReleaseEnd u) s = execDestroyReleaseEnd u s := rfl
  rw [harm, execDestroyReleaseEnd, if_neg (not_not_intro h)]

end life

/-! ## KEY_LOAD and KEY_UNLOAD (R176, R177) -/

section keys

variable {s : State} {n : Nat} {c : Cmd}

/-- A blob is judged by the tenant's record and the boot alone, which fetching it leaves as they are. -/
theorem keyStep_hostGet (s : State) (fid addr len u : Nat) (b : KeyBlob) :
    keyStep (hostGet s fid addr len) u b = keyStep s u b := by
  have boot : (hostGet s fid addr len).tb = s.tb := hostGet_unchanged s fid addr len .tb (by decide)
  rw [keyStep, keyStep, boot, getTenNv_hostGet]

/-- The state in which a tenant holds the key of a blob, its fingerprint in the record. -/
def keyedTenant (s : State) (t : Nat) (b : KeyBlob) : State :=
  modTen (modTenNv s t fun r => { r with fingerprint := some (Config.fingerprint r.salt b.key) }) t
    fun x => { x with key := some b.key }

theorem exec_keyLoad_loads {b : KeyBlob} (h : adminCmd s n 0x42 = some c) (hlen : c.sqe.buf0Len = 192)
    (hst : tenState s c.sqe.target = 1) (hkey : (getTen s c.sqe.target).key = none) (hpass : keyStep s c.sqe.target b = 0) :
    exec (.keyLoad n b) s = .next (setDone (keyedTenant (hostGet s c.fid c.sqe.buf0 192) c.sqe.target b) n 0) := by
  have harm : exec (.keyLoad n b) s = execKeyLoad n b s := rfl
  rw [harm, execKeyLoad, tenantCommand_runs h (.inl hst)]
  simp [hlen, keyStep_hostGet, hpass, hkey, keyedTenant]

theorem exec_keyLoad_fails {b : KeyBlob} (h : adminCmd s n 0x42 = some c) (hlen : c.sqe.buf0Len = 192)
    (hctx : tenState s c.sqe.target = 1 ∨ tenState s c.sqe.target = 2) (hfail : keyStep s c.sqe.target b ≠ 0) :
    exec (.keyLoad n b) s = .next (setDone (dmkSend (hostGet s c.fid c.sqe.buf0 192) 0x0304
      (c.sqe.target % 1024 + keyStep s c.sqe.target b * 4096)) n 0x0302) := by
  have harm : exec (.keyLoad n b) s = execKeyLoad n b s := rfl
  rw [harm, execKeyLoad, tenantCommand_runs h hctx]
  simp [hlen, keyStep_hostGet, hfail]

theorem keyedTenant_unchanged (s : State) (t : Nat) (b : KeyBlob) : Unchanged [.nv, .tenants] s (keyedTenant s t b) :=
  unchanged_trans (unchanged_mono (modTenNv_unchanged s t _) (by decide))
    (unchanged_mono (modTen_unchanged _ t _) (by decide))

/-- The state in which commands accepted after a KEY_UNLOAD find no key. -/
def unloadingKey (s : State) (n : Nat) (c : Cmd) : State :=
  modTen (setStage s n c) c.sqe.target fun x => { x with unloading := true }

theorem unloadingKey_cmds (s : State) (n : Nat) (c : Cmd) : (unloadingKey s n c).cmds = (setStage s n c).cmds := rfl

/-- The state in which the key is zeroed. -/
def zeroedKey (s : State) (n : Nat) (c : Cmd) : State :=
  modTen (unloadingKey s n c) c.sqe.target fun x => { x with key := none, unloading := false }

theorem zeroedKey_cmds (s : State) (n : Nat) (c : Cmd) : (zeroedKey s n c).cmds = (setStage s n c).cmds := rfl

theorem zeroedKey_unchanged (s : State) (n : Nat) (c : Cmd) : Unchanged [.tenants, .cmds] s (zeroedKey s n c) :=
  unchanged_trans (unchanged_mono (setStage_unchanged s n c) (by decide))
    (unchanged_trans (unchanged_mono (modTen_unchanged _ _ _) (by decide))
      (unchanged_mono (modTen_unchanged _ _ _) (by decide)))

theorem getTen_zeroedKey (s : State) (n : Nat) (c : Cmd) (u : Nat) : getTen (zeroedKey s n c) u =
    if u = c.sqe.target then { getTen s c.sqe.target with key := none, unloading := false } else getTen s u := by
  by_cases hu : u = c.sqe.target <;> simp [zeroedKey, unloadingKey, hu]

/-- With nothing of the tenant in flight before it, KEY_UNLOAD zeroes the key at once. -/
theorem exec_keyUnload_idle (h : adminCmd s n 0x43 = some c) (hst : tenState s c.sqe.target = 2)
    (hidle : lowerBusy s c.sqe.target n = false) : exec (.keyUnload n) s = .next (setDone (zeroedKey s n c) n 0) := by
  have harm : exec (.keyUnload n) s = execKeyUnload n s := rfl
  have first : ¬lowerBusy (unloadingKey s n c) c.sqe.target n = true :=
    Bool.eq_false_iff.mp (lowerBusy_staged hidle (unloadingKey_cmds s n c))
  have keyed : ¬tenState s c.sqe.target = 1 := by rw [hst]; decide
  rw [harm, execKeyUnload, tenantCommand_runs h (.inr hst), if_neg keyed]
  exact congrArg Host.Outcome.next (if_neg first)

end keys

/-! ## The statement on tenants and keys -/

/-- Settles O28: each command by its outcome. -/
theorem tenantLifeCycle : Obligations.TenantLifeCycle := by
  unfold Obligations.TenantLifeCycle
  refine ⟨?_, ?_, ?_, ?_, ?_, ?_, ?_⟩
  · intro s n c h habsent
    have made := createdTenant_unchanged s c.sqe.target
    have ends := setDone_unchanged (createdTenant s c.sqe.target) n 0 none
    refine ⟨_, exec_tenantCreate_absent h habsent, tenState_noKey ?_ ?_, ?_, ?_, ?_, ?_,
      adminCmd_ends h (made .cmds (by decide)) 0, fun u hu => ?_,
      unchanged_trans (unchanged_mono made (by decide)) (unchanged_mono ends (by decide))⟩
    · simp [getTenNv_createdTenant]
    · simp [getTen_createdTenant]
    · simp [getTen_createdTenant]
    · simp [getTenNv_createdTenant]
    · simp [getTenNv_createdTenant]
    · simp [getTenNv_createdTenant]
    · simp [getTenNv_createdTenant, getTen_createdTenant, hu]
  · intro s n c h hpresent
    obtain ⟨t, run, done, -, frame⟩ := endsAlone h (exec_tenantCreate_present h hpresent)
    exact ⟨t, run, done, frame⟩
  · intro s n c h hpresent _ hidle
    have cmds := (destroyTenant_cmds (dyingTenant s n c) c.sqe.target).trans (dyingTenant_cmds s n c)
    have others (u : Nat) : getTenNv (dyingTenant s n c) u = getTenNv s u := rfl
    refine ⟨_, exec_tenantDestroy_idle h hpresent hidle, tenState_destroying ?_, ?_, ?_, ?_, ?_,
      ⟨_, staged_ends h cmds 0, rfl, rfl⟩, fun u hu => ?_⟩
    · simp [getTenNv_destroyTenant]
    · simp [destroyTenant_key]
    · simp [getTenNv_destroyTenant]
    · simp [getTenNv_destroyTenant]
    · simp [getTenNv_destroyTenant, others]
    · simp [getTenNv_destroyTenant, hu, others]
  · intro s u h hu
    obtain ⟨grans, exts⟩ := releaseNs_unmaps s u fun _ => true
    refine ⟨_, exec_destroyReleaseEnd h, tenState_absent ?_, ?_, ?_, fun e he => ne_of_not_ownedBy hu (grans e he),
      fun e he => ne_of_not_ownedBy hu (exts e he), fun w hw => ?_⟩
    · simp
    · simp
    · simp [getTenNv_releaseNs]
    · simp [getTenNv_releaseNs, hw]
  · intro s n c b h hlen hst hkey hpass
    have fetched := hostGet_unchanged s c.fid c.sqe.buf0 192
    have keyed := keyedTenant_unchanged (hostGet s c.fid c.sqe.buf0 192) c.sqe.target b
    have ends := setDone_unchanged (keyedTenant (hostGet s c.fid c.sqe.buf0 192) c.sqe.target b) n 0 none
    refine ⟨_, exec_keyLoad_loads h hlen hst hkey hpass, ?_, ?_,
      adminCmd_ends h ((keyed .cmds (by decide)).trans (fetched .cmds (by decide))) 0, fun u hu => ?_,
      unchanged_trans (unchanged_mono fetched (by decide))
        (unchanged_trans (unchanged_mono keyed (by decide)) (unchanged_mono ends (by decide)))⟩
    · simp [keyedTenant]
    · simp [keyedTenant]
    · simp [keyedTenant, hu]
  · intro s n c b h hlen hctx hfail
    have fetched := hostGet_unchanged s c.fid c.sqe.buf0 192
    have sent := unchanged_trans (unchanged_mono fetched (by decide : _ ⊆ reportParts)) (dmkSend_unchanged _ 0x0304
      (c.sqe.target % 1024 + keyStep s c.sqe.target b * 4096))
    have ends := unchanged_trans (unchanged_mono sent (by decide : _ ⊆ .cmds :: reportParts))
      (unchanged_mono (setDone_unchanged _ n 0x0302 none) (by decide))
    exact ⟨_, _, exec_keyLoad_fails h hlen hctx hfail, adminCmd_ends h (sent .cmds (by decide)) 0x0302, rfl,
      ends .tenants (by decide), congrArg NonVolatile.tenants (ends .nv (by decide))⟩
  · intro s n c h hst hidle
    have zeroed := zeroedKey_unchanged s n c
    have ends := setDone_unchanged (zeroedKey s n c) n 0 none
    refine ⟨_, exec_keyUnload_idle h hst hidle, ?_, ⟨_, staged_ends h (zeroedKey_cmds s n c) 0, rfl, rfl⟩, fun u hu => ?_,
      unchanged_trans zeroed (unchanged_mono ends (by decide))⟩
    · simp [getTen_zeroedKey]
    · simp [getTen_zeroedKey, hu]

end Sys2Proof.Laws
end

section
/-!
PROOFS. The statement of 06_tenants_masking_qos.md on namespaces, contracts and PUSH grants (R173, R174, R183, R184, R186,
R191). The lemmas in front of it say what each command does to its tenant's record and context when its checks pass or fail.
-/

namespace Sys2Proof.Laws

open Sys2Proof.Machine

/-! ## NS_CREATE and NS_DELETE (R173, R174) -/

section namespaces

variable {s : State} {n : Nat} {c : Cmd}

/-- The size in blocks that NS_CREATE asks for. -/
def nsSize (e : Sqe) : Nat := e.cdw2 % 2 ^ 32 + e.cdw3 % 2 ^ 32 * 2 ^ 32

/-- The namespace that NS_CREATE makes, under the incarnation after the last one of its number. -/
def createdNs (r : TenantNv) (e : Sqe) : NsRec :=
  { size := nsSize e, pool := e.cdw0 / 16 % 4, compress := e.cdw0 / 64 % 2 == 1
    incarn := (tget 0 r.incarn (e.cdw0 % 16) + 1) % 2 ^ 32 }

/-- A tenant's record with that namespace. -/
def withCreatedNs (e : Sqe) (r : TenantNv) : TenantNv :=
  { r with incarn := tset 0 r.incarn (e.cdw0 % 16) (createdNs r e).incarn
           ns := tset {} r.ns (e.cdw0 % 16) (createdNs r e) }

theorem exec_nsCreate_refused (h : adminCmd s n 0x44 = some c)
    (hctx : tenState s c.sqe.target = 1 ∨ tenState s c.sqe.target = 2)
    (hbad : (getNs s c.sqe.target (c.sqe.cdw0 % 16)).isSome = true ∨ nsSize c.sqe = 0) :
    exec (.nsCreate n) s = .next (setDone s n 0x0102) := by
  have harm : exec (.nsCreate n) s = execNsCreate n s := rfl
  have bad : ((getNs s c.sqe.target (c.sqe.cdw0 % 16)).isSome || nsSize c.sqe = 0) = true := by
    rw [Bool.or_eq_true, decide_eq_true_eq]
    exact hbad
  rw [harm, execNsCreate, tenantCommand_runs h hctx]
  exact congrArg Host.Outcome.next (if_pos bad)

theorem exec_nsCreate_creates (h : adminCmd s n 0x44 = some c)
    (hctx : tenState s c.sqe.target = 1 ∨ tenState s c.sqe.target = 2)
    (hfree : getNs s c.sqe.target (c.sqe.cdw0 % 16) = none) (hsize : 0 < nsSize c.sqe) (hcount : nsCount s < 2048)
    (hroom : poolUsed s (c.sqe.cdw0 / 16 % 4) + nsSize c.sqe ≤ poolCap s (c.sqe.cdw0 / 16 % 4))
    (hplain : c.sqe.cdw0 / 64 % 2 = 1 → floorIn (contractOf s c.sqe.target) (c.sqe.cdw0 / 16 % 4) = false) :
    exec (.nsCreate n) s = .next (setDone (modTenNv s c.sqe.target (withCreatedNs c.sqe)) n 0) := by
  have harm : exec (.nsCreate n) s = execNsCreate n s := rfl
  have good : ¬((getNs s c.sqe.target (c.sqe.cdw0 % 16)).isSome || nsSize c.sqe = 0) = true := by
    simp [hfree, Nat.ne_of_gt hsize]
  have room : ¬(2048 ≤ nsCount s || poolCap s (c.sqe.cdw0 / 16 % 4) <
      poolUsed s (c.sqe.cdw0 / 16 % 4) + nsSize c.sqe) = true := by
    simp [hcount, hroom]
  have uncharged (b : Bool) : ¬(c.sqe.cdw0 / 64 % 2 == 1 && floorIn (contractOf s c.sqe.target) (c.sqe.cdw0 / 16 % 4) &&
      b) = true := by
    by_cases hcomp : c.sqe.cdw0 / 64 % 2 = 1
    · simp [hplain hcomp]
    · simp [hcomp]
  rw [harm, execNsCreate, tenantCommand_runs h hctx]
  exact congrArg Host.Outcome.next ((if_neg good).trans ((if_neg room).trans (if_neg (uncharged _))))

/-- The state in which commands accepted after an NS_DELETE find no namespace. -/
def dyingNs (s : State) (n : Nat) (c : Cmd) : State :=
  modTen (setStage s n c) c.sqe.target fun x => { x with dyingNs := x.dyingNs ++ [c.sqe.cdw0 % 16] }

theorem dyingNs_cmds (s : State) (n : Nat) (c : Cmd) : (dyingNs s n c).cmds = (setStage s n c).cmds := rfl

/-- The state in which the namespace and its mapping are gone. -/
def deletedNs (s : State) (n : Nat) (c : Cmd) : State :=
  modTen (releaseNs (dyingNs s n c) c.sqe.target (· == c.sqe.cdw0 % 16)) c.sqe.target
    fun x => { x with dyingNs := x.dyingNs.filter (· != c.sqe.cdw0 % 16) }

theorem deletedNs_cmds (s : State) (n : Nat) (c : Cmd) : (deletedNs s n c).cmds = (setStage s n c).cmds := by
  rw [deletedNs, modTen_cmds, releaseNs_unchanged _ _ _ .cmds (by decide), dyingNs_cmds]

theorem getTenNv_dyingNs (s : State) (n : Nat) (c : Cmd) (u : Nat) : getTenNv (dyingNs s n c) u = getTenNv s u := rfl

theorem getTenNv_deletedNs (s : State) (n : Nat) (c : Cmd) (u : Nat) : getTenNv (deletedNs s n c) u =
    if u = c.sqe.target then
      { getTenNv s c.sqe.target with ns := (getTenNv s c.sqe.target).ns.filter fun e => !(e.1 == c.sqe.cdw0 % 16) }
    else getTenNv s u := by
  rw [deletedNs, getTenNv_modTen, getTenNv_releaseNs, getTenNv_dyingNs, getTenNv_dyingNs]

/-- With nothing of the namespace in flight before it, NS_DELETE takes it away at once. -/
theorem exec_nsDelete_idle (h : adminCmd s n 0x45 = some c) (hstage : c.stage = 0)
    (hctx : tenState s c.sqe.target = 1 ∨ tenState s c.sqe.target = 2)
    (hns : (getNs s c.sqe.target (c.sqe.cdw0 % 16)).isSome = true)
    (hidle : (lowerBusy s c.sqe.target n fun d => !d.admin && (d.sqe.nsid == c.sqe.cdw0 % 16 || d.sqe.opc == 0)) = false) :
    exec (.nsDelete n) s = .next (setDone (deletedNs s n c) n 0) := by
  have harm : exec (.nsDelete n) s = execNsDelete n s := rfl
  have present : ¬(c.stage = 0 && (getNs s c.sqe.target (c.sqe.cdw0 % 16)).isNone) = true := by
    simp [Option.isNone_eq_false_iff.mpr hns]
  have fresh : ¬c.stage = 1 := by rw [hstage]; decide
  have first := Bool.eq_false_iff.mp (lowerBusy_staged hidle (dyingNs_cmds s n c))
  rw [harm, execNsDelete, tenantCommand_runs h hctx]
  dsimp only
  rw [if_neg present, if_neg fresh]
  exact congrArg Host.Outcome.next (if_neg first)

/-- A mapping key outside a namespace. -/
theorem ne_of_not_ownedBy_ns {t m k : Nat} (ht : t < 512) (hm : m < 16) (h : ownedBy t (· == m) k = false) :
    k / 2 ^ 52 ≠ t * 16 + m := by
  intro same
  have tenant : (t * 16 + m) / 16 = t % 1024 := by omega
  have number : (t * 16 + m) % 16 = m := by omega
  rw [ownedBy, same, tenant, number, beq_self_eq_true, beq_self_eq_true] at h
  cases h

end namespaces

/-! ## CONTRACT_SET and CONTRACT_CLEAR (R184, R186) -/

section contracts

variable {s : State} {n : Nat} {c : Cmd}

/-- Table 06-7 names its budgets by codes that fit LAST_REJECT. -/
theorem budgetOrder_codes (s : State) (t : Nat) : ∀ b ∈ budgetOrder s t, b.2 < 16 := by
  unfold budgetOrder
  cases tenantPort s t <;> simp

theorem judgeContract_lt (s : State) (t : Nat) (r : List Byte) : judgeContract s t r < 16 := by
  unfold judgeContract
  dsimp only
  split
  · decide
  · split
    · decide
    · split
      case h_1 b found => exact budgetOrder_codes s t b (List.mem_of_find?_eq_some found)
      case h_2 => decide

theorem exec_contractSet_installs {rec : List Byte} (h : adminCmd s n 0x48 = some c) (hlen : c.sqe.buf0Len = 128)
    (hctx : tenState s c.sqe.target = 1 ∨ tenState s c.sqe.target = 2)
    (hpass : judgeContract (hostGet s c.fid c.sqe.buf0 128) c.sqe.target rec = 0) :
    ∃ data, exec (.contractSet n rec) s = .next (setDone (dmkSend (installContract (hostGet s c.fid c.sqe.buf0 128)
      c.sqe.target (some { classes := (parseContract rec).1, seq := n })) 0x0306 data) n 0) := by
  have harm : exec (.contractSet n rec) s = execContractSet n rec s := rfl
  rw [harm, execContractSet, tenantCommand_runs h hctx, if_neg (not_not_intro hlen)]
  exact ⟨_, congrArg Host.Outcome.next (if_neg (not_not_intro hpass))⟩

theorem exec_contractSet_refused {rec : List Byte} (h : adminCmd s n 0x48 = some c) (hlen : c.sqe.buf0Len = 128)
    (hctx : tenState s c.sqe.target = 1 ∨ tenState s c.sqe.target = 2)
    (hfail : judgeContract (hostGet s c.fid c.sqe.buf0 128) c.sqe.target rec ≠ 0) :
    ∃ data, exec (.contractSet n rec) s = .next (setDone (dmkSend (fset (hostGet s c.fid c.sqe.buf0 128)
      TEN_STATUS_LAST_REJECT (judgeContract (hostGet s c.fid c.sqe.buf0 128) c.sqe.target rec)) 0x0307 data) n 0x0304) := by
  have harm : exec (.contractSet n rec) s = execContractSet n rec s := rfl
  rw [harm, execContractSet, tenantCommand_runs h hctx, if_neg (not_not_intro hlen)]
  exact ⟨_, congrArg Host.Outcome.next (if_pos hfail)⟩

/-- LAST_REJECT shows the code that was written last, whatever event and end follow. -/
theorem lastReject_shown (s : State) {k : Nat} (hk : k < 16) (code data n status : Nat) :
    fget (setDone (dmkSend (fset s TEN_STATUS_LAST_REJECT k) code data) n status) TEN_STATUS_LAST_REJECT = k := by
  have ended := setDone_unchanged (dmkSend (fset s TEN_STATUS_LAST_REJECT k) code data) n status none .regs (by decide)
  have sent := (ReportFrame.refl (fset s TEN_STATUS_LAST_REJECT k)).after_dmkSend code data
  calc fget (setDone (dmkSend (fset s TEN_STATUS_LAST_REJECT k) code data) n status) TEN_STATUS_LAST_REJECT
      = fget (dmkSend (fset s TEN_STATUS_LAST_REJECT k) code data) TEN_STATUS_LAST_REJECT := by
        rw [fget, fget, rget, rget, ended]
    _ = fget (fset s TEN_STATUS_LAST_REJECT k) TEN_STATUS_LAST_REJECT :=
        sent.fget_eq (not_reportKey_below (by decide))
    _ = k % 16 := fget_fset_same s TEN_STATUS_LAST_REJECT k (by decide)
    _ = k := Nat.mod_eq_of_lt hk

theorem exec_contractClear (h : adminCmd s n 0x49 = some c)
    (hctx : tenState s c.sqe.target = 1 ∨ tenState s c.sqe.target = 2) :
    exec (.contractClear n) s = .next (setDone (installContract s c.sqe.target none) n 0) := by
  have harm : exec (.contractClear n) s = execContractClear n s := rfl
  rw [harm, execContractClear, tenantCommand_runs h hctx]

end contracts

/-! ## PUSH_GRANT and PUSH_REVOKE (R183, R191) -/

section grants

variable {s : State} {n opc : Nat} {c : Cmd}

/-- The state in which a grant of a tenant is replaced. -/
def setGrant (s : State) (t i : Nat) (g : Grant) : State := modTen s t fun x => { x with grants := tset {} x.grants i g }

/-- The grant that PUSH_GRANT asks for. -/
def askedGrant (e : Sqe) : Grant :=
  { port := e.cdw0 / 16 % 8, base := e.buf1, len := e.buf1Len, fence := e.cdw0 / 256 % 2 == 1 }

/-- The form of a grant that R191 lets pass. -/
def grantLawful (s : State) (e : Sqe) : Prop :=
  e.buf1 % 4096 = 0 ∧ e.buf1Len ≠ 0 ∧ e.buf1Len % 4096 = 0 ∧ e.buf1 + e.buf1Len ≤ 2 ^ 64 ∧
    tenantPort s e.target = some (e.cdw0 / 16 % 8)

/-- PUSH_GRANT refuses every other form. -/
theorem grantRefused_iff (s : State) (e : Sqe) : (e.buf1 % 4096 ≠ 0 || e.buf1Len = 0 || e.buf1Len % 4096 ≠ 0 ||
    2 ^ 64 < e.buf1 + e.buf1Len || tenantPort s e.target ≠ some (e.cdw0 / 16 % 8)) = true ↔ ¬grantLawful s e := by
  simp only [grantLawful, Bool.or_eq_true, decide_eq_true_eq, ← Nat.not_le]
  tauto

theorem exec_pushGrant_lawful (h : adminCmd s n 0x4A = some c)
    (hctx : tenState s c.sqe.target = 1 ∨ tenState s c.sqe.target = 2) (hlawful : grantLawful s c.sqe)
    (hidle : grantBusy s c.sqe.target n (c.sqe.cdw0 % 16) = false) : ∃ data, exec (.pushGrant n) s = .next
      (setDone (dmkSend (setGrant s c.sqe.target (c.sqe.cdw0 % 16) (askedGrant c.sqe)) 0x030A data) n 0) := by
  have harm : exec (.pushGrant n) s = execPushGrant n s := rfl
  have lawful := fun refused => (grantRefused_iff s c.sqe).mp refused hlawful
  rw [harm, execPushGrant, tenantCommand_runs h hctx]
  dsimp only
  rw [if_neg lawful, hidle, Bool.and_false]
  exact ⟨_, rfl⟩

theorem exec_pushGrant_unlawful (h : adminCmd s n 0x4A = some c)
    (hctx : tenState s c.sqe.target = 1 ∨ tenState s c.sqe.target = 2) (hbad : ¬grantLawful s c.sqe) :
    exec (.pushGrant n) s = .next (setDone s n 0x0303) := by
  have harm : exec (.pushGrant n) s = execPushGrant n s := rfl
  rw [harm, execPushGrant, tenantCommand_runs h hctx]
  exact congrArg Host.Outcome.next (if_pos ((grantRefused_iff s c.sqe).mpr hbad))

theorem exec_pushRevoke_idle (h : adminCmd s n 0x4B = some c)
    (hctx : tenState s c.sqe.target = 1 ∨ tenState s c.sqe.target = 2)
    (hidle : grantBusy s c.sqe.target n (c.sqe.cdw0 % 16) = false) : ∃ data, exec (.pushRevoke n) s =
      .next (setDone (dmkSend (setGrant s c.sqe.target (c.sqe.cdw0 % 16) {}) 0x030A data) n 0) := by
  have harm : exec (.pushRevoke n) s = execPushRevoke n s := rfl
  rw [harm, execPushRevoke, tenantCommand_runs h hctx]
  exact ⟨_, congrArg Host.Outcome.next (if_neg (Bool.eq_false_iff.mp hidle))⟩

/-- A command that replaces a grant and tells Daymark: its grant alone changes. -/
theorem grant_replaced {i : Instr} {t k code : Nat} {g : Grant} (h : adminCmd s n opc = some c)
    (run : ∃ data, exec i s = .next (setDone (dmkSend (setGrant s t k g) code data) n 0)) :
    ∃ u d, exec i s = .next u ∧ getCmd u n = some d ∧ d.done = some 0 ∧ tget {} (getTen u t).grants k = g ∧
      (∀ j, j ≠ k → tget {} (getTen u t).grants j = tget {} (getTen s t).grants j) ∧
      ∀ v, v ≠ t → getTen u v = getTen s v := by
  obtain ⟨data, run⟩ := run
  have cmds : (dmkSend (setGrant s t k g) code data).cmds = s.cmds := dmkSend_unchanged _ code data .cmds (by decide)
  refine ⟨_, _, run, adminCmd_ends h cmds 0, rfl, ?_, fun j hj => ?_, fun v hv => ?_⟩
  · simp [setGrant]
  · simp [setGrant, hj]
  · simp [setGrant, hv]

end grants

/-! ## The statement on namespaces, contracts and grants -/

/-- Settles O29: each command by its outcome. -/
theorem namespacesContractsGrants : Obligations.NamespacesContractsGrants := by
  unfold Obligations.NamespacesContractsGrants
  refine ⟨?_, ?_, ?_, ?_, ?_, ?_⟩
  · intro s n c h _ hctx
    constructor
    · intro hbad
      obtain ⟨t, run, done, -, frame⟩ := endsAlone h (exec_nsCreate_refused h hctx hbad)
      exact ⟨t, run, done, frame⟩
    · intro hfree hsize hcount hroom hplain
      have made := modTenNv_unchanged s c.sqe.target (withCreatedNs c.sqe)
      have ends := setDone_unchanged (modTenNv s c.sqe.target (withCreatedNs c.sqe)) n 0 none
      refine ⟨_, exec_nsCreate_creates h hctx hfree hsize hcount hroom hplain,
        adminCmd_ends h (made .cmds (by decide)) 0, ?_, fun u hu => ?_,
        unchanged_trans (unchanged_mono made (by decide)) (unchanged_mono ends (by decide))⟩
      · rw [getTenNv_setDone, getTenNv_modTenNv, if_pos rfl, withCreatedNs, tget_tset, if_pos rfl]
        rfl
      · rw [getTenNv_setDone, getTenNv_modTenNv, if_neg hu]
  · intro s n c h ht hstage hctx hns hidle
    have ends := setDone_unchanged (deletedNs s n c) n 0 none
    have udc : (setDone (deletedNs s n c) n 0).udc = (releaseNs (dyingNs s n c) c.sqe.target (· == c.sqe.cdw0 % 16)).udc :=
      ends .udc (by decide)
    refine ⟨_, exec_nsDelete_idle h hstage hctx hns hidle, fun e he => ?_,
      ⟨_, staged_ends h (deletedNs_cmds s n c) 0, rfl, rfl⟩, fun e he => ?_, fun u hu => ?_⟩
    · rw [getTenNv_setDone, getTenNv_deletedNs, if_pos rfl] at he
      have kept := List.of_mem_filter he
      simpa using kept
    · rw [udc] at he
      exact ne_of_not_ownedBy_ns ht (Nat.mod_lt _ (by decide)) ((releaseNs_unmaps _ _ _).1 e he)
    · rw [getTenNv_setDone, getTenNv_deletedNs, if_neg hu]
  · intro s n c rec h hlen hctx
    have fetched := hostGet_unchanged s c.fid c.sqe.buf0 128
    constructor
    · intro hpass
      obtain ⟨data, run⟩ := exec_contractSet_installs h hlen hctx hpass
      have installed := installContract_cmds (hostGet s c.fid c.sqe.buf0 128) c.sqe.target
        (some { classes := (parseContract rec).1, seq := n })
      have cmds := (dmkSend_unchanged _ 0x0306 data .cmds (by decide)).trans (installed.trans (fetched .cmds (by decide)))
      refine ⟨_, _, run, ?_, adminCmd_ends h cmds 0, rfl⟩
      simp [getTenNv_installContract]
    · intro hfail
      obtain ⟨data, run⟩ := exec_contractSet_refused h hlen hctx hfail
      have shown := unchanged_trans (unchanged_mono fetched (by decide : _ ⊆ reportParts))
        (unchanged_mono (fset_unchanged _ TEN_STATUS_LAST_REJECT
          (judgeContract (hostGet s c.fid c.sqe.buf0 128) c.sqe.target rec)) (by decide))
      have sent := unchanged_trans shown (dmkSend_unchanged _ 0x0307 data)
      have nv := (setDone_unchanged _ n 0x0304 none .nv (by decide)).trans (sent .nv (by decide))
      exact ⟨_, _, run, congrArg NonVolatile.tenants nv, adminCmd_ends h (sent .cmds (by decide)) 0x0304, rfl,
        lastReject_shown _ (judgeContract_lt _ _ _) _ _ _ _⟩
  · intro s n c h hctx
    refine ⟨_, _, exec_contractClear h hctx, ?_, adminCmd_ends h (installContract_cmds s c.sqe.target none) 0, rfl,
      fun u hu => ?_⟩
    · rw [getTenNv_setDone, getTenNv_installContract, if_pos rfl]
    · rw [getTenNv_setDone, getTenNv_installContract, if_neg hu]
  · intro s n c h hctx
    constructor
    · intro hport hbase hlen hunit hend hidle
      exact grant_replaced h (exec_pushGrant_lawful h hctx ⟨hbase, Nat.ne_of_gt hlen, hunit, hend, hport⟩ hidle)
    · intro hbad
      have unlawful : ¬grantLawful s c.sqe := by
        rintro ⟨hbase, hlen, hunit, hend, hport⟩
        rcases hbad with bad | bad | bad | bad | bad
        · exact bad hbase
        · exact hlen bad
        · exact bad hunit
        · omega
        · exact bad hport
      obtain ⟨t, run, done, -, frame⟩ := endsAlone h (exec_pushGrant_unlawful h hctx unlawful)
      exact ⟨t, run, done, frame⟩
  · intro s n c h hctx hidle
    exact grant_replaced h (exec_pushRevoke_idle h hctx hidle)

end Sys2Proof.Laws
end

section
/-!
PROOFS. The statement of 07_trowel_tiles.md on where a flow goes after a word (R203 to R205, R226 to R228, R236). The lemmas in
front of it serve every later proof about flows: what freeing a context leaves of the others, that a faulting flow is aborted
(`flowFault_faulted`), and that a word without a fault takes its sequencing action (`microDone_sequences`).
-/

namespace Sys2Proof.Laws

open Sys2Proof.Machine

/-! ## Trowel's tables (R194 to R196) -/

section tables

variable (s : State)

theorem modTrw_unchanged (f : Trowel → Trowel) : Unchanged [.trw] s (modTrw s f) := setTrw_unchanged s _

theorem modTile_unchanged (t : Nat) (f : Tile → Tile) : Unchanged [.trw] s (modTile s t f) := setTrw_unchanged s _

@[simp] theorem getTile_modTile (t u : Nat) (f : Tile → Tile) :
    getTile (modTile s t f) u = if u = t then f (getTile s t) else getTile s u := tget_tmod _ _ _ _ _

@[simp] theorem getCtx_modTile (t k : Nat) (f : Tile → Tile) : getCtx (modTile s t f) k = getCtx s k := rfl

@[simp] theorem getTile_setCtx (t k : Nat) (x : Ctx) : getTile (setCtx s k x) t = getTile s t := rfl

/-- A freed context is empty, and every other one stays. -/
@[simp] theorem getCtx_freeCtx (k j : Nat) : getCtx (freeCtx s k) j = if j = k then {} else getCtx s j :=
  tget_tset _ _ _ _ _

theorem freeCtx_unchanged (k : Nat) : Unchanged [.trw] s (freeCtx s k) := setTrw_unchanged s _

end tables

theorem getCtx_congr {s t : State} (h : t.trw = s.trw) (k : Nat) : getCtx t k = getCtx s k := by
  rw [getCtx, getCtx, h]

theorem csFetch_congr {s t : State} (h : t.trw = s.trw) (a : Nat) : csFetch t a = csFetch s a := by
  unfold csFetch csWord
  rw [h]

theorem rget_congr {s t : State} (h : t.regs = s.regs) (k : Nat) : rget t k = rget s k := by
  rw [rget, rget, h]

/-! ## Flows that are aborted (R213, R214) -/

/-- The context of an aborted flow is empty, and every other one stays. -/
theorem getCtx_abortFlow (s : State) (k j : Nat) : getCtx (abortFlow s k) j = if j = k then {} else getCtx s j := by
  unfold abortFlow
  split
  case h_1 n _ => rw [getCtx_freeCtx, getCtx_congr (setDone_unchanged s n _ _ .trw (by decide))]
  case h_2 => exact getCtx_freeCtx s k j

theorem abortFlow_unchanged (s : State) (k : Nat) : Unchanged [.trw, .cmds] s (abortFlow s k) := by
  unfold abortFlow
  split
  case h_1 n _ =>
    exact unchanged_trans (unchanged_mono (setDone_unchanged s n _ _) (by decide))
      (unchanged_mono (freeCtx_unchanged _ k) (by decide))
  case h_2 => exact unchanged_mono (freeCtx_unchanged s k) (by decide)

/-- The command of an aborted flow ends with 0x0401. -/
theorem abortFlow_ends {s : State} {k n : Nat} {d : Cmd} (hseq : (getCtx s k).seq = some n) (hcmd : getCmd s n = some d)
    (hgoes : d.done = none) :
    getCmd (abortFlow s k) n = some { d with done := some 0x0401, result := n % 2 ^ 32 } := by
  rw [abortFlow, hseq]
  exact (getCmd_congr (freeCtx_unchanged _ k .cmds (by decide)) n).trans (getCmd_setDone hcmd hgoes _ none)

theorem faultLog_unchanged (s : State) (t c code addr seq : Nat) : Unchanged [.regs] s (faultLog s t c code addr seq) := by
  unfold faultLog
  split
  · exact fset_unchanged s _ _
  · exact unchanged_trans (unchanged_trans (rset_unchanged s _ _) (rset_unchanged _ _ _))
      (unchanged_trans (rset_unchanged _ _ _) (rset_unchanged _ _ _))

/-- R214: the first fault since VALID was cleared is logged with its code. -/
theorem fget_faultLog (s : State) (t c : Nat) {code : Nat} (addr seq : Nat) (hcode : code < 16)
    (hfree : fget s TRW_FLTLOG0_VALID = 0) : fget (faultLog s t c code addr seq) TRW_FLTLOG0_CODE = code := by
  have word : rget (faultLog s t c code addr seq) 0x600050 =
      BitVec.ofNat 32 (code + physOf s t * 16 + c * 1024 + 0x2000) := by
    simp [faultLog, hfree]
  have low : fget (faultLog s t c code addr seq) TRW_FLTLOG0_CODE =
      bitsGet (BitVec.ofNat 32 (code + physOf s t * 16 + c * 1024 + 0x2000)) 0 4 := by
    rw [← word]
    rfl
  rw [low, bitsGet, BitVec.toNat_ofNat]
  omega

/-- R214: a flow fault is logged, reported and aborts the flow, and nothing else in Trowel changes. -/
theorem flowFault_faulted (s : State) (t c : Nat) {code : Nat} (hcode : code < 16) :
    FlowFaulted s (flowFault s t c code) t c code := by
  unfold flowFault
  extract_lets x p logged
  have log : Unchanged [.regs] s logged := faultLog_unchanged s t c code _ _
  have told := (ReportFrame.refl logged).after_report
    { src := 0x1A2 + p, cls := .contained, region := some (.flowCtx t c) }
  generalize report logged _ = u at told
  have trw : u.trw = s.trw := (told.parts .trw (by decide)).trans (log .trw (by decide))
  have cmds : u.cmds = s.cmds := (told.parts .cmds (by decide)).trans (log .cmds (by decide))
  obtain ⟨-, dram, sram⟩ := abortFlow_kept u (ctxKey t c)
  refine ⟨?_, fun hfree => ?_, fun n d hseq hcmd hgoes => ?_, fun k hk => ?_, ?_, ?_⟩
  · rw [getCtx_abortFlow, if_pos rfl]
  · have regs := abortFlow_unchanged u (ctxKey t c) .regs (by decide)
    rw [fget_congr (rget_congr regs _), told.fget_eq (not_reportKey_below (by decide))]
    exact fget_faultLog s t c _ _ hcode hfree
  · rw [← getCtx_congr trw] at hseq
    rw [← getCmd_congr cmds] at hcmd
    exact ⟨_, abortFlow_ends hseq hcmd hgoes, rfl, rfl⟩
  · rw [getCtx_abortFlow, if_neg hk, getCtx_congr trw]
  · rw [dram, trw]
  · rw [sram, trw]

/-! ## Words that issue (R226 to R234) -/

/-- A word issues on the ready context of a working tile. -/
structure Issues (s : State) (t c o : Nat) (x : Ctx) (m : MWord) : Prop where
  tile : t < 32
  ctx : c < 8
  here : getCtx s (ctxKey t c) = x
  busy : x.busy = true
  ready : x.wait = .none
  opc : m.opc = o

theorem issues_of_issued {s : State} {t c o : Nat} {x : Ctx} {m : MWord} (h : issued s t c o = some (x, m)) :
    Issues s t c o x m := by
  unfold issued at h
  dsimp only at h
  split at h
  case isTrue hready =>
    split at h
    case h_1 w _ =>
      split at h
      case isTrue hopc =>
        cases h
        simp only [ctxReady, Bool.and_eq_true, decide_eq_true_eq, beq_iff_eq] at hready
        obtain ⟨⟨⟨ht, hc⟩, -⟩, ⟨⟨hbusy, -⟩, hwait⟩, -⟩ := hready
        exact ⟨ht, hc, rfl, hbusy, hwait, hopc⟩
      case isFalse => cases h
    case h_2 => cases h
  case isFalse => cases h

/-- A word whose operation changes only the context. -/
theorem microOp_issued {s : State} {t c o : Nat} {x : Ctx} {m : MWord} (h : issued s t c o = some (x, m))
    (f : Ctx → MWord → Ctx) : microOp o t c f s = microDone s t c x (f x m) m := by
  rw [microOp, h]

theorem microDone_faults {s : State} {t c f : Nat} {x x' : Ctx} {m : MWord} (h : issueFault s x x' m = f) (hf : f ≠ 0) :
    microDone s t c x x' m = flowFault s t c f := by
  unfold microDone
  rw [h]
  cases f with
  | zero => exact absurd rfl hf
  | succ f => rfl

theorem microDone_sequences {s : State} {t c : Nat} {x x' : Ctx} {m : MWord} (h : issueFault s x x' m = 0)
    (hdrained : m.sq = 6 → (getTile s t).stores = []) : microDone s t c x x' m = sequence s (ctxKey t c) x x' m := by
  unfold microDone
  rw [h]
  refine if_neg fun waits => ?_
  simp only [Bool.and_eq_true, decide_eq_true_eq, Bool.not_eq_true', List.isEmpty_eq_false_iff] at waits
  exact waits.2 (hdrained waits.1)

/-- What Table 08-9 lets a word do, its sequencing apart: reach control-store addresses above the ROM only, and at Skim level
neither write the control store nor send a message nor touch a space below 3. -/
structure Permitted (x : Ctx) (m : MWord) : Prop where
  csAddr : m.opc = 0x38 → 0x30000 ≤ (gReg x m.ra).toNat % 2 ^ 18
  skim : atSkim x.pc = true → m.opc ≠ 0x38 ∧ m.opc ≠ 0x30 ∧ (m.opc = 0x20 ∨ m.opc = 0x21 → 3 ≤ m.space)

theorem capFault_through {x : Ctx} {m : MWord} (h : Permitted x m) (hsq : m.sq = 0) (s : State) (x' : Ctx) :
    capFault s x x' m = false := by
  obtain ⟨csAddr, skim⟩ := h
  cases hskim : atSkim x.pc with
  | false => simpa [capFault, hsq, hskim] using csAddr
  | true =>
    obtain ⟨noStcs, noSend, space⟩ := skim hskim
    simpa [capFault, hsq, hskim, noStcs, noSend] using space

/-- A word that keeps the rules on its fields and falls through inside its region issues without a fault. -/
theorem issueFault_through {x : Ctx} {m : MWord} (hword : wordFault m = 0) (hperm : Permitted x m) (hsq : m.sq = 0)
    (hend : regionEnd x.pc = false) (s : State) (x' : Ctx) : issueFault s x x' m = 0 := by
  simp [issueFault, hword, capFault_through hperm hsq, stackFault, boundFault, hsq, hend]

/-- R227: a RET without a fault has an address to return to. -/
theorem stack_ne_nil {s : State} {x x' : Ctx} {m : MWord} (hok : issueFault s x x' m = 0) (hsq : m.sq = 4) :
    x.stack ≠ [] := by
  intro hempty
  have underflow : stackFault x m = true := by simp [stackFault, hsq, hempty]
  simp only [issueFault, underflow, if_true] at hok
  split_ifs at hok with hword
  exact hword hok

/-! ## Sequencing (R203 to R205, R227, R235, R236) -/

@[simp] theorem getCtx_goTo (s : State) (k a j : Nat) (x : Ctx) : getCtx (goTo s k a x) j =
    if j = k then { x with pc := a, word := some (csFetch s a), count := x.count + 1 } else getCtx s j :=
  getCtx_setCtx _ _ _ _

theorem goTo_unchanged (s : State) (k a : Nat) (x : Ctx) : Unchanged [.trw] s (goTo s k a x) := setCtx_unchanged s k _

section actions

variable {s : State} {k : Nat} {x x' : Ctx} {m : MWord}

theorem sequence_next (h : m.sq = 0) : Machine.sequence s k x x' m = goTo s k (x.pc + 1) x' := by
  simp only [Machine.sequence, h]

theorem sequence_jump (h : m.sq = 1) : Machine.sequence s k x x' m = goTo s k m.target x' := by
  simp only [Machine.sequence, h]

theorem sequence_branch (h : m.sq = 2) : Machine.sequence s k x x' m =
    if condHolds x m.cond then goTo (countDiscard s) k m.target x' else goTo s k (x.pc + 1) x' := by
  simp only [Machine.sequence, h]

theorem sequence_call (h : m.sq = 3) :
    Machine.sequence s k x x' m = goTo s k m.target { x' with stack := (x.pc + 1) :: x'.stack } := by
  simp only [Machine.sequence, h]

theorem sequence_ret (h : m.sq = 4) :
    Machine.sequence s k x x' m = goTo s k (x.stack.headD 0) { x' with stack := x'.stack.drop 1 } := by
  simp only [Machine.sequence, h]

theorem sequence_end (h : m.sq = 5) : Machine.sequence s k x x' m = endFlow s k x' := by
  simp only [Machine.sequence, h]

theorem sequence_callv (h : m.sq = 6) : Machine.sequence s k x x' m =
    setCtx s k { x' with stack := (x.pc + 1) :: x'.stack, pc := tget 0 s.trw.entries m.target - 1, word := none,
                         wait := .service m.target, count := x.count + 1 } := by
  simp only [Machine.sequence, h]

end actions

/-- R203, R204: a discarded word counts, in the two words of the counter. -/
theorem countDiscard_counts (s : State) :
    fget (countDiscard s) TRW_DISCARD_CNT_LO_COUNT = (fget s TRW_DISCARD_CNT_LO_COUNT + 1) % 2 ^ 32 ∧
      RegsBut [TRW_DISCARD_CNT_LO_COUNT.off, TRW_DISCARD_CNT_HI_COUNT.off] s (countDiscard s) ∧
      Unchanged [.regs] s (countDiscard s) := by
  unfold countDiscard
  dsimp only
  refine ⟨?_, regsBut_trans (regsBut_fset s _ (by decide)) (regsBut_fset _ _ (by decide)),
    unchanged_trans (fset_unchanged s _ _) (fset_unchanged _ _ _)⟩
  rw [fget_fset_off _ _ _ _ (by decide), fget_fset_same _ _ _ (by decide)]
  simp only [TRW_DISCARD_CNT_LO_COUNT, TRW_DISCARD_CNT_HI_COUNT]
  omega

/-- R236: END frees the context and ends its command with G0[15:0]. -/
theorem endFlow_ends (s : State) (k : Nat) (x : Ctx) : getCtx (endFlow s k x) k = {} ∧
    (∀ n d, x.seq = some n → getCmd s n = some d → d.done = none →
      getCmd (endFlow s k x) n = some { d with done := some ((gReg x 0).toNat % 65536), result := n % 2 ^ 32 }) ∧
    Unchanged [.trw, .cmds] s (endFlow s k x) := by
  unfold endFlow
  split
  case h_1 n hseq =>
    refine ⟨?_, fun m d hm hcmd hgoes => ?_, unchanged_trans (unchanged_mono (setDone_unchanged s n _ _) (by decide))
      (unchanged_mono (freeCtx_unchanged _ k) (by decide))⟩
    · rw [getCtx_freeCtx, if_pos rfl]
    · obtain rfl : n = m := Option.some.inj (hseq.symm.trans hm)
      exact (getCmd_congr (freeCtx_unchanged _ k .cmds (by decide)) n).trans (getCmd_setDone hcmd hgoes _ none)
  case h_2 hseq =>
    refine ⟨?_, fun m d hm => absurd (hseq.symm.trans hm) (by simp), unchanged_mono (freeCtx_unchanged s k) (by decide)⟩
    rw [getCtx_freeCtx, if_pos rfl]

theorem exec_nop_issued {s : State} {t c : Nat} {x : Ctx} {m : MWord} (h : issued s t c 0x00 = some (x, m)) :
    exec (.nop t c) s = .next (microDone s t c x x m) := by
  have harm : exec (.nop t c) s = execNop t c s := rfl
  rw [harm, execNop, microOp_issued h]

theorem nop_sequences {s u : State} {t c : Nat} {x : Ctx} {m : MWord} (h : issued s t c 0x00 = some (x, m))
    (hok : issueFault s x x m = 0) (hdrained : m.sq = 6 → (getTile s t).stores = [])
    (hact : Machine.sequence s (ctxKey t c) x x m = u) : exec (.nop t c) s = .next u := by
  rw [exec_nop_issued h, microDone_sequences hok hdrained, hact]

theorem nop_faults {s : State} {t c code : Nat} {x : Ctx} {m : MWord} (h : issued s t c 0x00 = some (x, m))
    (hf : issueFault s x x m = code) (hpos : code ≠ 0) (hcode : code < 16) :
    ∃ u, exec (.nop t c) s = .next u ∧ FlowFaulted s u t c code :=
  ⟨_, (exec_nop_issued h).trans (congrArg _ (microDone_faults hf hpos)), flowFault_faulted s t c hcode⟩

/-! ## The statement on sequencing -/

/-- Settles O32: the words without a fault by their SQ field, then the faults in the order of Table 08-8. -/
theorem microwordSequencing : Obligations.MicrowordSequencing := by
  unfold Obligations.MicrowordSequencing
  refine ⟨fun s t c x m h hok => ⟨fun hsq => ?_, fun hsq hcond => ?_, fun hsq hcond => ?_, fun hsq => ?_, fun hsq => ?_,
    fun hsq => ?_, fun hsq hdrained => ?_⟩, fun s t c x m h => ⟨fun hword => ?_, fun hword hcap hstack => ?_,
    fun hword hsq hend => ?_, fun hword hskim hsq htarget => ?_⟩⟩
  · exact ⟨_, nop_sequences h hok (by omega) (sequence_jump hsq), by rw [getCtx_goTo, if_pos rfl], goTo_unchanged _ _ _ _⟩
  · obtain ⟨counted, regs, frame⟩ := countDiscard_counts s
    have taken := nop_sequences h hok (by omega) ((sequence_branch hsq).trans (if_pos hcond))
    have went := goTo_unchanged (countDiscard s) (ctxKey t c) m.target x
    have kept := rget_congr (went .regs (by decide))
    refine ⟨_, taken, ?_, (fget_congr (kept _)).trans counted, fun k hk => (kept k).trans (regs k hk),
      unchanged_trans (unchanged_mono frame (by decide)) (unchanged_mono went (by decide))⟩
    rw [getCtx_goTo, if_pos rfl, csFetch_congr (frame .trw (by decide))]
  · have passed := nop_sequences h hok (by omega) ((sequence_branch hsq).trans (if_neg (by simp [hcond])))
    exact ⟨_, passed, by rw [getCtx_goTo, if_pos rfl], goTo_unchanged _ _ _ _⟩
  · exact ⟨_, nop_sequences h hok (by omega) (sequence_call hsq), by rw [getCtx_goTo, if_pos rfl], goTo_unchanged _ _ _ _⟩
  · obtain ⟨a, l, hst⟩ := List.exists_cons_of_ne_nil (stack_ne_nil hok hsq)
    refine ⟨a, l, _, hst, nop_sequences h hok (by omega) (sequence_ret hsq), ?_, goTo_unchanged _ _ _ _⟩
    rw [getCtx_goTo, if_pos rfl, hst]
    rfl
  · obtain ⟨free, ends, frame⟩ := endFlow_ends s (ctxKey t c) x
    exact ⟨_, nop_sequences h hok (by omega) (sequence_end hsq), free, ends, frame⟩
  · refine ⟨_, nop_sequences h hok (fun _ => hdrained) (sequence_callv hsq), ?_, ?_, ?_, setCtx_unchanged _ _ _⟩
    all_goals rw [getCtx_setCtx, if_pos rfl]
  · exact nop_faults h (by simp [issueFault, hword]) (by decide) (by decide)
  · have overflow : stackFault x m = true := by
      rcases hstack with ⟨hsq, hfull⟩ | ⟨hsq, hempty⟩
      · simp [stackFault, hsq, hfull]
      · simp [stackFault, hsq, hempty]
    exact nop_faults h (by simp [issueFault, hword, hcap, overflow]) (by decide) (by decide)
  · have opc := (issues_of_issued h).opc
    have free : Permitted x m := ⟨by omega, fun _ => by omega⟩
    have through : boundFault x m = true := by simp [boundFault, hsq, hend]
    have noStack : stackFault x m = false := by simp [stackFault, hsq]
    exact nop_faults h (by simp [issueFault, hword, capFault_through free hsq, noStack, through]) (by decide) (by decide)
  · have outside : capFault s x x m = true := by simp [capFault, hskim, hsq, htarget]
    exact nop_faults h (by simp [issueFault, hword, outside]) (by decide) (by decide)

end Sys2Proof.Laws
end

section
/-!
PROOFS. The statement of 07_trowel_tiles.md on loads, stores and snoops (R217 to R220, R231). The lemmas in front of it serve
every later proof about microwords: how a word that falls through completes (`through_microDone`, `wentOn_goTo`), that
little-endian values and bytes determine each other, and that work on the tiles leaves the rest of the state (`TilesOnly`).
-/

namespace Sys2Proof.Laws

open Sys2Proof.Machine

/-! ## Work on the tiles alone -/

/-- From `s` to `t` nothing but the memory side of Trowel's tiles has changed. -/
def TilesOnly (s t : State) : Prop := ∃ ts, t = modTrw s fun w => { w with tiles := ts }

namespace TilesOnly

variable {s t : State}

theorem refl (s : State) : TilesOnly s s := ⟨s.trw.tiles, rfl⟩

theorem after_modTile (h : TilesOnly s t) (u : Nat) (f : Tile → Tile) : TilesOnly s (modTile t u f) := by
  obtain ⟨ts, rfl⟩ := h
  exact ⟨_, rfl⟩

theorem after_foldl {α : Type} {g : State → α → State} (hg : ∀ v x, TilesOnly s v → TilesOnly s (g v x)) (l : List α)
    (h : TilesOnly s t) : TilesOnly s (l.foldl g t) := by
  induction l generalizing t with
  | nil => exact h
  | cons x l ih => exact ih (hg t x h)

theorem getCtx_eq (h : TilesOnly s t) (k : Nat) : getCtx t k = getCtx s k := by
  obtain ⟨ts, rfl⟩ := h
  rfl

theorem dram_eq (h : TilesOnly s t) : t.trw.dram = s.trw.dram := by
  obtain ⟨ts, rfl⟩ := h
  rfl

theorem sram_eq (h : TilesOnly s t) : t.trw.sram = s.trw.sram := by
  obtain ⟨ts, rfl⟩ := h
  rfl

theorem ctxs_eq (h : TilesOnly s t) : t.trw.ctxs = s.trw.ctxs := by
  obtain ⟨ts, rfl⟩ := h
  rfl

theorem csFetch_eq (h : TilesOnly s t) (a : Nat) : csFetch t a = csFetch s a := by
  obtain ⟨ts, rfl⟩ := h
  rfl

theorem unchanged (h : TilesOnly s t) : Unchanged [.trw] s t := by
  obtain ⟨ts, rfl⟩ := h
  exact modTrw_unchanged s _

end TilesOnly

/-! ## Words that fall through (R203, R226) -/

/-- The operation of a word leaves its context running: what a flow keeps over a word that falls through. -/
structure StaysOn (x x' : Ctx) : Prop where
  busy : x'.busy = true
  seq : x'.seq = x.seq
  stack : x'.stack = x.stack
  inbox : x'.inbox = x.inbox
  scratch : x'.scratch = x.scratch
  bufs : x'.bufs = x.bufs
  wait : x'.wait = .none

@[simp] theorem gReg_setReg (x : Ctx) (r i : Nat) (v : DWord) : gReg (setReg x r v) i = if i = r then v else gReg x i :=
  tget_tset _ _ _ _ _

/-- The flow goes on at the next word with what the operation left of its context. -/
theorem wentOn_goTo {s v : State} (hv : TilesOnly s v) (t c : Nat) {x x' : Ctx} (h : StaysOn x x') :
    WentOn s (goTo v (ctxKey t c) (x.pc + 1) x') t c x := by
  have here : getCtx (goTo v (ctxKey t c) (x.pc + 1) x') (ctxKey t c) =
      { x' with pc := x.pc + 1, word := some (csFetch s (x.pc + 1)), count := x'.count + 1 } := by
    rw [getCtx_goTo, if_pos rfl, hv.csFetch_eq]
  unfold WentOn
  rw [here]
  obtain ⟨hbusy, hseq, hstack, hinbox, hscratch, hbufs, hwait⟩ := h
  refine ⟨rfl, rfl, hbusy, hseq, hstack, hinbox, hscratch, hbufs, hwait, fun k hk => ?_, hv.dram_eq, hv.sram_eq, ?_,
    unchanged_trans hv.unchanged (goTo_unchanged v _ _ _)⟩
  · rw [getCtx_goTo, if_neg hk, hv.getCtx_eq]
  · obtain ⟨ts, rfl⟩ := hv
    rfl

theorem microDone_through {x : Ctx} {m : MWord} (hword : wordFault m = 0) (hperm : Permitted x m) (hsq : m.sq = 0)
    (hend : regionEnd x.pc = false) (s : State) (t c : Nat) (x' : Ctx) :
    microDone s t c x x' m = goTo s (ctxKey t c) (x.pc + 1) x' := by
  rw [microDone_sequences (issueFault_through hword hperm hsq hend s x') (by omega), sequence_next hsq]

section through

variable {s : State} {t c o : Nat} {x : Ctx} {m : MWord}

theorem through_issues (h : FallsThrough s t c o x m) : Issues s t c o x m := issues_of_issued h.1

theorem through_issueFault (h : FallsThrough s t c o x m) (hperm : Permitted x m) (v : State) (x' : Ctx) :
    issueFault v x x' m = 0 := by
  obtain ⟨-, hword, hsq, hend⟩ := h
  exact issueFault_through hword hperm hsq hend v x'

/-- A word that falls through completes by going on at the next word. -/
theorem through_microDone (h : FallsThrough s t c o x m) (hperm : Permitted x m) (v : State) (x' : Ctx) :
    microDone v t c x x' m = goTo v (ctxKey t c) (x.pc + 1) x' := by
  obtain ⟨-, hword, hsq, hend⟩ := h
  exact microDone_through hword hperm hsq hend v t c x'

theorem Issues.staysOn (h : Issues s t c o x m) : StaysOn x x := ⟨h.busy, rfl, rfl, rfl, rfl, rfl, h.ready⟩

/-- A load or store whose space is open at its flow's level. -/
theorem permitted_access (hopc : m.opc = 0x20 ∨ m.opc = 0x21) (hskim : atSkim x.pc = true → 3 ≤ m.space) :
    Permitted x m := ⟨by omega, fun h => ⟨by omega, by omega, fun _ => hskim h⟩⟩

end through

/-- A load or store has at most eight bytes, in one of the five spaces. -/
theorem access_sizes {m : MWord} (hword : wordFault m = 0) (hopc : m.opc = 0x20 ∨ m.opc = 0x21) :
    accessBytes m ≤ 8 := by
  have size : m.size < 4 := by
    rcases hopc with hopc | hopc
    · simp only [wordFault, opUse, hopc, wordOk] at hword
      simp_all
    · simp only [wordFault, opUse, hopc, wordOk] at hword
      simp_all
  calc 2 ^ m.size ≤ 2 ^ 3 := Nat.pow_le_pow_right (by decide) (Nat.le_of_lt_succ size)
    _ = 8 := rfl

/-! ## Little-endian values -/

theorem memRead_length (m : Memory) (a n : Nat) : (memRead m a n).length = n := by
  induction n generalizing a with
  | zero => rfl
  | succ n ih => rw [memRead, List.length_cons, ih]

theorem leValue_lt (bs : List Byte) : leValue bs < 256 ^ bs.length := by
  induction bs with
  | nil => decide
  | cons b bs ih =>
    have hb := b.isLt
    rw [leValue, List.length_cons, Nat.pow_succ]
    omega

theorem leValue_leBytes (v n : Nat) : leValue (leBytes v n) = v % 256 ^ n := by
  induction n generalizing v with
  | zero => rw [Nat.pow_zero, Nat.mod_one]; rfl
  | succ n ih => rw [leBytes, leValue, ih, BitVec.toNat_ofNat, Nat.pow_succ' (m := 256), Nat.mod_mul]

theorem leBytes_eq_map (v n : Nat) : leBytes v n = (List.range n).map fun i => BitVec.ofNat 8 (v / 256 ^ i) := by
  induction n generalizing v with
  | zero => rfl
  | succ n ih =>
    rw [leBytes, ih, List.range_succ_eq_map, List.map_cons, List.map_map, Nat.pow_zero, Nat.div_one]
    refine congrArg _ (List.map_congr_left fun i _ => ?_)
    rw [Function.comp_apply, Nat.div_div_eq_div_mul, Nat.pow_succ']

/-- Eight bytes or fewer fit a register. -/
theorem toNat_leValue {bs : List Byte} (h : bs.length ≤ 8) : (BitVec.ofNat 64 (leValue bs)).toNat = leValue bs := by
  rw [BitVec.toNat_ofNat, Nat.mod_eq_of_lt]
  calc leValue bs < 256 ^ bs.length := leValue_lt bs
    _ ≤ 256 ^ 8 := Nat.pow_le_pow_right (by decide) h
    _ = 2 ^ 64 := by decide

/-! ## Buffered stores as a load sees them (R220) -/

theorem withStores_length (l : List StoreEnt) (k sp a : Nat) (bs : List Byte) :
    (withStores l k sp a bs).length = bs.length := by
  unfold withStores
  induction l generalizing bs with
  | nil => rfl
  | cons e l ih =>
    rw [List.foldl_cons, ih]
    split
    · simp
    · rfl

/-- The newest store, where it covers the bytes that are loaded, gives them all. -/
theorem withStores_covered (l : List StoreEnt) (k sp a d : Nat) (bs : List Byte) :
    withStores (l ++ [⟨k, sp, a, bs.length, d⟩]) k sp a bs = leBytes d bs.length := by
  have length := withStores_length l k sp a bs
  unfold withStores at length ⊢
  rw [List.foldl_append, List.foldl_cons, List.foldl_nil, leBytes_eq_map]
  generalize List.foldl _ bs l = cs at length ⊢
  have own : StoreEnt.inSpace ⟨k, sp, a, bs.length, d⟩ k sp = true := by simp [StoreEnt.inSpace]
  rw [if_pos own]
  refine List.ext_getElem (by simp [length]) fun i hi _ => ?_
  have inside : i < bs.length := by simpa [length] using hi
  simp [inside]

theorem loadValue_covered {s : State} {t k sp a d : Nat} {bs : List Byte} {l : List StoreEnt} (h : bs.length ≤ 8)
    (hl : (getTile s t).stores = l ++ [⟨k, sp, a, bs.length, d⟩]) :
    (loadValue s t k sp a bs).toNat = d % 256 ^ bs.length := by
  rw [loadValue, hl, withStores_covered, toNat_leValue (by rw [leBytes_length]; exact h), leValue_leBytes]

theorem loadValue_plain {s : State} {t : Nat} (k sp a : Nat) {bs : List Byte} (h : bs.length ≤ 8)
    (hl : (getTile s t).stores = []) : (loadValue s t k sp a bs).toNat = leValue bs := by
  rw [loadValue, hl]
  exact toNat_leValue h

theorem spaceBytes_length (s : State) (x : Ctx) (sp a n : Nat) : (spaceBytes s x sp a n).length = n := by
  unfold spaceBytes
  split <;> exact memRead_length _ _ _

/-! ## LD (R218, R231) -/

/-- A load has completed: the flow went on, and of its registers and flags only `rd` changed, to `w`. -/
structure Loaded (s u : State) (t c : Nat) (x : Ctx) (rd : Nat) (w : DWord) : Prop where
  went : WentOn s u t c x
  only : OnlyReg x (getCtx u (ctxKey t c)) rd
  flags : SameFlags x (getCtx u (ctxKey t c))
  value : gReg (getCtx u (ctxKey t c)) rd = w

theorem loaded_goTo {s v : State} (hv : TilesOnly s v) (t c : Nat) {x : Ctx} (hx : StaysOn x x) (rd : Nat) (w : DWord) :
    Loaded s (goTo v (ctxKey t c) (x.pc + 1) (setReg x rd w)) t c x rd w := by
  have here := getCtx_goTo v (ctxKey t c) (x.pc + 1) (ctxKey t c) (setReg x rd w)
  rw [if_pos rfl] at here
  refine ⟨wentOn_goTo hv t c ⟨hx.busy, rfl, rfl, rfl, rfl, rfl, hx.wait⟩, fun i hi => ?_, ?_, ?_⟩
  · rw [here]
    exact (gReg_setReg x rd i w).trans (if_neg hi)
  · rw [here]
    exact ⟨rfl, rfl, rfl, rfl⟩
  · rw [here]
    exact (gReg_setReg x rd rd w).trans (if_pos rfl)

section load

variable {s : State} {t c : Nat} {x : Ctx} {m : MWord} (h : FallsThrough s t c 0x20 x m)
  (hskim : atSkim x.pc = true → 3 ≤ m.space)

include h hskim

theorem ld_permitted : Permitted x m := permitted_access (.inl (through_issues h).opc) hskim

theorem exec_ld_faults {err : Bool} (hf : accessFault s x m err ≠ 0) :
    exec (.ld t c err) s = .next (flowFault s t c (accessFault s x m err)) := by
  have harm : exec (.ld t c err) s = execLd t c err s := rfl
  have issue := through_issueFault h (ld_permitted h hskim) s
  obtain ⟨hissued, -, -, -⟩ := h
  rw [harm]
  simp [execLd, hissued, issue, hf]

theorem exec_ld_memory (hf : accessFault s x m false = 0) (hspace : m.space = 1 ∨ m.space = 3 ∨ m.space = 4) :
    exec (.ld t c false) s = .next (goTo s (ctxKey t c) (x.pc + 1) (setReg x m.rd (loadValue s t (ctxKey t c) m.space
      (accessAddr x m) (spaceBytes s x m.space (accessAddr x m) (accessBytes m))))) := by
  have harm : exec (.ld t c false) s = execLd t c false s := rfl
  have issue := through_issueFault h (ld_permitted h hskim) s
  rw [← through_microDone h (ld_permitted h hskim), harm]
  obtain ⟨hissued, -, hsq, -⟩ := h
  have memory : m.space ≠ 0 ∧ m.space ≠ 2 := by omega
  simp [execLd, hissued, issue, hf, hsq, memory]

/-- A load that completes from SRAM, scratch or a buffer. -/
theorem ld_memory (hf : accessFault s x m false = 0) (hspace : m.space = 1 ∨ m.space = 3 ∨ m.space = 4) :
    ∃ u, exec (.ld t c false) s = .next u ∧ Loaded s u t c x m.rd (loadValue s t (ctxKey t c) m.space (accessAddr x m)
      (spaceBytes s x m.space (accessAddr x m) (accessBytes m))) :=
  ⟨_, exec_ld_memory h hskim hf hspace, loaded_goTo (.refl s) t c (through_issues h).staysOn _ _⟩

/-- R218: a load that hits in the tile's cache. -/
theorem ld_hit (hf : accessFault s x m false = 0) (hspace : m.space = 0) {w : Nat}
    (hhit : cacheFind s t (accessAddr x m / 64) = some w) :
    ∃ u, exec (.ld t c false) s = .next u ∧ Loaded s u t c x m.rd (loadValue s t (ctxKey t c) 0 (accessAddr x m)
      (leBytes ((tget ({} : CacheLine) (getTile s t).cache (16 * (accessAddr x m / 64 % cacheSets s) + w)).data /
        256 ^ (accessAddr x m % 64)) (accessBytes m))) := by
  have harm : exec (.ld t c false) s = execLd t c false s := rfl
  have issue := through_issueFault h (ld_permitted h hskim) s
  have done := through_microDone h (ld_permitted h hskim)
  have touched : TilesOnly s (cacheTouch s t (accessAddr x m / 64) w) := (TilesOnly.refl s).after_modTile _ _
  have loads := fun r => loaded_goTo touched t c (through_issues h).staysOn m.rd r
  obtain ⟨hissued, -, hsq, -⟩ := h
  refine ⟨_, ?_, loads _⟩
  rw [← done, harm]
  simp [execLd, hissued, issue, hf, hsq, hspace, hhit]

/-- R218: a load that misses takes a free miss register and waits. -/
theorem exec_ld_miss (hf : accessFault s x m false = 0) (hspace : m.space = 0)
    (hmiss : cacheFind s t (accessAddr x m / 64) = none) (hfree : (getTile s t).misses = []) :
    exec (.ld t c false) s = .next (setCtx (modTile s t fun y => { y with misses :=
      [(accessAddr x m / 64, [⟨ctxKey t c, m.rd, accessAddr x m, accessBytes m⟩])] }) (ctxKey t c)
        { x with wait := .load, count := 0 }) := by
  have harm : exec (.ld t c false) s = execLd t c false s := rfl
  have issue := through_issueFault h (ld_permitted h hskim) s
  obtain ⟨hissued, -, hsq, -⟩ := h
  rw [harm]
  simp [execLd, hissued, issue, hf, hsq, hspace, hmiss, hfree, missTake]

end load

/-! ## LOAD_MISS_FILL (R218) -/

/-- A line has arrived: its miss register is free, and the tile's cache holds it. -/
def lineFilled (s : State) (t line : Nat) : State :=
  cacheFill (modTile s t fun y => { y with misses := y.misses.filter (·.1 != line) }) t line
    (leValue (memRead s.trw.dram (64 * line) 64))

theorem lineFilled_tilesOnly (s : State) (t line : Nat) : TilesOnly s (lineFilled s t line) :=
  (((TilesOnly.refl s).after_modTile t _).after_modTile t _).after_modTile t _

theorem getTile_lineFilled (s : State) (t line : Nat) :
    (getTile (lineFilled s t line) t).misses = (getTile s t).misses.filter (·.1 != line) ∧
      (getTile (lineFilled s t line) t).stores = (getTile s t).stores := by
  simp [lineFilled, cacheFill, cacheTouch]

/-- A fill whose register holds one load. -/
theorem exec_loadMissFill {s : State} {t line : Nat} {e : MissLoad} (h : (getTile s t).misses = [(line, [e])]) :
    exec (.loadMissFill t line false) s = .next (answerLoad t false (lineFilled s t line) e) := by
  have harm : exec (.loadMissFill t line false) s = execLoadMissFill t line false s := rfl
  rw [harm]
  simp [execLoadMissFill, h, lineFilled]

/-- The answer to a load that waited. -/
theorem answerLoad_eq {s : State} {t c w rd a n : Nat} (hc : c < 8) {m : MWord}
    (hwait : (getCtx s (ctxKey t c)).wait = .load) (hfetched : (getCtx s (ctxKey t c)).word = some w)
    (hm : m = MWord.ofNat w) (hword : wordFault m = 0) (hsq : m.sq = 0) (hopc : m.opc = 0x20)
    (hskim : atSkim (getCtx s (ctxKey t c)).pc = false) (hend : regionEnd (getCtx s (ctxKey t c)).pc = false) :
    answerLoad t false s ⟨ctxKey t c, rd, a, n⟩ = goTo s (ctxKey t c) ((getCtx s (ctxKey t c)).pc + 1)
      (setReg { getCtx s (ctxKey t c) with wait := .none } rd
        (loadValue s t (ctxKey t c) 0 a (memRead s.trw.dram a n))) := by
  have number : ctxKey t c % 8 = c := by
    unfold ctxKey
    omega
  have perm : Permitted { getCtx s (ctxKey t c) with wait := .none } m :=
    permitted_access (.inl hopc) fun on => absurd (hskim.symm.trans on) (by decide)
  have done := microDone_through hword perm hsq hend s t c
  rw [← done]
  simp [answerLoad, hwait, hfetched, number, ← hm, hsq]

/-! ## ST and STORE_ACK (R218 to R221, R231) -/

theorem exec_st {s : State} {t c : Nat} {x : Ctx} {m : MWord} (h : FallsThrough s t c 0x21 x m)
    (hskim : atSkim x.pc = true → 3 ≤ m.space) (hf : accessFault s x m false = 0)
    (hroom : (getTile s t).stores.length < 4) (ok : Bool) :
    exec (.st t c false ok) s = .next (goTo (modTile s t fun y => { y with stores := y.stores ++
      [⟨ctxKey t c, m.space, accessAddr x m, accessBytes m, (gReg x m.rb).toNat % 256 ^ accessBytes m⟩] })
        (ctxKey t c) (x.pc + 1) x) := by
  have harm : exec (.st t c false ok) s = execSt t c false ok s := rfl
  have perm : Permitted x m := permitted_access (.inr (through_issues h).opc) hskim
  have issue := through_issueFault h perm s x
  rw [← through_microDone h perm, harm]
  obtain ⟨hissued, -, hsq, -⟩ := h
  simp [execSt, hissued, issue, hf, hsq, Nat.not_le.mpr hroom]

theorem exec_storeAck {s : State} {t : Nat} {e : StoreEnt} {l : List StoreEnt} (ht : t < 32)
    (hl : (getTile s t).stores = e :: l) (ok : Bool) : exec (.storeAck t 0 ok) s =
      .next (storeVisible (modTile s t fun y => { y with stores := y.stores.eraseIdx 0 }) e ok) := by
  have harm : exec (.storeAck t 0 ok) s = execStoreAck t 0 ok s := rfl
  rw [harm]
  simp [execStoreAck, hl, ht]

/-- The bytes of a store read back, and every other byte reads as before. -/
theorem memWrite_leBytes (m : Memory) (a v n : Nat) : memRead (memWrite m a (leBytes v n)) a n = leBytes v n ∧
    ∀ b, b < a ∨ a + n ≤ b → tget 0 (memWrite m a (leBytes v n)) b = tget 0 m b := by
  have length := leBytes_length v n
  refine ⟨?_, fun b hb => memWrite_outside _ _ _ _ (by rw [length]; exact hb)⟩
  have stored := memRead_memWrite (leBytes v n) m a
  rwa [length] at stored

theorem cacheDrop_tilesOnly {s v : State} (h : TilesOnly s v) (t : Nat) (p : Nat → Bool) :
    TilesOnly s (cacheDrop v t p) := h.after_modTile t _

/-- A DRAM write changes DRAM's bytes and the tiles' caches. -/
theorem microDram_tilesOnly (s : State) (t a : Nat) (bs : List Byte) :
    TilesOnly (modTrw s fun w => { w with dram := memWrite w.dram a bs }) (microDram s t a bs) := by
  unfold microDram
  refine TilesOnly.after_modTile (TilesOnly.after_foldl (fun v u hv => ?_) _ (.refl _)) _ _
  split
  · exact hv
  · exact cacheDrop_tilesOnly hv u _

section visible

variable {s v : State} (hv : TilesOnly s v) (e : StoreEnt) (ok : Bool)

include hv

theorem storeVisible_dram (hspace : e.space = 0) :
    memRead (storeVisible v e ok).trw.dram e.addr e.size = leBytes e.data e.size ∧
      (∀ a, a < e.addr ∨ e.addr + e.size ≤ a → tget 0 (storeVisible v e ok).trw.dram a = tget 0 s.trw.dram a) ∧
      (storeVisible v e ok).trw.sram = s.trw.sram ∧ (storeVisible v e ok).trw.ctxs = s.trw.ctxs ∧
      Unchanged [.trw] s (storeVisible v e ok) := by
  have made : storeVisible v e ok = microDram v (e.ctx / 8) e.addr (leBytes e.data e.size) := by
    simp only [storeVisible, hspace]
  have tiles := microDram_tilesOnly v (e.ctx / 8) e.addr (leBytes e.data e.size)
  rw [made, tiles.dram_eq, tiles.sram_eq, tiles.ctxs_eq, ← hv.dram_eq, ← hv.sram_eq, ← hv.ctxs_eq]
  obtain ⟨stored, others⟩ := memWrite_leBytes v.trw.dram e.addr e.data e.size
  exact ⟨stored, others, rfl, rfl,
    unchanged_trans hv.unchanged (unchanged_trans (modTrw_unchanged v _) tiles.unchanged)⟩

theorem storeVisible_sram (hspace : e.space = 1) :
    memRead (storeVisible v e ok).trw.sram e.addr e.size = leBytes e.data e.size ∧
      (∀ a, a < e.addr ∨ e.addr + e.size ≤ a → tget 0 (storeVisible v e ok).trw.sram a = tget 0 s.trw.sram a) ∧
      (storeVisible v e ok).trw.dram = s.trw.dram ∧ (storeVisible v e ok).trw.ctxs = s.trw.ctxs ∧
      (∀ t, getTile (storeVisible v e ok) t = getTile v t) ∧ Unchanged [.trw] s (storeVisible v e ok) := by
  have made : storeVisible v e ok =
      modTrw v fun w => { w with sram := memWrite w.sram e.addr (leBytes e.data e.size) } := by
    simp only [storeVisible, hspace]
  rw [made, ← hv.dram_eq, ← hv.sram_eq, ← hv.ctxs_eq]
  obtain ⟨stored, others⟩ := memWrite_leBytes v.trw.sram e.addr e.data e.size
  exact ⟨stored, others, rfl, rfl, fun _ => rfl, unchanged_trans hv.unchanged (modTrw_unchanged v _)⟩

/-- A store that changes its own context alone. -/
theorem storeVisible_ctx {f : Ctx → Ctx} (made : storeVisible v e ok = modCtx v e.ctx f) :
    getCtx (storeVisible v e ok) e.ctx = f (getCtx s e.ctx) ∧
      (storeVisible v e ok).trw.dram = s.trw.dram ∧ (storeVisible v e ok).trw.sram = s.trw.sram ∧
      (∀ k, k ≠ e.ctx → getCtx (storeVisible v e ok) k = getCtx s k) ∧ Unchanged [.trw] s (storeVisible v e ok) := by
  rw [made, ← hv.dram_eq, ← hv.sram_eq, ← hv.getCtx_eq]
  refine ⟨?_, rfl, rfl, fun k hk => ?_, unchanged_trans hv.unchanged (setCtx_unchanged v _ _)⟩
  · rw [modCtx, getCtx_setCtx, if_pos rfl]
  · rw [modCtx, getCtx_setCtx, if_neg hk, hv.getCtx_eq]

end visible

/-! ## The statement on loads and stores -/

/-- Settles O33: a load by its space and its faults, the fill that answers it, a store and its acknowledgement by space, a
snoop. -/
theorem loadsAndStores : Obligations.LoadsAndStores := by
  unfold Obligations.LoadsAndStores
  refine ⟨fun s t c x m h hf hskim => ?_, fun s t c x m h hskim => ?_, ?_, fun s t c x m ok h hf hskim hroom => ?_,
    fun s t e l ok ht hl => ?_, fun s t line ht => ?_⟩
  · have small : accessBytes m ≤ 8 := access_sizes h.2.1 (.inl (through_issues h).opc)
    have length := spaceBytes_length s x m.space (accessAddr x m) (accessBytes m)
    refine ⟨fun hspace hempty => ?_, fun hspace l d hl => ?_, fun hspace hempty w hhit => ?_, fun hspace hmiss hfree => ?_⟩
    · obtain ⟨u, run, went, only, flags, value⟩ := ld_memory h hskim hf hspace
      exact ⟨u, run, went, only, flags, by rw [value, loadValue_plain _ _ _ (length.trans_le small) hempty]⟩
    · obtain ⟨u, run, went, -, -, value⟩ := ld_memory h hskim hf hspace
      refine ⟨u, run, went, ?_⟩
      rw [value, loadValue_covered (l := l) (d := d) (length.trans_le small) (by rw [length]; exact hl), length]
    · obtain ⟨u, run, went, -, -, value⟩ := ld_hit h hskim hf hspace hhit
      refine ⟨u, run, went, ?_⟩
      rw [value, loadValue_plain _ _ _ (by rw [leBytes_length]; exact small) hempty, leValue_leBytes]
    · refine ⟨_, exec_ld_miss h hskim hf hspace hmiss hfree, ?_, ?_, ?_, ?_, rfl,
        unchanged_trans (modTile_unchanged s t _) (setCtx_unchanged _ _ _)⟩
      · rw [getCtx_setCtx, if_pos rfl]
      · rw [getCtx_setCtx, if_pos rfl]
      · rw [getCtx_setCtx, if_pos rfl]
      · rw [getTile_setCtx, getTile_modTile, if_pos rfl]
  · refine ⟨fun halign e => ?_, fun halign hbus e => ?_⟩
    · have fault : accessFault s x m e = 7 := by simp [accessFault, halign]
      have run := exec_ld_faults h hskim (err := e) (by omega)
      rw [fault] at run
      exact ⟨_, run, flowFault_faulted s t c (by decide)⟩
    · have fault : accessFault s x m e = 8 := by simp [accessFault, halign, hbus]
      have run := exec_ld_faults h hskim (err := e) (by omega)
      rw [fault] at run
      exact ⟨_, run, flowFault_faulted s t c (by decide)⟩
  · intro s t c line rd a n w m ht hc hmisses hempty hbusy hwait hfetched hm hword hsq hopc hskim hend hn
    have run := exec_loadMissFill hmisses
    have tiles := lineFilled_tilesOnly s t line
    obtain ⟨misses, stores⟩ := getTile_lineFilled s t line
    have ctx := tiles.getCtx_eq (ctxKey t c)
    rw [answerLoad_eq hc (by rw [ctx, hwait]) (by rw [ctx, hfetched]) hm hword hsq hopc (by rw [ctx, hskim])
      (by rw [ctx, hend]), ctx, tiles.dram_eq] at run
    have value := loadValue_plain (ctxKey t c) 0 a ((memRead_length s.trw.dram a n).trans_le hn) (stores.trans hempty)
    refine ⟨_, run, ?_, ?_, fun i hi => ?_, ?_, ?_, tiles.dram_eq, unchanged_trans tiles.unchanged (goTo_unchanged _ _ _ _)⟩
    · rw [goTo, getTile_setCtx, misses, hmisses]
      simp
    · rw [getCtx_goTo, if_pos rfl]
      exact (congrArg BitVec.toNat ((gReg_setReg _ rd rd _).trans (if_pos rfl))).trans value
    · rw [getCtx_goTo, if_pos rfl]
      exact (gReg_setReg _ rd i _).trans (if_neg hi)
    · rw [getCtx_goTo, if_pos rfl]
      rfl
    · rw [getCtx_goTo, if_pos rfl]
  · have perm : Permitted x m := permitted_access (.inr (through_issues h).opc) hskim
    have tiles := (TilesOnly.refl s).after_modTile t fun y => { y with stores := y.stores ++
      [⟨ctxKey t c, m.space, accessAddr x m, accessBytes m, (gReg x m.rb).toNat % 256 ^ accessBytes m⟩] }
    refine ⟨_, exec_st h hskim hf hroom ok, wentOn_goTo tiles t c (through_issues h).staysOn, fun i => ?_, ?_, ?_⟩
    · rw [getCtx_goTo, if_pos rfl]
      rfl
    · rw [getCtx_goTo, if_pos rfl]
      exact ⟨rfl, rfl, rfl, rfl⟩
    · rw [goTo, getTile_setCtx, getTile_modTile, if_pos rfl]
  · have run := exec_storeAck ht hl ok
    have tiles := (TilesOnly.refl s).after_modTile t fun y => { y with stores := y.stores.eraseIdx 0 }
    refine ⟨fun hspace => ⟨_, run, storeVisible_dram tiles e ok hspace⟩, fun hspace => ?_, fun hspace => ?_, fun hspace => ?_⟩
    · obtain ⟨stored, others, dram, ctxs, kept, frame⟩ := storeVisible_sram tiles e ok hspace
      refine ⟨_, run, stored, others, dram, ctxs, ?_, frame⟩
      rw [kept, getTile_modTile, if_pos rfl, hl]
      rfl
    · obtain ⟨here, dram, sram, ctxs, frame⟩ := storeVisible_ctx tiles e ok
        (f := fun x => { x with scratch := memWrite x.scratch e.addr (leBytes e.data e.size) })
        (by simp only [storeVisible, hspace])
      obtain ⟨stored, others⟩ := memWrite_leBytes (getCtx s e.ctx).scratch e.addr e.data e.size
      refine ⟨_, run, ?_, fun a ha => ?_, dram, sram, ctxs, frame⟩
      · rw [here, stored]
      · rw [here, others a ha]
    · obtain ⟨here, dram, sram, ctxs, frame⟩ := storeVisible_ctx tiles e ok
        (f := fun x => { x with bufs := tmod {} x.bufs (bufHandle e.addr) fun b =>
          { b with data := memWrite b.data (bufByte e.addr) (leBytes e.data e.size) } })
        (by simp only [storeVisible, hspace])
      obtain ⟨stored, others⟩ := memWrite_leBytes (tget {} (getCtx s e.ctx).bufs (bufHandle e.addr)).data
        (bufByte e.addr) e.data e.size
      refine ⟨_, run, ?_, fun b hb => ?_, fun a ha => ?_, dram, sram, ctxs, frame⟩
      · rw [here, tget_tmod, if_pos rfl, stored]
      · rw [here, tget_tmod, if_neg hb]
      · rw [here, tget_tmod, if_pos rfl, others a ha]
  · have run : exec (.snoopInvalidate t line) s = .next (cacheDrop s t (· == line)) := by
      have harm : exec (.snoopInvalidate t line) s = execSnoopInvalidate t line s := rfl
      rw [harm, execSnoopInvalidate, if_neg (by omega)]
    have kept : getTile (cacheDrop s t (· == line)) t =
        { getTile s t with cache := (getTile s t).cache.filter fun e => !(e.2.line == line) } := by
      rw [cacheDrop, getTile_modTile, if_pos rfl]
    refine ⟨_, run, fun e he => ?_, fun e he hline => ?_, fun k hk => ?_, rfl, rfl, modTile_unchanged s t _⟩
    · rw [kept] at he
      simpa using List.of_mem_filter he
    · rw [kept]
      exact List.mem_filter.mpr ⟨he, by simpa using hline⟩
    · rw [cacheDrop, getTile_modTile, if_neg hk]

end Sys2Proof.Laws
end

section
/-!
PROOFS. The statement of 07_trowel_tiles.md on fences, messages, the time and control-store writes (R206, R207, R213, R221,
R229). The lemmas in front of it serve every later proof about the control store: what its words read after one is written.
-/

namespace Sys2Proof.Laws

open Sys2Proof.Machine

/-! ## Words of the control store (R198 to R206) -/

theorem csWord_congr {s t : State} (h : t.trw.cs = s.trw.cs) (a : Nat) : csWord t a = csWord s a := by
  unfold csWord
  rw [h]

/-- A written word of a RAM region reads back, and every other word reads as before. -/
theorem csWord_tset {s t : State} {a : Nat} {w : Nat} (ha : 0x30000 ≤ a) (h : t.trw.cs = tset csFill s.trw.cs a w)
    (b : Nat) : csWord t b = if b = a then w else csWord s b := by
  unfold csWord
  rw [h, tget_tset]
  by_cases hb : b = a
  · subst hb
    rw [if_neg (Nat.not_lt.mpr ha), if_pos rfl, if_pos rfl]
  · rw [if_neg hb, if_neg hb]

theorem csWrite_unchanged (s : State) (a w : Nat) : Unchanged [.trw] s (csWrite s a w) := modTrw_unchanged s _

/-! ## Words that neither move data nor write the control store -/

theorem permitted_plain {x : Ctx} {m : MWord} (h : m.opc ∉ [0x20, 0x21, 0x30, 0x38]) : Permitted x m := by
  simp only [List.mem_cons, List.not_mem_nil, or_false, not_or] at h
  obtain ⟨noLd, noSt, noSend, noStcs⟩ := h
  exact ⟨fun e => absurd e noStcs, fun _ => ⟨noStcs, noSend, fun e => (e.elim noLd noSt).elim⟩⟩

section plain

variable {s : State} {t c o : Nat} {x : Ctx} {m : MWord}

theorem through_permitted (h : FallsThrough s t c o x m) (ho : o ∉ [0x20, 0x21, 0x30, 0x38]) : Permitted x m :=
  permitted_plain ((through_issues h).opc ▸ ho)

/-- FENCE.W waits while the tile's store buffer holds a store (R221). -/
theorem exec_fenceW (h : FallsThrough s t c 0x22 x m) : exec (.fenceW t c) s =
    .next (if (getTile s t).stores = [] then goTo s (ctxKey t c) (x.pc + 1) x else s) := by
  have harm : exec (.fenceW t c) s = execFenceW t c s := rfl
  have perm := through_permitted h (by decide)
  have issue := through_issueFault h perm s x
  rw [← through_microDone h perm, harm]
  obtain ⟨hissued, -, -, -⟩ := h
  by_cases hempty : (getTile s t).stores = []
  · simp [execFenceW, hissued, hempty]
  · simp [execFenceW, hissued, issue, hempty]

theorem exec_time (h : FallsThrough s t c 0x33 x m) : exec (.time t c) s =
    .next (goTo s (ctxKey t c) (x.pc + 1) (setReg x m.rd (BitVec.ofNat 64 s.tb.ns))) := by
  have harm : exec (.time t c) s = execTime t c s := rfl
  rw [harm, execTime, microOp_issued h.1, through_microDone h (through_permitted h (by decide))]

end plain

/-! ## Messages (R213, R229) -/

theorem exec_send {s : State} {t c : Nat} {x : Ctx} {m : MWord} (h : FallsThrough s t c 0x30 x m)
    (hskim : atSkim x.pc = false) (hdrained : m.imm = 0 ∨ (getTile s t).stores = []) :
    exec (.send t c) s = .next (goTo (emit s (.message ((gReg x m.ra).toNat % 65536) (fourRegs x m.rb)))
      (ctxKey t c) (x.pc + 1) x) := by
  have harm : exec (.send t c) s = execSend t c s := rfl
  have opc := (through_issues h).opc
  have perm : Permitted x m := ⟨by omega, fun on => absurd (hskim.symm.trans on) (by decide)⟩
  have issue := through_issueFault h perm s x
  rw [← through_microDone h perm, harm]
  obtain ⟨hissued, -, hsq, -⟩ := h
  rcases hdrained with himm | hempty
  · simp [execSend, hissued, issue, hsq, himm]
  · simp [execSend, hissued, issue, hempty]

/-- A message goes into four registers from RD on. -/
theorem gReg_takeMessage (x : Ctx) (rd : Nat) (ws : List DWord) (r : Nat) : gReg (takeMessage x rd ws) r =
    if rd ≤ r ∧ r < rd + 4 then ws.getD (r - rd) 0 else gReg x r := by
  have regs : gReg (takeMessage x rd ws) r = gReg (setReg (setReg (setReg (setReg x (rd + 0) (ws.getD 0 0)) (rd + 1)
    (ws.getD 1 0)) (rd + 2) (ws.getD 2 0)) (rd + 3) (ws.getD 3 0)) r := rfl
  rw [regs, gReg_setReg, gReg_setReg, gReg_setReg, gReg_setReg]
  by_cases inside : rd ≤ r ∧ r < rd + 4
  · obtain ⟨i, rfl⟩ := Nat.exists_eq_add_of_le inside.1
    have small : i < 4 := by omega
    rw [if_pos inside, Nat.add_sub_cancel_left]
    interval_cases i <;> simp
  · rw [if_neg inside, if_neg (by omega), if_neg (by omega), if_neg (by omega), if_neg (by omega)]

/-- A message has been taken: RD to RD+3 hold it, T is 0, and the flow goes on at `a`. -/
structure Took (s u : State) (k a : Nat) (x : Ctx) (rd : Nat) (ws : List DWord) : Prop where
  words : ∀ i < 4, gReg (getCtx u k) (rd + i) = ws.getD i 0
  others : ∀ r, r < rd ∨ rd + 4 ≤ r → gReg (getCtx u k) r = gReg x r
  flag : (getCtx u k).t = false
  pc : (getCtx u k).pc = a
  frame : Unchanged [.trw] s u

theorem took_goTo {x x' : Ctx} {rd : Nat} {ws : List DWord} (hregs : x'.regs = (takeMessage x rd ws).regs)
    (ht : x'.t = false) (s : State) (k a : Nat) : Took s (goTo s k a x') k a x rd ws := by
  have here := getCtx_goTo s k a k x'
  rw [if_pos rfl] at here
  have regs (r : Nat) : gReg (getCtx (goTo s k a x') k) r = gReg (takeMessage x rd ws) r := by
    rw [here, gReg, gReg, ← hregs]
  refine ⟨fun i hi => ?_, fun r hr => ?_, by rw [here, ht], by rw [here], goTo_unchanged s k a x'⟩
  · rw [regs, gReg_takeMessage, if_pos (by omega), Nat.add_sub_cancel_left]
  · rw [regs, gReg_takeMessage, if_neg (by omega)]

section take

variable {s : State} {t c : Nat} {x : Ctx} {m : MWord}

/-- WAIT and POLL take the oldest message of the inbox. -/
theorem wait_takes {ws : List DWord} {l : List (List DWord)} (hinbox : x.inbox = ws :: l)
    (h : FallsThrough s t c 0x31 x m) : exec (.wait t c) s =
      .next (goTo s (ctxKey t c) (x.pc + 1) (takeMessage { x with inbox := l } m.rd ws)) := by
  have harm : exec (.wait t c) s = execWait t c s := rfl
  rw [← through_microDone h (through_permitted h (by decide)), harm]
  simp [execWait, h.1, hinbox]

theorem poll_takes {ws : List DWord} {l : List (List DWord)} (hinbox : x.inbox = ws :: l)
    (h : FallsThrough s t c 0x32 x m) : exec (.poll t c) s = .next (goTo s (ctxKey t c) (x.pc + 1)
      { takeMessage { x with inbox := l } m.rd ws with count := x.count }) := by
  have harm : exec (.poll t c) s = execPoll t c s := rfl
  rw [← through_microDone h (through_permitted h (by decide)), harm]
  simp [execPoll, h.1, hinbox]

/-- A WAIT without a message waits, and a POLL without one sets T. -/
theorem wait_waits (hinbox : x.inbox = []) (h : FallsThrough s t c 0x31 x m) : exec (.wait t c) s =
    .next (setCtx s (ctxKey t c)
      { x with wait := .message (if m.imm = 0 then none else some (s.tb.ns + m.imm)), count := 0 }) := by
  have harm : exec (.wait t c) s = execWait t c s := rfl
  have issue := through_issueFault h (through_permitted h (by decide)) s x
  rw [harm]
  simp [execWait, h.1, hinbox, issue]

theorem poll_passes (hinbox : x.inbox = []) (h : FallsThrough s t c 0x32 x m) :
    exec (.poll t c) s = .next (goTo s (ctxKey t c) (x.pc + 1) { x with t := true }) := by
  have harm : exec (.poll t c) s = execPoll t c s := rfl
  rw [← through_microDone h (through_permitted h (by decide)), harm]
  simp [execPoll, h.1, hinbox]

end take

/-- What a waiting context's WAIT does as it completes. -/
theorem waited_microDone {x : Ctx} {m : MWord} (hopc : m.opc = 0x31) (hword : wordFault m = 0) (hsq : m.sq = 0)
    (hend : regionEnd x.pc = false) (s : State) (t c : Nat) (x' : Ctx) :
    microDone s t c { x with wait := .none } x' m = goTo s (ctxKey t c) (x.pc + 1) x' :=
  microDone_through hword (permitted_plain (by rw [hopc]; decide)) hsq hend s t c x'

section arrive

variable {s : State} {t c : Nat} {x : Ctx} (ht : t < 32) (hc : c < 8) (hx : x = getCtx s (ctxKey t c))
  (hbusy : x.busy = true)

include ht hc hx hbusy

/-- A message that arrives at a context which does not wait joins its inbox. -/
theorem exec_messageArrival_queued (hwait : x.wait = .none) (hroom : x.inbox.length < 4) (ws : List DWord) :
    exec (.messageArrival t c ws) s = .next (setCtx s (ctxKey t c) { x with inbox := x.inbox ++ [ws] }) := by
  have harm : exec (.messageArrival t c ws) s = execMessageArrival t c ws s := rfl
  rw [harm]
  simp [execMessageArrival, ← hx, hbusy, Nat.not_le.mpr ht, Nat.not_le.mpr hc, hwait, hroom]

variable {w : Nat} {m : MWord} {d : Option Nat} (hwait : x.wait = .message d) (hfetched : x.word = some w)
  (hm : m = MWord.ofNat w) (hopc : m.opc = 0x31) (hword : wordFault m = 0) (hsq : m.sq = 0)
  (hend : regionEnd x.pc = false)

include hwait hfetched hm hopc hword hsq hend

theorem exec_messageArrival_taken (ws : List DWord) : exec (.messageArrival t c ws) s =
    .next (goTo s (ctxKey t c) (x.pc + 1) (takeMessage x m.rd ws)) := by
  have harm : exec (.messageArrival t c ws) s = execMessageArrival t c ws s := rfl
  rw [← waited_microDone hopc hword hsq hend, harm]
  simp [execMessageArrival, ← hx, hbusy, Nat.not_le.mpr ht, Nat.not_le.mpr hc, hwait, hfetched, hm]

theorem exec_waitTimeout {e : Nat} (hd : d = some e) (hpast : e ≤ s.tb.ns) : exec (.waitTimeout t c) s =
    .next (goTo s (ctxKey t c) (x.pc + 1) { x with wait := .none, t := true, count := 0 }) := by
  have harm : exec (.waitTimeout t c) s = execWaitTimeout t c s := rfl
  rw [← waited_microDone hopc hword hsq hend, harm]
  simp [execWaitTimeout, ← hx, hbusy, Nat.not_le.mpr ht, Nat.not_le.mpr hc, hwait, hfetched, hm, hd, hpast]

end arrive

/-! ## STCS (R206, R207) -/

theorem exec_stcs {s : State} {t c : Nat} {x : Ctx} {m : MWord} (h : FallsThrough s t c 0x38 x m)
    (hskim : atSkim x.pc = false) (haddr : 0x30000 ≤ (gReg x m.ra).toNat % 2 ^ 18) : exec (.stcs t c) s =
      .next (modTrw (goTo s (ctxKey t c) (x.pc + 1) { x with wait := .stcs }) fun w => { w with stcs := w.stcs ++
        [⟨ctxKey t c, (gReg x m.ra).toNat % 2 ^ 18, (gReg x m.rb).toNat + (gReg x (m.rb + 1)).toNat * 2 ^ 64⟩] }) := by
  have harm : exec (.stcs t c) s = execStcs t c s := rfl
  have perm : Permitted x m := ⟨fun _ => haddr, fun on => absurd (hskim.symm.trans on) (by decide)⟩
  have issue := through_issueFault h perm s x
  rw [← through_microDone h perm, harm]
  obtain ⟨hissued, -, hsq, -⟩ := h
  simp [execStcs, hissued, issue, hsq]

theorem exec_stcsComplete {s : State} {h : Stcs} {l : List Stcs} (hl : s.trw.stcs = h :: l)
    (hwait : (getCtx s h.ctx).wait = .stcs) : exec .stcsComplete s =
      .next (modCtx (csWrite (modTrw s fun w => { w with stcs := l }) h.addr h.word) h.ctx
        fun x => { x with wait := .none, count := 0 }) := by
  have harm : exec .stcsComplete s = execStcsComplete s := rfl
  have same : getCtx (csWrite (modTrw s fun w => { w with stcs := l }) h.addr h.word) h.ctx = getCtx s h.ctx := rfl
  rw [harm]
  simp [execStcsComplete, hl, same, hwait]

/-! ## The statement on messages, fences and control-store writes -/

/-- Settles O34: each of the words by whether it finds what it asks for, then what completes the waiting ones. -/
theorem messagesFencesAndStores : Obligations.MessagesFencesAndStores := by
  unfold Obligations.MessagesFencesAndStores
  refine ⟨fun s t c x m h hempty => ?_, fun s t c x m h hfull => ?_, fun s t c x m h hskim hdrained => ?_,
    fun s t c x m ws l hinbox => ⟨fun h => ?_, fun h => ?_⟩, fun s t c x m hinbox => ⟨fun h => ?_, fun h => ?_⟩,
    fun s t c x m h => ?_, fun s t c w x m ws ht hc hx hbusy => ⟨fun hwait hroom => ?_, ?_⟩,
    fun s t c x m h hskim haddr => ?_, fun s h l hl hwait haddr => ?_⟩
  · refine ⟨_, (exec_fenceW h).trans (congrArg _ (if_pos hempty)),
      wentOn_goTo (.refl s) t c (through_issues h).staysOn, fun i => ?_⟩
    rw [getCtx_goTo, if_pos rfl]
    rfl
  · exact (exec_fenceW h).trans (congrArg _ (if_neg hfull))
  · have here := getCtx_goTo (emit s (.message ((gReg x m.ra).toNat % 65536) (fourRegs x m.rb))) (ctxKey t c) (x.pc + 1)
    have sent : Unchanged [.out, .trw] s (emit s (.message ((gReg x m.ra).toNat % 65536) (fourRegs x m.rb))) :=
      unchanged_mono (emit_unchanged s _) (by decide)
    refine ⟨_, exec_send h hskim hdrained, rfl, ?_, fun i => ?_, fun k hk => ?_,
      unchanged_trans sent (unchanged_mono (goTo_unchanged _ _ _ _) (by decide))⟩
    · rw [here, if_pos rfl]
    · rw [here, if_pos rfl]
      rfl
    · rw [here, if_neg hk]
      rfl
  · obtain ⟨words, others, flag, pc, frame⟩ := took_goTo (x := x) (rd := m.rd) (ws := ws)
      (x' := takeMessage { x with inbox := l } m.rd ws) rfl rfl s (ctxKey t c) (x.pc + 1)
    refine ⟨_, wait_takes hinbox h, ?_, words, others, flag, pc, frame⟩
    rw [getCtx_goTo, if_pos rfl]
    rfl
  · obtain ⟨words, others, flag, pc, frame⟩ := took_goTo (x := x) (rd := m.rd) (ws := ws)
      (x' := { takeMessage { x with inbox := l } m.rd ws with count := x.count }) rfl rfl s (ctxKey t c) (x.pc + 1)
    refine ⟨_, poll_takes hinbox h, ?_, words, others, flag, pc, frame⟩
    rw [getCtx_goTo, if_pos rfl]
    rfl
  · refine ⟨_, wait_waits hinbox h, ?_, ?_, ?_, setCtx_unchanged s _ _⟩
    all_goals rw [getCtx_setCtx, if_pos rfl]
  · have issues := through_issues h
    have stays : StaysOn x { x with t := true } := ⟨issues.busy, rfl, rfl, rfl, rfl, rfl, issues.ready⟩
    refine ⟨_, poll_passes hinbox h, wentOn_goTo (.refl s) t c stays, ?_, fun i => ?_, ?_⟩
    · rw [getCtx_goTo, if_pos rfl]
    · rw [getCtx_goTo, if_pos rfl]
      rfl
    · rw [getCtx_goTo, if_pos rfl]
      exact ⟨rfl, rfl, rfl, rfl⟩
  · obtain ⟨went, only, -, value⟩ := loaded_goTo (.refl s) t c (through_issues h).staysOn m.rd (BitVec.ofNat 64 s.tb.ns)
    exact ⟨_, exec_time h, went, value, only⟩
  · exact ⟨_, exec_messageArrival_queued ht hc hx hbusy hwait hroom ws, by rw [getCtx_setCtx, if_pos rfl],
      setCtx_unchanged s _ _⟩
  · intro d hwait hfetched hm hopc hword hsq hend
    refine ⟨?_, fun e hd hpast => ?_⟩
    · obtain ⟨words, -, flag, pc, frame⟩ := took_goTo (x := x) (rd := m.rd) (ws := ws)
        (x' := takeMessage x m.rd ws) rfl rfl s (ctxKey t c) (x.pc + 1)
      refine ⟨_, exec_messageArrival_taken ht hc hx hbusy hwait hfetched hm hopc hword hsq hend ws, words, flag, ?_, pc,
        frame⟩
      rw [getCtx_goTo, if_pos rfl]
      rfl
    · refine ⟨_, exec_waitTimeout ht hc hx hbusy hwait hfetched hm hopc hword hsq hend hd hpast, ?_, fun i => ?_, ?_, ?_,
        goTo_unchanged s _ _ _⟩
      · rw [getCtx_goTo, if_pos rfl]
      · rw [getCtx_goTo, if_pos rfl]
        rfl
      · rw [getCtx_goTo, if_pos rfl]
      · rw [getCtx_goTo, if_pos rfl]
  · have here := getCtx_goTo s (ctxKey t c) (x.pc + 1) (ctxKey t c) { x with wait := .stcs }
    rw [if_pos rfl] at here
    exact ⟨_, exec_stcs h hskim haddr, congrArg Ctx.wait here, congrArg Ctx.pc here, congrArg Ctx.word here, rfl, rfl,
      unchanged_trans (goTo_unchanged s _ _ _) (modTrw_unchanged _ _)⟩
  · have read := csWord_tset (s := s) (t := csWrite (modTrw s fun w => { w with stcs := l }) h.addr h.word) haddr rfl
    refine ⟨_, exec_stcsComplete hl hwait, ?_, ?_, fun a ha => ?_, rfl, ?_, fun k hk => ?_, unchanged_trans
      (modTrw_unchanged s fun w => { w with stcs := l }) (unchanged_trans (csWrite_unchanged _ _ _)
        (setCtx_unchanged _ _ _))⟩
    · exact (read h.addr).trans (if_pos rfl)
    · exact (tget_tset _ _ _ _ _).trans (if_pos rfl)
    · exact (read a).trans (if_neg ha)
    · rw [modCtx, getCtx_setCtx, if_pos rfl]
    · rw [modCtx, getCtx_setCtx, if_neg hk]
      rfl

end Sys2Proof.Laws
end

section
/-!
PROOFS. The statement of 07_trowel_tiles.md on SKIM_INSTALL (R210, R211, R244) and of 18_daymark.md on DAYMARK_CLEAR (R515,
R516). The lemmas in front of it serve every later proof about Daymark's areas: that a fault report leaves them as they are
(`store_raise`), and which entries recording an event can add (`mem_store_recordEntry`).
-/

namespace Sys2Proof.Laws

open Sys2Proof.Machine

/-! ## The Skim region (R200, R244, R245) -/

theorem csWord_csWrite (s : State) {a : Nat} (ha : 0x30000 ≤ a) (w b : Nat) :
    csWord (csWrite s a w) b = if b = a then w else csWord s b := csWord_tset ha rfl b

/-- The binding words, one after the other from the region's start. -/
theorem csWord_bindings (f : Nat → Nat) (n : Nat) (s : State) (a : Nat) :
    csWord ((List.range n).foldl (fun s k => csWrite s (0x38000 + k) (f k)) s) a =
      if 0x38000 ≤ a ∧ a < 0x38000 + n then f (a - 0x38000) else csWord s a := by
  induction n with
  | zero => rw [if_neg (by omega)]; rfl
  | succ n ih =>
    rw [List.range_succ, List.foldl_append, List.foldl_cons, List.foldl_nil, csWord_csWrite _ (by omega), ih]
    by_cases here : a = 0x38000 + n
    · rw [if_pos here, if_pos (by omega), here, Nat.add_sub_cancel_left]
    · rw [if_neg here]
      exact if_congr (by omega) rfl rfl

/-- The code words behind them. -/
theorem csWord_code (ws : List Nat) (i : Nat) (s : State) (a : Nat) :
    csWord ((ws.zipIdx i).foldl (fun s x => csWrite s (0x38040 + x.2) x.1) s) a =
      if 0x38040 + i ≤ a ∧ a < 0x38040 + i + ws.length then ws.getD (a - (0x38040 + i)) 0 else csWord s a := by
  induction ws generalizing i s with
  | nil => rw [if_neg (by simp)]; rfl
  | cons w ws ih =>
    rw [List.zipIdx_cons, List.foldl_cons, ih, csWord_csWrite _ (by omega), List.length_cons]
    by_cases here : a = 0x38040 + i
    · rw [if_neg (by omega), if_pos here, if_pos (by omega), here, Nat.sub_self, List.getD_cons_zero]
    · rw [if_neg here]
      by_cases behind : 0x38040 + i < a
      · obtain ⟨d, rfl⟩ := Nat.exists_eq_add_of_lt behind
        have place : 0x38040 + i + d + 1 - (0x38040 + i) = d + 1 := by omega
        have next : 0x38040 + i + d + 1 - (0x38040 + (i + 1)) = d := by omega
        rw [place, next, List.getD_cons_succ]
        exact if_congr (by omega) rfl rfl
      · rw [if_neg (by omega), if_neg (by omega)]

theorem csWord_filter (s : State) {t : State} (h : t.trw.cs = s.trw.cs.filter fun e => e.1 < 0x38000) {a : Nat}
    (ha : a < 0x38000) : csWord t a = csWord s a := by
  unfold csWord
  have kept := tget_filter csFill s.trw.cs (fun i => decide (i < 0x38000)) a
  rw [if_pos (decide_eq_true ha)] at kept
  rw [h, kept]

/-- A filled Skim region: the words below it stay, then the bindings, then the code. -/
theorem csWord_skimFill (s : State) (sec : SkimSec) :
    (∀ a, a < 0x38000 → csWord (skimFill s sec) a = csWord s a) ∧
      (∀ k < 64, csWord (skimFill s sec) (0x38000 + k) = bindWord (sec.bind.getD k 0)) ∧
      (∀ k < sec.words.length, csWord (skimFill s sec) (0x38040 + k) = sec.words.getD k 0) := by
  unfold skimFill
  extract_lets emptied bound
  have code := csWord_code sec.words 0 bound
  have bindings := csWord_bindings (fun k => bindWord (sec.bind.getD k 0)) 64 emptied
  refine ⟨fun a ha => ?_, fun k hk => ?_, fun k hk => ?_⟩
  · refine (code a).trans ?_
    rw [if_neg (by omega)]
    refine (bindings a).trans ?_
    rw [if_neg (by omega)]
    exact csWord_filter s rfl ha
  · refine (code _).trans ?_
    rw [if_neg (by omega)]
    refine (bindings _).trans ?_
    rw [if_pos (by omega), Nat.add_sub_cancel_left]
  · refine (code _).trans ?_
    rw [if_pos (by omega), Nat.add_zero, Nat.add_sub_cancel_left]

theorem skimFill_unchanged (s : State) (sec : SkimSec) : Unchanged [.trw] s (skimFill s sec) := by
  unfold skimFill
  extract_lets emptied bound
  exact unchanged_trans (modTrw_unchanged s _) (unchanged_trans (unchanged_foldl (fun v k => csWrite_unchanged v _ _) _ _)
    (unchanged_foldl (fun v x => csWrite_unchanged v _ _) _ _))

/-! ## SKIM_INSTALL (R210, R211) -/

theorem skimJudge_lt (s : State) (len : Nat) (b : SkimBlob) : (skimJudge s len b).1 < 8 := by
  unfold skimJudge
  split
  · decide
  · split_ifs <;> decide

/-- The buffer is fetched and the outcome of its checks is shown. -/
def skimJudged (s : State) (c : Cmd) (b : SkimBlob) : State :=
  fset (hostGet s c.fid c.sqe.buf0 c.sqe.buf0Len) TRW_SKIM_STAT_REASON (skimJudge s c.sqe.buf0Len b).1

theorem skimJudged_shows (s : State) (c : Cmd) (b : SkimBlob) :
    fget (skimJudged s c b) TRW_SKIM_STAT_REASON = (skimJudge s c.sqe.buf0Len b).1 ∧
      RegsBut [TRW_SKIM_STAT_REASON.off] s (skimJudged s c b) ∧ Unchanged [.out, .regs] s (skimJudged s c b) := by
  have fetched := hostGet_unchanged s c.fid c.sqe.buf0 c.sqe.buf0Len
  refine ⟨(fget_fset_same _ _ _ (by decide)).trans (Nat.mod_eq_of_lt (skimJudge_lt s _ b)), ?_,
    unchanged_trans (unchanged_mono fetched (by decide)) (unchanged_mono (fset_unchanged _ _ _) (by decide))⟩
  exact regsBut_trans (fun k _ => rget_congr (fetched .regs (by decide)) k) (regsBut_fset _ _ (by decide))

section install

variable {s : State} {n : Nat} {c : Cmd}

theorem exec_skimInstall (h : adminCmd s n 0x50 = some c) (hidle : s.trw.install = none) (b : SkimBlob) :
    exec (.skimInstall n b) s = if (skimJudge s c.sqe.buf0Len b).1 ≠ 0
      then .next (setDone (skimJudged s c b) n (skimJudge s c.sqe.buf0Len b).2)
      else .next (fset (modTrw (skimJudged s c b) fun w => { w with install := some (n, b.sec) })
        TRW_STATUS_INSTALLING 1) := by
  have harm : exec (.skimInstall n b) s = execSkimInstall n b s := rfl
  rw [harm]
  simp [execSkimInstall, h, hidle, skimJudged]

/-- The region written, and the outcome of its read-back shown (R211 steps 3 to 6). -/
def skimInstalled (s : State) (sec : SkimSec) (good : Bool) : State :=
  let s := fset (modTrw (skimFill s sec) fun w => { w with install := none }) TRW_STATUS_INSTALLING 0
  if good then fbump (fset s TRW_STATUS_SKIM_ON 1) TRW_SKIM_STAT_INSTALLS
  else fset (fset s TRW_STATUS_SKIM_ON 0) TRW_SKIM_STAT_REASON 6

theorem exec_skimInstallDrained {sec : SkimSec} (h : s.trw.install = some (n, sec)) (hdrained : skimRunning s = false)
    (good : Bool) : exec (.skimInstallDrained good) s =
      .next (setDone (skimInstalled s sec good) n (if good then 0 else 0x0401)) := by
  have harm : exec (.skimInstallDrained good) s = execSkimInstallDrained good s := rfl
  rw [harm]
  cases good <;> simp [execSkimInstallDrained, h, hdrained, skimInstalled]

theorem skimInstalled_trw (s : State) (sec : SkimSec) (good : Bool) :
    (skimInstalled s sec good).trw = { (skimFill s sec).trw with install := none } := by
  cases good <;> rfl

theorem skimInstalled_shows (s : State) (sec : SkimSec) (good : Bool) :
    fget (skimInstalled s sec good) TRW_STATUS_INSTALLING = 0 ∧
      fget (skimInstalled s sec good) TRW_STATUS_SKIM_ON = b2n good ∧
      (good = false → fget (skimInstalled s sec good) TRW_SKIM_STAT_REASON = 6) ∧
      RegsBut [TRW_SKIM_STAT_REASON.off, TRW_STATUS_INSTALLING.off] s (skimInstalled s sec good) ∧
      Unchanged [.regs, .trw] s (skimInstalled s sec good) := by
  have filled := skimFill_unchanged s sec
  unfold skimInstalled
  extract_lets v
  have frame : Unchanged [.regs, .trw] s v := unchanged_trans (unchanged_mono filled (by decide)) (unchanged_trans
    (unchanged_mono (modTrw_unchanged _ _) (by decide)) (unchanged_mono (fset_unchanged _ _ _) (by decide)))
  have regs : RegsBut [TRW_SKIM_STAT_REASON.off, TRW_STATUS_INSTALLING.off] s v :=
    regsBut_trans (fun k _ => rget_congr (filled .regs (by decide)) k) (regsBut_fset _ _ (by decide))
  have ended : fget v TRW_STATUS_INSTALLING = 0 := fget_fset_same _ _ _ (by decide)
  have framed (f g : Fld) (x y : Nat) : Unchanged [.regs, .trw] s (fset (fset v f x) g y) :=
    unchanged_trans frame (unchanged_mono (unchanged_trans (fset_unchanged _ _ _) (fset_unchanged _ _ _)) (by decide))
  have inWords {f g : Fld} (x y : Nat) (hf : f.off ∈ [TRW_SKIM_STAT_REASON.off, TRW_STATUS_INSTALLING.off])
      (hg : g.off ∈ [TRW_SKIM_STAT_REASON.off, TRW_STATUS_INSTALLING.off]) :
      RegsBut [TRW_SKIM_STAT_REASON.off, TRW_STATUS_INSTALLING.off] s (fset (fset v f x) g y) :=
    regsBut_trans regs (regsBut_trans (regsBut_fset _ _ hf) (regsBut_fset _ _ hg))
  cases good with
  | true =>
    refine ⟨?_, ?_, by simp, inWords 1 _ (by decide) (by decide), framed _ _ _ _⟩
    · exact ((fget_fset_off _ _ _ _ (by decide)).trans (fget_fset_ne _ _ _ _ (by decide) (by decide))).trans ended
    · exact (fget_fset_off _ _ _ _ (by decide)).trans (fget_fset_same _ _ _ (by decide))
  | false =>
    refine ⟨?_, ?_, fun _ => fget_fset_same _ _ _ (by decide), inWords 0 6 (by decide) (by decide), framed _ _ _ _⟩
    · exact ((fget_fset_off _ _ _ _ (by decide)).trans (fget_fset_ne _ _ _ _ (by decide) (by decide))).trans ended
    · exact (fget_fset_off _ _ _ _ (by decide)).trans (fget_fset_same _ _ _ (by decide))

end install

/-! ## Daymark's areas over a fault report (R507) -/

section store

variable (s : State)

@[simp] theorem dmk_modKpr (f : Keeper → Keeper) : (modKpr s f).dmk = s.dmk := rfl

@[simp] theorem dmk_countSource (src : Nat) : (countSource s src).dmk = s.dmk := rfl

@[simp] theorem store_modDmk (f : Daymark → Daymark) : (modDmk s f).dmk.store = (f s.dmk).store := rfl

@[simp] theorem dmk_rset (k : Nat) (v : Word) : (rset s k v).dmk = s.dmk := rfl

@[simp] theorem dmk_fset (f : Fld) (x : Nat) : (fset s f x).dmk = s.dmk := rfl

@[simp] theorem dmk_grantStamp : (grantStamp s).2.dmk = s.dmk := grantStamp_unchanged s .dmk (by decide)

@[simp] theorem dmk_keeperCause (k : Nat) : (keeperCause s k).dmk = s.dmk := by
  unfold keeperCause
  dsimp only
  split
  · exact msixSend_unchanged _ _ _ .dmk (by decide)
  · rfl

@[simp] theorem dmk_closeRecord (rseq : Nat) : (closeRecord s rseq).dmk = s.dmk := by
  unfold closeRecord
  split
  · rfl
  · split <;> rfl

@[simp] theorem dmk_openEntry (src rseq : Nat) (cls : Cls) : (openEntry s src rseq cls).dmk = s.dmk := by
  cases cls with
  | corrected =>
    unfold openEntry
    dsimp only
    split
    · exact dmk_closeRecord s rseq
    · split
      · exact dmk_closeRecord s _
      · rfl
  | contained =>
    unfold openEntry
    dsimp only
    split
    · exact dmk_closeRecord s _
    · rfl
  | fatal => rfl

@[simp] theorem dmk_fogOnRecord (cls : Cls) : (fogOnRecord s cls).dmk = s.dmk := by
  cases cls with
  | corrected | fatal => rfl
  | contained =>
    unfold fogOnRecord
    dsimp only
    split <;> rfl

@[simp] theorem dmk_signalClass (src : Nat) (cls : Cls) : (signalClass s src cls).dmk = s.dmk := by
  cases cls with
  | corrected | fatal => exact dmk_keeperCause s _
  | contained =>
    refine (dmk_keeperCause _ 1).trans ?_
    split <;> rfl

@[simp] theorem store_dmkPush (code data : Nat) : (dmkPush s code data).dmk.store = s.dmk.store := by
  unfold dmkPush
  split <;> rfl

@[simp] theorem store_enterRecord (word3 data : Nat) (cause : Option Nat) :
    (enterRecord s word3 data cause).2.dmk.store = s.dmk.store := by
  unfold enterRecord
  dsimp -zeta -zetaHave only
  extract_lets rseq placed word w0 w1 w2 w3 w4 w5 w6 w7 listed counted
  have placed' : placed.dmk.store = s.dmk.store := by
    unfold placed
    split
    · rw [dmk_keeperCause, store_dmkPush, dmk_fset, dmk_grantStamp]
    · rw [dmk_grantStamp]
  exact placed'

@[simp] theorem store_fatalFault (src : Nat) (direct : Bool) : (fatalFault s src direct).dmk.store = s.dmk.store := by
  have decided : (safeDecide s src direct).dmk.store = s.dmk.store := by
    have entered : (setPhase s .safe src).dmk.store = s.dmk.store := store_dmkPush _ _ _
    refine (congrArg Daymark.store (dmk_keeperCause _ 2)).trans ((store_dmkPush _ _ _).trans ?_)
    exact entered
  unfold fatalFault
  split
  · rfl
  · split
    · exact decided
    · exact decided
    · exact decided
    · exact decided
    · exact decided
    · exact decided
    · rfl
    · rfl
    · rfl
    · rfl

@[simp] theorem store_reportRecord (r : Report) : (reportRecord s r).dmk.store = s.dmk.store := by
  unfold reportRecord
  dsimp -zeta -zetaHave only
  extract_lets from? conseq? cls region opens listed counted fenced opened fogged signalled escalated final
  have counted' : counted.dmk.store = s.dmk.store := by
    unfold counted listed
    rw [dmk_countSource, dmk_modKpr, store_enterRecord]
  have fenced' : fenced.dmk.store = s.dmk.store := by
    unfold fenced
    split
    · rw [dmk_modKpr, counted']
    · exact counted'
  have opened' : opened.dmk = fenced.dmk := by
    unfold opened
    split
    · exact dmk_openEntry _ _ _ _
    · split
      · exact dmk_closeRecord _ _
      · rfl
  have signalled' : signalled.dmk = opened.dmk := (dmk_signalClass _ _ _).trans (dmk_fogOnRecord _ _)
  have escalated' : escalated.dmk.store = signalled.dmk.store := by
    unfold escalated
    split
    · rw [dmk_keeperCause, store_dmkPush]
    · rfl
  have final' : final.dmk.store = s.dmk.store := by
    rw [← fenced', ← opened', ← signalled', ← escalated']
    unfold final
    split
    · exact store_dmkPush _ _ _
    · rfl
  split
  · rw [store_fatalFault, final']
  · exact final'

/-- A fault report leaves Daymark's areas as they are: its events only join the intake. -/
@[simp] theorem store_raise (src data : Nat) : (raise s src data).dmk.store = s.dmk.store := by
  unfold raise report
  split
  · rfl
  · dsimp only
    split
    · rfl
    · split
      · split
        · exact store_dmkPush _ _ _
        · rfl
      · exact store_reportRecord s _

@[simp] theorem store_dmkSend (code data : Nat) : (dmkSend s code data).dmk.store = s.dmk.store := by
  unfold dmkSend
  dsimp only
  split
  · exact store_dmkPush s code data
  · split
    · exact store_dmkPush s code data
    · exact (store_raise _ _ _).trans (store_dmkPush s code data)

end store

/-! ## Entries that recording an event adds (R506 to R509) -/

section record

variable (s : State)

@[simp] theorem store_newEntry (code data : Nat) (ovf : Bool) :
    (newEntry s code data ovf).2.dmk.store = s.dmk.store :=
  Eq.trans (b := (grantStamp s).2.dmk.store) rfl (congrArg Daymark.store (dmk_grantStamp s))

@[simp] theorem code_newEntry (code data : Nat) (ovf : Bool) : (newEntry s code data ovf).1.code = code := rfl

@[simp] theorem store_traceEntry (e : DmkEntry) : (traceEntry s e).dmk.store = s.dmk.store := by
  unfold traceEntry
  split
  · rfl
  · dsimp only
    split <;> rfl

variable {s}

theorem mem_store_placeCirc {e : DmkEntry} {x : Nat × DmkEntry} (h : x ∈ (placeCirc s e).dmk.store) :
    x ∈ s.dmk.store ∨ x.2 = e := (mem_tset h).imp_right fun here => congrArg Prod.snd here

theorem mem_store_placePerm {i : Nat} {e : DmkEntry} {x : Nat × DmkEntry} (h : x ∈ (placePerm s i e).dmk.store) :
    x ∈ s.dmk.store ∨ x.2 = e := (mem_tset h).imp_right fun here => congrArg Prod.snd here

/-- Recording an event adds an entry of its code, and one of code 0x0B43 only where the permanent area is full. -/
theorem mem_store_recordEntry {code data : Nat} {x : Nat × DmkEntry} (h : x ∈ (recordEntry s code data).dmk.store) :
    x ∈ s.dmk.store ∨ x.2.code = code ∨ (x.2.code = 0x0B43 ∧ permFree s = none) := by
  unfold recordEntry at h
  split at h
  · split at h
    case h_1 i _ =>
      rw [store_traceEntry] at h
      rcases mem_store_placePerm h with before | here
      · exact .inl (store_newEntry s _ _ _ ▸ before)
      · exact .inr (.inl (by rw [here, code_newEntry]))
    case h_2 full =>
      rw [store_traceEntry] at h
      rcases mem_store_placeCirc h with before | here
      · rw [store_newEntry] at before
        split at before
        · exact .inl before
        · rw [store_traceEntry] at before
          rcases mem_store_placeCirc before with before | here
          · have before : x ∈ (newEntry s 0x0B43 (code % 65536) false).2.dmk.store := before
            exact .inl (store_newEntry s _ _ _ ▸ before)
          · exact .inr (.inr ⟨by rw [here, code_newEntry], full⟩)
      · exact .inr (.inl (by rw [here, code_newEntry]))
  · rw [store_traceEntry] at h
    rcases mem_store_placeCirc h with before | here
    · exact .inl (store_newEntry s _ _ _ ▸ before)
    · exact .inr (.inl (by rw [here, code_newEntry]))

end record

/-- R510: an event that is never rate-limited is recorded. -/
theorem grantEvent_unlimited (s : State) {code : Nat} (data : Nat) (h : neverLimited code = true) :
    grantEvent s code data = recordEntry (setBucket s code ((getBucket s code).refill s.tb.ns)) code data := by
  unfold grantEvent
  exact if_pos h

/-! ## Work of Daymark leaves the commands and the nonce -/

/-- From `s` to `t` no command in flight and no register word from the nonce on has changed. -/
structure DmkWork (s t : State) : Prop where
  cmds : t.cmds = s.cmds
  regs : ∀ k, DMK_NONCE_NONCE.off ≤ k → rget t k = rget s k

namespace DmkWork

variable {s t : State}

theorem refl (s : State) : DmkWork s s := ⟨rfl, fun _ _ => rfl⟩

theorem after_dmk (h : DmkWork s t) (d : Daymark) : DmkWork s { t with dmk := d } := ⟨h.cmds, h.regs⟩

theorem after_emit (h : DmkWork s t) (o : Out) : DmkWork s (emit t o) := ⟨h.cmds, h.regs⟩

theorem after_nv (h : DmkWork s t) (nv : NonVolatile) : DmkWork s { t with nv := nv } := ⟨h.cmds, h.regs⟩

theorem after_fset (h : DmkWork s t) {f : Fld} (hf : f.off < DMK_NONCE_NONCE.off) (x : Nat) : DmkWork s (fset t f x) :=
  ⟨h.cmds, fun k hk => (rget_fset t f x k (by omega)).trans (h.regs k hk)⟩

theorem after_ite {c : Prop} [Decidable c] {a b : State} (ha : DmkWork s a) (hb : DmkWork s b) :
    DmkWork s (if c then a else b) := by
  split <;> assumption

theorem after_report (h : DmkWork s t) {u : State} (told : ReportFrame t u) : DmkWork s u := by
  refine ⟨(told.parts .cmds (by decide)).trans h.cmds, fun k hk => (told.regs k ?_).trans (h.regs k hk)⟩
  simp only [ReportKey, DMK_LOSS_OVERFLOW, DMK_NONCE_NONCE] at hk ⊢
  omega

theorem after_newEntry (h : DmkWork s t) (code data : Nat) (ovf : Bool) : DmkWork s (newEntry t code data ovf).2 := by
  have stamped : DmkWork s (grantStamp t).2 := by
    have tb := grantStamp_unchanged t
    exact ⟨(tb .cmds (by decide)).trans h.cmds, fun k hk => (rget_congr (tb .regs (by decide)) k).trans (h.regs k hk)⟩
  exact (stamped.after_dmk _).after_dmk _

theorem after_traceEntry (h : DmkWork s t) (e : DmkEntry) : DmkWork s (traceEntry t e) :=
  after_ite (h.after_dmk _) (after_ite (h.after_dmk _) ((h.after_dmk _).after_emit _))

theorem after_placePerm (h : DmkWork s t) (i : Nat) (e : DmkEntry) : DmkWork s (placePerm t i e) :=
  ((h.after_dmk _).after_fset (f := DMK_STATUS_PERM_USED) (by decide) _).after_fset (f := DMK_STATUS_PERM_FULL) (by decide) _

theorem after_placeCirc (h : DmkWork s t) (e : DmkEntry) : DmkWork s (placeCirc t e) :=
  ((((h.after_dmk _).after_fset (f := DMK_NEWEST_SLOT) (by decide) _).after_fset (f := DMK_NEWEST_EMPTY) (by decide)
    _).after_fset (f := DMK_OLDEST_SLOT) (by decide) _).after_fset (f := DMK_OLDEST_EMPTY) (by decide) _

theorem after_recordEntry (h : DmkWork s t) (code data : Nat) : DmkWork s (recordEntry t code data) := by
  unfold recordEntry
  split
  · split
    · exact ((h.after_newEntry code data false).after_placePerm _ _).after_traceEntry _
    · refine (after_placeCirc (after_newEntry ?_ code data true) _).after_traceEntry _
      split
      · exact h
      · exact (((h.after_newEntry 0x0B43 (code % 65536) false).after_dmk _).after_placeCirc _).after_traceEntry _
  · exact ((h.after_newEntry code data false).after_placeCirc _).after_traceEntry _

theorem after_clearAreas (h : DmkWork s t) (scope : Nat) : DmkWork s (clearAreas t scope) := by
  unfold clearAreas
  extract_lets circ perm emptied shown
  have emptied' : DmkWork s emptied := h.after_dmk _
  have shown' : DmkWork s shown := after_ite ((emptied'.after_fset (f := DMK_STATUS_PERM_USED) (by decide) _).after_fset
    (f := DMK_STATUS_PERM_FULL) (by decide) _) emptied'
  exact after_ite ((((shown'.after_fset (f := DMK_NEWEST_SLOT) (by decide) _).after_fset (f := DMK_NEWEST_EMPTY)
    (by decide) _).after_fset (f := DMK_OLDEST_SLOT) (by decide) _).after_fset (f := DMK_OLDEST_EMPTY) (by decide) _) shown'

theorem after_persistStore (h : DmkWork s t) (n : Nat) : DmkWork s (persistStore t n) := by
  unfold persistStore
  extract_lets block kept nv stored shown
  have stored' : DmkWork s stored := h.after_nv _
  refine after_dmk (t := shown) ?_ _
  unfold shown
  split
  · exact stored'.after_fset (f := DMK_PERSIST_ESEQ) (by decide) _
  · exact stored'

theorem after_persistFailed (h : DmkWork s t) : DmkWork s (persistFailed t) := by
  have shown : DmkWork s (fset t DMK_STATUS_PERSIST_ERR 1) := h.after_fset (by decide) 1
  exact shown.after_report (((ReportFrame.refl (fset t DMK_STATUS_PERSIST_ERR 1)).after_dmkSend 0x0B41
    ((circLast t t.dmk.unpersist).headD {}).eseq).after_raise 0xB02 ((circLast t t.dmk.unpersist).headD {}).eseq)

end DmkWork

/-! ## DAYMARK_CLEAR (R515, R516) -/

/-- One word of the nonce drawn. -/
def nonceDrawn (s : State) (i : Nat) : State :=
  rset { s with freeCtr := s.freeCtr + 1 } (DMK_NONCE_NONCE.off + 4 * i) (BitVec.ofNat 32 (Config.entropy s.freeCtr))

theorem drawNonce_eq (s : State) : drawNonce s = nonceDrawn (nonceDrawn (nonceDrawn (nonceDrawn s 0) 1) 2) 3 :=
  calc drawNonce s
    _ = (List.range 4).foldl nonceDrawn s := rfl
    _ = [0, 1, 2, 3].foldl nonceDrawn s := congrArg (List.foldl nonceDrawn s) (by decide)

theorem rget_nonceDrawn (s : State) (i k : Nat) : rget (nonceDrawn s i) k =
    if k = DMK_NONCE_NONCE.off + 4 * i then BitVec.ofNat 32 (Config.entropy s.freeCtr) else rget s k := rget_rset _ _ _ _

theorem nonceDrawn_unchanged (s : State) (i : Nat) : Unchanged [.regs, .freeCtr] s (nonceDrawn s i) :=
  unchanged_trans (unchanged_mono (setFreeCtr_unchanged s _) (by decide)) (unchanged_mono (rset_unchanged _ _ _) (by decide))

/-- A new nonce: its first word is the next open value, and no other word than its four has changed. -/
theorem drawNonce_draws (s : State) :
    rget (drawNonce s) DMK_NONCE_NONCE.off = BitVec.ofNat 32 (Config.entropy s.freeCtr) ∧
      RegsBut [DMK_NONCE_NONCE.off, DMK_NONCE_NONCE.off + 4, DMK_NONCE_NONCE.off + 8, DMK_NONCE_NONCE.off + 12] s
        (drawNonce s) ∧
      Unchanged [.regs, .freeCtr] s (drawNonce s) := by
  rw [drawNonce_eq]
  refine ⟨?_, fun k hk => ?_, unchanged_trans (unchanged_trans (nonceDrawn_unchanged s 0) (nonceDrawn_unchanged _ 1))
    (unchanged_trans (nonceDrawn_unchanged _ 2) (nonceDrawn_unchanged _ 3))⟩
  · rw [rget_nonceDrawn, if_neg (by decide), rget_nonceDrawn, if_neg (by decide), rget_nonceDrawn, if_neg (by decide),
      rget_nonceDrawn, if_pos (by rfl)]
  · simp only [List.mem_cons, List.not_mem_nil, or_false, not_or] at hk
    obtain ⟨h0, h1, h2, h3⟩ := hk
    rw [rget_nonceDrawn, if_neg h3, rget_nonceDrawn, if_neg h2, rget_nonceDrawn, if_neg h1, rget_nonceDrawn]
    exact if_neg h0

/-- The request fetched and a new nonce drawn. -/
def clearDrawn (s : State) (c : Cmd) : State := drawNonce (hostGet s c.fid c.sqe.buf0 c.sqe.buf0Len)

theorem clearDrawn_draws (s : State) (c : Cmd) :
    rget (clearDrawn s c) DMK_NONCE_NONCE.off = BitVec.ofNat 32 (Config.entropy s.freeCtr) ∧
      RegsBut [DMK_NONCE_NONCE.off, DMK_NONCE_NONCE.off + 4, DMK_NONCE_NONCE.off + 8, DMK_NONCE_NONCE.off + 12] s
        (clearDrawn s c) ∧
      Unchanged [.out, .regs, .freeCtr] s (clearDrawn s c) := by
  have fetched := hostGet_unchanged s c.fid c.sqe.buf0 c.sqe.buf0Len
  obtain ⟨first, words, frame⟩ := drawNonce_draws (hostGet s c.fid c.sqe.buf0 c.sqe.buf0Len)
  refine ⟨?_, regsBut_trans (fun k _ => rget_congr (fetched .regs (by decide)) k) words,
    unchanged_trans (unchanged_mono fetched (by decide)) (unchanged_mono frame (by decide))⟩
  rw [clearDrawn, first, fetched .freeCtr (by decide)]

/-- The areas of the scope emptied and the clear recorded. -/
def areasCleared (s : State) (c : Cmd) (r : ClearReq) : State := grantEvent (clearAreas (clearDrawn s c) r.scope) 0x0B40 0

/-- The persist that follows a clear. -/
def clearPersisted (s : State) (ok : Bool) : State := if ok then persistStore s s.dmk.unpersist else persistFailed s

theorem exec_daymarkClear {s : State} {n : Nat} {c : Cmd} (h : adminCmd s n 0x5C = some c) (r : ClearReq) (ok : Bool) :
    exec (.daymarkClear n r ok) s = .next (if clearStatus s c.sqe.buf0Len r ≠ 0
      then setDone (clearDrawn s c) n (clearStatus s c.sqe.buf0Len r)
      else setDone (clearPersisted (areasCleared s c r) ok) n (if ok then 0 else 0x0202)) := by
  have harm : exec (.daymarkClear n r ok) s = execDaymarkClear n r ok s := rfl
  rw [harm]
  unfold execDaymarkClear
  rw [h]
  dsimp only
  by_cases hst : clearStatus s c.sqe.buf0Len r ≠ 0
  · rw [if_pos hst, if_pos hst]
    rfl
  · rw [if_neg hst, if_neg hst]
    cases ok <;> rfl

/-- What stays in the areas is outside the scope. -/
theorem mem_store_clearAreas {s : State} {scope : Nat} {x : Nat × DmkEntry} (h : x ∈ (clearAreas s scope).dmk.store) :
    (scope / 2 = 1 → 512 ≤ x.1) ∧ (scope % 2 = 1 → x.1 < 512) := by
  have kept : (clearAreas s scope).dmk.store =
      s.dmk.store.filter fun e => !((scope / 2 == 1 && e.1 < 512) || (scope % 2 == 1 && 512 ≤ e.1)) := by
    unfold clearAreas
    extract_lets circ perm emptied shown
    have shown' : shown.dmk = emptied.dmk := by
      unfold shown
      split <;> rfl
    split
    · exact congrArg Daymark.store shown'
    · exact congrArg Daymark.store shown'
  rw [kept] at h
  have outside := List.of_mem_filter h
  simp only [Bool.not_eq_true', Bool.or_eq_false_iff, Bool.and_eq_false_iff, beq_eq_false_iff_ne, ne_eq,
    decide_eq_false_iff_not] at outside
  omega

/-- A permanent area without entries has room. -/
theorem permFree_of_empty {s : State} (h : ∀ x ∈ s.dmk.store, 512 ≤ x.1) : permFree s ≠ none := by
  have first : dmkSlot s 0 = {} := by
    by_contra filled
    have listed := mem_of_tget_ne filled
    exact absurd (h _ listed) (Nat.not_le.mpr (Nat.succ_pos 511))
  intro full
  have taken := List.find?_eq_none.mp full 0 (List.mem_range.mpr (Nat.succ_pos 511))
  rw [first] at taken
  exact taken rfl

/-- The clear leaves its own event in the areas it empties, and what that event's recording adds. -/
theorem mem_store_areasCleared {s : State} {c : Cmd} {r : ClearReq} {x : Nat × DmkEntry}
    (h : x ∈ (areasCleared s c r).dmk.store) :
    (r.scope / 2 = 1 → x.1 < 512 → x.2.code = 0x0B40) ∧
      (r.scope % 2 = 1 → 512 ≤ x.1 → x.2.code = 0x0B40 ∨ x.2.code = 0x0B43) := by
  rw [areasCleared, grantEvent_unlimited _ _ (by decide)] at h
  rcases mem_store_recordEntry h with before | own | ⟨overflow, full⟩
  · obtain ⟨perm, circ⟩ := mem_store_clearAreas before
    exact ⟨fun hs hx => absurd (perm hs) (Nat.not_le.mpr hx), fun hs hx => absurd (circ hs) (Nat.not_lt.mpr hx)⟩
  · exact ⟨fun _ _ => own, fun _ _ => .inl own⟩
  · exact ⟨fun hs => absurd full (permFree_of_empty fun y hy => (mem_store_clearAreas hy).1 hs), fun _ _ => .inr overflow⟩

theorem store_persistStore (s : State) (n : Nat) : (persistStore s n).dmk.store = s.dmk.store := by
  unfold persistStore
  extract_lets block kept nv stored shown
  have shown' : shown.dmk.store = s.dmk.store := by
    unfold shown
    split <;> rfl
  exact shown'

theorem store_clearPersisted (s : State) (ok : Bool) : (clearPersisted s ok).dmk.store = s.dmk.store := by
  cases ok with
  | true => exact store_persistStore s _
  | false =>
    have made : clearPersisted s false = persistFailed s := if_neg Bool.false_ne_true
    rw [made]
    unfold persistFailed
    rw [store_raise, store_dmkSend, dmk_fset]

theorem clearPersisted_work (s : State) (c : Cmd) (r : ClearReq) (ok : Bool) :
    DmkWork (clearDrawn s c) (clearPersisted (areasCleared s c r) ok) := by
  have cleared : DmkWork (clearDrawn s c) (areasCleared s c r) := by
    rw [areasCleared, grantEvent_unlimited _ _ (by decide)]
    exact (((DmkWork.refl _).after_clearAreas r.scope).after_dmk _).after_recordEntry 0x0B40 0
  cases ok with
  | true => exact cleared.after_persistStore _
  | false => exact cleared.after_persistFailed

/-! ## The statement on the Skim region and Daymark's areas -/

/-- Settles O30: SKIM_INSTALL by its checks and its drained step by the read-back, DAYMARK_CLEAR by its checks. -/
theorem skimInstallAndDaymarkClear : Obligations.SkimInstallAndDaymarkClear := by
  unfold Obligations.SkimInstallAndDaymarkClear
  refine ⟨fun s n c b h hidle hfail => ?_, fun s n c b h hidle hpass => ?_, fun s n c sec good h hdrained hcmd hgoes => ?_,
    fun s n c r ok h hfail => ?_, fun s n c r ok h hpass => ?_⟩
  · obtain ⟨shown, regs, frame⟩ := skimJudged_shows s c b
    have ends := setDone_unchanged (skimJudged s c b) n (skimJudge s c.sqe.buf0Len b).2 none
    have kept := rget_congr (ends .regs (by decide))
    exact ⟨_, (exec_skimInstall h hidle b).trans (if_pos hfail), (fget_congr (kept _)).trans shown,
      adminCmd_ends h (frame .cmds (by decide)) _, fun k hk => (kept k).trans (regs k hk),
      unchanged_trans (unchanged_mono frame (by decide)) (unchanged_mono ends (by decide))⟩
  · obtain ⟨shown, regs, frame⟩ := skimJudged_shows s c b
    refine ⟨_, (exec_skimInstall h hidle b).trans (if_neg (by simp [hpass])), ?_, fget_fset_same _ _ _ (by decide), rfl,
      ?_, unchanged_trans (unchanged_mono frame (by decide)) (unchanged_trans
        (unchanged_mono (modTrw_unchanged _ _) (by decide)) (unchanged_mono (fset_unchanged _ _ _) (by decide)))⟩
    · rw [fget_fset_off _ _ _ _ (by decide)]
      exact shown.trans hpass
    · have regs' : RegsBut [TRW_SKIM_STAT_REASON.off, TRW_STATUS_INSTALLING.off] s
          (modTrw (skimJudged s c b) fun w => { w with install := some (n, b.sec) }) :=
        fun k hk => regs k fun e => hk (List.mem_cons.mpr (.inl (List.mem_singleton.mp e)))
      exact regsBut_trans regs' (regsBut_fset _ _ (by decide))
  · obtain ⟨ended, shown, reason, regs, frame⟩ := skimInstalled_shows s sec good
    obtain ⟨below, bindings, code⟩ := csWord_skimFill s sec
    have ends := setDone_unchanged (skimInstalled s sec good) n (if good then 0 else 0x0401) none
    have kept := rget_congr (ends .regs (by decide))
    have trw := (ends .trw (by decide)).trans (skimInstalled_trw s sec good)
    have words := csWord_congr (s := skimFill s sec)
      (t := setDone (skimInstalled s sec good) n (if good then 0 else 0x0401)) (by rw [trw])
    refine ⟨_, exec_skimInstallDrained h hdrained good, congrArg Trowel.install trw, (fget_congr (kept _)).trans ended,
      (fget_congr (kept _)).trans shown, (setDone_ends (frame .cmds (by decide)) hcmd hgoes _ none).1,
      fun hbad => (fget_congr (kept _)).trans (reason hbad), fun a ha => (words a).trans (below a ha),
      fun k hk => (words _).trans (bindings k hk), fun k hk => (words _).trans (code k hk),
      fun k hk => (kept k).trans (regs k hk),
      unchanged_trans (unchanged_mono frame (by decide)) (unchanged_mono ends (by decide))⟩
  · obtain ⟨first, regs, frame⟩ := clearDrawn_draws s c
    have ends := setDone_unchanged (clearDrawn s c) n (clearStatus s c.sqe.buf0Len r) none
    have kept := rget_congr (ends .regs (by decide))
    exact ⟨_, (exec_daymarkClear h r ok).trans (congrArg _ (if_pos hfail)),
      (ends .dmk (by decide)).trans (frame .dmk (by decide)), adminCmd_ends h (frame .cmds (by decide)) _,
      (kept _).trans first, fun k hk => (kept k).trans (regs k hk),
      unchanged_trans (unchanged_mono frame (by decide)) (unchanged_mono ends (by decide))⟩
  · obtain ⟨first, -, frame⟩ := clearDrawn_draws s c
    have work := clearPersisted_work s c r ok
    have ends := setDone_unchanged (clearPersisted (areasCleared s c r) ok) n (if ok then 0 else 0x0202) none
    have cmds := work.cmds.trans (frame .cmds (by decide))
    obtain ⟨hcmd, hgoes, -⟩ := adminCmd_inFlight h
    have store : (setDone (clearPersisted (areasCleared s c r) ok) n (if ok then 0 else 0x0202)).dmk.store =
        (areasCleared s c r).dmk.store :=
      (congrArg Daymark.store (ends .dmk (by decide))).trans (store_clearPersisted _ ok)
    refine ⟨_, _, (exec_daymarkClear h r ok).trans (congrArg _ (if_neg (by simp [hpass]))), adminCmd_ends h cmds _, rfl,
      fun hs e he hlow => ?_, fun hs e he hhigh => ?_, ?_, (setDone_ends cmds hcmd hgoes _ none).2⟩
    · exact (mem_store_areasCleared (store ▸ he)).1 hs hlow
    · exact (mem_store_areasCleared (store ▸ he)).2 hs hhigh
    · rw [rget_congr (ends .regs (by decide)), work.regs _ (Nat.le_refl _), first]

end Sys2Proof.Laws
end

section
/-!
PROOFS. The statement of 07_trowel_tiles.md on aborts, watchdogs, failing tiles, scrubbing, the control-store window and the
snoop filter (R194, R198, R199, R213 to R215, R219, R222 to R224). The lemmas in front of it serve every later proof about
tiles: what the retirement of a unit changes, and what a failed tile leaves of its contexts, its commands and its number.
-/

namespace Sys2Proof.Laws

open Sys2Proof.Machine

/-! ## Aborts and watchdogs (R213 to R215) -/

section abort

variable {s : State} {t c : Nat} (hbusy : (getCtx s (ctxKey t c)).busy = true)

include hbusy

theorem exec_flowAbort (undef : Bool) : exec (.flowAbort t c undef) s =
    .next (if undef then flowFault s t c 1 else abortFlow s (ctxKey t c)) := by
  have harm : exec (.flowAbort t c undef) s = execFlowAbort t c undef s := rfl
  rw [harm]
  cases undef <;> simp [execFlowAbort, hbusy]

theorem exec_contextWatchdog_expired (hlimit : fget s TRW_WDOG_LIMIT * 1024 ≤ (getCtx s (ctxKey t c)).count) :
    exec (.contextWatchdog t c) s = .next (flowFault s t c 6) := by
  have harm : exec (.contextWatchdog t c) s = execContextWatchdog t c s := rfl
  rw [harm]
  simp [execContextWatchdog, hbusy, hlimit]

end abort

theorem exec_contextWatchdog_running {s : State} {t c : Nat}
    (hlimit : (getCtx s (ctxKey t c)).count < fget s TRW_WDOG_LIMIT * 1024) :
    exec (.contextWatchdog t c) s = .next s := by
  have harm : exec (.contextWatchdog t c) s = execContextWatchdog t c s := rfl
  rw [harm]
  simp [execContextWatchdog, Nat.not_le.mpr hlimit]

/-! ## Retired tiles and logical numbers (R86, R194) -/

theorem isRetired_congr {s t : State} (h : t.pwr = s.pwr) (u : UnitId) : isRetired t u = isRetired s u := by
  rw [isRetired, isRetired, h]

/-- A retired unit is listed, and every other one is listed as before; its domain's register is all that changes beside. -/
theorem isRetired_retireUnit (s : State) (u v : UnitId) :
    isRetired (retireUnit s u) v = (decide (v = u) || isRetired s v) := by
  have listed : (retireUnit s u).pwr.retired =
      if s.pwr.retired.contains u then s.pwr.retired else s.pwr.retired ++ [u] := by
    unfold retireUnit
    cases u.domain <;> rfl
  rw [isRetired, listed, isRetired]
  by_cases hv : v = u
  · subst hv
    split
    · simp_all
    · simp
  · split <;> simp [hv]

theorem retireUnit_unchanged (s : State) (u : UnitId) : Unchanged [.pwr, .regs] s (retireUnit s u) := by
  have listed (f : Power → Power) : Unchanged [.pwr, .regs] s (modPwr s f) :=
    unchanged_mono (modPwr_unchanged s f) (by decide)
  unfold retireUnit
  dsimp only
  split
  · exact unchanged_trans (listed _) (unchanged_mono (fsetBit_unchanged _ _ _ _) (by decide))
  · exact listed _

theorem rget_retireUnit (s : State) (u : UnitId) {k : Nat} (hk : k < PWR_PD_ON_ON.off) :
    rget (retireUnit s u) k = rget s k := by
  unfold retireUnit
  dsimp only
  split
  case h_1 d _ =>
    have apart : k ≠ (PWR_PD_ON_ON.ix (d / 32) 4).off := Nat.ne_of_lt (Nat.lt_of_lt_of_le hk (Nat.le_add_right _ _))
    exact rget_fsetBit _ _ _ _ apart
  case h_2 => rfl

theorem tileRetired_congr {s t : State} (h : ∀ k ∈ [TRW_RETIRED0_RETIRED.off, TRW_RETIRED1_RETIRED.off], rget t k = rget s k)
    (q : Nat) : tileRetired t q = tileRetired s q := by
  unfold tileRetired
  split
  · exact fbit_congr _ (fget_congr (h _ (by decide)))
  · exact fbit_congr _ (fget_congr (h _ (by decide)))

/-- A tile marked as retired reads so, and every other tile reads as before. -/
theorem tileRetired_setTileRetired (s : State) {p q : Nat} (hp : p < 34) (hq : q < 34) :
    tileRetired (setTileRetired s p) q = (decide (q = p) || tileRetired s q) := by
  have width0 : TRW_RETIRED0_RETIRED.w = 32 := rfl
  have width1 : TRW_RETIRED1_RETIRED.w = 32 := rfl
  unfold tileRetired setTileRetired
  by_cases hp32 : p < 32 <;> by_cases hq32 : q < 32
  · rw [if_pos hp32, if_pos hq32, if_pos hq32, fbit_fsetBit s _ _ (by decide) hp32 hq32]
    by_cases hqp : q = p <;> simp [hqp]
  · have hqp : q ≠ p := by omega
    rw [if_pos hp32, if_neg hq32, if_neg hq32, fbit_congr _ (fget_congr (rget_fsetBit s _ _ _ (by decide)))]
    simp [hqp]
  · have hqp : q ≠ p := by omega
    rw [if_neg hp32, if_pos hq32, if_pos hq32, fbit_congr _ (fget_congr (rget_fsetBit s _ _ _ (by decide)))]
    simp [hqp]
  · have place : q - 32 = p - 32 ↔ q = p := by omega
    rw [if_neg hp32, if_neg hq32, if_neg hq32, fbit_fsetBit s _ _ (by decide) (by omega) (by omega), if_congr place rfl rfl]
    by_cases hqp : q = p <;> simp [hqp]

theorem setTileRetired_unchanged (s : State) (p : Nat) : Unchanged [.regs] s (setTileRetired s p) := by
  unfold setTileRetired
  split
  · exact fsetBit_unchanged s _ _ _
  · exact fsetBit_unchanged s _ _ _

theorem rget_setTileRetired (s : State) (p : Nat) {k : Nat}
    (hk : k ∉ [TRW_RETIRED0_RETIRED.off, TRW_RETIRED1_RETIRED.off]) : rget (setTileRetired s p) k = rget s k := by
  simp only [List.mem_cons, List.not_mem_nil, or_false, not_or] at hk
  unfold setTileRetired
  split
  · exact rget_fsetBit s _ _ _ hk.1
  · exact rget_fsetBit s _ _ _ hk.2

/-- Which tile has a number depends on the numbers' words alone. -/
theorem logicalOf_congr {s u : State} (h : ∀ t < 32, physOf u t = physOf s t) (p : Nat) : logicalOf u p = logicalOf s p := by
  unfold logicalOf
  refine List.find?_congr fun t ht => ?_
  rw [h t (List.mem_range.mp ht)]

theorem logicalOf_lt {s : State} {p t : Nat} (h : logicalOf s p = some t) : t < 32 :=
  List.mem_range.mp (List.mem_of_find?_eq_some h)

/-! ## A tile that fails (R222, R223) -/

/-- The failed tile reported, marked and retired; its number is still with it. -/
def tileOut (s : State) (p : Nat) : State := retireUnit (setTileRetired (raise s (0x180 + p)) p) (.tile p)

theorem tileOut_unchanged (s : State) (p : Nat) : Unchanged (.pwr :: reportParts) s (tileOut s p) :=
  unchanged_trans (unchanged_mono ((ReportFrame.refl s).after_raise (0x180 + p) 0).parts (by decide))
    (unchanged_trans (unchanged_mono (setTileRetired_unchanged _ p) (by decide))
      (unchanged_mono (retireUnit_unchanged _ _) (by decide)))

theorem physOf_tileOut (s : State) (p : Nat) {t : Nat} (ht : t < 32) : physOf (tileOut s p) t = physOf s t := by
  have place : (tileMapF t).off = 0x600010 + 4 * (t / 4) := rfl
  have pwr : PWR_PD_ON_ON.off = 0x1601040 := rfl
  have told := (ReportFrame.refl s).after_raise (0x180 + p) 0
  refine fget_congr ?_
  rw [tileOut, rget_retireUnit _ _ (by rw [place, pwr]; omega), rget_setTileRetired,
    told.regs _ (not_reportKey_below (by omega))]
  simp only [place, TRW_RETIRED0_RETIRED, TRW_RETIRED1_RETIRED, List.mem_cons, List.not_mem_nil, or_false, not_or]
  omega

theorem tileRetired_tileOut (s : State) {p q : Nat} (hp : p < 34) (hq : q < 34) :
    tileRetired (tileOut s p) q = (decide (q = p) || tileRetired s q) := by
  have told := (ReportFrame.refl s).after_raise (0x180 + p) 0
  have retired (k : Nat) (hk : k ∈ [TRW_RETIRED0_RETIRED.off, TRW_RETIRED1_RETIRED.off]) : k < 0x600010 := by
    fin_cases hk <;> decide
  rw [tileOut, tileRetired_congr (fun k hk => rget_retireUnit _ _ ((retired k hk).trans (by decide))),
    tileRetired_setTileRetired _ hp hq,
    tileRetired_congr (fun k hk => told.regs k (not_reportKey_below ((retired k hk).trans (by decide))))]

theorem isRetired_tileOut (s : State) (p : Nat) (u : UnitId) :
    isRetired (tileOut s p) u = (decide (u = .tile p) || isRetired s u) := by
  have told := (ReportFrame.refl s).after_raise (0x180 + p) 0
  rw [tileOut, isRetired_retireUnit, isRetired_congr (setTileRetired_unchanged _ p .pwr (by decide)),
    isRetired_congr (told.parts .pwr (by decide))]

theorem logicalOf_tileOut (s : State) (p q : Nat) : logicalOf (tileOut s p) q = logicalOf s q :=
  logicalOf_congr (fun _ ht => physOf_tileOut s p ht) q

/-- The spares do not change as a tile with a number fails. -/
theorem spareTiles_tileOut {s : State} {p t : Nat} (hp : p < 34) (h : logicalOf s p = some t) :
    spareTiles (tileOut s p) = spareTiles s := by
  unfold spareTiles
  refine List.filter_congr fun q hq => ?_
  rw [tileRetired_tileOut s hp (List.mem_range.mp hq), logicalOf_tileOut, isRetired_tileOut]
  by_cases hqp : q = p
  · simp [hqp, h]
  · simp [hqp]

/-- Replay of one context: its command waits for dispatch again. -/
def replayCtx (t : Nat) (s : State) (c : Nat) : State :=
  match (getCtx s (ctxKey t c)).seq with
  | some seq =>
    match getCmd s seq with
    | some cmd => freeCtx (putCmd s seq { cmd with bound := none }) (ctxKey t c)
    | none => freeCtx s (ctxKey t c)
  | none => freeCtx s (ctxKey t c)

theorem replayTile_eq (s : State) (t : Nat) :
    replayTile s t = modTile ((List.range 8).foldl (replayCtx t) s) t fun _ => {} := rfl

theorem getCtx_replayCtx (t : Nat) (s : State) (c k : Nat) :
    getCtx (replayCtx t s c) k = if k = ctxKey t c then {} else getCtx s k := by
  unfold replayCtx
  split
  · split
    · exact getCtx_freeCtx _ _ _
    · exact getCtx_freeCtx _ _ _
  · exact getCtx_freeCtx _ _ _

theorem replayCtx_unchanged (t : Nat) (s : State) (c : Nat) : Unchanged [.trw, .cmds] s (replayCtx t s c) := by
  have freed (v : State) : Unchanged [.trw, .cmds] v (freeCtx v (ctxKey t c)) :=
    unchanged_mono (freeCtx_unchanged v _) (by decide)
  unfold replayCtx
  split
  · split
    · exact unchanged_trans (unchanged_mono (putCmd_unchanged s _ _) (by decide)) (freed _)
    · exact freed s
  · exact freed s

theorem replayTile_unchanged (s : State) (t : Nat) : Unchanged [.trw, .cmds] s (replayTile s t) :=
  unchanged_trans (unchanged_foldl (replayCtx_unchanged t) _ s) (unchanged_mono (modTile_unchanged _ t _) (by decide))

/-- A command stored under another number, whatever it is, leaves this one. -/
theorem getCmd_putCmd_other (s : State) {n m : Nat} (h : m ≠ n) (c : Cmd) : getCmd (putCmd s n c) m = getCmd s m := by
  by_cases hc : c = noCmd
  · subst hc
    exact (getCmd_dropCmd s n m).trans (if_neg h)
  · rw [getCmd_putCmd s n m hc, if_neg h]

/-- The command `d` as a failed tile leaves it: still in flight, bound to no context once `unbound`. -/
def Replayed (d : Cmd) (unbound : Prop) (o : Option Cmd) : Prop :=
  ∃ e, o = some e ∧ e.sqe = d.sqe ∧ e.q = d.q ∧ (unbound → e.bound = none)

theorem replayCtx_replays {s : State} {n t c : Nat} {d : Cmd} (hcmd : getCmd s n = some d) (hq : d.q ≠ 0) :
    Replayed d (d.bound = none ∨ (getCtx s (ctxKey t c)).seq = some n) (getCmd (replayCtx t s c) n) := by
  have freed (v : State) : getCmd (freeCtx v (ctxKey t c)) n = getCmd v n :=
    getCmd_congr (freeCtx_unchanged v _ .cmds (by decide)) n
  unfold replayCtx
  split
  case h_1 m hseq =>
    by_cases hmn : n = m
    · subst hmn
      have listed : { d with bound := none } ≠ noCmd := fun e => hq (congrArg Cmd.q e)
      rw [hcmd]
      exact ⟨_, (freed _).trans ((getCmd_putCmd s n n listed).trans (if_pos rfl)), rfl, rfl, fun _ => rfl⟩
    · have other : (getCtx s (ctxKey t c)).seq ≠ some n := fun e => hmn (Option.some.inj (e.symm.trans hseq))
      refine ⟨d, ?_, rfl, rfl, fun h => h.resolve_right (hseq ▸ other)⟩
      split
      · rw [freed, getCmd_putCmd_other s hmn, hcmd]
      · rw [freed, hcmd]
  case h_2 hseq => exact ⟨d, (freed s).trans hcmd, rfl, rfl, fun h => h.resolve_right (by simp [hseq])⟩

/-- Every command on one of the contexts waits for dispatch again. -/
theorem foldl_replayCtx_replays {n t : Nat} (cs : List Nat) {s : State} {d : Cmd} (hcmd : getCmd s n = some d)
    (hq : d.q ≠ 0) : Replayed d (d.bound = none ∨ ∃ c ∈ cs, (getCtx s (ctxKey t c)).seq = some n)
      (getCmd (cs.foldl (replayCtx t) s) n) := by
  induction cs generalizing s d with
  | nil => exact ⟨d, hcmd, rfl, rfl, fun h => h.resolve_right (by simp)⟩
  | cons c cs ih =>
    obtain ⟨e, here, esqe, eq, unbound⟩ := replayCtx_replays (t := t) (c := c) hcmd hq
    obtain ⟨f, last, fsqe, fq, free⟩ := ih here (eq ▸ hq)
    refine ⟨f, last, fsqe.trans esqe, fq.trans eq, fun h => free ?_⟩
    rcases h with h | ⟨b, hb, hseq⟩
    · exact .inl (unbound (.inl h))
    · by_cases hbc : ctxKey t b = ctxKey t c
      · exact .inl (unbound (.inr (hbc ▸ hseq)))
      · rcases List.mem_cons.mp hb with rfl | hb
        · exact absurd rfl hbc
        · exact .inr ⟨b, hb, by rw [getCtx_replayCtx, if_neg hbc, hseq]⟩

theorem foldl_replayCtx_free {t : Nat} (cs : List Nat) (s : State) {k : Nat}
    (h : (∃ c ∈ cs, k = ctxKey t c) ∨ (getCtx s k).busy = false) : (getCtx (cs.foldl (replayCtx t) s) k).busy = false := by
  induction cs generalizing s with
  | nil => exact h.resolve_left (by simp)
  | cons c cs ih =>
    refine ih (replayCtx t s c) ?_
    rw [getCtx_replayCtx]
    by_cases hk : k = ctxKey t c
    · exact .inr (by rw [if_pos hk])
    · rw [if_neg hk]
      refine h.imp_left ?_
      rintro ⟨b, hb, rfl⟩
      rcases List.mem_cons.mp hb with rfl | hb
      · exact absurd rfl hk
      · exact ⟨b, hb, rfl⟩

/-- The number of a failed tile goes to the lowest spare, or is withdrawn. -/
def renumbered (s : State) (t : Nat) : State :=
  match (spareTiles s).head? with
  | some sp => fset s (tileMapF t) sp
  | none => fset s (tileMapF t) 0x3F

theorem tileFails_spare {s : State} {p : Nat} (h : logicalOf s p = none) : tileFails s p = showTiles (tileOut s p) := by
  have made : tileFails s p = match logicalOf (tileOut s p) p with
    | none => showTiles (tileOut s p)
    | some t => minWatch (showTiles (renumbered (replayTile (tileOut s p) t) t)) := rfl
  rw [made, logicalOf_tileOut, h]

theorem tileFails_working {s : State} {p t : Nat} (h : logicalOf s p = some t) :
    tileFails s p = minWatch (showTiles (renumbered (replayTile (tileOut s p) t) t)) := by
  have made : tileFails s p = match logicalOf (tileOut s p) p with
    | none => showTiles (tileOut s p)
    | some t => minWatch (showTiles (renumbered (replayTile (tileOut s p) t) t)) := rfl
  rw [made, logicalOf_tileOut, h]

theorem showTiles_regsBut (s : State) : RegsBut [TRW_STATUS_WORKING.off] s (showTiles s) :=
  regsBut_trans (regsBut_fset s _ (by decide)) (regsBut_fset _ _ (by decide))

theorem showTiles_unchanged (s : State) : Unchanged [.regs] s (showTiles s) :=
  unchanged_trans (fset_unchanged s _ _) (fset_unchanged _ _ _)

theorem minWatch_frame (s : State) : ReportFrame s (minWatch s) :=
  .after_ite ((ReportFrame.refl s).after_raise _ _) (.refl s)

theorem renumbered_eq (s : State) (t : Nat) :
    renumbered s t = fset s (tileMapF t) ((spareTiles s).head?.getD 0x3F) := by
  unfold renumbered
  cases (spareTiles s).head? <;> rfl

/-- A failed tile with a number, seen from the state in which its contexts are replayed: parts and registers. -/
theorem tileFails_after {s : State} {p t : Nat} (h : logicalOf s p = some t) :
    Unchanged reportParts (replayTile (tileOut s p) t) (tileFails s p) ∧
      ∀ k < 0x1400000, k ≠ TRW_STATUS_WORKING.off → rget (tileFails s p) k =
        rget (renumbered (replayTile (tileOut s p) t) t) k := by
  rw [tileFails_working h, renumbered_eq]
  have watch := minWatch_frame (showTiles (fset (replayTile (tileOut s p) t) (tileMapF t)
    ((spareTiles (replayTile (tileOut s p) t)).head?.getD 0x3F)))
  have shown := showTiles_unchanged (fset (replayTile (tileOut s p) t) (tileMapF t)
    ((spareTiles (replayTile (tileOut s p) t)).head?.getD 0x3F))
  refine ⟨unchanged_trans (unchanged_mono (fset_unchanged _ _ _) (by decide))
    (unchanged_trans (unchanged_mono shown (by decide)) watch.parts), fun k hk hstatus => ?_⟩
  rw [watch.regs k (not_reportKey_below hk), showTiles_regsBut _ k (by simpa using hstatus)]

/-- A failed tile is retired, in its own register and in the list of retired units. -/
theorem tileFails_retires (s : State) {p : Nat} (hp : p < 34) :
    tileRetired (tileFails s p) p = true ∧ isRetired (tileFails s p) (.tile p) = true := by
  have marked : tileRetired (tileOut s p) p = true := by rw [tileRetired_tileOut s hp hp]; simp
  have listed : isRetired (tileOut s p) (.tile p) = true := by rw [isRetired_tileOut]; simp
  have words (k : Nat) (hk : k ∈ [TRW_RETIRED0_RETIRED.off, TRW_RETIRED1_RETIRED.off]) :
      k < 0x600010 ∧ k ≠ TRW_STATUS_WORKING.off := by
    fin_cases hk <;> decide
  cases h : logicalOf s p with
  | none =>
    rw [tileFails_spare h, isRetired_congr (showTiles_unchanged _ .pwr (by decide)), tileRetired_congr fun k hk =>
      showTiles_regsBut _ k (by simpa using (words k hk).2)]
    exact ⟨marked, listed⟩
  | some t =>
    obtain ⟨parts, regs⟩ := tileFails_after h
    have replay := replayTile_unchanged (tileOut s p) t
    refine ⟨(tileRetired_congr (fun k hk => ?_) p).trans marked, ?_⟩
    · obtain ⟨below, status⟩ := words k hk
      have apart : k ≠ (tileMapF t).off := Nat.ne_of_lt (Nat.lt_of_lt_of_le below (Nat.le_add_right _ _))
      rw [regs k (by omega) status, renumbered_eq, rget_fset _ _ _ _ apart, rget_congr (replay .regs (by decide))]
    · rw [isRetired_congr (parts .pwr (by decide)), isRetired_congr (replay .pwr (by decide)), listed]

theorem spareTiles_congr {s t : State} (hregs : t.regs = s.regs) (hpwr : t.pwr = s.pwr) : spareTiles t = spareTiles s := by
  have phys (u : Nat) : physOf t u = physOf s u := fget_congr (rget_congr hregs _)
  unfold spareTiles
  refine List.filter_congr fun q _ => ?_
  rw [tileRetired_congr fun k _ => rget_congr hregs k, logicalOf_congr fun u _ => phys u, isRetired_congr hpwr]

theorem spareTiles_lt {s : State} {p : Nat} (h : p ∈ spareTiles s) : p < 34 := List.mem_range.mp (List.mem_filter.mp h).1

/-- The lowest spare takes the number of a failed tile; without a spare the number is withdrawn. -/
theorem physOf_tileFails {s : State} {p t : Nat} (hp : p < 34) (h : logicalOf s p = some t) :
    physOf (tileFails s p) t = (spareTiles s).head?.getD 0x3F := by
  have ht := logicalOf_lt h
  have place : (tileMapF t).off = 0x600010 + 4 * (t / 4) := rfl
  have status : TRW_STATUS_WORKING.off = 0x600000 := rfl
  have replay := replayTile_unchanged (tileOut s p) t
  have fits : (tileMapF t).lo + (tileMapF t).w ≤ 32 := by
    simp only [tileMapF]
    omega
  have small : (spareTiles s).head?.getD 0x3F < 2 ^ 6 := by
    cases hs : (spareTiles s).head? with
    | none => decide
    | some sp => exact (spareTiles_lt (List.mem_of_head? hs)).trans (by decide)
  rw [physOf, fget_congr ((tileFails_after h).2 _ (by omega) (by omega)), renumbered_eq, fget_fset_same _ _ _ fits,
    spareTiles_congr (replay .regs (by decide)) (replay .pwr (by decide)), spareTiles_tileOut hp h]
  exact Nat.mod_eq_of_lt small

/-- What a failed tile with a number leaves of its contexts and their commands (R223). -/
theorem tileFails_replays {s : State} {p t : Nat} (h : logicalOf s p = some t) :
    (∀ c < 8, (getCtx (tileFails s p) (ctxKey t c)).busy = false) ∧
      ∀ c < 8, ∀ n d, (getCtx s (ctxKey t c)).seq = some n → getCmd s n = some d → d.q ≠ 0 →
        ∃ e, getCmd (tileFails s p) n = some e ∧ e.bound = none ∧ e.sqe = d.sqe := by
  obtain ⟨parts, -⟩ := tileFails_after h
  have out := tileOut_unchanged s p
  refine ⟨fun c hc => ?_, fun c hc n d hseq hcmd hq => ?_⟩
  · rw [getCtx_congr (parts .trw (by decide)), replayTile_eq, getCtx_modTile]
    exact foldl_replayCtx_free _ _ (.inl ⟨c, List.mem_range.mpr hc, rfl⟩)
  · rw [← getCtx_congr (out .trw (by decide))] at hseq
    rw [← getCmd_congr (out .cmds (by decide))] at hcmd
    obtain ⟨e, last, sqe, -, unbound⟩ := foldl_replayCtx_replays (t := t) (List.range 8) hcmd hq
    refine ⟨e, ?_, unbound (.inr ⟨c, List.mem_range.mpr hc, hseq⟩), sqe⟩
    rw [getCmd_congr (parts .cmds (by decide)), replayTile_eq,
      getCmd_congr (modTile_unchanged _ t _ .cmds (by decide)), last]

theorem exec_tileFail {s : State} {p : Nat} (hp : p < 34) (hin : tileRetired s p = false) :
    exec (.tileFail p) s = .next (tileFails s p) := by
  have harm : exec (.tileFail p) s = execTileFail p s := rfl
  rw [harm]
  simp [execTileFail, Nat.not_le.mpr hp, hin]

theorem exec_tileWatchdog {s : State} {t : Nat} (ht : t < 32) (hphys : physOf s t < 34)
    (hready : ∃ c < 8, ctxReady s (ctxKey t c) = true) : exec (.tileWatchdog t) s = .next (tileFails s (physOf s t)) := by
  have harm : exec (.tileWatchdog t) s = execTileWatchdog t s := rfl
  have numbered : physOf s t ≠ 0x3F := by omega
  have ready : (List.range 8).any (fun c => ctxReady s (ctxKey t c)) = true := by
    rw [List.any_eq_true]
    exact hready.imp fun c hc => ⟨List.mem_range.mpr hc.1, hc.2⟩
  rw [harm]
  rw [execTileWatchdog, ready]
  exact if_pos (by simp [ht, numbered])

theorem exec_spareSelftest {s : State} {p : Nat} (hspare : (spareTiles s).contains p = true) (pass : Bool) :
    exec (.spareSelftest p pass) s = .next (if pass then s else tileFails s p) := by
  have harm : exec (.spareSelftest p pass) s = execSpareSelftest p pass s := rfl
  rw [harm]
  rw [execSpareSelftest, hspare]
  cases pass <;> rfl

/-! ## Scrubbing and restoring (R198, R199) -/

/-- A saturating counter that is counted up by one. -/
theorem fget_fbump (s : State) (f : Fld) (hf : f.lo + f.w ≤ 32) : fget (fbump s f) f = min (fget s f + 1) (2 ^ f.w - 1) := by
  have pos : 0 < 2 ^ f.w := Nat.two_pow_pos _
  rw [fbump, fget_fset_same _ _ _ hf, Nat.mod_eq_of_lt (by omega)]

theorem exec_scrubRead_corrected {s : State} {a : Nat} (ha : a < 0x40000) (hram : 0x30000 ≤ a) (copy : Nat) :
    exec (.scrubRead a 1 copy) s =
      .next (modTrw (fbump s TRW_SCRUB_STAT_CORR) fun w => { w with csErr := tset 0 w.csErr a 0 }) := by
  have harm : exec (.scrubRead a 1 copy) s = execScrubRead a 1 copy s := rfl
  rw [harm]
  simp [execScrubRead, Nat.not_le.mpr ha, Nat.not_lt.mpr hram]

theorem exec_scrubRead_bad {s : State} {a : Nat} (ha : a < 0x40000) (hram : 0x30000 ≤ a) (copy : Nat) :
    exec (.scrubRead a 2 copy) s = .next (modTrw s fun w => { w with csErr := tset 0 w.csErr a 2 }) := by
  have harm : exec (.scrubRead a 2 copy) s = execScrubRead a 2 copy s := rfl
  rw [harm]
  simp [execScrubRead, Nat.not_le.mpr ha, hram]

/-- A marked word restored from its copy, in the control store alone. -/
def wordRestored (s : State) (a : Nat) : State :=
  modTrw s fun w => { w with cs := tset csFill w.cs a (tget csFill w.csCopy a), csErr := tset 0 w.csErr a 0 }

theorem exec_csWordRestore {s : State} {a : Nat} (hram : 0x30000 ≤ a) (ha : a < 0x40000)
    (hbad : tget 0 s.trw.csErr a = 2) : exec (.csWordRestore a true) s =
      .next (raise (fbump (wordRestored s a) TRW_SCRUB_STAT_RESTORED) (if a < 0x38000 then 0x1C5 else 0x1C6)) := by
  have harm : exec (.csWordRestore a true) s = execCsWordRestore a true s := rfl
  rw [harm]
  simp [execCsWordRestore, Nat.not_le.mpr ha, Nat.not_lt.mpr hram, hbad, wordRestored]

/-! ## The control-store window (R224) -/

/-- The window's four data words hold `f`, and no other word has changed. -/
theorem fget_dataWords (f : Nat → Nat) (n : Nat) (s : State) (i : Nat) :
    fget ((List.range n).foldl (fun s k => fset s (TRW_CS_DATA_DATA.ix k 4) (f k)) s) (TRW_CS_DATA_DATA.ix i 4) =
      if i < n then f i % 2 ^ 32 else fget s (TRW_CS_DATA_DATA.ix i 4) := by
  induction n with
  | zero => rw [if_neg (Nat.not_lt_zero i)]; rfl
  | succ n ih =>
    rw [List.range_succ, List.foldl_append, List.foldl_cons, List.foldl_nil]
    by_cases here : i = n
    · rw [here, if_pos (Nat.lt_succ_self n)]
      exact fget_fset_same _ (TRW_CS_DATA_DATA.ix n 4) _ (Nat.le_refl 32)
    · have apart : (TRW_CS_DATA_DATA.ix i 4).off ≠ (TRW_CS_DATA_DATA.ix n 4).off := by
        simp only [Fld.ix]
        omega
      rw [fget_fset_off _ _ _ _ apart, ih]
      exact if_congr (by omega) rfl rfl

/-- What the window shows of a word. -/
def windowData (s : State) (a i : Nat) : Nat := if a < 0x38000 then 0 else csWord s a / 2 ^ (32 * i) % 2 ^ 32

/-- The address and the data words written. -/
def windowWords (s : State) (a : Nat) : State :=
  (List.range 4).foldl (fun v i => fset v (TRW_CS_DATA_DATA.ix i 4) (windowData s a i)) (fset s TRW_CS_ADDR_ADDR a)

/-- The whole window written. -/
def windowShown (s : State) (a : Nat) : State :=
  let v := fset (fset (windowWords s a) TRW_CS_CHK_CHECK (Config.checkBits (csWord s a))) TRW_CS_CHK_DENIED
    (b2n (decide (a < 0x38000)))
  fset v TRW_CS_CHK_CORRECTED (b2n (tget 0 v.trw.csErr a == 1))

theorem exec_csWindowSelect (s : State) (v : Word) :
    exec (.csWindowSelect v) s = .next (windowShown s (v.toNat % 2 ^ 18)) := by
  have harm : exec (.csWindowSelect v) s = execCsWindowSelect v s := rfl
  have addr : bitsGet v 0 18 = v.toNat % 2 ^ 18 := by rw [bitsGet, Nat.pow_zero, Nat.div_one]
  rw [harm, execCsWindowSelect, addr]
  rfl

/-- The words of the window. -/
def windowKeys : List Nat :=
  [TRW_CS_ADDR_ADDR.off, TRW_CS_DATA_DATA.off, TRW_CS_DATA_DATA.off + 4, TRW_CS_DATA_DATA.off + 8,
    TRW_CS_DATA_DATA.off + 12, TRW_CS_CHK_DENIED.off]

theorem windowWords_frame (s : State) (a : Nat) :
    fget (windowWords s a) TRW_CS_ADDR_ADDR = a % 2 ^ 18 ∧ RegsBut windowKeys s (windowWords s a) ∧
      Unchanged [.regs] s (windowWords s a) := by
  have place : ∀ i < 4, (TRW_CS_DATA_DATA.ix i 4).off ∈ windowKeys ∧
      (TRW_CS_DATA_DATA.ix i 4).off ≠ TRW_CS_ADDR_ADDR.off := by decide
  refine ⟨?_, regsBut_trans (regsBut_fset (f := TRW_CS_ADDR_ADDR) s a (by decide)) fun k hk => ?_,
    unchanged_trans (fset_unchanged s _ _) (unchanged_foldl (fun v i => fset_unchanged v _ _) _ _)⟩
  · rw [windowWords, fget_congr (rget_foldl _ _ fun v i hi => rget_fset v _ _ _ (place i (List.mem_range.mp hi)).2.symm)]
    exact fget_fset_same s TRW_CS_ADDR_ADDR a (by decide)
  · exact rget_foldl _ _ fun v i hi => rget_fset v _ _ _ fun e => hk (e ▸ (place i (List.mem_range.mp hi)).1)

/-- The check word behind the window's words. -/
theorem windowShown_frame (s : State) (a : Nat) :
    RegsBut [TRW_CS_CHK_DENIED.off] (windowWords s a) (windowShown s a) ∧
      Unchanged [.regs] (windowWords s a) (windowShown s a) ∧
      fget (windowShown s a) TRW_CS_CHK_DENIED = b2n (decide (a < 0x38000)) := by
  refine ⟨regsBut_trans (regsBut_fset _ _ (by decide)) (regsBut_trans (regsBut_fset _ _ (by decide))
    (regsBut_fset _ _ (by decide))), unchanged_trans (fset_unchanged _ _ _) (unchanged_trans (fset_unchanged _ _ _)
      (fset_unchanged _ _ _)), ?_⟩
  unfold windowShown
  dsimp only
  rw [fget_fset_ne _ _ _ _ (by decide) (by decide), fget_fset_same _ _ _ (by decide)]
  cases decide (a < 0x38000) <;> rfl

/-! ## SNOOP_FILTER_COVER (R219) -/

/-- The channel of an address depends on the image and on the units in service. -/
theorem dramChanOf_congr {s t : State} (hloader : t.loader = s.loader) (hpwr : t.pwr = s.pwr) (a : Nat) :
    dramChanOf t a = dramChanOf s a := by
  unfold dramChanOf dramLive dramDeclared image isRetired
  rw [hloader, hpwr]

/-- Every line of channel `c` dropped from one tile's cache. -/
def channelDropped (c : Nat) (s : State) (t : Nat) : State := cacheDrop s t fun l => dramChanOf s (64 * l) == c

/-- No line of channel `c`, by the address map of `s`, is in tile `t`'s cache. -/
def Clean (s : State) (c : Nat) (v : State) (t : Nat) : Prop := ∀ e ∈ (getTile v t).cache, dramChanOf s (64 * e.2.line) ≠ c

theorem clean_channelDropped {s v : State} (hloader : v.loader = s.loader) (hpwr : v.pwr = s.pwr) (c : Nat) {t u : Nat}
    (h : u = t ∨ Clean s c v u) : Clean s c (channelDropped c v t) u := by
  intro e he
  rw [channelDropped, cacheDrop, getTile_modTile] at he
  by_cases hu : u = t
  · rw [if_pos hu] at he
    have dropped := List.of_mem_filter he
    rw [dramChanOf_congr hloader hpwr] at dropped
    simpa using dropped
  · rw [if_neg hu] at he
    exact h.resolve_left hu e he

theorem clean_foldl {s : State} (c : Nat) (ts : List Nat) {v : State} (hloader : v.loader = s.loader) (hpwr : v.pwr = s.pwr)
    {u : Nat} (h : u ∈ ts ∨ Clean s c v u) : Clean s c (ts.foldl (channelDropped c) v) u := by
  induction ts generalizing v with
  | nil => exact h.resolve_left (by simp)
  | cons t ts ih =>
    refine ih (v := channelDropped c v t) hloader hpwr ?_
    by_cases later : u ∈ ts
    · exact .inl later
    · exact .inr (clean_channelDropped hloader hpwr c (h.imp_left fun hu => (List.mem_cons.mp hu).resolve_right later))

/-- The end of the cover by channel `c`'s newest fault record: the record is covered, and the fence lifted. -/
def coverEnded (s : State) (c : Nat) : State :=
  let rseq := tget 0 s.kpr.lastRec (0x1C8 + c) - 1
  let s := match findRec s rseq with
    | some i => fset s (recCover i) 1
    | none => s
  liftFence (modGroup s ((0x1C8 + c) / 16) fun g => { g with cover := g.cover || g.cont == some rseq }) rseq

theorem coverEnded_trw (s : State) (c : Nat) : (coverEnded s c).trw = s.trw := by
  unfold coverEnded
  extract_lets rseq covered
  show covered.trw = s.trw
  unfold covered
  split <;> rfl

/-- The filter's fault reported, every line of the channel dropped, and the cover ended. -/
theorem exec_snoopFilterCover {s : State} {c : Nat} (hc : c < 4) : exec (.snoopFilterCover c) s =
    .next (coverEnded ((List.range 32).foldl (channelDropped c) (raise s (0x1C8 + c))) c) := by
  have harm : exec (.snoopFilterCover c) s = execSnoopFilterCover c s := rfl
  rw [harm, execSnoopFilterCover, if_neg (Nat.not_le.mpr hc)]
  rfl

/-! ## The statement on aborts, failing tiles and the control store -/

/-- Settles O36: aborts and watchdogs of a context, tiles that fail, scrubbing, the window, the snoop filter. -/
theorem flowsAbortTilesFail : Obligations.FlowsAbortTilesFail := by
  unfold Obligations.FlowsAbortTilesFail
  refine ⟨fun s t c n d hbusy hseq hcmd hgoes => ⟨?_, ?_, fun hlimit => ?_⟩, fun s t c hlimit => ?_, fun s p hp hin => ?_,
    fun s t ht hphys hready => ?_, fun s p hspare => ⟨?_, ?_⟩, fun s a copy ha hram => ⟨?_, ?_⟩,
    fun s a hram ha hbad => ?_, fun s v => ?_, fun s c hc => ?_⟩
  · refine ⟨_, exec_flowAbort hbusy false, ?_, abortFlow_ends hseq hcmd hgoes, fun k hk => ?_, abortFlow_unchanged s _⟩
    · exact (getCtx_abortFlow s _ _).trans (if_pos rfl)
    · exact (getCtx_abortFlow s _ _).trans (if_neg hk)
  · exact ⟨_, exec_flowAbort hbusy true, flowFault_faulted s t c (by decide)⟩
  · exact ⟨_, exec_contextWatchdog_expired hbusy hlimit, flowFault_faulted s t c (by decide)⟩
  · exact exec_contextWatchdog_running hlimit
  · obtain ⟨marked, listed⟩ := tileFails_retires s hp
    refine ⟨_, exec_tileFail hp hin, marked, listed, fun t ht => ?_⟩
    have number := physOf_tileFails hp ht
    obtain ⟨free, replayed⟩ := tileFails_replays ht
    refine ⟨fun sp hsp => ?_, fun hnone => ?_, free, replayed⟩
    · rw [number, hsp]
      rfl
    · rw [number, hnone]
      rfl
  · exact ⟨_, exec_tileWatchdog ht hphys hready, (tileFails_retires s hphys).1⟩
  · exact ⟨_, exec_spareSelftest hspare false, (tileFails_retires s (spareTiles_lt (List.contains_iff_mem.mp hspare))).1⟩
  · exact exec_spareSelftest hspare true
  · refine ⟨_, exec_scrubRead_corrected ha hram copy, (tget_tset _ _ _ _ _).trans (if_pos rfl),
      fget_fbump s TRW_SCRUB_STAT_CORR (by decide), regsBut_fset s _ (by decide),
      unchanged_trans (unchanged_mono (fset_unchanged s _ _) (by decide)) (unchanged_mono (modTrw_unchanged _ _) (by decide))⟩
  · exact ⟨_, exec_scrubRead_bad ha hram copy, (tget_tset _ _ _ _ _).trans (if_pos rfl), rfl, modTrw_unchanged s _⟩
  · have told := (ReportFrame.refl (fbump (wordRestored s a) TRW_SCRUB_STAT_RESTORED)).after_raise
      (if a < 0x38000 then 0x1C5 else 0x1C6) 0
    have trw := told.parts .trw (by decide)
    have word := csWord_tset (s := s) hram ((congrArg Trowel.cs trw).trans rfl)
    refine ⟨_, exec_csWordRestore hram ha hbad, ?_, ?_, fun b hb => ?_⟩
    · exact (word a).trans (if_pos rfl)
    · rw [trw]
      exact (tget_tset _ _ _ _ _).trans (if_pos rfl)
    · exact (word b).trans (if_neg hb)
  · obtain ⟨addr, words, frame⟩ := windowWords_frame s (v.toNat % 2 ^ 18)
    obtain ⟨check, last, denied⟩ := windowShown_frame s (v.toNat % 2 ^ 18)
    refine ⟨_, exec_csWindowSelect s v, ?_, denied, fun i hi => ?_, ?_, unchanged_trans frame last⟩
    · rw [fget_regsBut check (by decide), addr, Nat.mod_mod]
    · have apart : ∀ i < 4, (TRW_CS_DATA_DATA.ix i 4).off ∉ [TRW_CS_CHK_DENIED.off] := by decide
      rw [fget_regsBut check (apart i hi), windowWords, fget_dataWords, if_pos hi, windowData]
      split
      · rfl
      · exact Nat.mod_mod _ _
    · exact regsBut_trans words fun k hk => check k fun e => hk (by rw [List.mem_singleton.mp e]; decide)
  · have trw := coverEnded_trw ((List.range 32).foldl (channelDropped c) (raise s (0x1C8 + c))) c
    have told := (ReportFrame.refl s).after_raise (0x1C8 + c) 0
    refine ⟨_, exec_snoopFilterCover hc, fun t ht => ?_⟩
    have tile : getTile (coverEnded ((List.range 32).foldl (channelDropped c) (raise s (0x1C8 + c))) c) t =
        getTile ((List.range 32).foldl (channelDropped c) (raise s (0x1C8 + c))) t := by
      rw [getTile, trw, getTile]
    rw [tile]
    exact clean_foldl c (List.range 32) (told.parts .loader (by decide)) (told.parts .pwr (by decide))
      (.inl (List.mem_range.mpr ht))

end Sys2Proof.Laws
end

section
/-!
PROOFS. The statement of 08_microword_set.md on the microword operations (R226, R229, R230, Table 08-5). In front of it stand
what each operation gives (`Gives`: its result, carry and overflow as numbers and bits), and how a word puts that into its
context: `gives_computes` for the operations that write RD, `gives_setsFlags` for CMP and TST.
-/

namespace Sys2Proof.Laws

open Sys2Proof.Machine

/-! ## What the operations give (Tables 08-4 and 08-5) -/

/-- An operation gives the result `r`, the carry `cf` and the overflow `vf`. -/
structure Gives (o : AluOut) (r : Nat) (cf vf : Bool) : Prop where
  result : o.res.toNat = r
  carry : o.c = cf
  overflow : o.v = vf

/-- An operation without a carry or an overflow whose result is a number that fits a register. -/
theorem gives_ofNat {r n : Nat} (heq : r = n) (hfits : r < 2 ^ 64) : Gives { res := BitVec.ofNat 64 r } n false false :=
  ⟨by rw [BitVec.toNat_ofNat, Nat.mod_eq_of_lt hfits, heq], rfl, rfl⟩

section operations

variable (a b d : DWord)

/-- The sum overflows when operands of one sign give a result of the other. -/
theorem aluAdd_gives : Gives (aluAdd a b) ((a.toNat + b.toNat) % 2 ^ 64) (decide (2 ^ 64 ≤ a.toNat + b.toNat))
    (decide (a.toInt + b.toInt < -2 ^ 63 ∨ 2 ^ 63 ≤ a.toInt + b.toInt)) := by
  have signs : (aluAdd a b).v = a.saddOverflow b := (BitVec.saddOverflow_eq a b).symm
  exact ⟨BitVec.toNat_add a b, rfl, by rw [signs, BitVec.saddOverflow, Bool.or_comm, Bool.decide_or]⟩

/-- The difference overflows when operands of unlike signs give a result whose sign is not RA's. -/
theorem aluSub_gives : Gives (aluSub a b) ((a.toNat + 2 ^ 64 - b.toNat) % 2 ^ 64) (decide (b.toNat ≤ a.toNat))
    (decide (a.toInt - b.toInt < -2 ^ 63 ∨ 2 ^ 63 ≤ a.toInt - b.toInt)) := by
  have signs : (aluSub a b).v = a.ssubOverflow b := by
    rw [BitVec.ssubOverflow_eq, aluSub]
    cases a.msb <;> cases b.msb <;> simp
  refine ⟨?_, rfl, by rw [signs, BitVec.ssubOverflow, Bool.or_comm, Bool.decide_or]⟩
  have hb := b.isLt
  rw [aluSub, BitVec.toNat_sub]
  omega

/-- The last bit a shift by `n` pushes out is the one at `i`. -/
theorem shiftedOut_eq (n i : Nat) : (n != 0 && a.getLsbD i) = decide (n ≠ 0 ∧ a.toNat.testBit i = true) :=
  Bool.eq_iff_iff.mpr (by simp [BitVec.testBit_toNat])

theorem aluShl_gives : Gives (aluShl a b) (a.toNat * 2 ^ (b.toNat % 64) % 2 ^ 64)
    (decide (b.toNat % 64 ≠ 0 ∧ a.toNat.testBit (64 - b.toNat % 64) = true)) false :=
  ⟨by rw [aluShl, shiftAmount, BitVec.toNat_shiftLeft, Nat.shiftLeft_eq], shiftedOut_eq a _ _, rfl⟩

theorem aluShr_gives : Gives (aluShr a b) (a.toNat / 2 ^ (b.toNat % 64))
    (decide (b.toNat % 64 ≠ 0 ∧ a.toNat.testBit (b.toNat % 64 - 1) = true)) false :=
  ⟨by rw [aluShr, shiftAmount, BitVec.toNat_ushiftRight, Nat.shiftRight_eq_div_pow], shiftedOut_eq a _ _, rfl⟩

theorem aluSar_gives : Gives (aluSar a b) (a.toInt / 2 ^ (b.toNat % 64) % 2 ^ 64).toNat
    (decide (b.toNat % 64 ≠ 0 ∧ a.toNat.testBit (b.toNat % 64 - 1) = true)) false := by
  refine ⟨?_, shiftedOut_eq a _ _, rfl⟩
  rw [aluSar, shiftAmount, BitVec.sshiftRight, BitVec.toNat_ofInt, Int.shiftRight_eq_div_pow]
  norm_cast

theorem aluMul_gives : Gives (aluMul a b) (a.toNat * b.toNat % 2 ^ 64) (decide (2 ^ 64 ≤ a.toNat * b.toNat)) false :=
  ⟨BitVec.toNat_mul a b, rfl, rfl⟩

theorem aluMin_gives : Gives (aluMin a b) (min a.toNat b.toNat) false false := by
  refine ⟨?_, rfl, rfl⟩
  rw [aluMin, Nat.min_def]
  exact apply_ite BitVec.toNat _ a b

theorem aluMax_gives : Gives (aluMax a b) (max a.toNat b.toNat) false false := by
  refine ⟨?_, rfl, rfl⟩
  rw [aluMax, Nat.max_def]
  exact apply_ite BitVec.toNat _ b a

theorem aluExt_gives (imm : Nat) :
    Gives (aluExt a imm) (a.toNat / 2 ^ (imm % 64) % 2 ^ (imm / 256 % 128)) false false :=
  gives_ofNat rfl ((Nat.mod_le _ _).trans_lt ((Nat.div_le_self _ _).trans_lt a.isLt))

end operations

/-! ## INS -/

section insert

variable (d a l w : Nat)

/-- The field of `w` bits at `l` with the bits above and below it. -/
theorem bits_around_field : d / 2 ^ (l + w) * 2 ^ (l + w) + d / 2 ^ l % 2 ^ w * 2 ^ l + d % 2 ^ l = d := by
  have low := Nat.mod_mul (x := d) (a := 2 ^ l) (b := 2 ^ w)
  have whole := Nat.div_add_mod d (2 ^ (l + w))
  rw [← Nat.pow_add] at low
  rw [Nat.mul_comm, Nat.mul_comm (_ % _)]
  omega

/-- A number with its field replaced. -/
theorem field_replaced : d / 2 ^ (l + w) * 2 ^ (l + w) + a % 2 ^ w * 2 ^ l + d % 2 ^ l =
    d - d / 2 ^ l % 2 ^ w * 2 ^ l + a % 2 ^ w * 2 ^ l := by
  have around := bits_around_field d l w
  omega

/-- A field that lies inside the register leaves the number inside it. -/
theorem field_replaced_lt {d l w : Nat} (hd : d < 2 ^ 64) (hin : l + w ≤ 64) :
    d / 2 ^ (l + w) * 2 ^ (l + w) + a % 2 ^ w * 2 ^ l + d % 2 ^ l < 2 ^ 64 := by
  have field : a % 2 ^ w * 2 ^ l + 2 ^ l ≤ 2 ^ (l + w) := by
    rw [Nat.pow_add, Nat.mul_comm (2 ^ l), ← Nat.succ_mul]
    exact Nat.mul_le_mul_right _ (Nat.mod_lt a (by positivity))
  have above : d / 2 ^ (l + w) * 2 ^ (l + w) + 2 ^ (l + w) ≤ 2 ^ 64 := by
    have split : 2 ^ 64 = 2 ^ (l + w) * 2 ^ (64 - (l + w)) := by rw [← Nat.pow_add, Nat.add_sub_cancel' hin]
    rw [← Nat.succ_mul, split, Nat.mul_comm (2 ^ (l + w))]
    exact Nat.mul_le_mul_right _ (Nat.div_lt_of_lt_mul (split ▸ hd))
  have below := Nat.mod_lt d (Nat.two_pow_pos l)
  omega

end insert

/-- Table 08-4: the field of a well-formed INS lies inside the register. -/
theorem ins_field_inside {m : MWord} (hword : wordFault m = 0) (hopc : m.opc = 0x10) :
    m.imm % 64 + m.imm / 256 % 128 ≤ 64 := by
  simp only [wordFault, opUse, hopc, wordOk, bOk, nbits] at hword
  simp at hword
  omega

theorem aluIns_gives (d a : DWord) {imm : Nat} (hin : imm % 64 + imm / 256 % 128 ≤ 64) :
    Gives (aluIns d a imm) (d.toNat - d.toNat / 2 ^ (imm % 64) % 2 ^ (imm / 256 % 128) * 2 ^ (imm % 64) +
      a.toNat % 2 ^ (imm / 256 % 128) * 2 ^ (imm % 64)) false false :=
  gives_ofNat (field_replaced _ _ _ _) (field_replaced_lt _ d.isLt hin)

/-! ## CLZ, POPC and CRC -/

/-- The zeros above the highest bit that is set. -/
theorem leadZeros_eq {x n : Nat} (hx : x < 2 ^ n) : leadZeros x n = if x = 0 then n else n - 1 - x.log2 := by
  induction n with
  | zero =>
    obtain rfl : x = 0 := by omega
    rfl
  | succ n ih =>
    have quotient : x / 2 ^ n < 2 := Nat.div_lt_of_lt_mul (by rwa [← Nat.pow_succ])
    by_cases top : 2 ^ n ≤ x
    · have nonzero : x ≠ 0 := by have := Nat.two_pow_pos n; omega
      have bit : x / 2 ^ n = 1 := by have := Nat.div_pos top (Nat.two_pow_pos n); omega
      rw [leadZeros, bit, if_pos (by decide), if_neg nonzero, (Nat.log2_eq_iff nonzero).mpr ⟨top, hx⟩]
      omega
    · have below := Nat.not_le.mp top
      rw [leadZeros, Nat.div_eq_of_lt below, if_neg (by decide), ih below]
      split
      case isTrue => rfl
      case isFalse nonzero =>
        have high := (Nat.log2_lt nonzero).mpr below
        omega

theorem aluClz_gives (b : DWord) :
    Gives (aluClz b) (if b.toNat = 0 then 64 else 63 - b.toNat.log2) false false := by
  have zeros := leadZeros_eq b.isLt
  exact gives_ofNat zeros (by rw [zeros]; split <;> omega)

/-- The low `k` bits that are set. -/
theorem popCount_eq (k n : Nat) : popCount k n = (List.range k).countP fun i => n.testBit i := by
  induction k generalizing n with
  | zero => rfl
  | succ k ih =>
    have shifted : ((fun i => n.testBit i) ∘ Nat.succ) = fun i => (n / 2).testBit i :=
      funext fun i => Nat.testBit_succ n i
    rw [popCount, ih, List.range_succ_eq_map, List.countP_cons, List.countP_map, shifted, Nat.testBit_zero, Nat.add_comm]
    rcases Nat.mod_two_eq_zero_or_one n with even | odd
    · rw [even]; rfl
    · rw [odd]; rfl

theorem aluPopc_gives (b : DWord) :
    Gives (aluPopc b) ((List.range 64).countP fun i => b.toNat.testBit i) false false := by
  have bits := popCount_eq 64 b.toNat
  have few : popCount 64 b.toNat ≤ 64 := bits ▸ List.countP_le_length.trans_eq List.length_range
  exact gives_ofNat bits (by omega)

theorem aluCrc_gives (a b : DWord) :
    Gives (aluCrc a b) (crc32cFrom (a.toNat % 2 ^ 32) (leBytes b.toNat 8)) false false :=
  gives_ofNat rfl ((BitVec.isLt _).trans (by decide))

/-! ## Results and flags in the context (R226, R230) -/

/-- Z and N follow from the result (R230). -/
theorem flagsOf_putFlags (x : Ctx) {o : AluOut} {r : Nat} {cf vf : Bool} (h : Gives o r cf vf) :
    FlagsOf (putFlags x o) r cf vf := by
  obtain ⟨rfl, rfl, rfl⟩ := h
  refine ⟨?_, BitVec.msb_eq_decide o.res, rfl, rfl⟩
  exact (Bool.beq_eq_decide_eq _ _).trans (decide_eq_decide.mpr (BitVec.toNat_inj (y := 0#64)).symm)

theorem gReg_putResult (x : Ctx) (m : MWord) (o : AluOut) (i : Nat) :
    gReg (putResult x m o) i = if i = m.rd then o.res else gReg x i := by
  unfold putResult
  split <;> exact gReg_setReg x m.rd i o.res

theorem putResult_t (x : Ctx) (m : MWord) (o : AluOut) : (putResult x m o).t = x.t := by
  unfold putResult
  split <;> rfl

theorem flagsOf_putResult (x : Ctx) {m : MWord} {o : AluOut} {r : Nat} {cf vf : Bool} (h : Gives o r cf vf)
    (hsf : m.sf = true) : FlagsOf (putResult x m o) r cf vf := by
  rw [putResult, if_pos hsf]
  exact flagsOf_putFlags (setReg x m.rd o.res) h

theorem sameFlags_putResult (x : Ctx) {m : MWord} (o : AluOut) (hsf : m.sf = false) :
    SameFlags x (putResult x m o) := by
  rw [putResult, hsf]
  exact ⟨rfl, rfl, rfl, rfl⟩

section context

variable {x : Ctx} (h : StaysOn x x)

include h

theorem StaysOn.putFlags (o : AluOut) : StaysOn x (putFlags x o) := ⟨h.busy, rfl, rfl, rfl, rfl, rfl, h.wait⟩

theorem StaysOn.putResult (m : MWord) (o : AluOut) : StaysOn x (putResult x m o) := by
  unfold Machine.putResult
  split <;> exact ⟨h.busy, rfl, rfl, rfl, rfl, rfl, h.wait⟩

end context

section through

variable {s : State} {t c o : Nat} {x : Ctx} {m : MWord} (h : FallsThrough s t c o x m) (ho : o ∉ [0x20, 0x21, 0x30, 0x38])

include h ho

/-- R226: an operation on the context alone, and the flow goes on with what it left. -/
theorem microOp_goesOn {f : Ctx → MWord → Ctx} (hf : StaysOn x (f x m)) :
    WentOn s (microOp o t c f s) t c x ∧ ∃ a w n,
      getCtx (microOp o t c f s) (ctxKey t c) = { f x m with pc := a, word := w, count := n } := by
  rw [microOp_issued h.1, through_microDone h (through_permitted h ho)]
  exact ⟨wentOn_goTo (.refl s) t c hf, _, _, _, (getCtx_goTo _ _ _ _ _).trans (if_pos rfl)⟩

/-- CMP and TST: the flags alone, always (R230). -/
theorem gives_setsFlags {g : Ctx → MWord → AluOut} {r : Nat} {cf vf : Bool} {i : Instr}
    (harm : exec i s = .next (microOp o t c (fun x m => putFlags x (g x m)) s)) (hg : Gives (g x m) r cf vf) :
    ∃ u, exec i s = .next u ∧ WentOn s u t c x ∧ (∀ j, gReg (getCtx u (ctxKey t c)) j = gReg x j) ∧
      (getCtx u (ctxKey t c)).t = x.t ∧ FlagsOf (getCtx u (ctxKey t c)) r cf vf := by
  obtain ⟨went, _, _, _, here⟩ := microOp_goesOn h ho (f := fun x m => putFlags x (g x m))
    ((through_issues h).staysOn.putFlags _)
  refine ⟨_, harm, went, ?_⟩
  rw [here]
  exact ⟨fun _ => rfl, rfl, flagsOf_putFlags x hg⟩

end through

/-- An instruction that puts what `g` gives into RD and, where SF is 1, into the flags. -/
theorem gives_computes {o : Nat} {i : Nat → Nat → Instr} {g : Ctx → MWord → AluOut} {res : Ctx → MWord → Nat}
    {cf vf : Ctx → MWord → Bool}
    (harm : ∀ s t c, exec (i t c) s = .next (microOp o t c (fun x m => putResult x m (g x m)) s))
    (ho : o ∉ [0x20, 0x21, 0x30, 0x38])
    (hgives : ∀ x m, wordFault m = 0 → m.opc = o → Gives (g x m) (res x m) (cf x m) (vf x m)) :
    Computes o i res cf vf := by
  intro s t c x m h
  have issues := through_issues h
  have gives := hgives x m h.2.1 issues.opc
  obtain ⟨went, _, _, _, here⟩ := microOp_goesOn h ho (f := fun x m => putResult x m (g x m)) (issues.staysOn.putResult _ _)
  refine ⟨_, harm s t c, went, ?_⟩
  rw [here]
  refine ⟨?_, fun j hj => ?_, putResult_t _ _ _, flagsOf_putResult x gives, sameFlags_putResult x _⟩
  · exact (congrArg BitVec.toNat ((gReg_putResult _ _ _ _).trans (if_pos rfl))).trans gives.result
  · exact (gReg_putResult _ _ _ _).trans (if_neg hj)

/-! ## The statement on the operations -/

/-- Settles O31: the operations that write RD by what they give, then CMP, TST and NOP. -/
theorem microwordResults : Obligations.MicrowordResults := by
  unfold Obligations.MicrowordResults
  refine ⟨?add, ?sub, ?and, ?or, ?xor, ?shl, ?shr, ?sar, ?mov, ?mul, ?minu, ?maxu, ?ext, ?ins, ?clz, ?popc, ?crc,
    fun s t c x m h => ?cmp, fun s t c x m h => ?tst, fun s t c x m h => ?nop⟩
  case add => exact gives_computes (fun _ _ _ => rfl) (by decide) fun _ _ _ _ => aluAdd_gives _ _
  case sub => exact gives_computes (fun _ _ _ => rfl) (by decide) fun _ _ _ _ => aluSub_gives _ _
  case and => exact gives_computes (fun _ _ _ => rfl) (by decide) fun _ _ _ _ => ⟨BitVec.toNat_and _ _, rfl, rfl⟩
  case or => exact gives_computes (fun _ _ _ => rfl) (by decide) fun _ _ _ _ => ⟨BitVec.toNat_or _ _, rfl, rfl⟩
  case xor => exact gives_computes (fun _ _ _ => rfl) (by decide) fun _ _ _ _ => ⟨BitVec.toNat_xor _ _, rfl, rfl⟩
  case shl => exact gives_computes (fun _ _ _ => rfl) (by decide) fun _ _ _ _ => aluShl_gives _ _
  case shr => exact gives_computes (fun _ _ _ => rfl) (by decide) fun _ _ _ _ => aluShr_gives _ _
  case sar => exact gives_computes (fun _ _ _ => rfl) (by decide) fun _ _ _ _ => aluSar_gives _ _
  case mov => exact gives_computes (fun _ _ _ => rfl) (by decide) fun _ _ _ _ => ⟨rfl, rfl, rfl⟩
  case mul => exact gives_computes (fun _ _ _ => rfl) (by decide) fun _ _ _ _ => aluMul_gives _ _
  case minu => exact gives_computes (fun _ _ _ => rfl) (by decide) fun _ _ _ _ => aluMin_gives _ _
  case maxu => exact gives_computes (fun _ _ _ => rfl) (by decide) fun _ _ _ _ => aluMax_gives _ _
  case ext => exact gives_computes (fun _ _ _ => rfl) (by decide) fun _ _ _ _ => aluExt_gives _ _
  case ins =>
    exact gives_computes (fun _ _ _ => rfl) (by decide) fun _ _ hword hopc => aluIns_gives _ _ (ins_field_inside hword hopc)
  case clz => exact gives_computes (fun _ _ _ => rfl) (by decide) fun _ _ _ _ => aluClz_gives _
  case popc => exact gives_computes (fun _ _ _ => rfl) (by decide) fun _ _ _ _ => aluPopc_gives _
  case crc => exact gives_computes (fun _ _ _ => rfl) (by decide) fun _ _ _ _ => aluCrc_gives _ _
  case cmp => exact gives_setsFlags h (by decide) rfl (aluSub_gives _ _)
  case tst => exact gives_setsFlags h (by decide) rfl ⟨BitVec.toNat_and _ _, rfl, rfl⟩
  case nop =>
    obtain ⟨went, _, _, _, here⟩ := microOp_goesOn h (by decide) (f := fun x _ => x) (through_issues h).staysOn
    refine ⟨_, rfl, went, ?_⟩
    rw [here]
    exact ⟨fun _ => rfl, rfl, rfl, rfl, rfl, rfl⟩

end Sys2Proof.Laws
end

section
/-!
PROOFS. The statement of 09_log_and_undercoat.md on destage, sealing and erasure (R258, R264, R266, R269, R270, R272, R279,
R550). The lemmas in front of it serve every later proof about Undercoat: what reading segments, stripes and slots gives
after a change, what appending to the log heads leaves (`LogFrame`) and brings (`Joined`), and what location updates leave
(`MapsOnly`).
-/

namespace Sys2Proof.Laws

open Sys2Proof.Machine

/-! ## Segments and the stripes on media (R267, R269) -/

theorem modPools_unchanged (s : State) (f : PoolNv → PoolNv) : Unchanged [.nv] s (modPools s f) := setNv_unchanged s _

theorem getSeg_modSeg (s : State) (disk d : Bool) (i j : Nat) (f : SegRec → SegRec) : getSeg (modSeg s disk i f) d j =
    if segKey d j = segKey disk i then f (getSeg s disk i) else getSeg s d j := tget_tmod _ _ _ _ _

theorem getSeg_congr {s t : State} (h : t.udc.segs = s.udc.segs) (disk : Bool) (i : Nat) :
    getSeg t disk i = getSeg s disk i := by rw [getSeg, getSeg, h]

theorem getStripe_modStripe (s : State) (disk d : Bool) (i j k n : Nat) (f : StripeRec → StripeRec) :
    getStripe (modStripe s disk i k f) d j n =
      if stripeKey d j n = stripeKey disk i k then f (getStripe s disk i k) else getStripe s d j n := tget_tmod _ _ _ _ _

theorem getStripe_congr {s t : State} (h : t.nv = s.nv) (disk : Bool) (i k : Nat) :
    getStripe t disk i k = getStripe s disk i k := by rw [getStripe, getStripe, h]

theorem getSlot_congr {s t : State} (h : t.udc.slots = s.udc.slots) (i : Nat) : getSlot t i = getSlot s i := by
  rw [getSlot, getSlot, h]

/-- The open stripe found has the number asked for and is one of the open stripes. -/
theorem findOpen_found {s : State} {disk : Bool} {seg k : Nat} {o : OpenStripe} (h : findOpen s disk seg k = some o) :
    headDisk o.head = disk ∧ o.seg = seg ∧ o.stripe = k ∧ o ∈ s.udc.open_ := by
  have found := List.find?_some h
  simp only [Bool.and_eq_true, beq_iff_eq] at found
  obtain ⟨⟨hdisk, hseg⟩, hstripe⟩ := found
  exact ⟨hdisk, hseg, hstripe, List.mem_of_find?_eq_some h⟩

/-- The stripe a head fills is an open one of that head. -/
theorem fillingStripe_found {s : State} {h : Nat} {o : OpenStripe} (found : fillingStripe s h = some o) :
    o ∈ s.udc.open_ ∧ o.head = h := by
  obtain ⟨mem, head⟩ := List.mem_filter.mp (List.mem_of_find?_eq_some found)
  exact ⟨mem, beq_iff_eq.mp head⟩

/-- A changed open stripe is among the open ones. -/
theorem mem_open_modOpen {s : State} {o : OpenStripe} (h : o ∈ s.udc.open_) (f : OpenStripe → OpenStripe) :
    f o ∈ (modOpen s (headDisk o.head) o.seg o.stripe f).udc.open_ :=
  List.mem_map.mpr ⟨o, h, if_pos (by simp)⟩

/-! ## Placing units in stripes (R267, R270) -/

/-- No segment in use becomes free, changes its members or loses the mark of a lost strip. -/
def SegsKept (s t : State) : Prop := ∀ disk i, (getSeg s disk i).state ≠ 0 → (getSeg t disk i).state ≠ 0 ∧
  (getSeg t disk i).members = (getSeg s disk i).members ∧ (getSeg s disk i).lost ⊆ (getSeg t disk i).lost

theorem SegsKept.of_segs {s t : State} (h : t.udc.segs = s.udc.segs) : SegsKept s t := by
  intro disk i used
  rw [getSeg_congr h]
  exact ⟨used, rfl, List.Subset.refl _⟩

theorem SegsKept.trans {s t u : State} (h : SegsKept s t) (k : SegsKept t u) : SegsKept s u := by
  intro disk i used
  obtain ⟨used', members, lost⟩ := h disk i used
  obtain ⟨used'', members', lost'⟩ := k disk i used'
  exact ⟨used'', members'.trans members, List.Subset.trans lost lost'⟩

/-- A changed record keeps its segment where the change does. -/
theorem SegsKept.modSeg {s : State} {disk : Bool} {i : Nat} {f : SegRec → SegRec}
    (hf : (getSeg s disk i).state ≠ 0 → (f (getSeg s disk i)).state ≠ 0 ∧
      (f (getSeg s disk i)).members = (getSeg s disk i).members ∧ (getSeg s disk i).lost ⊆ (f (getSeg s disk i)).lost) :
    SegsKept s (modSeg s disk i f) := by
  intro d j used
  rw [getSeg_modSeg]
  split
  case isTrue same =>
    have here : getSeg s d j = getSeg s disk i := by rw [getSeg, getSeg, same]
    rw [here] at used ⊢
    exact hf used
  case isFalse => exact ⟨used, rfl, List.Subset.refl _⟩

/-- From `s` to `t` units joined open stripes, which may have been opened or abandoned for it: of Undercoat only slots,
segments, open stripes and the count of location records have changed, beside it only the defects taken. -/
structure LogFrame (s t : State) : Prop where
  changed : ∃ sl sg op lg un rd,
    t = { s with rdc := rd, udc := { s.udc with slots := sl, segs := sg, open_ := op, log := lg, unsaved := un } }
  segs : SegsKept s t

namespace LogFrame

variable {s t u : State}

theorem refl (s : State) : LogFrame s s := ⟨⟨_, _, _, _, _, _, rfl⟩, .of_segs rfl⟩

theorem trans (h : LogFrame s t) (k : LogFrame t u) : LogFrame s u := by
  refine ⟨?_, h.segs.trans k.segs⟩
  obtain ⟨_, _, _, _, _, _, rfl⟩ := h.changed
  obtain ⟨_, _, _, _, _, _, rfl⟩ := k.changed
  exact ⟨_, _, _, _, _, _, rfl⟩

theorem after_open (h : LogFrame s t) (f : Undercoat → List OpenStripe) :
    LogFrame s (modUdc t fun u => { u with open_ := f u }) :=
  h.trans ⟨⟨_, _, _, _, _, _, rfl⟩, .of_segs rfl⟩

theorem after_modOpen (h : LogFrame s t) (disk : Bool) (i k : Nat) (f : OpenStripe → OpenStripe) :
    LogFrame s (modOpen t disk i k f) := h.trans ⟨⟨_, _, _, _, _, _, rfl⟩, .of_segs rfl⟩

theorem after_modSlot (h : LogFrame s t) (i : Nat) (f : Slot → Slot) : LogFrame s (modSlot t i f) :=
  h.trans ⟨⟨_, _, _, _, _, _, rfl⟩, .of_segs rfl⟩

theorem after_rdc (h : LogFrame s t) (r : Tbl RdChan) : LogFrame s { t with rdc := r } :=
  h.trans ⟨⟨_, _, _, _, _, _, rfl⟩, .of_segs rfl⟩

theorem after_modSeg (h : LogFrame s t) {disk : Bool} {i : Nat} {f : SegRec → SegRec}
    (hf : (getSeg t disk i).state ≠ 0 → (f (getSeg t disk i)).state ≠ 0 ∧
      (f (getSeg t disk i)).members = (getSeg t disk i).members ∧ (getSeg t disk i).lost ⊆ (f (getSeg t disk i)).lost) :
    LogFrame s (modSeg t disk i f) :=
  h.trans ⟨⟨_, _, _, _, _, _, rfl⟩, .modSeg hf⟩

/-- A segment's next stripe moves on. -/
theorem after_next (h : LogFrame s t) (disk : Bool) (i : Nat) (f : SegRec → Nat) :
    LogFrame s (modSeg t disk i fun r => { r with next := f r }) :=
  h.after_modSeg fun used => ⟨used, rfl, List.Subset.refl _⟩

theorem after_sealed (h : LogFrame s t) (disk : Bool) (i : Nat) :
    LogFrame s (modSeg t disk i fun r => { r with state := 2 }) :=
  h.after_modSeg fun _ => ⟨Nat.succ_ne_zero 1, rfl, List.Subset.refl _⟩

theorem parts (h : LogFrame s t) : Unchanged [.udc, .rdc] s t := by
  obtain ⟨_, _, _, _, _, _, rfl⟩ := h.changed
  intro part hpart
  cases part with
  | udc | rdc => exact absurd (by decide) hpart
  | _ => rfl

theorem nv_eq (h : LogFrame s t) : t.nv = s.nv := h.parts .nv (by decide)

theorem gran_eq (h : LogFrame s t) : t.udc.gran = s.udc.gran := by
  obtain ⟨_, _, _, _, _, _, rfl⟩ := h.changed
  rfl

theorem ext_eq (h : LogFrame s t) : t.udc.ext = s.udc.ext := by
  obtain ⟨_, _, _, _, _, _, rfl⟩ := h.changed
  rfl

theorem mediaErr_eq (h : LogFrame s t) : t.udc.mediaErr = s.udc.mediaErr := by
  obtain ⟨_, _, _, _, _, _, rfl⟩ := h.changed
  rfl

end LogFrame

/-- The less worn of two segments, where there is a first one. -/
def lessWorn (s : State) (b : Option Nat) (i : Nat) : Option Nat :=
  match b with
  | none => some i
  | some j => if segWear s i < segWear s j then some i else some j

/-- The least worn of a list of segments is one of them. -/
theorem leastWorn_mem (s : State) (l : List Nat) (b : Option Nat) {i : Nat} (h : l.foldl (lessWorn s) b = some i) :
    i ∈ l ∨ b = some i := by
  induction l generalizing b with
  | nil => exact .inr h
  | cons j l ih =>
    rcases ih _ h with mem | start
    · exact .inl (List.mem_cons_of_mem j mem)
    · cases b with
      | none => exact .inl (Option.some.inj start ▸ List.mem_cons_self)
      | some k =>
        simp only [lessWorn] at start
        split at start
        · exact .inl (Option.some.inj start ▸ List.mem_cons_self)
        · exact .inr start

/-- A head opens only a segment that is free. -/
theorem pickSegment_free {s : State} {h i : Nat} (found : pickSegment s h = some i) :
    (getSeg s (headDisk h) i).state = 0 := by
  unfold pickSegment at found
  extract_lets disk okSeg cands plain at found
  have picks : i ∈ cands := by
    have lowest {j : Nat} (hj : cands.head? = some j) : j ∈ cands := List.mem_of_head? hj
    have plainly {j : Nat} (hj : plain = some j) : j ∈ cands := by
      dsimp only [plain] at hj
      split at hj
      · exact lowest hj
      · exact (leastWorn_mem s cands none hj).resolve_right nofun
    split at found
    · cases found
    · split at found
      case h_1 r _ =>
        split at found
        · cases below : cands.find? fun j => decide (j < r.commit) with
          | some j =>
            rw [below] at found
            cases found
            exact List.mem_of_find?_eq_some below
          | none =>
            rw [below] at found
            exact lowest found
        · exact plainly found
      case h_2 => exact plainly found
  have free := (List.mem_filter.mp picks).2
  simp only [okSeg, segFree, Bool.and_eq_true, beq_iff_eq] at free
  exact free.1.1.1.2

/-- The defects that an opened segment takes stand outside Undercoat. -/
theorem takeDefects_rdc (s : State) (i : Nat) : ∃ rd, takeDefects s i = { s with rdc := rd } := by
  unfold takeDefects
  split
  · exact ⟨_, rfl⟩
  · refine List.foldlRecOn (motive := fun t : State => ∃ rd, t = { s with rdc := rd }) _ _ ⟨s.rdc, rfl⟩ ?_
    rintro _ ⟨rd, rfl⟩ a -
    exact ⟨_, rfl⟩

theorem openSegment_frame {s t : State} {h i : Nat} (opened : openSegment s h = some (i, t)) : LogFrame s t := by
  obtain ⟨j, found, made⟩ := Option.map_eq_some_iff.mp opened
  have taken : ∃ rd, (if headDisk h then takeDefects s j else s) = { s with rdc := rd } := by
    split
    · exact takeDefects_rdc s j
    · exact ⟨s.rdc, rfl⟩
  obtain ⟨rd, taken⟩ := taken
  rw [taken] at made
  cases made
  exact ((LogFrame.refl s).after_rdc rd).after_modSeg fun used => absurd (pickSegment_free found) used

theorem openStripe_frame {s t : State} {h : Nat} (opened : openStripe s h = some t) : LogFrame s t := by
  unfold openStripe at opened
  split at opened
  · cases opened
  · obtain ⟨⟨i, v⟩, chosen, rfl⟩ := Option.map_eq_some_iff.mp opened
    have placed : LogFrame s v := by
      cases filling : headSegment s h with
      | some j =>
        rw [filling] at chosen
        cases chosen
        exact .refl s
      | none =>
        rw [filling] at chosen
        exact openSegment_frame chosen
    exact (placed.after_next _ _ _).after_open _

/-- From `s` to `t` units were placed, and a part with the owner and the kind of `p` has joined an open stripe. -/
structure Joined (s t : State) (p : StripePart) : Prop where
  frame : LogFrame s t
  joins : ∃ o ∈ t.udc.open_, ∃ q ∈ o.parts, q.id = p.id ∧ q.what = p.what

theorem Joined.after {s t u : State} {p : StripePart} (h : LogFrame s t) (k : Joined t u p) : Joined s u p :=
  ⟨h.trans k.frame, k.joins⟩

theorem joined_modOpen {s v : State} {h : Nat} {o : OpenStripe} {p q : StripePart} {f : OpenStripe → OpenStripe}
    (hv : LogFrame s v) (found : fillingStripe v h = some o) (hq : q ∈ (f o).parts) (hid : q.id = p.id)
    (hwhat : q.what = p.what) : Joined s (modOpen v (headDisk h) o.seg o.stripe f) p := by
  obtain ⟨mem, rfl⟩ := fillingStripe_found found
  exact ⟨hv.after_modOpen _ _ _ _, _, mem_open_modOpen mem f, q, hq, hid, hwhat⟩

/-- What appending a granule does (R270). -/
theorem appendGranule_joined {s t : State} {h : Nat} {us : List Nat} {p : StripePart}
    (appended : appendGranule s h us p = some t) : Joined s t p := by
  unfold appendGranule at appended
  extract_lets disk fresh at appended
  have freshly {v w : State} (hv : LogFrame s v) (made : fresh v = some w) : Joined s w p := by
    obtain ⟨x, opened, made⟩ := Option.bind_eq_some_iff.mp made
    obtain ⟨o, found, rfl⟩ := Option.map_eq_some_iff.mp made
    exact joined_modOpen (hv.trans (openStripe_frame opened)) found (List.mem_append_right _ List.mem_cons_self) rfl rfl
  split at appended
  case h_1 => exact freshly (.refl s) appended
  case h_2 o found =>
    split at appended
    · cases appended
      exact joined_modOpen (.refl s) found (List.mem_append_right _ List.mem_cons_self) rfl rfl
    · exact freshly ((LogFrame.refl s).after_modOpen _ _ _ _) appended

/-- A granule that fits in the stripe its head fills joins it there. -/
theorem appendGranule_fits {s : State} {h : Nat} {us : List Nat} {o : OpenStripe} (p : StripePart)
    (found : fillingStripe s h = some o) (fits : us.length ≤ o.room) :
    appendGranule s h us p = some (modOpen s (headDisk h) o.seg o.stripe fun o => o.add us p s.tb.ns) := by
  simp [appendGranule, found, fits]

/-- What appending an extent does, stripe by stripe (R281, R282). -/
theorem appendUnits_joined {fuel : Nat} {s t : State} {h : Nat} {us : List Nat} {start : Option (Nat × Nat)}
    {p : StripePart} (appended : appendUnits fuel s h us start p = some t) : Joined s t p := by
  induction fuel generalizing s us start with
  | zero => cases appended
  | succ fuel ih =>
    unfold appendUnits at appended
    split at appended
    case h_1 =>
      obtain ⟨v, opened, appended⟩ := Option.bind_eq_some_iff.mp appended
      exact .after (openStripe_frame opened) (ih appended)
    case h_2 o found =>
      extract_lets at0 k fin v at appended
      split at appended
      case isTrue last =>
        rw [← Option.some.inj appended]
        refine joined_modOpen (.refl s) found (q := { p with stripe0 := at0.1, first := at0.2 }) ?_ rfl rfl
        dsimp only
        rw [if_pos last]
        exact List.mem_append_right _ List.mem_cons_self
      case isFalse => exact .after ((LogFrame.refl s).after_modOpen _ _ _ _) (ih appended)

theorem appendExtent_joined {s t : State} {h : Nat} {us : List Nat} {p : StripePart}
    (appended : appendExtent s h us p = some t) : Joined s t p := by
  unfold appendExtent at appended
  extract_lets disk padded left at appended
  have joined {v : State} (hv : LogFrame s v)
      (e : appendUnits (2 * us.length + 2) v h us none { p with count := us.length } = some t) : Joined s t p :=
    have made := appendUnits_joined e
    .after hv ⟨made.frame, made.joins⟩
  split at appended
  · exact joined (.refl s) appended
  · have padded' : LogFrame s padded := by
      dsimp only [padded]
      split
      · exact (LogFrame.refl s).after_modOpen _ _ _ _
      · exact .refl s
    refine joined ?_ appended
    dsimp only [left]
    split
    · exact padded'.after_next _ _ _
    · exact padded'

/-! ## Abandoned stripes (R270) -/

namespace LogFrame

variable {s t : State}

theorem after_closeIfDone (h : LogFrame s t) (disk : Bool) (i : Nat) : LogFrame s (closeIfDone t disk i) := by
  unfold closeIfDone
  split
  · exact h.after_sealed disk i
  · exact h

theorem after_rejoin (h : LogFrame s t) (head : Nat) (units : List Nat) (ps : List StripePart) :
    LogFrame s (rejoin t head units ps) := by
  induction ps generalizing t with
  | nil => exact h
  | cons p ps ih =>
    unfold rejoin
    refine ih ?_
    split
    · exact h
    · dsimp only
      split
      case h_1 v appended => exact h.trans (appendGranule_joined appended).frame
      case h_2 =>
        split
        · exact h.after_modSlot _ _
        · exact h

theorem after_abandonStripe (h : LogFrame s t) (o : OpenStripe) : LogFrame s (abandonStripe t o) :=
  ((h.after_open _).after_rejoin _ _ _).after_closeIfDone _ _

end LogFrame

theorem closeIfDone_open (s : State) (disk : Bool) (i : Nat) : (closeIfDone s disk i).udc.open_ = s.udc.open_ := by
  unfold closeIfDone
  split <;> rfl

/-! ## Location updates (R271) -/

/-- From `s` to `t` only the mapping has changed, with the slots, the order and the records that go with it. -/
def MapsOnly (s t : State) : Prop := ∃ gr ex sl ag lg un,
  t = { s with udc := { s.udc with gran := gr, ext := ex, slots := sl, age := ag, log := lg, unsaved := un } }

namespace MapsOnly

variable {s t : State}

theorem refl (s : State) : MapsOnly s s := ⟨_, _, _, _, _, _, rfl⟩

theorem nv_eq (h : MapsOnly s t) : t.nv = s.nv := by
  obtain ⟨_, _, _, _, _, _, rfl⟩ := h
  rfl

theorem open_eq (h : MapsOnly s t) : t.udc.open_ = s.udc.open_ := by
  obtain ⟨_, _, _, _, _, _, rfl⟩ := h
  rfl

theorem after_setGran (h : MapsOnly s t) (a n g : Nat) (e : GranEntry) : MapsOnly s (setGran t a n g e) := by
  obtain ⟨_, _, _, _, _, _, rfl⟩ := h
  exact ⟨_, _, _, _, _, _, rfl⟩

theorem after_setExt (h : MapsOnly s t) (a n x : Nat) (e : Extent) : MapsOnly s (setExt t a n x e) := by
  obtain ⟨_, _, _, _, _, _, rfl⟩ := h
  exact ⟨_, _, _, _, _, _, rfl⟩

theorem after_aged (h : MapsOnly s t) : MapsOnly s (modUdc t fun u => { u with age := u.age + 1 }) := by
  obtain ⟨_, _, _, _, _, _, rfl⟩ := h
  exact ⟨_, _, _, _, _, _, rfl⟩

theorem after_rePrev (h : MapsOnly s t) (i : Nat) (e : GranEntry) : MapsOnly s (rePrev t i e) := by
  obtain ⟨_, _, _, _, _, _, rfl⟩ := h
  exact ⟨_, _, _, _, _, _, rfl⟩

theorem after_setEntry (h : MapsOnly s t) (a n pool g : Nat) (e : GranEntry) : MapsOnly s (setEntry t a n pool g e) := by
  unfold setEntry
  split
  · exact h.after_setGran _ _ _ _
  · dsimp only
    split
    · exact h.after_setGran _ _ _ _
    · split
      · exact (h.after_setExt _ _ _ _).after_setGran _ _ _ _
      · exact h.after_aged.after_setExt _ _ _ _

theorem after_setGrans {α : Type} (h : MapsOnly s t) (l : List α) (a n : Nat) (g : α → Nat) (e : α → GranEntry) :
    MapsOnly s (l.foldl (fun b x => setGran b a n (g x) (e x)) t) :=
  List.foldlRecOn (motive := MapsOnly s) _ _ h fun _ hv x _ => hv.after_setGran a n (g x) (e x)

theorem after_applyGran (h : MapsOnly s t) (disk : Bool) (i : Nat) (p : StripePart) :
    MapsOnly s (applyGran t disk i p).2 := by
  unfold applyGran
  split
  · exact h
  · dsimp only
    split
    · exact h.after_setEntry _ _ _ _ _
    · dsimp only
      split
      · exact h.after_rePrev _ _
      · exact h

theorem after_applyExt (h : MapsOnly s t) (i : Nat) (p : StripePart) : MapsOnly s (applyExt t i p) := by
  unfold applyExt
  extract_lets a n x base newer ovr cleared
  split
  · exact h
  · split
    · exact (h.after_setGrans _ _ _ _ _).after_setExt _ _ _ _
    · exact h.after_setExt _ _ _ _

theorem after_applyUp (h : MapsOnly s t) (p : StripePart) : MapsOnly s (applyUp t p) := by
  unfold applyUp
  extract_lets a n x ready moved
  split
  · exact h
  · exact (h.after_setGrans _ _ _ _ _).after_setExt _ _ _ _

end MapsOnly

/-- The update of one part, with whether its slot is now mapped. -/
def applyPart (s : State) (disk : Bool) (i : Nat) (p : StripePart) : Bool × State :=
  if p.what = 2 then (true, applyExt s i p)
  else if p.what = 3 then (true, setGran s p.id.tenant p.id.ns p.id.gran (partEntry disk i p))
  else if p.what = 4 then (true, applyUp s p)
  else applyGran s disk i p

theorem applyParts_cons (s : State) (disk : Bool) (i : Nat) (p : StripePart) (ps : List StripePart) :
    (applyParts s disk i (p :: ps)).2 = (applyParts (applyPart s disk i p).2 disk i ps).2 := rfl

theorem MapsOnly.after_applyParts {s t : State} (h : MapsOnly s t) (disk : Bool) (i : Nat) (ps : List StripePart) :
    MapsOnly s (applyParts t disk i ps).2 := by
  induction ps generalizing t with
  | nil => exact h
  | cons p ps ih =>
    rw [applyParts_cons]
    refine ih ?_
    unfold applyPart
    split
    · exact h.after_applyExt i p
    · split
      · exact h.after_setGran _ _ _ _
      · split
        · exact h.after_applyUp p
        · exact h.after_applyGran disk i p

/-! ## What Undercoat reports leave -/

theorem noteFull_unchanged (s : State) : Unchanged reportParts s (noteFull s) := by
  refine unchanged_foldl (fun b disk => ?_) _ s
  extract_lets f now told
  refine unchanged_trans (?_ : Unchanged reportParts b told) (unchanged_mono (fset_unchanged _ _ _) (by decide))
  dsimp only [told]
  split
  · exact dmkSend_unchanged b _ _
  · exact unchanged_refl _ b

theorem raise_unchanged (s : State) (src data : Nat) : Unchanged reportParts s (raise s src data) :=
  ((ReportFrame.refl s).after_raise src data).parts

/-! ## DESTAGE_TAKE (R264, R550) -/

/-- A slot's granule as its stripe holds it, once its four blocks are read. -/
def destagePart (i : Nat) (x : Slot) (bs : List Nat) : StripePart :=
  { id := x.id, clen := x.clen, gen := x.gen, seqTag := x.tags.foldl max 0, blocks := bs, slot := some i
    expect := { kind := 2, clen := x.clen, gen := x.gen, slot := i } }

/-- The units of a slot's granule. -/
def destageUnits (x : Slot) (bs : List Nat) : List Nat := granUnits bs x.id 0 x.clen x.gen x.tags

/-- A granule takes at most four units. -/
theorem destageUnits_length_le (x : Slot) {bs : List Nat} (hbs : bs.length = 4) : (destageUnits x bs).length ≤ 4 := by
  unfold destageUnits granUnits
  dsimp only
  split
  · rw [List.length_map, List.length_zipIdx, hbs]
  · rw [List.length_map, List.length_range]
    exact Nat.sub_le 4 _

/-- The granule has joined its stripe and its slot is being destaged. -/
def destaged (s : State) (i : Nat) (x : Slot) (bs : List Nat) (o : OpenStripe) : State :=
  modSlot (modOpen s (headDisk 0) o.seg o.stripe fun q => q.add (destageUnits x bs) (destagePart i x bs) s.tb.ns) i
    fun x => { x with state := 3 }

theorem exec_destageTake {s : State} {i : Nat} {x : Slot} {bs : List Nat} {o : OpenStripe} {bad : List BadBlock}
    (oldest : oldestDirty s = some (i, x)) (hpool : poolOf s x.id = some 0)
    (hread : granBlocks s { kind := 2, slot := i } x.id.gran bad = .ok bs) (filling : fillingStripe s 0 = some o)
    (room : (destageUnits x bs).length ≤ o.room) : exec (.destageTake bad) s = .next (destaged s i x bs o) := by
  have harm : exec (.destageTake bad) s = execDestageTake bad s := rfl
  have joins := appendGranule_fits (destagePart i x bs) filling room
  have head : destageHead s x.id 0 = 0 := if_pos rfl
  simp only [destageUnits, destagePart] at joins
  simp only [harm, execDestageTake, oldest, hpool, hread, head, joins]
  rfl

theorem destaged_moves {s : State} {o : OpenStripe} (filling : fillingStripe s 0 = some o) (i : Nat) (x : Slot)
    (bs : List Nat) : (getSlot (destaged s i x bs o) i).state = 3 ∧ (getSlot (destaged s i x bs o) i).id = (getSlot s i).id ∧
      (∀ k, k ≠ i → getSlot (destaged s i x bs o) k = getSlot s k) ∧
      (∃ q ∈ (destaged s i x bs o).udc.open_, q.head = 0 ∧ q.seg = o.seg ∧ q.stripe = o.stripe ∧
        q.units.length = o.units.length + (destageUnits x bs).length ∧
        ∃ p ∈ q.parts, p.id = x.id ∧ p.slot = some i ∧ p.blocks = bs) ∧
      (destaged s i x bs o).udc.gran = s.udc.gran ∧ Unchanged [.udc] s (destaged s i x bs o) := by
  obtain ⟨mem, head⟩ := fillingStripe_found filling
  refine ⟨?_, ?_, fun k hk => ?_, ?_, rfl, unchanged_trans (modUdc_unchanged s _) (modSlot_unchanged _ i _)⟩
  · rw [destaged, getSlot_modSlot, if_pos rfl]
  · rw [destaged, getSlot_modSlot, if_pos rfl]
    rfl
  · rw [destaged, getSlot_modSlot, if_neg hk]
    rfl
  · have joined := mem_open_modOpen mem fun q => q.add (destageUnits x bs) (destagePart i x bs) s.tb.ns
    rw [head] at joined
    refine ⟨_, joined, head, rfl, rfl, ?_, _, List.mem_append_right _ List.mem_cons_self, rfl, rfl, rfl⟩
    simp [OpenStripe.add]

/-! ## Sealing (R266, R269, R270, R272) -/

/-- The stripe is on media and no longer open; its updates are still to be applied. -/
def stripeWritten (s : State) (o : OpenStripe) : State :=
  modUdc (modStripe s (headDisk o.head) o.seg o.stripe fun _ => writeStripe s o) fun u =>
    { u with open_ := u.open_.filter (· != o) }

/-- Sealing applies updates, lists the slots they free, and closes a segment that is done. -/
theorem sealStripe_eq (s : State) (o : OpenStripe) : ∃ v waiting ready, MapsOnly (stripeWritten s o) v ∧
    sealStripe s o = noteFull (closeIfDone (modUdc v fun u => { u with release := waiting, releaseReady := ready })
      (headDisk o.head) o.seg) :=
  ⟨_, _, _, (MapsOnly.refl _).after_applyParts _ _ _, rfl⟩

/-- What is on media, and what is open, once a stripe is sealed. -/
theorem sealStripe_writes (s : State) (o : OpenStripe) :
    (sealStripe s o).nv = (stripeWritten s o).nv ∧ (sealStripe s o).udc.open_ = s.udc.open_.filter (· != o) := by
  obtain ⟨v, waiting, ready, applied, same⟩ := sealStripe_eq s o
  have full := noteFull_unchanged (closeIfDone (modUdc v fun u => { u with release := waiting, releaseReady := ready })
    (headDisk o.head) o.seg)
  have closed := (LogFrame.refl (modUdc v fun u => { u with release := waiting, releaseReady := ready })).after_closeIfDone
    (headDisk o.head) o.seg
  rw [same, full .nv (by decide), full .udc (by decide), closed.nv_eq, closeIfDone_open]
  exact ⟨applied.nv_eq, applied.open_eq⟩

/-- A sealed stripe reads as it was written, and every other one as before. -/
theorem getStripe_sealStripe (s : State) (o : OpenStripe) (disk : Bool) (i k : Nat) : getStripe (sealStripe s o) disk i k =
    if stripeKey disk i k = stripeKey (headDisk o.head) o.seg o.stripe then writeStripe s o else getStripe s disk i k := by
  rw [getStripe_congr (sealStripe_writes s o).1]
  exact getStripe_modStripe s _ _ _ _ _ _ _

section sealing

variable {s : State} {disk : Bool} {seg k : Nat} {o : OpenStripe} (found : findOpen s disk seg k = some o)

include found

theorem exec_stripeSeal (full : o.full = true) (first : (headOpen s o.head).head? = some o) (ok : Bool) :
    exec (.stripeSeal disk seg k ok) s = .next (if ok then sealStripe s o else raise (abandonStripe s o) 0xA04) := by
  have harm : exec (.stripeSeal disk seg k ok) s = execStripeSeal disk seg k ok s := rfl
  rw [harm]
  cases ok <;> simp [execStripeSeal, found, full, first]

theorem stripeSeal_seals (full : o.full = true) (first : (headOpen s o.head).head? = some o) :
    ∃ t, exec (.stripeSeal disk seg k true) s = .next t ∧
      (getStripe t disk seg k).data = o.units ∧ (getStripe t disk seg k).members = (getSeg s disk seg).members ∧
      (getStripe t disk seg k).parts = o.parts ∧ (getStripe t disk seg k).sealed_ = true ∧
      (∀ d g n, stripeKey d g n ≠ stripeKey disk seg k → getStripe t d g n = getStripe s d g n) ∧ o ∉ t.udc.open_ := by
  have run := exec_stripeSeal found full first true
  obtain ⟨rfl, rfl, rfl, -⟩ := findOpen_found found
  refine ⟨_, run, ?_⟩
  rw [if_pos rfl, getStripe_sealStripe, if_pos rfl, (sealStripe_writes s o).2]
  exact ⟨rfl, rfl, rfl, rfl, fun d g n apart => (getStripe_sealStripe s o d g n).trans (if_neg apart), by simp⟩

/-- R273: a parity mismatch abandons the stripe. -/
theorem stripeSeal_mismatch (full : o.full = true) (first : (headOpen s o.head).head? = some o) :
    ∃ t, exec (.stripeSeal disk seg k false) s = .next t ∧ t.nv = s.nv ∧ t.udc.gran = s.udc.gran ∧
      t.udc.ext = s.udc.ext := by
  refine ⟨_, exec_stripeSeal found full first false, ?_⟩
  have abandoned := (LogFrame.refl s).after_abandonStripe o
  have told := raise_unchanged (abandonStripe s o) 0xA04 0
  have udc := told .udc (by decide)
  exact ⟨(told .nv (by decide)).trans abandoned.nv_eq, (congrArg Undercoat.gran udc).trans abandoned.gran_eq,
    (congrArg Undercoat.ext udc).trans abandoned.ext_eq⟩

/-- The stripe padded where it stands open. -/
def stripePadded (s : State) (o : OpenStripe) : State :=
  modUdc s fun u => { u with open_ := u.open_.map fun q => if q = o then o.pad else q }

theorem exec_sealTimeout (filling : o.full = false) (units : o.units ≠ [])
    (past : o.lastNs + (image s).pools.sealTmo * 1000 ≤ s.tb.ns) (first : (headOpen s o.head).head? = some o) :
    exec (.sealTimeout disk seg k) s = .next (sealStripe (stripePadded s o) o.pad) := by
  have harm : exec (.sealTimeout disk seg k) s = execSealTimeout disk seg k s := rfl
  rw [harm]
  simp [execSealTimeout, stripePadded, found, filling, units, past, first]

theorem sealTimeout_seals (filling : o.full = false) (units : o.units ≠ [])
    (past : o.lastNs + (image s).pools.sealTmo * 1000 ≤ s.tb.ns) (first : (headOpen s o.head).head? = some o) :
    ∃ t, exec (.sealTimeout disk seg k) s = .next t ∧
      (getStripe t disk seg k).data = o.units ++ List.replicate o.room padUnit ∧
      (getStripe t disk seg k).parts = o.parts ∧
      ∀ d g n, stripeKey d g n ≠ stripeKey disk seg k → getStripe t d g n = getStripe s d g n := by
  have run := exec_sealTimeout found filling units past first
  obtain ⟨rfl, rfl, rfl, -⟩ := findOpen_found found
  have reads := getStripe_sealStripe (stripePadded s o) o.pad
  have here : getStripe (sealStripe (stripePadded s o) o.pad) (headDisk o.head) o.seg o.stripe =
      writeStripe (stripePadded s o) o.pad := (reads _ _ _).trans (if_pos rfl)
  exact ⟨_, run, congrArg StripeRec.data here, congrArg StripeRec.parts here,
    fun d g n apart => (reads d g n).trans (if_neg apart)⟩

/-! ## STRIP_WRITE_FAIL (R258, R270) -/

theorem exec_stripWriteFail {m : Nat} (member : (getSeg s disk seg).members.contains m = true) :
    exec (.stripWriteFail disk seg k m) s = .next (abandonStripe (chargeMember s disk m (seg % 2)) o) := by
  have harm : exec (.stripWriteFail disk seg k m) s = execStripWriteFail disk seg k m s := rfl
  rw [harm, execStripWriteFail, found]
  exact if_pos member

theorem stripWriteFail_charges {m : Nat} (member : (getSeg s disk seg).members.contains m = true) (hm : m < 64) :
    ∃ t, exec (.stripWriteFail disk seg k m) s = .next t ∧ t.nv = s.nv ∧
      tget 0 t.udc.mediaErr (m + b2n disk * 64 + b2n (disk && seg % 2 == 1) * 128) =
        tget 0 s.udc.mediaErr (m + b2n disk * 64 + b2n (disk && seg % 2 == 1) * 128) + 1 := by
  refine ⟨_, exec_stripWriteFail found member, ?_⟩
  have abandoned := (LogFrame.refl (chargeMember s disk m (seg % 2))).after_abandonStripe o
  have charged := dmkSend_unchanged (modUdc s fun u => { u with
    mediaErr := tmod 0 u.mediaErr (m % 64 + b2n disk * 64 + b2n (disk && seg % 2 == 1) * 128) (· + 1) }) 0x0A0A
    (m % 64 + b2n disk * 64 + b2n (disk && seg % 2 == 1) * 128)
  refine ⟨abandoned.nv_eq.trans (charged .nv (by decide)), ?_⟩
  rw [abandoned.mediaErr_eq, chargeMember, charged .udc (by decide), Nat.mod_eq_of_lt hm]
  exact (tget_tmod _ _ _ _ _).trans (if_pos rfl)

end sealing

/-! ## MIRROR_RELEASE (R266, R473) -/

theorem getSlot_freeSlots (is : List Nat) (s : State) (j : Nat) :
    getSlot (is.foldl freeSlot s) j = if j ∈ is then {} else getSlot s j := by
  induction is generalizing s with
  | nil => rfl
  | cons i is ih =>
    rw [List.foldl_cons, ih, freeSlot, getSlot_modSlot]
    by_cases hj : j = i
    · simp [hj]
    · simp [hj]

theorem freeSlots_slotsOnly (is : List Nat) (s : State) : SlotsOnly s (is.foldl freeSlot s) :=
  List.foldlRecOn (motive := SlotsOnly s) _ _ ⟨_, _, rfl⟩ fun _ ht i _ => ht.modSlot i _

/-- Beside the slots freed a release reaches Ozper alone. -/
theorem releaseSlots_frees (s : State) (is : List Nat) :
    Unchanged [.ozp, .out] (is.foldl freeSlot s) (releaseSlots s is) := by
  unfold releaseSlots
  dsimp only
  split
  · exact sendRelease_unchanged _ _ _
  · exact unchanged_refl _ _

theorem exec_mirrorRelease {s : State} {k : Nat} {is : List Nat} {rest : List (Nat × List Nat)}
    (ready : s.udc.releaseReady = (k, is) :: rest) :
    exec .mirrorRelease s = .next (releaseSlots (modUdc s fun u => { u with releaseReady := rest }) is) := by
  have harm : exec .mirrorRelease s = execMirrorRelease s := rfl
  rw [harm, execMirrorRelease, ready]

theorem mirrorRelease_frees {s : State} {k : Nat} {is : List Nat} {rest : List (Nat × List Nat)}
    (ready : s.udc.releaseReady = (k, is) :: rest) :
    ∃ t, exec .mirrorRelease s = .next t ∧ t.udc.releaseReady = rest ∧ (∀ i ∈ is, getSlot t i = {}) ∧
      (∀ i, i ∉ is → getSlot t i = getSlot s i) ∧ t.udc.gran = s.udc.gran ∧ t.nv = s.nv := by
  refine ⟨_, exec_mirrorRelease ready, ?_⟩
  generalize hv : modUdc s (fun u => { u with releaseReady := rest }) = v
  have told := releaseSlots_frees v is
  have udc := told .udc (by decide)
  have freed := freeSlots_slotsOnly is v
  have slots (j : Nat) : getSlot (releaseSlots v is) j = if j ∈ is then {} else getSlot s j := by
    rw [getSlot_congr (congrArg Undercoat.slots udc), getSlot_freeSlots, ← hv]
    rfl
  have left : (is.foldl freeSlot v).udc.releaseReady = rest := by
    obtain ⟨sl, ag, same⟩ := freed
    rw [same, ← hv]
    rfl
  have gran : v.udc.gran = s.udc.gran := hv ▸ rfl
  have nv : v.nv = s.nv := hv ▸ rfl
  exact ⟨(congrArg Undercoat.releaseReady udc).trans left, fun i hi => (slots i).trans (if_pos hi),
    fun i hi => (slots i).trans (if_neg hi), (congrArg Undercoat.gran udc).trans (freed.gran.trans gran),
    (told .nv (by decide)).trans ((freed.unchanged .nv (by decide)).trans nv)⟩

/-! ## SEGMENT_ERASE (R252, R279) -/

theorem modRow_unchanged (s : State) (c lun row : Nat) (f : FlashRow → FlashRow) :
    Unchanged [.nv] s (modRow s c lun row f) := setNv_unchanged s _

/-- Erased rows stand in the row table alone. -/
theorem eraseRows_unchanged (s : State) (i : Nat) (members : List Nat) : Unchanged [.nv] s (eraseRows s i members) := by
  refine unchanged_foldl (fun b c => ?_) _ s
  split
  · exact modRow_unchanged b _ _ _ _
  · exact unchanged_refl _ b

/-- The segment's rows erased, its stripes gone from media; its record is still to go. -/
def segmentEmptied (s : State) (disk : Bool) (i : Nat) : State :=
  modUdc (modPools (if disk then s else eraseRows s i ((getSeg s disk i).members.filter (memberServes s false i)))
    fun p => { p with stripes := p.stripes.filter fun e => !(e.1 % 2 == b2n disk && e.1 / 2 / 8192 == i) })
    fun u => { u with eraseReady := u.eraseReady.filter (· != segKey disk i) }

theorem exec_segmentErase {s : State} {disk : Bool} {i : Nat} (ready : s.udc.eraseReady.contains (segKey disk i) = true) :
    exec (.segmentErase disk i) s = .next (noteFull (modSeg (segmentEmptied s disk i) disk i fun _ => {})) := by
  have harm : exec (.segmentErase disk i) s = execSegmentErase disk i s := rfl
  rw [harm]
  exact if_pos ready

/-- Of Undercoat an emptied segment touches the list of those ready alone. -/
theorem segmentEmptied_keeps (s : State) (disk : Bool) (i : Nat) :
    (segmentEmptied s disk i).udc.segs = s.udc.segs ∧ (segmentEmptied s disk i).udc.gran = s.udc.gran ∧
      (segmentEmptied s disk i).udc.ext = s.udc.ext ∧
      (segmentEmptied s disk i).udc.eraseReady = s.udc.eraseReady.filter (· != segKey disk i) := by
  have rows : (if disk then s
      else eraseRows s i ((getSeg s disk i).members.filter (memberServes s false i))).udc = s.udc := by
    split
    · rfl
    · exact eraseRows_unchanged s i _ .udc (by decide)
  rw [← rows]
  exact ⟨rfl, rfl, rfl, rfl⟩

theorem segmentErase_frees {s : State} {disk : Bool} {i : Nat} (ready : s.udc.eraseReady.contains (segKey disk i) = true) :
    ∃ t, exec (.segmentErase disk i) s = .next t ∧ getSeg t disk i = {} ∧
      (∀ e ∈ t.nv.pools.stripes, ¬(e.1 % 2 = b2n disk ∧ e.1 / 2 / 8192 = i)) ∧
      segKey disk i ∉ t.udc.eraseReady ∧ (∀ d g, segKey d g ≠ segKey disk i → getSeg t d g = getSeg s d g) ∧
      t.udc.gran = s.udc.gran ∧ t.udc.ext = s.udc.ext := by
  refine ⟨_, exec_segmentErase ready, ?_⟩
  have told := noteFull_unchanged (modSeg (segmentEmptied s disk i) disk i fun _ => {})
  have udc := told .udc (by decide)
  obtain ⟨segs, gran, ext, left⟩ := segmentEmptied_keeps s disk i
  have record (d : Bool) (g : Nat) : getSeg (noteFull (modSeg (segmentEmptied s disk i) disk i fun _ => {})) d g =
      if segKey d g = segKey disk i then {} else getSeg s d g := by
    rw [getSeg_congr (congrArg Undercoat.segs udc), getSeg_modSeg, getSeg_congr segs]
  refine ⟨(record disk i).trans (if_pos rfl), fun e he => ?_, ?_, fun d g apart => (record d g).trans (if_neg apart),
    (congrArg Undercoat.gran udc).trans gran, (congrArg Undercoat.ext udc).trans ext⟩
  · rw [told .nv (by decide)] at he
    have kept := (List.mem_filter.mp he).2
    rintro ⟨medium, number⟩
    simp [medium, number] at kept
  · rw [(congrArg Undercoat.eraseReady udc).trans left]
    simp

/-! ## The statement on destage and sealing -/

/-- Settles O37, command by command. -/
theorem destageAndSeal : Obligations.DestageAndSeal := by
  unfold Obligations.DestageAndSeal
  refine ⟨fun s i x bs o bad oldest hpool hread hbs filling room => ?take,
    fun s disk seg k o found full first => ⟨stripeSeal_seals found full first, stripeSeal_mismatch found full first⟩,
    fun s disk seg k o found filling units past first => sealTimeout_seals found filling units past first,
    fun s disk seg k m o found member hm => stripWriteFail_charges found member hm,
    fun s k is rest ready => mirrorRelease_frees ready, fun s disk seg ready => segmentErase_frees ready⟩
  case take =>
    exact ⟨_, exec_destageTake oldest hpool hread filling ((destageUnits_length_le x hbs).trans room),
      destaged_moves filling i x bs⟩

end Sys2Proof.Laws
end

section
/-!
PROOFS. The statement of 09_log_and_undercoat.md on members that leave, rebuild, garbage collection, extent destage, Settling
and lost DRAM channels (R274, R275, R277, R278, R281, R283, R290). In front of it stand the marks of lost strips, what a
relocation leaves on media, and that a rewritten extent is moving (`extentMoving_of_joined`).
-/

namespace Sys2Proof.Laws

open Sys2Proof.Machine

/-! ## Members that leave (R249, R274) -/

theorem noteRebuild_unchanged (s : State) : Unchanged reportParts s (noteRebuild s) := by
  unfold noteRebuild
  extract_lets segs one two
  have counted : Unchanged reportParts s two :=
    unchanged_mono (unchanged_trans (fset_unchanged s _ _) (fset_unchanged one _ _)) (by decide)
  have told (x code k : Nat) (b : Bool) :
      Unchanged reportParts s (setReduction (dmkSend (fset two UDC_STATUS_REBUILD x) code 0) k b) :=
    unchanged_trans counted (unchanged_trans (unchanged_mono (fset_unchanged two _ _) (by decide))
      (unchanged_trans (dmkSend_unchanged _ _ _) (unchanged_mono (setReduction_unchanged _ _ _) (by decide))))
  split
  · split
    · exact told _ _ _ _
    · exact counted
  · split
    · exact told _ _ _ _
    · exact counted

theorem noteNarrow_unchanged (s : State) : Unchanged reportParts s (noteNarrow s) := by
  refine unchanged_foldl (fun b disk => ?_) _ s
  extract_lets f members now shown
  have shown' : Unchanged reportParts b shown := unchanged_mono (fset_unchanged b _ _) (by decide)
  split
  · exact unchanged_trans shown' (raise_unchanged shown _ _)
  · exact shown'

theorem showGeom_unchanged (s : State) : Unchanged [.regs] s (showGeom s) := by
  have inService (now old : Nat) : Unchanged [.regs] s ((List.range 32).foldl (fun s c => fsetBit s UDC_FINSV_MASK c
      ((now / 2 ^ c % 2 == 1 || old / 2 ^ c % 2 == 1) && chanServes s c)) s) :=
    unchanged_foldl (fun b c => fsetBit_unchanged b _ _ _) _ s
  exact unchanged_trans (inService _ _) (unchanged_trans (unchanged_trans (fset_unchanged _ _ _) (fset_unchanged _ _ _))
    (unchanged_trans (fset_unchanged _ _ _) (fset_unchanged _ _ _)))

theorem LogFrame.after_closeSegment {s t : State} (h : LogFrame s t) (disk : Bool) (i : Nat) :
    LogFrame s (closeSegment t disk i) :=
  List.foldlRecOn (motive := LogFrame s) _ _ (h.after_sealed disk i) fun _ hv o _ => hv.after_abandonStripe o

/-- A segment loses no strip where the member has none, or lost it before; else its record takes the mark, and the rest of
the loss stands on media. -/
theorem loseStrips_eq (s : State) (disk : Bool) (i m : Nat) :
    (loseStrips s disk i m = s ∧ (m ∈ (getSeg s disk i).lost ∨ m ∉ (getSeg s disk i).members)) ∨
      (loseStrips s disk i m).udc = (modSeg s disk i fun r => { r with lost := r.lost ++ [m] }).udc := by
  unfold loseStrips
  extract_lets r marked
  split
  case h_1 absent =>
    refine .inl ⟨rfl, .inr fun member => ?_⟩
    simpa using List.findIdx?_eq_none_iff.mp absent m member
  case h_2 =>
    split
    case isTrue before => exact .inl ⟨rfl, .inl (List.contains_iff_mem.mp before)⟩
    case isFalse =>
      exact .inr (unchanged_foldl (parts := [.nv]) (fun b e => modPools_unchanged b _) _ marked .udc (by decide))

theorem loseStrips_keeps (s : State) (disk : Bool) (i m : Nat) : SegsKept s (loseStrips s disk i m) := by
  rcases loseStrips_eq s disk i m with ⟨same, -⟩ | marked
  · exact .of_segs (by rw [same])
  · have lost : SegsKept s (modSeg s disk i fun r => { r with lost := r.lost ++ [m] }) :=
      .modSeg fun used => ⟨used, rfl, List.subset_append_left _ _⟩
    exact lost.trans (.of_segs (by rw [marked]))

/-- A member of a segment that loses its strips is marked lost there. -/
theorem loseStrips_marks {s : State} {disk : Bool} {i m : Nat} (member : (getSeg s disk i).members.contains m = true) :
    m ∈ (getSeg (loseStrips s disk i m) disk i).lost := by
  rcases loseStrips_eq s disk i m with ⟨same, before | absent⟩ | marked
  · rw [same]
    exact before
  · exact absurd (List.contains_iff_mem.mp member) absent
  · rw [getSeg_congr (congrArg Undercoat.segs marked), getSeg_modSeg, if_pos rfl]
    exact List.mem_append_right _ List.mem_cons_self

theorem loseStrips_foldl_keeps (s : State) (disk : Bool) (m : Nat) (l : List Nat) :
    SegsKept s (l.foldl (fun b j => loseStrips b disk j m) s) :=
  List.foldlRecOn (motive := SegsKept s) _ _ (.of_segs rfl) fun _ hv j _ => hv.trans (loseStrips_keeps _ disk j m)

theorem loseStrips_foldl_marks {disk : Bool} {i m : Nat} {l : List Nat} (mem : i ∈ l) {s : State}
    (used : (getSeg s disk i).state ≠ 0) (member : (getSeg s disk i).members.contains m = true) :
    m ∈ (getSeg (l.foldl (fun b j => loseStrips b disk j m) s) disk i).lost := by
  induction l generalizing s with
  | nil => exact absurd mem List.not_mem_nil
  | cons j l ih =>
    obtain ⟨used', members, -⟩ := loseStrips_keeps s disk j m disk i used
    rcases List.mem_cons.mp mem with rfl | mem
    · obtain ⟨-, -, lost⟩ := loseStrips_foldl_keeps _ disk m l disk i used'
      exact lost (loseStrips_marks member)
    · exact ih mem used' (members ▸ member)

theorem segKey_parts (disk : Bool) (i : Nat) : segKey disk i % 2 = b2n disk ∧ segKey disk i / 2 = i := by
  have bit : b2n disk < 2 := by cases disk <;> decide
  rw [segKey]
  omega

/-- A segment in use is listed. -/
theorem segs_listed {s : State} {disk : Bool} {i : Nat} (used : (getSeg s disk i).state ≠ 0) :
    (segKey disk i, getSeg s disk i) ∈ s.udc.segs := mem_of_tget_ne fun blank => used (congrArg SegRec.state blank)

/-- A segment in use that names the member is among those hit, and keeps the mark through what follows. -/
theorem memberGone_marks {s : State} {disk : Bool} {m i : Nat} (used : (getSeg s disk i).state ≠ 0)
    (member : (getSeg s disk i).members.contains m = true) : m ∈ (getSeg (memberGone s disk m none) disk i).lost ∧
      (getSeg (memberGone s disk m none) disk i).members = (getSeg s disk i).members := by
  unfold memberGone
  extract_lets hit out shown closed marked
  have hits : i ∈ hit := by
    obtain ⟨medium, number⟩ := segKey_parts disk i
    refine List.mem_map.mpr ⟨_, List.mem_filter.mpr ⟨segs_listed used, ?_⟩, number⟩
    simp [medium, used, List.contains_iff_mem.mp member]
  have out' : Unchanged [.regs] s out := by
    dsimp only [out]
    split
    · refine unchanged_foldl (fun b side => ?_) _ s
      split
      · exact fsetBit_unchanged b _ _ _
      · exact unchanged_refl _ b
    · exact unchanged_refl _ s
  have shown' : SegsKept s shown := .of_segs (congrArg Undercoat.segs
    ((unchanged_trans out' (showGeom_unchanged out)) .udc (by decide)))
  have closed' : LogFrame shown closed := by
    refine List.foldlRecOn (motive := LogFrame shown) _ _ (.refl shown) fun b hb j _ => ?_
    split
    · exact hb.after_closeSegment disk j
    · exact hb
  obtain ⟨used', members, -⟩ := (shown'.trans closed'.segs) disk i used
  have told : Unchanged (.tenants :: reportParts) marked (recomputeFloors (noteFull (noteNarrow (noteRebuild marked)))) :=
    unchanged_trans (unchanged_mono (unchanged_trans (noteRebuild_unchanged marked)
      (unchanged_trans (noteNarrow_unchanged _) (noteFull_unchanged _))) (by decide)) (recomputeFloors_unchanged _)
  rw [getSeg_congr (congrArg Undercoat.segs (told .udc (by decide)))]
  obtain ⟨-, members', -⟩ := loseStrips_foldl_keeps closed disk m hit disk i used'
  exact ⟨loseStrips_foldl_marks hits used' (members ▸ member), members'.trans members⟩

theorem exec_memberRetire {m : Nat} (hm : m < 32) (s : State) (disk : Bool) (sub : Option Nat) :
    exec (.memberRetire disk m sub) s = .next (memberGone s disk m sub) := by
  have harm : exec (.memberRetire disk m sub) s = execMemberRetire disk m sub s := rfl
  rw [harm]
  exact if_pos hm

/-! ## Relocation (R274, R277, R278) -/

/-- A granule marked LOST leaves the stripes on media. -/
theorem markLost_stripes (s : State) (id : GranId) (pool : Nat) :
    (markLost s id pool).nv.pools.stripes = s.nv.pools.stripes := by
  unfold markLost
  extract_lets e data placed counted
  split
  · rfl
  · have told : Unchanged reportParts counted (raise (dmkSend counted 0x0A06 data) 0xA01 data) :=
      unchanged_trans (dmkSend_unchanged counted _ _) (raise_unchanged _ _ _)
    have placed' : placed.nv = s.nv := setEntry_unchanged s _ _ _ _ _ .nv (by decide)
    calc (raise (dmkSend counted 0x0A06 data) 0xA01 data).nv.pools.stripes
      _ = counted.nv.pools.stripes := by rw [told .nv (by decide)]
      _ = placed.nv.pools.stripes := rfl
      _ = s.nv.pools.stripes := by rw [placed']

theorem moveGran_stripes {s t : State} {disk : Bool} {i : Nat} {p : StripePart} {bad : List BadBlock}
    (moved : moveGran s disk i p bad = .done t) : t.nv.pools.stripes = s.nv.pools.stripes := by
  unfold moveGran at moved
  split at moved
  · cases moved
    rfl
  · dsimp only at moved
    split at moved
    · cases moved
      rfl
    · split at moved
      · cases moved
        exact markLost_stripes s _ _
      · cases moved
      · split at moved
        case h_1 appended =>
          cases moved
          rw [(appendGranule_joined appended).frame.nv_eq]
        case h_2 => cases moved

theorem moveExt_stripes {s t : State} {i : Nat} {p : StripePart} {bad : List BadBlock}
    (moved : moveExt s i p bad = .done t) : t.nv.pools.stripes = s.nv.pools.stripes := by
  unfold moveExt at moved
  split at moved
  · cases moved
    rfl
  · extract_lets x one rs us lost owner marked y at moved
    have marked' : marked.nv.pools.stripes = s.nv.pools.stripes :=
      List.foldlRecOn (motive := fun v : State => v.nv.pools.stripes = s.nv.pools.stripes) _ _ rfl
        fun v hv j _ => (markLost_stripes v _ _).trans hv
    split at moved
    · cases moved
    · split at moved
      case h_1 appended =>
        cases moved
        rw [(appendExtent_joined appended).frame.nv_eq, marked']
      case h_2 => cases moved

theorem moveParts_stripes {s t : State} {disk : Bool} {i : Nat} {bad : List BadBlock} {ps : List StripePart}
    (moved : moveParts s disk i bad ps = .done t) : t.nv.pools.stripes = s.nv.pools.stripes := by
  induction ps generalizing s with
  | nil =>
    cases moved
    rfl
  | cons p ps ih =>
    unfold moveParts at moved
    split at moved
    case h_1 => cases moved
    case h_2 v one =>
      refine (ih moved).trans ?_
      split at one
      · exact moveExt_stripes one
      · split at one
        · cases one
          rfl
        · exact moveGran_stripes one

/-- A relocated segment waits for its erase; the stripes on media stay. -/
theorem relocate_queues {s t : State} {disk : Bool} {i : Nat} {bad : List BadBlock}
    (moved : relocate s disk i bad = some t) :
    segKey disk i ∈ t.udc.erase ∧ t.nv.pools.stripes = s.nv.pools.stripes := by
  unfold relocate at moved
  split at moved
  case h_1 => cases moved
  case h_2 v parts =>
    cases moved
    have stripes := moveParts_stripes parts
    exact ⟨List.mem_append_right _ List.mem_cons_self, stripes⟩

/-- A report after a relocation leaves the queue and the media. -/
theorem relocated_reported {s u t : State} {disk : Bool} {i : Nat} {bad : List BadBlock}
    (moved : relocate s disk i bad = some u) (told : Unchanged reportParts u t) :
    segKey disk i ∈ t.udc.erase ∧ t.nv.pools.stripes = s.nv.pools.stripes := by
  rw [told .udc (by decide), told .nv (by decide)]
  exact relocate_queues moved

theorem exec_rebuildVisit {s u : State} {disk : Bool} {i : Nat} {bad : List BadBlock} (next : rebuildNext s disk = some i)
    (named : prevIn s disk i = false) (moved : relocate s disk i bad = some u) :
    exec (.rebuildVisit disk bad) s = .next (noteRebuild u) := by
  have harm : exec (.rebuildVisit disk bad) s = execRebuildVisit disk bad s := rfl
  simp [harm, execRebuildVisit, next, named, moved]

theorem exec_gcCollect {s u : State} {disk : Bool} {i : Nat} {bad : List BadBlock} (runs : gcRuns s disk = true)
    (next : gcNext s disk = some i) (moved : relocate s disk i bad = some u) :
    exec (.gcCollect disk bad) s = .next (noteFull u) := by
  have harm : exec (.gcCollect disk bad) s = execGcCollect disk bad s := rfl
  simp [harm, execGcCollect, runs, next, moved]

/-! ## Extents that move (R281 to R283) -/

/-- An extent whose part joined an open stripe is moving. -/
theorem extentMoving_of_joins {t : State} {p : StripePart} (hwhat : 2 ≤ p.what)
    (joins : ∃ o ∈ t.udc.open_, ∃ q ∈ o.parts, q.id = p.id ∧ q.what = p.what) : extentMoving t p.id = true := by
  obtain ⟨o, ho, q, hq, hid, hkind⟩ := joins
  refine List.any_eq_true.mpr ⟨o, ho, List.any_eq_true.mpr ⟨q, hq, ?_⟩⟩
  simp [hid, hkind, hwhat]

theorem extentMoving_rewriteExtent {s t : State} {h pool : Nat} {id : GranId} {clens : List Nat} {bad : List BadBlock}
    (rewritten : rewriteExtent s h id pool clens bad = some t) : extentMoving t id = true := by
  unfold rewriteExtent at rewritten
  extract_lets comp ps bad? qs us at rewritten
  split at rewritten
  · cases rewritten
  · exact extentMoving_of_joins (Nat.le_refl 2) (appendExtent_joined rewritten).joins

theorem extentMoving_moveUp {s t : State} {pool : Nat} {id : GranId} {bad : List BadBlock}
    (moved : moveUp s id pool bad = some t) : extentMoving t id = true := by
  unfold moveUp at moved
  extract_lets ents s0 grans at moved
  obtain ⟨v, -, appended⟩ := Option.bind_eq_some_iff.mp moved
  exact extentMoving_of_joins (by decide : 2 ≤ 4) (appendGranule_joined appended).joins

theorem exec_extentDestage {s u : State} {n k x pool : Nat} {id : GranId} {clens : List Nat} {bad : List BadBlock}
    (named : extentId s n k x = some (id, pool)) (hpool : 0 < pool) (hkind : (getExt s n k x).kind ≠ 2)
    (due : extentDue s (getExt s n k x) = true) (still : extentMoving s id = false)
    (rewritten : rewriteExtent (markUnreadable s id pool bad) 3 id pool clens bad = some u) :
    exec (.extentDestage n k x clens bad) s = .next u := by
  have harm : exec (.extentDestage n k x clens bad) s = execExtentDestage n k x clens bad s := rfl
  simp [harm, execExtentDestage, named, Nat.ne_of_gt hpool, hkind, due, still, rewritten]

/-- Settling as SETTLING_MOVE judges it: it begins above SETTLE_HI and goes on above SETTLE_LO. -/
def settlingJudged (s : State) : State := modUdc s fun u =>
  { u with settling := shareAbove s (image s).pools.settleHi || (u.settling && shareAbove s (image s).pools.settleLo) }

/-- SETTLING_MOVE of a hybrid extent that is not moving. -/
theorem exec_settlingMove {s : State} {n k x : Nat} {id : GranId} (up : Bool) (clens : List Nat) (bad : List BadBlock)
    (named : extentId s n k x = some (id, 2)) (still : extentMoving s id = false) :
    exec (.settlingMove n k x up clens bad) s =
      if up then
        if (getExt s n k x).kind = 1 && (image s).pools.hotT ≤ (getExt s n k x).heat &&
            !shareAbove s (image s).pools.settleHi && shareHasRoom s then
          .next ((moveUp (settlingJudged s) id 2 bad).getD (settlingJudged s))
        else .next (settlingJudged s)
      else if (settlingJudged s).udc.settling && coldest s (getExt s n k x) then
        .next ((rewriteExtent (markUnreadable (settlingJudged s) id 2 bad) 4 id 2 clens bad).getD
          (markUnreadable (settlingJudged s) id 2 bad))
      else .next (settlingJudged s) := by
  have harm : exec (.settlingMove n k x up clens bad) s = execSettlingMove n k x up clens bad s := rfl
  have goes : ¬(decide ((2 : Nat) ≠ 2) || extentMoving s id) = true := by simp [still]
  rw [harm, execSettlingMove, named]
  exact if_neg goes

/-- Above SETTLE_HI the coldest flash-resident extent moves down. -/
theorem settlingMove_down {s u : State} {n k x : Nat} {id : GranId} {clens : List Nat} {bad : List BadBlock}
    (named : extentId s n k x = some (id, 2)) (still : extentMoving s id = false)
    (above : shareAbove s (image s).pools.settleHi = true) (cold : coldest s (getExt s n k x) = true)
    (rewritten : rewriteExtent (markUnreadable (modUdc s fun u => { u with settling := true }) id 2 bad) 4 id 2 clens bad =
      some u) : exec (.settlingMove n k x false clens bad) s = .next u := by
  have judged : settlingJudged s = modUdc s fun u => { u with settling := true } := by
    rw [settlingJudged, above]
    rfl
  have settling : (modUdc s fun u => { u with settling := true }).udc.settling = true := rfl
  simp [exec_settlingMove false clens bad named still, judged, settling, cold, rewritten]

/-- Below it a hot extent of the disk moves up while the flash share has room. -/
theorem settlingMove_up {s u : State} {n k x : Nat} {id : GranId} {clens : List Nat} {bad : List BadBlock}
    (named : extentId s n k x = some (id, 2)) (still : extentMoving s id = false)
    (below : shareAbove s (image s).pools.settleHi = false) (hkind : (getExt s n k x).kind = 1)
    (hot : (image s).pools.hotT ≤ (getExt s n k x).heat) (room : shareHasRoom s = true)
    (moved : moveUp (modUdc s fun u => { u with
      settling := s.udc.settling && shareAbove s (image s).pools.settleLo }) id 2 bad = some u) :
    exec (.settlingMove n k x true clens bad) s = .next u := by
  have judged : settlingJudged s = modUdc s fun u => { u with
      settling := s.udc.settling && shareAbove s (image s).pools.settleLo } := by
    rw [settlingJudged, below]
    rfl
  simp [exec_settlingMove true clens bad named still, judged, below, hkind, hot, room, moved]

/-! ## HEAT_DECAY (R283) -/

/-- Rebuilding a table with every value changed. -/
theorem tget_foldl_tset_values {α : Type} [DecidableEq α] (d : α) (g : α → α) {l : Tbl α} (distinct : (l.map (·.1)).Nodup)
    (t : Tbl α) (k : Nat) : tget d (l.foldl (fun t e => tset d t e.1 (g e.2)) t) k =
      if k ∈ l.map (·.1) then g (tget d l k) else tget d t k := by
  induction l generalizing t with
  | nil => rfl
  | cons e l ih =>
    obtain ⟨i, x⟩ := e
    obtain ⟨fresh, distinct⟩ := List.nodup_cons.mp distinct
    rw [List.foldl_cons, ih distinct, tget_tset]
    by_cases here : k = i
    · rw [if_neg (here ▸ fresh), if_pos here, if_pos (by simp [here]), tget, if_pos here]
    · rw [if_neg here, tget, if_neg here]
      exact if_congr (by simp [here]) rfl rfl

/-- An unlisted number reads as the default. -/
theorem tget_unlisted {α : Type} (d : α) {t : Tbl α} {k : Nat} (h : k ∉ t.map (·.1)) : tget d t k = d :=
  Classical.byContradiction fun listed => h (List.mem_map.mpr ⟨_, mem_of_tget_ne listed, rfl⟩)

/-- An extent with its heat halved. -/
def cooled (x : Extent) : Extent := { x with heat := x.heat / 2 }

theorem exec_heatDecay (s : State) : exec .heatDecay s = .next (modUdc s fun u =>
    { u with ext := u.ext.foldl (fun t e => tset {} t e.1 (cooled e.2)) [] }) := rfl

theorem heatDecay_halves {s : State} (distinct : (s.udc.ext.map (·.1)).Nodup) (k : Nat) :
    tget {} (s.udc.ext.foldl (fun t e => tset {} t e.1 (cooled e.2)) []) k = cooled (tget {} s.udc.ext k) := by
  rw [tget_foldl_tset_values {} cooled distinct]
  split
  case isTrue => rfl
  case isFalse unlisted =>
    rw [tget_unlisted {} unlisted]
    rfl

/-! ## A lost DRAM channel (R290) -/

theorem rget_setReduction (s : State) (k : Nat) (b : Bool) {n : Nat} (hn : n ≠ DMK_LOSS_OVERFLOW.off) :
    rget (setReduction s k b) n = rget (fsetBit s GLB_STATUS_REDUCTION k b) n := by
  unfold setReduction
  dsimp only
  split
  · split
    · exact rget_setPhase _ _ _ _ (.inr hn)
    · rfl
  · split
    · rfl
    · exact rget_setPhase _ _ _ _ (.inr hn)
  · rfl

theorem fbit_setReduction (s : State) {k j : Nat} (b : Bool) (hk : k < 4) (hj : j < 4) :
    fbit (setReduction s k b) GLB_STATUS_REDUCTION j = if j = k then b else fbit s GLB_STATUS_REDUCTION j := by
  rw [fbit_congr j (fget_congr (rget_setReduction s k b (by decide)))]
  exact fbit_fsetBit s GLB_STATUS_REDUCTION b (by decide) hk hj

/-- The channel is retired and reduction 3 holds. -/
structure ChannelLost (c : Nat) (s : State) : Prop where
  retired : isRetired s (.dramChannel c) = true
  reduced : fbit s GLB_STATUS_REDUCTION 3 = true

namespace ChannelLost

variable {c : Nat} {s t : State}

theorem congr (h : ChannelLost c s) (hpwr : t.pwr = s.pwr)
    (hreduction : fbit t GLB_STATUS_REDUCTION 3 = fbit s GLB_STATUS_REDUCTION 3) : ChannelLost c t :=
  ⟨(isRetired_congr hpwr _).trans h.retired, hreduction.trans h.reduced⟩

theorem after_report (h : ChannelLost c s) (told : ReportFrame s t) : ChannelLost c t :=
  h.congr (told.parts .pwr (by decide)) (fbit_congr 3 (told.fget_eq (not_reportKey_below (by decide))))

theorem after_recomputeFloor (h : ChannelLost c s) (a n : Nat) (r : ClassRec) (wr : Bool) :
    ChannelLost c (recomputeFloor s a n r wr) := by
  unfold recomputeFloor
  extract_lets whole eff old cut floored data
  have floored' : ChannelLost c floored := h.congr rfl rfl
  split
  · exact floored'.after_report ((ReportFrame.refl _).after_dmkSend _ _)
  · split
    · exact floored'.after_report ((ReportFrame.refl _).after_dmkSend _ _)
    · exact floored'

theorem after_recomputeFloors (h : ChannelLost c s) : ChannelLost c (recomputeFloors s) := by
  unfold recomputeFloors
  extract_lets floored
  have floored' : ChannelLost c floored := by
    refine List.foldlRecOn (motive := ChannelLost c) _ _ h fun b hb e _ => ?_
    refine List.foldlRecOn (motive := ChannelLost c) _ _ hb fun b hb x _ => ?_
    obtain ⟨r, n⟩ := x
    cases r with
    | none => exact hb
    | some r => exact (hb.after_recomputeFloor _ _ _ _).after_recomputeFloor _ _ _ _
  split
  · exact floored'
  · exact floored'.congr (setReduction_unchanged _ _ _ .pwr (by decide)) (fbit_setReduction _ _ (by decide) (by decide))

end ChannelLost

theorem channelLost_retired (s : State) (c : Nat) : ChannelLost c (setReduction (retireUnit s (.dramChannel c)) 3 true) where
  retired := by
    rw [isRetired_congr (setReduction_unchanged _ _ _ .pwr (by decide)), isRetired_retireUnit]
    simp
  reduced := (fbit_setReduction _ _ (by decide) (by decide)).trans (if_pos rfl)

theorem dramLost_loses (s : State) (c : Nat) : ChannelLost c (dramLost s c) := by
  unfold dramLost
  extract_lets gone left m watched
  have watched' : ChannelLost c watched :=
    (channelLost_retired s c).after_recomputeFloors.after_report (minWatch_frame _)
  split
  · exact watched'.after_report ((ReportFrame.refl _).after_fatalFault _ _)
  · split
    · exact watched'
    · exact watched'.congr rfl rfl

theorem exec_dramChannelLost {s : State} {c : Nat} (live : (dramLive s).contains c = true) :
    exec (.dramChannelLost c) s = .next (dramLost (raise s (0x210 + c)) c) := by
  have harm : exec (.dramChannelLost c) s = execDramChannelLost c s := rfl
  rw [harm]
  exact if_pos live

/-! ## The statement on rebuild, collection and Settling -/

/-- Settles O38, command by command. -/
theorem rebuildCollectSettle : Obligations.RebuildCollectSettle := by
  unfold Obligations.RebuildCollectSettle
  refine ⟨fun s disk m seg hm hsealed member => ?retire, fun s u disk i bad next named moved => ?rebuild,
    fun s u disk i bad runs next moved => ?collect,
    fun s u n k x pool id clens bad named hpool hkind due still rewritten => ?destage,
    fun s u n k x id clens bad named still above cold rewritten => ?down,
    fun s u n k x id clens bad named still below hkind hot room moved => ?up, fun s distinct => ?decay,
    fun s c live => ?dram⟩
  case retire => exact ⟨_, exec_memberRetire hm s disk none, memberGone_marks (by rw [hsealed]; decide) member⟩
  case rebuild => exact ⟨_, exec_rebuildVisit next named moved, relocated_reported moved (noteRebuild_unchanged u)⟩
  case collect => exact ⟨_, exec_gcCollect runs next moved, relocated_reported moved (noteFull_unchanged u)⟩
  case destage =>
    exact ⟨u, exec_extentDestage named hpool hkind due still rewritten, extentMoving_rewriteExtent rewritten⟩
  case down => exact ⟨u, settlingMove_down named still above cold rewritten, extentMoving_rewriteExtent rewritten⟩
  case up => exact ⟨u, settlingMove_up named still below hkind hot room moved, extentMoving_moveUp moved⟩
  case decay => exact ⟨_, exec_heatDecay s, heatDecay_halves distinct, rfl, modUdc_unchanged s _⟩
  case dram =>
    obtain ⟨retired, reduced⟩ := dramLost_loses (raise s (0x210 + c)) c
    exact ⟨_, exec_dramChannelLost live, retired, reduced⟩

end Sys2Proof.Laws
end

section
/-!
PROOFS. The statement of 09_log_and_undercoat.md on reshape, the location log and checkpoints (R284, R285, R287, R288).
-/

namespace Sys2Proof.Laws

open Sys2Proof.Machine

/-! ## What a reshape shows (R284, R285) -/

theorem showGeom_regsBut (s : State) : RegsBut [UDC_FINSV_MASK.off, UDC_GEOM_F_WIDTH.off] s (showGeom s) := by
  have inService (now old : Nat) : RegsBut [UDC_FINSV_MASK.off, UDC_GEOM_F_WIDTH.off] s ((List.range 32).foldl
      (fun s c => fsetBit s UDC_FINSV_MASK c ((now / 2 ^ c % 2 == 1 || old / 2 ^ c % 2 == 1) && chanServes s c)) s) :=
    fun k hk => rget_foldl _ s fun b c _ => rget_fsetBit b _ _ _ fun same => hk (same ▸ List.mem_cons_self)
  exact regsBut_trans (inService _ _) (regsBut_trans
    (regsBut_trans (regsBut_fset _ _ (by decide)) (regsBut_fset _ _ (by decide)))
    (regsBut_trans (regsBut_fset _ _ (by decide)) (regsBut_fset _ _ (by decide))))

/-- The event a reshape records and the geometry it shows leave every part that reports leave. -/
theorem geometryTold_unchanged (s : State) (code data : Nat) : Unchanged reportParts s (showGeom (dmkSend s code data)) :=
  unchanged_trans (dmkSend_unchanged s code data) (unchanged_mono (showGeom_unchanged _) (by decide))

/-- They leave Undercoat's other words. -/
theorem fget_geometryTold (s : State) (code data : Nat) {f : Fld} (hf : f.off ∉ [UDC_FINSV_MASK.off, UDC_GEOM_F_WIDTH.off])
    (hbelow : f.off < 0x1400000) : fget (showGeom (dmkSend s code data)) f = fget s f :=
  (fget_regsBut (showGeom_regsBut _) hf).trans
    (((ReportFrame.refl s).after_dmkSend code data).fget_eq (not_reportKey_below hbelow))

/-- The medium that a request names, as the register holds it. -/
theorem b2n_bit (v : Word) : b2n (bitsGet v 0 1 == 1) = bitsGet v 0 1 := by
  have bit : bitsGet v 0 1 < 2 := Nat.mod_lt _ (by decide)
  generalize bitsGet v 0 1 = n at bit
  interval_cases n <;> rfl

/-- The request's medium is stored. -/
def reshapeAsked (s : State) (v : Word) : State := fset s UDC_RESHAPE_CTL_POOL (bitsGet v 0 1)

/-- R284: the RESULT of a request. -/
def reshapeResult (s : State) (v : Word) : Nat :=
  reshapeJudge (reshapeAsked s v) (bitsGet v 0 1 == 1) (fget s UDC_RESHAPE_MEMB_MASK)

theorem reshapeResult_lt (s : State) (v : Word) : reshapeResult s v < 8 := by
  unfold reshapeResult reshapeJudge
  repeat' split
  all_goals decide

/-- The reshape that an accepted request begins, and the new geometry's identifier. -/
def reshapeBegun (s : State) (disk : Bool) : State :=
  modUdc s fun u =>
    { u with reshape := some { disk := disk, visited := 0, commit := (image s).pools.reshapeCkpt
                               geom := (if disk then u.dgeom else u.fgeom) + 1
                               oldMask := if disk then fget s UDC_DMEMB_MEMB else fget s UDC_FMEMB_MASK }
             fgeom := if disk then u.fgeom else u.fgeom + 1, dgeom := if disk then u.dgeom + 1 else u.dgeom }

/-- The new member set in its register. -/
def membersPut (s : State) (disk : Bool) (mask : Nat) : State :=
  if disk then fset s UDC_DMEMB_MEMB mask else fset s UDC_FMEMB_MASK mask

/-- The reshape and the members in the system area. -/
def reshapeSaved (s : State) : State :=
  modPools s fun p => { p with reshape := s.udc.reshape, fgeom := s.udc.fgeom, dgeom := s.udc.dgeom,
                               fmemb := fget s UDC_FMEMB_MASK, dmemb := fget s UDC_DMEMB_MEMB }

/-- The registers of a reshape that begins. -/
def reshapeShown (s : State) (disk : Bool) (commit : Nat) : State :=
  fset (fset (fset (fset s UDC_RESHAPE_STAT_POOL (b2n disk)) UDC_STATUS_RESHAPE 1) UDC_RESHAPE_VIS_SEG 0)
    UDC_RESHAPE_CMT_SEG commit

/-- An accepted request, before the event and the geometry. -/
def reshapeTaken (s : State) (disk : Bool) (mask : Nat) : State :=
  reshapeShown (reshapeSaved (membersPut (reshapeBegun s disk) disk mask)) disk (image s).pools.reshapeCkpt

section request

variable {s : State} {v : Word} (go : bitsGet v 14 1 = 1)

include go

theorem exec_reshapeGo_noKey (key : bitsGet v 16 16 ≠ 0xC0DE) :
    exec (.reshapeGo v) s = .next (fset s UDC_STATUS_RSV_WRITE 1) := by
  have harm : exec (.reshapeGo v) s = execReshapeGo v s := rfl
  simp [harm, execReshapeGo, go, key]

variable (key : bitsGet v 16 16 = 0xC0DE)

include key

theorem exec_reshapeGo : exec (.reshapeGo v) s = .next (
    if reshapeResult s v ≠ 1 then fset (reshapeAsked s v) UDC_RESHAPE_STAT_RESULT (reshapeResult s v)
    else showGeom (dmkSend (reshapeTaken (fset (reshapeAsked s v) UDC_RESHAPE_STAT_RESULT (reshapeResult s v))
      (bitsGet v 0 1 == 1) (fget s UDC_RESHAPE_MEMB_MASK)) 0x0A03 0)) := by
  have harm : exec (.reshapeGo v) s = execReshapeGo v s := rfl
  have mask : fget (reshapeAsked s v) UDC_RESHAPE_MEMB_MASK = fget s UDC_RESHAPE_MEMB_MASK :=
    fget_fset_off _ _ _ _ (by decide)
  have asked : fset s UDC_RESHAPE_CTL_POOL (b2n (bitsGet v 0 1 == 1)) = reshapeAsked s v := by rw [b2n_bit]; rfl
  rw [harm, execReshapeGo, if_neg (by rw [go]; decide), if_neg (not_not_intro key)]
  dsimp only
  rw [asked, mask]
  exact (apply_ite Host.Outcome.next _ _ _).symm

theorem reshapeGo_refused {k : Nat} (refused : k ≠ 1) (judged : reshapeResult s v = k) :
    ∃ t, exec (.reshapeGo v) s = .next t ∧ fget t UDC_RESHAPE_STAT_RESULT = k ∧
      RegsBut [UDC_RESHAPE_CTL_POOL.off, UDC_RESHAPE_STAT_RESULT.off] s t ∧ Unchanged [.regs] s t := by
  have fits := reshapeResult_lt s v
  refine ⟨_, exec_reshapeGo go key, ?_⟩
  rw [judged] at fits ⊢
  rw [if_pos refused, fget_fset_same _ _ _ (by decide)]
  exact ⟨Nat.mod_eq_of_lt fits, regsBut_trans (regsBut_fset s _ (by decide)) (regsBut_fset _ _ (by decide)),
    unchanged_trans (fset_unchanged s _ _) (fset_unchanged _ _ _)⟩

end request

/-- The registers shown by a reshape that begins, beside those of other words. -/
theorem fget_reshapeShown (s : State) (disk : Bool) (commit : Nat) :
    fget (reshapeShown s disk commit) UDC_STATUS_RESHAPE = 1 ∧
      fget (reshapeShown s disk commit) UDC_RESHAPE_STAT_RESULT = fget s UDC_RESHAPE_STAT_RESULT ∧
      fget (reshapeShown s disk commit) UDC_FMEMB_MASK = fget s UDC_FMEMB_MASK ∧
      fget (reshapeShown s disk commit) UDC_DMEMB_MEMB = fget s UDC_DMEMB_MEMB := by
  have later (f : Fld) (hf : f.off ∉ [UDC_RESHAPE_CMT_SEG.off, UDC_RESHAPE_VIS_SEG.off]) :
      fget (reshapeShown s disk commit) f = fget (fset (fset s UDC_RESHAPE_STAT_POOL (b2n disk)) UDC_STATUS_RESHAPE 1) f :=
    fget_regsBut (regsBut_trans (regsBut_fset _ _ (by decide)) (regsBut_fset _ _ (by decide))) hf
  refine ⟨?_, ?_, ?_, ?_⟩
  · exact (later _ (by decide)).trans (fget_fset_same _ _ _ (by decide))
  · rw [later _ (by decide), fget_fset_off _ _ _ _ (by decide), fget_fset_ne _ _ _ _ (by decide) (by decide)]
  · rw [later _ (by decide), fget_fset_off _ _ _ _ (by decide), fget_fset_off _ _ _ _ (by decide)]
  · rw [later _ (by decide), fget_fset_off _ _ _ _ (by decide), fget_fset_off _ _ _ _ (by decide)]

theorem fget_membersPut (s : State) (disk : Bool) (mask : Nat) :
    fget (membersPut s disk mask) UDC_RESHAPE_STAT_RESULT = fget s UDC_RESHAPE_STAT_RESULT ∧
      (disk = false → fget (membersPut s disk mask) UDC_FMEMB_MASK = mask % 2 ^ 32) ∧
      (disk = true → fget (membersPut s disk mask) UDC_DMEMB_MEMB = mask % 2 ^ 16) := by
  cases disk with
  | false => exact ⟨fget_fset_off _ _ _ _ (by decide), fun _ => fget_fset_same _ _ _ (by decide), nofun⟩
  | true => exact ⟨fget_fset_off _ _ _ _ (by decide), nofun, fun _ => fget_fset_same _ _ _ (by decide)⟩

/-- What the registers show once a request was taken. -/
theorem fget_reshapeTaken (s : State) (disk : Bool) (mask : Nat) :
    fget (reshapeTaken s disk mask) UDC_STATUS_RESHAPE = 1 ∧
      fget (reshapeTaken s disk mask) UDC_RESHAPE_STAT_RESULT = fget s UDC_RESHAPE_STAT_RESULT ∧
      (disk = false → fget (reshapeTaken s disk mask) UDC_FMEMB_MASK = mask % 2 ^ 32) ∧
      (disk = true → fget (reshapeTaken s disk mask) UDC_DMEMB_MEMB = mask % 2 ^ 16) := by
  obtain ⟨status, result, fmemb, dmemb⟩ := fget_reshapeShown (reshapeSaved (membersPut (reshapeBegun s disk) disk mask))
    disk (image s).pools.reshapeCkpt
  obtain ⟨result', flash, disks⟩ := fget_membersPut (reshapeBegun s disk) disk mask
  exact ⟨status, result.trans result', fun h => fmemb.trans (flash h), fun h => dmemb.trans (disks h)⟩

/-- The reshape that began, in Undercoat and in the system area. -/
theorem reshapeTaken_runs (s : State) (disk : Bool) (mask : Nat) :
    (∃ r, (reshapeTaken s disk mask).udc.reshape = some r ∧ r.disk = disk ∧ r.visited = 0 ∧
      r.commit = (image s).pools.reshapeCkpt) ∧
      (reshapeTaken s disk mask).nv.pools.reshape = (reshapeTaken s disk mask).udc.reshape := by
  cases disk <;> exact ⟨⟨_, rfl, rfl, rfl, rfl⟩, rfl⟩

theorem reshapeGo_accepted {s : State} {v : Word} (go : bitsGet v 14 1 = 1) (key : bitsGet v 16 16 = 0xC0DE)
    (judged : reshapeResult s v = 1) :
    ∃ t, exec (.reshapeGo v) s = .next t ∧ fget t UDC_RESHAPE_STAT_RESULT = 1 ∧ fget t UDC_STATUS_RESHAPE = 1 ∧
      (bitsGet v 0 1 = 0 → fget t UDC_FMEMB_MASK = fget s UDC_RESHAPE_MEMB_MASK) ∧
      (bitsGet v 0 1 = 1 → fget t UDC_DMEMB_MEMB = fget s UDC_RESHAPE_MEMB_MASK % 2 ^ 16) ∧
      (∃ r, t.udc.reshape = some r ∧ r.disk = (bitsGet v 0 1 == 1) ∧ r.visited = 0 ∧
        r.commit = (image s).pools.reshapeCkpt) ∧ t.nv.pools.reshape = t.udc.reshape := by
  refine ⟨_, exec_reshapeGo go key, ?_⟩
  rw [judged, if_neg (by decide)]
  generalize ha : fset (reshapeAsked s v) UDC_RESHAPE_STAT_RESULT 1 = a
  have result' : fget a UDC_RESHAPE_STAT_RESULT = 1 := ha ▸ fget_fset_same _ _ _ (by decide)
  have sameImage : image a = image s := ha ▸ rfl
  have told := geometryTold_unchanged (reshapeTaken a (bitsGet v 0 1 == 1) (fget s UDC_RESHAPE_MEMB_MASK)) 0x0A03 0
  obtain ⟨status, result, flash, disks⟩ := fget_reshapeTaken a (bitsGet v 0 1 == 1) (fget s UDC_RESHAPE_MEMB_MASK)
  have runs := reshapeTaken_runs a (bitsGet v 0 1 == 1) (fget s UDC_RESHAPE_MEMB_MASK)
  have mask : fget s UDC_RESHAPE_MEMB_MASK % 2 ^ 32 = fget s UDC_RESHAPE_MEMB_MASK := Nat.mod_eq_of_lt (fget_lt s _)
  rw [sameImage] at runs
  rw [mask] at flash
  rw [told .udc (by decide), told .nv (by decide)]
  refine ⟨?_, ?_, fun h => ?_, fun h => ?_, runs⟩
  · exact (fget_geometryTold _ _ _ (by decide) (by decide)).trans (result.trans result')
  · exact (fget_geometryTold _ _ _ (by decide) (by decide)).trans status
  · exact (fget_geometryTold _ _ _ (by decide) (by decide)).trans (flash (by rw [h]; rfl))
  · exact (fget_geometryTold _ _ _ (by decide) (by decide)).trans (disks (by rw [h]; rfl))

/-! ## RESHAPE_VISIT (R285) -/

/-- The reshape is over, before the event and the geometry. -/
def reshapeDropped (s : State) : State :=
  fset (modPools (modUdc s fun u => { u with reshape := none }) fun p => { p with reshape := none }) UDC_STATUS_RESHAPE 0

theorem exec_reshapeVisit_ends {s : State} {r : Reshape} (running : s.udc.reshape = some r)
    (past : segCount s r.disk ≤ r.visited) (bad : List BadBlock) :
    exec (.reshapeVisit bad) s = .next (showGeom (dmkSend (reshapeDropped s) 0x0A05 0)) := by
  have harm : exec (.reshapeVisit bad) s = execReshapeVisit bad s := rfl
  rw [harm, execReshapeVisit, running]
  exact if_pos past

theorem reshapeVisit_ends {s : State} {r : Reshape} (running : s.udc.reshape = some r)
    (past : segCount s r.disk ≤ r.visited) (bad : List BadBlock) :
    ∃ t, exec (.reshapeVisit bad) s = .next t ∧ t.udc.reshape = none ∧ t.nv.pools.reshape = none ∧
      fget t UDC_STATUS_RESHAPE = 0 := by
  have told := geometryTold_unchanged (reshapeDropped s) 0x0A05 0
  refine ⟨_, exec_reshapeVisit_ends running past bad, ?_⟩
  rw [told .udc (by decide), told .nv (by decide), fget_geometryTold _ _ _ (by decide) (by decide)]
  exact ⟨rfl, rfl, fget_fset_same _ _ _ (by decide)⟩

/-- The visit passes a segment. -/
def visitPassed (s : State) (r : Reshape) : State :=
  fset (modUdc s fun u => { u with reshape := some { r with visited := r.visited + 1 } }) UDC_RESHAPE_VIS_SEG (r.visited + 1)

theorem exec_reshapeVisit_passes {s : State} {r : Reshape} (running : s.udc.reshape = some r)
    (before : r.visited < segCount s r.disk) (between : r.visited ≠ r.commit)
    (done : (getSeg s r.disk r.visited).geom = r.geom ∨ (getSeg s r.disk r.visited).state = 0) (bad : List BadBlock) :
    exec (.reshapeVisit bad) s = .next (visitPassed s r) := by
  have harm : exec (.reshapeVisit bad) s = execReshapeVisit bad s := rfl
  rcases done with done | done <;> simp [harm, execReshapeVisit, running, Nat.not_le.mpr before, between, done] <;> rfl

/-! ## The location log (R287) -/

/-- Emptied segments change Undercoat's segments, and count as records. -/
theorem foldl_modSeg_eq (f : SegRec → SegRec) (ks : List Nat) (s : State) : ∃ sg lg un,
    ks.foldl (fun s k => modSeg s (k % 2 == 1) (k / 2) f) s =
      { s with udc := { s.udc with segs := sg, log := lg, unsaved := un } } := by
  refine List.foldlRecOn (motive := fun t : State =>
    ∃ sg lg un, t = { s with udc := { s.udc with segs := sg, log := lg, unsaved := un } }) _ _ ⟨_, _, _, rfl⟩ ?_
  rintro _ ⟨sg, lg, un, rfl⟩ k -
  exact ⟨_, _, _, rfl⟩

/-- What persists of the tables. -/
def tablesSaved (s : State) : State := modPools s fun p =>
  { p with gran := s.udc.gran, ext := s.udc.ext, segs := s.udc.segs, formatNext := s.udc.formatNext }

/-- Persisting copies the tables and moves slots and segments on in their queues. -/
theorem persistTables_eq (s : State) : ∃ sg lg un ready er erReady, persistTables s =
    modUdc (tablesSaved s) fun u => { u with
      segs := sg, log := lg, unsaved := un, releaseReady := ready, release := [], erase := er, eraseReady := erReady } := by
  obtain ⟨sg, lg, un, same⟩ := foldl_modSeg_eq (fun r => { r with state := 3 }) _ _
  exact ⟨sg, lg, un, _, _, _, same⟩

theorem persistTables_unchanged (s : State) : Unchanged [.udc, .nv] s (persistTables s) := by
  obtain ⟨_, _, _, _, _, _, same⟩ := persistTables_eq s
  rw [same]
  exact unchanged_trans (unchanged_mono (modPools_unchanged s _) (by decide))
    (unchanged_mono (modUdc_unchanged _ _) (by decide))

theorem locationLogPersist_saves (s : State) : ∃ t, exec .locationLogPersist s = .next t ∧
    t.nv.pools.gran = s.udc.gran ∧ t.nv.pools.ext = s.udc.ext ∧ t.nv.pools.segs = s.udc.segs ∧ t.udc.release = [] ∧
    t.udc.gran = s.udc.gran ∧ t.udc.ext = s.udc.ext ∧ t.nv.pools.stripes = s.nv.pools.stripes ∧
    Unchanged [.udc, .nv] s t := by
  refine ⟨_, rfl, ?_⟩
  have frame := persistTables_unchanged s
  obtain ⟨_, _, _, _, _, _, same⟩ := persistTables_eq s
  rw [same] at frame ⊢
  exact ⟨rfl, rfl, rfl, rfl, rfl, rfl, rfl, frame⟩

/-! ## Checkpoints (R288) -/

/-- A checkpoint that starts. -/
theorem ckptStart_starts (s : State) : fget (ckptStart s) UDC_CKPT_BUSY = 1 ∧ (ckptStart s).udc.ckptFrom = s.udc.log ∧
    (ckptStart s).udc.ckptLatch = false ∧ RegsBut [UDC_CKPT_BUSY.off] s (ckptStart s) ∧
    Unchanged [.udc, .regs] s (ckptStart s) :=
  ⟨fget_fset_same _ _ _ (by decide), rfl, rfl, regsBut_fset _ _ (by decide),
    unchanged_trans (unchanged_mono (modUdc_unchanged s _) (by decide)) (unchanged_mono (fset_unchanged _ _ _) (by decide))⟩

theorem exec_checkpointStart {s : State} (idle : fget s UDC_CKPT_BUSY = 0)
    (due : (image s).memory.ckptPeriod ≤ ckptAge s ∨ 75 ≤ logFill s ∨ s.udc.ckptLatch = true) :
    exec .checkpointStart s = .next (ckptStart s) := by
  have harm : exec .checkpointStart s = execCheckpointStart s := rfl
  rw [harm]
  exact if_pos (by simpa [idle, or_assoc] using due)

theorem exec_checkpointRequest_idle {s : State} (idle : fget s UDC_CKPT_BUSY = 0) :
    exec .checkpointRequest s = .next (ckptStart s) := by
  have harm : exec .checkpointRequest s = execCheckpointRequest s := rfl
  rw [harm]
  exact if_neg (by rw [idle]; decide)

theorem exec_checkpointRequest_busy {s : State} (busy : fget s UDC_CKPT_BUSY = 1) :
    exec .checkpointRequest s = .next (modUdc s fun u => { u with ckptLatch := true }) := by
  have harm : exec .checkpointRequest s = execCheckpointRequest s := rfl
  rw [harm]
  exact if_pos busy

/-- The checkpoint that ran is complete; a latched request is still to start. -/
def checkpointDone (s : State) : State :=
  fset (modUdc { persistTables s with nv := { (persistTables s).nv with
      slips := (persistTables s).rdc.map fun e => (e.1, e.2.slips) } } fun u =>
    { u with log := u.log - u.ckptFrom, ckptFrom := 0, ckptNs := some (persistTables s).tb.ns }) UDC_CKPT_BUSY 0

theorem exec_checkpointEnd {s : State} (busy : fget s UDC_CKPT_BUSY = 1) : exec .checkpointEnd s = .next (
    if (checkpointDone s).udc.ckptLatch then ckptStart (checkpointDone s) else checkpointDone s) := by
  have harm : exec .checkpointEnd s = execCheckpointEnd s := rfl
  rw [harm]
  exact if_neg (by rw [busy]; decide)

theorem checkpointDone_saves (s : State) : (checkpointDone s).nv.pools.gran = s.udc.gran ∧
    (checkpointDone s).nv.pools.ext = s.udc.ext ∧ (checkpointDone s).udc.ckptNs = some s.tb.ns ∧
    (checkpointDone s).udc.ckptLatch = s.udc.ckptLatch ∧ fget (checkpointDone s) UDC_CKPT_BUSY = 0 ∧
    RegsBut [UDC_CKPT_BUSY.off] s (checkpointDone s) ∧ Unchanged [.udc, .nv, .regs] s (checkpointDone s) := by
  have persisted := persistTables_unchanged s
  have frame : Unchanged [.udc, .nv, .regs] s (checkpointDone s) :=
    unchanged_trans (unchanged_mono persisted (by decide)) (unchanged_trans
      (unchanged_mono (setNv_unchanged _ _) (by decide)) (unchanged_trans
        (unchanged_mono (modUdc_unchanged _ _) (by decide)) (unchanged_mono (fset_unchanged _ _ _) (by decide))))
  have regs : RegsBut [UDC_CKPT_BUSY.off] s (checkpointDone s) := fun k hk =>
    (regsBut_fset _ _ (by decide) k hk).trans (rget_congr (persisted .regs (by decide)) k)
  obtain ⟨_, _, _, _, _, _, same⟩ := persistTables_eq s
  refine ⟨?_, ?_, ?_, ?_, fget_fset_same _ _ _ (by decide), regs, frame⟩
  all_goals
    rw [checkpointDone, same]
    rfl

theorem checkpointEnd_ends {s : State} (busy : fget s UDC_CKPT_BUSY = 1) : ∃ t, exec .checkpointEnd s = .next t ∧
    fget t UDC_CKPT_BUSY = b2n s.udc.ckptLatch ∧ t.nv.pools.gran = s.udc.gran ∧ t.nv.pools.ext = s.udc.ext ∧
    t.udc.ckptNs = some s.tb.ns ∧ t.udc.ckptLatch = false ∧ RegsBut [UDC_CKPT_BUSY.off] s t ∧
    Unchanged [.udc, .nv, .regs] s t := by
  refine ⟨_, exec_checkpointEnd busy, ?_⟩
  obtain ⟨gran, ext, ns, latch, idle, regs, frame⟩ := checkpointDone_saves s
  obtain ⟨busy', -, unlatched, regs', frame'⟩ := ckptStart_starts (checkpointDone s)
  rw [latch]
  cases hlatch : s.udc.ckptLatch with
  | true =>
    exact ⟨busy', gran, ext, ns, unlatched, regsBut_trans regs regs',
      unchanged_trans frame (unchanged_mono frame' (by decide))⟩
  | false => exact ⟨idle, gran, ext, ns, latch.trans hlatch, regs, frame⟩

/-! ## The statement on reshape and checkpoints -/

/-- Settles O39, command by command. -/
theorem reshapeAndCheckpoints : Obligations.ReshapeAndCheckpoints := by
  unfold Obligations.ReshapeAndCheckpoints
  refine ⟨fun s v go key => ?noKey, fun s v go key => ⟨fun k refused judged => reshapeGo_refused go key refused judged,
      fun judged => reshapeGo_accepted go key judged⟩,
    fun s r bad running past => reshapeVisit_ends running past bad, fun s r bad running before between done => ?passes,
    locationLogPersist_saves, fun s idle => ⟨fun due => ?start, ?request⟩, fun s busy => ⟨?latch, checkpointEnd_ends busy⟩⟩
  case noKey =>
    exact ⟨_, exec_reshapeGo_noKey go key, fget_fset_same _ _ _ (by decide), regsBut_fset s _ (by decide),
      fset_unchanged s _ _⟩
  case passes =>
    exact ⟨_, exec_reshapeVisit_passes running before between done bad, rfl, rfl, unchanged_trans
      (unchanged_mono (modUdc_unchanged s _) (by decide)) (unchanged_mono (fset_unchanged _ _ _) (by decide))⟩
  case start => exact ⟨_, exec_checkpointStart idle due, ckptStart_starts s⟩
  case request =>
    obtain ⟨busy, since, -, regs, frame⟩ := ckptStart_starts s
    exact ⟨_, exec_checkpointRequest_idle idle, busy, since, regs, frame⟩
  case latch => exact ⟨_, exec_checkpointRequest_busy busy, rfl, modUdc_unchanged s _⟩

end Sys2Proof.Laws
end

section
/-!
PROOFS. The statement of 10_flash_channels.md on descriptors (R305 to R312, R321, R322). The lemmas in front of it serve
both statements on flash channels: what a channel and a row read after each operation of the engines, and what those
operations leave unchanged.
-/

namespace Sys2Proof.Laws

open Sys2Proof.Machine

/-! ## What a channel holds -/

theorem getChan_congr {s t : State} (h : t.flc = s.flc) (c : Nat) : getChan t c = getChan s c := by
  rw [getChan, getChan, h]

@[simp] theorem getChan_modChan (s : State) (c k : Nat) (f : FlashChan → FlashChan) :
    getChan (modChan s c f) k = if k = c then f (getChan s c) else getChan s k := tget_tmod _ _ _ _ _

@[simp] theorem getChan_fset (s : State) (f : Fld) (x c : Nat) : getChan (fset s f x) c = getChan s c := rfl

@[simp] theorem getChan_emit (s : State) (o : Out) (c : Nat) : getChan (emit s o) c = getChan s c := rfl

@[simp] theorem getChan_ringBump (s : State) (c : Nat) (f : Fld) (n k : Nat) :
    getChan (ringBump s c f n) k = getChan s k := rfl

/-- New registers and channels leave every other part alone. -/
theorem setChans_unchanged (s : State) (r : Tbl Word) (x : Tbl FlashChan) :
    Unchanged [.regs, .flc] s { s with regs := r, flc := x } := by
  intro part hpart
  cases part with
  | regs | flc => exact absurd (by decide) hpart
  | _ => rfl

theorem modChan_unchanged (s : State) (c : Nat) (f : FlashChan → FlashChan) : Unchanged [.regs, .flc] s (modChan s c f) :=
  setChans_unchanged s s.regs _

theorem lunOk_congr {s t : State} {c : Nat} (h : rget t (FLC_LUN_OK_OK.ix c 0x4000).off =
    rget s (FLC_LUN_OK_OK.ix c 0x4000).off) (lun : Nat) : lunOk t c lun = lunOk s c lun := fbit_congr lun (fget_congr h)

/-! ## Rows (R320, R321) -/

theorem getRow_congr {s t : State} (h : t.nv.flash = s.nv.flash) (c lun row : Nat) :
    getRow t c lun row = getRow s c lun row := by
  rw [getRow, getRow, h]

theorem physRow_congr {s t : State} (h : t.nv.flash = s.nv.flash) (c lun row : Nat) :
    physRow t c lun row = physRow s c lun row := by rw [physRow, physRow, getRow_congr h]

theorem getRow_modRow (s : State) (c lun row : Nat) (f : FlashRow → FlashRow) :
    getRow (modRow s c lun row f) c lun row = f (getRow s c lun row) := (tget_tmod _ _ _ _ _).trans (if_pos rfl)

theorem flash_modRow_other (s : State) (c lun row : Nat) (f : FlashRow → FlashRow) {k : Nat} (hk : k ≠ rowKey c lun row) :
    tget {} (modRow s c lun row f).nv.flash k = tget {} s.nv.flash k := (tget_tmod _ _ _ _ _).trans (if_neg hk)

/-- A change that keeps a row's BAD mark and substitute keeps what every logical row stands for. -/
theorem physRow_modRow (s : State) (c lun k row : Nat) {f : FlashRow → FlashRow} (hbad : ∀ w, (f w).bad = w.bad)
    (hsub : ∀ w, (f w).sub = w.sub) : physRow (modRow s c lun k f) c lun row = physRow s c lun row := by
  have row_eq : getRow (modRow s c lun k f) c lun row = if rowKey c lun row = rowKey c lun k then f (getRow s c lun k)
      else getRow s c lun row := tget_tmod _ _ _ _ _
  rw [physRow, row_eq, physRow]
  split
  case isTrue same =>
    have read : getRow s c lun row = getRow s c lun k := congrArg (tget ({} : FlashRow) s.nv.flash) same
    simp only [hbad, hsub, read]
  case isFalse => rfl

/-! ## Completions (R309) -/

@[simp] theorem getChan_flcPost (s : State) (c k : Nat) (d : FlashDone) : getChan (flcPost s c d) k =
    if k = c then { getChan s c with done := (getChan s c).done ++ [d] } else getChan s k :=
  getChan_modChan s c k fun x => { x with done := x.done ++ [d] }

theorem flcPost_unchanged (s : State) (c : Nat) (d : FlashDone) : Unchanged [.regs, .flc] s (flcPost s c d) :=
  setChans_unchanged s _ _

/-- The four indices of a channel's rings stand in one word. -/
theorem ringBump_regsBut (s : State) (c : Nat) {f : Fld} (n : Nat)
    (hf : (f.ix c 0x4000).off = (FLC_RING_DTAIL.ix c 0x4000).off) :
    RegsBut [(FLC_RING_DTAIL.ix c 0x4000).off] s (ringBump s c f n) := regsBut_fset s _ (hf ▸ List.mem_cons_self)

theorem flcPost_regsBut (s : State) (c : Nat) (d : FlashDone) :
    RegsBut [(FLC_RING_DTAIL.ix c 0x4000).off] s (flcPost s c d) := ringBump_regsBut (modChan s c _) c 1 rfl

/-- The completion of a descriptor that did not run. -/
def flcEnded (d : FlashDesc) (status : Nat) : FlashDone :=
  { tag := d.tag, status := status, typ := d.typ, reply := d.reply }

theorem flcEnd_eq (s : State) (c : Nat) (d : FlashDesc) (status : Nat) :
    flcEnd s c d status = flcPost s c (flcEnded d status) := rfl

theorem getChan_flcDrop (s : State) (c k : Nat) (r : FlashRun) : getChan (flcDrop s c r) k =
    if k = c then { getChan s c with running := (getChan s c).running.filter (· != r) } else getChan s k :=
  getChan_modChan s c k _

/-- A descriptor taken out of execution whose completion is posted. -/
theorem dropped_posted (s : State) (c : Nat) (r : FlashRun) (d : FlashDone) :
    r ∉ (getChan (flcPost (flcDrop s c r) c d) c).running ∧ d ∈ (getChan (flcPost (flcDrop s c r) c d) c).done ∧
      Unchanged [.regs, .flc] s (flcPost (flcDrop s c r) c d) := by
  refine ⟨?_, ?_, unchanged_trans (modChan_unchanged s c _) (flcPost_unchanged _ c d)⟩
  · simp [getChan_flcDrop]
  · simp

/-! ## Arrival and take (R305, R307, R310) -/

theorem exec_flashDescriptorArrival {s : State} {c : Nat} (d : FlashDesc) (serves : chanServes s c = true)
    (room : (getChan s c).ring.length < 256) : exec (.flashDescriptorArrival c d) s = .next
      (ringBump (modChan s c fun x => { x with ring := x.ring ++ [(s.tb.ns, d)] }) c FLC_RING_DTAIL) := by
  have harm : exec (.flashDescriptorArrival c d) s = execFlashDescriptorArrival c d s := rfl
  rw [harm]
  simp [execFlashDescriptorArrival, serves, Nat.not_le.mpr room]

theorem flashDescriptorArrival_joins {s : State} {c : Nat} (d : FlashDesc) (serves : chanServes s c = true)
    (room : (getChan s c).ring.length < 256) : ∃ t, exec (.flashDescriptorArrival c d) s = .next t ∧
      getChan t c = { getChan s c with ring := (getChan s c).ring ++ [(s.tb.ns, d)] } ∧
      fget t (FLC_RING_DTAIL.ix c 0x4000) = (fget s (FLC_RING_DTAIL.ix c 0x4000) + 1) % 256 ∧
      RegsBut [(FLC_RING_DTAIL.ix c 0x4000).off] s t ∧ Unchanged [.regs, .flc] s t := by
  refine ⟨_, exec_flashDescriptorArrival d serves room, by simp, ?_, ringBump_regsBut (modChan s c _) c 1 rfl,
    setChans_unchanged s _ _⟩
  exact (fget_fset_same _ _ _ (show 8 + 8 ≤ 32 by decide)).trans (Nat.mod_mod _ _)

/-- The oldest descriptor has left the ring, whose rest is `l`. -/
def flcTaken (s : State) (c : Nat) (l : List (Nat × FlashDesc)) : State :=
  ringBump (modChan s c fun x => { x with ring := l }) c FLC_RING_DHEAD

@[simp] theorem getChan_flcTaken (s : State) (c k : Nat) (l : List (Nat × FlashDesc)) : getChan (flcTaken s c l) k =
    if k = c then { getChan s c with ring := l } else getChan s k :=
  getChan_modChan s c k fun x => { x with ring := l }

theorem flcTaken_unchanged (s : State) (c : Nat) (l : List (Nat × FlashDesc)) :
    Unchanged [.regs, .flc] s (flcTaken s c l) := setChans_unchanged s _ _

theorem flcTaken_regsBut (s : State) (c : Nat) (l : List (Nat × FlashDesc)) :
    RegsBut [(FLC_RING_DTAIL.ix c 0x4000).off] s (flcTaken s c l) := ringBump_regsBut (modChan s c _) c 1 rfl

/-- No channel's ring register is FLC_STATUS. -/
theorem fenced_flcTaken (s : State) (c : Nat) (l : List (Nat × FlashDesc)) :
    fget (flcTaken s c l) FLC_STATUS_FENCED = fget s FLC_STATUS_FENCED := by
  refine fget_regsBut (flcTaken_regsBut s c l) ?_
  simp only [Fld.ix, FLC_STATUS_FENCED, FLC_RING_DTAIL, List.mem_singleton]
  omega

/-- The checks of a descriptor do not depend on the ring. -/
theorem flcCheck_flcTaken (s : State) (c : Nat) (l : List (Nat × FlashDesc)) (d : FlashDesc) (p : LunProfile) :
    flcCheck (flcTaken s c l) c d p = flcCheck s c d p := by
  have flash : (flcTaken s c l).nv.flash = s.nv.flash := rfl
  have row (lun row : Nat) := getRow_congr flash c lun row
  have phys (lun row : Nat) := physRow_congr flash c lun row
  have luns : lunOk (flcTaken s c l) c d.lun = lunOk s c d.lun := by
    refine lunOk_congr (flcTaken_regsBut s c l _ ?_) _
    simp only [Fld.ix, FLC_LUN_OK_OK, FLC_RING_DTAIL, List.mem_singleton]
    omega
  have wp : (getChan (flcTaken s c l) c).wpSet = (getChan s c).wpSet := by rw [getChan_flcTaken, if_pos rfl]
  have protect : rowProtected (flcTaken s c l) c d.lun d.row p = rowProtected s c d.lun d.row p := by
    simp only [rowProtected, wp, row]
  simp only [flcCheck, row, phys, luns, protect]

/-- A descriptor that fails a check other than that of its LUN is its producer's error, whose flow is aborted. -/
def flcBlamed (s : State) (c st : Nat) (producer : Option (Nat × Nat)) : State :=
  if st = 0x41 then s
  else match producer with
    | some (t, x) => abortFlow (raise (fbump s (FLC_ERR_CNT1_DESC_ERR.ix c 0x4000)) (flcSrc c 8)) (ctxKey t x)
    | none => raise (fbump s (FLC_ERR_CNT1_DESC_ERR.ix c 0x4000)) (flcSrc c 8)

theorem flc_flcBlamed (s : State) (c st : Nat) (producer : Option (Nat × Nat)) :
    (flcBlamed s c st producer).flc = s.flc := by
  have told : Unchanged reportParts (fbump s (FLC_ERR_CNT1_DESC_ERR.ix c 0x4000))
      (raise (fbump s (FLC_ERR_CNT1_DESC_ERR.ix c 0x4000)) (flcSrc c 8)) := raise_unchanged _ _ _
  unfold flcBlamed
  split
  · rfl
  · split
    · exact (abortFlow_unchanged _ _ .flc (by decide)).trans (told .flc (by decide))
    · exact told .flc (by decide)

/-- A descriptor that no fence stops: none is in force, or it is a system one (R310). -/
theorem not_abortsTaken {s : State} (c : Nat) (l : List (Nat × FlashDesc)) {d : FlashDesc}
    (goes : fget s FLC_STATUS_FENCED = 0 ∨ d.sys = true) :
    ¬(decide (fget (flcTaken s c l) FLC_STATUS_FENCED = 1) && !d.sys) = true := by
  rw [fenced_flcTaken]
  rcases goes with free | system
  · simp [free]
  · simp [system]

section take

variable {s : State} {c at_ : Nat} {d : FlashDesc} {l : List (Nat × FlashDesc)} {p : LunProfile}
variable (ring : (getChan s c).ring = (at_, d) :: l) (profile : flashProfile s c = some p)
variable (serves : chanServes s c = true) (room : flcRoom s c = true) (pr : Option (Nat × Nat))

include ring profile serves room

theorem exec_flashDescriptorTake_fenced (fenced : fget s FLC_STATUS_FENCED = 1) (user : d.sys = false) :
    exec (.flashDescriptorTake c pr) s = .next (flcPost (flcTaken s c l) c (flcEnded d 0x43)) := by
  have harm : exec (.flashDescriptorTake c pr) s = execFlashDescriptorTake c pr s := rfl
  have aborts : (decide (fget (flcTaken s c l) FLC_STATUS_FENCED = 1) && !d.sys) = true := by
    simp [fenced_flcTaken, fenced, user]
  rw [harm, execFlashDescriptorTake, ring, profile]
  simp only [serves, room]
  exact if_pos aborts

theorem exec_flashDescriptorTake_waits (goes : fget s FLC_STATUS_FENCED = 0 ∨ d.sys = true)
    (passed : flcCheck s c d p = none) : exec (.flashDescriptorTake c pr) s = .next
      (modChan (flcTaken s c l) c fun x => { x with running := x.running ++ [{ desc := d, since := at_ }] }) := by
  have harm : exec (.flashDescriptorTake c pr) s = execFlashDescriptorTake c pr s := rfl
  rw [← flcCheck_flcTaken s c l] at passed
  rw [harm, execFlashDescriptorTake, ring, profile]
  simp only [serves, room]
  refine (if_neg (not_abortsTaken c l goes)).trans ?_
  rw [show flcCheck (ringBump _ c _) c d p = none from passed]
  rfl

theorem exec_flashDescriptorTake_fails {st : Nat} (goes : fget s FLC_STATUS_FENCED = 0 ∨ d.sys = true)
    (failed : flcCheck s c d p = some st) : exec (.flashDescriptorTake c pr) s = .next
      (flcBlamed (flcPost (flcTaken s c l) c (flcEnded d st)) c st pr) := by
  have harm : exec (.flashDescriptorTake c pr) s = execFlashDescriptorTake c pr s := rfl
  rw [← flcCheck_flcTaken s c l] at failed
  rw [harm, execFlashDescriptorTake, ring, profile]
  simp only [serves, room]
  refine (if_neg (not_abortsTaken c l goes)).trans ?_
  rw [show flcCheck (ringBump _ c _) c d p = some st from failed]
  exact (apply_ite Host.Outcome.next (st = 0x41) _ _).symm

end take

theorem flashDescriptorTake_takes {s : State} {c at_ : Nat} {d : FlashDesc} {l : List (Nat × FlashDesc)} {p : LunProfile}
    (pr : Option (Nat × Nat)) (ring : (getChan s c).ring = (at_, d) :: l) (profile : flashProfile s c = some p)
    (serves : chanServes s c = true) (room : flcRoom s c = true) :
    (fget s FLC_STATUS_FENCED = 1 ∧ d.sys = false →
      ∃ t, exec (.flashDescriptorTake c pr) s = .next t ∧ getChan t c = { getChan s c with
        ring := l, done := (getChan s c).done ++ [{ tag := d.tag, status := 0x43, typ := d.typ, reply := d.reply }] } ∧
        Unchanged [.regs, .flc] s t) ∧
    (fget s FLC_STATUS_FENCED = 0 ∨ d.sys = true → flcCheck s c d p = none →
      ∃ t, exec (.flashDescriptorTake c pr) s = .next t ∧ getChan t c = { getChan s c with
        ring := l, running := (getChan s c).running ++ [{ desc := d, since := at_ }] } ∧ Unchanged [.regs, .flc] s t) ∧
    (∀ st, fget s FLC_STATUS_FENCED = 0 ∨ d.sys = true → flcCheck s c d p = some st →
      ∃ t, exec (.flashDescriptorTake c pr) s = .next t ∧ getChan t c = { getChan s c with
        ring := l, done := (getChan s c).done ++ [{ tag := d.tag, status := st, typ := d.typ, reply := d.reply }] }) := by
  refine ⟨fun ⟨fenced, user⟩ => ?_, fun goes passed => ?_, fun st goes failed => ?_⟩
  · exact ⟨_, exec_flashDescriptorTake_fenced ring profile serves room pr fenced user, by simp [flcEnded],
      unchanged_trans (flcTaken_unchanged s c l) (flcPost_unchanged _ c _)⟩
  · exact ⟨_, exec_flashDescriptorTake_waits ring profile serves room pr goes passed, by simp,
      unchanged_trans (flcTaken_unchanged s c l) (modChan_unchanged _ c _)⟩
  · refine ⟨_, exec_flashDescriptorTake_fails ring profile serves room pr goes failed, ?_⟩
    rw [getChan_congr (flc_flcBlamed _ c st pr)]
    simp [flcEnded]

/-! ## Starting (R299, R306, R308) -/

/-- What a choosing fold ends with is what it began with or one of the elements it was offered. -/
theorem foldl_chooses {α : Type} {g : Option α → α → Option α} (h : ∀ b r, g b r = some r ∨ g b r = b) (l : List α)
    (b : Option α) {x : α} (chosen : l.foldl g b = some x) : x ∈ l ∨ b = some x := by
  induction l generalizing b with
  | nil => exact .inr chosen
  | cons r l ih =>
    rcases ih _ chosen with later | now
    · exact .inl (List.mem_cons_of_mem r later)
    · rcases h b r with offered | kept
      · cases offered.symm.trans now
        exact .inl List.mem_cons_self
      · exact .inr (kept ▸ now)

theorem mem_of_flcStartable {x : FlashChan} {r : FlashRun} (h : r ∈ flcStartable x) : r ∈ x.running := by
  obtain ⟨lun, -, first⟩ := List.mem_filterMap.mp h
  dsimp only at first
  split at first
  · cases first
  · exact List.mem_of_mem_filter (List.mem_of_head? first)

theorem flcNext_running {s : State} {c : Nat} {r : FlashRun} (h : flcNext s c = some r) : r ∈ (getChan s c).running := by
  refine mem_of_flcStartable (Or.resolve_right (foldl_chooses (fun b q => ?_) _ _ h) (by simp))
  split
  · exact .inl rfl
  · split
    · exact .inl rfl
    · exact .inr rfl

/-- A descriptor that has taken its LUN's token. -/
def flcBegun (r : FlashRun) : FlashRun := { r with token := true, step := 1, failing := List.range r.desc.count }

/-- The descriptor has the token, the round-robin pointer stands behind its LUN, and WP_N is raised for a PROGRAM and an
ERASE. -/
def flcStarted (s : State) (c : Nat) (r : FlashRun) : State :=
  let s := modChan (flcSetRun s c r (flcBegun r)) c fun x => { x with rr := (r.desc.lun + 1) % 32 }
  if r.desc.typ = 2 || r.desc.typ = 3 then fset s (FLC_CH_STATE_WP_HIGH.ix c 0x4000) 1 else s

theorem getChan_flcStarted (s : State) (c k : Nat) (r : FlashRun) : getChan (flcStarted s c r) k = if k = c then
    { getChan s c with running := (getChan s c).running.map (fun q => if q = r then flcBegun r else q)
                       rr := (r.desc.lun + 1) % 32 } else getChan s k := by
  have pointed : getChan (modChan (flcSetRun s c r (flcBegun r)) c fun x => { x with rr := (r.desc.lun + 1) % 32 }) k =
      if k = c then { getChan s c with running := (getChan s c).running.map (fun q => if q = r then flcBegun r else q)
                                       rr := (r.desc.lun + 1) % 32 } else getChan s k := by
    rw [getChan_modChan, flcSetRun, getChan_modChan, if_pos rfl, getChan_modChan]
    by_cases hk : k = c <;> simp [hk]
  unfold flcStarted
  split
  · exact (getChan_fset _ _ _ _).trans pointed
  · exact pointed

theorem flcStarted_unchanged (s : State) (c : Nat) (r : FlashRun) : Unchanged [.regs, .flc] s (flcStarted s c r) := by
  unfold flcStarted
  split
  · exact setChans_unchanged s _ _
  · exact setChans_unchanged s s.regs _

theorem flcStart_eq {s : State} {c : Nat} {r : FlashRun} (op : Nat) (next : flcNext s c = some r)
    (serves : chanServes s c = true) : flcStart s c r.desc.typ op =
      emit (flcStarted s c r) (.nand c r.desc.lun op (physRow s c r.desc.lun r.desc.row) r.desc.pset) := by
  have same : physRow (flcStarted s c r) c r.desc.lun r.desc.row = physRow s c r.desc.lun r.desc.row :=
    physRow_congr (congrArg NonVolatile.flash (flcStarted_unchanged s c r .nv (by decide))) c _ _
  rw [← same, flcStart, next]
  exact if_neg (by simp [serves])

/-- The command that starts a descriptor of each type, and its NAND operation. -/
def flashStarts (c : Nat) : List (Instr × Nat × Nat) :=
  [(.flashReadDesc c, 1, 0), (.flashProgramDesc c, 2, 1), (.flashEraseDesc c, 3, 2), (.flashScanDesc c, 4, 0),
    (.flashReadParamDesc c, 5, 5), (.flashResetDesc c, 6, 3)]

theorem exec_flashStarts {i : Instr} {c typ op : Nat} (hi : (i, typ, op) ∈ flashStarts c) (s : State) :
    exec i s = .next (flcStart s c typ op) := by
  simp only [flashStarts, List.mem_cons, List.not_mem_nil, or_false, Prod.mk.injEq] at hi
  rcases hi with ⟨rfl, rfl, rfl⟩ | ⟨rfl, rfl, rfl⟩ | ⟨rfl, rfl, rfl⟩ | ⟨rfl, rfl, rfl⟩ | ⟨rfl, rfl, rfl⟩ |
    ⟨rfl, rfl, rfl⟩ <;> rfl

theorem flashStarts_start {s : State} {c op : Nat} {r : FlashRun} {i : Instr} (hi : (i, r.desc.typ, op) ∈ flashStarts c)
    (next : flcNext s c = some r) (serves : chanServes s c = true) :
    ∃ t, exec i s = .next t ∧
      { r with token := true, step := 1, failing := List.range r.desc.count } ∈ (getChan t c).running ∧
      (getChan t c).ring = (getChan s c).ring ∧ (getChan t c).done = (getChan s c).done ∧
      t.out = .nand c r.desc.lun op (physRow s c r.desc.lun r.desc.row) r.desc.pset :: s.out ∧
      (∀ k, k ≠ c → getChan t k = getChan s k) ∧
      (r.desc.typ = 2 ∨ r.desc.typ = 3 → fget t (FLC_CH_STATE_WP_HIGH.ix c 0x4000) = 1) ∧
      Unchanged [.regs, .flc, .out] s t := by
  have began := flcStarted_unchanged s c r
  have run : exec i s = .next _ := (exec_flashStarts hi s).trans (congrArg _ (flcStart_eq op next serves))
  have chan := getChan_flcStarted s c c r
  rw [if_pos rfl] at chan
  refine ⟨_, run, ?_, ?_, ?_, ?_, fun k hk => ?_, fun raised => ?_, ?_⟩
  · rw [getChan_emit, chan]
    exact List.mem_map.mpr ⟨r, flcNext_running next, if_pos rfl⟩
  · rw [getChan_emit, chan]
  · rw [getChan_emit, chan]
  · rw [emit_out, began .out (by decide)]
  · rw [getChan_emit, getChan_flcStarted, if_neg hk]
  · have wp : flcStarted s c r = fset _ (FLC_CH_STATE_WP_HIGH.ix c 0x4000) 1 := if_pos (by simpa using raised)
    rw [wp]
    exact fget_fset_same _ _ _ (show 24 + 1 ≤ 32 by decide)
  · exact unchanged_trans (unchanged_mono began (by decide)) (unchanged_mono (emit_unchanged _ _) (by decide))

/-! ## The end of a NAND operation (R308, R321, R322) -/

theorem showDump_unchanged (s : State) : Unchanged [.regs] s (showDump s) :=
  unchanged_trans (unchanged_foldl (fun b _ => fset_unchanged b _ _) _ s) (fset_unchanged _ _ _)

theorem requestReloc_unchanged (s : State) (c lun row : Nat) :
    Unchanged (.udc :: reportParts) s (requestReloc s c lun row) := by
  have told : Unchanged (.udc :: reportParts) s
      (raise (dmkSend (fbump s (FLC_ERR_CNT1_RELOC.ix c 0x4000)) 0x0404 (c % 32)) (flcSrc c 11)) :=
    unchanged_trans (unchanged_mono (fset_unchanged s _ _) (by decide)) (unchanged_mono
      (unchanged_trans (dmkSend_unchanged _ _ _) (raise_unchanged _ _ _)) (List.subset_cons_self _ _))
  have asked (v : State) (i : Nat) (f : SegRec → SegRec) : Unchanged (.udc :: reportParts) v (modSeg v false i f) :=
    unchanged_mono (unchanged_trans (modUdc_unchanged v _) (modUdc_unchanged _ _)) (by decide)
  unfold requestReloc
  dsimp only
  split
  · exact told
  · exact unchanged_trans told (asked _ _ _)

theorem noteWear_unchanged (s : State) (c lun : Nat) (p : LunProfile) :
    Unchanged (.flc :: .udc :: reportParts) s (noteWear s c lun p) := by
  have told (v : State) (code src : Nat) (f : FlashChan → FlashChan) :
      Unchanged (.flc :: .udc :: reportParts) v (raise (dmkSend (modChan v c f) code (c % 32)) src) :=
    unchanged_trans (unchanged_mono (modChan_unchanged v c f) (by decide))
      (unchanged_mono (unchanged_trans (dmkSend_unchanged _ _ _) (raise_unchanged _ _ _)) (by decide))
  have asked (v : State) (row : Nat) : Unchanged (.flc :: .udc :: reportParts) v (requestReloc v c lun row) :=
    unchanged_mono (requestReloc_unchanged v c lun row) (List.subset_cons_self _ _)
  unfold noteWear
  extract_lets noted cands
  have noted' : Unchanged (.flc :: .udc :: reportParts) s noted := by
    unfold noted
    split
    · exact told s _ _ _
    · exact unchanged_refl _ s
  split
  · split
    · exact unchanged_trans noted' (asked _ _)
    · exact noted'
  · exact noted'

/-- The unit that a PROGRAM finds in staging for each place of its page set. -/
theorem stagedUnits_getD (s : State) (c : Nat) {d : FlashDesc} {k : Nat} (hk : k < d.count) : (stagedUnits s c d).getD k 0 =
    leValue (memRead (getChan s c).staging (d.stgOff + 4128 * k) 4128) := by
  rw [stagedUnits, List.getD_eq_getElem?_getD, List.getElem?_map, List.getElem?_range hk, Option.map_some, Option.getD_some]

/-- A PROGRAM's staged units stand in its page set. -/
def flcProgrammed (s : State) (c : Nat) (d : FlashDesc) : State :=
  modRow s c d.lun (physRow s c d.lun d.row) fun w =>
    { w with pages := tset [] w.pages d.pset (stagedUnits s c d), next := d.pset + 1 }

/-- An ERASE's row is empty. -/
def flcErased (s : State) (c : Nat) (d : FlashDesc) (p : LunProfile) : State :=
  modRow s c d.lun (physRow s c d.lun d.row) fun w => w.wiped p d.slc

/-- A READ_PARAM changes staging and, where it reads bytes that the spec leaves to the NAND, draws an open value. -/
theorem flcParamDone_eq (s : State) (c : Nat) (p : LunProfile) (r : FlashRun) : ∃ n f,
    flcParamDone s c p r = flcOk (modChan { s with freeCtr := n } c f) c r false := by
  have drawn (b : Bool) (v : Nat) : ∃ n w, (if b then (v, s) else drawFree s) = (w, { s with freeCtr := n }) := by
    cases b
    · exact ⟨_, _, rfl⟩
    · exact ⟨s.freeCtr, v, rfl⟩
  unfold flcParamDone
  extract_lets d ce0
  obtain ⟨n, w, same⟩ := drawn (decide (d.aux = 0) && ce0)
    (fget s (FLC_IDENT0_ID.ix c 0x4000) + fget s (FLC_IDENT1_ID.ix c 0x4000) * 2 ^ 32)
  rw [same]
  exact ⟨n, _, rfl⟩

/-- The end of a NAND operation, by the type of its descriptor. -/
def flcFinished (s : State) (c : Nat) (p : LunProfile) (r : FlashRun) (o : LunOut) : State :=
  match r.desc.typ with
  | 2 => flcProgramDone s c p r o
  | 3 => flcEraseDone s c p r o
  | 5 => flcParamDone s c p r
  | 6 => flcOk s c r false
  | _ => flcReadDone s c p r o

section finished

variable (s : State) (c : Nat) {p : LunProfile} {r : FlashRun} {o : LunOut}

theorem flcFinished_program (typ : r.desc.typ = 2) (works : o.failed = false) :
    flcFinished s c p r o = flcOk (showDump (flcProgrammed s c r.desc)) c r false := by
  simp only [flcFinished, typ]
  exact if_neg (by simp [works])

theorem flcFinished_erase (typ : r.desc.typ = 3) (works : o.failed = false)
    (wears : (getRow s c r.desc.lun (physRow s c r.desc.lun r.desc.row)).pe < p.peLimit) :
    flcFinished s c p r o = flcOk (noteWear (showDump (flcErased s c r.desc p)) c r.desc.lun p) c r false := by
  simp only [flcFinished, typ]
  exact if_neg (by simpa [works] using wears)

theorem flcFinished_param (typ : r.desc.typ = 5) : flcFinished s c p r o = flcParamDone s c p r := by
  simp only [flcFinished, typ]

theorem flcFinished_reset (typ : r.desc.typ = 6) : flcFinished s c p r o = flcOk s c r false := by
  simp only [flcFinished, typ]

theorem flcFinished_read (typ : r.desc.typ = 1) : flcFinished s c p r o = flcReadDone s c p r o := by
  simp only [flcFinished, typ]

end finished

section operationDone

variable {s : State} {c lun : Nat} {r : FlashRun} {p : LunProfile}
variable (holds : (getChan s c).running.find? (fun r => r.token && r.desc.lun == lun) = some r)
variable (profile : flashProfile s c = some p) (o : LunOut)

include holds

theorem lun_of_holds : r.desc.lun = lun := by
  have found := List.find?_some holds
  simp only [Bool.and_eq_true, beq_iff_eq] at found
  exact found.2

include profile

theorem exec_lunOperationDone : exec (.lunOperationDone c lun o) s = .next (flcFinished s c p r o) := by
  have harm : exec (.lunOperationDone c lun o) s = execLunOperationDone c lun o s := rfl
  rw [harm, execLunOperationDone, holds, profile, flcFinished]
  dsimp only
  split <;> simp only [*]

theorem exec_lunOperationDone_ends {t : State} (done : flcFinished s c p r o = t) :
    exec (.lunOperationDone c lun o) s = .next t := (exec_lunOperationDone holds profile o).trans (congrArg _ done)

theorem programDone_stores (typ : r.desc.typ = 2) (works : o.failed = false) :
    ∃ t, exec (.lunOperationDone c lun o) s = .next t ∧
      (∀ k < r.desc.count, pageUnit (getRow t c lun (physRow s c lun r.desc.row)) r.desc.pset k =
        leValue (memRead (getChan s c).staging (r.desc.stgOff + 4128 * k) 4128)) ∧
      (getRow t c lun (physRow s c lun r.desc.row)).next = r.desc.pset + 1 ∧ r ∉ (getChan t c).running ∧
      { tag := r.desc.tag, status := 0, typ := 2, reply := r.desc.reply } ∈ (getChan t c).done ∧
      (∀ k, k ≠ rowKey c lun (physRow s c lun r.desc.row) → tget {} t.nv.flash k = tget {} s.nv.flash k) ∧
      Unchanged [.regs, .flc, .nv] s t := by
  obtain rfl := lun_of_holds holds
  have stored : Unchanged [.nv] s (flcProgrammed s c r.desc) := modRow_unchanged s _ _ _ _
  have shown := showDump_unchanged (flcProgrammed s c r.desc)
  obtain ⟨dropped, posted, ended⟩ := dropped_posted (showDump (flcProgrammed s c r.desc)) c r
    { tag := r.desc.tag, status := 0, typ := r.desc.typ, reply := r.desc.reply }
  have flash : (flcOk (showDump (flcProgrammed s c r.desc)) c r false).nv.flash = (flcProgrammed s c r.desc).nv.flash :=
    congrArg NonVolatile.flash ((ended .nv (by decide)).trans (shown .nv (by decide)))
  refine ⟨_, exec_lunOperationDone_ends holds profile o (flcFinished_program s c typ works), fun k hk => ?_, ?_, dropped,
    typ ▸ posted, fun k hk => ?_, ?_⟩
  · rw [getRow_congr flash, flcProgrammed, getRow_modRow, pageUnit, tget_tset, if_pos rfl]
    exact stagedUnits_getD s c hk
  · rw [getRow_congr flash, flcProgrammed, getRow_modRow]
  · rw [flash]
    exact flash_modRow_other s _ _ _ _ hk
  · exact unchanged_trans (unchanged_mono stored (by decide)) (unchanged_trans (unchanged_mono shown (by decide))
      (unchanged_mono ended (by decide)))

theorem eraseDone_wipes (typ : r.desc.typ = 3) (works : o.failed = false)
    (wears : (getRow s c lun (physRow s c lun r.desc.row)).pe < p.peLimit) :
    ∃ t, exec (.lunOperationDone c lun o) s = .next t ∧
      getRow t c lun (physRow s c lun r.desc.row) = (getRow s c lun (physRow s c lun r.desc.row)).wiped p r.desc.slc ∧
      r ∉ (getChan t c).running ∧
      { tag := r.desc.tag, status := 0, typ := 3, reply := r.desc.reply } ∈ (getChan t c).done ∧
      ∀ k, k ≠ rowKey c lun (physRow s c lun r.desc.row) → tget {} t.nv.flash k = tget {} s.nv.flash k := by
  obtain rfl := lun_of_holds holds
  obtain ⟨dropped, posted, ended⟩ := dropped_posted (noteWear (showDump (flcErased s c r.desc p)) c r.desc.lun p) c r
    { tag := r.desc.tag, status := 0, typ := r.desc.typ, reply := r.desc.reply }
  have flash : (flcOk (noteWear (showDump (flcErased s c r.desc p)) c r.desc.lun p) c r false).nv.flash =
      (flcErased s c r.desc p).nv.flash :=
    congrArg NonVolatile.flash ((ended .nv (by decide)).trans ((noteWear_unchanged _ _ _ _ .nv (by decide)).trans
      (showDump_unchanged _ .nv (by decide))))
  refine ⟨_, exec_lunOperationDone_ends holds profile o (flcFinished_erase s c typ works wears), ?_, dropped, typ ▸ posted,
    fun k hk => ?_⟩
  · rw [getRow_congr flash]
    exact getRow_modRow s c _ _ _
  · rw [flash]
    exact flash_modRow_other s _ _ _ _ hk

theorem paramOrReset_ends (typ : r.desc.typ = 5 ∨ r.desc.typ = 6) :
    ∃ t, exec (.lunOperationDone c lun o) s = .next t ∧ r ∉ (getChan t c).running ∧
      (∃ d ∈ (getChan t c).done, d.tag = r.desc.tag ∧ d.status = 0) ∧ t.nv = s.nv ∧
      Unchanged [.regs, .flc, .freeCtr] s t := by
  have ends (u : State) (hu : Unchanged [.regs, .flc, .freeCtr] s u) : r ∉ (getChan (flcOk u c r false) c).running ∧
      (∃ d ∈ (getChan (flcOk u c r false) c).done, d.tag = r.desc.tag ∧ d.status = 0) ∧
      (flcOk u c r false).nv = s.nv ∧
      Unchanged [.regs, .flc, .freeCtr] s (flcOk u c r false) := by
    obtain ⟨dropped, posted, ended⟩ := dropped_posted u c r
      { tag := r.desc.tag, status := 0, typ := r.desc.typ, reply := r.desc.reply }
    have frame := unchanged_trans hu (unchanged_mono ended (by decide))
    exact ⟨dropped, ⟨_, posted, rfl, rfl⟩, frame .nv (by decide), frame⟩
  rcases typ with typ | typ
  · obtain ⟨n, f, done⟩ := flcParamDone_eq s c p r
    have drawn : Unchanged [.regs, .flc, .freeCtr] s (modChan { s with freeCtr := n } c f) :=
      unchanged_trans (unchanged_mono (setFreeCtr_unchanged s n) (by decide))
        (unchanged_mono (modChan_unchanged _ c f) (by decide))
    exact ⟨_, exec_lunOperationDone_ends holds profile o ((flcFinished_param s c typ).trans done), ends _ drawn⟩
  · exact ⟨_, exec_lunOperationDone_ends holds profile o (flcFinished_reset s c typ), ends s (unchanged_refl _ s)⟩

end operationDone

/-! ## Delivery of decoded units (R312) -/

/-- One decoded unit in staging, and the tag of its 32-byte slots. -/
def unitDelivered (d : FlashDesc) (row : FlashRow) (x : FlashChan) (i : Nat) : FlashChan := { x with
  staging := memWrite x.staging (d.stgOff + 4128 * i) (leBytes (pageUnit row d.pset (d.first + i)) 4128)
  tags := (List.range 129).foldl (fun t k => tset 0 t ((d.stgOff + 4128 * i) / 32 + k) (d.tenant + 1)) x.tags }

theorem flcDeliver_read (s : State) (c : Nat) {d : FlashDesc} (us : List Nat) (typ : d.typ = 1) :
    flcDeliver s c d us =
      modChan s c fun x => us.foldl (unitDelivered d (getRow s c d.lun (physRow s c d.lun d.row))) x :=
  if_neg (not_not.mpr typ)

/-- The values `v i` of `n` bytes each in a memory, from address `a` on, for each `i` of a list. -/
def unitsWritten (n a : Nat) (v : Nat → Nat) (us : List Nat) (m : Memory) : Memory :=
  us.foldl (fun m i => memWrite m (a + n * i) (leBytes (v i) n)) m

theorem unitsWritten_cons (n a : Nat) (v : Nat → Nat) (i : Nat) (us : List Nat) (m : Memory) :
    unitsWritten n a v (i :: us) m = unitsWritten n a v us (memWrite m (a + n * i) (leBytes (v i) n)) := rfl

section unitsWritten

variable {n a : Nat} (v : Nat → Nat) {us : List Nat} (m : Memory)

/-- A byte outside the places of the units reads as before. -/
theorem unitsWritten_outside {b : Nat} (outside : ∀ i ∈ us, b < a + n * i ∨ a + n * i + n ≤ b) :
    tget 0 (unitsWritten n a v us m) b = tget 0 m b := by
  refine List.foldlRecOn (motive := fun w : Memory => tget 0 w b = tget 0 m b) us _ rfl fun w hw i hi => ?_
  rw [memWrite_outside _ _ _ _ (by rw [leBytes_length]; exact outside i hi), hw]

/-- A place that none of the units meets reads as before. -/
theorem memRead_unitsWritten_other {k : Nat} (hk : k ∉ us) :
    memRead (unitsWritten n a v us m) (a + n * k) n = memRead m (a + n * k) n := by
  refine List.foldlRecOn (motive := fun w : Memory => memRead w (a + n * k) n = memRead m (a + n * k) n) us _ rfl
    fun w hw i hi => ?_
  have apart : a + n * k + n ≤ a + n * i ∨ a + n * i + n ≤ a + n * k := by
    rcases Nat.lt_or_gt_of_ne fun same : k = i => hk (same ▸ hi) with below | above
    · have := Nat.mul_le_mul_left n (Nat.succ_le_of_lt below)
      rw [Nat.mul_succ] at this
      omega
    · have := Nat.mul_le_mul_left n (Nat.succ_le_of_lt above)
      rw [Nat.mul_succ] at this
      omega
  rw [memRead_outside _ _ _ _ _ (by rwa [leBytes_length]), hw]

/-- Each unit reads back. -/
theorem memRead_unitsWritten {k : Nat} (hk : k ∈ us) :
    memRead (unitsWritten n a v us m) (a + n * k) n = leBytes (v k) n := by
  induction us generalizing m with
  | nil => cases hk
  | cons i us ih =>
    by_cases later : k ∈ us
    · exact ih _ later
    · obtain rfl : k = i := (List.mem_cons.mp hk).resolve_right later
      exact (memRead_unitsWritten_other v _ later).trans (memWrite_leBytes m _ _ n).1

end unitsWritten

/-- Delivery writes staging and tags alone. -/
theorem foldl_unitDelivered (d : FlashDesc) (row : FlashRow) (us : List Nat) (x : FlashChan) : ∃ tags,
    us.foldl (unitDelivered d row) x = { x with
      staging := unitsWritten 4128 d.stgOff (fun i => pageUnit row d.pset (d.first + i)) us x.staging, tags := tags } := by
  induction us generalizing x with
  | nil =>
    rw [unitsWritten]
    exact ⟨x.tags, rfl⟩
  | cons i us ih =>
    obtain ⟨tags, same⟩ := ih (unitDelivered d row x i)
    refine ⟨tags, ?_⟩
    rw [List.foldl_cons, same, unitsWritten_cons, unitDelivered]

/-! ## A READ whose units all decode at once (R312, R323) -/

/-- The first read of a READ decodes every unit, within REFRESH_BITS. -/
structure DecodesAtOnce (p : LunProfile) (r : FlashRun) (o : LunOut) : Prop where
  typ : r.desc.typ = 1
  first : r.step = 1
  asked : r.failing = List.range r.desc.count
  decoded : ∀ k < r.desc.count, k ∈ o.ok
  noneErased : o.erased = []
  noneFailed : r.failed = []
  noneErasedBefore : r.erased = []
  notSoft : r.soft = false
  notApplied : r.applied = false
  firstSet : r.lastSet = 0
  fresh : max r.bits o.bits ≤ p.refreshBits

/-- The read is counted in its row, which takes the strength its stamp names. -/
def readCounted (s : State) (c : Nat) (d : FlashDesc) (o : LunOut) : State :=
  modRow s c d.lun (physRow s c d.lun d.row) fun w =>
    { w with reads := min (w.reads + 1) 524287, strength := o.stamp.getD w.strength }

theorem physRow_readCounted (s : State) (c : Nat) (d : FlashDesc) (o : LunOut) :
    physRow (readCounted s c d o) c d.lun d.row = physRow s c d.lun d.row :=
  physRow_modRow s c _ _ _ (fun _ => rfl) fun _ => rfl

/-- The descriptor with no unit left. -/
def flcDecoded (r : FlashRun) (o : LunOut) : FlashRun := { r with erased := [], bits := max r.bits o.bits, failing := [] }

/-- The read is counted, the units are delivered, none is left. -/
def flcReadThrough (s : State) (c : Nat) (r : FlashRun) (o : LunOut) : State :=
  flcSetRun (flcDeliver (readCounted s c r.desc o) c r.desc (List.range r.desc.count)) c r (flcDecoded r o)

theorem flcReadDone_decoded {p : LunProfile} {r : FlashRun} {o : LunOut} (h : DecodesAtOnce p r o) (s : State) (c : Nat) :
    flcReadDone s c p r o = flcEndRead (flcReadThrough s c r o) c p (flcDecoded r o) := by
  unfold flcReadDone
  extract_lets d phys counted ok er left r1 delivered
  have allOk : ok = List.range r.desc.count := by
    unfold ok
    rw [h.asked, List.filter_eq_self]
    exact fun k hk => List.contains_iff_mem.mpr (h.decoded k (List.mem_range.mp hk))
  have noneErased : er = [] := by simp [er, h.noneErased]
  have noneLeft : left = [] := by
    unfold left
    rw [h.asked, allOk, List.filter_eq_nil_iff]
    intro k hk
    simp [List.mem_range.mp hk]
  have decoded : { r1 with failing := [] } = flcDecoded r o := by
    simp [r1, noneErased, h.noneErasedBefore, flcDecoded]
  have through : delivered = flcDeliver (readCounted s c r.desc o) c r.desc (List.range r.desc.count) :=
    congrArg (flcDeliver counted c d) allOk
  rw [if_pos h.first, noneLeft, decoded, through]
  exact if_pos rfl

/-- The completion of a READ without any failure. -/
def flcReadOk (r : FlashRun) : FlashDone :=
  { tag := r.desc.tag, status := 0, typ := r.desc.typ, bits := min r.bits 65535, reply := r.desc.reply }

/-- A READ ends with status 0 where nothing failed, no retry was needed and its row needs no relocation. -/
theorem flcEndRead_ok (s : State) (c : Nat) {p : LunProfile} {r : FlashRun} (failing : r.failing = [])
    (failed : r.failed = []) (erased : r.erased = []) (soft : r.soft = false) (applied : r.applied = false)
    (set : r.lastSet = 0)
    (stays : wantsReloc p (getRow s c r.desc.lun (physRow s c r.desc.lun r.desc.row)) r.desc.sys r.bits 0 false = false) :
    flcEndRead s c p r = flcPost (flcDrop s c r) c (flcReadOk r) := by
  simp [flcEndRead, failing, failed, erased, soft, applied, set, stays, flcReadOk, failMask]

/-- A descriptor replaced by another, which is then taken out, is gone. -/
theorem not_mem_replaced_filter {α : Type} [DecidableEq α] (l : List α) (r q : α) :
    r ∉ (l.map fun x => if x = r then q else x).filter (· != q) := by
  intro hr
  obtain ⟨kept, other⟩ := List.mem_filter.mp hr
  obtain ⟨x, -, hx⟩ := List.mem_map.mp kept
  split at hx
  case isTrue => exact bne_iff_ne.mp other hx.symm
  case isFalse hne => exact hne hx

/-- A row is not relocated for a read within REFRESH_BITS by set 0, where it is a system row or below its READ_LIMIT. -/
theorem wantsReloc_rests {p : LunProfile} {row : FlashRow} {sys : Bool} {bits : Nat} (fresh : bits ≤ p.refreshBits)
    (rests : sys = true ∨ row.reads < p.readLimit) : wantsReloc p row sys bits 0 false = false := by
  rcases rests with rfl | below
  · rfl
  · simp [wantsReloc, Nat.not_lt.mpr fresh, below]

theorem flcReadThrough_unchanged (s : State) (c : Nat) {r : FlashRun} (o : LunOut) (typ : r.desc.typ = 1) :
    Unchanged [.regs, .flc] (readCounted s c r.desc o) (flcReadThrough s c r o) := by
  rw [flcReadThrough, flcDeliver_read _ _ _ typ]
  exact setChans_unchanged _ _ _

/-- The row as the READ finds it. -/
theorem getRow_readCounted (s : State) (c : Nat) (d : FlashDesc) (o : LunOut) :
    getRow (readCounted s c d o) c d.lun (physRow s c d.lun d.row) =
      { getRow s c d.lun (physRow s c d.lun d.row) with
        reads := min ((getRow s c d.lun (physRow s c d.lun d.row)).reads + 1) 524287
        strength := o.stamp.getD (getRow s c d.lun (physRow s c d.lun d.row)).strength } := getRow_modRow s c _ _ _

/-- The channel has the units in staging, and the descriptor with none left in place of the one before. -/
theorem getChan_flcReadThrough (s : State) (c : Nat) {r : FlashRun} (o : LunOut) (typ : r.desc.typ = 1) : ∃ tags,
    getChan (flcReadThrough s c r o) c = { getChan s c with
      staging := unitsWritten 4128 r.desc.stgOff (fun i => pageUnit
        (getRow s c r.desc.lun (physRow s c r.desc.lun r.desc.row)) r.desc.pset (r.desc.first + i))
        (List.range r.desc.count) (getChan s c).staging
      tags := tags
      running := (getChan s c).running.map fun q => if q = r then flcDecoded r o else q } := by
  obtain ⟨tags, delivered⟩ := foldl_unitDelivered r.desc (getRow (readCounted s c r.desc o) c r.desc.lun
    (physRow s c r.desc.lun r.desc.row)) (List.range r.desc.count) (getChan s c)
  refine ⟨tags, ?_⟩
  have chan : getChan (readCounted s c r.desc o) c = getChan s c := rfl
  rw [flcReadThrough, flcDeliver_read _ _ _ typ, physRow_readCounted, flcSetRun, getChan_modChan, if_pos rfl,
    getChan_modChan, if_pos rfl, chan, delivered, getRow_readCounted]
  rfl

theorem readDone_delivers {s : State} {c lun : Nat} {r : FlashRun} {p : LunProfile} {o : LunOut}
    (holds : (getChan s c).running.find? (fun r => r.token && r.desc.lun == lun) = some r)
    (profile : flashProfile s c = some p) (h : DecodesAtOnce p r o)
    (rests : r.desc.sys = true ∨ (getRow s c lun (physRow s c lun r.desc.row)).reads + 1 < min p.readLimit 524287) :
    ∃ t, exec (.lunOperationDone c lun o) s = .next t ∧ r ∉ (getChan t c).running ∧
      (∀ k < r.desc.count, memRead (getChan t c).staging (r.desc.stgOff + 4128 * k) 4128 =
        leBytes (pageUnit (getRow s c lun (physRow s c lun r.desc.row)) r.desc.pset (r.desc.first + k)) 4128) ∧
      (∀ a, a < r.desc.stgOff ∨ r.desc.stgOff + 4128 * r.desc.count ≤ a →
        tget 0 (getChan t c).staging a = tget 0 (getChan s c).staging a) ∧
      (∃ d ∈ (getChan t c).done, d.tag = r.desc.tag ∧ d.status = 0 ∧ d.fail = 0) ∧
      Unchanged [.regs, .flc, .nv] s t := by
  obtain rfl := lun_of_holds holds
  obtain ⟨tags, chan⟩ := getChan_flcReadThrough s c o h.typ
  have through := flcReadThrough_unchanged s c o h.typ
  have flash := congrArg NonVolatile.flash (through .nv (by decide))
  have stays : wantsReloc p (getRow (flcReadThrough s c r o) c r.desc.lun (physRow (flcReadThrough s c r o) c r.desc.lun
      r.desc.row)) r.desc.sys (max r.bits o.bits) 0 false = false := by
    rw [physRow_congr flash, getRow_congr flash, physRow_readCounted, getRow_readCounted]
    exact wantsReloc_rests h.fresh (rests.imp_right fun below => by dsimp only; omega)
  have ended : flcReadDone s c p r o = flcPost (flcDrop (flcReadThrough s c r o) c (flcDecoded r o)) c
      (flcReadOk (flcDecoded r o)) := (flcReadDone_decoded h s c).trans
    (flcEndRead_ok _ c rfl h.noneFailed rfl h.notSoft h.notApplied h.firstSet stays)
  obtain ⟨-, posted, frame⟩ := dropped_posted (flcReadThrough s c r o) c (flcDecoded r o) (flcReadOk (flcDecoded r o))
  have staging : (getChan (flcReadDone s c p r o) c).staging = (getChan (flcReadThrough s c r o) c).staging := by
    rw [ended, getChan_flcPost, if_pos rfl, getChan_flcDrop, if_pos rfl]
  refine ⟨_, exec_lunOperationDone_ends holds profile o (flcFinished_read s c h.typ), ?_, fun k hk => ?_, fun a ha => ?_,
    ?_, ?_⟩
  · rw [ended, getChan_flcPost, if_pos rfl, getChan_flcDrop, if_pos rfl, chan]
    exact not_mem_replaced_filter _ _ _
  · rw [staging, chan]
    exact memRead_unitsWritten _ _ (List.mem_range.mpr hk)
  · rw [staging, chan]
    refine unitsWritten_outside _ _ fun i hi => ?_
    have := List.mem_range.mp hi
    omega
  · rw [ended]
    exact ⟨_, posted, rfl, rfl, rfl⟩
  · rw [ended]
    exact unchanged_trans (unchanged_mono (modRow_unchanged s c _ _ _) (by decide))
      (unchanged_trans (unchanged_mono through (by decide)) (unchanged_mono frame (by decide)))

/-! ## Accepted completions (R309) -/

theorem flashCompletionAccept_frees {s : State} {c : Nat} {d : FlashDone} {l : List FlashDone}
    (oldest : (getChan s c).done = d :: l) : ∃ t, exec (.flashCompletionAccept c) s = .next t ∧
      getChan t c = { getChan s c with done := l } ∧ t.out = .mediaDone c d.tag d.status :: s.out ∧
      Unchanged [.regs, .flc, .out] s t := by
  have harm : exec (.flashCompletionAccept c) s = execFlashCompletionAccept c s := rfl
  rw [harm, execFlashCompletionAccept, oldest]
  refine ⟨_, rfl, by simp, rfl, ?_⟩
  exact unchanged_trans (unchanged_mono (setChans_unchanged s _ _) (by decide))
    (unchanged_mono (emit_unchanged _ _) (by decide))

/-! ## Fences (R310) -/

/-- The completions of descriptors that end together. -/
def flcEndAll (s : State) (c status : Nat) (ds : List FlashDesc) : State := ds.foldl (fun s d => flcEnd s c d status) s

theorem getChan_flcEndAll (s : State) (c status k : Nat) (ds : List FlashDesc) : getChan (flcEndAll s c status ds) k =
    if k = c then { getChan s c with done := (getChan s c).done ++ ds.map (flcEnded · status) } else getChan s k := by
  induction ds generalizing s with
  | nil => by_cases hk : k = c <;> simp [flcEndAll, hk]
  | cons d ds ih =>
    refine (ih (flcEnd s c d status)).trans ?_
    rw [flcEnd_eq, getChan_flcPost, getChan_flcPost]
    by_cases hk : k = c <;> simp [hk]

theorem flcEndAll_unchanged (s : State) (c status : Nat) (ds : List FlashDesc) :
    Unchanged [.regs, .flc] s (flcEndAll s c status ds) := unchanged_foldl (fun b _ => flcPost_unchanged b c _) ds s

theorem flcEndAll_regsBut (s : State) (c status : Nat) (ds : List FlashDesc) :
    RegsBut [(FLC_RING_DTAIL.ix c 0x4000).off] s (flcEndAll s c status ds) :=
  fun k hk => rget_foldl ds s fun b _ _ => flcPost_regsBut b c _ k hk

/-- The descriptors that a fence leaves: in the ring those of the system, of the taken ones those that hold a token, too. -/
def fenceLeaves (x : FlashChan) : FlashChan := { x with
  running := x.running.filter fun r => r.token || !!r.desc.sys
  ring := x.ring.filter fun e => !!e.2.sys }

theorem mem_ring_fenceLeaves {x : FlashChan} {e : Nat × FlashDesc} :
    e ∈ (fenceLeaves x).ring ↔ e ∈ x.ring ∧ e.2.sys = true := by
  simp [fenceLeaves]

theorem mem_running_fenceLeaves {x : FlashChan} {r : FlashRun} :
    r ∈ (fenceLeaves x).running ↔ r ∈ x.running ∧ (r.token = true ∨ r.desc.sys = true) := by
  simp [fenceLeaves]

/-- The descriptors that a fence ends. -/
def fenceEnds (x : FlashChan) : List FlashDesc :=
  (x.running.filter fun r => !r.token && !r.desc.sys).map (·.desc) ++ (x.ring.filter fun e => !e.2.sys).map (·.2)

/-- The descriptors a fence aborts have ended. -/
def fenceAborted (s : State) (c : Nat) : State :=
  ringBump (flcEndAll (modChan s c fenceLeaves) c 0x43 (fenceEnds (getChan s c))) c FLC_RING_DHEAD
    ((getChan s c).ring.filter fun e => !e.2.sys).length

theorem fenceChan_eq (s : State) (c : Nat) : fenceChan s c =
    if fget (fenceAborted s c) (FLC_CH_STATE_STATE.ix c 0x4000) = 3 then
      fset (fenceAborted s c) (FLC_CH_STATE_STATE.ix c 0x4000) 5 else fenceAborted s c := rfl

theorem getChan_fenceChan (s : State) (c k : Nat) : getChan (fenceChan s c) k = if k = c then
    { fenceLeaves (getChan s c) with
      done := (getChan s c).done ++ (fenceEnds (getChan s c)).map (flcEnded · 0x43) } else getChan s k := by
  have aborted : getChan (fenceChan s c) k = getChan (fenceAborted s c) k := by
    rw [fenceChan_eq]
    split
    · exact getChan_fset _ _ _ _
    · rfl
  rw [aborted, fenceAborted, getChan_ringBump, getChan_flcEndAll, getChan_modChan, if_pos rfl, getChan_modChan]
  by_cases hk : k = c <;> simp [hk, fenceLeaves]

theorem fenceAborted_unchanged (s : State) (c : Nat) : Unchanged [.regs, .flc] s (fenceAborted s c) :=
  unchanged_trans (modChan_unchanged s c _) (unchanged_trans (flcEndAll_unchanged _ c _ _) (unchanged_mono
    (fset_unchanged _ _ _) (by decide)))

theorem fenceChan_unchanged (s : State) (c : Nat) : Unchanged [.regs, .flc] s (fenceChan s c) := by
  have aborted := fenceAborted_unchanged s c
  rw [fenceChan_eq]
  split
  · exact unchanged_trans aborted (unchanged_mono (fset_unchanged _ _ _) (by decide))
  · exact aborted

theorem fenceChan_regsBut (s : State) (c : Nat) :
    RegsBut [(FLC_CH_STATE_STATE.ix c 0x4000).off, (FLC_RING_DTAIL.ix c 0x4000).off] s (fenceChan s c) := by
  have aborted : RegsBut [(FLC_CH_STATE_STATE.ix c 0x4000).off, (FLC_RING_DTAIL.ix c 0x4000).off] s (fenceAborted s c) :=
    regsBut_mono (regsBut_trans (flcEndAll_regsBut (modChan s c fenceLeaves) c _ _) (ringBump_regsBut _ c _ rfl))
      (List.subset_cons_self _ _)
  rw [fenceChan_eq]
  split
  · exact regsBut_trans aborted (regsBut_fset _ _ List.mem_cons_self)
  · exact aborted

/-- What is left of a channel after a fence reached a list of channels. -/
theorem fenceChans_leaves (cs : List Nat) (s : State) (c : Nat) :
    (getChan (cs.foldl fenceChan s) c).ring =
      (if c ∈ cs then (fenceLeaves (getChan s c)).ring else (getChan s c).ring) ∧
    (getChan (cs.foldl fenceChan s) c).running =
      (if c ∈ cs then (fenceLeaves (getChan s c)).running else (getChan s c).running) := by
  induction cs generalizing s with
  | nil => exact ⟨rfl, rfl⟩
  | cons k cs ih =>
    obtain ⟨ring, running⟩ := ih (fenceChan s k)
    rw [List.foldl_cons, ring, running, getChan_fenceChan]
    by_cases hk : c = k
    · subst hk
      simp [fenceLeaves, List.filter_filter]
    · simp [hk]

theorem flashFence_aborts (s : State) : ∃ t, exec .flashFence s = .next t ∧ fget t FLC_STATUS_FENCED = 1 ∧
    (∀ c < 32, (∀ e ∈ (getChan t c).ring, e.2.sys = true) ∧
      (∀ r ∈ (getChan t c).running, r.token = true ∨ r.desc.sys = true) ∧
      (∀ e ∈ (getChan s c).ring, e.2.sys = true → e ∈ (getChan t c).ring) ∧
      (∀ r ∈ (getChan s c).running, r.token = true ∨ r.desc.sys = true → r ∈ (getChan t c).running)) ∧
    Unchanged [.regs, .flc] s t := by
  refine ⟨_, rfl, ?_, fun c hc => ?_, ?_⟩
  · have kept : rget (flashFence s) FLC_STATUS_FENCED.off = rget (fset s FLC_STATUS_FENCED 1) FLC_STATUS_FENCED.off := by
      refine rget_foldl _ _ fun b c hc => fenceChan_regsBut b c _ ?_
      have := List.mem_range.mp hc
      simp only [Fld.ix, FLC_STATUS_FENCED, FLC_RING_DTAIL, FLC_CH_STATE_STATE, List.mem_cons, List.not_mem_nil, or_false]
      omega
    rw [fget_congr kept, fget_fset_same _ _ _ (by decide)]
    rfl
  · obtain ⟨ring, running⟩ := fenceChans_leaves (List.range 32) (fset s FLC_STATUS_FENCED 1) c
    rw [if_pos (List.mem_range.mpr hc)] at ring running
    rw [flashFence, ring, running]
    exact ⟨fun e he => (mem_ring_fenceLeaves.mp he).2, fun r hr => (mem_running_fenceLeaves.mp hr).2,
      fun e he system => mem_ring_fenceLeaves.mpr ⟨he, system⟩,
      fun r hr stays => mem_running_fenceLeaves.mpr ⟨hr, stays⟩⟩
  · exact unchanged_trans (unchanged_mono (fset_unchanged s _ _) (by decide)) (unchanged_foldl fenceChan_unchanged _ _)

/-! ## The statement on descriptors -/

/-- Settles O40, command by command; the end of a NAND operation by the descriptor's type. -/
theorem flashDescriptors : Obligations.FlashDescriptors := by
  unfold Obligations.FlashDescriptors
  refine ⟨fun s c d serves room => flashDescriptorArrival_joins d serves room,
    fun s c at_ d l p pr ring profile serves room => flashDescriptorTake_takes pr ring profile serves room,
    fun s c op r i hi next serves => flashStarts_start hi next serves,
    fun s c lun r p o holds profile => ⟨programDone_stores holds profile o, eraseDone_wipes holds profile o, ?read,
      paramOrReset_ends holds profile o⟩,
    fun s c d l oldest => flashCompletionAccept_frees oldest, flashFence_aborts⟩
  case read =>
    intro typ first asked decoded noneErased noneFailed noneErasedBefore notSoft notApplied firstSet fresh rests
    exact readDone_delivers holds profile ⟨typ, first, asked, decoded, noneErased, noneFailed, noneErasedBefore, notSoft,
      notApplied, firstSet, fresh⟩ rests

end Sys2Proof.Laws
end

section
/-!
PROOFS. The statement of 10_flash_channels.md on initialisation, retraining, timeouts, retirement, patrol and dump rows
(R297, R298, R319, R323, R324, R326).
-/

namespace Sys2Proof.Laws

open Sys2Proof.Machine

/-! ## A channel's registers -/

/-- A field of a channel beside the written one of the same channel. -/
theorem fget_fset_chan (s : State) (f g : Fld) (c x : Nat) (hf : f.lo + f.w ≤ 32)
    (beside : g.off ≠ f.off ∨ f.lo + f.w ≤ g.lo ∨ g.lo + g.w ≤ f.lo) :
    fget (fset s (f.ix c 0x4000) x) (g.ix c 0x4000) = fget s (g.ix c 0x4000) := by
  refine fget_fset_ne _ _ _ _ hf (beside.imp_left fun apart => ?_)
  simp only [Fld.ix]
  omega

theorem fget_modChan (s : State) (c : Nat) (f : FlashChan → FlashChan) (g : Fld) : fget (modChan s c f) g = fget s g := rfl

theorem chanServes_congr {s t : State} {c : Nat} (h : fget t (FLC_CH_STATE_STATE.ix c 0x4000) =
    fget s (FLC_CH_STATE_STATE.ix c 0x4000)) : chanServes t c = chanServes s c := by
  rw [chanServes, chanServes, h]

/-- The words that show the channels in service: their number, the dump figures, the pool's geometry. -/
def chanShownWords : List Nat :=
  [FLC_STATUS_IN_SERVICE.off, FLC_DUMP_TOTAL_MIB.off, UDC_FINSV_MASK.off, UDC_GEOM_F_WIDTH.off] ++
    (List.range 32).map fun c => (FLC_DUMP_FREE_MIB.ix c 0x4000).off

theorem showDump_regsBut (s : State) : RegsBut chanShownWords s (showDump s) := by
  refine regsBut_trans (fun k hk => rget_foldl _ s fun b c hc => rget_fset _ _ _ _ fun same => hk ?_)
    (regsBut_fset _ _ (by decide))
  exact same ▸ List.mem_append_right _ (List.mem_map_of_mem hc)

/-- What follows the channels in service is brought up to date. -/
theorem chansShown_regsBut (s : State) : RegsBut chanShownWords s (showGeom (showChans s)) :=
  regsBut_trans (regsBut_trans (regsBut_fset s _ (by decide)) (showDump_regsBut _))
    (regsBut_mono (showGeom_regsBut _) (by decide))

theorem chansShown_unchanged (s : State) : Unchanged [.regs] s (showGeom (showChans s)) :=
  unchanged_trans (unchanged_trans (fset_unchanged s _ _) (showDump_unchanged _)) (showGeom_unchanged _)

/-- The first 64 bytes of a channel's registers are none of these words. -/
theorem chanWord_notShown {c o : Nat} (hc : c < 32) (ho : o < 0x40) : 0xA00000 + o + c * 0x4000 ∉ chanShownWords := by
  simp only [chanShownWords, FLC_STATUS_IN_SERVICE, FLC_DUMP_TOTAL_MIB, UDC_FINSV_MASK, UDC_GEOM_F_WIDTH, Fld.ix,
    FLC_DUMP_FREE_MIB, List.mem_append, List.mem_cons, List.not_mem_nil, or_false, List.mem_map, List.mem_range]
  omega

/-! ## Initialisation (R297) -/

/-- The registers of a channel that initialisation leaves in SERVING with every LUN in service. -/
def chanInitialised (s : State) (c ident : Nat) (p : LunProfile) : State :=
  let s := rset s (FLC_CH_STATE_STATE.ix c 0x4000).off 0
  let s := fset (fset s (FLC_CH_STATE_STATE.ix c 0x4000) 3) (FLC_CH_STATE_IFACE.ix c 0x4000) p.iface
  let s := fset (fset s (FLC_CH_STATE_RATE.ix c 0x4000) p.rate) (FLC_CH_STATE_PROFILE.ix c 0x4000)
    (((image s).flashProf.chmap.getD c none).getD 0)
  let s := fset s (FLC_CH_STATE_MEMBER.ix c 0x4000) (b2n (fbit s UDC_FMEMB_MASK c))
  let s := fset (fset s (FLC_IDENT0_ID.ix c 0x4000) ident) (FLC_IDENT1_ID.ix c 0x4000) (ident / 2 ^ 32)
  fset s (FLC_LUN_OK_OK.ix c 0x4000) (2 ^ p.luns - 1)

/-- The channel starts empty. -/
def chanReady (s : State) (c ident : Nat) (p : LunProfile) : State :=
  modChan (chanInitialised s c ident p) c fun _ => { wpSet := true }

theorem exec_flashChannelInit {s : State} {c : Nat} {p : LunProfile} (ident : Nat) (hc : c < 32)
    (profile : flashProfile s c = some p) (powered : pdOn s (99 + c) = true)
    (inUse : fbit s FLC_RETIRED_RETIRED c = false) (idle : fget s (FLC_CH_STATE_STATE.ix c 0x4000) = 2) :
    exec (.flashChannelInit c ident [] [] 0) s = .next (showGeom (showChans (chanReady s c ident p))) := by
  have harm : exec (.flashChannelInit c ident [] [] 0) s = execFlashChannelInit c ident [] [] 0 s := rfl
  rw [harm, execFlashChannelInit, profile]
  exact if_neg (by simp [powered, inUse, idle, hc])

theorem chanInitialised_shows (s : State) (c ident : Nat) (p : LunProfile) :
    fget (chanInitialised s c ident p) (FLC_CH_STATE_STATE.ix c 0x4000) = 3 ∧
      fget (chanInitialised s c ident p) (FLC_LUN_OK_OK.ix c 0x4000) = (2 ^ p.luns - 1) % 2 ^ 32 := by
  constructor
  · simp (disch := decide) only [chanInitialised, fget_fset_chan]
    exact fget_fset_same _ _ _ (show 0 + 3 ≤ 32 by decide)
  · exact fget_fset_same _ _ _ (show 0 + 32 ≤ 32 by decide)

theorem chanInitialised_unchanged (s : State) (c ident : Nat) (p : LunProfile) :
    Unchanged [.regs] s (chanInitialised s c ident p) := by
  unfold chanInitialised
  extract_lets s1 s2 s3 s4 s5
  exact unchanged_trans (rset_unchanged s _ _) (unchanged_trans (t := s2)
    (unchanged_trans (fset_unchanged _ _ _) (fset_unchanged _ _ _)) (unchanged_trans (t := s3)
    (unchanged_trans (fset_unchanged _ _ _) (fset_unchanged _ _ _)) (unchanged_trans (fset_unchanged _ _ _)
      (unchanged_trans (unchanged_trans (fset_unchanged _ _ _) (fset_unchanged _ _ _)) (fset_unchanged _ _ _)))))

theorem flashChannelInit_serves {s : State} {c : Nat} {p : LunProfile} (ident : Nat) (hc : c < 32)
    (profile : flashProfile s c = some p) (powered : pdOn s (99 + c) = true)
    (inUse : fbit s FLC_RETIRED_RETIRED c = false) (idle : fget s (FLC_CH_STATE_STATE.ix c 0x4000) = 2) :
    ∃ t, exec (.flashChannelInit c ident [] [] 0) s = .next t ∧ fget t (FLC_CH_STATE_STATE.ix c 0x4000) = 3 ∧
      fget t (FLC_LUN_OK_OK.ix c 0x4000) = (2 ^ p.luns - 1) % 2 ^ 32 ∧ getChan t c = { wpSet := true } ∧
      (∀ k, k ≠ c → getChan t k = getChan s k) ∧ Unchanged [.regs, .flc] s t := by
  obtain ⟨state, luns⟩ := chanInitialised_shows s c ident p
  have init := chanInitialised_unchanged s c ident p
  have shown := chansShown_unchanged (chanReady s c ident p)
  have words := chansShown_regsBut (chanReady s c ident p)
  have chan (k : Nat) : getChan (showGeom (showChans (chanReady s c ident p))) k =
      if k = c then { wpSet := true } else getChan s k := by
    rw [getChan_congr (shown .flc (by decide)), chanReady, getChan_modChan, getChan_congr (init .flc (by decide))]
  refine ⟨_, exec_flashChannelInit ident hc profile powered inUse idle, ?_, ?_, ?_, fun k hk => ?_, ?_⟩
  · exact (fget_regsBut words (chanWord_notShown (o := 0) hc (by decide))).trans ((fget_modChan _ c _ _).trans state)
  · exact (fget_regsBut words (chanWord_notShown (o := 4) hc (by decide))).trans ((fget_modChan _ c _ _).trans luns)
  · rw [chan, if_pos rfl]
  · rw [chan, if_neg hk]
  · exact unchanged_trans (unchanged_mono init (by decide)) (unchanged_trans (modChan_unchanged _ c _)
      (unchanged_mono shown (by decide)))

/-! ## A retired channel (R326) -/

/-- The channel's descriptors have ended CHAN_DOWN and the channel is retired; nobody has been told. -/
def chanGone (s : State) (c : Nat) : State :=
  let s := modChan (flcEndAll s c 0x42 ((getChan s c).running.map (·.desc) ++ (getChan s c).ring.map (·.2))) c fun x =>
    { x with ring := [], running := [] }
  let s := fset s (FLC_CH_STATE_STATE.ix c 0x4000) 4
  let s := fset (fset s (FLC_CH_STATE_WP_HIGH.ix c 0x4000) 0) (FLC_LUN_OK_OK.ix c 0x4000) 0
  retireUnit (fsetBit s FLC_RETIRED_RETIRED c true) (.flashChannel c)

theorem chanRetire_eq {s : State} {c : Nat} (k cause : Nat) (conseq : Bool) (serves : chanServes s c = true) :
    chanRetire s c k cause conseq =
      minWatch (report (dmkSend (showGeom (showChans (chanGone s c))) 0x0402 (c % 32 + cause * 32))
        { src := flcSrc c k, cls := .contained, conseq := conseq }) := if_neg (by simp [serves])

theorem chanGone_unchanged (s : State) (c : Nat) : Unchanged [.regs, .flc, .pwr] s (chanGone s c) := by
  unfold chanGone
  extract_lets ended down dark
  have ended' : Unchanged [.regs, .flc, .pwr] s ended :=
    unchanged_mono (unchanged_trans (flcEndAll_unchanged s c _ _) (modChan_unchanged _ c _)) (by decide)
  have dark' : Unchanged [.regs, .flc, .pwr] ended dark := unchanged_mono
    (unchanged_trans (fset_unchanged _ _ _) (unchanged_trans (fset_unchanged _ _ _) (fset_unchanged _ _ _))) (by decide)
  exact unchanged_trans ended' (unchanged_trans dark' (unchanged_trans
    (unchanged_mono (fsetBit_unchanged _ _ _ _) (by decide)) (unchanged_mono (retireUnit_unchanged _ _) (by decide))))

theorem getChan_chanGone (s : State) (c : Nat) : getChan (chanGone s c) c = { getChan s c with
    ring := [], running := []
    done := (getChan s c).done ++
      ((getChan s c).running.map (·.desc) ++ (getChan s c).ring.map (·.2)).map (flcEnded · 0x42) } := by
  unfold chanGone
  extract_lets ended down dark
  have kept : (retireUnit (fsetBit dark FLC_RETIRED_RETIRED c true) (.flashChannel c)).flc = ended.flc :=
    (retireUnit_unchanged _ _ .flc (by decide)).trans rfl
  rw [getChan_congr kept, getChan_modChan, if_pos rfl, getChan_flcEndAll, if_pos rfl]

/-- The words of the channel and of FLC_RETIRED after the retirement. -/
theorem chanGone_shows (s : State) {c : Nat} (hc : c < 32) :
    fget (chanGone s c) (FLC_CH_STATE_STATE.ix c 0x4000) = 4 ∧ fget (chanGone s c) (FLC_LUN_OK_OK.ix c 0x4000) = 0 ∧
      fbit (chanGone s c) FLC_RETIRED_RETIRED c = true := by
  unfold chanGone
  extract_lets ended down dark
  have beside {f : Fld} (hf : f.off < 0xA00040) (h : (f.ix c 0x4000).off ≠ FLC_RETIRED_RETIRED.off) :
      fget (retireUnit (fsetBit dark FLC_RETIRED_RETIRED c true) (.flashChannel c)) (f.ix c 0x4000) =
        fget dark (f.ix c 0x4000) := by
    have below : (f.ix c 0x4000).off < PWR_PD_ON_ON.off := by
      simp only [Fld.ix, PWR_PD_ON_ON]
      omega
    rw [fget_congr (rget_retireUnit _ _ below), fget_congr (rget_fsetBit _ _ _ _ h)]
  have retired :
      fbit (retireUnit (fsetBit dark FLC_RETIRED_RETIRED c true) (.flashChannel c)) FLC_RETIRED_RETIRED c = true := by
    rw [fbit_congr c (fget_congr (rget_retireUnit _ _ (by decide))), fbit_fsetBit _ _ _ (by decide) hc hc, if_pos rfl]
  refine ⟨?_, ?_, retired⟩
  · rw [beside (by decide) (by simp only [Fld.ix, FLC_CH_STATE_STATE, FLC_RETIRED_RETIRED]; omega)]
    simp (disch := decide) only [dark, fget_fset_chan]
    exact fget_fset_same _ _ _ (show 0 + 3 ≤ 32 by decide)
  · rw [beside (by decide) (by simp only [Fld.ix, FLC_LUN_OK_OK, FLC_RETIRED_RETIRED]; omega)]
    exact fget_fset_same _ _ _ (show 0 + 32 ≤ 32 by decide)

theorem isRetired_chanGone (s : State) (c : Nat) : isRetired (chanGone s c) (.flashChannel c) = true := by
  unfold chanGone
  extract_lets ended down dark
  rw [isRetired_retireUnit]
  simp

/-- Behind the retirement stand the reports alone, and the words that show the channels in service. -/
theorem chanRetire_tells {s : State} {c : Nat} (k cause : Nat) (conseq : Bool) (serves : chanServes s c = true) :
    Unchanged reportParts (chanGone s c) (chanRetire s c k cause conseq) ∧
      ∀ w < 0x1400000, w ∉ chanShownWords → rget (chanRetire s c k cause conseq) w = rget (chanGone s c) w := by
  rw [chanRetire_eq k cause conseq serves]
  have told : ReportFrame (showGeom (showChans (chanGone s c)))
      (minWatch (report (dmkSend (showGeom (showChans (chanGone s c))) 0x0402 (c % 32 + cause * 32))
        { src := flcSrc c k, cls := .contained, conseq := conseq })) :=
    (((ReportFrame.refl _).after_dmkSend _ _).after_report _).trans (minWatch_frame _)
  exact ⟨unchanged_trans (unchanged_mono (chansShown_unchanged _) (by decide)) told.parts,
    fun w below shows => (told.regs w (not_reportKey_below below)).trans (chansShown_regsBut _ w shows)⟩

theorem chanRetire_retires {s t : State} {c k cause : Nat} {conseq : Bool} (hc : c < 32) (serves : chanServes s c = true)
    (retires : chanRetire s c k cause conseq = t) :
    fget t (FLC_CH_STATE_STATE.ix c 0x4000) = 4 ∧ fget t (FLC_LUN_OK_OK.ix c 0x4000) = 0 ∧
      isRetired t (.flashChannel c) = true ∧ fbit t FLC_RETIRED_RETIRED c = true ∧
      (getChan t c).ring = [] ∧ (getChan t c).running = [] ∧
      (∀ e ∈ (getChan s c).ring, ∃ d ∈ (getChan t c).done, d.tag = e.2.tag ∧ d.status = 0x42) ∧
      (∀ r ∈ (getChan s c).running, ∃ d ∈ (getChan t c).done, d.tag = r.desc.tag ∧ d.status = 0x42) ∧
      t.nv.flash = s.nv.flash := by
  obtain ⟨parts, words⟩ := chanRetire_tells k cause conseq serves
  rw [retires] at parts words
  obtain ⟨state, luns, retired⟩ := chanGone_shows s hc
  have chan := (getChan_congr (parts .flc (by decide)) c).trans (getChan_chanGone s c)
  have word {o : Nat} (ho : o < 0x40) := words (0xA00000 + o + c * 0x4000) (by omega) (chanWord_notShown hc ho)
  have ended {d : FlashDesc} (hd : d ∈ (getChan s c).running.map (·.desc) ++ (getChan s c).ring.map (·.2)) :
      ∃ e ∈ (getChan t c).done, e.tag = d.tag ∧ e.status = 0x42 := by
    rw [chan]
    exact ⟨flcEnded d 0x42, List.mem_append_right _ (List.mem_map_of_mem hd), rfl, rfl⟩
  refine ⟨?_, ?_, ?_, ?_, ?_, ?_, fun e he => ended (List.mem_append_right _ (List.mem_map_of_mem he)),
    fun r hr => ended (List.mem_append_left _ (List.mem_map_of_mem hr)), ?_⟩
  · exact (fget_congr (word (o := 0) (by decide))).trans state
  · exact (fget_congr (word (o := 4) (by decide))).trans luns
  · rw [isRetired_congr (parts .pwr (by decide)), isRetired_chanGone]
  · rw [fbit_congr c (fget_congr (words _ (by decide) (by decide))), retired]
  · rw [chan]
  · rw [chan]
  · rw [parts .nv (by decide), chanGone_unchanged s c .nv (by decide)]

theorem flashChannelRetire_retires {s : State} {c : Nat} (staging : Bool) (hc : c < 32) (serves : chanServes s c = true) :
    ∃ t, exec (.flashChannelRetire c staging) s = .next t ∧ fget t (FLC_CH_STATE_STATE.ix c 0x4000) = 4 ∧
      fget t (FLC_LUN_OK_OK.ix c 0x4000) = 0 ∧ isRetired t (.flashChannel c) = true ∧
      fbit t FLC_RETIRED_RETIRED c = true ∧ (getChan t c).ring = [] ∧ (getChan t c).running = [] ∧
      (∀ e ∈ (getChan s c).ring, ∃ d ∈ (getChan t c).done, d.tag = e.2.tag ∧ d.status = 0x42) ∧
      (∀ r ∈ (getChan s c).running, ∃ d ∈ (getChan t c).done, d.tag = r.desc.tag ∧ d.status = 0x42) ∧
      t.nv.flash = s.nv.flash := by
  cases staging with
  | false => exact ⟨_, rfl, chanRetire_retires (k := 0) (cause := 0) hc serves rfl⟩
  | true => exact ⟨_, rfl, chanRetire_retires (k := 7) (cause := 2) hc serves rfl⟩

/-! ## Retraining (R298) -/

/-- A training of the channel is counted. -/
def trainCounted (s : State) (c : Nat) : State := fbump s (FLC_ERR_CNT1_TRAIN.ix c 0x4000)

section retraining

variable {s : State} {c : Nat} (serves : chanServes s c = true) (between : ∀ r ∈ (getChan s c).running, r.token = false)

include serves between

theorem exec_flashRetrainTick_pass : exec (.flashRetrainTick c true) s = .next
    (modChan (trainCounted s c) c fun x => { x with trainFails := 0 }) := by
  have harm : exec (.flashRetrainTick c true) s = execFlashRetrainTick c true s := rfl
  rw [harm]
  exact if_neg (by simpa [serves] using between)

theorem exec_flashRetrainTick_fail : exec (.flashRetrainTick c false) s = .next
    (if 3 ≤ (getChan s c).trainFails + 1 then
      chanRetire (modChan (trainCounted s c) c fun x => { x with trainFails := x.trainFails + 1 }) c 1 1
    else modChan (trainCounted s c) c fun x => { x with trainFails := x.trainFails + 1 }) := by
  have harm : exec (.flashRetrainTick c false) s = execFlashRetrainTick c false s := rfl
  have fails : (getChan (modChan (trainCounted s c) c fun x => { x with trainFails := x.trainFails + 1 }) c).trainFails =
      (getChan s c).trainFails + 1 := by
    rw [getChan_modChan, if_pos rfl]
    rfl
  rw [harm, ← fails]
  exact if_neg (by simpa [serves] using between)

theorem flashRetrainTick_trains (hc : c < 32) :
    (∃ t, exec (.flashRetrainTick c true) s = .next t ∧ getChan t c = { getChan s c with trainFails := 0 } ∧
      fget t (FLC_ERR_CNT1_TRAIN.ix c 0x4000) =
        min (fget s (FLC_ERR_CNT1_TRAIN.ix c 0x4000) + 1) (2 ^ FLC_ERR_CNT1_TRAIN.w - 1) ∧ Unchanged [.regs, .flc] s t) ∧
    ((getChan s c).trainFails < 2 → ∃ t, exec (.flashRetrainTick c false) s = .next t ∧
      getChan t c = { getChan s c with trainFails := (getChan s c).trainFails + 1 } ∧ Unchanged [.regs, .flc] s t) ∧
    (2 ≤ (getChan s c).trainFails → ∃ t, exec (.flashRetrainTick c false) s = .next t ∧
      fget t (FLC_CH_STATE_STATE.ix c 0x4000) = 4 ∧ isRetired t (.flashChannel c) = true) := by
  have run := exec_flashRetrainTick_fail serves between
  refine ⟨?pass, fun few => ?few, fun many => ?third⟩
  case pass =>
    refine ⟨_, exec_flashRetrainTick_pass serves between, ?_, ?_, setChans_unchanged s _ _⟩
    · rw [getChan_modChan, if_pos rfl]
      rfl
    · exact fget_fbump s (FLC_ERR_CNT1_TRAIN.ix c 0x4000) (show 24 + 8 ≤ 32 by decide)
  case few =>
    rw [if_neg (by omega)] at run
    refine ⟨_, run, ?_, setChans_unchanged s _ _⟩
    rw [getChan_modChan, if_pos rfl]
    rfl
  case third =>
    rw [if_pos (by omega)] at run
    have still : chanServes (modChan (trainCounted s c) c fun x => { x with trainFails := x.trainFails + 1 }) c = true :=
      (chanServes_congr (fget_fset_chan s FLC_ERR_CNT1_TRAIN FLC_CH_STATE_STATE c _ (by decide) (by decide))).trans serves
    obtain ⟨state, -, retired, -⟩ := chanRetire_retires (k := 1) (cause := 1) (conseq := false) hc still rfl
    exact ⟨_, run, state, retired⟩

end retraining

/-! ## Timeouts (R324) -/

/-- The descriptor that holds the LUN's token has ended LUN_TIMEOUT, and the LUN is reset. -/
def lunTimedOut (s : State) (c lun : Nat) (r : FlashRun) : State :=
  emit (fbump (flcPost (flcDrop s c r) c (flcEnded r.desc 0x40)) (FLC_ERR_CNT1_TIMEOUT.ix c 0x4000)) (.nand c lun 3 0 0)

theorem getChan_lunTimedOut (s : State) (c lun : Nat) (r : FlashRun) : getChan (lunTimedOut s c lun r) c =
    getChan (flcPost (flcDrop s c r) c (flcEnded r.desc 0x40)) c := by
  rw [lunTimedOut, getChan_emit, fbump, getChan_fset]

theorem exec_lunTimeout_first {s : State} {c lun : Nat} {r : FlashRun} (other : Bool)
    (holds : (getChan s c).running.find? (fun r => r.token && r.desc.lun == lun) = some r)
    (first : tget 0 (getChan s c).tmo lun = 0) : exec (.lunTimeout c lun true other) s = .next
      (modChan (lunTimedOut s c lun r) c fun x => { x with tmo := tset 0 x.tmo lun (s.tb.ns + 1) }) := by
  have harm : exec (.lunTimeout c lun true other) s = execLunTimeout c lun true other s := rfl
  have last : tget 0 (getChan (lunTimedOut s c lun r) c).tmo lun = 0 := by
    simp [getChan_lunTimedOut, getChan_flcDrop, first]
  rw [harm, execLunTimeout, holds]
  dsimp -zeta -zetaHave only
  extract_lets ended reset tmo
  have zero : tmo = 0 := last
  rw [if_neg (by simp), if_neg (by simp [zero])]
  rfl

theorem lunTimeout_resets {s : State} {c lun : Nat} {r : FlashRun} (other : Bool)
    (holds : (getChan s c).running.find? (fun r => r.token && r.desc.lun == lun) = some r)
    (first : tget 0 (getChan s c).tmo lun = 0) :
    ∃ t, exec (.lunTimeout c lun true other) s = .next t ∧ r ∉ (getChan t c).running ∧
      { tag := r.desc.tag, status := 0x40, typ := r.desc.typ, reply := r.desc.reply } ∈ (getChan t c).done ∧
      tget 0 (getChan t c).tmo lun = s.tb.ns + 1 ∧ t.out = .nand c lun 3 0 0 :: s.out ∧ t.nv = s.nv ∧
      Unchanged [.regs, .flc, .out] s t := by
  obtain ⟨dropped, posted, ended⟩ := dropped_posted s c r (flcEnded r.desc 0x40)
  have counted : Unchanged [.regs, .flc] s
      (fbump (flcPost (flcDrop s c r) c (flcEnded r.desc 0x40)) (FLC_ERR_CNT1_TIMEOUT.ix c 0x4000)) :=
    unchanged_trans ended (unchanged_mono (fset_unchanged _ _ _) (by decide))
  have reset : Unchanged [.regs, .flc, .out] s (lunTimedOut s c lun r) :=
    unchanged_trans (unchanged_mono counted (by decide)) (unchanged_mono (emit_unchanged _ _) (by decide))
  have noted := modChan_unchanged (lunTimedOut s c lun r) c fun x => { x with tmo := tset 0 x.tmo lun (s.tb.ns + 1) }
  refine ⟨_, exec_lunTimeout_first other holds first, ?_, ?_, ?_, ?_, ?_, unchanged_trans reset
    (unchanged_mono noted (by decide))⟩
  · rw [getChan_modChan, if_pos rfl, getChan_lunTimedOut]
    exact dropped
  · rw [getChan_modChan, if_pos rfl, getChan_lunTimedOut]
    exact posted
  · rw [getChan_modChan, if_pos rfl, tget_tset, if_pos rfl]
  · rw [noted .out (by decide), lunTimedOut, emit_out, counted .out (by decide)]
  · rw [noted .nv (by decide), reset .nv (by decide)]

/-! ## Patrol (R323) -/

/-- The patrol's read is counted in its row. -/
def patrolled (s : State) (c lun row : Nat) : State :=
  modRow s c lun (physRow s c lun row) fun w => { w with reads := min (w.reads + 1) 524287 }

theorem patrolScan_counts {s : State} {c lun row pset bits : Nat} {p : LunProfile} (profile : flashProfile s c = some p)
    (service : s.phase.inService = true) (serves : chanServes s c = true) (ok : lunOk s c lun = true)
    (programmed : pset < (getRow s c lun (physRow s c lun row)).next) (fresh : bits ≤ p.refreshBits)
    (rests : 1024 ≤ row ∨ (getRow s c lun (physRow s c lun row)).reads + 1 < min p.readLimit 524287) :
    ∃ t, exec (.patrolScan c lun row pset bits 0 false) s = .next t ∧
      getRow t c lun (physRow s c lun row) = { getRow s c lun (physRow s c lun row) with
        reads := min ((getRow s c lun (physRow s c lun row)).reads + 1) 524287 } ∧
      (∀ k, k ≠ rowKey c lun (physRow s c lun row) → tget {} t.nv.flash k = tget {} s.nv.flash k) ∧
      Unchanged [.nv] s t := by
  have harm : exec (.patrolScan c lun row pset bits 0 false) s = execPatrolScan c lun row pset bits 0 false s := rfl
  have counted : getRow (patrolled s c lun row) c lun (physRow s c lun row) = { getRow s c lun (physRow s c lun row) with
      reads := min ((getRow s c lun (physRow s c lun row)).reads + 1) 524287 } := getRow_modRow s c _ _ _
  have stays : wantsReloc p (getRow (patrolled s c lun row) c lun (physRow s c lun row)) (decide (1024 ≤ row)) bits 0 false =
      false := by
    rw [counted]
    exact wantsReloc_rests fresh (rests.imp (fun system => decide_eq_true system) fun below => by dsimp only; omega)
  have run : exec (.patrolScan c lun row pset bits 0 false) s = .next (patrolled s c lun row) := by
    rw [harm, execPatrolScan, profile]
    refine (if_neg (by simp [service, serves, ok, programmed])).trans (congrArg _ (if_neg ?_))
    rw [Bool.not_eq_true]
    exact stays
  exact ⟨_, run, counted, fun k hk => flash_modRow_other s _ _ _ _ hk, modRow_unchanged s _ _ _ _⟩

/-! ## Dump rows (R319) -/

/-- The dump is gone, and the erase of one of its rows is issued. -/
def dumpRowIssued (s : State) (c lun row : Nat) : State :=
  emit (fset { s with nv := { s.nv with dump := none } } (FLC_CH_STATE_WP_HIGH.ix c 0x4000) 1) (.nand c lun 2 row 0)

theorem exec_dumpRowErase {s : State} {c lun row : Nat} {p : LunProfile} (profile : flashProfile s c = some p)
    (used : dumpRowNext s c lun = some row) (service : s.phase.inService = true) (serves : chanServes s c = true)
    (ok : lunOk s c lun = true) (free : dumpNeeded s = false) (quiet : s.bls.mode = 0) :
    exec (.dumpRowErase c lun) s = .next
      (showDump (modRow (dumpRowIssued s c lun row) c lun row fun w => w.wiped p true)) := by
  have harm : exec (.dumpRowErase c lun) s = execDumpRowErase c lun s := rfl
  rw [harm, execDumpRowErase, profile, used]
  exact if_pos (by simp [service, serves, ok, free, quiet])

theorem dumpRowErase_wipes {s : State} {c lun row : Nat} {p : LunProfile} (profile : flashProfile s c = some p)
    (used : dumpRowNext s c lun = some row) (service : s.phase.inService = true) (serves : chanServes s c = true)
    (ok : lunOk s c lun = true) (free : dumpNeeded s = false) (quiet : s.bls.mode = 0) :
    ∃ t, exec (.dumpRowErase c lun) s = .next t ∧ getRow t c lun row = (getRow s c lun row).wiped p true ∧ t.nv.dump = none ∧
      t.out = .nand c lun 2 row 0 :: s.out ∧
      (∀ k, k ≠ rowKey c lun row → tget {} t.nv.flash k = tget {} s.nv.flash k) ∧ Unchanged [.regs, .out, .nv] s t := by
  have shown := showDump_unchanged (modRow (dumpRowIssued s c lun row) c lun row fun w => w.wiped p true)
  have nv := shown .nv (by decide)
  have issued : Unchanged [.regs, .out, .nv] s (dumpRowIssued s c lun row) :=
    unchanged_trans (unchanged_mono (setNv_unchanged s _) (by decide)) (unchanged_trans
      (unchanged_mono (fset_unchanged _ _ _) (by decide)) (unchanged_mono (emit_unchanged _ _) (by decide)))
  refine ⟨_, exec_dumpRowErase profile used service serves ok free quiet, ?_, ?_, ?_, fun k hk => ?_, ?_⟩
  · rw [getRow_congr (congrArg NonVolatile.flash nv), getRow_modRow]
    rfl
  · rw [nv]
    rfl
  · rw [shown .out (by decide)]
    rfl
  · rw [nv]
    exact flash_modRow_other (dumpRowIssued s c lun row) _ _ _ _ hk
  · exact unchanged_trans issued (unchanged_trans (unchanged_mono (modRow_unchanged _ _ _ _ _) (by decide))
      (unchanged_mono shown (by decide)))

/-! ## The statement on channels -/

/-- Settles O41, command by command. -/
theorem flashChannels : Obligations.FlashChannels := by
  unfold Obligations.FlashChannels
  exact ⟨fun s c ident p hc profile powered inUse idle _ => flashChannelInit_serves ident hc profile powered inUse idle,
    fun s c hc serves between => flashRetrainTick_trains serves between hc,
    fun s c lun r other holds first => lunTimeout_resets other holds first,
    fun s c staging hc serves => flashChannelRetire_retires staging hc serves,
    fun s c lun row pset bits p profile service serves ok programmed fresh rests =>
      patrolScan_counts profile service serves ok programmed fresh rests,
    fun s c lun row p profile used service serves ok free quiet =>
      dumpRowErase_wipes profile used service serves ok free quiet⟩

end Sys2Proof.Laws
end

section
/-!
PROOFS. The statements of 95_what_each_step_holds.md on one step: it runs the command at the front of the queue, and it
leaves DRAM and SRAM in canonical form.
-/

namespace Sys2Proof.Laws

open Sys2Proof.Machine

/-! ## One step runs one command -/

/-- Settles O7: both clauses are the two cases of `step`, read off the queue. -/
theorem stepRunsFrontCommand : Obligations.StepRunsFrontCommand := by
  unfold Obligations.StepRunsFrontCommand
  refine ⟨fun c rest s => rfl, fun s idle => ?_⟩
  unfold step
  rw [idle]

/-! ## The memories -/

/-- A command that writes DRAM or SRAM leaves both canonical by its lemma `_wf`; every other one keeps them. -/
theorem exec_wf (i : Instr) (s : State) (wf : s.memWf) : NextWf s.pending (exec i s) := by
  obtain ⟨hd, hm⟩ := wf
  cases i with
  | registerWrite => exact execRegisterWrite_wf _ _ _ _ _ s rfl hd hm
  | pairedLoWrite => exact execPairedLoWrite_wf _ _ _ s rfl hd hm
  | pairedHiWrite => exact execPairedHiWrite_wf _ _ _ s rfl hd hm
  | porAssert => exact execPorAssert_wf _ s rfl hd hm
  | warmRstPin => exact execWarmRstPin_wf s rfl hd hm
  | warmReset => exact execWarmReset_wf _ s rfl hd hm
  | warmStopEnd => exact execWarmStopEnd_wf s rfl hd hm
  | memoryRequest => exact execMemoryRequest_wf _ _ _ _ _ _ _ s rfl hd hm
  | st => exact execSt_wf _ _ _ _ s rfl hd hm
  | storeAck => exact execStoreAck_wf _ _ _ s rfl hd hm
  | renderJobEnd => exact execRenderJobEnd_wf _ s rfl hd hm
  | hodDrainEnd => exact execHodDrainEnd_wf _ _ _ s rfl hd hm
  | hodTransferEnd => exact execHodTransferEnd_wf _ _ _ _ s rfl hd hm
  | mgtWrite => exact execMgtWrite_wf _ _ _ _ s rfl hd hm
  | _ =>
    refine NextKeeps.wf (d := s.trw.dram) (m := s.trw.sram) ?_ hd hm
    simp only [exec]
    simp

/-- Settles O3: an idle step changes nothing, and the front command leaves the memories canonical (`exec_wf`). -/
theorem memoriesStayCanonical : Obligations.MemoriesStayCanonical := by
  unfold Obligations.MemoriesStayCanonical
  intro s t wf run
  unfold step at run
  split at run
  case h_1 => cases run; exact wf
  case h_2 c rest _ => exact (exec_wf c { s with pending := rest } wf t run).2

end Sys2Proof.Laws
end

section
/-!
PROOFS. The statement of 18_daymark.md on recording, persistence and the cursor registers (R506 to R509, R512, R513).
-/

namespace Sys2Proof.Laws

open Sys2Proof.Machine

/-! ## Frames -/

theorem modDmk_unchanged (s : State) (f : Daymark → Daymark) : Unchanged [.dmk] s (modDmk s f) := by
  intro part hpart
  cases part with
  | dmk => exact absurd List.mem_cons_self hpart
  | _ => rfl

/-- A step that touches few of the parts a frame names, taken last. -/
theorem unchanged_snoc {few parts : List Part} {s t u : State} (h : Unchanged parts s t) (k : Unchanged few t u)
    (hsub : few ⊆ parts) : Unchanged parts s u := unchanged_trans h (unchanged_mono k hsub)

/-! ## Recording one event (R506 to R509) -/

section record

variable (s : State) (e : DmkEntry)

theorem placeCirc_unchanged : Unchanged [.regs, .dmk] s (placeCirc s e) := by
  unfold placeCirc
  extract_lets slot used placed shown
  have placed' : Unchanged [.regs, .dmk] s placed := unchanged_mono (modDmk_unchanged s _) (by decide)
  have shown' : Unchanged [.regs, .dmk] s shown :=
    unchanged_snoc (unchanged_snoc placed' (fset_unchanged _ _ _) (by decide)) (fset_unchanged _ _ _) (by decide)
  exact unchanged_snoc (unchanged_snoc shown' (fset_unchanged _ _ _) (by decide)) (fset_unchanged _ _ _) (by decide)

theorem placePerm_unchanged (i : Nat) : Unchanged [.regs, .dmk] s (placePerm s i e) := by
  unfold placePerm
  extract_lets placed shown
  have placed' : Unchanged [.regs, .dmk] s placed := unchanged_mono (modDmk_unchanged s _) (by decide)
  exact unchanged_snoc (unchanged_snoc placed' (fset_unchanged _ _ _) (by decide)) (fset_unchanged _ _ _) (by decide)

theorem newEntry_unchanged (code data : Nat) (ovf : Bool) : Unchanged [.tb, .dmk] s (newEntry s code data ovf).2 := by
  have stamped : Unchanged [.tb, .dmk] s (grantStamp s).2 := unchanged_mono (grantStamp_unchanged s) (by decide)
  have counted (b : Bucket) : Unchanged [.tb, .dmk] s (setBucket (grantStamp s).2 code b) :=
    unchanged_snoc (few := [.dmk]) stamped (modDmk_unchanged _ fun d => { d with buckets := _ }) (by decide)
  exact unchanged_snoc (few := [.dmk]) (counted _) (modDmk_unchanged _ _) (by decide)

theorem traceEntry_unchanged : Unchanged [.dmk, .out] s (traceEntry s e) := by
  unfold traceEntry
  dsimp only
  split
  · exact unchanged_mono (modDmk_unchanged s _) (by decide)
  · split
    · exact unchanged_mono (modDmk_unchanged s _) (by decide)
    · exact unchanged_snoc (unchanged_mono (modDmk_unchanged s _) (by decide)) (emit_unchanged _ _) (by decide)

/-- Tracing an entry touches of Daymark only what the trace port holds. -/
theorem dmk_traceEntry : ∃ ends lost, (traceEntry s e).dmk = { s.dmk with traceEnds := ends, traceLost := lost } := by
  unfold traceEntry
  dsimp only
  split
  · exact ⟨_, _, rfl⟩
  · split
    · exact ⟨_, _, rfl⟩
    · exact ⟨_, _, rfl⟩

/-- The entry of an event, as R506 to R509 fill it. -/
theorem newEntry_fields (code data : Nat) (ovf : Bool) : (newEntry s code data ovf).1.code = code ∧
    (newEntry s code data ovf).1.data = data % 2 ^ 32 ∧ (newEntry s code data ovf).1.eseq = s.dmk.eseq ∧
    (newEntry s code data ovf).1.suppressed = (getBucket s code).pending ∧
    (newEntry s code data ovf).1.perm = (getBucket s code).perm ∧
    (newEntry s code data ovf).1.loss = s.dmk.lossFlag := by
  refine ⟨rfl, rfl, ?_, rfl, rfl, ?_⟩
  · exact congrArg Daymark.eseq (dmk_grantStamp s)
  · exact congrArg Daymark.lossFlag (dmk_grantStamp s)

/-- Daymark after the entry of an event is drawn up: one more number, no LOSS flag, the code's count at 0. -/
theorem dmk_newEntry (code data : Nat) (ovf : Bool) : ∃ b, (newEntry s code data ovf).2.dmk =
    { s.dmk with
      buckets := b
      eseq := (s.dmk.eseq + 1) % 2 ^ 32
      lossFlag := false } := by
  refine ⟨tset (bucket0 code) (grantStamp s).2.dmk.buckets code { getBucket s code with pending := 0 }, ?_⟩
  simp only [newEntry, modDmk, setBucket, dmk_grantStamp]

end record

@[simp] theorem dmkSlot_traceEntry (s : State) (e : DmkEntry) (i : Nat) : dmkSlot (traceEntry s e) i = dmkSlot s i := by
  rw [dmkSlot, store_traceEntry, dmkSlot]

/-- The slot that the next circulating entry takes (R508). -/
def nextCirc (s : State) : Nat := match s.dmk.newest with | some n => circNext n | none => 512

theorem dmkSlot_placeCirc (s : State) (e : DmkEntry) (i : Nat) :
    dmkSlot (placeCirc s e) i = if i = nextCirc s then e else dmkSlot s i := tget_tset _ _ _ _ _

theorem dmkSlot_placePerm (s : State) (e : DmkEntry) (i j : Nat) :
    dmkSlot (placePerm s i e) j = if j = i then e else dmkSlot s j := tget_tset _ _ _ _ _

theorem dmk_placeCirc (s : State) (e : DmkEntry) : (placeCirc s e).dmk =
    { s.dmk with
      store := tset {} s.dmk.store (nextCirc s) e
      newest := some (nextCirc s)
      circUsed := min (s.dmk.circUsed + 1) 3584
      unpersist := min (s.dmk.unpersist + 1) 3584 } := rfl

theorem dmk_placePerm (s : State) (e : DmkEntry) (i : Nat) : (placePerm s i e).dmk =
    { s.dmk with
      store := tset {} s.dmk.store i e
      permDirty := true } := rfl

theorem newestSlot_placeCirc (s : State) (e : DmkEntry) :
    fget (placeCirc s e) DMK_NEWEST_SLOT = nextCirc s % 4096 := by
  unfold placeCirc
  extract_lets slot used placed shown
  rw [fget_fset_off _ _ _ _ (by decide), fget_fset_off _ _ _ _ (by decide), fget_fset_ne _ _ _ _ (by decide) (by decide)]
  exact fget_fset_same placed DMK_NEWEST_SLOT slot (by decide)

/-- An event of a code that is not permanent, recorded in the circulating area. -/
theorem recordEntry_circ {s : State} {code : Nat} (data : Nat) (circ : (getBucket s code).perm = false) :
    (dmkSlot (recordEntry s code data) (nextCirc s)) = (newEntry s code data false).1 ∧
      (recordEntry s code data).dmk.newest = some (nextCirc s) ∧ (recordEntry s code data).dmk.lossFlag = false ∧
      (recordEntry s code data).dmk.eseq = (s.dmk.eseq + 1) % 2 ^ 32 ∧
      (recordEntry s code data).dmk.intake = s.dmk.intake ∧
      fget (recordEntry s code data) DMK_NEWEST_SLOT = nextCirc s % 4096 ∧
      Unchanged [.tb, .regs, .dmk, .out] s (recordEntry s code data) := by
  have run : recordEntry s code data = traceEntry (placeCirc (newEntry s code data false).2 (newEntry s code data false).1)
      (newEntry s code data false).1 := by
    rw [recordEntry, circ, if_neg Bool.false_ne_true]
  obtain ⟨b, drawn⟩ := dmk_newEntry s code data false
  have slot : nextCirc (newEntry s code data false).2 = nextCirc s := by rw [nextCirc, drawn, nextCirc]
  generalize hplaced : placeCirc (newEntry s code data false).2 (newEntry s code data false).1 = placed at run
  obtain ⟨ends, lost, traced⟩ := dmk_traceEntry placed (newEntry s code data false).1
  have dmk : placed.dmk.newest = some (nextCirc s) ∧ placed.dmk.lossFlag = false ∧
      placed.dmk.eseq = (s.dmk.eseq + 1) % 2 ^ 32 ∧ placed.dmk.intake = s.dmk.intake := by
    rw [← hplaced, dmk_placeCirc, slot, drawn]
    exact ⟨rfl, rfl, rfl, rfl⟩
  have frame : Unchanged [.tb, .regs, .dmk, .out] s placed :=
    hplaced ▸ unchanged_snoc (unchanged_mono (newEntry_unchanged s code data false) (by decide))
      (placeCirc_unchanged _ _) (by decide)
  rw [run, dmkSlot_traceEntry, traced, ← hplaced, dmkSlot_placeCirc, slot, if_pos rfl, hplaced]
  refine ⟨rfl, dmk.1, dmk.2.1, dmk.2.2.1, dmk.2.2.2, ?_, unchanged_snoc frame (traceEntry_unchanged _ _) (by decide)⟩
  have regs : (traceEntry placed (newEntry s code data false).1).regs = placed.regs :=
    traceEntry_unchanged _ _ .regs (by decide)
  rw [fget_congr (rget_congr regs _), ← hplaced, newestSlot_placeCirc, slot]

/-- An event of a permanent code while the permanent area has room. -/
theorem recordEntry_perm {s : State} {code i : Nat} (data : Nat) (perm : (getBucket s code).perm = true)
    (free : permFree s = some i) :
    (dmkSlot (recordEntry s code data) i) = (newEntry s code data false).1 ∧
      (recordEntry s code data).dmk.permDirty = true ∧ (recordEntry s code data).dmk.newest = s.dmk.newest ∧
      (recordEntry s code data).dmk.intake = s.dmk.intake ∧
      (∀ j, j ≠ i → dmkSlot (recordEntry s code data) j = dmkSlot s j) ∧
      Unchanged [.tb, .regs, .dmk, .out] s (recordEntry s code data) := by
  have run : recordEntry s code data =
      traceEntry (placePerm (newEntry s code data false).2 i (newEntry s code data false).1)
        (newEntry s code data false).1 := by
    rw [recordEntry, perm, if_pos rfl, free]
  obtain ⟨b, drawn⟩ := dmk_newEntry s code data false
  have frame : Unchanged [.tb, .regs, .dmk, .out] s (placePerm (newEntry s code data false).2 i
      (newEntry s code data false).1) :=
    unchanged_snoc (unchanged_mono (newEntry_unchanged s code data false) (by decide)) (placePerm_unchanged _ _ _)
      (by decide)
  obtain ⟨ends, lost, traced⟩ := dmk_traceEntry (placePerm (newEntry s code data false).2 i
    (newEntry s code data false).1) (newEntry s code data false).1
  have slots (j : Nat) : dmkSlot (recordEntry s code data) j =
      if j = i then (newEntry s code data false).1 else dmkSlot s j := by
    rw [run, dmkSlot_traceEntry, dmkSlot_placePerm, dmkSlot, store_newEntry, dmkSlot]
  refine ⟨by rw [slots, if_pos rfl], ?_, ?_, ?_, fun j hj => by rw [slots, if_neg hj], ?_⟩
  · rw [run, traced, dmk_placePerm]
  · rw [run, traced, dmk_placePerm, drawn]
  · rw [run, traced, dmk_placePerm, drawn]
  · exact run ▸ unchanged_snoc frame (traceEntry_unchanged _ _) (by decide)

/-! ## DAYMARK_EVENT -/

theorem getBucket_takeIntake (s : State) (rest : List (Nat × Nat)) (code : Nat) :
    getBucket (modDmk s fun d => { d with intake := rest }) code = getBucket s code := rfl

theorem tb_takeIntake (s : State) (rest : List (Nat × Nat)) : (modDmk s fun d => { d with intake := rest }).tb = s.tb := rfl

/-- The bucket after it has given a token. -/
def tokenSpent (b : Bucket) : Bucket := { b with nano := b.nano - 1000000000 }

theorem perm_tokenSpent (b : Bucket) : (tokenSpent b).perm = b.perm := by cases b; rfl

theorem pending_tokenSpent (b : Bucket) : (tokenSpent b).pending = b.pending := by cases b; rfl

theorem perm_refill (b : Bucket) (now : Nat) : (b.refill now).perm = b.perm := by cases b; rfl

theorem pending_refill (b : Bucket) (now : Nat) : (b.refill now).pending = b.pending := by
  cases b; rfl

/-- R509: an event passes with a whole token, or where its code is never limited. -/
theorem grantEvent_passes (s : State) {code : Nat} (data : Nat)
    (passes : neverLimited code = true ∨ 1000000000 ≤ ((getBucket s code).refill s.tb.ns).nano) :
    ∃ b : Bucket, grantEvent s code data = recordEntry (setBucket s code b) code data ∧
      b.perm = (getBucket s code).perm ∧ b.pending = (getBucket s code).pending := by
  by_cases never : neverLimited code = true
  · exact ⟨_, grantEvent_unlimited s data never, perm_refill _ _, pending_refill _ _⟩
  · have run : grantEvent s code data =
        recordEntry (setBucket s code (tokenSpent ((getBucket s code).refill s.tb.ns))) code data := by
      rw [grantEvent, if_neg never, if_pos (passes.resolve_left never), tokenSpent]
    exact ⟨_, run, by rw [perm_tokenSpent, perm_refill], by rw [pending_tokenSpent, pending_refill]⟩

section event

variable {s : State} {code data : Nat} {rest : List (Nat × Nat)} (oldest : s.dmk.intake = (code, data) :: rest)

/-- The intake without its oldest event, and the code's bucket as it is after the decision (R509). -/
def eventTaken (s : State) (rest : List (Nat × Nat)) (code : Nat) (b : Bucket) : State :=
  setBucket (modDmk s fun d => { d with intake := rest }) code b

theorem getBucket_eventTaken (s : State) (rest : List (Nat × Nat)) (code : Nat) (b : Bucket) :
    getBucket (eventTaken s rest code b) code = b := (tget_tset _ _ _ _ _).trans (if_pos rfl)

theorem eventTaken_unchanged (s : State) (rest : List (Nat × Nat)) (code : Nat) (b : Bucket) :
    Unchanged [.dmk] s (eventTaken s rest code b) :=
  unchanged_trans (modDmk_unchanged s _) (modDmk_unchanged _ fun d =>
    { d with buckets := tset (bucket0 code) s.dmk.buckets code b })

include oldest

theorem exec_daymarkEvent : exec .daymarkEvent s =
    .next (grantEvent (modDmk s fun d => { d with intake := rest }) code data) := by
  have harm : exec .daymarkEvent s = execDaymarkEvent s := rfl
  rw [harm, execDaymarkEvent, oldest]

/-- An event that its bucket lets pass is recorded. -/
theorem exec_daymarkEvent_passes
    (passes : neverLimited code = true ∨ 1000000000 ≤ ((getBucket s code).refill s.tb.ns).nano) :
    ∃ b : Bucket, exec .daymarkEvent s = .next (recordEntry (eventTaken s rest code b) code data) ∧
      b.perm = (getBucket s code).perm ∧ b.pending = (getBucket s code).pending := by
  rw [← getBucket_takeIntake s rest, ← tb_takeIntake s rest] at passes
  obtain ⟨b, granted, kept⟩ := grantEvent_passes (modDmk s fun d => { d with intake := rest }) data passes
  exact ⟨b, (exec_daymarkEvent oldest).trans (congrArg _ granted), kept⟩

theorem daymarkEvent_circ
    (passes : neverLimited code = true ∨ 1000000000 ≤ ((getBucket s code).refill s.tb.ns).nano)
    (circ : (getBucket s code).perm = false) :
    ∃ t, exec .daymarkEvent s = .next t ∧ (dmkSlot t (nextCirc s)).code = code ∧
      (dmkSlot t (nextCirc s)).data = data % 2 ^ 32 ∧ (dmkSlot t (nextCirc s)).eseq = s.dmk.eseq ∧
      (dmkSlot t (nextCirc s)).suppressed = (getBucket s code).pending ∧
      (dmkSlot t (nextCirc s)).loss = s.dmk.lossFlag ∧ t.dmk.newest = some (nextCirc s) ∧ t.dmk.lossFlag = false ∧
      t.dmk.eseq = (s.dmk.eseq + 1) % 2 ^ 32 ∧ t.dmk.intake = rest ∧
      fget t DMK_NEWEST_SLOT = nextCirc s % 4096 ∧ Unchanged [.tb, .regs, .dmk, .out] s t := by
  obtain ⟨b, run, perm, pending⟩ := exec_daymarkEvent_passes oldest passes
  have bucket := getBucket_eventTaken s rest code b
  obtain ⟨entry, newest, loss, eseq, intake, shown, frame⟩ := recordEntry_circ (s := eventTaken s rest code b) data
    (by rw [bucket, perm, circ])
  obtain ⟨code', data', eseq', suppressed', -, loss'⟩ := newEntry_fields (eventTaken s rest code b) code data false
  have slot : nextCirc (eventTaken s rest code b) = nextCirc s := rfl
  rw [slot] at entry newest shown
  refine ⟨_, run, ?_, ?_, ?_, ?_, ?_, newest, loss, eseq, intake, shown,
    unchanged_trans (unchanged_mono (eventTaken_unchanged s rest code b) (by decide)) frame⟩
  · rw [entry, code']
  · rw [entry, data']
  · rw [entry]; exact eseq'
  · rw [entry, suppressed', bucket, pending]
  · rw [entry]; exact loss'

theorem daymarkEvent_perm {i : Nat}
    (passes : neverLimited code = true ∨ 1000000000 ≤ ((getBucket s code).refill s.tb.ns).nano)
    (perm : (getBucket s code).perm = true) (free : permFree s = some i) :
    ∃ t, exec .daymarkEvent s = .next t ∧ (dmkSlot t i).code = code ∧ (dmkSlot t i).data = data % 2 ^ 32 ∧
      (dmkSlot t i).perm = true ∧ t.dmk.permDirty = true ∧ t.dmk.newest = s.dmk.newest ∧ t.dmk.intake = rest ∧
      (∀ j, j ≠ i → dmkSlot t j = dmkSlot s j) ∧ Unchanged [.tb, .regs, .dmk, .out] s t := by
  obtain ⟨b, run, perm', pending⟩ := exec_daymarkEvent_passes oldest passes
  have bucket := getBucket_eventTaken s rest code b
  obtain ⟨entry, dirty, newest, intake, others, frame⟩ := recordEntry_perm (s := eventTaken s rest code b) (i := i) data
    (by rw [bucket, perm', perm]) free
  obtain ⟨code', data', -, -, permanent, -⟩ := newEntry_fields (eventTaken s rest code b) code data false
  refine ⟨_, run, ?_, ?_, ?_, dirty, newest, intake, others,
    unchanged_trans (unchanged_mono (eventTaken_unchanged s rest code b) (by decide)) frame⟩
  · rw [entry, code']
  · rw [entry, data']
  · rw [entry, permanent, bucket, perm', perm]

theorem daymarkEvent_suppressed (limited : neverLimited code = false)
    (empty : ((getBucket s code).refill s.tb.ns).nano < 1000000000) :
    ∃ t, exec .daymarkEvent s = .next t ∧ (getBucket t code).pending = min ((getBucket s code).pending + 1) 65535 ∧
      t.dmk.store = s.dmk.store ∧ t.dmk.eseq = s.dmk.eseq ∧ t.dmk.intake = rest ∧ Unchanged [.dmk] s t := by
  have run : exec .daymarkEvent s = .next (suppress (eventTaken s rest code ((getBucket s code).refill s.tb.ns)) code) := by
    rw [← getBucket_takeIntake s rest, ← tb_takeIntake s rest] at empty
    have limited' : ¬neverLimited code = true := by rw [limited]; exact Bool.false_ne_true
    rw [exec_daymarkEvent oldest, grantEvent, if_neg limited', if_neg (Nat.not_le.mpr empty), eventTaken,
      getBucket_takeIntake, tb_takeIntake]
  have counted (u : State) : (getBucket (suppress u code) code).pending = min ((getBucket u code).pending + 1) 65535 :=
    congrArg Bucket.pending ((tget_tset _ _ _ _ _).trans (if_pos rfl))
  refine ⟨_, run, ?_, rfl, rfl, rfl, ?_⟩
  · rw [counted, getBucket_eventTaken, pending_refill]
  · exact unchanged_trans (eventTaken_unchanged s rest code _) (modDmk_unchanged _ fun d => { d with buckets := _ })

end event

/-! ## DAYMARK_PERSIST (R513) -/

/-- DMK_PERSIST moves past the last entry of a block, where the block has one. -/
def persistShown (s : State) (last : Option DmkEntry) : State :=
  match last with
  | some e => fset s DMK_PERSIST_ESEQ ((e.eseq + 1) % 2 ^ 32)
  | none => s

theorem persistShown_regsBut (s : State) (last : Option DmkEntry) :
    RegsBut [DMK_PERSIST_ESEQ.off] s (persistShown s last) := by
  cases last with
  | none => exact regsBut_refl _ s
  | some e => exact regsBut_fset s _ List.mem_cons_self

theorem persistShown_unchanged (s : State) (last : Option DmkEntry) : Unchanged [.regs] s (persistShown s last) := by
  cases last with
  | none => exact unchanged_refl _ s
  | some e => exact fset_unchanged s _ _

/-- The flash copy of the store. -/
def persistCopied (s : State) (circ : List DmkEntry) : State :=
  { s with nv := { s.nv with dmkPerm := permEntries s, dmkCirc := circ } }

theorem persistStore_eq (s : State) (n : Nat) : ∃ circ last,
    persistStore s n = modDmk (persistShown (persistCopied s circ) last) fun d =>
      { d with unpersist := d.unpersist - n, permDirty := false, circClear := false } :=
  ⟨_, _, rfl⟩

theorem daymarkPersist_copies {s : State} (due : 256 ≤ s.dmk.unpersist) :
    ∃ t, exec (.daymarkPersist true) s = .next t ∧ t.dmk.unpersist = s.dmk.unpersist % 256 ∧ t.dmk.permDirty = false ∧
      t.nv.dmkPerm = permEntries s ∧ t.dmk.store = s.dmk.store ∧ RegsBut [DMK_PERSIST_ESEQ.off] s t ∧
      Unchanged [.nv, .regs, .dmk] s t := by
  have run : exec (.daymarkPersist true) s = .next (persistStore s (s.dmk.unpersist / 256 * 256)) := by
    have harm : exec (.daymarkPersist true) s = execDaymarkPersist true s := rfl
    rw [harm, execDaymarkPersist, if_neg (Nat.not_lt.mpr due), if_pos rfl]
  obtain ⟨circ, last, stored⟩ := persistStore_eq s (s.dmk.unpersist / 256 * 256)
  have copied : Unchanged [.nv] s (persistCopied s circ) := setNv_unchanged s _
  have shown := persistShown_unchanged (persistCopied s circ) last
  have words : RegsBut [DMK_PERSIST_ESEQ.off] s (persistShown (persistCopied s circ) last) := fun k hk =>
    (persistShown_regsBut (persistCopied s circ) last k hk).trans (rget_congr (copied .regs (by decide)) k)
  have perm : (persistCopied s circ).nv.dmkPerm = permEntries s := by rw [persistCopied]
  have dmk : (persistShown (persistCopied s circ) last).dmk = s.dmk :=
    (shown .dmk (by decide)).trans (copied .dmk (by decide))
  have kept : (persistShown (persistCopied s circ) last).nv = (persistCopied s circ).nv := shown .nv (by decide)
  generalize persistShown (persistCopied s circ) last = u at stored shown words dmk kept
  rw [stored] at run
  refine ⟨_, run, ?_, rfl, ?_, ?_, words, ?_⟩
  · rw [modDmk, dmk]
    exact (Nat.mod_eq_sub_div_mul).symm
  · rw [modDmk, kept, perm]
  · rw [modDmk, dmk]
  · exact unchanged_snoc (unchanged_snoc (unchanged_mono copied (by decide)) shown (by decide))
      (modDmk_unchanged _ _) (by decide)

/-! ## What a report leaves of Daymark and Keeper -/

/-- What no fault report changes of Daymark and of Keeper: the areas, their counts and numbers; the force bits and the
tally. -/
def reportKept (s : State) : (Tbl DmkEntry × Nat × Option Nat × Nat) × (Tbl Bool × Option Nat × Bool × List (Nat × Nat)) :=
  ((s.dmk.store, s.dmk.unpersist, s.dmk.newest, s.dmk.eseq),
    (s.kpr.force, s.kpr.forcing, s.kpr.tallyRunning, s.kpr.mismatch))

section kept

variable (s : State)

theorem reportKept_ite (c : Prop) [Decidable c] (a b : State) :
    reportKept (if c then a else b) = if c then reportKept a else reportKept b := apply_ite _ _ _ _

/-- States with the same Daymark and Keeper. -/
theorem reportKept_congr {s t : State} (hdmk : t.dmk = s.dmk) (hkpr : t.kpr = s.kpr) : reportKept t = reportKept s := by
  rw [reportKept, reportKept, hdmk, hkpr]

@[simp] theorem reportKept_fset (f : Fld) (x : Nat) : reportKept (fset s f x) = reportKept s := (rfl)

@[simp] theorem reportKept_rset (k : Nat) (v : Word) : reportKept (rset s k v) = reportKept s := (rfl)

@[simp] theorem reportKept_emit (o : Out) : reportKept (emit s o) = reportKept s := (rfl)

@[simp] theorem reportKept_modFn (fid : Nat) (f : FnState → FnState) : reportKept (modFn s fid f) = reportKept s := (rfl)

@[simp] theorem reportKept_modGroup (g : Nat) (f : GroupEntry → GroupEntry) :
    reportKept (modGroup s g f) = reportKept s := (rfl)

@[simp] theorem reportKept_countSource (src : Nat) : reportKept (countSource s src) = reportKept s := (rfl)

@[simp] theorem reportKept_aerReport (fid kind : Nat) : reportKept (aerReport s fid kind) = reportKept s := (rfl)

@[simp] theorem reportKept_grantStamp : reportKept (grantStamp s).2 = reportKept s :=
  reportKept_congr (grantStamp_unchanged s .dmk (by decide)) (grantStamp_unchanged s .kpr (by decide))

@[simp] theorem reportKept_dmkPush (code data : Nat) : reportKept (dmkPush s code data) = reportKept s := by
  unfold dmkPush
  split <;> rfl

@[simp] theorem reportKept_setPhase (p : Phase) (src cause : Nat) : reportKept (setPhase s p src cause) = reportKept s :=
  reportKept_dmkPush _ _ _

@[simp] theorem reportKept_keeperCause (k : Nat) : reportKept (keeperCause s k) = reportKept s := by
  unfold keeperCause
  dsimp only
  split
  · exact reportKept_congr (msixSend_unchanged _ _ _ .dmk (by decide)) (msixSend_unchanged _ _ _ .kpr (by decide))
  · rfl

@[simp] theorem reportKept_closeRecord (rseq : Nat) : reportKept (closeRecord s rseq) = reportKept s := by
  unfold closeRecord
  split
  · rfl
  · split <;> rfl

@[simp] theorem reportKept_openEntry (src rseq : Nat) (cls : Cls) :
    reportKept (openEntry s src rseq cls) = reportKept s := by
  cases cls with
  | corrected =>
    unfold openEntry
    dsimp only
    split
    · exact reportKept_closeRecord s rseq
    · split
      · exact reportKept_closeRecord s _
      · rfl
  | contained =>
    unfold openEntry
    dsimp only
    split
    · exact reportKept_closeRecord s _
    · rfl
  | fatal => rfl

@[simp] theorem reportKept_fogOnRecord (cls : Cls) : reportKept (fogOnRecord s cls) = reportKept s := by
  cases cls with
  | corrected | fatal => rfl
  | contained =>
    unfold fogOnRecord
    dsimp only
    split <;> rfl

@[simp] theorem reportKept_signalClass (src : Nat) (cls : Cls) : reportKept (signalClass s src cls) = reportKept s := by
  cases cls with
  | corrected | fatal => exact reportKept_keeperCause s _
  | contained => simp [signalClass, reportKept_ite]

/-- Keeper's part that reports change. -/
theorem reportKept_modKpr {f : Keeper → Keeper} (h : ∀ k : Keeper, (f k).force = k.force ∧ (f k).forcing = k.forcing ∧
    (f k).tallyRunning = k.tallyRunning ∧ (f k).mismatch = k.mismatch) : reportKept (modKpr s f) = reportKept s := by
  obtain ⟨force, forcing, running, mismatch⟩ := h s.kpr
  simp only [reportKept, modKpr, force, forcing, running, mismatch]

@[simp] theorem reportKept_enterRecord (word3 data : Nat) (cause : Option Nat) :
    reportKept (enterRecord s word3 data cause).2 = reportKept s := by
  unfold enterRecord
  dsimp -zeta -zetaHave only
  extract_lets rseq placed word w0 w1 w2 w3 w4 w5 w6 w7 listed counted
  have written : reportKept w7 = reportKept s := by
    simp [w7, w6, w5, w4, w3, w2, w1, w0, word, placed, reportKept_ite]
  have listed' : reportKept listed = reportKept s := (reportKept_modKpr w7 fun _ => ⟨rfl, rfl, rfl, rfl⟩).trans written
  simp [counted, listed']

@[simp] theorem reportKept_fatalFault (src : Nat) (direct : Bool) : reportKept (fatalFault s src direct) = reportKept s := by
  have decided : reportKept (safeDecide s src direct) = reportKept s := by
    unfold safeDecide
    refine (reportKept_keeperCause _ 2).trans ((reportKept_modKpr _ fun _ => ⟨rfl, rfl, rfl, rfl⟩).trans ?_)
    simp
  unfold fatalFault
  cases s.phase with
  | loading | selftest | discovery | bringup | serving | degraded => simp [reportKept_ite, decided]
  | ballast | off | safe | beacon =>
    dsimp only
    split <;> rfl

@[simp] theorem reportKept_reportRecord (r : Report) : reportKept (reportRecord s r) = reportKept s := by
  unfold reportRecord
  dsimp -zeta -zetaHave only
  extract_lets from? conseq? cls region opens listed counted fenced opened fogged signalled escalated final
  have fenced' : reportKept fenced = reportKept s := by
    have counted' : reportKept counted = reportKept s :=
      (reportKept_countSource _ _).trans ((reportKept_modKpr _ fun _ => ⟨rfl, rfl, rfl, rfl⟩).trans
        (reportKept_enterRecord s _ _ _))
    unfold fenced
    split
    · exact (reportKept_modKpr _ fun _ => ⟨rfl, rfl, rfl, rfl⟩).trans counted'
    · exact counted'
  simp [final, escalated, signalled, fogged, opened, reportKept_ite, fenced']

@[simp] theorem reportKept_report (r : Report) : reportKept (report s r) = reportKept s := by
  unfold report
  dsimp only
  split
  · rfl
  · split
    · simp [reportMerge, fbump, reportKept_ite]
    · exact reportKept_reportRecord s _

@[simp] theorem reportKept_raise (src data : Nat) : reportKept (raise s src data) = reportKept s := by
  unfold raise
  split
  · rfl
  · exact reportKept_report s _

@[simp] theorem reportKept_dmkSend (code data : Nat) : reportKept (dmkSend s code data) = reportKept s := by
  unfold dmkSend
  dsimp only
  split
  · exact reportKept_dmkPush s code data
  · split
    · exact reportKept_dmkPush s code data
    · exact (reportKept_raise _ _ _).trans (reportKept_dmkPush s code data)

end kept

/-! ## A persist that fails -/

theorem daymarkPersist_fails {s : State} (due : 256 ≤ s.dmk.unpersist) :
    ∃ t, exec (.daymarkPersist false) s = .next t ∧ fget t DMK_STATUS_PERSIST_ERR = 1 ∧
      t.dmk.unpersist = s.dmk.unpersist ∧ t.dmk.store = s.dmk.store ∧ Unchanged reportParts s t := by
  have run : exec (.daymarkPersist false) s = .next (persistFailed s) := by
    have harm : exec (.daymarkPersist false) s = execDaymarkPersist false s := rfl
    rw [harm, execDaymarkPersist, if_neg (Nat.not_lt.mpr due), if_neg Bool.false_ne_true]
  have told (first : Nat) : ReportFrame (fset s DMK_STATUS_PERSIST_ERR 1)
      (raise (dmkSend (fset s DMK_STATUS_PERSIST_ERR 1) 0x0B41 first) 0xB02 first) :=
    ((ReportFrame.refl _).after_dmkSend _ _).after_raise _ _
  have kept : reportKept (persistFailed s) = reportKept s := by simp [persistFailed]
  have areas := congrArg Prod.fst kept
  refine ⟨_, run, ?_, congrArg (·.2.1) areas, congrArg (·.1) areas, ?_⟩
  · refine ((told _).fget_eq ?_).trans (fget_fset_same s _ _ (by decide))
    simp only [ReportKey, DMK_STATUS_PERSIST_ERR, DMK_LOSS_OVERFLOW]
    omega
  · exact unchanged_trans (unchanged_mono (fset_unchanged s _ _) (by decide)) (told _).parts

/-! ## The cursor registers (R512) -/

theorem dmkWin0Read_snaps {s : State} {a : Accessor} (ha : a ≠ .mgt) :
    ∃ t, exec (.dmkWin0Read a) s = .next t ∧ t.dmk.winCtl = (winEntry s (fget s DMK_CURSOR_SLOT)).words ∧
      t.dmk.winMgt = s.dmk.winMgt ∧
      t.out = .readData (((winEntry s (fget s DMK_CURSOR_SLOT)).words.headD 0).toNat) :: s.out ∧
      t.dmk.store = s.dmk.store ∧ Unchanged [.dmk, .out] s t := by
  have framed (f : Daymark → Daymark) (o : Out) : Unchanged [.dmk, .out] s (emit (modDmk s f) o) :=
    unchanged_snoc (unchanged_mono (modDmk_unchanged s f) (by decide)) (emit_unchanged _ o) (by decide)
  cases a with
  | mgt => exact absurd rfl ha
  | fn | flow => exact ⟨_, rfl, rfl, rfl, rfl, rfl, framed _ _⟩

theorem dmkWin0Read_mgt (s : State) : ∃ t, exec (.dmkWin0Read .mgt) s = .next t ∧
    t.dmk.winMgt = (winEntry s (fget s (cursorF .mgt DMK_CURSOR_SLOT))).words ∧ t.dmk.winCtl = s.dmk.winCtl ∧
    t.dmk.store = s.dmk.store ∧ Unchanged [.dmk, .out] s t :=
  ⟨_, rfl, rfl, rfl, rfl,
    unchanged_snoc (unchanged_mono (modDmk_unchanged s _) (by decide)) (emit_unchanged _ _) (by decide)⟩

/-- Word 7 of the snapshot has been answered. -/
def win7Answered (s : State) (a : Accessor) : State := emit s (.readData ((winWords s a).getD 7 0).toNat)

theorem exec_dmkWin7Read (s : State) (a : Accessor) : exec (.dmkWin7Read a) s = .next (winAdvance (win7Answered s a) a) :=
  rfl

theorem dmkWin7Read_advances {s : State} {a : Accessor} (auto : fget s (cursorF a DMK_CURSOR_AUTO) = 1) :
    ∃ t, exec (.dmkWin7Read a) s = .next t ∧ t.out = .readData (((winWords s a).getD 7 0).toNat) :: s.out ∧
      fget t (cursorF a DMK_CURSOR_SLOT) = cursorNext (fget s (cursorF a DMK_CURSOR_SLOT)) % 4096 ∧
      RegsBut [(cursorF a DMK_CURSOR_SLOT).off] s t ∧ Unchanged [.regs, .out] s t := by
  have advanced : winAdvance (win7Answered s a) a =
      fset (win7Answered s a) (cursorF a DMK_CURSOR_SLOT) (cursorNext (fget s (cursorF a DMK_CURSOR_SLOT))) :=
    if_pos auto
  rw [exec_dmkWin7Read, advanced]
  refine ⟨_, rfl, rfl, fget_fset_same _ _ _ (show 0 + 12 ≤ 32 by decide), ?_, ?_⟩
  · exact regsBut_fset (win7Answered s a) _ List.mem_cons_self
  · exact unchanged_snoc (unchanged_mono (emit_unchanged s _) (by decide)) (fset_unchanged _ _ _) (by decide)

theorem dmkWin7Read_stays {s : State} {a : Accessor} (auto : fget s (cursorF a DMK_CURSOR_AUTO) = 0) :
    ∃ t, exec (.dmkWin7Read a) s = .next t ∧ t.out = .readData (((winWords s a).getD 7 0).toNat) :: s.out ∧
      Unchanged [.out] s t := by
  have stays : winAdvance (win7Answered s a) a = win7Answered s a := by
    have off : ¬fget (win7Answered s a) (cursorF a DMK_CURSOR_AUTO) = 1 := fun on => by
      have same : fget (win7Answered s a) (cursorF a DMK_CURSOR_AUTO) = fget s (cursorF a DMK_CURSOR_AUTO) := rfl
      omega
    exact if_neg off
  rw [exec_dmkWin7Read, stays]
  exact ⟨_, rfl, rfl, emit_unchanged s _⟩

/-! ## The statement -/

/-- Settles O59, command by command. -/
theorem daymark : Obligations.Daymark := by
  unfold Obligations.Daymark
  exact ⟨⟨fun s code data rest oldest passes circ => daymarkEvent_circ oldest passes circ,
      fun s code data i rest oldest passes perm free => daymarkEvent_perm oldest passes perm free,
      fun s code data rest oldest limited empty => daymarkEvent_suppressed oldest limited empty⟩,
    fun s due => daymarkPersist_copies due, fun s due => daymarkPersist_fails due, fun s a ha => dmkWin0Read_snaps ha,
    dmkWin0Read_mgt, fun s a auto => dmkWin7Read_advances auto, fun s a auto => dmkWin7Read_stays auto⟩

end Sys2Proof.Laws
end

section
/-!
PROOFS. The statement of 17_keeper.md on covers, closing records, KPR_ACK, FOGHORN_N, KPR_IRQ_EN and the tally (R486, R489,
R495 to R497).
-/

namespace Sys2Proof.Laws

open Sys2Proof.Machine

theorem modKpr_unchanged (s : State) (f : Keeper → Keeper) : Unchanged [.kpr] s (modKpr s f) := by
  intro part hpart
  cases part with
  | kpr => exact absurd List.mem_cons_self hpart
  | _ => rfl

theorem regsBut_modKpr (s : State) (f : Keeper → Keeper) (keys : List Nat) : RegsBut keys s (modKpr s f) :=
  fun _ _ => rfl

theorem fget_modKpr (s : State) (f : Keeper → Keeper) (x : Fld) : fget (modKpr s f) x = fget s x := rfl

/-! ## The group table (R489) -/

/-- A table rebuilt entry by entry lists only rebuilt entries. -/
theorem rebuilt_entries {P : GroupEntry → Prop} (g : GroupEntry → GroupEntry) (hg : ∀ e, P (g e))
    (l t : Tbl GroupEntry) (ht : ∀ e ∈ t, P e.2) : ∀ e ∈ l.foldl (fun t x => tset {} t x.1 (g x.2)) t, P e.2 := by
  induction l generalizing t with
  | nil => exact ht
  | cons x l ih =>
    refine ih _ fun e he => ?_
    rcases mem_tset he with before | here
    · exact ht e before
    · rw [here]
      exact hg x.2

/-- A group entry without the record that closes. -/
def entryWithout (rseq : Nat) (e : GroupEntry) : GroupEntry :=
  { corr := if e.corr = some rseq then none else e.corr
    cont := if e.cont = some rseq then none else e.cont
    cover := if e.cont = some rseq then false else e.cover }

theorem entryWithout_names (rseq : Nat) (e : GroupEntry) :
    (entryWithout rseq e).corr ≠ some rseq ∧ (entryWithout rseq e).cont ≠ some rseq := by
  constructor
  · unfold entryWithout
    dsimp only
    split
    · exact nofun
    · assumption
  · unfold entryWithout
    dsimp only
    split
    · exact nofun
    · assumption

/-- A closed record is in no group entry. -/
theorem groups_dropOpen (s : State) (rseq : Nat) :
    ∀ e ∈ (dropOpen s rseq).kpr.groups, e.2.corr ≠ some rseq ∧ e.2.cont ≠ some rseq := by
  exact rebuilt_entries (P := fun e => e.corr ≠ some rseq ∧ e.cont ≠ some rseq) (entryWithout rseq)
    (entryWithout_names rseq) s.kpr.groups [] fun e he => absurd he List.not_mem_nil

/-! ## Closed records (R489) -/

/-- The words that closing the record in a slot writes: word 3 with ACKED, and ACK_US. -/
def closeWords (i : Nat) : List Nat := [(recAcked i).off, (recF i 6 0 32).off]

section close

variable {s : State} {rseq i : Nat}

theorem closeRecord_regsBut (found : findRec s rseq = some i) : RegsBut (closeWords i) s (closeRecord s rseq) := by
  rw [closeRecord, found]
  dsimp only
  split
  · exact regsBut_refl _ s
  · exact regsBut_trans (regsBut_fset s _ List.mem_cons_self)
      (regsBut_fset _ _ (List.mem_cons_of_mem _ List.mem_cons_self))

theorem closeRecord_unchanged (s : State) (rseq : Nat) : Unchanged [.regs] s (closeRecord s rseq) := by
  unfold closeRecord
  split
  · exact unchanged_refl _ s
  · split
    · exact unchanged_refl _ s
    · exact unchanged_trans (fset_unchanged s _ _) (fset_unchanged _ _ _)

theorem acked_closeRecord (found : findRec s rseq = some i) : fget (closeRecord s rseq) (recAcked i) = 1 := by
  rw [closeRecord, found]
  dsimp only
  split
  case isTrue acked => exact acked
  case isFalse =>
    have apart : (recAcked i).off ≠ (recF i 6 0 32).off := by simp only [recAcked, recF]; omega
    rw [fget_fset_off _ _ _ _ apart]
    exact fget_fset_same s (recAcked i) 1 (show 19 + 1 ≤ 32 by decide)

theorem closeOpen_closes (found : findRec s rseq = some i) : fget (closeOpen s rseq) (recAcked i) = 1 ∧
    (∀ e ∈ (closeOpen s rseq).kpr.groups, e.2.corr ≠ some rseq ∧ e.2.cont ≠ some rseq) ∧
    RegsBut (closeWords i) s (closeOpen s rseq) ∧ Unchanged [.regs, .kpr] s (closeOpen s rseq) :=
  ⟨acked_closeRecord found, groups_dropOpen _ rseq,
    regsBut_trans (closeRecord_regsBut found) (regsBut_modKpr _ _ _),
    unchanged_snoc (unchanged_mono (closeRecord_unchanged s rseq) (by decide)) (modKpr_unchanged _ _) (by decide)⟩

/-- Closing a record writes none of the fields by which records are found, and takes no ACKED bit back. -/
theorem fget_closeRecord (s : State) (rseq k : Nat) : fget (closeRecord s rseq) (recClass k) = fget s (recClass k) ∧
    fget (closeRecord s rseq) (recRseq k) = fget s (recRseq k) ∧
    (fget s (recAcked k) = 1 → fget (closeRecord s rseq) (recAcked k) = 1) := by
  unfold closeRecord
  split
  · exact ⟨rfl, rfl, id⟩
  case h_2 j _ =>
    split
    · exact ⟨rfl, rfl, id⟩
    · have word6 (word lo w : Nat) (h : word < 8 ∧ word ≠ 6) :
         (recF k word lo w).off ≠ (recF j 6 0 32).off := by simp only [recF]; omega
      have acked19 : (recAcked j).lo + (recAcked j).w ≤ 32 := show 19 + 1 ≤ 32 by decide
      refine ⟨?_, ?_, fun acked => ?_⟩
      · rw [recClass, fget_fset_off _ _ _ _ (word6 3 12 2 (by decide)), fget_fset_ne _ _ _ _ acked19]
        exact .inr (.inr (show 12 + 2 ≤ 19 by decide))
      · have apart : (recRseq k).off ≠ (recAcked j).off := by simp only [recRseq, recAcked, recF]; omega
        rw [recRseq, fget_fset_off _ _ _ _ (word6 5 0 16 (by decide))]
        exact fget_fset_off _ _ _ _ apart
      · rw [fget_fset_off _ _ _ _ (show (recAcked k).off ≠ _ from word6 3 19 1 (by decide))]
        by_cases same : k = j
        · rw [same]
          exact fget_fset_same s (recAcked j) 1 acked19
        · have apart : (recAcked k).off ≠ (recAcked j).off := by simp only [recAcked, recF]; omega
          rw [fget_fset_off _ _ _ _ apart, acked]

theorem findRec_closeRecord (s : State) (r q : Nat) : findRec (closeRecord s r) q = findRec s q := by
  have order : (closeRecord s r).kpr = s.kpr := closeRecord_unchanged s r .kpr (by decide)
  simp only [findRec, order, (fget_closeRecord s r _).1, (fget_closeRecord s r _).2.1]

theorem findRec_closeRecords (l : List Nat) (s : State) (q : Nat) : findRec (l.foldl closeRecord s) q = findRec s q := by
  induction l generalizing s with
  | nil => rfl
  | cons r l ih => rw [List.foldl_cons, ih, findRec_closeRecord]

theorem acked_closeRecords (l : List Nat) (s : State) (k : Nat) (acked : fget s (recAcked k) = 1) :
    fget (l.foldl closeRecord s) (recAcked k) = 1 := by
  induction l generalizing s with
  | nil => exact acked
  | cons r l ih => exact ih _ ((fget_closeRecord s r k).2.2 acked)

/-- Every record named in a list is closed after the list has been worked off. -/
theorem closeRecords_close {l : List Nat} (named : rseq ∈ l) (found : findRec s rseq = some i) :
    fget (l.foldl closeRecord s) (recAcked i) = 1 := by
  induction l generalizing s with
  | nil => exact absurd named List.not_mem_nil
  | cons r l ih =>
    rw [List.foldl_cons]
    rcases List.mem_cons.mp named with here | later
    · exact acked_closeRecords l _ i (here ▸ acked_closeRecord found)
    · exact ih later ((findRec_closeRecord s r rseq).trans found)

end close

/-! ## COVER_DONE, RECORD_CLOSE_EXPIRY, KPR_ACK, FOGHORN_PULSE_END -/

section records

variable {s : State} {rseq i : Nat}

theorem coverDone_marks (kept : Bool) (found : findRec s rseq = some i) :
    ∃ t, exec (.coverDone rseq kept) s = .next t ∧ fget t (recCover i) = 1 ∧
      t.kpr.fences = (if kept then s.kpr.fences.filter (·.1 != rseq) else s.kpr.fences) ∧
      RegsBut [(recCover i).off] s t ∧ Unchanged [.regs, .kpr] s t := by
  have marked : fget (fset s (recCover i) 1) (recCover i) = 1 :=
    fget_fset_same s (recCover i) 1 (show 20 + 1 ≤ 32 by decide)
  have words : RegsBut [(recCover i).off] s (fset s (recCover i) 1) := regsBut_fset s 1 List.mem_cons_self
  have covered (f : Keeper → Keeper) : Unchanged [.regs, .kpr] s (modKpr (fset s (recCover i) 1) f) :=
    unchanged_snoc (unchanged_mono (fset_unchanged s _ 1) (by decide)) (modKpr_unchanged _ f) (by decide)
  have harm : exec (.coverDone rseq kept) s = execCoverDone rseq kept s := rfl
  rw [harm, execCoverDone, found]
  cases kept with
  | false => exact ⟨_, rfl, marked, rfl, words, covered _⟩
  | true => exact ⟨_, rfl, marked, rfl, words, unchanged_snoc (covered _) (modKpr_unchanged _ _) (by decide)⟩

theorem recordCloseExpiry_closes (found : findRec s rseq = some i) (due : fget s (recClass i) = 1 ∨
    (fget s (recClass i) = 2 ∧ fget s (recCover i) = 1 ∧ fget s KPR_CTL_CONT_WIN ≠ 0)) :
    exec (.recordCloseExpiry rseq) s = .next (closeOpen s rseq) := by
  have harm : exec (.recordCloseExpiry rseq) s = execRecordCloseExpiry rseq s := rfl
  rw [harm, execRecordCloseExpiry, found]
  dsimp only
  rcases due with corrected | ⟨contained, covered, window⟩
  · rw [if_pos corrected]
  · rw [if_neg (by omega), if_pos (by simp [contained, covered, window])]

theorem recordCloseExpiry_waits (found : findRec s rseq = some i) (contained : fget s (recClass i) = 2)
    (uncovered : fget s (recCover i) = 0) : exec (.recordCloseExpiry rseq) s = .next s := by
  have harm : exec (.recordCloseExpiry rseq) s = execRecordCloseExpiry rseq s := rfl
  rw [harm, execRecordCloseExpiry, found]
  dsimp only
  rw [if_neg (by omega), if_neg (by simp [uncovered])]

theorem exec_kprAck_one {v : Word} (one : bitsGet v 16 1 = 0) (opens : (openRseqs s).contains (bitsGet v 0 16) = true) :
    exec (.kprAck v) s = .next (closeOpen s (bitsGet v 0 16)) := by
  have harm : exec (.kprAck v) s = execKprAck v s := rfl
  rw [harm, execKprAck, if_neg (by omega)]
  exact if_pos opens

theorem kprAck_all {v : Word} (all : bitsGet v 16 1 = 1) :
    ∃ t, exec (.kprAck v) s = .next t ∧ t.kpr.groups = [] ∧
      (∀ rseq i, rseq ∈ openRseqs s → findRec s rseq = some i → fget t (recAcked i) = 1) ∧ Unchanged [.regs, .kpr] s t := by
  have harm : exec (.kprAck v) s = execKprAck v s := rfl
  rw [harm, execKprAck, if_pos all]
  have closed : Unchanged [.regs] s ((openRseqs s).foldl closeRecord s) := unchanged_foldl closeRecord_unchanged _ s
  refine ⟨_, rfl, rfl, fun rseq i named found => ?_, ?_⟩
  · exact (fget_modKpr _ _ _).trans (closeRecords_close named found)
  · exact unchanged_snoc (unchanged_mono closed (by decide)) (modKpr_unchanged _ _) (by decide)

theorem foghornPulseEnd_ends (s : State) : ∃ t, exec .foghornPulseEnd s = .next t ∧ t.kpr.pulse = false ∧
    foghornLow t = (s.kpr.locked || s.phase == .safe || s.phase == .beacon || fget s KPR_FOGHORN_HOLD == 1) ∧
    t.kpr.order = s.kpr.order ∧ t.kpr.fences = s.kpr.fences ∧ Unchanged [.kpr] s t :=
  ⟨_, rfl, rfl, rfl, rfl, rfl, modKpr_unchanged s _⟩

end records

/-! ## KPR_IRQ_EN (R496) -/

section irq

variable {s : State} {v : Word}

/-- The write enables a cause whose bit is set. -/
def irqFresh (s : State) (v : Word) : Bool :=
  (List.range 6).any fun k => bitsGet v 0 6 / 2 ^ k % 2 == 1 && !fbit s KPR_IRQ_EN_EN k && fbit s KPR_IRQ_STAT_CAUSE k

theorem exec_irqEnableWrite : exec (.irqEnableWrite v) s = .next (if irqFresh s v
    then msixSend (fset s KPR_IRQ_EN_EN (bitsGet v 0 6)) (ctlFid (fset s KPR_IRQ_EN_EN (bitsGet v 0 6))) 0
    else fset s KPR_IRQ_EN_EN (bitsGet v 0 6)) := rfl

theorem irqFresh_iff : irqFresh s v = true ↔ ∃ k < 6, (bitsGet v 0 6).testBit k = true ∧ fbit s KPR_IRQ_EN_EN k = false ∧
    fbit s KPR_IRQ_STAT_CAUSE k = true := by
  simp [irqFresh, Nat.testBit_eq_decide_div_mod_eq, and_assoc]

theorem enabled_reads : fget (fset s KPR_IRQ_EN_EN (bitsGet v 0 6)) KPR_IRQ_EN_EN = bitsGet v 0 6 :=
  (fget_fset_same s KPR_IRQ_EN_EN _ (by decide)).trans (Nat.mod_mod _ _)

theorem irqEnableWrite_quiet (quiet : ∀ k < 6, (bitsGet v 0 6).testBit k = true → fbit s KPR_IRQ_EN_EN k = false →
      fbit s KPR_IRQ_STAT_CAUSE k = false) :
    ∃ t, exec (.irqEnableWrite v) s = .next t ∧ fget t KPR_IRQ_EN_EN = bitsGet v 0 6 ∧ RegsBut [KPR_IRQ_EN_EN.off] s t ∧
      Unchanged [.regs] s t := by
  have stale : ¬irqFresh s v = true := fun fresh => by
    obtain ⟨k, hk, wanted, off, cause⟩ := irqFresh_iff.mp fresh
    exact absurd (quiet k hk wanted off) (by simp [cause])
  rw [exec_irqEnableWrite, if_neg stale]
  exact ⟨_, rfl, enabled_reads, regsBut_fset s _ List.mem_cons_self, fset_unchanged s _ _⟩

/-- A message of an enabled, unmasked vector of a function that may issue requests is sent (R113). -/
theorem msixSend_sends {s : State} {fid vec : Nat} (enabled : (getFn s fid).msixEn = true)
    (stays : (getFn s fid).teardown = 0) (open_ : (getFn s fid).msixMask = false)
    (unmasked : (tget {} (getFn s fid).vectors vec).masked = false) (live : (getFn s fid).live = true) :
    msixSend s fid vec = emit s (.msix fid vec) := by
  simp [msixSend, enabled, stays, open_, unmasked, live]

theorem irqEnableWrite_sends {k : Nat} (hk : k < 6) (wanted : (bitsGet v 0 6).testBit k = true)
    (off : fbit s KPR_IRQ_EN_EN k = false) (cause : fbit s KPR_IRQ_STAT_CAUSE k = true)
    (enabled : (getFn s (ctlFid s)).msixEn = true) (stays : (getFn s (ctlFid s)).teardown = 0)
    (open_ : (getFn s (ctlFid s)).msixMask = false)
    (unmasked : (tget {} (getFn s (ctlFid s)).vectors 0).masked = false) (live : (getFn s (ctlFid s)).live = true) :
    ∃ t, exec (.irqEnableWrite v) s = .next t ∧ fget t KPR_IRQ_EN_EN = bitsGet v 0 6 ∧
      t.out = .msix (ctlFid s) 0 :: s.out ∧ Unchanged [.regs, .out] s t := by
  have fid : ctlFid (fset s KPR_IRQ_EN_EN (bitsGet v 0 6)) = ctlFid s := by
    rw [ctlFid, ctlPort, fget_fset_off _ _ _ _ (by decide), ctlFid, ctlPort]
  rw [exec_irqEnableWrite, if_pos (irqFresh_iff.mpr ⟨k, hk, wanted, off, cause⟩), fid,
    msixSend_sends (s := fset s KPR_IRQ_EN_EN (bitsGet v 0 6)) enabled stays open_ unmasked live]
  exact ⟨_, rfl, enabled_reads, rfl,
    unchanged_snoc (unchanged_mono (fset_unchanged s _ _) (by decide)) (emit_unchanged _ _) (by decide)⟩

end irq

/-! ## The tally (R497) -/

section tally

variable {s : State} {q inst pool : Nat} {parts : List Nat}

theorem tallyTick_starts (on : tallies s = true) :
    ∃ t, exec .tallyTick s = .next t ∧ t.kpr.tallyRunning = true ∧ t.kpr.mismatch = [] ∧
      fget t KPR_TALLY_ROUNDS = (if s.kpr.tallyRunning then min (fget s KPR_TALLY_ROUNDS + 1) (2 ^ KPR_TALLY_ROUNDS.w - 1)
        else fget s KPR_TALLY_ROUNDS) ∧ RegsBut [KPR_TALLY_ROUNDS.off] s t ∧ Unchanged [.regs, .kpr] s t := by
  have harm : exec .tallyTick s = execTallyTick s := rfl
  rw [harm, execTallyTick, if_pos on]
  cases s.kpr.tallyRunning with
  | true =>
    exact ⟨_, rfl, rfl, rfl, fget_fbump s KPR_TALLY_ROUNDS (by decide), regsBut_fset s _ List.mem_cons_self,
      unchanged_snoc (unchanged_mono (fset_unchanged s KPR_TALLY_ROUNDS _) (by decide)) (modKpr_unchanged _ _) (by decide)⟩
  | false =>
    exact ⟨_, rfl, rfl, rfl, rfl, regsBut_refl _ s, unchanged_mono (modKpr_unchanged s _) (by decide)⟩

theorem tallySnapshot_waits (running : s.kpr.tallyRunning = true) (hq : q < 8) (unbalanced : parts.sum ≠ pool) :
    ∃ t, exec (.tallySnapshot q inst parts pool) s = .next t ∧ t.kpr.mismatch = s.kpr.mismatch ++ [(q, inst)] ∧
      t.kpr.order = s.kpr.order ∧ Unchanged [.kpr] s t := by
  have harm : exec (.tallySnapshot q inst parts pool) s = execTallySnapshot q inst parts pool s := rfl
  rw [harm, execTallySnapshot, if_pos (by simp [running, hq, unbalanced])]
  exact ⟨_, rfl, rfl, rfl, modKpr_unchanged s _⟩

theorem tallySkip_shows (running : s.kpr.tallyRunning = true) (hq : q < 8) :
    ∃ t, exec (.tallySkip q) s = .next t ∧ fbit t KPR_TALLY_SKIPPED q = true ∧ RegsBut [KPR_TALLY_SKIPPED.off] s t ∧
      Unchanged [.regs] s t := by
  have harm : exec (.tallySkip q) s = execTallySkip q s := rfl
  rw [harm, execTallySkip, if_pos (by simp [running, hq])]
  refine ⟨_, rfl, ?_, ?_, fsetBit_unchanged s _ _ _⟩
  · rw [fbit_fsetBit s KPR_TALLY_SKIPPED true (by decide) hq hq, if_pos rfl]
  · exact regsBut_fset (f := { KPR_TALLY_SKIPPED with lo := KPR_TALLY_SKIPPED.lo + q, w := 1 }) s _ List.mem_cons_self

/-- The mismatch of one instance no longer waits. -/
def mismatchTaken (s : State) (q inst : Nat) : State :=
  modKpr s fun k => { k with mismatch := k.mismatch.filter (· != (q, inst)) }

theorem not_mem_mismatchTaken : (q, inst) ∉ (mismatchTaken s q inst).kpr.mismatch := by
  simp [mismatchTaken, modKpr]

theorem tallyRecheck_balanced (waits : (q, inst) ∈ s.kpr.mismatch) (balanced : parts.sum = pool) :
    ∃ t, exec (.tallyRecheck q inst parts pool) s = .next t ∧ (q, inst) ∉ t.kpr.mismatch ∧ Unchanged [.kpr] s t := by
  have run : exec (.tallyRecheck q inst parts pool) s = .next (mismatchTaken s q inst) := by
    have harm : exec (.tallyRecheck q inst parts pool) s = execTallyRecheck q inst parts pool s := rfl
    rw [harm, execTallyRecheck, if_neg (by simp [waits]), if_pos balanced, mismatchTaken]
  exact ⟨_, run, not_mem_mismatchTaken, modKpr_unchanged s _⟩

/-- What Keeper records of a mismatch that persists. -/
def persistTold (s : State) (q inst : Nat) : State :=
  keeperCause (dmkSend (raise s (0x010 + q) inst) 0x0004 (q + inst % 2 ^ 24 * 256)) 4

theorem tallyRecheck_run (waits : (q, inst) ∈ s.kpr.mismatch) (unbalanced : parts.sum ≠ pool) (hq : q ∈ [0, 6, 7]) :
    exec (.tallyRecheck q inst parts pool) s =
      .next (persistTold (fsetBit (mismatchTaken s q inst) KPR_TALLY_PERSIST q true) q inst) := by
  have harm : exec (.tallyRecheck q inst parts pool) s = execTallyRecheck q inst parts pool s := rfl
  have idle (u : State) : tallyAct u q inst = u := by
    simp only [List.mem_cons, List.not_mem_nil, or_false] at hq
    rcases hq with rfl | rfl | rfl <;> rfl
  rw [harm, execTallyRecheck, if_neg (by simp [waits]), if_neg unbalanced]
  dsimp only
  rw [idle, ite_self]
  rfl

/-- The words a new record is written to, beside its slot's. -/
theorem fget_enterRecord (s : State) (word3 data : Nat) (cause : Option Nat) {f : Fld} (hf : f.off ∉ signalWords)
    (status : f.off ≠ 0x1400000) (next : f.off ≠ 0x1400010) (records : f.off < 0x1400100) :
    fget (enterRecord s word3 data cause).2 f = fget s f := by
  unfold enterRecord
  dsimp -zeta -zetaHave only
  extract_lets rseq placed word w0 w1 w2 w3 w4 w5 w6 w7 listed counted
  have placed' : fget placed f = fget s f := by
    have stamped : fget (grantStamp s).2 f = fget s f := fget_congr (rget_congr (grantStamp_unchanged s .regs (by decide)) _)
    have plain : ¬SignalField f := by
      rintro (signal | ⟨i, hi, ack | ⟨ack, -⟩⟩)
      · exact hf signal
      · simp only [recF] at ack
        omega
      · simp only [recAcked, recF] at ack
        omega
    unfold placed
    split
    · rw [(((SignalFrame.refl _).after_dmkPush _ _).after_keeperCause 5).fields f plain, fget_fset_off _ _ _ _ status,
        stamped]
    · exact stamped
  have written (b : State) (i v : Nat) : fget (word b i v) f = fget b f :=
    fget_congr (by rw [rget_rset, if_neg (by omega)])
  have whole : fget w7 f = fget placed f := by
    simp only [w7, w6, w5, w4, w3, w2, w1, w0, written]
  have listed' : fget listed f = fget w7 f := fget_modKpr w7 _ f
  rw [fget_fset_off _ _ _ _ next, fget_fset_off _ _ _ _ next, listed', whole, placed']

/-- No report writes a field of KPR_TALLY. -/
theorem fget_report_tally (s : State) (r : Report) {f : Fld} (hf : f.off = KPR_TALLY_PERSIST.off) :
    fget (report s r) f = fget s f := by
  have words : f.off ∉ signalWords ∧ f.off ≠ KPR_SAFE_VALID.off ∧ f.off ≠ 0x1400000 ∧ f.off ≠ 0x1400010 ∧
      f.off < 0x1400100 := by rw [hf]; decide
  obtain ⟨signal, safe, status, next, records⟩ := words
  have plain : ¬SignalField f := by
    rintro (here | ⟨i, hi, ack | ⟨ack, -⟩⟩)
    · exact signal here
    · simp only [recF] at ack
      omega
    · simp only [recAcked, recF] at ack
      omega
  unfold report
  dsimp only
  split
  · rfl
  · split
    case h_1 i hi =>
      have merged : fget (reportMerge s (forcedReport s r).src i) f = fget s f := by
        have apart : f.off ≠ (recRepeat i).off := by simp only [recRepeat, recF]; omega
        rw [reportMerge, fget_fset_off _ _ _ _ next, fbump, fget_fset_off _ _ _ _ apart]
        rfl
      split
      · exact (((SignalFrame.refl _).after_dmkPush _ _).fields f plain).trans merged
      · exact merged
    case h_2 =>
      obtain ⟨cause, u, signalled, run⟩ := reportRecord_signals s (forcedReport s r)
      rw [run]
      have shown : fget u f = fget s f := (signalled.fields f plain).trans (fget_enterRecord s _ _ _ signal status next records)
      split
      · exact (fget_fatalFault u _ _ plain safe).trans shown
      · exact shown

theorem fget_raise_tally (s : State) (src data : Nat) {f : Fld} (hf : f.off = KPR_TALLY_PERSIST.off) :
    fget (raise s src data) f = fget s f := by
  unfold raise
  split
  · rfl
  · exact fget_report_tally s _ hf

theorem fget_dmkPush (s : State) (code data : Nat) {f : Fld} (h : f.off ≠ DMK_LOSS_OVERFLOW.off) :
    fget (dmkPush s code data) f = fget s f := fget_congr (rget_dmkPush s code data (.inr h))

theorem fget_dmkSend_tally (s : State) (code data : Nat) {f : Fld} (hf : f.off = KPR_TALLY_PERSIST.off) :
    fget (dmkSend s code data) f = fget s f := by
  have pushed : fget (dmkPush s code data) f = fget s f := fget_dmkPush s code data (by rw [hf]; decide)
  unfold dmkSend
  dsimp only
  split
  · exact pushed
  · split
    · exact pushed
    · exact (fget_raise_tally _ _ _ hf).trans pushed

theorem persistTold_frame (s : State) (q inst : Nat) : ReportFrame s (persistTold s q inst) :=
  (((ReportFrame.refl s).after_raise _ _).after_dmkSend _ _).after_keeperCause _

theorem fget_persistTold (s : State) (q inst : Nat) {f : Fld} (hf : f.off = KPR_TALLY_PERSIST.off) :
    fget (persistTold s q inst) f = fget s f := by
  have plain : ¬SignalField f := by
    rintro (here | ⟨i, hi, ack | ⟨ack, -⟩⟩)
    · rw [hf] at here
      exact absurd here (by decide)
    · simp only [hf, recF, KPR_TALLY_PERSIST] at ack
      omega
    · simp only [hf, recAcked, recF, KPR_TALLY_PERSIST] at ack
      omega
  rw [persistTold, ((SignalFrame.refl _).after_keeperCause 4).fields f plain, fget_dmkSend_tally _ _ _ hf,
    fget_raise_tally _ _ _ hf]

theorem tallyRecheck_persists (waits : (q, inst) ∈ s.kpr.mismatch) (unbalanced : parts.sum ≠ pool) (hq : q ∈ [0, 6, 7]) :
    ∃ t, exec (.tallyRecheck q inst parts pool) s = .next t ∧ fbit t KPR_TALLY_PERSIST q = true ∧
      (q, inst) ∉ t.kpr.mismatch ∧ Unchanged reportParts s t := by
  have hq8 : q < 8 := by
    simp only [List.mem_cons, List.not_mem_nil, or_false] at hq
    omega
  have kept : reportKept (persistTold (fsetBit (mismatchTaken s q inst) KPR_TALLY_PERSIST q true) q inst) =
      reportKept (mismatchTaken s q inst) := by simp [persistTold, fsetBit]
  refine ⟨_, tallyRecheck_run waits unbalanced hq, ?_, ?_, ?_⟩
  · rw [fbit_congr q (fget_persistTold _ q inst rfl), fbit_fsetBit _ _ _ (by decide) hq8 hq8, if_pos rfl]
  · rw [show (persistTold _ q inst).kpr.mismatch = (mismatchTaken s q inst).kpr.mismatch from congrArg (·.2.2.2.2) kept]
    exact not_mem_mismatchTaken
  · exact unchanged_trans (unchanged_mono (modKpr_unchanged s _) (by decide))
      (unchanged_trans (unchanged_mono (fsetBit_unchanged _ _ _ _) (by decide)) (persistTold_frame _ q inst).parts)

end tally

/-! ## The statement -/

/-- Settles O57, command by command. -/
theorem recordsSignalsTally : Obligations.RecordsSignalsTally := by
  unfold Obligations.RecordsSignalsTally
  exact ⟨⟨fun s rseq i kept found => coverDone_marks kept found,
      fun s rseq i found due => ⟨_, recordCloseExpiry_closes found due, closeOpen_closes found⟩,
      fun s rseq i found contained uncovered => recordCloseExpiry_waits found contained uncovered,
      fun s v i one opens found => ⟨_, exec_kprAck_one one opens, closeOpen_closes found⟩,
      fun s v all => kprAck_all all, foghornPulseEnd_ends⟩,
    fun s v quiet => irqEnableWrite_quiet quiet,
    fun s v k hk wanted off cause enabled stays open_ unmasked live =>
      irqEnableWrite_sends hk wanted off cause enabled stays open_ unmasked live,
    fun s on => tallyTick_starts on,
    fun s q inst parts pool running hq unbalanced => tallySnapshot_waits running hq unbalanced,
    fun s q running hq => tallySkip_shows running hq,
    fun s q inst parts pool waits balanced => tallyRecheck_balanced waits balanced,
    fun s q inst parts pool waits unbalanced hq => tallyRecheck_persists waits unbalanced hq⟩

end Sys2Proof.Laws
end

section
/-!
PROOFS. The statement of 17_keeper.md on reports: their records, merging, FAULT_REPORT and forced faults (R485 to R488, R490,
R494).
-/

namespace Sys2Proof.Laws

open Sys2Proof.Machine

/-! ## The words of a new record (R487) -/

/-- Word 4 of the slot the record takes. -/
theorem rget_enterRecord_word4 (s : State) (word3 data : Nat) (cause : Option Nat) :
    rget (enterRecord s word3 data cause).2 (0x1400100 + 32 * newSlot s + 4 * 4) = BitVec.ofNat 32 data := by
  unfold enterRecord newSlot
  dsimp -zeta -zetaHave only
  generalize (pickSlot (grantStamp s).2).1 = slot
  extract_lets rseq placed word w0 w1 w2 w3 w4 w5 w6 w7 listed counted
  have notNext : 0x1400100 + 32 * slot + 4 * 4 ≠ 0x1400010 := by omega
  have atWord4 (b : State) (i v : Nat) : rget (word b i v) (0x1400100 + 32 * slot + 4 * 4) =
      if 4 = i then BitVec.ofNat 32 v else rget b (0x1400100 + 32 * slot + 4 * 4) := rget_rset_word b slot i 4 v
  rw [rget_fset _ KPR_HIST_NEXT_RSEQ _ _ notNext, rget_fset listed KPR_HIST_NEXT_SLOT slot _ notNext,
    rget_modKpr w7, atWord4, if_neg (by decide), atWord4, if_neg (by decide), atWord4, if_neg (by decide), atWord4,
    if_pos rfl]

theorem nextRseq_placed (s : State) {t : State} (h : SignalFrame s t) :
    fget t KPR_HIST_NEXT_RSEQ = fget s KPR_HIST_NEXT_RSEQ := by
  refine h.fields _ ?_
  rintro (here | ⟨i, hi, ack | ⟨ack, -⟩⟩)
  · exact absurd here (by decide)
  · simp only [recF, KPR_HIST_NEXT_RSEQ] at ack
    omega
  · simp only [recAcked, recF, KPR_HIST_NEXT_RSEQ] at ack
    omega

theorem fget_grantStamp (s : State) (f : Fld) : fget (grantStamp s).2 f = fget s f :=
  fget_congr (rget_congr (grantStamp_unchanged s .regs (by decide)) _)

/-- The number a new record takes. -/
theorem fst_enterRecord (s : State) (word3 data : Nat) (cause : Option Nat) :
    (enterRecord s word3 data cause).1 = fget s KPR_HIST_NEXT_RSEQ := fget_grantStamp s _

/-- Word 5: the record's number, and above it the number of the record it follows from. -/
theorem rget_enterRecord_word5 (s : State) (word3 data : Nat) (cause : Option Nat) :
    rget (enterRecord s word3 data cause).2 (0x1400100 + 32 * newSlot s + 4 * 5) =
      BitVec.ofNat 32 (fget s KPR_HIST_NEXT_RSEQ + cause.getD (fget s KPR_HIST_NEXT_RSEQ) * 65536) := by
  unfold enterRecord newSlot
  dsimp -zeta -zetaHave only
  generalize (pickSlot (grantStamp s).2).1 = slot
  extract_lets rseq placed word w0 w1 w2 w3 w4 w5 w6 w7 listed counted
  have number : rseq = fget s KPR_HIST_NEXT_RSEQ := fget_grantStamp s _
  have notNext : 0x1400100 + 32 * slot + 4 * 5 ≠ 0x1400010 := by omega
  have atWord5 (b : State) (i v : Nat) : rget (word b i v) (0x1400100 + 32 * slot + 4 * 5) =
      if 5 = i then BitVec.ofNat 32 v else rget b (0x1400100 + 32 * slot + 4 * 5) := rget_rset_word b slot i 5 v
  rw [rget_fset _ KPR_HIST_NEXT_RSEQ _ _ notNext, rget_fset listed KPR_HIST_NEXT_SLOT slot _ notNext,
    rget_modKpr w7, atWord5, if_neg (by decide), atWord5, if_neg (by decide), atWord5, if_pos rfl, number]

/-- The next number rises by one. -/
theorem nextRseq_enterRecord (s : State) (word3 data : Nat) (cause : Option Nat) :
    fget (enterRecord s word3 data cause).2 KPR_HIST_NEXT_RSEQ = (fget s KPR_HIST_NEXT_RSEQ + 1) % 65536 := by
  unfold enterRecord
  dsimp -zeta -zetaHave only
  extract_lets rseq placed word w0 w1 w2 w3 w4 w5 w6 w7 listed counted
  have number : rseq = fget s KPR_HIST_NEXT_RSEQ := fget_grantStamp s _
  rw [fget_fset_same _ KPR_HIST_NEXT_RSEQ _ (by decide), number]
  exact Nat.mod_mod _ _

/-! ## What stands in a record after its report is signalled -/

/-- A field of a record that signalling leaves: not its ACKED bit, nor its ACK_US. -/
theorem not_signalField_record {slot word lo w : Nat} (hslot : slot < 32) (hword : word < 8) (plain : word ≠ 6)
    (beside : word = 3 → 19 < lo ∨ lo + w ≤ 19) : ¬SignalField (recF slot word lo w) := by
  rintro (here | ⟨i, hi, ack | ⟨ack, low, high⟩⟩)
  · simp only [signalWords, recF, KPR_FOGHORN_HOLD, KPR_IRQ_STAT_CAUSE, KPR_MGT_STAT_CAUSE, DMK_LOSS_OVERFLOW,
      List.mem_cons, List.not_mem_nil, or_false] at here
    omega
  · simp only [recF] at ack
    omega
  · simp only [recAcked, recF] at ack low high
    omega

/-- Beside the signalled fields and KPR_SAFE, a record's fields read as they were entered. -/
theorem fget_reportRecord (s : State) (r : Report) : ∃ cause, ∀ f, ¬SignalField f → f.off ≠ KPR_SAFE_VALID.off →
    fget (reportRecord s r) f = fget (enterRecord s (recWord3 r.src (classOf s r) r.cls r.forced
      (escalatedFrom s r).isSome (conseqOf s r).isSome false) r.data cause).2 f := by
  obtain ⟨cause, u, signalled, run⟩ := reportRecord_signals s r
  refine ⟨cause, fun f plain safe => ?_⟩
  rw [run]
  split
  · rw [fget_fatalFault _ _ _ plain safe, signalled.fields _ plain]
  · exact signalled.fields _ plain

/-- A record that a report has entered in slot `slot` with its class, its data and the number `rseq`. -/
structure Entered (t : State) (slot : Nat) (r : Report) (cls : Cls) (rseq : Nat) : Prop where
  source : fget t (recSource slot) = r.src % 4096
  cls : fget t (recClass slot) = cls.code
  forced : fget t (recF slot 3 16 1) = b2n r.forced
  data : fget t (recF slot 4 0 32) = r.data % 2 ^ 32
  number : fget t (recRseq slot) = rseq
  next : fget t KPR_HIST_NEXT_RSEQ = (rseq + 1) % 65536

theorem recWord3_class (src : Nat) (cls raised : Cls) (forced escalated conseq acked : Bool) :
    bitsGet (BitVec.ofNat 32 (recWord3 src cls raised forced escalated conseq acked)) 12 2 = cls.code := by
  unfold bitsGet recWord3
  rw [BitVec.toNat_ofNat]
  have code : cls.code < 4 := by cases cls <;> decide
  omega

theorem recWord3_forced (src : Nat) (cls raised : Cls) (forced escalated conseq acked : Bool) :
    bitsGet (BitVec.ofNat 32 (recWord3 src cls raised forced escalated conseq acked)) 16 1 = b2n forced := by
  unfold bitsGet recWord3
  rw [BitVec.toNat_ofNat]
  have code : cls.code < 4 := by cases cls <;> decide
  have code' : raised.code < 4 := by cases raised <;> decide
  have bit : b2n forced < 2 := by cases forced <;> decide
  omega

theorem bitsGet_ofNat_low (v w : Nat) (hw : w ≤ 32) : bitsGet (BitVec.ofNat 32 v) 0 w = v % 2 ^ w := by
  rw [bitsGet, BitVec.toNat_ofNat, Nat.pow_zero, Nat.div_one]
  exact Nat.mod_mod_of_dvd _ (Nat.pow_dvd_pow 2 hw)

theorem reportRecord_enters (s : State) (r : Report) :
    Entered (reportRecord s r) (newSlot s) r (classOf s r) (fget s KPR_HIST_NEXT_RSEQ) := by
  obtain ⟨cause, shown⟩ := fget_reportRecord s r
  have record (word lo w : Nat) (hword : word < 8 ∧ word ≠ 6) (beside : word = 3 → 19 < lo ∨ lo + w ≤ 19) :=
    shown (recF (newSlot s) word lo w) (not_signalField_record (pickSlot_lt _) hword.1 hword.2 beside) (by
      simp only [recF, KPR_SAFE_VALID]; omega)
  have word3 := rget_enterRecord_word3 s (recWord3 r.src (classOf s r) r.cls r.forced (escalatedFrom s r).isSome
    (conseqOf s r).isSome false) r.data cause
  refine ⟨recSource_reportRecord s r, ?_, ?_, ?_, ?_, ?_⟩
  · refine (record 3 12 2 (by decide) (by decide)).trans ?_
    rw [fget, show (recF (newSlot s) 3 12 2).off = 0x1400100 + 32 * newSlot s + 4 * 3 from rfl, word3]
    exact recWord3_class _ _ _ _ _ _ _
  · refine (record 3 16 1 (by decide) (by decide)).trans ?_
    rw [fget, show (recF (newSlot s) 3 16 1).off = 0x1400100 + 32 * newSlot s + 4 * 3 from rfl, word3]
    exact recWord3_forced _ _ _ _ _ _ _
  · refine (record 4 0 32 (by decide) (by decide)).trans ?_
    rw [fget, show (recF (newSlot s) 4 0 32).off = 0x1400100 + 32 * newSlot s + 4 * 4 from rfl, rget_enterRecord_word4]
    exact bitsGet_ofNat_low _ 32 (by decide)
  · refine (record 5 0 16 (by decide) (by decide)).trans ?_
    rw [fget, show (recF (newSlot s) 5 0 16).off = 0x1400100 + 32 * newSlot s + 4 * 5 from rfl, rget_enterRecord_word5]
    refine (bitsGet_ofNat_low _ 16 (by decide)).trans ?_
    have small := fget_lt s KPR_HIST_NEXT_RSEQ
    simp only [show KPR_HIST_NEXT_RSEQ.w = 16 from rfl] at small
    omega
  · refine (shown KPR_HIST_NEXT_RSEQ ?_ (by decide)).trans (nextRseq_enterRecord s _ _ _)
    rintro (here | ⟨i, hi, ack | ⟨ack, -⟩⟩)
    · exact absurd here (by decide)
    · simp only [recF, KPR_HIST_NEXT_RSEQ] at ack
      omega
    · simp only [recAcked, recF, KPR_HIST_NEXT_RSEQ] at ack
      omega

/-! ## Fences of a record (R486) -/

section fences

variable (s : State)

theorem fences_congr {s t : State} (h : t.kpr = s.kpr) : t.kpr.fences = s.kpr.fences := congrArg Keeper.fences h

theorem kpr_dmkPush (code data : Nat) : (dmkPush s code data).kpr = s.kpr := dmkPush_unchanged s code data .kpr (by decide)

theorem kpr_keeperCause (k : Nat) : (keeperCause s k).kpr = s.kpr := by
  unfold keeperCause
  dsimp only
  split
  · exact msixSend_unchanged _ _ _ .kpr (by decide)
  · rfl

theorem kpr_fset (f : Fld) (x : Nat) : (fset s f x).kpr = s.kpr := (rfl)

theorem kpr_closeRecord (rseq : Nat) : (closeRecord s rseq).kpr = s.kpr := closeRecord_unchanged s rseq .kpr (by decide)

theorem fences_modKpr {f : Keeper → Keeper} (h : ∀ k : Keeper, (f k).fences = k.fences) :
    (modKpr s f).kpr.fences = s.kpr.fences := h s.kpr

theorem mem_fences_modKpr {fence : Nat × Region} :
    fence ∈ (modKpr s fun k => { k with fences := k.fences ++ [fence] }).kpr.fences :=
  List.mem_append_right _ (List.mem_singleton_self _)

theorem fences_modGroup (g : Nat) (f : GroupEntry → GroupEntry) : (modGroup s g f).kpr.fences = s.kpr.fences :=
  fences_modKpr s fun _ => rfl

theorem fences_openEntry (src rseq : Nat) (cls : Cls) : (openEntry s src rseq cls).kpr.fences = s.kpr.fences := by
  cases cls with
  | corrected =>
    unfold openEntry
    dsimp only
    split
    · exact fences_congr (kpr_closeRecord s rseq)
    · rw [fences_modGroup]
      split
      · exact fences_congr (kpr_closeRecord s _)
      · rfl
  | contained =>
    unfold openEntry
    dsimp only
    rw [fences_modGroup]
    split
    · exact fences_congr (kpr_closeRecord s _)
    · rfl
  | fatal => rfl

theorem fences_fogOnRecord (cls : Cls) : (fogOnRecord s cls).kpr.fences = s.kpr.fences := by
  cases cls with
  | corrected | fatal => rfl
  | contained =>
    unfold fogOnRecord
    dsimp only
    split <;> rfl

theorem kpr_signalClass (src : Nat) (cls : Cls) : (signalClass s src cls).kpr = s.kpr := by
  cases cls with
  | corrected | fatal => exact kpr_keeperCause s _
  | contained =>
    refine (kpr_keeperCause _ 1).trans ?_
    split <;> rfl

theorem fences_fatalFault (src : Nat) (direct : Bool) : (fatalFault s src direct).kpr.fences = s.kpr.fences := by
  have decided : (safeDecide s src direct).kpr.fences = s.kpr.fences := by
    have entered : (setPhase s .safe src).kpr = s.kpr := setPhase_unchanged s .safe src 0 .kpr (by decide)
    unfold safeDecide
    dsimp only
    rw [kpr_keeperCause]
    generalize pushed : dmkPush _ _ _ = b
    refine (fences_modKpr b fun _ => rfl).trans ?_
    rw [← pushed, kpr_dmkPush]
    simp only [kpr_fset, entered]
  unfold fatalFault
  cases s.phase with
  | loading | selftest | discovery | bringup | serving | degraded =>
    dsimp only
    split
    · rfl
    · exact decided
  | ballast | off | safe | beacon =>
    dsimp only
    split <;> rfl

/-- A contained or fatal record fences its region outside SAFE and BEACON. -/
theorem reportRecord_fences (r : Report) (cls : classOf s r ≠ .corrected) (notSafe : s.phase ≠ .safe)
    (notBeacon : s.phase ≠ .beacon) (region : r.region.getD (sourceRegion r.src) ≠ .none) :
    (fget s KPR_HIST_NEXT_RSEQ, r.region.getD (sourceRegion r.src)) ∈ (reportRecord s r).kpr.fences := by
  unfold reportRecord
  dsimp -zeta -zetaHave only
  extract_lets +onlyGivenNames from? conseq? cls' region' opens
  generalize run : enterRecord s (recWord3 r.src cls' r.cls r.forced from?.isSome conseq?.isSome false) r.data
    (from? <|> conseq?) = e
  have number : e.1 = fget s KPR_HIST_NEXT_RSEQ := run ▸ fst_enterRecord s _ _ _
  have entered : e.2.phase = s.phase := run ▸ enterRecord_unchanged s _ _ _ .phase (by decide)
  clear run
  extract_lets listed counted fenced opened fogged signalled escalated final
  have phase : counted.phase = s.phase :=
    ((((SignalFrame.refl e.2).after_modKpr _).after_countSource _).parts .phase (by decide)).trans entered
  have fences : (fget s KPR_HIST_NEXT_RSEQ, region') ∈ fenced.kpr.fences := by
    have due : (cls' != .corrected && region' != .none && counted.phase != .safe && counted.phase != .beacon) = true := by
      rw [phase]
      simp only [Bool.and_eq_true, bne_iff_ne]
      exact ⟨⟨⟨cls, region⟩, notSafe⟩, notBeacon⟩
    unfold fenced
    rw [if_pos due, ← number]
    exact mem_fences_modKpr counted
  have opened' : opened.kpr.fences = fenced.kpr.fences := by
    unfold opened
    split
    · exact fences_openEntry _ _ _ _
    · split
      · exact fences_congr (kpr_closeRecord _ _)
      · rfl
  have escalated' : escalated.kpr = signalled.kpr := by
    unfold escalated
    split
    · exact (kpr_keeperCause _ _).trans (kpr_dmkPush _ _ _)
    · rfl
  have final' : final.kpr = escalated.kpr := by
    unfold final
    split
    · exact kpr_dmkPush _ _ _
    · rfl
  have told : final.kpr.fences = fenced.kpr.fences := by
    rw [final', escalated', kpr_signalClass, fences_fogOnRecord, opened']
  split
  · rw [fences_fatalFault, told]
    exact fences
  · rw [told]
    exact fences

end fences

/-! ## A report (R485, R488) -/

section report

variable {s : State} {r : Report}

/-- A report that does not merge enters its record as it stands, or forced with a data word of 0. -/
theorem report_enters (on : s.phase ≠ .off) (fresh : r.cls = .corrected → mergeSlot s r.src = none) :
    report s r = reportRecord s (forcedReport s r) := by
  have source : (forcedReport s r).src = r.src ∧ (forcedReport s r).cls = r.cls := by
    unfold forcedReport
    split <;> exact ⟨rfl, rfl⟩
  have fresh' : (if (forcedReport s r).cls = .corrected then mergeSlot s (forcedReport s r).src else none) = none := by
    rw [source.1, source.2]
    split
    case isTrue h => exact fresh h
    case isFalse => rfl
  unfold report
  dsimp only
  rw [if_neg on, fresh']

theorem forcedReport_unforced (unforced : s.kpr.forcing ≠ some r.src) : forcedReport s r = r := if_neg unforced

/-- A corrected report that merges counts in its source's latest record. -/
theorem report_merges {i : Nat} (on : s.phase ≠ .off) (unforced : s.kpr.forcing ≠ some r.src) (plain : r.forced = false)
    (corrected : r.cls = .corrected) (merges : mergeSlot s r.src = some i) : report s r = reportMerge s r.src i := by
  unfold report
  dsimp only
  rw [forcedReport_unforced unforced, if_neg on, if_pos corrected, merges]
  dsimp only
  rw [plain]
  rfl

theorem reportMerge_counts (s : State) (src i : Nat) :
    fget (reportMerge s src i) (recRepeat i) = min (fget s (recRepeat i) + 1) 255 ∧
      fget (reportMerge s src i) KPR_HIST_NEXT_RSEQ = fget s KPR_HIST_NEXT_RSEQ ∧
      Unchanged [.regs, .kpr] s (reportMerge s src i) := by
  have counted : Unchanged [.regs, .kpr] s (countSource s src) := unchanged_mono (modKpr_unchanged s _) (by decide)
  have apart : (recRepeat i).off ≠ KPR_HIST_NEXT_SLOT.off := by
    simp only [recRepeat, recF, KPR_HIST_NEXT_SLOT]
    omega
  unfold reportMerge
  refine ⟨?_, ?_, ?_⟩
  · rw [fget_fset_off _ _ _ _ apart, fget_fbump _ _ (show 24 + 8 ≤ 32 by decide)]
    rfl
  · rw [fget_fset_ne _ _ _ _ (by decide) (by decide), fbump,
      fget_fset_off _ _ _ _ (show KPR_HIST_NEXT_RSEQ.off ≠ (recRepeat i).off from apart.symm)]
    rfl
  · exact unchanged_snoc (unchanged_snoc counted (fset_unchanged _ _ _) (by decide)) (fset_unchanged _ _ _) (by decide)

end report

/-! ## FAULT_REPORT, KPR_FORCE and FORCE_TAKEN (R485, R494) -/

/-- The sources whose owner has nothing to do but to report. -/
theorem ownEvent_reports {src : Nat} (h : src ∈ [0x001, 0x002, 0x003, 0x010, 0x011, 0x012, 0x013, 0x014, 0x015, 0x016,
    0x017, 0x0A0, 0x0A1, 0x0A2, 0x0A3, 0x171, 0xB00, 0xB02, 0xB03, 0xB11, 0xB13, 0xB14]) (s : State) (data : Nat)
    (el : List Nat) : ownEvent s src data el = raise s src data := by
  simp only [List.mem_cons, List.not_mem_nil, or_false] at h
  rcases h with rfl | rfl | rfl | rfl | rfl | rfl | rfl | rfl | rfl | rfl | rfl | rfl | rfl | rfl | rfl | rfl | rfl | rfl |
    rfl | rfl | rfl | rfl
  all_goals rfl

/-- Sources are numbered in 12 bits (Table 17-1). -/
theorem sourceClass_above {src : Nat} (h : 4096 ≤ src) : sourceClass src = none := by
  have past {n : Nat} {a b : Option Cls} (below : n ≤ 4096) : (if src < n then a else b) = b := if_neg (by omega)
  have other {n : Nat} (small : n < 4096) : decide (src = n) = false := decide_eq_false (by omega)
  unfold sourceClass
  dsimp only
  iterate 15 rw [past (by decide)]
  simp (disch := decide) only [other, Bool.or_false, Bool.false_eq_true, if_false]

theorem sourceEvent_reports {s : State} {src : Nat} (only : ReportsOnly s src) (data : Nat) (el : List Nat) :
    sourceEvent s src data el = raise s src data := by
  obtain ⟨-, -, where_⟩ := only
  unfold sourceEvent
  by_cases quiet : s.phase = .safe ∨ s.phase = .beacon
  · rw [if_pos (by simpa using quiet)]
  · have listed := where_.resolve_left (fun h => quiet (.inl h)) |>.resolve_left (fun h => quiet (.inr h))
    rw [if_neg (by simpa using quiet)]
    dsimp only
    rw [ownEvent_reports listed, ite_self]

theorem raise_eq {s : State} {src : Nat} {c : Cls} (data : Nat) (hc : sourceClass src = some c) :
    raise s src data = report s { src := src, cls := c, data := data } := by
  unfold raise
  rw [hc]

theorem faultReport_reports {s : State} {src : Nat} {c : Cls} (data : Nat) (el : List Nat) (on : s.phase ≠ .off)
    (only : ReportsOnly s src) (hc : sourceClass src = some c) :
    exec (.faultReport src data el) s = .next (report s { src := src, cls := c, data := data }) := by
  have harm : exec (.faultReport src data el) s = execFaultReport src data el s := rfl
  rw [harm, execFaultReport, if_neg (by simp [on, hc]), if_neg only.2.1, sourceEvent_reports only, raise_eq data hc]

theorem kprForce_sets {s : State} {v : Word} (key : bitsGet v 16 16 = 0xC0DE)
    (defined : (sourceClass (bitsGet v 0 12)).isSome = true) :
    ∃ t, exec (.kprForce v) s = .next t ∧ tget false t.kpr.force (bitsGet v 0 12) = true ∧
      (∀ x, x ≠ bitsGet v 0 12 → tget false t.kpr.force x = tget false s.kpr.force x) ∧ t.kpr.order = s.kpr.order ∧
      t.kpr.groups = s.kpr.groups ∧ Unchanged [.kpr] s t := by
  have harm : exec (.kprForce v) s = execKprForce v s := rfl
  rw [harm, execKprForce, if_pos (by simp [key, defined])]
  refine ⟨_, rfl, (tget_tset _ _ _ _ _).trans (if_pos rfl), fun x hx => (tget_tset _ _ _ _ _).trans (if_neg hx), rfl, rfl,
    modKpr_unchanged s _⟩

theorem kprForce_reserved {s : State} {v : Word} (bad : bitsGet v 16 16 ≠ 0xC0DE ∨ sourceClass (bitsGet v 0 12) = none) :
    ∃ t, exec (.kprForce v) s = .next t ∧ fget t KPR_STATUS_RSV_WRITE = 1 ∧ RegsBut [KPR_STATUS_RSV_WRITE.off] s t ∧
      Unchanged [.regs] s t := by
  have harm : exec (.kprForce v) s = execKprForce v s := rfl
  have refused : ¬(decide (bitsGet v 16 16 = 0xC0DE) && (sourceClass (bitsGet v 0 12)).isSome) = true := by
    rcases bad with key | undefined_
    · simp [key]
    · simp [undefined_]
  rw [harm, execKprForce, if_neg refused]
  exact ⟨_, rfl, fget_fset_same s _ _ (by decide), regsBut_fset s _ List.mem_cons_self, fset_unchanged s _ _⟩

/-- A source with its force bit taken, in the step that detects its event. -/
def forceTaken (s : State) (src : Nat) : State :=
  modKpr (modKpr s fun k => { k with force := tset false k.force src false }) fun k => { k with forcing := some src }

/-- The step after the forced detection. -/
def forceOver (s : State) : State := modKpr s fun k => { k with forcing := none }

theorem newSlot_forceTaken (s : State) (src : Nat) : newSlot (forceTaken s src) = newSlot s := by
  have stamped (b : State) : (grantStamp b).2.kpr = b.kpr := grantStamp_unchanged b .kpr (by decide)
  have order : (grantStamp (forceTaken s src)).2.kpr.order = (grantStamp s).2.kpr.order := by
    rw [stamped, stamped]
    rfl
  have words (f : Fld) : fget (grantStamp (forceTaken s src)).2 f = fget (grantStamp s).2 f :=
    (fget_grantStamp _ f).trans (fget_grantStamp s f).symm
  simp only [newSlot, pickSlot, order, words]

theorem mergeSlot_forceTaken (s : State) (src x : Nat) : mergeSlot (forceTaken s src) x = mergeSlot s x := by
  have latest : (forceTaken s src).kpr.lastRec = s.kpr.lastRec := rfl
  have found (r : Nat) : findRec (forceTaken s src) r = findRec s r := rfl
  have words (f : Fld) : fget (forceTaken s src) f = fget s f := rfl
  have ns : (forceTaken s src).tb.ns = s.tb.ns := rfl
  simp only [mergeSlot, latest, found, recTime, words, ns]
  rfl

theorem forceTaken_enters {s : State} {src : Nat} {c : Cls} (el : List Nat) (on : s.phase ≠ .off)
    (only : ReportsOnly s src) (hc : sourceClass src = some c) (bit : tget false s.kpr.force src = true)
    (fresh : c = .corrected → mergeSlot s src = none) :
    exec (.forceTaken src el) s = .next (forceOver (reportRecord (forceTaken s src)
      { src := src, cls := c, data := 0, forced := true })) := by
  have harm : exec (.forceTaken src el) s = execForceTaken src el s := rfl
  have only' : ReportsOnly (forceTaken s src) src := only
  have told : raise (forceTaken s src) src 0 =
      reportRecord (forceTaken s src) { src := src, cls := c, data := 0, forced := true } := by
    rw [raise_eq 0 hc, report_enters (s := forceTaken s src) on
      (fun corrected => (mergeSlot_forceTaken s src src).trans (fresh corrected))]
    exact congrArg _ (if_pos rfl)
  rw [harm, execForceTaken, if_neg (by simp [bit])]
  dsimp only
  rw [if_neg only.2.1, ← told, ← sourceEvent_reports only' 0 el, forceOver, forceTaken]

theorem forceTaken_records {s : State} {src : Nat} {c : Cls} (el : List Nat) (on : s.phase ≠ .off)
    (only : ReportsOnly s src) (hc : sourceClass src = some c) (bit : tget false s.kpr.force src = true)
    (fresh : c = .corrected → mergeSlot s src = none) :
    ∃ t, exec (.forceTaken src el) s = .next t ∧ tget false t.kpr.force src = false ∧ t.kpr.forcing = none ∧
      fget t (recSource (newSlot s)) = src ∧ fget t (recF (newSlot s) 3 16 1) = 1 ∧
      fget t (recF (newSlot s) 4 0 32) = 0 ∧ Unchanged reportParts s t := by
  generalize hr : ({ src := src, cls := c, data := 0, forced := true } : Report) = r at *
  have entered := reportRecord_enters (forceTaken s src) r
  have kept := reportKept_reportRecord (forceTaken s src) r
  have frame : Unchanged reportParts (forceTaken s src) (reportRecord (forceTaken s src) r) :=
    ((ReportFrame.refl _).after_reportRecord r).parts
  have small : src < 4096 := by
    by_contra above
    rw [sourceClass_above (Nat.le_of_not_lt above)] at hc
    exact absurd hc nofun
  rw [newSlot_forceTaken] at entered
  have run := forceTaken_enters el on only hc bit fresh
  rw [hr] at run
  refine ⟨_, run, ?_, rfl, ?_, ?_, ?_, ?_⟩
  · have force : (reportRecord (forceTaken s src) r).kpr.force = (forceTaken s src).kpr.force := congrArg (·.2.1) kept
    rw [show (forceOver (reportRecord (forceTaken s src) r)).kpr.force = _ from force]
    exact (tget_tset _ _ _ _ _).trans (if_pos rfl)
  · refine (fget_modKpr _ _ _).trans (entered.source.trans ?_)
    rw [← hr]
    exact Nat.mod_eq_of_lt small
  · refine (fget_modKpr _ _ _).trans (entered.forced.trans ?_)
    rw [← hr]
    rfl
  · refine (fget_modKpr _ _ _).trans (entered.data.trans ?_)
    rw [← hr]
    exact Nat.zero_mod _
  · exact unchanged_snoc (unchanged_trans (unchanged_mono (unchanged_trans (modKpr_unchanged s _) (modKpr_unchanged _ _))
      (by decide)) frame) (modKpr_unchanged _ _) (by decide)

/-! ## The statement -/

/-- Settles O56: a report by whether it merges, then each command. -/
theorem reportsEnterRecords : Obligations.ReportsEnterRecords := by
  unfold Obligations.ReportsEnterRecords
  refine ⟨⟨fun s r on unforced fresh => ?_, fun s r i on unforced plain corrected merges => ?_⟩,
    fun s src data el c on only hc _ => ⟨_, faultReport_reports data el on only hc, rfl⟩,
    fun s v key defined => kprForce_sets key defined, fun s v bad => kprForce_reserved bad,
    fun s src el c on only hc bit fresh => forceTaken_records el on only hc bit fresh⟩
  · have frame := (ReportFrame.refl s).after_report r
    rw [report_enters on fresh, forcedReport_unforced unforced] at *
    have entered := reportRecord_enters s r
    refine ⟨entered.source, entered.cls, entered.data, entered.number, entered.next,
      fun cls notSafe notBeacon region => reportRecord_fences s r cls notSafe notBeacon region, fun k hk => ?_, frame.parts⟩
    refine frame.regs k ?_
    simp only [ReportKey, DMK_LOSS_OVERFLOW]
    omega
  · rw [report_merges on unforced plain corrected merges]
    exact reportMerge_counts s r.src i

end Sys2Proof.Laws
end

section
/-!
PROOFS. The statement of 04_host_ports.md and 20_address_map.md on the accesses from outside: the management port's transactions
and the host's memory requests (R111, R112, R539, R543, R544).
-/

namespace Sys2Proof.Laws

open Sys2Proof.Machine

/-! ## Plain stores (R6 to R8) -/

/-- No two fields of a list share a bit, and all lie in the word. -/
def FieldsApart (fs : List FieldDesc) : Prop :=
  (∀ f ∈ fs, f.lo + f.w ≤ 32) ∧ fs.Pairwise fun f g => f.lo + f.w ≤ g.lo ∨ g.lo + g.w ≤ f.lo

/-- The register map's own check: the fields of every BAR0 register lie apart. -/
theorem bar0Regs_apart : ∀ r ∈ bar0Regs, FieldsApart r.fields := by
  unfold FieldsApart
  decide +kernel

section store

variable {rsv : Fld} {k : Nat} {v : Word}

/-- Storing a field leaves every other word but the RSV_WRITE bit's, and every field beside it. -/
theorem fget_storeField_ne (beside : rsv.off ≠ k) (s : State) (f : FieldDesc) (g : Fld) (hf : f.lo + f.w ≤ 32) (atKey : g.off = k)
    (apart : f.lo + f.w ≤ g.lo ∨ g.lo + g.w ≤ f.lo) : fget (storeField rsv k v s f) g = fget s g := by
  have other : fget (fset s rsv 1) g = fget s g := fget_fset_off _ _ _ _ (by rw [atKey]; exact beside.symm)
  have own (x : Nat) : fget (fset s ⟨k, f.lo, f.w⟩ x) g = fget s g := fget_fset_ne _ _ _ _ hf (.inr apart)
  unfold storeField
  dsimp only
  split
  · split
    · exact other
    · exact own _
  · split
    · exact other
    · exact own _
  · exact own _
  all_goals rfl

/-- A list of fields beside `g` leaves `g`. -/
theorem fget_storeFields_ne (beside : rsv.off ≠ k) (fs : List FieldDesc) (s : State) (g : Fld) (inWord : ∀ f ∈ fs, f.lo + f.w ≤ 32) (atKey : g.off = k)
    (apart : ∀ f ∈ fs, f.lo + f.w ≤ g.lo ∨ g.lo + g.w ≤ f.lo) : fget (storeFields s rsv k v fs) g = fget s g := by
  induction fs generalizing s with
  | nil => rfl
  | cons f fs ih =>
    refine (ih _ (fun f hf => inWord f (.tail _ hf)) fun f hf => apart f (.tail _ hf)).trans ?_
    exact fget_storeField_ne beside s f g (inWord f (.head _)) atKey (apart f (.head _))

/-- A plain store of a word with no reserved value: every rw field reads what was written. -/
theorem fget_storeFields (beside : rsv.off ≠ k) (fs : List FieldDesc) (s : State) (apart : FieldsApart fs)
    (free : ∀ f ∈ fs, inRsv (bitsGet v f.lo f.w) f.rsv = false) (plain : ∀ (u : State) (f : FieldDesc), stateRsv u k v f = false)
    {f : FieldDesc} (hf : f ∈ fs) (rw_ : f.acc = .rw) :
    fget (storeFields s rsv k v fs) ⟨k, f.lo, f.w⟩ = bitsGet v f.lo f.w := by
  obtain ⟨inWord, pairs⟩ := apart
  induction fs generalizing s with
  | nil => exact absurd hf (List.not_mem_nil)
  | cons g gs ih =>
    obtain ⟨first, pairs'⟩ := List.pairwise_cons.mp pairs
    rcases List.mem_cons.mp hf with rfl | later
    · have stored : fget (storeField rsv k v s f) ⟨k, f.lo, f.w⟩ = bitsGet v f.lo f.w := by
        unfold storeField
        dsimp only
        rw [rw_]
        dsimp only
        rw [free f (.head _), plain s f, if_neg (by decide), fget_fset_same _ _ _ (inWord f (.head _))]
        exact Nat.mod_mod _ _
      refine (fget_storeFields_ne beside gs _ _ (fun g hg => inWord g (.tail _ hg)) rfl fun g hg => ?_).trans stored
      exact (first g hg).symm
    · exact ih _ (fun g hg => free g (.tail _ hg)) later (fun g hg => inWord g (.tail _ hg)) pairs'

/-- A plain store of a word with no reserved value leaves the words of other registers. -/
theorem rget_storeFields (fs : List FieldDesc) (s : State) (free : ∀ f ∈ fs, inRsv (bitsGet v f.lo f.w) f.rsv = false)
    (plain : ∀ (u : State) (f : FieldDesc), stateRsv u k v f = false) {j : Nat} (hj : j ≠ k) :
    rget (storeFields s rsv k v fs) j = rget s j := by
  refine rget_foldl fs s fun u f hf => ?_
  have own (x : Nat) : rget (fset u ⟨k, f.lo, f.w⟩ x) j = rget u j := rget_fset _ _ _ _ hj
  unfold storeField
  dsimp only
  rw [free f hf, plain u f, if_neg (by decide)]
  split
  · exact own _
  · exact own _
  · exact own _
  all_goals rfl

end store

/-! ## The management port (R544) -/

section port

/-- A field lies in its word. -/
def InWord (f : Fld) : Prop := f.lo + f.w ≤ 32

theorem inWord_ite {p : Prop} [Decidable p] {f g : Fld} (hf : InWord f) (hg : InWord g) : InWord (if p then f else g) := by
  split
  · exact hf
  · exact hg

/-- Every block's RSV_WRITE bit lies in its word. -/
theorem blockRsv_inWord (off : Nat) : InWord (blockRsv off) := by
  unfold blockRsv
  iterate 23 refine inWord_ite (by unfold InWord; decide) ?_
  unfold InWord
  decide

/-- The tenants' registers have TEN_STATUS's bit. -/
theorem blockRsv_tenant {off : Nat} (low : 0x400000 ≤ off) (high : off < 0x420000) : blockRsv off = TEN_STATUS_RSV_WRITE := by
  unfold blockRsv
  dsimp only
  rw [if_neg (by simp; omega), if_neg (by simp; omega), if_pos (by simp; omega)]

/-- What the port reaches is a register of BAR0 or of the control PF's queue pairs; one of them has a copy of its own. -/
theorem locate_mgt {s : State} {off : Nat} {r : RegAt} (h : locate s .mgt off = some r) :
    (r.reg ∈ bar0Regs ∨ (0x200000 ≤ off ∧ off < 0x203000)) ∧ (r.key = off ∨ (off = 0x150000C ∧ r.key = off + mgtCopy)) := by
  simp only [locate, Option.map_eq_some_iff] at h
  obtain ⟨at_, found, rfl⟩ := h
  have unit : (at_.reg ∈ bar0Regs ∨ (0x200000 ≤ off ∧ off < 0x203000)) ∧ at_.key = off := by
    unfold locatePf at found
    by_cases inXq : 0x200000 ≤ off ∧ off < 0x203000
    · rw [if_pos (by simpa using inXq)] at found
      refine ⟨.inr inXq, ?_⟩
      split at found
      · exact absurd found (by simp)
      · obtain ⟨reg, -, rfl⟩ := Option.map_eq_some_iff.mp found
        rfl
    · rw [if_neg (by simpa using inXq)] at found
      obtain ⟨reg, listed, rfl⟩ := Option.map_eq_some_iff.mp found
      exact ⟨.inl (List.mem_of_find?_eq_some listed), rfl⟩
  obtain ⟨listed, key⟩ := unit
  by_cases copied : mgtCopied off = true
  · rw [if_pos copied]
    exact ⟨listed, .inr ⟨by simpa [mgtCopied] using copied, rfl⟩⟩
  · rw [if_neg copied]
    exact ⟨listed, .inl key⟩

/-- A key of no queue pair instance, whatever the state. -/
theorem xqAt_none {s : State} {k : Nat} : xqAt s k = none ↔ k < xqVfBase ∧ ¬(0x200000 ≤ k ∧ k < 0x203000) := by
  unfold xqAt
  by_cases vf : xqVfBase ≤ k
  · rw [if_pos vf]
    simp [vf]
  · rw [if_neg vf]
    by_cases pf : 0x200000 ≤ k ∧ k < 0x203000
    · rw [if_pos (by simpa using pf)]
      simp [pf]
    · rw [if_neg (by simpa using pf)]
      exact iff_of_true rfl ⟨by omega, pf⟩

variable {s : State} {off : Nat} {v : Word} {ok : Bool} {r : RegAt}

/-- A write that starts nothing stores its fields. -/
theorem writeAt_plain (a : Accessor) (rsv : Fld) (u : State) (notLo : isLo r.key = false) (notHi : isHi r.key = false)
    (noQueue : xqAt u r.key = none)
    (starts : writeGlobal u (a == .mgt) r.key v ok = none ∧ writeData u r.key v = none ∧ writeMotion u r.key v = none)
    (quiet : r.key ∉ [0x1601004, 0x1601008, 0x160100C, 0x1603010]) :
    writeAt u a rsv r v ok = storeFields u rsv r.key v r.reg.fields := by
  obtain ⟨noGlobal, noData, noMotion⟩ := starts
  simp only [List.mem_cons, List.not_mem_nil, or_false, not_or] at quiet
  obtain ⟨notCtl, notVset, notLimit, notPace⟩ := quiet
  unfold writeAt
  dsimp only
  rw [if_neg (by rw [notLo]; decide), if_neg (by rw [notHi]; decide)]
  unfold applyWord
  rw [noQueue]
  dsimp only
  rw [noGlobal, noData, noMotion]
  unfold afterStore
  rw [if_neg (by simp [notCtl, notVset, notLimit]), if_neg (by simp [notPace])]
  rfl

/-- A plain write without a reserved value is stored, with status 0. -/
theorem writeReg_plain (plain : PlainWrite s .mgt off v ok r)
    (free : ∀ f ∈ r.reg.fields, inRsv (bitsGet v f.lo f.w) f.rsv = false) :
    (writeReg s .mgt off 4 v ok).2 = 0 ∧ ∀ f ∈ r.reg.fields, f.acc = .rw →
      fget (writeReg s .mgt off 4 v ok).1 ⟨r.key, f.lo, f.w⟩ = bitsGet v f.lo f.w := by
  obtain ⟨⟨-, shown, -⟩, aligned, located, may, on, notRsv, notLo, notHi, noQueue, starts, lawful, quiet⟩ := plain
  replace notRsv : r.key ≠ (blockRsv off).off := notRsv
  obtain ⟨listed, place⟩ := locate_mgt located
  have known : r.reg ∈ bar0Regs := listed.resolve_right fun inXq => by
    have outside := (xqAt_none.mp noQueue).2
    rcases place with place | place <;> omega
  have tenant : ¬(decide (0x400000 ≤ r.key) && decide (r.key < 0x420000) &&
      (blockRsv off).off != TEN_STATUS_RSV_WRITE.off) = true := by
    simp only [Bool.and_eq_true, decide_eq_true_eq, bne_iff_ne, ne_eq, not_and, not_not]
    rintro ⟨low, high⟩
    rcases place with place | ⟨copied, place⟩
    · rw [blockRsv_tenant (place ▸ low) (place ▸ high)]
    · exact absurd high (by rw [place, copied]; decide)
  have stored (u : State) : writeAt u .mgt (blockRsv off) r v ok = storeFields u (blockRsv off) r.key v r.reg.fields :=
    writeAt_plain .mgt _ u notLo notHi (xqAt_none.mpr (xqAt_none.mp noQueue)) (starts u) quiet
  have written : writeReg s .mgt off 4 v ok =
      ((trackRsv s (blockRsv off) fun u => writeAt u .mgt (blockRsv off) r v ok).1,
        if (trackRsv s (blockRsv off) fun u => writeAt u .mgt (blockRsv off) r v ok).2 then 4 else 0) := by
    unfold writeReg
    rw [if_neg (by rw [shown]; decide), show off / 4 * 4 = off by omega]
    dsimp only
    rw [located]
    refine (if_neg tenant).trans ((if_neg (by rw [may]; decide)).trans ((if_neg ?_).trans (if_neg notRsv)))
    rw [on, aligned]
    decide
  have unrefused (u : State) : fget (storeFields (fset u (blockRsv off) 0) (blockRsv off) r.key v r.reg.fields)
      (blockRsv off) = 0 := by
    rw [fget_congr (rget_storeFields _ _ free lawful notRsv.symm), fget_fset_same _ _ _ (blockRsv_inWord off)]
    exact Nat.zero_mod _
  rw [written]
  unfold trackRsv
  simp only [stored, unrefused]
  refine ⟨rfl, fun f hf acc => ?_⟩
  have value := fget_storeFields notRsv.symm r.reg.fields (fset s (blockRsv off) 0) (bar0Regs_apart _ known) free lawful hf acc
  split
  · rw [fget_fset_off _ _ _ _ notRsv, value]
  · exact value

theorem setMgtLast_unchanged (s : State) (st : Nat) : Unchanged [.mgt] s (setMgtLast s st) := by
  intro part hpart
  cases part with
  | mgt => exact absurd (by decide) hpart
  | _ => rfl

/-- The port with a dynamic address assigned. -/
def setMgtDynamic (s : State) (addr : Nat) : State := { s with mgt := { s.mgt with dynamic := some addr } }

theorem setMgtDynamic_unchanged (s : State) (addr : Nat) : Unchanged [.mgt] s (setMgtDynamic s addr) := by
  intro part hpart
  cases part with
  | mgt => exact absurd (by decide) hpart
  | _ => rfl

/-- An access that R544 grants goes to a word the port may reach. -/
theorem mgtStatus_granted {write : Bool} (h : mgtStatus s off write = 0) : off % 4 = 0 ∧ withheld s off = false ∧
    ∃ r, locate s .mgt off = some r ∧ (if write then r.who.writes else r.who.reads) = true := by
  unfold mgtStatus at h
  dsimp only at h
  by_cases far : 0x8000000 ≤ off
  · exact absurd ((if_pos far).symm.trans h) (by decide)
  rw [if_neg far] at h
  cases located : locate s .mgt (off / 4 * 4) with
  | none =>
    rw [located] at h
    exact absurd ((if_pos rfl).symm.trans h) (by decide)
  | some r =>
    rw [located] at h
    dsimp only at h
    cases may : (if write then r.who.writes else r.who.reads) with
    | false => exact absurd ((if_pos (by rw [may]; rfl)).symm.trans h) (by decide)
    | true =>
      replace h := (if_neg (by rw [may]; decide)).symm.trans h
      by_cases aligned : off % 4 ≠ 0
      · exact absurd ((if_pos aligned).symm.trans h) (by decide)
      have same : off / 4 * 4 = off := by omega
      rw [if_neg aligned] at h
      cases shown : withheld s off with
      | true => exact absurd ((if_pos (by rw [shown]; rfl)).symm.trans h) (by decide)
      | false => exact ⟨by omega, rfl, r, same ▸ located, may⟩

/-- A granted READ of a register without rc fields answers its word. -/
theorem readReg_plain {w : Word} (granted : mgtStatus s off false = 0) (located : locate s .mgt off = some r)
    (notLo : isLo r.key = false) (notHi : isHi r.key = false) (kept : ∀ f ∈ r.reg.fields, f.acc ≠ .rc)
    (live : liveWord s .mgt r.key = (w, s)) : readReg s .mgt off 0 4 = (w, s) := by
  obtain ⟨-, shown, r', located', may⟩ := mgtStatus_granted granted
  obtain rfl : r' = r := Option.some.inj (located'.symm.trans located)
  have clears : clearRcs s r'.key 0 4 r'.reg.fields = s := by
    unfold clearRcs
    rw [List.filter_eq_nil_iff.mpr fun f hf => by simp [kept f hf]]
    rfl
  unfold readReg
  rw [if_neg (by rw [shown]; decide), located]
  dsimp only
  rw [if_pos (by simpa using may)]
  unfold readAt
  rw [live]
  dsimp only
  rw [if_neg (by rw [notLo]; decide), if_neg (by rw [notHi]; decide), clears]

/-- The transactions of the management port (R543, R544). -/
theorem portTransactions :
    (∀ (s : State) (off : Nat) (v : Word) (ok : Bool) (r : RegAt), PlainWrite s .mgt off v ok r → mgtStatus s off true = 0 →
      (∀ f ∈ r.reg.fields, inRsv (bitsGet v f.lo f.w) f.rsv = false) →
      ∃ t, exec (.mgtWrite off v true ok) s = .next t ∧ t.mgt.last = 0 ∧
        ∀ f ∈ r.reg.fields, f.acc = .rw → fget t ⟨r.key, f.lo, f.w⟩ = bitsGet v f.lo f.w) ∧
    (∀ (s : State) (off : Nat) (v : Word) (ok : Bool), s.phase ≠ .off → mgtStatus s off true ≠ 0 →
      ∃ t, exec (.mgtWrite off v true ok) s = .next t ∧ t.mgt.last = mgtStatus s off true ∧
        t.mgt.dynamic = s.mgt.dynamic ∧ Unchanged [.mgt] s t) ∧
    (∀ (s : State) (off : Nat) (r : RegAt) (w : Word), s.phase ≠ .off → mgtStatus s off false = 0 →
      locate s .mgt off = some r → isLo r.key = false → isHi r.key = false → (∀ f ∈ r.reg.fields, f.acc ≠ .rc) →
      liveWord s .mgt r.key = (w, s) →
      ∃ t, exec (.mgtRead off true) s = .next t ∧ t.out = .mgtReply 0 w.toNat :: s.out ∧ Unchanged [.out] s t) ∧
    (∀ (s : State) (off : Nat), s.phase ≠ .off → mgtStatus s off false ≠ 0 →
      ∃ t, exec (.mgtRead off true) s = .next t ∧ t.out = .mgtReply (mgtStatus s off false) 0 :: s.out ∧
        Unchanged [.out] s t) := by
  refine ⟨fun s off v ok r plain granted free => ?_, fun s off v ok on refused => ?_,
    fun s off r w on granted located notLo notHi kept live => ?_, fun s off on refused => ?_⟩
  · have on : s.phase ≠ .off := by
      obtain ⟨⟨reach, -⟩, -⟩ := plain
      simp only [reaches, Bool.and_true, bne_iff_ne] at reach
      exact reach
    obtain ⟨status, values⟩ := writeReg_plain plain free
    have run : exec (.mgtWrite off v true ok) s =
        .next (setMgtLast (writeReg s .mgt off 4 v ok).1 (writeReg s .mgt off 4 v ok).2) := by
      refine (show _ = execMgtWrite off v true ok s from rfl).trans ?_
      unfold execMgtWrite
      rw [if_neg (by simp [on]), if_neg (by simp [granted])]
    refine ⟨_, run, status, fun f hf acc => ?_⟩
    refine (fget_congr ?_).trans (values f hf acc)
    exact rget_congr (setMgtLast_unchanged _ _ .regs (by decide)) _
  · refine ⟨setMgtLast s (mgtStatus s off true), ?_, rfl, rfl, setMgtLast_unchanged s _⟩
    refine (show _ = execMgtWrite off v true ok s from rfl).trans ?_
    unfold execMgtWrite
    rw [if_neg (by simp [on])]
    exact if_pos refused
  · refine ⟨_, ?_, rfl, emit_unchanged s _⟩
    refine (show _ = execMgtRead off true s from rfl).trans ?_
    unfold execMgtRead
    rw [if_neg (by simp [on]), if_neg (by simp [granted]), readReg_plain granted located notLo notHi kept live]
  · refine ⟨_, ?_, rfl, emit_unchanged s _⟩
    refine (show _ = execMgtRead off true s from rfl).trans ?_
    unfold execMgtRead
    rw [if_neg (by simp [on])]
    exact if_pos refused

end port

/-! ## Host requests (R111, R112) -/

section host

variable {s : State} {p n off : Nat}

/-- A word-aligned request of four bytes is one whole access. -/
theorem pieces_word (aligned : off % 4 = 0) : pieces off 4 = [(off, 0, 4)] := by
  have one : (off % 4 + 4 + 3) / 4 = 1 := by omega
  have base : off / 4 * 4 = off := by omega
  unfold pieces
  rw [one, base, List.range_one, List.map_singleton, if_pos rfl, aligned]
  dsimp only
  rw [Nat.mul_zero, Nat.add_zero, Nat.add_sub_cancel_left, Nat.min_self]

theorem leValue_wordBytes (w : Word) : leValue (wordBytes w 0 4) = w.toNat := by
  have small := w.isLt
  simp only [wordBytes, leValue, List.range, List.range.loop, List.map_cons, List.map_nil, BitVec.toNat_ofNat]
  omega

variable (reach : reaches s (.fn p n) = true)
include reach

/-- A request to BAR0 inside its 64 bytes and inside the BAR is accepted. -/
theorem memoryRequest_accepted {len : Nat} (short : len ≤ 64) (inside : off + len ≤ (if n = 0 then 0x8000000 else 0x10000))
    (data : Option (List Byte)) (ok : Bool) : execMemoryRequest p n 0 off len data ok s =
      match data with
      | some bs => .next (writePieces (.fn p n) ok (pieces off len) bs s)
      | none => .next (emit (readPieces (.fn p n) (pieces off len) s).2
          (.readData (leValue (readPieces (.fn p n) (pieces off len) s).1))) := by
  unfold execMemoryRequest
  dsimp only
  rw [if_neg (by rw [reach]; decide), if_neg (by simp)]
  refine (if_neg ?_).trans ?_
  · simp only [Bool.or_eq_true, decide_eq_true_eq]
    omega
  · cases data <;> rfl

/-- A word written by the host is a register write of its little-endian value. -/
theorem memoryRequest_writes (aligned : off % 4 = 0) (inside : off + 4 ≤ (if n = 0 then 0x8000000 else 0x10000))
    {bs : List Byte} (hbs : bs.length = 4) (ok : Bool) : exec (.memoryRequest p n 0 off 4 (some bs) ok) s =
      exec (.registerWrite (.fn p n) off 4 (BitVec.ofNat 32 (leValue bs)) ok) s := by
  refine (show _ = execMemoryRequest p n 0 off 4 (some bs) ok s from rfl).trans ?_
  refine Eq.trans ?_ (show execRegisterWrite (.fn p n) off 4 _ ok s = _ from rfl)
  rw [memoryRequest_accepted reach (by decide) inside, pieces_word aligned]
  unfold execRegisterWrite
  rw [if_pos reach]
  dsimp only
  simp only [writePieces, Nat.add_zero, Nat.sub_zero]
  rw [List.take_of_length_le (by omega)]

/-- A word read by the host is answered as the register read is. -/
theorem memoryRequest_reads (aligned : off % 4 = 0) (inside : off + 4 ≤ (if n = 0 then 0x8000000 else 0x10000)) (ok : Bool) :
    exec (.memoryRequest p n 0 off 4 none ok) s = exec (.rcFieldRead (.fn p n) off 4) s := by
  refine (show _ = execMemoryRequest p n 0 off 4 none ok s from rfl).trans ?_
  refine Eq.trans ?_ (show execRcFieldRead (.fn p n) off 4 s = _ from rfl)
  rw [memoryRequest_accepted reach (by decide) inside, pieces_word aligned]
  unfold execRcFieldRead answerRead
  rw [if_pos reach, show off / 4 * 4 = off by omega, aligned]
  dsimp only [readPieces]
  rw [List.append_nil, leValue_wordBytes, Nat.mul_zero, Nat.pow_zero, Nat.div_one]
  have small := (bar0Read s (.fn p n) off 0 (0 + 4)).1.isLt
  rw [show min 4 (4 - 0) = 4 from rfl, Nat.mod_eq_of_lt small]

/-- A request that no BAR takes is an Unsupported Request. -/
theorem memoryRequest_unsupported {bar len : Nat} (bad : (bar ≠ 0 ∧ bar ≠ 2) ∨ (bar = 0 ∧ 64 < len) ∨
      (bar = 0 ∧ (if n = 0 then 0x8000000 else 0x10000) < off + len)) (data : Option (List Byte)) (ok : Bool) :
    exec (.memoryRequest p n bar off len data ok) s = .next (unsupported s (fnId p n)) := by
  refine (show _ = execMemoryRequest p n bar off len data ok s from rfl).trans ?_
  unfold execMemoryRequest
  dsimp only
  rw [if_neg (by rw [reach]; decide), if_neg ?_]
  · refine if_pos ?_
    simp only [Bool.or_eq_true, decide_eq_true_eq]
    omega
  · simp only [Bool.and_eq_true, decide_eq_true_eq]
    omega

end host

/-- The function's AER holds the report that an Unsupported Request makes. -/
theorem unsupported_reported (s : State) (fid : Nat) : (unsupported s fid).out = .aer fid 5 :: .unsupported fid :: s.out ∧
    5 ∈ (getFn (unsupported s fid) fid).aer ∧ Unchanged [.out, .fns] s (unsupported s fid) := by
  refine ⟨rfl, ?_, ?_⟩
  · unfold unsupported aerReport getFn modFn emit
    dsimp only
    rw [tget_tmod, if_pos rfl]
    split
    case isTrue h => exact List.contains_iff_mem.mp h
    case isFalse => exact List.mem_append_right _ (List.mem_singleton_self 5)
  · exact unchanged_snoc (unchanged_trans (unchanged_mono (emit_unchanged s _) (by decide))
      (unchanged_mono (modFn_unchanged _ fid _) (by decide))) (emit_unchanged _ _) (by decide)

/-- Settles O10: the transactions of the port one by one, then the host's requests. -/
theorem portAndHostAccesses : Obligations.PortAndHostAccesses := by
  unfold Obligations.PortAndHostAccesses
  obtain ⟨writes, refusedWrites, reads, refusedReads⟩ := portTransactions
  refine ⟨⟨writes, refusedWrites, reads, refusedReads, fun s on => ?_, fun s addr sd on named => ?_, fun s off v ok => ?_⟩,
    fun s p n off bs ok aligned hbs inside reach => memoryRequest_writes reach aligned inside hbs ok,
    fun s p n off ok aligned inside reach => memoryRequest_reads reach aligned inside ok,
    fun s p n bar off len data ok reach bad => ⟨_, memoryRequest_unsupported reach bad data ok, unsupported_reported s _⟩,
    fun s p n off len bs ok ctl inside => ?_⟩
  · refine ⟨emit s (.mgtReply s.mgt.last 0), congrArg Host.Outcome.next (if_neg ?_), rfl, emit_unchanged s _⟩
    simp [on]
  · have run : exec (.dynamicAddressAssign addr sd) s = .next (setMgtDynamic s (addr % 128)) := by
      refine congrArg Host.Outcome.next (if_pos ?_)
      rcases named with rfl | rfl
      · simp [on]
      · simp [on]
    exact ⟨_, run, rfl, rfl, setMgtDynamic_unchanged s _⟩
  · refine ⟨if_pos ?_, if_pos ?_, congrArg Host.Outcome.next (if_pos ?_)⟩
    all_goals simp
  · refine (show _ = execMemoryRequest p n 2 off len (some bs) ok s from rfl).trans ?_
    unfold execMemoryRequest
    dsimp only
    cases reaches s (.fn p n) with
    | false => rfl
    | true => exact (if_neg (by decide)).trans (if_pos (by simpa using ⟨ctl, inside⟩))

end Sys2Proof.Laws
end

section
/-!
PROOFS. The statement of 12_lantern_engine.md on exact results (R376): every operation ends in one rounding, which leaves the
magnitude of a binary32 word as it is.
-/

namespace Sys2Proof.Laws

open Sys2Proof.Machine

/-! ## The parts of a word -/

section parts

variable {w : Word}

theorem fpPack_parts (w : Word) : fpPack (fpSign w) (w.toNat % 2 ^ 31) = w := by
  have small := w.isLt
  apply BitVec.eq_of_toNat_eq
  unfold fpPack fpSign
  rw [BitVec.toNat_ofNat]
  by_cases top : w.toNat / 2 ^ 31 = 1
  · rw [if_pos (by simpa using top)]
    omega
  · rw [if_neg (by simpa using top)]
    omega

theorem magnitude_parts (w : Word) : w.toNat % 2 ^ 31 = fpExp w * 2 ^ 23 + fpFrac w := by
  unfold fpExp fpFrac
  omega

theorem fpFrac_lt (w : Word) : fpFrac w < 2 ^ 23 := Nat.mod_lt _ (by decide)

theorem fpNaN_of_finite (h : fpFinite w = true) : fpNaN w = false := by
  unfold fpFinite at h
  unfold fpNaN
  rw [beq_false_of_ne (by simpa using h), Bool.false_and]

theorem fpInf_of_finite (h : fpFinite w = true) : fpInf w = false := by
  unfold fpFinite at h
  unfold fpInf
  rw [beq_false_of_ne (by simpa using h), Bool.false_and]

theorem fpNaN_of_inf (h : fpInf w = true) : fpNaN w = false := by
  unfold fpInf at h
  unfold fpNaN
  simp only [Bool.and_eq_true, beq_iff_eq] at h
  simp [h.2]

theorem fpIn_of_inf (f : Bool) (h : fpInf w = true) : fpIn f w = w := by
  unfold fpInf at h
  unfold fpIn fpSub
  simp only [Bool.and_eq_true, beq_iff_eq] at h
  simp [h.1]

theorem zero_parts (h : fpZero w = true) : fpExp w = 0 ∧ fpFrac w = 0 := by
  have low := magnitude_parts w
  unfold fpZero at h
  simp only [beq_iff_eq] at h
  omega

theorem fpNaN_of_zero (h : fpZero w = true) : fpNaN w = false := by
  obtain ⟨exp, -⟩ := zero_parts h
  unfold fpNaN
  rw [exp]
  rfl

theorem fpInf_of_zero (h : fpZero w = true) : fpInf w = false := by
  obtain ⟨exp, -⟩ := zero_parts h
  unfold fpInf
  rw [exp]
  rfl

theorem fpIn_of_zero (f : Bool) (h : fpZero w = true) : fpIn f w = w := by
  obtain ⟨-, frac⟩ := zero_parts h
  unfold fpIn fpSub
  rw [frac]
  simp

theorem fpIn_false (w : Word) : fpIn false w = w := rfl

theorem fpZero_of_inf (h : fpInf w = true) : fpZero w = false := by
  cases z : fpZero w with
  | false => rfl
  | true => exact absurd (h.symm.trans (fpInf_of_zero z)) (by decide)

/-- A word is a zero where its magnitude is 0. -/
theorem fpMag_eq_zero (h : fpMag w = 0) : fpZero w = true := by
  have low := magnitude_parts w
  have pos : 0 < 2 ^ (fpExp w - 1) := Nat.two_pow_pos _
  unfold fpMag at h
  unfold fpZero
  simp only [beq_iff_eq]
  split at h
  · omega
  · exact absurd h (Nat.mul_ne_zero (by omega) pos.ne')

theorem fpMag_of_zero (h : fpZero w = true) : fpMag w = 0 := by
  obtain ⟨exp, frac⟩ := zero_parts h
  unfold fpMag
  rw [if_pos exp, frac]

theorem natAbs_fpVal (w : Word) : (fpVal w).natAbs = fpMag w := by
  unfold fpVal
  split
  · rw [Int.natAbs_neg, Int.natAbs_natCast]
  · exact Int.natAbs_natCast _

theorem fpVal_neg (h : fpVal w ≠ 0) : decide (fpVal w < 0) = fpSign w := by
  unfold fpVal at *
  cases sign : fpSign w with
  | true =>
    rw [sign, if_pos rfl] at *
    exact decide_eq_true (by omega)
  | false =>
    rw [sign, if_neg Bool.false_ne_true] at *
    exact decide_eq_false (by omega)

theorem fpZero_of_val (h : fpVal w ≠ 0) : fpZero w = false := by
  cases z : fpZero w with
  | false => rfl
  | true =>
    have none := fpMag_of_zero z
    rw [← natAbs_fpVal] at none
    exact absurd (Int.natAbs_eq_zero.mp none) h

end parts

/-! ## One rounding of an exact value (R376) -/

section rounding

variable {w : Word}

/-- The magnitude of a finite word: a significand of at most 24 bits, full where it is scaled. -/
theorem fpMag_scaled (finite : fpFinite w = true) :
    ∃ m d, fpMag w = m * 2 ^ d ∧ m < 2 ^ 24 ∧ (d ≠ 0 → 2 ^ 23 ≤ m) ∧ d ≤ 253 := by
  have frac := fpFrac_lt w
  have exp : fpExp w < 256 := Nat.mod_lt _ (by decide)
  have notTop : fpExp w ≠ 255 := by simpa [fpFinite] using finite
  unfold fpMag
  split
  · exact ⟨fpFrac w, 0, by simp, by omega, fun h => absurd rfl h, by decide⟩
  · exact ⟨2 ^ 23 + fpFrac w, fpExp w - 1, rfl, by omega, fun _ => by omega, by omega⟩

theorem encodeMag_fpMag (w : Word) : encodeMag (fpMag w) = w.toNat % 2 ^ 31 := by
  have frac := fpFrac_lt w
  rw [magnitude_parts]
  unfold fpMag
  by_cases exp : fpExp w = 0
  · rw [if_pos exp, encodeMag, if_pos frac, exp]
    omega
  · have pos : 0 < 2 ^ (fpExp w - 1) := Nat.two_pow_pos _
    have log : Nat.log2 ((2 ^ 23 + fpFrac w) * 2 ^ (fpExp w - 1)) = fpExp w + 22 := by
      rw [Nat.log2_eq_iff (by positivity)]
      have low : 2 ^ (fpExp w + 22) = 2 ^ 23 * 2 ^ (fpExp w - 1) := by
        rw [← Nat.pow_add]
        exact congrArg _ (by omega)
      have high : 2 ^ (fpExp w + 22 + 1) = 2 ^ 24 * 2 ^ (fpExp w - 1) := by
        rw [← Nat.pow_add]
        exact congrArg _ (by omega)
      rw [low, high]
      exact ⟨Nat.mul_le_mul_right _ (by omega), Nat.mul_lt_mul_of_pos_right (by omega) pos⟩
    have large : ¬(2 ^ 23 + fpFrac w) * 2 ^ (fpExp w - 1) < 2 ^ 23 := by
      have := Nat.le_mul_of_pos_right (2 ^ 23 + fpFrac w) pos
      omega
    rw [if_neg exp, encodeMag, if_neg large, log, Nat.add_sub_cancel]
    dsimp only
    rw [Nat.mul_div_cancel _ pos, Nat.add_sub_cancel_left]

theorem log2_scaled {m : Nat} (h : m ≠ 0) (k : Nat) : Nat.log2 (m * 2 ^ k) = Nat.log2 m + k := by
  have pos : 0 < 2 ^ k := Nat.two_pow_pos _
  rw [Nat.log2_eq_iff (Nat.mul_ne_zero h pos.ne'), Nat.pow_add, Nat.add_right_comm, Nat.pow_add]
  exact ⟨Nat.mul_le_mul_right _ (Nat.log2_self_le h), Nat.mul_lt_mul_of_pos_right Nat.lt_log2_self pos⟩

theorem roundBits_exact (m q : Nat) : roundBits (m * 2 ^ q) q false = (m, false) := by
  have pos : 0 < 2 ^ q := Nat.two_pow_pos _
  unfold roundBits
  dsimp only
  rw [Nat.mul_mod_left, Nat.mul_div_cancel _ pos, Nat.mul_zero, if_neg (Nat.not_lt_zero _), if_neg pos.ne]
  simp

/-- A word's own magnitude, in whatever unit, is rounded to the word, with no flag. -/
theorem fpRound_exact (finite : fpFinite w = true) (nonzero : fpMag w ≠ 0) (j : Nat) :
    fpRound false (fpSign w) (fpMag w * 2 ^ j) (149 + j) false = (w, {}) := by
  obtain ⟨m, d, scaled, bits, full, top⟩ := fpMag_scaled finite
  have mpos : m ≠ 0 := fun h => nonzero (by rw [scaled, h, Nat.zero_mul])
  have unit : fpMag w * 2 ^ j = m * 2 ^ (d + j) := by rw [scaled, Nat.pow_add, Nat.mul_assoc]
  have log : Nat.log2 (m * 2 ^ (d + j)) = Nat.log2 m + (d + j) := log2_scaled mpos _
  have logm : Nat.log2 m ≤ 23 := Nat.lt_succ_iff.mp ((Nat.log2_lt mpos).mpr bits)
  have logFull : d ≠ 0 → Nat.log2 m = 23 := fun h => by
    have := (Nat.le_log2 mpos).mpr (full h)
    omega
  have place : max (Nat.log2 (m * 2 ^ (d + j)) - 23) (149 + j - 149) = d + j := by
    rw [log]
    by_cases h : d = 0
    · omega
    · rw [logFull h]
      omega
  have small : m * 2 ^ d < 2 ^ 277 :=
    calc m * 2 ^ d < 2 ^ 24 * 2 ^ d := Nat.mul_lt_mul_of_pos_right bits (Nat.two_pow_pos _)
      _ ≤ 2 ^ 24 * 2 ^ 253 := Nat.mul_le_mul_left _ (Nat.pow_le_pow_right (by decide) top)
      _ = 2 ^ 277 := (Nat.pow_add 2 24 253).symm
  unfold fpRound
  rw [unit]
  dsimp only
  rw [if_neg (by simp [mpos]), place, roundBits_exact]
  dsimp only
  rw [show d + j - (149 + j - 149) = d by omega, if_neg (Nat.not_le_of_lt small), if_neg (by simp), if_neg (by simp), Bool.and_false, ← scaled,
    encodeMag_fpMag w, fpPack_parts]

/-- A sum that is a word's value is that word. -/
theorem fpExact_exact (finite : fpFinite w = true) (nonzero : fpVal w ≠ 0) (j : Nat) (zneg : Bool) :
    fpExact false (fpVal w * 2 ^ j) (149 + j) zneg = (w, {}) := by
  have pos : (0 : Int) < 2 ^ j := by positivity
  have sign : decide (fpVal w * 2 ^ j < 0) = fpSign w := by
    rw [← fpVal_neg nonzero]
    exact decide_eq_decide.mpr ⟨fun h => neg_of_mul_neg_left h pos.le, fun h => mul_neg_of_neg_of_pos h pos⟩
  have size : (fpVal w * 2 ^ j).natAbs = fpMag w * 2 ^ j := by
    rw [Int.natAbs_mul, natAbs_fpVal, Int.natAbs_pow]
    rfl
  unfold fpExact
  rw [if_neg (mul_ne_zero nonzero pos.ne'), sign, size]
  exact fpRound_exact finite (fun h => nonzero (Int.natAbs_eq_zero.mp ((natAbs_fpVal w).trans h))) j

end rounding

/-! ## The exact square root -/

theorem isqrtBits_square (r k acc : Nat) (low : acc ≤ r) (high : r < acc + 2 ^ k) : isqrtBits (r * r) k acc = r := by
  induction k generalizing acc with
  | zero =>
    rw [isqrtBits]
    omega
  | succ k ih =>
    rw [isqrtBits]
    by_cases fits : acc + 2 ^ k ≤ r
    · rw [if_pos (Nat.mul_le_mul fits fits)]
      exact ih _ fits (by rw [Nat.pow_succ] at high; omega)
    · rw [if_neg (Nat.not_le_of_lt (Nat.mul_lt_mul'' (Nat.lt_of_not_le fits) (Nat.lt_of_not_le fits)))]
      exact ih _ low (Nat.lt_of_not_le fits)

theorem isqrt_square (r : Nat) : isqrt (r * r) = r := by
  refine isqrtBits_square r _ 0 (Nat.zero_le r) ?_
  have log := @Nat.lt_log2_self (r * r)
  have bits : 2 ^ (Nat.log2 (r * r) + 1) ≤ 2 ^ (Nat.log2 (r * r) / 2 + 1) * 2 ^ (Nat.log2 (r * r) / 2 + 1) := by
    rw [← Nat.pow_add]
    exact Nat.pow_le_pow_right (by decide) (by omega)
  rw [Nat.zero_add]
  exact Nat.mul_self_lt_mul_self_iff.mp (lt_of_lt_of_le log bits)

/-! ## The operations on finite words -/

section finite

variable {a b c w : Word}

theorem fpMag_ne_zero (h : fpVal w ≠ 0) : fpMag w ≠ 0 := fun none => h (Int.natAbs_eq_zero.mp ((natAbs_fpVal w).trans none))

theorem natAbs_scaled (h : fpVal w * fpVal b = fpVal a * 2 ^ 149) : fpMag w * fpMag b = fpMag a * 2 ^ 149 := by
  have sizes := congrArg Int.natAbs h
  rw [Int.natAbs_mul, Int.natAbs_mul, natAbs_fpVal, natAbs_fpVal, natAbs_fpVal, Int.natAbs_pow] at sizes
  exact sizes

/-- The sign of an exact quotient. -/
theorem sign_quotient (nonzero : fpVal w ≠ 0) (hb : fpVal b ≠ 0) (quotient : fpVal w * fpVal b = fpVal a * 2 ^ 149) :
    (fpSign a != fpSign b) = fpSign w := by
  have scale : (0 : Int) < 2 ^ 149 := by positivity
  have ha : fpVal a ≠ 0 := by
    rintro none
    rw [none, zero_mul] at quotient
    exact mul_ne_zero nonzero hb quotient
  rw [← fpVal_neg nonzero, ← fpVal_neg hb, ← fpVal_neg ha]
  generalize fpVal w = x at *
  generalize fpVal b = y at *
  generalize fpVal a = z at *
  have sign : decide (z < 0) = decide (x * y < 0) := by
    rw [quotient]
    exact decide_eq_decide.mpr ⟨fun h => mul_neg_of_neg_of_pos h scale, fun h => neg_of_mul_neg_left h scale.le⟩
  rw [sign]
  rcases lt_or_gt_of_ne nonzero with hx | hx <;> rcases lt_or_gt_of_ne hb with hy | hy
  · simp [hx, hy, (mul_pos_of_neg_of_neg hx hy).le]
  · simp [hx, hy.le, mul_neg_of_neg_of_pos hx hy]
  · simp [hx.le, hy, mul_neg_of_pos_of_neg hx hy]
  · rw [decide_eq_false (not_lt.mpr (mul_pos hx hy).le), decide_eq_false (not_lt.mpr hx.le), decide_eq_false (not_lt.mpr hy.le)]
    rfl

/-- The bits of a flipped word. -/
theorem toNat_fpFlip (number : fpNaN w = false) : (fpFlip w).toNat = w.toNat % 2 ^ 31 + (if fpSign w then 0 else 2 ^ 31) := by
  unfold fpFlip
  rw [number, if_neg Bool.false_ne_true, fpPack, BitVec.toNat_ofNat]
  cases fpSign w with
  | true => rw [Bool.not_true, if_neg Bool.false_ne_true, if_pos rfl]; omega
  | false => rw [Bool.not_false, if_neg Bool.false_ne_true, if_pos rfl]; omega

theorem fpFlip_parts (number : fpNaN w = false) :
    fpExp (fpFlip w) = fpExp w ∧ fpFrac (fpFlip w) = fpFrac w ∧ fpSign (fpFlip w) = !fpSign w := by
  have bits := toNat_fpFlip number
  unfold fpExp fpFrac
  cases sign : fpSign w with
  | true =>
    rw [sign, if_pos rfl] at bits
    exact ⟨by omega, by omega, beq_false_of_ne (by omega)⟩
  | false =>
    rw [sign, if_neg Bool.false_ne_true] at bits
    exact ⟨by omega, by omega, beq_iff_eq.mpr (by omega)⟩

theorem fpFlip_finite (h : fpFinite b = true) : fpFinite (fpFlip b) = true ∧ fpVal (fpFlip b) = -fpVal b := by
  obtain ⟨exp, frac, sign⟩ := fpFlip_parts (fpNaN_of_finite h)
  refine ⟨by rw [fpFinite, exp]; exact h, ?_⟩
  unfold fpVal fpMag
  rw [exp, frac, sign]
  cases fpSign b with
  | true => exact (neg_neg _).symm
  | false => rfl

variable (ha : fpFinite a = true) (hw : fpFinite w = true) (nonzero : fpVal w ≠ 0)
include ha hw nonzero

theorem fpAdd_exact (hb : fpFinite b = true) (sum : fpVal w = fpVal a + fpVal b) : fpAdd false a b = (w, {}) := by
  unfold fpAdd
  dsimp only [fpIn_false]
  rw [fpNaN_of_finite ha, fpNaN_of_finite hb, fpInf_of_finite ha, fpInf_of_finite hb, ← sum]
  have exact_ := fpExact_exact hw nonzero 0 (fpSign a && fpSign b)
  rw [pow_zero, mul_one] at exact_
  exact exact_

theorem fpSubt_exact (hb : fpFinite b = true) (difference : fpVal w = fpVal a - fpVal b) : fpSubt false a b = (w, {}) := by
  obtain ⟨finite, value⟩ := fpFlip_finite hb
  unfold fpSubt
  rw [fpNaN_of_finite hb]
  exact fpAdd_exact ha hw nonzero finite (by rw [value, difference, Int.sub_eq_add_neg])

theorem fpMul_exact (hb : fpFinite b = true) (product : fpVal w * 2 ^ 149 = fpVal a * fpVal b) :
    fpMul false a b = (w, {}) := by
  unfold fpMul
  dsimp only [fpIn_false]
  rw [fpNaN_of_finite ha, fpNaN_of_finite hb, fpInf_of_finite ha, fpInf_of_finite hb, ← product, Bool.and_false]
  exact fpExact_exact hw nonzero 149 _

theorem fpFma_exact (hb : fpFinite b = true) (hc : fpFinite c = true)
    (sum : fpVal w * 2 ^ 149 = fpVal a * fpVal b + fpVal c * 2 ^ 149) : fpFma false a b c = (w, {}) := by
  unfold fpFma
  dsimp only [fpIn_false]
  rw [fpNaN_of_finite ha, fpNaN_of_finite hb, fpNaN_of_finite hc, fpInf_of_finite ha, fpInf_of_finite hb,
    fpInf_of_finite hc, Bool.and_false]
  have value : fpVal a * fpVal b + fpVal c * ((2 ^ 149 : Nat) : Int) = fpVal w * 2 ^ 149 := by
    rw [sum]
    rfl
  rw [value]
  exact fpExact_exact hw nonzero 149 _

theorem fpDiv_exact (hb : fpFinite b = true) (divides : fpVal b ≠ 0) (quotient : fpVal w * fpVal b = fpVal a * 2 ^ 149) :
    fpDiv false a b = (w, {}) := by
  have sizes : fpMag w * fpMag b = fpMag a * 2 ^ 149 := natAbs_scaled quotient
  have bpos : 0 < fpMag b := by
    rw [← natAbs_fpVal]
    exact Int.natAbs_pos.mpr divides
  have rounded (k : Nat) : fpRound false (fpSign w) (fpMag a * 2 ^ (149 + k) / fpMag b) (149 + k)
      (fpMag a * 2 ^ (149 + k) % fpMag b != 0) = (w, {}) := by
    rw [Nat.pow_add, ← Nat.mul_assoc, ← sizes, Nat.mul_right_comm, Nat.mul_div_cancel _ bpos, Nat.mul_mod_left]
    exact fpRound_exact hw (fpMag_ne_zero nonzero) k
  unfold fpDiv
  dsimp only [fpIn_false]
  rw [fpNaN_of_finite ha, fpNaN_of_finite hb, fpInf_of_finite ha, fpInf_of_finite hb, fpZero_of_val divides,
    sign_quotient nonzero divides quotient]
  simp only [Bool.or_self, Bool.false_eq_true, if_false]
  exact rounded 331

theorem fpSqrt_exact (positive : 0 < fpVal w) (square : fpVal w * fpVal w = fpVal a * 2 ^ 149) :
    fpSqrt false a = (w, {}) := by
  have apos : 0 < fpVal a := by
    have := mul_pos positive positive
    rw [square] at this
    exact (mul_pos_iff_of_pos_right (by positivity)).mp this
  have signs : fpSign a = false ∧ fpSign w = false := by
    rw [← fpVal_neg apos.ne', ← fpVal_neg positive.ne']
    exact ⟨decide_eq_false (by omega), decide_eq_false (by omega)⟩
  have sizes : fpMag w * fpMag w = fpMag a * 2 ^ 149 := natAbs_scaled square
  have rounded (k : Nat) : fpRound false false (isqrt (fpMag a * 2 ^ (149 + (k + k)))) (149 + k)
      (isqrt (fpMag a * 2 ^ (149 + (k + k))) * isqrt (fpMag a * 2 ^ (149 + (k + k))) != fpMag a * 2 ^ (149 + (k + k))) =
        (w, {}) := by
    have whole : fpMag a * 2 ^ (149 + (k + k)) = fpMag w * 2 ^ k * (fpMag w * 2 ^ k) := by
      rw [Nat.pow_add, Nat.pow_add _ k k, ← Nat.mul_assoc, ← sizes]
      exact Nat.mul_mul_mul_comm _ _ _ _
    rw [whole, isqrt_square, bne_self_eq_false]
    exact signs.2 ▸ fpRound_exact hw (fpMag_ne_zero nonzero) k
  unfold fpSqrt
  dsimp only [fpIn_false]
  rw [fpNaN_of_finite ha, fpInf_of_finite ha, fpZero_of_val apos.ne', signs.1]
  simp only [Bool.false_eq_true, if_false]
  exact rounded 51

end finite

/-! ## Infinities and zeros -/

section special

variable {a b : Word} (f : Bool)

theorem fpAdd_opposite (ha : fpInf a = true) (hb : fpInf b = true) (opposite : fpSign a ≠ fpSign b) :
    fpAdd f a b = (0x7FC00000, { nv := true }) := by
  unfold fpAdd
  rw [fpIn_of_inf f ha, fpIn_of_inf f hb]
  dsimp only
  rw [fpNaN_of_inf ha, fpNaN_of_inf hb, ha, hb, show (fpSign a != fpSign b) = true by simpa using opposite]
  rfl

theorem fpFlip_inf (hb : fpInf b = true) : fpInf (fpFlip b) = true ∧ fpSign (fpFlip b) = !fpSign b := by
  obtain ⟨exp, frac, sign⟩ := fpFlip_parts (fpNaN_of_inf hb)
  exact ⟨by rw [fpInf, exp, frac]; exact hb, sign⟩

theorem fpSubt_equal (ha : fpInf a = true) (hb : fpInf b = true) (equal : fpSign a = fpSign b) :
    fpSubt f a b = (0x7FC00000, { nv := true }) := by
  obtain ⟨inf, sign⟩ := fpFlip_inf hb
  unfold fpSubt
  rw [fpNaN_of_inf hb]
  exact fpAdd_opposite f ha inf (by rw [sign, equal]; exact (Bool.not_ne_self _).symm)

theorem fpMul_infZero (ha : fpInf a = true) (hb : fpZero b = true) :
    fpMul f a b = (0x7FC00000, { nv := true }) ∧ fpMul f b a = (0x7FC00000, { nv := true }) := by
  unfold fpMul
  rw [fpIn_of_inf f ha, fpIn_of_zero f hb]
  dsimp only
  rw [fpNaN_of_inf ha, fpNaN_of_zero hb, ha, hb, fpInf_of_zero hb, fpZero_of_inf ha]
  exact ⟨rfl, rfl⟩

theorem fpDiv_zero (ha : fpFinite a = true) (nonzero : fpZero a = false) (hb : fpZero b = true) :
    fpDiv false a b = (if fpSign a = fpSign b then 0x7F800000 else 0xFF800000, { dz := true }) := by
  unfold fpDiv
  dsimp only [fpIn_false]
  rw [fpNaN_of_finite ha, fpNaN_of_zero hb, fpInf_of_finite ha, fpInf_of_zero hb, hb, nonzero]
  cases fpSign a <;> cases fpSign b <;> rfl

end special

/-- Settles O45: each operation by its one rounding. -/
theorem exactBinary32 : Obligations.ExactBinary32 := by
  unfold Obligations.ExactBinary32
  refine ⟨fun a b w ha hb hw nonzero => ⟨fpAdd_exact ha hw nonzero hb, fpSubt_exact ha hw nonzero hb,
      fpMul_exact ha hw nonzero hb, fpDiv_exact ha hw nonzero hb, fpSqrt_exact ha hw nonzero,
      fun c hc => fpFma_exact ha hw nonzero hb hc⟩,
    fun f a b ha hb => ⟨fpAdd_opposite f ha hb, fpSubt_equal f ha hb⟩, fun f a b ha hb => fpMul_infZero f ha hb,
    fun a b ha nonzero hb => fpDiv_zero ha nonzero hb⟩

end Sys2Proof.Laws
end

section
/-!
PROOFS. The statement of 12_lantern_engine.md on the nodes of Table 12-6 and the end of an instance (R363, R364, R368, R369,
R371).
-/

namespace Sys2Proof.Laws

open Sys2Proof.Machine

/-! ## Tasks -/

section tasks

variable (s : State) (t : Nat)

theorem modLtn_unchanged (f : Lantern → Lantern) : Unchanged [.ltn] s (modLtn s f) := by
  intro part hpart
  cases part with
  | ltn => exact absurd (by decide) hpart
  | _ => rfl

theorem modTask_unchanged (f : Task → Task) : Unchanged [.ltn] s (modTask s t f) := modLtn_unchanged s _

@[simp] theorem getTask_modTask (f : Task → Task) (k : Nat) :
    getTask (modTask s t f) k = if k = t then f (getTask s t) else getTask s k := tget_tmod _ _ _ _ _

theorem getTask_modTask_same (f : Task → Task) : getTask (modTask s t f) t = f (getTask s t) := by
  rw [getTask_modTask, if_pos rfl]

theorem getTask_modTask_ne (f : Task → Task) {k : Nat} (h : k ≠ t) : getTask (modTask s t f) k = getTask s k := by
  rw [getTask_modTask, if_neg h]

end tasks

theorem FpFlags.or_empty (f : FpFlags) : f.or {} = f := by
  cases f
  simp [FpFlags.or]

/-! ## The next node (R364) -/

section node

variable {s : State} {t o : Nat} {i : Inst} {n : NodeWord}

theorem runNode_next (h : NodeNext s t o i n) : runNode s t o =
    modTask s t fun k => { k with run := some (nodeStep k (coefWord s t) n i) } := by
  obtain ⟨run, open_, node, op⟩ := h
  unfold runNode
  rw [run]
  dsimp only
  rw [open_, node]
  exact (if_neg Bool.false_ne_true).trans (if_pos op)

/-- What a node leaves of its instance: its deadline, its start, its being open, its FTZ. -/
def InstKept (i j : Inst) : Prop :=
  j.deadline = i.deadline ∧ j.started = i.started ∧ j.committed = i.committed ∧ j.ftz = i.ftz

/-- A node whose work on the instance is `body` is executed. -/
theorem node_runs {c : Nat → Instr} (runs : exec (c t) s = .next (runNode s t o)) (h : NodeNext s t o i n) {body : Inst}
    (step : nodeStep (getTask s t) (coefWord s t) n i = { body with node := i.node + 1 }) (kept : InstKept i body) :
    ∃ u, exec (c t) s = .next u ∧ NodeWent s u t i { body with node := i.node + 1 } := by
  obtain ⟨deadline, started, committed, ftz⟩ := kept
  obtain ⟨-, open_, -⟩ := id h
  rw [runNode_next h] at runs
  refine ⟨_, runs, ?_, rfl, deadline, started, committed.trans open_, ftz, fun k hk => getTask_modTask_ne s t _ hk, rfl, rfl,
    rfl, modTask_unchanged s t _⟩
  rw [getTask_modTask_same, step]

/-- A node that puts a result into DST. -/
theorem nodeWrites_of {c : Nat → Instr} {r : Inst → (Nat → Word) → NodeWord → Word × FpFlags}
    (runs : ∀ (t : Nat) (s : State), exec (c t) s = .next (runNode s t o))
    (step : ∀ (k : Task) (cf : Nat → Word) (n : NodeWord) (i : Inst), n.op = o →
      nodeStep k cf n i = { i.put n.dst (r i cf n) with node := i.node + 1 }) : NodeWrites o c r := by
  intro s t i n h
  obtain ⟨u, run, went⟩ := node_runs (runs t s) h (step _ _ _ _ h.2.2.2) ⟨rfl, rfl, rfl, rfl⟩
  refine ⟨u, _, run, went, ?_, rfl, fun k hk => ?_, rfl, rfl⟩
  · exact (tget_tset _ _ _ _ _).trans (if_pos rfl)
  · exact (tget_tset _ _ _ _ _).trans (if_neg hk)

end node

/-! ## LIM (R371) -/

section lim

variable {f : Bool} {a b : Word}

/-- No operand that FTZ changes. -/
def Flushed (f : Bool) (w : Word) : Prop := (f && fpSub w) = false

theorem fpIn_flushed (h : Flushed f a) : fpIn f a = a := by
  unfold fpIn
  rw [h]
  rfl

theorem flushed_fpIn (f : Bool) (x : Word) : Flushed f (fpIn f x) := by
  unfold Flushed fpIn
  cases f with
  | false => rfl
  | true =>
    cases sub : fpSub x with
    | false => exact sub
    | true =>
      have zero : ∀ neg, fpSub (fpPack neg 0) = false := by decide
      exact zero _

theorem flushed_zero (f : Bool) : Flushed f 0 := by
  unfold Flushed
  cases f <;> decide

theorem fpSub_fpFlip (number : fpNaN b = false) : fpSub (fpFlip b) = fpSub b := by
  obtain ⟨exp, frac, -⟩ := fpFlip_parts number
  rw [fpSub, exp, frac, fpSub]

theorem fpNaN_fpFlip (number : fpNaN b = false) : fpNaN (fpFlip b) = false := by
  obtain ⟨exp, frac, -⟩ := fpFlip_parts number
  rw [fpNaN, exp, frac]
  exact number

theorem fpMax_number (ha : Flushed f a) (hb : Flushed f b) (na : fpNaN a = false) (nb : fpNaN b = false) :
    fpMax f a b = (if fpBelow a b then b else a, {}) := by
  unfold fpMax
  rw [fpIn_flushed ha, fpIn_flushed hb]
  dsimp only
  rw [na, nb]
  rfl

theorem fpMin_number (ha : Flushed f a) (hb : Flushed f b) (na : fpNaN a = false) (nb : fpNaN b = false) :
    fpMin f a b = (if fpBelow b a then b else a, {}) := by
  unfold fpMin
  rw [fpIn_flushed ha, fpIn_flushed hb]
  dsimp only
  rw [na, nb]
  rfl

/-- `a` limited to [-b, b]. -/
def limited (a b : Word) : Word := if fpBelow a (fpFlip b) then fpFlip b else if fpBelow b a then b else a

/-- A number is limited by the maximum with -b and then the minimum with b, where b is not negative. -/
theorem limits (ha : Flushed f a) (hb : Flushed f b) (na : fpNaN a = false) (nb : fpNaN b = false) (positive : fpSign b = false) :
    fpMax f a (fpFlip b) = (if fpBelow a (fpFlip b) then fpFlip b else a, {}) ∧
      fpMin f (if fpBelow a (fpFlip b) then fpFlip b else a) b = (limited a b, {}) := by
  have flushed : Flushed f (fpFlip b) := by
    rw [Flushed, fpSub_fpFlip nb]
    exact hb
  have number := fpNaN_fpFlip nb
  refine ⟨fpMax_number ha flushed na number, ?_⟩
  have above : fpBelow b (fpFlip b) = false := by
    unfold fpBelow
    rw [positive, (fpFlip_parts nb).2.2, positive]
    rfl
  unfold limited
  split
  · rw [fpMin_number flushed hb number nb, above]
    rfl
  · exact fpMin_number ha hb na nb

/-- Not both below -b and above b. -/
theorem fpBelow_apart (nb : fpNaN b = false) (positive : fpSign b = false) (high : fpBelow b a = true) :
    fpBelow a (fpFlip b) = false := by
  unfold fpBelow at *
  rw [positive, if_neg Bool.false_ne_true] at high
  rw [(fpFlip_parts nb).2.2, positive]
  cases sign : fpSign a with
  | false => rfl
  | true =>
    rw [sign, if_pos rfl] at high
    exact absurd high Bool.false_ne_true

/-- The bound LIM uses: a number that is not negative. -/
theorem bound_of_number {b0 : Word} (nb0 : fpNaN b0 = false) (hb : b = if fpSign b0 = true then 0 else b0) :
    fpNaN b = false ∧ fpSign b = false := by
  cases sign : fpSign b0 with
  | true =>
    rw [hb, sign, if_pos rfl]
    decide
  | false =>
    rw [hb, sign, if_neg Bool.false_ne_true]
    exact ⟨nb0, sign⟩

/-- LIM of two numbers. -/
theorem nodeLim_numbers (n : NodeWord) (cf : Nat → Word) (i : Inst) {a b0 b : Word} (ha : a = fpIn i.ftz (i.opnd cf n.a))
    (hb0 : b0 = fpIn i.ftz (i.opnd cf n.b)) (na : fpNaN a = false) (nb0 : fpNaN b0 = false)
    (hb : b = if fpSign b0 = true then 0 else b0) :
    nodeLim n cf i = { i.put n.dst (limited a b, {}) with
      sat := i.sat <|> (if fpBelow a (fpFlip b) then some true else if fpBelow b a then some false else none) } := by
  obtain ⟨nb, positive⟩ := bound_of_number nb0 hb
  have flushed : Flushed i.ftz b := by
    rw [hb]
    split
    · exact flushed_zero _
    · exact hb0 ▸ flushed_fpIn _ _
  have same : (if fpSign b0 && !fpNaN b0 then 0 else b0) = b := by rw [nb0, hb, Bool.not_false, Bool.and_true]
  obtain ⟨low, high⟩ := limits (ha ▸ flushed_fpIn _ _) flushed na nb positive
  unfold nodeLim
  rw [← ha, ← hb0]
  dsimp only
  rw [same, low, high, na, nb]
  simp only [Bool.not_false, Bool.true_and]
  rfl

end lim

/-! ## The end of an instance (R368, R369) -/

section ends

variable (s : State) (t : Nat)

theorem getTask_applyCoef_ne (k : Nat) (v : Word) (sample : Nat) {j : Nat} (h : j ≠ t) :
    getTask (applyCoef s t k v sample) j = getTask s j := getTask_modTask_ne _ _ _ h

/-- What applying coefficient words leaves of a task. -/
def CoefsOnly (x y : Task) : Prop := y = { x with coefs := y.coefs, lastSample := y.lastSample }

theorem coefsOnly_applyCoef (k : Nat) (v : Word) (sample : Nat) :
    CoefsOnly (getTask s t) (getTask (applyCoef s t k v sample) t) := by
  unfold applyCoef
  rw [getTask_modTask_same]
  rfl

theorem CoefsOnly.trans {x y z : Task} (h : CoefsOnly x y) (g : CoefsOnly y z) : CoefsOnly x z := by
  unfold CoefsOnly at *
  rw [g, h]

/-- Applying the coefficient words of a list to a task. -/
theorem foldl_applyCoef (l : List (Nat × Nat × Word)) (u : State) :
    CoefsOnly (getTask u t) (getTask (l.foldl (fun s e => applyCoef s t e.2.1 e.2.2 ((getTask s t).sample + 1)) u) t) ∧
    (∀ k, k ≠ t → getTask (l.foldl (fun s e => applyCoef s t e.2.1 e.2.2 ((getTask s t).sample + 1)) u) k = getTask u k) ∧
    Unchanged [.ltn] u (l.foldl (fun s e => applyCoef s t e.2.1 e.2.2 ((getTask s t).sample + 1)) u) := by
  induction l generalizing u with
  | nil => exact ⟨rfl, fun _ _ => rfl, unchanged_refl _ u⟩
  | cons e l ih =>
    obtain ⟨own, others, frame⟩ := ih (applyCoef u t e.2.1 e.2.2 ((getTask u t).sample + 1))
    exact ⟨(coefsOnly_applyCoef u t _ _ _).trans own, fun k hk => (others k hk).trans (getTask_applyCoef_ne u t _ _ _ hk),
      unchanged_trans (modTask_unchanged u t _) frame⟩

/-- The words drained into an idle task change its coefficients only, and no other task. -/
theorem drainCoefs_keeps : CoefsOnly (getTask s t) (getTask (drainCoefs s t) t) ∧
    (∀ k, k ≠ t → getTask (drainCoefs s t) k = getTask s k) ∧ Unchanged [.ltn] s (drainCoefs s t) := by
  unfold drainCoefs
  split
  · exact ⟨rfl, fun _ _ => rfl, unchanged_refl _ s⟩
  · obtain ⟨own, others, frame⟩ := foldl_applyCoef t (s.ltn.queue.filter fun e => e.1 == t)
      (modLtn s fun l => { l with queue := l.queue.filter fun e => e.1 != t })
    exact ⟨own, others, unchanged_trans (modLtn_unchanged s _) frame⟩

/-- The task as a miss leaves it (R369). -/
def missed (k : Task) : Task :=
  { k with run := none, missBit := true, consec := min (k.consec + 1) 3, misses := min (k.misses + 1) 65535, goodRun := 0,
           missRun := k.missRun + 1, poison := false,
           flags := match k.run with | some i => k.flags.or i.flags | none => k.flags }

/-- A miss before the third in a row. -/
theorem missCore_first (few : (getTask s t).consec < 2) : missCore s t = drainCoefs (modTask s t missed) t := by
  unfold missCore
  dsimp only
  refine if_neg ?_
  simp only [Bool.and_eq_true, decide_eq_true_eq, beq_iff_eq]
  omega

/-- A miss of a non-finite value, before the third in a row. -/
theorem missCore_marked (few : (getTask s t).consec < 2) {u : State}
    (hu : u = missCore (modTask s t fun k => { k with nonfin := true }) t) :
    (getTask u t).run = none ∧ (getTask u t).nonfin = true ∧ (getTask u t).missBit = true ∧
      (getTask u t).consec = (getTask s t).consec + 1 ∧ (getTask u t).slots = (getTask s t).slots ∧
      (getTask u t).outs = (getTask s t).outs ∧ (getTask u t).missRun = (getTask s t).missRun + 1 ∧
      (∀ k, k ≠ t → getTask u k = getTask s k) ∧ Unchanged [.ltn] s u := by
  have marked := getTask_modTask_same s t fun k => { k with nonfin := true }
  obtain ⟨own, others, frame⟩ := drainCoefs_keeps (modTask (modTask s t fun k => { k with nonfin := true }) t missed) t
  rw [missCore_first _ _ (by rw [marked]; exact few)] at hu
  rw [← hu, getTask_modTask_same, marked] at own
  subst hu
  unfold CoefsOnly at own
  rw [own]
  refine ⟨rfl, rfl, rfl, ?_, rfl, rfl, rfl, fun k hk => ?_, ?_⟩
  · exact Nat.min_eq_left (Nat.le_succ_of_le (Nat.succ_le_of_lt few))
  · rw [others k hk, getTask_modTask_ne _ _ _ hk, getTask_modTask_ne _ _ _ hk]
  · exact unchanged_trans (unchanged_trans (modTask_unchanged s t _) (modTask_unchanged _ t _)) frame

/-- Before the third miss in a row, and the 64th, its owner does nothing. -/
theorem afterMiss_first {before : Nat} (few : before < 2) (not64 : (getTask s t).missRun ≠ 64) :
    afterMiss s t before false = s := by
  have notThird : (before == 2) = false := beq_false_of_ne few.ne
  unfold afterMiss
  rw [notThird]
  dsimp only
  split
  · exact if_neg not64
  · split <;> rfl

end ends

section nodeEnd

variable {s : State} {t : Nat} {i : Inst} {n : NodeWord} (h : NodeNext s t 0x3F i n)
include h

theorem nodeEnd_commits : exec (.nodeEnd t) s = .next (commitTask s t) := by
  obtain ⟨run, open_, node, op⟩ := h
  refine (show _ = execNodeEnd t s from rfl).trans ?_
  unfold execNodeEnd
  rw [run]
  dsimp only
  rw [node]
  dsimp only
  rw [op, open_]
  rfl

/-- The task as a commit of `i` leaves it. -/
def committed (ns : Nat) (i : Inst) (k : Task) : Task :=
  { k with
    slots := i.work.filter fun e => 16 ≤ e.1 && e.1 < 64
    run := some { i with committed := true }
    consec := 0
    missRun := 0
    goodRun := k.goodRun + 1
    flags := k.flags.or i.flags
    sat := i.sat.isSome
    satNeg := i.sat.getD false
    satInst := if i.sat.isSome then min (k.satInst + 1) 65535 else k.satInst
    execMax := max k.execMax (min ((ns - i.started) / 10) 65535) }

variable (sound : (getTask s t).poison = false)
include sound

/-- END of a finite instance commits. -/
theorem commitTask_commits (finite : i.finite = true) (noInhibit : (getTask s t).inhibit = false) :
    commitTask s t = modTask s t (committed s.tb.ns i) := by
  obtain ⟨run, open_, -⟩ := h
  have core : commitCore s t = (modTask s t (committed s.tb.ns i), false) := by
    unfold commitCore
    dsimp only
    rw [run]
    dsimp only
    rw [open_, sound, finite, noInhibit]
    rfl
  unfold commitTask
  rw [core]
  dsimp only
  rw [noInhibit]
  rfl

/-- END of an instance with a non-finite value is a miss. -/
theorem commitTask_misses (finite : i.finite = false) :
    commitTask s t = afterMiss (missCore (modTask s t fun k => { k with nonfin := true }) t) t (getTask s t).consec false := by
  obtain ⟨run, open_, -⟩ := h
  have core : commitCore s t = (missCore (modTask s t fun k => { k with nonfin := true }) t, true) := by
    unfold commitCore
    dsimp only
    rw [run]
    dsimp only
    rw [open_, sound, finite]
    rfl
  unfold commitTask
  rw [core]
  dsimp only
  rw [sound]
  rfl

end nodeEnd

/-! ## The nodes with more than one result -/

section results

variable {s : State} {t : Nat} {i : Inst} {n : NodeWord} {a b st : Word}

/-- The instance after LIM. -/
def limDone (n : NodeWord) (a b : Word) (i : Inst) : Inst :=
  { i.put n.dst (limited a b, {}) with
    sat := i.sat <|> (if fpBelow a (fpFlip b) then some true else if fpBelow b a then some false else none) }

/-- The instance after BIQ with the output `y` and the middle term `v`. -/
def biqDone (n : NodeWord) (cf : Nat → Word) (x y v : Word) (i : Inst) (f1 f2 : FpFlags) : Inst :=
  ((i.put n.aux ((fpFma i.ftz (fpFlip (cf 3)) y v).1, f1)).put (n.aux + 1)
    ((fpFma i.ftz (cf 2) x (fpFlip (fpMul i.ftz (cf 4) y).1)).1, f2)).put n.dst (y, {})

theorem nodeBiq_done (n : NodeWord) (cf : Nat → Word) (i : Inst) : ∃ f1 f2, nodeBiq n cf i =
    biqDone n (fun k => cf (n.b % 256 + k)) (i.opnd cf n.a) (fpFma i.ftz (cf (n.b % 256)) (i.opnd cf n.a) (tget 0 i.work n.aux)).1
      (fpFma i.ftz (cf (n.b % 256 + 1)) (i.opnd cf n.a) (tget 0 i.work (n.aux + 1))).1 i f1 f2 := ⟨_, _, rfl⟩

/-- The instance after an integration with the result `r`. -/
def integDone (n : NodeWord) (i : Inst) (r : Word) (f : FpFlags) : Inst := (i.put n.aux (r, f)).put n.dst (r, {})

theorem nodeInteg_free (n : NodeWord) (cf : Nat → Word) (i : Inst) {sat neg : Bool} (free : n.aw = false ∨ sat = false) :
    ∃ f, nodeInteg n cf sat neg i = integDone n i
      (fpClamp i.ftz (fpFma i.ftz (i.opnd cf n.a) (i.opnd cf n.b) (tget 0 i.work n.aux)).1 (cf (n.c % 256))
        (cf (n.c % 256 + 1))).1 f := by
  have held : (n.aw && sat) = false := by
    rcases free with free | free <;> simp [free]
  refine ⟨(fpFma i.ftz (i.opnd cf n.a) (i.opnd cf n.b) (tget 0 i.work n.aux)).2.or (fpClamp i.ftz
    (fpFma i.ftz (i.opnd cf n.a) (i.opnd cf n.b) (tget 0 i.work n.aux)).1 (cf (n.c % 256)) (cf (n.c % 256 + 1))).2, ?_⟩
  unfold nodeInteg
  dsimp only
  rw [held]
  rfl

end results

/-- Settles O44: each node by what it does to the instance. -/
theorem nodesOfTable126 : Obligations.NodesOfTable126 := by
  unfold Obligations.NodesOfTable126
  have writes {o : Nat} {c : Nat → Instr} {r : Inst → (Nat → Word) → NodeWord → Word × FpFlags} := @nodeWrites_of o c r
  refine ⟨writes (fun _ _ => rfl) ?_, writes (fun _ _ => rfl) ?_, writes (fun _ _ => rfl) ?_, writes (fun _ _ => rfl) ?_,
    writes (fun _ _ => rfl) ?_, writes (fun _ _ => rfl) ?_, writes (fun _ _ => rfl) ?_, writes (fun _ _ => rfl) ?_,
    writes (fun _ _ => rfl) ?_, writes (fun _ _ => rfl) ?_, writes (fun _ _ => rfl) ?_, writes (fun _ _ => rfl) ?_,
    writes (fun _ _ => rfl) ?_, writes (fun _ _ => rfl) ?_, fun s t i n a b0 b h ha hb0 na nb0 hb => ?_,
    fun s t i n x y v cf h notAux notAux' hcf hx hy hv => ?_, fun s t i n a b st h ha hb hst => ⟨fun free => ?_,
      fun aw sat na nb sign => ?_⟩, fun s t i n h => ?_, fun s t i n h sound => ⟨fun finite noInhibit => ?_,
      fun finite few not63 => ?_⟩⟩
  iterate 14
    intro k cf n i op
    rw [nodeStep, op]
    rfl
  · have lim : nodeStep (getTask s t) (coefWord s t) n i = { limDone n a b i with node := i.node + 1 } := by
      rw [nodeStep, h.2.2.2]
      dsimp only
      rw [nodeLim_numbers n _ i ha hb0 na nb0 hb]
      rfl
    obtain ⟨u, run, went⟩ := node_runs (c := .nodeLim) rfl h lim ⟨rfl, rfl, rfl, rfl⟩
    have bound : fpNaN b = false ∧ fpSign b = false := bound_of_number nb0 hb
    have dst : tget 0 (limDone n a b i).work n.dst = limited a b := (tget_tset _ _ _ _ _).trans (if_pos rfl)
    refine ⟨u, _, run, went, FpFlags.or_empty _, fun k hk => (tget_tset _ _ _ _ _).trans (if_neg hk), fun low => ?_,
      fun high => ?_, fun low high => ?_, fun x hx => ?_⟩
    · exact ⟨dst.trans (if_pos low), fun none => by simp [limDone, none, low]⟩
    · have notLow := fpBelow_apart bound.1 bound.2 high
      exact ⟨dst.trans (by simp [limited, notLow, high]), fun none => by simp [limDone, none, notLow, high]⟩
    · exact ⟨dst.trans (by simp [limited, low, high]), by simp [limDone, low, high]⟩
    · simp [limDone, hx]
  · have biq : ∃ f1 f2, nodeStep (getTask s t) (coefWord s t) n i = { biqDone n cf x y v i f1 f2 with node := i.node + 1 } := by
      obtain ⟨f1, f2, done⟩ := nodeBiq_done n (coefWord s t) i
      refine ⟨f1, f2, ?_⟩
      rw [nodeStep, h.2.2.2]
      dsimp only
      rw [done, hy, hv, hx, hcf]
      rfl
    obtain ⟨f1, f2, biq⟩ := biq
    obtain ⟨u, run, went⟩ := node_runs (c := .nodeBiq) rfl h biq ⟨rfl, rfl, rfl, rfl⟩
    refine ⟨u, _, run, went, ?_, ?_, ?_, fun k hk haux haux' => ?_, rfl⟩
    · simp [biqDone, Inst.put]
    · simp [biqDone, Inst.put, notAux.symm]
    · simp [biqDone, Inst.put, notAux'.symm]
    · simp [biqDone, Inst.put, hk, haux, haux']
  · obtain ⟨f, done⟩ := nodeInteg_free n (coefWord s t) i (neg := (getTask s t).satNeg) free
    rw [← ha, ← hb, ← hst] at done
    generalize (fpClamp i.ftz (fpFma i.ftz a b st).1 (coefWord s t (n.c % 256)) (coefWord s t (n.c % 256 + 1))).1 = r at done ⊢
    have integ : nodeStep (getTask s t) (coefWord s t) n i = { integDone n i r f with node := i.node + 1 } := by
      rw [nodeStep, h.2.2.2]
      dsimp only
      rw [done]
      rfl
    obtain ⟨u, run, went⟩ := node_runs (c := .nodeInteg) rfl h integ ⟨rfl, rfl, rfl, rfl⟩
    refine ⟨u, _, run, went, ?_, ?_, fun k hk haux => ?_⟩
    · simp [integDone, Inst.put]
    · simp [integDone, Inst.put]
    · simp [integDone, Inst.put, hk, haux]
  · have integ : nodeStep (getTask s t) (coefWord s t) n i = { i.put n.dst (st, {}) with node := i.node + 1 } := by
      rw [nodeStep, h.2.2.2]
      dsimp only
      unfold nodeInteg
      rw [← ha, ← hb, ← hst]
      dsimp only
      rw [aw, sat, na, nb, sign]
      rfl
    obtain ⟨u, run, went⟩ := node_runs (c := .nodeInteg) rfl h integ ⟨rfl, rfl, rfl, rfl⟩
    exact ⟨u, _, run, went, (tget_tset _ _ _ _ _).trans (if_pos rfl), fun k hk => (tget_tset _ _ _ _ _).trans (if_neg hk)⟩
  · have out : nodeStep (getTask s t) (coefWord s t) n i = { nodeOut n (coefWord s t) i with node := i.node + 1 } := by
      rw [nodeStep, h.2.2.2]
      rfl
    obtain ⟨u, run, went⟩ := node_runs (c := .nodeOut) rfl h out ⟨rfl, rfl, rfl, rfl⟩
    exact ⟨u, _, run, went, (tget_tset _ _ _ _ _).trans (if_pos rfl), fun k hk => (tget_tset _ _ _ _ _).trans (if_neg hk), rfl⟩
  · obtain run := nodeEnd_commits h
    rw [commitTask_commits h sound finite noInhibit] at run
    refine ⟨_, run, ?_⟩
    rw [getTask_modTask_same]
    refine ⟨rfl, fun k low high => ?_, rfl, rfl, rfl, rfl, rfl, fun k hk => getTask_modTask_ne _ _ _ hk, modTask_unchanged _ _ _⟩
    refine (tget_filter 0 i.work (fun k => 16 ≤ k && k < 64) k).trans (if_pos ?_)
    simp [low, high]
  · obtain run := nodeEnd_commits h
    rw [commitTask_misses h sound finite] at run
    obtain ⟨ended, nonfin, bit, consec, slots, outs, counted, others, frame⟩ := missCore_marked s t few rfl
    rw [afterMiss_first _ _ few (by rw [counted]; omega)] at run
    exact ⟨_, run, ended, nonfin, bit, consec, slots, outs, others, frame⟩

end Sys2Proof.Laws
end

section
/-!
PROOFS. Rules of the operations that many units share: the parts of the state each may change, and the register words it leaves.
-/

namespace Sys2Proof.Laws

open Sys2Proof.Machine

/-! ## Frames: an operation may be dropped from the end of a chain -/

section frames

variable {P Q : List Part} {s t u : State}

theorem samePart_symm {p : Part} (h : SamePart s t p) : SamePart t s p := by
  cases p <;> exact Eq.symm h

/-- An operation that touches parts of `P` only keeps every frame with `P`. -/
theorem unchanged_step (h : Unchanged Q t u) (hQ : Q ⊆ P) : Unchanged P s u ↔ Unchanged P s t := by
  have back : Unchanged Q u t := fun p hp => samePart_symm (h p hp)
  exact ⟨fun g => unchanged_trans g (unchanged_mono back hQ), fun g => unchanged_trans g (unchanged_mono h hQ)⟩

theorem unchanged_ite {c : Prop} [Decidable c] {a b : State} :
    Unchanged P s (if c then a else b) ↔ (c → Unchanged P s a) ∧ (¬c → Unchanged P s b) := by
  split
  case isTrue h => exact ⟨fun g => ⟨fun _ => g, fun n => absurd h n⟩, fun g => g.1 h⟩
  case isFalse h => exact ⟨fun g => ⟨fun n => absurd n h, fun _ => g⟩, fun g => g.2 h⟩

theorem drawFree_unchanged (s : State) : Unchanged [.freeCtr] s (drawFree s).2 := by
  intro part hpart
  cases part with
  | freeCtr => exact absurd (by decide) hpart
  | _ => rfl

theorem fbump_unchanged (s : State) (f : Fld) (n : Nat) : Unchanged [.regs] s (fbump s f n) := fset_unchanged s f _

theorem report_unchanged (s : State) (r : Report) : Unchanged reportParts s (report s r) :=
  ((ReportFrame.refl s).after_report r).parts

theorem modRnd_unchanged (s : State) (f : Render → Render) : Unchanged [.rnd] s (modRnd s f) := by
  intro part hpart
  cases part with
  | rnd => exact absurd (by decide) hpart
  | _ => rfl

theorem after_emit (o : Out) (hP : [.out] ⊆ P) : Unchanged P s (emit t o) ↔ Unchanged P s t :=
  unchanged_step (emit_unchanged t o) hP

theorem after_rset (k : Nat) (v : Word) (hP : [.regs] ⊆ P) : Unchanged P s (rset t k v) ↔ Unchanged P s t :=
  unchanged_step (rset_unchanged t k v) hP

theorem after_fset (f : Fld) (x : Nat) (hP : [.regs] ⊆ P) : Unchanged P s (fset t f x) ↔ Unchanged P s t :=
  unchanged_step (fset_unchanged t f x) hP

theorem after_fsetBit (f : Fld) (i : Nat) (b : Bool) (hP : [.regs] ⊆ P) : Unchanged P s (fsetBit t f i b) ↔ Unchanged P s t :=
  unchanged_step (fsetBit_unchanged t f i b) hP

theorem after_fbump (f : Fld) (n : Nat) (hP : [.regs] ⊆ P) : Unchanged P s (fbump t f n) ↔ Unchanged P s t :=
  unchanged_step (fbump_unchanged t f n) hP

theorem after_drawFree (hP : [.freeCtr] ⊆ P) : Unchanged P s (drawFree t).2 ↔ Unchanged P s t :=
  unchanged_step (drawFree_unchanged t) hP

theorem after_modTrw (f : Trowel → Trowel) (hP : [.trw] ⊆ P) : Unchanged P s (modTrw t f) ↔ Unchanged P s t :=
  unchanged_step (modTrw_unchanged t f) hP

theorem after_modRnd (f : Render → Render) (hP : [.rnd] ⊆ P) : Unchanged P s (modRnd t f) ↔ Unchanged P s t :=
  unchanged_step (modRnd_unchanged t f) hP

theorem after_report (r : Report) (hP : reportParts ⊆ P) : Unchanged P s (report t r) ↔ Unchanged P s t :=
  unchanged_step (report_unchanged t r) hP

theorem after_raise (src data : Nat) (hP : reportParts ⊆ P) : Unchanged P s (raise t src data) ↔ Unchanged P s t :=
  unchanged_step (raise_unchanged t src data) hP

theorem after_dmkSend (code data : Nat) (hP : reportParts ⊆ P) : Unchanged P s (dmkSend t code data) ↔ Unchanged P s t :=
  unchanged_step (((ReportFrame.refl t).after_dmkSend code data).parts) hP

theorem after_modTask (k : Nat) (f : Task → Task) (hP : [.ltn] ⊆ P) : Unchanged P s (modTask t k f) ↔ Unchanged P s t :=
  unchanged_step (modTask_unchanged t k f) hP

end frames

/-! ## Register words of the units -/

/-- A register word of a unit between the host ports and Ozper: no word of the always-on blocks. -/
def UnitWord (k : Nat) : Prop := 0x100000 ≤ k ∧ k < 0x1400000

section words

variable {k : Nat} (hk : UnitWord k) (s : State)
include hk

theorem not_reportKey_unit : ¬ReportKey k := not_reportKey_below hk.2

theorem rget_report_unit (r : Report) : rget (report s r) k = rget s k :=
  ((ReportFrame.refl s).after_report r).regs k (not_reportKey_unit hk)

theorem rget_raise_unit (src data : Nat) : rget (raise s src data) k = rget s k :=
  ((ReportFrame.refl s).after_raise src data).regs k (not_reportKey_unit hk)

theorem rget_dmkSend_unit (code data : Nat) : rget (dmkSend s code data) k = rget s k :=
  ((ReportFrame.refl s).after_dmkSend code data).regs k (not_reportKey_unit hk)

theorem rget_retireUnit_unit (u : UnitId) : rget (retireUnit s u) k = rget s k :=
  rget_retireUnit s u (lt_trans hk.2 (by decide))

theorem rget_setReduction_unit (i : Nat) (b : Bool) : rget (setReduction s i b) k = rget s k := by
  have low := hk.1
  have high := hk.2
  rw [rget_setReduction s i b (by simp only [DMK_LOSS_OVERFLOW]; omega)]
  exact rget_fsetBit _ _ _ _ (by simp only [GLB_STATUS_REDUCTION]; omega)

theorem rget_recomputeFloor_unit (t n : Nat) (c : ClassRec) (wr : Bool) : rget (recomputeFloor s t n c wr) k = rget s k := by
  have own (f : ClassDir → ClassDir) : rget (modDir s t n wr f) k = rget s k :=
    rget_congr (modDir_unchanged _ _ _ _ _ .regs (by decide)) k
  unfold recomputeFloor
  extract_lets whole eff old cut kept data
  have sent (code : Nat) : rget (dmkSend kept code data) k = rget s k := (rget_dmkSend_unit hk _ _ _).trans (own _)
  split
  · exact sent _
  · split
    · exact sent _
    · exact own _

theorem rget_recomputeFloors_unit : rget (recomputeFloors s) k = rget s k := by
  have floors : rget (s.nv.tenants.foldl (fun s e => (contractOf s e.1).zipIdx.foldl (fun s (c, n) => match c with
      | some c => recomputeFloor (recomputeFloor s e.1 n c false) e.1 n c true
      | none => s) s) s) k = rget s k := by
    refine rget_foldl _ _ fun b e _ => rget_foldl _ _ fun b x _ => ?_
    obtain ⟨c, n⟩ := x
    cases c with
    | none => rfl
    | some c => exact (rget_recomputeFloor_unit hk _ _ _ _ _).trans (rget_recomputeFloor_unit hk _ _ _ _ _)
  unfold recomputeFloors
  dsimp only
  split
  · exact floors
  · exact (rget_setReduction_unit hk _ _ _).trans floors

end words

end Sys2Proof.Laws
end

section
/-!
PROOFS. The statement of 15_render_and_hod.md on Render's jobs (R440 to R446).
-/

namespace Sys2Proof.Laws

open Sys2Proof.Machine

/-! ## Engines and contexts -/

section engines

variable (s : State) (e : Nat)

theorem clearEngine_unchanged : Unchanged [.rnd] s (clearEngine s e) := modRnd_unchanged s _

theorem rndEngine_clearEngine (k : Nat) : rndEngine (clearEngine s e) k = if k = e then none else rndEngine s k :=
  tget_tset _ _ _ _ _

theorem rndEngine_clearEngine_same : rndEngine (clearEngine s e) e = none := by
  rw [rndEngine_clearEngine, if_pos rfl]

theorem rnd_congr {s t : State} (h : t.rnd = s.rnd) (k : Nat) : rndEngine t k = rndEngine s k := by
  rw [rndEngine, h, rndEngine]

theorem setRndCtx_unchanged (n : Nat) (c : Option RndCtx) : Unchanged [.regs, .rnd] s (setRndCtx s n c) := by
  unfold setRndCtx
  exact (after_fset _ _ (by decide)).mpr (unchanged_mono (modRnd_unchanged s _) (by decide))

theorem fget_modRnd (g : Render → Render) (f : Fld) : fget (modRnd s g) f = fget s f := rfl

theorem requeue_unchanged (it : RndItem) : Unchanged [.rnd] s (requeue s e it) := modRnd_unchanged s _

theorem rndResult_unchanged (j : RenderJob) (status engine consumed produced crc : Nat) (retried : Bool) :
    Unchanged [.out] s (rndResult s j status engine consumed produced crc retried) := emit_unchanged s _

end engines

/-! ## Results (Table 15-2) -/

/-- The two first words of a result. -/
theorem result_words (tag status engine consumed produced crc : Nat) {w : List DWord}
    (hw : w = [BitVec.ofNat 64 (tag % 65536 + status % 256 * 2 ^ 16 + engine % 8 * 2 ^ 24 + consumed % 2 ^ 32 * 2 ^ 32),
      BitVec.ofNat 64 (produced % 2 ^ 32 + crc % 2 ^ 32 * 2 ^ 32)] ++ w.drop 2) :
    (w.getD 0 0).toNat / 2 ^ 16 % 256 = status % 256 ∧ (w.getD 0 0).toNat / 2 ^ 32 = consumed % 2 ^ 32 ∧
      (w.getD 1 0).toNat % 2 ^ 32 = produced % 2 ^ 32 ∧ (w.getD 1 0).toNat / 2 ^ 32 = crc % 2 ^ 32 := by
  rw [hw]
  simp only [List.cons_append, List.nil_append, List.getD_cons_zero, List.getD_cons_succ, BitVec.toNat_ofNat]
  omega

/-! ## Dispatch (R441, R442) -/

/-- The queue without its head. -/
theorem jobCheck_modRnd (s : State) (rest : List RndItem) (j : RenderJob) :
    jobCheck (modRnd s fun r => { r with queue := rest }) j = jobCheck s j := rfl

theorem execRenderDispatch_picked {s : State} {it : RndItem} {rest : List RndItem} {e : Nat} (head : s.rnd.queue = it :: rest)
    (picked : rndPick s it.skip = some e) : exec .renderDispatch s =
      .next (if jobCheck s it.job ≠ 0 then badJob (modRnd s fun r => { r with queue := rest }) it.job (jobCheck s it.job) e
        else modRnd (modRnd s fun r => { r with queue := rest }) fun r => { r with engines := tset none r.engines e (some it) }) := by
  refine (show _ = execRenderDispatch s from rfl).trans ?_
  unfold execRenderDispatch
  rw [head]
  dsimp only
  rw [picked]
  dsimp only
  rw [jobCheck_modRnd]
  split <;> rfl

/-- A job of no flow that fails its checks is counted, reported and answered. -/
theorem badJob_noFlow {s : State} {j : RenderJob} {status e : Nat} (flow : j.flow = none) : badJob s j status e =
    rndResult (report (fbump s RND_CNT1_BAD_JOB) { src := 0x388, cls := .contained }) j status e 0 0 0 false := by
  unfold badJob
  rw [flow]

theorem unitWord_render {f : Fld} (h : 0x1100000 ≤ f.off ∧ f.off < 0x1101000) : UnitWord f.off :=
  ⟨by omega, by omega⟩

/-- A job that arrives while the queue has room. -/
theorem rndArrive_joins {s : State} (room : s.rnd.queue.length < 64) (j : RenderJob) :
    rndArrive s j = modRnd s fun r => { r with queue := r.queue ++ [{ job := j }] } := if_pos room

theorem render_arrives {s : State} (j : RenderJob) {i : Instr} {op : Nat} (room : s.rnd.queue.length < 64)
    (listed : (i, op) ∈ [(Instr.compress j, 1), (.decompress j, 2), (.renderResume j, 3), (.renderFree j, 4)]) :
    exec i s = .next (modRnd s fun r => { r with queue := r.queue ++ [{ job := { j with op := op } }] }) := by
  simp only [List.mem_cons, List.not_mem_nil, or_false, Prod.mk.injEq] at listed
  rcases listed with ⟨rfl, rfl⟩ | ⟨rfl, rfl⟩ | ⟨rfl, rfl⟩ | ⟨rfl, rfl⟩
  all_goals exact congrArg Host.Outcome.next (rndArrive_joins room _)

/-- The result of a job that did nothing. -/
theorem rndResult_refusal (s : State) (j : RenderJob) (status e : Nat) : rndResult s j status e 0 0 0 false =
    emit s (.message j.reply [BitVec.ofNat 64 (j.tag % 65536 + status % 256 * 2 ^ 16 + e % 8 * 2 ^ 24), 0, 0, 0]) := by
  have nothing (a : Nat) : a + 0 % 2 ^ 32 * 2 ^ 32 = a := by omega
  unfold rndResult
  rw [nothing, nothing]
  rfl

theorem render_refuses {s : State} {it : RndItem} {rest : List RndItem} {e : Nat} (head : s.rnd.queue = it :: rest)
    (picked : rndPick s it.skip = some e) (fails : jobCheck s it.job ≠ 0) (flow : it.job.flow = none) :
    ∃ t, exec .renderDispatch s = .next t ∧ t.rnd = { s.rnd with queue := rest } ∧
      fget t RND_CNT1_BAD_JOB = min (fget s RND_CNT1_BAD_JOB + 1) 65535 ∧
      .message it.job.reply [BitVec.ofNat 64 (it.job.tag % 65536 + jobCheck s it.job % 256 * 2 ^ 16 + e % 8 * 2 ^ 24), 0, 0, 0] ∈ t.out ∧
      Unchanged (.rnd :: reportParts) s t := by
  have run := execRenderDispatch_picked head picked
  rw [if_pos fails, badJob_noFlow flow, rndResult_refusal] at run
  generalize queued : (modRnd s fun r => { r with queue := rest }) = u at run
  have frame := report_unchanged (fbump u RND_CNT1_BAD_JOB) { src := 0x388, cls := .contained }
  refine ⟨_, run, ?_, ?_, List.mem_cons_self, ?_⟩
  · refine (frame .rnd (by decide)).trans ?_
    rw [← queued]
    rfl
  · refine (fget_congr (rget_report_unit (unitWord_render (by decide)) _ _)).trans ?_
    rw [fget_fbump _ _ (by decide), ← queued]
    rfl
  · refine (after_emit _ (by decide)).mpr ((after_report _ (by decide)).mpr ((after_fbump _ _ (by decide)).mpr ?_))
    exact queued ▸ unchanged_mono (modRnd_unchanged s _) (by decide)

/-! ## The end of a job (R443, R445, R446) -/

theorem exec_renderJobEnd_free {s : State} {e : Nat} {it : RndItem} (running : rndEngine s e = some it) (free : it.job.op = 4) :
    exec (.renderJobEnd e) s =
      .next (rndResult (setRndCtx (clearEngine s e) it.job.ctx none) it.job 0 e 0 0 0 it.retried) := by
  refine (show _ = execRenderJobEnd e s from rfl).trans ?_
  unfold execRenderJobEnd
  rw [running]
  exact if_pos free

/-- The state in which engine `e`'s job has drawn its two open values. -/
def jobDrawn (s : State) (e : Nat) : State := (drawFree (drawFree (clearEngine s e)).2).2

theorem jobDrawn_unchanged (s : State) (e : Nat) : Unchanged [.rnd, .freeCtr] s (jobDrawn s e) := by
  unfold jobDrawn
  rw [after_drawFree (by decide), after_drawFree (by decide)]
  exact unchanged_mono (clearEngine_unchanged s e) (by decide)

/-- A job of a stream of its own that ends otherwise than a failed granule read. -/
theorem exec_renderJobEnd_done {s : State} {e : Nat} {it : RndItem} {r : JobEnd} (running : rndEngine s e = some it)
    (notFree : it.job.op ≠ 4) (result : (runJob (clearEngine s e) it.job).1 = r)
    (notLost : (granuleRead it.job && (r.status == 0x11 || r.status == 0x12)) = false) :
    exec (.renderJobEnd e) s = .next (finishJob (jobDrawn s e) e it r) := by
  refine (show _ = execRenderJobEnd e s from rfl).trans ?_
  unfold execRenderJobEnd
  rw [running]
  refine (if_neg notFree).trans ?_
  have ran : runJob (clearEngine s e) it.job = (r, jobDrawn s e) := by rw [← result]; rfl
  rw [ran]
  dsimp only
  refine if_neg ?_
  simpa [Bool.and_eq_true] using notLost

/-- What a finished job without a context leaves: its output, its result, its engine free. -/
theorem finishJob_done {s : State} {e status : Nat} {it : RndItem} {r : JobEnd} (ctx : it.job.ctx = 0)
    (hr : r.status = status) (small : status < 256) :
    ∃ w, rndEngine (finishJob (jobDrawn s e) e it r) e = none ∧
      (finishJob (jobDrawn s e) e it r).out = .message it.job.reply w :: s.out ∧
      (finishJob (jobDrawn s e) e it r).trw.sram = memWrite s.trw.sram it.job.outAddr r.out ∧
      (finishJob (jobDrawn s e) e it r).trw.dram = s.trw.dram ∧ (finishJob (jobDrawn s e) e it r).rnd.ctxs = s.rnd.ctxs ∧
      (w.getD 0 0).toNat / 2 ^ 16 % 256 = status ∧ (w.getD 0 0).toNat / 2 ^ 32 = r.consumed % 2 ^ 32 ∧
      (w.getD 1 0).toNat % 2 ^ 32 = r.out.length % 2 ^ 32 ∧ (w.getD 1 0).toNat / 2 ^ 32 = (crc32c r.plain).toNat ∧
      Unchanged [.regs, .trw, .rnd, .out, .freeCtr] s (finishJob (jobDrawn s e) e it r) := by
  have drawn : finishJob (jobDrawn s e) e it r = rndResult (if granuleWrite it.job && r.status = 1 then
        fbump (modTrw (jobDrawn s e) fun w => { w with sram := memWrite w.sram it.job.outAddr r.out }) RND_CNT0_STORED
      else modTrw (jobDrawn s e) fun w => { w with sram := memWrite w.sram it.job.outAddr r.out })
      it.job r.status e r.consumed r.out.length (crc32c r.plain).toNat it.retried := by
    unfold finishJob
    dsimp only
    rw [if_pos ctx]
  generalize wrote : (modTrw (jobDrawn s e) fun w => { w with sram := memWrite w.sram it.job.outAddr r.out }) = u at drawn
  generalize counted : (if granuleWrite it.job && r.status = 1 then fbump u RND_CNT0_STORED else u) = v at drawn
  have frameV : Unchanged [.regs] u v := by
    rw [← counted]
    exact unchanged_ite.mpr ⟨fun _ => fbump_unchanged u _ _, fun _ => unchanged_refl _ u⟩
  have frameU : Unchanged [.trw] (jobDrawn s e) u := wrote ▸ modTrw_unchanged _ _
  have frameD := jobDrawn_unchanged s e
  have trw : v.trw = { s.trw with sram := memWrite s.trw.sram it.job.outAddr r.out } := by
    have same : v.trw = u.trw := frameV .trw (by decide)
    have drawn' : (jobDrawn s e).trw = s.trw := frameD .trw (by decide)
    rw [same, ← wrote, ← drawn']
    rfl
  have rnd : v.rnd = (clearEngine s e).rnd :=
    (frameV .rnd (by decide)).trans (frameU .rnd (by decide))
  have outs : v.out = s.out :=
    (frameV .out (by decide)).trans ((frameU .out (by decide)).trans (frameD .out (by decide)))
  obtain ⟨w, hw⟩ : ∃ w, w = [BitVec.ofNat 64 (it.job.tag % 65536 + r.status % 256 * 2 ^ 16 + e % 8 * 2 ^ 24 +
      r.consumed % 2 ^ 32 * 2 ^ 32), BitVec.ofNat 64 (r.out.length % 2 ^ 32 + (crc32c r.plain).toNat % 2 ^ 32 * 2 ^ 32),
    BitVec.ofNat 64 (b2n it.retried), 0] := ⟨_, rfl⟩
  have told : rndResult v it.job r.status e r.consumed r.out.length (crc32c r.plain).toNat it.retried =
      emit v (.message it.job.reply w) := hw ▸ rfl
  obtain ⟨ended, consumed, produced, crc⟩ := result_words it.job.tag r.status e r.consumed r.out.length (crc32c r.plain).toNat
    (w := w) (by rw [hw]; rfl)
  rw [hr, Nat.mod_eq_of_lt small] at ended
  rw [Nat.mod_eq_of_lt (crc32c r.plain).isLt] at crc
  rw [drawn, told]
  have sent := emit_unchanged v (.message it.job.reply w)
  replace trw := (sent .trw (by decide)).trans trw
  replace rnd := (sent .rnd (by decide)).trans rnd
  refine ⟨w, ?_, congrArg _ outs, by rw [trw], by rw [trw], by rw [rnd]; rfl, ended, consumed, produced, crc, ?_⟩
  · exact (rnd_congr rnd e).trans (rndEngine_clearEngine_same s e)
  · refine (after_emit _ (by decide)).mpr ((unchanged_step frameV (by decide)).mpr ((unchanged_step frameU (by decide)).mpr ?_))
    exact unchanged_mono frameD (by decide)

/-! ## A whole stream in one job -/

/-- The stream that a job of no context begins. -/
def newStream (j : RenderJob) : RndCtx :=
  { tag := j.tenant, compress := j.op == 1, zlib := j.zlib, depth := j.depth, expect := j.expect, input := [],
    ends := [], produced := 0 }

theorem jobStream_new (s : State) {j : RenderJob} (h : j.op ≠ 3) : jobStream s j = newStream j := by
  unfold jobStream
  rw [if_neg h]
  rfl

section whole

variable (j : RenderJob) (inp : List Byte) (free free2 : Nat)

/-- A final compression gives the encoder's bytes, cut at OUT_LEN. -/
theorem compressJob_new (final : j.final = true) {out : List Byte}
    (hout : out = (Config.deflate (inp.map (·.toNat)) [] j.depth j.zlib true).map (BitVec.ofNat 8)) :
    (out.length ≤ j.outLen → ∃ c, compressJob (newStream j) j inp free = ⟨0, inp.length, out, inp, c⟩) ∧
    (j.outLen < out.length → ∃ n p c, compressJob (newStream j) j inp free = ⟨1, n, out.take j.outLen, p, c⟩) := by
  unfold compressJob newStream
  rw [final]
  dsimp only
  simp only [List.nil_append, if_pos, List.drop_zero, ← hout]
  exact ⟨fun fits => ⟨_, if_neg (Nat.not_lt_of_le fits)⟩, fun full => ⟨_, _, _, if_pos full⟩⟩

/-- A stream that ends gives its plaintext. -/
theorem decompressJob_new {plain : List Byte} (decoded : inflate j.zlib inp = (.ended, plain)) (fits : plain.length ≤ j.outLen)
    (expect : j.expect = 0 ∨ j.expect = plain.length) :
    decompressJob (newStream j) j inp free free2 = ⟨0, inp.length, plain, plain, newStream j⟩ := by
  have right : ¬(j.expect ≠ 0 && plain.length ≠ j.expect) = true := by
    rcases expect with none | same
    · simp [none]
    · simp [same]
  unfold decompressJob newStream
  dsimp only
  simp only [List.nil_append, decoded, List.drop_zero]
  rw [if_neg (Nat.not_lt_of_le fits)]
  refine (if_neg (by simp)).trans ((if_neg (by decide)).trans ?_)
  exact congrArg (fun status => JobEnd.mk status inp.length plain plain _) (if_neg right)

end whole

/-! ## Verification (R444) -/

/-- Retirement of an engine without a job. -/
def engineRetired (s : State) (e : Nat) : State :=
  recomputeFloors (dmkSend (raise (retireUnit (fsetBit (fsetBit s RND_STATUS_IN_SERVICE e false) RND_STATUS_RETIRED e true)
    (.renderEngine e)) (0x380 + e)) 0x0380 0)

section retired

variable {s : State} {e : Nat}

theorem rget_engineRetired {k : Nat} (hk : UnitWord k) : rget (engineRetired s e) k =
    rget (fsetBit (fsetBit s RND_STATUS_IN_SERVICE e false) RND_STATUS_RETIRED e true) k := by
  unfold engineRetired
  rw [rget_recomputeFloors_unit hk, rget_dmkSend_unit hk, rget_raise_unit hk, rget_retireUnit_unit hk]

theorem engineRetired_unchanged : Unchanged (.tenants :: .pwr :: reportParts) s (engineRetired s e) := by
  unfold engineRetired
  rw [unchanged_step (recomputeFloors_unchanged _) (by decide), after_dmkSend _ _ (by decide), after_raise _ _ (by decide),
    unchanged_step (retireUnit_unchanged _ _) (by decide), after_fsetBit _ _ _ (by decide), after_fsetBit _ _ _ (by decide)]
  exact unchanged_refl _ s

theorem retireEngine_idle (idle : rndEngine s e = none) : retireEngine s e = engineRetired s e := by
  have same : rndEngine (engineRetired s e) e = none := (rnd_congr (engineRetired_unchanged .rnd (by decide)) e).trans idle
  refine (show retireEngine s e = (match rndEngine (engineRetired s e) e with
    | none => engineRetired s e
    | some it => requeue (clearEngine (engineRetired s e) e) e it) from rfl).trans ?_
  rw [same]

theorem isRetired_engineRetired : isRetired (engineRetired s e) (.renderEngine e) = true := by
  unfold engineRetired
  rw [isRetired_congr (recomputeFloors_unchanged _ .pwr (by decide)),
    isRetired_congr (((ReportFrame.refl _).after_dmkSend 0x0380 0).parts .pwr (by decide)),
    isRetired_congr (raise_unchanged _ _ _ .pwr (by decide)), isRetired_retireUnit, decide_eq_true rfl, Bool.true_or]

theorem fbit_engineRetired (low : e < 8) : fbit (engineRetired s e) RND_STATUS_IN_SERVICE e = false ∧
    fbit (engineRetired s e) RND_STATUS_RETIRED e = true := by
  have word : UnitWord 0x1100000 := unitWord_render (f := RND_STATUS_IN_SERVICE) (by decide)
  have same (f : Fld) (hf : f.off = 0x1100000) : fbit (engineRetired s e) f e =
      fbit (fsetBit (fsetBit s RND_STATUS_IN_SERVICE e false) RND_STATUS_RETIRED e true) f e :=
    fbit_congr _ (fget_congr (rget_engineRetired (hf ▸ word)))
  have beside : fbit (fsetBit (fsetBit s RND_STATUS_IN_SERVICE e false) RND_STATUS_RETIRED e true) RND_STATUS_IN_SERVICE e =
      fbit (fsetBit s RND_STATUS_IN_SERVICE e false) RND_STATUS_IN_SERVICE e := by
    refine fbit_congr _ (fget_fset_ne _ _ _ _ ?_ (.inr (.inr ?_)))
    · simp only [RND_STATUS_RETIRED]
      omega
    · simp only [RND_STATUS_RETIRED, RND_STATUS_IN_SERVICE]
      omega
  constructor
  · refine (same _ rfl).trans (beside.trans ?_)
    rw [fbit_fsetBit _ _ _ (by decide) low low, if_pos rfl]
  · refine (same _ rfl).trans ?_
    rw [fbit_fsetBit _ _ _ (by decide) low low, if_pos rfl]

theorem fget_engineRetired_mismatch : fget (engineRetired s e) RND_CNT0_MISMATCH = fget s RND_CNT0_MISMATCH := by
  refine (fget_congr (rget_engineRetired (unitWord_render (by decide)))).trans ?_
  have apart : RND_CNT0_MISMATCH.off ≠ RND_STATUS_RETIRED.off := by decide
  exact (fget_congr (rget_fsetBit _ _ _ _ apart)).trans (fget_congr (rget_fsetBit _ _ _ _ apart))

end retired

section mismatch

variable {s : State} {e : Nat} {it : RndItem}

/-- The first mismatch. -/
theorem exec_verifyMismatch_first (running : rndEngine s e = some it) (op : it.job.op = 1) (first : it.retried = false)
    (kat : Bool) : exec (.verifyMismatch e kat) s =
      .next (requeue (engineRetired (fbump (clearEngine s e) RND_CNT0_MISMATCH) e) e { it with retried := true }) := by
  have stream : (jobStream s it.job).compress = true := by
    rw [jobStream_new s (by omega), newStream]
    exact beq_iff_eq.mpr op
  have idle : rndEngine (fbump (clearEngine s e) RND_CNT0_MISMATCH) e = none := rndEngine_clearEngine_same s e
  refine (show _ = execVerifyMismatch e kat s from rfl).trans ?_
  unfold execVerifyMismatch
  rw [running]
  dsimp only
  rw [stream, first, retireEngine_idle idle]
  refine (if_neg ?_).trans (if_pos rfl)
  simp [op]

/-- The state in which the result of the second mismatch is sent. -/
def mismatchCounted (s : State) (e : Nat) (j : RenderJob) : State :=
  let s := fbump (clearEngine s e) RND_CNT0_MISMATCH
  let s := if j.ctx = 0 then s else setRndCtx s j.ctx none
  if granuleWrite j then fbump s RND_CNT0_STORED else s

theorem mismatchCounted_unchanged (j : RenderJob) : Unchanged [.regs, .rnd] s (mismatchCounted s e j) := by
  have cleared : Unchanged [.regs, .rnd] s (fbump (clearEngine s e) RND_CNT0_MISMATCH) :=
    (after_fbump _ _ (by decide)).mpr (unchanged_mono (clearEngine_unchanged s e) (by decide))
  have freed : Unchanged [.regs, .rnd] s (if j.ctx = 0 then fbump (clearEngine s e) RND_CNT0_MISMATCH
      else setRndCtx (fbump (clearEngine s e) RND_CNT0_MISMATCH) j.ctx none) :=
    unchanged_ite.mpr ⟨fun _ => cleared, fun _ => (unchanged_step (setRndCtx_unchanged _ _ _) (by decide)).mpr cleared⟩
  unfold mismatchCounted
  exact unchanged_ite.mpr ⟨fun _ => (after_fbump _ _ (by decide)).mpr freed, fun _ => freed⟩

/-- Of Render a second mismatch frees the engine and the context. -/
theorem mismatchCounted_rnd (j : RenderJob) : rndEngine (mismatchCounted s e j) e = none ∧
    (mismatchCounted s e j).rnd.queue = s.rnd.queue := by
  have idle := rndEngine_clearEngine_same s e
  unfold mismatchCounted
  dsimp only
  split <;> split <;> exact ⟨idle, rfl⟩

theorem fbit_mismatchCounted (j : RenderJob) :
    fbit (mismatchCounted s e j) RND_STATUS_IN_SERVICE e = fbit s RND_STATUS_IN_SERVICE e := by
  have counts (u : State) (f : Fld) (hf : f.off = 0x1100008) : fget (fbump u f) RND_STATUS_IN_SERVICE = fget u RND_STATUS_IN_SERVICE :=
    fget_fset_off _ _ _ _ (by rw [hf]; decide)
  have used (u : State) (x : Nat) : fget (fset u RND_STATUS_CTX_USED x) RND_STATUS_IN_SERVICE = fget u RND_STATUS_IN_SERVICE :=
    fget_fset_ne _ _ _ _ (by decide) (by decide)
  refine fbit_congr _ ?_
  unfold mismatchCounted setRndCtx
  dsimp only
  split <;> split <;> simp only [counts _ RND_CNT0_STORED rfl, counts _ RND_CNT0_MISMATCH rfl, used, fget_modRnd] <;> rfl

/-- The state in which the second mismatch is answered: the open values drawn. -/
def mismatchDrawn (s : State) (e : Nat) (j : RenderJob) : State :=
  (drawFree (drawFree (drawFree (mismatchCounted s e j)).2).2).2

/-- The second mismatch, the engine's known-answer test passing. -/
theorem exec_verifyMismatch_second (running : rndEngine s e = some it) (op : it.job.op = 1) (second : it.retried = true) :
    ∃ a b c, exec (.verifyMismatch e true) s =
      .next (dmkSend (raise (rndResult (mismatchDrawn s e it.job) it.job 0x10 e a b c true) 0x38B) 0x0381 0) := by
  have stream : (jobStream s it.job).compress = true := by
    rw [jobStream_new s (by omega), newStream]
    exact beq_iff_eq.mpr op
  refine ⟨(drawFree (mismatchCounted s e it.job)).1 % (it.job.inLen + 1),
    (drawFree (drawFree (mismatchCounted s e it.job)).2).1 % (it.job.outLen + 1),
    (drawFree (drawFree (drawFree (mismatchCounted s e it.job)).2).2).1, ?_⟩
  refine (show _ = execVerifyMismatch e true s from rfl).trans ?_
  unfold execVerifyMismatch
  rw [running]
  dsimp only
  rw [stream, second]
  refine (if_neg ?_).trans (if_neg (by decide))
  simp [op]

end mismatch

/-! ## The clauses -/

section clauses

variable {s : State} {e : Nat} {it : RndItem}

theorem render_frees (running : rndEngine s e = some it) (free : it.job.op = 4) :
    ∃ t, exec (.renderJobEnd e) s = .next t ∧ rndEngine t e = none ∧ rndCtx t it.job.ctx = none ∧
      (∀ n, n ≠ it.job.ctx → rndCtx t n = rndCtx s n) ∧ Unchanged [.regs, .rnd, .out] s t := by
  refine ⟨_, exec_renderJobEnd_free running free, rndEngine_clearEngine_same s e, (tget_tset _ _ _ _ _).trans (if_pos rfl),
    fun n hn => (tget_tset _ _ _ _ _).trans (if_neg hn), ?_⟩
  refine (after_emit _ (by decide)).mpr ?_
  exact (unchanged_step (setRndCtx_unchanged _ _ _) (by decide)).mpr (unchanged_mono (clearEngine_unchanged s e) (by decide))

/-- The job of an engine that compresses a whole stream. -/
theorem runJob_compresses (op : it.job.op = 1) : (runJob (clearEngine s e) it.job).1 = compressJob (newStream it.job) it.job
    (memRead s.trw.sram it.job.inAddr it.job.inLen) (drawFree (clearEngine s e)).1 := by
  have compresses : (newStream it.job).compress = true := beq_iff_eq.mpr op
  unfold runJob
  rw [jobStream_new _ (by omega)]
  exact if_pos compresses

theorem render_compresses {out : List Byte} (running : rndEngine s e = some it) (op : it.job.op = 1) (ctx : it.job.ctx = 0)
    (final : it.job.final = true) (hout : out = (Config.deflate ((memRead s.trw.sram it.job.inAddr it.job.inLen).map (·.toNat)) []
      it.job.depth it.job.zlib true).map (BitVec.ofNat 8)) :
    ∃ t w, exec (.renderJobEnd e) s = .next t ∧ rndEngine t e = none ∧ t.out = .message it.job.reply w :: s.out ∧
      (out.length ≤ it.job.outLen → memRead t.trw.sram it.job.outAddr out.length = out ∧
        (w.getD 0 0).toNat / 2 ^ 16 % 256 = 0 ∧ (w.getD 0 0).toNat / 2 ^ 32 = it.job.inLen % 2 ^ 32 ∧
        (w.getD 1 0).toNat % 2 ^ 32 = out.length % 2 ^ 32 ∧
        (w.getD 1 0).toNat / 2 ^ 32 = (crc32c (memRead s.trw.sram it.job.inAddr it.job.inLen)).toNat) ∧
      (it.job.outLen < out.length → memRead t.trw.sram it.job.outAddr it.job.outLen = out.take it.job.outLen ∧
        (w.getD 0 0).toNat / 2 ^ 16 % 256 = 1) ∧
      (∀ a, a < it.job.outAddr ∨ it.job.outAddr + min out.length it.job.outLen ≤ a → tget 0 t.trw.sram a = tget 0 s.trw.sram a) ∧
      t.rnd.ctxs = s.rnd.ctxs ∧ t.trw.dram = s.trw.dram ∧ Unchanged [.regs, .trw, .rnd, .out, .freeCtr] s t := by
  have notFree : it.job.op ≠ 4 := by omega
  have noRead (x : Bool) : (granuleRead it.job && x) = false := by simp [granuleRead, op]
  have result := runJob_compresses (s := s) (e := e) op
  obtain ⟨fit, full⟩ := compressJob_new it.job (memRead s.trw.sram it.job.inAddr it.job.inLen)
    (drawFree (clearEngine s e)).1 final hout
  rcases Nat.lt_or_ge it.job.outLen out.length with long | short
  · obtain ⟨n, p, c, done⟩ := full long
    obtain ⟨r, hr⟩ : ∃ r : JobEnd, r = ⟨1, n, out.take it.job.outLen, p, c⟩ := ⟨_, rfl⟩
    rw [done, ← hr] at result
    obtain ⟨w, idle, told, sram, dram, ctxs, status, -, -, -, frame⟩ :=
      finishJob_done (s := s) (e := e) ctx (congrArg JobEnd.status hr) (by decide : 1 < 256)
    have bytes : r.out = out.take it.job.outLen := congrArg JobEnd.out hr
    have cut : (out.take it.job.outLen).length = it.job.outLen := List.length_take_of_le long.le
    rw [bytes] at sram
    refine ⟨_, w, exec_renderJobEnd_done running notFree result (noRead _), idle, told, fun short => absurd long (not_lt.mpr short),
      fun _ => ⟨?_, status⟩, fun a outside => ?_, ctxs, dram, frame⟩
    · rw [sram]
      have read := memRead_memWrite (out.take it.job.outLen) s.trw.sram it.job.outAddr
      rw [cut] at read
      exact read
    · rw [sram]
      exact memWrite_outside _ _ _ _ (by rw [Nat.min_eq_right long.le] at outside; rw [cut]; exact outside)
  · obtain ⟨c, done⟩ := fit short
    obtain ⟨r, hr⟩ : ∃ r : JobEnd, r = ⟨0, (memRead s.trw.sram it.job.inAddr it.job.inLen).length, out,
        memRead s.trw.sram it.job.inAddr it.job.inLen, c⟩ := ⟨_, rfl⟩
    rw [done, ← hr] at result
    obtain ⟨w, idle, told, sram, dram, ctxs, status, consumed, produced, crc, frame⟩ :=
      finishJob_done (s := s) (e := e) ctx (congrArg JobEnd.status hr) (by decide : 0 < 256)
    have bytes : r.out = out := congrArg JobEnd.out hr
    rw [bytes] at sram
    rw [hr] at consumed produced crc
    refine ⟨_, w, exec_renderJobEnd_done running notFree result (noRead _), idle, told, fun _ => ⟨?_, status, ?_, produced, crc⟩,
      fun long => absurd long (not_lt.mpr short), fun a outside => ?_, ctxs, dram, frame⟩
    · rw [sram]
      exact memRead_memWrite _ _ _
    · rw [consumed, memRead_length]
    · rw [sram]
      exact memWrite_outside _ _ _ _ (by rw [Nat.min_eq_left short] at outside; exact outside)

theorem render_decompresses {plain : List Byte} (running : rndEngine s e = some it) (op : it.job.op = 2) (ctx : it.job.ctx = 0)
    (decoded : inflate it.job.zlib (memRead s.trw.sram it.job.inAddr it.job.inLen) = (.ended, plain))
    (fits : plain.length ≤ it.job.outLen) (expect : it.job.expect = 0 ∨ it.job.expect = plain.length) :
    ∃ t w, exec (.renderJobEnd e) s = .next t ∧ rndEngine t e = none ∧ t.out = .message it.job.reply w :: s.out ∧
      memRead t.trw.sram it.job.outAddr plain.length = plain ∧ (w.getD 0 0).toNat / 2 ^ 16 % 256 = 0 ∧
      (w.getD 1 0).toNat % 2 ^ 32 = plain.length % 2 ^ 32 ∧ (w.getD 1 0).toNat / 2 ^ 32 = (crc32c plain).toNat ∧
      Unchanged [.regs, .trw, .rnd, .out, .freeCtr] s t := by
  have notFree : it.job.op ≠ 4 := by omega
  have decompresses : ¬(newStream it.job).compress = true := by
    rw [newStream]
    simp [op]
  obtain ⟨r, hr⟩ : ∃ r : JobEnd, r = ⟨0, (memRead s.trw.sram it.job.inAddr it.job.inLen).length, plain, plain,
      newStream it.job⟩ := ⟨_, rfl⟩
  have result : (runJob (clearEngine s e) it.job).1 = r := by
    unfold runJob
    rw [jobStream_new _ (by omega), hr]
    exact (if_neg decompresses).trans (decompressJob_new _ _ _ _ decoded fits expect)
  have kept : (granuleRead it.job && (r.status == 0x11 || r.status == 0x12)) = false := by
    rw [hr]
    exact Bool.and_false _
  obtain ⟨w, idle, told, sram, -, -, status, -, produced, crc, frame⟩ :=
    finishJob_done (s := s) (e := e) ctx (congrArg JobEnd.status hr) (by decide : 0 < 256)
  have bytes : r.out = plain := congrArg JobEnd.out hr
  rw [bytes] at sram
  rw [hr] at produced crc
  refine ⟨_, w, exec_renderJobEnd_done running notFree result kept, idle, told, ?_, status, produced, crc, frame⟩
  rw [sram]
  exact memRead_memWrite _ _ _

theorem render_mismatches (low : e < 8) (running : rndEngine s e = some it) (op : it.job.op = 1) (first : it.retried = false)
    (kat : Bool) : ∃ t rest, exec (.verifyMismatch e kat) s = .next t ∧ rndEngine t e = none ∧
      t.rnd.queue = { it with retried := true, skip := some e } :: rest ∧ rest = s.rnd.queue ∧
      fbit t RND_STATUS_IN_SERVICE e = false ∧ fbit t RND_STATUS_RETIRED e = true ∧
      fget t RND_CNT0_MISMATCH = min (fget s RND_CNT0_MISMATCH + 1) 65535 := by
  have run := exec_verifyMismatch_first running op first kat
  have idle := rndEngine_clearEngine_same s e
  have queue : (clearEngine s e).rnd.queue = s.rnd.queue := rfl
  have counter : fget (clearEngine s e) RND_CNT0_MISMATCH = fget s RND_CNT0_MISMATCH := fget_modRnd s _ _
  generalize clearEngine s e = c at *
  obtain ⟨inService, retired⟩ := fbit_engineRetired (s := fbump c RND_CNT0_MISMATCH) low
  have count := (fget_engineRetired_mismatch (s := fbump c RND_CNT0_MISMATCH) (e := e)).trans (fget_fbump _ _ (by decide))
  have rnd : (engineRetired (fbump c RND_CNT0_MISMATCH) e).rnd = c.rnd := engineRetired_unchanged .rnd (by decide)
  generalize engineRetired (fbump c RND_CNT0_MISMATCH) e = g at *
  refine ⟨_, s.rnd.queue, run, (rnd_congr rnd e).trans idle, ?_, rfl, inService, retired, ?_⟩
  · rw [requeue, modRnd, rnd, queue]
  · rw [← counter]
    exact count

theorem render_verifyFails (running : rndEngine s e = some it) (op : it.job.op = 1) (second : it.retried = true) :
    ∃ t w, exec (.verifyMismatch e true) s = .next t ∧ rndEngine t e = none ∧ .message it.job.reply w ∈ t.out ∧
      (w.getD 0 0).toNat / 2 ^ 16 % 256 = 0x10 ∧ t.rnd.queue = s.rnd.queue ∧
      fbit t RND_STATUS_IN_SERVICE e = fbit s RND_STATUS_IN_SERVICE e := by
  obtain ⟨a, b, c, run⟩ := exec_verifyMismatch_second running op second
  obtain ⟨idle, queue⟩ := mismatchCounted_rnd (s := s) (e := e) it.job
  have drawn : Unchanged [.freeCtr] (mismatchCounted s e it.job) (mismatchDrawn s e it.job) := by
    unfold mismatchDrawn
    rw [after_drawFree (by decide), after_drawFree (by decide), after_drawFree (by decide)]
    exact unchanged_refl _ _
  have shown : fget (mismatchDrawn s e it.job) RND_STATUS_IN_SERVICE = fget (mismatchCounted s e it.job) RND_STATUS_IN_SERVICE :=
    fget_congr (rget_congr (drawn .regs (by decide)) _)
  have inService := (fbit_congr e shown).trans (fbit_mismatchCounted (s := s) (e := e) it.job)
  have rnd : (mismatchDrawn s e it.job).rnd = (mismatchCounted s e it.job).rnd := drawn .rnd (by decide)
  generalize mismatchDrawn s e it.job = d at *
  generalize mismatchCounted s e it.job = m at *
  obtain ⟨w, told⟩ : ∃ w, rndResult d it.job 0x10 e a b c true = emit d (.message it.job.reply w) ∧
      (w.getD 0 0).toNat / 2 ^ 16 % 256 = 0x10 := by
    refine ⟨_, rfl, (result_words it.job.tag 0x10 e a b c ?_).1⟩
    rfl
  obtain ⟨told, status⟩ := told
  rw [told] at run
  have frame : Unchanged reportParts d (dmkSend (raise (emit d (.message it.job.reply w)) 0x38B) 0x0381 0) := by
    rw [after_dmkSend _ _ (by decide), after_raise _ _ (by decide), after_emit _ (by decide)]
    exact unchanged_refl _ d
  have rnd' := (frame .rnd (by decide)).trans rnd
  refine ⟨_, w, run, (rnd_congr rnd' e).trans idle, ?_, status, ?_, ?_⟩
  · exact (((OutGrows.refl (emit d (.message it.job.reply w))).after_raise _ _).after_dmkSend _ _).kept List.mem_cons_self
  · exact (congrArg Render.queue rnd').trans queue
  · have word : UnitWord RND_STATUS_IN_SERVICE.off := unitWord_render (by decide)
    exact (fbit_congr _ (fget_congr ((rget_dmkSend_unit word _ _ _).trans (rget_raise_unit word _ _ _)))).trans inService

theorem render_katFails (serves : rndServes s e = true) (idle : rndEngine s e = none) :
    ∃ t, exec (.renderKatTick e false) s = .next t ∧ fbit t RND_STATUS_IN_SERVICE e = false ∧
      fbit t RND_STATUS_RETIRED e = true ∧ isRetired t (.renderEngine e) = true ∧ t.rnd = s.rnd := by
  have low : e < 8 := by
    simp only [rndServes, Bool.and_eq_true, decide_eq_true_eq] at serves
    exact serves.1
  have run : exec (.renderKatTick e false) s = .next (engineRetired s e) := by
    refine (show _ = execRenderKatTick e false s from rfl).trans ((if_pos ?_).trans (congrArg _ (retireEngine_idle idle)))
    rw [serves, idle]
    rfl
  exact ⟨_, run, (fbit_engineRetired low).1, (fbit_engineRetired low).2, isRetired_engineRetired,
    engineRetired_unchanged .rnd (by decide)⟩

theorem render_dispatches {rest : List RndItem} (head : s.rnd.queue = it :: rest) (picked : rndPick s it.skip = some e)
    (pass : jobCheck s it.job = 0) : ∃ t, exec .renderDispatch s = .next t ∧ t.rnd.queue = rest ∧ rndEngine t e = some it ∧
      (∀ k, k ≠ e → rndEngine t k = rndEngine s k) ∧ t.rnd.ctxs = s.rnd.ctxs ∧ Unchanged [.rnd] s t := by
  have run := execRenderDispatch_picked head picked
  rw [if_neg (not_not.mpr pass)] at run
  refine ⟨_, run, rfl, (tget_tset _ _ _ _ _).trans (if_pos rfl), fun k hk => (tget_tset _ _ _ _ _).trans (if_neg hk), rfl, ?_⟩
  exact (after_modRnd _ (by decide)).mpr (modRnd_unchanged s _)

end clauses

/-- Settles O51: arrival, dispatch, the ends of jobs, verification and known-answer tests. -/
theorem renderJobs : Obligations.RenderJobs := by
  unfold Obligations.RenderJobs
  refine ⟨fun s j i op room listed => ⟨_, render_arrives j room listed, rfl, modRnd_unchanged s _⟩,
    fun s it rest e head picked => ⟨render_dispatches head picked, render_refuses head picked⟩,
    fun s e it running free => render_frees running free,
    fun s e it out running op ctx final hout => render_compresses running op ctx final hout,
    fun s e it plain running op ctx decoded fits expect => render_decompresses running op ctx decoded fits expect,
    fun s e it kat low running op => ⟨fun first => render_mismatches low running op first kat, fun second good => ?_⟩,
    fun s e serves idle => ⟨?_, render_katFails serves idle⟩⟩
  · subst good
    exact render_verifyFails running op second
  · exact (show _ = execRenderKatTick e true s from rfl).trans (if_neg (by simp))

end Sys2Proof.Laws
end

section
/-!
PROOFS. The statement of 15_render_and_hod.md on Hod's transfers (R450 to R459).
-/

namespace Sys2Proof.Laws

open Sys2Proof.Machine

/-- Channel 1 runs a transfer of a flow, channel 15 is idle and in service, and a waiting transfer brings a LOADED set of 33
words instead of eight: the model's state does not bound the set, and its last word lands on HOD_STATUS. -/
def overlongWaiting : State :=
  { rset State.reset (PWR_PD_ON_ON.ix 1 4).off 0x10000 with
    hod := { chans := tset {} [] 1 { running := true }, waiting := [([], some (List.replicate 33 0), none)] } }

/-- Is channel 1 shown RETIRED after a command? -/
def showsRetired : Host.Outcome State Fault Refusal → Bool
  | .next t => fbit t HOD_STATUS_RETIRED 1
  | _ => true

theorem overlongWaiting_hidesRetirement : showsRetired (exec (.hodChannelRetire 1) overlongWaiting) = false := by decide +kernel

/-- Refutes O52: the start of a waiting transfer on a free channel stores every word of its LOADED set, and in a state where
that set has more than eight words they overwrite HOD_STATUS, so that the retired channel is not shown RETIRED. -/
theorem not_hodTransfers : ¬ Obligations.HodTransfers := by
  unfold Obligations.HodTransfers
  rintro ⟨-, -, -, -, -, -, retire⟩
  obtain ⟨t, run, shown, -⟩ := retire overlongWaiting 1 (by decide) (by decide)
  have hidden := overlongWaiting_hidesRetirement
  rw [run] at hidden
  exact absurd (shown.symm.trans hidden) (by decide)

end Sys2Proof.Laws
end

section
/-!
PROOFS. The statement of 13_servo_and_actuators.md on wedges, inhibits and the comparator (R382 to R388).
-/

namespace Sys2Proof.Laws

open Sys2Proof.Machine

/-- Actuator 0 follows its track and writes, and SRV_ONN.ON_N is 0: no wedge within the threshold is asked for before
ON_TRACK. -/
def writingWithoutOnCount : State :=
  modRdc (fset (fset State.reset (srvF SRV_ACT_STATE 0) 7) (srvF SRV_ONN_ON_N 0) 0) 0 fun r =>
    { r with run := some { write := true, band := 0, frag := 0, first := 0, count := 0, slot0 := 0 }, gate := true }

/-- ON_TRACK of actuator 0 after a command. -/
def onTrackShown : Host.Outcome State Fault Refusal → Nat
  | .next t => fget t (srvF SRV_ACT_ON_TRACK 0)
  | _ => 0

theorem writingWithoutOnCount_onTrack : onTrackShown (exec (.servoWedge 0 []) writingWithoutOnCount) = 1 := by
  decide +kernel

/-- Refutes O47: a wedge without a valid lane drops the gate and clears ON_TRACK, but with SRV_ONN.ON_N = 0 the same wedge
finds the count of 0 wedges within the threshold reached and sets ON_TRACK again. -/
theorem not_servoTracking : ¬ Obligations.ServoTracking := by
  unfold Obligations.ServoTracking
  rintro ⟨wedge, -⟩
  obtain ⟨t, run, -, -, -, -, -, -, dropped⟩ := wedge writingWithoutOnCount 0 [] (by decide) (by decide) (by decide)
  obtain ⟨-, -, offTrack⟩ := dropped _ (by decide) (by decide) rfl rfl rfl (by decide)
  have shown := writingWithoutOnCount_onTrack
  rw [run] at shown
  exact absurd (offTrack.symm.trans shown) (by decide)

end Sys2Proof.Laws
end

section
/-!
PROOFS. The statement of 14_spindle_drive.md on crossings, periods and driver faults (R415 to R435).
-/

namespace Sys2Proof.Laws

open Sys2Proof.Machine

/-- Spindle 0 aligns, its last driver fault lies 600 s back to the nanosecond, and the present nanosecond has issued its 16
timestamps: the record of a fault takes its timestamp from the next nanosecond (R22). -/
def secondFaultAtLimit : State :=
  modSpn (fset { State.reset with
    phase := .serving
    tb := { State.reset.tb with ns := 600000000000, stampNs := 600000000000, stamps := 16 } } (spnF SPN_STATE_STATE 0) 3) 0
    fun p => { p with drvNs := [0] }

/-- Is HDA 0 retired after a command? -/
def retiresHda : Host.Outcome State Fault Refusal → Bool
  | .next t => isRetired t (.hda 0)
  | _ => true

theorem secondFaultAtLimit_keeps : retiresHda (exec (.spindleDriverFault 0) secondFaultAtLimit) = false := by decide +kernel

/-- Refutes O50: the fault is recorded before its distance from the last one is taken, and the record may advance the
timebase by 1 ns, so that a second fault 600 s after the first does not retire the HDA. -/
theorem not_spindleDriveAndFaults : ¬ Obligations.SpindleDriveAndFaults := by
  unfold Obligations.SpindleDriveAndFaults
  rintro ⟨-, -, -, -, -, fault, -⟩
  obtain ⟨t, run, -, -, -, -, second⟩ := fault secondFaultAtLimit 0 (by decide) (.inl (by decide))
  have retired := second 0 (List.mem_singleton.mpr rfl) (by decide)
  have kept := secondFaultAtLimit_keeps
  rw [run] at kept
  exact absurd (retired.symm.trans kept) (by decide)

end Sys2Proof.Laws
end

section
/-!
PROOFS. The statement of 19_ballast.md on the trigger and what it stops (R518 to R534).
-/

namespace Sys2Proof.Laws

open Sys2Proof.Machine

/-! ## A fold over a list whose steps change nothing -/

theorem foldl_idle {α β : Type} {f : β → α → β} {b : β} {l : List α} (idle : ∀ x ∈ l, f b x = b) : l.foldl f b = b := by
  induction l with
  | nil => rfl
  | cons x l ih =>
    rw [List.foldl_cons, idle x List.mem_cons_self]
    exact ih fun y hy => idle y (List.mem_cons_of_mem x hy)

/-! ## The transfer that waits in Hod -/

/-- A set of 1,179,649 words: stored from HOD_SRC of channel 0 upwards, the last one lands on BLS_STATUS. -/
@[irreducible] def overlongSet : List Word := List.replicate 1179648 0 ++ [0]

/-- Hod with a paused transfer from HOST on channel 0 and a waiting one whose LOADED set is overlong. -/
def overlongHod : Hod :=
  { chans := tset {} [] 0 { running := true, act := { cfg0 := 2 } }, waiting := [([], some overlongSet, none)] }

/-- A device in service whose other units rest: only Hod's channel 0 is powered. -/
def servingOverlong : State :=
  { fset (rset State.reset (PWR_PD_ON_ON.ix 1 4).off 2) (hodF HOD_STAT_PAUSED 0) 1 with
    phase := .serving
    hod := overlongHod }

/-! ## What is left of Hod's waiting transfers -/

theorem hod_fset (s : State) (f : Fld) (x : Nat) : (fset s f x).hod = s.hod := rfl

theorem hodSettle_waiting (s : State) (c : Nat) : (hodSettle s c).hod.waiting = s.hod.waiting := by
  unfold hodSettle
  split <;> rfl

theorem hodDiscard_waiting (s : State) (c : Nat) : (hodDiscard s c).hod.waiting = s.hod.waiting := by
  unfold hodDiscard
  split <;> rfl

/-- The status word and the record of a transfer that ended. -/
def hodShown (s : State) (c last : Nat) : State :=
  fset (modHod (fset (fset s (hodF HOD_STAT_LAST c) last) (hodF HOD_STAT_TAG c) (getHod s c).act.tag) c
    fun h => { h with running := false }) (hodF HOD_STAT_STATE c) 0

/-- The control PF or the flow is told. -/
def hodNotified (s : State) (c last : Nat) (a : HodAct) : State :=
  if hodClaimed s c then (if a.notify then msixSend s (ctlFid s) (fget s HOD_OWN_VECTOR) else s)
  else emit s (.mediaDone (0x390 + c) a.tag last)

/-- A transfer that has ended and been told of, before what becomes of the shadow. -/
def hodEnded (s : State) (c last : Nat) : State :=
  hodNotified (if fget s (hodF HOD_STAT_STATE c) == 2 then fset (hodShown s c last) (hodF HOD_STAT_PAUSED c) 1
    else hodShown s c last) c last (getHod s c).act

theorem hodEnd_eq (s : State) (c last : Nat) : hodEnd s c last =
    if last ≠ 1 then hodTake (hodSettle (hodDiscard (hodEnded s c last) c) c) c
    else if fget (hodEnded s c last) (hodF HOD_STAT_LOADED c) = 1 && fget (hodEnded s c last) (hodF HOD_STAT_PAUSED c) == 0 then
      hodStart (fset (hodEnded s c last) (hodF HOD_STAT_LOADED c) 0) c (hodShadow (hodEnded s c last) c)
    else if fget (hodEnded s c last) (hodF HOD_STAT_LOADED c) = 1 then hodEnded s c last
    else hodTake (hodSettle (hodEnded s c last) c) c := rfl

theorem hodEnded_waiting (s : State) (c last : Nat) : (hodEnded s c last).hod.waiting = s.hod.waiting := by
  have told (t : State) (a : HodAct) : (hodNotified t c last a).hod = t.hod := by
    unfold hodNotified
    split
    · split
      · exact msixSend_unchanged _ _ _ .hod (by decide)
      · rfl
    · rfl
  rw [hodEnded, told]
  split <;> rfl

/-- A transfer that waited starts, and its LOADED set is stored word after word. -/
theorem hodTake_stores {s : State} {c : Nat} {ws l : List Word} {flow : Option (Nat × Nat)}
    {rest : List (List Word × Option (List Word) × Option (Nat × Nat))}
    (may : (hodServes s c && hodFree s c && !hodClaimed s c && fget s (hodF HOD_STAT_PAUSED c) == 0) = true)
    (waiting : s.hod.waiting = (ws, some l, flow) :: rest) : hodTake s c = fset (l.zipIdx.foldl
      (fun s x => rset s (0x1180000 + 0x80 * c + 4 * x.2) x.1)
      (hodStart (modHod { s with hod := { s.hod with waiting := rest } } c fun h => { h with flow := flow }) c ws))
      (hodF HOD_STAT_LOADED c) 1 := by
  unfold hodTake
  rw [if_pos may, waiting]

theorem storedSet_unchanged (s : State) (base : Nat) (l : List Word) :
    Unchanged [.regs] s (l.zipIdx.foldl (fun s x => rset s (base + 4 * x.2) x.1) s) :=
  unchanged_foldl (fun _ _ => rset_unchanged _ _ _) _ _

/-- The start of a waiting transfer touches the record of its own channel only. -/
theorem started_hod (s : State) (c : Nat) (ws : List Word) (flow : Option (Nat × Nat)) (h : Hod) (same : h.chans = s.hod.chans) :
    Unchanged [.regs, .hod] s (hodStart (modHod { s with hod := h } c fun x => { x with flow := flow }) c ws) ∧
      ∀ k, k ≠ c → getHod (hodStart (modHod { s with hod := h } c fun x => { x with flow := flow }) c ws) k = getHod s k := by
  have chan (t : State) (g : HodChan → HodChan) (k : Nat) (other : k ≠ c) : getHod (modHod t c g) k = getHod t k :=
    (tget_tmod _ _ _ _ _).trans (if_neg other)
  refine ⟨fun part hpart => ?_, fun k other => ?_⟩
  · cases part with
    | regs | hod => exact absurd (by decide) hpart
    | _ => rfl
  · refine (chan _ _ k other).trans ((chan _ _ k other).trans ?_)
    exact congrArg (tget {} · k) same

/-- The last word of a stored set. -/
theorem rget_stored_last (s : State) (base : Nat) (l : List Word) (x : Word) :
    rget ((l ++ [x]).zipIdx.foldl (fun s x => rset s (base + 4 * x.2) x.1) s) (base + 4 * l.length) = x := by
  rw [List.zipIdx_append, List.foldl_append, List.zipIdx_singleton, List.foldl_cons, List.foldl_nil, rget_rset,
    if_pos (by simp)]

/-- The words below a stored set. -/
theorem rget_stored_below (s : State) {base k : Nat} (l : List Word) (below : k < base) :
    rget (l.zipIdx.foldl (fun s x => rset s (base + 4 * x.2) x.1) s) k = rget s k :=
  rget_foldl _ _ fun b x _ => by rw [rget_rset, if_neg (by omega)]

/-! ## The trigger in that state -/

/-- The trigger with no warm stop under way. -/
def overlongTriggered : State :=
  { servingOverlong with rst := { servingOverlong.rst with
    warmLatched := servingOverlong.rst.warm.orElse fun _ => servingOverlong.rst.warmLatched, warm := none } }

/-- BALLAST is shown and reported. -/
def overlongReported : State :=
  let s := setPhase overlongTriggered .ballast 0xB10
  let s := fset (fset (fset s BLS_STATUS_CAUSE 1) BLS_STATUS_ACTIVE 1) BLS_STATUS_FLUSH_DONE 0
  dmkSend (raise s 0xB10 1) 0x0B80 1

/-- The state in which Hod is fenced. -/
def overlongBeforeHod : State := diskFence (flashFence overlongReported)

/-- The state in which the overlong set is stored. -/
def overlongFreed : State :=
  hodSettle (hodDiscard (hodEnded (fset overlongBeforeHod (hodF HOD_STAT_PAUSED 0) 0) 0 2) 0) 0

/-- No path of the trigger looks at what waits before channel 0 is free, so these are runs of the model on small data. -/
theorem overlongFreed_may : (hodServes overlongFreed 0 && hodFree overlongFreed 0 && !hodClaimed overlongFreed 0 &&
    fget overlongFreed (hodF HOD_STAT_PAUSED 0) == 0) = true := by decide +kernel

theorem overlongBeforeHod_paused : ((getHod overlongBeforeHod 0).running && (getHod overlongBeforeHod 0).act.outside &&
    fget overlongBeforeHod (hodF HOD_STAT_PAUSED 0) == 1) = true := by decide +kernel

theorem overlongFreed_rests : (∀ a < 32, srvState overlongFreed a = 0) ∧ (∀ h < 16, spnState overlongFreed h = 0) ∧
    overlongFreed.trw.install.isNone = true ∧ overlongFreed.cmds.isEmpty = true := by decide +kernel

theorem overlongFreed_idle : ∀ k < 16, k ≠ 0 → (getHod overlongFreed k).running = false := by decide +kernel

theorem overlong_noDisks : ∀ a < 32, rdcServes (flashFence overlongReported) a = false := by decide +kernel

/-- A fence of read channels of which none is in service. -/
theorem diskFence_idle {s : State} (idle : ∀ a < 32, rdcServes s a = false) : diskFence s = fset s RDC_STATUS_FENCED 1 :=
  congrArg (fset · RDC_STATUS_FENCED 1)
    (foldl_idle fun a ha => if_pos (by rw [idle a (List.mem_range.mp ha)]; rfl))

theorem overlongReported_hod : overlongReported.hod = overlongHod := by
  have frame : Unchanged reportParts overlongTriggered overlongReported := by
    unfold overlongReported
    extract_lets s u
    rw [after_dmkSend _ _ (by decide), after_raise _ _ (by decide), after_fset _ _ (by decide), after_fset _ _ (by decide),
      after_fset _ _ (by decide)]
    exact unchanged_mono (setPhase_unchanged _ _ _ _) (by decide)
  have part : overlongReported.hod = overlongTriggered.hod := frame .hod (by decide)
  rw [part]
  unfold overlongTriggered servingOverlong
  rfl

theorem overlongBeforeHod_hod : overlongBeforeHod.hod = overlongHod := by
  unfold overlongBeforeHod
  rw [diskFence_idle overlong_noDisks]
  have fenced : Unchanged [.regs, .flc] overlongReported (flashFence overlongReported) :=
    unchanged_trans (unchanged_mono (fset_unchanged _ _ _) (by decide)) (unchanged_foldl fenceChan_unchanged _ _)
  have part : (flashFence overlongReported).hod = overlongReported.hod := fenced .hod (by decide)
  rw [hod_fset, part, overlongReported_hod]

theorem overlongFreed_waiting : overlongFreed.hod.waiting = [([], some overlongSet, none)] := by
  unfold overlongFreed
  rw [hodSettle_waiting, hodDiscard_waiting, hodEnded_waiting]
  rw [hod_fset, overlongBeforeHod_hod]
  unfold overlongHod
  rfl

/-- Hod's fence ends the paused transfer, and the waiting one starts. -/
theorem hodFence_overlong : hodFence overlongBeforeHod = hodTake overlongFreed 0 := by
  have paused := overlongBeforeHod_paused
  rw [Bool.and_eq_true, Bool.and_eq_true, beq_iff_eq] at paused
  obtain ⟨⟨running, outside⟩, paused⟩ := paused
  have first : hodAbort overlongBeforeHod 0 = hodTake overlongFreed 0 :=
    (if_neg (by rw [running]; decide)).trans ((if_pos paused).trans ((hodEnd_eq _ 0 2).trans (if_pos (by decide))))
  have others : ∀ k ∈ (List.range 15).map (· + 1), (getHod (hodTake overlongFreed 0) k).running = false := by
    intro k hk
    obtain ⟨j, hj, rfl⟩ := List.mem_map.mp hk
    have apart : getHod (hodTake overlongFreed 0) (j + 1) = getHod overlongFreed (j + 1) := by
      rw [hodTake_stores overlongFreed_may overlongFreed_waiting]
      generalize overlongFreed = s
      have set := storedSet_unchanged (hodStart (modHod { s with hod := { s.hod with waiting := [] } } 0
        fun h => { h with flow := none }) 0 []) (0x1180000 + 0x80 * 0) overlongSet .hod (by decide)
      rw [getHod, hod_fset, set]
      exact (started_hod s 0 [] none _ rfl).2 _ (Nat.succ_ne_zero j)
    rw [apart]
    exact overlongFreed_idle _ (by have := List.mem_range.mp hj; omega) (by omega)
  have start : hodFence overlongBeforeHod = ((List.range 15).map (· + 1)).foldl (fun s c =>
      if (getHod s c).running && (getHod s c).act.outside then hodAbort s c else s) (hodTake overlongFreed 0) := by
    have all : List.range 16 = 0 :: (List.range 15).map (· + 1) := by decide
    unfold hodFence hodAbortWhere
    rw [all, List.foldl_cons, if_pos (by rw [running, outside]; rfl), first]
  rw [start]
  exact foldl_idle fun k hk => if_neg (by rw [others k hk]; exact Bool.false_ne_true)

/-- The last word of the set has taken the place of BLS_STATUS. -/
theorem hodTake_overlong_bls : rget (hodTake overlongFreed 0) BLS_STATUS_ACTIVE.off = 0 := by
  rw [hodTake_stores overlongFreed_may overlongFreed_waiting, rget_fset _ _ _ _ (by decide)]
  generalize overlongFreed = s
  unfold overlongSet
  have last := rget_stored_last (hodStart (modHod { s with hod := { s.hod with waiting := [] } } 0
    fun h => { h with flow := none }) 0 []) (0x1180000 + 0x80 * 0) (List.replicate 1179648 0) 0
  have address : BLS_STATUS_ACTIVE.off = 0x1180000 + 0x80 * 0 + 4 * 1179648 := by decide
  rw [List.length_replicate, ← address] at last
  exact last

theorem hodTake_overlong_below {k : Nat} (below : k < 0x1180000) :
    rget (hodTake overlongFreed 0) k = rget overlongFreed k := by
  rw [hodTake_stores overlongFreed_may overlongFreed_waiting, rget_fset _ _ _ _ (by simp only [hodF, Fld.ix, HOD_STAT_LOADED]; omega),
    rget_stored_below _ _ below]
  generalize overlongFreed = s
  unfold hodStart
  rw [rget_fset _ _ _ _ (by simp only [hodF, Fld.ix, HOD_STAT_STATE]; omega)]
  rfl

theorem hodTake_overlong_unchanged : Unchanged [.regs, .hod] overlongFreed (hodTake overlongFreed 0) := by
  rw [hodTake_stores overlongFreed_may overlongFreed_waiting, after_fset _ _ (by decide)]
  generalize overlongFreed = s
  exact unchanged_trans (started_hod s 0 [] none { s.hod with waiting := [] } rfl).1
    (unchanged_mono (few := [.regs]) (storedSet_unchanged _ _ _) (by decide))

/-! ## The rest of the trigger -/

theorem rget_bypUpdate (s : State) {k : Nat} (hk : k ∉ [OZP_STATUS_BYP_HOLD.off, (ozStateF 0).off, (ozStateF 1).off]) :
    rget (bypUpdate s) k = rget s k := by
  simp only [List.mem_cons, List.not_mem_nil, or_false, not_or] at hk
  obtain ⟨hold, east, west⟩ := hk
  unfold bypUpdate
  extract_lets up s'
  have shown : rget s' k = rget s k := rget_fset _ _ _ _ hold
  split
  all_goals
    refine (rget_foldl _ _ fun b p hp => ?_).trans shown
    have port : p = 0 ∨ p = 1 := by simpa using hp
    split
    · rcases port with rfl | rfl
      · exact rget_fset _ _ _ _ east
      · exact rget_fset _ _ _ _ west
    · rfl

/-- With nothing running the rest of the trigger changes no register but the bypass's and Ozper's. -/
theorem ballastRest_keeps {s : State} (install : s.trw.install.isNone = true) (cmds : s.cmds = [])
    (parked : ∀ a < 32, srvState s a = 0) (standing : ∀ h < 16, spnState s h = 0) {k : Nat}
    (hk : k ∉ [OZP_STATUS_BYP_HOLD.off, (ozStateF 0).off, (ozStateF 1).off]) :
    rget (startDump (settleStop (unloadAll ((List.range 16).foldl ballastRequest (bypUpdate (abandonInstall s))))) 1 1) k =
      rget s k := by
  have kept : abandonInstall s = s := if_pos install
  have frame := bypUpdate_unchanged s
  have byp {j : Nat} (hj : j < 0x1300000) : rget (bypUpdate s) j = rget s j :=
    rget_bypUpdate s (by simp only [List.mem_cons, List.not_mem_nil, or_false, ozStateF, OZP_STATUS_BYP_HOLD, OZP_PORT0_STATE]; omega)
  have spindles : (List.range 16).foldl ballastRequest (bypUpdate s) = bypUpdate s := foldl_idle fun h hh => by
    have low := List.mem_range.mp hh
    have state : spnState (bypUpdate s) h = 0 :=
      (fget_congr (byp (by simp only [Fld.ix, SPN_STATE_STATE]; omega))).trans (standing h low)
    unfold ballastRequest
    rw [state]
    rfl
  have arms : unloadAll (bypUpdate s) = bypUpdate s := foldl_idle fun a ha => by
    have low := List.mem_range.mp ha
    have state : srvState (bypUpdate s) a = 0 :=
      (fget_congr (byp (by simp only [srvF, Fld.ix, SRV_ACT_STATE]; omega))).trans (parked a low)
    unfold unloadReq
    rw [state]
    rfl
  have settled : settleStop (bypUpdate s) = freezeAll (bypUpdate s) := by
    unfold settleStop
    rw [show (bypUpdate s).cmds = [] from (frame .cmds (by decide)).trans cmds]
    rfl
  rw [kept, spindles, arms, settled]
  exact rget_bypUpdate s hk

/-- The trigger as its parts. -/
theorem exec_ballastTrigger_overlong : exec .ballastTrigger servingOverlong = .next (startDump (settleStop (unloadAll
    ((List.range 16).foldl ballastRequest (bypUpdate (abandonInstall (hodFence overlongBeforeHod)))))) 1 1) := rfl

/-- Refutes O55: a transfer that waits for a channel of Hod and has a LOADED set of 1,179,649 words starts as the trigger's
fence ends another one, and the words stored from HOD_SRC upwards overwrite BLS_STATUS: ACTIVE is 0 in BALLAST. The state
does not bound the words of a waiting set. -/
theorem not_ballastStops : ¬ Obligations.BallastStops := by
  unfold Obligations.BallastStops
  rintro ⟨-, -, serving, -⟩
  obtain ⟨t, run, -, active, -⟩ := serving servingOverlong (.inl rfl)
  obtain ⟨parked, standing, install, cmds⟩ := overlongFreed_rests
  have frame := hodTake_overlong_unchanged
  have rests := ballastRest_keeps (s := hodTake overlongFreed 0) (k := BLS_STATUS_ACTIVE.off)
    ((congrArg (fun w : Trowel => w.install.isNone) (frame .trw (by decide))).trans install)
    ((frame .cmds (by decide)).trans (List.isEmpty_iff.mp cmds))
    (fun a ha => (fget_congr (hodTake_overlong_below (by simp only [srvF, Fld.ix, SRV_ACT_STATE]; omega))).trans (parked a ha))
    (fun h hh => (fget_congr (hodTake_overlong_below (by simp only [Fld.ix, SPN_STATE_STATE]; omega))).trans (standing h hh))
    (by decide)
  rw [exec_ballastTrigger_overlong, hodFence_overlong] at run
  obtain rfl := Host.Outcome.next.inj run
  rw [hodTake_overlong_bls] at rests
  rw [fget, rests] at active
  exact absurd active (by decide)

end Sys2Proof.Laws
end

section
/-!
PROOFS. The statement of 16_ozper_ring.md on the links (R465 to R469, R472, R478), with the rules of a port's record, its
status word and its frames.
-/

namespace Sys2Proof.Laws

open Sys2Proof.Machine

/-! ## A port's record -/

section record

variable (s : State) (p : Nat)

theorem modOzp_unchanged (f : Ozper → Ozper) : Unchanged [.ozp] s (modOzp s f) := setOzp_unchanged s _

theorem modOz_unchanged (f : OzPort → OzPort) : Unchanged [.ozp] s (modOz s p f) := setOzp_unchanged s _

theorem after_modOzp {P : List Part} {t : State} (f : Ozper → Ozper) (hP : [.ozp] ⊆ P) :
    Unchanged P s (modOzp t f) ↔ Unchanged P s t := unchanged_step (modOzp_unchanged t f) hP

theorem after_modOz {P : List Part} {t : State} (f : OzPort → OzPort) (hP : [.ozp] ⊆ P) :
    Unchanged P s (modOz t p f) ↔ Unchanged P s t := unchanged_step (modOz_unchanged t p f) hP

theorem ozPort_modOz (f : OzPort → OzPort) (q : Nat) :
    ozPort (modOz s p f) q = if q = p then f (ozPort s p) else ozPort s q := tget_tmod _ _ _ _ _

@[simp] theorem ozPort_modOz_same (f : OzPort → OzPort) : ozPort (modOz s p f) p = f (ozPort s p) :=
  (ozPort_modOz s p f p).trans (if_pos rfl)

theorem ozPort_congr {s t : State} (h : t.ozp = s.ozp) (p : Nat) : ozPort t p = ozPort s p := by rw [ozPort, h, ozPort]

@[simp] theorem ozPort_fset (f : Fld) (x : Nat) : ozPort (fset s f x) p = ozPort s p := rfl
@[simp] theorem ozPort_fbump (f : Fld) (n : Nat) : ozPort (fbump s f n) p = ozPort s p := rfl
@[simp] theorem ozPort_emit (o : Out) : ozPort (emit s o) p = ozPort s p := rfl
@[simp] theorem ozPort_raise (src data : Nat) : ozPort (raise s src data) p = ozPort s p :=
  ozPort_congr (raise_unchanged s src data .ozp (by decide)) p
@[simp] theorem ozPort_dmkSend (code data : Nat) : ozPort (dmkSend s code data) p = ozPort s p :=
  ozPort_congr (((ReportFrame.refl s).after_dmkSend code data).parts .ozp (by decide)) p
@[simp] theorem fget_modOz (f : OzPort → OzPort) (g : Fld) : fget (modOz s p f) g = fget s g := rfl
@[simp] theorem fget_modOzp (f : Ozper → Ozper) (g : Fld) : fget (modOzp s f) g = fget s g := rfl
@[simp] theorem ozState_modOz (f : OzPort → OzPort) (q : Nat) : ozState (modOz s p f) q = ozState s q := rfl
@[simp] theorem ringDeclared_modOz (f : OzPort → OzPort) : ringDeclared (modOz s p f) = ringDeclared s := rfl
@[simp] theorem grantable_fset (f : Fld) (x : Nat) : grantable (fset s f x) = grantable s := rfl
@[simp] theorem grantable_modOz (f : OzPort → OzPort) : grantable (modOz s p f) = grantable s := rfl
@[simp] theorem ringDeclared_fset (f : Fld) (x : Nat) : ringDeclared (fset s f x) = ringDeclared s := rfl

end record

/-! ## A port's status word -/

section word

variable (s : State) (p : Nat)

/-- Two fields of a port's status word that share no bit. -/
theorem fget_fset_port {a b : Fld} (x : Nat) (fits : a.lo + a.w ≤ 32) (beside : a.lo + a.w ≤ b.lo ∨ b.lo + b.w ≤ a.lo) :
    fget (fset s { a with off := a.off + 4 * p } x) { b with off := b.off + 4 * p } = fget s { b with off := b.off + 4 * p } :=
  fget_fset_ne _ _ _ _ fits (.inr beside)

theorem fget_fset_port_same {a : Fld} (x : Nat) (fits : a.lo + a.w ≤ 32) :
    fget (fset s { a with off := a.off + 4 * p } x) { a with off := a.off + 4 * p } = x % 2 ^ a.w :=
  fget_fset_same _ _ _ fits

theorem ozState_fset_state {x : Nat} (hx : x < 8) : ozState (fset s (ozStateF p) x) p = x :=
  (fget_fset_port_same s p (a := OZP_PORT0_STATE) x (by decide)).trans (Nat.mod_eq_of_lt hx)

@[simp] theorem ozState_fset_ver (x : Nat) : ozState (fset s (ozVerF p) x) p = ozState s p :=
  fget_fset_port s p (a := OZP_PORT0_VER) (b := OZP_PORT0_STATE) x (by decide) (by decide)

@[simp] theorem ozState_fset_why (x : Nat) : ozState (fset s (ozWhyF p) x) p = ozState s p :=
  fget_fset_port s p (a := OZP_PORT0_WHY) (b := OZP_PORT0_STATE) x (by decide) (by decide)

@[simp] theorem ozVer_fset_ver (x : Nat) : fget (fset s (ozVerF p) x) (ozVerF p) = x % 4 :=
  fget_fset_port_same s p (a := OZP_PORT0_VER) x (by decide)

@[simp] theorem ozVer_fset_why (x : Nat) : fget (fset s (ozWhyF p) x) (ozVerF p) = fget s (ozVerF p) :=
  fget_fset_port s p (a := OZP_PORT0_WHY) (b := OZP_PORT0_VER) x (by decide) (by decide)

@[simp] theorem ozVer_fset_state (x : Nat) : fget (fset s (ozStateF p) x) (ozVerF p) = fget s (ozVerF p) :=
  fget_fset_port s p (a := OZP_PORT0_STATE) (b := OZP_PORT0_VER) x (by decide) (by decide)

@[simp] theorem ozWhy_fset_why (x : Nat) : fget (fset s (ozWhyF p) x) (ozWhyF p) = x % 4 :=
  fget_fset_port_same s p (a := OZP_PORT0_WHY) x (by decide)

@[simp] theorem ozLast_fset_last (x : Nat) : fget (fset s (ozLastF p) x) (ozLastF p) = x % 16 :=
  fget_fset_port_same s p (a := OZP_PORT0_LAST_STATE) x (by decide)

@[simp] theorem ozLast_fset_ver (x : Nat) : fget (fset s (ozVerF p) x) (ozLastF p) = fget s (ozLastF p) :=
  fget_fset_port s p (a := OZP_PORT0_VER) (b := OZP_PORT0_LAST_STATE) x (by decide) (by decide)

@[simp] theorem ozLast_fset_state (x : Nat) : fget (fset s (ozStateF p) x) (ozLastF p) = fget s (ozLastF p) :=
  fget_fset_port s p (a := OZP_PORT0_STATE) (b := OZP_PORT0_LAST_STATE) x (by decide) (by decide)

@[simp] theorem ozLanes_fset_lanes (x : Nat) : fget (fset s (ozLanesF p) x) (ozLanesF p) = x % 256 :=
  fget_fset_port_same s p (a := OZP_PORT0_LANES) x (by decide)

@[simp] theorem ozLanes_fset_state (x : Nat) : fget (fset s (ozStateF p) x) (ozLanesF p) = fget s (ozLanesF p) :=
  fget_fset_port s p (a := OZP_PORT0_STATE) (b := OZP_PORT0_LANES) x (by decide) (by decide)

/-- A field of an Ozper word that is no port's status word. -/
abbrev BesidePorts (f : Fld) : Prop := f.off ≠ 0x1300010 ∧ f.off ≠ 0x1300014

/-- The port's status word is one of the two. -/
theorem portWord_beside {p : Nat} (hp : p < 2) {f : Fld} (hf : BesidePorts f) : f.off ≠ 0x1300010 + 4 * p := by
  obtain ⟨east, west⟩ := hf
  have ports : p = 0 ∨ p = 1 := by omega
  rcases ports with rfl | rfl
  · exact east
  · exact west

variable {p}

theorem fget_fset_intoPort (hp : p < 2) {a f : Fld} (ha : a.off = 0x1300010 + 4 * p) (hf : BesidePorts f) (x : Nat) :
    fget (fset s a x) f = fget s f := fget_fset_off s a f x (ha ▸ portWord_beside hp hf)

theorem fget_fset_besidePort (hp : p < 2) {a f : Fld} (ha : a.off = 0x1300010 + 4 * p) (hf : BesidePorts f) (x : Nat) :
    fget (fset s f x) a = fget s a := fget_fset_off s f a x (ha ▸ (portWord_beside hp hf).symm)

theorem fget_fbump_besidePort (hp : p < 2) {a f : Fld} (ha : a.off = 0x1300010 + 4 * p) (hf : BesidePorts f) (n : Nat) :
    fget (fbump s f n) a = fget s a := fget_fset_besidePort s hp ha hf _

theorem portWord_unit (hp : p < 2) : UnitWord (0x1300010 + 4 * p) := by
  unfold UnitWord
  omega

/-- A fault report leaves the port's status word. -/
theorem fget_reported (hp : p < 2) {a : Fld} (ha : a.off = 0x1300010 + 4 * p) (code src data : Nat) :
    fget (raise (dmkSend s code data) src) a = fget s a := by
  have unit : UnitWord a.off := ha ▸ portWord_unit hp
  exact fget_congr ((rget_raise_unit unit _ _ _).trans (rget_dmkSend_unit unit _ _ _))

end word

/-! ## Frames are sent (R467, R468) -/

section frames

variable {s : State} {p : Nat}

theorem ozFlush_idle (calm : (ozPort s p).waiting = []) (k : Nat) : ozFlush k s p = s := by
  cases k with
  | zero => rfl
  | succ k => rw [ozFlush, calm]

/-- The port after a frame has gone out. -/
def sentPort (x : OzPort) (len : Nat) (f : Out) : OzPort :=
  { x with unacked := x.unacked ++ [(x.nextSeq, len, f)], nextSeq := (x.nextSeq + 1) % 4096 }

/-- With none waiting and room in the window a frame goes out at once. -/
theorem ozSend_now (calm : (ozPort s p).waiting = []) {bytes : Nat} (room : ozRoom (ozPort s p) (frameLen bytes) = true)
    (typ : Nat) (payload : List Nat) (blocks : List (List Byte)) {f : Out}
    (frame : f = .ozFrame p typ (ozPort s p).nextSeq (ozPort s p).rxSeq payload blocks) :
    (ozSend s p typ bytes payload blocks).out = f :: s.out ∧
      ozPort (ozSend s p typ bytes payload blocks) p = sentPort (ozPort s p) (frameLen bytes) f := by
  have queued : (ozPort (modOz s p fun x => { x with waiting := x.waiting ++ [(typ, frameLen bytes, payload, blocks)] }) p) =
      { ozPort s p with waiting := [(typ, frameLen bytes, payload, blocks)] } := by
    rw [ozPort_modOz_same, calm]
    rfl
  unfold ozSend
  dsimp only
  rw [queued]
  dsimp only [List.length]
  unfold ozFlush
  rw [queued]
  dsimp only
  have admitted : ozRoom { ozPort s p with waiting := [(typ, frameLen bytes, payload, blocks)] } (frameLen bytes) = true := room
  rw [if_pos admitted]
  unfold ozFlush ozEmit
  dsimp only
  rw [ozPort_modOz_same, queued]
  subst frame
  refine ⟨rfl, ?_⟩
  rw [ozPort_emit, ozPort_modOz_same, ozPort_modOz_same, queued]
  cases hx : ozPort s p
  simp only [sentPort, OzPort.mk.injEq, and_true, true_and]
  simpa [hx] using calm.symm

theorem sendCap_unchanged (s : State) (p : Nat) : Unchanged [.ozp, .out] s (sendCap s p) := by
  unfold sendCap
  split
  · exact unchanged_refl _ s
  · exact ozSend_unchanged _ _ _ _ _ _

/-- The CAP frame of a declared ring goes out at once. -/
theorem sendCap_now {r : RingSec} (ring : ringDeclared s = some r) (calm : (ozPort s p).waiting = [])
    (room : ozRoom (ozPort s p) 76 = true) : ∃ pl : List Nat, pl.getD 0 0 = 0x434F4158 ∧ pl.getD 4 0 = r.ringId ∧
      (sendCap s p).out = .ozFrame p 2 (ozPort s p).nextSeq (ozPort s p).rxSeq pl [] :: s.out ∧
      ∃ f, ozPort (sendCap s p) p = sentPort (ozPort s p) 76 f := by
  unfold sendCap
  rw [ring]
  obtain ⟨out, port⟩ := ozSend_now calm (bytes := 64) room 2 [0x434F4158, r.versions, p, Config.otpUid.toNat, r.ringId, s.tb.boot,
    if p = 0 then fget s OZP_EPOCH_EPOCH else 0, if p = 0 then localSlots s else 0, if p = 1 then fget s OZP_IN_SLOTS else 0] [] rfl
  exact ⟨_, rfl, rfl, out, _, port⟩

end frames

/-! ## Training (R465) -/

section training

variable {s : State} {p lanes : Nat} (trains : ozTrains s p = true)
include trains

theorem lt_two_of_trains : p < 2 := by
  unfold ozTrains at trains
  simp only [Bool.and_eq_true, decide_eq_true_eq] at trains
  exact trains.1.1.1

variable (idle : ozState s p = 1 ∨ ozState s p = 2) (searching : (ozPort s p).locked = false)
include idle searching

theorem training_idle : (!ozTrains s p || !(ozState s p == 1 || ozState s p == 2) || (ozPort s p).locked) = false := by
  rw [trains, searching]
  rcases idle with h | h <;> simp [h]

theorem exec_ozperTrain_locks (all : lanes % 256 = 255) {r : RingSec} (ring : ringDeclared s = some r) :
    ∃ t pl, exec (.ozperTrain p lanes) s = .next t ∧ ozState t p = 2 ∧
      (ozPort t p).locked = true ∧ fget t (ozLanesF p) = 255 ∧ t.out = .ozFrame p 2 0 4095 pl [] :: s.out ∧
      pl.getD 0 0 = 0x434F4158 ∧ pl.getD 4 0 = r.ringId ∧ Unchanged [.regs, .ozp, .out] s t := by
  have run : exec (.ozperTrain p lanes) s = .next (sendCap (fset (modOz (fset s (ozLanesF p) lanes) p fun x =>
      { lost := x.lost, peerState := x.peerState, locked := true, lastNs := s.tb.ns }) (ozStateF p) 2) p) := by
    refine (show _ = execOzperTrain p lanes s from rfl).trans ?_
    unfold execOzperTrain
    rw [if_neg (by rw [training_idle trains idle searching]; decide)]
    exact if_pos all
  generalize locked : fset (modOz (fset s (ozLanesF p) lanes) p fun x =>
    { lost := x.lost, peerState := x.peerState, locked := true, lastNs := s.tb.ns }) (ozStateF p) 2 = u at run
  have port : ozPort u p = { lost := (ozPort s p).lost, peerState := (ozPort s p).peerState, locked := true, lastNs := s.tb.ns } := by
    rw [← locked, ozPort_fset, ozPort_modOz_same, ozPort_fset]
  obtain ⟨pl, magic, id, out, f, sent⟩ := sendCap_now (s := u) (p := p) (r := r) (by rw [← locked]; exact ring) (by rw [port])
    (by rw [port]; rfl)
  have frame := sendCap_unchanged u p
  have word (f : Fld) : fget (sendCap u p) f = fget u f := fget_congr (rget_congr (frame .regs (by decide)) _)
  refine ⟨_, pl, run, ?_, ?_, ?_, ?_, magic, id, unchanged_trans ?_ (unchanged_mono frame (by decide))⟩
  · exact (word _).trans (by rw [← locked]; exact ozState_fset_state _ p (by decide))
  · rw [sent, port]
    rfl
  · rw [word, ← locked, ozLanes_fset_state, fget_modOz, ozLanes_fset_lanes, all]
  · rw [out, port, ← locked]
    rfl
  · rw [← locked, after_fset _ _ (by decide), after_modOz _ _ _ (by decide), after_fset _ _ (by decide)]
    exact unchanged_refl _ s

theorem exec_ozperTrain_fails (some : lanes % 256 ≠ 255) : ∃ t, exec (.ozperTrain p lanes) s = .next t ∧ ozState t p = 5 ∧
      fget t (ozLanesF p) = lanes % 256 ∧ (ozPort t p).fails = (ozPort s p).fails + 1 ∧
      fget t OZP_CNT0_TRAIN_FAIL = min (fget s OZP_CNT0_TRAIN_FAIL + 1) 255 ∧ Unchanged [.regs, .ozp] s t := by
  have hp := lt_two_of_trains trains
  have run : exec (.ozperTrain p lanes) s = .next (fset (modOz (fbump (fset s (ozLanesF p) lanes) OZP_CNT0_TRAIN_FAIL) p fun x =>
      { x with fails := x.fails + 1 }) (ozStateF p) 5) := by
    refine (show _ = execOzperTrain p lanes s from rfl).trans ?_
    unfold execOzperTrain
    rw [if_neg (by rw [training_idle trains idle searching]; decide)]
    exact if_neg some
  refine ⟨_, run, ozState_fset_state _ p (by decide), ?_, ?_, ?_, ?_⟩
  · rw [ozLanes_fset_state, fget_modOz, fget_fbump_besidePort _ hp rfl (by decide), ozLanes_fset_lanes]
  · rw [ozPort_fset, ozPort_modOz_same]
    rfl
  · rw [fget_fset_intoPort _ hp rfl (by decide), fget_modOz, fget_fbump _ _ (by decide),
      fget_fset_intoPort _ hp rfl (by decide)]
    rfl
  · rw [after_fset _ _ (by decide), after_modOz _ _ _ (by decide), after_fbump _ _ (by decide), after_fset _ _ (by decide)]
    exact unchanged_refl _ s

end training

theorem exec_ozperTrainRetry {s : State} {p : Nat} (trains : ozTrains s p = true) (failed : ozState s p = 5) :
    ∃ t, exec (.ozperTrainRetry p) s = .next t ∧ ozState t p = 2 ∧ RegsBut [(ozStateF p).off] s t ∧ Unchanged [.regs] s t :=
  ⟨_, if_pos (by rw [trains, failed]; rfl), ozState_fset_state _ p (by decide), regsBut_fset s _ List.mem_cons_self,
    fset_unchanged _ _ _⟩

/-! ## A link goes down (R466, R478) -/

section down

variable (s : State) {p : Nat} (hp : p < 2)
include hp

/-- What a link that is declared down shows, and how its port begins again. -/
theorem linkDownOz_shows (live : ozUp s p = true ∨ (ozPort s p).locked = true) :
    fget (linkDownOz s p) (ozVerF p) = 0 ∧ ozState (linkDownOz s p) p = (if fget s OZP_STATUS_BYP_HOLD = 1 then 2 else 1) ∧
      ozPort (linkDownOz s p) p = { peerState := (ozPort s p).peerState, lost := true } ∧
      fget (linkDownOz s p) (ozLastF p) = (ozPort s p).peerState % 16 ∧
      fget (linkDownOz s p) OZP_CNT0_LINK_DOWN = min (fget s OZP_CNT0_LINK_DOWN + 1) 255 ∧
      Unchanged [.regs, .ozp] s (linkDownOz s p) := by
  have up : ¬((!ozUp s p && !(ozPort s p).locked) = true) := by rcases live with h | h <;> simp [h]
  unfold linkDownOz
  rw [if_neg up]
  dsimp only
  have hold : fget (fset (fset (fbump s OZP_CNT0_LINK_DOWN) (ozLastF p) (ozPort s p).peerState) (ozVerF p) 0) OZP_STATUS_BYP_HOLD =
      fget s OZP_STATUS_BYP_HOLD := by
    rw [fget_fset_intoPort _ hp rfl (by decide), fget_fset_intoPort _ hp rfl (by decide)]
    exact fget_fset_off _ _ _ _ (by decide)
  rw [hold]
  refine ⟨?_, ozState_fset_state _ p (by split <;> decide), ?_, ?_, ?_, ?_⟩
  · rw [ozVer_fset_state, fget_modOz, ozVer_fset_ver]
  · rw [ozPort_fset, ozPort_modOz_same]
    rfl
  · rw [ozLast_fset_state, fget_modOz, ozLast_fset_ver, ozLast_fset_last]
  · rw [fget_fset_intoPort _ hp rfl (by decide), fget_modOz, fget_fset_intoPort _ hp rfl (by decide),
      fget_fset_intoPort _ hp rfl (by decide), fget_fbump _ _ (by decide)]
    rfl
  · rw [after_fset _ _ (by decide), after_modOz _ _ _ (by decide), after_fset _ _ (by decide), after_fset _ _ (by decide),
      after_fbump _ _ (by decide)]
    exact unchanged_refl _ s

theorem ozState_linkDown (live : ozUp s p = true ∨ (ozPort s p).locked = true) : ozState (linkDownOz s p) p ∈ [1, 2] := by
  obtain ⟨-, state, -⟩ := linkDownOz_shows s hp live
  rw [state]
  split <;> decide

end down

theorem exec_linkDown {s : State} {p : Nat} (hp : p < 2) (up : ozUp s p = true) :
    ∀ i ∈ [Instr.ozperLinkDown p, .ozperRetrain p false], ∃ t, exec i s = .next t ∧ fget t (ozVerF p) = 0 ∧
      ozState t p = (if fget s OZP_STATUS_BYP_HOLD = 1 then 2 else 1) ∧ (ozPort t p).lost = true ∧
      (ozPort t p).unacked = [] ∧ fget t (ozLastF p) = (ozPort s p).peerState % 16 ∧
      fget t OZP_CNT0_LINK_DOWN = min (fget s OZP_CNT0_LINK_DOWN + 1) 255 ∧ Unchanged [.regs, .ozp] s t := by
  obtain ⟨ver, state, port, last, count, frame⟩ := linkDownOz_shows s hp (.inl up)
  have shows : fget (linkDownOz s p) (ozVerF p) = 0 ∧
      ozState (linkDownOz s p) p = (if fget s OZP_STATUS_BYP_HOLD = 1 then 2 else 1) ∧ (ozPort (linkDownOz s p) p).lost = true ∧
      (ozPort (linkDownOz s p) p).unacked = [] ∧ fget (linkDownOz s p) (ozLastF p) = (ozPort s p).peerState % 16 ∧
      fget (linkDownOz s p) OZP_CNT0_LINK_DOWN = min (fget s OZP_CNT0_LINK_DOWN + 1) 255 ∧
      Unchanged [.regs, .ozp] s (linkDownOz s p) := ⟨ver, state, by rw [port], by rw [port], last, count, frame⟩
  intro i hi
  simp only [List.mem_cons, List.not_mem_nil, or_false] at hi
  rcases hi with rfl | rfl
  · exact ⟨_, if_pos hp, shows⟩
  · exact ⟨_, if_pos (by simp [hp, up]), shows⟩

/-! ## Heartbeats (R466, R468, R470, R472) -/

section heartbeat

variable {s : State} {p : Nat} (hp : p < 2) (up : ozUp s p = true)
include hp up

theorem exec_heartbeatSend : ∃ t pl, exec (.heartbeatSend p) s = .next t ∧
      t.out = .ozFrame p 1 (((ozPort s p).nextSeq + 4095) % 4096) (ozPort s p).rxSeq pl [] :: s.out ∧
      (ozPort t p).unacked = (ozPort s p).unacked ∧ (ozPort t p).nak = false ∧ Unchanged [.ozp, .out] s t := by
  refine ⟨_, _, if_pos (by simp [hp, up]), rfl, ?_, ?_, ?_⟩
  · rw [sendHeartbeat, ozPort_emit, ozPort_modOz_same]
  · rw [sendHeartbeat, ozPort_emit, ozPort_modOz_same]
  · rw [sendHeartbeat, after_emit _ (by decide), after_modOz _ _ _ (by decide)]
    exact unchanged_refl _ s

/-- The port after a heartbeat from the partner. -/
def heardPort (s : State) (p ack gst : Nat) : OzPort :=
  { ozPort s p with lastNs := s.tb.ns, peerState := gst, unacked := dropAcked (ozPort s p).unacked ack }

/-- The state after the port has heard a heartbeat. -/
def heard (s : State) (p ack gst : Nat) : State :=
  modOz s p fun x => { x with lastNs := s.tb.ns, peerState := gst, unacked := dropAcked x.unacked ack }

/-- The frames a heartbeat with NAK asks for again. -/
def resent (s : State) (p : Nat) : State :=
  (ozPort s p).unacked.foldl (fun s u => emit s u.2.2) (fbump s OZP_CNT0_REPLAY)

/-- GRANT may raise OZP_OUT. -/
def granted (s : State) (p grant : Nat) : State := if p = 0 then fset s OZP_OUT_SLOTS (max (fget s OZP_OUT_SLOTS) grant) else s

omit hp up in
theorem foldl_emit (l : List (Nat × Nat × Out)) (s : State) :
    (l.foldl (fun s u => emit s u.2.2) s).out = (l.map fun u => u.2.2).reverse ++ s.out ∧
      Unchanged [.out] s (l.foldl (fun s u => emit s u.2.2) s) := by
  refine ⟨?_, unchanged_foldl (fun _ _ => emit_unchanged _ _) _ _⟩
  induction l generalizing s with
  | nil => rfl
  | cons u l ih =>
    rw [List.foldl_cons, ih, List.map_cons, List.reverse_cons, List.append_assoc]
    rfl

omit hp up in
theorem resent_unchanged (s : State) (p : Nat) : Unchanged [.regs, .out] s (resent s p) :=
  unchanged_trans (unchanged_mono (fbump_unchanged s _ _) (by decide)) (unchanged_mono (foldl_emit _ _).2 (by decide))

omit hp up in
theorem granted_unchanged (s : State) (p grant : Nat) : Unchanged [.regs] s (granted s p grant) := by
  unfold granted
  split
  · exact fset_unchanged _ _ _
  · exact unchanged_refl _ s

omit hp up in
theorem fget_granted (s : State) (p grant : Nat) {f : Fld} (hf : f.off ≠ OZP_OUT_SLOTS.off) :
    fget (granted s p grant) f = fget s f := by
  unfold granted
  split
  · exact fget_fset_off _ _ _ _ hf
  · rfl

/-- The state after a heartbeat has been taken, before its LEAVE. -/
def heartbeatTaken (s : State) (p ack gst grant : Nat) (nak : Bool) : State :=
  granted (if nak then resent (heard s p ack gst) p else heard s p ack gst) p grant

omit hp up in
theorem ozPort_heartbeatTaken (s : State) (p ack gst grant : Nat) (nak : Bool) :
    ozPort (heartbeatTaken s p ack gst grant nak) p = heardPort s p ack gst := by
  unfold heartbeatTaken
  refine (ozPort_congr ((granted_unchanged _ _ _) .ozp (by decide)) p).trans ?_
  split
  · exact (ozPort_congr (resent_unchanged _ p .ozp (by decide)) p).trans (ozPort_modOz_same _ _ _)
  · exact ozPort_modOz_same _ _ _

omit up in
/-- Until its LEAVE a heartbeat leaves the words of the ports. -/
theorem fget_heartbeatTaken (ack gst grant : Nat) (nak : Bool) {f : Fld} (hf : f.off = 0x1300010 + 4 * p) :
    fget (heartbeatTaken s p ack gst grant nak) f = fget s f := by
  unfold heartbeatTaken
  rw [fget_granted _ _ _ (hf ▸ (portWord_beside hp (f := OZP_OUT_SLOTS) (by decide)).symm)]
  split
  · refine (fget_congr (rget_congr ((foldl_emit _ _).2 .regs (by decide)) _)).trans ?_
    exact fget_fbump_besidePort _ hp hf (by decide) _
  · rfl

/-- What a heartbeat does: the port hears it, resends on NAK, takes the grant, and a v2 LEAVE takes the link down. -/
theorem exec_heartbeat (calm : (ozPort s p).waiting = []) (ack gst grant : Nat) (nak leave : Bool) :
    exec (.heartbeat p ack gst grant nak leave) s = .next
      (if (leave && fget s (ozVerF p) == 2) = true then linkDownOz (heartbeatTaken s p ack gst grant nak) p
      else heartbeatTaken s p ack gst grant nak) := by
  generalize taken : heartbeatTaken s p ack gst grant nak = u
  have quiet := ozFlush_idle (s := u) (p := p) (by rw [← taken, ozPort_heartbeatTaken]; exact calm)
  have ver : fget u (ozVerF p) = fget s (ozVerF p) := taken ▸ fget_heartbeatTaken hp ack gst grant nak rfl
  have run : exec (.heartbeat p ack gst grant nak leave) s = .next
      (if (leave && fget (ozFlush (ozPort u p).waiting.length u p) (ozVerF p) == 2) = true then
        linkDownOz (ozFlush (ozPort u p).waiting.length u p) p
      else ozFlush (ozPort u p).waiting.length u p) := taken ▸ if_neg (by simp [hp, up])
  rw [run, quiet, ver]

/-- A heartbeat without NAK and without LEAVE. -/
theorem exec_heartbeat_plain (calm : (ozPort s p).waiting = []) (ack gst : Nat) {grant : Nat} (low : grant < 2 ^ 22) {leave : Bool}
    (stays : leave = false ∨ fget s (ozVerF p) = 1) : ∃ t, exec (.heartbeat p ack gst grant false leave) s = .next t ∧
      ozPort t p = heardPort s p ack gst ∧
      (p = 0 → fget t OZP_OUT_SLOTS = max (fget s OZP_OUT_SLOTS) grant) ∧ Unchanged [.regs, .ozp] s t := by
  have stay : ¬((leave && fget s (ozVerF p) == 2) = true) := by rcases stays with h | h <;> simp [h]
  refine ⟨_, (exec_heartbeat hp up calm ack gst grant false leave).trans (congrArg _ (if_neg stay)),
    ozPort_heartbeatTaken _ _ _ _ _ _, fun east => ?_, ?_⟩
  · subst east
    refine (fget_fset_same _ OZP_OUT_SLOTS _ (by decide)).trans (Nat.mod_eq_of_lt ?_)
    exact max_lt (fget_lt _ OZP_OUT_SLOTS) low
  · exact unchanged_trans (unchanged_mono (modOz_unchanged s p _) (by decide))
      (unchanged_mono (granted_unchanged _ _ _) (by decide))

/-- A heartbeat with NAK has every frame that is still not acknowledged sent again. -/
theorem exec_heartbeat_nak (calm : (ozPort s p).waiting = []) (ack gst grant : Nat) {leave : Bool}
    (stays : leave = false ∨ fget s (ozVerF p) = 1) : ∃ t, exec (.heartbeat p ack gst grant true leave) s = .next t ∧
      t.out = ((dropAcked (ozPort s p).unacked ack).map fun u => u.2.2).reverse ++ s.out ∧
      fget t OZP_CNT0_REPLAY = min (fget s OZP_CNT0_REPLAY + 1) 255 ∧ Unchanged [.regs, .ozp, .out] s t := by
  have stay : ¬((leave && fget s (ozVerF p) == 2) = true) := by rcases stays with h | h <;> simp [h]
  refine ⟨_, (exec_heartbeat hp up calm ack gst grant true leave).trans (congrArg _ (if_neg stay)), ?_, ?_, ?_⟩
  · refine ((granted_unchanged _ _ _) .out (by decide)).trans ?_
    refine (foldl_emit _ _).1.trans ?_
    rw [heard, ozPort_modOz_same]
    rfl
  · refine (fget_granted _ _ _ (by decide)).trans ?_
    refine (fget_congr (rget_congr ((foldl_emit _ _).2 .regs (by decide)) _)).trans ?_
    exact fget_fbump _ _ (by decide)
  · exact unchanged_trans (unchanged_mono (modOz_unchanged s p _) (by decide))
      (unchanged_trans (unchanged_mono (resent_unchanged _ p) (by decide)) (unchanged_mono (granted_unchanged _ _ _) (by decide)))

/-- LEAVE under v2 takes the link down. -/
theorem exec_heartbeat_leave (v2 : fget s (ozVerF p) = 2) (calm : (ozPort s p).waiting = []) (ack gst grant : Nat) (nak : Bool) :
    ∃ t, exec (.heartbeat p ack gst grant nak true) s = .next t ∧ ozState t p ∈ [1, 2] ∧ (ozPort t p).lost = true := by
  have live : ozUp (heartbeatTaken s p ack gst grant nak) p = true := by
    unfold ozUp ozState at up ⊢
    rwa [fget_heartbeatTaken hp ack gst grant nak rfl]
  obtain ⟨-, -, port, -⟩ := linkDownOz_shows _ hp (.inl live)
  exact ⟨_, (exec_heartbeat hp up calm ack gst grant nak true).trans (congrArg _ (if_pos (by rw [v2]; rfl))),
    ozState_linkDown _ hp (.inl live), by rw [port]⟩

end heartbeat

/-! ## Frames arrive (R468) -/

section take

variable {s : State} {p : Nat} {h : OzHdr} (hp : p < 2) (live : ozUp s p = true ∨ (ozPort s p).locked = true)
include hp live

theorem takes_live : ¬((!(ozUp s p || (ozPort s p).locked) || decide (2 ≤ p)) = true) := by
  have beyond : ¬2 ≤ p := by omega
  rcases live with h | h <;> simp [h, beyond]

theorem ozTake_late (late : h.lseq ≠ ((ozPort s p).rxSeq + 1) % 4096) :
    ozTake s p h = (false, modOz s p fun x => { x with nak := true }) :=
  (if_neg (takes_live hp live)).trans (if_pos late)

/-- The port after a frame in order. -/
def tookPort (s : State) (p : Nat) (h : OzHdr) : OzPort :=
  { ozPort s p with rxSeq := h.lseq, lastNs := s.tb.ns, unacked := dropAcked (ozPort s p).unacked h.ack }

/-- The state after a frame in order. -/
def took (s : State) (p : Nat) (h : OzHdr) : State :=
  modOz s p fun x => { x with rxSeq := h.lseq, lastNs := s.tb.ns, unacked := dropAcked x.unacked h.ack }

omit hp live in
theorem ozPort_took (s : State) (p : Nat) (h : OzHdr) : ozPort (took s p h) p = tookPort s p h := ozPort_modOz_same _ _ _

omit hp live in
theorem took_unchanged (s : State) (p : Nat) (h : OzHdr) : Unchanged [.ozp] s (took s p h) := modOz_unchanged s p _

theorem ozTake_next (next : h.lseq = ((ozPort s p).rxSeq + 1) % 4096) (calm : (ozPort s p).waiting = []) :
    ozTake s p h = (true, took s p h) := by
  have run : ozTake s p h = (true, ozFlush (ozPort (took s p h) p).waiting.length (took s p h) p) :=
    (if_neg (takes_live hp live)).trans (if_neg (not_not.mpr next))
  rw [run, ozFlush_idle (by rw [ozPort_took]; exact calm)]

end take

/-! ## CAP frames (R469, R472) -/

section cap

variable {s : State} {p : Nat} {h : OzHdr} {c : CapFrame} {r : RingSec} (hp : p < 2)
  (live : ozUp s p = true ∨ (ozPort s p).locked = true)
include hp live

theorem exec_cap_late (late : h.lseq ≠ ((ozPort s p).rxSeq + 1) % 4096) : ∃ t, exec (.cap p h c) s = .next t ∧
    (ozPort t p).nak = true ∧ (ozPort t p).rxSeq = (ozPort s p).rxSeq ∧ Unchanged [.ozp] s t := by
  have run : exec (.cap p h c) s = .next (modOz s p fun x => { x with nak := true }) := by
    refine (show _ = execCap p h c s from rfl).trans ?_
    unfold execCap
    rw [ozTake_late hp live late]
  exact ⟨_, run, by rw [ozPort_modOz_same], by rw [ozPort_modOz_same], modOz_unchanged s p _⟩

/-- The state with the partner's CAP noted. -/
def capNoted (s : State) (p : Nat) (h : OzHdr) (c : CapFrame) : State :=
  fset (fset (modOz (took s p h) p fun x => { x with peer := some c, fails := 0 })
    (Fld.mk (OZP_PEER0_LO_UID.off + 8 * p) 0 32) c.uid) (Fld.mk (OZP_PEER0_HI_UID.off + 8 * p) 0 32) (c.uid / 2 ^ 32)

/-- The version both CAPs allow, 0 when there is none. -/
def commonVer (c : CapFrame) (r : RingSec) : Nat :=
  if c.versions / 2 ^ 2 % 2 == 1 && r.versions / 2 ^ 2 % 2 == 1 then 2
  else if c.versions / 2 ^ 1 % 2 == 1 && r.versions / 2 ^ 1 % 2 == 1 then 1 else 0

/-- Why a link is up without mirror, if it is. -/
def noMirror (c : CapFrame) (r : RingSec) : Option Nat :=
  if commonVer c r = 0 then some 0 else if c.ringId ≠ r.ringId then some 1
  else if c.uid = Config.otpUid.toNat then some 2 else none

/-- A link up without mirror. -/
def capRefused (s : State) (p w : Nat) : State :=
  raise (dmkSend (fset (fset (fset s (ozStateF p) 4) (ozVerF p) 0) (ozWhyF p) w) 0x0A84 0) 0xA84

/-- A link up with mirror. -/
def capAccepted (s : State) (p ver : Nat) (c : CapFrame) : State :=
  if p = 1 then fset (fset (fset s (ozStateF p) 3) (ozVerF p) ver) OZP_IN_SLOTS
    (min c.dirty (grantable (fset (fset s (ozStateF p) 3) (ozVerF p) ver)))
  else fset (fset (fset s (ozStateF p) 3) (ozVerF p) ver) OZP_OUT_SLOTS c.grant

theorem exec_cap_judged (ring : ringDeclared s = some r) (next : h.lseq = ((ozPort s p).rxSeq + 1) % 4096)
    (calm : (ozPort s p).waiting = []) : exec (.cap p h c) s = .next (match noMirror c r with
      | some w => capRefused (capNoted s p h c) p w
      | none => capAccepted (capNoted s p h c) p (commonVer c r) c) := by
  refine (show _ = execCap p h c s from rfl).trans ?_
  unfold execCap
  rw [ozTake_next hp live next calm]
  dsimp only
  rw [took, ringDeclared_modOz, ring]
  unfold noMirror commonVer capRefused capAccepted capNoted took
  dsimp only
  split
  case h_1 why => rw [why]
  case h_2 why => rw [why]

omit hp live in
/-- The CAP's notes leave the words of the ports' status. -/
theorem ozPort_capNoted : ozPort (capNoted s p h c) p = { tookPort s p h with peer := some c, fails := 0 } := by
  rw [capNoted, ozPort_fset, ozPort_fset, ozPort_modOz_same, ozPort_took]

omit hp live in
theorem ozPort_capRefused (s : State) (p w : Nat) : ozPort (capRefused s p w) p = ozPort s p := by
  simp only [capRefused, ozPort_raise, ozPort_dmkSend, ozPort_fset]

omit hp live in
theorem ozPort_capAccepted (s : State) (p ver : Nat) (c : CapFrame) : ozPort (capAccepted s p ver c) p = ozPort s p := by
  unfold capAccepted
  split <;> simp only [ozPort_fset]

omit live in
/-- What a link up without mirror shows. -/
theorem capRefused_shows (s : State) {w : Nat} (low : w < 4) : ozState (capRefused s p w) p = 4 ∧
    fget (capRefused s p w) (ozVerF p) = 0 ∧ fget (capRefused s p w) (ozWhyF p) = w := by
  unfold capRefused
  refine ⟨?_, ?_, ?_⟩
  · refine (fget_reported _ hp rfl _ _ _).trans ?_
    exact (ozState_fset_why _ p w).trans ((ozState_fset_ver _ p 0).trans (ozState_fset_state _ p (by decide)))
  · rw [fget_reported _ hp rfl, ozVer_fset_why, ozVer_fset_ver]
  · rw [fget_reported _ hp rfl, ozWhy_fset_why, Nat.mod_eq_of_lt low]

omit live in
/-- What a link up with mirror shows and grants. -/
theorem capAccepted_shows (s : State) {ver : Nat} (low : ver < 4) (c : CapFrame) : ozState (capAccepted s p ver c) p = 3 ∧
    fget (capAccepted s p ver c) (ozVerF p) = ver ∧
    (p = 0 → fget (capAccepted s p ver c) OZP_OUT_SLOTS = c.grant % 2 ^ 22) ∧
    (p = 1 → fget (capAccepted s p ver c) OZP_IN_SLOTS = min c.dirty (grantable s) % 2 ^ 22) := by
  have up : ozState (fset (fset s (ozStateF p) 3) (ozVerF p) ver) p = 3 :=
    (ozState_fset_ver _ p ver).trans (ozState_fset_state s p (by decide))
  have shown : fget (fset (fset s (ozStateF p) 3) (ozVerF p) ver) (ozVerF p) = ver := by
    rw [ozVer_fset_ver, Nat.mod_eq_of_lt low]
  unfold capAccepted
  split
  case isTrue west =>
    refine ⟨(fget_fset_besidePort _ hp rfl (by decide) _).trans up, (fget_fset_besidePort _ hp rfl (by decide) _).trans shown,
      fun east => absurd (east.symm.trans west) (by decide), fun _ => ?_⟩
    rw [fget_fset_same _ _ _ (by decide), grantable_fset, grantable_fset]
    rfl
  case isFalse notWest =>
    exact ⟨(fget_fset_besidePort _ hp rfl (by decide) _).trans up, (fget_fset_besidePort _ hp rfl (by decide) _).trans shown,
      fun _ => fget_fset_same _ _ _ (by decide), fun west => absurd west notWest⟩

omit hp live in
/-- The versions as bits of the two masks. -/
theorem commonVer_eq (c : CapFrame) (r : RingSec) : commonVer c r =
    if c.versions.testBit 2 = true ∧ r.versions.testBit 2 = true then 2
    else if c.versions.testBit 1 = true ∧ r.versions.testBit 1 = true then 1 else 0 := by
  simp [commonVer, Nat.testBit_eq_decide_div_mod_eq]

omit hp live in
theorem commonVer_lt (c : CapFrame) (r : RingSec) : commonVer c r < 4 := by
  rw [commonVer_eq]
  split_ifs <;> decide

omit hp live in
theorem commonVer_of_v1 (theirs : c.versions.testBit 1 = true) (ours : r.versions.testBit 1 = true) :
    commonVer c r = (if c.versions.testBit 2 = true ∧ r.versions.testBit 2 = true then 2 else 1) := by
  rw [commonVer_eq, if_pos (⟨theirs, ours⟩ : c.versions.testBit 1 = true ∧ r.versions.testBit 1 = true)]

omit hp live in
theorem commonVer_ne (theirs : c.versions.testBit 1 = true) (ours : r.versions.testBit 1 = true) : commonVer c r ≠ 0 := by
  rw [commonVer_of_v1 theirs ours]
  split <;> decide

/-- A CAP in order: the link as both CAPs allow it. -/
theorem exec_cap_next (ring : ringDeclared s = some r) (next : h.lseq = ((ozPort s p).rxSeq + 1) % 4096)
    (calm : (ozPort s p).waiting = []) : ∃ t, exec (.cap p h c) s = .next t ∧ (ozPort t p).rxSeq = h.lseq ∧
      (ozPort t p).peer = some c ∧
      (c.versions.testBit 1 = true → r.versions.testBit 1 = true → c.ringId = r.ringId → c.uid ≠ Config.otpUid.toNat →
        ozState t p = 3 ∧
        fget t (ozVerF p) = (if c.versions.testBit 2 = true ∧ r.versions.testBit 2 = true then 2 else 1) ∧
        (p = 0 → fget t OZP_OUT_SLOTS = c.grant % 2 ^ 22) ∧
        (p = 1 → fget t OZP_IN_SLOTS = min c.dirty (grantable s) % 2 ^ 22)) ∧
      (c.versions.testBit 1 = true → r.versions.testBit 1 = true → c.ringId ≠ r.ringId →
        ozState t p = 4 ∧ fget t (ozVerF p) = 0 ∧ fget t (ozWhyF p) = 1) ∧
      (c.versions.testBit 1 = false → c.versions.testBit 2 = false →
        ozState t p = 4 ∧ fget t (ozVerF p) = 0 ∧ fget t (ozWhyF p) = 0) := by
  have port : ozPort (match noMirror c r with
      | some w => capRefused (capNoted s p h c) p w
      | none => capAccepted (capNoted s p h c) p (commonVer c r) c) p = { tookPort s p h with peer := some c, fails := 0 } := by
    cases noMirror c r with
    | some w => exact (ozPort_capRefused _ _ _).trans ozPort_capNoted
    | none => exact (ozPort_capAccepted _ _ _ _).trans ozPort_capNoted
  refine ⟨_, exec_cap_judged hp live ring next calm, by rw [port]; rfl, by rw [port], fun theirs ours same other => ?_,
    fun theirs ours apart => ?_, fun no1 no2 => ?_⟩
  · have mirror : noMirror c r = none := by
      rw [noMirror, if_neg (commonVer_ne theirs ours), if_neg (not_not.mpr same), if_neg other]
    have grants : grantable (capNoted s p h c) = grantable s := by
      rw [capNoted, grantable_fset, grantable_fset, grantable_modOz, took, grantable_modOz]
    rw [mirror, ← commonVer_of_v1 theirs ours, ← grants]
    exact capAccepted_shows hp _ (commonVer_lt c r) c
  · have apart' : noMirror c r = some 1 := by rw [noMirror, if_neg (commonVer_ne theirs ours), if_pos apart]
    rw [apart']
    exact capRefused_shows hp _ (by decide)
  · have noVer : commonVer c r = 0 := by simp [commonVer_eq, no1, no2]
    have alone : noMirror c r = some 0 := by rw [noMirror, if_pos noVer]
    rw [alone]
    exact capRefused_shows hp _ (by decide)

end cap

theorem exec_capResend {s : State} {p : Nat} {r : RingSec} (hp : p < 2) (locked : (ozPort s p).locked = true)
    (notUp : ozUp s p = false) (ring : ringDeclared s = some r) (calm : (ozPort s p).waiting = [])
    (room : ozRoom (ozPort s p) 76 = true) : ∃ t pl, exec (.capResend p) s = .next t ∧
      t.out = .ozFrame p 2 (ozPort s p).nextSeq (ozPort s p).rxSeq pl [] :: s.out ∧
      (ozPort t p).nextSeq = ((ozPort s p).nextSeq + 1) % 4096 ∧ Unchanged [.ozp, .out] s t := by
  obtain ⟨pl, -, -, out, f, sent⟩ := sendCap_now ring calm room
  exact ⟨_, pl, if_pos (by simp [hp, locked, notUp]), out, by rw [sent]; rfl, sendCap_unchanged s p⟩

/-! ## Bad frames (R468) -/

section badFrame

variable {s : State} {p : Nat} (hp : p < 2) (up : ozUp s p = true)
include hp up

theorem badFrame_heard : ¬((decide (2 ≤ p) || !(ozUp s p || (ozPort s p).locked)) = true) := by
  have beyond : ¬2 ≤ p := by omega
  simp [up, beyond]

theorem exec_badFrame_crc : ∃ t, exec (.badFrame p false) s = .next t ∧ ozPort t p = { ozPort s p with nak := true } ∧
    Unchanged [.ozp] s t :=
  ⟨_, (if_neg (badFrame_heard hp up)).trans (if_pos rfl), ozPort_modOz_same _ _ _, modOz_unchanged s p _⟩

/-- The state with a malformed frame counted. -/
def badCounted (s : State) (p : Nat) : State :=
  modOz (fbump s OZP_CNT0_BAD_FRAME) p fun x =>
    { x with bad := (x.bad.filter fun t => decide (s.tb.ns < t + 1000000)) ++ [s.tb.ns] }

omit hp up in
theorem ozPort_badCounted (s : State) (p : Nat) : ozPort (badCounted s p) p = { ozPort s p with
    bad := ((ozPort s p).bad.filter fun t => decide (s.tb.ns < t + 1000000)) ++ [s.tb.ns] } := ozPort_modOz_same _ _ _

omit up in
theorem ozState_badCounted : ozState (badCounted s p) p = ozState s p := fget_fbump_besidePort s hp rfl (by decide) 1

theorem exec_badFrame : exec (.badFrame p true) s = if (ozPort (badCounted s p) p).bad.length < 16 then .next (badCounted s p)
    else .next (raise (dmkSend (linkDownOz (badCounted s p) p) 0x0A85 0) 0xA85) := if_neg (badFrame_heard hp up)

theorem exec_badFrame_counts (few : (ozPort s p).bad.length < 15) : ∃ t, exec (.badFrame p true) s = .next t ∧
    ozState t p = ozState s p ∧ fget t OZP_CNT0_BAD_FRAME = min (fget s OZP_CNT0_BAD_FRAME + 1) 255 ∧
    Unchanged [.regs, .ozp] s t := by
  have kept := List.length_filter_le (fun t => decide (s.tb.ns < t + 1000000)) (ozPort s p).bad
  refine ⟨_, (exec_badFrame hp up).trans (if_pos ?_), ozState_badCounted hp, fget_fbump _ _ (by decide), ?_⟩
  · rw [ozPort_badCounted, List.length_append, List.length_singleton]
    omega
  · rw [badCounted, after_modOz _ _ _ (by decide), after_fbump _ _ (by decide)]
    exact unchanged_refl _ s

theorem exec_badFrame_sixteenth (many : 15 ≤ ((ozPort s p).bad.filter fun x => decide (s.tb.ns < x + 1000000)).length) :
    ∃ t, exec (.badFrame p true) s = .next t ∧ ozState t p ∈ [1, 2] ∧ fget t (ozVerF p) = 0 := by
  have live : ozUp (badCounted s p) p = true := by
    unfold ozUp
    rwa [ozState_badCounted hp]
  obtain ⟨ver, -⟩ := linkDownOz_shows _ hp (.inl live)
  refine ⟨_, (exec_badFrame hp up).trans (if_neg ?_), ?_, (fget_reported _ hp rfl _ _ _).trans ver⟩
  · rw [ozPort_badCounted, List.length_append, List.length_singleton]
    omega
  · rw [show ozState (raise (dmkSend (linkDownOz (badCounted s p) p) 0x0A85 0) 0xA85) p = ozState (linkDownOz (badCounted s p) p) p
      from fget_reported _ hp rfl _ _ _]
    exact ozState_linkDown _ hp (.inl live)

end badFrame

/-- Settles O53. -/
theorem ozperLinks : Obligations.OzperLinks := by
  unfold Obligations.OzperLinks
  refine ⟨fun s p lanes trains idle searching => ⟨fun r all ring => exec_ozperTrain_locks trains idle searching all ring,
      fun some => exec_ozperTrain_fails trains idle searching some⟩,
    fun s p trains failed => exec_ozperTrainRetry trains failed,
    fun s p hp up => ⟨exec_heartbeatSend hp up, if_neg (by simp), exec_linkDown hp up,
      fun ack gst grant leave calm low stays => ⟨exec_heartbeat_plain hp up calm ack gst low stays,
        exec_heartbeat_nak hp up calm ack gst grant stays⟩,
      fun ack gst grant nak v2 calm => exec_heartbeat_leave hp up v2 calm ack gst grant nak⟩,
    fun s p h c r hp live ring calm => ⟨exec_cap_late hp live, fun next => exec_cap_next hp live ring next calm⟩,
    fun s p r hp locked notUp ring calm room => exec_capResend hp locked notUp ring calm room,
    fun s p hp up => ⟨exec_badFrame_crc hp up, exec_badFrame_counts hp up, exec_badFrame_sixteenth hp up⟩⟩

end Sys2Proof.Laws
end

section
/-!
PROOFS. The statement of 16_ozper_ring.md on mirroring, the losses of the links and orphan sets (R471 to R477).
-/

namespace Sys2Proof.Laws

open Sys2Proof.Machine

/-! ## Reports beside the unit's words -/

section reports

variable {f : Fld} (hf : 0x100000 ≤ f.off ∧ f.off < 0x1400000) (s : State)
include hf

theorem fget_dmkSend_unit (code data : Nat) : fget (dmkSend s code data) f = fget s f := fget_congr (rget_dmkSend_unit hf _ _ _)

theorem fget_raise_unit (src data : Nat) : fget (raise s src data) f = fget s f := fget_congr (rget_raise_unit hf _ _ _)

theorem fget_setReduction_unit (i : Nat) (b : Bool) : fget (setReduction s i b) f = fget s f :=
  fget_congr (rget_setReduction_unit hf _ _ _)

theorem fget_recomputeFloors_unit : fget (recomputeFloors s) f = fget s f := fget_congr (rget_recomputeFloors_unit hf _)

end reports

/-! ## A frame taken on an up link -/

theorem up_of_three {s : State} {p : Nat} (up : ozState s p = 3) : ozUp s p = true := by
  rw [ozUp, up]
  rfl

/-- A frame in order on a link with mirror. -/
theorem ozTake_three {s : State} {p : Nat} {h : OzHdr} (hp : p < 2) (up : ozState s p = 3)
    (next : h.lseq = ((ozPort s p).rxSeq + 1) % 4096) (calm : (ozPort s p).waiting = []) :
    ozTake s p h = (true, took s p h) := ozTake_next hp (.inl (up_of_three up)) next calm

/-! ## Mirroring out (R471, R472) -/

theorem exec_mirrorEnter {s : State} (up : ozState s 0 = 3) (alone : fget s OZP_STATUS_MODE = 3) (v1 : fget s (ozVerF 0) = 1) :
    ∃ t, exec .mirrorEnter s = .next t ∧ fget t OZP_STATUS_MODE = 1 ∧
      fget t OZP_EPOCH_EPOCH = (fget s OZP_EPOCH_EPOCH + 1) % 2 ^ 32 ∧ t.ozp = { s.ozp with mid := 0, awaits := [] } := by
  have ver (e : Nat) : fget (fset (fset s OZP_EPOCH_EPOCH e) OZP_STATUS_MODE 1) (ozVerF 0) = 1 :=
    (fget_fset_off _ _ _ _ (by decide)).trans ((fget_fset_off _ _ _ _ (by decide)).trans v1)
  generalize epoch : (fget s OZP_EPOCH_EPOCH + 1) % 2 ^ 32 = e
  have run : exec .mirrorEnter s = .next (recomputeFloors (setReduction (dmkSend (modOzp
      (fset (fset s OZP_EPOCH_EPOCH e) OZP_STATUS_MODE 1) fun z => { z with mid := 0, awaits := [] }) 0x0A86 e) 1 false)) := by
    refine (show _ = execMirrorEnter s from rfl).trans ?_
    unfold execMirrorEnter
    rw [if_neg (by simp [up, alone]), epoch]
    dsimp only
    rw [fget_modOzp, ver e]
    rfl
  have low : e < 2 ^ 32 := epoch ▸ Nat.mod_lt _ (by decide)
  refine ⟨_, run, ?_, ?_, ?_⟩
  · rw [fget_recomputeFloors_unit (by decide), fget_setReduction_unit (by decide), fget_dmkSend_unit (by decide), fget_modOzp,
      fget_fset_same _ _ _ (by decide)]
    rfl
  · rw [fget_recomputeFloors_unit (by decide), fget_setReduction_unit (by decide), fget_dmkSend_unit (by decide), fget_modOzp,
      fget_fset_off _ _ _ _ (by decide), fget_fset_same _ _ _ (by decide)]
    exact Nat.mod_eq_of_lt low
  · refine (recomputeFloors_unchanged _ .ozp (by decide)).trans ((setReduction_unchanged _ _ _ .ozp (by decide)).trans ?_)
    exact ((ReportFrame.refl _).after_dmkSend _ _).parts .ozp (by decide)

section mack

variable {s : State} {base i seq : Nat} {c : Cmd} (held : s.ozp.awaits.find? (fun e => e.1 == base) = some (base, i))
  (one : s.cmds = [(seq, c)]) (its : c.mids = [base]) (applied : c.applied = true) (open_ : c.done = none)
include held one its applied open_

/-- The MACK of the last copy of the one command in flight ends it. -/
theorem mackOne_last : (∀ e ∈ (mackOne s base).ozp.awaits, e.1 ≠ base) ∧
    (getSlot (mackOne s base) i).mids = (getSlot s i).mids.filter (fun m => m != base) ∧
    ((getSlot (mackOne s base) i).acked = true ↔ ∀ m ∈ (getSlot s i).mids, m = base) ∧
    (∀ k, k ≠ i → getSlot (mackOne s base) k = getSlot s k) ∧
    getCmd (mackOne s base) seq = some { c with mids := [], done := some 0, result := seq % 2 ^ 32 } ∧
    Unchanged [.udc, .ozp, .cmds] s (mackOne s base) := by
  generalize marked : mapCmds (modSlot (modOzp s fun z => { z with awaits := z.awaits.filter (·.1 != base) }) i fun x =>
      { x with mids := x.mids.filter (· != base), acked := (x.mids.filter (· != base)).isEmpty })
    (fun c => { c with mids := c.mids.filter (· != base) }) = u
  have cmds : u.cmds = [(seq, { c with mids := [] })] := by
    rw [← marked]
    change s.cmds.map _ = _
    rw [one]
    simp [its]
  have here : getCmd u seq = some { c with mids := [] } := by simp [getCmd, cmds]
  have step : mackOne s base = setDone u seq 0 := by
    have folded : mackOne s base = u.cmds.foldl (fun s e => endIfCopied s e.1) u := by
      unfold mackOne
      rw [held]
      exact marked ▸ rfl
    rw [folded, cmds, List.foldl_cons, List.foldl_nil, endIfCopied, here]
    exact if_pos (by rw [applied]; rfl)
  have ended := setDone_unchanged u seq 0 none
  have slot (k : Nat) : getSlot (mackOne s base) k = if k = i then { getSlot s i with
      mids := (getSlot s i).mids.filter (· != base), acked := ((getSlot s i).mids.filter (· != base)).isEmpty } else getSlot s k := by
    rw [step, getSlot_congr (congrArg Undercoat.slots (ended .udc (by decide))), ← marked]
    exact getSlot_modSlot _ i k _
  have awaits : (mackOne s base).ozp.awaits = s.ozp.awaits.filter (·.1 != base) := by
    rw [step, ended .ozp (by decide), ← marked]
    rfl
  refine ⟨fun e he => ?_, ?_, ?_, fun k hk => (slot k).trans (if_neg hk), ?_, ?_⟩
  · rw [awaits, List.mem_filter] at he
    simpa using he.2
  · rw [slot, if_pos rfl]
  · rw [slot, if_pos rfl]
    simp [List.filter_eq_nil_iff]
  · rw [step, getCmd_setDone here open_]
    rfl
  · rw [step, unchanged_step ended (by decide), ← marked]
    intro part hpart
    cases part with
    | udc | ozp | cmds => exact absurd (by decide) hpart
    | _ => rfl

/-- A MACK of one copy. -/
theorem exec_mack {h : OzHdr} (up : ozState s 0 = 3) (mirrored : fget s OZP_STATUS_MODE = 1)
    (next : h.lseq = ((ozPort s 0).rxSeq + 1) % 4096) (calm : (ozPort s 0).waiting = []) :
    ∃ t, exec (.mack h base 1) s = .next t ∧ (∀ e ∈ t.ozp.awaits, e.1 ≠ base) ∧
      (getSlot t i).mids = (getSlot s i).mids.filter (fun m => m != base) ∧
      ((getSlot t i).acked = true ↔ ∀ m ∈ (getSlot s i).mids, m = base) ∧
      (∀ k, k ≠ i → getSlot t k = getSlot s k) ∧
      getCmd t seq = some { c with mids := [], done := some 0, result := seq % 2 ^ 32 } ∧ Unchanged [.udc, .ozp, .cmds] s t := by
  have run : exec (.mack h base 1) s = .next (mackOne (took s 0 h) base) := by
    have all : List.range 64 = 0 :: (List.range 63).map (· + 1) := by decide
    have rest (u : State) : ((List.range 63).map (· + 1)).foldl
        (fun s k => if 1 / 2 ^ k % 2 = 1 then mackOne s (base + k) else s) u = u := foldl_idle fun k hk => by
      obtain ⟨j, -, rfl⟩ := List.mem_map.mp hk
      rw [if_neg]
      rw [Nat.div_eq_of_lt (Nat.one_lt_two_pow (Nat.succ_ne_zero j))]
      decide
    refine (show _ = execMack h base 1 s from rfl).trans ?_
    unfold execMack
    rw [ozTake_three (by decide) up next calm]
    dsimp only
    rw [if_pos (by rw [took, ozState_modOz, up, fget_modOz, mirrored]; rfl), all, List.foldl_cons, rest]
    rfl
  obtain ⟨awaits, mids, acked, others, ended, frame⟩ := mackOne_last (s := took s 0 h) held one its applied open_
  exact ⟨_, run, awaits, mids, acked, others, ended, unchanged_trans (unchanged_mono (took_unchanged s 0 h) (by decide)) frame⟩

end mack

/-! ## Mirroring in (R471, R473) -/

/-- Frames that go out change the ports' records only. -/
theorem ozFlush_ozp (k : Nat) (s : State) (p : Nat) : ∃ ports, (ozFlush k s p).ozp = { s.ozp with ports := ports } := by
  induction k generalizing s with
  | zero => exact ⟨_, rfl⟩
  | succ k ih =>
    unfold ozFlush
    split
    · exact ⟨_, rfl⟩
    · split
      · obtain ⟨ports, rest⟩ := ih (ozEmit (modOz s p _) p _ _ _ _)
        exact ⟨ports, rest⟩
      · exact ⟨_, rfl⟩

theorem ozSend_ozp (s : State) (p typ bytes : Nat) (payload : List Nat) (blocks : List (List Byte)) :
    ∃ ports, (ozSend s p typ bytes payload blocks).ozp = { s.ozp with ports := ports } := by
  obtain ⟨ports, sent⟩ := ozFlush_ozp _ (modOz s p fun x =>
    { x with waiting := x.waiting ++ [(typ, frameLen bytes, payload, blocks)] }) p
  exact ⟨ports, sent⟩

theorem ozSend_inMap (s : State) (p typ bytes : Nat) (payload : List Nat) (blocks : List (List Byte)) :
    (ozSend s p typ bytes payload blocks).ozp.inMap = s.ozp.inMap := by
  obtain ⟨ports, sent⟩ := ozSend_ozp s p typ bytes payload blocks
  rw [sent]

section mirror

variable {old : MirrorCopy} {m : MirrorMsg} {b : Nat}

/-- The blocks a mask with one bit names. -/
theorem bits_of_two_pow {b : Nat} (hb : b < 4) : (List.range 4).filter (fun k => 2 ^ b / 2 ^ k % 2 == 1) = [b] := by
  decide +revert

/-- A frame with one block. -/
theorem mirrorStore_one (hb : b < 4) (sent : m.sent = 2 ^ b) (blocks : old.blocks.length = 4) (tags : old.tags.length = 4) :
    (mirrorStore old m).epoch = m.epoch ∧ (mirrorStore old m).mask = m.mask ∧
      (old.tags.getD b 0 < m.tags.getD b 0 → (mirrorStore old m).blocks.getD b 0 = m.blocks.getD 0 0 ∧
        (mirrorStore old m).tags.getD b 0 = m.tags.getD b 0) ∧
      (m.tags.getD b 0 ≤ old.tags.getD b 0 → (mirrorStore old m).blocks = old.blocks ∧ (mirrorStore old m).tags = old.tags) := by
  have only : (List.range 4).filter (fun k => m.sent / 2 ^ k % 2 == 1) = [b] := by
    rw [sent]
    exact bits_of_two_pow hb
  have stored : mirrorStore old m = if old.tags.getD b 0 < m.tags.getD b 0 then
      { old with mask := m.mask, clen := m.clen, gen := m.gen, epoch := m.epoch
                 id := { tenant := m.tenant, ns := m.ns, incarn := m.incarn, gran := m.gran }
                 blocks := setAt old.blocks b (m.blocks.getD 0 0), tags := setAt old.tags b (m.tags.getD b 0) }
      else { old with mask := m.mask, clen := m.clen, gen := m.gen, epoch := m.epoch
                      id := { tenant := m.tenant, ns := m.ns, incarn := m.incarn, gran := m.gran } } := by
    unfold mirrorStore
    rw [only]
    rfl
  rw [stored]
  split
  case isTrue newer =>
    refine ⟨rfl, rfl, fun _ => ⟨?_, ?_⟩, fun older => absurd newer (by omega)⟩
    · simp [setAt, List.getD_eq_getElem?_getD, blocks, hb]
    · simp [setAt, List.getD_eq_getElem?_getD, tags, hb]
  case isFalse older => exact ⟨rfl, rfl, fun newer => absurd newer older, fun _ => ⟨rfl, rfl⟩⟩

/-- The state with a MIRROR frame's copy stored. -/
def mirrorTaken (s : State) (h : OzHdr) (m : MirrorMsg) : State :=
  showIn (modOzp (took s 1 h) fun z => { z with inMap := tset {} z.inMap m.slot (mirrorStore (tget {} z.inMap m.slot) m) })

theorem ozPort_mirrorTaken (s : State) (h : OzHdr) (m : MirrorMsg) : ozPort (mirrorTaken s h m) 1 = tookPort s 1 h :=
  ozPort_took s 1 h

theorem exec_mirror {s : State} {h : OzHdr} (up : ozState s 1 = 3) (next : h.lseq = ((ozPort s 1).rxSeq + 1) % 4096)
    (calm : (ozPort s 1).waiting = []) (acked : (ozPort s 1).unacked = []) (hb : b < 4) (sent : m.sent = 2 ^ b)
    (held : old = tget {} s.ozp.inMap m.slot) (blocks : old.blocks.length = 4) (tags : old.tags.length = 4) :
    ∃ t x, exec (.mirror h m) s = .next t ∧ x = tget {} t.ozp.inMap m.slot ∧ x.epoch = m.epoch ∧ x.mask = m.mask ∧
      (old.tags.getD b 0 < m.tags.getD b 0 → x.blocks.getD b 0 = m.blocks.getD 0 0 ∧ x.tags.getD b 0 = m.tags.getD b 0) ∧
      (m.tags.getD b 0 ≤ old.tags.getD b 0 → x.blocks = old.blocks ∧ x.tags = old.tags) ∧
      (∀ k, k ≠ m.slot → tget {} t.ozp.inMap k = tget {} s.ozp.inMap k) ∧
      t.out = .ozFrame 1 4 (ozPort s 1).nextSeq h.lseq [m.mid, 1] [] :: s.out ∧ Unchanged [.regs, .ozp, .out] s t := by
  have run : exec (.mirror h m) s = .next (ozSend (mirrorTaken s h m) 1 4 16 [m.mid, 1]) := by
    refine (show _ = execMirror h m s from rfl).trans ?_
    unfold execMirror
    rw [ozTake_three (by decide) up next calm]
    dsimp only
    rw [if_pos (by rw [took, ozState_modOz, up]; rfl)]
    rfl
  have port := ozPort_mirrorTaken s h m
  have none : (tookPort s 1 h).unacked = [] := by simp [tookPort, acked, dropAcked]
  obtain ⟨out, -⟩ := ozSend_now (s := mirrorTaken s h m) (p := 1) (bytes := 16) (by rw [port]; exact calm)
    (by simp [ozRoom, port, none, frameLen]) 4 [m.mid, 1] [] rfl
  have inMap : (ozSend (mirrorTaken s h m) 1 4 16 [m.mid, 1]).ozp.inMap = tset {} s.ozp.inMap m.slot (mirrorStore old m) := by
    rw [held]
    exact ozSend_inMap _ _ _ _ _ _
  obtain ⟨epoch, mask, newer, older⟩ := mirrorStore_one hb sent blocks tags
  refine ⟨_, mirrorStore old m, run, ?_, epoch, mask, newer, older, fun k hk => ?_, ?_, ?_⟩
  · rw [inMap, tget_tset, if_pos rfl]
  · rw [inMap, tget_tset, if_neg hk]
  · rw [out, port]
    rfl
  · refine unchanged_trans ?_ (unchanged_mono (ozSend_unchanged _ _ _ _ _ _) (by decide))
    rw [mirrorTaken, showIn, after_fset _ _ (by decide), after_modOzp _ _ (by decide)]
    exact unchanged_mono (took_unchanged s 1 h) (by decide)

end mirror

theorem exec_release {s : State} {h : OzHdr} (slots : List Nat) (up : ozState s 1 = 3)
    (next : h.lseq = ((ozPort s 1).rxSeq + 1) % 4096) (calm : (ozPort s 1).waiting = []) :
    ∃ t, exec (.release h slots) s = .next t ∧ t.ozp.inMap = s.ozp.inMap.filter (fun e => !(slots.contains e.1)) ∧
      fget t OZP_IN_USED_SLOTS = t.ozp.inMap.length % 2 ^ 22 ∧ t.ozp.orphans = s.ozp.orphans ∧ Unchanged [.regs, .ozp] s t := by
  have run : exec (.release h slots) s = .next (showIn (modOzp (took s 1 h) fun z =>
      { z with inMap := z.inMap.filter fun e => !slots.contains e.1 })) := by
    refine (show _ = execRelease h slots s from rfl).trans ?_
    unfold execRelease
    rw [ozTake_three (by decide) up next calm]
    exact if_pos (by rw [took, ozState_modOz, up]; rfl)
  refine ⟨_, run, rfl, fget_fset_same _ _ _ (by decide), rfl, ?_⟩
  rw [showIn, after_fset _ _ (by decide), after_modOzp _ _ (by decide)]
  exact unchanged_mono (took_unchanged s 1 h) (by decide)

/-! ## Orphan sets (R475 to R477) -/

/-- What shows the orphan sets writes registers only, and SETS is their number. -/
theorem showOrphans_shows (s : State) : Unchanged [.regs] s (showOrphans s) ∧
    fget (showOrphans s) OZP_STATUS_SETS = s.ozp.orphans.length % 8 := by
  have counted : fget (fset (fset s OZP_STATUS_SETS s.ozp.orphans.length) OZP_ORPHAN_RECORDS (orphanCount
      (fset s OZP_STATUS_SETS s.ozp.orphans.length))) OZP_STATUS_SETS = s.ozp.orphans.length % 8 :=
    (fget_fset_off _ _ _ _ (by decide)).trans (fget_fset_same _ _ _ (by decide))
  have frame : Unchanged [.regs] s (fset (fset s OZP_STATUS_SETS s.ozp.orphans.length) OZP_ORPHAN_RECORDS (orphanCount
      (fset s OZP_STATUS_SETS s.ozp.orphans.length))) := unchanged_trans (fset_unchanged _ _ _) (fset_unchanged _ _ _)
  unfold showOrphans
  dsimp only
  split
  · split
    · exact ⟨unchanged_trans frame (fset_unchanged _ _ _), (fget_fset_off _ _ _ _ (by decide)).trans counted⟩
    · exact ⟨frame, counted⟩
  · exact ⟨frame, counted⟩

/-- A released set leaves no more than its report. -/
theorem releaseSets_shows (s : State) (p : OrphanSet → Bool) (code : Nat) :
    (releaseSets s p code).ozp = { s.ozp with orphans := s.ozp.orphans.filter fun o => !p o } ∧
      fget (releaseSets s p code) OZP_STATUS_SETS = (releaseSets s p code).ozp.orphans.length % 8 ∧
      Unchanged (.ozp :: reportParts) s (releaseSets s p code) := by
  have sent (n : Nat) (u : State) : Unchanged reportParts u ((List.range n).foldl (fun s _ => dmkSend s code 0) u) :=
    unchanged_foldl (fun u _ => ((ReportFrame.refl u).after_dmkSend code 0).parts) _ _
  generalize released : (List.range (s.ozp.orphans.countP p)).foldl (fun s _ => dmkSend s code 0)
    (modOzp s fun z => { z with orphans := z.orphans.filter fun o => !p o }) = u
  have frame : Unchanged reportParts (modOzp s fun z => { z with orphans := z.orphans.filter fun o => !p o }) u :=
    released ▸ sent _ _
  have whole : releaseSets s p code = showOrphans u := by rw [← released]; rfl
  obtain ⟨shown, sets⟩ := showOrphans_shows u
  have ozp : (showOrphans u).ozp = u.ozp := shown .ozp (by decide)
  rw [whole, ozp, sets]
  refine ⟨frame .ozp (by decide), rfl, ?_⟩
  rw [unchanged_step shown (by decide), unchanged_step frame (List.subset_cons_self _ _)]
  exact unchanged_mono (modOzp_unchanged s _) (by decide)

section purge

variable {s : State} {h : OzHdr} (uid boot below : Nat) (up : ozState s 1 = 3)
  (next : h.lseq = ((ozPort s 1).rxSeq + 1) % 4096) (calm : (ozPort s 1).waiting = [])
include up next calm

theorem exec_purge_v2 (v2 : fget s (ozVerF 1) = 2) : ∃ t, exec (.purge h uid boot below) s = .next t ∧
      t.ozp.inMap = s.ozp.inMap.filter (fun e => decide (below ≤ e.2.epoch)) ∧
      t.ozp.orphans = s.ozp.orphans.filter (fun o => !(o.uid == uid && o.boot == boot && decide (o.epoch < below))) ∧
      fget t OZP_STATUS_SETS = t.ozp.orphans.length % 8 ∧ Unchanged (.ozp :: reportParts) s t := by
  have run : exec (.purge h uid boot below) s = .next (releaseSets (showIn (modOzp (took s 1 h) fun z =>
      { z with inMap := z.inMap.filter fun e => below ≤ e.2.epoch }))
      (fun o => o.uid == uid && o.boot == boot && o.epoch < below) 0x0A83) := by
    refine (show _ = execPurge h uid boot below s from rfl).trans ?_
    unfold execPurge
    rw [ozTake_three (by decide) up next calm]
    dsimp only
    exact (if_neg (by decide)).trans (if_neg (not_not.mpr v2))
  obtain ⟨ozp, sets, frame⟩ := releaseSets_shows (showIn (modOzp (took s 1 h) fun z =>
      { z with inMap := z.inMap.filter fun e => below ≤ e.2.epoch }))
      (fun o => o.uid == uid && o.boot == boot && o.epoch < below) 0x0A83
  refine ⟨_, run, congrArg Ozper.inMap ozp, congrArg Ozper.orphans ozp, sets, unchanged_trans ?_ frame⟩
  rw [showIn, after_fset _ _ (by decide), after_modOzp _ _ (by decide)]
  exact unchanged_mono (took_unchanged s 1 h) (by decide)

theorem exec_purge_v1 (v1 : fget s (ozVerF 1) = 1) (few : (ozPort s 1).bad.length < 15) :
    ∃ t, exec (.purge h uid boot below) s = .next t ∧ t.ozp.inMap = s.ozp.inMap ∧ t.ozp.orphans = s.ozp.orphans ∧
      fget t OZP_CNT0_BAD_FRAME = min (fget s OZP_CNT0_BAD_FRAME + 1) 255 := by
  have run : exec (.purge h uid boot below) s = execBadFrame 1 true (took s 1 h) := by
    refine (show _ = execPurge h uid boot below s from rfl).trans ?_
    unfold execPurge
    rw [ozTake_three (by decide) up next calm]
    dsimp only
    exact (if_neg (by decide)).trans (if_pos (by rw [took, fget_modOz, v1]; decide))
  have live : ozUp (took s 1 h) 1 = true := up_of_three up
  have kept := List.length_filter_le (fun t => decide (s.tb.ns < t + 1000000)) (ozPort s 1).bad
  have bad : (ozPort (took s 1 h) 1).bad = (ozPort s 1).bad := by rw [ozPort_took]; rfl
  refine ⟨badCounted (took s 1 h) 1, run.trans ((exec_badFrame (by decide) live).trans (if_pos ?_)), rfl, rfl,
    fget_fbump _ _ (by decide)⟩
  rw [ozPort_badCounted, bad, List.length_append, List.length_singleton]
  exact Nat.succ_lt_succ (lt_of_le_of_lt kept few)

end purge

/-- The set of every mirror-in copy. -/
def westSet (s : State) : OrphanSet :=
  { uid := fget s OZP_PEER1_LO_UID + fget s OZP_PEER1_HI_UID * 2 ^ 32
    boot := (match (ozPort s 1).peer with | some c => c.boot | none => 0)
    epoch := (s.ozp.inMap.map fun e => e.2.epoch).foldl max 0, formed := s.tb.ns, hold := fget s OZP_HOLD_ORPHAN_HOLD
    records := s.ozp.inMap }

/-- A fifth set releases the oldest. -/
def roomForSet (s : State) : State :=
  if 4 ≤ s.ozp.orphans.length then dmkSend (modOzp s fun z => { z with orphans := z.orphans.drop 1 }) 0x0A83 0 else s

theorem roomForSet_ozp (s : State) : (roomForSet s).ozp = { s.ozp with
    orphans := (if 4 ≤ s.ozp.orphans.length then s.ozp.orphans.drop 1 else s.ozp.orphans) } ∧
    Unchanged (.ozp :: reportParts) s (roomForSet s) := by
  unfold roomForSet
  split
  · have sent := ((ReportFrame.refl (modOzp s fun z => { z with orphans := z.orphans.drop 1 })).after_dmkSend 0x0A83 0).parts
    exact ⟨sent .ozp (by decide), unchanged_trans (unchanged_mono (modOzp_unchanged s _) (by decide))
      (unchanged_mono sent (List.subset_cons_self _ _))⟩
  · exact ⟨rfl, unchanged_refl _ s⟩

theorem exec_westLinkLoss {s : State} (lost : (ozPort s 1).lost = true) : ∃ t o, exec .westLinkLoss s = .next t ∧
      t.ozp.inMap = [] ∧ o.records = s.ozp.inMap ∧ o.formed = s.tb.ns ∧
      t.ozp.orphans = (if 4 ≤ s.ozp.orphans.length then s.ozp.orphans.drop 1 else s.ozp.orphans) ++ [o] ∧
      fget t OZP_STATUS_SETS = t.ozp.orphans.length % 8 ∧ fget t OZP_IN_USED_SLOTS = 0 ∧ (ozPort t 1).lost = false ∧
      Unchanged (.ozp :: reportParts) s t := by
  generalize found : modOz s 1 (fun x => { x with lost := false }) = u
  generalize formed : modOzp (roomForSet u) (fun z => { z with orphans := z.orphans ++ [westSet u], inMap := [] }) = v
  have run : exec .westLinkLoss s = .next (raise (dmkSend (showIn (showOrphans v)) 0x0A81 0) 0xA81) := by
    refine (show _ = execWestLinkLoss s from rfl).trans ?_
    unfold execWestLinkLoss
    rw [if_neg (by rw [lost]; decide), ← formed, ← found]
    rfl
  obtain ⟨room, roomFrame⟩ := roomForSet_ozp u
  obtain ⟨shown, sets⟩ := showOrphans_shows v
  have ozp : v.ozp = { u.ozp with
      orphans := (if 4 ≤ s.ozp.orphans.length then s.ozp.orphans.drop 1 else s.ozp.orphans) ++ [westSet u], inMap := [] } := by
    have kept : u.ozp.orphans = s.ozp.orphans := by rw [← found]; rfl
    rw [← formed, ← kept]
    change { (roomForSet u).ozp with orphans := (roomForSet u).ozp.orphans ++ [westSet u], inMap := [] } = _
    rw [room]
  have reported : Unchanged reportParts (showIn (showOrphans v)) (raise (dmkSend (showIn (showOrphans v)) 0x0A81 0) 0xA81) :=
    unchanged_trans (((ReportFrame.refl _).after_dmkSend _ _).parts) (raise_unchanged _ _ _)
  have ozpEnd : (raise (dmkSend (showIn (showOrphans v)) 0x0A81 0) 0xA81).ozp = v.ozp :=
    (reported .ozp (by decide)).trans (shown .ozp (by decide))
  refine ⟨_, westSet u, run, ?_, ?_, ?_, ?_, ?_, ?_, ?_, ?_⟩
  · rw [ozpEnd, ozp]
  · rw [← found]
    rfl
  · rw [← found]
    rfl
  · rw [ozpEnd, ozp]
  · rw [ozpEnd, fget_raise_unit (by decide), fget_dmkSend_unit (by decide), showIn, fget_fset_off _ _ _ _ (by decide), sets]
  · rw [fget_raise_unit (by decide), fget_dmkSend_unit (by decide), showIn, fget_fset_same _ _ _ (by decide),
      shown .ozp (by decide), ozp]
    rfl
  · have port : ozPort v 1 = ozPort u 1 := by rw [ozPort, ozp, ozPort]
    rw [ozPort_congr ozpEnd, port, ← found, ozPort_modOz_same]
  · rw [unchanged_step reported (List.subset_cons_self _ _), showIn, after_fset _ _ (by decide), unchanged_step shown (by decide),
      ← formed, after_modOzp _ _ (by decide), unchanged_step roomFrame (List.Subset.refl _), ← found,
      after_modOz _ _ _ (by decide)]
    exact unchanged_refl _ s

theorem exec_orphanHoldExpiry {s : State} {o : OrphanSet} {rest : List OrphanSet} (held : s.ozp.orphans = o :: rest) :
    (o.formed + o.hold * 1000000000 ≤ s.tb.ns → ∃ t, exec .orphanHoldExpiry s = .next t ∧ t.ozp = { s.ozp with orphans := rest } ∧
      fget t OZP_STATUS_SETS = rest.length % 8 ∧ Unchanged (.ozp :: reportParts) s t) ∧
    (s.tb.ns < o.formed + o.hold * 1000000000 → exec .orphanHoldExpiry s = .next s) := by
  have run : exec .orphanHoldExpiry s = if o.formed + o.hold * 1000000000 ≤ s.tb.ns then
      .next (dmkSend (showOrphans (modOzp s fun z => { z with orphans := rest })) 0x0A87 0) else .next s := by
    refine (show _ = execOrphanHoldExpiry s from rfl).trans ?_
    unfold execOrphanHoldExpiry
    rw [held]
  refine ⟨fun expired => ⟨_, run.trans (if_pos expired), ?_, ?_, ?_⟩, fun early => run.trans (if_neg (Nat.not_le.mpr early))⟩
  all_goals
    obtain ⟨shown, sets⟩ := showOrphans_shows (modOzp s fun z => { z with orphans := rest })
    have sent := ((ReportFrame.refl (showOrphans (modOzp s fun z => { z with orphans := rest }))).after_dmkSend 0x0A87 0).parts
  · exact (sent .ozp (by decide)).trans (shown .ozp (by decide))
  · exact (fget_dmkSend_unit (by decide) _ _ _).trans sets
  · exact unchanged_trans (unchanged_mono (modOzp_unchanged s _) (by decide))
      (unchanged_trans (unchanged_mono shown (by decide)) (unchanged_mono sent (List.subset_cons_self _ _)))

theorem exec_orphanRelease {s : State} {n : Nat} {c : Cmd} (cmd : adminCmd s n 0x59 = some c) :
    ∃ t, exec (.orphanRelease n) s = .next t ∧ t.ozp = { s.ozp with orphans := [] } ∧ fget t OZP_STATUS_SETS = 0 ∧
      getCmd t n = some { c with done := some 0, result := n % 2 ^ 32 } ∧ Unchanged (.ozp :: .cmds :: reportParts) s t := by
  have run : exec (.orphanRelease n) s = .next (setDone (releaseSets s (fun _ => true) 0x0A83) n 0) := by
    refine (show _ = execOrphanRelease n s from rfl).trans ?_
    unfold execOrphanRelease
    rw [cmd]
  obtain ⟨ozp, sets, frame⟩ := releaseSets_shows s (fun _ => true) 0x0A83
  have empty : (releaseSets s (fun _ => true) 0x0A83).ozp = { s.ozp with orphans := [] } := by
    rw [ozp]
    simp
  have ended := setDone_unchanged (releaseSets s (fun _ => true) 0x0A83) n 0 none
  refine ⟨_, run, (ended .ozp (by decide)).trans empty, ?_, adminCmd_ends cmd (frame .cmds (by decide)) 0, ?_⟩
  · refine (fget_congr (rget_congr (ended .regs (by decide)) _)).trans (sets.trans ?_)
    rw [empty]
    rfl
  · exact unchanged_trans (unchanged_mono frame (by decide)) (unchanged_mono ended (by decide))

theorem exec_orphanRead {s : State} {n off : Nat} {c : Cmd} {bs : List Byte} (cmd : adminCmd s n 0x58 = some c)
    (start : off = c.sqe.cdw0 % 2 ^ 32 + c.sqe.cdw1 * 2 ^ 32) (bytes : bs = ((orphanImage s).drop off).take c.sqe.buf0Len) :
    (c.sqe.buf0Len ≠ 0 → c.sqe.buf0Len % 4 = 0 → c.sqe.buf0Len ≤ 1048576 → off % 4 = 0 →
      ∃ t, exec (.orphanRead n) s = .next t ∧ t.out = (hostPut s c.fid c.sqe.buf0 bs).out ∧
        getCmd t n = some { c with done := some 0, result := bs.length } ∧ Unchanged [.out, .cmds] s t) ∧
    (c.sqe.buf0Len = 0 ∨ c.sqe.buf0Len % 4 ≠ 0 ∨ 1048576 < c.sqe.buf0Len ∨ off % 4 ≠ 0 →
      ∃ t, exec (.orphanRead n) s = .next t ∧ getCmd t n = some { c with done := some 0x010A, result := n % 2 ^ 32 } ∧
        Unchanged [.cmds] s t) := by
  have run : exec (.orphanRead n) s = if c.sqe.buf0Len = 0 || c.sqe.buf0Len % 4 ≠ 0 || 1048576 < c.sqe.buf0Len || off % 4 ≠ 0 then
      .next (setDone s n 0x010A) else .next (setDone (hostPut s c.fid c.sqe.buf0 bs) n 0 (some bs.length)) := by
    refine (show _ = execOrphanRead n s from rfl).trans ?_
    unfold execOrphanRead
    rw [cmd, bytes, start]
  refine ⟨fun some_ words short whole => ?_, fun bad => ?_⟩
  · obtain ⟨ended, out, -, frame⟩ := hostPut_setDone cmd bs 0 (some bs.length)
    refine ⟨_, run.trans (if_neg ?_), out, ended, frame⟩
    simp [some_, words, whole, short]
  · refine ⟨_, run.trans (if_pos ?_), adminCmd_ends cmd rfl _, setDone_unchanged _ _ _ _⟩
    simpa [or_assoc] using bad

/-! ## Losing the east link (R474) -/

/-- Changing every slot of the table by a function that leaves an empty one empty. -/
theorem getSlot_map {s t : State} {f : Slot → Slot} (slots : t.udc.slots = s.udc.slots.map fun e => (e.1, f e.2))
    (empty : f {} = {}) (i : Nat) : getSlot t i = f (getSlot s i) := by
  rw [getSlot, slots, getSlot]
  induction s.udc.slots with
  | nil => exact empty.symm
  | cons e l ih =>
    obtain ⟨k, x⟩ := e
    rw [List.map_cons, tget, tget]
    split
    · rfl
    · exact ih

theorem exec_rewriteEnd {s : State} (single : fget s OZP_STATUS_MODE = 2) : ∃ t, exec .rewriteEnd s = .next t ∧
      fget t OZP_STATUS_MODE = 3 ∧
      (∀ i, (getSlot s i).acked = true → getSlot t i = { getSlot s i with acked := false, local2 := true }) ∧
      (∀ i, (getSlot s i).acked = false → getSlot t i = getSlot s i) ∧
      RegsBut [OZP_STATUS_MODE.off] s t ∧ Unchanged [.regs, .udc] s t := by
  have run : exec .rewriteEnd s = .next (modUdc (fset s OZP_STATUS_MODE 3) fun u => { u with slots := u.slots.map fun (i, x) =>
      (i, if x.acked then { x with acked := false, local2 := true } else x) }) := if_neg (not_not.mpr single)
  have slot (i : Nat) := getSlot_map (s := s) (t := modUdc (fset s OZP_STATUS_MODE 3) fun u => { u with slots := u.slots.map fun (i, x) =>
      (i, if x.acked then { x with acked := false, local2 := true } else x) })
      (f := fun x => if x.acked then { x with acked := false, local2 := true } else x) rfl rfl i
  refine ⟨_, run, fget_fset_same _ _ _ (by decide), fun i hi => (slot i).trans (if_pos hi),
    fun i hi => (slot i).trans (if_neg (by rw [hi]; decide)), regsBut_fset s 3 List.mem_cons_self, ?_⟩
  exact unchanged_trans (unchanged_mono (fset_unchanged s _ _) (by decide)) (unchanged_mono (modUdc_unchanged _ _) (by decide))

theorem endIfCopied_unchanged (s : State) (seq : Nat) : Unchanged [.cmds] s (endIfCopied s seq) := by
  unfold endIfCopied
  split
  · split
    · exact setDone_unchanged _ _ _ _
    · exact unchanged_refl _ s
  · exact unchanged_refl _ s

/-- A slot without its partner. -/
def singleSlot (x : Slot) : Slot := if x.mids.isEmpty then x else { x with mids := [], local2 := true, acked := false }

/-- Single-device mode as the slots and Ozper see it. -/
def singleMode (s : State) : State :=
  mapCmds (modUdc (modOzp (modOz (fset s OZP_STATUS_MODE 2) 0 fun x => { x with lost := false }) fun z => { z with awaits := [] })
    fun u => { u with slots := u.slots.map fun (i, x) =>
      (i, if x.mids.isEmpty then x else { x with mids := [], local2 := true, acked := false }) }) fun c => { c with mids := [] }

/-- The state after the writes that waited for the partner have ended. -/
def singleEnded (s : State) : State := (singleMode s).cmds.foldl (fun s e => endIfCopied s e.1) (singleMode s)

theorem exec_eastLinkLoss {s : State} (mirrored : fget s OZP_STATUS_MODE = 1) (down : ozState s 0 ≠ 3) :
    ∃ t, exec .eastLinkLoss s = .next t ∧ fget t OZP_STATUS_MODE = 2 ∧ t.ozp.awaits = [] ∧ (ozPort t 0).lost = false ∧
      (∀ i, (getSlot s i).mids ≠ [] → getSlot t i = { getSlot s i with mids := [], local2 := true, acked := false }) ∧
      (∀ i, (getSlot s i).mids = [] → getSlot t i = getSlot s i) ∧ t.nv = s.nv := by
  have run : exec .eastLinkLoss s =
      .next (raise (dmkSend (recomputeFloors (setReduction (singleEnded s) 1 true)) 0x0A80 0) 0xA80) :=
    if_neg (by simp [mirrored, down])
  have ended : Unchanged [.cmds] (singleMode s) (singleEnded s) := unchanged_foldl (fun _ _ => endIfCopied_unchanged _ _) _ _
  have reported : Unchanged (.tenants :: reportParts) (singleEnded s)
      (raise (dmkSend (recomputeFloors (setReduction (singleEnded s) 1 true)) 0x0A80 0) 0xA80) := by
    rw [after_raise _ _ (List.subset_cons_self _ _), after_dmkSend _ _ (List.subset_cons_self _ _)]
    exact unchanged_trans (unchanged_mono (setReduction_unchanged _ _ _) (by decide)) (recomputeFloors_unchanged _)
  have slot (i : Nat) : getSlot (raise (dmkSend (recomputeFloors (setReduction (singleEnded s) 1 true)) 0x0A80 0) 0xA80) i =
      singleSlot (getSlot s i) :=
    (getSlot_congr (congrArg Undercoat.slots ((reported .udc (by decide)).trans (ended .udc (by decide)))) i).trans
      (getSlot_map rfl rfl i)
  have ozp := (reported .ozp (by decide)).trans (ended .ozp (by decide))
  refine ⟨_, run, ?_, congrArg Ozper.awaits ozp, ?_, fun i hi => (slot i).trans (if_neg (by simpa using hi)),
    fun i hi => (slot i).trans (if_pos (by simpa using hi)), ?_⟩
  · rw [fget_raise_unit (by decide), fget_dmkSend_unit (by decide), fget_recomputeFloors_unit (by decide),
      fget_setReduction_unit (by decide), fget_congr (rget_congr (ended .regs (by decide)) _)]
    exact fget_fset_same s _ _ (by decide)
  · rw [ozPort_congr ozp]
    exact congrArg OzPort.lost (ozPort_modOz_same (fset s OZP_STATUS_MODE 2) 0 fun x => { x with lost := false })
  · exact (reported .nv (by decide)).trans (ended .nv (by decide))

/-- Settles O54. -/
theorem ozperMirroring : Obligations.OzperMirroring := by
  unfold Obligations.OzperMirroring
  exact ⟨fun s up alone v1 => exec_mirrorEnter up alone v1,
    fun s h base i seq c up mirrored next calm held one its applied open_ =>
      exec_mack held one its applied open_ up mirrored next calm,
    fun s h m b old up next calm acked hb sent held blocks tags => exec_mirror up next calm acked hb sent held blocks tags,
    fun s h slots up next calm => exec_release slots up next calm,
    fun s h uid boot below up next calm => ⟨exec_purge_v2 uid boot below up next calm, exec_purge_v1 uid boot below up next calm⟩,
    fun s mirrored down => exec_eastLinkLoss mirrored down,
    fun s single => exec_rewriteEnd single,
    fun s lost => exec_westLinkLoss lost,
    fun s o rest held => exec_orphanHoldExpiry held,
    fun s n c cmd => exec_orphanRelease cmd,
    fun s n off c bs cmd start bytes => exec_orphanRead cmd start bytes⟩

end Sys2Proof.Laws
end

section
/-!
PROOFS. The statement of 11_read_channel.md on disk operations (R346 to R350), with the rules of a data path's record.
-/

namespace Sys2Proof.Laws

open Sys2Proof.Machine

/-! ## A data path's record -/

section record

variable (s : State) (a : Nat)

theorem modRdc_unchanged (f : RdChan → RdChan) : Unchanged [.rdc] s (modRdc s a f) := by
  intro part hpart
  cases part with
  | rdc => exact absurd (by decide) hpart
  | _ => rfl

theorem modSrv_unchanged (f : Servo → Servo) : Unchanged [.srv] s (modSrv s a f) := by
  intro part hpart
  cases part with
  | srv => exact absurd (by decide) hpart
  | _ => rfl

theorem after_modRdc {P : List Part} {t : State} (f : RdChan → RdChan) (hP : [.rdc] ⊆ P) :
    Unchanged P s (modRdc t a f) ↔ Unchanged P s t := unchanged_step (modRdc_unchanged t a f) hP

theorem after_modSrv {P : List Part} {t : State} (f : Servo → Servo) (hP : [.srv] ⊆ P) :
    Unchanged P s (modSrv t a f) ↔ Unchanged P s t := unchanged_step (modSrv_unchanged t a f) hP

theorem getRdc_modRdc (f : RdChan → RdChan) (b : Nat) :
    getRdc (modRdc s a f) b = if b = a then f (getRdc s a) else getRdc s b := tget_tmod _ _ _ _ _

@[simp] theorem getRdc_modRdc_same (f : RdChan → RdChan) : getRdc (modRdc s a f) a = f (getRdc s a) :=
  (getRdc_modRdc s a f a).trans (if_pos rfl)

theorem getRdc_modRdc_ne (f : RdChan → RdChan) {b : Nat} (h : b ≠ a) : getRdc (modRdc s a f) b = getRdc s b :=
  (getRdc_modRdc s a f b).trans (if_neg h)

theorem getRdc_congr {s t : State} (h : t.rdc = s.rdc) (a : Nat) : getRdc t a = getRdc s a := by rw [getRdc, h, getRdc]

@[simp] theorem getRdc_fset (f : Fld) (x : Nat) : getRdc (fset s f x) a = getRdc s a := rfl
@[simp] theorem getRdc_fbump (f : Fld) (n : Nat) : getRdc (fbump s f n) a = getRdc s a := rfl
@[simp] theorem getRdc_emit (o : Out) : getRdc (emit s o) a = getRdc s a := rfl
@[simp] theorem getRdc_modSrv (f : Servo → Servo) (b : Nat) : getRdc (modSrv s b f) a = getRdc s a := rfl
@[simp] theorem getRdc_raise (src data : Nat) : getRdc (raise s src data) a = getRdc s a :=
  getRdc_congr (raise_unchanged s src data .rdc (by decide)) a
@[simp] theorem getRdc_dmkSend (code data : Nat) : getRdc (dmkSend s code data) a = getRdc s a :=
  getRdc_congr (((ReportFrame.refl s).after_dmkSend code data).parts .rdc (by decide)) a
@[simp] theorem fget_modRdc (f : RdChan → RdChan) (g : Fld) : fget (modRdc s a f) g = fget s g := rfl
@[simp] theorem fget_modSrv (f : Servo → Servo) (g : Fld) : fget (modSrv s a f) g = fget s g := rfl

end record

/-- The other data paths keep their records. -/
abbrev RdcOthers (a : Nat) (s t : State) : Prop := ∀ b, b ≠ a → getRdc t b = getRdc s b

theorem rdcOthers_modRdc (s : State) (a : Nat) (f : RdChan → RdChan) : RdcOthers a s (modRdc s a f) :=
  fun _ h => getRdc_modRdc_ne s a f h

theorem RdcOthers.trans {a : Nat} {s t u : State} (h : RdcOthers a s t) (k : RdcOthers a t u) : RdcOthers a s u :=
  fun b hb => (k b hb).trans (h b hb)

theorem rdcOthers_congr {a : Nat} {s t : State} (h : t.rdc = s.rdc) : RdcOthers a s t := fun b _ => getRdc_congr h b

/-- A change of a data path's record that leaves its operations, completions and staged units. -/
structure SameOps (a : Nat) (s t : State) : Prop where
  queue : (getRdc t a).queue = (getRdc s a).queue
  run : (getRdc t a).run = (getRdc s a).run
  done : (getRdc t a).done = (getRdc s a).done
  staging : (getRdc t a).staging = (getRdc s a).staging

section sameOps

variable {a : Nat} {s t u : State}

theorem SameOps.trans (h : SameOps a s t) (k : SameOps a t u) : SameOps a s u :=
  ⟨k.queue.trans h.queue, k.run.trans h.run, k.done.trans h.done, k.staging.trans h.staging⟩

theorem sameOps_of_eq (h : getRdc t a = getRdc s a) : SameOps a s t := by constructor <;> rw [h]

theorem sameOps_congr (h : t.rdc = s.rdc) : SameOps a s t := sameOps_of_eq (getRdc_congr h a)

theorem sameOps_refl (s : State) : SameOps a s s := sameOps_of_eq rfl

/-- A record update that touches none of the four. -/
theorem sameOps_modRdc {g : RdChan → RdChan}
    (h : ∀ r, (g r).queue = r.queue ∧ (g r).run = r.run ∧ (g r).done = r.done ∧ (g r).staging = r.staging) :
    SameOps a s (modRdc s a g) := by
  obtain ⟨queue, run, done, staging⟩ := h (getRdc s a)
  constructor <;> rwa [getRdc_modRdc_same]

theorem sameOps_foldl {β : Type} {f : State → β → State} (h : ∀ s x, SameOps a s (f s x)) (l : List β) (s : State) :
    SameOps a s (l.foldl f s) := by
  induction l generalizing s with
  | nil => exact sameOps_refl s
  | cons x l ih => exact (h s x).trans (ih _)

end sameOps

/-! ## Requests to the link and the servo -/

/-- A request: a data path's own frames and its servo may change, its operations and every register stay. -/
structure Requested (a : Nat) (s t : State) : Prop where
  ops : SameOps a s t
  others : RdcOthers a s t
  frame : Unchanged [.rdc, .srv] s t

namespace Requested

variable {a : Nat} {s t : State}

theorem refl (s : State) : Requested a s s := ⟨sameOps_refl s, fun _ _ => rfl, unchanged_refl _ s⟩

theorem trans {u : State} (h : Requested a s t) (k : Requested a t u) : Requested a s u :=
  ⟨h.ops.trans k.ops, h.others.trans k.others, unchanged_trans h.frame k.frame⟩

theorem pushFrame (s : State) (f : Frame) : Requested a s (pushFrame s a f) :=
  ⟨sameOps_modRdc fun _ => ⟨rfl, rfl, rfl, rfl⟩, rdcOthers_modRdc s a _, unchanged_mono (modRdc_unchanged s a _) (by decide)⟩

theorem modSrv (s : State) (b : Nat) (f : Servo → Servo) : Requested a s (modSrv s b f) :=
  ⟨sameOps_congr rfl, fun _ _ => rfl, unchanged_mono (modSrv_unchanged s b f) (by decide)⟩

theorem setMode (s : State) (m : Nat) (urgent : Bool) : Requested a s (setMode s a m urgent) := pushFrame s _

theorem heaterOff (s : State) : Requested a s (heaterOff s a) := by
  unfold Machine.heaterOff
  split
  · split
    · exact refl s
    · exact pushFrame s _
  · exact refl s

theorem switchHeads (s : State) (head : Nat) : Requested a s (switchHeads s a head) :=
  (pushFrame s _).trans ((pushFrame _ _).trans (modSrv _ a _))

theorem requestPlace (s : State) (cyl head : Nat) (ofs : Rat) : Requested a s (requestPlace s a cyl head ofs) := by
  unfold Machine.requestPlace
  extract_lets v s'
  have switched : Requested a s s' := by
    change Requested a s (if _ then _ else _)
    split
    · exact refl s
    · exact switchHeads s head
  split
  · exact switched
  · exact switched.trans (modSrv _ a _)

theorem requestHeat (s : State) (head : Nat) (write : Bool) : Requested a s (requestHeat s a head write) := by
  unfold Machine.requestHeat
  extract_lets r code s'
  have cooled : Requested a s s' := by
    change Requested a s (if _ then _ else _)
    split
    · exact refl s
    · exact heaterOff s
  split
  · exact cooled
  · exact cooled.trans (pushFrame _ _)

end Requested

/-! ## The end of an operation (R347) -/

theorem showRdc_shows (s : State) (a : Nat) : (showRdc s a).rdc = s.rdc ∧ Unchanged [.regs] s (showRdc s a) ∧
    RegsBut [(rdcF RDC_ACT_STATE_STATE a).off] s (showRdc s a) := by
  unfold showRdc
  dsimp only
  split
  · exact ⟨rfl, unchanged_refl _ s, regsBut_refl _ s⟩
  · exact ⟨rfl, fset_unchanged s _ _, regsBut_fset s _ List.mem_cons_self⟩

/-- The record of a data path whose operation `o` has ended. -/
structure Finished (a : Nat) (s t : State) (d : DiskDone) : Prop where
  queue : (getRdc t a).queue = (getRdc s a).queue
  run : (getRdc t a).run = none
  gate : (getRdc t a).gate = false
  done : (getRdc t a).done = (getRdc s a).done ++ [d]
  staging : (getRdc t a).staging = (getRdc s a).staging
  others : RdcOthers a s t
  regs : RegsBut [(rdcF RDC_ACT_STATE_STATE a).off] s t
  frame : Unchanged [.regs, .rdc, .out] s t

/-- The completion an operation ends with. -/
def diskDone (o : DiskOp) (status fail : Nat) : DiskDone := { reply := o.reply, write := o.write, status := status, fail := fail }

/-- The record of a data path after the end of its operation. -/
theorem finishDisk_record (s : State) (a : Nat) (o : DiskOp) (status fail : Nat) (urgent : Bool) :
    getRdc (finishDisk s a o status fail urgent) a = { getRdc s a with
      done := (getRdc s a).done ++ [diskDone o status fail], run := none, gate := false, idleNs := s.tb.ns
      frames := (getRdc s a).frames ++ [{ cls := if urgent then 1 else 2, addr := 1, data := some 2 }] } := by
  rw [finishDisk, getRdc_congr (showRdc_shows _ a).1, setMode, Machine.pushFrame, getRdc_modRdc_same, getRdc_modRdc_same, postDisk,
    getRdc_emit, getRdc_modRdc_same]
  rfl

theorem finishDisk_shows (s : State) (a : Nat) (o : DiskOp) (status fail : Nat) (urgent : Bool) :
    Finished a s (finishDisk s a o status fail urgent) (diskDone o status fail) := by
  generalize asked : setMode (modRdc (postDisk s a o status fail) a fun r =>
    { r with run := none, gate := false, idleNs := s.tb.ns }) a 2 urgent = u
  have ended : finishDisk s a o status fail urgent = showRdc u a := by rw [← asked]; rfl
  obtain ⟨rdc, shown, regs⟩ := showRdc_shows u a
  have final := finishDisk_record s a o status fail urgent
  refine ⟨by rw [final], by rw [final], by rw [final], by rw [final], by rw [final], fun b hb => ?_, ?_, ?_⟩
  · rw [ended, getRdc_congr rdc, ← asked, setMode, Machine.pushFrame, getRdc_modRdc_ne _ _ _ hb, getRdc_modRdc_ne _ _ _ hb,
      postDisk, getRdc_emit, getRdc_modRdc_ne _ _ _ hb]
  · rw [ended]
    intro k hk
    exact (regs k hk).trans (by rw [← asked]; rfl)
  · rw [ended, unchanged_step shown (by decide), ← asked, setMode, Machine.pushFrame, after_modRdc _ _ _ (by decide),
      after_modRdc _ _ _ (by decide), postDisk, after_emit _ (by decide), after_modRdc _ _ _ (by decide)]
    exact unchanged_refl _ s

/-! ## Units in staging slots (R346, R348) -/

/-- What staging units leaves. -/
structure Staged (a : Nat) (s t : State) : Prop where
  queue : (getRdc t a).queue = (getRdc s a).queue
  run : (getRdc t a).run = (getRdc s a).run
  done : (getRdc t a).done = (getRdc s a).done
  others : RdcOthers a s t
  frame : Unchanged [.rdc] s t

theorem Staged.refl (a : Nat) (s : State) : Staged a s s := ⟨rfl, rfl, rfl, fun _ _ => rfl, unchanged_refl _ s⟩

theorem Staged.trans {a : Nat} {s t u : State} (h : Staged a s t) (k : Staged a t u) : Staged a s u :=
  ⟨k.queue.trans h.queue, k.run.trans h.run, k.done.trans h.done, h.others.trans k.others, unchanged_trans h.frame k.frame⟩

/-- One unit goes into its slot. -/
def stageUnit (s : State) (a slot tag u : Nat) : State :=
  modRdc s a fun r => { r with staging := tset 0 r.staging slot u, tags := tset 0 r.tags slot tag }

theorem stageUnit_staged (s : State) (a slot tag u : Nat) : Staged a s (stageUnit s a slot tag u) := by
  refine ⟨?_, ?_, ?_, rdcOthers_modRdc s a _, modRdc_unchanged s a _⟩ <;> rw [stageUnit, getRdc_modRdc_same]

theorem stageUnit_slot (s : State) (a slot tag u k : Nat) :
    tget 0 (getRdc (stageUnit s a slot tag u) a).staging k = (if k = slot then u else tget 0 (getRdc s a).staging k) ∧
      tget 0 (getRdc (stageUnit s a slot tag u) a).tags k = if k = slot then tag else tget 0 (getRdc s a).tags k := by
  rw [stageUnit, getRdc_modRdc_same]
  exact ⟨tget_tset _ _ _ _ _, tget_tset _ _ _ _ _⟩

section stage

variable {s : State} {a tag : Nat}

theorem stageUnits_staged (us : List Nat) (s : State) (slot : Nat) : Staged a s (stageUnits s a slot tag us) := by
  induction us generalizing s slot with
  | nil => exact Staged.refl a s
  | cons u us ih => exact (stageUnit_staged s a slot tag u).trans (ih _ _)

/-- The slots beside the staged ones. -/
theorem stageUnits_beside (us : List Nat) (s : State) {slot k : Nat} (hk : k < slot ∨ slot + us.length ≤ k) :
    tget 0 (getRdc (stageUnits s a slot tag us) a).staging k = tget 0 (getRdc s a).staging k ∧
      tget 0 (getRdc (stageUnits s a slot tag us) a).tags k = tget 0 (getRdc s a).tags k := by
  induction us generalizing s slot with
  | nil => exact ⟨rfl, rfl⟩
  | cons u us ih =>
    rw [List.length_cons] at hk
    obtain ⟨unit, tagged⟩ := stageUnit_slot s a slot tag u k
    have here : k ≠ slot := by omega
    obtain ⟨units, tags⟩ := ih (stageUnit s a slot tag u) (slot := slot + 1) (by omega)
    exact ⟨units.trans (unit.trans (if_neg here)), tags.trans (tagged.trans (if_neg here))⟩

/-- The staged units and their tags. -/
theorem stageUnits_slots (us : List Nat) (s : State) (slot : Nat) : ∀ i < us.length,
    tget 0 (getRdc (stageUnits s a slot tag us) a).staging (slot + i) = us.getD i 0 ∧
      tget 0 (getRdc (stageUnits s a slot tag us) a).tags (slot + i) = tag := by
  induction us generalizing s slot with
  | nil => exact fun i hi => absurd hi (Nat.not_lt_zero i)
  | cons u us ih =>
    intro i hi
    cases i with
    | zero =>
      obtain ⟨unit, tagged⟩ := stageUnit_slot s a slot tag u slot
      obtain ⟨units, tags⟩ := stageUnits_beside (a := a) (tag := tag) us (stageUnit s a slot tag u) (slot := slot + 1) (k := slot)
        (by omega)
      exact ⟨units.trans (unit.trans (if_pos rfl)), tags.trans (tagged.trans (if_pos rfl))⟩
    | succ i =>
      have rest := ih (stageUnit s a slot tag u) (slot + 1) i (Nat.lt_of_succ_lt_succ hi)
      rwa [Nat.add_right_comm, Nat.add_assoc] at rest

/-- Units put one by one into the slots of a list. -/
def stageEach (s : State) (a slot tag : Nat) (f : Nat → Nat) (l : List Nat) : State :=
  l.foldl (fun s i => stageUnits s a (slot + i) tag [f i]) s

theorem stageEach_staged (slot : Nat) (f : Nat → Nat) (l : List Nat) (s : State) : Staged a s (stageEach s a slot tag f l) := by
  induction l generalizing s with
  | nil => exact Staged.refl a s
  | cons i l ih => exact (stageUnits_staged [f i] s (slot + i)).trans (ih _)

theorem stageEach_beside (slot : Nat) (f : Nat → Nat) (l : List Nat) (s : State) {k : Nat} (hk : ∀ i ∈ l, k ≠ slot + i) :
    tget 0 (getRdc (stageEach s a slot tag f l) a).staging k = tget 0 (getRdc s a).staging k := by
  induction l generalizing s with
  | nil => rfl
  | cons i l ih =>
    refine (ih _ fun j hj => hk j (List.mem_cons_of_mem i hj)).trans ?_
    exact ((stageUnit_slot s a (slot + i) tag (f i) k).1).trans (if_neg (hk i List.mem_cons_self))

theorem stageEach_slots (slot : Nat) (f : Nat → Nat) (l : List Nat) (s : State) : ∀ i ∈ l,
    tget 0 (getRdc (stageEach s a slot tag f l) a).staging (slot + i) = f i := by
  induction l generalizing s with
  | nil => exact fun i hi => absurd hi List.not_mem_nil
  | cons i l ih =>
    intro j hj
    by_cases later : j ∈ l
    · exact ih _ j later
    · obtain rfl : j = i := (List.mem_cons.mp hj).resolve_right later
      refine (stageEach_beside slot f l _ fun k hk same => later (by rwa [Nat.add_left_cancel same])).trans ?_
      exact ((stageUnit_slot s a (slot + j) tag (f j) (slot + j)).1).trans (if_pos rfl)

end stage

/-! ## Arrival (R346) -/

section arrival

variable {s : State} {a : Nat} {o : DiskOp} (serves : rdcServes s a = true)
include serves

theorem state_of_serves : fget s (rdcF RDC_ACT_STATE_STATE a) ≠ 0 := fun off => by
  rw [rdcServes, off] at serves
  exact absurd serves (by decide)

theorem arrive_fenced (fenced : rdcFenced s = true) (units : List Nat) : arrive s a o units =
    postDisk s a o 0x43 (failMap (List.range (if o.write then (actZone s a o.band).2.frag else o.count))) :=
  (if_neg (state_of_serves serves)).trans (if_pos fenced)

theorem arrive_joins (open_ : rdcFenced s = false) (room : (getRdc s a).queue.length < 64) (units : List Nat) :
    arrive s a o units = modRdc (stageUnits s a o.slot0 o.tag units) a fun r => { r with queue := r.queue ++ [o] } :=
  (if_neg (state_of_serves serves)).trans ((if_neg (by rw [open_]; decide)).trans
    ((if_neg (by rw [serves]; decide)).trans (if_neg (Nat.not_le.mpr room))))

end arrival

section requests

variable {s : State} {a : Nat} (low : a < 32) (serves : rdcServes s a = true)
include low serves

theorem exec_diskRead_joins (r : DiskReq) (open_ : rdcFenced s = false) (room : (getRdc s a).queue.length < 64) :
    ∃ t, exec (.diskRead a r) s = .next t ∧ (getRdc t a).queue = (getRdc s a).queue ++ [diskOpOf r false s.tb.ns] ∧
      (getRdc t a).run = (getRdc s a).run ∧ (getRdc t a).done = (getRdc s a).done ∧ Unchanged [.rdc] s t := by
  refine ⟨_, (if_pos low).trans (congrArg _ (arrive_joins serves open_ room [])), ?_, ?_, ?_, modRdc_unchanged s a _⟩
  all_goals
    rw [getRdc_modRdc_same]
    rfl

theorem exec_diskWrite_joins (r : DiskReq) (open_ : rdcFenced s = false) (room : (getRdc s a).queue.length < 64) :
    ∃ t, exec (.diskWrite a (some r) 0) s = .next t ∧
      (getRdc t a).queue = (getRdc s a).queue ++ [diskOpOf r true s.tb.ns] ∧ (getRdc t a).run = (getRdc s a).run ∧
      (∀ i < r.units.length, tget 0 (getRdc t a).staging (r.slot0 + i) = r.units.getD i 0 ∧
        tget 0 (getRdc t a).tags (r.slot0 + i) = r.tag) ∧
      (∀ k, k < r.slot0 ∨ r.slot0 + r.units.length ≤ k → tget 0 (getRdc t a).staging k = tget 0 (getRdc s a).staging k) ∧
      (∀ b, b ≠ a → getRdc t b = getRdc s b) ∧ Unchanged [.rdc] s t := by
  have staged := stageUnits_staged (a := a) (tag := r.tag) r.units s r.slot0
  have slots := stageUnits_slots (a := a) (tag := r.tag) r.units s r.slot0
  have beside := fun k => stageUnits_beside (a := a) (tag := r.tag) r.units s (slot := r.slot0) (k := k)
  have run : exec (.diskWrite a (some r) 0) s = .next (modRdc (stageUnits s a r.slot0 r.tag r.units) a fun x =>
      { x with queue := x.queue ++ [diskOpOf r true s.tb.ns] }) :=
    (if_neg (Nat.not_le.mpr low)).trans (congrArg _ (arrive_joins serves open_ room r.units))
  generalize stageUnits s a r.slot0 r.tag r.units = u at staged slots beside run
  refine ⟨_, run, ?_, ?_, fun i hi => ?_, fun k hk => ?_, staged.others.trans (rdcOthers_modRdc u a _), ?_⟩
  · rw [getRdc_modRdc_same, staged.queue]
  · rw [getRdc_modRdc_same, staged.run]
  · rw [getRdc_modRdc_same]
    exact slots i hi
  · rw [getRdc_modRdc_same]
    exact (beside k hk).1
  · rw [after_modRdc _ _ _ (by decide)]
    exact staged.frame

theorem exec_diskRead_fenced (r : DiskReq) (fenced : rdcFenced s = true) :
    ∃ t, exec (.diskRead a r) s = .next t ∧ (getRdc t a).queue = (getRdc s a).queue ∧
      (getRdc t a).done = (getRdc s a).done ++ [{ reply := r.reply, write := false, status := 0x43
                                                  fail := failMap (List.range r.count) }] ∧
      t.out = .mediaDone (0x600 + a) r.reply 0x43 :: s.out ∧ Unchanged [.rdc, .out] s t := by
  refine ⟨_, (if_pos low).trans (congrArg _ (arrive_fenced serves fenced [])), ?_, ?_, rfl, ?_⟩
  · rw [postDisk, getRdc_emit, getRdc_modRdc_same]
  · rw [postDisk, getRdc_emit, getRdc_modRdc_same]
    rfl
  · rw [postDisk, after_emit _ (by decide), after_modRdc _ _ _ (by decide)]
    exact unchanged_refl _ s

end requests

/-! ## Selection (R346) -/

section selection

variable {s : State} {a : Nat} {o : DiskOp} (low : a < 32) (serves : rdcServes s a = true) (open_ : rdcFenced s = false)
  (free : (getRdc s a).run = none) (noCal : (getRdc s a).calRun = none) (chosen : chooseOp s a = some o)

/-- The state with the chosen operation taken out of the queue. -/
def opTaken (s : State) (a : Nat) (o : DiskOp) : State :=
  modRdc s a fun r => { r with
    queue := (r.queue.erase o).map fun p => { p with passed := p.passed + 1 }
    run := some { o with waitNs := some s.tb.ns } }

/-- The state with the zone of the chosen operation shown. -/
def zoneShown (s : State) (a : Nat) (o : DiskOp) : State :=
  showRdc (fset (opTaken s a o) (rdcF RDC_ACT_STATE_ZONE a) (actZone (opTaken s a o) a o.band).1) a

theorem zoneShown_shows (s : State) (a : Nat) (o : DiskOp) : (zoneShown s a o).rdc = (opTaken s a o).rdc ∧
    RegsBut [(rdcF RDC_ACT_STATE_ZONE a).off] s (zoneShown s a o) ∧ Unchanged [.regs, .rdc] s (zoneShown s a o) := by
  obtain ⟨rdc, frame, regs⟩ := showRdc_shows (fset (opTaken s a o) (rdcF RDC_ACT_STATE_ZONE a) (actZone (opTaken s a o) a o.band).1) a
  refine ⟨rdc, regsBut_trans ?_ regs, ?_⟩
  · exact regsBut_fset (opTaken s a o) _ List.mem_cons_self
  · refine (unchanged_step frame (by decide)).mpr ?_
    rw [after_fset _ _ (by decide), opTaken, after_modRdc _ _ _ (by decide)]
    exact unchanged_refl _ s

/-- A servo's word is no word of a data path. -/
theorem srvState_zoneShown (low : a < 32) : srvState (zoneShown s a o) a = srvState s a := by
  obtain ⟨-, regs, -⟩ := zoneShown_shows s a o
  refine fget_regsBut regs ?_
  rw [List.mem_singleton]
  simp only [srvF, rdcF, Fld.ix, SRV_ACT_STATE, RDC_ACT_STATE_ZONE]
  omega

include low serves open_ free noCal chosen

theorem exec_diskOpSelect : exec (.diskOpSelect a) s =
    if srvState (zoneShown s a o) a = 11 ∨ srvState (zoneShown s a o) a = 12 then
      .next (finishDisk (zoneShown s a o) a o 0x40
        (failMap (List.range (if o.write then (actZone (opTaken s a o) a o.band).2.frag else o.count))))
    else .next (requestHeat (requestPlace (zoneShown s a o) a (fragPlace (zoneShown s a o) a o.band o.frag).1
      (fragPlace (zoneShown s a o) a o.band o.frag).2 0) a (fragPlace (zoneShown s a o) a o.band o.frag).2 o.write) := by
  refine (show _ = execDiskOpSelect a s from rfl).trans ?_
  unfold execDiskOpSelect
  have starts : ¬((decide (32 ≤ a) || (getRdc s a).run.isSome || (getRdc s a).calRun.isSome || !rdcServes s a || rdcFenced s) = true) := by
    simp [free, noCal, serves, open_, low]
  dsimp only
  rw [if_neg starts, chosen]
  dsimp only
  simp only [Bool.or_eq_true, decide_eq_true_eq]
  rfl

theorem exec_diskOpSelect_starts (ready : srvState s a ≠ 11) (found : srvState s a ≠ 12) :
    ∃ t, exec (.diskOpSelect a) s = .next t ∧ (getRdc t a).run = some { o with waitNs := some s.tb.ns } ∧
      (getRdc t a).queue = ((getRdc s a).queue.erase o).map (fun p => { p with passed := p.passed + 1 }) ∧
      (getRdc t a).done = (getRdc s a).done ∧ (∀ b, b ≠ a → getRdc t b = getRdc s b) ∧
      RegsBut [(rdcF RDC_ACT_STATE_ZONE a).off] s t ∧ Unchanged [.regs, .rdc, .srv] s t := by
  obtain ⟨rdc, regs, frame⟩ := zoneShown_shows s a o
  have run := exec_diskOpSelect low serves open_ free noCal chosen
  rw [srvState_zoneShown low, if_neg (by simp [ready, found])] at run
  have asked := (Requested.requestPlace (a := a) (zoneShown s a o) (fragPlace (zoneShown s a o) a o.band o.frag).1
    (fragPlace (zoneShown s a o) a o.band o.frag).2 0).trans
      (Requested.requestHeat _ (fragPlace (zoneShown s a o) a o.band o.frag).2 o.write)
  have taken : getRdc (zoneShown s a o) a = { getRdc s a with
      queue := ((getRdc s a).queue.erase o).map fun p => { p with passed := p.passed + 1 }
      run := some { o with waitNs := some s.tb.ns } } := (getRdc_congr rdc a).trans (getRdc_modRdc_same s a _)
  refine ⟨_, run, ?_, ?_, ?_, ?_, ?_, ?_⟩
  · rw [asked.ops.run, taken]
  · rw [asked.ops.queue, taken]
  · rw [asked.ops.done, taken]
  · exact RdcOthers.trans (fun b hb => (getRdc_congr rdc b).trans (getRdc_modRdc_ne s a _ hb)) asked.others
  · exact regsBut_trans regs fun k _ => rget_congr (asked.frame .regs (by decide)) k
  · exact unchanged_trans (unchanged_mono frame (by decide)) (unchanged_mono asked.frame (by decide))

theorem exec_diskOpSelect_stranded (stranded : srvState s a = 11 ∨ srvState s a = 12) :
    ∃ t, exec (.diskOpSelect a) s = .next t ∧ (getRdc t a).run = none ∧
      (∃ d, (getRdc t a).done = (getRdc s a).done ++ [d] ∧ d.reply = o.reply ∧ d.write = o.write ∧ d.status = 0x40) ∧
      (getRdc t a).queue = ((getRdc s a).queue.erase o).map (fun p => { p with passed := p.passed + 1 }) ∧
      Unchanged [.regs, .rdc, .out] s t := by
  obtain ⟨rdc, regs, frame⟩ := zoneShown_shows s a o
  have run := exec_diskOpSelect low serves open_ free noCal chosen
  rw [srvState_zoneShown low, if_pos stranded] at run
  have ended := finishDisk_shows (zoneShown s a o) a o 0x40
    (failMap (List.range (if o.write then (actZone (opTaken s a o) a o.band).2.frag else o.count))) false
  have taken : getRdc (zoneShown s a o) a = { getRdc s a with
      queue := ((getRdc s a).queue.erase o).map fun p => { p with passed := p.passed + 1 }
      run := some { o with waitNs := some s.tb.ns } } := (getRdc_congr rdc a).trans (getRdc_modRdc_same s a _)
  refine ⟨_, run, ended.run, ⟨_, ended.done.trans (by rw [taken]), rfl, rfl, rfl⟩, ended.queue.trans (by rw [taken]), ?_⟩
  exact unchanged_trans (unchanged_mono frame (by decide)) ended.frame

end selection

/-! ## Writing (R350) -/

section writing

variable {s : State} {a n : Nat} {o : DiskOp}

/-- Where a WRITE stands after `n` further sectors. -/
def writtenTo (s : State) (a n : Nat) (o : DiskOp) : DiskOp :=
  { o with next := min (actZone s a o.band).2.frag (o.next + n), waitNs := none }

theorem writeSectors_record : getRdc (writeSectors s a o n) a = { getRdc s a with run := some (writtenTo s a n o) } :=
  getRdc_modRdc_same _ _ _

theorem writeSectors_unchanged (s : State) (a : Nat) (o : DiskOp) (n : Nat) : Unchanged [.rdc, .nv] s (writeSectors s a o n) := by
  intro part hpart
  cases part with
  | rdc | nv => exact absurd (by decide) hpart
  | _ => rfl

theorem writeSectors_others : RdcOthers a s (writeSectors s a o n) := rdcOthers_modRdc _ a _

/-- The fragment's units after `n` further sectors. -/
theorem writeSectors_platter : (∀ i < (actZone s a o.band).2.frag,
      (tget [] (writeSectors s a o n).nv.platter (platterKey a o.band o.frag)).getD i 0 =
        if o.next ≤ i ∧ i < o.next + n then tget 0 (getRdc s a).staging (o.slot0 + i)
        else (tget [] s.nv.platter (platterKey a o.band o.frag)).getD i 0) ∧
    ∀ k, k ≠ platterKey a o.band o.frag → tget [] (writeSectors s a o n).nv.platter k = tget [] s.nv.platter k := by
  have stored (k : Nat) : tget [] (writeSectors s a o n).nv.platter k = if k = platterKey a o.band o.frag then
      (List.range (actZone s a o.band).2.frag).map fun i =>
        if o.next ≤ i && i < min (actZone s a o.band).2.frag (o.next + n) then tget 0 (getRdc s a).staging (o.slot0 + i)
        else (tget [] s.nv.platter (platterKey a o.band o.frag)).getD i 0
      else tget [] s.nv.platter k := tget_tset _ _ _ _ _
  refine ⟨fun i hi => ?_, fun k hk => (stored k).trans (if_neg hk)⟩
  rw [stored, if_pos rfl, List.getD_eq_getElem?_getD, List.getElem?_map, List.getElem?_range hi]
  simp [hi]

theorem exec_diskWrite_sectors (low : a < 32) (running : (getRdc s a).run = some o) (write : o.write = true)
    (ready : opReady s a o = true) (mode : paReg s a 1 = some 4) :
    ∃ t, exec (.diskWrite a none n) s = .next t ∧
      (∀ i < (actZone s a o.band).2.frag, (tget [] t.nv.platter (platterKey a o.band o.frag)).getD i 0 =
        if o.next ≤ i ∧ i < o.next + n then tget 0 (getRdc s a).staging (o.slot0 + i)
        else (tget [] s.nv.platter (platterKey a o.band o.frag)).getD i 0) ∧
      (∀ k, k ≠ platterKey a o.band o.frag → tget [] t.nv.platter k = tget [] s.nv.platter k) ∧
      (o.next + n < (actZone s a o.band).2.frag → (getRdc t a).gate = true ∧
        (getRdc t a).run = some { o with next := o.next + n, waitNs := none } ∧ (getRdc t a).done = (getRdc s a).done ∧
        Unchanged [.rdc, .nv] s t) ∧
      ((actZone s a o.band).2.frag ≤ o.next + n → (getRdc t a).gate = false ∧ (getRdc t a).run = none ∧
        (getRdc t a).done = (getRdc s a).done ++ [{ reply := o.reply, write := true, status := 0 }] ∧
        RegsBut [(rdcF RDC_ACT_STATE_STATE a).off] s t ∧ Unchanged [.regs, .rdc, .nv, .out] s t) := by
  generalize gated : modRdc s a (fun r => { r with gate := true }) = u
  have record : getRdc u a = { getRdc s a with gate := true } := by rw [← gated, getRdc_modRdc_same]
  have zone : actZone u a o.band = actZone s a o.band := by rw [← gated]; rfl
  have still : actZone (writeSectors u a o n) a o.band = actZone s a o.band := zone
  have asserted : Unchanged [.rdc] s u := gated ▸ modRdc_unchanged s a _
  have frame := unchanged_trans (unchanged_mono asserted (by decide)) (writeSectors_unchanged u a o n)
  have written : getRdc (writeSectors u a o n) a = { getRdc s a with gate := true, run := some (writtenTo s a n o) } := by
    rw [writeSectors_record, record, writtenTo, zone, ← writtenTo]
  obtain ⟨units, others⟩ := writeSectors_platter (s := u) (a := a) (o := o) (n := n)
  rw [zone, record, asserted .nv (by decide)] at units
  rw [asserted .nv (by decide)] at others
  have run : exec (.diskWrite a none n) s = .next (if (actZone s a o.band).2.frag ≤ (writtenTo s a n o).next then
      finishDisk (writeSectors u a o n) a (writtenTo s a n o) 0 0 else writeSectors u a o n) := by
    refine (show _ = execDiskWrite a none n s from rfl).trans ?_
    unfold execDiskWrite
    rw [if_neg (Nat.not_le.mpr low)]
    dsimp only
    rw [running]
    dsimp only
    rw [if_neg (by rw [write, ready]; decide), needMode, if_pos mode]
    dsimp only
    rw [gated, written]
    change Host.Outcome.next (if (actZone (writeSectors u a o n) a o.band).2.frag ≤ (writtenTo s a n o).next then _ else _) = _
    rw [still]
    rfl
  rcases Nat.lt_or_ge (o.next + n) (actZone s a o.band).2.frag with more | last
  · have next : (writtenTo s a n o).next = o.next + n := min_eq_right (le_of_lt more)
    refine ⟨_, run.trans (congrArg _ (if_neg (by rw [next]; exact Nat.not_le.mpr more))), units, others, fun _ => ⟨?_, ?_, ?_, frame⟩,
      fun ended => absurd more (Nat.not_lt.mpr ended)⟩
    · rw [written]
    · rw [written, writtenTo, min_eq_right (le_of_lt more)]
    · rw [written]
  · have next : (writtenTo s a n o).next = (actZone s a o.band).2.frag := min_eq_left last
    have ended := finishDisk_shows (writeSectors u a o n) a (writtenTo s a n o) 0 0 false
    have nv := ended.frame .nv (by decide)
    refine ⟨_, run.trans (congrArg _ (if_pos (le_of_eq next.symm))), by rw [nv]; exact units, by rw [nv]; exact others,
      fun more => absurd more (Nat.not_lt.mpr last), fun _ => ⟨ended.gate, ended.run, ?_, ?_, ?_⟩⟩
    · rw [ended.done, written, diskDone]
      simp [writtenTo, write]
    · exact regsBut_trans (fun k _ => rget_congr (frame .regs (by decide)) k) ended.regs
    · exact unchanged_trans (unchanged_mono frame (by decide)) (unchanged_mono ended.frame (by decide))

end writing

/-! ## Read passes (R348, R349) -/

section passes

variable {s : State} {a : Nat} {o : DiskOp}

/-- Defects and withdrawn bands leave the operations. -/
structure Noted (a : Nat) (s t : State) : Prop where
  ops : SameOps a s t
  frame : Unchanged (.rdc :: reportParts) s t

theorem Noted.refl (s : State) : Noted a s s := ⟨sameOps_refl s, unchanged_refl _ s⟩

theorem Noted.trans {t u : State} (h : Noted a s t) (k : Noted a t u) : Noted a s u :=
  ⟨h.ops.trans k.ops, unchanged_trans h.frame k.frame⟩

/-- Registers and reports beside the record. -/
theorem Noted.parts {parts : List Part} {t u : State} (h : Noted a s t) (k : Unchanged parts t u) (hrdc : Part.rdc ∉ parts)
    (hsub : parts ⊆ .rdc :: reportParts) : Noted a s u := h.trans ⟨sameOps_congr (k .rdc hrdc), unchanged_mono k hsub⟩

section after

variable {t : State} (h : Noted a s t)
include h

theorem Noted.modRdc {g : RdChan → RdChan}
    (k : ∀ r, (g r).queue = r.queue ∧ (g r).run = r.run ∧ (g r).done = r.done ∧ (g r).staging = r.staging) :
    Noted a s (modRdc t a g) := h.trans ⟨sameOps_modRdc k, unchanged_mono (modRdc_unchanged t a g) (by decide)⟩

theorem Noted.fset (f : Fld) (x : Nat) : Noted a s (fset t f x) := h.parts (fset_unchanged t f x) (by decide) (by decide)

theorem Noted.fbump (f : Fld) (n : Nat) : Noted a s (fbump t f n) := h.parts (fbump_unchanged t f n) (by decide) (by decide)

theorem Noted.dmkSend (code data : Nat) : Noted a s (dmkSend t code data) :=
  h.parts (((ReportFrame.refl t).after_dmkSend code data).parts) (by decide) (by decide)

theorem Noted.raise (src data : Nat) : Noted a s (raise t src data) := h.parts (raise_unchanged t src data) (by decide) (by decide)

end after

theorem withdrawBand_noted (s : State) (band : Nat) : Noted a s (withdrawBand s a band) := by
  unfold withdrawBand
  dsimp only
  split
  · exact Noted.refl s
  · have listed : Noted a s (Machine.modRdc s a fun r => { r with withdrawn := r.withdrawn ++ [band] }) :=
      (Noted.refl s).modRdc fun _ => ⟨rfl, rfl, rfl, rfl⟩
    generalize Machine.modRdc s a (fun r => { r with withdrawn := r.withdrawn ++ [band] }) = t at listed ⊢
    exact (listed.fset _ _).dmkSend _ _

theorem enterDefect_noted (s : State) (o : DiskOp) (pos : Nat) : Noted a s (enterDefect s a o pos) := by
  unfold enterDefect
  dsimp only
  have listed : Noted a s (Machine.modRdc s a fun r => { r with slips := r.slips ++ [(pos, false)] }) :=
    (Noted.refl s).modRdc fun _ => ⟨rfl, rfl, rfl, rfl⟩
  generalize Machine.modRdc s a (fun r => { r with slips := r.slips ++ [(pos, false)] }) = t at listed ⊢
  have entered (x : Nat) := ((listed.fset (rdcF RDC_DEFECTS_SLIPS a) x).fbump (rdcF RDC_ERR_CNT1_DEFECT a) 1).dmkSend 0x0604 a
  split
  · exact Noted.refl s
  · split
    · exact withdrawBand_noted s _
    · split
      · exact (entered _).trans (withdrawBand_noted _ _)
      · exact entered _

theorem noted_foldl {β : Type} {f : State → β → State} (h : ∀ s x, Noted a s (f s x)) (l : List β) (s : State) :
    Noted a s (l.foldl f s) := by
  induction l generalizing s with
  | nil => exact Noted.refl s
  | cons x l ih => exact (h s x).trans (ih _)

theorem noteCalDue_noted (s : State) (head zone : Nat) : Noted a s (noteCalDue s a head zone) := by
  unfold noteCalDue
  split
  · exact (Noted.refl s).modRdc fun _ => ⟨rfl, rfl, rfl, rfl⟩
  · exact Noted.refl s

/-- A relocation request is marked on the last completion. -/
def markReloc (s : State) (a : Nat) : State :=
  modRdc s a fun r => { r with done := r.done.dropLast ++ (r.done.getLast?.map fun d => { d with reloc := true }).toList }

/-- The record after the READ's end. -/
structure ReadEnded (a : Nat) (s t : State) (d : DiskDone) : Prop where
  run : (getRdc t a).run = none
  done : (getRdc t a).done = (getRdc s a).done ++ [d]
  staging : (getRdc t a).staging = (getRdc s a).staging
  frame : Unchanged (.rdc :: reportParts) s t

theorem ReadEnded.markReloc {t : State} {d : DiskDone} (h : ReadEnded a s t d) :
    ReadEnded a s (markReloc t a) { d with reloc := true } := by
  refine ⟨?_, ?_, ?_, ?_⟩
  · rw [Laws.markReloc, getRdc_modRdc_same, h.run]
  · rw [Laws.markReloc, getRdc_modRdc_same, h.done]
    simp
  · rw [Laws.markReloc, getRdc_modRdc_same, h.staging]
  · rw [Laws.markReloc, after_modRdc _ _ _ (by decide)]
    exact h.frame

theorem Finished.readEnded {t : State} {d : DiskDone} (h : Finished a s t d) : ReadEnded a s t d :=
  ⟨h.run, h.done, h.staging, unchanged_mono h.frame (by decide)⟩

theorem ReadEnded.after {t u : State} {d : DiskDone} (h : ReadEnded a t u d) (noted : Noted a s t) : ReadEnded a s u d :=
  ⟨h.run, h.done.trans (by rw [noted.ops.done]), h.staging.trans noted.ops.staging, unchanged_trans noted.frame h.frame⟩

/-- With no unit left a READ ends OK, or OK_RETRY after an earlier pass. -/
theorem endDiskRead_none (none : o.left = []) : ∃ d, ReadEnded a s (endDiskRead s a o) d ∧ d.reply = o.reply ∧ d.fail = 0 ∧
    d.status = if o.retried then 1 else 0 := by
  have ended := (finishDisk_shows s a o (if o.retried then 1 else 0) 0 false).readEnded
  have whole : endDiskRead s a o = if o.late then markReloc (finishDisk s a o (if o.retried then 1 else 0) 0) a
      else finishDisk s a o (if o.retried then 1 else 0) 0 := if_pos (by rw [none]; rfl)
  rw [whole]
  split
  · exact ⟨_, ended.markReloc, rfl, rfl, rfl⟩
  · exact ⟨_, ended, rfl, rfl, rfl⟩

/-- With units left a READ that ends is UNCORR. -/
theorem endDiskRead_some (some_ : o.left ≠ []) : ∃ d, ReadEnded a s (endDiskRead s a o) d ∧ d.reply = o.reply ∧ d.status = 0x10 ∧
    d.fail = failMap o.left := by
  have reported (x : Nat) : Noted a s (dmkSend (raise (fbump s (rdcF RDC_ERR_CNT0_UNCORR a) x) (0x604 + 16 * a) a) 0x0606 a) :=
    (((Noted.refl s).fbump _ _).raise _ _).dmkSend _ _
  have noted : ∃ u, Noted a s u ∧ endDiskRead s a o = markReloc (finishDisk u a o 0x10 (failMap o.left)) a := by
    have left : ¬(o.left.isEmpty = true) := by simpa using some_
    unfold endDiskRead
    rw [if_neg left]
    refine ⟨_, ?_, rfl⟩
    split
    · exact reported _
    · exact (reported _).trans (noted_foldl (fun t i => enterDefect_noted t o _) _ _)
  obtain ⟨u, noted, whole⟩ := noted
  rw [whole]
  exact ⟨_, ((finishDisk_shows u a o 0x10 (failMap o.left) false).readEnded.after noted).markReloc, rfl, rfl, rfl⟩

/-- The READ after a pass that delivered the units `got`. -/
def passedOp (o : DiskOp) (got : List Nat) : DiskOp :=
  { o with pass := o.pass + 1, left := o.left.filter fun i => !(got.contains i)
           retried := o.retried || (2 ≤ o.pass + 1 && !(o.left.filter (got.contains ·)).isEmpty)
           late := o.late || (4 ≤ o.pass + 1 && !(o.left.filter (got.contains ·)).isEmpty), waitNs := none }

/-- The state after a pass has delivered its units, before the READ ends or waits. -/
def passTaken (s : State) (a : Nat) (o : DiskOp) (got : List Nat) (sy ov : Nat) : State :=
  let u := if o.pass = 0 then noteCalDue s a (fragPlace s a o.band o.frag).2 (actZone s a o.band).1 else s
  let u := stageEach (fbump (fbump u (rdcF RDC_ERR_CNT0_SYNC_MISS a) sy) (rdcF RDC_ERR_CNT0_OVERRUN a) ov) a o.slot0 o.tag
    (fun i => (tget [] u.nv.platter (platterKey a o.band o.frag)).getD (o.first + i) 0) (o.left.filter (got.contains ·))
  let u := if 2 ≤ o.pass + 1 then fbump u (rdcF RDC_ERR_CNT0_RETRY a) (o.left.filter (got.contains ·)).length else u
  modRdc u a fun r => { r with run := some (passedOp o got) }

/-- What a pass does before the READ ends or waits. -/
structure PassTaken (s : State) (a : Nat) (o : DiskOp) (got : List Nat) (t : State) : Prop where
  units : ∀ i ∈ o.left, i ∈ got → tget 0 (getRdc t a).staging (o.slot0 + i) =
    (tget [] s.nv.platter (platterKey a o.band o.frag)).getD (o.first + i) 0
  beside : ∀ k, (∀ i ∈ o.left, i ∈ got → k ≠ o.slot0 + i) →
    tget 0 (getRdc t a).staging k = tget 0 (getRdc s a).staging k
  run : (getRdc t a).run = some (passedOp o got)
  done : (getRdc t a).done = (getRdc s a).done
  frame : Unchanged (.rdc :: .srv :: reportParts) s t

theorem passTaken_takes (s : State) (a : Nat) (o : DiskOp) (got : List Nat) (sy ov : Nat) :
    PassTaken s a o got (passTaken s a o got sy ov) := by
  have due : Noted a s (if o.pass = 0 then noteCalDue s a (fragPlace s a o.band o.frag).2 (actZone s a o.band).1 else s) := by
    split
    · exact noteCalDue_noted s _ _
    · exact Noted.refl s
  unfold passTaken
  dsimp only
  generalize (if o.pass = 0 then noteCalDue s a (fragPlace s a o.band o.frag).2 (actZone s a o.band).1 else s) = u at due ⊢
  have counted : Noted a s (fbump (fbump u (rdcF RDC_ERR_CNT0_SYNC_MISS a) sy) (rdcF RDC_ERR_CNT0_OVERRUN a) ov) :=
    (due.fbump _ _).fbump _ _
  rw [due.frame .nv (by decide)]
  generalize fbump (fbump u (rdcF RDC_ERR_CNT0_SYNC_MISS a) sy) (rdcF RDC_ERR_CNT0_OVERRUN a) ov = v at counted ⊢
  generalize units : (fun i => (tget [] s.nv.platter (platterKey a o.band o.frag)).getD (o.first + i) 0) = f
  generalize now : o.left.filter (got.contains ·) = l
  have mem (i : Nat) : i ∈ l ↔ i ∈ o.left ∧ i ∈ got := by rw [← now, List.mem_filter]; simp
  have staged := stageEach_staged (a := a) (tag := o.tag) o.slot0 f l v
  have slots := stageEach_slots (a := a) (tag := o.tag) o.slot0 f l v
  have beside (k : Nat) := stageEach_beside (a := a) (tag := o.tag) o.slot0 f l v (k := k)
  generalize stageEach v a o.slot0 o.tag f l = w at staged slots beside ⊢
  have retried : Noted a w (if 2 ≤ o.pass + 1 then fbump w (rdcF RDC_ERR_CNT0_RETRY a) l.length else w) := by
    split
    · exact (Noted.refl w).fbump _ _
    · exact Noted.refl w
  generalize (if 2 ≤ o.pass + 1 then fbump w (rdcF RDC_ERR_CNT0_RETRY a) l.length else w) = x at retried ⊢
  refine ⟨fun i left got => ?_, fun k hk => ?_, ?_, ?_, ?_⟩
  · rw [getRdc_modRdc_same]
    change tget 0 (getRdc x a).staging _ = _
    rw [retried.ops.staging, slots i ((mem i).mpr ⟨left, got⟩), ← units]
  · rw [getRdc_modRdc_same]
    change tget 0 (getRdc x a).staging _ = _
    rw [retried.ops.staging, beside k fun i hi => hk i ((mem i).mp hi).1 ((mem i).mp hi).2, counted.ops.staging]
  · rw [getRdc_modRdc_same]
  · rw [getRdc_modRdc_same]
    change (getRdc x a).done = _
    rw [retried.ops.done, staged.done, counted.ops.done]
  · rw [after_modRdc _ _ _ (by decide), unchanged_step retried.frame (by decide), unchanged_step staged.frame (by decide)]
    exact unchanged_mono counted.frame (by decide)

variable (running : (getRdc s a).run = some o) (read : o.write = false) (ready : opReady s a o = true)
  (offset : (getSrv s a).readOfs = passOffset (o.pass + 1)) (mode : paReg s a 1 = some 3)
include running read ready offset mode

theorem exec_readPass_eq (got : List Nat) (sy ov : Nat) : exec (.readPass a got sy ov) s =
    if (passedOp o got).left.isEmpty || o.fast || decide ((hdaTable s (a / 2)).retryRevs ≤ o.pass + 1) then
      .next (endDiskRead (passTaken s a o got sy ov) a (passedOp o got))
    else .next (requestPlace (modRdc (passTaken s a o got sy ov) a fun r =>
      { r with run := some { passedOp o got with waitNs := some (passTaken s a o got sy ov).tb.ns } }) a (fragPlace s a o.band o.frag).1
      (fragPlace s a o.band o.frag).2 (passOffset (o.pass + 2))) := by
  have frame := (passTaken_takes s a o got sy ov).frame
  have table : hdaTable (passTaken s a o got sy ov) (a / 2) = hdaTable s (a / 2) := by
    rw [hdaTable, image, frame .loader (by decide), hdaTable, image]
  rw [← table]
  refine (show _ = execReadPass a got sy ov s from rfl).trans ?_
  unfold execReadPass
  rw [running]
  dsimp only
  rw [if_neg (by simp [read, ready, offset]), needMode, if_pos mode]
  rfl

theorem exec_readPass (got : List Nat) (sy ov : Nat) : ∃ t, exec (.readPass a got sy ov) s = .next t ∧ t.nv = s.nv ∧
      (∀ i ∈ o.left, i ∈ got → tget 0 (getRdc t a).staging (o.slot0 + i) =
        (tget [] s.nv.platter (platterKey a o.band o.frag)).getD (o.first + i) 0) ∧
      (∀ k, (∀ i ∈ o.left, i ∈ got → k ≠ o.slot0 + i) → tget 0 (getRdc t a).staging k = tget 0 (getRdc s a).staging k) ∧
      ((∀ i ∈ o.left, i ∈ got) → (getRdc t a).run = none ∧ ∃ d, (getRdc t a).done = (getRdc s a).done ++ [d] ∧
        d.reply = o.reply ∧ d.fail = 0 ∧
        d.status = if o.retried = true ∨ (1 ≤ o.pass ∧ o.left ≠ []) then 1 else 0) ∧
      (∀ i ∈ o.left, i ∉ got →
        (o.fast = false → o.pass + 1 < (hdaTable s (a / 2)).retryRevs → (getRdc t a).done = (getRdc s a).done ∧
          ∃ p, (getRdc t a).run = some p ∧ p.pass = o.pass + 1 ∧ p.left = o.left.filter (fun j => !(got.contains j)) ∧
            p.reply = o.reply) ∧
        (o.fast = true ∨ (hdaTable s (a / 2)).retryRevs ≤ o.pass + 1 → (getRdc t a).run = none ∧
          ∃ d, (getRdc t a).done = (getRdc s a).done ++ [d] ∧ d.reply = o.reply ∧ d.status = 0x10 ∧
            d.fail = failMap (o.left.filter fun j => !(got.contains j)))) ∧
      Unchanged (.rdc :: .srv :: reportParts) s t := by
  have taken := passTaken_takes s a o got sy ov
  have run := exec_readPass_eq running read ready offset mode got sy ov
  generalize passTaken s a o got sy ov = u at taken run
  have remains {i : Nat} (left : i ∈ o.left) (missed : i ∉ got) : (passedOp o got).left ≠ [] :=
    List.ne_nil_of_mem (List.mem_filter.mpr ⟨left, by simpa using missed⟩)
  have ends (t : State) (d : DiskDone) (h : ReadEnded a u t d) : t.nv = s.nv ∧
      (∀ i ∈ o.left, i ∈ got → tget 0 (getRdc t a).staging (o.slot0 + i) =
        (tget [] s.nv.platter (platterKey a o.band o.frag)).getD (o.first + i) 0) ∧
      (∀ k, (∀ i ∈ o.left, i ∈ got → k ≠ o.slot0 + i) → tget 0 (getRdc t a).staging k = tget 0 (getRdc s a).staging k) ∧
      (getRdc t a).done = (getRdc s a).done ++ [d] ∧ Unchanged (.rdc :: .srv :: reportParts) s t := by
    have frame := unchanged_trans taken.frame (unchanged_mono h.frame (by decide))
    refine ⟨frame .nv (by decide), fun i left hi => ?_, fun k hk => ?_, h.done.trans (by rw [taken.done]), frame⟩
    · rw [h.staging]
      exact taken.units i left hi
    · rw [h.staging]
      exact taken.beside k hk
  by_cases none : (passedOp o got).left = []
  · obtain ⟨d, ended, reply, fail, status⟩ := endDiskRead_none (s := u) (a := a) none
    obtain ⟨nv, units, beside, done, frame⟩ := ends _ d ended
    refine ⟨_, run.trans (if_pos (by rw [none]; rfl)), nv, units, beside, fun all => ⟨ended.run, d, done, reply, fail, ?_⟩,
      fun i left missed => absurd none (remains left missed), frame⟩
    have now : o.left.filter (got.contains ·) = o.left := List.filter_eq_self.mpr fun i left => by simpa using all i left
    rw [status, passedOp, now]
    simp [Nat.succ_le_iff]
  · have missing : ¬∀ i ∈ o.left, i ∈ got := fun all =>
      none (List.filter_eq_nil_iff.mpr fun i left => by simpa using all i left)
    by_cases last : o.fast = true ∨ (hdaTable s (a / 2)).retryRevs ≤ o.pass + 1
    · obtain ⟨d, ended, reply, status, fail⟩ := endDiskRead_some (s := u) (a := a) none
      obtain ⟨nv, units, beside, done, frame⟩ := ends _ d ended
      refine ⟨_, run.trans (if_pos ?_), nv, units, beside, fun all => absurd all missing, fun i left missed => ⟨fun slow more => ?_,
        fun _ => ⟨ended.run, d, done, reply, status, fail⟩⟩, frame⟩
      · rcases last with fast | late <;> simp [*]
      · rcases last with fast | late
        · exact absurd (fast.symm.trans slow) (by decide)
        · exact absurd more (Nat.not_lt.mpr late)
    · obtain ⟨slow, more⟩ := not_or.mp last
      have asked := Requested.requestPlace (a := a) (modRdc u a fun r => { r with run := some { passedOp o got with waitNs := some u.tb.ns } })
        (fragPlace s a o.band o.frag).1 (fragPlace s a o.band o.frag).2 (passOffset (o.pass + 2))
      have frame : Unchanged (.rdc :: .srv :: reportParts) s _ := unchanged_trans
        (unchanged_trans taken.frame (unchanged_mono (modRdc_unchanged u a fun r =>
          { r with run := some { passedOp o got with waitNs := some u.tb.ns } }) (by decide))) (unchanged_mono asked.frame (by decide))
      refine ⟨_, run.trans (if_neg (by simp [none, slow, more])), frame .nv (by decide), fun i left hi => ?_, fun k hk => ?_,
        fun all => absurd all missing, fun i left missed => ⟨fun _ _ =>
          ⟨?_, { passedOp o got with waitNs := some u.tb.ns }, ?_, rfl, rfl, rfl⟩, fun ended => absurd ended last⟩, frame⟩
      · rw [asked.ops.staging, getRdc_modRdc_same]
        exact taken.units i left hi
      · rw [asked.ops.staging, getRdc_modRdc_same]
        exact taken.beside k hk
      · rw [asked.ops.done, getRdc_modRdc_same]
        exact taken.done
      · rw [asked.ops.run, getRdc_modRdc_same]

end passes

/-! ## Conditions that stay unmet (R342, R350) -/

theorem exec_diskOpTimeout {s : State} {a ns : Nat} {o : DiskOp} (running : (getRdc s a).run = some o) (waits : o.waitNs = some ns)
    (long : 100000000 ≤ s.tb.ns - ns) (unmet : opReady s a o = false) :
    ∃ t, exec (.diskOpTimeout a) s = .next t ∧ (getRdc t a).run = none ∧
      (∃ d, (getRdc t a).done = (getRdc s a).done ++ [d] ∧ d.reply = o.reply ∧ d.write = o.write ∧
        d.status = if o.write = true ∧ fget s (srvF SRV_ACT_INHIBIT a) % 128 ≠ 0 then 0x21 else 0x40) ∧
      (getRdc t a).queue = (getRdc s a).queue ∧ Unchanged (.rdc :: reportParts) s t := by
  generalize left : failMap (if o.write then unwritten s a o else o.left) = fail
  have run : exec (.diskOpTimeout a) s = if o.write && fget s (srvF SRV_ACT_INHIBIT a) % 128 != 0 then
      .next (raise (fbump (finishDisk s a o 0x21 fail) (rdcF RDC_ERR_CNT1_WINHIB a)) (0x603 + 16 * a))
      else .next (finishDisk s a o 0x40 fail) := by
    refine (show _ = execDiskOpTimeout a s from rfl).trans ?_
    unfold execDiskOpTimeout
    rw [running]
    dsimp only
    rw [waits]
    dsimp only
    rw [if_pos (by simp [long, unmet]), left]
  by_cases inhibited : o.write = true ∧ fget s (srvF SRV_ACT_INHIBIT a) % 128 ≠ 0
  · have ended := finishDisk_shows s a o 0x21 fail false
    have noted := ((Noted.refl (a := a) (finishDisk s a o 0x21 fail)).fbump (rdcF RDC_ERR_CNT1_WINHIB a) 1).raise (0x603 + 16 * a) 0
    refine ⟨_, run.trans (if_pos (by simpa using inhibited)), noted.ops.run.trans ended.run,
      ⟨_, noted.ops.done.trans ended.done, rfl, rfl, (if_pos inhibited).symm⟩, noted.ops.queue.trans ended.queue, ?_⟩
    exact unchanged_trans (unchanged_mono ended.frame (by decide)) noted.frame
  · have ended := finishDisk_shows s a o 0x40 fail false
    exact ⟨_, run.trans (if_neg (by simpa using inhibited)), ended.run, ⟨_, ended.done, rfl, rfl, (if_neg inhibited).symm⟩, ended.queue,
      unchanged_mono ended.frame (by decide)⟩

/-- Settles O42. -/
theorem diskOperations : Obligations.DiskOperations := by
  unfold Obligations.DiskOperations
  exact ⟨fun s a r low serves open_ room => ⟨exec_diskRead_joins low serves r open_ room, exec_diskWrite_joins low serves r open_ room⟩,
    fun s a r low serves fenced => exec_diskRead_fenced low serves r fenced,
    fun s a o low serves open_ free noCal chosen => ⟨exec_diskOpSelect_starts low serves open_ free noCal chosen,
      exec_diskOpSelect_stranded low serves open_ free noCal chosen⟩,
    fun s a n o low running write ready mode => exec_diskWrite_sectors low running write ready mode,
    fun s a sy ov got o running read ready offset mode => exec_readPass running read ready offset mode got sy ov,
    fun s a ns o running waits long unmet => exec_diskOpTimeout running waits long unmet⟩

end Sys2Proof.Laws
end

section
/-!
PROOFS. The statement of 14_spindle_drive.md on starts and stops (R413 to R436).
-/

namespace Sys2Proof.Laws

open Sys2Proof.Machine

/-- Spindle 0 stands and its shunt offsets are 24 h old to the nanosecond; Daymark's intake is full, and the present
nanosecond has issued its 16 timestamps (R22). -/
def offsetsAtLimit : State :=
  modSpn (fset { State.reset with
    phase := .serving
    tb := { State.reset.tb with ns := 86400000000000, stampNs := 86400000000000, stamps := 16 }
    dmk := { State.reset.dmk with intake := List.replicate 64 (0x0603, 0) } } (spnF SPN_STATE_STATE 0) 2) 0
    fun p => { p with calOk := some 0 }

theorem offsetsAtLimit_fresh : offsetsFresh offsetsAtLimit 0 = true := by decide +kernel

/-- The state of spindle 0 after a command. -/
def spindleShown : Host.Outcome State Fault Refusal → Nat
  | .next t => spnState t 0
  | _ => 3

theorem offsetsAtLimit_stays : spindleShown (exec (.spinupRequest 0) offsetsAtLimit) = 2 := by decide +kernel

/-- Refutes O49: the spin-up is noted in Daymark before the age of the shunt offsets is taken, the full intake makes the note a
fault report, and the report's timestamp may advance the timebase by 1 ns: offsets that were fresh at the request are then
stale, and the spindle goes to its shunt calibration, not to ALIGN. -/
theorem not_spindleStartsAndStops : ¬ Obligations.SpindleStartsAndStops := by
  unfold Obligations.SpindleStartsAndStops
  rintro ⟨request, -⟩
  obtain ⟨standing, -⟩ := request offsetsAtLimit 0 (by decide) (by decide)
  obtain ⟨t, run, aligned, -⟩ := standing (by decide +kernel) offsetsAtLimit_fresh
  have stays := offsetsAtLimit_stays
  rw [run] at stays
  exact absurd (aligned.symm.trans stays) (by decide)

end Sys2Proof.Laws
end

section
/-!
PROOFS. What the retirement of a member leaves of the drives: their register words, their records and what is stored.
-/

namespace Sys2Proof.Laws

open Sys2Proof.Machine

/-! ## Register words of the drives -/

/-- A register word of the read channels, the servo, the spindles or the voice coils. -/
def DriveWord (k : Nat) : Prop := 0xC00000 ≤ k ∧ k < 0x1000000

section words

variable {k : Nat} (hk : DriveWord k)
include hk

theorem DriveWord.unit : UnitWord k := by
  unfold UnitWord
  have := hk.1
  have := hk.2
  omega

theorem rget_fset_above (s : State) {f : Fld} (x : Nat) (hf : 0x1000000 ≤ f.off) : rget (fset s f x) k = rget s k :=
  rget_fset s f x k fun same => absurd hk.2 (by omega)

theorem rget_fsetBit_above (s : State) {f : Fld} (i : Nat) (b : Bool) (hf : 0x1000000 ≤ f.off) :
    rget (fsetBit s f i b) k = rget s k := rget_fsetBit s f i b fun same => absurd hk.2 (by omega)

theorem rget_showGeom_drive (s : State) : rget (showGeom s) k = rget s k :=
  showGeom_regsBut s k fun listed => by
    have := hk.2
    simp only [List.mem_cons, List.not_mem_nil, or_false, UDC_FINSV_MASK, UDC_GEOM_F_WIDTH] at listed
    omega

theorem rget_noteRebuild_drive (s : State) : rget (noteRebuild s) k = rget s k := by
  unfold noteRebuild
  extract_lets segs one two
  have counted : rget two k = rget s k := (rget_fset_above hk one _ (by decide)).trans (rget_fset_above hk s _ (by decide))
  have told (x code i : Nat) (b : Bool) : rget (setReduction (dmkSend (fset two UDC_STATUS_REBUILD x) code 0) i b) k =
    rget s k :=
    (rget_setReduction_unit hk.unit _ _ _).trans ((rget_dmkSend_unit hk.unit _ _ _).trans
      ((rget_fset_above hk two _ (by decide)).trans counted))
  split
  · split
    · exact told _ _ _ _
    · exact counted
  · split
    · exact told _ _ _ _
    · exact counted

theorem rget_noteNarrow_drive (s : State) : rget (noteNarrow s) k = rget s k := by
  refine rget_foldl _ s fun b disk _ => ?_
  extract_lets f members now shown
  have above : 0x1000000 ≤ f.off := by cases disk <;> decide
  have shown' : rget shown k = rget b k := rget_fset_above hk b _ above
  split
  · exact (rget_raise_unit hk.unit _ _ _).trans shown'
  · exact shown'

theorem rget_noteFull_drive (s : State) : rget (noteFull s) k = rget s k := by
  refine rget_foldl _ s fun b disk _ => ?_
  extract_lets f now told
  have above : 0x1000000 ≤ f.off := by cases disk <;> decide
  refine (rget_fset_above hk told _ above).trans ?_
  change rget (if _ then _ else _) k = _
  split
  · exact rget_dmkSend_unit hk.unit _ _ _
  · rfl

end words

/-! ## The parts of a member's retirement -/

/-- The side's bit of UDC_DINSV that a retired member of the disk pool loses. -/
def memberShown (s : State) (disk : Bool) (m : Nat) (sub : Option Nat) : State :=
  showGeom (if disk then
      [0, 1].foldl (fun s side => if sub.getD side = side then
        fsetBit s (if side = 0 then UDC_DINSV_ACT_A else UDC_DINSV_ACT_B) m false else s) s
    else s)

theorem memberShown_unchanged (s : State) (disk : Bool) (m : Nat) (sub : Option Nat) :
    Unchanged [.regs] s (memberShown s disk m sub) := by
  refine unchanged_trans ?_ (showGeom_unchanged _)
  split
  · refine unchanged_foldl (fun b side => ?_) _ s
    split
    · exact fsetBit_unchanged b _ _ _
    · exact unchanged_refl _ b
  · exact unchanged_refl _ s

theorem rget_memberShown_drive {k : Nat} (hk : DriveWord k) (s : State) (disk : Bool) (m : Nat) (sub : Option Nat) :
    rget (memberShown s disk m sub) k = rget s k := by
  refine (rget_showGeom_drive hk _).trans ?_
  split
  · refine rget_foldl _ s fun b side _ => ?_
    split
    · exact rget_fsetBit_above hk b _ _ (by split <;> decide)
    · rfl
  · rfl

/-- The member's open segments are closed and its strips marked lost. -/
def memberLost (s : State) (disk : Bool) (m : Nat) (hit : List Nat) : State :=
  hit.foldl (fun s i => loseStrips s disk i m)
    (hit.foldl (fun s i => if (getSeg s disk i).state = 1 then closeSegment s disk i else s) s)

theorem memberGone_parts (s : State) (disk : Bool) (m : Nat) (sub : Option Nat) : ∃ hit, memberGone s disk m sub =
    recomputeFloors (noteFull (noteNarrow (noteRebuild (memberLost (memberShown s disk m sub) disk m hit)))) := ⟨_, rfl⟩

theorem memberTold_unchanged (s : State) :
    Unchanged (.tenants :: reportParts) s (recomputeFloors (noteFull (noteNarrow (noteRebuild s)))) :=
  unchanged_trans (unchanged_mono (unchanged_trans (noteRebuild_unchanged s)
    (unchanged_trans (noteNarrow_unchanged _) (noteFull_unchanged _))) (by decide)) (recomputeFloors_unchanged _)

/-! ## Records of the data paths keep all but their slips -/

/-- Every data path keeps its record but for the defects in force. -/
def SlipsKept (s t : State) : Prop := ∀ a, ∃ l, getRdc t a = { getRdc s a with slips := l }

section slips

variable {s t u : State}

theorem slipsKept_congr (h : t.rdc = s.rdc) : SlipsKept s t := fun a => ⟨(getRdc s a).slips, getRdc_congr h a⟩

theorem SlipsKept.trans (h : SlipsKept s t) (k : SlipsKept t u) : SlipsKept s u := fun a => by
  obtain ⟨l, hl⟩ := h a
  obtain ⟨m, hm⟩ := k a
  exact ⟨m, by rw [hm, hl]⟩

theorem slipsKept_foldl {β : Type} {f : State → β → State} (h : ∀ s x, SlipsKept s (f s x)) (l : List β) (s : State) :
    SlipsKept s (l.foldl f s) := by
  induction l generalizing s with
  | nil => exact slipsKept_congr rfl
  | cons x l ih => exact (h s x).trans (ih _)

theorem slipsKept_modRdc (s : State) (b : Nat) {f : RdChan → RdChan} (slips : ∀ r, ∃ l, f r = { r with slips := l }) :
    SlipsKept s (modRdc s b f) := fun a => by
  rw [getRdc_modRdc]
  split
  case isTrue own =>
    obtain ⟨l, hl⟩ := slips (getRdc s b)
    exact ⟨l, by rw [hl, own]⟩
  case isFalse => exact ⟨_, rfl⟩

theorem slipsKept_takeDefects (s : State) (seg : Nat) : SlipsKept s (takeDefects s seg) := by
  unfold takeDefects
  split
  · exact slipsKept_congr rfl
  · refine slipsKept_foldl (fun s h a => ?_) _ s
    exact slipsKept_modRdc s _ (fun r => ⟨_, rfl⟩) a

theorem slipsKept_openSegment {h i : Nat} (opened : openSegment s h = some (i, t)) : SlipsKept s t := by
  obtain ⟨j, -, made⟩ := Option.map_eq_some_iff.mp opened
  cases made
  refine SlipsKept.trans (t := if headDisk h then takeDefects s i else s) ?_ (slipsKept_congr rfl)
  split
  · exact slipsKept_takeDefects s i
  · exact slipsKept_congr rfl

theorem slipsKept_openStripe {h : Nat} (opened : openStripe s h = some t) : SlipsKept s t := by
  unfold openStripe at opened
  split at opened
  · cases opened
  · obtain ⟨⟨i, v⟩, chosen, rfl⟩ := Option.map_eq_some_iff.mp opened
    refine SlipsKept.trans (t := v) ?_ (slipsKept_congr rfl)
    cases filling : headSegment s h with
    | some j =>
      rw [filling] at chosen
      cases chosen
      exact slipsKept_congr rfl
    | none =>
      rw [filling] at chosen
      exact slipsKept_openSegment chosen

theorem slipsKept_appendGranule {h : Nat} {us : List Nat} {p : StripePart} (appended : appendGranule s h us p = some t) :
    SlipsKept s t := by
  unfold appendGranule at appended
  extract_lets disk fresh at appended
  have freshly {v w : State} (hv : SlipsKept s v) (made : fresh v = some w) : SlipsKept s w := by
    obtain ⟨x, opened, made⟩ := Option.bind_eq_some_iff.mp made
    obtain ⟨o, -, rfl⟩ := Option.map_eq_some_iff.mp made
    exact (hv.trans (slipsKept_openStripe opened)).trans (slipsKept_congr rfl)
  split at appended
  case h_1 => exact freshly (slipsKept_congr rfl) appended
  case h_2 o found =>
    split at appended
    · cases appended
      exact slipsKept_congr rfl
    · exact freshly (v := modOpen s disk o.seg o.stripe OpenStripe.pad) (slipsKept_congr rfl) appended

theorem slipsKept_rejoin (h : Nat) (units : List Nat) (ps : List StripePart) (s : State) :
    SlipsKept s (rejoin s h units ps) := by
  induction ps generalizing s with
  | nil => exact slipsKept_congr rfl
  | cons p ps ih =>
    unfold rejoin
    refine SlipsKept.trans ?_ (ih _)
    split
    · exact slipsKept_congr rfl
    · dsimp only
      split
      case h_1 v appended => exact slipsKept_appendGranule appended
      case h_2 => split <;> exact slipsKept_congr rfl

theorem slipsKept_closeIfDone (s : State) (disk : Bool) (i : Nat) : SlipsKept s (closeIfDone s disk i) := by
  unfold closeIfDone
  split <;> exact slipsKept_congr rfl

theorem slipsKept_abandonStripe (s : State) (o : OpenStripe) : SlipsKept s (abandonStripe s o) := by
  unfold abandonStripe
  refine SlipsKept.trans ?_ (slipsKept_closeIfDone _ _ _)
  exact SlipsKept.trans (slipsKept_congr rfl) (slipsKept_rejoin _ _ _ (modUdc s _))

theorem slipsKept_closeSegment (s : State) (disk : Bool) (i : Nat) : SlipsKept s (closeSegment s disk i) :=
  SlipsKept.trans (slipsKept_congr rfl) (slipsKept_foldl (fun s o => slipsKept_abandonStripe s o) _ _)

end slips

/-! ## What a member's retirement leaves -/

theorem nv_modPools {s t : State} {p : PoolNv} (nv : t.nv = { s.nv with pools := p }) (f : PoolNv → PoolNv) :
    (modPools t f).nv = { s.nv with pools := f p } := by rw [modPools, nv]

theorem loseStrips_nv (s : State) (disk : Bool) (i m : Nat) :
    ∃ p, (loseStrips s disk i m).nv = { s.nv with pools := p } ∧ Unchanged [.udc, .nv] s (loseStrips s disk i m) := by
  unfold loseStrips
  extract_lets r marked
  split
  · exact ⟨_, rfl, unchanged_refl _ s⟩
  · split
    · exact ⟨_, rfl, unchanged_refl _ s⟩
    · have own : Unchanged [.udc] s marked := unchanged_trans (modUdc_unchanged s _) (modUdc_unchanged _ _)
      have marks : Unchanged [.udc, .nv] s marked := unchanged_mono own (by decide)
      refine List.foldlRecOn (motive := fun t : State => ∃ p, t.nv = { s.nv with pools := p } ∧ Unchanged [.udc, .nv] s t)
        _ _ ⟨_, rfl, marks⟩ ?_
      rintro t ⟨p, nv, frame⟩ e -
      exact ⟨_, nv_modPools nv _, unchanged_trans frame (unchanged_mono (modPools_unchanged t _) (by decide))⟩

/-- A member's retirement leaves the drives' register words and what is stored beside the pools, and of a data path's record it
changes the defects in force only. -/
structure MemberFrame (s t : State) : Prop where
  regs : ∀ k, DriveWord k → rget t k = rget s k
  slips : SlipsKept s t
  nv : ∃ p, t.nv = { s.nv with pools := p }
  parts : Unchanged (.udc :: .rdc :: .nv :: .tenants :: reportParts) s t

theorem MemberFrame.trans {s t u : State} (h : MemberFrame s t) (k : MemberFrame t u) : MemberFrame s u := by
  refine ⟨fun w hw => (k.regs w hw).trans (h.regs w hw), h.slips.trans k.slips, ?_, unchanged_trans h.parts k.parts⟩
  obtain ⟨p, hp⟩ := h.nv
  obtain ⟨q, hq⟩ := k.nv
  exact ⟨q, by rw [hq, hp]⟩

theorem MemberFrame.of_parts {parts : List Part} {s t : State} (h : Unchanged parts s t)
    (regs : ∀ k, DriveWord k → rget t k = rget s k)
    (beside : Part.rdc ∉ parts ∧ Part.nv ∉ parts) (hsub : parts ⊆ .udc :: .rdc :: .nv :: .tenants :: reportParts) :
      MemberFrame s t :=
  ⟨regs, slipsKept_congr (h .rdc beside.1), ⟨s.nv.pools, by rw [h .nv beside.2]⟩, unchanged_mono h hsub⟩

theorem closeSegment_member (s : State) (disk : Bool) (i : Nat) : MemberFrame s (closeSegment s disk i) := by
  have frame := (LogFrame.refl s).after_closeSegment disk i
  exact ⟨fun k _ => rget_congr (frame.parts .regs (by decide)) k, slipsKept_closeSegment s disk i, ⟨s.nv.pools, frame.nv_eq⟩,
    unchanged_mono frame.parts (by decide)⟩

theorem loseStrips_member (s : State) (disk : Bool) (i m : Nat) : MemberFrame s (loseStrips s disk i m) := by
  obtain ⟨p, nv, frame⟩ := loseStrips_nv s disk i m
  exact ⟨fun k _ => rget_congr (frame .regs (by decide)) k, slipsKept_congr (frame .rdc (by decide)), ⟨p, nv⟩,
    unchanged_mono frame (by decide)⟩

theorem MemberFrame.refl (s : State) : MemberFrame s s :=
  ⟨fun _ _ => rfl, slipsKept_congr rfl, ⟨s.nv.pools, rfl⟩, unchanged_refl _ s⟩

theorem memberLost_member (s : State) (disk : Bool) (m : Nat) (hit : List Nat) : MemberFrame s (memberLost s disk m hit) := by
  have fold {f : State → Nat → State} (h : ∀ t i, MemberFrame t (f t i)) (t : State) : MemberFrame t (hit.foldl f t) :=
    List.foldlRecOn (motive := MemberFrame t) _ _ (.refl t) fun u hu i _ => hu.trans (h u i)
  refine (fold (fun t i => ?_) s).trans (fold (fun t i => loseStrips_member t disk i m) _)
  split
  · exact closeSegment_member t disk i
  · exact .refl t

theorem memberGone_member (s : State) (disk : Bool) (m : Nat) (sub : Option Nat) : MemberFrame s (memberGone s disk m sub) := by
  obtain ⟨hit, gone⟩ := memberGone_parts s disk m sub
  rw [gone]
  have shown : MemberFrame s (memberShown s disk m sub) := .of_parts (memberShown_unchanged s disk m sub)
    (fun k hk => rget_memberShown_drive hk s disk m sub) (by decide) (by decide)
  refine (shown.trans (memberLost_member _ disk m hit)).trans
    (.of_parts (memberTold_unchanged _) (fun k hk => ?_) (by decide) (by decide))
  exact (rget_recomputeFloors_unit hk.unit _).trans ((rget_noteFull_drive hk _).trans ((rget_noteNarrow_drive hk _).trans
    (rget_noteRebuild_drive hk _)))

end Sys2Proof.Laws
end

section
/-!
PROOFS. What the operations of one data path leave of the other units: its gate, its completions, its calibrations and its link.
-/

namespace Sys2Proof.Laws

open Sys2Proof.Machine

/-! ## Frames of a data path's operations -/

/-- A register word of data path `a`. -/
def InPath (a k : Nat) : Prop := 0xC00000 + a * 0x4000 ≤ k ∧ k < 0xC04000 + a * 0x4000

/-- An operation of data path `a`: the other data paths keep their records, the drives keep the register words that are not the
data path's, and its own record keeps the temperature and every frame that waits. -/
structure PathFrame (P : List Part) (a : Nat) (s t : State) : Prop where
  others : RdcOthers a s t
  temp : (getRdc t a).temp = (getRdc s a).temp
  frames : (getRdc s a).frames ⊆ (getRdc t a).frames
  regs : ∀ k, DriveWord k → ¬InPath a k → rget t k = rget s k
  parts : Unchanged P s t

namespace PathFrame

variable {P : List Part} {a : Nat} {s t u : State}

theorem refl (P : List Part) (a : Nat) (s : State) : PathFrame P a s s :=
  ⟨fun _ _ => rfl, rfl, List.Subset.refl _, fun _ _ _ => rfl, unchanged_refl P s⟩

theorem trans (h : PathFrame P a s t) (k : PathFrame P a t u) : PathFrame P a s u :=
  ⟨h.others.trans k.others, k.temp.trans h.temp, List.Subset.trans h.frames k.frames,
    fun w hw out => (k.regs w hw out).trans (h.regs w hw out), unchanged_trans h.parts k.parts⟩

theorem mono {Q : List Part} (h : PathFrame Q a s t) (hQ : Q ⊆ P) : PathFrame P a s t :=
  ⟨h.others, h.temp, h.frames, h.regs, unchanged_mono h.parts hQ⟩

/-- An operation beside the data paths' records. -/
theorem of_parts {Q : List Part} (h : Unchanged Q s t) (rdc : Part.rdc ∉ Q)
    (regs : ∀ k, DriveWord k → ¬InPath a k → rget t k = rget s k) : PathFrame Q a s t := by
  have same := h .rdc rdc
  exact ⟨fun b _ => getRdc_congr same b, by rw [getRdc_congr same], by rw [getRdc_congr same]; exact List.Subset.refl _,
    regs, h⟩

/-- A field of the data path's own window. -/
theorem fset_own (s : State) {f : Fld} (x : Nat) (hf : 0xC00000 ≤ f.off ∧ f.off < 0xC04000) :
    PathFrame [.regs] a s (fset s (rdcF f a) x) := by
  refine of_parts (fset_unchanged s _ _) (by decide) fun k _ out => rget_fset _ _ _ _ fun same => out ?_
  subst same
  unfold InPath
  simp only [rdcF, Fld.ix]
  omega

theorem fbump_own (s : State) {f : Fld} (n : Nat) (hf : 0xC00000 ≤ f.off ∧ f.off < 0xC04000) :
    PathFrame [.regs] a s (fbump s (rdcF f a) n) := fset_own s _ hf

theorem emit (s : State) (o : Out) : PathFrame [.out] a s (emit s o) :=
  of_parts (emit_unchanged s o) (by decide) fun _ _ _ => rfl

theorem raise (s : State) (src data : Nat) : PathFrame reportParts a s (raise s src data) :=
  of_parts (raise_unchanged s src data) (by decide) fun _ hk _ => rget_raise_unit hk.unit _ _ _

theorem dmkSend (s : State) (code data : Nat) : PathFrame reportParts a s (dmkSend s code data) :=
  of_parts (dmkSend_unchanged s code data) (by decide) fun _ hk _ => rget_dmkSend_unit hk.unit _ _ _

theorem modRdc (s : State) {g : RdChan → RdChan} (h : ∀ r, (g r).temp = r.temp ∧ r.frames ⊆ (g r).frames) :
    PathFrame [.rdc] a s (modRdc s a g) := by
  obtain ⟨temp, frames⟩ := h (getRdc s a)
  refine ⟨rdcOthers_modRdc s a g, ?_, ?_, fun _ _ _ => rfl, modRdc_unchanged s a g⟩
  · rwa [getRdc_modRdc_same]
  · rwa [getRdc_modRdc_same]

theorem pushFrame (s : State) (f : Frame) : PathFrame [.rdc] a s (pushFrame s a f) :=
  modRdc s fun _ => ⟨rfl, List.subset_append_left _ _⟩

theorem setMode (s : State) (m : Nat) (urgent : Bool) : PathFrame [.rdc] a s (setMode s a m urgent) := pushFrame s _

theorem heaterOff (s : State) : PathFrame [.rdc] a s (heaterOff s a) := by
  unfold Machine.heaterOff
  split
  · split
    · exact refl _ a s
    · exact pushFrame s _
  · exact refl _ a s

theorem showRdc (s : State) : PathFrame [.regs] a s (showRdc s a) := by
  unfold Machine.showRdc
  dsimp only
  split
  · exact refl _ a s
  · exact fset_own s _ (by decide)

theorem postDisk (s : State) (o : DiskOp) (status fail : Nat) : PathFrame [.rdc, .out] a s (postDisk s a o status fail) := by
  unfold Machine.postDisk
  have posted : PathFrame [.rdc] a s (Machine.modRdc s a fun r =>
      { r with done := r.done ++ [{ reply := o.reply, write := o.write, status := status, fail := fail }] }) :=
    modRdc s fun _ => ⟨rfl, List.Subset.refl _⟩
  exact (posted.mono (by decide)).trans ((emit _ _).mono (by decide))

theorem finishDisk (s : State) (o : DiskOp) (status fail : Nat) (urgent : Bool) :
    PathFrame [.regs, .rdc, .out] a s (finishDisk s a o status fail urgent) := by
  have shows := finishDisk_shows s a o status fail urgent
  have record := finishDisk_record s a o status fail urgent
  refine ⟨shows.others, by rw [record], by rw [record]; exact List.subset_append_left _ _,
    fun k _ out => shows.regs k fun own => ?_,
    shows.frame⟩
  rw [List.mem_singleton] at own
  subst own
  refine out ?_
  unfold InPath
  simp only [rdcF, Fld.ix, RDC_ACT_STATE_STATE]
  omega

theorem writeSectors (s : State) (o : DiskOp) (n : Nat) : PathFrame [.rdc, .nv] a s (writeSectors s a o n) :=
  ⟨writeSectors_others, by rw [writeSectors_record], by rw [writeSectors_record]; exact List.Subset.refl _, fun _ _ _ => rfl,
    writeSectors_unchanged s a o n⟩

end PathFrame

/-! ## The end of a calibration (R354 to R356) -/

section calibration

variable (s : State) (a p h z r : Nat)

/-- The state with the result of a calibration shown and reported. -/
def calShown : State :=
  let s := fset s (rdcF RDC_CAL_STAT_RESULT a) r
  let s := fset s (rdcF RDC_CAL_STAT_PROC a) p
  let s := fset s (rdcF RDC_CAL_STAT_HEAD a) h
  let s := fset s (rdcF RDC_CAL_STAT_ZONE a) z
  let s := dmkSend s 0x0603 (a + r * 32)
  if r = 1 then s else raise s (0x605 + 16 * a) (a + r * 32)

/-- The state with the calibration's latched successor taken. -/
def calNextTaken (s : State) (a : Nat) : State :=
  modRdc s a fun r => { r with calRun := r.calNext, calNext := none, gate := false }

theorem endCal_eq : endCal s a p h z r = showRdc (fset (fset (calNextTaken (calShown s a p h z r) a) (rdcF RDC_CAL_STAT_BUSY a)
    (b2n (getRdc (calNextTaken (calShown s a p h z r) a) a).calRun.isSome)) (rdcF RDC_CAL_STAT_PEND a) 0) a := rfl

theorem calShown_frame : PathFrame reportParts a s (calShown s a p h z r) := by
  unfold calShown
  dsimp only
  have fields : PathFrame [.regs] a s (fset (fset (fset (fset s (rdcF RDC_CAL_STAT_RESULT a) r) (rdcF RDC_CAL_STAT_PROC a) p)
      (rdcF RDC_CAL_STAT_HEAD a) h) (rdcF RDC_CAL_STAT_ZONE a) z) :=
    (PathFrame.fset_own _ _ (by decide)).trans ((PathFrame.fset_own _ _ (by decide)).trans
      ((PathFrame.fset_own _ _ (by decide)).trans (PathFrame.fset_own _ _ (by decide))))
  have sent := (fields.mono (by decide)).trans (PathFrame.dmkSend _ 0x0603 (a + r * 32))
  split
  · exact sent
  · exact sent.trans (PathFrame.raise _ _ _)

theorem calShown_rdc : (calShown s a p h z r).rdc = s.rdc := (calShown_frame s a p h z r).parts .rdc (by decide)

theorem endCal_record : getRdc (endCal s a p h z r) a =
    { getRdc s a with calRun := (getRdc s a).calNext, calNext := none, gate := false } := by
  rw [endCal_eq, getRdc_congr (showRdc_shows _ a).1, getRdc_fset, getRdc_fset, calNextTaken, getRdc_modRdc_same,
    getRdc_congr (calShown_rdc s a p h z r)]

theorem endCal_frame : PathFrame (.rdc :: reportParts) a s (endCal s a p h z r) := by
  rw [endCal_eq]
  have next : PathFrame [.rdc] a (calShown s a p h z r) (calNextTaken (calShown s a p h z r) a) :=
    PathFrame.modRdc _ fun _ => ⟨rfl, List.Subset.refl _⟩
  refine (((calShown_frame s a p h z r).mono (by decide)).trans (next.mono (by decide))).trans ?_
  refine ((PathFrame.fset_own _ _ (by decide)).trans ((PathFrame.fset_own _ _ (by decide)).trans (PathFrame.showRdc _))).mono
    (by decide)

theorem endCal_ops : SameOps a s (endCal s a p h z r) := by
  have record := endCal_record s a p h z r
  constructor <;> rw [record]

end calibration

/-- The RESULT and BUSY that a calibration leaves. -/
theorem endCal_shows (s : State) {a : Nat} (low : a < 32) (p h z : Nat) {r : Nat} (hr : r < 8) :
    fget (endCal s a p h z r) (rdcF RDC_CAL_STAT_RESULT a) = r ∧
      fget (endCal s a p h z r) (rdcF RDC_CAL_STAT_BUSY a) = b2n (getRdc s a).calNext.isSome := by
  have word : UnitWord (0xC00024 + a * 0x4000) := by
    unfold UnitWord
    omega
  have shown (f : Fld) (off : f.off = 0xC00024 + a * 0x4000) (u : State) : fget (showRdc u a) f = fget u f :=
    fget_regsBut (showRdc_shows u a).2.2 (by
      simp only [List.mem_singleton, off, rdcF, Fld.ix, RDC_ACT_STATE_STATE]
      omega)
  have result : fget (calShown s a p h z r) (rdcF RDC_CAL_STAT_RESULT a) = r := by
    unfold calShown
    dsimp only
    have told (u : State) : fget (if r = 1 then dmkSend u 0x0603 (a + r * 32) else
        raise (dmkSend u 0x0603 (a + r * 32)) (0x605 + 16 * a) (a + r * 32)) (rdcF RDC_CAL_STAT_RESULT a) =
        fget u (rdcF RDC_CAL_STAT_RESULT a) := by
      split
      · exact fget_congr (rget_dmkSend_unit word _ _ _)
      · exact fget_congr ((rget_raise_unit word _ _ _).trans (rget_dmkSend_unit word _ _ _))
    rw [told, fget_fset_ne _ (rdcF RDC_CAL_STAT_ZONE a) (rdcF RDC_CAL_STAT_RESULT a) _ (show 12 + 6 ≤ 32 by decide)
      (.inr (show 12 + 6 ≤ 1 ∨ 1 + 3 ≤ 12 by decide)),
      fget_fset_ne _ (rdcF RDC_CAL_STAT_HEAD a) (rdcF RDC_CAL_STAT_RESULT a) _ (show 8 + 4 ≤ 32 by decide)
        (.inr (show 8 + 4 ≤ 1 ∨ 1 + 3 ≤ 8 by decide)),
      fget_fset_ne _ (rdcF RDC_CAL_STAT_PROC a) (rdcF RDC_CAL_STAT_RESULT a) _ (show 5 + 2 ≤ 32 by decide)
        (.inr (show 5 + 2 ≤ 1 ∨ 1 + 3 ≤ 5 by decide)),
      fget_fset_same _ (rdcF RDC_CAL_STAT_RESULT a) _ (show 1 + 3 ≤ 32 by decide)]
    exact Nat.mod_eq_of_lt hr
  have taken : (getRdc (calNextTaken (calShown s a p h z r) a) a).calRun = (getRdc s a).calNext := by
    rw [calNextTaken, getRdc_modRdc_same, getRdc_congr (calShown_rdc s a p h z r)]
  rw [endCal_eq, taken]
  refine ⟨?_, ?_⟩
  · rw [shown _ rfl, fget_fset_ne _ (rdcF RDC_CAL_STAT_PEND a) (rdcF RDC_CAL_STAT_RESULT a) _ (show 4 + 1 ≤ 32 by decide)
      (.inr (show 4 + 1 ≤ 1 ∨ 1 + 3 ≤ 4 by decide)),
      fget_fset_ne _ (rdcF RDC_CAL_STAT_BUSY a) (rdcF RDC_CAL_STAT_RESULT a) _ (show 0 + 1 ≤ 32 by decide)
        (.inr (show 0 + 1 ≤ 1 ∨ 1 + 3 ≤ 0 by decide))]
    exact result
  · rw [shown _ rfl, fget_fset_ne _ (rdcF RDC_CAL_STAT_PEND a) (rdcF RDC_CAL_STAT_BUSY a) _ (show 4 + 1 ≤ 32 by decide)
      (.inr (show 4 + 1 ≤ 0 ∨ 0 + 1 ≤ 4 by decide)),
      fget_fset_same _ (rdcF RDC_CAL_STAT_BUSY a) _ (show 0 + 1 ≤ 32 by decide)]
    cases (getRdc s a).calNext.isSome <;> rfl

theorem abortCal_frame (s : State) (a r : Nat) : PathFrame (.rdc :: reportParts) a s (abortCal s a r) ∧
    SameOps a s (abortCal s a r) := by
  unfold abortCal
  split
  · exact ⟨endCal_frame s a _ _ _ r, endCal_ops s a _ _ _ r⟩
  · exact ⟨PathFrame.refl _ a s, sameOps_refl s⟩

/-! ## The gate falls (R352) -/

section gate

variable {s : State} {a : Nat}

theorem dropGate_idle (closed : (getRdc s a).gate = false) (status : Nat) (after : Bool) : dropGate s a status after = s :=
  if_pos (by rw [closed]; rfl)

section write

variable {o : DiskOp} (open_ : (getRdc s a).gate = true) (running : (getRdc s a).run = some o) (write : o.write = true)
include open_ running write

/-- The gate of a running WRITE falls at once. -/
theorem dropGate_write {status : Nat} (plain : status ≠ 0x21) :
    dropGate s a status = finishDisk s a o status (failMap (unwritten s a o)) true := by
  unfold dropGate
  dsimp only
  rw [if_neg (by rw [open_]; decide), running]
  dsimp only
  rw [if_neg (by rw [write]; decide), if_neg Bool.false_ne_true, running]
  exact if_neg plain

/-- The gate of a running WRITE falls after the sector in progress. -/
theorem dropGate_afterSector {status : Nat} (plain : status ≠ 0x21) : dropGate s a status true =
    finishDisk (writeSectors s a o 1) a (writtenTo s a 1 o) status
      (failMap (unwritten (writeSectors s a o 1) a (writtenTo s a 1 o))) true := by
  unfold dropGate
  dsimp only
  rw [if_neg (by rw [open_]; decide), running]
  dsimp only
  rw [if_neg (by rw [write]; decide), if_pos rfl, writeSectors_record]
  exact if_neg plain

end write

/-- What the gate's fall leaves. -/
theorem dropGate_frame (s : State) (a status : Nat) (after : Bool) :
    PathFrame (.nv :: .rdc :: reportParts) a s (dropGate s a status after) ∧
      (after = false → PathFrame (.rdc :: reportParts) a s (dropGate s a status after)) := by
  unfold dropGate
  dsimp only
  split
  · exact ⟨PathFrame.refl _ a s, fun _ => PathFrame.refl _ a s⟩
  · split
    case h_1 o running =>
      split
      · exact ⟨PathFrame.refl _ a s, fun _ => PathFrame.refl _ a s⟩
      · have ended (u : State) (o : DiskOp) : PathFrame (.rdc :: reportParts) a u
            (if status = 0x21 then raise (fbump (finishDisk u a o status (failMap (unwritten u a o)) true)
              (rdcF RDC_ERR_CNT1_WINHIB a))
              (0x603 + 16 * a) else finishDisk u a o status (failMap (unwritten u a o)) true) := by
          have finished := (PathFrame.finishDisk (a := a) u o status (failMap (unwritten u a o)) true).mono
            (P := .rdc :: reportParts) (by decide)
          split
          · exact finished.trans (((PathFrame.fbump_own _ 1 (by decide)).mono (by decide)).trans
              ((PathFrame.raise _ _ _).mono (by decide)))
          · exact finished
        refine ⟨?_, fun now => ?_⟩
        · refine PathFrame.trans ?_ ((ended _ _).mono (by decide))
          split
          · exact (PathFrame.writeSectors s o 1).mono (by decide)
          · exact PathFrame.refl _ a s
        · subst now
          exact ended s _
    case h_2 =>
      have aborted := ((abortCal_frame s a 4).1).trans ((PathFrame.setMode _ 2 true).mono (by decide))
      exact ⟨aborted.mono (by decide), fun _ => aborted⟩

/-- What the gate's fall does to the operations: nothing, or the running WRITE ends with the status. -/
theorem dropGate_ops {status : Nat} (plain : status ≠ 0x21) (after : Bool) :
    (getRdc (dropGate s a status after) a).queue = (getRdc s a).queue ∧
      (((getRdc (dropGate s a status after) a).run = (getRdc s a).run ∧
          (getRdc (dropGate s a status after) a).done = (getRdc s a).done) ∨
        ∃ o d, (getRdc s a).run = some o ∧ (getRdc (dropGate s a status after) a).run = none ∧
          (getRdc (dropGate s a status after) a).done = (getRdc s a).done ++ [d] ∧ d.reply = o.reply ∧ d.status = status) := by
  by_cases closed : (getRdc s a).gate = false
  · rw [dropGate_idle closed]
    exact ⟨rfl, .inl ⟨rfl, rfl⟩⟩
  · have open_ : (getRdc s a).gate = true := by simpa using closed
    cases running : (getRdc s a).run with
    | none =>
      have aborted : dropGate s a status after = setMode (abortCal s a 4) a 2 true := by
        unfold dropGate
        dsimp only
        rw [if_neg (by rw [open_]; decide), running]
      have ops := ((abortCal_frame s a 4).2).trans (Requested.setMode (a := a) (abortCal s a 4) 2 true).ops
      rw [aborted]
      exact ⟨ops.queue, .inl ⟨ops.run.trans running, ops.done⟩⟩
    | some o =>
      by_cases write : o.write = true
      · cases after with
        | false =>
          have ended := finishDisk_shows s a o status (failMap (unwritten s a o)) true
          rw [dropGate_write open_ running write plain]
          exact ⟨ended.queue, .inr ⟨o, _, rfl, ended.run, ended.done, rfl, rfl⟩⟩
        | true =>
          rw [dropGate_afterSector open_ running write plain]
          generalize failMap (unwritten (writeSectors s a o 1) a (writtenTo s a 1 o)) = fail
          have ended := finishDisk_shows (writeSectors s a o 1) a (writtenTo s a 1 o) status fail true
          refine ⟨ended.queue.trans (by rw [writeSectors_record]),
            .inr ⟨o, diskDone (writtenTo s a 1 o) status fail, rfl, ended.run, ended.done.trans ?_, rfl, rfl⟩⟩
          rw [writeSectors_record]
      · have kept : dropGate s a status after = s := by
          unfold dropGate
          dsimp only
          rw [if_neg (by rw [open_]; decide), running]
          exact if_pos (by simpa using write)
        rw [kept]
        exact ⟨rfl, .inl ⟨running, rfl⟩⟩

end gate

/-! ## Every operation of a data path ends -/

section endAll

variable {a : Nat}

theorem postDisk_done (s : State) (o : DiskOp) (status fail : Nat) : getRdc (postDisk s a o status fail) a =
    { getRdc s a with done := (getRdc s a).done ++ [diskDone o status fail] } := by
  rw [postDisk, getRdc_emit, getRdc_modRdc_same]
  rfl

/-- Completions posted one after the other. -/
theorem foldl_postDisk (f : State → DiskOp → Nat) (status : Nat) (q : List DiskOp) (s : State) :
    ∃ ds, getRdc (q.foldl (fun s o => postDisk s a o status (f s o)) s) a =
      { getRdc s a with done := (getRdc s a).done ++ ds } ∧
      (∀ o ∈ q, ∃ d ∈ ds, d.reply = o.reply ∧ d.status = status) ∧
      PathFrame [.rdc, .out] a s (q.foldl (fun s o => postDisk s a o status (f s o)) s) := by
  induction q generalizing s with
  | nil => exact ⟨[], by rw [List.append_nil]; rfl, fun o ho => absurd ho List.not_mem_nil, PathFrame.refl _ a s⟩
  | cons o q ih =>
    obtain ⟨ds, record, posted, frame⟩ := ih (postDisk s a o status (f s o))
    refine ⟨diskDone o status (f s o) :: ds, ?_, fun p hp => ?_, (PathFrame.postDisk s o status _).trans frame⟩
    · rw [List.foldl_cons, record, postDisk_done, List.append_assoc]
      rfl
    · rcases List.mem_cons.mp hp with rfl | later
      · exact ⟨diskDone p status (f s p), List.mem_cons_self, rfl, rfl⟩
      · obtain ⟨d, hd, is⟩ := posted p later
        exact ⟨d, List.mem_cons_of_mem _ hd, is⟩

/-- Every operation of the data path has ended with the status. -/
structure AllEnded (a status : Nat) (s t : State) : Prop where
  queue : (getRdc t a).queue = []
  run : (getRdc t a).run = none
  done : ∃ ds, (getRdc t a).done = (getRdc s a).done ++ ds ∧
    (∀ o ∈ (getRdc s a).queue, ∃ d ∈ ds, d.reply = o.reply ∧ d.status = status) ∧
    ∀ o, (getRdc s a).run = some o → ∃ d ∈ ds, d.reply = o.reply ∧ d.status = status
  frame : PathFrame [.regs, .rdc, .out] a s t

theorem endAllOps_ends (s : State) (status : Nat) : AllEnded a status s (endAllOps s a status) := by
  have first : ∃ u ds, endAllOps s a status = (getRdc u a).queue.foldl (fun s o => postDisk s a o status
        (failMap (if o.write then List.range (actZone s a o.band).2.frag else List.range o.count)))
        (modRdc u a fun r => { r with queue := [] }) ∧
      (getRdc u a).queue = (getRdc s a).queue ∧ (getRdc u a).run = none ∧ (getRdc u a).done = (getRdc s a).done ++ ds ∧
      (∀ o, (getRdc s a).run = some o → ∃ d ∈ ds, d.reply = o.reply ∧ d.status = status) ∧
        PathFrame [.regs, .rdc, .out] a s u := by
    unfold endAllOps
    cases running : (getRdc s a).run with
    | none => exact ⟨s, [], rfl, rfl, running, (List.append_nil _).symm, fun o ho => by simp at ho, PathFrame.refl _ a s⟩
    | some o =>
      have ended := finishDisk_shows s a o status (failMap (if o.write then unwritten s a o else o.left)) true
      have itself : ∀ p, some o = some p →
          ∃ d ∈ [diskDone o status (failMap (if o.write then unwritten s a o else o.left))], d.reply = p.reply ∧
            d.status = status := by
        rintro p ⟨⟩
        exact ⟨_, List.mem_cons_self, rfl, rfl⟩
      exact ⟨_, _, rfl, ended.queue, ended.run, ended.done, itself, PathFrame.finishDisk s o _ _ _⟩
  obtain ⟨u, ds, whole, queue, run, done, ran, frame⟩ := first
  have emptied : PathFrame [.rdc] a u (modRdc u a fun r => { r with queue := [] }) :=
    PathFrame.modRdc u fun _ => ⟨rfl, List.Subset.refl _⟩
  have record : getRdc (modRdc u a fun r => { r with queue := [] }) a = { getRdc u a with queue := [] } :=
    getRdc_modRdc_same _ _ _
  obtain ⟨es, final, posted, last⟩ := foldl_postDisk (a := a) (fun s o =>
    failMap (if o.write then List.range (actZone s a o.band).2.frag else List.range o.count)) status (getRdc u a).queue
    (modRdc u a fun r => { r with queue := [] })
  rw [record] at final
  rw [whole]
  refine ⟨by rw [final], by rw [final]; exact run, ⟨ds ++ es, ?_, fun o ho => ?_, fun o ho => ?_⟩,
    (frame.trans (emptied.mono (by decide))).trans (last.mono (by decide))⟩
  · rw [final, ← List.append_assoc, ← done]
  · obtain ⟨d, hd, is⟩ := posted o (queue ▸ ho)
    exact ⟨d, List.mem_append_right _ hd, is⟩
  · obtain ⟨d, hd, is⟩ := ran o ho
    exact ⟨d, List.mem_append_left _ hd, is⟩

end endAll

end Sys2Proof.Laws
end

section
/-!
PROOFS. What the operations of one arm show in its SRV_ and VCM_ registers and leave in its record (R385 to R404).
-/

namespace Sys2Proof.Laws

open Sys2Proof.Machine

/-! ## Fields of one arm's registers -/

/-- A field of the SRV_ window of actuator 0. -/
abbrev SrvFld (f : Fld) : Prop := 0xD00000 ≤ f.off ∧ f.off < 0xD01000

/-- A field of the VCM_ window of actuator 0. -/
abbrev VcmFld (f : Fld) : Prop := 0xF80000 ≤ f.off ∧ f.off < 0xF80400

/-- Two fields that share no bit. -/
abbrev FldApart (f g : Fld) : Prop := f.lo + f.w ≤ 32 ∧ (g.off ≠ f.off ∨ f.lo + f.w ≤ g.lo ∨ g.lo + g.w ≤ f.lo)

section fields

variable (s : State) {a : Nat} {f g : Fld} (x : Nat)

theorem fget_fset_ix (stride : Nat) (apart : FldApart f g) :
    fget (fset s (f.ix a stride) x) (g.ix a stride) = fget s (g.ix a stride) := by
  refine fget_fset_ne s (f.ix a stride) (g.ix a stride) x apart.1 ?_
  rcases apart.2 with other | beside
  · exact .inl fun same => other (Nat.add_right_cancel same)
  · exact .inr beside

@[simp] theorem fget_fset_srv (apart : FldApart f g) : fget (fset s (srvF f a) x) (srvF g a) = fget s (srvF g a) :=
  fget_fset_ix s x 0x1000 apart

@[simp] theorem fget_fset_srv_same (fits : f.lo + f.w ≤ 32) : fget (fset s (srvF f a) x) (srvF f a) = x % 2 ^ f.w :=
  fget_fset_same s (srvF f a) x fits

@[simp] theorem fget_fset_vcm (apart : FldApart f g) : fget (fset s (vcmF f a) x) (vcmF g a) = fget s (vcmF g a) :=
  fget_fset_ix s x 0x400 apart

@[simp] theorem fget_fset_vcm_same (fits : f.lo + f.w ≤ 32) : fget (fset s (vcmF f a) x) (vcmF f a) = x % 2 ^ f.w :=
  fget_fset_same s (vcmF f a) x fits

variable (low : a < 32)
include low

@[simp] theorem fget_fset_vcm_srv (hf : VcmFld f) (hg : SrvFld g) : fget (fset s (vcmF f a) x) (srvF g a) = fget s (srvF g a) :=
  fget_fset_off s _ _ x (by simp only [srvF, vcmF, Fld.ix]; omega)

@[simp] theorem fget_fset_srv_vcm (hf : SrvFld f) (hg : VcmFld g) : fget (fset s (srvF f a) x) (vcmF g a) = fget s (vcmF g a) :=
  fget_fset_off s _ _ x (by simp only [srvF, vcmF, Fld.ix]; omega)

omit f in
theorem srvFld_drive (hg : SrvFld g) : DriveWord (srvF g a).off ∧ ¬InPath a (srvF g a).off := by
  simp only [srvF, Fld.ix, DriveWord, InPath]
  omega

omit f in
theorem vcmFld_drive (hg : VcmFld g) : DriveWord (vcmF g a).off ∧ ¬InPath a (vcmF g a).off := by
  simp only [vcmF, Fld.ix, DriveWord, InPath]
  omega

omit low in
/-- The count of a field of eight bits. -/
theorem fget_fbump_srv (fits : f.lo + f.w ≤ 32) :
    fget (fbump s (srvF f a)) (srvF f a) = min (fget s (srvF f a) + 1) (2 ^ f.w - 1) :=
  fget_fbump s (srvF f a) fits

omit low in
@[simp] theorem fget_fbump_srv_apart (n : Nat) (apart : FldApart f g) :
    fget (fbump s (srvF f a) n) (srvF g a) = fget s (srvF g a) :=
  fget_fset_srv s _ apart

@[simp] theorem fget_fbump_srv_vcm (n : Nat) (hf : SrvFld f) (hg : VcmFld g) :
    fget (fbump s (srvF f a) n) (vcmF g a) = fget s (vcmF g a) :=
  fget_fset_srv_vcm s _ low hf hg

omit f in
/-- Operations of the data path leave the arm's fields. -/
theorem PathFrame.fget_srv {P : List Part} {t : State} (h : PathFrame P a s t) (hg : SrvFld g) :
    fget t (srvF g a) = fget s (srvF g a) :=
  fget_congr (h.regs _ (srvFld_drive low hg).1 (srvFld_drive low hg).2)

omit f in
theorem PathFrame.fget_vcm {P : List Part} {t : State} (h : PathFrame P a s t) (hg : VcmFld g) :
    fget t (vcmF g a) = fget s (vcmF g a) :=
  fget_congr (h.regs _ (vcmFld_drive low hg).1 (vcmFld_drive low hg).2)

end fields

/-! ## An arm's record -/

section record

variable (s : State) (a : Nat)

theorem getSrv_modSrv (f : Servo → Servo) (b : Nat) : getSrv (modSrv s a f) b = if b = a then f (getSrv s a) else getSrv s b :=
  tget_tmod _ _ _ _ _

@[simp] theorem getSrv_modSrv_same (f : Servo → Servo) : getSrv (modSrv s a f) a = f (getSrv s a) :=
  (getSrv_modSrv s a f a).trans (if_pos rfl)

theorem getSrv_congr {s t : State} (h : t.srv = s.srv) (a : Nat) : getSrv t a = getSrv s a := by rw [getSrv, h, getSrv]

@[simp] theorem getSrv_fset (f : Fld) (x : Nat) : getSrv (fset s f x) a = getSrv s a := rfl
@[simp] theorem getSrv_fbump (f : Fld) (n : Nat) : getSrv (fbump s f n) a = getSrv s a := rfl

end record

/-! ## Frames of an arm's operations -/

/-- The parts that an arm's operations may change. -/
abbrev armParts : List Part := .srv :: .rdc :: reportParts

/-- What an arm's operations leave: the other data paths, the temperature, the frames that wait, and every part but the servos',
the data paths' and the reports'. -/
structure ArmFrame (a : Nat) (s t : State) : Prop where
  others : RdcOthers a s t
  temp : (getRdc t a).temp = (getRdc s a).temp
  frames : (getRdc s a).frames ⊆ (getRdc t a).frames
  parts : Unchanged armParts s t

namespace ArmFrame

variable {a : Nat} {s t u : State}

theorem trans (h : ArmFrame a s t) (k : ArmFrame a t u) : ArmFrame a s u :=
  ⟨h.others.trans k.others, k.temp.trans h.temp, List.Subset.trans h.frames k.frames, unchanged_trans h.parts k.parts⟩

theorem refl (a : Nat) (s : State) : ArmFrame a s s := ⟨fun _ _ => rfl, rfl, List.Subset.refl _, unchanged_refl _ s⟩

theorem of_path {P : List Part} (h : PathFrame P a s t) (hP : P ⊆ armParts) : ArmFrame a s t :=
  ⟨h.others, h.temp, h.frames, unchanged_mono h.parts hP⟩

theorem of_parts {Q : List Part} (h : Unchanged Q s t) (rdc : Part.rdc ∉ Q) (hQ : Q ⊆ armParts) : ArmFrame a s t := by
  have same := h .rdc rdc
  exact ⟨fun b _ => getRdc_congr same b, by rw [getRdc_congr same], by rw [getRdc_congr same]; exact List.Subset.refl _,
    unchanged_mono h hQ⟩

theorem fset (s : State) (f : Fld) (x : Nat) : ArmFrame a s (fset s f x) :=
    of_parts (fset_unchanged s f x) (by decide) (by decide)

theorem fsetBit (s : State) (f : Fld) (i : Nat) (b : Bool) : ArmFrame a s (fsetBit s f i b) :=
  of_parts (fsetBit_unchanged s f i b) (by decide) (by decide)

theorem fbump (s : State) (f : Fld) (n : Nat) : ArmFrame a s (fbump s f n) := fset s f _

theorem emit (s : State) (o : Out) : ArmFrame a s (emit s o) := of_parts (emit_unchanged s o) (by decide) (by decide)

theorem modSrv (s : State) (b : Nat) (f : Servo → Servo) : ArmFrame a s (modSrv s b f) :=
  of_parts (modSrv_unchanged s b f) (by decide) (by decide)

theorem raise (s : State) (src data : Nat) : ArmFrame a s (raise s src data) :=
  of_parts (raise_unchanged s src data) (by decide) (by decide)

theorem dmkSend (s : State) (code data : Nat) : ArmFrame a s (dmkSend s code data) :=
  of_parts (dmkSend_unchanged s code data) (by decide) (by decide)

end ArmFrame

/-! ## Inhibits and states (R386, R387) -/

section states

variable (s : State) {a : Nat}

/-- What a trip of the comparator leaves of the arm. -/
theorem compTrip_arm (a : Nat) : ArmFrame a s (compTrip s a) ∧ (compTrip s a).srv = s.srv ∧
    ∀ k, DriveWord k → ¬InPath a k → k ≠ (srvF SRV_ERR_CNT0_OFFTRK a).off → rget (compTrip s a) k = rget s k := by
  unfold compTrip
  split
  · have fell := (dropGate_frame s a 0x21 false).2 rfl
    refine ⟨((ArmFrame.of_path fell (by decide)).trans (ArmFrame.fbump _ _ 1)).trans (ArmFrame.raise _ _ 0), ?_,
      fun k hk out other => ?_⟩
    · exact (raise_unchanged _ _ 0 .srv (by decide)).trans (fell.parts .srv (by decide))
    · exact (rget_raise_unit hk.unit _ _ _).trans ((rget_fset _ _ _ _ other).trans (fell.regs k hk out))
  · exact ⟨ArmFrame.refl a s, rfl, fun _ _ _ _ => rfl⟩

@[simp] theorem getSrv_compTrip (b : Nat) : getSrv (compTrip s a) b = getSrv s b := getSrv_congr (compTrip_arm s a).2.1 b

@[simp] theorem fget_compTrip_srv (low : a < 32) {g : Fld} (hg : SrvFld g) (other : g.off ≠ SRV_ERR_CNT0_OFFTRK.off) :
    fget (compTrip s a) (srvF g a) = fget s (srvF g a) :=
  fget_congr ((compTrip_arm s a).2.2 _ (srvFld_drive low hg).1 (srvFld_drive low hg).2 fun same => other
    (Nat.add_right_cancel same))

@[simp] theorem fget_compTrip_vcm (low : a < 32) {g : Fld} (hg : VcmFld g) :
    fget (compTrip s a) (vcmF g a) = fget s (vcmF g a) :=
  fget_congr ((compTrip_arm s a).2.2 _ (vcmFld_drive low hg).1 (vcmFld_drive low hg).2 (by
    simp only [srvF, vcmF, Fld.ix, SRV_ERR_CNT0_OFFTRK]
    omega))

/-- One bit of a field as a field. -/
abbrev bitFld (f : Fld) (i : Nat) : Fld := { f with lo := f.lo + i, w := 1 }

theorem fsetBit_srv (f : Fld) (i : Nat) (b : Bool) :
    fsetBit s (srvF f a) i b = fset s (srvF (bitFld f i) a) (if b then 1 else 0) := rfl

theorem setInhibit_arm (a k : Nat) (b : Bool) : ArmFrame a s (setInhibit s a k b) := by
  unfold setInhibit
  dsimp only
  split
  · exact (ArmFrame.fsetBit s _ _ _).trans (compTrip_arm _ a).1
  · exact ArmFrame.fsetBit s _ _ _

@[simp] theorem getSrv_setInhibit (k : Nat) (b : Bool) (c : Nat) : getSrv (setInhibit s a k b) c = getSrv s c := by
  unfold setInhibit
  dsimp only
  split
  · exact getSrv_compTrip _ _
  · rfl

@[simp] theorem fget_setInhibit_srv (low : a < 32) (k : Nat) (b : Bool) {g : Fld} (hg : SrvFld g)
    (other : g.off ≠ SRV_ERR_CNT0_OFFTRK.off) (apart : FldApart (bitFld SRV_ACT_INHIBIT k) g) :
    fget (setInhibit s a k b) (srvF g a) = fget s (srvF g a) := by
  unfold setInhibit
  dsimp only
  rw [fsetBit_srv]
  split
  · exact (fget_compTrip_srv _ low hg other).trans (fget_fset_srv s _ apart)
  · exact fget_fset_srv s _ apart

@[simp] theorem fget_setInhibit_vcm (low : a < 32) (k : Nat) (b : Bool) {g : Fld} (hg : VcmFld g) :
    fget (setInhibit s a k b) (vcmF g a) = fget s (vcmF g a) := by
  unfold setInhibit
  dsimp only
  rw [fsetBit_srv]
  have off : SrvFld (bitFld SRV_ACT_INHIBIT k) := show SrvFld SRV_ACT_INHIBIT by decide
  split
  · exact (fget_compTrip_vcm _ low hg).trans (fget_fset_srv_vcm s _ low off hg)
  · exact fget_fset_srv_vcm s _ low off hg

/-- The state with an arm's new state shown. -/
theorem setSrvState_eq (a st : Nat) : setSrvState s a st =
    setInhibit (modSrv (fset s (srvF SRV_ACT_STATE a) st) a fun v => { v with stateNs := s.tb.ns }) a 7 (decide (st ≠ 7)) := by
  unfold setSrvState
  dsimp only
  split
  case isTrue follow => rw [show decide (st ≠ 7) = false by simp [follow]]; rfl
  case isFalse away => rw [show decide (st ≠ 7) = true by simp [away]]; rfl

theorem setSrvState_arm (a st : Nat) : ArmFrame a s (setSrvState s a st) := by
  rw [setSrvState_eq]
  exact ((ArmFrame.fset s _ _).trans (ArmFrame.modSrv _ a _)).trans (setInhibit_arm _ a 7 _)

@[simp] theorem getSrv_setSrvState (st : Nat) : getSrv (setSrvState s a st) a = { getSrv s a with stateNs := s.tb.ns } := by
  rw [setSrvState_eq, getSrv_setInhibit, getSrv_modSrv_same, getSrv_fset]

@[simp] theorem srvState_setSrvState (low : a < 32) {st : Nat} (hst : st < 16) :
    fget (setSrvState s a st) (srvF SRV_ACT_STATE a) = st := by
  rw [setSrvState_eq, fget_setInhibit_srv _ low _ _ (by decide) (by decide) (by decide), fget_modSrv,
    fget_fset_srv_same _ _ (by decide)]
  exact Nat.mod_eq_of_lt hst

@[simp] theorem fget_setSrvState_srv (low : a < 32) (st : Nat) {g : Fld} (hg : SrvFld g)
    (other : g.off ≠ SRV_ERR_CNT0_OFFTRK.off)
    (state : FldApart SRV_ACT_STATE g) (inhibit : FldApart (bitFld SRV_ACT_INHIBIT 7) g) :
    fget (setSrvState s a st) (srvF g a) = fget s (srvF g a) := by
  rw [setSrvState_eq, fget_setInhibit_srv _ low _ _ hg other inhibit, fget_modSrv, fget_fset_srv _ _ state]

@[simp] theorem fget_setSrvState_vcm (low : a < 32) (st : Nat) {g : Fld} (hg : VcmFld g) :
    fget (setSrvState s a st) (vcmF g a) = fget s (vcmF g a) := by
  rw [setSrvState_eq, fget_setInhibit_vcm _ low _ _ hg, fget_modSrv, fget_fset_srv_vcm _ _ low (by decide) hg]

/-! ## Tracks, bridges and park records -/

theorem offTrack_arm (a : Nat) : ArmFrame a s (offTrack s a) :=
  ((ArmFrame.modSrv s a _).trans (ArmFrame.fset _ _ _)).trans (ArmFrame.fset _ _ _)

@[simp] theorem getSrv_offTrack : getSrv (offTrack s a) a = { getSrv s a with onRun := 0, rdRun := 0 } :=
  getSrv_modSrv_same s a fun v => { v with onRun := 0, rdRun := 0 }

theorem offTrack_shows : fget (offTrack s a) (srvF SRV_ACT_ON_TRACK a) = 0 ∧
    fget (offTrack s a) (srvF SRV_ACT_RD_READY a) = 0 := by
  unfold offTrack
  dsimp only
  refine ⟨?_, fget_fset_srv_same _ _ (by decide)⟩
  rw [fget_fset_srv _ _ (by decide), fget_fset_srv_same _ _ (by decide)]
  rfl

@[simp] theorem fget_offTrack_srv {g : Fld} (on : FldApart SRV_ACT_ON_TRACK g) (rd : FldApart SRV_ACT_RD_READY g) :
    fget (offTrack s a) (srvF g a) = fget s (srvF g a) := by
  unfold offTrack
  dsimp only
  rw [fget_fset_srv _ _ rd, fget_fset_srv _ _ on, fget_modSrv]

@[simp] theorem fget_offTrack_vcm (low : a < 32) {g : Fld} (hg : VcmFld g) :
    fget (offTrack s a) (vcmF g a) = fget s (vcmF g a) := by
  unfold offTrack
  dsimp only
  rw [fget_fset_srv_vcm _ _ low (by decide) hg, fget_fset_srv_vcm _ _ low (by decide) hg, fget_modSrv]

theorem setBridge_arm (a : Nat) (on : Bool) : ArmFrame a s (setBridge s a on) := (ArmFrame.emit s _).trans (ArmFrame.fset _ _ _)

@[simp] theorem getSrv_setBridge (on : Bool) (b : Nat) : getSrv (setBridge s a on) b = getSrv s b := rfl

@[simp] theorem fget_setBridge_srv (low : a < 32) (on : Bool) {g : Fld} (hg : SrvFld g) :
    fget (setBridge s a on) (srvF g a) = fget s (srvF g a) := fget_fset_vcm_srv _ _ low (by decide) hg

@[simp] theorem fget_setBridge_vcm (on : Bool) {g : Fld} (apart : FldApart VCM_STATE_BRIDGE g) :
    fget (setBridge s a on) (vcmF g a) = fget s (vcmF g a) := fget_fset_vcm _ _ apart

theorem bridge_setBridge (on : Bool) : fget (setBridge s a on) (vcmF VCM_STATE_BRIDGE a) = b2n on := by
  refine (fget_fset_vcm_same _ _ (by decide)).trans ?_
  cases on <;> rfl

end states

/-! ## Offset calibrations that are aborted (R385) -/

section offsets

variable (s : State) {a : Nat} (r : Nat)

/-- The state with an offset calibration's result shown and reported. -/
def ofsShown (s : State) (a r : Nat) : State :=
  if r = 1 then fset s (srvF SRV_CAL_RESULT a) r
  else raise (dmkSend (fset s (srvF SRV_CAL_RESULT a) r) 0x0616 (a + r * 32)) (0x60F + 16 * a) (a + r * 32)

theorem endOfsCal_eq (a : Nat) : ∃ x, endOfsCal s a r =
    fset (fset (modSrv (ofsShown s a r) a fun v => { v with calRun := v.calNext, calNext := none }) (srvF SRV_CAL_BUSY a) x)
      (srvF SRV_CAL_PEND a) 0 := ⟨_, rfl⟩

theorem ofsShown_frame (a : Nat) : Unchanged reportParts s (ofsShown s a r) ∧
    ∀ k, DriveWord k → k ≠ (srvF SRV_CAL_RESULT a).off → rget (ofsShown s a r) k = rget s k := by
  unfold ofsShown
  split
  · exact ⟨unchanged_mono (fset_unchanged s _ _) (by decide), fun k _ other => rget_fset _ _ _ _ other⟩
  · refine ⟨?_, fun k hk other => ?_⟩
    · rw [after_raise _ _ (List.Subset.refl _), after_dmkSend _ _ (List.Subset.refl _), after_fset _ _ (by decide)]
      exact unchanged_refl _ s
    · exact (rget_raise_unit hk.unit _ _ _).trans ((rget_dmkSend_unit hk.unit _ _ _).trans (rget_fset _ _ _ _ other))

/-- What an aborted offset calibration leaves. -/
structure OfsAborted (a : Nat) (s t : State) : Prop where
  srv : ∃ c n, getSrv t a = { getSrv s a with calRun := c, calNext := n }
  regs : ∀ k, DriveWord k → k ≠ (srvF SRV_CAL_RESULT a).off → rget t k = rget s k
  parts : Unchanged (.srv :: reportParts) s t

theorem abortOfsCal_aborts (a : Nat) : OfsAborted a s (abortOfsCal s a r) := by
  unfold abortOfsCal
  split
  · obtain ⟨x, whole⟩ := endOfsCal_eq s r a
    obtain ⟨parts, regs⟩ := ofsShown_frame s r a
    rw [whole]
    refine ⟨⟨(getSrv s a).calNext, none, ?_⟩, fun k hk other => ?_, ?_⟩
    · have same := getSrv_congr (parts .srv (by decide)) a
      refine (getSrv_modSrv_same (ofsShown s a r) a fun v => { v with calRun := v.calNext, calNext := none }).trans ?_
      rw [same]
    · rw [rget_fset _ (srvF SRV_CAL_PEND a) 0 k other, rget_fset _ (srvF SRV_CAL_BUSY a) x k other]
      exact regs k hk other
    · rw [after_fset _ _ (by decide), after_fset _ _ (by decide), after_modSrv _ _ _ (by decide)]
      exact unchanged_mono parts (by decide)
  · exact ⟨⟨_, _, rfl⟩, fun _ _ _ => rfl, unchanged_refl _ s⟩

theorem abortOfsCal_arm (a : Nat) : ArmFrame a s (abortOfsCal s a r) :=
  ArmFrame.of_parts (abortOfsCal_aborts s r a).parts (by decide) (by decide)

@[simp] theorem fget_abortOfsCal_srv (low : a < 32) {g : Fld} (hg : SrvFld g) (other : g.off ≠ SRV_CAL_RESULT.off) :
    fget (abortOfsCal s a r) (srvF g a) = fget s (srvF g a) :=
  fget_congr ((abortOfsCal_aborts s r a).regs _ (srvFld_drive low hg).1 fun same => other (Nat.add_right_cancel same))

@[simp] theorem fget_abortOfsCal_vcm (low : a < 32) {g : Fld} (hg : VcmFld g) :
    fget (abortOfsCal s a r) (vcmF g a) = fget s (vcmF g a) :=
  fget_congr ((abortOfsCal_aborts s r a).regs _ (vcmFld_drive low hg).1 (by
    simp only [srvF, vcmF, Fld.ix, SRV_CAL_RESULT]
    omega))

end offsets

/-! ## Unloads begin (R400, R401) -/

section unload

variable (s : State) {a : Nat}

/-- MODE leaves READ and WRITE. -/
def modeLeft (s : State) (a : Nat) : State :=
  if fget s (rdcF RDC_ACT_STATE_PA_MODE a) = 3 || fget s (rdcF RDC_ACT_STATE_PA_MODE a) = 4 then setMode s a 2 true else s

theorem modeLeft_frame (a : Nat) : PathFrame [.rdc] a s (modeLeft s a) := by
  unfold modeLeft
  split
  · exact PathFrame.setMode s 2 true
  · exact PathFrame.refl _ a s

theorem unloadStart_eq (a : Nat) : unloadStart s a = heaterOff (offTrack (modeLeft (abortCal s a 6) a) a) a := rfl

theorem unloadStart_path (a : Nat) : PathFrame (.rdc :: reportParts) a s (modeLeft (abortCal s a 6) a) :=
  (abortCal_frame s a 6).1.trans ((modeLeft_frame _ a).mono (by decide))

theorem unloadStart_arm (a : Nat) : ArmFrame a s (unloadStart s a) := by
  rw [unloadStart_eq]
  exact ((ArmFrame.of_path (unloadStart_path s a) (by decide)).trans (offTrack_arm _ a)).trans
    (ArmFrame.of_path (PathFrame.heaterOff _) (by decide))

@[simp] theorem getSrv_unloadStart : getSrv (unloadStart s a) a = { getSrv s a with onRun := 0, rdRun := 0 } := by
  rw [unloadStart_eq, getSrv_congr ((PathFrame.heaterOff _).parts .srv (by decide)), getSrv_offTrack,
    getSrv_congr ((unloadStart_path s a).parts .srv (by decide))]

variable (low : a < 32)
include low

theorem unloadStart_shows : fget (unloadStart s a) (srvF SRV_ACT_ON_TRACK a) = 0 ∧
    fget (unloadStart s a) (srvF SRV_ACT_RD_READY a) = 0 := by
  rw [unloadStart_eq, PathFrame.fget_srv _ low (PathFrame.heaterOff _) (by decide),
    PathFrame.fget_srv _ low (PathFrame.heaterOff _) (by decide)]
  exact offTrack_shows _

@[simp] theorem fget_unloadStart_srv {g : Fld} (hg : SrvFld g) (on : FldApart SRV_ACT_ON_TRACK g)
    (rd : FldApart SRV_ACT_RD_READY g) :
    fget (unloadStart s a) (srvF g a) = fget s (srvF g a) := by
  rw [unloadStart_eq, PathFrame.fget_srv _ low (PathFrame.heaterOff _) hg, fget_offTrack_srv _ on rd,
    PathFrame.fget_srv _ low (unloadStart_path s a) hg]

@[simp] theorem fget_unloadStart_vcm {g : Fld} (hg : VcmFld g) : fget (unloadStart s a) (vcmF g a) = fget s (vcmF g a) := by
  rw [unloadStart_eq, PathFrame.fget_vcm _ low (PathFrame.heaterOff _) hg, fget_offTrack_vcm _ low hg,
    PathFrame.fget_vcm _ low (unloadStart_path s a) hg]

end unload

/-! ## The sequencer and the guided form -/

/-- The voltages of an unload and of a load depend on the temperature, the image and the parameters only. -/
theorem coilVolts_congr {s t : State} {a : Nat} (temp : (getRdc t a).temp = (getRdc s a).temp) (loader : t.loader = s.loader)
    (pwr : t.pwr = s.pwr) : unloadVolts t a = unloadVolts s a ∧ loadVolts t a = loadVolts s a := by
  have value (p : Nat) : paramValue t p = paramValue s p := by rw [paramValue, paramValue, param, param, pwr]
  have rec_ : actRec t a = actRec s a := by simp only [actRec, image, loader]
  have heat : hdaTemp t a = hdaTemp s a := by simp only [hdaTemp, temp]
  constructor
  · simp only [unloadVolts, coilR, value, rec_, heat, pwr]
  · simp only [loadVolts, coilR, value, rec_, heat, pwr]

theorem ArmFrame.volts {s t : State} {a : Nat} (h : ArmFrame a s t) :
    unloadVolts t a = unloadVolts s a ∧ loadVolts t a = loadVolts s a :=
  coilVolts_congr h.temp (h.parts .loader (by decide)) (h.parts .pwr (by decide))

section moves

variable (s : State) {a : Nat}

/-- The arm before the sequencer or the guided form starts. -/
def unloadReady (s : State) (a : Nat) : State := abortOfsCal (unloadStart s a) a 5

theorem unloadReady_arm (a : Nat) : ArmFrame a s (unloadReady s a) := (unloadStart_arm s a).trans (abortOfsCal_arm _ 5 a)

theorem unloadReady_srv : ∃ c n, getSrv (unloadReady s a) a =
    { getSrv s a with onRun := 0, rdRun := 0, calRun := c, calNext := n } := by
  obtain ⟨c, n, srv⟩ := (abortOfsCal_aborts (unloadStart s a) 5 a).srv
  exact ⟨c, n, srv.trans (by rw [getSrv_unloadStart])⟩

/-- The sequencer after its state is shown. -/
def seqDriven (s : State) (a : Nat) : State :=
  modSrv (setSrvState (unloadReady s a) a 10) a fun v =>
    { v with seek := none, volts := unloadVolts (setSrvState (unloadReady s a) a 10) a }

theorem retract_eq (a : Nat) : retract s a = fset (fset (fbump (setBridge (seqDriven s a) a true) (srvF SRV_ERR_CNT1_RETRACT a))
    (vcmF VCM_STATE_RETRACT a) 1) (srvF SRV_ACT_PHASE a) 0 := rfl

theorem seqDriven_arm (a : Nat) : ArmFrame a s (seqDriven s a) :=
  ((unloadReady_arm s a).trans (setSrvState_arm _ a 10)).trans (ArmFrame.modSrv _ a _)

theorem retract_arm (a : Nat) : ArmFrame a s (retract s a) := by
  rw [retract_eq]
  exact ((((seqDriven_arm s a).trans (setBridge_arm _ a true)).trans (ArmFrame.fbump _ _ 1)).trans (ArmFrame.fset _ _ _)).trans
    (ArmFrame.fset _ _ _)

theorem retract_srv : ∃ c n ns, getSrv (retract s a) a = { getSrv s a with
    onRun := 0, rdRun := 0, calRun := c, calNext := n, stateNs := ns, seek := none, volts := unloadVolts s a } := by
  obtain ⟨c, n, srv⟩ := unloadReady_srv s (a := a)
  refine ⟨c, n, (unloadReady s a).tb.ns, ?_⟩
  rw [retract_eq, getSrv_fset, getSrv_fset, getSrv_fbump, getSrv_setBridge, seqDriven, getSrv_modSrv_same,
    getSrv_setSrvState, srv,
    ((unloadReady_arm s a).trans (setSrvState_arm _ a 10)).volts.1]

variable (low : a < 32)
include low

/-- The registers of a sequencer that has started. -/
theorem retract_shows : srvState (retract s a) a = 10 ∧ fget (retract s a) (vcmF VCM_STATE_RETRACT a) = 1 ∧
    fget (retract s a) (vcmF VCM_STATE_BRIDGE a) = 1 ∧
    fget (retract s a) (srvF SRV_ERR_CNT1_RETRACT a) = min (fget s (srvF SRV_ERR_CNT1_RETRACT a) + 1) 255 ∧
    fget (retract s a) (srvF SRV_ACT_ON_TRACK a) = 0 ∧ fget (retract s a) (srvF SRV_ACT_RD_READY a) = 0 := by
  obtain ⟨on, rd⟩ := unloadStart_shows s low
  unfold srvState
  rw [retract_eq]
  refine ⟨?_, ?_, ?_, ?_, ?_, ?_⟩
  · rw [fget_fset_srv _ _ (by decide), fget_fset_vcm_srv _ _ low (by decide) (by decide), fget_fbump_srv_apart _ _ (by decide),
      fget_setBridge_srv _ low _ (by decide), seqDriven, fget_modSrv, srvState_setSrvState _ low (by decide)]
  · rw [fget_fset_srv_vcm _ _ low (by decide) (by decide), fget_fset_vcm_same _ _ (by decide)]
    rfl
  · rw [fget_fset_srv_vcm _ _ low (by decide) (by decide), fget_fset_vcm _ _ (by decide),
      fget_fbump_srv_vcm _ low _ (by decide) (by decide), bridge_setBridge]
    rfl
  · rw [fget_fset_srv _ _ (by decide), fget_fset_vcm_srv _ _ low (by decide) (by decide), fget_fbump_srv _ (by decide),
      fget_setBridge_srv _ low _ (by decide), seqDriven, fget_modSrv,
      fget_setSrvState_srv _ low _ (by decide) (by decide) (by decide) (by decide), unloadReady,
      fget_abortOfsCal_srv _ _ low (by decide) (by decide), fget_unloadStart_srv _ low (by decide) (by decide) (by decide)]
    rfl
  · rw [fget_fset_srv _ _ (by decide), fget_fset_vcm_srv _ _ low (by decide) (by decide), fget_fbump_srv_apart _ _ (by decide),
      fget_setBridge_srv _ low _ (by decide), seqDriven, fget_modSrv,
      fget_setSrvState_srv _ low _ (by decide) (by decide) (by decide) (by decide), unloadReady,
      fget_abortOfsCal_srv _ _ low (by decide) (by decide), on]
  · rw [fget_fset_srv _ _ (by decide), fget_fset_vcm_srv _ _ low (by decide) (by decide), fget_fbump_srv_apart _ _ (by decide),
      fget_setBridge_srv _ low _ (by decide), seqDriven, fget_modSrv,
      fget_setSrvState_srv _ low _ (by decide) (by decide) (by decide) (by decide), unloadReady,
      fget_abortOfsCal_srv _ _ low (by decide) (by decide), rd]

/-- The fields a sequencer's start leaves. -/
theorem fget_retract_srv {g : Fld} (hg : SrvFld g)
    (other : g.off ≠ SRV_ACT_STATE.off ∧ g.off ≠ SRV_ERR_CNT0_OFFTRK.off ∧ g.off ≠ SRV_CAL_RESULT.off)
    (count : FldApart SRV_ERR_CNT1_RETRACT g) : fget (retract s a) (srvF g a) = fget s (srvF g a) := by
  obtain ⟨act, cnt, cal⟩ := other
  rw [retract_eq, fget_fset_srv (f := SRV_ACT_PHASE) _ _ ⟨by decide, .inl act⟩, fget_fset_vcm_srv _ _ low (by decide) hg,
    fget_fbump_srv_apart _ _ count,
    fget_setBridge_srv _ low _ hg, seqDriven, fget_modSrv,
      fget_setSrvState_srv _ low _ hg cnt ⟨by decide, .inl act⟩ ⟨show 15 + 1 ≤ 32 by decide, .inl act⟩,
    unloadReady, fget_abortOfsCal_srv _ _ low hg cal, fget_unloadStart_srv _ low hg ⟨by decide, .inl act⟩ ⟨by decide, .inl act⟩]

theorem fget_retract_vcm {g : Fld} (hg : VcmFld g) (bridge : FldApart VCM_STATE_BRIDGE g) (seq : FldApart VCM_STATE_RETRACT g) :
    fget (retract s a) (vcmF g a) = fget s (vcmF g a) := by
  rw [retract_eq, fget_fset_srv_vcm _ _ low (by decide) hg, fget_fset_vcm _ _ seq, fget_fbump_srv_vcm _ low _ (by decide) hg,
    fget_setBridge_vcm _ _ bridge, seqDriven, fget_modSrv, fget_setSrvState_vcm _ low _ hg, unloadReady,
    fget_abortOfsCal_vcm _ _ low hg, fget_unloadStart_vcm _ low hg]

end moves

/-- The guided form of an unload. -/
theorem guided_shows (s : State) {a : Nat} (low : a < 32) : srvState (guided s a) a = 9 ∧
    (getSrv (guided s a) a).seekReq = some ((getSrv s a).head, 0, 0) ∧ (getSrv (guided s a) a).seek = none ∧
    fget (guided s a) (srvF SRV_ACT_ON_TRACK a) = 0 ∧ ArmFrame a s (guided s a) := by
  have eq : guided s a = modSrv (setSrvState (unloadReady s a) a 9) a fun v =>
      { v with seek := none, seekReq := some (v.head, 0, 0), outRun := 0 } := rfl
  obtain ⟨c, n, srv⟩ := unloadReady_srv s (a := a)
  unfold srvState
  rw [eq]
  refine ⟨?_, ?_, ?_, ?_, ((unloadReady_arm s a).trans (setSrvState_arm _ a 9)).trans (ArmFrame.modSrv _ a _)⟩
  · rw [fget_modSrv, srvState_setSrvState _ low (by decide)]
  · rw [getSrv_modSrv_same, getSrv_setSrvState, srv]
  · rw [getSrv_modSrv_same]
  · rw [fget_modSrv, fget_setSrvState_srv _ low _ (by decide) (by decide) (by decide) (by decide), unloadReady,
      fget_abortOfsCal_srv _ _ low (by decide) (by decide)]
    exact (unloadStart_shows s low).1

end Sys2Proof.Laws
end

section
/-!
PROOFS. Write faults, speed excursions, serial frames, the heater and requests of the read channels (R333 to R359).
-/

namespace Sys2Proof.Laws

open Sys2Proof.Machine

/-! ## Fields of a data path's registers -/

section fields

variable (s : State) {a : Nat} {f g : Fld} (x : Nat)

theorem fget_fset_rdc (apart : FldApart f g) : fget (fset s (rdcF f a) x) (rdcF g a) = fget s (rdcF g a) :=
    fget_fset_ix s x 0x4000 apart

theorem fget_fset_rdc_same (fits : f.lo + f.w ≤ 32) : fget (fset s (rdcF f a) x) (rdcF f a) = x % 2 ^ f.w :=
  fget_fset_same s (rdcF f a) x fits

theorem fget_showRdc (apart : FldApart RDC_ACT_STATE_STATE g) : fget (showRdc s a) (rdcF g a) = fget s (rdcF g a) := by
  unfold showRdc
  dsimp only
  split
  · rfl
  · exact fget_fset_rdc s _ apart

theorem fget_finishDisk (o : DiskOp) (status fail : Nat) (urgent : Bool) (apart : FldApart RDC_ACT_STATE_STATE g) :
    fget (finishDisk s a o status fail urgent) (rdcF g a) = fget s (rdcF g a) := by
  unfold finishDisk
  dsimp only
  rw [fget_showRdc _ apart]
  rfl

end fields

theorem hdaTable_congr {s t : State} (h : t.loader = s.loader) (d : Nat) : hdaTable t d = hdaTable s d := by
  unfold hdaTable image
  rw [h]

theorem actZone_congr {s t : State} (h : t.loader = s.loader) (a band : Nat) : actZone t a band = actZone s a band := by
  unfold actZone
  rw [hdaTable_congr h]

/-! ## Write faults (R352) -/

section faults

variable {s : State} {a : Nat} {o : DiskOp}

/-- The capture's head and time are noted, FSTAT is asked for and the capture is counted. -/
theorem exec_wfltCapture (low : a < 32) (serves : rdcServes s a = true) (open_ : (getRdc s a).gate = true) :
    ∃ (w : RdChan → Tbl Nat) (again : RdChan → Bool),
    exec (.wfltCapture a) s = .next (fbump (pushFrame (modRdc (dropGate s a 0x20) a fun r =>
      { r with wflt := w r, wfltAgain := again r }) a { cls := 4, addr := 6, why := .fault }) (rdcF RDC_ERR_CNT1_WFLT a)) := by
  refine ⟨fun r => tset 0 r.wflt (fget s (rdcF RDC_ACT_STATE_DHEAD a)) ((dropGate s a 0x20).tb.ns + 1), fun r => r.wfltAgain ||
    (tget 0 (getRdc s a).wflt (fget s (rdcF RDC_ACT_STATE_DHEAD a)) != 0 &&
      decide (s.tb.ns + 1 - tget 0 (getRdc s a).wflt (fget s (rdcF RDC_ACT_STATE_DHEAD a)) ≤ 600000000000)),
    (show _ = execWfltCapture a s from rfl).trans ?_⟩
  unfold execWfltCapture
  dsimp only
  rw [if_neg (by simp [low, serves]), if_pos open_]

theorem wfltCapture_ends (low : a < 32) (serves : rdcServes s a = true) (running : (getRdc s a).run = some o)
    (write : o.write = true)
    (open_ : (getRdc s a).gate = true) :
    ∃ t, exec (.wfltCapture a) s = .next t ∧ (getRdc t a).gate = false ∧ (getRdc t a).run = none ∧
      (getRdc t a).done = (getRdc s a).done ++ [{ reply := o.reply, write := true, status := 0x20
                                                  fail := failMap (unwritten s a o) }] ∧
      { cls := 4, addr := 6, why := FrameFor.fault } ∈ (getRdc t a).frames ∧
      { cls := 1, addr := 1, data := some 2 } ∈ (getRdc t a).frames ∧
      fget t (rdcF RDC_ERR_CNT1_WFLT a) = min (fget s (rdcF RDC_ERR_CNT1_WFLT a) + 1) 255 ∧
      t.nv = s.nv ∧ Unchanged [.regs, .rdc, .out] s t := by
  obtain ⟨w, again, run⟩ := exec_wfltCapture low serves open_
  rw [dropGate_write open_ running write (by decide)] at run
  generalize hfail : failMap (unwritten s a o) = fail at run ⊢
  have record := finishDisk_record s a o 0x20 fail true
  have shows := finishDisk_shows s a o 0x20 fail true
  have count := fget_finishDisk s (a := a) (g := RDC_ERR_CNT1_WFLT) o 0x20 fail true (by decide)
  generalize finishDisk s a o 0x20 fail true = u at run record shows count
  have final : getRdc (fbump (pushFrame (modRdc u a fun r => { r with wflt := w r, wfltAgain := again r }) a
      { cls := 4, addr := 6, why := .fault }) (rdcF RDC_ERR_CNT1_WFLT a)) a = { getRdc u a with
        wflt := w (getRdc u a), wfltAgain := again (getRdc u a)
        frames := (getRdc u a).frames ++ [{ cls := 4, addr := 6, why := .fault }] } := by
    rw [fbump, getRdc_fset, Machine.pushFrame, getRdc_modRdc_same, getRdc_modRdc_same]
  have frame : Unchanged [.regs, .rdc, .out] s (fbump (pushFrame (modRdc u a fun r =>
      { r with wflt := w r, wfltAgain := again r }) a { cls := 4, addr := 6, why := .fault }) (rdcF RDC_ERR_CNT1_WFLT a)) := by
    rw [after_fbump _ _ (by decide), Machine.pushFrame, after_modRdc _ _ _ (by decide), after_modRdc _ _ _ (by decide)]
    exact shows.frame
  refine ⟨_, run, ?_, ?_, ?_, ?_, ?_, ?_, frame .nv (by decide), frame⟩
  · rw [final]
    exact shows.gate
  · rw [final]
    exact shows.run
  · rw [final]
    exact shows.done.trans (by rw [diskDone, write])
  · rw [final]
    exact List.mem_append_right _ List.mem_cons_self
  · rw [final, record]
    exact List.mem_append_left _ (List.mem_append_right _ List.mem_cons_self)
  · rw [fget_fbump _ _ (show 0 + 8 ≤ 32 by decide), ← count]
    rfl

end faults

/-! ## Speed excursions (R342) -/

section speed

/-- The operation waits, from now on where it did not. -/
def waitsFrom (ns : Nat) (o : DiskOp) : DiskOp := { o with waitNs := o.waitNs <|> some ns }

/-- What a speed excursion does to one data path. -/
def speedLeft (s : State) (a : Nat) : State :=
  let s := dropGate (fset s (rdcF RDC_ACT_STATE_SPEED_OK a) 0) a 0x40 true
  modRdc s a fun r => { r with run := r.run.map (waitsFrom s.tb.ns) }

theorem exec_speedExcursion {s : State} {h : Nat} (low : h < 16) :
    exec (.speedExcursion h true) s = .next (fset (fset s (rdcF RDC_ACT_STATE_SPEED_OK (2 * h)) 1)
      (rdcF RDC_ACT_STATE_SPEED_OK (2 * h + 1)) 1) ∧
      exec (.speedExcursion h false) s = .next (speedLeft (speedLeft s (2 * h)) (2 * h + 1)) := by
  have run (b : Bool) : exec (.speedExcursion h b) s = execSpeedExcursion h b s := rfl
  constructor
  · rw [run]
    exact if_neg (Nat.not_le.mpr low)
  · rw [run]
    exact (if_neg (Nat.not_le.mpr low)).trans rfl

/-- A data path without a running WRITE is shown below speed, and its operation may start to wait; the other data path of the HDA
is as before. -/
theorem speedLeft_idle {s : State} {a b : Nat} (closed : (getRdc s b).gate = false) (other : a ≠ b) :
    getRdc (speedLeft s b) a = getRdc s a ∧
      fget (speedLeft s b) (rdcF RDC_ACT_STATE_SPEED_OK a) = fget s (rdcF RDC_ACT_STATE_SPEED_OK a) ∧
      (speedLeft s b).nv = s.nv ∧ Unchanged [.regs, .rdc] s (speedLeft s b) := by
  have still : dropGate (fset s (rdcF RDC_ACT_STATE_SPEED_OK b) 0) b 0x40 true = fset s (rdcF RDC_ACT_STATE_SPEED_OK b) 0 :=
    dropGate_idle (by rw [getRdc_fset]; exact closed) _ _
  have frame : Unchanged [.regs, .rdc] s (speedLeft s b) := by
    unfold speedLeft
    dsimp only
    rw [still, after_modRdc _ _ _ (by decide), after_fset _ _ (by decide)]
    exact unchanged_refl _ s
  refine ⟨?_, ?_, frame .nv (by decide), frame⟩
  · rw [speedLeft, getRdc_modRdc_ne _ _ _ other, still, getRdc_fset]
  · rw [speedLeft, fget_modRdc, still]
    refine fget_fset_off _ _ _ _ ?_
    simp only [rdcF, Fld.ix]
    omega

variable {s : State} {a : Nat} {o : DiskOp}

/-- The running WRITE of a data path ends after its sector. -/
structure SpeedLost (s : State) (a : Nat) (o : DiskOp) (t : State) : Prop where
  shown : fget t (rdcF RDC_ACT_STATE_SPEED_OK a) = 0
  gate : (getRdc t a).gate = false
  run : (getRdc t a).run = none
  done : ∃ d, (getRdc t a).done = (getRdc s a).done ++ [d] ∧ d.reply = o.reply ∧ d.status = 0x40
  sector : o.next < (actZone s a o.band).2.frag →
    (tget [] t.nv.platter (platterKey a o.band o.frag)).getD o.next 0 = tget 0 (getRdc s a).staging (o.slot0 + o.next)
  frame : Unchanged [.regs, .rdc, .nv, .out] s t

theorem SpeedLost.before {t u : State} (lost : SpeedLost t a o u) (same : getRdc t a = getRdc s a)
    (zone : actZone t a o.band = actZone s a o.band) (frame : Unchanged [.regs, .rdc] s t) : SpeedLost s a o u := by
  obtain ⟨shown, gate, run, done, sector, after⟩ := lost
  rw [same] at done sector
  rw [zone] at sector
  exact ⟨shown, gate, run, done, sector, unchanged_trans (unchanged_mono frame (by decide)) after⟩

theorem speedLeft_write (running : (getRdc s a).run = some o) (write : o.write = true) (open_ : (getRdc s a).gate = true) :
    SpeedLost s a o (speedLeft s a) ∧ RdcOthers a s (speedLeft s a) := by
  generalize hu : fset s (rdcF RDC_ACT_STATE_SPEED_OK a) 0 = u
  have rdc : u.rdc = s.rdc := by rw [← hu]; rfl
  have same : getRdc u a = getRdc s a := getRdc_congr rdc a
  have below : fget u (rdcF RDC_ACT_STATE_SPEED_OK a) = 0 := by
    rw [← hu, fget_fset_rdc_same _ _ (by decide)]
    rfl
  have first : Unchanged [.regs] s u := hu ▸ fset_unchanged s _ _
  have zone : actZone u a o.band = actZone s a o.band := by rw [← hu]; rfl
  have fell := dropGate_afterSector (s := u) (a := a) (o := o) (by rw [same]; exact open_) (by rw [same]; exact running) write
    (status := 0x40) (by decide)
  obtain ⟨units, -⟩ := writeSectors_platter (s := u) (a := a) (o := o) (n := 1)
  have written := writeSectors_record (s := u) (a := a) (o := o) (n := 1)
  generalize hfail : failMap (unwritten (writeSectors u a o 1) a (writtenTo u a 1 o)) = fail at fell
  have wrote : Unchanged [.rdc, .nv] u (writeSectors u a o 1) := writeSectors_unchanged u a o 1
  have wroteOthers : RdcOthers a u (writeSectors u a o 1) := writeSectors_others
  have kept : fget (writeSectors u a o 1) (rdcF RDC_ACT_STATE_SPEED_OK a) = 0 := below
  generalize writeSectors u a o 1 = w at units written fell wrote wroteOthers kept
  have ended := finishDisk_shows w a (writtenTo u a 1 o) 0x40 fail true
  have shown := (fget_finishDisk w (a := a) (g := RDC_ACT_STATE_SPEED_OK) (writtenTo u a 1 o) 0x40 fail true
    (by decide)).trans kept
  rw [← fell] at ended shown
  have whole : speedLeft s a = modRdc (dropGate u a 0x40 true) a fun r =>
      { r with run := r.run.map (waitsFrom (dropGate u a 0x40 true).tb.ns) } := by rw [speedLeft, hu]
  generalize dropGate u a 0x40 true = v at ended shown whole
  have record : getRdc (speedLeft s a) a = { getRdc v a with run := (getRdc v a).run.map (waitsFrom v.tb.ns) } := by rw [whole, getRdc_modRdc_same]
  have nv : (speedLeft s a).nv = w.nv := by
    rw [whole]
    exact ended.frame .nv (by decide)
  refine ⟨⟨?_, ?_, ?_, ⟨diskDone (writtenTo u a 1 o) 0x40 fail, ?_, rfl, rfl⟩, fun inside => ?_, ?_⟩, ?_⟩
  · rw [whole, fget_modRdc]
    exact shown
  · rw [record]
    exact ended.gate
  · rw [record]
    simp only [ended.run, Option.map_none]
  · rw [record]
    simp only [ended.done, written, same]
  · rw [nv]
    have unit := units o.next (by rw [zone]; exact inside)
    rw [if_pos ⟨Nat.le_refl _, Nat.lt_succ_self _⟩, same] at unit
    exact unit
  · rw [whole, after_modRdc _ _ _ (by decide), unchanged_step ended.frame (by decide), unchanged_step wrote (by decide)]
    exact unchanged_mono first (by decide)
  · rw [whole]
    exact ((RdcOthers.trans (rdcOthers_congr rdc) wroteOthers).trans ended.others).trans (rdcOthers_modRdc v a _)

theorem speedExcursion_ends {h : Nat} (low : h < 16) (side : a / 2 = h) (running : (getRdc s a).run = some o)
    (write : o.write = true)
    (open_ : (getRdc s a).gate = true) (beside : ∀ b, b / 2 = h → b ≠ a → (getRdc s b).gate = false) :
    ∃ t, exec (.speedExcursion h false) s = .next t ∧ SpeedLost s a o t := by
  refine ⟨_, (exec_speedExcursion low).2, ?_⟩
  rcases (show a = 2 * h ∨ a = 2 * h + 1 by omega) with rfl | rfl
  · obtain ⟨⟨off, gate, run, done, sector, frame⟩, others⟩ := speedLeft_write running write open_
    have closed : (getRdc (speedLeft s (2 * h)) (2 * h + 1)).gate = false := by
      rw [others _ (by omega)]
      exact beside _ (by omega) (by omega)
    obtain ⟨same, shown, nv, still⟩ := speedLeft_idle closed (show 2 * h ≠ 2 * h + 1 by omega)
    rw [← same] at gate run done
    rw [← nv] at sector
    exact ⟨shown.trans off, gate, run, done, sector, unchanged_trans frame (unchanged_mono still (by decide))⟩
  · obtain ⟨same, -, -, still⟩ := speedLeft_idle (beside (2 * h) (by omega) (by omega)) (show 2 * h + 1 ≠ 2 * h by omega)
    have zone : actZone (speedLeft s (2 * h)) (2 * h + 1) o.band = actZone s (2 * h + 1) o.band :=
      actZone_congr (still .loader (by decide)) _ _
    refine (speedLeft_write ?_ write ?_).1.before same zone still
    · rw [same]
      exact running
    · rw [same]
      exact open_

end speed

/-! ## Serial frames (R333, R334) -/

section serial

variable {s : State} {a : Nat} {f : Frame}

/-- The frame whose turn it is has left the queue. -/
def frameTaken (s : State) (a : Nat) (f : Frame) : State := modRdc s a fun r => { r with frames := r.frames.erase f }

theorem getRdc_frameTaken (f : Frame) : getRdc (frameTaken s a f) a =
    { getRdc s a with frames := (getRdc s a).frames.erase f } :=
  getRdc_modRdc_same _ _ _

variable (turn : nextFrame (getRdc s a).frames = some f)
include turn

theorem exec_serialFrame_write {d : Nat} (write : f.data = some d) (ok : Bool) (v : Nat) :
    ∃ t, exec (.serialFrame a ok v) s = .next t ∧ t.out = .serial a f.addr d 1 :: s.out ∧
      (getRdc t a).frames = (if readsBack f.addr then [{ f with data := none, why := .check d }] else []) ++
        (getRdc s a).frames.erase f ∧ (getRdc t a).regs = (getRdc s a).regs ∧ Unchanged [.rdc, .out] s t := by
  have run : exec (.serialFrame a ok v) s = .next (if readsBack f.addr then
      frontFrame (emit (frameTaken s a f) (.serial a f.addr d 1)) a { f with data := none, why := .check d }
      else emit (frameTaken s a f) (.serial a f.addr d 1)) := by
    refine (show _ = execSerialFrame a ok v s from rfl).trans ?_
    unfold execSerialFrame
    rw [turn]
    dsimp only
    rw [write]
    rfl
  have sent : Unchanged [.rdc, .out] s (emit (frameTaken s a f) (.serial a f.addr d 1)) := by
    rw [after_emit _ (by decide), frameTaken, after_modRdc _ _ _ (by decide)]
    exact unchanged_refl _ s
  refine ⟨_, run, ?_⟩
  split
  · refine ⟨rfl, ?_, ?_, ?_⟩
    · rw [frontFrame, getRdc_modRdc_same, getRdc_emit, getRdc_frameTaken]
      rfl
    · rw [frontFrame, getRdc_modRdc_same, getRdc_emit, getRdc_frameTaken]
    · rw [frontFrame, after_modRdc _ _ _ (by decide)]
      exact sent
  · refine ⟨rfl, ?_, ?_, sent⟩
    · rw [getRdc_emit, getRdc_frameTaken]
      rfl
    · rw [getRdc_emit, getRdc_frameTaken]

end serial

/-- What a verified register leaves. -/
structure Verified (a addr d : Nat) (s t : State) : Prop where
  value : paReg t a addr = some d
  mode : addr = 1 → fget t (rdcF RDC_ACT_STATE_PA_MODE a) = d % 8
  frames : (getRdc t a).frames = (getRdc s a).frames
  frame : Unchanged [.regs, .rdc, .srv] s t

theorem verified_verifies (s : State) (a addr d : Nat) : Verified a addr d s (verified s a addr d) := by
  unfold verified
  dsimp only
  generalize hu : modRdc s a (fun r => { r with regs := tset 0 r.regs addr (d + 1) }) = u
  have record : getRdc u a = { getRdc s a with regs := tset 0 (getRdc s a).regs addr (d + 1) } := by
    rw [← hu, getRdc_modRdc_same]
  have stored : Unchanged [.rdc] s u := hu ▸ modRdc_unchanged s a _
  have held {t : State} (regs : (getRdc t a).regs = (getRdc u a).regs) : paReg t a addr = some d := by
    unfold paReg
    rw [regs, record, tget_tset, if_pos rfl]
  have beside {t : State} (other : addr ≠ 1) (rdc : t.rdc = u.rdc) (parts : Unchanged [.regs, .rdc, .srv] u t) :
    Verified a addr d s t :=
    ⟨held (by rw [getRdc_congr rdc]), fun one => absurd one other, by rw [getRdc_congr rdc, record],
      unchanged_trans (unchanged_mono stored (by decide)) parts⟩
  split
  case isTrue one =>
    refine ⟨held rfl, fun _ => fget_fset_rdc_same u d (by decide), by rw [getRdc_fset, record], ?_⟩
    rw [after_fset _ _ (by decide)]
    exact unchanged_mono stored (by decide)
  case isFalse other =>
    split
    · have shown (v : State) (rdc : v.rdc = u.rdc) (parts : Unchanged [.regs, .rdc, .srv] u v) : Verified a addr d s
          (match (getSrv v a).switch_ with
            | some (h, sh) => if paReg v a 2 = some h && paReg v a 3 = some sh then
                modSrv v a fun x => { x with switch_ := none, head := h, lanes := assignLanes v a h } else v
            | none => v) := by
        split
        · split
          · refine beside other rdc ?_
            rw [after_modSrv _ _ _ (by decide)]
            exact parts
          · exact beside other rdc parts
        · exact beside other rdc parts
      refine shown _ ?_ ?_
      · split <;> rfl
      · split
        · exact unchanged_mono (fset_unchanged u _ _) (by decide)
        · exact unchanged_mono (fset_unchanged u _ _) (by decide)
    · split
      · refine ⟨held ?_, fun one => absurd one other, ?_, ?_⟩
        · rw [getRdc_fset, getRdc_fset, getRdc_modRdc_same]
        · rw [getRdc_fset, getRdc_fset, getRdc_modRdc_same, record]
        · rw [after_fset _ _ (by decide), after_fset _ _ (by decide), after_modRdc _ _ _ (by decide)]
          exact unchanged_mono stored (by decide)
      · exact beside other rfl (unchanged_refl _ u)

section readback

variable {s : State} {a d : Nat} {f : Frame} (turn : nextFrame (getRdc s a).frames = some f) (read : f.data = none)
  (check : f.why = .check d)
include turn read check

theorem exec_serialFrame_check (ok : Bool) (v : Nat) : exec (.serialFrame a ok v) s =
    .next (if ok && v == d then frameRead (emit (frameTaken s a f) (.serial a f.addr v 0)) a f v
      else frameFailed (emit (frameTaken s a f) (.serial a f.addr v 0)) a f) := by
  refine (show _ = execSerialFrame a ok v s from rfl).trans ?_
  unfold execSerialFrame
  rw [turn]
  dsimp only
  rw [read, check]
  rfl

theorem exec_serialFrame_verifies :
    ∃ t, exec (.serialFrame a true d) s = .next t ∧ paReg t a f.addr = some d ∧
      (f.addr = 1 → fget t (rdcF RDC_ACT_STATE_PA_MODE a) = d % 8) ∧
      (getRdc t a).frames = (getRdc s a).frames.erase f ∧ Unchanged [.regs, .rdc, .srv, .out] s t := by
  have run := exec_serialFrame_check turn read check true d
  rw [if_pos (by simp)] at run
  generalize hu : emit (frameTaken s a f) (.serial a f.addr d 0) = u at run
  have record : getRdc u a = { getRdc s a with frames := (getRdc s a).frames.erase f } := by
    rw [← hu, getRdc_emit, getRdc_frameTaken]
  have sent : Unchanged [.rdc, .out] s u := by
    rw [← hu, after_emit _ (by decide), frameTaken, after_modRdc _ _ _ (by decide)]
    exact unchanged_refl _ s
  have taken : frameRead u a f d = verified (modRdc u a fun r => { r with fails := tset 0 r.fails f.addr 0 }) a f.addr d := by
    unfold frameRead
    dsimp only
    rw [check]
  obtain ⟨value, mode, frames, frame⟩ := verified_verifies
    (modRdc u a fun r => { r with fails := tset 0 r.fails f.addr 0 }) a f.addr d
  rw [← taken] at value mode frames frame
  refine ⟨_, run, value, mode, ?_, ?_⟩
  · rw [frames, getRdc_modRdc_same, record]
  · rw [unchanged_step frame (by decide), after_modRdc _ _ _ (by decide)]
    exact unchanged_mono sent (by decide)

theorem exec_serialFrame_again (v : Nat) (ok : Bool) (bad : ok = false ∨ v ≠ d) (few : tget 0 (getRdc s a).fails f.addr < 2) :
    ∃ t, exec (.serialFrame a ok v) s = .next t ∧
      (getRdc t a).frames = { f with data := some d, why := .plain } :: (getRdc s a).frames.erase f ∧
      (getRdc t a).regs = (getRdc s a).regs ∧
      fget t (rdcF RDC_ERR_CNT1_LINK_RETRY a) = min (fget s (rdcF RDC_ERR_CNT1_LINK_RETRY a) + 1) 255 ∧
      Unchanged [.regs, .rdc, .out] s t := by
  have run := exec_serialFrame_check turn read check ok v
  rw [if_neg (by simp only [Bool.and_eq_true, beq_iff_eq]; rintro ⟨rfl, rfl⟩; simp at bad)] at run
  generalize hu : emit (frameTaken s a f) (.serial a f.addr v 0) = u at run
  have record : getRdc u a = { getRdc s a with frames := (getRdc s a).frames.erase f } := by
    rw [← hu, getRdc_emit, getRdc_frameTaken]
  have sent : Unchanged [.rdc, .out] s u := by
    rw [← hu, after_emit _ (by decide), frameTaken, after_modRdc _ _ _ (by decide)]
    exact unchanged_refl _ s
  have count : fget u (rdcF RDC_ERR_CNT1_LINK_RETRY a) = fget s (rdcF RDC_ERR_CNT1_LINK_RETRY a) := by rw [← hu]; rfl
  obtain ⟨n, failed⟩ : ∃ n, frameFailed u a f = frontFrame
    (fbump (modRdc u a fun r => { r with fails := tset 0 r.fails f.addr n })
      (rdcF RDC_ERR_CNT1_LINK_RETRY a)) a { f with data := some d, why := .plain } := by
    refine ⟨tget 0 (getRdc u a).fails f.addr + 1, ?_⟩
    unfold frameFailed
    dsimp only
    rw [if_neg (by rw [record]; exact Nat.not_le.mpr (Nat.succ_lt_succ few)), check]
  rw [failed] at run
  have final : getRdc (frontFrame (fbump (modRdc u a fun r => { r with fails := tset 0 r.fails f.addr n })
      (rdcF RDC_ERR_CNT1_LINK_RETRY a)) a { f with data := some d, why := .plain }) a = { getRdc u a with
        fails := tset 0 (getRdc u a).fails f.addr n
        frames := { f with data := some d, why := .plain } :: (getRdc u a).frames } := by
    rw [frontFrame, getRdc_modRdc_same, fbump, getRdc_fset, getRdc_modRdc_same]
  refine ⟨_, run, ?_, ?_, ?_, ?_⟩
  · rw [final, record]
  · rw [final, record]
  · rw [frontFrame, fget_modRdc, fget_fbump _ _ (show 16 + 8 ≤ 32 by decide), fget_modRdc, count]
    rfl
  · rw [frontFrame, after_modRdc _ _ _ (by decide), after_fbump _ _ (by decide), after_modRdc _ _ _ (by decide)]
    exact unchanged_mono sent (by decide)

end readback

/-! ## Reads of the preamplifier (R334, R359) -/

section preamp

variable {s : State} {a : Nat} (low : a < 32) (serves : rdcServes s a = true)
include low serves

theorem exec_fstatPoll (on : headsOn s a = true) : ∃ t, exec (.fstatPoll a) s = .next t ∧
    getRdc t a = { getRdc s a with frames := (getRdc s a).frames ++ [{ cls := 4, addr := 6 }] } ∧ Unchanged [.rdc] s t :=
  ⟨_, (show _ = execFstatPoll a s from rfl).trans (if_pos (by simp [low, serves, on])), getRdc_modRdc_same _ _ _,
    modRdc_unchanged s a _⟩

theorem exec_preampRead {v : Word} (listed : paListed (bitsGet v 0 8) = true) (go : bitsGet v 8 1 = 1)
    (idle : fget s (rdcF RDC_PA_RD_BUSY a) = 0) :
    ∃ t, exec (.preampRead a v) s = .next t ∧ fget t (rdcF RDC_PA_RD_ADDR a) = bitsGet v 0 8 ∧
      fget t (rdcF RDC_PA_RD_BUSY a) = 1 ∧ (getRdc t a).frames = (getRdc s a).frames ++
        [{ cls := 4, addr := bitsGet v 0 8, why := .host }] ∧
      RegsBut [(rdcF RDC_PA_RD_ADDR a).off] s t ∧ Unchanged [.regs, .rdc] s t := by
  have run : exec (.preampRead a v) s = .next (pushFrame
    (fset (fset s (rdcF RDC_PA_RD_ADDR a) (bitsGet v 0 8)) (rdcF RDC_PA_RD_BUSY a) 1) a
      { cls := 4, addr := bitsGet v 0 8, why := .host }) := by
    refine (show _ = execPreampRead a v s from rfl).trans ?_
    unfold execPreampRead
    dsimp only
    rw [if_neg (Nat.not_le.mpr low), if_neg (by simp [serves, listed]), fget_fset_rdc _ _ (by decide), idle, go]
    rfl
  refine ⟨_, run, ?_, ?_, ?_, ?_, ?_⟩
  · rw [Machine.pushFrame, fget_modRdc, fget_fset_rdc _ _ (by decide), fget_fset_rdc_same _ _ (by decide)]
    exact Nat.mod_eq_of_lt (Nat.mod_lt _ (by decide))
  · rw [Machine.pushFrame, fget_modRdc, fget_fset_rdc_same _ _ (by decide)]
    rfl
  · rw [Machine.pushFrame, getRdc_modRdc_same, getRdc_fset, getRdc_fset]
  · exact regsBut_trans (regsBut_fset s _ List.mem_cons_self) (regsBut_fset _ _ List.mem_cons_self)
  · rw [Machine.pushFrame, after_modRdc _ _ _ (by decide), after_fset _ _ (by decide), after_fset _ _ (by decide)]
    exact unchanged_refl _ s

omit serves in
theorem exec_preampRead_unlisted {v : Word} (unlisted : paListed (bitsGet v 0 8) = false) :
    ∃ t, exec (.preampRead a v) s = .next t ∧
      fget t RDC_STATUS_RSV_WRITE = 1 ∧ RegsBut [RDC_STATUS_RSV_WRITE.off] s t ∧ Unchanged [.regs] s t := by
  have run : exec (.preampRead a v) s = .next (fset s RDC_STATUS_RSV_WRITE 1) := by
    refine (show _ = execPreampRead a v s from rfl).trans ?_
    exact (if_neg (Nat.not_le.mpr low)).trans (if_pos (by simp [unlisted]))
  exact ⟨_, run, fget_fset_same _ _ _ (by decide), regsBut_fset s _ List.mem_cons_self, fset_unchanged s _ _⟩

end preamp

/-! ## The heater (R353) -/

section heater

variable {s : State} {a : Nat} (low : a < 32)
include low

/-- The heater code of a head at the temperature shown, as the operation under way reads or writes. -/
def heatWanted (s : State) (a h : Nat) : Nat := heatCode s a h (match (getRdc s a).run with | some o => o.write | none => false)

/-- The heater follows a new temperature. -/
def heatFollowed (s : State) (a : Nat) : State :=
  match (getRdc s a).heatHead with
  | some h =>
    if (getRdc s a).heatCode = 0 || (getRdc s a).heatCode = heatWanted s a h then s else pushHeat s a h (heatWanted s a h)
  | none => s

theorem exec_heaterUpdate_eq (x : Int) : exec (.heaterUpdate a (some x)) s = .next (heatFollowed (fset
    (modRdc s a fun r => { r with temp := x, tempNs := s.tb.ns }) (rdcF RDC_HEAT_TEMP a) (satSigned 16 x)) a) := by
  have temp : (getRdc (modRdc s a fun r => { r with temp := x, tempNs := s.tb.ns }) a).temp = x := by rw [getRdc_modRdc_same]
  refine (show _ = execHeaterUpdate a (some x) s from rfl).trans ?_
  unfold execHeaterUpdate
  dsimp only
  rw [if_neg (Nat.not_le.mpr low), temp]
  generalize fset (modRdc s a fun r => { r with temp := x, tempNs := s.tb.ns }) (rdcF RDC_HEAT_TEMP a) (satSigned 16 x) = u
  unfold heatFollowed
  cases (getRdc u a).heatHead with
  | none => rfl
  | some h => rfl

omit low in
theorem heatFollowed_shows (s : State) (a : Nat) : (∃ fs, getRdc (heatFollowed s a) a = { getRdc s a with frames := fs }) ∧
    Unchanged [.rdc] s (heatFollowed s a) := by
  unfold heatFollowed
  split
  · split
    · exact ⟨⟨_, rfl⟩, unchanged_refl _ s⟩
    · exact ⟨⟨_, getRdc_modRdc_same _ _ _⟩, modRdc_unchanged s a _⟩
  · exact ⟨⟨_, rfl⟩, unchanged_refl _ s⟩

theorem exec_heaterUpdate (x : Int) :
    ∃ t, exec (.heaterUpdate a (some x)) s = .next t ∧ (getRdc t a).temp = x ∧ (getRdc t a).tempNs = s.tb.ns ∧
      fget t (rdcF RDC_HEAT_TEMP a) = satSigned 16 x ∧
      ((getRdc s a).heatHead = none → (getRdc t a).frames = (getRdc s a).frames) ∧
      (∀ h, (getRdc s a).heatHead = some h → (getRdc s a).heatCode ≠ 0 → (getRdc s a).run = none →
        heatCode t a h false ≠ (getRdc s a).heatCode →
        (getRdc t a).frames = (getRdc s a).frames ++ [{ cls := 3, addr := 0x10 + h, data := some (heatCode t a h false) }]) ∧
      RegsBut [(rdcF RDC_HEAT_TEMP a).off] s t ∧ Unchanged [.regs, .rdc] s t := by
  have run := exec_heaterUpdate_eq (s := s) low x
  generalize hu : fset (modRdc s a fun r => { r with temp := x, tempNs := s.tb.ns }) (rdcF RDC_HEAT_TEMP a)
    (satSigned 16 x) = u at run
  have record : getRdc u a = { getRdc s a with temp := x, tempNs := s.tb.ns } := by rw [← hu, getRdc_fset, getRdc_modRdc_same]
  have shown : fget u (rdcF RDC_HEAT_TEMP a) = satSigned 16 x := by
    rw [← hu, fget_fset_rdc_same _ _ (by decide)]
    refine Nat.mod_eq_of_lt ?_
    have small : ((max (-(2 ^ 15)) (min (2 ^ 15 - 1) x)) % (2 ^ 16 : Int)) < 2 ^ 16 := Int.emod_lt_of_pos _ (by decide)
    have positive : 0 ≤ ((max (-(2 ^ 15)) (min (2 ^ 15 - 1) x)) % (2 ^ 16 : Int)) := Int.emod_nonneg _ (by decide)
    change ((max (-(2 ^ 15)) (min (2 ^ 15 - 1) x)) % (2 ^ 16 : Int)).toNat < 2 ^ 16
    omega
  have regs : RegsBut [(rdcF RDC_HEAT_TEMP a).off] s u := hu ▸ regsBut_fset _ _ List.mem_cons_self
  have first : Unchanged [.regs, .rdc] s u := by
    rw [← hu, after_fset _ _ (by decide), after_modRdc _ _ _ (by decide)]
    exact unchanged_refl _ s
  obtain ⟨⟨fs, followed⟩, frame⟩ := heatFollowed_shows u a
  refine ⟨_, run, by rw [followed, record], by rw [followed, record], ?_, fun off => ?_, fun h on code idle differs => ?_,
    ?_, ?_⟩
  · rw [fget_congr (rget_congr (frame .regs (by decide)) _), shown]
  · have none_ : (getRdc u a).heatHead = none := by rw [record]; exact off
    rw [heatFollowed, none_, record]
  · have sameCode : heatCode (heatFollowed u a) a h false = heatCode u a h false := by
      unfold heatCode
      rw [hdaTable_congr (frame .loader (by decide)), followed]
    rw [sameCode] at differs ⊢
    have eq : heatFollowed u a = pushHeat u a h (heatCode u a h false) := by
      have on' : (getRdc u a).heatHead = some h := by rw [record]; exact on
      have idle' : (getRdc u a).run = none := by rw [record]; exact idle
      have code' : (getRdc u a).heatCode = (getRdc s a).heatCode := by rw [record]
      have wanted : heatWanted u a h = heatCode u a h false := by rw [heatWanted, idle']
      unfold heatFollowed
      rw [on']
      dsimp only
      rw [wanted, code']
      exact if_neg (by simp [code, differs.symm])
    rw [eq, pushHeat, Machine.pushFrame, getRdc_modRdc_same, record]
  · exact regsBut_trans regs fun k _ => rget_congr (frame .regs (by decide)) k
  · exact unchanged_trans first (unchanged_mono frame (by decide))

theorem exec_heaterIdleOff {h : Nat} (idle : (getRdc s a).run = none) (long : 100000000 ≤ s.tb.ns - (getRdc s a).idleNs)
    (on : (getRdc s a).heatHead = some h) (code : (getRdc s a).heatCode ≠ 0) :
    ∃ t, exec (.heaterIdleOff a) s = .next t ∧ getRdc t a =
      { getRdc s a with frames := (getRdc s a).frames ++ [{ cls := 3, addr := 0x10 + h, data := some 0 }] } ∧
      Unchanged [.rdc] s t := by
  have run : exec (.heaterIdleOff a) s = .next (pushHeat s a h 0) := by
    refine (show _ = execHeaterIdleOff a s from rfl).trans ?_
    unfold execHeaterIdleOff heaterOff
    dsimp only
    rw [if_pos (by simp [low, idle, long]), on]
    exact congrArg _ (if_neg code)
  exact ⟨_, run, getRdc_modRdc_same _ _ _, modRdc_unchanged s a _⟩

end heater

end Sys2Proof.Laws
end

section
/-!
PROOFS. Calibrations, fences and the retirement of a data path (R352 to R357), and the statement DiskFaultsAndUpkeep.
-/

namespace Sys2Proof.Laws

open Sys2Proof.Machine

/-! ## Calibrations (R354 to R356) -/

section calibrations

variable {s : State} {a : Nat}

theorem calMayEnd_path {p h z : Nat} (may : calMayEnd s a p h z = true) : a < 32 ∧ rdcServes s a = true := by
  unfold calMayEnd at may
  simp only [Bool.and_eq_true, decide_eq_true_eq] at may
  exact may.1

/-- The calibration is no longer due. -/
theorem getRdc_calDone (s : State) (a p h z : Nat) : getRdc (calDone s a p h z) a =
    { getRdc s a with calDue := (getRdc s a).calDue.filter fun e => e != (p, h, z) } := getRdc_modRdc_same _ _ _

/-- OFFSET's failures in a row after one more result. -/
def offsetCounted (s : State) (a r : Nat) : State :=
  modRdc (endCal (calDone s a 1 0 0) a 1 0 0 r) a fun c => { c with offsetFails := if r = 1 then 0 else c.offsetFails + 1 }

theorem exec_offsetCal {r : Nat} (may : calMayEnd s a 1 0 0 = true) (hr : r = 1 ∨ r = 2 ∨ r = 6) : exec (.offsetCal a r) s =
    .next (if 3 ≤ (getRdc (offsetCounted s a r) a).offsetFails then retireDataPath (offsetCounted s a r) a 0
      else offsetCounted s a r) := by
  refine (show _ = execOffsetCal a r s from rfl).trans ?_
  unfold execOffsetCal
  rw [if_pos (by simp only [may, Bool.true_and, Bool.or_eq_true, beq_iff_eq]; omega)]
  rfl

theorem offsetCounted_record (s : State) (a r : Nat) : getRdc (offsetCounted s a r) a = { getRdc s a with
    calDue := (getRdc s a).calDue.filter fun e => e != (1, 0, 0), calRun := (getRdc s a).calNext, calNext := none, gate := false
    offsetFails := if r = 1 then 0 else (getRdc s a).offsetFails + 1 } := by
  rw [offsetCounted, getRdc_modRdc_same, endCal_record, getRdc_calDone]

theorem offsetCounted_frame (s : State) (a r : Nat) : Unchanged (.rdc :: reportParts) s (offsetCounted s a r) := by
  rw [offsetCounted, after_modRdc _ _ _ (by decide), unchanged_step (endCal_frame _ a 1 0 0 r).parts (by decide), calDone,
    after_modRdc _ _ _ (by decide)]
  exact unchanged_refl _ s

theorem offsetCounted_shows (low : a < 32) (free : (getRdc s a).calNext = none) {r : Nat} (hr : r < 8) :
    fget (offsetCounted s a r) (rdcF RDC_CAL_STAT_RESULT a) = r ∧
      fget (offsetCounted s a r) (rdcF RDC_CAL_STAT_BUSY a) = 0 := by
  obtain ⟨result, busy⟩ := endCal_shows (calDone s a 1 0 0) low 1 0 0 hr
  rw [getRdc_calDone] at busy
  rw [offsetCounted, fget_modRdc, fget_modRdc]
  exact ⟨result, busy.trans (by rw [free]; rfl)⟩

/-! ### EQ and PRECOMP -/

/-- The entry that EQ stores. -/
def eqFound (s : State) (a hd z : Nat) : CalEntry := { calEntry s a hd z with
  eq := (List.range 16).map fun k => (Config.calResult s.freeCtr).getD k 0
  target := (calEntry s a hd z).target.headD 0 :: (List.range 4).map fun k => (Config.calResult s.freeCtr).getD (16 + k) 0
  temp := (getRdc s a).temp
  made := s.tb.ns }

/-- The entry that PRECOMP stores. -/
def pcFound (s : State) (a hd z : Nat) : CalEntry := { calEntry s a hd z with
  pc := (List.range 3).map fun k => ((Config.calResult s.freeCtr).getD k 0).toNat % 32
  temp := (getRdc s a).temp
  made := s.tb.ns }

theorem eqFound_ne (s : State) (a hd z : Nat) : eqFound s a hd z ≠ {} := fun same => by
  have taps := congrArg (fun e : CalEntry => e.eq.length) same
  simp [eqFound] at taps

theorem pcFound_ne (s : State) (a hd z : Nat) : pcFound s a hd z ≠ {} := fun same => by
  have sets := congrArg (fun e : CalEntry => e.pc.length) same
  simp [pcFound] at sets

/-- A calibration's values are stored and it has ended OK. -/
def calStored (s : State) (a p hd z : Nat) (e : CalEntry) : State :=
  endCal (setCal (drawCal (calDone s a p hd z)).2 a hd z e) a p hd z 1

theorem calEntry_congr {s t : State} (nv : t.nv.cal = s.nv.cal) (loader : t.loader = s.loader) (a hd z : Nat) :
    calEntry t a hd z = calEntry s a hd z := by
  unfold calEntry
  rw [nv, hdaTable_congr loader]

theorem calEntry_setCal (s : State) (a hd z : Nat) {e : CalEntry} (some_ : e ≠ {}) :
    calEntry (setCal s a hd z e) a hd z = e := by
  have found := find_tset some_ s.nv.cal (calKey a hd z) (calKey a hd z)
  rw [if_pos rfl] at found
  unfold calEntry
  change (match (tset {} s.nv.cal (calKey a hd z) e).find? fun e => e.1 == calKey a hd z with | some e => e.2 | none => _) = e
  cases look : (tset {} s.nv.cal (calKey a hd z) e).find? fun e => e.1 == calKey a hd z with
  | none =>
    rw [look] at found
    cases found
  | some x =>
    rw [look] at found
    exact Option.some.inj found

/-- What a calibration that ended OK leaves. -/
structure CalStored (s : State) (a hd z : Nat) (e : CalEntry) (t : State) : Prop where
  result : fget t (rdcF RDC_CAL_STAT_RESULT a) = 1
  drawn : t.freeCtr = s.freeCtr + 1
  entry : calEntry t a hd z = e
  frame : Unchanged (.rdc :: .nv :: .freeCtr :: reportParts) s t

theorem calStored_stores (low : a < 32) (p : Nat) {hd z : Nat} {e : CalEntry} (some_ : e ≠ {}) :
    CalStored s a hd z e (calStored s a p hd z e) := by
  generalize hu : setCal (drawCal (calDone s a p hd z)).2 a hd z e = u
  have drawn : u.freeCtr = s.freeCtr + 1 := by rw [← hu]; rfl
  have entry : calEntry u a hd z = e := by rw [← hu, calEntry_setCal _ a hd z some_]
  have first : Unchanged [.rdc, .nv, .freeCtr] s u := by
    rw [← hu]
    intro part hpart
    cases part with
    | rdc | nv | freeCtr => exact absurd (by decide) hpart
    | _ => rfl
  have ended := (endCal_frame u a p hd z 1).parts
  have whole : calStored s a p hd z e = endCal u a p hd z 1 := by rw [calStored, hu]
  rw [whole]
  refine ⟨(endCal_shows u low p hd z (show 1 < 8 by decide)).1, (ended .freeCtr (by decide)).trans drawn, ?_, ?_⟩
  · rw [calEntry_congr (by rw [ended .nv (by decide)]) (ended .loader (by decide)), entry]
  · rw [unchanged_step ended (by decide)]
    exact unchanged_mono first (by decide)

/-- What a calibration without a result to keep leaves. -/
theorem calEnded_leaves (low : a < 32) (free : (getRdc s a).calNext = none) (p hd z : Nat) {r : Nat} (hr : r < 8) :
    fget (endCal (calDone s a p hd z) a p hd z r) (rdcF RDC_CAL_STAT_RESULT a) = r ∧
      (getRdc (endCal (calDone s a p hd z) a p hd z r) a).calRun = none ∧
      (endCal (calDone s a p hd z) a p hd z r).nv = s.nv ∧
      Unchanged (.rdc :: reportParts) s (endCal (calDone s a p hd z) a p hd z r) := by
  have frame : Unchanged (.rdc :: reportParts) s (endCal (calDone s a p hd z) a p hd z r) := by
    rw [unchanged_step (endCal_frame _ a p hd z r).parts (by decide), calDone, after_modRdc _ _ _ (by decide)]
    exact unchanged_refl _ s
  refine ⟨(endCal_shows _ low p hd z hr).1, ?_, frame .nv (by decide), frame⟩
  rw [endCal_record, getRdc_calDone]
  exact free

theorem exec_eqCal {hd z r : Nat} (may : calMayEnd s a 2 hd z = true) :
    exec (.eqCal a hd z 1) s = .next (calStored s a 2 hd z (eqFound s a hd z)) ∧
      (3 ≤ r → r ≤ 6 → exec (.eqCal a hd z r) s = .next (endCal (calDone s a 2 hd z) a 2 hd z r)) := by
  have run (r : Nat) : exec (.eqCal a hd z r) s = execEqCal a hd z r s := rfl
  have temp : (getRdc (drawCal (calDone s a 2 hd z)).2 a).temp = (getRdc s a).temp := by
    rw [show getRdc (drawCal (calDone s a 2 hd z)).2 a = getRdc (calDone s a 2 hd z) a from rfl, getRdc_calDone]
  refine ⟨?_, fun ge le => ?_⟩
  · rw [run, execEqCal, if_pos (by simp [may])]
    dsimp only
    rw [if_pos rfl, temp]
    rfl
  · rw [run, execEqCal, if_pos (by simp [may, ge, le])]
    exact congrArg (fun u => Host.Outcome.next (endCal u a 2 hd z r)) (if_neg (by omega))

theorem exec_precomp {hd z r : Nat} (may : calMayEnd s a 3 hd z = true) :
    exec (.precomp a hd z 1) s = .next (calStored s a 3 hd z (pcFound s a hd z)) ∧
      (3 ≤ r → r ≤ 6 → exec (.precomp a hd z r) s = .next (endCal (calDone s a 3 hd z) a 3 hd z r)) := by
  have run (r : Nat) : exec (.precomp a hd z r) s = execPrecomp a hd z r s := rfl
  have temp : (getRdc (drawCal (calDone s a 3 hd z)).2 a).temp = (getRdc s a).temp := by
    rw [show getRdc (drawCal (calDone s a 3 hd z)).2 a = getRdc (calDone s a 3 hd z) a from rfl, getRdc_calDone]
  refine ⟨?_, fun ge le => ?_⟩
  · rw [run, execPrecomp, if_pos (by simp [may])]
    dsimp only
    rw [if_pos rfl, temp]
    rfl
  · rw [run, execPrecomp, if_pos (by simp [may, ge, le])]
    exact congrArg (fun u => Host.Outcome.next (endCal u a 3 hd z r)) (if_neg (by omega))

/-! ### Requests -/

/-- The job that a request names. -/
def calJob (v : Word) : Nat × Nat × Nat :=
  if bitsGet v 10 2 = 1 then (1, 0, 0) else (bitsGet v 10 2, bitsGet v 0 4, bitsGet v 4 6)

theorem calJob_some (v : Word) : some (calJob v) =
    if bitsGet v 10 2 = 1 then some (1, 0, 0) else some (bitsGet v 10 2, bitsGet v 0 4, bitsGet v 4 6) := apply_ite some _ _ _

/-- The fields of RDC_CAL_CTL as a request writes them. -/
def calAsked (s : State) (a : Nat) (v : Word) : State :=
  fset (fset (fset s (rdcF RDC_CAL_CTL_HEAD a) (bitsGet v 0 4)) (rdcF RDC_CAL_CTL_ZONE a) (bitsGet v 4 6))
    (rdcF RDC_CAL_CTL_PROC a)
    (bitsGet v 10 2)

theorem exec_calRequest {v : Word} (low : a < 32) (serves : rdcServes s a = true) (open_ : rdcFenced s = false)
    (go : bitsGet v 12 1 = 1)
    (proc : bitsGet v 10 2 ≠ 0) (head : bitsGet v 0 4 < (hdaTable s (a / 2)).heads)
    (zone : bitsGet v 4 6 < (hdaTable s (a / 2)).zones.length) : exec (.calRequest a v) s =
      .next (if (getRdc s a).calRun.isSome then
          fset (modRdc (calAsked s a v) a fun r => { r with calNext := some (calJob v) }) (rdcF RDC_CAL_STAT_PEND a) 1
        else showRdc (fset (modRdc (calAsked s a v) a fun r => { r with calRun := some (calJob v) })
          (rdcF RDC_CAL_STAT_BUSY a) 1) a) := by
  have headShown : fget (calAsked s a v) (rdcF RDC_CAL_CTL_HEAD a) = bitsGet v 0 4 := by
    rw [calAsked, fget_fset_rdc _ _ (by decide), fget_fset_rdc _ _ (by decide), fget_fset_rdc_same _ _ (by decide)]
    exact Nat.mod_eq_of_lt (Nat.mod_lt _ (by decide))
  have zoneShown : fget (calAsked s a v) (rdcF RDC_CAL_CTL_ZONE a) = bitsGet v 4 6 := by
    rw [calAsked, fget_fset_rdc _ _ (by decide), fget_fset_rdc_same _ _ (by decide)]
    exact Nat.mod_eq_of_lt (Nat.mod_lt _ (by decide))
  have still : rdcFenced (calAsked s a v) = false := by
    have beside (u : State) (f : Fld) (x : Nat) (hf : 0xC00000 ≤ f.off ∧ f.off < 0xC04000) :
        fget (fset u (rdcF f a) x) RDC_STATUS_FENCED = fget u RDC_STATUS_FENCED :=
      fget_fset_off _ _ _ _ (by simp only [rdcF, Fld.ix, RDC_STATUS_FENCED]; omega)
    refine Eq.trans (congrArg (· == 1) ?_) open_
    rw [calAsked, beside _ _ _ (by decide), beside _ _ _ (by decide), beside _ _ _ (by decide)]
  have run : getRdc (calAsked s a v) a = getRdc s a := rfl
  refine (show _ = execCalRequest a v s from rfl).trans ?_
  unfold execCalRequest
  dsimp only
  rw [if_neg (Nat.not_le.mpr low), decide_eq_false (Nat.not_le.mpr head), decide_eq_false (Nat.not_le.mpr zone), serves]
  simp only [serves, Bool.not_true, Bool.or_false, Bool.false_eq_true, if_false]
  rw [← calAsked, headShown, zoneShown, still, run, ← calJob, if_neg (by simp [go, proc])]
  exact (apply_ite Host.Outcome.next _ _ _).symm

theorem exec_calRequest_starts {v : Word} (low : a < 32) (serves : rdcServes s a = true) (open_ : rdcFenced s = false)
    (go : bitsGet v 12 1 = 1) (proc : bitsGet v 10 2 ≠ 0) (head : bitsGet v 0 4 < (hdaTable s (a / 2)).heads)
    (zone : bitsGet v 4 6 < (hdaTable s (a / 2)).zones.length) (idle : (getRdc s a).calRun = none) :
    ∃ t, exec (.calRequest a v) s = .next t ∧ fget t (rdcF RDC_CAL_STAT_BUSY a) = 1 ∧ (getRdc t a).calRun = some (calJob v) ∧
      Unchanged [.regs, .rdc] s t := by
  have run := exec_calRequest low serves open_ go proc head zone
  rw [if_neg (by rw [idle]; decide)] at run
  refine ⟨_, run, ?_, ?_, ?_⟩
  · rw [fget_showRdc _ (by decide), fget_fset_rdc_same _ _ (by decide)]
    rfl
  · rw [getRdc_congr (showRdc_shows _ a).1, getRdc_fset, getRdc_modRdc_same]
  · rw [unchanged_step (showRdc_shows _ a).2.1 (by decide), after_fset _ _ (by decide), after_modRdc _ _ _ (by decide),
      calAsked,
      after_fset _ _ (by decide), after_fset _ _ (by decide), after_fset _ _ (by decide)]
    exact unchanged_refl _ s

theorem exec_calRequest_latches {v : Word} (low : a < 32) (serves : rdcServes s a = true) (open_ : rdcFenced s = false)
    (go : bitsGet v 12 1 = 1) (proc : bitsGet v 10 2 ≠ 0) (head : bitsGet v 0 4 < (hdaTable s (a / 2)).heads)
    (zone : bitsGet v 4 6 < (hdaTable s (a / 2)).zones.length) (busy : (getRdc s a).calRun.isSome = true) :
    ∃ t, exec (.calRequest a v) s = .next t ∧ fget t (rdcF RDC_CAL_STAT_PEND a) = 1 ∧
      (getRdc t a).calRun = (getRdc s a).calRun ∧ (getRdc t a).calNext = some (calJob v) ∧ Unchanged [.regs, .rdc] s t := by
  have run := exec_calRequest low serves open_ go proc head zone
  rw [if_pos busy] at run
  have record : getRdc (fset (modRdc (calAsked s a v) a fun r => { r with calNext := some (calJob v) })
    (rdcF RDC_CAL_STAT_PEND a) 1) a =
      { getRdc s a with calNext := some (calJob v) } := by
    rw [getRdc_fset, getRdc_modRdc_same]
    rfl
  refine ⟨_, run, ?_, ?_, ?_, ?_⟩
  · rw [fget_fset_rdc_same _ _ (by decide)]
    rfl
  · rw [record]
  · rw [record]
  · rw [after_fset _ _ (by decide), after_modRdc _ _ _ (by decide), calAsked, after_fset _ _ (by decide),
      after_fset _ _ (by decide),
      after_fset _ _ (by decide)]
    exact unchanged_refl _ s

end calibrations

/-! ## Fences (R352) -/

section fences

/-- What a fence does to one data path in service. -/
def fencePath (s : State) (a : Nat) : State :=
  let s := endAllOps (dropGate s a 0x43 true) a 0x43
  let s := abortOfsCal (abortCal (modRdc s a fun r => { r with calNext := none }) a 6) a 5
  fset (heaterOff s a) (rdcF RDC_ACT_STATE_STATE a) 7

theorem exec_diskFence (s : State) : exec .diskFence s =
    .next (fset ((List.range 32).foldl (fun s a => if !rdcServes s a then s else fencePath s a) s) RDC_STATUS_FENCED 1) := rfl

/-- What an operation of data path `b` leaves of the others. -/
structure PathBeside (b : Nat) (s t : State) : Prop where
  others : RdcOthers b s t
  regs : ∀ k, 0xC00000 ≤ k → k < 0xC80000 → ¬InPath b k → rget t k = rget s k
  parts : Unchanged (.rdc :: .srv :: .nv :: reportParts) s t

section beside

variable {b : Nat} {s t u : State}

theorem PathBeside.trans (h : PathBeside b s t) (k : PathBeside b t u) : PathBeside b s u :=
  ⟨h.others.trans k.others, fun w low high out => (k.regs w low high out).trans (h.regs w low high out),
    unchanged_trans h.parts k.parts⟩

theorem PathFrame.beside {P : List Part} (h : PathFrame P b s t) (hP : P ⊆ .rdc :: .srv :: .nv :: reportParts) :
    PathBeside b s t :=
  ⟨h.others, fun w low high out => h.regs w ⟨low, by omega⟩ out, unchanged_mono h.parts hP⟩

theorem abortOfsCal_beside (s : State) (b r : Nat) : PathBeside b s (abortOfsCal s b r) := by
  have aborted := abortOfsCal_aborts s r b
  refine ⟨rdcOthers_congr (aborted.parts .rdc (by decide)), fun w low high _ => aborted.regs w ⟨low, by omega⟩ ?_,
    unchanged_mono aborted.parts (by decide)⟩
  simp only [srvF, Fld.ix, SRV_CAL_RESULT]
  omega

theorem fencePath_beside (s : State) (b : Nat) : PathBeside b s (fencePath s b) := by
  unfold fencePath
  refine ((PathFrame.beside (dropGate_frame s b 0x43 true).1 (by decide)).trans
    ((endAllOps_ends _ 0x43).frame.beside (by decide))).trans ?_
  refine PathBeside.trans ?_ (PathFrame.beside ((PathFrame.heaterOff _).mono (P := [.regs, .rdc]) (by decide) |>.trans
    ((PathFrame.fset_own _ _ (by decide)).mono (by decide))) (by decide))
  refine PathBeside.trans ?_ (abortOfsCal_beside _ b 5)
  have latched : PathFrame [.rdc] b (endAllOps (dropGate s b 0x43 true) b 0x43)
      (modRdc (endAllOps (dropGate s b 0x43 true) b 0x43) b fun r => { r with calNext := none }) :=
    PathFrame.modRdc _ fun _ => ⟨rfl, List.Subset.refl _⟩
  exact (latched.beside (by decide)).trans ((abortCal_frame _ b 6).1.beside (by decide))

/-- A pass over some data paths leaves those beside. -/
theorem foldl_fence_beside {a : Nat} (f : Fld) (hf : 0xC00000 ≤ f.off ∧ f.off < 0xC04000) (low : a < 32) (l : List Nat)
    (out : a ∉ l) (s : State) :
    getRdc (l.foldl (fun s b => if !rdcServes s b then s else fencePath s b) s) a = getRdc s a ∧
      fget (l.foldl (fun s b => if !rdcServes s b then s else fencePath s b) s) (rdcF f a) = fget s (rdcF f a) := by
  induction l generalizing s with
  | nil => exact ⟨rfl, rfl⟩
  | cons b l ih =>
    obtain ⟨other, rest⟩ := not_or.mp (mt List.mem_cons.mpr out)
    obtain ⟨record, word⟩ := ih rest (if !rdcServes s b then s else fencePath s b)
    rw [List.foldl_cons, record, word]
    split
    · exact ⟨rfl, rfl⟩
    · have step := fencePath_beside s b
      refine ⟨step.others a other, fget_congr (step.regs _ ?_ ?_ ?_)⟩
      · simp only [rdcF, Fld.ix]
        omega
      · simp only [rdcF, Fld.ix]
        omega
      · simp only [rdcF, Fld.ix, InPath]
        omega

end beside

/-- A data path that a fence has reached. -/
structure Fenced (s : State) (a : Nat) (t : State) : Prop where
  state : fget t (rdcF RDC_ACT_STATE_STATE a) = 7
  run : (getRdc t a).run = none
  queue : (getRdc t a).queue = []
  queued : ∀ o ∈ (getRdc s a).queue, ∃ d ∈ (getRdc t a).done, d.reply = o.reply ∧ d.status = 0x43
  running : ∀ o, (getRdc s a).run = some o → ∃ d ∈ (getRdc t a).done, d.reply = o.reply ∧ d.status = 0x43

theorem fencePath_fences (s : State) (a : Nat) : Fenced s a (fencePath s a) := by
  obtain ⟨queue, dropped⟩ := dropGate_ops (s := s) (a := a) (status := 0x43) (by decide) true
  have all := endAllOps_ends (a := a) (dropGate s a 0x43 true) 0x43
  generalize hu : dropGate s a 0x43 true = u at queue dropped all
  obtain ⟨ds, done, queued, running⟩ := all.done
  have ops : SameOps a (endAllOps u a 0x43) (fencePath s a) := by
    have latched : SameOps a (endAllOps u a 0x43) (modRdc (endAllOps u a 0x43) a fun r => { r with calNext := none }) :=
      sameOps_modRdc fun _ => ⟨rfl, rfl, rfl, rfl⟩
    have aborted := latched.trans (abortCal_frame _ a 6).2
    have offsets := aborted.trans (sameOps_congr ((abortOfsCal_aborts _ 5 a).parts .rdc (by decide)))
    have whole := (offsets.trans (Requested.heaterOff _).ops).trans
      (sameOps_congr (t := fset _ (rdcF RDC_ACT_STATE_STATE a) 7) rfl)
    rw [fencePath, hu]
    exact whole
  refine ⟨?_, ops.run.trans all.run, ops.queue.trans all.queue, fun o ho => ?_, fun o ho => ?_⟩
  · exact fget_fset_rdc_same _ _ (by decide)
  · obtain ⟨d, hd, is⟩ := queued o (by rw [queue]; exact ho)
    exact ⟨d, by rw [ops.done, done]; exact List.mem_append_right _ hd, is⟩
  · rcases dropped with ⟨run, -⟩ | ⟨p, d, was, -, ended, is⟩
    · obtain ⟨d, hd, is⟩ := running o (by rw [run]; exact ho)
      exact ⟨d, by rw [ops.done, done]; exact List.mem_append_right _ hd, is⟩
    · cases ho.symm.trans was
      exact ⟨d, by rw [ops.done, done, ended]; exact List.mem_append_left _ (List.mem_append_right _ List.mem_cons_self), is⟩

theorem diskFence_fences (s : State) : ∃ t, exec .diskFence s = .next t ∧ fget t RDC_STATUS_FENCED = 1 ∧
    (∀ a < 32, rdcServes s a = true → Fenced s a t) ∧ Unchanged (.rdc :: .srv :: .nv :: reportParts) s t := by
  refine ⟨_, exec_diskFence s, fget_fset_same _ RDC_STATUS_FENCED 1 (by decide), fun a low serves => ?_, ?_⟩
  · obtain ⟨before, after, split⟩ := List.append_of_mem (List.mem_range.mpr low)
    have distinct : (before ++ a :: after).Nodup := split ▸ List.nodup_range
    have notBefore : a ∉ before := fun h => (List.nodup_append.mp distinct).2.2 a h a List.mem_cons_self rfl
    have notAfter : a ∉ after := (List.nodup_cons.mp (List.nodup_append.mp distinct).2.1).1
    rw [split, List.foldl_append, List.foldl_cons]
    obtain ⟨record, word⟩ := foldl_fence_beside RDC_ACT_STATE_STATE (by decide) low before notBefore s
    generalize before.foldl (fun s b => if !rdcServes s b then s else fencePath s b) s = u at record word
    have serves' : rdcServes u a = true := by
      unfold rdcServes
      rw [word]
      exact serves
    have reached := fencePath_fences u a
    rw [if_neg (by rw [serves']; decide)]
    obtain ⟨last, state⟩ := foldl_fence_beside RDC_ACT_STATE_STATE (by decide) low after notAfter (fencePath u a)
    generalize after.foldl (fun s b => if !rdcServes s b then s else fencePath s b) (fencePath u a) = v at last state
    obtain ⟨shown, run, queue, queued, running⟩ := reached
    rw [record] at queued running
    rw [← last] at run queue queued running
    refine ⟨?_, run, queue, queued, running⟩
    rw [fget_fset_off _ _ _ _ (by simp only [rdcF, Fld.ix, RDC_STATUS_FENCED, RDC_ACT_STATE_STATE]; omega), state]
    exact shown
  · rw [after_fset _ _ (by decide)]
    refine unchanged_foldl (fun u b => ?_) _ s
    split
    · exact unchanged_refl _ u
    · exact (fencePath_beside u b).parts

end fences

/-! ## Retirement (R357) -/

section retirement

/-- A data path out of service: shown and listed as retired, without an operation, with these completions posted and these units on
the platters. -/
structure PathGone (a : Nat) (done : List DiskDone) (platter : Tbl (List Nat)) (t : State) : Prop where
  state : fget t (rdcF RDC_ACT_STATE_STATE a) = 6
  flag : fbit t RDC_RETIRED_RETIRED a = true
  listed : isRetired t (.dataPath a) = true
  queue : (getRdc t a).queue = []
  run : (getRdc t a).run = none
  gate : (getRdc t a).gate = false
  posted : (getRdc t a).done = done
  stored : t.nv.platter = platter

/-- The two words that show a retirement. -/
def goneWords (a : Nat) : List Nat := [(rdcF RDC_ACT_STATE_STATE a).off, RDC_RETIRED_RETIRED.off]

variable {a : Nat} {ds : List DiskDone} {p : Tbl (List Nat)} {s t : State}

/-- An operation that leaves the record's operations and the two words leaves the retirement. -/
theorem PathGone.after (h : PathGone a ds p s) (ops : SameOps a s t) (gate : (getRdc t a).gate = false)
    (words : ∀ k ∈ goneWords a, rget t k = rget s k) (pwr : t.pwr = s.pwr) (nv : t.nv.platter = s.nv.platter) :
      PathGone a ds p t :=
  ⟨(fget_congr (words _ List.mem_cons_self)).trans h.state,
    (fbit_congr a (fget_congr (words _ (List.mem_cons_of_mem _ List.mem_cons_self)))).trans h.flag,
      (isRetired_congr pwr _).trans h.listed,
    ops.queue.trans h.queue, ops.run.trans h.run, gate, ops.done.trans h.posted, nv.trans h.stored⟩

/-- An operation beside the data paths' records. -/
theorem PathGone.after_parts {P : List Part} (h : PathGone a ds p s) (parts : Unchanged P s t)
    (hP : Part.rdc ∉ P ∧ Part.pwr ∉ P ∧ Part.nv ∉ P) (words : ∀ k ∈ goneWords a, rget t k = rget s k) : PathGone a ds p t := by
  have rdc := parts .rdc hP.1
  exact h.after (sameOps_congr rdc) (by rw [getRdc_congr rdc]; exact h.gate) words (parts .pwr hP.2.1)
    (by rw [parts .nv hP.2.2])

theorem PathGone.fset (h : PathGone a ds p s) {f : Fld} (x : Nat) (hf : f.off ∉ goneWords a) : PathGone a ds p (fset s f x) :=
  h.after_parts (fset_unchanged s f x) (by decide) fun _ hk => rget_fset _ _ _ _ fun same => hf (same ▸ hk)

theorem PathGone.modSrv (h : PathGone a ds p s) (f : Servo → Servo) : PathGone a ds p (modSrv s a f) :=
  h.after_parts (modSrv_unchanged s a f) (by decide) fun _ _ => rfl

theorem PathGone.pushFrame (h : PathGone a ds p s) (f : Frame) : PathGone a ds p (pushFrame s a f) := by
  refine h.after (Requested.pushFrame s f).ops ?_ (fun _ _ => rfl) rfl rfl
  rw [Machine.pushFrame, getRdc_modRdc_same]
  exact h.gate

variable (low : a < 32)
include low

theorem goneWords_unit {k : Nat} (hk : k ∈ goneWords a) : DriveWord k ∧ k < 0xD00000 := by
  simp only [goneWords, List.mem_cons, List.not_mem_nil, or_false, rdcF, Fld.ix, RDC_ACT_STATE_STATE, RDC_RETIRED_RETIRED] at hk
  unfold DriveWord
  omega

theorem srv_notGone {f : Fld} (hf : SrvFld f) : (srvF f a).off ∉ goneWords a := fun hk => by
  have := (goneWords_unit low hk).2
  simp only [srvF, Fld.ix] at this
  omega

theorem vcm_notGone {f : Fld} (hf : VcmFld f) : (vcmF f a).off ∉ goneWords a := fun hk => by
  have := (goneWords_unit low hk).2
  simp only [vcmF, Fld.ix] at this
  omega

/-- A calibration that ends on a retired data path. -/
theorem PathGone.abortCal (h : PathGone a ds p s) (r : Nat) : PathGone a ds p (abortCal s a r) := by
  unfold Machine.abortCal
  split
  case h_2 => exact h
  case h_1 q hd z _ =>
    have frame := (endCal_frame s a q hd z r).parts
    refine h.after (endCal_ops s a q hd z r) (by rw [endCal_record]) (fun k hk => ?_) (frame .pwr (by decide))
      (by rw [frame .nv (by decide)])
    have drive := (goneWords_unit low hk).1
    have off : k ≠ (rdcF RDC_CAL_STAT_RESULT a).off := fun same => by
      simp only [goneWords, List.mem_cons, List.not_mem_nil, or_false, rdcF, Fld.ix, RDC_ACT_STATE_STATE, RDC_RETIRED_RETIRED,
        RDC_CAL_STAT_RESULT] at hk same
      omega
    have shown (w : Nat) (hw : UnitWord w) (other : w ≠ (rdcF RDC_CAL_STAT_RESULT a).off) :
      rget (calShown s a q hd z r) w = rget s w := by
      have told : ∀ u, rget (if r = 1 then dmkSend u 0x0603 (a + r * 32) else
          Machine.raise (dmkSend u 0x0603 (a + r * 32)) (0x605 + 16 * a) (a + r * 32)) w = rget u w := fun u => by
        split
        · exact rget_dmkSend_unit hw _ _ _
        · exact (rget_raise_unit hw _ _ _).trans (rget_dmkSend_unit hw _ _ _)
      unfold calShown
      dsimp only
      rw [told, rget_fset _ (rdcF RDC_CAL_STAT_ZONE a) _ w other, rget_fset _ (rdcF RDC_CAL_STAT_HEAD a) _ w other,
        rget_fset _ (rdcF RDC_CAL_STAT_PROC a) _ w other, rget_fset _ (rdcF RDC_CAL_STAT_RESULT a) _ w other]
    have ended (x : Nat) (w : Nat) (hw : UnitWord w) (other : w ≠ (rdcF RDC_CAL_STAT_RESULT a).off) :
        rget (Machine.fset (Machine.fset (calNextTaken (calShown s a q hd z r) a) (rdcF RDC_CAL_STAT_BUSY a) x)
          (rdcF RDC_CAL_STAT_PEND a) 0) w =
          rget s w := by
      rw [rget_fset _ (rdcF RDC_CAL_STAT_PEND a) _ w other, rget_fset _ (rdcF RDC_CAL_STAT_BUSY a) _ w other]
      exact shown w hw other
    rw [endCal_eq]
    generalize hx : b2n (getRdc (calNextTaken (calShown s a q hd z r) a) a).calRun.isSome = x
    have state : UnitWord (rdcF RDC_ACT_STATE_STATE a).off := (goneWords_unit low List.mem_cons_self).1.unit
    have still := ended x (rdcF RDC_ACT_STATE_STATE a).off state
      (by simp only [rdcF, Fld.ix, RDC_ACT_STATE_STATE, RDC_CAL_STAT_RESULT]; omega)
    have same := ended x k drive.unit off
    generalize Machine.fset (Machine.fset (calNextTaken (calShown s a q hd z r) a) (rdcF RDC_CAL_STAT_BUSY a) x)
      (rdcF RDC_CAL_STAT_PEND a) 0 =
      u at still same
    have silent : showRdc u a = u := by
      unfold showRdc rdcServes
      dsimp only
      rw [fget_congr still, h.state]
      rfl
    rw [silent]
    exact same

theorem PathGone.setSrvState (h : PathGone a ds p s) (st : Nat) : PathGone a ds p (setSrvState s a st) := by
  have shown := (h.fset (f := srvF SRV_ACT_STATE a) st
    (srv_notGone low (by decide))).modSrv fun v => { v with stateNs := s.tb.ns }
  rw [setSrvState_eq]
  generalize Machine.modSrv (Machine.fset s (srvF SRV_ACT_STATE a) st) a (fun v => { v with stateNs := s.tb.ns }) = u at shown ⊢
  have inhibited := shown.fset (f := srvF (bitFld SRV_ACT_INHIBIT 7) a) (if decide (st ≠ 7) = true then 1 else 0)
    (srv_notGone low (by decide))
  rw [← fsetBit_srv] at inhibited
  unfold setInhibit
  dsimp only
  generalize Machine.fsetBit u (srvF SRV_ACT_INHIBIT a) 7 (decide (st ≠ 7)) = w at inhibited ⊢
  have still : compTrip w a = w := if_neg (by rw [inhibited.gate]; decide)
  rw [still, ite_self]
  exact inhibited

theorem PathGone.unloadReady (h : PathGone a ds p s) : PathGone a ds p (unloadReady s a) := by
  have left : PathGone a ds p (modeLeft (Machine.abortCal s a 6) a) := by
    unfold modeLeft
    split
    · exact (h.abortCal low 6).pushFrame _
    · exact h.abortCal low 6
  have off : PathGone a ds p (offTrack (modeLeft (Machine.abortCal s a 6) a) a) :=
    ((left.modSrv _).fset (f := srvF SRV_ACT_ON_TRACK a) 0 (srv_notGone low (by decide))).fset (f := srvF SRV_ACT_RD_READY a) 0
      (srv_notGone low (by decide))
  have cold : PathGone a ds p (unloadStart s a) := by
    rw [unloadStart_eq]
    generalize offTrack (modeLeft (Machine.abortCal s a 6) a) a = u at off
    unfold heaterOff
    split
    · split
      · exact off
      · exact off.pushFrame _
    · exact off
  have aborted := abortOfsCal_aborts (unloadStart s a) 5 a
  refine cold.after_parts aborted.parts (by decide) fun k hk => ?_
  obtain ⟨drive, below⟩ := goneWords_unit low hk
  refine aborted.regs k drive ?_
  simp only [srvF, Fld.ix, SRV_CAL_RESULT]
  omega

theorem PathGone.retract (h : PathGone a ds p s) : PathGone a ds p (retract s a) := by
  have driven : PathGone a ds p (seqDriven s a) := ((h.unloadReady low).setSrvState low 10).modSrv _
  have bridged : PathGone a ds p (setBridge (seqDriven s a) a true) := by
    have told : PathGone a ds p (emit (seqDriven s a) (.bridge a (b2n true))) :=
      driven.after_parts (emit_unchanged _ _) (by decide) fun _ _ => rfl
    exact told.fset _ (vcm_notGone low (f := VCM_STATE_BRIDGE) (by decide))
  rw [retract_eq]
  exact ((bridged.fset _ (srv_notGone low (f := SRV_ERR_CNT1_RETRACT) (by decide))).fset _
    (vcm_notGone low (f := VCM_STATE_RETRACT) (by decide))).fset _ (srv_notGone low (f := SRV_ACT_PHASE) (by decide))

theorem PathGone.unloadReq (h : PathGone a ds p s) : PathGone a ds p (unloadReq s a) := by
  unfold Machine.unloadReq
  dsimp only
  split
  · exact h.retract low
  · split
    · split
      · exact ((h.unloadReady low).setSrvState low 9).modSrv _
      · exact h.retract low
    · exact h

omit low in
theorem PathGone.rdcPowerOff (h : PathGone a ds p s) : PathGone a ds p (rdcPowerOff s a) := by
  unfold Machine.rdcPowerOff
  rw [if_pos h.listed, setPdOn]
  refine h.after_parts (fsetBit_unchanged s _ _ _) (by decide) fun k hk => rget_fsetBit s _ _ _ ?_
  simp only [goneWords, List.mem_cons, List.not_mem_nil, or_false, rdcF, Fld.ix, RDC_ACT_STATE_STATE, RDC_RETIRED_RETIRED] at hk
  simp only [Fld.ix, PWR_PD_ON_ON]
  omega

omit low in
theorem getRdc_modPwr (s : State) (f : Power → Power) (b : Nat) : getRdc (modPwr s f) b = getRdc s b := rfl

/-- The retired data path's registers and record, before its member leaves its pool. -/
def pathMarked (s : State) (a : Nat) : State :=
  let s := fset (endAllOps (abortCal s a 6) a 0x41) (rdcF RDC_ACT_STATE_STATE a) 6
  let s := fsetBit s RDC_RETIRED_RETIRED a true
  let s := modRdc s a fun r => { r with gate := false, calNext := none, calDue := [], queue := [], run := none }
  modPwr s fun p => { p with retired := if p.retired.contains (.dataPath a) then p.retired else p.retired ++ [.dataPath a] }

omit low in
theorem retirePath_eq (s : State) (a : Nat) :
    retirePath s a = minWatch (dmkSend (memberGone (pathMarked s a) true (a / 2) (some (a % 2))) 0x0601 a) := rfl

theorem pathMarked_gone (s : State) : ∃ ds, PathGone a ((getRdc s a).done ++ ds) s.nv.platter (pathMarked s a) ∧
    ∀ o ∈ (getRdc s a).queue, ∃ d ∈ ds, d.reply = o.reply ∧ d.status = 0x41 := by
  obtain ⟨frame, ops⟩ := abortCal_frame s a 6
  have all := endAllOps_ends (a := a) (abortCal s a 6) 0x41
  obtain ⟨ds, done, queued, -⟩ := all.done
  have nv : (endAllOps (abortCal s a 6) a 0x41).nv = s.nv :=
    (all.frame.parts .nv (by decide)).trans (frame.parts .nv (by decide))
  have marked : pathMarked s a = modPwr (modRdc (fsetBit
    (fset (endAllOps (abortCal s a 6) a 0x41) (rdcF RDC_ACT_STATE_STATE a) 6)
      RDC_RETIRED_RETIRED a true) a fun r => { r with gate := false, calNext := none, calDue := [], queue := [], run := none })
      fun p => { p with retired := if p.retired.contains (.dataPath a) then p.retired else p.retired ++ [.dataPath a] } := rfl
  generalize endAllOps (abortCal s a 6) a 0x41 = u at all done nv marked
  obtain ⟨v, hv⟩ : ∃ v, fsetBit (fset u (rdcF RDC_ACT_STATE_STATE a) 6) RDC_RETIRED_RETIRED a true = v := ⟨_, rfl⟩
  rw [hv] at marked
  have record : getRdc v a = getRdc u a := by
    rw [← hv]
    rfl
  have state : fget v (rdcF RDC_ACT_STATE_STATE a) = 6 := by
    rw [← hv, fsetBit, fget_fset_off _ _ _ _ (by simp only [rdcF, Fld.ix, RDC_RETIRED_RETIRED, RDC_ACT_STATE_STATE]; omega),
      fget_fset_rdc_same _ _ (by decide)]
    rfl
  have flag : fbit v RDC_RETIRED_RETIRED a = true := by
    rw [← hv, fbit_fsetBit _ _ _ (by decide) low low, if_pos rfl]
  have stored : v.nv = s.nv := by rw [← hv]; exact nv
  have final : getRdc (pathMarked s a) a = { getRdc u a with gate := false, calNext := none, calDue := [], queue := [], run := none } := by
    rw [marked, getRdc_modPwr, getRdc_modRdc_same, record]
  refine ⟨ds, ⟨?_, ?_, ?_, ?_, ?_, ?_, ?_, ?_⟩, fun o ho => queued o (by rw [ops.queue]; exact ho)⟩
  · rw [marked]
    exact state
  · rw [marked]
    exact flag
  · rw [marked]
    unfold isRetired modPwr
    dsimp only
    split
    case isTrue already => exact already
    case isFalse => simp
  · rw [final]
  · rw [final]
  · rw [final]
  · rw [final, ← ops.done]
    exact done
  · rw [marked]
    exact congrArg NonVolatile.platter stored

/-- The member's retirement leaves that of the data path. -/
theorem PathGone.memberGone (h : PathGone a ds p s) (disk : Bool) (m : Nat) (sub : Option Nat) :
    PathGone a ds p (memberGone s disk m sub) := by
  have gone := memberGone_member s disk m sub
  obtain ⟨l, slips⟩ := gone.slips a
  obtain ⟨q, nv⟩ := gone.nv
  refine h.after ?_ (by rw [slips]; exact h.gate) (fun k hk => gone.regs k (goneWords_unit low hk).1)
    (gone.parts .pwr (by decide)) (by rw [nv])
  constructor <;> rw [slips]

theorem PathGone.report (h : PathGone a ds p s) (reported : ReportFrame s t) : PathGone a ds p t :=
  h.after_parts reported.parts (by decide) fun _ hk => reported.regs _ (not_reportKey_unit (goneWords_unit low hk).1.unit)

/-- A data path in service that is retired ends every queued operation ACT_RETIRED. -/
theorem retireDataPath_gone (k : Nat) (serving : isRetired s (.dataPath a) = false) :
    ∃ ds, PathGone a ((getRdc s a).done ++ ds) s.nv.platter (retireDataPath s a k) ∧
      ∀ o ∈ (getRdc s a).queue, ∃ d ∈ ds, d.reply = o.reply ∧ d.status = 0x41 := by
  have raised := raise_unchanged s (0x600 + 16 * a + k) a
  have record : getRdc (raise s (0x600 + 16 * a + k) a) a = getRdc s a := getRdc_congr (raised .rdc (by decide)) a
  obtain ⟨ds, gone, ended⟩ := pathMarked_gone low (raise s (0x600 + 16 * a + k) a)
  rw [record, raised .nv (by decide)] at gone
  rw [record] at ended
  have told := ((ReportFrame.refl _).after_dmkSend 0x0601 a).trans
    (minWatch_frame (dmkSend (memberGone (pathMarked (raise s (0x600 + 16 * a + k) a) a) true (a / 2) (some (a % 2))) 0x0601 a))
  have retired := (gone.memberGone low true (a / 2) (some (a % 2))).report low told
  rw [← retirePath_eq] at retired
  have unloaded := retired.unloadReq low
  refine ⟨ds, ?_, ended⟩
  unfold retireDataPath
  rw [if_neg (by rw [serving]; decide)]
  dsimp only
  split
  · exact unloaded
  · exact unloaded.rdcPowerOff

theorem isRetired_retireDataPath (s : State) (k : Nat) : isRetired (retireDataPath s a k) (.dataPath a) = true := by
  cases already : isRetired s (.dataPath a) with
  | true =>
    rw [retireDataPath, if_pos already]
    exact already
  | false =>
    obtain ⟨ds, gone, -⟩ := retireDataPath_gone low k already
    exact gone.listed

theorem exec_dataPathRetire {k : Nat} (serves : rdcServes s a = true) (cause : k ∈ [0, 1, 7]) :
    exec (.dataPathRetire a k) s = .next (retireDataPath s a k) := by
  refine (show _ = execDataPathRetire a k s from rfl).trans (if_pos ?_)
  simp only [List.mem_cons, List.not_mem_nil, or_false] at cause
  simp only [serves, low, decide_true, Bool.and_eq_true, Bool.or_eq_true, beq_iff_eq, true_and]
  omega

theorem exec_dataPathRetire_gone {k : Nat} (serves : rdcServes s a = true) (cause : k ∈ [0, 1, 7])
    (serving : isRetired s (.dataPath a) = false) :
    ∃ t, exec (.dataPathRetire a k) s = .next t ∧ isRetired t (.dataPath a) = true ∧
      fbit t RDC_RETIRED_RETIRED a = true ∧ fget t (rdcF RDC_ACT_STATE_STATE a) = 6 ∧ (getRdc t a).queue = [] ∧
      (getRdc t a).run = none ∧ t.nv.platter = s.nv.platter ∧
      ∀ o ∈ (getRdc s a).queue, ∃ d ∈ (getRdc t a).done, d.reply = o.reply ∧ d.status = 0x41 := by
  obtain ⟨ds, gone, ended⟩ := retireDataPath_gone low k serving
  refine ⟨_, exec_dataPathRetire low serves cause, gone.listed, gone.flag, gone.state, gone.queue, gone.run, gone.stored,
    fun o ho => ?_⟩
  obtain ⟨d, hd, is⟩ := ended o ho
  exact ⟨d, by rw [gone.posted]; exact List.mem_append_right _ hd, is⟩

theorem exec_offsetCalTick (serves : rdcServes s a = true) :
    ∃ t, exec (.offsetCalTick a) s = .next t ∧ (1, 0, 0) ∈ (getRdc t a).calDue ∧
    (∀ e, e ∈ (getRdc t a).calDue → e = (1, 0, 0) ∨ e ∈ (getRdc s a).calDue) ∧ (getRdc t a).run = (getRdc s a).run ∧
    Unchanged [.rdc] s t := by
  have record : getRdc (modRdc s a fun r => { r with calDue := ((1, 0, 0) :: r.calDue).dedup }) a =
      { getRdc s a with calDue := ((1, 0, 0) :: (getRdc s a).calDue).dedup } := getRdc_modRdc_same _ _ _
  refine ⟨_, (show _ = execOffsetCalTick a s from rfl).trans (if_pos (by simp [low, serves])), ?_, fun e he => ?_, ?_,
    modRdc_unchanged s a _⟩
  · rw [record]
    exact List.mem_dedup.mpr List.mem_cons_self
  · rw [record] at he
    exact List.mem_cons.mp (List.mem_dedup.mp he)
  · rw [record]

end retirement

/-! ## The statement -/

/-- OFFSET's three ends. -/
theorem offsetCal_ends {s : State} {a : Nat} (r : Nat) (may : calMayEnd s a 1 0 0 = true) (free : (getRdc s a).calNext = none) :
    (r = 1 → ∃ t, exec (.offsetCal a r) s = .next t ∧ fget t (rdcF RDC_CAL_STAT_RESULT a) = 1 ∧
      fget t (rdcF RDC_CAL_STAT_BUSY a) = 0 ∧ (getRdc t a).calRun = none ∧ (getRdc t a).offsetFails = 0 ∧
      t.nv = s.nv ∧ Unchanged (.rdc :: reportParts) s t) ∧
    (r = 2 ∨ r = 6 → (getRdc s a).offsetFails < 2 →
      ∃ t, exec (.offsetCal a r) s = .next t ∧ fget t (rdcF RDC_CAL_STAT_RESULT a) = r ∧
        (getRdc t a).offsetFails = (getRdc s a).offsetFails + 1 ∧ t.nv = s.nv ∧ Unchanged (.rdc :: reportParts) s t) ∧
    (r = 2 ∨ r = 6 → 2 ≤ (getRdc s a).offsetFails →
      ∃ t, exec (.offsetCal a r) s = .next t ∧ isRetired t (.dataPath a) = true) := by
  obtain ⟨low, -⟩ := calMayEnd_path may
  have record := offsetCounted_record s a r
  have frame := offsetCounted_frame s a r
  refine ⟨fun ok => ?_, fun failed few => ?_, fun failed many => ?_⟩
  · have run := exec_offsetCal may (.inl ok)
    obtain ⟨result, busy⟩ := offsetCounted_shows low free (show r < 8 by omega)
    have reset : (getRdc (offsetCounted s a r) a).offsetFails = 0 := by rw [record]; exact if_pos ok
    rw [reset, if_neg (by decide)] at run
    exact ⟨_, run, result.trans ok, busy, by rw [record]; exact free, reset, frame .nv (by decide), frame⟩
  · have run := exec_offsetCal may (.inr failed)
    obtain ⟨result, -⟩ := offsetCounted_shows low free (show r < 8 by omega)
    have counted : (getRdc (offsetCounted s a r) a).offsetFails = (getRdc s a).offsetFails + 1 := by
      rw [record]
      exact if_neg (by omega)
    rw [counted, if_neg (by omega)] at run
    exact ⟨_, run, result, counted, frame .nv (by decide), frame⟩
  · have run := exec_offsetCal may (.inr failed)
    have counted : (getRdc (offsetCounted s a r) a).offsetFails = (getRdc s a).offsetFails + 1 := by
      rw [record]
      exact if_neg (by omega)
    rw [counted, if_pos (by omega)] at run
    exact ⟨_, run, isRetired_retireDataPath low _ 0⟩

/-- EQ's and PRECOMP's ends. -/
theorem calibration_ends {s : State} {a hd z p : Nat} {i : Nat → Instr} (kind : (p = 2 ∧ i = fun r => Instr.eqCal a hd z r) ∨
    (p = 3 ∧ i = fun r => Instr.precomp a hd z r)) (may : calMayEnd s a p hd z = true) (free : (getRdc s a).calNext = none) :
    (∃ t, exec (i 1) s = .next t ∧ fget t (rdcF RDC_CAL_STAT_RESULT a) = 1 ∧ t.freeCtr = s.freeCtr + 1 ∧
      (p = 2 → calEntry t a hd z = eqFound s a hd z) ∧ (p = 3 → calEntry t a hd z = pcFound s a hd z) ∧
      Unchanged (.rdc :: .nv :: .freeCtr :: reportParts) s t) ∧
    ∀ r ∈ [3, 4, 5, 6], ∃ t, exec (i r) s = .next t ∧ fget t (rdcF RDC_CAL_STAT_RESULT a) = r ∧
      (getRdc t a).calRun = none ∧ t.nv = s.nv ∧ Unchanged (.rdc :: reportParts) s t := by
  obtain ⟨low, -⟩ := calMayEnd_path may
  have other {r : Nat} (hr : r ∈ [3, 4, 5, 6]) : 3 ≤ r ∧ r ≤ 6 := by
    simp only [List.mem_cons, List.not_mem_nil, or_false] at hr
    omega
  rcases kind with ⟨rfl, rfl⟩ | ⟨rfl, rfl⟩
  · refine ⟨?_, fun r hr => ⟨_, (exec_eqCal may).2 (other hr).1 (other hr).2,
      calEnded_leaves low free 2 hd z (show r < 8 by have := other hr; omega)⟩⟩
    obtain ⟨result, drawn, entry, frame⟩ := calStored_stores (s := s) low 2 (hd := hd) (z := z) (eqFound_ne s a hd z)
    exact ⟨_, (exec_eqCal (r := 3) may).1, result, drawn, fun _ => entry, fun pc => absurd pc (by decide), frame⟩
  · refine ⟨?_, fun r hr => ⟨_, (exec_precomp may).2 (other hr).1 (other hr).2,
      calEnded_leaves low free 3 hd z (show r < 8 by have := other hr; omega)⟩⟩
    obtain ⟨result, drawn, entry, frame⟩ := calStored_stores (s := s) low 3 (hd := hd) (z := z) (pcFound_ne s a hd z)
    exact ⟨_, (exec_precomp (r := 3) may).1, result, drawn, fun eq => absurd eq (by decide), fun _ => entry, frame⟩

/-- Settles O43: each operation's end by the rule of its own section; a fence reaches the data paths one by one, and what the unload
of a retired one does leaves its retirement. -/
theorem diskFaultsAndUpkeep : Obligations.DiskFaultsAndUpkeep := by
  refine ⟨fun s a o low serves running write open_ => wfltCapture_ends low serves running write open_,
    fun s h a low side => ⟨⟨_, (exec_speedExcursion low).1, ?_, ?_⟩, fun o running write open_ beside => ?_⟩, fun s => ?_,
    fun s a v d ok f turn write => exec_serialFrame_write turn write ok v,
    fun s a d f turn read check => ⟨exec_serialFrame_verifies turn read check, exec_serialFrame_again turn read check⟩,
    fun s a low serves => ⟨exec_fstatPoll low serves, fun v => exec_preampRead low serves,
      fun v => exec_preampRead_unlisted low⟩,
    fun s a x low => exec_heaterUpdate low x, fun s a h low idle long on code => exec_heaterIdleOff low idle long on code,
    fun s a r may free => offsetCal_ends r may free, fun s a hd z p i kind may free => calibration_ends kind may free,
    fun s a v low serves open_ go proc head zone => by
      rw [← calJob_some]
      exact ⟨exec_calRequest_starts low serves open_ go proc head zone,
        exec_calRequest_latches low serves open_ go proc head zone⟩,
    fun s a low serves => ⟨exec_offsetCalTick low serves,
      fun k cause serving => exec_dataPathRetire_gone low serves cause serving⟩⟩
  · rcases (show a = 2 * h ∨ a = 2 * h + 1 by omega) with rfl | rfl
    · rw [fget_fset_off _ _ _ _ (by simp only [rdcF, Fld.ix]; omega), fget_fset_rdc_same _ _ (by decide)]
      rfl
    · rw [fget_fset_rdc_same _ _ (by decide)]
      rfl
  · rw [after_fset _ _ (by decide), after_fset _ _ (by decide)]
    exact unchanged_refl _ s
  · obtain ⟨t, run, lost⟩ := speedExcursion_ends low side running write open_ beside
    exact ⟨t, run, lost.shown, lost.gate, lost.run, lost.done, lost.sector, lost.frame⟩
  · obtain ⟨t, run, shown, each, frame⟩ := diskFence_fences s
    exact ⟨t, run, shown, fun a low serves => ⟨(each a low serves).state, (each a low serves).run, (each a low serves).queue,
      (each a low serves).queued, (each a low serves).running⟩, frame⟩

end Sys2Proof.Laws
end

section
/-!
PROOFS. The loads and unloads of an arm begin and end (R400 to R404).
-/

namespace Sys2Proof.Laws

open Sys2Proof.Machine

/-! ## The drives' register words -/

/-- The drives keep their register words. -/
def DriveKept (s t : State) : Prop := ∀ k, DriveWord k → rget t k = rget s k

section kept

variable {s t u : State} {a : Nat} {f g : Fld}

theorem DriveKept.trans (h : DriveKept s t) (k : DriveKept t u) : DriveKept s u := fun w hw => (k w hw).trans (h w hw)

theorem driveKept_congr (h : t.regs = s.regs) : DriveKept s t := fun k _ => rget_congr h k

theorem driveKept_report (h : ReportFrame s t) : DriveKept s t := fun _ hk => h.regs _ (not_reportKey_unit hk.unit)

theorem driveKept_told (s : State) (src code data : Nat) : DriveKept s (dmkSend (raise s src data) code data) :=
  driveKept_report (((ReportFrame.refl s).after_raise _ _).after_dmkSend _ _)

theorem driveKept_powerOff (s : State) (a : Nat) : DriveKept s (rdcPowerOff s a) := fun k hk => by
  unfold rdcPowerOff
  split
  · refine rget_fsetBit s _ _ _ ?_
    have := hk.2
    simp only [Fld.ix, PWR_PD_ON_ON]
    omega
  · rfl

theorem DriveKept.srv (h : DriveKept s t) (low : a < 32) (hg : SrvFld g) : fget t (srvF g a) = fget s (srvF g a) :=
  fget_congr (h _ (srvFld_drive low hg).1)

theorem DriveKept.vcm (h : DriveKept s t) (low : a < 32) (hg : VcmFld g) : fget t (vcmF g a) = fget s (vcmF g a) :=
  fget_congr (h _ (vcmFld_drive low hg).1)

theorem DriveKept.retired (h : DriveKept s t) (i : Nat) : fbit t SRV_RETIRED_RETIRED i = fbit s SRV_RETIRED_RETIRED i :=
  fbit_congr i (fget_congr (h _ (by unfold DriveWord; decide)))

end kept

/-! ## An arm's tasks -/

section tasks

variable (s : State) (a : Nat)

theorem disableTask_disables (t : Nat) : (getTask (disableTask s t) t).enabled = false ∧
    (∀ k, k ≠ t → getTask (disableTask s t) k = getTask s k) ∧ Unchanged [.ltn] s (disableTask s t) := by
  obtain ⟨own, others, frame⟩ := drainCoefs_keeps (s := modTask s t fun k => { k with enabled := false, due := none }) (t := t)
  refine ⟨?_, fun k hk => (others k hk).trans (getTask_modTask_ne _ _ _ hk), unchanged_trans (modTask_unchanged s t _) frame⟩
  unfold disableTask
  unfold CoefsOnly at own
  rw [own, getTask_modTask_same]

/-- The arm's two tasks are disabled. -/
def tasksOff (s : State) (a : Nat) : State := disableTask (disableTask s a) (32 + a)

theorem tasksOff_disables : (getTask (tasksOff s a) a).enabled = false ∧ (getTask (tasksOff s a) (32 + a)).enabled = false ∧
    Unchanged [.ltn] s (tasksOff s a) := by
  obtain ⟨first, -, frame⟩ := disableTask_disables s a
  obtain ⟨second, others, frame'⟩ := disableTask_disables (disableTask s a) (32 + a)
  refine ⟨?_, second, unchanged_trans frame frame'⟩
  rw [tasksOff, others a (by omega)]
  exact first

theorem getTask_congr {s t : State} (h : t.ltn = s.ltn) (k : Nat) : getTask t k = getTask s k := by rw [getTask, h, getTask]

end tasks

/-! ## Park records (R403) -/

section park

variable (s : State) {a : Nat} {g : Fld} (r : Nat)

theorem setPark_unchanged (a : Nat) : Unchanged [.nv, .regs] s (setPark s a r) := by
  intro part hpart
  cases part with
  | nv | regs => exact absurd (by decide) hpart
  | _ => rfl

theorem setPark_record (a : Nat) : tget 0 (setPark s a r).nv.park a = r := (tget_tset _ _ _ _ _).trans (if_pos rfl)

theorem setPark_shows (small : r < 4) : fget (setPark s a r) (srvF SRV_ACT_PARK_REC a) = r :=
  (fget_fset_srv_same _ _ (by decide)).trans (Nat.mod_eq_of_lt small)

theorem fget_setPark_vcm (low : a < 32) (hg : VcmFld g) : fget (setPark s a r) (vcmF g a) = fget s (vcmF g a) :=
  fget_fset_srv_vcm _ _ low (by decide) hg

end park

/-! ## Loads (R402) -/

section loads

variable {s : State} {a : Nat}

/-- A load has started. -/
structure LoadStarted (a : Nat) (s t : State) : Prop where
  state : srvState t a = 4
  bridge : fget t (vcmF VCM_STATE_BRIDGE a) = 1
  volts : (getSrv t a).volts = loadVolts s a
  again : (getSrv t a).again = false
  park : tget 0 t.nv.park a = 2
  shown : fget t (srvF SRV_ACT_PARK_REC a) = 2
  mode : { cls := 2, addr := 1, data := some 2 } ∈ (getRdc t a).frames
  parts : Unchanged (.nv :: armParts) s t

theorem LoadStarted.after {P : List Part} {t u : State} (h : LoadStarted a s t) (low : a < 32) (kept : DriveKept t u)
    (parts : Unchanged P t u)
    (beside : Part.srv ∉ P ∧ Part.rdc ∉ P ∧ Part.nv ∉ P) : srvState u a = 4 ∧ fget u (vcmF VCM_STATE_BRIDGE a) = 1 ∧
      (getSrv u a).volts = loadVolts s a ∧ tget 0 u.nv.park a = 2 ∧ fget u (srvF SRV_ACT_PARK_REC a) = 2 ∧
      { cls := 2, addr := 1, data := some 2 } ∈ (getRdc u a).frames := by
  obtain ⟨srv, rdc, nv⟩ := beside
  refine ⟨(kept.srv low (by decide)).trans h.state, (kept.vcm low (by decide)).trans h.bridge, ?_, ?_,
    (kept.srv low (by decide)).trans h.shown, ?_⟩
  · rw [getSrv_congr (parts .srv srv)]
    exact h.volts
  · rw [parts .nv nv]
    exact h.park
  · rw [getRdc_congr (parts .rdc rdc)]
    exact h.mode

/-- The arm driven inward, before the load's record is made. -/
def inwardDriven (s : State) (a : Nat) : State := setBridge (setSrvState (setMode (setPark s a 2) a 2) a 4) a true

theorem startLoad_eq (s : State) (a : Nat) : startLoad s a = modSrv (inwardDriven s a) a fun v =>
    { v with volts := loadVolts (inwardDriven s a) a, loadRun := 0, reload := false, again := false, wedge := none, x := none } := rfl

theorem startLoad_starts (low : a < 32) : LoadStarted a s (startLoad s a) := by
  have parked := setPark_unchanged s 2 a
  have asked : ArmFrame a (setPark s a 2) (setMode (setPark s a 2) a 2) :=
    .of_path (PathFrame.setMode (setPark s a 2) 2 false) (by decide)
  have moved : ArmFrame a (setMode (setPark s a 2) a 2) (inwardDriven s a) :=
    (setSrvState_arm _ a 4).trans (setBridge_arm _ a true)
  have arm := asked.trans moved
  have volts : loadVolts (inwardDriven s a) a = loadVolts s a := arm.volts.2.trans
    (coilVolts_congr (by rw [getRdc_congr (parked .rdc (by decide))]) (parked .loader (by decide)) (parked .pwr (by decide))).2
  have nv : (startLoad s a).nv = (setPark s a 2).nv := arm.parts .nv (by decide)
  refine ⟨?_, ?_, ?_, ?_, ?_, ?_, ?_, ?_⟩
  · change fget (startLoad s a) (srvF SRV_ACT_STATE a) = 4
    rw [startLoad_eq, fget_modSrv, inwardDriven, fget_setBridge_srv _ low _ (by decide), srvState_setSrvState _ low (by decide)]
  · rw [startLoad_eq, fget_modSrv, inwardDriven, bridge_setBridge]
    rfl
  · rw [startLoad_eq, getSrv_modSrv_same, volts]
  · rw [startLoad_eq, getSrv_modSrv_same]
  · rw [nv, setPark_record]
  · rw [startLoad_eq, fget_modSrv, inwardDriven, fget_setBridge_srv _ low _ (by decide),
      fget_setSrvState_srv _ low _ (by decide) (by decide) (by decide) (by decide)]
    exact setPark_shows s 2 (by decide)
  · rw [startLoad_eq, getRdc_modSrv]
    refine moved.frames ?_
    rw [setMode, Machine.pushFrame, getRdc_modRdc_same]
    exact List.mem_append_right _ List.mem_cons_self
  · rw [startLoad_eq, after_modSrv _ _ _ (by decide)]
    exact unchanged_trans (unchanged_mono parked (by decide)) (unchanged_mono arm.parts (by decide))

/-! ### Resynchronisation (R291) -/

/-- The segments found bad are asked to be relocated. -/
def segsAsked (s : State) (bad : List Nat) : State := bad.foldl (fun s i => modSeg s true i fun r => { r with asked := true }) s

theorem segsAsked_asks (bad : List Nat) (s : State) : (segsAsked s bad).udc.resynced = s.udc.resynced ∧
    (∀ i ∈ bad, (getSeg (segsAsked s bad) true i).asked = true) ∧
      (∀ i, i ∉ bad → getSeg (segsAsked s bad) true i = getSeg s true i) ∧
    (∀ i, getSeg (segsAsked s bad) false i = getSeg s false i) ∧ Unchanged [.udc] s (segsAsked s bad) := by
  unfold segsAsked
  induction bad using List.reverseRecOn with
  | nil => exact ⟨rfl, fun i hi => absurd hi List.not_mem_nil, fun _ _ => rfl, fun _ => rfl, unchanged_refl _ s⟩
  | append_singleton bad b ih =>
    obtain ⟨resynced, asked, beside, flash, parts⟩ := ih
    rw [List.foldl_append, List.foldl_cons, List.foldl_nil]
    generalize bad.foldl (fun s i => modSeg s true i fun r => { r with asked := true }) s = u
      at resynced asked beside flash parts
    have here (i : Nat) : getSeg (modSeg u true b fun r => { r with asked := true }) true i =
        if i = b then { getSeg u true b with asked := true } else getSeg u true i := by
      rw [getSeg_modSeg]
      by_cases same : i = b
      · rw [if_pos (by rw [same]), if_pos same]
      · rw [if_neg (fun key => same ?_), if_neg same]
        have one := (segKey_parts true i).2
        have two := (segKey_parts true b).2
        rw [key, two] at one
        exact one.symm
    refine ⟨resynced, fun i hi => ?_, fun i hi => ?_, fun i => ?_, unchanged_trans parts ?_⟩
    · rw [here]
      split
      · rfl
      · rcases List.mem_append.mp hi with before | last
        · exact asked i before
        · exact absurd (List.mem_singleton.mp last) ‹_›
    · rw [here, if_neg fun same => hi (List.mem_append_right _ (List.mem_singleton.mpr same))]
      exact beside i fun mem => hi (List.mem_append_left _ mem)
    · rw [getSeg_modSeg, if_neg fun key => ?_]
      · exact flash i
      · have one := (segKey_parts false i).1
        have two := (segKey_parts true b).1
        rw [key, two] at one
        exact absurd one (by decide)
    · exact unchanged_trans (modUdc_unchanged u _) (modUdc_unchanged _ _)

theorem resyncDisk_leaves (s : State) (h n : Nat) (bad : List Nat) : DriveKept s (resyncDisk s h bad n) ∧
    Unchanged (.udc :: reportParts) s (resyncDisk s h bad n) := by
  unfold resyncDisk
  split
  · exact ⟨driveKept_congr rfl, unchanged_refl _ s⟩
  · dsimp only
    split
    · exact ⟨driveKept_congr rfl, unchanged_mono (modUdc_unchanged s _) (by decide)⟩
    · have asked := (segsAsked_asks bad (modUdc s fun u => { u with resynced := h :: u.resynced })).2.2.2.2
      change DriveKept s (dmkSend (raise (segsAsked _ bad) 0xA00 n) 0x0A07 n) ∧
        Unchanged _ s (dmkSend (raise (segsAsked _ bad) 0xA00 n) 0x0A07 n)
      generalize segsAsked (modUdc s fun u => { u with resynced := h :: u.resynced }) bad = u at asked
      have found : Unchanged [.udc] s u := unchanged_trans (modUdc_unchanged s _) asked
      refine ⟨(driveKept_congr (found .regs (by decide))).trans (driveKept_told u 0xA00 0x0A07 n), ?_⟩
      rw [after_dmkSend _ _ (by decide), after_raise _ _ (by decide)]
      exact unchanged_mono found (by decide)

theorem resyncDisk_asks {h n : Nat} (bad : List Nat) (first : h ∉ s.udc.resynced) (some_ : 0 < n) :
    h ∈ (resyncDisk s h bad n).udc.resynced ∧ (∀ i ∈ bad, (getSeg (resyncDisk s h bad n) true i).asked = true) ∧
      (∀ i, i ∉ bad → getSeg (resyncDisk s h bad n) true i = getSeg s true i) ∧
      ∀ i, getSeg (resyncDisk s h bad n) false i = getSeg s false i := by
  obtain ⟨resynced, asked, beside, flash, -⟩ := segsAsked_asks bad (modUdc s fun u => { u with resynced := h :: u.resynced })
  have eq : resyncDisk s h bad n = dmkSend (raise (segsAsked
    (modUdc s fun u => { u with resynced := h :: u.resynced }) bad) 0xA00 n) 0x0A07 n := by
    unfold resyncDisk
    rw [if_neg (by simpa using first)]
    exact if_neg (Nat.pos_iff_ne_zero.mp some_)
  have marked : (modUdc s fun u => { u with resynced := h :: u.resynced }).udc.resynced = h :: s.udc.resynced := rfl
  have before (d : Bool) (i : Nat) : getSeg (modUdc s fun u => { u with resynced := h :: u.resynced }) d i = getSeg s d i := rfl
  generalize segsAsked (modUdc s fun u => { u with resynced := h :: u.resynced }) bad = u at resynced asked beside flash eq
  have same : (resyncDisk s h bad n).udc = u.udc := by
    rw [eq]
    exact (dmkSend_unchanged _ _ _ .udc (by decide)).trans (raise_unchanged _ _ _ .udc (by decide))
  have seg (d : Bool) (i : Nat) : getSeg (resyncDisk s h bad n) d i = getSeg u d i := getSeg_congr (by rw [same]) d i
  refine ⟨?_, fun i hi => ?_, fun i hi => ?_, fun i => ?_⟩
  · rw [same, resynced, marked]
    exact List.mem_cons_self
  · rw [seg]
    exact asked i hi
  · rw [seg, beside i hi, before]
  · rw [seg, flash, before]

/-! ### LOAD and LOAD_RETRY -/

variable (low : a < 32) (ok : loadOk s a = true)
include low ok

theorem exec_load (bad : List Nat) (n : Nat) : exec (.load a none bad n) s = .next (resyncDisk (startLoad s a) (a / 2) bad n) :=
  (show _ = execLoad a none bad n s from rfl).trans (if_pos (by simp [low, ok]))

theorem exec_load_started : ∃ t, exec (.load a none [] 0) s = .next t ∧ srvState t a = 4 ∧
    fget t (vcmF VCM_STATE_BRIDGE a) = 1 ∧
    (getSrv t a).volts = loadVolts s a ∧ tget 0 t.nv.park a = 2 ∧ fget t (srvF SRV_ACT_PARK_REC a) = 2 ∧
    { cls := 2, addr := 1, data := some 2 } ∈ (getRdc t a).frames := by
  obtain ⟨kept, parts⟩ := resyncDisk_leaves (startLoad s a) (a / 2) 0 []
  exact ⟨_, exec_load low ok [] 0, (startLoad_starts low).after low kept parts (by decide)⟩

theorem exec_load_resync (bad : List Nat) (n : Nat) (first : a / 2 ∉ s.udc.resynced) (some_ : 0 < n) :
    ∃ t, exec (.load a none bad n) s = .next t ∧ srvState t a = 4 ∧ a / 2 ∈ t.udc.resynced ∧
      (∀ i ∈ bad, (getSeg t true i).asked = true) ∧
      (∀ i, i ∉ bad → getSeg t true i = getSeg s true i) ∧ (∀ i, getSeg t false i = getSeg s false i) := by
  have started := startLoad_starts (s := s) low
  have udc : (startLoad s a).udc = s.udc := started.parts .udc (by decide)
  obtain ⟨kept, parts⟩ := resyncDisk_leaves (startLoad s a) (a / 2) n bad
  obtain ⟨resynced, asked, beside, flash⟩ := resyncDisk_asks bad (s := startLoad s a) (by rw [udc]; exact first) some_
  have seg (d : Bool) (i : Nat) : getSeg (startLoad s a) d i = getSeg s d i := getSeg_congr (by rw [udc]) d i
  exact ⟨_, exec_load low ok bad n, (started.after low kept parts (by decide)).1, resynced, asked,
    fun i hi => (beside i hi).trans (seg true i), fun i => (flash i).trans (seg false i)⟩

theorem exec_load_measures (m : Measured) (item : m.item = 0x202 + 4 * a) (unmeasured : (param s m.item).2.1 = 0)
    (valid : Measured.code m = 1) : ∃ t, exec (.load a (some m) [] 0) s = .next t ∧ srvState t a = 4 ∧
      param t m.item = (m.value.toNat, 1, min ((param s m.item).2.2 + 1) 255) := by
  have started := startLoad_starts (s := s) low
  obtain ⟨kept, parts⟩ := resyncDisk_leaves (startLoad s a) (a / 2) 0 []
  have state := (started.after low kept parts (by decide)).1
  have pwr : (resyncDisk (startLoad s a) (a / 2) [] 0).pwr = s.pwr :=
    (parts .pwr (by decide)).trans (started.parts .pwr (by decide))
  have run : exec (.load a (some m) [] 0) s = execLoad a (some m) [] 0 s := rfl
  rw [execLoad, if_pos (by simp [low, ok])] at run
  dsimp only at run
  generalize resyncDisk (startLoad s a) (a / 2) [] 0 = u at run state pwr
  have same : param u m.item = param s m.item := by rw [param, pwr, param]
  have entered : enterMeasured u m = (setParam u m.item m.value.toNat 1, false) := by
    have other : ¬(0x200 ≤ m.item && m.item < 0x280 && m.item % 4 = 0) = true := by
      simp only [Bool.and_eq_true, decide_eq_true_eq]
      omega
    unfold enterMeasured
    dsimp only
    rw [valid, if_pos rfl, if_neg other]
  rw [if_pos (by rw [same, unmeasured, item]; simp), entered] at run
  refine ⟨_, run, state, (tget_tset _ _ _ _ _).trans ((if_pos rfl).trans ?_)⟩
  rw [same]

theorem exec_loadRetry (again : (getSrv s a).again = true) (long : 1000000000 ≤ s.tb.ns - (getSrv s a).loadNs.headD 0) :
    ∃ t, exec (.loadRetry a) s = .next t ∧ srvState t a = 4 ∧ fget t (vcmF VCM_STATE_BRIDGE a) = 1 ∧
      (getSrv t a).again = false ∧ tget 0 t.nv.park a = 2 := by
  have started := startLoad_starts (s := s) low
  exact ⟨_, (show _ = execLoadRetry a s from rfl).trans (if_pos (by
    rw [again, ok, decide_eq_true low, decide_eq_true long]
    rfl)), started.state, started.bridge,
    started.again, started.park⟩

end loads

/-! ## Unloads begin (R400, R401) -/

section unloads

variable {s : State} {a : Nat} {i : Instr}

/-- The sequencer's instructions, and the unloads that may not take the guided form. -/
theorem exec_retracts (low : a < 32) (cause : (i = .retract a ∧ 4 ≤ srvState s a ∧ srvState s a ≤ 9) ∨
    (i = .unloadRequest a ∧ srvState s a = 4) ∨
    (i ∈ [Instr.guidedUnload a, .unloadRequest a] ∧ 5 ≤ srvState s a ∧ srvState s a ≤ 8 ∧ guidedOk s a = false)) :
    exec i s = .next (retract s a) := by
  have request (h : unloadReq s a = retract s a) : exec (.unloadRequest a) s = .next (retract s a) :=
    (show _ = execUnloadRequest a s from rfl).trans ((if_pos low).trans (congrArg _ h))
  rcases cause with ⟨rfl, ge, le⟩ | ⟨rfl, loading⟩ | ⟨mem, ge, le, unguided⟩
  · refine (show _ = execRetract a s from rfl).trans ((if_pos low).trans (congrArg _ ?_))
    exact if_pos (by simp [ge, le])
  · exact request (if_pos loading)
  · have moving : (5 ≤ srvState s a && srvState s a ≤ 8) = true := by simp [ge, le]
    rcases List.mem_cons.mp mem with rfl | mem
    · refine (show _ = execGuidedUnload a s from rfl).trans ?_
      unfold execGuidedUnload
      dsimp only
      rw [if_pos (by simp [low, ge, le]), unguided]
      rfl
    · rw [List.mem_singleton.mp mem]
      refine request ?_
      unfold unloadReq
      dsimp only
      rw [if_neg (by omega), if_pos moving, unguided]
      rfl

theorem exec_guides (low : a < 32) (mem : i ∈ [Instr.guidedUnload a, .unloadRequest a]) (ge : 5 ≤ srvState s a)
    (le : srvState s a ≤ 8)
    (ok : guidedOk s a = true) : exec i s = .next (guided s a) := by
  have moving : (5 ≤ srvState s a && srvState s a ≤ 8) = true := by simp [ge, le]
  rcases List.mem_cons.mp mem with rfl | mem
  · refine (show _ = execGuidedUnload a s from rfl).trans ?_
    unfold execGuidedUnload
    dsimp only
    rw [if_pos (by simp [low, ge, le]), ok]
    rfl
  · rw [List.mem_singleton.mp mem]
    refine (show _ = execUnloadRequest a s from rfl).trans ((if_pos low).trans (congrArg _ ?_))
    unfold unloadReq
    dsimp only
    rw [if_neg (by omega), if_pos moving, ok]
    rfl

end unloads

/-! ## Failed loads and lost positions (R402, R404) -/

section failures

variable {s : State} {a : Nat}

/-- The events of the last 600 s. -/
def recentNs (s : State) (l : List Nat) : List Nat := l.filter fun x => s.tb.ns - x ≤ 600000000000

theorem recentNs_none {l : List Nat} (old : ∀ x ∈ l, 600000000000 < s.tb.ns - x) : recentNs s l = [] :=
  List.filter_eq_nil_iff.mpr fun x hx => by
    rw [decide_eq_true_eq]
    exact Nat.not_le.mpr (old x hx)

theorem recentNs_some {l : List Nat} {x : Nat} (hx : x ∈ l) (recent : s.tb.ns - x ≤ 600000000000) :
    (recentNs s l).isEmpty = false := by
  cases found : recentNs s l with
  | nil => exact absurd (decide_eq_true recent) (List.filter_eq_nil_iff.mp found x hx)
  | cons y l => rfl

/-- What the record of a failed load says of the arm. -/
def loadNoted (s : State) (a : Nat) (v : Servo) : Servo :=
  { v with loadNs := s.tb.ns :: recentNs s (getSrv s a).loadNs
           again := !!(recentNs s (getSrv s a).loadNs).isEmpty
           retireOwed := v.retireOwed || !(recentNs s (getSrv s a).loadNs).isEmpty }

/-- The report of a failed load. -/
def loadReport (a : Nat) (retires : Bool) : Report :=
  { src := 0x60C + 16 * a, cls := if retires then .contained else .corrected, data := a }

/-- The state with a failed load counted and reported. -/
def loadTold (s : State) (a : Nat) : State :=
  dmkSend (report (fbump s (srvF SRV_ERR_CNT1_LOAD_FAIL a)) (loadReport a !(recentNs s (getSrv s a).loadNs).isEmpty)) 0x0613 a

theorem loadFailed_eq (s : State) (a : Nat) : loadFailed s a = retract (modSrv (loadTold s a) a (loadNoted s a)) a := rfl

theorem loadTold_shows (s : State) (a : Nat) : getSrv (loadTold s a) a = getSrv s a ∧
    (a < 32 → fget (loadTold s a) (srvF SRV_ERR_CNT1_LOAD_FAIL a) =
      min (fget s (srvF SRV_ERR_CNT1_LOAD_FAIL a) + 1) 255) := by
  have told : ReportFrame (fbump s (srvF SRV_ERR_CNT1_LOAD_FAIL a)) (loadTold s a) :=
    ((ReportFrame.refl _).after_report _).after_dmkSend 0x0613 a
  refine ⟨getSrv_congr (told.parts .srv (by decide)) a, fun low => ?_⟩
  rw [(driveKept_report told).srv low (by decide), fget_fbump_srv _ (by decide)]
  rfl

theorem exec_loadTimeout (low : a < 32) (loading : srvState s a = 4) (long : 500000000 ≤ s.tb.ns - (getSrv s a).stateNs) :
    ∃ t, exec (.loadTimeout a) s = .next t ∧ srvState t a = 10 ∧ fget t (vcmF VCM_STATE_RETRACT a) = 1 ∧
      fget t (srvF SRV_ERR_CNT1_LOAD_FAIL a) = min (fget s (srvF SRV_ERR_CNT1_LOAD_FAIL a) + 1) 255 ∧
      ((∀ x ∈ (getSrv s a).loadNs, 600000000000 < s.tb.ns - x) → (getSrv t a).again = true ∧
        (getSrv t a).retireOwed = (getSrv s a).retireOwed) ∧
      (∀ x ∈ (getSrv s a).loadNs, s.tb.ns - x ≤ 600000000000 → (getSrv t a).retireOwed = true) := by
  have run : exec (.loadTimeout a) s = .next (loadFailed s a) := (show _ = execLoadTimeout a s from rfl).trans (if_pos (by
    rw [decide_eq_true low, loading, decide_eq_true long]
    rfl))
  rw [loadFailed_eq] at run
  obtain ⟨same, count⟩ := loadTold_shows s a
  generalize loadTold s a = u at run same count
  have record : getSrv (modSrv u a (loadNoted s a)) a = loadNoted s a (getSrv s a) := by rw [getSrv_modSrv_same, same]
  obtain ⟨state, seq, -⟩ := retract_shows (modSrv u a (loadNoted s a)) low
  obtain ⟨c, n, ns, srv⟩ := retract_srv (modSrv u a (loadNoted s a)) (a := a)
  rw [record] at srv
  have kept := fget_retract_srv (modSrv u a (loadNoted s a)) low (g := SRV_ERR_CNT1_LOAD_FAIL) (by decide) (by decide)
    (by decide)
  refine ⟨_, run, state, seq, kept.trans (count low), fun old => ?_, fun x hx recent => ?_⟩
  · rw [srv, loadNoted, recentNs_none old]
    exact ⟨rfl, Bool.or_false _⟩
  · rw [srv, loadNoted, recentNs_some hx recent]
    exact Bool.or_true _

/-- What the record of a lost position says of the arm. -/
def positionNoted (s : State) (a : Nat) (v : Servo) : Servo :=
  { v with posNs := s.tb.ns :: recentNs s (getSrv s a).posNs
           noLane := 0
           reload := true
           retireOwed := v.retireOwed || !(recentNs s (getSrv s a).posNs).isEmpty }

/-- The state from which an arm that lost its position in FOLLOW is retracted. -/
def positionCounted (s : State) (a : Nat) : State :=
  dmkSend (raise (fbump (modSrv s a (positionNoted s a)) (srvF SRV_ERR_CNT1_POS_LOST a)) (0x609 + 16 * a) a) 0x0611 a

theorem positionCounted_shows (s : State) (a : Nat) : getSrv (positionCounted s a) a = positionNoted s a (getSrv s a) ∧
    (a < 32 → fget (positionCounted s a) (srvF SRV_ERR_CNT1_POS_LOST a) =
      min (fget s (srvF SRV_ERR_CNT1_POS_LOST a) + 1) 255) := by
  have told : ReportFrame (fbump (modSrv s a (positionNoted s a)) (srvF SRV_ERR_CNT1_POS_LOST a)) (positionCounted s a) :=
    ((ReportFrame.refl _).after_raise _ _).after_dmkSend 0x0611 a
  refine ⟨?_, fun low => ?_⟩
  · rw [getSrv_congr (told.parts .srv (by decide)), getSrv_fbump, getSrv_modSrv_same]
  · rw [(driveKept_report told).srv low (by decide), fget_fbump_srv _ (by decide), fget_modSrv]
    rfl

theorem exec_positionLost (low : a < 32) (lost : 64 ≤ (getSrv s a).noLane) (follow : srvState s a = 7) :
    ∃ t, exec (.positionLost a) s = .next t ∧ srvState t a = 10 ∧ (getSrv t a).reload = true ∧ (getSrv t a).noLane = 0 ∧
      fget t (srvF SRV_ERR_CNT1_POS_LOST a) = min (fget s (srvF SRV_ERR_CNT1_POS_LOST a) + 1) 255 := by
  have run : exec (.positionLost a) s = .next (retract (positionCounted s a) a) := by
    refine (show _ = execPositionLost a s from rfl).trans
      ((if_pos (by rw [decide_eq_true low, decide_eq_true lost]; rfl)).trans ?_)
    exact (if_neg (by omega)).trans ((if_pos follow).trans rfl)
  obtain ⟨same, count⟩ := positionCounted_shows s a
  generalize positionCounted s a = u at run same count
  obtain ⟨c, n, ns, srv⟩ := retract_srv u (a := a)
  rw [same] at srv
  have kept := fget_retract_srv u low (g := SRV_ERR_CNT1_POS_LOST) (by decide) (by decide) (by decide)
  exact ⟨_, run, (retract_shows _ low).1, by rw [srv, positionNoted], by rw [srv, positionNoted], kept.trans (count low)⟩

theorem exec_listen_nothing (low : a < 32) (listens : srvState s a = 3) (speed : atSpeed s (a / 2) = true)
    (serves : rdcServes s a = true) :
    ∃ t, exec (.parkUnknownListen a false) s = .next t ∧ srvState t a = 10 ∧ (getSrv t a).reload = true ∧
      fget t (vcmF VCM_STATE_RETRACT a) = 1 := by
  have run : exec (.parkUnknownListen a false) s = .next (retract (modSrv s a fun v => { v with reload := true }) a) :=
    (show _ = execParkUnknownListen a false s from rfl).trans (if_pos (by rw [decide_eq_true low, listens, speed, serves]; rfl))
  obtain ⟨state, seq, -⟩ := retract_shows (modSrv s a fun v => { v with reload := true }) low
  obtain ⟨c, n, ns, srv⟩ := retract_srv (modSrv s a fun v => { v with reload := true }) (a := a)
  refine ⟨_, run, state, ?_, seq⟩
  rw [srv, getSrv_modSrv_same]

/-! ### Servo is acquired (R403) -/

theorem enableTask_enables (s : State) (t : Nat) : (taskLive s t = true → (getTask (enableTask s t) t).enabled = true) ∧
    (∀ k, k ≠ t → getTask (enableTask s t) k = getTask s k) ∧ (enableTask s t).ltn.shed = s.ltn.shed ∧
      Unchanged [.ltn] s (enableTask s t) := by
  unfold enableTask
  split
  case isTrue absent =>
    refine ⟨fun live => absurd absent ?_, fun _ _ => rfl, rfl, unchanged_refl _ s⟩
    unfold taskLive at live
    simp only [Bool.and_eq_true, bne_iff_ne, Bool.not_eq_true'] at live
    rw [live.2, Bool.or_false, decide_eq_true_eq]
    exact live.1
  case isFalse =>
    exact ⟨fun _ => by rw [getTask_modTask_same], fun k hk => getTask_modTask_ne _ _ _ hk, rfl, modTask_unchanged s t _⟩

/-- The arm's two tasks are enabled. -/
def tasksOn (s : State) (a : Nat) : State := enableTask (enableTask s a) (32 + a)

theorem tasksOn_enables (s : State) (a : Nat) :
    (∀ k ∈ [a, 32 + a], taskLive s k = true → (getTask (tasksOn s a) k).enabled = true) ∧
    Unchanged [.ltn] s (tasksOn s a) := by
  obtain ⟨first, -, shed, frame⟩ := enableTask_enables s a
  obtain ⟨second, others, -, frame'⟩ := enableTask_enables (enableTask s a) (32 + a)
  refine ⟨fun k hk live => ?_, unchanged_trans frame frame'⟩
  rcases List.mem_cons.mp hk with rfl | hk
  · rw [tasksOn, others k (by omega)]
    exact first live
  · rw [List.mem_singleton.mp hk] at live ⊢
    refine second ?_
    unfold taskLive taskEnt image
    rw [shed, frame .loader (by decide)]
    exact live

/-- The arm with its tasks enabled, its bridge on and SEEK shown. -/
def seekShown (s : State) (a : Nat) : State := setBridge (setSrvState (tasksOn s a) a 5) a true

/-- The start of the target's zone. -/
def targetStart (s : State) (a : Nat) : Nat :=
  ((hdaTable s (a / 2)).zones.getD (cylZone (hdaTable s (a / 2)) (getSrv s a).target) {}).cylStart

/-- The arm's record once servo is acquired. -/
def servoAcquired (s : State) (a : Nat) (v : Servo) : Servo :=
  { v with volts := 0
           seekReq := v.seekReq <|> some (v.head, targetStart s a + 1, 0)
           calDue := if v.loaded1 then v.calDue else cylZone (hdaTable s (a / 2)) (getSrv s a).target :: v.calDue
           loaded1 := true }

theorem acquired_eq (s : State) (a : Nat) : acquired s a = modSrv (seekShown s a) a (servoAcquired (seekShown s a) a) := rfl

theorem exec_listen_lanes (low : a < 32) (listens : srvState s a = 3) (speed : atSpeed s (a / 2) = true)
    (serves : rdcServes s a = true) :
    ∃ t, exec (.parkUnknownListen a true) s = .next t ∧ srvState t a = 5 ∧ fget t (vcmF VCM_STATE_BRIDGE a) = 1 ∧
      (getSrv t a).seekReq.isSome = true ∧ (∀ k ∈ [a, 32 + a], taskLive s k = true → (getTask t k).enabled = true) := by
  have run : exec (.parkUnknownListen a true) s = .next (acquired (setMode s a 2) a) :=
    (show _ = execParkUnknownListen a true s from rfl).trans (if_pos (by rw [decide_eq_true low, listens, speed, serves]; rfl))
  obtain ⟨enabled, -⟩ := tasksOn_enables (setMode s a 2) a
  have shown : ArmFrame a (tasksOn (setMode s a 2) a) (seekShown (setMode s a 2) a) :=
    (setSrvState_arm _ a 5).trans (setBridge_arm _ a true)
  rw [acquired_eq] at run
  refine ⟨_, run, ?_, ?_, ?_, fun k hk live => ?_⟩
  · change fget (modSrv (seekShown (setMode s a 2) a) a _) (srvF SRV_ACT_STATE a) = 5
    rw [fget_modSrv, seekShown, fget_setBridge_srv _ low _ (by decide), srvState_setSrvState _ low (by decide)]
  · rw [fget_modSrv, seekShown, bridge_setBridge]
    rfl
  · rw [getSrv_modSrv_same]
    generalize seekShown (setMode s a 2) a = u
    unfold servoAcquired
    dsimp only
    cases (getSrv u a).seekReq with
    | none => rfl
    | some r => rfl
  · have same : (modSrv (seekShown (setMode s a 2) a) a (servoAcquired (seekShown (setMode s a 2) a) a)).ltn =
        (tasksOn (setMode s a 2) a).ltn := shown.parts .ltn (by decide)
    rw [getTask_congr same]
    exact enabled k hk live

end failures

end Sys2Proof.Laws
end

section
/-!
PROOFS. An arm's unload ends or it leaves service; its driver and its shunts fail (R396 to R404); the statement
LoadsUnloadsAndDrivers.
-/

namespace Sys2Proof.Laws

open Sys2Proof.Machine

/-! ## Registers beside an arm's -/

section global

variable (s : State) {a : Nat} {f g : Fld} (x : Nat) (low : a < 32)
include low

theorem fget_fset_global_srv (hf : f.off < 0xD00000 ∨ 0xD20000 ≤ f.off) (hg : SrvFld g) :
    fget (fset s f x) (srvF g a) = fget s (srvF g a) := by
  refine fget_fset_off s f (srvF g a) x ?_
  simp only [srvF, Fld.ix]
  omega

theorem fget_fset_global_vcm (hf : f.off < 0xF80000 ∨ 0xF88000 ≤ f.off) (hg : VcmFld g) :
    fget (fset s f x) (vcmF g a) = fget s (vcmF g a) := by
  refine fget_fset_off s f (vcmF g a) x ?_
  simp only [vcmF, Fld.ix]
  omega

omit low in
theorem fbit_retired_other (i : Nat) (hf : f.off ≠ SRV_RETIRED_RETIRED.off) :
    fbit (fset s f x) SRV_RETIRED_RETIRED i = fbit s SRV_RETIRED_RETIRED i :=
  fbit_congr i (fget_fset_off _ _ _ _ hf.symm)

end global

/-! ## Retirement of an actuator (R404) -/

section retired

variable {s : State} {a : Nat}

/-- The retired arm's registers and record, before its member leaves its pool. -/
def armMarked (s : State) (a : Nat) : State :=
  let s := tasksOff (setBridge (setSrvState s a 11) a false) a
  let s := fsetBit s SRV_RETIRED_RETIRED a true
  modPwr (modSrv s a fun v => { v with retireOwed := false, seek := none, seekReq := none }) fun p =>
    { p with retired := if p.retired.contains (.actuator a) then p.retired else p.retired ++ [.actuator a] }

theorem enterRetired_eq (s : State) (a : Nat) : enterRetired s a = minWatch (rdcPowerOff (memberGone
    (dmkSend (raise (armMarked s a) (0x60D + 16 * a) a) 0x0614 a) true (a / 2) (some (a % 2))) a) := rfl

/-- An actuator that has left service. -/
structure ArmRetired (a : Nat) (park : Tbl Nat) (t : State) : Prop where
  state : srvState t a = 11
  listed : isRetired t (.actuator a) = true
  flag : fbit t SRV_RETIRED_RETIRED a = true
  bridge : fget t (vcmF VCM_STATE_BRIDGE a) = 0
  park : t.nv.park = park

theorem ArmRetired.after {park : Tbl Nat} {t u : State} (h : ArmRetired a park t) (low : a < 32) (kept : DriveKept t u)
    (pwr : u.pwr = t.pwr)
    (nv : u.nv.park = t.nv.park) : ArmRetired a park u :=
  ⟨(kept.srv low (by decide)).trans h.state, (isRetired_congr pwr _).trans h.listed, (kept.retired a).trans h.flag,
    (kept.vcm low (by decide)).trans h.bridge, nv.trans h.park⟩

theorem armMarked_marks (low : a < 32) : ArmRetired a s.nv.park (armMarked s a) := by
  have moved : ArmFrame a s (setBridge (setSrvState s a 11) a false) := (setSrvState_arm s a 11).trans (setBridge_arm _ a false)
  obtain ⟨-, -, off⟩ := tasksOff_disables (setBridge (setSrvState s a 11) a false) a
  have state : fget (tasksOff (setBridge (setSrvState s a 11) a false) a) (srvF SRV_ACT_STATE a) = 11 := by
    rw [fget_congr (rget_congr (off .regs (by decide)) _), fget_setBridge_srv _ low _ (by decide),
      srvState_setSrvState _ low (by decide)]
  have bridge : fget (tasksOff (setBridge (setSrvState s a 11) a false) a) (vcmF VCM_STATE_BRIDGE a) = 0 := by
    rw [fget_congr (rget_congr (off .regs (by decide)) _), bridge_setBridge]
    rfl
  have nv : (tasksOff (setBridge (setSrvState s a 11) a false) a).nv = s.nv :=
    (off .nv (by decide)).trans (moved.parts .nv (by decide))
  have marked : armMarked s a = modPwr (modSrv (fsetBit
    (tasksOff (setBridge (setSrvState s a 11) a false) a) SRV_RETIRED_RETIRED a true) a
      fun v => { v with retireOwed := false, seek := none, seekReq := none }) fun p =>
        { p with retired := if p.retired.contains (.actuator a) then p.retired else p.retired ++ [.actuator a] } := rfl
  generalize tasksOff (setBridge (setSrvState s a 11) a false) a = u at state bridge nv marked
  obtain ⟨v, hv⟩ : ∃ v, fsetBit u SRV_RETIRED_RETIRED a true = v := ⟨_, rfl⟩
  rw [hv] at marked
  rw [marked]
  refine ⟨?_, ?_, ?_, ?_, ?_⟩
  · change fget v (srvF SRV_ACT_STATE a) = 11
    rw [← hv, fsetBit, fget_fset_global_srv _ _ low (.inr (show 0xD20000 ≤ 0xD80004 by decide)) (by decide), state]
  · unfold isRetired modPwr
    dsimp only
    split
    case isTrue already => exact already
    case isFalse => simp
  · change fbit v SRV_RETIRED_RETIRED a = true
    rw [← hv, fbit_fsetBit _ _ _ (by decide) low low, if_pos rfl]
  · change fget v (vcmF VCM_STATE_BRIDGE a) = 0
    rw [← hv, fsetBit, fget_fset_global_vcm _ _ low (.inl (show 0xD80004 < 0xF80000 by decide)) (by decide), bridge]
  · change v.nv.park = s.nv.park
    rw [← hv, ← nv]
    rfl

theorem enterRetired_retires (low : a < 32) : ArmRetired a s.nv.park (enterRetired s a) := by
  have marked := armMarked_marks (s := s) low
  rw [enterRetired_eq]
  generalize armMarked s a = u at marked ⊢
  have told : ReportFrame u (dmkSend (raise u (0x60D + 16 * a) a) 0x0614 a) :=
    ((ReportFrame.refl u).after_raise _ _).after_dmkSend _ _
  have reported := marked.after low (driveKept_report told) (told.parts .pwr (by decide)) (by rw [told.parts .nv (by decide)])
  have member := memberGone_member (dmkSend (raise u (0x60D + 16 * a) a) 0x0614 a) true (a / 2) (some (a % 2))
  obtain ⟨p, nv⟩ := member.nv
  have gone := reported.after low member.regs (member.parts .pwr (by decide)) (by rw [nv])
  generalize memberGone (dmkSend (raise u (0x60D + 16 * a) a) 0x0614 a) true (a / 2) (some (a % 2)) = w at gone ⊢
  have off : Unchanged [.regs] w (rdcPowerOff w a) := by
    unfold rdcPowerOff
    split
    · exact fsetBit_unchanged w _ _ _
    · exact unchanged_refl _ w
  have powered := gone.after low (driveKept_powerOff w a) (off .pwr (by decide)) (by rw [off .nv (by decide)])
  have watch := minWatch_frame (rdcPowerOff w a)
  exact powered.after low (driveKept_report watch) (watch.parts .pwr (by decide)) (by rw [watch.parts .nv (by decide)])

end retired

/-! ## Unloads end (R400, R401, R403) -/

section ends

variable {s : State} {a : Nat}

/-- The parked arm's record. -/
def armParked (v : Servo) : Servo :=
  { v with volts := 0
           wedge := none
           x := none
           seek := none
           noLane := 0
           lanes := v.lanes.map fun l => { l with valid := false } }

theorem flushWritesPark_congr {s t : State} (phase : t.phase = s.phase) (rst : t.rst = s.rst) :
    flushWritesPark t = flushWritesPark s := by
  unfold flushWritesPark
  rw [phase, rst]

/-- The arm with its bridge off, its tasks disabled and SLEEP asked for. -/
def armAsleep (s : State) (a : Nat) : State := setMode
    (fset (tasksOff (setBridge s a false) a) (vcmF VCM_STATE_RETRACT a) 0) a 0

theorem armAsleep_unchanged (s : State) (a : Nat) : Unchanged [.regs, .out, .ltn, .rdc] s (armAsleep s a) := by
  have off := (tasksOff_disables (setBridge s a false) a).2.2
  unfold armAsleep setMode Machine.pushFrame
  rw [after_modRdc _ _ _ (by decide), after_fset _ _ (by decide), unchanged_step off (by decide), setBridge,
    after_fset _ _ (by decide),
    after_emit _ (by decide)]
  exact unchanged_refl _ s

/-- The arm parked. -/
def parkedArm (s : State) (a : Nat) : State := fset (modSrv (setPark (armAsleep s a) a 1) a armParked) (srvF SRV_ACT_LANES a) 0

theorem unloadEnd_eq (plain : flushWritesPark s = false) : unloadEnd s a =
    if (getSrv (parkedArm s a) a).retireOwed then enterRetired (parkedArm s a) a
    else if (getSrv (rdcPowerOff (setSrvState (parkedArm s a) a 2) a) a).reload &&
        loadOk (rdcPowerOff (setSrvState (parkedArm s a) a 2) a) a then
      startLoad (rdcPowerOff (setSrvState (parkedArm s a) a 2) a) a
    else rdcPowerOff (setSrvState (parkedArm s a) a 2) a := by
  have asleep := armAsleep_unchanged s a
  have still := (flushWritesPark_congr (asleep .phase (by decide)) (asleep .rst (by decide))).trans plain
  unfold unloadEnd
  dsimp only
  rw [← tasksOff, ← armAsleep, still]
  rfl

/-- What the parked arm shows. -/
structure Parked (a : Nat) (s t : State) : Prop where
  bridge : fget t (vcmF VCM_STATE_BRIDGE a) = 0
  seq : fget t (vcmF VCM_STATE_RETRACT a) = 0
  park : tget 0 t.nv.park a = 1
  shown : fget t (srvF SRV_ACT_PARK_REC a) = 1
  tasks : (getTask t a).enabled = false ∧ (getTask t (32 + a)).enabled = false
  mode : { cls := 2, addr := 1, data := some 0 } ∈ (getRdc t a).frames
  srv : getSrv t a = armParked (getSrv s a)

theorem parkedArm_parks (low : a < 32) : Parked a s (parkedArm s a) := by
  obtain ⟨first, second, off⟩ := tasksOff_disables (setBridge s a false) a
  have asleep := armAsleep_unchanged s a
  have bridge : fget (armAsleep s a) (vcmF VCM_STATE_BRIDGE a) = 0 := by
    rw [armAsleep, setMode, Machine.pushFrame, fget_modRdc, fget_fset_vcm _ _ (by decide),
      fget_congr (rget_congr (off .regs (by decide)) _),
      bridge_setBridge]
    rfl
  have seq : fget (armAsleep s a) (vcmF VCM_STATE_RETRACT a) = 0 := by
    rw [armAsleep, setMode, Machine.pushFrame, fget_modRdc, fget_fset_vcm_same _ _ (by decide)]
    rfl
  have mode : { cls := 2, addr := 1, data := some 0 } ∈ (getRdc (armAsleep s a) a).frames := by
    rw [armAsleep, setMode, Machine.pushFrame, getRdc_modRdc_same]
    exact List.mem_append_right _ List.mem_cons_self
  have ltn : (armAsleep s a).ltn = (tasksOff (setBridge s a false) a).ltn := rfl
  rw [← getTask_congr ltn] at first second
  have whole : parkedArm s a = fset (modSrv (setPark (armAsleep s a) a 1) a armParked) (srvF SRV_ACT_LANES a) 0 := rfl
  generalize armAsleep s a = w at asleep bridge seq mode first second whole
  have beside := setPark_unchanged w 1 a
  have frame : Unchanged [.regs, .srv] (setPark w a 1) (parkedArm s a) := by
    rw [whole, after_fset _ _ (by decide), after_modSrv _ _ _ (by decide)]
    exact unchanged_refl _ _
  have same : (parkedArm s a).ltn = w.ltn := (frame .ltn (by decide)).trans (beside .ltn (by decide))
  refine ⟨?_, ?_, ?_, ?_, ⟨?_, ?_⟩, ?_, ?_⟩
  · rw [whole, fget_fset_srv_vcm _ _ low (by decide) (by decide), fget_modSrv, fget_setPark_vcm _ _ low (by decide), bridge]
  · rw [whole, fget_fset_srv_vcm _ _ low (by decide) (by decide), fget_modSrv, fget_setPark_vcm _ _ low (by decide), seq]
  · rw [frame .nv (by decide), setPark_record]
  · rw [whole, fget_fset_srv _ _ (by decide), fget_modSrv, setPark_shows _ _ (by decide)]
  · rw [getTask_congr same]
    exact first
  · rw [getTask_congr same]
    exact second
  · rw [getRdc_congr (frame .rdc (by decide)), getRdc_congr (beside .rdc (by decide))]
    exact mode
  · rw [whole, getSrv_fset, getSrv_modSrv_same, getSrv_congr (beside .srv (by decide)), getSrv_congr (asleep .srv (by decide))]

theorem exec_unloadEnd {i : Instr} (low : a < 32) (cause : (i = .retractDone a ∧ srvState s a = 10) ∨
    (i = .unloadDone a ∧ srvState s a = 9 ∧ 8 ≤ (getSrv s a).outRun)) : exec i s = .next (unloadEnd s a) := by
  rcases cause with ⟨rfl, state⟩ | ⟨rfl, state, out⟩
  · exact (show _ = execRetractDone a s from rfl).trans (if_pos (by rw [decide_eq_true low, state]; rfl))
  · exact (show _ = execUnloadDone a s from rfl).trans (if_pos (by rw [decide_eq_true low, state, decide_eq_true out]; rfl))

theorem unloadEnd_parks (low : a < 32) (plain : flushWritesPark s = false) (serves : (getSrv s a).retireOwed = false)
    (stays : (getSrv s a).reload = false) : srvState (unloadEnd s a) a = 2 ∧
      fget (unloadEnd s a) (vcmF VCM_STATE_BRIDGE a) = 0 ∧
      fget (unloadEnd s a) (vcmF VCM_STATE_RETRACT a) = 0 ∧ tget 0 (unloadEnd s a).nv.park a = 1 ∧
      fget (unloadEnd s a) (srvF SRV_ACT_PARK_REC a) = 1 ∧ (getTask (unloadEnd s a) a).enabled = false ∧
      (getTask (unloadEnd s a) (32 + a)).enabled = false ∧
        { cls := 2, addr := 1, data := some 0 } ∈ (getRdc (unloadEnd s a) a).frames := by
  obtain ⟨bridge, seq, park, shown, ⟨first, second⟩, mode, srv⟩ := parkedArm_parks (s := s) low
  have whole := unloadEnd_eq (s := s) (a := a) plain
  rw [srv] at whole
  generalize parkedArm s a = u at bridge seq park shown first second mode srv whole
  rw [if_neg (by rw [armParked, serves]; decide)] at whole
  have moved := setSrvState_arm u a 2
  have state := srvState_setSrvState u low (show 2 < 16 by decide)
  have vcm {g : Fld} (hg : VcmFld g) : fget (setSrvState u a 2) (vcmF g a) = fget u (vcmF g a) :=
    fget_setSrvState_vcm u low 2 hg
  have rec_ : fget (setSrvState u a 2) (srvF SRV_ACT_PARK_REC a) = 1 :=
    (fget_setSrvState_srv u low 2 (by decide) (by decide) (by decide) (by decide)).trans shown
  have reload : (getSrv (setSrvState u a 2) a).reload = false := by
    rw [getSrv_setSrvState, srv]
    exact stays
  generalize setSrvState u a 2 = v at whole moved state vcm rec_ reload
  have kept := driveKept_powerOff v a
  have frame : Unchanged [.regs] v (rdcPowerOff v a) := by
    unfold rdcPowerOff
    split
    · exact fsetBit_unchanged v _ _ _
    · exact unchanged_refl _ v
  rw [getSrv_congr (frame .srv (by decide)), reload, Bool.false_and, if_neg Bool.false_ne_true] at whole
  have same : (rdcPowerOff v a).ltn = u.ltn := (frame .ltn (by decide)).trans (moved.parts .ltn (by decide))
  rw [whole]
  refine ⟨(kept.srv low (by decide)).trans state, (kept.vcm low (by decide)).trans ((vcm (by decide)).trans bridge),
    (kept.vcm low (by decide)).trans ((vcm (by decide)).trans seq), ?_, (kept.srv low (by decide)).trans rec_, ?_, ?_, ?_⟩
  · rw [frame .nv (by decide), moved.parts .nv (by decide)]
    exact park
  · rw [getTask_congr same]
    exact first
  · rw [getTask_congr same]
    exact second
  · rw [getRdc_congr (frame .rdc (by decide))]
    exact moved.frames mode

theorem unloadEnd_retires (low : a < 32) (plain : flushWritesPark s = false) (owed : (getSrv s a).retireOwed = true) :
    srvState (unloadEnd s a) a = 11 ∧ isRetired (unloadEnd s a) (.actuator a) = true ∧
      fbit (unloadEnd s a) SRV_RETIRED_RETIRED a = true ∧ fget (unloadEnd s a) (vcmF VCM_STATE_BRIDGE a) = 0 ∧
      tget 0 (unloadEnd s a).nv.park a = 1 := by
  have parked := parkedArm_parks (s := s) low
  have retired := enterRetired_retires (s := parkedArm s a) low
  rw [unloadEnd_eq plain, if_pos (by rw [parked.srv]; exact owed)]
  exact ⟨retired.state, retired.listed, retired.flag, retired.bridge, by rw [retired.park]; exact parked.park⟩

end ends

/-! ## STRANDED and the driver (R399) -/

section driver

variable {s : State} {a : Nat}

/-- The stranded arm's registers, before its report. -/
def strandShown (s : State) (a : Nat) : State :=
  let s := tasksOff (setBridge (offTrack (setSrvState s a 12) a) a false) a
  fset (fset (fsetBit s SRV_RETIRED_RETIRED a true) (vcmF VCM_STATE_STRANDED a) 1) (SPN_STATE_HOLD.ix (a / 2) 0x1000) 1

theorem strand_eq (s : State) (a : Nat) : strand s a =
    memberGone (dmkSend (raise (strandShown s a) (vcmSrc a + 2) a) 0x0894 a) true (a / 2) (some (a % 2)) := rfl

/-- What a stranded arm shows. -/
structure Stranded (a : Nat) (s t : State) : Prop where
  state : srvState t a = 12
  bridge : fget t (vcmF VCM_STATE_BRIDGE a) = 0
  shown : fget t (vcmF VCM_STATE_STRANDED a) = 1
  flag : fbit t SRV_RETIRED_RETIRED a = true
  fault : fget t (vcmF VCM_STATE_DRV_FLT a) = fget s (vcmF VCM_STATE_DRV_FLT a)

theorem strandShown_shows (low : a < 32) : Stranded a s (strandShown s a) := by
  obtain ⟨-, -, off⟩ := tasksOff_disables (setBridge (offTrack (setSrvState s a 12) a) a false) a
  have regs (f : Fld) : fget (tasksOff (setBridge (offTrack (setSrvState s a 12) a) a false) a) f =
      fget (setBridge (offTrack (setSrvState s a 12) a) a false) f := fget_congr (rget_congr (off .regs (by decide)) _)
  have state : fget (tasksOff (setBridge (offTrack (setSrvState s a 12) a) a false) a) (srvF SRV_ACT_STATE a) = 12 := by
    rw [regs, fget_setBridge_srv _ low _ (by decide), fget_offTrack_srv _ (by decide) (by decide),
      srvState_setSrvState _ low (by decide)]
  have bridge : fget (tasksOff (setBridge (offTrack (setSrvState s a 12) a) a false) a) (vcmF VCM_STATE_BRIDGE a) = 0 := by
    rw [regs, bridge_setBridge]
    rfl
  have fault : fget (tasksOff (setBridge (offTrack (setSrvState s a 12) a) a false) a) (vcmF VCM_STATE_DRV_FLT a) =
      fget s (vcmF VCM_STATE_DRV_FLT a) := by
    rw [regs, fget_setBridge_vcm _ _ (by decide), fget_offTrack_vcm _ low (by decide), fget_setSrvState_vcm _ low _ (by decide)]
  have spnSrv (u : State) {g : Fld} (hg : SrvFld g) :
    fget (fset u (SPN_STATE_HOLD.ix (a / 2) 0x1000) 1) (srvF g a) = fget u (srvF g a) :=
    fget_fset_global_srv u 1 low (.inr (show 0xD20000 ≤ 0xF00000 + a / 2 * 0x1000 by omega)) hg
  have spnVcm (u : State) {g : Fld} (hg : VcmFld g) :
    fget (fset u (SPN_STATE_HOLD.ix (a / 2) 0x1000) 1) (vcmF g a) = fget u (vcmF g a) :=
    fget_fset_global_vcm u 1 low (.inl (show 0xF00000 + a / 2 * 0x1000 < 0xF80000 by omega)) hg
  unfold strandShown
  dsimp only
  generalize tasksOff (setBridge (offTrack (setSrvState s a 12) a) a false) a = u at state bridge fault ⊢
  have markSrv {g : Fld} (hg : SrvFld g) : fget (fsetBit u SRV_RETIRED_RETIRED a true) (srvF g a) = fget u (srvF g a) :=
    fget_fset_global_srv u _ low (.inr (show 0xD20000 ≤ 0xD80004 by decide)) hg
  have markVcm {g : Fld} (hg : VcmFld g) : fget (fsetBit u SRV_RETIRED_RETIRED a true) (vcmF g a) = fget u (vcmF g a) :=
    fget_fset_global_vcm u _ low (.inl (show 0xD80004 < 0xF80000 by decide)) hg
  refine ⟨?_, ?_, ?_, ?_, ?_⟩
  · change fget _ (srvF SRV_ACT_STATE a) = 12
    rw [spnSrv _ (by decide), fget_fset_vcm_srv _ _ low (by decide) (by decide), markSrv (by decide), state]
  · rw [spnVcm _ (by decide), fget_fset_vcm _ _ (by decide), markVcm (by decide), bridge]
  · rw [spnVcm _ (by decide), fget_fset_vcm_same _ _ (by decide)]
    rfl
  · rw [fbit_retired_other _ _ _ (show 0xF00000 + a / 2 * 0x1000 ≠ 0xD80004 by omega),
      fbit_retired_other _ _ _ (show 0xF80000 + a * 0x400 ≠ 0xD80004 by omega), fbit_fsetBit _ _ _ (by decide) low low,
        if_pos rfl]
  · rw [spnVcm _ (by decide), fget_fset_vcm _ _ (by decide), markVcm (by decide), fault]

theorem strand_strands (low : a < 32) : Stranded a s (strand s a) := by
  obtain ⟨state, bridge, shown, flag, fault⟩ := strandShown_shows (s := s) low
  have kept := (driveKept_told (strandShown s a) (vcmSrc a + 2) 0x0894 a).trans
    (memberGone_member (dmkSend (raise (strandShown s a) (vcmSrc a + 2) a) 0x0894 a) true (a / 2) (some (a % 2))).regs
  rw [← strand_eq] at kept
  exact ⟨(kept.srv low (by decide)).trans state, (kept.vcm low (by decide)).trans bridge,
    (kept.vcm low (by decide)).trans shown,
    (kept.retired a).trans flag, (kept.vcm low (by decide)).trans fault⟩

/-- The arm with its bridge open after a driver fault, its gate fallen and the fault's time noted. -/
def driverNoted (s : State) (a : Nat) : State :=
  let u := dropGate (setBridge (fset s (vcmF VCM_STATE_DRV_FLT a) 1) a false) a 0x21
  modSrv u a fun v => { v with drvNs := u.tb.ns :: recentNs s (getSrv s a).drvNs }

/-- The arm after a driver fault, before it may be stranded. -/
def driverOpened (s : State) (a : Nat) : State := dmkSend (raise (driverNoted s a) (vcmSrc a + 2) a) 0x0892 a

theorem driverOpened_shows (low : a < 32) : fget (driverOpened s a) (vcmF VCM_STATE_BRIDGE a) = 0 ∧
    fget (driverOpened s a) (vcmF VCM_STATE_DRV_FLT a) = 1 ∧ srvState (driverOpened s a) a = srvState s a := by
  have fell := (dropGate_frame (setBridge (fset s (vcmF VCM_STATE_DRV_FLT a) 1) a false) a 0x21 false).2 rfl
  have kept := driveKept_told (driverNoted s a) (vcmSrc a + 2) 0x0892 a
  unfold srvState
  rw [driverOpened]
  refine ⟨?_, ?_, ?_⟩
  · rw [kept.vcm low (by decide), driverNoted, fget_modSrv, fell.fget_vcm _ low (by decide), bridge_setBridge]
    rfl
  · rw [kept.vcm low (by decide), driverNoted, fget_modSrv, fell.fget_vcm _ low (by decide), fget_setBridge_vcm _ _ (by decide),
      fget_fset_vcm_same _ _ (by decide)]
    rfl
  · rw [kept.srv low (by decide), driverNoted, fget_modSrv, fell.fget_srv _ low (by decide),
      fget_setBridge_srv _ low _ (by decide),
      fget_fset_vcm_srv _ _ low (by decide) (by decide)]

theorem exec_vcmDriverFault_eq (low : a < 32) (ge : 4 ≤ srvState s a) (le : srvState s a ≤ 10) : exec (.vcmDriverFault a) s =
    .next (if (recentNs s (getSrv s a).drvNs).isEmpty then driverOpened s a else strand (driverOpened s a) a) := by
  refine (show _ = execVcmDriverFault a s from rfl).trans ?_
  unfold execVcmDriverFault
  dsimp only
  rw [if_neg (by simp; omega), if_pos (by simp [ge, le])]
  rfl

theorem exec_vcmDriverFault (low : a < 32) (ge : 4 ≤ srvState s a) (le : srvState s a ≤ 10) :
    ∃ t, exec (.vcmDriverFault a) s = .next t ∧ fget t (vcmF VCM_STATE_BRIDGE a) = 0 ∧
      fget t (vcmF VCM_STATE_DRV_FLT a) = 1 ∧
      ((∀ x ∈ (getSrv s a).drvNs, 600000000000 < s.tb.ns - x) → srvState t a = srvState s a) ∧
      (∀ x ∈ (getSrv s a).drvNs, s.tb.ns - x ≤ 600000000000 → srvState t a = 12 ∧
        fget t (vcmF VCM_STATE_STRANDED a) = 1) := by
  have run := exec_vcmDriverFault_eq low ge le
  obtain ⟨bridge, fault, state⟩ := driverOpened_shows (s := s) low
  cases recent : (recentNs s (getSrv s a).drvNs).isEmpty with
  | true =>
    rw [recent, if_pos rfl] at run
    exact ⟨_, run, bridge, fault, fun _ => state, fun x hx young => absurd ((recentNs_some hx young).symm.trans recent)
      (by decide)⟩
  | false =>
    rw [recent, if_neg (by decide)] at run
    have stranded := strand_strands (s := driverOpened s a) low
    exact ⟨_, run, stranded.bridge, stranded.fault.trans fault, fun old => absurd recent (by rw [recentNs_none old]; decide),
      fun _ _ _ => ⟨stranded.state, stranded.shown⟩⟩

theorem exec_vcmDriverRetry_fails (low : a < 32) (ge : 4 ≤ srvState s a) (le : srvState s a ≤ 10)
    (fault : fget s (vcmF VCM_STATE_DRV_FLT a) = 1) :
    ∃ t, exec (.vcmDriverRetry a false) s = .next t ∧ srvState t a = 12 ∧ fget t (vcmF VCM_STATE_BRIDGE a) = 0 ∧
      fget t (vcmF VCM_STATE_STRANDED a) = 1 ∧ fbit t SRV_RETIRED_RETIRED a = true := by
  have stranded := strand_strands (s := s) low
  refine ⟨_, (show _ = execVcmDriverRetry a false s from rfl).trans (if_pos ?_), stranded.state, stranded.bridge,
    stranded.shown, stranded.flag⟩
  simp [low, ge, le, fault]

/-- The arm after a retry of its driver: the bridge is on. -/
def driverRetried (s : State) (a : Nat) : State := setBridge (fset s (vcmF VCM_STATE_DRV_FLT a) 0) a true

/-- An arm that tracked seeks its target again. -/
def seekAgain (s : State) (a : Nat) : State :=
  setSrvState (offTrack (modSrv s a fun v => { v with seekReq := v.seekReq <|> some (v.head, v.target, v.readOfs) }) a) a 5

theorem exec_vcmDriverRetry_ok (low : a < 32) (ge : 4 ≤ srvState s a) (le : srvState s a ≤ 10)
    (fault : fget s (vcmF VCM_STATE_DRV_FLT a) = 1) :
    ∃ t, exec (.vcmDriverRetry a true) s = .next t ∧ fget t (vcmF VCM_STATE_DRV_FLT a) = 0 ∧
      fget t (vcmF VCM_STATE_BRIDGE a) = 1 ∧ srvState t a = (if 5 ≤ srvState s a ∧ srvState s a ≤ 8 then 5 else 10) := by
  have run : exec (.vcmDriverRetry a true) s = .next
    (if (5 ≤ srvState s a && srvState s a ≤ 8) = true then seekAgain (driverRetried s a) a
      else retract (driverRetried s a) a) := by
    refine (show _ = execVcmDriverRetry a true s from rfl).trans
      ((if_pos (by simp [low, ge, le, fault])).trans ((if_pos rfl).trans ?_))
    exact (apply_ite Host.Outcome.next _ _ _).symm
  have bridge : fget (driverRetried s a) (vcmF VCM_STATE_BRIDGE a) = 1 := by
    rw [driverRetried, bridge_setBridge]
    rfl
  have cleared : fget (driverRetried s a) (vcmF VCM_STATE_DRV_FLT a) = 0 := by
    rw [driverRetried, fget_setBridge_vcm _ _ (by decide), fget_fset_vcm_same _ _ (by decide)]
    rfl
  generalize driverRetried s a = u at run bridge cleared
  by_cases tracks : 5 ≤ srvState s a ∧ srvState s a ≤ 8
  · rw [if_pos (by simpa using tracks)] at run
    rw [if_pos tracks]
    refine ⟨_, run, ?_, ?_, srvState_setSrvState _ low (by decide)⟩
    · rw [seekAgain, fget_setSrvState_vcm _ low _ (by decide), fget_offTrack_vcm _ low (by decide), fget_modSrv, cleared]
    · rw [seekAgain, fget_setSrvState_vcm _ low _ (by decide), fget_offTrack_vcm _ low (by decide), fget_modSrv, bridge]
  · rw [if_neg (by simpa using tracks)] at run
    rw [if_neg tracks]
    obtain ⟨state, -, on, -⟩ := retract_shows u low
    exact ⟨_, run, (fget_retract_vcm u low (by decide) (by decide) (by decide)).trans cleared, on, state⟩

end driver

/-! ## Shunts (R398) -/

section shunts

variable {s : State} {a : Nat}

/-- Leg A's shunt is lost and shown. -/
def shuntShown (s : State) (a : Nat) : State :=
  fset (modSrv s a fun v => { v with shuntA := { v.shuntA with lost := true } }) (vcmF VCM_STATE_SHUNT_A a) 2

theorem getSrv_shuntShown (s : State) (a : Nat) :
    getSrv (shuntShown s a) a = { getSrv s a with shuntA := { (getSrv s a).shuntA with lost := true } } := by
  rw [shuntShown, getSrv_fset, getSrv_modSrv_same]

theorem exec_shuntLost_eq (low : a < 32) (bad : 2 ≤ (getSrv s a).shuntA.bad) (found : (getSrv s a).shuntA.lost = false) :
    exec (.shuntLost a 0) s = .next (if (getSrv s a).shuntB.lost = true then
        retireAct (disableTask (dmkSend (raise (shuntShown s a) (vcmSrc a + 1) a) 0x0891 a) (32 + a)) a true
      else dmkSend (raise (memberGone (setInhibit (shuntShown s a) a 5 true) true (a / 2) (some (a % 2)))
        (vcmSrc a) a) 0x0890 a) := by
  refine (show _ = execShuntLost a 0 s from rfl).trans ((if_pos (by simp [low, bad, found])).trans ?_)
  change (if ((getSrv (shuntShown s a) a).shuntA.lost && (getSrv (shuntShown s a) a).shuntB.lost) = true then _ else _) = _
  rw [getSrv_shuntShown, Bool.true_and]
  exact (apply_ite Host.Outcome.next _ _ _).symm

theorem setInhibit_bit (u : State) (low : a < 32) {k : Nat} (hk : k < 8) :
    fbit (setInhibit u a k true) (srvF SRV_ACT_INHIBIT a) k = true := by
  have trip := (compTrip_arm (fsetBit u (srvF SRV_ACT_INHIBIT a) k true) a).2.2 (srvF SRV_ACT_INHIBIT a).off
    (srvFld_drive low (g := SRV_ACT_INHIBIT) (by decide)).1 (srvFld_drive low (g := SRV_ACT_INHIBIT) (by decide)).2
    (show 0xD00000 + a * 0x1000 ≠ 0xD00028 + a * 0x1000 by omega)
  refine (fbit_congr k (fget_congr trip)).trans ?_
  rw [fbit_fsetBit _ _ _ (show 8 + 8 ≤ 32 by decide) hk hk, if_pos rfl]

theorem exec_shuntLost_one (low : a < 32) (bad : 2 ≤ (getSrv s a).shuntA.bad) (found : (getSrv s a).shuntA.lost = false)
    (other : (getSrv s a).shuntB.lost = false) : ∃ t, exec (.shuntLost a 0) s = .next t ∧ (getSrv t a).shuntA.lost = true ∧
      fget t (vcmF VCM_STATE_SHUNT_A a) = 2 ∧ fbit t (srvF SRV_ACT_INHIBIT a) 5 = true ∧ srvState t a = srvState s a := by
  have run := exec_shuntLost_eq low bad found
  rw [if_neg (by rw [other]; decide)] at run
  have bit := setInhibit_bit (shuntShown s a) low (show 5 < 8 by decide)
  have srv : getSrv (setInhibit (shuntShown s a) a 5 true) a =
    { getSrv s a with shuntA := { (getSrv s a).shuntA with lost := true } } := by
    rw [getSrv_setInhibit, getSrv_shuntShown]
  have shown : fget (setInhibit (shuntShown s a) a 5 true) (vcmF VCM_STATE_SHUNT_A a) = 2 := by
    rw [fget_setInhibit_vcm _ low _ _ (by decide), shuntShown, fget_fset_vcm_same _ _ (by decide)]
    rfl
  have state : fget (setInhibit (shuntShown s a) a 5 true) (srvF SRV_ACT_STATE a) = srvState s a := by
    rw [fget_setInhibit_srv _ low _ _ (by decide) (by decide) (by decide), shuntShown,
      fget_fset_vcm_srv _ _ low (by decide) (by decide),
      fget_modSrv]
    rfl
  generalize setInhibit (shuntShown s a) a 5 true = u at run bit srv shown state
  have member := memberGone_member u true (a / 2) (some (a % 2))
  have kept : DriveKept u (dmkSend (raise (memberGone u true (a / 2) (some (a % 2))) (vcmSrc a) a) 0x0890 a) :=
    DriveKept.trans member.regs (driveKept_told _ (vcmSrc a) 0x0890 a)
  have told : Unchanged reportParts (memberGone u true (a / 2) (some (a % 2)))
      (dmkSend (raise (memberGone u true (a / 2) (some (a % 2))) (vcmSrc a) a) 0x0890 a) :=
    unchanged_trans (raise_unchanged _ _ _) (dmkSend_unchanged _ _ _)
  refine ⟨_, run, ?_, (kept.vcm low (by decide)).trans shown, ?_, (kept.srv low (by decide)).trans state⟩
  · rw [getSrv_congr (told .srv (by decide)), getSrv_congr (member.parts .srv (by decide)), srv]
  · exact (fbit_congr 5 (kept.srv low (g := SRV_ACT_INHIBIT) (by decide))).trans bit

/-- A retirement cause that asks for the sequencer while heads are loaded. -/
theorem retireAct_retracts (ge : 4 ≤ srvState s a) (le : srvState s a ≤ 9) :
    retireAct s a true = retract (modSrv s a fun v => { v with retireOwed := true }) a := by
  unfold retireAct
  dsimp only
  rw [if_neg (by simp; omega), if_pos (by simp; omega), if_pos rfl]
  exact if_pos (by
    change (4 ≤ srvState s a && srvState s a ≤ 9) = true
    simp [ge, le])

theorem exec_shuntLost_both (low : a < 32) (bad : 2 ≤ (getSrv s a).shuntA.bad) (found : (getSrv s a).shuntA.lost = false)
    (other : (getSrv s a).shuntB.lost = true) (ge : 4 ≤ srvState s a) (le : srvState s a ≤ 9) :
    ∃ t, exec (.shuntLost a 0) s = .next t ∧ (getSrv t a).shuntA.lost = true ∧ srvState t a = 10 ∧
      (getSrv t a).retireOwed = true := by
  have run := exec_shuntLost_eq low bad found
  rw [if_pos other] at run
  have kept := driveKept_told (shuntShown s a) (vcmSrc a + 1) 0x0891 a
  have told : Unchanged reportParts (shuntShown s a) (dmkSend (raise (shuntShown s a) (vcmSrc a + 1) a) 0x0891 a) :=
    unchanged_trans (raise_unchanged _ _ _) (dmkSend_unchanged _ _ _)
  have state : srvState (dmkSend (raise (shuntShown s a) (vcmSrc a + 1) a) 0x0891 a) a = srvState s a := by
    unfold srvState
    rw [kept.srv low (by decide), shuntShown, fget_fset_vcm_srv _ _ low (by decide) (by decide), fget_modSrv]
  have srv := getSrv_congr (told .srv (by decide)) a
  rw [getSrv_shuntShown] at srv
  generalize dmkSend (raise (shuntShown s a) (vcmSrc a + 1) a) 0x0891 a = u at run state srv
  have off := (disableTask_disables u (32 + a)).2.2
  have still : srvState (disableTask u (32 + a)) a = srvState s a :=
    (fget_congr (rget_congr (off .regs (by decide)) _)).trans state
  have record := getSrv_congr (off .srv (by decide)) a
  rw [srv] at record
  generalize disableTask u (32 + a) = v at run still record
  rw [retireAct_retracts (by rw [still]; exact ge) (by rw [still]; exact le)] at run
  obtain ⟨c, n, ns, last⟩ := retract_srv (modSrv v a fun v => { v with retireOwed := true }) (a := a)
  rw [getSrv_modSrv_same, record] at last
  exact ⟨_, run, by rw [last], (retract_shows _ low).1, by rw [last]⟩

end shunts

/-! ## The statement -/

/-- Settles O48: each operation's end by the rule of its own section; an arm keeps what it shows over its reports and over what its
member leaves in the pools. -/
theorem loadsUnloadsAndDrivers : Obligations.LoadsUnloadsAndDrivers := by
  refine ⟨fun s a low ok => ⟨exec_load_started low ok, exec_load_measures low ok, exec_load_resync low ok,
    exec_loadRetry low ok⟩,
    fun s a low loading long => exec_loadTimeout low loading long, fun s a i low cause => ?_, fun s a i low mem ge le ok => ?_,
    fun s a i low cause plain => ⟨fun serves stays => ?_,
      fun owed => ⟨_, exec_unloadEnd low cause, unloadEnd_retires low plain owed⟩⟩,
    fun s a low listens speed serves => ⟨exec_listen_lanes low listens speed serves,
      exec_listen_nothing low listens speed serves⟩,
    fun s a low lost follow => exec_positionLost low lost follow,
    fun s a low ge le => ⟨exec_vcmDriverFault low ge le,
      fun fault => ⟨exec_vcmDriverRetry_ok low ge le fault, exec_vcmDriverRetry_fails low ge le fault⟩⟩,
    fun s a low bad found => ⟨exec_shuntLost_one low bad found, exec_shuntLost_both low bad found⟩⟩
  · obtain ⟨state, seq, bridge, count, on, rd⟩ := retract_shows s low
    obtain ⟨c, n, ns, srv⟩ := retract_srv s (a := a)
    exact ⟨_, exec_retracts low cause, state, seq, bridge, by rw [srv], by rw [srv], count, on, rd⟩
  · obtain ⟨state, target, seek, on, frame⟩ := guided_shows s low
    exact ⟨_, exec_guides low mem ge le ok, state, target, seek, on, by rw [frame.parts .nv (by decide)]⟩
  · obtain ⟨state, bridge, seq, park, shown, first, second, mode⟩ := unloadEnd_parks low plain serves stays
    exact ⟨_, exec_unloadEnd low cause, state, bridge, seq, park, shown, first, second, mode⟩

end Sys2Proof.Laws
end
